-- ==== Sys2Proof/Word.lean ====
section
/-! DEFINITION. The words, addresses and sparse tables the KL6430 model is written in. -/

namespace Sys2Proof

/-- One byte. -/
abbrev Byte := BitVec 8
/-- A 16-bit half word. -/
abbrev Half := BitVec 16
/-- A 32-bit word: a control register, a packet word, a FIFO word. -/
abbrev Word32 := BitVec 32
/-- A 64-bit word: a `g` register, the time base. -/
abbrev Word64 := BitVec 64
/-- A device address (R23). -/
abbrev Addr := BitVec 48
/-- A requester identity, CLASS and INDEX (R176). -/
abbrev Rid := BitVec 16
/-- A register number of a Vexku instruction. -/
abbrev Reg := BitVec 5
/-- A hearth, 0 to 15. -/
abbrev HearthId := Fin 16
/-- A core that runs Vexku code: the application cores 0 to 63, and 64 for the Stoker. -/
abbrev CoreId := Fin 65
/-- A damper channel, 0 to 63 (R277). -/
abbrev DamperId := Fin 64
/-- A fault source number, 0x000 to 0x3FF (R270). -/
abbrev SourceId := Fin 1024
/-- A Bobbin queue, 0 to 4,095. -/
abbrev QueueId := Fin 4096

/-- A sparse table: the keys that hold a value of their own, in rising order; every other key
holds the value that the reader of the table names. -/
structure Tbl (α : Type) where
  /-- The rows, by rising key. -/
  rows : List (Nat × α)
  deriving DecidableEq, Repr

end Sys2Proof
end

