-- ==== Sys2Proof/Syntax.lean ====
section
/-! DEFINITION. The commands of the KL6430 as a block: what happens at its pins, links, registers and in its
sequencers, one constructor per row of spec/opcode_table.json, and the types of their operands. The rows carry no
encoding; a unit's number is a bounded number, so that no command names a unit that does not exist. An operand that is
given a value here has it where a command does not name it. -/

namespace Sys2Proof

/-- A unit with lanes: the hearths 0 to 15, and 16 the Stoker. -/
abbrev UnitId := Fin 17
/-- A physical lane of a unit, 0 to 12. -/
abbrev LaneNo := Fin 13
/-- A power domain, PD_000 to PD_243 (R458). -/
abbrev DomainId := Fin 244
/-- A time-base compare, 8 × core + j (R266). -/
abbrev CompareId := Fin 512

/-- Where a command packet comes from (R61). -/
inductive CmdSrc where
  /-- The PCIe command ring. -/
  | pcie
  /-- The maintenance SPI. -/
  | mspi
  /-- The base device's forwarded stream, at a course. -/
  | base
  /-- A UDP datagram: the MAC, and the sender's address and port. -/
  | eth (mac : Fin 2) (addr : BitVec 48)
  deriving DecidableEq, Repr

/-- A command packet as the Stoker reads it, without the OPCODE that names the row (R66). -/
structure Packet where
  /-- The source. -/
  src : CmdSrc
  /-- SEQ. -/
  seq : Half
  /-- PLEN. -/
  plen : Half
  /-- TARGET. -/
  target : Byte
  /-- FLAGS. -/
  flags : Byte
  /-- SESSION. -/
  session : Word32
  /-- CRC. -/
  crc : Word32
  /-- The parameter bytes that the slot or frame holds, at most PLEN of them. -/
  params : List Byte
  deriving DecidableEq, Repr

/-- What the training of a DRAM channel found (R353). -/
structure Training where
  /-- The channel trained. -/
  ok : Bool
  /-- Two ranks. -/
  ranks : Bool
  /-- Dense devices. -/
  density : Bool
  /-- The step that failed, or the last. -/
  step : BitVec 3
  deriving DecidableEq, Repr

/-- What a timed step of KINDLE found when it completed (R50, R51). -/
inductive KindleResult where
  /-- Step 1: the self-check. -/
  | selfCheck
  /-- Step 2: the fuse vote. -/
  | fuses (ok : Bool)
  /-- Step 3: the Stoker lanes that failed BIST, whether the Stoker hob could be repaired, and the spare rows and columns
  that its test used beyond those of the fuse map. -/
  | stoker (failed : BitVec 4) (hobOk : Bool) (rows cols : Nat)
  /-- Step 4: the spares of the fuse map. -/
  | spares
  /-- Step 5: training of channels 0 to 3, and the repair rows whose sPPR failed. -/
  | dram (c0 c1 c2 c3 : Training) (failedRows : List Nat)
  /-- Step 7 or 7′: a slot was read and checked; whether the flash device could be read. -/
  | image (readable : Bool)
  /-- Step 8. -/
  | lockout
  /-- Step 9. -/
  | pattern
  deriving DecidableEq, Repr

/-- What a hearth's start-up test found (R334, R335). -/
structure StartupResult where
  /-- Failing lanes, by bit. -/
  lanes : BitVec 13
  /-- Failing seams, by local core. -/
  seams : BitVec 4
  /-- No failure of the hob is beyond repair by spares. -/
  hobOk : Bool
  /-- Failing rows that are not pending repair: each takes a spare row. -/
  rows : Nat
  /-- Spare columns the test needs. -/
  cols : Nat
  /-- The bellows passed. -/
  bellowsOk : Bool
  deriving DecidableEq, Repr

/-- The blocks that have the common registers of R35, by BLOCK_TYPE and INSTANCE. -/
structure BlockId where
  /-- BLOCK_TYPE. -/
  typ : Half
  /-- INSTANCE. -/
  inst : Half
  deriving DecidableEq, Repr

/-- What the entry of a power domain to its off-state meets (R460). -/
inductive EntryEnd where
  /-- Nothing outside the controller's own checks. -/
  | clear
  /-- A block of the domain reports work that it cannot drop at once. -/
  | busy (block : Rid)
  /-- A vote, an access or a wake request aborts the entry. -/
  | aborted (client : Rid)
  deriving DecidableEq, Repr

/-- A reference clock whose loss the device detects (R288, R430). -/
inductive RefClk where
  | tb | pcie | mem | thm
  deriving DecidableEq, Repr

/-- A slot of a seam (R101). -/
inductive Slot where
  | a | b | c
  deriving DecidableEq, Repr

/-- A commit token (R89). -/
structure CommitTok where
  /-- PC. -/
  pc : BitVec 62
  /-- EVENT. -/
  event : Byte
  /-- DEST_V. -/
  destV : Bool
  /-- DEST_CLASS. -/
  destClass : BitVec 2
  /-- DEST_IDX. -/
  destIdx : BitVec 12
  /-- DEST_VAL. -/
  destVal : Word64
  /-- STORE_V. -/
  storeV : Bool
  /-- STORE_DIG. -/
  storeDig : Word32
  deriving DecidableEq, Repr

/-- A store that a retirement performs, or a half of a split one (R91): its address, its data in the low bytes, and its
bytes. -/
structure StoreHalf where
  /-- The address. -/
  addr : Word64
  /-- The data, the first byte lowest. -/
  data : Word64
  /-- The number of bytes. -/
  size : Nat
  deriving DecidableEq, Repr

/-- What a lane commits (R89, R91): the fields of its token, and the store of the retirement, of which the lane sends the
digest. -/
structure LaneCommit where
  /-- PC. -/
  pc : BitVec 62
  /-- EVENT. -/
  event : Byte
  /-- DEST_V, DEST_CLASS, DEST_IDX and DEST_VAL: none where no register is written. -/
  dest : Option (BitVec 2 × BitVec 12 × Word64)
  /-- The saved program counter of an entry. -/
  saved : Word64
  /-- The store, or its two halves in order; none where no store is performed. -/
  stores : List StoreHalf
  deriving DecidableEq, Repr

/-- A request token (R90). -/
structure RequestTok where
  /-- KIND. -/
  kind : BitVec 3
  /-- PRIV. -/
  priv : Bool
  /-- ADDR. -/
  addr : Addr
  /-- SIZE. -/
  size : BitVec 3
  /-- TAG. -/
  tag : BitVec 6
  /-- OPD_DIG. -/
  opdDig : Word32
  deriving DecidableEq, Repr

/-- What a lane requests (R90): the fields of its token, and the operand of an atomic, of which the lane sends the digest. -/
structure LaneRequest where
  /-- KIND. -/
  kind : BitVec 3
  /-- PRIV. -/
  priv : Bool
  /-- ADDR. -/
  addr : Addr
  /-- SIZE. -/
  size : BitVec 3
  /-- TAG. -/
  tag : BitVec 6
  /-- The operand of an atomic. -/
  opd : Word64
  deriving DecidableEq, Repr

/-- How a rethread stall ends (R107). -/
inductive RethreadEnd where
  /-- The copy agrees and its check passes. -/
  | ok
  /-- The copy check fails. -/
  | badCopy
  /-- A word read from the two staying lanes disagrees. -/
  | disagree
  deriving DecidableEq, Repr

/-- A stage with a stall monitor (R97). -/
inductive Stage where
  /-- A stage of a lane. -/
  | lane (u : UnitId) (lane : LaneNo)
  /-- A stage of a seam. -/
  | seam (c : CoreId)
  /-- A stage of a hearth's bellows (R235). -/
  | bellows (h : HearthId)
  /-- A router stage of a unit: a hearth, or 16 the Stoker. -/
  | other (unit : Word32)
  deriving DecidableEq, Repr

/-- What a hob access asks for (R190 to R194). -/
inductive HobOp where
  /-- A read. -/
  | read
  /-- A write. -/
  | write (bytes : List Byte)
  /-- An alias write that sets bits. -/
  | setBits (bytes : List Byte)
  /-- An alias write that clears bits. -/
  | clearBits (bytes : List Byte)
  /-- An atomic: FN and operand. -/
  | atomic (fn : BitVec 11) (operand : Word64)
  deriving DecidableEq, Repr

/-- An access that waits at a hob (R190). -/
structure HobReq where
  /-- The master's port number. -/
  master : Nat
  /-- The DMA channel behind master 5 (R189). -/
  chan : BitVec 4 := 0
  /-- The hob offset. -/
  off : BitVec 22
  /-- Size in bytes. -/
  size : Nat
  /-- What it asks for. -/
  op : HobOp
  deriving DecidableEq, Repr

/-- What the code of a pool cell shows when a queue reads it (R384). -/
inductive PoolEcc where
  /-- No error. -/
  | clean
  /-- A byte was corrected. -/
  | corrected
  /-- An uncorrectable byte in the payload word. -/
  | payload
  /-- An uncorrectable byte in LINK or HEADER. -/
  | chain
  /-- An uncorrectable byte in the owner entry. -/
  | owner
  deriving DecidableEq, Repr

/-- What the Thimble's boot found (R400 to R402). -/
structure ThmBoot where
  /-- The lanes and the kernel passed their tests. -/
  ok : Bool
  deriving DecidableEq, Repr

/-- The payload words P0 to P5 that the metrology firmware submits (R409, R410). -/
structure Payload where
  /-- P0. -/
  p0 : Word32
  /-- P1. -/
  p1 : Word32
  /-- P2. -/
  p2 : Word32
  /-- P3. -/
  p3 : Word32
  /-- P4. -/
  p4 : Word32
  /-- P5. -/
  p5 : Word32
  deriving DecidableEq, Repr

/-- How the metrology firmware answers a gate request that the kernel hands to it (R421, R422). -/
structure FwAnswer where
  /-- RESULT. -/
  result : Byte
  /-- The payload of the record that it writes for the request. -/
  payload : Payload
  deriving DecidableEq, Repr

/-- A time frame of the chimney (R482 to R484, R492). -/
structure TimeFrame where
  /-- The base's time base as the base sent it, with the delays of the links above the sender added (R483). -/
  time : Word64
  /-- MEMBERS. -/
  members : BitVec 4
  /-- The SAFE mark. -/
  safe : Bool
  /-- A step: the offset and the base frame at whose boundary it applies. -/
  step : Option (Word64 × Word64)
  deriving DecidableEq, Repr

/-- A status frame of the chimney (R482, R489). -/
structure StatusFrame where
  /-- The sender's position. -/
  pos : BitVec 3
  /-- Its mode code. -/
  mode : BitVec 4
  /-- Its time offset, in ns. -/
  offset : Word32
  /-- Its Pattern CRC. -/
  crc : Word32
  /-- w4 of its CHIMNEY_MEMBER record. -/
  part : Word32
  deriving DecidableEq, Repr

/-- A request to a chimney window (R26, R487). -/
structure WinReq where
  /-- The requester. -/
  m : Rid
  /-- The window address. -/
  addr : Addr
  /-- Size in bytes. -/
  size : Nat
  /-- The value written; a read has none. -/
  data : Option Word64
  deriving DecidableEq, Repr

/-- A received Ethernet frame, sorted as R502 names them. -/
inductive EthFrame where
  /-- The sync exchange of a PTP master (R250): whether IEEE 802.1AS or IEEE 1588, its domain, the instant of the sync's
  departure at the master and the delay of the path, in ns. -/
  | ptp (gptp : Bool) (domain : Byte) (departure : Word64) (path : Int)
  /-- A UDP/IPv4 datagram to a port: its payload, and its source address and port. -/
  | udp (port : Half) (payload : List Byte) (from_ : BitVec 48 := 0)
  /-- An ARP request or an ICMP echo request for the configured address. -/
  | query
  /-- Any other frame: from the destination address to the end of the payload, and the time base at its start. -/
  | other (bytes : List Byte)
  deriving DecidableEq, Repr

/-- A CAN FD frame (R507). -/
structure CanFrame where
  /-- ID. -/
  id : BitVec 29
  /-- IDE. -/
  ide : Bool
  /-- FDF. -/
  fdf : Bool
  /-- BRS. -/
  brs : Bool
  /-- Data, at most 64 bytes. -/
  data : List Byte
  deriving DecidableEq, Repr

/-- The commands. -/
inductive Instr where
  /-- VCA_TURN_ON: VCA rises above its 0.76 V turn-on level and the device leaves OFF for HOLD. -/
  | vcaTurnOn
  /-- VCA_BROWN_OUT: VCA stays below the 0.70 V brown-out level for 1 µs; every register is lost and the device goes to OFF. -/
  | vcaBrownOut
  /-- RESET_N_LOW: RESET_N goes low, or the reset of DEVICE_RESET takes effect; a device reset is applied and the device enters HOLD. -/
  | resetNLow
  /-- RESET_N_HIGH: RESET_N is high and the required rails have been in range for 1 ms; the device leaves HOLD for KINDLE, samples the straps and starts step 1. -/
  | resetNHigh (pos : BitVec 3)
  /-- KINDLE_STEP_COMPLETE: A timed KINDLE step (fuse vote, Stoker BIST, DRAM training, image read, lockout record read or Pattern build) completes and the sequence advances. -/
  | kindleStepComplete (r : KindleResult)
  /-- CMD_TAIL_WRITE: A host write to CMD_TAIL is checked against the ring rules and submits slots, or is dropped as a ring fault. -/
  | cmdTailWrite (v : Word32)
  /-- REPLY_TAIL_WRITE: A host write to REPLY_TAIL releases written replies, or is dropped as a ring fault. -/
  | replyTailWrite (v : Word32)
  /-- RING_RESET: A write of 0x0000_A5A5 resets both rings, discards untaken slots, aborts the PCIe transaction and advances RING_EPOCH. -/
  | ringReset (v : Word32)
  /-- APERTURE_WRITE: A host write to APERTURE sets the device address bits that BAR2 maps for later requests. -/
  | apertureWrite (v : Word32)
  /-- UNKNOWN_OPCODE: A packet whose opcode the Pattern COMMAND records do not list is answered UNKNOWN_OPCODE. -/
  | unknownOpcode (opc : BitVec 16) (p : Packet)
  /-- COMMAND_FORWARD: The base forwards a packet whose TARGET names another configured position over the chimney. -/
  | commandForward (opc : BitVec 16) (p : Packet)
  /-- FORWARDED_REPLY: A course's reply arrives at the base and is placed in the origin's reply ring or session. -/
  | forwardedReply (pos : BitVec 3) (seq : BitVec 16) (status : BitVec 16) (final : Bool) (mode : BitVec 4) (result : List Word32) (origin : Nat := 0)
  /-- PENDING_COMMAND_START: A waiting command's wait ends; steps 9 to 13 of R68 are made against the state at that instant. -/
  | pendingCommandStart (n : Nat)
  /-- DEVICE_RESET: Command 0x0101 replies DONE and applies a device reset within 1 ms. -/
  | deviceReset (p : Packet)
  /-- RUN_START: Command 0x0102 checks the start conditions and enters RUN or RUN_REDUCED at the next base-frame boundary. -/
  | runStart (p : Packet)
  /-- RUN_STOP: Command 0x0103 drives the dampers and loop outputs safe, holds the application cores in reset and enters PREPARE. -/
  | runStop (p : Packet)
  /-- DOZE_ENTER: Command 0x0104 checks the DOZE preconditions and replies DONE; the mode becomes DOZE 100 µs later. -/
  | dozeEnter (p : Packet)
  /-- DOZE_ENTRY: 100 µs after DOZE_ENTER the mode becomes DOZE and the DRAM, domains, lanes and rails enter their low-power states. -/
  | dozeEntry
  /-- MAINTAIN_ENTER: Command 0x0105 enters MAINTAIN from PREPARE under an open DBG grant. -/
  | maintainEnter (p : Packet)
  /-- MAINTAIN_EXIT: Command 0x0106 returns the device from MAINTAIN to PREPARE. -/
  | maintainExit (p : Packet)
  /-- NOP: Command 0x0107 replies DONE with no result. -/
  | nop (p : Packet)
  /-- TIME_STATUS: Command 0x0110 returns the time base, the frame number, the sync state and the servo figures. -/
  | timeStatus (p : Packet)
  /-- TIME_STEP: Command 0x0111 steps the time base by a signed offset under R251. -/
  | timeStep (p : Packet)
  /-- CONFIG_BEGIN: Command 0x0201 opens a configuration transaction and claims the named blocks for the source. -/
  | configBegin (p : Packet)
  /-- CONFIG_WRITE: Command 0x0202 writes entries into the staged values of the claimed blocks. -/
  | configWrite (p : Packet)
  /-- CONFIG_COMMIT: Command 0x0203 checks the staged set, commits every claimed block and restores them all when one block fails. -/
  | configCommit (p : Packet)
  /-- CONFIG_ABORT: Command 0x0204 discards the staged values and releases the claims. -/
  | configAbort (p : Packet)
  /-- LANE_STATUS: Command 0x0301 returns the lane, seam and fence-count registers of a hearth or of the Stoker. -/
  | laneStatus (p : Packet)
  /-- LANE_FENCE: Command 0x0302 fences an ACTIVE or SPARE lane with cause command. -/
  | laneFence (p : Packet)
  /-- LANE_RETEST: Command 0x0303 tests a FENCED or FAILED lane and rejoins it when it passes. -/
  | laneRetest (p : Packet)
  /-- CORE_RESTART: Command 0x0305 core-resets a HALTED core, bastes its lanes and starts it in TMR or DMR. -/
  | coreRestart (p : Packet)
  /-- HEARTH_RESET: Command 0x0307 applies a hearth reset and runs the hearth's start-up test. -/
  | hearthReset (p : Packet)
  /-- LOOP_LOAD: Command 0x0401 writes a checked context block, its safe image words and its OUT_GROUP nibbles. -/
  | loopLoad (p : Packet)
  /-- LOOP_PARAM: Command 0x0402 queues parameter writes for the next parameter window. -/
  | loopParam (p : Packet)
  /-- LOOP_MODE: Command 0x0403 queues a change of a PID context's MODE for the next parameter window. -/
  | loopMode (p : Packet)
  /-- LOOP_RESUME: Command 0x0404 makes the next run of a FAULTED context a preset run. -/
  | loopResume (p : Packet)
  /-- LOOP_STATUS: Command 0x0405 returns port words 0 and 6 of a context as one snapshot. -/
  | loopStatus (p : Packet)
  /-- LOOP_IMAGE_BIND: Command 0x0406 binds or unbinds a DMA channel as an image channel. -/
  | loopImageBind (p : Packet)
  /-- LOOP_EXT_WRITE: Command 0x0407 writes checked data into the extension area of a hob. -/
  | loopExtWrite (p : Packet)
  /-- BELLOWS_STATUS: Command 0x0408 returns the bellows status and counters of a hearth. -/
  | bellowsStatus (p : Packet)
  /-- BELLOWS_COUNT_CLEAR: Command 0x0409 clears the retry, fault, slack and late counters. -/
  | bellowsCountClear (p : Packet)
  /-- LOOP_INJECT: Command 0x040A arms a residue injection for the next run of a context. -/
  | loopInject (p : Packet)
  /-- SCHED_LOAD: Command 0x0410 checks a schedule at the worst case and places it in the standby bank. -/
  | schedLoad (p : Packet)
  /-- SCHED_SWAP: Command 0x0411 re-checks the standby bank and makes it active. -/
  | schedSwap (p : Packet)
  /-- SCHED_STATUS: Command 0x0412 returns the schedule state and the active bank's check result. -/
  | schedStatus (p : Packet)
  /-- SCHED_CHECK: Command 0x0413 runs the worst-case check on both banks at a named level. -/
  | schedCheck (p : Packet)
  /-- MEM_STATUS: Command 0x0501 returns the state and counters of a DRAM channel. -/
  | memStatus (p : Packet)
  /-- MEM_LOG_READ: Command 0x0502 returns the correction log of a channel. -/
  | memLogRead (p : Packet)
  /-- MEM_SCRUB: Command 0x0503 starts a scrub of a range of usable DRAM. -/
  | memScrub (p : Packet)
  /-- MEM_RETIRE: Command 0x0504 retires a 4 KiB page and writes it to the repair record. -/
  | memRetire (p : Packet)
  /-- MEM_RETIRE_LIST: Command 0x0505 returns entries of the retire map. -/
  | memRetireList (p : Packet)
  /-- MEM_REPAIR_ADD: Command 0x0506 adds a row entry to the repair record in flash. -/
  | memRepairAdd (p : Packet)
  /-- MEM_REPAIR_LIST: Command 0x0507 returns the repair record entries. -/
  | memRepairList (p : Packet)
  /-- MEM_INJECT: Command 0x0508 arms a bit flip for the next write of a line. -/
  | memInject (p : Packet)
  /-- MEM_CONFIG: Command 0x0509 stores the data rate and scrub limit in the device record. -/
  | memConfig (p : Packet)
  /-- MEM_FILL: Command 0x050A starts whole-line writes of a DRAM range with a fill word. -/
  | memFill (p : Packet)
  /-- HOB_STATUS: Command 0x0510 returns the march, error and spare state of a hob. -/
  | hobStatus (p : Packet)
  /-- HOB_COUNT_CLEAR: Command 0x0511 clears the error and conflict counters of a hob. -/
  | hobCountClear (p : Packet)
  /-- FW_STATUS: Command 0x0540 returns the refusal count and capture of a firewall unit. -/
  | fwStatus (p : Packet)
  /-- FW_VIOL_CLEAR: Command 0x0541 clears the capture and VIOL_COUNT of a privileged unit. -/
  | fwViolClear (p : Packet)
  /-- QUEUE_SET: Command 0x0601 applies queue configurations in one engine step. -/
  | queueSet (p : Packet)
  /-- QUEUE_STATUS: Command 0x0602 returns the configuration and occupancy of a queue. -/
  | queueStatus (p : Packet)
  /-- QUEUE_FLUSH: Command 0x0603 frees a queue's visible cells and clears BROKEN. -/
  | queueFlush (p : Packet)
  /-- POOL_STATUS: Command 0x0604 returns the pool state and counters. -/
  | poolStatus (p : Packet)
  /-- QUEUE_BIND: Command 0x0605 binds a queue to an interrupt slot of a core. -/
  | queueBind (p : Packet)
  /-- FLUE_STATUS: Command 0x0701 returns the Flue state words as one snapshot. -/
  | flueStatus (p : Packet)
  /-- FLUE_HISTORY_READ: Command 0x0702 returns the newest history records. -/
  | flueHistoryRead (p : Packet)
  /-- LOCKOUT_RESET: Command 0x0703 erases the lockout record, clears the recovery windows and enters PREPARE while OP_RESET_N is low. -/
  | lockoutReset (p : Packet)
  /-- ERRPIN_RELEASE: Command 0x0704 releases the error pin pair, or waits for the hold time to end. -/
  | errpinRelease (p : Packet)
  /-- FLUE_RELEASE: Command 0x0705 releases a hearth hold and named safe-group selections. -/
  | flueRelease (p : Packet)
  /-- FLUE_TEST: Command 0x0706 raises a source as one test event and applies its reaction. -/
  | flueTest (p : Packet)
  /-- FLUE_EVENTS_READ: Command 0x0707 returns records from the spill ring. -/
  | flueEventsRead (p : Packet)
  /-- FLUE_ACTIVE: Command 0x0708 returns the ACTIVE and LATCH words. -/
  | flueActive (p : Packet)
  /-- WDT_STATUS: Command 0x0801 returns the state of one watchdog. -/
  | wdtStatus (p : Packet)
  /-- PWR_STATUS: Command 0x0901 returns the levels, AVSBus setting, supply state and telemetry. -/
  | pwrStatus (p : Packet)
  /-- PWR_LEVEL: Command 0x0902 checks and carries out a performance level change of a rail. -/
  | pwrLevel (p : Packet)
  /-- PWR_VOTE: Command 0x0903 sets or clears the Stoker's vote on a domain. -/
  | pwrVote (p : Packet)
  /-- PAD_RELEASE: Command 0x0904 releases the held pads of a domain that is ON. -/
  | padRelease (p : Packet)
  /-- PWR_DOMAIN_STATUS: Command 0x0905 returns the state, counts and last refusal of a domain. -/
  | pwrDomainStatus (p : Packet)
  /-- PWR_COUNT_CLEAR: Command 0x0906 clears every DOM_ACCT count. -/
  | pwrCountClear (p : Packet)
  /-- IMAGE_STATUS: Command 0x0A01 returns the image slots, staging state and digests. -/
  | imageStatus (p : Packet)
  /-- IMAGE_STAGE_BEGIN: Command 0x0A02 starts staging an image of a given length and fills STAGE with zeros. -/
  | imageStageBegin (p : Packet)
  /-- IMAGE_STAGE_CHUNK: Command 0x0A03 writes a chunk of image bytes into STAGE. -/
  | imageStageChunk (p : Packet)
  /-- IMAGE_VERIFY: Command 0x0A04 starts verification of the staged image under R440. -/
  | imageVerify (p : Packet)
  /-- IMAGE_DISCARD: Command 0x0A05 empties STAGE. -/
  | imageDiscard (p : Packet)
  /-- IMAGE_PERSIST: Command 0x0A06 writes and verifies an image into slot B and then slot A. -/
  | imagePersist (p : Packet)
  /-- CUTOVER: Command 0x0A08 checks and arms a cutover of named hearths at frame F_c. -/
  | cutover (p : Packet)
  /-- CUTOVER_STATUS: Command 0x0A09 returns the cutover state and last outcome. -/
  | cutoverStatus (p : Packet)
  /-- ATTEST: Command 0x0A10 returns an attestation report signed with the identity key. -/
  | attest (p : Packet)
  /-- EXPERT_GRANT: Command 0x0A20 opens direct register or debug access to a block. -/
  | expertGrant (p : Packet)
  /-- GRANT_RELEASE: Command 0x0A21 ends the grant that it names. -/
  | grantRelease (p : Packet)
  /-- EXPERT_LOG_READ: Command 0x0A23 returns expert log records and marks them read. -/
  | expertLogRead (p : Packet)
  /-- LC_NONCE_GET: Command 0x0A30 returns DEV.LC_NONCE. -/
  | lcNonceGet (p : Packet)
  /-- LC_TOKEN: Command 0x0A31 checks a life-cycle token, blows the target group and resets the device. -/
  | lcToken (p : Packet)
  /-- SESSION_CFG: Command 0x0A40 enables or disables Ethernet command sessions and stores the setting in flash. -/
  | sessionCfg (p : Packet)
  /-- SESSION_OPEN: Command 0x0A41 unwraps a session key and opens an Ethernet session. -/
  | sessionOpen (p : Packet)
  /-- SESSION_CLOSE: Command 0x0A42 ends the session that it names. -/
  | sessionClose (p : Packet)
  /-- SESSION_STATUS: Command 0x0A43 returns the open sessions. -/
  | sessionStatus (p : Packet)
  /-- THM_STATUS: Command 0x0B01 returns the Thimble status page as one read. -/
  | thmStatus (p : Packet)
  /-- THM_GATE: Command 0x0B02 passes one request through the gate and replies with its answer. -/
  | thmGate (p : Packet)
  /-- THM_FORWARD: Command 0x0B03 starts or stops forwarding of ring slots into a safety queue. -/
  | thmForward (p : Packet)
  /-- THM_SLOT_ERASE: Command 0x0B04 erases a Thimble flash slot that is not running. -/
  | thmSlotErase (p : Packet)
  /-- THM_SLOT_WRITE: Command 0x0B05 programs bytes of a Thimble flash slot that is not running. -/
  | thmSlotWrite (p : Packet)
  /-- CHIMNEY_STATUS: Command 0x0C01 returns the chimney state and the members' modes. -/
  | chimneyStatus (p : Packet)
  /-- CHIMNEY_SET: Command 0x0C02 stores MEMBERS in flash for the next KINDLE. -/
  | chimneySet (p : Packet)
  /-- CHIMNEY_RETRAIN: Command 0x0C03 takes named chimney links down and retrains them. -/
  | chimneyRetrain (p : Packet)
  /-- DAMP_STATUS: Command 0x0D01 returns the damper state registers. -/
  | dampStatus (p : Packet)
  /-- FIO_STATUS: Command 0x0D10 returns the field I/O state and drop counts. -/
  | fioStatus (p : Packet)
  /-- BASTE_STATUS: Command 0x0E01 returns the basting state as one snapshot. -/
  | basteStatus (p : Packet)
  /-- BASTE_RESULTS: Command 0x0E02 returns basting result records. -/
  | basteResults (p : Packet)
  /-- BASTE_NOW: Command 0x0E03 makes a unit's next basting turn due at once. -/
  | basteNow (p : Packet)
  /-- SCAN_OPEN: Command 0x0E10 zeroises secrets and opens the private scan instructions. -/
  | scanOpen (p : Packet)
  /-- TRACE_STATUS: Command 0x0F01 returns the trace configuration and counters. -/
  | traceStatus (p : Packet)
  /-- MSPI_WRITE_CMD: Maintenance SPI op 0x01 places a command packet in the inbound buffer. -/
  | mspiWriteCmd (len : Half) (complete : Bool) (bytes : List Byte)
  /-- MSPI_READ_REPLY: Maintenance SPI op 0x02 returns and releases the oldest reply. -/
  | mspiReadReply (complete : Bool)
  /-- MSPI_READ_POLL: Maintenance SPI op 0x03 reads bytes of the poll page. -/
  | mspiReadPoll (off : BitVec 16) (len : BitVec 16) (complete : Bool)
  /-- MSPI_READ_PATTERN: Maintenance SPI op 0x04 reads bytes of the Pattern copy. -/
  | mspiReadPattern (off : BitVec 16) (len : BitVec 16) (complete : Bool)
  /-- MSPI_STATUS: Maintenance SPI op 0x05 clears FRAME_ERR. -/
  | mspiStatus
  /-- COMMIT: A write of COMMIT.GO snapshots the staged values and sets STATE to BUSY. -/
  | commit (m : Rid) (b : BlockId) (v : Word32)
  /-- COMMIT_POINT: A block reaches its commit point, checks the snapshot and makes it active or reports CONFLICT. -/
  | commitPoint (b : BlockId)
  /-- STAGE_DISCARD: A write of STAGE_DISCARD.GO copies the active values back into the staged values. -/
  | stageDiscard (m : Rid) (b : BlockId) (v : Word32)
  /-- REGISTER_WRITE: A write to a control register with no row of its own follows its access type, the width rule and the grant rule. -/
  | registerWrite (m : Rid) (addr : Addr) (size : Nat) (v : Word32)
  /-- POLL_REFRESH: The Stoker rewrites the refreshed fields of the poll page every 100 µs. -/
  | pollRefresh
  /-- LANE_CMD_FENCE: A LANE_CMD write with OP 0x1 fences a lane as LANE_FENCE does. -/
  | laneCmdFence (m : Rid) (h : HearthId) (lane : BitVec 4)
  /-- LANE_CMD_RETEST: A LANE_CMD write with OP 0x2 retests a lane as LANE_RETEST does. -/
  | laneCmdRetest (m : Rid) (h : HearthId) (lane : BitVec 4)
  /-- ARM: A CH_CMD write with OP ARM and the correct key arms the channels of its mask. -/
  | arm (m : Rid) (h : HearthId) (v : Word32)
  /-- ENERGISE: A CH_CMD write with OP ENERGISE checks each channel and moves armed channels to STARTING. -/
  | energise (m : Rid) (h : HearthId) (v : Word32) (fb : BitVec 4)
  /-- DE_ENERGISE: A CH_CMD write with OP DE-ENERGISE returns the channels of its mask to SAFE. -/
  | deEnergise (m : Rid) (h : HearthId) (v : Word32)
  /-- ARM_EXPIRY: An ARMED channel with no accepted ENERGISE for 10 µs returns to SAFE. -/
  | armExpiry (h : HearthId)
  /-- DAMPER_PERIOD_BOUNDARY: The damper interval counter reaches a multiple of 100,000 ns; STARTING channels become LIVE. -/
  | damperPeriodBoundary
  /-- DAMPER_MISMATCH: A pad differs from its drive for 1 µs or the feedback disagrees with the channel state; the channel goes to FAULT. -/
  | damperMismatch (n : DamperId) (cause : BitVec 2)
  /-- RB_SETTLE_EXPIRY: The settle time of a channel ends and its feedback is judged against the state due. -/
  | rbSettleExpiry (n : DamperId) (fb : Bool)
  /-- FAULT_DETECTION: A fault source detects an event and the reaction matrix applies the reactions of its mask. -/
  | faultDetection (src : SourceId) (d0 : Word32) (d1 : Word32)
  /-- LEVEL_SOURCE_INACTIVE: The condition of a level source ends and the source becomes inactive. -/
  | levelSourceInactive (src : SourceId)
  /-- REACTION_COMPLETE: Every channel a reaction forced confirms de-energised or reaches its settle end; the reaction is no longer in progress. -/
  | reactionComplete
  /-- INTAKE_TAKE: Every 20 ns the intake takes one source with a pending count and makes an event or count record. -/
  | intakeTake
  /-- EVENT_RING_ENQUEUE: The intake FIFO enqueues a record into the event ring through the TRY port. -/
  | eventRingEnqueue
  /-- SPILL_MOVE: The Stoker moves records from the event ring into the DRAM spill ring and TRIP records into the flash history. -/
  | spillMove (n : Nat)
  /-- CFG_SWEEP: Every 200 µs the sweep compares the three Flue copies and repairs or resets mismatching words. -/
  | cfgSweep (bad : Option (Nat × Bool))
  /-- SAFE_EXIT: Every tripping source is inactive and every forced channel confirmed; SAFE is left for QUIET or LOCKOUT. -/
  | safeExit
  /-- LOCKOUT_RECORD_WRITTEN: The lockout record is complete in flash and LOCKOUT_REC reads 1. -/
  | lockoutRecordWritten
  /-- QUIET_PERIOD_EXPIRY: QUIET_MS elapses without a trip; holds are released and the return mode is entered. -/
  | quietPeriodExpiry
  /-- RECOVERY_ENTRY_EXPIRY: A recovery leaves the rolling window 86,400 s after it was made. -/
  | recoveryEntryExpiry (hearth : Option HearthId)
  /-- LOCAL_QUIET_EXPIRY: LOCAL_QUIET_MS passes since the last event of a hold or selection, which is then released. -/
  | localQuietExpiry (h : HearthId)
  /-- ERRPIN_HOLD_EXPIRY: The error pin hold time ends; a pending release or an automatic release takes effect. -/
  | errpinHoldExpiry
  /-- OP_RESET_DEBOUNCED: OP_RESET_N has been low for 20 ms and counts as low. -/
  | opResetDebounced
  /-- OP_RESET_STUCK: OP_RESET_N has been low for 60 s and is ignored until high for 1 s. -/
  | opResetStuck
  /-- REFCLK_LOSS: A reference clock is absent or off frequency in four consecutive 1 µs windows. -/
  | refclkLoss (which : RefClk) (kHz : Word32)
  /-- WDT_KEY_WRITE: A CTLWR to WDT_KEY arms the watchdog or makes a service attempt, judged against the window. -/
  | wdtKeyWrite (c : CoreId) (rs : Reg)
  /-- WDT_CHECKIN: A CTLWR to WDT_CHECKIN checks in a task token. -/
  | wdtCheckin (c : CoreId) (rs : Reg)
  /-- WINDOW_CLOSE: The closing tick of a cycle passes without a valid service and the watchdog expires with cause CLOSED. -/
  | windowClose (c : CoreId)
  /-- HARD_TIMER_EXPIRY: The hard timer runs out; the core is core-reset and restarts from its reset entry. -/
  | hardTimerExpiry (c : CoreId)
  /-- REQ_LIMIT_EXPIRY: A required core's watchdog is still OFF REQ_LIMIT µs after reset; it expires with cause NOT_STARTED. -/
  | reqLimitExpiry (c : CoreId)
  /-- SUSPENSION_LIMIT: A watchdog suspension by a flash erase ends at the erase's end or after 500 ms. -/
  | suspensionLimit
  /-- COMMIT_TOKEN: A lane's commit token arrives at its seam and is voted. -/
  | commitToken (c : CoreId) (slot : Slot) (tok : LaneCommit)
  /-- REQUEST_TOKEN: A lane's request token arrives at its seam and is voted. -/
  | requestToken (c : CoreId) (slot : Slot) (tok : LaneRequest)
  /-- STRAGGLER_WINDOW_EXPIRY: The straggler window W ends before the missing token arrives; the lane is fenced or the core halts. -/
  | stragglerWindowExpiry (c : CoreId)
  /-- STALL_MONITOR_EXPIRY: A stage holds an accepted token for 2,000 ns without raising its request. -/
  | stallMonitorExpiry (at_ : Stage)
  /-- SEAM_CHECK: A dual-rail code error in a seam halts the core at once. -/
  | seamCheck (c : CoreId)
  /-- ROUTED_TOKEN: A token crosses a router and its check code and sequence tag are checked at the destination. -/
  | routedToken (u : UnitId) (m : Rid) (write : Bool) (ok : Bool)
  /-- RETHREAD_COMPLETE: A rethread stall ends; the new lane is ACTIVE and the seam mode updated. -/
  | rethreadComplete (c : CoreId) (r : RethreadEnd) (seamOk : Bool)
  /-- RETHREAD_TIMER_EXPIRY: The 5,000 ns rethread timer expires; the rethread fails and the lane is fenced. -/
  | rethreadTimerExpiry (c : CoreId)
  /-- FENCE_WINDOW_EXPIRY: A counted fence leaves a lane's rolling 24 h window. -/
  | fenceWindowExpiry (u : UnitId) (lane : LaneNo)
  /-- STOKER_RESTART_COMPLETE: The restarted Stoker has reloaded its image and serves commands again. -/
  | stokerRestartComplete
  /-- INTERRUPT_ENTRY: A takeable interrupt enters in 14 beats at an instruction boundary. -/
  | interruptEntry (c : CoreId) (late : List Nat)
  /-- TRAP_ENTRY: A raised trap enters in 14 beats through its vector slot. -/
  | trapEntry (c : CoreId) (code : BitVec 6) (eaddr : Word64) (detail : BitVec 8)
  /-- ADD: Integer add. -/
  | add (c : CoreId) (rd : Reg) (ra : Reg) (rb : Reg)
  /-- SUB: Integer subtract. -/
  | sub (c : CoreId) (rd : Reg) (ra : Reg) (rb : Reg)
  /-- AND: Bitwise and. -/
  | and_ (c : CoreId) (rd : Reg) (ra : Reg) (rb : Reg)
  /-- OR: Bitwise or. -/
  | or_ (c : CoreId) (rd : Reg) (ra : Reg) (rb : Reg)
  /-- XOR: Bitwise exclusive-or. -/
  | xor (c : CoreId) (rd : Reg) (ra : Reg) (rb : Reg)
  /-- SHL: Shift left. -/
  | shl (c : CoreId) (rd : Reg) (ra : Reg) (rb : Reg)
  /-- SHR: Logical shift right. -/
  | shr (c : CoreId) (rd : Reg) (ra : Reg) (rb : Reg)
  /-- SAR: Arithmetic shift right. -/
  | sar (c : CoreId) (rd : Reg) (ra : Reg) (rb : Reg)
  /-- CLT: Signed compare less than. -/
  | clt (c : CoreId) (rd : Reg) (ra : Reg) (rb : Reg)
  /-- CLTU: Unsigned compare less than. -/
  | cltu (c : CoreId) (rd : Reg) (ra : Reg) (rb : Reg)
  /-- ADD32: 32-bit add, zero-extended. -/
  | add32 (c : CoreId) (rd : Reg) (ra : Reg) (rb : Reg)
  /-- SUB32: 32-bit subtract, zero-extended. -/
  | sub32 (c : CoreId) (rd : Reg) (ra : Reg) (rb : Reg)
  /-- CLZ: Count leading zeros. -/
  | clz (c : CoreId) (rd : Reg) (ra : Reg)
  /-- POPC: Population count. -/
  | popc (c : CoreId) (rd : Reg) (ra : Reg)
  /-- MIN: Signed minimum. -/
  | min_ (c : CoreId) (rd : Reg) (ra : Reg) (rb : Reg)
  /-- MAX: Signed maximum. -/
  | max_ (c : CoreId) (rd : Reg) (ra : Reg) (rb : Reg)
  /-- MINU: Unsigned minimum. -/
  | minu (c : CoreId) (rd : Reg) (ra : Reg) (rb : Reg)
  /-- MAXU: Unsigned maximum. -/
  | maxu (c : CoreId) (rd : Reg) (ra : Reg) (rb : Reg)
  /-- ANDN: And with the complement of RB. -/
  | andn (c : CoreId) (rd : Reg) (ra : Reg) (rb : Reg)
  /-- ROTR: Rotate right. -/
  | rotr (c : CoreId) (rd : Reg) (ra : Reg) (rb : Reg)
  /-- MUL: Low 64 bits of a product. -/
  | mul (c : CoreId) (rd : Reg) (ra : Reg) (rb : Reg)
  /-- MULHI: High 64 bits of a signed product. -/
  | mulhi (c : CoreId) (rd : Reg) (ra : Reg) (rb : Reg)
  /-- MULHIU: High 64 bits of an unsigned product. -/
  | mulhiu (c : CoreId) (rd : Reg) (ra : Reg) (rb : Reg)
  /-- MAC: Multiply-accumulate into RD. -/
  | mac (c : CoreId) (rd : Reg) (ra : Reg) (rb : Reg)
  /-- DIVS: Signed divide in 34 beats. -/
  | divs (c : CoreId) (rd : Reg) (ra : Reg) (rb : Reg)
  /-- DIVU: Unsigned divide in 34 beats. -/
  | divu (c : CoreId) (rd : Reg) (ra : Reg) (rb : Reg)
  /-- REMS: Signed remainder in 34 beats. -/
  | rems (c : CoreId) (rd : Reg) (ra : Reg) (rb : Reg)
  /-- REMU: Unsigned remainder in 34 beats. -/
  | remu (c : CoreId) (rd : Reg) (ra : Reg) (rb : Reg)
  /-- ADDI: Add signed immediate. -/
  | addi (c : CoreId) (rd : Reg) (ra : Reg) (imm : BitVec 16)
  /-- CLTI: Signed compare with immediate. -/
  | clti (c : CoreId) (rd : Reg) (ra : Reg) (imm : BitVec 16)
  /-- CLTIU: Unsigned compare with immediate. -/
  | cltiu (c : CoreId) (rd : Reg) (ra : Reg) (imm : BitVec 16)
  /-- ANDI: And with zero-extended immediate. -/
  | andi (c : CoreId) (rd : Reg) (ra : Reg) (imm : BitVec 16)
  /-- ORI: Or with zero-extended immediate. -/
  | ori (c : CoreId) (rd : Reg) (ra : Reg) (imm : BitVec 16)
  /-- XORI: Exclusive-or with zero-extended immediate. -/
  | xori (c : CoreId) (rd : Reg) (ra : Reg) (imm : BitVec 16)
  /-- SHLI: Shift left by immediate count. -/
  | shli (c : CoreId) (rd : Reg) (ra : Reg) (n : BitVec 6)
  /-- SHRI: Logical shift right by immediate count. -/
  | shri (c : CoreId) (rd : Reg) (ra : Reg) (n : BitVec 6)
  /-- SARI: Arithmetic shift right by immediate count. -/
  | sari (c : CoreId) (rd : Reg) (ra : Reg) (n : BitVec 6)
  /-- ROTRI: Rotate right by immediate count. -/
  | rotri (c : CoreId) (rd : Reg) (ra : Reg) (n : BitVec 6)
  /-- MOVHI: Load an immediate into bits [31:16]. -/
  | movhi (c : CoreId) (rd : Reg) (imm : BitVec 16)
  /-- INSH: Replace bits [47:32] with an immediate. -/
  | insh (c : CoreId) (rd : Reg) (ra : Reg) (imm : BitVec 16)
  /-- INST: Replace bits [63:48] with an immediate. -/
  | inst (c : CoreId) (rd : Reg) (ra : Reg) (imm : BitVec 16)
  /-- LB: Load a sign-extended byte. -/
  | lb (c : CoreId) (rd : Reg) (ra : Reg) (imm : BitVec 16) (wait : Bool := false)
  /-- LBU: Load a zero-extended byte. -/
  | lbu (c : CoreId) (rd : Reg) (ra : Reg) (imm : BitVec 16) (wait : Bool := false)
  /-- LH: Load a sign-extended halfword. -/
  | lh (c : CoreId) (rd : Reg) (ra : Reg) (imm : BitVec 16) (wait : Bool := false)
  /-- LHU: Load a zero-extended halfword. -/
  | lhu (c : CoreId) (rd : Reg) (ra : Reg) (imm : BitVec 16) (wait : Bool := false)
  /-- LW: Load a sign-extended word. -/
  | lw (c : CoreId) (rd : Reg) (ra : Reg) (imm : BitVec 16) (wait : Bool := false)
  /-- LWU: Load a zero-extended word. -/
  | lwu (c : CoreId) (rd : Reg) (ra : Reg) (imm : BitVec 16) (wait : Bool := false)
  /-- LD: Load a doubleword. -/
  | ld (c : CoreId) (rd : Reg) (ra : Reg) (imm : BitVec 16) (wait : Bool := false)
  /-- FLW: Load a binary32 value into an f register. -/
  | flw (c : CoreId) (rd : Reg) (ra : Reg) (imm : BitVec 16) (wait : Bool := false)
  /-- FLD: Load a binary64 value into an f register. -/
  | fld (c : CoreId) (rd : Reg) (ra : Reg) (imm : BitVec 16) (wait : Bool := false)
  /-- SB: Store a byte. -/
  | sb (c : CoreId) (rs : Reg) (ra : Reg) (imm : BitVec 16)
  /-- SH: Store a halfword. -/
  | sh (c : CoreId) (rs : Reg) (ra : Reg) (imm : BitVec 16)
  /-- SW: Store a word. -/
  | sw (c : CoreId) (rs : Reg) (ra : Reg) (imm : BitVec 16)
  /-- SD: Store a doubleword. -/
  | sd (c : CoreId) (rs : Reg) (ra : Reg) (imm : BitVec 16)
  /-- FSW: Store bits [31:0] of an f register. -/
  | fsw (c : CoreId) (rs : Reg) (ra : Reg) (imm : BitVec 16)
  /-- FSD: Store an f register. -/
  | fsd (c : CoreId) (rs : Reg) (ra : Reg) (imm : BitVec 16)
  /-- ATOMIC: An indivisible read-modify-write selected by FN, returning the old value. -/
  | atomic (c : CoreId) (rd : Reg) (ra : Reg) (rb : Reg) (fn : BitVec 11) (wait : Bool := false)
  /-- BEQ: Branch if equal. -/
  | beq (c : CoreId) (ra : Reg) (rb : Reg) (off : BitVec 16)
  /-- BNE: Branch if not equal. -/
  | bne (c : CoreId) (ra : Reg) (rb : Reg) (off : BitVec 16)
  /-- BLT: Branch if signed less than. -/
  | blt (c : CoreId) (ra : Reg) (rb : Reg) (off : BitVec 16)
  /-- BGE: Branch if signed greater or equal. -/
  | bge (c : CoreId) (ra : Reg) (rb : Reg) (off : BitVec 16)
  /-- BLTU: Branch if unsigned less than. -/
  | bltu (c : CoreId) (ra : Reg) (rb : Reg) (off : BitVec 16)
  /-- BGEU: Branch if unsigned greater or equal. -/
  | bgeu (c : CoreId) (ra : Reg) (rb : Reg) (off : BitVec 16)
  /-- J: Jump. -/
  | j (c : CoreId) (off : BitVec 26)
  /-- JAL: Jump and link into g31. -/
  | jal (c : CoreId) (off : BitVec 26)
  /-- JALR: Jump to a register address and link. -/
  | jalr (c : CoreId) (rd : Reg) (ra : Reg) (imm : BitVec 16)
  /-- FADD: Floating add. -/
  | fadd (c : CoreId) (rd : Reg) (ra : Reg) (rb : Reg) (dbl : Bool)
  /-- FSUB: Floating subtract. -/
  | fsub (c : CoreId) (rd : Reg) (ra : Reg) (rb : Reg) (dbl : Bool)
  /-- FMUL: Floating multiply. -/
  | fmul (c : CoreId) (rd : Reg) (ra : Reg) (rb : Reg) (dbl : Bool)
  /-- FDIV: Floating divide. -/
  | fdiv (c : CoreId) (rd : Reg) (ra : Reg) (rb : Reg) (dbl : Bool)
  /-- FSQRT: Floating square root. -/
  | fsqrt (c : CoreId) (rd : Reg) (ra : Reg) (dbl : Bool)
  /-- FMIN: IEEE minimumNumber. -/
  | fmin (c : CoreId) (rd : Reg) (ra : Reg) (rb : Reg) (dbl : Bool)
  /-- FMAX: IEEE maximumNumber. -/
  | fmax (c : CoreId) (rd : Reg) (ra : Reg) (rb : Reg) (dbl : Bool)
  /-- FABS: Floating absolute value. -/
  | fabs (c : CoreId) (rd : Reg) (ra : Reg) (dbl : Bool)
  /-- FNEG: Floating negate. -/
  | fneg (c : CoreId) (rd : Reg) (ra : Reg) (dbl : Bool)
  /-- FCOPYSIGN: Copy the sign of RB onto RA's magnitude. -/
  | fcopysign (c : CoreId) (rd : Reg) (ra : Reg) (rb : Reg) (dbl : Bool)
  /-- FCMP: Floating compare under a predicate into a g register. -/
  | fcmp (c : CoreId) (rd : Reg) (ra : Reg) (rb : Reg) (pr : BitVec 3) (dbl : Bool)
  /-- FKIND: Write the class code of a floating value. -/
  | fkind (c : CoreId) (rd : Reg) (ra : Reg) (dbl : Bool)
  /-- FTOI32: Convert to a signed 32-bit integer. -/
  | ftoi32 (c : CoreId) (rd : Reg) (ra : Reg) (dbl : Bool)
  /-- FTOI64: Convert to a signed 64-bit integer. -/
  | ftoi64 (c : CoreId) (rd : Reg) (ra : Reg) (dbl : Bool)
  /-- ITOF32: Convert a signed 32-bit integer to floating. -/
  | itof32 (c : CoreId) (rd : Reg) (ra : Reg) (dbl : Bool)
  /-- ITOF64: Convert a signed 64-bit integer to floating. -/
  | itof64 (c : CoreId) (rd : Reg) (ra : Reg) (dbl : Bool)
  /-- FNARROW: Convert binary64 to binary32. -/
  | fnarrow (c : CoreId) (rd : Reg) (ra : Reg)
  /-- FWIDEN: Convert binary32 to binary64. -/
  | fwiden (c : CoreId) (rd : Reg) (ra : Reg)
  /-- FMOVG: Move f register bits to a g register. -/
  | fmovg (c : CoreId) (rd : Reg) (ra : Reg) (dbl : Bool)
  /-- GMOVF: Move g register bits to an f register. -/
  | gmovf (c : CoreId) (rd : Reg) (ra : Reg) (dbl : Bool)
  /-- FMA: Fused RA × RB + RC. -/
  | fma (c : CoreId) (rd : Reg) (ra : Reg) (rb : Reg) (rc : Reg) (dbl : Bool)
  /-- FMA_NP: Fused −(RA × RB) + RC. -/
  | fmaNp (c : CoreId) (rd : Reg) (ra : Reg) (rb : Reg) (rc : Reg) (dbl : Bool)
  /-- FMA_NA: Fused RA × RB − RC. -/
  | fmaNa (c : CoreId) (rd : Reg) (ra : Reg) (rb : Reg) (rc : Reg) (dbl : Bool)
  /-- FMA_NPA: Fused −(RA × RB) − RC. -/
  | fmaNpa (c : CoreId) (rd : Reg) (ra : Reg) (rb : Reg) (rc : Reg) (dbl : Bool)
  /-- SYNC_F: Drain stores and discard the fetch buffer. -/
  | syncF (c : CoreId)
  /-- SYNC_C: Make pending SYNC.C control register values take effect at one instant. -/
  | syncC (c : CoreId)
  /-- SYNC_M: Wait until every buffered store is accepted and no load is pending. -/
  | syncM (c : CoreId)
  /-- WAIT: Stop issue and enter the low-power state selected by MODEBITS. -/
  | wait (c : CoreId)
  /-- CORE_WAKE: A pending enabled source, WDT expiry, debug halt or reset ends a core's WAIT. -/
  | coreWake (c : CoreId)
  /-- TRAP: Raise the system-call trap. -/
  | trap (c : CoreId)
  /-- BKPT: Debug halt or raise the breakpoint trap. -/
  | bkpt (c : CoreId)
  /-- RETE: Return from an entry, restoring PC and STATUS. -/
  | rete (c : CoreId)
  /-- CTLRD: Read a control register into a g register. -/
  | ctlrd (c : CoreId) (rd : Reg) (ctl : BitVec 12)
  /-- CTLWR: Write a control register with no row of its own. -/
  | ctlwr (c : CoreId) (rs : Reg) (ctl : BitVec 12)
  /-- INT_RAISE: A CTLWR to INT_RAISE sets pending bits. -/
  | intRaise (c : CoreId) (rs : Reg)
  /-- INT_PEND_CLEAR: A CTLWR of ones to INT_PEND clears pending bits. -/
  | intPendClear (c : CoreId) (rs : Reg)
  /-- STORE_ACCEPT: The oldest store-buffer entry is accepted at its target, or dropped with a store notice. -/
  | storeAccept (c : CoreId) (linkOk : Bool) (stall : Nat := 0)
  /-- LOAD_RESPONSE: A pending load or atomic's response arrives, clears its scoreboard bit and retires held instructions. -/
  | loadResponse (c : CoreId) (linkOk : Bool) (stall : Nat) (idx : Nat := 0)
  /-- HOB_ACCESS: The hob arbiter grants one port access under the rotation and write-first rules. -/
  | hobAccess (u : UnitId) (waiting : List HobReq)
  /-- MARCH_ROW_START: Every INTERVAL µs the background tester starts the test of the next row. -/
  | marchRowStart (u : UnitId)
  /-- MARCH_ROW_COMPLETE: A row test writes back its shadow buffer and records any march failure. -/
  | marchRowComplete (u : UnitId) (fail : Bool)
  /-- HOB_WAKE: A hob in retention wakes and serves its first grant within 12 µs. -/
  | hobWake (h : HearthId)
  /-- HOB_INJECT: A write to INJECT arms a code-error injection for a master's next write. -/
  | hobInject (m : Rid) (u : UnitId) (v : Word32)
  /-- HOB_CNT_CLEAR: A write of CNT_CLEAR.GO clears the hob error and conflict counters. -/
  | hobCntClear (m : Rid) (u : UnitId) (v : Word32)
  /-- FRAME_BOUNDARY: The time base reaches a base-frame boundary; FRAME is raised and every running bellows starts its parameter window and input channels. -/
  | frameBoundary
  /-- IN_DEADLINE_EXPIRY: IN_DEADLINE passes after t_f and the slot phase starts without waiting for late input channels. -/
  | inDeadlineExpiry (h : HearthId)
  /-- IMAGE_CHANNEL_COMPLETE: An image channel completes or halts its transfer. -/
  | imageChannelComplete (h : HearthId) (ch : Fin 16) (halted : Bool)
  /-- BELLOWS_SLOT: The bellows evaluates one context's slot: reads, kernel execution with residue checks, writes. -/
  | bellowsSlot (h : HearthId) (bad : Nat)
  /-- CTX_RESUME: A write of CTX_RESUME.GO makes the next run of a FAULTED context a preset run. -/
  | ctxResume (m : Rid) (h : HearthId) (v : Word32)
  /-- BLW_INJECT: A write to BLW_INJECT arms a residue injection for a context. -/
  | blwInject (m : Rid) (h : HearthId) (v : Word32)
  /-- BLW_CNT_CLEAR: A write of BLW_CNT_CLEAR.GO clears the bellows counters. -/
  | blwCntClear (m : Rid) (h : HearthId) (v : Word32)
  /-- STEP_GO: A write of STEP_GO.GO adds the step offset to the time base where allowed. -/
  | stepGo (m : Rid) (v : Word32)
  /-- TCMP_FIRE: The time base reaches an armed compare value; its interrupt is raised and the compare re-armed or disarmed. -/
  | tcmpFire (n : CompareId)
  /-- SYNC_TIMEOUT: Three sync intervals pass without a valid sync and the servo enters holdover. -/
  | syncTimeout
  /-- DRAM_READ: The memory controller reads a protected block and checks it. -/
  | dramRead (m : Rid) (addr : Addr) (len : Nat)
  /-- DRAM_WRITE: A whole-line write or a merge writes a protected block. -/
  | dramWrite (m : Rid) (addr : Addr) (bytes : List Byte)
  /-- SCRUB_COMPLETE: The scrub engine finishes a range and returns its summary. -/
  | scrubComplete (dur : Word64)
  /-- FILL_COMPLETE: The scrub engine finishes a MEM_FILL range. -/
  | fillComplete (dur : Word64)
  /-- SCRUB_OVERDUE: SCRUB_AGE exceeds SCRUB_LIMIT and DRAM_SCRUB_OVERDUE becomes active. -/
  | scrubOverdue
  /-- RETIRE_ADD: A write to RETIRE_ADD with GO retires a page until the next KINDLE. -/
  | retireAdd (m : Rid) (v : Word32)
  /-- MEMC_CNT_CLEAR: A write of CNT_CLEAR.GO clears a channel's counters and log. -/
  | memcCntClear (m : Rid) (ch : Fin 4) (v : Word32)
  /-- DEQ: A read of DEQ removes and returns the queue's next visible word. -/
  | deq (m : Rid) (q : QueueId) (ecc : PoolEcc)
  /-- PEEK: A read of PEEK returns the next visible word without removing it. -/
  | peek (m : Rid) (q : QueueId) (ecc : PoolEcc)
  /-- QSTAT: A read of QSTAT returns the queue's occupancy and visible words. -/
  | qstat (m : Rid) (q : QueueId)
  /-- TRY_OPEN: A read of TRY_OPEN opens a packet with reserved cells, or refuses it at once. -/
  | tryOpen (m : Rid) (q : QueueId)
  /-- ENQ: A write of ENQ appends one word, or a one-word packet, and may wait for a cell. -/
  | enq (m : Rid) (q : QueueId) (v : Word32)
  /-- PKT_OPEN: A write of PKT_OPEN allocates a packet's first cell and may wait. -/
  | pktOpen (m : Rid) (q : QueueId) (v : Word32)
  /-- PKT_WORD: A write of PKT_WORD appends one or two words to the open packet. -/
  | pktWord (m : Rid) (q : QueueId) (v : Word64) (two : Bool)
  /-- PKT_CLOSE: A write of PKT_CLOSE makes the packet visible or discards it. -/
  | pktClose (m : Rid) (q : QueueId) (v : Word32)
  /-- WAITER_GRANT: A freed cell or raised cap lets a waiting enqueue be granted in wait order. -/
  | waiterGrant
  /-- POOL_WINDOW_ACCESS: An access to the Bobbin pool window under a BOB grant reads or writes raw cell bytes. -/
  | poolWindowAccess (m : Rid) (off : BitVec 22) (wr : Option Word32)
  /-- BOB_CNT_CLEAR: A write of CNT_CLEAR.GO clears the Bobbin counters. -/
  | bobCntClear (m : Rid) (v : Word32)
  /-- BFIFO_POINTER_FAULT: A synchronised FIFO pointer changes in more than one bit or moves backwards; the FIFO stops. -/
  | bfifoPointerFault (n : Fin 30)
  /-- BASTE_DUE: A unit's basting turn falls due and is skipped, deferred or starts a slice. -/
  | basteDue (u : UnitId)
  /-- DEFERRED_SLICE_START: The condition that deferred a slice ends and the slice starts. -/
  | deferredSliceStart (u : UnitId)
  /-- SLICE_COMPLETE: A lane's 1.8 ms BIST slice ends; the lane rejoins or fails. -/
  | sliceComplete (u : UnitId) (lane : LaneNo) (pass : Bool) (seamOk : Bool)
  /-- BELLOWS_SLICE_COMPLETE: The 120th segment of a bellows slice ends and its record is written. -/
  | bellowsSliceComplete (h : HearthId) (pass : Bool)
  /-- STARTUP_TEST_COMPLETE: The start-up test of a hearth ends; the slot map and HEARTH_AVAIL are set. -/
  | startupTestComplete (h : HearthId) (r : StartupResult)
  /-- BASTE_OVERDUE: A lane's last PASS or a bellows' last slice becomes older than 26 × INTERVAL. -/
  | basteOverdue (u : UnitId) (target : Fin 14)
  /-- BASTE_GO: A write to BASTE_GO makes a unit's turn due at once. -/
  | basteGo (m : Rid) (v : Word32)
  /-- THM_RESET: THM_RST_N is released or VCT comes into range; the Thimble boots and opens a chain with GENESIS. -/
  | thmReset
  /-- THM_BOOT_COMPLETE: The Thimble enters its firmware and THM_LINK.UP becomes 1. -/
  | thmBootComplete (r : ThmBoot)
  /-- THM_LANE_HALT: The Thimble lanes mismatch or stall; the kernel stops them and makes a self-restart. -/
  | thmLaneHalt
  /-- THM_HEARTBEAT_TIMEOUT: No Thimble heartbeat is seen for 10 ms and THM_LINK.UP clears. -/
  | thmHeartbeatTimeout
  /-- LIFECYCLE_SENSED: The Thimble senses a change of the life-cycle state. -/
  | lifecycleSensed
  /-- SEAL_OPENED: THM_SEAL_N is high for 20 ms; a SEAL record is written. -/
  | sealOpened
  /-- SEAL_CLOSED: THM_SEAL_N is low for 20 ms; a SEAL record is written and staged entries discarded. -/
  | sealClosed
  /-- THM_SAMPLE: A bitstream input's decimator and FIR filter produce a sample. -/
  | thmSample (n : Fin 48) (bits : List Bool)
  /-- PULSE_EDGE: A counted edge on a pulse input advances its counter and measures its period. -/
  | pulseEdge (j : Fin 16) (period : Word32)
  /-- RECORD_SUBMIT: The firmware submits a MEASURE, TOTAL or FW_EVENT record to the record engine. -/
  | recordSubmit (ty : Byte) (point : Byte) (flags : BitVec 6) (ps : Payload)
  /-- SIGNING_TIMER: 1,000 ms after a signing started, a new signing starts if a record was created since. -/
  | signingTimer
  /-- SIGNING_COMPLETE: A signing ends; the signature table entry and the SIGNATURE record are written. -/
  | signingComplete
  /-- GATE_NOP: Gate request NOP is answered by the kernel. -/
  | gateNop
  /-- START: Gate request START starts measuring points. -/
  | thmStart (fw : FwAnswer)
  /-- STOP: Gate request STOP stops measuring points. -/
  | thmStop (fw : FwAnswer)
  /-- TARE: Gate request TARE tares a measuring point. -/
  | tare (fw : FwAnswer)
  /-- ZERO: Gate request ZERO zeroes a measuring point. -/
  | zero (fw : FwAnswer)
  /-- PRESET_TARE: Gate request PRESET_TARE sets a preset tare value. -/
  | presetTare (fw : FwAnswer)
  /-- CLEAR_TARE: Gate request CLEAR_TARE clears a point's tare. -/
  | clearTare (fw : FwAnswer)
  /-- BATCH_OPEN: Gate request BATCH_OPEN opens a lot. -/
  | batchOpen (fw : FwAnswer)
  /-- BATCH_CLOSE: Gate request BATCH_CLOSE closes the open lot and starts a signing. -/
  | batchClose (fw : FwAnswer)
  /-- SIGN_NOW: Gate request SIGN_NOW starts a signing. -/
  | signNow
  /-- RECORD_ACK: Gate request RECORD_ACK acknowledges records up to an RNUM. -/
  | recordAck
  /-- REPLAY: Gate request REPLAY copies held records into the mailbox ring. -/
  | replay
  /-- TIME_MARK: Gate request TIME_MARK latches the device time base against THM_TIME. -/
  | timeMark
  /-- PARAM_WRITE: Gate request PARAM_WRITE stages a parameter entry. -/
  | paramWrite (fw : FwAnswer)
  /-- PARAM_COMMIT: Gate request PARAM_COMMIT writes the staged parameters to the store and advances the audit counter. -/
  | paramCommit (fw : FwAnswer)
  /-- IMAGE_ACTIVATE: Gate request IMAGE_ACTIVATE verifies a slot, sets ACTIVE_VERSION and restarts the Thimble. -/
  | imageActivate
  /-- GATE_ANSWER: The firmware or kernel answers a gate request and GATE_STAT is set. -/
  | gateAnswer
  /-- GATE_TIMEOUT: A request unanswered for 100 ms is withdrawn with TIMEOUT. -/
  | gateTimeout
  /-- THM_RECORD_FORWARD: The Stoker forwards a ring slot into the forward queue, or retries 100 µs later. -/
  | thmRecordForward
  /-- CUTOVER_ARMED: The new sections of the named hearths are copied and checked. -/
  | cutoverArmed
  /-- CUTOVER_BOUNDARY: The boundary of F_c arrives; the device enters CUTOVER and named cores stop at their switch points. -/
  | cutoverBoundary
  /-- CUTOVER_SWITCH: Every named core has reached its switch point and the named hearths switch to the new image. -/
  | cutoverSwitch
  /-- SWITCH_DEADLINE_EXPIRY: A named core has not reached its switch point 12.5 µs after t_f(F_c); the cutover ends LATE. -/
  | switchDeadlineExpiry
  /-- CUT_PASS: A core writes its self-check result to CUT_PASS. -/
  | cutPass (m : Rid) (h : HearthId) (v : Word32)
  /-- CUTOVER_CHECK_DEADLINE: The check frames end and the cutover succeeds or fails. -/
  | cutoverCheckDeadline
  /-- CUTOVER_FALLBACK: At the boundary after a failure every named hearth returns to the old image. -/
  | cutoverFallback
  /-- IMAGE_VERIFY_COMPLETE: Verification of the staged image ends with a reason code. -/
  | imageVerifyComplete
  /-- FLASH_OPERATION_COMPLETE: A flash program or erase of either requester ends. -/
  | flashOperationComplete (dev : Fin 2) (thimble : Bool) (ok : Bool)
  /-- GRANT_EXPIRY: A grant's DURATION elapses and the grant ends. -/
  | grantExpiry (id : Word32)
  /-- SESSION_EXPIRY: A session's LIFETIME elapses and the session ends. -/
  | sessionExpiry (id : Word32)
  /-- ENTROPY_FAIL: The entropy health tests fail and DRBG commands return INTERNAL_FAULT. -/
  | entropyFail (failing : Bool)
  /-- DOMAIN_ENTRY: A domain's last vote clears and the power controller enters its off-state or records a refusal. -/
  | domainEntry (n : DomainId) (e : EntryEnd)
  /-- DOMAIN_WAKE: A vote or access wakes a domain to ON. -/
  | domainWake (n : DomainId)
  /-- VOTE_CMD: A write to VOTE_CMD sets or clears the writer's vote on a domain. -/
  | voteCmd (m : Rid) (v : Word32)
  /-- PAD_REL: A write to PAD_REL releases the held pads of a domain. -/
  | padRel (m : Rid) (v : Word32)
  /-- ACCT_CLEAR: A write of ACCT_CLEAR.GO clears every DOM_ACCT. -/
  | acctClear (m : Rid) (v : Word32)
  /-- AVS_VDONE: The regulator reports VDone and the level change takes its next step or ends. -/
  | avsVdone (rail : Fin 3)
  /-- AVS_ACK_TIMEOUT: No VDone within ACK_TIMEOUT; the step's start voltage is written again. -/
  | avsAckTimeout (rail : Fin 3)
  /-- SUPPLY_EXCURSION: A monitored rail stays outside its window for 1 µs and its SUPPLY source is raised. -/
  | supplyExcursion (rail : Fin 11) (mv : Word32)
  /-- TJ_READING: Every 100 µs the junction sensors are read and TJ_OVER raised above +110 °C. -/
  | tjReading (sensor : Fin 17) (deg : BitVec 8)
  /-- DOZE_WAKE: A PCIe, maintenance SPI or chimney wake event returns the device from DOZE to PREPARE. -/
  | dozeWake
  /-- LINK_UP: A chimney link finishes training and comes up. -/
  | linkUp (up : Bool) (peer : BitVec 3) (x8 : Bool)
  /-- LINK_DOWN: A chimney link fails replays or acknowledgement and goes down. -/
  | linkDown (up : Bool)
  /-- RETRAIN_TIMER: Every 10 ms a refused or down link retries training. -/
  | retrainTimer (up : Bool)
  /-- CHIMNEY_FRAME: A link frame arrives and is checked, acknowledged or replayed. -/
  | chimneyFrame (up : Bool) (tag : Nat) (ok : Bool)
  /-- TIME_FRAME_SEND: Every 1,000 ns the base sends a time frame down the chain. -/
  | timeFrameSend
  /-- TIME_FRAME: A course accepts a time frame, slaves its time base and relays it. -/
  | timeFrame (f : TimeFrame)
  /-- STATUS_FRAME_SEND: Every 1,000 ns a course sends a status frame up the chain. -/
  | statusFrameSend
  /-- STATUS_FRAME: The base accepts a course's status frame and updates reachability and its Pattern CRC. -/
  | statusFrame (f : StatusFrame)
  /-- LINK_DELAY_MEASURE: Every 1 ms a link measures its one-way delay. -/
  | linkDelayMeasure (up : Bool) (roundTrip : BitVec 17)
  /-- BASE_REACH_TIMEOUT: A course accepts no time frame for 20 µs and loses base reach. -/
  | baseReachTimeout
  /-- REACH_TIMEOUT: The base accepts no status frame of a course for 20 µs and counts it unreachable. -/
  | reachTimeout (pos : BitVec 3)
  /-- RETRAIN_UP: A RETRAIN write with UP set retrains the up port. -/
  | retrainUp (m : Rid) (v : Word32)
  /-- RETRAIN_DOWN: A RETRAIN write with DOWN set retrains the down port. -/
  | retrainDown (m : Rid) (v : Word32)
  /-- WINDOW_REQUEST: A request to a chimney window is routed to the remote member and checked there. -/
  | windowRequest (q : WinReq)
  /-- WINDOW_RESPONSE: A remote response or a chimney remote error returns to the origin. -/
  | windowResponse (n : Nat) (ok : Bool) (v : Word64)
  /-- HOST_READ: A host memory read TLP through BAR0 or BAR2 is completed. -/
  | hostRead (bar2 : Bool) (off : Word32) (size : Nat)
  /-- HOST_WRITE: A host memory write TLP through BAR0 or BAR2 is performed or dropped. -/
  | hostWrite (bar2 : Bool) (off : Word32) (bytes : List Byte)
  /-- PCIE_LINK_DOWN: The PCIe link is lost. -/
  | pcieLinkDown
  /-- PCIE_LINK_UP: The PCIe link trains and answers configuration requests. -/
  | pcieLinkUp
  /-- ETH_FRAME_RECEIVE: A received Ethernet frame is sorted to the servo, the command source, the Stoker or RXQ. -/
  | ethFrameReceive (mac : Fin 2) (f : EthFrame)
  /-- ETH_FRAME_TRANSMIT: A packet from TXQ is sent as a frame. -/
  | ethFrameTransmit (mac : Fin 2)
  /-- ETH_LINK_DOWN: An Ethernet MAC loses its link. -/
  | ethLinkDown (mac : Fin 2)
  /-- CAN_FRAME_RECEIVE: A received CAN FD frame is enqueued as a packet or dropped. -/
  | canFrameReceive (c : Fin 8) (f : CanFrame)
  /-- CAN_FRAME_TRANSMIT: A packet from a CAN transmit queue is sent as a frame. -/
  | canFrameTransmit (c : Fin 8)
  /-- CAN_BUS_OFF: A CAN FD controller enters bus-off. -/
  | canBusOff (c : Fin 8)
  /-- BUS_OFF_RECOVERY: 128 × 11 recessive bits pass and the controller leaves bus-off. -/
  | busOffRecovery (c : Fin 8)
  /-- I2C_BUS_STUCK: SDA or SCL stays low beyond 25 ms; the controller clears the bus. -/
  | i2cBusStuck (n : Fin 4)
  /-- GPIO_EDGE: A debounced GPIO edge raises the routed FIO event in a core. -/
  | gpioEdge (pin : Fin 128) (level : Bool)
  /-- OP_RESET_N_HIGH: OP_RESET_N returns high; the debounced state and DEV.STATUS.OP_RESET clear, and the 1 s high time that ends a stuck input begins. -/
  | opResetNHigh
  /-- THM_RST_N_LOW: THM_RST_N goes low or VCT is lost; the Thimble stops and its log, chain and pending gate request are lost. -/
  | thmRstNLow
  /-- THM_KERNEL_WATCHDOG: The Thimble kernel watchdog expires and the kernel makes a self-restart with GENESIS cause 3. -/
  | thmKernelWatchdog
  /-- ETH_LINK_UP: An Ethernet MAC's link comes up and the MAC starts passing frames. -/
  | ethLinkUp (mac : Fin 2)
  /-- CONFIGURATION_REQUEST: A PCIe configuration request is answered, including the power-management writes that move the function between D0 and D3hot. -/
  | configurationRequest (off : BitVec 12) (wr : Option Word32)
  /-- DEBUG_HALT_REQUEST: The debug access port asks a core to halt, and the core halts at its next allowed instruction boundary. -/
  | debugHaltRequest (c : CoreId)
  /-- DEBUG_RESUME: A debugger lets a halted core run again, and a watchdog frozen under FRZ_DBG resumes its cycle. -/
  | debugResume (c : CoreId)
  /-- DEBUG_ACCESS: A debug master (CLASS 0x7) reads or writes through the firewalls and meets R181 when it is refused. -/
  | debugAccess (addr : Addr) (wr : Option Word32)
  /-- ATTEST_COMPLETE: The signing of the attestation report ends and the final DONE with the 1,280-byte report is written. -/
  | attestComplete
  /-- SESSION_OPEN_COMPLETE: The unwrap and checks of SESSION_OPEN end; the session opens and the tagged DONE with its identifier is sent. -/
  | sessionOpenComplete
  /-- SCAN_OPEN_COMPLETE: Zeroisation ends, SCAN_STAT.SCAN_OPEN is set and DONE is sent no later than 20 ms after PENDING. -/
  | scanOpenComplete
  /-- SCAN_INSTRUCTION: An IEEE 1149.1 instruction is taken on the scan port; private scan instructions act as BYPASS until SCAN_OPEN has completed. -/
  | scanInstruction (priv : Bool)
  /-- DMA_CHANNEL_COMPLETE: A hearth DMA channel that is not bound to an image completes or halts and raises DMA_c. -/
  | dmaChannelComplete (h : HearthId) (ch : Fin 16) (halted : Bool)
  deriving DecidableEq, Repr

end Sys2Proof
end

