-- ==== Sys2Proof/Decode.lean ====
section
/-! DEFINITION. The decoder of the opcode table's words: the table gives no row any bits. -/

namespace Sys2Proof

/-- The command that a word of `nbits` bits spells: none, since no row of the table carries an encoding.
(DESIGN CHOICE: assumption 12.) -/
def decodeTableWord (_nbits _w : Nat) : Option Instr := none

end Sys2Proof
end

