-- ==== Sys2Proof/Config.lean ====
section
/-! DEFINITION. The values that the spec leaves open: free values, which no proof can see, and what one
implementation fixes. -/

namespace Sys2Proof.Config

/-- The free word of a number: a value that the spec does not state, drawn anew for each use.
(DESIGN CHOICE: assumption 8.) -/
opaque freeWord : Nat → Word64

/-- Byte `i` of the free string of a number: key material and random values that the device makes.
(DESIGN CHOICE: assumptions 8, 50.) -/
opaque freeByte : Nat → Nat → Byte

/-- The free string of a number. -/
def freeBytes (n len : Nat) : List Byte := (List.range len).map (freeByte n)

/-- The boot ROM by offset from 0x1_0000 (R23): the spec does not give its contents.
(DESIGN CHOICE: assumption 46.) -/
opaque bootRom : Nat → Byte

/-- PART.STEPPING (R14). (DESIGN CHOICE: assumption 45.) -/
opaque stepping : BitVec 4

/-- BLK_VER of a block type (R35). (DESIGN CHOICE: assumption 45.) -/
opaque blkVer : Nat → Half

/-- Ball `i` of a pin group: where it stands, which the spec does not give (R19, R515).
(DESIGN CHOICE: assumption 45.) -/
opaque ball : Nat → Nat → Half

/-- Shares of the 600 mW of the Thimble domains PD_241 to PD_243: R458 gives their sum alone.
(DESIGN CHOICE: assumption 45.) -/
opaque thmPower : Nat → Half

/-- VARIANT of the chimney member at a position (R19): no frame that R489 names carries it.
(DESIGN CHOICE: assumption 45.) -/
opaque memberVariant : Nat → BitVec 4

/-- Rank, bank and row of a block of a DRAM subchannel, by ranks, density and block number (R353): the densities' fixed
map is not in the spec; rank in bit 0, bank in [4:1], row in [22:5]. (DESIGN CHOICE: assumption 49.) -/
opaque dramLoc : Bool → Bool → Nat → BitVec 23

/-- Tininess is detected after rounding (IEEE 754-2019, 7.5, leaves the choice; the spec states none).
(DESIGN CHOICE: assumption 47.) -/
opaque tinyAfter : Bool

/-- A fused multiply-add of 0 and an infinity with a quiet NaN addend raises IV (IEEE 754-2019, 7.2, leaves the choice).
(DESIGN CHOICE: assumption 47.) -/
opaque fmaNanInvalid : Bool

/-- The NaN that an operation of the bellows returns: R219 leaves it open. (DESIGN CHOICE: assumption 47.) -/
opaque bellowsNan : Word32 → Word32 → Word32

/-- A tie of the Thimble's FIR rounding goes up: R406 says only that its output is rounded.
(DESIGN CHOICE: assumption 48.) -/
opaque firTieUp : Bool

/-- The PCI vendor identifier registered to Celfiholt (R499): the spec does not give its value.
(DESIGN CHOICE: assumption 46.) -/
opaque vendorId : Half

/-- The PCI revision identifier. (DESIGN CHOICE: assumption 46.) -/
opaque revisionId : Byte

/-- The status half of the PCI command and status dword: R499 states none of its bits.
(DESIGN CHOICE: assumption 46.) -/
opaque pcieStatus : Half

/-- The configuration-space dwords whose content R499 leaves to PCI Express. (DESIGN CHOICE: assumption 46.) -/
opaque cfgRom : Nat → Word32

/-- The beats that the fetch of a line waits (R149), by the line and the beats counted before it: how long arbitration and
the targets other than the own hob take is not stated. (DESIGN CHOICE: assumption 143.) -/
opaque fetchStall : Nat → Nat → Nat

/-- The fetch of a line from the own hob meets arbitration (R149), by the line and the beats counted before it: what other
masters ask of the hob in that beat no row says. (DESIGN CHOICE: assumption 143.) -/
opaque fetchMeets : Nat → Nat → Bool

/-- The steps that the beat counter of a hearth takes in one nanosecond of the interval counter, beside those that the rows
of its cores count (R134): a beat's length is stated by its bounds alone. (DESIGN CHOICE: assumption 143.) -/
opaque beatSteps : Nat → Nat → Nat

/-- First byte, as an offset, and length of the region of the Stoker hob that holds copies of secrets (R338): the spec does
not say where it lies. (DESIGN CHOICE: assumption 104.) -/
opaque secretRegion : Nat × Nat

end Sys2Proof.Config
end

