-- ==== Sys2Proof/Machine/State.lean ====
section
/-! DEFINITION. The state of the KL6430 as a block: every register, buffer, counter, mode and pin that the spec
gives it, as plain data; the reset value of each field is its default value, and `State.reset` is the machine right
after a device reset, in HOLD. -/

namespace Sys2Proof.Machine

/-- The device mode (R5). -/
inductive Mode where
  | off | hold | kindle | prepare | run | runReduced | cutover | safe | quiet | lockout | doze | maintain
  deriving DecidableEq, Repr

/-- Modes, start-up and life cycle: the DEV block's own state (R40 to R58). -/
structure Sys where
  /-- DEV.STATUS.MODE. -/
  mode : Mode := .hold
  /-- DEV.STATUS.PREV_MODE. -/
  prev : BitVec 4 := 0
  /-- DEV.MODE_SEQ. -/
  seq : Word32 := 0
  /-- DEV.MODE_TIME: the time base at the last transition. -/
  stamp : Word64 := 0
  /-- The KINDLE steps complete in this KINDLE (R50). -/
  stepsDone : List Nat := []
  /-- DEV.STATUS.KINDLE_ERR; not 0 halts KINDLE (R51). -/
  kindleErr : BitVec 4 := 0
  /-- The step in which the halting error arose. -/
  errStep : BitVec 4 := 0
  /-- DEV.STATUS.SLOT: main image slot B runs. -/
  slotB : Bool := false
  /-- DEV.STATUS.FALLBACK: slot A failed in this KINDLE. -/
  fallback : Bool := false
  /-- DEV.STATUS.RECOVERY: no main image verified. -/
  recovery : Bool := false
  /-- DEV.STATUS.LOCKOUT_REC: a complete lockout record is known to be in flash. -/
  lockoutRec : Bool := false
  /-- DEV.STATUS.OP_RESET: the debounced operator input. -/
  opReset : Bool := false
  /-- OP_RESET_N has been low for 60 s and is ignored until it has been high for 1 s (R287). -/
  opStuck : Bool := false
  /-- The interval counter when OP_RESET_N last went high while stuck. -/
  opHighAt : Option Word64 := none
  /-- The fuses have been read and voted in this KINDLE (R50 step 2). -/
  fusesRead : Bool := false
  /-- Hearths whose start-up tests this KINDLE or hearth reset has completed (R50 step 6). -/
  tested : BitVec 16 := 0
  /-- DEV.HEARTH_AVAIL. -/
  avail : BitVec 16 := 0
  /-- DEV.LC_NONCE (R55). -/
  nonce : Word32 := 0
  /-- A DEVICE_RESET was answered and its reset is due (R76). -/
  resetArmed : Bool := false
  /-- DOZE_ENTER was answered and DOZE_ENTRY is due. -/
  dozeArmed : Bool := false
  /-- KINDLE has ended since the device reset: the error pin has had its first release chance (R281). -/
  prepared : Bool := false
  deriving DecidableEq, Repr

/-- The register file: one home for every control register that is a plain value. -/
structure Regs where
  /-- By device address: the value of RW and stored RO-H registers, the active value of RW-S registers,
  the first value written to LK registers. A key not listed holds its reset value. -/
  val : Tbl Word32 := ⟨[]⟩
  /-- By device address: the staged value of an RW-S register where it differs from the active one (R36). -/
  staged : Tbl Word32 := ⟨[]⟩
  /-- By master and address: the high word that a read of the low word snapshot (R32). -/
  snaps : Tbl Word32 := ⟨[]⟩
  deriving DecidableEq, Repr

/-- COMMIT_STATUS.STATE (R35). -/
inductive CommitState where
  | idle | busy | done | conflict | aborted
  deriving DecidableEq, Repr

/-- The commit machine of one block (R35 to R38). -/
structure Commit where
  /-- COMMIT_STATUS.STATE. -/
  state : CommitState := .idle
  /-- COMMIT_STATUS.DIRTY. -/
  dirty : Bool := false
  /-- COMMIT_STATUS.OVERRUN. -/
  overrun : Bool := false
  /-- COMMIT_STATUS.SEQ. -/
  seq : Half := 0
  /-- CONFLICT_AT. -/
  conflictAt : Word32 := 0xFFFFFFFF
  /-- The snapshot of the staged values that a GO took: by device address. -/
  snap : Tbl Word32 := ⟨[]⟩
  /-- A write entered the staged set while BUSY (R37 step 4). -/
  late : Bool := false
  /-- A commit of this block has reached DONE since the last device reset (R52). -/
  everDone : Bool := false
  deriving DecidableEq, Repr

/-- The time base and its discipline (R248 to R251). -/
structure Clock where
  /-- The beat counters of hearths 0 to 15 and of the Stoker (R134). -/
  beats : Vector Word64 17 := Vector.replicate 17 0
  /-- TIME.TB: nanoseconds. -/
  tb : Word64 := 0
  /-- The unstepped interval counter, in nanoseconds. -/
  ivl : Word64 := 0
  /-- The fraction accumulator of R248, in 1e-9 ns. -/
  acc : Int := 0
  /-- REFCLK_TB has started the counters since the cold reset. -/
  running : Bool := false
  /-- The base frame whose boundary was last taken. -/
  frame : Word64 := 0
  /-- TB_STAT.LOCKED. -/
  locked : Bool := false
  /-- TB_STAT.HOLDOVER. -/
  holdover : Bool := false
  /-- TB_STAT.BACKUP. -/
  backup : Bool := false
  /-- TB_STAT.STEP_CNT. -/
  stepCnt : Half := 0
  /-- The offset last measured by the servo, in ns (TIME_STATUS). -/
  offset : Int := 0
  /-- Consecutive sync intervals within 1,000 ns. -/
  good : Nat := 0
  /-- The servo has locked in this session of its source (R251). -/
  everLocked : Bool := false
  /-- The servo has stepped in this session of its source (R251). -/
  stepped : Bool := false
  /-- The interval counter at the last valid sync. -/
  lastSync : Option Word64 := none
  deriving DecidableEq, Repr

/-- A record of the Flue (R289). -/
structure Rec where
  /-- TIME. -/
  time : Word64 := 0
  /-- SOURCE. -/
  src : Nat := 0
  /-- Severity. -/
  sev : BitVec 2 := 0
  /-- REACT. -/
  react : BitVec 5 := 0
  /-- TYPE: 0 event, 1 count, 2 gap. -/
  typ : BitVec 3 := 0
  /-- Mode code at detection. -/
  mode : BitVec 4 := 0
  /-- TEST. -/
  test : Bool := false
  /-- DETAIL0. -/
  d0 : Word32 := 0
  /-- DETAIL1. -/
  d1 : Word32 := 0
  /-- COUNT. -/
  count : Word32 := 1
  /-- SPAN. -/
  span : Word32 := 0
  /-- RSEQ. -/
  rseq : Word32 := 0
  deriving DecidableEq, Repr

/-- What the Flue keeps of one source (R271, R290). -/
structure Src where
  /-- A level source that is active. -/
  active : Bool := false
  /-- The pending counter. -/
  count : Word32 := 0
  /-- The first pending event. -/
  first : Rec := {}
  /-- The time of the last pending event. -/
  last : Word64 := 0
  deriving DecidableEq, Repr

/-- A hearth hold (R286). -/
structure Hold where
  /-- The sources that applied it. -/
  srcs : List Nat := []
  /-- It was applied with the hearth's window full. -/
  latched : Bool := false
  /-- The interval counter at the last event that applied it. -/
  last : Word64 := 0
  deriving DecidableEq, Repr

/-- The gap that a record stream has to report (R289, R293). -/
structure Gap where
  /-- Records lost. -/
  n : Nat := 0
  /-- Time of the first. -/
  first : Word64 := 0
  /-- Time of the last. -/
  last : Word64 := 0
  deriving DecidableEq, Repr

/-- The Flue (R270 to R303). -/
structure Flue where
  /-- By source. -/
  srcs : Tbl Src := ⟨[]⟩
  /-- The device SAFE hold forces all channels. -/
  devHold : Bool := false
  /-- The tripping set of the SAFE episode (R283). -/
  tripSet : List Nat := []
  /-- By hearth: the hearth hold. -/
  holds : Tbl Hold := ⟨[]⟩
  /-- By 16 × hearth + group: the loop safe selection. -/
  sels : Tbl Hold := ⟨[]⟩
  /-- RECOV_STAT.RETURN_MODE: 0, PREPARE or RUN. -/
  retMode : BitVec 4 := 0
  /-- The interval counter when QUIET was entered. -/
  quietAt : Word64 := 0
  /-- The recovery window: the interval counter at each recovery (R285). -/
  window : List Word64 := []
  /-- By hearth: the local recovery window (R286). -/
  localWin : Tbl (List Word64) := ⟨[]⟩
  /-- A reaction's drive phase is not complete (R275). -/
  driving : Bool := false
  /-- Forced channels whose readback has not confirmed. -/
  unconf : List Nat := []
  /-- The channels that the reactions in progress forced (R276). -/
  forcing : List Nat := []
  /-- FLUE_STAT.HW_SAFE. -/
  hwSafe : Bool := false
  /-- The intake FIFO, oldest first. -/
  fifo : List Rec := []
  /-- The round-robin pointer among TRIP sources. -/
  ptrTrip : Nat := 0
  /-- The round-robin pointer among NOTE and WARN sources. -/
  ptrNote : Nat := 0
  /-- INTAKE_STAT.COUNT_RECS. -/
  countRecs : Half := 0
  /-- The 32 newest history records, newest first. -/
  hist : List Rec := []
  /-- FLUE.HIST_NEXT. -/
  histNext : Word32 := 0
  /-- History writes since the device reset (poll page EVENTS). -/
  events : Word32 := 0
  /-- The last record written to the history since the device reset (poll page LAST_EVENT). -/
  lastEvent : Option Rec := none
  /-- FLUE.EVQ_NEXT. -/
  evqNext : Word32 := 0
  /-- The records that a device reset discarded from the event ring. -/
  evqGap : Gap := {}
  /-- The gap record that follows a device reset is still to be written (R292). -/
  evqDue : Bool := false
  /-- RSEQ of the records that the spill ring in DRAM holds, oldest first (R292). -/
  spill : List Word32 := []
  /-- Bit h: a router stage of hearth h reported STAGE_STALL since the last hearth reset (R531). -/
  routed : BitVec 16 := 0
  /-- FLUE.TRACE_LOST. -/
  traceLost : Word32 := 0
  /-- The trace stream's gap. -/
  traceGap : Gap := {}
  /-- RSEQ of the next trace record. -/
  traceNext : Word32 := 0
  /-- CFG_CHECK.MISMATCH. -/
  mismatch : Bool := false
  /-- CFG_CHECK.NO_MAJORITY. -/
  noMajority : Bool := false
  /-- CFG_CHECK.WORD. -/
  word : BitVec 11 := 0
  /-- ERRPIN_STAT.ASSERTED. -/
  errPin : Bool := true
  /-- The interval counter at the last assertion. -/
  errAt : Word64 := 0
  /-- ERRPIN_STAT.RELEASE_PENDING. -/
  errRel : Bool := false
  /-- ERRPIN_STAT.ASSERT_CNT. -/
  errCnt : Half := 0
  deriving DecidableEq, Repr

/-- The state of a damper channel (R278). -/
inductive DampSt where
  | safe | armed | starting | live | forced | fault
  deriving DecidableEq, Repr

/-- A damper channel (R277 to R280). -/
structure Damper where
  /-- STATE. -/
  st : DampSt := .safe
  /-- The identity whose ARM stands. -/
  armBy : Rid := 0
  /-- The mask of that ARM. -/
  armMask : BitVec 4 := 0
  /-- The interval counter at that ARM. -/
  armAt : Word64 := 0
  /-- That ARM stands: no other write of the page and no expiry has ended it (R278, R279). -/
  armOk : Bool := false
  /-- The feedback after RB_POL as last seen: energised. -/
  fb : Bool := false
  /-- REFUSAL. -/
  refusal : BitVec 3 := 0
  /-- CAUSE of the mismatch that persists. -/
  mismatch : Option (BitVec 2) := none
  /-- CAUSE of the mismatch that made the channel FAULT (R280, R283). -/
  cause : BitVec 2 := 0
  /-- The interval counter since which readback and pads agree (R278). -/
  agreeAt : Word64 := 0
  /-- The RB_SETTLE time since LIVE last began or ended still runs. -/
  settling : Bool := false
  deriving DecidableEq, Repr

/-- WSTAT.STATE (R323). -/
inductive WdtSt where
  | off | running | expired
  deriving DecidableEq, Repr

/-- A watchdog (R307 to R318). -/
structure Wdt where
  /-- The WDT_CTL word in force. -/
  ctl : Word64 := 0
  /-- STATE. -/
  st : WdtSt := .off
  /-- FROZEN. -/
  frozen : Bool := false
  /-- SUSPENDED. -/
  susp : Bool := false
  /-- The interval counter when the suspension began (R317). -/
  suspAt : Word64 := 0
  /-- ARMED. -/
  armed : Bool := false
  /-- CFG_REFUSED. -/
  cfgRefused : Bool := false
  /-- STRAY. -/
  stray : Bool := false
  /-- ROLL_SHORT. -/
  rollShort : Bool := false
  /-- SERVICES. -/
  services : Half := 0
  /-- ROLL.IN. -/
  inn : Half := 0
  /-- ROLL.DUP. -/
  dup : Half := 0
  /-- The interval counter at the start of the cycle, moved on by every pause. -/
  start : Word64 := 0
  /-- The interval counter when the count stopped. -/
  paused : Option Word64 := none
  /-- The hard timer runs out at this interval count. -/
  hardAt : Option Word64 := none
  /-- EXPIRE_INFO.CAUSE. -/
  cause : BitVec 3 := 0
  /-- EXPIRE_INFO.COUNT. -/
  count : Half := 0
  deriving DecidableEq, Repr

/-- The state of a lane (R99). -/
inductive LaneSt where
  | active | spare | fenced | basting | rejoining | failed
  deriving DecidableEq, Repr

/-- What a lane in BASTING is tested for. -/
inductive TestFor where
  /-- A rotation slice (R326). -/
  | slice
  /-- The test that follows a fence (R100). -/
  | repair
  /-- LANE_RETEST (R116). -/
  | retest
  /-- CORE_RESTART (R117). -/
  | restart
  /-- Re-initialisation after an aborted slice (R103). -/
  | reinit
  deriving DecidableEq, Repr

/-- A physical lane (R99, R108). -/
structure Lane where
  /-- LANE_STATE. -/
  st : LaneSt := .fenced
  /-- While BASTING: what for. -/
  test : TestFor := .repair
  /-- The interval counter at each counted fence of the rolling 24 h. -/
  fences : List Word64 := []
  /-- FENCE_CNT.TOTAL. -/
  total : Half := 0
  /-- It was FAILED when the LANE_RETEST under way began (R116). -/
  wasFailed : Bool := false
  deriving DecidableEq, Repr

/-- The mode of a seam (R101). -/
inductive SeamMode where
  | tmr | dmr | halted
  deriving DecidableEq, Repr

/-- A rethread stall in progress (R105). -/
structure Rethread where
  /-- The lane that rejoins. -/
  lane : Nat
  /-- Its slot: 0 A, 1 B, 2 C. -/
  slot : Nat
  /-- The lane that leaves in the same stall, and what becomes of it. -/
  leaves : Option (Nat × LaneSt) := none
  /-- The interval counter at phase 1. -/
  since : Word64 := 0
  deriving DecidableEq, Repr

/-- A token position that is open at a seam (R92, R93). -/
structure Pos (τ : Type) where
  /-- The tokens that arrived: slot and token, oldest first. -/
  toks : List (Nat × τ) := []
  /-- The token accepted. -/
  accepted : Option τ := none
  deriving DecidableEq, Repr

/-- The seam of a logical core (R101, R121). -/
structure Seam where
  /-- The mode as the lanes in its slots give it (R101). -/
  mode : SeamMode := .halted
  /-- The core is in core reset and has not been started: MODE shows HALTED (R101). -/
  reset : Bool := false
  /-- LANE_A. -/
  a : Option Nat := none
  /-- LANE_B. -/
  b : Option Nat := none
  /-- LANE_C. -/
  c : Option Nat := none
  /-- HALT_CAUSE. -/
  cause : BitVec 3 := 0
  /-- The running core was halted and the Flue source named stays active for it (R531). -/
  reported : Option Nat := none
  /-- The rethread stall in progress. -/
  rethread : Option Rethread := none
  /-- Open positions of commit tokens, oldest first: those accepted wait in the compare queue (R94). -/
  commits : List (Pos CommitTok) := []
  /-- Open positions of request tokens. -/
  requests : List (Pos RequestTok) := []
  deriving DecidableEq, Repr

/-- What a hearth, or the Stoker, keeps of its lanes beyond the lanes themselves (R120, R121). -/
structure LaneUnit where
  /-- LAST_FENCE.LANE. -/
  lastLane : Nat := 0
  /-- LAST_FENCE.CORE. -/
  lastCore : Nat := 0
  /-- LAST_FENCE.SLOT: 3 none. -/
  lastSlot : Nat := 3
  /-- LAST_FENCE.CAUSE. -/
  lastCause : BitVec 3 := 0
  /-- LAST_FENCE_TIME. -/
  lastTime : Word64 := 0
  /-- LANE_CMD_STATUS.STATE: 0 IDLE, 1 BUSY, 2 DONE, 3 REFUSED. -/
  cmdState : BitVec 2 := 0
  /-- LANE_CMD_STATUS.LANE. -/
  cmdLane : BitVec 4 := 0
  /-- PATCH_EXHAUSTED was reported (R104). -/
  exhausted : Bool := false
  /-- The LANE_CMD under way fences a lane of this core; none where it fences a SPARE lane or retests one. -/
  cmdFence : Option Nat := none
  /-- Lanes whose LANE_RETEST waits for the slice in progress (R116). -/
  retestDue : List Nat := []
  /-- Rethreads that wait for the one in progress in the hearth: core, lane, slot (R106). -/
  waiting : List (Nat × Nat × Nat) := []
  deriving DecidableEq, Repr

/-- A reply packet (R67). -/
structure Reply where
  /-- OPCODE. -/
  opc : Half
  /-- SEQ. -/
  seq : Half
  /-- STATUS. -/
  status : Half
  /-- MODE at completion. -/
  mode : BitVec 4
  /-- POS. -/
  pos : BitVec 3
  /-- FINAL. -/
  final : Bool
  /-- The result, RLEN bytes. -/
  result : List Byte
  /-- The source address and port of the datagram that it answers (R451); none on other sources. -/
  dest : Option (BitVec 48) := none
  deriving DecidableEq, Repr

/-- What the Stoker keeps of one command source (R69). -/
structure CmdSource where
  /-- The expected sequence; none while it is undefined. -/
  expect : Option Half := none
  /-- CRC of the last accepted command; none before the first. -/
  lastCrc : Option Word32 := none
  /-- The reply stored for the last accepted command. -/
  stored : Option Reply := none
  deriving DecidableEq, Repr

/-- A pending command (R73). -/
structure Pend where
  /-- Its source: 0 PCIe, 1 maintenance SPI, 2 the base's stream, 16 + n Ethernet session n. -/
  src : Nat
  /-- OPCODE. -/
  opc : Half
  /-- SEQ. -/
  seq : Half
  /-- The packet. -/
  pkt : Packet
  /-- It has started: its work goes on in the background. -/
  running : Bool
  /-- A key its work is found by (a lane, a core, a queue, an image, ...). -/
  key : Nat := 0
  /-- It waits for every earlier command of its source (FENCE). -/
  fence : Bool := false
  /-- The number of the next forwarded command when it was taken: those with lower numbers are earlier. -/
  fwd : Nat := 0
  /-- A RING_RESET has forgotten its sequence: its reply is not the stored one. -/
  stale : Bool := false
  deriving DecidableEq, Repr

/-- An open configuration transaction (R78, R79). -/
structure Txn where
  /-- The source that owns it. -/
  src : Nat
  /-- The claimed blocks, by block base address. -/
  blocks : List Nat
  /-- CONFIG_COMMIT has been accepted and waits for a commit point. -/
  committing : Bool := false
  /-- The active values recorded at CONFIG_COMMIT. -/
  saved : Tbl Word32 := ⟨[]⟩
  /-- A block failed and the others are being restored. -/
  restoring : Bool := false
  /-- The blocks whose restoring commit has been given its GO. -/
  restored : List Nat := []
  deriving DecidableEq, Repr

/-- An open expert grant (R81). -/
structure Grant where
  /-- GRANT_ID. -/
  id : Word32
  /-- BLOCK_TYPE. -/
  typ : Nat
  /-- INSTANCE; none for all. -/
  inst : Option Nat
  /-- The time base at which its DURATION ends. -/
  till : Word64
  /-- RIGHTS. -/
  rights : BitVec 2
  /-- The signed form opened it. -/
  signed : Bool
  deriving DecidableEq, Repr

/-- A record of the expert log (R83). -/
structure XRec where
  /-- TIME. -/
  time : Word64
  /-- GRANT_ID. -/
  grant : Word32
  /-- MASTER [15:0]. -/
  master : Rid
  /-- RESULT. -/
  result : BitVec 2
  /-- ADDR. -/
  addr : Nat
  /-- VALUE. -/
  value : Word32
  /-- RSEQ. -/
  rseq : Word32
  /-- It has been read. -/
  read : Bool := false
  deriving DecidableEq, Repr

/-- The Stoker's command service and the host register page (R60 to R86). -/
structure Stoker where
  /-- The Stoker serves commands: it has reached PREPARE, LOCKOUT or RECOVERY and is not HALTED. -/
  serving : Bool := false
  /-- A HALTED Stoker is being restarted (R124). -/
  restarting : Bool := false
  /-- CMD_TAIL. -/
  cmdTail : Byte := 0
  /-- REPLY_TAIL. -/
  replyTail : Byte := 0
  /-- CMD_HEAD. -/
  cmdHead : Byte := 0
  /-- REPLY_HEAD. -/
  replyHead : Byte := 0
  /-- RING_EPOCH. -/
  epoch : Word32 := 0
  /-- RING_FAULTS. -/
  ringFaults : Half := 0
  /-- A RING_RESET is latched and not yet complete (R65). -/
  resetDue : Bool := false
  /-- APERTURE. -/
  aperture : Half := 0
  /-- The command ring, by offset: bytes the host wrote. -/
  cmdRing : Tbl Byte := ⟨[]⟩
  /-- The reply ring, by slot. -/
  replies : Tbl Reply := ⟨[]⟩
  /-- By source. -/
  sources : Tbl CmdSource := ⟨[]⟩
  /-- The pending commands, in the order taken. -/
  pends : List Pend := []
  /-- The open configuration transaction. -/
  txn : Option Txn := none
  /-- The open grants. -/
  grants : List Grant := []
  /-- The next GRANT_ID. -/
  nextGrant : Word32 := 1
  /-- The expert log, oldest first (R83). -/
  xlog : List XRec := []
  /-- RSEQ of the next expert log record. -/
  xnext : Word32 := 0
  /-- PAGE_SEQ of the poll page. -/
  pageSeq : Word32 := 0
  /-- The refreshed words of the poll page, by offset (R86). -/
  page : Tbl Word32 := ⟨[]⟩
  /-- Queues that crossed their level upward since the last refresh. -/
  crossed : List Nat := []
  /-- The source served last: the round-robin turn of R61. -/
  turn : Nat := 0
  /-- Replies sent to sources without a ring, by source, newest last. -/
  sent : Tbl (List Reply) := ⟨[]⟩
  deriving DecidableEq, Repr

/-- A store that has retired or is held (R146, R149). -/
structure Store where
  /-- The effective address. -/
  addr : Word64
  /-- The data, in the low `size` bytes. -/
  data : Word64
  /-- Size in bytes; the two halves of a split store are two entries (R158). -/
  size : Nat
  /-- STATUS.PRIV at retirement (R176). -/
  priv : Bool
  /-- The MPU refused it at retirement: it is dropped at the head (R174). -/
  denied : Bool
  /-- It is the first half of a split store: the next entry is the second (R157). -/
  split : Bool := false
  deriving DecidableEq, Repr

/-- The architectural registers of a core (R125). -/
structure Arch where
  /-- g1 to g31 by number. -/
  g : Tbl Word64 := ⟨[]⟩
  /-- f0 to f31 by number. -/
  f : Tbl Word64 := ⟨[]⟩
  /-- The program counter. -/
  pc : Word64 := 0
  /-- The control registers in force, by number, where they differ from their reset value. -/
  cr : Tbl Word64 := ⟨[]⟩
  /-- Written values of SYNC.C registers that do not yet apply (R154). -/
  crw : Tbl Word64 := ⟨[]⟩
  deriving DecidableEq, Repr

/-- What a pending load or atomic does when its response arrives (R145). -/
structure LoadOp where
  /-- The effective address. -/
  addr : Word64
  /-- Size in bytes. -/
  size : Nat
  /-- Sign-extend the value. -/
  signed : Bool
  /-- The destination is an f register. -/
  isF : Bool
  /-- The destination register. -/
  rd : Reg
  /-- An atomic: its FN and its operand (R137). -/
  atomic : Option (BitVec 11 × Word64)
  deriving DecidableEq, Repr

/-- A pending load or atomic (R145, R146). -/
structure PendLoad where
  /-- The access. -/
  op : LoadOp
  /-- Its own address, for EPC. -/
  pc : Word64
  /-- The registers as they stood when it issued: a failed response goes back to them. -/
  ck : Arch
  /-- The stores of held instructions ahead of it. -/
  held : List Store
  /-- Held instructions between it and the pending one before it. -/
  ahead : Nat
  /-- Its response, where it has arrived and waits for the retirement of what precedes it: good, or the failing byte and
  its DETAIL. -/
  ans : Option (Option (Nat × Nat)) := none
  /-- The chimney link that it crosses went down before its response, or its member became unreachable (R488). -/
  lost : Bool := false
  deriving DecidableEq, Repr

/-- The state a core waits in (R462). -/
inductive WaitSt where
  | awake | wait
  deriving DecidableEq, Repr

/-- A core that runs Vexku code: 0 to 63, and 64 the Stoker (R125). -/
structure Core where
  /-- Started and not held in core reset. -/
  run : Bool := false
  /-- The registers, with the effects of held instructions. -/
  arch : Arch := {}
  /-- Pending loads and atomics, in program order. -/
  pend : List PendLoad := []
  /-- Instructions held behind the youngest pending one (R146). -/
  nheld : Nat := 0
  /-- Stores of instructions held behind the youngest pending one. -/
  held : List Store := []
  /-- The store buffer, oldest first (R149). -/
  sb : List Store := []
  /-- The line that the fetch buffer holds (R155). -/
  fbuf : Option Nat := none
  /-- The commit token of the last trap or interrupt entry, as every lane sends it (R89). -/
  entry : Option CommitTok := none
  /-- INT_PEND. -/
  ipend : Word64 := 0
  /-- A WDT trap waits to be taken (R168). -/
  wdtTrap : Bool := false
  /-- Stopped by an entry fault (R169). -/
  stopped : Bool := false
  /-- WAIT has stopped issue. -/
  wait : WaitSt := .awake
  /-- A debugger asked for a halt that is not yet taken. -/
  dbgReq : Bool := false
  /-- Halted by a debugger. -/
  dbg : Bool := false
  /-- The beats of its own instructions and waits. -/
  beats : Word64 := 0
  /-- The beat counter of its hearth when the core last left core reset. -/
  base : Word64 := 0
  /-- RETIRED. -/
  retired : Word64 := 0
  /-- STALLS. -/
  stalls : Word64 := 0
  /-- The interval counter when the core last left core reset. -/
  since : Word64 := 0
  /-- The REQUIRE expiry was raised for this core reset (R318). -/
  reqRaised : Bool := false
  deriving DecidableEq, Repr

/-- HOB_STAT.PSTATE (R209). -/
inductive HobPower where
  | awake | waking | ret55 | ret45
  deriving DecidableEq, Repr

/-- What a hob keeps beside its bytes and its counters (R188 to R210): hearths 0 to 15, 16 the Stoker hob. -/
structure Hob where
  /-- The rotation pointer of the arbiter (R190). -/
  ptr : Nat := 0
  /-- The round-robin pointer of the hearth DMA over its channels (R189). -/
  dmaPtr : BitVec 4 := 0
  /-- Writes that passed over a waiting read: the reader and the writer (R191). -/
  passed : List (Nat × Nat) := []
  /-- PSTATE. -/
  power : HobPower := .awake
  /-- MARCH_ACTIVE. -/
  march : Bool := false
  /-- REGION of HOB_STAT: the row under test or next to test. -/
  row : Nat := 0
  /-- Tester accesses of the row test in progress that the arbiter has not granted yet (R198). -/
  owed : Nat := 0
  /-- The armed injection: 0b01 flips C0, 0b10 flips C0 and C1; and its master. -/
  inject : Option (BitVec 2 × Nat) := none
  /-- The write-back queue: offsets of corrected bytes, oldest first, at most 4 (R196). -/
  wbq : List Nat := []
  /-- MARCH_FAIL.REGION. -/
  failRow : BitVec 14 := 0
  /-- MARCH_FAIL.COUNT. -/
  failCnt : Byte := 0
  /-- MARCH_FAIL.VALID. -/
  failValid : Bool := false
  /-- Rows pending repair (R199). -/
  pendRows : List Nat := []
  /-- SPARES.ROWS_FREE. -/
  rowsFree : BitVec 6 := 0
  /-- SPARES.COLS_FREE. -/
  colsFree : BitVec 4 := 0
  deriving DecidableEq, Repr

/-- BLW_STAT.PHASE (R245). -/
inductive BlwPhase where
  | stopped | window | slots | output
  deriving DecidableEq, Repr

/-- An entry of the parameter buffer: port-word writes that one command asked for (R238, R239). -/
structure ParamEntry where
  /-- The context. -/
  ctx : Nat
  /-- The bytes to write, by hob offset. -/
  cells : List Host.Cell
  deriving DecidableEq, Repr

/-- A hearth DMA channel (R229 to R231). -/
structure DmaChan where
  /-- A transfer is in progress. -/
  running : Bool := false
  /-- F, bits [31:0], of the frame in which it started. -/
  frame : Word32 := 0
  /-- It halted, and starts again at the next frame boundary (R231). -/
  halted : Bool := false
  /-- Words of an output channel that its queue has taken, one that waits there included (R373, R375). -/
  moved : Nat := 0
  deriving DecidableEq, Repr

/-- What the Stoker keeps of a schedule bank (R259, R263). -/
structure Bank where
  /-- A schedule was loaded into it since reset. -/
  loaded : Bool := false
  /-- OUT_RESERVE given with it, in 10 ns. -/
  reserve : Nat := 0
  /-- A level change left it unchecked (R260). -/
  unchecked : Bool := false
  deriving DecidableEq, Repr

/-- The bellows of a hearth (R212 to R246) and its frame (R252 to R257). -/
structure Bellows where
  /-- PHASE. -/
  phase : BlwPhase := .stopped
  /-- An expert write has started it in MAINTAIN (R47). -/
  expert : Bool := false
  /-- BELLOWS_CHECK stopped it (R235). -/
  checked : Bool := false
  /-- A failed bellows slice stopped it (R332). -/
  basteFail : Bool := false
  /-- BASTING. -/
  basting : Bool := false
  /-- CONTEXT of the current or last slot. -/
  ctx : Nat := 0
  /-- The parameter buffer, oldest first. -/
  params : List ParamEntry := []
  /-- The slack counter (R221). -/
  slack : Nat := 0
  /-- The armed injection: the context and the residues still to corrupt. -/
  inject : Option (Nat × Nat) := none
  /-- Contexts whose next run is a preset run by LOOP_RESUME or CTX_RESUME. -/
  resume : List Nat := []
  /-- CTX_FAULTED. -/
  faulted : List Nat := []
  /-- Contexts loaded by LOOP_LOAD since the last reset of the hearth (R300). -/
  loaded : List Nat := []
  /-- IMG_LATE. -/
  late : BitVec 16 := 0
  /-- SAFE_SEL.GROUP. -/
  group : BitVec 16 := 0
  /-- SAFE_SEL.ALL. -/
  all : Bool := true
  /-- The channels. -/
  chans : Tbl DmaChan := ⟨[]⟩
  /-- The register values the frame started with, by offset (R230). -/
  use : Tbl Word32 := ⟨[]⟩
  /-- SCHED_STAT.IN_USE: bank B. -/
  bankB : Bool := false
  /-- The entries of this frame that have not run, in table order. -/
  todo : List Word32 := []
  /-- The slot phase waits for input channels. -/
  waitIn : Bool := false
  /-- F, bits [31:0], of the frame in progress. -/
  frame : Word32 := 0
  /-- SCHED_STAT.OVR_CNT. -/
  ovrCnt : Half := 0
  /-- The banks: 0 A, 1 B. -/
  banks : Tbl Bank := ⟨[]⟩
  deriving DecidableEq, Repr

/-- The rotation state of a basting unit (R325, R326, R344). -/
structure BasteUnit where
  /-- HSTAT.NEXT_LANE. -/
  next : Nat := 0
  /-- The lane under a rotation slice. -/
  cur : Option Nat := none
  /-- The slice has ended its BIST, or an abort has (PHASE 0b10). -/
  late : Bool := false
  /-- The interval counter when the lane under the slice went to BASTING. -/
  began : Word64 := 0
  /-- A deferred slice keeps its turn. -/
  deferred : Bool := false
  /-- The turn of lane 0 fell due while slices are paused: its bellows slice starts with the next one taken (R332). -/
  blwDue : Bool := false
  /-- Segments begun of the bellows slice in progress; none when none runs. -/
  segs : Option Nat := none
  /-- Basting-mode time of the last PASS by lane, and of the last complete slice of the bellows at 13 (R336). -/
  passed : Tbl Word64 := ⟨[]⟩
  /-- BLW_SEGS of the last slice while none runs. -/
  segsDone : Nat := 0
  /-- Lanes overdue; 13 the bellows. -/
  overdue : List Nat := []
  deriving DecidableEq, Repr

/-- A basting result record (R337). -/
structure BasteRec where
  /-- TIME. -/
  time : Word64
  /-- INFO. -/
  info : Word32
  /-- RSEQ. -/
  rseq : Word32
  deriving DecidableEq, Repr

/-- The BASTE block (R325 to R345). -/
structure Baste where
  /-- By unit, 0 to 16. -/
  units : Tbl BasteUnit := ⟨[]⟩
  /-- Nanoseconds spent in the modes that run slices since the device reset (R327, R336). -/
  time : Word64 := 0
  /-- SCAN_OPEN was accepted: the application cores stay in core reset (R338). -/
  scanHold : Bool := false
  /-- The result ring, newest first, at most 64. -/
  results : List BasteRec := []
  /-- RSEQ_NEXT. -/
  rseq : Word32 := 0
  /-- SCAN_STAT.SCAN_OPEN. -/
  scanOpen : Bool := false
  /-- SCAN_STAT.SECRET_PATH_OFF. -/
  pathOff : Bool := false
  /-- SCAN_STAT.ZEROISED. -/
  zeroised : Bool := false
  deriving DecidableEq, Repr

/-- An entry of a channel's correction log (R356, R365). -/
structure MemLog where
  /-- The line address. -/
  line : Nat
  /-- COUNT. -/
  count : Nat
  /-- LOG_LOC. -/
  loc : Word32
  /-- Outcome of R352. -/
  outcome : BitVec 4
  /-- The byte corrected. -/
  byte : Nat
  /-- SYN of R196. -/
  syn : BitVec 5
  /-- The number of entries that the channel had taken before it: its age among them. -/
  nth : Nat := 0
  deriving DecidableEq, Repr

/-- A DRAM channel (R346 to R366). -/
structure MemChan where
  /-- MEM_INFO.ENABLED. -/
  enabled : Bool := false
  /-- MEM_INFO.RATE. -/
  rate : BitVec 2 := 0
  /-- MEM_INFO.RANKS. -/
  ranks : Bool := false
  /-- MEM_INFO.DENSITY. -/
  density : Bool := false
  /-- MEM_INFO.TRAIN_STEP. -/
  trainStep : BitVec 3 := 0
  /-- EPOCH. -/
  epoch : Half := 0
  /-- The 48-bit write counter. -/
  wgen : BitVec 48 := 0
  /-- The lines most recently written and the COUNT of each write, newest first, at most 1,024. -/
  recent : List (Nat × BitVec 48) := []
  /-- The correction log: a free entry is none; 16 entries. -/
  log : List MemLog := []
  deriving DecidableEq, Repr

/-- The scrub engine's task (R357, R364). -/
structure ScrubJob where
  /-- First device address. -/
  start : Nat
  /-- Bytes. -/
  len : Nat
  /-- A MEM_FILL and its word, or a scrub. -/
  fill : Option Word32
  /-- The time base when it began. -/
  since : Word64
  deriving DecidableEq, Repr

/-- The DRAM and its controllers. (DESIGN CHOICE: assumption 121.) -/
structure Dram where
  /-- By line (device address / 64): the stored 128-byte block (R348). A device reset leaves the blocks (R350). -/
  blocks : Tbl (List Byte) := ⟨[]⟩
  /-- The channels 0 to 3. -/
  chans : Tbl MemChan := ⟨[]⟩
  /-- The retire map: page indices in entry order, and whether the repair record holds each. -/
  retired : List (Nat × Bool) := []
  /-- The scrub engine's task. -/
  job : Option ScrubJob := none
  /-- By 64 MiB region: the interval counter at the last covering scrub. -/
  scrubbed : Tbl Word64 := ⟨[]⟩
  /-- The interval counter when KINDLE ended: regions never scrubbed age from it. -/
  born : Word64 := 0
  /-- Corrected lines whose write-back waits in QoS class 3 (R352). -/
  wbacks : List (Nat × List Byte) := []
  /-- The Stoker has filled the spill ring with zeros since KINDLE (R364). -/
  ringFilled : Bool := false
  deriving DecidableEq, Repr

/-- The MODE of a queue (R370). -/
inductive QMode where
  | disabled | word | packet
  deriving DecidableEq, Repr

/-- The configuration of a queue (R370). -/
structure QCfg where
  /-- MODE. -/
  mode : QMode := .disabled
  /-- FLOOR. -/
  floor : Nat := 0
  /-- CAP. -/
  cap : Nat := 0
  /-- LEVEL. -/
  level : Nat := 0
  /-- TRY_CELLS. -/
  tryCells : Nat := 0
  /-- SAFETY. -/
  safety : Bool := false
  deriving DecidableEq, Repr

/-- An entry of the owner table of the pool (R368): absent for a free cell. -/
structure Owner where
  /-- The owning queue. -/
  q : Nat
  /-- It is visible; otherwise part of an open packet. -/
  visible : Bool
  deriving DecidableEq, Repr

/-- A queue (R368 to R384). -/
structure Queue where
  /-- Its configuration. -/
  cfg : QCfg := {}
  /-- The first and the last cell of the visible chain. -/
  ends : Option (Nat × Nat) := none
  /-- Words of the first cell already dequeued. -/
  rd : Nat := 0
  /-- OCC. -/
  occ : Nat := 0
  /-- Visible words. -/
  words : Nat := 0
  /-- The sequence number of the next word to become visible. -/
  seq : Word32 := 0
  /-- The sequence number of the next word to be dequeued. -/
  rdSeq : Word32 := 0
  /-- Words of the packet at the head that are still to be dequeued: 0 before its length word. -/
  left : Nat := 0
  /-- BROKEN. -/
  broken : Bool := false
  deriving DecidableEq, Repr

/-- An open packet (R378, R379). -/
structure OpenPkt where
  /-- The requester. -/
  rid : Rid
  /-- The queue. -/
  q : Nat
  /-- Its cells, in order, reserved ones included. -/
  cells : List Nat
  /-- Opened by TRY_OPEN. -/
  tried : Bool
  /-- Payload words kept. -/
  len : Nat := 0
  /-- TRUNC. -/
  trunc : Bool := false
  deriving DecidableEq, Repr

/-- A waiting write of a port page (R373): the page offset 0x20, 0x24, 0x28 or 0x2C and its words. -/
structure Waiter where
  /-- The requester. -/
  rid : Rid
  /-- The queue. -/
  q : Nat
  /-- ENQ, PKT_OPEN, PKT_WORD or PKT_CLOSE by page offset. -/
  off : Nat
  /-- The words still to append. -/
  ws : List Word32
  /-- It has met a limit; otherwise it only stands behind an earlier write of its requester. -/
  begun : Bool := true
  deriving DecidableEq, Repr

/-- A boundary FIFO (R387): the true pointers, counts of log2(D) + 1 bits, and the two stages of each one's synchroniser,
which hold Gray codes. -/
structure Bfifo where
  /-- The write pointer. -/
  wr : Nat := 0
  /-- The read pointer. -/
  rd : Nat := 0
  /-- The first stage of the write pointer's synchroniser. -/
  wrStage : Nat := 0
  /-- The second stage: the Gray code of the write pointer that the reader sees. -/
  wrSeen : Nat := 0
  /-- The first stage of the read pointer's synchroniser. -/
  rdStage : Nat := 0
  /-- The second stage: the Gray code of the read pointer that the writer sees. -/
  rdSeen : Nat := 0
  deriving DecidableEq, Repr

/-- The Bobbin (R368 to R396). -/
structure Bobbin where
  /-- The boundary FIFOs, by index (R386). -/
  fifos : Tbl Bfifo := ⟨[]⟩
  /-- By 16 × cell + word: the stored words of the pool (R368). -/
  pool : Tbl Word32 := ⟨[]⟩
  /-- Where the 13 stored bits of a byte are no code word of it (R368): by 64 × cell + byte, and from 4,194,304 on by cell for
  the entries of the owner table, the bits in which they differ from one. -/
  flips : Tbl (BitVec 13) := ⟨[]⟩
  /-- The owner table, by cell. -/
  owner : Tbl Owner := ⟨[]⟩
  /-- Cells kept out of use until device reset (R384). -/
  dead : List Nat := []
  /-- By queue. -/
  queues : Tbl Queue := ⟨[]⟩
  /-- The open packets. -/
  opens : List OpenPkt := []
  /-- The waiting enqueues, in the order they began to wait. -/
  waiters : List Waiter := []
  /-- Boundary FIFOs stopped by a pointer fault (R388). -/
  stopped : List Nat := []
  deriving DecidableEq, Repr

/-- The state of the Thimble (R402). -/
inductive ThmSt where
  | boot | noImage | noStore | idle | measuring | batch | halted
  deriving DecidableEq, Repr

/-- A Thimble record: the 64 bytes of R410 as sixteen words. -/
structure ThmRec where
  /-- RNUM. -/
  rnum : Word32
  /-- TYPE_INFO. -/
  info : Word32
  /-- THM_TIME. -/
  time : Word64
  /-- BATCH. -/
  batch : Word32
  /-- P0 to P5. -/
  ps : List Word32
  /-- CHAIN_TAG. -/
  tag : Word32
  /-- PREV, 16 bytes. -/
  prev : List Byte
  deriving DecidableEq, Repr

/-- A bitstream input (R405, R406). -/
structure ThmInput where
  /-- The latest sample, 24 bits. -/
  sample : BitVec 24 := 0
  /-- CLIP. -/
  clip : Bool := false
  /-- STUCK. -/
  stuck : Bool := false
  /-- VALID. -/
  valid : Bool := false
  /-- The last bit and the length of its run, up to 1,024. -/
  runBit : Bool := false
  /-- The run length. -/
  run : Nat := 0
  /-- The sinc³ integrators. -/
  ints : List Int := [0, 0, 0]
  /-- The sinc³ combs' delayed values. -/
  combs : List Int := [0, 0, 0]
  /-- The FIR delay line, newest first. -/
  fir : List Int := []
  deriving DecidableEq, Repr

/-- A gate request in the Thimble (R421). -/
structure GateReq where
  /-- CODE. -/
  code : BitVec 4
  /-- TAG. -/
  tag : Byte
  /-- SUB. -/
  sub : Half
  /-- ARG. -/
  arg : Word32
  /-- An answer, RESULT and RNUM, waits to be published. -/
  answer : Option (Byte × Word32) := none
  /-- THMG still waits for it; false after a device reset. -/
  watched : Bool := true
  deriving DecidableEq, Repr

/-- A signing in progress (R413). -/
structure Signing where
  /-- The covered RNUM. -/
  rnum : Word32
  /-- THM_TIME at its start. -/
  time : Word64
  /-- H of the covered record. -/
  h : List Byte
  deriving DecidableEq, Repr

/-- A signature table entry (R413): block and signature. -/
structure SigEntry where
  /-- The 64-byte block. -/
  block : List Byte
  /-- The 384-byte signature. -/
  sig : List Byte
  deriving DecidableEq, Repr

/-- A copy of the parameter store (R418). -/
structure ThmStore where
  /-- ACTIVE_VERSION. -/
  version : Half := 0
  /-- The audit value. -/
  audit : Nat := 0
  /-- The parameter words, by index. -/
  params : Tbl Word32 := ⟨[]⟩
  /-- The HMAC of the copy. -/
  mac : List Byte := []
  deriving DecidableEq, Repr

/-- The Thimble and the THMG block (R397 to R434). -/
structure Thimble where
  /-- STATE. -/
  st : ThmSt := .boot
  /-- VCT is in range and THM_RST_N is high. -/
  powered : Bool := false
  /-- THM_LINK.UP. -/
  up : Bool := false
  /-- SEAL_OPEN. -/
  sealOpen : Bool := false
  /-- A commit was made in this opening. -/
  sealCommit : Bool := false
  /-- SLOT running. -/
  slotB : Bool := false
  /-- FALLBACK. -/
  fallback : Bool := false
  /-- The life-cycle code as sensed. -/
  lifecycle : BitVec 3 := 0
  /-- REFCLK_THM is lost. -/
  refLost : Bool := false
  /-- The frequency measured as it was lost, in kHz. -/
  refKHz : Word32 := 0
  /-- THM_TIME. -/
  time : Word64 := 0
  /-- The newest RNUM. -/
  last : Word32 := 0
  /-- The highest acknowledged RNUM. -/
  acked : Word32 := 0
  /-- RNUM covered by the last completed signing. -/
  signed : Word32 := 0
  /-- RING_COUNT. -/
  ringCount : Word32 := 0
  /-- The record ring, by slot. -/
  ring : Tbl ThmRec := ⟨[]⟩
  /-- The log, oldest first, at most 16,384 (R415). -/
  log : List ThmRec := []
  /-- The signatures of the last 1,024 signings: RNUM of the SIGNATURE record and the entry. -/
  sigs : List (Word32 × SigEntry) := []
  /-- The signature table of the mailbox, by entry. -/
  table : Tbl SigEntry := ⟨[]⟩
  /-- Signature table entries written. -/
  sigCount : Nat := 0
  /-- The open lot; 0 none. -/
  batch : Word32 := 0
  /-- POINTS. -/
  points : Word32 := 0
  /-- CHAIN_ID, 16 bytes. -/
  chain : List Byte := []
  /-- H of the newest record, 32 bytes. -/
  head : List Byte := []
  /-- The signing in progress. -/
  signing : Option Signing := none
  /-- A trigger arrived while a signing runs. -/
  signAgain : Bool := false
  /-- THM_TIME at the start of the last signing. -/
  signAt : Option Word64 := none
  /-- A record other than a SIGNATURE was created since that start. -/
  unsigned : Bool := false
  /-- Staged parameter entries, in order: index and value. -/
  staged : List (Nat × Word32) := []
  /-- The request in the gate. -/
  gate : Option GateReq := none
  /-- A request that THMG passed while one from before its reset is still in the Thimble (R421). -/
  gateNext : Option GateReq := none
  /-- GATE_RESP as last published: RESULT, CODE, TAG. -/
  resp : Word32 := 0
  /-- GATE_RNUM as last published. -/
  respRnum : Word32 := 0
  /-- PAGE_SEQ of the status page. -/
  pageSeq : Word32 := 0
  /-- The 16 words of the status page as last rewritten (R426). -/
  page : List Word32 := []
  /-- LIVE. -/
  live : Word32 := 0
  /-- THMG: GATE_STAT. -/
  gateStat : Word32 := 0
  /-- THMG: GATE_RNUM. -/
  gateRnum : Word32 := 0
  /-- The TAG the Stoker assigns next. -/
  nextTag : Byte := 0
  /-- THM_TIME at recent self-restarts. -/
  restarts : List Word64 := []
  /-- The parameters in force: those of the valid store copy. -/
  params : Tbl Word32 := ⟨[]⟩
  /-- ACTIVE_VERSION. -/
  version : Half := 0
  /-- A valid store exists. -/
  storeOk : Bool := false
  /-- The SHA-256 digest of the running image. -/
  imgDigest : List Byte := []
  /-- Bitstream inputs. -/
  inputs : Tbl ThmInput := ⟨[]⟩
  /-- Pulse inputs: COUNT and PERIOD. -/
  pulses : Tbl (Word32 × Word32) := ⟨[]⟩
  /-- THM_TIME at the last counted edge of a pulse input. -/
  pulseAt : Tbl Word64 := ⟨[]⟩
  /-- A REPLAY copies: the next RNUM, and the last (R423). -/
  replay : Option (Word32 × Word32) := none
  /-- THM_TIME at which the next copy is made. -/
  replayAt : Word64 := 0
  /-- The store before the commit whose answer is not yet published (R418). -/
  before : Option ThmStore := none
  /-- Forwarding: the queue, while it runs (R429). -/
  fwd : Option Nat := none
  /-- RING_COUNT of the next slot to forward. -/
  fwdNext : Word32 := 0
  /-- Step 4 of the boot found an image that may run (R401). -/
  imageOk : Bool := false
  deriving DecidableEq, Repr

/-- A row entry of the repair record (R360). -/
structure RepairRow where
  /-- CH. -/
  ch : Nat
  /-- The row's location word: subchannel, rank, bank and row. -/
  loc : Word32
  /-- 0 PENDING, 1 APPLIED, 2 NO_SPARE. -/
  st : BitVec 2 := 0
  deriving DecidableEq, Repr

/-- The device record in flash (R504): the content of the valid copy. (DESIGN CHOICE: assumption 5.) -/
structure DevRecord where
  /-- The row entries (R360), at most 64. -/
  rows : List RepairRow := []
  /-- The retired pages (R355), in entry order. -/
  pages : List Nat := []
  /-- MEM_CONFIG RATE (R363). -/
  rate : BitVec 2 := 0
  /-- MEM_CONFIG SCRUB_LIMIT. -/
  scrubLimit : Half := 0
  /-- MEM_CONFIG has been written. -/
  memSet : Bool := false
  /-- SESSION_CFG word (R451). -/
  session : Word32 := 0
  /-- MEMBERS (R477); 0 blank. -/
  members : BitVec 4 := 0
  deriving DecidableEq, Repr

/-- The two xSPI flash devices (R504). (DESIGN CHOICE: assumption 5.) -/
structure Flash where
  /-- Main slots A and B, by slot × 16 MiB + offset; an erased byte reads 0xFF. -/
  main : Tbl Byte := ⟨[]⟩
  /-- Thimble slots 0 and 1, by slot × 512 KiB + offset; an erased byte reads 0xFF. -/
  thm : Tbl Byte := ⟨[]⟩
  /-- Thimble store copies, by device. -/
  store : Tbl ThmStore := ⟨[]⟩
  /-- The device record. -/
  rcd : DevRecord := {}
  /-- The lockout record is present (R45). -/
  lockout : Bool := false
  /-- The Flue's flash history, newest first, at most 8,192 (R292). -/
  hist : List Rec := []
  deriving DecidableEq, Repr

/-- The states of the staged image (R442). -/
inductive StageSt where
  | empty | staging | verifying | verified | failed | armed
  deriving DecidableEq, Repr

/-- What the Stoker holds of a verified image: its length and its bytes 0x0000 to 0x103F, which its signature covers. -/
structure ImgInfo where
  /-- LENGTH. -/
  len : Nat := 0
  /-- Header and section table. -/
  head : List Byte := []
  deriving DecidableEq, Repr

/-- A persistent write in progress in the background: what FLASH_OPERATION_COMPLETE ends. -/
inductive FlashOp where
  /-- IMAGE_PERSIST: writing slot B (true) or slot A; from RUNNING (false) or STAGE. -/
  | persist (fromStage slotB : Bool)
  /-- A copy of the device record with a new row entry, or with MEMBERS. -/
  | record (row : Option RepairRow) (members : Option (BitVec 4))
  /-- A Thimble slot erase (slot). -/
  | thmErase (slot : Bool)
  /-- A Thimble slot write: slot, offset, bytes. -/
  | thmWrite (slot : Bool) (off : Nat) (bytes : List Byte)
  deriving DecidableEq, Repr

/-- A flash operation of the Stoker. -/
structure FlashJob where
  /-- The device, 0 or 1. -/
  dev : Nat
  /-- What it does. -/
  op : FlashOp
  /-- The key of the pending command it completes. -/
  key : Nat
  deriving DecidableEq, Repr

/-- CUT_STAT of a hearth (R457). -/
structure CutStat where
  /-- PHASE. -/
  phase : BitVec 2 := 0
  /-- PASSED. -/
  passed : BitVec 4 := 0
  /-- FAILED. -/
  failed : BitVec 4 := 0
  /-- SWITCHES. -/
  switches : Half := 0
  deriving DecidableEq, Repr

/-- A cutover that is armed or running (R445 to R449). -/
structure Cutover where
  /-- HEARTHS. -/
  hearths : BitVec 16
  /-- F_c. -/
  fc : Word64
  /-- The copies are in place and checked. -/
  ready : Bool := false
  /-- Cores that stand at their switch points. -/
  stopped : List Nat := []
  /-- Cores that were HALTED or held in core reset at the boundary. -/
  aside : List Nat := []
  /-- Cores that the switch switched; none before the switch. -/
  switched : Option (List Nat) := none
  /-- The first failing hearth and its cause (R447). -/
  fail : Option (Nat × Byte) := none
  deriving DecidableEq, Repr

/-- An Ethernet command session (R451 to R454). -/
structure Session where
  /-- SESSION. -/
  id : Word32
  /-- The session key k. -/
  key : List Byte
  /-- The time base at which LIFETIME ends. -/
  till : Word64
  /-- Commands accepted. -/
  accepted : Nat
  /-- The MAC it came in by. -/
  mac : Byte
  deriving DecidableEq, Repr

/-- Images, cutover, sessions and keys (R435 to R457). -/
structure Images where
  /-- The flash. -/
  flash : Flash := {}
  /-- The Stoker's flash operations in arrival order: the first of each device is in progress (R505). -/
  jobs : List FlashJob := []
  /-- The key of the next flash command. -/
  jobNext : Nat := 0
  /-- The state of the staged image. -/
  st : StageSt := .empty
  /-- The last reason of R440. -/
  reason : BitVec 4 := 0
  /-- STAGE LENGTH. -/
  stageLen : Nat := 0
  /-- The areas that hold RUNNING, PRIOR and STAGE: 0, 1, 2 from the lowest. -/
  areas : Nat × Nat × Nat := (0, 1, 2)
  /-- RUNNING. -/
  running : ImgInfo := {}
  /-- PRIOR. -/
  prior : ImgInfo := {}
  /-- STAGE, once verified. -/
  stage : ImgInfo := {}
  /-- DIGEST of the STOKER section that runs. -/
  stokerDigest : List Byte := []
  /-- Hearths marked loaded (R444). -/
  loaded : BitVec 16 := 0
  /-- The cutover. -/
  cut : Option Cutover := none
  /-- Word 0 and word 1 of the last R449 result. -/
  lastCut : Word32 × Word32 := (0, 0)
  /-- HEARTHS and F_c bits [31:0] of the last cutover. -/
  lastNamed : BitVec 16 × Word32 := (0, 0)
  /-- By hearth. -/
  cuts : Tbl CutStat := ⟨[]⟩
  /-- Open sessions. -/
  sessions : List Session := []
  /-- OPENs accepted lately: SHA-256 and the time base then. -/
  opens : List (List Byte × Word64) := []
  /-- ENTROPY_FAIL is active. -/
  entropyFail : Bool := false
  /-- The key register of the crypto engine; empty once zeroised (R338). -/
  cryptoKey : List Byte := []
  /-- Its operand register. -/
  cryptoOperand : List Byte := []
  /-- The state of the DRBG; empty where it holds none (R338). -/
  drbgState : List Byte := []
  deriving DecidableEq, Repr

/-- DOM_STAT.STATE (R474). -/
inductive DomSt where
  | off | on | retain | changing
  deriving DecidableEq, Repr

/-- A power domain (R458 to R461). (DESIGN CHOICE: assumption 67.) -/
structure Domain where
  /-- STATE. -/
  st : DomSt := .on
  /-- VOTES. -/
  votes : Half := 1
  /-- PAD_HOLD. -/
  padHold : Bool := false
  /-- REFUSED of DOM_STAT: an entry waits on a refusal. -/
  waits : Bool := false
  /-- DOM_ACCT.REFUSED. -/
  refused : Half := 0
  /-- DOM_ACCT.ABORTED. -/
  aborted : Half := 0
  /-- DOM_LAST.IDENTITY. -/
  lastId : Rid := 0
  /-- DOM_LAST.CAUSE. -/
  lastCause : BitVec 3 := 0
  deriving DecidableEq, Repr

/-- A level change of a rail (R467). -/
structure LevelChange where
  /-- The final level. -/
  target : Nat
  /-- The level that the step started from. -/
  start : Nat
  /-- The level written. -/
  wrote : Nat
  /-- The starting voltage has been written once more. -/
  back : Bool := false
  deriving DecidableEq, Repr

/-- The power controller (R458 to R475). -/
structure Power where
  /-- By domain, 0 to 243. -/
  doms : Tbl Domain := ⟨[]⟩
  /-- LEVEL_STAT.VCN, VCS, VCU. -/
  levels : Nat × Nat × Nat := (5, 5, 4)
  /-- By rail 0 to 2: the change in progress. -/
  changes : Tbl LevelChange := ⟨[]⟩
  /-- LEVEL_STAT.AVS_FAULT. -/
  avsFault : BitVec 4 := 0
  /-- By sensor: the latest reading. -/
  tj : Tbl Byte := ⟨[]⟩
  /-- VCA_TELEM. -/
  vca : Word32 := 0
  deriving DecidableEq, Repr

/-- PORT.STATE (R497). -/
inductive PortSt where
  | disabled | training | linked | down
  deriving DecidableEq, Repr

/-- A chimney port (R478 to R483). -/
structure Port where
  /-- STATE. -/
  st : PortSt := .disabled
  /-- WIDTH: of the last training that succeeded. -/
  width : BitVec 2 := 0
  /-- PEER_POS. -/
  peer : BitVec 3 := 0
  /-- MISMATCH. -/
  mismatch : Bool := false
  /-- LINK_UPS. -/
  ups : Half := 0
  /-- LINK_DELAY. -/
  delay : Half := 0
  /-- The failed attempts in a row of the frame whose tag is next. -/
  fails : Nat := 0
  /-- The sequence tag of the next frame. -/
  tag : Nat := 0
  deriving DecidableEq, Repr

/-- What the base keeps of a course (R482, R489). -/
structure Course where
  /-- It is reachable. -/
  reach : Bool := false
  /-- Its mode code. -/
  mode : BitVec 4 := 0
  /-- Its Pattern CRC (w3 of its CHIMNEY_MEMBER record). -/
  crc : Word32 := 0
  /-- w4 of its record. -/
  part : Word32 := 0
  /-- Its time offset. -/
  offset : Word32 := 0
  deriving DecidableEq, Repr

/-- A command forwarded to a course and not yet answered (R70, R486). -/
structure Forward where
  /-- The target position. -/
  pos : BitVec 3
  /-- OPCODE. -/
  opc : Half
  /-- The packet, with its origin. -/
  pkt : Packet
  /-- Its number in the order of forwarding. -/
  id : Nat := 0
  /-- It waited here before it was forwarded, and its PENDING reply was sent then. -/
  told : Bool := false
  /-- A RING_RESET has forgotten its sequence: its reply is not the stored one. -/
  stale : Bool := false
  deriving DecidableEq, Repr

/-- A request that waits for the answer of a remote window (R487, R488). (DESIGN CHOICE: assumption 84.) -/
structure Remote where
  /-- The requester. -/
  rid : Rid
  /-- The position. -/
  pos : BitVec 3
  /-- The device address there. -/
  addr : Addr
  /-- It writes. -/
  write : Bool
  deriving DecidableEq, Repr

/-- The chimney (R476 to R498). (DESIGN CHOICE: assumption 6.) -/
structure Chim where
  /-- The strapped position. -/
  pos : BitVec 3 := 0
  /-- CHIM_STAT.MEMBERS: configured or learnt; 0 unknown. -/
  members : BitVec 4 := 0
  /-- The up port. -/
  up : Port := {}
  /-- The down port. -/
  down : Port := {}
  /-- A course: base reach. -/
  baseReach : Bool := false
  /-- The base: by position. -/
  courses : Tbl Course := ⟨[]⟩
  /-- REPLAY_CNT. -/
  replays : Word32 := 0
  /-- Commands forwarded. -/
  forwards : List Forward := []
  /-- The number of the next forwarded command. -/
  fwdNext : Nat := 0
  /-- Requests to remote windows, oldest first. -/
  remotes : List Remote := []
  /-- The base entered SAFE: the next time frame carries the mark (R492). -/
  safeMark : Bool := false
  /-- The step that the next time frame carries, and the boundary at which it applies (R484). -/
  stepMark : Option (Word64 × Word64) := none
  /-- A course: the mode codes in the status frames that it relayed last, by position (R482, R495). -/
  below : Tbl (BitVec 4) := ⟨[]⟩
  /-- A step that a course applies at the named base frame. -/
  stepDue : Option (Word64 × Word64) := none
  deriving DecidableEq, Repr

/-- What the block answered at its ports with the last command: the data of a read, or how it ended. -/
inductive Answer where
  /-- No answer. -/
  | none
  /-- A register or port word. -/
  | word (v : Word64)
  /-- Bytes. -/
  | bytes (bs : List Byte)
  /-- A Completer Abort, or an error response (R24, R179): DETAIL of R164. -/
  | error (detail : Byte)
  /-- A request accepted without data. -/
  | done
  deriving DecidableEq, Repr

/-- Host and field ports (R499 to R512). (DESIGN CHOICE: assumptions 121, 125.) -/
structure Ports where
  /-- The PCIe link is up. -/
  pcieUp : Bool := false
  /-- The function is in D3hot. -/
  d3hot : Bool := false
  /-- The PCIe boundary FIFO stopped: the link stays in Detect (R500). -/
  pcieDead : Bool := false
  /-- Configuration space, by dword offset: values written. -/
  cfg : Tbl Word32 := ⟨[]⟩
  /-- The maintenance SPI's inbound command, not yet taken. -/
  mspiIn : Option (List Byte) := none
  /-- MSPI FRAME_ERR. -/
  frameErr : Bool := false
  /-- Command datagrams received and not yet taken: the MAC, the source address and port, and the payload, oldest first. -/
  ethIn : List (Nat × BitVec 48 × List Byte) := []
  /-- The replies the maintenance SPI holds, oldest first. -/
  mspiOut : List Reply := []
  /-- FIO_STAT.CONFIGURED: the first DONE commit of FIO was made. -/
  fioDone : Bool := false
  /-- Pad levels after the debounce. -/
  gpio : BitVec 128 := 0
  /-- By GPIO pad: the level that a held pad keeps driving (R464). -/
  latch : Tbl Bool := ⟨[]⟩
  /-- The links of MAC 0 and 1 are up. -/
  ethUp : BitVec 2 := 0
  /-- Controllers stopped by a boundary FIFO: CAN 0 to 7, ETH 8, 9. -/
  stopped : List Nat := []
  /-- The frames the last transmit row sent: the words of the packet. -/
  sent : List Word32 := []
  deriving DecidableEq, Repr

/-- The bytes of the hobs: address and byte, strictly rising by address, no byte 0; an address not listed reads 0. -/
abbrev Memory := List Host.Cell

/-- The fuses: what survives every loss of power and can only be blown (R54 to R58, R435).
(DESIGN CHOICE: assumption 4.) -/
structure Fuse where
  /-- The ordering code is KL6430-M. -/
  variantM : Bool := false
  /-- UID. -/
  uid : Word64 := 0
  /-- The three copies of the PROVISIONED group. -/
  provisioned : BitVec 3 := 0
  /-- The three copies of the FIELD group. -/
  field : BitVec 3 := 0
  /-- The three copies of the RETURNED group. -/
  returned : BitVec 3 := 0
  /-- The three copies of the SCRAPPED group. -/
  scrapped : BitVec 3 := 0
  /-- SHA-256 of the vendor root key. -/
  vendorHash : List Byte := List.replicate 32 0
  /-- SHA-256 of the customer firmware key. -/
  custHash : List Byte := List.replicate 32 0
  /-- SHA-256 of the metrology key. -/
  metrHash : List Byte := List.replicate 32 0
  /-- The identity key pair: the number of the free values it was drawn as. -/
  identity : Option Nat := none
  /-- The one-way fuse that makes the identity private key unreadable. -/
  unreadable : Bool := false
  /-- The fuse secret read path is disabled (R58). -/
  secretOff : Bool := false
  /-- By hob: spare rows and spare columns that the fuse map uses (R199). -/
  spares : Tbl (Nat × Nat) := ⟨[]⟩
  /-- The Thimble's audit counter (R417). -/
  audit : Nat := 0
  /-- The Thimble's record key pair, as the number of its free values (R412). -/
  recordKey : Option Nat := none
  /-- The Thimble's 256-bit store key, as the number of its free values, once it was generated (R418). -/
  storeKey : Option Nat := none
  deriving DecidableEq, Repr

/-- Everything the block holds beside its queue, its fuses and its hobs. (DESIGN CHOICE: assumptions 8, 122.) -/
structure Dev where
  /-- Modes, start-up, life cycle. -/
  sys : Sys := {}
  /-- The register file. -/
  regs : Regs := {}
  /-- The commit machines, by block base address. -/
  commits : Tbl Commit := ⟨[]⟩
  /-- The time base. -/
  clock : Clock := {}
  /-- The Flue. -/
  flue : Flue := {}
  /-- The damper channels. -/
  dampers : Tbl Damper := ⟨[]⟩
  /-- The watchdogs, 0 to 63 and 64 the Stoker's. -/
  wdts : Tbl Wdt := ⟨[]⟩
  /-- The lanes: 13 × hearth + lane, and 208 + lane of the Stoker. -/
  lanes : Tbl Lane := ⟨[]⟩
  /-- The seams, by core. -/
  seams : Tbl Seam := ⟨[]⟩
  /-- By hearth, and 16 the Stoker. -/
  laneUnits : Tbl LaneUnit := ⟨[]⟩
  /-- The command service. -/
  stoker : Stoker := {}
  /-- The cores. -/
  cores : Tbl Core := ⟨[]⟩
  /-- The hobs: 0 to 15, and 16 the Stoker hob. -/
  hobs : Tbl Hob := ⟨[]⟩
  /-- By hob byte address: the bits of its 13-bit cell that differ from its code word (R195). -/
  flips : Tbl (BitVec 13) := ⟨[]⟩
  /-- The bellows, by hearth. -/
  bellows : Tbl Bellows := ⟨[]⟩
  /-- Basting. -/
  baste : Baste := {}
  /-- The DRAM. -/
  dram : Dram := {}
  /-- The Bobbin. -/
  bobbin : Bobbin := {}
  /-- The Thimble. -/
  thm : Thimble := {}
  /-- Images, flash, cutover and sessions. -/
  images : Images := {}
  /-- The power controller. -/
  power : Power := {}
  /-- The chimney. -/
  chim : Chim := {}
  /-- The host and field ports. -/
  ports : Ports := {}
  /-- The Pattern's GENERATION. -/
  patGen : Word32 := 0
  /-- The interval counter when a sector erase that suspends the watchdogs began (R317). -/
  eraseAt : Option Word64 := none
  /-- The model's own: free values taken so far. -/
  free : Nat := 0
  /-- What the last command was answered. -/
  out : Answer := .none
  deriving DecidableEq, Repr

/-- The machine. -/
structure State where
  /-- The commands that wait, first in, first out. -/
  pending : List Instr
  /-- The fuses. -/
  fuse : Fuse
  /-- The hobs' bytes, by device address; an address not listed reads 0. -/
  mem : Memory
  /-- Everything else. -/
  dev : Dev
  deriving DecidableEq, Repr

/-- The faults of a step. The block has none: every unit an operand names exists, and every request of the
spec's is answered. -/
inductive Fault where
  deriving DecidableEq, Repr

/-- The refusals of a step. -/
inductive Refusal where
  /-- The command has no meaning in the model yet: raised by the dispatch alone; safe. -/
  | notModelled (mnemonic : String)
  deriving DecidableEq, Repr

/-- The machine right after reset: the device reset state of HOLD (R41, R47), fuses and flash blank, nothing pending.
(DESIGN CHOICE: assumptions 3, 4, 5, 6, 7, 15, 67, 121, 122.) -/
def State.reset : State := { pending := [], fuse := {}, mem := [], dev := {} }

end Sys2Proof.Machine
end

