-- ==== Sys2Proof/Machine/Ops.lean ====
section
/-! DEFINITION. The operations that every family uses: tables, bit fields, byte order, the memory of the hobs, and
the world that a command works on. -/

namespace Sys2Proof

/-- The row of key `k`. -/
def Tbl.get? {α : Type} (t : Tbl α) (k : Nat) : Option α := (t.rows.find? (fun r => r.1 == k)).map (·.2)

/-- The value of key `k`, or `d`. -/
def Tbl.getD {α : Type} (t : Tbl α) (k : Nat) (d : α) : α := (t.get? k).getD d

/-- Put a row in its place. -/
def insertRow {α : Type} (k : Nat) (v : α) : List (Nat × α) → List (Nat × α)
  | [] => [(k, v)]
  | (a, b) :: r => if k < a then (k, v) :: (a, b) :: r else if k = a then (k, v) :: r else (a, b) :: insertRow k v r

/-- Give key `k` the value `v`. -/
def Tbl.set {α : Type} (t : Tbl α) (k : Nat) (v : α) : Tbl α := ⟨insertRow k v t.rows⟩

/-- Drop the rows whose key fails `p`. -/
def Tbl.keep {α : Type} (t : Tbl α) (p : Nat → Bool) : Tbl α := ⟨t.rows.filter (fun r => p r.1)⟩

/-- Drop the row of key `k`. -/
def Tbl.erase {α : Type} (t : Tbl α) (k : Nat) : Tbl α := t.keep (fun a => a != k)

/-- Set consecutive keys. -/
def Tbl.setAll {α : Type} (t : Tbl α) (k : Nat) : List α → Tbl α
  | [] => t
  | v :: vs => Tbl.setAll (t.set k v) (k + 1) vs

/-- Bits `lo` to `lo + len - 1` of a word, as a number. -/
def fld {n : Nat} (v : BitVec n) (lo len : Nat) : Nat := (v.toNat >>> lo) % 2 ^ len

/-- Bit `i` of a word. -/
def bitAt {n : Nat} (v : BitVec n) (i : Nat) : Bool := v.getLsbD i

/-- The word with bits `lo` to `lo + len - 1` replaced. -/
def setFld {n : Nat} (v : BitVec n) (lo len x : Nat) : BitVec n :=
  BitVec.ofNat n (v.toNat - (fld v lo len) * 2 ^ lo + (x % 2 ^ len) * 2 ^ lo)

/-- The word with bit `i` set to `b`. -/
def setBit {n : Nat} (v : BitVec n) (i : Nat) (b : Bool) : BitVec n := setFld v i 1 b.toNat

/-- A number shifted into place, for packing a word. -/
def at_ (x lo : Nat) : Nat := x * 2 ^ lo

/-- A 32-bit word of a number. -/
def w32 (x : Nat) : Word32 := BitVec.ofNat 32 x

/-- A 64-bit word of a number. -/
def w64 (x : Nat) : Word64 := BitVec.ofNat 64 x

/-- One bit for each number below `n` that `p` holds for. -/
def maskOf (n : Nat) (p : Nat → Bool) : Nat := (List.range n).foldl (fun a i => a + (p i).toNat * 2 ^ i) 0

/-- The numbers of the set bits below `n`. -/
def bitsOf (n : Nat) (v : Nat) : List Nat := (List.range n).filter v.testBit

/-- Count up by 1, saturating. -/
def satInc {n : Nat} (v : BitVec n) : BitVec n := if v = BitVec.allOnes n then v else v + 1

/-- Count up by `k`, saturating. -/
def satAdd {n : Nat} (v : BitVec n) (k : Nat) : BitVec n := BitVec.ofNat n (min (v.toNat + k) (2 ^ n - 1))

/-- The `n` bytes of a number, least significant first. -/
def le : Nat → Nat → List Byte
  | 0, _ => []
  | n + 1, v => BitVec.ofNat 8 v :: le n (v / 256)

/-- The number that bytes spell, least significant first. -/
def ofLe : List Byte → Nat
  | [] => 0
  | b :: r => b.toNat + 256 * ofLe r

/-- The number that bytes spell, most significant first. -/
def ofBe (bs : List Byte) : Nat := ofLe bs.reverse

/-- The `n` bytes of a number, most significant first. -/
def be (n v : Nat) : List Byte := (le n v).reverse

/-- The bytes of 32-bit words. -/
def wordsLe (ws : List Word32) : List Byte := ws.flatMap (fun w => le 4 w.toNat)

/-- Bytes `off` to `off + n - 1`. -/
def slice {α : Type} (bs : List α) (off n : Nat) : List α := (bs.drop off).take n

/-- The 32-bit word at byte `off`. -/
def wordAt (bs : List Byte) (off : Nat) : Word32 := w32 (ofLe (slice bs off 4))

/-- The signed value of a 64-bit word. -/
def sgn64 (v : Word64) : Int := v.toInt

/-- All of a list is 0. -/
def allZero (bs : List Byte) : Bool := bs.all (fun b => b == 0)

namespace Machine

/-- The byte at an address: 0 where none is listed. (DESIGN CHOICE: assumption 3.) -/
def Memory.get (m : Memory) (a : Nat) : Byte := ((m.find? (fun c => c.1 == a)).map (·.2)).getD 0

/-- Write one byte. (DESIGN CHOICE: assumption 3.) -/
def Memory.set (m : Memory) (a : Nat) (b : Byte) : Memory :=
  if b = 0 then m.filter (fun c => c.1 != a) else insertRow a b m

/-- The canonical form: strictly rising addresses, no byte 0. -/
def Memory.wf : Memory → Bool
  | [] => true
  | (_, b) :: [] => b != 0
  | (a, b) :: (a', b') :: r => b != 0 && decide (a < a') && Memory.wf ((a', b') :: r)

/-- An effect on the memory: bytes written from an address on, or a range set to 0. -/
inductive MemOp where
  | put (a : Nat) (bs : List Byte)
  | clear (lo n : Nat)
  deriving DecidableEq, Repr

/-- Write consecutive bytes. -/
def Memory.setAll (m : Memory) (a : Nat) : List Byte → Memory
  | [] => m
  | b :: bs => Memory.setAll (Memory.set m a b) (a + 1) bs

/-- One effect. -/
def MemOp.apply (o : MemOp) (m : Memory) : Memory :=
  match o with
  | .put a bs => Memory.setAll m a bs
  | .clear lo n => m.filter (fun c => c.1 < lo || lo + n ≤ c.1)

/-- The effects in the order they were made: the newest stands first. -/
def Memory.applyAll (m : Memory) (ops : List MemOp) : Memory := ops.foldr MemOp.apply m

/-- The world that a command works on: the fuses and the memory as it found them, its effects on the memory, and the
device. -/
structure W where
  /-- The fuses. -/
  fuse : Fuse
  /-- The memory as the command found it. -/
  base : Memory
  /-- Effects on the memory, newest first. -/
  ops : List MemOp
  /-- The device. -/
  dev : Dev
  /-- Events that an operation has detected, and that follow it: source, DETAIL0 and DETAIL1. -/
  due : List (Nat × Word32 × Word32) := []

/-- The world that a command starts from; the answer of the last command is gone. -/
def State.world (s : State) : W := { fuse := s.fuse, base := s.mem, ops := [], dev := { s.dev with out := .none } }

/-- Run a command that leaves the fuses alone. -/
def run (s : State) (f : W → W) : Host.Outcome State Fault Refusal :=
  .next { s with dev := (f s.world).dev, mem := s.mem.applyAll (f s.world).ops }

/-- Run a command that may blow fuses. -/
def runFuse (s : State) (f : W → W) : Host.Outcome State Fault Refusal :=
  .next { s with fuse := (f s.world).fuse, dev := (f s.world).dev, mem := s.mem.applyAll (f s.world).ops }

/-- How an access ended: data of a read, an accepted write, an error response with DETAIL of R164, or it has to wait. -/
inductive Acc where
  | data (bs : List Byte)
  | done
  | err (detail : Nat)
  | wait
  deriving DecidableEq, Repr

/-- DETAIL: a reserved range. -/
def eReserved : Nat := 1
/-- DETAIL: a firewall refusal. -/
def eFirewall : Nat := 2
/-- DETAIL: an interconnect check. -/
def eLink : Nat := 3
/-- DETAIL: uncorrectable data. -/
def eUncorr : Nat := 4
/-- DETAIL: a retired page. -/
def eRetired : Nat := 5
/-- DETAIL: an atomic to a target that takes none. -/
def eAtomic : Nat := 6
/-- DETAIL: an alias load. -/
def eAlias : Nat := 7
/-- DETAIL: a chimney remote error. -/
def eRemote : Nat := 8

/-- Change the device. -/
def W.upd (w : W) (f : Dev → Dev) : W := { w with dev := f w.dev }

/-- The memory with the effects so far. -/
def W.mem (w : W) : Memory := w.base.applyAll w.ops

/-- The byte at a device address of a hob. -/
def W.byte (w : W) (a : Nat) : Byte := w.mem.get a

/-- `n` bytes from an address. -/
def W.bytes (w : W) (a n : Nat) : List Byte := let m := w.mem; (List.range n).map (fun i => m.get (a + i))

/-- Write bytes from an address on. -/
def W.poke (w : W) (a : Nat) (bs : List Byte) : W := { w with ops := .put a bs :: w.ops }

/-- Set a range to 0. -/
def W.wipe (w : W) (lo n : Nat) : W := { w with ops := .clear lo n :: w.ops }

/-- Answer the command. -/
def W.answer (w : W) (a : Answer) : W := w.upd (fun d => { d with out := a })

/-- Apply `f` over a list of items, one after the other. -/
def W.each {α : Type} (w : W) (xs : List α) (f : α → W → W) : W := xs.foldl (fun w x => f x w) w

/-- Do `f` where `c` holds. -/
def W.when (w : W) (c : Bool) (f : W → W) : W := if c then f w else w

/-- The number of the next free value, and the world that has taken it. (DESIGN CHOICE: assumption 8.) -/
def W.fresh (w : W) : Nat × W := (w.dev.free, w.upd (fun d => { d with free := d.free + 1 }))

/-- The reset configuration of a queue: 0xFFF is the event ring (R394). -/
def qReset (k : Nat) : Queue :=
  if k = 0xFFF then { cfg := { mode := .packet, floor := 1024, cap := 1024, tryCells := 1, level := 0, safety := true } }
  else {}

/-- The Damper numbered `k`. -/
def Dev.damper (d : Dev) (k : Nat) : Damper := d.dampers.getD k {}
/-- Change the Damper numbered `k`. -/
def Dev.onDamper (d : Dev) (k : Nat) (f : Damper → Damper) : Dev :=
  { d with dampers := d.dampers.set k (f (d.damper k)) }
/-- The Wdt numbered `k`. -/
def Dev.wdt (d : Dev) (k : Nat) : Wdt := d.wdts.getD k {}
/-- Change the Wdt numbered `k`. -/
def Dev.onWdt (d : Dev) (k : Nat) (f : Wdt → Wdt) : Dev :=
  { d with wdts := d.wdts.set k (f (d.wdt k)) }
/-- The Lane numbered `k`. -/
def Dev.lane (d : Dev) (k : Nat) : Lane := d.lanes.getD k {}
/-- Change the Lane numbered `k`. -/
def Dev.onLane (d : Dev) (k : Nat) (f : Lane → Lane) : Dev :=
  { d with lanes := d.lanes.set k (f (d.lane k)) }
/-- The Seam numbered `k`. -/
def Dev.seam (d : Dev) (k : Nat) : Seam := d.seams.getD k {}
/-- Change the Seam numbered `k`. -/
def Dev.onSeam (d : Dev) (k : Nat) (f : Seam → Seam) : Dev :=
  { d with seams := d.seams.set k (f (d.seam k)) }
/-- The LaneUnit numbered `k`. -/
def Dev.laneUnit (d : Dev) (k : Nat) : LaneUnit := d.laneUnits.getD k {}
/-- Change the LaneUnit numbered `k`. -/
def Dev.onLaneUnit (d : Dev) (k : Nat) (f : LaneUnit → LaneUnit) : Dev :=
  { d with laneUnits := d.laneUnits.set k (f (d.laneUnit k)) }
/-- The Core numbered `k`. -/
def Dev.core (d : Dev) (k : Nat) : Core := d.cores.getD k {}
/-- Change the Core numbered `k`. -/
def Dev.onCore (d : Dev) (k : Nat) (f : Core → Core) : Dev :=
  { d with cores := d.cores.set k (f (d.core k)) }
/-- The Hob numbered `k`. -/
def Dev.hob (d : Dev) (k : Nat) : Hob := d.hobs.getD k {}
/-- Change the Hob numbered `k`. -/
def Dev.onHob (d : Dev) (k : Nat) (f : Hob → Hob) : Dev :=
  { d with hobs := d.hobs.set k (f (d.hob k)) }
/-- The Bellows numbered `k`. -/
def Dev.blw (d : Dev) (k : Nat) : Bellows := d.bellows.getD k {}
/-- Change the Bellows numbered `k`. -/
def Dev.onBlw (d : Dev) (k : Nat) (f : Bellows → Bellows) : Dev :=
  { d with bellows := d.bellows.set k (f (d.blw k)) }
/-- The Commit numbered `k`. -/
def Dev.commit (d : Dev) (k : Nat) : Commit := d.commits.getD k {}
/-- Change the Commit numbered `k`. -/
def Dev.onCommit (d : Dev) (k : Nat) (f : Commit → Commit) : Dev :=
  { d with commits := d.commits.set k (f (d.commit k)) }
/-- The basting unit numbered `k`. -/
def Dev.bu (d : Dev) (k : Nat) : BasteUnit := d.baste.units.getD k {}
/-- Change the basting unit numbered `k`. -/
def Dev.onBu (d : Dev) (k : Nat) (f : BasteUnit → BasteUnit) : Dev :=
  { d with baste.units := d.baste.units.set k (f (d.bu k)) }
/-- The DRAM channel numbered `k`. -/
def Dev.chan (d : Dev) (k : Nat) : MemChan := d.dram.chans.getD k {}
/-- Change the DRAM channel numbered `k`. -/
def Dev.onChan (d : Dev) (k : Nat) (f : MemChan → MemChan) : Dev :=
  { d with dram.chans := d.dram.chans.set k (f (d.chan k)) }
/-- The queue numbered `k`. -/
def Dev.queue (d : Dev) (k : Nat) : Queue := d.bobbin.queues.getD k (qReset k)
/-- Change the queue numbered `k`. -/
def Dev.onQueue (d : Dev) (k : Nat) (f : Queue → Queue) : Dev :=
  { d with bobbin.queues := d.bobbin.queues.set k (f (d.queue k)) }
/-- The fault source numbered `k`. -/
def Dev.src (d : Dev) (k : Nat) : Src := d.flue.srcs.getD k {}
/-- Change the fault source numbered `k`. -/
def Dev.onSrc (d : Dev) (k : Nat) (f : Src → Src) : Dev :=
  { d with flue.srcs := d.flue.srcs.set k (f (d.src k)) }
/-- The power domain numbered `k`. -/
def Dev.dom (d : Dev) (k : Nat) : Domain := d.power.doms.getD k {}
/-- Change the power domain numbered `k`. -/
def Dev.onDom (d : Dev) (k : Nat) (f : Domain → Domain) : Dev :=
  { d with power.doms := d.power.doms.set k (f (d.dom k)) }
/-- The course numbered `k`. -/
def Dev.course (d : Dev) (k : Nat) : Course := d.chim.courses.getD k {}
/-- Change the course numbered `k`. -/
def Dev.onCourse (d : Dev) (k : Nat) (f : Course → Course) : Dev :=
  { d with chim.courses := d.chim.courses.set k (f (d.course k)) }
/-- The cutover state of hearth numbered `k`. -/
def Dev.cutStat (d : Dev) (k : Nat) : CutStat := d.images.cuts.getD k {}
/-- Change the cutover state of hearth numbered `k`. -/
def Dev.onCutStat (d : Dev) (k : Nat) (f : CutStat → CutStat) : Dev :=
  { d with images.cuts := d.images.cuts.set k (f (d.cutStat k)) }
/-- The command source numbered `k`. -/
def Dev.cmdSrc (d : Dev) (k : Nat) : CmdSource := d.stoker.sources.getD k {}
/-- Change the command source numbered `k`. -/
def Dev.onCmdSrc (d : Dev) (k : Nat) (f : CmdSource → CmdSource) : Dev :=
  { d with stoker.sources := d.stoker.sources.set k (f (d.cmdSrc k)) }
/-- The bitstream input numbered `k`. -/
def Dev.thmIn (d : Dev) (k : Nat) : ThmInput := d.thm.inputs.getD k {}
/-- Change the bitstream input numbered `k`. -/
def Dev.onThmIn (d : Dev) (k : Nat) (f : ThmInput → ThmInput) : Dev :=
  { d with thm.inputs := d.thm.inputs.set k (f (d.thmIn k)) }

/-- The mode code of R5. -/
def Mode.code : Mode → BitVec 4
  | .off => 0 | .hold => 1 | .kindle => 2 | .prepare => 3 | .run => 4 | .runReduced => 5 | .cutover => 6
  | .safe => 7 | .quiet => 8 | .lockout => 9 | .doze => 10 | .maintain => 11

/-- RUN, RUN_REDUCED or CUTOVER. -/
def Mode.running (m : Mode) : Bool := m == .run || m == .runReduced || m == .cutover

/-- Nothing answers in OFF (R5). -/
def W.powered (w : W) (f : W → W) : W := if w.dev.sys.mode = .off then w else f w

/-- The modes in which application cores execute (R47). -/
def Mode.coresRun (m : Mode) : Bool := m.running || m == .safe || m == .quiet || m == .maintain

/-- The modes in which slices and repair tests run (R327). -/
def Mode.bastes (m : Mode) : Bool := m.running || m == .safe || m == .quiet || m == .maintain

/-- The modes in which the Stoker serves commands. -/
def Mode.serves (m : Mode) : Bool := m.running || m == .prepare || m == .safe || m == .quiet || m == .lockout || m == .maintain

/-- The first byte of the hob of unit `u`: hearths 0 to 15, and 16 the Stoker hob (R23). -/
def hobBase (u : Nat) : Nat := if u < 16 then 0x04000000 + u * 0x400000 else 0x10000000

/-- The bytes of the hob of unit `u`. -/
def hobSize (u : Nat) : Nat := if u < 16 then 0x400000 else 0x100000

/-- Low and high words of a 64-bit value. -/
def lo32 (v : Word64) : Word32 := w32 (v.toNat % 2 ^ 32)
/-- High word. -/
def hi32 (v : Word64) : Word32 := w32 (v.toNat / 2 ^ 32)

/-- TYPE of a record. -/
def ThmRec.typ (r : ThmRec) : Nat := fld r.info 0 8

/-- Write a record to the next ring slot (R428). -/
def Thimble.ringPut (t : Thimble) (r : ThmRec) : Thimble :=
  { t with ring := t.ring.set (t.ringCount.toNat % 3072) r, ringCount := t.ringCount + 1 }

/-- The firmware runs. -/
def Thimble.fwRuns (t : Thimble) : Bool := t.powered && (t.st == .idle || t.st == .measuring || t.st == .batch)

/-- The kernel serves: a chain is open and the Thimble is neither booting nor halted. -/
def Thimble.serves (t : Thimble) : Bool := t.powered && (t.fwRuns || t.st == .noImage || t.st == .noStore)

/-- One copy of a replay (R423): a SIGNATURE record's table entry is rewritten first. -/
def Thimble.replayOne (t : Thimble) (r : ThmRec) : Thimble :=
  let t := if r.typ = 7 then
      match t.sigs.find? (fun x => x.1 == r.rnum) with
      | some x => { t with table := t.table.set ((r.ps.headD 0).toNat % 64) x.2 }
      | none => t
    else t
  t.ringPut r

/-- The next `n` copies of a REPLAY under way, one in each microsecond (R423). (DESIGN CHOICE: assumption 172.) -/
def Thimble.copies (t : Thimble) : Nat → Thimble
  | 0 => t
  | n + 1 =>
    match t.replay with
    | none => t
    | some (a, b) =>
      let t := match t.log.find? (fun r => r.rnum == a) with
        | some r => t.replayOne r
        | none => t
      Thimble.copies { t with replay := if a = b then none else some (a + 1, b), replayAt := t.replayAt + 1000 } n

/-- THM_TIME moves while the Thimble is powered (R397), on its backup oscillator where REFCLK_THM is lost (R430). A kernel that
serves advances LIVE every millisecond and rewrites the status page for it (R426), and copies what a REPLAY asked for.
(DESIGN CHOICE: assumption 2.) -/
def Thimble.tick (t : Thimble) (dt : Nat) : Thimble :=
  if t.powered then
    let ms := (t.time.toNat + dt) / 1000000 - t.time.toNat / 1000000
    let t := { t with time := t.time + w64 dt }
    if t.serves then
      let t := if ms = 0 then t
        else
          let live := t.live + w32 ms
          let seq := t.pageSeq + w32 (2 * ms)
          { t with live := live, pageSeq := seq, page := t.page.mapIdx fun i x =>
              if i = 1 then seq else if i = 4 then lo32 t.time else if i = 5 then hi32 t.time else if i = 15 then live else x }
      if t.replay.isSome ∧ t.replayAt.toNat ≤ t.time.toNat then t.copies ((t.time.toNat - t.replayAt.toNat) / 1000 + 1) else t
    else t
  else t

/-- The steps that the beat counter of unit `h` takes in the first `t` ns of the interval counter, beside those that the rows
of its cores count. (DESIGN CHOICE: assumption 143.) -/
def beatsTo (h : Nat) : Nat → Nat
  | 0 => 0
  | t + 1 => beatsTo h t + Config.beatSteps h t

/-- Move both counters forward by `dt` ns; neither moves back. The beat counters step meanwhile (R134), and the time of the
basting modes counts (R327). (DESIGN CHOICE: assumption 2.) -/
def Dev.advance (d : Dev) (dt : Nat) : Dev :=
  let t := d.clock.ivl.toNat
  { d with clock := { d.clock with tb := d.clock.tb + w64 dt, ivl := d.clock.ivl + w64 dt,
                                   beats := d.clock.beats.mapIdx fun h b => b + w64 (beatsTo h (t + dt) - beatsTo h t) },
           baste := if d.sys.mode.bastes then { d.baste with time := d.baste.time + w64 dt } else d.baste,
           thm := d.thm.tick dt }

/-- The beat counter of unit `u` (R134). (DESIGN CHOICE: assumption 143.) -/
def Dev.beatCtr (d : Dev) (u : Nat) : Word64 := (d.clock.beats[u]?).getD 0

/-- The beat counter of unit `u` steps `n` times. -/
def Dev.beat (d : Dev) (u : Nat) (n : Word64) : Dev :=
  { d with clock := { d.clock with beats := d.clock.beats.mapIdx fun h b => if h = u then b + n else b } }

/-- Move the interval counter to `t` if it is not past it, and the time base with it.
(DESIGN CHOICE: assumption 2.) -/
def Dev.advanceIvl (d : Dev) (t : Nat) : Dev := d.advance (t - d.clock.ivl.toNat)

/-- Move the time base to `t` if it is not past it, and the interval counter with it.
(DESIGN CHOICE: assumption 2.) -/
def Dev.advanceTb (d : Dev) (t : Nat) : Dev := d.advance (t - d.clock.tb.toNat)

/-- The interval counter as a number. -/
def Dev.now (d : Dev) : Nat := d.clock.ivl.toNat

/-- KL6430-M, as fused. -/
def W.isM (w : W) : Bool := w.fuse.variantM

end Machine
end Sys2Proof
end

