-- ==== Sys2Proof/Machine/Codes.lean ====
section
/-! DEFINITION. The codes and digests that the spec computes with: CRC-32C (R15), CRC-64 (R349), the byte code of the
hobs (R195, R196), SHA-256, HMAC-SHA-256 and the verification of RSASSA-PSS signatures (R435). -/

namespace Sys2Proof.Machine

/-- `n` steps of a function. -/
def iter {α : Type} (f : α → α) : Nat → α → α
  | 0, x => x
  | n + 1, x => iter f n (f x)

/-- One bit of the reflected CRC-32C register. -/
def crc32cBit (r : Nat) : Nat := if r % 2 = 1 then Nat.xor (r / 2) 0x82F63B78 else r / 2

/-- One byte into the CRC-32C register. -/
def crc32cByte (r : Nat) (b : Byte) : Nat := iter crc32cBit 8 (Nat.xor r b.toNat)

/-- CRC-32C of R15. -/
def crc32c (bs : List Byte) : Word32 := w32 (Nat.xor (bs.foldl crc32cByte 0xFFFFFFFF) 0xFFFFFFFF)

/-- One bit of the CRC-64 register. -/
def crc64Bit (r : Nat) : Nat :=
  if r ≥ 2 ^ 63 then Nat.xor (r * 2 % 2 ^ 64) 0x42F0E1EBA9EA3693 else r * 2

/-- One byte into the CRC-64 register. -/
def crc64Byte (r : Nat) (b : Byte) : Nat := iter crc64Bit 8 (Nat.xor r (b.toNat * 2 ^ 56))

/-- CRC-64/ECMA-182 of R349. -/
def crc64 (bs : List Byte) : Word64 := w64 (bs.foldl crc64Byte 0)

/-- The exclusive-or of the bits of `v` that `m` selects. -/
def parity (v m : Nat) : Bool := (bitsOf 16 (Nat.land v m)).length % 2 = 1

/-- The check bits C3 to C0 of a data byte (R195). -/
def check4 (d : Nat) : Nat :=
  (parity d 0x5B).toNat + 2 * (parity d 0x6D).toNat + 4 * (parity d 0x8E).toNat + 8 * (parity d 0xF0).toNat

/-- The 13-bit code word of a byte: data in [7:0], C4 to C0 in [12:8] (R195). -/
def encode13 (d : Byte) : BitVec 13 :=
  let c := check4 d.toNat
  BitVec.ofNat 13 (d.toNat + 256 * c + 4096 * (parity (d.toNat + 256 * c) 0xFFF).toNat)

/-- What decoding a byte finds (R196). -/
inductive ByteCode where
  | good (b : Byte)
  | fixed (b : Byte) (syn : BitVec 5)
  | bad (b : Byte) (syn : BitVec 5)
  deriving DecidableEq, Repr

/-- The data bit that a syndrome of an odd-parity word names (R196). -/
def synBit (s : Nat) : Option Nat := ([3, 5, 6, 7, 9, 10, 11, 12] : List Nat).findIdx? (· == s)

/-- Decode a 13-bit word (R196). -/
def decode13 (v : BitVec 13) : ByteCode :=
  let d := fld v 0 8
  let s := Nat.xor (check4 d) (fld v 8 4)
  let odd := parity v.toNat 0x1FFF
  let syn := BitVec.ofNat 5 (s + 16 * odd.toNat)
  let b := BitVec.ofNat 8 d
  if odd then
    if s = 0 ∨ s = 1 ∨ s = 2 ∨ s = 4 ∨ s = 8 then .fixed b syn
    else match synBit s with
      | some i => .fixed (b ^^^ BitVec.ofNat 8 (2 ^ i)) syn
      | none => .bad b syn
  else if s = 0 then .good b else .bad b syn

/-- The value that a read of a byte delivers. -/
def ByteCode.val : ByteCode → Byte
  | .good b => b
  | .fixed b _ => b
  | .bad b _ => b

/-- The byte is uncorrectable. -/
def ByteCode.isBad : ByteCode → Bool
  | .bad _ _ => true
  | _ => false

/-- The byte was corrected. -/
def ByteCode.isFixed : ByteCode → Bool
  | .fixed _ _ => true
  | _ => false

/-- The greatest number below `2 ^ n` whose `k`-th power is at most `x`. -/
def rootBelow (k x : Nat) : Nat → Nat → Nat
  | 0, r => r
  | n + 1, r => rootBelow k x n (if (r + 2 ^ n) ^ k ≤ x then r + 2 ^ n else r)

/-- The first 32 bits of the fraction of the `k`-th root of `p`. -/
def rootFraction (k p : Nat) : Nat := rootBelow k (p * 2 ^ (32 * k)) 40 0 % 2 ^ 32

/-- The first 64 primes. -/
def shaPrimes : List Nat := (List.range 312).filter fun n => decide (1 < n) && (List.range n).all fun d => d < 2 || n % d != 0

/-- The round constants of SHA-256: from the cube roots of the first 64 primes. -/
def shaK : List Nat := shaPrimes.map (rootFraction 3)

/-- The initial hash value of SHA-256: from the square roots of the first 8 primes. -/
def shaH0 : List Nat := (shaPrimes.take 8).map (rootFraction 2)

/-- Rotate a 32-bit number right. -/
def rotr32 (x k : Nat) : Nat := x / 2 ^ k + x * 2 ^ (32 - k) % 2 ^ 32

/-- The message schedule, newest word first. -/
def shaExtend (ws : List Nat) : List Nat :=
  let w := fun i => ws.getD i 0
  let a := w 14
  let b := w 1
  let s0 := Nat.xor (Nat.xor (rotr32 a 7) (rotr32 a 18)) (a / 8)
  let s1 := Nat.xor (Nat.xor (rotr32 b 17) (rotr32 b 19)) (b / 1024)
  ((w 15 + s0 + w 6 + s1) % 2 ^ 32) :: ws

/-- One round on the working variables a to h. -/
def shaRound (v : List Nat) (kw : Nat × Nat) : List Nat :=
  match v with
  | [a, b, c, d, e, f, g, h] =>
    let s1 := Nat.xor (Nat.xor (rotr32 e 6) (rotr32 e 11)) (rotr32 e 25)
    let ch := Nat.xor (Nat.land e f) (Nat.land (2 ^ 32 - 1 - e) g)
    let t1 := h + s1 + ch + kw.1 + kw.2
    let s0 := Nat.xor (Nat.xor (rotr32 a 2) (rotr32 a 13)) (rotr32 a 22)
    let mj := Nat.xor (Nat.xor (Nat.land a b) (Nat.land a c)) (Nat.land b c)
    [(t1 + s0 + mj) % 2 ^ 32, a, b, c, (d + t1) % 2 ^ 32, e, f, g]
  | _ => v

/-- The words of a block, most significant byte first. -/
def shaWords : Nat → List Byte → List Nat
  | 0, _ => []
  | n + 1, bs => ofBe (bs.take 4) :: shaWords n (bs.drop 4)

/-- One 64-byte block. -/
def shaBlock (h : List Nat) (bs : List Byte) : List Nat :=
  let ws := (iter shaExtend 48 (shaWords 16 bs).reverse).reverse
  let v := (shaK.zip ws).foldl shaRound h
  (h.zip v).map (fun p => (p.1 + p.2) % 2 ^ 32)

/-- Blocks one after the other. -/
def shaBlocks : Nat → List Nat → List Byte → List Nat
  | 0, h, _ => h
  | n + 1, h, bs => shaBlocks n (shaBlock h (bs.take 64)) (bs.drop 64)

/-- SHA-256. (DESIGN CHOICE: assumption 50.) -/
def sha256 (m : List Byte) : List Byte :=
  let z := (119 - m.length % 64) % 64
  let p := m ++ [0x80#8] ++ List.replicate z 0 ++ be 8 (8 * m.length)
  (shaBlocks (p.length / 64) shaH0 p).flatMap (be 4)

/-- HMAC-SHA-256. (DESIGN CHOICE: assumption 50.) -/
def hmac (key m : List Byte) : List Byte :=
  let k0 := if key.length > 64 then sha256 key else key
  let k := k0 ++ List.replicate (64 - k0.length) 0
  sha256 (k.map (· ^^^ 0x5C) ++ sha256 (k.map (· ^^^ 0x36) ++ m))

/-- `b ^ e mod n` for an exponent of at most `k` bits. -/
def powMod (k n b e : Nat) : Nat :=
  (List.range k).foldl (fun r i => let r2 := r * r % n; if e.testBit (k - 1 - i) then r2 * b % n else r2) (1 % n)

/-- Two byte strings, bit by bit. -/
def xorBytes (a b : List Byte) : List Byte := List.zipWith (· ^^^ ·) a b

/-- MGF1 with SHA-256. -/
def mgf1 (seed : List Byte) (len : Nat) : List Byte :=
  ((List.range ((len + 31) / 32)).flatMap (fun i => sha256 (seed ++ be 4 i))).take len

/-- A byte string whose first bit is cleared. -/
def clearTop : List Byte → List Byte
  | [] => []
  | b :: r => (b &&& 0x7F) :: r

/-- EMSA-PSS encoding of RFC 8017 with SHA-256 and a salt of 32 bytes, for 3,071 encoded bits (R435).
(DESIGN CHOICE: assumption 50.) -/
def pssEncode (mHash salt : List Byte) : List Byte :=
  let h := sha256 (List.replicate 8 0 ++ mHash ++ salt)
  clearTop (xorBytes (List.replicate 318 0 ++ [1] ++ salt) (mgf1 h 351)) ++ h ++ [0xBC]

/-- EMSA-PSS verification of RFC 8017 with SHA-256, a salt of 32 bytes and 3,071 encoded bits.
(DESIGN CHOICE: assumption 50.) -/
def pssOk (mHash em : List Byte) : Bool :=
  let dbLen := 384 - 32 - 1
  let h := slice em dbLen 32
  let db := clearTop (xorBytes (em.take dbLen) (mgf1 h dbLen))
  (em.getD 383 0 == 0xBC) && ((em.getD 0 0 &&& 0x80) == 0) &&
  allZero (db.take (dbLen - 33)) && (db.getD (dbLen - 33) 0 == 1) &&
  (sha256 (List.replicate 8 0 ++ mHash ++ db.drop (dbLen - 32)) == h)

/-- A signature of R435 verifies: modulus big-endian, 384 bytes; exponent, 4 bytes little-endian.
(DESIGN CHOICE: assumption 50.) -/
def rsaOk (modulus expo sig msg : List Byte) : Bool :=
  let n := ofBe modulus
  let s := ofBe sig
  decide (s < n) && pssOk (sha256 msg) (be 384 (powMod 32 n s (ofLe expo)))

/-- The signature of R435 over a message, with the private exponent `d` (RFC 8017, RSASSA-PSS).
(DESIGN CHOICE: assumption 50.) -/
def rsaSign (modulus : List Byte) (d : Nat) (salt msg : List Byte) : List Byte :=
  be 384 (powMod 3072 (ofBe modulus) (ofBe (pssEncode (sha256 msg) salt)) d)

/-- EME-OAEP decoding of RFC 8017 with SHA-256, MGF1 with SHA-256 and the empty label: the message, or none.
(DESIGN CHOICE: assumption 50.) -/
def oaepDecode (em : List Byte) : Option (List Byte) :=
  let masked := slice em 33 351
  let seed := xorBytes (slice em 1 32) (mgf1 masked 32)
  let db := xorBytes masked (mgf1 seed 351)
  match (db.drop 32).dropWhile (· == 0) with
  | 1 :: m => if em.getD 0 0 = 0 ∧ db.take 32 = sha256 [] then some m else none
  | _ => none

/-- RSAES-OAEP decryption of R435 with the private exponent `d`; none where it fails.
(DESIGN CHOICE: assumption 50.) -/
def rsaUnwrap (modulus : List Byte) (d : Nat) (c : List Byte) : Option (List Byte) :=
  let n := ofBe modulus
  if ofBe c < n then oaepDecode (be 384 (powMod 3072 n (ofBe c) d)) else none

end Sys2Proof.Machine
end

