-- ==== Sys2Proof/Machine/Fifos.lean ====
section
/-! DEFINITION. The boundary FIFOs (R386, R387): their pointers and synchronisers, FULL and EMPTY, and the passage of an
entry. -/

namespace Sys2Proof.Machine

/-- The depth of boundary FIFO `n` (R386). (DESIGN CHOICE: assumption 152.) -/
def fifoDepth (n : Nat) : Nat :=
  if n < 2 then 64 else if n < 6 then 32 else if n < 18 then 64 else 16

/-- The Gray code of a pointer (R387). -/
def grayCode (p : Nat) : Nat := Nat.xor p (p / 2)

/-- The pointer of at most eight bits that a Gray code stands for. -/
def grayValue (g : Nat) : Nat := (List.range 7).foldl (fun p i => Nat.xor p (g / 2 ^ (i + 1))) g

/-- The entries between two pointers of log2(D) + 1 bits. -/
def ptrSpan (depth hi lo : Nat) : Nat := (hi + 2 * depth - lo) % (2 * depth)

/-- The writer sees FULL (R387). (DESIGN CHOICE: assumption 152.) -/
def Bfifo.full (f : Bfifo) (depth : Nat) : Bool := ptrSpan depth f.wr (grayValue f.rdSeen) == depth

/-- The reader sees EMPTY (R387). -/
def Bfifo.empty (f : Bfifo) : Bool := grayValue f.wrSeen == f.rd

/-- The writer adds an entry; never while FULL. -/
def Bfifo.write (f : Bfifo) (depth : Nat) : Bfifo := if f.full depth then f else { f with wr := (f.wr + 1) % (2 * depth) }

/-- The reader takes an entry; never while EMPTY. -/
def Bfifo.read (f : Bfifo) (depth : Nat) : Bfifo := if f.empty then f else { f with rd := (f.rd + 1) % (2 * depth) }

/-- One sample of each side's clock: the pointers move one stage on through the synchronisers.
(DESIGN CHOICE: assumption 152.) -/
def Bfifo.sample (f : Bfifo) : Bfifo :=
  { f with wrStage := grayCode f.wr, wrSeen := f.wrStage, rdStage := grayCode f.rd, rdSeen := f.rdStage }

/-- Boundary FIFO `n`. -/
def Dev.fifo (d : Dev) (n : Nat) : Bfifo := d.bobbin.fifos.getD n {}

/-- An entry has passed boundary FIFO `n`: written, visible to the reader after two samples, taken, and its room seen by
the writer after two more. (DESIGN CHOICE: assumption 152.) -/
def Dev.crossed (d : Dev) (n : Nat) : Dev :=
  let k := fifoDepth n
  let seen := fun (f : Bfifo) => f.sample.sample
  { d with bobbin := { d.bobbin with fifos := d.bobbin.fifos.set n (seen ((seen ((d.fifo n).write k)).read k)) } }

/-- Boundary FIFO `n` takes an entry: it is not FULL (R387), and no pointer fault has stopped it (R388). -/
def Dev.fifoOpen (d : Dev) (n : Nat) : Bool := !(d.fifo n).full (fifoDepth n) && !d.bobbin.stopped.contains n

/-- An entry passes boundary FIFO `n` and then acts; one that takes none back-pressures its source, which keeps it (R387).
(DESIGN CHOICE: assumption 152.) -/
def W.through (w : W) (n : Nat) (act : W → W) : W := if w.dev.fifoOpen n then act (w.upd fun d => d.crossed n) else w

end Sys2Proof.Machine
end

