-- ==== Sys2Proof/Machine/Sources.lean ====
section
/-! DEFINITION. The fault sources of the spec's tables (R109, R183, R205, R235, R261, R294 and those of the other
chapters), their kinds (R531) and the blocks they belong to (R530). -/

namespace Sys2Proof.Machine

/-- A row of the source tables: consecutive sources of one name. -/
structure SrcRow where
  /-- The first source. -/
  lo : Nat
  /-- How many. -/
  n : Nat
  /-- The name, without index (R20). -/
  name : String
  /-- Default severity. -/
  sev : Nat
  /-- Default mask: 1 log, 2 hearth safe, 4 loop safe, 8 device SAFE, 16 error pin. -/
  mask : Nat
  /-- FIXED. -/
  fixed : Bool
  /-- A level source. -/
  level : Bool
  /-- How many consecutive sources share a hearth (0: not a hearth source). -/
  per : Nat := 0
  deriving DecidableEq, Repr

/-- log, device SAFE, error pin. -/
def mDev : Nat := 25
/-- log, hearth safe, error pin. -/
def mHrt : Nat := 19

/-- The sources of the Flue, the registers, the supplies and the watchdogs. -/
def srcRows0 : List SrcRow :=
  [⟨0x000, 1, "FLUE_CFG_VOTE", 3, mDev, true, true, 0⟩, ⟨0x001, 1, "FLUE_REACT_FAULT", 3, mDev, true, false, 0⟩,
   ⟨0x002, 1, "REFCLK_TB_LOSS", 3, mDev, false, true, 0⟩, ⟨0x003, 1, "REFCLK_MEM_LOSS", 3, mDev, false, true, 0⟩,
   ⟨0x004, 1, "REFCLK_PCIE_LOSS", 1, 1, false, true, 0⟩, ⟨0x005, 1, "REF_DISAGREE", 3, mDev, false, true, 0⟩,
   ⟨0x006, 1, "OP_RESET_STUCK", 1, 1, false, true, 0⟩, ⟨0x007, 1, "ERRPIN_FAULT", 1, 1, false, true, 0⟩,
   ⟨0x010, 64, "DAMP_READBACK", 2, mHrt, false, true, 4⟩,
   ⟨0x050, 1, "ADDRESS_UNMAPPED", 0, 1, false, false, 0⟩, ⟨0x051, 1, "REGISTER_WIDTH", 0, 1, false, false, 0⟩,
   ⟨0x052, 1, "LK_REWRITE", 0, 1, false, false, 0⟩, ⟨0x053, 1, "EXPERT_BLOCKED", 0, 1, false, false, 0⟩,
   ⟨0x054, 1, "EXPERT_LOG_FULL", 1, 1, false, true, 0⟩, ⟨0x055, 1, "STOKER_INTERNAL", 1, 1, false, false, 0⟩,
   ⟨0x056, 1, "HOST_RING_FAULT", 0, 1, false, false, 0⟩,
   ⟨0x060, 1, "SUPPLY_VCN", 3, mDev, true, true, 0⟩, ⟨0x061, 1, "SUPPLY_VCS", 3, mDev, true, true, 0⟩,
   ⟨0x062, 1, "SUPPLY_VCU", 3, mDev, true, true, 0⟩, ⟨0x063, 1, "SUPPLY_VCA", 3, mDev, true, true, 0⟩,
   ⟨0x064, 1, "SUPPLY_VDDQ_M", 3, mDev, false, true, 0⟩, ⟨0x065, 1, "SUPPLY_VPHY", 3, mDev, false, true, 0⟩,
   ⟨0x066, 1, "SUPPLY_VPHYA", 3, mDev, false, true, 0⟩, ⟨0x067, 1, "SUPPLY_VSD", 1, 1, false, true, 0⟩,
   ⟨0x068, 1, "SUPPLY_VSDH", 1, 1, false, true, 0⟩, ⟨0x069, 1, "SUPPLY_VIO18", 1, 1, false, true, 0⟩,
   ⟨0x06A, 1, "SUPPLY_VIO33", 3, mDev, false, true, 0⟩, ⟨0x06B, 1, "AVS_FAIL", 1, 1, false, true, 0⟩,
   ⟨0x06C, 1, "PWR_REFUSED", 0, 1, false, false, 0⟩, ⟨0x06D, 1, "PWR_ABORTED", 0, 1, false, false, 0⟩,
   ⟨0x06E, 1, "TJ_OVER", 3, mDev, false, true, 0⟩,
   ⟨0x080, 64, "WDT_EXPIRE", 2, mHrt, false, false, 4⟩, ⟨0x0C0, 1, "WDT_EXPIRE", 3, mDev, true, false, 0⟩,
   ⟨0x0C1, 1, "WDT_HARD_RESET", 1, 1, false, false, 0⟩, ⟨0x0C2, 1, "WDT_DUP_NOTE", 0, 1, false, false, 0⟩,
   ⟨0x0C3, 1, "WDT_DUP_WARN", 1, 1, false, false, 0⟩, ⟨0x0C4, 1, "WDT_CFG_REFUSED", 0, 1, false, false, 0⟩,
   ⟨0x0C5, 1, "WDT_HELD", 1, 1, false, true, 0⟩]

/-- The sources of basting, protection, hobs, bellows and frames. -/
def srcRows1 : List SrcRow :=
  [⟨0x0D0, 16, "BLW_BASTE_FAIL", 2, mHrt, true, false, 1⟩, ⟨0x0E0, 16, "SEAM_BASTE_FAIL", 2, mHrt, true, false, 1⟩,
   ⟨0x0F0, 1, "BASTE_OVERDUE", 1, 1, false, true, 0⟩, ⟨0x0F1, 1, "SEAM_BASTE_FAIL", 3, mDev, true, false, 0⟩,
   ⟨0x0F2, 1, "BASTE_SKIPPED", 0, 1, false, false, 0⟩, ⟨0x0F3, 1, "SCAN_OPENED", 0, 1, false, false, 0⟩,
   ⟨0x1A0, 16, "ENTRY_FAULT", 2, mHrt, false, true, 1⟩, ⟨0x1B0, 1, "ENTRY_FAULT", 3, mDev, true, true, 0⟩,
   ⟨0x1B1, 1, "FW_DENY", 0, 1, false, false, 0⟩, ⟨0x1B2, 1, "MPU_STORE_DROP", 0, 1, false, false, 0⟩,
   ⟨0x1B3, 1, "DEBUG_DENIED", 0, 1, true, false, 0⟩, ⟨0x1B4, 4, "FW_PRIV_DENY", 1, 1, false, false, 0⟩,
   ⟨0x1C0, 16, "HOB_CORR", 0, 1, false, false, 1⟩, ⟨0x1D0, 16, "HOB_UNCORR", 1, 1, false, false, 1⟩,
   ⟨0x1E0, 16, "MARCH_FAIL", 1, 1, false, false, 1⟩, ⟨0x1F0, 1, "HOB_CORR", 0, 1, false, false, 0⟩,
   ⟨0x1F1, 1, "HOB_UNCORR", 1, 1, false, false, 0⟩, ⟨0x1F2, 1, "MARCH_FAIL", 1, 1, false, false, 0⟩,
   ⟨0x200, 16, "LOOP_RETRY", 0, 1, false, false, 1⟩, ⟨0x210, 16, "LOOP_FAULT", 2, 21, false, false, 1⟩,
   ⟨0x220, 16, "IMAGE_LATE", 1, 1, false, false, 1⟩, ⟨0x230, 16, "VOTE_DISC", 1, 1, false, false, 1⟩,
   ⟨0x240, 16, "BELLOWS_CHECK", 2, mHrt, true, true, 1⟩, ⟨0x250, 16, "FRAME_OVERRUN", 2, mHrt, false, false, 1⟩,
   ⟨0x260, 1, "TB_SYNC_LOST", 1, 1, false, true, 0⟩, ⟨0x261, 1, "TB_STEPPED", 0, 1, false, false, 0⟩]

/-- The sources of DRAM, queues, images, chimney and ports; the Thimble notices stand apart. -/
def srcRows2 : List SrcRow :=
  [⟨0x270, 4, "DRAM_CORR", 0, 1, false, false, 0⟩, ⟨0x274, 4, "DRAM_UNCORR", 1, 1, false, false, 0⟩,
   ⟨0x278, 4, "DRAM_TRAIN_FAIL", 1, 1, false, false, 0⟩, ⟨0x280, 1, "DRAM_SCRUB_OVERDUE", 1, 1, false, true, 0⟩,
   ⟨0x281, 1, "DRAM_RETIRED_ACCESS", 0, 1, false, false, 0⟩, ⟨0x282, 1, "DRAM_REPAIR_FAIL", 1, 1, false, false, 0⟩,
   ⟨0x2C0, 1, "QUEUE_MISUSE", 0, 1, false, false, 0⟩, ⟨0x2C1, 1, "TRY_REFUSED", 0, 1, false, false, 0⟩,
   ⟨0x2C2, 1, "PKT_ABORTED", 0, 1, false, false, 0⟩, ⟨0x2C3, 1, "POOL_EXHAUSTED", 1, 1, false, true, 0⟩,
   ⟨0x2C4, 1, "POOL_CORR", 0, 1, false, false, 0⟩, ⟨0x2C5, 1, "QUEUE_POISON", 1, 1, false, false, 0⟩,
   ⟨0x2C6, 1, "QUEUE_BROKEN", 1, 1, false, true, 0⟩, ⟨0x2C7, 1, "BFIFO_CHECK_MEM", 3, mDev, false, false, 0⟩,
   ⟨0x2C8, 1, "BFIFO_CHECK_PORT", 1, 1, false, false, 0⟩,
   ⟨0x340, 1, "IMAGE_SLOT_FAIL", 1, 1, false, false, 0⟩, ⟨0x341, 1, "IMAGE_COPY_FAIL", 1, 1, false, false, 0⟩,
   ⟨0x342, 1, "CUTOVER_FALLBACK", 1, 1, false, false, 0⟩, ⟨0x343, 1, "SESSION_AUTH_FAIL", 0, 1, false, false, 0⟩,
   ⟨0x344, 1, "ENTROPY_FAIL", 1, 1, false, true, 0⟩, ⟨0x345, 1, "FLASH_WRITE_FAIL", 1, 1, false, false, 0⟩,
   ⟨0x388, 1, "CHIM_LINK_MISMATCH", 1, 1, false, false, 0⟩, ⟨0x389, 1, "CHIM_DEGRADED", 1, 1, false, true, 0⟩,
   ⟨0x38A, 1, "CHIM_REPLAY", 0, 1, false, false, 0⟩, ⟨0x38C, 1, "CHIM_RETRAIN", 0, 1, false, false, 0⟩,
   ⟨0x3C0, 1, "PCIE_LINK_DOWN", 1, 1, false, true, 0⟩, ⟨0x3C1, 2, "ETH_LINK_DOWN", 0, 1, false, true, 0⟩,
   ⟨0x3C3, 1, "ETH_RX_DROP", 0, 1, false, false, 0⟩, ⟨0x3C4, 1, "MSPI_FRAME_ERR", 0, 1, false, false, 0⟩,
   ⟨0x3C5, 1, "XSPI_FAULT", 1, 1, false, false, 0⟩, ⟨0x3C8, 8, "CAN_BUS_OFF", 1, 1, false, true, 0⟩,
   ⟨0x3D0, 4, "I2C_BUS_STUCK", 1, 1, false, true, 0⟩]

/-- The names of the Thimble notices 0x300 to 0x30B, and whether each is a level source (R430). -/
def thmNotices : List (String × Bool) :=
  [("THM_DOWN", true), ("THM_REFCLK_LOSS", true), ("THM_SUPPLY", true), ("THM_SEAL_OPEN", true),
   ("THM_INHIBIT", true), ("THM_LOG_HIGH", true), ("THM_LANE_HALT", false), ("THM_INPUT_STUCK", false),
   ("THM_GATE_TIMEOUT", false), ("THM_FALLBACK", false), ("THM_FWD_LOST", false), ("THM_AUDIT_LOW", true)]

/-- The eight sources of a hearth's lanes and seams (R109): name, trips, FIXED for a hearth, level. -/
def laneSources : List (String × Bool × Bool × Bool) :=
  [("LANE_FENCED", false, false, false), ("LANE_FAILED", false, false, false), ("PATCH_EXHAUSTED", false, false, false),
   ("RETHREAD_FAIL", false, false, false), ("SEAM_HALT", true, false, true), ("SEAM_CHECK", true, true, true),
   ("STAGE_STALL", true, true, true), ("LINK_CHECK", true, true, true)]

/-- What the presence of a source depends on: the variant, the role, and MEMBERS. -/
structure SrcView where
  /-- KL6430-M. -/
  isM : Bool
  /-- A base. -/
  isBase : Bool
  /-- MEMBERS. -/
  members : Nat

/-- The source of number `s`, where the Pattern lists it (R270, R493). -/
def sourceRow (v : SrcView) (s : Nat) : Option SrcRow :=
  if 0x100 ≤ s ∧ s < 0x188 then
    (laneSources[s % 8]?).map fun r =>
      let stk := s ≥ 0x180
      { lo := s, n := 1, name := r.1, sev := if r.2.1 then (if stk then 3 else 2) else 1,
        mask := if r.2.1 then (if stk then mDev else mHrt) else 1,
        fixed := r.2.2.1 || (stk && r.2.1), level := r.2.2.2, per := if stk then 0 else 8 }
  else if 0x300 ≤ s ∧ s < 0x30C then
    if v.isM then (thmNotices[s - 0x300]?).map fun r => ⟨s, 1, r.1, 0, 1, true, r.2, 0⟩ else none
  else if s = 0x380 then if v.isBase then none else some ⟨s, 1, "CHIM_BASE_LOST", 3, mDev, true, true, 0⟩
  else if 0x380 < s ∧ s < 0x388 then
    if v.isBase ∧ s - 0x380 < v.members then some ⟨0x381, 7, "CHIM_MEMBER_LOST", 1, 1, false, true, 0⟩ else none
  else if s = 0x38B then if v.isBase then none else some ⟨s, 1, "CHIM_PEER_SAFE", 0, 1, false, false, 0⟩
  else (srcRows0 ++ srcRows1 ++ srcRows2).find? (fun r => r.lo ≤ s ∧ s < r.lo + r.n)

/-- The hearth that a hearth source belongs to. -/
def SrcRow.hearth (r : SrcRow) (s : Nat) : Option Nat :=
  if r.per = 0 then none
  else if r.per = 8 then some ((s - 0x100) / 8)
  else some ((s - r.lo) / r.per)

/-- The reset value of SRC_CFG_s (R272, R302). -/
def SrcRow.cfg (r : SrcRow) (s : Nat) : Nat :=
  r.sev + 4 * r.mask + 128 * r.fixed.toNat + 256 * (r.hearth s).getD 0

/-- BLOCK_TYPE and INSTANCE of the block that a source belongs to (R530). -/
def srcBlock (s : Nat) : Nat × Nat :=
  if s < 0x010 then (2, 0)
  else if s < 0x050 then (6, 0)
  else if s < 0x060 then (1, 0)
  else if s < 0x080 then (4, 0)
  else if s < 0x0D0 then (3, 0)
  else if s < 0x100 then (14, 0)
  else if s < 0x180 then (16, (s - 0x100) / 8)
  else if s < 0x188 then (1, 0)
  else if s < 0x1B0 then (16, s % 16)
  else if s = 0x1B0 then (1, 0)
  else if s < 0x1C0 then (11, 0)
  else if s < 0x1F0 then (16, s % 16)
  else if s < 0x200 then (1, 0)
  else if s < 0x260 then (16, s % 16)
  else if s < 0x270 then (5, 0)
  else if s < 0x27C then (10, s % 4)
  else if s < 0x2C0 then (10, 0)
  else if s < 0x300 then (8, 0)
  else if s < 0x340 then (17, 0)
  else if s < 0x380 then (9, 0)
  else if s < 0x3C0 then (12, 0)
  else if s < 0x3C8 then (13, 0)
  else (7, 0)

end Sys2Proof.Machine
end

