-- ==== Sys2Proof/Machine/Regs.lean ====
section
/-! DEFINITION. The register file: where the blocks lie (R29), the registers that hold plain values with their masks,
reset values and reset types (the register tables of the chapters), the staged and active values of RW-S registers
(R36), and what the reset types restore (R33, R34). -/

namespace Sys2Proof.Machine

/-- How a plain register behaves (R31): RW, RW-S, or a count or word that hardware keeps (RO-H). -/
inductive RegKind where
  | rw | rws | kept
  deriving DecidableEq, Repr

/-- The narrowest reset type that restores a register (R33). -/
inductive Scope where
  | cold | device | hearth | core
  deriving DecidableEq, Repr

/-- A row of the register tables. -/
structure RegRow where
  /-- Offset of instance 0. -/
  off : Nat
  /-- Instances. -/
  count : Nat
  /-- Bytes from one instance to the next. -/
  stride : Nat
  /-- Kind. -/
  kind : RegKind
  /-- Reset value. -/
  reset : Nat
  /-- Reset type. -/
  scope : Scope
  /-- The bits that are not reserved. -/
  mask : Nat
  deriving DecidableEq, Repr

/-- All 32 bits. -/
def m32 : Nat := 0xFFFFFFFF

/-- The hob registers of R208 that HEARTH_h and DEV share. -/
def hobRows : List RegRow :=
  [⟨0x200, 1, 4, .rws, 0x10032, .device, 0x11FFF⟩, ⟨0x208, 3, 4, .kept, 0, .hearth, m32⟩,
   ⟨0x214, 3, 4, .kept, 0, .hearth, m32⟩, ⟨0x240, 8, 4, .kept, 0, .hearth, m32⟩]

/-- The plain registers of each block, by BLOCK_TYPE. -/
def regRows : Nat → List RegRow
  | 1 => hobRows
  | 2 => [⟨0x24, 1, 4, .rws, 0x2710, .device, 0xFFFFF⟩, ⟨0x28, 1, 4, .rws, 3, .device, 0xF⟩,
          ⟨0x2C, 1, 4, .rws, 0, .device, 0xFFFFF⟩, ⟨0x30, 1, 4, .rws, 0x10032, .device, 0x13FFF⟩,
          ⟨0x34, 1, 4, .rws, 0xFFEFFF, .device, 0x7FFFFFF⟩]
  | 3 => [⟨0x20, 2, 4, .rws, 0, .device, m32⟩, ⟨0x28, 1, 4, .rws, 0x2710, .device, 0xFFFFF⟩,
          ⟨0x2C, 1, 4, .kept, 0, .device, m32⟩]
  | 4 => [⟨0x20, 1, 4, .rws, 0x455, .device, 0x777⟩, ⟨0x28, 1, 4, .rws, 0x641, .device, 0x3FF3⟩]
  | 5 => [⟨0x34, 1, 4, .rws, 0, .device, 7⟩, ⟨0x38, 3, 4, .rw, 0, .device, m32⟩,
          ⟨0x2000, 512, 16, .rw, 0, .core, m32⟩, ⟨0x2004, 512, 16, .rw, 0, .core, m32⟩,
          ⟨0x2008, 512, 16, .rw, 0, .core, m32⟩, ⟨0x200C, 512, 16, .rw, 0, .core, 0xFFFF0001⟩]
  | 6 => [⟨0x2000, 64, 4, .rws, 0x322, .device, 0x1F1FF7⟩]
  | 7 => [⟨0x40, 8, 4, .rws, 0, .device, 0x7FFF⟩, ⟨0x100, 128, 4, .rws, 0, .device, 0x7FF⟩,
          ⟨0x310, 4, 4, .rw, 0, .device, m32⟩, ⟨0x400, 10, 8, .rws, 0xFFFFFF, .device, 0x10FFFFFF⟩,
          ⟨0x404, 10, 8, .kept, 0, .device, m32⟩]
  | 8 => [⟨0x30, 1, 4, .rws, 0, .device, 0xFFF⟩, ⟨0x34, 1, 4, .rws, 0, .device, 0x7FFFFFF⟩,
          ⟨0x38, 2, 4, .rws, 0, .device, 0x1FFFF⟩, ⟨0x40, 1, 4, .rw, 0, .device, 0xFFF⟩,
          ⟨0x50, 3, 4, .kept, 0, .device, m32⟩, ⟨0x100, 1024, 4, .rw, 0, .device, 0x80000FFF⟩]
  | 10 => [⟨0x28, 3, 4, .kept, 0, .device, m32⟩, ⟨0x34, 4, 4, .rws, 0, .device, m32⟩,
           ⟨0x44, 1, 4, .rws, 0xD7AA50, .device, 0xFFFFFC⟩, ⟨0x48, 1, 4, .kept, 0, .device, m32⟩,
           ⟨0x4C, 1, 4, .rw, 0, .device, 3⟩, ⟨0x50, 1, 4, .rw, 0, .device, 0xFFFFFFC0⟩,
           ⟨0x54, 1, 4, .rw, 0, .device, 0xFFFF⟩, ⟨0x58, 1, 4, .rw, 0, .device, 0xFF7FFF7F⟩]
  | 14 => [⟨0x20, 1, 4, .rws, 0x64, .device, 0x3FFF⟩, ⟨0x24, 1, 4, .rws, 0x1FFFF, .device, 0x1FFFF⟩,
           ⟨0x100, 16, 4, .kept, 0, .hearth, m32⟩]
  | 16 => hobRows ++
          [⟨0x100, 4, 4, .rws, 0x64, .device, 0x1FF⟩, ⟨0x128, 1, 4, .rws, 3, .device, 0xF⟩,
           ⟨0x300, 1, 4, .rws, 0x3E, .device, 0x3F⟩, ⟨0x304, 1, 4, .rws, 0xFEFD, .device, 0xFFFF⟩,
           ⟨0x308, 1, 4, .rws, 0xC8, .device, 0xFFF⟩, ⟨0x30C, 3, 4, .rws, 0, .device, 0xFFFF⟩,
           ⟨0x324, 3, 4, .kept, 0, .hearth, m32⟩, ⟨0x330, 1, 4, .kept, 0xFFFF, .hearth, m32⟩,
           ⟨0x334, 3, 4, .kept, 0, .hearth, m32⟩] ++
          [⟨0x400, 16, 16, .rws, 0, .device, m32⟩, ⟨0x404, 16, 16, .rws, 0, .device, 0xFFFF⟩,
           ⟨0x408, 16, 16, .rws, 0, .device, 0x1FFFFFF⟩, ⟨0x500, 64, 4, .rws, 0, .device, m32⟩,
           ⟨0x600, 1, 4, .rws, 0, .hearth, 1⟩, ⟨0x608, 1, 4, .kept, 0, .hearth, m32⟩,
           ⟨0x610, 2, 16, .rw, 0, .hearth, 0x1FF⟩, ⟨0x614, 2, 16, .rw, 0, .hearth, 0xFFFF⟩,
           ⟨0x618, 2, 16, .rw, 0, .hearth, 0x7FFFF⟩, ⟨0x800, 512, 4, .rw, 0, .hearth, 0x7FFFFFF⟩]
  | 17 => [⟨0x20, 1, 4, .rw, 0, .device, 0xFFFFFF0F⟩, ⟨0x24, 1, 4, .rw, 0, .device, m32⟩]
  | _ => []

/-- The blocks of R29: base, BLOCK_TYPE, INSTANCE, span. -/
def blockAt (a : Nat) : Option (Nat × Nat × Nat × Nat) :=
  if a < 0x20000000 ∨ a ≥ 0x20210000 then none
  else
    let i := (a - 0x20000000) / 0x10000
    if i < 9 then some (0x20000000 + i * 0x10000, i + 1, 0, 0x10000)
    else if i = 9 then let m := (a - 0x20090000) / 0x4000; some (0x20090000 + m * 0x4000, 10, m, 0x4000)
    else if i < 15 then some (0x20000000 + i * 0x10000, i + 1, 0, 0x10000)
    else if i = 15 then none
    else if i < 32 then some (0x20000000 + i * 0x10000, 16, i - 16, 0x10000)
    else some (0x20200000, 17, 0, 0x10000)

/-- The base of a block. -/
def blockBase (typ inst : Nat) : Nat :=
  if typ = 10 then 0x20090000 + inst * 0x4000
  else if typ = 16 then 0x20100000 + inst * 0x10000
  else if typ = 17 then 0x20200000
  else 0x20000000 + (typ - 1) * 0x10000

/-- The 35 block instances. -/
def allBlocks : List (Nat × Nat) :=
  (List.range 17).flatMap (fun t =>
    if t + 1 = 10 then (List.range 4).map (fun m => (10, m))
    else if t + 1 = 16 then (List.range 16).map (fun h => (16, h)) else [(t + 1, 0)])

/-- The last granule of a firewall unit (R177). -/
def fwLast : Nat → Nat
  | 0 => 0xBFFFF | 1 => 0xFFF | 2 => 0x3FFF | 3 => 0x3FF | 4 => 0xE20FF | 5 => 0xFF | 6 => 0xFF | 7 => 0xFF
  | 8 => 0x7FFFFFF | 9 => 0x4FF | 10 => 0x3FF | 11 => 0x4FF | 12 => 0x7FFFFFFF | 13 => 0x7FF | 14 => 0x7FF
  | _ => 0x3FF

/-- RANGE_BASE of a firewall unit (R177). -/
def fwBase : Nat → Nat
  | 0 => 0x04000000 | 1 => 0x10000000 | 2 => 0x11000000 | 3 => 0x11800000 | 4 => 0x12000000 | 5 => 0x20010000
  | 6 => 0x20050000 | 7 => 0x20080000 | 8 => 0x100000000 | 9 => 0x20000000 | 10 => 0x20060000 | 11 => 0x200A0000
  | 12 => 0x10000000000 | 13 => 0x20100000 | 14 => 0x20180000 | _ => 0

/-- Units 4, 7 and 15 have fixed rules. -/
def fwFixed (u : Nat) : Bool := u == 4 || u == 7 || u == 15

/-- Units 4 to 7 are privileged. -/
def fwPriv (u : Nat) : Bool := 4 ≤ u && u ≤ 7

/-- RULE_ID that compares all 16 bits of the Stoker at position `pos`. -/
def fwStoker (pos : Nat) : Nat := 0xFFFF1100 + 0x2000 * pos

/-- The fixed rules of units 4, 7 and 15: BASE, LIMIT, ID, PERM (R177). -/
def fwFixedRules (u pos : Nat) : List (Nat × Nat × Nat × Nat) :=
  if u = 4 then
    [(0, 0x3FF, 0x0C000000, 3), (0, 0x3FF, 0x0E000400, 3), (0, 0x3FF, 0x0F000600, 3), (0, 0x3FF, 0x0C000800, 3),
     (0xE2000, 0xE20FF, fwStoker pos, 7)]
  else if u = 7 then [(0, 0xFF, fwStoker pos, 7)]
  else if u = 15 then [(0, 0xFF, 0, 7), (0x100, 0x3FF, fwStoker pos, 3)]
  else []

/-- The reset value of word `k` (BASE, LIMIT, ID, PERM) of rule `i` of unit `u` (R177, R186). -/
def fwReset (u i k pos : Nat) : Nat :=
  if fwFixed u then
    match (fwFixedRules u pos)[i]? with
    | some r => if k = 0 then r.1 else if k = 1 then r.2.1 else if k = 2 then r.2.2.1 else r.2.2.2
    | none => 0
  else
    let guard1 := (u == 5 || u == 6) && i == 1
    if k = 1 then (if i = 0 ∨ guard1 then fwLast u else 0)
    else if k = 2 then (if guard1 then fwStoker pos else 0)
    else if k = 3 then (if i = 0 then (if u = 5 ∨ u = 6 then 3 else 7) else if guard1 then 7 else 0)
    else 0

/-- Unit, rule and word of a FW block offset that holds a rule register (R186). -/
def fwRuleAt (off : Nat) : Option (Nat × Nat × Nat) :=
  let u := (off - 0x1000) / 0x400
  let o := (off - 0x1000) % 0x400
  if 0x1000 ≤ off ∧ off < 0x5000 ∧ 0x100 ≤ o ∧ o < 0x300 then some (u, (o - 0x100) / 16, (o - 0x100) % 16 / 4) else none

/-- What the reset value and the mask of a register can depend on. -/
def W.srcView (w : W) : SrcView :=
  { isM := w.fuse.variantM, isBase := w.dev.chim.pos == 0, members := w.dev.chim.members.toNat }

/-- The source of a number on this device. -/
def W.source (w : W) (s : Nat) : Option SrcRow := sourceRow w.srcView s

/-- The row of a plain register of a block, with its reset value in place. The configuration word of a number that is no
source reads 0 and ignores writes (R270): no bit of it is writable. (DEDUCED: assumption 100.) -/
def W.regRow (w : W) (typ off : Nat) : Option RegRow :=
  if typ = 2 ∧ 0x1000 ≤ off ∧ off < 0x2000 then
    let s := (off - 0x1000) / 4
    match w.source s with
    | some r => some ⟨off, 1, 4, .rws, r.cfg s, .device, if (r.hearth s).isSome then 0xFFFF007F else 0xFFFF0F7F⟩
    | none => some ⟨off, 1, 4, .rws, 0, .device, 0⟩
  else if typ = 11 then
    match fwRuleAt off with
    | some (u, i, k) => if fwFixed u then none
        else some ⟨off, 1, 4, .rws, fwReset u i k w.dev.chim.pos.toNat, .device, if k = 3 then 7 else m32⟩
    | none => none
  else (regRows typ).find? (fun r => r.off ≤ off ∧ (off - r.off) % r.stride = 0 ∧ (off - r.off) / r.stride < r.count)

/-- The reset value of a plain register. (DESIGN CHOICE: assumption 122.) -/
def W.regReset (w : W) (typ off : Nat) : Word32 := w32 (((w.regRow typ off).map RegRow.reset).getD 0)

/-- The value in force of a plain register: the active value of an RW-S register. -/
def W.reg (w : W) (typ inst off : Nat) : Word32 :=
  w.dev.regs.val.getD (blockBase typ inst + off) (w.regReset typ off)

/-- What a write stores in a register: reserved bits keep their reset value (R11). (DEDUCED: assumption 117.) -/
def RegRow.merge (r : RegRow) (v : Word32) : Word32 :=
  w32 (Nat.lor (Nat.land v.toNat r.mask) (Nat.land r.reset (2 ^ 32 - 1 - r.mask)))

/-- A written word holds a reserved bit that is not 0. -/
def RegRow.stray (r : RegRow) (v : Word32) : Bool := Nat.land (Nat.land v.toNat (2 ^ 32 - 1 - r.mask)) (2 ^ 32 - 1 - r.reset) != 0

/-- The register at a device address takes a staged word. -/
def W.cook (w : W) (a : Nat) (v : Word32) : Word32 :=
  match blockAt a with
  | some (b, t, _, _) => ((w.regRow t (a - b)).map (·.merge v)).getD v
  | none => v

/-- The bits of a register that are read-only without being reserved, which a write may hold (R31): FIXED, and HEARTH of a
hearth source, in SRC_CFG (R302). -/
def roBits (typ off : Nat) : Nat := if typ = 2 ∧ 0x1000 ≤ off ∧ off < 0x2000 then 0xF80 else 0

/-- The staged word of an address holds a reserved bit that is not 0. -/
def W.strayAt (w : W) (r : Nat × Word32) : Bool :=
  match blockAt r.1 with
  | some (b, t, _, _) => ((w.regRow t (r.1 - b)).map (·.stray (r.2 &&& ~~~(w32 (roBits t (r.1 - b)))))).getD false
  | none => false

/-- The staged value of an RW-S register (R36): reserved bits read 0. -/
def W.staged (w : W) (typ inst off : Nat) : Word32 :=
  let a := blockBase typ inst + off
  w.cook a (w.dev.regs.staged.getD a (w.reg typ inst off))

/-- Set a plain register. -/
def W.setReg (w : W) (typ inst off : Nat) (v : Word32) : W :=
  w.upd fun d => { d with regs := { d.regs with val := d.regs.val.set (blockBase typ inst + off) v } }

/-- Write the staged value of an RW-S register, and DIRTY of its block (R35, R38); a word without writable bits ignores it.
The staged set remembers reserved bits that are not 0 for the checks at COMMIT. (DEDUCED: assumption 117.) -/
def W.setStaged (w : W) (typ inst off : Nat) (v : Word32) : W :=
  if (w.regRow typ off).any (fun r => r.mask == 0) then w
  else w.upd fun d =>
    ({ d with regs := { d.regs with staged := d.regs.staged.set (blockBase typ inst + off) v } }).onCommit
      (blockBase typ inst) (fun c => { c with dirty := true, late := c.late || c.state == CommitState.busy })

/-- Count a register up by `k`, saturating. -/
def W.countReg (w : W) (typ inst off : Nat) (k : Nat := 1) : W :=
  w.setReg typ inst off (satAdd (w.reg typ inst off) k)

/-- A register of HEARTH_h. -/
def W.hreg (w : W) (h off : Nat) : Word32 := w.reg 16 h off

/-- A register of hob unit `u`: HEARTH_h, or DEV for the Stoker hob (R208). -/
def W.hobReg (w : W) (u off : Nat) : Word32 := if u < 16 then w.reg 16 u off else w.reg 1 0 off

/-- Set a register of hob unit `u`. -/
def W.setHobReg (w : W) (u off : Nat) (v : Word32) : W := if u < 16 then w.setReg 16 u off v else w.setReg 1 0 off v

/-- The interval between `lo` and `lo + n` holds no plain register any more: they read their reset values. -/
def Regs.drop (r : Regs) (p : Nat → Bool) : Regs :=
  { r with val := r.val.keep (fun a => !p a), staged := r.staged.keep (fun a => !p a) }

/-- The reset type of the plain register at a device address. -/
def W.scopeAt (w : W) (a : Nat) : Scope :=
  match blockAt a with
  | some (b, t, _, _) => ((w.regRow t (a - b)).map RegRow.scope).getD .device
  | none => .device

/-- A device reset: every plain register but the cold ones (R33). -/
def W.resetRegs (w : W) : W :=
  w.upd fun d => { d with regs := { (d.regs.drop (fun a => w.scopeAt a != Scope.cold)) with snaps := ⟨[]⟩ }, commits := ⟨[]⟩ }

/-- The device address lies in the block. -/
def inBlock (typ inst a : Nat) : Bool :=
  match blockAt a with
  | some (b, _, _, _) => b == blockBase typ inst
  | none => false

/-- A hearth, core or lane reset reaches a field of a block (R38): a pending commit is aborted, and DIRTY tells whether a
staged value that is not active is left. -/
def W.abortCommit (w : W) (typ inst : Nat) : W :=
  let base := blockBase typ inst
  let left := w.dev.regs.staged.rows.any fun r => inBlock typ inst r.1 && w.reg typ inst (r.1 - base) != w.cook r.1 r.2
  w.upd fun d => d.onCommit base fun c =>
    if c.state = .busy then { c with state := .aborted, dirty := left, snap := ⟨[]⟩, late := false } else c

/-- The fields of HEARTH_h of hearth and core reset type, and BOOT_RESULT_h of BASTE (R33). -/
def W.resetHearthRegs (w : W) (h : Nat) : W :=
  let inB := fun a => decide (blockBase 16 h ≤ a ∧ a < blockBase 16 h + 0x10000)
  ((w.upd fun d => { d with regs := d.regs.drop (fun a => (inB a && (w.scopeAt a == Scope.hearth || w.scopeAt a == Scope.core)) ||
      a == blockBase 14 0 + 0x100 + 4 * h) }).abortCommit 16 h).abortCommit 14 0

/-- The time-base compares of core `c`: the only plain registers of core reset type (R266). The reset reaches the blocks
TIME, WDOG and the core's HEARTH_h (R38); the Stoker's reaches WDOG alone, which holds its WSTAT, ROLL and CYCLE_POS. -/
def W.resetCompares (w : W) (c : Nat) : W :=
  let lo := blockBase 5 0 + 0x2000 + 128 * c
  if 64 ≤ c then w.abortCommit 3 0
  else (((w.upd fun d => { d with regs := d.regs.drop (fun a => decide (lo ≤ a ∧ a < lo + 128)) }).abortCommit 5 0).abortCommit 3 0).abortCommit
    16 (c / 4)

end Sys2Proof.Machine
end

