-- ==== Sys2Proof/Machine/Pool.lean ====
section
/-! DEFINITION. The Bobbin's pool: cells and their code, chains, open packets and levels (R368 to R384). Nothing here raises
an event: what an operation detects waits in `W.due`. -/

namespace Sys2Proof.Machine

/-- Raise interrupt source `src` in core `c`; a core held in core reset keeps its pending bits at 0 (R159), and the requests
of a HALTED one are discarded (R102). -/
def W.interrupt (w : W) (c src : Nat) : W :=
  if (w.dev.core c).run && (w.dev.seam c).mode != .halted then w.upd fun d => d.onCore c fun k => { k with ipend := setBit k.ipend src true } else w

/-- Raise a source in the four cores of a hearth. -/
def W.interruptHearth (w : W) (h src : Nat) : W := w.each (List.range 4) fun k w => w.interrupt (4 * h + k) src

/-- DETAIL0 of a queue event (R389): the queue and the page offset. -/
def queueDetail (q off : Nat) : Word32 := w32 (q + at_ off 12)

/-- DETAIL1 of a queue event (R389): the requester identity. -/
def ridDetail (m : Rid) : Word32 := w32 (at_ m.toNat 16)

/-- The Bobbin detects an event of source `s` in an operation of requester `m` at offset `off` of the page of queue `q`
(R389). -/
def W.queueNote (w : W) (s : Nat) (m : Rid) (q off : Nat) : W := { w with due := w.due ++ [(s, queueDetail q off, ridDetail m)] }

/-- Every configured queue, the event ring included. -/
def Bobbin.all (b : Bobbin) : List Queue :=
  b.queues.rows.map (·.2) ++ (if (b.queues.get? 0xFFF).isNone then [qReset 0xFFF] else [])

/-- RSV (R371). -/
def Bobbin.rsv (b : Bobbin) : Nat := (b.all.map (·.cfg.floor)).sum

/-- SHARED_FREE (R371). -/
def Bobbin.sharedFree (b : Bobbin) : Nat := 65536 - (b.all.map (fun q => max q.occ q.cfg.floor)).sum

/-- Cells held. -/
def Bobbin.heldCells (b : Bobbin) : Nat := (b.all.map (·.occ)).sum

/-- What a request for `n` more cells meets: none where they are granted (R372). -/
inductive QLimit where
  | cap | pool
  deriving DecidableEq, Repr

/-- Cells that the owner table gives to no queue and that are not kept out of use (R384). -/
def Bobbin.idleCells (b : Bobbin) : Nat :=
  65536 - b.owner.rows.length - (b.dead.filter fun c => (b.owner.get? c).isNone).length

/-- The limit that a request of queue `q` for `n` cells meets; a pool whose last cells are out of use grants none of them.
(DEDUCED: assumption 115.) -/
def W.limit (w : W) (q n : Nat) : Option QLimit :=
  let k := w.dev.queue q
  if w.dev.bobbin.idleCells < n then some .pool
  else if k.occ + n ≤ k.cfg.floor then none
  else if k.cfg.cap < k.occ + n then some .cap
  else if w.dev.bobbin.sharedFree < k.occ + n - max k.occ k.cfg.floor then some .pool
  else none

/-- The first number from `c` on that rising keys leave out. -/
def firstGap (c : Nat) : List Nat → Nat
  | [] => c
  | k :: r => if k = c then firstGap (c + 1) r else c

/-- The lowest free cell: which free cell is taken is the model's choice. (DEDUCED: assumption 115.) -/
def Bobbin.freeCell (b : Bobbin) : Nat :=
  firstGap 0 ((b.dead.foldl (fun l c => insertRow c ⟨0, false⟩ l) b.owner.rows).map (·.1))

/-- Where the owner entry of cell `c` stands among the code words of the pool. -/
def ownerByte (c : Nat) : Nat := 4194304 + c

/-- What decoding byte `a` of the pool finds (R384). -/
def Bobbin.codeAt (b : Bobbin) (a : Nat) : ByteCode :=
  let v := BitVec.ofNat 8 (fld (b.pool.getD (a / 4) 0) (8 * (a % 4)) 8)
  match b.flips.get? a with
  | none => .good v
  | some x => decode13 (encode13 v ^^^ x)

/-- Change the Bobbin. -/
def W.onBob (w : W) (f : Bobbin → Bobbin) : W := w.upd fun d => { d with bobbin := f d.bobbin }

/-- Bytes of the pool are written, each with a fresh code word. -/
def W.poolPut (w : W) (o : Nat) (bs : List Byte) : W :=
  w.onBob fun b => { b with
    pool := (List.range bs.length).foldl (fun t i =>
      let k := (o + i) / 4
      t.set k (setFld (t.getD k 0) (8 * ((o + i) % 4)) 8 (bs.getD i 0).toNat)) b.pool
    flips := b.flips.keep fun a => !(decide (o ≤ a) && decide (a < o + bs.length)) }

/-- A soft error turns stored bits of byte `a` of the pool. -/
def W.poolFlip (w : W) (a : Nat) (x : BitVec 13) : W := w.onBob fun b => { b with flips := b.flips.set a x }

/-- A decoded byte that was corrected is counted and written back (R384). -/
def W.mendByte (w : W) (m : Rid) (q off a : Nat) : W :=
  match w.dev.bobbin.codeAt a with
  | .fixed v _ =>
    (if a < ownerByte 0 then w.poolPut a [v] else w.onBob fun b => { b with flips := b.flips.erase a }).queueNote 0x2C4 m q off
  | _ => w

/-- A read of cell `c` decodes its bytes and its owner entry. -/
def W.mendCell (w : W) (m : Rid) (q off c : Nat) : W :=
  w.each ((w.dev.bobbin.flips.rows.map (·.1)).filter fun a => a / 64 == c || a == ownerByte c) fun a w => w.mendByte m q off a

/-- Word `i` of cell `c` holds an uncorrectable byte. -/
def Bobbin.badWord (b : Bobbin) (c i : Nat) : Bool := (List.range 4).any fun j => (b.codeAt (64 * c + 4 * i + j)).isBad

/-- The owner entry of cell `c` is uncorrectable. -/
def Bobbin.badOwner (b : Bobbin) (c : Nat) : Bool := (b.codeAt (ownerByte c)).isBad

/-- Queue `q` becomes BROKEN (R384). (DEDUCED: assumption 115.) -/
def W.breakQueue (w : W) (m : Rid) (q off : Nat) : W :=
  (w.upd fun d => d.onQueue q fun k => { k with broken := true }).queueNote 0x2C6 m q off

/-- The code of cell `c` of queue `q` as a read finds it (R384): an uncorrectable byte in LINK, in HEADER or in the owner entry
makes the queue BROKEN, and the last keeps the cell out of use. -/
def W.readCell (w : W) (m : Rid) (q off c : Nat) : W :=
  let w := w.mendCell m q off c
  let b := w.dev.bobbin
  if b.badOwner c then (w.onBob fun b => { b with dead := c :: b.dead.filter (· != c) }).breakQueue m q off
  else if b.badWord c 0 || b.badWord c 1 then w.breakQueue m q off
  else w

/-- A level crossing of queue `q` (R383). -/
def W.crossing (w : W) (q : Nat) : W :=
  let w := w.upd fun d => { d with stoker := { d.stoker with crossed := q :: d.stoker.crossed.filter (· != q) } }
  w.each (List.range 64) fun c w =>
    w.each (List.range 16) fun j w =>
      let b := w.reg 8 0 (0x100 + 4 * (16 * c + j))
      if bitAt b 31 ∧ fld b 0 12 = q then w.interrupt c (16 + j) else w

/-- Write the owner entry of a cell, with a fresh code word; none frees it. -/
def Bobbin.setOwner (b : Bobbin) (c : Nat) (o : Option Owner) : Bobbin :=
  { b with owner := (match o with | some x => b.owner.set c x | none => b.owner.erase c), flips := b.flips.erase (ownerByte c) }

/-- Grant a cell to queue `q`: the cell, and whether OCC crosses LEVEL. -/
def W.takeCell (w : W) (q : Nat) : Nat × W :=
  let c := w.dev.bobbin.freeCell
  let k := w.dev.queue q
  let w := (w.onBob fun b => b.setOwner c (some ⟨q, false⟩)).upd fun d => d.onQueue q fun k => { k with occ := k.occ + 1 }
  (c, if k.cfg.level > 0 ∧ k.occ + 1 = k.cfg.level then w.crossing q else w)

/-- Grant `n` cells. -/
def W.takeCells (w : W) (q : Nat) : Nat → List Nat × W
  | 0 => ([], w)
  | n + 1 =>
    let (c, w1) := w.takeCell q
    let (cs, w2) := W.takeCells w1 q n
    (c :: cs, w2)

/-- Free a cell of queue `q`. -/
def W.freeCell (w : W) (q c : Nat) : W :=
  (w.onBob fun b => b.setOwner c none).upd fun d => d.onQueue q fun k => { k with occ := k.occ - 1 }

/-- Word `i` of cell `c`. -/
def Bobbin.word (b : Bobbin) (c i : Nat) : Word32 := b.pool.getD (16 * c + i) 0

/-- Write word `i` of cell `c`, with fresh code words. -/
def W.setCell (w : W) (c i : Nat) (v : Word32) : W :=
  w.onBob fun b => { b with pool := b.pool.set (16 * c + i) v,
                            flips := b.flips.keep fun a => a / 4 != 16 * c + i || ownerByte 0 ≤ a }

/-- HEADER of a cell (R368). -/
def cellHeader (count : Nat) (first last : Bool) (seq : Word32) : Word32 :=
  w32 (count + 16 * first.toNat + 32 * last.toNat + 256 * (seq.toNat % 2 ^ 24))

/-- Chain cell `c`, already written, to the tail of queue `q` with `n` words. -/
def W.link (w : W) (q c n : Nat) (first last : Bool) : W :=
  let k := w.dev.queue q
  let w := (w.setCell c 0 0).setCell c 1 (cellHeader n first last k.seq)
  let w := match k.ends with
    | some (_, t) => w.setCell t 0 (w32 (c + 65536))
    | none => w
  (w.onBob fun b => b.setOwner c (some ⟨q, true⟩)).upd fun d => d.onQueue q fun k =>
    { k with ends := some ((match k.ends with | some e => e.1 | none => c), c), words := k.words + n, seq := k.seq + w32 n }

/-- The open packet of a requester on a queue. -/
def Bobbin.openOf (b : Bobbin) (m : Rid) (q : Nat) : Option OpenPkt := b.opens.find? (fun p => p.rid == m && p.q == q)

/-- Replace the open packet of a requester on a queue. -/
def W.setOpen (w : W) (p : OpenPkt) : W :=
  w.upd fun d => { d with bobbin := { d.bobbin with
    opens := d.bobbin.opens.map (fun x => if x.rid = p.rid ∧ x.q = p.q then p else x) } }

/-- Take an open packet off the table. -/
def W.dropOpen (w : W) (m : Rid) (q : Nat) : W :=
  w.upd fun d => { d with bobbin := { d.bobbin with opens := d.bobbin.opens.filter (fun x => !(x.rid == m && x.q == q)) } }

/-- Open a packet with `n` cells granted. -/
def W.openPkt (w : W) (m : Rid) (q n : Nat) (tried : Bool) : W :=
  let (cs, w) := w.takeCells q n
  w.upd fun d => { d with bobbin := { d.bobbin with
    opens := d.bobbin.opens ++ [{ rid := m, q := q, cells := cs, tried := tried }] } }

/-- Store payload word number `p.len` of an open packet, whose cell is there. -/
def W.storeWord (w : W) (p : OpenPkt) (v : Word32) : W :=
  let i := p.len + 1
  (w.setCell (p.cells.getD (i / 14) 0) (2 + i % 14) v).setOpen { p with len := p.len + 1 }

/-- Link the cells of a closed packet, `left` words still to link. -/
def W.linkAll (w : W) (q left : Nat) (first : Bool) : List Nat → W
  | [] => w
  | c :: cs =>
    if left = 0 then W.linkAll (w.freeCell q c) q 0 false cs
    else W.linkAll (w.link q c (min left 14) first (decide (left ≤ 14))) q (left - 14) false cs

/-- Close an open packet: the length word is written, the packet becomes visible, cells left unwritten are freed
(R378, R380). -/
def W.closePkt (w : W) (p : OpenPkt) : W :=
  let w := w.setCell (p.cells.getD 0 0) 2 (w32 (p.len + 2 ^ 31 * p.trunc.toNat))
  (w.linkAll p.q (p.len + 1) true p.cells).dropOpen p.rid p.q

/-- Discard an open packet. -/
def W.abortPkt (w : W) (p : OpenPkt) : W := (w.each p.cells fun c w => w.freeCell p.q c).dropOpen p.rid p.q

/-- One word into a WORD queue, for which a cell is there or granted (R377). -/
def W.enqWord (w : W) (q : Nat) (v : Word32) : W :=
  let k := w.dev.queue q
  match k.ends with
  | some (_, t) =>
    let n := fld (w.dev.bobbin.word t 1) 0 4
    if n < 14 then
      ((w.setCell t (2 + n) v).setCell t 1 (setFld (w.dev.bobbin.word t 1) 0 4 (n + 1))).upd fun d =>
        d.onQueue q fun k => { k with words := k.words + 1, seq := k.seq + 1 }
    else let (c, w) := w.takeCell q; (w.setCell c 2 v).link q c 1 false false
  | none => let (c, w) := w.takeCell q; (w.setCell c 2 v).link q c 1 false false

/-- A WORD queue needs no new cell for the next word. -/
def W.roomInTail (w : W) (q : Nat) : Bool :=
  match (w.dev.queue q).ends with
  | some (_, t) => decide (fld (w.dev.bobbin.word t 1) 0 4 < 14)
  | none => false

/-- Words into an open packet, as many as fit in its cells. -/
def W.storeWords (w : W) (m : Rid) (q : Nat) : List Word32 → W
  | [] => w
  | v :: vs =>
    match w.dev.bobbin.openOf m q with
    | some p => if p.len < 1023 ∧ p.len + 1 < 14 * p.cells.length then W.storeWords (w.storeWord p v) m q vs else w
    | none => w

/-- REASON of a refused TRY_OPEN, in the order MODE, OPEN, TABLE, then the limit (R379): the spec states no order. -/
def W.tryReason (w : W) (m : Rid) (q : Nat) : Option Nat :=
  let k := w.dev.queue q
  if k.cfg.mode ≠ .packet ∨ k.cfg.tryCells = 0 then some 5
  else if (w.dev.bobbin.openOf m q).isSome then some 4
  else if w.dev.bobbin.opens.length ≥ 512 then some 3
  else match w.limit q k.cfg.tryCells with
    | some .cap => some 1
    | some .pool => some 2
    | none => none

/-- The word that DEQ would hand out: payload, FIRST, LAST and SEQ (R376). -/
def W.head (w : W) (q : Nat) : Option (Word32 × Bool × Bool × Nat) :=
  let k := w.dev.queue q
  if k.cfg.mode = .disabled ∨ k.broken ∨ k.words = 0 then none
  else match k.ends with
    | none => none
    | some (c, _) =>
      let h := w.dev.bobbin.word c 1
      let wordQ := decide (k.cfg.mode = .word)
      some (w.dev.bobbin.word c (2 + k.rd % 14), wordQ || (bitAt h 4 && k.rd == 0),
        wordQ || (bitAt h 5 && k.rd + 1 == fld h 0 4), (fld h 8 24 + k.rd) % 2 ^ 24)

/-- The double word that DEQ and PEEK return (R376). -/
def W.deqValue (w : W) (q : Nat) (poison : Bool) : Word64 :=
  match w.head q with
  | none => w64 (at_ ((w.dev.queue q).rdSeq.toNat % 2 ^ 24) 32)
  | some (v, f, l, seq) =>
    w64 (2 ^ 63 + at_ f.toNat 62 + at_ l.toNat 61 + at_ poison.toNat 60 + at_ seq 32 + v.toNat)

/-- Remove the word that `head` shows; a cell whose last word goes is freed (R371). -/
def W.deqWord (w : W) (q : Nat) : W :=
  match (w.dev.queue q).ends with
  | none => w
  | some (c, t) =>
    let k := w.dev.queue q
    let h := w.dev.bobbin.word c 1
    let link := w.dev.bobbin.word c 0
    let left := if k.cfg.mode = .word then 0 else if k.left = 0 then fld (w.dev.bobbin.word c 2) 0 16 else k.left - 1
    if k.rd + 1 < fld h 0 4 then
      w.upd fun d => d.onQueue q fun k => { k with rd := k.rd + 1, words := k.words - 1, rdSeq := k.rdSeq + 1, left := left }
    else
      (w.freeCell q c).upd fun d => d.onQueue q fun k =>
        { k with rd := 0, words := k.words - 1, rdSeq := k.rdSeq + 1, left := left,
                 ends := if bitAt link 16 ∧ c ≠ t then some (fld link 0 16, t) else none }

/-- FIRST, LAST and COUNT of the first cell of a queue agree with the packet at its head (R368, R396). -/
def W.packetOk (w : W) (q : Nat) : Bool :=
  let k := w.dev.queue q
  match k.ends with
  | none => true
  | some (c, _) =>
    let h := w.dev.bobbin.word c 1
    let n := fld h 0 4 - k.rd
    if k.cfg.mode = .word then !bitAt h 4 && !bitAt h 5
    else
      let left := if k.left = 0 then fld (w.dev.bobbin.word c 2) 0 16 + 1 else k.left
      (k.rd != 0 || bitAt h 4 == (k.left == 0)) && (k.left != 0 || bitAt h 4) && decide (n ≤ left) && bitAt h 5 == (n == left)

/-- The first cell of a queue is consistent with what the queue holds: a cell that the pool window changed may not be
(R384, R396). (DEDUCED: assumption 115.) -/
def W.chainOk (w : W) (q : Nat) : Bool :=
  let k := w.dev.queue q
  match k.ends with
  | none => true
  | some (c, t) =>
    let h := w.dev.bobbin.word c 1
    let l := w.dev.bobbin.word c 0
    let next := (w.dev.bobbin.owner.get? (fld l 0 16)).map (·.q)
    decide (fld h 0 4 ≤ 14) && decide (k.rd < fld h 0 4) &&
    decide ((fld h 8 24 + k.rd) % 2 ^ 24 = k.rdSeq.toNat % 2 ^ 24) && w.packetOk q &&
    (if c = t then !bitAt l 16 else bitAt l 16 && next == some q)

/-- A read of the next visible word decodes its cell and meets an inconsistent one (R384, R396): whether the payload is
poisoned. -/
def W.cellRead (w : W) (m : Rid) (q off : Nat) : Bool × W :=
  match (w.dev.queue q).ends, w.head q with
  | some (c, _), some _ =>
    let w := w.readCell m q off c
    let k := w.dev.queue q
    if k.broken then (false, w)
    else if !w.chainOk q then (false, w.breakQueue m q off)
    else if w.dev.bobbin.badWord c (2 + k.rd % 14) then (true, w.queueNote 0x2C5 m q off)
    else (false, w)
  | _, _ => (false, w)

/-- Dequeue up to `n` words' payloads: whole records of a packet queue. -/
def W.deqMany (w : W) (m : Rid) (q : Nat) : Nat → List Word32 × W
  | 0 => ([], w)
  | n + 1 =>
    let (_, w) := w.cellRead m q 0
    match w.head q with
    | none => ([], w)
    | some (v, _, _, _) =>
      let (vs, w2) := W.deqMany (w.deqWord q) m q n
      (v :: vs, w2)

/-- Dequeue one packet: its payload words; none where no packet waits, or where the queue breaks within it. -/
def W.deqPacket (w : W) (m : Rid) (q : Nat) : Option (List Word32) × W :=
  let (_, w) := w.cellRead m q 0
  match w.head q with
  | none => (none, w)
  | some (v, _, _, _) =>
    let n := fld v 0 16
    let (vs, w) := (w.deqWord q).deqMany m q n
    (if vs.length = n then some vs else none, w)

/-- Free every visible cell of a queue that the owner table gives to it, and clear its chain (R382, R384): how many cells were
freed. An entry that cannot be read gives its cell to no queue. -/
def W.flushQueue (w : W) (q : Nat) : Nat × W :=
  let k := w.dev.queue q
  let b := w.dev.bobbin
  let openCells := (b.opens.filter (fun p => p.q == q)).flatMap (·.cells)
  let cs := (b.owner.rows.filter (fun r => r.2.q == q && !openCells.contains r.1)).map (·.1)
  let bad := cs.filter b.badOwner
  let w := (w.onBob fun b => { b with dead := bad ++ b.dead.filter fun c => !bad.contains c }).each cs fun c w => w.freeCell q c
  (cs.length, w.upd fun d => d.onQueue q fun _ =>
    { k with ends := none, rd := 0, words := 0, rdSeq := k.seq, left := 0, broken := false, occ := k.occ - cs.length })

end Sys2Proof.Machine
end

