-- ==== Sys2Proof/Machine/Image.lean ====
section
/-! DEFINITION. The Acaeder image as the Stoker reads it: header and section table (R438, R439), and the code that a
hearth runs. -/

namespace Sys2Proof.Machine

/-- A section table entry (R439). -/
structure Section where
  /-- TYPE. -/
  typ : Nat
  /-- HEARTHS. -/
  hearths : Nat
  /-- OFFSET. -/
  off : Nat
  /-- SIZE. -/
  size : Nat
  /-- LOAD. -/
  load : Nat
  /-- RESET_ENTRY. -/
  reset : Nat
  /-- CUT_ENTRY. -/
  cut : Nat
  /-- CHECK_FRAMES. -/
  check : Nat
  /-- SNAP. -/
  snap : Nat
  /-- CARRY_0 to CARRY_3: offset and length. -/
  carry : List (Nat × Nat)
  /-- DIGEST. -/
  digest : List Byte
  deriving DecidableEq, Repr

/-- The entry that 128 bytes spell. -/
def parseSection (b : List Byte) : Section :=
  let w := fun o => (wordAt b o).toNat
  { typ := w 0 % 256, hearths := w 0 / 65536, off := w 4, size := w 8, load := w 12, reset := w 16, cut := w 20,
    check := w 24 % 16, snap := w 28, carry := (List.range 4).map (fun i => (w (32 + 8 * i), w (36 + 8 * i))),
    digest := slice b 0x40 32 }

/-- The sections of an image, from its first 0x1040 bytes; none where no image is held. -/
def sections (head : List Byte) : List Section :=
  if head.isEmpty then []
  else (List.range (fld (wordAt head 0x18) 0 6)).map (fun i => parseSection (slice head (0x40 + 128 * i) 128))

/-- The HEARTH_CODE of hearth `h`. -/
def codeOf (head : List Byte) (h : Nat) : Option Section :=
  (sections head).find? (fun s => s.typ == 2 && s.hearths.testBit h)

/-- The sections that hearth `h` holds. -/
def hearthSections (head : List Byte) (h : Nat) : List Section :=
  (sections head).filter (fun s => (s.typ == 2 || s.typ == 3) && s.hearths.testBit h)

/-- Hearth `h` runs the new image of a cutover that has switched (R446). -/
def Images.onNew (i : Images) (h : Nat) : Bool :=
  match i.cut with
  | some c => c.switched.isSome && bitAt c.hearths h
  | none => false

/-- The HEARTH_CODE that hearth `h` runs. -/
def Images.codeNow (i : Images) (h : Nat) : Option Section :=
  codeOf (if i.onNew h then i.stage.head else i.running.head) h

/-- Write bytes into a hob, each with the check bits of its value (R195): errors held in those bytes are gone. -/
def W.put (w : W) (a : Nat) (bs : List Byte) : W :=
  (w.poke a bs).upd fun d =>
    if d.flips.rows.isEmpty then d else { d with flips := d.flips.keep (fun k => k < a || a + bs.length ≤ k) }

/-- Overwrite a range of a hob with 0. -/
def W.clearHob (w : W) (lo n : Nat) : W :=
  (w.wipe lo n).upd fun d => { d with flips := d.flips.keep (fun k => k < lo || lo + n ≤ k) }

end Sys2Proof.Machine
end

