-- ==== Sys2Proof/Machine/HobCells.lean ====
section
/-! DEFINITION. The cells of the hobs: the code word of a byte and what its decoding finds (R195, R196), the counters and
the write-back queue (R196, R209), the arbiter's pointer (R190), the wake (R202), and writes with the injections of R210.
Nothing here raises an event: what a read detects is handed back, or waits in `W.due`. -/

namespace Sys2Proof.Machine

/-- The 13 stored bits of a hob byte (R195). -/
def W.cell13 (w : W) (a : Nat) : BitVec 13 := encode13 (w.byte a) ^^^ w.dev.flips.getD a 0

/-- Rows of the hob of unit `u` (R188, R204). -/
def hobRowsOf (u : Nat) : Nat := if u < 16 then 16384 else 4096

/-- The masters of the hob of unit `u` (R189, R204). -/
def hobMasters (u : Nat) : Nat := if u < 16 then 8 else 3

/-- The background tester's master index. (DESIGN CHOICE: assumption 154.) -/
def hobTester (u : Nat) : Nat := hobMasters u - 1

/-- The rotation pointer after a grant to master `k` (R190). -/
def W.granted (w : W) (u k : Nat) : W := w.upd fun d => d.onHob u fun h => { h with ptr := (k + 1) % hobMasters u }

/-- The source of unit `u` among HOB_CORR, HOB_UNCORR and MARCH_FAIL (R205): 0, 1 or 2. -/
def hobSource (k u : Nat) : Nat := if u < 16 then 0x1C0 + 16 * k + u else 0x1F0 + k

/-- LAST_ERR of a byte (R209). -/
def hobLastErr (off : Nat) (bad march : Bool) (syn : BitVec 5) : Word32 :=
  w32 (off + at_ bad.toNat 22 + at_ march.toNat 23 + at_ syn.toNat 24)

/-- Count an error and record it as the latest one (R196, R209). -/
def W.hobCount (w : W) (u : Nat) (bad : Bool) (e : Word32) : W :=
  let cnt := if bad then 0x210 else 0x20C
  let w := w.setHobReg u cnt (satInc (w.hobReg u cnt))
  ((w.setHobReg u 0x214 e).setHobReg u 0x218 (w32 (w.dev.clock.tb.toNat % 2 ^ 32))).setHobReg u 0x21C
    (w32 (w.dev.clock.tb.toNat / 2 ^ 32))

/-- What a decoded byte leaves: counters, LAST_ERR and the write-back queue (R196, R197, R209); with it the source and the
detail of the event, if there is one. (DESIGN CHOICE: assumption 160.) -/
def W.hobLog (w : W) (u a : Nat) (march : Bool) (c : ByteCode) : Option (Nat × Word32) × W :=
  let off := a - hobBase u
  match c with
  | .good _ => (none, w)
  | .fixed _ s =>
    let e := hobLastErr off false march s
    (some (hobSource 0 u, e), (w.hobCount u false e).upd fun d => d.onHob u fun h =>
      if march ∨ h.wbq.length ≥ 4 ∨ h.wbq.contains off then h else { h with wbq := h.wbq ++ [off] })
  | .bad _ s =>
    let e := hobLastErr off true march s
    (some (hobSource 1 u, e), w.hobCount u true e)

/-- The decoded bytes of an access. -/
def W.codes (w : W) (a n : Nat) : List ByteCode :=
  (List.range n).map (fun i => if (w.dev.flips.get? (a + i)).isSome then decode13 (w.cell13 (a + i)) else .good (w.byte (a + i)))

/-- Store a corrected byte with a fresh code word. -/
def W.freshCode (w : W) (a : Nat) : W :=
  match decode13 (w.cell13 a) with
  | .fixed b _ => w.put a [b]
  | _ => w

/-- The domain that serves the hob of unit `u` (R458): its hearth's common domain, or the Stoker's. -/
def hobDom (u : Nat) : Nat := if u < 16 then 208 + u else 228

/-- The hob wakes for an access (R202); its common domain is on again. -/
def W.wakeHob (w : W) (u : Nat) : W :=
  if (w.dev.hob u).power = .awake then w
  else w.upd fun d => (d.onHob u fun h => { h with power := .awake }).onDom (hobDom u) fun x =>
    { x with st := .on }

/-- An armed injection meets a write by master `k` of the bytes `as` (R210). -/
def W.hobInjected (w : W) (u k : Nat) (as : List Nat) : W :=
  match (w.dev.hob u).inject with
  | some (mode, m) =>
    if m = k ∧ as ≠ [] then
      let x : BitVec 13 := if mode = 1 then 0x100 else 0x300
      w.upd fun d => ({ d with flips := as.foldl (fun t a => t.set a (t.getD a 0 ^^^ x)) d.flips }).onHob u fun h =>
        { h with inject := none }
    else w
  | none => w

/-- One write access of master `k` under byte enables (R188, R195): each byte gets a fresh code word. -/
def W.hobWriteParts (w : W) (u k : Nat) (ps : List (Nat × List Byte)) : W :=
  let w := (w.wakeHob u).granted u k
  (w.each ps fun p w => w.put p.1 p.2).hobInjected u k (ps.flatMap fun p => (List.range p.2.length).map (p.1 + ·))

/-- One write access of bytes that stand together. -/
def W.hobWrite (w : W) (u k a : Nat) (bs : List Byte) : W := w.hobWriteParts u k [(a, bs)]

/-- A write of many port words, one access for each (R188): an armed injection meets the first (R210). -/
def W.hobWrites (w : W) (u k a : Nat) (bs : List Byte) : W :=
  let n := min bs.length (32 - a % 32)
  (w.hobWrite u k a (bs.take n)).put (a + n) (bs.drop n)

/-- Bytes by hob offset, gathered into the port words that they lie in, in their order. -/
def portWords (cs : List (Nat × List Byte)) : List (List (Nat × List Byte)) :=
  let ks := cs.foldl (fun l c => if l.contains (c.1 / 32) then l else l ++ [c.1 / 32]) []
  ks.map fun k => cs.filter fun c => c.1 / 32 == k

/-- A copy inside hob `u` by its cutover engine (R446): every byte is decoded; a corrected byte is copied with a fresh code
word, an uncorrectable one as its raw bits, so that it stays uncorrectable; the events wait in `W.due`. Its first port-word
write meets an injection armed for the master it counts as (R210). (DESIGN CHOICE: assumptions 148, 159.) -/
def W.copyHob (w : W) (u src dst n : Nat) : W :=
  let cs := w.codes src n
  let w := w.wakeHob u
  let w := if cs.any fun c => c.isBad || c.isFixed then
      w.each (List.range n) fun i w =>
        let (e, w) := w.hobLog u (src + i) false (cs.getD i (.good 0))
        { w with due := w.due ++ e.toList.map fun x => (x.1, x.2, 0) }
    else w
  let raw := fun (i : Nat) => w.dev.flips.getD (src + i) 0
  let w1 := (w.put dst (cs.zipIdx.map fun c => if c.1.isBad then w.byte (src + c.2) else c.1.val)).granted u 6
  let w2 := w1.upd fun d =>
    { d with flips := cs.zipIdx.foldl (fun t c => if c.1.isBad then t.set (dst + c.2) (raw c.2) else t) d.flips }
  w2.hobInjected u 6 ((List.range (min n (32 - dst % 32))).map (dst + ·))

end Sys2Proof.Machine
end

