-- ==== Sys2Proof/Machine/Cores.lean ====
section
/-! DEFINITION. The cores as a whole: control registers and their reset values (R129, R152, R153, R161, R171), core
reset and core start, and what a cutover sets in a core (R446, R448). -/

namespace Sys2Proof.Machine

/-- The hearth of an application core. -/
def hearthOf (k : Nat) : Nat := k / 4

/-- The hob of core `k`: its hearth's, or the Stoker hob. -/
def unitOf (k : Nat) : Nat := if k < 64 then k / 4 else 16

/-- The patch lane of a unit (R87, R124). -/
def patchOf (u : Nat) : Nat := if u < 16 then 12 else 3

/-- The key of lane `l` of unit `u`. -/
def laneKey (u l : Nat) : Nat := if u < 16 then 13 * u + l else 208 + l

/-- Nanoseconds since the start of the cycle, at the position where it stands (R308, R317). -/
def Wdt.elapsed (t : Wdt) (now : Nat) : Nat := (match t.paused with | some p => p.toNat | none => now) - t.start.toNat

/-- A cycle of the watchdog has begun: it is not OFF, and was not expired for never having been started (R318). -/
def Wdt.begun (t : Wdt) : Bool := !(t.st == .off || (t.st == .expired && t.cause == 5))

/-- The reset value of control register `n` of core `k`. -/
def crReset (k n : Nat) : Word64 :=
  if n = 1 then 1 else if n = 8 then w64 (hobBase (unitOf k)) else 0

/-- The control register in force. -/
def Arch.ctl (a : Arch) (k n : Nat) : Word64 := a.cr.getD n (crReset k n)

/-- The value that CTLRD returns of a register: the written one where it does not yet apply (R154). -/
def Arch.ctlRead (a : Arch) (k n : Nat) : Word64 := a.crw.getD n (a.ctl k n)

/-- Set a control register in force. -/
def Arch.setCtl (a : Arch) (n : Nat) (v : Word64) : Arch := { a with cr := a.cr.set n v }

/-- Every copy of the registers that a store notice writes. -/
def Core.onArch (c : Core) (f : Arch → Arch) : Core :=
  { c with arch := f c.arch, pend := c.pend.map fun p => { p with ck := f p.ck } }

/-- A g register; g0 reads 0 (R126). -/
def Arch.rdG (a : Arch) (r : Reg) : Word64 := if r = 0 then 0 else a.g.getD r.toNat 0

/-- Write a g register; a write to g0 is discarded (R126). -/
def Arch.wrG (a : Arch) (r : Reg) (v : Word64) : Arch := if r = 0 then a else { a with g := a.g.set r.toNat v }

/-- An f register. -/
def Arch.rdF (a : Arch) (r : Reg) : Word64 := a.f.getD r.toNat 0

/-- Write an f register. -/
def Arch.wrF (a : Arch) (r : Reg) (v : Word64) : Arch := { a with f := a.f.set r.toNat v }

/-- STATUS.PRIV. -/
def Arch.priv (a : Arch) (k : Nat) : Bool := bitAt (a.ctl k 1) 0

/-- The requester identity of core `k` (R176). -/
def coreRid (pos : BitVec 3) (k : Nat) (priv : Bool) : Rid :=
  if k < 64 then BitVec.ofNat 16 (k + 0x1000 * priv.toNat + 0x2000 * pos.toNat)
  else BitVec.ofNat 16 (0x1100 + 0x2000 * pos.toNat)

/-- Core `k` changes by `f`; the beats that `f` counts step the beat counter of its hearth (R134). -/
def Dev.beatCore (d : Dev) (k : Nat) (f : Core → Core) : Dev :=
  (d.onCore k f).beat (unitOf k) ((f (d.core k)).beats - (d.core k).beats)

/-- The core waits so many beats more (R145 to R149, R158). -/
def Core.waits (c : Core) (n : Nat) : Core := { c with beats := c.beats + w64 n, stalls := c.stalls + w64 n }

/-- The identity of a master of this device: CLASS, INDEX, PRIV (R176). -/
def W.rid (w : W) (cls idx : Nat) (priv : Bool) : Rid :=
  BitVec.ofNat 16 (idx + 256 * cls + 0x1000 * priv.toNat + 0x2000 * w.dev.chim.pos.toNat)

/-- This Stoker's identity. -/
def W.stokerRid (w : W) : Rid := w.rid 1 0 true

/-- The Flue's identity (R292). -/
def W.flueRid (w : W) : Rid := w.rid 9 0 true

/-- CLASS of an identity. -/
def ridClass (m : Rid) : Nat := fld m 8 4

/-- INDEX of an identity. -/
def ridIndex (m : Rid) : Nat := fld m 0 8

/-- POS of an identity. -/
def ridPos (m : Rid) : Nat := fld m 13 3

/-- MODE of a seam (R101): HALTED through a core reset, until the core is started.
(DEDUCED: assumptions 68, 169.) -/
def Seam.shown (s : Seam) : SeamMode := if s.reset then .halted else s.mode

/-- The address that core `k` starts from after a core reset (R129, R444): the reset entry of the code that its hearth
runs; the Stoker starts from the boot ROM. -/
def W.resetEntry (w : W) (k : Nat) : Option Nat :=
  if k = 64 then some 0x10000
  else (w.dev.images.codeNow (k / 4)).map fun s => hobBase (k / 4) + s.reset

/-- VBASE at the start: hob base + LOAD of the HEARTH_CODE (R444). -/
def W.startVbase (w : W) (k : Nat) : Word64 :=
  if k = 64 then crReset 64 8
  else w64 (hobBase (k / 4) + ((w.dev.images.codeNow (k / 4)).map Section.load).getD 0)

/-- Core `k` may start: its hearth is available and loaded, its seam is not HALTED, and no SCAN_OPEN holds it (R338). -/
def W.canStart (w : W) (k : Nat) : Bool :=
  k < 64 && bitAt w.dev.sys.avail (k / 4) && bitAt w.dev.images.loaded (k / 4) && (w.resetEntry k).isSome &&
  (w.dev.seam k).mode != SeamMode.halted && !w.dev.baste.scanHold

/-- The WDT_CTL word that the boot ROM starts the Stoker's watchdog with (R316): OPEN 100, CLOSE 20,000, HARD 100,
ROLL_N 4, DUP_SEV 0b10. -/
def stokerWdt : Word64 := w64 (20000 + 100 * 2 ^ 20 + 100 * 2 ^ 40 + 2 ^ 50 + 2 * 2 ^ 53 + 4 * 2 ^ 55)

/-- Release core `k` from core reset: it starts at the reset entry (R129); the boot ROM starts the Stoker's watchdog
(R316). -/
def W.startCore (w : W) (k : Nat) : W :=
  match w.resetEntry k with
  | none => w
  | some pc =>
    let vb := w.startVbase k
    let cr := (⟨[]⟩ : Tbl Word64).set 8 vb
    let w := w.upd fun d => (d.onCore k fun _ =>
      { run := true, since := d.clock.ivl, base := d.beatCtr (unitOf k), arch := { pc := w64 pc, cr := if k = 64 then cr.set 10 stokerWdt else cr } }).onSeam
        k fun s => { s with reset := false }
    if k = 64 then w.upd fun d => d.onWdt 64 fun t =>
      { ctl := stokerWdt, st := .running, start := d.clock.ivl, cause := t.cause, count := t.count }
    else w

/-- What a core reset leaves of the core itself, its watchdog, its compares and its seam, with the core held (R33, R121, R129,
R323): the lane controller keeps the slot map (R315), and a rethread of the core goes on, so that the slice that it belongs
to completes (R327). (DEDUCED: assumption 68.) -/
def W.clearCore (w : W) (k : Nat) : W :=
  let w := w.resetCompares k
  w.upd fun d =>
    ((d.onCore k fun _ => {}).onWdt k fun t => { cause := t.cause, count := t.count }).onSeam k fun s =>
      { s with commits := [], requests := [], cause := 0, reset := true }

/-- What a switch or a fallback of a cutover leaves in a core (R446, R448): g1 = `g1`, g2 = F_c, at the cutover entry
of section `s`. -/
def Core.cutIn (c : Core) (k : Nat) (s : Section) (g1 : Nat) (fc : Word64) : Core :=
  let g := ((⟨[]⟩ : Tbl Word64).set 1 (w64 g1)).set 2 (w64 (fc.toNat % 2 ^ 32))
  let cr := (((((c.arch.cr.erase 1).erase 0x10).set 8 (w64 (hobBase (k / 4) + s.load))).erase 0x120).erase 0x40)
  { c with arch := { g := g, f := ⟨[]⟩, pc := w64 (hobBase (k / 4) + s.cut), cr := cr, crw := ⟨[]⟩ },
           pend := [], nheld := 0, held := [], sb := [], fbuf := none, wait := .awake }

/-- Copy CARRY regions of a section between the hob of hearth `h` and its SNAP area: into SNAP, or back. -/
def W.carry (w : W) (h : Nat) (s : Section) (back : Bool) : W :=
  (s.carry.foldl (fun (p : Nat × W) r =>
    let a := hobBase h + r.1
    let b := hobBase h + s.snap + p.1
    (p.1 + r.2, if back then p.2.copyHob h b a r.2 else p.2.copyHob h a b r.2)) (0, w)).2

/-- The fallback of R448 for one hearth: SNAP back into the new CARRY regions, every switched core at the old
CUT_ENTRY; HALTED cores stay so, and a core that was core-reset starts from the old RESET_ENTRY. -/
def W.fallbackHearth (w : W) (c : Cutover) (h : Nat) : W :=
  let i := w.dev.images
  match codeOf i.stage.head h, codeOf i.running.head h with
  | some new, some old =>
    (w.carry h new true).each (List.range 4) fun j w =>
      let k := 4 * h + j
      if (c.switched.getD []).contains k && (w.dev.core k).run && (w.dev.seam k).mode != SeamMode.halted then
        w.upd fun d => d.onCore k fun q => q.cutIn k old 2 c.fc
      else w
  | _, _ => w

end Sys2Proof.Machine
end

