-- ==== Sys2Proof/Machine/Reply.lean ====
section
/-! DEFINITION. Replies (R67, R71): how a reply reaches its source, what the Stoker stores of it (R69), and the end of
a pending command (R73). -/

namespace Sys2Proof.Machine

/-- The status codes of R71. -/
def sDone : Nat := 0
/-- PENDING. -/
def sPending : Nat := 1
/-- DONE_EMPTY. -/
def sDoneEmpty : Nat := 2
/-- UNKNOWN_OPCODE. -/
def sUnknownOpcode : Nat := 0x100
/-- BAD_LENGTH. -/
def sBadLength : Nat := 0x101
/-- BAD_PARAM. -/
def sBadParam : Nat := 0x102
/-- BAD_CRC. -/
def sBadCrc : Nat := 0x103
/-- SEQUENCE_GAP. -/
def sSequenceGap : Nat := 0x104
/-- WRONG_MODE. -/
def sWrongMode : Nat := 0x200
/-- NOT_GRANTED. -/
def sNotGranted : Nat := 0x201
/-- LOCKED. -/
def sLocked : Nat := 0x202
/-- CONFLICT. -/
def sConflict : Nat := 0x203
/-- NO_RESOURCE. -/
def sNoResource : Nat := 0x204
/-- SCHEDULE_OVERRUN. -/
def sScheduleOverrun : Nat := 0x205
/-- AUTH_FAIL. -/
def sAuthFail : Nat := 0x300
/-- SIGNATURE_BAD. -/
def sSignatureBad : Nat := 0x301
/-- INTERNAL_FAULT. -/
def sInternalFault : Nat := 0x400

/-- The number of a command source: 0 PCIe, 1 maintenance SPI, 2 the base's stream, 3 Ethernet without a session,
16 + SESSION an Ethernet session. -/
def srcKey (p : Packet) : Nat :=
  match p.src with
  | .pcie => 0
  | .mspi => 1
  | .base => 2
  | .eth _ _ => if p.session = 0 then 3 else 16 + p.session.toNat

/-- The source address and port of the datagram that carried a packet. -/
def packetSender (p : Packet) : Option (BitVec 48) :=
  match p.src with
  | .eth _ a => some a
  | _ => none

/-- The header bytes 0 to 11 of a command packet (R66). -/
def pktHead (p : Packet) (opc : Half) : List Byte :=
  le 2 p.seq.toNat ++ le 2 opc.toNat ++ [p.flags, p.target] ++ le 2 p.plen.toNat ++ le 4 p.session.toNat

/-- The bytes of a command packet. -/
def pktBytes (p : Packet) (opc : Half) : List Byte := pktHead p opc ++ le 4 p.crc.toNat ++ p.params

/-- The parameters without the HMAC tag (R66). -/
def pktBody (p : Packet) : List Byte :=
  let ps := p.params.take p.plen.toNat
  if bitAt p.flags 1 then ps.take (p.plen.toNat - 32) else ps

/-- Header bytes 0 to 11 of a reply with a result of `len` bytes (R67). -/
def Reply.head (r : Reply) (len : Nat) : List Byte :=
  le 2 r.seq.toNat ++ le 2 r.opc.toNat ++ le 2 r.status.toNat ++ le 2 len ++
  le 4 (r.mode.toNat + at_ r.pos.toNat 4 + at_ r.final.toNat 7)

/-- The bytes of a reply packet with its CRC (R67). -/
def Reply.bytes (r : Reply) : List Byte :=
  r.head r.result.length ++ le 4 (crc32c (r.head r.result.length ++ r.result)).toNat ++ r.result

/-- The bytes of a label of R453. -/
def label (s : String) : List Byte := s.toList.map (fun c => BitVec.ofNat 8 c.toNat)

/-- The open session of an identifier. -/
def Images.session (i : Images) (id : Nat) : Option Session := i.sessions.find? (fun s => s.id.toNat == id)

/-- K_C of a session (R453). -/
def Session.cmdKey (s : Session) : List Byte := hmac s.key (label "KL6430 cmd" ++ le 4 s.id.toNat)

/-- K_R of a session (R453). -/
def Session.repKey (s : Session) : List Byte := hmac s.key (label "KL6430 rep" ++ le 4 s.id.toNat)

/-- A reply to packet `p` from the device at position `pos` in mode `mode`, with the tag of R453 where the source is a
session. -/
def W.replyFrom (w : W) (mode : BitVec 4) (pos : BitVec 3) (p : Packet) (opc : Half) (status : Nat) (final : Bool)
    (result : List Byte) (tag : Bool) : Reply :=
  let r : Reply := { opc := opc, seq := p.seq, status := BitVec.ofNat 16 status, mode := mode, pos := pos, final := final,
                     result := result, dest := packetSender p }
  let k := srcKey p
  if tag && 16 ≤ k then
    match w.dev.images.session (k - 16) with
    | none => r
    | some s =>
      let cmdTag := slice (p.params) (p.plen.toNat - 32) 32
      { r with result := result ++ hmac s.repKey (r.head (result.length + 32) ++ result ++ cmdTag) }
  else r

/-- A reply of this device to packet `p`. -/
def W.mkReply (w : W) (p : Packet) (opc : Half) (status : Nat) (final : Bool) (result : List Byte) (tag : Bool := true) :
    Reply :=
  w.replyFrom w.dev.sys.mode.code w.dev.chim.pos p opc status final result tag

/-- A reply reaches its source: the reply ring at REPLY_HEAD (R63), the maintenance SPI (R503), or the sender. -/
def W.deliver (w : W) (k : Nat) (r : Reply) : W :=
  w.upd fun d =>
    if k = 0 then
      { d with stoker := { d.stoker with replies := d.stoker.replies.set d.stoker.replyHead.toNat r,
                                         replyHead := d.stoker.replyHead + 1 } }
    else if k = 1 then { d with ports := { d.ports with mspiOut := d.ports.mspiOut ++ [r] } }
    else { d with stoker := { d.stoker with sent := d.stoker.sent.set k ((d.stoker.sent.getD k []) ++ [r]) } }

/-- Keep a reply as the stored reply of its source's last accepted command (R69). -/
def W.store (w : W) (k : Nat) (r : Reply) : W :=
  w.upd fun d => d.onCmdSrc k fun c => if c.expect = some (r.seq + 1) then { c with stored := some r } else c

/-- Answer a command: deliver, and store unless a RING_RESET has forgotten the command (R65, R69). -/
def W.reply (w : W) (p : Packet) (opc : Half) (status : Nat) (final : Bool) (result : List Byte) (stale : Bool := false) : W :=
  let r := w.mkReply p opc status final result
  let w := w.deliver (srcKey p) r
  if stale then w else w.store (srcKey p) r

/-- The source of a pending command still takes its reply: a session that has ended takes none (R454). -/
def W.listens (w : W) (k : Nat) : Bool := k < 16 || (w.dev.images.session (k - 16)).isSome

/-- Take a pending command off the list. -/
def W.dropPend (w : W) (p : Pend) : W :=
  w.upd fun d => { d with stoker := { d.stoker with pends := d.stoker.pends.filter (fun q => q != p) } }

/-- The end of a pending command: its final reply (R73). -/
def W.finish (w : W) (p : Pend) (status : Nat) (result : List Byte) : W :=
  let w := w.dropPend p
  if w.listens p.src then w.reply p.pkt p.opc status true result p.stale else w

/-- The running pending commands of an opcode and a key, in the order taken. -/
def W.pendsOf (w : W) (opc key : Nat) : List Pend :=
  w.dev.stoker.pends.filter (fun p => p.running && p.opc.toNat == opc && p.key == key)

/-- End every running pending command of an opcode and a key. -/
def W.finishAll (w : W) (opc key status : Nat) (result : List Byte) : W :=
  w.each (w.pendsOf opc key) fun p w => w.finish p status result

/-- A waiting pending command is made to run with a key. -/
def W.setRunning (w : W) (p : Pend) (key : Nat) : W :=
  w.upd fun d => { d with stoker := { d.stoker with
    pends := d.stoker.pends.map (fun q => if q = p then { q with running := true, key := key } else q) } }

end Sys2Proof.Machine
end

