-- ==== Sys2Proof/Machine/Domains.lean ====
section
/-! DEFINITION. Power domains: the votes that hold them (R459, R462), and what DOZE and its end do to them (R470,
R471). -/

namespace Sys2Proof.Machine

/-- The hob that an address of R23 lies in: hearths 0 to 15, and 16 the Stoker hob. -/
def hobOf (a : Nat) : Option Nat :=
  if 0x04000000 ≤ a ∧ a < 0x08000000 then some ((a - 0x04000000) / 0x400000)
  else if 0x10000000 ≤ a ∧ a < 0x10100000 then some 16
  else none

/-- The window of a chimney position that an address lies in (R26). -/
def windowOf (a : Nat) : Option Nat :=
  if 0x10000000000 ≤ a ∧ a < 0x18000000000 then some ((a - 0x10000000000) / 0x1000000000) else none

/-- The first device address of DRAM. -/
def dramBase : Nat := 0x100000000

/-- The enabled channels in ascending order. -/
def Dev.dramChans (d : Dev) : List Nat := (List.range 4).filter (fun c => (d.chan c).enabled)

/-- The usable bytes of a channel of this population (R347). -/
def MemChan.bytes (c : MemChan) : Nat := 0x80000000 * (if c.ranks then 2 else 1) * (if c.density then 2 else 1)

/-- Usable DRAM in bytes (R353). -/
def Dev.dramBytes (d : Dev) : Nat :=
  match d.dramChans with
  | [] => 0
  | c :: r => (r.length + 1) * (d.chan c).bytes

/-- The channel that holds offset `a` of DRAM, and the channel line (R353). -/
def Dev.dramMap (d : Dev) (a : Nat) : Nat × Nat :=
  let e := d.dramChans
  let g := a / 256
  (e.getD (g % e.length) 0, ((g / e.length) * 256 + a % 256) / 64)

/-- The device address lies in populated DRAM. -/
def Dev.inDram (d : Dev) (a : Nat) : Bool := decide (dramBase ≤ a) && decide (a < dramBase + d.dramBytes)

/-- The domain that serves a local device address, where it is one that can leave ON outside DOZE or that an access in flight
holds (R458): hobs, Bobbin, DRAM, field I/O and hearth registers. -/
def Dev.domAt (d : Dev) (a : Nat) : Option Nat :=
  let b := if 0x08000000 ≤ a ∧ a < 0x10000000 then 0x04000000 + a % 0x04000000 else a
  match hobOf b with
  | some u => some (hobDom u)
  | none =>
    if 0x11000000 ≤ a ∧ a < 0x11840000 then some 229
    else if d.inDram a then some (231 + (d.dramMap (a - dramBase)).1)
    else match blockAt a with
      | some (_, 7, _, _) => some 239
      | some (_, 16, h, _) => some (208 + h)
      | _ => none

/-- The addresses of the accesses that the cores have in flight: pending loads and waiting stores. -/
def Dev.inFlight (d : Dev) : List Nat :=
  d.cores.rows.flatMap fun r =>
    ((r.2.pend.filter fun p => p.ans.isNone).map fun p => p.op.addr.toNat) ++ (r.2.sb ++ r.2.held).map fun s => s.addr.toNat

/-- The domain at whose edge boundary FIFO `n` stands (R386, R458). -/
def fifoDomain (n : Nat) : Option Nat :=
  if n < 2 then some 235 else if n < 6 then some 236 else if n < 8 then some 237 else if n < 10 then some 238
  else if n < 18 then some (231 + (n - 10) / 2) else if n < 26 then some 239 else none

/-- A boundary FIFO of domain `n` is not empty. -/
def Dev.fifoBusy (d : Dev) (n : Nat) : Bool :=
  d.bobbin.fifos.rows.any fun r => r.2.wr != r.2.rd && fifoDomain r.1 == some n

/-- Core `k` waits in NAP (R462); the Stoker's NAP has no effect. -/
def W.nap (w : W) (k : Nat) : Bool :=
  let c := w.dev.core k
  k < 64 && c.run && c.wait == WaitSt.wait && bitAt (c.arch.ctl k 9) 0

/-- Core `k` waits in NAP with HOB_RELEASE. -/
def W.napHob (w : W) (k : Nat) : Bool := w.nap k && bitAt ((w.dev.core k).arch.ctl k 9) 1

/-- The core whose seam holds lane `l` of hearth `h`. -/
def W.coreOfLane (w : W) (h l : Nat) : Option Nat :=
  (List.range 4).findSome? fun j =>
    let s := w.dev.seam (4 * h + j)
    if s.a = some l ∨ s.b = some l ∨ s.c = some l then some (4 * h + j) else none

/-- What wakes the lanes of a NAP core without ending its WAIT (R463): a rethread, or the switch of R446. -/
def W.lanesNeeded (w : W) (k : Nat) : Bool :=
  (w.dev.seam k).rethread.isSome ||
  (w.dev.sys.mode == .cutover && w.dev.images.cut.any fun c => c.switched.isNone && decide (k < 64) && bitAt c.hearths (k / 4))

/-- The LANE vote of a lane in state `st` of core `k` (R459). -/
def W.laneVote (w : W) (st : LaneSt) (core : Option Nat) : Bool :=
  match st with
  | .failed => false
  | .active => match core with
    | some k => !w.nap k || w.lanesNeeded k
    | none => true
  | _ => true

/-- The block of a hearth is busy: a placed context, a bound channel or an ALLOWED damper channel (R459). -/
def W.hearthBusy (w : W) (h : Nat) : Bool :=
  let b := w.dev.blw h
  w.hreg h (if b.bankB then 0x620 else 0x610) != 0 || w.hreg h 0x30C != 0 || w.hreg h 0x310 != 0 ||
  (List.range 4).any (fun i => bitAt (w.reg 6 0 (0x2000 + 4 * (4 * h + i))) 0)

/-- Hearth `h` runs a start-up test: in KINDLE, or in a HEARTH_RESET (R118). -/
def W.startupRuns (w : W) (h : Nat) : Bool :=
  w.dev.sys.mode == .kindle || !(w.pendsOf 0x0307 h).isEmpty

/-- DOM_STAT.VOTES of domain `n` (R459): the bits of the clients STOKER, EXPERT and DEBUG are held, the others follow
from what holds them. -/
def W.votes (w : W) (n : Nat) : Nat :=
  let m := w.dev.sys.mode
  let held := Nat.land (w.dev.dom n).votes.toNat 0x302
  let doze := m == .doze
  let mode := (m == .hold || m == .kindle) ||
    (!doze && ((224 ≤ n && n ≤ 229) || (231 ≤ n && n ≤ 235) || n == 237 || n == 238)) ||
    (208 ≤ n && n < 224 && w.startupRuns (n - 208))
  let lane := !doze &&
    (if n < 208 then w.laneVote (w.dev.lane n).st (w.coreOfLane (n / 13) (n % 13))
     else if 224 ≤ n && n < 228 then w.laneVote (w.dev.lane (208 + (n - 224))).st (some 64) else false)
  let act :=
    w.dev.fifoBusy n || (w.dev.inFlight.any fun a => w.dev.domAt a == some n) ||
    if 208 ≤ n && n < 224 then !doze && w.hearthBusy (n - 208)
    else if n = 229 then !w.dev.bobbin.opens.isEmpty || !w.dev.bobbin.waiters.isEmpty
    else if n = 235 then w.dev.ports.pcieUp && !w.dev.ports.d3hot
    else if n = 236 then w.dev.ports.ethUp != 0
    else if n = 237 then w.dev.chim.up.st == .linked
    else if n = 238 then w.dev.chim.down.st == .linked else false
  let core := if 208 ≤ n && n < 224 then
      maskOf 4 (fun j => let k := 4 * (n - 208) + j; (w.dev.core k).run && !w.napHob k && !doze)
    else 0
  Nat.lor held (mode.toNat + 4 * lane.toNat + 8 * act.toNat + 16 * core)

/-- A domain returns to ON (R460, R464): the hob of a hearth is awake with its common domain, and the Stoker releases the pads
of PD_231 to PD_238. -/
def W.domainUp (w : W) (n : Nat) : W :=
  w.upd fun d =>
    let d := d.onDom n fun x => { x with st := .on, waits := false, padHold := x.padHold && decide (239 ≤ n) }
    if 208 ≤ n ∧ n < 224 then d.onHob (n - 208) fun h => { h with power := .awake } else d

/-- The vote of an access or of a needed lane wakes domain `n` (R459, R463). -/
def W.wakeDom (w : W) (n : Nat) : W := if (w.dev.dom n).st = .on then w else w.domainUp n

/-- An access to a domain that is not ON waits for its wake, and goes on after it (R459). -/
def W.wakeAt (w : W) (a : Nat) : W := match w.dev.domAt a with | some n => w.wakeDom n | none => w

/-- The lanes in the seam of core `k` wake (R463). -/
def W.wakeLanes (w : W) (k : Nat) : W :=
  let s := w.dev.seam k
  w.each ([s.a, s.b, s.c].filterMap id) fun l w => w.wakeDom (if k < 64 then 13 * (k / 4) + l else 224 + l)

/-- The level of the rail that feeds unit `u`: VCN for hearths 0 to 7, VCS for 8 to 15, VCU for the Stoker. -/
def Dev.level (d : Dev) (u : Nat) : Nat :=
  if u < 8 then d.power.levels.1 else if u < 16 then d.power.levels.2.1 else d.power.levels.2.2

/-- The slowest beat of a level in units of 0.01 ns (R465). -/
def slowBeat (l : Nat) : Nat := ([500, 330, 230, 170, 135, 110, 95] : List Nat).getD l 500

/-- The level that GPIO pad `p` drives while it is not held; none where it drives nothing (R508, R512): an open-drain
output drives low alone. -/
def W.padDrive (w : W) (p : Nat) : Option Bool :=
  let c := w.reg 7 0 (0x100 + 4 * p)
  let m := w.dev.sys.mode
  let b := w.dev.bobbin
  let live := (m.running || m == .safe || m == .quiet) && !b.stopped.contains 24 && !b.stopped.contains 25
  let v := if live then bitAt (w.reg 7 0 (0x310 + 4 * (p / 32))) (p % 32) else bitAt c 2
  if !w.dev.ports.fioDone then none
  else match fld c 0 2 with
    | 1 => some v
    | 2 => if v then none else some false
    | _ => none

/-- The level at the output of GPIO pad `p` (R464): a held pad keeps its latched level. -/
def W.padOut (w : W) (p : Nat) : Option Bool :=
  if (w.dev.dom 239).padHold then w.dev.ports.latch.get? p else w.padDrive p

/-- The GPIO pads are latched as PD_239 is about to hold them (R460, R464). -/
def W.latchPads (w : W) : W :=
  if (w.dev.dom 239).padHold then w
  else w.upd fun d => { d with ports := { d.ports with
    latch := ⟨(List.range 128).filterMap fun p => (w.padDrive p).map fun v => (p, v)⟩ } }

/-- The states that DOZE leaves (R470). -/
def Dev.dozeDown (d : Dev) : Dev :=
  let off := fun (d : Dev) (n : Nat) (s : DomSt) (p : Bool) =>
    d.onDom n fun x => { x with st := s, padHold := x.padHold || p }
  let d := (List.range 208).foldl (fun d n => off d n .off false) d
  let d := (List.range 16).foldl (fun d h => off d (208 + h) .retain false) d
  let d := (List.range 6).foldl (fun d i => off d (224 + i) .retain false) d
  let d := ([230, 231, 232, 233, 234, 236, 239, 240] : List Nat).foldl (fun d n => off d n .off true) d
  let d := (List.range 17).foldl (fun d h => d.onHob h fun x => { x with power := .ret45 }) d
  let d := (List.range 64).foldl (fun d k => d.onCore k fun x => { x with wait := .wait }) d
  { d with power := { d.power with levels := (d.power.levels.1, d.power.levels.2.1, 3) } }

/-- The end of DOZE (R471): the domains return to what their votes require, and the hobs of those that stay in RETAIN to 0.55 V;
the levels return to LEVEL_CTL; the pads of PD_239 and PD_240 stay held. -/
def W.dozeUp (w : W) : W :=
  let ctl := w.reg 4 0 0x20
  let w := w.upd fun d =>
    let d := (List.range 17).foldl (fun d h => d.onHob h fun x => { x with power := if h = 16 then .awake else .ret55 }) d
    let d := (List.range 64).foldl (fun d k => d.onCore k fun x => { x with wait := .awake }) d
    { d with power := { d.power with levels := (fld ctl 0 3, fld ctl 4 3, fld ctl 8 3) } }
  w.each (List.range 241) fun n w =>
    if w.votes n = 0 then w
    else w.domainUp n

end Sys2Proof.Machine
end

