-- ==== Sys2Proof/Machine/Engine.lean ====
section
/-! DEFINITION. The Bobbin's engine: the writes of the port pages, the waiting ones among them, and a whole packet through the
TRY port (R373 to R381). What an operation detects waits in `W.due`. -/

namespace Sys2Proof.Machine

/-- NOTICE after one more dropped or failed store (R175).
(DESIGN CHOICE: assumption 31.) -/
def lastNotice (v : Word64) (cause : Nat) : Word64 := w64 (min (fld v 0 16 + 1) 65535 + at_ cause 16)

/-- A store of core `k` was dropped or failed (R175). (DEDUCED: assumptions 29, 30.) -/
def W.storeNotice (w : W) (k cause : Nat) : W :=
  (w.upd fun d => d.onCore k fun c => c.onArch fun x => x.setCtl 0x48 (lastNotice (x.ctl k 0x48) cause)).interrupt k 48

/-- LAST of a store that meets an error response (R175). (DEDUCED: assumption 30.) -/
def noticeOf (e : Nat) : Nat :=
  if e = eReserved then 3 else if e = eFirewall then 2 else if e = eLink then 4 else if e = eRemote then 6 else 5

/-- The core of this device that an identity names (R176). -/
def W.coreOf (w : W) (m : Rid) : Option Nat :=
  if ridPos m = w.dev.chim.pos.toNat ∧ ridClass m ≤ 1 then some (if ridClass m = 1 then 64 else ridIndex m) else none

/-- A write of requester `m` met an error response: a core takes a notice (R175). -/
def W.writeFailed (w : W) (m : Rid) (e : Nat) : W :=
  match w.coreOf m with
  | some k => w.storeNotice k (noticeOf e)
  | none => w

/-- The address of a port page. -/
def pageAddr (q o : Nat) : Nat := 0x11800000 + q * 0x40 + o

/-- Misuse of a port page (R375): counted, recorded, and answered as an access to a reserved range. -/
def W.misuse (w : W) (m : Rid) (q off : Nat) : Acc × W := (.err eReserved, (w.countReg 8 0 0x54).queueNote 0x2C0 m q off)

/-- POOL_EXHAUSTED names the operation that took the last shared cell (R372, R389). -/
def W.poolNote (w : W) (m : Rid) (q off : Nat) : W := if w.dev.bobbin.sharedFree = 0 then w.queueNote 0x2C3 m q off else w

/-- Abort an open packet and record it (R378, R381). (DEDUCED: assumption 114.) -/
def W.abortOpen (w : W) (p : OpenPkt) (off : Nat) : W := ((w.abortPkt p).countReg 8 0 0x58).queueNote 0x2C2 p.rid p.q off

/-- A closed packet of one word (R377). -/
def W.enqPacket (w : W) (q : Nat) (v : Word32) : W :=
  let (c, w) := w.takeCell q
  ((w.setCell c 2 1).setCell c 3 v).link q c 2 true true

/-- The engine reads the tail cell of a WORD queue before it appends to it (R384). -/
def W.tailRead (w : W) (m : Rid) (q : Nat) : W :=
  match (w.dev.queue q).ends with
  | some (_, t) => if (w.dev.queue q).cfg.mode = .word ∧ !(w.dev.queue q).broken then w.readCell m q 0x20 t else w
  | none => w

/-- ENQ (R377); `none` where it has to wait. -/
def W.tryEnq (w : W) (m : Rid) (q : Nat) (v : Word32) : Option (Acc × W) :=
  let w := w.tailRead m q
  let k := w.dev.queue q
  if k.broken then some (w.misuse m q 0x20)
  else match k.cfg.mode with
    | .disabled => some (w.misuse m q 0x20)
    | .word => if w.roomInTail q ∨ (w.limit q 1).isNone then some (.done, (w.enqWord q v).poolNote m q 0x20) else none
    | .packet => if (w.limit q 1).isNone then some (.done, (w.enqPacket q v).poolNote m q 0x20) else none

/-- PKT_OPEN (R378); `none` where it has to wait. -/
def W.tryPktOpen (w : W) (m : Rid) (q : Nat) : Option (Acc × W) :=
  let k := w.dev.queue q
  if k.broken ∨ k.cfg.mode ≠ .packet ∨ (w.dev.bobbin.openOf m q).isSome then some (w.misuse m q 0x24)
  else if w.dev.bobbin.opens.length < 512 ∧ (w.limit q 1).isNone then
    some (.done, (w.openPkt m q 1 false).poolNote m q 0x24)
  else none

/-- Mark an open packet truncated (R380), and count the misuse. -/
def W.truncate (w : W) (m : Rid) (q : Nat) : Acc × W :=
  let w := match w.dev.bobbin.openOf m q with
    | some p => w.setOpen { p with trunc := true }
    | none => w
  w.misuse m q 0x28

/-- PKT_WORD of one or two words (R378 to R380); `none` where it has to wait. -/
def W.tryPktWord (w : W) (m : Rid) (q : Nat) (ws : List Word32) : Option (Acc × W) :=
  match w.dev.bobbin.openOf m q with
  | none => some (w.misuse m q 0x28)
  | some p =>
    if (w.dev.queue q).broken then some (w.misuse m q 0x28)
    else
      let room := if p.tried then min (1023 - p.len) (14 * p.cells.length - 1 - p.len) else 1023 - p.len
      let kept := ws.take room
      let need := (p.len + 1 + kept.length + 13) / 14 - p.cells.length
      let full := fun (w : W) =>
        if kept.length < ws.length then w.truncate m q else (.done, w)
      if need = 0 then some (full (w.storeWords m q kept))
      else if (w.limit q need).isNone then
        let (cs, w) := w.takeCells q need
        let w := w.setOpen { p with cells := p.cells ++ cs }
        some (full ((w.storeWords m q kept).poolNote m q 0x28))
      else none

/-- PKT_CLOSE (R378). (DEDUCED: assumption 114.) -/
def W.close (w : W) (m : Rid) (q : Nat) (abort : Bool) : Acc × W :=
  match w.dev.bobbin.openOf m q with
  | none => w.misuse m q 0x2C
  | some p =>
    if abort then (.done, w.abortOpen p 0x2C)
    else if (w.dev.queue q).broken then w.misuse m q 0x2C
    else (.done, w.closePkt p)

/-- One write of a port page, by its page offset; `none` where R372 does not let it pass yet. -/
def W.tryWaiter (w : W) (x : Waiter) : Option (Acc × W) :=
  if x.off = 0x20 then w.tryEnq x.rid x.q (x.ws.headD 0)
  else if x.off = 0x24 then w.tryPktOpen x.rid x.q
  else if x.off = 0x28 then w.tryPktWord x.rid x.q x.ws
  else some (w.close x.rid x.q (bitAt (x.ws.headD 0) 0))

/-- A wait that has begun ends only by a grant (R373): not while its queue is BROKEN, or no longer takes what it asks. -/
def W.waitHolds (w : W) (x : Waiter) : Bool :=
  let k := w.dev.queue x.q
  x.begun && (k.broken || k.cfg.mode == .disabled || (x.off != 0x20 && k.cfg.mode != .packet))

/-- The store of a core that waited at the head of its store buffer has ended. (DEDUCED: assumption 116.) -/
def W.storeTaken (w : W) (x : Waiter) (r : Acc) : W :=
  match w.coreOf x.rid with
  | none => w
  | some k =>
    let w := match r with
      | .err e => w.storeNotice k (noticeOf e)
      | _ => w
    match (w.dev.core k).sb with
    | s :: r => if s.addr.toNat = 0x11800000 + x.q * 0x40 + x.off then w.upd fun d => d.onCore k fun c => { c with sb := r } else w
    | [] => w

/-- Re-evaluate the waiters in the order they began to wait (R373); a requester's later write waits behind its earlier
one. `kept` are those that still wait. (DEDUCED: assumption 114.) -/
def W.grantLoop (w : W) (kept : List Waiter) : List Waiter → List Waiter × W
  | [] => (kept, w)
  | x :: xs =>
    if kept.any (fun y => y.rid == x.rid) || w.waitHolds x then W.grantLoop w (kept ++ [x]) xs
    else match w.tryWaiter x with
      | some (r, w1) => W.grantLoop (w1.storeTaken x r) kept xs
      | none => W.grantLoop w (kept ++ [{ x with begun := true }]) xs

/-- Grant every waiter that R372 now admits. -/
def W.grantWaiters (w : W) : W :=
  let (kept, w) := w.grantLoop [] w.dev.bobbin.waiters
  w.onBob fun b => { b with waiters := kept }

/-- A refused TRY_OPEN is counted and recorded (R379). (DEDUCED: assumption 90.) -/
def W.tryRefused (w : W) (m : Rid) (q : Nat) : W := (w.countReg 8 0 0x50).queueNote 0x2C1 m q 0x18

/-- A whole packet through the TRY port, after the waiters that freed cells admit (R379, R382): whether it was taken.
(DEDUCED: assumptions 90, 114.) -/
def W.tryPacket (w : W) (m : Rid) (q : Nat) (ws : List Word32) : Bool × W :=
  let w := w.grantWaiters
  let k := w.dev.queue q
  if k.broken then (false, (w.misuse m q 0x18).2)
  else if (w.tryReason m q).isSome then (false, w.tryRefused m q)
  else
    let w := ((w.openPkt m q k.cfg.tryCells true).poolNote m q 0x18).storeWords m q ws
    (true, match w.dev.bobbin.openOf m q with | some p => w.closePkt p | none => w)

end Sys2Proof.Machine
end

