-- ==== Sys2Proof/Machine/Flue.lean ====
section
/-! DEFINITION. The Flue: what a detected event does (R271 to R276, R289 to R293), the damper channels it forces
(R278), the error pin pair (R281, R282), and the entry to SAFE (R41 to R44). -/

namespace Sys2Proof.Machine

/-- SRC_CFG_s in force. -/
def W.srcCfg (w : W) (s : Nat) : Word32 := w.reg 2 0 (0x1000 + 4 * s)

/-- Severity of a source: 0 NOTE, 1 WARN, 2 TRIP_LOCAL, 3 TRIP_DEVICE. -/
def W.sev (w : W) (s : Nat) : Nat := fld (w.srcCfg s) 0 2

/-- Reaction mask: 1 log, 2 hearth safe, 4 loop safe, 8 device SAFE, 16 error pin. -/
def W.mask (w : W) (s : Nat) : Nat := fld (w.srcCfg s) 2 5

/-- Active level sources. -/
def Flue.activeSrcs (f : Flue) : List Nat := (f.srcs.rows.filter (·.2.active)).map (·.1)

/-- Source `s` is active. -/
def W.active (w : W) (s : Nat) : Bool := (w.dev.src s).active

/-- The active sources of TRIP severity. -/
def W.trips (w : W) : List Nat := w.dev.flue.activeSrcs.filter (fun s => 2 ≤ w.sev s)

/-- LIMIT of RECOV_CFG (R285). -/
def W.recovLimit (w : W) : Nat := fld (w.reg 2 0 0x28) 0 4

/-- A lasting hold forces channel `n`: the device SAFE hold, its hearth's hold, or the selection of its group. -/
def W.forcedBy (w : W) (n : Nat) : Bool :=
  let f := w.dev.flue
  let c := w.reg 6 0 (0x2000 + 4 * n)
  f.devHold || (f.holds.get? (n / 4)).isSome || (bitAt c 20 && (f.sels.get? (16 * (n / 4) + fld c 16 4)).isSome)

/-- RB_EN of channel `n`. -/
def W.rbEn (w : W) (n : Nat) : Bool := bitAt (w.reg 6 0 (0x2000 + 4 * n)) 1

/-- Force channel `n` (R278); its readback has yet to confirm where it may be energised (R275). -/
def W.forceCh (w : W) (n : Nat) : W :=
  let c := w.dev.damper n
  if c.st = .fault ∨ c.st = .forced then w
  else
    let wait := w.rbEn n && (c.fb || c.st == DampSt.live)
    w.upd fun d =>
      ({ d with flue := { d.flue with unconf := if wait then n :: d.flue.unconf.filter (· != n) else d.flue.unconf,
                                      forcing := n :: d.flue.forcing.filter (· != n) } }).onDamper n
        fun c => { c with st := .forced, settling := c.settling || c.st == DampSt.live }

/-- Return channel `n` to SAFE from ARMED, STARTING or LIVE. -/
def W.safeCh (w : W) (n : Nat) : W :=
  w.upd fun d => d.onDamper n fun c =>
    if c.st = .armed ∨ c.st = .starting ∨ c.st = .live then { c with st := .safe, settling := c.settling || c.st == DampSt.live }
    else c

/-- Channels that no hold forces any more leave FORCED (R278). -/
def W.releaseChs (w : W) : W :=
  w.each (List.range 64) fun n w =>
    if (w.dev.damper n).st = .forced ∧ w.forcedBy n = false then w.upd fun d => d.onDamper n fun c => { c with st := .safe }
    else w

/-- The 32 bytes of a record as words (R289). -/
def Rec.words (r : Rec) : List Word32 :=
  [w32 (r.time.toNat % 2 ^ 32), w32 (r.time.toNat / 2 ^ 32),
   w32 (r.src + at_ r.sev.toNat 10 + at_ r.react.toNat 12 + at_ r.typ.toNat 17 + at_ r.mode.toNat 20 + at_ r.test.toNat 24),
   r.d0, r.d1, r.count, r.span, r.rseq]

/-- Write a record to the history (R291). -/
def W.history (w : W) (r : Rec) : W :=
  w.upd fun d =>
    let f := d.flue
    { d with flue := { f with hist := ({ r with rseq := f.histNext } :: f.hist).take 32, histNext := f.histNext + 1,
                              events := f.events + 1, lastEvent := some r } }

/-- A gap record (R289). (DEDUCED: assumption 93.) -/
def gapRec (g : Gap) (mode : BitVec 4) : Rec :=
  { time := g.first, src := 0, typ := 2, mode := mode, count := w32 (min g.n 0xFFFFFFFF),
    span := w32 (min (g.last - g.first).toNat 0xFFFFFFFF) }

/-- One record into the trace queue, or refused there: whether it was taken. (DEDUCED: assumption 90.) -/
def W.traceOne (w : W) (r : Rec) : Bool × W :=
  let q := fld (w.reg 2 0 0x34) 12 12
  let (ok, w) := w.tryPacket w.flueRid q (Rec.words { r with rseq := w.dev.flue.traceNext })
  (ok, if ok then w.upd fun d => { d with flue := { d.flue with traceNext := d.flue.traceNext + 1 } } else w)

/-- The trace stream takes an event (R293): a gap record first where records were lost. A refusal of the record of TRY_REFUSED
itself is counted, and raises none. (DEDUCED: assumption 90.) -/
def W.trace (w : W) (r : Rec) : W :=
  let c := w.reg 2 0 0x34
  if bitAt c 24 = false ∨ r.sev.toNat < fld c 25 2 then w
  else
    let g := w.dev.flue.traceGap
    let lost := fun (w : W) => w.upd fun d =>
      let g := d.flue.traceGap
      { d with flue := { d.flue with traceLost := satInc d.flue.traceLost,
                                     traceGap := { n := g.n + 1, first := if g.n = 0 then r.time else g.first, last := r.time } } }
    let noGap := fun (w : W) => w.upd fun d => { d with flue := { d.flue with traceGap := {} } }
    let (ready, v) := if g.n = 0 then (true, w) else w.traceOne (gapRec g r.mode)
    let v := if ready && g.n != 0 then noGap v else v
    let (ok, v) := if ready then v.traceOne r else (false, v)
    let v := if ok then v else lost v
    if r.src = 0x2C1 then { v with due := w.due ++ (v.due.drop w.due.length).filter fun e => e.1 != 0x2C1 } else v

/-- A level source whose mask holds error pin is active (R282). -/
def W.errSource (w : W) : Bool := w.dev.flue.activeSrcs.any (fun s => (w.mask s).testBit 4)

/-- The interval count at which the hold time of the error pin ends. -/
def W.errEnd (w : W) : Nat := w.dev.flue.errAt.toNat + 1000 * fld (w.reg 2 0 0x30) 0 14

/-- Assert the error pin pair (R281, R282): the hold time starts again, and a pending release is cancelled. -/
def W.errAssert (w : W) : W :=
  let w := w.upd fun d =>
    { d with flue := { d.flue with errPin := true, errAt := d.clock.ivl, errRel := false, errCnt := satInc d.flue.errCnt } }
  w.finishAll 0x0704 0 sDone (le 4 0)

/-- Release the error pin pair; a pending request has been met. -/
def W.errRelease (w : W) : W :=
  let w := w.upd fun d => { d with flue := { d.flue with errPin := false, errRel := false } }
  w.finishAll 0x0704 0 sDone (le 4 1)

/-- The release of R282 where AUTO = 1. -/
def W.errAuto (w : W) : W :=
  let m := w.dev.sys.mode
  let ok := !(m == .off || m == .hold || m == .kindle || m == .safe || m == .quiet || m == .lockout)
  if w.dev.flue.errPin && bitAt (w.reg 2 0 0x30) 16 && ok && !w.errSource && decide (w.errEnd ≤ w.dev.now) then w.errRelease
  else w

/-- The four effects of a transition at one instant (R40). -/
def W.stampMode (w : W) (m : Mode) : W :=
  w.upd fun d => { d with sys := { d.sys with mode := m, prev := d.sys.mode.code, seq := d.sys.seq + 1, stamp := d.clock.tb } }

/-- Start every application core that the mode lets run (R47). -/
def W.startCores (w : W) : W :=
  w.each (List.range 64) fun k w => if w.canStart k && !(w.dev.core k).run then w.startCore k else w

/-- The self-check of a cutover that has switched fails for hearth `h`, if it is named, with a cause of R447; the first
failure counts, and every named hearth is to fall back (R448, R457). -/
def W.cutFail (w : W) (h : Nat) (cause : Byte) : W :=
  w.upd fun d => match d.images.cut with
    | some c => if c.switched.isSome && c.fail.isNone && decide (h < 16) && bitAt c.hearths h then
        (bitsOf 16 c.hearths.toNat).foldl (fun d h => d.onCutStat h fun s => { s with phase := 3 })
          { d with images := { d.images with cut := some { c with fail := some (h, cause) } } } else d
    | none => d

/-- The result of R449. -/
def cutResult (outcome : Nat) (fail : Option (Nat × Byte)) (fc : Word64) : Word32 × Word32 :=
  (w32 (outcome + (match fail with | some (h, c) => at_ h 4 + at_ c.toNat 8 | none => 0)), w32 (fc.toNat % 2 ^ 32))

/-- The end of a cutover with an outcome of R449: its final reply, and the state of STAGE of R442. -/
def W.endCutover (w : W) (outcome : Nat) : W :=
  match w.dev.images.cut with
  | none => w
  | some c =>
    let r := cutResult outcome c.fail c.fc
    let w := w.upd fun d => { d with images := { d.images with
      cut := none, lastCut := r, lastNamed := (c.hearths, r.2), st := if outcome = 0 then .empty else .verified } }
    let w := w.each (bitsOf 16 c.hearths.toNat) fun h w => w.upd fun d => d.onCutStat h fun s => { s with phase := 0 }
    w.finishAll 0x0A08 0 sDone (le 4 r.1.toNat ++ le 4 r.2.toNat)

/-- Fall back every named hearth to the old image (R448); a core that a hard timer reset starts from the old entry. -/
def W.fallback (w : W) (outcome : Nat) : W :=
  match w.dev.images.cut with
  | none => w
  | some c =>
    let hs := bitsOf 16 c.hearths.toNat
    let w := w.each hs fun h w => w.fallbackHearth c h
    let again := (hs.flatMap (fun h => (List.range 4).map (4 * h + ·))).filter (fun k =>
      (w.dev.core k).run && !((c.switched.getD []).contains k))
    let w := w.endCutover outcome
    w.each again fun k w => if w.canStart k then w.startCore k else w

/-- A cutover meets an entry to SAFE (R42, R449): from the boundary on it reverts what has switched; before it, it is
cancelled. Whether hearths fell back. -/
def W.cutoverSafe (w : W) : Bool × W :=
  match w.dev.images.cut with
  | none => (false, w)
  | some c =>
    if w.dev.sys.mode = .cutover then
      if c.switched.isSome then (true, w.fallback 3) else (false, w.endCutover 3)
    else (false, w.endCutover 4)

/-- Enter SAFE (R41, R44), unless a device reset is due (R42): whether a cutover fell back. The Stoker serves in SAFE, out
of DOZE too (R47). -/
def W.enterSafe (w : W) : Bool × W :=
  if w.dev.sys.resetArmed then (false, w) else
  let old := w.dev.sys.mode
  let (fell, w) := w.cutoverSafe
  let w := w.upd fun d => { d with
    sys := { d.sys with dozeArmed := false },
    flue := { d.flue with retMode := if old.running then 4 else if old = .quiet then d.flue.retMode else 3,
                          tripSet := [] },
    chim := { d.chim with safeMark := d.chim.safeMark || d.chim.pos == 0 },
    stoker := { d.stoker with serving := !d.stoker.restarting } }
  let w := w.stampMode .safe
  let w := if old = .doze then w.dozeUp else w
  (fell, w.startCores)

/-- Modes that a device SAFE reaction leaves for SAFE (R41). -/
def Mode.trippable (m : Mode) : Bool :=
  m.running || m == .quiet || m == .prepare || m == .maintain || m == .doze

/-- Sources 0 and 1: the hardware SAFE of R276. -/
def isHwSafe (s : Nat) : Bool := s < 2

/-- The hearth that HEARTH of a source names: its own for a hearth source (R302). -/
def W.srcHearth (w : W) (s : Nat) : Nat :=
  match (w.source s).bind (fun r => r.hearth s) with
  | some h => h
  | none => fld (w.srcCfg s) 8 4

/-- Output channels restart from their first word when the selection of the hearth changes (R234). -/
def W.restartOut (w : W) (h : Nat) : W :=
  let b := w.dev.blw h
  if b.phase = .stopped then w
  else
    let chs := bitsOf 16 (b.use.getD 0x310 0).toNat
    w.upd fun d => d.onBlw h fun b =>
      { b with chans := chs.foldl (fun t c => t.set c { running := true, frame := b.frame }) b.chans }

/-- Apply hearth safe to hearth `h` for source `s` (R273, R286). -/
def W.hearthSafe (w : W) (s h : Nat) : W :=
  let full := decide (w.recovLimit ≤ (w.dev.flue.localWin.getD h []).length)
  let w := w.upd fun d =>
    let o := d.flue.holds.get? h
    let hold : Hold :=
      match o with
      | some x => { x with srcs := s :: x.srcs.filter (· != s), last := d.clock.ivl }
      | none => { srcs := [s], latched := full, last := d.clock.ivl }
    ({ d with flue := { d.flue with holds := d.flue.holds.set h hold } }).onBlw h fun b => { b with all := true }
  (w.restartOut h).each (List.range 4) fun i w => w.forceCh (4 * h + i)

/-- Select group `g` of hearth `h` for source `s` (R234, R273, R286). -/
def W.selectGroup (w : W) (s h g : Nat) : W :=
  let w := w.upd fun d =>
    let x := d.flue.sels.getD (16 * h + g) {}
    let hold : Hold := { srcs := s :: x.srcs.filter (· != s), latched := false, last := d.clock.ivl }
    ({ d with flue := { d.flue with sels := d.flue.sels.set (16 * h + g) hold } }).onBlw h fun b =>
      { b with group := setBit b.group g true }
  (w.restartOut h).each (List.range 4) fun i w =>
    let c := w.reg 6 0 (0x2000 + 4 * (4 * h + i))
    if bitAt c 20 ∧ fld c 16 4 = g then w.forceCh (4 * h + i) else w

/-- Apply the device SAFE reaction for source `s` (R273); whether a cutover fell back. -/
def W.deviceSafe (w : W) (s : Nat) : Bool × W :=
  let (fell, w) := if w.dev.sys.mode.trippable then w.enterSafe else (false, w)
  let w := w.upd fun d =>
    let d := { d with flue := { d.flue with devHold := true, tripSet := s :: d.flue.tripSet.filter (· != s) } }
    (List.range 16).foldl (fun d h => d.onBlw h fun b => { b with all := true }) d
  let w := w.each (List.range 16) fun h w => w.restartOut h
  (fell, w.each (List.range 64) fun n w => w.forceCh n)

/-- The record of an event of source `s` (R273, R289). -/
def W.eventRec (w : W) (s : Nat) (d0 d1 : Word32) (test : Bool) : Rec :=
  { time := w.dev.clock.tb, src := s, sev := BitVec.ofNat 2 (w.sev s),
    react := BitVec.ofNat 5 (Nat.lor (w.mask s) (if isHwSafe s then 24 else 0)), mode := w.dev.sys.mode.code, test := test,
    d0 := d0, d1 := d1 }

/-- The entry of source `s` after the event of record `r` (R271, R290). -/
def Src.after (x : Src) (level : Bool) (r : Rec) : Src :=
  let x := if level && !r.test then { x with active := true } else x
  if bitAt r.react 0 then { x with count := satInc x.count, first := if x.count = 0 then r else x.first, last := r.time } else x

/-- The source's own entry, and HW_SAFE of a hardware SAFE (R276). -/
def W.noteEvent (w : W) (s : Nat) (level : Bool) (r : Rec) : W :=
  let w := w.upd fun d => d.onSrc s fun x => x.after level r
  if isHwSafe s then w.upd fun d => { d with flue := { d.flue with hwSafe := true } } else w

/-- A reaction's drive phase begins (R275); where none was in progress, no channel counts as forced by one yet. -/
def W.startDriving (w : W) : W :=
  w.upd fun d =>
    let f := d.flue
    { d with flue := { f with driving := true, forcing := if f.driving || !f.unconf.isEmpty then f.forcing else [] } }

/-- The history, the trace stream and the reactions of the event of record `r` (R273, R274, R291, R293). Whether a
cutover fell back. -/
def W.react (w : W) (s : Nat) (r : Rec) (grp : List Nat) : Bool × W :=
  let h := w.srcHearth s
  let w := if bitAt r.react 0 && decide (2 ≤ r.sev.toNat) then w.history r else w
  let w := w.trace r
  let w := if 2 ≤ r.sev.toNat then w.cutFail h 5 else w
  let w := if 2 ≤ r.react.toNat then w.startDriving else w
  let w := if bitAt r.react 1 then w.hearthSafe s h else w
  let w := if bitAt r.react 2 then
      w.each (grp ++ (bitsOf 16 (fld (w.srcCfg s) 16 16)).filter (fun g => !grp.contains g)) fun g w => w.selectGroup s h g
    else w
  let w := if bitAt r.react 4 then w.errAssert else w
  if bitAt r.react 3 then w.deviceSafe s
  else if 2 ≤ r.sev.toNat ∧ w.dev.sys.mode = .quiet then w.enterSafe
  else (false, w)

/-- One event (R273, R274): record, reactions, mode. Whether a cutover fell back. (DEDUCED: assumption 90.) -/
def W.event (w : W) (s : Nat) (d0 d1 : Word32) (test : Bool) (grp : List Nat) : Bool × W :=
  match w.source s with
  | none => (false, w)
  | some row =>
    let r := w.eventRec s d0 d1 test
    (w.noteEvent s row.level r).react s r grp

/-- POOL_EXHAUSTED follows SHARED_FREE (R382, R389). -/
def W.poolCheck (w : W) : W :=
  let dry := w.dev.bobbin.sharedFree == 0
  if dry && !w.active 0x2C3 then (w.event 0x2C3 0 0 false []).2
  else if !dry && w.active 0x2C3 then (w.upd fun d => d.onSrc 0x2C3 fun x => { x with active := false }).errAuto
  else w

/-- CUTOVER_FALLBACK follows a reaction in which a cutover fell back (R448). -/
def W.fellBack (x : Bool × W) : W := if x.1 then (x.2.event 0x342 x.2.dev.images.lastCut.1 0 false []).2 else x.2

/-- The source stands already: an active level source is not detected again. -/
def W.stands (w : W) (s : Nat) : Bool := ((w.source s).any (·.level)) && w.active s

/-- The events that wait are detected. -/
def W.drainOnce (w : W) : W :=
  { w with due := [] }.each w.due fun e w => if w.stands e.1 then w else W.fellBack (w.event e.1 e.2.1 e.2.2 false [])

/-- The events that an operation under a reaction detected follow it; a fallback that they cause is the last to add some.
(DESIGN CHOICE: assumption 148.) -/
def W.drainDue (w : W) : W := w.drainOnce.drainOnce

/-- What an operation has detected is raised, and POOL_EXHAUSTED follows the pool. -/
def W.settle (w : W) : W := w.drainDue.poolCheck

/-- What follows detections: CUTOVER_FALLBACK where a cutover fell back, the events that a reaction detected, and the pool. -/
def W.followUp (x : Bool × W) : W := (W.fellBack x).settle

/-- Detect an event of source `s` with its details: everything of R273, and what follows from it. -/
def W.raise (w : W) (s : Nat) (d0 d1 : Word32) (test : Bool := false) (grp : List Nat := []) : W :=
  W.followUp (w.event s d0 d1 test grp)

/-- Two sources detected at one instant, `a` below `b` (R274): both records are of that instant, in ascending order; a level
source that is active already is not detected again, and an event source is at every occurrence (R271). -/
def W.raiseTwo (w : W) (a b : Nat) (da db : Word32) : W :=
  let ra := w.eventRec a da 0 false
  let rb := w.eventRec b db 0 false
  let one := fun (x : Bool × W) (s : Nat) (r : Rec) =>
    if x.2.stands s then x
    else let y := (x.2.noteEvent s ((x.2.source s).any (·.level)) r).react s r []; (x.1 || y.1, y.2)
  W.followUp (one (one (false, w) a ra) b rb)

/-- The hardware SAFE of source `s` applies its reactions anew (R276). -/
def W.hwForce (w : W) (s : Nat) : W :=
  let w := (w.upd fun d => { d with flue := { d.flue with hwSafe := true } }).startDriving
  W.followUp (w.errAssert.deviceSafe s)

/-- What goes with every INTERNAL_FAULT reply (R71): the Flue records STOKER_INTERNAL. -/
def W.internal (w : W) : W := w.raise 0x055 0 0

/-- A level source that is not active yet is detected; one that is active stays so. -/
def W.level (w : W) (s : Nat) (d0 d1 : Word32) : W := if w.active s then w else w.raise s d0 d1

/-- A level source becomes inactive (R271); the error pin may be released (R282). -/
def W.inactive (w : W) (s : Nat) : W :=
  (w.upd fun d => d.onSrc s fun x => { x with active := false }).errAuto

/-- Detail words of an address and a requester (R295). -/
def addrDetail (a : Addr) (m : Rid) : Word32 × Word32 :=
  (w32 (a.toNat % 2 ^ 32), w32 (a.toNat / 2 ^ 32 + at_ m.toNat 16))

/-- Raise a source that names an address and a requester. -/
def W.raiseAddr (w : W) (s : Nat) (a : Addr) (m : Rid) : W := w.raise s (addrDetail a m).1 (addrDetail a m).2

/-- A reaction is in progress (R275). -/
def Flue.reacting (f : Flue) : Bool := f.driving || !f.unconf.isEmpty

/-- A level source that applied one of `srcs` is active. -/
def W.anyActive (w : W) (srcs : List Nat) : Bool := srcs.any (fun s => w.active s)

/-- Count a local recovery of hearth `h` (R286). -/
def W.localRecovery (w : W) (h : Nat) : W :=
  w.upd fun d => { d with flue := { d.flue with
    localWin := d.flue.localWin.set h (((d.flue.localWin.getD h []) ++ [d.clock.ivl]).reverse.take 15).reverse } }

/-- Release a hearth hold (R286). -/
def W.releaseHold (w : W) (h : Nat) : W :=
  ((w.upd fun d => { d with flue := { d.flue with holds := d.flue.holds.erase h } }).localRecovery h).releaseChs

/-- Release a loop safe selection (R286); it takes effect in the outputs at the next t_f (R234). -/
def W.releaseSel (w : W) (k : Nat) : W :=
  (w.upd fun d => { d with flue := { d.flue with sels := d.flue.sels.erase k } }).releaseChs

end Sys2Proof.Machine
end

