-- ==== Sys2Proof/Machine/Modes.lean ====
section
/-! DEFINITION. Mode transitions (R40 to R47): core reset with what it aborts, what each mode drives, and the choice
between RUN and RUN_REDUCED (R43). -/

namespace Sys2Proof.Machine

/-- Abort the open packets and discard the waiting enqueues of the requesters that `sel` selects (R381). -/
def W.dropRequesters (w : W) (sel : Rid → Bool) : W :=
  let w := w.each (w.dev.bobbin.opens.filter (fun p => sel p.rid)) fun p w => w.abortOpen p 0
  (w.onBob fun b => { b with waiters := b.waiters.filter (fun x => !sel x.rid) }).settle

/-- The identities of core `k`, in either privilege, on this device. -/
def W.isCore (w : W) (k : Nat) (m : Rid) : Bool :=
  setBit m 12 false == setBit (coreRid w.dev.chim.pos k false) 12 false

/-- DETAIL0 of a watchdog record (R319). -/
def wdtDetail (k cause token : Nat) : Word32 := w32 (k + at_ cause 7 + at_ token 10)

/-- DETAIL1: the cycle position in µs. (DEDUCED: assumption 106.) -/
def W.wdtPos (w : W) (k : Nat) : Word32 :=
  let t := w.dev.wdt k
  if t.begun then w32 (t.elapsed w.dev.now / 1000) else 0

/-- WDT_HELD follows the frozen and suspended watchdogs (R317). -/
def W.wdtHeld (w : W) : W :=
  match (List.range 65).find? fun k => (w.dev.wdt k).frozen || (w.dev.wdt k).susp with
  | some k => w.level 0x0C5 (wdtDetail k 0 0) (w.wdtPos k)
  | none => if w.active 0x0C5 then w.inactive 0x0C5 else w

/-- ENTRY_FAULT of a hearth ends when none of its cores stays stopped by an entry fault (R531). -/
def W.entryHeld (w : W) (h : Nat) : W :=
  let src := 0x1A0 + h
  if w.active src && (List.range 4).all fun j => !(w.dev.core (4 * h + j)).stopped then w.inactive src else w

/-- A core reset of core `k` (R33, R129, R317, R381, R531): the core is held until it is started.
(DEDUCED: assumption 68.) -/
def W.coreReset (w : W) (k : Nat) : W :=
  let w := ((w.dropRequesters (w.isCore k)).clearCore k).wdtHeld
  if k < 64 then w.entryHeld (k / 4) else w

/-- The bellows of R47 run in this mode. -/
def Mode.bellowsRun (m : Mode) : Bool := m.running || m == .safe || m == .quiet

/-- While the bellows is stopped the writes of the parameter buffer are made at once, by the Stoker, one access for each port
word, and their commands end (R238, R239). (DEDUCED: assumption 149.) -/
def W.flushParams (w : W) (h : Nat) : W :=
  let ps := (w.dev.blw h).params
  let w := w.each ps fun p w => w.each (portWords (p.cells.map fun c => (c.1, [c.2]))) fun x w =>
    w.hobWriteParts h 6 (x.map fun y => (hobBase h + y.1, y.2))
  let w := w.upd fun d => d.onBlw h fun b => { b with params := [] }
  (w.finishAll 0x0402 h sDone []).finishAll 0x0403 h sDone []

/-- The bellows takes the bank that the committed SCHED_CTL names (R256, R264). -/
def W.takeBank (w : W) (h : Nat) : W :=
  (w.upd fun d => d.onBlw h fun b => { b with bankB := bitAt (w.hreg h 0x600) 0 }).finishAll 0x0411 h sDone []

/-- Stop the bellows of hearth `h`: SAFE_SEL.ALL is 1, no image channel runs (R234), and what waited for a frame is
done at once (R238, R264). -/
def W.stopOne (w : W) (h : Nat) : W :=
  let w := w.upd fun d => d.onBlw h fun b =>
    { b with phase := .stopped, expert := false, todo := [], waitIn := false, all := true, basting := false, use := ⟨[]⟩,
             chans := ⟨b.chans.rows.map (fun r => (r.1, { r.2 with running := false }))⟩ }
  (w.flushParams h).takeBank h

/-- Stop every bellows. -/
def W.stopBellows (w : W) : W := w.each (List.range 16) fun h w => w.stopOne h

/-- The core's condition of R43: TMR, or DMR with the patch lane SPARE or REJOINING for it. -/
def W.coreWhole (w : W) (k : Nat) : Bool :=
  let s := w.dev.seam k
  let p := (w.dev.lane (13 * (k / 4) + 12)).st
  match s.mode with
  | .tmr => true
  | .halted => false
  | .dmr => p == .spare ||
      (p == .rejoining && ((match s.rethread with | some r => r.lane == 12 | none => false) ||
        (w.dev.laneUnit (k / 4)).waiting.any (fun x => x.1 == k && x.2.1 == 12)))

/-- RUN or RUN_REDUCED by R43; a core of an unavailable hearth does not count. -/
def W.runMode (w : W) : Mode :=
  if (List.range 64).all (fun k => !bitAt w.dev.sys.avail (k / 4) || w.coreWhole k) then .run else .runReduced

/-- RUN and RUN_REDUCED follow the seams and lanes (R41, R43). -/
def W.settleRun (w : W) : W :=
  let m := w.dev.sys.mode
  if (m = .run ∨ m = .runReduced) ∧ w.runMode ≠ m ∧ w.dev.sys.resetArmed = false then w.stampMode w.runMode else w

/-- Cancel a pending release of the error pin at the entry to LOCKOUT (R282). -/
def W.cancelErr (w : W) : W :=
  (w.upd fun d => { d with flue := { d.flue with errRel := false } }).finishAll 0x0704 0 sDone (le 4 0)

/-- The device SAFE hold ends when the episode ends: at the end of QUIET (R284), by RUN_STOP or LOCKOUT_RESET.
(DEDUCED: assumption 89.) -/
def W.endEpisode (w : W) : W :=
  (w.upd fun d => { d with flue := { d.flue with devHold := false, tripSet := [], retMode := 0 } }).releaseChs

/-- The first entry to PREPARE releases the error pin unless a source with error pin is active (R281), at the end of its
hold time (R282). -/
def W.firstPrepare (w : W) : W :=
  if w.dev.sys.prepared then w
  else
    let w := w.upd fun d => { d with sys := { d.sys with prepared := true } }
    if w.errSource then w
    else if w.errEnd ≤ w.dev.now then w.errRelease
    else w.upd fun d => { d with flue := { d.flue with errRel := true } }

/-- A transition other than to SAFE, HOLD or OFF, with all that the new mode drives (R40, R41, R47); discarded while a
device reset is due (R42). (DEDUCED: assumption 89.) -/
def W.setMode (w : W) (new : Mode) : W :=
  if w.dev.sys.resetArmed then w else
  let old := w.dev.sys.mode
  let w := w.stampMode new
  let w := if old.running && !new.running then
      (w.each (List.range 64) fun n w => w.safeCh n).endCutover 4 else w
  let w := if new.coresRun then w else
      w.each ((List.range 64).filter (fun k => (w.dev.core k).run)) fun k w => w.coreReset k
  let w := if new.bellowsRun then w else w.stopBellows
  let w := if (old == .safe || old == .quiet || old == .lockout) && !(new == .quiet || new == .lockout) then w.endEpisode
    else w
  let w := if old == .quiet && new.running then w.upd fun d =>
      { d with flue := { d.flue with window := ((d.flue.window ++ [d.clock.ivl]).reverse.take 15).reverse } } else w
  let w := if new == .quiet then w.upd fun d => { d with flue := { d.flue with quietAt := d.clock.ivl } } else w
  let w := if new == .lockout then (w.upd fun d => { d with flue := { d.flue with retMode := 0 } }).cancelErr else w
  let w := if old == .doze then w.dozeUp else w
  let w := if new == .doze then w.latchPads.upd Dev.dozeDown else w
  let w := if new == .prepare then w.firstPrepare else w
  let w := if new.coresRun then w.startCores else w
  let w := w.upd fun d => { d with stoker := { d.stoker with serving := new.serves && !d.stoker.restarting } }
  w.errAuto

end Sys2Proof.Machine
end

