-- ==== Sys2Proof/Machine/Firewall.lean ====
section
/-! DEFINITION. The bus firewalls: how a request is admitted or refused (R177 to R181). -/

namespace Sys2Proof.Machine

/-- What a request does (R178, R186). -/
inductive Dir where
  | read | write | fetch | atomic
  deriving DecidableEq, Repr

/-- DIR of CAP_INFO. -/
def Dir.code : Dir → Nat
  | .read => 0 | .write => 1 | .fetch => 2 | .atomic => 3

/-- The request needs R. -/
def Dir.needsR : Dir → Bool
  | .write => false | _ => true

/-- The request needs W. -/
def Dir.needsW : Dir → Bool
  | .write => true | .atomic => true | _ => false

/-- Rule `i` of unit `u`: BASE, LIMIT, ID, PERM. -/
def W.fwRule (w : W) (u i : Nat) : Nat × Nat × Nat × Nat :=
  if fwFixed u then ((fwFixedRules u w.dev.chim.pos.toNat)[i]?).getD (0, 0, 0, 0)
  else
    let r := fun k => (w.reg 11 0 (0x1000 + u * 0x400 + 0x100 + 16 * i + 4 * k)).toNat
    (r 0, r 1, r 2, r 3)

/-- A rule that is enabled, contains the granule and matches the identity. -/
def ruleHits (r : Nat × Nat × Nat × Nat) (g : Nat) (m : Rid) : Bool :=
  r.2.2.2.testBit 0 && decide (r.1 ≤ g) && decide (g ≤ r.2.1) &&
  Nat.land (Nat.xor m.toNat (r.2.2.1 % 65536)) (r.2.2.1 / 65536) == 0

/-- Unit `u` admits the request for granule `g` (R178). -/
def W.fwAdmits (w : W) (u g : Nat) (m : Rid) (d : Dir) : Bool :=
  let rs := (List.range 32).map (fun i => w.fwRule u i)
  (!d.needsR || rs.any (fun r => ruleHits r g m && r.2.2.2.testBit 1)) &&
  (!d.needsW || rs.any (fun r => ruleHits r g m && r.2.2.2.testBit 2))

/-- The registers of unit `u` begin here. -/
def fwOff (u : Nat) : Nat := 0x1000 + u * 0x400

/-- What a refusal by unit `u` records (R179 to R181). -/
def W.fwRefuse (w : W) (u : Nat) (a : Addr) (m : Rid) (d : Dir) : W :=
  let w := w.countReg 11 0 (fwOff u + 0x0C)
  let debug := ridClass m == 7
  if fwPriv u then
    let w := if bitAt (w.reg 11 0 (fwOff u + 0x18)) 0 then w
      else
        ((((w.setReg 11 0 (fwOff u + 0x10) (addrDetail a m).1).setReg 11 0 (fwOff u + 0x14) (addrDetail a m).2).setReg 11 0
          (fwOff u + 0x18) (w32 (1 + 2 * d.code))).setReg 11 0 (fwOff u + 0x1C) (w32 (w.dev.clock.tb.toNat % 2 ^ 32))).setReg
          11 0 (fwOff u + 0x20) (w32 (w.dev.clock.tb.toNat / 2 ^ 32))
    let w := w.raiseAddr (0x1B4 + (u - 4)) a m
    if debug then w.raiseAddr 0x1B3 a m else w
  else w.raiseAddr (if debug then 0x1B3 else 0x1B1) a m

/-- The request passes unit `u`, or is refused and recorded: whether it passed. -/
def W.fwCheck (w : W) (u : Nat) (a : Addr) (m : Rid) (d : Dir) : Bool × W :=
  if w.fwAdmits u ((a.toNat - fwBase u) / 256) m d then (true, w) else (false, w.fwRefuse u a m d)

end Sys2Proof.Machine
end

