-- ==== Sys2Proof/Machine/Dram.lean ====
section
/-! DEFINITION. The DRAM controllers: protected blocks, their check on a read, merges, the correction log and the
retire map (R346 to R356, R366). -/

namespace Sys2Proof.Machine

/-- The location word of channel line `m`: the subchannel, and rank, bank and row by the density's fixed map, which
the spec does not state (R353, R365). (DESIGN CHOICE: assumption 49.) -/
def MemChan.loc (c : MemChan) (m : Nat) : Word32 :=
  setBit (w32 (2 * ((Config.dramLoc c.ranks c.density (m / 2)).toNat))) 0 (m % 2 == 1)

/-- CHECK: five check bits for each data byte (R348). -/
def checkField (data : List Byte) : List Byte :=
  le 40 (data.foldr (fun b a => fld (encode13 b) 8 5 + 32 * a) 0)

/-- Bytes 0 to 119 of the block of a line (R348). -/
def blockHead (data : List Byte) (line : Nat) (count : BitVec 48) (epoch : Half) : List Byte :=
  data ++ checkField data ++ le 8 line ++ le 6 count.toNat ++ le 2 epoch.toNat

/-- The block of a line. -/
def mkBlock (data : List Byte) (line : Nat) (count : BitVec 48) (epoch : Half) : List Byte :=
  let h := blockHead data line count epoch
  h ++ le 8 (crc64 h).toNat

/-- The 13-bit word of data byte `i` of a block. -/
def blockCell (b : List Byte) (i : Nat) : BitVec 13 :=
  BitVec.ofNat 13 ((b.getD i 0).toNat + 256 * ((ofLe (slice b 64 40) / 32 ^ i) % 32))

/-- What the check of a block finds (R352): the outcome (0 clean), the data, and the corrections: byte and SYN. -/
structure BlockRead where
  /-- Outcome code of R352, 0 for a clean block. -/
  outcome : Nat
  /-- The data, as corrected. -/
  data : List Byte
  /-- Corrected bytes and their syndromes; a byte of 104 to 127 has syndrome 0. -/
  fixes : List (Nat × BitVec 5)
  deriving DecidableEq, Repr

/-- An uncorrectable block (R352). -/
def BlockRead.bad (r : BlockRead) : Bool := 1 ≤ r.outcome && r.outcome ≤ 5

/-- A list with one of its bytes changed. -/
def flipByte (b : List Byte) (i : Nat) (m : Byte) : List Byte := b.set i (b.getD i 0 ^^^ m)

/-- The bit of bytes 104 to 127 whose error alone explains the CRC (R352 step 4): the byte and the block without it. -/
def metaFix (b : List Byte) : Option (Nat × List Byte) :=
  (List.range 192).findSome? fun k =>
    let c := flipByte b (104 + k / 8) (BitVec.ofNat 8 (2 ^ (k % 8)))
    if (crc64 (c.take 120)).toNat = ofLe (slice c 120 8) then some (104 + k / 8, c) else none

/-- Check a block read for `line` (R352); `recorded` is the COUNT kept of a recent write.
(DESIGN CHOICE: assumption 121.) -/
def checkBlock (blk : Option (List Byte)) (line : Nat) (epoch : Half) (recorded : Option (BitVec 48)) : BlockRead :=
  match blk with
  | none => ⟨2, [], []⟩
  | some b =>
    let cells := (List.range 64).map (fun i => decode13 (blockCell b i))
    if cells.any (fun c => match c with | .bad _ _ => true | _ => false) then ⟨1, [], []⟩
    else
      let data := cells.map (fun c => match c with | .good v => v | .fixed v _ => v | .bad v _ => v)
      let fixes := (List.range 64).filterMap (fun i => match cells.getD i (.good 0) with
        | .fixed _ s => some (i, s)
        | _ => none)
      let b1 := data ++ checkField data ++ b.drop 104
      let pass := fun (b : List Byte) (o : Nat) (fs : List (Nat × BitVec 5)) =>
        if ofLe (slice b 104 8) ≠ line then (⟨3, [], []⟩ : BlockRead)
        else if ofLe (slice b 118 2) ≠ epoch.toNat then ⟨4, [], []⟩
        else match recorded with
          | some c => if ofLe (slice b 112 6) ≠ c.toNat then ⟨5, [], []⟩ else ⟨o, data, fs⟩
          | none => ⟨o, data, fs⟩
      if (crc64 (b1.take 120)).toNat = ofLe (slice b1 120 8) then pass b1 (if fixes.isEmpty then 0 else 8) fixes
      else match metaFix b1 with
        | some (i, b2) => pass b2 9 (fixes ++ [(i, 0)])
        | none => ⟨2, [], []⟩

/-- The COUNT that a channel recorded for a line it wrote lately. -/
def MemChan.recorded (c : MemChan) (line : Nat) : Option (BitVec 48) := (c.recent.find? (fun p => p.1 == line)).map (·.2)

/-- Store a block for a line: the write counter advances, the write is recorded among the recent ones, and a write-back that
waits for the line is dropped (R350, R352). (DEDUCED: assumption 120.) -/
def W.storeBlock (w : W) (ch line : Nat) (data : List Byte) (flips : List Byte → List Byte) : W :=
  w.upd fun d =>
    let c := d.chan ch
    let n := c.wgen + 1
    ({ d with dram := { d.dram with blocks := d.dram.blocks.set line (flips (mkBlock data line n c.epoch))
                                    wbacks := d.dram.wbacks.filter fun x => x.1 != line } }).onChan ch
      fun c => { c with wgen := n, recent := ((line, n) :: c.recent.filter (fun p => p.1 != line)).take 1024 }

/-- The flips of an armed FLIP_CTL (R366). -/
def flipsOf (bytes ctl : Word32) (b : List Byte) : List Byte :=
  let b := flipByte b (fld bytes 0 7) (BitVec.ofNat 8 (fld bytes 8 8))
  if bitAt ctl 1 then flipByte b (fld bytes 16 7) (BitVec.ofNat 8 (fld bytes 24 8)) else b

/-- FLIP_CTL of a channel is armed for a line. -/
def W.flipArmed (w : W) (ch line : Nat) : Bool :=
  bitAt (w.reg 10 ch 0x4C) 0 &&
  line * 64 == (w.reg 10 ch 0x50).toNat + 2 ^ 32 * fld (w.reg 10 ch 0x54) 0 16

/-- Write a whole line (R351), with an armed flip (R366). -/
def W.writeLine (w : W) (ch line : Nat) (data : List Byte) : W :=
  if w.flipArmed ch line then
    let ctl := w.reg 10 ch 0x4C
    let w := w.storeBlock ch line data (flipsOf (w.reg 10 ch 0x58) ctl)
    (w.setReg 10 ch 0x4C (setBit ctl 0 false)).finishAll 0x0508 ch sDone []
  else w.storeBlock ch line data id

/-- One correction at a line into the log (R356): the entry of the line counts, a new line takes a free entry or
replaces the entry of lowest COUNT, the oldest among equals. -/
def W.logFix (w : W) (ch line m : Nat) (o : BitVec 4) (fix : Nat × BitVec 5) : W :=
  let c := w.dev.chan ch
  let next := (c.log.map fun x => x.nth + 1).foldl max 0
  let e : MemLog := { line := line, count := 1, loc := c.loc m, outcome := o, byte := fix.1, syn := fix.2, nth := next }
  if c.log.any (fun x => x.line == line) then
    w.upd fun d => d.onChan ch fun c => { c with log := c.log.map (fun x =>
      if x.line = line then { x with count := min (x.count + 1) 255, outcome := o, byte := fix.1, syn := fix.2 } else x) }
  else if c.log.length < 16 then w.upd fun d => d.onChan ch fun c => { c with log := c.log ++ [e] }
  else
    let low := c.log.foldl (fun a x => min a x.count) 255
    let old := ((c.log.filter fun x => x.count == low).map (·.nth)).foldl min next
    (w.countReg 10 ch 0x30).upd fun d => d.onChan ch fun c => { c with log := c.log.map fun x =>
      if x.count = low ∧ x.nth = old then e else x }

/-- DETAIL1 of a DRAM source (R362). -/
def dramDetail (a o : Nat) : Word32 := w32 (a / 2 ^ 32 + at_ o 16)

/-- Check a line with all that its check records (R352, R354, R356). (DEDUCED: assumption 120.) -/
def W.checkLine (w : W) (line : Nat) : BlockRead × W :=
  let a := line * 64
  let (ch, m) := w.dev.dramMap (a - dramBase)
  let c := w.dev.chan ch
  let r := checkBlock (w.dev.dram.blocks.get? line) line c.epoch (c.recorded line)
  if r.bad then
    (r, (w.countReg 10 ch 0x2C).raise (0x274 + ch) (w32 (a % 2 ^ 32)) (dramDetail a r.outcome))
  else if r.outcome = 0 then (r, w)
  else
    let w := w.countReg 10 ch 0x28 r.fixes.length
    let w := w.each r.fixes fun f w => w.logFix ch line m (BitVec.ofNat 4 r.outcome) f
    (r, w.raise (0x270 + ch) (w32 (a % 2 ^ 32)) (dramDetail a r.outcome))

/-- Read a line; the write-back of a corrected one waits (R352). (DEDUCED: assumption 120.) -/
def W.readLine (w : W) (line : Nat) : BlockRead × W :=
  let (r, w) := w.checkLine line
  (r, if r.bad || r.outcome == 0 then w else w.upd fun d => { d with dram := { d.dram with
    wbacks := d.dram.wbacks.filter (fun x => x.1 != line) ++ [(line, r.data)] } })

/-- The page of a DRAM address is retired (R355). -/
def Dev.retiredAt (d : Dev) (a : Nat) : Bool := d.dram.retired.any (fun p => p.1 == (a - dramBase) / 4096)

/-- Refuse an access to a retired page (R354). -/
def W.retiredAccess (w : W) (a : Nat) : W := w.raise 0x281 (w32 (a % 2 ^ 32)) (dramDetail a 0)

/-- A stopped boundary FIFO of channel `c` fails its requests (R388). -/
def Dev.chanStopped (d : Dev) (c : Nat) : Bool := d.bobbin.stopped.contains (10 + 2 * c) || d.bobbin.stopped.contains (11 + 2 * c)

/-- The channel that serves a line. -/
def Dev.lineChan (d : Dev) (line : Nat) : Nat := (d.dramMap (line * 64 - dramBase)).1

/-- The lines that `n` bytes from an address touch. -/
def linesOf (a n : Nat) : List Nat := (List.range ((a + n - 1) / 64 - a / 64 + 1)).map (· + a / 64)

/-- Read lines one after the other until one is bad or retired: the data, and whether a byte was corrected. -/
def W.readLines (w : W) : List Nat → Except Nat (List Byte × Bool) × W
  | [] => (.ok ([], false), w)
  | l :: ls =>
    if w.dev.retiredAt (l * 64) then (.error eRetired, w.retiredAccess (l * 64))
    else if w.dev.chanStopped (w.dev.lineChan l) then (.error eUncorr, w)
    else
      let (r, w1) := w.readLine l
      if r.bad then (.error eUncorr, w1)
      else match W.readLines w1 ls with
        | (.ok (bs, f), w2) => (.ok (r.data ++ bs, f || r.outcome != 0), w2)
        | (.error e, w2) => (.error e, w2)

/-- ECC_NOTE for a core of this device whose access met a correction (R356). -/
def W.eccNote (w : W) (m : Rid) (fixed : Bool) : W :=
  match w.coreOf m with
  | some k => if fixed then w.interrupt k 49 else w
  | none => w

/-- Read bytes of DRAM; the address lies in it. -/
def W.dramRead (w : W) (m : Rid) (a n : Nat) : Acc × W :=
  match w.readLines (linesOf a n) with
  | (.ok (bs, f), w) => (.data (slice bs (a % 64) n), w.eccNote m f)
  | (.error e, w) => (.err e, w)

/-- One line of a write: whole, or a merge of `bs` at offset `o`, which writes corrected and new bytes at once (R351). -/
def W.mergeLine (w : W) (m : Rid) (line o : Nat) (bs : List Byte) : Acc × W :=
  let a := line * 64
  let (ch, _) := w.dev.dramMap (a - dramBase)
  if w.dev.retiredAt a then (.err eRetired, w.retiredAccess a)
  else if w.dev.chanStopped ch then (.err eUncorr, w)
  else if bs.length = 64 then (.done, w.writeLine ch line bs)
  else
    let (r, w) := w.checkLine line
    if r.bad then (.err eUncorr, w)
    else (.done, (w.writeLine ch line (r.data.take o ++ bs ++ r.data.drop (o + bs.length))).eccNote m (r.outcome != 0))

/-- An atomic on `n` bytes of a line: the bytes before it, and one write of the line with what `f` makes of them (R351). -/
def W.atomicLine (w : W) (m : Rid) (a n : Nat) (f : List Byte → List Byte) : Acc × W :=
  let line := a / 64
  let (ch, _) := w.dev.dramMap (line * 64 - dramBase)
  if w.dev.retiredAt (line * 64) then (.err eRetired, w.retiredAccess (line * 64))
  else if w.dev.chanStopped ch then (.err eUncorr, w)
  else
    let (r, w) := w.checkLine line
    let o := a % 64
    let old := slice r.data o n
    if r.bad then (.err eUncorr, w)
    else (.data old, (w.writeLine ch line (r.data.take o ++ f old ++ r.data.drop (o + n))).eccNote m (r.outcome != 0))

/-- The parts of a write, by line: line, offset, bytes. -/
def lineParts : Nat → Nat → List Byte → List (Nat × Nat × List Byte)
  | 0, _, _ => []
  | n + 1, a, bs =>
    if bs.isEmpty then []
    else let k := 64 - a % 64
      (a / 64, a % 64, bs.take k) :: lineParts n (a + k) (bs.drop k)

/-- The write-backs that wait are made (R352); those of a stopped channel are not (R388).
(DESIGN CHOICE: assumption 1.) (DEDUCED: assumption 120.) -/
def W.dramBacks (w : W) : W :=
  w.each (w.dev.dram.wbacks.filter fun x => !w.dev.chanStopped (w.dev.lineChan x.1)) fun x w =>
    w.storeBlock (w.dev.lineChan x.1) x.1 x.2 id

/-- Write bytes of DRAM line by line until one is refused. -/
def W.writeParts (w : W) (m : Rid) : List (Nat × Nat × List Byte) → Acc × W
  | [] => (.done, w)
  | p :: ps =>
    match w.mergeLine m p.1 p.2.1 p.2.2 with
    | (.done, w1) => W.writeParts w1 m ps
    | r => r

/-- Write bytes of DRAM; the address lies in it. -/
def W.dramWrite (w : W) (m : Rid) (a : Nat) (bs : List Byte) : Acc × W :=
  w.writeParts m (lineParts (bs.length / 64 + 2) a bs)

/-- Retire page `p` (R355): whether the map took it. -/
def W.retire (w : W) (p : Nat) (record : Bool) : Bool × W :=
  let r := w.dev.dram.retired
  if r.any (fun x => x.1 == p) then
    (true, w.upd fun d => { d with dram := { d.dram with
      retired := r.map (fun x => if x.1 = p then (p, x.2 || record) else x) } })
  else if r.length < 1024 then (true, w.upd fun d => { d with dram := { d.dram with retired := r ++ [(p, record)] } })
  else (false, w)

end Sys2Proof.Machine
end

