-- ==== Sys2Proof/Machine/Hobs.lean ====
section
/-! DEFINITION. The hobs: what a port access reads, corrects, writes and reports (R193 to R197), the injections of
R210, atomics (R137), and the background march (R198 to R200). -/

namespace Sys2Proof.Machine

/-- Log the error of one byte (R196, R197, R209): counters, LAST_ERR, the write-back queue and the Flue. -/
def W.hobError (w : W) (u a : Nat) (march : Bool) (c : ByteCode) : W :=
  match w.hobLog u a march c with
  | (some e, w) => w.raise e.1 e.2 0
  | (none, w) => w

/-- Decode the 32 bytes of a port word and log what is found (R196). -/
def W.hobScan (w : W) (u word : Nat) (march : Bool) : W :=
  if w.dev.flips.rows.isEmpty then w
  else w.each (List.range 32) fun i w =>
    let a := 32 * word + i
    if (w.dev.flips.get? a).isSome then w.hobError u a march (decode13 (w.cell13 a)) else w

/-- The master index of a core, DMA, bellows or other requester at the hob of unit `u` (R189, R204). -/
def hobMaster (pos : BitVec 3) (u : Nat) (m : Rid) : Nat :=
  if ridPos m ≠ pos.toNat then (if u < 16 then 6 else 1)
  else if u = 16 then (if ridClass m = 1 then 0 else 1)
  else if ridClass m = 0 ∧ ridIndex m / 4 = u then ridIndex m % 4
  else if ridClass m = 2 ∧ ridIndex m / 16 = u then 5
  else if ridClass m = 3 ∧ ridIndex m = u then 4
  else 6

/-- A read access of `n` bytes of hob `u` for requester `m` (R190, R196, R197): every port word that it touches is decoded,
and a corrected byte is told beside an uncorrectable one. -/
def W.hobRead (w : W) (m : Rid) (u a n : Nat) : Acc × W :=
  let w := (w.wakeHob u).granted u (hobMaster w.dev.chim.pos u m)
  if w.dev.flips.rows.isEmpty then (.data (w.bytes a n), w)
  else
    let cs := w.codes a n
    let w := w.each (List.range ((a + n - 1) / 32 - a / 32 + 1)) fun i w => w.hobScan u (a / 32 + i) false
    let w := w.eccNote m (cs.any ByteCode.isFixed)
    if cs.any ByteCode.isBad then (.err eUncorr, w) else (.data (cs.map ByteCode.val), w)

/-- The pieces of a byte range by port word (R188): address and length. -/
def wordPieces (a n : Nat) : List (Nat × Nat) :=
  if n = 0 then []
  else (List.range ((a + n - 1) / 32 - a / 32 + 1)).map fun i =>
    let lo := max a (32 * (a / 32 + i))
    (lo, min (a + n) (32 * (a / 32 + i) + 32) - lo)

/-- The result of an atomic (R137): the operation of FN[10:1] on `size` bytes; none where FN is illegal. -/
def atomicResult (op size : Nat) (old opd : Nat) : Option Nat :=
  let m := 2 ^ (8 * size)
  let sg := fun (x : Nat) => if x < m / 2 then (x : Int) else (x : Int) - m
  match op with
  | 0 => some opd
  | 1 => some ((old + opd) % m)
  | 2 => some (Nat.land old opd)
  | 3 => some (Nat.lor old opd)
  | 4 => some (Nat.xor old opd)
  | 5 => some (if sg old ≤ sg opd then old else opd)
  | 6 => some (if sg old ≤ sg opd then opd else old)
  | 7 => some (min old opd)
  | 8 => some (max old opd)
  | _ => none

/-- Read bytes at `r`, change them and write them at `a` in one access (R193, R197): nothing is performed where one of them
is uncorrectable. The bytes read are the answer. -/
def W.hobModify (w : W) (m : Rid) (u k r a n : Nat) (f : List Byte → List Byte) : Acc × W :=
  match w.hobRead m u r n with
  | (.data bs, w) => (.data bs, w.hobWrite u k a (f bs))
  | r => r

/-- An alias write (R193): set or clear the bits of `bs`. -/
def W.hobAlias (w : W) (m : Rid) (u k a : Nat) (set : Bool) (bs : List Byte) : Acc × W :=
  match w.hobModify m u k a a bs.length (fun old =>
    List.zipWith (fun x y => if set then x ||| y else x &&& ~~~y) old bs) with
  | (.data _, w) => (.done, w)
  | r => r

/-- An atomic at a hob (R137); it reads at `r`, which is where the output selector serves its read from (R234).
(DEDUCED: assumption 177.) -/
def W.hobAtomic (w : W) (m : Rid) (u k r a size op : Nat) (opd : Word64) : Acc × W :=
  w.hobModify m u k r a size (fun old =>
    le size ((atomicResult op size (ofLe old) (opd.toNat % 2 ^ (8 * size))).getD (ofLe old)))

/-- The tester's slot drains the oldest entry of the write-back queue (R196). -/
def W.drainWb (w : W) (u : Nat) : W :=
  match (w.dev.hob u).wbq with
  | [] => w
  | o :: r => ((w.upd fun d => d.onHob u fun h => { h with wbq := r }).freshCode (hobBase u + o)).granted u (hobTester u)

/-- Drain the whole write-back queue, which stands before march accesses (R189). -/
def W.drainAll (w : W) (u : Nat) : W := w.each (List.range 4) fun _ w => w.drainWb u

/-- The tester has an access to present (R189): a correction to write back, or one of a row test. -/
def W.testerWaits (w : W) (u : Nat) : Bool := !(w.dev.hob u).wbq.isEmpty || decide (0 < (w.dev.hob u).owed)

/-- A granted access of the tester (R189, R198): the oldest correction is written back before march accesses, whose patterns
no other master sees, since the shadow buffer serves the row. (DESIGN CHOICE: assumptions 154, 178.) -/
def W.testerGo (w : W) (u : Nat) : W :=
  if (w.dev.hob u).wbq.isEmpty then w.upd fun d => d.onHob u fun h => { h with owed := h.owed - 1 } else w.drainWb u

/-- Step 1 of a row test (R198): the row's port words are decoded and the shadow buffer takes the corrected bytes,
from which every access is served until the test writes them back; 88 accesses of steps 2 and 3 are owed.
(DESIGN CHOICE: assumptions 154, 178.) -/
def W.marchStart (w : W) (u : Nat) : W :=
  let h := w.dev.hob u
  let ctl := w.hobReg u 0x200
  if bitAt ctl 16 = false ∨ h.march ∨ h.power ≠ .awake then w
  else
    let w := w.drainAll u
    let w := (w.upd fun d => d.onHob u fun h => { h with march := true, owed := 88 }).granted u (hobTester u)
    if w.dev.flips.rows.isEmpty then w
    else w.each (List.range 8) fun i w =>
      let word := hobBase u / 32 + 8 * h.row + i
      (w.hobScan u word true).each (List.range 32) fun j w =>
        if (w.dev.flips.get? (32 * word + j)).isSome then w.freshCode (32 * word + j) else w

/-- The end of a row test (R198, R199): what is still owed of its accesses is made.
(DESIGN CHOICE: assumptions 154, 178.) -/
def W.marchEnd (w : W) (u : Nat) (fail : Bool) : W :=
  let h := w.dev.hob u
  if h.march then
    let last := decide (h.row + 1 = hobRowsOf u)
    let w := if last then w.setHobReg u 0x208 (w.hobReg u 0x208 + 1) else w
    let w := w.upd fun d => d.onHob u fun x =>
      let x := { x with march := false, owed := 0, row := if last then 0 else h.row + 1 }
      if fail then { x with failRow := BitVec.ofNat 14 h.row, failCnt := satInc x.failCnt, failValid := true,
                            pendRows := if x.pendRows.contains h.row then x.pendRows else x.pendRows ++ [h.row] }
      else x
    let w := w.granted u (hobTester u)
    if fail then w.raise (hobSource 2 u) 0 0 else w
  else w

/-- HOB_STAT (R209). -/
def Hob.stat (h : Hob) : Word32 :=
  w32 ((match h.power with | .awake => 0 | .waking => 1 | .ret55 => 2 | .ret45 => 3) + 4 * h.march.toNat +
       8 * h.inject.isSome.toNat + at_ h.row 16)

/-- MARCH_FAIL (R209). -/
def Hob.marchFail (h : Hob) : Word32 :=
  w32 (h.failRow.toNat + at_ h.failCnt.toNat 16 + at_ h.failValid.toNat 31)

/-- SPARES (R209). -/
def Hob.spares (h : Hob) : Word32 :=
  w32 (h.rowsFree.toNat + at_ h.colsFree.toNat 8 + at_ (min h.pendRows.length 255) 16)

/-- A write of INJECT (R209, R210). (DEDUCED: assumption 93. DESIGN CHOICE: assumption 139.) -/
def W.hobInject (w : W) (u : Nat) (v : Word32) : W :=
  let mode := fld v 0 2
  let k := fld v 2 3
  if mode = 3 then w
  else if k = 7 ∨ (u = 16 ∧ k = 2) then w.upd fun d => d.onHob u fun h => { h with inject := none }
  else w.upd fun d => d.onHob u fun h => { h with inject := if mode = 0 then none else some (BitVec.ofNat 2 mode, k) }

/-- Clear the counters of a hob (R206, R209). -/
def W.hobCntClear (w : W) (u : Nat) : W :=
  w.each ([0x20C, 0x210] ++ (List.range 8).map (fun i => 0x240 + 4 * i)) fun o w => w.setHobReg u o 0

/-- Conflict counters (R192): every other waiting master counts the grant. -/
def W.conflict (w : W) (u : Nat) (ms : List Nat) : W :=
  w.each ms fun k w => w.setHobReg u (0x240 + 4 * k) (satInc (w.hobReg u (0x240 + 4 * k)))

end Sys2Proof.Machine
end

