-- ==== Sys2Proof/Machine/Views.lean ====
section
/-! DEFINITION. What the read-only registers of the blocks DEV, FLUE, DAMP, WDOG, PWR and TIME show of the device
(R48, R49, R121, R124, R266, R301 to R305, R322, R323, R474), and the status of a seam and a lane. -/

namespace Sys2Proof.Machine

/-- The life-cycle state that the fuses hold (R54): a group is blown when two of its three copies are. -/
def Fuse.lifecycle (f : Fuse) : Nat :=
  let blown := fun (g : BitVec 3) => decide (2 ≤ (bitsOf 3 g.toNat).length)
  if blown f.scrapped then 4 else if blown f.returned then 3 else if blown f.field then 2
  else if blown f.provisioned then 1 else 0

/-- The life-cycle state of a device that has read its fuses. -/
def W.lifecycle (w : W) : Nat := w.fuse.lifecycle

/-- KINDLE_STEP (R49, R50): the lowest step not complete, or the step of the halting error. -/
def Sys.kindleStep (s : Sys) : Nat :=
  if s.mode ≠ .kindle then 0
  else if s.kindleErr ≠ 0 then s.errStep.toNat
  else (([1, 2, 3, 4, 5, 6, 7, 8, 9] : List Nat).find? (fun n => !s.stepsDone.contains n)).getD 9

/-- DEV.STATUS (R49). (DEDUCED: assumption 92.) -/
def W.devStatus (w : W) : Word32 :=
  let s := w.dev.sys
  w32 (s.mode.code.toNat + at_ s.prev.toNat 4 + at_ (if s.fusesRead then w.lifecycle else 0) 8 + at_ s.recovery.toNat 11 +
    at_ s.kindleStep 12 + at_ s.kindleErr.toNat 16 + at_ s.slotB.toNat 20 + at_ s.fallback.toNat 21 +
    at_ s.lockoutRec.toNat 22 + at_ s.opReset.toNat 23)

/-- The code of a seam mode (R101). -/
def SeamMode.code : SeamMode → Nat
  | .tmr => 0 | .dmr => 1 | .halted => 2

/-- The code of a lane state (R99). -/
def LaneSt.code : LaneSt → Nat
  | .active => 0 | .spare => 1 | .fenced => 2 | .basting => 3 | .rejoining => 4 | .failed => 5

/-- SEAM_STAT (R121): a core in core reset shows HALTED (R101) and no stall. -/
def Seam.stat (s : Seam) : Word32 :=
  w32 (s.shown.code + at_ (s.a.getD 15) 2 + at_ (s.b.getD 15) 6 + at_ (s.c.getD 15) 10 +
       at_ (s.rethread.isSome && !s.reset).toNat 14 +
       at_ s.cause.toNat 16)

/-- Counted fences of a lane in the last 24 h, at most 15. -/
def Lane.window (l : Lane) : Nat := min l.fences.length 15

/-- FENCE_CNT (R121). -/
def Lane.cnt (l : Lane) : Word32 := w32 (l.window + at_ l.total.toNat 16)

/-- Lane states packed three bits each, lanes `lo` to `lo + n - 1` of a unit. -/
def W.lanePack (w : W) (u lo n : Nat) : Word32 :=
  w32 ((List.range n).foldl (fun a i => a + at_ (w.dev.lane (laneKey u (lo + i))).st.code (3 * i)) 0)

/-- LAST_FENCE (R121). -/
def LaneUnit.lastFence (l : LaneUnit) : Word32 :=
  w32 (l.lastLane + at_ l.lastCore 4 + at_ l.lastSlot 6 + at_ l.lastCause.toNat 8)

/-- DEV (R48, R124, R208). (DEDUCED: assumption 92.) -/
def W.viewDev (w : W) (o : Nat) : Option Word32 :=
  let s := w.dev.sys
  if o = 0x20 then some w.devStatus
  else if o = 0x24 then some (w32 s.avail.toNat)
  else if o = 0x28 then some s.seq
  else if o = 0x2C then some (lo32 s.stamp)
  else if o = 0x30 then some (hi32 s.stamp)
  else if o = 0x34 then some s.nonce
  else if o = 0x38 then some (if s.fusesRead then lo32 w.fuse.uid else 0)
  else if o = 0x3C then some (if s.fusesRead then hi32 w.fuse.uid else 0)
  else if o = 0x100 then some (w.dev.seam 64).stat
  else if o = 0x104 then some (w.lanePack 16 0 4)
  else if 0x110 ≤ o ∧ o < 0x120 then some (w.dev.lane (208 + (o - 0x110) / 4)).cnt
  else if o = 0x204 then some (w.dev.hob 16).stat
  else if o = 0x220 then some (w.dev.hob 16).marchFail
  else if o = 0x224 then some (w.dev.hob 16).spares
  else none

/-- TRIPS. -/
def W.tripCount (w : W) : Nat := w.trips.length

/-- A NOTE or WARN source waits with the intake FIFO at 48 or more (R290). -/
def W.storm (w : W) : Bool :=
  decide (48 ≤ w.dev.flue.fifo.length) && w.dev.flue.srcs.rows.any (fun r => r.2.count != 0 && decide (w.sev r.1 < 2))

/-- Recoveries in the window. -/
def W.recovCount (w : W) : Nat := w.dev.flue.window.length

/-- QUIET_LEFT: the ms left, a part of one counted whole. (DEDUCED: assumption 93.) -/
def W.quietLeft (w : W) : Nat :=
  if w.dev.sys.mode = .quiet then
    (w.dev.flue.quietAt.toNat + 1000000 * fld (w.reg 2 0 0x24) 0 20 - w.dev.now + 999999) / 1000000
  else 0

/-- Source `s` holds a hold or a selection (LATCH): a hearth hold or a loop safe selection (R286), or the device SAFE
holds of the episode (R283, R284). (DEDUCED: assumption 123.) -/
def Flue.latched (f : Flue) (s : Nat) : Bool :=
  (f.devHold && f.tripSet.contains s) || f.holds.rows.any (fun r => r.2.srcs.contains s) || f.sels.rows.any (fun r => r.2.srcs.contains s)

/-- The levels that the device drives on ERR_H and ERR_L (R281): low and high while not asserted, high and low while asserted,
both low while unpowered. -/
def Dev.errPins (d : Dev) : Bool × Bool := if d.sys.mode = .off then (false, false) else (d.flue.errPin, !d.flue.errPin)

/-- ERRPIN_STAT. -/
def Flue.errStat (f : Flue) : Word32 := w32 (f.errPin.toNat + 2 * f.errRel.toNat + at_ f.errCnt.toNat 16)

/-- CFG_CHECK. -/
def Flue.cfgCheck (f : Flue) : Word32 := w32 (f.mismatch.toNat + 2 * f.noMajority.toNat + at_ f.word.toNat 4)

/-- HEARTH_HOLD. -/
def Flue.hearthHold (f : Flue) : Word32 :=
  w32 (maskOf 16 (fun h => (f.holds.get? h).isSome) +
       at_ (maskOf 16 (fun h => ((f.holds.get? h).map (·.latched)).getD false)) 16)

/-- FLUE (R301, R302). -/
def W.viewFlue (w : W) (o : Nat) : Option Word32 :=
  let f := w.dev.flue
  if o = 0x20 then some (w32 (f.reacting.toNat + 2 * f.hwSafe.toNat + 4 * w.storm.toNat + at_ w.tripCount 16))
  else if o = 0x38 then some f.errStat
  else if o = 0x3C then some (w32 (w.recovCount + at_ w.recovLimit 4 + at_ f.retMode.toNat 8))
  else if o = 0x40 then some (w32 w.quietLeft)
  else if o = 0x44 then some f.hearthHold
  else if o = 0x48 then some (w32 (f.fifo.length + at_ w.storm.toNat 7 + at_ f.countRecs.toNat 16))
  else if o = 0x4C then some f.traceLost
  else if o = 0x50 then some f.cfgCheck
  else if o = 0x54 then some f.histNext
  else if o = 0x58 then some f.evqNext
  else if 0x100 ≤ o ∧ o < 0x180 then
    some (w32 (maskOf 32 (fun i => w.active (32 * ((o - 0x100) / 4) + i))))
  else if 0x180 ≤ o ∧ o < 0x200 then
    some (w32 (maskOf 32 (fun i => f.latched (32 * ((o - 0x180) / 4) + i))))
  else if 0x400 ≤ o ∧ o < 0x800 then
    let i := (o - 0x400) / 4
    some (((f.hist.find? (fun r => r.rseq.toNat % 32 == i / 8)).map (fun r => r.words.getD (i % 8) 0)).getD 0)
  else none

/-- The code of a damper state (R305). -/
def DampSt.code : DampSt → Nat
  | .safe => 0 | .armed => 1 | .starting => 2 | .live => 3 | .forced => 4 | .fault => 5

/-- CH_STAT of hearth `h` (R305). -/
def W.chStat (w : W) (h : Nat) : Word32 :=
  w32 ((List.range 4).foldl (fun a i =>
    let c := w.dev.damper (4 * h + i)
    a + at_ (c.st.code + 8 * c.fb.toNat + 16 * c.refusal.toNat) (8 * i)) 0)

/-- 32 channels from `lo` on that `p` holds for. -/
def chMask (lo : Nat) (p : Nat → Bool) : Word32 := w32 (maskOf 32 (fun i => p (lo + i)))

/-- DAMP (R304, R305). -/
def W.viewDamp (w : W) (o : Nat) : Option Word32 :=
  let d := w.dev
  if o = 0x20 then some (w32 (d.sys.mode.running.toNat + 2 * d.flue.devHold.toNat))
  else if o = 0x24 ∨ o = 0x28 then some (chMask (8 * (o - 0x24)) (fun n => (d.damper n).st == DampSt.live))
  else if o = 0x2C ∨ o = 0x30 then some (chMask (8 * (o - 0x2C)) (fun n =>
      (d.damper n).st == DampSt.forced || ((d.damper n).st == DampSt.fault && w.forcedBy n)))
  else if o = 0x34 ∨ o = 0x38 then some (chMask (8 * (o - 0x34)) (fun n => (d.damper n).fb))
  else if o = 0x3C ∨ o = 0x40 then some (chMask (8 * (o - 0x3C)) (fun n => w.active (0x10 + n)))
  else if 0x100 ≤ o ∧ o < 0x1100 ∧ (o - 0x100) % 256 = 4 then some (w.chStat ((o - 0x100) / 256))
  else none

/-- WSTAT (R323). -/
def Wdt.stat (t : Wdt) : Word32 :=
  w32 ((match t.st with | .off => 0 | .running => 1 | .expired => 2) + 4 * t.frozen.toNat + 8 * t.susp.toNat +
       16 * t.armed.toNat + 32 * t.cfgRefused.toNat + 64 * t.stray.toNat + 128 * t.rollShort.toNat + at_ t.services.toNat 16)

/-- ROLL (R323). -/
def Wdt.roll (t : Wdt) : Word32 := w32 (t.inn.toNat + at_ t.dup.toNat 16)

/-- EXPIRE_INFO (R323). -/
def Wdt.info (t : Wdt) : Word32 := w32 (t.cause.toNat + at_ t.count.toNat 16)

/-- CYCLE_POS: µs since the start of the cycle, none counted while the count stands. -/
def Wdt.pos (t : Wdt) (now : Nat) : Nat := if t.begun then min (t.elapsed now / 1000) 0xFFFFF else 0

/-- WDOG (R322, R323). -/
def W.viewWdog (w : W) (o : Nat) : Option Word32 :=
  if o = 0x2C then
    some (w32 (w.dev.eraseAt.isSome.toNat + at_ (w.reg 3 0 0x2C).toNat 16))
  else if 0x100 ≤ o ∧ o < 0x510 then
    let t := w.dev.wdt ((o - 0x100) / 16)
    let k := (o - 0x100) % 16 / 4
    some (if k = 0 then t.stat else if k = 1 then t.roll else if k = 2 then w32 (t.pos w.dev.now) else t.info)
  else none

/-- The code of a domain state (R474). -/
def DomSt.code : DomSt → Nat
  | .off => 0 | .on => 1 | .retain => 2 | .changing => 3

/-- The domain exists on this device: PD_241 to PD_243 on a KL6430-M alone (R3, R12).
(DEDUCED: assumption 127.) -/
def W.hasDomain (w : W) (n : Nat) : Bool := decide (n < if w.isM then 244 else 241)

/-- The accounting of a domain; one that this device lacks reads 0 (R25). (DEDUCED: assumption 127.) -/
def W.domOf (w : W) (n : Nat) : Domain := if w.hasDomain n then w.dev.dom n else { st := .off, votes := 0 }

/-- DOM_STAT (R474). (DEDUCED: assumption 127.) -/
def W.domStat (w : W) (n : Nat) : Word32 :=
  if w.hasDomain n = false then 0 else
  let d := w.dev.dom n
  w32 (d.st.code + 4 * d.padHold.toNat + 8 * d.waits.toNat + at_ (w.votes n) 16)

/-- DOM_ACCT. -/
def Domain.acct (d : Domain) : Word32 := w32 (d.refused.toNat + at_ d.aborted.toNat 16)

/-- DOM_LAST. -/
def Domain.last (d : Domain) : Word32 := w32 (d.lastId.toNat + at_ d.lastCause.toNat 16)

/-- LEVEL_STAT (R474). -/
def Power.levelStat (p : Power) : Word32 :=
  w32 (p.levels.1 + 16 * p.levels.2.1 + 256 * p.levels.2.2 + at_ (maskOf 3 (fun r => (p.changes.get? r).isSome)) 12 +
       at_ p.avsFault.toNat 16)

/-- The hottest sensor: its number and reading (R474); the lowest-numbered of equals. -/
def Power.hottest (p : Power) : Nat × Byte :=
  (List.range 17).foldl (fun (b : Nat × Byte) i =>
    let v := p.tj.getD i 0
    if b.2.toInt < v.toInt then (i, v) else b) (0, p.tj.getD 0 0)

/-- TJ. -/
def Power.tjWord (p : Power) : Word32 := w32 (p.hottest.2.toNat + at_ p.hottest.1 8)

/-- SUPPLY_STAT. -/
def W.supplyStat (w : W) : Word32 := w32 (maskOf 11 (fun r => w.active (0x60 + r)))

/-- PWR (R474). -/
def W.viewPwr (w : W) (o : Nat) : Option Word32 :=
  let p := w.dev.power
  if o = 0x24 then some p.levelStat
  else if o = 0x2C then some w.supplyStat
  else if o = 0x30 then some p.tjWord
  else if o = 0x34 then some p.vca
  else if 0x1000 ≤ o ∧ o < 0x13D0 then some (w.domStat ((o - 0x1000) / 4))
  else if 0x1400 ≤ o ∧ o < 0x17D0 then some (w.domOf ((o - 0x1400) / 4)).acct
  else if 0x1800 ≤ o ∧ o < 0x1BD0 then some (w.domOf ((o - 0x1800) / 4)).last
  else none

/-- This device is a course: a position above 0 (R476). -/
def Dev.isCourse (d : Dev) : Bool := d.chim.pos != 0

/-- TB_STAT.SOURCE (R249): a course reads 0b101. -/
def W.tbSource (w : W) : Nat := if w.dev.isCourse then 5 else fld (w.reg 5 0 0x34) 0 3

/-- The base-frame number (R252). -/
def Clock.frameNo (c : Clock) : Word64 := w64 (c.tb.toNat / 25000)

/-- TB_STAT (R266). -/
def W.tbStat (w : W) : Word32 :=
  let c := w.dev.clock
  w32 (w.tbSource + 8 * c.locked.toNat + 16 * c.holdover.toNat + 32 * c.backup.toNat + at_ c.stepCnt.toNat 16)

/-- TIME (R266). -/
def W.viewTime (w : W) (o : Nat) : Option Word32 :=
  let c := w.dev.clock
  if o = 0x20 then some (lo32 c.tb)
  else if o = 0x24 then some (hi32 c.tb)
  else if o = 0x28 then some (lo32 c.frameNo)
  else if o = 0x2C then some (hi32 c.frameNo)
  else if o = 0x30 then some w.tbStat
  else none

end Sys2Proof.Machine
end

