-- ==== Sys2Proof/Machine/Views2.lean ====
section
/-! DEFINITION. What the read-only registers of FIO, BOB, MEMC, FW, CHIM, BASTE, HEARTH and THMG show (R120, R121,
R186, R244, R245, R268, R343, R344, R365, R393, R434, R457, R496, R497, R512), and the Thimble mailbox (R425 to
R428). -/

namespace Sys2Proof.Machine

/-- FIO (R512). -/
def W.viewFio (w : W) (o : Nat) : Option Word32 :=
  if o = 0x20 then some (w32 w.dev.ports.fioDone.toNat)
  else if 0x300 ≤ o ∧ o < 0x310 then some (w32 (Sys2Proof.fld w.dev.ports.gpio (8 * (o - 0x300)) 32))
  else none

/-- The code of a queue mode (R394). -/
def QMode.code : QMode → Nat
  | .disabled => 0 | .word => 1 | .packet => 2

/-- QCFG_A of a configuration (R394). -/
def QCfg.wordA (c : QCfg) : Word32 := w32 (c.floor + at_ c.mode.code 17 + at_ c.tryCells 19 + at_ c.safety.toNat 26)

/-- OCC is at or above LEVEL, which is above 0 (R383). -/
def Queue.atLevel (q : Queue) : Bool := decide (q.cfg.level > 0) && decide (q.cfg.level ≤ q.occ)

/-- QSTAT_OCC (R393). -/
def Queue.occWord (q : Queue) : Word32 := w32 (q.occ + at_ q.broken.toNat 17 + at_ q.atLevel.toNat 18)

/-- BOB (R393). -/
def W.viewBob (w : W) (o : Nat) : Option Word32 :=
  let b := w.dev.bobbin
  let q := w.dev.queue (Sys2Proof.fld (w.reg 8 0 0x40) 0 12)
  if o = 0x20 then some (w32 b.sharedFree)
  else if o = 0x24 then some (w32 b.heldCells)
  else if o = 0x28 then some (w32 b.rsv)
  else if o = 0x2C then some (w32 (b.opens.length + at_ (min b.waiters.length 1023) 16))
  else if o = 0x44 then some q.occWord
  else if o = 0x48 then some (w32 (min q.words 0xFFFFFFFF))
  else if o = 0x4C then some q.seq
  else none

/-- MEM_INFO (R365). -/
def MemChan.info (c : MemChan) : Word32 :=
  w32 (c.rate.toNat + 4 * c.ranks.toNat + 8 * c.density.toNat + 16 * c.enabled.toNat + 32 * c.trainStep.toNat)

/-- A word of a correction log entry (R365). -/
def MemLog.word (e : MemLog) (k : Nat) : Word32 :=
  if k = 0 then w32 (e.line * 64 % 2 ^ 32)
  else if k = 1 then w32 (e.line * 64 / 2 ^ 32 + at_ e.count 16)
  else if k = 2 then e.loc
  else w32 (e.outcome.toNat + at_ e.byte 4 + at_ e.syn.toNat 11 + 2 ^ 31)

/-- MEMC_m (R365): a disabled channel shows MEM_INFO alone. -/
def W.viewMemc (w : W) (m o : Nat) : Option Word32 :=
  let c := w.dev.chan m
  if o = 0x20 then some c.info
  else if c.enabled = false then (if 0x20 ≤ o then some 0 else none)
  else if o = 0x24 then some (w32 c.epoch.toNat)
  else if 0x100 ≤ o ∧ o < 0x200 then
    some (((c.log[(o - 0x100) / 16]?).map (fun e => e.word ((o - 0x100) % 16 / 4))).getD 0)
  else if m = 0 ∧ 0x1000 ≤ o ∧ o < 0x2000 then
    some (((w.dev.dram.retired[(o - 0x1000) / 4]?).map (fun p => w32 (p.1 + 2 ^ 31))).getD 0)
  else none

/-- FW (R186). -/
def W.viewFw (w : W) (o : Nat) : Option Word32 :=
  if 0x1000 ≤ o ∧ o < 0x5000 then
    let u := (o - 0x1000) / 0x400
    let k := (o - 0x1000) % 0x400
    if k = 0 then some (w32 (u + 16 * (fwPriv u).toNat + 32 * (fwFixed u).toNat + at_ 32 8))
    else if k = 4 then some (w32 (fwBase u % 2 ^ 32))
    else if k = 8 then some (w32 (fwBase u / 2 ^ 32))
    else if 0x0C ≤ k ∧ k < 0x24 then some (w.dev.regs.val.getD (blockBase 11 0 + o) 0)
    else match fwRuleAt o with
      | some (u, i, j) => if fwFixed u then some (w32 (fwReset u i j w.dev.chim.pos.toNat)) else none
      | none => none
  else none

/-- The code of a port state (R497). -/
def PortSt.code : PortSt → Nat
  | .disabled => 0 | .training => 1 | .linked => 2 | .down => 3

/-- PORT_UP and PORT_DOWN (R497); a link that is not up shows no width. -/
def Port.word (p : Port) : Word32 :=
  w32 (p.st.code + 4 * (if p.st = .linked then p.width.toNat else 0) + 16 * p.peer.toNat + 128 * p.mismatch.toNat + at_ p.ups.toNat 16)

/-- KINDLE has reached the end of step 9 since the reset. -/
def Sys.kindled (s : Sys) : Bool := s.stepsDone.contains 9

/-- Position `n` is reachable as REACH shows it (R496). (DEDUCED: assumption 52.) -/
def W.reachBit (w : W) (n : Nat) : Bool :=
  if w.dev.isCourse then n == 0 && w.dev.chim.baseReach
  else if n = 0 then w.dev.sys.kindled
  else (w.dev.course n).reach

/-- REACH. -/
def W.reachWord (w : W) : Word32 := w32 (maskOf 8 w.reachBit)

/-- CHIM_STAT (R497). -/
def W.chimStat (w : W) : Word32 :=
  let c := w.dev.chim
  let base := w.dev.sys.fusesRead && !w.dev.isCourse
  w32 (c.pos.toNat + 8 * base.toNat + 16 * c.members.toNat +
       256 * (if w.dev.isCourse then w.dev.clock.locked else base).toNat + 512 * (w.dev.isCourse && w.dev.clock.everLocked).toNat)

/-- TB_OFFSET: 0 at the base. -/
def W.tbOffset (w : W) : Word32 := if w.dev.isCourse then BitVec.ofInt 32 w.dev.clock.offset else 0

/-- CHIM (R496). -/
def W.viewChim (w : W) (o : Nat) : Option Word32 :=
  let c := w.dev.chim
  if o = 0x20 then some w.chimStat
  else if o = 0x24 then some c.up.word
  else if o = 0x28 then some c.down.word
  else if o = 0x2C then some w.reachWord
  else if o = 0x30 then some (w32 c.up.delay.toNat)
  else if o = 0x34 then some (w32 c.down.delay.toNat)
  else if o = 0x38 then some w.tbOffset
  else if o = 0x3C then some c.replays
  else none

/-- SCAN_STAT (R344). -/
def Baste.scanStat (b : Baste) : Word32 := w32 (b.scanOpen.toNat + 2 * b.pathOff.toNat + 4 * b.zeroised.toNat)

/-- HSTAT (R344). -/
def W.hstat (w : W) (u : Nat) : Word32 :=
  let b := w.dev.bu u
  let bist := w.dev.now < b.began.toNat + 1720000
  w32 (b.next + 16 * (b.cur.getD 15) +
       256 * (if b.cur.isSome then (if b.late || !bist then 2 else 1) else if b.deferred then 3 else 0) +
       1024 * (match b.segs with
         | some n => n - (w.dev.blw u).basting.toNat
         | none => b.segsDone))

/-- OVERDUE. -/
def W.overdueWord (w : W) : Word32 := w32 (maskOf 17 (fun u => !(w.dev.bu u).overdue.isEmpty))

/-- A word of a result record (R337). -/
def BasteRec.words (r : BasteRec) : List Word32 := [lo32 r.time, hi32 r.time, r.info, r.rseq]

/-- BASTE (R343). -/
def W.viewBaste (w : W) (o : Nat) : Option Word32 :=
  let b := w.dev.baste
  if o = 0x28 then some b.scanStat
  else if o = 0x2C then some b.rseq
  else if o = 0x30 then some w.overdueWord
  else if 0x40 ≤ o ∧ o < 0x84 then some (w.hstat ((o - 0x40) / 4))
  else if 0x200 ≤ o ∧ o < 0x600 then
    let i := (o - 0x200) / 4
    some (((b.results.find? fun r => r.rseq.toNat % 64 == i / 4).map (fun r => r.words.getD (i % 4) 0)).getD 0)
  else none

/-- The code of a bellows phase (R245). -/
def BlwPhase.code : BlwPhase → Nat
  | .stopped => 0 | .window => 1 | .slots => 2 | .output => 3

/-- BLW_STAT (R245). -/
def Bellows.stat (b : Bellows) : Word32 :=
  w32 (b.phase.code + 4 * b.basting.toNat + 8 * (!b.params.isEmpty).toNat + at_ b.ctx 8)

/-- SAFE_SEL (R245). -/
def Bellows.safeSel (b : Bellows) : Word32 := w32 (b.group.toNat + at_ b.all.toNat 16)

/-- SCHED_STAT (R268). -/
def Bellows.schedStat (b : Bellows) : Word32 := w32 (b.bankB.toNat + at_ b.ovrCnt.toNat 16)

/-- CUT_STAT (R457). -/
def CutStat.word (c : CutStat) : Word32 :=
  w32 (c.phase.toNat + 4 * c.passed.toNat + 64 * c.failed.toNat + at_ c.switches.toNat 16)

/-- LANE_CMD_STATUS (R121). -/
def LaneUnit.cmdWord (l : LaneUnit) : Word32 := w32 (l.cmdState.toNat + 4 * l.cmdLane.toNat)

/-- HEARTH_h (R120, R208, R244, R268, R457). -/
def W.viewHearth (w : W) (h o : Nat) : Option Word32 :=
  let b := w.dev.blw h
  let l := w.dev.laneUnit h
  if 0x110 ≤ o ∧ o < 0x120 then some (w.dev.seam (4 * h + (o - 0x110) / 4)).stat
  else if o = 0x120 then some (w.lanePack h 0 10)
  else if o = 0x124 then some (w.lanePack h 10 3)
  else if o = 0x130 then some l.cmdWord
  else if 0x140 ≤ o ∧ o < 0x174 then some (w.dev.lane (13 * h + (o - 0x140) / 4)).cnt
  else if o = 0x180 then some l.lastFence
  else if o = 0x184 then some (lo32 l.lastTime)
  else if o = 0x188 then some (hi32 l.lastTime)
  else if o = 0x204 then some (w.dev.hob h).stat
  else if o = 0x220 then some (w.dev.hob h).marchFail
  else if o = 0x224 then some (w.dev.hob h).spares
  else if o = 0x318 then some b.stat
  else if o = 0x31C then some (w32 b.late.toNat)
  else if o = 0x320 then some b.safeSel
  else if 0x360 ≤ o ∧ o < 0x380 then some (w32 (maskOf 32 (fun i => b.faulted.contains (8 * (o - 0x360) + i))))
  else if o = 0x604 then some b.schedStat
  else if o = 0x1000 then some (w.dev.cutStat h).word
  else none

/-- The code of a Thimble state (R402). -/
def ThmSt.code : ThmSt → Nat
  | .boot => 1 | .noImage => 2 | .noStore => 3 | .idle => 4 | .measuring => 5 | .batch => 6 | .halted => 7

/-- Records not acknowledged (R415). -/
def Thimble.unacked (t : Thimble) : Nat := (t.last - t.acked).toNat

/-- SIGNATURE records not acknowledged. -/
def Thimble.sigUnacked (t : Thimble) : Nat :=
  (t.log.filter (fun r => r.typ == 7 && decide (t.acked.toNat < r.rnum.toNat))).length

/-- Measurement is inhibited (R415). -/
def Thimble.inhibit (t : Thimble) : Bool := decide (16128 ≤ t.unacked) || decide (1008 ≤ t.sigUnacked)

/-- THM_LINK (R434): STATE alone reads 0 while UP is 0. -/
def Thimble.link (t : Thimble) : Word32 :=
  w32 (t.up.toNat + 2 * t.sealOpen.toNat + 4 * t.inhibit.toNat + 8 * (if t.up then t.st.code else 0))

/-- THMG (R434). -/
def W.viewThmg (w : W) (o : Nat) : Option Word32 :=
  if o = 0x2C then some w.dev.thm.gateStat
  else if o = 0x30 then some w.dev.thm.gateRnum
  else if o = 0x34 then some w.dev.thm.link
  else none

/-- The sixteen words of a Thimble record (R410). -/
def ThmRec.words (r : ThmRec) : List Word32 :=
  [r.rnum, r.info, lo32 r.time, hi32 r.time, r.batch] ++ (r.ps ++ List.replicate 6 0).take 6 ++ [r.tag] ++
  (List.range 4).map (fun i => wordAt r.prev (4 * i))

/-- Steps left of the audit counter (R417). -/
def W.auditLeft (w : W) : Nat := 4095 - w.fuse.audit

/-- The level notices of R430 whose condition holds in the Thimble: VCT is in range where it runs. -/
def W.noticeOn (w : W) (k : Nat) : Bool :=
  let t := w.dev.thm
  if k = 0 then !t.up
  else if k = 1 then t.powered && t.refLost
  else if k = 3 then t.powered && t.sealOpen
  else if k = 4 then t.powered && t.inhibit
  else if k = 5 then t.powered && decide (12288 ≤ t.unacked)
  else if k = 11 then t.powered && decide (w.auditLeft ≤ 64)
  else false

/-- NOTICES (R426), as the Thimble knows them. -/
def W.noticeWord (w : W) : Word32 := w32 (maskOf 12 w.noticeOn)

/-- The public modulus of the device's own key pair `n`, identity or record key: free values of the model.
(DESIGN CHOICE: assumption 50.) -/
def recModulus (n : Nat) : List Byte := Config.freeBytes n 384
/-- The exponent. -/
def recExponent (n : Nat) : List Byte := (List.range 4).map (fun i => Config.freeByte n (384 + i))
/-- The private exponent of the device's own key pair `n`: sealed, and a free value of the model.
(DESIGN CHOICE: assumption 50.) -/
def recPrivate (n : Nat) : Nat := ofBe ((List.range 384).map (fun i => Config.freeByte n (388 + i)))
/-- The signature that the device's own key pair `n` makes (R413, R450), with the salt that the free string `salt` gives.
(DESIGN CHOICE: assumption 50.) -/
def ownSign (n salt : Nat) (msg : List Byte) : List Byte := rsaSign (recModulus n) (recPrivate n) (Config.freeBytes salt 32) msg
/-- Digest of the public key: modulus and exponent. -/
def keyDigest (modulus expo : List Byte) : List Byte := sha256 (modulus ++ expo)

/-- The 16 KiB of parameter words. -/
def paramBytes (t : Tbl Word32) : List Byte := (List.range 4096).flatMap (fun i => le 4 (t.getD i 0).toNat)

/-- PARAM_DIGEST (R418). -/
def Thimble.paramDigest (t : Thimble) : List Byte := if t.storeOk then sha256 (paramBytes t.params) else []

/-- Word `i` of bytes that read 0 where they have no value. -/
def padWord (bs : List Byte) (o : Nat) : Word32 := wordAt (bs ++ List.replicate (o + 4 - bs.length) 0) o

/-- STATUS (R426), as it stands. -/
def W.thmState (w : W) : Word32 :=
  let t := w.dev.thm
  w32 (t.st.code + 16 * t.sealOpen.toNat + 32 * w.fuse.recordKey.isSome.toNat + 64 * t.slotB.toNat + 128 * t.fallback.toNat +
    256 * t.lifecycle.toNat + 2048 * t.inhibit.toNat + 4096 * t.signing.isSome.toNat + 8192 * (!t.staged.isEmpty).toNat)

/-- The words that a rewrite of the status page with PAGE_SEQ `seq` leaves (R426). -/
def W.thmWords (w : W) (seq : Word32) : List Word32 :=
  let t := w.dev.thm
  [0x4C4D4854, seq, w.thmState, w32 (w.fuse.audit + at_ (4095 - w.fuse.audit) 16),
   lo32 t.time, hi32 t.time, t.last, t.acked, t.signed, t.ringCount, t.batch, t.resp, t.respRnum, t.points,
   w.noticeWord, t.live]

/-- The status page as last rewritten (R426). -/
def W.thmStatus (w : W) (o : Nat) : Word32 := w.dev.thm.page.getD (o / 4) 0

/-- The legal page (R427): where no image runs its digest has no value. -/
def W.thmLegal (w : W) (o : Nat) : Word32 :=
  let t := w.dev.thm
  if o < 0x20 then padWord t.paramDigest o
  else if o < 0x40 then (if t.fwRuns then padWord t.imgDigest (o - 0x20) else 0)
  else if 0x40 ≤ o ∧ o < 0x60 then
    match w.fuse.recordKey with
    | some n => padWord (keyDigest (recModulus n) (recExponent n)) (o - 0x40)
    | none => 0
  else if o = 0x60 then w32 w.fuse.audit
  else if o = 0x64 then w32 t.version.toNat
  else if 0x70 ≤ o ∧ o < 0x80 then padWord t.chain (o - 0x70)
  else if 0x80 ≤ o ∧ o < 0x204 then
    match w.fuse.recordKey with
    | some n => padWord (recModulus n ++ recExponent n) (o - 0x80)
    | none => 0
  else 0

/-- A word of the mailbox (R425): 0 while the Thimble is unpowered or has opened no chain. -/
def W.mailbox (w : W) (o : Nat) : Word32 :=
  let t := w.dev.thm
  if t.powered = false ∨ t.chain.isEmpty ∨ w.isM = false then 0
  else if o < 0x1000 then w.thmStatus o
  else if o < 0x2000 then w.thmLegal (o - 0x1000)
  else if o < 0xA000 then
    match t.table.get? ((o - 0x2000) / 0x200) with
    | some e => padWord (e.block ++ e.sig) ((o - 0x2000) % 0x200)
    | none => 0
  else if o < 0xA0C0 then
    let i := w.dev.thmIn ((o - 0xA000) / 4)
    w32 (i.sample.toNat + at_ i.clip.toNat 24 + at_ i.stuck.toNat 25 + at_ i.valid.toNat 26)
  else if 0xA100 ≤ o ∧ o < 0xA180 then
    let p := t.pulses.getD ((o - 0xA100) / 8) (0, 0)
    if o % 8 = 0 then p.1 else p.2
  else if 0x10000 ≤ o then
    match t.ring.get? ((o - 0x10000) / 0x40) with
    | some r => r.words.getD (o % 0x40 / 4) 0
    | none => 0
  else 0

/-- Bytes of the mailbox. -/
def W.mailboxBytes (w : W) (o n : Nat) : List Byte :=
  (List.range n).map (fun i => BitVec.ofNat 8 ((w.mailbox ((o + i) / 4 * 4)).toNat / 256 ^ ((o + i) % 4)))

end Sys2Proof.Machine
end

