-- ==== Sys2Proof/Machine/Gate.lean ====
section
/-! DEFINITION. Who may write a control register: the address map and the firewall units (R23 to R25, R177), the
width rule (R30), claimed blocks (R80), grants and the expert log (R81 to R83, R532). -/

namespace Sys2Proof.Machine

/-- The address is in no reserved range of R23 and R24; DRAM only as far as it is populated, and the windows of
configured positions; the window of a course's own position only once it has learnt MEMBERS.
(DEDUCED: assumption 33. DESIGN CHOICE: assumption 131.) -/
def W.mapped (w : W) (a : Nat) : Bool :=
  decide (a < 0x40000) || (decide (0x04000000 ≤ a) && decide (a < 0x10100000)) ||
  (decide (0x11000000 ≤ a) && decide (a < 0x11400000)) || (decide (0x11800000 ≤ a) && decide (a < 0x11840000)) ||
  (decide (0x12000000 ≤ a) && decide (a < 0x12040000)) || (blockAt a).isSome || w.dev.inDram a ||
  (decide (0x10000000000 ≤ a) && decide (a < 0x18000000000) &&
    decide ((a - 0x10000000000) / 0x1000000000 < max 1 w.dev.chim.members.toNat))

/-- The firewall unit of a mapped address (R177). (DEDUCED: assumption 56.) -/
def fwUnitOf (a : Nat) : Nat :=
  if a < 0x40000 then 15
  else if a < 0x10000000 then 0
  else if a < 0x11000000 then 1
  else if a < 0x11800000 then 2
  else if a < 0x12000000 then 3
  else if a < 0x20000000 then 4
  else if a < 0x20210000 then
    let i := (a - 0x20000000) / 0x10000
    if i = 1 then 5 else if i = 5 then 6 else if i = 8 then 7
    else if i < 5 then 9 else if i < 10 then 10 else if i < 15 then 11
    else if i < 24 then 13 else if i < 32 then 14 else 4
  else if a < 0x10000000000 then 8
  else 12

/-- The address belongs to a feature that is fused off (R25). (DEDUCED: assumption 117.) -/
def W.fusedOff (w : W) (a : Nat) : Bool :=
  !w.isM && ((decide (0x12000000 ≤ a) && decide (a < 0x12040000)) || (decide (0x20200000 ≤ a) && decide (a < 0x20210000)))

/-- The block is present on this device. -/
def W.hasBlock (w : W) (typ inst : Nat) : Bool :=
  allBlocks.contains (typ, inst) && (typ != 17 || w.isM)

/-- The block has RW-S fields (R35). -/
def hasStaged (typ : Nat) : Bool := ([1, 2, 3, 4, 5, 6, 7, 8, 10, 11, 14, 16] : List Nat).contains typ

/-- The block is claimed by the open transaction (R78). -/
def W.claimed (w : W) (typ inst : Nat) : Bool :=
  match w.dev.stoker.txn with
  | some t => t.blocks.contains (blockBase typ inst)
  | none => false

/-- An open grant with RIGHTS bit `r` on a block (R81). -/
def W.grantOn (w : W) (r typ : Nat) (inst : Option Nat) : Option Grant :=
  w.dev.stoker.grants.find? (fun g => bitAt g.rights r && g.typ == typ && (g.inst.isNone || g.inst == inst))

/-- Unread records of the expert log. -/
def Stoker.unread (s : Stoker) : Nat := (s.xlog.filter (fun r => !r.read)).length

/-- The log is full for FIELD (R83). -/
def W.xlogFull (w : W) : Bool := w.lifecycle == 2 && decide (4096 ≤ w.dev.stoker.unread)

/-- The record that makes room in a full expert log goes (R83): the oldest; in FIELD the oldest that was read. -/
def W.xlogRoom (w : W) : List XRec :=
  let l := w.dev.stoker.xlog
  if l.length < 4096 then l else if w.lifecycle == 2 then l.eraseP (fun r => r.read) else l.drop 1

/-- Enter a write in the expert log (R83). -/
def W.xlog (w : W) (grant : Word32) (m : Rid) (result : BitVec 2) (a : Nat) (v : Word32) : W :=
  w.upd fun d =>
    let s := d.stoker
    let r : XRec := { time := d.clock.tb, grant := grant, master := m, result := result, addr := a, value := v, rseq := s.xnext }
    { d with stoker := { s with xlog := w.xlogRoom ++ [r], xnext := s.xnext + 1 } }

/-- The application registers of R532, written without a grant; the data registers of the SPI masters and I2C controllers,
for which R512 gives no offset, are none. (DEDUCED: assumption 118. DESIGN CHOICE: assumption 133.) -/
def appRegister (typ o : Nat) : Bool :=
  match typ with
  | 6 => decide (0x100 ≤ o ∧ o < 0x1100) && o % 256 == 0
  | 5 => decide (0x2000 ≤ o ∧ o < 0x4000)
  | 8 => decide (0x100 ≤ o ∧ o < 0x1100)
  | 16 => o == 0x1004
  | 7 => decide (0x310 ≤ o ∧ o < 0x320)
  | _ => false

/-- Detail words of a write refused by R80 or R532: the spec names none. (DEDUCED: assumption 118.) -/
def W.expertBlocked (w : W) : W := w.raise 0x053 0 0

/-- A write of a control register of block (typ, inst) at offset `o` that its firewall admits: whether it may be
performed (R80, R83, R532). -/
def W.mayWrite (w : W) (m : Rid) (typ inst o : Nat) (v : Word32) : Bool × W :=
  let a := blockBase typ inst + o
  if m = w.stokerRid then (true, w)
  else
    let g := w.grantOn 0 typ (some inst)
    let staged := ((w.regRow typ o).map (fun r => r.kind == RegKind.rws)).getD false
    if w.claimed typ inst && (staged || o == 8 || o == 0x14) then
      let w := w.expertBlocked
      (false, if w.xlogFull then w else w.xlog ((g.map (·.id)).getD 0) m 1 a v)
    else if appRegister typ o then (true, w)
    else match g with
      | none => (false, w.expertBlocked)
      | some g =>
        if w.xlogFull then (false, w.level 0x054 0 0)
        else (true, w.xlog g.id m 0 a v)

/-- The firewall of a control register write (R177 to R180): the rule registers of units 5 and 6 are guarded by their
own unit as well. -/
def W.fwWrite (w : W) (m : Rid) (a : Nat) : Bool × W :=
  let u := (a - 0x200A0000 - 0x1000) / 0x400
  if 0x200A1000 ≤ a ∧ a < 0x200A5000 ∧ (u = 5 ∨ u = 6) ∧ 0x100 ≤ (a - 0x200A1000) % 0x400 ∧ (a - 0x200A1000) % 0x400 < 0x300 ∧ m ≠ w.stokerRid then
    (false, w.fwRefuse u (BitVec.ofNat 48 a) m .write)
  else w.fwCheck (fwUnitOf a) (BitVec.ofNat 48 a) m .write

/-- How a refused or reserved access ends for the requester: a debug master reads 0x0BAD_0BAD and its writes are
dropped (R181). -/
def refused (m : Rid) (n e : Nat) (read : Bool) : Acc :=
  if ridClass m = 7 then
    if read then .data ((List.range n).map (fun i => ([0xAD#8, 0x0B#8, 0xAD#8, 0x0B#8] : List Byte).getD (i % 4) 0)) else .done
  else .err e

/-- A row that is a write of one control register: fused off, refused by the firewall, not granted, or performed by
`act`. (DEDUCED: assumption 43.) -/
def W.writeRow (w : W) (m : Rid) (typ inst o : Nat) (v : Word32) (act : W → W) : W :=
  let a := blockBase typ inst + o
  w.powered fun w =>
  if w.fusedOff a then w.answer .done
  else
    let (ok, w) := w.fwWrite m a
    if ok then
      let (ok, w) := w.mayWrite m typ inst o v
      if ok then (act w).answer .done
      else match refused m 4 eFirewall false with
        | .err e => w.answer (.error (BitVec.ofNat 8 e))
        | _ => w.answer .done
    else match refused m 4 eFirewall false with
      | .err e => w.answer (.error (BitVec.ofNat 8 e))
      | _ => w.answer .done

end Sys2Proof.Machine
end

