-- ==== Sys2Proof/Machine/Dampers.lean ====
section
/-! DEFINITION. The damper channels' own commands and events (R277 to R280, R305). -/

namespace Sys2Proof.Machine

/-- Offset of CH_CMD_h. -/
def chCmdOff (h : Nat) : Nat := 0x100 + 256 * h

/-- The channels of a page named by a mask. -/
def pageChs (h mask : Nat) : List Nat := (bitsOf 4 mask).map (4 * h + ·)

/-- Every ARMED channel of a page returns to SAFE, and no ARM of the page stands any more. -/
def W.unarm (w : W) (h : Nat) : W :=
  w.each (pageChs h 15) fun n w =>
    (if (w.dev.damper n).st = .armed then w.safeCh n else w).upd fun d => d.onDamper n fun c => { c with armOk := false }

/-- Record a refusal. -/
def W.damperRefuse (w : W) (n : Nat) (code : BitVec 3) : W := w.upd fun d => d.onDamper n fun c => { c with refusal := code }

/-- A lasting hold of the device or of the channel's hearth, or a group selection, holds the channel. -/
def W.damperHeld (w : W) (n : Nat) : Bool :=
  (w.dev.damper n).st == DampSt.forced || w.forcedBy n

/-- The first check of R279 that channel `n` fails under an ENERGISE of `m` with mask `mask`, as REFUSAL codes; one that
left ARMED under an ARM that still stands fails a later check, or none but this: 6. (DEDUCED: assumption 150.) -/
def W.energiseCheck (w : W) (m : Rid) (mask : BitVec 4) (n : Nat) : Option (BitVec 3) :=
  let c := w.dev.damper n
  let cfg := w.reg 6 0 (0x2000 + 4 * n)
  if c.armOk = false ∨ c.armBy ≠ m ∨ c.armMask ≠ mask ∨ c.armAt.toNat + 10000 < w.dev.now then some 6
  else if w.dev.sys.mode.running = false then some 2
  else if bitAt cfg 0 = false then some 3
  else if w.damperHeld n then some 4
  else if bitAt cfg 1 ∧ c.fb then some 5
  else if c.st ≠ .armed then some 6
  else none

/-- ENERGISE with the correct key (R279). -/
def W.energise (w : W) (m : Rid) (h : Nat) (mask : BitVec 4) : W :=
  let chs := pageChs h mask.toNat
  let fails := chs.map (fun n => (n, w.energiseCheck m mask n))
  if fails.all (fun p => p.2.isNone) then
    w.each chs fun n w => w.upd fun d => d.onDamper n fun c => { c with st := .starting, armOk := false }
  else (w.each fails fun p w => w.damperRefuse p.1 (p.2.getD 7)).unarm h

/-- RB_SETTLE of channel `n` in ns. -/
def W.settleNs (w : W) (n : Nat) : Nat := 100000 * fld (w.reg 6 0 (0x2000 + 4 * n)) 4 9

/-- The feedback of a channel as seen now (R280); the time of agreement starts where it turns de-energised (R278). -/
def Dev.seeFb (d : Dev) (n : Nat) (fb : Bool) : Dev :=
  d.onDamper n fun c => { c with fb := fb, agreeAt := if c.fb && !fb then d.clock.ivl else c.agreeAt }

/-- DE-ENERGISE (R278): a FAULT channel leaves where its readback and pads have agreed for one RB_SETTLE.
(DEDUCED: assumption 93.) -/
def W.deEnergise (w : W) (h : Nat) (mask : BitVec 4) : W :=
  (w.each (pageChs h mask.toNat) fun n w =>
    let c := w.dev.damper n
    if c.st = .fault then
      if c.mismatch.isNone ∧ (w.rbEn n = false ∨ c.fb = false) ∧ c.agreeAt.toNat + w.settleNs n ≤ w.dev.now then
        w.upd fun d => d.onDamper n fun c => { c with st := if w.forcedBy n then .forced else .safe }
      else w
    else w.safeCh n).unarm h

/-- ARM with the correct key (R278). -/
def W.armChs (w : W) (m : Rid) (h : Nat) (mask : BitVec 4) : W :=
  (w.unarm h).each (pageChs h mask.toNat) fun n w => w.upd fun d => d.onDamper n fun c =>
    if c.st = .safe then { c with st := .armed, armBy := m, armMask := mask, armAt := d.clock.ivl, armOk := true } else c

/-- A CH_CMD write (R305). -/
def W.chCmd (w : W) (m : Rid) (h : Nat) (v : Word32) : W :=
  let mask := BitVec.ofNat 4 (fld v 0 4)
  let key := fld v 16 16
  let wrong := fun (w : W) => (w.each (pageChs h mask.toNat) fun n w => w.damperRefuse n 1).unarm h
  match fld v 4 4 with
  | 1 => if key = 0xD4A7 then w.armChs m h mask else wrong w
  | 2 => if key = 0x2B58 then w.energise m h mask else wrong w
  | 3 => w.deEnergise h mask
  | _ => w.unarm h

/-- A mismatch of channel `n` (R280): FAULT, its source, and source 1 where it meets a reaction in progress that forced the
channel (R276), both detected at one instant (R274). -/
def W.damperMismatch (w : W) (n : Nat) (cause : BitVec 2) : W :=
  let c := w.dev.damper n
  let hw := w.dev.flue.reacting && w.dev.flue.forcing.contains n
  let w := w.upd fun d => d.onDamper n fun x =>
    { x with st := .fault, mismatch := some cause, cause := cause, settling := c.st == DampSt.live || (c.settling && cause == 0),
             fb := if cause = 1 then true else if cause = 0 then x.fb else false }
  let info := w32 (n + at_ cause.toNat 6)
  if hw then w.raiseTwo 0x001 (0x10 + n) 0 info else w.level (0x10 + n) info 0

/-- The cause can arise in the channel's state (R280). (DESIGN CHOICE: assumption 9.) -/
def W.mismatchFits (w : W) (n : Nat) (cause : BitVec 2) : Bool :=
  let c := w.dev.damper n
  match cause.toNat with
  | 0 => true
  | 1 => w.rbEn n && c.st != DampSt.live && !c.settling
  | 2 => w.rbEn n && c.st == DampSt.live && !c.settling
  | _ => w.rbEn n && c.st == DampSt.live && c.settling

/-- ARM (R278, R279). -/
def execArm (m : Rid) (h : HearthId) (v : Word32) (s : State) : Host.Outcome State Fault Refusal :=
  run s fun w => w.writeRow m 6 0 (chCmdOff h) (setFld v 4 4 1) fun w => w.chCmd m h (setFld v 4 4 1)

/-- ENERGISE (R279): `fb` is what the channels' feedback shows after RB_POL. -/
def execEnergise (m : Rid) (h : HearthId) (v : Word32) (fb : BitVec 4) (s : State) : Host.Outcome State Fault Refusal :=
  run s fun w =>
    let w := w.each (List.range 4) fun i w => w.upd fun d => d.seeFb (4 * h + i) (bitAt fb i)
    w.writeRow m 6 0 (chCmdOff h) (setFld v 4 4 2) fun w => w.chCmd m h (setFld v 4 4 2)

/-- DE_ENERGISE (R278). -/
def execDeEnergise (m : Rid) (h : HearthId) (v : Word32) (s : State) : Host.Outcome State Fault Refusal :=
  run s fun w => w.writeRow m 6 0 (chCmdOff h) (setFld v 4 4 3) fun w => w.chCmd m h (setFld v 4 4 3)

/-- ARM_EXPIRY (R278): 10 µs have passed since the page's ARM. -/
def execArmExpiry (h : HearthId) (s : State) : Host.Outcome State Fault Refusal :=
  run s fun w =>
    let armed := (pageChs h 15).filter (fun n => (w.dev.damper n).st == DampSt.armed)
    match armed.map (fun n => (w.dev.damper n).armAt.toNat) with
    | [] => w
    | t :: ts => (w.upd fun d => d.advanceIvl (ts.foldl max t + 10000)).unarm h

/-- The levels of DMP_A_n and DMP_B_n (R277): the four phases of a live channel's period on the interval counter, both low
otherwise, and undriven in OFF. -/
def W.damperPins (w : W) (n : Nat) : Option (Bool × Bool) :=
  if w.dev.sys.mode = .off then none
  else if (w.dev.damper n).st = .live then
    let t := w.dev.now % 100000
    some (decide (500 ≤ t ∧ t < 50000), decide (50500 ≤ t))
  else some (false, false)

/-- DAMPER_PERIOD_BOUNDARY (R277, R278). (DESIGN CHOICE: assumption 10.) -/
def execDamperPeriodBoundary (s : State) : Host.Outcome State Fault Refusal :=
  run s fun w =>
    let w := w.upd fun d => d.advanceIvl ((d.now / 100000 + 1) * 100000)
    w.each (List.range 64) fun n w =>
      if (w.dev.damper n).st = .starting then w.upd fun d => d.onDamper n fun c => { c with st := .live, settling := true } else w

/-- DAMPER_MISMATCH (R280). -/
def execDamperMismatch (n : DamperId) (cause : BitVec 2) (s : State) : Host.Outcome State Fault Refusal :=
  run s fun w => if w.mismatchFits n cause then w.damperMismatch n cause else w

/-- RB_SETTLE_EXPIRY (R275, R280): the settle time of a channel ends and its feedback is judged. -/
def execRbSettleExpiry (n : DamperId) (fb : Bool) (s : State) : Host.Outcome State Fault Refusal :=
  run s fun w =>
    let c := w.dev.damper n
    if c.settling ∨ w.dev.flue.unconf.contains n.val then
      let w := w.upd fun d => (d.seeFb n fb).onDamper n fun c => { c with settling := false }
      let bad := w.rbEn n && (if c.st = .live then !fb else fb) && !(c.st == DampSt.fault && c.mismatch.isSome)
      let w := if bad then w.damperMismatch n (if c.st = .live then 3 else 1) else w
      w.upd fun d => { d with flue := { d.flue with unconf := d.flue.unconf.filter (· != n.val) } }
    else w

end Sys2Proof.Machine
end

