-- ==== Sys2Proof/Machine/FlueRows.lean ====
section
/-! DEFINITION. The events of the Flue: detection, the record paths, the configuration sweep, the ends of SAFE, QUIET
and the local holds, the error pin, OP_RESET_N and the reference clocks (R271 to R293). -/

namespace Sys2Proof.Machine

/-- BELLOWS_CHECK stops the bellows (R235). -/
def W.bellowsCheck (w : W) (h : Nat) (d0 d1 : Word32) : W :=
  ((w.upd fun d => d.onBlw h fun b => { b with checked := true }).stopOne h).level (0x240 + h) d0 d1

/-- Level sources whose condition lies outside the block: its end is an event of its own. The other level sources
follow the state that they report. (DEDUCED: assumption 62.) -/
def externalSource (s : Nat) : Bool :=
  decide (2 ≤ s ∧ s ≤ 7) || decide (0x10 ≤ s ∧ s < 0x50) || decide (0x60 ≤ s ∧ s ≤ 0x6A) ||
  decide (0x301 ≤ s ∧ s ≤ 0x302) || decide (0x3D0 ≤ s ∧ s < 0x3D4)

/-- LEVEL_SOURCE_INACTIVE (R271): the condition of the source ends. The Thimble's reference returns to it whatever the Flue
knows of its loss (R9, R430). (DEDUCED: assumptions 13, 62.) -/
def execLevelSourceInactive (src : SourceId) (s : State) : Host.Outcome State Fault Refusal :=
  run s fun w =>
    let k := src.val
    if externalSource k && (w.active k || (decide (k = 0x301) && w.dev.thm.refLost)) then
      if k = 6 then
        match w.dev.sys.opHighAt with
        | none => w
        | some t =>
          (w.upd fun d => { (d.advanceIvl (t.toNat + 1000000000)) with sys := { d.sys with opStuck := false, opHighAt := none } }).inactive k
      else
        let w := if 0x10 ≤ k ∧ k < 0x50 then
            w.upd fun d => d.onDamper (k - 0x10) fun c =>
              { c with fb := if c.mismatch = some 1 then false else c.fb, mismatch := none, agreeAt := d.clock.ivl }
          else if k = 2 then w.upd fun d => { d with clock := { d.clock with backup := false } }
          else if k = 0x301 then w.upd fun d => { d with thm := { d.thm with refLost := false } }
          else w
        if w.active k then w.inactive k else w
    else w

/-- REACTION_COMPLETE (R275): the drive phase is over and every forced channel has confirmed. -/
def execReactionComplete (s : State) : Host.Outcome State Fault Refusal :=
  run s fun w =>
    let w := w.each w.dev.flue.unconf fun n w => w.upd fun d => d.onDamper n fun c =>
      if c.st = .fault then c else { c with fb := false, settling := false }
    w.upd fun d => { d with flue := { d.flue with driving := false, unconf := [], forcing := [] } }

/-- The next of `cands`, which rise, after `ptr`, wrapping (R290). -/
def roundRobin (ptr : Nat) (cands : List Nat) : Option Nat :=
  match cands.find? (fun s => ptr < s) with
  | some s => some s
  | none => cands.head?

/-- The record that the intake makes of a source's pending events (R290). -/
def Src.record (x : Src) : Rec :=
  if x.count = 1 then x.first
  else { x.first with typ := 1, count := x.count, span := w32 (min (x.last - x.first.time).toNat 0xFFFFFFFF) }

/-- INTAKE_TAKE (R290, R291): one source is taken. -/
def execIntakeTake (s : State) : Host.Outcome State Fault Refusal :=
  run s fun w =>
    let f := w.dev.flue
    let waiting := (f.srcs.rows.filter (fun r => r.2.count != 0)).map (·.1)
    let trips := waiting.filter (fun s => 2 ≤ w.sev s)
    let notes := waiting.filter (fun s => w.sev s < 2)
    let take := fun (w : W) (k : Nat) =>
      let r := (w.dev.src k).record
      let w := if 2 ≤ w.sev k then w else w.history r
      w.upd fun d =>
        let f := d.flue
        ({ d with flue := { f with fifo := f.fifo ++ [r], countRecs := if r.typ = 1 then satInc f.countRecs else f.countRecs,
                                   ptrTrip := if 2 ≤ w.sev k then k else f.ptrTrip,
                                   ptrNote := if 2 ≤ w.sev k then f.ptrNote else k } }).onSrc k fun x => { x with count := 0 }
    match (if f.fifo.length < 64 then roundRobin f.ptrTrip trips else none) with
    | some k => take w k
    | none =>
      match (if f.fifo.length < 48 then roundRobin f.ptrNote notes else none) with
      | some k => take w k
      | none => w

/-- The event ring's queue. -/
def W.evq (w : W) : Nat := fld (w.reg 2 0 0x34) 0 12

/-- One record into the event ring through the TRY port, or refused there: whether it was taken.
(DEDUCED: assumption 90.) -/
def W.ringOne (w : W) (r : Rec) : Bool × W :=
  let (ok, w) := w.tryPacket w.flueRid w.evq (Rec.words { r with rseq := w.dev.flue.evqNext })
  (ok, if ok then w.upd fun d => { d with flue := { d.flue with evqNext := d.flue.evqNext + 1 } } else w)

/-- What the gap record after a device reset reports (R289, R292); where the reset discarded none, no first record gives its
TIME, and it is a free value. (DESIGN CHOICE: assumption 151.) -/
def W.ringGap (w : W) : Gap × W :=
  let g := w.dev.flue.evqGap
  if g.n = 0 then
    let (k, w) := w.fresh
    ({ n := 0, first := Config.freeWord k, last := Config.freeWord k }, w)
  else (g, w)

/-- EVENT_RING_ENQUEUE (R292): the oldest record of the FIFO; after a device reset a gap record comes first. -/
def execEventRingEnqueue (s : State) : Host.Outcome State Fault Refusal :=
  run s fun w =>
    let m := w.dev.sys.mode
    if m = .off ∨ m = .hold then w
    else match w.dev.flue.fifo with
      | [] => w
      | r :: rest =>
        let (ready, w) := if w.dev.flue.evqDue = false then (true, w) else
          let (g, w) := w.ringGap
          let (ok, w) := w.ringOne (gapRec g m.code)
          (ok, if ok then w.upd fun d => { d with flue := { d.flue with evqGap := {}, evqDue := false } } else w)
        let (ok, w) := if ready then w.ringOne r else (false, w)
        (if ok then w.upd fun d => { d with flue := { d.flue with fifo := rest } } else w).settle

/-- The record that the words of a packet spell. -/
def Rec.ofWords (ws : List Word32) : Rec :=
  let g := fun i => ws.getD i 0
  let h := g 2
  { time := w64 ((g 0).toNat + 2 ^ 32 * (g 1).toNat), src := fld h 0 10, sev := BitVec.ofNat 2 (fld h 10 2),
    react := BitVec.ofNat 5 (fld h 12 5), typ := BitVec.ofNat 3 (fld h 17 3), mode := BitVec.ofNat 4 (fld h 20 4),
    test := bitAt h 24, d0 := g 3, d1 := g 4, count := g 5, span := g 6, rseq := g 7 }

/-- The device address of record slot `i` of the spill ring (R292): from 49 MiB below the top of usable DRAM. -/
def Dev.spillAddr (d : Dev) (i : Nat) : Nat := dramBase + d.dramBytes - 49 * 0x100000 + 32 * (i % 32768)

/-- Before it first uses the spill ring after KINDLE, the Stoker fills it with zeros, as MEM_FILL does (R364). -/
def W.fillRing (w : W) : W :=
  if w.dev.dram.ringFilled then w
  else
    let first := w.dev.spillAddr 0 / 64
    let ls := ((List.range 16384).map (first + ·)).filter fun l => !w.dev.retiredAt (l * 64) && !w.dev.chanStopped (w.dev.lineChan l)
    (w.each ls fun l w => w.writeLine (w.dev.lineChan l) l (List.replicate 64 0)).upd fun d =>
      { d with dram := { d.dram with ringFilled := true } }

/-- Write a record into the spill ring (R292). -/
def W.spillOne (w : W) (r : Rec) : W :=
  if w.dev.dramBytes = 0 then w
  else
    let i := r.rseq.toNat % 32768
    let a := w.dev.spillAddr i
    let (ok, w) := w.fwCheck 8 (BitVec.ofNat 48 a) w.flueRid .write
    if ok = false then w
    else
      let (acc, w) := w.fillRing.dramWrite w.flueRid a (wordsLe r.words)
      let left := w.dev.flue.spill.filter fun x => x.toNat % 32768 != i
      w.upd fun d => { d with flue := { d.flue with spill := if acc = .done then left ++ [r.rseq] else left } }

/-- Move one record from the event ring, whose page unit 3 judges as the Stoker's read (R178). -/
def W.moveOne (w : W) : W :=
  let (ok, w) := w.fwCheck 3 (BitVec.ofNat 48 (pageAddr w.evq 0)) w.stokerRid .read
  if ok = false then w else
  match w.deqPacket w.stokerRid w.evq with
  | (none, w) => w
  | (some ws, w) =>
    let r := Rec.ofWords ws
    let w := w.spillOne r
    if 2 ≤ r.sev.toNat then
      w.upd fun d => { d with images := { d.images with flash := { d.images.flash with
        hist := (r :: d.images.flash.hist).take 8192 } } }
    else w

/-- SPILL_MOVE (R292): the Stoker moves up to `n` records. -/
def execSpillMove (n : Nat) (s : State) : Host.Outcome State Fault Refusal :=
  run s fun w =>
    if w.dev.stoker.serving then (w.each (List.range (min n 1024)) fun _ w => w.moveOne).settle else w

/-- Offset and block type of word `i` of the Flue's voted configuration (R276, R302). -/
def cfgWord (i : Nat) : Option (Nat × Nat) :=
  if i < 1024 then some (2, 0x1000 + 4 * i)
  else if i < 1029 then some (2, 0x24 + 4 * (i - 1024))
  else if i < 1093 then some (6, 0x2000 + 4 * (i - 1029))
  else none

/-- CFG_SWEEP (R276): nothing differs, or word `i` differs in one copy, or in all three (`true`). A mismatch applies the
hardware SAFE though FLUE_CFG_VOTE be active already, and during a reaction raises FLUE_REACT_FAULT as well. -/
def execCfgSweep (bad : Option (Nat × Bool)) (s : State) : Host.Outcome State Fault Refusal :=
  run s fun w =>
    match bad with
    | none => if w.active 0 && !w.dev.flue.noMajority then w.inactive 0 else w
    | some (i, all) =>
      match cfgWord i with
      | none => w
      | some (typ, o) =>
        let w := w.upd fun d => { d with flue := { d.flue with
          mismatch := true, word := BitVec.ofNat 11 i, noMajority := d.flue.noMajority || all } }
        let hw := w.dev.flue.reacting
        let again := w.active 0
        let w := if all then w.setReg typ 0 o (w.regReset typ o) else w
        let w := if hw then w.raiseTwo 0 1 0 0 else if again then w else w.raise 0 0 0
        if again then w.hwForce 0 else w

/-- SAFE may be left (R41, R283): a Stoker that is being restarted serves first (R124, R316). -/
def W.safeDone (w : W) : Bool :=
  let f := w.dev.flue
  !w.anyActive f.tripSet && !f.reacting && !w.dev.stoker.restarting &&
  (List.range 64).all (fun n =>
    let c := w.dev.damper n
    !(c.st == DampSt.fault && (c.cause == 0 || c.cause == 1)))

/-- SAFE_EXIT (R41, R44): QUIET, or LOCKOUT where the recovery window holds the limit. -/
def execSafeExit (s : State) : Host.Outcome State Fault Refusal :=
  run s fun w =>
    if w.dev.sys.mode = .safe ∧ w.safeDone then
      if w.recovLimit ≤ w.recovCount then w.setMode .lockout else w.setMode .quiet
    else w

/-- LOCKOUT_RECORD_WRITTEN (R45). -/
def execLockoutRecordWritten (s : State) : Host.Outcome State Fault Refusal :=
  run s fun w =>
    if w.dev.sys.mode = .lockout then
      w.upd fun d => { d with sys := { d.sys with lockoutRec := true },
                              images := { d.images with flash := { d.images.flash with lockout := true } } }
    else w

/-- QUIET_PERIOD_EXPIRY (R284, R44). -/
def execQuietPeriodExpiry (s : State) : Host.Outcome State Fault Refusal :=
  run s fun w =>
    if w.dev.sys.mode = .quiet then
      let w := w.upd fun d => d.advanceIvl (d.flue.quietAt.toNat + 1000000 * fld (w.reg 2 0 0x24) 0 20)
      if w.dev.flue.retMode = 4 then w.setMode w.runMode else w.setMode .prepare
    else w

/-- 24 h in ns. -/
def dayNs : Nat := 86400000000000

/-- RECOVERY_ENTRY_EXPIRY (R285, R286): the oldest entry of the device's window, or of a hearth's local window. -/
def execRecoveryEntryExpiry (hearth : Option HearthId) (s : State) : Host.Outcome State Fault Refusal :=
  run s fun w =>
    match hearth with
    | none =>
      match w.dev.flue.window with
      | [] => w
      | t :: r => w.upd fun d => { (d.advanceIvl (t.toNat + dayNs)) with flue := { d.flue with window := r } }
    | some h =>
      match w.dev.flue.localWin.getD h [] with
      | [] => w
      | t :: r => w.upd fun d =>
          { (d.advanceIvl (t.toNat + dayNs)) with flue := { d.flue with localWin := d.flue.localWin.set h r } }

/-- LOCAL_QUIET_EXPIRY (R286): the hold and the selections of a hearth whose time has run are released. -/
def execLocalQuietExpiry (h : HearthId) (s : State) : Host.Outcome State Fault Refusal :=
  run s fun w =>
    let ms := fld (w.reg 2 0 0x2C) 0 20
    if ms = 0 then w
    else
      let free := fun (x : Hold) => !x.latched && !w.anyActive x.srcs
      let hold := (w.dev.flue.holds.get? h).filter free
      let sels := w.dev.flue.sels.rows.filter (fun r => r.1 / 16 == h.val && free r.2)
      let times := (hold.toList ++ sels.map (·.2)).map (fun x => x.last.toNat + 1000000 * ms)
      match times with
      | [] => w
      | t :: ts =>
        let w := w.upd fun d => d.advanceIvl (ts.foldl min t)
        let due := fun (x : Hold) => decide (x.last.toNat + 1000000 * ms ≤ w.dev.now)
        let w := if hold.any due then w.releaseHold h else w
        w.each (sels.filter (fun r => due r.2)) fun r w => w.releaseSel r.1

/-- ERRPIN_HOLD_EXPIRY (R282). -/
def execErrpinHoldExpiry (s : State) : Host.Outcome State Fault Refusal :=
  run s fun w =>
    if w.dev.flue.errPin then
      let w := w.upd fun d => d.advanceIvl w.errEnd
      if w.dev.flue.errRel && !w.errSource then w.errRelease else w.errAuto
    else w

/-- OP_RESET_DEBOUNCED (R287). -/
def execOpResetDebounced (s : State) : Host.Outcome State Fault Refusal :=
  run s fun w => w.upd fun d => { d with sys := { d.sys with opReset := true, opHighAt := none } }

/-- OP_RESET_STUCK (R287). -/
def execOpResetStuck (s : State) : Host.Outcome State Fault Refusal :=
  run s fun w =>
    if w.dev.sys.opReset then
      (w.upd fun d => { d with sys := { d.sys with opStuck := true } }).level 6 0 0
    else w

/-- OP_RESET_N_HIGH (R287): the high time of a stuck input begins. -/
def execOpResetNHigh (s : State) : Host.Outcome State Fault Refusal :=
  run s fun w => w.upd fun d => { d with sys := { d.sys with
    opReset := false, opHighAt := if d.sys.opStuck then some d.clock.ivl else none } }

/-- The operator input as the device takes it: low, and not ignored (R287). -/
def Sys.opLow (s : Sys) : Bool := s.opReset && !s.opStuck

/-- Halt KINDLE (R51). -/
def W.kindleHalt (w : W) (err step : BitVec 4) : W :=
  w.upd fun d => { d with sys := { d.sys with kindleErr := err, errStep := step } }

/-- REFCLK_LOSS (R288, R430): the loss of REFCLK_TB in step 1 halts KINDLE (R51). -/
def execRefclkLoss (which : RefClk) (kHz : Word32) (s : State) : Host.Outcome State Fault Refusal :=
  run s fun w =>
    match which with
    | .tb =>
      let w := (w.upd fun d => { d with clock := { d.clock with backup := true } }).level 2 kHz 0
      if w.dev.sys.mode = .kindle ∧ !w.dev.sys.stepsDone.contains 1 ∧ w.dev.sys.kindleErr = 0 then w.kindleHalt 1 1 else w
    | .mem => w.level 3 kHz 0
    | .pcie => w.level 4 kHz 0
    | .thm => if w.isM then (w.upd fun d => { d with thm := { d.thm with refLost := true, refKHz := kHz } }).level 0x301 w.thmState kHz else w

end Sys2Proof.Machine
end

