-- ==== Sys2Proof/Machine/Tokens.lean ====
section
/-! DEFINITION. The tokens that a lane sends its seam (R88 to R91), and what a token that is open keeps in the core
(R88, R94). -/

namespace Sys2Proof.Machine

/-- The digest of a store or of a half of one (R91): address, data and byte-enable mask, 17 bytes.
(DESIGN CHOICE: assumption 157.) -/
def halfDigest (s : StoreHalf) : Word32 :=
  crc32c (le 8 (s.addr.toNat % 2 ^ 48) ++ le 8 (s.data.toNat % 2 ^ (8 * s.size)) ++ [BitVec.ofNat 8 (2 ^ s.size - 1)])

/-- STORE_DIG of a retirement (R91): 0 without a store, and of a split one the CRC-32C over the digests of its halves. -/
def storeDig : List StoreHalf → Word32
  | [] => 0
  | [s] => halfDigest s
  | ss => crc32c (ss.flatMap fun s => le 4 (halfDigest s).toNat)

/-- The commit token of a lane (R89): fields that it does not use are 0. -/
def commitToken (t : LaneCommit) : CommitTok :=
  let d := t.dest.getD (0, 0, if t.event = 0 then 0 else t.saved)
  { pc := t.pc, event := t.event, destV := t.dest.isSome, destClass := d.1, destIdx := d.2.1, destVal := d.2.2,
    storeV := !t.stores.isEmpty, storeDig := storeDig t.stores }

/-- The request token of a lane (R90): OPD_DIG of an atomic is the CRC-32C over its operand. -/
def requestToken (t : LaneRequest) : RequestTok :=
  { kind := t.kind, priv := t.priv, addr := t.addr, size := t.size, tag := if t.kind = 0 then 0 else t.tag,
    opdDig := if t.kind = 2 then crc32c (le 8 t.opd.toNat) else 0 }

/-- The commit token of an entry (R89): EVENT 0x01 of an interrupt, or the cause code of a trap; the first handler
instruction, and the saved program counter. -/
def entryToken (event : Nat) (handler epc : Word64) : CommitTok :=
  (commitToken { pc := BitVec.ofNat 62 (handler.toNat / 4), event := BitVec.ofNat 8 event, dest := none, saved := epc, stores := [] })

/-- A buffered store as its token names it. -/
def Store.half (s : Store) : StoreHalf := { addr := s.addr, data := s.data, size := s.size }

/-- The entries of one store in a store buffer: both halves of a split store together (R157). -/
def storeGroup (sb : List Store) : List Store :=
  match sb with
  | [] => []
  | e :: r => if e.split then (e :: r).take 2 else [e]

/-- SIZE of a request token. -/
def sizeCode (n : Nat) : BitVec 3 := if n = 1 then 0 else if n = 2 then 1 else if n = 4 then 2 else 3

/-- The request token of a load or an atomic (R90). -/
def LoadOp.token (o : LoadOp) (priv : Bool) : RequestTok :=
  requestToken { kind := if o.atomic.isSome then 2 else 1, priv := priv, addr := BitVec.ofNat 48 o.addr.toNat, size := sizeCode o.size,
                      tag := BitVec.ofNat 6 (o.rd.toNat + 32 * o.isF.toNat), opd := (o.atomic.map (·.2)).getD 0 }

/-- A position of the vote that has tokens and no majority yet, one of which `sel` selects: what it carries has not been
accepted, and stays in the core (R88). -/
def openAt {τ : Type} (ps : List (Pos τ)) (sel : τ → Bool) : Bool := ps.any fun p => p.accepted.isNone && p.toks.any fun t => sel t.2

/-- The vote on the store has begun and has not accepted it (R88). A store of which no token tells is the voted core's.
(DESIGN CHOICE: assumption 144.) -/
def Seam.storeOpen (s : Seam) (es : List Store) : Bool :=
  openAt s.commits fun t => t.storeV && t.storeDig == storeDig (es.map Store.half)

/-- The vote on a request token has begun and has not accepted it (R88). (DESIGN CHOICE: assumption 144.) -/
def Seam.tokenOpen (s : Seam) (t : RequestTok) : Bool := openAt s.requests fun x => x == t

/-- The vote on the load or atomic has begun and has not accepted it (R88). (DESIGN CHOICE: assumption 144.) -/
def Seam.requestOpen (s : Seam) (o : LoadOp) (priv : Bool) : Bool := s.tokenOpen (o.token priv)

/-- The store buffer without the stores that the vote has not accepted: they never leave a core that halts (R102).
(DESIGN CHOICE: assumption 144.) -/
def Seam.accepted (s : Seam) : List Store → List Store
  | [] => []
  | e :: r =>
    let es := storeGroup (e :: r)
    if s.storeOpen es then [] else e :: s.accepted r

end Sys2Proof.Machine
end

