-- ==== Sys2Proof/Machine/Lanes.lean ====
section
/-! DEFINITION. Lanes, seams and rethreads (R87 to R108, R124, R328 to R330): fences, halts, the patch lane, rejoins and
what ends the tests of lanes. -/

namespace Sys2Proof.Machine

/-- How many lanes a unit has. -/
def lanesOf (u : Nat) : Nat := if u < 16 then 13 else 4

/-- The cores of a unit. -/
def coresOf (u : Nat) : List Nat := if u < 16 then (List.range 4).map (4 * u + ·) else [64]

/-- The core whose home lane `l` is. -/
def homeCore (u l : Nat) : Nat := if u < 16 then 4 * u + l / 3 else 64

/-- The home slot of lane `l`. -/
def homeSlot (u l : Nat) : Nat := if u < 16 then l % 3 else l

/-- The home lane of a slot of a core. -/
def homeLane (k i : Nat) : Nat := if k < 64 then 3 * (k % 4) + i else i

/-- The lane in a slot. -/
def Seam.at (s : Seam) (i : Nat) : Option Nat := if i = 0 then s.a else if i = 1 then s.b else s.c

/-- The seam with a slot filled or emptied. -/
def Seam.put (s : Seam) (i : Nat) (o : Option Nat) : Seam :=
  if i = 0 then { s with a := o } else if i = 1 then { s with b := o } else { s with c := o }

/-- The slots that hold a lane. -/
def Seam.filled (s : Seam) : List Nat := (List.range 3).filter (fun i => (s.at i).isSome)

/-- The slot that holds lane `l`. -/
def Seam.slotOf (s : Seam) (l : Nat) : Option Nat := (List.range 3).find? (fun i => s.at i == some l)

/-- The first empty slot other than `i`. -/
def Seam.freeSlot (s : Seam) (i : Nat) : Option Nat := (List.range 3).find? (fun j => j != i && (s.at j).isNone)

/-- A seam with TMR or DMR as its slots are filled. (DEDUCED: assumption 169.) -/
def Seam.voting (s : Seam) : Seam := { s with mode := if s.filled.length = 3 then .tmr else .dmr }

/-- Lane `l` of unit `u`. -/
def W.laneAt (w : W) (u l : Nat) : Lane := w.dev.lane (laneKey u l)

/-- Change lane `l` of unit `u`. -/
def W.onLane (w : W) (u l : Nat) (f : Lane → Lane) : W := w.upd fun d => d.onLane (laneKey u l) f

/-- Set the state of a lane. -/
def W.laneTo (w : W) (u l : Nat) (st : LaneSt) : W := w.onLane u l fun x => { x with st := st }

/-- Send a lane into a test. -/
def W.laneTest (w : W) (u l : Nat) (t : TestFor) : W := w.onLane u l fun x => { x with st := .basting, test := t }

/-- The core of unit `u` whose seam holds lane `l`, and the slot. -/
def W.seat (w : W) (u l : Nat) : Option (Nat × Nat) :=
  (coresOf u).findSome? fun k => ((w.dev.seam k).slotOf l).map fun i => (k, i)

/-- Source `i` of the eight lane sources of unit `u` (R109). -/
def laneSrc (u i : Nat) : Nat := if u < 16 then 0x100 + 8 * u + i else 0x180 + i

/-- The layout of LAST_FENCE for a lane, a core and a slot (R295). -/
def fenceWord (l k slot cause : Nat) : Word32 := w32 (l + at_ (if k < 64 then k % 4 else 0) 4 + at_ slot 6 + at_ cause 8)

/-- DETAIL0 of SEAM_HALT and SEAM_CHECK (R295). -/
def haltWord (k cause : Nat) : Word32 :=
  w32 ((if k < 64 then k else 0x3F) + at_ cause 6 + at_ (decide (k = 64)).toNat 9)

/-- A core of the unit is in a rethread stall. -/
def W.stalls (w : W) (u : Nat) : Bool := (coresOf u).any (fun c => (w.dev.seam c).rethread.isSome)

/-- The INFO word of a result record (R337). -/
def basteInfo (u target outcome kind skip k slot : Nat) : Word32 :=
  w32 (u + at_ target 5 + at_ outcome 9 + at_ kind 12 + at_ skip 14 + at_ (if k < 64 then k % 4 else 0) 16 + at_ slot 18)

/-- Write a result record, newest first (R337); a PASS ends the overdue state of its target, and its age begins anew
(R336). -/
def W.basteRec (w : W) (u target outcome : Nat) (info : Word32) : W :=
  let w := w.upd fun d => { d with baste := { d.baste with
    results := ({ time := d.clock.tb, info := info, rseq := d.baste.rseq } :: d.baste.results).take 64, rseq := d.baste.rseq + 1 } }
  if outcome = 0 then
    let w := w.upd fun d => d.onBu u fun b =>
      { b with overdue := b.overdue.filter (· != target), passed := b.passed.set target d.baste.time }
    if w.active 0x0F0 && (List.range 17).all (fun v => (w.dev.bu v).overdue.isEmpty) then w.inactive 0x0F0 else w
  else w

/-- What answers a BASTE_NOW of a unit (R341). -/
def W.basteNowDone (w : W) (u : Nat) (info : Word32) : W := w.finishAll 0x0E03 u sDone (le 4 info.toNat)

/-- KIND of a test's record. -/
def TestFor.kind : TestFor → Nat
  | .slice => 0 | .reinit => 0 | .repair => 1 | .retest => 2 | .restart => 2

/-- The record of a lane's test (R337), and the end of its turn where it was a rotation slice: only a completed one
advances the rotation (R329). -/
def W.testRecord (w : W) (u l outcome : Nat) : W :=
  let t := (w.laneAt u l).test
  let o := if t = .reinit then 2 else outcome
  let info := basteInfo u l o t.kind 0 (homeCore u l) (if l = patchOf u then 0 else homeSlot u l)
  let w := w.basteRec u l o info
  if t = .slice ∨ t = .reinit then
    (w.upd fun d => d.onBu u fun b =>
      { b with cur := none, late := false, next := if t = .slice then (b.next + 1) % lanesOf u else b.next }).basteNowDone u info
  else w

/-- LANE_FENCE of a lane of core `k` is complete (R115); `none` for a SPARE patch lane. -/
def W.fenceDone (w : W) (u : Nat) (k : Option Nat) : W :=
  let key := match k with | some k => k + 1 | none => 0
  let code := match k with | some k => (w.dev.seam k).shown.code | none => 3
  let ps := w.dev.stoker.pends.filter (fun p =>
    p.running && p.opc == 0x0302 && p.key / 256 == key && (key != 0 || p.key % 256 == laneKey u (patchOf u)))
  let w := w.each ps fun p w => w.finish p sDone (le 4 code)
  w.upd fun d => d.onLaneUnit u fun x =>
    if x.cmdState = 1 ∧ x.cmdFence = k ∧ (k.isSome ∨ x.cmdLane.toNat = patchOf u) then { x with cmdState := 2, cmdFence := none } else x

/-- LANE_RETEST of a lane is complete when the lane has left its test (R116). -/
def W.retestDone (w : W) (u l : Nat) : W :=
  let st := (w.laneAt u l).st
  if st = .basting ∨ st = .rejoining then w
  else
    let w := w.finishAll 0x0303 (laneKey u l) sDone (le 4 st.code)
    w.upd fun d => d.onLaneUnit u fun x =>
      let x := { x with retestDue := x.retestDue.filter (· != l) }
      if x.cmdState = 1 ∧ x.cmdLane.toNat = l ∧ x.cmdFence = none then { x with cmdState := 2 } else x

/-- PATCH_EXHAUSTED, once, when the patch lane stands in for a FAILED lane (R104). (DEDUCED: assumption 110.) -/
def W.exhaustCheck (w : W) (u : Nat) : W :=
  match w.seat u (patchOf u) with
  | some (k, i) =>
    if (w.laneAt u (homeLane k i)).st = .failed ∧ (w.laneAt u (patchOf u)).st = .active ∧ (w.dev.laneUnit u).exhausted = false then
      (w.upd fun d => d.onLaneUnit u fun x => { x with exhausted := true }).raise (laneSrc u 2) (fenceWord (patchOf u) k i 0) 0
    else w
  | none => w

/-- What becomes of the patch lane in the stall that brings home lane `l` into slot `i` of core `k` (R103 rule 5). -/
def W.patchLeaves (w : W) (u k l i : Nat) : Option (Nat × LaneSt) :=
  let s := w.dev.seam k
  if l ≠ patchOf u ∧ s.at i = some (patchOf u) then
    some (patchOf u, if (s.freeSlot i).isSome then .active else .spare)
  else none

/-- The stall is the swap of a rotation slice: the lane that leaves goes to BASTING (R328). -/
def Rethread.swap (r : Rethread) : Bool :=
  match r.leaves with
  | some (_, st) => st == LaneSt.basting
  | none => false

/-- Begin a rethread stall (R105), which wakes the lanes of a NAP core (R463). -/
def W.stall (w : W) (k l i : Nat) (leaves : Option (Nat × LaneSt)) : W :=
  (w.upd fun d => d.onSeam k fun s =>
    { s with rethread := some { lane := l, slot := i, leaves := leaves, since := d.clock.ivl } }).wakeLanes k

/-- Bring lane `l` into slot `i` of core `k`: at once, or after the rethread in progress in the unit (R105, R106). The patch
lane rejoins in no test of its own. -/
def W.rejoin (w : W) (u k l i : Nat) : W :=
  let w := w.onLane u l fun x => { x with st := .rejoining, test := if l = patchOf u then .reinit else x.test }
  if w.stalls u then w.upd fun d => d.onLaneUnit u fun x => { x with waiting := x.waiting ++ [(k, l, i)] }
  else w.stall k l i (w.patchLeaves u k l i)

/-- Start the waiting rethreads that can start (R106), first come first served.
(DESIGN CHOICE: assumption 134.) -/
def W.nextRejoin (w : W) (u : Nat) : W :=
  match (w.dev.laneUnit u).waiting with
  | [] => w
  | (k, l, i) :: r =>
    if w.stalls u then w
    else (w.upd fun d => d.onLaneUnit u fun x => { x with waiting := r }).stall k l i (w.patchLeaves u k l i)

/-- The lowest-numbered core of a unit that runs in DMR with an empty slot, and that slot (R103 rule 7): a core with a
rethread in progress or waiting is served by that one. -/
def W.nextDmr (w : W) (u : Nat) : Option (Nat × Nat) :=
  (coresOf u).findSome? fun k =>
    let s := w.dev.seam k
    if s.mode = .dmr ∧ s.rethread.isNone ∧ (w.dev.laneUnit u).waiting.all (fun x => x.1 != k) then
      (s.freeSlot 3).map fun i => (k, i)
    else none

/-- Rule 7 of R103: a SPARE patch lane rejoins an empty slot of the lowest-numbered core that runs in DMR, after the
waiting rethreads. (DESIGN CHOICE: assumption 134.) -/
def W.serveDmr (w : W) (u : Nat) : W :=
  if (w.laneAt u (patchOf u)).st ≠ .spare then w
  else match w.nextDmr u with
    | some (k, i) => w.rejoin u k (patchOf u) i
    | none => w

/-- Start the retests that wait, once no slice runs in the unit; a FENCED lane of a HALTED core waits on (R100, R116). -/
def W.startRetests (w : W) (u : Nat) : W :=
  if (w.dev.bu u).cur.isSome then w
  else w.each (w.dev.laneUnit u).retestDue fun l w =>
    let st := (w.laneAt u l).st
    let held := st == .fenced && l != patchOf u && (w.dev.seam (homeCore u l)).mode == .halted
    if (st = .fenced ∨ st = .failed) ∧ held = false then
      (w.upd fun d => d.onLaneUnit u fun x => { x with retestDue := x.retestDue.filter (· != l) }).onLane u l fun x =>
        { x with st := .basting, test := .retest, wasFailed := st == .failed }
    else w

/-- The home lane that the rotation slice of a unit has taken out of core `k`, and that has not yet returned. -/
def W.sliceOut (w : W) (u k : Nat) : Option Nat :=
  match (w.dev.bu u).cur with
  | some l =>
    let st := (w.laneAt u l).st
    if l ≠ patchOf u ∧ homeCore u l = k ∧ (st = .basting ∨ st = .rejoining) then some l else none
  | none => none

/-- The patch lane will go to SPARE with no test of its own before: it is re-initialised after its aborted slice (rule 6 of
R103), the swap that brings it in begins a slice that is aborted (rule 2), or the home lane of its slot rejoins, or is
re-initialised to rejoin, where its core has no other empty slot for it (rule 5). -/
def W.patchComes (w : W) (u : Nat) : Bool :=
  let p := patchOf u
  let x := w.laneAt u p
  (x.st == .basting && x.test == .reinit) ||
  (x.st == .rejoining && (coresOf u).any fun c => ((w.dev.seam c).rethread.map Rethread.swap).getD false) ||
  (x.st == .active && match w.seat u p with
    | some (c, i) =>
      let h := w.laneAt u (homeLane c i)
      (h.st == .rejoining || (h.st == .basting && h.test == .reinit)) && ((w.dev.seam c).freeSlot i).isNone
    | none => false)

/-- A rethread that restores core `k` is in progress, waits, or will follow without a test of the lane that it lost (R103):
the patch lane comes, and core `k` is the one that it serves (rule 7), or the basted lane of the core itself returns, and
moves a stand-in into the empty slot (rule 3). (DEDUCED: assumption 145.) -/
def W.restores (w : W) (u k : Nat) : Bool :=
  (w.dev.seam k).rethread.isSome || (w.dev.laneUnit u).waiting.any (fun x => x.1 == k) ||
  ((w.dev.seam k).mode == .dmr &&
    ((w.sliceOut u k).isSome || (w.patchComes u && (w.nextDmr u).map (·.1) == some k)))

/-- A FENCED lane goes into its repair test in a mode that runs such tests (R100, R327).
(DEDUCED: assumption 145.) -/
def W.repairTest (w : W) (u l : Nat) : W :=
  if (w.laneAt u l).st = .fenced ∧ w.dev.sys.mode.bastes then w.laneTest u l .repair else w

/-- Where no rethread that restores the core follows, its FENCED lanes go into their tests, and a LANE_FENCE of the core is
complete (R100, R115); a HALTED core's lanes wait for CORE_RESTART. (DEDUCED: assumption 145.) -/
def W.restTests (w : W) (u : Nat) : W :=
  let w := w.each (coresOf u) fun k w =>
    if (w.dev.seam k).mode = .halted ∨ w.restores u k then w
    else (w.each ((List.range (lanesOf u)).filter fun l => l != patchOf u && homeCore u l == k) fun l w => w.repairTest u l).fenceDone
      u (some k)
  w.repairTest u (patchOf u)

/-- What follows every change of lanes in a unit. -/
def W.settleLanes (w : W) (u : Nat) : W :=
  ((((((w.nextRejoin u).serveDmr u).restTests u).exhaustCheck u).startRetests u)).settleRun

/-- The source of SEAM_BASTE_FAIL of a unit (R339). -/
def seamSrc (u : Nat) : Nat := if u < 16 then 0xE0 + u else 0xF1

/-- The rotation slice of lane `l` is aborted: it leaves its BIST for its re-initialisation (R329). -/
def W.abortSlice (w : W) (u l : Nat) : W :=
  let x := w.laneAt u l
  if x.st = .basting ∧ x.test = .slice then
    (w.onLane u l fun x => { x with test := .reinit }).upd fun d => d.onBu u fun b => { b with late := true }
  else w

/-- What R103 does at once for core `k`, which has lost the lane in slot `i`: rule 1, and the aborts of rules 2 and 6. -/
def W.repair (w : W) (u k i : Nat) : W :=
  let p := patchOf u
  match (w.laneAt u p).st with
  | .spare => w.rejoin u k p i
  | .basting => w.abortSlice u p
  | .active =>
    match w.seat u p with
    | some (c, _) => if c = k then w else
        match w.sliceOut u c with
        | some l => w.abortSlice u l
        | none => w
    | none => w
  | _ => w

/-- Count and report a fence of lane `l` (R108, R120): whether the lane is FAILED for it. -/
def W.countFence (w : W) (u l k slot : Nat) (cause : BitVec 3) (src : Nat) : W :=
  let w := w.upd fun d =>
    (d.onLane (laneKey u l) fun x => { x with
      st := .fenced, total := satInc x.total, fences := if cause = 6 then x.fences else x.fences ++ [d.clock.ivl] }).onLaneUnit u
      fun x => { x with lastLane := l, lastCore := if k < 64 then k % 4 else 0, lastSlot := slot, lastCause := cause,
                        lastTime := d.clock.tb }
  let word := (w.dev.laneUnit u).lastFence
  let w := w.raise (laneSrc u src) word 0
  let limit := if u < 16 then fld (w.hreg u 0x128) 0 4 else 3
  if cause ≠ 6 ∧ limit ≤ (w.laneAt u l).fences.length then (w.laneTo u l .failed).raise (laneSrc u 1) word 0 else w

/-- A lane whose rejoin a halt ends (R100): home lanes FENCED without a count, the patch lane SPARE; the test that a home
lane had passed is recorded (R337). -/
def W.dropRejoin (w : W) (u l : Nat) : W :=
  (if l = patchOf u then w.laneTo u l .spare else (w.testRecord u l 0).laneTo u l .fenced).retestDone u l

/-- The rotation slice of a unit ends in its swap, with a record of `outcome`, and the lane keeps its turn (R329, R337).
(DEDUCED: assumption 109.) -/
def W.sliceLost (w : W) (u outcome : Nat) : W :=
  match (w.dev.bu u).cur with
  | none => w
  | some l =>
    let info := basteInfo u l outcome 0 0 (homeCore u l) (if l = patchOf u then 0 else homeSlot u l)
    ((w.basteRec u l outcome info).upd fun d => d.onBu u fun b => { b with cur := none, late := false }).basteNowDone u info

/-- The rethread and the waiting rethreads of a core end with its halt; a slice whose swap had begun does not start. -/
def W.endRethread (w : W) (u k : Nat) : W :=
  let ls := (match (w.dev.seam k).rethread with | some r => [r.lane] | none => []) ++
    ((w.dev.laneUnit u).waiting.filter (fun x => x.1 == k)).map (fun x => x.2.1)
  let swap := ((w.dev.seam k).rethread.map Rethread.swap).getD false
  let w := w.upd fun d =>
    (d.onSeam k fun s => { s with rethread := none }).onLaneUnit u fun x =>
      { x with waiting := x.waiting.filter (fun x => x.1 != k) }
  let w := if swap then w.sliceLost u 2 else w
  w.each ls fun l w => w.dropRejoin u l

/-- The Stoker cannot serve: its pending commands are cancelled, and its restart begins (R73, R124). -/
def W.stokerDown (w : W) : W :=
  let w := w.coreReset 64
  let w := w.upd fun d => { d with stoker := { d.stoker with
    serving := false, restarting := true, pends := [] } }
  let w := w.upd fun d => d.onSeam 64 fun s => { s with mode := .halted, a := none, b := none, c := none, rethread := none }
  let w := w.upd fun d => d.onLaneUnit 16 fun x => { x with waiting := [], retestDue := [] }
  let w := w.sliceLost 16 2
  w.each (List.range 4) fun l w => if (w.laneAt 16 l).st = .failed then w else w.laneTest 16 l .restart

/-- A core enters HALTED (R93, R101, R102): requests and stores that the vote had accepted complete, and nothing else of the
core leaves its seam; `src` is its source among the eight, none where another reports it. -/
def W.haltCore (w : W) (k : Nat) (cause : BitVec 3) (src : Option Nat) : W :=
  let u := unitOf k
  if (w.dev.seam k).mode = .halted then w
  else
    let w := (w.cutFail u 4).upd fun d =>
      let s := d.seam k
      let d := d.onSeam k fun s =>
        { s with mode := .halted, cause := cause, commits := [], requests := [], reported := src.map (laneSrc u ·) }
      let d := d.onCore k fun c => { c with
        ipend := 0, wdtTrap := false, held := [], nheld := 0, sb := s.accepted c.sb,
        pend := (c.pend.takeWhile fun p => !s.requestOpen p.op (p.ck.priv k)).map fun p => { p with held := [], ahead := 0 } }
      d.onWdt k fun t => if t.st = .running ∧ t.paused.isNone then { t with paused := some d.clock.ivl, hardAt := none } else t
    let w := (w.endRethread u k).fenceDone u (some k)
    let w := match src with
      | some i => w.level (laneSrc u i) (if i = 6 then 0 else haltWord k cause.toNat) 0
      | none => w
    let w := if k = 64 then w.stokerDown else w
    w.settleLanes u

/-- The positions of a seam without the tokens of a slot; an accepted one whose other tokens have all arrived is closed. -/
def withoutSlot {τ : Type} (i : Nat) (ps : List (Pos τ)) : List (Pos τ) :=
  (ps.map fun p => { p with toks := p.toks.filter (fun t => t.1 != i) }).filter fun p =>
    !p.toks.isEmpty && (p.accepted.isNone || decide (p.toks.length < 2))

/-- Two tokens that disagree stand at a position. -/
def mismatched {τ : Type} (ps : List (Pos τ)) : Bool := ps.any fun p => p.accepted.isNone && decide (2 ≤ p.toks.length)

/-- Fence lane `l` of unit `u` (R92, R97, R100, R103, R115); LAST_FENCE.CORE of a SPARE lane is 0. Where the two lanes that
stay disagree at a position, the core, now in DMR, halts (R93). (DESIGN CHOICE: assumption 135.) -/
def W.fence (w : W) (u l : Nat) (cause : BitVec 3) : W :=
  match w.seat u l with
  | none => (((w.countFence u l (4 * u) 3 cause 0)).settleLanes u).fenceDone u none
  | some (k, i) =>
    let w := w.countFence u l k i cause 0
    let w := w.upd fun d => d.onSeam k fun s =>
      { (s.put i none) with
        mode := if s.mode = .tmr then .dmr else s.mode,
        commits := withoutSlot i s.commits, requests := withoutSlot i s.requests }
    let w := (w.repair u k i).settleLanes u
    let s := w.dev.seam k
    if mismatched s.commits || mismatched s.requests then w.haltCore k 1 (some 4) else w

/-- The end of a rethread that succeeds (R100, R105); a lane of another core that was fenced in a swap aborts the slice that
the swap begins (R103 rule 2). -/
def W.rethreadOk (w : W) (u k : Nat) (r : Rethread) : W :=
  let w := match r.leaves with
    | some (l, .active) => w.upd fun d => d.onSeam k fun s =>
        match s.slotOf l, s.freeSlot r.slot with
        | some i, some j => (s.put i none).put j (some l)
        | _, _ => s
    | some (l, st) =>
      let w := w.upd fun d =>
        let d := d.onSeam k fun s =>
          match s.slotOf l with
          | some i => s.put i none
          | none => s
        if st = LaneSt.basting then d.onBu u fun b => { b with began := d.clock.ivl } else d
      w.onLane u l fun x => { x with st := st, test := if st = LaneSt.basting then TestFor.slice else x.test }
    | none => w
  let w := w.upd fun d => d.onSeam k fun s =>
    { (s.put r.slot (some r.lane)).voting with rethread := none, commits := [], requests := [] }
  let w := w.laneTo u r.lane .active
  let w := if r.lane = patchOf u then w else w.testRecord u r.lane 0
  let waits := (List.range (lanesOf u)).any fun l => l != patchOf u && (w.laneAt u l).st == .fenced &&
    homeCore u l != k && (w.dev.seam (homeCore u l)).mode == .dmr
  let w := match r.leaves with
    | some (l, .basting) => if waits then w.abortSlice u l else w
    | _ => w
  (w.retestDone u r.lane).settleLanes u

/-- The end of a rethread that fails (R107): the core goes on with the lanes it had. (DEDUCED: assumption 109.) -/
def W.rethreadFail (w : W) (k : Nat) (disagree : Bool) : W :=
  let u := unitOf k
  match (w.dev.seam k).rethread with
  | none => w
  | some r =>
    let w := w.upd fun d => d.onSeam k fun s => { s with rethread := none }
    let w := if r.swap then w.sliceLost u 2 else if r.lane = patchOf u then w else w.testRecord u r.lane 0
    let w := w.countFence u r.lane k r.slot 5 3
    let w := if disagree then w.haltCore k (if (w.dev.seam k).mode = .dmr then 1 else 2) (some 4) else w
    (w.retestDone u r.lane).settleLanes u

/-- A seam test of a rejoin stall fails (R330): one record with SEAM_FAIL, of the slice or test that the stall belongs to,
and the lane leaves the stall as R100 has it. (DEDUCED: assumption 109.) -/
def W.seamTestFail (w : W) (k : Nat) (r : Rethread) : W :=
  let u := unitOf k
  let p := patchOf u
  let t := (w.laneAt u r.lane).test
  let target := match r.leaves with
    | some (l, .basting) => l
    | _ => r.lane
  let info := basteInfo u target 4 (if r.lane = p then 0 else t.kind) 0 k r.slot
  let w := w.upd fun d => d.onSeam k fun s => { s with rethread := none }
  let w := if r.swap then w.sliceLost u 4
    else if r.lane ≠ p ∧ (t = .slice ∨ t = .reinit) then
      ((w.basteRec u target 4 info).upd fun d => d.onBu u fun b =>
        { b with cur := none, late := false, next := if t = .slice then (b.next + 1) % lanesOf u else b.next }).basteNowDone u info
    else w.basteRec u target 4 info
  let w := (w.laneTo u r.lane (if r.lane = p then .spare else .fenced)).retestDone u r.lane
  (w.haltCore k 4 none).raise (seamSrc u) info 0

/-- Fill the slots of a restarted core with the lanes that passed, and start it in TMR or DMR (R117, R124); a seam that fails
its test leaves it HALTED, and the Flue receives SEAM_BASTE_FAIL (R330). (DEDUCED: assumption 109.) -/
def W.placeLanes (w : W) (k : Nat) (seamOk : Bool) : W :=
  let u := unitOf k
  let held := (List.range (lanesOf u)).filter (fun l =>
    (w.laneAt u l).st == .rejoining && (w.laneAt u l).test == .restart && (l == patchOf u || homeCore u l == k))
  let homes := held.filter (· != patchOf u)
  let w := w.each homes fun l w => (w.laneTo u l .active).upd fun d => d.onSeam k fun s => s.put (homeSlot u l) (some l)
  let w := if held.contains (patchOf u) then w.laneTo u (patchOf u) .spare else w
  let w := if (w.laneAt u (patchOf u)).st = .spare then
      match (w.dev.seam k).freeSlot 3 with
      | some i => (w.laneTo u (patchOf u) .active).upd fun d => d.onSeam k fun s => s.put i (some (patchOf u))
      | none => w
    else w
  let n := (w.dev.seam k).filled.length
  let w := if seamOk then w else w.raise (seamSrc u) (basteInfo u (homeLane k 0) 4 2 0 k 0) 0
  let w := if n < 2 ∨ seamOk = false then
      w.upd fun d => d.onSeam k fun s => { s with mode := .halted, cause := if seamOk then 0 else 4 }
    else
      let w := w.upd fun d => d.onSeam k fun s => { s.voting with cause := 0, reset := false }
      if k = 64 then w.startCore 64 else if w.dev.sys.mode.coresRun && w.canStart k then w.startCore k else w
  let w := w.finishAll 0x0305 k sDone (le 4 (w.dev.seam k).shown.code)
  let w := w.each held fun l w => w.retestDone u l
  w.settleLanes u

/-- The last lane of a CORE_RESTART has ended its slice. -/
def W.restartStep (w : W) (u l : Nat) (seamOk : Bool) : W :=
  let mine := fun (k : Nat) => (List.range (lanesOf u)).filter (fun m =>
    (w.laneAt u m).st == .basting && (w.laneAt u m).test == .restart && (m == patchOf u || homeCore u m == k))
  let due := fun (k : Nat) => if k < 64 then !(w.pendsOf 0x0305 k).isEmpty else w.dev.stoker.restarting
  let ks := if l = patchOf u then (coresOf u).filter due else [homeCore u l]
  w.each ks fun k w => if (mine k).isEmpty && due k then w.placeLanes k seamOk else w

/-- A lane's test ends (R100, R328, R329). (DEDUCED: assumption 109.) -/
def W.testEnd (w : W) (u l : Nat) (pass seamOk : Bool) : W :=
  let x := w.laneAt u l
  let k := homeCore u l
  let p := patchOf u
  let w := if x.test = .slice ∨ x.test = .reinit then w.upd fun d => d.onBu u fun b => { b with late := true } else w
  if x.test = .restart then
    let w := w.basteRec u l (if pass then 0 else 1) (basteInfo u l (if pass then 0 else 1) 2 0 k (if l = p then 0 else homeSlot u l))
    let w := if pass then w.laneTo u l .rejoining
      else ((w.laneTo u l .failed).raise (laneSrc u 1) (fenceWord l k 3 0) 0).retestDone u l
    w.restartStep u l seamOk
  else if pass = false ∧ x.test ≠ .reinit then
    let w := w.testRecord u l 1
    let w := (w.onLane u l fun x => { x with st := .failed, wasFailed := false }).raise (laneSrc u 1) (fenceWord l k 3 0) 0
    (w.retestDone u l).settleLanes u
  else
    let w := w.onLane u l fun x => { x with fences := if x.wasFailed then [] else x.fences, wasFailed := false }
    let w := if l = p then (w.testRecord u l 0).laneTo u l .spare
      else if (w.dev.seam k).mode = .halted then (w.testRecord u l 0).laneTo u l .fenced
      else w.rejoin u k l (homeSlot u l)
    (w.retestDone u l).settleLanes u

end Sys2Proof.Machine
end

