-- ==== Sys2Proof/Machine/LaneRows.lean ====
section
/-! DEFINITION. The vote of a seam (R88 to R97), the commands of the lane controller (R115, R116, R122), and the rows of
lanes, seams and rethreads. -/

namespace Sys2Proof.Machine

/-- What a token decides at its position. -/
inductive Verdict where
  /-- The position stays open. -/
  | keep
  /-- Every slot has sent its token. -/
  | done
  /-- A slot's lane is fenced. -/
  | fence (slot : Nat)
  /-- The core halts with this cause. -/
  | halt (cause : BitVec 3)
  deriving DecidableEq, Repr

/-- The vote at one position with `n` voting slots (R92, R93). -/
def Pos.vote {τ : Type} [DecidableEq τ] (n : Nat) (p : Pos τ) : Pos τ × Verdict :=
  match p.accepted, p.toks with
  | some t, ts =>
    match ts.find? (fun x => decide (x.2 ≠ t)) with
    | some x => (p, if n = 3 then .fence x.1 else .halt 1)
    | none => (p, if ts.length = n then .done else .keep)
  | none, [x, y] =>
    if x.2 = y.2 then ({ p with accepted := some x.2 }, if n = 2 then .done else .keep)
    else (p, if n = 2 then .halt 1 else .keep)
  | none, [x, y, z] =>
    if z.2 = x.2 then ({ p with accepted := some z.2 }, .fence y.1)
    else if z.2 = y.2 then ({ p with accepted := some z.2 }, .fence x.1)
    else (p, .halt 2)
  | none, _ => (p, .keep)

/-- Give a token to the oldest position that has none of its slot, or open a new one where `opens` allows. A token waits
where it would be accepted to await a third, and the compare queue has no `room` (R94): then nothing is answered. -/
def addToken {τ : Type} [DecidableEq τ] (n slot : Nat) (t : τ) (opens room : Bool) : List (Pos τ) → Option (List (Pos τ) × Verdict)
  | [] => if opens then some ([{ toks := [(slot, t)] }], .keep) else none
  | p :: ps =>
    if p.toks.any (fun x => x.1 == slot) then (addToken n slot t opens room ps).map fun r => (p :: r.1, r.2)
    else if room = false ∧ n = 3 ∧ p.accepted.isNone ∧ p.toks.map (·.2) = [t] then none
    else match Pos.vote n { p with toks := p.toks ++ [(slot, t)] } with
      | (_, .done) => some (ps, .done)
      | (q, v) => some (q :: ps, v)

/-- The slot number. -/
def slotNo : Slot → Nat
  | .a => 0 | .b => 1 | .c => 2

/-- Carry out a verdict; `cause` is the cause of a fence. -/
def W.verdict (w : W) (k : Nat) (v : Verdict) (cause : BitVec 3) : W :=
  match v with
  | .fence i =>
    match (w.dev.seam k).at i with
    | some l => w.fence (unitOf k) l cause
    | none => w
  | .halt c => w.haltCore k c (some 4)
  | _ => w

/-- A slot of a core votes: its lane is ACTIVE and the core is not HALTED. -/
def W.votesIn (w : W) (k i : Nat) : Bool :=
  let s := w.dev.seam k
  s.shown != SeamMode.halted &&
  match s.at i with
  | some l => (w.laneAt (unitOf k) l).st == LaneSt.active
  | none => false

/-- The compare queue has room (R94): it holds the accepted tokens of both kinds that await another. -/
def Seam.room (s : Seam) : Bool :=
  decide ((s.commits.filter (·.accepted.isSome)).length + (s.requests.filter (·.accepted.isSome)).length < 16)

/-- A leading lane's handshake waits for the full compare queue (R94): a scoreboard stall of beats that no rule states.
(DESIGN CHOICE: assumption 170.) -/
def W.voteWait (w : W) (k : Nat) : W :=
  if (w.dev.seam k).room then w
  else
    let (n, w) := w.fresh
    w.upd fun d => d.beatCore k fun c => c.waits (Config.freeWord n).toNat

/-- COMMIT_TOKEN (R88, R91 to R94): with the compare queue full, or in a rethread stall, no new position opens. -/
def execCommitToken (c : CoreId) (slot : Slot) (tok : LaneCommit) (s : State) : Host.Outcome State Fault Refusal :=
  run s fun w =>
    let sm := w.dev.seam c
    let i := slotNo slot
    if w.votesIn c i then
      match addToken sm.filled.length i (commitToken tok) (sm.room && sm.rethread.isNone) sm.room sm.commits with
      | some (ps, v) => (w.upd fun d => d.onSeam c fun x => { x with commits := ps }).verdict c v 1
      | none => w.voteWait c
    else w

/-- REQUEST_TOKEN (R88, R90, R92 to R94). -/
def execRequestToken (c : CoreId) (slot : Slot) (tok : LaneRequest) (s : State) : Host.Outcome State Fault Refusal :=
  run s fun w =>
    let sm := w.dev.seam c
    let i := slotNo slot
    if w.votesIn c i then
      match addToken sm.filled.length i (requestToken tok) (sm.room && sm.rethread.isNone) sm.room sm.requests with
      | some (ps, v) => (w.upd fun d => d.onSeam c fun x => { x with requests := ps }).verdict c v 3
      | none => w.voteWait c
    else w

/-- The verdict of an expired window at a position of `slots` (R92, R93); none where no window runs there. -/
def Pos.expire {τ : Type} (tmr : Bool) (slots : List Nat) (p : Pos τ) : Option Verdict :=
  let missing := slots.filter (fun i => !p.toks.any (fun x => x.1 == i))
  if tmr then
    if p.accepted.isSome then missing.head?.map .fence
    else if p.toks.length = 2 then some (.halt 2) else none
  else if p.toks.length = 1 then some (.halt 3) else none

/-- STRAGGLER_WINDOW_EXPIRY (R92, R93): the oldest window that runs, commit tokens before request tokens. -/
def execStragglerWindowExpiry (c : CoreId) (s : State) : Host.Outcome State Fault Refusal :=
  run s fun w =>
    let sm := w.dev.seam c
    let tmr := sm.mode == SeamMode.tmr
    if sm.mode = .halted then w
    else match (sm.commits.findSome? (Pos.expire tmr sm.filled)).or (sm.requests.findSome? (Pos.expire tmr sm.filled)) with
      | some v => w.verdict c v 2
      | none => w

/-- A router stage of a hearth or of the Stoker reports (R97, R98, R124); its STAGE_STALL lasts until the hearth reset, whatever
cores are restarted (R531). -/
def W.routerFault (w : W) (u i : Nat) : W :=
  let w := w.level (laneSrc u i) 0 0
  let w := if i = 6 ∧ u < 16 then w.upd fun d => { d with flue := { d.flue with routed := setBit d.flue.routed u true } } else w
  if u = 16 ∧ w.dev.stoker.restarting = false then w.stokerDown else w

/-- STALL_MONITOR_EXPIRY (R97). -/
def execStallMonitorExpiry (st : Stage) (s : State) : Host.Outcome State Fault Refusal :=
  run s fun w =>
    match st with
    | .lane u l =>
      match w.seat u l with
      | none => w
      | some (k, _) =>
        let sm := w.dev.seam k
        if sm.rethread.isSome ∨ (w.laneAt u l).st ≠ .active then w
        else match sm.shown with
          | .tmr => w.fence u l 4
          | .dmr => w.haltCore k 6 (some 4)
          | .halted => w
    | .seam c => if (w.dev.seam c).rethread.isSome || (w.dev.seam c).reset then w else w.haltCore c 5 (some 6)
    | .bellows h => w.bellowsCheck h 0 0
    | .other u => if u.toNat < 17 then w.routerFault u.toNat 6 else w

/-- SEAM_CHECK (R101). -/
def execSeamCheck (c : CoreId) (s : State) : Host.Outcome State Fault Refusal := run s fun w => w.haltCore c 4 (some 5)

/-- FAULT_DETECTION (R273): a level source is detected once while it is active. BELLOWS_CHECK stops its bellows, a fault of
the Stoker's seam, router or entry restarts the Stoker (R124), and a loop fault selects the group of its context. -/
def execFaultDetection (src : SourceId) (d0 d1 : Word32) (s : State) : Host.Outcome State Fault Refusal :=
  run s fun w =>
    let n := src.val
    match w.source n with
    | some r =>
      if 0x240 ≤ n ∧ n < 0x250 then w.bellowsCheck (n - 0x240) d0 d1
      else if n = 0x1B0 ∨ (0x184 ≤ n ∧ n ≤ 0x187) then
        let w := w.level n d0 d1
        if w.dev.stoker.restarting then w else w.stokerDown
      else if 0x210 ≤ n ∧ n < 0x220 then w.raise n d0 d1 false (if bitAt d0 16 then List.range 16 else [fld d0 12 4])
      else if r.level then w.level n d0 d1 else w.raise n d0 d1
    | none => w

/-- A token of an access to address `a` fails its check at the destination (R98): the Flue gets LINK_CHECK of the hearth or
the Stoker whose hob it is. (DEDUCED: assumption 146.) -/
def W.linkCheck (w : W) (a : Nat) : W :=
  match hobOf a with
  | some u => w.routerFault u 7
  | none => w

/-- The end of the rethread stall of core `c` (R105, R107, R330). -/
def W.rethreadEnd (w : W) (c : Nat) (r : RethreadEnd) (seamOk : Bool) : W :=
  match (w.dev.seam c).rethread with
  | none => w
  | some x =>
    match r with
    | .ok => if seamOk then w.rethreadOk (unitOf c) c x else w.seamTestFail c x
    | .badCopy => w.rethreadFail c false
    | .disagree => w.rethreadFail c true

/-- The rethread timer runs out, 5,000 ns after phase 1 began (R107). -/
def W.rethreadTimeout (w : W) (c : Nat) : W :=
  match (w.dev.seam c).rethread with
  | none => w
  | some x => (w.upd fun d => d.advanceIvl (x.since.toNat + 5000)).rethreadFail c false

/-- FENCE_WINDOW_EXPIRY (R108): the oldest counted fence of a lane is 24 h old. -/
def execFenceWindowExpiry (u : UnitId) (lane : LaneNo) (s : State) : Host.Outcome State Fault Refusal :=
  run s fun w =>
    match (w.laneAt u lane).fences with
    | [] => w
    | t :: r => (w.upd fun d => d.advanceIvl (t.toNat + dayNs)).onLane u lane fun x => { x with fences := r }

/-- Why a fence of a lane by command is refused (R115, R122): a state other than ACTIVE and SPARE, or a core that would
halt. -/
inductive FenceRefusal where
  | state | core
  deriving DecidableEq, Repr

/-- The check of a fence by command. -/
def W.fenceCheck (w : W) (u l : Nat) : Option FenceRefusal :=
  let st := (w.laneAt u l).st
  if lanesOf u ≤ l ∨ (st ≠ .active ∧ st ≠ .spare) then some .state
  else match w.seat u l with
    | some (k, _) => if (w.dev.seam k).shown = .tmr then none else some .core
    | none => if st = .active then some .core else none

/-- Begin a retest of a FENCED or FAILED lane (R116). -/
def W.retest (w : W) (u l : Nat) : W :=
  (w.upd fun d => d.onLaneUnit u fun x => { x with retestDue := x.retestDue ++ [l] }).startRetests u

/-- A write of LANE_CMD (R122). -/
def W.laneCmd (w : W) (h : Nat) (v : Word32) : W :=
  let l := fld v 0 4
  let set := fun (w : W) (st : BitVec 2) (f : Option Nat) => w.upd fun d => d.onLaneUnit h fun x =>
    { x with cmdState := st, cmdLane := BitVec.ofNat 4 l, cmdFence := f }
  let st := (w.laneAt h l).st
  if (w.dev.laneUnit h).cmdState = 1 then w
  else if 13 ≤ l then set w 3 none
  else if fld v 4 4 = 1 then
    if (w.fenceCheck h l).isSome then set w 3 none
    else (set w 1 ((w.seat h l).map (·.1))).fence h l 6
  else if fld v 4 4 = 2 then
    if st = .fenced ∨ st = .failed then (set w 1 none).retest h l else set w 3 none
  else set w 3 none

/-- LANE_CMD_FENCE (R122). -/
def execLaneCmdFence (m : Rid) (h : HearthId) (lane : BitVec 4) (s : State) : Host.Outcome State Fault Refusal :=
  run s fun w =>
    let v := w32 (lane.toNat + 0x10)
    w.writeRow m 16 h 0x12C v fun w => w.laneCmd h v

/-- LANE_CMD_RETEST (R122). -/
def execLaneCmdRetest (m : Rid) (h : HearthId) (lane : BitVec 4) (s : State) : Host.Outcome State Fault Refusal :=
  run s fun w =>
    let v := w32 (lane.toNat + 0x20)
    w.writeRow m 16 h 0x12C v fun w => w.laneCmd h v

/-- SLICE_COMPLETE (R100, R328, R329): the test of a lane ends. -/
def execSliceComplete (u : UnitId) (lane : LaneNo) (pass seamOk : Bool) (s : State) : Host.Outcome State Fault Refusal :=
  run s fun w => if (w.laneAt u lane).st = .basting then w.testEnd u lane pass seamOk else w

end Sys2Proof.Machine
end

