-- ==== Sys2Proof/Machine/Baste.lean ====
section
/-! DEFINITION. Basting (R325 to R333, R341) and the start-up test of a hearth (R334, R335). -/

namespace Sys2Proof.Machine

/-- How a due turn is handled (R326). -/
inductive Turn where
  /-- Skipped, with its reason. -/
  | skip (reason : Nat)
  /-- Deferred. -/
  | defer
  /-- A slice with the patch lane standing in. -/
  | swap
  /-- A slice without a stand-in. -/
  | alone
  deriving DecidableEq, Repr

/-- A test of the lane's own that writes its own record (R326, R328). -/
def Lane.ownTest (x : Lane) : Bool := x.test == .repair || x.test == .retest || x.test == .restart

/-- Some lane of the unit is in a repair test, in a CORE_RESTART slice, or being re-initialised. -/
def W.unitTests (w : W) (u : Nat) : Bool :=
  (List.range (lanesOf u)).any fun l =>
    let x := w.laneAt u l
    (x.st == .basting && x.test != .slice && x.test != .retest) ||
    (x.st == .rejoining && l != patchOf u && x.test != .retest)

/-- What the conditions of R326 say of the turn of unit `u`. (DEDUCED: assumption 109.) -/
def W.turn (w : W) (u : Nat) : Turn :=
  let l := (w.dev.bu u).next
  let p := patchOf u
  let x := w.laneAt u l
  let core := if l = p then (w.seat u l).map (·.1) else some (homeCore u l)
  let halted := match core with
    | some k => (w.dev.seam k).mode == SeamMode.halted
    | none => false
  let dbg := match core with
    | some k => (w.dev.core k).dbg
    | none => false
  let few := match w.seat u l with
    | some (k, _) => decide ((w.dev.seam k).filled.length ≤ 2)
    | none => false
  let cut := match w.dev.images.cut with
    | some c => decide (u < 16) && bitAt c.hearths u
    | none => false
  let pst := (w.laneAt u p).st
  if x.st = .failed then .skip 0
  else if halted then .skip 2
  else if x.st = .fenced ∨ ((x.st = .basting ∨ x.st = .rejoining) ∧ x.ownTest) then .skip 3
  else if few then .skip 1
  else if cut ∨ dbg ∨ (w.dev.bu u).cur.isSome ∨ w.unitTests u ∨ w.stalls u ∨ pst = .basting ∨ pst = .rejoining then .defer
  else if l ≠ p ∧ pst = .spare then .swap
  else .alone

/-- Carry out a due turn that is not deferred (R326, R328). -/
def W.takeTurn (w : W) (u : Nat) (t : Turn) : W :=
  let l := (w.dev.bu u).next
  let p := patchOf u
  let w := w.upd fun d => d.onBu u fun b => { b with deferred := false }
  match t with
  | .defer => w
  | .skip r =>
    let info := basteInfo u l 3 0 r (homeCore u l) (if l = p then 0 else homeSlot u l)
    let w := (w.basteRec u l 3 info).upd fun d => d.onBu u fun b => { b with next := (b.next + 1) % lanesOf u }
    (w.raise 0x0F2 info 0).basteNowDone u info
  | .swap =>
    let w := (w.upd fun d => d.onBu u fun b => { b with cur := some l, late := false }).onLane u p fun x =>
      { x with st := .rejoining, test := .reinit }
    w.stall (homeCore u l) p (homeSlot u l) (some (l, .basting))
  | .alone =>
    let w := w.upd fun d =>
      let d := d.onBu u fun b => { b with cur := some l, late := false }
      match w.seat u l with
      | some (k, i) => d.onSeam k fun s => { (s.put i none).voting with commits := [], requests := [] }
      | none => d
    ((w.laneTest u l .slice).upd fun d => d.onBu u fun b => { b with began := d.clock.ivl }).settleRun

/-- A bellows slice begins with the turn of lane 0 unless one is still in progress (R332). -/
def W.bellowsTurn (w : W) (u : Nat) : W :=
  if u < 16 ∧ (w.dev.bu u).next = 0 ∧ (w.dev.bu u).segs.isNone then w.upd fun d => d.onBu u fun b => { b with segs := some 0 }
  else w

/-- A turn that falls due where slices run, and was not due already, starts the bellows slice of its rotation (R326, R332). -/
def W.turnDue (w : W) (u : Nat) : W := if (w.dev.bu u).deferred then w else w.bellowsTurn u

/-- The bellows slice of a turn that fell due while slices were paused (R327, R332). -/
def W.blwResume (w : W) (u : Nat) : W :=
  if (w.dev.bu u).blwDue then (w.bellowsTurn u).upd fun d => d.onBu u fun b => { b with blwDue := false } else w

/-- BASTE_EN of a unit. -/
def W.basteOn (w : W) (u : Nat) : Bool := bitAt (w.reg 14 0 0x24) u

/-- The next due instant of a unit (R325). (DESIGN CHOICE: assumption 10.) -/
def W.nextDue (w : W) (u : Nat) : Nat :=
  let per := 1000000 * fld (w.reg 14 0 0x20) 0 14
  let off := per * u / 17 / 1000 * 1000
  if per = 0 then w.dev.now
  else if w.dev.now < off then off
  else off + ((w.dev.now - off) / per + 1) * per

/-- BASTE_DUE (R325, R326, R332); a repair test that the mode had paused starts (R327).
(DESIGN CHOICE: assumption 10.) -/
def execBasteDue (u : UnitId) (s : State) : Host.Outcome State Fault Refusal :=
  run s fun w =>
    let w := w.restTests u
    if w.basteOn u && w.dev.sys.mode.bastes then
      let w := w.upd fun d => d.advanceIvl (w.nextDue u)
      let w := (w.turnDue u).blwResume u
      match w.turn u with
      | .defer => w.upd fun d => d.onBu u fun b => { b with deferred := true }
      | t => w.takeTurn u t
    else w

/-- DEFERRED_SLICE_START (R326): the deferring condition has ended; a repair test that the mode had paused starts (R327).
(DEDUCED: assumption 145.) -/
def execDeferredSliceStart (u : UnitId) (s : State) : Host.Outcome State Fault Refusal :=
  run s fun w =>
    let w := w.restTests u
    if (w.dev.bu u).deferred && w.dev.sys.mode.bastes then
      let w := w.blwResume u
      match w.turn u with
      | .defer => w
      | t => w.takeTurn u t
    else w

/-- BELLOWS_SLICE_COMPLETE (R332, R337): a failed slice stops the bellows. -/
def execBellowsSliceComplete (h : HearthId) (pass : Bool) (s : State) : Host.Outcome State Fault Refusal :=
  run s fun w =>
    let segs := (w.dev.bu h).segs
    if (pass ∧ segs = some 120) ∨ (pass = false ∧ segs.isSome) then
      let info := basteInfo h 13 (if pass then 0 else 1) 0 0 64 0
      let w := (w.upd fun d => (d.onBu h fun b => { b with segs := none, segsDone := b.segs.getD 0 - (if pass then 0 else (d.blw h).basting.toNat) }).onBlw h fun b =>
        { b with basting := false }).basteRec h 13 (if pass then 0 else 1) info
      if pass then w
      else
        ((w.upd fun d => d.onBlw h fun b => { b with basteFail := true }).stopOne h).raise (0xD0 + h) info 0
    else w

/-- Basting-mode time until the last PASS of a target of unit `u` is older than 26 × INTERVAL (R327, R336). -/
def W.overdueIn (w : W) (u target : Nat) : Nat :=
  let age := w.dev.baste.time.toNat - ((w.dev.bu u).passed.getD target 0).toNat
  26 * 1000000 * fld (w.reg 14 0 0x20) 0 14 + 1 - age

/-- BASTE_OVERDUE (R336): the limit, of time in the modes that run slices (R327), has passed. -/
def execBasteOverdue (u : UnitId) (target : Fin 14) (s : State) : Host.Outcome State Fault Refusal :=
  run s fun w =>
    let fits := decide (target.val < lanesOf u) || (decide (target.val = 13) && decide (u.val < 16))
    if fits && w.dev.sys.mode.bastes && !(w.dev.bu u).overdue.contains target.val then
      let w := w.upd fun d => d.advance (w.overdueIn u target)
      (w.upd fun d => d.onBu u fun b => { b with overdue := b.overdue ++ [target.val] }).level 0x0F0 (basteInfo u target 0 0 0 64 0) 0
    else w

/-- A BASTE_GO write (R344). -/
def W.basteGo (w : W) (v : Word32) : W :=
  let u := fld v 0 5
  if 17 ≤ u ∨ w.basteOn u = false then w
  else if w.dev.sys.mode.bastes then
    let w := (w.turnDue u).blwResume u
    match w.turn u with
    | .defer => w.upd fun d => d.onBu u fun b => { b with deferred := true }
    | t => w.takeTurn u t
  else w.upd fun d => d.onBu u fun b =>
    { b with deferred := true, blwDue := b.blwDue || (!b.deferred && b.next == 0) }

/-- BASTE_GO (R343, R344). -/
def execBasteGo (m : Rid) (v : Word32) (s : State) : Host.Outcome State Fault Refusal :=
  run s fun w => w.writeRow m 14 0 0x34 v fun w => w.basteGo v

/-- The slot map and the results that a start-up test leaves (R334, R335, R51); the hob takes a spare row for each row
pending repair, then for each further row that the test finds failing (R203). (DESIGN CHOICE: assumption 140.) -/
def W.startupTest (w : W) (h : Nat) (r : StartupResult) : W :=
  let ok := fun (l : Nat) => !bitAt r.lanes l
  let hob := w.dev.hob h
  let need := hob.pendRows.length + r.rows
  let hobOk := r.hobOk && decide (need ≤ hob.rowsFree.toNat) && decide (r.cols ≤ hob.colsFree.toNat)
  let avail := hobOk && r.bellowsOk
  let failed := (List.range 12).filter (fun l => !ok l)
  let patch := if ok 12 then failed.head? else none
  let w := (w.clearHob (hobBase h) (hobSize h)).upd fun d =>
    let d := d.onHob h fun x => { x with
      pendRows := x.pendRows.drop x.rowsFree.toNat, failValid := x.failValid && !hobOk,
      rowsFree := x.rowsFree - BitVec.ofNat 6 (min need x.rowsFree.toNat),
      colsFree := x.colsFree - BitVec.ofNat 4 (min r.cols x.colsFree.toNat) }
    let d := { d with sys := { d.sys with avail := setBit d.sys.avail h avail } }
    let d := (List.range 12).foldl (fun d l => d.onLane (laneKey h l) fun x =>
      { x with st := if ok l then .active else .failed, wasFailed := false }) d
    let d := d.onLane (laneKey h 12) fun x =>
      { x with st := if ok 12 then (if patch.isSome then .active else .spare) else .failed, wasFailed := false }
    let d := d.onLaneUnit h fun x => { x with waiting := [], retestDue := [] }
    (List.range 4).foldl (fun d j => d.onSeam (4 * h + j) fun s =>
      let at_ := fun (i : Nat) =>
        let l := 3 * j + i
        if ok l then some l else if patch = some l then some 12 else none
      let s := { s with a := at_ 0, b := at_ 1, c := at_ 2, rethread := none, commits := [], requests := [], reported := none,
                        cause := if bitAt r.seams j then 4 else 0, reset := true }
      if avail = false ∨ bitAt r.seams j ∨ s.filled.length < 2 then { s with mode := .halted } else s.voting) d
  let w := w.each (List.range 13) fun l w =>
    let o := if ok l then 0 else 1
    let slot := if l = 12 then (match patch with | some p => p % 3 | none => 0) else l % 3
    w.basteRec h l o (basteInfo h l o 3 0 (if l = 12 then (match patch with | some p => 4 * h + p / 3 | none => 64) else 4 * h + l / 3) slot)
  let w := w.setReg 14 0 (0x100 + 4 * h) (w32 (maskOf 13 ok + at_ hobOk.toNat 13 + at_ r.bellowsOk.toNat 14 +
    at_ (decide (fld r.seams 0 4 = 0)).toNat 15 + at_ (min (min need hob.rowsFree.toNat) 255) 16))
  let w := w.each ((List.range 13).filter (fun l => !ok l)) fun l w => w.raise (laneSrc h 1) (fenceWord l (4 * h + l / 3) 3 0) 0
  let w := w.each ((List.range 4).filter (bitAt r.seams)) fun j w => w.raise (seamSrc h) (basteInfo h (homeLane (4 * h + j) 0) 4 3 0 (4 * h + j) 0) 0
  let w := if hobOk then w else w.raise (hobSource 2 h) 0 0
  let w := if r.bellowsOk then w
    else (w.upd fun d => d.onBlw h fun b => { b with basteFail := true }).raise (0xD0 + h) (basteInfo h 13 1 3 0 64 0) 0
  w.exhaustCheck h

end Sys2Proof.Machine
end

