-- ==== Sys2Proof/Machine/Float.lean ====
section
/-! DEFINITION. Binary floating point (IEEE 754-2019): the exact values of operands and one rounding of an exact result,
with the choices of R143 for the cores and of R219 for the bellows. A value is the number that its bits spell. -/

namespace Sys2Proof.Machine

/-- A format: fraction bits and exponent bits. -/
structure Fmt where
  /-- Fraction bits. -/
  fr : Nat
  /-- Exponent bits. -/
  ex : Nat
  deriving DecidableEq, Repr

/-- binary32. -/
def f32 : Fmt := ⟨23, 8⟩
/-- binary64. -/
def f64 : Fmt := ⟨52, 11⟩

/-- The sign bit's weight. -/
def Fmt.signBit (F : Fmt) : Nat := 2 ^ (F.fr + F.ex)
/-- The exponent bias. -/
def Fmt.bias (F : Fmt) : Nat := 2 ^ (F.ex - 1) - 1
/-- The magnitude bits of an infinity. -/
def Fmt.infMag (F : Fmt) : Nat := (2 ^ F.ex - 1) * 2 ^ F.fr
/-- The bits with a sign. -/
def Fmt.signed (F : Fmt) (s : Bool) (mag : Nat) : Nat := s.toNat * F.signBit + mag
/-- The default NaN (R143). -/
def Fmt.nan (F : Fmt) : Nat := F.infMag + 3 * 2 ^ (F.fr - 2)
/-- The sign. -/
def Fmt.sign (F : Fmt) (x : Nat) : Bool := x.testBit (F.fr + F.ex)
/-- The magnitude bits. -/
def Fmt.mag (F : Fmt) (x : Nat) : Nat := x % F.signBit
/-- A NaN. -/
def Fmt.isNan (F : Fmt) (x : Nat) : Bool := decide (F.infMag < F.mag x)
/-- A signalling NaN. -/
def Fmt.isSnan (F : Fmt) (x : Nat) : Bool := F.isNan x && !x.testBit (F.fr - 1)
/-- An infinity. -/
def Fmt.isInf (F : Fmt) (x : Nat) : Bool := F.mag x == F.infMag
/-- A zero. -/
def Fmt.isZero (F : Fmt) (x : Nat) : Bool := F.mag x == 0
/-- A finite value. -/
def Fmt.isFin (F : Fmt) (x : Nat) : Bool := decide (F.mag x < F.infMag)
/-- The NaN made quiet. -/
def Fmt.quiet (F : Fmt) (x : Nat) : Nat := Nat.lor x (2 ^ (F.fr - 1))
/-- The significand of a finite value. -/
def Fmt.sig (F : Fmt) (x : Nat) : Nat := if F.mag x < 2 ^ F.fr then F.mag x else F.mag x % 2 ^ F.fr + 2 ^ F.fr
/-- The exponent of the significand's last bit. -/
def Fmt.exp (F : Fmt) (x : Nat) : Int := ((max (F.mag x / 2 ^ F.fr) 1 : Nat) : Int) - F.bias - F.fr

/-- The flags of FPSR (R153). -/
def fIV : Nat := 1
/-- Division by zero. -/
def fDZ : Nat := 2
/-- Overflow. -/
def fOV : Nat := 4
/-- Underflow. -/
def fUN : Nat := 8
/-- Inexact. -/
def fIX : Nat := 16

/-- A rounded result goes up in magnitude: `rm` of R143, the sign, the last bit kept, and whether the part cut off is
above, at or below one half of it (`half`), or nothing. -/
def roundUp (rm : Nat) (s odd : Bool) (cut : Ordering) (any : Bool) : Bool :=
  match rm with
  | 1 => any && !s
  | 2 => any && s
  | 3 => false
  | 4 => cut != .lt
  | _ => cut == .gt || (cut == .eq && odd)

/-- `m / 2^k` cut to an integer, and what was cut off: its order against one half, and whether anything was. -/
def cutBits (m : Nat) (k : Int) (sticky : Bool) : Nat × Ordering × Bool :=
  if k ≤ 0 then (m * 2 ^ (-k).toNat, .lt, sticky)
  else
    let n := k.toNat
    let r := m % 2 ^ n
    let c := compare (2 * r) (2 ^ n)
    (m / 2 ^ n, if c == .eq && sticky then .gt else c, sticky || r != 0)

/-- Round the value ±(m + part)·2^e, where a part below one exists if `sticky`, to a format: its bits and flags. -/
def Fmt.round (F : Fmt) (rm : Nat) (s : Bool) (m : Nat) (e : Int) (sticky : Bool) : Nat × Nat :=
  if m = 0 then (F.signed s 0, if sticky then fIX + fUN else 0)
  else
    let top : Int := e + (m.log2 + 1 : Nat)
    let eMin : Int := 1 - (F.bias : Int) - F.fr
    let free : Int := top - (F.fr + 1)
    let lsb := max free eMin
    let (q, c, any) := cutBits m (lsb - e) sticky
    let q := q + (roundUp rm s (q % 2 == 1) c any).toNat
    let mag := (lsb - eMin).toNat * 2 ^ F.fr + q
    let below := decide (top < 2 - (F.bias : Int))
    let (u, cu, anyU) := cutBits m (free - e) sticky
    let carries := decide (u + (roundUp rm s (u % 2 == 1) cu anyU).toNat = 2 ^ (F.fr + 1)) && decide (top = 1 - (F.bias : Int))
    let tiny := below && !(Config.tinyAfter && carries)
    if F.infMag ≤ mag then
      let inf := match rm with
        | 1 => !s
        | 2 => s
        | 3 => false
        | _ => true
      (F.signed s (if inf then F.infMag else F.infMag - 1), fOV + fIX)
    else (F.signed s mag, (if any then fIX else 0) + (if tiny && any then fUN else 0))

/-- The first NaN among operands, made quiet, with IV for a signalling one; none where no operand is a NaN (R143). -/
def Fmt.nanOf (F : Fmt) (xs : List Nat) : Option (Nat × Nat) :=
  (xs.find? F.isNan).map fun x => (F.quiet x, if xs.any F.isSnan then fIV else 0)

/-- Round an exact integer multiple of 2^e; an exact zero takes the sign `z`. -/
def Fmt.roundInt (F : Fmt) (rm : Nat) (v e : Int) (z : Bool) : Nat × Nat :=
  if v = 0 then (F.signed z 0, 0) else F.round rm (decide (v < 0)) v.natAbs e false

/-- A finite value as an integer multiple of 2^e, for e not above its exponent. -/
def Fmt.int (F : Fmt) (x : Nat) (e : Int) : Int :=
  (if F.sign x then -1 else 1) * ((F.sig x * 2 ^ (F.exp x - e).toNat : Nat) : Int)

/-- Sum. -/
def Fmt.add (F : Fmt) (rm x y : Nat) : Nat × Nat :=
  match F.nanOf [x, y] with
  | some r => r
  | none =>
    if F.isInf x then (if F.isInf y ∧ F.sign x ≠ F.sign y then (F.nan, fIV) else (x, 0))
    else if F.isInf y then (y, 0)
    else
      let e := min (F.exp x) (F.exp y)
      F.roundInt rm (F.int x e + F.int y e) e (if F.sign x = F.sign y then F.sign x else rm == 2)

/-- The value with the other sign. -/
def Fmt.neg (F : Fmt) (x : Nat) : Nat := Nat.xor x F.signBit

/-- Difference: a NaN operand is returned as it stands. -/
def Fmt.sub (F : Fmt) (rm x y : Nat) : Nat × Nat := if F.isNan y then F.add rm x y else F.add rm x (F.neg y)

/-- Product. -/
def Fmt.mul (F : Fmt) (rm x y : Nat) : Nat × Nat :=
  let s := F.sign x != F.sign y
  match F.nanOf [x, y] with
  | some r => r
  | none =>
    if F.isInf x ∨ F.isInf y then (if F.isZero x ∨ F.isZero y then (F.nan, fIV) else (F.signed s F.infMag, 0))
    else F.round rm s (F.sig x * F.sig y) (F.exp x + F.exp y) false

/-- Quotient. -/
def Fmt.div (F : Fmt) (rm x y : Nat) : Nat × Nat :=
  let s := F.sign x != F.sign y
  match F.nanOf [x, y] with
  | some r => r
  | none =>
    if F.isInf x then (if F.isInf y then (F.nan, fIV) else (F.signed s F.infMag, 0))
    else if F.isInf y then (F.signed s 0, 0)
    else if F.isZero y then (if F.isZero x then (F.nan, fIV) else (F.signed s F.infMag, fDZ))
    else
      let k := 2 * F.fr + 8
      let n := F.sig x * 2 ^ k
      F.round rm s (n / F.sig y) (F.exp x - F.exp y - k) (n % F.sig y != 0)

/-- The integer square root, bit by bit from `bits` down. -/
def isqrt (n bits : Nat) : Nat :=
  (List.range bits).foldl (fun r i => let t := r + 2 ^ (bits - 1 - i); if t * t ≤ n then t else r) 0

/-- Square root. -/
def Fmt.sqrt (F : Fmt) (rm x : Nat) : Nat × Nat :=
  match F.nanOf [x] with
  | some r => r
  | none =>
    if F.isZero x then (x, 0)
    else if F.sign x then (F.nan, fIV)
    else if F.isInf x then (x, 0)
    else
      let odd := F.exp x % 2 != 0
      let m := F.sig x * 2 ^ (2 * F.fr + 8 + odd.toNat)
      let e := (F.exp x - (2 * F.fr + 8 + odd.toNat : Nat)) / 2
      let r := isqrt m (2 * F.fr + 8)
      F.round rm false r e (r * r != m)

/-- Fused multiply-add x·y + z with one rounding; `np` and `na` negate the product and the addend. -/
def Fmt.fma (F : Fmt) (rm x y z : Nat) (np na : Bool) : Nat × Nat :=
  let sp := (F.sign x != F.sign y) != np
  let bad := (F.isInf x && F.isZero y) || (F.isZero x && F.isInf y)
  match F.nanOf [x, y, z] with
  | some r =>
    (r.1, Nat.lor r.2 (if bad && F.isNan z && Config.fmaNanInvalid then fIV else 0))
  | none =>
    let z := if na then F.neg z else z
    if bad then (F.nan, fIV)
    else if F.isInf x ∨ F.isInf y then (if F.isInf z ∧ F.sign z ≠ sp then (F.nan, fIV) else (F.signed sp F.infMag, 0))
    else if F.isInf z then (z, 0)
    else
      let ep := F.exp x + F.exp y
      let e := min ep (F.exp z)
      let p : Int := (if sp then -1 else 1) * ((F.sig x * F.sig y * 2 ^ (ep - e).toNat : Nat) : Int)
      F.roundInt rm (p + F.int z e) e (if sp = F.sign z then sp else rm == 2)

/-- The order of two values that are not NaNs. -/
def Fmt.cmp (F : Fmt) (x y : Nat) : Ordering :=
  let k := fun (v : Nat) => if F.sign v then -(F.mag v : Int) else (F.mag v : Int)
  compare (k x) (k y)

/-- x < y; false where one is a NaN. -/
def Fmt.lt (F : Fmt) (x y : Nat) : Bool := !F.isNan x && !F.isNan y && F.cmp x y == .lt

/-- x ≤ y; false where one is a NaN. -/
def Fmt.le (F : Fmt) (x y : Nat) : Bool := !F.isNan x && !F.isNan y && F.cmp x y != .gt

/-- A signed integer to a format. -/
def Fmt.ofInt (F : Fmt) (rm : Nat) (v : Int) : Nat × Nat := F.roundInt rm v 0 false

/-- The integer that a finite value rounds to, and whether it rounds. -/
def Fmt.toInt (F : Fmt) (rm x : Nat) : Int × Bool :=
  let (q, c, any) := cutBits (F.sig x) (-(F.exp x)) false
  let q := q + (roundUp rm (F.sign x) (q % 2 == 1) c any).toNat
  (if F.sign x then -(q : Int) else q, any)

/-- Round to a signed integer of `n` bits, saturating (R143). -/
def Fmt.toSat (F : Fmt) (rm x n : Nat) : Int × Nat :=
  let hi : Int := 2 ^ (n - 1) - 1
  let lo : Int := -(2 ^ (n - 1))
  if F.isNan x then (0, fIV)
  else if F.isInf x then (if F.sign x then lo else hi, fIV)
  else
    let (v, ix) := F.toInt rm x
    if v < lo then (lo, fIV) else if hi < v then (hi, fIV) else (v, if ix then fIX else 0)

/-- An operand of the bellows: a subnormal is read as zero of its sign (R219). -/
def bIn (x : Nat) : Nat := if f32.mag x < 2 ^ 23 then f32.signed (f32.sign x) 0 else x

/-- A result of the bellows from operands `xs` (R219). -/
def bOut (xs : List Nat) (r : Nat) : Nat :=
  if f32.isNan r then
    let v := (Config.bellowsNan (w32 (xs.getD 0 0)) (w32 (xs.getD 1 0))).toNat
    f32.signed (v.testBit 31) (f32.infMag + max 1 (v % 2 ^ 23))
  else if f32.isInf r ∧ xs.all f32.isFin then f32.signed (f32.sign r) (f32.infMag - 1)
  else bIn r

/-- x + y in the bellows. -/
def bAdd (x y : Nat) : Nat := bOut [x, y] (f32.add 0 (bIn x) (bIn y)).1
/-- x − y in the bellows. -/
def bSub (x y : Nat) : Nat := bOut [x, y] (f32.sub 0 (bIn x) (bIn y)).1
/-- x × y in the bellows. -/
def bMul (x y : Nat) : Nat := bOut [x, y] (f32.mul 0 (bIn x) (bIn y)).1
/-- x × y + z with one rounding in the bellows. (DEDUCED: assumption 111.) -/
def bFma (x y z : Nat) : Nat := bOut [x, y, z] (f32.fma 0 (bIn x) (bIn y) (bIn z) false false).1
/-- The value clamped to a range. -/
def bClamp (x lo hi : Nat) : Nat :=
  if f32.lt (bIn x) (bIn lo) then bIn lo else if f32.lt (bIn hi) (bIn x) then bIn hi else bIn x
/-- The value with the other sign. -/
def bNeg (x : Nat) : Nat := f32.neg (bIn x)

end Sys2Proof.Machine
end

