-- ==== Sys2Proof/Machine/Kernels.lean ====
section
/-! DEFINITION. The nine kernels of the bellows (R214 to R227) as functions of a context block, its inputs and its
extension. A word is the number that its bits spell; every binary32 operation rounds once. -/

namespace Sys2Proof.Machine

/-- A context block as words (R215): header, port word 1, P0 to P31, RUNSTAT, RUNCOUNT, S0 to S13. -/
structure Ctx where
  /-- CTRL to TAG. -/
  hd : List Nat
  /-- SAFE_0 to IN_OFFSET. -/
  sv : List Nat
  /-- P0 to P31. -/
  ps : List Nat
  /-- RUNSTAT. -/
  stat : Nat
  /-- RUNCOUNT. -/
  cnt : Nat
  /-- S0 to S13. -/
  st : List Nat
  deriving DecidableEq, Repr

/-- The words of a byte list. -/
def toWords (bs : List Byte) : List Nat := (List.range (bs.length / 4)).map (fun i => (wordAt bs (4 * i)).toNat)

/-- The context that the 256 bytes of a block spell; bytes not read are 0. -/
def Ctx.ofBytes (bs : List Byte) : Ctx :=
  let ws := toWords bs
  { hd := slice ws 0 8, sv := slice ws 8 8, ps := slice ws 16 32, stat := ws.getD 48 0, cnt := ws.getD 49 0,
    st := slice ws 50 14 }

/-- Header word `i`. -/
def Ctx.h (c : Ctx) (i : Nat) : Nat := c.hd.getD i 0
/-- Parameter `i`. -/
def Ctx.p (c : Ctx) (i : Nat) : Nat := c.ps.getD i 0
/-- State `i`. -/
def Ctx.s (c : Ctx) (i : Nat) : Nat := c.st.getD i 0
/-- Word `i` of port word 1. -/
def Ctx.v (c : Ctx) (i : Nat) : Nat := c.sv.getD i 0
/-- KERNEL. -/
def Ctx.kernel (c : Ctx) : Nat := c.h 0 % 256
/-- SAFE_GROUP. -/
def Ctx.group (c : Ctx) : Nat := c.h 0 / 4096 % 16
/-- MODE. -/
def Ctx.mode (c : Ctx) : Nat := c.h 0 / 65536 % 4
/-- Descriptor of input `i`. -/
def Ctx.inp (c : Ctx) (i : Nat) : Nat := c.h (1 + i / 2) / 65536 ^ (i % 2) % 65536
/-- Descriptor of output `i`. -/
def Ctx.out (c : Ctx) (i : Nat) : Nat := c.h (3 + i / 2) / 65536 ^ (i % 2) % 65536
/-- VALID of a descriptor or a stamp word. -/
def dValid (d : Nat) : Bool := d.testBit 15
/-- WORD of a descriptor or a stamp word. -/
def dWord (d : Nat) : Nat := d % 4096
/-- FMT of a descriptor. -/
def dFmt (d : Nat) : Nat := d / 4096 % 4
/-- SRC of an input descriptor: the output image. -/
def dOut (d : Nat) : Bool := d.testBit 14
/-- The checked stamps: the header's, and those of VOTE (R232). -/
def Ctx.stamps (c : Ctx) : List Nat := if c.kernel = 9 then [c.h 5, c.p 1, c.p 2] else [c.h 5]

/-- ⌈log2 n⌉. -/
def clog2 (n : Nat) : Nat := if n ≤ 1 then 0 else (n - 1).log2 + 1
/-- ⌈a / b⌉. -/
def cdiv (a b : Nat) : Nat := (a + b - 1) / b

/-- The dimensions are in range (R224). -/
def Ctx.dimsOk (c : Ctx) : Bool :=
  let r := fun (x lo hi : Nat) => decide (lo ≤ x ∧ x ≤ hi)
  match c.kernel with
  | 1 => true
  | 2 => r (c.p 0) 1 4
  | 3 => true
  | 4 => true
  | 5 => r (c.p 0) 2 16 && r (c.p 1) 1 16
  | 6 => r (c.p 0) 1 8 && r (c.p 1) 1 4 && r (c.p 2) 1 4
  | 7 => r (c.p 0) 1 8
  | 8 => r (c.p 2) 1 1024
  | 9 => true
  | _ => false

/-- PW: parameter port words (R223). -/
def Ctx.pw (c : Ctx) : Nat :=
  match c.kernel with
  | 2 => cdiv (2 + 5 * c.p 0) 8
  | 7 => cdiv (2 + 3 * c.p 0) 8
  | _ => 1

/-- W7: the kernel uses port word 7. -/
def Ctx.w7 (c : Ctx) : Bool :=
  match c.kernel with
  | 2 => c.p 0 == 4
  | 6 => decide (7 ≤ c.p 0)
  | _ => false

/-- E (R223). -/
def Ctx.beats (c : Ctx) : Nat :=
  match c.kernel with
  | 1 => 36
  | 2 => 10 + 12 * c.p 0
  | 3 => 18
  | 4 => 14
  | 5 => 30 + 4 * (clog2 (c.p 0) + clog2 (c.p 1))
  | 6 => 12 + (c.p 0 + c.p 2) * (c.p 0 + c.p 1)
  | 7 => 26
  | 8 => 20
  | _ => 28

/-- X: extension accesses. -/
def Ctx.extAccess (c : Ctx) : Nat :=
  match c.kernel with
  | 5 => cdiv (c.p 0) 4 + cdiv (c.p 1) 4 + (if c.p 1 = 1 then 2 else 4)
  | 6 => cdiv ((c.p 0 + c.p 2) * (c.p 0 + c.p 1)) 8
  | 8 => 2
  | _ => 0

/-- Port words that the extension must hold. -/
def Ctx.extNeed (c : Ctx) : Nat :=
  match c.kernel with
  | 5 => cdiv (c.p 0) 4 + cdiv (c.p 1) 4 + cdiv (c.p 0 * c.p 1) 8
  | 6 => cdiv ((c.p 0 + c.p 2) * (c.p 0 + c.p 1)) 8
  | 8 => cdiv (c.p 2) 8
  | _ => 0

/-- Hob offset of the extension. -/
def Ctx.extOff (c : Ctx) : Nat := c.h 6 % 65536 * 64
/-- Length of the extension in port words. -/
def Ctx.extLen (c : Ctx) : Nat := c.h 6 / 65536

/-- Inputs that the kernel requires. (DEDUCED: assumption 112.) -/
def Ctx.needIn (c : Ctx) : List Nat :=
  match c.kernel with
  | 5 => if c.p 1 = 1 then [0] else [0, 1]
  | 6 => List.range (c.p 1)
  | 8 => [0, 1]
  | 9 => [0, 1, 2]
  | _ => [0]

/-- Outputs that the kernel requires. (DEDUCED: assumption 112.) -/
def Ctx.needOut (c : Ctx) : List Nat := if c.kernel = 6 then List.range (c.p 2) else [0]

/-- Inputs that IN_GAIN and IN_OFFSET scale (R223). -/
def Ctx.scaled (c : Ctx) : List Nat :=
  match c.kernel with
  | 6 => List.range (c.p 1)
  | 7 => []
  | 8 => [1]
  | 9 => [0, 1, 2]
  | _ => [0]

/-- The dimension rules that the bellows checks (R222, BAD_CONTEXT). -/
def Ctx.ok (c : Ctx) : Bool :=
  c.dimsOk && !(c.kernel == 1 && (c.mode == 3 || (c.mode == 2 && !dValid (c.inp 3)))) &&
  c.needIn.all (fun i => dValid (c.inp i)) && c.needOut.all (fun i => dValid (c.out i)) &&
  (c.extNeed == 0 || (decide (c.extOff + 32 * c.extLen ≤ 0x400000) && decide (c.extNeed ≤ c.extLen)))

/-- Keep the first of equal numbers. -/
def distinct (xs : List Nat) : List Nat := xs.foldl (fun l x => if l.contains x then l else l ++ [x]) []

/-- The image words that a run reads (R213, R217): 0 to 4095 of the input image, 4096 on of the output image. -/
def Ctx.imageWords (c : Ctx) : List Nat :=
  ((List.range 4).filter (fun i => dValid (c.inp i))).map (fun i => dWord (c.inp i) + 4096 * (dOut (c.inp i)).toNat) ++
  (c.stamps.filter dValid).map dWord

/-- The image port words of step 3 of R213: 0 to 511 of the input image, 512 on of the output image. -/
def Ctx.imagePws (c : Ctx) : List Nat :=
  let ws := c.imageWords.map (· / 8)
  (List.range 1024).filter (fun k => ws.contains k)

/-- The distinct output port words, rising. -/
def Ctx.outPws (c : Ctx) : List Nat :=
  let os := ((List.range 4).filter (fun i => dValid (c.out i))).map (fun i => dWord (c.out i) / 8)
  (List.range 512).filter (fun k => os.contains k)

/-- A of R214. -/
def Ctx.accesses (c : Ctx) : Nat :=
  4 + c.pw + 2 * c.w7.toNat + c.imagePws.length + c.outPws.length + c.extAccess

/-- Wc of R214. -/
def Ctx.worst (c : Ctx) : Nat := 4 + 44 * c.accesses + c.beats

/-- An input word converted to binary32 (R217). (DEDUCED: assumption 111.) -/
def convIn (fmt raw : Nat) : Nat :=
  let s := fun (n : Nat) (x : Nat) => if x < 2 ^ (n - 1) then (x : Int) else (x : Int) - 2 ^ n
  match fmt with
  | 0 => bIn raw
  | 1 => (f32.ofInt 0 (s 32 raw)).1
  | 2 => (f32.ofInt 0 (raw % 65536 : Nat)).1
  | _ => (f32.ofInt 0 (s 16 (raw % 65536))).1

/-- An output value: binary32, or an integer word. -/
inductive OutVal where
  | flt (x : Nat)
  | int (x : Nat)
  deriving DecidableEq, Repr

/-- An integer saturated to a format of `n` bits, signed or not, as its bits. -/
def satBits (v lo hi : Int) (n : Nat) : Nat := (if v < lo then lo else if hi < v then hi else v).emod (2 ^ n) |>.toNat

/-- An output converted to its format (R217); none where it is not finite. -/
def convOut (fmt : Nat) (o : OutVal) : Option Nat :=
  let put := fun (v : Int) =>
    match fmt with
    | 1 => satBits v (-2147483648) 2147483647 32
    | 2 => satBits v 0 65535 16
    | _ => satBits v (-32768) 32767 16
  match o with
  | .int x =>
    let v : Int := if x < 2 ^ 31 then x else (x : Int) - 2 ^ 32
    some (if fmt = 0 then (f32.ofInt 0 v).1 else put v)
  | .flt x => if f32.isFin x then some (if fmt = 0 then x else put (f32.toInt 0 x).1) else none

/-- What an execution leaves. -/
structure KRes where
  /-- Outputs by number. -/
  outs : List (Nat × OutVal) := []
  /-- S0 to S13. -/
  st : List Nat
  /-- An extension word written: its index and value. -/
  ext : Option (Nat × Nat) := none
  /-- VOTE's status changed. -/
  disc : Bool := false
  /-- The fault of VOTE. -/
  fault : Option Nat := none
  deriving DecidableEq, Repr

/-- What a run gives to its kernel. -/
structure KIn where
  /-- The context. -/
  c : Ctx
  /-- The inputs after conversion and scaling; none where the input is not VALID. -/
  xs : List (Option Nat)
  /-- Raw words of the inputs. -/
  raw : List Nat
  /-- VOTE: inputs that are invalid. -/
  bad : List Nat
  /-- A preset run (R227). -/
  preset : Bool
  /-- The group is selected safe. -/
  safe : Bool
  /-- Extension words by index. -/
  ext : Nat → Nat

/-- Input `i`, or 0. -/
def KIn.x (k : KIn) (i : Nat) : Nat := (k.xs.getD i none).getD 0

/-- A list of state words with some replaced. -/
def setState (st : List Nat) (ups : List (Nat × Nat)) : List Nat :=
  ups.foldl (fun l u => l.set u.1 u.2) (st ++ List.replicate (14 - st.length) 0)

/-- 1.0. -/
def one32 : Nat := 0x3F800000

/-- Output 0 under its clamp (R218). -/
def KIn.clamp0 (k : KIn) (x : Nat) : OutVal := .flt (bClamp x (k.c.v 4) (k.c.v 5))

/-- PID (R225, R227). (DEDUCED: assumption 111.) -/
def kPid (k : KIn) : KRes :=
  let c := k.c
  let pv := k.x 0
  let sp := (k.xs.getD 1 none).getD (c.p 6)
  let ff := (k.xs.getD 2 none).getD 0
  let e := bSub sp pv
  let p := bMul (c.p 0) (bSub (bMul (c.p 4) sp) pv)
  let d := bAdd (bMul (c.p 3) (c.s 1)) (bMul (bMul (bSub one32 (c.p 3)) (c.p 2)) (bSub (c.s 2) pv))
  let i := if k.preset then bSub (bSub (bSub (c.v 0) p) d) ff else c.s 0
  let v := bAdd (bAdd (bAdd p i) d) ff
  let u := bClamp v (c.v 4) (c.v 5)
  let u := if k.safe then bIn (c.v 0) else if c.mode = 1 then bIn (c.p 7) else if c.mode = 2 then k.x 3 else u
  let i := bAdd (bAdd i (bMul (c.p 1) e)) (bMul (c.p 5) (bSub u v))
  { outs := [(0, .flt u), (1, .flt e)], st := setState c.st [(0, i), (1, d), (2, pv)] }

/-- BIQUAD: sections `s` on (R226). (DEDUCED: assumption 111.) -/
def biquad (c : Ctx) : Nat → Nat → Nat → List Nat → Nat × List Nat
  | 0, _, x, st => (x, st)
  | n + 1, s, x, st =>
    let b := fun (j : Nat) => c.p (2 + 5 * s + j)
    let z1 := st.getD (2 * s) 0
    let z2 := st.getD (2 * s + 1) 0
    let y := bAdd (bMul (b 0) x) z1
    let z1' := bAdd (bSub (bMul (b 1) x) (bMul (b 3) y)) z2
    let z2' := bSub (bMul (b 2) x) (bMul (b 4) y)
    biquad c n (s + 1) y (setState st [(2 * s, z1'), (2 * s + 1, z2')])

/-- BIQUAD. -/
def kBiquad (k : KIn) : KRes :=
  let st := setState k.c.st (if k.preset then (List.range (2 * k.c.p 0)).map (fun i => (i, 0)) else [])
  let (y, st) := biquad k.c (k.c.p 0) 0 (bMul (k.x 0) (k.c.p 1)) st
  { outs := [(0, k.clamp0 y)], st := st }

/-- LEADLAG (R226, R227). -/
def kLeadlag (k : KIn) : KRes :=
  let c := k.c
  let x := k.x 0
  let xp := if k.preset then x else c.s 0
  let yp := if k.preset then c.v 0 else c.s 1
  let y := bSub (bAdd (bMul (c.p 0) x) (bMul (c.p 1) xp)) (bMul (c.p 2) yp)
  if k.safe then { outs := [(0, .flt (bIn (c.v 0)))], st := setState c.st [(0, x), (1, c.v 0)] }
  else { outs := [(0, k.clamp0 y)], st := setState c.st [(0, x), (1, y)] }

/-- RATELIM (R226, R227). -/
def kRatelim (k : KIn) : KRes :=
  let c := k.c
  let yp := if k.preset then c.v 0 else c.s 0
  let y := bAdd yp (bClamp (bSub (k.x 0) yp) (bNeg (c.p 1)) (c.p 0))
  if k.safe then { outs := [(0, .flt (bIn (c.v 0)))], st := setState c.st [(0, c.v 0)] }
  else { outs := [(0, k.clamp0 y)], st := setState c.st [(0, y)] }

/-- The last axis point not above `x`, among `n` of which point `i` is `ax i`: the first where none is. -/
def interval (ax : Nat → Nat) (n x : Nat) : Nat :=
  ((List.range n).filter (fun i => f32.le (bIn (ax i)) x)).length - 1

/-- TABLE2D: first extension word of the Y axis. -/
def Ctx.yAxis (c : Ctx) : Nat := 8 * cdiv (c.p 0) 4
/-- TABLE2D: first extension word of the values. -/
def Ctx.zBase (c : Ctx) : Nat := c.yAxis + 8 * cdiv (c.p 1) 4

/-- TABLE2D: x and y clamped to their axes, and their intervals. -/
def tablePos (k : KIn) : (Nat × Nat) × (Nat × Nat) :=
  let c := k.c
  let ax := fun (i : Nat) => k.ext (2 * i)
  let ay := fun (j : Nat) => k.ext (c.yAxis + 2 * j)
  let x := bClamp (k.x 0) (ax 0) (ax (c.p 0 - 1))
  let y := bClamp (k.x 1) (ay 0) (ay (c.p 1 - 1))
  ((x, interval ax (c.p 0) x), (y, if c.p 1 = 1 then 0 else interval ay (c.p 1) y))

/-- TABLE2D: the extension words of the values around a point, one access for each (R214, R223): four, or two where NY is 1. -/
def tableCells (k : KIn) : List Nat :=
  let c := k.c
  let ((_, i), (_, j)) := tablePos k
  let i' := min (i + 1) (c.p 0 - 1)
  let j' := min (j + 1) (c.p 1 - 1)
  let z := fun (j i : Nat) => c.zBase + j * c.p 0 + i
  if c.p 1 = 1 then [z j i, z j i'] else [z j i, z j i', z j' i, z j' i']

/-- TABLE2D (R226): linear along x in both rows, then along y. -/
def kTable (k : KIn) : KRes :=
  let c := k.c
  let ((x, i), (y, j)) := tablePos k
  let z := (tableCells k).map k.ext
  let tx := bMul (bSub x (k.ext (2 * i))) (k.ext (2 * i + 1))
  let lin := fun (t a b : Nat) => bAdd a (bMul t (bSub b a))
  let z0 := lin tx (z.getD 0 0) (z.getD 1 0)
  let r :=
    if c.p 1 = 1 then z0
    else lin (bMul (bSub y (k.ext (c.yAxis + 2 * j))) (k.ext (c.yAxis + 2 * j + 1))) z0 (lin tx (z.getD 2 0) (z.getD 3 0))
  { outs := [(0, k.clamp0 r)], st := c.st }

/-- A row of a matrix of the extension times the vector (x, u), products added in rising order. -/
def rowSum (k : KIn) (base : Nat) (v : List Nat) : Nat :=
  match (List.range v.length).map (fun j => bMul (k.ext (base + j)) (v.getD j 0)) with
  | [] => 0
  | t :: ts => ts.foldl bAdd t

/-- STATESPACE (R226). -/
def kStatespace (k : KIn) : KRes :=
  let c := k.c
  let n := c.p 0
  let m := c.p 1
  let v := (List.range n).map c.s ++ (List.range m).map k.x
  let row := fun (r : Nat) => rowSum k (r * (n + m)) v
  let ys := (List.range (c.p 2)).map (fun i => row (n + i))
  { outs := (List.range (c.p 2)).map (fun i => (i, if i = 0 then k.clamp0 (ys.getD 0 0) else .flt (ys.getD i 0))),
    st := setState c.st ((List.range n).map (fun i => (i, row i))) }

/-- RAMPSOAK (R226, R227). (DESIGN CHOICE: assumption 162.) -/
def kRampsoak (k : KIn) : KRes :=
  let c := k.c
  let cmd := if k.safe then 1 else k.raw.getD 0 0
  let n := c.p 0
  let seg := c.s 0 % n
  let seg' := fun (j : Nat) => c.p (2 + 3 * seg + j)
  let next := fun (st : List Nat) => if seg + 1 = n then setState st [(3, 2)] else setState st [(0, seg + 1), (3, 0)]
  let st :=
    if cmd = 2 then setState c.st [(0, 0), (1, c.p 1), (3, 0)]
    else if cmd = 0 then
      match c.s 3 with
      | 0 =>
        let d := bSub (seg' 0) (c.s 1)
        if f32.le (f32.mag d) (seg' 1) then setState c.st [(0, seg), (1, bIn (seg' 0)), (2, seg' 2), (3, 1)]
        else setState c.st [(0, seg), (1, bAdd (c.s 1) (if f32.sign d then bNeg (seg' 1) else seg' 1))]
      | 1 => if c.s 2 ≤ 1 then next (setState c.st [(2, 0)]) else setState c.st [(0, seg), (2, c.s 2 - 1)]
      | _ => c.st
    else c.st
  let word := st.getD 0 0 % 256 + 256 * (st.getD 3 0 % 4) + (if cmd ≤ 2 then 0 else 2 ^ 31)
  { outs := [(0, k.clamp0 (st.getD 1 0)), (1, .int word)], st := st }

/-- DEADTIME (R226). -/
def kDeadtime (k : KIn) : KRes :=
  let c := k.c
  let idx := c.s 1 % c.p 2
  let ym := bAdd (bMul (c.p 0) (c.s 0)) (bMul (c.p 1) (k.x 0))
  let o := bSub (bAdd (k.x 1) ym) (k.ext idx)
  { outs := [(0, k.clamp0 o), (1, .flt ym)], st := setState c.st [(0, ym), (1, (idx + 1) % c.p 2)], ext := some (idx, ym) }

/-- VOTE (R226). -/
def kVote (k : KIn) : KRes :=
  let c := k.c
  let good := ([0, 1, 2] : List Nat).filter (fun i => !k.bad.contains i)
  let agree := fun (a b : Nat) => f32.le (f32.mag (bSub (k.x a) (k.x b))) (bIn (c.p 0))
  let done := fun (v : Nat) (used : List Nat) =>
    let bits := fun (l : List Nat) => (l.map (2 ^ ·)).sum
    let word := bits used + 8 * bits k.bad + 64 * bits (good.filter (fun i => !used.contains i))
    ({ outs := [(0, k.clamp0 v), (1, .int word)], st := setState c.st [(0, word)], disc := word != c.s 0 } : KRes)
  let none_ : KRes := { st := c.st, fault := some 7 }
  match good with
  | [a, b] => if agree a b then done (bMul (bAdd (k.x a) (k.x b)) 0x3F000000) [a, b] else none_
  | [_, _, _] =>
    let ls := fun (a b : Nat) => f32.lt (k.x a) (k.x b)
    let lo := if ls 1 0 then 1 else 0
    let hi := 1 - lo
    let m := if ls 2 lo then lo else if ls hi 2 then hi else 2
    let used := ([0, 1, 2] : List Nat).filter (fun i => i == m || agree i m)
    if 2 ≤ used.length then done (k.x m) used else none_
  | _ => none_

/-- Execute a kernel. -/
def runKernel (k : KIn) : KRes :=
  match k.c.kernel with
  | 1 => kPid k
  | 2 => kBiquad k
  | 3 => kLeadlag k
  | 4 => kRatelim k
  | 5 => kTable k
  | 6 => kStatespace k
  | 7 => kRampsoak k
  | 8 => kDeadtime k
  | _ => kVote k

end Sys2Proof.Machine
end

