-- ==== Sys2Proof/Machine/Power.lean ====
section
/-! DEFINITION. Power domains, performance levels, supplies and DOZE (R458 to R475). -/

namespace Sys2Proof.Machine

/-- DETAIL words of PWR_REFUSED and PWR_ABORTED (R472). -/
def pwrDetail (n cause : Nat) : Word32 := w32 (n + at_ cause 8)

/-- Record a refusal of domain `n` (R461). -/
def W.domRefuse (w : W) (n : Nat) (id : Rid) (cause : BitVec 3) : W :=
  (w.upd fun d => d.onDom n fun x => { x with lastId := id, lastCause := cause }).raise 0x06C (pwrDetail n cause.toNat) (ridDetail id)

/-- The power controller's identity (R461). -/
def W.pwrRid (w : W) : Rid := w.rid 9 1 true

/-- A refused entry waits and counts once (R461). -/
def W.entryRefused (w : W) (n : Nat) (id : Rid) (cause : BitVec 3) : W :=
  if (w.dev.dom n).waits then w
  else (w.upd fun d => d.onDom n fun x => { x with waits := true, refused := satInc x.refused }).domRefuse n id cause

/-- A domain that depends on domain `n` is ON (R460). -/
def W.dependsOn (w : W) (n : Nat) : Bool :=
  if 208 ≤ n ∧ n < 224 then (List.range 13).any (fun l => (w.dev.dom (13 * (n - 208) + l)).st == DomSt.on)
  else if n = 228 then (List.range 4).any (fun l => (w.dev.dom (224 + l)).st == DomSt.on)
  else false

/-- R458 allows the off-state of domain `n` in DOZE only (R460). -/
def dozeOnly (n : Nat) : Bool := 224 ≤ n && n ≤ 229

/-- The off-state of a domain (R458). -/
def W.offState (w : W) (n : Nat) : DomSt :=
  if n < 208 then (if (w.dev.lane n).st = .active then .retain else .off)
  else if n < 230 then .retain else .off

/-- Steps 2 and 3 of R460: pads at the edge are held, and the domain enters its off-state.
(DEDUCED: assumption 110.) -/
def W.domainDown (w : W) (n : Nat) : W :=
  (if n = 239 then w.latchPads else w).upd fun d =>
    let d := d.onDom n fun x => { x with st := w.offState n, padHold := x.padHold || decide (231 ≤ n), waits := false }
    if 208 ≤ n ∧ n < 224 then d.onHob (n - 208) fun h => { h with power := .ret55 } else d

/-- DOMAIN_ENTRY (R460). -/
def execDomainEntry (n : DomainId) (e : EntryEnd) (s : State) : Host.Outcome State Fault Refusal :=
  run s fun w =>
    let m := w.dev.sys.mode
    if 241 ≤ n.val ∨ m = .off ∨ m = .doze ∨ (w.dev.dom n).st ≠ .on ∨ w.votes n ≠ 0 then w
    else if w.dependsOn n then w.entryRefused n w.pwrRid 1
    else match e with
      | .busy b => w.entryRefused n b 2
      | .clear => if dozeOnly n then w.entryRefused n w.pwrRid 3 else w.domainDown n
      | .aborted c =>
        if dozeOnly n then w.entryRefused n w.pwrRid 3
        else (w.upd fun d => d.onDom n fun x => { x with aborted := satInc x.aborted, waits := false }).raise 0x06D (pwrDetail n 0)
          (ridDetail c)

/-- DOMAIN_WAKE (R459, R460): a FAILED lane stays powered off. -/
def execDomainWake (n : DomainId) (s : State) : Host.Outcome State Fault Refusal :=
  run s fun w =>
    let m := w.dev.sys.mode
    if 241 ≤ n.val ∨ m = .off ∨ m = .doze ∨ (n.val < 208 ∧ (w.dev.lane n).st = .failed) then w
    else if (w.dev.dom n).st = .on then w.upd fun d => d.onDom n fun x => { x with waits := false }
    else w.domainUp n

/-- Set or clear a client's vote (R459, R461, R474); a vote on a domain of the Thimble counts as a refusal (R397), and one that
is set ends a waiting entry. (DEDUCED: assumptions 87, 127.) -/
def W.vote (w : W) (m : Rid) (n : Nat) (set : Bool) : W :=
  if w.hasDomain n = false then w
  else if 241 ≤ n then (w.upd fun d => d.onDom n fun x => { x with refused := satInc x.refused }).domRefuse n m 4
  else
    let bit := if m = w.stokerRid then 1 else if ridClass m = 7 then 9 else 8
    w.upd fun d => d.onDom n fun x => { x with votes := setBit x.votes bit set, waits := x.waits && !set }

/-- VOTE_CMD (R474). -/
def execVoteCmd (m : Rid) (v : Word32) (s : State) : Host.Outcome State Fault Refusal :=
  run s fun w => w.writeRow m 4 0 0x38 v fun w => w.vote m (fld v 0 8) (bitAt v 8)

/-- The held domains that are ON among `n`, or among all for 0xFF (R464). -/
def W.heldPads (w : W) (n : Nat) : List Nat :=
  (if n = 0xFF then List.range 244 else [n]).filter fun k => (w.dev.dom k).padHold && (w.dev.dom k).st == DomSt.on

/-- Release held pads of domains that are ON. -/
def W.releasePads (w : W) (n : Nat) : W :=
  w.each (w.heldPads n) fun k w => w.upd fun d => d.onDom k fun x => { x with padHold := false }

/-- PAD_REL (R464, R474). -/
def execPadRel (m : Rid) (v : Word32) (s : State) : Host.Outcome State Fault Refusal :=
  run s fun w => w.writeRow m 4 0 0x3C v fun w => w.releasePads (fld v 0 8)

/-- Clear every DOM_ACCT. -/
def W.acctClear (w : W) : W :=
  w.each (List.range 244) fun n w => w.upd fun d => d.onDom n fun x => { x with refused := 0, aborted := 0 }

/-- ACCT_CLEAR (R474). -/
def execAcctClear (m : Rid) (v : Word32) (s : State) : Host.Outcome State Fault Refusal :=
  run s fun w => w.writeRow m 4 0 0x40 v fun w => w.when (bitAt v 0) W.acctClear

/-- The level in force of rail `r`: 0 VCN, 1 VCS, 2 VCU. -/
def Power.level (p : Power) (r : Nat) : Nat := if r = 0 then p.levels.1 else if r = 1 then p.levels.2.1 else p.levels.2.2

/-- Set the level in force of a rail. -/
def Power.setLevel (p : Power) (r l : Nat) : Power :=
  { p with levels := if r = 0 then (l, p.levels.2) else if r = 1 then (p.levels.1, l, p.levels.2.2)
    else (p.levels.1, p.levels.2.1, l) }

/-- A rail is in transit. -/
def Power.transit (p : Power) (r : Nat) : Bool := (p.changes.get? r).isSome

/-- One level from `a` towards `b`. -/
def stepTo (a b : Nat) : Nat := if a < b then a + 1 else if b < a then a - 1 else a

/-- The level that the bounds of a rail are taken at (R467): the target while it is lowered, else the level in force. -/
def Power.bound (p : Power) (r : Nat) : Nat :=
  match p.changes.get? r with
  | some c => min c.target (p.level r)
  | none => p.level r

/-- Start a level change (R467); a change in progress goes on to the new target.
(DESIGN CHOICE: assumption 86.) -/
def W.startLevel (w : W) (r target : Nat) : W :=
  let l := w.dev.power.level r
  let put := fun (c : LevelChange) => w.upd fun d => { d with power := { d.power with changes := d.power.changes.set r c } }
  match w.dev.power.changes.get? r with
  | some c => put { c with target := target }
  | none => if l = target then w else put { target := target, start := l, wrote := stepTo l target }

/-- PWR_LEVEL sets the target level of the rail in LEVEL_CTL, as R474 has it of a commit, and starts the change (R467).
(DEDUCED: assumption 179.) -/
def W.targetLevel (w : W) (r l : Nat) : W := (w.setReg 4 0 0x20 (setFld (w.reg 4 0 0x20) (4 * r) 3 l)).startLevel r l

/-- End a level change at `l`. -/
def W.endLevel (w : W) (r l status : Nat) : W :=
  let w := w.upd fun d => { d with power := ({ d.power with changes := d.power.changes.erase r }).setLevel r l }
  w.finishAll 0x0902 r status (if status = sDone then le 4 l else [])

/-- A change that fails ends at `l`, and its command, where there is one, with INTERNAL_FAULT (R74, R467). -/
def W.levelFailed (w : W) (r l : Nat) : W := (if (w.pendsOf 0x0902 r).isEmpty then w else w.internal).endLevel r l sInternalFault

/-- The level sequences that a commit of LEVEL_CTL starts (R474). (DESIGN CHOICE: assumption 86.) -/
def W.levelCtl (w : W) : W :=
  let c := w.reg 4 0 0x20
  w.each (List.range 3) fun r w => w.startLevel r (fld c (4 * r) 3)

/-- The AVSBus value of a level in mV (R465). -/
def avsValue (l : Nat) : Nat := 550 + 50 * l

/-- AVS_FAIL ends when no rail is failing. -/
def W.avsClear (w : W) (r : Nat) : W :=
  let w := w.upd fun d => { d with power := { d.power with avsFault := setBit d.power.avsFault r false } }
  if w.dev.power.avsFault = 0 ∧ w.active 0x06B then w.inactive 0x06B else w

/-- The device reads the voltage and the current of VCA between its AVSBus writes (R466): what it reads is a free value.
(DESIGN CHOICE: assumption 166.) -/
def W.readVca (w : W) : W :=
  let (k, w) := w.fresh
  w.upd fun d => { d with power := { d.power with vca := w32 ((Config.freeWord k).toNat % 2 ^ 32) } }

/-- AVS_VDONE (R467): the next step, the end, or the acknowledged return to the step's start. -/
def execAvsVdone (rail : Fin 3) (s : State) : Host.Outcome State Fault Refusal :=
  run s fun w => W.readVca <|
    match w.dev.power.changes.get? rail with
    | none => w
    | some c =>
      if c.back then (w.avsClear rail).levelFailed rail c.start
      else if c.wrote = c.target then (w.avsClear rail).endLevel rail c.target sDone
      else w.upd fun d =>
        let next : LevelChange := { c with start := c.wrote, wrote := stepTo c.wrote c.target }
        let p := { d.power with changes := d.power.changes.set rail next }
        { d with power := if c.target < c.wrote then p.setLevel rail c.wrote else p }

/-- AVS_ACK_TIMEOUT (R467): the step's starting voltage is written once more; a second timeout ends the change with
AVS_FAIL active. (DEDUCED: assumption 110.) -/
def execAvsAckTimeout (rail : Fin 3) (s : State) : Host.Outcome State Fault Refusal :=
  run s fun w =>
    match w.dev.power.changes.get? rail with
    | none => w
    | some c =>
      if c.back then w.levelFailed rail c.start
      else
        let w := w.upd fun d => { d with power := { d.power with
          changes := d.power.changes.set rail { c with back := true }, avsFault := setBit d.power.avsFault rail true } }
        w.level 0x06B (w32 (rail.val + at_ (avsValue c.wrote) 4)) 0

/-- SUPPLY_EXCURSION (R469). -/
def execSupplyExcursion (rail : Fin 11) (mv : Word32) (s : State) : Host.Outcome State Fault Refusal :=
  run s fun w => if w.dev.sys.mode = .off then w else w.level (0x60 + rail) mv 0

/-- TJ_READING (R469): TJ_OVER is active while the hottest sensor reads above +110 °C; without power nothing is read. -/
def execTjReading (sensor : Fin 17) (deg : BitVec 8) (s : State) : Host.Outcome State Fault Refusal :=
  run s fun w =>
    if w.dev.sys.mode = .off then w else
    let w := w.upd fun d => { d with power := { d.power with tj := d.power.tj.set sensor deg } }
    if 110 < w.dev.power.hottest.2.toInt then w.level 0x06E w.dev.power.tjWord 0
    else if w.active 0x06E then w.inactive 0x06E else w

/-- DOZE_ENTRY (R40, R470): 100 µs after the reply to DOZE_ENTER. -/
def execDozeEntry (s : State) : Host.Outcome State Fault Refusal :=
  run s fun w =>
    if w.dev.sys.dozeArmed ∧ w.dev.sys.mode = .prepare then
      (w.upd fun d => { d with sys := { d.sys with dozeArmed := false } }).setMode .doze
    else w

/-- DOZE_WAKE (R46, R471): a wake during the 100 µs before the entry cancels it. -/
def execDozeWake (s : State) : Host.Outcome State Fault Refusal :=
  run s fun w =>
    if w.dev.sys.mode = .doze then w.setMode .prepare
    else w.upd fun d => { d with sys := { d.sys with dozeArmed := false } }

end Sys2Proof.Machine
end

