-- ==== Sys2Proof/Machine/Bellows.lean ====
section
/-! DEFINITION. The bellows: one slot (R213, R221, R222, R227), the output selector (R234), frames and their phases
(R230, R252 to R257), and the writes of its command registers (R245). -/

namespace Sys2Proof.Machine

/-- The bellows of a hearth runs (R47, R235, R332); in MAINTAIN only after an expert write.
(DESIGN CHOICE: assumption 153.) -/
def W.bellowsOn (w : W) (h : Nat) : Bool :=
  let b := w.dev.blw h
  (w.dev.sys.mode.bellowsRun || (w.dev.sys.mode == .maintain && b.expert)) && bitAt w.dev.sys.avail h && !b.checked && !b.basteFail

/-- The value of a bellows register in use: the one that the frame started with (R230). -/
def W.inUse (w : W) (h off : Nat) : Nat :=
  let b := w.dev.blw h
  if b.phase = .stopped then (w.hreg h off).toNat else (b.use.getD off (w.regReset 16 off)).toNat

/-- Hob offset of the input image, the output image and the safe image (R228). -/
def W.inImage (w : W) (h : Nat) : Nat := w.inUse h 0x304 % 256 * 0x4000
/-- Hob offset of the output image. -/
def W.outImage (w : W) (h : Nat) : Nat := w.inUse h 0x304 / 256 % 256 * 0x4000
/-- Hob offset of a context block. -/
def W.ctxOff (w : W) (h c : Nat) : Nat := w.inUse h 0x300 % 64 * 0x10000 + c * 256

/-- Group `g` of hearth `h` is selected (R234). -/
def W.selected (w : W) (h g : Nat) : Bool := (w.dev.blw h).all || bitAt (w.dev.blw h).group g

/-- The group of output image port word `k` (R233). -/
def W.outGroup (w : W) (h k : Nat) : Nat := w.inUse h (0x500 + 4 * (k / 8)) / 16 ^ (k % 8) % 16

/-- Where a read of the hob byte offset `o` by a master other than the bellows is served from (R234). -/
def W.seen (w : W) (h o : Nat) : Nat :=
  let b := w.outImage h
  if b ≤ o ∧ o < b + 0x4000 ∧ w.selected h (w.outGroup h ((o - b) / 32)) then o + 0x4000 else o

/-- Read port word after port word through the output selector, until one fails. -/
def W.hobReadParts (w : W) (m : Rid) (u : Nat) (acc : List Byte) : List (Nat × Nat) → Acc × W
  | [] => (.data acc, w)
  | p :: ps =>
    match w.hobRead m u (if u < 16 then hobBase u + w.seen u (p.1 - hobBase u) else p.1) p.2 with
    | (.data bs, w1) => W.hobReadParts w1 m u (acc ++ bs) ps
    | r => r

/-- A hob read of a master other than the bellows: one access for each port word (R188), each through the output
selector (R234). -/
def W.hobReadSel (w : W) (m : Rid) (u a n : Nat) : Acc × W := w.hobReadParts m u [] (wordPieces a n)

/-- A read of the bellows: none where a byte is uncorrectable, the firewall refuses, or the hob ends (R213, R222).
(DEDUCED: assumption 57.) -/
def W.blwRead (w : W) (h off n : Nat) : Option (List Byte) × W :=
  let m := w.rid 3 h false
  let a := hobBase h + off
  if 0x400000 < off + n then (none, w)
  else
    let (ok, w) := w.fwCheck 0 (BitVec.ofNat 48 a) m .read
    if ok then
      match w.hobRead m h a n with
      | (.data bs, w) => (some bs, w)
      | (_, w) => (none, w)
    else (none, w)

/-- A write of one port word by the bellows under byte enables (R213): whether it was made. -/
def W.blwWrite (w : W) (h : Nat) (ps : List (Nat × List Byte)) : Bool × W :=
  let m := w.rid 3 h false
  match ps with
  | [] => (true, w)
  | p :: _ =>
    if ps.any fun x => decide (0x400000 < x.1 + x.2.length) then (false, w)
    else
      let (ok, w) := w.fwCheck 0 (BitVec.ofNat 48 (hobBase h + p.1 / 32 * 32)) m .write
      if ok then (true, w.hobWriteParts h 4 (ps.map fun x => (hobBase h + x.1, x.2))) else (false, w)

/-- A read of the image port word `k` (R213) that selects the image words the run uses, so an uncorrectable byte beside them
is logged and not reported (R197). DEDUCED: assumption 57. -/
def W.blwImage (w : W) (h k off : Nat) (c : Ctx) : Option (List Byte) × W :=
  let m := w.rid 3 h false
  let a := hobBase h + off
  if 0x400000 < off + 32 then (none, w)
  else
    let (ok, w) := w.fwCheck 0 (BitVec.ofNat 48 a) m .read
    if ok = false then (none, w)
    else
      let w := (w.wakeHob h).granted h 4
      let cs := w.codes a 32
      let w := w.hobScan h (a / 32) false
      if (List.range 32).any fun i => c.imageWords.contains (8 * k + i / 4) && ((cs[i]?).map ByteCode.isBad).getD false then (none, w)
      else (some (cs.map ByteCode.val), w)

/-- The image port words of step 3 (R213), in order, by hob offset: none where a read fails. -/
def W.blwImages (w : W) (h : Nat) (c : Ctx) : List (Nat × Nat) → Option (List (Nat × List Byte)) × W
  | [] => (some [], w)
  | x :: xs =>
    match w.blwImage h x.1 x.2 c with
    | (none, w) => (none, w)
    | (some bs, w1) =>
      match W.blwImages w1 h c xs with
      | (some r, w2) => (some ((x.2, bs) :: r), w2)
      | (none, w2) => (none, w2)

/-- Port words by hob offset, in order: none where a read fails. -/
def W.blwReads (w : W) (h : Nat) : List Nat → Option (List (Nat × List Byte)) × W
  | [] => (some [], w)
  | o :: os =>
    match w.blwRead h o 32 with
    | (none, w) => (none, w)
    | (some bs, w1) =>
      match W.blwReads w1 h os with
      | (some r, w2) => (some ((o, bs) :: r), w2)
      | (none, w2) => (none, w2)

/-- Writes of port words in order until one is refused. -/
def W.blwWrites (w : W) (h : Nat) : List (List (Nat × List Byte)) → Bool × W
  | [] => (true, w)
  | x :: xs =>
    match w.blwWrite h x with
    | (true, w1) => W.blwWrites w1 h xs
    | r => r

/-- The word at a hob offset, among port words read. -/
def wordIn (rs : List (Nat × List Byte)) (o : Nat) : Nat :=
  match rs.find? (fun r => r.1 == o / 32 * 32) with
  | some r => (wordAt r.2 (o % 32)).toNat
  | none => 0

/-- The port word at a hob offset, among port words read. -/
def portWord (rs : List (Nat × List Byte)) (o : Nat) : List Byte :=
  ((rs.find? (fun r => r.1 == o)).map (·.2)).getD (List.replicate 32 0)

/-- Port word 6, and port word 7 where it is written, of a context after a run. -/
def ctxTail (c : Ctx) (off stat : Nat) (st : List Nat) : List (Nat × List Byte) :=
  let ws := fun (l : List Nat) => l.flatMap (le 4)
  (off + 0xC0, ws ([stat, (c.cnt + 1) % 2 ^ 32] ++ slice (setState st []) 0 6)) ::
  (if c.w7 then [(off + 0xE0, ws (slice (setState st []) 6 8))] else [])

/-- The safe values of the valid outputs, as port-word writes of the output image (R222).
(DESIGN CHOICE: assumption 161.) -/
def W.safeWrites (w : W) (h : Nat) (c : Ctx) : List (List (Nat × List Byte)) :=
  portWords (((List.range 4).filter (fun i => dValid (c.out i))).map fun i =>
    let d := c.out i
    (w.outImage h + 4 * dWord d, le 4 ((convOut (dFmt d) (.flt (bIn (c.v i)))).getD 0)))

/-- RUNSTAT with its fields changed. -/
def runStat (old state : Nat) (retried safe : Bool) (cause : Nat) : Nat :=
  old / 65536 * 65536 + cause * 16 + 8 * safe.toNat + 4 * retried.toNat + state

/-- What a FAULTED context writes (R222): the safe values where port word 1 was read, and port word 6; where that one could
not be read, the lower half of RUNSTAT alone, whose fields do not depend on what it held.
(DEDUCED: assumption 176.) -/
def W.faultWrites (w : W) (h ctx stat : Nat) (c : Ctx) (safe tail : Bool) : W :=
  let w := if safe then (w.safeWrites h c).foldl (fun w x => (w.blwWrite h x).2) w else w
  (w.blwWrite h (if tail then (ctxTail c (w.ctxOff h ctx) stat c.st).take 1
    else [(w.ctxOff h ctx + 0xC0, le 2 (stat % 65536))])).2

/-- Every group of the hearth is selected: a context whose port word 0 cannot be read names none (R222, R234). -/
def W.selectAll (w : W) (h : Nat) : W := w.each (List.range 16) fun g w => w.selectGroup (0x210 + h) h g

/-- LAST_FAULT names a context fault, at the present time (R245). -/
def W.lastFault (w : W) (h : Nat) (info : Word32) : W :=
  let w := w.setReg 16 h 0x334 info
  (w.setReg 16 h 0x338 (lo32 w.dev.clock.tb)).setReg 16 h 0x33C (hi32 w.dev.clock.tb)

/-- LAST_FAULT of context `ctx` with a cause: its group, or HEADER where its header cannot be read (R222, R245). -/
def faultInfo (ctx cause : Nat) (group : Option Nat) : Word32 :=
  w32 (ctx + at_ cause 8 + at_ (group.getD 0) 12 + at_ group.isNone.toNat 16)

/-- A fault of context `ctx` (R222): `c` is what was read of it, `hdr` and `safe` say whether port words 0 and 1 were,
`tail` whether port word 6 was, `retried` whether the run needed its retry (R218). -/
def W.loopFault (w : W) (h ctx cause : Nat) (c : Ctx) (hdr safe tail : Bool) (retried : Bool := false) : W :=
  let w := if hdr then w.faultWrites h ctx (runStat c.stat 2 retried (w.selected h c.group) cause) c safe tail else w
  let info := faultInfo ctx cause (if hdr then some c.group else none)
  let w := (w.countReg 16 h 0x32C).lastFault h info
  let w := w.upd fun d => d.onBlw h fun b => { b with faulted := ctx :: b.faulted.filter (· != ctx) }
  let w := if hdr then w else w.selectAll h
  (w.raise (0x210 + h) info (w32 (if hdr then c.h 7 else 0)) false (if hdr then [c.group] else [])).interruptHearth h 33

/-- The inputs of a context from the port words read: values, raw words, and what is not finite (R217, R218). -/
def Ctx.inputs (c : Ctx) (inImg outImg : Nat) (rs : List (Nat × List Byte)) : List (Option Nat) × List Nat × List Nat :=
  let raw := (List.range 4).map fun i =>
    let d := c.inp i
    if dValid d then wordIn rs ((if dOut d then outImg else inImg) + 4 * dWord d) else 0
  let val := fun (i : Nat) => convIn (dFmt (c.inp i)) (raw.getD i 0)
  ((List.range 4).map fun i =>
    if dValid (c.inp i) then some (if c.scaled.contains i then bFma (c.v 6) (val i) (c.v 7) else val i) else none,
   raw, (List.range 4).filter fun i => dValid (c.inp i) && !f32.isFin (val i))

/-- How a run ends before its writes: a fault, or the result with what to write. -/
inductive RunEnd where
  | fault (cause : Nat)
  | ok (r : KRes)
  deriving DecidableEq, Repr

/-- Steps 3 to 5 of a slot (R213): the inputs, the stamps, the extension, and the execution with `bad` failed ones; a
non-finite input is reported before a stale stamp. (DEDUCED: assumption 112. DESIGN CHOICE: assumption 141.) -/
def W.evaluate (w : W) (h : Nat) (c : Ctx) (preset safe : Bool) (bad : Nat) : (RunEnd × Bool) × W :=
  let inImg := w.inImage h
  let outImg := w.outImage h
  let offs := c.imagePws.map fun k => (k, if k < 512 then inImg + 32 * k else outImg + 32 * (k - 512))
  match w.blwImages h c offs with
  | (none, w) => ((.fault 5, false), w)
  | (some rs, w) =>
    let (xs, raw, nonfin) := c.inputs inImg outImg rs
    let f := (w.dev.blw h).frame.toNat
    let stale := fun (s : Nat) =>
      dValid s && decide (s / 65536 < (f + 2 ^ 32 - wordIn rs (inImg + 4 * dWord s)) % 2 ^ 32)
    let badIn := nonfin ++ ((List.range 3).filter fun i => stale (c.stamps.getD i 0) && !nonfin.contains i)
    if c.kernel ≠ 9 ∧ nonfin ≠ [] then ((.fault 3, false), w)
    else if c.kernel ≠ 9 ∧ stale (c.h 5) then ((.fault 4, false), w)
    else
      let ext := c.extOff
      let k0 : KIn := { c := c, xs := xs, raw := raw, bad := badIn.filter (· < 3), preset := preset, safe := safe, ext := fun _ => 0 }
      let first := match c.kernel with
        | 5 => List.range (c.zBase / 8)
        | 6 => List.range c.extNeed
        | 8 => [c.s 1 % c.p 2 / 8]
        | _ => []
      match w.blwReads h (first.map fun i => ext + 32 * i) with
      | (none, w) => ((.fault 5, false), w)
      | (some es, w) =>
        let k1 := { k0 with ext := fun i => wordIn es (ext + 4 * i) }
        let more := if c.kernel = 5 then (tableCells k1).map (· / 8) else []
        match w.blwReads h (more.map fun i => ext + 32 * i) with
        | (none, w) => ((.fault 5, false), w)
        | (some zs, w) =>
          let k := { k1 with ext := fun i => wordIn (es ++ zs) (ext + 4 * i) }
          let need := c.beats + 2
          let slack := (w.dev.blw h).slack
          if bad = 0 then ((.ok (runKernel k), false), w)
          else if slack < need then ((.fault 2, false), w)
          else
            let w := (w.upd fun d => d.onBlw h fun b => { b with slack := b.slack - need }).countReg 16 h 0x328
            if bad = 1 then ((.ok (runKernel k), true), w) else ((.fault 1, true), w)

/-- Step 6 (R213): outputs, extension, port words 6 and 7. A retry that passed counts and is reported however the run ends
(R221). (DESIGN CHOICE: assumption 163.) (DEDUCED: assumption 112.) -/
def W.finishRun (w : W) (h ctx : Nat) (c : Ctx) (r : KRes) (retried : Bool) : W :=
  let off := w.ctxOff h ctx
  let outs := (r.outs.filter fun o => dValid (c.out o.1)).map fun o =>
    (w.outImage h + 4 * dWord (c.out o.1), convOut (dFmt (c.out o.1)) o.2)
  let old := c.stat + (if retried ∧ c.stat / 65536 < 65535 then 65536 else 0)
  let cf := { c with stat := old }
  let w := if retried then w.raise (0x200 + h) (w32 (ctx + at_ c.group 12)) (w32 (c.h 7)) else w
  if r.fault.isSome then w.loopFault h ctx (r.fault.getD 7) cf true true true retried
  else if outs.any (fun o => o.2.isNone) then w.loopFault h ctx 9 cf true true true retried
  else
    let stat := runStat old 1 retried (w.selected h c.group) (c.stat / 16 % 16)
    let sorted := (List.range 4096).filterMap fun k => (outs.find? (fun o => o.1 == w.outImage h + 4 * k)).map fun o =>
      (o.1, le 4 (o.2.getD 0))
    let exts := match r.ext with
      | some (i, v) => [(c.extOff + 4 * i, le 4 v)]
      | none => []
    match w.blwWrites h (portWords sorted ++ (exts ++ ctxTail c off stat r.st).map fun x => [x]) with
    | (false, w) => w.loopFault h ctx 8 cf true true true retried
    | (true, w) =>
      let w := w.upd fun d => d.onBlw h fun b => { b with faulted := b.faulted.filter (· != ctx) }
      if r.disc then w.raise (0x230 + h) 0 0 else w

/-- The commands that wait for a run of a context end with it (R240, R243). -/
def W.runDone (w : W) (h ctx : Nat) : W :=
  let key := 256 * h + ctx
  let stat := (wordAt (w.bytes (hobBase h + w.ctxOff h ctx + 0xC0) 4) 0).toNat
  (w.finishAll 0x0404 key sDone (le 4 (stat % 4))).finishAll 0x040A key sDone (le 4 (stat / 16 % 16))

/-- A later run of a context that is FAULTED (R222): port words 0, 1 and 6, the safe values and port word 6 again, no
event; it executes nothing, so it needs no retry (R218). A port word 0 that cannot be read selects every group, and
LAST_FAULT.HEADER says so. (DEDUCED: assumption 176.) -/
def W.slotFaulted (w : W) (h ctx : Nat) (h0 h1 t : Option (List Byte)) : W :=
  match h0 with
  | none => (w.lastFault h (faultInfo ctx 5 none)).selectAll h
  | some b0 =>
    let c := Ctx.ofBytes (b0 ++ h1.getD (List.replicate 32 0) ++ List.replicate 128 0 ++ t.getD [])
    let stat := runStat c.stat 2 false (w.selected h c.group) (if t.isSome then c.stat / 16 % 16 else 5)
    w.faultWrites h ctx stat c h1.isSome t.isSome

/-- A fault before port word 6 was reached: it is read for what the fault writes. -/
def W.earlyFault (w : W) (h ctx cause : Nat) (pws : List Byte) (safe : Bool) : W :=
  let (t, w) := w.blwRead h (w.ctxOff h ctx + 0xC0) 32
  w.loopFault h ctx cause (Ctx.ofBytes (pws ++ List.replicate (192 - pws.length) 0 ++ t.getD [])) true safe t.isSome

/-- Steps 2 to 6 of a slot whose port words 0 and 1 were read (R213): the other port words in ascending order; `tail` is port
word 6 where it was read already. -/
def W.slotRun (w : W) (h ctx bad : Nat) (resumed : Bool) (hdr : List Byte) (tail : Option (List Byte)) : W :=
  let off := w.ctxOff h ctx
  match w.blwRead h (off + 64) 32 with
  | (none, w) => w.earlyFault h ctx 5 hdr true
  | (some p0, w) =>
    let c1 := Ctx.ofBytes (hdr ++ p0)
    if c1.dimsOk = false then w.earlyFault h ctx 6 (hdr ++ p0) true
    else match w.blwReads h ((List.range (c1.pw - 1)).map fun i => off + 96 + 32 * i) with
    | (none, w) => w.earlyFault h ctx 5 (hdr ++ p0) true
    | (some ps, w) =>
      let body := hdr ++ p0 ++ ps.flatMap (·.2)
      let body := body ++ List.replicate (192 - body.length) 0
      let (t, w) := match tail with
        | some t => (some t, w)
        | none => w.blwRead h (off + 0xC0) 32
      match t with
      | none => w.loopFault h ctx 5 (Ctx.ofBytes body) true true false
      | some t =>
        let c6 := Ctx.ofBytes (body ++ t)
        if c6.stat % 4 = 2 ∧ resumed = false then w.slotFaulted h ctx (some (hdr.take 32)) (some (hdr.drop 32)) (some t)
        else match w.blwReads h (if c1.w7 then [off + 0xE0] else []) with
        | (none, w) => w.loopFault h ctx 5 c6 true true true
        | (some rs, w) =>
          let c := Ctx.ofBytes (body ++ t ++ portWord rs (off + 0xE0))
          if c.ok = false then w.loopFault h ctx 6 c true true true
          else match w.evaluate h c (c.stat % 4 == 0 || resumed) (w.selected h c.group) bad with
            | ((.fault n, retried), w) => w.loopFault h ctx n c true true true retried
            | ((.ok r, retried), w) => w.finishRun h ctx c r retried

/-- The bytes of the cells, in their order, by hob offset. -/
def cellParts (cs : List Host.Cell) : List (List (Nat × List Byte)) := portWords (cs.map fun c => (c.1, [c.2]))

/-- The parameter window (R230, R238, R239): the bellows writes the entries of the parameter buffer, one access for each port
word, and their commands end; a refused write faults the context, and its command fails.
(DEDUCED: assumption 149.) -/
def W.paramWindow (w : W) (h : Nat) : W :=
  let ps := (w.dev.blw h).params
  let w := w.upd fun d => d.onBlw h fun b => { b with params := [] }
  let (ok, w) := ps.foldl (fun (x : Bool × W) p =>
    match x.2.blwWrites h (cellParts p.cells) with
    | (true, w) => (x.1, w)
    | (false, w) =>
      let off := w.ctxOff h p.ctx
      let (h0, w) := w.blwRead h off 32
      let (h1, w) := w.blwRead h (off + 32) 32
      let (t, w) := w.blwRead h (off + 0xC0) 32
      let z := fun (n : Nat) => List.replicate n (0 : Byte)
      (false, w.loopFault h p.ctx 8 (Ctx.ofBytes (h0.getD (z 32) ++ h1.getD (z 32) ++ z 128 ++ t.getD (z 32))) h0.isSome
        h1.isSome t.isSome)) (true, w)
  let st := if ok then sDone else sInternalFault
  (w.finishAll 0x0402 h st []).finishAll 0x0403 h st []

/-- One slot (R213): a context that the bellows holds as FAULTED reads port word 6 after port word 1 (R222), any other its
port words in ascending order. -/
def W.slot (w : W) (h ctx bad : Nat) : W :=
  let off := w.ctxOff h ctx
  let b := w.dev.blw h
  let extra := match b.inject with
    | some (c, n) => if c = ctx then n else 0
    | none => 0
  let resumed := b.resume.contains ctx
  let held := b.faulted.contains ctx && !resumed
  let w := w.upd fun d => d.onBlw h fun b =>
    { b with ctx := ctx, inject := if extra = 0 then b.inject else none, resume := b.resume.filter (· != ctx) }
  let w := w.setReg 16 h 0x324 (w.hreg h 0x324 + 1)
  let (h0, w) := w.blwRead h off 32
  let (h1, w) := if h0.isSome then w.blwRead h (off + 32) 32 else (none, w)
  let w :=
    if held then
      let (t, w) := if h0.isSome then w.blwRead h (off + 0xC0) 32 else (none, w)
      match h0, h1, t with
      | some b0, some b1, some t =>
        if (wordAt t 0).toNat % 4 = 2 then w.slotFaulted h ctx h0 h1 (some t)
        else w.slotRun h ctx (bad + extra) resumed (b0 ++ b1) (some t)
      | _, _, _ => w.slotFaulted h ctx h0 h1 t
    else match h0, h1 with
      | none, _ => w.loopFault h ctx 5 (Ctx.ofBytes []) false false false
      | some b0, none => w.earlyFault h ctx 5 b0 false
      | some b0, some b1 => w.slotRun h ctx (bad + extra) resumed (b0 ++ b1) none
  w.runDone h ctx

/-- Report a late or halted image channel (R230, R231). -/
def W.imageLate (w : W) (h c : Nat) : W :=
  (w.upd fun d => d.onBlw h fun b => { b with late := setBit b.late c true }).raise (0x220 + h) 0 0

/-- The channels of a mask that run. -/
def W.runningChans (w : W) (h mask : Nat) : List Nat :=
  (bitsOf 16 mask).filter fun c => ((w.dev.blw h).chans.getD c {}).running

/-- Start a channel. -/
def Bellows.startChan (b : Bellows) (c : Nat) : Bellows :=
  { b with chans := b.chans.set c { running := true, frame := b.frame } }

/-- Stop a channel. -/
def Bellows.stopChan (b : Bellows) (c : Nat) : Bellows :=
  { b with chans := b.chans.set c { (b.chans.getD c {}) with running := false } }

/-- The output phase starts its channels (R230). -/
def W.startOutputs (w : W) (h : Nat) : W :=
  let mask := w.inUse h 0x310
  w.upd fun d => d.onBlw h fun b => (bitsOf 16 mask).foldl Bellows.startChan { b with phase := .output }

/-- The slot phase starts (R230, R231): output channels still running are aborted, input channels still running are
late. -/
def W.startSlots (w : W) (h : Nat) : W :=
  let w := w.each (w.runningChans h (w.inUse h 0x310)) fun c w =>
    (w.upd fun d => d.onBlw h fun b => b.stopChan c).imageLate h c
  let w := w.each (w.runningChans h (w.inUse h 0x30C)) fun c w => w.imageLate h c
  let w := w.upd fun d => d.onBlw h fun b => { b with phase := .slots, waitIn := false }
  if (w.dev.blw h).todo.isEmpty then w.startOutputs h else w

/-- The bank registers: base offset of bank A or B. -/
def bankOff (b : Bool) : Nat := if b then 0x620 else 0x610

/-- The entries of a bank (R255). -/
def W.entries (w : W) (h : Nat) (b : Bool) : List Word32 :=
  (List.range (min (fld (w.hreg h (bankOff b)) 0 9) 256)).map fun i => w.hreg h ((if b then 0xC00 else 0x800) + 4 * i)

/-- The idle pattern of a bank: IDLE_K and IDLE_PHASE. -/
def W.idlePattern (w : W) (h : Nat) (b : Bool) : Nat × Nat :=
  let v := w.hreg h (bankOff b + 8)
  (fld v 0 4, fld v 4 15)

/-- Frame `f` is idle in a bank (R254). -/
def W.idleFrame (w : W) (h : Nat) (b : Bool) (f : Nat) : Bool :=
  let (k, p) := w.idlePattern h b
  k != 0 && f % 2 ^ k == p

/-- An entry runs in frame `f` (R253, R268). -/
def entryRuns (e : Word32) (f : Nat) : Bool := f % 2 ^ fld e 8 4 == fld e 12 15 % 2 ^ fld e 8 4

/-- The smallest slack left at a frame's end (R221). -/
def W.slackEnd (w : W) (h : Nat) : W :=
  let b := w.dev.blw h
  if b.phase = .stopped then w else w.setReg 16 h 0x330 (w32 (min (w.hreg h 0x330).toNat (min b.slack 0xFFFF)))

/-- A frame overruns (R257). -/
def W.overrun (w : W) (h : Nat) : W :=
  let b := w.dev.blw h
  if b.phase ≠ .stopped ∧ b.phase ≠ .output ∧ b.todo ≠ [] then
    let w := (w.upd fun d => d.onBlw h fun b => { b with ovrCnt := satInc b.ovrCnt }).setReg 16 h 0x608 b.frame |>.cutFail h 6
    w.raise (0x250 + h) b.frame 0
  else w

/-- A segment of the bellows slice runs in an idle frame, and when the bank is empty or the bellows is stopped (R332); a slice
in progress completes in every mode (R327). -/
def W.segment (w : W) (h : Nat) (idle : Bool) : W :=
  match (w.dev.bu h).segs with
  | none => w
  | some n =>
    if n < 120 && idle then
      w.upd fun d => (d.onBu h fun b => { b with segs := some (n + 1) }).onBlw h fun b => { b with basting := true }
    else w.upd fun d => d.onBlw h fun b => { b with basting := false }

/-- The start of base frame `f` at the bellows of hearth `h` (R230, R252, R256). (DEDUCED: assumption 91.) -/
def W.frameStart (w : W) (h f : Nat) : W :=
  if w.bellowsOn h then
    let w := (w.overrun h).slackEnd h
    let w := w.takeBank h
    let base := blockBase 16 h
    let use : Tbl Word32 := ⟨(w.dev.regs.val.rows.filter fun r =>
      decide (base + 0x300 ≤ r.1 ∧ r.1 < base + 0x318) || decide (base + 0x400 ≤ r.1 ∧ r.1 < base + 0x600)).map fun r => (r.1 - base, r.2)⟩
    let bank := (w.dev.blw h).bankB
    let idle := w.idleFrame h bank f
    let es := w.entries h bank
    let todo := if idle then [] else es.filter fun e => entryRuns e f
    let f32 := w32 (f % 2 ^ 32)
    let w := w.upd fun d =>
      let fl := d.flue
      d.onBlw h fun b => { b with
        phase := .window, use := use, frame := f32, todo := todo, slack := fld (w.hreg h (bankOff bank + 4)) 0 16, waitIn := true,
        all := fl.devHold || (fl.holds.get? h).isSome,
        group := BitVec.ofNat 16 (maskOf 16 fun g => (fl.sels.get? (16 * h + g)).isSome) }
    let w := w.segment h (idle || es.isEmpty)
    let w := if idle then w else w.paramWindow h
    let ins := (bitsOf 16 (w.inUse h 0x30C)).filter fun c => !((w.dev.blw h).chans.getD c {}).running
    let w := w.upd fun d => d.onBlw h fun b => ins.foldl Bellows.startChan b
    if (w.runningChans h (w.inUse h 0x30C)).isEmpty then w.startSlots h else w
  else w.segment h true

/-- BLW_CNT_CLEAR (R245), and IMG_LATE with BELLOWS_COUNT_CLEAR (R236). -/
def W.blwClear (w : W) (h : Nat) (late : Bool) : W :=
  let w := (((w.setReg 16 h 0x328 0).setReg 16 h 0x32C 0).setReg 16 h 0x330 0xFFFF)
  if late then w.upd fun d => d.onBlw h fun b => { b with late := 0 } else w

/-- BLW_INJECT (R245). -/
def W.blwInject (w : W) (h : Nat) (v : Word32) : W :=
  let mode := fld v 8 2
  if mode = 3 then w
  else w.upd fun d => d.onBlw h fun b => { b with inject := if mode = 0 then none else some (fld v 0 8, mode) }

/-- CTX_RESUME (R245). -/
def W.ctxResume (w : W) (h : Nat) (v : Word32) : W :=
  let c := fld v 0 8
  if bitAt v 8 ∧ (w.dev.blw h).faulted.contains c then
    w.upd fun d => d.onBlw h fun b => { b with resume := c :: b.resume.filter (· != c) }
  else w

/-- CTX_RESUME. -/
def execCtxResume (m : Rid) (h : HearthId) (v : Word32) (s : State) : Host.Outcome State Fault Refusal :=
  run s fun w => w.writeRow m 16 h 0x344 v fun w => w.ctxResume h v

/-- BLW_INJECT. -/
def execBlwInject (m : Rid) (h : HearthId) (v : Word32) (s : State) : Host.Outcome State Fault Refusal :=
  run s fun w => w.writeRow m 16 h 0x340 v fun w => w.blwInject h v

/-- BLW_CNT_CLEAR. -/
def execBlwCntClear (m : Rid) (h : HearthId) (v : Word32) (s : State) : Host.Outcome State Fault Refusal :=
  run s fun w => w.writeRow m 16 h 0x348 v fun w => if bitAt v 0 then w.blwClear h false else w

/-- BELLOWS_SLOT (R213): the next entry of the frame; the output phase follows the last one. -/
def execBellowsSlot (h : HearthId) (bad : Nat) (s : State) : Host.Outcome State Fault Refusal :=
  run s fun w =>
    let b := w.dev.blw h
    match b.todo with
    | [] => w
    | e :: r =>
      if b.phase = .slots then
        let w := (w.upd fun d => d.onBlw h fun b => { b with todo := r }).slot h (fld e 0 8) bad
        if r.isEmpty ∧ (w.dev.blw h).phase = .slots then w.startOutputs h else w
      else w

/-- IN_DEADLINE_EXPIRY (R230). -/
def execInDeadlineExpiry (h : HearthId) (s : State) : Host.Outcome State Fault Refusal :=
  run s fun w =>
    let b := w.dev.blw h
    if b.phase = .window ∧ b.waitIn then
      (w.upd fun d => d.advanceTb (25000 * d.clock.frame.toNat + 10 * (w.inUse h 0x308 % 4096))).startSlots h
    else w

end Sys2Proof.Machine
end

