-- ==== Sys2Proof/Machine/Sched.lean ====
section
/-! DEFINITION. What the Stoker checks of contexts and schedules: the rules of R216, R217 and R224, the worst-case
check of R258 and the rules of R254 and R259, and the check before a level is lowered (R260). -/

namespace Sys2Proof.Machine

/-- The context area in force (R215). -/
def W.ctxBase (w : W) (h : Nat) : Nat := fld (w.hreg h 0x300) 0 6 * 0x10000
/-- The input image in force (R228). -/
def W.inBase (w : W) (h : Nat) : Nat := fld (w.hreg h 0x304) 0 8 * 0x4000
/-- The output image in force; the safe image follows it. -/
def W.outBase (w : W) (h : Nat) : Nat := fld (w.hreg h 0x304) 8 8 * 0x4000

/-- Context `c` of hearth `h` as it stands. -/
def W.ctxAt (w : W) (h c : Nat) : Ctx := Ctx.ofBytes (w.bytes (hobBase h + w.ctxBase h + 256 * c) 256)

/-- Two ranges of bytes overlap. -/
def overlaps (a n b m : Nat) : Bool := decide (0 < n ∧ 0 < m ∧ a < b + m ∧ b < a + n)

/-- A range of hob offsets touches the context area or an image (R224, R242). -/
def W.inAreas (w : W) (h a n : Nat) : Bool :=
  overlaps a n (w.ctxBase h) 0x10000 || overlaps a n (w.inBase h) 0x4000 || overlaps a n (w.outBase h) 0x8000

/-- The parameters of a kernel that are binary32 values (R224). (DEDUCED: assumption 113.) -/
def Ctx.floats (c : Ctx) : List Nat :=
  match c.kernel with
  | 1 => List.range 8
  | 2 => (List.range (1 + 5 * c.p 0)).map (· + 1)
  | 3 => [0, 1, 2]
  | 4 => [0, 1]
  | 7 => 1 :: (List.range (c.p 0)).flatMap (fun s => [2 + 3 * s, 3 + 3 * s])
  | 8 => [0, 1]
  | 9 => [0]
  | _ => []

/-- `lo ≤ x < 1` or `lo ≤ x ≤ 1`. -/
def inUnit (x : Nat) (closed : Bool) : Bool := f32.le 0 x && (if closed then f32.le x one32 else f32.lt x one32)

/-- The exact value of a finite binary32 number in units of 2^-149. -/
def exact32 (x : Nat) : Int := f32.int x (-149)

/-- An axis of `n` pairs (R224, TABLE2D): rising points, each reciprocal within 2^-20 of exact, the last one 0. -/
def axisOk (ext : Nat → Nat) (base n : Nat) : Bool :=
  (List.range n).all fun i =>
    let x := ext (base + 2 * i)
    let r := ext (base + 2 * i + 1)
    if i + 1 = n then f32.isFin x && r == 0
    else
      let y := ext (base + 2 * (i + 1))
      let p := exact32 r * (exact32 y - exact32 x)
      f32.isFin x && f32.isFin y && f32.isFin r && f32.lt x y &&
        decide ((p - (2 : Int) ^ 298).natAbs * 2 ^ 20 ≤ 2 ^ 298)

/-- The kernel's own rules (R224). (DEDUCED: assumptions 112, 113.) -/
def Ctx.kernelRules (c : Ctx) (ext : Nat → Nat) : Bool :=
  match c.kernel with
  | 1 => inUnit (c.p 3) false && inUnit (c.p 4) true && inUnit (c.p 5) true
  | 4 => f32.le 0 (c.p 0) && f32.le 0 (c.p 1)
  | 5 => axisOk ext 0 (c.p 0) && axisOk ext c.yAxis (c.p 1)
  | 7 => dFmt (c.inp 0) == 1 && (List.range (c.p 0)).all fun s => f32.lt 0 (c.p (3 + 3 * s)) && decide (c.p (4 + 3 * s) < 2 ^ 31)
  | 8 => inUnit (c.p 0) false
  | 9 => f32.le 0 (c.p 0) && ([c.p 1, c.p 2] : List Nat).all fun s => decide (s / 4096 % 8 = 0)
  | _ => true

/-- The rules of R224 for a context of hearth `h`. -/
def W.ctxRules (w : W) (h : Nat) (c : Ctx) : Bool :=
  let ext := fun (i : Nat) => (wordAt (w.bytes (hobBase h + c.extOff + 4 * i) 4) 0).toNat
  c.ok && (c.floats.all fun i => f32.isFin (c.p i)) && ((List.range 4).all fun i => f32.isFin (c.v i)) &&
  f32.le (c.v 4) (c.v 0) && f32.le (c.v 0) (c.v 5) &&
  decide (c.extOff + 32 * c.extLen ≤ 0x400000) && !w.inAreas h c.extOff (32 * c.extLen) && c.kernelRules ext

/-- The rules of R216 to R218 for a block: reserved bits and the reserved MODE. -/
def Ctx.formOk (c : Ctx) : Bool :=
  decide (c.h 0 < 2 ^ 18) && c.mode != 3 && decide (c.h 5 / 4096 % 8 = 0) &&
  (List.range 4).all fun i => !dOut (c.out i)

/-- A schedule as a bank holds it, with its output reserve (R255, R258). -/
structure Plan where
  /-- The entries. -/
  entries : List Word32
  /-- SLACK. -/
  slack : Nat
  /-- IDLE_K. -/
  idleK : Nat
  /-- IDLE_PHASE. -/
  idleP : Nat
  /-- OUT_RESERVE. -/
  reserve : Nat
  deriving DecidableEq, Repr

/-- CONTEXT of an entry. -/
def entryCtx (e : Word32) : Nat := fld e 0 8
/-- FCLASS of an entry. -/
def entryClass (e : Word32) : Nat := fld e 8 4
/-- PHASE of an entry. -/
def entryPhase (e : Word32) : Nat := fld e 12 15

/-- The schedule that a bank holds. -/
def W.plan (w : W) (h : Nat) (b : Bool) : Plan :=
  { entries := w.entries h b, slack := fld (w.hreg h (bankOff b + 4)) 0 16, idleK := (w.idlePattern h b).1,
    idleP := (w.idlePattern h b).2, reserve := ((w.dev.blw h).banks.getD b.toNat {}).reserve }

/-- What the check of R258 finds: the worst frame, its beats, its end in 0.01 ns after t_f, and whether every frame
fits. -/
structure PlanCheck where
  /-- The worst frame. -/
  frame : Nat
  /-- Its beats, slack included. -/
  beats : Nat
  /-- Its end in 0.01 ns. -/
  endAt : Nat
  /-- Every frame fits. -/
  fits : Bool
  deriving DecidableEq, Repr

/-- K of R258: the largest class among the entries and IDLE_K. -/
def Plan.period (p : Plan) : Nat := p.entries.foldl (fun k e => max k (entryClass e)) p.idleK

/-- The beats of frame `f`, with the entries' worst-case costs. -/
def Plan.beats (p : Plan) (costs : List Nat) (f : Nat) : Nat :=
  (p.entries.zip costs).foldl (fun b x => if entryRuns x.1 f then b + x.2 else b) p.slack

/-- The check of R258 with beats of `beta` in 0.01 ns. -/
def Plan.check (p : Plan) (costs : List Nat) (inDeadline beta : Nat) : PlanCheck :=
  let frames := (List.range (2 ^ p.period)).filter fun f => !(p.idleK != 0 && f % 2 ^ p.idleK == p.idleP)
  frames.foldl (fun r f =>
    let b := p.beats costs f
    let e := max (inDeadline * 1000) (352 * beta) + b * beta
    let fits := r.fits && decide (e + p.reserve * 1000 ≤ 2500000)
    if r.endAt < e then { frame := f, beats := b, endAt := e, fits := fits } else { r with fits := fits })
    { frame := 0, beats := 0, endAt := 0, fits := true }

/-- Wc of the contexts that a schedule places. -/
def W.planCosts (w : W) (h : Nat) (p : Plan) : List Nat := p.entries.map fun e => (w.ctxAt h (entryCtx e)).worst

/-- The check of R258 of a schedule at a level. -/
def W.planAt (w : W) (h : Nat) (p : Plan) (level : Nat) : PlanCheck :=
  p.check (w.planCosts h p) (fld (w.hreg h 0x308) 0 12) (slowBeat level)

/-- The rail that feeds hearth `h`: 0 VCN, 1 VCS. -/
def railOf (h : Nat) : Nat := if h < 8 then 0 else 1

/-- The level that R258 takes β at. -/
def W.checkLevel (w : W) (h : Nat) : Nat := w.dev.power.bound (railOf h)

/-- The slack rule of R259. -/
def W.slackOk (w : W) (h : Nat) (p : Plan) : Bool :=
  p.entries.all fun e => decide ((w.ctxAt h (entryCtx e)).beats + 2 ≤ p.slack)

/-- An entry conflicts with the idle pattern (R254). -/
def Plan.conflicts (p : Plan) (e : Word32) : Bool :=
  let m := min (entryClass e) p.idleK
  p.idleK != 0 && entryPhase e % 2 ^ m == p.idleP % 2 ^ m

/-- A schedule passes R258 and R259 at a level. -/
def W.planPasses (w : W) (h : Nat) (p : Plan) (level : Nat) : Bool :=
  (w.planAt h p level).fits && w.slackOk h p && (p.entries.all fun e => w.ctxRules h (w.ctxAt h (entryCtx e))) &&
  !(p.entries.any p.conflicts)

/-- MIN_LEVEL of R263. -/
def W.minLevel (w : W) (h : Nat) (p : Plan) : Nat :=
  ((List.range 7).find? fun l => w.planPasses h p l).getD 15

/-- The 16-byte result of R263. (DEDUCED: assumption 76.) -/
def W.planResult (w : W) (h : Nat) (p : Plan) (level : Nat) : List Byte :=
  let r := w.planAt h p level
  le 4 r.frame ++ le 4 r.beats ++ le 4 ((r.endAt + 99) / 100) ++ le 4 (level + 16 * w.minLevel h p)

/-- The hearths of a rail that are available. -/
def W.railHearths (w : W) (r : Nat) : List Nat :=
  (List.range 16).filter fun h => railOf h == r && bitAt w.dev.sys.avail h

/-- Rail `r` may be lowered to a level (R260): every active bank on it still passes R258. -/
def W.mayLower (w : W) (r level : Nat) : Bool :=
  (w.railHearths r).all fun h => (w.planAt h (w.plan h (bitAt (w.hreg h 0x600) 0)) level).fits

/-- Standby banks that fail at the new level are marked unchecked (R260). -/
def W.markStandby (w : W) (r level : Nat) : W :=
  w.each (w.railHearths r) fun h w =>
    let b := !(bitAt (w.hreg h 0x600) 0)
    if (w.planAt h (w.plan h b) level).fits then w
    else w.upd fun d => d.onBlw h fun x => { x with banks := x.banks.set b.toNat { (x.banks.getD b.toNat {}) with unchecked := true } }

/-- Context `c` is placed in the accepted schedule of hearth `h` (R237, R264). -/
def W.placed (w : W) (h c : Nat) : Bool := (w.plan h (bitAt (w.hreg h 0x600) 0)).entries.any fun e => entryCtx e == c

end Sys2Proof.Machine
end

