-- ==== Sys2Proof/Machine/Frames.lean ====
section
/-! DEFINITION. The time base: steps (R251, R265, R267, R484), the servo (R250, R483), base-frame boundaries (R252)
and time-base compares (R266, R267). -/

namespace Sys2Proof.Machine

/-- Every bellows is stopped. -/
def W.allStopped (w : W) : Bool := (List.range 16).all fun h => (w.dev.blw h).phase == .stopped

/-- A step is allowed in this mode (R251, R267). -/
def W.stepMode (w : W) : Bool :=
  let m := w.dev.sys.mode
  m == .prepare || m == .lockout || (m == .maintain && w.allStopped)

/-- The configured courses that the base reaches. -/
def W.reachedCourses (w : W) : List Nat :=
  (List.range 8).filter fun n => n != 0 && n < w.dev.chim.members.toNat && (w.dev.course n).reach

/-- A step of the time base (R251): the counter moves, the interval counter does not. (DEDUCED: assumption 64.) -/
def W.stepTb (w : W) (off : Word64) : W :=
  (w.upd fun d => { d with clock := { d.clock with tb := d.clock.tb + off, stepCnt := satInc d.clock.stepCnt } }).raise 0x261 0 0

/-- A step at this device; a base hands it to its reachable courses with the next time frame, for the boundary that
follows (R484). (DEDUCED: assumption 64.) -/
def W.step (w : W) (off : Word64) : W :=
  let w := w.stepTb off
  if w.dev.isCourse ∨ w.reachedCourses = [] then w
  else w.upd fun d =>
    let sum := match d.chim.stepMark with
      | some (o, _) => o + off
      | none => off
    { d with chim := { d.chim with stepMark := some (sum, d.clock.frameNo + 1) } }

/-- STEP_GO (R267). (DEDUCED: assumption 65.) -/
def W.stepGo (w : W) (v : Word32) : W :=
  if bitAt v 0 ∧ w.stepMode ∧ w.tbSource ≠ 5 then
    w.step (w64 ((w.reg 5 0 0x3C).toNat + 2 ^ 32 * (w.reg 5 0 0x40).toNat))
  else w

/-- STEP_GO. -/
def execStepGo (m : Rid) (v : Word32) (s : State) : Host.Outcome State Fault Refusal :=
  run s fun w => w.writeRow m 5 0 0x44 v fun w => w.stepGo v

/-- The stored form of TB_RATE: ±500,000 ppb at most (R266). (DESIGN CHOICE: assumption 66.) -/
def clampRate (v : Int) : Word32 := BitVec.ofInt 32 (max (-500000) (min 500000 v))

/-- A new source starts its servo (R265). -/
def Clock.newSession (c : Clock) : Clock :=
  { c with locked := false, holdover := false, good := 0, everLocked := false, stepped := false, offset := 0, lastSync := none }

/-- A valid sync with a measured offset in ns (R250, R251, R483): 16 offsets in a row within `limit` lock the servo;
it steps once before its first lock where the offset exceeds 1 µs and the mode allows it, and otherwise slews. The
rate that it sets is not stated: a free value. (DESIGN CHOICE: assumption 66.) -/
def W.sync (w : W) (off : Int) (limit : Nat) : W :=
  let c := w.dev.clock
  let good := if off.natAbs ≤ limit then min (c.good + 1) 16 else 0
  let lock := c.locked || decide (16 ≤ good)
  let w := if c.holdover then (w.upd fun d => { d with clock := { d.clock with holdover := false } }).inactive 0x260 else w
  let w := w.upd fun d => { d with clock := { d.clock with
    offset := off, lastSync := some d.clock.ivl, good := good, locked := lock, everLocked := d.clock.everLocked || lock } }
  if !c.everLocked && !c.stepped && decide (1000 < off.natAbs) && w.stepMode then
    (w.upd fun d => { d with clock := { d.clock with stepped := true } }).step (BitVec.ofInt 64 (-off))
  else
    let (n, w) := w.fresh
    w.setReg 5 0 0x38 (clampRate (Config.freeWord n).toInt)

/-- The servo enters holdover (R250). (DESIGN CHOICE: assumption 66.) -/
def W.holdover (w : W) : W :=
  if w.dev.clock.holdover then w
  else (w.upd fun d => { d with clock := { d.clock with holdover := true, locked := false, good := 0 } }).level 0x260 0 0

/-- SYNC_TIMEOUT (R250): three sync intervals of an Ethernet discipline without a valid sync. -/
def execSyncTimeout (s : State) : Host.Outcome State Fault Refusal :=
  run s fun w => if 1 ≤ w.tbSource ∧ w.tbSource ≤ 4 then w.holdover else w

/-- FRAME_BOUNDARY (R230, R252): the next boundary that has not been taken.
(DESIGN CHOICE: assumption 10.) -/
def execFrameBoundary (s : State) : Host.Outcome State Fault Refusal :=
  run s fun w =>
    let c := w.dev.clock
    if c.running = false then w
    else
      let cur := c.tb.toNat / 25000
      let f := if c.tb.toNat % 25000 = 0 ∧ c.frame.toNat ≠ cur then cur else cur + 1
      let w := w.upd fun d =>
        let d := d.advanceTb (25000 * f)
        { d with clock := { d.clock with frame := w64 f } }
      let w := (List.range 65).foldl (fun w k => w.interrupt k 32) w
      let w := w.each (List.range 16) fun h w => w.frameStart h f
      match w.dev.chim.stepDue with
      | some (off, at_) =>
        if at_.toNat ≤ f then (w.upd fun d => { d with chim := { d.chim with stepDue := none } }).stepTb off else w
      | none => w

/-- Offset of register `k` of compare `n` (R266). -/
def cmpOff (n k : Nat) : Nat := 0x2000 + 16 * n + 4 * k

/-- The value of a compare. -/
def W.cmpValue (w : W) (n : Nat) : Nat := (w.reg 5 0 (cmpOff n 0)).toNat + 2 ^ 32 * (w.reg 5 0 (cmpOff n 1)).toNat

/-- TCMP_FIRE (R267): compare `n` is armed and the time base reaches it, or has passed it. -/
def execTcmpFire (n : CompareId) (s : State) : Host.Outcome State Fault Refusal :=
  run s fun w =>
    let ctl := w.reg 5 0 (cmpOff n 3)
    if bitAt ctl 0 then
      let v := w.cmpValue n
      let w := (w.upd fun d => d.advanceTb v).interrupt (n / 8) (40 + n % 8)
      let p := (w.reg 5 0 (cmpOff n 2)).toNat
      if p = 0 then w.setReg 5 0 (cmpOff n 3) (setBit ctl 0 false)
      else
        let m := (w.dev.clock.tb.toNat - v) / p + 1
        let nv := (v + m * p) % 2 ^ 64
        let w := (w.setReg 5 0 (cmpOff n 0) (w32 (nv % 2 ^ 32))).setReg 5 0 (cmpOff n 1) (w32 (nv / 2 ^ 32))
        w.setReg 5 0 (cmpOff n 3) (setFld ctl 16 16 (min (fld ctl 16 16 + (m - 1)) 65535))
    else w

/-- A write of a TIME register other than its common registers (R266, R267); `none` for a register that this block
does not keep. -/
def W.writeTime (w : W) (o : Nat) (v : Word32) : Option W :=
  if o = 0x38 then some (w.setReg 5 0 o (clampRate v.toInt))
  else if o = 0x44 then some (w.stepGo v)
  else if 0x2000 ≤ o ∧ o < 0x4000 then
    let n := (o - 0x2000) / 16
    let k := (o - 0x2000) % 16 / 4
    let en := bitAt (w.reg 5 0 (cmpOff n 3)) 0
    if k < 2 then some (if en then w else w.setReg 5 0 o v)
    else if k = 2 then some (w.setReg 5 0 o (if 0 < v.toNat ∧ v.toNat < 1000 then 1000 else v))
    else some (w.setReg 5 0 o (if bitAt v 0 then 1 else setFld (w.reg 5 0 o) 0 1 0))
  else none

end Sys2Proof.Machine
end

