-- ==== Sys2Proof/Machine/Commit.lean ====
section
/-! DEFINITION. Staged registers and their commits (R35 to R38): GO, the commit point, the agreement rules that each
block checks itself, and what becomes active. -/

namespace Sys2Proof.Machine

/-- The world as it would stand with staged values active. -/
def W.applied (w : W) (snap : Tbl Word32) : W :=
  w.upd fun d => { d with regs := { d.regs with val := snap.rows.foldl (fun t r => t.set r.1 (w.cook r.1 r.2)) d.regs.val } }

/-- Offsets of a failing rule: the rule fails where `bad` holds. -/
def bad (b : Bool) (offs : List Nat) : List Nat := if b then offs else []

/-- A value lies outside a range. -/
def outside (v lo hi : Nat) : Bool := decide (v < lo) || decide (hi < v)

/-- The rule of HOB_CTL (R209). -/
def hobCommit (n : W) (typ inst : Nat) : List Nat := bad (outside (fld (n.reg typ inst 0x200) 0 13) 25 5000) [0x200]

/-- The rules of FLUE (R303): reserved bits are never stored. -/
def flueCommit (n : W) : List Nat :=
  bad (outside (fld (n.reg 2 0 0x24) 0 20) 10 600000) [0x24] ++
  bad (fld (n.reg 2 0 0x28) 0 4 == 0) [0x28] ++
  bad (let v := fld (n.reg 2 0 0x2C) 0 20; v != 0 && outside v 10 600000) [0x2C] ++
  bad (outside (fld (n.reg 2 0 0x30) 0 14) 50 10000) [0x30] ++
  (List.range 1024).flatMap fun s =>
    match n.source s with
    | none => []
    | some r =>
      let o := 0x1000 + 4 * s
      bad ((r.fixed && n.reg 2 0 o != n.regReset 2 o) || (n.sev s == 3 && !((n.mask s).testBit 3)) ||
           (decide (0x300 ≤ s ∧ s < 0x340) && (n.sev s != 0 || n.mask s != 1))) [o]

/-- The rules of PWR (R475). -/
def pwrCommit (w n : W) : List Nat :=
  let c := n.reg 4 0 0x20
  let a := n.reg 4 0 0x28
  bad (fld c 0 3 == 7 || fld c 4 3 == 7 || outside (fld c 8 3) 3 5 ||
       (List.range 3).any (fun r => w.dev.power.transit r && fld c (4 * r) 3 != fld (w.reg 4 0 0x20) (4 * r) 3)) [0x20] ++
  bad (fld a 0 2 == 3 || outside (fld a 4 10) 10 400) [0x28]

/-- The rule of TIME (R249): at a course the staged SOURCE is ignored, but its reserved codes are refused as well. -/
def timeCommit (n : W) : List Nat :=
  let s := fld (n.reg 5 0 0x34) 0 3
  bad (s == 6 || s == 7 || (s == 5 && !n.dev.isCourse)) [0x34]

/-- The rules of DAMP (R306). -/
def dampCommit (w n : W) : List Nat :=
  (List.range 64).flatMap fun k =>
    let o := 0x2000 + 4 * k
    bad (outside (fld (n.reg 6 0 o) 4 9) 1 500 ||
         (bitAt (w.reg 6 0 o) 0 && !bitAt (n.reg 6 0 o) 0 && (w.dev.damper k).st != DampSt.safe)) [o]

/-- The rules of FIO (R512). -/
def fioCommit (n : W) : List Nat :=
  (List.range 128).flatMap fun p => bad (fld (n.reg 7 0 (0x100 + 4 * p)) 0 2 == 3) [0x100 + 4 * p]

/-- The queue that the QCFG registers of BOB configure. -/
def qcfgSel (n : W) : Nat := fld (n.reg 8 0 0x30) 0 12

/-- The mode of a code; `none` for the reserved one. -/
def qMode : Nat → Option QMode
  | 0 => some .disabled
  | 1 => some .word
  | 2 => some .packet
  | _ => none

/-- The configuration that QCFG_A, QCFG_B and QCFG_C spell (R394). -/
def qcfgOf (n : W) : QCfg :=
  let a := n.reg 8 0 0x34
  { mode := (qMode (fld a 17 2)).getD .disabled, floor := fld a 0 17, cap := fld (n.reg 8 0 0x38) 0 17,
    level := fld (n.reg 8 0 0x3C) 0 17, tryCells := fld a 19 7, safety := bitAt a 26 }

/-- RSV with the configuration `c` in queue `q`. -/
def Bobbin.rsvWith (b : Bobbin) (old c : QCfg) : Nat := b.rsv - old.floor + c.floor

/-- A queue holds cells or open packets. -/
def W.queueBusy (w : W) (q : Nat) : Bool := (w.dev.queue q).occ != 0 || w.dev.bobbin.opens.any (fun p => p.q == q)

/-- The rules of BOB (R395). -/
def bobCommit (w n : W) : List Nat :=
  let q := qcfgSel n
  let c := qcfgOf n
  let old := (w.dev.queue q).cfg
  bad (fld (n.reg 8 0 0x34) 17 2 == 3 || decide (65536 < c.floor) || decide (c.cap < c.floor) || decide (74 < c.tryCells) ||
       decide (c.cap < c.tryCells) || (c.safety && (c.mode != QMode.packet || c.floor == 0)) ||
       decide (65536 < w.dev.bobbin.rsvWith old c) || (c.mode != old.mode && w.queueBusy q)) [0x34] ++
  bad (decide (65536 < c.cap) || decide (c.cap < (w.dev.queue q).occ) || decide (c.cap < c.level)) [0x38]

/-- The rules of FW (R187). -/
def fwCommit (n : W) : List Nat :=
  ((List.range 16).filter (fun u => !fwFixed u)).flatMap fun u =>
    (List.range 32).flatMap fun i =>
      let r := n.fwRule u i
      let o := 0x1000 + u * 0x400 + 0x100 + 16 * i
      bad (r.2.2.2.testBit 0 && decide (r.2.1 < r.1)) [o] ++ bad (r.2.2.2.testBit 0 && decide (fwLast u < r.2.1)) [o + 4]

/-- The rule of SCHED_CTL (R268): the bank that is to become active. -/
def schedBad (n : W) (h : Nat) : Bool :=
  let b := bitAt (n.hreg h 0x600) 0
  let es := (n.entries h b).map entryCtx
  decide (256 < fld (n.hreg h (bankOff b)) 0 9) || (n.entries h b).any (fun e => fld e 27 5 != 0) || es.eraseDups.length != es.length ||
  decide (2 ^ (n.idlePattern h b).1 ≤ (n.idlePattern h b).2)

/-- The rules of HEARTH_h (R96, R107, R209, R246, R268). (DEDUCED: assumption 96.) -/
def hearthCommit (n : W) (h : Nat) : List Nat :=
  let inp := n.inBase h
  let out := n.outBase h
  let ctx := n.ctxBase h
  let ins := fld (n.hreg h 0x30C) 0 16
  let outs := fld (n.hreg h 0x310) 0 16
  (List.range 4).flatMap (fun k => bad (outside (fld (n.hreg h (0x100 + 4 * k)) 0 9) 20 500) [0x100 + 4 * k]) ++
  bad (fld (n.hreg h 0x128) 0 4 == 0) [0x128] ++ hobCommit n 16 h ++
  bad (overlaps inp 0x4000 out 0x8000 || overlaps inp 0x4000 ctx 0x10000 || overlaps out 0x8000 ctx 0x10000) [0x300] ++
  bad (fld (n.hreg h 0x304) 8 8 == 0xFF) [0x304] ++
  bad (decide (2400 < fld (n.hreg h 0x308) 0 12)) [0x308] ++
  bad (Nat.land ins outs != 0) [0x30C] ++
  (List.range 16).flatMap (fun c =>
    let win := n.hreg h (0x408 + 16 * c)
    let stamp := ins.testBit c && bitAt (n.hreg h 0x314) c
    bad ((ins.testBit c || outs.testBit c) && decide (4096 < fld win 0 12 + fld win 12 13 + stamp.toNat)) [0x30C] ++
    bad (fld (n.hreg h (0x400 + 16 * c)) 0 2 != 0) [0x400 + 16 * c]) ++
  bad (schedBad n h) [0x600]

/-- The registers of the rules that block (typ, inst) finds broken in `n`, which is `w` with the snapshot active. -/
def commitRules (w n : W) (typ inst : Nat) : List Nat :=
  match typ with
  | 1 => hobCommit n 1 0
  | 2 => flueCommit n
  | 3 => bad (outside (fld (n.reg 3 0 0x28) 0 20) 10 1000000) [0x28]
  | 4 => pwrCommit w n
  | 5 => timeCommit n
  | 6 => dampCommit w n
  | 7 => fioCommit n
  | 8 => bobCommit w n
  | 11 => fwCommit n
  | 14 => bad (outside (fld (n.reg 14 0 0x20) 0 14) 10 10000) [0x20]
  | 16 => hearthCommit n inst
  | _ => []

/-- Blocks whose own COMMIT refuses a reserved bit that is not 0 (R303, R306, R324, R345, R395, R475, R512). -/
def straysRefused (typ : Nat) : Bool := ([2, 3, 4, 6, 7, 8, 14] : List Nat).contains typ

/-- The registers of a snapshot that break the rule on reserved bits. -/
def W.strayRules (w : W) (snap : Tbl Word32) (typ inst : Nat) : List Nat :=
  if straysRefused typ then
    (snap.rows.filter fun r => inBlock typ inst r.1 && w.strayAt r).map fun r => r.1 - blockBase typ inst
  else []

/-- What a DONE commit changes beyond the registers. (DEDUCED: assumption 95.) -/
def W.committed (w old : W) (typ inst : Nat) : W :=
  match typ with
  | 2 =>
    let f := w.dev.flue
    let w := w.upd fun d => { d with flue := { d.flue with hwSafe := false, noMajority := false } }
    let w := if f.noMajority && w.active 0 then w.inactive 0 else w
    (w.upd fun d => d.onQueue (fld (w.reg 2 0 0x34) 0 12) fun q => { q with cfg := { q.cfg with safety := true } }).errAuto
  | 4 => w.levelCtl
  | 5 =>
    if w.dev.isCourse || w.reg 5 0 0x34 == old.reg 5 0 0x34 then w
    else (w.when w.dev.clock.holdover fun w => w.inactive 0x260).upd fun d => { d with clock := d.clock.newSession }
  | 6 =>
    let w := w.each (List.range 64) fun n w =>
      let o := 0x2000 + 4 * n
      if bitAt (w.reg 6 0 o) 2 == bitAt (old.reg 6 0 o) 2 then w else w.upd fun d => d.onDamper n fun c => { c with fb := !c.fb }
    (w.each (List.range 64) fun n w => if w.forcedBy n then w.forceCh n else w).releaseChs
  | 7 => w.upd fun d => { d with ports := { d.ports with fioDone := true } }
  | 8 => (w.upd fun d => d.onQueue (qcfgSel w) fun q => { q with cfg := qcfgOf w }).poolCheck
  | 16 => if (w.dev.blw inst).phase = .stopped then w.takeBank inst else w
  | _ => w

/-- The commit point of a block is reached: FLUE waits until no reaction is in progress (R299); every other block
commits at once. (DEDUCED: assumption 95.) -/
def W.atCommitPoint (w : W) (typ : Nat) : Bool := typ != 2 || !w.dev.flue.reacting

/-- The commit point (R37 steps 3 to 5). -/
def W.commitPoint (w : W) (typ inst : Nat) : W :=
  let base := blockBase typ inst
  let c := w.dev.commit base
  if c.state ≠ .busy ∨ !w.atCommitPoint typ then w
  else
    let n := w.applied c.snap
    match w.strayRules c.snap typ inst ++ commitRules w n typ inst with
    | [] =>
      let n := n.upd fun d =>
        ({ d with regs := { d.regs with staged := ⟨d.regs.staged.rows.filter (fun r =>
            !(inBlock typ inst r.1) || d.regs.val.getD r.1 (n.regReset typ (r.1 - base)) != n.cook r.1 r.2 ||
              (straysRefused typ && n.strayAt r))⟩ } }).onCommit base fun c =>
          { c with state := .done, seq := c.seq + 1, dirty := c.late, conflictAt := 0xFFFFFFFF, snap := ⟨[]⟩, late := false,
                   everDone := true }
      n.committed w typ inst
    | o :: os =>
      w.upd fun d => d.onCommit base fun c =>
        { c with state := .conflict, conflictAt := w32 (os.foldl min o), snap := ⟨[]⟩, late := false }

/-- COMMIT.GO (R37 step 1, R38). -/
def W.commitGo (w : W) (typ inst : Nat) : W :=
  if hasStaged typ = false then w
  else
    let base := blockBase typ inst
    w.upd fun d => d.onCommit base fun c =>
      if c.state = .busy then { c with overrun := true }
      else { c with state := .busy, overrun := false, late := false, snap := d.regs.staged.keep (inBlock typ inst) }

/-- STAGE_DISCARD.GO (R35, R38): the staged values become the active ones of now; those of a pending commit stand
written out, so that the commit does not move them. -/
def W.stageDiscard (w : W) (typ inst : Nat) : W :=
  if hasStaged typ = false then w
  else
    let snap := (w.dev.commit (blockBase typ inst)).snap.rows
    let now := fun (t : Tbl Word32) (r : Nat × Word32) => t.set r.1 (w.reg typ inst (r.1 - blockBase typ inst))
    w.upd fun d =>
      ({ d with regs := { d.regs with staged := snap.foldl now (d.regs.staged.keep fun a => !(inBlock typ inst a)) } }).onCommit
        (blockBase typ inst) fun c => { c with dirty := false, late := false }

/-- A write of COMMIT by master `m`: GO, which by another master than the Stoker starts the bellows of HEARTH_h in MAINTAIN
(R47). (DESIGN CHOICE: assumption 153.) -/
def W.commitWrite (w : W) (m : Rid) (typ inst : Nat) (v : Word32) : W :=
  if bitAt v 0 = false then w
  else
    let w := w.commitGo typ inst
    if typ = 16 ∧ w.dev.sys.mode = .maintain ∧ m ≠ w.stokerRid then w.upd fun d => d.onBlw inst fun b => { b with expert := true }
    else w

/-- A write by master `m` of a register of a block that the device has; a block that R29 does not list has no effect. -/
def W.blockWrite (w : W) (m : Rid) (b : BlockId) (o : Nat) (v : Word32) (act : W → W) : W :=
  if allBlocks.contains (b.typ.toNat, b.inst.toNat) then w.writeRow m b.typ.toNat b.inst.toNat o v act else w

/-- COMMIT (R35, R37): a write of the register; bit 0 is GO. -/
def execCommit (m : Rid) (b : BlockId) (v : Word32) (s : State) : Host.Outcome State Fault Refusal :=
  run s fun w => w.blockWrite m b 8 v fun w => w.commitWrite m b.typ.toNat b.inst.toNat v

/-- STAGE_DISCARD (R35). -/
def execStageDiscard (m : Rid) (b : BlockId) (v : Word32) (s : State) : Host.Outcome State Fault Refusal :=
  run s fun w => w.blockWrite m b 0x14 v fun w => if bitAt v 0 then w.stageDiscard b.typ.toNat b.inst.toNat else w

end Sys2Proof.Machine
end

