-- ==== Sys2Proof/Machine/Command.lean ====
section
/-! DEFINITION. The command service of the Stoker: the COMMAND records (R75), how a packet is taken and checked (R63,
R68, R69, R70), pending commands (R73), and what ends with a session (R454). -/

namespace Sys2Proof.Machine

/-- A COMMAND record (R19). -/
structure CmdInfo where
  /-- OPCODE. -/
  opc : Nat
  /-- The name. -/
  name : String
  /-- MODE_MASK. -/
  mask : Nat
  /-- MIN_LEN. -/
  minLen : Nat
  /-- MAX_LEN. -/
  maxLen : Nat
  /-- GRANT. -/
  grant : Bool
  deriving DecidableEq, Repr

/-- The device, mode and time commands. -/
def cmds1 : List CmdInfo :=
  [⟨0x0101, "DEVICE_RESET", 0x0BF8, 0, 0, false⟩, ⟨0x0102, "RUN_START", 0x0008, 0, 0, false⟩,
   ⟨0x0103, "RUN_STOP", 0x01B0, 0, 0, false⟩, ⟨0x0104, "DOZE_ENTER", 0x0008, 0, 0, false⟩,
   ⟨0x0105, "MAINTAIN_ENTER", 0x0008, 0, 0, true⟩, ⟨0x0106, "MAINTAIN_EXIT", 0x0800, 0, 0, false⟩,
   ⟨0x0107, "NOP", 0x0BF8, 0, 0, false⟩, ⟨0x0110, "TIME_STATUS", 0x0BF8, 0, 0, false⟩,
   ⟨0x0111, "TIME_STEP", 0x0A08, 8, 8, false⟩]

/-- The configuration transaction commands. -/
def cmds2 : List CmdInfo :=
  [⟨0x0201, "CONFIG_BEGIN", 0x0BB8, 4, 140, false⟩, ⟨0x0202, "CONFIG_WRITE", 0x0BB8, 12, 4080, false⟩,
   ⟨0x0203, "CONFIG_COMMIT", 0x0BB8, 0, 0, false⟩, ⟨0x0204, "CONFIG_ABORT", 0x0BB8, 0, 0, false⟩]

/-- The lane commands. -/
def cmds3 : List CmdInfo :=
  [⟨0x0301, "LANE_STATUS", 0x0BF8, 4, 4, false⟩, ⟨0x0302, "LANE_FENCE", 0x09B8, 4, 4, false⟩,
   ⟨0x0303, "LANE_RETEST", 0x09B8, 4, 4, false⟩, ⟨0x0305, "CORE_RESTART", 0x09B8, 4, 4, false⟩,
   ⟨0x0307, "HEARTH_RESET", 0x0BB8, 4, 4, false⟩]

/-- The loop and schedule commands. -/
def cmds4 : List CmdInfo :=
  [⟨0x0401, "LOOP_LOAD", 0x09B8, 260, 260, false⟩, ⟨0x0402, "LOOP_PARAM", 0x09B8, 8, 132, false⟩,
   ⟨0x0403, "LOOP_MODE", 0x09B8, 4, 4, false⟩, ⟨0x0404, "LOOP_RESUME", 0x09B0, 4, 4, false⟩,
   ⟨0x0405, "LOOP_STATUS", 0x0BF8, 4, 4, false⟩, ⟨0x0406, "LOOP_IMAGE_BIND", 0x09B8, 16, 16, false⟩,
   ⟨0x0407, "LOOP_EXT_WRITE", 0x09B8, 12, 4080, false⟩, ⟨0x0408, "BELLOWS_STATUS", 0x0BF8, 4, 4, false⟩,
   ⟨0x0409, "BELLOWS_COUNT_CLEAR", 0x0BF8, 4, 4, false⟩, ⟨0x040A, "LOOP_INJECT", 0x0830, 4, 4, true⟩,
   ⟨0x0410, "SCHED_LOAD", 0x09B8, 12, 1036, false⟩, ⟨0x0411, "SCHED_SWAP", 0x09B8, 4, 4, false⟩,
   ⟨0x0412, "SCHED_STATUS", 0x0BF8, 4, 4, false⟩, ⟨0x0413, "SCHED_CHECK", 0x0BF8, 8, 8, false⟩]

/-- The memory, hob and firewall commands. -/
def cmds5 : List CmdInfo :=
  [⟨0x0501, "MEM_STATUS", 0x0BF8, 4, 4, false⟩, ⟨0x0502, "MEM_LOG_READ", 0x0BF8, 4, 4, false⟩,
   ⟨0x0503, "MEM_SCRUB", 0x0BF8, 16, 16, false⟩, ⟨0x0504, "MEM_RETIRE", 0x0BF8, 4, 4, false⟩,
   ⟨0x0505, "MEM_RETIRE_LIST", 0x0BF8, 8, 8, false⟩, ⟨0x0506, "MEM_REPAIR_ADD", 0x0BF8, 8, 8, false⟩,
   ⟨0x0507, "MEM_REPAIR_LIST", 0x0B08, 0, 0, false⟩, ⟨0x0508, "MEM_INJECT", 0x0808, 12, 12, true⟩,
   ⟨0x0509, "MEM_CONFIG", 0x0008, 8, 8, false⟩, ⟨0x050A, "MEM_FILL", 0x0BB8, 20, 20, false⟩,
   ⟨0x0510, "HOB_STATUS", 0x0BF8, 4, 4, false⟩, ⟨0x0511, "HOB_COUNT_CLEAR", 0x0BF8, 4, 4, false⟩,
   ⟨0x0540, "FW_STATUS", 0x0BF8, 4, 4, false⟩, ⟨0x0541, "FW_VIOL_CLEAR", 0x0BF8, 4, 4, false⟩]

/-- The queue commands. -/
def cmds6 : List CmdInfo :=
  [⟨0x0601, "QUEUE_SET", 0x09B8, 16, 4080, false⟩, ⟨0x0602, "QUEUE_STATUS", 0x0BF8, 4, 4, false⟩,
   ⟨0x0603, "QUEUE_FLUSH", 0x09B8, 4, 4, false⟩, ⟨0x0604, "POOL_STATUS", 0x0BF8, 0, 0, false⟩,
   ⟨0x0605, "QUEUE_BIND", 0x09B8, 4, 4, false⟩]

/-- The Flue commands. -/
def cmds7 : List CmdInfo :=
  [⟨0x0701, "FLUE_STATUS", 0x0BF8, 0, 0, false⟩, ⟨0x0702, "FLUE_HISTORY_READ", 0x0BF8, 4, 4, false⟩,
   ⟨0x0703, "LOCKOUT_RESET", 0x0200, 0, 0, false⟩, ⟨0x0704, "ERRPIN_RELEASE", 0x0BF8, 0, 0, false⟩,
   ⟨0x0705, "FLUE_RELEASE", 0x09F8, 4, 4, false⟩, ⟨0x0706, "FLUE_TEST", 0x0808, 4, 4, false⟩,
   ⟨0x0707, "FLUE_EVENTS_READ", 0x0BF8, 8, 8, false⟩, ⟨0x0708, "FLUE_ACTIVE", 0x0BF8, 0, 0, false⟩]

/-- The watchdog commands. -/
def cmds8 : List CmdInfo :=
  [⟨0x0801, "WDT_STATUS", 0x0BF8, 4, 4, false⟩]

/-- The power commands. -/
def cmds9 : List CmdInfo :=
  [⟨0x0901, "PWR_STATUS", 0x0BF8, 0, 0, false⟩, ⟨0x0902, "PWR_LEVEL", 0x0BB8, 4, 4, false⟩,
   ⟨0x0903, "PWR_VOTE", 0x0BB8, 4, 4, false⟩, ⟨0x0904, "PAD_RELEASE", 0x0BB8, 4, 4, false⟩,
   ⟨0x0905, "PWR_DOMAIN_STATUS", 0x0BF8, 4, 4, false⟩, ⟨0x0906, "PWR_COUNT_CLEAR", 0x0BF8, 0, 0, false⟩]

/-- The image, grant, life-cycle and session commands. -/
def cmdsA : List CmdInfo :=
  [⟨0x0A01, "IMAGE_STATUS", 0x0BF8, 0, 0, false⟩, ⟨0x0A02, "IMAGE_STAGE_BEGIN", 0x0BB8, 4, 4, false⟩,
   ⟨0x0A03, "IMAGE_STAGE_CHUNK", 0x0BB8, 8, 4080, false⟩, ⟨0x0A04, "IMAGE_VERIFY", 0x0BB8, 0, 0, false⟩,
   ⟨0x0A05, "IMAGE_DISCARD", 0x0BB8, 0, 0, false⟩, ⟨0x0A06, "IMAGE_PERSIST", 0x0BB8, 4, 4, false⟩,
   ⟨0x0A08, "CUTOVER", 0x0030, 12, 12, false⟩, ⟨0x0A09, "CUTOVER_STATUS", 0x0BF8, 0, 0, false⟩,
   ⟨0x0A10, "ATTEST", 0x0BF8, 32, 32, false⟩, ⟨0x0A20, "EXPERT_GRANT", 0x0BB8, 16, 832, false⟩,
   ⟨0x0A21, "GRANT_RELEASE", 0x0BF8, 4, 4, false⟩, ⟨0x0A23, "EXPERT_LOG_READ", 0x0BF8, 8, 8, false⟩,
   ⟨0x0A30, "LC_NONCE_GET", 0x0BF8, 0, 0, false⟩, ⟨0x0A31, "LC_TOKEN", 0x0008, 896, 896, false⟩,
   ⟨0x0A40, "SESSION_CFG", 0x0008, 4, 4, false⟩, ⟨0x0A41, "SESSION_OPEN", 0x0BF8, 1216, 1216, false⟩,
   ⟨0x0A42, "SESSION_CLOSE", 0x0BF8, 4, 4, false⟩, ⟨0x0A43, "SESSION_STATUS", 0x0BF8, 0, 0, false⟩]

/-- The Thimble commands. -/
def cmdsB : List CmdInfo :=
  [⟨0x0B01, "THM_STATUS", 0x0BF8, 0, 0, false⟩, ⟨0x0B02, "THM_GATE", 0x0BF8, 8, 8, false⟩,
   ⟨0x0B03, "THM_FORWARD", 0x0BF8, 4, 4, false⟩, ⟨0x0B04, "THM_SLOT_ERASE", 0x0BF8, 4, 4, false⟩,
   ⟨0x0B05, "THM_SLOT_WRITE", 0x0BF8, 12, 4080, false⟩]

/-- The chimney commands. -/
def cmdsC : List CmdInfo :=
  [⟨0x0C01, "CHIMNEY_STATUS", 0x0BF8, 0, 0, false⟩, ⟨0x0C02, "CHIMNEY_SET", 0x0008, 4, 4, false⟩,
   ⟨0x0C03, "CHIMNEY_RETRAIN", 0x0BF8, 4, 4, false⟩]

/-- The damper and field I/O commands. -/
def cmdsD : List CmdInfo :=
  [⟨0x0D01, "DAMP_STATUS", 0x0BF8, 0, 0, false⟩, ⟨0x0D10, "FIO_STATUS", 0x0BF8, 0, 0, false⟩]

/-- The basting commands. -/
def cmdsE : List CmdInfo :=
  [⟨0x0E01, "BASTE_STATUS", 0x0BF8, 0, 0, false⟩, ⟨0x0E02, "BASTE_RESULTS", 0x0BF8, 8, 8, false⟩,
   ⟨0x0E03, "BASTE_NOW", 0x09F0, 4, 4, false⟩, ⟨0x0E10, "SCAN_OPEN", 0x0800, 0, 0, true⟩]

/-- The trace commands. -/
def cmdsF : List CmdInfo :=
  [⟨0x0F01, "TRACE_STATUS", 0x0BF8, 0, 0, false⟩]

/-- Every command of the Pattern COMMAND records (R75). -/
def commandTable : List CmdInfo :=
  cmds1 ++ cmds2 ++ cmds3 ++ cmds4 ++ cmds5 ++ cmds6 ++ cmds7 ++ cmds8 ++ cmds9 ++ cmdsA ++ cmdsB ++ cmdsC ++ cmdsD ++ cmdsE ++ cmdsF

/-- The COMMAND record of an opcode on this device: a KL6430-N lists no Thimble command (R1). -/
def W.cmdInfo (w : W) (opc : Nat) : Option CmdInfo :=
  if !w.isM && opc / 256 == 0x0B then none else commandTable.find? (·.opc == opc)

/-- The length rule of an opcode beyond MIN_LEN and MAX_LEN (R74, R81): whole entries after a head, or one of two forms. -/
def lenRule (opc n : Nat) : Bool :=
  match opc with
  | 0x0201 => n % 4 == 0
  | 0x0202 => n % 12 == 0
  | 0x0402 => n % 8 == 4 || n % 8 == 0
  | 0x0407 => n % 4 == 0
  | 0x0410 => n % 4 == 0
  | 0x0601 => n % 16 == 0
  | 0x0A03 => decide (8 ≤ n)
  | 0x0A20 => n == 16 || n == 832
  | _ => true

/-- What a command names or holds (R73). -/
inductive Obj where
  /-- A hearth, or 16 for the Stoker's lanes. -/
  | hearth (h : Nat)
  /-- A part of a hearth: kind 0 a core, 1 a lane, 2 a loop, 3 the parameter buffer. -/
  | part (h kind id : Nat)
  /-- A rail's level. -/
  | rail (r : Nat)
  /-- A queue. -/
  | queue (q : Nat)
  /-- The staged image. -/
  | image
  /-- A register block, by its base. -/
  | block (b : Nat)
  /-- An engine that serves one command at a time: 0 the scrub engine, 1 the gate, 2 the error pin, 3 the chimney links, 4 and 5
  the Thimble slots 0 and 1 in flash. -/
  | engine (k : Nat)
  deriving DecidableEq, Repr

/-- The object is the block at `b` or lies in it: a hearth and its parts in HEARTH_h, a queue in BOB, a rail's level in
PWR. (DEDUCED: assumption 73.) -/
def Obj.inBlock (b : Nat) : Obj → Bool
  | .hearth h => b == blockBase 16 h
  | .part h _ _ => b == blockBase 16 h
  | .queue _ => b == blockBase 8 0
  | .rail _ => b == blockBase 4 0
  | .block c => b == c
  | _ => false

/-- Two objects overlap: a hearth overlaps its parts, and a block what lies in it. -/
def Obj.meets (a b : Obj) : Bool :=
  match a, b with
  | .hearth h, .part k _ _ => h == k
  | .part k _ _, .hearth h => h == k
  | .block b, x => x.inBlock b
  | x, .block b => x.inBlock b
  | _, _ => a == b

/-- How a command ended (R72, R73): with a status and a result, or, where its work takes longer, it pends with a key; its work
goes on with `go` once the PENDING reply is written, and `W.finishAll` ends it. -/
inductive Res where
  | fin (w : W) (status : Nat) (result : List Byte)
  | pend (w : W) (key : Nat) (go : W → W := id)

/-- The meaning of a command from step 10 of R68 on. -/
abbrev Body := Packet → W → Res

/-- Refused with a status. -/
def W.fail (w : W) (status : Nat) : Res := .fin w status []

/-- DONE with a result. -/
def W.ok (w : W) (result : List Byte := []) : Res := .fin w sDone result

/-- Refuse with a status where a check fails, else go on. (DEDUCED: assumption 99.) -/
def W.need (w : W) (b : Bool) (status : Nat) (k : Res) : Res := if b then k else w.fail status

/-- Parameter word `i` of a packet. -/
def pw (p : Packet) (i : Nat) : Word32 := wordAt (pktBody p) (4 * i)

/-- The parameter words of a packet from `i` on. -/
def pwords (p : Packet) (i : Nat) : List Word32 :=
  (List.range ((pktBody p).length / 4 - i)).map fun j => pw p (i + j)

/-- How many of `held` records, whose newest has the number before `next`, are numbered `first` or later, by the sign of
the distance; all of them where `first` is older than the oldest. -/
def seqSpan (next first : Word32) (held : Nat) : Nat :=
  let d := (next - first).toInt
  if d ≤ 0 then 0 else min d.toNat held

/-! Configuration transactions end (R78). -/

/-- CONFIG_ABORT: every claimed block discards its staged values, and the claims go. -/
def W.abortTxn (w : W) : W :=
  match w.dev.stoker.txn with
  | none => w
  | some t =>
    let w := w.each t.blocks fun b w => match blockAt b with
      | some (_, typ, inst, _) => w.stageDiscard typ inst
      | none => w
    w.upd fun d => { d with stoker := { d.stoker with txn := none } }

/-- A source goes: its transaction is aborted unless its commit is pending (R78). -/
def W.abortTxnOf (w : W) (src : Nat) : W :=
  match w.dev.stoker.txn with
  | some t => if t.src = src ∧ t.committing = false then w.abortTxn else w
  | none => w

/-- A session ends (R454): its key is zeroised, and its pending commands complete without a reply. -/
def W.endSession (w : W) (id : Word32) : W :=
  let w := w.abortTxnOf (16 + id.toNat)
  w.upd fun d => { d with
    images := { d.images with sessions := d.images.sessions.filter (fun s => s.id != id) },
    stoker := { d.stoker with sources := d.stoker.sources.erase (16 + id.toNat) } }

/-- Every session ends. -/
def W.endSessions (w : W) : W := w.each w.dev.images.sessions fun s w => w.endSession s.id

/-! Where packets come from. -/

/-- Replies that a source may still receive for commands taken: pending ones, and forwarded ones.
(DEDUCED: assumption 107.) -/
def W.owed (w : W) (k : Nat) : Nat :=
  (w.dev.stoker.pends.filter (fun p => p.src == k)).length +
  (w.dev.chim.forwards.filter (fun f => srcKey f.pkt == k)).length

/-- SESSION_CFG in force lets MAC `m` take command packets (R451). -/
def Dev.sessionsOn (d : Dev) (m : Nat) : Bool := bitAt d.images.flash.rcd.session 0 && bitAt d.images.flash.rcd.session (1 + m)

/-- The source of a command datagram: a session's own, or 3 for one without a session. -/
def ethKey (bytes : List Byte) : Nat := let n := (wordAt bytes 8).toNat; if n = 0 then 3 else 16 + n

/-- PCIe may be served: the link is up (R500), a slot waits, and the reply ring has room.
(DEDUCED: assumption 107.) -/
def W.ringReady (w : W) : Bool :=
  let s := w.dev.stoker
  w.dev.ports.pcieUp && s.cmdHead != s.cmdTail && decide (w.owed 0 + 2 + (s.replyHead - s.replyTail).toNat ≤ 256)

/-- The maintenance SPI may be served. -/
def W.mspiReady (w : W) : Bool := w.dev.ports.mspiIn.isSome && decide (w.dev.ports.mspiOut.length < 3)

/-- The sources with work waiting (R61); the base's stream shows its work by its rows alone.
(DEDUCED: assumption 129.) -/
def W.sourcesReady (w : W) : List Nat :=
  (if w.ringReady then [0] else []) ++ (if w.mspiReady then [1] else []) ++
  (w.dev.ports.ethIn.filter fun e => w.dev.sessionsOn e.1).map fun e => ethKey e.2.2

/-- Source `k` stands behind source `j` in the round-robin order that starts after `turn` (R61).
(DEDUCED: assumption 129.) -/
def turnBehind (turn k j : Nat) : Bool :=
  if turn < k then decide (turn < j ∧ j < k) else decide (turn < j ∨ j < k)

/-- It is the turn of source `k`: no source with work waiting stands before it (R61).
(DEDUCED: assumption 129.) -/
def W.hasTurn (w : W) (k : Nat) : Bool := !(w.sourcesReady.any fun j => turnBehind w.dev.stoker.turn k j)

/-- The source offers exactly this packet, and may be served (R63, R503, R61). -/
def W.offers (w : W) (opc : Half) (p : Packet) : Bool :=
  let s := w.dev.stoker
  let bytes := pktBytes p opc
  s.serving && !w.dev.sys.resetArmed && w.hasTurn (srcKey p) &&
  match p.src with
  | .pcie =>
    let base := 4096 * s.cmdHead.toNat
    w.ringReady && p.params.length == min p.plen.toNat 4080 &&
    (List.range bytes.length).all fun i => s.cmdRing.getD (base + i) 0 == bytes.getD i 0
  | .mspi => w.mspiReady && w.dev.ports.mspiIn == some bytes
  | .base => w.dev.isCourse && w.dev.chim.up.st == PortSt.linked
  | .eth m a => w.dev.sessionsOn m && (w.dev.ports.ethIn.find? fun e => ethKey e.2.2 == srcKey p) == some (m.val, a, bytes)

/-- The packet leaves its source, whose turn ends (R61). -/
def W.consume (w : W) (p : Packet) (opc : Half) : W :=
  w.upd fun d =>
    let d := { d with stoker := { d.stoker with turn := srcKey p } }
    match p.src with
    | .pcie => { d with stoker := { d.stoker with cmdHead := d.stoker.cmdHead + 1 } }
    | .mspi => { d with ports := { d.ports with mspiIn := none } }
    | .base => d
    | .eth m a => { d with ports := { d.ports with ethIn := d.ports.ethIn.erase (m.val, a, pktBytes p opc) } }

/-- SESSION_OPEN in the form that step 3 of R68 lets pass on Ethernet without a session (R452). -/
def opensSession (opc : Half) (p : Packet) : Bool := opc == 0x0A41 && p.session == 0 && !bitAt p.flags 1

/-- An Ethernet source. -/
def isEth (p : Packet) : Bool :=
  match p.src with
  | .eth _ _ => true
  | _ => false

/-- Step 3 of R68. -/
def headerOk (opc : Half) (p : Packet) : Bool :=
  decide (p.flags.toNat < 4) &&
  if isEth p then opensSession opc p || (p.session != 0 && bitAt p.flags 1) else p.session == 0 && !bitAt p.flags 1

/-- Step 4 of R68 (R453). -/
def W.macOk (w : W) (opc : Half) (p : Packet) : Bool :=
  match w.dev.images.session p.session.toNat with
  | none => false
  | some s =>
    decide (32 ≤ p.plen.toNat) &&
    hmac s.cmdKey (pktHead p opc ++ p.params.take (p.plen.toNat - 32)) == slice p.params (p.plen.toNat - 32) 32

/-! Execution. -/

/-- The mode that a command is checked against (R40): DOZE once DOZE_ENTER has been answered (R470). -/
def Sys.modeNow (y : Sys) : Mode := if y.dozeArmed then .doze else y.mode

/-- A draw from the DRBG, which leaves it a new state: the free string of a number.
(DESIGN CHOICE: assumption 104.) -/
def W.draw (w : W) : Nat × W :=
  let (n, w) := w.fresh
  (n, w.upd fun d => { d with images := { d.images with drbgState := Config.freeBytes n 48 } })

/-- The key and the operand that the crypto engine has worked with last (R338).
(DESIGN CHOICE: assumption 104.) -/
def W.cryptoUse (w : W) (key operand : List Byte) : W :=
  w.upd fun d => { d with images := { d.images with cryptoKey := key, cryptoOperand := operand } }

/-- A fresh value of DEV.LC_NONCE from the DRBG (R56). (DESIGN CHOICE: assumption 15.) -/
def W.newNonce (w : W) : W :=
  let (n, w) := w.draw
  w.upd fun d => { d with sys := { d.sys with nonce := w32 ((Config.freeWord n).toNat % 2 ^ 32) } }

/-- A command of opcode `opc` is refused before its own checks: an LC_TOKEN and a signed EXPERT_GRANT replace the nonce all the
same (R56, R81). -/
def W.spent (w : W) (opc : Nat) (p : Packet) : W :=
  if opc = 0x0A31 ∨ (opc = 0x0A20 ∧ (pktBody p).length = 832) then w.newNonce else w

/-- Step 9 of R68: MODE_MASK, and the limits of R51. -/
def W.modeOk (w : W) (i : CmdInfo) : Bool :=
  i.mask.testBit w.dev.sys.modeNow.code.toNat && (!w.dev.sys.recovery || i.opc / 256 == 1 || i.opc / 256 == 0x0A)

/-- Steps 9 to 13 of a command. -/
def W.execute (w : W) (i : CmdInfo) (p : Packet) (body : Body) : Res :=
  if w.modeOk i then body p w else (w.spent i.opc p).fail sWrongMode

/-- A pending command is added (R73). -/
def W.addPend (w : W) (p : Packet) (opc : Half) (running : Bool) (key : Nat) : W :=
  w.upd fun d => { d with stoker := { d.stoker with pends := d.stoker.pends ++
    [{ src := srcKey p, opc := opc, seq := p.seq, pkt := p, running := running, key := key, fence := bitAt p.flags 0,
       fwd := d.chim.fwdNext }] } }

/-- The largest number of pending commands (R73). -/
def pendMax : Nat := 32

/-- A command that need not wait is executed as it is taken. -/
def W.startNow (w : W) (i : CmdInfo) (opc : Half) (p : Packet) (body : Body) : W :=
  match w.execute i p body with
  | .fin w st r => w.reply p opc st true r
  | .pend w' key go =>
    if pendMax ≤ w.dev.stoker.pends.length then w.reply p opc sNoResource true []
    else go ((w'.reply p opc sPending false []).addPend p opc true key)

/-- The session's 60,000th accepted command ends it (R454). -/
def W.sessionLimit (w : W) (p : Packet) : W :=
  match w.dev.images.session p.session.toNat with
  | some s => if isEth p ∧ 60000 ≤ s.accepted then w.endSession s.id else w
  | none => w

/-- A command that waited starts (R73). -/
def W.startPend (w : W) (i : CmdInfo) (q : Pend) (body : Body) : W :=
  match w.execute i q.pkt body with
  | .fin w st r => (w.finish q st r).sessionLimit q.pkt
  | .pend w key go => go (w.setRunning q key)

/-- What the pending command `q` and the packet of opcode `opc` name, from `objs`: whether they overlap. A second CUTOVER
does not wait for the first (R445). -/
def overlap (objs : Nat → Packet → List Obj) (q : Pend) (opc : Nat) (p : Packet) : Bool :=
  !(q.opc.toNat == 0x0A08 && opc == 0x0A08) &&
  (objs q.opc.toNat q.pkt).any fun a => (objs opc p).any fun b => a.meets b

/-- FENCE (R66): the command waits for an earlier one of its source, `before` here or forwarded below the number `fwd`. -/
def W.fenced (w : W) (before : List Pend) (fwd : Nat) (p : Packet) : Bool :=
  bitAt p.flags 0 && ((before.any fun q => q.src == srcKey p) ||
    w.dev.chim.forwards.any fun f => decide (f.id < fwd) && srcKey f.pkt == srcKey p)

/-- The command waits behind `before`, the pending commands taken earlier, and, with FENCE, behind every earlier command of its
source (R66, R73). (DEDUCED: assumption 73.) -/
def W.waitsFor (w : W) (objs : Nat → Packet → List Obj) (before : List Pend) (fwd opc : Nat) (p : Packet) : Bool :=
  w.fenced before fwd p || before.any fun q => overlap objs q opc p

/-- Steps 7 to 13 of R68 for a packet of this device. (DEDUCED: assumption 108.) -/
def W.serve (w : W) (objs : Nat → Packet → List Obj) (opc : Half) (p : Packet) (body : Body) : W :=
  match w.cmdInfo opc.toNat with
  | none => w.reply p opc sUnknownOpcode true []
  | some i =>
    let n := (pktBody p).length
    if !(decide (i.minLen ≤ n ∧ n ≤ i.maxLen) && lenRule i.opc n) then (w.spent i.opc p).reply p opc sBadLength true []
    else if w.waitsFor objs w.dev.stoker.pends w.dev.chim.fwdNext opc.toNat p then
      if pendMax ≤ w.dev.stoker.pends.length then (w.spent i.opc p).reply p opc sNoResource true []
      else (w.reply p opc sPending false []).addPend p opc false 0
    else w.startNow i opc p body

/-- A course takes another forwarded command (R70, R486). -/
def W.courseTakes (w : W) (pos : Nat) : Bool :=
  (w.dev.course pos).reach && decide ((w.dev.chim.forwards.filter (fun f => f.pos.toNat == pos)).length < 16)

/-- A packet leaves for another position. -/
def W.sendOn (w : W) (opc : Half) (p : Packet) (told stale : Bool) : W :=
  w.upd fun d => { d with chim := { d.chim with
    forwards := d.chim.forwards ++
      [{ pos := BitVec.ofNat 3 p.target.toNat, opc := opc, pkt := p, id := d.chim.fwdNext, told := told, stale := stale }],
    fwdNext := d.chim.fwdNext + 1 } }

/-- Forward a packet to another position (R70, R486); with FENCE it waits here first, taken and answered as R73 has it.
(DEDUCED: assumption 107.) -/
def W.forward (w : W) (opc : Half) (p : Packet) : W :=
  if w.fenced w.dev.stoker.pends w.dev.chim.fwdNext p then
    if pendMax ≤ w.dev.stoker.pends.length then w.reply p opc sNoResource true []
    else (w.reply p opc sPending false []).addPend p opc false 0
  else if w.courseTakes p.target.toNat then w.sendOn opc p false false
  else w.reply p opc sNoResource true []

/-- A command for another position that waited for its FENCE is forwarded. -/
def W.forwardPend (w : W) (q : Pend) : W :=
  if w.courseTakes q.pkt.target.toNat then (w.dropPend q).sendOn q.opc q.pkt true q.stale else w.finish q sNoResource []

/-- A configured position other than this device's, seen from the base (R70). -/
def W.otherPos (w : W) (t : Byte) : Bool :=
  !w.dev.isCourse && decide (0 < t.toNat) && decide (t.toNat < w.dev.chim.members.toNat)

/-- Step 6 of R68. -/
def W.route (w : W) (objs : Nat → Packet → List Obj) (opc : Half) (p : Packet) (body : Body) : W :=
  if p.target = 0xFF ∨ p.target.toNat = w.dev.chim.pos.toNat then w.serve objs opc p body
  else if w.otherPos p.target then w.forward opc p
  else w.reply p opc sBadParam true []

/-- A reply of steps 1 to 5: it is not stored, and up to step 4 it carries no tag (R453). -/
def W.turnAway (w : W) (opc : Half) (p : Packet) (status : Nat) (result : List Byte) (tag : Bool) : W :=
  w.deliver (srcKey p) (w.mkReply p opc status true result tag)

/-- A packet that passed step 5 consumes its SEQ (R68, R69). -/
def W.accept (w : W) (p : Packet) : W :=
  w.upd fun d =>
    let d := d.onCmdSrc (srcKey p) fun _ => { expect := some (p.seq + 1), lastCrc := some p.crc, stored := none }
    if isEth p then { d with images := { d.images with sessions := d.images.sessions.map (fun s =>
      if s.id = p.session then { s with accepted := s.accepted + 1 } else s) } }
    else d

/-- Step 5 of R68 and what follows it (R69). (DEDUCED: assumption 107.) -/
def W.sequence (w : W) (objs : Nat → Packet → List Obj) (opc : Half) (p : Packet) (body : Body) : W :=
  let c := w.dev.cmdSrc (srcKey p)
  match c.expect with
  | none => (w.accept p).route objs opc p body
  | some e =>
    if p.seq = e then ((w.accept p).route objs opc p body).sessionLimit p
    else if p.seq + 1 = e ∧ c.lastCrc = some p.crc then
      w.deliver (srcKey p) { (c.stored.getD (w.mkReply p opc sPending false [])) with dest := packetSender p }
    else w.turnAway opc p sSequenceGap (le 4 e.toNat) true

/-- The effects of a RING_RESET (R65). -/
def W.ringReset (w : W) : W :=
  let w := w.abortTxnOf 0
  w.upd fun d => { d with
    stoker := { d.stoker with
      cmdTail := 0, cmdHead := 0, replyTail := 0, replyHead := 0, epoch := d.stoker.epoch + 1, resetDue := false,
      sources := d.stoker.sources.erase 0,
      pends := d.stoker.pends.map fun q => if q.src = 0 then { q with stale := true } else q },
    chim := { d.chim with
      forwards := d.chim.forwards.map fun f => if srcKey f.pkt = 0 then { f with stale := true } else f } }

/-- A latched RING_RESET is completed by a Stoker that serves, before any command (R65). -/
def W.ringDue (w : W) : W := if w.dev.stoker.resetDue && w.dev.stoker.serving then w.ringReset else w

/-- The Stoker takes a packet of opcode `opc` (R68). (DEDUCED: assumption 108.) -/
def W.take (w : W) (objs : Nat → Packet → List Obj) (opc : Half) (p : Packet) (body : Body) : W :=
  let w := w.ringDue
  if w.offers opc p = false then w
  else
    let w := w.consume p opc
    let bytes := if 4080 < p.plen.toNat then p.params else p.params.take p.plen.toNat
    if p.src = .base then w.route objs opc p body
    else if crc32c (pktHead p opc ++ bytes) ≠ p.crc then w.turnAway opc p sBadCrc [] false
    else if 4080 < p.plen.toNat ∨ p.params.length < p.plen.toNat then w.turnAway opc p sBadLength [] false
    else if headerOk opc p = false then w.turnAway opc p sBadParam [] false
    else if isEth p && opensSession opc p then w.route objs opc p body
    else if isEth p && !w.macOk opc p then (w.raise 0x343 0 0).turnAway opc p sAuthFail [] false
    else w.sequence objs opc p body

end Sys2Proof.Machine
end

