-- ==== Sys2Proof/Machine/Layouts.lean ====
section
/-! DEFINITION. The REGISTER_LAYOUT and FIELD records of the Pattern (R19, R20, R31, R39), from the register and field
tables of the chapters. -/

namespace Sys2Proof.Machine

/-- A FIELD record (R19). -/
structure FieldRec where
  /-- The name. -/
  name : String
  /-- LSB. -/
  lsb : Nat
  /-- MSB. -/
  msb : Nat
  /-- ACCESS (R31). -/
  access : Nat
  /-- RESET_TYPES in bits 0 to 4, FUSE in bit 5. -/
  resets : Nat
  deriving DecidableEq, Repr

/-- A REGISTER_LAYOUT record (R19): strides in words. -/
structure RegLayout where
  /-- The name without its instance suffix. -/
  name : String
  /-- OFFSET. -/
  off : Nat
  /-- RESET of instance 0. -/
  reset : Nat
  /-- Its FIELD records. -/
  fields : List FieldRec
  /-- COUNT. -/
  count : Nat := 1
  /-- STRIDE. -/
  stride : Nat := 0
  /-- GROUP. -/
  group : Nat := 0
  /-- GSTRIDE. -/
  gstride : Nat := 0
  deriving DecidableEq, Repr

/-- RESET_TYPES of a field whose narrowest reset type is cold; every wider type restores it too (R34). -/
def rCold : Nat := 1
/-- Device reset type. -/
def rDev : Nat := 3
/-- Hearth reset type. -/
def rHearth : Nat := 7
/-- Core reset type. -/
def rCore : Nat := 15
/-- A field loaded from fuses in KINDLE. -/
def rFuse : Nat := 32

/-- An RO field. -/
def fRo (n : String) (l m : Nat) (r : Nat := 0) : FieldRec := ⟨n, l, m, 0, r⟩
/-- An RW field. -/
def fRw (n : String) (l m : Nat) (r : Nat := rDev) : FieldRec := ⟨n, l, m, 1, r⟩
/-- A WO field. -/
def fWo (n : String) (l m : Nat) : FieldRec := ⟨n, l, m, 2, 0⟩
/-- A W1C field. -/
def fW1c (n : String) (l m : Nat) (r : Nat := rDev) : FieldRec := ⟨n, l, m, 3, r⟩
/-- An RO-H field. -/
def fRoh (n : String) (l m : Nat) (r : Nat := rDev) : FieldRec := ⟨n, l, m, 4, r⟩
/-- An RW-S field. -/
def fRws (n : String) (l m : Nat) (r : Nat := rDev) : FieldRec := ⟨n, l, m, 5, r⟩

/-- A register of one instance. -/
def lay (n : String) (off reset : Nat) (fs : List FieldRec) : RegLayout := { name := n, off := off, reset := reset, fields := fs }

/-- A register of which the chapters name no field: one field of its own name. -/
def whole (n : String) (off : Nat) (acc resets : Nat) (reset : Nat := 0) (msb : Nat := 31) : RegLayout :=
  lay n off reset [⟨n, 0, msb, acc, resets⟩]

/-- A RO-H register of which the chapters name no field. -/
def hw (n : String) (off : Nat) (resets : Nat := rDev) (msb : Nat := 31) (reset : Nat := 0) : RegLayout :=
  whole n off 4 resets reset msb

/-- Repeat a register: COUNT and STRIDE in words. -/
def RegLayout.times (l : RegLayout) (count stride : Nat) : RegLayout := { l with count := count, stride := stride }

/-- Repeat a register in two dimensions: COUNT, GROUP, STRIDE and GSTRIDE. -/
def RegLayout.grouped (l : RegLayout) (count group stride gstride : Nat) : RegLayout :=
  { l with count := count, group := group, stride := stride, gstride := gstride }

/-- The common registers of a block (R35). -/
def layCommon (typ ver : Nat) : List RegLayout :=
  [lay "BLK_ID" 0 (typ * 65536) [fRo "instance" 0 15, fRo "BLOCK_TYPE" 16 31], lay "BLK_VER" 4 ver [fRo "BLK_VER" 0 15], lay "COMMIT" 8 0 [fWo "GO" 0 0],
   lay "COMMIT_STATUS" 0xC 0 [fRoh "STATE" 0 2, fRoh "DIRTY" 3 3, fRoh "OVERRUN" 4 4, fRoh "SEQ" 16 31],
   hw "CONFLICT_AT" 0x10 rDev 31 0xFFFFFFFF, lay "STAGE_DISCARD" 0x14 0 [fWo "GO" 0 0]]

/-- The hob registers (R208, R209): `top` is the highest bit of OFFSET, `rtop` of REGION, `n` the masters. -/
def layHob (top rtop n : Nat) (r : Nat) : List RegLayout :=
  [lay "HOB_CTL" 0x200 0x10032 [fRws "INTERVAL" 0 12, fRws "MARCH_EN" 16 16],
   lay "HOB_STAT" 0x204 0 [fRoh "PSTATE" 0 1 r, fRoh "MARCH_ACTIVE" 2 2 r, fRoh "INJ_ARMED" 3 3 r, fRoh "REGION" 16 (16 + rtop) r],
   hw "PASS_CNT" 0x208 r, hw "CORR_CNT" 0x20C r, hw "UNCORR_CNT" 0x210 r,
   lay "LAST_ERR" 0x214 0 [fRoh "OFFSET" 0 top r, fRoh "UNCORR" 22 22 r, fRoh "MARCH" 23 23 r, fRoh "SYNDROME" 24 28 r],
   hw "LAST_ERR_TIME_LO" 0x218 r, hw "LAST_ERR_TIME_HI" 0x21C r,
   lay "MARCH_FAIL" 0x220 0 [fRoh "REGION" 0 rtop r, fRoh "COUNT" 16 23 r, fW1c "VALID" 31 31 r]] ++
  [lay "SPARES" 0x224 0 [fRoh "ROWS_FREE" 0 5, fRoh "COLS_FREE" 8 11, fRoh "ROWS_PENDING" 16 23],
   lay "CNT_CLEAR" 0x228 0 [fWo "GO" 0 0], lay "INJECT" 0x22C 0 [fWo "MODE" 0 1, fWo "MASTER" 2 4],
   (hw "CONFLICT" 0x240 r).times n 1]

/-- Fields of SEAM_STAT (R121). -/
def seamStatFields (r : Nat) : List FieldRec :=
  [fRoh "MODE" 0 1 r, fRoh "LANE_A" 2 5 r, fRoh "LANE_B" 6 9 r, fRoh "LANE_C" 10 13 r, fRoh "RETHREAD" 14 14 r, fRoh "HALT_CAUSE" 16 18 r]

/-- DEV (R48, R49, R122, R208). -/
def layDev : List RegLayout :=
  [lay "STATUS" 0x20 1 [fRoh "MODE" 0 3, fRoh "PREV_MODE" 4 7, fRo "LIFECYCLE" 8 10 rFuse, fRoh "RECOVERY" 11 11,
     fRoh "KINDLE_STEP" 12 15, fRoh "KINDLE_ERR" 16 19, fRoh "SLOT" 20 20, fRoh "FALLBACK" 21 21, fRoh "LOCKOUT_REC" 22 22,
     fRoh "OP_RESET" 23 23],
   hw "HEARTH_AVAIL" 0x24 rDev 15, hw "MODE_SEQ" 0x28, hw "MODE_TIME_LO" 0x2C, hw "MODE_TIME_HI" 0x30, hw "LC_NONCE" 0x34,
   whole "UID_LO" 0x38 0 rFuse, whole "UID_HI" 0x3C 0 rFuse, lay "STK_SEAM_STAT" 0x100 0x3FFE (seamStatFields rDev)] ++
  [lay "STK_LANE_STATE" 0x104 0x492 ((List.range 4).map fun l => fRoh "LANE" (3 * l) (3 * l + 2)),
   (lay "STK_FENCE_CNT" 0x110 0 [fRoh "WINDOW" 0 3, fRoh "TOTAL" 16 31 rCold]).times 4 1] ++ layHob 19 11 3 rDev

/-- FLUE (R303). -/
def layFlue (src0 : Nat) : List RegLayout :=
  [lay "FLUE_STAT" 0x20 0 [fRoh "REACTING" 0 0, fRoh "HW_SAFE" 1 1, fRoh "STORM" 2 2, fRoh "TRIPS" 16 26],
   lay "QUIET_CFG" 0x24 0x2710 [fRws "QUIET_MS" 0 19], lay "RECOV_CFG" 0x28 3 [fRws "LIMIT" 0 3],
   lay "LOCAL_CFG" 0x2C 0 [fRws "LOCAL_QUIET_MS" 0 19], lay "ERRPIN_CFG" 0x30 0x10032 [fRws "HOLD_US" 0 13, fRws "AUTO" 16 16],
   lay "EVQ_CFG" 0x34 0xFFEFFF [fRws "EVQ" 0 11, fRws "TRACE_Q" 12 23, fRws "TRACE_EN" 24 24, fRws "TRACE_MIN_SEV" 25 26],
   lay "ERRPIN_STAT" 0x38 1 [fRoh "ASSERTED" 0 0, fRoh "RELEASE_PENDING" 1 1, fRoh "ASSERT_CNT" 16 31]] ++
  [lay "RECOV_STAT" 0x3C 0x30 [fRoh "COUNT" 0 3 rCold, fRoh "LIMIT" 4 7, fRoh "RETURN_MODE" 8 11], hw "QUIET_LEFT" 0x40,
   lay "HEARTH_HOLD" 0x44 0 [fRoh "HELD" 0 15, fRoh "LATCHED" 16 31],
   lay "INTAKE_STAT" 0x48 0 [fRoh "FILL" 0 6, fRoh "STORM" 7 7, fRoh "COUNT_RECS" 16 31], hw "TRACE_LOST" 0x4C,
   lay "CFG_CHECK" 0x50 0 [fRoh "MISMATCH" 0 0, fRoh "NO_MAJORITY" 1 1, fRoh "WORD" 4 14], hw "HIST_NEXT" 0x54 rCold,
   hw "EVQ_NEXT" 0x58, (hw "ACTIVE" 0x100).times 32 1, (hw "LATCH" 0x180).times 32 1] ++
  [(hw "HIST" 0x400 rCold).grouped 256 8 1 8,
   (lay "SRC_CFG" 0x1000 src0 [fRws "SEV" 0 1, fRws "MASK" 2 6, fRo "FIXED" 7 7, fRws "HEARTH" 8 11, fRws "GROUPS" 16 31]).times 1024 1]

/-- WDOG (R321 to R323). -/
def layWdog : List RegLayout :=
  [whole "REQUIRE_LO" 0x20 5 rDev, whole "REQUIRE_HI" 0x24 5 rDev, whole "REQ_LIMIT" 0x28 5 rDev 0x2710 19,
   lay "ERASE_STAT" 0x2C 0 [fRoh "ERASING" 0 0, fRoh "SUSPENSIONS" 16 31],
   (lay "WSTAT" 0x100 0 [fRoh "STATE" 0 1 rCore, fRoh "FROZEN" 2 2 rCore, fRoh "SUSPENDED" 3 3 rCore, fRoh "ARMED" 4 4 rCore,
     fRoh "CFG_REFUSED" 5 5 rCore, fRoh "STRAY" 6 6 rCore, fRoh "ROLL_SHORT" 7 7 rCore, fRoh "SERVICES" 16 31 rCore]).times 65 4,
   (lay "ROLL" 0x104 0 [fRoh "IN" 0 15 rCore, fRoh "DUP" 16 31 rCore]).times 65 4, (hw "CYCLE_POS" 0x108 rCore 19).times 65 4,
   (lay "EXPIRE_INFO" 0x10C 0 [fRoh "CAUSE" 0 2, fRoh "COUNT" 16 31]).times 65 4]

/-- PWR (R474). -/
def layPwr : List RegLayout :=
  [lay "LEVEL_CTL" 0x20 0x455 [fRws "VCN" 0 2, fRws "VCS" 4 6, fRws "VCU" 8 10],
   lay "LEVEL_STAT" 0x24 0x455 [fRoh "VCN" 0 2, fRoh "VCS" 4 6, fRoh "VCU" 8 10, fRoh "TRANSIT" 12 14, fRoh "AVS_FAULT" 16 19],
   lay "AVS_CFG" 0x28 0x641 [fRws "CLK" 0 1, fRws "ACK_TIMEOUT" 4 13], hw "SUPPLY_STAT" 0x2C rDev 10,
   lay "TJ" 0x30 0 [fRoh "TJ_MAX" 0 7, fRoh "SENSOR" 8 12], hw "VCA_TELEM" 0x34, lay "VOTE_CMD" 0x38 0 [fWo "DOMAIN" 0 7, fWo "SET" 8 8]] ++
  [lay "PAD_REL" 0x3C 0 [fWo "DOMAIN" 0 7], lay "ACCT_CLEAR" 0x40 0 [fWo "GO" 0 0],
   (lay "DOM_STAT" 0x1000 0x10001 [fRoh "STATE" 0 1, fRoh "PAD_HOLD" 2 2, fRoh "REFUSED" 3 3, fRoh "VOTES" 16 31]).times 244 1,
   (lay "DOM_ACCT" 0x1400 0 [fRoh "REFUSED" 0 15, fRoh "ABORTED" 16 31]).times 244 1,
   (lay "DOM_LAST" 0x1800 0 [fRoh "IDENTITY" 0 15, fRoh "CAUSE" 16 18]).times 244 1]

/-- TIME (R266). -/
def layTime : List RegLayout :=
  [hw "TB_LO" 0x20 rCold, hw "TB_HI" 0x24 rCold, hw "FRAME_LO" 0x28 rCold, hw "FRAME_HI" 0x2C rCold,
   lay "TB_STAT" 0x30 0 [fRoh "SOURCE" 0 2, fRoh "LOCKED" 3 3, fRoh "HOLDOVER" 4 4, fRoh "BACKUP" 5 5 rCold, fRoh "STEP_CNT" 16 31],
   lay "TB_CTL" 0x34 0 [fRws "SOURCE" 0 2], lay "TB_RATE" 0x38 0 [fRw "RATE" 0 31], whole "STEP_LO" 0x3C 1 rDev,
   whole "STEP_HI" 0x40 1 rDev, lay "STEP_GO" 0x44 0 [fWo "GO" 0 0], (whole "CMP_LO" 0x2000 1 rCore).times 512 4] ++
  [(whole "CMP_HI" 0x2004 1 rCore).times 512 4, (lay "PERIOD" 0x2008 0 [fRw "PERIOD" 0 31 rCore]).times 512 4,
   (lay "TCMP_CTL" 0x200C 0 [fRw "EN" 0 0 rCore, fRoh "MISSED" 16 31 rCore]).times 512 4]

/-- DAMP (R304, R305). -/
def layDamp : List RegLayout :=
  [lay "DAMP_STAT" 0x20 0 [fRoh "PERMIT" 0 0, fRoh "ALL_FORCED" 1 1], hw "LIVE_LO" 0x24, hw "LIVE_HI" 0x28, hw "FORCED_LO" 0x2C,
   hw "FORCED_HI" 0x30, hw "FB_LO" 0x34, hw "FB_HI" 0x38, hw "RB_ERR_LO" 0x3C, hw "RB_ERR_HI" 0x40,
   (lay "CH_CMD" 0x100 0 [fWo "MASK" 0 3, fWo "OP" 4 7, fWo "KEY" 16 31]).times 16 64] ++
  [(lay "CH_STAT" 0x104 0 ((List.range 4).flatMap fun i =>
     [fRoh "STATE" (8 * i) (8 * i + 2), fRoh "FB" (8 * i + 3) (8 * i + 3), fRoh "REFUSAL" (8 * i + 4) (8 * i + 6)])).times 16 64,
   (lay "CH_CFG" 0x2000 0x322 [fRws "ALLOWED" 0 0, fRws "RB_EN" 1 1, fRws "RB_POL" 2 2, fRws "RB_SETTLE" 4 12, fRws "GROUP" 16 19,
     fRws "GROUP_EN" 20 20]).times 64 1]

/-- FIO (R511). -/
def layFio : List RegLayout :=
  [lay "FIO_STAT" 0x20 0 [fRoh "CONFIGURED" 0 0], (whole "EVT_ROUTE" 0x40 5 rDev 0 14).times 8 1,
   (lay "PAD_CFG" 0x100 0 [fRws "MODE" 0 1, fRws "IDLE" 2 2, fRws "DEBOUNCE" 3 10]).times 128 1,
   (hw "GPIO_IN" 0x300).times 4 1, (whole "GPIO_OUT" 0x310 1 rDev).times 4 1,
   (lay "PORT_CFG" 0x400 0xFFFFFF [fRws "RXQ" 0 11, fRws "TXQ" 12 23, fRws "EN" 28 28]).times 10 2, (hw "DROP" 0x404 rDev 15).times 10 2]

/-- BOB (R389). -/
def layBob : List RegLayout :=
  [lay "POOL_STAT" 0x20 0xFC00 [fRoh "SHARED_FREE" 0 16], hw "POOL_HELD" 0x24 rDev 16, lay "POOL_RSV" 0x28 0x400 [fRoh "RSV" 0 16],
   hw "OPEN_STAT" 0x2C rDev 25, whole "QCFG_SEL" 0x30 5 rDev 0 11,
   lay "QCFG_A" 0x34 0 [fRws "FLOOR" 0 16, fRws "MODE" 17 18, fRws "TRY_CELLS" 19 25, fRws "SAFETY" 26 26],
   lay "QCFG_B" 0x38 0 [fRws "CAP" 0 16], lay "QCFG_C" 0x3C 0 [fRws "LEVEL" 0 16], whole "QSTAT_SEL" 0x40 1 rDev 0 11] ++
  [lay "QSTAT_OCC" 0x44 0 [fRoh "OCC" 0 16, fRoh "BROKEN" 17 17, fRoh "AT_LEVEL" 18 18], hw "QSTAT_WORDS" 0x48, hw "QSTAT_SEQ" 0x4C,
   hw "TRY_REF_CNT" 0x50, hw "MISUSE_CNT" 0x54, hw "ABORT_CNT" 0x58, lay "CNT_CLEAR" 0x5C 0 [fWo "GO" 0 0],
   (lay "QBIND" 0x100 0 [fRw "QUEUE" 0 11, fRw "EN" 31 31]).times 1024 1]

/-- MEMC (R365). -/
def layMemc : List RegLayout :=
  [lay "MEM_INFO" 0x20 0 [fRoh "RATE" 0 1, fRoh "RANKS" 2 2, fRoh "DENSITY" 3 3, fRoh "ENABLED" 4 4, fRoh "TRAIN_STEP" 5 7],
   hw "EPOCH" 0x24 rDev 15, hw "CORR_CNT" 0x28, hw "UNCORR_CNT" 0x2C, hw "LOG_OVF" 0x30, (whole "QOS_CORE" 0x34 5 rDev).times 4 1,
   lay "QOS_MASTER" 0x44 0xD7AA50 [fRws "QOS_MASTER" 2 23], hw "QOS_STAT" 0x48 rDev 15,
   lay "FLIP_CTL" 0x4C 0 [fRw "ARM" 0 0, fRw "B_EN" 1 1]] ++
  [lay "FLIP_ADDR_LO" 0x50 0 [fRw "FLIP_ADDR_LO" 6 31], whole "FLIP_ADDR_HI" 0x54 1 rDev 0 15,
   lay "FLIP_BYTES" 0x58 0 [fRw "BYTE_A" 0 6, fRw "MASK_A" 8 15, fRw "BYTE_B" 16 22, fRw "MASK_B" 24 31], lay "CNT_CLEAR" 0x5C 0 [fWo "GO" 0 0],
   lay "RETIRE_ADD" 0x60 0 [fWo "RETIRE_ADD" 0 22, fWo "GO" 31 31], (lay "LOG_ADDR_LO" 0x100 0 [fRoh "LOG_ADDR_LO" 6 31]).times 16 4,
   (lay "LOG_ADDR_HI" 0x104 0 [fRoh "LOG_ADDR_HI" 0 15, fRoh "COUNT" 16 23]).times 16 4] ++
  [(lay "LOG_LOC" 0x108 0 [fRoh "subchannel" 0 0, fRoh "rank" 1 1, fRoh "bank" 2 5, fRoh "row" 6 23]).times 16 4,
   (lay "LOG_INFO" 0x10C 0 [fRoh "outcome" 0 3, fRoh "byte" 4 10, fRoh "SYN" 11 15, fRoh "VALID" 31 31]).times 16 4,
   (lay "RETIRE" 0x1000 0 [fRoh "RETIRE" 0 22, fRoh "VALID" 31 31]).times 1024 1]

/-- A per-unit register of FW (R186). -/
def fwUnit (l : RegLayout) : RegLayout := l.grouped 16 1 0 256

/-- A rule register of FW (R186). -/
def fwRule (l : RegLayout) : RegLayout := l.grouped 512 32 4 256

/-- FW (R186). -/
def layFw : List RegLayout :=
  ([lay "UNIT_INFO" 0x1000 0x2000 [fRo "UNIT" 0 3, fRo "PRIVILEGED" 4 4, fRo "FIXED" 5 5, fRo "RULES" 8 13],
    whole "RANGE_BASE_LO" 0x1004 0 0 0x04000000, whole "RANGE_BASE_HI" 0x1008 0 0 0 15, hw "VIOL_COUNT" 0x100C, hw "CAP_ADDR_LO" 0x1010,
    hw "CAP_ADDR_HI" 0x1014, lay "CAP_INFO" 0x1018 0 [fW1c "VALID" 0 0, fRoh "DIR" 1 2], hw "CAP_TIME_LO" 0x101C,
    hw "CAP_TIME_HI" 0x1020] : List RegLayout).map fwUnit ++
  ([lay "RULE_BASE" 0x1100 0 [fRws "BASE" 0 31], lay "RULE_LIMIT" 0x1104 0xBFFFF [fRws "LIMIT" 0 31],
    lay "RULE_ID" 0x1108 0 [fRws "VALUE" 0 15, fRws "MASK" 16 31],
    lay "RULE_PERM" 0x110C 7 [fRws "EN" 0 0, fRws "R" 1 1, fRws "W" 2 2]] : List RegLayout).map fwRule

/-- The fields of PORT_UP and PORT_DOWN (R497). -/
def chimPortFields : List FieldRec :=
  [fRoh "STATE" 0 1, fRoh "WIDTH" 2 3, fRoh "PEER_POS" 4 6, fRoh "MISMATCH" 7 7, fRoh "LINK_UPS" 16 31]

/-- CHIM (R497). -/
def layChim : List RegLayout :=
  [lay "CHIM_STAT" 0x20 0 [fRoh "POS" 0 2, fRoh "BASE" 3 3, fRoh "MEMBERS" 4 7, fRoh "TB_LOCKED" 8 8, fRoh "EVER_LOCKED" 9 9],
   lay "PORT_UP" 0x24 0 chimPortFields, lay "PORT_DOWN" 0x28 0 chimPortFields, hw "REACH" 0x2C rDev 7, hw "LINK_DELAY_UP" 0x30 rDev 15,
   hw "LINK_DELAY_DOWN" 0x34 rDev 15, hw "TB_OFFSET" 0x38, hw "REPLAY_CNT" 0x3C, lay "RETRAIN" 0x40 0 [fWo "UP" 0 0, fWo "DOWN" 1 1]]

/-- BASTE (R343, R344). -/
def layBaste : List RegLayout :=
  [lay "BASTE_CTL" 0x20 0x64 [fRws "INTERVAL" 0 13], lay "BASTE_EN" 0x24 0x1FFFF [fRws "UNIT" 0 16],
   lay "SCAN_STAT" 0x28 0 [fRoh "SCAN_OPEN" 0 0, fRoh "SECRET_PATH_OFF" 1 1 rCold, fRoh "ZEROISED" 2 2 rCold], hw "RSEQ_NEXT" 0x2C,
   lay "OVERDUE" 0x30 0 [fRoh "UNIT" 0 16], lay "BASTE_GO" 0x34 0 [fWo "UNIT" 0 4],
   (lay "HSTAT" 0x40 0xF0 [fRoh "NEXT_LANE" 0 3, fRoh "CUR_LANE" 4 7, fRoh "PHASE" 8 9, fRoh "BLW_SEGS" 10 16]).times 17 1,
   (lay "BOOT_RESULT" 0x100 0 [fRoh "LANES_OK" 0 12 rHearth, fRoh "HOB_OK" 13 13 rHearth, fRoh "BELLOWS_OK" 14 14 rHearth,
     fRoh "SEAMS_OK" 15 15 rHearth, fRoh "ROWS_REPAIRED" 16 23 rHearth]).times 16 1, (hw "RESULT" 0x200).grouped 256 4 1 4]

/-- The fields of a schedule entry (R255). -/
def entryFields : List FieldRec := [fRw "CONTEXT" 0 7 rHearth, fRw "FCLASS" 8 11 rHearth, fRw "PHASE" 12 26 rHearth]

/-- HEARTH (R120, R121, R208, R244, R245, R268, R457). -/
def layHearth : List RegLayout :=
  [(lay "SEAM_CTL" 0x100 0x64 [fRws "WINDOW" 0 8]).times 4 1, (lay "SEAM_STAT" 0x110 0x3FFE (seamStatFields rCore)).times 4 1,
   (lay "LANE_STATE" 0x120 0x12492492 ((List.range 10).map fun l => fRoh "LANE" (3 * l) (3 * l + 2) rHearth)).times 2 1,
   lay "LANE_POLICY" 0x128 3 [fRws "FENCE_LIMIT" 0 3], lay "LANE_CMD" 0x12C 0 [fWo "LANE" 0 3, fWo "OP" 4 7],
   lay "LANE_CMD_STATUS" 0x130 0 [fRoh "STATE" 0 1 rHearth, fRoh "LANE" 2 5 rHearth],
   (lay "FENCE_CNT" 0x140 0 [fRoh "WINDOW" 0 3, fRoh "TOTAL" 16 31 rCold]).times 13 1] ++
  [lay "LAST_FENCE" 0x180 0xC0 [fRoh "LANE" 0 3, fRoh "CORE" 4 5, fRoh "SLOT" 6 7, fRoh "CAUSE" 8 10], hw "LAST_FENCE_TIME_LO" 0x184,
   hw "LAST_FENCE_TIME_HI" 0x188] ++ layHob 21 13 8 rHearth ++
  [lay "CTX_BASE" 0x300 0x3E [fRws "BASE" 0 5], lay "IMG_BASE" 0x304 0xFEFD [fRws "IN_BASE" 0 7, fRws "OUT_BASE" 8 15],
   lay "IMG_TIMING" 0x308 0xC8 [fRws "IN_DEADLINE" 0 11], lay "IMG_IN_CH" 0x30C 0 [fRws "CH" 0 15], lay "IMG_OUT_CH" 0x310 0 [fRws "CH" 0 15],
   lay "IMG_STAMP" 0x314 0 [fRws "CH" 0 15],
   lay "BLW_STAT" 0x318 0 [fRoh "PHASE" 0 1 rHearth, fRoh "BASTING" 2 2 rHearth, fRoh "PARAM_PENDING" 3 3 rHearth, fRoh "CONTEXT" 8 15 rHearth],
   lay "IMG_LATE" 0x31C 0 [fW1c "CH" 0 15 rHearth], lay "SAFE_SEL" 0x320 0x10000 [fRoh "GROUP" 0 15 rHearth, fRoh "ALL" 16 16 rHearth]] ++
  [hw "RUN_CNT" 0x324 rHearth, hw "RETRY_CNT" 0x328 rHearth, hw "FAULT_CNT" 0x32C rHearth,
   lay "SLACK_MIN" 0x330 0xFFFF [fRoh "BEATS" 0 15 rHearth],
   lay "LAST_FAULT" 0x334 0 [fRoh "CONTEXT" 0 7 rHearth, fRoh "CAUSE" 8 11 rHearth, fRoh "GROUP" 12 15 rHearth, fRoh "HEADER" 16 16 rHearth],
   hw "LAST_FAULT_TIME_LO" 0x338 rHearth, hw "LAST_FAULT_TIME_HI" 0x33C rHearth, lay "BLW_INJECT" 0x340 0 [fWo "CONTEXT" 0 7, fWo "MODE" 8 9],
   lay "CTX_RESUME" 0x344 0 [fWo "CONTEXT" 0 7, fWo "GO" 8 8], lay "BLW_CNT_CLEAR" 0x348 0 [fWo "GO" 0 0]] ++
  [(hw "CTX_FAULTED" 0x360 rHearth).times 8 1, (lay "IMG_EXT_LO" 0x400 0 [fRws "ADDR" 0 31]).times 16 4,
   (lay "IMG_EXT_HI" 0x404 0 [fRws "ADDR_HI" 0 15]).times 16 4, (lay "IMG_WIN" 0x408 0 [fRws "FIRST" 0 11, fRws "COUNT" 12 24]).times 16 4,
   (lay "OUT_GROUP" 0x500 0 ((List.range 8).map fun i => fRws "GROUP" (4 * i) (4 * i + 3))).times 64 1] ++
  [lay "SCHED_CTL" 0x600 0 [fRws "BANK" 0 0 rHearth], lay "SCHED_STAT" 0x604 0 [fRoh "IN_USE" 0 0 rHearth, fRoh "OVR_CNT" 16 31 rHearth],
   hw "LAST_OVR" 0x608 rHearth, lay "SCHA_LEN" 0x610 0 [fRw "LEN" 0 8 rHearth], lay "SCHA_SLACK" 0x614 0 [fRw "SLACK" 0 15 rHearth],
   lay "SCHA_IDLE" 0x618 0 [fRw "IDLE_K" 0 3 rHearth, fRw "IDLE_PHASE" 4 18 rHearth], lay "SCHB_LEN" 0x620 0 [fRw "LEN" 0 8 rHearth],
   lay "SCHB_SLACK" 0x624 0 [fRw "SLACK" 0 15 rHearth], lay "SCHB_IDLE" 0x628 0 [fRw "IDLE_K" 0 3 rHearth, fRw "IDLE_PHASE" 4 18 rHearth]] ++
  [(lay "SCHA_ENTRY" 0x800 0 entryFields).times 256 1, (lay "SCHB_ENTRY" 0xC00 0 entryFields).times 256 1,
   lay "CUT_STAT" 0x1000 0 [fRoh "PHASE" 0 1 rHearth, fRoh "PASSED" 2 5 rHearth, fRoh "FAILED" 6 9 rHearth, fRoh "SWITCHES" 16 31 rHearth],
   lay "CUT_PASS" 0x1004 0 [fWo "RESULT" 0 0, fWo "KEY" 16 31]]

/-- THMG (R434). -/
def layThmg : List RegLayout :=
  [lay "GATE_REQ" 0x20 0 [fRw "CODE" 0 3, fRw "TAG" 8 15, fRw "SUB" 16 31], lay "GATE_ARG" 0x24 0 [fRw "ARG" 0 31],
   lay "GATE_GO" 0x28 0 [fWo "GO" 0 0],
   lay "GATE_STAT" 0x2C 0 [fRoh "BUSY" 0 0, fRoh "ANSWERED" 1 1, fRoh "TAG" 8 15, fRoh "RESULT" 16 23, fRoh "CODE" 24 27],
   lay "GATE_RNUM" 0x30 0 [fRoh "RNUM" 0 31], lay "THM_LINK" 0x34 0 [fRoh "UP" 0 0, fRoh "SEAL_OPEN" 1 1, fRoh "INHIBIT" 2 2, fRoh "STATE" 3 6]]

/-- The layouts of a block type: `src0` is the configuration word of source 0 at reset.
(DESIGN CHOICE: assumption 142.) -/
def layouts (src0 typ ver : Nat) : List RegLayout :=
  layCommon typ ver ++
  match typ with
  | 1 => layDev | 2 => layFlue src0 | 3 => layWdog | 4 => layPwr | 5 => layTime | 6 => layDamp | 7 => layFio | 8 => layBob
  | 10 => layMemc | 11 => layFw | 12 => layChim | 14 => layBaste | 16 => layHearth | 17 => layThmg
  | _ => []

end Sys2Proof.Machine
end

