-- ==== Sys2Proof/Machine/Page.lean ====
section
/-! DEFINITION. The poll page (R85, R86), and the words that other readers share with it. -/

namespace Sys2Proof.Machine

/-- PART of the Pattern header (R14). -/
def W.partWord (w : W) : Word32 := w32 (0x6430 + at_ (!w.isM).toNat 16 + at_ Config.stepping.toNat 20)

/-- SEAM_MODE word `i` (R85): two bits for each of 16 cores. (DEDUCED: assumption 169.) -/
def W.seamWord (w : W) (i : Nat) : Word32 :=
  w32 (((List.range 16).map fun c => at_ (w.dev.seam (16 * i + c)).shown.code (2 * c)).sum)

/-- LANES_FAILED word `i` (R85): four bits for each of 8 hearths. -/
def W.lanesFailed (w : W) (i : Nat) : Word32 :=
  w32 (((List.range 8).map fun h => at_ ((List.range 13).filter fun l =>
    (w.dev.lane (13 * (8 * i + h) + l)).st == .failed).length (4 * h)).sum)

/-- LAST_EVENT (R85). -/
def Flue.lastWord (f : Flue) : Word32 :=
  match f.lastEvent with
  | some r => w32 (r.src + at_ r.sev.toNat 10)
  | none => 0

/-- EXPECT_SEQ of the PCIe source. -/
def W.expectWord (w : W) : Word32 :=
  match (w.dev.cmdSrc 0).expect with
  | some e => w32 e.toNat
  | none => 0x10000

/-- QLEVEL word `i` at a refresh (R86). -/
def W.qlevelWord (w : W) (i : Nat) : Word32 :=
  w32 (maskOf 32 fun j => (w.dev.queue (32 * i + j)).atLevel || w.dev.stoker.crossed.contains (32 * i + j))

/-- The device's own bit of CHIM_LINKED, from step 9 of KINDLE (R482, R85). -/
def W.ownLink (w : W) : Word32 := if w.dev.sys.kindled then w32 (2 ^ w.dev.chim.pos.toNat) else 0

/-- CHIM_LINKED at a refresh (R85, R482). -/
def W.linkedWord (w : W) : Word32 := w.reachWord ||| w.ownLink

/-- What a refresh writes, by offset. -/
def W.pageWords (w : W) : List (Nat × Word32) :=
  let d := w.dev
  [(0x10, lo32 d.clock.tb), (0x14, hi32 d.clock.tb), (0x28, w.expectWord), (0x30, w32 w.tripCount), (0x34, d.flue.events),
   (0x38, d.flue.lastWord), (0x3C, w32 (w.recovCount + at_ w.recovLimit 4)), (0x60, w32 d.stoker.grants.length),
   (0x64, d.stoker.xnext), (0x68, w32 d.stoker.unread), (0x70, w.linkedWord)] ++
  (List.range 4).map (fun i => (0x40 + 4 * i, w.seamWord i)) ++ (List.range 2).map (fun i => (0x50 + 4 * i, w.lanesFailed i)) ++
  (List.range 128).map (fun i => (0x100 + 4 * i, w.qlevelWord i))

/-- The Stoker runs: its seam is not HALTED and it is not being restarted. -/
def W.stokerUp (w : W) : Bool := (w.dev.seam 64).mode != SeamMode.halted && !w.dev.stoker.restarting

/-- No refresh is written before PREPARE (R86); the maintenance SPI shows MODE_WORD alone there (R503). -/
def W.pageDark (w : W) : Bool :=
  let m := w.dev.sys.mode
  m == .off || m == .hold || m == .kindle

/-- POLL_REFRESH: in PREPARE and every mode after it. -/
def execPollRefresh (s : State) : Host.Outcome State Fault Refusal :=
  run s fun w =>
    if w.pageDark || !w.stokerUp then w
    else
      let ws := w.pageWords
      w.upd fun d => { d with stoker := { d.stoker with
        pageSeq := d.stoker.pageSeq + 2, crossed := [], page := ws.foldl (fun t p => t.set p.1 p.2) d.stoker.page } }

/-- A word of the poll page. -/
def W.pollWord (w : W) (o : Nat) : Word32 :=
  let k := w.dev.stoker
  match o with
  | 0 => 0x4C4C4F50
  | 4 => k.pageSeq
  | 8 => w.devStatus
  | 0xC => w.dev.sys.seq
  | 0x18 => w32 k.cmdHead.toNat
  | 0x1C => w32 k.replyHead.toNat
  | 0x20 => k.epoch
  | 0x24 => w32 k.pends.length
  | 0x2C => w32 k.ringFaults.toNat
  | 0x28 => k.page.getD o 0x10000
  | 0x70 => k.page.getD o 0 ||| w.ownLink
  | _ => k.page.getD o 0

/-- A word of the poll page as the maintenance SPI reads it: in KINDLE all but MODE_WORD is 0 (R503). -/
def W.mspiWord (w : W) (o : Nat) : Word32 := if w.pageDark && o != 8 then 0 else w.pollWord o

end Sys2Proof.Machine
end

