-- ==== Sys2Proof/Machine/RegRead.lean ====
section
/-! DEFINITION. What a read of a control register shows (R31, R35, R36): the common registers of every block, the views
of the read-only registers, the staged values, the active mirror, and the snapshots of R32. -/

namespace Sys2Proof.Machine

/-- The code of COMMIT_STATUS.STATE (R35). -/
def CommitState.code : CommitState → Nat
  | .idle => 0 | .busy => 1 | .done => 2 | .conflict => 3 | .aborted => 4

/-- COMMIT_STATUS (R35). -/
def Commit.word (c : Commit) : Word32 :=
  w32 (c.state.code + 8 * c.dirty.toNat + 16 * c.overrun.toNat + at_ c.seq.toNat 16)

/-- The common registers of a block (R35). -/
def W.viewCommon (w : W) (typ inst o : Nat) : Option Word32 :=
  let c := w.dev.commit (blockBase typ inst)
  if o = 0 then some (w32 (inst + at_ typ 16))
  else if o = 4 then some (w32 (Config.blkVer typ).toNat)
  else if o = 0x0C then some (if hasStaged typ then c.word else 0)
  else if o = 0x10 then some c.conflictAt
  else if o < 0x20 then some 0
  else none

/-- The views of a block's own registers. -/
def W.view (w : W) (typ inst o : Nat) : Option Word32 :=
  match typ with
  | 1 => w.viewDev o
  | 2 => w.viewFlue o
  | 3 => w.viewWdog o
  | 4 => w.viewPwr o
  | 5 => w.viewTime o
  | 6 => w.viewDamp o
  | 7 => w.viewFio o
  | 8 => w.viewBob o
  | 10 => w.viewMemc inst o
  | 11 => w.viewFw o
  | 12 => w.viewChim o
  | 14 => w.viewBaste o
  | 16 => w.viewHearth inst o
  | 17 => w.viewThmg o
  | _ => none

/-- A word that the active mirror shows at the mirrored offset `o` (R36). (DEDUCED: assumption 117.) -/
def W.mirrorRead (w : W) (typ inst o : Nat) : Word32 :=
  match w.regRow typ o with
  | some r => if r.kind == RegKind.rws then
      (if typ = 8 ∧ 0x34 ≤ o ∧ o < 0x40 then
        let c := (w.dev.queue (fld (w.reg 8 0 0x30) 0 12)).cfg
        if o = 0x34 then c.wordA else if o = 0x38 then w32 c.cap else w32 c.level
      else w.reg typ inst o) else 0
  | none => 0

/-- Half the span of a block (R29, R36). -/
def halfSpan (typ : Nat) : Nat := if typ = 10 then 0x2000 else 0x8000

/-- The value of a register of a block at offset `o`, a multiple of 4: an offset that no register occupies reads 0
(R24), and so does every register of a disabled channel but MEM_INFO (R365). -/
def W.regRead (w : W) (typ inst o : Nat) : Word32 :=
  if typ = 10 ∧ (w.dev.chan inst).enabled = false ∧ o ≠ 0x20 then 0
  else if halfSpan typ ≤ o then w.mirrorRead typ inst (o - halfSpan typ)
  else match w.viewCommon typ inst o with
    | some v => v
    | none => match w.view typ inst o with
      | some v => v
      | none => match w.regRow typ o with
        | some r => if r.kind == RegKind.rws then w.staged typ inst o
          else if r.kind == RegKind.rw then r.merge (w.reg typ inst o) else w.reg typ inst o
        | none => 0

end Sys2Proof.Machine
end

