-- ==== Sys2Proof/Machine/Pattern.lean ====
section
/-! DEFINITION. The Pattern (R13 to R22): its header, its records and its trailer. The order of the records behind the
DEVICE record is the model's (the spec fixes none); the positions of the balls are the Pattern ROM's. -/

namespace Sys2Proof.Machine

/-- NAME_HASH (R20). -/
def nameHash (s : String) : Word32 := crc32c (s.toList.map fun c => BitVec.ofNat 8 c.toNat)

/-- The name of a block type (R29). -/
def blockName (typ : Nat) : String :=
  (["DEV", "FLUE", "WDOG", "PWR", "TIME", "DAMP", "FIO", "BOB", "CRYP", "MEMC", "FW", "CHIM", "HOST", "BASTE", "DBG",
    "HEARTH", "THMG"] : List String).getD (typ - 1) ""

/-- The records built so far: how many, and their words in reverse order. -/
structure PatBuild where
  /-- Records. -/
  n : Nat := 0
  /-- Words, last first. -/
  ws : List Word32 := []

/-- Add a record of a type, its PARENT and its payload (R17). -/
def PatBuild.add (b : PatBuild) (typ parent : Nat) (pay : List Word32) : PatBuild :=
  { n := b.n + 1,
    ws := ([w32 (typ + at_ 1 8 + at_ (8 + 4 * pay.length) 16), w32 (b.n + at_ parent 16)] ++ pay).reverse ++ b.ws }

/-- Add a record for each item. -/
def PatBuild.each {α : Type} (b : PatBuild) (xs : List α) (f : α → PatBuild → PatBuild) : PatBuild :=
  xs.foldl (fun b x => f x b) b

/-- The values of the COUNT records 0x0001 to 0x000C (R21). -/
def W.patCounts (w : W) : List Nat :=
  [16, 64, 208, 4096, 4096, 65536, w.dev.dramBytes, 64, ((List.range 1024).filter fun s => (w.source s).isSome).length,
   if w.isM then 48 else 0, if w.isM then 16 else 0, max 1 w.dev.chim.members.toNat]

/-- The FAULT_SOURCE records of a block: number, default severity and mask, FIXED, name (R19, R530). -/
def W.patSources (w : W) (typ inst : Nat) : List (List Word32) :=
  (List.range 1024).filterMap fun s =>
    if srcBlock s = (typ, inst) then
      (w.source s).map fun r => [w32 (s + at_ r.sev 10 + at_ r.mask 12 + at_ r.fixed.toNat 17), 0, nameHash r.name]
    else none

/-- The power of Thimble domain 241 + `i` in mW: the three make 600 together (R458), in shares that the spec does not give.
(DESIGN CHOICE: assumption 45.) -/
def thmPower (i : Nat) : Nat :=
  let x := (Config.thmPower 0).toNat % 601
  let y := (Config.thmPower 1).toNat % (601 - x)
  match i with
  | 0 => x
  | 1 => y
  | _ => 600 - x - y

/-- The power domains under a block: number, rail code of R516, maximum power in mW (R458).
(DESIGN CHOICE: assumption 155.) -/
def W.patDomains (w : W) (typ inst : Nat) : List (Nat × Nat × Nat) :=
  match typ with
  | 1 => (List.range 4).map (fun i => (224 + i, 2, 150)) ++ [(228, 2, 500)]
  | 2 => [(255, 3, 500)]
  | 7 => [(236, 2, 600), (239, 2, 800)]
  | 8 => [(229, 2, 1000)]
  | 9 => [(230, 2, 1500)]
  | 10 => [(231 + inst, 2, 2000)]
  | 12 => [(237, 2, 1800), (238, 2, 1800)]
  | 13 => [(235, 2, 1500)]
  | 15 => [(240, 2, 300)]
  | 16 => (List.range 13).map (fun l => (13 * inst + l, inst / 8, 150)) ++ [(208 + inst, inst / 8, 1200)]
  | 17 => if w.isM then (List.range 3).map (fun i => (241 + i, 4, thmPower i)) else []
  | _ => []

/-- The name of a power domain (R39). (DESIGN CHOICE: assumption 156.) -/
def domainName (d : Nat) : String :=
  if d = 255 then "always-on"
  else "PD_" ++ toString (d / 100) ++ toString (d / 10 % 10) ++ toString (d % 10)

/-- The pin groups (R515): name, rail code, balls. -/
def pinGroups : List (String × Nat × Nat) :=
  [("VSS", 0xFF, 1838), ("VCN", 0, 360), ("VCS", 1, 360), ("VCU", 2, 220), ("VCA", 3, 16), ("VCT", 4, 12),
   ("VDDQ_M", 5, 64), ("VPHY", 6, 48), ("VPHYA", 7, 16), ("VSD", 8, 40), ("VSDH", 9, 16), ("VIO18", 10, 24),
   ("VIO33", 11, 32), ("VTIO", 12, 8), ("SENSE", 0xFF, 6), ("RSVD", 0xFF, 6), ("DAMP", 11, 192), ("SAFETY", 11, 4),
   ("MEM", 5, 76), ("MEM", 5, 76), ("MEM", 5, 76), ("MEM", 5, 76), ("MEM_REF", 7, 2), ("PCIE", 8, 34), ("ETH", 8, 8)] ++
  [("SB33", 11, 7), ("CHIM_UP", 8, 32), ("CHIM_DN", 8, 32), ("MSPI", 10, 4), ("XSPI", 10, 12), ("XSPI", 10, 12),
   ("CAN", 11, 16), ("SPI", 11, 56), ("I2C", 11, 8), ("GPIO_A", 11, 64), ("GPIO_B", 10, 64), ("SYS18", 10, 12),
   ("THM_BS", 12, 52), ("THM_PI", 12, 16), ("THM_SYS", 12, 3)]

/-- The PIN_GROUP entry of ball `i` of group `g` (R19): row index 0 to 65, column 1 to 66; which ball it is, the spec
does not give. (DESIGN CHOICE: assumption 45.) -/
def ballEntry (g i : Nat) : Nat :=
  let v := (Config.ball g i).toNat
  at_ (v / 66 % 66) 8 + (v % 66 + 1)

/-- The payload of the PIN_GROUP record of group `g` (R19). -/
def pinPayload (g : Nat) (r : String × Nat × Nat) : List Word32 :=
  let e := fun i => if i < r.2.2 then ballEntry g i else 0
  [w32 (g + at_ r.2.1 8 + at_ r.2.2 16), nameHash r.1] ++
  (List.range ((r.2.2 + 1) / 2)).map fun i => w32 (e (2 * i) + at_ (e (2 * i + 1)) 16)

/-- The payload of a REGISTER_LAYOUT record (R19). (DESIGN CHOICE: assumption 142.) -/
def RegLayout.payload (l : RegLayout) : List Word32 :=
  [w32 (l.off + at_ l.count 16), w32 (l.stride + at_ l.group 8 + at_ l.gstride 16), w32 l.reset, nameHash l.name]

/-- The payload of a FIELD record (R19). (DESIGN CHOICE: assumption 142.) -/
def FieldRec.payload (f : FieldRec) : List Word32 :=
  [w32 (f.lsb + at_ f.msb 5 + at_ f.access 10 + at_ f.resets 14), nameHash f.name]

/-- A REGISTER_LAYOUT record under the BLOCK record `own`, and its FIELD records. -/
def PatBuild.layout (b : PatBuild) (own : Nat) (l : RegLayout) : PatBuild :=
  (b.add 3 own l.payload).each l.fields fun f c => c.add 4 b.n f.payload

/-- The BLOCK record of a block and its children; `lay` is the INDEX of the BLOCK record that has the layouts of the
type. -/
def W.patBlock (w : W) (typ inst lay : Nat) (b : PatBuild) : PatBuild :=
  let own := b.n
  let base := blockBase typ inst
  let b := b.add 2 0 [w32 base, w32 (at_ typ 16), w32 (2 * halfSpan typ), w32 (lay + at_ inst 16), nameHash (blockName typ)]
  let b := if lay = own then b.each (layouts (w.regReset 2 0x1000).toNat typ (Config.blkVer typ).toNat) fun l b => b.layout own l
    else b
  let b := b.each (w.patSources typ inst) fun r b => b.add 6 own r
  b.each (w.patDomains typ inst) fun r b => b.add 7 own [w32 (r.1 + at_ r.2.1 8), w32 r.2.2, nameHash (domainName r.1)]

/-- Every BLOCK record of this device, with the INDEX of the first of the type. -/
def W.patBlocks (w : W) (b : PatBuild) : PatBuild :=
  ((allBlocks.filter fun x => w.hasBlock x.1 x.2).foldl (fun (s : PatBuild × Nat) x =>
    let lay := if x.2 = 0 then s.1.n else s.2
    (w.patBlock x.1 x.2 lay s.1, lay)) (b, 0)).1

/-- The payload of the CHIMNEY_MEMBER record of position `n` (R19, R22). -/
def W.patMember (w : W) (n : Nat) : List Word32 :=
  if n = 0 then [w32 (8 + at_ (!w.isM).toNat 4), 0, w32 (w.dev.dramBytes / 0x100000), 0x100]
  else
    let c := w.dev.course n
    [w32 (n + 8 * c.reach.toNat + at_ (Config.memberVariant n).toNat 4), c.crc, c.part, w32 (0x100 + 0x10 * n)]

/-- The records of the Pattern. (DESIGN CHOICE: assumptions 45, 156.) -/
def W.patRecords (w : W) : PatBuild :=
  let d := w.dev
  let base := d.chim.pos == 0
  let b := ({} : PatBuild).add 1 0xFFFF
    [w.partWord, w32 (d.chim.pos.toNat + 8 * base.toNat), w32 w.isM.toNat, nameHash (if w.isM then "KL6430-M" else "KL6430-N")]
  let b := b.each ((List.range 12).zip w.patCounts) fun c b => b.add 9 0 [w32 (c.1 + 1), w32 c.2, w32 (c.2 / 2 ^ 32)]
  let b := w.patBlocks b
  let b := b.each (commandTable.filter fun c => (w.cmdInfo c.opc).isSome) fun c b =>
    b.add 5 0 [w32 (c.opc + at_ c.mask 16), w32 (c.minLen + at_ c.maxLen 12 + at_ c.grant.toNat 24), nameHash c.name]
  let b := b.each ((List.range 40).zip pinGroups) fun g b => b.add 8 0 (pinPayload g.1 g.2)
  if base then b.each (List.range (max 1 d.chim.members.toNat)) fun n b => b.add 0xA 0 (w.patMember n) else b

/-- The words of the Pattern (R14, R15): header, records, trailer. (DESIGN CHOICE: assumption 44.) -/
def W.patWords (w : W) : List Word32 :=
  let b := w.patRecords
  let c := w.dev.chim
  let ws := [0x4E544150, 0x10000, w32 (36 + 4 * b.ws.length), w32 b.n, w.dev.patGen,
    w32 ((c.pos == 0).toNat + 2 * (decide (1 < c.members.toNat)).toNat), w.partWord, 0] ++ b.ws.reverse
  ws ++ [crc32c (wordsLe ws)]

/-- The Pattern's own CRC, as a course reports it (R489). -/
def W.patCrc (w : W) : Word32 := w.patWords.getLastD 0

/-- `n` bytes of the Pattern from `o` (R13): the bytes behind LENGTH read 0. (DESIGN CHOICE: assumption 44.) -/
def W.patRead (w : W) (o n : Nat) : List Byte :=
  let ws := w.patWords
  (List.range n).map fun i => BitVec.ofNat 8 ((ws.getD ((o + i) / 4) 0).toNat / 256 ^ ((o + i) % 4))

end Sys2Proof.Machine
end

