-- ==== Sys2Proof/Machine/Basic.lean ====
section
/-! DEFINITION. The checks that the Stoker makes before a basic-level change (R84): `w` is the world as it stands, `n`
the world with the staged values active; each rule gives the offsets of the registers that break it. -/

namespace Sys2Proof.Machine

/-- The Stoker reads bytes of the hob of a hearth through the router (R189, R196, R197); an uncorrectable byte ends the command
with INTERNAL_FAULT. (DEDUCED: assumption 149.) -/
def W.readHob (w : W) (h off n : Nat) (k : List Byte → W → Res) : Res :=
  match w.hobReadSel w.stokerRid h (hobBase h + off) n with
  | (.data bs, w) => k bs w
  | (_, w) => w.internal.fail sInternalFault

/-- The Stoker reads the extension whose axes R224 judges: that of a TABLE2D. -/
def W.readExt (w : W) (h : Nat) (c : Ctx) (k : W → Res) : Res :=
  if c.kernel = 5 ∧ c.extOff + 32 * c.extLen ≤ 0x400000 then w.readHob h c.extOff (32 * c.extLen) fun _ w => k w else k w

/-- The hob offsets of contexts of a hearth. -/
def W.ctxOffs (w : W) (h : Nat) (cs : List Nat) : List (Nat × Nat) := cs.map fun c => (h, w.ctxBase h + 256 * c)

/-- The contexts that a bank places. -/
def W.planCtxs (w : W) (h : Nat) (b : Bool) : List (Nat × Nat) := w.ctxOffs h ((w.plan h b).entries.map entryCtx)

/-- The Stoker reads the context blocks, by hearth and hob offset, that it is about to judge as they stand (R258), through the
hob's port as any other bytes: the hob wakes, and every port word is decoded and logged (R196, R197, R202).
(DEDUCED: assumption 149.) -/
def W.readCtxs (w : W) (cs : List (Nat × Nat)) (k : W → Res) : Res :=
  match cs with
  | [] => k w
  | (h, off) :: cs => w.readHob h off 256 fun bs w => w.readExt h (Ctx.ofBytes bs) fun w => w.readCtxs cs k

/-- Mode rules are waived in PREPARE and MAINTAIN. -/
def W.lax (w : W) : Bool := w.dev.sys.mode == .prepare || w.dev.sys.mode == .maintain

/-- The minimum straggler window of a level in ns (R96). -/
def minWindow (l : Nat) : Nat := ([70, 50, 40, 30, 25, 25, 20] : List Nat).getD l 70

/-- W of seam `k` of hearth `h`. -/
def W.window (w : W) (h k : Nat) : Nat := fld (w.hreg h (0x100 + 4 * k)) 0 9

/-- Every seam of rail `r` keeps the minimum of level `l` (R96). -/
def W.windowsOk (w : W) (r l : Nat) : Bool :=
  (List.range 16).all fun h => railOf h != r || (List.range 4).all fun k => decide (minWindow l ≤ w.window h k)

/-- The minimum that a seam of rail `r` must keep: while a level change runs, that of both levels; where the same
change writes LEVEL_CTL, that of the new level as well. -/
def W.windowMin (w n : W) (r : Nat) : Nat :=
  let p := w.dev.power
  let c := n.reg 4 0 0x20
  max (max (minWindow (p.level r)) (match p.changes.get? r with
    | some c => minWindow c.target
    | none => 0)) (if c == w.reg 4 0 0x20 then 0 else minWindow (fld c (4 * r) 3))

/-- The mode rule of HOB_CTL (R207). -/
def hobBasic (w n : W) (typ inst : Nat) : List Nat :=
  let v := n.reg typ inst 0x200
  bad (w.dev.sys.mode != .prepare && w.dev.sys.mode != .maintain && (!bitAt v 16 || decide (50 < fld v 0 13))) [0x200]

/-- The mask of a source-specific rule (R109, R235, R261, R319): the reactions of which a source must hold one. -/
def sourceNeeds (s : Nat) : Nat :=
  if decide (0x100 ≤ s ∧ s < 0x180) && s % 8 == 4 then 0b01010
  else if decide (0x210 ≤ s ∧ s < 0x220) then 0b01110
  else if decide (0x250 ≤ s ∧ s < 0x260) then 0b01010
  else if decide (0x080 ≤ s ∧ s < 0x0C0) then 0b01010
  else 0

/-- A source breaks the rules of R299. -/
def sourceBad (w n : W) (s : Nat) : Bool :=
  let v := n.sev s
  let m := n.mask s
  let safes := 0b01110
  (v == 0 && Nat.land m 0b11110 != 0) || (v == 1 && Nat.land m safes != 0) ||
  (v == 2 && (Nat.land m 0b00110 == 0 || m.testBit 3)) || (v == 3 && !m.testBit 3) ||
  (sourceNeeds s != 0 && Nat.land m (sourceNeeds s) == 0) ||
  (!w.lax && (decide (v < w.sev s) || Nat.land (Nat.land (w.mask s) 0b11110) (Nat.xor m 31) != 0))

/-- The rules of FLUE (R299). -/
def flueBasic (w n : W) : List Nat :=
  let e := n.reg 2 0 0x34
  bad (decide ((n.dev.queue (fld e 0 12)).cfg.floor < 1024) || fld e 12 12 == fld e 0 12) [0x34] ++
  (List.range 1024).flatMap fun s => bad ((n.source s).isSome && sourceBad w n s) [0x1000 + 4 * s]

/-- The rules of WDOG (R321). -/
def wdogBasic (w n : W) : List Nat :=
  (List.range 64).flatMap fun k =>
    let o := 0x20 + 4 * (k / 32)
    let h := k / 4
    bad (!w.lax && bitAt (w.reg 3 0 o) (k % 32) && !bitAt (n.reg 3 0 o) (k % 32) &&
      (List.range 4).any fun j => bitAt (n.reg 6 0 (0x2000 + 4 * (4 * h + j))) 0) [o]

/-- The level that a new schedule of hearth `h` is checked at (R79, R84): the slower of the one in force and the one that
LEVEL_CTL in the same change asks for. -/
def W.planLevel (w n : W) (h : Nat) : Nat :=
  let c := n.reg 4 0 0x20
  if c = w.reg 4 0 0x20 then w.checkLevel h else min (w.checkLevel h) (fld c (4 * railOf h) 3)

/-- The level rules of a rail that is to change from `l` to `t` (R96, R260). -/
def W.levelOk (w : W) (r l t : Nat) : Bool := r == 2 || (w.windowsOk r l && w.windowsOk r t)

/-- The rules of PWR for LEVEL_CTL (R96, R260), with the schedules and timings that the same change brings (R79, R84). -/
def pwrBasic (w n : W) : List Nat :=
  let c := n.reg 4 0 0x20
  bad ((List.range 3).any fun r =>
    let l := w.dev.power.level r
    let t := fld c (4 * r) 3
    t != l && (!n.levelOk r l t || (r != 2 && decide (t < l) && !n.mayLower r t))) [0x20]

/-- The group is that of a loaded context of the hearth (R300). -/
def W.groupLoaded (w : W) (h g : Nat) : Bool := (w.dev.blw h).loaded.any fun c => (w.ctxAt h c).group == g

/-- The rules of DAMP (R300). -/
def dampBasic (w n : W) : List Nat :=
  (List.range 64).flatMap fun k =>
    let o := 0x2000 + 4 * k
    let v := n.reg 6 0 o
    let h := k / 4
    let mask := n.mask (0x100 + 8 * h + 4)
    bad ((w.dev.sys.mode != .prepare && fld (w.reg 6 0 o) 0 3 != fld v 0 3) ||
      (bitAt v 0 && Nat.land mask 0b01010 == 0) || (bitAt v 20 && !n.groupLoaded h (fld v 16 4))) [o]

/-- A queue that a field port may name (R511). (DEDUCED: assumption 100.) -/
def W.portQueue (w : W) (q : Nat) : Bool :=
  q == 0xFFF || ((w.dev.queue q).cfg.mode == QMode.packet && q != fld (w.reg 2 0 0x34) 0 12 && w.dev.thm.fwd != some q)

/-- The rules of FIO (R511). -/
def fioBasic (w n : W) : List Nat :=
  (List.range 128).flatMap (fun p =>
    let o := 0x100 + 4 * p
    bad (!w.lax && fld (w.reg 7 0 o) 0 2 != fld (n.reg 7 0 o) 0 2) [o]) ++
  (List.range 10).flatMap fun k =>
    let o := 0x400 + 8 * k
    let v := n.reg 7 0 o
    bad (!n.portQueue (fld v 0 12) || !n.portQueue (fld v 12 12)) [o]

/-- The least FLOOR of queue `q` as a safety queue (R385). -/
def W.safetyFloor (w : W) (q : Nat) (c : QCfg) : Nat :=
  if q = fld (w.reg 2 0 0x34) 0 12 then 1024
  else if w.dev.thm.fwd = some q then 512
  else max 1 c.tryCells

/-- A configuration breaks the rules of R391 for safety queues; `n` names the event queue. -/
def W.safetyBad (w n : W) (q : Nat) (c : QCfg) : Bool :=
  let old := (w.dev.queue q).cfg
  (q == fld (n.reg 2 0 0x34) 0 12 && !(c.mode == QMode.packet && c.floor == 1024 && c.cap == 1024 && c.safety)) ||
  (c.safety && (c.mode != QMode.packet || decide (c.floor < n.safetyFloor q c) ||
    (w.dev.thm.fwd == some q && decide (c.tryCells < 9)))) ||
  (!w.lax && old.safety && (!c.safety || decide (c.floor < old.floor)))

/-- The rules of BOB for the queue that it configures (R391). -/
def bobBasic (w n : W) : List Nat := bad (w.safetyBad n (qcfgSel n) (qcfgOf n)) [0x34]

/-- The rules of a QoS block (R363): the four blocks agree, and class 0x9 is in class 0 or 1. -/
def memcBasic (n : W) (m : Nat) : List Nat :=
  ([0x34, 0x38, 0x3C, 0x40, 0x44] : List Nat).flatMap fun o =>
    bad ((List.range 4).any (fun k => n.reg 10 k o != n.reg 10 m o) || (o == 0x44 && decide (1 < fld (n.reg 10 m o) 18 2))) [o]

/-- Rule starts and ends of a unit: between two of them nothing changes. -/
def W.fwPoints (n : W) (u lo hi : Nat) : List Nat :=
  lo :: ((List.range 32).flatMap fun i => let r := n.fwRule u i; [r.1, r.2.1 + 1]).filter fun g => decide (lo < g ∧ g ≤ hi)

/-- Unit `u` admits the identity on every granule from `lo` to `hi`. -/
def W.fwCovers (n : W) (u lo hi : Nat) (m : Rid) (d : Dir) : Bool := (n.fwPoints u lo hi).all fun g => n.fwAdmits u g m d

/-- The unit of an address admits the identity on `len` bytes. -/
def W.admitsRange (n : W) (a len : Nat) (m : Rid) (d : Dir) : Bool :=
  let u := fwUnitOf a
  n.fwCovers u ((a - fwBase u) / 256) ((a + max len 1 - 1 - fwBase u) / 256) m d

/-- The device address of channel `c` of hearth `h` (R244). -/
def W.chanAddr (w : W) (h c : Nat) : Nat := (w.hreg h (0x400 + 16 * c)).toNat + 2 ^ 32 * fld (w.hreg h (0x404 + 16 * c)) 0 16

/-- A channel address that does not advance: a queue port (R375) or a field port register (R507). -/
def fixedAddr (a : Nat) : Bool := (decide (0x11800000 ≤ a) && decide (a < 0x11840000)) || (blockAt a).isSome

/-- The accesses of bound channel `c` of hearth `h` are admitted (R184). (DEDUCED: assumption 126.) -/
def W.chanAdmitted (n : W) (h c : Nat) : Bool :=
  let inp := bitAt (n.hreg h 0x30C) c
  let out := bitAt (n.hreg h 0x310) c
  let win := n.hreg h (0x408 + 16 * c)
  let m := n.rid 2 (16 * h + c) false
  let a := n.chanAddr h c
  let words := fld win 12 13
  let len := if fixedAddr a then 4 else 4 * words
  let img := hobBase h + (if inp then n.inBase h else n.outBase h) + 4 * fld win 0 12
  !(inp || out) || (words == 0 && !inp) ||
  ((words == 0 || n.admitsRange a len m (if inp then .read else .write)) &&
    n.admitsRange img (4 * (words + (inp && bitAt (n.hreg h 0x314) c).toNat)) m (if inp then .write else .read))

/-- The port words that a run of context `c` of hearth `h` touches are admitted to the bellows (R184).
(DEDUCED: assumption 126.) -/
def W.ctxAdmitted (n : W) (h c : Nat) : Bool :=
  let k := n.ctxAt h c
  let m := n.rid 3 h false
  let at_ := hobBase h + n.ctxBase h + 256 * c
  let img := fun (i : Nat) => hobBase h + (if i < 512 then n.inBase h + 32 * i else n.outBase h + 32 * (i - 512))
  n.admitsRange at_ 256 m .read && n.admitsRange at_ 256 m .write &&
  (k.imagePws.all fun i => n.admitsRange (img i) 32 m .read) &&
  (k.outPws.all fun i => n.admitsRange (hobBase h + n.outBase h + 32 * i) 32 m .write) &&
  (k.extLen == 0 || (n.admitsRange (hobBase h + k.extOff) (32 * k.extLen) m .read &&
    n.admitsRange (hobBase h + k.extOff) (32 * k.extLen) m .write))

/-- The accesses that the accepted schedules use are admitted (R184).
(DESIGN CHOICE: assumption 158.) (DEDUCED: assumption 126.) -/
def W.schedAdmitted (n : W) : Bool :=
  (List.range 16).all fun h =>
    let es := (n.plan h (bitAt (n.hreg h 0x600) 0)).entries
    es.isEmpty || ((es.all fun e => n.ctxAdmitted h (entryCtx e)) && (List.range 16).all fun c => n.chanAdmitted h c)

/-- The rules of FW (R184); what no single rule breaks is laid at the first rule of the unit.
(DEDUCED: assumption 98.) -/
def fwBasic (w n : W) : List Nat :=
  let offs := fun (u : Nat) => (List.range 128).map fun i => 0x1000 + u * 0x400 + 0x100 + 4 * i
  bad (w.dev.sys.mode != .prepare) (([5, 6] : List Nat).flatMap fun u => (offs u).filter fun o => w.reg 11 0 o != n.reg 11 0 o) ++
  (List.range 32).flatMap (fun i =>
    let r := n.fwRule 5 i
    bad (r.2.2.2.testBit 0 && r.2.2.2.testBit 2 && r.2.2.1 != fwStoker n.dev.chim.pos.toNat) [0x2500 + 16 * i + 8]) ++
  ((List.range 16).filter fun u => !fwFixed u).flatMap (fun u =>
    bad (!(n.fwCovers u 0 (fwLast u) n.stokerRid .read && n.fwCovers u 0 (fwLast u) n.stokerRid .write)) [0x1100 + u * 0x400]) ++
  bad (decide (0 < n.dev.dramBytes) && !n.admitsRange (dramBase + n.dev.dramBytes - 0x3100000) 0x100000 n.flueRid .write) [0x3100] ++
  bad (!n.schedAdmitted) [0x1100]

/-- The rules of BASTE (R342). -/
def basteBasic (w n : W) : List Nat :=
  bad (!w.lax && decide (100 < fld (n.reg 14 0 0x20) 0 14)) [0x20] ++
  bad (!w.lax && fld (n.reg 14 0 0x24) 0 17 != 0x1FFFF) [0x24]

/-- The rules of HEARTH_h: windows (R96, R119), the march (R207), and the schedule in force
(R84, R258). (DEDUCED: assumption 98.) -/
def hearthBasic (w n : W) (h : Nat) : List Nat :=
  let p := n.plan h (bitAt (n.hreg h 0x600) 0)
  let fits := p.entries.isEmpty || n.planPasses h p (w.planLevel n h)
  let changed := fun (o : Nat) => w.hreg h o != n.hreg h o
  (List.range 4).flatMap (fun k => bad (decide (n.window h k < w.windowMin n (railOf h))) [0x100 + 4 * k]) ++
  hobBasic w n 16 h ++
  bad (!fits) (([0x300, 0x304, 0x308, 0x600] : List Nat).filter changed)

/-- The offsets of the registers of a block that break a rule of the basic level. -/
def basicRules (w n : W) (typ inst : Nat) : List Nat :=
  commitRules w n typ inst ++
  match typ with
  | 1 => hobBasic w n 1 0
  | 2 => flueBasic w n
  | 3 => wdogBasic w n
  | 4 => pwrBasic w n
  | 6 => dampBasic w n
  | 7 => fioBasic w n
  | 8 => bobBasic w n
  | 10 => memcBasic n inst
  | 11 => fwBasic w n
  | 14 => basteBasic w n
  | 16 => hearthBasic w n inst
  | _ => []

end Sys2Proof.Machine
end

