-- ==== Sys2Proof/Machine/Queues.lean ====
section
/-! DEFINITION. The port pages of the Bobbin's queues (R374 to R385): dequeues, enqueues, packets, waiting enqueues,
and the pool window (R369). -/

namespace Sys2Proof.Machine

/-- What an operation of the engine has detected is raised. -/
def W.settled (r : Acc × W) : Acc × W := (r.1, r.2.settle)

/-- DEQ or PEEK (R376), after the waiters that freed cells admit (R382). -/
def W.portDeq (w : W) (m : Rid) (q : Nat) (peek : Bool) : Acc × W :=
  let w := w.grantWaiters
  let (poison, w) := w.cellRead m q (if peek then 8 else 0)
  W.settled (.data (le 8 (w.deqValue q poison).toNat), if peek ∨ (w.head q).isNone then w else w.deqWord q)

/-- QSTAT (R374). -/
def W.portStat (w : W) (q : Nat) : Acc × W :=
  let w := w.grantWaiters
  let k := w.dev.queue q
  W.settled (.data (le 8 (k.occ + at_ k.broken.toNat 17 + at_ (min k.words 0xFFFFFFFF) 32)), w)

/-- A write that joins the waiters (R373). (DEDUCED: assumption 114.) -/
def W.await (w : W) (x : Waiter) : Acc × W := (.wait, w.onBob fun b => { b with waiters := b.waiters ++ [x] })

/-- A write of a port page after the waiters that a freed cell admits (R382): it joins them where it meets a limit, or where
an earlier write of its requester waits. (DEDUCED: assumption 114.) -/
def W.enqueue (w : W) (m : Rid) (q off : Nat) (ws : List Word32) : Acc × W :=
  let w := w.grantWaiters
  W.settled (if w.dev.bobbin.waiters.any (fun y => y.rid == m) then w.await ⟨m, q, off, ws, false⟩
    else match w.tryWaiter ⟨m, q, off, ws, true⟩ with
      | some r => r
      | none => w.await ⟨m, q, off, ws, true⟩)

/-- PKT_CLOSE (R378). (DEDUCED: assumption 114.) -/
def W.portClose (w : W) (m : Rid) (q : Nat) (v : Word32) : Acc × W := w.enqueue m q 0x2C [v]

/-- TRY_OPEN (R379). -/
def W.portTry (w : W) (m : Rid) (q : Nat) : Acc × W :=
  let w := w.grantWaiters
  let k := w.dev.queue q
  W.settled (if k.broken then w.misuse m q 0x18
    else match w.tryReason m q with
      | some r => (.data (le 8 (at_ r 60)), w.tryRefused m q)
      | none => (.data (le 8 (2 ^ 63 + (14 * k.cfg.tryCells - 1))), (w.openPkt m q k.cfg.tryCells true).poolNote m q 0x18))

/-- Misuse that is no operation of the page (R375). -/
def W.portMisuse (w : W) (m : Rid) (q o : Nat) : Acc × W := W.settled (w.misuse m q o)

/-- A read of a port page at offset `o` (R374, R375). -/
def W.portRead (w : W) (m : Rid) (q o n : Nat) : Acc × W :=
  if n ≠ 8 then w.portMisuse m q o
  else if o = 0 then w.portDeq m q false
  else if o = 8 then w.portDeq m q true
  else if o = 0x10 then w.portStat q
  else if o = 0x18 then w.portTry m q
  else w.portMisuse m q o

/-- A write of a port page at offset `o`. -/
def W.portWrite (w : W) (m : Rid) (q o : Nat) (bs : List Byte) : Acc × W :=
  let v := wordAt bs 0
  if o = 0x28 ∧ (bs.length = 4 ∨ bs.length = 8) then w.enqueue m q o (if bs.length = 8 then [v, wordAt bs 4] else [v])
  else if bs.length ≠ 4 then w.portMisuse m q o
  else if o = 0x20 then w.enqueue m q o [v]
  else if o = 0x24 then w.enqueue m q o []
  else if o = 0x2C then w.portClose m q v
  else w.portMisuse m q o

/-- A write of a port page register passes unit 3 (R178), or is dropped. -/
def W.pageWrite (w : W) (m : Rid) (q o : Nat) (act : W → W) : W :=
  let (ok, w) := w.fwCheck 3 (BitVec.ofNat 48 (pageAddr q o)) m .write
  if ok then act w else w

/-- Append words one after the other to an open packet of the TRY port (R379, R380). -/
def W.appendTry (w : W) (m : Rid) (q : Nat) : List Word32 → W
  | [] => w
  | v :: vs => W.appendTry (w.pageWrite m q 0x28 fun w => (w.enqueue m q 0x28 [v]).2) m q vs

/-- A master inside the device puts a whole packet through the TRY port, each access judged by unit 3 (R178, R379): whether
the packet was opened. -/
def W.sendPacket (w : W) (m : Rid) (q : Nat) (ws : List Word32) : Bool × W :=
  let (ok, w) := w.fwCheck 3 (BitVec.ofNat 48 (pageAddr q 0x18)) m .read
  if !ok then (false, w)
  else match w.portTry m q with
    | (.data bs, w) =>
      if (ofLe bs).testBit 63 then (true, (w.appendTry m q ws).pageWrite m q 0x2C fun w => (w.portClose m q 0).2) else (false, w)
    | (_, w) => (false, w)

/-- Answer a row with how its access ended; a core's failed write leaves a notice (R175). -/
def W.respond (w : W) (m : Rid) (n : Nat) (read : Bool) (r : Acc) : W :=
  match r with
  | .data bs => w.answer (if bs.length ≤ 8 then .word (w64 (ofLe bs)) else .bytes bs)
  | .done => w.answer .done
  | .wait => w
  | .err e => match refused m n e read with
    | .data bs => w.answer (.word (w64 (ofLe bs)))
    | .err e => (w.when (!read) fun w => w.writeFailed m e).answer (.error (BitVec.ofNat 8 e))
    | _ => w.answer .done

/-- An access to a port page or the pool window that unit `u` of the firewalls admits. -/
def W.guarded (w : W) (m : Rid) (u a n : Nat) (d : Dir) (act : W → Acc × W) : W :=
  w.powered fun w =>
    let (ok, w) := w.fwCheck u (BitVec.ofNat 48 a) m d
    let (r, w) := if ok then act w else (.err eFirewall, w)
    w.respond m n d.needsR r

/-- A soft error strikes the cell at the head of queue `q` (R384): one bit, or two of a byte of the payload word, of HEADER or
of the owner entry. -/
def W.strike (w : W) (q : Nat) (ecc : PoolEcc) : W :=
  let k := w.dev.queue q
  match k.ends with
  | none => w
  | some (c, _) =>
    let p := 64 * c + 4 * (2 + k.rd % 14)
    match ecc with
    | .clean => w
    | .corrected => w.poolFlip p 0x100
    | .payload => w.poolFlip p 0x300
    | .chain => w.poolFlip (64 * c + 4) 0x300
    | .owner => w.poolFlip (ownerByte c) 0x300

/-- DEQ (R376). -/
def execDeq (m : Rid) (q : QueueId) (ecc : PoolEcc) (s : State) : Host.Outcome State Fault Refusal :=
  run s fun w => (w.strike q ecc).guarded m 3 (pageAddr q 0) 8 .read fun w => w.portDeq m q false

/-- PEEK (R376). -/
def execPeek (m : Rid) (q : QueueId) (ecc : PoolEcc) (s : State) : Host.Outcome State Fault Refusal :=
  run s fun w => (w.strike q ecc).guarded m 3 (pageAddr q 8) 8 .read fun w => w.portDeq m q true

/-- QSTAT (R374). -/
def execQstat (m : Rid) (q : QueueId) (s : State) : Host.Outcome State Fault Refusal :=
  run s fun w => w.guarded m 3 (pageAddr q 0x10) 8 .read fun w => w.portStat q

/-- TRY_OPEN (R379). -/
def execTryOpen (m : Rid) (q : QueueId) (s : State) : Host.Outcome State Fault Refusal :=
  run s fun w => w.guarded m 3 (pageAddr q 0x18) 8 .read fun w => w.portTry m q

/-- ENQ (R377). -/
def execEnq (m : Rid) (q : QueueId) (v : Word32) (s : State) : Host.Outcome State Fault Refusal :=
  run s fun w => w.guarded m 3 (pageAddr q 0x20) 4 .write fun w => w.enqueue m q 0x20 [v]

/-- PKT_OPEN (R378): the value is ignored. -/
def execPktOpen (m : Rid) (q : QueueId) (_v : Word32) (s : State) : Host.Outcome State Fault Refusal :=
  run s fun w => w.guarded m 3 (pageAddr q 0x24) 4 .write fun w => w.enqueue m q 0x24 []

/-- PKT_WORD (R378). -/
def execPktWord (m : Rid) (q : QueueId) (v : Word64) (two : Bool) (s : State) : Host.Outcome State Fault Refusal :=
  run s fun w => w.guarded m 3 (pageAddr q 0x28) 4 .write fun w =>
    w.enqueue m q 0x28 (if two then [lo32 v, hi32 v] else [lo32 v])

/-- PKT_CLOSE (R378). -/
def execPktClose (m : Rid) (q : QueueId) (v : Word32) (s : State) : Host.Outcome State Fault Refusal :=
  run s fun w => w.guarded m 3 (pageAddr q 0x2C) 4 .write fun w => w.portClose m q v

/-- WAITER_GRANT (R373). -/
def execWaiterGrant (s : State) : Host.Outcome State Fault Refusal := run s fun w => w.grantWaiters.settle

/-- A raw read of the pool (R369, R384): the bytes after decoding; corrected ones are written back, and uncorrectable ones act as
in any read of their cells. (DEDUCED: assumption 115.) -/
def W.poolBytes (w : W) (m : Rid) (o n : Nat) : List Byte × W :=
  let as := (List.range n).map (o + ·)
  let cs := as.map w.dev.bobbin.codeAt
  let owner := fun a => (w.dev.bobbin.owner.get? (a / 64)).map (·.q)
  let w := w.each ((as.zip cs).filter fun x => x.2.isFixed) fun x w => w.mendByte m ((owner x.1).getD 0) 0 x.1
  let bad := (as.zip cs).filter fun x => x.2.isBad
  let w := w.each bad fun x w =>
    if 8 ≤ x.1 % 64 then w.queueNote 0x2C5 m ((owner x.1).getD 0) 0
    else match owner x.1 with
      | some q => w.breakQueue m q 0
      | none => w
  (cs.map ByteCode.val, w)

/-- An access to the pool window (R369): only under a grant on BOB, and a write enters the expert log (R83). -/
def W.poolAccess (w : W) (m : Rid) (o n : Nat) (wr : Option (List Byte)) : Acc × W :=
  let a := 0x11000000 + o
  match w.grantOn 0 8 (some 0) with
  | none => (.err eReserved, w.raiseAddr 0x050 (BitVec.ofNat 48 a) m)
  | some g =>
    match wr with
    | none => let (bs, w) := w.poolBytes m o n; W.settled (.data bs, w)
    | some bs =>
      if w.xlogFull then (.done, w.level 0x054 0 0)
      else (.done, (w.poolPut o bs).xlog g.id m 0 a (w32 (ofLe (bs.take 4))))

/-- POOL_WINDOW_ACCESS (R369): one aligned word. -/
def execPoolWindowAccess (m : Rid) (off : BitVec 22) (wr : Option Word32) (s : State) : Host.Outcome State Fault Refusal :=
  run s fun w =>
    let o := off.toNat / 4 * 4
    w.guarded m 2 (0x11000000 + o) 4 (if wr.isSome then .write else .read) fun w =>
      w.poolAccess m o 4 (wr.map fun v => le 4 v.toNat)

/-- Clear the Bobbin's counters (R393). -/
def W.bobClear (w : W) (v : Word32) : W :=
  w.when (bitAt v 0) fun w => ((w.setReg 8 0 0x50 0).setReg 8 0 0x54 0).setReg 8 0 0x58 0

/-- BOB_CNT_CLEAR. -/
def execBobCntClear (m : Rid) (v : Word32) (s : State) : Host.Outcome State Fault Refusal :=
  run s fun w => w.writeRow m 8 0 0x5C v fun w => w.bobClear v

end Sys2Proof.Machine
end

