-- ==== Sys2Proof/Machine/DramRows.lean ====
section
/-! DEFINITION. DRAM requests, the scrub engine and its fills, and the MEMC command registers (R351 to R366). -/

namespace Sys2Proof.Machine

/-- The 256-byte granules that `n` bytes from an address touch, by their first address. -/
def granulesOf (a n : Nat) : List Nat := (List.range ((a + n - 1) / 256 - a / 256 + 1)).map fun i => (a / 256 + i) * 256

/-- Every granule of an access passes its firewall unit: the first refusal is recorded and ends the check. -/
def W.passes (w : W) (u : Nat) (m : Rid) (d : Dir) : List Nat → Bool × W
  | [] => (true, w)
  | a :: as =>
    match w.fwCheck u (BitVec.ofNat 48 a) m d with
    | (true, w1) => W.passes w1 u m d as
    | r => r

/-- An access to a reserved range (R24). -/
def W.unmapped (w : W) (a : Nat) (m : Rid) : Acc × W := (.err eReserved, w.raiseAddr 0x050 (BitVec.ofNat 48 a) m)

/-- A request to DRAM: its address, firewall unit 8, and then `act`. (DESIGN CHOICE: assumption 124.) -/
def W.dramGate (w : W) (m : Rid) (a n : Nat) (d : Dir) (act : W → Acc × W) : Acc × W :=
  if w.dev.inDram a = false ∨ w.dev.inDram (a + n - 1) = false then w.unmapped a m
  else match w.passes 8 m d (granulesOf a n) with
    | (true, w) => act w
    | (false, w) => (.err eFirewall, w)

/-- A request and its response pass the boundary FIFOs of the channel of address `a` (R386, R387); a FULL one holds the
request back. (DESIGN CHOICE: assumption 152.) -/
def W.dramCross (w : W) (a : Nat) (act : W → Acc × W) : Acc × W :=
  let n := 10 + 2 * (w.dev.dramMap (a - dramBase)).1
  if (w.dev.fifo n).full 64 || (w.dev.fifo (n + 1)).full 64 then (.wait, w)
  else act (w.upd fun d => (d.crossed n).crossed (n + 1))

/-- DRAM_READ (R352): `len` bytes. -/
def execDramRead (m : Rid) (addr : Addr) (len : Nat) (s : State) : Host.Outcome State Fault Refusal :=
  run s fun w => w.powered fun w =>
    if len = 0 then w.answer (.bytes [])
    else
      let (r, w) := w.dramGate m addr.toNat len .read fun w =>
        w.dramCross addr.toNat fun w => w.dramRead m addr.toNat len
      w.respond m len true r

/-- DRAM_WRITE (R351). -/
def execDramWrite (m : Rid) (addr : Addr) (bytes : List Byte) (s : State) : Host.Outcome State Fault Refusal :=
  run s fun w => w.powered fun w =>
    if bytes.isEmpty then w.answer .done
    else
      let (r, w) := w.dramGate m addr.toNat bytes.length .write fun w =>
        w.dramCross addr.toNat fun w => w.dramWrite m addr.toNat bytes
      w.respond m bytes.length false r

/-- The 64 MiB regions of usable DRAM (R359). -/
def Dev.regions (d : Dev) : Nat := d.dramBytes / 0x4000000

/-- A region is wholly made of retired pages. -/
def Dev.regionRetired (d : Dev) (r : Nat) : Bool :=
  decide (0x4000 ≤ (d.dram.retired.filter fun p => p.1 / 0x4000 == r).length)

/-- The interval count of the oldest region's last scrub; none where no region ages. -/
def Dev.oldestScrub (d : Dev) : Option Nat :=
  ((((List.range d.regions).filter fun r => !d.regionRetired r).map fun r => (d.dram.scrubbed.getD r d.dram.born).toNat)).min?

/-- SCRUB_AGE in seconds (R359). -/
def Dev.scrubAge (d : Dev) : Nat :=
  match d.oldestScrub with
  | some t => (d.now - t) / 1000000000
  | none => 0

/-- SCRUB_LIMIT in hours: 24 where MEM_CONFIG has not set it. -/
def Dev.scrubLimit (d : Dev) : Nat := if d.images.flash.rcd.memSet then d.images.flash.rcd.scrubLimit.toNat else 24

/-- DRAM_SCRUB_OVERDUE ends when no region is older than the limit. -/
def W.scrubCheck (w : W) : W :=
  match w.dev.oldestScrub with
  | some t => if w.active 0x280 ∧ w.dev.now ≤ t + w.dev.scrubLimit * 3600000000000 then w.inactive 0x280 else w
  | none => if w.active 0x280 then w.inactive 0x280 else w

/-- The whole regions of a range are scrubbed now; none is while a channel is stopped, which holds a part of each (R388). -/
def W.scrubbedRange (w : W) (start len : Nat) : W :=
  let a := start - dramBase
  if w.dev.dramChans.any w.dev.chanStopped then w else
  let w := w.upd fun d =>
    let rs := (List.range d.regions).filter fun r => decide (a ≤ r * 0x4000000 ∧ (r + 1) * 0x4000000 ≤ a + len)
    { d with dram := { d.dram with scrubbed := rs.foldl (fun t r => t.set r d.clock.ivl) d.dram.scrubbed } }
  w.scrubCheck

/-- What a scrub has found so far (R358). -/
structure ScrubSum where
  /-- Lines read. -/
  lines : Nat := 0
  /-- Lines corrected. -/
  corrected : Nat := 0
  /-- Uncorrectable lines. -/
  uncorr : Nat := 0
  /-- Lines in retired pages. -/
  skipped : Nat := 0
  /-- Outcome and address of the first uncorrectable line. -/
  bad : Option (Nat × Nat) := none
  deriving DecidableEq, Repr

/-- The scrub engine reads a line and writes a corrected one back (R357); a stopped channel answers with an error, whose
outcome is a free one of the uncorrectable ones (R388). (DESIGN CHOICE: assumption 167.) -/
def W.scrubLine (w : W) (l : Nat) : BlockRead × W :=
  let ch := w.dev.lineChan l
  if w.dev.chanStopped ch then
    let (k, w) := w.fresh
    (⟨1 + (Config.freeWord k).toNat % 5, [], []⟩, w)
  else
    let (r, w) := w.checkLine l
    (r, if r.bad || r.outcome == 0 then w else w.storeBlock ch l r.data id)

/-- Scrub lines one after the other (R357). -/
def W.scrubLines (w : W) (s : ScrubSum) : List Nat → ScrubSum × W
  | [] => (s, w)
  | l :: ls =>
    if w.dev.retiredAt (l * 64) then W.scrubLines w { s with skipped := s.skipped + 1 } ls
    else
      let (r, w1) := w.scrubLine l
      let s := { s with lines := s.lines + 1 }
      let s := if r.bad then { s with uncorr := s.uncorr + 1, bad := s.bad.or (some (r.outcome, l * 64)) }
        else if r.outcome = 0 then s else { s with corrected := s.corrected + 1 }
      W.scrubLines w1 s ls

/-- The summary of R358. -/
def ScrubSum.bytes (s : ScrubSum) (start dur : Nat) : List Byte :=
  le 8 start ++ le 8 s.lines ++ le 4 s.corrected ++ le 4 s.uncorr ++ le 4 s.skipped ++
  le 4 ((s.bad.map (·.1)).getD 0) ++ le 8 ((s.bad.map (·.2)).getD 0) ++ le 8 dur

/-- The lines of a job. -/
def ScrubJob.linesOf (j : ScrubJob) : List Nat := (List.range (j.len / 64)).map (· + j.start / 64)

/-- The job ends after `dur` ns. -/
def W.endJob (w : W) (j : ScrubJob) (dur : Nat) : W :=
  w.upd fun d =>
    let d := d.advanceTb (j.since.toNat + dur)
    { d with dram := { d.dram with job := none } }

/-- SCRUB_COMPLETE (R357, R358): the scrub took `dur` ns. -/
def execScrubComplete (dur : Word64) (s : State) : Host.Outcome State Fault Refusal :=
  run s fun w =>
    match w.dev.dram.job with
    | some j =>
      if j.fill.isSome then w
      else
        let (r, w) := (w.endJob j dur.toNat).scrubLines {} j.linesOf
        (w.scrubbedRange j.start j.len).finishAll 0x0503 0 sDone (r.bytes j.start dur.toNat)
    | none => w

/-- The data of a filled line. -/
def fillLine (v : Word32) : List Byte := (List.range 16).flatMap fun _ => le 4 v.toNat

/-- FILL_COMPLETE (R364); a stopped channel takes no line (R388). -/
def execFillComplete (dur : Word64) (s : State) : Host.Outcome State Fault Refusal :=
  run s fun w =>
    match w.dev.dram.job with
    | some j =>
      match j.fill with
      | none => w
      | some v =>
        let w := w.endJob j dur.toNat
        let ls := j.linesOf.filter fun l => !w.dev.retiredAt (l * 64) && !w.dev.chanStopped (w.dev.lineChan l)
        let w := w.each ls fun l w => w.writeLine (w.dev.lineChan l) l (fillLine v)
        (w.scrubbedRange j.start j.len).finishAll 0x050A 0 sDone (le 8 ls.length)
    | none => w

/-- SCRUB_OVERDUE (R359): the oldest region's age exceeds the limit. -/
def execScrubOverdue (s : State) : Host.Outcome State Fault Refusal :=
  run s fun w =>
    match w.dev.oldestScrub with
    | some t => (w.upd fun d => d.advanceIvl (t + d.scrubLimit * 3600000000000 + 1)).level 0x280 0 0
    | none => w

/-- A write of RETIRE_ADD (R365). -/
def W.retireAdd (w : W) (v : Word32) : W := if bitAt v 31 then (w.retire (fld v 0 23) false).2 else w

/-- RETIRE_ADD. -/
def execRetireAdd (m : Rid) (v : Word32) (s : State) : Host.Outcome State Fault Refusal :=
  run s fun w => w.writeRow m 10 0 0x60 v fun w => w.retireAdd v

/-- A write of CNT_CLEAR of MEMC_m (R365). -/
def W.memcClear (w : W) (ch : Nat) (v : Word32) : W :=
  w.when (bitAt v 0) fun w =>
    (([0x28, 0x2C, 0x30, 0x48] : List Nat).foldl (fun w o => w.setReg 10 ch o 0) w).upd fun d =>
      d.onChan ch fun c => { c with log := [] }

/-- MEMC_CNT_CLEAR. -/
def execMemcCntClear (m : Rid) (ch : Fin 4) (v : Word32) (s : State) : Host.Outcome State Fault Refusal :=
  run s fun w => w.writeRow m 10 ch 0x5C v fun w => w.memcClear ch v

end Sys2Proof.Machine
end

