-- ==== Sys2Proof/Machine/Verify.lean ====
section
/-! DEFINITION. The verification of an Acaeder image (R435, R438 to R440, R401). -/

namespace Sys2Proof.Machine

/-- Where image bytes are read from: a byte by its offset. -/
abbrev ImgBytes := Nat → Byte

/-- `n` bytes of an image from offset `o` on. -/
def ImgBytes.take (f : ImgBytes) (o n : Nat) : List Byte := (List.range n).map fun i => f (o + i)

/-- The little-endian word at offset `o`. -/
def ImgBytes.word (f : ImgBytes) (o : Nat) : Nat := ofLe (f.take o 4)

/-- LENGTH. -/
def ImgBytes.len (f : ImgBytes) : Nat := f.word 8
/-- VERSION. -/
def ImgBytes.version (f : ImgBytes) : Nat := f.word 0x10
/-- Header and section table. -/
def ImgBytes.head (f : ImgBytes) : List Byte := f.take 0 0x1040

/-- Entries used. -/
def ImgBytes.count (f : ImgBytes) : Nat := f.word 0x18 % 64

/-- The first sum of R440: MAGIC, FORMAT, LENGTH, KIND and the reserved bytes; `limit` bytes can be read. -/
def ImgBytes.formatOk (f : ImgBytes) (kind limit : Nat) : Bool :=
  let most := if kind = 1 then 0x1000000 else 0x80000
  f.word 0 == 0x44454341 && f.word 4 / 65536 == 1 && f.len % 256 == 0 && decide (f.len ≤ most) && decide (f.len ≤ limit) &&
  decide (0x1500 ≤ f.len) && f.word 0xC == kind && decide (f.word 0x14 < 2 ^ 18) && decide (f.word 0x18 < 64) &&
  allZero (f.take 0x1C 0x24)

/-- TARGET names this part and this variant. -/
def ImgBytes.partOk (f : ImgBytes) (isM : Bool) : Bool :=
  f.word 0x14 % 65536 == 0x6430 && (f.word 0x14).testBit (if isM then 16 else 17)

/-- The raw 128 bytes of an entry. -/
def ImgBytes.entry (f : ImgBytes) (i : Nat) : List Byte := f.take (0x40 + 128 * i) 128

/-- Two ranges of bytes meet. -/
def meets (a n b m : Nat) : Bool := decide (0 < n ∧ 0 < m ∧ a < b + m ∧ b < a + n)

/-- One entry is valid by itself (R439). -/
def entryOk (b : List Byte) (len : Nat) : Bool :=
  let s := parseSection b
  let code := s.typ == 2
  let hob := s.typ == 2 || s.typ == 3
  let w := fun o => (wordAt b o).toNat
  let inHob := fun (o n : Nat) => decide (o + n ≤ 0x400000)
  (s.typ == 1 || hob || s.typ == 4) && w 0 / 256 % 256 == 0 && (hob || s.hearths == 0) &&
  s.off % 256 == 0 && decide (0x1100 ≤ s.off) && decide (s.off + s.size ≤ len - 1024) &&
  s.load % 256 == 0 && (hob || s.load == 0) && (!hob || inHob s.load s.size) &&
  (s.typ != 1 || (decide (1024 ≤ s.size) && decide (s.size ≤ 0xC0000))) &&
  (if code then
    inHob s.reset 4 && (s.cut == 0xFFFFFFFF || inHob s.cut 4) && decide (1 ≤ s.check) && w 24 / 16 == 0 &&
    s.snap % 256 == 0 && inHob s.snap 0x1000 &&
    s.carry.all (fun c => c.1 % 32 == 0 && c.2 % 32 == 0 && inHob c.1 c.2) && decide ((s.carry.map (·.2)).sum ≤ 4096)
  else allZero (slice b 16 48)) &&
  allZero (slice b 0x60 32)

/-- The sections of one hearth: at most one HEARTH_CODE, no overlap in the hob, CARRY regions and SNAP inside none. -/
def hearthOk (ss : List Section) (h : Nat) : Bool :=
  let mine := ss.filter fun s => (s.typ == 2 || s.typ == 3) && s.hearths.testBit h
  let free := fun (o n : Nat) => mine.all fun s => !meets o n s.load s.size
  decide ((mine.filter (·.typ == 2)).length ≤ 1) &&
  (List.range mine.length).all (fun i => (List.range i).all fun j =>
    match mine[i]?, mine[j]? with
    | some a, some b => !meets a.load a.size b.load b.size
    | _, _ => true) &&
  (mine.filter (·.typ == 2)).all fun s => free s.snap 0x1000 && s.carry.all fun c => free c.1 c.2

/-- The section check of R440. -/
def ImgBytes.sectionsOk (f : ImgBytes) (kind : Nat) : Bool :=
  let n := f.count
  let bs := (List.range n).map f.entry
  let ss := bs.map parseSection
  let count := fun (t : Nat) => (ss.filter (·.typ == t)).length
  decide (1 ≤ n ∧ n ≤ 32) && bs.all (fun b => entryOk b f.len) && allZero (f.take (0x40 + 128 * n) (128 * (32 - n))) &&
  (List.range n).all (fun i => (List.range i).all fun j =>
    match ss[i]?, ss[j]? with
    | some a, some b => !meets a.off a.size b.off b.size
    | _, _ => true) &&
  (if kind = 1 then count 1 == 1 && count 4 == 0 else count 4 == 1 && n == 1) &&
  (List.range 16).all (hearthOk ss)

/-- The digest check. -/
def ImgBytes.digestsOk (f : ImgBytes) : Bool :=
  (List.range f.count).all fun i =>
    let s := parseSection (f.entry i)
    sha256 (f.take s.off s.size) == s.digest

/-- The fused key hash that a KEY_SEL names (R435). (DEDUCED: assumption 119.) -/
def Fuse.keyHash (u : Fuse) (sel : Nat) : Option (List Byte) :=
  match sel with
  | 0 => some u.vendorHash
  | 1 => some u.custHash
  | 2 => some u.metrHash
  | _ => none

/-- A signature block names key `sel`, holds that key, and is well formed (R440). -/
def sigKeyOk (u : Fuse) (b : List Byte) (sel : Nat) : Bool :=
  (wordAt b 0).toNat == 0x4E474953 && (wordAt b 4).toNat == sel && allZero (slice b 8 0x18) && allZero (slice b 0x1A4 0x5C) &&
  allZero (slice b 0x380 0x80) && u.keyHash sel == some (sha256 (slice b 0x20 0x184))

/-- A signature block signs a message. -/
def sigOk (b msg : List Byte) : Bool := rsaOk (slice b 0x20 0x180) (slice b 0x1A0 4) (slice b 0x200 0x180) msg

/-- The outer KEY_SEL that a main image may carry in a life-cycle state (R440). -/
def outerSel (lc : Nat) : Nat := if lc = 1 ∨ lc = 2 then 1 else 0

/-- The outer signature block. -/
def ImgBytes.outer (f : ImgBytes) : List Byte := f.take (f.len - 1024) 1024

/-- The STOKER section of a main image. -/
def ImgBytes.stoker (f : ImgBytes) : Option Section :=
  ((List.range f.count).map fun i => parseSection (f.entry i)).find? (·.typ == 1)

/-- The reason code of R440: 0 where the image verifies. -/
def verify (u : Fuse) (f : ImgBytes) (kind limit lc : Nat) : Nat :=
  if f.formatOk kind limit = false then 1
  else if f.partOk u.variantM = false then 2
  else if f.sectionsOk kind = false then 3
  else if f.digestsOk = false then 4
  else
    let emb := match f.stoker with
      | some s => some (s, f.take (s.off + s.size - 1024) 1024)
      | none => none
    let sel := if kind = 2 then 2 else outerSel lc
    if !(sigKeyOk u f.outer sel) || (match emb with | some e => !(sigKeyOk u e.2 0) | none => false) then 5
    else if !(sigOk f.outer f.head) ||
        (match emb with | some e => !(sigOk e.2 (f.take e.1.off (e.1.size - 1024))) | none => false) then 6
    else if lc = 4 then 7
    else 0

/-- The status of a refusal for a reason (R440). -/
def verifyStatus (reason : Nat) : Nat :=
  if reason = 5 then sAuthFail else if reason = 6 then sSignatureBad else if reason = 7 then sLocked else sBadParam

/-- IMAGE_DIGEST (R438). -/
def ImgBytes.digest (f : ImgBytes) : List Byte := sha256 f.head

/-- A Thimble flash slot (R436): an erased byte reads 0xFF. -/
def Flash.thmSlot (f : Flash) (b : Bool) : ImgBytes := fun o => if o < 0x80000 then f.thm.getD (b.toNat * 0x80000 + o) 0xFF else 0xFF

/-- A main flash slot. -/
def Flash.mainSlot (f : Flash) (b : Bool) : ImgBytes := fun o => if o < 0x1000000 then f.main.getD (b.toNat * 0x1000000 + o) 0xFF else 0xFF

/-- A Thimble slot may run with a version that `p` admits (R401, R420). -/
def W.thmSlotOk (w : W) (b : Bool) (p : Nat → Bool) : Bool :=
  let f := w.dev.images.flash.thmSlot b
  verify w.fuse f 2 0x80000 w.dev.thm.lifecycle.toNat == 0 && p f.version

end Sys2Proof.Machine
end

