-- ==== Sys2Proof/Machine/Watchdog.lean ====
section
/-! DEFINITION. The watchdogs (R307 to R324): start, service, roll call, expiry, the hard timer, freeze and
suspension, and WDT_STATUS. -/

namespace Sys2Proof.Machine

/-- CLOSE in µs. -/
def Wdt.close (t : Wdt) : Nat := fld t.ctl 0 20
/-- OPEN in µs. -/
def Wdt.open_ (t : Wdt) : Nat := fld t.ctl 20 20
/-- HARD in 10 µs. -/
def Wdt.hard (t : Wdt) : Nat := fld t.ctl 40 10
/-- ROLL_N. -/
def Wdt.rollN (t : Wdt) : Nat := fld t.ctl 55 5

/-- Every field of a control word with EN = 1 is in range (R309). -/
def wdtWordOk (v : Word64) : Bool :=
  let t : Wdt := { ctl := v }
  decide (1 ≤ t.open_ ∧ t.open_ ≤ 999990 ∧ t.open_ + 10 ≤ t.close ∧ t.close ≤ 1000000 ∧ 1 ≤ t.hard ∧ t.hard ≤ 1000 ∧
    t.rollN ≤ 16) && fld v 60 4 == 0

/-- The count of watchdog `k` stands while it is frozen or suspended, and goes on where it stood (R317); a HALTED core's
stands as well (R102). The position of one that has expired stands alike. (DEDUCED: assumption 106.) -/
def W.wdtHold (w : W) (k : Nat) : W :=
  w.upd fun d => d.onWdt k fun t =>
    if t.st = .off then { t with frozen := false, susp := false }
    else if t.frozen ∨ t.susp ∨ (d.seam k).mode = .halted then
      (if t.paused.isSome then t else { t with paused := some d.clock.ivl })
    else match t.paused with
      | some p => { t with start := t.start + (d.clock.ivl - p), paused := none }
      | none => t

/-- FRZ_DBG: the watchdog of a core that a debugger halts or lets run (R317). -/
def W.wdtFreeze (w : W) (k : Nat) (on : Bool) : W :=
  ((w.upd fun d => d.onWdt k fun t => { t with frozen := on && t.st != WdtSt.off && bitAt t.ctl 51 }).wdtHold k).wdtHeld

/-- Watchdog `k` is suspended from now on (R317). -/
def W.suspend (w : W) (k : Nat) : W :=
  (w.upd fun d => d.onWdt k fun t => { t with susp := true, suspAt := d.clock.ivl }).wdtHold k

/-- SUSP_ERASE: an erase begins, and every watchdog that selects it and is not OFF is suspended and counted (R317, R322).
(DEDUCED: assumption 106.) -/
def W.eraseBegin (w : W) : W :=
  if w.dev.eraseAt.isSome then w
  else
    let w := w.upd fun d => { d with eraseAt := some d.clock.ivl }
    let ks := (List.range 65).filter fun k =>
      let t := w.dev.wdt k
      t.st != WdtSt.off && bitAt t.ctl 52
    let w := w.setReg 3 0 0x2C (w32 (min ((w.reg 3 0 0x2C).toNat + ks.length) 65535))
    (w.each ks fun k w => w.suspend k).wdtHeld

/-- The suspensions that began at interval count `upTo` or earlier end. (DEDUCED: assumption 106.) -/
def W.suspEnd (w : W) (upTo : Nat) : W :=
  (w.each (List.range 65) fun k w =>
    if (w.dev.wdt k).susp ∧ (w.dev.wdt k).suspAt.toNat ≤ upTo then (w.upd fun d => d.onWdt k fun t => { t with susp := false }).wdtHold k else w).wdtHeld

/-- The last sector erase of a command ends (R506). (DEDUCED: assumption 106.) -/
def W.eraseEnd (w : W) : W :=
  if w.dev.eraseAt.isNone then w else (w.upd fun d => { d with eraseAt := none }).suspEnd w.dev.now

/-- Start the watchdog of core `k` with a word that is in range (R307, R310): its first cycle starts now, or stands where
an erase is in progress that it selects. -/
def W.wdtStart (w : W) (k : Nat) (v : Word64) : W :=
  let w := w.upd fun d => d.onWdt k fun t => { t with ctl := v, st := .running, start := d.clock.ivl }
  if w.dev.eraseAt.isSome && bitAt v 52 then
    let w := w.setReg 3 0 0x2C (w32 (min ((w.reg 3 0 0x2C).toNat + 1) 65535))
    (w.suspend k).wdtHeld
  else w

/-- SYNC.C applies a written WDT_CTL (R310); the word is in force as R154 has it, a refused one too, which starts nothing. -/
def W.wdtApply (w : W) (k : Nat) (v : Word64) : W :=
  if (w.dev.wdt k).st ≠ .off then w
  else if bitAt v 50 = false then w.upd fun d => d.onWdt k fun t => { t with ctl := v }
  else if wdtWordOk v then w.wdtStart k v
  else (w.upd fun d => d.onWdt k fun t => { t with ctl := v, cfgRefused := true }).raise 0x0C4 (wdtDetail k 0 0) (w.wdtPos k)

/-- The watchdog is locked: its word stands until a reset (R311). -/
def Wdt.locked (t : Wdt) : Bool := t.st != WdtSt.off

/-- Expiry (R315, R317, R318): the cause, the source, the WDT trap, and the hard timer where one is configured; a core that a
debugger halts or an entry fault has stopped takes no WDT entry (R169, R317). (DEDUCED: assumption 106.) -/
def W.expire (w : W) (k cause token : Nat) : W :=
  let pos := w.wdtPos k
  let w := w.upd fun d =>
    let d := d.onWdt k fun t =>
      { t with st := .expired, cause := BitVec.ofNat 3 cause, count := satInc t.count, hardAt := if cause = 5 then none else some (d.clock.ivl + w64 (10000 * t.hard)) }
    d.onCore k fun c => { c with wdtTrap := !(c.dbg || c.stopped) }
  ((w.raise (if k < 64 then 0x080 + k else 0x0C0) (wdtDetail k cause token) pos).wdtHeld)

/-- Every enrolled token has checked in. -/
def Wdt.rollComplete (t : Wdt) : Bool := (List.range t.rollN).all fun i => bitAt t.inn i

/-- A write to WDT_KEY (R312, R314). -/
def W.wdtKey (w : W) (k : Nat) (v : Word64) : W :=
  let t := w.dev.wdt k
  let e := t.elapsed w.dev.now
  if t.st ≠ .running ∨ 1000 * t.close ≤ e then w
  else if v = 0x6B1E then
    if t.armed then w.expire k 3 0 else w.upd fun d => d.onWdt k fun t => { t with armed := true }
  else if v = 0x94E1 then
    if t.armed = false then w.expire k 3 0
    else if e < 1000 * t.open_ then w.expire k 2 0
    else if t.rollComplete then
      w.upd fun d => d.onWdt k fun t =>
        { t with services := satInc t.services, inn := 0, armed := false, rollShort := false,
                 start := t.paused.getD d.clock.ivl }
    else w.upd fun d => d.onWdt k fun t => { t with armed := false, rollShort := true }
  else w.expire k 3 0

/-- A write to WDT_CHECKIN (R313, R314). -/
def W.wdtCheckin (w : W) (k : Nat) (v : Word64) : W :=
  let t := w.dev.wdt k
  if t.st ≠ .running ∨ 1000 * t.close ≤ t.elapsed w.dev.now then w
  else if 16 ≤ v.toNat ∨ t.rollN ≤ v.toNat then w.upd fun d => d.onWdt k fun t => { t with stray := true }
  else if bitAt t.inn v.toNat then
    let w := w.upd fun d => d.onWdt k fun t => { t with dup := setBit t.dup v.toNat true }
    match fld t.ctl 53 2 with
    | 1 => w.raise 0x0C2 (wdtDetail k 0 v.toNat) (w.wdtPos k)
    | 2 => w.raise 0x0C3 (wdtDetail k 0 v.toNat) (w.wdtPos k)
    | 3 => w.expire k 4 v.toNat
    | _ => w
  else w.upd fun d => d.onWdt k fun t => { t with inn := setBit t.inn v.toNat true }

/-- WINDOW_CLOSE (R307, R314): the closing tick of a running cycle; a cycle that stands does not close.
(DESIGN CHOICE: assumption 9.) -/
def execWindowClose (c : CoreId) (s : State) : Host.Outcome State Fault Refusal :=
  run s fun w =>
    let t := w.dev.wdt c
    if t.st = .running ∧ t.paused.isNone then
      (w.upd fun d => d.advanceIvl (t.start.toNat + 1000 * t.close)).expire c 1 0
    else w

/-- A Stoker reset by its hard timer restarts and reloads as R124 has it (R316); the tests of one that is HALTED go on. -/
def W.stokerReset (w : W) : W := if (w.dev.seam 64).mode = .halted then w.coreReset 64 else w.stokerDown

/-- The core leaves its switch point, and the switched cores of a cutover: a fallback starts it from the old RESET_ENTRY (R446,
R448). -/
def W.unswitch (w : W) (k : Nat) : W :=
  w.upd fun d => { d with images := { d.images with cut := d.images.cut.map fun c =>
    { c with stopped := c.stopped.filter (· != k), switched := c.switched.map fun ks => ks.filter (· != k) } } }

/-- HARD_TIMER_EXPIRY (R315, R316). (DEDUCED: assumption 106.) -/
def execHardTimerExpiry (c : CoreId) (s : State) : Host.Outcome State Fault Refusal :=
  run s fun w =>
    let t := w.dev.wdt c
    match t.hardAt with
    | none => w
    | some h =>
      let k := c.val
      let w := (w.upd fun d => d.advanceIvl h.toNat).cutFail (unitOf k) 7
      let w := w.raise 0x0C1 (wdtDetail k t.cause.toNat 0) (w.wdtPos k)
      if k = 64 then w.stokerReset
      else
        let w := (w.coreReset k).unswitch k
        if w.canStart k ∧ w.dev.sys.mode.coresRun then w.startCore k else w

/-- Core `k` is required to run a watchdog (R318). -/
def W.required (w : W) (k : Nat) : Bool := decide (k < 64) && bitAt (w.reg 3 0 (0x20 + 4 * (k / 32))) (k % 32)

/-- REQ_LIMIT_EXPIRY (R318): once for a core reset. -/
def execReqLimitExpiry (c : CoreId) (s : State) : Host.Outcome State Fault Refusal :=
  run s fun w =>
    let q := w.dev.core c
    if w.required c && q.run && !q.reqRaised && (w.dev.wdt c).st == WdtSt.off then
      let w := w.upd fun d =>
        (d.advanceIvl (q.since.toNat + 1000 * fld (w.reg 3 0 0x28) 0 20)).onCore c fun q => { q with reqRaised := true }
      w.expire c 5 0
    else w

/-- When the oldest suspension began. (DEDUCED: assumption 106.) -/
def W.suspFirst (w : W) : Option Nat :=
  (((List.range 65).filter fun k => (w.dev.wdt k).susp).map fun k => (w.dev.wdt k).suspAt.toNat).min?

/-- SUSPENSION_LIMIT (R317): 500 ms after the oldest suspension began, it ends, and with it every other whose time is over.
(DEDUCED: assumption 106.) -/
def execSuspensionLimit (s : State) : Host.Outcome State Fault Refusal :=
  run s fun w =>
    match w.suspFirst with
    | some t =>
      let w := w.upd fun d => d.advanceIvl (t + 500000000)
      w.suspEnd (w.dev.now - 500000000)
    | none => w

/-- WDT_STATUS (R320). -/
def wdtStatus : Body := fun p w =>
  let u := (pw p 0).toNat
  w.need (decide (u ≤ 64)) sBadParam
    (let t := w.dev.wdt u
     w.ok (le 4 t.stat.toNat ++ le 4 t.roll.toNat ++ le 4 (t.pos w.dev.now) ++ le 4 t.info.toNat ++ le 8 t.ctl.toNat))

end Sys2Proof.Machine
end

