-- ==== Sys2Proof/Machine/Store.lean ====
section
/-! DEFINITION. The image store in DRAM (R441), the flash operations of the Stoker (R443, R504 to R506), and how
hearth sections are loaded (R444). -/

namespace Sys2Proof.Machine

/-- The first device address of area `k` of the image store (R441). (DEDUCED: assumption 119.) -/
def Dev.areaBase (d : Dev) (k : Nat) : Nat := dramBase + d.dramBytes - 0x3000000 + k * 0x1000000

/-- A DRAM channel is enabled: there is an image store. -/
def Dev.hasStore (d : Dev) : Bool := decide (0 < d.dramBytes)

/-- Read `n` bytes of area `k` from offset `o`; none where one cannot be read. -/
def W.areaRead (w : W) (k o n : Nat) : Option (List Byte) × W :=
  if n = 0 then (some [], w)
  else
    let a := w.dev.areaBase k + o
    match w.readLines (linesOf a n) with
    | (.ok (bs, _), w) => (some (slice bs (a % 64) n), w)
    | (.error _, w) => (none, w)

/-- Write bytes into area `k`. -/
def W.areaWrite (w : W) (k o : Nat) (bs : List Byte) : W :=
  if bs.isEmpty then w else (w.dramWrite w.stokerRid (w.dev.areaBase k + o) bs).2

/-- Write whole lines of zeros over the first `n` bytes of area `k` (R442); a stopped channel takes none (R388). -/
def W.areaZero (w : W) (k n : Nat) : W :=
  w.each (List.range ((n + 63) / 64)) fun i w =>
    let line := w.dev.areaBase k / 64 + i
    if w.dev.retiredAt (line * 64) || w.dev.chanStopped (w.dev.lineChan line) then w
    else w.writeLine (w.dev.lineChan line) line (List.replicate 64 0)

/-- Image bytes held in a list: an offset beyond them reads 0. (DEDUCED: assumption 119.) -/
def imgOf (bs : List Byte) : ImgBytes := let a := bs.toArray; fun o => a.getD o 0

/-- The header and section table of a non-empty STAGE as it stands: what the Stoker holds once it has verified, and the
bytes in DRAM before. -/
def W.stageHead (w : W) : List Byte × W :=
  let i := w.dev.images
  if i.st = .empty then ([], w)
  else if i.stage.head.isEmpty = false then (i.stage.head, w)
  else
    let n := min 0x1040 i.stageLen
    match w.areaRead i.areas.2.2 0 n with
    | (some bs, w) => (bs ++ List.replicate (0x1040 - n) 0, w)
    | (none, w) => (List.replicate 0x1040 0, w)

/-- VERSION in a header; 0 where there is none. -/
def headVersion (head : List Byte) : Word32 := if head.isEmpty then 0 else wordAt head 0x10

/-- IMAGE_DIGEST of a header; zeros where there is none. -/
def headDigest (head : List Byte) : List Byte := if head.isEmpty then List.replicate 32 0 else sha256 head

/-- The STOKER section of RUNNING differs from the one that runs (R445). -/
def Images.stokerPending (i : Images) : Bool :=
  match (sections i.running.head).find? (·.typ == 1) with
  | some s => s.digest != i.stokerDigest
  | none => false

/-- The Stoker reads back the copy of `n` bytes at `a` in the hob of unit `u`: whether it holds its digest (R441). -/
def W.copyHolds (w : W) (u a n : Nat) (digest : List Byte) : Bool × W :=
  if n = 0 then (sha256 [] == digest, w)
  else match w.hobRead w.stokerRid u a n with
    | (.data bs, w) => (sha256 bs == digest, w)
    | (_, w) => (false, w)

/-- Copy a section from area `k` to the hob of unit `u`, offset `o`; whether the copy in the hob holds its digest (R437, R441,
R444). -/
def W.copyTo (w : W) (k u o : Nat) (s : Section) : Bool × W :=
  match w.areaRead k s.off s.size with
  | (some bs, w) => (w.hobWrites u (if u = 16 then 0 else 6) (hobBase u + o) bs).copyHolds u (hobBase u + o) s.size s.digest
  | (none, w) => (false, w)

/-- Copy a section from area `k` to its place in the hob of hearth `h` (R441, R444). -/
def W.copySection (w : W) (k h : Nat) (s : Section) : Bool × W := w.copyTo k h s.load s

/-- Copy sections one after the other; whether every copy holds. -/
def W.copySections (w : W) (k h : Nat) : List Section → Bool × W
  | [] => (true, w)
  | s :: ss =>
    let (a, w) := w.copySection k h s
    let (b, w) := W.copySections w k h ss
    (a && b, w)

/-- Load the sections of hearth `h` from RUNNING and mark it loaded (R444); a copy that does not hold leaves it unloaded.
(DEDUCED: assumption 22.) -/
def W.loadHearth (w : W) (h : Nat) : W :=
  let i := w.dev.images
  let (ok, w) := w.copySections i.areas.1 h (hearthSections i.running.head h)
  let ok := ok && !i.running.head.isEmpty
  let w := w.upd fun d => { d with images := { d.images with loaded := setBit d.images.loaded h ok } }
  if ok || i.running.head.isEmpty then w else w.raise 0x341 (w32 (2 ^ h)) 0

/-! Flash operations. -/

/-- The opcode of the command that a flash operation belongs to. -/
def FlashOp.opcode : FlashOp → Nat
  | .persist _ _ => 0x0A06
  | .record row _ => if row.isSome then 0x0506 else 0x0C02
  | .thmErase _ => 0x0B04
  | .thmWrite _ _ _ => 0x0B05

/-- It counts as a flash erase for R317 (R443, R433). -/
def FlashOp.erases : FlashOp → Bool
  | .persist _ _ => true
  | .thmErase _ => true
  | _ => false

/-- Erase a main slot. -/
def Flash.eraseMain (f : Flash) (b : Bool) : Flash := { f with main := f.main.keep fun k => k / 0x1000000 != b.toNat }

/-- Program the bytes of a main slot from its start on. -/
def Flash.putMain (f : Flash) (b : Bool) (bs : List Byte) : Flash := { f with main := f.main.setAll (b.toNat * 0x1000000) bs }

/-- A flash operation begins: an erase takes what it erases. -/
def W.beginJob (w : W) (j : FlashJob) : W :=
  let w := if j.op.erases then w.eraseBegin else w
  match j.op with
  | .persist _ b => w.upd fun d => { d with images := { d.images with flash := d.images.flash.eraseMain b } }
  | _ => w

/-- The erases in progress are over. -/
def W.settleErase (w : W) : W := if w.dev.images.jobs.any (·.op.erases) then w else w.eraseEnd

/-- Ask for a flash operation: it begins at once where its device is idle (R505). -/
def W.addJob (w : W) (j : FlashJob) : W :=
  let idle := !(w.dev.images.jobs.any fun x => x.dev == j.dev)
  let w := w.upd fun d => { d with images := { d.images with jobs := d.images.jobs ++ [j] } }
  if idle then w.beginJob j else w

/-- The key of a new flash command. -/
def W.newJobKey (w : W) : Nat × W :=
  (w.dev.images.jobNext, w.upd fun d => { d with images := { d.images with jobNext := d.images.jobNext + 1 } })

/-- A flash command stops with INTERNAL_FAULT (R443, R505). -/
def W.flashFail (w : W) (j : FlashJob) : W :=
  (w.raise 0x345 (w32 j.dev) 0).internal.finishAll j.op.opcode j.key sInternalFault []

/-- The bytes of the image that IMAGE_PERSIST writes. -/
def W.persistBytes (w : W) (fromStage : Bool) : Option (List Byte) × W :=
  let i := w.dev.images
  if fromStage then w.areaRead i.areas.2.2 0 i.stage.len else w.areaRead i.areas.1 0 i.running.len

/-- A slot of IMAGE_PERSIST is written (R443): read back and verified, then slot A follows slot B. -/
def W.persistEnd (w : W) (j : FlashJob) (fromStage b : Bool) : W :=
  let (bs, w) := w.persistBytes fromStage
  match bs with
  | none => (w.raise 0x341 0xFFFF 0).flashFail j
  | some bs =>
    let f := imgOf bs
    if f.digestsOk = false ∨ sha256 f.head ≠ headDigest (if fromStage then w.dev.images.stage.head else w.dev.images.running.head) then
      (w.raise 0x341 0xFFFF 0).flashFail j
    else
      let w := w.upd fun d => { d with images := { d.images with flash := d.images.flash.putMain b bs } }
      if verify w.fuse (w.dev.images.flash.mainSlot b) 1 0x1000000 w.lifecycle ≠ 0 then w.flashFail j
      else if b then w.addJob { j with dev := 0, op := .persist fromStage false }
      else w.finishAll 0x0A06 j.key sDone []

/-- The device record with an operation's change (R504). -/
def DevRecord.change (r : DevRecord) (row : Option RepairRow) (members : Option (BitVec 4)) : DevRecord :=
  let r := match row with | some x => { r with rows := r.rows ++ [x] } | none => r
  match members with | some m => { r with members := m } | none => r

/-- Program bytes of a Thimble slot. -/
def Flash.putThm (f : Flash) (slot : Bool) (o : Nat) (bs : List Byte) : Flash :=
  { f with thm := f.thm.setAll (slot.toNat * 0x80000 + o) bs }

/-- A flash operation has ended well. (DEDUCED: assumption 78.) -/
def W.jobDone (w : W) (j : FlashJob) : W :=
  match j.op with
  | .persist s b => w.persistEnd j s b
  | .record row members =>
    if j.dev = 0 then
      (w.upd fun d => { d with images := { d.images with flash :=
        { d.images.flash with rcd := d.images.flash.rcd.change row members } } }).addJob { j with dev := 1 }
    else w.finishAll j.op.opcode j.key sDone []
  | .thmErase slot =>
    (w.upd fun d => { d with images := { d.images with flash :=
      { d.images.flash with thm := d.images.flash.thm.keep fun k => k / 0x80000 != slot.toNat } } }).finishAll 0x0B04 j.key sDone []
  | .thmWrite slot o bs =>
    (w.upd fun d => { d with images := { d.images with flash := d.images.flash.putThm slot o bs } }).finishAll 0x0B05 j.key sDone []

end Sys2Proof.Machine
end

