-- ==== Sys2Proof/Machine/MemCmds.lean ====
section
/-! DEFINITION. The memory commands (R363, R364), the hob commands (R206) and the protection commands (R185). -/

namespace Sys2Proof.Machine

/-- The registers of a block at the offsets of a list, as the bytes of a result. -/
def W.regWords (w : W) (typ inst : Nat) (os : List Nat) : List Byte := wordsLe (os.map fun o => w.regRead typ inst o)

/-- A 48-bit number that two parameter words hold. -/
def p48 (p : Packet) (i : Nat) : Nat := (pw p i).toNat + 2 ^ 32 * (pw p (i + 1)).toNat

/-- A command that names a DRAM channel in word 0: the channel exists and is enabled (R363). -/
def W.memPre (w : W) (p : Packet) (k : Nat → Res) : Res :=
  let m := (pw p 0).toNat
  w.need (decide (m < 4) && (w.dev.chan m).enabled) sBadParam <| k m

/-- A range of populated usable DRAM in whole lines (R363, R364). -/
def W.dramRange (w : W) (a n : Nat) : Bool :=
  decide (a % 64 = 0 ∧ n % 64 = 0 ∧ dramBase ≤ a ∧ a + n ≤ dramBase + w.dev.dramBytes ∧ 0 < w.dev.dramBytes)

/-- MEM_STATUS (R363). -/
def cmdMemStatus : Body := fun p w =>
  w.memPre p fun m =>
    let r := w.dev.images.flash.rcd
    w.ok (w.regWords 10 m [0x20, 0x24, 0x28, 0x2C, 0x30, 0x48] ++
      wordsLe [w32 w.dev.dram.retired.length, w32 r.rows.length, w32 (min w.dev.scrubAge 0xFFFFFFFF), w32 w.dev.scrubLimit])

/-- MEM_LOG_READ (R363). -/
def cmdMemLogRead : Body := fun p w =>
  w.memPre p fun m => w.ok (w.regWords 10 m ((List.range 64).map fun i => 0x100 + 4 * i))

/-- The scrub engine takes a range (R357, R364). -/
def W.scrubEngine (w : W) (p : Packet) (fill : Option Word32) : Res :=
  let a := p48 p 0
  let n := p48 p 2
  w.need (w.dramRange a n) sBadParam <|
  w.need (n != 0) sDoneEmpty <|
  .pend w 0 fun w => w.upd fun d => { d with dram := { d.dram with
    job := some { start := a, len := n, fill := fill, since := d.clock.tb } } }

/-- MEM_SCRUB (R363). -/
def cmdMemScrub : Body := fun p w => w.scrubEngine p none

/-- MEM_FILL (R364). -/
def cmdMemFill : Body := fun p w => w.scrubEngine p (some (pw p 4))

/-- MEM_RETIRE (R355, R363): the page goes into the retire map and into the repair record.
(DEDUCED: assumption 78.) -/
def cmdMemRetire : Body := fun p w =>
  let g := (pw p 0).toNat
  let r := w.dev.images.flash.rcd
  w.need (decide (g < 2 ^ 23 ∧ g * 4096 < w.dev.dramBytes)) sBadParam <|
  w.need (r.pages.contains g || decide (r.pages.length < 1024)) sNoResource <|
  match w.retire g true with
  | (false, w) => w.fail sNoResource
  | (true, w) =>
    let w := w.upd fun d => { d with images := { d.images with flash := { d.images.flash with
      rcd := { r with pages := if r.pages.contains g then r.pages else r.pages ++ [g] } } } }
    w.scrubCheck.ok

/-- MEM_RETIRE_LIST (R363). -/
def cmdMemRetireList : Body := fun p w =>
  let n := (pw p 1).toNat
  w.need (decide (n ≤ 1016)) sBadParam <|
  w.need (n != 0) sDoneEmpty <|
  w.ok ((slice w.dev.dram.retired (pw p 0).toNat n).flatMap fun x => le 4 (x.1 + 2 ^ 31))

/-- The line address of words 0 and 1 lies in populated usable DRAM (R363). -/
def W.memLine (w : W) (p : Packet) (k : Nat → Res) : Res :=
  w.need (w.dramRange (p48 p 0) 64) sBadParam <| k (p48 p 0)

/-- The row of a line as the repair record names it (R360). -/
def W.rowOf (w : W) (a : Nat) : RepairRow :=
  let m := w.dev.dramMap (a - dramBase)
  { ch := m.1, loc := (w.dev.chan m.1).loc m.2 }

/-- The job puts a row entry into the repair record, and has not yet done so. -/
def FlashJob.addsRow (j : FlashJob) : Bool :=
  match j.op with
  | .record (some _) _ => j.dev == 0
  | _ => false

/-- MEM_REPAIR_ADD (R360, R363). -/
def cmdMemRepairAdd : Body := fun p w =>
  w.memLine p fun a =>
    let i := w.dev.images
    w.need (decide (i.flash.rcd.rows.length + (i.jobs.filter FlashJob.addsRow).length < 64)) sNoResource <|
    let r := w.rowOf a
    let (k, w) := w.newJobKey
    .pend w k fun w => w.addJob { dev := 0, op := .record (some r) none, key := k }

/-- MEM_REPAIR_LIST (R363). -/
def cmdMemRepairList : Body := fun _ w =>
  w.ok (w.dev.images.flash.rcd.rows.flatMap fun r => le 4 (fld r.loc 0 24 + at_ r.ch 24) ++ le 4 r.st.toNat)

/-- MEM_INJECT (R363, R366). (DEDUCED: assumption 79.) -/
def cmdMemInject : Body := fun p w =>
  w.memLine p fun a =>
    let v := pw p 2
    let m := (w.dev.dramMap (a - dramBase)).1
    w.need (w.grantOn 0 10 (some m)).isSome sNotGranted <|
    w.need (!bitAt v 7 && !bitAt v 23) sBadParam <|
    .pend w m fun w =>
      (((w.setReg 10 m 0x50 (w32 (a % 2 ^ 32))).setReg 10 m 0x54 (w32 (a / 2 ^ 32))).setReg 10 m 0x58 v).setReg 10 m 0x4C
        (w32 (1 + 2 * (decide (fld v 24 8 ≠ 0)).toNat))

/-- MEM_CONFIG (R363): for the next KINDLE; SCRUB_LIMIT holds from now on. (DEDUCED: assumption 78.) -/
def cmdMemConfig : Body := fun p w =>
  let rate := (pw p 0).toNat
  let lim := (pw p 1).toNat
  w.need (decide (rate < 4 ∧ 1 ≤ lim ∧ lim ≤ 24)) sBadParam <|
  (w.upd fun d => { d with images := { d.images with flash := { d.images.flash with
    rcd := { d.images.flash.rcd with rate := BitVec.ofNat 2 rate, scrubLimit := BitVec.ofNat 16 lim, memSet := true } } } }).scrubCheck.ok

/-- HOB_STATUS (R206). -/
def cmdHobStatus : Body := fun p w =>
  let u := (pw p 0).toNat
  let typ := if u < 16 then 16 else 1
  let inst := if u < 16 then u else 0
  let sum := ((List.range 8).map fun i => (w.hobReg u (0x240 + 4 * i)).toNat).sum
  w.need (decide (u ≤ 16)) sBadParam <|
  w.ok (le 4 (w.hobReg u 0x200).toNat ++
    w.regWords typ inst [0x204, 0x208, 0x20C, 0x210, 0x214, 0x218, 0x21C, 0x220, 0x224] ++ le 4 (min sum 0xFFFFFFFF))

/-- HOB_COUNT_CLEAR (R206). -/
def cmdHobCountClear : Body := fun p w =>
  let u := (pw p 0).toNat
  w.need (decide (u ≤ 16)) sBadParam (w.hobCntClear u).ok

/-- VIOL_COUNT and the capture registers of a firewall unit (R186). -/
def fwCapOffs (u : Nat) : List Nat := ([0x0C, 0x10, 0x14, 0x18, 0x1C, 0x20] : List Nat).map (fwOff u + ·)

/-- FW_STATUS (R185). -/
def cmdFwStatus : Body := fun p w =>
  let u := (pw p 0).toNat
  w.need (decide (u < 16)) sBadParam (w.ok (w.regWords 11 0 (fwCapOffs u)))

/-- FW_VIOL_CLEAR (R185). -/
def cmdFwViolClear : Body := fun p w =>
  let u := (pw p 0).toNat
  w.need (fwPriv u && decide (u < 16)) sBadParam (w.each (fwCapOffs u) fun o w => w.setReg 11 0 o 0).ok

end Sys2Proof.Machine
end

