-- ==== Sys2Proof/Machine/Chimney.lean ====
section
/-! DEFINITION. The chimney: links (R478 to R481), time and status frames (R482 to R484, R489 to R492), the chimney
commands (R494, R495) and RETRAIN (R496, R498). -/

namespace Sys2Proof.Machine

/-- Change the chimney. -/
def W.onChim (w : W) (f : Chim → Chim) : W := w.upd fun d => { d with chim := f d.chim }

/-- A port: the up port for true. -/
def Chim.port (c : Chim) (up : Bool) : Port := if up then c.up else c.down

/-- Change a port. -/
def W.onPort (w : W) (up : Bool) (f : Port → Port) : W :=
  w.onChim fun c => if up then { c with up := f c.up } else { c with down := f c.down }

/-- CHIM_EVT in every core (R482). -/
def W.chimEvt (w : W) : W := w.each (List.range 65) fun k w => w.interrupt k 60

/-- DETAIL0 of a chimney source: the position at the far end of the event, and the port (R493).
(DEDUCED: assumption 82.) -/
def chimDetail (pos : Nat) (up : Bool) : Word32 := w32 (pos + 8 * (!up).toNat)

/-- The Pattern is rewritten: GENERATION is even again (R16). -/
def W.rewritePattern (w : W) : W := w.upd fun d => { d with patGen := d.patGen + 2 }

/-- CHIM_DEGRADED is active while the last training of some port ended at x4 (R479). -/
def W.degradedCheck (w : W) (up : Bool) : W :=
  let c := w.dev.chim
  if c.up.width == 1 || c.down.width == 1 then w.level 0x389 (chimDetail (c.port up).peer.toNat up) 0
  else if w.active 0x389 then w.inactive 0x389 else w

/-- CHIMNEY_RETRAIN ends when the links that it named have settled (R495). (DEDUCED: assumption 81.) -/
def W.retrainDone (w : W) : W :=
  let c := w.dev.chim
  w.each (w.pendsOf 0x0C03 0) fun q w =>
    let v := pw q.pkt 0
    if (bitAt v 0 && c.up.st == .training) || (bitAt v 1 && c.down.st == .training) then w
    else w.finish q sDone (le 4 (c.up.st.code + 4 * c.down.st.code))

/-- The answer that a requester at a remote window gets when its request fails (R488). -/
def W.remoteError (w : W) : W := w.answer (.error (BitVec.ofNat 8 eRemote))

/-- The loads and atomics that a core has under way to the positions that `p` picks. -/
def Core.loses (q : Core) (p : BitVec 3 → Bool) : Core :=
  { q with pend := q.pend.map fun x =>
      { x with lost := x.lost || (x.ans.isNone && (windowOf x.op.addr.toNat).any fun n => p (BitVec.ofNat 3 n)) } }

/-- The outstanding window requests to the positions that `p` picks end with a chimney remote error, those of the cores with
their responses (R488). -/
def W.dropRemotes (w : W) (p : BitVec 3 → Bool) : W :=
  let w := w.upd fun d => { d with cores := ⟨d.cores.rows.map fun r => (r.1, r.2.loses p)⟩ }
  if w.dev.chim.remotes.any fun r => p r.pos then
    (w.onChim fun c => { c with remotes := c.remotes.filter fun r => !p r.pos }).remoteError
  else w

/-- A request to position `n` crosses the link of a port. -/
def Chim.crosses (c : Chim) (up : Bool) (n : BitVec 3) : Bool := if up then decide (n < c.pos) else decide (c.pos < n)

/-- A boundary FIFO of the port has stopped: the port stays down until a device reset (R388). -/
def W.portDead (w : W) (up : Bool) : Bool :=
  let b := w.dev.bobbin.stopped
  if up then b.contains 6 || b.contains 7 else b.contains 8 || b.contains 9

/-- A link goes down (R480, R488): what a course knew of the members below it is gone with its down port.
(DEDUCED: assumption 82.) -/
def W.linkLost (w : W) (up : Bool) (st : PortSt) : W :=
  let w := w.onPort up fun p => { p with st := st, fails := 0 }
  let w := if up then w else w.onChim fun c => { c with below := ⟨[]⟩ }
  (w.dropRemotes (w.dev.chim.crosses up)).retrainDone

/-- What a refused or failed training leaves (R478). (DEDUCED: assumption 82.) -/
def W.linkRefused (w : W) (up : Bool) (peer : BitVec 3) : W :=
  let w := w.onPort up fun p => { p with st := .down, peer := peer, mismatch := true }
  (w.raise 0x388 (chimDetail peer.toNat up) 0).retrainDone

/-- The positions of the two ends agree (R478); a course that has not learnt MEMBERS leaves that part to its peer. -/
def Chim.mayLink (c : Chim) (up : Bool) (peer : BitVec 3) : Bool :=
  if up then peer.toNat + 1 == c.pos.toNat && (c.members == 0 || decide (c.pos.toNat < c.members.toNat))
  else peer.toNat == c.pos.toNat + 1 && decide (peer.toNat < c.members.toNat)

/-- LINK_UP (R478, R479). -/
def execLinkUp (up : Bool) (peer : BitVec 3) (x8 : Bool) (s : State) : Host.Outcome State Fault Refusal :=
  run s fun w =>
    let c := w.dev.chim
    if (c.port up).st ≠ .training then w
    else if c.mayLink up peer then
      let w := w.onPort up fun p =>
        { p with st := .linked, width := if x8 then 2 else 1, peer := peer, mismatch := false, ups := satInc p.ups,
                 fails := 0, tag := 0 }
      (w.degradedCheck up).retrainDone
    else w.linkRefused up peer

/-- LINK_DOWN (R480): a link that goes down retrains at once; a training that fails leaves the port down. -/
def execLinkDown (up : Bool) (s : State) : Host.Outcome State Fault Refusal :=
  run s fun w =>
    match (w.dev.chim.port up).st with
    | .linked => w.linkLost up .training
    | .training => w.linkLost up .down
    | _ => w

/-- RETRAIN_TIMER (R478, R480). -/
def execRetrainTimer (up : Bool) (s : State) : Host.Outcome State Fault Refusal :=
  run s fun w =>
    if (w.dev.chim.port up).st = .down ∧ w.portDead up = false then w.onPort up fun p => { p with st := .training } else w

/-- CHIMNEY_FRAME (R98, R480): a good frame is acknowledged; one that fails its check, or carries another tag than the next, is replayed; the
eighth failed replay of one frame takes the link down. -/
def execChimneyFrame (up : Bool) (tag : Nat) (ok : Bool) (s : State) : Host.Outcome State Fault Refusal :=
  run s fun w =>
    let p := w.dev.chim.port up
    if p.st ≠ .linked then w
    else w.through (if up then 6 else 8) fun w =>
    if ok && tag == p.tag then (w.onPort up fun p => { p with tag := p.tag + 1, fails := 0 }).answer .done
    else
      let w := w.onChim fun c => { c with replays := satInc c.replays }
      let w := w.raise 0x38A (chimDetail p.peer.toNat up) 0
      if 8 ≤ p.fails then w.linkLost up .training else w.onPort up fun p => { p with fails := p.fails + 1 }

/-- LINK_DELAY_MEASURE (R483): half the round trip, in ns. (DEDUCED: assumption 85.) -/
def execLinkDelayMeasure (up : Bool) (roundTrip : BitVec 17) (s : State) : Host.Outcome State Fault Refusal :=
  run s fun w =>
    if (w.dev.chim.port up).st = .linked then
      w.onPort up fun p => { p with delay := BitVec.ofNat 16 (roundTrip.toNat / 2) }
    else w

/-! Frames along the chain. -/

/-- A frame leaves at a chimney port. -/
def W.send (w : W) (ws : List Word32) : W := w.upd fun d => { d with ports := { d.ports with sent := ws } }

/-- The words of a time frame. (DEDUCED: assumption 180.) -/
def timeWords (f : TimeFrame) : List Word32 :=
  [lo32 f.time, hi32 f.time, w32 (f.members.toNat + at_ f.safe.toNat 4)] ++
  match f.step with
  | some (o, b) => [lo32 o, hi32 o, lo32 b, hi32 b]
  | none => []

/-- The words of a status frame. -/
def statusWords (f : StatusFrame) : List Word32 := [w32 f.pos.toNat, w32 f.mode.toNat, f.offset, f.crc, f.part]

/-- TIME_FRAME_SEND (R482, R484, R492): the frame carries the marks that wait for it. -/
def execTimeFrameSend (s : State) : Host.Outcome State Fault Refusal :=
  run s fun w =>
    let c := w.dev.chim
    if w.dev.isCourse ∨ c.down.st ≠ .linked then w
    else
      (w.send (timeWords ⟨w.dev.clock.tb, c.members, c.safeMark, c.stepMark⟩)).onChim fun c => { c with safeMark := false, stepMark := none }

/-- A course learns MEMBERS (R477, R489): its Pattern is rewritten, and its down port trains where a member follows. -/
def W.learnMembers (w : W) (n : BitVec 4) : W :=
  if w.dev.chim.members = n then w
  else
    let w := (w.onChim fun c => { c with members := n }).rewritePattern
    let next := w.dev.chim.pos.toNat + 1 < n.toNat
    if next ∧ w.dev.chim.down.st = .disabled ∧ w.portDead false = false then w.onPort false fun p => { p with st := .training }
    else if !next then w.onPort false fun p => { p with st := .disabled, width := 0, mismatch := false } else w

/-- CHIM_BASE_LOST ends with base reach back and the offset within ±100 ns (R490). -/
def W.baseBack (w : W) (off : Int) : W :=
  if w.active 0x380 && decide (off.natAbs ≤ 100) then w.inactive 0x380 else w

/-- TIME_FRAME (R482 to R484, R489, R490, R492): the delay of the link that it came over is added, and it is relayed at the
down port. (DEDUCED: assumption 180.) -/
def execTimeFrame (f : TimeFrame) (s : State) : Host.Outcome State Fault Refusal :=
  run s fun w =>
    if w.dev.isCourse = false ∨ w.dev.chim.up.st ≠ .linked then w
    else
      let f := { f with time := f.time + w64 w.dev.chim.up.delay.toNat }
      let off := (w.dev.clock.tb - f.time).toInt
      let w := w.learnMembers f.members
      let w := if w.dev.chim.baseReach then w else (w.onChim fun c => { c with baseReach := true }).chimEvt
      let w := (w.sync off 100).baseBack off
      let w := if f.safe then w.raise 0x38B (chimDetail 0 true) 0 else w
      let w := match f.step with
        | some x => w.onChim fun c => { c with stepDue := some x }
        | none => w
      if w.dev.chim.down.st = .linked then w.send (timeWords f) else w

/-- STATUS_FRAME_SEND (R482, R489): what the course's frame says. -/
def execStatusFrameSend (s : State) : Host.Outcome State Fault Refusal :=
  run s fun w =>
    let d := w.dev
    if d.isCourse ∧ d.chim.up.st = .linked then
      w.send (statusWords ⟨d.chim.pos, d.sys.mode.code, w.tbOffset, w.patCrc, w32 (d.dramBytes / 0x100000)⟩)
    else w

/-- A course relays the status frame of a member below it at its up port, and keeps the mode that it names (R482, R495).
(DEDUCED: assumption 81.) -/
def W.relayStatus (w : W) (f : StatusFrame) : W :=
  let c := w.dev.chim
  if c.up.st = .linked ∧ c.down.st = .linked ∧ c.pos.toNat < f.pos.toNat then
    (w.send (statusWords f)).onChim fun c => { c with below := c.below.set f.pos.toNat f.mode }
  else w

/-- The base accepts a status frame of a configured course (R482, R489); a course relays one. -/
def execStatusFrame (f : StatusFrame) (s : State) : Host.Outcome State Fault Refusal :=
  run s fun w =>
    let n := f.pos.toNat
    if w.dev.isCourse then w.relayStatus f
    else if w.dev.chim.down.st ≠ .linked ∨ n = 0 ∨ w.dev.chim.members.toNat ≤ n then w
    else
      let c := w.dev.course n
      let w := w.upd fun d => d.onCourse n fun _ =>
        { reach := true, mode := f.mode, crc := f.crc, part := f.part, offset := f.offset }
      let w := if c.reach then w else
        let w := w.chimEvt
        if w.active (0x380 + n) then w.inactive (0x380 + n) else w
      if c.reach ∧ c.crc = f.crc ∧ c.part = f.part then w else w.rewritePattern

/-- BASE_REACH_TIMEOUT (R482, R483, R485, R490). -/
def execBaseReachTimeout (s : State) : Host.Outcome State Fault Refusal :=
  run s fun w =>
    if w.dev.isCourse = false ∨ w.dev.chim.baseReach = false then w
    else
      let w := (w.onChim fun c => { c with baseReach := false }).chimEvt
      if w.dev.clock.everLocked then w.holdover.level 0x380 (chimDetail 0 true) w.tbOffset else w

/-- The commands forwarded to a course end with NO_RESOURCE (R70, R491). (DEDUCED: assumption 83.) -/
def W.dropForwards (w : W) (n : Nat) : W :=
  let fs := w.dev.chim.forwards.filter fun f => f.pos.toNat == n
  let w := w.onChim fun c => { c with forwards := c.forwards.filter fun f => f.pos.toNat != n }
  w.each fs fun f w => if w.listens (srcKey f.pkt) then w.reply f.pkt f.opc sNoResource true [] f.stale else w

/-- REACH_TIMEOUT (R482, R488, R491). -/
def execReachTimeout (pos : BitVec 3) (s : State) : Host.Outcome State Fault Refusal :=
  run s fun w =>
    let n := pos.toNat
    if w.dev.isCourse ∨ n = 0 ∨ (w.dev.course n).reach = false then w
    else
      let w := (w.upd fun d => d.onCourse n fun c => { c with reach := false }).chimEvt
      let w := (w.level (0x380 + n) (chimDetail n false) 0).rewritePattern
      (w.dropForwards n).dropRemotes fun p => p == pos

/-! Retraining. -/

/-- Take a link down and retrain it (R481, R495). (DEDUCED: assumption 82.) -/
def W.retrain (w : W) (up : Bool) : W :=
  let p := w.dev.chim.port up
  if p.st = .disabled ∨ w.portDead up then w else (w.linkLost up .training).raise 0x38C (chimDetail p.peer.toNat up) 0

/-- A write of RETRAIN (R496 to R498). -/
def W.writeRetrain (w : W) (v : Word32) : W := (w.when (bitAt v 0) fun w => w.retrain true).when (bitAt v 1) fun w => w.retrain false

/-- RETRAIN_UP. -/
def execRetrainUp (m : Rid) (v : Word32) (s : State) : Host.Outcome State Fault Refusal :=
  run s fun w => w.writeRow m 12 0 0x40 v fun w => w.writeRetrain v

/-- RETRAIN_DOWN. -/
def execRetrainDown (m : Rid) (v : Word32) (s : State) : Host.Outcome State Fault Refusal :=
  run s fun w => w.writeRow m 12 0 0x40 v fun w => w.writeRetrain v

/-! The chimney commands. -/

/-- The mode code that CHIMNEY_STATUS shows for a position (R494). -/
def W.posMode (w : W) (n : Nat) : Nat :=
  if w.dev.isCourse ∨ w.reachBit n = false then 0
  else if n = 0 then w.dev.sys.mode.code.toNat else (w.dev.course n).mode.toNat

/-- CHIMNEY_STATUS (R494). -/
def cmdChimneyStatus : Body := fun _ w =>
  w.ok (w.regWords 12 0 ((List.range 8).map fun i => 0x20 + 4 * i) ++
    (List.range 4).flatMap fun k => le 4 (w.posMode (2 * k) + at_ (w.posMode (2 * k + 1)) 16))

/-- CHIMNEY_SET (R477, R494). -/
def cmdChimneySet : Body := fun p w =>
  let m := (pw p 0).toNat
  w.need (decide (1 ≤ m ∧ m ≤ 8)) sBadParam <|
  w.need (!w.dev.isCourse) sLocked <|
  let (k, w) := w.newJobKey
  .pend w k fun w => w.addJob { dev := 0, op := .record none (some (BitVec.ofNat 4 m)), key := k }

/-- A mode code of RUN, RUN_REDUCED or CUTOVER. -/
def runCode (m : BitVec 4) : Bool := 4 ≤ m.toNat && m.toNat ≤ 6

/-- A member that would lose base reach by a retrain of the down port, or at a course of either port, is in RUN, RUN_REDUCED or
CUTOVER by its last status frame (R495). (DEDUCED: assumption 81.) -/
def W.memberRuns (w : W) (v : Word32) : Bool :=
  if w.dev.isCourse then (bitAt v 0 || bitAt v 1) && w.dev.chim.below.rows.any fun r => runCode r.2
  else bitAt v 1 && w.reachedCourses.any fun n => runCode (w.dev.course n).mode

/-- CHIMNEY_RETRAIN (R494, R495). (DEDUCED: assumption 81.) -/
def cmdChimneyRetrain : Body := fun p w =>
  let v := pw p 0
  let c := w.dev.chim
  w.need (decide (v.toNat < 4) && (!bitAt v 0 || c.up.st != .disabled) && (!bitAt v 1 || c.down.st != .disabled)) sBadParam <|
  w.need (!(w.dev.sys.mode.running && bitAt v 0)) sLocked <|
  w.need (!w.memberRuns v) sLocked <|
  .pend w 0 fun w => (w.writeRetrain v).retrainDone

end Sys2Proof.Machine
end

