-- ==== Sys2Proof/Machine/ConfigCmds.lean ====
section
/-! DEFINITION. Configuration transactions (R78, R79), their end at a block's commit point, and the row of the commit
point itself (R37). -/

namespace Sys2Proof.Machine

/-- Update the transaction. -/
def W.setTxn (w : W) (t : Option Txn) : W := w.upd fun d => { d with stoker := { d.stoker with txn := t } }

/-- The block of a base address. -/
def blockOf (b : Nat) : Nat × Nat :=
  match blockAt b with
  | some (_, typ, inst, _) => (typ, inst)
  | none => (0, 0)

/-- A 4-byte entry of CONFIG_BEGIN names this block. -/
def entryBlock (v : Word32) : Nat × Nat := (fld v 0 16, fld v 16 16)

/-- CONFIG_BEGIN (R78). -/
def cmdConfigBegin : Body := fun p w =>
  let es := pwords p 0
  let bs := es.map fun v => let b := entryBlock v; blockBase b.1 b.2
  w.need w.dev.stoker.txn.isNone sNoResource <|
  w.need (es.all (fun v => w.hasBlock (entryBlock v).1 (entryBlock v).2) && bs.eraseDups.length == bs.length) sBadParam <|
  match es.find? fun v =>
      let c := w.dev.commit (blockBase (entryBlock v).1 (entryBlock v).2)
      c.dirty || c.state == CommitState.busy with
  | some v => .fin w sConflict (le 4 v.toNat)
  | none => (w.setTxn (some { src := srcKey p, blocks := bs })).ok

/-- The transaction of the packet's source: none open is BAD_PARAM, another source's LOCKED (R78). -/
def W.ownTxn (w : W) (p : Packet) (k : Txn → Res) : Res :=
  match w.dev.stoker.txn with
  | none => w.fail sBadParam
  | some t => if t.src = srcKey p then k t else w.fail sLocked

/-- The address of a CONFIG_WRITE entry. -/
def entryAddr (e : Word32 × Word32 × Word32) : Nat := e.1.toNat + 2 ^ 32 * (fld e.2.1 0 16)

/-- The entries of CONFIG_WRITE. -/
def writeEntries : List Word32 → List (Word32 × Word32 × Word32)
  | a :: b :: c :: ws => (a, b, c) :: writeEntries ws
  | _ => []

/-- The RW-S register at an address of a claimed block. -/
def W.claimedReg (w : W) (t : Txn) (a : Nat) : Option (Nat × Nat × Nat × RegRow) :=
  match blockAt a with
  | some (b, typ, inst, _) =>
    if t.blocks.contains b then
      match w.regRow typ (a - b) with
      | some r => if r.kind == RegKind.rws then some (typ, inst, a - b, r) else none
      | none => none
    else none
  | none => none

/-- The registers of HEARTH_h that CONFIG_WRITE does not take (R236). (DEDUCED: assumption 98.) -/
def loopOnly (e : Word32 × Word32 × Word32) : Bool :=
  match blockAt (entryAddr e) with
  | some (b, 16, _, _) =>
    let o := entryAddr e - b
    o == 0x30C || o == 0x310 || o == 0x314 || decide (0x400 ≤ o ∧ o < 0x600)
  | _ => false

/-- CONFIG_WRITE (R78, R236). -/
def cmdConfigWrite : Body := fun p w =>
  w.ownTxn p fun t =>
    let es := writeEntries (pwords p 0)
    w.need (es.all fun e => fld e.2.1 16 16 == 0 && (w.claimedReg t (entryAddr e)).isSome && !loopOnly e) sBadParam <|
    (w.each es fun e w =>
      match w.claimedReg t (entryAddr e) with
      | some (typ, inst, o, _) => w.setStaged typ inst o e.2.2
      | none => w).ok

/-- The staged values of the claimed blocks. -/
def W.claimedStage (w : W) (t : Txn) : Tbl Word32 :=
  w.dev.regs.staged.keep fun a =>
    match blockAt a with
    | some (b, _, _, _) => t.blocks.contains b
    | none => false

/-- The registers that break a rule in the staged set of a transaction (R79 step 1): the rules of each block look at all
claimed blocks as their commits would leave them. (DEDUCED: assumption 96.) -/
def W.txnBad (w : W) (t : Txn) : List Nat :=
  let snap := w.claimedStage t
  let n := w.applied snap
  let n := n.when (t.blocks.contains (blockBase 8 0)) fun n => n.upd fun d => d.onQueue (qcfgSel n) fun q => { q with cfg := qcfgOf n }
  (t.blocks.flatMap fun b => (basicRules w n (blockOf b).1 (blockOf b).2).map (b + ·)) ++
    (snap.rows.filter fun r => (blockOf r.1).1 == 11 && w.strayAt r).map (·.1)

/-- The active values that step 2 of R79 records: those that differ from their reset values. -/
def W.activeOf (w : W) (t : Txn) : Tbl Word32 := w.dev.regs.val.keep fun a => (w.claimedReg t a).isSome

/-- Stage the recorded values in a block and commit them again (R79 step 5). -/
def W.restoreBlock (w : W) (t : Txn) (b : Nat) : W :=
  let (typ, inst) := blockOf b
  let mine := fun (x : Tbl Word32) => (x.rows.map (·.1)).filter fun a => inBlock typ inst a && (w.claimedReg t a).isSome
  let as := (mine t.saved ++ mine w.dev.regs.val ++ mine w.dev.regs.staged).eraseDups
  let w := w.each as fun a w => w.setStaged typ inst (a - b) (t.saved.getD a (w.regReset typ (a - b)))
  (w.commitGo typ inst).commitPoint typ inst

/-- Insert a number into a rising list. -/
def insertNat (x : Nat) : List Nat → List Nat
  | [] => [x]
  | y :: ys => if x ≤ y then x :: y :: ys else y :: insertNat x ys

/-- The claimed blocks that have something to commit, in ascending address order. -/
def Txn.commits (t : Txn) : List Nat := (t.blocks.filter fun b => hasStaged (blockOf b).1).foldr insertNat []

/-- What the claimed blocks report: the transaction goes on, or ends with a status. (DEDUCED: assumption 97.) -/
def W.txnStep (w : W) : Option Nat × W :=
  match w.dev.stoker.txn with
  | none => (none, w)
  | some t =>
    if t.committing = false then (none, w)
    else
      let st := fun (w : W) (b : Nat) => (w.dev.commit b).state
      let bs := t.commits
      let failed := t.restoring || bs.any fun b => st w b == .conflict || st w b == .aborted
      if failed then
        let todo := bs.filter fun b => st w b == .done && !t.restored.contains b
        let w := w.each todo fun b w => w.restoreBlock t b
        let w := w.setTxn (some { t with restoring := true, restored := t.restored ++ todo })
        if bs.any fun b => st w b == .busy then (none, w) else (some sInternalFault, (w.setTxn none).internal)
      else if bs.all fun b => st w b != .busy then (some sDone, w.setTxn none)
      else (none, w)

/-- LEVEL_CTL among the staged values is to lower rails: the standby banks that fail at their new level are marked (R260). -/
def W.markLevels (w : W) (t : Txn) : W :=
  let c := (w.applied (w.claimedStage t)).reg 4 0 0x20
  if c = w.reg 4 0 0x20 then w
  else w.each [0, 1] fun r w => let l := fld c (4 * r) 3; if l < w.dev.power.bound r then w.markStandby r l else w

/-- The contexts that the rules of the claimed blocks judge: where the staged values would place them (R84, R184, R300). -/
def W.txnCtxs (w : W) (t : Txn) : List (Nat × Nat) :=
  let n := w.applied (w.claimedStage t)
  let plans := fun (h : Nat) => n.planCtxs h false ++ n.planCtxs h true
  t.blocks.flatMap fun b => match blockOf b with
    | (16, h) => plans h
    | (4, _) => if n.reg 4 0 0x20 = w.reg 4 0 0x20 then [] else (List.range 16).flatMap plans
    | (6, _) => (List.range 16).flatMap fun h => n.ctxOffs h (w.dev.blw h).loaded
    | (11, _) => (List.range 16).flatMap fun h => n.planCtxs h (bitAt (n.hreg h 0x600) 0)
    | _ => []

/-- CONFIG_COMMIT (R79): a commit point that is not reached at once makes the reply PENDING.
(DEDUCED: assumption 96.) -/
def cmdConfigCommit : Body := fun p w =>
  w.ownTxn p fun t => w.readCtxs (w.txnCtxs t) fun w =>
    match w.txnBad t with
    | a :: as => .fin w sConflict (le 4 (as.foldl min a))
    | [] =>
      let w := (w.markLevels t).setTxn (some { t with committing := true, saved := w.activeOf t })
      let w := w.each t.commits fun b w => w.commitGo (blockOf b).1 (blockOf b).2
      let w := w.each t.commits fun b w => w.commitPoint (blockOf b).1 (blockOf b).2
      match w.txnStep with
      | (some st, w) => .fin w st []
      | (none, w) => .pend w 0

/-- CONFIG_ABORT (R78). -/
def cmdConfigAbort : Body := fun p w => w.ownTxn p fun _ => w.abortTxn.ok

/-- A transaction that waits for a commit point looks at its blocks again. (DEDUCED: assumption 97.) -/
def W.txnSettle (w : W) : W :=
  match w.txnStep with
  | (some st, w) => w.finishAll 0x0203 0 st []
  | (none, w) => w

/-- COMMIT_POINT (R37): a block reaches its commit point, and a transaction that waits for it goes on (R79). -/
def execCommitPoint (b : BlockId) (s : State) : Host.Outcome State Fault Refusal :=
  run s fun w =>
    if allBlocks.contains (b.typ.toNat, b.inst.toNat) then (w.commitPoint b.typ.toNat b.inst.toNat).txnSettle else w

end Sys2Proof.Machine
end

