-- ==== Sys2Proof/Machine/ImageCmds.lean ====
section
/-! DEFINITION. The image commands (R442, R443, R445, R456), the rows of verification, flash and cutover (R446 to
R449, R505), attestation (R450) and the Ethernet sessions (R451 to R454). -/

namespace Sys2Proof.Machine

/-- The code of a state of R442. -/
def StageSt.code : StageSt → Nat
  | .empty => 0
  | .staging => 1
  | .verifying => 2
  | .verified => 3
  | .failed => 4
  | .armed => 5

/-- Update the images. -/
def W.onImg (w : W) (f : Images → Images) : W := w.upd fun d => { d with images := f d.images }

/-- The parameter words are 0 outside the masks given (R456). -/
def maskedOk (p : Packet) (ms : List Nat) : Bool :=
  ((List.range ms.length).zip ms).all fun x => Nat.land (pw p x.1).toNat (2 ^ 32 - 1 - x.2) == 0

/-- IMAGE_STATUS. -/
def cmdImageStatus : Body := fun _ w =>
  let (head, w) := w.stageHead
  let i := w.dev.images
  let s := w.dev.sys
  w.ok (le 4 (s.slotB.toNat + 2 * s.fallback.toNat + 4 * i.stokerPending.toNat + 8 * i.st.code + at_ i.reason.toNat 8) ++
    le 4 (headVersion i.running.head).toNat ++ le 4 (headVersion head).toNat ++ le 4 i.stageLen ++
    headDigest i.running.head ++ headDigest head)

/-- IMAGE_STAGE_BEGIN (R441, R442). -/
def cmdStageBegin : Body := fun p w =>
  let n := (pw p 0).toNat
  let i := w.dev.images
  w.need w.dev.hasStore sNoResource <| w.need (decide (n ≤ 0x1000000)) sBadParam <| w.need (i.st != .armed) sLocked <|
  let w := w.onImg fun i => { i with st := .staging, stageLen := n, stage := {} }
  (w.areaZero w.dev.images.areas.2.2 n).ok

/-- IMAGE_STAGE_CHUNK (R442). -/
def cmdStageChunk : Body := fun p w =>
  let o := (pw p 0).toNat
  let bs := (pktBody p).drop 4
  let i := w.dev.images
  w.need w.dev.hasStore sNoResource <|
  w.need (decide (o % 4 = 0 ∧ 4 ≤ bs.length ∧ bs.length ≤ 4072 ∧ o + bs.length ≤ i.stageLen)) sBadParam <|
  w.need (i.st != .armed) sLocked <|
  let w := w.areaWrite i.areas.2.2 o bs
  (w.onImg fun i => { i with st := .staging, stage := {} }).ok

/-- IMAGE_VERIFY (R442): only a staging image has something to verify. (DEDUCED: assumption 103.) -/
def cmdImageVerify : Body := fun _ w =>
  let i := w.dev.images
  w.need w.dev.hasStore sNoResource <| w.need (i.st != .armed) sLocked <| w.need (i.st == .staging) sWrongMode <|
  .pend (w.onImg fun i => { i with st := .verifying }) 0

/-- IMAGE_VERIFY_COMPLETE (R440, R442). (DEDUCED: assumption 103.) -/
def execImageVerifyComplete (s : State) : Host.Outcome State Fault Refusal :=
  run s fun w =>
    let i := w.dev.images
    if i.st ≠ .verifying then w
    else
      let (bs, w) := w.areaRead i.areas.2.2 0 i.stageLen
      let f := imgOf (bs.getD [])
      let reason := if bs.isSome then verify w.fuse f 1 i.stageLen w.lifecycle else 4
      let info : ImgInfo := if reason = 0 then { len := f.len, head := f.head } else {}
      let w := w.onImg fun i =>
        { i with st := if reason = 0 then .verified else .failed, reason := BitVec.ofNat 4 reason, stage := info }
      w.finishAll 0x0A04 0 (if reason = 0 then sDone else verifyStatus reason) (le 4 reason ++ le 4 f.version)

/-- IMAGE_DISCARD. -/
def cmdImageDiscard : Body := fun _ w =>
  let i := w.dev.images
  w.need w.dev.hasStore sNoResource <| w.need (i.st != .armed) sLocked <| w.need (i.st != .empty) sDoneEmpty <|
  (w.onImg fun i => { i with st := .empty, stageLen := 0, stage := {} }).ok

/-- IMAGE_PERSIST (R443). (DEDUCED: assumption 103.) -/
def cmdImagePersist : Body := fun p w =>
  let i := w.dev.images
  let fromStage := bitAt (pw p 0) 0
  w.need (maskedOk p [1]) sBadParam <|
  w.need (if fromStage then i.st == .verified else !i.running.head.isEmpty) sWrongMode <|
  let (key, w) := w.newJobKey
  .pend (w.addJob { dev := 1, op := .persist fromStage true, key := key }) key

/-- FLASH_OPERATION_COMPLETE (R505): the first operation of a device ends, and the next begins. An operation of the
Thimble reader is the Thimble's own; it shows here only where it fails. Through a stopped boundary FIFO no operation completes
(R388). -/
def execFlashOperationComplete (dev : Fin 2) (thimble ok : Bool) (s : State) : Host.Outcome State Fault Refusal :=
  run s fun w =>
    let ok := ok && w.dev.fifoOpen 26 && w.dev.fifoOpen 27
    let w := if ok then w.upd fun d => (d.crossed 26).crossed 27 else w.raise 0x3C5 (w32 dev) 0
    if thimble then w
    else
      match w.dev.images.jobs.find? (·.dev == dev.val) with
      | none => w
      | some j =>
        let w := w.onImg fun i => { i with jobs := i.jobs.erase j }
        let w := if ok then w.jobDone j else w.flashFail j
        let w := match w.dev.images.jobs.find? (·.dev == dev.val) with
          | some n => w.beginJob n
          | none => w
        w.settleErase

/-! Cutover. -/

/-- The hearths that a mask names. -/
def hearthsOf (m : BitVec 16) : List Nat := bitsOf 16 m.toNat

/-- The cores of hearths. -/
def hearthCores (hs : List Nat) : List Nat := hs.flatMap fun h => (List.range 4).map (4 * h + ·)

/-- The hearths whose sections differ in digest between RUNNING and STAGE. -/
def Images.differ (i : Images) (h : Nat) : Bool :=
  (hearthSections i.running.head h).map (·.digest) != (hearthSections i.stage.head h).map (·.digest)

/-- The overlaps that R445 refuses, for one named hearth. -/
def W.cutOverlap (w : W) (h : Nat) : Bool :=
  let i := w.dev.images
  let old := hearthSections i.running.head h
  let new := hearthSections i.stage.head h
  let carry := ((codeOf i.stage.head h).map (·.carry)).getD []
  let snap := ((codeOf i.stage.head h).map (fun s => [(s.snap, 0x1000)])).getD []
  let mine := new.map (fun s => (s.load, s.size)) ++ carry ++ snap
  mine.any (fun r => old.any (fun s => overlaps r.1 r.2 s.load s.size) || w.inAreas h r.1 r.2) ||
  new.any fun s => carry.any fun r => overlaps s.load s.size r.1 r.2

/-- The CONFLICT cases of R445. -/
def W.cutConflict (w : W) (m : BitVec 16) : Bool :=
  let i := w.dev.images
  let fixed := fun (c : Option Section) => ((c.map (·.cut)).getD 0xFFFFFFFF) == 0xFFFFFFFF
  (List.range 16).any (fun h => !bitAt m h && i.differ h) ||
  (hearthsOf m).any fun h => fixed (codeOf i.running.head h) || fixed (codeOf i.stage.head h) || w.cutOverlap h

/-- CUTOVER (R445). (DEDUCED: assumption 102.) -/
def cmdCutover : Body := fun p w =>
  let m : BitVec 16 := BitVec.ofNat 16 (pw p 0).toNat
  let fc := (pw p 1).toNat + 2 ^ 32 * (pw p 2).toNat
  let i := w.dev.images
  let now := w.dev.clock.frameNo.toNat
  let hs := hearthsOf m
  w.need (maskedOk p [0xFFFF]) sBadParam <|
  w.need (i.cut.isNone && hs.all fun h => bitAt w.dev.sys.avail h && bitAt i.loaded h) sNoResource <|
  w.need (i.st == .verified) sWrongMode <|
  w.need (decide (now + 4000 ≤ fc ∧ fc ≤ now + 2 ^ 24) &&
    hs.all fun h => (codeOf i.running.head h).isSome && (codeOf i.stage.head h).isSome) sBadParam <|
  w.need (!w.cutConflict m) sConflict <|
  let w := w.onImg fun i => { i with st := .armed, cut := some { hearths := m, fc := w64 fc } }
  .pend (w.each hs fun h w => w.upd fun d => d.onCutStat h fun s => { s with phase := 1, passed := 0, failed := 0 }) 0

/-- CUTOVER_STATUS. -/
def cmdCutoverStatus : Body := fun _ w =>
  let i := w.dev.images
  let (m, fc) := match i.cut with
    | some c => (c.hearths, lo32 c.fc)
    | none => i.lastNamed
  let stat := match (hearthsOf m).head? with
    | some h => (w.dev.cutStat h).word
    | none => 0
  w.ok (le 4 m.toNat ++ le 4 fc.toNat ++ le 4 stat.toNat ++ le 4 i.lastCut.1.toNat)

/-- Copy the new sections of the named hearths; the mask of those whose copy fails (R441).
(DESIGN CHOICE: assumption 101.) -/
def W.copyNew (w : W) : List Nat → Nat × W
  | [] => (0, w)
  | h :: hs =>
    let i := w.dev.images
    let (ok, w) := w.copySections i.areas.2.2 h (hearthSections i.stage.head h)
    let (m, w) := W.copyNew w hs
    (m + (if ok then 0 else 2 ^ h), w)

/-- CUTOVER_ARMED: a copy that does not hold stops the cutover (R441), which ends CANCELLED.
(DESIGN CHOICE: assumption 101.) -/
def execCutoverArmed (s : State) : Host.Outcome State Fault Refusal :=
  run s fun w =>
    match w.dev.images.cut with
    | none => w
    | some c =>
      if c.ready then w
      else
        let (bad, w) := w.copyNew (hearthsOf c.hearths)
        if bad = 0 then w.onImg fun i => { i with cut := some { c with ready := true } }
        else (w.raise 0x341 (w32 bad) 0).endCutover 4

/-- A core of a named hearth is at its switch point (R446): it stopped at one, or was HALTED or held in core reset at the
boundary. (DESIGN CHOICE: assumption 101.) -/
def Cutover.atSwitch (c : Cutover) (k : Nat) : Bool := c.stopped.contains k || c.aside.contains k

/-- Every core of the named hearths is at its switch point. -/
def Cutover.allAtSwitch (c : Cutover) : Bool := (hearthCores (hearthsOf c.hearths)).all c.atSwitch

/-- CUTOVER_BOUNDARY (R446): the cores in WAIT are at their switch points, and those that are HALTED or held in core reset count
as there; the lanes of a core in NAP wake for the switch (R463). A device reset that is due discards the transition (R42). -/
def execCutoverBoundary (s : State) : Host.Outcome State Fault Refusal :=
  run s fun w =>
    match w.dev.images.cut with
    | none => w
    | some c =>
      if c.ready && (w.dev.sys.mode == .run || w.dev.sys.mode == .runReduced) && !w.dev.sys.resetArmed then
        let w := (w.upd fun d => d.advanceTb (25000 * c.fc.toNat)).stampMode .cutover
        let cores := hearthCores (hearthsOf c.hearths)
        let aside := cores.filter fun k => (w.dev.seam k).mode == SeamMode.halted || !(w.dev.core k).run
        let still := cores.filter fun k => !aside.contains k && (w.dev.core k).wait == WaitSt.wait
        let w := w.onImg fun i => { i with cut := some { c with stopped := still, aside := aside } }
        w.each still fun k w => w.wakeLanes k
      else w

/-- The cutover that has entered its boundary and not yet switched. -/
def W.cutWaits (w : W) : Option Cutover :=
  match w.dev.images.cut with
  | some c => if w.dev.sys.mode == .cutover && c.switched.isNone then some c else none
  | none => none

/-- CUTOVER_SWITCH (R446): each named hearth's carry goes to SNAP, and its stopped cores enter the new image. Only a WAIT that
retires within the 12.5 µs is a switch point, so that no late core lets the switch happen.
(DEDUCED: assumption 102.) -/
def execCutoverSwitch (s : State) : Host.Outcome State Fault Refusal :=
  run s fun w =>
    match w.cutWaits with
    | none => w
    | some c =>
      let hs := hearthsOf c.hearths
      if c.allAtSwitch then
        let go := c.stopped.filter fun k => (w.dev.core k).run && (w.dev.seam k).mode != SeamMode.halted
        let w := w.each hs fun h w =>
          match codeOf w.dev.images.stage.head h with
          | none => w
          | some new =>
            let w := (w.carry h new false).each (go.filter fun k => k / 4 == h) fun k w =>
              w.upd fun d => d.onCore k fun q => q.cutIn k new 1 c.fc
            w.upd fun d => d.onCutStat h fun t => { t with phase := 2 }
        (w.onImg fun i => { i with cut := some { c with stopped := [], switched := some go } }).drainDue
      else w

/-- SWITCH_DEADLINE_EXPIRY (R446): nothing switches, and the stopped cores resume where they stood. -/
def execSwitchDeadlineExpiry (s : State) : Host.Outcome State Fault Refusal :=
  run s fun w =>
    match w.cutWaits with
    | none => w
    | some c =>
      if c.allAtSwitch || w.dev.sys.resetArmed then w
      else
        let w := w.upd fun d => d.advanceTb (25000 * c.fc.toNat + 12500)
        (w.stampMode w.runMode).endCutover 2

/-- The cutover that has switched, with the cores that it switched (R447). -/
def W.cutSwitched (w : W) : Option (Cutover × List Nat) :=
  match w.dev.images.cut with
  | some c => c.switched.map fun go => (c, go)
  | none => none

/-- The cutover whose self-check has not failed (R447). -/
def W.cutChecks (w : W) : Option (Cutover × List Nat) := w.cutSwitched.filter fun x => x.1.fail.isNone

/-- CUT_PASS (R447, R457): taken from a core of the hearth, in the check frames, with the key; a failure that has already been
found does not end them before the fallback. -/
def W.cutPass (w : W) (m : Rid) (h : Nat) (v : Word32) : W :=
  match w.cutSwitched with
  | none => w
  | some (c, _) =>
    let k := (List.range 4).find? fun j => w.isCore (4 * h + j) m
    match k with
    | none => w
    | some j =>
      let end_ := 25000 * (c.fc.toNat + ((codeOf w.dev.images.stage.head h).map (·.check)).getD 0)
      if fld v 16 16 = 0xC07E ∧ bitAt c.hearths h ∧ w.dev.clock.tb.toNat < end_ then
        if bitAt v 0 then w.upd fun d => d.onCutStat h fun t => { t with passed := setBit t.passed j true }
        else (w.upd fun d => d.onCutStat h fun t => { t with failed := setBit t.failed j true }).cutFail h 2
      else w

/-- CUT_PASS as a row: a write of HEARTH_h.CUT_PASS. -/
def execCutPass (m : Rid) (h : HearthId) (v : Word32) (s : State) : Host.Outcome State Fault Refusal :=
  run s fun w => w.writeRow m 16 h 0x1004 v fun w => w.cutPass m h v

/-- The base frame at whose boundary hearth `h` must have passed. -/
def W.cutDeadline (w : W) (c : Cutover) (h : Nat) : Nat :=
  c.fc.toNat + ((codeOf w.dev.images.stage.head h).map (·.check)).getD 0

/-- Every switched core of hearth `h` has written RESULT 1. -/
def W.cutPassed (w : W) (go : List Nat) (h : Nat) : Bool :=
  (List.range 4).all fun j => !go.contains (4 * h + j) || bitAt (w.dev.cutStat h).passed j

/-- The cutover succeeds (R447). -/
def W.cutDone (w : W) (c : Cutover) : W :=
  let w := w.onImg fun i => { i with
    running := i.stage, prior := i.running, stage := {}, stageLen := 0, areas := (i.areas.2.2, i.areas.1, i.areas.2.1) }
  let w := w.each (hearthsOf c.hearths) fun h w => w.upd fun d => d.onCutStat h fun t => { t with switches := satInc t.switches }
  (w.stampMode w.runMode).endCutover 0

/-- CUTOVER_CHECK_DEADLINE (R447): the next deadline of a named hearth passes; the last one ends the cutover. -/
def execCutoverCheckDeadline (s : State) : Host.Outcome State Fault Refusal :=
  run s fun w =>
    match w.cutChecks with
    | none => w
    | some (c, go) =>
      if w.dev.sys.resetArmed then w else
      let hs := hearthsOf c.hearths
      let at_ := fun h => 25000 * w.cutDeadline c h
      let tb := w.dev.clock.tb.toNat
      let next := (hs.filter fun h => decide (tb < at_ h) || !w.cutPassed go h).map at_
      let w := match next with
        | [] => w
        | t :: ts => w.upd fun d => d.advanceTb (ts.foldl min t)
      let due := hs.filter fun h => decide (at_ h ≤ w.dev.clock.tb.toNat)
      match due.filter fun h => !w.cutPassed go h with
      | [] => if due.length = hs.length then w.cutDone c else w
      | h :: _ => w.cutFail h 1

/-- CUTOVER_FALLBACK (R448): at the next base-frame boundary after a failure. -/
def execCutoverFallback (s : State) : Host.Outcome State Fault Refusal :=
  run s fun w =>
    match w.dev.images.cut with
    | none => w
    | some c =>
      if c.fail.isSome && w.dev.sys.mode == .cutover && !w.dev.sys.resetArmed then
        let w := w.upd fun d => d.advanceTb ((d.clock.tb.toNat + 24999) / 25000 * 25000)
        let w := (w.stampMode w.runMode).fallback 1
        w.raise 0x342 w.dev.images.lastCut.1 0
      else w

/-! Attestation. -/

/-- A command that draws random bits fails while the entropy source is not healthy (R455). -/
def W.drbg (w : W) (k : Res) : Res :=
  if w.dev.images.entropyFail then .fin w.internal sInternalFault [] else k

/-- The life-cycle state allows the identity key (R59): PROVISIONED or FIELD. -/
def W.hasIdentity (w : W) : Bool := (w.lifecycle == 1 || w.lifecycle == 2) && !w.dev.baste.pathOff

/-- ATTEST (R450). -/
def cmdAttest : Body := fun _ w => w.need w.hasIdentity sLocked <| w.drbg (.pend w 0)

/-- Bytes 0x000 to 0x37F of the report for a nonce (R450). -/
def W.report (w : W) (nonce : List Byte) (stage : List Byte) : List Byte :=
  let d := w.dev
  let i := d.images
  let s := d.sys
  let thm := w.isM && d.thm.powered && d.thm.up
  let mail := fun o => if thm then le 4 (w.mailbox o).toNat else List.replicate 4 0
  let key := w.fuse.identity.getD 0
  le 4 0x54535441 ++ le 4 1 ++ le 8 w.fuse.uid.toNat ++ le 4 w.partWord.toNat ++
  le 4 (w.lifecycle + at_ s.mode.code.toNat 3 + at_ d.chim.pos.toNat 7 + at_ s.recovery.toNat 10 + at_ s.slotB.toNat 11 +
    at_ s.fallback.toNat 12 + at_ i.stokerPending.toNat 13 + at_ s.lockoutRec.toNat 14) ++
  le 8 d.clock.tb.toNat ++ nonce ++ headDigest i.running.head ++ le 4 (headVersion i.running.head).toNat ++
  le 4 (headVersion stage).toNat ++ w.fuse.vendorHash ++ w.fuse.custHash ++ w.fuse.metrHash ++ headDigest stage ++
  mail 8 ++ mail 0xC ++ mail 0x1064 ++ le 4 0 ++
  ((List.range 8).flatMap fun k => mail (0x1020 + 4 * k)) ++ ((List.range 8).flatMap fun k => mail (0x1000 + 4 * k)) ++
  ((List.range 8).flatMap fun k => mail (0x1040 + 4 * k)) ++
  le 4 s.avail.toNat ++ le 4 ((w.viewFlue 0x3C).getD 0).toNat ++ ((List.range 4).flatMap fun k => le 4 (w.seamWord k).toNat) ++
  ((List.range 2).flatMap fun k => le 4 (w.lanesFailed k).toNat) ++ le 4 (w.lanePack 16 0 4).toNat ++ le 4 w.overdueWord.toNat ++
  recModulus key ++ recExponent key ++ List.replicate 124 0

/-- ATTEST_COMPLETE: the oldest pending ATTEST ends, signed with the identity key (R435, R450); its salt needs the DRBG
(R455). -/
def execAttestComplete (s : State) : Host.Outcome State Fault Refusal :=
  run s fun w =>
    match w.pendsOf 0x0A10 0 with
    | [] => w
    | q :: _ =>
      if w.dev.images.entropyFail then w.internal.finish q sInternalFault []
      else
        let (stage, w) := w.stageHead
        let (n, w) := w.draw
        let r := w.report (pktBody q.pkt) stage
        (w.cryptoUse (be 384 (recPrivate (w.fuse.identity.getD 0))) r).finish q sDone (r ++ ownSign (w.fuse.identity.getD 0) n r)

/-! Sessions. -/

/-- SESSION_CFG (R451). (DEDUCED: assumption 78.) -/
def cmdSessionCfg : Body := fun p w =>
  let v := pw p 0
  w.need (maskedOk p [0xFFFF0007] && decide (1024 ≤ fld v 16 16)) sBadParam <|
  let w := w.onImg fun i => { i with flash := { i.flash with rcd := { i.flash.rcd with session := v } } }
  (w.when (!bitAt v 0) fun w => w.endSessions).ok

/-- The field checks of SESSION_OPEN (R452). -/
def W.openFields (w : W) (b : List Byte) : Bool :=
  let tb := w.dev.clock.tb.toNat
  let t := ofLe (slice b 0x10 8)
  (wordAt b 0).toNat == 0x4E45504F && ofLe (slice b 8 8) == w.fuse.uid.toNat && allZero (slice b 0x18 8) &&
  allZero (slice b 0x324 28) && decide (60 ≤ (wordAt b 4).toNat ∧ (wordAt b 4).toNat ≤ 86400) &&
  decide (t ≤ tb + 10000000000 ∧ tb ≤ t + 10000000000) &&
  !(w.dev.images.opens.any fun o => o.1 == sha256 b && decide (tb ≤ o.2.toNat + 20000000000))

/-- SESSION_OPEN (R452). -/
def cmdSessionOpen : Body := fun p w =>
  w.need w.hasIdentity sLocked <| w.need (isEth p && opensSession 0x0A41 p && w.openFields (pktBody p)) sBadParam <|
  w.drbg (.pend w 0)

/-- A session identifier that is not 0 and that neither an open session nor a pending command of an ended one has. -/
def W.freeId (w : W) (x : Nat) : Nat → Nat
  | 0 => x
  | n + 1 =>
    if x = 0 ∨ (w.dev.images.session x).isSome ∨ w.owed (16 + x) ≠ 0 then w.freeId ((x + 1) % 2 ^ 32) n else x

/-- The session opens: its final reply carries the new session's tag (R452). (DESIGN CHOICE: assumption 104.) -/
def W.openSession (w : W) (q : Pend) (key : List Byte) : W :=
  let b := pktBody q.pkt
  let (n, w) := (w.cryptoUse key b).draw
  let id := w.freeId ((Config.freeWord n).toNat % 2 ^ 32) 64
  let tb := w.dev.clock.tb
  let mac := match q.pkt.src with
    | .eth m _ => m.val
    | _ => 0
  let ses : Session := { id := w32 id, key := key, till := tb + w64 ((wordAt b 4).toNat * 1000000000), accepted := 0,
                         mac := BitVec.ofNat 8 mac }
  let w := w.upd fun d =>
    { d with images := { d.images with
               sessions := d.images.sessions ++ [ses],
               opens := d.images.opens.filter (fun o => decide (tb.toNat ≤ o.2.toNat + 20000000000)) ++ [(sha256 b, tb)] } }
  let w := w.upd fun d => d.onCmdSrc (16 + id) fun _ => { expect := some 0 }
  let r := w.mkReply q.pkt q.opc sDone true (le 4 id)
  let r := { r with result := le 4 id ++ hmac ses.repKey (r.head 36 ++ le 4 id) }
  (w.dropPend q).deliver (srcKey q.pkt) r

/-- SESSION_OPEN_COMPLETE (R452): the checks in order, for the oldest pending SESSION_OPEN; its identifier needs the DRBG (R455).
(DESIGN CHOICE: assumption 104.) -/
def execSessionOpenComplete (s : State) : Host.Outcome State Fault Refusal :=
  run s fun w =>
    match w.pendsOf 0x0A41 0 with
    | [] => w
    | q :: _ =>
      let b := pktBody q.pkt
      let own := w.fuse.identity.getD 0
      let key := rsaUnwrap (recModulus own) (recPrivate own) (slice b 0x20 0x180)
      if w.openFields b = false then w.finish q sBadParam []
      else if sha256 (slice b 0x1A0 0x184) ≠ w.fuse.custHash then w.finish q sAuthFail []
      else if rsaOk (slice b 0x1A0 0x180) (slice b 0x320 4) (slice b 0x340 0x180) (b.take 0x340) = false then
        w.finish q sSignatureBad []
      else match key with
        | none => w.finish q sAuthFail []
        | some k =>
          if k.length ≠ 32 then w.finish q sAuthFail []
          else if 4 ≤ w.dev.images.sessions.length then w.finish q sNoResource []
          else if w.dev.images.entropyFail then w.internal.finish q sInternalFault []
          else w.openSession q k

/-- A session ends after its next reply (R454). -/
def W.closing (w : W) (id : Word32) : W :=
  w.onImg fun i => { i with sessions := i.sessions.map (fun x => if x.id = id then { x with accepted := 60000 } else x) }

/-- SESSION_CLOSE (R454): a session that closes itself ends after its reply. -/
def cmdSessionClose : Body := fun p w =>
  let id := pw p 0
  w.need (w.dev.images.session id.toNat).isSome sBadParam <|
  if srcKey p = 16 + id.toNat then
    (w.closing id).ok
  else (w.endSession id).ok

/-- SESSION_STATUS. -/
def cmdSessionStatus : Body := fun _ w =>
  let tb := w.dev.clock.tb.toNat
  w.ok (w.dev.images.sessions.flatMap fun x =>
    le 4 x.id.toNat ++ le 4 ((x.till.toNat - tb + 999999999) / 1000000000) ++ le 4 x.accepted ++ le 4 x.mac.toNat)

/-- SESSION_EXPIRY (R454). -/
def execSessionExpiry (id : Word32) (s : State) : Host.Outcome State Fault Refusal :=
  run s fun w =>
    match w.dev.images.session id.toNat with
    | some x => (w.upd fun d => d.advanceTb x.till.toNat).endSession id
    | none => w

/-- ENTROPY_FAIL (R455): the health tests begin to fail, or pass again. -/
def execEntropyFail (failing : Bool) (s : State) : Host.Outcome State Fault Refusal :=
  run s fun w =>
    let w := w.onImg fun i => { i with entropyFail := failing }
    if failing then w.level 0x344 0 0 else w.inactive 0x344

end Sys2Proof.Machine
end

