-- ==== Sys2Proof/Machine/LaneCmds.lean ====
section
/-! DEFINITION. The lane commands (R113 to R118), the hearth reset (R33), the start-up test's end (R334), and the
basting commands (R340, R341). -/

namespace Sys2Proof.Machine

/-- LANE_STATUS (R114). -/
def cmdLaneStatus : Body := fun p w =>
  let u := (pw p 0).toNat
  w.need (decide (u ≤ 16)) sBadParam <|
  w.ok (wordsLe ((if u < 16 then [w.lanePack u 0 10, w.lanePack u 10 3] else [w.lanePack 16 0 4, 0]) ++
    (List.range 4).map (fun k => if u < 16 then (w.dev.seam (4 * u + k)).stat else if k = 0 then (w.dev.seam 64).stat else 0) ++
    (List.range 13).map fun l => if l < lanesOf u then (w.laneAt u l).cnt else 0))

/-- Lane `l` belongs to the only TMR core of the hearth while the patch lane is not SPARE (R115). -/
def W.lastTmr (w : W) (h l : Nat) : Bool :=
  (w.laneAt h 12).st != .spare &&
  match w.seat h l with
  | some (k, _) => (coresOf h).all fun c => c == k || (w.dev.seam c).shown != SeamMode.tmr
  | none => false

/-- LANE_FENCE (R115). -/
def cmdLaneFence : Body := fun p w =>
  let h := fld (pw p 0) 0 4
  let l := fld (pw p 0) 4 4
  w.need (decide ((pw p 0).toNat < 256)) sBadParam <|
  match w.fenceCheck h l with
  | some .state => w.fail sBadParam
  | some .core => w.fail sConflict
  | none =>
    w.need (!w.lastTmr h l) sConflict <|
    let key := laneKey h l + 256 * (match w.seat h l with | some (k, _) => k + 1 | none => 0)
    .pend w key fun w => w.fence h l 6

/-- LANE_RETEST (R116). -/
def cmdLaneRetest : Body := fun p w =>
  let h := fld (pw p 0) 0 4
  let l := fld (pw p 0) 4 4
  let st := (w.laneAt h l).st
  w.need (decide ((pw p 0).toNat < 256) && decide (l < 13) && (st == .fenced || st == .failed)) sBadParam <|
  .pend w (laneKey h l) fun w => w.retest h l

/-- The lanes that a CORE_RESTART of core `k` tests (R117): its home lanes that are not FAILED, and the patch lane where it
was mapped to the core. -/
def W.restartLanes (w : W) (k : Nat) : List Nat :=
  let u := unitOf k
  let homes := (List.range (patchOf u)).filter fun l => homeCore u l == k && (w.laneAt u l).st != .failed
  if (w.seat u (patchOf u)).map (·.1) = some k then homes ++ [patchOf u] else homes

/-- Level sources that a hearth keeps active for halted cores end where no reported core remains; a STAGE_STALL that a router
stage reported goes on (R531). -/
def W.endReports (w : W) (h : Nat) : W :=
  w.each ([4, 5, 6] : List Nat) fun i w =>
    let s := laneSrc h i
    if w.active s && !(i == 6 && bitAt w.dev.flue.routed h) && (coresOf h).all fun k => (w.dev.seam k).reported != some s then w.inactive s else w

/-- The work of CORE_RESTART: a core reset, and the test of its lanes; a rotation slice of one of them is aborted (R329). -/
def W.startRestart (w : W) (k : Nat) : W :=
  let u := unitOf k
  let ls := w.restartLanes k
  let w := (w.coreReset k).upd fun d => d.onSeam k fun s =>
    { s with a := none, b := none, c := none, mode := .halted, cause := 0, rethread := none, reported := none }
  let w := match w.sliceOut u k with
    | some l => (w.abortSlice u l).testRecord u l 2
    | none => w
  let w := w.each ls fun l w => w.laneTest u l .restart
  let w := if k < 64 then w.endReports u else w
  if ls.isEmpty then w.placeLanes k true else w

/-- CORE_RESTART (R117). -/
def cmdCoreRestart : Body := fun p w =>
  let k := (pw p 0).toNat
  w.need (decide (k < 64) && (w.dev.seam k).shown == .halted) sBadParam <| .pend w k fun w => w.startRestart k

/-- The hearth may be reset (R118). (DEDUCED: assumption 105.) -/
def W.mayResetHearth (w : W) (h : Nat) : Bool :=
  let m := w.dev.sys.mode
  !(m == .run || m == .runReduced || m == .maintain) || (w.dev.flue.holds.get? h).isSome ||
  !((List.range 4).any (fun j => bitAt (w.reg 6 0 (0x2000 + 4 * (4 * h + j))) 0) ||
    (!(w.plan h (bitAt (w.hreg h 0x600) 0)).entries.isEmpty && (w.dev.blw h).phase != .stopped))

/-- The identity is one of the hearth's requesters (R381). -/
def W.ofHearth (w : W) (h : Nat) (m : Rid) : Bool :=
  ridPos m == w.dev.chim.pos.toNat &&
  ((ridClass m == 0 && ridIndex m / 4 == h) || (ridClass m == 2 && ridIndex m / 16 == h) || (ridClass m == 3 && ridIndex m == h))

/-- A hearth reset (R33): the fields of HEARTH_h and of its cores and lanes; fence counts, spares and rows pending
repair stay (R108, R203). (DEDUCED: assumption 105.) -/
def W.resetHearth (w : W) (h : Nat) : W :=
  let w := (w.stopOne h).dropRequesters (w.ofHearth h)
  let w := (w.each (coresOf h) fun k w => (w.clearCore k).upd fun d => d.onSeam k fun _ => {}).resetHearthRegs h
  let w := w.upd fun d =>
    let d := (List.range 13).foldl (fun d l => d.onLane (laneKey h l) fun x =>
      { x with st := .fenced, test := .repair, wasFailed := false }) d
    let d := d.onLaneUnit h fun x =>
      { x with cmdState := 0, cmdLane := 0, exhausted := false, cmdFence := none, retestDue := [], waiting := [] }
    let d := d.onBlw h fun _ => {}
    let d := d.onHob h fun x => { pendRows := x.pendRows, rowsFree := x.rowsFree, colsFree := x.colsFree }
    let d := d.onBu h fun x => { x with cur := none, late := false, segs := none, segsDone := x.segs.getD x.segsDone }
    let d := d.onCutStat h fun _ => {}
    { d with images := { d.images with loaded := setBit d.images.loaded h false },
             flue := { d.flue with routed := setBit d.flue.routed h false } }
  let w := w.each ([laneSrc h 4, laneSrc h 5, laneSrc h 6, laneSrc h 7, 0x1A0 + h, 0x240 + h] : List Nat) fun s w =>
    if w.active s then w.inactive s else w
  w.wdtHeld.settleRun

/-- HEARTH_RESET (R118). -/
def cmdHearthReset : Body := fun p w =>
  let h := (pw p 0).toNat
  w.need (decide (h < 16)) sBadParam <| w.need (w.mayResetHearth h) sLocked <| .pend w h fun w => w.resetHearth h

/-- STARTUP_TEST_COMPLETE (R334, R118, R444): in KINDLE, or for a HEARTH_RESET, whose hearth is loaded and whose cores
start as the mode allows. -/
def execStartupTestComplete (h : HearthId) (r : StartupResult) (s : State) : Host.Outcome State Fault Refusal :=
  run s fun w =>
    let h := h.val
    if w.dev.sys.mode = .kindle then
      if bitAt w.dev.sys.tested h || w.dev.sys.kindleErr != 0 || !([3, 4] : List Nat).all w.dev.sys.stepsDone.contains then w
      else (w.startupTest h r).upd fun d =>
        let t := setBit d.sys.tested h true
        { d with sys := { d.sys with tested := t, stepsDone := if t = 0xFFFF then 6 :: d.sys.stepsDone else d.sys.stepsDone } }
    else if (w.pendsOf 0x0307 h).isEmpty then w
    else
      let w := (w.startupTest h r).loadHearth h
      let w := w.each (coresOf h) fun k w => if w.dev.sys.mode.coresRun && w.canStart k then w.startCore k else w
      (w.finishAll 0x0307 h sDone (le 4 (bitAt w.dev.sys.avail h).toNat)).settleRun

/-- BASTE_STATUS (R340). -/
def cmdBasteStatus : Body := fun _ w =>
  w.ok (wordsLe ([w.reg 14 0 0x20, w.reg 14 0 0x24, w.dev.baste.scanStat, w.dev.baste.rseq, w.overdueWord] ++
    (List.range 17).map w.hstat))

/-- BASTE_RESULTS (R340): the records are kept newest first. -/
def cmdBasteResults : Body := fun p w =>
  let n := (pw p 1).toNat
  let b := w.dev.baste
  w.need (decide (n ≤ 64)) sBadParam <| w.need (n != 0) sDoneEmpty <|
  let rs := ((b.results.take (seqSpan b.rseq (pw p 0) b.results.length)).reverse).take n
  w.ok (rs.flatMap fun r => wordsLe r.words)

/-- BASTE_NOW (R341). -/
def cmdBasteNow : Body := fun p w =>
  let u := (pw p 0).toNat
  w.need (decide (u ≤ 16) && w.basteOn u) sBadParam <|
  match w.turn u with
  | .defer => w.fail sLocked
  | t => .pend w u fun w => (w.bellowsTurn u).takeTurn u t

/-- SCAN_OPEN (R338): step 1. -/
def cmdScanOpen : Body := fun _ w =>
  w.need (w.grantOn 1 15 (some 0)).isSome sNotGranted <|
  w.need (w.lifecycle == 0 || w.lifecycle == 3) sLocked <|
  .pend w 0 fun w => ((w.upd fun d => { d with baste := { d.baste with scanHold := true } }).each (List.range 64)
    fun k w => w.coreReset k).stopBellows

/-- The volatile copies of secrets are zeroised (R338): the session keys, the key and operand registers of the crypto engine,
the state of the DRBG, and the region of the Stoker hob that holds them. (DESIGN CHOICE: assumption 104.) -/
def W.zeroise (w : W) : W :=
  let lo := Config.secretRegion.1 % hobSize 16
  (w.endSessions.clearHob (hobBase 16 + lo) (min Config.secretRegion.2 (hobSize 16 - lo))).upd fun d =>
    { d with images := { d.images with cryptoKey := [], cryptoOperand := [], drbgState := [] } }

/-- SCAN_OPEN_COMPLETE (R338): steps 2 to 4. (DESIGN CHOICE: assumption 104.) -/
def execScanOpenComplete (s : State) : Host.Outcome State Fault Refusal :=
  run s fun w =>
    match w.pendsOf 0x0E10 0 with
    | [] => w
    | q :: _ =>
      let w := w.zeroise.upd fun d =>
        { d with baste := { d.baste with scanOpen := true, pathOff := true, zeroised := true } }
      (w.raise 0x0F3 0 0).finish q sDone []

end Sys2Proof.Machine
end

