-- ==== Sys2Proof/Machine/Thimble.lean ====
section
/-! DEFINITION. The Thimble's kernel: records and the chain (R409 to R415), signing (R413, R414), its boot and its
restarts (R400 to R404), the parameter store (R417, R418), the gate's transport (R421, R434) and the notices (R430). -/

namespace Sys2Proof.Machine

/-- Change the Thimble. The time for which its record engine has waited passes in the device as well (R409), and a new record
raises THM_RECORD in every core (R159). -/
def W.onThm (w : W) (f : Thimble → Thimble) : W :=
  let n := w.upd fun d =>
    let t := f d.thm
    let dt := t.time.toNat - d.thm.time.toNat
    { d.advance dt with thm := if dt = 0 then t else { t with time := d.thm.time }.tick dt }
  if w.isM && n.dev.thm.powered && n.dev.thm.last != w.dev.thm.last then n.each (List.range 65) fun k w => w.interrupt k 59 else n

/-- The status page is rewritten (R426). -/
def W.thmPage (w : W) : W :=
  let ws := w.thmWords (w.dev.thm.pageSeq + 2)
  w.onThm fun t => { t with pageSeq := t.pageSeq + 2, page := ws }

/-- Raise or end a level notice by its condition (R430). -/
def W.notice (w : W) (k d1 : Nat) : W :=
  if w.noticeOn k then w.level (0x300 + k) w.thmState (w32 d1) else if w.active (0x300 + k) then w.inactive (0x300 + k) else w

/-- The level notices that follow the Thimble's state, as the Flue of a powered device sees them. -/
def W.notices (w : W) : W :=
  let t := w.dev.thm
  if w.isM = false ∨ w.dev.sys.mode = .off then w
  else
    (((((w.notice 0 0).notice 1 t.refKHz.toNat).notice 3 w.fuse.audit).notice 4 t.unacked).notice 5 t.unacked).notice 11 w.auditLeft

/-- Raise an event notice. -/
def W.noticeEvent (w : W) (k d1 : Nat) : W :=
  if w.dev.sys.mode = .off then w else w.raise (0x300 + k) w.thmState (w32 d1)

/-- The log is full: every record it holds is unacknowledged (R415). -/
def Thimble.logFull (t : Thimble) : Bool := decide (16384 ≤ t.unacked)

/-- The bytes of a record (R410). -/
def ThmRec.bytes (r : ThmRec) : List Byte := wordsLe r.words

/-- Start a signing (R413): it covers the newest record; none starts while the log is full (R415). -/
def Thimble.startSigning (t : Thimble) : Thimble :=
  if t.logFull ∨ t.st = .halted then t
  else { t with signing := some { rnum := t.last, time := t.time, h := t.head }, signAt := some t.time, signAgain := false,
                unsigned := false }

/-- A trigger of R414: it waits for the signing that runs. -/
def Thimble.trigger (t : Thimble) : Thimble := if t.signing.isSome then { t with signAgain := true } else t.startSigning

/-- The creation of a BATCH_CLOSE record triggers a signing, unless the one that its creation has just started covers it
(R414). -/
def Thimble.closeTrigger (t : Thimble) : Thimble := if t.signing.map (·.rnum) = some t.last then t else t.trigger

/-- 1,000 ms have passed since the last signing started. -/
def Thimble.signDue (t : Thimble) : Bool :=
  match t.signAt with
  | some s => decide (s.toNat + 1000000000 ≤ t.time.toNat)
  | none => true

/-- The record engine waits until it has created at most 7 records in the millisecond before (R409).
(DESIGN CHOICE: assumption 173.) -/
def Thimble.pace (t : Thimble) : Thimble :=
  match t.log.reverse[7]? with
  | some r => if t.time.toNat < r.time.toNat + 1000000 then { t with time := r.time + 1000000 } else t
  | none => t

/-- The record engine makes a record (R409, R410, R412); none while the log is full. -/
def Thimble.record (t : Thimble) (ty point : Byte) (fw : Bool) (flags : BitVec 6) (ps : List Word32) : Thimble :=
  if t.logFull then t
  else
    let t := t.pace
    let r : ThmRec :=
      { rnum := t.last + 1, time := t.time, batch := t.batch, ps := ps,
        info := w32 (ty.toNat + at_ point.toNat 8 + at_ t.sealOpen.toNat 16 + at_ fw.toNat 17 + at_ flags.toNat 18),
        tag := wordAt t.chain 0, prev := if ty = 1 then List.replicate 16 0 else t.head.take 16 }
    let before := if ty = 1 then List.replicate 32 0 else t.head
    let t := { t with last := r.rnum, head := sha256 (before ++ r.bytes),
                      log := (if t.log.length < 16384 then t.log else t.log.drop 1) ++ [r] }
    let t := t.ringPut r
    if ty = 7 then t
    else
      let t := { t with unsigned := true }
      if t.signing.isNone ∧ t.signDue then t.startSigning else t

/-- A record of the kernel's own. -/
def Thimble.kernelRecord (t : Thimble) (ty : Byte) (ps : List Word32) (point : Byte := 0xFF) (flags : BitVec 6 := 0) : Thimble :=
  t.record ty point false flags ps

/-- Words of bytes. -/
def byteWords (bs : List Byte) (n : Nat) : List Word32 := (List.range n).map fun i => padWord bs (4 * i)

/-- The state that the points and the lot give a running firmware (R402). -/
def Thimble.settle (t : Thimble) : Thimble :=
  if t.st = .idle ∨ t.st = .measuring ∨ t.st = .batch then
    { t with st := if t.batch ≠ 0 then .batch else if t.points ≠ 0 then .measuring else .idle }
  else t

/-- GATE_REQ of a request. -/
def GateReq.word (g : GateReq) : Word32 := w32 (g.code.toNat + at_ g.tag.toNat 8 + at_ g.sub.toNat 16)

/-- The answer of a request becomes visible (R421): in the mailbox, and in THMG where the request is still watched. A request
that waits is passed next. -/
def W.publish (w : W) (result : Byte) (rnum : Word32) : W :=
  match w.dev.thm.gate with
  | none => w
  | some g =>
    let w := w.onThm fun t =>
      { t with gate := t.gateNext, gateNext := none, before := none, resp := w32 (result.toNat + at_ g.code.toNat 8 + at_ g.tag.toNat 16), respRnum := rnum,
               gateStat := if g.watched then w32 (2 + at_ g.tag.toNat 8 + at_ result.toNat 16 + at_ g.code.toNat 24) else t.gateStat,
               gateRnum := if g.watched then rnum else t.gateRnum }
    if g.watched then w.finishAll 0x0B02 0 sDone (le 4 (result.toNat + at_ g.code.toNat 8) ++ le 4 rnum.toNat) else w

/-- The request in the gate ends with TIMEOUT, unless its answer waits to be published (R421). -/
def W.endRequest (w : W) : W :=
  match w.dev.thm.gate with
  | some { answer := some (r, n), .. } => w.publish r n
  | some _ => w.publish 0x0A 0
  | none => w

/-- A restart ends every pending request (R421). -/
def W.endGate (w : W) : W := w.endRequest.endRequest

/-- Step 4 of R400: the slot that may run. -/
def W.pickSlot (w : W) : W :=
  let p := fun (v : Nat) => v == w.dev.thm.version.toNat
  let a := w.thmSlotOk false p
  let b := w.thmSlotOk true p
  let f := w.dev.images.flash
  let w := w.onThm fun t =>
    { t with imageOk := a || b, slotB := !a && b, fallback := !a && b, imgDigest := if a || b then (f.thmSlot (!a && b)).digest else [] }
  if !a && b then w.noticeEvent 9 w.dev.thm.version.toNat else w

/-- Step 5 of R400: a chain is opened with GENESIS (R411, R412). -/
def W.genesis (w : W) (cause : Nat) : W :=
  let (n, w) := w.fresh
  w.onThm fun t =>
    let t := { t with chain := Config.freeBytes n 16 }
    t.kernelRecord 1 (byteWords t.chain 4 ++ [w32 w.fuse.audit, w32 (cause + at_ t.version.toNat 16)])

/-- A self-restart (R403): the third within 60 s halts the Thimble (R402). -/
def W.thmRestart (w : W) (cause : Nat) (key : Bool) : W :=
  let w := w.endGate
  let t := w.dev.thm
  let rs := t.restarts.filter (fun x => decide (t.time.toNat < x.toNat + 60000000000)) ++ [t.time]
  let w := w.onThm fun t => { t with restarts := rs, signing := none, signAgain := false, points := 0, replay := none }
  if 3 ≤ rs.length then (w.onThm fun t => { t with st := .halted }).thmPage.notices
  else
    let w := ((w.onThm fun t => { t with st := .boot }).pickSlot).genesis cause
    let w := w.onThm fun t =>
      let t := if t.batch ≠ 0 then
          ({ t.kernelRecord 6 [t.batch, 0, 0, 0, 0, 0] 0xFF 1 with batch := 0 }).closeTrigger else t
      match key, w.fuse.recordKey with
      | true, some n => t.kernelRecord 13 (byteWords (keyDigest (recModulus n) (recExponent n)) 6)
      | _, _ => t
    w.thmPage.notices

/-- The HMAC of a store copy under store key `k` (R418): over its version, its audit value and its parameters.
(DESIGN CHOICE: assumption 174.) -/
def ThmStore.tag (c : ThmStore) (k : Nat) : List Byte :=
  hmac (Config.freeBytes k 32) (le 2 c.version.toNat ++ le 2 c.audit ++ paramBytes c.params)

/-- One step of the audit counter (R417). -/
def W.auditStep (w : W) : W := { w with fuse := { w.fuse with audit := min (w.fuse.audit + 1) 4095 } }

/-- Write the store copy of flash device `i`. -/
def W.putStore (w : W) (i : Nat) (c : ThmStore) : W :=
  w.upd fun d => { d with images := { d.images with flash := { d.images.flash with store := d.images.flash.store.set i c } } }

/-- The copy of the store that a change writes first: the one with the older audit value (R418). -/
def W.olderStore (w : W) : Nat :=
  let a := fun i => ((w.dev.images.flash.store.get? i).map (·.audit)).getD 0
  if a 1 < a 0 then 1 else 0

/-- A copy of the store as it is written, with its HMAC. -/
def W.storeCopy (w : W) (version : Half) (audit : Nat) (params : Tbl Word32) : ThmStore :=
  let c : ThmStore := { version := version, audit := audit, params := params }
  { c with mac := c.tag (w.fuse.storeKey.getD 0) }

/-- A change of the store (R418): the older copy with audit + 1, the step of the audit counter, and the other copy. -/
def W.storeParams (w : W) (version : Half) (params : Tbl Word32) : W :=
  let i := w.olderStore
  let c := w.storeCopy version (min (w.fuse.audit + 1) 4095) params
  (((w.putStore i c).auditStep).putStore (1 - i) c).onThm fun t => { t with version := version, params := params, storeOk := true }

/-- A copy of the store that is valid: its HMAC verifies, and its audit value is the counter's (R418). -/
def W.validStore (w : W) : Option ThmStore :=
  match w.fuse.storeKey with
  | none => none
  | some k => (w.dev.images.flash.store.rows.map (·.2)).find? fun c => c.audit == w.fuse.audit && c.mac == c.tag k

/-- Power fails in the work of a commit whose answer is not published (R418): after it, in its first write, before the counter
advances, before the other copy is written, or in that write. A copy torn in its write has no HMAC.
(DESIGN CHOICE: assumption 174.) -/
def W.commitCut (w : W) (old : ThmStore) : W :=
  let (n, w) := w.fresh
  let k := (Config.freeWord n).toNat % 5
  let i := w.olderStore
  let prior := w.storeCopy old.version old.audit old.params
  let torn := fun (c : ThmStore) => { c with mac := [] }
  let new := (w.dev.images.flash.store.get? i).getD {}
  if k = 0 then w
  else if k ≤ 2 then
    (({ w with fuse := { w.fuse with audit := old.audit } }).putStore i (if k = 1 then torn new else new)).putStore (1 - i) prior
  else w.putStore (1 - i) (if k = 3 then prior else torn new)

/-- What the loss of THM_RST_N or VCT leaves of the Thimble (R397, R415). -/
def Thimble.lost (t : Thimble) : Thimble :=
  { gateStat := t.gateStat, gateRnum := t.gateRnum, nextTag := t.nextTag, fwd := t.fwd }

/-- THM_RESET (R400): THM_RST_N is released, or VCT comes into range: steps 1 to 5 of the boot, and the store key at the first
one (R418). -/
def execThmReset (s : State) : Host.Outcome State Fault Refusal :=
  runFuse s fun w =>
    if w.isM = false ∨ w.dev.thm.powered then w
    else
      let w := match w.fuse.storeKey with
        | some _ => w
        | none =>
          let (n, w) := w.fresh
          { w with fuse := { w.fuse with storeKey := some n } }
      let lc := BitVec.ofNat 3 w.lifecycle
      let w := w.onThm fun t => { t.lost with powered := true, lifecycle := lc }
      if lc = 4 then (w.onThm fun t => { t with st := .halted }).notices
      else
        let w := match w.validStore with
          | some c => w.onThm fun t => { t with version := c.version, params := c.params, storeOk := true }
          | none => w
        ((w.pickSlot).genesis 0).thmPage.notices

/-- THM_BOOT_COMPLETE (R400 step 6). Where the tests of step 1 have failed, the boot has come no further: the Thimble stays in
BOOT with no chain, and its mailbox reads 0. (DESIGN CHOICE: assumption 175.) -/
def execThmBootComplete (r : ThmBoot) (s : State) : Host.Outcome State Fault Refusal :=
  run s fun w =>
    let t := w.dev.thm
    if t.powered ∧ t.st = .boot ∧ r.ok then
      let st : ThmSt := if t.lifecycle = 0 then .noImage else if t.storeOk = false then .noStore
        else if t.imageOk = false then .noImage else .idle
      (w.onThm fun t => ({ t with st := st, up := true }).settle).thmPage.notices
    else if t.powered ∧ t.st = .boot then
      (w.onThm fun t => { t.lost with powered := true, lifecycle := t.lifecycle, time := t.time }).notices
    else w

/-- THM_RST_N_LOW (R397, R415, R418, R421): the Thimble stops. -/
def execThmRstNLow (s : State) : Host.Outcome State Fault Refusal :=
  runFuse s fun w =>
    if w.dev.thm.powered then
      let w := match w.dev.thm.before with
        | some old => w.commitCut old
        | none => w
      (w.endGate.onThm Thimble.lost).notices
    else w

/-- Self-restarts in the last 60 s. -/
def Thimble.recentRestarts (t : Thimble) : Nat := (t.restarts.filter fun x => decide (t.time.toNat < x.toNat + 60000000000)).length

/-- THM_LANE_HALT (R403). -/
def execThmLaneHalt (s : State) : Host.Outcome State Fault Refusal :=
  run s fun w =>
    if w.dev.thm.powered ∧ w.dev.thm.st ≠ .halted then (w.noticeEvent 6 w.dev.thm.recentRestarts).thmRestart 1 false else w

/-- THM_KERNEL_WATCHDOG (R411). -/
def execThmKernelWatchdog (s : State) : Host.Outcome State Fault Refusal :=
  run s fun w => if w.dev.thm.powered ∧ w.dev.thm.st ≠ .halted then w.thmRestart 3 false else w

/-- THM_HEARTBEAT_TIMEOUT (R434): no heartbeat for 10 ms from a kernel that does not run. -/
def execThmHeartbeatTimeout (s : State) : Host.Outcome State Fault Refusal :=
  run s fun w => if w.dev.thm.serves then w else (w.onThm fun t => { t with up := false }).notices

/-- LIFECYCLE_SENSED (R404). -/
def execLifecycleSensed (s : State) : Host.Outcome State Fault Refusal :=
  run s fun w =>
    if w.dev.thm.powered then
      let lc := BitVec.ofNat 3 w.lifecycle
      (w.onThm fun t => { t with lifecycle := lc, st := if lc = 4 then .halted else t.st,
                                 signing := if lc = 4 then none else t.signing }).thmPage.notices
    else w

/-- A SEAL record (R411). -/
def Thimble.sealRecord (t : Thimble) (audit : Nat) : Thimble :=
  t.kernelRecord 8 ([w32 (t.sealOpen.toNat + 2 * t.sealCommit.toNat), w32 audit] ++ byteWords t.paramDigest 4)

/-- SEAL_OPENED (R416). -/
def execSealOpened (s : State) : Host.Outcome State Fault Refusal :=
  run s fun w =>
    if w.dev.thm.powered ∧ w.dev.thm.st ≠ .halted ∧ w.dev.thm.sealOpen = false then
      (w.onThm fun t => ({ t with sealOpen := true, sealCommit := false }).sealRecord w.fuse.audit).thmPage.notices
    else w

/-- SEAL_CLOSED (R416, R419): entries still staged are discarded. -/
def execSealClosed (s : State) : Host.Outcome State Fault Refusal :=
  run s fun w =>
    if w.dev.thm.powered ∧ w.dev.thm.st ≠ .halted ∧ w.dev.thm.sealOpen then
      (w.onThm fun t => ({ t with sealOpen := false, staged := [] }).sealRecord w.fuse.audit).thmPage.notices
    else w

/-- One bit into a sinc³ decimator by `r` (R406): the integrators and the run length. -/
def ThmInput.bit (i : ThmInput) (b inv : Bool) : ThmInput :=
  let x : Int := if b != inv then 1 else -1
  let a := i.ints.getD 0 0 + x
  let c := i.ints.getD 1 0 + a
  let e := i.ints.getD 2 0 + c
  { i with ints := [a, c, e], run := if b = i.runBit then min (i.run + 1) 1024 else 1, runBit := b,
           stuck := i.stuck || (b == i.runBit && decide (1024 ≤ i.run + 1)) }

/-- The combs take the integrators' value and the FIR line the result. -/
def ThmInput.comb (i : ThmInput) : ThmInput :=
  let v := i.ints.getD 2 0
  let c1 := v - i.combs.getD 0 0
  let c2 := c1 - i.combs.getD 1 0
  let c3 := c2 - i.combs.getD 2 0
  { i with combs := [v, c1, c2], fir := (c3 :: i.fir).take 64 }

/-- A quotient rounded to the nearest integer; how a tie rounds is a free value (R406). -/
def roundDiv (n d : Int) : Int :=
  let q := (2 * n + d) / (2 * d)
  if (2 * n + d) % (2 * d) = 0 ∧ Config.firTieUp = false then q - 1 else q

/-- The signed value of a 24-bit tap. (DESIGN CHOICE: assumption 48.) -/
def tap24 (v : Word32) : Int := (BitVec.ofNat 24 (fld v 0 24)).toInt

/-- The FIR output of an input (R406): coefficient set, decimation `r`. -/
def ThmInput.output (i : ThmInput) (taps : Nat → Int) (r : Nat) : ThmInput :=
  let s := (List.range 64).foldl (fun a k => a + taps k * i.fir.getD k 0) 0
  let y := roundDiv s ((r : Int) ^ 3)
  let m : Int := 2 ^ 23 - 1
  { i with sample := BitVec.ofInt 24 (max (-m) (min m y)), clip := decide (y > m ∨ y < -m) }

/-- THM_MCLK_k runs (R405, R509): the firmware runs, and an input of the group is enabled; else it is held low. -/
def Thimble.mclk (t : Thimble) (k : Nat) : Bool := t.fwRuns && (List.range 12).any fun j => bitAt (t.params.getD (0x10 + 12 * k + j) 0) 12

/-- THM_SAMPLE (R405, R406): the bits of two decimation periods of the group's clock make one sample. -/
def execThmSample (i : Fin 48) (bits : List Bool) (s : State) : Host.Outcome State Fault Refusal :=
  run s fun w =>
    let t := w.dev.thm
    let c := t.params.getD (0x10 + i) 0
    let r := fld c 0 12
    if t.mclk (i / 12) ∧ t.refLost = false ∧ bitAt c 12 ∧ 0 < r ∧ bits.length = 2 * r then
      let x := { w.dev.thmIn i with stuck := (w.dev.thmIn i).run == 1024 }
      let was := x.stuck
      let half := fun (x : ThmInput) (bs : List Bool) => (bs.foldl (fun x b => x.bit b (bitAt c 13)) x).comb
      let x := half (half x (bits.take r)) (bits.drop r)
      let hit := x.stuck
      let x := x.output (fun k => tap24 (t.params.getD ((if bitAt c 14 then 0xC0 else 0x80) + k) 0)) r
      let x := { x with stuck := x.run == 1024, valid := x.run != 1024 }
      let w := w.upd fun d => d.onThmIn i fun _ => x
      if hit && !was then w.noticeEvent 7 i else w
    else w

/-- PULSE_EDGE (R407): the row carries an edge of the polarity that bit [9] selects and the time since the counted edge before
it, in units of 10 ns. A pulse within a period shorter than FILTER is dropped, and more than 2^32 − 2 units, by the row or by
THM_TIME, read 0xFFFF_FFFF. (DESIGN CHOICE: assumption 9.) -/
def execPulseEdge (j : Fin 16) (period : Word32) (s : State) : Host.Outcome State Fault Refusal :=
  run s fun w =>
    let t := w.dev.thm
    let c := t.params.getD (0x40 + j) 0
    if t.serves ∧ bitAt c 8 ∧ fld c 0 8 ≤ period.toNat then
      let gone := match t.pulseAt.get? j with
        | some a => (t.time.toNat - a.toNat) / 10
        | none => 0
      w.onThm fun t => { t with
        pulses := t.pulses.set j ((t.pulses.getD j (0, 0)).1 + 1, if 2 ^ 32 - 2 < gone then 0xFFFFFFFF else period),
        pulseAt := t.pulseAt.set j t.time }
    else w

/-- The payload words. -/
def payloadWords (p : Payload) : List Word32 := [p.p0, p.p1, p.p2, p.p3, p.p4, p.p5]

/-- RECORD_SUBMIT (R409, R415, R430). -/
def execRecordSubmit (ty point : Byte) (flags : BitVec 6) (ps : Payload) (s : State) : Host.Outcome State Fault Refusal :=
  run s fun w =>
    let t := w.dev.thm
    let measure := ty == 2 || ty == 3
    let refused := measure && (t.inhibit || t.refLost)
    if t.fwRuns ∧ (measure || ty == 11) ∧ (decide (point.toNat < 32) || point == 0xFF) ∧ !refused then
      (w.onThm fun t => t.record ty point true flags (payloadWords ps)).thmPage.notices
    else w

/-- SIGNING_TIMER (R414). -/
def execSigningTimer (s : State) : Host.Outcome State Fault Refusal :=
  run s fun w =>
    let t := w.dev.thm
    match t.signAt with
    | some a =>
      if t.powered ∧ t.unsigned ∧ t.signing.isNone ∧ t.st ≠ .halted then
        ((w.upd fun d => d.advance (a.toNat + 1000000000 - t.time.toNat)).onThm Thimble.startSigning).thmPage
      else w
    | none => w

/-- SIGNING_COMPLETE (R413, R414). -/
def execSigningComplete (s : State) : Host.Outcome State Fault Refusal :=
  run s fun w =>
    let t := w.dev.thm
    match t.signing with
    | none => w
    | some g =>
      if t.powered = false ∨ t.st = .halted then w
      else if t.logFull then w.onThm fun t => { t with signing := none }
      else
        let block := le 4 0x47534854 ++ le 4 g.rnum.toNat ++ t.chain ++ le 8 g.time.toNat ++ g.h
        let real := w.fuse.recordKey.isSome && t.lifecycle != 3
        let (n, w) := w.fresh
        let e : SigEntry := { block := block, sig := if real then ownSign (w.fuse.recordKey.getD 0) n block else List.replicate 384 0 }
        let i := t.sigCount % 64
        let w := w.onThm fun t =>
          let t := { t with table := t.table.set i e, sigCount := t.sigCount + 1, signing := none, signed := g.rnum }
          let t := t.kernelRecord 7 [w32 i, g.rnum, w32 (!real).toNat, w32 w.fuse.audit, 0, 0]
          let t := { t with sigs := (t.sigs ++ [(t.last, e)]).drop (t.sigs.length + 1 - 1024) }
          if t.signAgain then t.startSigning else t
        w.thmPage.notices

/-- A write of GATE_GO (R434); a request from before a reset of THMG is answered first (R421). -/
def W.gateGo (w : W) (v : Word32) : W :=
  let t := w.dev.thm
  if bitAt v 0 ∧ t.up ∧ bitAt t.gateStat 0 = false then
    let q := w.reg 17 0 0x20
    let g : GateReq := { code := BitVec.ofNat 4 (fld q 0 4), tag := BitVec.ofNat 8 (fld q 8 8),
                         sub := BitVec.ofNat 16 (fld q 16 16), arg := w.reg 17 0 0x24 }
    w.onThm fun t =>
      let t := if t.gate.isSome then { t with gateNext := some g } else { t with gate := some g }
      { t with gateStat := setBit t.gateStat 0 true }
  else w

/-- The answer of the request in the gate waits to be published. -/
def W.gateAnswer (w : W) (result : Byte) (rnum : Word32) : W :=
  (w.onThm fun t => { t with gate := t.gate.map fun g => { g with answer := some (result, rnum) } }).thmPage.notices

/-- GATE_ANSWER (R421). -/
def execGateAnswer (s : State) : Host.Outcome State Fault Refusal :=
  run s fun w =>
    match w.dev.thm.gate with
    | some { answer := some (r, n), .. } => (w.publish r n).thmPage
    | _ => w

/-- GATE_TIMEOUT (R421). -/
def execGateTimeout (s : State) : Host.Outcome State Fault Refusal :=
  run s fun w =>
    match w.dev.thm.gate with
    | some g => if g.answer.isNone then ((w.publish 0x0A 0).noticeEvent 8 g.word.toNat).thmPage else w
    | none => w

/-- The words of a forwarded slot (R429). -/
def Thimble.forwardWords (t : Thimble) (r : ThmRec) : List Word32 :=
  if r.typ = 7 then r.words ++ byteWords ((t.table.getD ((r.ps.headD 0).toNat % 64) ⟨[], []⟩).sig) 96 else r.words

/-- THM_RECORD_FORWARD (R429). -/
def execThmRecordForward (s : State) : Host.Outcome State Fault Refusal :=
  run s fun w =>
    let t := w.dev.thm
    match t.fwd with
    | none => w
    | some q =>
      let ahead := (t.ringCount - t.fwdNext).toNat
      if w.dev.stoker.serving = false ∨ w.dev.sys.mode = .doze ∨ ahead = 0 then w
      else
        let w := if 3072 < ahead then
            (w.onThm fun t => { t with fwdNext := t.ringCount - 3072 }).noticeEvent 10 (ahead - 3072) else w
        match w.dev.thm.ring.get? (w.dev.thm.fwdNext.toNat % 3072) with
        | none => w
        | some r =>
          let (ok, w) := w.sendPacket w.stokerRid q (w.dev.thm.forwardWords r)
          if ok then w.onThm fun t => { t with fwdNext := t.fwdNext + 1 } else w

end Sys2Proof.Machine
end

