-- ==== Sys2Proof/Machine/PwrCmds.lean ====
section
/-! DEFINITION. The power commands (R473), the Thimble commands (R429, R431 to R433) and FIO_STATUS (R511). -/

namespace Sys2Proof.Machine

/-- PWR_STATUS (R473). -/
def cmdPwrStatus : Body := fun _ w =>
  w.ok (wordsLe [w.reg 4 0 0x20, w.regRead 4 0 0x24, w.reg 4 0 0x28] ++ w.regWords 4 0 [0x2C, 0x30, 0x34])

/-- The contexts that both banks of the hearths of a rail place, which R260 judges before its level is lowered. -/
def W.railCtxs (w : W) (r : Nat) : List (Nat × Nat) :=
  (w.railHearths r).flatMap fun h => w.planCtxs h false ++ w.planCtxs h true

/-- PWR_LEVEL (R96, R260, R467, R473). (DEDUCED: assumption 179.) -/
def cmdPwrLevel : Body := fun p w =>
  let v := pw p 0
  let r := fld v 0 2
  let l := fld v 4 3
  let q := w.dev.power
  w.need (decide (v.toNat < 128 ∧ r ≠ 3 ∧ l ≠ 7 ∧ (r ≠ 2 ∨ (3 ≤ l ∧ l ≤ 5))) && !bitAt v 2 && !bitAt v 3) sBadParam <|
  w.need (w.levelOk r (q.bound r) l) sConflict <|
  w.readCtxs (if r ≠ 2 ∧ l < q.bound r then w.railCtxs r else []) fun w =>
  w.need (r == 2 || decide (q.bound r ≤ l) || w.mayLower r l) sScheduleOverrun <|
  if q.level r = l ∧ q.transit r = false then w.ok (le 4 l)
  else
    let w := if r ≠ 2 ∧ l < q.bound r then w.markStandby r l else w
    .pend w r fun w => w.targetLevel r l

/-- The domain of word 0: 0 to `top`, and no reserved bit above `bits`. -/
def W.domPre (w : W) (p : Packet) (bits : Nat) (k : Nat → Res) : Res :=
  w.need (decide ((pw p 0).toNat < 2 ^ bits ∧ fld (pw p 0) 0 8 < 244)) sBadParam <| k (fld (pw p 0) 0 8)

/-- PWR_VOTE (R461, R473): a domain that this device lacks behaves as fused off (R12).
(DEDUCED: assumptions 87, 127.) -/
def cmdPwrVote : Body := fun p w =>
  w.domPre p 9 fun n =>
    if w.hasDomain n = false then w.ok (le 4 0)
    else if 241 ≤ n then (w.vote w.stokerRid n (bitAt (pw p 0) 8)).fail sLocked
    else
      let w := w.vote w.stokerRid n (bitAt (pw p 0) 8)
      w.ok (le 4 (w.dev.dom n).st.code)

/-- PAD_RELEASE (R464, R473). -/
def cmdPadRelease : Body := fun p w =>
  let n := (pw p 0).toNat
  w.need (decide (n < 244 ∨ n = 0xFF)) sBadParam <|
  w.need (n == 0xFF || !(w.dev.dom n).padHold || (w.dev.dom n).st == .on) sLocked <|
  w.need (!(w.heldPads n).isEmpty) sDoneEmpty (w.releasePads n).ok

/-- PWR_DOMAIN_STATUS (R473). -/
def cmdPwrDomainStatus : Body := fun p w =>
  w.domPre p 8 fun n => w.ok (w.regWords 4 0 [0x1000 + 4 * n, 0x1400 + 4 * n, 0x1800 + 4 * n])

/-- PWR_COUNT_CLEAR (R473). -/
def cmdPwrCountClear : Body := fun _ w => w.acctClear.ok

/-- THM_STATUS (R431): the status page as one read, 0 while the Thimble is down. -/
def cmdThmStatus : Body := fun _ w =>
  let up := w.dev.thm.powered && w.dev.thm.up
  w.ok ((List.range 16).flatMap fun i => le 4 (if up then (w.mailbox (4 * i)).toNat else 0))

/-- THM_GATE (R432): the Stoker assigns the TAG, counting up. (DESIGN CHOICE: assumption 88.) -/
def cmdThmGate : Body := fun p w =>
  let v := pw p 0
  w.need (fld v 4 12 == 0) sBadParam <|
  w.need w.dev.thm.up sNoResource <|
  let t := w.dev.thm.nextTag
  let w := w.upd fun d => { d with thm := { d.thm with nextTag := t + 1 } }
  .pend w 0 fun w =>
    ((w.setReg 17 0 0x20 (w32 (fld v 0 4 + at_ t.toNat 8 + at_ (fld v 16 16) 16))).setReg 17 0 0x24 (pw p 1)).gateGo 1

/-- THM_FORWARD (R429, R431). -/
def cmdThmForward : Body := fun p w =>
  let v := pw p 0
  let q := fld v 0 12
  let c := (w.dev.queue q).cfg
  let fwd := fun (o : Option Nat) (w : W) => w.upd fun d => { d with thm := { d.thm with fwd := o } }
  w.need (fld v 12 19 == 0) sBadParam <|
  if bitAt v 31 = false then (fwd none w).ok
  else
    w.need (c.mode == .packet && decide (512 ≤ c.floor ∧ 9 ≤ c.tryCells) && q != fld (w.reg 2 0 0x34) 0 12) sConflict <|
    (fwd (some q) (w.upd fun d => d.onQueue q fun x => { x with cfg := { x.cfg with safety := true } })).ok

/-- The Thimble's flash slot runs (R433). -/
def W.slotRuns (w : W) (slot : Bool) : Bool := w.dev.thm.fwRuns && w.dev.thm.slotB == slot

/-- THM_SLOT_ERASE (R433). -/
def cmdThmSlotErase : Body := fun p w =>
  let slot := bitAt (pw p 0) 0
  w.need (decide ((pw p 0).toNat < 2)) sBadParam <|
  w.need (!w.slotRuns slot) sLocked <|
  let (k, w) := w.newJobKey
  .pend w k fun w => w.addJob { dev := slot.toNat, op := .thmErase slot, key := k }

/-- THM_SLOT_WRITE (R433). -/
def cmdThmSlotWrite : Body := fun p w =>
  let slot := bitAt (pw p 0) 0
  let o := (pw p 1).toNat
  let bs := (pktBody p).drop 8
  w.need (decide ((pw p 0).toNat < 2 ∧ o % 4 = 0 ∧ o < 524288 ∧ o + bs.length ≤ 524288)) sBadParam <|
  w.need (!w.slotRuns slot) sLocked <|
  w.need ((List.range bs.length).all fun i =>
    w.dev.images.flash.thm.getD (slot.toNat * 0x80000 + o + i) 0xFF == 0xFF) sBadParam <|
  let (k, w) := w.newJobKey
  .pend w k fun w => w.addJob { dev := slot.toNat, op := .thmWrite slot o bs, key := k }

/-- FIO_STATUS (R511). -/
def cmdFioStatus : Body := fun _ w =>
  w.ok (w.regWords 7 0 ([0x20] ++ (List.range 4).map (fun i => 0x300 + 4 * i) ++ (List.range 4).map fun i => 0x310 + 4 * i) ++
    (List.range 10).flatMap (fun n => le 2 (w.reg 7 0 (0x404 + 8 * n)).toNat) ++
    le 4 (maskOf 10 fun n => bitAt (w.reg 7 0 (0x400 + 8 * n)) 28) ++
    le 4 (maskOf 8 (fun c => w.active (0x3C8 + c)) + at_ (maskOf 4 fun i => w.active (0x3D0 + i)) 8))

end Sys2Proof.Machine
end

