-- ==== Sys2Proof/Machine/LoopCmds.lean ====
section
/-! DEFINITION. The loop commands (R236 to R243). -/

namespace Sys2Proof.Machine

/-- HEARTH of word 0. -/
def loopH (p : Packet) : Nat := fld (pw p 0) 0 4
/-- CONTEXT of word 0. -/
def loopC (p : Packet) : Nat := fld (pw p 0) 4 8

/-- What every loop command checks first (R236): reserved bits of word 0, of which the low `bits` are defined, and the
hearth; a command that writes registers of HEARTH_h also whether the block is claimed or dirty.
(DEDUCED: assumption 74.) -/
def W.loopPre (w : W) (p : Packet) (bits : Nat) (writes : Bool) (k : Res) : Res :=
  let h := loopH p
  w.need (decide ((pw p 0).toNat < 2 ^ bits)) sBadParam <|
  w.need (bitAt w.dev.sys.avail h) sNoResource <|
  w.need (!(writes && w.claimed 16 h)) sLocked <|
  w.need (!(writes && (w.dev.commit (blockBase 16 h)).dirty)) sConflict k

/-- The valid outputs of a context, as image words. -/
def Ctx.outWords (c : Ctx) : List Nat := ((List.range 4).filter fun i => dValid (c.out i)).map fun i => dWord (c.out i)

/-- The safe image words of a context's valid outputs: hob offsets and values (R217, R228). -/
def W.safeImage (w : W) (h : Nat) (c : Ctx) : List (Nat × Nat) :=
  ((List.range 4).filter fun i => dValid (c.out i)).map fun i =>
    let d := c.out i
    (w.outBase h + 0x4000 + 4 * dWord d, (convOut (dFmt d) (.flt (bIn (c.v i)))).getD 0)

/-- Two contexts may not stand in one hearth (R237): a shared output word, a port word shared by two groups, or
overlapping extensions. -/
def Ctx.clash (a b : Ctx) : Bool :=
  a.outWords.any (fun x => b.outWords.contains x) ||
  (a.group != b.group && a.outWords.any fun x => b.outWords.any fun y => x / 8 == y / 8) ||
  overlaps a.extOff (32 * a.extLen) b.extOff (32 * b.extLen)

/-- The group of an output port word is set, staged value and active value alike (R237).
(DEDUCED: assumption 75.) -/
def W.setOutGroup (w : W) (h k g : Nat) : W :=
  let o := 0x500 + 4 * (k / 8)
  w.setReg 16 h o (setFld (w.hreg h o) (4 * (k % 8)) 4 g)

/-- The Stoker writes the hob of a hearth (R189: master 6). -/
def W.stokerHob (w : W) (h off : Nat) (bs : List Byte) : W := w.hobWrites h 6 (hobBase h + off) bs

/-- LOOP_LOAD (R237). (DEDUCED: assumption 74.) -/
def cmdLoopLoad : Body := fun p w =>
  w.loopPre p 12 true <|
    let h := loopH p
    let i := loopC p
    let blk := (pktBody p).drop 4
    let c := Ctx.ofBytes blk
    w.need (w.lax || !w.placed h i) sLocked <|
    w.need c.formOk sBadParam <| w.readExt h c fun w =>
    w.need (w.ctxRules h c) sBadParam <|
    w.readCtxs (w.ctxOffs h ((w.dev.blw h).loaded.filter (· != i))) fun w =>
    w.need (((w.dev.blw h).loaded.filter (· != i)).all fun j => !(c.clash (w.ctxAt h j))) sConflict <|
    let w := w.stokerHob h (w.ctxBase h + 256 * i) (blk.take 192 ++ List.replicate 8 0 ++ blk.drop 200)
    let w := w.each (w.safeImage h c) fun x w => w.stokerHob h x.1 (le 4 x.2)
    let w := w.each ((c.outWords.map (· / 8)).eraseDups) fun k w => w.setOutGroup h k c.group
    (w.upd fun d => d.onBlw h fun b =>
      { b with loaded := i :: b.loaded.filter (· != i), faulted := b.faulted.filter (· != i), resume := b.resume.filter (· != i) }).ok

/-- The dimensions of a context, which LOOP_PARAM leaves as they are (R238). -/
def Ctx.dims (c : Ctx) : List Nat :=
  match c.kernel with
  | 2 => [c.p 0]
  | 5 => [c.p 0, c.p 1]
  | 6 => [c.p 0, c.p 1, c.p 2]
  | 7 => [c.p 0]
  | 8 => [c.p 2]
  | _ => []

/-- Bytes as cells from an offset on. -/
def cellsOf (off : Nat) (bs : List Byte) : List Host.Cell := (List.range bs.length).map fun i => (off + i, bs.getD i 0)

/-- Writes are placed in the parameter buffer of a hearth; a bellows that is stopped lets them be made at once (R238).
(DEDUCED: assumption 75.) -/
def W.addParams (w : W) (h ctx : Nat) (cells : List Host.Cell) : W :=
  let w := w.upd fun d => d.onBlw h fun b => { b with params := b.params ++ [{ ctx := ctx, cells := cells }] }
  if (w.dev.blw h).phase = .stopped then w.flushParams h else w

/-- LOOP_PARAM (R238). (DESIGN CHOICE: assumption 165.) (DEDUCED: assumption 75.) -/
def cmdLoopParam : Body := fun p w =>
  w.loopPre p 20 false <|
    let h := loopH p
    let i := loopC p
    let off := fld (pw p 0) 12 8
    let vs := (pktBody p).drop 4
    let base := w.ctxBase h + 256 * i
    w.readHob h base 256 fun old w =>
    let new := old.take off ++ vs ++ old.drop (off + vs.length)
    let c := Ctx.ofBytes old
    let n := Ctx.ofBytes new
    let pws := (List.range 8).filter fun k => slice old (32 * k) 32 != slice new (32 * k) 32
    let safe := (w.safeImage h n).filter fun x => !(w.safeImage h c).contains x
    w.need (decide (0x18 ≤ off ∧ off % 4 = 0 ∧ off + vs.length ≤ 0xC0)) sBadParam <|
    w.need (n.dims == c.dims && n.extLen == c.extLen) sBadParam <| w.readExt h n fun w =>
    w.need (w.ctxRules h n) sBadParam <|
    w.need (decide (pws.length + ((safe.map fun x => x.1 / 32).eraseDups).length ≤ 8)) sBadParam <|
    .pend w h fun w => w.addParams h i (cellsOf (base + off) vs ++ safe.flatMap fun x => cellsOf x.1 (le 4 x.2))

/-- LOOP_MODE (R239). -/
def cmdLoopMode : Body := fun p w =>
  w.loopPre p 14 false <|
    let h := loopH p
    let i := loopC p
    let mode := fld (pw p 0) 12 2
    w.readHob h (w.ctxBase h + 256 * i) 32 fun hd w =>
    let c := Ctx.ofBytes hd
    w.need (mode != 3 && c.kernel == 1 && (mode != 2 || dValid (c.inp 3))) sBadParam <|
    .pend w h fun w => w.addParams h i (cellsOf (w.ctxBase h + 256 * i) (le 4 (setFld (w32 (c.h 0)) 16 2 mode).toNat))

/-- LOOP_RESUME (R240). (DESIGN CHOICE: assumption 164.) -/
def cmdLoopResume : Body := fun p w =>
  w.loopPre p 12 false <|
    let h := loopH p
    let i := loopC p
    w.need ((w.dev.blw h).faulted.contains i) sBadParam <|
    .pend w (256 * h + i) fun w => w.ctxResume h (w32 (i + 256))

/-- LOOP_STATUS (R236). -/
def cmdLoopStatus : Body := fun p w =>
  w.loopPre p 12 false <|
    let h := loopH p
    let off := w.ctxBase h + 256 * loopC p
    w.readHob h off 32 fun a w => w.readHob h (off + 0xC0) 32 fun b w => w.ok (a ++ b)

/-- The words of the output image that the loaded contexts write. -/
def W.writtenWords (w : W) (h : Nat) : List Nat := (w.dev.blw h).loaded.flatMap fun i => (w.ctxAt h i).outWords

/-- The input window of channel `c`: its first image word and its length with the stamp; length 0 where it is not bound
as an input. -/
def W.inWindow (w : W) (h c : Nat) : Nat × Nat :=
  let v := w.hreg h (0x408 + 16 * c)
  (fld v 0 12, if bitAt (w.hreg h 0x30C) c then fld v 12 13 + (bitAt (w.hreg h 0x314) c).toNat else 0)

/-- LOOP_IMAGE_BIND (R241). -/
def cmdLoopImageBind : Body := fun p w =>
  w.loopPre p 11 true <|
    let h := loopH p
    let c := fld (pw p 0) 4 4
    let role := fld (pw p 0) 8 2
    let stamp := bitAt (pw p 0) 10
    let first := fld (pw p 3) 0 12
    let count := fld (pw p 3) 12 13
    let a := (pw p 1).toNat + 2 ^ 32 * (pw p 2).toNat
    let last := a + (if fixedAddr a then 4 else 4 * count) - 1
    w.need (role != 3 && decide ((pw p 2).toNat < 2 ^ 16 ∧ (pw p 3).toNat < 2 ^ 25 ∧ a % 4 = 0)) sBadParam <|
    w.need (role != 0 || (a == 0 && (pw p 3) == 0)) sBadParam <|
    w.need (role == 0 || count != 0) sDoneEmpty <|
    let regs : List (Nat × Word32) :=
      [(0x30C, setBit (w.hreg h 0x30C) c (role == 1)), (0x310, setBit (w.hreg h 0x310) c (role == 2)),
       (0x314, setBit (w.hreg h 0x314) c (role != 0 && stamp)), (0x400 + 16 * c, pw p 1), (0x404 + 16 * c, pw p 2),
       (0x408 + 16 * c, pw p 3)]
    let n := w.applied ⟨regs.foldl (fun l r => insertRow (blockBase 16 h + r.1) r.2 l) []⟩
    let win := n.inWindow h c
    w.need (role == 0 || decide (first + count + stamp.toNat ≤ 4096)) sBadParam <|
    w.need (role != 1 || (List.range 16).all fun d =>
      d == c || !overlaps win.1 win.2 (n.inWindow h d).1 (n.inWindow h d).2) sConflict <|
    w.readCtxs (if role = 2 then w.ctxOffs h (w.dev.blw h).loaded else []) fun w =>
    w.need (role != 2 || (List.range count).all fun j => (w.writtenWords h).contains (first + j)) sConflict <|
    w.need (role == 0 || (w.mapped a && w.mapped last && n.chanAdmitted h c)) sConflict <|
    w.need (w.lax || !(bitAt (w.hreg h 0x30C) c || bitAt (w.hreg h 0x310) c)) sLocked <|
    let w := w.each regs fun r w => w.setStaged 16 h r.1 r.2
    ((w.commitGo 16 h).commitPoint 16 h).ok

/-- LOOP_EXT_WRITE (R242). -/
def cmdLoopExtWrite : Body := fun p w =>
  w.loopPre p 4 false <|
    let h := loopH p
    let off := (pw p 1).toNat
    let bs := (pktBody p).drop 8
    w.need (decide (off % 4 = 0 ∧ off + bs.length ≤ 0x400000) && !w.inAreas h off bs.length) sBadParam <|
    w.readCtxs (if w.lax then [] else w.planCtxs h (bitAt (w.hreg h 0x600) 0)) fun w =>
    w.need (w.lax || (List.range 256).all fun i =>
      !(w.placed h i && overlaps off bs.length (w.ctxAt h i).extOff (32 * (w.ctxAt h i).extLen))) sLocked <|
    (w.stokerHob h off bs).ok

/-- BELLOWS_STATUS (R236). -/
def cmdBellowsStatus : Body := fun p w =>
  w.loopPre p 4 false <|
    w.ok (wordsLe ((List.range 10).map fun i => w.regRead 16 (loopH p) (0x318 + 4 * i)))

/-- BELLOWS_COUNT_CLEAR (R236). -/
def cmdBellowsCountClear : Body := fun p w => w.loopPre p 4 true <| (w.blwClear (loopH p) true).ok

/-- LOOP_INJECT (R243). -/
def cmdLoopInject : Body := fun p w =>
  let h := loopH p
  let n := fld (pw p 0) 12 2
  w.need (w.grantOn 0 16 (some h)).isSome sNotGranted <|
  w.loopPre p 14 true <|
    w.need (n == 1 || n == 2) sBadParam <|
    .pend w (256 * h + loopC p) fun w => w.blwInject h (w32 (loopC p + at_ n 8))

end Sys2Proof.Machine
end

