-- ==== Sys2Proof/Machine/SchedCmds.lean ====
section
/-! DEFINITION. The schedule commands (R262 to R264) and the time commands (R262, R265). -/

namespace Sys2Proof.Machine

/-- The bank that the committed SCHED_CTL names. -/
def W.activeBank (w : W) (h : Nat) : Bool := bitAt (w.hreg h 0x600) 0

/-- What every schedule command checks first (R262). -/
def W.schedPre (w : W) (p : Packet) (k : Nat → Res) : Res :=
  let h := (pw p 0).toNat
  w.need (decide (h < 16)) sBadParam <| w.need (bitAt w.dev.sys.avail h) sNoResource <| k h

/-- Put a schedule in a bank. -/
def W.putPlan (w : W) (h : Nat) (b : Bool) (q : Plan) : W :=
  let o := bankOff b
  let w := ((w.setReg 16 h o (w32 q.entries.length)).setReg 16 h (o + 4) (w32 q.slack)).setReg 16 h (o + 8)
    (w32 (q.idleK + at_ q.idleP 4))
  let base := if b then 0xC00 else 0x800
  let w := w.each (List.range q.entries.length) fun i w => w.setReg 16 h (base + 4 * i) (q.entries.getD i 0)
  w.upd fun d => d.onBlw h fun x => { x with banks := x.banks.set b.toNat { loaded := true, reserve := q.reserve } }

/-- An entry is well formed (R263). -/
def entryForm (e : Word32) : Bool := fld e 27 5 == 0 && decide (entryPhase e < 2 ^ entryClass e)

/-- An entry agrees with its context, which keeps the rules of R224 (R263). -/
def W.entryOk (w : W) (h : Nat) (e : Word32) : Bool :=
  let c := w.ctxAt h (entryCtx e)
  entryClass e == c.h 0 / 256 % 16 && w.ctxRules h c

/-- SCHED_LOAD (R263). -/
def cmdSchedLoad : Body := fun p w =>
  w.schedPre p fun h =>
    let q : Plan := { entries := pwords p 3, slack := fld (pw p 1) 0 16, idleK := fld (pw p 2) 0 4, idleP := fld (pw p 2) 4 15,
                      reserve := fld (pw p 1) 16 16 }
    let ctxs := q.entries.map entryCtx
    w.need (fld (pw p 2) 19 13 == 0 && decide (q.reserve ≤ 2400 ∧ q.idleP < 2 ^ q.idleK) &&
      q.entries.all entryForm && ctxs.eraseDups.length == ctxs.length) sBadParam <|
    w.readCtxs (w.ctxOffs h ctxs) fun w =>
    w.need (q.entries.all (w.entryOk h)) sBadParam <|
    w.need (!q.entries.any q.conflicts) sConflict <|
    let l := w.checkLevel h
    let r := w.planResult h q l
    if (w.planAt h q l).fits && w.slackOk h q then (w.putPlan h (!w.activeBank h) q).ok r else .fin w sScheduleOverrun r

/-- SCHED_SWAP (R264): at once while the bellows does not run frames in PREPARE or MAINTAIN. -/
def cmdSchedSwap : Body := fun p w =>
  w.schedPre p fun h =>
    let b := !w.activeBank h
    let q := w.plan h b
    w.need (((w.dev.blw h).banks.getD b.toNat {}).loaded || !q.entries.isEmpty) sBadParam <|
    w.readCtxs (w.planCtxs h b) fun w =>
    w.need (w.planPasses h q (w.checkLevel h)) sScheduleOverrun <|
    let set := fun (w : W) => (w.setReg 16 h 0x600 (w32 b.toNat)).upd fun d =>
      d.onBlw h fun x => { x with banks := x.banks.set b.toNat { (x.banks.getD b.toNat {}) with unchecked := false } }
    if w.lax ∧ (w.dev.blw h).phase = .stopped then ((set w).takeBank h).ok
    else .pend w h set

/-- SCHED_STATUS (R262): all the words that it lists. (DEDUCED: assumption 76.) -/
def cmdSchedStatus : Body := fun p w =>
  w.schedPre p fun h => w.readCtxs (w.planCtxs h (w.activeBank h)) fun w =>
    w.ok (wordsLe [w.hreg h 0x600, (w.dev.blw h).schedStat, w.hreg h 0x608] ++
      w.planResult h (w.plan h (w.activeBank h)) (w.checkLevel h))

/-- SCHED_CHECK (R262). -/
def cmdSchedCheck : Body := fun p w =>
  w.schedPre p fun h =>
    let l := (pw p 1).toNat
    let q := w.plan h (!w.activeBank h)
    w.need (decide (l ≤ 6)) sBadParam <|
    w.readCtxs (w.planCtxs h false ++ w.planCtxs h true) fun w =>
    w.ok (w.planResult h (w.plan h (w.activeBank h)) l ++
      if q.entries.isEmpty then List.replicate 16 0 else w.planResult h q l)

/-- TIME_STATUS (R262). (DEDUCED: assumption 77.) -/
def cmdTimeStatus : Body := fun _ w =>
  let c := w.dev.clock
  let free := w.tbSource == 0
  let since := match c.lastSync with
    | some t => min ((w.dev.now - t.toNat) / 1000) 0xFFFFFFFF
    | none => 0xFFFFFFFF
  w.ok (wordsLe [lo32 c.tb, hi32 c.tb, lo32 c.frameNo, hi32 c.frameNo, w.tbStat, w.reg 5 0 0x38,
    if free then 0 else BitVec.ofInt 32 c.offset, if free then 0xFFFFFFFF else w32 since])

/-- A reachable course is in a mode in which its own STEP_GO would be dropped (R267, R484). -/
def W.courseHolds (w : W) : Bool := w.reachedCourses.any fun n =>
  let m := (w.dev.course n).mode
  !(m == Mode.prepare.code || m == Mode.lockout.code || m == Mode.maintain.code)

/-- TIME_STEP (R265). (DEDUCED: assumption 65.) -/
def cmdTimeStep : Body := fun p w =>
  let off := w64 ((pw p 0).toNat + 2 ^ 32 * (pw p 1).toNat)
  let new := (w.dev.clock.tb.toNat : Int) + off.toInt
  w.need w.stepMode sWrongMode <|
  w.need (!w.dev.isCourse && !w.courseHolds) sLocked <|
  w.need (decide (0 ≤ new ∧ new < 2 ^ 64)) sBadParam <|
  if off = 0 then w.ok else (w.step off).ok

end Sys2Proof.Machine
end

