-- ==== Sys2Proof/Machine/RegWrite.lean ====
section
/-! DEFINITION. What a write of any control register does (R30, R31, R36): the action registers, the banks of a schedule,
and the plain registers; and what a read does beyond showing a value (R32). -/

namespace Sys2Proof.Machine

/-- The action registers of a hob unit (R209): W1C of MARCH_FAIL.VALID, CNT_CLEAR and INJECT. -/
def W.hobAction (w : W) (u o : Nat) (v : Word32) : Option W :=
  if o = 0x220 then some (if bitAt v 31 then w.upd fun d => d.onHob u fun h => { h with failValid := false } else w)
  else if o = 0x228 then some (if bitAt v 0 then w.hobCntClear u else w)
  else if o = 0x22C then some (w.hobInject u v)
  else none

/-- The action registers of HEARTH_h. -/
def W.hearthAction (w : W) (m : Rid) (h o : Nat) (v : Word32) : Option W :=
  if o = 0x12C then some (w.laneCmd h v)
  else if o = 0x31C then some (w.upd fun d => d.onBlw h fun b => { b with late := b.late &&& ~~~(BitVec.ofNat 16 v.toNat) })
  else if o = 0x340 then some (w.blwInject h v)
  else if o = 0x344 then some (w.ctxResume h v)
  else if o = 0x348 then some (if bitAt v 0 then w.blwClear h false else w)
  else if o = 0x1004 then some (w.cutPass m h v)
  else w.hobAction h o v

/-- A write by master `m` of an action register at offset `o`; none where the register is not one. -/
def W.action (w : W) (m : Rid) (typ inst o : Nat) (v : Word32) : Option W :=
  match typ with
  | 1 => w.hobAction 16 o v
  | 4 =>
    if o = 0x38 then some (w.vote m (fld v 0 8) (bitAt v 8))
    else if o = 0x3C then some (w.releasePads (fld v 0 8))
    else if o = 0x40 then some (if bitAt v 0 then w.acctClear else w)
    else none
  | 5 => w.writeTime o v
  | 6 => if 0x100 ≤ o ∧ o < 0x1100 ∧ o % 256 = 0 then some (w.chCmd m ((o - 0x100) / 256) v) else none
  | 8 => if o = 0x5C then some (w.bobClear v) else none
  | 10 => if o = 0x5C then some (w.memcClear inst v) else if o = 0x60 ∧ inst = 0 then some (w.retireAdd v) else none
  | 11 =>
    if 0x1000 ≤ o ∧ o < 0x5000 ∧ (o - 0x1000) % 0x400 = 0x18 then
      some (if bitAt v 0 then w.setReg 11 0 o (setBit (w.reg 11 0 o) 0 false) else w)
    else none
  | 12 => if o = 0x40 then some (w.writeRetrain v) else none
  | 14 => if o = 0x34 then some (w.basteGo v) else none
  | 16 => w.hearthAction m inst o v
  | 17 => if o = 0x28 then some (w.gateGo v) else none
  | _ => none

/-- The register belongs to a schedule bank that is active or in use (R268). -/
def W.bankHeld (w : W) (h o : Nat) : Bool :=
  let b := decide (0x620 ≤ o ∧ o < 0x630) || decide (0xC00 ≤ o)
  (decide (0x610 ≤ o ∧ o < 0x630) || decide (0x800 ≤ o ∧ o < 0x1000)) && (w.activeBank h == b || (w.dev.blw h).bankB == b)

/-- A write of the register at offset `o` of a block, once the firewall and the grants have let it pass. -/
def W.regWrite (w : W) (m : Rid) (typ inst o : Nat) (v : Word32) : W :=
  if halfSpan typ ≤ o then w
  else if o = 8 then w.commitWrite m typ inst v
  else if o = 0x14 then (if bitAt v 0 then w.stageDiscard typ inst else w)
  else match w.action m typ inst o v with
    | some w => w
    | none => match w.regRow typ o with
      | some r => match r.kind with
        | .rws => w.setStaged typ inst o v
        | .rw => if typ = 16 ∧ w.bankHeld inst o then w else w.setReg typ inst o (if typ = 16 ∧ 0x800 ≤ o then v else r.merge v)
        | .kept => w
      | none => w

/-- The low words whose read snapshots the word above them (R32): the 64-bit quantities of RO-H register pairs.
(DEDUCED: assumption 94.) -/
def snapLow (typ o : Nat) : Bool :=
  match typ with
  | 1 => o == 0x2C || o == 0x218
  | 5 => o == 0x20 || o == 0x28
  | 6 => o == 0x24 || o == 0x2C || o == 0x34 || o == 0x3C
  | 11 => decide (0x1000 ≤ o ∧ o < 0x5000) && (o - 0x1000) % 0x400 == 0x1C
  | 16 => o == 0x184 || o == 0x218 || o == 0x338
  | _ => false

/-- The key of a snapshot: its master and the address of the high word. -/
def snapKey (m : Rid) (a : Nat) : Nat := m.toNat * 2 ^ 48 + a

/-- A read by master `m` of the register at offset `o` of a block (R32). (DEDUCED: assumptions 43, 94.) -/
def W.regFetch (w : W) (m : Rid) (typ inst o : Nat) : Word32 × W :=
  let a := blockBase typ inst + o
  match w.dev.regs.snaps.get? (snapKey m a) with
  | some v => (v, w.upd fun d => { d with regs := { d.regs with snaps := d.regs.snaps.erase (snapKey m a) } })
  | none =>
    let v := w.regRead typ inst o
    if snapLow typ o then
      let hi := w.regRead typ inst (o + 4)
      (v, w.upd fun d => { d with regs := { d.regs with snaps := d.regs.snaps.set (snapKey m (a + 4)) hi } })
    else (v, w)

end Sys2Proof.Machine
end

