-- ==== Sys2Proof/Machine/Bus.lean ====
section
/-! DEFINITION. A request on the device's bus: the address map (R23 to R26), the firewalls (R177 to R181), and what each
target does with a read, a fetch, a write or an atomic. -/

namespace Sys2Proof.Machine

/-- What a request asks for. -/
inductive Req where
  | read
  | fetch
  | write (bs : List Byte)
  | atomic (fn : BitVec 11) (opd : Word64)
  deriving DecidableEq, Repr

/-- The direction that the firewalls judge (R178). -/
def Req.dir : Req → Dir
  | .read => .read | .fetch => .fetch | .write _ => .write | .atomic _ _ => .atomic

/-- Data comes back. -/
def Req.reads : Req → Bool
  | .write _ => false | _ => true

/-- FN[10:1] of an atomic. -/
def atomicOp (fn : BitVec 11) : Nat := fn.toNat / 2

/-- The target takes atomics (R137): a hob, the Stoker hob, DRAM, and a window, which the remote device judges. -/
def atomicTarget (a : Nat) : Bool := (hobOf a).isSome || decide (dramBase ≤ a)

/-- The access widths and the alignment of a control register (R30). -/
def wordWide (a n : Nat) : Bool := n == 4 && a % 4 == 0

/-- The address inside a window. -/
def windowOffset (a : Nat) : Nat := (a - 0x10000000000) % 0x1000000000

/-- This device counts position `n` as reachable (R482); a course judges another course by the link towards it.
(DEDUCED: assumptions 33, 52.) -/
def W.reaches (w : W) (n : Nat) : Bool :=
  let c := w.dev.chim
  if !w.dev.isCourse then (w.dev.course n).reach
  else if n = 0 then c.baseReach
  else if n < c.pos.toNat then c.up.st == .linked else c.down.st == .linked

/-- An atomic or an unaligned access whose address lies in a port page is misuse of that page (R375).
(DEDUCED: assumption 34.) -/
def W.pageMisuse (w : W) (m : Rid) (a : Nat) : W :=
  if 0x11800000 ≤ a ∧ a < 0x11840000 then (w.portMisuse m ((a - 0x11800000) / 64) ((a - 0x11800000) % 64)).2 else w

/-- The address map and the firewalls judge a request for a local address (R24, R177, R178): the error, if any. -/
def W.admitLocal (w : W) (m : Rid) (a n : Nat) (r : Req) : Option Nat × W :=
  if w.fusedOff a then (none, w)
  else if !w.mapped a || !w.mapped (a + n - 1) || (r.dir == .write && decide (a < 0x40000)) then
    (some eReserved, w.raiseAddr 0x050 (BitVec.ofNat 48 a) m)
  else
    let (ok, w) := if r.dir == .write && (blockAt a).isSome then w.fwWrite m a
      else w.passes (fwUnitOf a) m r.dir (granulesOf a n)
    if !ok then (some eFirewall, w)
    else if r.dir == .atomic && !atomicTarget a then (some eAtomic, w.pageMisuse m a)
    else (none, w)

/-- A control register (R30, R532): other widths meet the consequences of R24. -/
def W.serveReg (w : W) (m : Rid) (a n typ inst base : Nat) (r : Req) : Acc × W :=
  if !wordWide a n then (.err eReserved, w.raise 0x051 0 0)
  else match r with
    | .write bs =>
      let v := wordAt bs 0
      let (ok, w) := w.mayWrite m typ inst (a - base) v
      if ok then (.done, w.regWrite m typ inst (a - base) v) else (.err eFirewall, w)
    | _ =>
      let (v, w) := w.regFetch m typ inst (a - base)
      (.data (le 4 v.toNat), w)

/-- A byte range of a hob (R193 to R197): a read of any master but the bellows goes through the output selector (R234). -/
def W.serveHob (w : W) (m : Rid) (u a n : Nat) (r : Req) : Acc × W :=
  let k := hobMaster w.dev.chim.pos u m
  match r with
  | .write bs => (.done, w.hobWrites u k a bs)
  | .atomic fn opd => w.hobAtomic m u k (if u < 16 then hobBase u + w.seen u (a - hobBase u) else a) a n (atomicOp fn) opd
  | _ => if ridClass m = 3 then w.hobRead m u a n else w.hobReadSel m u a n

/-- An alias (R193, R194): writes alone, of any size that their requester makes.
(DESIGN CHOICE: assumption 138.) -/
def W.serveAlias (w : W) (m : Rid) (a : Nat) (r : Req) : Acc × W :=
  let set := decide (a < 0x0C000000)
  let b := a - (if set then 0x04000000 else 0x08000000)
  match r, hobOf b with
  | .write bs, some u => w.hobAlias m u (hobMaster w.dev.chim.pos u m) b set bs
  | _, _ => (.err eAlias, w)

/-- DRAM (R351, R352): the request and its answer cross the boundary FIFOs of the channel (R387); an atomic reads and writes in
one access (R137). -/
def W.serveDram (w : W) (m : Rid) (a n : Nat) (r : Req) : Acc × W :=
  w.dramCross a fun w => match r with
  | .write bs => w.dramWrite m a bs
  | .atomic fn opd => w.atomicLine m a n fun old =>
    le n ((atomicResult (atomicOp fn) n (ofLe old) (opd.toNat % 2 ^ (8 * n))).getD (ofLe old))
  | _ => w.dramRead m a n

/-- What a write asks to write. -/
def Req.bytes? : Req → Option (List Byte)
  | .write bs => some bs
  | _ => none

/-- The target of a local address performs a request that was admitted; one that is not ON wakes first (R459). -/
def W.serveLocal (w : W) (m : Rid) (a n : Nat) (r : Req) : Acc × W :=
  let w := w.wakeAt a
  if w.fusedOff a then (if r.reads then .data (List.replicate n 0) else .done, w)
  else if a < 0x10000 then (.data (w.patRead a n), w)
  else if a < 0x40000 then (.data ((List.range n).map fun i => Config.bootRom (a - 0x10000 + i)), w)
  else match hobOf a with
    | some u => w.serveHob m u a n r
    | none =>
      if a < 0x10000000 then w.serveAlias m a r
      else if a < 0x11400000 then w.poolAccess m (a - 0x11000000) n r.bytes?
      else if a < 0x11840000 then
        let q := (a - 0x11800000) / 64
        let o := (a - 0x11800000) % 64
        match r with
        | .write bs => w.portWrite m q o bs
        | _ => w.portRead m q o n
      else if a < 0x20000000 then (if r.reads then .data (w.mailboxBytes (a - 0x12000000) n) else .done, w)
      else match blockAt a with
        | some (b, t, i, _) => w.serveReg m a n t i b r
        | none => w.serveDram m a n r

/-- A local request: judged, then performed. -/
def W.accessLocal (w : W) (m : Rid) (a n : Nat) (r : Req) : Acc × W :=
  match w.admitLocal m a n r with
  | (some e, w) => (.err e, w)
  | (none, w) => w.serveLocal m a n r

/-- Judge a request, through a window of this device's own position too (R26, R178, R487). -/
def W.passWalls (w : W) (m : Rid) (a n : Nat) (r : Req) : Option Nat × W :=
  match w.admitLocal m a n r with
  | (some e, w) => (some e, w)
  | (none, w) =>
    match windowOf a with
    | none => (none, w)
    | some p =>
      if p = w.dev.chim.pos.toNat then w.admitLocal m (windowOffset a) n r
      else if w.reaches p then (none, w) else (some eRemote, w)

/-- Perform a request that was admitted: one to another member goes out through the chimney and waits (R487).
(DESIGN CHOICE: assumption 32.) -/
def W.perform (w : W) (m : Rid) (a n : Nat) (r : Req) : Acc × W :=
  match windowOf a with
  | none => w.serveLocal m a n r
  | some p =>
    if p = w.dev.chim.pos.toNat then w.serveLocal m (windowOffset a) n r
    else (.wait, (w.upd fun d => d.crossed (if p < d.chim.pos.toNat then 7 else 9)).onChim fun c => { c with
      remotes := c.remotes ++ [⟨m, BitVec.ofNat 3 p, BitVec.ofNat 48 (windowOffset a), r.dir == .write⟩] })

/-- A request: judged, then performed. (DESIGN CHOICE: assumptions 31, 32.) -/
def W.access (w : W) (m : Rid) (a n : Nat) (r : Req) : Acc × W :=
  match w.passWalls m a n r with
  | (some e, w) => (.err e, w)
  | (none, w) => w.perform m a n r

/-- The pieces of a host TLP or a chimney request, which do not cross a 256-byte boundary (R178): address and length. -/
def piecesOf (a n : Nat) : List (Nat × Nat) :=
  if n = 0 then []
  else (granulesOf a n).map fun g => (max a g, min (a + n) (g + 256) - max a g)

/-- A control register stands at the address, also through a window of this device's own position. -/
def W.inBlock (w : W) (a : Nat) : Bool :=
  (blockAt (if windowOf a = some w.dev.chim.pos.toNat then windowOffset a else a)).isSome

/-- The pieces of a host TLP or a chimney request on the bus: from the first one that meets a control register on, one of
more than a doubleword keeps its width, which the register refuses (R30). -/
def W.tlpPieces (w : W) (a n : Nat) : List (Nat × Nat) :=
  let ps := piecesOf a n
  let plain := ps.takeWhile fun p => !w.inBlock p.1
  if n = 4 then ps else plain ++ ((ps.drop plain.length).take 1).map fun p => (p.1, n)

/-- Read piece after piece until one fails. -/
def W.readPieces (w : W) (m : Rid) (acc : List Byte) : List (Nat × Nat) → Acc × W
  | [] => (.data acc, w)
  | p :: ps =>
    match w.access m p.1 p.2 .read with
    | (.data bs, w1) => W.readPieces w1 m (acc ++ bs) ps
    | r => r

/-- Write piece after piece; a refused piece is dropped and the rest is performed. -/
def W.writePieces (w : W) (m : Rid) (a : Nat) (bs : List Byte) (last : Acc) : List (Nat × Nat) → Acc × W
  | [] => (last, w)
  | p :: ps =>
    match w.access m p.1 p.2 (.write (slice bs (p.1 - a) p.2)) with
    | (.done, w1) => W.writePieces w1 m a bs last ps
    | (r, w1) => W.writePieces w1 m a bs r ps

/-- REGISTER_WRITE (R30, R31, R36, R80, R532): a write of `size` bytes at a control register address. -/
def execRegisterWrite (m : Rid) (addr : Addr) (size : Nat) (v : Word32) (s : State) : Host.Outcome State Fault Refusal :=
  run s fun w => w.powered fun w =>
    if size = 0 then w
    else
      let (r, w) := w.access m addr.toNat size (.write (le size v.toNat))
      w.respond m size false r

/-- The life-cycle state lets the debug access port work (R59): not in SCRAPPED, and in FIELD only under a signed grant
on DBG. (DEDUCED: assumption 51.) -/
def W.debugLife (w : W) : Bool :=
  let s := w.dev.stoker.grants.any fun g => g.typ == 15 && g.signed && bitAt g.rights 1
  w.lifecycle != 4 && (w.lifecycle != 2 || s)

/-- The identity of the debug access port (R176). -/
def W.debugRid (w : W) : Rid := w.rid 7 0 false

/-- DEBUG_ACCESS (R59, R181): one word. -/
def execDebugAccess (addr : Addr) (wr : Option Word32) (s : State) : Host.Outcome State Fault Refusal :=
  run s fun w =>
    let m := w.debugRid
    let n := w.dev.sys.mode
    if n = .off ∨ n = .hold then w
    else
      let w := w.wakeDom 240
      let (r, w) := if w.debugLife then w.access m addr.toNat 4 (match wr with
          | some v => .write (le 4 v.toNat)
          | none => .read)
        else (.err eFirewall, w.raiseAddr 0x1B3 addr m)
      w.respond m 4 wr.isNone r

/-- What another member's request that fails here answers: the remote error status (R179, R488). -/
def remoteError (r : Acc × W) : Acc × W :=
  match r with
  | (.err _, w) => (.err eRemote, w)
  | r => r

/-- WINDOW_REQUEST (R26, R487, R488): a master of this device addresses a window, or a request of another member arrives
at its own. -/
def execWindowRequest (q : WinReq) (s : State) : Host.Outcome State Fault Refusal :=
  run s fun w => w.powered fun w =>
    let a := q.addr.toNat
    let r : Req := match q.data with
      | some v => .write (le q.size v.toNat)
      | none => .read
    match windowOf a with
    | none => w
    | some p =>
      if q.size = 0 then w
      else
        let (x, w) := if ridPos q.m = w.dev.chim.pos.toNat then w.access q.m a q.size r
          else if p = w.dev.chim.pos.toNat then
            let o := windowOffset a
            let ps := w.tlpPieces o q.size
            remoteError (match q.data with
              | some v => w.writePieces q.m o (le q.size v.toNat) .done ps
              | none => w.readPieces q.m [] ps)
          else (.wait, w)
        w.respond q.m q.size r.reads x

/-- WINDOW_RESPONSE (R487, R488): the answer to outstanding request `n` comes back.
(DESIGN CHOICE: assumption 84.) -/
def execWindowResponse (n : Nat) (ok : Bool) (v : Word64) (s : State) : Host.Outcome State Fault Refusal :=
  run s fun w =>
    match w.dev.chim.remotes[n]? with
    | none => w
    | some r =>
      if (w.dev.chim.remotes.take n).any fun x => x.rid == r.rid && x.pos == r.pos then w else
      let w := w.onChim fun c => { c with remotes := c.remotes.eraseIdx n }
      if !ok then w.remoteError else if r.write then w.answer .done else w.answer (.word v)

end Sys2Proof.Machine
end

