-- ==== Sys2Proof/Machine/QueueCmds.lean ====
section
/-! DEFINITION. The queue commands (R390 to R392). -/

namespace Sys2Proof.Machine

/-- The 16-byte entries of QUEUE_SET: word 0 and the words after it (R391). -/
def queueEntries : List Word32 → List (Word32 × QCfg)
  | a :: f :: c :: l :: r =>
    (a, { mode := (qMode (fld a 12 2)).getD .disabled, floor := f.toNat, cap := c.toNat, level := l.toNat,
          tryCells := fld a 16 7, safety := bitAt a 24 }) :: queueEntries r
  | _ => []

/-- The queue that an entry names. -/
def entryQ (e : Word32 × QCfg) : Nat := fld e.1 0 12

/-- An entry keeps the ranges of R370 and R391. -/
def queueEntryOk (e : Word32 × QCfg) : Bool :=
  let c := e.2
  (qMode (fld e.1 12 2)).isSome && fld e.1 14 2 == 0 && !bitAt e.1 23 && fld e.1 25 7 == 0 &&
  decide (c.floor ≤ 65536 ∧ c.floor ≤ c.cap ∧ c.cap ≤ 65536 ∧ c.level ≤ c.cap ∧ c.tryCells ≤ 74)

/-- Give a queue its configuration. -/
def W.setQCfg (w : W) (e : Word32 × QCfg) : W := w.upd fun d => d.onQueue (entryQ e) fun q => { q with cfg := e.2 }

/-- QUEUE_SET (R391): every entry at one engine step, or none. -/
def cmdQueueSet : Body := fun p w =>
  let es := queueEntries (pwords p 0)
  let qs := es.map entryQ
  let n := w.each es fun e w => w.setQCfg e
  w.need (es.all queueEntryOk && decide (qs.eraseDups.length = qs.length)) sBadParam <|
  w.need (es.all fun e => !(e.2.mode != (w.dev.queue (entryQ e)).cfg.mode && w.queueBusy (entryQ e))) sLocked <|
  w.need (decide (n.dev.bobbin.rsv ≤ 65536)) sConflict <|
  w.need (es.all fun e => decide ((w.dev.queue (entryQ e)).occ ≤ e.2.cap ∧ e.2.tryCells ≤ e.2.cap) &&
    !w.safetyBad w (entryQ e) e.2) sConflict <|
  n.poolCheck.ok

/-- The queue that word 0 names, [11:0]. -/
def W.queuePre (w : W) (p : Packet) (k : Nat → Res) : Res :=
  let q := (pw p 0).toNat
  w.need (decide (q < 4096)) sBadParam <| k q

/-- QUEUE_STATUS (R390). -/
def cmdQueueStatus : Body := fun p w =>
  w.queuePre p fun q =>
    let x := w.dev.queue q
    w.ok (wordsLe [x.cfg.wordA, w32 x.cfg.cap, w32 x.cfg.level, x.occWord, w32 (min x.words 0xFFFFFFFF), x.seq,
      w32 (w.dev.bobbin.opens.filter fun o => o.q == q).length])

/-- No queue is broken: QUEUE_BROKEN ends (R384, R389). -/
def W.brokenCheck (w : W) : W :=
  if w.dev.bobbin.all.any (·.broken) || !w.active 0x2C6 then w else w.inactive 0x2C6

/-- QUEUE_FLUSH (R392). -/
def cmdQueueFlush : Body := fun p w =>
  w.queuePre p fun q =>
    w.need (q != w.evq) sLocked <|
    let broken := (w.dev.queue q).broken
    let (n, w) := w.flushQueue q
    w.need (n != 0 || broken) sDoneEmpty <|
    w.brokenCheck.poolCheck.ok (le 4 n)

/-- POOL_STATUS (R390). -/
def cmdPoolStatus : Body := fun _ w => w.ok (w.regWords 8 0 [0x20, 0x24, 0x28, 0x2C, 0x50, 0x54, 0x58])

/-- QUEUE_BIND (R390, R393). -/
def cmdQueueBind : Body := fun p w =>
  let v := pw p 0
  w.need (fld v 22 9 == 0) sBadParam <|
  (w.setReg 8 0 (0x100 + 64 * fld v 0 6 + 4 * fld v 6 4) (w32 (fld v 10 12 + at_ (bitAt v 31).toNat 31))).ok

end Sys2Proof.Machine
end

