-- ==== Sys2Proof/Machine/FlueCmds.lean ====
section
/-! DEFINITION. The commands of the Flue and of the dampers (R287, R296 to R298). -/

namespace Sys2Proof.Machine

/-- FLUE_STATUS (R296). -/
def cmdFlueStatus : Body := fun _ w =>
  w.ok (w.regWords 2 0 [0x20, 0x3C, 0x40, 0x44, 0x38, 0x48, 0x4C, 0x50, 0x54, 0x58])

/-- FLUE_HISTORY_READ (R296): a record that the history does not yet hold reads as zeros.
(DEDUCED: assumption 80.) -/
def cmdFlueHistoryRead : Body := fun p w =>
  let n := (pw p 0).toNat
  w.need (decide (n ≤ 32)) sBadParam <|
  w.need (n != 0) sDoneEmpty <|
  let bs := (w.dev.flue.hist.take n).flatMap fun r => wordsLe r.words
  w.ok (bs ++ List.replicate (32 * n - bs.length) 0)

/-- The recovery windows are cleared (R287). -/
def W.clearWindows (w : W) : W := w.upd fun d => { d with flue := { d.flue with window := [], localWin := ⟨[]⟩ } }

/-- The hearths whose hold is latched and has no active source (R287). (DEDUCED: assumption 123.) -/
def W.latchedIdle (w : W) : List Nat :=
  (w.dev.flue.holds.rows.filter fun r => r.2.latched && !w.anyActive r.2.srcs).map (·.1)

/-- LOCKOUT_RESET (R41, R287). -/
def cmdLockoutReset : Body := fun _ w =>
  w.need w.dev.sys.opLow sLocked <|
  let w := w.upd fun d => { d with
    sys := { d.sys with lockoutRec := false },
    images := { d.images with flash := { d.images.flash with lockout := false } } }
  let w := w.clearWindows
  let w := w.each w.latchedIdle fun h w => w.releaseHold h
  (w.setMode .prepare).ok

/-- ERRPIN_RELEASE (R282). -/
def cmdErrpinRelease : Body := fun _ w =>
  w.need (w.dev.sys.mode != .lockout) sLocked <|
  if w.dev.flue.errPin = false then w.ok (le 4 1)
  else
    w.need (!w.errSource) sLocked <|
    if w.errEnd ≤ w.dev.now then w.errRelease.ok (le 4 1)
    else .pend w 0 fun w => w.upd fun d => { d with flue := { d.flue with errRel := true } }

/-- FLUE_RELEASE (R297). -/
def cmdFlueRelease : Body := fun p w =>
  let v := pw p 0
  let h := fld v 0 4
  let f := w.dev.flue
  let hold := if bitAt v 4 then f.holds.get? h else none
  let sels := ((bitsOf 16 (fld v 16 16)).map (16 * h + ·)).filter fun k => (f.sels.get? k).isSome
  let srcs := (match hold with | some x => x.srcs | none => []) ++ sels.flatMap fun k => (f.sels.getD k {}).srcs
  let latched := match hold with | some x => x.latched | none => false
  w.need (fld v 5 11 == 0 && (hold.isSome || !sels.isEmpty)) sBadParam <|
  w.need (!w.anyActive srcs && (!latched || w.dev.sys.opLow)) sLocked <|
  let w := if hold.isSome then w.releaseHold h else w
  (w.each sels fun k w => w.releaseSel k).ok

/-- FLUE_TEST (R298). -/
def cmdFlueTest : Body := fun p w =>
  let s := (pw p 0).toNat
  w.need (decide (s < 1024) && (w.source s).isSome) sBadParam <| (w.raise s 0 0 true).ok

/-- The Stoker reads records of the spill ring past unit 8 (R178); none where one cannot be read.
(DESIGN CHOICE: assumption 151.) -/
def W.spillRead (w : W) (acc : List Byte) : List Word32 → Option (List Byte) × W
  | [] => (some acc, w)
  | r :: rs =>
    let a := w.dev.spillAddr r.toNat
    match w.fwCheck 8 (BitVec.ofNat 48 a) w.stokerRid .read with
    | (false, w1) => (none, w1)
    | (true, w1) =>
      match w1.dramRead w1.stokerRid a 32 with
      | (.data bs, w2) => W.spillRead w2 (acc ++ bs) rs
      | (_, w2) => (none, w2)

/-- FLUE_EVENTS_READ (R292, R296): records that DRAM no longer gives end the command with INTERNAL_FAULT.
(DESIGN CHOICE: assumption 151.) -/
def cmdFlueEventsRead : Body := fun p w =>
  let n := (pw p 1).toNat
  let rs := w.dev.flue.spill.reverse
  w.need (decide (n ≤ 127)) sBadParam <|
  w.need (n != 0 && w.dev.hasStore) sDoneEmpty <|
  let next := match rs with | r :: _ => r + 1 | [] => 0
  match w.spillRead [] (((rs.take (seqSpan next (pw p 0) rs.length)).reverse).take n) with
  | (some bs, w) => w.ok bs
  | (none, w) => w.internal.fail sInternalFault

/-- FLUE_ACTIVE (R296). -/
def cmdFlueActive : Body := fun _ w => w.ok (w.regWords 2 0 ((List.range 64).map fun i => 0x100 + 4 * i))

/-- DAMP_STATUS (R296). -/
def cmdDampStatus : Body := fun _ w =>
  w.ok (w.regWords 6 0 ((List.range 9).map (fun i => 0x20 + 4 * i) ++ (List.range 16).map fun h => 0x104 + 256 * h))

end Sys2Proof.Machine
end

