-- ==== Sys2Proof/Machine/SysCmds.lean ====
section
/-! DEFINITION. The mode commands (R41, R52, R76, R470), grants and the expert log (R81 to R83), life-cycle tokens
(R55 to R58), and TRACE_STATUS (R77). -/

namespace Sys2Proof.Machine

/-- DEVICE_RESET (R76): DONE, and then the reset. (DESIGN CHOICE: assumption 72.) -/
def cmdDeviceReset : Body := fun _ w => (w.upd fun d => { d with sys := { d.sys with resetArmed := true } }).ok

/-- The hearths that the schedule table names: those whose active bank has entries. -/
def W.scheduled (w : W) : List Nat := (List.range 16).filter fun h => !(w.entries h (w.activeBank h)).isEmpty

/-- The active schedule of hearth `h` is an accepted one (R52, R259). -/
def W.schedAccepted (w : W) (h : Nat) : Bool := w.planPasses h (w.plan h (w.activeBank h)) (w.checkLevel h)

/-- A hearth with loop contexts has no schedule: its active bank was never loaded (R52, R263).
(DEDUCED: assumption 128.) -/
def W.schedMissing (w : W) (h : Nat) : Bool :=
  let b := w.dev.blw h
  !b.loaded.isEmpty && !(b.banks.getD (w.activeBank h).toNat {}).loaded

/-- RUN_START (R52): the transition is made at the next base-frame boundary. (DESIGN CHOICE: assumption 11.) -/
def cmdRunStart : Body := fun _ w =>
  let hs := w.scheduled
  w.need (!w.dev.sys.recovery) sWrongMode <|
  w.need (!w.dev.isCourse || w.dev.clock.everLocked) sWrongMode <|
  w.need (hs.all fun h => bitAt w.dev.images.loaded h) sWrongMode <|
  w.readCtxs (hs.flatMap fun h => w.planCtxs h (w.activeBank h)) fun w =>
  w.need (hs.all w.schedAccepted && !(List.range 16).any w.schedMissing) sWrongMode <|
  w.need (w.dev.commit (blockBase 2 0)).everDone sWrongMode <|
  w.need w.trips.isEmpty sLocked <|
  w.need (!w.dev.sys.lockoutRec) sLocked <|
  let w := w.upd fun d => d.advanceTb (25000 * (d.clock.tb.toNat / 25000 + 1))
  (w.setMode w.runMode).ok

/-- RUN_STOP (R41). -/
def cmdRunStop : Body := fun _ w => (w.setMode .prepare).ok

/-- DOZE_ENTER (R470). (DEDUCED: assumption 69.) -/
def cmdDozeEnter : Body := fun p w =>
  let s := w.dev.stoker
  w.need (s.pends.all (fun q => q.src == srcKey p && q.seq == p.seq) && s.txn.isNone && s.grants.isEmpty &&
    w.dev.power.changes.rows.isEmpty) sLocked <|
  (w.upd fun d => { d with sys := { d.sys with dozeArmed := true } }).ok

/-- MAINTAIN_ENTER (R41, R81). -/
def cmdMaintainEnter : Body := fun _ w =>
  w.need (w.grantOn 1 15 (some 0)).isSome sNotGranted <| (w.setMode .maintain).ok

/-- MAINTAIN_EXIT (R41). -/
def cmdMaintainExit : Body := fun _ w => (w.setMode .prepare).ok

/-- NOP (R76). -/
def cmdNop : Body := fun _ w => w.ok

/-- LC_NONCE_GET (R55). -/
def cmdLcNonceGet : Body := fun _ w => w.ok (le 4 w.dev.sys.nonce.toNat)

/-- The checks of a signed form that its key decides (R56): the key hash and the signature.
(DEDUCED: assumption 70.) -/
def keyStatus (hash : Option (List Byte)) (key modulus expo sig msg : List Byte) : Option Nat :=
  if hash ≠ some (sha256 key) then some sAuthFail
  else if rsaOk modulus expo sig msg = false then some sSignatureBad
  else none

/-- What opens a grant (R81). (DEDUCED: assumption 71.) -/
def W.openGrant (w : W) (b : List Byte) (signed : Bool) : Res :=
  let v := wordAt b 0
  let typ := fld v 0 16
  let inst := fld v 16 16
  let rights := wordAt b 8
  w.need (!(typ == 2 && bitAt rights 0) && typ != 17) sLocked <|
  w.need (decide (w.dev.stoker.grants.length < 8)) sNoResource <|
  let s := w.dev.stoker
  let g : Grant := { id := s.nextGrant, typ := typ, inst := if inst = 0xFFFF then none else some inst,
                     till := w.dev.clock.tb + w64 ((wordAt b 4).toNat * 1000000000), rights := BitVec.ofNat 2 rights.toNat,
                     signed := signed }
  (w.upd fun d => { d with stoker := { d.stoker with
    grants := d.stoker.grants ++ [g], nextGrant := if g.id + 1 = 0 then 1 else g.id + 1 } }).ok (le 4 g.id.toNat)

/-- The parameter checks 1 and 2 of R81. -/
def W.grantFields (w : W) (b : List Byte) (signed : Bool) : Bool :=
  let v := wordAt b 0
  let typ := fld v 0 16
  let inst := fld v 16 16
  let dur := (wordAt b 4).toNat
  let rights := (wordAt b 8).toNat
  (if inst = 0xFFFF then (List.range 16).any (w.hasBlock typ) else w.hasBlock typ inst) &&
  decide (1 ≤ dur ∧ dur ≤ 86400 ∧ rights < 4) && (rights < 2 || typ == 15 || typ == 16) && allZero (slice b 12 4) &&
  (!signed || (allZero (slice b 0x1C 4) && allZero (slice b 0x1A4 28)))

/-- EXPERT_GRANT (R81). (DEDUCED: assumption 70.) -/
def cmdExpertGrant : Body := fun p w =>
  let b := pktBody p
  let signed := b.length == 832
  w.need (signed || w.lifecycle != 2) sLocked <|
  if signed then
    w.drbg <|
    let nonce := w.dev.sys.nonce
    let w := w.newNonce
    w.need (w.grantFields b true) sBadParam <|
    w.need (slice b 0x10 8 == le 8 w.fuse.uid.toNat && wordAt b 0x18 == nonce) sBadParam <|
    match keyStatus (w.fuse.keyHash 1) (slice b 0x20 388) (slice b 0x20 384) (slice b 0x1A0 4) (slice b 0x1C0 384) (b.take 0x1C0) with
    | some st => w.fail st
    | none => w.openGrant b true
  else w.need (w.grantFields b false) sBadParam <| w.openGrant b false

/-- End the grant of an identifier. -/
def W.endGrant (w : W) (id : Word32) : W :=
  w.upd fun d => { d with stoker := { d.stoker with grants := d.stoker.grants.filter (fun g => g.id != id) } }

/-- GRANT_RELEASE (R82). -/
def cmdGrantRelease : Body := fun p w =>
  w.need (w.dev.stoker.grants.any fun g => g.id == pw p 0) sBadParam <| (w.endGrant (pw p 0)).ok

/-- GRANT_EXPIRY (R82): the time base reaches the end of the grant's DURATION. -/
def execGrantExpiry (id : Word32) (s : State) : Host.Outcome State Fault Refusal :=
  run s fun w =>
    match w.dev.stoker.grants.find? (fun g => g.id == id) with
    | some g => (w.upd fun d => d.advanceTb g.till.toNat).endGrant id
    | none => w

/-- The 32 bytes of an expert log record (R83). -/
def XRec.bytes (r : XRec) : List Byte :=
  le 8 r.time.toNat ++ le 4 r.grant.toNat ++ le 4 (r.master.toNat + at_ r.result.toNat 16) ++ le 8 r.addr ++ le 4 r.value.toNat ++
  le 4 r.rseq.toNat

/-- EXPERT_LOG_READ (R83): the records read are marked, and a full log ends being full. -/
def cmdExpertLogRead : Body := fun p w =>
  let n := (pw p 1).toNat
  let s := w.dev.stoker
  w.need (decide (n ≤ 127)) sBadParam <| w.need (n != 0) sDoneEmpty <|
  let old := (s.xlog.takeWhile fun r => decide ((r.rseq - pw p 0).toInt < 0)).length
  let rs := slice s.xlog old n
  let w := w.upd fun d => { d with stoker := { d.stoker with
    xlog := s.xlog.take old ++ rs.map (fun r => { r with read := true }) ++ s.xlog.drop (old + n) } }
  let w := if w.active 0x054 && !w.xlogFull then w.inactive 0x054 else w
  w.ok (rs.flatMap XRec.bytes)

/-- The transitions of R57, with the keys that may sign them: 0 vendor root, 1 customer firmware. -/
def lcKeys (a b : Nat) : List Nat :=
  if a = 0 ∧ b = 1 then [0] else if a = 1 ∧ b = 2 then [1] else if (a = 1 ∨ a = 2) ∧ b = 3 then [1]
  else if a ≤ 2 ∧ b = 4 then [0, 1] else if a = 3 ∧ b = 4 then [0] else []

/-- The fields of a token (R55, R56). (DEDUCED: assumption 70.) -/
def W.tokenFields (w : W) (b : List Byte) (nonce : Word32) : Bool :=
  let st := wordAt b 4
  let a := fld st 0 8
  let t := fld st 8 8
  let first := a == 0 && t == 1
  wordAt b 0 == 0x4E4B544C && fld st 16 16 == 0 && slice b 8 8 == le 8 w.fuse.uid.toNat && wordAt b 16 == nonce &&
  a == w.lifecycle && (lcKeys a t).contains (wordAt b 20).toNat && (first || allZero (slice b 0x18 32)) &&
  ((first && w.isM) || allZero (slice b 0x38 32)) && allZero (slice b 0x58 8) && allZero (slice b 0x1E4 28)

/-- Steps 1 to 3 of R56: key hashes, the effects of R58, and the target group (R54). Volatile copies of secrets are
zeroised with the sessions, which the change ends; the session that the token came through ends after its reply (R454).
(DEDUCED: assumption 71.) -/
def W.lcApply (w : W) (b : List Byte) (target : Nat) (own : Word32) : W :=
  let blow := fun (f : Fuse) => match target with
    | 1 => { f with provisioned := 7 }
    | 2 => { f with field := 7 }
    | 3 => { f with returned := 7, unreadable := true }
    | _ => { f with scrapped := 7, unreadable := true, secretOff := true }
  let w := if target = 1 then
      let (n, w) := w.fresh
      { w with fuse := { w.fuse with custHash := slice b 0x18 32, metrHash := if w.isM then slice b 0x38 32 else w.fuse.metrHash,
                                     identity := some n } }
    else w
  let w := w.each (w.dev.images.sessions.filter (fun s => s.id != own)) fun s w => w.endSession s.id
  let w := w.closing own
  let w := if 3 ≤ target then w.upd fun d => { d with stoker := { d.stoker with grants := [] } } else w
  { w with fuse := blow w.fuse }

/-- LC_TOKEN (R56). (DEDUCED: assumption 70.) -/
def cmdLcToken : Body := fun p w =>
  let b := pktBody p
  w.drbg <|
  let nonce := w.dev.sys.nonce
  let w := w.newNonce
  w.need (w.tokenFields b nonce) sBadParam <|
  match keyStatus (w.fuse.keyHash (wordAt b 20).toNat) (slice b 0x60 388) (slice b 0x60 384) (slice b 0x1E0 4) (slice b 0x200 384)
      (b.take 0x200) with
  | some st => w.fail st
  | none => ((w.lcApply b (fld (wordAt b 4) 8 8) p.session).upd fun d => { d with sys := { d.sys with resetArmed := true } }).ok

/-- TRACE_STATUS (R77). -/
def cmdTraceStatus : Body := fun _ w =>
  let cfg := w.reg 2 0 0x34
  let q := match (w.portStat (fld cfg 12 12)).1 with
    | .data bs => bs
    | _ => []
  w.ok (le 4 cfg.toNat ++ le 4 (w.regRead 2 0 0x4C).toNat ++ q ++ le 4 (w.regRead 2 0 0x48).toNat ++ le 4 (w.regRead 2 0 0x20).toNat)

end Sys2Proof.Machine
end

