-- ==== Sys2Proof/Machine/CommandRows.lean ====
section
/-! DEFINITION. The rows of the command packets (R68 to R75): what each command names (R73), its body, and the rows of
packets that wait, are forwarded or have no opcode of the Pattern. -/

namespace Sys2Proof.Machine

/-- The blocks that a CONFIG_BEGIN names. -/
def begins (p : Packet) : List Obj := (pwords p 0).map fun e => .block (blockBase (entryBlock e).1 (entryBlock e).2)

/-- The objects that a command packet names or holds (R73). A configuration command names the blocks of its source's
transaction, or of the CONFIG_BEGIN that is yet to open it; a command for another position names nothing here; a command that reads or writes a hearth as a whole names the hearth.
(DEDUCED: assumption 73.) -/
def W.objs (w : W) (opc : Nat) (p : Packet) : List Obj :=
  if w.otherPos p.target then [] else
  let v := pw p 0
  let n := v.toNat
  let h := fld v 0 4
  let txn : List Obj := match w.dev.stoker.txn with
    | some t => if t.src = srcKey p then t.blocks.map Obj.block else []
    | none => (w.dev.stoker.pends.filter fun q => q.opc.toNat == 0x0201 && q.src == srcKey p).flatMap fun q => begins q.pkt
  let rail : List Obj := [.rail (railOf h)]
  match opc with
  | 0x0201 => begins p
  | 0x0202 => txn
  | 0x0203 => txn
  | 0x0204 => txn
  | 0x0301 => [.hearth n]
  | 0x0302 => [.part h 1 (fld v 4 4)]
  | 0x0303 => [.part h 1 (fld v 4 4)]
  | 0x0305 => [if n = 64 then .hearth 16 else .part (n / 4) 0 (n % 4)]
  | 0x0307 => [.hearth n]
  | 0x0401 => [.part h 2 (fld v 4 8)]
  | 0x0402 => [.part h 2 (fld v 4 8), .part h 3 0]
  | 0x0403 => [.part h 2 (fld v 4 8), .part h 3 0]
  | 0x0404 => [.part h 2 (fld v 4 8)]
  | 0x0405 => [.part h 2 (fld v 4 8)]
  | 0x0406 => [.hearth h]
  | 0x0407 => [.hearth h]
  | 0x0408 => [.hearth h]
  | 0x0409 => [.hearth h]
  | 0x040A => [.part h 2 (fld v 4 8)]
  | 0x0410 => .hearth h :: rail
  | 0x0411 => .hearth h :: rail
  | 0x0412 => .hearth h :: rail
  | 0x0413 => .hearth h :: rail
  | 0x0501 => [.block (blockBase 10 n)]
  | 0x0502 => [.block (blockBase 10 n)]
  | 0x0503 => [.engine 0]
  | 0x0508 => [.block (blockBase 10 (w.dev.dramMap (p48 p 0 - dramBase)).1)]
  | 0x050A => [.engine 0]
  | 0x0510 => [.hearth n]
  | 0x0511 => [.hearth n]
  | 0x0540 => [.block (blockBase 11 0)]
  | 0x0541 => [.block (blockBase 11 0)]
  | 0x0601 => (queueEntries (pwords p 0)).map fun e => .queue (entryQ e)
  | 0x0602 => [.queue n]
  | 0x0603 => [.queue n]
  | 0x0605 => [.queue (fld v 10 12)]
  | 0x0704 => [.engine 2]
  | 0x0705 => [.hearth h]
  | 0x0801 => [if n = 64 then .hearth 16 else .part (n / 4) 0 (n % 4)]
  | 0x0902 => [.rail (fld v 0 2)]
  | 0x0A02 => [.image]
  | 0x0A03 => [.image]
  | 0x0A04 => [.image]
  | 0x0A05 => [.image]
  | 0x0A06 => [.image]
  | 0x0A08 => (bitsOf 16 n).flatMap fun k => [.hearth k, .rail (railOf k)]
  | 0x0A20 => ((List.range 16).filter fun i => fld v 16 16 == 0xFFFF || fld v 16 16 == i).map fun i => .block (blockBase (fld v 0 16) i)
  | 0x0B02 => [.engine 1]
  | 0x0B03 => [.queue (fld v 0 12)]
  | 0x0B04 => [.engine (4 + fld v 0 1)]
  | 0x0B05 => [.engine (4 + fld v 0 1)]
  | 0x0C03 => [.engine 3]
  | 0x0E03 => [.hearth n]
  | _ => []

/-- The body of an opcode. -/
def bodyOf (opc : Nat) : Body :=
  match opc with
  | 0x0101 => cmdDeviceReset
  | 0x0102 => cmdRunStart
  | 0x0103 => cmdRunStop
  | 0x0104 => cmdDozeEnter
  | 0x0105 => cmdMaintainEnter
  | 0x0106 => cmdMaintainExit
  | 0x0107 => cmdNop
  | 0x0110 => cmdTimeStatus
  | 0x0111 => cmdTimeStep
  | 0x0201 => cmdConfigBegin
  | 0x0202 => cmdConfigWrite
  | 0x0203 => cmdConfigCommit
  | 0x0204 => cmdConfigAbort
  | 0x0301 => cmdLaneStatus
  | 0x0302 => cmdLaneFence
  | 0x0303 => cmdLaneRetest
  | 0x0305 => cmdCoreRestart
  | 0x0307 => cmdHearthReset
  | 0x0401 => cmdLoopLoad
  | 0x0402 => cmdLoopParam
  | 0x0403 => cmdLoopMode
  | 0x0404 => cmdLoopResume
  | 0x0405 => cmdLoopStatus
  | 0x0406 => cmdLoopImageBind
  | 0x0407 => cmdLoopExtWrite
  | 0x0408 => cmdBellowsStatus
  | 0x0409 => cmdBellowsCountClear
  | 0x040A => cmdLoopInject
  | 0x0410 => cmdSchedLoad
  | 0x0411 => cmdSchedSwap
  | 0x0412 => cmdSchedStatus
  | 0x0413 => cmdSchedCheck
  | 0x0501 => cmdMemStatus
  | 0x0502 => cmdMemLogRead
  | 0x0503 => cmdMemScrub
  | 0x0504 => cmdMemRetire
  | 0x0505 => cmdMemRetireList
  | 0x0506 => cmdMemRepairAdd
  | 0x0507 => cmdMemRepairList
  | 0x0508 => cmdMemInject
  | 0x0509 => cmdMemConfig
  | 0x050A => cmdMemFill
  | 0x0510 => cmdHobStatus
  | 0x0511 => cmdHobCountClear
  | 0x0540 => cmdFwStatus
  | 0x0541 => cmdFwViolClear
  | 0x0601 => cmdQueueSet
  | 0x0602 => cmdQueueStatus
  | 0x0603 => cmdQueueFlush
  | 0x0604 => cmdPoolStatus
  | 0x0605 => cmdQueueBind
  | 0x0701 => cmdFlueStatus
  | 0x0702 => cmdFlueHistoryRead
  | 0x0703 => cmdLockoutReset
  | 0x0704 => cmdErrpinRelease
  | 0x0705 => cmdFlueRelease
  | 0x0706 => cmdFlueTest
  | 0x0707 => cmdFlueEventsRead
  | 0x0708 => cmdFlueActive
  | 0x0801 => wdtStatus
  | 0x0901 => cmdPwrStatus
  | 0x0902 => cmdPwrLevel
  | 0x0903 => cmdPwrVote
  | 0x0904 => cmdPadRelease
  | 0x0905 => cmdPwrDomainStatus
  | 0x0906 => cmdPwrCountClear
  | 0x0A01 => cmdImageStatus
  | 0x0A02 => cmdStageBegin
  | 0x0A03 => cmdStageChunk
  | 0x0A04 => cmdImageVerify
  | 0x0A05 => cmdImageDiscard
  | 0x0A06 => cmdImagePersist
  | 0x0A08 => cmdCutover
  | 0x0A09 => cmdCutoverStatus
  | 0x0A10 => cmdAttest
  | 0x0A20 => cmdExpertGrant
  | 0x0A21 => cmdGrantRelease
  | 0x0A23 => cmdExpertLogRead
  | 0x0A30 => cmdLcNonceGet
  | 0x0A31 => cmdLcToken
  | 0x0A40 => cmdSessionCfg
  | 0x0A41 => cmdSessionOpen
  | 0x0A42 => cmdSessionClose
  | 0x0A43 => cmdSessionStatus
  | 0x0B01 => cmdThmStatus
  | 0x0B02 => cmdThmGate
  | 0x0B03 => cmdThmForward
  | 0x0B04 => cmdThmSlotErase
  | 0x0B05 => cmdThmSlotWrite
  | 0x0C01 => cmdChimneyStatus
  | 0x0C02 => cmdChimneySet
  | 0x0C03 => cmdChimneyRetrain
  | 0x0D01 => cmdDampStatus
  | 0x0D10 => cmdFioStatus
  | 0x0E01 => cmdBasteStatus
  | 0x0E02 => cmdBasteResults
  | 0x0E03 => cmdBasteNow
  | 0x0E10 => cmdScanOpen
  | 0x0F01 => cmdTraceStatus
  | _ => fun _ w => w.fail sUnknownOpcode

/-- A command packet arrives at the Stoker (R68). -/
def command (opc : Half) (p : Packet) (body : Body) (s : State) : Host.Outcome State Fault Refusal :=
  run s fun w => w.take w.objs opc p body

/-- A command packet that may blow fuses arrives, LC_TOKEN. -/
def commandFuse (opc : Half) (p : Packet) (s : State) : Host.Outcome State Fault Refusal :=
  runFuse s fun w => w.take w.objs opc p (bodyOf opc.toNat)

/-- DEVICE_RESET. -/
def execDeviceReset (p : Packet) (s : State) : Host.Outcome State Fault Refusal := command 0x0101 p cmdDeviceReset s

/-- RUN_START. -/
def execRunStart (p : Packet) (s : State) : Host.Outcome State Fault Refusal := command 0x0102 p cmdRunStart s

/-- RUN_STOP. -/
def execRunStop (p : Packet) (s : State) : Host.Outcome State Fault Refusal := command 0x0103 p cmdRunStop s

/-- DOZE_ENTER. -/
def execDozeEnter (p : Packet) (s : State) : Host.Outcome State Fault Refusal := command 0x0104 p cmdDozeEnter s

/-- MAINTAIN_ENTER. -/
def execMaintainEnter (p : Packet) (s : State) : Host.Outcome State Fault Refusal := command 0x0105 p cmdMaintainEnter s

/-- MAINTAIN_EXIT. -/
def execMaintainExit (p : Packet) (s : State) : Host.Outcome State Fault Refusal := command 0x0106 p cmdMaintainExit s

/-- NOP. -/
def execNop (p : Packet) (s : State) : Host.Outcome State Fault Refusal := command 0x0107 p cmdNop s

/-- TIME_STATUS. -/
def execTimeStatus (p : Packet) (s : State) : Host.Outcome State Fault Refusal := command 0x0110 p cmdTimeStatus s

/-- TIME_STEP. -/
def execTimeStep (p : Packet) (s : State) : Host.Outcome State Fault Refusal := command 0x0111 p cmdTimeStep s

/-- CONFIG_BEGIN. -/
def execConfigBegin (p : Packet) (s : State) : Host.Outcome State Fault Refusal := command 0x0201 p cmdConfigBegin s

/-- CONFIG_WRITE. -/
def execConfigWrite (p : Packet) (s : State) : Host.Outcome State Fault Refusal := command 0x0202 p cmdConfigWrite s

/-- CONFIG_COMMIT. -/
def execConfigCommit (p : Packet) (s : State) : Host.Outcome State Fault Refusal := command 0x0203 p cmdConfigCommit s

/-- CONFIG_ABORT. -/
def execConfigAbort (p : Packet) (s : State) : Host.Outcome State Fault Refusal := command 0x0204 p cmdConfigAbort s

/-- LANE_STATUS. -/
def execLaneStatus (p : Packet) (s : State) : Host.Outcome State Fault Refusal := command 0x0301 p cmdLaneStatus s

/-- LANE_FENCE. -/
def execLaneFence (p : Packet) (s : State) : Host.Outcome State Fault Refusal := command 0x0302 p cmdLaneFence s

/-- LANE_RETEST. -/
def execLaneRetest (p : Packet) (s : State) : Host.Outcome State Fault Refusal := command 0x0303 p cmdLaneRetest s

/-- CORE_RESTART. -/
def execCoreRestart (p : Packet) (s : State) : Host.Outcome State Fault Refusal := command 0x0305 p cmdCoreRestart s

/-- HEARTH_RESET. -/
def execHearthReset (p : Packet) (s : State) : Host.Outcome State Fault Refusal := command 0x0307 p cmdHearthReset s

/-- LOOP_LOAD. -/
def execLoopLoad (p : Packet) (s : State) : Host.Outcome State Fault Refusal := command 0x0401 p cmdLoopLoad s

/-- LOOP_PARAM. -/
def execLoopParam (p : Packet) (s : State) : Host.Outcome State Fault Refusal := command 0x0402 p cmdLoopParam s

/-- LOOP_MODE. -/
def execLoopMode (p : Packet) (s : State) : Host.Outcome State Fault Refusal := command 0x0403 p cmdLoopMode s

/-- LOOP_RESUME. -/
def execLoopResume (p : Packet) (s : State) : Host.Outcome State Fault Refusal := command 0x0404 p cmdLoopResume s

/-- LOOP_STATUS. -/
def execLoopStatus (p : Packet) (s : State) : Host.Outcome State Fault Refusal := command 0x0405 p cmdLoopStatus s

/-- LOOP_IMAGE_BIND. -/
def execLoopImageBind (p : Packet) (s : State) : Host.Outcome State Fault Refusal := command 0x0406 p cmdLoopImageBind s

/-- LOOP_EXT_WRITE. -/
def execLoopExtWrite (p : Packet) (s : State) : Host.Outcome State Fault Refusal := command 0x0407 p cmdLoopExtWrite s

/-- BELLOWS_STATUS. -/
def execBellowsStatus (p : Packet) (s : State) : Host.Outcome State Fault Refusal := command 0x0408 p cmdBellowsStatus s

/-- BELLOWS_COUNT_CLEAR. -/
def execBellowsCountClear (p : Packet) (s : State) : Host.Outcome State Fault Refusal := command 0x0409 p cmdBellowsCountClear s

/-- LOOP_INJECT. -/
def execLoopInject (p : Packet) (s : State) : Host.Outcome State Fault Refusal := command 0x040A p cmdLoopInject s

/-- SCHED_LOAD. -/
def execSchedLoad (p : Packet) (s : State) : Host.Outcome State Fault Refusal := command 0x0410 p cmdSchedLoad s

/-- SCHED_SWAP. -/
def execSchedSwap (p : Packet) (s : State) : Host.Outcome State Fault Refusal := command 0x0411 p cmdSchedSwap s

/-- SCHED_STATUS. -/
def execSchedStatus (p : Packet) (s : State) : Host.Outcome State Fault Refusal := command 0x0412 p cmdSchedStatus s

/-- SCHED_CHECK. -/
def execSchedCheck (p : Packet) (s : State) : Host.Outcome State Fault Refusal := command 0x0413 p cmdSchedCheck s

/-- MEM_STATUS. -/
def execMemStatus (p : Packet) (s : State) : Host.Outcome State Fault Refusal := command 0x0501 p cmdMemStatus s

/-- MEM_LOG_READ. -/
def execMemLogRead (p : Packet) (s : State) : Host.Outcome State Fault Refusal := command 0x0502 p cmdMemLogRead s

/-- MEM_SCRUB. -/
def execMemScrub (p : Packet) (s : State) : Host.Outcome State Fault Refusal := command 0x0503 p cmdMemScrub s

/-- MEM_RETIRE. -/
def execMemRetire (p : Packet) (s : State) : Host.Outcome State Fault Refusal := command 0x0504 p cmdMemRetire s

/-- MEM_RETIRE_LIST. -/
def execMemRetireList (p : Packet) (s : State) : Host.Outcome State Fault Refusal := command 0x0505 p cmdMemRetireList s

/-- MEM_REPAIR_ADD. -/
def execMemRepairAdd (p : Packet) (s : State) : Host.Outcome State Fault Refusal := command 0x0506 p cmdMemRepairAdd s

/-- MEM_REPAIR_LIST. -/
def execMemRepairList (p : Packet) (s : State) : Host.Outcome State Fault Refusal := command 0x0507 p cmdMemRepairList s

/-- MEM_INJECT. -/
def execMemInject (p : Packet) (s : State) : Host.Outcome State Fault Refusal := command 0x0508 p cmdMemInject s

/-- MEM_CONFIG. -/
def execMemConfig (p : Packet) (s : State) : Host.Outcome State Fault Refusal := command 0x0509 p cmdMemConfig s

/-- MEM_FILL. -/
def execMemFill (p : Packet) (s : State) : Host.Outcome State Fault Refusal := command 0x050A p cmdMemFill s

/-- HOB_STATUS. -/
def execHobStatus (p : Packet) (s : State) : Host.Outcome State Fault Refusal := command 0x0510 p cmdHobStatus s

/-- HOB_COUNT_CLEAR. -/
def execHobCountClear (p : Packet) (s : State) : Host.Outcome State Fault Refusal := command 0x0511 p cmdHobCountClear s

/-- FW_STATUS. -/
def execFwStatus (p : Packet) (s : State) : Host.Outcome State Fault Refusal := command 0x0540 p cmdFwStatus s

/-- FW_VIOL_CLEAR. -/
def execFwViolClear (p : Packet) (s : State) : Host.Outcome State Fault Refusal := command 0x0541 p cmdFwViolClear s

/-- QUEUE_SET. -/
def execQueueSet (p : Packet) (s : State) : Host.Outcome State Fault Refusal := command 0x0601 p cmdQueueSet s

/-- QUEUE_STATUS. -/
def execQueueStatus (p : Packet) (s : State) : Host.Outcome State Fault Refusal := command 0x0602 p cmdQueueStatus s

/-- QUEUE_FLUSH. -/
def execQueueFlush (p : Packet) (s : State) : Host.Outcome State Fault Refusal := command 0x0603 p cmdQueueFlush s

/-- POOL_STATUS. -/
def execPoolStatus (p : Packet) (s : State) : Host.Outcome State Fault Refusal := command 0x0604 p cmdPoolStatus s

/-- QUEUE_BIND. -/
def execQueueBind (p : Packet) (s : State) : Host.Outcome State Fault Refusal := command 0x0605 p cmdQueueBind s

/-- FLUE_STATUS. -/
def execFlueStatus (p : Packet) (s : State) : Host.Outcome State Fault Refusal := command 0x0701 p cmdFlueStatus s

/-- FLUE_HISTORY_READ. -/
def execFlueHistoryRead (p : Packet) (s : State) : Host.Outcome State Fault Refusal := command 0x0702 p cmdFlueHistoryRead s

/-- LOCKOUT_RESET. -/
def execLockoutReset (p : Packet) (s : State) : Host.Outcome State Fault Refusal := command 0x0703 p cmdLockoutReset s

/-- ERRPIN_RELEASE. -/
def execErrpinRelease (p : Packet) (s : State) : Host.Outcome State Fault Refusal := command 0x0704 p cmdErrpinRelease s

/-- FLUE_RELEASE. -/
def execFlueRelease (p : Packet) (s : State) : Host.Outcome State Fault Refusal := command 0x0705 p cmdFlueRelease s

/-- FLUE_TEST. -/
def execFlueTest (p : Packet) (s : State) : Host.Outcome State Fault Refusal := command 0x0706 p cmdFlueTest s

/-- FLUE_EVENTS_READ. -/
def execFlueEventsRead (p : Packet) (s : State) : Host.Outcome State Fault Refusal := command 0x0707 p cmdFlueEventsRead s

/-- FLUE_ACTIVE. -/
def execFlueActive (p : Packet) (s : State) : Host.Outcome State Fault Refusal := command 0x0708 p cmdFlueActive s

/-- WDT_STATUS. -/
def execWdtStatus (p : Packet) (s : State) : Host.Outcome State Fault Refusal := command 0x0801 p wdtStatus s

/-- PWR_STATUS. -/
def execPwrStatus (p : Packet) (s : State) : Host.Outcome State Fault Refusal := command 0x0901 p cmdPwrStatus s

/-- PWR_LEVEL. -/
def execPwrLevel (p : Packet) (s : State) : Host.Outcome State Fault Refusal := command 0x0902 p cmdPwrLevel s

/-- PWR_VOTE. -/
def execPwrVote (p : Packet) (s : State) : Host.Outcome State Fault Refusal := command 0x0903 p cmdPwrVote s

/-- PAD_RELEASE. -/
def execPadRelease (p : Packet) (s : State) : Host.Outcome State Fault Refusal := command 0x0904 p cmdPadRelease s

/-- PWR_DOMAIN_STATUS. -/
def execPwrDomainStatus (p : Packet) (s : State) : Host.Outcome State Fault Refusal := command 0x0905 p cmdPwrDomainStatus s

/-- PWR_COUNT_CLEAR. -/
def execPwrCountClear (p : Packet) (s : State) : Host.Outcome State Fault Refusal := command 0x0906 p cmdPwrCountClear s

/-- IMAGE_STATUS. -/
def execImageStatus (p : Packet) (s : State) : Host.Outcome State Fault Refusal := command 0x0A01 p cmdImageStatus s

/-- IMAGE_STAGE_BEGIN. -/
def execImageStageBegin (p : Packet) (s : State) : Host.Outcome State Fault Refusal := command 0x0A02 p cmdStageBegin s

/-- IMAGE_STAGE_CHUNK. -/
def execImageStageChunk (p : Packet) (s : State) : Host.Outcome State Fault Refusal := command 0x0A03 p cmdStageChunk s

/-- IMAGE_VERIFY. -/
def execImageVerify (p : Packet) (s : State) : Host.Outcome State Fault Refusal := command 0x0A04 p cmdImageVerify s

/-- IMAGE_DISCARD. -/
def execImageDiscard (p : Packet) (s : State) : Host.Outcome State Fault Refusal := command 0x0A05 p cmdImageDiscard s

/-- IMAGE_PERSIST. -/
def execImagePersist (p : Packet) (s : State) : Host.Outcome State Fault Refusal := command 0x0A06 p cmdImagePersist s

/-- CUTOVER. -/
def execCutover (p : Packet) (s : State) : Host.Outcome State Fault Refusal := command 0x0A08 p cmdCutover s

/-- CUTOVER_STATUS. -/
def execCutoverStatus (p : Packet) (s : State) : Host.Outcome State Fault Refusal := command 0x0A09 p cmdCutoverStatus s

/-- ATTEST. -/
def execAttest (p : Packet) (s : State) : Host.Outcome State Fault Refusal := command 0x0A10 p cmdAttest s

/-- EXPERT_GRANT. -/
def execExpertGrant (p : Packet) (s : State) : Host.Outcome State Fault Refusal := command 0x0A20 p cmdExpertGrant s

/-- GRANT_RELEASE. -/
def execGrantRelease (p : Packet) (s : State) : Host.Outcome State Fault Refusal := command 0x0A21 p cmdGrantRelease s

/-- EXPERT_LOG_READ. -/
def execExpertLogRead (p : Packet) (s : State) : Host.Outcome State Fault Refusal := command 0x0A23 p cmdExpertLogRead s

/-- LC_NONCE_GET. -/
def execLcNonceGet (p : Packet) (s : State) : Host.Outcome State Fault Refusal := command 0x0A30 p cmdLcNonceGet s

/-- LC_TOKEN. -/
def execLcToken (p : Packet) (s : State) : Host.Outcome State Fault Refusal := commandFuse 0x0A31 p s

/-- SESSION_CFG. -/
def execSessionCfg (p : Packet) (s : State) : Host.Outcome State Fault Refusal := command 0x0A40 p cmdSessionCfg s

/-- SESSION_OPEN. -/
def execSessionOpen (p : Packet) (s : State) : Host.Outcome State Fault Refusal := command 0x0A41 p cmdSessionOpen s

/-- SESSION_CLOSE. -/
def execSessionClose (p : Packet) (s : State) : Host.Outcome State Fault Refusal := command 0x0A42 p cmdSessionClose s

/-- SESSION_STATUS. -/
def execSessionStatus (p : Packet) (s : State) : Host.Outcome State Fault Refusal := command 0x0A43 p cmdSessionStatus s

/-- THM_STATUS. -/
def execThmStatus (p : Packet) (s : State) : Host.Outcome State Fault Refusal := command 0x0B01 p cmdThmStatus s

/-- THM_GATE. -/
def execThmGate (p : Packet) (s : State) : Host.Outcome State Fault Refusal := command 0x0B02 p cmdThmGate s

/-- THM_FORWARD. -/
def execThmForward (p : Packet) (s : State) : Host.Outcome State Fault Refusal := command 0x0B03 p cmdThmForward s

/-- THM_SLOT_ERASE. -/
def execThmSlotErase (p : Packet) (s : State) : Host.Outcome State Fault Refusal := command 0x0B04 p cmdThmSlotErase s

/-- THM_SLOT_WRITE. -/
def execThmSlotWrite (p : Packet) (s : State) : Host.Outcome State Fault Refusal := command 0x0B05 p cmdThmSlotWrite s

/-- CHIMNEY_STATUS. -/
def execChimneyStatus (p : Packet) (s : State) : Host.Outcome State Fault Refusal := command 0x0C01 p cmdChimneyStatus s

/-- CHIMNEY_SET. -/
def execChimneySet (p : Packet) (s : State) : Host.Outcome State Fault Refusal := command 0x0C02 p cmdChimneySet s

/-- CHIMNEY_RETRAIN. -/
def execChimneyRetrain (p : Packet) (s : State) : Host.Outcome State Fault Refusal := command 0x0C03 p cmdChimneyRetrain s

/-- DAMP_STATUS. -/
def execDampStatus (p : Packet) (s : State) : Host.Outcome State Fault Refusal := command 0x0D01 p cmdDampStatus s

/-- FIO_STATUS. -/
def execFioStatus (p : Packet) (s : State) : Host.Outcome State Fault Refusal := command 0x0D10 p cmdFioStatus s

/-- BASTE_STATUS. -/
def execBasteStatus (p : Packet) (s : State) : Host.Outcome State Fault Refusal := command 0x0E01 p cmdBasteStatus s

/-- BASTE_RESULTS. -/
def execBasteResults (p : Packet) (s : State) : Host.Outcome State Fault Refusal := command 0x0E02 p cmdBasteResults s

/-- BASTE_NOW. -/
def execBasteNow (p : Packet) (s : State) : Host.Outcome State Fault Refusal := command 0x0E03 p cmdBasteNow s

/-- SCAN_OPEN. -/
def execScanOpen (p : Packet) (s : State) : Host.Outcome State Fault Refusal := command 0x0E10 p cmdScanOpen s

/-- TRACE_STATUS. -/
def execTraceStatus (p : Packet) (s : State) : Host.Outcome State Fault Refusal := command 0x0F01 p cmdTraceStatus s

/-- UNKNOWN_OPCODE (R68 step 7). -/
def execUnknownOpcode (opc : Half) (p : Packet) (s : State) : Host.Outcome State Fault Refusal :=
  run s fun w => if (w.cmdInfo opc.toNat).isNone then w.take w.objs opc p (bodyOf opc.toNat) else w

/-- COMMAND_FORWARD (R70, R486). -/
def execCommandForward (opc : Half) (p : Packet) (s : State) : Host.Outcome State Fault Refusal :=
  run s fun w => if w.otherPos p.target then w.take w.objs opc p (bodyOf opc.toNat) else w

/-- FORWARDED_REPLY (R70, R486): the reply goes to the origin under its own tag, and is its stored reply; a command that waited
here has had its PENDING reply. (DESIGN CHOICE: assumption 27.) -/
def execForwardedReply (pos : BitVec 3) (seq status : Half) (final : Bool) (mode : BitVec 4) (result : List Word32)
    (s : State) (origin : Nat := 0) : Host.Outcome State Fault Refusal :=
  run s fun w =>
    match w.dev.chim.forwards.find? fun f => f.pos == pos && srcKey f.pkt == origin && f.pkt.seq == seq with
    | none => w
    | some f =>
      let k := srcKey f.pkt
      let r := w.replyFrom mode pos f.pkt f.opc status.toNat final (wordsLe result) true
      let w := if final then w.onChim fun c => { c with forwards := c.forwards.erase f } else w
      if w.listens k = false ∨ (final = false ∧ f.told) then w
      else if f.stale then w.deliver k r
      else (w.deliver k r).store k r

/-- The waiting command that is `n`-th among those that wait, and the pending commands taken before it. -/
def nthWaiting (n : Nat) : List Pend → List Pend → Option (Pend × List Pend)
  | _, [] => none
  | before, q :: qs =>
    if q.running then nthWaiting n (before ++ [q]) qs
    else match n with
      | 0 => some (q, before)
      | n + 1 => nthWaiting n (before ++ [q]) qs

/-- PENDING_COMMAND_START (R73): the wait of the `n`-th waiting command ends. -/
def execPendingCommandStart (n : Nat) (s : State) : Host.Outcome State Fault Refusal :=
  runFuse s fun w =>
    match nthWaiting n [] w.dev.stoker.pends with
    | none => w
    | some (q, before) =>
      if w.otherPos q.pkt.target then
        if w.dev.stoker.serving && !w.dev.sys.resetArmed && !w.fenced before q.fwd q.pkt then w.forwardPend q else w
      else match w.cmdInfo q.opc.toNat with
      | some i =>
        if w.dev.stoker.serving && !w.dev.sys.resetArmed && !w.waitsFor w.objs before q.fwd q.opc.toNat q.pkt then w.startPend i q (bodyOf q.opc.toNat) else w
      | none => w

end Sys2Proof.Machine
end

