-- ==== Sys2Proof/Machine/HostPort.lean ====
section
/-! DEFINITION. The host ports (R27, R28, R62 to R65, R499, R500, R503): BAR0 with the rings and the host register page,
BAR2, the PCIe link, and the maintenance SPI. -/

namespace Sys2Proof.Machine

/-- The PCIe function answers memory requests. -/
def W.hostUp (w : W) : Bool :=
  let p := w.dev.ports
  let m := w.dev.sys.mode
  p.pcieUp && !p.d3hot && !p.pcieDead && m != .off && m != .hold

/-- A memory request or a chip select wakes the device from DOZE (R471). -/
def W.wakeDoze (w : W) : W := if w.dev.sys.mode = .doze then w.setMode .prepare else w

/-- A memory request of the host. -/
def W.onHost (w : W) (f : W → W) : W := if w.hostUp then f w.wakeDoze else w

/-- Change the command service. -/
def W.onStoker (w : W) (f : Stoker → Stoker) : W := w.upd fun d => { d with stoker := f d.stoker }

/-- A tail write that fails its rule (R64, R77): DETAIL0 holds the ring and the value. -/
def W.ringFault (w : W) (reply : Bool) (v : Byte) : W :=
  (w.onStoker fun s => { s with ringFaults := satInc s.ringFaults }).raise 0x056 (w32 (reply.toNat + at_ v.toNat 8)) 0

/-- A write of CMD_TAIL (R64); dropped while a RING_RESET is due (R65). -/
def W.cmdTailWrite (w : W) (v : Word32) : W :=
  let s := w.dev.stoker
  let t := BitVec.ofNat 8 v.toNat
  if s.resetDue then w
  else if (s.cmdTail - s.cmdHead).toNat ≤ (t - s.cmdHead).toNat then w.onStoker fun s => { s with cmdTail := t }
  else w.ringFault false t

/-- A write of REPLY_TAIL (R64). -/
def W.replyTailWrite (w : W) (v : Word32) : W :=
  let s := w.dev.stoker
  let t := BitVec.ofNat 8 v.toNat
  if (t - s.replyTail).toNat ≤ (s.replyHead - s.replyTail).toNat then w.onStoker fun s => { s with replyTail := t }
  else w.ringFault true t

/-- A write of RING_RESET (R65): latched, and completed at once by a Stoker that serves. -/
def W.ringResetWrite (w : W) (v : Word32) : W :=
  if v = 0xA5A5 then (w.onStoker fun s => { s with resetDue := true }).ringDue else w

/-- A write of APERTURE (R28). -/
def W.apertureWrite (w : W) (v : Word32) : W := w.onStoker fun s => { s with aperture := BitVec.ofNat 16 v.toNat }

/-- CMD_TAIL_WRITE. -/
def execCmdTailWrite (v : Word32) (s : State) : Host.Outcome State Fault Refusal :=
  run s fun w => w.onHost fun w => w.cmdTailWrite v

/-- REPLY_TAIL_WRITE. -/
def execReplyTailWrite (v : Word32) (s : State) : Host.Outcome State Fault Refusal :=
  run s fun w => w.onHost fun w => w.replyTailWrite v

/-- RING_RESET. -/
def execRingReset (v : Word32) (s : State) : Host.Outcome State Fault Refusal :=
  run s fun w => w.onHost fun w => w.ringResetWrite v

/-- APERTURE_WRITE. -/
def execApertureWrite (v : Word32) (s : State) : Host.Outcome State Fault Refusal :=
  run s fun w => w.onHost fun w => w.apertureWrite v

/-- A word of the host register page (R62). -/
def W.hostRegister (w : W) (o : Nat) : Word32 :=
  let s := w.dev.stoker
  match o with
  | 0 => w32 s.cmdTail.toNat
  | 4 => w32 s.replyTail.toNat
  | 0x10 => w32 s.aperture.toNat
  | _ => 0

/-- A byte of the reply ring (R63): the reply packet written into the slot. -/
def W.replyByte (w : W) (o : Nat) : Byte :=
  match w.dev.stoker.replies.get? (o / 4096) with
  | some r => r.bytes.getD (o % 4096) 0
  | none => 0

/-- Byte `i` of a word. -/
def byteOf (v : Word32) (i : Nat) : Byte := BitVec.ofNat 8 (v.toNat / 256 ^ i)

/-- A byte of BAR0 beyond the Pattern copy (R27). -/
def W.bar0Byte (w : W) (o : Nat) : Byte :=
  if o < 0x11000 then byteOf (w.pollWord ((o - 0x10000) / 4 * 4)) (o % 4)
  else if o < 0x12000 then byteOf (w.hostRegister ((o - 0x11000) / 4 * 4)) (o % 4)
  else if o < 0x100000 then 0
  else if o < 0x200000 then w.dev.stoker.cmdRing.getD (o - 0x100000) 0
  else if o < 0x300000 then w.replyByte (o - 0x200000)
  else 0

/-- `n` bytes of BAR0. -/
def W.bar0Read (w : W) (o n : Nat) : List Byte :=
  if o + n ≤ 0x10000 then w.patRead o n
  else (List.range n).map fun i => if o + i < 0x10000 then (w.patRead (o + i) 1).headD 0 else w.bar0Byte (o + i)

/-- A write of the host register page: whole words; its reserved offsets drop the write (R62).
(DEDUCED: assumption 54.) -/
def W.hostPageWrite (w : W) (o : Nat) (bs : List Byte) : W :=
  let v := wordAt bs 0
  if bs.length ≠ 4 then w
  else match o with
    | 0 => w.cmdTailWrite v
    | 4 => w.replyTailWrite v
    | 8 => w.ringResetWrite v
    | 0x10 => w.apertureWrite v
    | _ => w

/-- The identity of the PCIe host (R176). -/
def W.hostRid (w : W) : Rid := w.rid 4 0 false

/-- A write of BAR0 (R27): the command ring takes it, and the host register page; one to the Pattern is dropped as a
write of a reserved range (R13, R24). -/
def W.bar0Write (w : W) (o : Nat) (bs : List Byte) : W :=
  if o < 0x10000 then w.raiseAddr 0x050 (BitVec.ofNat 48 o) w.hostRid
  else if 0x11000 ≤ o ∧ o < 0x12000 then w.hostPageWrite (o - 0x11000) bs
  else w.onStoker fun s => { s with cmdRing := (List.range bs.length).foldl (fun t i =>
    let a := o + i
    if 0x100000 ≤ a ∧ a < 0x200000 then t.set (a - 0x100000) (bs.getD i 0) else t) s.cmdRing }

/-- The device address of a BAR2 offset (R27). -/
def W.bar2Addr (w : W) (off : Word32) : Nat := w.dev.stoker.aperture.toNat * 2 ^ 32 + off.toNat

/-- HOST_READ (R24, R27, R499): `size` bytes of BAR0 or BAR2. -/
def execHostRead (bar2 : Bool) (off : Word32) (size : Nat) (s : State) : Host.Outcome State Fault Refusal :=
  run s fun w => w.onHost fun w => w.through 0 fun w => w.through 1 fun w =>
    if bar2 then
      let a := w.bar2Addr off
      let (r, w) := w.readPieces w.hostRid [] (w.tlpPieces a size)
      w.respond w.hostRid size true r
    else if off.toNat < 0x1000000 then w.answer (.bytes (w.bar0Read off.toNat size)) else w

/-- HOST_WRITE (R24, R27): a refused write is dropped. (DEDUCED: assumption 53.) -/
def execHostWrite (bar2 : Bool) (off : Word32) (bytes : List Byte) (s : State) : Host.Outcome State Fault Refusal :=
  run s fun w => w.onHost fun w => w.through 0 fun w =>
    if bar2 then
      let a := w.bar2Addr off
      ((w.writePieces w.hostRid a bytes .done (w.tlpPieces a bytes.length)).2).answer .done
    else if off.toNat < 0x1000000 then (w.bar0Write off.toNat bytes).answer .done else w

/-- PCIE_LINK_DOWN (R500): active until the link retrains; what is submitted stays in the ring. -/
def execPcieLinkDown (s : State) : Host.Outcome State Fault Refusal :=
  run s fun w =>
    if w.dev.ports.pcieUp then
      (w.upd fun d => { d with ports := { d.ports with pcieUp := false, d3hot := false } }).level 0x3C0 0 0
    else w

/-- PCIE_LINK_UP (R53, R499, R500): a stopped boundary FIFO keeps the link in Detect. -/
def execPcieLinkUp (s : State) : Host.Outcome State Fault Refusal :=
  run s fun w =>
    let m := w.dev.sys.mode
    if w.dev.ports.pcieDead ∨ m = .off ∨ m = .hold then w
    else
      let w := w.upd fun d => { d with ports := { d.ports with pcieUp := true, d3hot := false } }
      if w.active 0x3C0 then w.inactive 0x3C0 else w

/-- A dword of a capability structure of the PCIe function (R499): Power Management at 0x40, PCI Express at 0x50 and Advanced
Error Reporting at 0x100, and no other; the fields that R499 does not fix are PCI Express's.
(DESIGN CHOICE: assumption 130.) -/
def W.capWord (w : W) (o : Nat) : Word32 :=
  let c := w.dev.ports.cfg
  let free := (Config.cfgRom o).toNat
  if o = 0x40 then w32 (0x5001 + at_ (free / 2 ^ 16 % 0x200 + free / 2 ^ 27 * 0x800) 16)
  else if o = 0x44 then w32 (free / 4 * 4 + 3 * w.dev.ports.d3hot.toNat)
  else if o = 0x50 then w32 (0x0010 + at_ (free / 2 ^ 16 % 0x200) 16)
  else if o = 0x54 then w32 (1 + free % 2 ^ 28 / 8 * 8)
  else if o = 0x5C then w32 (0x884 + free / 2 ^ 12 * 2 ^ 12)
  else if o = 0x100 then w32 (0x0001 + at_ (free % 16) 16)
  else if (0x54 < o ∧ o < 0x8C) ∨ (0x100 < o ∧ o < 0x148) then Config.cfgRom o ||| c.getD o 0
  else 0

/-- A dword of configuration space (R27, R499): Device ID 0x6430, class code 0x0B4000, BAR0 and BAR2 of 16 MiB and
4 GiB, one function, no expansion ROM, no interrupt pin, and a capability list that offers no interrupt (R60).
(DESIGN CHOICE: assumption 130.) -/
def W.cfgWord (w : W) (o : Nat) : Word32 :=
  let c := w.dev.ports.cfg
  match o with
  | 0 => w32 (Config.vendorId.toNat + at_ 0x6430 16)
  | 4 => w32 ((c.getD 4 0).toNat % 65536 + at_ (Config.pcieStatus.toNat / 32 * 32 + 16 + Config.pcieStatus.toNat % 8) 16)
  | 0xC => w32 ((c.getD 0xC 0).toNat % 256)
  | 8 => w32 (at_ 0x0B4000 8 + Config.revisionId.toNat)
  | 0x10 => w32 ((c.getD 0x10 0).toNat / 0x1000000 * 0x1000000 + 4)
  | 0x14 => c.getD 0x14 0
  | 0x18 => 4
  | 0x1C => c.getD 0x1C 0
  | 0x20 => 0
  | 0x24 => 0
  | 0x2C => w32 (Config.vendorId.toNat + at_ 0x6430 16)
  | 0x34 => 0x40
  | 0x3C => w32 ((c.getD 0x3C 0).toNat % 256)
  | _ => w.capWord o

/-- CONFIGURATION_REQUEST (R53, R499): answered while the link is up, in D3hot too; a write of the power-management
control word moves the function between D0 and D3hot. (DESIGN CHOICE: assumption 130.) -/
def execConfigurationRequest (off : BitVec 12) (wr : Option Word32) (s : State) : Host.Outcome State Fault Refusal :=
  run s fun w =>
    let o := off.toNat / 4 * 4
    let m := w.dev.sys.mode
    if w.dev.ports.pcieUp = false ∨ w.dev.ports.pcieDead ∨ m = .off ∨ m = .hold then w
    else match wr with
      | none => w.answer (.word (w64 (w.cfgWord o).toNat))
      | some v =>
        let w := if o = 0x44 then
            w.upd fun d => { d with ports := { d.ports with
              d3hot := if fld v 0 2 = 3 then true else if fld v 0 2 = 0 then false else d.ports.d3hot } }
          else if ([4, 0xC, 0x10, 0x14, 0x1C, 0x3C, 0x58, 0x60] : List Nat).contains o then
            w.upd fun d => { d with ports := { d.ports with cfg := d.ports.cfg.set o v } }
          else w
        w.answer .done

/-! The maintenance SPI (R503). -/

/-- The status byte of the maintenance SPI. -/
def W.mspiStatus (w : W) : Byte :=
  let p := w.dev.ports
  BitVec.ofNat 8 (p.mspiIn.isNone.toNat + 2 * (!p.mspiOut.isEmpty).toNat + 4 * p.frameErr.toNat +
    8 * (w.dev.sys.mode != .doze).toNat)

/-- The frame is refused: FRAME_ERR and its source. (DEDUCED: assumption 55.) -/
def W.mspiBad (w : W) : W := (w.upd fun d => { d with ports := { d.ports with frameErr := true } }).raise 0x3C4 0 0

/-- A transaction of the maintenance SPI: the status byte, then the bytes of `f` where the frame is whole and in range;
one that wakes the device from DOZE is ignored (R471). A stopped boundary FIFO takes the port down (R388).
(DEDUCED: assumption 55.) -/
def W.mspi (w : W) (good : Bool) (f : W → List Byte × W) : W :=
  let m := w.dev.sys.mode
  let st := w.mspiStatus
  if m = .off ∨ m = .hold ∨ !w.dev.fifoOpen 28 ∨ !w.dev.fifoOpen 29 then w
  else if m = .doze then w.wakeDoze.answer (.bytes [st])
  else if good then let (bs, w) := f (w.upd fun d => (d.crossed 28).crossed 29); w.answer (.bytes (st :: bs))
  else w.mspiBad.answer (.bytes [st])

/-- MSPI_WRITE_CMD. -/
def execMspiWriteCmd (len : Half) (complete : Bool) (bytes : List Byte) (s : State) : Host.Outcome State Fault Refusal :=
  run s fun w =>
    w.mspi (complete && decide (16 ≤ len.toNat) && decide (len.toNat ≤ 4096) && bytes.length == len.toNat) fun w =>
      ([], if w.dev.ports.mspiIn.isNone then w.upd fun d => { d with ports := { d.ports with mspiIn := some bytes } } else w)

/-- MSPI_READ_REPLY. -/
def execMspiReadReply (complete : Bool) (s : State) : Host.Outcome State Fault Refusal :=
  run s fun w => w.mspi complete fun w =>
    match w.dev.ports.mspiOut with
    | [] => (le 2 0, w)
    | r :: rs => (le 2 r.bytes.length ++ r.bytes, w.upd fun d => { d with ports := { d.ports with mspiOut := rs } })

/-- MSPI_READ_POLL: bytes of the poll page. -/
def execMspiReadPoll (off len : BitVec 16) (complete : Bool) (s : State) : Host.Outcome State Fault Refusal :=
  run s fun w => w.mspi (complete && decide (off.toNat + len.toNat ≤ 4096)) fun w =>
    ((List.range len.toNat).map fun i =>
      let o := off.toNat + i
      byteOf (w.mspiWord (o / 4 * 4)) (o % 4), w)

/-- MSPI_READ_PATTERN: bytes of the Pattern copy. -/
def execMspiReadPattern (off len : BitVec 16) (complete : Bool) (s : State) : Host.Outcome State Fault Refusal :=
  run s fun w => w.mspi (complete && decide (off.toNat + len.toNat ≤ 65536)) fun w => (w.patRead off.toNat len.toNat, w)

/-- MSPI_STATUS: clears FRAME_ERR. -/
def execMspiStatus (s : State) : Host.Outcome State Fault Refusal :=
  run s fun w => w.mspi true fun w => ([], w.upd fun d => { d with ports := { d.ports with frameErr := false } })

end Sys2Proof.Machine
end

