-- ==== Sys2Proof/Machine/FieldPorts.lean ====
section
/-! DEFINITION. The field ports (R386 to R388, R500 to R512): Ethernet and CAN frames through the Bobbin, GPIO edges, and
what a stopped boundary FIFO takes down. -/

namespace Sys2Proof.Machine

/-- Change the ports. -/
def W.onPorts (w : W) (f : Ports → Ports) : W := w.upd fun d => { d with ports := f d.ports }

/-- PORT_CFG of controller `n`: CAN 0 to 7, Ethernet 8 and 9. -/
def W.portCfg (w : W) (n : Nat) : Word32 := w.reg 7 0 (0x400 + 8 * n)

/-- The controller runs (R508, R512): its domain is ON, and its pads are not held (R460, R464).
(DEDUCED: assumption 61.) -/
def W.portOn (w : W) (n : Nat) : Bool :=
  let m := w.dev.sys.mode
  let p := w.dev.dom (if n < 8 then 239 else 236)
  p.st == .on && !p.padHold && bitAt (w.portCfg n) 28 && !w.dev.ports.stopped.contains n && m != .off && m != .hold && m != .doze

/-- The identity that a controller's queue accesses carry (R176): a MAC's own; the list has none for CAN, and the Bobbin
engine's is taken. -/
def W.portMaster (w : W) (n : Nat) : Rid := if n < 8 then w.rid 10 0 false else w.rid 5 (n - 8) false

/-- A dropped frame is counted in DROP_n, saturating at 65,535. -/
def W.dropCount (w : W) (n : Nat) : W :=
  w.setReg 7 0 (0x404 + 8 * n) (w32 (min 65535 ((w.reg 7 0 (0x404 + 8 * n)).toNat + 1)))

/-- A frame is dropped: counted, and a MAC raises ETH_RX_DROP (R502, R507). -/
def W.dropFrame (w : W) (n : Nat) : W := if n < 8 then w.dropCount n else (w.dropCount n).raise 0x3C3 (w32 (n - 8)) 0

/-- A received frame goes to RXQ as one packet through TRY_OPEN, or is dropped (R502, R507).
(DEDUCED: assumption 61.) -/
def W.receive (w : W) (n : Nat) (ws : List Word32) : W :=
  let q := fld (w.portCfg n) 0 12
  let m := w.portMaster n
  if q = 0xFFF then w.dropFrame n
  else
    let (ok, w) := w.sendPacket m q ws
    if ok then w else w.dropFrame n

/-- The next packet of TXQ, dequeued (R502); none where none waits or the firewall refuses.
(DESIGN CHOICE: assumption 125.) -/
def W.transmit (w : W) (n : Nat) : Option (List Word32) × W :=
  let q := fld (w.portCfg n) 12 12
  let m := w.portMaster n
  if q = 0xFFF then (none, w)
  else
    let (ok, w) := w.fwCheck 3 (BitVec.ofNat 48 (pageAddr q 0)) m .read
    if ok = false then (none, w)
    else
      let (ws, w) := w.deqPacket m q
      (ws, w.settle)

/-- Bytes as 32-bit words, the last one filled up with 0. -/
def packWords (bs : List Byte) : List Word32 := (List.range ((bs.length + 3) / 4)).map fun i => wordAt bs (4 * i)

/-- The packet of a received Ethernet frame (R502). (DEDUCED: assumption 61.) -/
def W.ethPacket (w : W) (bs : List Byte) : List Word32 :=
  [w32 (bs.length % 4096), lo32 w.dev.clock.tb, hi32 w.dev.clock.tb] ++ packWords bs

/-- The exchange is of the selected standard and of a domain that R250 takes. (DESIGN CHOICE: assumption 66.) -/
def W.ptpTaken (w : W) (mac : Nat) (gptp : Bool) (domain : Byte) : Bool :=
  if gptp then w.tbSource == 3 + mac && domain == 0 else w.tbSource == 1 + mac && decide (domain.toNat < 128)

/-- The measured offset, own minus master: the arrival is stamped in steps of 8 ns (R250). -/
def W.ptpOffset (w : W) (dep : Word64) (path : Int) : Int := (w.dev.clock.tb.toNat / 8 * 8 : Nat) - (dep.toNat : Int) - path

/-- ETH_FRAME_RECEIVE (R502): the order of the sorting is R502's. A datagram to the command port that holds no packet header is
no packet, and is dropped (R66, R451). (DESIGN CHOICE: assumption 168.) -/
def execEthFrameReceive (mac : Fin 2) (f : EthFrame) (s : State) : Host.Outcome State Fault Refusal :=
  run s fun w =>
    let n := 8 + mac.val
    if w.portOn n = false ∨ bitAt w.dev.ports.ethUp mac = false then w
    else w.through (2 + 2 * mac) fun w => match f with
      | .ptp gptp domain dep path => if w.ptpTaken mac gptp domain then w.sync (w.ptpOffset dep path) 1000 else w
      | .udp port pay src =>
        if w.dev.sessionsOn mac && port == (w.dev.images.flash.rcd.session >>> 16).setWidth 16 then
          if pay.length < 16 then w else w.onPorts fun p => { p with ethIn := p.ethIn ++ [(mac.val, src, pay)] }
        else
          let (k, w) := w.fresh
          w.receive n (w.ethPacket (Config.freeBytes k 42 ++ pay))
      | .query => w
      | .other bs => w.receive n (w.ethPacket bs)

/-- ETH_FRAME_TRANSMIT (R502): a length outside 60 to 1,522 is discarded and counted. -/
def execEthFrameTransmit (mac : Fin 2) (s : State) : Host.Outcome State Fault Refusal :=
  run s fun w =>
    let n := 8 + mac.val
    if w.portOn n = false ∨ bitAt w.dev.ports.ethUp mac = false then w
    else w.through (3 + 2 * mac) fun w => match w.transmit n with
      | (none, w) => w
      | (some ws, w) =>
        let len := fld (ws.headD 0) 0 12
        if len < 60 ∨ 1522 < len then w.dropCount n else w.onPorts fun p => { p with sent := ws }

/-- ETH_LINK_DOWN (R510). -/
def execEthLinkDown (mac : Fin 2) (s : State) : Host.Outcome State Fault Refusal :=
  run s fun w =>
    if bitAt w.dev.ports.ethUp mac then
      (w.onPorts fun p => { p with ethUp := setBit p.ethUp mac false }).level (0x3C1 + mac) (w32 mac) 0
    else w

/-- ETH_LINK_UP (R501). -/
def execEthLinkUp (mac : Fin 2) (s : State) : Host.Outcome State Fault Refusal :=
  run s fun w =>
    if w.portOn (8 + mac) then
      let w := w.onPorts fun p => { p with ethUp := setBit p.ethUp mac true }
      if w.active (0x3C1 + mac) then w.inactive (0x3C1 + mac) else w
    else w

/-- The packet of a CAN FD frame (R507). (DEDUCED: assumption 63.) -/
def W.canPacket (w : W) (f : CanFrame) : List Word32 :=
  [w32 (f.id.toNat + at_ f.ide.toNat 29 + at_ f.fdf.toNat 30 + at_ f.brs.toNat 31), w32 (min f.data.length 64),
   lo32 w.dev.clock.tb] ++ packWords (f.data.take 64)

/-- CAN_FRAME_RECEIVE (R507). -/
def execCanFrameReceive (c : Fin 8) (f : CanFrame) (s : State) : Host.Outcome State Fault Refusal :=
  run s fun w => if w.portOn c && !w.active (0x3C8 + c) then w.through 18 fun w => w.receive c (w.canPacket f) else w

/-- CAN_FRAME_TRANSMIT (R507): a controller in bus-off keeps its transmit queue. -/
def execCanFrameTransmit (c : Fin 8) (s : State) : Host.Outcome State Fault Refusal :=
  run s fun w =>
    if w.portOn c && !w.active (0x3C8 + c) then
      w.through 19 fun w => match w.transmit c with
      | (some ws, w) => w.onPorts fun p => { p with sent := ws }
      | (none, w) => w
    else w

/-- CAN_BUS_OFF (R507, R510). -/
def execCanBusOff (c : Fin 8) (s : State) : Host.Outcome State Fault Refusal :=
  run s fun w => if w.portOn c then w.level (0x3C8 + c) (w32 c) 0 else w

/-- BUS_OFF_RECOVERY (R507). -/
def execBusOffRecovery (c : Fin 8) (s : State) : Host.Outcome State Fault Refusal :=
  run s fun w => if w.active (0x3C8 + c) then w.inactive (0x3C8 + c) else w

/-- I2C_BUS_STUCK (R507, R510); controllers that a stopped boundary FIFO has stopped detect nothing (R508).
(DEDUCED: assumption 62.) -/
def execI2cBusStuck (i : Fin 4) (s : State) : Host.Outcome State Fault Refusal :=
  run s fun w =>
    let m := w.dev.sys.mode
    if m = .off ∨ m = .hold ∨ 22 ∈ w.dev.bobbin.stopped ∨ 23 ∈ w.dev.bobbin.stopped then w else w.level (0x3D0 + i) (w32 i) 0

/-- The event lines that an edge of a pin raises: line and core (R507, R512). -/
def W.edgeRoutes (w : W) (pin : Nat) (level : Bool) : List (Nat × Nat) :=
  (List.range 8).filterMap fun i =>
    let v := w.reg 7 0 (0x40 + 4 * i)
    if fld v 0 7 = pin ∧ bitAt v (if level then 7 else 8) then some (i, fld v 9 6) else none

/-- GPIO_EDGE (R507): the debounced level of a pin changes, and the routed lines raise FIO_0 to FIO_7 (R159) while PD_239, which
holds the block, is ON (R458). -/
def execGpioEdge (pin : Fin 128) (level : Bool) (s : State) : Host.Outcome State Fault Refusal :=
  run s fun w =>
    let m := w.dev.sys.mode
    if m = .off ∨ 25 ∈ w.dev.bobbin.stopped ∨ bitAt w.dev.ports.gpio pin = level then w
    else w.through 24 fun w => (w.onPorts fun p => { p with gpio := setBit p.gpio pin level }).each
      (if (w.dev.dom 239).st = .on then w.edgeRoutes pin level else []) fun r w =>
      w.interrupt r.2 (51 + r.1)

/-- The controllers that a stopped field-port FIFO stops (R386, R508). (DEDUCED: assumption 63.) -/
def fifoPorts (i : Nat) : List Nat :=
  if 2 ≤ i ∧ i < 6 then [8 + (i - 2) / 2] else if i = 18 ∨ i = 19 then List.range 8 else []

/-- BFIFO_POINTER_FAULT (R388): the FIFO stops until a device reset and takes its port down: PCIe goes to Detect
(R500), a chimney link goes down (R480), a field controller stops (R508). -/
def execBfifoPointerFault (i : Fin 30) (s : State) : Host.Outcome State Fault Refusal :=
  run s fun w =>
    let n := i.val
    let m := w.dev.sys.mode
    if m = .off ∨ m = .hold ∨ w.dev.bobbin.stopped.contains n then w
    else
      let w := w.upd fun d => { d with bobbin := { d.bobbin with stopped := d.bobbin.stopped ++ [n] } }
      let w := w.onPorts fun p => { p with stopped := p.stopped ++ (fifoPorts n).filter fun c => !p.stopped.contains c }
      let w := if n < 2 then
          let up := w.dev.ports.pcieUp
          let w := w.onPorts fun p => { p with pcieUp := false, d3hot := false, pcieDead := true }
          if up then w.level 0x3C0 0 0 else w
        else if 6 ≤ n ∧ n < 10 then
          let up := decide (n < 8)
          if (w.dev.chim.port up).st = .linked ∨ (w.dev.chim.port up).st = .training then w.linkLost up .down else w
        else w
      w.raise (if 10 ≤ n ∧ n < 18 then 0x2C7 else 0x2C8) (w32 n) 0

end Sys2Proof.Machine
end

