-- ==== Sys2Proof/Machine/GateRows.lean ====
section
/-! DEFINITION. The requests of the Thimble's gate (R416 to R424): each runs the request that waits in the gate and
leaves its answer to be published. -/

namespace Sys2Proof.Machine

/-- ACCEPTED. -/
def gAccepted : Byte := 0
/-- BAD_REQUEST. -/
def gBad : Byte := 1
/-- WRONG_STATE. -/
def gState : Byte := 2
/-- SEAL_CLOSED. -/
def gSealClosed : Byte := 3
/-- SEAL_OPEN. -/
def gSealOpen : Byte := 4
/-- OUT_OF_RANGE. -/
def gRange : Byte := 6
/-- LOG_FULL. -/
def gLogFull : Byte := 7
/-- NO_KEY. -/
def gNoKey : Byte := 8
/-- LIFECYCLE. -/
def gLifecycle : Byte := 9
/-- IMAGE_BAD. -/
def gImageBad : Byte := 0xB
/-- AUDIT_EXHAUSTED. -/
def gAudit : Byte := 0xC

/-- The first check that fails names the result. -/
def firstFail : List (Bool × Byte) → Option Byte
  | [] => none
  | (bad, r) :: cs => if bad then some r else firstFail cs

/-- A code that the kernel serves without a running firmware (R402). -/
def kernelCode (c : BitVec 4) : Bool := c == 0 || (9 ≤ c.toNat && c.toNat ≤ 12) || c == 15

/-- Run the request with code `code` that waits in the gate: `bad` are the checks of R422 in their order, `act` its
effect, which answers. -/
def W.gateRow (w : W) (code : BitVec 4) (checks : GateReq → W → List (Bool × Byte)) (act : GateReq → W → W) : W :=
  match w.dev.thm.gate with
  | none => w
  | some g =>
    if g.code ≠ code ∨ g.answer.isSome ∨ w.dev.thm.serves = false then w
    else
      match firstFail ((!(kernelCode code || w.dev.thm.fwRuns), gState) :: checks g w) with
      | some r => w.gateAnswer r 0
      | none => act g w

/-- SUB is 0. -/
def sub0 (g : GateReq) : Bool × Byte := (g.sub != 0, gBad)
/-- ARG is 0. -/
def arg0 (g : GateReq) : Bool × Byte := (g.arg != 0, gBad)
/-- SUB names a measuring point. -/
def subPoint (g : GateReq) : Bool × Byte := (decide (32 ≤ g.sub.toNat), gBad)
/-- The log has room for a record (R415). -/
def W.room (w : W) : Bool × Byte := (w.dev.thm.logFull, gLogFull)

/-- A result that the firmware may give: one of R424 (R424). -/
def fwResult (a : FwAnswer) : Byte := if a.result.toNat ≤ 0xD then a.result else 0xD

/-- Make a record for the request and answer ACCEPTED with its number. -/
def W.gateAccept (w : W) (ty : Byte) (ps : List Word32) (point : Byte := 0xFF) : W :=
  let w := w.onThm fun t => t.kernelRecord ty ps point
  w.gateAnswer gAccepted w.dev.thm.last

/-- The firmware decides: its refusal, or `act`. -/
def fwDecides (a : FwAnswer) (act : GateReq → W → W) (g : GateReq) (w : W) : W :=
  if fwResult a = 0 then act g w else w.gateAnswer (fwResult a) 0

/-- The EVENT record of a request. -/
def eventWords (g : GateReq) (a : FwAnswer) : List Word32 := [g.word, g.arg] ++ (payloadWords a.payload).drop 2

/-- GATE_NOP (R422). -/
def execGateNop (s : State) : Host.Outcome State Fault Refusal :=
  run s fun w => w.gateRow 0 (fun g _ => [sub0 g, arg0 g]) fun _ w => w.gateAnswer gAccepted 0

/-- The checks of START and BATCH_OPEN after their own (R404, R415, R416, R430). -/
def W.startChecks (w : W) : List (Bool × Byte) :=
  let t := w.dev.thm
  [(t.sealOpen, gSealOpen), (t.inhibit || t.logFull, gLogFull), (w.fuse.recordKey.isNone, gNoKey),
   (t.lifecycle == 3, gLifecycle), (t.refLost, gState)]

/-- START (R422). -/
def execThmStart (fw : FwAnswer) (s : State) : Host.Outcome State Fault Refusal :=
  run s fun w => w.gateRow 1 (fun g w => sub0 g :: w.startChecks) <| fwDecides fw fun g w =>
    (w.onThm fun t => ({ t with points := t.points ||| g.arg }).settle).gateAccept 4 (eventWords g fw)

/-- STOP (R422). -/
def execThmStop (fw : FwAnswer) (s : State) : Host.Outcome State Fault Refusal :=
  run s fun w => w.gateRow 2 (fun g w => [sub0 g, w.room]) <| fwDecides fw fun g w =>
    (w.onThm fun t => ({ t with points := t.points &&& ~~~g.arg }).settle).gateAccept 4 (eventWords g fw)

/-- The point that SUB names, as POINT of a record. -/
def gatePoint (g : GateReq) : Byte := BitVec.ofNat 8 g.sub.toNat

/-- TARE (R422). -/
def execTare (fw : FwAnswer) (s : State) : Host.Outcome State Fault Refusal :=
  run s fun w => w.gateRow 3 (fun g w => [subPoint g, arg0 g, w.room]) <| fwDecides fw fun g w =>
    w.gateAccept 4 (eventWords g fw) (gatePoint g)

/-- ZERO (R422). -/
def execZero (fw : FwAnswer) (s : State) : Host.Outcome State Fault Refusal :=
  run s fun w => w.gateRow 4 (fun g w => [subPoint g, arg0 g, w.room]) <| fwDecides fw fun g w =>
    w.gateAccept 4 (eventWords g fw) (gatePoint g)

/-- PRESET_TARE (R422). -/
def execPresetTare (fw : FwAnswer) (s : State) : Host.Outcome State Fault Refusal :=
  run s fun w => w.gateRow 5 (fun g w => [subPoint g, w.room]) <| fwDecides fw fun g w =>
    w.gateAccept 4 (eventWords g fw) (gatePoint g)

/-- CLEAR_TARE (R422). -/
def execClearTare (fw : FwAnswer) (s : State) : Host.Outcome State Fault Refusal :=
  run s fun w => w.gateRow 6 (fun g w => [subPoint g, arg0 g, w.room]) <| fwDecides fw fun g w =>
    w.gateAccept 4 (eventWords g fw) (gatePoint g)

/-- BATCH_OPEN (R422). -/
def execBatchOpen (fw : FwAnswer) (s : State) : Host.Outcome State Fault Refusal :=
  run s fun w => w.gateRow 7
    (fun g w => [sub0 g, (g.arg == 0, gBad), (w.dev.thm.batch != 0, gState)] ++ w.startChecks) <| fwDecides fw fun g w =>
      (w.onThm fun t => ({ t with batch := g.arg }).settle).gateAccept 5 (g.arg :: (payloadWords fw.payload).drop 1)

/-- BATCH_CLOSE (R414, R422): the record, then a signing. -/
def execBatchClose (fw : FwAnswer) (s : State) : Host.Outcome State Fault Refusal :=
  run s fun w => w.gateRow 8
    (fun g w => [sub0 g, (w.dev.thm.batch == 0 || w.dev.thm.batch != g.arg, gState), w.room]) <| fwDecides fw fun g w =>
      let w := w.gateAccept 6 (g.arg :: (payloadWords fw.payload).drop 1)
      (w.onThm fun t => ({ t with batch := 0 }).settle.closeTrigger).thmPage

/-- SIGN_NOW (R414). -/
def execSignNow (s : State) : Host.Outcome State Fault Refusal :=
  run s fun w => w.gateRow 9 (fun g w => [sub0 g, arg0 g, w.room]) fun _ w =>
    (w.onThm Thimble.trigger).gateAnswer gAccepted 0

/-- RECORD_ACK (R415, R422). -/
def execRecordAck (s : State) : Host.Outcome State Fault Refusal :=
  run s fun w => w.gateRow 10
    (fun g w => [sub0 g, (decide (g.arg.toNat < w.dev.thm.acked.toNat) || decide (w.dev.thm.last.toNat < g.arg.toNat), gBad)])
    fun g w => (w.onThm fun t => { t with acked := g.arg }).gateAnswer gAccepted 0

/-- REPLAY (R423): the copying of the records from ARG to RNUM_LAST begins, and one under way ends.
(DESIGN CHOICE: assumption 172.) -/
def execReplay (s : State) : Host.Outcome State Fault Refusal :=
  run s fun w => w.gateRow 11
    (fun g w => [sub0 g, (!(w.dev.thm.log.any fun r => r.rnum == g.arg), gBad)])
    fun g w => (w.onThm fun t =>
      { t with replay := some (g.arg, t.last), replayAt := t.time + 1000 }).gateAnswer gAccepted 0

/-- TIME_MARK (R422): the device time base and THM_TIME at one instant. -/
def execTimeMark (s : State) : Host.Outcome State Fault Refusal :=
  run s fun w => w.gateRow 12 (fun g w => [sub0 g, arg0 g, w.room]) fun _ w =>
    w.gateAccept 10 [lo32 w.dev.clock.tb, hi32 w.dev.clock.tb]

/-- An index that a PARAM_WRITE may name (R408). -/
def paramIndex (i : Nat) : Bool :=
  decide (i < 4) || decide (0x10 ≤ i ∧ i < 0x50) || decide (0x80 ≤ i ∧ i < 0x1000)

/-- PARAM_WRITE (R419). -/
def execParamWrite (fw : FwAnswer) (s : State) : Host.Outcome State Fault Refusal :=
  run s fun w => w.gateRow 13
    (fun g w => [(!w.dev.thm.sealOpen, gSealClosed), (!(paramIndex g.sub.toNat), gBad),
      (decide (256 ≤ w.dev.thm.staged.length) && !(w.dev.thm.staged.any fun x => x.1 == g.sub.toNat), gState)]) <|
    fwDecides fw fun g w =>
      (w.onThm fun t =>
        { t with staged := if t.staged.any (fun x => x.1 == g.sub.toNat) then
                     t.staged.map (fun x => if x.1 = g.sub.toNat then (x.1, g.arg) else x)
                   else t.staged ++ [(g.sub.toNat, g.arg)] }).gateAnswer gAccepted 0

/-- The input configuration of parameters stays in range (R408): every MDIV and every R, and the rate of every enabled input. -/
def paramsInRange (p : Tbl Word32) : Bool :=
  let m := fun (k : Nat) => (p.getD k 0).toNat
  ((List.range 4).all fun k => decide (1 ≤ m k ∧ m k ≤ 5)) &&
  (List.range 48).all fun i =>
    let c := p.getD (0x10 + i) 0
    let r := fld c 0 12
    decide (16 ≤ r) && (!bitAt c 12 || decide (250 ≤ r * m (i / 12)))

/-- PARAM_COMMIT (R417 to R419). -/
def execParamCommit (fw : FwAnswer) (s : State) : Host.Outcome State Fault Refusal :=
  runFuse s fun w => w.gateRow 14
    (fun g w =>
      let t := w.dev.thm
      [sub0 g, arg0 g, (!t.sealOpen, gSealClosed), (t.points != 0 || t.batch != 0, gState), (w.auditLeft == 0, gAudit), w.room,
       (!(paramsInRange (t.staged.foldl (fun p x => p.set x.1 x.2) t.params)), gRange)]) <| fwDecides fw fun _ w =>
      let t := w.dev.thm
      let new := t.staged.foldl (fun p x => p.set x.1 x.2) t.params
      let changed := t.staged.filter fun x => t.params.getD x.1 0 != x.2
      let old : ThmStore := { version := t.version, audit := w.fuse.audit, params := t.params }
      let w := w.storeParams t.version new
      let audit := w.fuse.audit
      let w := w.onThm fun u => { u with staged := [], sealCommit := true, before := some old }
      let w := w.onThm fun u =>
        (changed.foldl (fun u x => u.kernelRecord 9 [w32 x.1, t.params.getD x.1 0, x.2, w32 audit, 0, 0]) u).sealRecord audit
      w.gateAnswer gAccepted w.dev.thm.last

/-- IMAGE_ACTIVATE (R420): key generation, store, IMAGE record, answer and restart. -/
def execImageActivate (s : State) : Host.Outcome State Fault Refusal :=
  runFuse s fun w => w.gateRow 15
    (fun g w =>
      let t := w.dev.thm
      let f := w.dev.images.flash.thmSlot (g.sub == 1)
      [(decide (2 ≤ g.sub.toNat), gBad), arg0 g, (!t.sealOpen, gSealClosed), (t.lifecycle == 3, gLifecycle),
       (decide (w.auditLeft < 1 + w.fuse.recordKey.isNone.toNat), gAudit), w.room,
       (!(w.thmSlotOk (g.sub == 1) fun v => decide (t.version.toNat ≤ v)) || decide (0x10000 ≤ f.version), gImageBad)])
    fun g w =>
      let f := w.dev.images.flash.thmSlot (g.sub == 1)
      let made := w.fuse.recordKey.isNone
      let w := if made then
          let (n, w) := w.fresh
          ({ w with fuse := { w.fuse with recordKey := some n } }).auditStep
        else w
      let w := w.storeParams (BitVec.ofNat 16 f.version) (if w.dev.thm.storeOk then w.dev.thm.params else ⟨[]⟩)
      let w := w.gateAccept 12 ([w32 g.sub.toNat, w32 f.version] ++ byteWords f.digest 4)
      w.thmRestart 2 made

end Sys2Proof.Machine
end

