-- ==== Sys2Proof/Machine/HobRows.lean ====
section
/-! DEFINITION. The rows of the hobs: the arbiter (R189 to R192), the background march (R198 to R200), the wake (R202)
and the command registers (R209, R210). -/

namespace Sys2Proof.Machine

/-- The access changes the array (R191). -/
def HobReq.isWrite (q : HobReq) : Bool :=
  match q.op with
  | .read => false | _ => true

/-- The port word of an access. -/
def HobReq.word (q : HobReq) : Nat := q.off.toNat / 32

/-- The access exists at the hob of unit `u`: a master of it, within its bytes and one port word (R188); an alias write only
at a hearth's hob, and a core's only of the sizes of R193. (DESIGN CHOICE: assumption 138.) -/
def HobReq.valid (u : Nat) (q : HobReq) : Bool :=
  let n := match q.op with
    | .write bs => bs.length
    | .setBits bs => bs.length
    | .clearBits bs => bs.length
    | _ => q.size
  let mod := match q.op with
    | .setBits _ => true
    | .clearBits _ => true
    | _ => false
  decide (q.master < hobMasters u) && decide (0 < n) && decide (q.off.toNat + n ≤ hobSize u) &&
  decide (q.off.toNat % 32 + n ≤ 32) && (!mod || (decide (u < 16) &&
    (decide (4 ≤ q.master) || (([1, 2, 4, 8] : List Nat).contains n && q.off.toNat % n == 0))))

/-- One access of each master: the first that is listed (R189). -/
def firstOfEach : List HobReq → List HobReq
  | [] => []
  | q :: qs => q :: (firstOfEach qs).filter fun x => x.master != q.master

/-- The access that the hearth DMA presents (R189): its channels take turns. -/
def dmaTurn (ptr : Nat) (qs : List HobReq) : List HobReq :=
  let ds := qs.filter fun q => q.master == 5
  let turn := (List.range 16).findSome? fun i => ds.find? fun q => q.chan.toNat == (ptr + i) % 16
  qs.filter (fun q => q.master != 5) ++ turn.toList

/-- The masters that wait, from the rotation pointer on (R190). -/
def rotated (n ptr : Nat) (qs : List HobReq) : List HobReq :=
  (List.range n).filterMap fun i => qs.find? fun q => q.master == (ptr + i) % n

/-- A waiting read is passed over (R191): another master's write to its port word waits that has not passed it over.
(DEDUCED: assumption 56.) -/
def passedOver (passed : List (Nat × Nat)) (qs : List HobReq) (q : HobReq) : Bool :=
  !HobReq.isWrite q &&
  qs.any fun x => HobReq.isWrite x && x.master != q.master && HobReq.word x == HobReq.word q && !passed.contains (q.master, x.master)

/-- The access that the arbiter grants (R190, R191). (DESIGN CHOICE: assumption 124.) -/
def hobGrant (n ptr : Nat) (passed : List (Nat × Nat)) (qs : List HobReq) : Option HobReq :=
  (rotated n ptr qs).find? fun q => !passedOver passed qs q

/-- The identity behind a master's port (R176, R189): DMA channel `c`; router accesses stand for several requesters. -/
def W.portRid (w : W) (u k c : Nat) : Rid :=
  if u = 16 then (if k = 0 then w.stokerRid else w.rid 11 0 true)
  else if k < 4 then coreRid w.dev.chim.pos (4 * u + k) false
  else if k = 4 then w.rid 3 u false
  else if k = 5 then w.rid 2 (16 * u + c) false
  else w.rid 11 0 true

/-- Perform a granted access; the tester's own is its next write-back or march access, whatever the row says of it. -/
def W.hobPerform (w : W) (u : Nat) (q : HobReq) : Acc × W :=
  if q.master = hobTester u then (.done, w.testerGo u) else
  let m := w.portRid u q.master q.chan.toNat
  let a := hobBase u + q.off.toNat
  match q.op with
  | .read => if q.master = 4 then w.hobRead m u a q.size else w.hobReadSel m u a q.size
  | .write bs => (.done, w.hobWrite u q.master a bs)
  | .setBits bs => w.hobAlias m u q.master a true bs
  | .clearBits bs => w.hobAlias m u q.master a false bs
  | .atomic fn opd => w.hobAtomic m u q.master (hobBase u + w.seen u q.off.toNat) a q.size (atomicOp fn) opd

/-- HOB_ACCESS (R190 to R192): one grant decision among the accesses that wait.
(DESIGN CHOICE: assumption 154.) -/
def execHobAccess (u : UnitId) (waiting : List HobReq) (s : State) : Host.Outcome State Fault Refusal :=
  run s fun w => w.powered fun w =>
    let h := w.dev.hob u
    let qs := firstOfEach (dmaTurn h.dmaPtr.toNat (waiting.filter fun q =>
      HobReq.valid u.val q && (q.master != hobTester u || w.testerWaits u)))
    match hobGrant (hobMasters u) h.ptr h.passed qs with
    | none => w
    | some q =>
      let others := qs.filter fun x => x.master != q.master
      let news := if HobReq.isWrite q then (others.filter fun x => !HobReq.isWrite x && HobReq.word x == HobReq.word q).map fun x =>
        (x.master, q.master) else []
      let w := w.upd fun d => d.onHob u fun h =>
        { h with passed := news ++ h.passed.filter (fun p => p.1 != q.master && !news.contains p),
                 dmaPtr := if q.master = 5 then q.chan + 1 else h.dmaPtr }
      let w := w.conflict u (others.map HobReq.master)
      let (r, w) := w.hobPerform u q
      let w := w.granted u q.master
      if q.master = hobTester u then w else w.respond (w.portRid u q.master q.chan.toNat) q.size (!HobReq.isWrite q) r

/-- The background tester runs in this mode. (DESIGN CHOICE: assumption 137.) -/
def Mode.marches (m : Mode) : Bool := !(m == .off || m == .hold || m == .kindle || m == .doze)

/-- MARCH_ROW_START (R198, R200). (DESIGN CHOICE: assumption 10.) -/
def execMarchRowStart (u : UnitId) (s : State) : Host.Outcome State Fault Refusal :=
  run s fun w => if w.dev.sys.mode.marches then w.marchStart u else w

/-- MARCH_ROW_COMPLETE (R198, R199). -/
def execMarchRowComplete (u : UnitId) (fail : Bool) (s : State) : Host.Outcome State Fault Refusal :=
  run s fun w => w.marchEnd u fail

/-- HOB_WAKE (R202). -/
def execHobWake (h : HearthId) (s : State) : Host.Outcome State Fault Refusal :=
  run s fun w => if w.dev.sys.mode = .doze then w else w.wakeHob h

/-- The block that holds the hob registers of unit `u` (R208). -/
def hobBlock (u : Nat) : Nat × Nat := if u < 16 then (16, u) else (1, 0)

/-- HOB_INJECT (R209, R210). -/
def execHobInject (m : Rid) (u : UnitId) (v : Word32) (s : State) : Host.Outcome State Fault Refusal :=
  run s fun w => w.writeRow m (hobBlock u).1 (hobBlock u).2 0x22C v fun w => w.hobInject u v

/-- HOB_CNT_CLEAR (R209). -/
def execHobCntClear (m : Rid) (u : UnitId) (v : Word32) (s : State) : Host.Outcome State Fault Refusal :=
  run s fun w => w.writeRow m (hobBlock u).1 (hobBlock u).2 0x228 v fun w => if bitAt v 0 then w.hobCntClear u else w

/-! Hearth DMA channels (R229 to R231). -/

/-- The identity of a DMA channel (R176). -/
def W.dmaRid (w : W) (h c : Nat) : Rid := w.rid 2 (16 * h + c) false

/-- The device address of a channel, and FIRST and COUNT of its window, as in use. -/
def W.chanExt (w : W) (h c : Nat) : Nat := w.inUse h (0x400 + 16 * c) + 2 ^ 32 * (w.inUse h (0x404 + 16 * c) % 65536)
/-- FIRST. -/
def W.chanFirst (w : W) (h c : Nat) : Nat := w.inUse h (0x408 + 16 * c) % 4096
/-- COUNT. -/
def W.chanCount (w : W) (h c : Nat) : Nat := w.inUse h (0x408 + 16 * c) / 4096 % 8192

/-- The page offset of a port that a channel's address stays at (R375): DEQ, PEEK, ENQ or PKT_WORD. -/
def portStay (a : Nat) : Option Nat :=
  if 0x11800000 ≤ a ∧ a < 0x11840000 ∧ ([0, 8, 0x20, 0x28] : List Nat).contains (a % 64) then some (a % 64) else none

/-- A window of another member that is reached. (DESIGN CHOICE: assumption 60.) -/
def W.remoteWindow (w : W) (a : Nat) : Bool :=
  match windowOf a with
  | some p => p != w.dev.chim.pos.toNat
  | none => false

/-- Read pieces; what another member answers is a free value. (DESIGN CHOICE: assumption 60.) -/
def W.dmaRead (w : W) (m : Rid) (acc : List Byte) : List (Nat × Nat) → Option (List Byte) × W
  | [] => (some acc, w)
  | p :: ps =>
    if w.remoteWindow p.1 then
      match w.passWalls m p.1 p.2 .read with
      | (none, w1) =>
        let (k, w2) := w1.fresh
        W.dmaRead w2 m (acc ++ Config.freeBytes k p.2) ps
      | (some _, w1) => (none, w1)
    else match w.access m p.1 p.2 .read with
      | (.data bs, w1) => W.dmaRead w1 m (acc ++ bs) ps
      | (_, w1) => (none, w1)

/-- Write pieces; whether none was refused. A write to another member is accepted there. -/
def W.dmaWrite (w : W) (m : Rid) (a : Nat) (bs : List Byte) : List (Nat × Nat) → Bool × W
  | [] => (true, w)
  | p :: ps =>
    let x := slice bs (p.1 - a) p.2
    if w.remoteWindow p.1 then
      match w.passWalls m p.1 p.2 (.write x) with
      | (none, w1) => W.dmaWrite w1 m a bs ps
      | (some _, w1) => (false, w1)
    else match w.access m p.1 p.2 (.write x) with
      | (.err _, w1) => (false, w1)
      | (_, w1) => W.dmaWrite w1 m a bs ps

/-- The pieces of a transfer at a device address that advances: single words at control registers, bursts elsewhere. -/
def dmaPieces (a n : Nat) : List (Nat × Nat) :=
  if (blockAt a).isSome then (List.range (n / 4)).map fun i => (a + 4 * i, 4) else piecesOf a n

/-- Move the words of an input channel into the input image: whether no request was refused (R229, R375).
(DESIGN CHOICE: assumption 58.) -/
def W.dmaIn (w : W) (h c : Nat) : Bool × W :=
  let m := w.dmaRid h c
  let a := w.chanExt h c
  let n := w.chanCount h c
  let dst := hobBase h + w.inImage h + 4 * w.chanFirst h c
  let (r, w) := match portStay a with
    | some _ => w.dmaRead m [] (List.replicate ((n + 1) / 2) (a, 8))
    | none => w.dmaRead m [] (dmaPieces a (4 * n))
  match r with
  | some bs => w.dmaWrite m dst (bs.take (4 * n)) (piecesOf dst (4 * n))
  | none => (false, w)

/-- Enqueue or append the words of an output channel one after the other (R375), `k` of which the queue has taken; one that
waits there holds the channel back (R373). -/
def W.dmaEnq (w : W) (m : Rid) (a k : Nat) : List (List Byte) → Acc × Nat × W
  | [] => (.done, k, w)
  | x :: xs =>
    match w.access m a 4 (.write x) with
    | (.err e, w1) => (.err e, k, w1)
    | (.wait, w1) => (.wait, k + 1, w1)
    | (_, w1) => W.dmaEnq w1 m a (k + 1) xs

/-- Move the words of the output image to an output channel's device address: done, refused, or held back at a queue with the
count of words it has taken. (DESIGN CHOICE: assumption 58.) -/
def W.dmaOut (w : W) (h c : Nat) : Acc × Nat × W :=
  let m := w.dmaRid h c
  let a := w.chanExt h c
  let n := w.chanCount h c
  let k := ((w.dev.blw h).chans.getD c {}).moved
  let src := hobBase h + w.outImage h + 4 * (w.chanFirst h c + k)
  if w.dev.bobbin.waiters.any fun x => x.rid == m then (.wait, k, w)
  else match w.dmaRead m [] (piecesOf src (4 * (n - k))) with
  | (some bs, w) =>
    (match portStay a with
    | some _ => w.dmaEnq m a k ((List.range (n - k)).map fun i => slice bs (4 * i) 4)
    | none =>
      let (ok, w) := w.dmaWrite m a bs (dmaPieces a (4 * n))
      (if ok then .done else .err eFirewall, 0, w))
  | (none, w) => (.err eFirewall, k, w)

/-- An output channel at whose queue a word waits keeps its place (R373). -/
def W.chanHeld (w : W) (h c k : Nat) : W :=
  w.upd fun d => d.onBlw h fun b => { b with chans := b.chans.set c { (b.chans.getD c {}) with moved := k } }

/-- A channel halts (R231): late, and it starts again at the next frame boundary. (DEDUCED: assumption 59.) -/
def W.chanHalt (w : W) (h c : Nat) : W :=
  (w.upd fun d => d.onBlw h fun b => { b with chans := b.chans.set c { (b.chans.getD c {}) with running := false, halted := true } }).imageLate h c

/-- Every input channel in use has completed in this frame (R230). -/
def W.inputsDone (w : W) (h : Nat) : Bool :=
  (bitsOf 16 (w.inUse h 0x30C)).all fun c => let x := (w.dev.blw h).chans.getD c {}; !x.running && !x.halted

/-- An input channel completes (R231): its stamp, whose refusal halts the channel (R179), and the slot phase where it was the last one.
(DEDUCED: assumption 59.) -/
def W.inputDone (w : W) (h c : Nat) : W :=
  let (ok, w) := if (w.inUse h 0x314).testBit c then
      w.dmaWrite (w.dmaRid h c) (hobBase h + w.inImage h + 4 * (w.chanFirst h c + w.chanCount h c))
        (le 4 ((w.dev.blw h).chans.getD c {}).frame.toNat)
        [(hobBase h + w.inImage h + 4 * (w.chanFirst h c + w.chanCount h c), 4)]
    else (true, w)
  if ok = false then w.chanHalt h c else
  let w := w.upd fun d => d.onBlw h fun b => b.stopChan c
  let b := w.dev.blw h
  if b.phase = .window ∧ b.waitIn ∧ w.inputsDone h then w.startSlots h else w

/-- IMAGE_CHANNEL_COMPLETE (R229 to R231): the words of a bound channel are moved, or it halts.
(DESIGN CHOICE: assumption 58.) -/
def execImageChannelComplete (h : HearthId) (ch : Fin 16) (halted : Bool) (s : State) : Host.Outcome State Fault Refusal :=
  run s fun w =>
    let c := ch.val
    let isIn := (w.inUse h 0x30C).testBit c
    if ((w.dev.blw h).chans.getD c {}).running = false then w
    else
      let (r, k, w) := if halted then (.err eFirewall, 0, w)
        else if isIn then let (ok, w) := w.dmaIn h c; (if ok then .done else .err eFirewall, 0, w) else w.dmaOut h c
      let w := w.upd fun d => d.onHob h fun x => { x with dmaPtr := BitVec.ofNat 4 (c + 1) }
      match r with
      | .wait => w.chanHeld h c k
      | .err _ => (w.chanHalt h c).interruptHearth h c
      | _ => (if isIn then w.inputDone h c else w.upd fun d => d.onBlw h fun b => b.stopChan c).interruptHearth h c

/-- DMA_CHANNEL_COMPLETE (R159): a channel that is bound to no image completes or halts. -/
def execDmaChannelComplete (h : HearthId) (ch : Fin 16) (_halted : Bool) (s : State) : Host.Outcome State Fault Refusal :=
  run s fun w =>
    if (w.inUse h 0x30C).testBit ch ∨ (w.inUse h 0x310).testBit ch then w else w.interruptHearth h ch

end Sys2Proof.Machine
end

