-- ==== Sys2Proof/Machine/Resets.lean ====
section
/-! DEFINITION. Power-up, the resets of the device and the KINDLE sequence (R33, R41, R47, R50 to R54, R437, R444, R476,
R477, R533). -/

namespace Sys2Proof.Machine

/-- The records that the event ring still holds, oldest first (R292). -/
def W.ringRecords : Nat → W → List Rec
  | 0, _ => []
  | n + 1, w =>
    match w.deqPacket w.stokerRid w.evq with
    | (some ws, w) => Rec.ofWords ws :: W.ringRecords n w
    | (none, _) => []

/-- A gap grown by the records that a device reset discards from the event ring (R292). -/
def Gap.grow (g : Gap) (rs : List Rec) : Gap :=
  match rs.head?, rs.getLast? with
  | some a, some b => { n := g.n + rs.length, first := if g.n = 0 then a.time else g.first, last := b.time }
  | _, _ => g

/-- What the Flue keeps through a device reset: intake, pending counters, history and recovery windows lie in the
always-on domain (R285, R292). (DEDUCED: assumption 13.) -/
def Flue.kept (f : Flue) (gap : Gap) : Flue :=
  { srcs := ⟨(f.srcs.rows.map fun r => (r.1, { r.2 with active := false })).filter (fun r => r.2.count != 0)⟩
    window := f.window, localWin := f.localWin, fifo := f.fifo, hist := f.hist, histNext := f.histNext, evqGap := gap, evqDue := true }

/-- What the time base keeps: it neither stops nor clears, and a lost reference stays lost (R248, R250).
(DEDUCED: assumption 16.) -/
def Clock.kept (c : Clock) : Clock :=
  { tb := c.tb, ivl := c.ivl, acc := c.acc, running := c.running, frame := c.frame, backup := c.backup }

/-- What the Thimble sees of a device reset (R33, R421): nothing but that THMG no longer waits for an answer; THM_LINK
shows a link down until the main side has seen the heartbeat again. (DEDUCED: assumption 14.) -/
def Thimble.mainReset (t : Thimble) : Thimble :=
  { t with up := false, gateStat := 0, gateRnum := 0, nextTag := 0, gate := t.gate.map fun g => { g with watched := false },
           gateNext := none }

/-- The device after a device reset (R33): every field at its reset value but those of reset type cold, what lies in the
always-on domain, the Thimble and its domains, and the flash. LC_NONCE is random.
(DESIGN CHOICE: assumption 15.) -/
def Dev.afterReset (d : Dev) (gap : Gap) (nonce : Word32) : Dev :=
  { sys := { nonce := nonce }
    clock := d.clock.kept
    flue := d.flue.kept gap
    lanes := ⟨d.lanes.rows.map fun r => (r.1, { total := r.2.total })⟩
    baste := { pathOff := d.baste.pathOff, zeroised := d.baste.zeroised }
    dram := { chans := ⟨d.dram.chans.rows.map fun r => (r.1, { epoch := r.2.epoch })⟩, blocks := d.dram.blocks }
    thm := d.thm.mainReset
    images := { flash := d.images.flash }
    power := { doms := d.power.doms.keep (fun n => 241 ≤ n) }
    patGen := d.patGen
    free := d.free
    out := d.out }

/-- A device reset (R33, R40, R41): the device enters HOLD, and the transition is not counted.
(DESIGN CHOICE: assumption 15.) -/
def W.deviceReset (w : W) : W :=
  let w := w.dropRequesters fun _ => true
  let (k, w) := w.fresh
  let gap := w.dev.flue.evqGap.grow (W.ringRecords 1024 w)
  w.upd fun d => d.afterReset gap (w32 ((Config.freeWord k).toNat % 2 ^ 32))

/-- RESET_N_LOW (R41, R76), and the instant at which the reset of DEVICE_RESET or LC_TOKEN takes effect.
(DESIGN CHOICE: assumption 7.) -/
def execResetNLow (s : State) : Host.Outcome State Fault Refusal :=
  run s fun w => if w.dev.sys.mode = .off ∨ w.dev.sys.mode = .hold then w else w.deviceReset

/-- VCA_TURN_ON (R41, R533): a cold reset, which leaves MODE_SEQ and PREV_MODE 0; the flash and the Thimble are on supplies of
their own. (DESIGN CHOICE: assumptions 7, 132.) -/
def execVcaTurnOn (s : State) : Host.Outcome State Fault Refusal :=
  run s fun w =>
    if w.dev.sys.mode = .off then
      let (k, w) := w.fresh
      w.upd fun d => { sys := { nonce := w32 ((Config.freeWord k).toNat % 2 ^ 32) }, thm := d.thm.mainReset,
                       images := { flash := d.images.flash }, free := d.free }
    else w

/-- VCA_BROWN_OUT (R41, R533): every register is lost, the time base included. -/
def execVcaBrownOut (s : State) : Host.Outcome State Fault Refusal :=
  run s fun w =>
    if w.dev.sys.mode = .off then w
    else w.upd fun d => { sys := { mode := .off }, thm := d.thm.mainReset, images := { flash := d.images.flash }, free := d.free }

/-- The rails of codes 0 to 3 and 5 to 11 are in range, as their monitors have them (R41, R469).
(DESIGN CHOICE: assumption 9.) -/
def W.railsOk (w : W) : Bool := (List.range 11).all fun r => !w.active (0x60 + r)

/-- RESET_N_HIGH (R41, R50, R53, R476): the straps are sampled; once every rail is in range the device leaves HOLD, the time
base starts, and the Pattern reads as under construction. (DESIGN CHOICE: assumptions 6, 9, 44.) -/
def execResetNHigh (pos : BitVec 3) (s : State) : Host.Outcome State Fault Refusal :=
  run s fun w =>
    if w.dev.sys.mode = .hold then
      let w := w.upd fun d => { d with chim := { d.chim with pos := pos } }
      if w.railsOk then
        (w.stampMode .kindle).upd fun d => { d with
          clock := { d.clock with running := true },
          patGen := if d.patGen.toNat % 2 = 0 then d.patGen + 1 else d.patGen }
      else w
    else w

/-! The steps of KINDLE. -/

/-- Mark a step complete. -/
def W.stepDone (w : W) (n : Nat) : W :=
  w.upd fun d => { d with sys := { d.sys with stepsDone := n :: d.sys.stepsDone } }

/-- The steps that must be complete before step `n` ends (R50). -/
def stepNeeds (n : Nat) : List Nat :=
  if n = 2 then [1] else if n = 3 ∨ n = 4 then [2] else if n = 5 then [3, 4] else if n = 7 then [5] else if n = 8 then [7]
  else if n = 9 then [6, 8] else []

/-- Step `n` of KINDLE is in progress. (DESIGN CHOICE: assumption 9.) -/
def W.inStep (w : W) (n : Nat) : Bool :=
  let y := w.dev.sys
  y.mode == .kindle && y.kindleErr == 0 && !y.stepsDone.contains n && (stepNeeds n).all y.stepsDone.contains

/-- Step 1: a lost REFCLK_TB halts KINDLE (R51); the heartbeat of a Thimble that runs has been seen.
(DEDUCED: assumptions 14, 16.) -/
def W.stepSelfCheck (w : W) : W :=
  if w.dev.clock.backup then w.kindleHalt 1 1
  else ((w.onThm fun t => { t with up := w.isM && t.serves }).notices).stepDone 1

/-- A fuse group whose copies are `b`, with the third blown where exactly two are (R54). -/
def thirdBlown (b : BitVec 3) : BitVec 3 := if b = 3 ∨ b = 5 ∨ b = 6 then 7 else b

/-- Step 2 (R50, R51, R54, R477): the fuses are known, and the base knows MEMBERS. -/
def W.stepFuses (w : W) (ok : Bool) : W :=
  if ok = false then w.kindleHalt 2 2
  else
    let u := w.fuse
    let w := { w with fuse := { u with provisioned := thirdBlown u.provisioned, field := thirdBlown u.field,
                                       returned := thirdBlown u.returned, scrapped := thirdBlown u.scrapped } }
    let m := w.dev.images.flash.rcd.members
    let n := if m = 0 then 1 else m
    let w := w.upd fun d => { d with sys := { d.sys with fusesRead := true }, chim :=
      if d.chim.pos = 0 then { d.chim with members := n, down := { d.chim.down with st := if 1 < n.toNat then .training else .disabled } }
      else { d.chim with up := { d.chim.up with st := .training } } }
    if w.lifecycle = 4 then w.kindleHalt 4 2 else w.stepDone 2

/-- The spare rows of the hob of unit `u` (R203, R204). -/
def spareRows (u : Nat) : Nat := if u < 16 then 32 else 8

/-- The spare bit columns of the hob of unit `u` (R203, R204). -/
def spareCols (u : Nat) : Nat := if u < 16 then 8 else 2

/-- The spares that the fuse map switches into hob `u` (R199, R203). (DEDUCED: assumption 23.) -/
def W.fuseSpares (w : W) (u : Nat) : W :=
  let s := w.fuse.spares.getD u (0, 0)
  w.upd fun d => d.onHob u fun x =>
    { x with rowsFree := BitVec.ofNat 6 (spareRows u - s.1), colsFree := BitVec.ofNat 4 (spareCols u - s.2) }

/-- Step 3 (R51, R124): the Stoker's lanes and hob, and its start from the boot ROM. (DEDUCED: assumption 23.) -/
def W.stepStoker (w : W) (failed : BitVec 4) (hobOk : Bool) (rows cols : Nat) : W :=
  let bad := bitsOf 4 failed.toNat
  let s := w.fuse.spares.getD 16 (0, 0)
  if 2 ≤ bad.length then w.kindleHalt 3 3
  else if hobOk = false ∨ spareRows 16 < s.1 + rows ∨ spareCols 16 < s.2 + cols then w.kindleHalt 5 3
  else
    let at_ := fun (i : Nat) => if bitAt failed i then some 3 else some i
    let w := ((w.clearHob (hobBase 16) (hobSize 16)).fuseSpares 16).upd fun d => d.onHob 16 fun x =>
      { x with rowsFree := x.rowsFree - BitVec.ofNat 6 rows, colsFree := x.colsFree - BitVec.ofNat 4 cols }
    let w := w.upd fun d =>
      let d := (List.range 4).foldl (fun d l => d.onLane (208 + l) fun x =>
        { x with st := if bitAt failed l then .failed else if l = 3 ∧ bad.isEmpty then .spare else .active }) d
      d.onSeam 64 fun _ => { mode := .tmr, a := at_ 0, b := at_ 1, c := at_ 2 }
    let w := w.each bad fun l w => w.raise (laneSrc 16 1) (fenceWord l 64 (if l = 3 then 3 else l) 0) 0
    ((w.exhaustCheck 16).startCore 64).stepDone 3

/-- Step 4 (R50, R203). (DEDUCED: assumption 23.) -/
def W.stepSpares (w : W) : W := (w.each (List.range 16) fun h w => w.fuseSpares h).stepDone 4

/-- The trained state of channel `c` in step 5 (R346, R350, R353, R362): a channel whose population differs from that of
the first trained channel fails with step 5. Its new EPOCH is any value but its last one.
(DESIGN CHOICE: assumption 18.) -/
def W.trainChannel (w : W) (c : Nat) (t : Training) (first : Option Training) : W :=
  let fits := match first with
    | some f => t.ranks == f.ranks && t.density == f.density
    | none => true
  let ok := t.ok && fits
  let step : BitVec 3 := if ok then 0 else if t.ok then 5 else t.step
  let (k, w) := w.fresh
  let draw := 1 + (Config.freeWord k).toNat % 65535
  let w := w.upd fun d => d.onChan c fun x =>
    { enabled := ok, rate := if ok then d.images.flash.rcd.rate else 0, ranks := ok && t.ranks, density := ok && t.density,
      trainStep := step, epoch := x.epoch + BitVec.ofNat 16 draw }
  if ok then w else w.raise (0x278 + c) (w32 step.toNat) 0

/-- The bank of a repair entry: channel, subchannel, rank and bank (R360, R363). -/
def RepairRow.bank (r : RepairRow) : Nat × Nat := (r.ch, fld r.loc 0 6)

/-- sPPR over the repair record, in record order (R360): the entries with their new states; an entry of a channel that
is not enabled stays as it is. (DEDUCED: assumption 19.) -/
def applyRows (on : Nat → Bool) (failed : List Nat) : List RepairRow → Nat → List (Nat × Nat) → List RepairRow
  | [], _, _ => []
  | r :: rs, i, used =>
    if on r.ch = false then r :: applyRows on failed rs (i + 1) used
    else if failed.contains i || used.contains r.bank then { r with st := 2 } :: applyRows on failed rs (i + 1) used
    else { r with st := 1 } :: applyRows on failed rs (i + 1) (r.bank :: used)

/-- DRAM_REPAIR_FAIL for an entry: the spec maps no row to the line address of its details, so they are free values.
(DESIGN CHOICE: assumption 20.) -/
def W.repairFail (w : W) : W :=
  let (k, w) := w.fresh
  let v := (Config.freeWord k).toNat
  w.raise 0x282 (w32 (v % 2 ^ 32)) (w32 (v / 2 ^ 32 % 2 ^ 20))

/-- Step 5 (R50, R350, R353, R355, R360); a repaired row holds no valid block. (DEDUCED: assumption 19.) -/
def W.stepDram (w : W) (ts : List Training) (failedRows : List Nat) : W :=
  let first := ts.find? (·.ok)
  let w := w.each (List.zip (List.range 4) ts) fun p w => w.trainChannel p.1 p.2 first
  let old := w.dev.images.flash.rcd
  let rows := applyRows (fun c => (w.dev.chan c).enabled) failedRows old.rows 0 []
  let repaired := fun (l : Nat) =>
    let (ch, m) := w.dev.dramMap (l * 64 - dramBase)
    rows.any fun r => r.st == 1 && r.ch == ch && fld r.loc 0 24 == fld ((w.dev.chan ch).loc m) 0 24
  let w := w.upd fun d => { d with
    images := { d.images with flash := { d.images.flash with rcd := { old with rows := rows } } },
    dram := { d.dram with retired := old.pages.map (fun p => (p, true)), blocks := d.dram.blocks.keep fun l => !repaired l } }
  let w := w.each (rows.filter fun r => (w.dev.chan r.ch).enabled && r.st == 2) fun _ w => w.repairFail
  w.stepDone 5

/-- The Stoker section is copied into the Stoker hob, and once the copy's digest holds the Stoker jumps to its first word (R437,
R441). -/
def W.startStokerCode (w : W) (head : List Byte) : W :=
  match (sections head).find? (·.typ == 1) with
  | none => w
  | some s =>
    match w.copyTo w.dev.images.areas.1 16 0 s with
    | (true, w) =>
      w.upd fun d =>
        ({ d with images := { d.images with stokerDigest := s.digest } }).onCore 64 fun c =>
          { c with arch := { c.arch with pc := w64 (hobBase 16) } }
    | (false, w) => w.raise 0x341 0xFFFF 0

/-- STOKER_RESTART_COMPLETE (R124, R531): the Stoker has reloaded its main image from DRAM, it serves, and its level sources
end. -/
def execStokerRestartComplete (s : State) : Host.Outcome State Fault Refusal :=
  run s fun w =>
    if w.dev.stoker.restarting ∧ (w.dev.seam 64).mode ≠ .halted then
      let w := if w.dev.sys.recovery then w else w.startStokerCode w.dev.images.running.head
      let w := w.upd fun d => { d with stoker := { d.stoker with restarting := false, serving := d.sys.mode.serves } }
      w.each [0x184, 0x185, 0x186, 0x187, 0x1B0] fun k w => if w.active k then w.inactive k else w
    else w

/-- A slot of step 7 verified: it becomes RUNNING. -/
def W.slotBoots (w : W) (b : Bool) : W :=
  let f := w.dev.images.flash.mainSlot b
  let bs := f.take 0 f.len
  let head := f.head
  let w := w.areaWrite w.dev.images.areas.1 0 bs
  let w := w.upd fun d => { d with
    sys := { d.sys with slotB := b }, images := { d.images with running := { len := f.len, head := head } } }
  (w.startStokerCode head).stepDone 7

/-- Step 7, and step 7′ after slot A has failed (R50, R51, R353, R437). (DESIGN CHOICE: assumption 21.) -/
def W.stepImage (w : W) (readable : Bool) : W :=
  let b := w.dev.sys.fallback
  let (k, w) := w.fresh
  let reason :=
    if w.dev.hasStore = false then 1 + (Config.freeWord k).toNat % 8
    else if readable = false then 8
    else verify w.fuse (w.dev.images.flash.mainSlot b) 1 0x1000000 w.lifecycle
  if w.dev.hasStore ∧ reason = 0 then w.slotBoots b
  else
    let w := w.raise 0x340 (w32 (b.toNat + at_ reason 4)) 0
    if b then (w.upd fun d => { d with sys := { d.sys with recovery := true } }).stepDone 7
    else w.upd fun d => { d with sys := { d.sys with fallback := true } }

/-- Step 8 (R45). -/
def W.stepLockout (w : W) : W :=
  (w.upd fun d => { d with sys := { d.sys with lockoutRec := d.images.flash.lockout } }).stepDone 8

/-- Step 9 (R41, R50, R444): the Pattern stands, and the device leaves KINDLE. (DEDUCED: assumption 22.) -/
def W.stepPattern (w : W) : W :=
  let w := (w.stepDone 9).upd fun d => { d with patGen := d.patGen + 1, dram := { d.dram with born := d.clock.ivl } }
  if w.dev.sys.lockoutRec then w.setMode .lockout
  else (w.each ((List.range 16).filter fun h => bitAt w.dev.sys.avail h) fun h w => w.loadHearth h).setMode .prepare

/-- The step that a result ends. -/
def kindleStep : KindleResult → Nat
  | .selfCheck => 1 | .fuses _ => 2 | .stoker _ _ _ _ => 3 | .spares => 4 | .dram _ _ _ _ _ => 5 | .image _ => 7 | .lockout => 8
  | .pattern => 9

/-- What the end of a step does. -/
def W.kindle (w : W) : KindleResult → W
  | .selfCheck => w.stepSelfCheck
  | .fuses ok => w.stepFuses ok
  | .stoker failed ok rows cols => w.stepStoker failed ok rows cols
  | .spares => w.stepSpares
  | .dram a b c d rows => w.stepDram [a, b, c, d] rows
  | .image ok => w.stepImage ok
  | .lockout => w.stepLockout
  | .pattern => w.stepPattern

/-- KINDLE_STEP_COMPLETE (R50, R51). -/
def execKindleStepComplete (r : KindleResult) (s : State) : Host.Outcome State Fault Refusal :=
  runFuse s fun w => if w.inStep (kindleStep r) then w.kindle r else w

end Sys2Proof.Machine
end

