-- ==== Sys2Proof/Machine/Vexku.lean ====
section
/-! DEFINITION. How a core runs Vexku code: issue, scoreboard and retirement (R145 to R149), the MPU (R171 to R173),
and the entries of traps and interrupts (R160 to R169). -/

namespace Sys2Proof.Machine

/-- Read, write or execute, and both read and write for an atomic (R172): the PERM bits needed of one privilege. -/
inductive Need where
  | read | write | exec | both
  deriving DecidableEq, Repr

/-- The bits needed, [0] read, [1] write, [2] execute. -/
def Need.bits : Need → Nat
  | .read => 1 | .write => 2 | .exec => 4 | .both => 3

/-- The default map (R173): the permission bits of an address. -/
def defaultPerm (stoker : Bool) (a : Nat) : Nat :=
  if a < 0x10000 then 1
  else if a < 0x40000 then (if stoker then 5 else 0)
  else if a < 0x04000000 then 3
  else if a < 0x08000000 then 7
  else if a < 0x10000000 then 3
  else if a < 0x10100000 then (if stoker then 7 else 0)
  else if a < 0x12000000 then 3
  else if a < 0x12040000 then 1
  else if a < 0x100000000 then 3
  else if a < 0x900000000 then 7
  else 3

/-- Region `r` contains the byte at an address (R172). -/
def Arch.inRegion (x : Arch) (k r a : Nat) : Bool :=
  let b := x.ctl k (0x100 + 2 * r)
  let l := x.ctl k (0x101 + 2 * r)
  bitAt b 48 && decide (fld b 5 43 ≤ a / 32) && decide (a / 32 ≤ fld l 5 43)

/-- The MPU's answer for one byte under the regions in force (R172). -/
def Arch.mpu (x : Arch) (k : Nat) (priv : Bool) (n : Need) (a : Nat) : Bool :=
  let perm :=
    if bitAt (x.ctl k 0x120) 0 = false then defaultPerm (k == 64) a
    else match (List.range 16).find? fun r => x.inRegion k r a with
      | some r => fld (x.ctl k (0x101 + 2 * r)) (if priv then 51 else 48) 3
      | none => if priv then defaultPerm (k == 64) a else 0
  Nat.land perm n.bits == n.bits

/-- Code may be fetched from here (R149, R173): hobs and DRAM, and the boot ROM that the Stoker starts from. -/
def fetchTarget (k a : Nat) : Bool :=
  (hobOf a).isSome || (decide (0x100000000 ≤ a) && decide (a < 0x900000000)) ||
  (k == 64 && decide (0x10000 ≤ a) && decide (a < 0x40000))

/-- The core takes entries: it runs awake, no debugger holds it, its seam neither is HALTED nor stalls for a rethread
(R102, R105), no cutover has stopped it (R446), and no retired store waits for room in the store buffer (R149).
(DESIGN CHOICE: assumption 24.) -/
def W.canEnter (w : W) (k : Nat) : Bool :=
  let c := w.dev.core k
  let s := w.dev.seam k
  let cut := match w.dev.images.cut with
    | some x => x.stopped.contains k
    | none => false
  c.run && !c.stopped && !c.dbg && !c.dbgReq && c.wait == .awake && s.mode != .halted && s.rethread.isNone && !cut &&
  decide (c.sb.length ≤ 8)

/-- The core issues instructions: it takes entries, and no WDT trap waits, which it takes first (R168).
(DESIGN CHOICE: assumption 24.) (DEDUCED: assumption 25.) -/
def W.canIssue (w : W) (k : Nat) : Bool := w.canEnter k && !(w.dev.core k).wdtTrap

/-- The scoreboard bit of a register (R145): set until the response of its load arrives. -/
def Core.scored (c : Core) (r : Bool × Reg) : Bool :=
  (r.1 || r.2 != 0) && c.pend.any fun p => p.ans != some none && p.op.isF == r.1 && p.op.rd == r.2

/-- Instructions held behind the oldest pending one (R146). -/
def Core.heldCount (c : Core) : Nat := c.nheld + ((c.pend.drop 1).map fun p => p.ahead + 1).sum

/-- No register in use is pending, and the retire hold has room (R145, R146). (DESIGN CHOICE: assumption 26.) -/
def Core.free (c : Core) (uses : List (Bool × Reg)) : Bool :=
  !uses.any c.scored && (c.pend.isEmpty || decide (c.heldCount < 4))

/-- Issue an instruction that is not serialising and uses the registers `uses`, true for an f register; one that must
wait has no effect yet. (DESIGN CHOICE: assumptions 24, 26.) -/
def W.issue (w : W) (k : Nat) (uses : List (Bool × Reg)) (f : W → W) : W :=
  if w.canIssue k && (w.dev.core k).free uses then f w else w

/-- Issue a serialising instruction (R147). (DESIGN CHOICE: assumption 26.) -/
def W.issueSerial (w : W) (k : Nat) (f : W → W) : W :=
  if w.canIssue k && (w.dev.core k).pend.isEmpty then f w else w

/-- The next instruction. -/
def Arch.next (x : Arch) : Arch := { x with pc := x.pc + 4 }

/-- The beats that the fetch of a line of core `k` waits (R149): none where the fetch buffer holds it, or where it comes from
the own hob and meets no arbitration. (DESIGN CHOICE: assumption 143.) -/
def Core.fetchWait (c : Core) (k line : Nat) : Nat :=
  if c.fbuf = some line ∨ (hobOf (32 * line) = some (unitOf k) ∧ Config.fetchMeets line c.beats.toNat = false) then 0
  else Config.fetchStall line c.beats.toNat

/-- The beats of an instruction at `pc`, and those that the fetch of its line waits (R132, R149).
(DESIGN CHOICE: assumption 143.) -/
def Core.count (c : Core) (k beats : Nat) (pc : Word64) : Core :=
  let line := pc.toNat / 32
  let wait := c.fetchWait k line
  { c with fbuf := some line, beats := c.beats + w64 (beats + wait), stalls := c.stalls + w64 wait }

/-- An instruction of `beats` beats executes with `f`, and retires or is held (R132, R146).
(DESIGN CHOICE: assumption 124.) -/
def Core.exec (c : Core) (k beats : Nat) (f : Arch → Arch) : Core :=
  let c := c.count k beats c.arch.pc
  let c := { c with arch := f c.arch }
  if c.pend.isEmpty then { c with retired := c.retired + 1 } else { c with nheld := c.nheld + 1 }

/-- An instruction that changes registers alone. -/
def W.runArch (w : W) (k : Nat) (beats : Nat) (f : Arch → Arch) : W :=
  w.upd fun d => d.beatCore k fun c => c.exec k beats f

/-! Entries. -/

/-- STATUS after an entry (R153, R166). -/
def statusIn (s : Word64) (ipl : Option Nat) : Word64 :=
  w64 (1 + 4 * fld s 0 1 + 8 * fld s 1 1 + at_ (ipl.getD (fld s 4 4)) 4 + at_ (fld s 4 4) 8)

/-- STATUS after RETE (R153). -/
def statusOut (s : Word64) : Word64 :=
  w64 (fld s 2 1 + 2 * fld s 3 1 + at_ (fld s 2 1) 2 + at_ (fld s 3 1) 3 + at_ (fld s 8 4) 4 + at_ (fld s 8 4) 8)

/-- A trap in the fetch of the vector slot (R169): the core stops. (DEDUCED: assumption 39.) -/
def W.entryFault (w : W) (k : Nat) : W :=
  let w := w.upd fun d => d.onCore k fun c => { c with stopped := true }
  if k < 64 then w.level (0x1A0 + k / 4) 0 0 else (w.level 0x1B0 0 0).stokerDown

/-- The 14 beats of an entry (R164 to R166), and the fetch stall of a slot outside the own hob (R149): EPC, ECAUSE, EADDR
and STATUS are written, and the vector slot is fetched; the commit token of the entry goes to the seam, unless the fetch
fails (R169). (DEDUCED: assumption 39.) -/
def W.enter (w : W) (k slot : Nat) (epc cause eaddr : Word64) (ipl : Option Nat) : W :=
  let w := w.upd fun d => d.beatCore k fun c =>
    let x := c.arch
    let at_ := x.ctl k 8 + w64 slot
    let line := at_.toNat / 32
    let wait := if hobOf at_.toNat = some (unitOf k) then 0 else Config.fetchStall line c.beats.toNat
    { c with fbuf := some line, beats := c.beats + w64 (14 + wait), stalls := c.stalls + w64 wait,
             arch := { ((((x.setCtl 2 epc).setCtl 3 cause).setCtl 4 eaddr).setCtl 1 (statusIn (x.ctl k 1) ipl)) with pc := at_ } }
  let x := (w.dev.core k).arch
  let line := x.pc.toNat / 32 * 32
  if !fetchTarget k line || !x.mpu k true .exec line then w.entryFault k
  else match w.access (coreRid w.dev.chim.pos k true) line 32 .fetch with
    | (.data _, w) => w.upd fun d => d.onCore k fun c =>
        { c with entry := some (entryToken (if bitAt cause 7 then 1 else fld cause 0 6) x.pc epc) }
    | (_, w) => w.entryFault k

/-- ECAUSE of a trap: DETAIL stands with FETCH_POISON and DATA_ABORT alone (R164). -/
def trapCause (code detail : Nat) : Word64 := w64 (code + at_ (if code = 6 ∨ code = 9 then detail else 0) 8)

/-- A trap of R162 may carry this DETAIL: with FETCH_POISON and DATA_ABORT, 0x01 to 0x08 alone (R164). -/
def detailOk (code detail : Nat) : Bool := !(code == 6 || code == 9) || decide (1 ≤ detail ∧ detail ≤ 8)

/-- EADDR of a trap (R162): 0 for ILLEGAL, PRIVILEGE, SYSCALL, BREAK and WDT. (DEDUCED: assumption 38.) -/
def trapAddr (code : Nat) (a : Word64) : Word64 := if code = 4 ∨ (5 ≤ code ∧ code ≤ 9) then a else 0

/-- The core has reported RESULT 1 in the cutover under check (R447). -/
def W.hasPassed (w : W) (k : Nat) : Bool := bitAt (w.dev.cutStat (k / 4)).passed (k % 4)

/-- A trap of a switched core fails the self-check before its pass (R447). -/
def W.cutTrap (w : W) (k code : Nat) : W :=
  let on := match w.dev.images.cut with
    | some c => (c.switched.getD []).contains k
    | none => false
  if on && code != 10 && code != 11 && !w.hasPassed k then w.cutFail (k / 4) 3 else w

/-- A trap enters (R162 to R166), with nothing pending before it. -/
def W.enterTrap (w : W) (k code : Nat) (epc eaddr : Word64) (detail : Nat) : W :=
  let w := w.cutTrap k code
  let w := if code = 12 then w.upd fun d => d.onCore k fun c => { c with wdtTrap := false } else w
  w.enter k (4 * code) epc (trapCause code detail) (trapAddr code eaddr) none

/-- An instruction raises a trap: it is precise, so that it waits until what is pending has retired (R146, R162). -/
def W.raiseTrap (w : W) (k code : Nat) (eaddr : Word64) (detail : Nat := 0) : W :=
  let c := w.dev.core k
  if c.pend.isEmpty then w.enterTrap k code c.arch.pc eaddr detail else w

/-- A trap of code 0x2 to 0xC that the row names (R162), with a DETAIL that its code has (R164): the WDT trap, and no other, where an expiry waits for it (R168).
(DEDUCED: assumption 38.) -/
def execTrapEntry (c : CoreId) (code : BitVec 6) (eaddr : Word64) (detail : BitVec 8) (s : State) : Host.Outcome State Fault Refusal :=
  run s fun w =>
    let n := code.toNat
    let q := w.dev.core c
    if w.canEnter c && q.pend.isEmpty && decide (2 ≤ n ∧ n ≤ 12) && (n == 12) == q.wdtTrap && detailOk n detail.toNat then
      let epc := if n = 10 ∨ n = 11 then q.arch.pc + 4 else q.arch.pc
      w.enterTrap c n epc (if 5 ≤ n ∧ n ≤ 7 then q.arch.pc else eaddr) detail.toNat
    else w

/-! Interrupts. -/

/-- Sources 35, 50 and 61 to 63 are reserved (R159). -/
def intSources : Word64 := ~~~(w64 (2 ^ 35 + 2 ^ 50 + 2 ^ 61 + 2 ^ 62 + 2 ^ 63))

/-- The priority of a source (R161). -/
def Arch.prio (x : Arch) (k s : Nat) : Nat := fld (x.ctl k (0x44 + s / 16)) (4 * (s % 16)) 4

/-- The floor that a priority has to exceed (R160). -/
def Arch.floor (x : Arch) (k : Nat) : Nat := max (fld (x.ctl k 1) 4 4) (fld (x.ctl k 0x43) 0 4)

/-- The source is enabled and pending above the floor, whatever IE holds (R160, R463). -/
def Core.calls (c : Core) (k s : Nat) : Bool :=
  bitAt c.ipend s && bitAt (c.arch.ctl k 0x40) s && decide (c.arch.floor k < c.arch.prio k s)

/-- The source that wins: the highest priority, and the lowest number among equals. -/
def Core.chosen (c : Core) (k : Nat) : Option Nat :=
  (List.range 64).foldl (fun b s =>
    if c.calls k s then
      match b with
      | some t => if c.arch.prio k t < c.arch.prio k s then some s else some t
      | none => some s
    else b) none

/-- The takeover window (R167): a late source replaces the chosen one where its priority is higher.
(DEDUCED: assumption 37.) -/
def Core.takeover (c : Core) (k s : Nat) (late : List Nat) : Nat :=
  late.foldl (fun b t => if c.calls k t && decide (c.arch.prio k b < c.arch.prio k t) then t else b) s

/-- INTERRUPT_ENTRY (R160, R166, R167): the sources `late` become pending in beats 1 to 10; a WDT trap that waits is
taken instead. (DEDUCED: assumption 171.) -/
def execInterruptEntry (c : CoreId) (late : List Nat) (s : State) : Host.Outcome State Fault Refusal :=
  run s fun w =>
    w.issueSerial c fun w =>
      let q := w.dev.core c
      if !bitAt (q.arch.ctl c 1) 1 then w
      else match q.chosen c with
        | none => w
        | some first =>
          let w := w.upd fun d => d.onCore c fun q =>
            { q with ipend := late.foldl (fun v s => v ||| w64 (2 ^ s)) q.ipend &&& intSources }
          let n := (w.dev.core c).takeover c first late
          let w := w.upd fun d => d.onCore c fun q => { q with ipend := setBit q.ipend n false }
          w.enter c (0x100 + 4 * n) q.arch.pc (w64 (n + 128)) 0 (some (q.arch.prio c n))

end Sys2Proof.Machine
end

