-- ==== Sys2Proof/Machine/VexInt.lean ====
section
/-! DEFINITION. The integer instructions and the branches (R135, R138, R142). -/

namespace Sys2Proof.Machine

/-- An instruction RD = v(registers) of `beats` beats that reads the g registers `rs`. -/
def W.opG (w : W) (k : Nat) (rd : Reg) (rs : List Reg) (beats : Nat) (v : Arch → Word64) : W :=
  w.issue k ((false, rd) :: rs.map fun r => (false, r)) fun w => w.runArch k beats fun x => (x.wrG rd (v x)).next

/-- RD = f RA RB. -/
def W.op3 (w : W) (k : Nat) (rd ra rb : Reg) (f : Word64 → Word64 → Word64) (beats : Nat := 1) : W :=
  w.opG k rd [ra, rb] beats fun x => f (x.rdG ra) (x.rdG rb)

/-- RD = f RA. -/
def W.op2 (w : W) (k : Nat) (rd ra : Reg) (f : Word64 → Word64) : W := w.opG k rd [ra] 1 fun x => f (x.rdG ra)

/-- 1 or 0. -/
def flag (b : Bool) : Word64 := if b then 1 else 0

/-- A signed immediate. -/
def sx (imm : BitVec 16) : Word64 := imm.signExtend 64

/-- An immediate zero-extended. -/
def zx (imm : BitVec 16) : Word64 := imm.setWidth 64

/-- Bits [31:0] zero-extended. -/
def low32 (v : Word64) : Word64 := (v.setWidth 32).setWidth 64

/-- A shift count: bits [5:0]. -/
def cnt (v : Word64) : Nat := v.toNat % 64

/-- Leading zeros of a 64-bit word; 64 for 0. -/
def leadingZeros (v : Word64) : Word64 := if v = 0 then 64 else w64 (63 - v.toNat.log2)

/-- The number of set bits. -/
def setBits (v : Word64) : Word64 := w64 ((List.range 64).filter v.toNat.testBit).length

/-- The high 64 bits of the signed product. -/
def mulHigh (a b : Word64) : Word64 := BitVec.ofInt 64 (a.toInt * b.toInt / 2 ^ 64)

/-- The high 64 bits of the unsigned product. -/
def mulHighU (a b : Word64) : Word64 := w64 (a.toNat * b.toNat / 2 ^ 64)

/-- The signed quotient, toward zero; 0 for a divisor 0 (R142). -/
def divSigned (a b : Word64) : Word64 := if b = 0 then 0 else BitVec.ofInt 64 (a.toInt.tdiv b.toInt)

/-- The signed remainder, with the dividend's sign; the dividend for a divisor 0 (R142). -/
def remSigned (a b : Word64) : Word64 := if b = 0 then a else BitVec.ofInt 64 (a.toInt.tmod b.toInt)

/-- The unsigned quotient. -/
def divUnsigned (a b : Word64) : Word64 := if b = 0 then 0 else w64 (a.toNat / b.toNat)

/-- The unsigned remainder. -/
def remUnsigned (a b : Word64) : Word64 := if b = 0 then a else w64 (a.toNat % b.toNat)

/-- ADD (R135). -/
def execAdd (c : CoreId) (rd ra rb : Reg) (s : State) : Host.Outcome State Fault Refusal := run s fun w => w.op3 c rd ra rb (· + ·)
/-- SUB. -/
def execSub (c : CoreId) (rd ra rb : Reg) (s : State) : Host.Outcome State Fault Refusal := run s fun w => w.op3 c rd ra rb (· - ·)
/-- AND. -/
def execAnd (c : CoreId) (rd ra rb : Reg) (s : State) : Host.Outcome State Fault Refusal := run s fun w => w.op3 c rd ra rb (· &&& ·)
/-- OR. -/
def execOr (c : CoreId) (rd ra rb : Reg) (s : State) : Host.Outcome State Fault Refusal := run s fun w => w.op3 c rd ra rb (· ||| ·)
/-- XOR. -/
def execXor (c : CoreId) (rd ra rb : Reg) (s : State) : Host.Outcome State Fault Refusal := run s fun w => w.op3 c rd ra rb (· ^^^ ·)
/-- SHL. -/
def execShl (c : CoreId) (rd ra rb : Reg) (s : State) : Host.Outcome State Fault Refusal :=
  run s fun w => w.op3 c rd ra rb fun a b => a <<< cnt b
/-- SHR. -/
def execShr (c : CoreId) (rd ra rb : Reg) (s : State) : Host.Outcome State Fault Refusal :=
  run s fun w => w.op3 c rd ra rb fun a b => a >>> cnt b
/-- SAR. -/
def execSar (c : CoreId) (rd ra rb : Reg) (s : State) : Host.Outcome State Fault Refusal :=
  run s fun w => w.op3 c rd ra rb fun a b => a.sshiftRight (cnt b)
/-- CLT. -/
def execClt (c : CoreId) (rd ra rb : Reg) (s : State) : Host.Outcome State Fault Refusal :=
  run s fun w => w.op3 c rd ra rb fun a b => flag (a.slt b)
/-- CLTU. -/
def execCltu (c : CoreId) (rd ra rb : Reg) (s : State) : Host.Outcome State Fault Refusal :=
  run s fun w => w.op3 c rd ra rb fun a b => flag (a.ult b)
/-- ADD32. -/
def execAdd32 (c : CoreId) (rd ra rb : Reg) (s : State) : Host.Outcome State Fault Refusal :=
  run s fun w => w.op3 c rd ra rb fun a b => low32 (a + b)
/-- SUB32. -/
def execSub32 (c : CoreId) (rd ra rb : Reg) (s : State) : Host.Outcome State Fault Refusal :=
  run s fun w => w.op3 c rd ra rb fun a b => low32 (a - b)
/-- CLZ. -/
def execClz (c : CoreId) (rd ra : Reg) (s : State) : Host.Outcome State Fault Refusal := run s fun w => w.op2 c rd ra leadingZeros
/-- POPC. -/
def execPopc (c : CoreId) (rd ra : Reg) (s : State) : Host.Outcome State Fault Refusal := run s fun w => w.op2 c rd ra setBits
/-- MIN. -/
def execMin (c : CoreId) (rd ra rb : Reg) (s : State) : Host.Outcome State Fault Refusal :=
  run s fun w => w.op3 c rd ra rb fun a b => if a.slt b then a else b
/-- MAX. -/
def execMax (c : CoreId) (rd ra rb : Reg) (s : State) : Host.Outcome State Fault Refusal :=
  run s fun w => w.op3 c rd ra rb fun a b => if a.slt b then b else a
/-- MINU. -/
def execMinu (c : CoreId) (rd ra rb : Reg) (s : State) : Host.Outcome State Fault Refusal :=
  run s fun w => w.op3 c rd ra rb fun a b => if a.ult b then a else b
/-- MAXU. -/
def execMaxu (c : CoreId) (rd ra rb : Reg) (s : State) : Host.Outcome State Fault Refusal :=
  run s fun w => w.op3 c rd ra rb fun a b => if a.ult b then b else a
/-- ANDN. -/
def execAndn (c : CoreId) (rd ra rb : Reg) (s : State) : Host.Outcome State Fault Refusal :=
  run s fun w => w.op3 c rd ra rb fun a b => a &&& ~~~b
/-- ROTR. -/
def execRotr (c : CoreId) (rd ra rb : Reg) (s : State) : Host.Outcome State Fault Refusal :=
  run s fun w => w.op3 c rd ra rb fun a b => a.rotateRight (cnt b)
/-- MUL. -/
def execMul (c : CoreId) (rd ra rb : Reg) (s : State) : Host.Outcome State Fault Refusal :=
  run s fun w => w.op3 c rd ra rb (· * ·) 3
/-- MULHI. -/
def execMulhi (c : CoreId) (rd ra rb : Reg) (s : State) : Host.Outcome State Fault Refusal := run s fun w => w.op3 c rd ra rb mulHigh 3
/-- MULHIU. -/
def execMulhiu (c : CoreId) (rd ra rb : Reg) (s : State) : Host.Outcome State Fault Refusal := run s fun w => w.op3 c rd ra rb mulHighU 3
/-- MAC: RD is a third source. -/
def execMac (c : CoreId) (rd ra rb : Reg) (s : State) : Host.Outcome State Fault Refusal :=
  run s fun w => w.opG c rd [ra, rb] 3 fun x => x.rdG rd + x.rdG ra * x.rdG rb
/-- DIVS (R135, R142). -/
def execDivs (c : CoreId) (rd ra rb : Reg) (s : State) : Host.Outcome State Fault Refusal := run s fun w => w.op3 c rd ra rb divSigned 34
/-- DIVU. -/
def execDivu (c : CoreId) (rd ra rb : Reg) (s : State) : Host.Outcome State Fault Refusal := run s fun w => w.op3 c rd ra rb divUnsigned 34
/-- REMS. -/
def execRems (c : CoreId) (rd ra rb : Reg) (s : State) : Host.Outcome State Fault Refusal := run s fun w => w.op3 c rd ra rb remSigned 34
/-- REMU. -/
def execRemu (c : CoreId) (rd ra rb : Reg) (s : State) : Host.Outcome State Fault Refusal := run s fun w => w.op3 c rd ra rb remUnsigned 34
/-- ADDI. -/
def execAddi (c : CoreId) (rd ra : Reg) (imm : BitVec 16) (s : State) : Host.Outcome State Fault Refusal :=
  run s fun w => w.op2 c rd ra (· + sx imm)
/-- CLTI. -/
def execClti (c : CoreId) (rd ra : Reg) (imm : BitVec 16) (s : State) : Host.Outcome State Fault Refusal :=
  run s fun w => w.op2 c rd ra fun a => flag (a.slt (sx imm))
/-- CLTIU. -/
def execCltiu (c : CoreId) (rd ra : Reg) (imm : BitVec 16) (s : State) : Host.Outcome State Fault Refusal :=
  run s fun w => w.op2 c rd ra fun a => flag (a.ult (sx imm))
/-- ANDI. -/
def execAndi (c : CoreId) (rd ra : Reg) (imm : BitVec 16) (s : State) : Host.Outcome State Fault Refusal :=
  run s fun w => w.op2 c rd ra (· &&& zx imm)
/-- ORI. -/
def execOri (c : CoreId) (rd ra : Reg) (imm : BitVec 16) (s : State) : Host.Outcome State Fault Refusal :=
  run s fun w => w.op2 c rd ra (· ||| zx imm)
/-- XORI. -/
def execXori (c : CoreId) (rd ra : Reg) (imm : BitVec 16) (s : State) : Host.Outcome State Fault Refusal :=
  run s fun w => w.op2 c rd ra (· ^^^ zx imm)
/-- SHLI. -/
def execShli (c : CoreId) (rd ra : Reg) (n : BitVec 6) (s : State) : Host.Outcome State Fault Refusal :=
  run s fun w => w.op2 c rd ra (· <<< n.toNat)
/-- SHRI. -/
def execShri (c : CoreId) (rd ra : Reg) (n : BitVec 6) (s : State) : Host.Outcome State Fault Refusal :=
  run s fun w => w.op2 c rd ra (· >>> n.toNat)
/-- SARI. -/
def execSari (c : CoreId) (rd ra : Reg) (n : BitVec 6) (s : State) : Host.Outcome State Fault Refusal :=
  run s fun w => w.op2 c rd ra fun a => a.sshiftRight n.toNat
/-- ROTRI. -/
def execRotri (c : CoreId) (rd ra : Reg) (n : BitVec 6) (s : State) : Host.Outcome State Fault Refusal :=
  run s fun w => w.op2 c rd ra fun a => a.rotateRight n.toNat
/-- MOVHI. -/
def execMovhi (c : CoreId) (rd : Reg) (imm : BitVec 16) (s : State) : Host.Outcome State Fault Refusal :=
  run s fun w => w.opG c rd [] 1 fun _ => zx imm <<< 16
/-- INSH. -/
def execInsh (c : CoreId) (rd ra : Reg) (imm : BitVec 16) (s : State) : Host.Outcome State Fault Refusal :=
  run s fun w => w.op2 c rd ra fun a => setFld a 32 16 imm.toNat
/-- INST. -/
def execInst (c : CoreId) (rd ra : Reg) (imm : BitVec 16) (s : State) : Host.Outcome State Fault Refusal :=
  run s fun w => w.op2 c rd ra fun a => setFld a 48 16 imm.toNat

/-- A conditional branch (R138): 3 beats where taken, 1 where not. -/
def W.branch (w : W) (k : Nat) (ra rb : Reg) (off : BitVec 16) (p : Word64 → Word64 → Bool) : W :=
  w.issue k [(false, ra), (false, rb)] fun w =>
    let x := (w.dev.core k).arch
    let t := p (x.rdG ra) (x.rdG rb)
    w.runArch k (if t then 3 else 1) fun x => if t then { x with pc := x.pc + sx off <<< 2 } else x.next

/-- BEQ. -/
def execBeq (c : CoreId) (ra rb : Reg) (off : BitVec 16) (s : State) : Host.Outcome State Fault Refusal :=
  run s fun w => w.branch c ra rb off fun a b => decide (a = b)
/-- BNE. -/
def execBne (c : CoreId) (ra rb : Reg) (off : BitVec 16) (s : State) : Host.Outcome State Fault Refusal :=
  run s fun w => w.branch c ra rb off fun a b => decide (a ≠ b)
/-- BLT. -/
def execBlt (c : CoreId) (ra rb : Reg) (off : BitVec 16) (s : State) : Host.Outcome State Fault Refusal :=
  run s fun w => w.branch c ra rb off fun a b => a.slt b
/-- BGE. -/
def execBge (c : CoreId) (ra rb : Reg) (off : BitVec 16) (s : State) : Host.Outcome State Fault Refusal :=
  run s fun w => w.branch c ra rb off fun a b => !a.slt b
/-- BLTU. -/
def execBltu (c : CoreId) (ra rb : Reg) (off : BitVec 16) (s : State) : Host.Outcome State Fault Refusal :=
  run s fun w => w.branch c ra rb off fun a b => a.ult b
/-- BGEU. -/
def execBgeu (c : CoreId) (ra rb : Reg) (off : BitVec 16) (s : State) : Host.Outcome State Fault Refusal :=
  run s fun w => w.branch c ra rb off fun a b => !a.ult b

/-- The target of J and JAL: the address of the jump plus OFF26 × 4. -/
def Arch.jump (x : Arch) (off : BitVec 26) : Arch := { x with pc := x.pc + off.signExtend 64 <<< 2 }

/-- J. -/
def execJ (c : CoreId) (off : BitVec 26) (s : State) : Host.Outcome State Fault Refusal :=
  run s fun w => w.issue c [] fun w => w.runArch c 3 fun x => x.jump off
/-- JAL: the link goes to g31. -/
def execJal (c : CoreId) (off : BitVec 26) (s : State) : Host.Outcome State Fault Refusal :=
  run s fun w => w.issue c [(false, 31)] fun w => w.runArch c 3 fun x => (x.wrG 31 (x.pc + 4)).jump off
/-- JALR: the target is taken from RA before RD is written. -/
def execJalr (c : CoreId) (rd ra : Reg) (imm : BitVec 16) (s : State) : Host.Outcome State Fault Refusal :=
  run s fun w => w.issue c [(false, rd), (false, ra)] fun w => w.runArch c 3 fun x =>
    { x.wrG rd (x.pc + 4) with pc := (x.rdG ra + sx imm) &&& ~~~3 }

end Sys2Proof.Machine
end

