-- ==== Sys2Proof/Machine/VexMem.lean ====
section
/-! DEFINITION. Loads, stores and atomics of a core (R136, R137, R145 to R150, R157, R158, R174, R175): issue, the
response of a load, the acceptance of a store, and the store notices. -/

namespace Sys2Proof.Machine

/-- The parts of an access: one where it is aligned, else its two halves (R157). -/
def partsOf (a size : Nat) : List (Nat × Nat) :=
  if a % size = 0 then [(a, size)] else [(a, size - a % size), (a + (size - a % size), a % size)]

/-- An access that is aligned, or that R157 splits: both ends in one hearth's hob. -/
def alignOk (a size : Nat) : Bool :=
  a % size == 0 ||
  (decide (0x04000000 ≤ a) && decide (a + size ≤ 0x08000000) && a / 0x400000 == (a + size - 1) / 0x400000)

/-- The first part that the MPU refuses (R157, R172). -/
def Arch.mpuRefuses (x : Arch) (k : Nat) (n : Need) (ps : List (Nat × Nat)) : Option Nat :=
  (ps.find? fun p => !x.mpu k (x.priv k) n p.1).map (·.1)

/-- The hob address that an alias reaches (R193). -/
def homeAddr (a : Nat) : Nat :=
  if 0x0C000000 ≤ a ∧ a < 0x10000000 then a - 0x08000000 else if 0x08000000 ≤ a ∧ a < 0x0C000000 then a - 0x04000000 else a

/-- Two accesses meet in a 32-byte block, in which accesses of one core take effect in program order (R150); an alias counts
as the hob address that it reaches (R193). -/
def sameBlock (a n b m : Nat) : Bool :=
  let a := homeAddr a
  let b := homeAddr b
  decide (a / 32 ≤ (b + m - 1) / 32) && decide (b / 32 ≤ (a + n - 1) / 32)

/-- A buffered store of the core goes first (R150). -/
def Core.storeAhead (c : Core) (a n : Nat) : Bool := c.sb.any fun s => sameBlock a n s.addr.toNat s.size

/-- An access of the core that precedes the pending ones `ps` and their successors goes first (R150): a buffered store, one
held among them, or a load or atomic of theirs that has not been answered. -/
def Core.aheadOf (c : Core) (ps : List PendLoad) (a n : Nat) : Bool :=
  c.storeAhead a n || ps.any fun p =>
    p.held.any (fun s => sameBlock a n s.addr.toNat s.size) || (p.ans.isNone && sameBlock a n p.op.addr.toNat p.op.size)

/-- The address lies in the window of another member (R26). -/
def W.remoteAddr (w : W) (a : Nat) : Bool :=
  match windowOf a with
  | some p => p != w.dev.chim.pos.toNat
  | none => false

/-- Judge every part before one is performed (R157): the first failing part and its DETAIL. -/
def W.admitParts (w : W) (m : Rid) (r : Nat → Req) : List (Nat × Nat) → Option (Nat × Nat) × W
  | [] => (none, w)
  | p :: ps =>
    match w.passWalls m p.1 p.2 (r p.1) with
    | (some e, w) => (some (p.1, e), w)
    | (none, w) => W.admitParts w m r ps

/-- Perform the parts of an admitted read or atomic: the bytes, or the failing part and its DETAIL. -/
def W.readParts (w : W) (m : Rid) (r : Req) : List (Nat × Nat) → Except (Nat × Nat) (List Byte) × W
  | [] => (.ok [], w)
  | p :: ps =>
    match w.perform m p.1 p.2 r with
    | (.data bs, w) =>
      match W.readParts w m r ps with
      | (.ok more, w) => (.ok (bs ++ more), w)
      | (.error e, w) => (.error e, w)
    | (.err e, w) => (.error (p.1, e), w)
    | (_, w) => (.error (p.1, eReserved), w)

/-- What a load or an atomic asks its target for. -/
def LoadOp.req (o : LoadOp) : Req :=
  match o.atomic with
  | some (fn, v) => .atomic fn v
  | none => .read

/-- The register value that the bytes of a load give. -/
def LoadOp.value (o : LoadOp) (bs : List Byte) : Word64 :=
  let v := ofLe bs
  if o.signed && decide (2 ^ (8 * o.size - 1) ≤ v) then w64 (v + (2 ^ 64 - 2 ^ (8 * o.size))) else w64 v

/-- The access of a load or an atomic (R145): the value, or the first byte of the failing part and its DETAIL. What another
member answers is a free value. (DEDUCED: assumption 34.) -/
def W.loadAccess (w : W) (k : Nat) (priv : Bool) (o : LoadOp) (linkOk : Bool) : Except (Nat × Nat) Word64 × W :=
  let m := coreRid w.dev.chim.pos k priv
  let a := o.addr.toNat
  let ps := partsOf a o.size
  match w.admitParts m (fun _ => o.req) ps with
  | (some e, w) => (.error e, w)
  | (none, w) =>
    if w.remoteAddr a then
      if linkOk then
        let (n, w) := w.fresh
        (.ok (o.value (le o.size (Config.freeWord n).toNat)), w)
      else (.error (a, eRemote), w)
    else if linkOk = false ∧ hobOf a ≠ some (unitOf k) then (.error (a, eLink), w.linkCheck a)
    else match w.readParts m o.req ps with
      | (.ok bs, w) => (.ok (o.value bs), w)
      | (.error e, w) => (.error e, w)

/-- Write the destination of a load. -/
def Arch.put (x : Arch) (o : LoadOp) (v : Word64) : Arch := if o.isF then x.wrF o.rd v else x.wrG o.rd v

/-- The access is granted without a wait (R145): it goes to the own hob, where arbitration does not make it wait, nothing of
the core has to go first, and the vote on it is not open. (DESIGN CHOICE: assumptions 27, 144.) -/
def W.grantedNow (w : W) (k : Nat) (o : LoadOp) (wait : Bool) : Bool :=
  let c := w.dev.core k
  !wait && hobOf o.addr.toNat == some (unitOf k) && !c.aheadOf c.pend o.addr.toNat o.size &&
  !(c.held.any fun s => sameBlock o.addr.toNat o.size s.addr.toNat s.size) &&
  !(w.dev.seam k).requestOpen o (c.arch.priv k)

/-- A load or an atomic that passed its own checks: one that is granted without a wait completes at once, or is held behind
what is pending; any other is pending until its response (R145, R146). The second half of a split load takes 3 beats more
(R158). (DESIGN CHOICE: assumption 27.) -/
def W.startLoad (w : W) (k beats : Nat) (o : LoadOp) (wait : Bool) : W :=
  let c := w.dev.core k
  if w.grantedNow k o wait then
    match w.loadAccess k (c.arch.priv k) o true with
    | (.ok v, w) =>
      let w := if o.addr.toNat % o.size = 0 then w else w.upd fun d => d.beatCore k fun c => c.waits 3
      w.runArch k beats fun x => (x.put o v).next
    | (.error e, w) => w.raiseTrap k 9 (w64 e.1) e.2
  else
    w.upd fun d => d.beatCore k fun c =>
      let c := c.count k beats c.arch.pc
      { c with pend := c.pend ++ [{ op := o, pc := c.arch.pc, ck := c.arch, held := c.held, ahead := c.nheld }],
               held := [], nheld := 0, arch := c.arch.next }

/-- A load (R136): address RA + IMM16; `wait` says that it meets arbitration. (DESIGN CHOICE: assumption 27.) -/
def W.load (w : W) (k : Nat) (isF : Bool) (rd ra : Reg) (imm : BitVec 16) (size : Nat) (signed wait : Bool) : W :=
  w.issue k [(isF, rd), (false, ra)] fun w =>
    let x := (w.dev.core k).arch
    let a := x.rdG ra + sx imm
    if !alignOk a.toNat size then
      (w.when (w.dev.core k).pend.isEmpty fun w => w.pageMisuse (coreRid w.dev.chim.pos k (x.priv k)) a.toNat).raiseTrap k 4 a
    else match x.mpuRefuses k .read (partsOf a.toNat size) with
      | some e => w.raiseTrap k 8 (w64 e)
      | none => w.startLoad k 3 ⟨a, size, signed, isF, rd, none⟩ wait

/-- LB. -/
def execLb (c : CoreId) (rd ra : Reg) (imm : BitVec 16) (s : State) (wait : Bool := false) : Host.Outcome State Fault Refusal :=
  run s fun w => w.load c false rd ra imm 1 true wait
/-- LBU. -/
def execLbu (c : CoreId) (rd ra : Reg) (imm : BitVec 16) (s : State) (wait : Bool := false) : Host.Outcome State Fault Refusal :=
  run s fun w => w.load c false rd ra imm 1 false wait
/-- LH. -/
def execLh (c : CoreId) (rd ra : Reg) (imm : BitVec 16) (s : State) (wait : Bool := false) : Host.Outcome State Fault Refusal :=
  run s fun w => w.load c false rd ra imm 2 true wait
/-- LHU. -/
def execLhu (c : CoreId) (rd ra : Reg) (imm : BitVec 16) (s : State) (wait : Bool := false) : Host.Outcome State Fault Refusal :=
  run s fun w => w.load c false rd ra imm 2 false wait
/-- LW. -/
def execLw (c : CoreId) (rd ra : Reg) (imm : BitVec 16) (s : State) (wait : Bool := false) : Host.Outcome State Fault Refusal :=
  run s fun w => w.load c false rd ra imm 4 true wait
/-- LWU. -/
def execLwu (c : CoreId) (rd ra : Reg) (imm : BitVec 16) (s : State) (wait : Bool := false) : Host.Outcome State Fault Refusal :=
  run s fun w => w.load c false rd ra imm 4 false wait
/-- LD. -/
def execLd (c : CoreId) (rd ra : Reg) (imm : BitVec 16) (s : State) (wait : Bool := false) : Host.Outcome State Fault Refusal :=
  run s fun w => w.load c false rd ra imm 8 false wait
/-- FLW: bits [63:32] are written 0 (R127). -/
def execFlw (c : CoreId) (rd ra : Reg) (imm : BitVec 16) (s : State) (wait : Bool := false) : Host.Outcome State Fault Refusal :=
  run s fun w => w.load c true rd ra imm 4 false wait
/-- FLD. -/
def execFld (c : CoreId) (rd ra : Reg) (imm : BitVec 16) (s : State) (wait : Bool := false) : Host.Outcome State Fault Refusal :=
  run s fun w => w.load c true rd ra imm 8 false wait

/-- ATOMIC (R137): FN[0] selects 8 bytes, FN[10:1] the operation; it waits for an empty store buffer (R147). -/
def execAtomic (c : CoreId) (rd ra rb : Reg) (fn : BitVec 11) (s : State) (wait : Bool := false) : Host.Outcome State Fault Refusal :=
  run s fun w => w.issueSerial c fun w =>
    let q := w.dev.core c
    let x := q.arch
    let a := x.rdG ra
    let size := if bitAt fn 0 then 8 else 4
    if 8 < atomicOp fn then w.raiseTrap c 2 0
    else if !q.sb.isEmpty then w
    else if a.toNat % size ≠ 0 then (w.pageMisuse (coreRid w.dev.chim.pos c (x.priv c)) a.toNat).raiseTrap c 4 a
    else if x.mpu c (x.priv c) .both a.toNat = false then w.raiseTrap c 8 a
    else w.startLoad c 5 ⟨a, size, decide (size = 4), false, rd, some (fn, x.rdG rb)⟩ wait

/-- Retire what can retire of the pending ones `ps`, in program order: what precedes each, and each that is answered; the
first that its response failed is left at the head with its cause (R146). (DEDUCED: assumption 28.) -/
def Core.retireReady (c : Core) : List PendLoad → Core × Option (PendLoad × Nat × Nat)
  | [] => ({ c with pend := [], sb := c.sb ++ c.held, held := [], retired := c.retired + w64 c.nheld, nheld := 0 }, none)
  | p :: ps =>
    let c := { c with sb := c.sb ++ p.held, retired := c.retired + w64 p.ahead }
    let head := { p with held := [], ahead := 0 }
    match p.ans with
    | some none => Core.retireReady { c with retired := c.retired + 1 } ps
    | some (some e) => ({ c with pend := head :: ps }, some (p, e))
    | none => ({ c with pend := head :: ps }, none)

/-- What is answered retires with the instructions held behind it; where a response failed, they are discarded, and the load
or atomic traps at its own address (R146). -/
def W.retireCore (w : W) (k : Nat) : W :=
  let c := w.dev.core k
  if c.pend.isEmpty then w
  else match c.retireReady c.pend with
    | (c, none) => w.upd fun d => d.onCore k fun _ => c
    | (c, some (p, e)) =>
      (w.upd fun d => d.onCore k fun _ =>
        { c with arch := { p.ck with pc := p.pc }, pend := [], held := [], nheld := 0 }).enterTrap k 9 p.pc (w64 e.1) e.2

/-- A response answers pending entry `i`: the value enters its register, and those of every later copy. -/
def Core.answer (c : Core) (i : Nat) (o : LoadOp) (r : Except (Nat × Nat) Word64) : Core :=
  let mark := fun (a : Option (Nat × Nat)) => c.pend.zipIdx.map fun p => if p.2 = i then { p.1 with ans := some a } else p.1
  match r with
  | .error e => { c with pend := mark (some e) }
  | .ok v =>
    { c with arch := c.arch.put o v,
             pend := (mark none).zipIdx.map fun p => if i < p.2 then { p.1 with ck := p.1.ck.put o v } else p.1 }

/-- A response to pending entry `i` of core `k` (R94, R102, R105, R145, R146): what retires waits for the end of a rethread
stall, and a HALTED core executes nothing more of it. -/
def W.response (w : W) (k i : Nat) (r : Except (Nat × Nat) Word64) : W :=
  let sm := w.dev.seam k
  if sm.mode = .halted then w.upd fun d => d.onCore k fun c => { c with pend := c.pend.eraseIdx i }
  else
    let w := w.upd fun d => d.onCore k fun c =>
      match c.pend[i]? with
      | some p => c.answer i p.op r
      | none => c
    if sm.rethread.isSome then w else w.retireCore k

/-- LOAD_RESPONSE (R94, R98, R145, R146, R150): the pending load or atomic number `idx` in program order is performed, unless
something of the core has to go first or the vote on it is open. (DESIGN CHOICE: assumptions 27, 144.) -/
def execLoadResponse (c : CoreId) (linkOk : Bool) (stall : Nat) (s : State) (idx : Nat := 0) : Host.Outcome State Fault Refusal :=
  run s fun w =>
    let q := w.dev.core c
    match q.pend[idx]? with
    | none => w
    | some p =>
      let a := p.op.addr.toNat
      if p.ans.isSome || q.aheadOf (q.pend.take idx) a p.op.size ||
          p.held.any (fun s => sameBlock a p.op.size s.addr.toNat s.size) ||
          (w.remoteAddr a && (q.pend.take idx).any fun x => x.ans.isNone && windowOf x.op.addr.toNat == windowOf a) ||
          (w.dev.seam c).requestOpen p.op (p.ck.priv c) then w
      else
        let w := w.upd fun d => d.beatCore c fun q => q.waits stall
        let (r, w) := if p.lost then (.error (a, eRemote), w) else w.loadAccess c (p.ck.priv c) p.op linkOk
        w.response c idx r

/-! Stores. -/

/-- A store of `size` bytes of a g or an f register (R136, R149, R157, R158, R174): it waits for its room in the buffer where
it retires at once; one that is held takes its room as it retires. (DEDUCED: assumptions 28, 29.) -/
def W.storeOp (w : W) (k : Nat) (isF : Bool) (rs ra : Reg) (imm : BitVec 16) (size : Nat) : W :=
  w.issue k [(isF, rs), (false, ra)] fun w =>
    let c := w.dev.core k
    let x := c.arch
    let a := x.rdG ra + sx imm
    let v := if isF then x.rdF rs else x.rdG rs
    let ps := partsOf a.toNat size
    if !alignOk a.toNat size then
      (w.when c.pend.isEmpty fun w => w.pageMisuse (coreRid w.dev.chim.pos k (x.priv k)) a.toNat).raiseTrap k 4 a
    else if c.pend.isEmpty && decide (8 < c.sb.length + ps.length) then w
    else
      let denied := (x.mpuRefuses k .write ps).isSome
      let es : List Store := ps.map fun p =>
        { addr := w64 p.1, data := v >>> (8 * (p.1 - a.toNat)), size := p.2, priv := x.priv k, denied := denied,
          split := ps.length == 2 && p.1 == a.toNat }
      let extra := ps.length - 1
      w.upd fun d => d.beatCore k fun c =>
        let c := (c.exec k 1 Arch.next).waits extra
        if c.pend.isEmpty then { c with sb := c.sb ++ es } else { c with held := c.held ++ es }

/-- SB. -/
def execSb (c : CoreId) (rs ra : Reg) (imm : BitVec 16) (s : State) : Host.Outcome State Fault Refusal :=
  run s fun w => w.storeOp c false rs ra imm 1
/-- SH. -/
def execSh (c : CoreId) (rs ra : Reg) (imm : BitVec 16) (s : State) : Host.Outcome State Fault Refusal :=
  run s fun w => w.storeOp c false rs ra imm 2
/-- SW. -/
def execSw (c : CoreId) (rs ra : Reg) (imm : BitVec 16) (s : State) : Host.Outcome State Fault Refusal :=
  run s fun w => w.storeOp c false rs ra imm 4
/-- SD. -/
def execSd (c : CoreId) (rs ra : Reg) (imm : BitVec 16) (s : State) : Host.Outcome State Fault Refusal :=
  run s fun w => w.storeOp c false rs ra imm 8
/-- FSW: bits [31:0]. -/
def execFsw (c : CoreId) (rs ra : Reg) (imm : BitVec 16) (s : State) : Host.Outcome State Fault Refusal :=
  run s fun w => w.storeOp c true rs ra imm 4
/-- FSD. -/
def execFsd (c : CoreId) (rs ra : Reg) (imm : BitVec 16) (s : State) : Host.Outcome State Fault Refusal :=
  run s fun w => w.storeOp c true rs ra imm 8

/-- The store waits at the head as an enqueue of its core (R148, R373). (DEDUCED: assumption 116.) -/
def W.storeWaits (w : W) (m : Rid) (s : Store) : Bool :=
  w.dev.bobbin.waiters.any fun x => x.rid == m && s.addr.toNat == 0x11800000 + x.q * 0x40 + x.off

/-- Perform the parts of an admitted store until one fails. -/
def W.writeStores (w : W) (m : Rid) : List Store → Acc × W
  | [] => (.done, w)
  | s :: ss =>
    match w.perform m s.addr.toNat s.size (.write (le s.size s.data.toNat)) with
    | (.done, w) => W.writeStores w m ss
    | r => r

/-- STORE_ACCEPT (R149, R150, R157, R174, R175): the oldest entry, whatever its target, both halves of a split store
together; one on which the vote is open stays (R88). `stall` beats of the core have waited for it (R147, R149, R150, R156).
(DESIGN CHOICE: assumptions 27, 136, 144.) -/
def execStoreAccept (c : CoreId) (linkOk : Bool) (s : State) (stall : Nat := 0) : Host.Outcome State Fault Refusal :=
  run s fun w =>
    match (w.dev.core c).sb with
    | [] => w
    | e :: r =>
      let es := storeGroup (e :: r)
      let n := es.length
      let m := coreRid w.dev.chim.pos c e.priv
      let pop := fun (w : W) => w.upd fun d => d.beatCore c fun q => { q.waits stall with sb := q.sb.drop n }
      let a := e.addr.toNat
      if w.storeWaits m e || (w.dev.seam c).storeOpen es then w
      else if e.denied then ((pop w).storeNotice c 1).raise 0x1B2 0 (ridDetail m)
      else match w.admitParts m (fun _ => .write []) (es.map fun x => (x.addr.toNat, x.size)) with
        | (some x, w) => (pop w).storeNotice c (noticeOf x.2)
        | (none, w) =>
          if w.remoteAddr a then (if linkOk then pop w else (pop w).storeNotice c 6)
          else if linkOk = false ∧ hobOf a ≠ some (unitOf c) then ((pop w).linkCheck a).storeNotice c 4
          else match w.writeStores m es with
            | (.wait, w) => w
            | (.err x, w) => (pop w).storeNotice c (noticeOf x)
            | (_, w) => pop w

end Sys2Proof.Machine
end

