-- ==== Sys2Proof/Machine/VexSys.lean ====
section
/-! DEFINITION. The system instructions and the control registers of a core (R128, R140, R147, R150 to R156, R161, R171,
R309 to R313, R462, R463), WAIT and its end, and the debug access port's hold on a core (R59, R77, R81, R106, R168,
R317). -/

namespace Sys2Proof.Machine

/-- A register that R161 or R171 assigns. -/
def isIntReg (n : Nat) : Bool := decide (0x40 ≤ n ∧ n ≤ 0x48)
/-- An MPU register (R171). -/
def isMpuReg (n : Nat) : Bool := decide (0x100 ≤ n ∧ n ≤ 0x120)

/-- The numbers that R152, R161 and R171 assign. -/
def ctlAssigned (n : Nat) : Bool :=
  decide (n ≤ 6) || decide (8 ≤ n ∧ n ≤ 12) || n == 0x10 || isIntReg n || isMpuReg n || decide (0x200 ≤ n ∧ n ≤ 0x203)

/-- RO and RO-H registers (R152). -/
def ctlReadOnly (n : Nat) : Bool := n == 0 || decide (0x200 ≤ n)

/-- Registers that user mode may reach (R152, R312). -/
def ctlUser (n : Nat) : Bool := n == 0 || n == 11 || n == 12 || n == 0x10 || decide (0x200 ≤ n)

/-- Registers whose written value waits for SYNC.C (R154). -/
def ctlSynced (n : Nat) : Bool := n == 8 || n == 9 || n == 10 || isMpuReg n

/-- The bits that a write sets (R153, R161, R164, R165, R171, R175, R309, R462). -/
def ctlMask (n : Nat) : Nat :=
  if n = 1 then 0xFFF
  else if n = 3 then 0xFFBF
  else if n = 8 then 0xFFFFFFFFFFFFFF00
  else if n = 9 then 3
  else if n = 10 then 0x0FFFFFFFFFFFFFFF
  else if n = 0x10 then 0x71F
  else if n = 0x40 then intSources.toNat
  else if n = 0x43 then 0xF
  else if n = 0x46 then 0xFFFFFFFFFFFF0FFF
  else if n = 0x47 then 0x000FFFFFFFFFF0FF
  else if n = 0x48 then 0x7FFFF
  else if n = 0x120 then 1
  else if isMpuReg n ∧ n % 2 = 0 then 0x0001FFFFFFFFFFE0
  else if isMpuReg n then 0x003FFFFFFFFFFFE0
  else 0xFFFFFFFFFFFFFFFF

/-- The value that a register takes from a written word. -/
def ctlStored (n : Nat) (v : Word64) : Word64 :=
  let v := w64 (Nat.land v.toNat (ctlMask n))
  if n = 0x10 ∧ 5 ≤ fld v 8 3 then setFld v 8 3 0 else v

/-- CORE_ID (R152): of the application cores, of the Stoker, and of a lane of the Thimble, which has no number here. -/
def W.coreIdReg (w : W) (k : Nat) : Word64 :=
  w64 ((if k < 64 then k else 0x3F) + at_ w.dev.chim.pos.toNat 6 + at_ (if k < 64 then 0 else if k = 64 then 1 else 2) 9)

/-- CORE_ID that the Thimble's lanes read (R152, R399): [5:0] 0x3F and KIND 0b10. -/
def W.thmCoreId (w : W) : Word64 := w.coreIdReg 65

/-- BEATS (R134, R152): the steps of the beat counter of the core's hearth since the core left core reset.
(DESIGN CHOICE: assumption 143.) -/
def W.beatsNow (w : W) (k : Nat) : Word64 := w.dev.beatCtr (unitOf k) - (w.dev.core k).base

/-- The registers whose read is voted as a load (R152). -/
def ctlVoted (n : Nat) : Bool := decide (0x200 ≤ n ∧ n ≤ 0x203)

/-- The request token of a voted read (R90, R152): a load of 8 bytes. (DEDUCED: assumption 35.) -/
def ctlToken (rd : Reg) (n : Nat) (priv : Bool) : RequestTok :=
  requestToken { kind := 1, priv := priv, addr := BitVec.ofNat 48 (0xFFFFFFFFF000 + n), size := 3,
                 tag := BitVec.ofNat 6 rd.toNat, opd := 0 }

/-- The value of CTLRD (R152, R161): a write-only register reads 0. (DEDUCED: assumption 35.) -/
def W.ctlValue (w : W) (k n : Nat) : Word64 :=
  let c := w.dev.core k
  if n = 0 then w.coreIdReg k
  else if n = 0x41 then c.ipend
  else if n = 10 ∧ (w.dev.wdt k).locked then (w.dev.wdt k).ctl
  else if n = 0x42 ∨ n = 11 ∨ n = 12 then 0
  else if n = 0x200 then w.beatsNow k
  else if n = 0x201 then c.retired
  else if n = 0x202 then c.stalls
  else if n = 0x203 then w.dev.clock.tb
  else c.arch.ctlRead k n

/-- A written control register (R151 to R154, R161, R310 to R313). -/
def W.ctlSet (w : W) (k n : Nat) (v : Word64) : W :=
  let x := ctlStored n v
  let onPend := fun (f : Word64 → Word64) => w.upd fun d => d.onCore k fun c => { c with ipend := f c.ipend }
  if n = 11 then w.wdtKey k v
  else if n = 12 then w.wdtCheckin k v
  else if n = 0x41 then onPend fun p => p &&& ~~~v
  else if n = 0x42 then onPend fun p => p ||| (v &&& intSources)
  else if n = 10 ∧ (w.dev.wdt k).locked then w.raise 0x052 0 0
  else if ctlSynced n then
    w.upd fun d => d.onCore k fun c => { c with arch := { c.arch with crw := c.arch.crw.set n x } }
  else w.upd fun d => d.onCore k fun c => { c with arch := c.arch.setCtl n x }

/-- A control register access: the traps of R128 and R151 in the order of R163, or `act`. -/
def W.ctlAccess (w : W) (k n : Nat) (write : Bool) (act : W → W) : W :=
  w.issueSerial k fun w =>
    let x := (w.dev.core k).arch
    if !ctlAssigned n || (write && ctlReadOnly n) then w.raiseTrap k 2 0
    else if !ctlUser n && !x.priv k then w.raiseTrap k 3 0
    else act w

/-- CTLRD: the counters read as they stand before its own beats; a voted read waits for the vote on its token (R152). -/
def execCtlrd (c : CoreId) (rd : Reg) (ctl : BitVec 12) (s : State) : Host.Outcome State Fault Refusal :=
  run s fun w => w.ctlAccess c ctl.toNat false fun w =>
    let n := ctl.toNat
    if ctlVoted n && (w.dev.seam c).tokenOpen (ctlToken rd n ((w.dev.core c).arch.priv c)) then w
    else
      let v := w.ctlValue c n
      w.runArch c 2 fun x => (x.wrG rd v).next

/-- A CTLWR of g RS: it retires, and then its write takes effect. -/
def W.ctlWrite (w : W) (k : Nat) (rs : Reg) (n : Nat) : W :=
  w.ctlAccess k n true fun w =>
    let v := (w.dev.core k).arch.rdG rs
    (w.runArch k 2 Arch.next).ctlSet k n v

/-- CTLWR. -/
def execCtlwr (c : CoreId) (rs : Reg) (ctl : BitVec 12) (s : State) : Host.Outcome State Fault Refusal :=
  run s fun w => w.ctlWrite c rs ctl.toNat
/-- WDT_KEY_WRITE (R312). -/
def execWdtKeyWrite (c : CoreId) (rs : Reg) (s : State) : Host.Outcome State Fault Refusal := run s fun w => w.ctlWrite c rs 11
/-- WDT_CHECKIN (R313). -/
def execWdtCheckin (c : CoreId) (rs : Reg) (s : State) : Host.Outcome State Fault Refusal := run s fun w => w.ctlWrite c rs 12
/-- INT_RAISE (R161). -/
def execIntRaise (c : CoreId) (rs : Reg) (s : State) : Host.Outcome State Fault Refusal := run s fun w => w.ctlWrite c rs 0x42
/-- INT_PEND_CLEAR (R161). -/
def execIntPendClear (c : CoreId) (rs : Reg) (s : State) : Host.Outcome State Fault Refusal := run s fun w => w.ctlWrite c rs 0x41

/-- A privileged instruction (R128). -/
def W.privileged (w : W) (k : Nat) (act : W → W) : W :=
  w.issueSerial k fun w => if (w.dev.core k).arch.priv k then act w else w.raiseTrap k 3 0

/-- SYNC.M (R150): every store has been accepted. -/
def execSyncM (c : CoreId) (s : State) : Host.Outcome State Fault Refusal :=
  run s fun w => w.issueSerial c fun w => if (w.dev.core c).sb.isEmpty then w.runArch c 2 Arch.next else w

/-- The fetch buffer is discarded. -/
def W.dropFetch (w : W) (k : Nat) : W := w.upd fun d => d.onCore k fun c => { c with fbuf := none }

/-- SYNC.F (R156). -/
def execSyncF (c : CoreId) (s : State) : Host.Outcome State Fault Refusal :=
  run s fun w => w.issueSerial c fun w => if (w.dev.core c).sb.isEmpty then (w.runArch c 9 Arch.next).dropFetch c else w

/-- Every written SYNC.C register takes effect (R154); the watchdog judges its word (R310), but one that is locked by now
keeps the word in force (R311). -/
def W.applySync (w : W) (k : Nat) : W :=
  let ws := (w.dev.core k).arch.crw.rows.filter fun r => r.1 != 10 || !(w.dev.wdt k).locked
  let w := w.upd fun d => d.onCore k fun c =>
    { c with arch := { ws.foldl (fun x r => x.setCtl r.1 r.2) c.arch with crw := ⟨[]⟩ } }
  match ws.find? (fun r => r.1 == 10) with
  | some r => w.wdtApply k r.2
  | none => w

/-- SYNC.C (R154, R310). -/
def execSyncC (c : CoreId) (s : State) : Host.Outcome State Fault Refusal :=
  run s fun w => w.privileged c fun w => ((w.runArch c 5 Arch.next).applySync c).dropFetch c

/-- Something ends the WAIT of core `k`, or keeps it from stopping (R463). -/
def Core.awaited (c : Core) (k : Nat) : Bool := (List.range 64).any (c.calls k) || c.wdtTrap || c.dbgReq

/-- A WAIT of core `k` is its switch point now (R446): the core is named by a cutover that has passed its boundary and not yet
switched, no more than 12.5 µs ago. (DESIGN CHOICE: assumption 101.) -/
def W.switchPoint (w : W) (k : Nat) : Bool :=
  match w.cutWaits with
  | some c => decide (k < 64) && bitAt c.hearths (k / 4) && decide (w.dev.clock.tb.toNat ≤ 25000 * c.fc.toNat + 12500)
  | none => false

/-- Core `k` stands at its switch point (R446). -/
def W.atSwitch (w : W) (k : Nat) : Bool := w.cutWaits.any fun c => c.stopped.contains k

/-- WAIT (R446, R462, R463): a source that is already pending keeps it from stopping; in a cutover its retirement is the
switch point of a named core, which stops there in any case until the cutover goes on. -/
def execWait (c : CoreId) (s : State) : Host.Outcome State Fault Refusal :=
  run s fun w => w.privileged c fun w =>
    let w := w.runArch c 2 Arch.next
    let wait := fun (w : W) => w.upd fun d => d.onCore c fun q => { q with wait := .wait }
    if w.switchPoint c then
      ((wait w).upd fun d =>
        { d with images := { d.images with cut := d.images.cut.map fun x => { x with stopped := x.stopped ++ [c.val] } } }).wakeLanes c
    else if (w.dev.core c).awaited c then w
    else wait w

/-- The debugger's halt request is taken once no rethread stalls the core (R106, R317, R463). -/
def W.takeDebug (w : W) (k : Nat) : W :=
  let c := w.dev.core k
  if c.dbgReq && c.run && (w.dev.seam k).rethread.isNone then
    (w.upd fun d => d.onCore k fun c => { c with dbgReq := false, dbg := true, wait := .awake }).wdtFreeze k true
  else w

/-- CORE_WAKE (R463): the lanes that NAP withdrew are voted on again, and so is the hob; a core at its switch point stays
stopped (R446). -/
def execCoreWake (c : CoreId) (s : State) : Host.Outcome State Fault Refusal :=
  run s fun w =>
    let q := w.dev.core c
    if q.run && q.wait == .wait && q.awaited c && !w.atSwitch c then
      (((w.upd fun d => d.onCore c fun q => { q with wait := .awake }).wakeLanes c).wakeHob (unitOf c)).takeDebug c
    else w

/-- TRAP: the system call (R162), with EPC at the next instruction. -/
def execTrap (c : CoreId) (s : State) : Host.Outcome State Fault Refusal :=
  run s fun w => w.issueSerial c fun w =>
    let w := w.runArch c 1 Arch.next
    w.enterTrap c 10 (w.dev.core c).arch.pc 0 0

/-- An open grant with RIGHTS[1] covers the block of core `k`'s hearth, or DBG (R81). (DEDUCED: assumption 40.) -/
def W.debugGrant (w : W) (k : Nat) : Bool :=
  w.dev.stoker.grants.any fun g => bitAt g.rights 1 &&
    (g.typ == 15 || (g.typ == 16 && decide (k < 64) && (g.inst.isNone || g.inst == some (k / 4))))

/-- The debug access port reaches core `k` (R59, R77): the core is under debug. (DEDUCED: assumption 40.) -/
def W.underDebug (w : W) (k : Nat) : Bool := w.debugLife && w.debugGrant k

/-- BKPT: a core under debug halts; another takes the breakpoint trap. -/
def execBkpt (c : CoreId) (s : State) : Host.Outcome State Fault Refusal :=
  run s fun w => w.issueSerial c fun w =>
    let w := w.runArch c 1 Arch.next
    if w.underDebug c then (w.upd fun d => d.onCore c fun q => { q with dbgReq := true }).takeDebug c
    else w.enterTrap c 11 (w.dev.core c).arch.pc 0 0

/-- RETE (R140, R153): the program counter stays a multiple of 4. (DEDUCED: assumption 36.) -/
def execRete (c : CoreId) (s : State) : Host.Outcome State Fault Refusal :=
  run s fun w => w.privileged c fun w => w.runArch c 5 fun x =>
    { x.setCtl 1 (statusOut (x.ctl c 1)) with pc := x.ctl c 2 &&& ~~~3 }

/-- A debug access that R59 or R77 refuses (R181). A halt request has no address: the spec gives the detail none.
(DESIGN CHOICE: assumption 41.) -/
def W.debugDenied (w : W) : W :=
  let (k, w) := w.fresh
  w.raiseAddr 0x1B3 (BitVec.ofNat 48 (Config.freeWord k).toNat) w.debugRid

/-- DEBUG_HALT_REQUEST. -/
def execDebugHaltRequest (c : CoreId) (s : State) : Host.Outcome State Fault Refusal :=
  run s fun w =>
    if w.underDebug c = false then w.debugDenied
    else if (w.dev.core c).run then (w.upd fun d => d.onCore c fun q => { q with dbgReq := !q.dbg }).takeDebug c
    else w

/-- DEBUG_RESUME (R317). -/
def execDebugResume (c : CoreId) (s : State) : Host.Outcome State Fault Refusal :=
  run s fun w =>
    if (w.dev.core c).dbg then (w.upd fun d => d.onCore c fun q => { q with dbg := false }).wdtFreeze c false else w

/-- A core resumes (R105): the responses that its seam held are delivered. -/
def W.resumed (w : W) (k : Nat) : W :=
  let sm := w.dev.seam k
  if sm.mode = .halted ∨ sm.rethread.isSome then w else w.retireCore k

/-- RETHREAD_COMPLETE (R105, R106, R107, R330). -/
def execRethreadComplete (c : CoreId) (r : RethreadEnd) (seamOk : Bool) (s : State) : Host.Outcome State Fault Refusal :=
  run s fun w => ((w.rethreadEnd c r seamOk).resumed c).takeDebug c

/-- RETHREAD_TIMER_EXPIRY (R106, R107). -/
def execRethreadTimerExpiry (c : CoreId) (s : State) : Host.Outcome State Fault Refusal :=
  run s fun w => ((w.rethreadTimeout c).resumed c).takeDebug c

/-- SCAN_INSTRUCTION (R338): the boundary-scan port has no register that the spec names; a private instruction acts as
BYPASS until SCAN_OPEN has completed, and what an open one does the spec leaves to the vendor.
(DESIGN CHOICE: assumption 42.) -/
def execScanInstruction (_priv : Bool) (s : State) : Host.Outcome State Fault Refusal := run s id

end Sys2Proof.Machine
end

