-- ==== Sys2Proof/Machine/RouterRows.lean ====
section
/-! DEFINITION. A token that crosses a router and is checked at its destination (R98). -/

namespace Sys2Proof.Machine

/-- The oldest load or atomic of core `k` that waits for its answer from unit `u`. -/
def W.waitingLoad (w : W) (k u : Nat) : Option (Nat × PendLoad) :=
  ((w.dev.core k).pend.zipIdx.find? fun p => p.1.ans.isNone && hobOf p.1.op.addr.toNat == some u).map fun p => (p.2, p.1)

/-- A core's request fails its check at unit `u` (R98): a load or an atomic is answered with an error, which is a precise data
abort; a store leaves the buffer with a notice. (DEDUCED: assumption 146.) -/
def W.linkError (w : W) (k u : Nat) (write : Bool) : W :=
  if write then
    let es := storeGroup (w.dev.core k).sb
    let here := (es.head?.map fun e => hobOf e.addr.toNat == some u).getD false
    (w.when here fun w => w.upd fun d => d.onCore k fun q => { q with sb := q.sb.drop es.length }).storeNotice k 4
  else match w.waitingLoad k u with
    | some (i, p) => w.response k i (.error (p.op.addr.toNat, eLink))
    | none => w

/-- ROUTED_TOKEN (R98): where the check of a request of `m` to unit `u` fails, the request is not performed, the requester gets
an error response, and the Flue gets LINK_CHECK. (DEDUCED: assumption 146.) -/
def execRoutedToken (u : UnitId) (m : Rid) (write ok : Bool) (s : State) : Host.Outcome State Fault Refusal :=
  run s fun w =>
    if ok then w
    else
      let w := w.routerFault u 7
      let own := ridPos m == w.dev.chim.pos.toNat
      let i := ridIndex m
      let w := if own && ridClass m == 0 && decide (i < 64) then w.linkError i u write
        else if own && ridClass m == 1 then w.linkError 64 u write
        else if own && ridClass m == 2 && ((w.dev.blw (i / 16)).chans.getD (i % 16) {}).running then w.chanHalt (i / 16) (i % 16)
        else w
      w.answer (.error (BitVec.ofNat 8 eLink))

end Sys2Proof.Machine
end

