-- ==== Sys2Proof/Machine/VexFloat.lean ====
section
/-! DEFINITION. The floating-point instructions (R127, R139, R143, R144). -/

namespace Sys2Proof.Machine

/-- The format of a suffix. -/
def fmtOf (dbl : Bool) : Fmt := if dbl then f64 else f32

/-- A floating operand: a binary32 operation reads bits [31:0] alone (R127). -/
def Arch.opF (x : Arch) (dbl : Bool) (r : Reg) : Nat := if dbl then (x.rdF r).toNat else (x.rdF r).toNat % 2 ^ 32

/-- FPSR.RM (R143). -/
def Arch.rm (x : Arch) (k : Nat) : Nat := fld (x.ctl k 0x10) 8 3

/-- Set sticky flags of FPSR (R143, R153). -/
def Arch.flags (x : Arch) (k f : Nat) : Arch := if f = 0 then x else x.setCtl 0x10 (x.ctl k 0x10 ||| w64 f)

/-- An instruction that writes f RD from f registers `rs`: result bits and flags. -/
def W.opFF (w : W) (k : Nat) (rd : Reg) (rs : List Reg) (beats : Nat) (f : Arch → Nat × Nat) : W :=
  w.issue k ((true, rd) :: rs.map fun r => (true, r)) fun w =>
    w.runArch k beats fun x => ((x.wrF rd (w64 (f x).1)).flags k (f x).2).next

/-- An instruction that writes g RD from f registers `rs`. -/
def W.opFG (w : W) (k : Nat) (rd : Reg) (rs : List Reg) (beats : Nat) (f : Arch → Word64 × Nat) : W :=
  w.issue k ((false, rd) :: rs.map fun r => (true, r)) fun w =>
    w.runArch k beats fun x => ((x.wrG rd (f x).1).flags k (f x).2).next

/-- An instruction that writes f RD from g RA. -/
def W.opGF (w : W) (k : Nat) (rd ra : Reg) (beats : Nat) (f : Arch → Nat × Nat) : W :=
  w.issue k [(true, rd), (false, ra)] fun w =>
    w.runArch k beats fun x => ((x.wrF rd (w64 (f x).1)).flags k (f x).2).next

/-- RA op RB with a rounding mode. -/
def W.arith (w : W) (k : Nat) (rd ra rb : Reg) (dbl : Bool) (beats : Nat) (f : Fmt → Nat → Nat → Nat → Nat × Nat) : W :=
  w.opFF k rd [ra, rb] beats fun x => f (fmtOf dbl) (x.rm k) (x.opF dbl ra) (x.opF dbl rb)

/-- minimumNumber or maximumNumber (R139, R143): one NaN gives way to the other operand, and −0 lies below +0. -/
def Fmt.minmax (F : Fmt) (isMin : Bool) (x y : Nat) : Nat × Nat :=
  let iv := if F.isSnan x || F.isSnan y then fIV else 0
  if F.isNan x ∧ F.isNan y then (F.quiet x, iv)
  else if F.isNan x then (y, iv)
  else if F.isNan y then (x, iv)
  else
    let below := if F.isZero x && F.isZero y then F.sign x else F.lt x y
    (if below == isMin then x else y, 0)

/-- FCMP (R139, R143): whether predicate `p` holds, and the flags. -/
def Fmt.predicate (F : Fmt) (p x y : Nat) : Bool × Nat :=
  let un := F.isNan x || F.isNan y
  let quiet := if F.isSnan x || F.isSnan y then fIV else 0
  let loud := if un then fIV else 0
  let eq := !un && F.cmp x y == .eq
  match p with
  | 0 => (eq, quiet)
  | 1 => (!eq, quiet)
  | 2 => (F.lt x y, loud)
  | 3 => (F.le x y, loud)
  | 4 => (F.lt y x, loud)
  | 5 => (F.le y x, loud)
  | 6 => (un, quiet)
  | _ => (!un, quiet)

/-- The class code of R144. -/
def Fmt.kind (F : Fmt) (x : Nat) : Word64 :=
  let c := if F.isZero x then 0 else if F.mag x < 2 ^ F.fr then 1 else if F.isFin x then 2 else if F.isInf x then 3
    else if F.isSnan x then 5 else 4
  w64 (c + 8 * (F.sign x).toNat)

/-- binary64 to binary32 (R143): a NaN keeps its sign and the upper 23 significand bits, made quiet. -/
def narrow (rm x : Nat) : Nat × Nat :=
  if f64.isNan x then (f32.quiet (f32.signed (f64.sign x) (f32.infMag + x % 2 ^ 52 / 2 ^ 29)), if f64.isSnan x then fIV else 0)
  else if f64.isInf x then (f32.signed (f64.sign x) f32.infMag, 0)
  else f32.round rm (f64.sign x) (f64.sig x) (f64.exp x) false

/-- binary32 to binary64 (R143): a NaN's significand is padded with zeros and made quiet. -/
def widen (x : Nat) : Nat × Nat :=
  if f32.isNan x then (f64.quiet (f64.signed (f32.sign x) (f64.infMag + x % 2 ^ 23 * 2 ^ 29)), if f32.isSnan x then fIV else 0)
  else if f32.isInf x then (f64.signed (f32.sign x) f64.infMag, 0)
  else f64.round 0 (f32.sign x) (f32.sig x) (f32.exp x) false

/-- FADD. -/
def execFadd (c : CoreId) (rd ra rb : Reg) (dbl : Bool) (s : State) : Host.Outcome State Fault Refusal :=
  run s fun w => w.arith c rd ra rb dbl 4 Fmt.add
/-- FSUB. -/
def execFsub (c : CoreId) (rd ra rb : Reg) (dbl : Bool) (s : State) : Host.Outcome State Fault Refusal :=
  run s fun w => w.arith c rd ra rb dbl 4 Fmt.sub
/-- FMUL. -/
def execFmul (c : CoreId) (rd ra rb : Reg) (dbl : Bool) (s : State) : Host.Outcome State Fault Refusal :=
  run s fun w => w.arith c rd ra rb dbl 4 Fmt.mul
/-- FDIV. -/
def execFdiv (c : CoreId) (rd ra rb : Reg) (dbl : Bool) (s : State) : Host.Outcome State Fault Refusal :=
  run s fun w => w.arith c rd ra rb dbl (if dbl then 28 else 16) Fmt.div
/-- FSQRT. -/
def execFsqrt (c : CoreId) (rd ra : Reg) (dbl : Bool) (s : State) : Host.Outcome State Fault Refusal :=
  run s fun w => w.opFF c rd [ra] (if dbl then 32 else 18) fun x => (fmtOf dbl).sqrt (x.rm c) (x.opF dbl ra)
/-- FMIN. -/
def execFmin (c : CoreId) (rd ra rb : Reg) (dbl : Bool) (s : State) : Host.Outcome State Fault Refusal :=
  run s fun w => w.arith c rd ra rb dbl 2 fun F _ => F.minmax true
/-- FMAX. -/
def execFmax (c : CoreId) (rd ra rb : Reg) (dbl : Bool) (s : State) : Host.Outcome State Fault Refusal :=
  run s fun w => w.arith c rd ra rb dbl 2 fun F _ => F.minmax false
/-- FABS: no flag. -/
def execFabs (c : CoreId) (rd ra : Reg) (dbl : Bool) (s : State) : Host.Outcome State Fault Refusal :=
  run s fun w => w.opFF c rd [ra] 1 fun x => ((fmtOf dbl).mag (x.opF dbl ra), 0)
/-- FNEG: no flag. -/
def execFneg (c : CoreId) (rd ra : Reg) (dbl : Bool) (s : State) : Host.Outcome State Fault Refusal :=
  run s fun w => w.opFF c rd [ra] 1 fun x => ((fmtOf dbl).neg (x.opF dbl ra), 0)
/-- FCOPYSIGN: no flag. -/
def execFcopysign (c : CoreId) (rd ra rb : Reg) (dbl : Bool) (s : State) : Host.Outcome State Fault Refusal :=
  run s fun w => w.arith c rd ra rb dbl 1 fun F _ x y => (F.signed (F.sign y) (F.mag x), 0)
/-- FCMP. -/
def execFcmp (c : CoreId) (rd ra rb : Reg) (pr : BitVec 3) (dbl : Bool) (s : State) : Host.Outcome State Fault Refusal :=
  run s fun w => w.opFG c rd [ra, rb] 2 fun x =>
    let r := (fmtOf dbl).predicate pr.toNat (x.opF dbl ra) (x.opF dbl rb)
    (flag r.1, r.2)
/-- FKIND: no flag. -/
def execFkind (c : CoreId) (rd ra : Reg) (dbl : Bool) (s : State) : Host.Outcome State Fault Refusal :=
  run s fun w => w.opFG c rd [ra] 1 fun x => ((fmtOf dbl).kind (x.opF dbl ra), 0)
/-- FTOI32. -/
def execFtoi32 (c : CoreId) (rd ra : Reg) (dbl : Bool) (s : State) : Host.Outcome State Fault Refusal :=
  run s fun w => w.opFG c rd [ra] 3 fun x =>
    let r := (fmtOf dbl).toSat (x.rm c) (x.opF dbl ra) 32
    (BitVec.ofInt 64 r.1, r.2)
/-- FTOI64. -/
def execFtoi64 (c : CoreId) (rd ra : Reg) (dbl : Bool) (s : State) : Host.Outcome State Fault Refusal :=
  run s fun w => w.opFG c rd [ra] 3 fun x =>
    let r := (fmtOf dbl).toSat (x.rm c) (x.opF dbl ra) 64
    (BitVec.ofInt 64 r.1, r.2)
/-- ITOF32: bits [31:0] of g RA, signed. -/
def execItof32 (c : CoreId) (rd ra : Reg) (dbl : Bool) (s : State) : Host.Outcome State Fault Refusal :=
  run s fun w => w.opGF c rd ra 3 fun x => (fmtOf dbl).ofInt (x.rm c) ((x.rdG ra).setWidth 32).toInt
/-- ITOF64. -/
def execItof64 (c : CoreId) (rd ra : Reg) (dbl : Bool) (s : State) : Host.Outcome State Fault Refusal :=
  run s fun w => w.opGF c rd ra 3 fun x => (fmtOf dbl).ofInt (x.rm c) (x.rdG ra).toInt
/-- FNARROW. -/
def execFnarrow (c : CoreId) (rd ra : Reg) (s : State) : Host.Outcome State Fault Refusal :=
  run s fun w => w.opFF c rd [ra] 3 fun x => narrow (x.rm c) (x.opF true ra)
/-- FWIDEN. -/
def execFwiden (c : CoreId) (rd ra : Reg) (s : State) : Host.Outcome State Fault Refusal :=
  run s fun w => w.opFF c rd [ra] 3 fun x => widen (x.opF false ra)
/-- FMOVG. -/
def execFmovg (c : CoreId) (rd ra : Reg) (dbl : Bool) (s : State) : Host.Outcome State Fault Refusal :=
  run s fun w => w.opFG c rd [ra] 1 fun x => (w64 (x.opF dbl ra), 0)
/-- GMOVF. -/
def execGmovf (c : CoreId) (rd ra : Reg) (dbl : Bool) (s : State) : Host.Outcome State Fault Refusal :=
  run s fun w => w.opGF c rd ra 1 fun x => (if dbl then (x.rdG ra).toNat else (x.rdG ra).toNat % 2 ^ 32, 0)

/-- A fused multiply-add (R139): `np` negates the product, `na` the addend. -/
def W.fused (w : W) (k : Nat) (rd ra rb rc : Reg) (dbl np na : Bool) : W :=
  w.opFF k rd [ra, rb, rc] 5 fun x => (fmtOf dbl).fma (x.rm k) (x.opF dbl ra) (x.opF dbl rb) (x.opF dbl rc) np na

/-- FMA. -/
def execFma (c : CoreId) (rd ra rb rc : Reg) (dbl : Bool) (s : State) : Host.Outcome State Fault Refusal :=
  run s fun w => w.fused c rd ra rb rc dbl false false
/-- FMA.NP. -/
def execFmaNp (c : CoreId) (rd ra rb rc : Reg) (dbl : Bool) (s : State) : Host.Outcome State Fault Refusal :=
  run s fun w => w.fused c rd ra rb rc dbl true false
/-- FMA.NA. -/
def execFmaNa (c : CoreId) (rd ra rb rc : Reg) (dbl : Bool) (s : State) : Host.Outcome State Fault Refusal :=
  run s fun w => w.fused c rd ra rb rc dbl false true
/-- FMA.NPA. -/
def execFmaNpa (c : CoreId) (rd ra rb rc : Reg) (dbl : Bool) (s : State) : Host.Outcome State Fault Refusal :=
  run s fun w => w.fused c rd ra rb rc dbl true true

end Sys2Proof.Machine
end

