-- ==== Sys2Proof/Machine/Dispatch.lean ====
section
/-! DEFINITION. The dispatch: one arm per command, each one call of its meaning. -/

namespace Sys2Proof.Machine

def exec (i : Instr) (s : State) : Host.Outcome State Fault Refusal :=
  match i with
  | .vcaTurnOn => Sys2Proof.Machine.execVcaTurnOn s
  | .vcaBrownOut => Sys2Proof.Machine.execVcaBrownOut s
  | .resetNLow => Sys2Proof.Machine.execResetNLow s
  | .resetNHigh pos => Sys2Proof.Machine.execResetNHigh pos s
  | .kindleStepComplete r => Sys2Proof.Machine.execKindleStepComplete r s
  | .cmdTailWrite v => Sys2Proof.Machine.execCmdTailWrite v s
  | .replyTailWrite v => Sys2Proof.Machine.execReplyTailWrite v s
  | .ringReset v => Sys2Proof.Machine.execRingReset v s
  | .apertureWrite v => Sys2Proof.Machine.execApertureWrite v s
  | .unknownOpcode opc p => Sys2Proof.Machine.execUnknownOpcode opc p s
  | .commandForward opc p => Sys2Proof.Machine.execCommandForward opc p s
  | .forwardedReply pos seq status final mode result origin => Sys2Proof.Machine.execForwardedReply pos seq status final mode result s origin
  | .pendingCommandStart n => Sys2Proof.Machine.execPendingCommandStart n s
  | .deviceReset p => Sys2Proof.Machine.execDeviceReset p s
  | .runStart p => Sys2Proof.Machine.execRunStart p s
  | .runStop p => Sys2Proof.Machine.execRunStop p s
  | .dozeEnter p => Sys2Proof.Machine.execDozeEnter p s
  | .dozeEntry => Sys2Proof.Machine.execDozeEntry s
  | .maintainEnter p => Sys2Proof.Machine.execMaintainEnter p s
  | .maintainExit p => Sys2Proof.Machine.execMaintainExit p s
  | .nop p => Sys2Proof.Machine.execNop p s
  | .timeStatus p => Sys2Proof.Machine.execTimeStatus p s
  | .timeStep p => Sys2Proof.Machine.execTimeStep p s
  | .configBegin p => Sys2Proof.Machine.execConfigBegin p s
  | .configWrite p => Sys2Proof.Machine.execConfigWrite p s
  | .configCommit p => Sys2Proof.Machine.execConfigCommit p s
  | .configAbort p => Sys2Proof.Machine.execConfigAbort p s
  | .laneStatus p => Sys2Proof.Machine.execLaneStatus p s
  | .laneFence p => Sys2Proof.Machine.execLaneFence p s
  | .laneRetest p => Sys2Proof.Machine.execLaneRetest p s
  | .coreRestart p => Sys2Proof.Machine.execCoreRestart p s
  | .hearthReset p => Sys2Proof.Machine.execHearthReset p s
  | .loopLoad p => Sys2Proof.Machine.execLoopLoad p s
  | .loopParam p => Sys2Proof.Machine.execLoopParam p s
  | .loopMode p => Sys2Proof.Machine.execLoopMode p s
  | .loopResume p => Sys2Proof.Machine.execLoopResume p s
  | .loopStatus p => Sys2Proof.Machine.execLoopStatus p s
  | .loopImageBind p => Sys2Proof.Machine.execLoopImageBind p s
  | .loopExtWrite p => Sys2Proof.Machine.execLoopExtWrite p s
  | .bellowsStatus p => Sys2Proof.Machine.execBellowsStatus p s
  | .bellowsCountClear p => Sys2Proof.Machine.execBellowsCountClear p s
  | .loopInject p => Sys2Proof.Machine.execLoopInject p s
  | .schedLoad p => Sys2Proof.Machine.execSchedLoad p s
  | .schedSwap p => Sys2Proof.Machine.execSchedSwap p s
  | .schedStatus p => Sys2Proof.Machine.execSchedStatus p s
  | .schedCheck p => Sys2Proof.Machine.execSchedCheck p s
  | .memStatus p => Sys2Proof.Machine.execMemStatus p s
  | .memLogRead p => Sys2Proof.Machine.execMemLogRead p s
  | .memScrub p => Sys2Proof.Machine.execMemScrub p s
  | .memRetire p => Sys2Proof.Machine.execMemRetire p s
  | .memRetireList p => Sys2Proof.Machine.execMemRetireList p s
  | .memRepairAdd p => Sys2Proof.Machine.execMemRepairAdd p s
  | .memRepairList p => Sys2Proof.Machine.execMemRepairList p s
  | .memInject p => Sys2Proof.Machine.execMemInject p s
  | .memConfig p => Sys2Proof.Machine.execMemConfig p s
  | .memFill p => Sys2Proof.Machine.execMemFill p s
  | .hobStatus p => Sys2Proof.Machine.execHobStatus p s
  | .hobCountClear p => Sys2Proof.Machine.execHobCountClear p s
  | .fwStatus p => Sys2Proof.Machine.execFwStatus p s
  | .fwViolClear p => Sys2Proof.Machine.execFwViolClear p s
  | .queueSet p => Sys2Proof.Machine.execQueueSet p s
  | .queueStatus p => Sys2Proof.Machine.execQueueStatus p s
  | .queueFlush p => Sys2Proof.Machine.execQueueFlush p s
  | .poolStatus p => Sys2Proof.Machine.execPoolStatus p s
  | .queueBind p => Sys2Proof.Machine.execQueueBind p s
  | .flueStatus p => Sys2Proof.Machine.execFlueStatus p s
  | .flueHistoryRead p => Sys2Proof.Machine.execFlueHistoryRead p s
  | .lockoutReset p => Sys2Proof.Machine.execLockoutReset p s
  | .errpinRelease p => Sys2Proof.Machine.execErrpinRelease p s
  | .flueRelease p => Sys2Proof.Machine.execFlueRelease p s
  | .flueTest p => Sys2Proof.Machine.execFlueTest p s
  | .flueEventsRead p => Sys2Proof.Machine.execFlueEventsRead p s
  | .flueActive p => Sys2Proof.Machine.execFlueActive p s
  | .wdtStatus p => Sys2Proof.Machine.execWdtStatus p s
  | .pwrStatus p => Sys2Proof.Machine.execPwrStatus p s
  | .pwrLevel p => Sys2Proof.Machine.execPwrLevel p s
  | .pwrVote p => Sys2Proof.Machine.execPwrVote p s
  | .padRelease p => Sys2Proof.Machine.execPadRelease p s
  | .pwrDomainStatus p => Sys2Proof.Machine.execPwrDomainStatus p s
  | .pwrCountClear p => Sys2Proof.Machine.execPwrCountClear p s
  | .imageStatus p => Sys2Proof.Machine.execImageStatus p s
  | .imageStageBegin p => Sys2Proof.Machine.execImageStageBegin p s
  | .imageStageChunk p => Sys2Proof.Machine.execImageStageChunk p s
  | .imageVerify p => Sys2Proof.Machine.execImageVerify p s
  | .imageDiscard p => Sys2Proof.Machine.execImageDiscard p s
  | .imagePersist p => Sys2Proof.Machine.execImagePersist p s
  | .cutover p => Sys2Proof.Machine.execCutover p s
  | .cutoverStatus p => Sys2Proof.Machine.execCutoverStatus p s
  | .attest p => Sys2Proof.Machine.execAttest p s
  | .expertGrant p => Sys2Proof.Machine.execExpertGrant p s
  | .grantRelease p => Sys2Proof.Machine.execGrantRelease p s
  | .expertLogRead p => Sys2Proof.Machine.execExpertLogRead p s
  | .lcNonceGet p => Sys2Proof.Machine.execLcNonceGet p s
  | .lcToken p => Sys2Proof.Machine.execLcToken p s
  | .sessionCfg p => Sys2Proof.Machine.execSessionCfg p s
  | .sessionOpen p => Sys2Proof.Machine.execSessionOpen p s
  | .sessionClose p => Sys2Proof.Machine.execSessionClose p s
  | .sessionStatus p => Sys2Proof.Machine.execSessionStatus p s
  | .thmStatus p => Sys2Proof.Machine.execThmStatus p s
  | .thmGate p => Sys2Proof.Machine.execThmGate p s
  | .thmForward p => Sys2Proof.Machine.execThmForward p s
  | .thmSlotErase p => Sys2Proof.Machine.execThmSlotErase p s
  | .thmSlotWrite p => Sys2Proof.Machine.execThmSlotWrite p s
  | .chimneyStatus p => Sys2Proof.Machine.execChimneyStatus p s
  | .chimneySet p => Sys2Proof.Machine.execChimneySet p s
  | .chimneyRetrain p => Sys2Proof.Machine.execChimneyRetrain p s
  | .dampStatus p => Sys2Proof.Machine.execDampStatus p s
  | .fioStatus p => Sys2Proof.Machine.execFioStatus p s
  | .basteStatus p => Sys2Proof.Machine.execBasteStatus p s
  | .basteResults p => Sys2Proof.Machine.execBasteResults p s
  | .basteNow p => Sys2Proof.Machine.execBasteNow p s
  | .scanOpen p => Sys2Proof.Machine.execScanOpen p s
  | .traceStatus p => Sys2Proof.Machine.execTraceStatus p s
  | .mspiWriteCmd len complete bytes => Sys2Proof.Machine.execMspiWriteCmd len complete bytes s
  | .mspiReadReply complete => Sys2Proof.Machine.execMspiReadReply complete s
  | .mspiReadPoll off len complete => Sys2Proof.Machine.execMspiReadPoll off len complete s
  | .mspiReadPattern off len complete => Sys2Proof.Machine.execMspiReadPattern off len complete s
  | .mspiStatus => Sys2Proof.Machine.execMspiStatus s
  | .commit m b v => Sys2Proof.Machine.execCommit m b v s
  | .commitPoint b => Sys2Proof.Machine.execCommitPoint b s
  | .stageDiscard m b v => Sys2Proof.Machine.execStageDiscard m b v s
  | .registerWrite m addr size v => Sys2Proof.Machine.execRegisterWrite m addr size v s
  | .pollRefresh => Sys2Proof.Machine.execPollRefresh s
  | .laneCmdFence m h lane => Sys2Proof.Machine.execLaneCmdFence m h lane s
  | .laneCmdRetest m h lane => Sys2Proof.Machine.execLaneCmdRetest m h lane s
  | .arm m h v => Sys2Proof.Machine.execArm m h v s
  | .energise m h v fb => Sys2Proof.Machine.execEnergise m h v fb s
  | .deEnergise m h v => Sys2Proof.Machine.execDeEnergise m h v s
  | .armExpiry h => Sys2Proof.Machine.execArmExpiry h s
  | .damperPeriodBoundary => Sys2Proof.Machine.execDamperPeriodBoundary s
  | .damperMismatch n cause => Sys2Proof.Machine.execDamperMismatch n cause s
  | .rbSettleExpiry n fb => Sys2Proof.Machine.execRbSettleExpiry n fb s
  | .faultDetection src d0 d1 => Sys2Proof.Machine.execFaultDetection src d0 d1 s
  | .levelSourceInactive src => Sys2Proof.Machine.execLevelSourceInactive src s
  | .reactionComplete => Sys2Proof.Machine.execReactionComplete s
  | .intakeTake => Sys2Proof.Machine.execIntakeTake s
  | .eventRingEnqueue => Sys2Proof.Machine.execEventRingEnqueue s
  | .spillMove n => Sys2Proof.Machine.execSpillMove n s
  | .cfgSweep bad => Sys2Proof.Machine.execCfgSweep bad s
  | .safeExit => Sys2Proof.Machine.execSafeExit s
  | .lockoutRecordWritten => Sys2Proof.Machine.execLockoutRecordWritten s
  | .quietPeriodExpiry => Sys2Proof.Machine.execQuietPeriodExpiry s
  | .recoveryEntryExpiry hearth => Sys2Proof.Machine.execRecoveryEntryExpiry hearth s
  | .localQuietExpiry h => Sys2Proof.Machine.execLocalQuietExpiry h s
  | .errpinHoldExpiry => Sys2Proof.Machine.execErrpinHoldExpiry s
  | .opResetDebounced => Sys2Proof.Machine.execOpResetDebounced s
  | .opResetStuck => Sys2Proof.Machine.execOpResetStuck s
  | .refclkLoss which kHz => Sys2Proof.Machine.execRefclkLoss which kHz s
  | .wdtKeyWrite c rs => Sys2Proof.Machine.execWdtKeyWrite c rs s
  | .wdtCheckin c rs => Sys2Proof.Machine.execWdtCheckin c rs s
  | .windowClose c => Sys2Proof.Machine.execWindowClose c s
  | .hardTimerExpiry c => Sys2Proof.Machine.execHardTimerExpiry c s
  | .reqLimitExpiry c => Sys2Proof.Machine.execReqLimitExpiry c s
  | .suspensionLimit => Sys2Proof.Machine.execSuspensionLimit s
  | .commitToken c slot tok => Sys2Proof.Machine.execCommitToken c slot tok s
  | .requestToken c slot tok => Sys2Proof.Machine.execRequestToken c slot tok s
  | .stragglerWindowExpiry c => Sys2Proof.Machine.execStragglerWindowExpiry c s
  | .stallMonitorExpiry at_ => Sys2Proof.Machine.execStallMonitorExpiry at_ s
  | .seamCheck c => Sys2Proof.Machine.execSeamCheck c s
  | .routedToken u m write ok => Sys2Proof.Machine.execRoutedToken u m write ok s
  | .rethreadComplete c r seamOk => Sys2Proof.Machine.execRethreadComplete c r seamOk s
  | .rethreadTimerExpiry c => Sys2Proof.Machine.execRethreadTimerExpiry c s
  | .fenceWindowExpiry u lane => Sys2Proof.Machine.execFenceWindowExpiry u lane s
  | .stokerRestartComplete => Sys2Proof.Machine.execStokerRestartComplete s
  | .interruptEntry c late => Sys2Proof.Machine.execInterruptEntry c late s
  | .trapEntry c code eaddr detail => Sys2Proof.Machine.execTrapEntry c code eaddr detail s
  | .add c rd ra rb => Sys2Proof.Machine.execAdd c rd ra rb s
  | .sub c rd ra rb => Sys2Proof.Machine.execSub c rd ra rb s
  | .and_ c rd ra rb => Sys2Proof.Machine.execAnd c rd ra rb s
  | .or_ c rd ra rb => Sys2Proof.Machine.execOr c rd ra rb s
  | .xor c rd ra rb => Sys2Proof.Machine.execXor c rd ra rb s
  | .shl c rd ra rb => Sys2Proof.Machine.execShl c rd ra rb s
  | .shr c rd ra rb => Sys2Proof.Machine.execShr c rd ra rb s
  | .sar c rd ra rb => Sys2Proof.Machine.execSar c rd ra rb s
  | .clt c rd ra rb => Sys2Proof.Machine.execClt c rd ra rb s
  | .cltu c rd ra rb => Sys2Proof.Machine.execCltu c rd ra rb s
  | .add32 c rd ra rb => Sys2Proof.Machine.execAdd32 c rd ra rb s
  | .sub32 c rd ra rb => Sys2Proof.Machine.execSub32 c rd ra rb s
  | .clz c rd ra => Sys2Proof.Machine.execClz c rd ra s
  | .popc c rd ra => Sys2Proof.Machine.execPopc c rd ra s
  | .min_ c rd ra rb => Sys2Proof.Machine.execMin c rd ra rb s
  | .max_ c rd ra rb => Sys2Proof.Machine.execMax c rd ra rb s
  | .minu c rd ra rb => Sys2Proof.Machine.execMinu c rd ra rb s
  | .maxu c rd ra rb => Sys2Proof.Machine.execMaxu c rd ra rb s
  | .andn c rd ra rb => Sys2Proof.Machine.execAndn c rd ra rb s
  | .rotr c rd ra rb => Sys2Proof.Machine.execRotr c rd ra rb s
  | .mul c rd ra rb => Sys2Proof.Machine.execMul c rd ra rb s
  | .mulhi c rd ra rb => Sys2Proof.Machine.execMulhi c rd ra rb s
  | .mulhiu c rd ra rb => Sys2Proof.Machine.execMulhiu c rd ra rb s
  | .mac c rd ra rb => Sys2Proof.Machine.execMac c rd ra rb s
  | .divs c rd ra rb => Sys2Proof.Machine.execDivs c rd ra rb s
  | .divu c rd ra rb => Sys2Proof.Machine.execDivu c rd ra rb s
  | .rems c rd ra rb => Sys2Proof.Machine.execRems c rd ra rb s
  | .remu c rd ra rb => Sys2Proof.Machine.execRemu c rd ra rb s
  | .addi c rd ra imm => Sys2Proof.Machine.execAddi c rd ra imm s
  | .clti c rd ra imm => Sys2Proof.Machine.execClti c rd ra imm s
  | .cltiu c rd ra imm => Sys2Proof.Machine.execCltiu c rd ra imm s
  | .andi c rd ra imm => Sys2Proof.Machine.execAndi c rd ra imm s
  | .ori c rd ra imm => Sys2Proof.Machine.execOri c rd ra imm s
  | .xori c rd ra imm => Sys2Proof.Machine.execXori c rd ra imm s
  | .shli c rd ra n => Sys2Proof.Machine.execShli c rd ra n s
  | .shri c rd ra n => Sys2Proof.Machine.execShri c rd ra n s
  | .sari c rd ra n => Sys2Proof.Machine.execSari c rd ra n s
  | .rotri c rd ra n => Sys2Proof.Machine.execRotri c rd ra n s
  | .movhi c rd imm => Sys2Proof.Machine.execMovhi c rd imm s
  | .insh c rd ra imm => Sys2Proof.Machine.execInsh c rd ra imm s
  | .inst c rd ra imm => Sys2Proof.Machine.execInst c rd ra imm s
  | .lb c rd ra imm wait => Sys2Proof.Machine.execLb c rd ra imm s wait
  | .lbu c rd ra imm wait => Sys2Proof.Machine.execLbu c rd ra imm s wait
  | .lh c rd ra imm wait => Sys2Proof.Machine.execLh c rd ra imm s wait
  | .lhu c rd ra imm wait => Sys2Proof.Machine.execLhu c rd ra imm s wait
  | .lw c rd ra imm wait => Sys2Proof.Machine.execLw c rd ra imm s wait
  | .lwu c rd ra imm wait => Sys2Proof.Machine.execLwu c rd ra imm s wait
  | .ld c rd ra imm wait => Sys2Proof.Machine.execLd c rd ra imm s wait
  | .flw c rd ra imm wait => Sys2Proof.Machine.execFlw c rd ra imm s wait
  | .fld c rd ra imm wait => Sys2Proof.Machine.execFld c rd ra imm s wait
  | .sb c rs ra imm => Sys2Proof.Machine.execSb c rs ra imm s
  | .sh c rs ra imm => Sys2Proof.Machine.execSh c rs ra imm s
  | .sw c rs ra imm => Sys2Proof.Machine.execSw c rs ra imm s
  | .sd c rs ra imm => Sys2Proof.Machine.execSd c rs ra imm s
  | .fsw c rs ra imm => Sys2Proof.Machine.execFsw c rs ra imm s
  | .fsd c rs ra imm => Sys2Proof.Machine.execFsd c rs ra imm s
  | .atomic c rd ra rb fn wait => Sys2Proof.Machine.execAtomic c rd ra rb fn s wait
  | .beq c ra rb off => Sys2Proof.Machine.execBeq c ra rb off s
  | .bne c ra rb off => Sys2Proof.Machine.execBne c ra rb off s
  | .blt c ra rb off => Sys2Proof.Machine.execBlt c ra rb off s
  | .bge c ra rb off => Sys2Proof.Machine.execBge c ra rb off s
  | .bltu c ra rb off => Sys2Proof.Machine.execBltu c ra rb off s
  | .bgeu c ra rb off => Sys2Proof.Machine.execBgeu c ra rb off s
  | .j c off => Sys2Proof.Machine.execJ c off s
  | .jal c off => Sys2Proof.Machine.execJal c off s
  | .jalr c rd ra imm => Sys2Proof.Machine.execJalr c rd ra imm s
  | .fadd c rd ra rb dbl => Sys2Proof.Machine.execFadd c rd ra rb dbl s
  | .fsub c rd ra rb dbl => Sys2Proof.Machine.execFsub c rd ra rb dbl s
  | .fmul c rd ra rb dbl => Sys2Proof.Machine.execFmul c rd ra rb dbl s
  | .fdiv c rd ra rb dbl => Sys2Proof.Machine.execFdiv c rd ra rb dbl s
  | .fsqrt c rd ra dbl => Sys2Proof.Machine.execFsqrt c rd ra dbl s
  | .fmin c rd ra rb dbl => Sys2Proof.Machine.execFmin c rd ra rb dbl s
  | .fmax c rd ra rb dbl => Sys2Proof.Machine.execFmax c rd ra rb dbl s
  | .fabs c rd ra dbl => Sys2Proof.Machine.execFabs c rd ra dbl s
  | .fneg c rd ra dbl => Sys2Proof.Machine.execFneg c rd ra dbl s
  | .fcopysign c rd ra rb dbl => Sys2Proof.Machine.execFcopysign c rd ra rb dbl s
  | .fcmp c rd ra rb pr dbl => Sys2Proof.Machine.execFcmp c rd ra rb pr dbl s
  | .fkind c rd ra dbl => Sys2Proof.Machine.execFkind c rd ra dbl s
  | .ftoi32 c rd ra dbl => Sys2Proof.Machine.execFtoi32 c rd ra dbl s
  | .ftoi64 c rd ra dbl => Sys2Proof.Machine.execFtoi64 c rd ra dbl s
  | .itof32 c rd ra dbl => Sys2Proof.Machine.execItof32 c rd ra dbl s
  | .itof64 c rd ra dbl => Sys2Proof.Machine.execItof64 c rd ra dbl s
  | .fnarrow c rd ra => Sys2Proof.Machine.execFnarrow c rd ra s
  | .fwiden c rd ra => Sys2Proof.Machine.execFwiden c rd ra s
  | .fmovg c rd ra dbl => Sys2Proof.Machine.execFmovg c rd ra dbl s
  | .gmovf c rd ra dbl => Sys2Proof.Machine.execGmovf c rd ra dbl s
  | .fma c rd ra rb rc dbl => Sys2Proof.Machine.execFma c rd ra rb rc dbl s
  | .fmaNp c rd ra rb rc dbl => Sys2Proof.Machine.execFmaNp c rd ra rb rc dbl s
  | .fmaNa c rd ra rb rc dbl => Sys2Proof.Machine.execFmaNa c rd ra rb rc dbl s
  | .fmaNpa c rd ra rb rc dbl => Sys2Proof.Machine.execFmaNpa c rd ra rb rc dbl s
  | .syncF c => Sys2Proof.Machine.execSyncF c s
  | .syncC c => Sys2Proof.Machine.execSyncC c s
  | .syncM c => Sys2Proof.Machine.execSyncM c s
  | .wait c => Sys2Proof.Machine.execWait c s
  | .coreWake c => Sys2Proof.Machine.execCoreWake c s
  | .trap c => Sys2Proof.Machine.execTrap c s
  | .bkpt c => Sys2Proof.Machine.execBkpt c s
  | .rete c => Sys2Proof.Machine.execRete c s
  | .ctlrd c rd ctl => Sys2Proof.Machine.execCtlrd c rd ctl s
  | .ctlwr c rs ctl => Sys2Proof.Machine.execCtlwr c rs ctl s
  | .intRaise c rs => Sys2Proof.Machine.execIntRaise c rs s
  | .intPendClear c rs => Sys2Proof.Machine.execIntPendClear c rs s
  | .storeAccept c linkOk stall => Sys2Proof.Machine.execStoreAccept c linkOk s stall
  | .loadResponse c linkOk stall idx => Sys2Proof.Machine.execLoadResponse c linkOk stall s idx
  | .hobAccess u waiting => Sys2Proof.Machine.execHobAccess u waiting s
  | .marchRowStart u => Sys2Proof.Machine.execMarchRowStart u s
  | .marchRowComplete u fail => Sys2Proof.Machine.execMarchRowComplete u fail s
  | .hobWake h => Sys2Proof.Machine.execHobWake h s
  | .hobInject m u v => Sys2Proof.Machine.execHobInject m u v s
  | .hobCntClear m u v => Sys2Proof.Machine.execHobCntClear m u v s
  | .frameBoundary => Sys2Proof.Machine.execFrameBoundary s
  | .inDeadlineExpiry h => Sys2Proof.Machine.execInDeadlineExpiry h s
  | .imageChannelComplete h ch halted => Sys2Proof.Machine.execImageChannelComplete h ch halted s
  | .bellowsSlot h bad => Sys2Proof.Machine.execBellowsSlot h bad s
  | .ctxResume m h v => Sys2Proof.Machine.execCtxResume m h v s
  | .blwInject m h v => Sys2Proof.Machine.execBlwInject m h v s
  | .blwCntClear m h v => Sys2Proof.Machine.execBlwCntClear m h v s
  | .stepGo m v => Sys2Proof.Machine.execStepGo m v s
  | .tcmpFire n => Sys2Proof.Machine.execTcmpFire n s
  | .syncTimeout => Sys2Proof.Machine.execSyncTimeout s
  | .dramRead m addr len => Sys2Proof.Machine.execDramRead m addr len s
  | .dramWrite m addr bytes => Sys2Proof.Machine.execDramWrite m addr bytes s
  | .scrubComplete dur => Sys2Proof.Machine.execScrubComplete dur s
  | .fillComplete dur => Sys2Proof.Machine.execFillComplete dur s
  | .scrubOverdue => Sys2Proof.Machine.execScrubOverdue s
  | .retireAdd m v => Sys2Proof.Machine.execRetireAdd m v s
  | .memcCntClear m ch v => Sys2Proof.Machine.execMemcCntClear m ch v s
  | .deq m q ecc => Sys2Proof.Machine.execDeq m q ecc s
  | .peek m q ecc => Sys2Proof.Machine.execPeek m q ecc s
  | .qstat m q => Sys2Proof.Machine.execQstat m q s
  | .tryOpen m q => Sys2Proof.Machine.execTryOpen m q s
  | .enq m q v => Sys2Proof.Machine.execEnq m q v s
  | .pktOpen m q v => Sys2Proof.Machine.execPktOpen m q v s
  | .pktWord m q v two => Sys2Proof.Machine.execPktWord m q v two s
  | .pktClose m q v => Sys2Proof.Machine.execPktClose m q v s
  | .waiterGrant => Sys2Proof.Machine.execWaiterGrant s
  | .poolWindowAccess m off wr => Sys2Proof.Machine.execPoolWindowAccess m off wr s
  | .bobCntClear m v => Sys2Proof.Machine.execBobCntClear m v s
  | .bfifoPointerFault n => Sys2Proof.Machine.execBfifoPointerFault n s
  | .basteDue u => Sys2Proof.Machine.execBasteDue u s
  | .deferredSliceStart u => Sys2Proof.Machine.execDeferredSliceStart u s
  | .sliceComplete u lane pass seamOk => Sys2Proof.Machine.execSliceComplete u lane pass seamOk s
  | .bellowsSliceComplete h pass => Sys2Proof.Machine.execBellowsSliceComplete h pass s
  | .startupTestComplete h r => Sys2Proof.Machine.execStartupTestComplete h r s
  | .basteOverdue u target => Sys2Proof.Machine.execBasteOverdue u target s
  | .basteGo m v => Sys2Proof.Machine.execBasteGo m v s
  | .thmReset => Sys2Proof.Machine.execThmReset s
  | .thmBootComplete r => Sys2Proof.Machine.execThmBootComplete r s
  | .thmLaneHalt => Sys2Proof.Machine.execThmLaneHalt s
  | .thmHeartbeatTimeout => Sys2Proof.Machine.execThmHeartbeatTimeout s
  | .lifecycleSensed => Sys2Proof.Machine.execLifecycleSensed s
  | .sealOpened => Sys2Proof.Machine.execSealOpened s
  | .sealClosed => Sys2Proof.Machine.execSealClosed s
  | .thmSample n bits => Sys2Proof.Machine.execThmSample n bits s
  | .pulseEdge j period => Sys2Proof.Machine.execPulseEdge j period s
  | .recordSubmit ty point flags ps => Sys2Proof.Machine.execRecordSubmit ty point flags ps s
  | .signingTimer => Sys2Proof.Machine.execSigningTimer s
  | .signingComplete => Sys2Proof.Machine.execSigningComplete s
  | .gateNop => Sys2Proof.Machine.execGateNop s
  | .thmStart fw => Sys2Proof.Machine.execThmStart fw s
  | .thmStop fw => Sys2Proof.Machine.execThmStop fw s
  | .tare fw => Sys2Proof.Machine.execTare fw s
  | .zero fw => Sys2Proof.Machine.execZero fw s
  | .presetTare fw => Sys2Proof.Machine.execPresetTare fw s
  | .clearTare fw => Sys2Proof.Machine.execClearTare fw s
  | .batchOpen fw => Sys2Proof.Machine.execBatchOpen fw s
  | .batchClose fw => Sys2Proof.Machine.execBatchClose fw s
  | .signNow => Sys2Proof.Machine.execSignNow s
  | .recordAck => Sys2Proof.Machine.execRecordAck s
  | .replay => Sys2Proof.Machine.execReplay s
  | .timeMark => Sys2Proof.Machine.execTimeMark s
  | .paramWrite fw => Sys2Proof.Machine.execParamWrite fw s
  | .paramCommit fw => Sys2Proof.Machine.execParamCommit fw s
  | .imageActivate => Sys2Proof.Machine.execImageActivate s
  | .gateAnswer => Sys2Proof.Machine.execGateAnswer s
  | .gateTimeout => Sys2Proof.Machine.execGateTimeout s
  | .thmRecordForward => Sys2Proof.Machine.execThmRecordForward s
  | .cutoverArmed => Sys2Proof.Machine.execCutoverArmed s
  | .cutoverBoundary => Sys2Proof.Machine.execCutoverBoundary s
  | .cutoverSwitch => Sys2Proof.Machine.execCutoverSwitch s
  | .switchDeadlineExpiry => Sys2Proof.Machine.execSwitchDeadlineExpiry s
  | .cutPass m h v => Sys2Proof.Machine.execCutPass m h v s
  | .cutoverCheckDeadline => Sys2Proof.Machine.execCutoverCheckDeadline s
  | .cutoverFallback => Sys2Proof.Machine.execCutoverFallback s
  | .imageVerifyComplete => Sys2Proof.Machine.execImageVerifyComplete s
  | .flashOperationComplete dev thimble ok => Sys2Proof.Machine.execFlashOperationComplete dev thimble ok s
  | .grantExpiry id => Sys2Proof.Machine.execGrantExpiry id s
  | .sessionExpiry id => Sys2Proof.Machine.execSessionExpiry id s
  | .entropyFail failing => Sys2Proof.Machine.execEntropyFail failing s
  | .domainEntry n e => Sys2Proof.Machine.execDomainEntry n e s
  | .domainWake n => Sys2Proof.Machine.execDomainWake n s
  | .voteCmd m v => Sys2Proof.Machine.execVoteCmd m v s
  | .padRel m v => Sys2Proof.Machine.execPadRel m v s
  | .acctClear m v => Sys2Proof.Machine.execAcctClear m v s
  | .avsVdone rail => Sys2Proof.Machine.execAvsVdone rail s
  | .avsAckTimeout rail => Sys2Proof.Machine.execAvsAckTimeout rail s
  | .supplyExcursion rail mv => Sys2Proof.Machine.execSupplyExcursion rail mv s
  | .tjReading sensor deg => Sys2Proof.Machine.execTjReading sensor deg s
  | .dozeWake => Sys2Proof.Machine.execDozeWake s
  | .linkUp up peer x8 => Sys2Proof.Machine.execLinkUp up peer x8 s
  | .linkDown up => Sys2Proof.Machine.execLinkDown up s
  | .retrainTimer up => Sys2Proof.Machine.execRetrainTimer up s
  | .chimneyFrame up tag ok => Sys2Proof.Machine.execChimneyFrame up tag ok s
  | .timeFrameSend => Sys2Proof.Machine.execTimeFrameSend s
  | .timeFrame f => Sys2Proof.Machine.execTimeFrame f s
  | .statusFrameSend => Sys2Proof.Machine.execStatusFrameSend s
  | .statusFrame f => Sys2Proof.Machine.execStatusFrame f s
  | .linkDelayMeasure up roundTrip => Sys2Proof.Machine.execLinkDelayMeasure up roundTrip s
  | .baseReachTimeout => Sys2Proof.Machine.execBaseReachTimeout s
  | .reachTimeout pos => Sys2Proof.Machine.execReachTimeout pos s
  | .retrainUp m v => Sys2Proof.Machine.execRetrainUp m v s
  | .retrainDown m v => Sys2Proof.Machine.execRetrainDown m v s
  | .windowRequest q => Sys2Proof.Machine.execWindowRequest q s
  | .windowResponse n ok v => Sys2Proof.Machine.execWindowResponse n ok v s
  | .hostRead bar2 off size => Sys2Proof.Machine.execHostRead bar2 off size s
  | .hostWrite bar2 off bytes => Sys2Proof.Machine.execHostWrite bar2 off bytes s
  | .pcieLinkDown => Sys2Proof.Machine.execPcieLinkDown s
  | .pcieLinkUp => Sys2Proof.Machine.execPcieLinkUp s
  | .ethFrameReceive mac f => Sys2Proof.Machine.execEthFrameReceive mac f s
  | .ethFrameTransmit mac => Sys2Proof.Machine.execEthFrameTransmit mac s
  | .ethLinkDown mac => Sys2Proof.Machine.execEthLinkDown mac s
  | .canFrameReceive c f => Sys2Proof.Machine.execCanFrameReceive c f s
  | .canFrameTransmit c => Sys2Proof.Machine.execCanFrameTransmit c s
  | .canBusOff c => Sys2Proof.Machine.execCanBusOff c s
  | .busOffRecovery c => Sys2Proof.Machine.execBusOffRecovery c s
  | .i2cBusStuck n => Sys2Proof.Machine.execI2cBusStuck n s
  | .gpioEdge pin level => Sys2Proof.Machine.execGpioEdge pin level s
  | .opResetNHigh => Sys2Proof.Machine.execOpResetNHigh s
  | .thmRstNLow => Sys2Proof.Machine.execThmRstNLow s
  | .thmKernelWatchdog => Sys2Proof.Machine.execThmKernelWatchdog s
  | .ethLinkUp mac => Sys2Proof.Machine.execEthLinkUp mac s
  | .configurationRequest off wr => Sys2Proof.Machine.execConfigurationRequest off wr s
  | .debugHaltRequest c => Sys2Proof.Machine.execDebugHaltRequest c s
  | .debugResume c => Sys2Proof.Machine.execDebugResume c s
  | .debugAccess addr wr => Sys2Proof.Machine.execDebugAccess addr wr s
  | .attestComplete => Sys2Proof.Machine.execAttestComplete s
  | .sessionOpenComplete => Sys2Proof.Machine.execSessionOpenComplete s
  | .scanOpenComplete => Sys2Proof.Machine.execScanOpenComplete s
  | .scanInstruction priv => Sys2Proof.Machine.execScanInstruction priv s
  | .dmaChannelComplete h ch halted => Sys2Proof.Machine.execDmaChannelComplete h ch halted s

end Sys2Proof.Machine
end

