-- ==== Sys2Proof/Machine/Idle.lean ====
section
/-! DEFINITION. What the block does while no command waits: the time base and the interval counter count one period of
REFCLK_TB (R248); a ring reset that is due is made (R65), and so is a device reset that is due (R76); the hobs write
back corrected bytes (R196), and the DRAM channels corrected lines (R352). -/

namespace Sys2Proof.Machine

/-- The nanoseconds that the counters take over one period of REFCLK_TB, 40 ns, with the rate adjustment in parts per 10^9
carried in the accumulator (R248); none until REFCLK_TB has started them. (DESIGN CHOICE: assumption 2.) -/
def Clock.period (c : Clock) (rate : Int) : Int := if c.running then 40 + (c.acc + 40 * rate) / 1000000000 else 0

/-- The counters over one period of REFCLK_TB. (DESIGN CHOICE: assumption 2.) -/
def Clock.tick (c : Clock) (rate : Int) : Clock :=
  let dt := BitVec.ofInt 64 (c.period rate)
  { c with tb := c.tb + dt, ivl := c.ivl + dt, acc := if c.running then (c.acc + 40 * rate) % 1000000000 else c.acc }

/-- One period of REFCLK_TB: what counts by the interval counter goes on with it, and the Thimble by its own clock.
(DESIGN CHOICE: assumption 1.) -/
def W.tickTb (w : W) : W :=
  w.upd fun d =>
    let rate := (d.regs.val.getD 0x20040038 0).toInt
    let e := d.advance (d.clock.period rate).toNat
    { e with clock := { d.clock.tick rate with beats := e.clock.beats }, thm := d.thm.tick 40 }

/-- No access waits at a hob: the tester's slot writes back what the queue holds (R189, R196).
(DESIGN CHOICE: assumption 1.) -/
def W.writeBacks (w : W) : W :=
  w.each (List.range 17) fun u w => if (w.dev.hob u).power = .awake then w.drainAll u else w

/-- What an idle step does. (DESIGN CHOICE: assumptions 1, 72.) -/
def W.idle (w : W) : W :=
  let w := w.tickTb
  if w.dev.sys.resetArmed then w.deviceReset else w.ringDue.writeBacks.dramBacks

/-- One idle step. (DESIGN CHOICE: assumption 1.) -/
def idle (s : State) : Host.Outcome State Fault Refusal := run s W.idle

end Sys2Proof.Machine
end

