-- ==== Sys2Proof/Machine/VexWords.lean ====
section
/-! DEFINITION. The words of the Vexku instructions (R130, R131, R135 to R140): which instruction a word is, its fields, and
which words are illegal. A core's own rows carry the instruction itself; `execVexWord` gives a word
the meaning of its instruction, and one that is illegal the illegal-instruction trap (R162). -/

namespace Sys2Proof.Machine

/-- A row of the instruction tables: the bits that are fixed, and what they are. -/
structure VexRow where
  /-- The mnemonic. -/
  name : String
  /-- The fixed bits: OP, the function code, and the fields that must be zero. -/
  mask : Nat
  /-- Their values. -/
  bits : Nat
  deriving DecidableEq, Repr

/-- The rows of the integer register operations, immediates, shifts and constants (R135). -/
def vexRowsInt : List VexRow :=
  [⟨"ADD", 0xFC0007FF, 0x04000000⟩,
   ⟨"SUB", 0xFC0007FF, 0x04000001⟩,
   ⟨"AND", 0xFC0007FF, 0x04000002⟩,
   ⟨"OR", 0xFC0007FF, 0x04000003⟩,
   ⟨"XOR", 0xFC0007FF, 0x04000004⟩,
   ⟨"SHL", 0xFC0007FF, 0x04000005⟩,
   ⟨"SHR", 0xFC0007FF, 0x04000006⟩,
   ⟨"SAR", 0xFC0007FF, 0x04000007⟩,
   ⟨"CLT", 0xFC0007FF, 0x04000008⟩,
   ⟨"CLTU", 0xFC0007FF, 0x04000009⟩,
   ⟨"ADD32", 0xFC0007FF, 0x0400000A⟩,
   ⟨"SUB32", 0xFC0007FF, 0x0400000B⟩,
   ⟨"CLZ", 0xFC00FFFF, 0x0400000C⟩,
   ⟨"POPC", 0xFC00FFFF, 0x0400000D⟩,
   ⟨"MIN", 0xFC0007FF, 0x0400000E⟩,
   ⟨"MAX", 0xFC0007FF, 0x0400000F⟩,
   ⟨"MINU", 0xFC0007FF, 0x04000010⟩,
   ⟨"MAXU", 0xFC0007FF, 0x04000011⟩,
   ⟨"ANDN", 0xFC0007FF, 0x04000012⟩,
   ⟨"ROTR", 0xFC0007FF, 0x04000013⟩,
   ⟨"MUL", 0xFC0007FF, 0x04000020⟩,
   ⟨"MULHI", 0xFC0007FF, 0x04000021⟩,
   ⟨"MULHIU", 0xFC0007FF, 0x04000022⟩,
   ⟨"MAC", 0xFC0007FF, 0x04000023⟩,
   ⟨"DIVS", 0xFC0007FF, 0x04000030⟩,
   ⟨"DIVU", 0xFC0007FF, 0x04000031⟩,
   ⟨"REMS", 0xFC0007FF, 0x04000032⟩,
   ⟨"REMU", 0xFC0007FF, 0x04000033⟩,
   ⟨"ADDI", 0xFC000000, 0x08000000⟩,
   ⟨"CLTI", 0xFC000000, 0x0C000000⟩,
   ⟨"CLTIU", 0xFC000000, 0x10000000⟩,
   ⟨"ANDI", 0xFC000000, 0x14000000⟩,
   ⟨"ORI", 0xFC000000, 0x18000000⟩,
   ⟨"XORI", 0xFC000000, 0x1C000000⟩,
   ⟨"SHLI", 0xFC00FFC0, 0x20000000⟩,
   ⟨"SHRI", 0xFC00FFC0, 0x20000040⟩,
   ⟨"SARI", 0xFC00FFC0, 0x20000080⟩,
   ⟨"ROTRI", 0xFC00FFC0, 0x200000C0⟩,
   ⟨"MOVHI", 0xFC1F0000, 0x24000000⟩,
   ⟨"INSH", 0xFC000000, 0x28000000⟩,
   ⟨"INST", 0xFC000000, 0x2C000000⟩]

/-- The rows of the loads, stores and atomics (R136, R137), branches and jumps (R138). -/
def vexRowsMem : List VexRow :=
  [⟨"LB", 0xFC000000, 0x40000000⟩,
   ⟨"LBU", 0xFC000000, 0x44000000⟩,
   ⟨"LH", 0xFC000000, 0x48000000⟩,
   ⟨"LHU", 0xFC000000, 0x4C000000⟩,
   ⟨"LW", 0xFC000000, 0x50000000⟩,
   ⟨"LWU", 0xFC000000, 0x54000000⟩,
   ⟨"LD", 0xFC000000, 0x58000000⟩,
   ⟨"FLW", 0xFC000000, 0x5C000000⟩,
   ⟨"FLD", 0xFC000000, 0x60000000⟩,
   ⟨"SB", 0xFC000000, 0x64000000⟩,
   ⟨"SH", 0xFC000000, 0x68000000⟩,
   ⟨"SW", 0xFC000000, 0x6C000000⟩,
   ⟨"SD", 0xFC000000, 0x70000000⟩,
   ⟨"FSW", 0xFC000000, 0x74000000⟩,
   ⟨"FSD", 0xFC000000, 0x78000000⟩,
   ⟨"ATOMIC", 0xFC0007FE, 0x7C000000⟩,
   ⟨"ATOMIC", 0xFC0007FE, 0x7C000002⟩,
   ⟨"ATOMIC", 0xFC0007FE, 0x7C000004⟩,
   ⟨"ATOMIC", 0xFC0007FE, 0x7C000006⟩,
   ⟨"ATOMIC", 0xFC0007FE, 0x7C000008⟩,
   ⟨"ATOMIC", 0xFC0007FE, 0x7C00000A⟩,
   ⟨"ATOMIC", 0xFC0007FE, 0x7C00000C⟩,
   ⟨"ATOMIC", 0xFC0007FE, 0x7C00000E⟩,
   ⟨"ATOMIC", 0xFC0007FE, 0x7C000010⟩,
   ⟨"BEQ", 0xFC000000, 0x80000000⟩,
   ⟨"BNE", 0xFC000000, 0x84000000⟩,
   ⟨"BLT", 0xFC000000, 0x88000000⟩,
   ⟨"BGE", 0xFC000000, 0x8C000000⟩,
   ⟨"BLTU", 0xFC000000, 0x90000000⟩,
   ⟨"BGEU", 0xFC000000, 0x94000000⟩,
   ⟨"J", 0xFC000000, 0x98000000⟩,
   ⟨"JAL", 0xFC000000, 0x9C000000⟩,
   ⟨"JALR", 0xFC000000, 0xA0000000⟩]

/-- The rows of the floating-point and system instructions (R139, R140, R152). -/
def vexRowsSys : List VexRow :=
  [⟨"FADD", 0xFC0007FE, 0xC0000000⟩,
   ⟨"FSUB", 0xFC0007FE, 0xC0000002⟩,
   ⟨"FMUL", 0xFC0007FE, 0xC0000004⟩,
   ⟨"FDIV", 0xFC0007FE, 0xC0000006⟩,
   ⟨"FSQRT", 0xFC00FFFE, 0xC0000008⟩,
   ⟨"FMIN", 0xFC0007FE, 0xC000000A⟩,
   ⟨"FMAX", 0xFC0007FE, 0xC000000C⟩,
   ⟨"FABS", 0xFC00FFFE, 0xC000000E⟩,
   ⟨"FNEG", 0xFC00FFFE, 0xC0000010⟩,
   ⟨"FCOPYSIGN", 0xFC0007FE, 0xC0000012⟩,
   ⟨"FCMP", 0xFC0007F0, 0xC0000020⟩,
   ⟨"FKIND", 0xFC00FFFE, 0xC0000030⟩,
   ⟨"FTOI32", 0xFC0007FE, 0xC0000032⟩,
   ⟨"FTOI64", 0xFC0007FE, 0xC0000034⟩,
   ⟨"ITOF32", 0xFC0007FE, 0xC0000036⟩,
   ⟨"ITOF64", 0xFC0007FE, 0xC0000038⟩,
   ⟨"FNARROW", 0xFC0007FF, 0xC000003A⟩,
   ⟨"FWIDEN", 0xFC0007FF, 0xC000003B⟩,
   ⟨"FMOVG", 0xFC0007FE, 0xC000003C⟩,
   ⟨"GMOVF", 0xFC0007FE, 0xC000003E⟩,
   ⟨"FMA", 0xFC00003E, 0xC4000000⟩,
   ⟨"FMA_NP", 0xFC00003E, 0xC4000002⟩,
   ⟨"FMA_NA", 0xFC00003E, 0xC4000004⟩,
   ⟨"FMA_NPA", 0xFC00003E, 0xC4000006⟩,
   ⟨"SYNC_F", 0xFFFFFFFF, 0xE0000001⟩,
   ⟨"SYNC_C", 0xFFFFFFFF, 0xE0000002⟩,
   ⟨"SYNC_M", 0xFFFFFFFF, 0xE0000003⟩,
   ⟨"WAIT", 0xFFFFFFFF, 0xE0000004⟩,
   ⟨"TRAP", 0xFFFFFFFF, 0xE0000005⟩,
   ⟨"BKPT", 0xFFFFFFFF, 0xE0000006⟩,
   ⟨"RETE", 0xFFFFFFFF, 0xE0000007⟩,
   ⟨"CTLRD", 0xFC1FF000, 0xE4000000⟩,
   ⟨"CTLWR", 0xFC1FF000, 0xE8000000⟩]

/-- Every row. (DEDUCED: assumption 147.) -/
def vexRows : List VexRow := vexRowsInt ++ vexRowsMem ++ vexRowsSys

/-- The word is of the row. -/
def VexRow.fits (r : VexRow) (v : Word32) : Bool := Nat.land v.toNat r.mask == r.bits

/-- The instruction that a word is; none where it is illegal (R130). A register field that no row fixes and the instruction
does not use may hold any value. (DEDUCED: assumption 147.) -/
def vexDecode (v : Word32) : Option String := (vexRows.find? (·.fits v)).map (·.name)

/-- Two rows share a word. -/
def VexRow.meets (a b : VexRow) : Bool := Nat.land a.bits b.mask == Nat.land b.bits a.mask

/-- RD, RS of a store or CTLWR, or RA of a branch: bits [25:21] (R130). -/
def vexD (v : Word32) : Reg := BitVec.ofNat 5 (fld v 21 5)

/-- RA, or RB of a branch: bits [20:16]. -/
def vexA (v : Word32) : Reg := BitVec.ofNat 5 (fld v 16 5)

/-- RB: bits [15:11]. -/
def vexB (v : Word32) : Reg := BitVec.ofNat 5 (fld v 11 5)

/-- RC: bits [10:6]. -/
def vexC (v : Word32) : Reg := BitVec.ofNat 5 (fld v 6 5)

/-- IMM16 and OFF16. -/
def vexImm (v : Word32) : BitVec 16 := BitVec.ofNat 16 (fld v 0 16)

/-- OFF26. -/
def vexOff (v : Word32) : BitVec 26 := BitVec.ofNat 26 (fld v 0 26)

/-- CTL. -/
def vexCtl (v : Word32) : BitVec 12 := BitVec.ofNat 12 (fld v 0 12)

end Sys2Proof.Machine
end

