-- ==== Sys2Proof/Machine/VexExec.lean ====
section
/-! DEFINITION. What a core does with an instruction word (R130, R131): the meaning of the instruction that it is, with the
fields that its format gives, or the illegal-instruction trap. The table has a row for each instruction and none for a fetched
word, so that no row runs a word; this says which row a word stands for. -/

namespace Sys2Proof.Machine

/-- The illegal-instruction trap of a word that is no instruction (R130, R131, R162). -/
def vexIllegal (c : CoreId) (s : State) : Host.Outcome State Fault Refusal :=
  run s fun w => w.issue c [] fun w => w.raiseTrap c 2 0

/-- The words of the floating-point and system instructions. -/
def vexRunSys (c : CoreId) (v : Word32) (s : State) (name : String) : Host.Outcome State Fault Refusal :=
  let d := vexD v
  let a := vexA v
  let b := vexB v
  match name with
  | "FADD" => execFadd c d a b (bitAt v 0) s
  | "FSUB" => execFsub c d a b (bitAt v 0) s
  | "FMUL" => execFmul c d a b (bitAt v 0) s
  | "FDIV" => execFdiv c d a b (bitAt v 0) s
  | "FSQRT" => execFsqrt c d a (bitAt v 0) s
  | "FMIN" => execFmin c d a b (bitAt v 0) s
  | "FMAX" => execFmax c d a b (bitAt v 0) s
  | "FABS" => execFabs c d a (bitAt v 0) s
  | "FNEG" => execFneg c d a (bitAt v 0) s
  | "FCOPYSIGN" => execFcopysign c d a b (bitAt v 0) s
  | "FCMP" => execFcmp c d a b (BitVec.ofNat 3 (fld v 1 3)) (bitAt v 0) s
  | "FKIND" => execFkind c d a (bitAt v 0) s
  | "FTOI32" => execFtoi32 c d a (bitAt v 0) s
  | "FTOI64" => execFtoi64 c d a (bitAt v 0) s
  | "ITOF32" => execItof32 c d a (bitAt v 0) s
  | "ITOF64" => execItof64 c d a (bitAt v 0) s
  | "FNARROW" => execFnarrow c d a s
  | "FWIDEN" => execFwiden c d a s
  | "FMOVG" => execFmovg c d a (bitAt v 0) s
  | "GMOVF" => execGmovf c d a (bitAt v 0) s
  | "FMA" => execFma c d a b (vexC v) (bitAt v 0) s
  | "FMA_NP" => execFmaNp c d a b (vexC v) (bitAt v 0) s
  | "FMA_NA" => execFmaNa c d a b (vexC v) (bitAt v 0) s
  | "FMA_NPA" => execFmaNpa c d a b (vexC v) (bitAt v 0) s
  | "SYNC_F" => execSyncF c s
  | "SYNC_C" => execSyncC c s
  | "SYNC_M" => execSyncM c s
  | "WAIT" => execWait c s
  | "TRAP" => execTrap c s
  | "BKPT" => execBkpt c s
  | "RETE" => execRete c s
  | "CTLRD" => execCtlrd c d (vexCtl v) s
  | "CTLWR" => execCtlwr c d (vexCtl v) s
  | _ => vexIllegal c s

/-- The words of loads, stores, atomics, branches and jumps. -/
def vexRunMem (c : CoreId) (v : Word32) (s : State) (name : String) : Host.Outcome State Fault Refusal :=
  let d := vexD v
  let a := vexA v
  let b := vexB v
  let i := vexImm v
  match name with
  | "LB" => execLb c d a i s
  | "LBU" => execLbu c d a i s
  | "LH" => execLh c d a i s
  | "LHU" => execLhu c d a i s
  | "LW" => execLw c d a i s
  | "LWU" => execLwu c d a i s
  | "LD" => execLd c d a i s
  | "FLW" => execFlw c d a i s
  | "FLD" => execFld c d a i s
  | "SB" => execSb c d a i s
  | "SH" => execSh c d a i s
  | "SW" => execSw c d a i s
  | "SD" => execSd c d a i s
  | "FSW" => execFsw c d a i s
  | "FSD" => execFsd c d a i s
  | "ATOMIC" => execAtomic c d a b (BitVec.ofNat 11 (fld v 0 11)) s
  | "BEQ" => execBeq c d a i s
  | "BNE" => execBne c d a i s
  | "BLT" => execBlt c d a i s
  | "BGE" => execBge c d a i s
  | "BLTU" => execBltu c d a i s
  | "BGEU" => execBgeu c d a i s
  | "J" => execJ c (vexOff v) s
  | "JAL" => execJal c (vexOff v) s
  | "JALR" => execJalr c d a i s
  | _ => vexRunSys c v s name

/-- The words of the integer register operations, immediates, shifts and constants. -/
def vexRunInt (c : CoreId) (v : Word32) (s : State) (name : String) : Host.Outcome State Fault Refusal :=
  let d := vexD v
  let a := vexA v
  let b := vexB v
  let i := vexImm v
  match name with
  | "ADD" => execAdd c d a b s
  | "SUB" => execSub c d a b s
  | "AND" => execAnd c d a b s
  | "OR" => execOr c d a b s
  | "XOR" => execXor c d a b s
  | "SHL" => execShl c d a b s
  | "SHR" => execShr c d a b s
  | "SAR" => execSar c d a b s
  | "CLT" => execClt c d a b s
  | "CLTU" => execCltu c d a b s
  | "ADD32" => execAdd32 c d a b s
  | "SUB32" => execSub32 c d a b s
  | "CLZ" => execClz c d a s
  | "POPC" => execPopc c d a s
  | "MIN" => execMin c d a b s
  | "MAX" => execMax c d a b s
  | "MINU" => execMinu c d a b s
  | "MAXU" => execMaxu c d a b s
  | "ANDN" => execAndn c d a b s
  | "ROTR" => execRotr c d a b s
  | "MUL" => execMul c d a b s
  | "MULHI" => execMulhi c d a b s
  | "MULHIU" => execMulhiu c d a b s
  | "MAC" => execMac c d a b s
  | "DIVS" => execDivs c d a b s
  | "DIVU" => execDivu c d a b s
  | "REMS" => execRems c d a b s
  | "REMU" => execRemu c d a b s
  | "ADDI" => execAddi c d a i s
  | "CLTI" => execClti c d a i s
  | "CLTIU" => execCltiu c d a i s
  | "ANDI" => execAndi c d a i s
  | "ORI" => execOri c d a i s
  | "XORI" => execXori c d a i s
  | "SHLI" => execShli c d a (BitVec.ofNat 6 (fld v 0 6)) s
  | "SHRI" => execShri c d a (BitVec.ofNat 6 (fld v 0 6)) s
  | "SARI" => execSari c d a (BitVec.ofNat 6 (fld v 0 6)) s
  | "ROTRI" => execRotri c d a (BitVec.ofNat 6 (fld v 0 6)) s
  | "MOVHI" => execMovhi c d i s
  | "INSH" => execInsh c d a i s
  | "INST" => execInst c d a i s
  | _ => vexRunMem c v s name

/-- An instruction word (R130, R131): its instruction, or the illegal-instruction trap where it is none. -/
def execVexWord (c : CoreId) (v : Word32) (s : State) : Host.Outcome State Fault Refusal :=
  match vexDecode v with
  | some name => vexRunInt c v s name
  | none => vexIllegal c s

end Sys2Proof.Machine
end

