-- ==== Sys2Proof/Safety.lean ====
section
/-! DEFINITION. What counts as a safe run, and the terms that the statements use: that a command answers, when a core
issues, what an instruction leaves alone, and when a request reaches a hob. -/

namespace Sys2Proof

open Machine

/-- The step at a state answers a next state. -/
def Runs (s : State) : Prop := ∃ t, step s = .next t

/-- Command `i` answers a next state, of which `P` holds. -/
def Answers (i : Instr) (s : State) (P : State → Prop) : Prop := ∃ t, exec i s = .next t ∧ P t

/-- Core `c` issues an instruction that uses the registers `uses` (R145, R146). -/
def Issues (s : State) (c : CoreId) (uses : List (Bool × Reg)) : Prop :=
  s.world.canIssue c = true ∧ (s.dev.core c).free uses = true

/-- Core `c` issues a serialising instruction (R147). -/
def Drained (s : State) (c : CoreId) : Prop := s.world.canIssue c = true ∧ (s.dev.core c).pend = []

/-- The registers of core `c`, with the effects of held instructions. -/
def archOf (s : State) (c : CoreId) : Arch := (s.dev.core c).arch

/-- The device with the beat counter of core `c`'s hearth stepped by the beats that the core counts from `s` to `t` (R134). -/
def beatDev (s t : State) (c : CoreId) : Dev := s.dev.beat (unitOf c) ((t.dev.core c).beats - (s.dev.core c).beats)

/-- Nothing changes but core `c`, the beat counter of its hearth by the beats that it counts, and the answer at the ports. -/
def CoreOnly (s t : State) (c : CoreId) : Prop :=
  t.pending = s.pending ∧ t.fuse = s.fuse ∧ t.mem = s.mem ∧
  (∀ k, k ≠ c.val → t.dev.core k = s.dev.core k) ∧
  t.dev = { beatDev s t c with out := .none, cores := t.dev.cores }

/-- Of the hobs nothing changes but the rotation pointers of their arbiters, which every access moves (R190). -/
def PtrsOnly (s t : State) : Prop := ∀ u, t.dev.hob u = { s.dev.hob u with ptr := (t.dev.hob u).ptr }

/-- Nothing of the device changes but core `c`, the beat counter of its hearth by the beats that it counts, the answer at the
ports and the pointers of the hobs' arbiters: what an access of core `c` to a hob leaves beside the memory. -/
def CoreDev (s t : State) (c : CoreId) : Prop :=
  t.pending = s.pending ∧ t.fuse = s.fuse ∧ (∀ k, k ≠ c.val → t.dev.core k = s.dev.core k) ∧
  t.dev = { beatDev s t c with out := .none, cores := t.dev.cores, hobs := t.dev.hobs } ∧ PtrsOnly s t

/-- Nothing changes but core `c`, the beat counter of its hearth, the answer at the ports and the pointers of the hobs'
arbiters. -/
def CoreReads (s t : State) (c : CoreId) : Prop := CoreDev s t c ∧ t.mem = s.mem

/-- Of core `c` nothing changes but its registers, its counters, its fetch buffer and what it holds. -/
def CoreKeeps (s t : State) (c : CoreId) : Prop :=
  let p := s.dev.core c
  let q := t.dev.core c
  q = { p with arch := q.arch, fbuf := q.fbuf, beats := q.beats, stalls := q.stalls, retired := q.retired, nheld := q.nheld }

/-- An instruction of core `c` that changes registers alone. -/
def RegsOnly (s t : State) (c : CoreId) : Prop := CoreOnly s t c ∧ CoreKeeps s t c

/-- g RD of core `c` takes the value `v`, g0 none; no other register changes, and the program counter goes on by 4. -/
def WritesG (s t : State) (c : CoreId) (rd : Reg) (v : Word64) : Prop :=
  RegsOnly s t c ∧
  (∀ r, (archOf t c).rdG r = if r = rd ∧ r ≠ 0 then v else (archOf s c).rdG r) ∧
  (archOf t c).f = (archOf s c).f ∧ (archOf t c).cr = (archOf s c).cr ∧ (archOf t c).crw = (archOf s c).crw ∧
  (archOf t c).pc = (archOf s c).pc + 4

/-- g RD of core `c` takes the value `v` that it read, g0 none; no other register changes, and the program counter goes on
by 4. -/
def LoadsG (s t : State) (c : CoreId) (rd : Reg) (v : Word64) : Prop :=
  CoreReads s t c ∧ CoreKeeps s t c ∧
  (∀ r, (archOf t c).rdG r = if r = rd ∧ r ≠ 0 then v else (archOf s c).rdG r) ∧
  (archOf t c).f = (archOf s c).f ∧ (archOf t c).cr = (archOf s c).cr ∧ (archOf t c).crw = (archOf s c).crw ∧
  (archOf t c).pc = (archOf s c).pc + 4

/-- f RD of core `c` takes the value `v` that it read; no other register changes, and the program counter goes on by 4. -/
def LoadsF (s t : State) (c : CoreId) (rd : Reg) (v : Nat) : Prop :=
  CoreReads s t c ∧ CoreKeeps s t c ∧
  (∀ r, (archOf t c).rdF r = if r = rd then w64 v else (archOf s c).rdF r) ∧
  (archOf t c).g = (archOf s c).g ∧ (archOf t c).cr = (archOf s c).cr ∧ (archOf t c).crw = (archOf s c).crw ∧
  (archOf t c).pc = (archOf s c).pc + 4

/-- No register of core `c` changes but the program counter, which takes the value `pc`. -/
def JumpsTo (s t : State) (c : CoreId) (pc : Word64) : Prop :=
  RegsOnly s t c ∧ archOf t c = { archOf s c with pc := pc }

/-- The sticky flags `f` enter FPSR of core `c` (R143); no other control register changes. -/
def RaisesFlags (s t : State) (c : CoreId) (f : Nat) : Prop :=
  (∀ n, n ≠ 0x10 → (archOf t c).ctl c n = (archOf s c).ctl c n) ∧
  (archOf t c).ctl c 0x10 = (archOf s c).ctl c 0x10 ||| w64 f ∧ (archOf t c).crw = (archOf s c).crw

/-- f RD of core `c` takes the value `v` and FPSR the flags `f`; nothing else changes but the program counter, by 4. -/
def WritesF (s t : State) (c : CoreId) (rd : Reg) (v : Nat) (f : Nat) : Prop :=
  RegsOnly s t c ∧
  (∀ r, (archOf t c).rdF r = if r = rd then w64 v else (archOf s c).rdF r) ∧
  (archOf t c).g = (archOf s c).g ∧ RaisesFlags s t c f ∧ (archOf t c).pc = (archOf s c).pc + 4

/-- g RD of core `c` takes the value `v` and FPSR the flags `f`; nothing else changes but the program counter, by 4. -/
def WritesGF (s t : State) (c : CoreId) (rd : Reg) (v : Word64) (f : Nat) : Prop :=
  RegsOnly s t c ∧
  (∀ r, (archOf t c).rdG r = if r = rd ∧ r ≠ 0 then v else (archOf s c).rdG r) ∧
  (archOf t c).f = (archOf s c).f ∧ RaisesFlags s t c f ∧ (archOf t c).pc = (archOf s c).pc + 4

/-- The requester identity of core `c` at its present privilege (R176). -/
def ridOf (s : State) (c : CoreId) : Rid := coreRid s.dev.chim.pos c ((archOf s c).priv c)

/-- A request of direction `d` for `n` bytes at `a` by `m` reaches hob `u`, which serves it as it stands: one port word
of a hob that is awake in a domain that is ON and holds no flipped bit and no armed injection, admitted by its firewall unit, not replaced by the
output selector (R177, R188, R196, R202, R210, R234, R459). -/
def Reaches (w : W) (m : Rid) (u a n : Nat) (d : Dir) : Prop :=
  0 < n ∧ a % 32 + n ≤ 32 ∧ hobOf a = some u ∧
  w.fwAdmits (fwUnitOf a) ((a - fwBase (fwUnitOf a)) / 256) m d = true ∧
  w.dev.flips.rows = [] ∧ (w.dev.hob u).power = .awake ∧ (w.dev.hob u).inject = none ∧
  (w.dev.dom (hobDom u)).st = .on ∧
  (u < 16 → w.seen u (a - hobBase u) = a - hobBase u)

/-- The vector slot at `slot` beyond VBASE of core `c` can be fetched (R166, R169). -/
def VectorReached (s : State) (c : CoreId) (slot : Nat) : Prop :=
  let x := archOf s c
  let line := (x.ctl c 8 + w64 slot).toNat / 32 * 32
  fetchTarget c line = true ∧ x.mpu c true .exec line = true ∧
  ∃ u, Reaches s.world (coreRid s.dev.chim.pos c true) u line 32 .fetch

/-- Core `c` has entered a handler (R164 to R166): the program counter is at `slot` beyond VBASE, EPC, ECAUSE, EADDR and
STATUS are written with the interrupt priority `ipl`, no other register changes, and the commit token of the entry goes to
the seam. -/
def Entered (s t : State) (c : CoreId) (slot : Nat) (epc cause eaddr : Word64) (ipl : Nat) : Prop :=
  let x := archOf s c
  let y := archOf t c
  let old := x.ctl c 1
  let new := y.ctl c 1
  CoreReads s t c ∧ y.pc = x.ctl c 8 + w64 slot ∧ y.ctl c 2 = epc ∧ y.ctl c 3 = cause ∧ y.ctl c 4 = eaddr ∧
  fld new 0 1 = 1 ∧ fld new 1 1 = 0 ∧ fld new 2 1 = fld old 0 1 ∧ fld new 3 1 = fld old 1 1 ∧ fld new 4 4 = ipl ∧
  fld new 8 4 = fld old 4 4 ∧ new.toNat < 2 ^ 12 ∧
  (∀ n, n = 0 ∨ 4 < n → y.ctl c n = x.ctl c n) ∧ y.g = x.g ∧ y.f = x.f ∧ y.crw = x.crw ∧
  (t.dev.core c).entry = some (entryToken (if bitAt cause 7 then 1 else fld cause 0 6) y.pc epc)

/-- The record of an event of source `n` at time `tb` with these details, as the Flue writes it now (R273, R289). -/
def eventOf (s : State) (n : Nat) (d0 d1 : Word32) (tb : Word64) : Rec := { s.world.eventRec n d0 d1 false with time := tb }

/-- Source `n` has detected one event at time `tb` (R271, R273, R290): a level source is active; an event to be logged is
counted, and the first one since the intake last took the source is kept. -/
def Detected (s t : State) (n : Nat) (d0 d1 : Word32) (tb : Word64) : Prop :=
  ∃ row, s.world.source n = some row ∧ t.dev.src n = (s.dev.src n).after row.level (eventOf s n d0 d1 tb)

/-- Source `n`, a level source, is active: it stays so, or it has now been detected. -/
def LevelDetected (s t : State) (n : Nat) (d0 d1 : Word32) (tb : Word64) : Prop :=
  if s.world.active n then t.dev.src n = s.dev.src n else Detected s t n d0 d1 tb

/-- The counters stand at `n` ns of the interval counter, or later (R248). -/
def ReachesIvl (s t : State) (n : Nat) : Prop := t.dev.clock = (s.dev.advanceIvl n).clock

/-- Where a watchdog is frozen or suspended, WDT_HELD is active (R317): what every step keeps. -/
def HeldTold (w : W) : Prop := (∀ k, k < 65 → (w.dev.wdt k).frozen = false ∧ (w.dev.wdt k).susp = false) ∨ w.active 0x0C5 = true

/-- Where no free cell is shared, POOL_EXHAUSTED is active, and only there (R389): what every step keeps. -/
def PoolTold (w : W) : Prop := (w.dev.bobbin.sharedFree == 0) = w.active 0x2C3

/-- The watchdog of core `c`, as `x` stood, has expired with this cause (R315, R318). -/
def WdtExpired (x : Wdt) (t : State) (c : CoreId) (cause : Nat) : Prop :=
  t.dev.wdt c = { x with st := .expired, cause := BitVec.ofNat 3 cause, count := satInc x.count,
                         hardAt := if cause = 5 then none else some (t.dev.clock.ivl + w64 (10000 * x.hard)) }

/-- The packet `p` of opcode `opc` stands at its source and passes steps 1 to 5 of R68; `w` is the device with the packet
taken and its SEQ consumed. A packet of the base's stream, and a SESSION_OPEN without a session, skip the steps that R68
lets them skip. -/
def Passes (s : State) (opc : Nat) (p : Packet) (w : W) : Prop :=
  let w0 := s.world
  let h : Half := BitVec.ofNat 16 opc
  s.dev.stoker.resetDue = false ∧ w0.offers h p = true ∧
  (if p.src = .base then w = w0.consume p h
   else
    crc32c (pktHead p h ++ p.params.take p.plen.toNat) = p.crc ∧ p.plen.toNat ≤ 4080 ∧ p.plen.toNat ≤ p.params.length ∧
    headerOk h p = true ∧
    (if (isEth p && opensSession h p) = true then w = w0.consume p h ∧ w0.dev.images.session 0 = none
     else (isEth p = true → w0.macOk h p = true ∧ (s.dev.cmdSrc (srcKey p)).expect = some p.seq) ∧
      (∀ e, (s.dev.cmdSrc (srcKey p)).expect = some e → e = p.seq) ∧ w = (w0.consume p h).accept p))

/-- The packet `p` passes the steps of R68 up to its own meaning: it names this device, its opcode is listed, its length
and the mode suit it, and nothing that is pending makes it wait (R73). -/
def Begins (s : State) (opc : Nat) (p : Packet) (w : W) : Prop :=
  let n := (pktBody p).length
  Passes s opc p w ∧ (p.target = 0xFF ∨ p.target.toNat = s.dev.chim.pos.toNat) ∧
  (∃ i, w.cmdInfo opc = some i ∧ i.minLen ≤ n ∧ n ≤ i.maxLen ∧ lenRule i.opc n = true ∧ w.modeOk i = true) ∧
  s.world.waitsFor s.world.objs s.dev.stoker.pends s.dev.chim.fwdNext opc p = false

/-- The state that the world `w` of a command on `s` leaves. -/
def stateOf (s : State) (w : W) : State := { s with mem := s.mem.applyAll w.ops, dev := w.dev }

/-- The command has run to its end: nothing differs from `w`, its effect, but that the final reply with this status and
result is at the source and stored (R67, R69, R71); the 60,000th command of a session ends it (R454). -/
def Ends (s t : State) (opc : Nat) (p : Packet) (w : W) (status : Nat) (res : List Byte) : Prop :=
  t = stateOf s ((w.reply p (BitVec.ofNat 16 opc) status true res).sessionLimit p)

/-- The command has ended with DONE. -/
def Done (s t : State) (opc : Nat) (p : Packet) (w : W) (res : List Byte) : Prop := Ends s t opc p w sDone res

/-- The command pends: the PENDING reply is written, the command is on the list with a key, and `go` has begun its work
(R73). -/
def Pends (s t : State) (opc : Nat) (p : Packet) (w : W) (key : Nat) (go : W → W) : Prop :=
  let h : Half := BitVec.ofNat 16 opc
  t = stateOf s ((go ((w.reply p h sPending false []).addPend p h true key)).sessionLimit p)

/-- The Stoker reads the contexts at the places `cs`, each a hearth and an offset in its hob, with their extension words, and meets
no uncorrectable byte (R196, R197, R258); the reads leave the device as `v`. -/
def ReadsCtxs (w : W) (cs : List (Nat × Nat)) (v : W) : Prop := w.readCtxs cs (fun x => .fin x 0 []) = .fin v 0 []

/-- The Stoker reads the extension words of the context `c` in the hob of hearth `h` alike. -/
def ReadsExt (w : W) (h : Nat) (c : Ctx) (v : W) : Prop := w.readExt h c (fun x => .fin x 0 []) = .fin v 0 []

/-- Nothing changes but what `f` changes of the device; the answer of the last command is gone. -/
def Only (s t : State) (f : Dev → Dev) : Prop := t = { s with dev := f { s.dev with out := .none } }

/-- The command leaves what the operations `f` make of the state, the fuses and the queue as they were. -/
def Leaves (s t : State) (f : W → W) : Prop := t = stateOf s (f s.world)

/-- The register at `a` counts or records the errors of a hob's bytes (R209), of hearths 0 to 15 and of the Stoker hob, or what
the Bobbin refuses (R392): refused tries, misuse and aborted packets. -/
def errReg (a : Nat) : Bool :=
  ((List.range 17).any fun u => [0x20C, 0x210, 0x214, 0x218, 0x21C].any fun o =>
    a == (if u < 16 then blockBase 16 u else blockBase 1 0) + o) ||
  [0x50, 0x54, 0x58].any fun o => a == blockBase 8 0 + o

/-- What no reaction to a fault reaches: everything but the mode and its time, the Flue, the channels, the seams, the cores, the
hobs and the records of their errors, the bellows, the Bobbin and its counters, the cutover, the domains and the levels, and the
replies. -/
def untouched (d : Dev) : Dev :=
  { d with
    sys := { d.sys with mode := .off, prev := 0, seq := 0, stamp := 0, dozeArmed := false }
    flue := {}, dampers := ⟨[]⟩, seams := ⟨[]⟩, cores := ⟨[]⟩, hobs := ⟨[]⟩, flips := ⟨[]⟩, bellows := ⟨[]⟩, bobbin := {}
    regs := { d.regs with val := d.regs.val.keep fun a => !errReg a }
    images := { d.images with st := .empty, cut := none, lastCut := (0, 0), lastNamed := (0, 0), cuts := ⟨[]⟩ }
    power := { d.power with doms := ⟨[]⟩, levels := (0, 0, 0) }, chim := { d.chim with safeMark := false }
    ports := { d.ports with mspiOut := [] }
    stoker := { d.stoker with replies := ⟨[]⟩, replyHead := 0, sources := ⟨[]⟩, pends := [], crossed := [], sent := ⟨[]⟩,
                              serving := false }
    out := .none }

/-- Of what no reaction to a fault reaches, nothing changes but what `f` changes. -/
def Beside (s t : State) (f : Dev → Dev) : Prop :=
  untouched t.dev = untouched (f s.dev) ∧ t.fuse = s.fuse ∧ t.pending = s.pending

/-- The Thimble `y` with its status page rewritten (R426). -/
def paged (w : W) (y : Thimble) : Thimble :=
  { y with pageSeq := y.pageSeq + 2, page := (w.upd fun d => { d with thm := y }).thmWords (y.pageSeq + 2) }

/-- A write of the register at offset `o` of a block reaches it (R25, R30, R80, R81, R83, R177 to R179, R532): its
firewall admits it, and the Stoker writes, or the register is one of the application's, or a grant lets the write pass,
which the expert log then holds. `w` is the device as the register's own effect finds it. -/
def WriteReaches (s : State) (m : Rid) (typ inst o : Nat) (v : Word32) (w : W) : Prop :=
  let w0 := s.world
  let a := blockBase typ inst + o
  let u := (a - 0x200A1000) / 0x400
  let staged := ((w0.regRow typ o).map (fun r => r.kind == RegKind.rws)).getD false
  s.dev.sys.mode ≠ .off ∧ allBlocks.contains (typ, inst) = true ∧ w0.fusedOff a = false ∧
  w0.fwAdmits (fwUnitOf a) ((a % 2 ^ 48 - fwBase (fwUnitOf a)) / 256) m .write = true ∧
  (m = w0.stokerRid ∧ w = w0 ∨
   m ≠ w0.stokerRid ∧
   ¬ (0x200A1000 ≤ a ∧ a < 0x200A5000 ∧ (u = 5 ∨ u = 6) ∧ 0x100 ≤ (a - 0x200A1000) % 0x400 ∧
      (a - 0x200A1000) % 0x400 < 0x300) ∧
   ¬ (w0.claimed typ inst = true ∧ (staged = true ∨ o = 8 ∨ o = 0x14)) ∧
   (appRegister typ o = true ∧ w = w0 ∨
    appRegister typ o = false ∧ w0.xlogFull = false ∧ ∃ g, w0.grantOn 0 typ (some inst) = some g ∧ w = w0.xlog g.id m 0 a v))

/-- The write is done and has made `f` of the device as it found it. -/
def Written (s t : State) (w : W) (f : W → W) : Prop := t = stateOf s ((f w).answer .done)

/-- The number that the `n` bytes of hob memory at `a` spell. -/
def hobWord (s : State) (a n : Nat) : Nat := ofLe ((List.range n).map fun i => s.mem.get (a + i))

/-- The bytes of `v` stand at `a`, and no other byte of hob memory has changed. -/
def StoresAt (s t : State) (a n v : Nat) : Prop :=
  ∀ b, t.mem.get b = if a ≤ b ∧ b < a + n then BitVec.ofNat 8 (v / 256 ^ (b - a)) else s.mem.get b

/-- The aligned load `o` of core `c`, whose address register is `ra`, issues (R136, R172). -/
def LoadIssues (s : State) (c : CoreId) (ra : Reg) (o : LoadOp) : Prop :=
  Issues s c [(o.isF, o.rd), (false, ra)] ∧ o.addr.toNat % o.size = 0 ∧
  (archOf s c).mpu c ((archOf s c).priv c) .read o.addr.toNat = true

/-- The load `o` of core `c` is granted by its own hob as it issues, and the hob serves it as it stands (R136, R145). -/
def LoadsNow (s : State) (c : CoreId) (ra : Reg) (o : LoadOp) : Prop :=
  LoadIssues s c ra o ∧ s.world.grantedNow c o false = true ∧
  Reaches s.world (ridOf s c) (unitOf c) o.addr.toNat o.size .read

/-- The load or atomic `o` of core `c` has joined the pending ones (R145, R146): its register is scored, what was held
behind the older ones is held before it, and the program counter goes on by 4. -/
def LoadPends (s t : State) (c : CoreId) (o : LoadOp) : Prop :=
  let p := s.dev.core c
  let q := t.dev.core c
  CoreOnly s t c ∧
  q = { p with arch := p.arch.next, pend := p.pend ++ [⟨o, p.arch.pc, p.arch, p.held, p.nheld, none, false⟩], held := [], nheld := 0,
               fbuf := q.fbuf, beats := q.beats, stalls := q.stalls }

/-- The instruction of core `c` retires, or is held behind a pending load, with the buffer entries `es` (R146, R149). -/
def EntersBuffer (s t : State) (c : CoreId) (es : List Store) : Prop :=
  CoreOnly s t c ∧ archOf t c = (archOf s c).next ∧
  (if (s.dev.core c).pend = [] then
    (t.dev.core c).sb = (s.dev.core c).sb ++ es ∧ (t.dev.core c).retired = (s.dev.core c).retired + 1 ∧
    (t.dev.core c).held = (s.dev.core c).held
  else
    (t.dev.core c).held = (s.dev.core c).held ++ es ∧ (t.dev.core c).nheld = (s.dev.core c).nheld + 1 ∧
    (t.dev.core c).sb = (s.dev.core c).sb) ∧
  (t.dev.core c).pend = (s.dev.core c).pend

end Sys2Proof
end

