-- ==== Sys2Proof/Certificates/Slice0/Obligations.lean ====
section
/-! DEFINITION. The statements for the provers. -/

open Sys2Proof Sys2Proof.Machine

/-- A step takes the command at the front of the queue and runs it with the queue's rest. -/
def Obligations.StepRunsTheFrontCommand : Prop :=
  ∀ (c : Instr) (s : State), step { s with pending := c :: s.pending } = exec c s

/-- The model's choice (assumptions 1 and 2): on an empty queue the block idles for one period of REFCLK_TB. The step answers a
next state; fuses and queue stay; where no device reset is due, the time base and the interval counter advance by 40 ns
with the rate adjustment if they run, and stand still if they do not. -/
def Sys2Proof.Says.IdleStepCountsOnePeriod : Prop :=
  ∀ s : State, s.pending = [] → ∃ t, step s = .next t ∧ t.pending = [] ∧ t.fuse = s.fuse ∧
    (s.dev.sys.resetArmed = false → s.dev.clock.running = true → s.dev.regs.val.getD 0x20040038 0 = 0 →
      s.dev.clock.acc = 0 → t.dev.clock.tb = s.dev.clock.tb + 40 ∧ t.dev.clock.ivl = s.dev.clock.ivl + 40) ∧
    (s.dev.sys.resetArmed = false → s.dev.clock.running = false →
      t.dev.clock.tb = s.dev.clock.tb ∧ t.dev.clock.ivl = s.dev.clock.ivl)

/-- No command touches the queue, and only six of them can change the fuses: LC_TOKEN, a pending command that starts,
a step of KINDLE, and the reset, the parameter commit and the image activation of the Thimble. -/
def Obligations.CommandsKeepQueueAndFuses : Prop :=
  ∀ (i : Instr) (s t : State), exec i s = .next t →
    t.pending = s.pending ∧
    (t.fuse = s.fuse ∨ (∃ p, i = .lcToken p) ∨ (∃ n, i = .pendingCommandStart n) ∨ (∃ r, i = .kindleStepComplete r) ∨
      i = .thmReset ∨ (∃ a, i = .paramCommit a) ∨ i = .imageActivate)

/-- The canonical form of the memory of the hobs is kept by every step, whatever the command. -/
def Obligations.EveryStepKeepsMemoryCanonical : Prop :=
  ∀ s t : State, Memory.wf s.mem = true → step s = .next t → Memory.wf t.mem = true

/-- Reset leaves HOLD with an empty queue (R33, R41, R47): every damper channel SAFE, the Stoker in reset, no counter
running, no command source seen, and a memory that is canonical and reads 0 everywhere (R200 leaves the contents of a hob
after power-up to the clearing; the 0 is the model's, assumption 3). -/
def Sys2Proof.Says.ResetLeavesHold : Prop :=
  State.reset.pending = [] ∧ Memory.wf State.reset.mem = true ∧ (∀ a, State.reset.mem.get a = 0) ∧
  State.reset.dev.sys.mode = .hold ∧ State.reset.dev.stoker.serving = false ∧ State.reset.dev.stoker.pends = [] ∧
  State.reset.dev.clock.running = false ∧ (∀ n, (State.reset.dev.damper n).st = .safe) ∧
  (∀ k, (State.reset.dev.core k).run = false) ∧ (∀ h, (State.reset.dev.blw h).phase = .stopped)

/-- The damper channels are live only in RUN, RUN_REDUCED and CUTOVER (R47, R277): the rule that no channel is LIVE, or
STARTING to become so, in another mode is kept by every step from every state that meets it. -/
def Obligations.DampersLiveOnlyInRunningModes : Prop :=
  ∀ s t : State, (s.dev.sys.mode.running = false → ∀ n, n < 64 → (s.dev.damper n).st ≠ .live ∧ (s.dev.damper n).st ≠ .starting) →
    step s = .next t →
    (t.dev.sys.mode.running = false → ∀ n, n < 64 → (t.dev.damper n).st ≠ .live ∧ (t.dev.damper n).st ≠ .starting)

/-- The life cycle moves only along the table of R57, only in PREPARE, and only by a life-cycle token (R54 to R57): every
other step leaves the state that the fuse groups give as it is, and no step changes UID or the ordering code, or takes back
the fuse that makes the identity key unreadable. -/
def Obligations.LifeCycleMovesByTokenOnly : Prop :=
  ∀ s t : State, step s = .next t →
    t.fuse.uid = s.fuse.uid ∧ t.fuse.variantM = s.fuse.variantM ∧
    (s.fuse.unreadable = true → t.fuse.unreadable = true) ∧ (s.fuse.secretOff = true → t.fuse.secretOff = true) ∧
    (t.fuse.lifecycle = s.fuse.lifecycle ∨
      s.dev.sys.mode = .prepare ∧
      (s.fuse.lifecycle, t.fuse.lifecycle) ∈ [(0, 1), (1, 2), (1, 3), (2, 3), (0, 4), (1, 4), (2, 4), (3, 4)] ∧
      ((∃ p r, s.pending = .lcToken p :: r) ∨ ∃ n r, s.pending = .pendingCommandStart n :: r))
/-- The register-to-register arithmetic of R135 and R142: each instruction that issues writes its result to g RD (g0
discards it) and goes on to the next instruction; everything else stays. -/
def Sys2Proof.Says.RegisterArithmeticResults : Prop :=
  ∀ (s : State) (c : CoreId) (rd ra rb : Reg), Issues s c [(false, rd), (false, ra), (false, rb)] →
    let a := (archOf s c).rdG ra
    let b := (archOf s c).rdG rb
    let n := b.toNat % 64
    Answers (.add c rd ra rb) s (WritesG s · c rd (a + b)) ∧
    Answers (.sub c rd ra rb) s (WritesG s · c rd (a - b)) ∧
    Answers (.and_ c rd ra rb) s (WritesG s · c rd (a &&& b)) ∧
    Answers (.or_ c rd ra rb) s (WritesG s · c rd (a ||| b)) ∧
    Answers (.xor c rd ra rb) s (WritesG s · c rd (a ^^^ b)) ∧
    Answers (.andn c rd ra rb) s (WritesG s · c rd (a &&& ~~~b)) ∧
    Answers (.shl c rd ra rb) s (WritesG s · c rd (a <<< n)) ∧
    Answers (.shr c rd ra rb) s (WritesG s · c rd (a >>> n)) ∧
    Answers (.sar c rd ra rb) s (WritesG s · c rd (a.sshiftRight n)) ∧
    Answers (.rotr c rd ra rb) s (WritesG s · c rd (a.rotateRight n)) ∧
    Answers (.clt c rd ra rb) s (WritesG s · c rd (if a.toInt < b.toInt then 1 else 0)) ∧
    Answers (.cltu c rd ra rb) s (WritesG s · c rd (if a.toNat < b.toNat then 1 else 0)) ∧
    Answers (.add32 c rd ra rb) s (WritesG s · c rd (BitVec.ofNat 64 ((a.toNat + b.toNat) % 2 ^ 32))) ∧
    Answers (.sub32 c rd ra rb) s (WritesG s · c rd (((a - b).setWidth 32).setWidth 64)) ∧
    Answers (.min_ c rd ra rb) s (WritesG s · c rd (if a.toInt < b.toInt then a else b)) ∧
    Answers (.max_ c rd ra rb) s (WritesG s · c rd (if a.toInt < b.toInt then b else a)) ∧
    Answers (.minu c rd ra rb) s (WritesG s · c rd (if a.toNat < b.toNat then a else b)) ∧
    Answers (.maxu c rd ra rb) s (WritesG s · c rd (if a.toNat < b.toNat then b else a))

/-- Multiplication and division of R135, with the results of R142 for a divisor 0. -/
def Sys2Proof.Says.MultiplyDivideResults : Prop :=
  ∀ (s : State) (c : CoreId) (rd ra rb : Reg), Issues s c [(false, rd), (false, ra), (false, rb)] →
    let a := (archOf s c).rdG ra
    let b := (archOf s c).rdG rb
    Answers (.mul c rd ra rb) s (WritesG s · c rd (a * b)) ∧
    Answers (.mulhi c rd ra rb) s (WritesG s · c rd (BitVec.ofInt 64 (a.toInt * b.toInt / 2 ^ 64))) ∧
    Answers (.mulhiu c rd ra rb) s (WritesG s · c rd (BitVec.ofNat 64 (a.toNat * b.toNat / 2 ^ 64))) ∧
    Answers (.mac c rd ra rb) s (WritesG s · c rd ((archOf s c).rdG rd + a * b)) ∧
    Answers (.divs c rd ra rb) s (WritesG s · c rd (if b = 0 then 0 else BitVec.ofInt 64 (a.toInt.tdiv b.toInt))) ∧
    Answers (.divu c rd ra rb) s (WritesG s · c rd (if b = 0 then 0 else BitVec.ofNat 64 (a.toNat / b.toNat))) ∧
    Answers (.rems c rd ra rb) s (WritesG s · c rd (if b = 0 then a else BitVec.ofInt 64 (a.toInt.tmod b.toInt))) ∧
    Answers (.remu c rd ra rb) s (WritesG s · c rd (if b = 0 then a else BitVec.ofNat 64 (a.toNat % b.toNat)))

/-- The immediate forms and the counts CLZ and POPC of R135. -/
def Sys2Proof.Says.ImmediateAndCountResults : Prop :=
  (∀ (s : State) (c : CoreId) (rd : Reg) (imm : BitVec 16), Issues s c [(false, rd)] →
    Answers (.movhi c rd imm) s (WritesG s · c rd (BitVec.ofNat 64 (imm.toNat * 2 ^ 16)))) ∧
  ∀ (s : State) (c : CoreId) (rd ra : Reg) (imm : BitVec 16) (n : BitVec 6), Issues s c [(false, rd), (false, ra)] →
    let a := (archOf s c).rdG ra
    let x := imm.signExtend 64
    let z := imm.setWidth 64
    Answers (.addi c rd ra imm) s (WritesG s · c rd (a + x)) ∧
    Answers (.clti c rd ra imm) s (WritesG s · c rd (if a.toInt < imm.toInt then 1 else 0)) ∧
    Answers (.cltiu c rd ra imm) s (WritesG s · c rd (if a.toNat < x.toNat then 1 else 0)) ∧
    Answers (.andi c rd ra imm) s (WritesG s · c rd (a &&& z)) ∧
    Answers (.ori c rd ra imm) s (WritesG s · c rd (a ||| z)) ∧
    Answers (.xori c rd ra imm) s (WritesG s · c rd (a ^^^ z)) ∧
    Answers (.shli c rd ra n) s (WritesG s · c rd (a <<< n.toNat)) ∧
    Answers (.shri c rd ra n) s (WritesG s · c rd (a >>> n.toNat)) ∧
    Answers (.sari c rd ra n) s (WritesG s · c rd (a.sshiftRight n.toNat)) ∧
    Answers (.rotri c rd ra n) s (WritesG s · c rd (a.rotateRight n.toNat)) ∧
    Answers (.clz c rd ra) s (WritesG s · c rd (if a = 0 then 64 else BitVec.ofNat 64 (63 - Nat.log2 a.toNat))) ∧
    Answers (.popc c rd ra) s (WritesG s · c rd (BitVec.ofNat 64 ((List.range 64).countP fun i => a.getLsbD i))) ∧
    Answers (.insh c rd ra imm) s (fun t => ∃ v, WritesG s t c rd v ∧
      ∀ i, i < 64 → v.getLsbD i = if 32 ≤ i ∧ i < 48 then imm.getLsbD (i - 32) else a.getLsbD i) ∧
    Answers (.inst c rd ra imm) s (fun t => ∃ v, WritesG s t c rd v ∧
      ∀ i, i < 64 → v.getLsbD i = if 48 ≤ i then imm.getLsbD (i - 48) else a.getLsbD i)

/-- Branches and jumps (R138): where the program counter goes, and the link. -/
def Obligations.BranchAndJumpTargets : Prop :=
  (∀ (s : State) (c : CoreId) (ra rb : Reg) (off : BitVec 16), Issues s c [(false, ra), (false, rb)] →
    let a := (archOf s c).rdG ra
    let b := (archOf s c).rdG rb
    let pc := (archOf s c).pc
    let tgt := pc + BitVec.ofInt 64 (4 * off.toInt)
    Answers (.beq c ra rb off) s (JumpsTo s · c (if a = b then tgt else pc + 4)) ∧
    Answers (.bne c ra rb off) s (JumpsTo s · c (if a = b then pc + 4 else tgt)) ∧
    Answers (.blt c ra rb off) s (JumpsTo s · c (if a.toInt < b.toInt then tgt else pc + 4)) ∧
    Answers (.bge c ra rb off) s (JumpsTo s · c (if a.toInt < b.toInt then pc + 4 else tgt)) ∧
    Answers (.bltu c ra rb off) s (JumpsTo s · c (if a.toNat < b.toNat then tgt else pc + 4)) ∧
    Answers (.bgeu c ra rb off) s (JumpsTo s · c (if a.toNat < b.toNat then pc + 4 else tgt))) ∧
  (∀ (s : State) (c : CoreId) (off : BitVec 26), Issues s c [] →
    Answers (.j c off) s (JumpsTo s · c ((archOf s c).pc + BitVec.ofInt 64 (4 * off.toInt)))) ∧
  (∀ (s : State) (c : CoreId) (off : BitVec 26), Issues s c [(false, 31)] →
    Answers (.jal c off) s fun t => RegsOnly s t c ∧
      (∀ r, (archOf t c).rdG r = if r = 31 then (archOf s c).pc + 4 else (archOf s c).rdG r) ∧
      (archOf t c).f = (archOf s c).f ∧ (archOf t c).cr = (archOf s c).cr ∧ (archOf t c).crw = (archOf s c).crw ∧
      (archOf t c).pc = (archOf s c).pc + BitVec.ofInt 64 (4 * off.toInt)) ∧
  (∀ (s : State) (c : CoreId) (rd ra : Reg) (imm : BitVec 16), Issues s c [(false, rd), (false, ra)] →
    Answers (.jalr c rd ra imm) s fun t => RegsOnly s t c ∧
      (∀ r, (archOf t c).rdG r = if r = rd ∧ r ≠ 0 then (archOf s c).pc + 4 else (archOf s c).rdG r) ∧
      (archOf t c).f = (archOf s c).f ∧ (archOf t c).cr = (archOf s c).cr ∧ (archOf t c).crw = (archOf s c).crw ∧
      (archOf t c).pc = ((archOf s c).rdG ra + imm.signExtend 64) &&& ~~~3)

/-- The floating-point arithmetic (R139, R143): a binary32 operation reads bits [31:0] of its registers; the result goes
to f RD and the flags to FPSR. -/
def Sys2Proof.Says.FloatingArithmeticResults : Prop :=
  ∀ (s : State) (c : CoreId) (rd ra rb rc : Reg) (dbl : Bool),
    let F := if dbl then f64 else f32
    let op := fun (r : Reg) => if dbl then ((archOf s c).rdF r).toNat else ((archOf s c).rdF r).toNat % 2 ^ 32
    let rm := fld ((archOf s c).ctl c 0x10) 8 3
    let P := fun (v : Nat × Nat) (t : State) => WritesF s t c rd v.1 v.2
    (Issues s c [(true, rd), (true, ra), (true, rb)] →
      Answers (.fadd c rd ra rb dbl) s (P (F.add rm (op ra) (op rb)))) ∧
    (Issues s c [(true, rd), (true, ra), (true, rb)] →
      Answers (.fsub c rd ra rb dbl) s (P (F.sub rm (op ra) (op rb)))) ∧
    (Issues s c [(true, rd), (true, ra), (true, rb)] →
      Answers (.fmul c rd ra rb dbl) s (P (F.mul rm (op ra) (op rb)))) ∧
    (Issues s c [(true, rd), (true, ra), (true, rb)] →
      Answers (.fdiv c rd ra rb dbl) s (P (F.div rm (op ra) (op rb)))) ∧
    (Issues s c [(true, rd), (true, ra)] →
      Answers (.fsqrt c rd ra dbl) s (P (F.sqrt rm (op ra)))) ∧
    (Issues s c [(true, rd), (true, ra), (true, rb)] →
      Answers (.fmin c rd ra rb dbl) s (P (F.minmax true (op ra) (op rb)))) ∧
    (Issues s c [(true, rd), (true, ra), (true, rb)] →
      Answers (.fmax c rd ra rb dbl) s (P (F.minmax false (op ra) (op rb)))) ∧
    (Issues s c [(true, rd), (true, ra)] →
      Answers (.fabs c rd ra dbl) s (P (F.mag (op ra), 0))) ∧
    (Issues s c [(true, rd), (true, ra)] →
      Answers (.fneg c rd ra dbl) s (P (F.neg (op ra), 0))) ∧
    (Issues s c [(true, rd), (true, ra), (true, rb)] →
      Answers (.fcopysign c rd ra rb dbl) s (P (F.signed (F.sign (op rb)) (F.mag (op ra)), 0))) ∧
    (Issues s c [(true, rd), (true, ra), (true, rb), (true, rc)] →
      Answers (.fma c rd ra rb rc dbl) s (P (F.fma rm (op ra) (op rb) (op rc) false false))) ∧
    (Issues s c [(true, rd), (true, ra), (true, rb), (true, rc)] →
      Answers (.fmaNp c rd ra rb rc dbl) s (P (F.fma rm (op ra) (op rb) (op rc) true false))) ∧
    (Issues s c [(true, rd), (true, ra), (true, rb), (true, rc)] →
      Answers (.fmaNa c rd ra rb rc dbl) s (P (F.fma rm (op ra) (op rb) (op rc) false true))) ∧
    (Issues s c [(true, rd), (true, ra), (true, rb), (true, rc)] →
      Answers (.fmaNpa c rd ra rb rc dbl) s (P (F.fma rm (op ra) (op rb) (op rc) true true)))

/-- Comparison, classification, conversion and moves between the register files (R139, R143, R144). -/
def Sys2Proof.Says.FloatingConversionResults : Prop :=
  ∀ (s : State) (c : CoreId) (rd ra rb : Reg) (pr : BitVec 3) (dbl : Bool),
    let F := if dbl then f64 else f32
    let x := archOf s c
    let op := fun (r : Reg) => if dbl then (x.rdF r).toNat else (x.rdF r).toNat % 2 ^ 32
    let rm := fld (x.ctl c 0x10) 8 3
    (Issues s c [(false, rd), (true, ra), (true, rb)] →
      Answers (.fcmp c rd ra rb pr dbl) s (fun t =>
      WritesGF s t c rd (if (F.predicate pr.toNat (op ra) (op rb)).1 then 1 else 0) (F.predicate pr.toNat (op ra) (op rb)).2)) ∧
    (Issues s c [(false, rd), (true, ra)] →
      Answers (.fkind c rd ra dbl) s (fun t => WritesGF s t c rd (F.kind (op ra)) 0)) ∧
    (Issues s c [(false, rd), (true, ra)] →
      Answers (.ftoi32 c rd ra dbl) s (fun t =>
      WritesGF s t c rd (BitVec.ofInt 64 (F.toSat rm (op ra) 32).1) (F.toSat rm (op ra) 32).2)) ∧
    (Issues s c [(false, rd), (true, ra)] →
      Answers (.ftoi64 c rd ra dbl) s (fun t =>
      WritesGF s t c rd (BitVec.ofInt 64 (F.toSat rm (op ra) 64).1) (F.toSat rm (op ra) 64).2)) ∧
    (Issues s c [(true, rd), (false, ra)] →
      Answers (.itof32 c rd ra dbl) s (fun t =>
      WritesF s t c rd (F.ofInt rm ((x.rdG ra).setWidth 32).toInt).1 (F.ofInt rm ((x.rdG ra).setWidth 32).toInt).2)) ∧
    (Issues s c [(true, rd), (false, ra)] →
      Answers (.itof64 c rd ra dbl) s (fun t => WritesF s t c rd (F.ofInt rm (x.rdG ra).toInt).1 (F.ofInt rm (x.rdG ra).toInt).2)) ∧
    (Issues s c [(true, rd), (true, ra)] →
      Answers (.fnarrow c rd ra) s (fun t =>
      WritesF s t c rd (narrow rm (x.rdF ra).toNat).1 (narrow rm (x.rdF ra).toNat).2)) ∧
    (Issues s c [(true, rd), (true, ra)] →
      Answers (.fwiden c rd ra) s (fun t =>
      WritesF s t c rd (widen ((x.rdF ra).toNat % 2 ^ 32)).1 (widen ((x.rdF ra).toNat % 2 ^ 32)).2)) ∧
    (Issues s c [(false, rd), (true, ra)] →
      Answers (.fmovg c rd ra dbl) s (fun t => WritesGF s t c rd (BitVec.ofNat 64 (op ra)) 0)) ∧
    (Issues s c [(true, rd), (false, ra)] →
      Answers (.gmovf c rd ra dbl) s (fun t =>
      WritesF s t c rd (if dbl then (x.rdG ra).toNat else (x.rdG ra).toNat % 2 ^ 32) 0))

/-- Loads from the core's own hob (R136, R145): the register takes the loaded value, sign- or zero-extended; nothing else
changes but the program counter and the arbiter's pointer. A load that is not granted at once is pending. -/
def Sys2Proof.Says.OwnHobLoadResults : Prop :=
  ∀ (s : State) (c : CoreId) (rd ra : Reg) (imm : BitVec 16),
    let a := (archOf s c).rdG ra + imm.signExtend 64
    let v := fun n => hobWord s a.toNat n
    let ok := fun n sg isF => LoadsNow s c ra ⟨a, n, sg, isF, rd, none⟩
    (ok 1 true false → Answers (.lb c rd ra imm false) s (LoadsG s · c rd ((BitVec.ofNat 8 (v 1)).signExtend 64))) ∧
    (ok 1 false false → Answers (.lbu c rd ra imm false) s (LoadsG s · c rd (BitVec.ofNat 64 (v 1)))) ∧
    (ok 2 true false → Answers (.lh c rd ra imm false) s (LoadsG s · c rd ((BitVec.ofNat 16 (v 2)).signExtend 64))) ∧
    (ok 2 false false → Answers (.lhu c rd ra imm false) s (LoadsG s · c rd (BitVec.ofNat 64 (v 2)))) ∧
    (ok 4 true false → Answers (.lw c rd ra imm false) s (LoadsG s · c rd ((BitVec.ofNat 32 (v 4)).signExtend 64))) ∧
    (ok 4 false false → Answers (.lwu c rd ra imm false) s (LoadsG s · c rd (BitVec.ofNat 64 (v 4)))) ∧
    (ok 8 false false → Answers (.ld c rd ra imm false) s (LoadsG s · c rd (BitVec.ofNat 64 (v 8)))) ∧
    (ok 4 false true → Answers (.flw c rd ra imm false) s (LoadsF s · c rd (v 4))) ∧
    (ok 8 false true → Answers (.fld c rd ra imm false) s (LoadsF s · c rd (v 8))) ∧
    (∀ (w : Bool) (i : Instr) (o : LoadOp), (i, o) ∈ ([(.lb c rd ra imm w, ⟨a, 1, true, false, rd, none⟩),
        (.lbu c rd ra imm w, ⟨a, 1, false, false, rd, none⟩), (.lh c rd ra imm w, ⟨a, 2, true, false, rd, none⟩),
        (.lhu c rd ra imm w, ⟨a, 2, false, false, rd, none⟩), (.lw c rd ra imm w, ⟨a, 4, true, false, rd, none⟩),
        (.lwu c rd ra imm w, ⟨a, 4, false, false, rd, none⟩), (.ld c rd ra imm w, ⟨a, 8, false, false, rd, none⟩),
        (.flw c rd ra imm w, ⟨a, 4, false, true, rd, none⟩), (.fld c rd ra imm w, ⟨a, 8, false, true, rd, none⟩)] : List (Instr × LoadOp)) →
      LoadIssues s c ra o → s.world.grantedNow c o w = false → Answers i s (LoadPends s · c o))

/-- Stores (R136, R149, R157, R174): an aligned store takes one entry of the store buffer and an unaligned one in its own
hob two, with the data, the privilege and the MPU's refusal; memory does not change yet. -/
def Sys2Proof.Says.StoresEnterTheBuffer : Prop :=
  ∀ (s : State) (c : CoreId) (rs ra : Reg) (imm : BitVec 16),
    let x := archOf s c
    let a := x.rdG ra + imm.signExtend 64
    let q := s.dev.core c
    let ok := fun (isF : Bool) (n : Nat) =>
      Issues s c [(isF, rs), (false, ra)] ∧ (q.pend = [] → q.sb.length + (if a.toNat % n = 0 then 1 else 2) ≤ 8)
    let whole := fun (n : Nat) (v : Word64) => ([⟨a, v, n, x.priv c, !x.mpu c (x.priv c) .write a.toNat, false⟩] : List Store)
    let m := fun n => a.toNat % n
    let b := fun n => a.toNat + (n - m n)
    let no := fun n => !x.mpu c (x.priv c) .write a.toNat || !x.mpu c (x.priv c) .write (b n)
    let halves := fun (n : Nat) (v : Word64) =>
      ([⟨a, v, n - m n, x.priv c, no n, true⟩, ⟨BitVec.ofNat 64 (b n), v >>> (8 * (n - m n)), m n, x.priv c, no n, false⟩] : List Store)
    let es := fun n v => if m n = 0 then whole n v else halves n v
    let fits := fun (isF : Bool) (n : Nat) => ok isF n ∧ alignOk a.toNat n = true
    (fits false 1 → Answers (.sb c rs ra imm) s (EntersBuffer s · c (es 1 (x.rdG rs)))) ∧
    (fits false 2 → Answers (.sh c rs ra imm) s (EntersBuffer s · c (es 2 (x.rdG rs)))) ∧
    (fits false 4 → Answers (.sw c rs ra imm) s (EntersBuffer s · c (es 4 (x.rdG rs)))) ∧
    (fits false 8 → Answers (.sd c rs ra imm) s (EntersBuffer s · c (es 8 (x.rdG rs)))) ∧
    (fits true 4 → Answers (.fsw c rs ra imm) s (EntersBuffer s · c (es 4 (x.rdF rs)))) ∧
    (fits true 8 → Answers (.fsd c rs ra imm) s (EntersBuffer s · c (es 8 (x.rdF rs))))

/-- STORE_ACCEPT, ATOMIC and LOAD_RESPONSE (R137, R145, R149): the oldest store leaves the buffer and stands in its hob;
an atomic that is granted at once returns the old value and writes the new one, another is pending; a pending load writes its
register and retires with what it held. -/
def Obligations.AccessesReachTheHob : Prop :=
  (∀ (s : State) (c : CoreId) (link : Bool) (stall : Nat) (e : Store) (r : List Store),
    (s.dev.core c).sb = e :: r → e.split = false → e.denied = false → (s.dev.seam c).storeOpen [e] = false →
    Reaches s.world (coreRid s.dev.chim.pos c e.priv) (unitOf c) e.addr.toNat e.size .write →
    Answers (.storeAccept c link stall) s fun t =>
      StoresAt s t e.addr.toNat e.size e.data.toNat ∧ CoreDev s t c ∧
      t.dev.core c = { s.dev.core c with sb := r, beats := (s.dev.core c).beats + w64 stall,
                                         stalls := (s.dev.core c).stalls + w64 stall }) ∧
  (∀ (s : State) (c : CoreId) (rd ra rb : Reg) (fn : BitVec 11) (wait : Bool),
    let x := archOf s c
    let a := (x.rdG ra).toNat
    let n := if fn.getLsbD 0 then 8 else 4
    let old := hobWord s a n
    let o : LoadOp := ⟨x.rdG ra, n, decide (n = 4), false, rd, some (fn, x.rdG rb)⟩
    Drained s c → (s.dev.core c).sb = [] →
    fn.toNat / 2 ≤ 8 → a % n = 0 → x.mpu c (x.priv c) .both a = true →
    (s.world.grantedNow c o wait = true → Reaches s.world (ridOf s c) (unitOf c) a n .atomic →
      Answers (.atomic c rd ra rb fn wait) s fun t =>
        StoresAt s t a n ((atomicResult (fn.toNat / 2) n old ((x.rdG rb).toNat % 2 ^ (8 * n))).getD old) ∧
        CoreDev s t c ∧ CoreKeeps s t c ∧
        (∀ r, (archOf t c).rdG r = if r = rd ∧ r ≠ 0 then (BitVec.ofNat (8 * n) old).signExtend 64 else x.rdG r) ∧
        (archOf t c).f = x.f ∧ (archOf t c).cr = x.cr ∧ (archOf t c).crw = x.crw ∧ (archOf t c).pc = x.pc + 4) ∧
    (s.world.grantedNow c o wait = false → Answers (.atomic c rd ra rb fn wait) s (LoadPends s · c o))) ∧
  (∀ (s : State) (c : CoreId) (link : Bool) (stall : Nat) (p : PendLoad),
    let a := p.op.addr.toNat
    let q := s.dev.core c
    let v := hobWord s a p.op.size
    let x : Word64 := if p.op.signed then (BitVec.ofNat (8 * p.op.size) v).signExtend 64 else BitVec.ofNat 64 v
    q.pend = [p] → p.op.atomic = none → p.ans = none → p.lost = false → p.held = [] →
    (p.op.size = 1 ∨ p.op.size = 2 ∨ p.op.size = 4 ∨ p.op.size = 8) → a % p.op.size = 0 →
    q.storeAhead a p.op.size = false → (s.dev.seam c).requestOpen p.op (p.ck.priv c) = false →
    (s.dev.seam c).mode ≠ .halted → (s.dev.seam c).rethread = none →
    Reaches s.world (coreRid s.dev.chim.pos c (p.ck.priv c)) (unitOf c) a p.op.size .read →
    Answers (.loadResponse c link stall) s fun t =>
      CoreReads s t c ∧ (t.dev.core c).pend = [] ∧ (t.dev.core c).sb = q.sb ++ q.held ∧
      (∀ r, (archOf t c).rdG r = if p.op.isF = false ∧ r = p.op.rd ∧ r ≠ 0 then x else (archOf s c).rdG r) ∧
      (∀ r, (archOf t c).rdF r = if p.op.isF = true ∧ r = p.op.rd then x else (archOf s c).rdF r) ∧
      (archOf t c).cr = (archOf s c).cr ∧ (archOf t c).crw = (archOf s c).crw ∧ (archOf t c).pc = (archOf s c).pc ∧
      (t.dev.core c).retired = q.retired + BitVec.ofNat 64 p.ahead + 1 + BitVec.ofNat 64 q.nheld)
/-- SYNC.M, SYNC.F, SYNC.C, WAIT and the end of a WAIT (R147, R150, R154, R156, R462, R463): SYNC.M and SYNC.F pass once
every store has been accepted, SYNC.F and SYNC.C drop the fetch buffer, SYNC.C brings every written register into force
(the watchdog word has a statement of its own), WAIT stops the core unless something is already pending; a core that wakes has
its hob awake and the domains of its lanes ON, and nothing else changes. -/
def Sys2Proof.Says.SynchronisingInstructions : Prop :=
  ∀ (s : State) (c : CoreId),
    let q := s.dev.core c
    let x := archOf s c
    (Drained s c → q.sb = [] →
      Answers (.syncM c) s (fun t => JumpsTo s t c (x.pc + 4) ∧ (t.dev.core c).retired = q.retired + 1) ∧
      Answers (.syncF c) s (fun t => JumpsTo s t c (x.pc + 4) ∧ (t.dev.core c).fbuf = none)) ∧
    (Drained s c → q.sb ≠ [] →
      Answers (.syncM c) s (fun t => t = { s with dev := { s.dev with out := .none } }) ∧
      Answers (.syncF c) s (fun t => t = { s with dev := { s.dev with out := .none } })) ∧
    (Drained s c → x.priv c = true → (x.crw.rows.map (·.1)).Nodup → (∀ r ∈ x.crw.rows, r.1 ≠ 10) →
      Answers (.syncC c) s fun t =>
        RegsOnly s t c ∧ (∀ n, (archOf t c).ctl c n = x.crw.getD n (x.ctl c n)) ∧ (archOf t c).crw.rows = [] ∧
        (archOf t c).g = x.g ∧ (archOf t c).f = x.f ∧ (archOf t c).pc = x.pc + 4 ∧ (t.dev.core c).fbuf = none) ∧
    (Drained s c → x.priv c = true → s.dev.images.cut = none →
      Answers (.wait c) s fun t =>
        CoreOnly s t c ∧ archOf t c = { x with pc := x.pc + 4 } ∧
        (t.dev.core c).wait = if q.awaited c then q.wait else .wait) ∧
    (q.run = true → q.wait = .wait → q.awaited c = true → q.dbgReq = false →
      s.world.atSwitch c = false →
      Answers (.coreWake c) s fun t =>
        t.dev.core c = { q with wait := .awake } ∧ (∀ k, k ≠ c.val → t.dev.core k = s.dev.core k) ∧
        (t.dev.hob (unitOf c)).power = .awake ∧
        (∀ l ∈ [(s.dev.seam c).a, (s.dev.seam c).b, (s.dev.seam c).c].filterMap id,
          (t.dev.dom (if c.val < 64 then 13 * (c.val / 4) + l else 224 + l)).st = .on) ∧
        t.pending = s.pending ∧ t.fuse = s.fuse ∧ t.mem = s.mem ∧
        t.dev = { s.dev with out := .none, cores := t.dev.cores, hobs := t.dev.hobs,
                             power := { s.dev.power with doms := t.dev.power.doms } })

/-- The control registers (R152, R154, R161): CTLRD reads a register, a counter or a fixed value, a counter only once the vote on the read is no longer open; CTLWR writes the
writable bits, or holds the value of a SYNC.C register until SYNC.C; INT_RAISE and INT_PEND_CLEAR set and clear pending
sources, a reserved source never. -/
def Sys2Proof.Says.ControlRegisterAccess : Prop :=
  ∀ (s : State) (c : CoreId) (r : Reg),
    let q := s.dev.core c
    let x := archOf s c
    let v := x.rdG r
    let pends := fun (t : State) (p : Word64) => CoreOnly s t c ∧ archOf t c = { x with pc := x.pc + 4 } ∧ (t.dev.core c).ipend = p
    (∀ n : BitVec 12, Drained s c → ctlAssigned n.toNat = true → ctlUser n.toNat = true ∨ x.priv c = true →
      let k := n.toNat
      let voted := ctlVoted k && (s.dev.seam c).tokenOpen (ctlToken r k (x.priv c))
      (voted = true → Answers (.ctlrd c r n) s (Only s · id)) ∧
      (voted = false → Answers (.ctlrd c r n) s (WritesG s · c r
        (if k = 0 then w64 ((if c.val < 64 then c.val else 0x3F) + 64 * s.dev.chim.pos.toNat + (if c.val < 64 then 0 else 512))
         else if k = 0x41 then q.ipend
         else if k = 10 ∧ (s.dev.wdt c).locked = true then (s.dev.wdt c).ctl
         else if k = 0x42 ∨ k = 11 ∨ k = 12 then 0
         else if k = 0x200 then s.world.beatsNow c
         else if k = 0x201 then q.retired
         else if k = 0x202 then q.stalls
         else if k = 0x203 then s.dev.clock.tb
         else x.crw.getD k (x.ctl c k))))) ∧
    (∀ n m : Nat, Drained s c → x.priv c = true →
      (n, m) ∈ [(1, 0xFFF), (2, 0xFFFFFFFFFFFFFFFF), (3, 0xFFBF), (4, 0xFFFFFFFFFFFFFFFF), (5, 0xFFFFFFFFFFFFFFFF),
        (6, 0xFFFFFFFFFFFFFFFF), (0x40, 0x1FFBFFF7FFFFFFFF), (0x43, 0xF), (0x44, 0xFFFFFFFFFFFFFFFF), (0x45, 0xFFFFFFFFFFFFFFFF),
        (0x46, 0xFFFFFFFFFFFF0FFF), (0x47, 0x000FFFFFFFFFF0FF), (0x48, 0x7FFFF)] →
      Answers (.ctlwr c r (BitVec.ofNat 12 n)) s fun t =>
        RegsOnly s t c ∧ (∀ k, (archOf t c).ctl c k = if k = n then v &&& w64 m else x.ctl c k) ∧
        (archOf t c).g = x.g ∧ (archOf t c).f = x.f ∧ (archOf t c).crw = x.crw ∧ (archOf t c).pc = x.pc + 4) ∧
    (∀ n m : Nat, Drained s c → x.priv c = true →
      (n, m) ∈ [(8, 0xFFFFFFFFFFFFFF00), (9, 3), (0x120, 1)] →
      Answers (.ctlwr c r (BitVec.ofNat 12 n)) s fun t =>
        RegsOnly s t c ∧ (∀ k, (archOf t c).crw.get? k = if k = n then some (v &&& w64 m) else x.crw.get? k) ∧
        (archOf t c).cr = x.cr ∧ (archOf t c).g = x.g ∧ (archOf t c).f = x.f ∧ (archOf t c).pc = x.pc + 4) ∧
    (Drained s c → x.priv c = true →
      Answers (.intRaise c r) s (pends · (q.ipend ||| (v &&& 0x1FFBFFF7FFFFFFFF))) ∧
      Answers (.intPendClear c r) s (pends · (q.ipend &&& ~~~v)))

/-- Traps and interrupts (R130, R131, R160 to R167): where the vector slot can be fetched, TRAP enters with cause 10 and EPC
behind it, BKPT of a core that no debugger holds with cause 11, a word that is no instruction with cause 2 and EPC at it,
TRAP_ENTRY with its code, and INTERRUPT_ENTRY with the chosen source, which leaves the pending register. -/
def Sys2Proof.Says.EntriesOfTrapsAndInterrupts : Prop :=
  ∀ (s : State) (c : CoreId), s.world.canEnter c = true → (s.dev.core c).pend = [] →
    let q := s.dev.core c
    let x := archOf s c
    let ipl := fld (x.ctl c 1) 4 4
    (q.wdtTrap = false → VectorReached s c 40 → Answers (.trap c) s fun t =>
      Entered s t c 40 (x.pc + 4) 10 0 ipl ∧ (t.dev.core c).retired = q.retired + 1) ∧
    (q.wdtTrap = false → VectorReached s c 44 → s.world.underDebug c = false → Answers (.bkpt c) s fun t =>
      Entered s t c 44 (x.pc + 4) 11 0 ipl ∧ (t.dev.core c).retired = q.retired + 1) ∧
    (∀ v : Word32, q.wdtTrap = false → VectorReached s c 8 → s.dev.images.cut = none → vexDecode v = none →
      ∃ t, execVexWord c v s = .next t ∧ Entered s t c 8 x.pc 2 0 ipl ∧ (t.dev.core c).retired = q.retired) ∧
    (∀ (code : BitVec 6) (eaddr : Word64) (detail : BitVec 8), VectorReached s c (4 * code.toNat) → s.dev.images.cut = none →
      2 ≤ code.toNat → code.toNat ≤ 12 → detailOk code.toNat detail.toNat = true → (code.toNat = 12 ↔ q.wdtTrap = true) →
      let n := code.toNat
      Answers (.trapEntry c code eaddr detail) s fun t =>
        Entered s t c (4 * n) (if n = 10 ∨ n = 11 then x.pc + 4 else x.pc)
          (w64 (n + (if n = 6 ∨ n = 9 then 256 * detail.toNat else 0)))
          (if 5 ≤ n ∧ n ≤ 7 then x.pc else if n = 4 ∨ n = 8 ∨ n = 9 then eaddr else 0) ipl ∧
        (t.dev.core c).wdtTrap = false) ∧
    (∀ (first : Nat) (late : List Nat), q.chosen c = some first → q.wdtTrap = false → bitAt (x.ctl c 1) 1 = true →
      let p := late.foldl (fun v i => v ||| w64 (2 ^ i)) q.ipend &&& 0x1FFBFFF7FFFFFFFF
      let n := ({ q with ipend := p } : Core).takeover c first late
      VectorReached s c (256 + 4 * n) →
      Answers (.interruptEntry c late) s fun t =>
        Entered s t c (256 + 4 * n) x.pc (w64 (n + 128)) 0 (x.prio c n) ∧
        (t.dev.core c).ipend = setBit p n false)

/-- RETE (R140, R153) restores the mode, the interrupt enable and the priority that the entry saved, and goes to EPC; a
privileged instruction of user mode takes the PRIVILEGE trap instead (R151, R163). -/
def Sys2Proof.Says.ReturnAndPrivilege : Prop :=
  ∀ (s : State) (c : CoreId) (r : Reg), Drained s c →
    let x := archOf s c
    let old := x.ctl c 1
    let trap3 := fun t => Entered s t c 12 x.pc 3 0 (fld old 4 4)
    (x.priv c = true → Answers (.rete c) s fun t =>
      let y := archOf t c
      let new := y.ctl c 1
      RegsOnly s t c ∧ y.pc = x.ctl c 2 &&& ~~~3 ∧ fld new 0 1 = fld old 2 1 ∧ fld new 1 1 = fld old 3 1 ∧
      fld new 2 1 = fld old 2 1 ∧ fld new 3 1 = fld old 3 1 ∧ fld new 4 4 = fld old 8 4 ∧ fld new 8 4 = fld old 8 4 ∧
      (∀ n, n ≠ 1 → y.ctl c n = x.ctl c n) ∧ y.g = x.g ∧ y.f = x.f ∧ y.crw = x.crw) ∧
    (x.priv c = false → s.dev.images.cut = none → VectorReached s c 12 →
      Answers (.rete c) s trap3 ∧ Answers (.syncC c) s trap3 ∧ Answers (.wait c) s trap3 ∧
      Answers (.ctlrd c r 1) s trap3 ∧ Answers (.ctlwr c r 1) s trap3 ∧ Answers (.intRaise c r) s trap3)
/-- Service and check-in of a watchdog (R307, R308, R312 to R314, R318): the key sequence, the early, late and wrong
keys, tokens that check in, stray and duplicate ones. A watchdog that does not run, or whose window has closed, takes
none of them. -/
def Sys2Proof.Says.WatchdogService : Prop :=
  ∀ (s : State) (c : CoreId) (r : Reg), Drained s c →
    let x := s.dev.wdt c
    let v := (archOf s c).rdG r
    let e := x.elapsed s.dev.now
    let src := if c.val < 64 then 0x080 + c.val else 0x0C0
    let det := fun (cause tok : Nat) => w32 (c.val + 128 * cause + 1024 * tok)
    let pos := w32 (e / 1000)
    let quiet := fun (t : State) (y : Wdt) =>
      t.dev.wdt c = y ∧ (∀ k, k ≠ c.val → t.dev.wdt k = s.dev.wdt k ∧ t.dev.core k = s.dev.core k) ∧
      archOf t c = { archOf s c with pc := (archOf s c).pc + 4 } ∧
      t.dev = { beatDev s t c with out := .none, cores := t.dev.cores, wdts := t.dev.wdts } ∧ t.mem = s.mem ∧ t.fuse = s.fuse
    let expires := fun (t : State) (y : Wdt) (cause tok : Nat) =>
      WdtExpired y t c cause ∧ Detected s t src (det cause tok) pos s.dev.clock.tb ∧
      t.dev.clock = { s.dev.clock with beats := t.dev.clock.beats }
    let runs := x.st = .running ∧ e < 1000 * x.close
    (¬ runs → Answers (.wdtKeyWrite c r) s (quiet · x) ∧ Answers (.wdtCheckin c r) s (quiet · x)) ∧
    (runs → v = 0x6B1E → x.armed = false → Answers (.wdtKeyWrite c r) s (quiet · { x with armed := true })) ∧
    (runs → v = 0x94E1 → x.armed = true → 1000 * x.open_ ≤ e → (∀ i, i < x.rollN → x.inn.getLsbD i = true) →
      Answers (.wdtKeyWrite c r) s (quiet · { x with services := satInc x.services, inn := 0, armed := false, rollShort := false,
                                                     start := x.paused.getD s.dev.clock.ivl })) ∧
    (runs → v = 0x94E1 → x.armed = true → 1000 * x.open_ ≤ e → (∃ i, i < x.rollN ∧ x.inn.getLsbD i = false) →
      Answers (.wdtKeyWrite c r) s (quiet · { x with armed := false, rollShort := true })) ∧
    (runs → v = 0x94E1 → x.armed = true → e < 1000 * x.open_ → Answers (.wdtKeyWrite c r) s (expires · x 2 0)) ∧
    (runs → (v = 0x6B1E ∧ x.armed = true) ∨ (v = 0x94E1 ∧ x.armed = false) ∨ (v ≠ 0x6B1E ∧ v ≠ 0x94E1) →
      Answers (.wdtKeyWrite c r) s (expires · x 3 0)) ∧
    (runs → v.toNat < 16 → v.toNat < x.rollN → x.inn.getLsbD v.toNat = false →
      Answers (.wdtCheckin c r) s (quiet · { x with inn := setBit x.inn v.toNat true })) ∧
    (runs → 16 ≤ v.toNat ∨ x.rollN ≤ v.toNat → Answers (.wdtCheckin c r) s (quiet · { x with stray := true })) ∧
    (runs → v.toNat < 16 → v.toNat < x.rollN → x.inn.getLsbD v.toNat = true →
      let y := { x with dup := setBit x.dup v.toNat true }
      Answers (.wdtCheckin c r) s fun t =>
        if fld x.ctl 53 2 = 0 then quiet t y
        else if fld x.ctl 53 2 = 3 then expires t y 4 v.toNat
        else t.dev.wdt c = y ∧ Detected s t (if fld x.ctl 53 2 = 1 then 0x0C2 else 0x0C3) (det 0 v.toNat) pos s.dev.clock.tb)

/-- The instants of the watchdogs (R307, R310, R315 to R318): the closing tick, the hard timer, the limit of a required
watchdog that never started, the end of the suspensions that have lasted 500 ms, and the start by SYNC.C. -/
def Sys2Proof.Says.WatchdogInstants : Prop :=
  ∀ (s : State) (c : CoreId),
    let x := s.dev.wdt c
    let src := if c.val < 64 then 0x080 + c.val else 0x0C0
    (x.st = .running → x.paused = none → Answers (.windowClose c) s fun t =>
      ReachesIvl s t (x.start.toNat + 1000 * x.close) ∧ WdtExpired x t c 1 ∧
      ∃ d, Detected s t src (w32 (c.val + 128)) d t.dev.clock.tb) ∧
    (∀ h, x.hardAt = some h → Answers (.hardTimerExpiry c) s fun t =>
      let q := t.dev.core c
      ReachesIvl s t h.toNat ∧
      t.dev.wdt c = { cause := x.cause, count := x.count } ∧
      q.arch.g.rows = [] ∧ q.arch.f.rows = [] ∧ q.pend = [] ∧ q.sb = [] ∧ q.ipend = 0 ∧ q.wdtTrap = false ∧
      (c.val = 64 → (s.dev.seam 64).mode ≠ .halted → t.dev.stoker.serving = false ∧ t.dev.stoker.restarting = true ∧ t.dev.stoker.pends = []) ∧
      ∃ d, Detected s t 0x0C1 (w32 (c.val + 128 * x.cause.toNat)) d t.dev.clock.tb) ∧
    (s.world.required c = true → (s.dev.core c).run = true → (s.dev.core c).reqRaised = false → x.st = .off →
      Answers (.reqLimitExpiry c) s fun t =>
        ReachesIvl s t ((s.dev.core c).since.toNat + 1000 * fld (s.world.reg 3 0 0x28) 0 20) ∧ WdtExpired x t c 5 ∧
        ∃ d, Detected s t src (w32 (c.val + 128 * 5)) d t.dev.clock.tb) ∧
    (∀ b, s.world.suspFirst = some b → Answers .suspensionLimit s fun t =>
      ReachesIvl s t (b + 500000000) ∧ t.dev.eraseAt = s.dev.eraseAt ∧
      ∀ k, k < 65 → (t.dev.wdt k).susp = true ↔
        (s.dev.wdt k).susp = true ∧ t.dev.now - 500000000 < (s.dev.wdt k).suspAt.toNat) ∧
    (∀ v : Word64, Drained s c → (archOf s c).priv c = true → (archOf s c).crw.rows = [(10, v)] → x.st = .off →
      s.dev.eraseAt = none →
      Answers (.syncC c) s fun t =>
        if bitAt v 50 = false then t.dev.wdt c = { x with ctl := v }
        else if wdtWordOk v = true then
          t.dev.wdt c = { x with ctl := v, st := .running, start := s.dev.clock.ivl }
        else t.dev.wdt c = { x with ctl := v, cfgRefused := true } ∧ ∃ d, Detected s t 0x0C4 (w32 c.val) d s.dev.clock.tb)

/-- What the queries of the device answer (R55, R76, R77, R262, R296, R320, R431, R454, R456, R473, R494, R511): DONE with
the values that they list, and nothing else changes. -/
def Obligations.DeviceQueriesAnswer : Prop :=
  ∀ (s : State) (p : Packet) (w : W),
    let d := s.dev
    let n := (pw p 0).toNat
    let ok := fun (opc : Nat) (i : Instr) (res : List Byte) => Begins s opc p w → Answers i s (Done s · opc p w res)
    ok 0x0107 (.nop p) [] ∧
    ok 0x0110 (.timeStatus p) (le 8 d.clock.tb.toNat ++ le 8 d.clock.frameNo.toNat ++ le 4 w.tbStat.toNat ++
      le 4 (w.reg 5 0 0x38).toNat ++ le 4 (if w.tbSource = 0 then 0 else BitVec.ofInt 32 d.clock.offset).toNat ++
      le 4 (if w.tbSource = 0 then 0xFFFFFFFF else match d.clock.lastSync with
        | some x => min ((d.now - x.toNat) / 1000) 0xFFFFFFFF
        | none => 0xFFFFFFFF)) ∧
    ok 0x0A30 (.lcNonceGet p) (le 4 d.sys.nonce.toNat) ∧
    ok 0x0A43 (.sessionStatus p) (w.dev.images.sessions.flatMap fun x =>
      le 4 x.id.toNat ++ le 4 ((x.till.toNat - d.clock.tb.toNat + 999999999) / 1000000000) ++ le 4 x.accepted ++ le 4 x.mac.toNat) ∧
    (let x := w.stageHead
     let y := x.2.dev.images
     Begins s 0x0A01 p w → Answers (.imageStatus p) s (Done s · 0x0A01 p x.2
      (le 4 (x.2.dev.sys.slotB.toNat + 2 * x.2.dev.sys.fallback.toNat + 4 * y.stokerPending.toNat + 8 * y.st.code +
         256 * y.reason.toNat) ++
       le 4 (headVersion y.running.head).toNat ++ le 4 (headVersion x.1).toNat ++ le 4 y.stageLen ++
       headDigest y.running.head ++ headDigest x.1))) ∧
    (let x := match d.images.cut with
       | some c => (c.hearths, lo32 c.fc)
       | none => d.images.lastNamed
     ok 0x0A09 (.cutoverStatus p) (le 4 x.1.toNat ++ le 4 x.2.toNat ++
      le 4 (match (hearthsOf x.1).head? with | some h => ((d.cutStat h).word).toNat | none => 0) ++ le 4 d.images.lastCut.1.toNat)) ∧
    (∀ q, (w.portStat (fld (w.reg 2 0 0x34) 12 12)).1 = .data q → ok 0x0F01 (.traceStatus p)
      (le 4 (w.reg 2 0 0x34).toNat ++ le 4 (w.regRead 2 0 0x4C).toNat ++ q ++ le 4 (w.regRead 2 0 0x48).toNat ++
       le 4 (w.regRead 2 0 0x20).toNat)) ∧
    ok 0x0C01 (.chimneyStatus p) (w.regWords 12 0 [0x20, 0x24, 0x28, 0x2C, 0x30, 0x34, 0x38, 0x3C] ++
      ([0, 2, 4, 6] : List Nat).flatMap fun k => le 4 (w.posMode k + 65536 * w.posMode (k + 1))) ∧
    (∃ res, res.length = 64 ∧ res.take 36 = w.regWords 7 0 [0x20, 0x300, 0x304, 0x308, 0x30C, 0x310, 0x314, 0x318, 0x31C] ∧
      ok 0x0D10 (.fioStatus p) res) ∧
    ok 0x0D01 (.dampStatus p) (w.regWords 6 0 [0x20, 0x24, 0x28, 0x2C, 0x30, 0x34, 0x38, 0x3C, 0x40] ++
      w.regWords 6 0 ((List.range 16).map fun h => 0x104 + 256 * h)) ∧
    (d.thm.powered = true → d.thm.up = true →
      ok 0x0B01 (.thmStatus p) ((List.range 16).flatMap fun i => le 4 (w.mailbox (4 * i)).toNat)) ∧
    (d.thm.powered = false ∨ d.thm.up = false → ok 0x0B01 (.thmStatus p) (List.replicate 64 0)) ∧
    (n ≤ 64 → ok 0x0801 (.wdtStatus p) (le 4 (d.wdt n).stat.toNat ++ le 4 (d.wdt n).roll.toNat ++ le 4 ((d.wdt n).pos d.now) ++
      le 4 (d.wdt n).info.toNat ++ le 8 (d.wdt n).ctl.toNat)) ∧
    ok 0x0901 (.pwrStatus p) (le 4 (w.reg 4 0 0x20).toNat ++ w.regWords 4 0 [0x24] ++ le 4 (w.reg 4 0 0x28).toNat ++
      w.regWords 4 0 [0x2C, 0x30, 0x34]) ∧
    (n < 244 → ok 0x0905 (.pwrDomainStatus p) (w.regWords 4 0 [0x1000 + 4 * n, 0x1400 + 4 * n, 0x1800 + 4 * n]))

/-- What the queries of the lanes, the loops, the schedules, the memory, the queues, the Flue and basting answer (R114,
R185, R206, R236, R262, R296, R340, R363, R390): DONE with the values that they list, and nothing else changes. -/
def Obligations.BlockQueriesAnswer : Prop :=
  ∀ (s : State) (p : Packet) (w : W),
    let d := s.dev
    let n := (pw p 0).toNat
    let m := (pw p 1).toNat
    let there := fun (h : Nat) => bitAt d.sys.avail h = true
    let ok := fun (opc : Nat) (i : Instr) (res : List Byte) => Begins s opc p w → Answers i s (Done s · opc p w res)
    (n < 16 → ok 0x0301 (.laneStatus p) (wordsLe ([w.lanePack n 0 10, w.lanePack n 10 3] ++
      ([0, 1, 2, 3] : List Nat).map (fun k => (d.seam (4 * n + k)).stat) ++ (List.range 13).map fun l => (w.laneAt n l).cnt))) ∧
    (n = 16 → ok 0x0301 (.laneStatus p) (wordsLe ([w.lanePack 16 0 4, 0, (d.seam 64).stat, 0, 0, 0] ++
      (List.range 13).map fun l => if l < 4 then (w.laneAt 16 l).cnt else 0))) ∧
    (n < 2 ^ 12 → there (n % 16) →
      let h := n % 16
      let o := w.ctxBase h + 256 * (n / 16)
      let k := hobMaster d.chim.pos h w.stokerRid
      d.flips.rows = [] → (d.hob h).power = .awake → w.seen h o = o → w.seen h (o + 192) = o + 192 →
      Begins s 0x0405 p w → Answers (.loopStatus p) s
        (Done s · 0x0405 p ((w.granted h k).granted h k) (w.bytes (hobBase h + o) 32 ++ w.bytes (hobBase h + o + 192) 32))) ∧
    (n < 16 → there n → ok 0x0408 (.bellowsStatus p)
      (w.regWords 16 n [0x318, 0x31C, 0x320, 0x324, 0x328, 0x32C, 0x330, 0x334, 0x338, 0x33C])) ∧
    (n < 16 → there n → ∀ v, ReadsCtxs w (w.planCtxs n (w.activeBank n)) v → Begins s 0x0412 p w →
      Answers (.schedStatus p) s (Done s · 0x0412 p v (wordsLe [v.hreg n 0x600, (v.dev.blw n).schedStat, v.hreg n 0x608] ++
        v.planResult n (v.plan n (v.activeBank n)) (v.checkLevel n)))) ∧
    (n < 16 → there n → m ≤ 6 → ∀ v, ReadsCtxs w (w.planCtxs n false ++ w.planCtxs n true) v → Begins s 0x0413 p w →
      let q := w.plan n (!w.activeBank n)
      Answers (.schedCheck p) s (Done s · 0x0413 p v (v.planResult n (v.plan n (v.activeBank n)) m ++
        if q.entries.isEmpty then List.replicate 16 0 else v.planResult n q m))) ∧
    (n < 4 → (d.chan n).enabled = true →
      ok 0x0501 (.memStatus p) (w.regWords 10 n [0x20, 0x24, 0x28, 0x2C, 0x30, 0x48] ++ wordsLe [w32 d.dram.retired.length,
        w32 d.images.flash.rcd.rows.length, w32 (min d.scrubAge 0xFFFFFFFF), w32 d.scrubLimit]) ∧
      ok 0x0502 (.memLogRead p) (w.regWords 10 n ((List.range 64).map fun i => 0x100 + 4 * i))) ∧
    (1 ≤ m → m ≤ 1016 → ok 0x0505 (.memRetireList p) ((slice d.dram.retired n m).flatMap fun x => le 4 (x.1 + 2 ^ 31))) ∧
    ok 0x0507 (.memRepairList p) (d.images.flash.rcd.rows.flatMap fun r => le 4 (fld r.loc 0 24 + 2 ^ 24 * r.ch) ++ le 4 r.st.toNat) ∧
    (n ≤ 16 → ∃ res, res.length = 44 ∧ ok 0x0510 (.hobStatus p) res ∧ res.take 8 = (if n < 16 then
      le 4 (w.reg 16 n 0x200).toNat ++ w.regWords 16 n [0x204] else le 4 (w.reg 1 0 0x200).toNat ++ w.regWords 1 0 [0x204])) ∧
    (n < 16 → ok 0x0540 (.fwStatus p) (w.regWords 11 0 (fwCapOffs n))) ∧
    (n < 4096 → ok 0x0602 (.queueStatus p) (let x := d.queue n
      wordsLe [x.cfg.wordA, w32 x.cfg.cap, w32 x.cfg.level, x.occWord, w32 (min x.words 0xFFFFFFFF), x.seq,
        w32 (d.bobbin.opens.filter fun o => o.q == n).length])) ∧
    ok 0x0604 (.poolStatus p) (w.regWords 8 0 [0x20, 0x24, 0x28, 0x2C, 0x50, 0x54, 0x58]) ∧
    ok 0x0701 (.flueStatus p) (w.regWords 2 0 [0x20, 0x3C, 0x40, 0x44, 0x38, 0x48, 0x4C, 0x50, 0x54, 0x58]) ∧
    (1 ≤ n → n ≤ 32 → ∃ res, res.length = 32 * n ∧ ok 0x0702 (.flueHistoryRead p) res ∧
      (n ≤ d.flue.hist.length → res = (d.flue.hist.take n).flatMap fun r => wordsLe r.words)) ∧
    (1 ≤ m → m ≤ 127 → d.hasStore = true →
      let rs := d.flue.spill.reverse
      let next := (rs.head?.map fun r => r + 1).getD 0
      ∀ bs v, w.spillRead [] (((rs.take (seqSpan next (pw p 0) rs.length)).reverse).take m) = (some bs, v) →
        Begins s 0x0707 p w → Answers (.flueEventsRead p) s (Done s · 0x0707 p v bs)) ∧
    ok 0x0708 (.flueActive p) (w.regWords 2 0 ((List.range 64).map fun i => 0x100 + 4 * i)) ∧
    ok 0x0E01 (.basteStatus p) (wordsLe ([w.reg 14 0 0x20, w.reg 14 0 0x24, d.baste.scanStat, d.baste.rseq, w.overdueWord] ++
      (List.range 17).map w.hstat)) ∧
    (1 ≤ m → m ≤ 64 → ok 0x0E02 (.basteResults p)
      ((((d.baste.results.take (seqSpan d.baste.rseq (pw p 0) d.baste.results.length)).reverse).take m).flatMap fun r => wordsLe r.words))

/-- The commands that change the mode, and TIME_STEP (R41, R52, R76, R81, R265, R287, R470): where their conditions hold,
DONE, with the transition that they name. -/
def Sys2Proof.Says.ModeCommands : Prop :=
  ∀ (s : State) (p : Packet) (w : W),
    let d := s.dev
    let ok := fun (opc : Nat) (i : Instr) (v : W) => Begins s opc p w → Answers i s (Done s · opc p v [])
    ok 0x0101 (.deviceReset p) (w.upd fun d => { d with sys := { d.sys with resetArmed := true } }) ∧
    (d.sys.recovery = false → (d.isCourse = true → d.clock.everLocked = true) →
      (∀ h ∈ w.scheduled, bitAt d.images.loaded h = true) →
      ∀ x, ReadsCtxs w (w.scheduled.flatMap fun h => w.planCtxs h (w.activeBank h)) x →
      (∀ h ∈ w.scheduled, x.schedAccepted h = true) → (∀ h, h < 16 → x.schedMissing h = false) →
      (x.dev.commit (blockBase 2 0)).everDone = true → x.trips = [] → x.dev.sys.lockoutRec = false →
      let v := x.upd fun d => d.advanceTb (25000 * (d.clock.tb.toNat / 25000 + 1))
      ok 0x0102 (.runStart p) (v.setMode v.runMode)) ∧
    ok 0x0103 (.runStop p) (w.setMode .prepare) ∧
    (d.stoker.pends = [] → d.stoker.txn = none → d.stoker.grants = [] → d.power.changes.rows = [] →
      ok 0x0104 (.dozeEnter p) (w.upd fun d => { d with sys := { d.sys with dozeArmed := true } })) ∧
    ((w.grantOn 1 15 (some 0)).isSome = true → ok 0x0105 (.maintainEnter p) (w.setMode .maintain)) ∧
    ok 0x0106 (.maintainExit p) (w.setMode .prepare) ∧
    (d.sys.opReset = true → d.sys.opStuck = false →
      let v := (w.upd fun d => { d with
        sys := { d.sys with lockoutRec := false },
        images := { d.images with flash := { d.images.flash with lockout := false } },
        flue := { d.flue with window := [], localWin := ⟨[]⟩ } })
      ok 0x0703 (.lockoutReset p) ((v.each v.latchedIdle fun h v => v.releaseHold h).setMode .prepare)) ∧
    (∀ off : Word64, off = w64 ((pw p 0).toNat + 2 ^ 32 * (pw p 1).toNat) → w.stepMode = true → d.isCourse = false →
      w.courseHolds = false → 0 ≤ (d.clock.tb.toNat : Int) + off.toInt → (d.clock.tb.toNat : Int) + off.toInt < 2 ^ 64 →
      ok 0x0111 (.timeStep p) (if off = 0 then w else w.step off))

/-- The configuration transaction (R78, R79): CONFIG_BEGIN claims its blocks, CONFIG_WRITE stages, CONFIG_COMMIT refuses
a set that breaks a rule and names the lowest register at fault, or commits every claimed block, and CONFIG_ABORT
discards. -/
def Sys2Proof.Says.TransactionCommands : Prop :=
  ∀ (s : State) (p : Packet) (w : W),
    let ends := fun (opc : Nat) (i : Instr) (v : W) (st : Nat) (res : List Byte) =>
      Begins s opc p w → Answers i s (Ends s · opc p v st res)
    (let bs := (pwords p 0).map fun e => blockBase (entryBlock e).1 (entryBlock e).2
     s.dev.stoker.txn = none → (∀ e ∈ pwords p 0, w.hasBlock (entryBlock e).1 (entryBlock e).2 = true) → bs.Nodup →
     (∀ b ∈ bs, (s.dev.commit b).dirty = false ∧ (s.dev.commit b).state ≠ .busy) →
     ends 0x0201 (.configBegin p) (w.upd fun d => { d with stoker := { d.stoker with
       txn := some { src := srcKey p, blocks := bs } } }) 0 []) ∧
    (∀ t, s.dev.stoker.txn = some t → t.src = srcKey p →
      (let es := writeEntries (pwords p 0)
       (∀ e ∈ es, fld e.2.1 16 16 = 0 ∧ (w.claimedReg t (entryAddr e)).isSome = true ∧ loopOnly e = false) →
       ends 0x0202 (.configWrite p) (w.each es fun e v => match v.claimedReg t (entryAddr e) with
         | some (typ, inst, o, _) => v.setStaged typ inst o e.2.2
         | none => v) 0 []) ∧
      (∀ x a as, ReadsCtxs w (w.txnCtxs t) x → x.txnBad t = a :: as →
        ends 0x0203 (.configCommit p) x 0x203 (le 4 (as.foldl min a))) ∧
      (∀ x, ReadsCtxs w (w.txnCtxs t) x →
       let x0 := x.markLevels t
       let w1 := x0.setTxn (some { t with committing := true, saved := x0.activeOf t })
       let w2 := w1.each t.commits fun b v => v.commitGo (blockOf b).1 (blockOf b).2
       let w3 := w2.each t.commits fun b v => v.commitPoint (blockOf b).1 (blockOf b).2
       x.txnBad t = [] →
       (∀ st v, w3.txnStep = (some st, v) → ends 0x0203 (.configCommit p) v st []) ∧
       (∀ v, w3.txnStep = (none, v) → s.dev.stoker.pends.length < 32 →
         Begins s 0x0203 p w → Answers (.configCommit p) s (Pends s · 0x0203 p v 0 id))) ∧
      ends 0x0204 (.configAbort p) w.abortTxn 0 [])

/-- The commands of lanes, cores, hearths and basting (R115 to R118, R338, R341): where their conditions hold they pend,
and their work has begun. -/
def Sys2Proof.Says.LaneCommands : Prop :=
  ∀ (s : State) (p : Packet) (w : W), s.dev.stoker.pends.length < 32 →
    let d := s.dev
    let n := (pw p 0).toNat
    let h := n % 16
    let l := n / 16
    let pend := fun (opc : Nat) (i : Instr) (key : Nat) (go : W → W) => Begins s opc p w → Answers i s (Pends s · opc p w key go)
    (n < 256 → w.fenceCheck h l = none → w.lastTmr h l = false →
      pend 0x0302 (.laneFence p) (laneKey h l + 256 * (match w.seat h l with | some (k, _) => k + 1 | none => 0))
        (fun v => v.fence h l 6)) ∧
    (n < 256 → l < 13 → (w.laneAt h l).st = .fenced ∨ (w.laneAt h l).st = .failed →
      pend 0x0303 (.laneRetest p) (laneKey h l) (fun v => v.retest h l)) ∧
    (n < 64 → (d.seam n).shown = .halted → pend 0x0305 (.coreRestart p) n (fun v => v.startRestart n)) ∧
    (n < 16 → w.mayResetHearth n = true → pend 0x0307 (.hearthReset p) n (fun v => v.resetHearth n)) ∧
    (n < 17 → w.basteOn n = true → w.turn n ≠ .defer →
      pend 0x0E03 (.basteNow p) n (fun v => (v.bellowsTurn n).takeTurn n (w.turn n))) ∧
    ((w.grantOn 1 15 (some 0)).isSome = true → w.lifecycle = 0 ∨ w.lifecycle = 3 →
      pend 0x0E10 (.scanOpen p) 0 (fun v => ((v.upd fun d => { d with baste := { d.baste with scanHold := true } }).each (List.range 64)
        fun k v => v.coreReset k).stopBellows))

/-- The loop and schedule commands (R236 to R243, R263, R264): a context that passes its checks is written with its safe
output values, parameter writes enter the buffer of the hearth, a schedule that fits takes the inactive bank. -/
def Sys2Proof.Says.LoopAndScheduleCommands : Prop :=
  ∀ (s : State) (p : Packet) (w : W), s.dev.stoker.pends.length < 32 →
    let d := s.dev
    let v0 := pw p 0
    let n := v0.toNat
    let h := n % 16
    let i := n / 16 % 256
    let b := hobBase h
    let free := w.claimed 16 h = false ∧ (d.commit (blockBase 16 h)).dirty = false
    let there := bitAt d.sys.avail h = true
    let ok := fun (opc : Nat) (c : Instr) (v : W) (res : List Byte) => Begins s opc p w → Answers c s (Done s · opc p v res)
    let pend := fun (opc : Nat) (c : Instr) (key : Nat) (go : W → W) => Begins s opc p w → Answers c s (Pends s · opc p w key go)
    (n < 2 ^ 12 → there → free → w.lax = true ∨ w.placed h i = false →
      let blk := (pktBody p).drop 4
      let c := Ctx.ofBytes blk
      c.formOk = true → ∀ x, ReadsExt w h c x → x.ctxRules h c = true →
      ∀ y, ReadsCtxs x (x.ctxOffs h ((x.dev.blw h).loaded.filter (· != i))) y →
      (∀ j ∈ (y.dev.blw h).loaded, j ≠ i → c.clash (y.ctxAt h j) = false) →
      let w1 := y.hobWrites h 6 (b + (y.ctxBase h + 256 * i)) (blk.take 192 ++ List.replicate 8 0 ++ blk.drop 200)
      let w2 := w1.each (w1.safeImage h c) fun x v => v.hobWrites h 6 (b + x.1) (le 4 x.2)
      let w3 := w2.each ((c.outWords.map (· / 8)).eraseDups) fun k v => v.setOutGroup h k c.group
      ok 0x0401 (.loopLoad p) (w3.upd fun d => d.onBlw h fun x => { x with
        loaded := i :: x.loaded.filter (· != i), faulted := x.faulted.filter (· != i), resume := x.resume.filter (· != i) }) []) ∧
    (n < 2 ^ 20 → there →
      let off := n / 2 ^ 12
      let vs := (pktBody p).drop 4
      let base := w.ctxBase h + 256 * i
      ∀ old v, w.hobReadSel w.stokerRid h (b + base) 256 = (.data old, v) →
      let new := Ctx.ofBytes (old.take off ++ vs ++ old.drop (off + vs.length))
      let safe := (v.safeImage h new).filter fun x => !(v.safeImage h (Ctx.ofBytes old)).contains x
      0x18 ≤ off → off % 4 = 0 → off + vs.length ≤ 0xC0 → new.dims = (Ctx.ofBytes old).dims →
      new.extLen = (Ctx.ofBytes old).extLen → ∀ y, ReadsExt v h new y → y.ctxRules h new = true →
      ((List.range 8).filter fun k => slice old (32 * k) 32 != slice (old.take off ++ vs ++ old.drop (off + vs.length)) (32 * k) 32).length +
        ((safe.map fun x => x.1 / 32).eraseDups).length ≤ 8 →
      Begins s 0x0402 p w → Answers (.loopParam p) s (Pends s · 0x0402 p y h
        fun v => v.addParams h i (cellsOf (base + off) vs ++ safe.flatMap fun x => cellsOf x.1 (le 4 x.2)))) ∧
    (n < 2 ^ 14 → there → n / 2 ^ 12 ≠ 3 →
      ∀ hd v, w.hobReadSel w.stokerRid h (b + (w.ctxBase h + 256 * i)) 32 = (.data hd, v) →
      let c := Ctx.ofBytes hd
      c.kernel = 1 → (n / 2 ^ 12 = 2 → dValid (c.inp 3) = true) →
      Begins s 0x0403 p w → Answers (.loopMode p) s (Pends s · 0x0403 p v h fun x =>
        x.addParams h i (cellsOf (v.ctxBase h + 256 * i) (le 4 (setFld (w32 (c.h 0)) 16 2 (n / 2 ^ 12)).toNat)))) ∧
    (n < 2 ^ 12 → there → i ∈ (d.blw h).faulted →
      pend 0x0404 (.loopResume p) (256 * h + i) (fun v => v.ctxResume h (w32 (i + 256)))) ∧
    (n < 2 ^ 11 → there → free →
      let c := n / 16 % 16
      let role := n / 256 % 4
      let stamp := bitAt v0 10
      let first := fld (pw p 3) 0 12
      let count := fld (pw p 3) 12 13
      let a := (pw p 1).toNat + 2 ^ 32 * (pw p 2).toNat
      let last := a + (if fixedAddr a then 4 else 4 * count) - 1
      let regs : List (Nat × Word32) := [(0x30C, setBit (w.hreg h 0x30C) c (role == 1)), (0x310, setBit (w.hreg h 0x310) c (role == 2)),
        (0x314, setBit (w.hreg h 0x314) c (role != 0 && stamp)), (0x400 + 16 * c, pw p 1), (0x404 + 16 * c, pw p 2),
        (0x408 + 16 * c, pw p 3)]
      let x := w.applied ⟨regs.foldl (fun l r => insertRow (blockBase 16 h + r.1) r.2 l) []⟩
      role ≠ 3 → (pw p 2).toNat < 2 ^ 16 → (pw p 3).toNat < 2 ^ 25 → a % 4 = 0 → (role = 0 → a = 0 ∧ pw p 3 = 0) →
      (role ≠ 0 → count ≠ 0 ∧ first + count + stamp.toNat ≤ 4096 ∧ x.chanAdmitted h c = true) →
      ∀ y, ReadsCtxs w (if role = 2 then w.ctxOffs h (d.blw h).loaded else []) y →
      (role = 1 → ∀ k, k < 16 → k ≠ c →
        overlaps (x.inWindow h c).1 (x.inWindow h c).2 (x.inWindow h k).1 (x.inWindow h k).2 = false) →
      (role = 2 → ∀ j, j < count → first + j ∈ y.writtenWords h) → (role ≠ 0 → y.mapped a = true ∧ y.mapped last = true) →
      y.lax = true ∨ (bitAt (y.hreg h 0x30C) c = false ∧ bitAt (y.hreg h 0x310) c = false) →
      ok 0x0406 (.loopImageBind p) (((y.each regs fun r v => v.setStaged 16 h r.1 r.2).commitGo 16 h).commitPoint 16 h) []) ∧
    (n < 16 → there →
      let off := (pw p 1).toNat
      let bs := (pktBody p).drop 8
      off % 4 = 0 → off + bs.length ≤ 0x400000 → w.inAreas h off bs.length = false →
      ∀ y, ReadsCtxs w (if w.lax then [] else w.planCtxs h (bitAt (w.hreg h 0x600) 0)) y →
      y.lax = true ∨ (∀ k, k < 256 → (y.placed h k && overlaps off bs.length (y.ctxAt h k).extOff (32 * (y.ctxAt h k).extLen)) = false) →
      ok 0x0407 (.loopExtWrite p) (y.hobWrites h 6 (b + off) bs) []) ∧
    (n < 16 → there → free → ok 0x0409 (.bellowsCountClear p) (w.blwClear h true) []) ∧
    (n < 2 ^ 14 → there → free → (w.grantOn 0 16 (some h)).isSome = true → n / 2 ^ 12 = 1 ∨ n / 2 ^ 12 = 2 →
      pend 0x040A (.loopInject p) (256 * h + i) (fun v => v.blwInject h (w32 (i + 256 * (n / 2 ^ 12))))) ∧
    (n < 16 → there →
      let q : Plan := { entries := pwords p 3, slack := fld (pw p 1) 0 16, idleK := fld (pw p 2) 0 4, idleP := fld (pw p 2) 4 15,
                        reserve := fld (pw p 1) 16 16 }
      fld (pw p 2) 19 13 = 0 → q.reserve ≤ 2400 → q.idleP < 2 ^ q.idleK → (∀ e ∈ q.entries, entryForm e = true) →
      (q.entries.map entryCtx).Nodup → (∀ e ∈ q.entries, q.conflicts e = false) →
      ∀ y, ReadsCtxs w (w.ctxOffs n (q.entries.map entryCtx)) y → (∀ e ∈ q.entries, y.entryOk n e = true) →
      let l := y.checkLevel n
      if (y.planAt n q l).fits && y.slackOk n q then
        ok 0x0410 (.schedLoad p) (y.putPlan n (!y.activeBank n) q) (y.planResult n q l)
      else Begins s 0x0410 p w → Answers (.schedLoad p) s (Ends s · 0x0410 p y 0x205 (y.planResult n q l))) ∧
    (n < 16 → there →
      let bank := !w.activeBank n
      ((d.blw n).banks.getD bank.toNat {}).loaded = true ∨ (w.plan n bank).entries ≠ [] →
      ∀ y, ReadsCtxs w (w.planCtxs n bank) y → y.planPasses n (w.plan n bank) (y.checkLevel n) = true →
      let set := fun (v : W) => (v.setReg 16 n 0x600 (w32 bank.toNat)).upd fun d =>
        d.onBlw n fun x => { x with banks := x.banks.set bank.toNat { (x.banks.getD bank.toNat {}) with unchecked := false } }
      if y.lax = true ∧ (y.dev.blw n).phase = .stopped then ok 0x0411 (.schedSwap p) ((set y).takeBank n) []
      else Begins s 0x0411 p w → Answers (.schedSwap p) s (Pends s · 0x0411 p y n set))

/-- The commands of the memory, the hobs, the firewalls and the queues that change something (R185, R206, R357, R360, R363,
R364, R366, R390 to R393): the scrub engine takes its range, a page is retired, an entry is added by a flash operation,
counters are cleared, queues are configured, flushed and bound. -/
def Obligations.MemoryAndQueueCommands : Prop :=
  ∀ (s : State) (p : Packet) (w : W), s.dev.stoker.pends.length < 32 →
    let d := s.dev
    let v0 := pw p 0
    let n := v0.toNat
    let a := p48 p 0
    let len := p48 p 2
    let rcd := d.images.flash.rcd
    let ok := fun (opc : Nat) (c : Instr) (v : W) (res : List Byte) => Begins s opc p w → Answers c s (Done s · opc p v res)
    let pend := fun (opc : Nat) (c : Instr) (v : W) (key : Nat) (go : W → W) =>
      Begins s opc p w → Answers c s (Pends s · opc p v key go)
    let job := fun (fill : Option Word32) (v : W) => v.upd fun d => { d with dram := { d.dram with
      job := some { start := a, len := len, fill := fill, since := d.clock.tb } } }
    let take := w.upd fun d => { d with images := { d.images with jobNext := d.images.jobNext + 1 } }
    let key := d.images.jobNext
    (w.dramRange a len = true → len ≠ 0 →
      pend 0x0503 (.memScrub p) w 0 (job none) ∧ pend 0x050A (.memFill p) w 0 (job (some (pw p 4)))) ∧
    (w.dramRange a len = true → len = 0 → Begins s 0x0503 p w → Answers (.memScrub p) s (Ends s · 0x0503 p w 2 [])) ∧
    (n < 2 ^ 23 → n * 4096 < d.dramBytes → n ∈ rcd.pages → (w.retire n true).1 = true →
      ok 0x0504 (.memRetire p) ((w.retire n true).2.upd fun d => { d with images := { d.images with flash :=
        { d.images.flash with rcd := rcd } } }).scrubCheck []) ∧
    (n < 2 ^ 23 → n * 4096 < d.dramBytes → n ∉ rcd.pages → rcd.pages.length < 1024 → (w.retire n true).1 = true →
      ok 0x0504 (.memRetire p) ((w.retire n true).2.upd fun d => { d with images := { d.images with flash :=
        { d.images.flash with rcd := { rcd with pages := rcd.pages ++ [n] } } } }).scrubCheck []) ∧
    (w.dramRange a 64 = true → rcd.rows.length + (d.images.jobs.filter FlashJob.addsRow).length < 64 →
      pend 0x0506 (.memRepairAdd p) take key (fun v => v.addJob { dev := 0, op := .record (some (w.rowOf a)) none, key := key })) ∧
    (let m := (d.dramMap (a - dramBase)).1
     let x := pw p 2
     w.dramRange a 64 = true → (w.grantOn 0 10 (some m)).isSome = true → bitAt x 7 = false → bitAt x 23 = false →
     pend 0x0508 (.memInject p) w m (fun v => (((v.setReg 10 m 0x50 (w32 (a % 2 ^ 32))).setReg 10 m 0x54 (w32 (a / 2 ^ 32))).setReg
       10 m 0x58 x).setReg 10 m 0x4C (if fld x 24 8 = 0 then 1 else 3))) ∧
    (n < 4 → 1 ≤ (pw p 1).toNat → (pw p 1).toNat ≤ 24 →
      ok 0x0509 (.memConfig p) ((w.upd fun d => { d with images := { d.images with flash := { d.images.flash with
        rcd := { d.images.flash.rcd with rate := BitVec.ofNat 2 n, scrubLimit := BitVec.ofNat 16 (pw p 1).toNat,
                                         memSet := true } } } }).scrubCheck) []) ∧
    (n ≤ 16 → ok 0x0511 (.hobCountClear p) (w.hobCntClear n) []) ∧
    (n < 16 → fwPriv n = true → ok 0x0541 (.fwViolClear p) (w.each (fwCapOffs n) fun o v => v.setReg 11 0 o 0) []) ∧
    (let es := queueEntries (pwords p 0)
     let x := w.each es fun e v => v.setQCfg e
     (∀ e ∈ es, queueEntryOk e = true) → (es.map entryQ).Nodup →
     (∀ e ∈ es, e.2.mode = (d.queue (entryQ e)).cfg.mode ∨ w.queueBusy (entryQ e) = false) → x.dev.bobbin.rsv ≤ 65536 →
     (∀ e ∈ es, (d.queue (entryQ e)).occ ≤ e.2.cap ∧ e.2.tryCells ≤ e.2.cap ∧ w.safetyBad w (entryQ e) e.2 = false) →
     ok 0x0601 (.queueSet p) x.poolCheck []) ∧
    (n < 4096 → n ≠ w.evq → (w.flushQueue n).1 ≠ 0 ∨ (d.queue n).broken = true →
      ok 0x0603 (.queueFlush p) (w.flushQueue n).2.brokenCheck.poolCheck (le 4 (w.flushQueue n).1)) ∧
    (fld v0 22 9 = 0 → ok 0x0605 (.queueBind p)
      (w.setReg 8 0 (0x100 + 64 * fld v0 0 6 + 4 * fld v0 6 4) (w32 (fld v0 10 12 + 2 ^ 31 * (bitAt v0 31).toNat))) [])

/-- The commands of the Flue and of the power controller that change something (R282, R297, R298, R461, R464, R467, R473). -/
def Obligations.FlueAndPowerCommands : Prop :=
  ∀ (s : State) (p : Packet) (w : W), s.dev.stoker.pends.length < 32 →
    let d := s.dev
    let v := pw p 0
    let n := v.toNat
    let ok := fun (opc : Nat) (c : Instr) (x : W) (res : List Byte) => Begins s opc p w → Answers c s (Done s · opc p x res)
    let pend := fun (opc : Nat) (c : Instr) (x : W) (key : Nat) (go : W → W) =>
      Begins s opc p w → Answers c s (Pends s · opc p x key go)
    (d.sys.mode ≠ .lockout → d.flue.errPin = false → ok 0x0704 (.errpinRelease p) w [1, 0, 0, 0]) ∧
    (d.sys.mode ≠ .lockout → d.flue.errPin = true → w.errSource = false → w.errEnd ≤ d.now →
      ok 0x0704 (.errpinRelease p) w.errRelease [1, 0, 0, 0]) ∧
    (d.sys.mode ≠ .lockout → d.flue.errPin = true → w.errSource = false → d.now < w.errEnd →
      pend 0x0704 (.errpinRelease p) w 0 (fun x => x.upd fun d => { d with flue := { d.flue with errRel := true } })) ∧
    (let h := n % 16
     let hold := if bitAt v 4 then d.flue.holds.get? h else none
     let sels := ((bitsOf 16 (fld v 16 16)).map (16 * h + ·)).filter fun k => (d.flue.sels.get? k).isSome
     let srcs := (match hold with | some x => x.srcs | none => []) ++ sels.flatMap fun k => (d.flue.sels.getD k {}).srcs
     fld v 5 11 = 0 → hold.isSome = true ∨ sels ≠ [] → w.anyActive srcs = false →
     (∀ x, hold = some x → x.latched = false ∨ d.sys.opLow = true) →
     ok 0x0705 (.flueRelease p) ((if hold.isSome then w.releaseHold h else w).each sels fun k x => x.releaseSel k) []) ∧
    (n < 1024 → (w.source n).isSome = true → ok 0x0706 (.flueTest p) (w.raise n 0 0 true) []) ∧
    (let r := n % 4
     let l := n / 16
     let q := d.power
     n < 128 → r ≠ 3 → l ≠ 7 → (r = 2 → 3 ≤ l ∧ l ≤ 5) → bitAt v 2 = false → bitAt v 3 = false →
     w.levelOk r (q.bound r) l = true → ∀ y, ReadsCtxs w (if r ≠ 2 ∧ l < q.bound r then w.railCtxs r else []) y →
     (r = 2 ∨ q.bound r ≤ l ∨ y.mayLower r l = true) →
     (q.level r = l → q.transit r = false → ok 0x0902 (.pwrLevel p) y (le 4 l)) ∧
     (q.level r ≠ l ∨ q.transit r = true →
       pend 0x0902 (.pwrLevel p) (if r ≠ 2 ∧ l < q.bound r then y.markStandby r l else y) r (fun x => x.targetLevel r l))) ∧
    (let k := n % 256
     let x := w.upd fun d => d.onDom k fun y =>
       { y with votes := setBit y.votes 1 (bitAt v 8), waits := y.waits && !bitAt v 8 }
     n < 512 → k < 244 →
     (k < 241 → ok 0x0903 (.pwrVote p) x (le 4 (d.dom k).st.code)) ∧
     (w.hasDomain k = false → ok 0x0903 (.pwrVote p) w (le 4 0)) ∧
     (241 ≤ k → w.hasDomain k = true → Begins s 0x0903 p w → Answers (.pwrVote p) s (Ends s · 0x0903 p
       ((w.upd fun d => d.onDom k fun y => { y with refused := satInc y.refused }).domRefuse k w.stokerRid 4) 0x202 []))) ∧
    (n < 244 ∨ n = 0xFF → n = 0xFF ∨ (d.dom n).padHold = false ∨ (d.dom n).st = .on → w.heldPads n ≠ [] →
      ok 0x0904 (.padRelease p) (w.each (w.heldPads n) fun k x => x.upd fun d => d.onDom k fun y => { y with padHold := false }) []) ∧
    ok 0x0906 (.pwrCountClear p) (w.each (List.range 244) fun k x => x.upd fun d =>
      d.onDom k fun y => { y with refused := 0, aborted := 0 }) []

/-- The image, cutover, Thimble and chimney commands (R429 to R433, R442 to R445, R477, R494, R495): their effects, and the
flash operations that they wait for. -/
def Obligations.ImageAndLinkCommands : Prop :=
  ∀ (s : State) (p : Packet) (w : W), s.dev.stoker.pends.length < 32 →
    let d := s.dev
    let i := d.images
    let v := pw p 0
    let n := v.toNat
    let ok := fun (opc : Nat) (c : Instr) (x : W) => Begins s opc p w → Answers c s (Done s · opc p x [])
    let pend := fun (opc : Nat) (c : Instr) (x : W) (key : Nat) (go : W → W) =>
      Begins s opc p w → Answers c s (Pends s · opc p x key go)
    let take := w.upd fun d => { d with images := { d.images with jobNext := d.images.jobNext + 1 } }
    let img := fun (x : W) (f : Images → Images) => x.upd fun d => { d with images := f d.images }
    (n ≤ 0x1000000 → i.st ≠ .armed → d.hasStore = true →
      ok 0x0A02 (.imageStageBegin p)
        ((img w fun i => { i with st := .staging, stageLen := n, stage := {} }).areaZero i.areas.2.2 n)) ∧
    (let bs := (pktBody p).drop 4
     n % 4 = 0 → 4 ≤ bs.length → bs.length ≤ 4072 → n + bs.length ≤ i.stageLen → i.st ≠ .armed → d.hasStore = true →
     ok 0x0A03 (.imageStageChunk p) (img (w.areaWrite i.areas.2.2 n bs) fun i => { i with st := .staging, stage := {} })) ∧
    (i.st = .staging → d.hasStore = true →
      pend 0x0A04 (.imageVerify p) (img w fun i => { i with st := .verifying }) 0 id) ∧
    (i.st ≠ .armed → i.st ≠ .empty → d.hasStore = true →
      ok 0x0A05 (.imageDiscard p) (img w fun i => { i with st := .empty, stageLen := 0, stage := {} })) ∧
    (n < 2 → (n = 1 → i.st = .verified) → (n = 0 → i.running.head ≠ []) →
      pend 0x0A06 (.imagePersist p) (take.addJob { dev := 1, op := .persist (n == 1) true, key := i.jobNext }) i.jobNext id) ∧
    (let m : BitVec 16 := BitVec.ofNat 16 n
     let fc := (pw p 1).toNat + 2 ^ 32 * (pw p 2).toNat
     let now := d.clock.frameNo.toNat
     n < 65536 → i.cut = none → i.st = .verified → now + 4000 ≤ fc → fc ≤ now + 2 ^ 24 →
     (∀ h ∈ hearthsOf m, bitAt d.sys.avail h = true ∧ bitAt i.loaded h = true ∧ (codeOf i.running.head h).isSome = true ∧
       (codeOf i.stage.head h).isSome = true) → w.cutConflict m = false →
     pend 0x0A08 (.cutover p) ((img w fun i => { i with st := .armed, cut := some { hearths := m, fc := w64 fc } }).each (hearthsOf m)
       fun h x => x.upd fun d => d.onCutStat h fun y => { y with phase := 1, passed := 0, failed := 0 }) 0 id) ∧
    (let t := d.thm.nextTag
     fld v 4 12 = 0 → d.thm.up = true →
     pend 0x0B02 (.thmGate p) (w.upd fun d => { d with thm := { d.thm with nextTag := t + 1 } }) 0
       (fun x => ((x.setReg 17 0 0x20 (w32 (fld v 0 4 + 256 * t.toNat + 65536 * fld v 16 16))).setReg 17 0 0x24 (pw p 1)).gateGo 1)) ∧
    (let q := n % 4096
     let c := (d.queue q).cfg
     (n = q → ok 0x0B03 (.thmForward p) (w.upd fun d => { d with thm := { d.thm with fwd := none } })) ∧
     (n = q + 2 ^ 31 → c.mode = .packet → 512 ≤ c.floor → 9 ≤ c.tryCells → q ≠ fld (w.reg 2 0 0x34) 0 12 →
       ok 0x0B03 (.thmForward p) ((w.upd fun d => d.onQueue q fun x => { x with cfg := { x.cfg with safety := true } }).upd
         fun d => { d with thm := { d.thm with fwd := some q } }))) ∧
    (n < 2 → w.slotRuns (n == 1) = false →
      pend 0x0B04 (.thmSlotErase p) take i.jobNext (fun x => x.addJob { dev := n, op := .thmErase (n == 1), key := i.jobNext })) ∧
    (let o := (pw p 1).toNat
     let bs := (pktBody p).drop 8
     n < 2 → o % 4 = 0 → o < 524288 → o + bs.length ≤ 524288 → w.slotRuns (n == 1) = false →
     (∀ j, j < bs.length → i.flash.thm.getD (n * 0x80000 + o + j) 0xFF = 0xFF) →
     pend 0x0B05 (.thmSlotWrite p) take i.jobNext (fun x => x.addJob { dev := n, op := .thmWrite (n == 1) o bs, key := i.jobNext })) ∧
    (d.isCourse = false → 1 ≤ n → n ≤ 8 →
      pend 0x0C02 (.chimneySet p) take i.jobNext
        (fun x => x.addJob { dev := 0, op := .record none (some (BitVec.ofNat 4 n)), key := i.jobNext })) ∧
    (n < 4 → (bitAt v 0 = true → d.chim.up.st ≠ .disabled ∧ d.sys.mode.running = false) →
      (bitAt v 1 = true → d.chim.down.st ≠ .disabled) → w.memberRuns v = false →
      pend 0x0C03 (.chimneyRetrain p) w 0 (fun x => (x.writeRetrain v).retrainDone))

/-- The commands of keys, grants, tokens and sessions (R55 to R58, R81 to R83, R450 to R454). -/
def Obligations.KeyAndSessionCommands : Prop :=
  ∀ (s : State) (p : Packet) (w : W), s.dev.stoker.pends.length < 32 →
    let d := s.dev
    let i := d.images
    let v := pw p 0
    let b := pktBody p
    let ok := fun (opc : Nat) (c : Instr) (x : W) (res : List Byte) => Begins s opc p w → Answers c s (Done s · opc p x res)
    let pend := fun (opc : Nat) (c : Instr) => Begins s opc p w → Answers c s (Pends s · opc p w 0 id)
    let draws := i.entropyFail = false
    (w.lifecycle = 1 ∨ w.lifecycle = 2 → d.baste.pathOff = false → draws → pend 0x0A10 (.attest p)) ∧
    (let typ := fld v 0 16
     let inst := fld v 16 16
     let r := wordAt b 8
     let g : Grant := { id := d.stoker.nextGrant, typ := typ, inst := if inst = 0xFFFF then none else some inst,
                        till := d.clock.tb + w64 ((wordAt b 4).toNat * 1000000000), rights := BitVec.ofNat 2 r.toNat, signed := false }
     b.length ≠ 832 → w.lifecycle ≠ 2 → w.grantFields b false = true → (typ = 2 → bitAt r 0 = false) → typ ≠ 17 →
     d.stoker.grants.length < 8 →
     ok 0x0A20 (.expertGrant p) (w.upd fun d => { d with stoker := { d.stoker with
       grants := d.stoker.grants ++ [g], nextGrant := if g.id + 1 = 0 then 1 else g.id + 1 } }) (le 4 g.id.toNat)) ∧
    (let x := w.newNonce
     let typ := fld v 0 16
     let inst := fld v 16 16
     let r := wordAt b 8
     let g : Grant := { id := d.stoker.nextGrant, typ := typ, inst := if inst = 0xFFFF then none else some inst,
                        till := d.clock.tb + w64 ((wordAt b 4).toNat * 1000000000), rights := BitVec.ofNat 2 r.toNat, signed := true }
     b.length = 832 → draws → x.grantFields b true = true → slice b 0x10 8 = le 8 w.fuse.uid.toNat → wordAt b 0x18 = d.sys.nonce →
     keyStatus (w.fuse.keyHash 1) (slice b 0x20 388) (slice b 0x20 384) (slice b 0x1A0 4) (slice b 0x1C0 384) (b.take 0x1C0) = none →
     (typ = 2 → bitAt r 0 = false) → typ ≠ 17 → d.stoker.grants.length < 8 →
     ok 0x0A20 (.expertGrant p) (x.upd fun d => { d with stoker := { d.stoker with
       grants := d.stoker.grants ++ [g], nextGrant := if g.id + 1 = 0 then 1 else g.id + 1 } }) (le 4 g.id.toNat)) ∧
    ((∃ g ∈ d.stoker.grants, g.id = v) → ok 0x0A21 (.grantRelease p) (w.upd fun d => { d with stoker := { d.stoker with
      grants := d.stoker.grants.filter (fun g => g.id != v) } }) []) ∧
    (let n := (pw p 1).toNat
     let log := d.stoker.xlog
     let old := (log.takeWhile fun r => decide ((r.rseq - v).toInt < 0)).length
     let x := w.upd fun d => { d with stoker := { d.stoker with
       xlog := log.take old ++ (slice log old n).map (fun r => { r with read := true }) ++ log.drop (old + n) } }
     1 ≤ n → n ≤ 127 → w.active 0x054 = false → ok 0x0A23 (.expertLogRead p) x ((slice log old n).flatMap XRec.bytes)) ∧
    (let x := w.newNonce
     draws → x.tokenFields b d.sys.nonce = false → Begins s 0x0A31 p w → Answers (.lcToken p) s (Ends s · 0x0A31 p x 0x102 [])) ∧
    (let x := w.newNonce
     let y := x.lcApply b (fld (wordAt b 4) 8 8) p.session
     draws → x.tokenFields b d.sys.nonce = true →
     keyStatus (x.fuse.keyHash (wordAt b 20).toNat) (slice b 0x60 388) (slice b 0x60 384) (slice b 0x1E0 4) (slice b 0x200 384)
       (b.take 0x200) = none →
     Begins s 0x0A31 p w → Answers (.lcToken p) s fun t => t.fuse = y.fuse ∧
       Done { s with fuse := y.fuse } t 0x0A31 p (y.upd fun d => { d with sys := { d.sys with resetArmed := true } }) []) ∧
    (let x := w.upd fun d => { d with images := { d.images with flash := { d.images.flash with
       rcd := { d.images.flash.rcd with session := v } } } }
     fld v 3 13 = 0 → 1024 ≤ fld v 16 16 → ok 0x0A40 (.sessionCfg p) (if bitAt v 0 then x else x.endSessions) []) ∧
    (w.lifecycle = 1 ∨ w.lifecycle = 2 → d.baste.pathOff = false → isEth p = true → opensSession 0x0A41 p = true → w.openFields b = true → draws →
      pend 0x0A41 (.sessionOpen p)) ∧
    ((i.session v.toNat).isSome = true → srcKey p ≠ 16 + v.toNat → ok 0x0A42 (.sessionClose p) (w.endSession v) []) ∧
    ((i.session v.toNat).isSome = true → srcKey p = 16 + v.toNat → ok 0x0A42 (.sessionClose p)
      (w.upd fun d => { d with images := { d.images with
        sessions := d.images.sessions.map (fun x => if x.id = v then { x with accepted := 60000 } else x) } }) [])

/-- Power and the resets (R33, R41, R47, R50, R76, R470, R471, R533): what VCA_TURN_ON, VCA_BROWN_OUT, RESET_N_LOW,
RESET_N_HIGH, DOZE_ENTRY and DOZE_WAKE leave (the open packets end first, each with its event), and that each acts in its own modes alone. -/
def Obligations.PowerAndResets : Prop :=
  ∀ (s : State) (pos : BitVec 3),
    let d := s.dev
    let m := d.sys.mode
    let still := fun (i : Instr) => Answers i s (Only s · id)
    (if m = .off then
      Answers .vcaTurnOn s fun t => Only s t fun _ =>
        { sys := { nonce := t.dev.sys.nonce }, thm := d.thm.mainReset, images := { flash := d.images.flash }, free := d.free + 1 }
     else still .vcaTurnOn) ∧
    (if m = .off then still .vcaBrownOut
     else Answers .vcaBrownOut s (Only s · fun _ =>
      { sys := { mode := .off }, thm := d.thm.mainReset, images := { flash := d.images.flash }, free := d.free })) ∧
    (if m = .off ∨ m = .hold then still .resetNLow
     else Answers .resetNLow s fun t => ∃ gap : Gap, (s.world.dropRequesters fun _ => true).dev.flue.evqGap.n ≤ gap.n ∧
      Leaves s t fun w => (w.dropRequesters fun _ => true).upd fun d =>
      { sys := { nonce := t.dev.sys.nonce }
        clock := { tb := d.clock.tb, ivl := d.clock.ivl, acc := d.clock.acc, running := d.clock.running,
                   frame := d.clock.frame, backup := d.clock.backup }
        flue := { srcs := ⟨(d.flue.srcs.rows.map fun r => (r.1, { r.2 with active := false })).filter (fun r => r.2.count != 0)⟩
                  window := d.flue.window, localWin := d.flue.localWin, fifo := d.flue.fifo, hist := d.flue.hist,
                  histNext := d.flue.histNext, evqGap := gap, evqDue := true }
        lanes := ⟨d.lanes.rows.map fun r => (r.1, { total := r.2.total })⟩
        baste := { pathOff := d.baste.pathOff, zeroised := d.baste.zeroised }
        dram := { chans := ⟨d.dram.chans.rows.map fun r => (r.1, { epoch := r.2.epoch })⟩, blocks := d.dram.blocks }
        thm := d.thm.mainReset
        images := { flash := d.images.flash }
        power := { doms := d.power.doms.keep (fun n => 241 ≤ n) }
        patGen := d.patGen, free := d.free + 1, out := d.out }) ∧
    let rails := ∀ r < 11, (d.src (0x60 + r)).active = false
    (m = .hold → ¬ rails → Answers (.resetNHigh pos) s (Only s · fun d => { d with chim := { d.chim with pos := pos } })) ∧
    (m ≠ .hold → still (.resetNHigh pos)) ∧
    (m = .hold → rails → Answers (.resetNHigh pos) s (Only s · fun d => { d with
        sys := { d.sys with mode := .kindle, prev := 1, seq := d.sys.seq + 1, stamp := d.clock.tb },
        clock := { d.clock with running := true }, chim := { d.chim with pos := pos },
        patGen := if d.patGen.toNat % 2 = 0 then d.patGen + 1 else d.patGen })) ∧
    (if d.sys.dozeArmed = true ∧ m = .prepare then
      Answers .dozeEntry s (Leaves s · fun w =>
        (w.upd fun d => { d with sys := { d.sys with dozeArmed := false } }).setMode .doze)
     else still .dozeEntry) ∧
    (if m = .doze then Answers .dozeWake s (Leaves s · fun w => w.setMode .prepare)
     else Answers .dozeWake s (Only s · fun d => { d with sys := { d.sys with dozeArmed := false } }))

/-- A transition to another mode (R40, R47): the four effects at one instant, the application cores that no longer may
execute are in core reset, the bellows are stopped where the mode stops them, and the Stoker serves commands where R47
lets it. An open packet of a core that is reset ends with a fault of its own, so none is open here; a device reset that is
due discards a transition (R42). -/
def Obligations.ModeTransition : Prop :=
  ∀ (w : W) (m : Mode), w.dev.bobbin.opens = [] → w.due = [] → PoolTold w → HeldTold w →
    w.dev.sys.resetArmed = false →
    let d := w.dev
    let e := (w.setMode m).dev
    e.sys.mode = m ∧ e.sys.prev = d.sys.mode.code ∧ e.sys.seq = d.sys.seq + 1 ∧ e.sys.stamp = d.clock.tb ∧
    (m.coresRun = false → ∀ k, k < 64 → (e.core k).run = false) ∧
    (m.bellowsRun = false → ∀ h, h < 16 → (e.blw h).phase = .stopped ∧ (e.blw h).all = true) ∧
    (m.serves = false → e.stoker.serving = false) ∧
    (d.sys.mode.running = true → m.running = false → ∀ n, n < 64 →
      (e.damper n).st ≠ .live ∧ (e.damper n).st ≠ .armed ∧ (e.damper n).st ≠ .starting) ∧
    e.clock = d.clock

/-- The steps of KINDLE (R45, R50, R51, R54, R199, R203, R437, R444): a step that is not due changes nothing; each error
halts KINDLE with its code and step, and each good result completes its step. -/
def Obligations.KindleSteps : Prop :=
  ∀ (s : State),
    let d := s.dev
    let due := fun (r : KindleResult) => s.world.inStep (kindleStep r) = true
    let ends := fun (r : KindleResult) (P : State → Prop) => Answers (.kindleStepComplete r) s P
    let halts := fun (r : KindleResult) (err step : BitVec 4) =>
      ends r (Only s · fun d => { d with sys := { d.sys with kindleErr := err, errStep := step } })
    let done := fun (n : Nat) (t : State) => t.dev.sys.stepsDone = n :: d.sys.stepsDone ∧ t.dev.sys.mode = .kindle
    let blown := fun (b : BitVec 3) => if b = 3 ∨ b = 5 ∨ b = 6 then 7 else b
    (∀ r, ¬ due r → ends r (Only s · id)) ∧
    (due .selfCheck → d.clock.backup = true → halts .selfCheck 1 1) ∧
    (due .selfCheck → d.clock.backup = false → s.fuse.variantM = false →
      ends .selfCheck (Only s · fun d => { d with
        sys := { d.sys with stepsDone := 1 :: d.sys.stepsDone }, thm := { d.thm with up := false } })) ∧
    (due .selfCheck → d.clock.backup = false → s.fuse.variantM = true → ends .selfCheck fun t => t.dev.thm.up = d.thm.serves) ∧
    (due (.fuses false) → halts (.fuses false) 2 2) ∧
    (due (.fuses true) → ends (.fuses true) fun t =>
      t.fuse = { s.fuse with provisioned := blown s.fuse.provisioned, field := blown s.fuse.field,
                             returned := blown s.fuse.returned, scrapped := blown s.fuse.scrapped } ∧
      t.dev.sys.fusesRead = true ∧ t.mem = s.mem ∧
      (if t.world.lifecycle = 4 then t.dev.sys.kindleErr = 4 ∧ t.dev.sys.errStep = 2 ∧ t.dev.sys.stepsDone = d.sys.stepsDone
       else done 2 t)) ∧
    (∀ failed ok rows cols, due (.stoker failed ok rows cols) →
      let bad := (bitsOf 4 failed.toNat).length
      let fused := s.fuse.spares.getD 16 (0, 0)
      let spares := fused.1 + rows ≤ 8 ∧ fused.2 + cols ≤ 2
      (2 ≤ bad → halts (.stoker failed ok rows cols) 3 3) ∧
      (bad < 2 → ok = false ∨ ¬ spares → halts (.stoker failed ok rows cols) 5 3) ∧
      (bad < 2 → ok = true → spares → ends (.stoker failed ok rows cols) fun t =>
        (t.dev.seam 64).mode = .tmr ∧ (t.dev.core 64).run = true ∧ (t.dev.core 64).arch.pc = 0x10000 ∧
        (∀ l, l < 4 → (t.dev.lane (208 + l)).st =
          if bitAt failed l then .failed else if l = 3 ∧ bad = 0 then .spare else .active) ∧
        (bad = 0 → ∀ a, 0x10000000 ≤ a → a < 0x10100000 → t.mem.get a = 0))) ∧
    (due .spares → ends .spares fun t => done 4 t ∧
      ∀ h, h < 16 → (t.dev.hob h).rowsFree = BitVec.ofNat 6 (32 - (s.fuse.spares.getD h (0, 0)).1) ∧
        (t.dev.hob h).colsFree = BitVec.ofNat 4 (8 - (s.fuse.spares.getD h (0, 0)).2)) ∧
    (∀ c0 c1 c2 c3 rows, due (.dram c0 c1 c2 c3 rows) → ends (.dram c0 c1 c2 c3 rows) fun t =>
      let ts := [c0, c1, c2, c3]
      ∀ i x, ts[i]? = some x →
        ((t.dev.chan i).enabled = true ↔ x.ok = true ∧ ∀ y, ts.find? (·.ok) = some y → y.ranks = x.ranks ∧ y.density = x.density) ∧
        ((t.dev.chan i).enabled = false → x.ok = false → (t.dev.chan i).trainStep = x.step) ∧
        ((t.dev.chan i).enabled = true → (t.dev.chan i).trainStep = 0)) ∧
    (∀ ok, due (.image ok) →
      let b := d.sys.fallback
      let x := d.images.flash.mainSlot b
      let why := verify s.fuse x 1 0x1000000 s.world.lifecycle
      (d.hasStore = true → ok = true → why = 0 → ends (.image ok) fun t =>
        t.dev.sys.slotB = b ∧ 7 ∈ t.dev.sys.stepsDone ∧ t.dev.images.running = { len := x.len, head := x.head }) ∧
      (d.hasStore = false ∨ ok = false ∨ why ≠ 0 → ends (.image ok) fun t => ∃ r : Nat,
        (d.hasStore = true → r = if ok then why else 8) ∧ Detected s t 0x340 (w32 (b.toNat + 16 * r)) 0 d.clock.tb ∧
        if b then t.dev.sys.recovery = true ∧ 7 ∈ t.dev.sys.stepsDone
        else t.dev.sys.fallback = true ∧ t.dev.sys.stepsDone = d.sys.stepsDone)) ∧
    (due .lockout → ends .lockout (Only s · fun d => { d with
      sys := { d.sys with lockoutRec := d.images.flash.lockout, stepsDone := 8 :: d.sys.stepsDone } })) ∧
    (due .pattern → d.sys.lockoutRec = true → d.bobbin.opens = [] → PoolTold s.world → HeldTold s.world →
      d.sys.resetArmed = false → ends .pattern fun t => t.dev.sys.mode = .lockout ∧ t.dev.patGen = d.patGen + 1 ∧ t.dev.dram.born = d.clock.ivl) ∧
    (due .pattern → d.sys.lockoutRec = false →
      let w := s.world.upd fun d => { d with
        sys := { d.sys with stepsDone := 9 :: d.sys.stepsDone }, patGen := d.patGen + 1, dram := { d.dram with born := d.clock.ivl } }
      ends .pattern (Leaves s · fun _ =>
        (w.each ((List.range 16).filter fun h => bitAt d.sys.avail h) fun h v => v.loadHearth h).setMode .prepare))

/-- The host register page (R28, R64, R65, R471, R499): a host write wakes the device from DOZE; a tail that keeps the ring
rule takes its value and any other is a ring fault; a latched RING_RESET empties both rings, aborts the transaction of
the host, advances RING_EPOCH, and leaves the replies of what is pending unstored; APERTURE takes its value. A function that does not answer takes none of them. -/
def Sys2Proof.Says.HostRegisterPage : Prop :=
  ∀ (s : State) (v : Word32) (w : W),
    w = (if s.dev.sys.mode = .doze then s.world.setMode .prepare else s.world) →
    let k := w.dev.stoker
    let x : Byte := BitVec.ofNat 8 v.toNat
    let up := s.world.hostUp = true
    let sets := fun (i : Instr) (f : Stoker → Stoker) =>
      Answers i s (fun t => t = stateOf s (w.upd fun d => { d with stoker := f d.stoker }))
    let faults := fun (i : Instr) (b : Nat) => Answers i s fun t => t = stateOf s
      ((w.upd fun d => { d with stoker := { d.stoker with ringFaults := satInc d.stoker.ringFaults } }).raise 0x056
        (w32 (b + 256 * x.toNat)) 0)
    (¬ up → Answers (.cmdTailWrite v) s (Only s · id) ∧ Answers (.replyTailWrite v) s (Only s · id) ∧
      Answers (.ringReset v) s (Only s · id) ∧ Answers (.apertureWrite v) s (Only s · id)) ∧
    (up → k.resetDue = true → sets (.cmdTailWrite v) id) ∧
    (up → k.resetDue = false → (k.cmdTail - k.cmdHead).toNat ≤ (x - k.cmdHead).toNat →
      sets (.cmdTailWrite v) fun k => { k with cmdTail := x }) ∧
    (up → k.resetDue = false → (x - k.cmdHead).toNat < (k.cmdTail - k.cmdHead).toNat → faults (.cmdTailWrite v) 0) ∧
    (up → (x - k.replyTail).toNat ≤ (k.replyHead - k.replyTail).toNat →
      sets (.replyTailWrite v) fun k => { k with replyTail := x }) ∧
    (up → (k.replyHead - k.replyTail).toNat < (x - k.replyTail).toNat → faults (.replyTailWrite v) 1) ∧
    (up → v ≠ 0xA5A5 → sets (.ringReset v) id) ∧
    (up → v = 0xA5A5 → k.serving = false → sets (.ringReset v) fun k => { k with resetDue := true }) ∧
    (up → v = 0xA5A5 → k.serving = true → Answers (.ringReset v) s fun t => t = stateOf s
      (((w.upd fun d => { d with stoker := { d.stoker with resetDue := true } }).abortTxnOf 0).upd fun d => { d with
        stoker := { d.stoker with cmdTail := 0, cmdHead := 0, replyTail := 0, replyHead := 0, epoch := d.stoker.epoch + 1,
                                  resetDue := false, sources := d.stoker.sources.erase 0,
                                  pends := d.stoker.pends.map fun q => if q.src = 0 then { q with stale := true } else q },
        chim := { d.chim with forwards := d.chim.forwards.map fun f => if srcKey f.pkt = 0 then { f with stale := true } else f } })) ∧
    (up → sets (.apertureWrite v) fun k => { k with aperture := BitVec.ofNat 16 v.toNat })

/-- Requests of the PCIe host and its link (R23, R24, R27, R53, R178, R499, R500): BAR2 with the APERTURE reaches a hob, a
write of BAR0 fills the command ring, a configuration request is answered while the link is up, and the link's loss and
return raise and end PCIE_LINK_DOWN. -/
def Obligations.HostRequests : Prop :=
  ∀ (s : State) (off : Word32) (n : Nat) (bs : List Byte) (u : Nat) (co : BitVec 12) (v : Word32),
    let d := s.dev
    let a := d.stoker.aperture.toNat * 2 ^ 32 + off.toNat
    let host := s.world.hostRid
    let up := s.world.hostUp = true ∧ d.sys.mode ≠ .doze ∧ d.fifoOpen 0 = true
    let both := up ∧ d.fifoOpen 1 = true
    let w1 := s.world.upd fun d => d.crossed 0
    let w2 := s.world.upd fun d => (d.crossed 0).crossed 1
    let k := hobMaster d.chim.pos u host
    let o := co.toNat / 4 * 4
    let cfgUp := d.ports.pcieUp = true ∧ d.ports.pcieDead = false ∧ d.sys.mode ≠ .off ∧ d.sys.mode ≠ .hold
    (s.world.hostUp = false → Answers (.hostRead true off n) s (Only s · id) ∧ Answers (.hostWrite true off bs) s (Only s · id)) ∧
    (s.world.hostUp = true → d.sys.mode ≠ .doze → d.fifoOpen 0 = false → ∀ b,
      Answers (.hostRead b off n) s (Only s · id) ∧ Answers (.hostWrite b off bs) s (Only s · id)) ∧
    (both → Reaches s.world host u a n .read → Answers (.hostRead true off n) s fun t => t = stateOf s
      ((w2.granted u k).answer (if n ≤ 8 then .word (w64 (hobWord s a n)) else .bytes ((List.range n).map fun i => s.mem.get (a + i))))) ∧
    (up → Reaches s.world host u a bs.length .write → Answers (.hostWrite true off bs) s fun t =>
      StoresAt s t a bs.length (ofLe bs) ∧ t.dev = ((w1.granted u k).answer .done).dev ∧ t.fuse = s.fuse ∧ t.pending = s.pending) ∧
    (both → off.toNat < 0x1000000 → Answers (.hostRead false off n) s fun t =>
      t = stateOf s (w2.answer (.bytes (w2.bar0Read off.toNat n)))) ∧
    (up → 0x100000 ≤ off.toNat → off.toNat + bs.length ≤ 0x200000 → Answers (.hostWrite false off bs) s fun t =>
      (∀ k, t.dev.stoker.cmdRing.getD k 0 =
        if off.toNat ≤ k + 0x100000 ∧ k + 0x100000 < off.toNat + bs.length then bs.getD (k + 0x100000 - off.toNat) 0
        else d.stoker.cmdRing.getD k 0) ∧
      t = stateOf s (w1.upd fun d => { d with out := .done, stoker := { d.stoker with cmdRing := t.dev.stoker.cmdRing } })) ∧
    (up → off.toNat < 0x10000 → Answers (.hostWrite false off bs) s fun t =>
      t = stateOf s ((w1.raiseAddr 0x050 (BitVec.ofNat 48 off.toNat) host).answer .done)) ∧
    (¬ cfgUp → Answers (.configurationRequest co none) s (Only s · id) ∧ Answers (.configurationRequest co (some v)) s (Only s · id)) ∧
    (cfgUp → Answers (.configurationRequest co none) s fun t => ∃ x : Word64,
      Only s t (fun d => { d with out := .word x }) ∧ (o = 0 → fld x 16 16 = 0x6430) ∧ (o = 8 → fld x 8 24 = 0x0B4000) ∧
      (o = 0x10 → x.toNat % 0x1000000 = 4) ∧ (o = 0x18 → x = 4) ∧
      (o = 0x34 → x = 0x40) ∧ (o = 0x40 → fld x 0 16 = 0x5001) ∧ (o = 0x50 → fld x 0 16 = 0x0010) ∧ (o = 0x100 → fld x 0 16 = 1 ∧ fld x 20 12 = 0)) ∧
    (cfgUp → o = 0x44 → Answers (.configurationRequest co (some v)) s (Only s · fun d => { d with
      out := .done, ports := { d.ports with
        d3hot := if fld v 0 2 = 3 then true else if fld v 0 2 = 0 then false else d.ports.d3hot } })) ∧
    (cfgUp → o ≠ 0x44 → o ∈ [4, 0xC, 0x10, 0x14, 0x1C, 0x3C, 0x58, 0x60] →
      Answers (.configurationRequest co (some v)) s (Only s · fun d => { d with
        out := .done, ports := { d.ports with cfg := d.ports.cfg.set o v } })) ∧
    (cfgUp → o ≠ 0x44 → o ∉ [4, 0xC, 0x10, 0x14, 0x1C, 0x3C, 0x58, 0x60] →
      Answers (.configurationRequest co (some v)) s (Only s · fun d => { d with out := .done })) ∧
    (d.ports.pcieUp = false → Answers .pcieLinkDown s (Only s · id)) ∧
    (d.ports.pcieUp = true → Answers .pcieLinkDown s fun t => LevelDetected s t 0x3C0 0 0 d.clock.tb ∧
      Beside s t fun d => { d with ports := { d.ports with pcieUp := false, d3hot := false } }) ∧
    (d.ports.pcieDead = true ∨ d.sys.mode = .off ∨ d.sys.mode = .hold → Answers .pcieLinkUp s (Only s · id)) ∧
    (d.ports.pcieDead = false → d.sys.mode ≠ .off → d.sys.mode ≠ .hold → Answers .pcieLinkUp s fun t =>
      (t.dev.src 0x3C0).active = false ∧ t.mem = s.mem ∧
      Beside s t fun d => { d with ports := { d.ports with pcieUp := true, d3hot := false } })

/-- The maintenance SPI (R471, R503): every transaction answers the status byte first; a frame that is not whole or out of
range is FRAME_ERR with its source; in DOZE a chip select wakes the device; without power, in reset, or past a boundary FIFO that takes nothing, nothing answers. -/
def Obligations.MaintenanceSpi : Prop :=
  ∀ (s : State) (len off : BitVec 16) (whole : Bool) (bs : List Byte),
    let p := s.dev.ports
    let m := s.dev.sys.mode
    let st : Byte := BitVec.ofNat 8 (p.mspiIn.isNone.toNat + 2 * (!p.mspiOut.isEmpty).toNat + 4 * p.frameErr.toNat +
      8 * (m != .doze).toNat)
    let passes := s.dev.fifoOpen 28 = true ∧ s.dev.fifoOpen 29 = true
    let on := m ≠ .off ∧ m ≠ .hold ∧ m ≠ .doze ∧ passes
    let c := fun (d : Dev) => (d.crossed 28).crossed 29
    let rows : List (Instr × Bool) :=
      [(.mspiWriteCmd len whole bs, whole && decide (16 ≤ len.toNat ∧ len.toNat ≤ 4096) && bs.length == len.toNat),
       (.mspiReadReply whole, whole), (.mspiReadPoll off len whole, whole && decide (off.toNat + len.toNat ≤ 4096)),
       (.mspiReadPattern off len whole, whole && decide (off.toNat + len.toNat ≤ 65536)), (.mspiStatus, true)]
    (∀ r ∈ rows,
      (m = .off ∨ m = .hold ∨ ¬ passes → Answers r.1 s (Only s · id)) ∧
      (m = .doze → passes → Answers r.1 s (Leaves s · fun w => (w.setMode .prepare).answer (.bytes [st]))) ∧
      (on → r.2 = false → Answers r.1 s fun t => Detected s t 0x3C4 0 0 s.dev.clock.tb ∧ t.dev.out = .bytes [st] ∧
        Beside s t fun d => { d with ports := { d.ports with frameErr := true } })) ∧
    (on → whole = true → 16 ≤ len.toNat → len.toNat ≤ 4096 → bs.length = len.toNat →
      Answers (.mspiWriteCmd len whole bs) s (Only s · fun d => { c d with out := .bytes [st], ports := { d.ports with
        mspiIn := if d.ports.mspiIn = none then some bs else d.ports.mspiIn } })) ∧
    (on → whole = true → Answers (.mspiReadReply whole) s fun t => match p.mspiOut with
      | [] => Only s t fun d => { c d with out := .bytes [st, 0, 0] }
      | r :: rs => Only s t fun d => { c d with
                                              out := .bytes (st :: le 2 r.bytes.length ++ r.bytes),
                                              ports := { d.ports with mspiOut := rs } }) ∧
    (on → whole = true → off.toNat + len.toNat ≤ 4096 → Answers (.mspiReadPoll off len whole) s (Only s · fun d => { c d with
      out := .bytes (st :: (List.range len.toNat).map fun i =>
        let o := off.toNat + i
        byteOf (s.world.mspiWord (o / 4 * 4)) (o % 4)) })) ∧
    (on → whole = true → off.toNat + len.toNat ≤ 65536 → Answers (.mspiReadPattern off len whole) s (Only s · fun d => { c d with
      out := .bytes (st :: s.world.patRead off.toNat len.toNat) })) ∧
    (on → Answers .mspiStatus s (Only s · fun d => { c d with out := .bytes [st], ports := { d.ports with frameErr := false } }))

/-- Packets that are not executed where they arrive, and those that waited (R67, R68, R70, R73, R486): an opcode that is
not listed, a packet for another position, which waits here for its FENCE, the reply of a course, and the start of a waiting
command. -/
def Sys2Proof.Says.PacketsElsewhere : Prop :=
  (∀ (s : State) (opc : Half) (p : Packet) (w : W), Passes s opc.toNat p w →
    (p.target = 0xFF ∨ p.target.toNat = s.dev.chim.pos.toNat → s.world.cmdInfo opc.toNat = none →
      Answers (.unknownOpcode opc p) s (Ends s · opc.toNat p w 0x100 [])) ∧
    (p.target ≠ 0xFF → p.target.toNat ≠ s.dev.chim.pos.toNat → s.world.otherPos p.target = false →
      s.world.cmdInfo opc.toNat = none → Answers (.unknownOpcode opc p) s (Ends s · opc.toNat p w 0x102 [])) ∧
    (s.dev.chim.pos = 0 → 0 < p.target.toNat → p.target.toNat < s.dev.chim.members.toNat →
      let pos := p.target.toNat
      let n := (s.dev.chim.forwards.filter fun f => f.pos.toNat == pos).length
      let no := Answers (.commandForward opc p) s (Ends s · opc.toNat p w 0x204 [])
      if s.world.fenced s.dev.stoker.pends s.dev.chim.fwdNext p = true then
        if s.dev.stoker.pends.length < 32 then Answers (.commandForward opc p) s fun t =>
          t = stateOf s (((w.reply p opc sPending false []).addPend p opc false 0).sessionLimit p)
        else no
      else if (s.dev.course pos).reach = true ∧ n < 16 then
        Answers (.commandForward opc p) s fun t => t = stateOf s ((w.upd fun d => { d with chim := { d.chim with
          forwards := d.chim.forwards ++ [{ pos := BitVec.ofNat 3 pos, opc := opc, pkt := p, id := d.chim.fwdNext }]
          fwdNext := d.chim.fwdNext + 1 } }).sessionLimit p)
      else no)) ∧
  (∀ (s : State) (pos : BitVec 3) (origin : Nat) (seq status : Half) (final : Bool) (mode : BitVec 4) (result : List Word32),
    let row := Instr.forwardedReply pos seq status final mode result origin
    let found := s.dev.chim.forwards.find? fun f =>
      f.pos == pos && srcKey f.pkt == origin && f.pkt.seq == seq
    (found = none → Answers row s (Only s · id)) ∧
    (∀ f, found = some f → final = false → f.told = true → Answers row s (Only s · id)) ∧
    (∀ f, found = some f → srcKey f.pkt = 0 → final = true ∨ f.told = false → Answers row s fun t =>
      let r : Reply := { opc := f.opc, seq := f.pkt.seq, status := status, mode := mode, pos := pos, final := final,
                         result := wordsLe result }
      t.dev.stoker.replies.get? s.dev.stoker.replyHead.toNat = some r ∧ t.dev.stoker.replyHead = s.dev.stoker.replyHead + 1 ∧
      t.dev.chim.forwards = (if final then s.dev.chim.forwards.erase f else s.dev.chim.forwards) ∧
      (f.stale = false → (s.dev.cmdSrc 0).expect = some (f.pkt.seq + 1) → (t.dev.cmdSrc 0).stored = some r)) ∧
    (∀ f, found = some f → srcKey f.pkt ≠ 0 → Answers row s (Leaves s · fun w =>
      let k := srcKey f.pkt
      let r := w.replyFrom mode pos f.pkt f.opc status.toNat final (wordsLe result) true
      let v := if final then w.upd fun d => { d with chim := { d.chim with forwards := d.chim.forwards.erase f } } else w
      if v.listens k = false ∨ (final = false ∧ f.told = true) then v
      else if f.stale then v.deliver k r else (v.deliver k r).store k r))) ∧
  (∀ (s : State) (n : Nat),
    (nthWaiting n [] s.dev.stoker.pends = none → Answers (.pendingCommandStart n) s (Only s · id)) ∧
    (∀ q before, nthWaiting n [] s.dev.stoker.pends = some (q, before) → s.world.otherPos q.pkt.target = true →
      let go := s.dev.stoker.serving = true ∧ s.dev.sys.resetArmed = false ∧ s.world.fenced before q.fwd q.pkt = false
      (¬ go → Answers (.pendingCommandStart n) s (Only s · id)) ∧
      (go → Answers (.pendingCommandStart n) s (Leaves s · fun w =>
        if w.courseTakes q.pkt.target.toNat then (w.dropPend q).sendOn q.opc q.pkt true q.stale else w.finish q 0x204 []))) ∧
    (∀ q before i, nthWaiting n [] s.dev.stoker.pends = some (q, before) → s.world.cmdInfo q.opc.toNat = some i →
      s.world.otherPos q.pkt.target = false →
      let go := s.dev.stoker.serving = true ∧ s.dev.sys.resetArmed = false ∧
        s.world.waitsFor s.world.objs before q.fwd q.opc.toNat q.pkt = false
      (¬ go → Answers (.pendingCommandStart n) s (Only s · id)) ∧
      (go → s.world.modeOk i = false → Answers (.pendingCommandStart n) s (Leaves s · fun w =>
        ((w.spent i.opc q.pkt).finish q 0x200 []).sessionLimit q.pkt)) ∧
      (go → s.world.modeOk i = true → Answers (.pendingCommandStart n) s fun t =>
        match bodyOf q.opc.toNat q.pkt s.world with
        | .fin w st r => t = { stateOf s ((w.finish q st r).sessionLimit q.pkt) with fuse := w.fuse }
        | .pend w key go => t = { stateOf s (go (w.setRunning q key)) with fuse := (go (w.setRunning q key)).fuse })))

/-- Staged values, commits and plain registers (R30, R31, R35 to R38, R299): GO takes a snapshot, or OVERRUN while BUSY; at
the commit point the rules hold and every snapshot value becomes active, or CONFLICT_AT names the lowest register at
fault; STAGE_DISCARD makes the staged values the active ones of now; a register write stores, stages, acts or is ignored;
another width is REGISTER_WIDTH. That a COMMIT of HEARTH_h by an expert starts its bellows in MAINTAIN is the model's choice
(log entry 153). -/
def Obligations.RegisterBlocks : Prop :=
  ∀ (s : State) (m : Rid) (b : BlockId) (v : Word32) (w : W),
    let d := s.dev
    let typ := b.typ.toNat
    let inst := b.inst.toNat
    let base := blockBase typ inst
    let c := d.commit base
    let snap := d.regs.staged.keep (inBlock typ inst)
    (WriteReaches s m typ inst 8 v w →
      Answers (.commit m b v) s (Written s · w fun w => w.upd fun d =>
        if bitAt v 0 = false then d
        else
          let d := if hasStaged typ = false then d
            else d.onCommit base fun c => if c.state = .busy then { c with overrun := true }
              else { c with state := .busy, overrun := false, late := false, snap := snap }
          if typ = 16 ∧ s.dev.sys.mode = .maintain ∧ m ≠ s.world.stokerRid then d.onBlw inst fun x => { x with expert := true }
          else d)) ∧
    (WriteReaches s m typ inst 0x14 v w →
      Answers (.stageDiscard m b v) s (Written s · w fun w => w.upd fun d =>
        if bitAt v 0 = false ∨ hasStaged typ = false then d
        else
          let kept := d.regs.staged.keep fun a => !inBlock typ inst a
          ({ d with regs := { d.regs with
            staged := c.snap.rows.foldl (fun t (r : Nat × Word32) => t.set r.1 (w.reg typ inst (r.1 - base))) kept } }).onCommit base
            fun c => { c with dirty := false, late := false })) ∧
    (allBlocks.contains (typ, inst) = false → Answers (.commitPoint b) s (Only s · id)) ∧
    (allBlocks.contains (typ, inst) = true → d.stoker.txn = none →
      let rules := s.world.strayRules c.snap typ inst ++ commitRules s.world (s.world.applied c.snap) typ inst
      (c.state ≠ .busy ∨ typ = 2 ∧ d.flue.reacting = true → Answers (.commitPoint b) s (Only s · id)) ∧
      (c.state = .busy → (typ ≠ 2 ∨ d.flue.reacting = false) → ∀ o os, rules = o :: os →
        Answers (.commitPoint b) s (Only s · fun d => d.onCommit base fun c =>
          { c with state := .conflict, conflictAt := w32 (os.foldl min o), snap := ⟨[]⟩, late := false })) ∧
      (c.state = .busy → (typ ≠ 2 ∨ d.flue.reacting = false) → rules = [] → (c.snap.rows.map (·.1)).Nodup →
        Answers (.commitPoint b) s fun t =>
          t.dev.commit base = { c with state := .done, seq := c.seq + 1, dirty := c.late, conflictAt := 0xFFFFFFFF,
                                       snap := ⟨[]⟩, late := false, everDone := true } ∧
          ∀ a, errReg a = false →
            t.dev.regs.val.get? a = ((c.snap.get? a).map (s.world.cook a)).or (d.regs.val.get? a))) ∧
    (allBlocks.contains (typ, inst) = true → d.stoker.txn ≠ none →
      Answers (.commitPoint b) s (Leaves s · fun w => (w.commitPoint typ inst).txnSettle)) ∧
    (∀ o, WriteReaches s m typ inst o v w → o % 4 = 0 → o < halfSpan typ → o ≠ 8 → o ≠ 0x14 →
      let row := Instr.registerWrite m (BitVec.ofNat 48 (base + o)) 4 v
      (∀ x, w.action m typ inst o v = some x → Answers row s (Written s · w fun _ => x)) ∧
      (w.action m typ inst o v = none → w.regRow typ o = none → Answers row s (Written s · w id)) ∧
      (∀ r, w.action m typ inst o v = none → w.regRow typ o = some r →
        (r.kind = .kept ∨ r.kind = .rws ∧ r.mask = 0 ∨ r.kind = .rw ∧ typ = 16 ∧ w.bankHeld inst o = true →
          Answers row s (Written s · w id)) ∧
        (r.kind = .rws → r.mask ≠ 0 → Answers row s (Written s · w fun w => w.upd fun d =>
          ({ d with regs := { d.regs with staged := d.regs.staged.set (base + o) v } }).onCommit base fun c =>
            { c with dirty := true, late := c.late || c.state == CommitState.busy })) ∧
        (r.kind = .rw → ¬ (typ = 16 ∧ w.bankHeld inst o = true) → Answers row s (Written s · w fun w => w.upd fun d =>
          { d with regs := { d.regs with
            val := d.regs.val.set (base + o) (if typ = 16 ∧ 0x800 ≤ o then v else r.merge v) } })))) ∧
    (∀ o n, WriteReaches s m typ inst o v w → o % 8 = 0 → o < halfSpan typ → n = 1 ∨ n = 2 ∨ n = 8 →
      Answers (.registerWrite m (BitVec.ofNat 48 (base + o)) n v) s fun t =>
        Detected s t 0x051 0 0 d.clock.tb ∧ Beside s t id)

/-- POLL_REFRESH (R53, R85, R86): the page takes the values of one instant and PAGE_SEQ goes on by 2; while the page is dark
or the Stoker does not run, nothing is written. -/
def Sys2Proof.Says.PollPageRefresh : Prop :=
  ∀ s : State,
    let d := s.dev
    let dark := d.sys.mode = .off ∨ d.sys.mode = .hold ∨ d.sys.mode = .kindle
    let up := (d.seam 64).mode ≠ .halted ∧ d.stoker.restarting = false
    (dark ∨ ¬ up → Answers .pollRefresh s (Only s · id)) ∧
    (¬ dark → up → Answers .pollRefresh s fun t =>
      let g := fun o => t.dev.stoker.page.getD o 0
      Only s t (fun d => { d with stoker := { d.stoker with
        pageSeq := d.stoker.pageSeq + 2, crossed := [], page := t.dev.stoker.page } }) ∧
      (g 0x10).toNat + 2 ^ 32 * (g 0x14).toNat = d.clock.tb.toNat ∧ g 0x34 = d.flue.events ∧
      g 0x60 = w32 d.stoker.grants.length ∧ g 0x64 = d.stoker.xnext ∧
      g 0x28 = (match (d.cmdSrc 0).expect with | some e => w32 e.toNat | none => 0x10000) ∧
      ∀ i, i < 128 → ∀ j, j < 32 → bitAt (g (0x100 + 4 * i)) j =
        ((d.queue (32 * i + j)).atLevel || d.stoker.crossed.contains (32 * i + j)))

/-- The action registers (R122, R209, R210, R245, R267, R344, R355, R365, R393, R447, R457, R459, R461, R464, R474): what a
write that reaches each of them does. -/
def Obligations.RegisterActions : Prop :=
  ∀ (s : State) (m : Rid) (v : Word32) (w : W) (h : HearthId) (u : UnitId) (ch : Fin 4) (lane : BitVec 4),
    let at_ := fun (i : Instr) (typ inst o : Nat) (x : Word32) (f : W → W) =>
      WriteReaches s m typ inst o x w → Answers i s (Written s · w f)
    let dev := fun (f : Dev → Dev) (w : W) => w.upd f
    let l := lane.toNat
    let lanes := fun (st : BitVec 2) (f : Option Nat) => dev fun d => d.onLaneUnit h fun x =>
      { x with cmdState := st, cmdLane := lane, cmdFence := f }
    let busy := (w.dev.laneUnit h).cmdState = 1
    let st := (w.laneAt h l).st
    let mode := fld v 0 2
    let k := fld v 2 3
    let hobOff := fun o => if u.val < 16 then (16, u.val, o) else (1, 0, o)
    let e := 25000 * ((w.dev.images.cut.map fun c => c.fc.toNat).getD 0 +
      ((codeOf w.dev.images.stage.head h).map (·.check)).getD 0)
    at_ (.laneCmdFence m h lane) 16 h 0x12C (w32 (l + 0x10)) (fun w => if busy then w
      else if 13 ≤ l ∨ (w.fenceCheck h l).isSome then lanes 3 none w
      else (lanes 1 ((w.seat h l).map (·.1)) w).fence h l 6) ∧
    at_ (.laneCmdRetest m h lane) 16 h 0x12C (w32 (l + 0x20)) (fun w => if busy then w
      else if 13 ≤ l ∨ (st ≠ .fenced ∧ st ≠ .failed) then lanes 3 none w else (lanes 1 none w).retest h l) ∧
    at_ (.hobInject m u v) (hobOff 0x22C).1 (hobOff 0x22C).2.1 0x22C v (dev fun d => if mode = 3 then d
      else d.onHob u fun x => { x with inject :=
        if k = 7 ∨ u.val = 16 ∧ k = 2 ∨ mode = 0 then none else some (BitVec.ofNat 2 mode, k) }) ∧
    (WriteReaches s m (hobOff 0x228).1 (hobOff 0x228).2.1 0x228 v w → Answers (.hobCntClear m u v) s fun t =>
      ∃ x : W, Written s t w (fun _ => x) ∧ x.ops = w.ops ∧ x.dev = { w.dev with regs := x.dev.regs } ∧
      ∀ o, x.hobReg u o =
        if bitAt v 0 = true ∧ (o = 0x20C ∨ o = 0x210 ∨ 0x240 ≤ o ∧ o < 0x260 ∧ o % 4 = 0) then 0 else w.hobReg u o) ∧
    at_ (.ctxResume m h v) 16 h 0x344 v (dev fun d =>
      if bitAt v 8 = true ∧ (d.blw h).faulted.contains (fld v 0 8) = true then
        d.onBlw h fun b => { b with resume := fld v 0 8 :: b.resume.filter (· != fld v 0 8) }
      else d) ∧
    at_ (.blwInject m h v) 16 h 0x340 v (dev fun d => if fld v 8 2 = 3 then d
      else d.onBlw h fun b => { b with inject := if fld v 8 2 = 0 then none else some (fld v 0 8, fld v 8 2) }) ∧
    at_ (.blwCntClear m h v) 16 h 0x348 v (fun w => if bitAt v 0
      then ((w.setReg 16 h 0x328 0).setReg 16 h 0x32C 0).setReg 16 h 0x330 0xFFFF else w) ∧
    at_ (.stepGo m v) 5 0 0x44 v (fun w => if bitAt v 0 = true ∧ w.stepMode = true ∧ w.tbSource ≠ 5
      then w.step (w64 ((w.reg 5 0 0x3C).toNat + 2 ^ 32 * (w.reg 5 0 0x40).toNat)) else w) ∧
    at_ (.retireAdd m v) 10 0 0x60 v (dev fun d =>
      let p := fld v 0 23
      let r := d.dram.retired
      if bitAt v 31 = false ∨ r.any (fun x => x.1 == p) = true ∨ 1024 ≤ r.length then d
      else { d with dram := { d.dram with retired := r ++ [(p, false)] } }) ∧
    at_ (.memcCntClear m ch v) 10 ch 0x5C v (fun w => if bitAt v 0 then
      dev (fun d => d.onChan ch fun c => { c with log := [] })
        ((((w.setReg 10 ch 0x28 0).setReg 10 ch 0x2C 0).setReg 10 ch 0x30 0).setReg 10 ch 0x48 0) else w) ∧
    at_ (.bobCntClear m v) 8 0 0x5C v (fun w => if bitAt v 0
      then ((w.setReg 8 0 0x50 0).setReg 8 0 0x54 0).setReg 8 0 0x58 0 else w) ∧
    at_ (.basteGo m v) 14 0 0x34 v (fun w =>
      let u := fld v 0 5
      if 17 ≤ u ∨ w.basteOn u = false then w
      else if w.dev.sys.mode.bastes = false then dev (fun d => d.onBu u fun b =>
        { b with deferred := true, blwDue := b.blwDue || (!b.deferred && b.next == 0) }) w
      else
        let x := (w.turnDue u).blwResume u
        if x.turn u = .defer then dev (fun d => d.onBu u fun b => { b with deferred := true }) x else x.takeTurn u (x.turn u)) ∧
    at_ (.voteCmd m v) 4 0 0x38 v (fun w =>
      let n := fld v 0 8
      if w.hasDomain n = false then w
      else if 241 ≤ n then (dev (fun d => d.onDom n fun x => { x with lastId := m, lastCause := 4 })
        (dev (fun d => d.onDom n fun x => { x with refused := satInc x.refused }) w)).raise 0x06C
        (pwrDetail n 4) (ridDetail m)
      else dev (fun d => d.onDom n fun x =>
        { x with votes := setBit x.votes (if m = w.stokerRid then 1 else if ridClass m = 7 then 9 else 8) (bitAt v 8),
                 waits := x.waits && !bitAt v 8 }) w) ∧
    at_ (.padRel m v) 4 0 0x3C v (fun w =>
      let n := fld v 0 8
      ((if n = 0xFF then List.range 244 else [n]).filter fun k => (w.dev.dom k).padHold && (w.dev.dom k).st == .on).foldl
        (fun w k => dev (fun d => d.onDom k fun x => { x with padHold := false }) w) w) ∧
    at_ (.acctClear m v) 4 0 0x40 v (fun w => if bitAt v 0
      then (List.range 244).foldl (fun w n => dev (fun d => d.onDom n fun x => { x with refused := 0, aborted := 0 }) w) w else w) ∧
    (WriteReaches s m 16 h 0x1004 v w →
      let j := (List.range 4).find? fun j => w.isCore (4 * h + j) m
      let live := ∃ c go, w.dev.images.cut = some c ∧ c.switched = some go ∧ bitAt c.hearths h = true
      let good := live ∧ fld v 16 16 = 0xC07E ∧ w.dev.clock.tb.toNat < e
      (¬ good ∨ j = none → Answers (.cutPass m h v) s (Written s · w id)) ∧
      (∀ i, good → j = some i → bitAt v 0 = true → Answers (.cutPass m h v) s (Written s · w (dev fun d =>
        d.onCutStat h fun t => { t with passed := setBit t.passed i true }))) ∧
      (∀ i, good → j = some i → bitAt v 0 = false → Answers (.cutPass m h v) s (Written s · w fun w =>
        (dev (fun d => d.onCutStat h fun t => { t with failed := setBit t.failed i true }) w).cutFail h 2)))

/-- The vote of a seam (R88 to R94, R97): the token of a lane opens a position or joins the oldest that lacks its slot; two equal
tokens are accepted, a token that differs from them fences its lane in TMR, and a position without agreement halts the
core; in DMR any difference halts it. A token that would be accepted into a full compare queue waits, for beats that are free.
Request tokens go the same way, with the cause of their own. -/
def Obligations.SeamVote : Prop :=
  ∀ (s : State) (c : CoreId) (slot : Slot) (tok : LaneCommit) (req : LaneRequest),
    let x := s.dev.seam c
    let i := slotNo slot
    let n := x.filled.length
    let votes := x.shown ≠ .halted ∧ ∃ l, x.at i = some l ∧ (s.world.laneAt (unitOf c) l).st = .active
    let lane := fun (w : W) (j : Nat) (cause : BitVec 3) => match (w.dev.seam c).at j with
      | some l => w.fence (unitOf c) l cause
      | none => w
    let waits := fun (row : Instr) => Answers row s (Leaves s · fun w => if x.room then w
      else w.fresh.2.upd fun d => d.beatCore c fun q => q.waits (Config.freeWord w.fresh.1).toNat)
    let rules := fun {τ : Type} (t : τ) (ps : List (Pos τ)) (row : Instr) (put : List (Pos τ) → Dev → Dev)
        (cause : BitVec 3) =>
      let ends := fun (qs : List (Pos τ)) => Answers row s (Only s · (put qs))
      let after := fun (qs : List (Pos τ)) (f : W → W) => Answers row s (Leaves s · fun w => f (w.upd (put qs)))
      (¬ votes → Answers row s (Only s · id)) ∧
      (votes → (∀ p ∈ ps, ∃ y ∈ p.toks, y.1 = i) →
        if x.room = true ∧ x.rethread = none then ends (ps ++ [{ toks := [(i, t)] }]) else waits row) ∧
      (∀ pre p qs, votes → ps = pre ++ p :: qs → (∀ q ∈ pre, ∃ y ∈ q.toks, y.1 = i) → (∀ y ∈ p.toks, y.1 ≠ i) →
        let p' : Pos τ := { p with toks := p.toks ++ [(i, t)] }
        (p.toks = [] → p.accepted = none → ends (pre ++ p' :: qs)) ∧
        (∀ j a, p.toks = [(j, a)] → p.accepted = none →
          (a = t → if n = 2 then ends (pre ++ qs) else if n = 3 ∧ x.room = false then waits row
            else ends (pre ++ { p' with accepted := some t } :: qs)) ∧
          (a ≠ t → n ≠ 2 → ends (pre ++ p' :: qs)) ∧
          (a ≠ t → n = 2 → after (pre ++ p' :: qs) fun w => w.haltCore c 1 (some 4))) ∧
        (∀ j k a b, p.toks = [(j, a), (k, b)] → p.accepted = none → a ≠ b →
          (t = a → after (pre ++ { p' with accepted := some t } :: qs) (lane · k cause)) ∧
          (t = b → after (pre ++ { p' with accepted := some t } :: qs) (lane · j cause)) ∧
          (t ≠ a → t ≠ b → after (pre ++ p' :: qs) fun w => w.haltCore c 2 (some 4))) ∧
        (∀ j k a, p.toks = [(j, a), (k, a)] → p.accepted = some a → n = 3 →
          (t = a → ends (pre ++ qs)) ∧ (t ≠ a → after (pre ++ p' :: qs) (lane · i cause))))
    rules (commitToken tok) x.commits (.commitToken c slot tok) (fun qs d => d.onSeam c fun x => { x with commits := qs }) 1 ∧
    rules (requestToken req) x.requests (.requestToken c slot req)
      (fun qs d => d.onSeam c fun x => { x with requests := qs }) 3

/-- Windows, monitors and checks of the seams and the routers (R92, R93, R97, R98, R101, R235): an expired straggler window
fences the lane that is late or halts the core, a stalled stage does what its place asks, SEAM_CHECK halts the core, and a
failed check of a routed token is LINK_CHECK with an error response. The Stoker's core reset clears its HALT_CAUSE. -/
def Obligations.SeamMonitors : Prop :=
  ∀ (s : State) (c : CoreId) (u : UnitId) (l : LaneNo) (h : HearthId) (m : Rid) (wr : Bool) (n : Word32),
    let x := s.dev.seam c
    let uc := unitOf c
    let idle := fun {τ : Type} (p : Pos τ) => if x.mode = .tmr then p.accepted = none ∧ p.toks.length ≠ 2 else p.toks.length ≠ 1
    let late := fun {τ : Type} (p : Pos τ) =>
      (∀ i k, x.mode = .tmr → p.accepted.isSome = true → i < 3 → x.at i = some k → (∀ y ∈ p.toks, y.1 ≠ i) →
        (∀ j, j < i → (x.at j).isSome = true → ∃ y ∈ p.toks, y.1 = j) →
        Answers (.stragglerWindowExpiry c) s (Leaves s · fun w => w.fence uc k 2)) ∧
      (x.mode = .tmr → p.accepted = none → p.toks.length = 2 →
        Answers (.stragglerWindowExpiry c) s (Leaves s · fun w => w.haltCore c 2 (some 4))) ∧
      (x.mode = .dmr → p.toks.length = 1 →
        Answers (.stragglerWindowExpiry c) s (Leaves s · fun w => w.haltCore c 3 (some 4)))
    (x.mode = .halted → Answers (.stragglerWindowExpiry c) s (Only s · id)) ∧
    ((∀ p ∈ x.commits, idle p) → (∀ p ∈ x.requests, idle p) → Answers (.stragglerWindowExpiry c) s (Only s · id)) ∧
    (∀ pre p qs, x.commits = pre ++ p :: qs → (∀ q ∈ pre, idle q) → late p) ∧
    (∀ pre p qs, (∀ q ∈ x.commits, idle q) → x.requests = pre ++ p :: qs → (∀ q ∈ pre, idle q) → late p) ∧
    (match s.world.seat u l with
     | none => Answers (.stallMonitorExpiry (.lane u l)) s (Only s · id)
     | some (k, _) =>
      let y := s.dev.seam k
      if y.rethread.isSome = true ∨ (s.world.laneAt u l).st ≠ .active ∨ y.shown = .halted then
        Answers (.stallMonitorExpiry (.lane u l)) s (Only s · id)
      else Answers (.stallMonitorExpiry (.lane u l)) s (Leaves s · fun w =>
        if y.shown = .tmr then w.fence u l 4 else w.haltCore k 6 (some 4))) ∧
    (Answers (.stallMonitorExpiry (.seam c)) s (Leaves s · fun w =>
      if x.rethread.isSome ∨ x.reset = true then w else w.haltCore c 5 (some 6))) ∧
    (Answers (.stallMonitorExpiry (.bellows h)) s (Leaves s · fun w =>
      ((w.upd fun d => d.onBlw h fun b => { b with checked := true }).stopOne h).level (0x240 + h.val) 0 0)) ∧
    (17 ≤ n.toNat → Answers (.stallMonitorExpiry (.other n)) s (Only s · id)) ∧
    (n.toNat < 16 → Answers (.stallMonitorExpiry (.other n)) s fun t =>
      LevelDetected s t (0x106 + 8 * n.toNat) 0 0 s.dev.clock.tb ∧ Beside s t id) ∧
    (n.toNat = 16 → Answers (.stallMonitorExpiry (.other n)) s fun t =>
      LevelDetected s t 0x186 0 0 s.dev.clock.tb ∧ t.dev.stoker.restarting = true) ∧
    (x.mode = .halted → Answers (.seamCheck c) s (Only s · id)) ∧
    (x.mode ≠ .halted → Answers (.seamCheck c) s fun t =>
      let y := t.dev.seam c
      y.mode = .halted ∧ y.cause = (if c.val < 64 then 4 else 0) ∧ y.commits = [] ∧ y.requests = [] ∧ y.rethread = none ∧
      LevelDetected s t (laneSrc uc 5) (haltWord c 4) 0 s.dev.clock.tb) ∧
    Answers (.routedToken u m wr true) s (Only s · id) ∧
    Answers (.routedToken u m wr false) s fun t =>
      LevelDetected s t (laneSrc u 7) 0 0 s.dev.clock.tb ∧ t.dev.out = .error 3 ∧
      (u.val = 16 → t.dev.stoker.restarting = true) ∧ (u.val < 16 → ridPos m ≠ s.dev.chim.pos.toNat → Beside s t id)

/-- Rethreads, fence counts and the Stoker's restart (R100, R105, R107, R108, R124, R330, R531): a rethread that ends well
puts its lane into the slot; one that fails fences it with cause 5 and RETHREAD_FAIL; a failed seam test halts the core; the
fence count forgets what is 24 h old. -/
def Obligations.RethreadsAndFenceCounts : Prop :=
  ∀ (s : State) (c : CoreId) (r : RethreadEnd) (ok : Bool) (u : UnitId) (l : LaneNo),
    let k := s.dev.seam c
    let uc := unitOf c
    let failed := fun (t : State) (x : Rethread) =>
      let o := s.dev.lane (laneKey uc x.lane)
      let q := t.dev.lane (laneKey uc x.lane)
      let y := t.dev.laneUnit uc
      let word := fenceWord x.lane c x.slot 5
      q.total = satInc o.total ∧ q.fences = o.fences ++ [t.dev.clock.ivl] ∧
      y.lastLane = x.lane ∧ y.lastCause = 5 ∧ y.lastSlot = x.slot ∧ y.lastTime = t.dev.clock.tb ∧
      Detected s t (laneSrc uc 3) word 0 t.dev.clock.tb
    let plain := c.val < 64 ∨ (s.dev.core c).pend = []
    (k.rethread = none → (s.dev.core c).dbgReq = false → k.mode = .halted ∨ (s.dev.core c).pend = [] →
      Answers (.rethreadComplete c r ok) s (Only s · id) ∧ Answers (.rethreadTimerExpiry c) s (Only s · id)) ∧
    (∀ x, k.rethread = some x → x.lane < lanesOf uc → x.slot < 3 → plain →
      Answers (.rethreadComplete c .ok true) s fun t =>
        let y := t.dev.seam c
        y.at x.slot = some x.lane ∧ y.mode = (if y.filled.length = 3 then .tmr else .dmr) ∧
        (t.dev.lane (laneKey uc x.lane)).st = .active) ∧
    (∀ x, k.rethread = some x → k.mode ≠ .halted → Answers (.rethreadComplete c .ok false) s fun t =>
      (t.dev.seam c).mode = .halted ∧ (t.dev.seam c).cause = (if c.val < 64 then 4 else 0) ∧
      let n := if uc < 16 then 0xE0 + uc else 0xF1
      ∃ (info : Word32) (m : BitVec 4) (row : SrcRow), fld info 9 3 = 4 ∧ s.world.source n = some row ∧
        t.dev.src n = (s.dev.src n).after row.level { eventOf s n info 0 s.dev.clock.tb with mode := m }) ∧
    (∀ x, k.rethread = some x → x.lane < lanesOf uc →
      let off := fun (t : State) => (t.dev.lane (laneKey uc x.lane)).st ≠ .active ∧ (t.dev.lane (laneKey uc x.lane)).st ≠ .rejoining
      (plain → Answers (.rethreadComplete c .badCopy ok) s (fun t => failed t x ∧ off t)) ∧
      (plain → Answers (.rethreadTimerExpiry c) s (fun t => failed t x ∧ off t ∧ ReachesIvl s t (x.since.toNat + 5000))) ∧
      (k.mode ≠ .halted → Answers (.rethreadComplete c .disagree ok) s fun t => failed t x ∧ (t.dev.seam c).mode = .halted ∧
        (t.dev.seam c).cause = if c.val = 64 then 0 else if k.mode = .dmr then 1 else 2)) ∧
    (match (s.dev.lane (laneKey u l)).fences with
     | [] => Answers (.fenceWindowExpiry u l) s (Only s · id)
     | t :: ts => Answers (.fenceWindowExpiry u l) s (Only s · fun d =>
        (d.advanceIvl (t.toNat + 86400000000000)).onLane (laneKey u l) fun x => { x with fences := ts })) ∧
    (s.dev.stoker.restarting = false ∨ (s.dev.seam 64).mode = .halted → Answers .stokerRestartComplete s (Only s · id)) ∧
    (s.dev.stoker.restarting = true → (s.dev.seam 64).mode ≠ .halted → Answers .stokerRestartComplete s fun t =>
      t.dev.stoker.restarting = false ∧ t.dev.stoker.serving = t.dev.sys.mode.serves ∧
      (∀ i ∈ ([0x184, 0x185, 0x186, 0x187, 0x1B0] : List Nat), (t.dev.src i).active = false) ∧
      (s.dev.sys.recovery = true → Beside s t fun d => { d with stoker := { d.stoker with restarting := false } }) ∧
      ∀ sec bs w, s.dev.sys.recovery = false →
        (sections s.dev.images.running.head).find? (fun x => x.typ == 1) = some sec →
        s.world.areaRead s.dev.images.areas.1 sec.off sec.size = (some bs, w) →
        ((w.hobWrites 16 0 (hobBase 16) bs).copyHolds 16 (hobBase 16) sec.size sec.digest).1 = true →
        (archOf t 64).pc = w64 (hobBase 16) ∧ t.dev.images.stokerDigest = sec.digest)

/-- The ends of tests (R100, R326, R328, R329, R332, R334 to R337): a lane that passes rejoins, goes to SPARE or, in a HALTED
core, stays FENCED; one that fails is FAILED with LANE_FAILED; every end writes its record; a failed bellows slice stops
the bellows; the start-up test leaves its slot map; and an overdue target is reported. -/
def Obligations.TestEnds : Prop :=
  ∀ (s : State) (u : UnitId) (l : LaneNo) (pass ok : Bool) (h : HearthId) (r : StartupResult) (target : Fin 14),
    let d := s.dev
    let x := d.lane (laneKey u l)
    let p := patchOf u
    let k := homeCore u l
    let slot := if l.val = p then 0 else homeSlot u l
    let row := Instr.sliceComplete u l pass ok
    let q := fun (t : State) => t.dev.lane (laneKey u l)
    let record := fun (t : State) (info : Word32) =>
      t.dev.baste.results = ({ time := d.clock.tb, info := info, rseq := d.baste.rseq } :: d.baste.results).take 64 ∧
      t.dev.baste.rseq = d.baste.rseq + 1
    let segs := (d.bu h).segs
    (x.st ≠ .basting → Answers row s (Only s · id)) ∧
    (l.val < lanesOf u → x.st = .basting → x.test = .restart → Answers row s fun t =>
      record t (basteInfo u l (if pass then 0 else 1) 2 0 k slot)) ∧
    (l.val < lanesOf u → x.st = .basting → x.test ≠ .restart → x.test ≠ .reinit → pass = false → Answers row s fun t =>
      (q t).st = .failed ∧ record t (basteInfo u l 1 x.test.kind 0 k slot) ∧
      Detected s t (laneSrc u 1) (fenceWord l k 3 0) 0 d.clock.tb) ∧
    (l.val < lanesOf u → x.st = .basting → x.test ≠ .restart → (x.test = .reinit ∨ pass = true) → Answers row s fun t =>
      let o := if x.test = .reinit then 2 else 0
      (q t).fences = (if x.wasFailed then [] else x.fences) ∧
      (if l.val = p then ((q t).st = .spare ∨ (q t).st = .rejoining) ∧ record t (basteInfo u l o x.test.kind 0 k 0)
       else if (d.seam k).mode = .halted then record t (basteInfo u l o x.test.kind 0 k slot) ∧ (q t).st ≠ .active
       else (q t).st = .rejoining ∧ t.dev.baste.results = d.baste.results)) ∧
    (¬ (pass = true ∧ segs = some 120 ∨ pass = false ∧ segs.isSome = true) →
      Answers (.bellowsSliceComplete h pass) s (Only s · id)) ∧
    (pass = true → segs = some 120 → Answers (.bellowsSliceComplete h pass) s fun t =>
      (t.dev.bu h).segs = none ∧ (t.dev.bu h).segsDone = 120 ∧ (t.dev.blw h).basting = false ∧
      record t (basteInfo h 13 0 0 0 64 0)) ∧
    (pass = false → segs.isSome = true → Answers (.bellowsSliceComplete h pass) s fun t =>
      record t (basteInfo h 13 1 0 0 64 0) ∧ Detected s t (0xD0 + h.val) (basteInfo h 13 1 0 0 64 0) 0 d.clock.tb ∧
      ∃ v : W, t = stateOf s (v.raise (0xD0 + h.val) (basteInfo h 13 1 0 0 64 0) 0) ∧ (v.dev.blw h).phase = .stopped ∧
        (v.dev.blw h).basteFail = true ∧ (v.dev.blw h).all = true) ∧
    (let fits := target.val < lanesOf u ∨ target.val = 13 ∧ u.val < 16
     if fits ∧ d.sys.mode.bastes = true ∧ (d.bu u).overdue.contains target.val = false then
      Answers (.basteOverdue u target) s fun t => LevelDetected s t 0x0F0 (basteInfo u target 0 0 0 64 0) 0 t.dev.clock.tb ∧
        Beside s t fun d => (d.advance (s.world.overdueIn u target)).onBu u fun b => { b with overdue := b.overdue ++ [target.val] }
     else Answers (.basteOverdue u target) s (Only s · id)) ∧
    (let kindle := d.sys.mode = .kindle ∧ bitAt d.sys.tested h = false ∧ d.sys.kindleErr = 0 ∧
        3 ∈ d.sys.stepsDone ∧ 4 ∈ d.sys.stepsDone
     let reset := d.sys.mode ≠ .kindle ∧ s.world.pendsOf 0x0307 h ≠ []
     let row := Instr.startupTestComplete h r
     let hob := d.hob h
     let hobOk := r.hobOk && decide (hob.pendRows.length + r.rows ≤ hob.rowsFree.toNat) && decide (r.cols ≤ hob.colsFree.toNat)
     let leaves := fun (t : State) =>
      let good := fun (l : Nat) => bitAt r.lanes l = false
      (∀ l, l < 12 → (t.dev.lane (laneKey h l)).st = if bitAt r.lanes l then .failed else .active) ∧
      (∀ l, l < 12 → good 12 → ¬ good l → (∀ j, j < l → good j) →
        (t.dev.lane (laneKey h 12)).st = .active ∧ (t.dev.seam (4 * h.val + l / 3)).at (l % 3) = some 12) ∧
      (good 12 → (∀ j, j < 12 → good j) → (t.dev.lane (laneKey h 12)).st = .spare) ∧
      (¬ good 12 → (t.dev.lane (laneKey h 12)).st = .failed) ∧
      bitAt t.dev.sys.avail h = (hobOk && r.bellowsOk) ∧
      (∀ j, j < 4 →
        let y := t.dev.seam (4 * h.val + j)
        (y.mode = .halted ↔ hobOk = false ∨ r.bellowsOk = false ∨ bitAt r.seams j = true ∨ y.filled.length < 2) ∧
        (y.mode = .tmr → y.filled.length = 3))
     (¬ kindle → ¬ reset → Answers row s (Only s · id)) ∧
     (kindle → Answers row s fun t => leaves t ∧ bitAt t.dev.sys.tested h = true ∧
      (t.dev.sys.tested = 0xFFFF → 6 ∈ t.dev.sys.stepsDone)) ∧
     (reset → Answers row s leaves))

/-- The rotation of the basting (R325, R326, R328, R332, R338): a due turn is deferred, skipped with its record and
BASTE_SKIPPED, begun with the patch lane standing in, or begun without, after the repair tests that had to wait, and the turn
of lane 0 begins the slice of the bellows; SCAN_OPEN completes, with the keys zeroised; the scan port alone changes nothing. -/
def Obligations.BastingRotation : Prop :=
  ∀ (s : State) (u : UnitId) (b : Bool),
    let d := s.dev
    let on := bitAt (s.world.reg 14 0 0x24) u = true
    let runs := d.sys.mode.bastes = true
    let p := patchOf u
    let turns := fun (i : Instr) (w : W) =>
      let l := (w.dev.bu u).next
      (w.turn u = .defer → Answers i s fun t => t = stateOf s (w.upd fun d => d.onBu u fun b => { b with deferred := true })) ∧
      (∀ why, w.turn u = .skip why → Answers i s fun t =>
        let info := basteInfo u l 3 0 why (homeCore u l) (if l = p then 0 else homeSlot u l)
        (t.dev.bu u).next = (l + 1) % lanesOf u ∧ (t.dev.bu u).deferred = false ∧
        t.dev.baste.results = ({ time := w.dev.clock.tb, info := info, rseq := d.baste.rseq } :: d.baste.results).take 64 ∧
        Detected s t 0x0F2 info 0 w.dev.clock.tb) ∧
      (w.turn u = .swap → Answers i s fun t => t = stateOf s ((w.upd fun d =>
        ((d.onBu u fun b => { b with deferred := false, cur := some l, late := false }).onLane (laneKey u p) fun x =>
          { x with st := .rejoining, test := .reinit }).onSeam (homeCore u l) fun y => { y with
            rethread := some { lane := p, slot := homeSlot u l, leaves := some (l, .basting), since := d.clock.ivl } }).wakeLanes (homeCore u l))) ∧
      (w.turn u = .alone → Answers i s fun t =>
        (t.dev.lane (laneKey u l)).st = .basting ∧ (t.dev.lane (laneKey u l)).test = .slice ∧ (t.dev.bu u).cur = some l ∧
        (t.dev.bu u).deferred = false ∧
        ∀ k i, w.seat u l = some (k, i) → (t.dev.seam k).at i = none ∧ (t.dev.seam k).commits = [])
    let rested := s.world.restTests u
    let due := rested.upd fun d => d.advanceIvl (rested.nextDue u)
    let bellows := fun (w : W) => if u.val < 16 ∧ (w.dev.bu u).next = 0 ∧ (w.dev.bu u).segs = none then
      w.upd fun d => d.onBu u fun b => { b with segs := some 0 } else w
    let resume := fun (w : W) => if (w.dev.bu u).blwDue then
      (bellows w).upd fun d => d.onBu u fun b => { b with blwDue := false } else w
    let first := resume (if (due.dev.bu u).deferred then due else bellows due)
    let again := resume rested
    (¬ (on ∧ runs) → Answers (.basteDue u) s (Leaves s · fun w => w.restTests u)) ∧
    (on → runs → turns (.basteDue u) first) ∧
    (¬ ((rested.dev.bu u).deferred = true ∧ runs) → Answers (.deferredSliceStart u) s (Leaves s · fun w => w.restTests u)) ∧
    ((rested.dev.bu u).deferred = true → runs → again.turn u = .defer →
      Answers (.deferredSliceStart u) s (Leaves s · fun _ => again)) ∧
    ((rested.dev.bu u).deferred = true → runs → again.turn u ≠ .defer → turns (.deferredSliceStart u) again) ∧
    (s.world.pendsOf 0x0E10 0 = [] → Answers .scanOpenComplete s (Only s · id)) ∧
    (∀ q qs, s.world.pendsOf 0x0E10 0 = q :: qs → Answers .scanOpenComplete s fun t =>
      t.dev.baste = { d.baste with scanOpen := true, pathOff := true, zeroised := true } ∧ t.dev.images.sessions = [] ∧
      t.dev.images.cryptoKey = [] ∧ t.dev.images.cryptoOperand = [] ∧ t.dev.images.drbgState = [] ∧
      q ∉ t.dev.stoker.pends ∧ Detected s t 0x0F3 0 0 d.clock.tb) ∧
    Answers (.scanInstruction b) s (Only s · id)

/-- CH_CMD of a damper page (R278, R279, R305): ARM with the key arms the SAFE channels of its mask; ENERGISE starts all of
its mask where every check holds and none where one fails, with the code of the first check that each fails; DE-ENERGISE
brings its mask to SAFE, a FAULT channel once it has agreed for one RB_SETTLE; whatever else is written, every ARMED channel
of the page returns to SAFE. The code of a channel that left ARMED under an ARM that stands is the model's (log entry 150). -/
def Sys2Proof.Says.DamperCommands : Prop :=
  ∀ (s : State) (m : Rid) (h : HearthId) (v : Word32) (fb : BitVec 4) (w : W),
    let off := 0x100 + 256 * h.val
    let inMask := fun (x : Word32) (n : Nat) => n / 4 = h.val ∧ (fld x 0 4).testBit (n % 4) = true
    let only := fun (t : State) =>
      t.dev = { w.dev with out := .done, dampers := t.dev.dampers } ∧ t.fuse = s.fuse ∧ t.pending = s.pending ∧ t.mem = s.mem ∧
      ∀ n, n / 4 ≠ h.val → t.dev.damper n = w.dev.damper n
    let disarmed := fun (c : Damper) => { c with st := if c.st = .armed then DampSt.safe else c.st, armOk := false }
    (let x := setFld v 4 4 1
     WriteReaches s m 6 0 off x w →
      (fld x 16 16 = 0xD4A7 → Answers (.arm m h v) s fun t => only t ∧ ∀ n, n / 4 = h.val →
        let c := disarmed (w.dev.damper n)
        t.dev.damper n = if inMask x n ∧ c.st = .safe then
          { c with st := .armed, armBy := m, armMask := BitVec.ofNat 4 (fld x 0 4), armAt := s.dev.clock.ivl, armOk := true } else c) ∧
      (fld x 16 16 ≠ 0xD4A7 → Answers (.arm m h v) s fun t => only t ∧ ∀ n, n / 4 = h.val →
        let c := disarmed (w.dev.damper n)
        t.dev.damper n = if inMask x n then { c with refusal := 1 } else c)) ∧
    (let x := setFld v 4 4 2
     let s1 : State := { s with dev := (List.range 4).foldl (fun d i =>
       d.seeFb (4 * h + i) (bitAt fb i)) s.dev }
     let cfg := fun (n : Nat) => w.reg 6 0 (0x2000 + 4 * n)
     let code := fun (n : Nat) =>
      let c := w.dev.damper n
      if c.armOk = false ∨ c.armBy ≠ m ∨ c.armMask.toNat ≠ fld x 0 4 ∨ c.armAt.toNat + 10000 < s.dev.clock.ivl.toNat then 6
      else if s.dev.sys.mode.running = false then 2
      else if bitAt (cfg n) 0 = false then 3
      else if c.st = .forced ∨ w.forcedBy n = true then 4
      else if bitAt (cfg n) 1 = true ∧ c.fb = true then 5
      else if c.st ≠ .armed then 6 else 0
     WriteReaches s1 m 6 0 off x w →
      (fld x 16 16 = 0x2B58 → (∀ n, inMask x n → code n = 0) → Answers (.energise m h v fb) s fun t => only t ∧
        ∀ n, n / 4 = h.val → t.dev.damper n =
          if inMask x n then { w.dev.damper n with st := .starting, armOk := false } else w.dev.damper n) ∧
      (fld x 16 16 = 0x2B58 → (∃ n, inMask x n ∧ code n ≠ 0) → Answers (.energise m h v fb) s fun t => only t ∧
        ∀ n, n / 4 = h.val →
          let c := disarmed (w.dev.damper n)
          t.dev.damper n =
            if inMask x n then { c with refusal := BitVec.ofNat 3 (if code n = 0 then 7 else code n) } else c) ∧
      (fld x 16 16 ≠ 0x2B58 → Answers (.energise m h v fb) s fun t => only t ∧ ∀ n, n / 4 = h.val →
        let c := disarmed (w.dev.damper n)
        t.dev.damper n = if inMask x n then { c with refusal := 1 } else c)) ∧
    (let x := setFld v 4 4 3
     WriteReaches s m 6 0 off x w → Answers (.deEnergise m h v) s fun t => only t ∧ ∀ n, n / 4 = h.val →
      let c := w.dev.damper n
      let agrees := c.mismatch = none ∧ (bitAt (w.reg 6 0 (0x2000 + 4 * n)) 1 = false ∨ c.fb = false) ∧
        c.agreeAt.toNat + 100000 * fld (w.reg 6 0 (0x2000 + 4 * n)) 4 9 ≤ s.dev.clock.ivl.toNat
      t.dev.damper n =
        if ¬ inMask x n then disarmed c
        else if c.st = .fault then
          { c with st := if ¬ agrees then .fault else if w.forcedBy n then .forced else .safe, armOk := false }
        else if c.st = .armed ∨ c.st = .starting ∨ c.st = .live then
          { c with st := .safe, settling := c.settling || decide (c.st = .live), armOk := false }
        else { c with armOk := false })

/-- The instants and the mismatches of the damper channels (R275 to R278, R280): an ARM lapses after 10 µs, a STARTING
channel goes LIVE at the next boundary of the interval counter, the end of a settle time judges the feedback, and a
mismatch is FAULT with DAMP_READBACK, and source 1 where it meets a reaction. -/
def Sys2Proof.Says.DamperInstants : Prop :=
  ∀ (s : State) (h : HearthId) (n : DamperId) (cause : BitVec 2) (fb : Bool),
    let d := s.dev
    let c := d.damper n
    let armed := fun k => k / 4 = h.val ∧ (d.damper k).st = .armed
    let rb := bitAt (s.world.reg 6 0 (0x2000 + 4 * n.val)) 1 = true
    let moved := fun (t : State) (f : Nat → Damper) =>
      t.mem = s.mem ∧ t.fuse = s.fuse ∧ t.pending = s.pending ∧ ∀ k, k < 64 → t.dev.damper k = f k
    let mismatched := fun (t : State) (c : Damper) (cause : BitVec 2) =>
      t.dev.damper n = { c with
        st := .fault, mismatch := some cause, cause := cause, settling := decide (c.st = .live) || (c.settling && decide (cause = 0)),
        fb := if cause = 1 then true else if cause = 0 then c.fb else false } ∧
      LevelDetected s t (0x10 + n.val) (w32 (n + 64 * cause.toNat)) 0 d.clock.tb ∧
      ((d.flue.driving = true ∨ d.flue.unconf ≠ []) → n.val ∈ d.flue.forcing → Detected s t 0x001 0 0 d.clock.tb) ∧
      Beside s t id
    let fits := cause = 0 ∨ cause = 1 ∧ rb ∧ c.st ≠ .live ∧ c.settling = false ∨
      cause = 2 ∧ rb ∧ c.st = .live ∧ c.settling = false ∨ cause = 3 ∧ rb ∧ c.st = .live ∧ c.settling = true
    ((∀ k, ¬ armed k) → Answers (.armExpiry h) s (Only s · id)) ∧
    (∀ k, armed k → (∀ j, armed j → (d.damper j).armAt.toNat ≤ (d.damper k).armAt.toNat) → Answers (.armExpiry h) s fun t =>
      ReachesIvl s t ((d.damper k).armAt.toNat + 10000) ∧
      moved t fun j => if j / 4 = h.val then
        { d.damper j with st := if (d.damper j).st = .armed then .safe else (d.damper j).st, armOk := false } else d.damper j) ∧
    (Answers .damperPeriodBoundary s fun t =>
      ReachesIvl s t ((d.clock.ivl.toNat / 100000 + 1) * 100000) ∧
      moved t fun j => if (d.damper j).st = .starting then { d.damper j with st := .live, settling := true } else d.damper j) ∧
    (¬ fits → Answers (.damperMismatch n cause) s (Only s · id)) ∧
    (fits → Answers (.damperMismatch n cause) s (mismatched · c cause)) ∧
    (c.settling = false → n.val ∉ d.flue.unconf → Answers (.rbSettleExpiry n fb) s (Only s · id)) ∧
    (c.settling = true ∨ n.val ∈ d.flue.unconf →
      let judged := { c with settling := false, fb := fb, agreeAt := if c.fb && !fb then d.clock.ivl else c.agreeAt }
      let ok := ¬ rb ∨ c.st = .fault ∧ c.mismatch.isSome = true ∨ (if c.st = .live then fb = true else fb = false)
      (ok → Answers (.rbSettleExpiry n fb) s (Only s · fun d =>
        let d := d.onDamper n fun _ => judged
        { d with flue := { d.flue with unconf := d.flue.unconf.filter (· != n.val) } })) ∧
      (¬ ok → Answers (.rbSettleExpiry n fb) s fun t =>
        mismatched t judged (if c.st = .live then 3 else 1) ∧ n.val ∉ t.dev.flue.unconf))

/-- FAULT_DETECTION (R271, R273, R291): a level source that is active is not detected again; otherwise the event is counted with
its record, a TRIP enters the history, and each reaction of the source's mask has its effect: hearth safe forces the four
channels and holds the hearth, loop safe selects the groups, device SAFE forces all 64 channels, selects the safe values
everywhere and enters SAFE, error pin asserts the pair. A failed check of a bellows stops it first (R235), a fault of the
Stoker's own restarts it (R124), and a loop fault selects the group of its context. Where a cutover stands or the trace stream is on, the same
command may bring further events of the hobs, the Bobbin and the fallback, after this one. -/
def Obligations.FaultReactions : Prop :=
  ∀ (s : State) (src : SourceId) (d0 d1 : Word32),
    let w := s.world
    let row? := w.source src
    let alone := s.dev.images.cut = none ∧ bitAt (w.reg 2 0 0x34) 24 = false
    let forced := fun (t : State) (n : Nat) => (t.dev.damper n).st = .forced ∨ (t.dev.damper n).st = .fault
    let h := w.srcHearth src
    let safe := fun (t : State) (r : Rec) =>
      Beside s t id ∧
      (bitAt r.react 0 = true → 2 ≤ r.sev.toNat → alone → ∃ q ∈ t.dev.flue.hist, { q with rseq := 0 } = r) ∧
      (bitAt r.react 1 = true → (∀ i, i < 4 → forced t (4 * h + i)) ∧ (t.dev.blw h).all = true ∧
        ∃ x, t.dev.flue.holds.get? h = some x ∧ src.val ∈ x.srcs) ∧
      (bitAt r.react 2 = true → ∀ g, g < 16 → (fld (w.srcCfg src) 16 16).testBit g = true ∨
          0x210 ≤ src.val ∧ src.val < 0x220 ∧ (bitAt d0 16 = true ∨ fld d0 12 4 = g) →
        (∃ x, t.dev.flue.sels.get? (16 * h + g) = some x ∧ src.val ∈ x.srcs) ∧
        ∀ i, i < 4 → bitAt (w.reg 6 0 (0x2000 + 4 * (4 * h + i))) 20 = true → fld (w.reg 6 0 (0x2000 + 4 * (4 * h + i))) 16 4 = g →
          forced t (4 * h + i)) ∧
      (bitAt r.react 3 = true → (∀ n, n < 64 → forced t n) ∧ (∀ k, k < 16 → (t.dev.blw k).all = true) ∧
        t.dev.flue.devHold = true ∧ src.val ∈ t.dev.flue.tripSet ∧
        t.dev.sys.mode = if s.dev.sys.mode.trippable ∧ s.dev.sys.resetArmed = false then .safe else s.dev.sys.mode) ∧
      (bitAt r.react 4 = true → fld (w.reg 2 0 0x30) 0 14 ≠ 0 → t.dev.flue.errPin = true)
    (row? = none → Answers (.faultDetection src d0 d1) s (Only s · id)) ∧
    let stoker := src.val = 0x1B0 ∨ 0x184 ≤ src.val ∧ src.val ≤ 0x187
    (stoker → Answers (.faultDetection src d0 d1) s fun t =>
      LevelDetected s t src d0 d1 s.dev.clock.tb ∧ t.dev.stoker.restarting = true) ∧
    (∀ row, row? = some row → ¬ (0x240 ≤ src.val ∧ src.val < 0x250) → ¬ stoker →
      if row.level = true ∧ w.active src = true then Answers (.faultDetection src d0 d1) s (Only s · id)
      else Answers (.faultDetection src d0 d1) s fun t =>
        safe t (eventOf s src d0 d1 s.dev.clock.tb) ∧
        (src.val ≠ 0x2C3 → (0x1C0 ≤ src.val ∧ src.val < 0x1F2 ∨ 0x2C0 ≤ src.val ∧ src.val < 0x2C7 ∨ src.val = 0x342 → alone) →
          Detected s t src d0 d1 s.dev.clock.tb)) ∧
    (∀ k, k < 16 → src.val = 0x240 + k → row? ≠ none → Answers (.faultDetection src d0 d1) s fun t =>
      (t.dev.blw k).phase = .stopped ∧ (t.dev.blw k).checked = true ∧ LevelDetected s t src d0 d1 s.dev.clock.tb)

/-- The records of the Flue (R290 to R292): the intake takes the next source in order, TRIP sources first while the FIFO holds
fewer than 64 records, the others while it holds fewer than 48; the event ring takes the FIFO's oldest record where it has
room; the Stoker moves up to 1,024 records to the spill ring while it serves, as unit 3 admits its reads of the ring's page, and the
TRIP records among them to the flash. -/
def Obligations.FlueRecordPaths : Prop :=
  ∀ (s : State) (n : Nat),
    let f := s.dev.flue
    let w := s.world
    let trip := fun (k : Nat) => (s.dev.src k).count ≠ 0 ∧ 2 ≤ w.sev k
    let note := fun (k : Nat) => (s.dev.src k).count ≠ 0 ∧ w.sev k < 2
    let turn := fun (ptr k : Nat) (p : Nat → Prop) =>
      p k ∧ (ptr < k → ∀ j, p j → ptr < j → k ≤ j) ∧ (k ≤ ptr → ∀ j, p j → j ≤ ptr ∧ k ≤ j)
    let taken := fun (t : State) (k : Nat) =>
      let r := (s.dev.src k).record
      t.dev.flue.fifo = f.fifo ++ [r] ∧ t.dev.src k = { s.dev.src k with count := 0 } ∧
      (∀ j, j ≠ k → t.dev.src j = s.dev.src j) ∧ Beside s t id ∧ t.mem = s.mem ∧
      (if 2 ≤ w.sev k then t.dev.flue.ptrTrip = k ∧ t.dev.flue.ptrNote = f.ptrNote ∧ t.dev.flue.hist = f.hist
       else t.dev.flue.ptrNote = k ∧ t.dev.flue.ptrTrip = f.ptrTrip ∧
         t.dev.flue.hist = ({ r with rseq := f.histNext } :: f.hist).take 32)
    let due := f.evqDue = true
    let gap := w.ringGap
    let gapOne := gap.2.ringOne (gapRec gap.1 s.dev.sys.mode.code)
    let tookOne := fun (v : W) (rest : List Rec) => v.upd fun d => { d with flue := { d.flue with fifo := rest } }
    let cleared := fun (g : W) => g.upd fun d => { d with flue := { d.flue with evqGap := {}, evqDue := false } }
    ((f.srcs.rows.map (·.1)).Pairwise (· < ·) →
      (∀ k, f.fifo.length < 64 → turn f.ptrTrip k trip → Answers .intakeTake s (taken · k)) ∧
      (∀ k, f.fifo.length < 48 → (∀ j, ¬ trip j) → turn f.ptrNote k note → Answers .intakeTake s (taken · k)) ∧
      (64 ≤ f.fifo.length ∨ (∀ j, ¬ trip j) ∧ (48 ≤ f.fifo.length ∨ ∀ j, ¬ note j) → Answers .intakeTake s (Only s · id))) ∧
    (s.dev.sys.mode = .off ∨ s.dev.sys.mode = .hold ∨ f.fifo = [] → Answers .eventRingEnqueue s (Only s · id)) ∧
    (∀ r rest, s.dev.sys.mode ≠ .off → s.dev.sys.mode ≠ .hold → f.fifo = r :: rest →
      (∀ v, ¬ due → w.ringOne r = (false, v) → Answers .eventRingEnqueue s (Leaves s · fun _ => v.settle)) ∧
      (∀ v, ¬ due → w.ringOne r = (true, v) → Answers .eventRingEnqueue s (Leaves s · fun _ => (tookOne v rest).settle)) ∧
      (∀ g, due → gapOne = (false, g) → Answers .eventRingEnqueue s (Leaves s · fun _ => g.settle)) ∧
      (∀ g v, due → gapOne = (true, g) → (cleared g).ringOne r = (true, v) →
        Answers .eventRingEnqueue s (Leaves s · fun _ => (tookOne v rest).settle)) ∧
      (∀ g v, due → gapOne = (true, g) → (cleared g).ringOne r = (false, v) →
        Answers .eventRingEnqueue s (Leaves s · fun _ => v.settle))) ∧
    (s.dev.stoker.serving = false → Answers (.spillMove n) s (Only s · id)) ∧
    let move := fun (w : W) =>
      let page := w.fwCheck 3 (BitVec.ofNat 48 (pageAddr w.evq 0)) w.stokerRid .read
      let (ws, v) := page.2.deqPacket w.stokerRid w.evq
      match page.1, ws with
      | false, _ => page.2
      | true, none => v
      | true, some ws =>
        let r := Rec.ofWords ws
        let x := v.spillOne r
        if 2 ≤ r.sev.toNat then x.upd fun d => { d with images := { d.images with
          flash := { d.images.flash with hist := (r :: d.images.flash.hist).take 8192 } } } else x
    (s.dev.stoker.serving = true → Answers (.spillMove n) s (Leaves s · fun w =>
      ((List.range (min n 1024)).foldl (fun w _ => move w) w).settle))

/-- The ends of conditions and of times at the Flue (R45, R271, R275, R276, R282 to R287): level sources that end, the end of
a reaction, the configuration sweep, the ways out of SAFE and QUIET, the windows, the local holds and the error pin. -/
def Obligations.FlueEnds : Prop :=
  ∀ (s : State) (src : SourceId) (h : HearthId),
    let d := s.dev
    let f := d.flue
    let w := s.world
    let k := src.val
    let still := fun (i : Instr) => Answers i s (Only s · id)
    let ended := fun (t : State) (k : Nat) => (t.dev.src k).active = false ∧ t.mem = s.mem ∧ ∀ j, j ≠ k → t.dev.src j = s.dev.src j
    (¬ (externalSource k = true ∧ (w.active k = true ∨ k = 0x301 ∧ d.thm.refLost = true)) → still (.levelSourceInactive src)) ∧
    (k = 0x301 → externalSource k = true → w.active k = false → d.thm.refLost = true →
      Answers (.levelSourceInactive src) s (Only s · fun d => { d with thm := { d.thm with refLost := false } })) ∧
    (k = 6 → w.active 6 = true → d.sys.opHighAt = none → still (.levelSourceInactive src)) ∧
    (∀ x, k = 6 → w.active 6 = true → d.sys.opHighAt = some x → Answers (.levelSourceInactive src) s fun t =>
      ended t 6 ∧ ReachesIvl s t (x.toNat + 1000000000) ∧ t.dev.sys = { d.sys with opStuck := false, opHighAt := none }) ∧
    (externalSource k = true → w.active k = true → k ≠ 6 → Answers (.levelSourceInactive src) s fun t =>
      ended t k ∧ (∀ n, n < 64 → t.dev.damper n = if k = 0x10 + n then { d.damper n with
        fb := if (d.damper n).mismatch = some 1 then false else (d.damper n).fb, mismatch := none,
        agreeAt := d.clock.ivl } else d.damper n) ∧
      Beside s t fun d => { d with clock := if k = 2 then { d.clock with backup := false } else d.clock,
                                   thm := if k = 0x301 then { d.thm with refLost := false } else d.thm }) ∧
    (Answers .reactionComplete s fun t =>
      t.dev = { d with out := .none, dampers := t.dev.dampers, flue := { f with driving := false, unconf := [], forcing := [] } } ∧
      t.mem = s.mem ∧ t.fuse = s.fuse ∧ t.pending = s.pending ∧
      ∀ n, t.dev.damper n = if n ∈ f.unconf ∧ (d.damper n).st ≠ .fault then { d.damper n with fb := false, settling := false }
        else d.damper n) ∧
    (w.active 0 = false ∨ f.noMajority = true → still (.cfgSweep none)) ∧
    (w.active 0 = true → f.noMajority = false → Answers (.cfgSweep none) s (fun t => ended t 0 ∧ Beside s t id)) ∧
    (∀ i all, cfgWord i = none → still (.cfgSweep (some (i, all)))) ∧
    (∀ i all typ o, cfgWord i = some (typ, o) → Answers (.cfgSweep (some (i, all))) s fun t =>
      t.dev.flue.mismatch = true ∧ t.dev.flue.word = BitVec.ofNat 11 i ∧ t.dev.flue.noMajority = (f.noMajority || all) ∧
      (t.dev.src 0).active = true ∧ t.dev.flue.hwSafe = true ∧ (fld (w.reg 2 0 0x30) 0 14 ≠ 0 → t.dev.flue.errPin = true) ∧
      (∀ n, n < 64 → (t.dev.damper n).st = .forced ∨ (t.dev.damper n).st = .fault) ∧
      Beside s t fun d => if all then (w.setReg typ 0 o (w.regReset typ o)).dev else d) ∧
    (let done := (∀ x ∈ f.tripSet, w.active x = false) ∧ f.driving = false ∧ f.unconf = [] ∧ d.stoker.restarting = false ∧
        ∀ n, n < 64 → (d.damper n).st = .fault → (d.damper n).cause ≠ 0 ∧ (d.damper n).cause ≠ 1
     (¬ (d.sys.mode = .safe ∧ done) → still .safeExit) ∧
     (d.sys.mode = .safe → done → Answers .safeExit s (Leaves s · fun w =>
       w.setMode (if fld (w.reg 2 0 0x28) 0 4 ≤ f.window.length then .lockout else .quiet)))) ∧
    (if d.sys.mode = .lockout then Answers .lockoutRecordWritten s (Only s · fun d => { d with
        sys := { d.sys with lockoutRec := true }, images := { d.images with flash := { d.images.flash with lockout := true } } })
     else still .lockoutRecordWritten) ∧
    (if d.sys.mode = .quiet then Answers .quietPeriodExpiry s (Leaves s · fun w =>
        let v := w.upd fun d => d.advanceIvl (f.quietAt.toNat + 1000000 * fld (w.reg 2 0 0x24) 0 20)
        v.setMode (if f.retMode = 4 then v.runMode else .prepare))
     else still .quietPeriodExpiry) ∧
    (match f.window with
     | [] => still (.recoveryEntryExpiry none)
     | x :: r => Answers (.recoveryEntryExpiry none) s (Only s · fun d =>
         { d.advanceIvl (x.toNat + 86400000000000) with flue := { f with window := r } })) ∧
    (match f.localWin.getD h [] with
     | [] => still (.recoveryEntryExpiry (some h))
     | x :: r => Answers (.recoveryEntryExpiry (some h)) s (Only s · fun d =>
         { d.advanceIvl (x.toNat + 86400000000000) with flue := { f with localWin := f.localWin.set h r } })) ∧
    (let ms := fld (w.reg 2 0 0x2C) 0 20
     let free := fun (x : Hold) => x.latched = false ∧ ∀ j ∈ x.srcs, w.active j = false
     let at_ := fun (x : Hold) => x.last.toNat + 1000000 * ms
     let mine := fun (x : Hold) => free x ∧ (f.holds.get? h = some x ∨ ∃ r ∈ f.sels.rows, r.1 / 16 = h.val ∧ r.2 = x)
     (ms = 0 ∨ (∀ x, ¬ mine x) → still (.localQuietExpiry h)) ∧
     (∀ x, ms ≠ 0 → mine x → (∀ y, mine y → at_ x ≤ at_ y) → (f.sels.rows.map (·.1)).Nodup →
       Answers (.localQuietExpiry h) s fun t =>
        let due := fun (y : Hold) => free y ∧ at_ y ≤ t.dev.clock.ivl.toNat
        ReachesIvl s t (at_ x) ∧
        (∀ y, f.holds.get? h = some y → due y → t.dev.flue.holds.get? h = none ∧
          t.dev.flue.localWin = f.localWin.set h (((f.localWin.getD h []) ++ [t.dev.clock.ivl]).reverse.take 15).reverse) ∧
        (∀ y, f.holds.get? h = some y → ¬ due y → t.dev.flue.holds = f.holds ∧ t.dev.flue.localWin = f.localWin) ∧
        (∀ j y, f.sels.get? j = some y → j / 16 = h.val → due y → t.dev.flue.sels.get? j = none) ∧
        (∀ j y, f.sels.get? j = some y → j / 16 ≠ h.val ∨ ¬ due y → t.dev.flue.sels.get? j = some y))) ∧
    (f.errPin = false → still .errpinHoldExpiry) ∧
    (f.errPin = true → Answers .errpinHoldExpiry s fun t =>
      ReachesIvl s t w.errEnd ∧ t.mem = s.mem ∧ Beside s t (fun d => d.advanceIvl w.errEnd) ∧
      (w.errEnd ≤ t.dev.clock.ivl.toNat →
        t.dev.flue.errPin = (w.errSource || !f.errRel && (!bitAt (w.reg 2 0 0x30) 16 ||
          d.sys.mode ∈ ([.off, .hold, .kindle, .safe, .quiet, .lockout] : List Mode)))))

/-- OP_RESET_N and the reference clocks (R51, R287, R288, R430): the debounced input, the input that is stuck and the start
of its high time; each lost reference is a level source, and the loss of REFCLK_TB in step 1 halts KINDLE. -/
def Obligations.OperatorInputAndReferences : Prop :=
  ∀ (s : State) (kHz : Word32),
    let y := s.dev.sys
    Answers .opResetDebounced s (Only s · fun d => { d with sys := { d.sys with opReset := true, opHighAt := none } }) ∧
    (y.opReset = false → Answers .opResetStuck s (Only s · id)) ∧
    (y.opReset = true → Answers .opResetStuck s fun t => LevelDetected s t 6 0 0 s.dev.clock.tb ∧
      Beside s t fun d => { d with sys := { d.sys with opStuck := true } }) ∧
    Answers .opResetNHigh s (Only s · fun d => { d with sys := { d.sys with
      opReset := false, opHighAt := if y.opStuck then some d.clock.ivl else none } }) ∧
    Answers (.refclkLoss .tb kHz) s (fun t => LevelDetected s t 2 kHz 0 s.dev.clock.tb ∧
      Beside s t fun d => { d with
        clock := { d.clock with backup := true },
        sys := if y.mode = .kindle ∧ 1 ∉ y.stepsDone ∧ y.kindleErr = 0 then { d.sys with kindleErr := 1, errStep := 1 } else d.sys }) ∧
    Answers (.refclkLoss .mem kHz) s (fun t => LevelDetected s t 3 kHz 0 s.dev.clock.tb ∧ Beside s t id) ∧
    Answers (.refclkLoss .pcie kHz) s (fun t => LevelDetected s t 4 kHz 0 s.dev.clock.tb ∧ Beside s t id) ∧
    (s.fuse.variantM = false → Answers (.refclkLoss .thm kHz) s (Only s · id)) ∧
    (s.fuse.variantM = true → Answers (.refclkLoss .thm kHz) s fun t => ∃ d0, LevelDetected s t 0x301 d0 kHz s.dev.clock.tb ∧
      Beside s t fun d => { d with thm := { d.thm with refLost := true, refKHz := kHz } })

/-- The arbiter of a hob that is awake and holds no flipped bit and no armed injection (R189 to R192): of the accesses that
wait, one of each master, the first in rotation that is not passed over is granted and performed; the pointer moves behind
its master, and behind the channel of the hearth DMA, each other waiting master counts a conflict, and a write is recorded as having passed over the reads of its
port word. A grant to the tester, which waits only with work, writes its oldest correction back or makes an access that is owed. -/
def Sys2Proof.Says.HobArbiterGrants : Prop :=
  ∀ (s : State) (u : UnitId) (qs : List HobReq) (q : HobReq),
    let n := hobMasters u
    let b := s.dev.hob u
    let late := fun (x : HobReq) => Machine.HobReq.isWrite x = false ∧
      ∃ y ∈ qs, Machine.HobReq.isWrite y = true ∧ y.master ≠ x.master ∧ Machine.HobReq.word y = Machine.HobReq.word x ∧ (x.master, y.master) ∉ b.passed
    let rank := fun (x : HobReq) => (x.master + n - b.ptr % n) % n
    let a := hobBase u + q.off.toNat
    let sel := hobBase u + s.world.seen u q.off.toNat
    let seen := if q.master = 4 ∨ u.val = 16 then a else sel
    let tester := fun (x : HobReq) => x.master = n - 1
    let old := hobWord s sel q.size
    (qs = [] ∨ s.dev.sys.mode = .off → Answers (.hobAccess u qs) s (Only s · id)) ∧
    ((∀ x ∈ qs, Machine.HobReq.valid u x = true) → (qs.map (·.master)).Nodup → s.dev.flips.rows = [] → b.power = .awake → b.inject = none →
      s.dev.sys.mode ≠ .off → ((∃ x ∈ qs, tester x) → b.wbq ≠ [] ∨ 0 < b.owed) → q ∈ qs → ¬ late q → (∀ x ∈ qs, rank x < rank q → late x) → q.off.toNat % 32 + q.size ≤ 32 →
      Answers (.hobAccess u qs) s fun t =>
        let c := t.dev.hob u
        c = { b with ptr := (q.master + 1) % n, passed := c.passed, dmaPtr := if q.master = 5 then q.chan + 1 else b.dmaPtr,
                     wbq := if tester q then b.wbq.drop 1 else b.wbq,
                     owed := if tester q ∧ b.wbq = [] then b.owed - 1 else b.owed } ∧
        (∀ r x, (r, x) ∈ c.passed ↔ (x = q.master ∧ Machine.HobReq.isWrite q = true ∧
            (∃ y ∈ qs, y.master = r ∧ r ≠ q.master ∧ Machine.HobReq.isWrite y = false ∧ Machine.HobReq.word y = Machine.HobReq.word q)) ∨
          ((r, x) ∈ b.passed ∧ r ≠ q.master)) ∧
        (∀ k, k < 8 → t.world.hobReg u (0x240 + 4 * k) =
          if ∃ x ∈ qs, x.master = k ∧ k ≠ q.master then satInc (s.world.hobReg u (0x240 + 4 * k))
          else s.world.hobReg u (0x240 + 4 * k)) ∧
        t.pending = s.pending ∧ t.fuse = s.fuse ∧
        (tester q → t.mem = s.mem ∧ t.dev.out = .none) ∧
        (¬ tester q → match q.op with
        | .read => t.mem = s.mem ∧ t.dev.out = (if q.size ≤ 8 then .word (w64 (hobWord s seen q.size))
            else .bytes ((List.range q.size).map fun i => s.mem.get (seen + i)))
        | .write bs => t.dev.out = .done ∧ StoresAt s t a bs.length (ofLe bs)
        | .setBits bs => t.dev.out = .done ∧ ∀ x, t.mem.get x =
            if a ≤ x ∧ x < a + bs.length then s.mem.get x ||| bs.getD (x - a) 0 else s.mem.get x
        | .clearBits bs => t.dev.out = .done ∧ ∀ x, t.mem.get x =
            if a ≤ x ∧ x < a + bs.length then s.mem.get x &&& ~~~(bs.getD (x - a) 0) else s.mem.get x
        | .atomic fn opd => q.size ≤ 8 → t.dev.out = .word (w64 old) ∧
            StoresAt s t a q.size ((atomicResult (fn.toNat / 2) q.size old (opd.toNat % 2 ^ (8 * q.size))).getD old)))

/-- The background march and the wake of a hob (R198 to R200, R202): a row test starts where the march is enabled and the hob
awake; its end moves to the next row, counts a pass behind the last row, and a failure is recorded with MARCH_FAIL; a wake
ends retention. -/
def Sys2Proof.Says.HobMarchAndWake : Prop :=
  ∀ (s : State) (u : UnitId) (h : HearthId) (fail : Bool),
    let w := s.world
    let x := s.dev.hob u
    let last := x.row + 1 = if u.val < 16 then 16384 else 4096
    let starts := s.dev.sys.mode ∉ ([.off, .hold, .kindle, .doze] : List Mode) ∧ bitAt (w.hobReg u 0x200) 16 = true ∧
      x.march = false ∧ x.power = .awake
    (¬ starts → Answers (.marchRowStart u) s (Only s · id)) ∧
    (starts → Answers (.marchRowStart u) s fun t => (t.dev.hob u).march = true ∧ (t.dev.hob u).row = x.row) ∧
    (starts → s.dev.flips.rows = [] → x.wbq = [] →
      Answers (.marchRowStart u) s (Only s · fun d => d.onHob u fun y => { y with march := true, owed := 88, ptr := 0 })) ∧
    (x.march = false → Answers (.marchRowComplete u fail) s (Only s · id)) ∧
    (x.march = true → Answers (.marchRowComplete u fail) s fun t =>
      let y := { x with march := false, owed := 0, row := if last then 0 else x.row + 1, ptr := 0 }
      t.world.hobReg u 0x208 = (if last then w.hobReg u 0x208 + 1 else w.hobReg u 0x208) ∧ (s.dev.images.cut = none → t.mem = s.mem) ∧
      (s.dev.sys.mode ≠ .doze → s.dev.images.cut = none → t.dev.hob u = if fail then { y with
        failRow := BitVec.ofNat 14 x.row, failCnt := satInc x.failCnt, failValid := true,
        pendRows := if x.row ∈ x.pendRows then x.pendRows else x.pendRows ++ [x.row] } else y) ∧
      (fail = true → Detected s t (if u.val < 16 then 0x1E0 + u.val else 0x1F2) 0 0 s.dev.clock.tb) ∧
      Beside s t fun d => if last then (w.setHobReg u 0x208 (w.hobReg u 0x208 + 1)).dev else d) ∧
    (s.dev.sys.mode = .doze ∨ (s.dev.hob h).power = .awake → Answers (.hobWake h) s (Only s · id)) ∧
    (s.dev.sys.mode ≠ .doze → (s.dev.hob h).power ≠ .awake → Answers (.hobWake h) s (Only s · fun d =>
      (d.onHob h fun y => { y with power := .awake }).onDom (208 + h.val) fun y => { y with st := .on }))

/-- The debug access port (R59, R181, R317): where the life cycle or the grants refuse it, DEBUG_DENIED and the values of a
locked region; a word of a hob that it reaches is read or written; the port's domain wakes first; a halt request of a core under debug is taken once no
rethread stalls the core, and its watchdog stands if FRZ_DBG says so; DEBUG_RESUME lets both go on. -/
def Obligations.DebugPort : Prop :=
  ∀ (s : State) (addr : Addr) (v : Word32) (c : CoreId) (u : Nat),
    let w := s.world
    let a := addr.toNat
    let off := s.dev.sys.mode = .off ∨ s.dev.sys.mode = .hold
    let signed := ∃ g ∈ s.dev.stoker.grants, g.typ = 15 ∧ g.signed = true ∧ bitAt g.rights 1 = true
    let life := s.fuse.lifecycle ≠ 4 ∧ (s.fuse.lifecycle = 2 → signed)
    let covers := ∃ g ∈ s.dev.stoker.grants, bitAt g.rights 1 = true ∧
      (g.typ = 15 ∨ g.typ = 16 ∧ c.val < 64 ∧ (g.inst = none ∨ g.inst = some (c.val / 4)))
    let q := s.dev.core c
    let x := s.dev.wdt c
    let denied := fun (t : State) (d0 d1 : Word32) => Detected s t 0x1B3 d0 d1 s.dev.clock.tb
    let d1 := w32 (a / 2 ^ 32 + 65536 * w.debugRid.toNat)
    (off → Answers (.debugAccess addr none) s (Only s · id) ∧ Answers (.debugAccess addr (some v)) s (Only s · id)) ∧
    (¬ off → ¬ life →
      Answers (.debugAccess addr none) s (fun t => denied t (w32 (a % 2 ^ 32)) d1 ∧ t.dev.out = .word 0x0BAD0BAD ∧
        (s.dev.images.cut = none → t.mem = s.mem) ∧ Beside s t id) ∧
      Answers (.debugAccess addr (some v)) s (fun t => denied t (w32 (a % 2 ^ 32)) d1 ∧ t.dev.out = .done ∧
        (s.dev.images.cut = none → t.mem = s.mem) ∧ Beside s t id)) ∧
    let v0 := w.wakeDom 240
    (¬ off → life → Reaches v0 w.debugRid u a 4 .read →
      Answers (.debugAccess addr none) s fun t => t.pending = s.pending ∧ t.fuse = s.fuse ∧ t.mem = s.mem ∧ PtrsOnly s t ∧
        t.dev = { v0.dev with out := .word (w64 (hobWord s a 4)), hobs := t.dev.hobs }) ∧
    (¬ off → life → Reaches v0 w.debugRid u a 4 .write →
      Answers (.debugAccess addr (some v)) s fun t => t.pending = s.pending ∧ t.fuse = s.fuse ∧ StoresAt s t a 4 v.toNat ∧
        PtrsOnly s t ∧ t.dev = { v0.dev with out := .done, hobs := t.dev.hobs }) ∧
    (¬ (life ∧ covers) → Answers (.debugHaltRequest c) s fun t => (∃ d0 d1, denied t d0 d1) ∧ (s.dev.images.cut = none → t.mem = s.mem) ∧
      Beside s t fun d => { d with free := d.free + 1 }) ∧
    (life → covers → q.run = false → Answers (.debugHaltRequest c) s (Only s · id)) ∧
    (life → covers → q.run = true → q.dbg = true → Answers (.debugHaltRequest c) s (Only s · fun d =>
      d.onCore c fun q => { q with dbgReq := false })) ∧
    (life → covers → q.run = true → q.dbg = false → (s.dev.seam c).rethread.isSome = true →
      Answers (.debugHaltRequest c) s (Only s · fun d => d.onCore c fun q => { q with dbgReq := true })) ∧
    (life → covers → q.run = true → q.dbg = false → (s.dev.seam c).rethread = none →
      s.dev.images.cut = none → bitAt (w.reg 2 0 0x34) 24 = false → Answers (.debugHaltRequest c) s fun t =>
        t.dev.core c = { q with dbgReq := false, dbg := true, wait := .awake } ∧
        (x.st ≠ .off → (t.dev.wdt c).frozen = bitAt x.ctl 51) ∧
        (x.st ≠ .off → bitAt x.ctl 51 = true → (t.dev.wdt c).paused = some (x.paused.getD s.dev.clock.ivl) ∧
          (t.dev.src 0x0C5).active = true)) ∧
    (q.dbg = false → Answers (.debugResume c) s (Only s · id)) ∧
    (q.dbg = true → HeldTold w → Answers (.debugResume c) s fun t =>
      t.dev.core c = { q with dbg := false } ∧ (t.dev.wdt c).frozen = false ∧
      (x.st ≠ .off → x.susp = false → (s.dev.seam c).mode ≠ .halted → (t.dev.wdt c).paused = none ∧
        ∀ p, x.paused = some p → (t.dev.wdt c).start = x.start + (s.dev.clock.ivl - p)))

/-- Frames and time (R159, R230, R250, R252, R266, R267): a base-frame boundary takes the counters to 25,000 times its number,
raises source 32 in every running core that is not HALTED and starts the frame in every bellows that runs, counting the overruns; a step that
is due is applied; an armed compare raises its source, and disarms or moves on by whole periods; three lost syncs begin
holdover. -/
def Obligations.FramesAndCompares : Prop :=
  ∀ (s : State) (n : CompareId),
    let d := s.dev
    let w := s.world
    let cur := d.clock.tb.toNat / 25000
    let f := if d.clock.tb.toNat % 25000 = 0 ∧ d.clock.frame.toNat ≠ cur then cur else cur + 1
    let at_ := (d.advanceTb (25000 * f)).clock
    let v := w.cmpValue n
    let ctl := w.reg 5 0 (0x200C + 16 * n.val)
    let p := (w.reg 5 0 (0x2008 + 16 * n.val)).toNat
    let told := (d.core (n / 8)).run = true ∧ (d.seam (n / 8)).mode ≠ .halted
    (d.clock.running = false → Answers .frameBoundary s (Only s · id)) ∧
    (d.clock.running = true → d.images.cut = none → Answers .frameBoundary s fun t =>
      t.dev.clock.frame = w64 f ∧ t.dev.clock.ivl = at_.ivl ∧
      (∀ k, k < 65 → (d.core k).run = true → (d.seam k).mode ≠ .halted → bitAt (t.dev.core k).ipend 32 = true) ∧
      (∀ h, h < 16 → w.bellowsOn h = true →
        (t.dev.blw h).frame = w32 (f % 2 ^ 32) ∧ (t.dev.blw h).phase ≠ .stopped ∧
        ((d.blw h).phase = .window ∨ (d.blw h).phase = .slots → (d.blw h).todo ≠ [] →
          (t.dev.blw h).ovrCnt = satInc (d.blw h).ovrCnt ∧ t.world.hreg h 0x608 = (d.blw h).frame)) ∧
      (match d.chim.stepDue with
       | some (off, due) =>
         if due.toNat ≤ f then t.dev.chim.stepDue = none ∧ t.dev.clock.tb = at_.tb + off ∧
           t.dev.clock.stepCnt = satInc d.clock.stepCnt
         else t.dev.clock.tb = at_.tb ∧ t.dev.chim.stepDue = some (off, due)
       | none => t.dev.clock.tb = at_.tb ∧ t.dev.clock.stepCnt = d.clock.stepCnt)) ∧
    (bitAt ctl 0 = false → Answers (.tcmpFire n) s (Only s · id)) ∧
    (bitAt ctl 0 = true → Answers (.tcmpFire n) s fun t =>
      let tb := t.dev.clock.tb.toNat
      t.dev.clock = (d.advanceTb v).clock ∧
      (told → t.dev.core (n / 8) = { d.core (n / 8) with
        ipend := setBit (d.core (n / 8)).ipend (40 + n % 8) true }) ∧
      (¬ told → t.dev.core (n / 8) = d.core (n / 8)) ∧
      (p = 0 → bitAt (t.world.reg 5 0 (0x200C + 16 * n.val)) 0 = false ∧ t.world.cmpValue n = v) ∧
      (p ≠ 0 → ∃ m, 0 < m ∧ tb < v + m * p ∧ v + (m - 1) * p ≤ tb ∧ t.world.cmpValue n = (v + m * p) % 2 ^ 64 ∧
        bitAt (t.world.reg 5 0 (0x200C + 16 * n.val)) 0 = true ∧
        fld (t.world.reg 5 0 (0x200C + 16 * n.val)) 16 16 = min (fld ctl 16 16 + (m - 1)) 65535) ∧
      t.mem = s.mem ∧ t.fuse = s.fuse ∧ t.pending = s.pending) ∧
    (let src := w.tbSource
     (src = 0 ∨ 5 ≤ src ∨ d.clock.holdover = true → Answers .syncTimeout s (Only s · id)) ∧
     (1 ≤ src → src ≤ 4 → d.clock.holdover = false → Answers .syncTimeout s fun t =>
       LevelDetected s t 0x260 0 0 d.clock.tb ∧
       Beside s t fun d => { d with clock := { d.clock with holdover := true, locked := false, good := 0 } }))

/-- The slots and the image channels of a bellows (R159, R213, R229 to R231): the next entry of the frame runs its slot and
counts, the output phase follows the last one, the deadline starts the slots, and a channel that completes moves its words
or halts, late, and raises its source in the cores of the hearth; one whose word waits at a queue runs on. -/
def Obligations.BellowsFrames : Prop :=
  ∀ (s : State) (h : HearthId) (bad : Nat) (ch : Fin 16) (halted : Bool),
    let d := s.dev
    let w := s.world
    let b := d.blw h
    let c := ch.val
    let isIn := (w.inUse h 0x30C).testBit c
    let bound := isIn = true ∨ (w.inUse h 0x310).testBit c = true
    let runs := (b.chans.getD c {}).running = true
    (b.todo = [] ∨ b.phase ≠ .slots → Answers (.bellowsSlot h bad) s (Only s · id)) ∧
    (∀ e r, b.todo = e :: r → b.phase = .slots → Answers (.bellowsSlot h bad) s fun t =>
      (t.dev.blw h).todo = r ∧ (t.dev.blw h).ctx = fld e 0 8 ∧
      (t.dev.blw h).phase = (if r = [] then .output else .slots) ∧ t.world.hreg h 0x324 = w.hreg h 0x324 + 1 ∧
      Leaves s t fun w =>
        let v := (w.upd fun d => d.onBlw h fun b => { b with todo := r }).slot h (fld e 0 8) bad
        if r = [] then v.startOutputs h else v) ∧
    (¬ (b.phase = .window ∧ b.waitIn = true) → Answers (.inDeadlineExpiry h) s (Only s · id)) ∧
    (b.phase = .window → b.waitIn = true → Answers (.inDeadlineExpiry h) s fun t =>
      t.dev.clock = (d.advanceTb (25000 * d.clock.frame.toNat + 10 * (w.inUse h 0x308 % 4096))).clock ∧
      (t.dev.blw h).waitIn = false ∧ (t.dev.blw h).phase = (if b.todo = [] then .output else .slots) ∧
      ∀ k, k < 16 → (w.inUse h 0x30C).testBit k = true → (b.chans.getD k {}).running = true →
        bitAt (t.dev.blw h).late k = true) ∧
    (¬ runs → Answers (.imageChannelComplete h ch halted) s (Only s · id)) ∧
    (runs → d.images.cut = none → Answers (.imageChannelComplete h ch true) s fun t =>
      let x := (t.dev.blw h).chans.getD c {}
      ((b.use.getD 0x310 0).toNat.testBit c = false → x.running = false ∧ x.halted = true) ∧ bitAt (t.dev.blw h).late c = true ∧
      Detected s t (0x220 + h.val) 0 0 d.clock.tb ∧
      ∀ k, k / 4 = h.val → (d.core k).run = true → (d.seam k).mode ≠ .halted → bitAt (t.dev.core k).ipend c = true) ∧
    (runs → Answers (.imageChannelComplete h ch false) s (Leaves s · fun w =>
      let x : Acc × Nat × W := if isIn then (if (w.dmaIn h c).1 then .done else .err eFirewall, 0, (w.dmaIn h c).2) else w.dmaOut h c
      let v := x.2.2.upd fun d => d.onHob h fun y => { y with dmaPtr := BitVec.ofNat 4 (c + 1) }
      if x.1 = .wait then v.upd fun d => d.onBlw h fun b => { b with chans := b.chans.set c { (b.chans.getD c {}) with moved := x.2.1 } }
      else (if x.1 ≠ .done then v.chanHalt h c else if isIn then v.inputDone h c
        else v.upd fun d => d.onBlw h fun b => { b with chans := b.chans.set c { (b.chans.getD c {}) with running := false } }).interruptHearth
          h c)) ∧
    (bound → Answers (.dmaChannelComplete h ch halted) s (Only s · id)) ∧
    (¬ bound → Answers (.dmaChannelComplete h ch halted) s fun t =>
      (∀ k, t.dev.core k = if k / 4 = h.val ∧ (d.core k).run = true ∧ (d.seam k).mode ≠ .halted then
        { d.core k with ipend := setBit (d.core k).ipend c true } else d.core k) ∧
      t.dev = { d with out := .none, cores := t.dev.cores } ∧ t.mem = s.mem ∧ t.fuse = s.fuse ∧ t.pending = s.pending)


/-- The DRAM (R348 to R353, R357 to R359, R364): a line reads back the data last written to it under the channel's epoch; a
write of a whole line stores its block with the next COUNT, a smaller one merges with the block it has checked, and a read
of a clean block answers its bytes, each through the FIFOs of its channel, which hold it back while one is full (where an entry
crosses is the model's choice, log entry 152); a scrub of clean lines ends with its summary, a fill writes every line that is not
retired and whose channel is not stopped; a write drops the write-back that waits for its line; and DRAM_SCRUB_OVERDUE comes when the oldest region has outlived the limit. -/
def Obligations.DramLines : Prop :=
  (∀ (data : List Byte) (line : Nat) (n : BitVec 48) (epoch : Half), data.length = 64 → line < 2 ^ 42 →
    checkBlock (some (mkBlock data line n epoch)) line epoch (some n) = ⟨0, data, []⟩ ∧
    checkBlock (some (mkBlock data line n epoch)) line epoch none = ⟨0, data, []⟩ ∧
    (∀ e, e ≠ epoch → (checkBlock (some (mkBlock data line n epoch)) line e none).outcome = 4) ∧
    (∀ c, c ≠ n → (checkBlock (some (mkBlock data line n epoch)) line epoch (some c)).outcome = 5)) ∧
  ∀ (s : State) (m : Rid) (addr : Addr) (len : Nat) (bytes : List Byte) (dur : Word64),
    let d := s.dev
    let w := s.world
    let a := addr.toNat
    let line := a / 64
    let ch := d.lineChan line
    let found := fun (l : Nat) =>
      checkBlock (d.dram.blocks.get? l) l (d.chan (d.lineChan l)).epoch ((d.chan (d.lineChan l)).recorded l)
    let cross := 10 + 2 * (d.dramMap (a - dramBase)).1
    let full := (d.fifo cross).full 64 = true ∨ (d.fifo (cross + 1)).full 64 = true
    let ready := fun (n : Nat) (dir : Dir) => d.sys.mode ≠ .off ∧ 0 < n ∧ a % 64 + n ≤ 64 ∧ d.inDram a = true ∧ d.inDram (a + n - 1) = true ∧
      w.fwAdmits 8 ((a / 256 * 256 - fwBase 8) / 256) m dir = true ∧ ¬ full ∧ d.retiredAt (line * 64) = false ∧ d.chanStopped ch = false
    let stored := fun (t : State) (data : List Byte) =>
      let c := d.chan ch
      Only s t fun d => let d := (d.crossed cross).crossed (cross + 1); ({ d with
        dram := { d.dram with blocks := d.dram.blocks.set line (mkBlock data line (c.wgen + 1) c.epoch),
                              wbacks := d.dram.wbacks.filter fun x => x.1 != line },
        out := .done }).onChan ch fun c =>
          { c with wgen := c.wgen + 1, recent := ((line, c.wgen + 1) :: c.recent.filter (fun p => p.1 != line)).take 1024 }
    let lines := fun (j : ScrubJob) => (List.range (j.len / 64)).map (· + j.start / 64)
    (d.sys.mode = .off →
      Answers (.dramRead m addr len) s (Only s · id) ∧ Answers (.dramWrite m addr bytes) s (Only s · id)) ∧
    (d.sys.mode ≠ .off → Answers (.dramRead m addr 0) s (Only s · fun d => { d with out := .bytes [] }) ∧
      Answers (.dramWrite m addr []) s (Only s · fun d => { d with out := .done })) ∧
    (d.inDram a = true → d.inDram (a + len - 1) = true → 0 < len → a % 256 + len ≤ 256 →
      w.fwAdmits 8 ((a / 256 * 256 - fwBase 8) / 256) m .read = true → full → Answers (.dramRead m addr len) s (Only s · id)) ∧
    (ready len .read → (found line).outcome = 0 → Answers (.dramRead m addr len) s (Only s · fun d =>
      let bs := slice (found line).data (a % 64) len
      let d := (d.crossed cross).crossed (cross + 1)
      { d with out := if len ≤ 8 then .word (w64 (ofLe bs)) else .bytes bs })) ∧
    (ready len .read → (found line).bad = true → Answers (.dramRead m addr len) s fun t =>
      t.world.reg 10 ch 0x2C = satInc (w.reg 10 ch 0x2C) ∧ t.dev.dram = d.dram ∧
      Detected s t (0x274 + ch) (w32 (line * 64 % 2 ^ 32)) (dramDetail (line * 64) (found line).outcome) d.clock.tb) ∧
    (ready bytes.length .write → bytes.length = 64 → w.flipArmed ch line = false →
      Answers (.dramWrite m addr bytes) s (stored · bytes)) ∧
    (ready bytes.length .write → bytes.length < 64 → w.flipArmed ch line = false → (found line).outcome = 0 →
      Answers (.dramWrite m addr bytes) s (stored · ((found line).data.take (a % 64) ++ bytes ++
        (found line).data.drop (a % 64 + bytes.length)))) ∧
    ((∀ j, d.dram.job = some j → j.fill.isSome = true) → Answers (.scrubComplete dur) s (Only s · id)) ∧
    (∀ j, d.dram.job = some j → j.fill = none →
      (∀ l ∈ lines j, d.retiredAt (l * 64) = false ∧ (found l).outcome = 0) → (∀ k, d.chanStopped k = false) →
      Answers (.scrubComplete dur) s fun t =>
        t.dev.dram = { d.dram with job := none, scrubbed := t.dev.dram.scrubbed } ∧
        t.dev.clock = (d.advanceTb (j.since.toNat + dur.toNat)).clock ∧
        (∀ r, t.dev.dram.scrubbed.get? r =
          if r < d.regions ∧ j.start - dramBase ≤ r * 0x4000000 ∧ (r + 1) * 0x4000000 ≤ j.start - dramBase + j.len
          then some t.dev.clock.ivl else d.dram.scrubbed.get? r) ∧
        Leaves s t fun w => ((w.endJob j dur.toNat).scrubbedRange j.start j.len).finishAll 0x0503 0 sDone
          (le 8 j.start ++ le 8 (j.len / 64) ++ le 4 0 ++ le 4 0 ++ le 4 0 ++ le 4 0 ++ le 8 0 ++ le 8 dur.toNat)) ∧
    ((∀ j, d.dram.job = some j → j.fill = none) → Answers (.fillComplete dur) s (Only s · id)) ∧
    (∀ j v, d.dram.job = some j → j.fill = some v → (∀ c, c < 4 → bitAt (w.reg 10 c 0x4C) 0 = false) →
      Answers (.fillComplete dur) s fun t => t.dev.dram.job = none ∧ ∀ l,
        if l ∈ lines j ∧ d.retiredAt (l * 64) = false ∧ d.chanStopped (d.lineChan l) = false then
          ∃ n, t.dev.dram.blocks.get? l = some (mkBlock (fillLine v) l n (d.chan (d.lineChan l)).epoch)
        else t.dev.dram.blocks.get? l = d.dram.blocks.get? l) ∧
    (d.oldestScrub = none → Answers .scrubOverdue s (Only s · id)) ∧
    (∀ x, d.oldestScrub = some x → Answers .scrubOverdue s fun t =>
      ReachesIvl s t (x + d.scrubLimit * 3600000000000 + 1) ∧ LevelDetected s t 0x280 0 0 t.dev.clock.tb)

/-- ENQ (R377): in a WORD queue it appends one word, visible at once; in a PACKET queue a closed packet of one word, a length
word of 1 and then the word; in a DISABLED queue it is misuse, counted and recorded, with an error response. The waiters
come first, then the tail cell is decoded, and a queue without a cell for the word makes the write wait. -/
def Obligations.EnqAppends : Prop :=
  ∀ (s : State) (m : Rid) (q : QueueId) (v : Word32),
    let g := s.world.grantWaiters
    let e := g.tailRead m q
    let k := e.dev.queue q
    let waits := fun (t : State) (begun : Bool) => Leaves s t fun _ => (g.upd fun d => { d with bobbin := { d.bobbin with
      waiters := d.bobbin.waiters ++ [⟨m, q, 0x20, [v], begun⟩] } }).settle
    (s.dev.sys.mode = .off → Answers (.enq m q v) s (Only s · id)) ∧
    (s.dev.sys.mode ≠ .off → s.world.fwAdmits 3 ((pageAddr q 0x20 - fwBase 3) / 256) m .write = true →
    ((∃ y ∈ g.dev.bobbin.waiters, y.rid = m) → Answers (.enq m q v) s (waits · false)) ∧
    ((∀ y ∈ g.dev.bobbin.waiters, y.rid ≠ m) →
    (k.cfg.mode = .word → k.broken = false → e.roomInTail q = true ∨ e.limit q 1 = none →
      Answers (.enq m q v) s fun t =>
        let x := e.enqWord q v
        (∃ h c n, (x.dev.queue q).ends = some (h, c) ∧ fld (x.dev.bobbin.word c 1) 0 4 = n + 1 ∧ n < 14 ∧
          x.dev.bobbin.word c (2 + n) = v ∧ (e.roomInTail q = true → (k.ends.map (·.2)) = some c ∧ fld (e.dev.bobbin.word c 1) 0 4 = n) ∧
          (e.roomInTail q = false → n = 0 ∧ c = e.dev.bobbin.freeCell)) ∧
        (x.dev.queue q).words = k.words + 1 ∧ (x.dev.queue q).seq = k.seq + 1 ∧
        Leaves s t fun _ => (x.poolNote m q 0x20).settle.answer .done) ∧
    (k.cfg.mode = .packet → k.broken = false → e.limit q 1 = none →
      Answers (.enq m q v) s fun t =>
        let x := e.enqPacket q v
        let c := e.dev.bobbin.freeCell
        (x.dev.queue q).ends.map (·.2) = some c ∧ fld (x.dev.bobbin.word c 1) 0 4 = 2 ∧
        bitAt (x.dev.bobbin.word c 1) 4 = true ∧ bitAt (x.dev.bobbin.word c 1) 5 = true ∧
        x.dev.bobbin.word c 2 = 1 ∧ x.dev.bobbin.word c 3 = v ∧
        (x.dev.queue q).words = k.words + 2 ∧ (x.dev.queue q).seq = k.seq + 2 ∧
        Leaves s t fun _ => (x.poolNote m q 0x20).settle.answer .done) ∧
    (k.cfg.mode = .disabled ∨ k.broken = true → Answers (.enq m q v) s fun t =>
      let out : Answer := if ridClass m = 7 then .done else .error 1
      t.dev.out = out ∧
      (s.dev.bobbin.waiters = [] → bitAt (s.world.reg 2 0 0x34) 24 = false →
        (s.dev.queue q).cfg.mode = .disabled ∨ (s.dev.queue q).broken = true → t.world.reg 8 0 0x54 = satInc (s.world.reg 8 0 0x54) ∧
        Detected s t 0x2C0 (queueDetail q 0x20) (ridDetail m) s.dev.clock.tb) ∧
      Leaves s t fun _ =>
        let x := ((e.countReg 8 0 0x54).queueNote 0x2C0 m q 0x20).settle
        (match x.coreOf m with | some c => x.storeNotice c 3 | none => x).answer out) ∧
    (k.cfg.mode ≠ .disabled → k.broken = false → (k.cfg.mode = .word → e.roomInTail q = false) → e.limit q 1 ≠ none →
      Answers (.enq m q v) s (waits · true))))

/-- Reads of a queue page (R373 to R376, R379, R384) and WAITER_GRANT: DEQ and PEEK answer the first visible word with its
flags and number, behind the waiters that are granted first, and DEQ takes it off and frees its cell with the last word; a bit
error is corrected, a double one poisons the word or breaks the queue; QSTAT answers the state; TRY_OPEN reserves
all its cells or answers a reason; the pool window is reached under a grant; a pointer fault stops its boundary FIFO. -/
def Obligations.QueuePages : Prop :=
  ∀ (s : State) (m : Rid) (q : QueueId) (off : BitVec 22) (v : Word32) (n : Fin 30),
    let d := s.dev
    let w := s.world
    let g := w.grantWaiters
    let k := g.dev.queue q
    let reads := fun (o : Nat) => d.sys.mode ≠ .off ∧ w.fwAdmits 3 ((pageAddr q o - fwBase 3) / 256) m .read = true
    let first := fun (x : W) (poison : Bool) => match x.head q with
      | none => w64 ((x.dev.queue q).rdSeq.toNat % 2 ^ 24 * 2 ^ 32)
      | some (v, f, l, n) => w64 (2 ^ 63 + f.toNat * 2 ^ 62 + l.toNat * 2 ^ 61 + poison.toNat * 2 ^ 60 + n * 2 ^ 32 + v.toNat)
    let read := fun (o : Nat) => g.cellRead m q o
    let sound := g.dev.bobbin.flips.rows = [] ∧ (g.head q = none ∨ g.chainOk q = true)
    let struck := fun (o : Nat) => reads o ∧ d.bobbin.waiters = [] ∧ d.bobbin.flips.rows = [] ∧ w.head q ≠ none ∧
      bitAt (w.reg 2 0 0x34) 24 = false
    (reads 8 → Answers (.peek m q .clean) s (Leaves s · fun _ => (read 8).2.settle.answer (.word (first (read 8).2 (read 8).1)))) ∧
    (reads 8 → sound → Answers (.peek m q .clean) s (Leaves s · fun _ => g.settle.answer (.word (first g false)))) ∧
    (reads 0 → (read 0).2.head q = none → Answers (.deq m q .clean) s (Leaves s · fun _ =>
      (read 0).2.settle.answer (.word (first (read 0).2 false)))) ∧
    (∀ y c e, reads 0 → (read 0).2.head q = some y → ((read 0).2.dev.queue q).ends = some (c, e) →
      Answers (.deq m q .clean) s fun t =>
        let r := (read 0).2
        let k := r.dev.queue q
        let x := r.deqWord q
        let spent := fld (r.dev.bobbin.word c 1) 0 4 ≤ k.rd + 1
        (sound → r = g ∧ (read 0).1 = false) ∧
        (x.dev.queue q).words = k.words - 1 ∧ (x.dev.queue q).rdSeq = k.rdSeq + 1 ∧ (x.dev.queue q).seq = k.seq ∧
        (x.dev.queue q).occ = (if spent then k.occ - 1 else k.occ) ∧
        (x.dev.queue q).rd = (if spent then 0 else k.rd + 1) ∧
        x.dev.bobbin.owner.get? c = (if spent then none else r.dev.bobbin.owner.get? c) ∧
        Leaves s t fun _ => x.settle.answer (.word (first r (read 0).1))) ∧
    (struck 8 → w.chainOk q = true →
      (Answers (.peek m q .corrected) s fun t => t.dev.out = .word (first w false) ∧
        Detected s t 0x2C4 (queueDetail q 8) (ridDetail m) d.clock.tb) ∧
      Answers (.peek m q .payload) s fun t => t.dev.out = .word (first w true) ∧
        Detected s t 0x2C5 (queueDetail q 8) (ridDetail m) d.clock.tb) ∧
    (∀ ecc, struck 8 → ecc = .chain ∨ ecc = .owner ∨ ecc ≠ .corrected ∧ w.chainOk q = false →
      Answers (.peek m q ecc) s fun t => (t.dev.queue q).broken = true ∧
        LevelDetected s t 0x2C6 (queueDetail q 8) (ridDetail m) d.clock.tb) ∧
    (reads 0x10 → Answers (.qstat m q) s (Leaves s · fun _ => g.settle.answer
      (.word (w64 (k.occ + k.broken.toNat * 2 ^ 17 + min k.words 0xFFFFFFFF * 2 ^ 32))))) ∧
    (reads 0x18 → k.broken = false → g.tryReason m q = none → Answers (.tryOpen m q) s fun t =>
      let n := k.cfg.tryCells
      let x := g.openPkt m q n true
      (∃ p, x.dev.bobbin.openOf m q = some p ∧ p.tried = true ∧ p.len = 0 ∧ p.cells.length = n) ∧
      (x.dev.queue q).occ = k.occ + n ∧
      Leaves s t fun _ => (x.poolNote m q 0x18).settle.answer (.word (w64 (2 ^ 63 + (14 * n - 1))))) ∧
    (∀ r, reads 0x18 → d.bobbin.waiters = [] → bitAt (w.reg 2 0 0x34) 24 = false → k.broken = false → w.tryReason m q = some r →
      Answers (.tryOpen m q) s fun t =>
        t.world.reg 8 0 0x50 = satInc (w.reg 8 0 0x50) ∧ t.dev.out = .word (w64 (r * 2 ^ 60)) ∧
        Detected s t 0x2C1 (queueDetail q 0x18) (ridDetail m) d.clock.tb) ∧
    ((∀ x ∈ d.bobbin.waiters, x.begun = true ∧ (w.waitHolds x = true ∨ w.tryWaiter x = none)) →
      Answers .waiterGrant s (Leaves s · W.settle)) ∧
    (∀ x r w1, d.bobbin.waiters = [x] → w.waitHolds x = false → w.tryWaiter x = some (r, w1) →
      Answers .waiterGrant s (Leaves s · fun _ =>
        ((w1.storeTaken x r).upd fun d => { d with bobbin := { d.bobbin with waiters := [] } }).settle)) ∧
    (let i := off.toNat / 4
     let admitted := fun dir => d.sys.mode ≠ .off ∧ w.fwAdmits 2 ((0x11000000 + i * 4 - fwBase 2) / 256) m dir = true
     (∀ g, admitted .read → w.grantOn 0 8 (some 0) = some g → d.bobbin.flips.rows = [] → PoolTold w →
        Answers (.poolWindowAccess m off none) s (Only s · fun d => { d with out := .word (w64 (d.bobbin.pool.getD i 0).toNat) })) ∧
     (∀ g, admitted .write → w.grantOn 0 8 (some 0) = some g → w.xlogFull = false →
        Answers (.poolWindowAccess m off (some v)) s fun t =>
          (∀ j, t.dev.bobbin.pool.getD j 0 = if j = i then v else d.bobbin.pool.getD j 0) ∧
          t.dev.bobbin = { d.bobbin with pool := t.dev.bobbin.pool, flips := t.dev.bobbin.flips } ∧
          (∀ b, t.dev.bobbin.flips.get? b = if b / 4 = i then none else d.bobbin.flips.get? b) ∧
          Leaves s t fun w => ((w.poolPut (i * 4) (le 4 v.toNat)).xlog g.id m 0 (0x11000000 + i * 4) v).answer .done) ∧
     (admitted .read → w.grantOn 0 8 (some 0) = none → Answers (.poolWindowAccess m off none) s fun t =>
        Detected s t 0x050 (w32 (0x11000000 + i * 4)) (w32 (m.toNat * 2 ^ 16)) d.clock.tb)) ∧
    (let dead := d.sys.mode = .off ∨ d.sys.mode = .hold ∨ n.val ∈ d.bobbin.stopped
     (dead → Answers (.bfifoPointerFault n) s (Only s · id)) ∧
     (¬ dead → Answers (.bfifoPointerFault n) s fun t => n.val ∈ t.dev.bobbin.stopped ∧
        (n.val < 2 → t.dev.ports.pcieUp = false ∧ t.dev.ports.pcieDead = true) ∧
        (2 ≤ n.val → n.val < 6 ∨ 10 ≤ n.val →
          Detected s t (if 10 ≤ n.val ∧ n.val < 18 then 0x2C7 else 0x2C8) (w32 n) 0 d.clock.tb)))

/-- The packets of a queue (R373, R378, R380): PKT_OPEN takes the first cell or waits; PKT_WORD appends its words in order,
with further cells as they are needed, and none beyond 1,023; PKT_CLOSE makes the packet visible, its length word first,
or aborts it. -/
def Obligations.QueuePackets : Prop :=
  ∀ (s : State) (m : Rid) (q : QueueId) (v : Word32) (vv : Word64) (two : Bool),
    let d := s.dev
    let g := s.world.grantWaiters
    let k := g.dev.queue q
    let writes := fun (o : Nat) => d.sys.mode ≠ .off ∧ s.world.fwAdmits 3 ((pageAddr q o - fwBase 3) / 256) m .write = true
    let first := ∀ y ∈ g.dev.bobbin.waiters, y.rid ≠ m
    let ws := if two then [lo32 vv, hi32 vv] else [lo32 vv]
    let waits := fun (t : State) (o : Nat) (ws : List Word32) => Leaves s t fun _ => (g.upd fun d => { d with
      bobbin := { d.bobbin with waiters := d.bobbin.waiters ++ [⟨m, q, o, ws, true⟩] } }).settle
    let misused := fun (t : State) (o : Nat) => t.world.reg 8 0 0x54 = satInc (s.world.reg 8 0 0x54) ∧
      Detected s t 0x2C0 (queueDetail q o) (ridDetail m) d.clock.tb ∧ t.dev.out = if ridClass m = 7 then .done else .error 1
    let mayOpen := k.broken = false ∧ k.cfg.mode = .packet ∧ g.dev.bobbin.openOf m q = none
    let alone := d.bobbin.waiters = [] ∧ bitAt (s.world.reg 2 0 0x34) 24 = false
    let place := g.dev.bobbin.opens.length < 512 ∧ g.limit q 1 = none
    (writes 0x24 → first → mayOpen → place → Answers (.pktOpen m q v) s fun t =>
      let x := g.openPkt m q 1 false
      x.dev.bobbin.openOf m q = some { rid := m, q := q, cells := [g.dev.bobbin.freeCell], tried := false } ∧
      (x.dev.queue q).occ = k.occ + 1 ∧ Leaves s t fun _ => (x.poolNote m q 0x24).settle.answer .done) ∧
    (writes 0x24 → first → mayOpen → ¬ place → Answers (.pktOpen m q v) s (waits · 0x24 [])) ∧
    (writes 0x24 → alone → ¬ mayOpen → Answers (.pktOpen m q v) s (misused · 0x24)) ∧
    (∀ p, writes 0x28 → first → g.dev.bobbin.openOf m q = some p → k.broken = false →
      p.len + ws.length ≤ 1023 → p.len + 1 + ws.length ≤ 14 * p.cells.length → Answers (.pktWord m q vv two) s fun t =>
        let x := g.storeWords m q ws
        x.dev.bobbin.openOf m q = some { p with len := p.len + ws.length } ∧
        (∀ i, i < ws.length → x.dev.bobbin.word (p.cells.getD ((p.len + 1 + i) / 14) 0) (2 + (p.len + 1 + i) % 14) = ws.getD i 0) ∧
        Leaves s t fun _ => x.settle.answer .done) ∧
    (∀ p, writes 0x28 → first → g.dev.bobbin.openOf m q = some p → k.broken = false → p.tried = false →
      p.len + ws.length ≤ 1023 → ∀ n, 0 < n → p.cells.length + n = (p.len + 1 + ws.length + 13) / 14 →
      (g.limit q n ≠ none → Answers (.pktWord m q vv two) s (waits · 0x28 ws)) ∧
      (g.limit q n = none → Answers (.pktWord m q vv two) s fun t =>
        let c := g.takeCells q n
        Leaves s t fun _ => (((c.2.setOpen { p with cells := p.cells ++ c.1 }).storeWords m q ws).poolNote m q 0x28).settle.answer .done)) ∧
    (writes 0x28 → alone → d.bobbin.openOf m q = none ∨ (d.queue q).broken = true →
      Answers (.pktWord m q vv two) s (misused · 0x28)) ∧
    (∀ p, writes 0x2C → first → g.dev.bobbin.openOf m q = some p → bitAt v 0 = false → k.broken = false →
      p.len + 1 ≤ 14 * p.cells.length → Answers (.pktClose m q v) s fun t =>
        let x := g.closePkt p
        x.dev.bobbin.openOf m q = none ∧ (x.dev.queue q).words = k.words + (p.len + 1) ∧
        (x.dev.queue q).seq = k.seq + w32 (p.len + 1) ∧
        x.dev.bobbin.word (p.cells.getD 0 0) 2 = w32 (p.len + p.trunc.toNat * 2 ^ 31) ∧
        Leaves s t fun _ => x.settle.answer .done) ∧
    (∀ p, writes 0x2C → alone → d.bobbin.openOf m q = some p → bitAt v 0 = true →
      Answers (.pktClose m q v) s fun t => t.world.reg 8 0 0x58 = satInc (s.world.reg 8 0 0x58) ∧ t.dev.out = .done ∧
        Detected s t 0x2C2 (queueDetail q 0x2C) (ridDetail m) d.clock.tb) ∧
    (writes 0x2C → alone → d.bobbin.openOf m q = none → Answers (.pktClose m q v) s (misused · 0x2C))

/-- The kernel of the Thimble (R397 to R404, R411, R412, R416, R418, R434): a reset takes up the valid store and opens a
chain with GENESIS; step 6 gives the state; a halt of the lanes or of the kernel's watchdog restarts it, and the third
restart in 60 s halts it; the life cycle and the seal are recorded as they are sensed; a kernel that does not run is down. A record
that is one too many for its millisecond waits, and time passes in the device (R409). -/
def Obligations.ThimbleKernel : Prop :=
  ∀ (s : State) (r : ThmBoot),
    let d := s.dev
    let x := d.thm
    let w := s.world
    let still := fun (i : Instr) => Answers i s (Only s · id)
    let thm := fun (t : State) (y : Thimble) => Beside s t fun d => { d with thm := y }
    let on := x.powered = true ∧ x.st ≠ .halted
    let recent := x.restarts.filter (fun v => decide (x.time.toNat < v.toNat + 60000000000))
    let dev := fun (t : State) (y : Thimble) => Beside s t fun _ => (w.onThm fun _ => y).thmPage.dev
    let genesis := fun (y : Thimble) (n : Word32) (cause : Nat) (z : ThmRec) => z ∈ y.log ∧ z.rnum = n ∧ z.typ = 1 ∧
      z.prev = List.replicate 16 0 ∧ z.ps = byteWords y.chain 4 ++ [w32 s.fuse.audit, w32 (cause + y.version.toNat * 2 ^ 16)] ∧
      ∃ k, y.chain = Config.freeBytes k 16
    let restarted := fun (t : State) (cause : Nat) =>
      let y := t.dev.thm
      y.restarts = recent ++ [x.time] ∧ y.points = 0 ∧ y.gate = none ∧ y.replay = none ∧
      (2 ≤ recent.length → y.st = .halted ∧ y.signing = none ∧ y.log = x.log) ∧
      (recent.length < 2 → y.st = .boot ∧ y.batch = 0 ∧ (x.logFull = false → ∃ z, genesis y (x.last + 1) cause z))
    (s.fuse.variantM = false ∨ x.powered = true → still .thmReset) ∧
    (s.fuse.variantM = true → x.powered = false → Answers .thmReset s fun t =>
      let y := t.dev.thm
      t.fuse = { s.fuse with storeKey := some (s.fuse.storeKey.getD d.free) } ∧ t.pending = s.pending ∧ y.powered = true ∧
      y.lifecycle = BitVec.ofNat 3 w.lifecycle ∧ y.up = false ∧ y.gate = none ∧ y.gateStat = x.gateStat ∧ y.fwd = x.fwd ∧
      (w.lifecycle = 4 → y.st = .halted ∧ y.log = []) ∧
      (w.lifecycle ≠ 4 → y.st = .boot ∧ y.last = 1 ∧ ∃ z, genesis y 1 0 z ∧ y.log = [z] ∧
        y.head = sha256 (List.replicate 32 0 ++ z.bytes) ∧
        ∀ c, ({ w with fuse := t.fuse } : W).validStore = some c → y.version = c.version ∧ y.params = c.params ∧ y.storeOk = true)) ∧
    (¬ (x.powered = true ∧ x.st = .boot) → still (.thmBootComplete r)) ∧
    (x.powered = true → x.st = .boot → r.ok = false → Answers (.thmBootComplete r) s (thm · { x.lost with
      powered := true, lifecycle := x.lifecycle, time := x.time })) ∧
    (x.powered = true → x.st = .boot → r.ok = true → Answers (.thmBootComplete r) s fun t => thm t (paged w { x with
      st := if x.lifecycle = 0 then .noImage else if x.storeOk = false then .noStore else if x.imageOk = false then .noImage
        else if x.batch ≠ 0 then .batch else if x.points ≠ 0 then .measuring else .idle
      up := true })) ∧
    (x.powered = false → still .thmRstNLow) ∧
    (x.powered = true → Answers .thmRstNLow s fun t => t.dev.thm.powered = false ∧ t.dev.thm.st = .boot ∧
      t.dev.thm.log = [] ∧ t.dev.thm.gate = none ∧ t.dev.thm.nextTag = x.nextTag ∧ t.dev.thm.fwd = x.fwd ∧
      (∀ g, x.gate = some g → x.gateNext = none → g.watched = true → g.answer = none →
        t.dev.thm.gateStat = w32 (2 + g.tag.toNat * 2 ^ 8 + 10 * 2 ^ 16 + g.code.toNat * 2 ^ 24)) ∧
      (t.fuse = s.fuse ∨ ∃ old, x.before = some old ∧ t.fuse = { s.fuse with audit := old.audit }) ∧
      (x.gate = none → x.before = none → thm t x.lost)) ∧
    (¬ on → still .thmLaneHalt ∧ still .thmKernelWatchdog) ∧
    (on → Answers .thmLaneHalt s (restarted · 1) ∧ Answers .thmKernelWatchdog s (restarted · 3)) ∧
    (on → s.fuse.variantM = true → d.sys.mode ≠ .off → Answers .thmLaneHalt s fun t =>
      Detected s t 0x306 w.thmState (w32 recent.length) d.clock.tb) ∧
    (x.serves = true → still .thmHeartbeatTimeout) ∧
    (x.serves = false → Answers .thmHeartbeatTimeout s (thm · { x with up := false })) ∧
    (x.powered = false → still .lifecycleSensed) ∧
    (x.powered = true → Answers .lifecycleSensed s fun t =>
      let scrapped := BitVec.ofNat 3 w.lifecycle = 4
      thm t (paged w { x with lifecycle := BitVec.ofNat 3 w.lifecycle, st := if scrapped then .halted else x.st,
                              signing := if scrapped then none else x.signing })) ∧
    (let sealed := fun (y : Thimble) => y.kernelRecord 8
       ([w32 (y.sealOpen.toNat + 2 * y.sealCommit.toNat), w32 s.fuse.audit] ++ byteWords y.paramDigest 4)
     let page := fun (t : State) (y : Thimble) => dev t y ∧ (x.pace = x → thm t (paged w y))
     (¬ (on ∧ x.sealOpen = false) → still .sealOpened) ∧
     (on → x.sealOpen = false → Answers .sealOpened s (page · (sealed { x with sealOpen := true, sealCommit := false }))) ∧
     (¬ (on ∧ x.sealOpen = true) → still .sealClosed) ∧
     (on → x.sealOpen = true → Answers .sealClosed s (page · (sealed { x with sealOpen := false, staged := [] }))))

/-- Samples, records and signings (R405 to R415, R429): the decimators and the filter give a sample; a pulse counts with its
period; a submitted record goes on with the chain, into the log and the ring, and begins a signing when one is due; the
signing timer does so 1,000 ms after the last; a completed signing enters the table and makes a SIGNATURE record; a record
is forwarded as a packet of its queue. -/
def Obligations.ThimbleRecords : Prop :=
  ∀ (s : State) (i : Fin 48) (bits : List Bool) (j : Fin 16) (period : Word32) (ty point : Byte) (flags : BitVec 6) (ps : Payload),
    let d := s.dev
    let x := d.thm
    let w := s.world
    let still := fun (i : Instr) => Answers i s (Only s · id)
    let appended := fun (y : Thimble) (info : Nat) (ps : List Word32) => ∃ r : ThmRec,
      y.log = (if x.log.length < 16384 then x.log else x.log.drop 1) ++ [r] ∧ r.rnum = x.last + 1 ∧ y.last = x.last + 1 ∧
      r.time = x.pace.time ∧ r.batch = x.batch ∧ r.ps = ps ∧ r.info = w32 info ∧ r.prev = x.head.take 16 ∧ r.tag = wordAt x.chain 0 ∧
      y.head = sha256 (x.head ++ r.bytes) ∧
      (x.replay = none → y.ring.get? (x.ringCount.toNat % 3072) = some r ∧ y.ringCount = x.ringCount + 1)
    (let c := x.params.getD (0x10 + i.val) 0
     let r := fld c 0 12
     let live := x.fwRuns = true ∧ x.refLost = false ∧ bitAt c 12 = true ∧ 0 < r ∧ bits.length = 2 * r
     let half := fun (y : ThmInput) (bs : List Bool) => (bs.foldl (fun y b => y.bit b (bitAt c 13)) y).comb
     let y := half (half { d.thmIn i with stuck := (d.thmIn i).run == 1024 } (bits.take r)) (bits.drop r)
     let z := y.output (fun k => tap24 (x.params.getD ((if bitAt c 14 then 0xC0 else 0x80) + k) 0)) r
     (¬ live → still (.thmSample i bits)) ∧
     (live → Answers (.thmSample i bits) s fun t =>
       Beside s t (fun d => d.onThmIn i fun _ => { z with stuck := z.run == 1024, valid := z.run != 1024 }) ∧
       (t.dev.thmIn i).sample.toInt ≤ 2 ^ 23 - 1 ∧ -(2 ^ 23 - 1) ≤ (t.dev.thmIn i).sample.toInt ∧
       (y.stuck = true → (d.thmIn i).run < 1024 → s.fuse.variantM = true → d.sys.mode ≠ .off →
         Detected s t 0x307 w.thmState (w32 i.val) d.clock.tb))) ∧
    (let c := x.params.getD (0x40 + j.val) 0
     let live := x.serves = true ∧ bitAt c 8 = true ∧ fld c 0 8 ≤ period.toNat
     let gone := (x.pulseAt.get? j).map fun a => (x.time.toNat - a.toNat) / 10
     (¬ live → still (.pulseEdge j period)) ∧
     (live → Answers (.pulseEdge j period) s (Only s · fun d => { d with thm := { d.thm with
       pulses := x.pulses.set j ((x.pulses.getD j (0, 0)).1 + 1, if 2 ^ 32 - 2 < gone.getD 0 then 0xFFFFFFFF else period),
       pulseAt := x.pulseAt.set j x.time } }))) ∧
    (let taken := x.fwRuns = true ∧ (ty = 2 ∨ ty = 3 ∨ ty = 11) ∧ (point.toNat < 32 ∨ point = 0xFF) ∧
       (ty = 11 ∨ x.inhibit = false ∧ x.refLost = false)
     (¬ taken → still (.recordSubmit ty point flags ps)) ∧
     (taken → x.logFull = true → Answers (.recordSubmit ty point flags ps) s fun t =>
       Beside s t fun d => { d with thm := paged w x }) ∧
     (taken → x.logFull = false → Answers (.recordSubmit ty point flags ps) s fun t =>
       let y := t.dev.thm
       appended y (ty.toNat + point.toNat * 2 ^ 8 + x.sealOpen.toNat * 2 ^ 16 + 2 ^ 17 + flags.toNat * 2 ^ 18) (payloadWords ps) ∧
       (x.pace = x → Beside s t fun d => { d with thm := paged w (x.record ty point true flags (payloadWords ps)) }) ∧
       (x.signing ≠ none → y.signing = x.signing ∧ y.unsigned = true) ∧
       (x.signing = none → x.pace.signDue = true → y.logFull = false →
         y.signing = some { rnum := y.last, time := x.pace.time, h := y.head } ∧ y.unsigned = false) ∧
       Beside s t fun _ => (w.onThm fun x => x.record ty point true flags (payloadWords ps)).thmPage.dev)) ∧
    (let due := x.powered = true ∧ x.unsigned = true ∧ x.signing = none ∧ x.st ≠ .halted
     (¬ due ∨ x.signAt = none → still .signingTimer) ∧
     (∀ a, due → x.signAt = some a → Answers .signingTimer s (Only s · fun d =>
       let d := d.advance (a.toNat + 1000000000 - x.time.toNat)
       let y := d.thm
       { d with thm := paged { w with dev := d } (if y.logFull then y else { y with
         signing := some { rnum := y.last, time := y.time, h := y.head }, signAt := some y.time, signAgain := false,
         unsigned := false }) }))) ∧
    (x.signing = none ∨ x.powered = false ∨ x.st = .halted → still .signingComplete) ∧
    (∀ g, x.signing = some g → x.powered = true → x.st ≠ .halted →
      (x.logFull = true → Answers .signingComplete s (Only s · fun d => { d with thm := { d.thm with signing := none } })) ∧
      (x.logFull = false → Answers .signingComplete s fun t =>
        let y := t.dev.thm
        let i := x.sigCount % 64
        let block := le 4 0x47534854 ++ le 4 g.rnum.toNat ++ x.chain ++ le 8 g.time.toNat ++ g.h
        let e : SigEntry := {
          block := block
          sig := if s.fuse.recordKey ≠ none ∧ x.lifecycle ≠ 3 then ownSign (s.fuse.recordKey.getD 0) d.free block
            else List.replicate 384 0 }
        appended y (7 + 0xFF * 2 ^ 8 + x.sealOpen.toNat * 2 ^ 16) [w32 i, g.rnum,
          if s.fuse.recordKey ≠ none ∧ x.lifecycle ≠ 3 then 0 else 1, w32 s.fuse.audit, 0, 0] ∧
        y.table.get? i = some e ∧ y.sigCount = x.sigCount + 1 ∧ y.signed = g.rnum ∧ y.sigs.getLast? = some (y.last, e) ∧
        (x.signAgain = false → y.signing = none ∧ y.unsigned = x.unsigned) ∧
        (x.signAgain = true → y.logFull = false → y.signing = some { rnum := y.last, time := x.pace.time, h := y.head }))) ∧
    (let ahead := (x.ringCount - x.fwdNext).toNat
     (x.fwd = none ∨ d.stoker.serving = false ∨ d.sys.mode = .doze ∨ ahead = 0 → still .thmRecordForward) ∧
     (∀ q r v, x.fwd = some q → d.stoker.serving = true → d.sys.mode ≠ .doze → 0 < ahead → ahead ≤ 3072 →
       x.ring.get? (x.fwdNext.toNat % 3072) = some r → w.sendPacket w.stokerRid q (x.forwardWords r) = (true, v) →
       Answers .thmRecordForward s fun t => t.dev.thm.fwdNext = x.fwdNext + 1 ∧
         Leaves s t fun _ => v.onThm fun y => { y with fwdNext := y.fwdNext + 1 }) ∧
     (∀ q r v, x.fwd = some q → d.stoker.serving = true → d.sys.mode ≠ .doze → 0 < ahead → ahead ≤ 3072 →
       x.ring.get? (x.fwdNext.toNat % 3072) = some r → w.sendPacket w.stokerRid q (x.forwardWords r) = (false, v) →
       Answers .thmRecordForward s fun t => t.dev.thm.fwdNext = x.fwdNext ∧ Leaves s t fun _ => v) ∧
     (∀ q r k, x.fwd = some q → d.stoker.serving = true → d.sys.mode ≠ .doze → 0 < ahead → ahead ≤ 3072 →
       x.ring.get? (x.fwdNext.toNat % 3072) = some r → w.tryReason w.stokerRid q = some k → d.bobbin.waiters = [] →
       w.fwAdmits 3 ((pageAddr q 0x18 - fwBase 3) / 256) w.stokerRid .read = true → (d.queue q).broken = false →
       bitAt (w.reg 2 0 0x34) 24 = false → Answers .thmRecordForward s fun t => Detected s t 0x2C1 (queueDetail q 0x18) (ridDetail w.stokerRid) d.clock.tb ∧
         t.world.reg 8 0 0x50 = satInc (w.reg 8 0 0x50) ∧ t.dev.thm.fwdNext = x.fwdNext))

/-- The requests of the Thimble's gate (R416 to R424): a request that passes the checks of its code, and that the firmware
grants where it decides, has its effect and is answered ACCEPTED with the number of its record; a failed check or the
firmware's refusal answers its code and changes nothing; the answer is then published, and a request without one for 10 s
gets TIMEOUT. Whichever way, a request that waits behind it is next. -/
def Obligations.GateRequests : Prop :=
  ∀ (s : State) (g : GateReq) (fw : FwAnswer),
    let d := s.dev
    let x := d.thm
    let f := s.fuse
    let waits := fun (code : BitVec 4) => x.gate = some g ∧ g.code = code ∧ g.answer = none ∧ x.serves = true
    let runs := fun (code : BitVec 4) => waits code ∧ x.fwRuns = true ∧ g.sub = 0
    let w := s.world
    let waiting := fun (y : Thimble) (r : Byte) (n : Word32) => { y with gate := some { g with answer := some (r, n) } }
    let answered := fun (t : State) (y : Thimble) (r : Byte) (n : Word32) => Beside s t fun d => { d with
      thm := paged w (waiting y r n) }
    let made := fun (y : Thimble) (ty : Byte) (ps : List Word32) (point : Byte) =>
      let v := w.onThm fun _ => y.kernelRecord ty ps point
      (v.onThm fun y => waiting y 0 y.last).thmPage
    let recorded := fun (t : State) (y : Thimble) (ty : Byte) (ps : List Word32) (point : Byte) =>
      (Beside s t fun _ => (made y ty ps point).dev) ∧
      (x.pace = x → answered t (y.kernelRecord ty ps point) 0 (y.kernelRecord ty ps point).last)
    let event := [g.word, g.arg] ++ (payloadWords fw.payload).drop 2
    let code := if fw.result.toNat ≤ 13 then fw.result else 13
    let grants := fw.result = 0
    let may := x.sealOpen = false ∧ x.inhibit = false ∧ x.logFull = false ∧ f.recordKey ≠ none ∧ x.lifecycle ≠ 3 ∧ x.refLost = false
    let pt := BitVec.ofNat 8 g.sub.toNat
    let requests : List (BitVec 4 × Instr) := [(0, .gateNop), (1, .thmStart fw), (2, .thmStop fw), (3, .tare fw), (4, .zero fw),
      (5, .presetTare fw), (6, .clearTare fw), (7, .batchOpen fw), (8, .batchClose fw), (9, .signNow), (10, .recordAck),
      (11, .replay), (12, .timeMark), (13, .paramWrite fw), (14, .paramCommit fw), (15, .imageActivate)]
    (∀ q ∈ requests, (x.gate = none ∨ (∃ h, x.gate = some h ∧ (h.code ≠ q.1 ∨ h.answer ≠ none)) ∨ x.serves = false) →
      Answers q.2 s (Only s · id)) ∧
    (∀ q ∈ requests, waits q.1 → x.fwRuns = false → 1 ≤ q.1.toNat ∧ q.1.toNat ≤ 8 ∨ q.1 = 13 ∨ q.1 = 14 →
      Answers q.2 s (answered · x 2 0)) ∧
    (waits 0 → g.sub = 0 → g.arg = 0 → Answers .gateNop s (answered · x 0 0)) ∧
    (∀ q ∈ ([(0, .gateNop), (1, .thmStart fw), (2, .thmStop fw), (7, .batchOpen fw), (8, .batchClose fw), (9, .signNow),
        (10, .recordAck), (11, .replay), (12, .timeMark), (14, .paramCommit fw)] : List (BitVec 4 × Instr)),
      waits q.1 → x.fwRuns = true → g.sub ≠ 0 → Answers q.2 s (answered · x 1 0)) ∧
    (runs 1 → may → grants → Answers (.thmStart fw) s
      (recorded · ({ x with points := x.points ||| g.arg }).settle 4 event 0xFF)) ∧
    (runs 1 → may → ¬ grants → Answers (.thmStart fw) s (answered · x code 0)) ∧
    (runs 1 → x.sealOpen = true → Answers (.thmStart fw) s (answered · x 4 0)) ∧
    (runs 1 → x.sealOpen = false → x.inhibit = true → Answers (.thmStart fw) s (answered · x 7 0)) ∧
    (runs 1 → x.sealOpen = false → x.inhibit = false → x.logFull = false → f.recordKey = none →
      Answers (.thmStart fw) s (answered · x 8 0)) ∧
    (runs 2 → x.logFull = false → grants → Answers (.thmStop fw) s
      (recorded · ({ x with points := x.points &&& ~~~g.arg }).settle 4 event 0xFF)) ∧
    (∀ q ∈ ([(3, .tare fw), (4, .zero fw), (5, .presetTare fw), (6, .clearTare fw)] : List (BitVec 4 × Instr)),
      waits q.1 → x.fwRuns = true →
      (32 ≤ g.sub.toNat → Answers q.2 s (answered · x 1 0)) ∧
      (g.sub.toNat < 32 → g.arg = 0 ∨ q.1 = 5 → x.logFull = true → Answers q.2 s (answered · x 7 0)) ∧
      (g.sub.toNat < 32 → g.arg = 0 ∨ q.1 = 5 → x.logFull = false → ¬ grants → Answers q.2 s (answered · x code 0)) ∧
      (g.sub.toNat < 32 → g.arg = 0 ∨ q.1 = 5 → x.logFull = false → grants → Answers q.2 s (recorded · x 4 event pt))) ∧
    (runs 7 → g.arg ≠ 0 → x.batch = 0 → may → grants → Answers (.batchOpen fw) s
      (recorded · ({ x with batch := g.arg }).settle 5 (g.arg :: (payloadWords fw.payload).drop 1) 0xFF)) ∧
    (runs 7 → g.arg ≠ 0 → x.batch ≠ 0 → Answers (.batchOpen fw) s (answered · x 2 0)) ∧
    (runs 8 → x.batch ≠ 0 → x.batch = g.arg → x.logFull = false → grants → Answers (.batchClose fw) s fun t =>
      let closed := fun (y : Thimble) =>
        let z := ({ y with batch := 0 } : Thimble).settle
        if z.signing.map (·.rnum) = some z.last then z else z.trigger
      Beside s t fun _ => ((made x 6 (g.arg :: (payloadWords fw.payload).drop 1) 0xFF).onThm closed).thmPage.dev) ∧
    (runs 8 → x.batch ≠ g.arg → Answers (.batchClose fw) s (answered · x 2 0)) ∧
    (waits 9 → g.sub = 0 → g.arg = 0 → x.logFull = false → Answers .signNow s (answered · x.trigger 0 0)) ∧
    (waits 10 → g.sub = 0 → x.acked.toNat ≤ g.arg.toNat → g.arg.toNat ≤ x.last.toNat →
      Answers .recordAck s (answered · { x with acked := g.arg } 0 0)) ∧
    (waits 10 → g.sub = 0 → g.arg.toNat < x.acked.toNat ∨ x.last.toNat < g.arg.toNat → Answers .recordAck s (answered · x 1 0)) ∧
    (waits 11 → g.sub = 0 → (∃ r ∈ x.log, r.rnum = g.arg) → Answers .replay s fun t =>
      answered t { x with replay := some (g.arg, x.last), replayAt := x.time + 1000 } 0 0) ∧
    (waits 12 → g.sub = 0 → g.arg = 0 → x.logFull = false → Answers .timeMark s
      (recorded · x 10 [lo32 d.clock.tb, hi32 d.clock.tb] 0xFF)) ∧
    (waits 13 → x.fwRuns = true →
      let held := x.staged.any (fun v => v.1 == g.sub.toNat) = true
      (x.sealOpen = false → Answers (.paramWrite fw) s (answered · x 3 0)) ∧
      (x.sealOpen = true → paramIndex g.sub.toNat = true → held ∨ x.staged.length < 256 → grants →
        Answers (.paramWrite fw) s (answered · { x with
          staged := if held then x.staged.map (fun v => if v.1 = g.sub.toNat then (v.1, g.arg) else v)
            else x.staged ++ [(g.sub.toNat, g.arg)] } 0 0))) ∧
    (runs 14 → g.arg = 0 → x.sealOpen = true → x.points = 0 → x.batch = 0 → f.audit < 4095 → x.logFull = false →
      let new := x.staged.foldl (fun p v => p.set v.1 v.2) x.params
      paramsInRange new = true → grants → Answers (.paramCommit fw) s fun t =>
        t.fuse = { f with audit := f.audit + 1 } ∧ t.dev.thm.params = new ∧ t.dev.thm.version = x.version ∧
        t.dev.thm.staged = [] ∧ t.dev.thm.sealCommit = true ∧ t.dev.thm.storeOk = true ∧
        t.dev.thm.before = some { version := x.version, audit := f.audit, params := x.params } ∧
        (∀ k, k < 2 → t.dev.images.flash.store.get? k =
          let c : ThmStore := { version := x.version, audit := f.audit + 1, params := new }
          some { c with mac := c.tag (f.storeKey.getD 0) }) ∧
        t.dev.thm.gate = some { g with answer := some (0, t.dev.thm.last) }) ∧
    (waits 15 → g.sub.toNat < 2 → g.arg = 0 → x.sealOpen = true → x.lifecycle ≠ 3 → f.audit + 2 ≤ 4095 → x.logFull = false →
      let slot := d.images.flash.thmSlot (g.sub == 1)
      s.world.thmSlotOk (g.sub == 1) (fun v => decide (x.version.toNat ≤ v)) = true → slot.version < 0x10000 →
      Answers .imageActivate s fun t =>
        t.fuse.audit = f.audit + (if f.recordKey = none then 2 else 1) ∧ t.fuse.recordKey ≠ none ∧
        (f.recordKey ≠ none → t.fuse.recordKey = f.recordKey) ∧ t.dev.thm.version.toNat = slot.version ∧
        t.dev.thm.points = 0 ∧ t.dev.thm.gate = none ∧ (x.gateNext = none → t.dev.thm.resp = w32 (15 * 2 ^ 8 + g.tag.toNat * 2 ^ 16) ∧
        t.dev.thm.respRnum = x.last + 1)) ∧
    ((∀ h, x.gate = some h → h.answer = none) → Answers .gateAnswer s (Only s · id)) ∧
    (∀ r n, x.gate = some g → g.answer = some (r, n) → Answers .gateAnswer s fun t =>
      t.dev.thm.gate = x.gateNext ∧ t.dev.thm.resp = w32 (r.toNat + g.code.toNat * 2 ^ 8 + g.tag.toNat * 2 ^ 16) ∧ t.dev.thm.respRnum = n ∧
      (g.watched = true → t.dev.thm.gateRnum = n ∧
        t.dev.thm.gateStat = w32 (2 + g.tag.toNat * 2 ^ 8 + r.toNat * 2 ^ 16 + g.code.toNat * 2 ^ 24))) ∧
    (x.gate = none ∨ x.gate = some g ∧ g.answer ≠ none → Answers .gateTimeout s (Only s · id)) ∧
    (x.gate = some g → g.answer = none → Answers .gateTimeout s fun t =>
      t.dev.thm.gate = x.gateNext ∧ t.dev.thm.resp = w32 (10 + g.code.toNat * 2 ^ 8 + g.tag.toNat * 2 ^ 16) ∧
      (g.watched = true → t.dev.thm.gateStat = w32 (2 + g.tag.toNat * 2 ^ 8 + 10 * 2 ^ 16 + g.code.toNat * 2 ^ 24)))

/-- A cutover runs (R446 to R449): the copies make it ready or end it CANCELLED; at its boundary the mode is CUTOVER and the
waiting cores stand; when all stand each named hearth switches (here with no flipped bit and no armed injection in a hob, which the copy would meet), its cores at the new
entry with their two registers; past
the deadline nothing switches; the check frames end in success or in the first failure, and a failure falls back at the
next boundary. Nothing of this happens once a device reset is due (R42). -/
def Obligations.CutoverRuns : Prop :=
  ∀ s : State,
    let d := s.dev
    let w := s.world
    let still := fun (i : Instr) => Answers i s (Only s · id)
    let ended := fun (t : State) (c : Cutover) (outcome : Nat) =>
      t.dev.images.cut = none ∧ t.dev.images.lastNamed = (c.hearths, w32 (c.fc.toNat % 2 ^ 32)) ∧
      t.dev.images.lastCut.2 = w32 (c.fc.toNat % 2 ^ 32) ∧ fld t.dev.images.lastCut.1 0 4 = outcome
    let stamped := fun (x : Sys) (m : Mode) (tb : Word64) => { x with mode := m, prev := x.mode.code, seq := x.seq + 1, stamp := tb }
    (d.images.cut = none → still .cutoverArmed ∧ still .cutoverBoundary ∧ still .cutoverSwitch ∧ still .switchDeadlineExpiry ∧
      still .cutoverCheckDeadline ∧ still .cutoverFallback) ∧
    ∀ c, d.images.cut = some c →
      let hs := hearthsOf c.hearths
      let cores := hearthCores hs
      let waits := d.sys.mode = .cutover ∧ c.switched = none
      let aside := fun k => (d.seam k).mode = .halted ∨ (d.core k).run = false
      let stands := fun k => k ∈ c.stopped ∨ k ∈ c.aside
      let may := d.sys.resetArmed = false
      (c.ready = true → still .cutoverArmed) ∧
      (c.ready = false → (w.copyNew hs).1 = 0 → Answers .cutoverArmed s (Leaves s · fun w =>
        (w.copyNew hs).2.onImg fun i => { i with cut := some { c with ready := true } })) ∧
      (c.ready = false → (w.copyNew hs).1 ≠ 0 → Answers .cutoverArmed s fun t => t.dev.images.cut = none ∧
        Leaves s t fun w => ((w.copyNew hs).2.raise 0x341 (w32 (w.copyNew hs).1) 0).endCutover 4) ∧
      (let atLine := c.ready = true ∧ (d.sys.mode = .run ∨ d.sys.mode = .runReduced) ∧ may
       let there := cores.filter fun k => decide (¬ aside k) && (d.core k).wait == WaitSt.wait
       (¬ atLine → still .cutoverBoundary) ∧
       (atLine → Answers .cutoverBoundary s fun t =>
         Only s t (fun d =>
           let d := d.advanceTb (25000 * c.fc.toNat)
           { d with
             sys := stamped d.sys .cutover d.clock.tb
             images := { d.images with cut := some { c with
               stopped := there, aside := cores.filter fun k => decide (aside k) } }
             power := { d.power with doms := t.dev.power.doms } }) ∧
         ∀ k ∈ there, ∀ l, (d.seam k).a = some l ∨ (d.seam k).b = some l ∨ (d.seam k).c = some l →
           (t.dev.dom (13 * (k / 4) + l)).st = .on)) ∧
      (¬ (waits ∧ ∀ k ∈ cores, stands k) → still .cutoverSwitch) ∧
      (waits → (∀ k ∈ cores, stands k) → c.stopped.Nodup → (∀ h ∈ hs, (codeOf d.images.stage.head h).isSome = true) →
        d.flips.rows = [] → (∀ h ∈ hs, (d.hob h).inject = none) → Answers .cutoverSwitch s fun t =>
          let goes := fun k => k ∈ c.stopped ∧ (d.core k).run = true ∧ (d.seam k).mode ≠ .halted
          (∀ k x, k / 4 ∈ hs → goes k → codeOf d.images.stage.head (k / 4) = some x →
            t.dev.core k = { d.core k with arch := (t.dev.core k).arch, pend := [], nheld := 0, held := [], sb := [],
                                           fbuf := none, wait := .awake } ∧
            (t.dev.core k).arch.pc = w64 (hobBase (k / 4) + x.cut) ∧ (t.dev.core k).arch.rdG 1 = 1 ∧
            (t.dev.core k).arch.rdG 2 = w64 (c.fc.toNat % 2 ^ 32) ∧ (t.dev.core k).arch.f = ⟨[]⟩ ∧
            (∀ r, r ≠ 1 → r ≠ 2 → (t.dev.core k).arch.rdG r = 0)) ∧
          (∀ k, ¬ (k / 4 ∈ hs ∧ goes k) → t.dev.core k = d.core k) ∧
          (∀ h ∈ hs, t.dev.cutStat h = { d.cutStat h with phase := 2 }) ∧
          (∃ go, t.dev.images.cut = some { c with stopped := [], switched := some go } ∧ ∀ k, k ∈ go ↔ goes k) ∧
          t.dev.sys = d.sys ∧ t.dev.clock = d.clock ∧ t.dev.flue = d.flue ∧ t.dev.regs = d.regs) ∧
      (¬ (waits ∧ may ∧ ∃ k ∈ cores, ¬ stands k) → still .switchDeadlineExpiry) ∧
      (waits → may → (∃ k ∈ cores, ¬ stands k) → Answers .switchDeadlineExpiry s fun t =>
        ended t c 2 ∧ t.dev.images.st = .verified ∧ t.dev.clock = (d.advanceTb (25000 * c.fc.toNat + 12500)).clock ∧
        t.dev.sys = stamped d.sys w.runMode t.dev.clock.tb ∧ t.dev.cores = d.cores ∧ t.mem = s.mem ∧
        ∀ h ∈ hs, t.dev.cutStat h = { d.cutStat h with phase := 0 }) ∧
      (c.switched = none ∨ c.fail ≠ none ∨ ¬ may → still .cutoverCheckDeadline) ∧
      (∀ go, c.switched = some go → c.fail = none → may → Answers .cutoverCheckDeadline s fun t =>
        let line := fun h => 25000 * (c.fc.toNat + ((codeOf d.images.stage.head h).map (·.check)).getD 0)
        let passed := fun h => ∀ j, j < 4 → 4 * h + j ∈ go → bitAt (d.cutStat h).passed j = true
        let due := fun h => h ∈ hs ∧ line h ≤ t.dev.clock.tb.toNat
        ((∀ h ∈ hs, line h ≤ d.clock.tb.toNat ∧ passed h) → t.dev.clock = d.clock) ∧
        (∀ h ∈ hs, (d.clock.tb.toNat < line h ∨ ¬ passed h) → (∀ j ∈ hs, d.clock.tb.toNat < line j ∨ ¬ passed j → line h ≤ line j) →
          t.dev.clock = (d.advanceTb (line h)).clock) ∧
        (∀ h, due h → ¬ passed h → (∀ j, due j → ¬ passed j → h ≤ j) →
          t.dev.images = { d.images with cut := some { c with fail := some (h, 1) }, cuts := t.dev.images.cuts } ∧
          (∀ j ∈ hs, t.dev.cutStat j = { d.cutStat j with phase := 3 }) ∧ t.dev.sys = d.sys) ∧
        ((∀ h, due h → passed h) → (∃ h ∈ hs, ¬ due h) → t.dev.images = d.images ∧ t.dev.sys = d.sys) ∧
        ((∀ h ∈ hs, due h ∧ passed h) → ended t c 0 ∧ t.dev.images.running = d.images.stage ∧
          t.dev.images.prior = d.images.running ∧ t.dev.images.st = .empty ∧
          t.dev.sys = stamped d.sys w.runMode t.dev.clock.tb ∧
          ∀ h ∈ hs, t.dev.cutStat h = { d.cutStat h with phase := 0, switches := satInc (d.cutStat h).switches })) ∧
      (¬ (c.fail ≠ none ∧ d.sys.mode = .cutover ∧ may) → still .cutoverFallback) ∧
      (∀ f, c.fail = some f → f.1 < 16 → d.sys.mode = .cutover → may → Answers .cutoverFallback s fun t =>
        ended t c 1 ∧ t.dev.images.lastCut.1 = w32 (1 + f.1 * 16 + f.2.toNat * 256) ∧ t.dev.images.st = .verified ∧
        t.dev.clock = (d.advanceTb ((d.clock.tb.toNat + 24999) / 25000 * 25000)).clock)

/-- Ends of the image, flash, key and session work (R82, R440, R442, R450 to R455, R505): a verification names its reason; a
flash operation writes what it holds and the next one begins; a grant and a session end at their time; an attestation
reports, signed with the identity key; a SESSION_OPEN is answered by its first failed check or opens its session. -/
def Obligations.ImageAndSessionEnds : Prop :=
  ∀ (s : State) (dev : Fin 2) (sid : Word32),
    let d := s.dev
    let w := s.world
    let i := d.images
    let still := fun (i : Instr) => Answers i s (Only s · id)
    (i.st ≠ .verifying → still .imageVerifyComplete) ∧
    (i.st = .verifying → Answers .imageVerifyComplete s fun t =>
      let r := w.areaRead i.areas.2.2 0 i.stageLen
      let f := imgOf (r.1.getD [])
      let reason := if r.1.isSome then verify s.fuse f 1 i.stageLen w.lifecycle else 4
      t.dev.images.st = (if reason = 0 then .verified else .failed) ∧ t.dev.images.reason = BitVec.ofNat 4 reason ∧
      t.dev.images.stage = (if reason = 0 then { len := f.len, head := f.head } else {}) ∧
      (∀ p ∈ t.dev.stoker.pends, ¬ (p.running = true ∧ p.opc = 0x0A04 ∧ p.key = 0))) ∧
    (let job := i.jobs.find? (·.dev == dev.val)
     let passes := d.fifoOpen 26 = true ∧ d.fifoOpen 27 = true
     let crossed := fun (d : Dev) => (d.crossed 26).crossed 27
     let done := fun (j : FlashJob) (f : Flash) => passes → Answers (.flashOperationComplete dev false true) s fun t =>
       t.dev.images.flash = f ∧ t.dev.images.jobs = i.jobs.erase j
     let alone := fun (j : FlashJob) => job = some j ∧ (i.jobs.erase j).find? (·.dev == dev.val) = none
     (passes → Answers (.flashOperationComplete dev true true) s (Only s · crossed)) ∧
     (¬ passes → Answers (.flashOperationComplete dev true true) s (fun t =>
       Detected s t 0x3C5 (w32 dev.val) 0 d.clock.tb ∧ Beside s t id)) ∧
     Answers (.flashOperationComplete dev true false) s (fun t =>
       Detected s t 0x3C5 (w32 dev.val) 0 d.clock.tb ∧ Beside s t id) ∧
     (job = none → passes → Answers (.flashOperationComplete dev false true) s (Only s · crossed)) ∧
     (∀ slot o bs key, alone ⟨dev, .thmWrite slot o bs, key⟩ → done ⟨dev, .thmWrite slot o bs, key⟩ (i.flash.putThm slot o bs)) ∧
     (∀ slot key, alone ⟨dev, .thmErase slot, key⟩ → done ⟨dev, .thmErase slot, key⟩
       { i.flash with thm := i.flash.thm.keep fun k => k / 0x80000 != slot.toNat }) ∧
     (∀ row members key, dev = 1 → alone ⟨1, .record row members, key⟩ → done ⟨1, .record row members, key⟩ i.flash) ∧
     (∀ row members key, dev = 0 → alone ⟨0, .record row members, key⟩ → passes → Answers (.flashOperationComplete dev false true) s fun t =>
       t.dev.images.flash = { i.flash with rcd := i.flash.rcd.change row members } ∧
       t.dev.images.jobs = i.jobs.erase ⟨0, .record row members, key⟩ ++ [⟨1, .record row members, key⟩]) ∧
     (∀ j, job = some j → passes → Answers (.flashOperationComplete dev false true) s (Leaves s · fun (w : W) =>
       let v : W := ((w.upd crossed).onImg fun i => { i with jobs := i.jobs.erase j }).jobDone j
       (match v.dev.images.jobs.find? (fun (x : FlashJob) => x.dev == dev.val) with
        | some n => v.beginJob n
        | none => v).settleErase))) ∧
    (let mine := d.stoker.grants.find? (fun g => g.id == sid)
     (mine = none → still (.grantExpiry sid)) ∧
     (∀ g, mine = some g → Answers (.grantExpiry sid) s (Only s · fun d =>
       let d := d.advanceTb g.till.toNat
       { d with stoker := { d.stoker with grants := d.stoker.grants.filter (fun g => g.id != sid) } }))) ∧
    (i.session sid.toNat = none → still (.sessionExpiry sid)) ∧
    (∀ x, i.session sid.toNat = some x → Answers (.sessionExpiry sid) s fun t =>
      t.dev.images.sessions = i.sessions.filter (fun x => x.id != sid) ∧ t.dev.clock = (d.advanceTb x.till.toNat).clock ∧
      t.dev.stoker.sources.get? (16 + sid.toNat) = none ∧
      Leaves s t fun w => (w.upd fun d => d.advanceTb x.till.toNat).endSession sid) ∧
    Answers (.entropyFail true) s (fun t => LevelDetected s t 0x344 0 0 d.clock.tb ∧
      Beside s t fun d => { d with images := { d.images with entropyFail := true } }) ∧
    Answers (.entropyFail false) s (fun t => t.dev.src 0x344 = { d.src 0x344 with active := false } ∧
      (∀ k, k ≠ 0x344 → t.dev.src k = d.src k) ∧
      Beside s t fun d => { d with images := { d.images with entropyFail := false } }) ∧
    (w.pendsOf 0x0A10 0 = [] → still .attestComplete) ∧
    (∀ q r, w.pendsOf 0x0A10 0 = q :: r → i.entropyFail = true →
      Answers .attestComplete s (Leaves s · fun w => w.internal.finish q sInternalFault [])) ∧
    (∀ q r, w.pendsOf 0x0A10 0 = q :: r → i.entropyFail = false → Answers .attestComplete s fun t =>
      q ∉ t.dev.stoker.pends ∧ Leaves s t fun w =>
        let v := w.stageHead.2
        let own := s.fuse.identity.getD 0
        let rep := v.draw.2.report (pktBody q.pkt) w.stageHead.1
        (v.draw.2.cryptoUse (be 384 (recPrivate own)) rep).finish q sDone (rep ++ ownSign own v.dev.free rep)) ∧
    (w.pendsOf 0x0A41 0 = [] → still .sessionOpenComplete) ∧
    (∀ q r, w.pendsOf 0x0A41 0 = q :: r →
      let b := pktBody q.pkt
      let ends := fun (status : Nat) => Answers .sessionOpenComplete s (Leaves s · fun w => w.finish q status [])
      let fields := w.openFields b = true
      let keyed := sha256 (slice b 0x1A0 0x184) = s.fuse.custHash
      let signed := rsaOk (slice b 0x1A0 0x180) (slice b 0x320 4) (slice b 0x340 0x180) (b.take 0x340) = true
      let own := s.fuse.identity.getD 0
      let key := rsaUnwrap (recModulus own) (recPrivate own) (slice b 0x20 0x180)
      (¬ fields → ends sBadParam) ∧
      (fields → ¬ keyed → ends sAuthFail) ∧
      (fields → keyed → ¬ signed → ends sSignatureBad) ∧
      (fields → keyed → signed → (∀ k, key = some k → k.length ≠ 32) → ends sAuthFail) ∧
      (∀ k, fields → keyed → signed → key = some k → k.length = 32 → 4 ≤ i.sessions.length → ends sNoResource) ∧
      (∀ k, fields → keyed → signed → key = some k → k.length = 32 → i.sessions.length < 4 → i.entropyFail = true →
        Answers .sessionOpenComplete s (Leaves s · fun w => w.internal.finish q sInternalFault [])) ∧
      (∀ k, fields → keyed → signed → key = some k → k.length = 32 → i.sessions.length < 4 → i.entropyFail = false →
        Answers .sessionOpenComplete s fun t => ∃ x, t.dev.images.sessions = i.sessions ++ [x] ∧ x.key = k ∧
          x.till = d.clock.tb + w64 ((wordAt b 4).toNat * 1000000000) ∧ x.accepted = 0 ∧
          (t.dev.cmdSrc (16 + x.id.toNat)).expect = some 0 ∧ q ∉ t.dev.stoker.pends ∧
          Leaves s t fun w => w.openSession q k))

/-- The links of the chimney (R478 to R484, R489 to R492, R496 to R498): a training ends linked or refused; a link that goes
down retrains and drops what crossed it; a frame crosses the boundary FIFO of its port where that has room, and is taken or replayed,
eight times at most; time and status frames carry
what they say, are taken in with the delay of the link, and are relayed by a course (which device adds which delay is the
model's choice, log entry 180); a silent base or course is lost, with what waited for it. -/
def Obligations.ChimneyLinks : Prop :=
  ∀ (s : State) (up x8 ok : Bool) (peer pos : BitVec 3) (tag : Nat) (rt : BitVec 17) (f : TimeFrame) (g : StatusFrame)
    (m : Rid) (v : Word32) (w1 : W),
    let d := s.dev
    let w := s.world
    let c := d.chim
    let p := c.port up
    let link := if up then 6 else 8
    let room := d.fifoOpen link
    let still := fun (i : Instr) => Answers i s (Only s · id)
    let withPort := fun (c : Chim) (p : Port) => if up then { c with up := p } else { c with down := p }
    let lost := fun (c : Chim) (st : PortSt) =>
      { withPort c { p with st := st, fails := 0 } with
        remotes := c.remotes.filter fun r => !c.crosses up r.pos
        below := if up then c.below else ⟨[]⟩ }
    let rang := fun (t : State) => d.images.cut = none → ∀ k, k < 65 → (d.core k).run = true → (d.seam k).mode ≠ .halted →
      bitAt (t.dev.core k).ipend 60 = true
    (p.st ≠ .training → still (.linkUp up peer x8)) ∧
    (p.st = .training → c.mayLink up peer = true → Answers (.linkUp up peer x8) s fun t =>
      (t.dev.chim.port up) = { p with st := .linked, width := if x8 then 2 else 1, peer := peer, mismatch := false,
                                      ups := satInc p.ups, fails := 0, tag := 0 } ∧
      t.dev.chim.port (!up) = c.port (!up) ∧ t.dev.chim.remotes = c.remotes) ∧
    (p.st = .training → c.mayLink up peer = false → Answers (.linkUp up peer x8) s fun t =>
      (t.dev.chim.port up) = { p with st := .down, peer := peer, mismatch := true } ∧
      Detected s t 0x388 (chimDetail peer.toNat up) 0 d.clock.tb) ∧
    (p.st ≠ .linked → p.st ≠ .training → still (.linkDown up)) ∧
    (p.st = .linked → Answers (.linkDown up) s fun t => t.dev.chim = lost c .training) ∧
    (p.st = .training → Answers (.linkDown up) s fun t => t.dev.chim = lost c .down) ∧
    (¬ (p.st = .down ∧ w.portDead up = false) → still (.retrainTimer up)) ∧
    (p.st = .down → w.portDead up = false → Answers (.retrainTimer up) s (Only s · fun d => { d with
      chim := withPort d.chim { p with st := .training } })) ∧
    (p.st ≠ .linked → still (.chimneyFrame up tag ok) ∧ still (.linkDelayMeasure up rt)) ∧
    (p.st = .linked → room = false → still (.chimneyFrame up tag ok)) ∧
    (p.st = .linked → room = true → ok = true → tag = p.tag → Answers (.chimneyFrame up tag ok) s (Only s · fun d => { d.crossed link with
      chim := withPort d.chim { p with tag := p.tag + 1, fails := 0 }
      out := .done })) ∧
    (p.st = .linked → room = true → ok = false ∨ tag ≠ p.tag → Answers (.chimneyFrame up tag ok) s fun t =>
      Detected s t 0x38A (chimDetail p.peer.toNat up) 0 d.clock.tb ∧ t.dev.chim.replays = satInc c.replays ∧
      t.dev.chim.port up = if 8 ≤ p.fails then { p with st := .training, fails := 0 } else { p with fails := p.fails + 1 }) ∧
    (p.st = .linked → Answers (.linkDelayMeasure up rt) s (Only s · fun d => { d with
      chim := withPort d.chim { p with delay := BitVec.ofNat 16 (rt.toNat / 2) } })) ∧
    (d.isCourse = true ∨ c.down.st ≠ .linked → still .timeFrameSend) ∧
    (d.isCourse = false → c.down.st = .linked → Answers .timeFrameSend s (Only s · fun d => { d with
      ports := { d.ports with sent := [lo32 d.clock.tb, hi32 d.clock.tb, w32 (c.members.toNat + c.safeMark.toNat * 2 ^ 4)] ++
        match c.stepMark with
        | some (o, f) => [lo32 o, hi32 o, lo32 f, hi32 f]
        | none => [] }
      chim := { d.chim with safeMark := false, stepMark := none } })) ∧
    (d.isCourse = false ∨ c.up.st ≠ .linked → still (.timeFrame f) ∧ still .statusFrameSend) ∧
    (d.isCourse = true → c.up.st = .linked → Answers (.timeFrame f) s fun t =>
      let base := f.time + w64 c.up.delay.toNat
      let off := (d.clock.tb - base).toInt
      (c.members = f.members → c.down.st = .linked → t.dev.ports.sent =
        [lo32 base, hi32 base, w32 (f.members.toNat + f.safe.toNat * 2 ^ 4)] ++
        match f.step with
        | some (o, b) => [lo32 o, hi32 o, lo32 b, hi32 b]
        | none => []) ∧
      t.dev.chim.members = f.members ∧ t.dev.chim.baseReach = true ∧ t.dev.chim.up = c.up ∧
      t.dev.chim.stepDue = (match f.step with | some x => some x | none => c.stepDue) ∧
      (c.baseReach = false → rang t) ∧
      (d.clock.everLocked = true → t.dev.clock = { d.clock with
        offset := off, lastSync := some d.clock.ivl, good := if off.natAbs ≤ 100 then min (d.clock.good + 1) 16 else 0,
        locked := d.clock.locked || decide (off.natAbs ≤ 100 ∧ 16 ≤ d.clock.good + 1), holdover := false }) ∧
      (f.safe = true → Detected s t 0x38B (chimDetail 0 true) 0 t.dev.clock.tb)) ∧
    (d.isCourse = true → c.up.st = .linked → Answers .statusFrameSend s (Only s · fun d => { d with
      ports := { d.ports with sent := [w32 c.pos.toNat, w32 d.sys.mode.code.toNat, w.tbOffset, w.patCrc, w32 (d.dramBytes / 0x100000)] } })) ∧
    (let n := g.pos.toNat
     let old := d.course n
     let taken := d.isCourse = false ∧ c.down.st = .linked ∧ 0 < n ∧ n < c.members.toNat
     let relayed := d.isCourse = true ∧ c.up.st = .linked ∧ c.down.st = .linked ∧ c.pos.toNat < n
     (¬ taken → ¬ relayed → still (.statusFrame g)) ∧
     (relayed → Answers (.statusFrame g) s (Only s · fun d => { d with
       ports := { d.ports with sent := [w32 n, w32 g.mode.toNat, g.offset, g.crc, g.part] }
       chim := { d.chim with below := d.chim.below.set n g.mode } })) ∧
     (taken → Answers (.statusFrame g) s fun t =>
       t.dev.course n = { reach := true, mode := g.mode, crc := g.crc, part := g.part, offset := g.offset } ∧
       (∀ k, k ≠ n → t.dev.course k = d.course k) ∧
       (old.reach = false → (t.dev.src (0x380 + n)).active = false ∧ rang t) ∧
       t.dev.patGen = if old.reach = true ∧ old.crc = g.crc ∧ old.part = g.part then d.patGen else d.patGen + 2)) ∧
    (d.isCourse = false ∨ c.baseReach = false → still .baseReachTimeout) ∧
    (d.isCourse = true → c.baseReach = true → Answers .baseReachTimeout s fun t =>
      t.dev.chim.baseReach = false ∧ rang t ∧
      (d.clock.everLocked = true → t.dev.clock.holdover = true ∧ (t.dev.src 0x380).active = true) ∧
      (d.clock.everLocked = false → t.dev.clock = d.clock ∧ t.dev.flue = d.flue)) ∧
    (let n := pos.toNat
     (d.isCourse = true ∨ n = 0 ∨ (d.course n).reach = false → still (.reachTimeout pos)) ∧
     (d.isCourse = false → n ≠ 0 → n < c.members.toNat → (d.course n).reach = true → Answers (.reachTimeout pos) s fun t =>
       (t.dev.course n).reach = false ∧ (∀ k, k ≠ n → t.dev.course k = d.course k) ∧ rang t ∧ t.dev.patGen = d.patGen + 2 ∧
       LevelDetected s t (0x380 + n) (chimDetail n false) 0 d.clock.tb ∧
       t.dev.chim.forwards = c.forwards.filter (fun x => x.pos.toNat != n) ∧
       t.dev.chim.remotes = c.remotes.filter (fun x => x.pos != pos))) ∧
    (WriteReaches s m 12 0 0x40 v w1 →
      let acts := fun (t : State) =>
        let closed := fun (up : Bool) => (w1.dev.chim.port up).st = .disabled ∨ w1.portDead up = true
        (∀ u, bitAt v (if u then 0 else 1) = true → ¬ closed u → (t.dev.chim.port u).st = .training) ∧
        (∀ u, bitAt v (if u then 0 else 1) = false ∨ closed u → t.dev.chim.port u = w1.dev.chim.port u) ∧
        Written s t w1 fun w => w.writeRetrain v
      Answers (.retrainUp m v) s acts ∧ Answers (.retrainDown m v) s acts)

/-- The windows of the chimney (R26, R177, R487, R488): a request to another member that is admitted and reachable goes out
through the boundary FIFO of its link and waits; one from another member to this device reaches its hob; a response
completes the request it answers, the responses to one requester from one device in their order. -/
def Sys2Proof.Says.ChimneyWindows : Prop :=
  ∀ (s : State) (q : WinReq) (u n : Nat) (ok : Bool) (v : Word64),
    let d := s.dev
    let w := s.world
    let a := q.addr.toNat
    let p := (a - 0x10000000000) / 0x1000000000
    let o := (a - 0x10000000000) % 0x1000000000
    let inside := 0x10000000000 ≤ a ∧ a < 0x18000000000
    let mine := ridPos q.m = d.chim.pos.toNat
    let on := d.sys.mode ≠ .off
    let k := hobMaster d.chim.pos u q.m
    let dir : Dir := if q.data.isSome then .write else .read
    (d.sys.mode = .off ∨ ¬ inside ∨ q.size = 0 → Answers (.windowRequest q) s (Only s · id)) ∧
    (inside → ¬ mine → p ≠ d.chim.pos.toNat → Answers (.windowRequest q) s (Only s · id)) ∧
    (on → inside → 0 < q.size → mine → p ≠ d.chim.pos.toNat → p < max 1 d.chim.members.toNat → w.reaches p = true →
      a % 256 + q.size ≤ 256 → w.fwAdmits 12 ((a / 256 * 256 - fwBase 12) / 256) q.m dir = true →
      Answers (.windowRequest q) s (Only s · fun d => { d.crossed (if p < d.chim.pos.toNat then 7 else 9) with chim := { d.chim with
        remotes := d.chim.remotes ++ [⟨q.m, BitVec.ofNat 3 p, BitVec.ofNat 48 o, q.data.isSome⟩] } })) ∧
    (on → inside → ¬ mine → p = d.chim.pos.toNat → q.data = none → q.size ≤ 8 → Reaches w q.m u o q.size .read →
      Answers (.windowRequest q) s (Leaves s · fun w => (w.granted u k).answer (.word (w64 (hobWord s o q.size))))) ∧
    (∀ x, on → inside → ¬ mine → p = d.chim.pos.toNat → q.data = some x → Reaches w q.m u o q.size .write →
      Answers (.windowRequest q) s fun t => StoresAt s t o q.size x.toNat ∧ t.dev = ((w.granted u k).answer .done).dev ∧ t.fuse = s.fuse ∧ t.pending = s.pending) ∧
    (d.chim.remotes[n]? = none → Answers (.windowResponse n ok v) s (Only s · id)) ∧
    (∀ r, d.chim.remotes[n]? = some r → (d.chim.remotes.take n).any (fun x => x.rid == r.rid && x.pos == r.pos) = true →
      Answers (.windowResponse n ok v) s (Only s · id)) ∧
    (∀ r, d.chim.remotes[n]? = some r → (d.chim.remotes.take n).any (fun x => x.rid == r.rid && x.pos == r.pos) = false →
      Answers (.windowResponse n ok v) s (Only s · fun d => { d with
      chim := { d.chim with remotes := d.chim.remotes.eraseIdx n }
      out := if ok = false then .error 8 else if r.write then .done else .word v }))

/-- The power controller (R458 to R461, R465 to R469, R472): a domain without a vote enters its off-state unless a domain on
it is ON, it is one of DOZE's own, or work or a request stands against it; a wake brings it ON; a level change goes step
by step, lowering as the voltage is confirmed, and an unconfirmed step goes back once; with each word the
telemetry of VCA is read, whose value is free (log entry 166); supplies and temperature are judged. -/
def Obligations.PowerSequences : Prop :=
  ∀ (s : State) (n : DomainId) (e : EntryEnd) (id : Rid) (rail : Fin 3) (r11 : Fin 11) (mv : Word32) (sensor : Fin 17) (deg : BitVec 8),
    let d := s.dev
    let w := s.world
    let k := n.val
    let x := d.dom k
    let m := d.sys.mode
    let still := fun (i : Instr) => Answers i s (Only s · fun d => d)
    let hob := fun (t : State) (p : HobPower) => ∀ h, h < 16 → t.dev.hob h = if k = 208 + h then { d.hob h with power := p } else d.hob h
    let others := fun (t : State) => (∀ j, j ≠ k → t.dev.dom j = d.dom j) ∧ t.mem = s.mem ∧ t.dev.sys = d.sys ∧ t.dev.flue = d.flue
    let may := k < 241 ∧ m ≠ .off ∧ m ≠ .doze ∧ x.st = .on ∧ w.votes k = 0
    let own := 224 ≤ k ∧ k ≤ 229
    let leans := 208 ≤ k ∧ k < 224 ∧ (∃ l, l < 13 ∧ (d.dom (13 * (k - 208) + l)).st = .on) ∨
      k = 228 ∧ ∃ l, l < 4 ∧ (d.dom (224 + l)).st = .on
    let refused := fun (id : Rid) (cause : BitVec 3) =>
      (x.waits = true → still (.domainEntry n e)) ∧
      (x.waits = false → Answers (.domainEntry n e) s fun t =>
        t.dev.dom k = { x with waits := true, refused := satInc x.refused, lastId := id, lastCause := cause } ∧
        Detected s t 0x06C (w32 (k + cause.toNat * 2 ^ 8)) (w32 (id.toNat * 2 ^ 16)) d.clock.tb ∧ Beside s t fun d => d)
    (¬ may → still (.domainEntry n e)) ∧
    (may → leans → refused w.pwrRid 1) ∧
    (may → ¬ leans → e = .busy id → refused id 2) ∧
    (may → ¬ leans → own → (e = .clear ∨ e = .aborted id) → refused w.pwrRid 3) ∧
    (may → ¬ leans → ¬ own → e = .clear → Answers (.domainEntry n e) s fun t =>
      others t ∧ hob t .ret55 ∧ t.dev.dom k = { x with
        st := if k < 208 then (if (d.lane k).st = .active then .retain else .off) else if k < 230 then .retain else .off
        padHold := x.padHold || decide (231 ≤ k), waits := false }) ∧
    (may → ¬ leans → ¬ own → e = .aborted id → Answers (.domainEntry n e) s fun t =>
      t.dev.dom k = { x with aborted := satInc x.aborted, waits := false } ∧
      Detected s t 0x06D (w32 k) (w32 (id.toNat * 2 ^ 16)) d.clock.tb ∧ Beside s t fun d => d) ∧
    (241 ≤ k ∨ m = .off ∨ m = .doze ∨ k < 208 ∧ (d.lane k).st = .failed → still (.domainWake n)) ∧
    (k < 241 → m ≠ .off → m ≠ .doze → ¬ (k < 208 ∧ (d.lane k).st = .failed) → Answers (.domainWake n) s fun t =>
      others t ∧
      (x.st = .on → t.dev.dom k = { x with waits := false } ∧ ∀ h, t.dev.hob h = d.hob h) ∧
      (x.st ≠ .on → hob t .awake ∧
        t.dev.dom k = { x with st := .on, waits := false, padHold := x.padHold && decide (239 ≤ k) })) ∧
    let vca := w32 ((Config.freeWord d.free).toNat % 2 ^ 32)
    (d.power.changes.get? rail = none → still (.avsAckTimeout rail) ∧
      Answers (.avsVdone rail) s (Only s · fun d => { d with free := d.free + 1, power := { d.power with vca := vca } })) ∧
    (∀ c, d.power.changes.get? rail = some c →
      let gone := fun (t : State) (l : Nat) => t.dev.power.changes.get? rail = none ∧ t.dev.power.level rail = l
      (c.back = false → c.wrote ≠ c.target → Answers (.avsVdone rail) s fun t =>
        t.dev.power.changes.get? rail = some { c with start := c.wrote, wrote := if c.wrote < c.target then c.wrote + 1 else c.wrote - 1 } ∧
        t.dev.power.level rail = (if c.target < c.wrote then c.wrote else d.power.level rail) ∧
        t.dev = { d with out := .none, free := d.free + 1, power := { d.power with changes := t.dev.power.changes, levels := t.dev.power.levels, vca := vca } }) ∧
      (c.back = false → c.wrote = c.target → Answers (.avsVdone rail) s fun t => gone t c.target ∧
        bitAt t.dev.power.avsFault rail = false ∧ t.dev.power.vca = vca ∧
        Leaves s t fun w => W.readVca ((w.avsClear rail).endLevel rail c.target sDone)) ∧
      (c.back = true → Answers (.avsVdone rail) s fun t => gone t c.start ∧ bitAt t.dev.power.avsFault rail = false ∧ t.dev.power.vca = vca ∧
        (w.pendsOf 0x0902 rail ≠ [] → Detected s t 0x055 0 0 d.clock.tb)) ∧
      (c.back = true → Answers (.avsAckTimeout rail) s fun t => gone t c.start ∧ t.dev.power.avsFault = d.power.avsFault ∧
        (w.pendsOf 0x0902 rail ≠ [] → Detected s t 0x055 0 0 d.clock.tb)) ∧
      (c.back = false → Answers (.avsAckTimeout rail) s fun t =>
        LevelDetected s t 0x06B (w32 (rail.val + (550 + 50 * c.wrote) * 2 ^ 4)) 0 d.clock.tb ∧
        Beside s t fun d => { d with power := { d.power with
          changes := d.power.changes.set rail { c with back := true }, avsFault := setBit d.power.avsFault rail true } })) ∧
    (m = .off → still (.supplyExcursion r11 mv)) ∧
    (m ≠ .off → Answers (.supplyExcursion r11 mv) s fun t =>
      LevelDetected s t (0x60 + r11.val) mv 0 d.clock.tb ∧ Beside s t fun d => d) ∧
    (let p := { d.power with tj := d.power.tj.set sensor deg }
     (m = .off → still (.tjReading sensor deg)) ∧
     (m ≠ .off → 110 < p.hottest.2.toInt → Answers (.tjReading sensor deg) s fun t =>
       LevelDetected s t 0x06E (w32 (p.hottest.2.toNat + p.hottest.1 * 2 ^ 8)) 0 d.clock.tb ∧ Beside s t fun d => { d with power := p }) ∧
     (m ≠ .off → p.hottest.2.toInt ≤ 110 → Answers (.tjReading sensor deg) s fun t =>
       (t.dev.src 0x06E).active = false ∧ (∀ j, j ≠ 0x06E → t.dev.src j = d.src j) ∧ t.dev.power = p ∧ t.mem = s.mem))

/-- The field ports (R386, R387, R500 to R502, R507, R508, R510): a frame crosses the boundary FIFO of its port where that
takes it and the port's domain is ON with its pads released; a received frame is a sync, a session's datagram, or a packet of its
queue, or is dropped and counted; a packet of the transmit queue is sent; links, buses and pins are followed. -/
def Obligations.FieldPortFrames : Prop :=
  ∀ (s : State) (mac : Fin 2) (c : Fin 8) (i : Fin 4) (pin : Fin 128) (level : Bool) (f : EthFrame) (cf : CanFrame)
    (gptp : Bool) (domain : Byte) (dep : Word64) (path : Int) (port : Half) (src : BitVec 48) (bs : List Byte),
    let d := s.dev
    let w := s.world
    let m := d.sys.mode
    let still := fun (i : Instr) => Answers i s (Only s · id)
    let on := fun (n : Nat) => (d.dom (if n < 8 then 239 else 236)).st = .on ∧ (d.dom (if n < 8 then 239 else 236)).padHold = false ∧
      bitAt (w.reg 7 0 (0x400 + 8 * n)) 28 = true ∧ n ∉ d.ports.stopped ∧ m ≠ .off ∧ m ≠ .hold ∧ m ≠ .doze
    let eth := on (8 + mac.val) ∧ bitAt d.ports.ethUp mac = true
    let can := on c.val ∧ w.active (0x3C8 + c.val) = false
    let rx := eth ∧ d.fifoOpen (2 + 2 * mac) = true
    let tx := eth ∧ d.fifoOpen (3 + 2 * mac) = true
    let got := w.upd fun d => d.crossed (2 + 2 * mac)
    let sent := w.upd fun d => d.crossed (3 + 2 * mac)
    let canRx := can ∧ d.fifoOpen 18 = true
    let canTx := can ∧ d.fifoOpen 19 = true
    let taken := if gptp then w.tbSource = 3 + mac ∧ domain = 0 else w.tbSource = 1 + mac ∧ domain.toNat < 128
    let off : Int := (d.clock.tb.toNat / 8 * 8 : Nat) - (dep.toNat : Int) - path
    let ptp := Instr.ethFrameReceive mac (.ptp gptp domain dep path)
    let rxq := fun (n : Nat) => fld (w.reg 7 0 (0x400 + 8 * n)) 0 12
    let txq := fun (n : Nat) => fld (w.reg 7 0 (0x400 + 8 * n)) 12 12
    let drops := fun (w : W) (n : Nat) => (w.reg 7 0 (0x404 + 8 * n)).toNat
    (¬ rx → still (.ethFrameReceive mac f)) ∧ (¬ tx → still (.ethFrameTransmit mac)) ∧
    (rx → Answers (.ethFrameReceive mac .query) s (Leaves s · fun _ => got)) ∧
    (rx → ¬ taken → Answers ptp s (Leaves s · fun _ => got)) ∧
    (rx → taken → Answers ptp s fun t =>
      Leaves s t (fun _ => got.sync off 1000) ∧
      (d.clock.everLocked = true → t.dev.clock.holdover = false ∧
        t.dev.clock.good = if off.natAbs ≤ 1000 then min (d.clock.good + 1) 16 else 0)) ∧
    (let session := d.sessionsOn mac = true ∧ port = (d.images.flash.rcd.session >>> 16).setWidth 16
     (rx → session → 16 ≤ bs.length → Answers (.ethFrameReceive mac (.udp port bs src)) s (Only s · fun d => { d.crossed (2 + 2 * mac) with
       ports := { d.ports with ethIn := d.ports.ethIn ++ [(mac.val, src, bs)] } })) ∧
     (rx → session → bs.length < 16 → Answers (.ethFrameReceive mac (.udp port bs src)) s (Leaves s · fun _ => got)) ∧
     (rx → ¬ session → Answers (.ethFrameReceive mac (.udp port bs src)) s (Leaves s · fun w =>
       got.fresh.2.receive (8 + mac) (w.ethPacket (Config.freeBytes d.free 42 ++ bs))))) ∧
    (rx → Answers (.ethFrameReceive mac (.other bs)) s (Leaves s · fun w => got.receive (8 + mac) (w.ethPacket bs))) ∧
    (rx → rxq (8 + mac.val) = 0xFFF → Answers (.ethFrameReceive mac (.other bs)) s fun t =>
      drops t.world (8 + mac.val) = min 65535 (drops w (8 + mac.val) + 1) ∧ Detected s t 0x3C3 (w32 mac.val) 0 d.clock.tb ∧
      Beside s t fun d => { d with regs := t.dev.regs }) ∧
    (tx → txq (8 + mac.val) = 0xFFF → Answers (.ethFrameTransmit mac) s (Leaves s · fun _ => sent)) ∧
    (∀ v, tx → sent.transmit (8 + mac) = (none, v) → Answers (.ethFrameTransmit mac) s (Leaves s · fun _ => v)) ∧
    (∀ ws v, tx → sent.transmit (8 + mac) = (some ws, v) → Answers (.ethFrameTransmit mac) s fun t =>
      let len := fld (ws.headD 0) 0 12
      Leaves s t fun _ => if 60 ≤ len ∧ len ≤ 1522 then v.onPorts fun p => { p with sent := ws } else v.dropCount (8 + mac)) ∧
    (bitAt d.ports.ethUp mac = false → still (.ethLinkDown mac)) ∧
    (bitAt d.ports.ethUp mac = true → Answers (.ethLinkDown mac) s fun t =>
      LevelDetected s t (0x3C1 + mac.val) (w32 mac.val) 0 d.clock.tb ∧
      Beside s t fun d => { d with ports := { d.ports with ethUp := setBit d.ports.ethUp mac false } }) ∧
    (¬ on (8 + mac.val) → still (.ethLinkUp mac)) ∧
    (on (8 + mac.val) → Answers (.ethLinkUp mac) s fun t => (t.dev.src (0x3C1 + mac.val)).active = false ∧ t.mem = s.mem ∧
      Beside s t fun d => { d with ports := { d.ports with ethUp := setBit d.ports.ethUp mac true } }) ∧
    (¬ canRx → still (.canFrameReceive c cf)) ∧ (¬ canTx → still (.canFrameTransmit c)) ∧
    (canRx → Answers (.canFrameReceive c cf) s (Leaves s · fun w => (w.upd fun d => d.crossed 18).receive c (
      [w32 (cf.id.toNat + cf.ide.toNat * 2 ^ 29 + cf.fdf.toNat * 2 ^ 30 + cf.brs.toNat * 2 ^ 31), w32 (min cf.data.length 64),
        lo32 d.clock.tb] ++ packWords (cf.data.take 64)))) ∧
    (canRx → rxq c = 0xFFF → Answers (.canFrameReceive c cf) s fun t =>
      drops t.world c = min 65535 (drops w c + 1) ∧ t.dev = { d.crossed 18 with out := .none, regs := t.dev.regs } ∧ t.mem = s.mem) ∧
    (canTx → txq c = 0xFFF → Answers (.canFrameTransmit c) s (Only s · fun d => d.crossed 19)) ∧
    (∀ v, canTx → (w.upd fun d => d.crossed 19).transmit c = (none, v) → Answers (.canFrameTransmit c) s (Leaves s · fun _ => v)) ∧
    (∀ ws v, canTx → (w.upd fun d => d.crossed 19).transmit c = (some ws, v) → Answers (.canFrameTransmit c) s (Leaves s · fun _ =>
      v.onPorts fun p => { p with sent := ws })) ∧
    (¬ on c.val → still (.canBusOff c)) ∧
    (on c.val → Answers (.canBusOff c) s fun t => LevelDetected s t (0x3C8 + c.val) (w32 c.val) 0 d.clock.tb ∧ Beside s t id) ∧
    (w.active (0x3C8 + c.val) = false → still (.busOffRecovery c)) ∧
    (w.active (0x3C8 + c.val) = true → Answers (.busOffRecovery c) s fun t => (t.dev.src (0x3C8 + c.val)).active = false ∧
      (∀ j, j ≠ 0x3C8 + c.val → t.dev.src j = d.src j) ∧ t.mem = s.mem ∧ Beside s t id) ∧
    let i2c := m ≠ .off ∧ m ≠ .hold ∧ 22 ∉ d.bobbin.stopped ∧ 23 ∉ d.bobbin.stopped
    (¬ i2c → still (.i2cBusStuck i)) ∧
    (i2c → Answers (.i2cBusStuck i) s fun t =>
      LevelDetected s t (0x3D0 + i.val) (w32 i.val) 0 d.clock.tb ∧ Beside s t id) ∧
    (let quiet := m = .off ∨ d.fifoOpen 24 = false ∨ 25 ∈ d.bobbin.stopped ∨ bitAt d.ports.gpio pin = level
     (quiet → still (.gpioEdge pin level)) ∧
     (¬ quiet → Answers (.gpioEdge pin level) s fun t =>
       t.dev = { d.crossed 24 with out := .none, cores := t.dev.cores, ports := { d.ports with gpio := setBit d.ports.gpio pin level } } ∧
       t.mem = s.mem ∧ t.fuse = s.fuse ∧ t.pending = s.pending ∧
       ∀ k, let routed := fun (i : Nat) => (d.dom 239).st = .on ∧ i < 8 ∧ fld (w.reg 7 0 (0x40 + 4 * i)) 0 7 = pin.val ∧
              bitAt (w.reg 7 0 (0x40 + 4 * i)) (if level then 7 else 8) = true ∧ fld (w.reg 7 0 (0x40 + 4 * i)) 9 6 = k
        (d.core k).run = true → (d.seam k).mode ≠ .halted → ∀ b, bitAt (t.dev.core k).ipend b = true ↔
          bitAt (d.core k).ipend b = true ∨ ∃ i, routed i ∧ b = 51 + i))

/-- FKIND (R144): g RD takes the class code of the value, with the sign in bit 3, for either precision and for every bit
pattern; bits 63 to 4 are 0, and no flag is raised. -/
def Obligations.FkindClassifies : Prop :=
  ∀ (s : State) (c : CoreId) (rd ra : Reg) (dbl : Bool),
    let v := ((archOf s c).rdF ra).toNat
    let sign := if dbl then v / 2 ^ 63 % 2 else v / 2 ^ 31 % 2
    let ex := if dbl then v / 2 ^ 52 % 2 ^ 11 else v / 2 ^ 23 % 2 ^ 8
    let fr := if dbl then v % 2 ^ 52 else v % 2 ^ 23
    let full := if dbl then 2 ^ 11 - 1 else 2 ^ 8 - 1
    let quiet := if dbl then v / 2 ^ 51 % 2 = 1 else v / 2 ^ 22 % 2 = 1
    let cls := if ex = 0 then (if fr = 0 then 0 else 1)
      else if ex = full then (if fr = 0 then 3 else if quiet then 4 else 5) else 2
    Issues s c [(false, rd), (true, ra)] →
    Answers (.fkind c rd ra dbl) s fun t => WritesGF s t c rd (w64 (cls + 8 * sign)) 0

/-- CHIM_POS (R476): the position is taken at the rising edge of RESET_N, in HOLD; no other command changes it but those that
reset the device, so that no device takes over the base role at run time; position 0, and no other, is the base. -/
def Obligations.PositionIsKeptUntilReset : Prop :=
  (∀ (s : State) (pos : BitVec 3), s.dev.sys.mode = .hold →
    Answers (.resetNHigh pos) s fun t => t.dev.chim.pos = pos ∧ (t.dev.isCourse = false ↔ pos = 0)) ∧
  (∀ (s : State) (pos : BitVec 3), s.dev.sys.mode ≠ .hold → Answers (.resetNHigh pos) s (Only s · id)) ∧
  (∀ (s t : State) (i : Instr), exec i s = .next t → i ≠ .vcaTurnOn → i ≠ .vcaBrownOut → i ≠ .resetNLow →
    (∀ pos, i ≠ .resetNHigh pos) → t.dev.chim.pos = s.dev.chim.pos ∧ t.dev.isCourse = s.dev.isCourse) ∧
  (∀ s t : State, s.pending = [] → s.dev.sys.resetArmed = false → step s = .next t → t.dev.chim.pos = s.dev.chim.pos)

/-- Seven rows complete with their own effect, each under conditions on the state and the operands alone: PKT_OPEN opens a
packet in its first cell, PKT_WORD appends its words and PKT_CLOSE makes the packet visible (R378, R380); SLICE_COMPLETE
sends a passing home lane to rejoin and a failing one to FAILED (R328, R329); BELLOWS_SLICE_COMPLETE after 120 segments
ends the slice with its record (R332); STARTUP_TEST_COMPLETE in KINDLE leaves the lanes as tested (R334, R335); and
BASTE_OVERDUE marks its target (R336). -/
def Obligations.PacketAndTestRowsComplete : Prop :=
  ∀ (s : State) (m : Rid) (q : QueueId) (v : Word32) (vv : Word64) (two : Bool) (u : UnitId) (l : LaneNo) (pass ok : Bool)
    (h : HearthId) (r : StartupResult) (target : Fin 14) (p : OpenPkt),
    let d := s.dev
    let w := s.world
    let k := d.queue q
    let mine := fun (b : Bobbin) => b.openOf m q
    let admitted := fun (o : Nat) => d.sys.mode ≠ .off ∧ d.bobbin.waiters = [] ∧ k.broken = false ∧
      w.fwAdmits 3 ((pageAddr q o - fwBase 3) / 256) m .write = true
    let ws := if two then [lo32 vv, hi32 vv] else [lo32 vv]
    let x := d.lane (laneKey u l)
    (admitted 0x24 → k.cfg.mode = .packet → mine d.bobbin = none → d.bobbin.opens.length < 512 → w.limit q 1 = none →
      ∃ t, exec (.pktOpen m q v) s = .next t ∧ t = stateOf s (((w.openPkt m q 1 false).poolNote m q 0x24).settle.answer .done) ∧
        mine (w.openPkt m q 1 false).dev.bobbin = some { rid := m, q := q, cells := [d.bobbin.freeCell], tried := false }) ∧
    (admitted 0x28 → PoolTold w → mine d.bobbin = some p → p.len + ws.length ≤ 1023 → p.len + 1 + ws.length ≤ 14 * p.cells.length →
      ∃ t, exec (.pktWord m q vv two) s = .next t ∧ mine t.dev.bobbin = some { p with len := p.len + ws.length } ∧
        (∀ i, i < ws.length →
          t.dev.bobbin.word (p.cells.getD ((p.len + 1 + i) / 14) 0) (2 + (p.len + 1 + i) % 14) = ws.getD i 0) ∧
        t.dev.out = .done ∧ t.mem = s.mem ∧ t.dev.sys = d.sys ∧ t.dev.flue = d.flue) ∧
    (admitted 0x2C → mine d.bobbin = some p → bitAt v 0 = false → p.len + 1 ≤ 14 * p.cells.length →
      ∃ t, exec (.pktClose m q v) s = .next t ∧ t = stateOf s ((w.closePkt p).settle.answer .done) ∧
        mine (w.closePkt p).dev.bobbin = none ∧ ((w.closePkt p).dev.queue q).words = k.words + (p.len + 1)) ∧
    (l.val < lanesOf u → l.val ≠ patchOf u → (d.seam (homeCore u l)).mode ≠ .halted → x.st = .basting → x.test = .slice →
      ∃ t, exec (.sliceComplete u l pass ok) s = .next t ∧
        (t.dev.lane (laneKey u l)).st = if pass then .rejoining else .failed) ∧
    ((d.bu h).segs = some 120 →
      ∃ t, exec (.bellowsSliceComplete h true) s = .next t ∧ (t.dev.bu h).segs = none ∧ (t.dev.blw h).basting = false ∧
        t.dev.baste.rseq = d.baste.rseq + 1) ∧
    (d.sys.mode = .kindle → bitAt d.sys.tested h = false → d.sys.kindleErr = 0 → 3 ∈ d.sys.stepsDone → 4 ∈ d.sys.stepsDone →
      ∃ t, exec (.startupTestComplete h r) s = .next t ∧ bitAt t.dev.sys.tested h = true ∧
        ∀ j, j < 12 → (t.dev.lane (laneKey h j)).st = if bitAt r.lanes j then .failed else .active) ∧
    (target.val < lanesOf u ∨ target.val = 13 ∧ u.val < 16 → d.sys.mode.bastes = true →
      (d.bu u).overdue.contains target.val = false →
      ∃ t, exec (.basteOverdue u target) s = .next t ∧ (t.dev.bu u).overdue = (d.bu u).overdue ++ [target.val] ∧
        t.world.active 0x0F0 = true)

/-- The register-to-register arithmetic of R135 and R142: each instruction that issues writes its result to g RD (g0
discards it) and goes on to the next instruction; everything else stays. Multiplication and division of R135, with the
results of R142 for a divisor 0. The immediate forms and the counts CLZ and POPC of R135. -/
def Obligations.IntegerResults : Prop :=
  Says.RegisterArithmeticResults ∧ Says.MultiplyDivideResults ∧ Says.ImmediateAndCountResults

/-- The floating-point arithmetic (R139, R143): a binary32 operation reads bits [31:0] of its registers; the result goes
to f RD and the flags to FPSR. Comparison, classification, conversion and moves between the register files (R139,
R143, R144). -/
def Obligations.FloatingPointResults : Prop :=
  Says.FloatingArithmeticResults ∧ Says.FloatingConversionResults

/-- Loads from the core's own hob (R136, R145): the register takes the loaded value, sign- or zero-extended; nothing else
changes but the program counter and the arbiter's pointer. A load that is not granted at once is pending. Stores
(R136, R149, R157, R174): an aligned store takes one entry of the store buffer and an unaligned one in its own hob
two, with the data, the privilege and the MPU's refusal; memory does not change yet. -/
def Obligations.LoadsAndStores : Prop :=
  Says.OwnHobLoadResults ∧ Says.StoresEnterTheBuffer

/-- SYNC.M, SYNC.F, SYNC.C, WAIT and the end of a WAIT (R147, R150, R154, R156, R462, R463): SYNC.M and SYNC.F pass once
every store has been accepted, SYNC.F and SYNC.C drop the fetch buffer, SYNC.C brings every written register into
force (the watchdog word has a statement of its own), WAIT stops the core unless something is already pending; a core
that wakes has its hob awake and the domains of its lanes ON, and nothing else changes. The control registers (R152,
R154, R161): CTLRD reads a register, a counter or a fixed value, a counter only once the vote on the read is no longer
open; CTLWR writes the writable bits, or holds the value of a SYNC.C register until SYNC.C; INT_RAISE and
INT_PEND_CLEAR set and clear pending sources, a reserved source never. -/
def Obligations.SystemInstructions : Prop :=
  Says.SynchronisingInstructions ∧ Says.ControlRegisterAccess

/-- Traps and interrupts (R130, R131, R160 to R167): where the vector slot can be fetched, TRAP enters with cause 10 and
EPC behind it, BKPT of a core that no debugger holds with cause 11, a word that is no instruction with cause 2 and EPC
at it, TRAP_ENTRY with its code, and INTERRUPT_ENTRY with the chosen source, which leaves the pending register. RETE
(R140, R153) restores the mode, the interrupt enable and the priority that the entry saved, and goes to EPC; a
privileged instruction of user mode takes the PRIVILEGE trap instead (R151, R163). -/
def Obligations.TrapsAndReturns : Prop :=
  Says.EntriesOfTrapsAndInterrupts ∧ Says.ReturnAndPrivilege

/-- Service and check-in of a watchdog (R307, R308, R312 to R314, R318): the key sequence, the early, late and wrong keys,
tokens that check in, stray and duplicate ones. A watchdog that does not run, or whose window has closed, takes none
of them. The instants of the watchdogs (R307, R310, R315 to R318): the closing tick, the hard timer, the limit of a
required watchdog that never started, the end of the suspensions that have lasted 500 ms, and the start by SYNC.C. -/
def Obligations.Watchdogs : Prop :=
  Says.WatchdogService ∧ Says.WatchdogInstants

/-- The host register page (R28, R64, R65, R471, R499): a host write wakes the device from DOZE; a tail that keeps the
ring rule takes its value and any other is a ring fault; a latched RING_RESET empties both rings, aborts the
transaction of the host, advances RING_EPOCH, and leaves the replies of what is pending unstored; APERTURE takes its
value. A function that does not answer takes none of them. POLL_REFRESH (R53, R85, R86): the page takes the values of
one instant and PAGE_SEQ goes on by 2; while the page is dark or the Stoker does not run, nothing is written. -/
def Obligations.HostPages : Prop :=
  Says.HostRegisterPage ∧ Says.PollPageRefresh

/-- The arbiter of a hob that is awake and holds no flipped bit and no armed injection (R189 to R192): of the accesses
that wait, one of each master, the first in rotation that is not passed over is granted and performed; the pointer
moves behind its master, and behind the channel of the hearth DMA, each other waiting master counts a conflict, and a
write is recorded as having passed over the reads of its port word. A grant to the tester, which waits only with work,
writes its oldest correction back or makes an access that is owed. The background march and the wake of a hob (R198 to
R200, R202): a row test starts where the march is enabled and the hob awake; its end moves to the next row, counts a
pass behind the last row, and a failure is recorded with MARCH_FAIL; a wake ends retention. -/
def Obligations.HobPorts : Prop :=
  Says.HobArbiterGrants ∧ Says.HobMarchAndWake

/-- The commands that change the mode, and TIME_STEP (R41, R52, R76, R81, R265, R287, R470): where their conditions hold,
DONE, with the transition that they name. The configuration transaction (R78, R79): CONFIG_BEGIN claims its blocks,
CONFIG_WRITE stages, CONFIG_COMMIT refuses a set that breaks a rule and names the lowest register at fault, or commits
every claimed block, and CONFIG_ABORT discards. -/
def Obligations.ModeAndTransactionCommands : Prop :=
  Says.ModeCommands ∧ Says.TransactionCommands

/-- The commands of lanes, cores, hearths and basting (R115 to R118, R338, R341): where their conditions hold they pend,
and their work has begun. The loop and schedule commands (R236 to R243, R263, R264): a context that passes its checks
is written with its safe output values, parameter writes enter the buffer of the hearth, a schedule that fits takes
the inactive bank. -/
def Obligations.LaneAndLoopCommands : Prop :=
  Says.LaneCommands ∧ Says.LoopAndScheduleCommands

/-- CH_CMD of a damper page (R278, R279, R305): ARM with the key arms the SAFE channels of its mask; ENERGISE starts all
of its mask where every check holds and none where one fails, with the code of the first check that each fails; DE-
ENERGISE brings its mask to SAFE, a FAULT channel once it has agreed for one RB_SETTLE; whatever else is written,
every ARMED channel of the page returns to SAFE. The code of a channel that left ARMED under an ARM that stands is the
model's (log entry 150). The instants and the mismatches of the damper channels (R275 to R278, R280): an ARM lapses
after 10 µs, a STARTING channel goes LIVE at the next boundary of the interval counter, the end of a settle time
judges the feedback, and a mismatch is FAULT with DAMP_READBACK, and source 1 where it meets a reaction. -/
def Obligations.DamperChannels : Prop :=
  Says.DamperCommands ∧ Says.DamperInstants

/-- The windows of the chimney (R26, R177, R487, R488): a request to another member that is admitted and reachable goes
out through the boundary FIFO of its link and waits; one from another member to this device reaches its hob; a
response completes the request it answers, the responses to one requester from one device in their order. Packets that
are not executed where they arrive, and those that waited (R67, R68, R70, R73, R486): an opcode that is not listed, a
packet for another position, which waits here for its FENCE, the reply of a course, and the start of a waiting
command. -/
def Obligations.WindowsAndForeignPackets : Prop :=
  Says.ChimneyWindows ∧ Says.PacketsElsewhere

/-- Reset leaves HOLD with an empty queue (R33, R41, R47): every damper channel SAFE, the Stoker in reset, no counter
running, no command source seen, and a memory that is canonical and reads 0 everywhere (R200 leaves the contents of a
hob after power-up to the clearing; the 0 is the model's, assumption 3). The model's choice (assumptions 1 and 2): on
an empty queue the block idles for one period of REFCLK_TB. The step answers a next state; fuses and queue stay; where
no device reset is due, the time base and the interval counter advance by 40 ns with the rate adjustment if they run,
and stand still if they do not. -/
def Obligations.ResetStateAndIdleStep : Prop :=
  Says.ResetLeavesHold ∧ Says.IdleStepCountsOnePeriod
end

