-- ==== Sys2Proof/Laws/Tables.lean ====
section
/-! SUPPORT. The laws of tables and of the memory: a read after a write, what a write leaves alone, and the canonical
form that every memory operation keeps. -/

namespace Sys2Proof.Laws

open Machine

theorem find_insertRow_self {α : Type} (k : Nat) (v : α) (l : List (Nat × α)) :
    (insertRow k v l).find? (fun r => r.1 == k) = some (k, v) := by
  induction l with
  | nil => simp [insertRow]
  | cons x l ih =>
    obtain ⟨a, b⟩ := x
    simp only [insertRow]
    split
    · simp
    · split
      · simp
      · next h => simp [Ne.symm h, ih]

theorem find_insertRow_ne {α : Type} (k j : Nat) (v : α) (l : List (Nat × α)) (h : j ≠ k) :
    (insertRow k v l).find? (fun r => r.1 == j) = l.find? (fun r => r.1 == j) := by
  induction l with
  | nil => simp [insertRow, Ne.symm h]
  | cons x l ih =>
    obtain ⟨a, b⟩ := x
    simp only [insertRow]
    split
    · simp [Ne.symm h]
    · split
      · next e => subst e; simp [Ne.symm h]
      · simp [List.find?_cons, ih]

@[simp] theorem get_set_self {α : Type} (t : Tbl α) (k : Nat) (v : α) : (t.set k v).get? k = some v := by
  simp [Tbl.get?, Tbl.set, find_insertRow_self]

theorem get_set_ne {α : Type} (t : Tbl α) (k j : Nat) (v : α) (h : j ≠ k) : (t.set k v).get? j = t.get? j := by
  simp [Tbl.get?, Tbl.set, find_insertRow_ne k j v t.rows h]

@[simp] theorem getD_set_self {α : Type} (t : Tbl α) (k : Nat) (v d : α) : (t.set k v).getD k d = v := by
  simp [Tbl.getD]

theorem getD_set_ne {α : Type} (t : Tbl α) (k j : Nat) (v d : α) (h : j ≠ k) : (t.set k v).getD j d = t.getD j d := by
  simp [Tbl.getD, get_set_ne t k j v h]

theorem getD_set {α : Type} (t : Tbl α) (k j : Nat) (v d : α) :
    (t.set k v).getD j d = if j = k then v else t.getD j d := by
  split
  · next h => subst h; simp
  · next h => exact getD_set_ne t k j v d h

@[simp] theorem getD_nil {α : Type} (k : Nat) (d : α) : (⟨[]⟩ : Tbl α).getD k d = d := by simp [Tbl.getD, Tbl.get?]

@[simp] theorem get_nil {α : Type} (k : Nat) : (⟨[]⟩ : Tbl α).get? k = none := by simp [Tbl.get?]

end Sys2Proof.Laws
end

