-- ==== Sys2Proof/Laws/Cores.lean ====
section
/-! SUPPORT. What an instruction of a core can do: the shared operations of issue, as the next state they answer. -/

namespace Sys2Proof.Laws

open Machine

@[simp] theorem world_dev (s : State) : s.world.dev = { s.dev with out := .none } := rfl
@[simp] theorem world_fuse (s : State) : s.world.fuse = s.fuse := rfl
@[simp] theorem world_base (s : State) : s.world.base = s.mem := rfl
@[simp] theorem world_ops (s : State) : s.world.ops = [] := rfl
@[simp] theorem upd_dev (w : W) (f : Dev → Dev) : (w.upd f).dev = f w.dev := rfl
@[simp] theorem upd_ops (w : W) (f : Dev → Dev) : (w.upd f).ops = w.ops := rfl
@[simp] theorem upd_base (w : W) (f : Dev → Dev) : (w.upd f).base = w.base := rfl
@[simp] theorem upd_fuse (w : W) (f : Dev → Dev) : (w.upd f).fuse = w.fuse := rfl
@[simp] theorem applyAll_nil (m : Memory) : m.applyAll [] = m := rfl

@[simp] theorem core_onCore_self (d : Dev) (k : Nat) (f : Core → Core) : (d.onCore k f).core k = f (d.core k) := by
  simp [Dev.onCore, Dev.core]

theorem core_onCore_ne (d : Dev) (k j : Nat) (f : Core → Core) (h : j ≠ k) : (d.onCore k f).core j = d.core j := by
  simp [Dev.onCore, Dev.core, getD_set_ne _ _ _ _ _ h]

@[simp] theorem core_beatCore_self (d : Dev) (k : Nat) (f : Core → Core) : (d.beatCore k f).core k = f (d.core k) :=
  core_onCore_self d k f

theorem core_beatCore_ne (d : Dev) (k j : Nat) (f : Core → Core) (h : j ≠ k) : (d.beatCore k f).core j = d.core j :=
  core_onCore_ne d k j f h

theorem free_sub (q : Core) (us vs : List (Bool × Reg)) (h : q.free us = true) (hs : ∀ x ∈ vs, x ∈ us) :
    q.free vs = true := by
  simp only [Core.free, Bool.and_eq_true, Bool.not_eq_true', List.any_eq_false] at h ⊢
  exact ⟨fun x hx => h.1 x (hs x hx), h.2⟩

/-- The next state of an instruction that changes registers alone. -/
def afterExec (s : State) (c : CoreId) (beats : Nat) (f : Arch → Arch) : State :=
  { s with dev := ({ s.dev with out := .none } : Dev).beatCore c fun q => q.exec c beats f }

/-- An instruction that issues and changes registers alone answers that state. -/
theorem issue_runArch (s : State) (c : CoreId) (us vs : List (Bool × Reg)) (beats : Nat) (f : Arch → Arch)
    (h : Issues s c us) (hs : ∀ x ∈ vs, x ∈ us) :
    run s (fun w => w.issue c vs fun w => w.runArch c beats f) = .next (afterExec s c beats f) := by
  have h2 : (s.world.dev.core c).free vs = true := free_sub _ us vs h.2 hs
  simp only [run, W.issue, h.1, h2, Bool.and_self, if_true]
  rfl

theorem exec_arch (q : Core) (k beats : Nat) (f : Arch → Arch) : (q.exec k beats f).arch = f q.arch := by
  simp only [Core.exec]; split <;> rfl

theorem afterExec_core (s : State) (c : CoreId) (beats : Nat) (f : Arch → Arch) :
    (afterExec s c beats f).dev.core c = (s.dev.core c).exec c beats f := by
  simp only [afterExec, core_beatCore_self]; rfl

theorem afterExec_arch (s : State) (c : CoreId) (beats : Nat) (f : Arch → Arch) :
    archOf (afterExec s c beats f) c = f (archOf s c) := by
  simp only [archOf, afterExec_core, exec_arch]

theorem afterExec_regsOnly (s : State) (c : CoreId) (beats : Nat) (f : Arch → Arch) :
    RegsOnly s (afterExec s c beats f) c := by
  refine ⟨⟨rfl, rfl, rfl, fun k hk => ?_, ?_⟩, ?_⟩
  · simp only [afterExec]; rw [core_beatCore_ne _ _ _ _ hk]; rfl
  · simp only [beatDev, afterExec_core]; rfl
  · simp only [CoreKeeps, afterExec_core, Core.exec]; split <;> rfl

theorem rdG_wrG (x : Arch) (rd r : Reg) (v : Word64) :
    (x.wrG rd v).rdG r = if r = rd ∧ r ≠ 0 then v else x.rdG r := by
  simp only [Arch.wrG, Arch.rdG]
  by_cases h0 : rd = 0
  · subst h0
    by_cases hr : r = 0 <;> simp [hr]
  · by_cases hr : r = 0
    · subst hr
      simp
    · simp only [h0, hr, if_false, ne_eq, not_false_eq_true, and_true, getD_set]
      by_cases he : r = rd
      · simp [he]
      · have hn : r.toNat ≠ rd.toNat := fun e => he (BitVec.eq_of_toNat_eq e)
        simp [he, hn]

theorem rdF_wrF (x : Arch) (rd r : Reg) (v : Word64) : (x.wrF rd v).rdF r = if r = rd then v else x.rdF r := by
  simp only [Arch.wrF, Arch.rdF, getD_set]
  by_cases he : r = rd
  · simp [he]
  · have hn : r.toNat ≠ rd.toNat := fun e => he (BitVec.eq_of_toNat_eq e)
    simp [he, hn]

theorem wrG_keeps (x : Arch) (rd : Reg) (v : Word64) :
    (x.wrG rd v).f = x.f ∧ (x.wrG rd v).cr = x.cr ∧ (x.wrG rd v).crw = x.crw ∧ (x.wrG rd v).pc = x.pc := by
  simp only [Arch.wrG]; split <;> simp

theorem ctl_setCtl (x : Arch) (k n m : Nat) (v : Word64) :
    (x.setCtl n v).ctl k m = if m = n then v else x.ctl k m := by
  simp only [Arch.setCtl, Arch.ctl, getD_set]

/-- What an instruction RD = v of g registers answers. -/
theorem opG_writes (s : State) (c : CoreId) (us : List (Bool × Reg)) (rd : Reg) (rs : List Reg) (beats : Nat)
    (v : Arch → Word64) (h : Issues s c us) (hs : ∀ x ∈ (false, rd) :: rs.map (fun r => (false, r)), x ∈ us) :
    ∃ t, run s (fun w => w.opG c rd rs beats v) = .next t ∧ WritesG s t c rd (v (archOf s c)) := by
  refine ⟨_, issue_runArch s c us _ beats _ h hs, afterExec_regsOnly s c beats _, ?_⟩
  simp only [afterExec_arch]
  have k := wrG_keeps (archOf s c) rd (v (archOf s c))
  exact ⟨fun r => rdG_wrG _ _ _ _, k.1, k.2.1, k.2.2.1, by simp [Arch.next, k.2.2.2]⟩

end Sys2Proof.Laws
end

