-- ==== Sys2Proof/Laws/Bus.lean ====
section
/-! SUPPORT. What a request that reaches a hob does: the firewalls let it pass, and the hob answers or takes the bytes. -/

namespace Sys2Proof.Laws

open Machine

/-- An address of a hob lies in one of the two ranges of R23. -/
theorem hobOf_range (a u : Nat) (h : hobOf a = some u) :
    (0x04000000 ≤ a ∧ a < 0x08000000) ∨ (0x10000000 ≤ a ∧ a < 0x10100000) := by
  simp only [hobOf] at h
  split at h
  · left; assumption
  · split at h
    · right; assumption
    · cases h

/-- The granule of an access within one port word. -/
theorem granules_one (a n : Nat) (h0 : 0 < n) (h : a % 32 + n ≤ 32) : granulesOf a n = [a / 256 * 256] := by
  have : (a + n - 1) / 256 - a / 256 + 1 = 1 := by omega
  simp [granulesOf, this]

theorem blockAt_hob (a u : Nat) (h : hobOf a = some u) : blockAt a = none := by
  have := hobOf_range a u h
  simp only [blockAt]
  rw [if_pos]; omega

theorem windowOf_hob (a u : Nat) (h : hobOf a = some u) : windowOf a = none := by
  have := hobOf_range a u h
  simp only [windowOf]
  rw [if_neg]; omega

theorem fusedOff_hob (w : W) (a u : Nat) (h : hobOf a = some u) : w.fusedOff a = false := by
  have := hobOf_range a u h
  simp only [W.fusedOff, Bool.and_eq_false_iff, Bool.or_eq_false_iff, decide_eq_false_iff_not]
  right; constructor <;> omega

theorem mapped_hob (w : W) (a n : Nat) (u : Nat) (h : hobOf a = some u) (hn : a % 32 + n ≤ 32) (h0 : 0 < n) :
    w.mapped a = true ∧ w.mapped (a + n - 1) = true := by
  have := hobOf_range a u h
  have h1 : 0x04000000 ≤ a ∧ a < 0x10100000 := by omega
  have h2 : 0x04000000 ≤ a + n - 1 ∧ a + n - 1 < 0x10100000 := by omega
  have key : ∀ b, 0x04000000 ≤ b ∧ b < 0x10100000 → w.mapped b = true := by
    intro b hb
    have e : (decide (0x04000000 ≤ b) && decide (b < 0x10100000)) = true := by
      rw [decide_eq_true hb.1, decide_eq_true hb.2]; rfl
    unfold W.mapped
    rw [e, Bool.or_true, Bool.true_or, Bool.true_or, Bool.true_or, Bool.true_or, Bool.true_or, Bool.true_or]
  exact ⟨key a h1, key _ h2⟩

theorem unit_base (a u : Nat) (h : hobOf a = some u) :
    (a / 256 * 256 - fwBase (fwUnitOf a)) / 256 = (a - fwBase (fwUnitOf a)) / 256 := by
  have hr := hobOf_range a u h
  have hu : fwBase (fwUnitOf a) = 0x04000000 ∨ fwBase (fwUnitOf a) = 0x10000000 := by
    unfold fwUnitOf
    rw [if_neg (by omega)]
    by_cases hb : a < 0x10000000
    · rw [if_pos hb]; left; rfl
    · rw [if_neg hb, if_pos (by omega)]; right; rfl
  rcases hu with e | e <;> rw [e] <;> omega

theorem fwCheck_pass (w : W) (u : Nat) (a : Addr) (m : Rid) (d : Dir)
    (h : w.fwAdmits u ((a.toNat - fwBase u) / 256) m d = true) : w.fwCheck u a m d = (true, w) := by
  simp [W.fwCheck, h]

/-- The map and the firewalls let a request pass that reaches its hob. -/
theorem admit_reaches (w : W) (m : Rid) (u a n : Nat) (r : Req) (h : Reaches w m u a n r.dir) :
    w.passWalls m a n r = (none, w) := by
  obtain ⟨h0, hn, hu, hf, -⟩ := h
  have hr := hobOf_range a u hu
  have hm := mapped_hob w a n u hu hn h0
  have hp : w.passes (fwUnitOf a) m r.dir (granulesOf a n) = (true, w) := by
    rw [granules_one a n h0 hn]
    have ha : (BitVec.ofNat 48 (a / 256 * 256)).toNat = a / 256 * 256 := by simp; omega
    have : w.fwCheck (fwUnitOf a) (BitVec.ofNat 48 (a / 256 * 256)) m r.dir = (true, w) :=
      fwCheck_pass _ _ _ _ _ (by rw [ha, unit_base a u hu]; exact hf)
    simp [W.passes, this]
  have hl : w.admitLocal m a n r = (none, w) := by
    have e1 : (!w.mapped a || !w.mapped (a + n - 1) || (r.dir == .write && decide (a < 0x40000))) = false := by
      simp [hm.1, hm.2]; intro; omega
    have e2 : (r.dir == .atomic && !atomicTarget a) = false := by simp [atomicTarget, hu]
    have e3 : (r.dir == .write && (blockAt a).isSome) = false := by simp [blockAt_hob a u hu]
    simp [W.admitLocal, fusedOff_hob w a u hu, e1, e2, e3, hp]
  simp [W.passWalls, hl, windowOf_hob a u hu]

/-- An access to a hob whose domain is ON wakes nothing (R459). -/
theorem wakeAt_hob (w : W) (a u : Nat) (h : hobOf a = some u) (hd : (w.dev.dom (hobDom u)).st = .on) : w.wakeAt a = w := by
  have hr := hobOf_range a u h
  have e : w.dev.domAt a = some (hobDom u) := by
    simp only [Dev.domAt]
    rw [if_neg (by omega), h]
  simp only [W.wakeAt, e, W.wakeDom, hd, if_true]

/-- A request that reaches a hob is performed there. -/
theorem perform_hob (w : W) (m : Rid) (u a n : Nat) (r : Req) (hu : hobOf a = some u)
    (hd : (w.dev.dom (hobDom u)).st = .on) :
    w.perform m a n r = w.serveHob m u a n r := by
  have hr := hobOf_range a u hu
  have h1 : ¬ a < 0x10000 := by omega
  have h2 : ¬ a < 0x40000 := by omega
  simp [W.perform, windowOf_hob a u hu, W.serveLocal, wakeAt_hob w a u hu hd, fusedOff_hob w a u hu, h1, h2, hu]

/-- A read of an awake hob without flipped bits gives its bytes; the arbiter's pointer moves. -/
theorem hobRead_plain (w : W) (m : Rid) (u a n : Nat) (hf : w.dev.flips.rows = []) (hp : (w.dev.hob u).power = .awake) :
    w.hobRead m u a n = (.data (w.bytes a n), w.granted u (hobMaster w.dev.chim.pos u m)) := by
  have hw : w.wakeHob u = w := by simp [W.wakeHob, hp]
  have hg : (w.granted u (hobMaster w.dev.chim.pos u m)).dev.flips.rows.isEmpty = true := by
    rw [show (w.granted u (hobMaster w.dev.chim.pos u m)).dev.flips = w.dev.flips from rfl, hf]; rfl
  simp only [W.hobRead, hw, hg, if_true]
  rfl

theorem put_plain (w : W) (a : Nat) (bs : List Byte) (hf : w.dev.flips.rows = []) : w.put a bs = w.poke a bs := by
  have : (w.poke a bs).dev.flips.rows.isEmpty = true := by rw [show (w.poke a bs).dev = w.dev from rfl, hf]; rfl
  simp only [W.put, W.upd, this, if_true]

/-- A write of an awake hob without flipped bits and armed injection stores its bytes; the arbiter's pointer moves. -/
theorem hobWrite_plain (w : W) (u k a : Nat) (bs : List Byte) (hf : w.dev.flips.rows = [])
    (hp : (w.dev.hob u).power = .awake) (hi : (w.dev.hob u).inject = none) :
    w.hobWrite u k a bs = (w.granted u k).poke a bs := by
  have hw : w.wakeHob u = w := by simp [W.wakeHob, hp]
  have hf2 : (w.granted u k).dev.flips.rows = [] := hf
  have hi2 : (((w.granted u k).poke a bs).dev.hob u).inject = none := by
    rw [show (((w.granted u k).poke a bs).dev.hob u) = (w.granted u k).dev.hob u from rfl]
    simp [W.granted, W.upd, Dev.onHob, Dev.hob] at hi ⊢
    exact hi
  simp only [W.hobWrite, W.hobWriteParts, hw, W.each, List.foldl, put_plain _ a bs hf2, W.hobInjected, hi2]

end Sys2Proof.Laws
end

