-- ==== Sys2Proof/Laws/Commands.lean ====
section
/-! SUPPORT. What a command packet that begins (R68) does: its meaning runs on the device with the packet taken, and its
end is the reply. -/

namespace Sys2Proof.Laws

open Machine

@[simp] theorem consume_pends (w : W) (p : Packet) (o : Half) : (w.consume p o).dev.stoker.pends = w.dev.stoker.pends := by
  simp only [W.consume, upd_dev]; split <;> rfl

@[simp] theorem consume_images (w : W) (p : Packet) (o : Half) : (w.consume p o).dev.images = w.dev.images := by
  simp only [W.consume, upd_dev]; split <;> rfl

@[simp] theorem accept_pends (w : W) (p : Packet) : (w.accept p).dev.stoker.pends = w.dev.stoker.pends := by
  simp only [W.accept, upd_dev]; split <;> rfl

/-- A session that is not of the Ethernet has no limit. -/
theorem sessionLimit_local (w : W) (p : Packet) (h : isEth p = false) : w.sessionLimit p = w := by
  simp only [W.sessionLimit, h]
  split <;> simp

/-- The pending commands are those before. -/
theorem begins_pends (s : State) (opc : Nat) (p : Packet) (w : W) (h : Begins s opc p w) :
    w.dev.stoker.pends = s.dev.stoker.pends := by
  obtain ⟨⟨-, -, hb⟩, -⟩ := h
  split at hb
  · rw [hb]; simp
  · obtain ⟨-, -, -, -, hb⟩ := hb
    split at hb
    · rw [hb.1]; simp
    · rw [hb.2.2]; simp

/-- What taking a packet changes: the heads of its source, the SEQ and the count of its session. -/
theorem begins_dev (s : State) (opc : Nat) (p : Packet) (w : W) (h : Begins s opc p w) :
    w.dev = { s.dev with
      out := .none
      stoker := { s.dev.stoker with turn := srcKey p, cmdHead := w.dev.stoker.cmdHead, sources := w.dev.stoker.sources }
      ports := { s.dev.ports with mspiIn := w.dev.ports.mspiIn, ethIn := w.dev.ports.ethIn }
      images := { s.dev.images with sessions := w.dev.images.sessions } } ∧
    w.fuse = s.fuse ∧ w.ops = [] ∧ w.base = s.mem := by
  have hc : ∀ q : CmdSrc, q = p.src → (s.world.consume p (BitVec.ofNat 16 opc)).dev = { s.dev with
      out := .none
      stoker := { s.dev.stoker with turn := srcKey p, cmdHead := (s.world.consume p (BitVec.ofNat 16 opc)).dev.stoker.cmdHead }
      ports := { s.dev.ports with mspiIn := (s.world.consume p (BitVec.ofNat 16 opc)).dev.ports.mspiIn,
                                  ethIn := (s.world.consume p (BitVec.ofNat 16 opc)).dev.ports.ethIn } } := by
    intro q hq
    simp only [W.consume, upd_dev, ← hq]
    cases q <;> rfl
  have hc := hc _ rfl
  obtain ⟨⟨-, -, hb⟩, -⟩ := h
  split at hb
  · rw [hb]; refine ⟨?_, rfl, rfl, rfl⟩; rw [hc]
  · obtain ⟨-, -, -, -, hb⟩ := hb
    split at hb
    · rw [hb.1]; refine ⟨?_, rfl, rfl, rfl⟩; rw [hc]
    · rw [hb.2.2]
      refine ⟨?_, rfl, rfl, rfl⟩
      simp only [W.accept, upd_dev]
      rw [hc]
      split <;> rfl

/-- The device that a command finds, and what stands before its meaning, but for SESSION_OPEN without a session. -/
theorem take_begins (s : State) (opc : Nat) (p : Packet) (w : W) (body : Body) (ho : opc < 65536) (hn : opc ≠ 0x0A41)
    (h : Begins s opc p w) :
    ∃ i, w.execute i p body = body p w ∧
      s.world.take s.world.objs (BitVec.ofNat 16 opc) p body = (w.startNow i (BitVec.ofNat 16 opc) p body).sessionLimit p := by
  have h0 := h
  obtain ⟨⟨h1, h2, hb⟩, c5, ⟨i, hi, hlo, hhi, hl, hm⟩, hw⟩ := h0
  have e : (BitVec.ofNat 16 opc).toNat = opc := by simp; omega
  have hp := begins_pends s opc p w h
  have hx : w.waitsFor s.world.objs s.dev.stoker.pends w.dev.chim.fwdNext opc p = false := by
    have hd := (begins_dev s opc p w h).1
    have e1 : w.dev.chim = s.dev.chim := by rw [hd]
    have e2 : s.world.dev.chim = s.dev.chim := rfl
    rw [e1]
    simpa only [W.waitsFor, W.fenced, e1, e2] using hw
  have c5' : p.target = 0xFF ∨ p.target.toNat = w.dev.chim.pos.toNat := by
    rw [show w.dev.chim.pos = s.dev.chim.pos by rw [(begins_dev s opc p w h).1]]
    exact c5
  have serve : w.serve s.world.objs (BitVec.ofNat 16 opc) p body = w.startNow i (BitVec.ofNat 16 opc) p body := by
    simp [W.serve, e, hi, hlo, hhi, hl, hp, hx]
  have hr : s.world.ringDue = s.world := by simp [W.ringDue, h1]
  have no : opensSession (BitVec.ofNat 16 opc) p = false := by
    have : (BitVec.ofNat 16 opc == (0x0A41 : Half)) = false := by
      apply beq_false_of_ne; intro c; apply hn; rw [← e, c]; rfl
    rw [opensSession, this]; rfl
  have route : w.route s.world.objs (BitVec.ofNat 16 opc) p body = w.startNow i (BitVec.ofNat 16 opc) p body := by
    rw [W.route, if_pos c5', serve]
  refine ⟨i, by simp [W.execute, hm], ?_⟩
  by_cases hs : p.src = .base
  · rw [if_pos hs] at hb
    have hk : isEth p = false := by simp [isEth, hs]
    simp only [W.take, hr, h2, hs, if_true, ← hb, route, sessionLimit_local _ _ hk]
    simp
  · rw [if_neg hs] at hb
    obtain ⟨c1, c2, c3, c4, hb⟩ := hb
    simp only [no, Bool.and_false, Bool.false_eq_true, if_false] at hb
    obtain ⟨b1, b2, b3⟩ := hb
    have hsrc : (s.world.consume p (BitVec.ofNat 16 opc)).dev.cmdSrc (srcKey p) = s.dev.cmdSrc (srcKey p) := by
      simp only [W.consume, upd_dev, Dev.cmdSrc]; split <;> rfl
    have mac : (isEth p && !(s.world.consume p (BitVec.ofNat 16 opc)).macOk (BitVec.ofNat 16 opc) p) = false := by
      cases he : isEth p with
      | false => rfl
      | true =>
        have : (s.world.consume p (BitVec.ofNat 16 opc)).macOk (BitVec.ofNat 16 opc) p = s.world.macOk (BitVec.ofNat 16 opc) p := by
          simp only [W.macOk, consume_images]
        simp [this, (b1 he).1]
    have c2' : ¬ (4080 < p.plen.toNat ∨ p.params.length < p.plen.toNat) := by omega
    have seq : (s.world.consume p (BitVec.ofNat 16 opc)).sequence s.world.objs (BitVec.ofNat 16 opc) p body =
        (w.startNow i (BitVec.ofNat 16 opc) p body).sessionLimit p := by
      simp only [W.sequence, hsrc]
      cases hx : (s.dev.cmdSrc (srcKey p)).expect with
      | none =>
        have he : isEth p = false := by
          cases he : isEth p with
          | false => rfl
          | true => rw [(b1 he).2] at hx; cases hx
        dsimp only
        rw [sessionLimit_local _ _ he, ← b3]
        exact route
      | some v =>
        have := b2 v hx
        subst this
        simp only [if_true, ← b3, route]
    have c3' : (if 4080 < p.plen.toNat then p.params else p.params.take p.plen.toNat) = p.params.take p.plen.toNat := if_neg (by omega)
    simp only [W.take, hr, h2, hs, c3', c1, c4, no, mac, seq, c2', Bool.and_false, ne_eq, not_true_eq_false, if_false,
      Bool.false_eq_true, Bool.true_eq_false]

/-- What a command does whose meaning ends at once. -/
theorem command_ends (s : State) (opc : Nat) (p : Packet) (w w' : W) (body : Body) (st : Nat) (r : List Byte)
    (ho : opc < 65536) (hn : opc ≠ 0x0A41) (h : Begins s opc p w) (hb : body p w = .fin w' st r) :
    ∃ t, command (BitVec.ofNat 16 opc) p body s = .next t ∧ Ends s t opc p w' st r := by
  obtain ⟨i, he, ht⟩ := take_begins s opc p w body ho hn h
  refine ⟨_, ?_, rfl⟩
  simp only [command, run, ht, W.startNow, he, hb]
  rfl

/-- What a command does that pends. -/
theorem command_pends (s : State) (opc : Nat) (p : Packet) (w w' : W) (body : Body) (k : Nat) (go : W → W)
    (ho : opc < 65536) (hn : opc ≠ 0x0A41) (h : Begins s opc p w) (hl : s.dev.stoker.pends.length < 32)
    (hb : body p w = .pend w' k go) :
    ∃ t, command (BitVec.ofNat 16 opc) p body s = .next t ∧ Pends s t opc p w' k go := by
  obtain ⟨i, he, ht⟩ := take_begins s opc p w body ho hn h
  have hp := begins_pends s opc p w h
  have : ¬ pendMax ≤ w.dev.stoker.pends.length := by rw [hp]; simp only [pendMax]; omega
  refine ⟨_, ?_, rfl⟩
  simp only [command, run, ht, W.startNow, he, hb, if_neg this]
  rfl

end Sys2Proof.Laws
end

