-- ==== Sys2Proof/Laws/Flue.lean ====
section
/-! SUPPORT. What a detected event can change: the law of `raise`, from one lemma for each operation under it. -/

namespace Sys2Proof.Laws

open Machine

/-- What no reaction of the Flue touches, the sources' own entries included: everything but the mode and its time, the
rest of the Flue, the channels, the seams, the cores, the hobs and the records of their errors, the bellows, the Bobbin and its counters,
the cutover, the domains and the levels, and the replies. -/
def rest (d : Dev) : Dev :=
  { d with
    sys := { d.sys with mode := .off, prev := 0, seq := 0, stamp := 0, dozeArmed := false }
    flue := { srcs := d.flue.srcs }, dampers := ⟨[]⟩, seams := ⟨[]⟩, cores := ⟨[]⟩, hobs := ⟨[]⟩, flips := ⟨[]⟩, bellows := ⟨[]⟩, bobbin := {}
    regs := { d.regs with val := d.regs.val.keep fun a => !errReg a }
    images := { d.images with st := .empty, cut := none, lastCut := (0, 0), lastNamed := (0, 0), cuts := ⟨[]⟩ }
    power := { d.power with doms := ⟨[]⟩, levels := (0, 0, 0) }, chim := { d.chim with safeMark := false }
    ports := { d.ports with mspiOut := [] }
    stoker := { d.stoker with replies := ⟨[]⟩, replyHead := 0, sources := ⟨[]⟩, pends := [], crossed := [], sent := ⟨[]⟩,
                              serving := false } }

/-- The sources of the errors of hob bytes (R205) and of the Bobbin's operations (R389), whose events wait in `W.due`. -/
def Noted (n : Nat) : Prop := (0x1C0 ≤ n ∧ n < 0x1E0) ∨ n = 0x1F0 ∨ n = 0x1F1 ∨ (0x2C0 ≤ n ∧ n ≤ 0x2C6)

/-- `w'` differs from `w` in nothing that `rest` keeps, and the events that have begun to wait are noted ones. -/
def Steady (w w' : W) : Prop :=
  rest w'.dev = rest w.dev ∧ w'.fuse = w.fuse ∧ ∀ e ∈ w'.due, e ∈ w.due ∨ Noted e.1

theorem Steady.refl (w : W) : Steady w w := ⟨rfl, rfl, fun _ h => .inl h⟩

theorem Steady.trans {a b c : W} (h : Steady a b) (k : Steady b c) : Steady a c :=
  ⟨k.1.trans h.1, k.2.1.trans h.2.1, fun e he => (k.2.2 e he).elim (h.2.2 e) .inr⟩

theorem Steady.upd (w : W) (f : Dev → Dev) (h : rest (f w.dev) = rest w.dev) : Steady w (w.upd f) :=
  ⟨h, rfl, fun _ h => .inl h⟩

theorem Steady.ite {a b c : W} (p : Prop) [Decidable p] (h : Steady a b) (k : Steady a c) :
    Steady a (if p then b else c) := by split <;> assumption

theorem Steady.each {α : Type} (xs : List α) (f : α → W → W) (h : ∀ x w, Steady w (f x w)) (w : W) :
    Steady w (w.each xs f) := by
  induction xs generalizing w with
  | nil => exact Steady.refl w
  | cons x xs ih => exact (h x w).trans (ih (f x w))

theorem steady_interrupt (w : W) (c k : Nat) : Steady w (w.interrupt c k) :=
  Steady.ite _ (Steady.upd _ _ rfl) (Steady.refl w)

theorem steady_crossing (w : W) (q : Nat) : Steady w (w.crossing q) :=
  (Steady.upd w _ rfl).trans (Steady.each _ _ (fun _ _ => Steady.each _ _
    (fun _ w => Steady.ite _ (steady_interrupt w _ _) (Steady.refl w)) _) _)

theorem steady_setOwner (w : W) (c : Nat) (o : Option Owner) : Steady w (w.onBob fun b => b.setOwner c o) := Steady.upd w _ rfl

theorem steady_takeCell (w : W) (q : Nat) : Steady w (w.takeCell q).2 :=
  ((steady_setOwner w _ _).trans (Steady.upd _ _ rfl)).trans (Steady.ite _ (steady_crossing _ _) (Steady.refl _))

theorem steady_takeCells (n : Nat) (w : W) (q : Nat) : Steady w (w.takeCells q n).2 := by
  induction n generalizing w with
  | zero => exact Steady.refl w
  | succ n ih => exact (steady_takeCell w q).trans (ih _)

theorem steady_freeCell (w : W) (q c : Nat) : Steady w (w.freeCell q c) :=
  (steady_setOwner w c none).trans (Steady.upd _ _ rfl)

theorem steady_setCell (w : W) (c i : Nat) (v : Word32) : Steady w (w.setCell c i v) := Steady.upd w _ rfl

theorem steady_link (w : W) (q c n : Nat) (a b : Bool) : Steady w (w.link q c n a b) := by
  have h : Steady w ((w.setCell c 0 0).setCell c 1 (cellHeader n a b (w.dev.queue q).seq)) :=
    (steady_setCell _ _ _ _).trans (steady_setCell _ _ _ _)
  unfold W.link
  dsimp only
  split
  · exact ((h.trans (steady_setCell _ _ _ _)).trans (steady_setOwner _ _ _)).trans (Steady.upd _ _ rfl)
  · exact (h.trans (steady_setOwner _ _ _)).trans (Steady.upd _ _ rfl)

theorem steady_openPkt (w : W) (m : Rid) (q n : Nat) (t : Bool) : Steady w (w.openPkt m q n t) :=
  (steady_takeCells n w q).trans (Steady.upd _ _ rfl)

theorem steady_storeWord (w : W) (p : OpenPkt) (v : Word32) : Steady w (w.storeWord p v) :=
  (steady_setCell _ _ _ _).trans (Steady.upd _ _ rfl)

theorem steady_storeWords (vs : List Word32) (w : W) (m : Rid) (q : Nat) : Steady w (w.storeWords m q vs) := by
  induction vs generalizing w with
  | nil => exact Steady.refl w
  | cons v vs ih =>
    simp only [W.storeWords]
    split
    · split
      · exact (steady_storeWord _ _ _).trans (ih _)
      · exact Steady.refl w
    · exact Steady.refl w

theorem steady_linkAll (cs : List Nat) (w : W) (q l : Nat) (f : Bool) : Steady w (w.linkAll q l f cs) := by
  induction cs generalizing w l f with
  | nil => exact Steady.refl w
  | cons c cs ih =>
    simp only [W.linkAll]
    split
    · exact (steady_freeCell _ _ _).trans (ih _ _ _)
    · exact (steady_link _ _ _ _ _ _).trans (ih _ _ _)

theorem steady_closePkt (w : W) (p : OpenPkt) : Steady w (w.closePkt p) :=
  ((steady_setCell _ _ _ _).trans (steady_linkAll _ _ _ _ _)).trans (Steady.upd _ _ rfl)

theorem steady_queueNote (w : W) (n : Nat) (m : Rid) (q o : Nat) (h : Noted n) : Steady w (w.queueNote n m q o) := by
  refine ⟨rfl, rfl, fun e he => ?_⟩
  rcases List.mem_append.mp he with hl | hr
  · exact .inl hl
  · rw [List.mem_singleton] at hr; subst hr; exact .inr h

theorem insertRow_filter {α : Type} (p : Nat × α → Bool) (k : Nat) (v : α) (l : List (Nat × α)) (h : ∀ x, p (k, x) = false) :
    (insertRow k v l).filter p = l.filter p := by
  induction l with
  | nil => simp [insertRow, h]
  | cons x l ih =>
    obtain ⟨a, b⟩ := x
    simp only [insertRow]
    split
    · simp [h]
    · split
      · next e => subst e; simp [h]
      · simp [List.filter_cons, ih]

/-- A register that records errors is none of what `rest` keeps. -/
theorem steady_setErr (w : W) (a : Nat) (v : Word32) (h : errReg a = true) :
    Steady w (w.upd fun d => { d with regs := { d.regs with val := d.regs.val.set a v } }) := by
  refine Steady.upd _ _ ?_
  have k : (w.dev.regs.val.set a v).keep (fun a => !errReg a) = w.dev.regs.val.keep fun a => !errReg a := by
    simp only [Tbl.keep, Tbl.set]
    rw [insertRow_filter _ _ _ _ (fun x => by simp [h])]
  simp only [rest, k]

theorem steady_countBob (w : W) (o : Nat) (h : o ∈ [0x50, 0x54, 0x58]) : Steady w (w.countReg 8 0 o) :=
  steady_setErr w _ _ (by
    simp only [errReg, Bool.or_eq_true, List.any_eq_true, beq_iff_eq]
    exact .inr ⟨o, h, rfl⟩)

theorem steady_poolNote (w : W) (m : Rid) (q o : Nat) : Steady w (w.poolNote m q o) :=
  Steady.ite _ (steady_queueNote _ _ _ _ _ (by simp [Noted])) (Steady.refl w)

theorem steady_misuse (w : W) (m : Rid) (q o : Nat) : Steady w (w.misuse m q o).2 :=
  (steady_countBob w 0x54 (by simp)).trans (steady_queueNote _ _ _ _ _ (by simp [Noted]))

theorem steady_abortPkt (w : W) (p : OpenPkt) : Steady w (w.abortPkt p) :=
  (Steady.each _ _ (fun _ _ => steady_freeCell _ _ _) w).trans (Steady.upd _ _ rfl)

theorem steady_abortOpen (w : W) (p : OpenPkt) (o : Nat) : Steady w (w.abortOpen p o) :=
  ((steady_abortPkt w p).trans (steady_countBob _ 0x58 (by simp))).trans (steady_queueNote _ _ _ _ _ (by simp [Noted]))

theorem steady_mendByte (w : W) (m : Rid) (q o a : Nat) : Steady w (w.mendByte m q o a) := by
  unfold W.mendByte
  split
  · refine Steady.trans (b := if a < ownerByte 0 then w.poolPut a [_] else _) (Steady.ite _ (Steady.upd _ _ rfl) (Steady.upd _ _ rfl))
      (steady_queueNote _ _ _ _ _ (by simp [Noted]))
  · exact Steady.refl w

theorem steady_breakQueue (w : W) (m : Rid) (q o : Nat) : Steady w (w.breakQueue m q o) :=
  (Steady.upd w _ rfl).trans (steady_queueNote _ _ _ _ _ (by simp [Noted]))

theorem steady_readCell (w : W) (m : Rid) (q o c : Nat) : Steady w (w.readCell m q o c) := by
  unfold W.readCell
  dsimp only
  have h : Steady w (w.mendCell m q o c) := Steady.each _ _ (fun _ _ => steady_mendByte _ _ _ _ _) w
  refine h.trans ?_
  split
  · exact (Steady.upd _ _ rfl).trans (steady_breakQueue _ _ _ _)
  · split
    · exact steady_breakQueue _ _ _ _
    · exact Steady.refl _

theorem steady_tailRead (w : W) (m : Rid) (q : Nat) : Steady w (w.tailRead m q) := by
  unfold W.tailRead
  split
  · split
    · exact steady_readCell _ _ _ _ _
    · exact Steady.refl w
  · exact Steady.refl w

theorem steady_enqWord (w : W) (q : Nat) (v : Word32) : Steady w (w.enqWord q v) := by
  have h : Steady w (((w.takeCell q).2.setCell (w.takeCell q).1 2 v).link q (w.takeCell q).1 1 false false) :=
    ((steady_takeCell w q).trans (steady_setCell _ _ _ _)).trans (steady_link _ _ _ _ _ _)
  unfold W.enqWord
  dsimp only
  split
  · split
    · exact ((steady_setCell _ _ _ _).trans (steady_setCell _ _ _ _)).trans (Steady.upd _ _ rfl)
    · exact h
  · exact h

theorem steady_enqPacket (w : W) (q : Nat) (v : Word32) : Steady w (w.enqPacket q v) :=
  (((steady_takeCell w q).trans (steady_setCell _ _ _ _)).trans (steady_setCell _ _ _ _)).trans (steady_link _ _ _ _ _ _)

/-- What a write of a port page that passes at once leaves. -/
def SteadyOpt (w : W) (r : Option (Acc × W)) : Prop := ∀ x, r = some x → Steady w x.2

theorem SteadyOpt.some' {w : W} {x : Acc × W} (h : Steady w x.2) : SteadyOpt w (some x) := fun _ e => by cases e; exact h

theorem SteadyOpt.pair' {w v : W} {a : Acc} (h : Steady w v) : SteadyOpt w (some (a, v)) := fun _ e => by cases e; exact h

theorem SteadyOpt.none' {w : W} : SteadyOpt w none := fun _ e => by cases e

theorem SteadyOpt.trans {w v : W} {r : Option (Acc × W)} (h : Steady w v) (k : SteadyOpt v r) : SteadyOpt w r :=
  fun x e => h.trans (k x e)

theorem steady_tryEnq (w : W) (m : Rid) (q : Nat) (v : Word32) : SteadyOpt w (w.tryEnq m q v) := by
  refine SteadyOpt.trans (steady_tailRead w m q) ?_
  unfold W.tryEnq
  dsimp only
  generalize w.tailRead m q = w1
  split
  · exact .some' (steady_misuse _ _ _ _)
  · split
    · exact .some' (steady_misuse _ _ _ _)
    · split
      · exact .pair' ((steady_enqWord _ q v).trans (steady_poolNote _ m q 0x20))
      · exact .none'
    · split
      · exact .pair' ((steady_enqPacket _ q v).trans (steady_poolNote _ m q 0x20))
      · exact .none'

theorem steady_tryPktOpen (w : W) (m : Rid) (q : Nat) : SteadyOpt w (w.tryPktOpen m q) := by
  unfold W.tryPktOpen
  dsimp only
  split
  · exact .some' (steady_misuse _ _ _ _)
  · split
    · exact .pair' ((steady_openPkt _ _ _ _ _).trans (steady_poolNote _ _ _ _))
    · exact .none'

theorem steady_truncate (w : W) (m : Rid) (q : Nat) : Steady w (w.truncate m q).2 := by
  unfold W.truncate
  dsimp only
  split
  · exact (Steady.upd w _ rfl).trans (steady_misuse _ _ _ _)
  · exact steady_misuse _ _ _ _

theorem steady_tryPktWord (w : W) (m : Rid) (q : Nat) (ws : List Word32) : SteadyOpt w (w.tryPktWord m q ws) := by
  unfold W.tryPktWord
  split
  · exact .some' (steady_misuse _ _ _ _)
  · split
    · exact .some' (steady_misuse _ _ _ _)
    · extract_lets room vs need full
      have hf : ∀ v : W, Steady w v → Steady w (full v).2 := fun v h => by
        show Steady w (if vs.length < ws.length then v.truncate m q else (Acc.done, v)).2
        split
        · exact h.trans (steady_truncate _ _ _)
        · exact h
      split
      · exact .some' (hf _ (steady_storeWords _ _ _ _))
      · split
        · exact .some' (hf _ ((((steady_takeCells need w q).trans (Steady.upd _ _ rfl)).trans
            (steady_storeWords _ _ _ _)).trans (steady_poolNote _ _ _ _)))
        · exact .none'

theorem steady_close (w : W) (m : Rid) (q : Nat) (a : Bool) : Steady w (w.close m q a).2 := by
  unfold W.close
  split
  · exact steady_misuse _ _ _ _
  · split
    · exact steady_abortOpen _ _ _
    · split
      · exact steady_misuse _ _ _ _
      · exact steady_closePkt _ _

theorem steady_tryWaiter (w : W) (x : Waiter) : SteadyOpt w (w.tryWaiter x) := by
  unfold W.tryWaiter
  split
  · exact steady_tryEnq _ _ _ _
  · split
    · exact steady_tryPktOpen _ _ _
    · split
      · exact steady_tryPktWord _ _ _ _
      · exact .some' (steady_close _ _ _ _)

theorem steady_storeNotice (w : W) (k c : Nat) : Steady w (w.storeNotice k c) :=
  (Steady.upd w _ rfl).trans (steady_interrupt _ _ _)

theorem steady_storeTaken (w : W) (x : Waiter) (r : Acc) : Steady w (w.storeTaken x r) := by
  unfold W.storeTaken
  split
  · exact Steady.refl w
  · next k _ =>
    dsimp only
    have pop : ∀ v : W, Steady w v → Steady w (match (v.dev.core k).sb with
        | s :: r => if s.addr.toNat = 0x11800000 + x.q * 0x40 + x.off then v.upd fun d => d.onCore k fun c => { c with sb := r } else v
        | [] => v) := fun v h => by
      split
      · exact h.trans (Steady.ite _ (Steady.upd _ _ rfl) (Steady.refl _))
      · exact h
    cases r with
    | err e => exact pop _ (steady_storeNotice _ _ _)
    | _ => exact pop _ (Steady.refl w)

theorem steady_grantLoop (xs : List Waiter) (w : W) (kept : List Waiter) : Steady w (w.grantLoop kept xs).2 := by
  induction xs generalizing w kept with
  | nil => exact Steady.refl w
  | cons x xs ih =>
    simp only [W.grantLoop]
    split
    · exact ih _ _
    · split
      · next r w1 h => exact ((steady_tryWaiter w x _ h).trans (steady_storeTaken _ _ _)).trans (ih _ _)
      · exact ih _ _

/-- What offering freed cells to the waiters can change. -/
theorem steady_grantWaiters (w : W) : Steady w w.grantWaiters :=
  (steady_grantLoop _ w []).trans (Steady.upd _ _ rfl)

theorem steady_tryRefused (w : W) (m : Rid) (q : Nat) : Steady w (w.tryRefused m q) :=
  (steady_countBob w 0x50 (by simp)).trans (steady_queueNote _ _ _ _ _ (by simp [Noted]))

/-- What a whole packet through the TRY port can change, taken or refused. -/
theorem steady_tryPacket (w : W) (m : Rid) (q : Nat) (ws : List Word32) : Steady w (w.tryPacket m q ws).2 := by
  refine (steady_grantWaiters w).trans ?_
  unfold W.tryPacket
  dsimp only
  generalize w.grantWaiters = w1
  split
  · exact steady_misuse _ _ _ _
  · split
    · exact steady_tryRefused _ _ _
    · have h := ((steady_openPkt w1 m q (w1.dev.queue q).cfg.tryCells true).trans (steady_poolNote _ m q 0x18)).trans
        (steady_storeWords ws _ m q)
      dsimp only
      split
      · exact h.trans (steady_closePkt _ _)
      · exact h

theorem steady_traceOne (w : W) (r : Rec) : Steady w (w.traceOne r).2 := by
  unfold W.traceOne
  dsimp only
  split
  · exact (steady_tryPacket _ _ _ _).trans (Steady.upd _ _ rfl)
  · exact steady_tryPacket _ _ _ _

theorem Steady.drop {w w' : W} (h : Steady w w') (p : Nat × Word32 × Word32 → Bool) :
    Steady w { w' with due := w.due ++ (w'.due.drop w.due.length).filter p } := by
  refine ⟨h.1, h.2.1, fun e he => ?_⟩
  rcases List.mem_append.mp he with hl | hr
  · exact .inl hl
  · exact h.2.2 e (List.mem_of_mem_drop (List.mem_filter.mp hr).1)

theorem steady_trace (w : W) (r : Rec) : Steady w (w.trace r) := by
  unfold W.trace
  dsimp only
  split
  · exact Steady.refl w
  · have h1 : Steady w (if w.dev.flue.traceGap.n = 0 then (true, w) else w.traceOne (gapRec w.dev.flue.traceGap r.mode)).2 := by
      split
      · exact Steady.refl w
      · exact steady_traceOne _ _
    generalize (if w.dev.flue.traceGap.n = 0 then (true, w) else w.traceOne (gapRec w.dev.flue.traceGap r.mode)) = x at h1 ⊢
    obtain ⟨ready, v⟩ := x
    dsimp only at h1 ⊢
    have h2 : Steady w (if (ready && w.dev.flue.traceGap.n != 0) = true then
        v.upd fun d => { d with flue := { d.flue with traceGap := {} } } else v) :=
      h1.trans (Steady.ite _ (Steady.upd _ _ rfl) (Steady.refl v))
    generalize (if (ready && w.dev.flue.traceGap.n != 0) = true then
        v.upd fun d => { d with flue := { d.flue with traceGap := {} } } else v) = y at h2 ⊢
    have h3 : Steady w (if ready = true then y.traceOne r else (false, y)).2 := by
      split
      · exact h2.trans (steady_traceOne _ _)
      · exact h2
    generalize (if ready = true then y.traceOne r else (false, y)) = z at h3 ⊢
    obtain ⟨ok, u⟩ := z
    dsimp only at h3 ⊢
    refine Steady.trans (b := w) (Steady.refl w) ?_
    split
    · refine Steady.drop ?_ _
      exact h3.trans (Steady.ite _ (Steady.refl u) (Steady.upd _ _ rfl))
    · exact h3.trans (Steady.ite _ (Steady.refl u) (Steady.upd _ _ rfl))

theorem steady_forceCh (w : W) (n : Nat) : Steady w (w.forceCh n) :=
  Steady.ite _ (Steady.refl w) (Steady.upd _ _ rfl)

theorem steady_history (w : W) (r : Rec) : Steady w (w.history r) := Steady.upd _ _ rfl

theorem steady_deliver (w : W) (k : Nat) (r : Reply) : Steady w (w.deliver k r) := by
  refine Steady.upd _ _ ?_
  dsimp only
  split
  · rfl
  · split <;> rfl

theorem steady_reply (w : W) (p : Packet) (o : Half) (st : Nat) (f : Bool) (r : List Byte) (s : Bool) :
    Steady w (w.reply p o st f r s) :=
  (steady_deliver _ _ _).trans (Steady.ite _ (Steady.refl _) (Steady.upd _ _ rfl))

theorem steady_finish (w : W) (p : Pend) (st : Nat) (r : List Byte) : Steady w (w.finish p st r) :=
  (Steady.upd w _ rfl).trans (Steady.ite _ (steady_reply _ _ _ _ _ _ _) (Steady.refl _))

theorem steady_finishAll (w : W) (o k st : Nat) (r : List Byte) : Steady w (w.finishAll o k st r) :=
  Steady.each _ _ (fun _ w => steady_finish w _ _ _) w

theorem steady_errAssert (w : W) : Steady w w.errAssert := (Steady.upd w _ rfl).trans (steady_finishAll _ _ _ _ _)

theorem steady_errRelease (w : W) : Steady w w.errRelease := (Steady.upd w _ rfl).trans (steady_finishAll _ _ _ _ _)

theorem steady_errAuto (w : W) : Steady w w.errAuto := Steady.ite _ (steady_errRelease w) (Steady.refl w)

theorem steady_stampMode (w : W) (m : Mode) : Steady w (w.stampMode m) := Steady.upd _ _ rfl

theorem steady_put (w : W) (a : Nat) (bs : List Byte) : Steady w (w.put a bs) := by
  refine ⟨?_, rfl, fun _ h => .inl h⟩
  simp only [W.put, upd_dev]
  split <;> rfl

/-- A record of the errors of a hob's bytes is none of what `rest` keeps. -/
theorem steady_setHobReg (w : W) (u o : Nat) (v : Word32) (ho : o ∈ [0x20C, 0x210, 0x214, 0x218, 0x21C]) :
    Steady w (w.setHobReg u o v) := by
  have e : w.setHobReg u o v = w.upd fun d => { d with regs := { d.regs with
      val := d.regs.val.set ((if u < 16 then blockBase 16 u else blockBase 1 0) + o) v } } := by
    unfold W.setHobReg W.setReg
    split <;> rfl
  rw [e]
  refine steady_setErr _ _ _ ?_
  simp only [errReg, Bool.or_eq_true, List.any_eq_true, List.mem_range, beq_iff_eq]
  by_cases h : u < 16
  · exact .inl ⟨u, by omega, o, ho, rfl⟩
  · exact .inl ⟨16, by omega, o, ho, by simp [h]⟩

theorem steady_hobCount (w : W) (u : Nat) (b : Bool) (e : Word32) : Steady w (w.hobCount u b e) := by
  unfold W.hobCount
  dsimp only
  refine (((?_ : Steady w _).trans (steady_setHobReg _ _ _ _ (by simp))).trans (steady_setHobReg _ _ _ _ (by simp))).trans
    (steady_setHobReg _ _ _ _ (by simp))
  exact steady_setHobReg _ _ _ _ (by split <;> simp)

theorem hobSource_noted (k u : Nat) (h : k < 2) : Noted (hobSource k u) := by
  unfold Noted hobSource
  split <;> omega

/-- What is logged of a byte: the hob's counters and queue, and an event of the hob's own sources. -/
theorem steady_hobLog (w : W) (u a : Nat) (m : Bool) (c : ByteCode) :
    Steady w (w.hobLog u a m c).2 ∧ ∀ e ∈ (w.hobLog u a m c).1, Noted e.1 := by
  cases c with
  | good b => exact ⟨Steady.refl w, by simp [W.hobLog]⟩
  | fixed b s =>
    refine ⟨(steady_hobCount _ _ _ _).trans (Steady.upd _ _ rfl), fun e h => ?_⟩
    simp only [W.hobLog, Option.mem_def, Option.some.injEq] at h
    subst h; exact hobSource_noted 0 u (by omega)
  | bad b s =>
    refine ⟨steady_hobCount _ _ _ _, fun e h => ?_⟩
    simp only [W.hobLog, Option.mem_def, Option.some.injEq] at h
    subst h; exact hobSource_noted 1 u (by omega)

theorem steady_wakeHob (w : W) (u : Nat) : Steady w (w.wakeHob u) := Steady.ite _ (Steady.refl w) (Steady.upd _ _ rfl)

theorem steady_granted (w : W) (u k : Nat) : Steady w (w.granted u k) := Steady.upd _ _ rfl

theorem steady_hobInjected (w : W) (u k : Nat) (l : List Nat) : Steady w (w.hobInjected u k l) := by
  unfold W.hobInjected
  split
  · exact Steady.ite _ (Steady.upd _ _ rfl) (Steady.refl w)
  · exact Steady.refl w

theorem steady_copyHob (w : W) (u s d n : Nat) : Steady w (w.copyHob u s d n) := by
  unfold W.copyHob
  dsimp only
  refine ((steady_wakeHob w u).trans ?_).trans
    ((((steady_put _ _ _).trans (steady_granted _ _ _)).trans (Steady.upd _ _ rfl)).trans (steady_hobInjected _ _ _ _))
  refine Steady.ite _ (Steady.each _ _ (fun i w => ?_) _) (Steady.refl _)
  generalize List.getD _ i (ByteCode.good 0) = c
  have h := steady_hobLog w u (s + i) false c
  refine ⟨h.1.1, h.1.2.1, fun e he => ?_⟩
  rcases List.mem_append.mp he with hl | hr
  · exact h.1.2.2 e hl
  · obtain ⟨x, hx, rfl⟩ := List.mem_map.mp hr
    exact .inr (h.2 x (Option.mem_toList.mp hx))

theorem steady_startCore (w : W) (k : Nat) (h : k < 64) : Steady w (w.startCore k) := by
  unfold W.startCore
  split
  · exact Steady.refl w
  · rw [if_neg (by omega)]
    exact Steady.upd _ _ rfl

theorem canStart_lt (w : W) (k : Nat) (h : w.canStart k = true) : k < 64 := by
  simp only [W.canStart, Bool.and_eq_true, decide_eq_true_eq] at h
  exact h.1.1.1.1.1

theorem steady_startCores (w : W) : Steady w w.startCores := by
  refine Steady.each _ _ (fun k w => ?_) w
  split
  · next h =>
    simp only [Bool.and_eq_true] at h
    exact steady_startCore _ _ (canStart_lt _ _ h.1)
  · exact Steady.refl w

theorem rest_foldl {α : Type} (f : Dev → α → Dev) (h : ∀ d x, rest (f d x) = rest d) (l : List α) (d : Dev) :
    rest (l.foldl f d) = rest d := by
  induction l generalizing d with
  | nil => rfl
  | cons a l ih => exact (ih _).trans (h _ _)

theorem steady_cutFail (w : W) (h : Nat) (c : Byte) : Steady w (w.cutFail h c) := by
  refine Steady.upd _ _ ?_
  split
  · split
    · exact rest_foldl (fun d h => d.onCutStat h fun s => { s with phase := 3 }) (fun _ _ => rfl) _ _
    · rfl
  · rfl

theorem steady_endCutover (w : W) (o : Nat) : Steady w (w.endCutover o) := by
  unfold W.endCutover
  split
  · exact Steady.refl w
  · exact ((Steady.upd w _ rfl).trans (Steady.each _ _ (fun _ _ => Steady.upd _ _ rfl) _)).trans (steady_finishAll _ _ _ _ _)

theorem steady_carry (w : W) (h : Nat) (s : Machine.Section) (b : Bool) : Steady w (w.carry h s b) := by
  have key : ∀ (l : List (Nat × Nat)) (p : Nat × W), Steady w p.2 →
      Steady w (l.foldl (fun (p : Nat × W) r =>
        let x := hobBase h + r.1
        let y := hobBase h + s.snap + p.1
        (p.1 + r.2, if b then p.2.copyHob h y x r.2 else p.2.copyHob h x y r.2)) p).2 := by
    intro l
    induction l with
    | nil => exact fun p hp => hp
    | cons r l ih =>
      intro p hp
      refine ih _ (hp.trans ?_)
      dsimp only
      split <;> exact steady_copyHob _ _ _ _ _
  exact key _ (0, w) (Steady.refl w)

theorem steady_fallbackHearth (w : W) (c : Cutover) (h : Nat) : Steady w (w.fallbackHearth c h) := by
  unfold W.fallbackHearth
  dsimp only
  split
  · exact (steady_carry _ _ _ _).trans (Steady.each _ _ (fun _ w => Steady.ite _ (Steady.upd _ _ rfl) (Steady.refl w)) _)
  · exact Steady.refl w

theorem steady_fallback (w : W) (o : Nat) : Steady w (w.fallback o) := by
  unfold W.fallback
  split
  · exact Steady.refl w
  · refine ((Steady.each _ _ (fun _ w => steady_fallbackHearth w _ _) w).trans (steady_endCutover _ _)).trans
      (Steady.each _ _ (fun k w => ?_) _)
    split
    · next h => exact steady_startCore _ _ (canStart_lt _ _ h)
    · exact Steady.refl w

theorem steady_cutoverSafe (w : W) : Steady w w.cutoverSafe.2 := by
  unfold W.cutoverSafe
  split
  · exact Steady.refl w
  · split
    · split
      · exact steady_fallback _ _
      · exact steady_endCutover _ _
    · exact steady_endCutover _ _

theorem rest_levels (d : Dev) (l : Nat × Nat × Nat) :
    rest { d with power := { d.power with levels := l } } = rest d := rfl

theorem steady_domainUp (w : W) (n : Nat) : Steady w (w.domainUp n) := by
  refine Steady.upd _ _ ?_
  dsimp only
  split <;> rfl

theorem steady_dozeUp (w : W) : Steady w w.dozeUp := by
  unfold W.dozeUp
  dsimp only
  refine Steady.trans (Steady.upd _ _ ?_) (Steady.each _ _ (fun n w => Steady.ite _ (Steady.refl w) (steady_domainUp w n)) _)
  rw [rest_levels]
  generalize List.range 17 = l
  generalize List.range 64 = k
  exact (rest_foldl (fun d k => d.onCore k fun x => { x with wait := .awake }) (fun _ _ => rfl) k _).trans
    (rest_foldl (fun d h => d.onHob h fun x => { x with power := if h = 16 then .awake else .ret55 }) (fun _ _ => rfl) l w.dev)

theorem steady_enterSafe (w : W) : Steady w w.enterSafe.2 := by
  unfold W.enterSafe
  split
  · exact Steady.refl w
  · dsimp only
    refine Steady.trans ?_ (steady_startCores _)
    have h := ((steady_cutoverSafe w).trans (Steady.upd w.cutoverSafe.2 (fun d => { d with
        sys := { d.sys with dozeArmed := false },
        flue := { d.flue with
          retMode := if w.dev.sys.mode.running then 4 else if w.dev.sys.mode = .quiet then d.flue.retMode else 3,
          tripSet := [] },
        chim := { d.chim with safeMark := d.chim.safeMark || d.chim.pos == 0 },
        stoker := { d.stoker with serving := !d.stoker.restarting } }) rfl)).trans (steady_stampMode _ .safe)
    split
    · exact h.trans (steady_dozeUp _)
    · exact h

theorem steady_restartOut (w : W) (h : Nat) : Steady w (w.restartOut h) :=
  Steady.ite _ (Steady.refl w) (Steady.upd _ _ rfl)

theorem steady_hearthSafe (w : W) (s h : Nat) : Steady w (w.hearthSafe s h) :=
  ((Steady.upd w _ rfl).trans (steady_restartOut _ _)).trans (Steady.each _ _ (fun _ w => steady_forceCh w _) _)

theorem steady_selectGroup (w : W) (s h g : Nat) : Steady w (w.selectGroup s h g) :=
  ((Steady.upd w _ rfl).trans (steady_restartOut _ _)).trans
    (Steady.each _ _ (fun _ w => Steady.ite _ (steady_forceCh w _) (Steady.refl w)) _)

theorem steady_deviceSafe (w : W) (s : Nat) : Steady w (w.deviceSafe s).2 := by
  unfold W.deviceSafe
  dsimp only
  refine Steady.trans ?_ (Steady.each _ _ (fun _ w => steady_forceCh w _) _)
  refine Steady.trans ?_ (Steady.each _ _ (fun _ w => steady_restartOut w _) _)
  refine Steady.trans (b := (if w.dev.sys.mode.trippable then w.enterSafe else (false, w)).2) ?_ (Steady.upd _ _ ?_)
  · split
    · exact steady_enterSafe w
    · exact Steady.refl w
  · generalize List.range 16 = l
    exact rest_foldl (fun d h => d.onBlw h fun b => { b with all := true }) (fun _ _ => rfl) l _

/-- `rest` without the sources' entries: what no event touches. -/
def kept (d : Dev) : Dev := { rest d with flue := {} }

/-- `w'` differs from `w` in nothing that `kept` keeps. -/
def Kept (w w' : W) : Prop := kept w'.dev = kept w.dev ∧ w'.fuse = w.fuse

theorem Kept.refl (w : W) : Kept w w := ⟨rfl, rfl⟩

theorem Kept.trans {a b c : W} (h : Kept a b) (k : Kept b c) : Kept a c := ⟨k.1.trans h.1, k.2.trans h.2⟩

theorem Kept.upd (w : W) (f : Dev → Dev) (h : kept (f w.dev) = kept w.dev) : Kept w (w.upd f) := ⟨h, rfl⟩

theorem Steady.kept {w w' : W} (h : Steady w w') : Kept w w' := ⟨by simp only [Laws.kept, h.1], h.2.1⟩

theorem Kept.ite {a b c : W} (p : Prop) [Decidable p] (h : Kept a b) (k : Kept a c) :
    Kept a (if p then b else c) := by split <;> assumption

theorem Kept.each {α : Type} (xs : List α) (f : α → W → W) (h : ∀ x w, Kept w (f x w)) (w : W) : Kept w (w.each xs f) := by
  induction xs generalizing w with
  | nil => exact Kept.refl w
  | cons x xs ih => exact (h x w).trans (ih (f x w))

@[simp] theorem src_onSrc_self (d : Dev) (k : Nat) (f : Src → Src) : (d.onSrc k f).src k = f (d.src k) := by
  simp [Dev.onSrc, Dev.src]

theorem src_onSrc_ne (d : Dev) (k j : Nat) (f : Src → Src) (h : j ≠ k) : (d.onSrc k f).src j = d.src j := by
  simp [Dev.onSrc, Dev.src, getD_set_ne _ _ _ _ _ h]

theorem steady_src {w w' : W} (h : Steady w w') (n : Nat) : w'.dev.src n = w.dev.src n := by
  have : (rest w'.dev).flue.srcs = (rest w.dev).flue.srcs := by rw [h.1]
  simp only [Dev.src]
  rw [show w'.dev.flue.srcs = w.dev.flue.srcs from this]

theorem steady_react (w : W) (s : Nat) (r : Rec) (grp : List Nat) : Steady w (w.react s r grp).2 := by
  unfold W.react
  dsimp only
  have h1 : Steady w (if (bitAt r.react 0 && decide (2 ≤ r.sev.toNat)) = true then w.history r else w) :=
    Steady.ite _ (steady_history _ _) (Steady.refl _)
  refine h1.trans ?_
  generalize (if (bitAt r.react 0 && decide (2 ≤ r.sev.toNat)) = true then w.history r else w) = w1
  refine (steady_trace w1 r).trans ?_
  generalize w1.trace r = w2
  refine Steady.trans (b := if 2 ≤ r.sev.toNat then w2.cutFail (w.srcHearth s) 5 else w2)
    (Steady.ite _ (steady_cutFail _ _ _) (Steady.refl _)) ?_
  generalize (if 2 ≤ r.sev.toNat then w2.cutFail (w.srcHearth s) 5 else w2) = w3
  refine Steady.trans (b := if 2 ≤ r.react.toNat then w3.startDriving else w3)
    (Steady.ite _ (Steady.upd _ _ rfl) (Steady.refl _)) ?_
  generalize (if 2 ≤ r.react.toNat then w3.startDriving else w3) = w4
  refine Steady.trans (b := if bitAt r.react 1 = true then w4.hearthSafe s (w.srcHearth s) else w4)
    (Steady.ite _ (steady_hearthSafe _ _ _) (Steady.refl _)) ?_
  generalize (if bitAt r.react 1 = true then w4.hearthSafe s (w.srcHearth s) else w4) = w5
  have h6 : ∀ xs : List Nat, Steady w5 (if bitAt r.react 2 = true then
      w5.each xs fun g w' => w'.selectGroup s (w.srcHearth s) g else w5) := fun xs =>
    Steady.ite _ (Steady.each _ _ (fun _ w => steady_selectGroup w _ _ _) _) (Steady.refl _)
  refine (h6 (grp ++ List.filter (fun g => !grp.contains g) (bitsOf 16 (fld (w5.srcCfg s) 16 16)))).trans ?_
  generalize (if bitAt r.react 2 = true then
    w5.each (grp ++ List.filter (fun g => !grp.contains g) (bitsOf 16 (fld (w5.srcCfg s) 16 16))) fun g w' =>
      w'.selectGroup s (w.srcHearth s) g else w5) = w6
  refine Steady.trans (b := if bitAt r.react 4 = true then w6.errAssert else w6)
    (Steady.ite _ (steady_errAssert _) (Steady.refl _)) ?_
  generalize (if bitAt r.react 4 = true then w6.errAssert else w6) = w7
  split
  · exact steady_deviceSafe _ _
  · split
    · exact steady_enterSafe _
    · exact Steady.refl _

theorem kept_noteEvent (w : W) (s : Nat) (l : Bool) (r : Rec) : Kept w (w.noteEvent s l r) := by
  unfold W.noteEvent
  dsimp only
  split <;> exact Kept.upd _ _ rfl

theorem src_noteEvent (w : W) (s n : Nat) (l : Bool) (r : Rec) :
    (w.noteEvent s l r).dev.src n = if n = s then (w.dev.src s).after l r else w.dev.src n := by
  have h : ((w.dev.onSrc s fun x => x.after l r)).src n = if n = s then (w.dev.src s).after l r else w.dev.src n := by
    split
    · next e => subst e; simp
    · next e => exact src_onSrc_ne _ _ _ _ e
  unfold W.noteEvent
  dsimp only
  split <;> exact h

/-- What an event of a source of the device does to the sources' entries. -/
theorem src_event (w : W) (s n : Nat) (d0 d1 : Word32) (t : Bool) (grp : List Nat) (row : SrcRow)
    (h : w.source s = some row) :
    (w.event s d0 d1 t grp).2.dev.src n =
      if n = s then (w.dev.src s).after row.level (w.eventRec s d0 d1 t) else w.dev.src n := by
  simp only [W.event, h]
  rw [steady_src (steady_react _ _ _ _), src_noteEvent]

/-- What no event changes. -/
theorem kept_event (w : W) (s : Nat) (d0 d1 : Word32) (t : Bool) (grp : List Nat) : Kept w (w.event s d0 d1 t grp).2 := by
  unfold W.event
  split
  · exact Kept.refl w
  · exact (kept_noteEvent _ _ _ _).trans (steady_react _ _ _ _).kept

theorem kept_poolCheck (w : W) : Kept w w.poolCheck := by
  unfold W.poolCheck
  dsimp only
  split
  · exact kept_event _ _ _ _ _ _
  · split
    · exact (Kept.upd w _ rfl).trans (steady_errAuto _).kept
    · exact Kept.refl w

theorem kept_fellBack (x : Bool × W) : Kept x.2 (W.fellBack x) := Kept.ite _ (kept_event _ _ _ _ _ _) (Kept.refl _)

theorem kept_drainOnce (w : W) : Kept w w.drainOnce := by
  unfold W.drainOnce
  exact Kept.trans (b := { w with due := [] }) ⟨rfl, rfl⟩
    (Kept.each _ _ (fun _ _ => Kept.ite _ (Kept.refl _) ((kept_event _ _ _ _ _ _).trans (kept_fellBack _))) _)

/-- What the events that wait change. -/
theorem kept_settle (w : W) : Kept w w.settle := ((kept_drainOnce _).trans (kept_drainOnce _)).trans (kept_poolCheck _)

theorem kept_followUp (x : Bool × W) : Kept x.2 (W.followUp x) := (kept_fellBack x).trans (kept_settle _)

/-- What no detection changes: the registers, the commit machines, the counters, the watchdogs, the lanes, the
DRAM, basting, the Thimble, the fuses. -/
theorem kept_raise (w : W) (s : Nat) (d0 d1 : Word32) (t : Bool) (grp : List Nat) : Kept w (w.raise s d0 d1 t grp) := by
  exact (kept_event _ _ _ _ _ _).trans (kept_followUp _)

theorem src_poolCheck (w : W) (n : Nat) (h : n ≠ 0x2C3) : w.poolCheck.dev.src n = w.dev.src n := by
  unfold W.poolCheck
  dsimp only
  split
  · cases hs : w.source 0x2C3 with
    | none => simp only [W.event, hs]
    | some row => rw [src_event _ _ _ _ _ _ _ row hs, if_neg h]
  · split
    · exact (steady_src (steady_errAuto _) n).trans (src_onSrc_ne _ _ _ _ h)
    · rfl

/-- A source the device does not have has no event. -/
theorem event_none (w : W) (s : Nat) (d0 d1 : Word32) (t : Bool) (grp : List Nat) (h : w.source s = none) :
    w.event s d0 d1 t grp = (false, w) := by simp only [W.event, h]

theorem due_event (w : W) (s : Nat) (d0 d1 : Word32) (t : Bool) (grp : List Nat) :
    ∀ e ∈ (w.event s d0 d1 t grp).2.due, e ∈ w.due ∨ Noted e.1 := by
  unfold W.event
  split
  · exact fun e h => .inl h
  · next row _ =>
    intro e h
    refine ((steady_react _ _ _ _).2.2 e h).imp (fun h => ?_) id
    unfold W.noteEvent at h
    dsimp only at h
    split at h <;> exact h

theorem src_event_ne (w : W) (s n : Nat) (d0 d1 : Word32) (t : Bool) (grp : List Nat) (h : n ≠ s) :
    (w.event s d0 d1 t grp).2.dev.src n = w.dev.src n := by
  cases hs : w.source s with
  | none => rw [event_none _ _ _ _ _ _ hs]
  | some row => rw [src_event _ _ _ _ _ _ _ row hs, if_neg h]

/-- The entry of source `n` stays, and the events that have begun to wait are noted ones. -/
def Spares (n : Nat) (w w' : W) : Prop := w'.dev.src n = w.dev.src n ∧ ∀ e ∈ w'.due, e ∈ w.due ∨ Noted e.1

theorem Spares.trans {n : Nat} {a b c : W} (h : Spares n a b) (k : Spares n b c) : Spares n a c :=
  ⟨k.1.trans h.1, fun e he => (k.2 e he).elim (h.2 e) .inr⟩

theorem spares_event (w : W) (s n : Nat) (d0 d1 : Word32) (t : Bool) (grp : List Nat) (h : n ≠ s) :
    Spares n w (w.event s d0 d1 t grp).2 := ⟨src_event_ne _ _ _ _ _ _ _ h, due_event _ _ _ _ _ _⟩

theorem spares_fellBack (x : Bool × W) (n : Nat) (h : n ≠ 0x342) : Spares n x.2 (W.fellBack x) := by
  unfold W.fellBack
  split
  · exact spares_event _ _ _ _ _ _ _ h
  · exact ⟨rfl, fun _ h => .inl h⟩

/-- Draining noted events changes no other source than theirs and CUTOVER_FALLBACK. -/
theorem spares_drainOnce (w : W) (n : Nat) (h : n ≠ 0x342) (hn : ¬ Noted n) (hd : ∀ e ∈ w.due, Noted e.1) :
    w.drainOnce.dev.src n = w.dev.src n ∧ ∀ e ∈ w.drainOnce.due, Noted e.1 := by
  have key : ∀ (es : List (Nat × Word32 × Word32)) (v : W), (∀ e ∈ es, Noted e.1) → Spares n v
      (v.each es fun e w => if w.stands e.1 then w else W.fellBack (w.event e.1 e.2.1 e.2.2 false [])) := by
    intro es
    induction es with
    | nil => exact fun v _ => ⟨rfl, fun _ h => .inl h⟩
    | cons e es ih =>
      intro v he
      have h1 : n ≠ e.1 := fun c => hn (c ▸ he e (by simp))
      refine Spares.trans (b := if v.stands e.1 then v else W.fellBack (v.event e.1 e.2.1 e.2.2 false [])) ?_
        (ih _ fun x hx => he x (by simp [hx]))
      split
      · exact ⟨rfl, fun _ h => .inl h⟩
      · exact (spares_event v e.1 n e.2.1 e.2.2 false [] h1).trans (spares_fellBack _ n h)
  have k := key w.due { w with due := [] } hd
  exact ⟨k.1, fun e he => (k.2 e he).elim (fun c => by cases c) id⟩

/-- What a detection does to the entry of its source, where nothing waits before it. -/
theorem src_raise (w : W) (s : Nat) (d0 d1 : Word32) (t : Bool) (grp : List Nat) (row : SrcRow)
    (h : w.source s = some row) (h1 : s ≠ 0x2C3) (h2 : s ≠ 0x342) (h3 : ¬ Noted s) (h4 : w.due = []) :
    (w.raise s d0 d1 t grp).dev.src s = (w.dev.src s).after row.level (w.eventRec s d0 d1 t) := by
  have e1 := due_event w s d0 d1 t grp
  have e2 := spares_fellBack (w.event s d0 d1 t grp) s h2
  have hd : ∀ e ∈ (W.fellBack (w.event s d0 d1 t grp)).due, Noted e.1 := fun e he =>
    (e2.2 e he).elim (fun c => (e1 e c).elim (fun c => by rw [h4] at c; cases c) id) id
  have e3 := spares_drainOnce _ s h2 h3 hd
  have e4 := spares_drainOnce _ s h2 h3 e3.2
  unfold W.raise W.followUp W.settle W.drainDue
  rw [src_poolCheck _ _ h1, e4.1, e3.1, e2.1, src_event w s s d0 d1 t grp row h, if_pos rfl]

end Sys2Proof.Laws
end

