-- ==== Sys2Proof/Laws/State.lean ====
section
/-! SUPPORT. The laws of State: what each named update of the device and of the world changes, and that it changes no other
field. -/

namespace Sys2Proof.Laws

open Machine

@[simp] theorem stateOf_dev (s : State) (w : W) : (stateOf s w).dev = w.dev := rfl
@[simp] theorem stateOf_fuse (s : State) (w : W) : (stateOf s w).fuse = s.fuse := rfl
@[simp] theorem stateOf_pending (s : State) (w : W) : (stateOf s w).pending = s.pending := rfl
@[simp] theorem stateOf_mem (s : State) (w : W) : (stateOf s w).mem = s.mem.applyAll w.ops := rfl
@[simp] theorem fresh_snd_dev (w : W) : w.fresh.2.dev = { w.dev with free := w.dev.free + 1 } := rfl
@[simp] theorem fresh_fst (w : W) : w.fresh.1 = w.dev.free := rfl
@[simp] theorem each_nil {α : Type} (w : W) (f : α → W → W) : w.each [] f = w := rfl
@[simp] theorem each_cons {α : Type} (w : W) (x : α) (xs : List α) (f : α → W → W) : w.each (x :: xs) f = (f x w).each xs f := rfl
@[simp] theorem when_true (w : W) (f : W → W) : w.when true f = f w := rfl
@[simp] theorem when_false (w : W) (f : W → W) : w.when false f = w := rfl
@[simp] theorem upd_upd (w : W) (f g : Dev → Dev) : (w.upd f).upd g = w.upd fun d => g (f d) := rfl
@[simp] theorem answer_fuse (w : W) (a : Answer) : (w.answer a).fuse = w.fuse := rfl
@[simp] theorem answer_base (w : W) (a : Answer) : (w.answer a).base = w.base := rfl
@[simp] theorem answer_ops (w : W) (a : Answer) : (w.answer a).ops = w.ops := rfl
@[simp] theorem answer_out (w : W) (a : Answer) : (w.answer a).dev.out = a := rfl
@[simp] theorem answer_dev_sys (w : W) (a : Answer) : (w.answer a).dev.sys = w.dev.sys := rfl
@[simp] theorem answer_dev_regs (w : W) (a : Answer) : (w.answer a).dev.regs = w.dev.regs := rfl
@[simp] theorem answer_dev_commits (w : W) (a : Answer) : (w.answer a).dev.commits = w.dev.commits := rfl
@[simp] theorem answer_dev_clock (w : W) (a : Answer) : (w.answer a).dev.clock = w.dev.clock := rfl
@[simp] theorem answer_dev_flue (w : W) (a : Answer) : (w.answer a).dev.flue = w.dev.flue := rfl
@[simp] theorem answer_dev_dampers (w : W) (a : Answer) : (w.answer a).dev.dampers = w.dev.dampers := rfl
@[simp] theorem answer_dev_wdts (w : W) (a : Answer) : (w.answer a).dev.wdts = w.dev.wdts := rfl
@[simp] theorem answer_dev_lanes (w : W) (a : Answer) : (w.answer a).dev.lanes = w.dev.lanes := rfl
@[simp] theorem answer_dev_seams (w : W) (a : Answer) : (w.answer a).dev.seams = w.dev.seams := rfl
@[simp] theorem answer_dev_laneUnits (w : W) (a : Answer) : (w.answer a).dev.laneUnits = w.dev.laneUnits := rfl
@[simp] theorem answer_dev_stoker (w : W) (a : Answer) : (w.answer a).dev.stoker = w.dev.stoker := rfl
@[simp] theorem answer_dev_cores (w : W) (a : Answer) : (w.answer a).dev.cores = w.dev.cores := rfl
@[simp] theorem answer_dev_hobs (w : W) (a : Answer) : (w.answer a).dev.hobs = w.dev.hobs := rfl
@[simp] theorem answer_dev_flips (w : W) (a : Answer) : (w.answer a).dev.flips = w.dev.flips := rfl
@[simp] theorem answer_dev_bellows (w : W) (a : Answer) : (w.answer a).dev.bellows = w.dev.bellows := rfl
@[simp] theorem answer_dev_baste (w : W) (a : Answer) : (w.answer a).dev.baste = w.dev.baste := rfl
@[simp] theorem answer_dev_dram (w : W) (a : Answer) : (w.answer a).dev.dram = w.dev.dram := rfl
@[simp] theorem answer_dev_bobbin (w : W) (a : Answer) : (w.answer a).dev.bobbin = w.dev.bobbin := rfl
@[simp] theorem answer_dev_thm (w : W) (a : Answer) : (w.answer a).dev.thm = w.dev.thm := rfl
@[simp] theorem answer_dev_images (w : W) (a : Answer) : (w.answer a).dev.images = w.dev.images := rfl
@[simp] theorem answer_dev_power (w : W) (a : Answer) : (w.answer a).dev.power = w.dev.power := rfl
@[simp] theorem answer_dev_chim (w : W) (a : Answer) : (w.answer a).dev.chim = w.dev.chim := rfl
@[simp] theorem answer_dev_ports (w : W) (a : Answer) : (w.answer a).dev.ports = w.dev.ports := rfl
@[simp] theorem answer_dev_patGen (w : W) (a : Answer) : (w.answer a).dev.patGen = w.dev.patGen := rfl
@[simp] theorem answer_dev_eraseAt (w : W) (a : Answer) : (w.answer a).dev.eraseAt = w.dev.eraseAt := rfl
@[simp] theorem answer_dev_free (w : W) (a : Answer) : (w.answer a).dev.free = w.dev.free := rfl
@[simp] theorem poke_fuse (w : W) (a : Nat) (bs : List Byte) : (w.poke a bs).fuse = w.fuse := rfl
@[simp] theorem poke_base (w : W) (a : Nat) (bs : List Byte) : (w.poke a bs).base = w.base := rfl
@[simp] theorem poke_dev (w : W) (a : Nat) (bs : List Byte) : (w.poke a bs).dev = w.dev := rfl
@[simp] theorem wipe_fuse (w : W) (a n : Nat) : (w.wipe a n).fuse = w.fuse := rfl
@[simp] theorem wipe_base (w : W) (a n : Nat) : (w.wipe a n).base = w.base := rfl
@[simp] theorem wipe_dev (w : W) (a n : Nat) : (w.wipe a n).dev = w.dev := rfl

/-! `Dev.onDamper`. -/

@[simp] theorem sys_onDamper (d : Dev) (k : Nat) (f : Damper → Damper) : (d.onDamper k f).sys = d.sys := rfl
@[simp] theorem regs_onDamper (d : Dev) (k : Nat) (f : Damper → Damper) : (d.onDamper k f).regs = d.regs := rfl
@[simp] theorem commits_onDamper (d : Dev) (k : Nat) (f : Damper → Damper) : (d.onDamper k f).commits = d.commits := rfl
@[simp] theorem clock_onDamper (d : Dev) (k : Nat) (f : Damper → Damper) : (d.onDamper k f).clock = d.clock := rfl
@[simp] theorem flue_onDamper (d : Dev) (k : Nat) (f : Damper → Damper) : (d.onDamper k f).flue = d.flue := rfl
@[simp] theorem wdts_onDamper (d : Dev) (k : Nat) (f : Damper → Damper) : (d.onDamper k f).wdts = d.wdts := rfl
@[simp] theorem lanes_onDamper (d : Dev) (k : Nat) (f : Damper → Damper) : (d.onDamper k f).lanes = d.lanes := rfl
@[simp] theorem seams_onDamper (d : Dev) (k : Nat) (f : Damper → Damper) : (d.onDamper k f).seams = d.seams := rfl
@[simp] theorem laneUnits_onDamper (d : Dev) (k : Nat) (f : Damper → Damper) : (d.onDamper k f).laneUnits = d.laneUnits := rfl
@[simp] theorem stoker_onDamper (d : Dev) (k : Nat) (f : Damper → Damper) : (d.onDamper k f).stoker = d.stoker := rfl
@[simp] theorem cores_onDamper (d : Dev) (k : Nat) (f : Damper → Damper) : (d.onDamper k f).cores = d.cores := rfl
@[simp] theorem hobs_onDamper (d : Dev) (k : Nat) (f : Damper → Damper) : (d.onDamper k f).hobs = d.hobs := rfl
@[simp] theorem flips_onDamper (d : Dev) (k : Nat) (f : Damper → Damper) : (d.onDamper k f).flips = d.flips := rfl
@[simp] theorem bellows_onDamper (d : Dev) (k : Nat) (f : Damper → Damper) : (d.onDamper k f).bellows = d.bellows := rfl
@[simp] theorem baste_onDamper (d : Dev) (k : Nat) (f : Damper → Damper) : (d.onDamper k f).baste = d.baste := rfl
@[simp] theorem dram_onDamper (d : Dev) (k : Nat) (f : Damper → Damper) : (d.onDamper k f).dram = d.dram := rfl
@[simp] theorem bobbin_onDamper (d : Dev) (k : Nat) (f : Damper → Damper) : (d.onDamper k f).bobbin = d.bobbin := rfl
@[simp] theorem thm_onDamper (d : Dev) (k : Nat) (f : Damper → Damper) : (d.onDamper k f).thm = d.thm := rfl
@[simp] theorem images_onDamper (d : Dev) (k : Nat) (f : Damper → Damper) : (d.onDamper k f).images = d.images := rfl
@[simp] theorem power_onDamper (d : Dev) (k : Nat) (f : Damper → Damper) : (d.onDamper k f).power = d.power := rfl
@[simp] theorem chim_onDamper (d : Dev) (k : Nat) (f : Damper → Damper) : (d.onDamper k f).chim = d.chim := rfl
@[simp] theorem ports_onDamper (d : Dev) (k : Nat) (f : Damper → Damper) : (d.onDamper k f).ports = d.ports := rfl
@[simp] theorem patGen_onDamper (d : Dev) (k : Nat) (f : Damper → Damper) : (d.onDamper k f).patGen = d.patGen := rfl
@[simp] theorem eraseAt_onDamper (d : Dev) (k : Nat) (f : Damper → Damper) : (d.onDamper k f).eraseAt = d.eraseAt := rfl
@[simp] theorem free_onDamper (d : Dev) (k : Nat) (f : Damper → Damper) : (d.onDamper k f).free = d.free := rfl
@[simp] theorem out_onDamper (d : Dev) (k : Nat) (f : Damper → Damper) : (d.onDamper k f).out = d.out := rfl
@[simp] theorem damper_onDamper_self (d : Dev) (k : Nat) (f : Damper → Damper) : (d.onDamper k f).damper k = f (d.damper k) := by
  simp [Dev.onDamper, Dev.damper]
theorem damper_onDamper_ne (d : Dev) (k j : Nat) (f : Damper → Damper) (h : j ≠ k) : (d.onDamper k f).damper j = d.damper j := by
  simp [Dev.onDamper, Dev.damper, getD_set_ne _ _ _ _ _ h]

/-! `Dev.onWdt`. -/

@[simp] theorem sys_onWdt (d : Dev) (k : Nat) (f : Wdt → Wdt) : (d.onWdt k f).sys = d.sys := rfl
@[simp] theorem regs_onWdt (d : Dev) (k : Nat) (f : Wdt → Wdt) : (d.onWdt k f).regs = d.regs := rfl
@[simp] theorem commits_onWdt (d : Dev) (k : Nat) (f : Wdt → Wdt) : (d.onWdt k f).commits = d.commits := rfl
@[simp] theorem clock_onWdt (d : Dev) (k : Nat) (f : Wdt → Wdt) : (d.onWdt k f).clock = d.clock := rfl
@[simp] theorem flue_onWdt (d : Dev) (k : Nat) (f : Wdt → Wdt) : (d.onWdt k f).flue = d.flue := rfl
@[simp] theorem dampers_onWdt (d : Dev) (k : Nat) (f : Wdt → Wdt) : (d.onWdt k f).dampers = d.dampers := rfl
@[simp] theorem lanes_onWdt (d : Dev) (k : Nat) (f : Wdt → Wdt) : (d.onWdt k f).lanes = d.lanes := rfl
@[simp] theorem seams_onWdt (d : Dev) (k : Nat) (f : Wdt → Wdt) : (d.onWdt k f).seams = d.seams := rfl
@[simp] theorem laneUnits_onWdt (d : Dev) (k : Nat) (f : Wdt → Wdt) : (d.onWdt k f).laneUnits = d.laneUnits := rfl
@[simp] theorem stoker_onWdt (d : Dev) (k : Nat) (f : Wdt → Wdt) : (d.onWdt k f).stoker = d.stoker := rfl
@[simp] theorem cores_onWdt (d : Dev) (k : Nat) (f : Wdt → Wdt) : (d.onWdt k f).cores = d.cores := rfl
@[simp] theorem hobs_onWdt (d : Dev) (k : Nat) (f : Wdt → Wdt) : (d.onWdt k f).hobs = d.hobs := rfl
@[simp] theorem flips_onWdt (d : Dev) (k : Nat) (f : Wdt → Wdt) : (d.onWdt k f).flips = d.flips := rfl
@[simp] theorem bellows_onWdt (d : Dev) (k : Nat) (f : Wdt → Wdt) : (d.onWdt k f).bellows = d.bellows := rfl
@[simp] theorem baste_onWdt (d : Dev) (k : Nat) (f : Wdt → Wdt) : (d.onWdt k f).baste = d.baste := rfl
@[simp] theorem dram_onWdt (d : Dev) (k : Nat) (f : Wdt → Wdt) : (d.onWdt k f).dram = d.dram := rfl
@[simp] theorem bobbin_onWdt (d : Dev) (k : Nat) (f : Wdt → Wdt) : (d.onWdt k f).bobbin = d.bobbin := rfl
@[simp] theorem thm_onWdt (d : Dev) (k : Nat) (f : Wdt → Wdt) : (d.onWdt k f).thm = d.thm := rfl
@[simp] theorem images_onWdt (d : Dev) (k : Nat) (f : Wdt → Wdt) : (d.onWdt k f).images = d.images := rfl
@[simp] theorem power_onWdt (d : Dev) (k : Nat) (f : Wdt → Wdt) : (d.onWdt k f).power = d.power := rfl
@[simp] theorem chim_onWdt (d : Dev) (k : Nat) (f : Wdt → Wdt) : (d.onWdt k f).chim = d.chim := rfl
@[simp] theorem ports_onWdt (d : Dev) (k : Nat) (f : Wdt → Wdt) : (d.onWdt k f).ports = d.ports := rfl
@[simp] theorem patGen_onWdt (d : Dev) (k : Nat) (f : Wdt → Wdt) : (d.onWdt k f).patGen = d.patGen := rfl
@[simp] theorem eraseAt_onWdt (d : Dev) (k : Nat) (f : Wdt → Wdt) : (d.onWdt k f).eraseAt = d.eraseAt := rfl
@[simp] theorem free_onWdt (d : Dev) (k : Nat) (f : Wdt → Wdt) : (d.onWdt k f).free = d.free := rfl
@[simp] theorem out_onWdt (d : Dev) (k : Nat) (f : Wdt → Wdt) : (d.onWdt k f).out = d.out := rfl
@[simp] theorem wdt_onWdt_self (d : Dev) (k : Nat) (f : Wdt → Wdt) : (d.onWdt k f).wdt k = f (d.wdt k) := by
  simp [Dev.onWdt, Dev.wdt]
theorem wdt_onWdt_ne (d : Dev) (k j : Nat) (f : Wdt → Wdt) (h : j ≠ k) : (d.onWdt k f).wdt j = d.wdt j := by
  simp [Dev.onWdt, Dev.wdt, getD_set_ne _ _ _ _ _ h]

/-! `Dev.onLane`. -/

@[simp] theorem sys_onLane (d : Dev) (k : Nat) (f : Lane → Lane) : (d.onLane k f).sys = d.sys := rfl
@[simp] theorem regs_onLane (d : Dev) (k : Nat) (f : Lane → Lane) : (d.onLane k f).regs = d.regs := rfl
@[simp] theorem commits_onLane (d : Dev) (k : Nat) (f : Lane → Lane) : (d.onLane k f).commits = d.commits := rfl
@[simp] theorem clock_onLane (d : Dev) (k : Nat) (f : Lane → Lane) : (d.onLane k f).clock = d.clock := rfl
@[simp] theorem flue_onLane (d : Dev) (k : Nat) (f : Lane → Lane) : (d.onLane k f).flue = d.flue := rfl
@[simp] theorem dampers_onLane (d : Dev) (k : Nat) (f : Lane → Lane) : (d.onLane k f).dampers = d.dampers := rfl
@[simp] theorem wdts_onLane (d : Dev) (k : Nat) (f : Lane → Lane) : (d.onLane k f).wdts = d.wdts := rfl
@[simp] theorem seams_onLane (d : Dev) (k : Nat) (f : Lane → Lane) : (d.onLane k f).seams = d.seams := rfl
@[simp] theorem laneUnits_onLane (d : Dev) (k : Nat) (f : Lane → Lane) : (d.onLane k f).laneUnits = d.laneUnits := rfl
@[simp] theorem stoker_onLane (d : Dev) (k : Nat) (f : Lane → Lane) : (d.onLane k f).stoker = d.stoker := rfl
@[simp] theorem cores_onLane (d : Dev) (k : Nat) (f : Lane → Lane) : (d.onLane k f).cores = d.cores := rfl
@[simp] theorem hobs_onLane (d : Dev) (k : Nat) (f : Lane → Lane) : (d.onLane k f).hobs = d.hobs := rfl
@[simp] theorem flips_onLane (d : Dev) (k : Nat) (f : Lane → Lane) : (d.onLane k f).flips = d.flips := rfl
@[simp] theorem bellows_onLane (d : Dev) (k : Nat) (f : Lane → Lane) : (d.onLane k f).bellows = d.bellows := rfl
@[simp] theorem baste_onLane (d : Dev) (k : Nat) (f : Lane → Lane) : (d.onLane k f).baste = d.baste := rfl
@[simp] theorem dram_onLane (d : Dev) (k : Nat) (f : Lane → Lane) : (d.onLane k f).dram = d.dram := rfl
@[simp] theorem bobbin_onLane (d : Dev) (k : Nat) (f : Lane → Lane) : (d.onLane k f).bobbin = d.bobbin := rfl
@[simp] theorem thm_onLane (d : Dev) (k : Nat) (f : Lane → Lane) : (d.onLane k f).thm = d.thm := rfl
@[simp] theorem images_onLane (d : Dev) (k : Nat) (f : Lane → Lane) : (d.onLane k f).images = d.images := rfl
@[simp] theorem power_onLane (d : Dev) (k : Nat) (f : Lane → Lane) : (d.onLane k f).power = d.power := rfl
@[simp] theorem chim_onLane (d : Dev) (k : Nat) (f : Lane → Lane) : (d.onLane k f).chim = d.chim := rfl
@[simp] theorem ports_onLane (d : Dev) (k : Nat) (f : Lane → Lane) : (d.onLane k f).ports = d.ports := rfl
@[simp] theorem patGen_onLane (d : Dev) (k : Nat) (f : Lane → Lane) : (d.onLane k f).patGen = d.patGen := rfl
@[simp] theorem eraseAt_onLane (d : Dev) (k : Nat) (f : Lane → Lane) : (d.onLane k f).eraseAt = d.eraseAt := rfl
@[simp] theorem free_onLane (d : Dev) (k : Nat) (f : Lane → Lane) : (d.onLane k f).free = d.free := rfl
@[simp] theorem out_onLane (d : Dev) (k : Nat) (f : Lane → Lane) : (d.onLane k f).out = d.out := rfl
@[simp] theorem lane_onLane_self (d : Dev) (k : Nat) (f : Lane → Lane) : (d.onLane k f).lane k = f (d.lane k) := by
  simp [Dev.onLane, Dev.lane]
theorem lane_onLane_ne (d : Dev) (k j : Nat) (f : Lane → Lane) (h : j ≠ k) : (d.onLane k f).lane j = d.lane j := by
  simp [Dev.onLane, Dev.lane, getD_set_ne _ _ _ _ _ h]

/-! `Dev.onSeam`. -/

@[simp] theorem sys_onSeam (d : Dev) (k : Nat) (f : Seam → Seam) : (d.onSeam k f).sys = d.sys := rfl
@[simp] theorem regs_onSeam (d : Dev) (k : Nat) (f : Seam → Seam) : (d.onSeam k f).regs = d.regs := rfl
@[simp] theorem commits_onSeam (d : Dev) (k : Nat) (f : Seam → Seam) : (d.onSeam k f).commits = d.commits := rfl
@[simp] theorem clock_onSeam (d : Dev) (k : Nat) (f : Seam → Seam) : (d.onSeam k f).clock = d.clock := rfl
@[simp] theorem flue_onSeam (d : Dev) (k : Nat) (f : Seam → Seam) : (d.onSeam k f).flue = d.flue := rfl
@[simp] theorem dampers_onSeam (d : Dev) (k : Nat) (f : Seam → Seam) : (d.onSeam k f).dampers = d.dampers := rfl
@[simp] theorem wdts_onSeam (d : Dev) (k : Nat) (f : Seam → Seam) : (d.onSeam k f).wdts = d.wdts := rfl
@[simp] theorem lanes_onSeam (d : Dev) (k : Nat) (f : Seam → Seam) : (d.onSeam k f).lanes = d.lanes := rfl
@[simp] theorem laneUnits_onSeam (d : Dev) (k : Nat) (f : Seam → Seam) : (d.onSeam k f).laneUnits = d.laneUnits := rfl
@[simp] theorem stoker_onSeam (d : Dev) (k : Nat) (f : Seam → Seam) : (d.onSeam k f).stoker = d.stoker := rfl
@[simp] theorem cores_onSeam (d : Dev) (k : Nat) (f : Seam → Seam) : (d.onSeam k f).cores = d.cores := rfl
@[simp] theorem hobs_onSeam (d : Dev) (k : Nat) (f : Seam → Seam) : (d.onSeam k f).hobs = d.hobs := rfl
@[simp] theorem flips_onSeam (d : Dev) (k : Nat) (f : Seam → Seam) : (d.onSeam k f).flips = d.flips := rfl
@[simp] theorem bellows_onSeam (d : Dev) (k : Nat) (f : Seam → Seam) : (d.onSeam k f).bellows = d.bellows := rfl
@[simp] theorem baste_onSeam (d : Dev) (k : Nat) (f : Seam → Seam) : (d.onSeam k f).baste = d.baste := rfl
@[simp] theorem dram_onSeam (d : Dev) (k : Nat) (f : Seam → Seam) : (d.onSeam k f).dram = d.dram := rfl
@[simp] theorem bobbin_onSeam (d : Dev) (k : Nat) (f : Seam → Seam) : (d.onSeam k f).bobbin = d.bobbin := rfl
@[simp] theorem thm_onSeam (d : Dev) (k : Nat) (f : Seam → Seam) : (d.onSeam k f).thm = d.thm := rfl
@[simp] theorem images_onSeam (d : Dev) (k : Nat) (f : Seam → Seam) : (d.onSeam k f).images = d.images := rfl
@[simp] theorem power_onSeam (d : Dev) (k : Nat) (f : Seam → Seam) : (d.onSeam k f).power = d.power := rfl
@[simp] theorem chim_onSeam (d : Dev) (k : Nat) (f : Seam → Seam) : (d.onSeam k f).chim = d.chim := rfl
@[simp] theorem ports_onSeam (d : Dev) (k : Nat) (f : Seam → Seam) : (d.onSeam k f).ports = d.ports := rfl
@[simp] theorem patGen_onSeam (d : Dev) (k : Nat) (f : Seam → Seam) : (d.onSeam k f).patGen = d.patGen := rfl
@[simp] theorem eraseAt_onSeam (d : Dev) (k : Nat) (f : Seam → Seam) : (d.onSeam k f).eraseAt = d.eraseAt := rfl
@[simp] theorem free_onSeam (d : Dev) (k : Nat) (f : Seam → Seam) : (d.onSeam k f).free = d.free := rfl
@[simp] theorem out_onSeam (d : Dev) (k : Nat) (f : Seam → Seam) : (d.onSeam k f).out = d.out := rfl
@[simp] theorem seam_onSeam_self (d : Dev) (k : Nat) (f : Seam → Seam) : (d.onSeam k f).seam k = f (d.seam k) := by
  simp [Dev.onSeam, Dev.seam]
theorem seam_onSeam_ne (d : Dev) (k j : Nat) (f : Seam → Seam) (h : j ≠ k) : (d.onSeam k f).seam j = d.seam j := by
  simp [Dev.onSeam, Dev.seam, getD_set_ne _ _ _ _ _ h]

/-! `Dev.onLaneUnit`. -/

@[simp] theorem sys_onLaneUnit (d : Dev) (k : Nat) (f : LaneUnit → LaneUnit) : (d.onLaneUnit k f).sys = d.sys := rfl
@[simp] theorem regs_onLaneUnit (d : Dev) (k : Nat) (f : LaneUnit → LaneUnit) : (d.onLaneUnit k f).regs = d.regs := rfl
@[simp] theorem commits_onLaneUnit (d : Dev) (k : Nat) (f : LaneUnit → LaneUnit) : (d.onLaneUnit k f).commits = d.commits := rfl
@[simp] theorem clock_onLaneUnit (d : Dev) (k : Nat) (f : LaneUnit → LaneUnit) : (d.onLaneUnit k f).clock = d.clock := rfl
@[simp] theorem flue_onLaneUnit (d : Dev) (k : Nat) (f : LaneUnit → LaneUnit) : (d.onLaneUnit k f).flue = d.flue := rfl
@[simp] theorem dampers_onLaneUnit (d : Dev) (k : Nat) (f : LaneUnit → LaneUnit) : (d.onLaneUnit k f).dampers = d.dampers := rfl
@[simp] theorem wdts_onLaneUnit (d : Dev) (k : Nat) (f : LaneUnit → LaneUnit) : (d.onLaneUnit k f).wdts = d.wdts := rfl
@[simp] theorem lanes_onLaneUnit (d : Dev) (k : Nat) (f : LaneUnit → LaneUnit) : (d.onLaneUnit k f).lanes = d.lanes := rfl
@[simp] theorem seams_onLaneUnit (d : Dev) (k : Nat) (f : LaneUnit → LaneUnit) : (d.onLaneUnit k f).seams = d.seams := rfl
@[simp] theorem stoker_onLaneUnit (d : Dev) (k : Nat) (f : LaneUnit → LaneUnit) : (d.onLaneUnit k f).stoker = d.stoker := rfl
@[simp] theorem cores_onLaneUnit (d : Dev) (k : Nat) (f : LaneUnit → LaneUnit) : (d.onLaneUnit k f).cores = d.cores := rfl
@[simp] theorem hobs_onLaneUnit (d : Dev) (k : Nat) (f : LaneUnit → LaneUnit) : (d.onLaneUnit k f).hobs = d.hobs := rfl
@[simp] theorem flips_onLaneUnit (d : Dev) (k : Nat) (f : LaneUnit → LaneUnit) : (d.onLaneUnit k f).flips = d.flips := rfl
@[simp] theorem bellows_onLaneUnit (d : Dev) (k : Nat) (f : LaneUnit → LaneUnit) : (d.onLaneUnit k f).bellows = d.bellows := rfl
@[simp] theorem baste_onLaneUnit (d : Dev) (k : Nat) (f : LaneUnit → LaneUnit) : (d.onLaneUnit k f).baste = d.baste := rfl
@[simp] theorem dram_onLaneUnit (d : Dev) (k : Nat) (f : LaneUnit → LaneUnit) : (d.onLaneUnit k f).dram = d.dram := rfl
@[simp] theorem bobbin_onLaneUnit (d : Dev) (k : Nat) (f : LaneUnit → LaneUnit) : (d.onLaneUnit k f).bobbin = d.bobbin := rfl
@[simp] theorem thm_onLaneUnit (d : Dev) (k : Nat) (f : LaneUnit → LaneUnit) : (d.onLaneUnit k f).thm = d.thm := rfl
@[simp] theorem images_onLaneUnit (d : Dev) (k : Nat) (f : LaneUnit → LaneUnit) : (d.onLaneUnit k f).images = d.images := rfl
@[simp] theorem power_onLaneUnit (d : Dev) (k : Nat) (f : LaneUnit → LaneUnit) : (d.onLaneUnit k f).power = d.power := rfl
@[simp] theorem chim_onLaneUnit (d : Dev) (k : Nat) (f : LaneUnit → LaneUnit) : (d.onLaneUnit k f).chim = d.chim := rfl
@[simp] theorem ports_onLaneUnit (d : Dev) (k : Nat) (f : LaneUnit → LaneUnit) : (d.onLaneUnit k f).ports = d.ports := rfl
@[simp] theorem patGen_onLaneUnit (d : Dev) (k : Nat) (f : LaneUnit → LaneUnit) : (d.onLaneUnit k f).patGen = d.patGen := rfl
@[simp] theorem eraseAt_onLaneUnit (d : Dev) (k : Nat) (f : LaneUnit → LaneUnit) : (d.onLaneUnit k f).eraseAt = d.eraseAt := rfl
@[simp] theorem free_onLaneUnit (d : Dev) (k : Nat) (f : LaneUnit → LaneUnit) : (d.onLaneUnit k f).free = d.free := rfl
@[simp] theorem out_onLaneUnit (d : Dev) (k : Nat) (f : LaneUnit → LaneUnit) : (d.onLaneUnit k f).out = d.out := rfl
@[simp] theorem laneUnit_onLaneUnit_self (d : Dev) (k : Nat) (f : LaneUnit → LaneUnit) : (d.onLaneUnit k f).laneUnit k = f (d.laneUnit k) := by
  simp [Dev.onLaneUnit, Dev.laneUnit]
theorem laneUnit_onLaneUnit_ne (d : Dev) (k j : Nat) (f : LaneUnit → LaneUnit) (h : j ≠ k) : (d.onLaneUnit k f).laneUnit j = d.laneUnit j := by
  simp [Dev.onLaneUnit, Dev.laneUnit, getD_set_ne _ _ _ _ _ h]

/-! `Dev.onCore`. -/

@[simp] theorem sys_onCore (d : Dev) (k : Nat) (f : Core → Core) : (d.onCore k f).sys = d.sys := rfl
@[simp] theorem regs_onCore (d : Dev) (k : Nat) (f : Core → Core) : (d.onCore k f).regs = d.regs := rfl
@[simp] theorem commits_onCore (d : Dev) (k : Nat) (f : Core → Core) : (d.onCore k f).commits = d.commits := rfl
@[simp] theorem clock_onCore (d : Dev) (k : Nat) (f : Core → Core) : (d.onCore k f).clock = d.clock := rfl
@[simp] theorem flue_onCore (d : Dev) (k : Nat) (f : Core → Core) : (d.onCore k f).flue = d.flue := rfl
@[simp] theorem dampers_onCore (d : Dev) (k : Nat) (f : Core → Core) : (d.onCore k f).dampers = d.dampers := rfl
@[simp] theorem wdts_onCore (d : Dev) (k : Nat) (f : Core → Core) : (d.onCore k f).wdts = d.wdts := rfl
@[simp] theorem lanes_onCore (d : Dev) (k : Nat) (f : Core → Core) : (d.onCore k f).lanes = d.lanes := rfl
@[simp] theorem seams_onCore (d : Dev) (k : Nat) (f : Core → Core) : (d.onCore k f).seams = d.seams := rfl
@[simp] theorem laneUnits_onCore (d : Dev) (k : Nat) (f : Core → Core) : (d.onCore k f).laneUnits = d.laneUnits := rfl
@[simp] theorem stoker_onCore (d : Dev) (k : Nat) (f : Core → Core) : (d.onCore k f).stoker = d.stoker := rfl
@[simp] theorem hobs_onCore (d : Dev) (k : Nat) (f : Core → Core) : (d.onCore k f).hobs = d.hobs := rfl
@[simp] theorem flips_onCore (d : Dev) (k : Nat) (f : Core → Core) : (d.onCore k f).flips = d.flips := rfl
@[simp] theorem bellows_onCore (d : Dev) (k : Nat) (f : Core → Core) : (d.onCore k f).bellows = d.bellows := rfl
@[simp] theorem baste_onCore (d : Dev) (k : Nat) (f : Core → Core) : (d.onCore k f).baste = d.baste := rfl
@[simp] theorem dram_onCore (d : Dev) (k : Nat) (f : Core → Core) : (d.onCore k f).dram = d.dram := rfl
@[simp] theorem bobbin_onCore (d : Dev) (k : Nat) (f : Core → Core) : (d.onCore k f).bobbin = d.bobbin := rfl
@[simp] theorem thm_onCore (d : Dev) (k : Nat) (f : Core → Core) : (d.onCore k f).thm = d.thm := rfl
@[simp] theorem images_onCore (d : Dev) (k : Nat) (f : Core → Core) : (d.onCore k f).images = d.images := rfl
@[simp] theorem power_onCore (d : Dev) (k : Nat) (f : Core → Core) : (d.onCore k f).power = d.power := rfl
@[simp] theorem chim_onCore (d : Dev) (k : Nat) (f : Core → Core) : (d.onCore k f).chim = d.chim := rfl
@[simp] theorem ports_onCore (d : Dev) (k : Nat) (f : Core → Core) : (d.onCore k f).ports = d.ports := rfl
@[simp] theorem patGen_onCore (d : Dev) (k : Nat) (f : Core → Core) : (d.onCore k f).patGen = d.patGen := rfl
@[simp] theorem eraseAt_onCore (d : Dev) (k : Nat) (f : Core → Core) : (d.onCore k f).eraseAt = d.eraseAt := rfl
@[simp] theorem free_onCore (d : Dev) (k : Nat) (f : Core → Core) : (d.onCore k f).free = d.free := rfl
@[simp] theorem out_onCore (d : Dev) (k : Nat) (f : Core → Core) : (d.onCore k f).out = d.out := rfl

/-! `Dev.onHob`. -/

@[simp] theorem sys_onHob (d : Dev) (k : Nat) (f : Hob → Hob) : (d.onHob k f).sys = d.sys := rfl
@[simp] theorem regs_onHob (d : Dev) (k : Nat) (f : Hob → Hob) : (d.onHob k f).regs = d.regs := rfl
@[simp] theorem commits_onHob (d : Dev) (k : Nat) (f : Hob → Hob) : (d.onHob k f).commits = d.commits := rfl
@[simp] theorem clock_onHob (d : Dev) (k : Nat) (f : Hob → Hob) : (d.onHob k f).clock = d.clock := rfl
@[simp] theorem flue_onHob (d : Dev) (k : Nat) (f : Hob → Hob) : (d.onHob k f).flue = d.flue := rfl
@[simp] theorem dampers_onHob (d : Dev) (k : Nat) (f : Hob → Hob) : (d.onHob k f).dampers = d.dampers := rfl
@[simp] theorem wdts_onHob (d : Dev) (k : Nat) (f : Hob → Hob) : (d.onHob k f).wdts = d.wdts := rfl
@[simp] theorem lanes_onHob (d : Dev) (k : Nat) (f : Hob → Hob) : (d.onHob k f).lanes = d.lanes := rfl
@[simp] theorem seams_onHob (d : Dev) (k : Nat) (f : Hob → Hob) : (d.onHob k f).seams = d.seams := rfl
@[simp] theorem laneUnits_onHob (d : Dev) (k : Nat) (f : Hob → Hob) : (d.onHob k f).laneUnits = d.laneUnits := rfl
@[simp] theorem stoker_onHob (d : Dev) (k : Nat) (f : Hob → Hob) : (d.onHob k f).stoker = d.stoker := rfl
@[simp] theorem cores_onHob (d : Dev) (k : Nat) (f : Hob → Hob) : (d.onHob k f).cores = d.cores := rfl
@[simp] theorem flips_onHob (d : Dev) (k : Nat) (f : Hob → Hob) : (d.onHob k f).flips = d.flips := rfl
@[simp] theorem bellows_onHob (d : Dev) (k : Nat) (f : Hob → Hob) : (d.onHob k f).bellows = d.bellows := rfl
@[simp] theorem baste_onHob (d : Dev) (k : Nat) (f : Hob → Hob) : (d.onHob k f).baste = d.baste := rfl
@[simp] theorem dram_onHob (d : Dev) (k : Nat) (f : Hob → Hob) : (d.onHob k f).dram = d.dram := rfl
@[simp] theorem bobbin_onHob (d : Dev) (k : Nat) (f : Hob → Hob) : (d.onHob k f).bobbin = d.bobbin := rfl
@[simp] theorem thm_onHob (d : Dev) (k : Nat) (f : Hob → Hob) : (d.onHob k f).thm = d.thm := rfl
@[simp] theorem images_onHob (d : Dev) (k : Nat) (f : Hob → Hob) : (d.onHob k f).images = d.images := rfl
@[simp] theorem power_onHob (d : Dev) (k : Nat) (f : Hob → Hob) : (d.onHob k f).power = d.power := rfl
@[simp] theorem chim_onHob (d : Dev) (k : Nat) (f : Hob → Hob) : (d.onHob k f).chim = d.chim := rfl
@[simp] theorem ports_onHob (d : Dev) (k : Nat) (f : Hob → Hob) : (d.onHob k f).ports = d.ports := rfl
@[simp] theorem patGen_onHob (d : Dev) (k : Nat) (f : Hob → Hob) : (d.onHob k f).patGen = d.patGen := rfl
@[simp] theorem eraseAt_onHob (d : Dev) (k : Nat) (f : Hob → Hob) : (d.onHob k f).eraseAt = d.eraseAt := rfl
@[simp] theorem free_onHob (d : Dev) (k : Nat) (f : Hob → Hob) : (d.onHob k f).free = d.free := rfl
@[simp] theorem out_onHob (d : Dev) (k : Nat) (f : Hob → Hob) : (d.onHob k f).out = d.out := rfl
@[simp] theorem hob_onHob_self (d : Dev) (k : Nat) (f : Hob → Hob) : (d.onHob k f).hob k = f (d.hob k) := by
  simp [Dev.onHob, Dev.hob]
theorem hob_onHob_ne (d : Dev) (k j : Nat) (f : Hob → Hob) (h : j ≠ k) : (d.onHob k f).hob j = d.hob j := by
  simp [Dev.onHob, Dev.hob, getD_set_ne _ _ _ _ _ h]

/-! `Dev.onBlw`. -/

@[simp] theorem sys_onBlw (d : Dev) (k : Nat) (f : Bellows → Bellows) : (d.onBlw k f).sys = d.sys := rfl
@[simp] theorem regs_onBlw (d : Dev) (k : Nat) (f : Bellows → Bellows) : (d.onBlw k f).regs = d.regs := rfl
@[simp] theorem commits_onBlw (d : Dev) (k : Nat) (f : Bellows → Bellows) : (d.onBlw k f).commits = d.commits := rfl
@[simp] theorem clock_onBlw (d : Dev) (k : Nat) (f : Bellows → Bellows) : (d.onBlw k f).clock = d.clock := rfl
@[simp] theorem flue_onBlw (d : Dev) (k : Nat) (f : Bellows → Bellows) : (d.onBlw k f).flue = d.flue := rfl
@[simp] theorem dampers_onBlw (d : Dev) (k : Nat) (f : Bellows → Bellows) : (d.onBlw k f).dampers = d.dampers := rfl
@[simp] theorem wdts_onBlw (d : Dev) (k : Nat) (f : Bellows → Bellows) : (d.onBlw k f).wdts = d.wdts := rfl
@[simp] theorem lanes_onBlw (d : Dev) (k : Nat) (f : Bellows → Bellows) : (d.onBlw k f).lanes = d.lanes := rfl
@[simp] theorem seams_onBlw (d : Dev) (k : Nat) (f : Bellows → Bellows) : (d.onBlw k f).seams = d.seams := rfl
@[simp] theorem laneUnits_onBlw (d : Dev) (k : Nat) (f : Bellows → Bellows) : (d.onBlw k f).laneUnits = d.laneUnits := rfl
@[simp] theorem stoker_onBlw (d : Dev) (k : Nat) (f : Bellows → Bellows) : (d.onBlw k f).stoker = d.stoker := rfl
@[simp] theorem cores_onBlw (d : Dev) (k : Nat) (f : Bellows → Bellows) : (d.onBlw k f).cores = d.cores := rfl
@[simp] theorem hobs_onBlw (d : Dev) (k : Nat) (f : Bellows → Bellows) : (d.onBlw k f).hobs = d.hobs := rfl
@[simp] theorem flips_onBlw (d : Dev) (k : Nat) (f : Bellows → Bellows) : (d.onBlw k f).flips = d.flips := rfl
@[simp] theorem baste_onBlw (d : Dev) (k : Nat) (f : Bellows → Bellows) : (d.onBlw k f).baste = d.baste := rfl
@[simp] theorem dram_onBlw (d : Dev) (k : Nat) (f : Bellows → Bellows) : (d.onBlw k f).dram = d.dram := rfl
@[simp] theorem bobbin_onBlw (d : Dev) (k : Nat) (f : Bellows → Bellows) : (d.onBlw k f).bobbin = d.bobbin := rfl
@[simp] theorem thm_onBlw (d : Dev) (k : Nat) (f : Bellows → Bellows) : (d.onBlw k f).thm = d.thm := rfl
@[simp] theorem images_onBlw (d : Dev) (k : Nat) (f : Bellows → Bellows) : (d.onBlw k f).images = d.images := rfl
@[simp] theorem power_onBlw (d : Dev) (k : Nat) (f : Bellows → Bellows) : (d.onBlw k f).power = d.power := rfl
@[simp] theorem chim_onBlw (d : Dev) (k : Nat) (f : Bellows → Bellows) : (d.onBlw k f).chim = d.chim := rfl
@[simp] theorem ports_onBlw (d : Dev) (k : Nat) (f : Bellows → Bellows) : (d.onBlw k f).ports = d.ports := rfl
@[simp] theorem patGen_onBlw (d : Dev) (k : Nat) (f : Bellows → Bellows) : (d.onBlw k f).patGen = d.patGen := rfl
@[simp] theorem eraseAt_onBlw (d : Dev) (k : Nat) (f : Bellows → Bellows) : (d.onBlw k f).eraseAt = d.eraseAt := rfl
@[simp] theorem free_onBlw (d : Dev) (k : Nat) (f : Bellows → Bellows) : (d.onBlw k f).free = d.free := rfl
@[simp] theorem out_onBlw (d : Dev) (k : Nat) (f : Bellows → Bellows) : (d.onBlw k f).out = d.out := rfl
@[simp] theorem blw_onBlw_self (d : Dev) (k : Nat) (f : Bellows → Bellows) : (d.onBlw k f).blw k = f (d.blw k) := by
  simp [Dev.onBlw, Dev.blw]
theorem blw_onBlw_ne (d : Dev) (k j : Nat) (f : Bellows → Bellows) (h : j ≠ k) : (d.onBlw k f).blw j = d.blw j := by
  simp [Dev.onBlw, Dev.blw, getD_set_ne _ _ _ _ _ h]

/-! `Dev.onCommit`. -/

@[simp] theorem sys_onCommit (d : Dev) (k : Nat) (f : Commit → Commit) : (d.onCommit k f).sys = d.sys := rfl
@[simp] theorem regs_onCommit (d : Dev) (k : Nat) (f : Commit → Commit) : (d.onCommit k f).regs = d.regs := rfl
@[simp] theorem clock_onCommit (d : Dev) (k : Nat) (f : Commit → Commit) : (d.onCommit k f).clock = d.clock := rfl
@[simp] theorem flue_onCommit (d : Dev) (k : Nat) (f : Commit → Commit) : (d.onCommit k f).flue = d.flue := rfl
@[simp] theorem dampers_onCommit (d : Dev) (k : Nat) (f : Commit → Commit) : (d.onCommit k f).dampers = d.dampers := rfl
@[simp] theorem wdts_onCommit (d : Dev) (k : Nat) (f : Commit → Commit) : (d.onCommit k f).wdts = d.wdts := rfl
@[simp] theorem lanes_onCommit (d : Dev) (k : Nat) (f : Commit → Commit) : (d.onCommit k f).lanes = d.lanes := rfl
@[simp] theorem seams_onCommit (d : Dev) (k : Nat) (f : Commit → Commit) : (d.onCommit k f).seams = d.seams := rfl
@[simp] theorem laneUnits_onCommit (d : Dev) (k : Nat) (f : Commit → Commit) : (d.onCommit k f).laneUnits = d.laneUnits := rfl
@[simp] theorem stoker_onCommit (d : Dev) (k : Nat) (f : Commit → Commit) : (d.onCommit k f).stoker = d.stoker := rfl
@[simp] theorem cores_onCommit (d : Dev) (k : Nat) (f : Commit → Commit) : (d.onCommit k f).cores = d.cores := rfl
@[simp] theorem hobs_onCommit (d : Dev) (k : Nat) (f : Commit → Commit) : (d.onCommit k f).hobs = d.hobs := rfl
@[simp] theorem flips_onCommit (d : Dev) (k : Nat) (f : Commit → Commit) : (d.onCommit k f).flips = d.flips := rfl
@[simp] theorem bellows_onCommit (d : Dev) (k : Nat) (f : Commit → Commit) : (d.onCommit k f).bellows = d.bellows := rfl
@[simp] theorem baste_onCommit (d : Dev) (k : Nat) (f : Commit → Commit) : (d.onCommit k f).baste = d.baste := rfl
@[simp] theorem dram_onCommit (d : Dev) (k : Nat) (f : Commit → Commit) : (d.onCommit k f).dram = d.dram := rfl
@[simp] theorem bobbin_onCommit (d : Dev) (k : Nat) (f : Commit → Commit) : (d.onCommit k f).bobbin = d.bobbin := rfl
@[simp] theorem thm_onCommit (d : Dev) (k : Nat) (f : Commit → Commit) : (d.onCommit k f).thm = d.thm := rfl
@[simp] theorem images_onCommit (d : Dev) (k : Nat) (f : Commit → Commit) : (d.onCommit k f).images = d.images := rfl
@[simp] theorem power_onCommit (d : Dev) (k : Nat) (f : Commit → Commit) : (d.onCommit k f).power = d.power := rfl
@[simp] theorem chim_onCommit (d : Dev) (k : Nat) (f : Commit → Commit) : (d.onCommit k f).chim = d.chim := rfl
@[simp] theorem ports_onCommit (d : Dev) (k : Nat) (f : Commit → Commit) : (d.onCommit k f).ports = d.ports := rfl
@[simp] theorem patGen_onCommit (d : Dev) (k : Nat) (f : Commit → Commit) : (d.onCommit k f).patGen = d.patGen := rfl
@[simp] theorem eraseAt_onCommit (d : Dev) (k : Nat) (f : Commit → Commit) : (d.onCommit k f).eraseAt = d.eraseAt := rfl
@[simp] theorem free_onCommit (d : Dev) (k : Nat) (f : Commit → Commit) : (d.onCommit k f).free = d.free := rfl
@[simp] theorem out_onCommit (d : Dev) (k : Nat) (f : Commit → Commit) : (d.onCommit k f).out = d.out := rfl
@[simp] theorem commit_onCommit_self (d : Dev) (k : Nat) (f : Commit → Commit) : (d.onCommit k f).commit k = f (d.commit k) := by
  simp [Dev.onCommit, Dev.commit]
theorem commit_onCommit_ne (d : Dev) (k j : Nat) (f : Commit → Commit) (h : j ≠ k) : (d.onCommit k f).commit j = d.commit j := by
  simp [Dev.onCommit, Dev.commit, getD_set_ne _ _ _ _ _ h]

/-! `Dev.onBu`. -/

@[simp] theorem sys_onBu (d : Dev) (k : Nat) (f : BasteUnit → BasteUnit) : (d.onBu k f).sys = d.sys := rfl
@[simp] theorem regs_onBu (d : Dev) (k : Nat) (f : BasteUnit → BasteUnit) : (d.onBu k f).regs = d.regs := rfl
@[simp] theorem commits_onBu (d : Dev) (k : Nat) (f : BasteUnit → BasteUnit) : (d.onBu k f).commits = d.commits := rfl
@[simp] theorem clock_onBu (d : Dev) (k : Nat) (f : BasteUnit → BasteUnit) : (d.onBu k f).clock = d.clock := rfl
@[simp] theorem flue_onBu (d : Dev) (k : Nat) (f : BasteUnit → BasteUnit) : (d.onBu k f).flue = d.flue := rfl
@[simp] theorem dampers_onBu (d : Dev) (k : Nat) (f : BasteUnit → BasteUnit) : (d.onBu k f).dampers = d.dampers := rfl
@[simp] theorem wdts_onBu (d : Dev) (k : Nat) (f : BasteUnit → BasteUnit) : (d.onBu k f).wdts = d.wdts := rfl
@[simp] theorem lanes_onBu (d : Dev) (k : Nat) (f : BasteUnit → BasteUnit) : (d.onBu k f).lanes = d.lanes := rfl
@[simp] theorem seams_onBu (d : Dev) (k : Nat) (f : BasteUnit → BasteUnit) : (d.onBu k f).seams = d.seams := rfl
@[simp] theorem laneUnits_onBu (d : Dev) (k : Nat) (f : BasteUnit → BasteUnit) : (d.onBu k f).laneUnits = d.laneUnits := rfl
@[simp] theorem stoker_onBu (d : Dev) (k : Nat) (f : BasteUnit → BasteUnit) : (d.onBu k f).stoker = d.stoker := rfl
@[simp] theorem cores_onBu (d : Dev) (k : Nat) (f : BasteUnit → BasteUnit) : (d.onBu k f).cores = d.cores := rfl
@[simp] theorem hobs_onBu (d : Dev) (k : Nat) (f : BasteUnit → BasteUnit) : (d.onBu k f).hobs = d.hobs := rfl
@[simp] theorem flips_onBu (d : Dev) (k : Nat) (f : BasteUnit → BasteUnit) : (d.onBu k f).flips = d.flips := rfl
@[simp] theorem bellows_onBu (d : Dev) (k : Nat) (f : BasteUnit → BasteUnit) : (d.onBu k f).bellows = d.bellows := rfl
@[simp] theorem dram_onBu (d : Dev) (k : Nat) (f : BasteUnit → BasteUnit) : (d.onBu k f).dram = d.dram := rfl
@[simp] theorem bobbin_onBu (d : Dev) (k : Nat) (f : BasteUnit → BasteUnit) : (d.onBu k f).bobbin = d.bobbin := rfl
@[simp] theorem thm_onBu (d : Dev) (k : Nat) (f : BasteUnit → BasteUnit) : (d.onBu k f).thm = d.thm := rfl
@[simp] theorem images_onBu (d : Dev) (k : Nat) (f : BasteUnit → BasteUnit) : (d.onBu k f).images = d.images := rfl
@[simp] theorem power_onBu (d : Dev) (k : Nat) (f : BasteUnit → BasteUnit) : (d.onBu k f).power = d.power := rfl
@[simp] theorem chim_onBu (d : Dev) (k : Nat) (f : BasteUnit → BasteUnit) : (d.onBu k f).chim = d.chim := rfl
@[simp] theorem ports_onBu (d : Dev) (k : Nat) (f : BasteUnit → BasteUnit) : (d.onBu k f).ports = d.ports := rfl
@[simp] theorem patGen_onBu (d : Dev) (k : Nat) (f : BasteUnit → BasteUnit) : (d.onBu k f).patGen = d.patGen := rfl
@[simp] theorem eraseAt_onBu (d : Dev) (k : Nat) (f : BasteUnit → BasteUnit) : (d.onBu k f).eraseAt = d.eraseAt := rfl
@[simp] theorem free_onBu (d : Dev) (k : Nat) (f : BasteUnit → BasteUnit) : (d.onBu k f).free = d.free := rfl
@[simp] theorem out_onBu (d : Dev) (k : Nat) (f : BasteUnit → BasteUnit) : (d.onBu k f).out = d.out := rfl
@[simp] theorem baste_time_onBu (d : Dev) (k : Nat) (f : BasteUnit → BasteUnit) :
    (d.onBu k f).baste.time = d.baste.time := rfl
@[simp] theorem baste_scanHold_onBu (d : Dev) (k : Nat) (f : BasteUnit → BasteUnit) :
    (d.onBu k f).baste.scanHold = d.baste.scanHold := rfl
@[simp] theorem baste_results_onBu (d : Dev) (k : Nat) (f : BasteUnit → BasteUnit) :
    (d.onBu k f).baste.results = d.baste.results := rfl
@[simp] theorem baste_rseq_onBu (d : Dev) (k : Nat) (f : BasteUnit → BasteUnit) :
    (d.onBu k f).baste.rseq = d.baste.rseq := rfl
@[simp] theorem baste_scanOpen_onBu (d : Dev) (k : Nat) (f : BasteUnit → BasteUnit) :
    (d.onBu k f).baste.scanOpen = d.baste.scanOpen := rfl
@[simp] theorem baste_pathOff_onBu (d : Dev) (k : Nat) (f : BasteUnit → BasteUnit) :
    (d.onBu k f).baste.pathOff = d.baste.pathOff := rfl
@[simp] theorem baste_zeroised_onBu (d : Dev) (k : Nat) (f : BasteUnit → BasteUnit) :
    (d.onBu k f).baste.zeroised = d.baste.zeroised := rfl
@[simp] theorem bu_onBu_self (d : Dev) (k : Nat) (f : BasteUnit → BasteUnit) : (d.onBu k f).bu k = f (d.bu k) := by
  simp [Dev.onBu, Dev.bu]
theorem bu_onBu_ne (d : Dev) (k j : Nat) (f : BasteUnit → BasteUnit) (h : j ≠ k) : (d.onBu k f).bu j = d.bu j := by
  simp [Dev.onBu, Dev.bu, getD_set_ne _ _ _ _ _ h]

/-! `Dev.onChan`. -/

@[simp] theorem sys_onChan (d : Dev) (k : Nat) (f : MemChan → MemChan) : (d.onChan k f).sys = d.sys := rfl
@[simp] theorem regs_onChan (d : Dev) (k : Nat) (f : MemChan → MemChan) : (d.onChan k f).regs = d.regs := rfl
@[simp] theorem commits_onChan (d : Dev) (k : Nat) (f : MemChan → MemChan) : (d.onChan k f).commits = d.commits := rfl
@[simp] theorem clock_onChan (d : Dev) (k : Nat) (f : MemChan → MemChan) : (d.onChan k f).clock = d.clock := rfl
@[simp] theorem flue_onChan (d : Dev) (k : Nat) (f : MemChan → MemChan) : (d.onChan k f).flue = d.flue := rfl
@[simp] theorem dampers_onChan (d : Dev) (k : Nat) (f : MemChan → MemChan) : (d.onChan k f).dampers = d.dampers := rfl
@[simp] theorem wdts_onChan (d : Dev) (k : Nat) (f : MemChan → MemChan) : (d.onChan k f).wdts = d.wdts := rfl
@[simp] theorem lanes_onChan (d : Dev) (k : Nat) (f : MemChan → MemChan) : (d.onChan k f).lanes = d.lanes := rfl
@[simp] theorem seams_onChan (d : Dev) (k : Nat) (f : MemChan → MemChan) : (d.onChan k f).seams = d.seams := rfl
@[simp] theorem laneUnits_onChan (d : Dev) (k : Nat) (f : MemChan → MemChan) : (d.onChan k f).laneUnits = d.laneUnits := rfl
@[simp] theorem stoker_onChan (d : Dev) (k : Nat) (f : MemChan → MemChan) : (d.onChan k f).stoker = d.stoker := rfl
@[simp] theorem cores_onChan (d : Dev) (k : Nat) (f : MemChan → MemChan) : (d.onChan k f).cores = d.cores := rfl
@[simp] theorem hobs_onChan (d : Dev) (k : Nat) (f : MemChan → MemChan) : (d.onChan k f).hobs = d.hobs := rfl
@[simp] theorem flips_onChan (d : Dev) (k : Nat) (f : MemChan → MemChan) : (d.onChan k f).flips = d.flips := rfl
@[simp] theorem bellows_onChan (d : Dev) (k : Nat) (f : MemChan → MemChan) : (d.onChan k f).bellows = d.bellows := rfl
@[simp] theorem baste_onChan (d : Dev) (k : Nat) (f : MemChan → MemChan) : (d.onChan k f).baste = d.baste := rfl
@[simp] theorem bobbin_onChan (d : Dev) (k : Nat) (f : MemChan → MemChan) : (d.onChan k f).bobbin = d.bobbin := rfl
@[simp] theorem thm_onChan (d : Dev) (k : Nat) (f : MemChan → MemChan) : (d.onChan k f).thm = d.thm := rfl
@[simp] theorem images_onChan (d : Dev) (k : Nat) (f : MemChan → MemChan) : (d.onChan k f).images = d.images := rfl
@[simp] theorem power_onChan (d : Dev) (k : Nat) (f : MemChan → MemChan) : (d.onChan k f).power = d.power := rfl
@[simp] theorem chim_onChan (d : Dev) (k : Nat) (f : MemChan → MemChan) : (d.onChan k f).chim = d.chim := rfl
@[simp] theorem ports_onChan (d : Dev) (k : Nat) (f : MemChan → MemChan) : (d.onChan k f).ports = d.ports := rfl
@[simp] theorem patGen_onChan (d : Dev) (k : Nat) (f : MemChan → MemChan) : (d.onChan k f).patGen = d.patGen := rfl
@[simp] theorem eraseAt_onChan (d : Dev) (k : Nat) (f : MemChan → MemChan) : (d.onChan k f).eraseAt = d.eraseAt := rfl
@[simp] theorem free_onChan (d : Dev) (k : Nat) (f : MemChan → MemChan) : (d.onChan k f).free = d.free := rfl
@[simp] theorem out_onChan (d : Dev) (k : Nat) (f : MemChan → MemChan) : (d.onChan k f).out = d.out := rfl
@[simp] theorem dram_blocks_onChan (d : Dev) (k : Nat) (f : MemChan → MemChan) :
    (d.onChan k f).dram.blocks = d.dram.blocks := rfl
@[simp] theorem dram_retired_onChan (d : Dev) (k : Nat) (f : MemChan → MemChan) :
    (d.onChan k f).dram.retired = d.dram.retired := rfl
@[simp] theorem dram_job_onChan (d : Dev) (k : Nat) (f : MemChan → MemChan) :
    (d.onChan k f).dram.job = d.dram.job := rfl
@[simp] theorem dram_scrubbed_onChan (d : Dev) (k : Nat) (f : MemChan → MemChan) :
    (d.onChan k f).dram.scrubbed = d.dram.scrubbed := rfl
@[simp] theorem dram_born_onChan (d : Dev) (k : Nat) (f : MemChan → MemChan) :
    (d.onChan k f).dram.born = d.dram.born := rfl
@[simp] theorem dram_wbacks_onChan (d : Dev) (k : Nat) (f : MemChan → MemChan) :
    (d.onChan k f).dram.wbacks = d.dram.wbacks := rfl
@[simp] theorem dram_ringFilled_onChan (d : Dev) (k : Nat) (f : MemChan → MemChan) :
    (d.onChan k f).dram.ringFilled = d.dram.ringFilled := rfl
@[simp] theorem chan_onChan_self (d : Dev) (k : Nat) (f : MemChan → MemChan) : (d.onChan k f).chan k = f (d.chan k) := by
  simp [Dev.onChan, Dev.chan]
theorem chan_onChan_ne (d : Dev) (k j : Nat) (f : MemChan → MemChan) (h : j ≠ k) : (d.onChan k f).chan j = d.chan j := by
  simp [Dev.onChan, Dev.chan, getD_set_ne _ _ _ _ _ h]

/-! `Dev.onQueue`. -/

@[simp] theorem sys_onQueue (d : Dev) (k : Nat) (f : Queue → Queue) : (d.onQueue k f).sys = d.sys := rfl
@[simp] theorem regs_onQueue (d : Dev) (k : Nat) (f : Queue → Queue) : (d.onQueue k f).regs = d.regs := rfl
@[simp] theorem commits_onQueue (d : Dev) (k : Nat) (f : Queue → Queue) : (d.onQueue k f).commits = d.commits := rfl
@[simp] theorem clock_onQueue (d : Dev) (k : Nat) (f : Queue → Queue) : (d.onQueue k f).clock = d.clock := rfl
@[simp] theorem flue_onQueue (d : Dev) (k : Nat) (f : Queue → Queue) : (d.onQueue k f).flue = d.flue := rfl
@[simp] theorem dampers_onQueue (d : Dev) (k : Nat) (f : Queue → Queue) : (d.onQueue k f).dampers = d.dampers := rfl
@[simp] theorem wdts_onQueue (d : Dev) (k : Nat) (f : Queue → Queue) : (d.onQueue k f).wdts = d.wdts := rfl
@[simp] theorem lanes_onQueue (d : Dev) (k : Nat) (f : Queue → Queue) : (d.onQueue k f).lanes = d.lanes := rfl
@[simp] theorem seams_onQueue (d : Dev) (k : Nat) (f : Queue → Queue) : (d.onQueue k f).seams = d.seams := rfl
@[simp] theorem laneUnits_onQueue (d : Dev) (k : Nat) (f : Queue → Queue) : (d.onQueue k f).laneUnits = d.laneUnits := rfl
@[simp] theorem stoker_onQueue (d : Dev) (k : Nat) (f : Queue → Queue) : (d.onQueue k f).stoker = d.stoker := rfl
@[simp] theorem cores_onQueue (d : Dev) (k : Nat) (f : Queue → Queue) : (d.onQueue k f).cores = d.cores := rfl
@[simp] theorem hobs_onQueue (d : Dev) (k : Nat) (f : Queue → Queue) : (d.onQueue k f).hobs = d.hobs := rfl
@[simp] theorem flips_onQueue (d : Dev) (k : Nat) (f : Queue → Queue) : (d.onQueue k f).flips = d.flips := rfl
@[simp] theorem bellows_onQueue (d : Dev) (k : Nat) (f : Queue → Queue) : (d.onQueue k f).bellows = d.bellows := rfl
@[simp] theorem baste_onQueue (d : Dev) (k : Nat) (f : Queue → Queue) : (d.onQueue k f).baste = d.baste := rfl
@[simp] theorem dram_onQueue (d : Dev) (k : Nat) (f : Queue → Queue) : (d.onQueue k f).dram = d.dram := rfl
@[simp] theorem thm_onQueue (d : Dev) (k : Nat) (f : Queue → Queue) : (d.onQueue k f).thm = d.thm := rfl
@[simp] theorem images_onQueue (d : Dev) (k : Nat) (f : Queue → Queue) : (d.onQueue k f).images = d.images := rfl
@[simp] theorem power_onQueue (d : Dev) (k : Nat) (f : Queue → Queue) : (d.onQueue k f).power = d.power := rfl
@[simp] theorem chim_onQueue (d : Dev) (k : Nat) (f : Queue → Queue) : (d.onQueue k f).chim = d.chim := rfl
@[simp] theorem ports_onQueue (d : Dev) (k : Nat) (f : Queue → Queue) : (d.onQueue k f).ports = d.ports := rfl
@[simp] theorem patGen_onQueue (d : Dev) (k : Nat) (f : Queue → Queue) : (d.onQueue k f).patGen = d.patGen := rfl
@[simp] theorem eraseAt_onQueue (d : Dev) (k : Nat) (f : Queue → Queue) : (d.onQueue k f).eraseAt = d.eraseAt := rfl
@[simp] theorem free_onQueue (d : Dev) (k : Nat) (f : Queue → Queue) : (d.onQueue k f).free = d.free := rfl
@[simp] theorem out_onQueue (d : Dev) (k : Nat) (f : Queue → Queue) : (d.onQueue k f).out = d.out := rfl
@[simp] theorem bobbin_fifos_onQueue (d : Dev) (k : Nat) (f : Queue → Queue) :
    (d.onQueue k f).bobbin.fifos = d.bobbin.fifos := rfl
@[simp] theorem bobbin_pool_onQueue (d : Dev) (k : Nat) (f : Queue → Queue) :
    (d.onQueue k f).bobbin.pool = d.bobbin.pool := rfl
@[simp] theorem bobbin_flips_onQueue (d : Dev) (k : Nat) (f : Queue → Queue) :
    (d.onQueue k f).bobbin.flips = d.bobbin.flips := rfl
@[simp] theorem bobbin_owner_onQueue (d : Dev) (k : Nat) (f : Queue → Queue) :
    (d.onQueue k f).bobbin.owner = d.bobbin.owner := rfl
@[simp] theorem bobbin_dead_onQueue (d : Dev) (k : Nat) (f : Queue → Queue) :
    (d.onQueue k f).bobbin.dead = d.bobbin.dead := rfl
@[simp] theorem bobbin_opens_onQueue (d : Dev) (k : Nat) (f : Queue → Queue) :
    (d.onQueue k f).bobbin.opens = d.bobbin.opens := rfl
@[simp] theorem bobbin_waiters_onQueue (d : Dev) (k : Nat) (f : Queue → Queue) :
    (d.onQueue k f).bobbin.waiters = d.bobbin.waiters := rfl
@[simp] theorem bobbin_stopped_onQueue (d : Dev) (k : Nat) (f : Queue → Queue) :
    (d.onQueue k f).bobbin.stopped = d.bobbin.stopped := rfl
@[simp] theorem queue_onQueue_self (d : Dev) (k : Nat) (f : Queue → Queue) : (d.onQueue k f).queue k = f (d.queue k) := by
  simp [Dev.onQueue, Dev.queue]
theorem queue_onQueue_ne (d : Dev) (k j : Nat) (f : Queue → Queue) (h : j ≠ k) : (d.onQueue k f).queue j = d.queue j := by
  simp [Dev.onQueue, Dev.queue, getD_set_ne _ _ _ _ _ h]

/-! `Dev.onSrc`. -/

@[simp] theorem sys_onSrc (d : Dev) (k : Nat) (f : Src → Src) : (d.onSrc k f).sys = d.sys := rfl
@[simp] theorem regs_onSrc (d : Dev) (k : Nat) (f : Src → Src) : (d.onSrc k f).regs = d.regs := rfl
@[simp] theorem commits_onSrc (d : Dev) (k : Nat) (f : Src → Src) : (d.onSrc k f).commits = d.commits := rfl
@[simp] theorem clock_onSrc (d : Dev) (k : Nat) (f : Src → Src) : (d.onSrc k f).clock = d.clock := rfl
@[simp] theorem dampers_onSrc (d : Dev) (k : Nat) (f : Src → Src) : (d.onSrc k f).dampers = d.dampers := rfl
@[simp] theorem wdts_onSrc (d : Dev) (k : Nat) (f : Src → Src) : (d.onSrc k f).wdts = d.wdts := rfl
@[simp] theorem lanes_onSrc (d : Dev) (k : Nat) (f : Src → Src) : (d.onSrc k f).lanes = d.lanes := rfl
@[simp] theorem seams_onSrc (d : Dev) (k : Nat) (f : Src → Src) : (d.onSrc k f).seams = d.seams := rfl
@[simp] theorem laneUnits_onSrc (d : Dev) (k : Nat) (f : Src → Src) : (d.onSrc k f).laneUnits = d.laneUnits := rfl
@[simp] theorem stoker_onSrc (d : Dev) (k : Nat) (f : Src → Src) : (d.onSrc k f).stoker = d.stoker := rfl
@[simp] theorem cores_onSrc (d : Dev) (k : Nat) (f : Src → Src) : (d.onSrc k f).cores = d.cores := rfl
@[simp] theorem hobs_onSrc (d : Dev) (k : Nat) (f : Src → Src) : (d.onSrc k f).hobs = d.hobs := rfl
@[simp] theorem flips_onSrc (d : Dev) (k : Nat) (f : Src → Src) : (d.onSrc k f).flips = d.flips := rfl
@[simp] theorem bellows_onSrc (d : Dev) (k : Nat) (f : Src → Src) : (d.onSrc k f).bellows = d.bellows := rfl
@[simp] theorem baste_onSrc (d : Dev) (k : Nat) (f : Src → Src) : (d.onSrc k f).baste = d.baste := rfl
@[simp] theorem dram_onSrc (d : Dev) (k : Nat) (f : Src → Src) : (d.onSrc k f).dram = d.dram := rfl
@[simp] theorem bobbin_onSrc (d : Dev) (k : Nat) (f : Src → Src) : (d.onSrc k f).bobbin = d.bobbin := rfl
@[simp] theorem thm_onSrc (d : Dev) (k : Nat) (f : Src → Src) : (d.onSrc k f).thm = d.thm := rfl
@[simp] theorem images_onSrc (d : Dev) (k : Nat) (f : Src → Src) : (d.onSrc k f).images = d.images := rfl
@[simp] theorem power_onSrc (d : Dev) (k : Nat) (f : Src → Src) : (d.onSrc k f).power = d.power := rfl
@[simp] theorem chim_onSrc (d : Dev) (k : Nat) (f : Src → Src) : (d.onSrc k f).chim = d.chim := rfl
@[simp] theorem ports_onSrc (d : Dev) (k : Nat) (f : Src → Src) : (d.onSrc k f).ports = d.ports := rfl
@[simp] theorem patGen_onSrc (d : Dev) (k : Nat) (f : Src → Src) : (d.onSrc k f).patGen = d.patGen := rfl
@[simp] theorem eraseAt_onSrc (d : Dev) (k : Nat) (f : Src → Src) : (d.onSrc k f).eraseAt = d.eraseAt := rfl
@[simp] theorem free_onSrc (d : Dev) (k : Nat) (f : Src → Src) : (d.onSrc k f).free = d.free := rfl
@[simp] theorem out_onSrc (d : Dev) (k : Nat) (f : Src → Src) : (d.onSrc k f).out = d.out := rfl
@[simp] theorem flue_devHold_onSrc (d : Dev) (k : Nat) (f : Src → Src) :
    (d.onSrc k f).flue.devHold = d.flue.devHold := rfl
@[simp] theorem flue_tripSet_onSrc (d : Dev) (k : Nat) (f : Src → Src) :
    (d.onSrc k f).flue.tripSet = d.flue.tripSet := rfl
@[simp] theorem flue_holds_onSrc (d : Dev) (k : Nat) (f : Src → Src) :
    (d.onSrc k f).flue.holds = d.flue.holds := rfl
@[simp] theorem flue_sels_onSrc (d : Dev) (k : Nat) (f : Src → Src) :
    (d.onSrc k f).flue.sels = d.flue.sels := rfl
@[simp] theorem flue_retMode_onSrc (d : Dev) (k : Nat) (f : Src → Src) :
    (d.onSrc k f).flue.retMode = d.flue.retMode := rfl
@[simp] theorem flue_quietAt_onSrc (d : Dev) (k : Nat) (f : Src → Src) :
    (d.onSrc k f).flue.quietAt = d.flue.quietAt := rfl
@[simp] theorem flue_window_onSrc (d : Dev) (k : Nat) (f : Src → Src) :
    (d.onSrc k f).flue.window = d.flue.window := rfl
@[simp] theorem flue_localWin_onSrc (d : Dev) (k : Nat) (f : Src → Src) :
    (d.onSrc k f).flue.localWin = d.flue.localWin := rfl
@[simp] theorem flue_driving_onSrc (d : Dev) (k : Nat) (f : Src → Src) :
    (d.onSrc k f).flue.driving = d.flue.driving := rfl
@[simp] theorem flue_unconf_onSrc (d : Dev) (k : Nat) (f : Src → Src) :
    (d.onSrc k f).flue.unconf = d.flue.unconf := rfl
@[simp] theorem flue_forcing_onSrc (d : Dev) (k : Nat) (f : Src → Src) :
    (d.onSrc k f).flue.forcing = d.flue.forcing := rfl
@[simp] theorem flue_hwSafe_onSrc (d : Dev) (k : Nat) (f : Src → Src) :
    (d.onSrc k f).flue.hwSafe = d.flue.hwSafe := rfl
@[simp] theorem flue_fifo_onSrc (d : Dev) (k : Nat) (f : Src → Src) :
    (d.onSrc k f).flue.fifo = d.flue.fifo := rfl
@[simp] theorem flue_ptrTrip_onSrc (d : Dev) (k : Nat) (f : Src → Src) :
    (d.onSrc k f).flue.ptrTrip = d.flue.ptrTrip := rfl
@[simp] theorem flue_ptrNote_onSrc (d : Dev) (k : Nat) (f : Src → Src) :
    (d.onSrc k f).flue.ptrNote = d.flue.ptrNote := rfl
@[simp] theorem flue_countRecs_onSrc (d : Dev) (k : Nat) (f : Src → Src) :
    (d.onSrc k f).flue.countRecs = d.flue.countRecs := rfl
@[simp] theorem flue_hist_onSrc (d : Dev) (k : Nat) (f : Src → Src) :
    (d.onSrc k f).flue.hist = d.flue.hist := rfl
@[simp] theorem flue_histNext_onSrc (d : Dev) (k : Nat) (f : Src → Src) :
    (d.onSrc k f).flue.histNext = d.flue.histNext := rfl
@[simp] theorem flue_events_onSrc (d : Dev) (k : Nat) (f : Src → Src) :
    (d.onSrc k f).flue.events = d.flue.events := rfl
@[simp] theorem flue_lastEvent_onSrc (d : Dev) (k : Nat) (f : Src → Src) :
    (d.onSrc k f).flue.lastEvent = d.flue.lastEvent := rfl
@[simp] theorem flue_evqNext_onSrc (d : Dev) (k : Nat) (f : Src → Src) :
    (d.onSrc k f).flue.evqNext = d.flue.evqNext := rfl
@[simp] theorem flue_evqGap_onSrc (d : Dev) (k : Nat) (f : Src → Src) :
    (d.onSrc k f).flue.evqGap = d.flue.evqGap := rfl
@[simp] theorem flue_evqDue_onSrc (d : Dev) (k : Nat) (f : Src → Src) :
    (d.onSrc k f).flue.evqDue = d.flue.evqDue := rfl
@[simp] theorem flue_spill_onSrc (d : Dev) (k : Nat) (f : Src → Src) :
    (d.onSrc k f).flue.spill = d.flue.spill := rfl
@[simp] theorem flue_routed_onSrc (d : Dev) (k : Nat) (f : Src → Src) :
    (d.onSrc k f).flue.routed = d.flue.routed := rfl
@[simp] theorem flue_traceLost_onSrc (d : Dev) (k : Nat) (f : Src → Src) :
    (d.onSrc k f).flue.traceLost = d.flue.traceLost := rfl
@[simp] theorem flue_traceGap_onSrc (d : Dev) (k : Nat) (f : Src → Src) :
    (d.onSrc k f).flue.traceGap = d.flue.traceGap := rfl
@[simp] theorem flue_traceNext_onSrc (d : Dev) (k : Nat) (f : Src → Src) :
    (d.onSrc k f).flue.traceNext = d.flue.traceNext := rfl
@[simp] theorem flue_mismatch_onSrc (d : Dev) (k : Nat) (f : Src → Src) :
    (d.onSrc k f).flue.mismatch = d.flue.mismatch := rfl
@[simp] theorem flue_noMajority_onSrc (d : Dev) (k : Nat) (f : Src → Src) :
    (d.onSrc k f).flue.noMajority = d.flue.noMajority := rfl
@[simp] theorem flue_word_onSrc (d : Dev) (k : Nat) (f : Src → Src) :
    (d.onSrc k f).flue.word = d.flue.word := rfl
@[simp] theorem flue_errPin_onSrc (d : Dev) (k : Nat) (f : Src → Src) :
    (d.onSrc k f).flue.errPin = d.flue.errPin := rfl
@[simp] theorem flue_errAt_onSrc (d : Dev) (k : Nat) (f : Src → Src) :
    (d.onSrc k f).flue.errAt = d.flue.errAt := rfl
@[simp] theorem flue_errRel_onSrc (d : Dev) (k : Nat) (f : Src → Src) :
    (d.onSrc k f).flue.errRel = d.flue.errRel := rfl
@[simp] theorem flue_errCnt_onSrc (d : Dev) (k : Nat) (f : Src → Src) :
    (d.onSrc k f).flue.errCnt = d.flue.errCnt := rfl

/-! `Dev.onDom`. -/

@[simp] theorem sys_onDom (d : Dev) (k : Nat) (f : Domain → Domain) : (d.onDom k f).sys = d.sys := rfl
@[simp] theorem regs_onDom (d : Dev) (k : Nat) (f : Domain → Domain) : (d.onDom k f).regs = d.regs := rfl
@[simp] theorem commits_onDom (d : Dev) (k : Nat) (f : Domain → Domain) : (d.onDom k f).commits = d.commits := rfl
@[simp] theorem clock_onDom (d : Dev) (k : Nat) (f : Domain → Domain) : (d.onDom k f).clock = d.clock := rfl
@[simp] theorem flue_onDom (d : Dev) (k : Nat) (f : Domain → Domain) : (d.onDom k f).flue = d.flue := rfl
@[simp] theorem dampers_onDom (d : Dev) (k : Nat) (f : Domain → Domain) : (d.onDom k f).dampers = d.dampers := rfl
@[simp] theorem wdts_onDom (d : Dev) (k : Nat) (f : Domain → Domain) : (d.onDom k f).wdts = d.wdts := rfl
@[simp] theorem lanes_onDom (d : Dev) (k : Nat) (f : Domain → Domain) : (d.onDom k f).lanes = d.lanes := rfl
@[simp] theorem seams_onDom (d : Dev) (k : Nat) (f : Domain → Domain) : (d.onDom k f).seams = d.seams := rfl
@[simp] theorem laneUnits_onDom (d : Dev) (k : Nat) (f : Domain → Domain) : (d.onDom k f).laneUnits = d.laneUnits := rfl
@[simp] theorem stoker_onDom (d : Dev) (k : Nat) (f : Domain → Domain) : (d.onDom k f).stoker = d.stoker := rfl
@[simp] theorem cores_onDom (d : Dev) (k : Nat) (f : Domain → Domain) : (d.onDom k f).cores = d.cores := rfl
@[simp] theorem hobs_onDom (d : Dev) (k : Nat) (f : Domain → Domain) : (d.onDom k f).hobs = d.hobs := rfl
@[simp] theorem flips_onDom (d : Dev) (k : Nat) (f : Domain → Domain) : (d.onDom k f).flips = d.flips := rfl
@[simp] theorem bellows_onDom (d : Dev) (k : Nat) (f : Domain → Domain) : (d.onDom k f).bellows = d.bellows := rfl
@[simp] theorem baste_onDom (d : Dev) (k : Nat) (f : Domain → Domain) : (d.onDom k f).baste = d.baste := rfl
@[simp] theorem dram_onDom (d : Dev) (k : Nat) (f : Domain → Domain) : (d.onDom k f).dram = d.dram := rfl
@[simp] theorem bobbin_onDom (d : Dev) (k : Nat) (f : Domain → Domain) : (d.onDom k f).bobbin = d.bobbin := rfl
@[simp] theorem thm_onDom (d : Dev) (k : Nat) (f : Domain → Domain) : (d.onDom k f).thm = d.thm := rfl
@[simp] theorem images_onDom (d : Dev) (k : Nat) (f : Domain → Domain) : (d.onDom k f).images = d.images := rfl
@[simp] theorem chim_onDom (d : Dev) (k : Nat) (f : Domain → Domain) : (d.onDom k f).chim = d.chim := rfl
@[simp] theorem ports_onDom (d : Dev) (k : Nat) (f : Domain → Domain) : (d.onDom k f).ports = d.ports := rfl
@[simp] theorem patGen_onDom (d : Dev) (k : Nat) (f : Domain → Domain) : (d.onDom k f).patGen = d.patGen := rfl
@[simp] theorem eraseAt_onDom (d : Dev) (k : Nat) (f : Domain → Domain) : (d.onDom k f).eraseAt = d.eraseAt := rfl
@[simp] theorem free_onDom (d : Dev) (k : Nat) (f : Domain → Domain) : (d.onDom k f).free = d.free := rfl
@[simp] theorem out_onDom (d : Dev) (k : Nat) (f : Domain → Domain) : (d.onDom k f).out = d.out := rfl
@[simp] theorem power_levels_onDom (d : Dev) (k : Nat) (f : Domain → Domain) :
    (d.onDom k f).power.levels = d.power.levels := rfl
@[simp] theorem power_changes_onDom (d : Dev) (k : Nat) (f : Domain → Domain) :
    (d.onDom k f).power.changes = d.power.changes := rfl
@[simp] theorem power_avsFault_onDom (d : Dev) (k : Nat) (f : Domain → Domain) :
    (d.onDom k f).power.avsFault = d.power.avsFault := rfl
@[simp] theorem power_tj_onDom (d : Dev) (k : Nat) (f : Domain → Domain) :
    (d.onDom k f).power.tj = d.power.tj := rfl
@[simp] theorem power_vca_onDom (d : Dev) (k : Nat) (f : Domain → Domain) :
    (d.onDom k f).power.vca = d.power.vca := rfl
@[simp] theorem dom_onDom_self (d : Dev) (k : Nat) (f : Domain → Domain) : (d.onDom k f).dom k = f (d.dom k) := by
  simp [Dev.onDom, Dev.dom]
theorem dom_onDom_ne (d : Dev) (k j : Nat) (f : Domain → Domain) (h : j ≠ k) : (d.onDom k f).dom j = d.dom j := by
  simp [Dev.onDom, Dev.dom, getD_set_ne _ _ _ _ _ h]

/-! `Dev.onCourse`. -/

@[simp] theorem sys_onCourse (d : Dev) (k : Nat) (f : Course → Course) : (d.onCourse k f).sys = d.sys := rfl
@[simp] theorem regs_onCourse (d : Dev) (k : Nat) (f : Course → Course) : (d.onCourse k f).regs = d.regs := rfl
@[simp] theorem commits_onCourse (d : Dev) (k : Nat) (f : Course → Course) : (d.onCourse k f).commits = d.commits := rfl
@[simp] theorem clock_onCourse (d : Dev) (k : Nat) (f : Course → Course) : (d.onCourse k f).clock = d.clock := rfl
@[simp] theorem flue_onCourse (d : Dev) (k : Nat) (f : Course → Course) : (d.onCourse k f).flue = d.flue := rfl
@[simp] theorem dampers_onCourse (d : Dev) (k : Nat) (f : Course → Course) : (d.onCourse k f).dampers = d.dampers := rfl
@[simp] theorem wdts_onCourse (d : Dev) (k : Nat) (f : Course → Course) : (d.onCourse k f).wdts = d.wdts := rfl
@[simp] theorem lanes_onCourse (d : Dev) (k : Nat) (f : Course → Course) : (d.onCourse k f).lanes = d.lanes := rfl
@[simp] theorem seams_onCourse (d : Dev) (k : Nat) (f : Course → Course) : (d.onCourse k f).seams = d.seams := rfl
@[simp] theorem laneUnits_onCourse (d : Dev) (k : Nat) (f : Course → Course) : (d.onCourse k f).laneUnits = d.laneUnits := rfl
@[simp] theorem stoker_onCourse (d : Dev) (k : Nat) (f : Course → Course) : (d.onCourse k f).stoker = d.stoker := rfl
@[simp] theorem cores_onCourse (d : Dev) (k : Nat) (f : Course → Course) : (d.onCourse k f).cores = d.cores := rfl
@[simp] theorem hobs_onCourse (d : Dev) (k : Nat) (f : Course → Course) : (d.onCourse k f).hobs = d.hobs := rfl
@[simp] theorem flips_onCourse (d : Dev) (k : Nat) (f : Course → Course) : (d.onCourse k f).flips = d.flips := rfl
@[simp] theorem bellows_onCourse (d : Dev) (k : Nat) (f : Course → Course) : (d.onCourse k f).bellows = d.bellows := rfl
@[simp] theorem baste_onCourse (d : Dev) (k : Nat) (f : Course → Course) : (d.onCourse k f).baste = d.baste := rfl
@[simp] theorem dram_onCourse (d : Dev) (k : Nat) (f : Course → Course) : (d.onCourse k f).dram = d.dram := rfl
@[simp] theorem bobbin_onCourse (d : Dev) (k : Nat) (f : Course → Course) : (d.onCourse k f).bobbin = d.bobbin := rfl
@[simp] theorem thm_onCourse (d : Dev) (k : Nat) (f : Course → Course) : (d.onCourse k f).thm = d.thm := rfl
@[simp] theorem images_onCourse (d : Dev) (k : Nat) (f : Course → Course) : (d.onCourse k f).images = d.images := rfl
@[simp] theorem power_onCourse (d : Dev) (k : Nat) (f : Course → Course) : (d.onCourse k f).power = d.power := rfl
@[simp] theorem ports_onCourse (d : Dev) (k : Nat) (f : Course → Course) : (d.onCourse k f).ports = d.ports := rfl
@[simp] theorem patGen_onCourse (d : Dev) (k : Nat) (f : Course → Course) : (d.onCourse k f).patGen = d.patGen := rfl
@[simp] theorem eraseAt_onCourse (d : Dev) (k : Nat) (f : Course → Course) : (d.onCourse k f).eraseAt = d.eraseAt := rfl
@[simp] theorem free_onCourse (d : Dev) (k : Nat) (f : Course → Course) : (d.onCourse k f).free = d.free := rfl
@[simp] theorem out_onCourse (d : Dev) (k : Nat) (f : Course → Course) : (d.onCourse k f).out = d.out := rfl
@[simp] theorem chim_pos_onCourse (d : Dev) (k : Nat) (f : Course → Course) :
    (d.onCourse k f).chim.pos = d.chim.pos := rfl
@[simp] theorem chim_members_onCourse (d : Dev) (k : Nat) (f : Course → Course) :
    (d.onCourse k f).chim.members = d.chim.members := rfl
@[simp] theorem chim_up_onCourse (d : Dev) (k : Nat) (f : Course → Course) :
    (d.onCourse k f).chim.up = d.chim.up := rfl
@[simp] theorem chim_down_onCourse (d : Dev) (k : Nat) (f : Course → Course) :
    (d.onCourse k f).chim.down = d.chim.down := rfl
@[simp] theorem chim_baseReach_onCourse (d : Dev) (k : Nat) (f : Course → Course) :
    (d.onCourse k f).chim.baseReach = d.chim.baseReach := rfl
@[simp] theorem chim_replays_onCourse (d : Dev) (k : Nat) (f : Course → Course) :
    (d.onCourse k f).chim.replays = d.chim.replays := rfl
@[simp] theorem chim_forwards_onCourse (d : Dev) (k : Nat) (f : Course → Course) :
    (d.onCourse k f).chim.forwards = d.chim.forwards := rfl
@[simp] theorem chim_fwdNext_onCourse (d : Dev) (k : Nat) (f : Course → Course) :
    (d.onCourse k f).chim.fwdNext = d.chim.fwdNext := rfl
@[simp] theorem chim_remotes_onCourse (d : Dev) (k : Nat) (f : Course → Course) :
    (d.onCourse k f).chim.remotes = d.chim.remotes := rfl
@[simp] theorem chim_safeMark_onCourse (d : Dev) (k : Nat) (f : Course → Course) :
    (d.onCourse k f).chim.safeMark = d.chim.safeMark := rfl
@[simp] theorem chim_stepMark_onCourse (d : Dev) (k : Nat) (f : Course → Course) :
    (d.onCourse k f).chim.stepMark = d.chim.stepMark := rfl
@[simp] theorem chim_stepDue_onCourse (d : Dev) (k : Nat) (f : Course → Course) :
    (d.onCourse k f).chim.stepDue = d.chim.stepDue := rfl
@[simp] theorem course_onCourse_self (d : Dev) (k : Nat) (f : Course → Course) : (d.onCourse k f).course k = f (d.course k) := by
  simp [Dev.onCourse, Dev.course]
theorem course_onCourse_ne (d : Dev) (k j : Nat) (f : Course → Course) (h : j ≠ k) : (d.onCourse k f).course j = d.course j := by
  simp [Dev.onCourse, Dev.course, getD_set_ne _ _ _ _ _ h]

/-! `Dev.onCutStat`. -/

@[simp] theorem sys_onCutStat (d : Dev) (k : Nat) (f : CutStat → CutStat) : (d.onCutStat k f).sys = d.sys := rfl
@[simp] theorem regs_onCutStat (d : Dev) (k : Nat) (f : CutStat → CutStat) : (d.onCutStat k f).regs = d.regs := rfl
@[simp] theorem commits_onCutStat (d : Dev) (k : Nat) (f : CutStat → CutStat) : (d.onCutStat k f).commits = d.commits := rfl
@[simp] theorem clock_onCutStat (d : Dev) (k : Nat) (f : CutStat → CutStat) : (d.onCutStat k f).clock = d.clock := rfl
@[simp] theorem flue_onCutStat (d : Dev) (k : Nat) (f : CutStat → CutStat) : (d.onCutStat k f).flue = d.flue := rfl
@[simp] theorem dampers_onCutStat (d : Dev) (k : Nat) (f : CutStat → CutStat) : (d.onCutStat k f).dampers = d.dampers := rfl
@[simp] theorem wdts_onCutStat (d : Dev) (k : Nat) (f : CutStat → CutStat) : (d.onCutStat k f).wdts = d.wdts := rfl
@[simp] theorem lanes_onCutStat (d : Dev) (k : Nat) (f : CutStat → CutStat) : (d.onCutStat k f).lanes = d.lanes := rfl
@[simp] theorem seams_onCutStat (d : Dev) (k : Nat) (f : CutStat → CutStat) : (d.onCutStat k f).seams = d.seams := rfl
@[simp] theorem laneUnits_onCutStat (d : Dev) (k : Nat) (f : CutStat → CutStat) : (d.onCutStat k f).laneUnits = d.laneUnits := rfl
@[simp] theorem stoker_onCutStat (d : Dev) (k : Nat) (f : CutStat → CutStat) : (d.onCutStat k f).stoker = d.stoker := rfl
@[simp] theorem cores_onCutStat (d : Dev) (k : Nat) (f : CutStat → CutStat) : (d.onCutStat k f).cores = d.cores := rfl
@[simp] theorem hobs_onCutStat (d : Dev) (k : Nat) (f : CutStat → CutStat) : (d.onCutStat k f).hobs = d.hobs := rfl
@[simp] theorem flips_onCutStat (d : Dev) (k : Nat) (f : CutStat → CutStat) : (d.onCutStat k f).flips = d.flips := rfl
@[simp] theorem bellows_onCutStat (d : Dev) (k : Nat) (f : CutStat → CutStat) : (d.onCutStat k f).bellows = d.bellows := rfl
@[simp] theorem baste_onCutStat (d : Dev) (k : Nat) (f : CutStat → CutStat) : (d.onCutStat k f).baste = d.baste := rfl
@[simp] theorem dram_onCutStat (d : Dev) (k : Nat) (f : CutStat → CutStat) : (d.onCutStat k f).dram = d.dram := rfl
@[simp] theorem bobbin_onCutStat (d : Dev) (k : Nat) (f : CutStat → CutStat) : (d.onCutStat k f).bobbin = d.bobbin := rfl
@[simp] theorem thm_onCutStat (d : Dev) (k : Nat) (f : CutStat → CutStat) : (d.onCutStat k f).thm = d.thm := rfl
@[simp] theorem power_onCutStat (d : Dev) (k : Nat) (f : CutStat → CutStat) : (d.onCutStat k f).power = d.power := rfl
@[simp] theorem chim_onCutStat (d : Dev) (k : Nat) (f : CutStat → CutStat) : (d.onCutStat k f).chim = d.chim := rfl
@[simp] theorem ports_onCutStat (d : Dev) (k : Nat) (f : CutStat → CutStat) : (d.onCutStat k f).ports = d.ports := rfl
@[simp] theorem patGen_onCutStat (d : Dev) (k : Nat) (f : CutStat → CutStat) : (d.onCutStat k f).patGen = d.patGen := rfl
@[simp] theorem eraseAt_onCutStat (d : Dev) (k : Nat) (f : CutStat → CutStat) : (d.onCutStat k f).eraseAt = d.eraseAt := rfl
@[simp] theorem free_onCutStat (d : Dev) (k : Nat) (f : CutStat → CutStat) : (d.onCutStat k f).free = d.free := rfl
@[simp] theorem out_onCutStat (d : Dev) (k : Nat) (f : CutStat → CutStat) : (d.onCutStat k f).out = d.out := rfl
@[simp] theorem images_flash_onCutStat (d : Dev) (k : Nat) (f : CutStat → CutStat) :
    (d.onCutStat k f).images.flash = d.images.flash := rfl
@[simp] theorem images_jobs_onCutStat (d : Dev) (k : Nat) (f : CutStat → CutStat) :
    (d.onCutStat k f).images.jobs = d.images.jobs := rfl
@[simp] theorem images_jobNext_onCutStat (d : Dev) (k : Nat) (f : CutStat → CutStat) :
    (d.onCutStat k f).images.jobNext = d.images.jobNext := rfl
@[simp] theorem images_st_onCutStat (d : Dev) (k : Nat) (f : CutStat → CutStat) :
    (d.onCutStat k f).images.st = d.images.st := rfl
@[simp] theorem images_reason_onCutStat (d : Dev) (k : Nat) (f : CutStat → CutStat) :
    (d.onCutStat k f).images.reason = d.images.reason := rfl
@[simp] theorem images_stageLen_onCutStat (d : Dev) (k : Nat) (f : CutStat → CutStat) :
    (d.onCutStat k f).images.stageLen = d.images.stageLen := rfl
@[simp] theorem images_areas_onCutStat (d : Dev) (k : Nat) (f : CutStat → CutStat) :
    (d.onCutStat k f).images.areas = d.images.areas := rfl
@[simp] theorem images_running_onCutStat (d : Dev) (k : Nat) (f : CutStat → CutStat) :
    (d.onCutStat k f).images.running = d.images.running := rfl
@[simp] theorem images_prior_onCutStat (d : Dev) (k : Nat) (f : CutStat → CutStat) :
    (d.onCutStat k f).images.prior = d.images.prior := rfl
@[simp] theorem images_stage_onCutStat (d : Dev) (k : Nat) (f : CutStat → CutStat) :
    (d.onCutStat k f).images.stage = d.images.stage := rfl
@[simp] theorem images_stokerDigest_onCutStat (d : Dev) (k : Nat) (f : CutStat → CutStat) :
    (d.onCutStat k f).images.stokerDigest = d.images.stokerDigest := rfl
@[simp] theorem images_loaded_onCutStat (d : Dev) (k : Nat) (f : CutStat → CutStat) :
    (d.onCutStat k f).images.loaded = d.images.loaded := rfl
@[simp] theorem images_cut_onCutStat (d : Dev) (k : Nat) (f : CutStat → CutStat) :
    (d.onCutStat k f).images.cut = d.images.cut := rfl
@[simp] theorem images_lastCut_onCutStat (d : Dev) (k : Nat) (f : CutStat → CutStat) :
    (d.onCutStat k f).images.lastCut = d.images.lastCut := rfl
@[simp] theorem images_lastNamed_onCutStat (d : Dev) (k : Nat) (f : CutStat → CutStat) :
    (d.onCutStat k f).images.lastNamed = d.images.lastNamed := rfl
@[simp] theorem images_sessions_onCutStat (d : Dev) (k : Nat) (f : CutStat → CutStat) :
    (d.onCutStat k f).images.sessions = d.images.sessions := rfl
@[simp] theorem images_opens_onCutStat (d : Dev) (k : Nat) (f : CutStat → CutStat) :
    (d.onCutStat k f).images.opens = d.images.opens := rfl
@[simp] theorem images_entropyFail_onCutStat (d : Dev) (k : Nat) (f : CutStat → CutStat) :
    (d.onCutStat k f).images.entropyFail = d.images.entropyFail := rfl
@[simp] theorem images_cryptoKey_onCutStat (d : Dev) (k : Nat) (f : CutStat → CutStat) :
    (d.onCutStat k f).images.cryptoKey = d.images.cryptoKey := rfl
@[simp] theorem images_cryptoOperand_onCutStat (d : Dev) (k : Nat) (f : CutStat → CutStat) :
    (d.onCutStat k f).images.cryptoOperand = d.images.cryptoOperand := rfl
@[simp] theorem images_drbgState_onCutStat (d : Dev) (k : Nat) (f : CutStat → CutStat) :
    (d.onCutStat k f).images.drbgState = d.images.drbgState := rfl
@[simp] theorem cutStat_onCutStat_self (d : Dev) (k : Nat) (f : CutStat → CutStat) : (d.onCutStat k f).cutStat k = f (d.cutStat k) := by
  simp [Dev.onCutStat, Dev.cutStat]
theorem cutStat_onCutStat_ne (d : Dev) (k j : Nat) (f : CutStat → CutStat) (h : j ≠ k) : (d.onCutStat k f).cutStat j = d.cutStat j := by
  simp [Dev.onCutStat, Dev.cutStat, getD_set_ne _ _ _ _ _ h]

/-! `Dev.onCmdSrc`. -/

@[simp] theorem sys_onCmdSrc (d : Dev) (k : Nat) (f : CmdSource → CmdSource) : (d.onCmdSrc k f).sys = d.sys := rfl
@[simp] theorem regs_onCmdSrc (d : Dev) (k : Nat) (f : CmdSource → CmdSource) : (d.onCmdSrc k f).regs = d.regs := rfl
@[simp] theorem commits_onCmdSrc (d : Dev) (k : Nat) (f : CmdSource → CmdSource) : (d.onCmdSrc k f).commits = d.commits := rfl
@[simp] theorem clock_onCmdSrc (d : Dev) (k : Nat) (f : CmdSource → CmdSource) : (d.onCmdSrc k f).clock = d.clock := rfl
@[simp] theorem flue_onCmdSrc (d : Dev) (k : Nat) (f : CmdSource → CmdSource) : (d.onCmdSrc k f).flue = d.flue := rfl
@[simp] theorem dampers_onCmdSrc (d : Dev) (k : Nat) (f : CmdSource → CmdSource) : (d.onCmdSrc k f).dampers = d.dampers := rfl
@[simp] theorem wdts_onCmdSrc (d : Dev) (k : Nat) (f : CmdSource → CmdSource) : (d.onCmdSrc k f).wdts = d.wdts := rfl
@[simp] theorem lanes_onCmdSrc (d : Dev) (k : Nat) (f : CmdSource → CmdSource) : (d.onCmdSrc k f).lanes = d.lanes := rfl
@[simp] theorem seams_onCmdSrc (d : Dev) (k : Nat) (f : CmdSource → CmdSource) : (d.onCmdSrc k f).seams = d.seams := rfl
@[simp] theorem laneUnits_onCmdSrc (d : Dev) (k : Nat) (f : CmdSource → CmdSource) : (d.onCmdSrc k f).laneUnits = d.laneUnits := rfl
@[simp] theorem cores_onCmdSrc (d : Dev) (k : Nat) (f : CmdSource → CmdSource) : (d.onCmdSrc k f).cores = d.cores := rfl
@[simp] theorem hobs_onCmdSrc (d : Dev) (k : Nat) (f : CmdSource → CmdSource) : (d.onCmdSrc k f).hobs = d.hobs := rfl
@[simp] theorem flips_onCmdSrc (d : Dev) (k : Nat) (f : CmdSource → CmdSource) : (d.onCmdSrc k f).flips = d.flips := rfl
@[simp] theorem bellows_onCmdSrc (d : Dev) (k : Nat) (f : CmdSource → CmdSource) : (d.onCmdSrc k f).bellows = d.bellows := rfl
@[simp] theorem baste_onCmdSrc (d : Dev) (k : Nat) (f : CmdSource → CmdSource) : (d.onCmdSrc k f).baste = d.baste := rfl
@[simp] theorem dram_onCmdSrc (d : Dev) (k : Nat) (f : CmdSource → CmdSource) : (d.onCmdSrc k f).dram = d.dram := rfl
@[simp] theorem bobbin_onCmdSrc (d : Dev) (k : Nat) (f : CmdSource → CmdSource) : (d.onCmdSrc k f).bobbin = d.bobbin := rfl
@[simp] theorem thm_onCmdSrc (d : Dev) (k : Nat) (f : CmdSource → CmdSource) : (d.onCmdSrc k f).thm = d.thm := rfl
@[simp] theorem images_onCmdSrc (d : Dev) (k : Nat) (f : CmdSource → CmdSource) : (d.onCmdSrc k f).images = d.images := rfl
@[simp] theorem power_onCmdSrc (d : Dev) (k : Nat) (f : CmdSource → CmdSource) : (d.onCmdSrc k f).power = d.power := rfl
@[simp] theorem chim_onCmdSrc (d : Dev) (k : Nat) (f : CmdSource → CmdSource) : (d.onCmdSrc k f).chim = d.chim := rfl
@[simp] theorem ports_onCmdSrc (d : Dev) (k : Nat) (f : CmdSource → CmdSource) : (d.onCmdSrc k f).ports = d.ports := rfl
@[simp] theorem patGen_onCmdSrc (d : Dev) (k : Nat) (f : CmdSource → CmdSource) : (d.onCmdSrc k f).patGen = d.patGen := rfl
@[simp] theorem eraseAt_onCmdSrc (d : Dev) (k : Nat) (f : CmdSource → CmdSource) : (d.onCmdSrc k f).eraseAt = d.eraseAt := rfl
@[simp] theorem free_onCmdSrc (d : Dev) (k : Nat) (f : CmdSource → CmdSource) : (d.onCmdSrc k f).free = d.free := rfl
@[simp] theorem out_onCmdSrc (d : Dev) (k : Nat) (f : CmdSource → CmdSource) : (d.onCmdSrc k f).out = d.out := rfl
@[simp] theorem stoker_serving_onCmdSrc (d : Dev) (k : Nat) (f : CmdSource → CmdSource) :
    (d.onCmdSrc k f).stoker.serving = d.stoker.serving := rfl
@[simp] theorem stoker_restarting_onCmdSrc (d : Dev) (k : Nat) (f : CmdSource → CmdSource) :
    (d.onCmdSrc k f).stoker.restarting = d.stoker.restarting := rfl
@[simp] theorem stoker_cmdTail_onCmdSrc (d : Dev) (k : Nat) (f : CmdSource → CmdSource) :
    (d.onCmdSrc k f).stoker.cmdTail = d.stoker.cmdTail := rfl
@[simp] theorem stoker_replyTail_onCmdSrc (d : Dev) (k : Nat) (f : CmdSource → CmdSource) :
    (d.onCmdSrc k f).stoker.replyTail = d.stoker.replyTail := rfl
@[simp] theorem stoker_cmdHead_onCmdSrc (d : Dev) (k : Nat) (f : CmdSource → CmdSource) :
    (d.onCmdSrc k f).stoker.cmdHead = d.stoker.cmdHead := rfl
@[simp] theorem stoker_replyHead_onCmdSrc (d : Dev) (k : Nat) (f : CmdSource → CmdSource) :
    (d.onCmdSrc k f).stoker.replyHead = d.stoker.replyHead := rfl
@[simp] theorem stoker_epoch_onCmdSrc (d : Dev) (k : Nat) (f : CmdSource → CmdSource) :
    (d.onCmdSrc k f).stoker.epoch = d.stoker.epoch := rfl
@[simp] theorem stoker_ringFaults_onCmdSrc (d : Dev) (k : Nat) (f : CmdSource → CmdSource) :
    (d.onCmdSrc k f).stoker.ringFaults = d.stoker.ringFaults := rfl
@[simp] theorem stoker_resetDue_onCmdSrc (d : Dev) (k : Nat) (f : CmdSource → CmdSource) :
    (d.onCmdSrc k f).stoker.resetDue = d.stoker.resetDue := rfl
@[simp] theorem stoker_aperture_onCmdSrc (d : Dev) (k : Nat) (f : CmdSource → CmdSource) :
    (d.onCmdSrc k f).stoker.aperture = d.stoker.aperture := rfl
@[simp] theorem stoker_cmdRing_onCmdSrc (d : Dev) (k : Nat) (f : CmdSource → CmdSource) :
    (d.onCmdSrc k f).stoker.cmdRing = d.stoker.cmdRing := rfl
@[simp] theorem stoker_replies_onCmdSrc (d : Dev) (k : Nat) (f : CmdSource → CmdSource) :
    (d.onCmdSrc k f).stoker.replies = d.stoker.replies := rfl
@[simp] theorem stoker_pends_onCmdSrc (d : Dev) (k : Nat) (f : CmdSource → CmdSource) :
    (d.onCmdSrc k f).stoker.pends = d.stoker.pends := rfl
@[simp] theorem stoker_txn_onCmdSrc (d : Dev) (k : Nat) (f : CmdSource → CmdSource) :
    (d.onCmdSrc k f).stoker.txn = d.stoker.txn := rfl
@[simp] theorem stoker_grants_onCmdSrc (d : Dev) (k : Nat) (f : CmdSource → CmdSource) :
    (d.onCmdSrc k f).stoker.grants = d.stoker.grants := rfl
@[simp] theorem stoker_nextGrant_onCmdSrc (d : Dev) (k : Nat) (f : CmdSource → CmdSource) :
    (d.onCmdSrc k f).stoker.nextGrant = d.stoker.nextGrant := rfl
@[simp] theorem stoker_xlog_onCmdSrc (d : Dev) (k : Nat) (f : CmdSource → CmdSource) :
    (d.onCmdSrc k f).stoker.xlog = d.stoker.xlog := rfl
@[simp] theorem stoker_xnext_onCmdSrc (d : Dev) (k : Nat) (f : CmdSource → CmdSource) :
    (d.onCmdSrc k f).stoker.xnext = d.stoker.xnext := rfl
@[simp] theorem stoker_pageSeq_onCmdSrc (d : Dev) (k : Nat) (f : CmdSource → CmdSource) :
    (d.onCmdSrc k f).stoker.pageSeq = d.stoker.pageSeq := rfl
@[simp] theorem stoker_page_onCmdSrc (d : Dev) (k : Nat) (f : CmdSource → CmdSource) :
    (d.onCmdSrc k f).stoker.page = d.stoker.page := rfl
@[simp] theorem stoker_crossed_onCmdSrc (d : Dev) (k : Nat) (f : CmdSource → CmdSource) :
    (d.onCmdSrc k f).stoker.crossed = d.stoker.crossed := rfl
@[simp] theorem stoker_turn_onCmdSrc (d : Dev) (k : Nat) (f : CmdSource → CmdSource) :
    (d.onCmdSrc k f).stoker.turn = d.stoker.turn := rfl
@[simp] theorem stoker_sent_onCmdSrc (d : Dev) (k : Nat) (f : CmdSource → CmdSource) :
    (d.onCmdSrc k f).stoker.sent = d.stoker.sent := rfl
@[simp] theorem cmdSrc_onCmdSrc_self (d : Dev) (k : Nat) (f : CmdSource → CmdSource) : (d.onCmdSrc k f).cmdSrc k = f (d.cmdSrc k) := by
  simp [Dev.onCmdSrc, Dev.cmdSrc]
theorem cmdSrc_onCmdSrc_ne (d : Dev) (k j : Nat) (f : CmdSource → CmdSource) (h : j ≠ k) : (d.onCmdSrc k f).cmdSrc j = d.cmdSrc j := by
  simp [Dev.onCmdSrc, Dev.cmdSrc, getD_set_ne _ _ _ _ _ h]

/-! `Dev.onThmIn`. -/

@[simp] theorem sys_onThmIn (d : Dev) (k : Nat) (f : ThmInput → ThmInput) : (d.onThmIn k f).sys = d.sys := rfl
@[simp] theorem regs_onThmIn (d : Dev) (k : Nat) (f : ThmInput → ThmInput) : (d.onThmIn k f).regs = d.regs := rfl
@[simp] theorem commits_onThmIn (d : Dev) (k : Nat) (f : ThmInput → ThmInput) : (d.onThmIn k f).commits = d.commits := rfl
@[simp] theorem clock_onThmIn (d : Dev) (k : Nat) (f : ThmInput → ThmInput) : (d.onThmIn k f).clock = d.clock := rfl
@[simp] theorem flue_onThmIn (d : Dev) (k : Nat) (f : ThmInput → ThmInput) : (d.onThmIn k f).flue = d.flue := rfl
@[simp] theorem dampers_onThmIn (d : Dev) (k : Nat) (f : ThmInput → ThmInput) : (d.onThmIn k f).dampers = d.dampers := rfl
@[simp] theorem wdts_onThmIn (d : Dev) (k : Nat) (f : ThmInput → ThmInput) : (d.onThmIn k f).wdts = d.wdts := rfl
@[simp] theorem lanes_onThmIn (d : Dev) (k : Nat) (f : ThmInput → ThmInput) : (d.onThmIn k f).lanes = d.lanes := rfl
@[simp] theorem seams_onThmIn (d : Dev) (k : Nat) (f : ThmInput → ThmInput) : (d.onThmIn k f).seams = d.seams := rfl
@[simp] theorem laneUnits_onThmIn (d : Dev) (k : Nat) (f : ThmInput → ThmInput) : (d.onThmIn k f).laneUnits = d.laneUnits := rfl
@[simp] theorem stoker_onThmIn (d : Dev) (k : Nat) (f : ThmInput → ThmInput) : (d.onThmIn k f).stoker = d.stoker := rfl
@[simp] theorem cores_onThmIn (d : Dev) (k : Nat) (f : ThmInput → ThmInput) : (d.onThmIn k f).cores = d.cores := rfl
@[simp] theorem hobs_onThmIn (d : Dev) (k : Nat) (f : ThmInput → ThmInput) : (d.onThmIn k f).hobs = d.hobs := rfl
@[simp] theorem flips_onThmIn (d : Dev) (k : Nat) (f : ThmInput → ThmInput) : (d.onThmIn k f).flips = d.flips := rfl
@[simp] theorem bellows_onThmIn (d : Dev) (k : Nat) (f : ThmInput → ThmInput) : (d.onThmIn k f).bellows = d.bellows := rfl
@[simp] theorem baste_onThmIn (d : Dev) (k : Nat) (f : ThmInput → ThmInput) : (d.onThmIn k f).baste = d.baste := rfl
@[simp] theorem dram_onThmIn (d : Dev) (k : Nat) (f : ThmInput → ThmInput) : (d.onThmIn k f).dram = d.dram := rfl
@[simp] theorem bobbin_onThmIn (d : Dev) (k : Nat) (f : ThmInput → ThmInput) : (d.onThmIn k f).bobbin = d.bobbin := rfl
@[simp] theorem images_onThmIn (d : Dev) (k : Nat) (f : ThmInput → ThmInput) : (d.onThmIn k f).images = d.images := rfl
@[simp] theorem power_onThmIn (d : Dev) (k : Nat) (f : ThmInput → ThmInput) : (d.onThmIn k f).power = d.power := rfl
@[simp] theorem chim_onThmIn (d : Dev) (k : Nat) (f : ThmInput → ThmInput) : (d.onThmIn k f).chim = d.chim := rfl
@[simp] theorem ports_onThmIn (d : Dev) (k : Nat) (f : ThmInput → ThmInput) : (d.onThmIn k f).ports = d.ports := rfl
@[simp] theorem patGen_onThmIn (d : Dev) (k : Nat) (f : ThmInput → ThmInput) : (d.onThmIn k f).patGen = d.patGen := rfl
@[simp] theorem eraseAt_onThmIn (d : Dev) (k : Nat) (f : ThmInput → ThmInput) : (d.onThmIn k f).eraseAt = d.eraseAt := rfl
@[simp] theorem free_onThmIn (d : Dev) (k : Nat) (f : ThmInput → ThmInput) : (d.onThmIn k f).free = d.free := rfl
@[simp] theorem out_onThmIn (d : Dev) (k : Nat) (f : ThmInput → ThmInput) : (d.onThmIn k f).out = d.out := rfl
@[simp] theorem thm_st_onThmIn (d : Dev) (k : Nat) (f : ThmInput → ThmInput) :
    (d.onThmIn k f).thm.st = d.thm.st := rfl
@[simp] theorem thm_powered_onThmIn (d : Dev) (k : Nat) (f : ThmInput → ThmInput) :
    (d.onThmIn k f).thm.powered = d.thm.powered := rfl
@[simp] theorem thm_up_onThmIn (d : Dev) (k : Nat) (f : ThmInput → ThmInput) :
    (d.onThmIn k f).thm.up = d.thm.up := rfl
@[simp] theorem thm_sealOpen_onThmIn (d : Dev) (k : Nat) (f : ThmInput → ThmInput) :
    (d.onThmIn k f).thm.sealOpen = d.thm.sealOpen := rfl
@[simp] theorem thm_sealCommit_onThmIn (d : Dev) (k : Nat) (f : ThmInput → ThmInput) :
    (d.onThmIn k f).thm.sealCommit = d.thm.sealCommit := rfl
@[simp] theorem thm_slotB_onThmIn (d : Dev) (k : Nat) (f : ThmInput → ThmInput) :
    (d.onThmIn k f).thm.slotB = d.thm.slotB := rfl
@[simp] theorem thm_fallback_onThmIn (d : Dev) (k : Nat) (f : ThmInput → ThmInput) :
    (d.onThmIn k f).thm.fallback = d.thm.fallback := rfl
@[simp] theorem thm_lifecycle_onThmIn (d : Dev) (k : Nat) (f : ThmInput → ThmInput) :
    (d.onThmIn k f).thm.lifecycle = d.thm.lifecycle := rfl
@[simp] theorem thm_refLost_onThmIn (d : Dev) (k : Nat) (f : ThmInput → ThmInput) :
    (d.onThmIn k f).thm.refLost = d.thm.refLost := rfl
@[simp] theorem thm_refKHz_onThmIn (d : Dev) (k : Nat) (f : ThmInput → ThmInput) :
    (d.onThmIn k f).thm.refKHz = d.thm.refKHz := rfl
@[simp] theorem thm_time_onThmIn (d : Dev) (k : Nat) (f : ThmInput → ThmInput) :
    (d.onThmIn k f).thm.time = d.thm.time := rfl
@[simp] theorem thm_last_onThmIn (d : Dev) (k : Nat) (f : ThmInput → ThmInput) :
    (d.onThmIn k f).thm.last = d.thm.last := rfl
@[simp] theorem thm_acked_onThmIn (d : Dev) (k : Nat) (f : ThmInput → ThmInput) :
    (d.onThmIn k f).thm.acked = d.thm.acked := rfl
@[simp] theorem thm_signed_onThmIn (d : Dev) (k : Nat) (f : ThmInput → ThmInput) :
    (d.onThmIn k f).thm.signed = d.thm.signed := rfl
@[simp] theorem thm_ringCount_onThmIn (d : Dev) (k : Nat) (f : ThmInput → ThmInput) :
    (d.onThmIn k f).thm.ringCount = d.thm.ringCount := rfl
@[simp] theorem thm_ring_onThmIn (d : Dev) (k : Nat) (f : ThmInput → ThmInput) :
    (d.onThmIn k f).thm.ring = d.thm.ring := rfl
@[simp] theorem thm_log_onThmIn (d : Dev) (k : Nat) (f : ThmInput → ThmInput) :
    (d.onThmIn k f).thm.log = d.thm.log := rfl
@[simp] theorem thm_sigs_onThmIn (d : Dev) (k : Nat) (f : ThmInput → ThmInput) :
    (d.onThmIn k f).thm.sigs = d.thm.sigs := rfl
@[simp] theorem thm_table_onThmIn (d : Dev) (k : Nat) (f : ThmInput → ThmInput) :
    (d.onThmIn k f).thm.table = d.thm.table := rfl
@[simp] theorem thm_sigCount_onThmIn (d : Dev) (k : Nat) (f : ThmInput → ThmInput) :
    (d.onThmIn k f).thm.sigCount = d.thm.sigCount := rfl
@[simp] theorem thm_batch_onThmIn (d : Dev) (k : Nat) (f : ThmInput → ThmInput) :
    (d.onThmIn k f).thm.batch = d.thm.batch := rfl
@[simp] theorem thm_points_onThmIn (d : Dev) (k : Nat) (f : ThmInput → ThmInput) :
    (d.onThmIn k f).thm.points = d.thm.points := rfl
@[simp] theorem thm_chain_onThmIn (d : Dev) (k : Nat) (f : ThmInput → ThmInput) :
    (d.onThmIn k f).thm.chain = d.thm.chain := rfl
@[simp] theorem thm_head_onThmIn (d : Dev) (k : Nat) (f : ThmInput → ThmInput) :
    (d.onThmIn k f).thm.head = d.thm.head := rfl
@[simp] theorem thm_signing_onThmIn (d : Dev) (k : Nat) (f : ThmInput → ThmInput) :
    (d.onThmIn k f).thm.signing = d.thm.signing := rfl
@[simp] theorem thm_signAgain_onThmIn (d : Dev) (k : Nat) (f : ThmInput → ThmInput) :
    (d.onThmIn k f).thm.signAgain = d.thm.signAgain := rfl
@[simp] theorem thm_signAt_onThmIn (d : Dev) (k : Nat) (f : ThmInput → ThmInput) :
    (d.onThmIn k f).thm.signAt = d.thm.signAt := rfl
@[simp] theorem thm_unsigned_onThmIn (d : Dev) (k : Nat) (f : ThmInput → ThmInput) :
    (d.onThmIn k f).thm.unsigned = d.thm.unsigned := rfl
@[simp] theorem thm_staged_onThmIn (d : Dev) (k : Nat) (f : ThmInput → ThmInput) :
    (d.onThmIn k f).thm.staged = d.thm.staged := rfl
@[simp] theorem thm_gate_onThmIn (d : Dev) (k : Nat) (f : ThmInput → ThmInput) :
    (d.onThmIn k f).thm.gate = d.thm.gate := rfl
@[simp] theorem thm_gateNext_onThmIn (d : Dev) (k : Nat) (f : ThmInput → ThmInput) :
    (d.onThmIn k f).thm.gateNext = d.thm.gateNext := rfl
@[simp] theorem thm_resp_onThmIn (d : Dev) (k : Nat) (f : ThmInput → ThmInput) :
    (d.onThmIn k f).thm.resp = d.thm.resp := rfl
@[simp] theorem thm_respRnum_onThmIn (d : Dev) (k : Nat) (f : ThmInput → ThmInput) :
    (d.onThmIn k f).thm.respRnum = d.thm.respRnum := rfl
@[simp] theorem thm_pageSeq_onThmIn (d : Dev) (k : Nat) (f : ThmInput → ThmInput) :
    (d.onThmIn k f).thm.pageSeq = d.thm.pageSeq := rfl
@[simp] theorem thm_page_onThmIn (d : Dev) (k : Nat) (f : ThmInput → ThmInput) :
    (d.onThmIn k f).thm.page = d.thm.page := rfl
@[simp] theorem thm_live_onThmIn (d : Dev) (k : Nat) (f : ThmInput → ThmInput) :
    (d.onThmIn k f).thm.live = d.thm.live := rfl
@[simp] theorem thm_gateStat_onThmIn (d : Dev) (k : Nat) (f : ThmInput → ThmInput) :
    (d.onThmIn k f).thm.gateStat = d.thm.gateStat := rfl
@[simp] theorem thm_gateRnum_onThmIn (d : Dev) (k : Nat) (f : ThmInput → ThmInput) :
    (d.onThmIn k f).thm.gateRnum = d.thm.gateRnum := rfl
@[simp] theorem thm_nextTag_onThmIn (d : Dev) (k : Nat) (f : ThmInput → ThmInput) :
    (d.onThmIn k f).thm.nextTag = d.thm.nextTag := rfl
@[simp] theorem thm_restarts_onThmIn (d : Dev) (k : Nat) (f : ThmInput → ThmInput) :
    (d.onThmIn k f).thm.restarts = d.thm.restarts := rfl
@[simp] theorem thm_params_onThmIn (d : Dev) (k : Nat) (f : ThmInput → ThmInput) :
    (d.onThmIn k f).thm.params = d.thm.params := rfl
@[simp] theorem thm_version_onThmIn (d : Dev) (k : Nat) (f : ThmInput → ThmInput) :
    (d.onThmIn k f).thm.version = d.thm.version := rfl
@[simp] theorem thm_storeOk_onThmIn (d : Dev) (k : Nat) (f : ThmInput → ThmInput) :
    (d.onThmIn k f).thm.storeOk = d.thm.storeOk := rfl
@[simp] theorem thm_imgDigest_onThmIn (d : Dev) (k : Nat) (f : ThmInput → ThmInput) :
    (d.onThmIn k f).thm.imgDigest = d.thm.imgDigest := rfl
@[simp] theorem thm_pulses_onThmIn (d : Dev) (k : Nat) (f : ThmInput → ThmInput) :
    (d.onThmIn k f).thm.pulses = d.thm.pulses := rfl
@[simp] theorem thm_pulseAt_onThmIn (d : Dev) (k : Nat) (f : ThmInput → ThmInput) :
    (d.onThmIn k f).thm.pulseAt = d.thm.pulseAt := rfl
@[simp] theorem thm_replay_onThmIn (d : Dev) (k : Nat) (f : ThmInput → ThmInput) :
    (d.onThmIn k f).thm.replay = d.thm.replay := rfl
@[simp] theorem thm_replayAt_onThmIn (d : Dev) (k : Nat) (f : ThmInput → ThmInput) :
    (d.onThmIn k f).thm.replayAt = d.thm.replayAt := rfl
@[simp] theorem thm_before_onThmIn (d : Dev) (k : Nat) (f : ThmInput → ThmInput) :
    (d.onThmIn k f).thm.before = d.thm.before := rfl
@[simp] theorem thm_fwd_onThmIn (d : Dev) (k : Nat) (f : ThmInput → ThmInput) :
    (d.onThmIn k f).thm.fwd = d.thm.fwd := rfl
@[simp] theorem thm_fwdNext_onThmIn (d : Dev) (k : Nat) (f : ThmInput → ThmInput) :
    (d.onThmIn k f).thm.fwdNext = d.thm.fwdNext := rfl
@[simp] theorem thm_imageOk_onThmIn (d : Dev) (k : Nat) (f : ThmInput → ThmInput) :
    (d.onThmIn k f).thm.imageOk = d.thm.imageOk := rfl
@[simp] theorem thmIn_onThmIn_self (d : Dev) (k : Nat) (f : ThmInput → ThmInput) : (d.onThmIn k f).thmIn k = f (d.thmIn k) := by
  simp [Dev.onThmIn, Dev.thmIn]
theorem thmIn_onThmIn_ne (d : Dev) (k j : Nat) (f : ThmInput → ThmInput) (h : j ≠ k) : (d.onThmIn k f).thmIn j = d.thmIn j := by
  simp [Dev.onThmIn, Dev.thmIn, getD_set_ne _ _ _ _ _ h]

end Sys2Proof.Laws
end

