-- ==== Sys2Proof/Laws/Vexku.lean ====
section
/-! SUPPORT. What the floating-point instructions and the jumps of a core answer. -/

namespace Sys2Proof.Laws

open Machine

theorem ctl_congr (x y : Arch) (k n : Nat) (h : x.cr = y.cr) : x.ctl k n = y.ctl k n := by simp [Arch.ctl, h]

theorem flags_keeps (x : Arch) (k f : Nat) :
    (x.flags k f).g = x.g ∧ (x.flags k f).f = x.f ∧ (x.flags k f).crw = x.crw ∧ (x.flags k f).pc = x.pc := by
  simp only [Arch.flags, Arch.setCtl]; split <;> simp

theorem flags_ctl (x : Arch) (k f : Nat) :
    (∀ n, n ≠ 0x10 → (x.flags k f).ctl k n = x.ctl k n) ∧ (x.flags k f).ctl k 0x10 = x.ctl k 0x10 ||| w64 f := by
  simp only [Arch.flags]
  split
  · next h => subst h; simp [w64]
  · exact ⟨fun n hn => by rw [ctl_setCtl, if_neg hn], by rw [ctl_setCtl, if_pos rfl]⟩

theorem wrF_keeps (x : Arch) (rd : Reg) (v : Word64) :
    (x.wrF rd v).g = x.g ∧ (x.wrF rd v).cr = x.cr ∧ (x.wrF rd v).crw = x.crw ∧ (x.wrF rd v).pc = x.pc := by
  simp [Arch.wrF]

theorem rdF_flags (x : Arch) (k f : Nat) (r : Reg) : (x.flags k f).rdF r = x.rdF r := by
  simp only [Arch.rdF, (flags_keeps x k f).2.1]

theorem rdG_flags (x : Arch) (k f : Nat) (r : Reg) : (x.flags k f).rdG r = x.rdG r := by
  simp only [Arch.rdG, (flags_keeps x k f).1]

theorem writesF_afterExec (s : State) (c : CoreId) (beats : Nat) (rd : Reg) (v : Nat × Nat) :
    WritesF s (afterExec s c beats fun x => ((x.wrF rd (w64 v.1)).flags c v.2).next) c rd v.1 v.2 := by
  have hx := flags_keeps ((archOf s c).wrF rd (w64 v.1)) c v.2
  have hc := flags_ctl ((archOf s c).wrF rd (w64 v.1)) c v.2
  have hk := wrF_keeps (archOf s c) rd (w64 v.1)
  refine ⟨afterExec_regsOnly s c beats _, ?_, ?_, ⟨?_, ?_, ?_⟩, ?_⟩ <;> simp only [afterExec_arch]
  · intro r
    have : (((archOf s c).wrF rd (w64 v.1)).flags c v.2).next.rdF r = ((archOf s c).wrF rd (w64 v.1)).rdF r :=
      rdF_flags _ _ _ _
    rw [this, rdF_wrF]
  · exact hx.1.trans hk.1
  · intro n hn
    exact (hc.1 n hn).trans (ctl_congr _ _ _ _ hk.2.1)
  · rw [← ctl_congr _ _ c 0x10 hk.2.1]; exact hc.2
  · exact hx.2.2.1.trans hk.2.2.1
  · simp [Arch.next, hx.2.2.2, hk.2.2.2]

theorem writesGF_afterExec (s : State) (c : CoreId) (beats : Nat) (rd : Reg) (v : Word64 × Nat) :
    WritesGF s (afterExec s c beats fun x => ((x.wrG rd v.1).flags c v.2).next) c rd v.1 v.2 := by
  have hx := flags_keeps ((archOf s c).wrG rd v.1) c v.2
  have hc := flags_ctl ((archOf s c).wrG rd v.1) c v.2
  have hk := wrG_keeps (archOf s c) rd v.1
  refine ⟨afterExec_regsOnly s c beats _, ?_, ?_, ⟨?_, ?_, ?_⟩, ?_⟩ <;> simp only [afterExec_arch]
  · intro r
    have : (((archOf s c).wrG rd v.1).flags c v.2).next.rdG r = ((archOf s c).wrG rd v.1).rdG r := rdG_flags _ _ _ _
    rw [this, rdG_wrG]
  · exact hx.2.1.trans hk.1
  · intro n hn
    exact (hc.1 n hn).trans (ctl_congr _ _ _ _ hk.2.1)
  · rw [← ctl_congr _ _ c 0x10 hk.2.1]; exact hc.2
  · exact hx.2.2.1.trans hk.2.2.1
  · simp [Arch.next, hx.2.2.2, hk.2.2.2]

theorem afterExec_congr (s : State) (c : CoreId) (beats : Nat) (f g : Arch → Arch) (h : f (archOf s c) = g (archOf s c)) :
    afterExec s c beats f = afterExec s c beats g := by
  have : (s.dev.core c).exec c beats f = (s.dev.core c).exec c beats g := by
    simp only [Core.exec, show f ((s.dev.core c).count c beats (s.dev.core c).arch.pc).arch =
      g ((s.dev.core c).count c beats (s.dev.core c).arch.pc).arch from h]
  simp only [afterExec, Dev.beatCore, Dev.onCore]
  rw [show ({ s.dev with out := Answer.none } : Dev).core c = s.dev.core c from rfl, this]

/-- What an instruction f RD = v of f registers answers. -/
theorem opFF_writes (s : State) (c : CoreId) (us : List (Bool × Reg)) (rd : Reg) (rs : List Reg) (beats : Nat)
    (f : Arch → Nat × Nat) (h : Issues s c us) (hs : ∀ x ∈ (true, rd) :: rs.map (fun r => (true, r)), x ∈ us) :
    ∃ t, run s (fun w => w.opFF c rd rs beats f) = .next t ∧ WritesF s t c rd (f (archOf s c)).1 (f (archOf s c)).2 :=
  ⟨_, (issue_runArch s c us _ beats _ h hs).trans
    (congrArg _ (afterExec_congr s c beats _ (fun x => ((x.wrF rd (w64 (f (archOf s c)).1)).flags c (f (archOf s c)).2).next) rfl)),
    writesF_afterExec s c beats rd (f (archOf s c))⟩

/-- What an instruction g RD = v of f registers answers. -/
theorem opFG_writes (s : State) (c : CoreId) (us : List (Bool × Reg)) (rd : Reg) (rs : List Reg) (beats : Nat)
    (f : Arch → Word64 × Nat) (h : Issues s c us) (hs : ∀ x ∈ (false, rd) :: rs.map (fun r => (true, r)), x ∈ us) :
    ∃ t, run s (fun w => w.opFG c rd rs beats f) = .next t ∧ WritesGF s t c rd (f (archOf s c)).1 (f (archOf s c)).2 :=
  ⟨_, (issue_runArch s c us _ beats _ h hs).trans
    (congrArg _ (afterExec_congr s c beats _ (fun x => ((x.wrG rd (f (archOf s c)).1).flags c (f (archOf s c)).2).next) rfl)),
    writesGF_afterExec s c beats rd (f (archOf s c))⟩

/-- What an instruction f RD = v of g RA answers. -/
theorem opGF_writes (s : State) (c : CoreId) (us : List (Bool × Reg)) (rd ra : Reg) (beats : Nat)
    (f : Arch → Nat × Nat) (h : Issues s c us) (hs : (true, rd) ∈ us ∧ (false, ra) ∈ us) :
    ∃ t, run s (fun w => w.opGF c rd ra beats f) = .next t ∧ WritesF s t c rd (f (archOf s c)).1 (f (archOf s c)).2 :=
  ⟨_, (issue_runArch s c us _ beats _ h (by simp [hs.1, hs.2])).trans
    (congrArg _ (afterExec_congr s c beats _ (fun x => ((x.wrF rd (w64 (f (archOf s c)).1)).flags c (f (archOf s c)).2).next) rfl)),
    writesF_afterExec s c beats rd (f (archOf s c))⟩

/-- What a conditional branch answers. -/
theorem branch_jumps (s : State) (c : CoreId) (ra rb : Reg) (off : BitVec 16) (p : Word64 → Word64 → Bool)
    (h : Issues s c [(false, ra), (false, rb)]) :
    ∃ t, run s (fun w => w.branch c ra rb off p) = .next t ∧
      JumpsTo s t c (if p ((archOf s c).rdG ra) ((archOf s c).rdG rb) then (archOf s c).pc + sx off <<< 2
        else (archOf s c).pc + 4) := by
  have h2 : (s.world.dev.core c).free [(false, ra), (false, rb)] = true := h.2
  refine ⟨afterExec s c (if p ((archOf s c).rdG ra) ((archOf s c).rdG rb) then 3 else 1) (fun x =>
    if p ((archOf s c).rdG ra) ((archOf s c).rdG rb) then { x with pc := x.pc + sx off <<< 2 } else x.next), ?_,
    afterExec_regsOnly s c _ _, ?_⟩
  · simp only [run, W.branch, W.issue, h.1, h2, Bool.and_self, if_true]; rfl
  · rw [afterExec_arch]; split <;> rfl

end Sys2Proof.Laws
end

