-- ==== Sys2Proof/WellFormed.lean ====
section
/-! DEFINITION. What a command's operands must be: sizes and lengths that a port can carry. -/

namespace Sys2Proof

/-- A packet holds no more parameter bytes than a slot or frame holds. -/
def Packet.wf (p : Packet) : Bool := p.params.length ≤ 4080

/-- The width of an access to one register, byte, half word, word or double word. -/
def sizeOk (n : Nat) : Bool := n == 1 || n == 2 || n == 4 || n == 8

/-- An access to a hob: a port word or less, and as many bytes as it says. -/
def HobReq.wf (r : HobReq) : Bool :=
  decide (1 ≤ r.size ∧ r.size ≤ 32) &&
  match r.op with
  | .read => true
  | .write bs => bs.length == r.size
  | .setBits bs => bs.length == r.size && sizeOk r.size
  | .clearBits bs => bs.length == r.size && sizeOk r.size
  | .atomic _ _ => r.size == 4 || r.size == 8

/-- What R89 and R91 let a lane commit: no reserved EVENT or class, and at most two halves of a store of 1 to 8 bytes. -/
def LaneCommit.wf (t : LaneCommit) : Bool :=
  decide (t.event.toNat < 0x40) && decide (t.stores.length ≤ 2) &&
  t.stores.all (fun s => decide (1 ≤ s.size ∧ s.size ≤ 8)) &&
  match t.dest with
  | some d => d.1 != 3
  | none => true

/-- What R90 lets a lane request: no reserved KIND or SIZE. -/
def LaneRequest.wf (t : LaneRequest) : Bool :=
  decide (t.kind.toNat ≤ 2) && decide (t.size.toNat ≤ 3 ∨ t.size = 5)

/-- A frame that a MAC takes (R501). -/
def EthFrame.wf : EthFrame → Bool
  | .ptp _ _ _ _ => true
  | .udp _ bs _ => decide (bs.length ≤ 1472)
  | .query => true
  | .other bs => decide (60 ≤ bs.length ∧ bs.length ≤ 1522)

/-- The operands of a command are ones that its port can carry. -/
def Instr.wf : Instr → Bool
  | .vcaTurnOn => true
  | .vcaBrownOut => true
  | .resetNLow => true
  | .resetNHigh _ => true
  | .kindleStepComplete _ => true
  | .cmdTailWrite _ => true
  | .replyTailWrite _ => true
  | .ringReset _ => true
  | .apertureWrite _ => true
  | .unknownOpcode _ p => p.wf
  | .commandForward _ p => p.wf
  | .forwardedReply _ _ _ _ _ result _ => decide (result.length ≤ 1020)
  | .pendingCommandStart _ => true
  | .deviceReset p => p.wf
  | .runStart p => p.wf
  | .runStop p => p.wf
  | .dozeEnter p => p.wf
  | .dozeEntry => true
  | .maintainEnter p => p.wf
  | .maintainExit p => p.wf
  | .nop p => p.wf
  | .timeStatus p => p.wf
  | .timeStep p => p.wf
  | .configBegin p => p.wf
  | .configWrite p => p.wf
  | .configCommit p => p.wf
  | .configAbort p => p.wf
  | .laneStatus p => p.wf
  | .laneFence p => p.wf
  | .laneRetest p => p.wf
  | .coreRestart p => p.wf
  | .hearthReset p => p.wf
  | .loopLoad p => p.wf
  | .loopParam p => p.wf
  | .loopMode p => p.wf
  | .loopResume p => p.wf
  | .loopStatus p => p.wf
  | .loopImageBind p => p.wf
  | .loopExtWrite p => p.wf
  | .bellowsStatus p => p.wf
  | .bellowsCountClear p => p.wf
  | .loopInject p => p.wf
  | .schedLoad p => p.wf
  | .schedSwap p => p.wf
  | .schedStatus p => p.wf
  | .schedCheck p => p.wf
  | .memStatus p => p.wf
  | .memLogRead p => p.wf
  | .memScrub p => p.wf
  | .memRetire p => p.wf
  | .memRetireList p => p.wf
  | .memRepairAdd p => p.wf
  | .memRepairList p => p.wf
  | .memInject p => p.wf
  | .memConfig p => p.wf
  | .memFill p => p.wf
  | .hobStatus p => p.wf
  | .hobCountClear p => p.wf
  | .fwStatus p => p.wf
  | .fwViolClear p => p.wf
  | .queueSet p => p.wf
  | .queueStatus p => p.wf
  | .queueFlush p => p.wf
  | .poolStatus p => p.wf
  | .queueBind p => p.wf
  | .flueStatus p => p.wf
  | .flueHistoryRead p => p.wf
  | .lockoutReset p => p.wf
  | .errpinRelease p => p.wf
  | .flueRelease p => p.wf
  | .flueTest p => p.wf
  | .flueEventsRead p => p.wf
  | .flueActive p => p.wf
  | .wdtStatus p => p.wf
  | .pwrStatus p => p.wf
  | .pwrLevel p => p.wf
  | .pwrVote p => p.wf
  | .padRelease p => p.wf
  | .pwrDomainStatus p => p.wf
  | .pwrCountClear p => p.wf
  | .imageStatus p => p.wf
  | .imageStageBegin p => p.wf
  | .imageStageChunk p => p.wf
  | .imageVerify p => p.wf
  | .imageDiscard p => p.wf
  | .imagePersist p => p.wf
  | .cutover p => p.wf
  | .cutoverStatus p => p.wf
  | .attest p => p.wf
  | .expertGrant p => p.wf
  | .grantRelease p => p.wf
  | .expertLogRead p => p.wf
  | .lcNonceGet p => p.wf
  | .lcToken p => p.wf
  | .sessionCfg p => p.wf
  | .sessionOpen p => p.wf
  | .sessionClose p => p.wf
  | .sessionStatus p => p.wf
  | .thmStatus p => p.wf
  | .thmGate p => p.wf
  | .thmForward p => p.wf
  | .thmSlotErase p => p.wf
  | .thmSlotWrite p => p.wf
  | .chimneyStatus p => p.wf
  | .chimneySet p => p.wf
  | .chimneyRetrain p => p.wf
  | .dampStatus p => p.wf
  | .fioStatus p => p.wf
  | .basteStatus p => p.wf
  | .basteResults p => p.wf
  | .basteNow p => p.wf
  | .scanOpen p => p.wf
  | .traceStatus p => p.wf
  | .mspiWriteCmd _ _ bytes => decide (bytes.length ≤ 4096)
  | .mspiReadReply _ => true
  | .mspiReadPoll _ _ _ => true
  | .mspiReadPattern _ _ _ => true
  | .mspiStatus => true
  | .commit _ _ _ => true
  | .commitPoint _ => true
  | .stageDiscard _ _ _ => true
  | .registerWrite _ _ size _ => sizeOk size
  | .pollRefresh => true
  | .laneCmdFence _ _ _ => true
  | .laneCmdRetest _ _ _ => true
  | .arm _ _ _ => true
  | .energise _ _ _ _ => true
  | .deEnergise _ _ _ => true
  | .armExpiry _ => true
  | .damperPeriodBoundary => true
  | .damperMismatch _ _ => true
  | .rbSettleExpiry _ _ => true
  | .faultDetection _ _ _ => true
  | .levelSourceInactive _ => true
  | .reactionComplete => true
  | .intakeTake => true
  | .eventRingEnqueue => true
  | .spillMove _ => true
  | .cfgSweep _ => true
  | .safeExit => true
  | .lockoutRecordWritten => true
  | .quietPeriodExpiry => true
  | .recoveryEntryExpiry _ => true
  | .localQuietExpiry _ => true
  | .errpinHoldExpiry => true
  | .opResetDebounced => true
  | .opResetStuck => true
  | .refclkLoss _ _ => true
  | .wdtKeyWrite _ _ => true
  | .wdtCheckin _ _ => true
  | .windowClose _ => true
  | .hardTimerExpiry _ => true
  | .reqLimitExpiry _ => true
  | .suspensionLimit => true
  | .commitToken _ _ tok => tok.wf
  | .requestToken _ _ tok => tok.wf
  | .stragglerWindowExpiry _ => true
  | .stallMonitorExpiry _ => true
  | .seamCheck _ => true
  | .routedToken _ _ _ _ => true
  | .rethreadComplete _ _ _ => true
  | .rethreadTimerExpiry _ => true
  | .fenceWindowExpiry _ _ => true
  | .stokerRestartComplete => true
  | .interruptEntry _ _ => true
  | .trapEntry _ _ _ _ => true
  | .add _ _ _ _ => true
  | .sub _ _ _ _ => true
  | .and_ _ _ _ _ => true
  | .or_ _ _ _ _ => true
  | .xor _ _ _ _ => true
  | .shl _ _ _ _ => true
  | .shr _ _ _ _ => true
  | .sar _ _ _ _ => true
  | .clt _ _ _ _ => true
  | .cltu _ _ _ _ => true
  | .add32 _ _ _ _ => true
  | .sub32 _ _ _ _ => true
  | .clz _ _ _ => true
  | .popc _ _ _ => true
  | .min_ _ _ _ _ => true
  | .max_ _ _ _ _ => true
  | .minu _ _ _ _ => true
  | .maxu _ _ _ _ => true
  | .andn _ _ _ _ => true
  | .rotr _ _ _ _ => true
  | .mul _ _ _ _ => true
  | .mulhi _ _ _ _ => true
  | .mulhiu _ _ _ _ => true
  | .mac _ _ _ _ => true
  | .divs _ _ _ _ => true
  | .divu _ _ _ _ => true
  | .rems _ _ _ _ => true
  | .remu _ _ _ _ => true
  | .addi _ _ _ _ => true
  | .clti _ _ _ _ => true
  | .cltiu _ _ _ _ => true
  | .andi _ _ _ _ => true
  | .ori _ _ _ _ => true
  | .xori _ _ _ _ => true
  | .shli _ _ _ _ => true
  | .shri _ _ _ _ => true
  | .sari _ _ _ _ => true
  | .rotri _ _ _ _ => true
  | .movhi _ _ _ => true
  | .insh _ _ _ _ => true
  | .inst _ _ _ _ => true
  | .lb _ _ _ _ _ => true
  | .lbu _ _ _ _ _ => true
  | .lh _ _ _ _ _ => true
  | .lhu _ _ _ _ _ => true
  | .lw _ _ _ _ _ => true
  | .lwu _ _ _ _ _ => true
  | .ld _ _ _ _ _ => true
  | .flw _ _ _ _ _ => true
  | .fld _ _ _ _ _ => true
  | .sb _ _ _ _ => true
  | .sh _ _ _ _ => true
  | .sw _ _ _ _ => true
  | .sd _ _ _ _ => true
  | .fsw _ _ _ _ => true
  | .fsd _ _ _ _ => true
  | .atomic _ _ _ _ _ _ => true
  | .beq _ _ _ _ => true
  | .bne _ _ _ _ => true
  | .blt _ _ _ _ => true
  | .bge _ _ _ _ => true
  | .bltu _ _ _ _ => true
  | .bgeu _ _ _ _ => true
  | .j _ _ => true
  | .jal _ _ => true
  | .jalr _ _ _ _ => true
  | .fadd _ _ _ _ _ => true
  | .fsub _ _ _ _ _ => true
  | .fmul _ _ _ _ _ => true
  | .fdiv _ _ _ _ _ => true
  | .fsqrt _ _ _ _ => true
  | .fmin _ _ _ _ _ => true
  | .fmax _ _ _ _ _ => true
  | .fabs _ _ _ _ => true
  | .fneg _ _ _ _ => true
  | .fcopysign _ _ _ _ _ => true
  | .fcmp _ _ _ _ _ _ => true
  | .fkind _ _ _ _ => true
  | .ftoi32 _ _ _ _ => true
  | .ftoi64 _ _ _ _ => true
  | .itof32 _ _ _ _ => true
  | .itof64 _ _ _ _ => true
  | .fnarrow _ _ _ => true
  | .fwiden _ _ _ => true
  | .fmovg _ _ _ _ => true
  | .gmovf _ _ _ _ => true
  | .fma _ _ _ _ _ _ => true
  | .fmaNp _ _ _ _ _ _ => true
  | .fmaNa _ _ _ _ _ _ => true
  | .fmaNpa _ _ _ _ _ _ => true
  | .syncF _ => true
  | .syncC _ => true
  | .syncM _ => true
  | .wait _ => true
  | .coreWake _ => true
  | .trap _ => true
  | .bkpt _ => true
  | .rete _ => true
  | .ctlrd _ _ _ => true
  | .ctlwr _ _ _ => true
  | .intRaise _ _ => true
  | .intPendClear _ _ => true
  | .storeAccept _ _ _ => true
  | .loadResponse _ _ _ _ => true
  | .hobAccess _ waiting => waiting.all HobReq.wf
  | .marchRowStart _ => true
  | .marchRowComplete _ _ => true
  | .hobWake _ => true
  | .hobInject _ _ _ => true
  | .hobCntClear _ _ _ => true
  | .frameBoundary => true
  | .inDeadlineExpiry _ => true
  | .imageChannelComplete _ _ _ => true
  | .bellowsSlot _ _ => true
  | .ctxResume _ _ _ => true
  | .blwInject _ _ _ => true
  | .blwCntClear _ _ _ => true
  | .stepGo _ _ => true
  | .tcmpFire _ => true
  | .syncTimeout => true
  | .dramRead _ _ len => decide (len ≤ 4096)
  | .dramWrite _ _ bytes => decide (bytes.length ≤ 4096)
  | .scrubComplete _ => true
  | .fillComplete _ => true
  | .scrubOverdue => true
  | .retireAdd _ _ => true
  | .memcCntClear _ _ _ => true
  | .deq _ _ _ => true
  | .peek _ _ _ => true
  | .qstat _ _ => true
  | .tryOpen _ _ => true
  | .enq _ _ _ => true
  | .pktOpen _ _ _ => true
  | .pktWord _ _ _ _ => true
  | .pktClose _ _ _ => true
  | .waiterGrant => true
  | .poolWindowAccess _ _ _ => true
  | .bobCntClear _ _ => true
  | .bfifoPointerFault _ => true
  | .basteDue _ => true
  | .deferredSliceStart _ => true
  | .sliceComplete _ _ _ _ => true
  | .bellowsSliceComplete _ _ => true
  | .startupTestComplete _ _ => true
  | .basteOverdue _ _ => true
  | .basteGo _ _ => true
  | .thmReset => true
  | .thmBootComplete _ => true
  | .thmLaneHalt => true
  | .thmHeartbeatTimeout => true
  | .lifecycleSensed => true
  | .sealOpened => true
  | .sealClosed => true
  | .thmSample _ _ => true
  | .pulseEdge _ _ => true
  | .recordSubmit _ _ _ _ => true
  | .signingTimer => true
  | .signingComplete => true
  | .gateNop => true
  | .thmStart _ => true
  | .thmStop _ => true
  | .tare _ => true
  | .zero _ => true
  | .presetTare _ => true
  | .clearTare _ => true
  | .batchOpen _ => true
  | .batchClose _ => true
  | .signNow => true
  | .recordAck => true
  | .replay => true
  | .timeMark => true
  | .paramWrite _ => true
  | .paramCommit _ => true
  | .imageActivate => true
  | .gateAnswer => true
  | .gateTimeout => true
  | .thmRecordForward => true
  | .cutoverArmed => true
  | .cutoverBoundary => true
  | .cutoverSwitch => true
  | .switchDeadlineExpiry => true
  | .cutPass _ _ _ => true
  | .cutoverCheckDeadline => true
  | .cutoverFallback => true
  | .imageVerifyComplete => true
  | .flashOperationComplete _ _ _ => true
  | .grantExpiry _ => true
  | .sessionExpiry _ => true
  | .entropyFail _ => true
  | .domainEntry _ _ => true
  | .domainWake _ => true
  | .voteCmd _ _ => true
  | .padRel _ _ => true
  | .acctClear _ _ => true
  | .avsVdone _ => true
  | .avsAckTimeout _ => true
  | .supplyExcursion _ _ => true
  | .tjReading _ _ => true
  | .dozeWake => true
  | .linkUp _ _ _ => true
  | .linkDown _ => true
  | .retrainTimer _ => true
  | .chimneyFrame _ _ _ => true
  | .timeFrameSend => true
  | .timeFrame _ => true
  | .statusFrameSend => true
  | .statusFrame _ => true
  | .linkDelayMeasure _ _ => true
  | .baseReachTimeout => true
  | .reachTimeout _ => true
  | .retrainUp _ _ => true
  | .retrainDown _ _ => true
  | .windowRequest q => sizeOk q.size
  | .windowResponse _ _ _ => true
  | .hostRead _ _ size => decide (size ≤ 4096)
  | .hostWrite _ _ bytes => decide (bytes.length ≤ 256)
  | .pcieLinkDown => true
  | .pcieLinkUp => true
  | .ethFrameReceive _ f => f.wf
  | .ethFrameTransmit _ => true
  | .ethLinkDown _ => true
  | .canFrameReceive _ f => decide (f.data.length ≤ 64)
  | .canFrameTransmit _ => true
  | .canBusOff _ => true
  | .busOffRecovery _ => true
  | .i2cBusStuck _ => true
  | .gpioEdge _ _ => true
  | .opResetNHigh => true
  | .thmRstNLow => true
  | .thmKernelWatchdog => true
  | .ethLinkUp _ => true
  | .configurationRequest _ _ => true
  | .debugHaltRequest _ => true
  | .debugResume _ => true
  | .debugAccess _ _ => true
  | .attestComplete => true
  | .sessionOpenComplete => true
  | .scanOpenComplete => true
  | .scanInstruction _ => true
  | .dmaChannelComplete _ _ _ => true

end Sys2Proof
end

