-- ==== Sys2Proof/Tests/Slice0.lean ====
section
/-! SUPPORT. Tests of the model: what the operand checks refuse, worked examples of the spec, and states that meet the
hypotheses of the statements. -/

namespace Sys2Proof.Tests

open Sys2Proof.Machine

set_option Elab.async false

/-! The machine after reset. -/

theorem test_reset_hold : State.reset.dev.sys.mode = .hold := by decide
theorem test_no_table_words : decodeTableWord 16 0x1234 = none := rfl

/-! What WellFormed refuses, check by check. -/

/-- `n` bytes 0. -/
def zeros (n : Nat) : List Byte := List.replicate n 0

/-- A lane's commit that keeps every rule. -/
def okCommit : LaneCommit := { pc := 0, event := 0, dest := none, saved := 0, stores := [] }

theorem test_wf_packet : (Instr.nop ⟨.pcie, 0, 0, 0xFF, 0, 0, 0, zeros 4081⟩).wf = false := by decide +kernel
theorem test_wf_reply : (Instr.forwardedReply 1 0 0 true 0 (List.replicate 1021 0)).wf = false := by decide +kernel
theorem test_wf_mspi : (Instr.mspiWriteCmd 16 true (zeros 4097)).wf = false := by decide +kernel
theorem test_wf_register_write : (Instr.registerWrite 0 0x20000000 3 0).wf = false := by decide +kernel
theorem test_wf_commit_event : ({ okCommit with event := 0x40 } : LaneCommit).wf = false := by decide
theorem test_wf_commit_class : ({ okCommit with dest := some (3, 0, 0) } : LaneCommit).wf = false := by decide
theorem test_wf_commit : (Instr.commitToken 0 .a { okCommit with event := 0xFF }).wf = false := by decide
theorem test_wf_request : (Instr.requestToken 0 .a { kind := 3, priv := true, addr := 0, size := 3, tag := 0, opd := 0 }).wf = false := by
  decide
theorem test_wf_hob_size : (Instr.hobAccess 0 [{ master := 0, off := 0, size := 33, op := .read }]).wf = false := by decide
theorem test_wf_hob_bytes : (Instr.hobAccess 0 [{ master := 0, off := 0, size := 4, op := .write (zeros 3) }]).wf = false := by
  decide
theorem test_wf_hob_set : (Instr.hobAccess 0 [{ master := 0, off := 0, size := 3, op := .setBits (zeros 3) }]).wf = false := by
  decide
theorem test_wf_hob_atomic : (Instr.hobAccess 0 [{ master := 0, off := 0, size := 2, op := .atomic 0 0 }]).wf = false := by decide
theorem test_wf_dram_read : (Instr.dramRead 0 0 4097).wf = false := by decide
theorem test_wf_dram_write : (Instr.dramWrite 0 0 (zeros 4097)).wf = false := by decide +kernel
theorem test_wf_window : (Instr.windowRequest ⟨0, 0, 5, none⟩).wf = false := by decide
theorem test_wf_host_read : (Instr.hostRead true 0 4097).wf = false := by decide
theorem test_wf_host_write : (Instr.hostWrite true 0 (zeros 257)).wf = false := by decide +kernel
theorem test_wf_eth_short : (Instr.ethFrameReceive 0 (.other (zeros 59))).wf = false := by decide +kernel
theorem test_wf_eth_udp : (Instr.ethFrameReceive 0 (.udp 0 (zeros 1473))).wf = false := by decide +kernel
theorem test_wf_can : (Instr.canFrameReceive 0 ⟨0, false, true, false, zeros 65⟩).wf = false := by decide +kernel

/-! The words of the worked example of 05_vexku_instructions.md, and words that no row takes. -/

theorem test_word_fld : vexDecode 0x60240000 = some "FLD" ∧ vexD 0x60240000 = 1 ∧ vexA 0x60240000 = 4 := by decide +kernel
theorem test_word_fadd : vexDecode 0xC0611001 = some "FADD" ∧ vexD 0xC0611001 = 3 ∧ vexA 0xC0611001 = 1 ∧ vexB 0xC0611001 = 2 := by
  decide +kernel
theorem test_word_fmul : vexDecode 0xC0635005 = some "FMUL" ∧ vexB 0xC0635005 = 10 := by decide +kernel
theorem test_word_fcmp : vexDecode 0xC1032025 = some "FCMP" ∧ vexD 0xC1032025 = 8 := by decide +kernel
theorem test_word_bne : vexDecode 0x8500000C = some "BNE" ∧ vexD 0x8500000C = 8 ∧ vexA 0x8500000C = 0 := by decide +kernel
theorem test_word_ld : vexDecode 0x59240018 = some "LD" := by decide +kernel
theorem test_word_addi : vexDecode 0x09290001 = some "ADDI" := by decide +kernel
theorem test_word_sd : vexDecode 0x71240018 = some "SD" := by decide +kernel
theorem test_word_zero_illegal : vexDecode 0 = none := by decide +kernel
theorem test_word_ones_illegal : vexDecode 0xFFFFFFFF = none := by decide +kernel
theorem test_rows_apart : (vexRows.Pairwise fun a b => a.meets b = false) := by decide +kernel

/-! Codes: the check values of CRC-32C and SHA-256. -/

theorem test_crc32c : crc32c [0x31, 0x32, 0x33, 0x34, 0x35, 0x36, 0x37, 0x38, 0x39] = 0xE3069283 := by decide +kernel
theorem test_sha256_abc : (sha256 [0x61, 0x62, 0x63]).take 4 = [0xBA, 0x78, 0x16, 0xBF] := by decide +kernel

/-! A machine in RUN: core 0 runs, with its three lanes in its seam, and the Stoker serves. -/

/-- The state after reset with a changed device. -/
def bare (f : Dev → Dev) : State := { State.reset with dev := f State.reset.dev }

/-- The registers of core 0: g1 = 5, g2 = 7, g4 at the hob of hearth 0, f1 = 1.0, f2 = 2.0. -/
def regs : Arch := { g := ⟨[(1, 5), (2, 7), (4, 0x04000100)]⟩, f := ⟨[(1, 0x3FF0000000000000), (2, 0x4000000000000000)]⟩, pc := 0x04000000 }

/-- A running core with these registers. -/
def running : Core := { run := true, arch := regs }

/-- The seam of core 0 in TMR. -/
def tmr : Seam := { mode := .tmr, a := some 0, b := some 1, c := some 2 }

/-- The machine in mode `m`. -/
def live (m : Mode) : State := bare fun d => { d with
  sys := { d.sys with mode := m }, clock := { d.clock with running := true }, stoker := { d.stoker with serving := true }
  cores := ⟨[(0, running)]⟩, seams := ⟨[(0, tmr), (64, tmr)]⟩ }

/-- The state that a command answers. -/
def after (i : Instr) (s : State) : State := match exec i s with | .next t => t | _ => s

/-- Register `r` of core 0. -/
def g0 (s : State) (r : Reg) : Word64 := (archOf s 0).rdG r

theorem test_add : g0 (after (.add 0 3 1 2) (live .run)) 3 = 12 := by decide +kernel
theorem test_add_pc : (archOf (after (.add 0 3 1 2) (live .run)) 0).pc = 0x04000004 := by decide +kernel
theorem test_add_g0_discards : g0 (after (.add 0 0 1 2) (live .run)) 0 = 0 := by decide +kernel
theorem test_sub_wraps : g0 (after (.sub 0 3 1 2) (live .run)) 3 = 0xFFFFFFFFFFFFFFFE := by decide +kernel
theorem test_divu_by_zero : g0 (after (.divu 0 3 1 0) (live .run)) 3 = 0 := by decide +kernel
theorem test_remu_by_zero : g0 (after (.remu 0 3 1 0) (live .run)) 3 = 5 := by decide +kernel
theorem test_addi_negative : g0 (after (.addi 0 3 1 0xFFFF) (live .run)) 3 = 4 := by decide +kernel
theorem test_fadd : (archOf (after (.fadd 0 3 1 2 true) (live .run)) 0).rdF 3 = 0x4008000000000000 := by decide +kernel
theorem test_store_waits : ((after (.sd 0 1 4 0) (live .run)).dev.core 0).sb.length = 1 := by decide +kernel
theorem test_store_not_in_memory : (after (.sd 0 1 4 0) (live .run)).mem = [] := by decide +kernel
theorem test_halted_core_stays : (after (.add 0 3 1 2) (bare id)).dev.cores = ⟨[]⟩ := by decide +kernel

/-- What core 0 makes of the word `v`. -/
def word (v : Word32) : State := match execVexWord 0 v (live .run) with | .next t => t | _ => live .run

theorem test_word_runs_add : vexDecode 0x04611000 = some "ADD" ∧ g0 (word 0x04611000) 3 = 12 := by decide +kernel
theorem test_word_zero_traps : (archOf (word 0) 0).ctl 0 3 = 2 ∧ (archOf (word 0) 0).ctl 0 2 = 0x04000000 := by decide +kernel

/-! Command packets that begin: at the maintenance SPI, with their CRC. -/

/-- The packet of opcode `opc` with these parameters. -/
def pk (opc : Half) (ps : List Byte) : Packet :=
  let p : Packet := ⟨.mspi, 0, BitVec.ofNat 16 ps.length, 0xFF, 0, 0, 0, ps⟩
  { p with crc := crc32c (pktHead p opc ++ ps) }

/-- The packet waits at the maintenance SPI of a machine in mode `m`. -/
def served (m : Mode) (opc : Half) (ps : List Byte) : State :=
  let s := live m
  { s with dev := { s.dev with ports := { s.dev.ports with mspiIn := some (pktBytes (pk opc ps) opc) } } }

/-- What `Begins` asks of a packet at the maintenance SPI, as a check. -/
def begins (s : State) (opc : Nat) (p : Packet) : Bool :=
  let w := (s.world.consume p (BitVec.ofNat 16 opc)).accept p
  let n := (pktBody p).length
  !s.dev.stoker.resetDue && s.world.offers (BitVec.ofNat 16 opc) p && p.src == .mspi &&
  crc32c (pktHead p (BitVec.ofNat 16 opc) ++ p.params.take p.plen.toNat) == p.crc &&
  decide (p.plen.toNat ≤ 4080 ∧ p.plen.toNat ≤ p.params.length) && headerOk (BitVec.ofNat 16 opc) p &&
  (s.dev.cmdSrc (srcKey p)).expect.all (· == p.seq) && p.target == 0xFF &&
  (w.cmdInfo opc).any (fun i => decide (i.minLen ≤ n ∧ n ≤ i.maxLen) && lenRule i.opc n && w.modeOk i) &&
  !s.world.waitsFor s.world.objs s.dev.stoker.pends s.dev.chim.fwdNext opc p

theorem begins_spec (s : State) (opc : Nat) (p : Packet) (h : begins s opc p = true) : ∃ w, Begins s opc p w := by
  simp only [begins, Bool.and_eq_true, Bool.not_eq_true', beq_iff_eq, decide_eq_true_eq, Option.any_eq_true] at h
  obtain ⟨⟨⟨⟨⟨⟨⟨⟨⟨h1, h2⟩, h3⟩, h4⟩, h5⟩, h6⟩, h7⟩, h8⟩, i, hi, ⟨h9, h10⟩, h11⟩, h12⟩ := h
  have he : isEth p = false := by simp [isEth, h3]
  refine ⟨(s.world.consume p (BitVec.ofNat 16 opc)).accept p, ⟨h1, h2, ?_⟩, .inl h8, ⟨i, hi, h9.1, h9.2, h10, h11⟩, h12⟩
  simp only [h3, he, reduceCtorEq, if_false, Bool.false_and, Bool.false_eq_true, false_imp_iff, true_and]
  refine ⟨h4, h5.1, h5.2, h6, fun e x => ?_, trivial⟩
  simpa [x] using h7

/-! States that meet the hypotheses of the statements, clause by clause where the clauses differ. -/

/-- A state with a changed device. -/
def put (s : State) (f : Dev → Dev) : State := { s with dev := f s.dev }

/-- The machine in RUN. -/
abbrev run : State := live .run

/-- `run` with a changed core 0. -/
def core0 (f : Core → Core) : State := put run fun d => d.onCore 0 f

/-- `run` with a changed core 0 in user mode. -/
def user : State := core0 fun q => { q with arch := { q.arch with cr := ⟨[(1, 0)]⟩ } }

/-- A pending load of core 0 from its hob into g7. -/
def waiting : PendLoad := ⟨⟨0x04000100, 8, false, false, 7, none⟩, 0x04000000, regs, [], 0, none, false⟩

/-- A store of core 0 to its hob. -/
def stored : Store := ⟨0x04000100, 5, 8, true, false, false⟩

theorem witness_EveryStepKeepsMemoryCanonical : Memory.wf run.mem = true ∧ ∃ t, step run = .next t :=
  ⟨by decide +kernel, _, rfl⟩
theorem witness_DampersLiveOnlyInRunningModes :
    ∀ n, n < 64 → (State.reset.dev.damper n).st ≠ .live ∧ (State.reset.dev.damper n).st ≠ .starting := by decide +kernel
theorem witness_ResetStateAndIdleStep : State.reset.pending = [] ∧ run.dev.sys.resetArmed = false ∧ run.dev.clock.running = true ∧
    run.dev.regs.val.getD 0x20040038 0 = 0 ∧ run.dev.clock.acc = 0 ∧ State.reset.dev.clock.running = false := by decide +kernel

theorem witness_IntegerResults : Issues run 0 [(false, 31), (false, 0), (false, 31)] := ⟨by decide +kernel, by decide +kernel⟩
theorem witness_BranchAndJumpTargets : Issues run 0 [(false, 0), (false, 31)] ∧ Issues run 0 [] ∧ Issues run 0 [(false, 31)] :=
  ⟨⟨by decide +kernel, by decide +kernel⟩, ⟨by decide +kernel, by decide +kernel⟩, by decide +kernel, by decide +kernel⟩
theorem witness_FloatingPointResults : Issues run 0 [(true, 31), (true, 0), (true, 1), (true, 2)] ∧
    Issues run 0 [(false, 0), (true, 1), (true, 2)] ∧ Issues run 0 [(true, 0), (false, 1)] :=
  ⟨⟨by decide +kernel, by decide +kernel⟩, ⟨by decide +kernel, by decide +kernel⟩, by decide +kernel, by decide +kernel⟩
theorem witness_FkindClassifies : Issues run 0 [(false, 31), (true, 0)] := ⟨by decide +kernel, by decide +kernel⟩

theorem witness_OwnHobLoads : LoadsNow run 0 4 ⟨0x04000100, 8, false, false, 3, none⟩ := by
  unfold LoadsNow LoadIssues Issues Reaches; decide +kernel
theorem witness_LoadsThatWait : LoadIssues run 0 4 ⟨0x04000100, 8, false, false, 3, none⟩ ∧
    run.world.grantedNow 0 ⟨0x04000100, 8, false, false, 3, none⟩ true = false := by
  unfold LoadIssues Issues; decide +kernel
theorem witness_Stores : (Issues run 0 [(false, 1), (false, 4)] ∧ (run.dev.core 0).sb.length + 2 ≤ 8) ∧
    alignOk 0x04000103 8 = true := by unfold Issues; decide +kernel
theorem witness_StoreAccept :
    let s := core0 fun q => { q with sb := [stored] }
    (s.dev.core 0).sb = [stored] ∧ (s.dev.seam 0).storeOpen [stored] = false ∧
    Reaches s.world (coreRid 0 0 true) 0 0x04000100 8 .write := by unfold Reaches; decide +kernel
theorem witness_Atomic : Drained run 0 ∧ (run.dev.core 0).sb = [] ∧ (archOf run 0).mpu 0 true .both 0x04000100 = true ∧
    run.world.grantedNow 0 ⟨0x04000100, 8, false, false, 3, some (1, 7)⟩ false = true ∧
    Reaches run.world (ridOf run 0) 0 0x04000100 8 .atomic := by unfold Drained Reaches; decide +kernel
theorem witness_LoadResponse :
    let s := core0 fun q => { q with pend := [waiting] }
    (s.dev.core 0).pend = [waiting] ∧ (s.dev.core 0).storeAhead 0x04000100 8 = false ∧
    (s.dev.seam 0).requestOpen waiting.op true = false ∧ (s.dev.seam 0).mode ≠ .halted ∧ (s.dev.seam 0).rethread = none ∧
    Reaches s.world (coreRid 0 0 true) 0 0x04000100 8 .read := by unfold Reaches; decide +kernel

theorem witness_SystemInstructions : Drained run 0 ∧ (archOf run 0).priv 0 = true ∧ (archOf run 0).crw.rows = [] ∧
    run.dev.images.cut = none ∧ ctlAssigned 0x41 = true := by unfold Drained; decide +kernel
theorem witness_SyncWithStores :
    let s := core0 fun q => { q with sb := [stored] }
    Drained s 0 ∧ (s.dev.core 0).sb ≠ [] := by unfold Drained; decide +kernel
theorem witness_CoreWake :
    let s := core0 fun q => { q with wait := .wait, ipend := 1, arch := { q.arch with cr := ⟨[(0x40, 1), (1, 3), (0x44, 0xF)]⟩ } }
    (s.dev.core 0).run = true ∧ (s.dev.core 0).wait = .wait ∧ (s.dev.core 0).awaited 0 = true ∧ (s.dev.core 0).dbgReq = false := by
  decide +kernel
theorem witness_Traps : run.world.canEnter 0 = true ∧ (run.dev.core 0).pend = [] ∧ VectorReached run 0 40 ∧ VectorReached run 0 44 :=
  ⟨by decide +kernel, by decide +kernel, ⟨by decide +kernel, by decide +kernel, 0, by unfold Reaches; decide +kernel⟩,
    by decide +kernel, by decide +kernel, 0, by unfold Reaches; decide +kernel⟩
theorem witness_IllegalWord : run.world.canEnter 0 = true ∧ (run.dev.core 0).pend = [] ∧ (run.dev.core 0).wdtTrap = false ∧
    VectorReached run 0 8 ∧ run.dev.images.cut = none ∧ vexDecode 0 = none :=
  ⟨by decide +kernel, by decide +kernel, by decide +kernel,
    ⟨by decide +kernel, by decide +kernel, 0, by unfold Reaches; decide +kernel⟩, by decide +kernel, by decide +kernel⟩
theorem witness_Interrupts :
    let s := core0 fun q => { q with ipend := 1, arch := { q.arch with cr := ⟨[(0x40, 1), (1, 3), (0x44, 0xF)]⟩ } }
    s.world.canEnter 0 = true ∧ (s.dev.core 0).chosen 0 = some 0 ∧ bitAt ((archOf s 0).ctl 0 1) 1 = true ∧ VectorReached s 0 256 :=
  ⟨by decide +kernel, by decide +kernel, by decide +kernel, by decide +kernel, by decide +kernel, 0, by unfold Reaches; decide +kernel⟩
theorem witness_Privilege : Drained user 0 ∧ (archOf user 0).priv 0 = false ∧ user.dev.images.cut = none ∧ VectorReached user 0 12 :=
  ⟨⟨by decide +kernel, by decide +kernel⟩, by decide +kernel, by decide +kernel, by decide +kernel, by decide +kernel, 0,
    by unfold Reaches; decide +kernel⟩

/-- `run` with a watchdog of core 0 that closes at 100 µs and opens at 0, with two tokens. -/
def guarded (r : Word64) (f : Wdt → Wdt) : State :=
  put (core0 fun q => { q with arch := { q.arch with g := ⟨[(1, r)]⟩ } }) fun d => { d with
    wdts := ⟨[(0, f { st := .running, ctl := 0x4200000000064 })]⟩ }

theorem witness_WatchdogKeys : Drained (guarded 0x6B1E id) 0 ∧ (archOf (guarded 0x6B1E id) 0).rdG 1 = 0x6B1E ∧
    ((guarded 0 id).dev.wdt 0).elapsed (guarded 0 id).dev.now < 1000 * ((guarded 0 id).dev.wdt 0).close := by
  unfold Drained; decide +kernel
theorem witness_WatchdogService : ∀ i, i < ((guarded 0 fun x => { x with inn := 3 }).dev.wdt 0).rollN →
    ((guarded 0 fun x => { x with inn := 3 }).dev.wdt 0).inn.getLsbD i = true := by decide +kernel
theorem witness_WatchdogInstants : ((guarded 0 id).dev.wdt 0).st = .running ∧ ((guarded 0 id).dev.wdt 0).paused = none ∧
    ((guarded 0 fun x => { x with hardAt := some 5 }).dev.wdt 0).hardAt = some 5 ∧ (run.dev.wdt 0).st = .off ∧
    run.dev.eraseAt = none := by decide +kernel

theorem witness_DeviceQueriesAnswer : ∃ w, Begins (served .prepare 0x0107 []) 0x0107 (pk 0x0107 []) w :=
  begins_spec _ _ _ (by decide +kernel)
theorem witness_BlockQueriesAnswer : (∃ w, Begins (served .prepare 0x0301 (le 4 16)) 0x0301 (pk 0x0301 (le 4 16)) w) ∧
    ∃ w, Begins (served .run 0x0702 (le 4 32)) 0x0702 (pk 0x0702 (le 4 32)) w :=
  ⟨begins_spec _ _ _ (by decide +kernel), begins_spec _ _ _ (by decide +kernel)⟩
theorem witness_ModeCommands : (∃ w, Begins (served .run 0x0103 []) 0x0103 (pk 0x0103 []) w) ∧
    ∃ w, Begins (served .prepare 0x0101 []) 0x0101 (pk 0x0101 []) w :=
  ⟨begins_spec _ _ _ (by decide +kernel), begins_spec _ _ _ (by decide +kernel)⟩
theorem witness_TransactionCommands : ∃ w, Begins (served .prepare 0x0201 (le 4 2)) 0x0201 (pk 0x0201 (le 4 2)) w :=
  begins_spec _ _ _ (by decide +kernel)
theorem witness_LaneCommands : (∃ w, Begins (served .run 0x0302 (le 4 0)) 0x0302 (pk 0x0302 (le 4 0)) w) ∧
    (∃ w, Begins (served .run 0x0305 (le 4 1)) 0x0305 (pk 0x0305 (le 4 1)) w) ∧
    ((served .run 0x0305 (le 4 1)).dev.seam 1).mode = .halted :=
  ⟨begins_spec _ _ _ (by decide +kernel), begins_spec _ _ _ (by decide +kernel), by decide +kernel⟩
theorem witness_LoopCommands : ∃ w, Begins (served .prepare 0x0403 (le 4 0)) 0x0403 (pk 0x0403 (le 4 0)) w :=
  begins_spec _ _ _ (by decide +kernel)
theorem witness_ContextReads : ∃ v, ReadsCtxs run.world [(0, 0)] v := by
  have h : (match run.world.readCtxs [(0, 0)] (fun x => .fin x 0 []) with | .fin _ 0 [] => true | _ => false) = true := by decide +kernel
  unfold ReadsCtxs
  split at h
  · next v e => exact ⟨v, e⟩
  · cases h
theorem witness_MemoryAndQueueCommands : (∃ w, Begins (served .prepare 0x0605 (le 4 0)) 0x0605 (pk 0x0605 (le 4 0)) w) ∧
    ∃ w, Begins (served .prepare 0x0511 (le 4 16)) 0x0511 (pk 0x0511 (le 4 16)) w :=
  ⟨begins_spec _ _ _ (by decide +kernel), begins_spec _ _ _ (by decide +kernel)⟩
theorem witness_FlueAndPowerCommands : (∃ w, Begins (served .prepare 0x0704 []) 0x0704 (pk 0x0704 []) w) ∧
    (served .prepare 0x0704 []).dev.flue.errPin = true ∧
    ∃ w, Begins (served .prepare 0x0903 (le 4 0x1F0)) 0x0903 (pk 0x0903 (le 4 0x1F0)) w :=
  ⟨begins_spec _ _ _ (by decide +kernel), by decide +kernel, begins_spec _ _ _ (by decide +kernel)⟩
theorem witness_ImageAndLinkCommands : (∃ w, Begins (served .prepare 0x0C02 (le 4 8)) 0x0C02 (pk 0x0C02 (le 4 8)) w) ∧
    (served .prepare 0x0C02 (le 4 8)).dev.isCourse = false :=
  ⟨begins_spec _ _ _ (by decide +kernel), by decide +kernel⟩
theorem witness_KeyAndSessionCommands :
    ∃ w, Begins (served .prepare 0x0A40 (le 4 0x04000001)) 0x0A40 (pk 0x0A40 (le 4 0x04000001)) w :=
  begins_spec _ _ _ (by decide +kernel)

theorem witness_ModeTransition : run.world.dev.bobbin.opens = [] ∧ HeldTold run.world ∧ run.world.dev.sys.resetArmed = false ∧
    PoolTold run.world ∧ run.world.due = [] :=
  ⟨by decide +kernel, .inl (by decide +kernel), by decide +kernel, by unfold PoolTold; decide +kernel, rfl⟩

/-- A machine in KINDLE that has completed the steps of `done`. -/
def kindling (done : List Nat) : State := bare fun d => { d with sys := { d.sys with mode := .kindle, stepsDone := done } }

theorem witness_KindleSteps : (kindling []).world.inStep (kindleStep .selfCheck) = true ∧
    (kindling [1]).world.inStep (kindleStep (.fuses true)) = true ∧
    (kindling [2, 1]).world.inStep (kindleStep (.stoker 0 true 0 0)) = true ∧ ¬ (kindling []).world.inStep (kindleStep .pattern) := by
  decide +kernel

/-- `run` with the PCIe link up. -/
def hosted : State := put run fun d => { d with ports := { d.ports with pcieUp := true } }

theorem witness_HostPages : hosted.world.hostUp = true ∧ hosted.dev.stoker.serving = true ∧ ¬ run.world.hostUp = true ∧
    (hosted.dev.stoker.cmdTail - hosted.dev.stoker.cmdHead).toNat ≤ ((5 : Byte) - hosted.dev.stoker.cmdHead).toNat := by
  decide +kernel
theorem witness_HostRequests : hosted.world.hostUp = true ∧ hosted.dev.sys.mode ≠ .doze ∧ hosted.dev.fifoOpen 0 = true ∧
    hosted.dev.fifoOpen 1 = true ∧ hosted.dev.ports.pcieDead = false := by decide +kernel
theorem witness_MaintenanceSpi : run.dev.sys.mode ≠ .off ∧ run.dev.sys.mode ≠ .hold ∧ run.dev.sys.mode ≠ .doze ∧
    run.dev.fifoOpen 28 = true ∧ run.dev.fifoOpen 29 = true ∧ (State.reset.dev.sys.mode = .hold) := by decide +kernel
theorem witness_WindowsAndForeignPackets : (∃ w, Begins (served .run 0x0107 []) 0x0107 (pk 0x0107 []) w) ∧
    run.world.cmdInfo 0x1234 = none ∧ nthWaiting 0 [] run.dev.stoker.pends = none :=
  ⟨begins_spec _ _ _ (by decide +kernel), by decide +kernel, by decide +kernel⟩

theorem witness_RegisterBlocks : WriteReaches run run.world.stokerRid 2 0 8 1 run.world := by
  unfold WriteReaches; exact ⟨by decide +kernel, by decide +kernel, by decide +kernel, by decide +kernel, .inl ⟨rfl, rfl⟩⟩
theorem witness_RegisterActions : WriteReaches run run.world.stokerRid 16 3 0x12C 0x10 run.world ∧
    WriteReaches run run.world.stokerRid 1 0 0x22C 1 run.world ∧ WriteReaches run run.world.stokerRid 5 0 0x44 1 run.world ∧
    WriteReaches run run.world.stokerRid 10 3 0x5C 1 run.world ∧ WriteReaches run run.world.stokerRid 14 0 0x34 1 run.world ∧
    WriteReaches run run.world.stokerRid 4 0 0x40 1 run.world := by
  unfold WriteReaches
  exact ⟨⟨by decide +kernel, by decide +kernel, by decide +kernel, by decide +kernel, .inl ⟨rfl, rfl⟩⟩,
    ⟨by decide +kernel, by decide +kernel, by decide +kernel, by decide +kernel, .inl ⟨rfl, rfl⟩⟩,
    ⟨by decide +kernel, by decide +kernel, by decide +kernel, by decide +kernel, .inl ⟨rfl, rfl⟩⟩,
    ⟨by decide +kernel, by decide +kernel, by decide +kernel, by decide +kernel, .inl ⟨rfl, rfl⟩⟩,
    ⟨by decide +kernel, by decide +kernel, by decide +kernel, by decide +kernel, .inl ⟨rfl, rfl⟩⟩,
    by decide +kernel, by decide +kernel, by decide +kernel, by decide +kernel, .inl ⟨rfl, rfl⟩⟩
theorem witness_PollPageRefresh : run.dev.sys.mode ≠ .kindle ∧ (run.dev.seam 64).mode ≠ .halted ∧
    run.dev.stoker.restarting = false := by decide +kernel

/-- `run` with the lanes of hearth 0 in state `st`, and this seam of core 0. -/
def lanes (st : LaneSt) (k : Seam) : State := put run fun d => { d with
  lanes := ⟨(List.range 12).map fun l => (l, { st := st })⟩, seams := ⟨[(0, k), (64, tmr)]⟩ }

theorem witness_SeamVote :
    let s := lanes .active tmr
    (s.dev.seam 0).shown ≠ .halted ∧ (s.dev.seam 0).at 0 = some 0 ∧ (s.world.laneAt 0 0).st = .active ∧
    ∀ p ∈ (s.dev.seam 0).commits, ∃ y ∈ p.toks, y.1 = 0 := by decide +kernel
theorem witness_SeamMonitors :
    let p : Pos CommitTok := { toks := [(0, commitToken okCommit), (2, commitToken okCommit)], accepted := some (commitToken okCommit) }
    let s := lanes .active { tmr with commits := [p] }
    (s.dev.seam 0).mode = .tmr ∧ (s.dev.seam 0).at 1 = some 1 ∧ (∀ y ∈ p.toks, y.1 ≠ 1) ∧
    (∀ j, j < 1 → ((s.dev.seam 0).at j).isSome = true → ∃ y ∈ p.toks, y.1 = j) ∧ s.world.seat 0 0 = some (0, 0) := by decide +kernel
theorem witness_Rethreads :
    let s := lanes .active { tmr with mode := .dmr, c := none, rethread := some { lane := 12, slot := 2 } }
    (s.dev.seam 0).rethread = some { lane := 12, slot := 2 } ∧ 12 < lanesOf 0 ∧ (s.dev.seam 0).mode ≠ .halted := by decide +kernel
theorem witness_StokerRestart :
    let s := put run fun d => { d with stoker := { d.stoker with restarting := true } }
    s.dev.stoker.restarting = true ∧ (s.dev.seam 64).mode ≠ .halted := by decide +kernel

theorem witness_TestEnds :
    let s := lanes .basting { tmr with mode := .dmr, c := none }
    (s.dev.lane (laneKey 0 2)).st = .basting ∧ (s.dev.lane (laneKey 0 2)).test ≠ .restart ∧ 2 < lanesOf 0 ∧
    (s.dev.seam (homeCore 0 2)).mode ≠ .halted ∧ homeCore 0 2 = 0 ∧ homeSlot 0 2 = 2 := by decide +kernel
theorem witness_BellowsSlice :
    let s := put run fun d => d.onBu 0 fun b => { b with segs := some 120 }
    (s.dev.bu 0).segs = some 120 := by decide +kernel
theorem witness_StartupTest :
    let s := kindling [3, 4]
    s.dev.sys.mode = .kindle ∧ bitAt s.dev.sys.tested 15 = false ∧ s.dev.sys.kindleErr = 0 ∧ 3 ∈ s.dev.sys.stepsDone := by
  decide +kernel
theorem witness_BastingRotation :
    let s := lanes .active tmr
    bitAt (s.world.reg 14 0 0x24) 0 = true ∧ s.dev.sys.mode.bastes = true ∧ ¬ bitAt State.reset.dev.sys.avail 0 = true ∧
    s.world.pendsOf 0x0E10 0 = [] := by decide +kernel

theorem witness_DamperCommands : WriteReaches run run.world.stokerRid 6 0 0x100 0xD4A70011 run.world ∧
    fld (0xD4A70011 : Word32) 16 16 = 0xD4A7 ∧ (fld (0xD4A70011 : Word32) 0 4).testBit 0 = true :=
  ⟨by unfold WriteReaches; exact ⟨by decide +kernel, by decide +kernel, by decide +kernel, by decide +kernel, .inl ⟨rfl, rfl⟩⟩,
    by decide +kernel, by decide +kernel⟩
theorem witness_DamperInstants :
    let s := put run fun d => { d with dampers := ⟨[(0, { st := .armed, armOk := true }), (1, { st := .live, settling := true })]⟩ }
    (s.dev.damper 0).st = .armed ∧ (∀ j, j < 64 → (s.dev.damper j).st = .armed → (s.dev.damper j).armAt.toNat ≤ 0) ∧
    (s.dev.damper 1).settling = true := by decide +kernel

theorem witness_FaultReactions : (run.world.source 0x240).isSome = true ∧ (run.world.source 0x010).isSome = true ∧
    (run.world.source 0x3FF) = none ∧ run.world.active 0x010 = false ∧ run.dev.images.cut = none ∧
    bitAt (run.world.reg 2 0 0x34) 24 = false := by decide +kernel
theorem witness_FlueRecordPaths :
    let s := put run fun d => { d with flue := { d.flue with fifo := [{}] } }
    (s.dev.flue.srcs.rows.map (·.1)).Pairwise (· < ·) ∧ s.dev.flue.fifo = [{}] ∧ s.dev.stoker.serving = true ∧
    (s.world.deqPacket s.world.stokerRid s.world.evq).1 = none := by decide +kernel
theorem witness_FlueEnds :
    let s := put (live .safe) fun d => { d with flue := { d.flue with srcs := ⟨[(2, { active := true })]⟩, errPin := true } }
    externalSource 2 = true ∧ s.world.active 2 = true ∧ s.dev.sys.mode = .safe ∧ s.dev.flue.driving = false ∧
    s.dev.flue.unconf = [] ∧ s.dev.flue.errPin = true ∧ (∀ n, n < 64 → (s.dev.damper n).st ≠ .fault) := by decide +kernel
theorem witness_OperatorInputAndReferences :
    let s := put run fun d => { d with sys := { d.sys with opReset := true } }
    s.dev.sys.opReset = true ∧ run.dev.sys.opReset = false ∧ run.fuse.variantM = State.reset.fuse.variantM := by decide +kernel

/-- A write of the Stoker to its hob, and a read of another word. -/
def two : List HobReq := [⟨0, 0, 0, 8, .write (zeros 8)⟩, ⟨1, 0, 64, 8, .read⟩]

theorem witness_HobPorts : (∀ x ∈ two, HobReq.valid 0 x = true) ∧ (two.map (·.master)).Nodup ∧ run.dev.flips.rows = [] ∧
    (run.dev.hob 0).power = .awake ∧ (run.dev.hob 0).inject = none ∧ run.dev.sys.mode ≠ .off ∧ ∀ x ∈ two, x.master ≠ 7 := by
  decide +kernel
theorem witness_HobTester :
    let s := put run fun d => d.onHob 0 fun h => { h with owed := 3 }
    HobReq.valid 0 ⟨7, 0, 0, 32, .read⟩ = true ∧ 0 < (s.dev.hob 0).owed := by decide +kernel
theorem witness_DebugPort : run.fuse.lifecycle ≠ 4 ∧ run.fuse.lifecycle ≠ 2 ∧
    Reaches (run.world.wakeDom 240) run.world.debugRid 0 0x04000100 4 .read ∧ (run.dev.core 0).dbg = false := by
  unfold Reaches; decide +kernel
theorem witness_FramesAndCompares :
    let s := put run fun d => { d with regs := { d.regs with val := ⟨[(0x20040020, 1), (0x2004200C, 1)]⟩ } }
    s.dev.clock.running = true ∧ s.dev.images.cut = none ∧ bitAt (s.world.reg 5 0 0x200C) 0 = true := by decide +kernel
theorem witness_BellowsFrames :
    let s := put run fun d => { d with bellows := ⟨[(0, { phase := .slots, todo := [5], chans := ⟨[(0, { running := true })]⟩ })]⟩ }
    (s.dev.blw 0).todo = [5] ∧ (s.dev.blw 0).phase = .slots ∧ ((s.dev.blw 0).chans.getD 0 {}).running = true := by decide +kernel
theorem witness_DramLines :
    let s := put run fun d => { d with dram := { d.dram with job := some ⟨dramBase, 64, none, 0⟩ } }
    (zeros 64).length = 64 ∧ s.dev.dram.job = some ⟨dramBase, 64, none, 0⟩ := by decide +kernel

/-- `run` with queue 5 in this mode. -/
def queued (m : QMode) : State := put run fun d => d.onQueue 5 fun q => { q with cfg := { q.cfg with mode := m, floor := 4, cap := 8 } }

theorem witness_EnqAppends : (queued .word).dev.sys.mode ≠ .off ∧
    (queued .word).world.fwAdmits 3 ((pageAddr 5 0x20 - fwBase 3) / 256) (coreRid 0 0 true) .write = true ∧
    ((queued .word).dev.queue 5).cfg.mode = .word ∧ (queued .word).world.limit 5 1 = none ∧ (queued .word).dev.bobbin.waiters = [] ∧
    bitAt ((queued .word).world.reg 2 0 0x34) 24 = false := by
  decide +kernel
theorem witness_QueuePages : (queued .word).world.fwAdmits 3 ((pageAddr 5 8 - fwBase 3) / 256) (coreRid 0 0 true) .read = true ∧
    (queued .word).world.head 5 = none ∧ (queued .word).dev.bobbin.flips.rows = [] := by decide +kernel

/-- Queue 5 with one word. -/
def filled : State := stateOf (queued .word) ((queued .word).world.enqWord 5 9)

theorem witness_QueueReads : (filled.world.head 5).isSome = true ∧ filled.world.chainOk 5 = true ∧ filled.dev.bobbin.waiters = [] ∧
    filled.dev.bobbin.flips.rows = [] := by decide +kernel
theorem witness_QueuePackets : ((queued .packet).dev.queue 5).cfg.mode = .packet ∧
    (queued .packet).dev.bobbin.openOf (coreRid 0 0 true) 5 = none ∧ (queued .packet).world.limit 5 1 = none ∧
    (queued .packet).world.fwAdmits 3 ((pageAddr 5 0x24 - fwBase 3) / 256) (coreRid 0 0 true) .write = true := by decide +kernel
theorem witness_PacketAndTestRowsComplete :
    let p : OpenPkt := ⟨coreRid 0 0 true, 5, [0], false, 0, false⟩
    let s := put (queued .packet) fun d => { d with bobbin := { d.bobbin with opens := [p] } }
    s.dev.bobbin.openOf (coreRid 0 0 true) 5 = some p ∧ p.len + 1 ≤ 14 * p.cells.length ∧ s.dev.bobbin.waiters = [] ∧ PoolTold s.world := by
  unfold PoolTold; decide +kernel

/-- A KL6430-M in RUN whose Thimble is in this state. -/
def metered (f : Thimble → Thimble) : State :=
  let s := put run fun d => { d with thm := f { d.thm with powered := true, st := .idle } }
  { s with fuse := { s.fuse with variantM := true } }

theorem witness_ThimbleKernel : (metered id).dev.thm.powered = true ∧ (metered id).dev.thm.st ≠ .halted ∧
    (metered fun x => { x with st := .boot }).dev.thm.st = .boot ∧ (metered id).fuse.variantM = true ∧
    (metered id).dev.thm.sealOpen = false ∧ (metered id).dev.thm.pace = (metered id).dev.thm := by decide +kernel
theorem witness_ThimbleRecords :
    let s := metered fun x => { x with unsigned := true, signAt := some 7, fwd := some 5 }
    s.dev.thm.unsigned = true ∧ s.dev.thm.signing = none ∧ s.dev.thm.signAt = some 7 ∧ s.dev.thm.logFull = false ∧ s.dev.thm.replay = none := by
  decide +kernel
theorem witness_GateRequests :
    let g : GateReq := ⟨12, 1, 0, 0, none, true⟩
    let s := metered fun x => { x with gate := some g }
    s.dev.thm.gate = some g ∧ g.code = 12 ∧ g.answer = none ∧ s.dev.thm.logFull = false := by decide +kernel

/-- `run` in CUTOVER of hearth 0. -/
def cutting (c : Cutover) : State := put (live .cutover) fun d => { d with images := { d.images with cut := some c } }

theorem witness_CutoverRuns :
    (cutting { hearths := 1, fc := 0, ready := true, stopped := [0] }).dev.images.cut =
      some { hearths := 1, fc := 0, ready := true, stopped := [0] } ∧
    (∀ k ∈ hearthCores (hearthsOf 1), k ∈ [0] ∨ k ∈ [1, 2, 3]) ∧ (cutting { hearths := 1, fc := 0 }).dev.sys.resetArmed = false ∧
    ((cutting { hearths := 1, fc := 0 }).dev.hob 0).inject = none ∧ (cutting { hearths := 1, fc := 0 }).dev.flips.rows = [] := by
  decide +kernel
theorem witness_ImageAndSessionEnds :
    let s := put run fun d => { d with
      images := { d.images with st := .verifying, sessions := [⟨1, zeros 32, 9, 0, 0⟩] },
      stoker := { d.stoker with grants := [⟨2, 15, none, 9, 3, true⟩] } }
    s.dev.fifoOpen 26 = true ∧ s.dev.fifoOpen 27 = true ∧ s.dev.images.st = .verifying ∧ s.dev.images.session 1 = some ⟨1, zeros 32, 9, 0, 0⟩ ∧
    s.dev.stoker.grants.find? (fun g => g.id == 2) = some ⟨2, 15, none, 9, 3, true⟩ := by decide +kernel

/-- A base whose Downstream port is linked to two courses. -/
def linked : State := put run fun d => { d with chim := { d.chim with
  members := 3, down := { st := .linked }, courses := ⟨[(1, { reach := true })]⟩ } }

theorem witness_ChimneyLinks : (linked.dev.chim.port false).st = .linked ∧ linked.dev.fifoOpen 8 = true ∧
    linked.dev.isCourse = false ∧ (linked.dev.course 1).reach = true ∧ 1 < linked.dev.chim.members.toNat := by decide +kernel
theorem witness_ChimneyWindows : ridPos (coreRid 0 0 true) = linked.dev.chim.pos.toNat ∧ linked.world.reaches 1 = true ∧
    linked.dev.chim.remotes[0]? = none := by decide +kernel
theorem witness_PowerSequences : (run.dev.dom 0).st = .on ∧ run.dev.sys.mode ≠ .off ∧ run.dev.sys.mode ≠ .doze ∧
    run.dev.power.changes.get? 0 = none ∧ (run.dev.dom 0).waits = false := by decide +kernel
theorem witness_FieldPortFrames :
    let s := put run fun d => { d with regs := { d.regs with val := ⟨[(blockBase 7 0 + 0x440, 0x10FFFFFF)]⟩ },
                                       ports := { d.ports with ethUp := 1 } }
    bitAt (s.world.reg 7 0 0x440) 28 = true ∧ bitAt s.dev.ports.ethUp 0 = true ∧ 8 ∉ s.dev.ports.stopped ∧
    s.dev.fifoOpen 2 = true ∧ (s.dev.dom 236).st = .on ∧ (s.dev.dom 236).padHold = false ∧ fld (s.world.reg 7 0 0x440) 0 12 = 0xFFF := by decide +kernel
theorem witness_PositionIsKeptUntilReset : State.reset.dev.sys.mode = .hold ∧ run.dev.sys.mode ≠ .hold ∧
    State.reset.pending = [] ∧ State.reset.dev.sys.resetArmed = false := by decide +kernel
theorem witness_CommandsKeepQueueAndFuses : ∃ t, exec (.pollRefresh) run = .next t := ⟨_, rfl⟩
theorem witness_LifeCycleMovesByTokenOnly : ∃ t, step State.reset = .next t := ⟨_, rfl⟩

end Sys2Proof.Tests
end

section
/-! The class code of FKIND (R144), read off the sign, exponent and fraction fields of the operand's bit pattern. -/

namespace Sys2Proof.Proofs

open Machine Laws

/-- The exponent field of a bit pattern. -/
def expField (F : Fmt) (x : Nat) : Nat := x / 2 ^ F.fr % 2 ^ F.ex

/-- The fraction field of a bit pattern. -/
def fracField (F : Fmt) (x : Nat) : Nat := x % 2 ^ F.fr

/-- The quiet bit of a NaN, the highest bit of its fraction. -/
def quietField (F : Fmt) (x : Nat) : Nat := x / 2 ^ (F.fr - 1) % 2

/-- The sign field of a bit pattern. -/
def signField (F : Fmt) (x : Nat) : Nat := x / 2 ^ (F.fr + F.ex) % 2

/-- The class of R144, from the fields of the bit pattern. -/
def fieldClass (F : Fmt) (x : Nat) : Nat :=
  if expField F x = 0 then (if fracField F x = 0 then 0 else 1)
  else if expField F x = 2 ^ F.ex - 1 then
    (if fracField F x = 0 then 3 else if quietField F x = 1 then 4 else 5)
  else 2

theorem expField_le (F : Fmt) (x : Nat) : expField F x ≤ 2 ^ F.ex - 1 :=
  Nat.le_sub_one_of_lt (Nat.mod_lt _ (by positivity))

theorem mag_div (F : Fmt) (x : Nat) : F.mag x / 2 ^ F.fr = expField F x := by
  rw [Fmt.mag, Fmt.signBit, pow_add, Nat.mod_mul_right_div_self, expField]

theorem mag_mod (F : Fmt) (x : Nat) : F.mag x % 2 ^ F.fr = fracField F x := by
  rw [Fmt.mag, Fmt.signBit, pow_add, Nat.mod_mul_right_mod, fracField]

/-- Below `n` times the implicit bit lie the magnitudes with an exponent field below `n`. -/
theorem mag_lt_mul_iff (F : Fmt) (x n : Nat) : F.mag x < n * 2 ^ F.fr ↔ expField F x < n := by
  rw [← mag_div, Nat.div_lt_iff_lt_mul (by positivity)]

theorem mag_eq_mul_iff (F : Fmt) (x n : Nat) :
    F.mag x = n * 2 ^ F.fr ↔ expField F x = n ∧ fracField F x = 0 := by
  rw [← mag_div, ← mag_mod]
  constructor
  · intro h
    simp [h]
  · rintro ⟨rfl, h⟩
    exact (Nat.div_mul_cancel (Nat.dvd_of_mod_eq_zero h)).symm

theorem isZero_iff (F : Fmt) (x : Nat) : F.isZero x = true ↔ expField F x = 0 ∧ fracField F x = 0 := by
  rw [← mag_eq_mul_iff, Fmt.isZero, beq_iff_eq, Nat.zero_mul]

theorem mag_lt_implicit_iff (F : Fmt) (x : Nat) : F.mag x < 2 ^ F.fr ↔ expField F x = 0 := by
  rw [← Nat.lt_one_iff, ← mag_lt_mul_iff, Nat.one_mul]

theorem isFin_iff (F : Fmt) (x : Nat) : F.isFin x = true ↔ expField F x ≠ 2 ^ F.ex - 1 := by
  rw [Fmt.isFin, decide_eq_true_iff, Fmt.infMag, mag_lt_mul_iff]
  exact (expField_le F x).lt_iff_ne

theorem isInf_iff (F : Fmt) (x : Nat) :
    F.isInf x = true ↔ expField F x = 2 ^ F.ex - 1 ∧ fracField F x = 0 := by
  rw [← mag_eq_mul_iff, Fmt.isInf, beq_iff_eq, Fmt.infMag]

/-- A NaN is what is neither finite nor infinite. -/
theorem isNan_iff (F : Fmt) (x : Nat) :
    F.isNan x = true ↔ expField F x = 2 ^ F.ex - 1 ∧ fracField F x ≠ 0 := by
  have hfin := isFin_iff F x
  have hinf := isInf_iff F x
  simp only [Fmt.isFin, Fmt.isInf, decide_eq_true_iff, beq_iff_eq] at hfin hinf
  rw [Fmt.isNan, decide_eq_true_iff]
  omega

theorem isSnan_iff (F : Fmt) (x : Nat) :
    F.isSnan x = true ↔ (expField F x = 2 ^ F.ex - 1 ∧ fracField F x ≠ 0) ∧ quietField F x ≠ 1 := by
  rw [← isNan_iff, Fmt.isSnan, Bool.and_eq_true, Nat.testBit_eq_decide_div_mod_eq, quietField]
  simp

theorem toNat_sign (F : Fmt) (x : Nat) : (F.sign x).toNat = signField F x := by
  rw [Fmt.sign, Nat.toNat_testBit, signField]

/-- The model's class code is that of the fields, in every format. -/
theorem kind_eq_fieldClass (F : Fmt) (x : Nat) : F.kind x = w64 (fieldClass F x + 8 * signField F x) := by
  simp only [Fmt.kind, fieldClass, toNat_sign, isZero_iff, mag_lt_implicit_iff, isFin_iff, isInf_iff, isSnan_iff]
  by_cases hz : expField F x = 0
  · simp [hz]
  · by_cases hm : expField F x = 2 ^ F.ex - 1
    · have hfull : 2 ^ F.ex - 1 ≠ 0 := hm ▸ hz
      by_cases hf : fracField F x = 0
      · simp [hfull, hm, hf]
      · by_cases hq : quietField F x = 1 <;> simp [hfull, hm, hf, hq]
    · simp [hz, hm]

/-- The fields of a binary32 pattern lie below bit 32, so bits [63:32] do not reach them (R127). -/
theorem f32_fields_mod (v : Nat) :
    expField f32 (v % 2 ^ 32) = expField f32 v ∧ fracField f32 (v % 2 ^ 32) = fracField f32 v ∧
      quietField f32 (v % 2 ^ 32) = quietField f32 v ∧ signField f32 (v % 2 ^ 32) = signField f32 v := by
  simp only [expField, fracField, quietField, signField, f32]
  omega

/-- FKIND's code of a register operand, from the fields of the whole register in either precision. -/
theorem kind_opF (x : Arch) (dbl : Bool) (r : Reg) :
    (fmtOf dbl).kind (x.opF dbl r) =
      w64 (fieldClass (fmtOf dbl) (x.rdF r).toNat + 8 * signField (fmtOf dbl) (x.rdF r).toNat) := by
  rw [kind_eq_fieldClass]
  cases dbl with
  | true => rfl
  | false =>
    obtain ⟨hexp, hfrac, hquiet, hsign⟩ := f32_fields_mod (x.rdF r).toNat
    simp only [fmtOf, Arch.opF, Bool.false_eq_true, if_false, fieldClass, hexp, hfrac, hquiet, hsign]

/-- Settles O45: FKIND writes the class code of its operand, which `kind_opF` reads off the operand's fields. The frame and the
flags left alone come from `opFG_writes`. -/
theorem fkindClassifies : Obligations.FkindClassifies := by
  unfold Obligations.FkindClassifies
  intro s c rd ra dbl v sign ex fr full quiet cls hi
  have hkind : (fmtOf dbl).kind ((archOf s c).opF dbl ra) = w64 (cls + 8 * sign) := by
    rw [kind_opF]
    cases dbl <;> rfl
  rw [← hkind]
  exact opFG_writes s c _ rd [ra] 1 _ hi (by simp)

end Sys2Proof.Proofs
end

section
/-! What a detected event does while the trace stream is off (R293): no register between the blocks DEV and HEARTH_0 changes, and
only the errors of hob bytes (R205) begin to wait. `Steady` says less of both, for it allows the trace stream's own packets,
which the Bobbin may refuse, count and record (R379): with the stream off, the counters of R392 stay too. -/

namespace Sys2Proof.Proofs

open Machine Laws

/-- The sources of the errors of hob bytes (R205). -/
def HobNoted (n : Nat) : Prop := (0x1C0 ≤ n ∧ n < 0x1E0) ∨ n = 0x1F0 ∨ n = 0x1F1

/-- From `w` to `w'` no register between the blocks DEV and HEARTH_0 changes, and the events that have begun to wait are of
hob bytes. -/
structure Untraced (w w' : W) : Prop where
  regs : ∀ a, 0x20010000 ≤ a → a < 0x20100000 → w'.dev.regs.val.get? a = w.dev.regs.val.get? a
  due : ∀ e ∈ w'.due, e ∈ w.due ∨ HobNoted e.1

/-- The trace stream takes no event (R293). -/
def TraceOff (w : W) : Prop := bitAt (w.reg 2 0 0x34) 24 = false

theorem Untraced.refl (w : W) : Untraced w w := ⟨fun _ _ _ => rfl, fun _ h => .inl h⟩

theorem Untraced.trans {a b c : W} (h : Untraced a b) (k : Untraced b c) : Untraced a c :=
  ⟨fun x lo hi => (k.regs x lo hi).trans (h.regs x lo hi), fun e he => (k.due e he).elim (h.due e) .inr⟩

theorem Untraced.upd (w : W) (f : Dev → Dev) (h : (f w.dev).regs = w.dev.regs) : Untraced w (w.upd f) :=
  ⟨fun a _ _ => congrArg (·.val.get? a) h, fun _ h => .inl h⟩

theorem Untraced.ite {a b c : W} (p : Prop) [Decidable p] (h : Untraced a b) (k : Untraced a c) :
    Untraced a (if p then b else c) := by split <;> assumption

theorem Untraced.each {α : Type} (xs : List α) (f : α → W → W) (h : ∀ x w, Untraced w (f x w)) (w : W) :
    Untraced w (w.each xs f) := by
  induction xs generalizing w with
  | nil => exact Untraced.refl w
  | cons x xs ih => exact (h x w).trans (ih (f x w))

theorem Untraced.getD {w w' : W} (h : Untraced w w') (a : Nat) (lo : 0x20010000 ≤ a) (hi : a < 0x20100000) (x : Word32) :
    w'.dev.regs.val.getD a x = w.dev.regs.val.getD a x := by rw [Tbl.getD, Tbl.getD, h.regs a lo hi]

/-- The trace control register is one of those that stay. -/
theorem Untraced.traceOff {w w' : W} (h : Untraced w w') (hoff : TraceOff w) : TraceOff w' := by
  have hreg : w'.reg 2 0 0x34 = w.reg 2 0 0x34 := h.getD 0x20010034 (by decide) (by decide) _
  rw [TraceOff, hreg]
  exact hoff

/-- The counter of misuse is one of those that stay. -/
theorem Untraced.misuseCount {w w' : W} (h : Untraced w w') : w'.reg 8 0 0x54 = w.reg 8 0 0x54 :=
  h.getD 0x20070054 (by decide) (by decide) _

theorem regs_foldl {α : Type} (f : Dev → α → Dev) (h : ∀ d x, (f d x).regs = d.regs) (l : List α) (d : Dev) :
    (l.foldl f d).regs = d.regs := by
  induction l generalizing d with
  | nil => rfl
  | cons a l ih => exact (ih _).trans (h _ _)

/-! The replies and the error pin. -/

theorem untraced_deliver (w : W) (k : Nat) (r : Reply) : Untraced w (w.deliver k r) := by
  refine Untraced.upd _ _ ?_
  dsimp only
  split
  · rfl
  · split <;> rfl

theorem untraced_reply (w : W) (p : Packet) (o : Half) (st : Nat) (f : Bool) (r : List Byte) (s : Bool) :
    Untraced w (w.reply p o st f r s) :=
  (untraced_deliver _ _ _).trans (Untraced.ite _ (Untraced.refl _) (Untraced.upd _ _ rfl))

theorem untraced_finishAll (w : W) (o k st : Nat) (r : List Byte) : Untraced w (w.finishAll o k st r) :=
  Untraced.each _ _ (fun _ w =>
    (Untraced.upd w _ rfl).trans (Untraced.ite _ (untraced_reply _ _ _ _ _ _ _) (Untraced.refl _))) w

theorem untraced_errAssert (w : W) : Untraced w w.errAssert := (Untraced.upd w _ rfl).trans (untraced_finishAll _ _ _ _ _)

theorem untraced_errAuto (w : W) : Untraced w w.errAuto :=
  Untraced.ite _ ((Untraced.upd w _ rfl).trans (untraced_finishAll _ _ _ _ _)) (Untraced.refl w)

/-! A copy between a hob and its SNAP area: what it logs of the bytes is of the hob (R448). -/

theorem untraced_setHobReg (w : W) (u o : Nat) (v : Word32) (ho : o < 0x10000) : Untraced w (w.setHobReg u o v) := by
  have hset : ∀ b, b + o < 0x20010000 ∨ 0x20100000 ≤ b →
      Untraced w (w.upd fun d => { d with regs := { d.regs with val := d.regs.val.set (b + o) v } }) := fun b hb =>
    ⟨fun a lo hi => get_set_ne _ _ _ _ (by omega), fun _ h => .inl h⟩
  unfold W.setHobReg W.setReg
  split
  · exact hset (blockBase 16 u) (.inr (by simp [blockBase]))
  · exact hset (blockBase 1 0) (.inl (by simp [blockBase]; omega))

theorem untraced_hobCount (w : W) (u : Nat) (bad : Bool) (e : Word32) : Untraced w (w.hobCount u bad e) := by
  have hcnt : (if bad then 0x210 else 0x20C) < 0x10000 := by split <;> decide
  exact (((untraced_setHobReg _ _ _ _ hcnt).trans (untraced_setHobReg _ _ _ _ (by decide))).trans
    (untraced_setHobReg _ _ _ _ (by decide))).trans (untraced_setHobReg _ _ _ _ (by decide))

theorem hobSource_hobNoted (k u : Nat) (h : k < 2) : HobNoted (hobSource k u) := by
  unfold HobNoted hobSource
  split <;> omega

theorem untraced_hobLog (w : W) (u a : Nat) (m : Bool) (c : ByteCode) : Untraced w (w.hobLog u a m c).2 := by
  cases c with
  | good b => exact Untraced.refl w
  | fixed b s =>
    simp only [W.hobLog]
    exact (untraced_hobCount _ _ _ _).trans (Untraced.upd _ _ rfl)
  | bad b s => exact untraced_hobCount _ _ _ _

theorem hobLog_hobNoted (w : W) (u a : Nat) (m : Bool) (c : ByteCode) : ∀ x ∈ (w.hobLog u a m c).1, HobNoted x.1 := by
  cases c with
  | good b => exact fun x h => by cases h
  | fixed b s => exact fun x h => by cases h; exact hobSource_hobNoted 0 u (by decide)
  | bad b s => exact fun x h => by cases h; exact hobSource_hobNoted 1 u (by decide)

theorem untraced_put (w : W) (a : Nat) (bs : List Byte) : Untraced w (w.put a bs) := by
  refine (⟨fun _ _ _ => rfl, fun _ h => .inl h⟩ : Untraced w (w.poke a bs)).trans (Untraced.upd _ _ ?_)
  split <;> rfl

theorem untraced_hobInjected (w : W) (u k : Nat) (l : List Nat) : Untraced w (w.hobInjected u k l) := by
  unfold W.hobInjected
  split
  · exact Untraced.ite _ (Untraced.upd _ _ rfl) (Untraced.refl w)
  · exact Untraced.refl w

theorem untraced_copyHob (w : W) (u s d n : Nat) : Untraced w (w.copyHob u s d n) := by
  have hwake : Untraced w (w.wakeHob u) := Untraced.ite _ (Untraced.refl w) (Untraced.upd _ _ rfl)
  unfold W.copyHob
  dsimp only
  refine (hwake.trans (Untraced.ite _ (Untraced.each _ _ (fun i v => ?_) _) (Untraced.refl _))).trans
    ((((untraced_put _ _ _).trans (Untraced.upd _ _ rfl)).trans (Untraced.upd _ _ rfl)).trans (untraced_hobInjected _ _ _ _))
  generalize List.getD _ i (ByteCode.good 0) = c
  have hlog := untraced_hobLog v u (s + i) false c
  refine ⟨hlog.regs, fun e he => ?_⟩
  rcases List.mem_append.mp he with hold | hnew
  · exact hlog.due e hold
  · obtain ⟨x, hx, rfl⟩ := List.mem_map.mp hnew
    exact .inr (hobLog_hobNoted v u (s + i) false c x (Option.mem_toList.mp hx))

theorem untraced_carry (w : W) (h : Nat) (s : Machine.Section) (b : Bool) : Untraced w (w.carry h s b) := by
  have copies : ∀ (l : List (Nat × Nat)) (p : Nat × W), Untraced p.2
      (l.foldl (fun (p : Nat × W) r =>
        let x := hobBase h + r.1
        let y := hobBase h + s.snap + p.1
        (p.1 + r.2, if b then p.2.copyHob h y x r.2 else p.2.copyHob h x y r.2)) p).2 := by
    intro l
    induction l with
    | nil => exact fun p => Untraced.refl p.2
    | cons r l ih =>
      intro p
      refine Untraced.trans ?_ (ih _)
      exact Untraced.ite _ (untraced_copyHob _ _ _ _ _) (untraced_copyHob _ _ _ _ _)
  exact copies _ (0, w)

/-! The end of a cutover, and SAFE. -/

theorem untraced_startCore (w : W) (k : Nat) : Untraced w (w.startCore k) := by
  unfold W.startCore
  split
  · exact Untraced.refl w
  · exact Untraced.ite _ ((Untraced.upd w _ rfl).trans (Untraced.upd _ _ rfl)) (Untraced.upd w _ rfl)

theorem untraced_startCores (w : W) : Untraced w w.startCores :=
  Untraced.each _ _ (fun k w => Untraced.ite _ (untraced_startCore w k) (Untraced.refl w)) w

theorem untraced_cutFail (w : W) (h : Nat) (c : Byte) : Untraced w (w.cutFail h c) := by
  refine Untraced.upd _ _ ?_
  split
  · split
    · exact regs_foldl (fun d h => d.onCutStat h fun s => { s with phase := 3 }) (fun _ _ => rfl) _ _
    · rfl
  · rfl

theorem untraced_endCutover (w : W) (o : Nat) : Untraced w (w.endCutover o) := by
  unfold W.endCutover
  split
  · exact Untraced.refl w
  · exact ((Untraced.upd w _ rfl).trans (Untraced.each _ _ (fun _ _ => Untraced.upd _ _ rfl) _)).trans
      (untraced_finishAll _ _ _ _ _)

theorem untraced_fallbackHearth (w : W) (c : Cutover) (h : Nat) : Untraced w (w.fallbackHearth c h) := by
  unfold W.fallbackHearth
  dsimp only
  split
  · exact (untraced_carry _ _ _ _).trans
      (Untraced.each _ _ (fun _ w => Untraced.ite _ (Untraced.upd _ _ rfl) (Untraced.refl w)) _)
  · exact Untraced.refl w

theorem untraced_fallback (w : W) (o : Nat) : Untraced w (w.fallback o) := by
  unfold W.fallback
  split
  · exact Untraced.refl w
  · exact ((Untraced.each _ _ (fun _ w => untraced_fallbackHearth w _ _) w).trans (untraced_endCutover _ _)).trans
      (Untraced.each _ _ (fun k w => Untraced.ite _ (untraced_startCore w k) (Untraced.refl w)) _)

theorem untraced_cutoverSafe (w : W) : Untraced w w.cutoverSafe.2 := by
  unfold W.cutoverSafe
  split
  · exact Untraced.refl w
  · split
    · split
      · exact untraced_fallback _ _
      · exact untraced_endCutover _ _
    · exact untraced_endCutover _ _

theorem untraced_domainUp (w : W) (n : Nat) : Untraced w (w.domainUp n) := by
  refine Untraced.upd _ _ ?_
  dsimp only
  split <;> rfl

theorem untraced_dozeUp (w : W) : Untraced w w.dozeUp := by
  unfold W.dozeUp
  dsimp only
  refine Untraced.trans (Untraced.upd _ _ ?_)
    (Untraced.each _ _ (fun n w => Untraced.ite _ (Untraced.refl w) (untraced_domainUp w n)) _)
  generalize List.range 17 = hobs
  generalize List.range 64 = cores
  exact (regs_foldl (fun d k => d.onCore k fun x => { x with wait := .awake }) (fun _ _ => rfl) _ _).trans
    (regs_foldl (fun d h => d.onHob h fun x => { x with power := if h = 16 then .awake else .ret55 }) (fun _ _ => rfl) _ _)

theorem untraced_stampMode (w : W) (m : Mode) : Untraced w (w.stampMode m) := Untraced.upd _ _ rfl

theorem untraced_enterSafe (w : W) : Untraced w w.enterSafe.2 := by
  unfold W.enterSafe
  split
  · exact Untraced.refl w
  · dsimp only
    refine Untraced.trans ?_ (untraced_startCores _)
    have hstamp := ((untraced_cutoverSafe w).trans (Untraced.upd _ (fun d => { d with
        sys := { d.sys with dozeArmed := false },
        flue := { d.flue with
          retMode := if w.dev.sys.mode.running then 4 else if w.dev.sys.mode = .quiet then d.flue.retMode else 3,
          tripSet := [] },
        chim := { d.chim with safeMark := d.chim.safeMark || d.chim.pos == 0 },
        stoker := { d.stoker with serving := !d.stoker.restarting } }) rfl)).trans
      (untraced_stampMode _ .safe)
    split
    · exact hstamp.trans (untraced_dozeUp _)
    · exact hstamp

/-! The reactions (R273). -/

theorem untraced_forceCh (w : W) (n : Nat) : Untraced w (w.forceCh n) :=
  Untraced.ite _ (Untraced.refl w) (Untraced.upd _ _ rfl)

theorem untraced_restartOut (w : W) (h : Nat) : Untraced w (w.restartOut h) :=
  Untraced.ite _ (Untraced.refl w) (Untraced.upd _ _ rfl)

theorem untraced_hearthSafe (w : W) (s h : Nat) : Untraced w (w.hearthSafe s h) :=
  ((Untraced.upd w _ rfl).trans (untraced_restartOut _ _)).trans (Untraced.each _ _ (fun _ w => untraced_forceCh w _) _)

theorem untraced_selectGroup (w : W) (s h g : Nat) : Untraced w (w.selectGroup s h g) :=
  ((Untraced.upd w _ rfl).trans (untraced_restartOut _ _)).trans
    (Untraced.each _ _ (fun _ w => Untraced.ite _ (untraced_forceCh w _) (Untraced.refl w)) _)

theorem untraced_deviceSafe (w : W) (s : Nat) : Untraced w (w.deviceSafe s).2 := by
  unfold W.deviceSafe
  dsimp only
  refine Untraced.trans ?_ (Untraced.each _ _ (fun _ w => untraced_forceCh w _) _)
  refine Untraced.trans ?_ (Untraced.each _ _ (fun _ w => untraced_restartOut w _) _)
  refine Untraced.trans (b := (if w.dev.sys.mode.trippable then w.enterSafe else (false, w)).2) ?_ (Untraced.upd _ _ ?_)
  · split
    · exact untraced_enterSafe w
    · exact Untraced.refl w
  · exact regs_foldl (fun d h => d.onBlw h fun b => { b with all := true }) (fun _ _ => rfl) _ _

theorem trace_of_off (w : W) (r : Rec) (hoff : TraceOff w) : w.trace r = w := if_pos (.inl hoff)

/-- The reactions one after the other: the trace stream in their midst is silent. -/
theorem untraced_react (w : W) (s : Nat) (r : Rec) (grp : List Nat) (hoff : TraceOff w) : Untraced w (w.react s r grp).2 := by
  unfold W.react
  extract_lets h history traced cut driving hearth grouped pinned
  have hhistory : Untraced w history := Untraced.ite _ (Untraced.upd _ _ rfl) (Untraced.refl _)
  have htraced : traced = history := trace_of_off history r (hhistory.traceOff hoff)
  have hcut : Untraced traced cut := Untraced.ite _ (untraced_cutFail _ _ _) (Untraced.refl _)
  have hdriving : Untraced cut driving := Untraced.ite _ (Untraced.upd _ _ rfl) (Untraced.refl _)
  have hhearth : Untraced driving hearth := Untraced.ite _ (untraced_hearthSafe _ _ _) (Untraced.refl _)
  have hgrouped : Untraced hearth grouped :=
    Untraced.ite _ (Untraced.each _ _ (fun _ v => untraced_selectGroup v _ _ _) _) (Untraced.refl _)
  have hpinned : Untraced grouped pinned := Untraced.ite _ (untraced_errAssert _) (Untraced.refl _)
  have hbefore := (htraced ▸ hhistory).trans (hcut.trans (hdriving.trans (hhearth.trans (hgrouped.trans hpinned))))
  split
  · exact hbefore.trans (untraced_deviceSafe _ _)
  · split
    · exact hbefore.trans (untraced_enterSafe _)
    · exact hbefore

theorem untraced_noteEvent (w : W) (s : Nat) (l : Bool) (r : Rec) : Untraced w (w.noteEvent s l r) :=
  Untraced.ite _ ((Untraced.upd w _ rfl).trans (Untraced.upd _ _ rfl)) (Untraced.upd w _ rfl)

theorem untraced_event (w : W) (s : Nat) (d0 d1 : Word32) (t : Bool) (grp : List Nat) (hoff : TraceOff w) :
    Untraced w (w.event s d0 d1 t grp).2 := by
  unfold W.event
  split
  · exact Untraced.refl w
  · have hnote := untraced_noteEvent w s
    exact (hnote _ _).trans (untraced_react _ _ _ _ ((hnote _ _).traceOff hoff))

theorem untraced_fellBack (x : Bool × W) (hoff : TraceOff x.2) : Untraced x.2 (W.fellBack x) :=
  Untraced.ite _ (untraced_event _ _ _ _ _ _ hoff) (Untraced.refl _)

theorem untraced_poolCheck (w : W) (hoff : TraceOff w) : Untraced w w.poolCheck :=
  Untraced.ite _ (untraced_event _ _ _ _ _ _ hoff)
    (Untraced.ite _ ((Untraced.upd w _ rfl).trans (untraced_errAuto _)) (Untraced.refl w))

/-! The events that wait (R274). -/

/-- `Untraced`, and the entry of source `n` stays. -/
structure Bypassed (n : Nat) (w w' : W) : Prop extends Untraced w w' where
  src : w'.dev.src n = w.dev.src n

theorem Bypassed.refl (n : Nat) (w : W) : Bypassed n w w := ⟨Untraced.refl w, rfl⟩

theorem Bypassed.trans {n : Nat} {a b c : W} (h : Bypassed n a b) (k : Bypassed n b c) : Bypassed n a c :=
  ⟨h.toUntraced.trans k.toUntraced, k.src.trans h.src⟩

theorem bypassed_fellBack (n : Nat) (x : Bool × W) (hoff : TraceOff x.2) (hn : n ≠ 0x342) : Bypassed n x.2 (W.fellBack x) :=
  ⟨untraced_fellBack x hoff, (spares_fellBack x n hn).1⟩

/-- An event that waits, of another source than `n`. -/
theorem bypassed_detect (n : Nat) (w : W) (e : Nat × Word32 × Word32) (hoff : TraceOff w) (hn : n ≠ 0x342) (he : n ≠ e.1) :
    Bypassed n w (if w.stands e.1 then w else W.fellBack (w.event e.1 e.2.1 e.2.2 false [])) := by
  split
  · exact Bypassed.refl n w
  · have hevent := untraced_event w e.1 e.2.1 e.2.2 false [] hoff
    exact (⟨hevent, src_event_ne _ _ _ _ _ _ _ he⟩ : Bypassed n w _).trans
      (bypassed_fellBack n _ (hevent.traceOff hoff) hn)

/-- Draining the events of hob bytes leaves any other source but CUTOVER_FALLBACK as it is. -/
theorem drainOnce_bypasses (n : Nat) (w : W) (hoff : TraceOff w) (hn : n ≠ 0x342) (hnot : ¬ HobNoted n)
    (hdue : ∀ e ∈ w.due, HobNoted e.1) : Bypassed n w w.drainOnce := by
  have detects : ∀ (es : List (Nat × Word32 × Word32)) (v : W), TraceOff v → (∀ e ∈ es, HobNoted e.1) → Bypassed n v
      (v.each es fun e w => if w.stands e.1 then w else W.fellBack (w.event e.1 e.2.1 e.2.2 false [])) := by
    intro es
    induction es with
    | nil => exact fun v _ _ => Bypassed.refl n v
    | cons e es ih =>
      intro v hv hes
      have hne : n ≠ e.1 := fun c => hnot (c ▸ hes e List.mem_cons_self)
      have hfirst := bypassed_detect n v e hv hn hne
      exact hfirst.trans (ih _ (hfirst.traceOff hv) fun x hx => hes x (List.mem_cons_of_mem _ hx))
  have hempty : Bypassed n w { w with due := [] } := ⟨⟨fun _ _ _ => rfl, fun _ h => by cases h⟩, rfl⟩
  exact hempty.trans (detects w.due { w with due := [] } (hempty.traceOff hoff) hdue)

/-- The world with no event that waits. -/
def noDue (w : W) : W := { w with due := [] }

theorem untraced_noDue (w : W) : Untraced w (noDue w) := ⟨fun _ _ _ => rfl, fun _ h => by cases h⟩

/-- One event that waits and does not stand yet is detected. -/
theorem drainOnce_one (w : W) (n : Nat) (d0 d1 : Word32) (hdue : w.due = [(n, d0, d1)]) (hstands : (noDue w).stands n = false) :
    w.drainOnce = W.fellBack ((noDue w).event n d0 d1 false []) := by
  rw [W.drainOnce, hdue]
  simp only [each_cons, each_nil]
  exact if_neg (by rw [Bool.not_eq_true]; exact hstands)

/-- What settling does where one event waits that is not of a hob and does not stand yet, and the trace stream is off: its
source takes the event, and of the registers between DEV and HEARTH_0 none changes. -/
theorem settle_one (w : W) (n : Nat) (d0 d1 : Word32) (row : SrcRow) (hoff : TraceOff w) (hdue : w.due = [(n, d0, d1)])
    (hrow : (noDue w).source n = some row) (hstands : (noDue w).stands n = false) (hpool : n ≠ 0x2C3) (hfall : n ≠ 0x342)
    (hnot : ¬ HobNoted n) :
    w.settle.dev.src n = (w.dev.src n).after row.level ((noDue w).eventRec n d0 d1 false) ∧ Untraced (noDue w) w.settle := by
  have hvoff := (untraced_noDue w).traceOff hoff
  have hevent := untraced_event (noDue w) n d0 d1 false [] hvoff
  have hfell := bypassed_fellBack n _ (hevent.traceOff hvoff) hfall
  have hdrain := drainOnce_one w n d0 d1 hdue hstands
  have hfirst : Untraced (noDue w) w.drainOnce := hdrain ▸ hevent.trans hfell.toUntraced
  have hfirstOff := hfirst.traceOff hvoff
  have hwaits : ∀ e ∈ w.drainOnce.due, HobNoted e.1 := fun e he => (hfirst.due e he).elim (fun c => by cases c) id
  have hsecond := drainOnce_bypasses n w.drainOnce hfirstOff hfall hnot hwaits
  have hlast := untraced_poolCheck w.drainDue (hsecond.traceOff hfirstOff)
  refine ⟨?_, (hfirst.trans hsecond.toUntraced).trans hlast⟩
  calc w.settle.dev.src n = w.drainOnce.drainOnce.dev.src n := src_poolCheck _ _ hpool
    _ = w.drainOnce.dev.src n := hsecond.src
    _ = ((noDue w).event n d0 d1 false []).2.dev.src n := by rw [hdrain, hfell.src]
    _ = ((noDue w).dev.src n).after row.level ((noDue w).eventRec n d0 d1 false) := by
      rw [src_event (noDue w) n n d0 d1 false [] row hrow, if_pos rfl]

end Sys2Proof.Proofs
end

section
/-! ENQ (R377): what an appended word or packet leaves in its cell and its queue, and how a write of the port page ends. -/

namespace Sys2Proof.Proofs

open Machine Laws

/-! Cells of the pool: a read after a write, and what chaining a cell leaves alone (R368). -/

@[simp] theorem word_setCell_self (w : W) (c i : Nat) (v : Word32) : (w.setCell c i v).dev.bobbin.word c i = v :=
  getD_set_self _ _ _ _

theorem word_setCell_ne (w : W) (c i c' i' : Nat) (v : Word32) (h : 16 * c' + i' ≠ 16 * c + i) :
    (w.setCell c i v).dev.bobbin.word c' i' = w.dev.bobbin.word c' i' := getD_set_ne _ _ _ _ _ h

@[simp] theorem queue_setCell (w : W) (c i : Nat) (v : Word32) (q : Nat) : (w.setCell c i v).dev.queue q = w.dev.queue q := rfl

@[simp] theorem queue_setOwner (w : W) (c : Nat) (o : Option Owner) (q : Nat) :
    (w.onBob fun b => b.setOwner c o).dev.queue q = w.dev.queue q := rfl

@[simp] theorem queue_upd_onQueue (w : W) (q : Nat) (f : Queue → Queue) :
    (w.upd fun d => d.onQueue q f).dev.queue q = f (w.dev.queue q) := queue_onQueue_self _ _ _

@[simp] theorem word_upd_onQueue (w : W) (q : Nat) (f : Queue → Queue) (c i : Nat) :
    (w.upd fun d => d.onQueue q f).dev.bobbin.word c i = w.dev.bobbin.word c i := rfl

@[simp] theorem bobbin_interrupt (w : W) (c k : Nat) : (w.interrupt c k).dev.bobbin = w.dev.bobbin := by
  unfold W.interrupt
  split <;> rfl

theorem bobbin_each {α : Type} (xs : List α) (f : α → W → W) (h : ∀ x w, (f x w).dev.bobbin = w.dev.bobbin) (w : W) :
    (w.each xs f).dev.bobbin = w.dev.bobbin := by
  induction xs generalizing w with
  | nil => rfl
  | cons x xs ih => exact (ih (f x w)).trans (h x w)

/-- A level crossing raises interrupts and changes nothing of the Bobbin (R383). -/
@[simp] theorem bobbin_crossing (w : W) (q : Nat) : (w.crossing q).dev.bobbin = w.dev.bobbin := by
  unfold W.crossing
  refine bobbin_each _ _ (fun c v => bobbin_each _ _ (fun j u => ?_) v) _
  dsimp only
  split
  · exact bobbin_interrupt _ _ _
  · rfl

theorem bobbin_takeCell (w : W) (q : Nat) : (w.takeCell q).2.dev.bobbin =
    ((w.onBob fun b => b.setOwner b.freeCell (some ⟨q, false⟩)).upd fun d =>
      d.onQueue q fun k => { k with occ := k.occ + 1 }).dev.bobbin := by
  unfold W.takeCell
  dsimp only
  split
  · exact bobbin_crossing _ _
  · rfl

@[simp] theorem takeCell_fst (w : W) (q : Nat) : (w.takeCell q).1 = w.dev.bobbin.freeCell := rfl

/-- A granted cell counts to its queue and changes nothing else of it. -/
@[simp] theorem queue_takeCell (w : W) (q : Nat) :
    (w.takeCell q).2.dev.queue q = { w.dev.queue q with occ := (w.dev.queue q).occ + 1 } := by
  rw [Dev.queue, bobbin_takeCell]
  exact queue_upd_onQueue _ _ _

/-- What chaining a cell of `n` words makes of its queue. -/
theorem queue_link (w : W) (q c n : Nat) (f l : Bool) : (w.link q c n f l).dev.queue q =
    { w.dev.queue q with
      ends := some (((w.dev.queue q).ends.map (·.1)).getD c, c)
      words := (w.dev.queue q).words + n, seq := (w.dev.queue q).seq + w32 n } := by
  cases hends : (w.dev.queue q).ends <;>
    simp only [W.link, hends, queue_upd_onQueue, queue_setOwner, queue_setCell, Option.map_none, Option.map_some,
      Option.getD_none, Option.getD_some]

/-- Chaining a cell writes its LINK and its HEADER and the LINK of the old tail, and no other word. -/
theorem word_link (w : W) (q c n : Nat) (f l : Bool) (i : Nat) (h0 : 0 < i) (h16 : i < 16) :
    (w.link q c n f l).dev.bobbin.word c i =
      if i = 1 then cellHeader n f l (w.dev.queue q).seq else w.dev.bobbin.word c i := by
  let v := (w.setCell c 0 0).setCell c 1 (cellHeader n f l (w.dev.queue q).seq)
  have hlinked : (w.link q c n f l).dev.bobbin.word c i = v.dev.bobbin.word c i := by
    unfold W.link
    dsimp only
    rw [word_upd_onQueue]
    split
    · exact word_setCell_ne v _ 0 c i _ (by omega)
    · rfl
  rw [hlinked]
  split
  · next h => subst h; exact word_setCell_self _ _ _ _
  · exact (word_setCell_ne _ c 1 c i _ (by omega)).trans (word_setCell_ne _ c 0 c i _ (by omega))

/-- COUNT, FIRST and LAST of a header (R368). -/
theorem cellHeader_fields (n : Nat) (f l : Bool) (seq : Word32) (hn : n < 16) :
    fld (cellHeader n f l seq) 0 4 = n ∧ bitAt (cellHeader n f l seq) 4 = f ∧ bitAt (cellHeader n f l seq) 5 = l := by
  have hf := f.toNat_le
  have hl := l.toNat_le
  have hval : (cellHeader n f l seq).toNat = n + 16 * f.toNat + 32 * l.toNat + 256 * (seq.toNat % 2 ^ 24) := by
    simp only [cellHeader, w32, BitVec.toNat_ofNat]
    omega
  have hfirst : (cellHeader n f l seq).toNat / 2 ^ 4 % 2 = f.toNat := by omega
  have hlast : (cellHeader n f l seq).toNat / 2 ^ 5 % 2 = l.toNat := by omega
  refine ⟨?_, ?_, ?_⟩
  · rw [fld, Nat.shiftRight_zero]
    omega
  · rw [bitAt, ← BitVec.testBit_toNat, Nat.testBit_eq_decide_div_mod_eq, hfirst]
    simp
  · rw [bitAt, ← BitVec.testBit_toNat, Nat.testBit_eq_decide_div_mod_eq, hlast]
    simp

/-- Writing COUNT leaves what is written in it. -/
theorem fld_setFld_count (v : Word32) (n : Nat) (hn : n < 16) : fld (setFld v 0 4 n) 0 4 = n := by
  have hv := v.isLt
  simp only [fld, setFld, BitVec.toNat_ofNat, Nat.shiftRight_zero]
  omega

/-! A word at the tail of a WORD queue (R377). -/

theorem roomInTail_iff (w : W) (q : Nat) : w.roomInTail q = true ↔
    ∃ h t, (w.dev.queue q).ends = some (h, t) ∧ fld (w.dev.bobbin.word t 1) 0 4 < 14 := by
  unfold W.roomInTail
  cases hends : (w.dev.queue q).ends with
  | none => simp
  | some e => simp [Prod.ext_iff]

/-- The word at COUNT of a tail cell that has room, and COUNT after it. -/
def fillTail (w : W) (q t : Nat) (v : Word32) : W :=
  let n := fld (w.dev.bobbin.word t 1) 0 4
  ((w.setCell t (2 + n) v).setCell t 1 (setFld (w.dev.bobbin.word t 1) 0 4 (n + 1))).upd fun d =>
    d.onQueue q fun k => { k with words := k.words + 1, seq := k.seq + 1 }

theorem enqWord_of_room (w : W) (q : Nat) (v : Word32) (h t : Nat) (hends : (w.dev.queue q).ends = some (h, t))
    (hroom : fld (w.dev.bobbin.word t 1) 0 4 < 14) : w.enqWord q v = fillTail w q t v := by
  simp only [W.enqWord, hends, hroom, if_true, fillTail]

/-- A word without room in the tail goes into a fresh cell. -/
theorem enqWord_of_full (w : W) (q : Nat) (v : Word32) (hfull : w.roomInTail q = false) :
    w.enqWord q v = ((w.takeCell q).2.setCell w.dev.bobbin.freeCell 2 v).link q w.dev.bobbin.freeCell 1 false false := by
  cases hends : (w.dev.queue q).ends with
  | none => simp only [W.enqWord, hends, takeCell_fst]
  | some e =>
    have hcount : ¬ fld (w.dev.bobbin.word e.2 1) 0 4 < 14 := fun c =>
      Bool.false_ne_true (hfull.symm.trans ((roomInTail_iff w q).mpr ⟨e.1, e.2, hends, c⟩))
    simp only [W.enqWord, hends, hcount, if_false, takeCell_fst]

/-- The appended word stands at its place in the tail cell, which is the old tail where that has room. -/
theorem enqWord_tail (w : W) (q : Nat) (v : Word32) :
    ∃ h c n, ((w.enqWord q v).dev.queue q).ends = some (h, c) ∧ fld ((w.enqWord q v).dev.bobbin.word c 1) 0 4 = n + 1 ∧
      n < 14 ∧ (w.enqWord q v).dev.bobbin.word c (2 + n) = v ∧
      (w.roomInTail q = true → (w.dev.queue q).ends.map (·.2) = some c ∧ fld (w.dev.bobbin.word c 1) 0 4 = n) ∧
      (w.roomInTail q = false → n = 0 ∧ c = w.dev.bobbin.freeCell) := by
  cases hroom : w.roomInTail q with
  | true =>
    obtain ⟨h, t, hends, hcount⟩ := (roomInTail_iff w q).mp hroom
    rw [enqWord_of_room w q v h t hends hcount]
    refine ⟨h, t, fld (w.dev.bobbin.word t 1) 0 4, ?_, ?_, hcount, ?_, fun _ => ⟨by rw [hends]; rfl, rfl⟩, nofun⟩
    · rw [fillTail, queue_upd_onQueue]
      exact hends
    · rw [fillTail, word_upd_onQueue, word_setCell_self]
      exact fld_setFld_count _ _ (by omega)
    · rw [fillTail, word_upd_onQueue, word_setCell_ne _ _ _ _ _ _ (by omega), word_setCell_self]
  | false =>
    rw [enqWord_of_full w q v hroom]
    refine ⟨((w.dev.queue q).ends.map (·.1)).getD w.dev.bobbin.freeCell, w.dev.bobbin.freeCell, 0, ?_, ?_, by decide, ?_, nofun,
      fun _ => ⟨rfl, rfl⟩⟩
    · rw [queue_link, queue_setCell, queue_takeCell]
    · rw [word_link _ _ _ _ _ _ 1 (by decide) (by decide)]
      exact (cellHeader_fields 1 false false _ (by decide)).1
    · rw [word_link _ _ _ _ _ _ _ (by decide) (by decide)]
      exact word_setCell_self _ _ _ _

/-- An appended word counts once and takes one number. -/
theorem enqWord_counts (w : W) (q : Nat) (v : Word32) :
    ((w.enqWord q v).dev.queue q).words = (w.dev.queue q).words + 1 ∧
      ((w.enqWord q v).dev.queue q).seq = (w.dev.queue q).seq + 1 := by
  cases hroom : w.roomInTail q with
  | true =>
    obtain ⟨h, t, hends, hcount⟩ := (roomInTail_iff w q).mp hroom
    rw [enqWord_of_room w q v h t hends hcount, fillTail, queue_upd_onQueue]
    exact ⟨rfl, rfl⟩
  | false =>
    rw [enqWord_of_full w q v hroom, queue_link, queue_setCell, queue_takeCell]
    exact ⟨rfl, rfl⟩

/-! A closed packet of one word (R377). -/

theorem enqPacket_eq (w : W) (q : Nat) (v : Word32) : w.enqPacket q v =
    (((w.takeCell q).2.setCell w.dev.bobbin.freeCell 2 1).setCell w.dev.bobbin.freeCell 3 v).link q w.dev.bobbin.freeCell 2
      true true := rfl

theorem enqPacket_tail (w : W) (q : Nat) (v : Word32) :
    ((w.enqPacket q v).dev.queue q).ends.map (·.2) = some w.dev.bobbin.freeCell ∧
      ((w.enqPacket q v).dev.queue q).words = (w.dev.queue q).words + 2 ∧
      ((w.enqPacket q v).dev.queue q).seq = (w.dev.queue q).seq + 2 := by
  rw [enqPacket_eq, queue_link, queue_setCell, queue_setCell, queue_takeCell]
  exact ⟨rfl, rfl, rfl⟩

theorem enqPacket_cell (w : W) (q : Nat) (v : Word32) :
    let b := (w.enqPacket q v).dev.bobbin
    let c := w.dev.bobbin.freeCell
    fld (b.word c 1) 0 4 = 2 ∧ bitAt (b.word c 1) 4 = true ∧ bitAt (b.word c 1) 5 = true ∧ b.word c 2 = 1 ∧ b.word c 3 = v := by
  intro b c
  have hword := word_link (((w.takeCell q).2.setCell c 2 1).setCell c 3 v) q c 2 true true
  have hheader : b.word c 1 = cellHeader 2 true true (w.dev.queue q).seq := by
    refine (hword 1 (by decide) (by decide)).trans ?_
    rw [if_pos rfl, queue_setCell, queue_setCell, queue_takeCell]
  obtain ⟨hcount, hfirst, hlast⟩ := cellHeader_fields 2 true true (w.dev.queue q).seq (by decide)
  rw [hheader]
  refine ⟨hcount, hfirst, hlast, ?_, ?_⟩
  · exact ((hword 2 (by decide) (by decide)).trans (word_setCell_ne _ _ _ _ _ _ (by omega))).trans (word_setCell_self _ _ _ _)
  · exact (hword 3 (by decide) (by decide)).trans (word_setCell_self _ _ _ _)

/-! How the engine takes an ENQ (R372, R377, R384). -/

theorem tryEnq_word (w : W) (m : Rid) (q : Nat) (v : Word32) (hmode : ((w.tailRead m q).dev.queue q).cfg.mode = .word)
    (hb : ((w.tailRead m q).dev.queue q).broken = false)
    (hroom : (w.tailRead m q).roomInTail q = true ∨ (w.tailRead m q).limit q 1 = none) :
    w.tryEnq m q v = some (.done, ((w.tailRead m q).enqWord q v).poolNote m q 0x20) := by
  simp [W.tryEnq, hmode, hb, hroom]

theorem tryEnq_packet (w : W) (m : Rid) (q : Nat) (v : Word32) (hmode : ((w.tailRead m q).dev.queue q).cfg.mode = .packet)
    (hb : ((w.tailRead m q).dev.queue q).broken = false) (hroom : (w.tailRead m q).limit q 1 = none) :
    w.tryEnq m q v = some (.done, ((w.tailRead m q).enqPacket q v).poolNote m q 0x20) := by
  simp [W.tryEnq, hmode, hb, hroom]

theorem tryEnq_misuse (w : W) (m : Rid) (q : Nat) (v : Word32)
    (h : ((w.tailRead m q).dev.queue q).cfg.mode = .disabled ∨ ((w.tailRead m q).dev.queue q).broken = true) :
    w.tryEnq m q v = some ((w.tailRead m q).misuse m q 0x20) := by
  cases hb : ((w.tailRead m q).dev.queue q).broken with
  | true => simp [W.tryEnq, hb]
  | false =>
    have hmode := h.resolve_right (by rw [hb]; exact Bool.false_ne_true)
    simp [W.tryEnq, hb, hmode]

theorem tryEnq_waits (w : W) (m : Rid) (q : Nat) (v : Word32) (hmode : ((w.tailRead m q).dev.queue q).cfg.mode ≠ .disabled)
    (hb : ((w.tailRead m q).dev.queue q).broken = false)
    (hroom : ((w.tailRead m q).dev.queue q).cfg.mode = .word → (w.tailRead m q).roomInTail q = false)
    (hlimit : (w.tailRead m q).limit q 1 ≠ none) : w.tryEnq m q v = none := by
  cases h : ((w.tailRead m q).dev.queue q).cfg.mode with
  | disabled => exact absurd h hmode
  | word => simp [W.tryEnq, h, hb, hroom h, hlimit]
  | packet => simp [W.tryEnq, h, hb, hlimit]

/-! The write of the port page (R373). -/

/-- A write behind an earlier write of its requester waits. -/
theorem enqueue_behind (w : W) (m : Rid) (q off : Nat) (ws : List Word32)
    (h : ∃ y ∈ w.grantWaiters.dev.bobbin.waiters, y.rid = m) :
    w.enqueue m q off ws = W.settled (w.grantWaiters.await ⟨m, q, off, ws, false⟩) := by
  have hany : w.grantWaiters.dev.bobbin.waiters.any (fun y => y.rid == m) = true := by
    simpa only [List.any_eq_true, beq_iff_eq] using h
  simp only [W.enqueue, hany, if_true]

/-- Any other write is tried at once. -/
theorem enqueue_tried (w : W) (m : Rid) (q : Nat) (v : Word32)
    (h : ∀ y ∈ w.grantWaiters.dev.bobbin.waiters, y.rid ≠ m) :
    w.enqueue m q 0x20 [v] =
      W.settled ((w.grantWaiters.tryEnq m q v).getD (w.grantWaiters.await ⟨m, q, 0x20, [v], true⟩)) := by
  have hany : w.grantWaiters.dev.bobbin.waiters.any (fun y => y.rid == m) = false := by
    simpa only [List.any_eq_false, beq_iff_eq] using h
  have htry : w.grantWaiters.tryWaiter ⟨m, q, 0x20, [v], true⟩ = w.grantWaiters.tryEnq m q v := if_pos rfl
  simp only [W.enqueue, hany, htry, Bool.false_eq_true, if_false]
  cases w.grantWaiters.tryEnq m q v <;> rfl

theorem exec_enq_guarded (s : State) (m : Rid) (q : QueueId) (v : Word32) : exec (.enq m q v) s =
    .next (stateOf s (s.world.guarded m 3 (pageAddr q 0x20) 4 .write fun w => w.enqueue m q 0x20 [v])) := rfl

/-- ENQ where unit 3 admits it: the answer follows how the write ended. -/
theorem exec_enq (s : State) (m : Rid) (q : QueueId) (v : Word32) (hmode : s.dev.sys.mode ≠ .off)
    (hfw : s.world.fwAdmits 3 ((pageAddr q 0x20 - fwBase 3) / 256) m .write = true) :
    exec (.enq m q v) s = .next (stateOf s
      ((s.world.enqueue m q 0x20 [v]).2.respond m 4 false (s.world.enqueue m q 0x20 [v]).1)) := by
  have haddr : (BitVec.ofNat 48 (pageAddr q 0x20)).toNat = pageAddr q 0x20 := by
    have hq := q.isLt
    simp only [pageAddr, BitVec.toNat_ofNat]
    omega
  have hpass : s.world.fwCheck 3 (BitVec.ofNat 48 (pageAddr q 0x20)) m .write = (true, s.world) :=
    fwCheck_pass _ _ _ _ _ (by rw [haddr]; exact hfw)
  have hguard : s.world.guarded m 3 (pageAddr q 0x20) 4 .write (fun w => w.enqueue m q 0x20 [v]) =
      (s.world.enqueue m q 0x20 [v]).2.respond m 4 false (s.world.enqueue m q 0x20 [v]).1 := by
    have hon : s.world.dev.sys.mode ≠ .off := hmode
    simp only [W.guarded, W.powered, hon, if_false, hpass, if_true]
    rfl
  rw [exec_enq_guarded, hguard]

/-- The answer to an access to a reserved range (R181): a debug master's write is dropped. -/
def reservedAnswer (m : Rid) : Answer := if ridClass m = 7 then .done else .error 1

/-- A misused page answers an error response, which a core takes as a notice (R175). -/
theorem respond_reserved (w : W) (m : Rid) :
    w.respond m 4 false (.err eReserved) = (w.writeFailed m eReserved).answer (reservedAnswer m) := by
  by_cases h : ridClass m = 7
  · have hcore : w.coreOf m = none := if_neg (by rw [h]; omega)
    simp only [W.respond, refused, h, if_true, Bool.false_eq_true, if_false, W.writeFailed, hcore, reservedAnswer]
  · simp only [W.respond, refused, h, if_false, Bool.not_false, when_true, reservedAnswer]
    rfl

/-! Misuse that nothing waits before (R375, R389). -/

theorem grantWaiters_of_none (w : W) (h : w.dev.bobbin.waiters = []) : w.grantWaiters = w := by
  have hsame : ({ w.dev.bobbin with waiters := [] } : Bobbin) = w.dev.bobbin := by rw [← h]
  simp only [W.grantWaiters, h, W.grantLoop, W.onBob, W.upd, hsame]

theorem tailRead_of_closed (w : W) (m : Rid) (q : Nat)
    (h : (w.dev.queue q).cfg.mode = .disabled ∨ (w.dev.queue q).broken = true) : w.tailRead m q = w := by
  unfold W.tailRead
  split
  · refine if_neg ?_
    rintro ⟨hmode, hb⟩
    rcases h with h | h
    · rw [h] at hmode
      cases hmode
    · rw [h] at hb
      cases hb
  · rfl

/-- QUEUE_MISUSE is a source of every device, and an event source. -/
theorem source_misuse (w : W) : ∃ row, w.source 0x2C0 = some row ∧ row.level = false :=
  ⟨⟨0x2C0, 1, "QUEUE_MISUSE", 0, 1, false, false, 0⟩, rfl, rfl⟩

theorem blockBase_two : blockBase 2 0 = 0x20010000 := rfl
theorem blockBase_eight : blockBase 8 0 = 0x20070000 := rfl

theorem source_congr {w w' : W} (hfuse : w'.fuse = w.fuse) (hchim : w'.dev.chim = w.dev.chim) (n : Nat) :
    w'.source n = w.source n := by
  rw [W.source, W.source, W.srcView, W.srcView, hfuse, hchim]

theorem regRow_congr {w w' : W} (hfuse : w'.fuse = w.fuse) (hchim : w'.dev.chim = w.dev.chim) (typ off : Nat) :
    w'.regRow typ off = w.regRow typ off := by
  unfold W.regRow
  dsimp only
  rw [source_congr hfuse hchim, hchim]

/-- A register reads the same where its value, the fuses and the place in the chimney are the same. -/
theorem reg_congr {w w' : W} (hfuse : w'.fuse = w.fuse) (hchim : w'.dev.chim = w.dev.chim) (typ inst off : Nat)
    (hval : ∀ x, w'.dev.regs.val.getD (blockBase typ inst + off) x = w.dev.regs.val.getD (blockBase typ inst + off) x) :
    w'.reg typ inst off = w.reg typ inst off := by
  rw [W.reg, W.reg, W.regReset, W.regReset, regRow_congr hfuse hchim, hval]

theorem reg_setReg_ne (w : W) (typ inst off typ' inst' off' : Nat) (v : Word32)
    (h : blockBase typ' inst' + off' ≠ blockBase typ inst + off) :
    (w.setReg typ inst off v).reg typ' inst' off' = w.reg typ' inst' off' :=
  reg_congr (w := w) (w' := w.setReg typ inst off v) rfl rfl _ _ _ fun _ => getD_set_ne _ _ _ _ _ h

theorem reg_countReg_self (w : W) (typ inst off k : Nat) :
    (w.countReg typ inst off k).reg typ inst off = satAdd (w.reg typ inst off) k := getD_set_self _ _ _ _

/-- An event that waits changes no register. -/
theorem reg_queueNote (w : W) (n : Nat) (m : Rid) (q o typ inst off : Nat) :
    (w.queueNote n m q o).reg typ inst off = w.reg typ inst off :=
  reg_congr (w := w) (w' := w.queueNote n m q o) rfl rfl _ _ _ fun _ => rfl

theorem reg_noDue (w : W) (typ inst off : Nat) : (noDue w).reg typ inst off = w.reg typ inst off :=
  reg_congr (w := w) (w' := noDue w) rfl rfl _ _ _ fun _ => rfl

theorem ofNat_min_of_le (v : Word32) (h : v.toNat + 1 ≤ 2 ^ 32 - 1) :
    BitVec.ofNat 32 (min (v.toNat + 1) (2 ^ 32 - 1)) = v + 1 := by
  rw [Nat.min_eq_left h, BitVec.ofNat_add, BitVec.ofNat_toNat, BitVec.setWidth_eq]
  rfl

/-- The saturating count by 1. -/
theorem satAdd_one (v : Word32) : satAdd v 1 = satInc v := by
  have hv := v.isLt
  by_cases hmax : v = BitVec.allOnes 32
  · rw [hmax]
    decide
  · have hne : v.toNat ≠ 2 ^ 32 - 1 := fun c => hmax (BitVec.eq_of_toNat_eq (by rw [c, BitVec.toNat_allOnes]))
    rw [satInc, if_neg hmax, satAdd, ofNat_min_of_le v (by omega)]

/-- Misuse is counted and recorded, where no event waits before it and the trace stream is off. -/
theorem settle_misuse (w : W) (m : Rid) (q off : Nat) (hoff : TraceOff w) (hdue : w.due = []) :
    (w.misuse m q off).2.settle.reg 8 0 0x54 = satInc (w.reg 8 0 0x54) ∧
      (w.misuse m q off).2.settle.dev.src 0x2C0 =
        (w.dev.src 0x2C0).after false (w.eventRec 0x2C0 (queueDetail q off) (ridDetail m) false) := by
  let x := (w.countReg 8 0 0x54).queueNote 0x2C0 m q off
  change x.settle.reg 8 0 0x54 = _ ∧ x.settle.dev.src 0x2C0 = _
  obtain ⟨row, hrow, hlevel⟩ := source_misuse (noDue x)
  have hreg : ∀ o, o < 0x10000 → x.reg 2 0 o = w.reg 2 0 o := fun o ho => by
    rw [reg_queueNote, W.countReg, reg_setReg_ne _ _ _ _ _ _ _ _ (by rw [blockBase_two, blockBase_eight]; omega)]
  have hxoff : TraceOff x := by
    rw [TraceOff, hreg _ (by decide)]
    exact hoff
  have hxdue : x.due = [(0x2C0, queueDetail q off, ridDetail m)] := by
    show w.due ++ _ = _
    rw [hdue]
    rfl
  have hstands : (noDue x).stands 0x2C0 = false := by rw [W.stands, hrow, Option.any_some, hlevel, Bool.false_and]
  obtain ⟨hsrc, hkept⟩ := settle_one x 0x2C0 _ _ row hxoff hxdue hrow hstands (by decide) (by decide) (by simp [HobNoted])
  constructor
  · rw [hkept.misuseCount, ← satAdd_one]
    rw [reg_noDue, reg_queueNote, reg_countReg_self]
  · have hcfg : (noDue x).srcCfg 0x2C0 = w.srcCfg 0x2C0 := (reg_noDue _ _ _ _).trans (hreg _ (by decide))
    rw [hsrc, hlevel, W.eventRec, W.sev, W.mask, hcfg]
    rfl

theorem untraced_storeNotice (w : W) (k c : Nat) : Untraced w (w.storeNotice k c) :=
  (Untraced.upd w _ rfl).trans (Untraced.ite _ (Untraced.upd _ _ rfl) (Untraced.refl _))

/-- The notice of a failed write is no event. -/
theorem bypassed_writeFailed (n : Nat) (w : W) (m : Rid) (e : Nat) : Bypassed n w (w.writeFailed m e) := by
  unfold W.writeFailed
  split
  · exact ⟨untraced_storeNotice _ _ _, steady_src (steady_storeNotice _ _ _) n⟩
  · exact Bypassed.refl n w

end Sys2Proof.Proofs
end

section
/-! O34: ENQ (R377), clause by clause. -/

namespace Sys2Proof.Proofs

open Machine Laws

/-- ENQ in OFF meets no answer (R5). -/
theorem enq_off (s : State) (m : Rid) (q : QueueId) (v : Word32) (hoff : s.dev.sys.mode = .off) :
    Answers (.enq m q v) s (Only s · id) := by
  have hguard : s.world.guarded m 3 (pageAddr q 0x20) 4 .write (fun w => w.enqueue m q 0x20 [v]) = s.world := if_pos hoff
  refine ⟨_, exec_enq_guarded s m q v, ?_⟩
  rw [hguard]
  rfl

section
variable {s : State} {m : Rid} {q : QueueId} {v : Word32} (hmode : s.dev.sys.mode ≠ .off)
  (hfw : s.world.fwAdmits 3 ((pageAddr q 0x20 - fwBase 3) / 256) m .write = true)
include hmode hfw

/-- An ENQ that joins the waiters answers nothing yet. -/
theorem enq_awaits (x : Waiter) (h : s.world.enqueue m q 0x20 [v] = W.settled (s.world.grantWaiters.await x)) :
    Answers (.enq m q v) s (Leaves s · fun _ => (s.world.grantWaiters.upd fun d => { d with bobbin := { d.bobbin with
      waiters := d.bobbin.waiters ++ [x] } }).settle) := by
  refine ⟨_, exec_enq s m q v hmode hfw, ?_⟩
  rw [h]
  rfl

/-- An ENQ that is taken answers done. -/
theorem enq_done (x : W) (hfirst : ∀ y ∈ s.world.grantWaiters.dev.bobbin.waiters, y.rid ≠ m)
    (h : s.world.grantWaiters.tryEnq m q v = some (.done, x)) :
    exec (.enq m q v) s = .next (stateOf s (x.settle.answer .done)) := by
  rw [exec_enq s m q v hmode hfw, enqueue_tried _ _ _ _ hfirst, h]
  rfl

/-- An ENQ that meets a limit begins to wait. -/
theorem enq_begins (hfirst : ∀ y ∈ s.world.grantWaiters.dev.bobbin.waiters, y.rid ≠ m)
    (h : s.world.grantWaiters.tryEnq m q v = none) :
    Answers (.enq m q v) s (Leaves s · fun _ => (s.world.grantWaiters.upd fun d => { d with bobbin := { d.bobbin with
      waiters := d.bobbin.waiters ++ [⟨m, q, 0x20, [v], true⟩] } }).settle) :=
  enq_awaits hmode hfw _ (by rw [enqueue_tried _ _ _ _ hfirst, h, Option.getD_none])

/-- A misused ENQ answers as an access to a reserved range. -/
theorem enq_misused (x : W) (hfirst : ∀ y ∈ s.world.grantWaiters.dev.bobbin.waiters, y.rid ≠ m)
    (h : s.world.grantWaiters.tryEnq m q v = some (x.misuse m q 0x20)) :
    exec (.enq m q v) s = .next (stateOf s
      (((x.misuse m q 0x20).2.settle.writeFailed m eReserved).answer (reservedAnswer m))) := by
  rw [exec_enq s m q v hmode hfw, enqueue_tried _ _ _ _ hfirst, h, Option.getD_some]
  exact congrArg (fun w => Host.Outcome.next (stateOf s w)) (respond_reserved _ _)

end

/-- What a misused ENQ leaves in the counter and in its source, where nothing waits before it and the trace stream is off. -/
theorem misused_recorded (s : State) (m : Rid) (q : QueueId) (hoff : bitAt (s.world.reg 2 0 0x34) 24 = false) (a : Answer) :
    let t := stateOf s (((s.world.misuse m q 0x20).2.settle.writeFailed m eReserved).answer a)
    t.world.reg 8 0 0x54 = satInc (s.world.reg 8 0 0x54) ∧
      Detected s t 0x2C0 (queueDetail q 0x20) (ridDetail m) s.dev.clock.tb := by
  intro t
  obtain ⟨hcount, hsrc⟩ := settle_misuse s.world m q 0x20 hoff rfl
  obtain ⟨row, hrow, hlevel⟩ := source_misuse s.world
  have hnotice := bypassed_writeFailed 0x2C0 (s.world.misuse m q 0x20).2.settle m eReserved
  have hleft : Untraced ((s.world.misuse m q 0x20).2.settle.writeFailed m eReserved) t.world :=
    ⟨fun _ _ _ => rfl, fun _ h => by cases h⟩
  refine ⟨?_, row, hrow, ?_⟩
  · rw [hleft.misuseCount, hnotice.misuseCount, hcount]
  · rw [hlevel]
    exact hnotice.src.trans hsrc

/-- Settles O34: the branches of R377, each from the law of `tryEnq` for the queue's mode and room and the law of what the
write leaves. -/
theorem enqAppends : Obligations.EnqAppends := by
  unfold Obligations.EnqAppends
  intro s m q v g e k waits
  refine ⟨enq_off s m q v, fun hmode hfw => ⟨fun hbehind => ?_, fun hfirst => ⟨?_, ?_, ?_, ?_⟩⟩⟩
  · exact enq_awaits hmode hfw _ (enqueue_behind _ _ _ _ _ hbehind)
  · intro hword hb hroom
    refine ⟨_, enq_done hmode hfw _ hfirst (tryEnq_word g m q v hword hb hroom), ?_⟩
    obtain ⟨hwords, hseq⟩ := enqWord_counts e q v
    exact ⟨enqWord_tail e q v, hwords, hseq, rfl⟩
  · intro hpacket hb hroom
    refine ⟨_, enq_done hmode hfw _ hfirst (tryEnq_packet g m q v hpacket hb hroom), ?_⟩
    obtain ⟨htail, hwords, hseq⟩ := enqPacket_tail e q v
    obtain ⟨hcount, hfst, hlst, hlength, hpayload⟩ := enqPacket_cell e q v
    exact ⟨htail, hcount, hfst, hlst, hlength, hpayload, hwords, hseq, rfl⟩
  · intro hclosed
    refine ⟨_, enq_misused hmode hfw e hfirst (tryEnq_misuse g m q v hclosed), rfl, fun hnone hoff hshut => ?_, rfl⟩
    have hg : g = s.world := grantWaiters_of_none s.world hnone
    have he : e = s.world := (congrArg (fun w => W.tailRead w m q) hg).trans (tailRead_of_closed s.world m q hshut)
    rw [he]
    exact misused_recorded s m q hoff _
  · intro hopen hb hroom hlimit
    exact enq_begins hmode hfw hfirst (tryEnq_waits g m q v hopen hb hroom hlimit)

end Sys2Proof.Proofs
end

section
/-! O46: CHIM_POS (R476). `SamePos w w'` says that the world `w'` has the strapped position of `w`. It is kept by
every operation of the model, one lemma for each; the rules here follow the forms that the operations are written in:
an update of the device, a branch, a pair, a walk along a list, a command that ends or goes on. -/

namespace Sys2Proof.Proofs

open Machine Laws

-- One theorem is checked at a time: hundreds at once would need more threads than the memory limit allows.
set_option Elab.async false

/-- The strapped position (R476) of `w'` is that of `w`. -/
@[irreducible] def SamePos (w w' : W) : Prop := w'.dev.chim.pos = w.dev.chim.pos

theorem samePos_iff {w w' : W} : SamePos w w' ↔ w'.dev.chim.pos = w.dev.chim.pos := by rw [SamePos]

/-- A command that ends in `r`, at once or when the work that it leaves goes on, keeps the strapped position of `w`. -/
def ResPos (w : W) : Res → Prop
  | .fin v _ _ => SamePos w v
  | .pend v _ go => SamePos w v ∧ ∀ u, SamePos u (go u)

/-- An action that may not apply keeps the strapped position of `w` where it does. -/
def OptPos (w : W) (r : Option W) : Prop := ∀ v ∈ r, SamePos w v

theorem SamePos.refl {w : W} : SamePos w w := samePos_iff.mpr rfl

theorem SamePos.trans {a b c : W} (h : SamePos a b) (k : SamePos b c) : SamePos a c :=
  samePos_iff.mpr ((samePos_iff.mp k).trans (samePos_iff.mp h))

theorem SamePos.upd {a w : W} {f : Dev → Dev} (h : SamePos a w)
    (k : ∀ d, (f d).chim.pos = d.chim.pos := by exact fun _ => rfl) : SamePos a (w.upd f) :=
  samePos_iff.mpr ((k w.dev).trans (samePos_iff.mp h))

theorem SamePos.onChim {a w : W} {f : Chim → Chim} (h : SamePos a w)
    (k : ∀ c, (f c).pos = c.pos := by exact fun _ => rfl) : SamePos a (w.onChim f) := h.upd fun d => k d.chim

/-- Beside the device nothing of the world matters. -/
theorem SamePos.beside {a w : W} {u : Fuse} {m : Memory} {o : List MemOp} {e : List (Nat × Word32 × Word32)}
    (h : SamePos a w) : SamePos a { fuse := u, base := m, ops := o, dev := w.dev, due := e } := by
  rw [samePos_iff] at h ⊢; exact h

theorem SamePos.ite {a b c : W} {p : Prop} [Decidable p] (h : SamePos a b) (k : SamePos a c) :
    SamePos a (if p then b else c) := by split <;> assumption

theorem SamePos.iteSnd {α : Type} {a : W} {x y : α × W} {p : Prop} [Decidable p] (h : SamePos a x.2)
    (k : SamePos a y.2) :
    SamePos a (if p then x else y).2 := by split <;> assumption

theorem SamePos.pair {α : Type} {w v : W} {a : α} (h : SamePos w v) : SamePos w (a, v).2 := h

/-- The world of a pair that is known. -/
theorem SamePos.snd {α : Type} {w v : W} {p : α × W} {a : α} (h : SamePos w p.2) (e : p = (a, v)) : SamePos w v := by
  rw [e] at h; exact h

theorem SamePos.of_snd {α : Type} {w v : W} {p : α × W} {a : α} (e : p = (a, v)) (h : SamePos w p.2) : SamePos w v :=
  h.snd e

theorem SamePos.each {α : Type} {a w : W} {xs : List α} {f : α → W → W} (h : SamePos a w)
    (k : ∀ x v, SamePos v (f x v)) : SamePos a (w.each xs f) := by
  induction xs generalizing w with
  | nil => exact h
  | cons x xs ih => exact ih (h.trans (k x w))

theorem SamePos.foldl {α : Type} {a w : W} {xs : List α} {f : W → α → W} (h : SamePos a w)
    (k : ∀ v x, SamePos v (f v x)) : SamePos a (xs.foldl f w) := by
  induction xs generalizing w with
  | nil => exact h
  | cons x xs ih => exact ih (h.trans (k w x))

theorem SamePos.foldlSnd {α β : Type} {a : W} {x : α × W} {xs : List β} {f : α × W → β → α × W} (h : SamePos a x.2)
    (k : ∀ x p, SamePos x.2 (f x p).2) : SamePos a (xs.foldl f x).2 := by
  induction xs generalizing x with
  | nil => exact h
  | cons p xs ih => exact ih (h.trans (k x p))

theorem SamePos.steady {a b : W} (h : Steady a b) : SamePos a b :=
  samePos_iff.mpr (congrArg (fun d : Dev => d.chim.pos) h.1 :)

theorem SamePos.kept {a b : W} (h : Kept a b) : SamePos a b :=
  samePos_iff.mpr (congrArg (fun d : Dev => d.chim.pos) h.1 :)

theorem SamePos.res {a b : W} {r : Res} (h : SamePos a b) (k : ResPos b r) : ResPos a r := by
  cases r with
  | fin v s l => exact h.trans k
  | pend v n go => exact ⟨h.trans k.1, k.2⟩

theorem SamePos.opt {a b : W} {r : Option W} (h : SamePos a b) (k : OptPos b r) : OptPos a r :=
  fun v e => h.trans (k v e)

theorem ResPos.fin {w v : W} {n : Nat} {l : List Byte} (h : SamePos w v) : ResPos w (.fin v n l) := h

theorem ResPos.pend {w v : W} {n : Nat} {go : W → W} (h : SamePos w v) (k : ∀ u, SamePos u (go u)) :
    ResPos w (.pend v n go) := ⟨h, k⟩

theorem ResPos.ite {a : W} {r s : Res} {p : Prop} [Decidable p] (h : ResPos a r) (k : ResPos a s) :
    ResPos a (if p then r else s) := by split <;> assumption

theorem OptPos.some {w v : W} (h : SamePos w v) : OptPos w (some v) := by
  intro u e; cases e; exact h

theorem OptPos.none {w : W} : OptPos w none := fun _ e => by cases e

theorem OptPos.ite {a : W} {r s : Option W} {p : Prop} [Decidable p] (h : OptPos a r) (k : OptPos a s) :
    OptPos a (if p then r else s) := by split <;> assumption

/-- `SamePos` of the world of a pair as a predicate of the whole pair, for a pair whose world is costly to compute. -/
@[irreducible] def SndPos {α : Type} (w : W) (p : α × W) : Prop := SamePos w p.2

theorem SndPos.of {α : Type} {w : W} {p : α × W} (h : SamePos w p.2) : SndPos w p := by rw [SndPos]; exact h

theorem SndPos.out {α : Type} {w : W} {p : α × W} (h : SndPos w p) : SamePos w p.2 := by rw [SndPos] at h; exact h

theorem SndPos.congrFun {α β : Type} {w : W} {b : β} {f g : β → α × W} (h : f = g) (k : SndPos w (g b)) :
    SndPos w (f b) :=
  h ▸ k

theorem SndPos.matchBool {α : Type} {w : W} {p : Bool × W} {f g : W → α × W} (hp : SamePos w p.2)
    (hf : ∀ v, SndPos v (f v)) (hg : ∀ v, SndPos v (g v)) :
    SndPos w (match p with | (false, v) => f v | (true, v) => g v) := by
  split
  · exact .of (hp.trans (hf _).out)
  · exact .of (hp.trans (hg _).out)

end Sys2Proof.Proofs
end

section
/-! The strapped position is kept (R476): what the operations below the blocks leave of the strapped position. -/

namespace Sys2Proof.Proofs

open Machine Laws

set_option Elab.async false

variable {w : W}

/-! Shared operations. -/

theorem samePos_wipe {lo n : Nat} : SamePos w (w.wipe lo n) := .beside .refl

theorem samePos_answer {a : Answer} : SamePos w (w.answer a) := .upd .refl

theorem samePos_when {c : Bool} {f : W → W} (hf : ∀ (v : W), SamePos v (f v)) : SamePos w (w.when c f) :=
  .ite (hf _) .refl

theorem samePos_fresh : SamePos w w.fresh.2 := .pair (.upd .refl)

theorem samePos_powered {f : W → W} (hf : ∀ (v : W), SamePos v (f v)) : SamePos w (w.powered f) := .ite .refl (hf _)

/-! The boundary FIFOs (R386). -/

theorem samePos_through {n : Nat} {act : W → W} (hact : ∀ (v : W), SamePos v (act v)) : SamePos w (w.through n act) :=
  .ite (SamePos.refl.upd.trans (hact _)) .refl

/-! The register file (R29). -/

theorem samePos_setReg {typ inst off : Nat} {v : Word32} : SamePos w (w.setReg typ inst off v) := .upd .refl

theorem samePos_setStaged {typ inst off : Nat} {v : Word32} : SamePos w (w.setStaged typ inst off v) :=
  .ite .refl (.upd .refl)

theorem samePos_countReg {typ inst off k : Nat} : SamePos w (w.countReg typ inst off k) := samePos_setReg

theorem samePos_setHobReg {u off : Nat} {v : Word32} : SamePos w (w.setHobReg u off v) :=
  .ite samePos_setReg samePos_setReg

theorem samePos_abortCommit {typ inst : Nat} : SamePos w (w.abortCommit typ inst) := by
  unfold W.abortCommit
  exact .upd .refl

theorem samePos_resetHearthRegs {h : Nat} : SamePos w (w.resetHearthRegs h) :=
  (SamePos.refl.upd.trans samePos_abortCommit).trans samePos_abortCommit

theorem samePos_resetCompares {c : Nat} : SamePos w (w.resetCompares c) :=
  .ite samePos_abortCommit (SamePos.refl.upd.trans samePos_abortCommit |>.trans samePos_abortCommit
    |>.trans samePos_abortCommit)

/-! The Bobbin's pool (R368 to R384). -/

theorem samePos_interrupt {c src : Nat} : SamePos w (w.interrupt c src) := .steady (steady_interrupt _ _ _)

theorem samePos_interruptHearth {h src : Nat} : SamePos w (w.interruptHearth h src) :=
  .each .refl fun _ _ => samePos_interrupt

theorem samePos_queueNote {s : Nat} {m : Rid} {q off : Nat} : SamePos w (w.queueNote s m q off) := .beside .refl

theorem samePos_onBob {f : Bobbin → Bobbin} : SamePos w (w.onBob f) := .upd .refl

theorem samePos_poolPut {o : Nat} {bs : List Byte} : SamePos w (w.poolPut o bs) := samePos_onBob

theorem samePos_poolFlip {a : Nat} {x : BitVec 13} : SamePos w (w.poolFlip a x) := samePos_onBob

theorem samePos_mendByte {m : Rid} {q off a : Nat} : SamePos w (w.mendByte m q off a) :=
  .steady (steady_mendByte _ _ _ _ _)

theorem samePos_breakQueue {m : Rid} {q off : Nat} : SamePos w (w.breakQueue m q off) :=
  .steady (steady_breakQueue _ _ _ _)

theorem samePos_readCell {m : Rid} {q off c : Nat} : SamePos w (w.readCell m q off c) :=
  .steady (steady_readCell _ _ _ _ _)

theorem samePos_freeCell {q c : Nat} : SamePos w (w.freeCell q c) := .steady (steady_freeCell _ _ _)

theorem samePos_openPkt {m : Rid} {q n : Nat} {tried : Bool} : SamePos w (w.openPkt m q n tried) :=
  .steady (steady_openPkt _ _ _ _ _)

theorem samePos_deqWord {q : Nat} : SamePos w (w.deqWord q) := by
  unfold W.deqWord
  split
  · exact .refl
  · exact .ite (.upd .refl) samePos_freeCell.upd

theorem samePos_cellRead {m : Rid} {q off : Nat} : SamePos w (w.cellRead m q off).2 := by
  unfold W.cellRead
  split
  · exact samePos_readCell.trans (.iteSnd .refl (.iteSnd (.pair samePos_breakQueue) (.iteSnd
        (.pair samePos_queueNote) .refl)))
  · exact .refl

theorem samePos_deqMany {m : Rid} {q n : Nat} : SamePos w (w.deqMany m q n).2 := by
  induction n generalizing w with
  | zero => exact .refl
  | succ n ih =>
    unfold W.deqMany
    dsimp only
    split
    · exact samePos_cellRead
    · exact (samePos_cellRead.trans samePos_deqWord).trans ih

theorem samePos_deqPacket {m : Rid} {q : Nat} : SamePos w (w.deqPacket m q).2 := by
  unfold W.deqPacket
  dsimp only
  split
  · exact .pair samePos_cellRead
  · exact .pair ((samePos_cellRead.trans samePos_deqWord).trans samePos_deqMany)

theorem samePos_flushQueue {q : Nat} : SamePos w (w.flushQueue q).2 :=
  (samePos_onBob.each fun _ _ => samePos_freeCell).trans (.pair (.upd .refl))

/-! The Acaeder image (R438, R439). -/

theorem samePos_put {a : Nat} {bs : List Byte} : SamePos w (w.put a bs) := .steady (steady_put _ _ _)

theorem samePos_clearHob {lo n : Nat} : SamePos w (w.clearHob lo n) := samePos_wipe.upd

/-! The cells of the hobs (R195, R196). -/

theorem samePos_granted {u k : Nat} : SamePos w (w.granted u k) := .steady (steady_granted _ _ _)

theorem samePos_hobCount {u : Nat} {bad : Bool} {e : Word32} : SamePos w (w.hobCount u bad e) :=
  .steady (steady_hobCount _ _ _ _)

theorem samePos_hobLog {u a : Nat} {march : Bool} {c : ByteCode} : SamePos w (w.hobLog u a march c).2 := by
  unfold W.hobLog
  split
  · exact .refl
  · exact .pair samePos_hobCount.upd
  · exact .pair samePos_hobCount

theorem samePos_freshCode {a : Nat} : SamePos w (w.freshCode a) := by
  unfold W.freshCode
  split
  · exact samePos_put
  · exact .refl

theorem samePos_wakeHob {u : Nat} : SamePos w (w.wakeHob u) := .steady (steady_wakeHob _ _)

theorem samePos_hobInjected {u k : Nat} {as : List Nat} : SamePos w (w.hobInjected u k as) :=
  .steady (steady_hobInjected _ _ _ _)

theorem samePos_hobWriteParts {u k : Nat} {ps : List (Nat × List Byte)} : SamePos w (w.hobWriteParts u k ps) :=
  samePos_wakeHob.trans samePos_granted |>.each (fun _ _ => samePos_put) |>.trans samePos_hobInjected

theorem samePos_hobWrite {u k a : Nat} {bs : List Byte} : SamePos w (w.hobWrite u k a bs) := samePos_hobWriteParts

theorem samePos_hobWrites {u k a : Nat} {bs : List Byte} : SamePos w (w.hobWrites u k a bs) :=
  samePos_hobWrite.trans samePos_put

/-! The cores (R129, R152, R161). -/

theorem samePos_startCore {k : Nat} : SamePos w (w.startCore k) := by
  unfold W.startCore
  split
  · exact .refl
  · exact SamePos.refl.upd.trans (.ite (.upd .refl) .refl)

theorem samePos_clearCore {k : Nat} : SamePos w (w.clearCore k) := by
  unfold W.clearCore
  exact samePos_resetCompares.upd

theorem samePos_carry {h : Nat} {s : Section} {back : Bool} : SamePos w (w.carry h s back) :=
  .steady (steady_carry _ _ _ _)

/-! Replies (R67, R69, R71). -/

theorem samePos_deliver {k : Nat} {r : Reply} : SamePos w (w.deliver k r) := .steady (steady_deliver _ _ _)

theorem samePos_store {k : Nat} {r : Reply} : SamePos w (w.store k r) := .upd .refl

theorem samePos_reply {p : Packet} {opc : Half} {status : Nat} {final : Bool} {result : List Byte} {stale : Bool} :
    SamePos w (w.reply p opc status final result stale) :=
  .steady (steady_reply _ _ _ _ _ _ _)

theorem samePos_dropPend {p : Pend} : SamePos w (w.dropPend p) := .upd .refl

theorem samePos_finish {p : Pend} {status : Nat} {result : List Byte} : SamePos w (w.finish p status result) :=
  .steady (steady_finish _ _ _ _)

theorem samePos_finishAll {opc key status : Nat} {result : List Byte} :
    SamePos w (w.finishAll opc key status result) :=
  .steady (steady_finishAll _ _ _ _ _)

theorem samePos_setRunning {p : Pend} {key : Nat} : SamePos w (w.setRunning p key) := .upd .refl

/-! Power domains (R459, R462, R470). -/

theorem samePos_domainUp {n : Nat} : SamePos w (w.domainUp n) := .steady (steady_domainUp _ _)

theorem samePos_wakeDom {n : Nat} : SamePos w (w.wakeDom n) := .ite .refl samePos_domainUp

theorem samePos_wakeAt {a : Nat} : SamePos w (w.wakeAt a) := by
  unfold W.wakeAt
  split
  · exact samePos_wakeDom
  · exact .refl

theorem samePos_wakeLanes {k : Nat} : SamePos w (w.wakeLanes k) := .each .refl fun _ _ => samePos_wakeDom

theorem samePos_latchPads : SamePos w w.latchPads := .ite .refl (.upd .refl)

theorem samePos_dozeUp : SamePos w w.dozeUp := .steady (steady_dozeUp _)

/-! The Bobbin's engine (R372, R384). -/

theorem samePos_storeNotice {k cause : Nat} : SamePos w (w.storeNotice k cause) := .steady (steady_storeNotice _ _ _)

theorem samePos_writeFailed {m : Rid} {e : Nat} : SamePos w (w.writeFailed m e) := by
  unfold W.writeFailed
  split
  · exact samePos_storeNotice
  · exact .refl

theorem samePos_misuse {m : Rid} {q off : Nat} : SamePos w (w.misuse m q off).2 := .steady (steady_misuse _ _ _ _)

theorem samePos_poolNote {m : Rid} {q off : Nat} : SamePos w (w.poolNote m q off) := .steady (steady_poolNote _ _ _ _)

theorem samePos_abortOpen {p : OpenPkt} {off : Nat} : SamePos w (w.abortOpen p off) :=
  .steady (steady_abortOpen _ _ _)

theorem samePos_grantWaiters : SamePos w w.grantWaiters := .steady (steady_grantWaiters _)

theorem samePos_tryRefused {m : Rid} {q : Nat} : SamePos w (w.tryRefused m q) := .steady (steady_tryRefused _ _ _)

theorem samePos_tryPacket {m : Rid} {q : Nat} {ws : List Word32} : SamePos w (w.tryPacket m q ws).2 :=
  .steady (steady_tryPacket _ _ _ _)

end Sys2Proof.Proofs
end

section
/-! The strapped position is kept (R476): the Flue, the modes, the memories and the gate. -/

namespace Sys2Proof.Proofs

open Machine Laws

set_option Elab.async false

variable {w : W}

/-! The Flue (R271 to R276, R289 to R293). -/

theorem samePos_forceCh {n : Nat} : SamePos w (w.forceCh n) := .steady (steady_forceCh _ _)

theorem samePos_safeCh {n : Nat} : SamePos w (w.safeCh n) := .upd .refl

theorem samePos_releaseChs : SamePos w w.releaseChs := .each .refl fun _ _ => .ite (.upd .refl) .refl

theorem samePos_history {r : Rec} : SamePos w (w.history r) := .steady (steady_history _ _)

theorem samePos_errAssert : SamePos w w.errAssert := .steady (steady_errAssert _)

theorem samePos_errRelease : SamePos w w.errRelease := .steady (steady_errRelease _)

theorem samePos_errAuto : SamePos w w.errAuto := .steady (steady_errAuto _)

theorem samePos_stampMode {m : Mode} : SamePos w (w.stampMode m) := .steady (steady_stampMode _ _)

theorem samePos_startCores : SamePos w w.startCores := .steady (steady_startCores _)

theorem samePos_cutFail {h : Nat} {cause : Byte} : SamePos w (w.cutFail h cause) := .steady (steady_cutFail _ _ _)

theorem samePos_endCutover {outcome : Nat} : SamePos w (w.endCutover outcome) := .steady (steady_endCutover _ _)

theorem samePos_fallback {outcome : Nat} : SamePos w (w.fallback outcome) := .steady (steady_fallback _ _)

theorem samePos_selectGroup {s h g : Nat} : SamePos w (w.selectGroup s h g) := .steady (steady_selectGroup _ _ _ _)

theorem samePos_deviceSafe {s : Nat} : SamePos w (w.deviceSafe s).2 := .steady (steady_deviceSafe _ _)

theorem samePos_noteEvent {s : Nat} {level : Bool} {r : Rec} : SamePos w (w.noteEvent s level r) :=
  .kept (kept_noteEvent _ _ _ _)

theorem samePos_startDriving : SamePos w w.startDriving := .upd .refl

theorem samePos_react {s : Nat} {r : Rec} {grp : List Nat} : SamePos w (w.react s r grp).2 :=
  .steady (steady_react _ _ _ _)

theorem samePos_poolCheck : SamePos w w.poolCheck := .kept (kept_poolCheck _)

theorem samePos_drainOnce : SamePos w w.drainOnce := .kept (kept_drainOnce _)

theorem samePos_drainDue : SamePos w w.drainDue := samePos_drainOnce.trans samePos_drainOnce

theorem samePos_settle : SamePos w w.settle := .kept (kept_settle _)

theorem samePos_followUp {x : Bool × W} : SamePos x.2 (W.followUp x) := .kept (kept_followUp _)

theorem samePos_raise {s : Nat} {d0 d1 : Word32} {test : Bool} {grp : List Nat} :
    SamePos w (w.raise s d0 d1 test grp) :=
  .kept (kept_raise _ _ _ _ _ _)

theorem samePos_raiseTwo {a b : Nat} {da db : Word32} : SamePos w (w.raiseTwo a b da db) := by
  have one (x : Bool × W) (s : Nat) (r : Rec) : SamePos x.2 (if x.2.stands s then x
      else let y := (x.2.noteEvent s ((x.2.source s).any (·.level)) r).react s r []; (x.1 || y.1, y.2)).2 :=
    .iteSnd .refl (.pair (samePos_noteEvent.trans samePos_react))
  exact one (false, w) a _ |>.trans (one _ b _) |>.trans samePos_followUp

theorem samePos_hwForce {s : Nat} : SamePos w (w.hwForce s) :=
  SamePos.refl.upd.trans samePos_startDriving |>.trans samePos_errAssert |>.trans samePos_deviceSafe
    |>.trans samePos_followUp

theorem samePos_internal : SamePos w w.internal := samePos_raise

theorem samePos_level {s : Nat} {d0 d1 : Word32} : SamePos w (w.level s d0 d1) := .ite .refl samePos_raise

theorem samePos_inactive {s : Nat} : SamePos w (w.inactive s) := SamePos.refl.upd.trans samePos_errAuto

theorem samePos_raiseAddr {s : Nat} {a : Addr} {m : Rid} : SamePos w (w.raiseAddr s a m) := samePos_raise

theorem samePos_localRecovery {h : Nat} : SamePos w (w.localRecovery h) := .upd .refl

theorem samePos_releaseHold {h : Nat} : SamePos w (w.releaseHold h) :=
  (SamePos.refl.upd.trans samePos_localRecovery).trans samePos_releaseChs

theorem samePos_releaseSel {k : Nat} : SamePos w (w.releaseSel k) := SamePos.refl.upd.trans samePos_releaseChs

/-! Mode transitions (R40 to R47). -/

theorem samePos_dropRequesters {sel : Rid → Bool} : SamePos w (w.dropRequesters sel) :=
  SamePos.refl.each (fun _ _ => samePos_abortOpen) |>.trans samePos_onBob |>.trans samePos_settle

theorem samePos_wdtHeld : SamePos w w.wdtHeld := by
  unfold W.wdtHeld
  split
  · exact samePos_level
  · exact .ite samePos_inactive .refl

theorem samePos_entryHeld {h : Nat} : SamePos w (w.entryHeld h) := .ite samePos_inactive .refl

theorem samePos_coreReset {k : Nat} : SamePos w (w.coreReset k) :=
  samePos_dropRequesters.trans samePos_clearCore |>.trans samePos_wdtHeld |>.trans (.ite samePos_entryHeld .refl)

theorem samePos_flushParams {h : Nat} : SamePos w (w.flushParams h) :=
  SamePos.refl.each (fun _ _ => .each .refl fun _ _ => samePos_hobWriteParts) |>.upd |>.trans samePos_finishAll
    |>.trans samePos_finishAll

theorem samePos_takeBank {h : Nat} : SamePos w (w.takeBank h) := SamePos.refl.upd.trans samePos_finishAll

theorem samePos_stopOne {h : Nat} : SamePos w (w.stopOne h) :=
  (SamePos.refl.upd.trans samePos_flushParams).trans samePos_takeBank

theorem samePos_stopBellows : SamePos w w.stopBellows := .each .refl fun _ _ => samePos_stopOne

theorem samePos_settleRun : SamePos w w.settleRun := .ite samePos_stampMode .refl

theorem samePos_cancelErr : SamePos w w.cancelErr := SamePos.refl.upd.trans samePos_finishAll

theorem samePos_endEpisode : SamePos w w.endEpisode := SamePos.refl.upd.trans samePos_releaseChs

theorem samePos_firstPrepare : SamePos w w.firstPrepare :=
  .ite .refl (SamePos.refl.upd.trans (.ite .refl (.ite samePos_errRelease (.upd .refl))))

theorem samePos_setMode {new : Mode} : SamePos w (w.setMode new) :=
  .ite .refl (samePos_stampMode.trans (.ite ((SamePos.refl.each fun _ _ => samePos_safeCh).trans samePos_endCutover)
    .refl) |>.trans (.ite .refl (.each .refl fun _ _ => samePos_coreReset))
    |>.trans (.ite .refl samePos_stopBellows) |>.trans (.ite samePos_endEpisode .refl)
    |>.trans (.ite (.upd .refl) .refl) |>.trans (.ite (.upd .refl) .refl)
    |>.trans (.ite (SamePos.refl.upd.trans samePos_cancelErr) .refl) |>.trans (.ite samePos_dozeUp .refl)
    |>.trans (.ite samePos_latchPads.upd .refl) |>.trans (.ite samePos_firstPrepare .refl)
    |>.trans (.ite samePos_startCores .refl) |>.upd |>.trans samePos_errAuto)

/-! The firewalls (R177 to R181). -/

theorem samePos_fwRefuse {u : Nat} {a : Addr} {m : Rid} {d : Dir} : SamePos w (w.fwRefuse u a m d) :=
  samePos_countReg.trans (.ite (SamePos.ite .refl (samePos_setReg.trans samePos_setReg |>.trans samePos_setReg
    |>.trans samePos_setReg |>.trans samePos_setReg) |>.trans samePos_raiseAddr
    |>.trans (.ite samePos_raiseAddr .refl)) samePos_raiseAddr)

theorem samePos_fwCheck {u : Nat} {a : Addr} {m : Rid} {d : Dir} : SamePos w (w.fwCheck u a m d).2 :=
  .iteSnd .refl (.pair samePos_fwRefuse)

/-! The DRAM controllers (R344 to R350). -/

theorem samePos_storeBlock {ch line : Nat} {data : List Byte} {flips : List Byte → List Byte} :
    SamePos w (w.storeBlock ch line data flips) :=
  .upd .refl

theorem samePos_writeLine {ch line : Nat} {data : List Byte} : SamePos w (w.writeLine ch line data) :=
  .ite ((samePos_storeBlock.trans samePos_setReg).trans samePos_finishAll) samePos_storeBlock

theorem samePos_logFix {ch line m : Nat} {o : BitVec 4} {fix : Nat × BitVec 5} :
    SamePos w (w.logFix ch line m o fix) :=
  .ite (.upd .refl) (.ite (.upd .refl) samePos_countReg.upd)

theorem samePos_checkLine {line : Nat} : SamePos w (w.checkLine line).2 :=
  .iteSnd (.pair (samePos_countReg.trans samePos_raise)) (.iteSnd .refl ((samePos_countReg.each fun _ _ =>
    samePos_logFix).trans (.pair samePos_raise)))

theorem samePos_readLine {line : Nat} : SamePos w (w.readLine line).2 :=
  samePos_checkLine.trans (.pair (.ite .refl (.upd .refl)))

theorem samePos_retiredAccess {a : Nat} : SamePos w (w.retiredAccess a) := samePos_raise

theorem samePos_readLines {ls : List Nat} : SamePos w (w.readLines ls).2 := by
  induction ls generalizing w with
  | nil => exact .refl
  | cons l ls ih =>
    rw [W.readLines]
    split
    · exact .pair samePos_retiredAccess
    split
    · exact .pair .refl
    split
    next r w1 e =>
    have h : SamePos w w1 := samePos_readLine.snd e
    split
    · exact .pair h
    split
    · next e => exact .pair (h.trans (ih.snd e))
    · next e => exact .pair (h.trans (ih.snd e))

theorem samePos_eccNote {m : Rid} {fixed : Bool} : SamePos w (w.eccNote m fixed) := by
  unfold W.eccNote
  split
  · exact .ite samePos_interrupt .refl
  · exact .refl

theorem samePos_dramRead {m : Rid} {a n : Nat} : SamePos w (w.dramRead m a n).2 := by
  unfold W.dramRead
  split
  · next e => exact .pair ((samePos_readLines.snd e).trans samePos_eccNote)
  · next e => exact .pair (samePos_readLines.snd e)

theorem samePos_mergeLine {m : Rid} {line o : Nat} {bs : List Byte} : SamePos w (w.mergeLine m line o bs).2 :=
  .iteSnd (.pair samePos_retiredAccess) (.iteSnd .refl (.iteSnd (.pair samePos_writeLine) (samePos_checkLine.trans
    (.iteSnd .refl (.pair (samePos_writeLine.trans samePos_eccNote))))))

theorem samePos_atomicLine {m : Rid} {a n : Nat} {f : List Byte → List Byte} : SamePos w (w.atomicLine m a n f).2 :=
  .iteSnd (.pair samePos_retiredAccess) (.iteSnd .refl (samePos_checkLine.trans (.iteSnd .refl (.pair
    (samePos_writeLine.trans samePos_eccNote)))))

theorem samePos_dramBacks : SamePos w w.dramBacks := .each .refl fun _ _ => samePos_storeBlock

theorem samePos_writeParts {m : Rid} {ps : List (Nat × Nat × List Byte)} : SamePos w (w.writeParts m ps).2 := by
  induction ps generalizing w with
  | nil => exact .refl
  | cons p ps ih =>
    unfold W.writeParts
    split
    · next e => exact (samePos_mergeLine.snd e).trans ih
    · exact samePos_mergeLine

theorem samePos_dramWrite {m : Rid} {a : Nat} {bs : List Byte} : SamePos w (w.dramWrite m a bs).2 :=
  samePos_writeParts

theorem samePos_retire {p : Nat} {record : Bool} : SamePos w (w.retire p record).2 :=
  .iteSnd (.pair (.upd .refl)) (.iteSnd (.pair (.upd .refl)) .refl)

/-! The hobs (R193 to R197). -/

theorem samePos_hobError {u a : Nat} {march : Bool} {c : ByteCode} : SamePos w (w.hobError u a march c) := by
  unfold W.hobError
  split
  · next e => exact (samePos_hobLog.snd e).trans samePos_raise
  · next e => exact samePos_hobLog.snd e

theorem samePos_hobScan {u word : Nat} {march : Bool} : SamePos w (w.hobScan u word march) :=
  .ite .refl (.each .refl fun _ _ => .ite samePos_hobError .refl)

theorem samePos_hobRead {m : Rid} {u a n : Nat} : SamePos w (w.hobRead m u a n).2 :=
  (samePos_wakeHob.trans samePos_granted).trans (.iteSnd .refl (SamePos.refl.each (fun _ _ => samePos_hobScan)
    |>.trans samePos_eccNote |>.trans (.iteSnd .refl .refl)))

theorem samePos_hobModify {m : Rid} {u k r a n : Nat} {f : List Byte → List Byte} :
    SamePos w (w.hobModify m u k r a n f).2 := by
  unfold W.hobModify
  split
  · next e => exact .pair ((samePos_hobRead.snd e).trans samePos_hobWrite)
  · exact samePos_hobRead

theorem samePos_hobAlias {m : Rid} {u k a : Nat} {set : Bool} {bs : List Byte} :
    SamePos w (w.hobAlias m u k a set bs).2 := by
  unfold W.hobAlias
  split
  · next e => exact .pair (samePos_hobModify.snd e)
  · exact samePos_hobModify

theorem samePos_hobAtomic {m : Rid} {u k r a size op : Nat} {opd : Word64} :
    SamePos w (w.hobAtomic m u k r a size op opd).2 :=
  samePos_hobModify

theorem samePos_drainWb {u : Nat} : SamePos w (w.drainWb u) := by
  unfold W.drainWb
  split
  · exact .refl
  · exact (SamePos.refl.upd.trans samePos_freshCode).trans samePos_granted

theorem samePos_drainAll {u : Nat} : SamePos w (w.drainAll u) := .each .refl fun _ _ => samePos_drainWb

theorem samePos_testerGo {u : Nat} : SamePos w (w.testerGo u) := .ite (.upd .refl) samePos_drainWb

theorem samePos_marchStart {u : Nat} : SamePos w (w.marchStart u) :=
  .ite .refl ((samePos_drainAll.upd.trans samePos_granted).trans (.ite .refl (.each .refl fun _ _ =>
    samePos_hobScan.each fun _ _ => .ite samePos_freshCode .refl)))

theorem samePos_marchEnd {u : Nat} {fail : Bool} : SamePos w (w.marchEnd u fail) :=
  .ite (SamePos.ite samePos_setHobReg .refl |>.upd |>.trans samePos_granted |>.trans (.ite samePos_raise .refl)) .refl

theorem samePos_hobInject {u : Nat} {v : Word32} : SamePos w (w.hobInject u v) :=
  .ite .refl (.ite (.upd .refl) (.upd .refl))

theorem samePos_hobCntClear {u : Nat} : SamePos w (w.hobCntClear u) := .each .refl fun _ _ => samePos_setHobReg

theorem samePos_conflict {u : Nat} {ms : List Nat} : SamePos w (w.conflict u ms) :=
  .each .refl fun _ _ => samePos_setHobReg

/-! Who may write a control register (R177). -/

theorem samePos_xlog {grant : Word32} {m : Rid} {result : BitVec 2} {a : Nat} {v : Word32} :
    SamePos w (w.xlog grant m result a v) :=
  .upd .refl

theorem samePos_expertBlocked : SamePos w w.expertBlocked := samePos_raise

theorem samePos_mayWrite {m : Rid} {typ inst o : Nat} {v : Word32} : SamePos w (w.mayWrite m typ inst o v).2 := by
  refine .iteSnd .refl (.iteSnd (samePos_expertBlocked.trans (.pair (.ite .refl samePos_xlog))) (.iteSnd .refl ?_))
  split
  · exact .pair samePos_expertBlocked
  · exact .iteSnd (.pair samePos_level) (.pair samePos_xlog)

theorem samePos_fwWrite {m : Rid} {a : Nat} : SamePos w (w.fwWrite m a).2 :=
  .iteSnd (.pair samePos_fwRefuse) samePos_fwCheck

theorem samePos_writeRow {m : Rid} {typ inst o : Nat} {v : Word32} {act : W → W}
    (hact : ∀ (v : W), SamePos v (act v)) :
    SamePos w (w.writeRow m typ inst o v act) := by
  unfold W.writeRow
  refine samePos_powered fun v => .ite samePos_answer ?_
  split
  next e =>
  refine (samePos_fwWrite.snd e).trans ?_
  split
  · split
    next e =>
    refine (samePos_mayWrite.snd e).trans (.ite ((hact _).trans samePos_answer) ?_)
    split <;> exact samePos_answer
  · split <;> exact samePos_answer

/-! The damper channels (R277 to R280, R305). -/

theorem samePos_unarm {h : Nat} : SamePos w (w.unarm h) :=
  .each .refl fun _ _ => (SamePos.ite samePos_safeCh .refl).upd

theorem samePos_damperRefuse {n : Nat} {code : BitVec 3} : SamePos w (w.damperRefuse n code) := .upd .refl

theorem samePos_energise {m : Rid} {h : Nat} {mask : BitVec 4} : SamePos w (w.energise m h mask) :=
  .ite (.each .refl fun _ _ => .upd .refl) ((SamePos.refl.each fun _ _ => samePos_damperRefuse).trans samePos_unarm)

theorem samePos_deEnergise {h : Nat} {mask : BitVec 4} : SamePos w (w.deEnergise h mask) :=
  (SamePos.refl.each fun _ _ => .ite (.ite (.upd .refl) .refl) samePos_safeCh).trans samePos_unarm

theorem samePos_armChs {m : Rid} {h : Nat} {mask : BitVec 4} : SamePos w (w.armChs m h mask) :=
  samePos_unarm.each fun _ _ => .upd .refl

theorem samePos_chCmd {m : Rid} {h : Nat} {v : Word32} : SamePos w (w.chCmd m h v) := by
  unfold W.chCmd
  split
  · exact .ite samePos_armChs ((SamePos.refl.each fun _ _ => samePos_damperRefuse).trans samePos_unarm)
  · exact .ite samePos_energise ((SamePos.refl.each fun _ _ => samePos_damperRefuse).trans samePos_unarm)
  · exact samePos_deEnergise
  · exact samePos_unarm

theorem samePos_damperMismatch {n : Nat} {cause : BitVec 2} : SamePos w (w.damperMismatch n cause) :=
  SamePos.refl.upd.trans (.ite samePos_raiseTwo samePos_level)

/-! The events of the Flue. -/

theorem samePos_bellowsCheck {h : Nat} {d0 d1 : Word32} : SamePos w (w.bellowsCheck h d0 d1) :=
  (SamePos.refl.upd.trans samePos_stopOne).trans samePos_level

theorem samePos_ringOne {r : Rec} : SamePos w (w.ringOne r).2 := by
  unfold W.ringOne
  dsimp only
  exact samePos_tryPacket.trans (.ite (.upd .refl) .refl)

theorem samePos_ringGap : SamePos w w.ringGap.2 := .iteSnd samePos_fresh .refl

theorem samePos_fillRing : SamePos w w.fillRing := .ite .refl (.upd (.each .refl fun _ _ => samePos_writeLine))

theorem samePos_spillOne {r : Rec} : SamePos w (w.spillOne r) := by
  unfold W.spillOne
  refine .ite .refl ?_
  extract_lets -underBinder i a
  split
  next e =>
  refine (samePos_fwCheck.snd e).trans (.ite .refl ?_)
  split
  next e =>
  extract_lets -underBinder left
  exact (samePos_fillRing.trans (samePos_dramWrite.snd e)).upd

theorem samePos_moveOne : SamePos w w.moveOne := by
  refine samePos_fwCheck.trans (.ite .refl ?_)
  split
  · next e => exact samePos_deqPacket.snd e
  · next e => exact ((samePos_deqPacket.snd e).trans samePos_spillOne).trans (.ite (.upd .refl) .refl)

theorem samePos_kindleHalt {err step : BitVec 4} : SamePos w (w.kindleHalt err step) := .upd .refl

end Sys2Proof.Proofs
end

section
/-! The strapped position is kept (R476): lanes, basting, power and the bellows. -/

namespace Sys2Proof.Proofs

open Machine Laws

set_option Elab.async false

variable {w : W}

/-! Lanes, seams and rethreads (R87 to R108). -/

theorem samePos_onLane {u l : Nat} {f : Lane → Lane} : SamePos w (w.onLane u l f) := .upd .refl

theorem samePos_laneTo {u l : Nat} {st : LaneSt} : SamePos w (w.laneTo u l st) := samePos_onLane

theorem samePos_laneTest {u l : Nat} {t : TestFor} : SamePos w (w.laneTest u l t) := samePos_onLane

theorem samePos_basteRec {u target outcome : Nat} {info : Word32} : SamePos w (w.basteRec u target outcome info) :=
  SamePos.refl.upd.trans (.ite (SamePos.refl.upd.trans (.ite samePos_inactive .refl)) .refl)

theorem samePos_basteNowDone {u : Nat} {info : Word32} : SamePos w (w.basteNowDone u info) := samePos_finishAll

theorem samePos_testRecord {u l outcome : Nat} : SamePos w (w.testRecord u l outcome) :=
  samePos_basteRec.trans (.ite (SamePos.refl.upd.trans samePos_basteNowDone) .refl)

theorem samePos_fenceDone {u : Nat} {k : Option Nat} : SamePos w (w.fenceDone u k) := by
  unfold W.fenceDone
  exact (SamePos.refl.each fun _ _ => samePos_finish).upd

theorem samePos_retestDone {u l : Nat} : SamePos w (w.retestDone u l) := .ite .refl samePos_finishAll.upd

theorem samePos_exhaustCheck {u : Nat} : SamePos w (w.exhaustCheck u) := by
  unfold W.exhaustCheck
  split
  · exact .ite (SamePos.refl.upd.trans samePos_raise) .refl
  · exact .refl

theorem samePos_stall {k l i : Nat} {leaves : Option (Nat × LaneSt)} : SamePos w (w.stall k l i leaves) :=
  SamePos.refl.upd.trans samePos_wakeLanes

theorem samePos_rejoin {u k l i : Nat} : SamePos w (w.rejoin u k l i) :=
  samePos_onLane.trans (.ite (.upd .refl) samePos_stall)

theorem samePos_nextRejoin {u : Nat} : SamePos w (w.nextRejoin u) := by
  unfold W.nextRejoin
  split
  · exact .refl
  · exact .ite .refl (SamePos.refl.upd.trans samePos_stall)

theorem samePos_serveDmr {u : Nat} : SamePos w (w.serveDmr u) := by
  refine .ite .refl ?_
  split
  · exact samePos_rejoin
  · exact .refl

theorem samePos_startRetests {u : Nat} : SamePos w (w.startRetests u) :=
  .ite .refl (.each .refl fun _ _ => .ite (SamePos.refl.upd.trans samePos_onLane) .refl)

theorem samePos_repairTest {u l : Nat} : SamePos w (w.repairTest u l) := .ite samePos_laneTest .refl

theorem samePos_restTests {u : Nat} : SamePos w (w.restTests u) :=
  (SamePos.refl.each fun _ _ => .ite .refl ((SamePos.refl.each fun _ _ => samePos_repairTest).trans
    samePos_fenceDone)).trans samePos_repairTest

theorem samePos_settleLanes {u : Nat} : SamePos w (w.settleLanes u) :=
  samePos_nextRejoin.trans samePos_serveDmr |>.trans samePos_restTests |>.trans samePos_exhaustCheck
    |>.trans samePos_startRetests |>.trans samePos_settleRun

theorem samePos_abortSlice {u l : Nat} : SamePos w (w.abortSlice u l) := .ite samePos_onLane.upd .refl

theorem samePos_repair {u k i : Nat} : SamePos w (w.repair u k i) := by
  unfold W.repair
  dsimp only
  split
  · exact samePos_rejoin
  · exact samePos_abortSlice
  · split
    · refine .ite .refl ?_
      split
      · exact samePos_abortSlice
      · exact .refl
    · exact .refl
  · exact .refl

theorem samePos_countFence {u l k slot : Nat} {cause : BitVec 3} {src : Nat} :
    SamePos w (w.countFence u l k slot cause src) :=
  (SamePos.refl.upd.trans samePos_raise).trans (.ite (samePos_laneTo.trans samePos_raise) .refl)

theorem samePos_dropRejoin {u l : Nat} : SamePos w (w.dropRejoin u l) :=
  (SamePos.ite samePos_laneTo (samePos_testRecord.trans samePos_laneTo)).trans samePos_retestDone

theorem samePos_sliceLost {u outcome : Nat} : SamePos w (w.sliceLost u outcome) := by
  unfold W.sliceLost
  split
  · exact .refl
  · exact samePos_basteRec.upd.trans samePos_basteNowDone

theorem samePos_endRethread {u k : Nat} : SamePos w (w.endRethread u k) :=
  (SamePos.refl.upd.trans (.ite samePos_sliceLost .refl)).each fun _ _ => samePos_dropRejoin

theorem samePos_stokerDown : SamePos w w.stokerDown :=
  (samePos_coreReset.upd.upd.upd.trans samePos_sliceLost).each fun _ _ => .ite .refl samePos_laneTest

theorem samePos_haltCore {k : Nat} {cause : BitVec 3} {src : Option Nat} : SamePos w (w.haltCore k cause src) := by
  cases src with
  | none =>
    exact .ite .refl (((samePos_cutFail.upd.trans samePos_endRethread).trans samePos_fenceDone).trans
      (SamePos.ite samePos_stokerDown .refl) |>.trans samePos_settleLanes)
  | some i =>
    exact .ite .refl ((((samePos_cutFail.upd.trans samePos_endRethread).trans samePos_fenceDone).trans
        samePos_level).trans
      (SamePos.ite samePos_stokerDown .refl) |>.trans samePos_settleLanes)

theorem samePos_fence {u l : Nat} {cause : BitVec 3} : SamePos w (w.fence u l cause) := by
  unfold W.fence
  split
  · exact (samePos_countFence.trans samePos_settleLanes).trans samePos_fenceDone
  · exact samePos_countFence.trans (SamePos.refl.upd.trans ((samePos_repair.trans samePos_settleLanes).trans
        (.ite samePos_haltCore .refl)))

theorem samePos_rethreadOk {u k : Nat} {r : Rethread} : SamePos w (w.rethreadOk u k r) := by
  unfold W.rethreadOk
  extract_lets -underBinder w1 w2 w3 w4 waits w5
  have h1 : SamePos w w1 := by
    unfold w1
    split
    · exact .upd .refl
    · exact .trans (.upd .refl fun _ => by dsimp only; split <;> rfl) samePos_onLane
    · exact .refl
  have h2 : SamePos w1 w2 := .upd .refl
  have h3 : SamePos w2 w3 := samePos_laneTo
  have h4 : SamePos w3 w4 := .ite .refl samePos_testRecord
  have h5 : SamePos w4 w5 := by
    unfold w5
    split
    · exact .ite samePos_abortSlice .refl
    · exact .refl
  exact h1.trans h2 |>.trans h3 |>.trans h4 |>.trans h5 |>.trans (samePos_retestDone.trans samePos_settleLanes)

theorem samePos_rethreadFail {k : Nat} {disagree : Bool} : SamePos w (w.rethreadFail k disagree) := by
  unfold W.rethreadFail
  split
  · exact .refl
  · exact SamePos.refl.upd.trans ((SamePos.ite samePos_sliceLost (.ite .refl samePos_testRecord)).trans
        (samePos_countFence.trans ((SamePos.ite samePos_haltCore .refl).trans (samePos_retestDone.trans
        samePos_settleLanes))))

theorem samePos_seamTestFail {k : Nat} {r : Rethread} : SamePos w (w.seamTestFail k r) :=
  SamePos.refl.upd.trans (.ite samePos_sliceLost (.ite (samePos_basteRec.upd.trans samePos_basteNowDone)
    samePos_basteRec)) |>.trans samePos_laneTo |>.trans samePos_retestDone |>.trans samePos_haltCore
    |>.trans samePos_raise

theorem samePos_placeLanes {k : Nat} {seamOk : Bool} : SamePos w (w.placeLanes k seamOk) := by
  unfold W.placeLanes
  extract_lets -underBinder u held homes w1 w2 w3 n w4 v w5 w6 w7
  have h1 : SamePos w w1 := .each .refl fun _ _ => samePos_laneTo.upd
  have h2 : SamePos w1 w2 := .ite samePos_laneTo .refl
  have h3 : SamePos w2 w3 := by
    unfold w3
    split
    · split
      · exact samePos_laneTo.upd
      · exact .refl
    · exact .refl
  have h4 : SamePos w3 w4 := .ite .refl samePos_raise
  have hv : SamePos w4 v := .upd .refl
  have h5 : SamePos w4 w5 :=
    .ite (.upd .refl) (.trans hv (.ite samePos_startCore (.ite samePos_startCore .refl)))
  have h6 : SamePos w5 w6 := samePos_finishAll
  have h7 : SamePos w6 w7 := .each .refl fun _ _ => samePos_retestDone
  exact h1.trans h2 |>.trans h3 |>.trans h4 |>.trans h5 |>.trans h6 |>.trans h7 |>.trans samePos_settleLanes

theorem samePos_restartStep {u l : Nat} {seamOk : Bool} : SamePos w (w.restartStep u l seamOk) :=
  .each .refl fun _ _ => .ite samePos_placeLanes .refl

theorem samePos_testEnd {u l : Nat} {pass seamOk : Bool} : SamePos w (w.testEnd u l pass seamOk) :=
  (SamePos.ite (.upd .refl) .refl).trans (.ite ((samePos_basteRec.trans (.ite samePos_laneTo
    ((samePos_laneTo.trans samePos_raise).trans samePos_retestDone))).trans samePos_restartStep) (.ite
    (samePos_testRecord.trans samePos_onLane |>.trans samePos_raise |>.trans samePos_retestDone
    |>.trans samePos_settleLanes) (samePos_onLane.trans (.ite (samePos_testRecord.trans samePos_laneTo) (.ite
    (samePos_testRecord.trans samePos_laneTo) samePos_rejoin)) |>.trans samePos_retestDone
    |>.trans samePos_settleLanes)))

/-! The vote of a seam and the lane controller (R88 to R97, R115). -/

theorem samePos_verdict {k : Nat} {v : Verdict} {cause : BitVec 3} : SamePos w (w.verdict k v cause) := by
  unfold W.verdict
  split
  · split
    · exact samePos_fence
    · exact .refl
  · exact samePos_haltCore
  · exact .refl

theorem samePos_voteWait {k : Nat} : SamePos w (w.voteWait k) := .ite .refl samePos_fresh.upd

theorem samePos_routerFault {u i : Nat} : SamePos w (w.routerFault u i) :=
  (samePos_level.trans (.ite (.upd .refl) .refl)).trans (.ite samePos_stokerDown .refl)

theorem samePos_linkCheck {a : Nat} : SamePos w (w.linkCheck a) := by
  unfold W.linkCheck
  split
  · exact samePos_routerFault
  · exact .refl

theorem samePos_rethreadEnd {c : Nat} {r : RethreadEnd} {seamOk : Bool} : SamePos w (w.rethreadEnd c r seamOk) := by
  unfold W.rethreadEnd
  split
  · exact .refl
  · split
    · exact .ite samePos_rethreadOk samePos_seamTestFail
    · exact samePos_rethreadFail
    · exact samePos_rethreadFail

theorem samePos_rethreadTimeout {c : Nat} : SamePos w (w.rethreadTimeout c) := by
  unfold W.rethreadTimeout
  split
  · exact .refl
  · exact SamePos.refl.upd.trans samePos_rethreadFail

theorem samePos_retest {u l : Nat} : SamePos w (w.retest u l) := SamePos.refl.upd.trans samePos_startRetests

theorem samePos_laneCmd {h : Nat} {v : Word32} : SamePos w (w.laneCmd h v) :=
  .ite .refl (.ite (.upd .refl) (.ite (.ite (.upd .refl) (SamePos.refl.upd.trans samePos_fence)) (.ite (.ite
    (SamePos.refl.upd.trans samePos_retest) (.upd .refl)) (.upd .refl))))

/-! Basting (R325 to R335). -/

theorem samePos_takeTurn {u : Nat} {t : Turn} : SamePos w (w.takeTurn u t) := by
  unfold W.takeTurn
  split
  · exact .upd .refl
  · exact SamePos.refl.upd.trans samePos_basteRec |>.upd |>.trans (samePos_raise.trans samePos_basteNowDone)
  · exact (SamePos.refl.upd.upd.trans samePos_onLane).trans samePos_stall
  · exact (SamePos.refl.upd.upd fun _ => by dsimp only; split <;> rfl).trans (samePos_laneTest.upd.trans
        samePos_settleRun)

theorem samePos_bellowsTurn {u : Nat} : SamePos w (w.bellowsTurn u) := .ite (.upd .refl) .refl

theorem samePos_turnDue {u : Nat} : SamePos w (w.turnDue u) := .ite .refl samePos_bellowsTurn

theorem samePos_blwResume {u : Nat} : SamePos w (w.blwResume u) := .ite samePos_bellowsTurn.upd .refl

theorem samePos_basteGo {v : Word32} : SamePos w (w.basteGo v) := by
  refine .ite .refl (.ite ?_ (.upd .refl))
  dsimp only
  split
  · exact (samePos_turnDue.trans samePos_blwResume).upd
  · exact (samePos_turnDue.trans samePos_blwResume).trans samePos_takeTurn

theorem samePos_startupTest {h : Nat} {r : StartupResult} : SamePos w (w.startupTest h r) :=
  samePos_clearHob.upd.each (fun _ _ => samePos_basteRec) |>.trans samePos_setReg |>.each (fun _ _ => samePos_raise)
    |>.each (fun _ _ => samePos_raise) |>.trans (.ite .refl samePos_raise)
    |>.trans (.ite .refl (SamePos.refl.upd.trans samePos_raise)) |>.trans samePos_exhaustCheck

/-! Power (R458 to R475). -/

theorem samePos_domRefuse {n : Nat} {id : Rid} {cause : BitVec 3} : SamePos w (w.domRefuse n id cause) :=
  SamePos.refl.upd.trans samePos_raise

theorem samePos_entryRefused {n : Nat} {id : Rid} {cause : BitVec 3} : SamePos w (w.entryRefused n id cause) :=
  .ite .refl (SamePos.refl.upd.trans samePos_domRefuse)

theorem samePos_domainDown {n : Nat} : SamePos w (w.domainDown n) :=
  (SamePos.ite samePos_latchPads .refl).upd fun _ => by dsimp only; split <;> rfl

theorem samePos_vote {m : Rid} {n : Nat} {set : Bool} : SamePos w (w.vote m n set) :=
  .ite .refl (.ite (SamePos.refl.upd.trans samePos_domRefuse) (.upd .refl))

theorem samePos_releasePads {n : Nat} : SamePos w (w.releasePads n) := .each .refl fun _ _ => .upd .refl

theorem samePos_acctClear : SamePos w w.acctClear := .each .refl fun _ _ => .upd .refl

theorem samePos_startLevel {r target : Nat} : SamePos w (w.startLevel r target) := by
  unfold W.startLevel
  split
  · exact .upd .refl
  · exact .ite .refl (.upd .refl)

theorem samePos_targetLevel {r l : Nat} : SamePos w (w.targetLevel r l) := samePos_setReg.trans samePos_startLevel

theorem samePos_endLevel {r l status : Nat} : SamePos w (w.endLevel r l status) :=
  SamePos.refl.upd.trans samePos_finishAll

theorem samePos_levelFailed {r l : Nat} : SamePos w (w.levelFailed r l) :=
  (SamePos.ite .refl samePos_internal).trans samePos_endLevel

theorem samePos_levelCtl : SamePos w w.levelCtl := .each .refl fun _ _ => samePos_startLevel

theorem samePos_avsClear {r : Nat} : SamePos w (w.avsClear r) := SamePos.refl.upd.trans (.ite samePos_inactive .refl)

theorem samePos_readVca : SamePos w w.readVca := by
  unfold W.readVca
  exact samePos_fresh.upd

/-! The bellows (R213, R221, R234). -/

theorem samePos_hobReadParts {m : Rid} {u : Nat} {acc : List Byte} {ps : List (Nat × Nat)} :
    SamePos w (w.hobReadParts m u acc ps).2 := by
  induction ps generalizing w acc with
  | nil => exact .refl
  | cons p ps ih =>
    unfold W.hobReadParts
    split
    · next e => exact (samePos_hobRead.snd e).trans ih
    · exact samePos_hobRead

theorem samePos_hobReadSel {m : Rid} {u a n : Nat} : SamePos w (w.hobReadSel m u a n).2 := samePos_hobReadParts

theorem samePos_blwRead {h off n : Nat} : SamePos w (w.blwRead h off n).2 := by
  refine .iteSnd .refl (samePos_fwCheck.trans (.iteSnd ?_ .refl))
  split <;> next e => exact .pair (samePos_hobRead.snd e)

theorem samePos_blwWrite {h : Nat} {ps : List (Nat × List Byte)} : SamePos w (w.blwWrite h ps).2 := by
  unfold W.blwWrite
  split
  · exact .refl
  · exact .iteSnd .refl (samePos_fwCheck.trans (.iteSnd (.pair samePos_hobWriteParts) .refl))

theorem samePos_blwImage {h k off : Nat} {c : Ctx} : SamePos w (w.blwImage h k off c).2 :=
  .iteSnd .refl (samePos_fwCheck.trans (.iteSnd .refl (samePos_wakeHob.trans samePos_granted
    |>.trans samePos_hobScan |>.trans (.iteSnd .refl .refl))))

theorem samePos_blwImages {h : Nat} {c : Ctx} {xs : List (Nat × Nat)} : SamePos w (w.blwImages h c xs).2 := by
  induction xs generalizing w with
  | nil => exact .refl
  | cons x xs ih =>
    unfold W.blwImages
    split
    · next e => exact samePos_blwImage.snd e
    · next e =>
      refine (samePos_blwImage.snd e).trans ?_
      split <;> next e => exact ih.snd e

theorem samePos_blwReads {h : Nat} {os : List Nat} : SamePos w (w.blwReads h os).2 := by
  induction os generalizing w with
  | nil => exact .refl
  | cons o os ih =>
    unfold W.blwReads
    split
    · next e => exact samePos_blwRead.snd e
    · next e =>
      refine (samePos_blwRead.snd e).trans ?_
      split <;> next e => exact ih.snd e

theorem samePos_blwWrites {h : Nat} {xs : List (List (Nat × List Byte))} : SamePos w (w.blwWrites h xs).2 := by
  induction xs generalizing w with
  | nil => exact .refl
  | cons x xs ih =>
    unfold W.blwWrites
    split
    · next e => exact (samePos_blwWrite.snd e).trans ih
    · exact samePos_blwWrite

theorem samePos_faultWrites {h ctx stat : Nat} {c : Ctx} {safe tail : Bool} :
    SamePos w (w.faultWrites h ctx stat c safe tail) :=
  SamePos.trans (.ite (SamePos.foldl .refl fun _ _ => samePos_blwWrite) .refl) samePos_blwWrite

theorem samePos_selectAll {h : Nat} : SamePos w (w.selectAll h) := .each .refl fun _ _ => samePos_selectGroup

theorem samePos_lastFault {h : Nat} {info : Word32} : SamePos w (w.lastFault h info) :=
  (samePos_setReg.trans samePos_setReg).trans samePos_setReg

theorem samePos_loopFault {h ctx cause : Nat} {c : Ctx} {hdr safe tail retried : Bool} :
    SamePos w (w.loopFault h ctx cause c hdr safe tail retried) :=
  SamePos.ite samePos_faultWrites .refl |>.trans samePos_countReg |>.trans samePos_lastFault |>.upd
    |>.trans (.ite .refl samePos_selectAll) |>.trans samePos_raise |>.trans samePos_interruptHearth

theorem samePos_evaluate {h : Nat} {c : Ctx} {preset safe : Bool} {bad : Nat} :
    SamePos w (w.evaluate h c preset safe bad).2 := by
  unfold W.evaluate
  extract_lets -underBinder inImg outImg offs
  split
  · next e => exact samePos_blwImages.snd e
  · next e =>
    refine (samePos_blwImages.snd e).trans ?_
    split
    extract_lets -underBinder f stale badIn ext k0 first
    refine .iteSnd .refl (.iteSnd .refl ?_)
    split
    · next e => exact samePos_blwReads.snd e
    · next e =>
      refine (samePos_blwReads.snd e).trans ?_
      extract_lets -underBinder k1 more
      split
      · next e => exact samePos_blwReads.snd e
      · next e =>
        refine (samePos_blwReads.snd e).trans (.iteSnd .refl (.iteSnd .refl ?_))
        exact .iteSnd (SamePos.refl.upd.trans samePos_countReg) (SamePos.refl.upd.trans samePos_countReg)

theorem samePos_finishRun {h ctx : Nat} {c : Ctx} {r : KRes} {retried : Bool} :
    SamePos w (w.finishRun h ctx c r retried) := by
  unfold W.finishRun
  extract_lets -underBinder off outs old cf w1 stat sorted exts
  have h1 : SamePos w w1 := .ite samePos_raise .refl
  refine h1.trans (.ite samePos_loopFault (.ite samePos_loopFault ?_))
  split
  · next e => exact (samePos_blwWrites.snd e).trans samePos_loopFault
  · next e => exact (samePos_blwWrites.snd e).upd.trans (.ite samePos_raise .refl)

theorem samePos_runDone {h ctx : Nat} : SamePos w (w.runDone h ctx) := samePos_finishAll.trans samePos_finishAll

theorem samePos_slotFaulted {h ctx : Nat} {h0 h1 t : Option (List Byte)} :
    SamePos w (w.slotFaulted h ctx h0 h1 t) := by
  unfold W.slotFaulted
  split
  · exact samePos_lastFault.trans samePos_selectAll
  · exact samePos_faultWrites

theorem samePos_earlyFault {h ctx cause : Nat} {pws : List Byte} {safe : Bool} :
    SamePos w (w.earlyFault h ctx cause pws safe) :=
  samePos_blwRead.trans samePos_loopFault

theorem samePos_slotRun {h ctx bad : Nat} {resumed : Bool} {hdr : List Byte} {tail : Option (List Byte)} :
    SamePos w (w.slotRun h ctx bad resumed hdr tail) := by
  unfold W.slotRun
  extract_lets -underBinder off
  split
  · next e => exact (samePos_blwRead.snd e).trans samePos_earlyFault
  next e =>
  refine (samePos_blwRead.snd e).trans (.ite samePos_earlyFault ?_)
  split
  · next e => exact (samePos_blwReads.snd e).trans samePos_earlyFault
  next ps u e =>
  refine (samePos_blwReads.snd e).trans ?_
  extract_lets -underBinder body body'
  have tailKept : SamePos u (match tail with
      | some t => (some t, u)
      | none => u.blwRead h (off + 0xC0) 32).2 := by
    split
    · exact .refl
    · exact samePos_blwRead
  split
  next t v e =>
  refine (tailKept.snd e).trans ?_
  split
  · exact samePos_loopFault
  refine .ite samePos_slotFaulted ?_
  split
  · next e => exact (samePos_blwReads.snd e).trans samePos_loopFault
  next e =>
  refine (samePos_blwReads.snd e).trans (.ite samePos_loopFault ?_)
  split
  · next e => exact (samePos_evaluate.snd e).trans samePos_loopFault
  · next e => exact (samePos_evaluate.snd e).trans samePos_finishRun

theorem samePos_paramWindow {h : Nat} : SamePos w (w.paramWindow h) := by
  unfold W.paramWindow
  extract_lets -underBinder ps w1
  have h1 : SamePos w w1 := .upd .refl
  split
  next e =>
  refine (h1.trans (SamePos.of_snd e (.foldlSnd .refl fun x p => ?_))).trans (samePos_finishAll.trans
      samePos_finishAll)
  split
  · next e => exact samePos_blwWrites.snd e
  · next e =>
    refine (samePos_blwWrites.snd e).trans ?_
    extract_lets -underBinder off
    split
    next e0 =>
    split
    next e1 =>
    split
    next e2 =>
    exact .pair <| (samePos_blwRead.snd e0 |>.trans (samePos_blwRead.snd e1)
        |>.trans (samePos_blwRead.snd e2)).trans samePos_loopFault

theorem samePos_slot {h ctx bad : Nat} : SamePos w (w.slot h ctx bad) := by
  unfold W.slot
  extract_lets -underBinder off b extra resumed held w1 w2
  have e1 : SamePos w w2 := SamePos.refl.upd.trans samePos_setReg
  split
  next h0 w3 e2 =>
  refine e1.trans ((samePos_blwRead.snd e2).trans ?_)
  split
  next h1 w4 e3 =>
  extract_lets -underBinder w5
  have e4 : SamePos w3 w4 := SamePos.of_snd e3 (.iteSnd samePos_blwRead .refl)
  have e5 : SamePos w4 w5 := by
    refine .ite ?_ ?_
    · split
      next t v e =>
      refine (SamePos.of_snd e (.iteSnd samePos_blwRead .refl)).trans ?_
      split
      · exact .ite samePos_slotFaulted samePos_slotRun
      · exact samePos_slotFaulted
    · split
      · exact samePos_loopFault
      · exact samePos_earlyFault
      · exact samePos_slotRun
  exact (e4.trans e5).trans samePos_runDone

theorem samePos_imageLate {h c : Nat} : SamePos w (w.imageLate h c) := SamePos.refl.upd.trans samePos_raise

theorem samePos_startOutputs {h : Nat} : SamePos w (w.startOutputs h) := by
  unfold W.startOutputs
  exact .upd .refl

theorem samePos_startSlots {h : Nat} : SamePos w (w.startSlots h) :=
  SamePos.refl.each (fun _ _ => SamePos.refl.upd.trans samePos_imageLate) |>.each (fun _ _ => samePos_imageLate)
    |>.upd |>.trans (.ite samePos_startOutputs .refl)

theorem samePos_slackEnd {h : Nat} : SamePos w (w.slackEnd h) := .ite .refl samePos_setReg

theorem samePos_overrun {h : Nat} : SamePos w (w.overrun h) :=
  .ite (SamePos.refl.upd.trans samePos_setReg |>.trans samePos_cutFail |>.trans samePos_raise) .refl

theorem samePos_segment {h : Nat} {idle : Bool} : SamePos w (w.segment h idle) := by
  unfold W.segment
  split
  · exact .refl
  · exact .ite (.upd .refl) (.upd .refl)

theorem samePos_frameStart {h f : Nat} : SamePos w (w.frameStart h f) :=
  .ite (samePos_overrun.trans samePos_slackEnd |>.trans samePos_takeBank |>.upd |>.trans samePos_segment
    |>.trans (.ite .refl samePos_paramWindow) |>.upd |>.trans (.ite samePos_startSlots .refl)) samePos_segment

theorem samePos_blwClear {h : Nat} {late : Bool} : SamePos w (w.blwClear h late) :=
  samePos_setReg.trans samePos_setReg |>.trans samePos_setReg |>.trans (.ite (.upd .refl) .refl)

theorem samePos_blwInject {h : Nat} {v : Word32} : SamePos w (w.blwInject h v) := .ite .refl (.upd .refl)

theorem samePos_ctxResume {h : Nat} {v : Word32} : SamePos w (w.ctxResume h v) := .ite (.upd .refl) .refl

/-! Contexts and schedules (R216, R224). -/

theorem samePos_markStandby {r level : Nat} : SamePos w (w.markStandby r level) :=
  .each .refl fun _ _ => .ite .refl (.upd .refl)

/-! The time base (R248 to R252). -/

theorem samePos_stepTb {off : Word64} : SamePos w (w.stepTb off) := SamePos.refl.upd.trans samePos_raise

theorem samePos_step {off : Word64} : SamePos w (w.step off) := by
  unfold W.step
  exact samePos_stepTb.trans (.ite .refl (.upd .refl))

theorem samePos_stepGo {v : Word32} : SamePos w (w.stepGo v) := .ite samePos_step .refl

theorem samePos_sync {off : Int} {limit : Nat} : SamePos w (w.sync off limit) :=
  SamePos.ite (SamePos.refl.upd.trans samePos_inactive) .refl |>.upd
    |>.trans (.ite (SamePos.refl.upd.trans samePos_step) (samePos_fresh.trans samePos_setReg))

theorem samePos_holdover : SamePos w w.holdover := .ite .refl (SamePos.refl.upd.trans samePos_level)

theorem optPos_writeTime {o : Nat} {v : Word32} : OptPos w (w.writeTime o v) :=
  .ite (.some samePos_setReg) (.ite (.some samePos_stepGo) (.ite (.ite (.some (.ite .refl samePos_setReg)) (.ite
    (.some samePos_setReg) (.some samePos_setReg))) .none))

end Sys2Proof.Proofs
end

section
/-! The strapped position is kept (R476): commits and the command service. -/

namespace Sys2Proof.Proofs

open Machine Laws

set_option Elab.async false

variable {w : W}

/-! Staged registers and their commits (R35 to R38). -/

theorem samePos_applied {snap : Tbl Word32} : SamePos w (w.applied snap) := .upd .refl

theorem samePos_committed {w old : W} {typ inst : Nat} : SamePos w (w.committed old typ inst) := by
  unfold W.committed
  split
  · exact SamePos.refl.upd.trans ((SamePos.ite samePos_inactive .refl).trans (SamePos.refl.upd.trans samePos_errAuto))
  · exact samePos_levelCtl
  · exact .ite .refl (samePos_when fun _ => samePos_inactive).upd
  · exact (SamePos.refl.each fun _ _ => .ite .refl (.upd .refl)).trans ((SamePos.refl.each fun _ _ => .ite
        samePos_forceCh .refl).trans samePos_releaseChs)
  · exact .upd .refl
  · exact SamePos.refl.upd.trans samePos_poolCheck
  · exact .ite samePos_takeBank .refl
  · exact .refl

theorem samePos_commitPoint {typ inst : Nat} : SamePos w (w.commitPoint typ inst) := by
  refine .ite .refl ?_
  split
  · exact samePos_applied.upd.trans samePos_committed
  · exact .upd .refl

theorem samePos_commitGo {typ inst : Nat} : SamePos w (w.commitGo typ inst) := .ite .refl (.upd .refl)

theorem samePos_stageDiscard {typ inst : Nat} : SamePos w (w.stageDiscard typ inst) := .ite .refl (.upd .refl)

theorem samePos_commitWrite {m : Rid} {typ inst : Nat} {v : Word32} : SamePos w (w.commitWrite m typ inst v) :=
  .ite .refl (samePos_commitGo.trans (.ite (.upd .refl) .refl))

theorem samePos_blockWrite {m : Rid} {b : BlockId} {o : Nat} {v : Word32} {act : W → W}
    (hact : ∀ (v : W), SamePos v (act v)) :
    SamePos w (w.blockWrite m b o v act) :=
  .ite (samePos_writeRow fun _ => hact _) .refl

/-! The command service (R63 to R75). -/

theorem resPos_fail {status : Nat} : ResPos w (w.fail status) := .fin .refl

theorem resPos_ok {result : List Byte} : ResPos w (w.ok result) := .fin .refl

theorem resPos_need {b : Bool} {status : Nat} {k : Res} (hk : ResPos w k) : ResPos w (w.need b status k) :=
  .ite hk resPos_fail

theorem samePos_abortTxn : SamePos w w.abortTxn := by
  unfold W.abortTxn
  split
  · exact .refl
  · refine (SamePos.refl.each fun _ _ => ?_).trans (.upd .refl)
    split
    · exact samePos_stageDiscard
    · exact .refl

theorem samePos_abortTxnOf {src : Nat} : SamePos w (w.abortTxnOf src) := by
  unfold W.abortTxnOf
  split
  · exact .ite samePos_abortTxn .refl
  · exact .refl

theorem samePos_endSession {id : Word32} : SamePos w (w.endSession id) := by
  unfold W.endSession
  exact samePos_abortTxnOf.upd

theorem samePos_endSessions : SamePos w w.endSessions := .each .refl fun _ _ => samePos_endSession

theorem samePos_consume {p : Packet} {opc : Half} : SamePos w (w.consume p opc) :=
  .upd .refl fun _ => by dsimp only; split <;> rfl

theorem samePos_draw : SamePos w w.draw.2 := samePos_fresh.trans (.pair (.upd .refl))

theorem samePos_cryptoUse {key operand : List Byte} : SamePos w (w.cryptoUse key operand) := .upd .refl

theorem samePos_newNonce : SamePos w w.newNonce := by
  unfold W.newNonce
  exact samePos_draw.upd

theorem samePos_spent {opc : Nat} {p : Packet} : SamePos w (w.spent opc p) := .ite samePos_newNonce .refl

theorem resPos_execute {i : CmdInfo} {p : Packet} {body : Body}
    (hbody : ∀ (x : Packet) (v : W), ResPos v (body x v)) :
    ResPos w (w.execute i p body) :=
  .ite (hbody _ _) (samePos_spent.res resPos_fail)

theorem samePos_addPend {p : Packet} {opc : Half} {running : Bool} {key : Nat} :
    SamePos w (w.addPend p opc running key) :=
  .upd .refl

theorem samePos_startNow {i : CmdInfo} {opc : Half} {p : Packet} {body : Body}
    (hbody : ∀ (x : Packet) (v : W), ResPos v (body x v)) :
    SamePos w (w.startNow i opc p body) := by
  have h : ResPos w (w.execute i p body) := resPos_execute hbody
  unfold W.startNow
  split
  · next e => rw [e] at h; exact h.trans samePos_reply
  · next e =>
    rw [e] at h
    exact .ite samePos_reply (h.1.trans samePos_reply |>.trans samePos_addPend |>.trans (h.2 _))

theorem samePos_sessionLimit {p : Packet} : SamePos w (w.sessionLimit p) := by
  unfold W.sessionLimit
  split
  · exact .ite samePos_endSession .refl
  · exact .refl

theorem samePos_startPend {i : CmdInfo} {q : Pend} {body : Body}
    (hbody : ∀ (x : Packet) (v : W), ResPos v (body x v)) :
    SamePos w (w.startPend i q body) := by
  have h : ResPos w (w.execute i q.pkt body) := resPos_execute hbody
  unfold W.startPend
  split
  · next e => rw [e] at h; exact (h.trans samePos_finish).trans samePos_sessionLimit
  · next e => rw [e] at h; exact (h.1.trans samePos_setRunning).trans (h.2 _)

theorem samePos_serve {objs : Nat → Packet → List Obj} {opc : Half} {p : Packet} {body : Body}
    (hbody : ∀ (x : Packet) (v : W), ResPos v (body x v)) :
    SamePos w (w.serve objs opc p body) := by
  unfold W.serve
  split
  · exact samePos_reply
  · exact .ite (samePos_spent.trans samePos_reply) (.ite (.ite (samePos_spent.trans samePos_reply)
        (samePos_reply.trans samePos_addPend)) (samePos_startNow fun _ _ => hbody _ _))

theorem samePos_sendOn {opc : Half} {p : Packet} {told stale : Bool} : SamePos w (w.sendOn opc p told stale) :=
  .upd .refl

theorem samePos_forward {opc : Half} {p : Packet} : SamePos w (w.forward opc p) :=
  .ite (.ite samePos_reply (samePos_reply.trans samePos_addPend)) (.ite samePos_sendOn samePos_reply)

theorem samePos_forwardPend {q : Pend} : SamePos w (w.forwardPend q) :=
  .ite (samePos_dropPend.trans samePos_sendOn) samePos_finish

theorem samePos_route {objs : Nat → Packet → List Obj} {opc : Half} {p : Packet} {body : Body}
    (hbody : ∀ (x : Packet) (v : W), ResPos v (body x v)) :
    SamePos w (w.route objs opc p body) :=
  .ite (samePos_serve fun _ _ => hbody _ _) (.ite samePos_forward samePos_reply)

theorem samePos_turnAway {opc : Half} {p : Packet} {status : Nat} {result : List Byte} {tag : Bool} :
    SamePos w (w.turnAway opc p status result tag) :=
  samePos_deliver

theorem samePos_accept {p : Packet} : SamePos w (w.accept p) := .upd .refl fun _ => by dsimp only; split <;> rfl

theorem samePos_sequence {objs : Nat → Packet → List Obj} {opc : Half} {p : Packet} {body : Body}
    (hbody : ∀ (x : Packet) (v : W), ResPos v (body x v)) :
    SamePos w (w.sequence objs opc p body) := by
  unfold W.sequence
  dsimp only
  split
  · exact samePos_accept.trans (samePos_route fun _ _ => hbody _ _)
  · exact .ite ((samePos_accept.trans (samePos_route fun _ _ => hbody _ _)).trans samePos_sessionLimit)
        (.ite samePos_deliver samePos_turnAway)

theorem samePos_ringReset : SamePos w w.ringReset := by
  unfold W.ringReset
  exact samePos_abortTxnOf.upd

theorem samePos_ringDue : SamePos w w.ringDue := .ite samePos_ringReset .refl

theorem samePos_take {objs : Nat → Packet → List Obj} {opc : Half} {p : Packet} {body : Body}
    (hbody : ∀ (x : Packet) (v : W), ResPos v (body x v)) :
    SamePos w (w.take objs opc p body) :=
  samePos_ringDue.trans (.ite .refl (samePos_consume.trans (.ite (samePos_route fun _ _ => hbody _ _)
    (.ite samePos_turnAway (.ite samePos_turnAway (.ite samePos_turnAway (.ite (samePos_route fun _ _ => hbody _ _)
    (.ite (samePos_raise.trans samePos_turnAway) (samePos_sequence fun _ _ => hbody _ _)))))))))

/-! Basic-level changes (R84). -/

theorem resPos_readHob {h off n : Nat} {k : List Byte → W → Res} (hk : ∀ (x : List Byte) (v : W), ResPos v (k x v)) :
    ResPos w (w.readHob h off n k) := by
  unfold W.readHob
  split
  · next e => exact (samePos_hobReadSel.snd e).res (hk _ _)
  · next e => exact ((samePos_hobReadSel.snd e).trans samePos_internal).res resPos_fail

theorem resPos_readExt {h : Nat} {c : Ctx} {k : W → Res} (hk : ∀ (v : W), ResPos v (k v)) :
    ResPos w (w.readExt h c k) :=
  .ite (resPos_readHob fun _ _ => hk _) (hk _)

theorem resPos_readCtxs {cs : List (Nat × Nat)} {k : W → Res} (hk : ∀ v, ResPos v (k v)) :
    ResPos w (w.readCtxs cs k) := by
  induction cs generalizing w with
  | nil => exact hk w
  | cons c cs ih => exact resPos_readHob fun _ _ => resPos_readExt fun _ => ih

/-! The port pages of the queues (R374 to R385). -/

theorem samePos_settled {r : Machine.Acc × W} : SamePos r.2 (W.settled r).2 := .pair samePos_settle

theorem samePos_portDeq {m : Rid} {q : Nat} {peek : Bool} : SamePos w (w.portDeq m q peek).2 :=
  samePos_grantWaiters.trans samePos_cellRead |>.trans (.pair (.ite .refl samePos_deqWord)) |>.trans samePos_settled

theorem samePos_portStat {q : Nat} : SamePos w (w.portStat q).2 := by
  unfold W.portStat
  exact samePos_grantWaiters.trans (samePos_settled (r := (_, w.grantWaiters)))

theorem samePos_await {x : Waiter} : SamePos w (w.await x).2 := .pair samePos_onBob

theorem samePos_enqueue {m : Rid} {q off : Nat} {ws : List Word32} : SamePos w (w.enqueue m q off ws).2 := by
  refine samePos_grantWaiters.trans (SamePos.trans ?_ samePos_settled)
  refine .iteSnd samePos_await ?_
  split
  · next e => exact .steady (steady_tryWaiter _ _ _ e)
  · exact samePos_await

theorem samePos_portClose {m : Rid} {q : Nat} {v : Word32} : SamePos w (w.portClose m q v).2 := samePos_enqueue

theorem samePos_portTry {m : Rid} {q : Nat} : SamePos w (w.portTry m q).2 := by
  refine (samePos_grantWaiters.trans (.iteSnd samePos_misuse ?_)).trans samePos_settled
  split
  · exact .pair samePos_tryRefused
  · exact .pair (samePos_openPkt.trans samePos_poolNote)

theorem samePos_portMisuse {m : Rid} {q o : Nat} : SamePos w (w.portMisuse m q o).2 :=
  samePos_misuse.trans samePos_settled

theorem samePos_portRead {m : Rid} {q o n : Nat} : SamePos w (w.portRead m q o n).2 :=
  .iteSnd samePos_portMisuse (.iteSnd samePos_portDeq (.iteSnd samePos_portDeq (.iteSnd samePos_portStat
    (.iteSnd samePos_portTry samePos_portMisuse))))

theorem samePos_portWrite {m : Rid} {q o : Nat} {bs : List Byte} : SamePos w (w.portWrite m q o bs).2 :=
  .iteSnd samePos_enqueue (.iteSnd samePos_portMisuse (.iteSnd samePos_enqueue (.iteSnd samePos_enqueue
    (.iteSnd samePos_portClose samePos_portMisuse))))

theorem samePos_pageWrite {m : Rid} {q o : Nat} {act : W → W} (hact : ∀ (v : W), SamePos v (act v)) :
    SamePos w (w.pageWrite m q o act) :=
  samePos_fwCheck.trans (.ite (hact _) .refl)

theorem samePos_appendTry {m : Rid} {q : Nat} {vs : List Word32} : SamePos w (w.appendTry m q vs) := by
  induction vs generalizing w with
  | nil => exact .refl
  | cons v vs ih => exact (samePos_pageWrite fun _ => samePos_enqueue).trans ih

theorem samePos_sendPacket {m : Rid} {q : Nat} {ws : List Word32} : SamePos w (w.sendPacket m q ws).2 := by
  refine samePos_fwCheck.trans (.iteSnd .refl ?_)
  split
  · next e => exact .iteSnd (.pair (((samePos_portTry.snd e).trans samePos_appendTry).trans (samePos_pageWrite
      (fun _ => samePos_portClose)))) (.pair (samePos_portTry.snd e))
  · next e => exact .pair (samePos_portTry.snd e)

theorem samePos_respond {m : Rid} {n : Nat} {read : Bool} {r : Machine.Acc} : SamePos w (w.respond m n read r) := by
  unfold W.respond
  split
  · exact samePos_answer
  · exact samePos_answer
  · exact .refl
  · split
    · exact samePos_answer
    · exact (samePos_when fun _ => samePos_writeFailed).trans samePos_answer
    · exact samePos_answer

theorem samePos_guarded {m : Rid} {u a n : Nat} {d : Dir} {act : W → Machine.Acc × W}
    (hact : ∀ (v : W), SamePos v (act v).2) :
    SamePos w (w.guarded m u a n d act) :=
  samePos_powered fun _ => (samePos_fwCheck.trans (.iteSnd (hact _) .refl)).trans samePos_respond

theorem samePos_strike {q : Nat} {ecc : PoolEcc} : SamePos w (w.strike q ecc) := by
  unfold W.strike
  dsimp only
  split
  · exact .refl
  · split
    · exact .refl
    · exact samePos_poolFlip
    · exact samePos_poolFlip
    · exact samePos_poolFlip
    · exact samePos_poolFlip

theorem samePos_poolBytes {m : Rid} {o n : Nat} : SamePos w (w.poolBytes m o n).2 := by
  refine (SamePos.refl.each fun _ _ => samePos_mendByte).each fun _ _ => .ite samePos_queueNote ?_
  split
  · exact samePos_breakQueue
  · exact .refl

theorem samePos_poolAccess {m : Rid} {o n : Nat} {wr : Option (List Byte)} : SamePos w (w.poolAccess m o n wr).2 := by
  unfold W.poolAccess
  split
  · exact .pair samePos_raiseAddr
  · split
    · exact (SamePos.pair samePos_poolBytes).trans samePos_settled
    · exact .iteSnd (.pair samePos_level) (.pair (samePos_poolPut.trans samePos_xlog))

theorem samePos_bobClear {v : Word32} : SamePos w (w.bobClear v) :=
  samePos_when fun _ => (samePos_setReg.trans samePos_setReg).trans samePos_setReg

/-! DRAM requests, scrub and fills (R351 to R366). -/

theorem samePos_passes {u : Nat} {m : Rid} {d : Dir} {as : List Nat} : SamePos w (w.passes u m d as).2 := by
  induction as generalizing w with
  | nil => exact .refl
  | cons a as ih =>
    unfold W.passes
    split
    · next e => exact (samePos_fwCheck.snd e).trans ih
    · exact samePos_fwCheck

theorem samePos_unmapped {a : Nat} {m : Rid} : SamePos w (w.unmapped a m).2 := .pair samePos_raiseAddr

theorem samePos_dramGate {m : Rid} {a n : Nat} {d : Dir} {act : W → Machine.Acc × W}
    (hact : ∀ (v : W), SamePos v (act v).2) :
    SamePos w (w.dramGate m a n d act).2 := by
  refine .iteSnd samePos_unmapped ?_
  split
  · next e => exact (samePos_passes.snd e).trans (hact _)
  · next e => exact .pair (samePos_passes.snd e)

theorem samePos_dramCross {a : Nat} {act : W → Machine.Acc × W} (hact : ∀ (v : W), SamePos v (act v).2) :
    SamePos w (w.dramCross a act).2 :=
  .iteSnd .refl (SamePos.refl.upd.trans (hact _))

theorem samePos_scrubCheck : SamePos w w.scrubCheck := by
  unfold W.scrubCheck
  split <;> exact .ite samePos_inactive .refl

theorem samePos_scrubbedRange {start len : Nat} : SamePos w (w.scrubbedRange start len) :=
  .ite .refl (SamePos.refl.upd.trans samePos_scrubCheck)

theorem samePos_scrubLine {l : Nat} : SamePos w (w.scrubLine l).2 :=
  .iteSnd samePos_fresh (samePos_checkLine.trans (.pair (.ite .refl samePos_storeBlock)))

theorem samePos_scrubLines {s : ScrubSum} {ls : List Nat} : SamePos w (w.scrubLines s ls).2 := by
  induction ls generalizing w s with
  | nil => exact .refl
  | cons l ls ih => exact .iteSnd ih (samePos_scrubLine.trans ih)

theorem samePos_endJob {j : ScrubJob} {dur : Nat} : SamePos w (w.endJob j dur) := .upd .refl

theorem samePos_retireAdd {v : Word32} : SamePos w (w.retireAdd v) := .ite samePos_retire .refl

theorem samePos_memcClear {ch : Nat} {v : Word32} : SamePos w (w.memcClear ch v) :=
  samePos_when fun _ => .upd (samePos_setReg.trans samePos_setReg |>.trans samePos_setReg |>.trans samePos_setReg)

/-! The watchdogs (R307 to R324). -/

theorem samePos_wdtHold {k : Nat} : SamePos w (w.wdtHold k) := .upd .refl

theorem samePos_wdtFreeze {k : Nat} {on : Bool} : SamePos w (w.wdtFreeze k on) :=
  (SamePos.refl.upd.trans samePos_wdtHold).trans samePos_wdtHeld

theorem samePos_suspend {k : Nat} : SamePos w (w.suspend k) := SamePos.refl.upd.trans samePos_wdtHold

theorem samePos_eraseBegin : SamePos w w.eraseBegin :=
  .ite .refl (SamePos.refl.upd.trans samePos_setReg |>.each (fun _ _ => samePos_suspend) |>.trans samePos_wdtHeld)

theorem samePos_suspEnd {upTo : Nat} : SamePos w (w.suspEnd upTo) :=
  (SamePos.refl.each fun _ _ => .ite (SamePos.refl.upd.trans samePos_wdtHold) .refl).trans samePos_wdtHeld

theorem samePos_eraseEnd : SamePos w w.eraseEnd := .ite .refl (SamePos.refl.upd.trans samePos_suspEnd)

theorem samePos_wdtStart {k : Nat} {v : Word64} : SamePos w (w.wdtStart k v) :=
  SamePos.refl.upd.trans (.ite ((samePos_setReg.trans samePos_suspend).trans samePos_wdtHeld) .refl)

theorem samePos_wdtApply {k : Nat} {v : Word64} : SamePos w (w.wdtApply k v) :=
  .ite .refl (.ite (.upd .refl) (.ite samePos_wdtStart (SamePos.refl.upd.trans samePos_raise)))

theorem samePos_expire {k cause token : Nat} : SamePos w (w.expire k cause token) := by
  unfold W.expire
  exact (SamePos.refl.upd.trans samePos_raise).trans samePos_wdtHeld

theorem samePos_wdtKey {k : Nat} {v : Word64} : SamePos w (w.wdtKey k v) :=
  .ite .refl (.ite (.ite samePos_expire (.upd .refl)) (.ite (.ite samePos_expire (.ite samePos_expire (.ite
    (.upd .refl) (.upd .refl)))) samePos_expire))

theorem samePos_wdtCheckin {k : Nat} {v : Word64} : SamePos w (w.wdtCheckin k v) := by
  refine .ite .refl (.ite (.upd .refl) (.ite ?_ (.upd .refl)))
  split
  · exact SamePos.refl.upd.trans samePos_raise
  · exact SamePos.refl.upd.trans samePos_raise
  · exact SamePos.refl.upd.trans samePos_expire
  · exact .upd .refl

theorem samePos_stokerReset : SamePos w w.stokerReset := .ite samePos_coreReset samePos_stokerDown

theorem samePos_unswitch {k : Nat} : SamePos w (w.unswitch k) := .upd .refl

theorem resPos_wdtStatus {p : Packet} {w : W} : ResPos w (wdtStatus p w) := resPos_need resPos_ok

/-! The image store and the flash (R441, R443). -/

theorem samePos_areaRead {k o n : Nat} : SamePos w (w.areaRead k o n).2 := by
  rw [W.areaRead]
  dsimp only
  refine .iteSnd .refl ?_
  split <;> next e => exact samePos_readLines.snd e

theorem samePos_areaWrite {k o : Nat} {bs : List Byte} : SamePos w (w.areaWrite k o bs) :=
  .ite .refl samePos_dramWrite

theorem samePos_areaZero {k n : Nat} : SamePos w (w.areaZero k n) :=
  .each .refl fun _ _ => .ite .refl samePos_writeLine

theorem samePos_stageHead : SamePos w w.stageHead.2 := by
  refine .iteSnd .refl (.iteSnd .refl ?_)
  dsimp only
  split <;> next e => exact samePos_areaRead.snd e

theorem samePos_copyHolds {u a n : Nat} {digest : List Byte} : SamePos w (w.copyHolds u a n digest).2 := by
  refine .iteSnd .refl ?_
  split <;> next e => exact .pair (samePos_hobRead.snd e)

theorem samePos_copyTo {k u o : Nat} {s : Section} : SamePos w (w.copyTo k u o s).2 := by
  unfold W.copyTo
  split
  · next e => exact ((samePos_areaRead.snd e).trans samePos_hobWrites).trans samePos_copyHolds
  · next e => exact .pair (samePos_areaRead.snd e)

theorem samePos_copySection {k h : Nat} {s : Section} : SamePos w (w.copySection k h s).2 := samePos_copyTo

theorem samePos_copySections {k h : Nat} {ss : List Machine.Section} : SamePos w (w.copySections k h ss).2 := by
  induction ss generalizing w with
  | nil => exact .refl
  | cons s ss ih => exact samePos_copySection.trans ih

theorem samePos_loadHearth {h : Nat} : SamePos w (w.loadHearth h) :=
  samePos_copySections.trans (.ite (.upd .refl) (SamePos.refl.upd.trans samePos_raise))

theorem samePos_beginJob {j : FlashJob} : SamePos w (w.beginJob j) := by
  unfold W.beginJob
  dsimp only
  split
  · exact (SamePos.ite samePos_eraseBegin .refl).upd
  · exact .ite samePos_eraseBegin .refl

theorem samePos_settleErase : SamePos w w.settleErase := .ite .refl samePos_eraseEnd

theorem samePos_addJob {j : FlashJob} : SamePos w (w.addJob j) := SamePos.refl.upd.trans (.ite samePos_beginJob .refl)

theorem samePos_newJobKey : SamePos w w.newJobKey.2 := .pair (.upd .refl)

theorem samePos_flashFail {j : FlashJob} : SamePos w (w.flashFail j) :=
  (samePos_raise.trans samePos_internal).trans samePos_finishAll

theorem samePos_persistBytes {fromStage : Bool} : SamePos w (w.persistBytes fromStage).2 :=
  .iteSnd samePos_areaRead samePos_areaRead

theorem samePos_persistEnd {j : FlashJob} {fromStage b : Bool} : SamePos w (w.persistEnd j fromStage b) := by
  unfold W.persistEnd
  dsimp only
  split
  · exact (samePos_persistBytes.trans samePos_raise).trans samePos_flashFail
  · exact .ite ((samePos_persistBytes.trans samePos_raise).trans samePos_flashFail) (samePos_persistBytes.upd.trans
        (.ite samePos_flashFail (.ite samePos_addJob samePos_finishAll)))

theorem samePos_jobDone {j : FlashJob} : SamePos w (w.jobDone j) := by
  unfold W.jobDone
  split
  · exact samePos_persistEnd
  · exact .ite (SamePos.refl.upd.trans samePos_addJob) samePos_finishAll
  · exact SamePos.refl.upd.trans samePos_finishAll
  · exact SamePos.refl.upd.trans samePos_finishAll

/-! The memory, hob and protection commands (R185, R206, R363). -/

theorem resPos_memPre {p : Packet} {k : Nat → Res} (hk : ∀ (x : Nat), ResPos w (k x)) : ResPos w (w.memPre p k) :=
  resPos_need (hk _)

theorem resPos_cmdMemStatus {p : Packet} {w : W} : ResPos w (cmdMemStatus p w) := resPos_memPre fun _ => resPos_ok

theorem resPos_cmdMemLogRead {p : Packet} {w : W} : ResPos w (cmdMemLogRead p w) := resPos_memPre fun _ => resPos_ok

theorem resPos_scrubEngine {p : Packet} {fill : Option Word32} : ResPos w (w.scrubEngine p fill) :=
  resPos_need (resPos_need (.pend .refl fun _ => .upd .refl))

theorem resPos_cmdMemScrub {p : Packet} {w : W} : ResPos w (cmdMemScrub p w) := resPos_scrubEngine

theorem resPos_cmdMemFill {p : Packet} {w : W} : ResPos w (cmdMemFill p w) := resPos_scrubEngine

theorem resPos_cmdMemRetire {p : Packet} {w : W} : ResPos w (cmdMemRetire p w) := by
  refine resPos_need (resPos_need ?_)
  split
  · next e => exact (samePos_retire.snd e).res resPos_fail
  · next e => exact ((samePos_retire.snd e).upd).res (samePos_scrubCheck.res resPos_ok)

theorem resPos_cmdMemRetireList {p : Packet} {w : W} : ResPos w (cmdMemRetireList p w) :=
  resPos_need (resPos_need resPos_ok)

theorem resPos_memLine {p : Packet} {k : Nat → Res} (hk : ∀ (x : Nat), ResPos w (k x)) : ResPos w (w.memLine p k) :=
  resPos_need (hk _)

theorem resPos_cmdMemRepairAdd {p : Packet} {w : W} : ResPos w (cmdMemRepairAdd p w) :=
  resPos_memLine fun _ => resPos_need (samePos_newJobKey.res (.pend .refl fun _ => samePos_addJob))

theorem resPos_cmdMemRepairList {p : Packet} {w : W} : ResPos w (cmdMemRepairList p w) := resPos_ok

theorem resPos_cmdMemInject {p : Packet} {w : W} : ResPos w (cmdMemInject p w) :=
  resPos_memLine fun _ => resPos_need (resPos_need (.pend .refl fun _ => samePos_setReg.trans samePos_setReg
    |>.trans samePos_setReg |>.trans samePos_setReg))

theorem resPos_cmdMemConfig {p : Packet} {w : W} : ResPos w (cmdMemConfig p w) :=
  resPos_need ((SamePos.refl.upd.trans samePos_scrubCheck).res resPos_ok)

theorem resPos_cmdHobStatus {p : Packet} {w : W} : ResPos w (cmdHobStatus p w) := resPos_need resPos_ok

theorem resPos_cmdHobCountClear {p : Packet} {w : W} : ResPos w (cmdHobCountClear p w) :=
  resPos_need (samePos_hobCntClear.res resPos_ok)

theorem resPos_cmdFwStatus {p : Packet} {w : W} : ResPos w (cmdFwStatus p w) := resPos_need resPos_ok

theorem resPos_cmdFwViolClear {p : Packet} {w : W} : ResPos w (cmdFwViolClear p w) :=
  resPos_need ((SamePos.refl.each fun _ _ => samePos_setReg).res resPos_ok)

end Sys2Proof.Proofs
end

section
/-! The strapped position is kept (R476): the chimney and the bodies of the commands. -/

namespace Sys2Proof.Proofs

open Machine Laws

set_option Elab.async false

variable {w : W}

/-! The chimney: links and frames (R478 to R484). -/

theorem samePos_onPort {up : Bool} {f : Port → Port} : SamePos w (w.onPort up f) :=
  .onChim .refl fun _ => by cases up <;> rfl

theorem samePos_chimEvt : SamePos w w.chimEvt := .each .refl fun _ _ => samePos_interrupt

theorem samePos_rewritePattern : SamePos w w.rewritePattern := .upd .refl

theorem samePos_degradedCheck {up : Bool} : SamePos w (w.degradedCheck up) :=
  .ite samePos_level (.ite samePos_inactive .refl)

theorem samePos_retrainDone : SamePos w w.retrainDone := .each .refl fun _ _ => .ite .refl samePos_finish

theorem samePos_remoteError : SamePos w w.remoteError := samePos_answer

theorem samePos_dropRemotes {p : BitVec 3 → Bool} : SamePos w (w.dropRemotes p) :=
  SamePos.refl.upd.trans (.ite (SamePos.refl.onChim.trans samePos_remoteError) .refl)

theorem samePos_linkLost {up : Bool} {st : PortSt} : SamePos w (w.linkLost up st) :=
  samePos_onPort.trans (.ite .refl (.onChim .refl)) |>.trans samePos_dropRemotes |>.trans samePos_retrainDone

theorem samePos_linkRefused {up : Bool} {peer : BitVec 3} : SamePos w (w.linkRefused up peer) :=
  (samePos_onPort.trans samePos_raise).trans samePos_retrainDone

theorem samePos_send {ws : List Word32} : SamePos w (w.send ws) := .upd .refl

theorem samePos_learnMembers {n : BitVec 4} : SamePos w (w.learnMembers n) :=
  .ite .refl ((SamePos.refl.onChim.trans samePos_rewritePattern).trans (.ite samePos_onPort
    (.ite samePos_onPort .refl)))

theorem samePos_baseBack {off : Int} : SamePos w (w.baseBack off) := .ite samePos_inactive .refl

theorem samePos_relayStatus {f : StatusFrame} : SamePos w (w.relayStatus f) := .ite samePos_send.onChim .refl

theorem samePos_dropForwards {n : Nat} : SamePos w (w.dropForwards n) :=
  SamePos.refl.onChim.each fun _ _ => .ite samePos_reply .refl

theorem samePos_retrain {up : Bool} : SamePos w (w.retrain up) := .ite .refl (samePos_linkLost.trans samePos_raise)

theorem samePos_writeRetrain {v : Word32} : SamePos w (w.writeRetrain v) :=
  (samePos_when fun _ => samePos_retrain).trans (samePos_when fun _ => samePos_retrain)

theorem resPos_cmdChimneyStatus {p : Packet} {w : W} : ResPos w (cmdChimneyStatus p w) := resPos_ok

theorem resPos_cmdChimneySet {p : Packet} {w : W} : ResPos w (cmdChimneySet p w) :=
  resPos_need (resPos_need (samePos_newJobKey.res (.pend .refl fun _ => samePos_addJob)))

theorem resPos_cmdChimneyRetrain {p : Packet} {w : W} : ResPos w (cmdChimneyRetrain p w) :=
  resPos_need (resPos_need (resPos_need (.pend .refl fun _ => samePos_writeRetrain.trans samePos_retrainDone)))

/-! Configuration transactions (R78, R79). -/

theorem samePos_setTxn {t : Option Txn} : SamePos w (w.setTxn t) := .upd .refl

theorem resPos_cmdConfigBegin {p : Packet} {w : W} : ResPos w (cmdConfigBegin p w) := by
  refine resPos_need (resPos_need ?_)
  split
  · exact .fin .refl
  · exact samePos_setTxn.res resPos_ok

theorem resPos_ownTxn {p : Packet} {k : Txn → Res} (hk : ∀ (x : Txn), ResPos w (k x)) : ResPos w (w.ownTxn p k) := by
  unfold W.ownTxn
  split
  · exact resPos_fail
  · exact .ite (hk _) resPos_fail

theorem resPos_cmdConfigWrite {p : Packet} {w : W} : ResPos w (cmdConfigWrite p w) := by
  refine resPos_ownTxn fun _ => resPos_need ((SamePos.refl.each fun _ _ => ?_).res resPos_ok)
  split
  · exact samePos_setStaged
  · exact .refl

theorem samePos_restoreBlock {t : Txn} {b : Nat} : SamePos w (w.restoreBlock t b) :=
  SamePos.refl.each (fun _ _ => samePos_setStaged) |>.trans samePos_commitGo |>.trans samePos_commitPoint

theorem samePos_txnStep : SamePos w w.txnStep.2 := by
  unfold W.txnStep
  split
  · exact .refl
  · exact .iteSnd .refl (.iteSnd (SamePos.refl.each (fun _ _ => samePos_restoreBlock) |>.trans samePos_setTxn
        |>.trans (.iteSnd .refl (.pair (samePos_setTxn.trans samePos_internal)))) (.iteSnd
        (.pair samePos_setTxn) .refl))

theorem samePos_markLevels {t : Txn} : SamePos w (w.markLevels t) :=
  .ite .refl (.each .refl fun _ _ => .ite samePos_markStandby .refl)

theorem resPos_cmdConfigCommit {p : Packet} {w : W} : ResPos w (cmdConfigCommit p w) := by
  refine resPos_ownTxn fun t => resPos_readCtxs fun v => ?_
  split
  · exact .fin .refl
  · dsimp only
    split
    · next e => exact .fin ((((samePos_markLevels.trans samePos_setTxn).each fun _ _ => samePos_commitGo).each
        fun _ _ => samePos_commitPoint).trans samePos_txnStep |>.snd e)
    · next e => exact .pend ((((samePos_markLevels.trans samePos_setTxn).each fun _ _ => samePos_commitGo).each
        fun _ _ => samePos_commitPoint).trans samePos_txnStep |>.snd e) fun _ => .refl

theorem resPos_cmdConfigAbort {p : Packet} {w : W} : ResPos w (cmdConfigAbort p w) :=
  resPos_ownTxn fun _ => samePos_abortTxn.res resPos_ok

theorem samePos_txnSettle : SamePos w w.txnSettle := by
  unfold W.txnSettle
  split
  · next e => exact (samePos_txnStep.snd e).trans samePos_finishAll
  · next e => exact samePos_txnStep.snd e

/-! The image commands and the cutover (R442 to R456). -/

theorem samePos_onImg {f : Images → Images} : SamePos w (w.onImg f) := .upd .refl

theorem resPos_cmdImageStatus {p : Packet} {w : W} : ResPos w (cmdImageStatus p w) := samePos_stageHead.res resPos_ok

theorem resPos_cmdStageBegin {p : Packet} {w : W} : ResPos w (cmdStageBegin p w) :=
  resPos_need (resPos_need (resPos_need (samePos_onImg.res (samePos_areaZero.res resPos_ok))))

theorem resPos_cmdStageChunk {p : Packet} {w : W} : ResPos w (cmdStageChunk p w) :=
  resPos_need (resPos_need (resPos_need (samePos_areaWrite.res (samePos_onImg.res resPos_ok))))

theorem resPos_cmdImageVerify {p : Packet} {w : W} : ResPos w (cmdImageVerify p w) :=
  resPos_need (resPos_need (resPos_need (.pend samePos_onImg fun _ => .refl)))

theorem resPos_cmdImageDiscard {p : Packet} {w : W} : ResPos w (cmdImageDiscard p w) :=
  resPos_need (resPos_need (resPos_need (samePos_onImg.res resPos_ok)))

theorem resPos_cmdImagePersist {p : Packet} {w : W} : ResPos w (cmdImagePersist p w) :=
  resPos_need (resPos_need (samePos_newJobKey.res (.pend samePos_addJob fun _ => .refl)))

theorem resPos_cmdCutover {p : Packet} {w : W} : ResPos w (cmdCutover p w) :=
  resPos_need (resPos_need (resPos_need (resPos_need (resPos_need (samePos_onImg.res (.pend
    (.each .refl fun _ _ => .upd .refl) fun _ => .refl))))))

theorem resPos_cmdCutoverStatus {p : Packet} {w : W} : ResPos w (cmdCutoverStatus p w) := resPos_ok

theorem samePos_copyNew {hs : List Nat} : SamePos w (w.copyNew hs).2 := by
  induction hs generalizing w with
  | nil => exact .refl
  | cons h hs ih => exact samePos_copySections.trans ih

theorem samePos_cutPass {m : Rid} {h : Nat} {v : Word32} : SamePos w (w.cutPass m h v) := by
  unfold W.cutPass
  dsimp only
  split
  · exact .refl
  · split
    · exact .refl
    · exact .ite (.ite (.upd .refl) (SamePos.refl.upd.trans samePos_cutFail)) .refl

theorem samePos_cutDone {c : Cutover} : SamePos w (w.cutDone c) :=
  samePos_onImg.each (fun _ _ => .upd .refl) |>.trans samePos_stampMode |>.trans samePos_endCutover

theorem resPos_drbg {k : Res} (hk : ResPos w k) : ResPos w (w.drbg k) := .ite (.fin samePos_internal) hk

theorem resPos_cmdAttest {p : Packet} {w : W} : ResPos w (cmdAttest p w) :=
  resPos_need (resPos_drbg (.pend .refl fun _ => .refl))

theorem resPos_cmdSessionCfg {p : Packet} {w : W} : ResPos w (cmdSessionCfg p w) :=
  resPos_need (samePos_onImg.res ((samePos_when fun _ => samePos_endSessions).res resPos_ok))

theorem resPos_cmdSessionOpen {p : Packet} {w : W} : ResPos w (cmdSessionOpen p w) :=
  resPos_need (resPos_need (resPos_drbg (.pend .refl fun _ => .refl)))

theorem samePos_openSession {q : Pend} {key : List Byte} : SamePos w (w.openSession q key) :=
  samePos_cryptoUse.trans samePos_draw |>.upd |>.upd |>.trans samePos_dropPend |>.trans samePos_deliver

theorem samePos_closing {id : Word32} : SamePos w (w.closing id) := samePos_onImg

theorem resPos_cmdSessionClose {p : Packet} {w : W} : ResPos w (cmdSessionClose p w) :=
  resPos_need (.ite (samePos_closing.res resPos_ok) (samePos_endSession.res resPos_ok))

theorem resPos_cmdSessionStatus {p : Packet} {w : W} : ResPos w (cmdSessionStatus p w) := resPos_ok

/-! The lane commands (R113 to R118). -/

theorem resPos_cmdLaneStatus {p : Packet} {w : W} : ResPos w (cmdLaneStatus p w) := resPos_need resPos_ok

theorem resPos_cmdLaneFence {p : Packet} {w : W} : ResPos w (cmdLaneFence p w) := by
  refine resPos_need ?_
  split
  · exact resPos_fail
  · exact resPos_fail
  · exact resPos_need (.pend .refl fun _ => samePos_fence)

theorem resPos_cmdLaneRetest {p : Packet} {w : W} : ResPos w (cmdLaneRetest p w) :=
  resPos_need (.pend .refl fun _ => samePos_retest)

theorem samePos_endReports {h : Nat} : SamePos w (w.endReports h) :=
  .each .refl fun _ _ => .ite samePos_inactive .refl

theorem samePos_startRestart {k : Nat} : SamePos w (w.startRestart k) := by
  unfold W.startRestart
  extract_lets -underBinder u ls w1 w2 w3 w4
  have h1 : SamePos w w1 := samePos_coreReset.upd
  have h2 : SamePos w1 w2 := by
    unfold w2
    split
    · exact samePos_abortSlice.trans samePos_testRecord
    · exact .refl
  have h3 : SamePos w2 w3 := .each .refl fun _ _ => samePos_laneTest
  have h4 : SamePos w3 w4 := .ite samePos_endReports .refl
  exact h1.trans h2 |>.trans h3 |>.trans h4 |>.trans (.ite samePos_placeLanes .refl)

theorem resPos_cmdCoreRestart {p : Packet} {w : W} : ResPos w (cmdCoreRestart p w) :=
  resPos_need (.pend .refl fun _ => samePos_startRestart)

theorem samePos_resetHearth {h : Nat} : SamePos w (w.resetHearth h) := by
  unfold W.resetHearth
  exact samePos_stopOne.trans samePos_dropRequesters |>.each (fun _ _ => samePos_clearCore.upd)
      |>.trans samePos_resetHearthRegs |>.upd |>.each (fun _ _ => .ite samePos_inactive .refl)
      |>.trans samePos_wdtHeld |>.trans samePos_settleRun

theorem resPos_cmdHearthReset {p : Packet} {w : W} : ResPos w (cmdHearthReset p w) :=
  resPos_need (resPos_need (.pend .refl fun _ => samePos_resetHearth))

theorem resPos_cmdBasteStatus {p : Packet} {w : W} : ResPos w (cmdBasteStatus p w) := resPos_ok

theorem resPos_cmdBasteResults {p : Packet} {w : W} : ResPos w (cmdBasteResults p w) :=
  resPos_need (resPos_need resPos_ok)

theorem resPos_cmdBasteNow {p : Packet} {w : W} : ResPos w (cmdBasteNow p w) := by
  refine resPos_need ?_
  split
  · exact resPos_fail
  · exact .pend .refl fun _ => samePos_bellowsTurn.trans samePos_takeTurn

theorem resPos_cmdScanOpen {p : Packet} {w : W} : ResPos w (cmdScanOpen p w) :=
  resPos_need (resPos_need (.pend .refl fun _ => (SamePos.refl.upd.each fun _ _ => samePos_coreReset).trans
    samePos_stopBellows))

theorem samePos_zeroise : SamePos w w.zeroise := by
  unfold W.zeroise
  exact (samePos_endSessions.trans samePos_clearHob).upd

/-! The Thimble's kernel (R409 to R415). -/

theorem samePos_onThm {f : Thimble → Thimble} : SamePos w (w.onThm f) :=
  SamePos.refl.upd.trans (.ite (.each .refl fun _ _ => samePos_interrupt) .refl)

theorem samePos_thmPage : SamePos w w.thmPage := by
  unfold W.thmPage
  exact samePos_onThm

theorem samePos_notice {k d1 : Nat} : SamePos w (w.notice k d1) := .ite samePos_level (.ite samePos_inactive .refl)

theorem samePos_notices : SamePos w w.notices :=
  .ite .refl (samePos_notice.trans samePos_notice |>.trans samePos_notice |>.trans samePos_notice
    |>.trans samePos_notice |>.trans samePos_notice)

theorem samePos_noticeEvent {k d1 : Nat} : SamePos w (w.noticeEvent k d1) := .ite .refl samePos_raise

theorem samePos_publish {result : Byte} {rnum : Word32} : SamePos w (w.publish result rnum) := by
  unfold W.publish
  split
  · exact .refl
  · exact samePos_onThm.trans (.ite samePos_finishAll .refl)

theorem samePos_endRequest : SamePos w w.endRequest := by
  unfold W.endRequest
  split
  · exact samePos_publish
  · exact samePos_publish
  · exact .refl

theorem samePos_endGate : SamePos w w.endGate := samePos_endRequest.trans samePos_endRequest

theorem samePos_pickSlot : SamePos w w.pickSlot := samePos_onThm.trans (.ite samePos_noticeEvent .refl)

theorem samePos_genesis {cause : Nat} : SamePos w (w.genesis cause) := by
  unfold W.genesis
  exact samePos_fresh.trans samePos_onThm

theorem samePos_thmRestart {cause : Nat} {key : Bool} : SamePos w (w.thmRestart cause key) :=
  (samePos_endGate.trans samePos_onThm).trans (.ite ((samePos_onThm.trans samePos_thmPage).trans samePos_notices)
    (samePos_onThm.trans samePos_pickSlot |>.trans samePos_genesis |>.trans samePos_onThm |>.trans samePos_thmPage
    |>.trans samePos_notices))

theorem samePos_auditStep : SamePos w w.auditStep := .beside .refl

theorem samePos_putStore {i : Nat} {c : ThmStore} : SamePos w (w.putStore i c) := .upd .refl

theorem samePos_storeParams {version : Half} {params : Tbl Word32} : SamePos w (w.storeParams version params) := by
  unfold W.storeParams
  exact samePos_putStore.trans samePos_auditStep |>.trans samePos_putStore |>.trans samePos_onThm

theorem samePos_commitCut {old : ThmStore} : SamePos w (w.commitCut old) :=
  samePos_fresh.trans (.ite .refl (.ite ((SamePos.refl.beside.trans samePos_putStore).trans samePos_putStore)
    samePos_putStore))

theorem samePos_gateGo {v : Word32} : SamePos w (w.gateGo v) := .ite samePos_onThm .refl

theorem samePos_gateAnswer {result : Byte} {rnum : Word32} : SamePos w (w.gateAnswer result rnum) :=
  (samePos_onThm.trans samePos_thmPage).trans samePos_notices

/-! The power, Thimble and field commands (R429, R473). -/

theorem resPos_cmdPwrStatus {p : Packet} {w : W} : ResPos w (cmdPwrStatus p w) := resPos_ok

theorem resPos_cmdPwrLevel {p : Packet} {w : W} : ResPos w (cmdPwrLevel p w) :=
  resPos_need (resPos_need (resPos_readCtxs fun _ => resPos_need (.ite resPos_ok ((SamePos.ite samePos_markStandby
    .refl).res (.pend .refl fun _ => samePos_targetLevel)))))

theorem resPos_domPre {p : Packet} {bits : Nat} {k : Nat → Res} (hk : ∀ (x : Nat), ResPos w (k x)) :
    ResPos w (w.domPre p bits k) :=
  resPos_need (hk _)

theorem resPos_cmdPwrVote {p : Packet} {w : W} : ResPos w (cmdPwrVote p w) :=
  resPos_domPre fun _ => .ite resPos_ok (.ite (samePos_vote.res resPos_fail) (samePos_vote.res resPos_ok))

theorem resPos_cmdPadRelease {p : Packet} {w : W} : ResPos w (cmdPadRelease p w) :=
  resPos_need (resPos_need (resPos_need (samePos_releasePads.res resPos_ok)))

theorem resPos_cmdPwrDomainStatus {p : Packet} {w : W} : ResPos w (cmdPwrDomainStatus p w) :=
  resPos_domPre fun _ => resPos_ok

theorem resPos_cmdPwrCountClear {p : Packet} {w : W} : ResPos w (cmdPwrCountClear p w) :=
  samePos_acctClear.res resPos_ok

theorem resPos_cmdThmStatus {p : Packet} {w : W} : ResPos w (cmdThmStatus p w) := resPos_ok

theorem resPos_cmdThmGate {p : Packet} {w : W} : ResPos w (cmdThmGate p w) :=
  resPos_need (resPos_need (SamePos.refl.upd.res (.pend .refl fun _ => (samePos_setReg.trans samePos_setReg).trans
    samePos_gateGo)))

theorem resPos_cmdThmForward {p : Packet} {w : W} : ResPos w (cmdThmForward p w) :=
  resPos_need (.ite (SamePos.refl.upd.res resPos_ok) (resPos_need (SamePos.refl.upd.upd.res resPos_ok)))

theorem resPos_cmdThmSlotErase {p : Packet} {w : W} : ResPos w (cmdThmSlotErase p w) :=
  resPos_need (resPos_need (samePos_newJobKey.res (.pend .refl fun _ => samePos_addJob)))

theorem resPos_cmdThmSlotWrite {p : Packet} {w : W} : ResPos w (cmdThmSlotWrite p w) :=
  resPos_need (resPos_need (resPos_need (samePos_newJobKey.res (.pend .refl fun _ => samePos_addJob))))

theorem resPos_cmdFioStatus {p : Packet} {w : W} : ResPos w (cmdFioStatus p w) := resPos_ok

/-! The loop commands (R236 to R243). -/

theorem resPos_loopPre {p : Packet} {bits : Nat} {writes : Bool} {k : Res} (hk : ResPos w k) :
    ResPos w (w.loopPre p bits writes k) :=
  resPos_need (resPos_need (resPos_need (resPos_need hk)))

theorem samePos_setOutGroup {h k g : Nat} : SamePos w (w.setOutGroup h k g) := samePos_setReg

theorem samePos_stokerHob {h off : Nat} {bs : List Byte} : SamePos w (w.stokerHob h off bs) := samePos_hobWrites

theorem resPos_cmdLoopLoad {p : Packet} {w : W} : ResPos w (cmdLoopLoad p w) :=
  resPos_loopPre (resPos_need (resPos_need (resPos_readExt fun _ => resPos_need (resPos_readCtxs fun _ => resPos_need
    (samePos_stokerHob.res ((SamePos.refl.each fun _ _ => samePos_stokerHob).res ((SamePos.refl.each fun _ _ =>
    samePos_setOutGroup).res (SamePos.refl.upd.res resPos_ok))))))))

theorem samePos_addParams {h ctx : Nat} {cells : List Host.Cell} : SamePos w (w.addParams h ctx cells) :=
  SamePos.refl.upd.trans (.ite samePos_flushParams .refl)

theorem resPos_cmdLoopParam {p : Packet} {w : W} : ResPos w (cmdLoopParam p w) :=
  resPos_loopPre (resPos_readHob fun _ _ => resPos_need (resPos_need (resPos_readExt fun _ => resPos_need
    (resPos_need (.pend .refl fun _ => samePos_addParams)))))

theorem resPos_cmdLoopMode {p : Packet} {w : W} : ResPos w (cmdLoopMode p w) :=
  resPos_loopPre (resPos_readHob fun _ _ => resPos_need (.pend .refl fun _ => samePos_addParams))

theorem resPos_cmdLoopResume {p : Packet} {w : W} : ResPos w (cmdLoopResume p w) :=
  resPos_loopPre (resPos_need (.pend .refl fun _ => samePos_ctxResume))

theorem resPos_cmdLoopStatus {p : Packet} {w : W} : ResPos w (cmdLoopStatus p w) :=
  resPos_loopPre (resPos_readHob fun _ _ => resPos_readHob fun _ _ => resPos_ok)

theorem resPos_cmdLoopImageBind {p : Packet} {w : W} : ResPos w (cmdLoopImageBind p w) :=
  resPos_loopPre (resPos_need (resPos_need (resPos_need (resPos_need (resPos_need (resPos_readCtxs fun _ =>
    resPos_need (resPos_need (resPos_need ((SamePos.refl.each fun _ _ => samePos_setStaged).res
    ((samePos_commitGo.trans samePos_commitPoint).res resPos_ok))))))))))

theorem resPos_cmdLoopExtWrite {p : Packet} {w : W} : ResPos w (cmdLoopExtWrite p w) :=
  resPos_loopPre (resPos_need (resPos_readCtxs fun _ => resPos_need (samePos_stokerHob.res resPos_ok)))

theorem resPos_cmdBellowsStatus {p : Packet} {w : W} : ResPos w (cmdBellowsStatus p w) := resPos_loopPre resPos_ok

theorem resPos_cmdBellowsCountClear {p : Packet} {w : W} : ResPos w (cmdBellowsCountClear p w) :=
  resPos_loopPre (samePos_blwClear.res resPos_ok)

theorem resPos_cmdLoopInject {p : Packet} {w : W} : ResPos w (cmdLoopInject p w) :=
  resPos_need (resPos_loopPre (resPos_need (.pend .refl fun _ => samePos_blwInject)))

/-! The schedule and time commands (R262 to R265). -/

theorem resPos_schedPre {p : Packet} {k : Nat → Res} (hk : ∀ (x : Nat), ResPos w (k x)) : ResPos w (w.schedPre p k) :=
  resPos_need (resPos_need (hk _))

theorem samePos_putPlan {h : Nat} {b : Bool} {q : Plan} : SamePos w (w.putPlan h b q) := by
  unfold W.putPlan
  exact samePos_setReg.trans samePos_setReg |>.trans samePos_setReg |>.each (fun _ _ => samePos_setReg) |>.upd

theorem resPos_cmdSchedLoad {p : Packet} {w : W} : ResPos w (cmdSchedLoad p w) :=
  resPos_schedPre fun _ => resPos_need (resPos_readCtxs fun _ => resPos_need (resPos_need (.ite
    (samePos_putPlan.res resPos_ok) (.fin .refl))))

theorem resPos_cmdSchedSwap {p : Packet} {w : W} : ResPos w (cmdSchedSwap p w) :=
  resPos_schedPre fun _ => resPos_need (resPos_readCtxs fun _ => resPos_need (.ite ((samePos_setReg.upd.trans
    samePos_takeBank).res resPos_ok) (.pend .refl fun _ => samePos_setReg.upd)))

theorem resPos_cmdSchedStatus {p : Packet} {w : W} : ResPos w (cmdSchedStatus p w) :=
  resPos_schedPre fun _ => resPos_readCtxs fun _ => resPos_ok

theorem resPos_cmdSchedCheck {p : Packet} {w : W} : ResPos w (cmdSchedCheck p w) :=
  resPos_schedPre fun _ => resPos_need (resPos_readCtxs fun _ => resPos_ok)

theorem resPos_cmdTimeStatus {p : Packet} {w : W} : ResPos w (cmdTimeStatus p w) := resPos_ok

theorem resPos_cmdTimeStep {p : Packet} {w : W} : ResPos w (cmdTimeStep p w) :=
  resPos_need (resPos_need (resPos_need (.ite resPos_ok (samePos_step.res resPos_ok))))

end Sys2Proof.Proofs
end

section
/-! The strapped position is kept (R476): the bus, the ports and the rows of the blocks. -/

namespace Sys2Proof.Proofs

open Machine Laws

set_option Elab.async false

variable {w : W}

/-! A write of a control register (R30, R31, R36). -/

theorem optPos_hobAction {u o : Nat} {v : Word32} : OptPos w (w.hobAction u o v) :=
  .ite (.some (.ite (.upd .refl) .refl)) (.ite (.some (.ite samePos_hobCntClear .refl)) (.ite
    (.some samePos_hobInject) .none))

theorem optPos_hearthAction {m : Rid} {h o : Nat} {v : Word32} : OptPos w (w.hearthAction m h o v) :=
  .ite (.some samePos_laneCmd) (.ite (.some (.upd .refl)) (.ite (.some samePos_blwInject) (.ite
    (.some samePos_ctxResume) (.ite (.some (.ite samePos_blwClear .refl)) (.ite (.some samePos_cutPass)
    optPos_hobAction)))))

theorem optPos_action {m : Rid} {typ inst o : Nat} {v : Word32} : OptPos w (w.action m typ inst o v) := by
  unfold W.action
  split
  · exact optPos_hobAction
  · exact .ite (.some samePos_vote) (.ite (.some samePos_releasePads) (.ite (.some (.ite samePos_acctClear .refl))
        .none))
  · exact optPos_writeTime
  · exact .ite (.some samePos_chCmd) .none
  · exact .ite (.some samePos_bobClear) .none
  · exact .ite (.some samePos_memcClear) (.ite (.some samePos_retireAdd) .none)
  · exact .ite (.some (.ite samePos_setReg .refl)) .none
  · exact .ite (.some samePos_writeRetrain) .none
  · exact .ite (.some samePos_basteGo) .none
  · exact optPos_hearthAction
  · exact .ite (.some samePos_gateGo) .none
  · exact .none

theorem samePos_regWrite {m : Rid} {typ inst o : Nat} {v : Word32} : SamePos w (w.regWrite m typ inst o v) := by
  refine .ite .refl (.ite samePos_commitWrite (.ite (.ite samePos_stageDiscard .refl) ?_))
  split
  · next e => exact optPos_action _ e
  · split
    · split
      · exact samePos_setStaged
      · exact .ite .refl samePos_setReg
      · exact .refl
    · exact .refl

theorem samePos_regFetch {m : Rid} {typ inst o : Nat} : SamePos w (w.regFetch m typ inst o).2 := by
  unfold W.regFetch
  dsimp only
  split
  · exact .pair (.upd .refl)
  · exact .iteSnd (.pair (.upd .refl)) .refl

/-! A request on the device's bus (R23 to R26). -/

theorem samePos_pageMisuse {m : Rid} {a : Nat} : SamePos w (w.pageMisuse m a) := .ite samePos_portMisuse .refl

theorem samePos_admitLocal {m : Rid} {a n : Nat} {r : Req} : SamePos w (w.admitLocal m a n r).2 :=
  .iteSnd .refl (.iteSnd (.pair samePos_raiseAddr) ((SamePos.iteSnd samePos_fwWrite samePos_passes).trans
    (.iteSnd .refl (.iteSnd (.pair samePos_pageMisuse) .refl))))

theorem samePos_serveReg {m : Rid} {a n typ inst base : Nat} {r : Req} :
    SamePos w (w.serveReg m a n typ inst base r).2 := by
  refine .iteSnd (.pair samePos_raise) ?_
  split
  · exact samePos_mayWrite.trans (.iteSnd (.pair samePos_regWrite) .refl)
  · exact samePos_regFetch.trans .refl

theorem samePos_serveHob {m : Rid} {u a n : Nat} {r : Req} : SamePos w (w.serveHob m u a n r).2 := by
  unfold W.serveHob
  split
  · exact .pair samePos_hobWrites
  · exact samePos_hobAtomic
  · exact .iteSnd samePos_hobRead samePos_hobReadSel

theorem samePos_serveAlias {m : Rid} {a : Nat} {r : Req} : SamePos w (w.serveAlias m a r).2 := by
  unfold W.serveAlias
  dsimp only
  split
  · exact samePos_hobAlias
  · exact .refl

theorem samePos_serveDram {m : Rid} {a n : Nat} {r : Req} : SamePos w (w.serveDram m a n r).2 := by
  refine samePos_dramCross fun _ => ?_
  split
  · exact samePos_dramWrite
  · exact samePos_atomicLine
  · exact samePos_dramRead

theorem samePos_serveLocal {m : Rid} {a n : Nat} {r : Req} : SamePos w (w.serveLocal m a n r).2 := by
  refine samePos_wakeAt.trans (.iteSnd .refl (.iteSnd .refl (.iteSnd .refl ?_)))
  split
  · exact samePos_serveHob
  · refine .iteSnd samePos_serveAlias (.iteSnd samePos_poolAccess (.iteSnd ?_ (.iteSnd .refl ?_)))
    · dsimp only
      split
      · exact samePos_portWrite
      · exact samePos_portRead
    · split
      · exact samePos_serveReg
      · exact samePos_serveDram

theorem samePos_passWalls {m : Rid} {a n : Nat} {r : Req} : SamePos w (w.passWalls m a n r).2 := by
  unfold W.passWalls
  split
  · next e => exact samePos_admitLocal.snd e
  · next e =>
    refine (samePos_admitLocal.snd e).trans ?_
    split
    · exact .refl
    · exact .iteSnd samePos_admitLocal (.iteSnd .refl .refl)

theorem samePos_perform {m : Rid} {a n : Nat} {r : Req} : SamePos w (w.perform m a n r).2 := by
  unfold W.perform
  split
  · exact samePos_serveLocal
  · exact .iteSnd samePos_serveLocal (.pair SamePos.refl.upd.onChim)

theorem samePos_access {m : Rid} {a n : Nat} {r : Req} : SamePos w (w.access m a n r).2 := by
  unfold W.access
  split
  · next e => exact .pair (samePos_passWalls.snd e)
  · next e => exact (samePos_passWalls.snd e).trans samePos_perform

theorem samePos_readPieces {m : Rid} {acc : List Byte} {ps : List (Nat × Nat)} :
    SamePos w (w.readPieces m acc ps).2 := by
  induction ps generalizing w acc with
  | nil => exact .refl
  | cons p ps ih =>
    unfold W.readPieces
    split
    · next e => exact (samePos_access.snd e).trans ih
    · exact samePos_access

theorem samePos_writePieces {m : Rid} {a : Nat} {bs : List Byte} {last : Machine.Acc} {ps : List (Nat × Nat)} :
    SamePos w (w.writePieces m a bs last ps).2 := by
  induction ps generalizing w last with
  | nil => exact .refl
  | cons p ps ih =>
    unfold W.writePieces
    split <;> next e => exact (samePos_access.snd e).trans ih

theorem samePos_remoteAnswer {r : Machine.Acc × W} : SamePos r.2 (remoteError r).2 := by
  unfold Machine.remoteError
  split <;> exact .refl

/-! The queue commands (R390 to R392). -/

theorem samePos_setQCfg {e : Word32 × QCfg} : SamePos w (w.setQCfg e) := .upd .refl

theorem resPos_cmdQueueSet {p : Packet} {w : W} : ResPos w (cmdQueueSet p w) :=
  resPos_need (resPos_need (resPos_need (resPos_need (SamePos.refl.each (fun _ _ => samePos_setQCfg)
    |>.trans samePos_poolCheck |>.res resPos_ok))))

theorem resPos_queuePre {p : Packet} {k : Nat → Res} (hk : ∀ (x : Nat), ResPos w (k x)) : ResPos w (w.queuePre p k) :=
  resPos_need (hk _)

theorem resPos_cmdQueueStatus {p : Packet} {w : W} : ResPos w (cmdQueueStatus p w) :=
  resPos_queuePre fun _ => resPos_ok

theorem samePos_brokenCheck : SamePos w w.brokenCheck := .ite .refl samePos_inactive

theorem resPos_cmdQueueFlush {p : Packet} {w : W} : ResPos w (cmdQueueFlush p w) :=
  resPos_queuePre fun _ => resPos_need (samePos_flushQueue.res (resPos_need ((samePos_brokenCheck.trans
    samePos_poolCheck).res resPos_ok)))

theorem resPos_cmdPoolStatus {p : Packet} {w : W} : ResPos w (cmdPoolStatus p w) := resPos_ok

theorem resPos_cmdQueueBind {p : Packet} {w : W} : ResPos w (cmdQueueBind p w) :=
  resPos_need (samePos_setReg.res resPos_ok)

/-! The commands of the Flue (R287, R296 to R298). -/

theorem resPos_cmdFlueStatus {p : Packet} {w : W} : ResPos w (cmdFlueStatus p w) := resPos_ok

theorem resPos_cmdFlueHistoryRead {p : Packet} {w : W} : ResPos w (cmdFlueHistoryRead p w) :=
  resPos_need (resPos_need resPos_ok)

theorem samePos_clearWindows : SamePos w w.clearWindows := .upd .refl

theorem resPos_cmdLockoutReset {p : Packet} {w : W} : ResPos w (cmdLockoutReset p w) :=
  resPos_need (SamePos.refl.upd.res (samePos_clearWindows.res ((SamePos.refl.each fun _ _ => samePos_releaseHold).res
    (samePos_setMode.res resPos_ok))))

theorem resPos_cmdErrpinRelease {p : Packet} {w : W} : ResPos w (cmdErrpinRelease p w) :=
  resPos_need (.ite resPos_ok (resPos_need (.ite (samePos_errRelease.res resPos_ok) (.pend .refl fun _ => .upd
    .refl))))

theorem resPos_cmdFlueRelease {p : Packet} {w : W} : ResPos w (cmdFlueRelease p w) :=
  resPos_need (resPos_need ((SamePos.ite samePos_releaseHold .refl).res ((SamePos.refl.each fun _ _ =>
    samePos_releaseSel).res resPos_ok)))

theorem resPos_cmdFlueTest {p : Packet} {w : W} : ResPos w (cmdFlueTest p w) :=
  resPos_need (samePos_raise.res resPos_ok)

/-- The step of `spillRead`'s recursion, where `b` reads the records after the first. It is stated of the functional of
the recursion, since the kernel would check the unfolded equation of `spillRead` by evaluating `fwCheck`. -/
theorem sndPos_spillReadStep {acc : List Byte} {r : Word32} {rs : List Word32}
    {b : List.below (motive := fun _ => W → List Byte → Option (List Byte) × W) (r :: rs)}
    (ih : ∀ v bs, SndPos v (b.1 v bs)) :
    SndPos w (W.spillRead._f (r :: rs) b w acc) := by
  delta W.spillRead._f
  refine .congrFun (b := b) (g := ?g) ?eq ?snd
  case eq => conv_lhs => whnf
  case snd =>
    refine .matchBool samePos_fwCheck (fun _ => .of .refl) fun v => ?_
    split
    · next e => exact .of ((samePos_dramRead.snd e).trans (ih _ _).out)
    · next e => exact .of (samePos_dramRead.snd e)

theorem sndPos_spillRead {acc : List Byte} {rs : List Word32} : SndPos w (w.spillRead acc rs) := by
  delta W.spillRead
  induction rs generalizing w acc with
  | nil => exact .of .refl
  | cons r rs ih => exact sndPos_spillReadStep fun _ _ => ih

theorem samePos_spillRead {acc : List Byte} {rs : List Word32} : SamePos w (w.spillRead acc rs).2 :=
  sndPos_spillRead.out

theorem resPos_cmdFlueEventsRead {p : Packet} {w : W} : ResPos w (cmdFlueEventsRead p w) := by
  refine resPos_need (resPos_need ?_)
  dsimp only
  split
  · next e => exact (samePos_spillRead.snd e).res resPos_ok
  · next e => exact ((samePos_spillRead.snd e).trans samePos_internal).res resPos_fail

theorem resPos_cmdFlueActive {p : Packet} {w : W} : ResPos w (cmdFlueActive p w) := resPos_ok

theorem resPos_cmdDampStatus {p : Packet} {w : W} : ResPos w (cmdDampStatus p w) := resPos_ok

/-! The mode, grant and session commands (R41, R81, R453). -/

theorem resPos_cmdDeviceReset {p : Packet} {w : W} : ResPos w (cmdDeviceReset p w) := SamePos.refl.upd.res resPos_ok

theorem resPos_cmdRunStart {p : Packet} {w : W} : ResPos w (cmdRunStart p w) :=
  resPos_need (resPos_need (resPos_need (resPos_readCtxs fun _ => resPos_need (resPos_need (resPos_need (resPos_need
    (SamePos.refl.upd.res (samePos_setMode.res resPos_ok))))))))

theorem resPos_cmdRunStop {p : Packet} {w : W} : ResPos w (cmdRunStop p w) := samePos_setMode.res resPos_ok

theorem resPos_cmdDozeEnter {p : Packet} {w : W} : ResPos w (cmdDozeEnter p w) :=
  resPos_need (SamePos.refl.upd.res resPos_ok)

theorem resPos_cmdMaintainEnter {p : Packet} {w : W} : ResPos w (cmdMaintainEnter p w) :=
  resPos_need (samePos_setMode.res resPos_ok)

theorem resPos_cmdMaintainExit {p : Packet} {w : W} : ResPos w (cmdMaintainExit p w) := samePos_setMode.res resPos_ok

theorem resPos_cmdNop {p : Packet} {w : W} : ResPos w (cmdNop p w) := resPos_ok

theorem resPos_cmdLcNonceGet {p : Packet} {w : W} : ResPos w (cmdLcNonceGet p w) := resPos_ok

theorem resPos_openGrant {b : List Byte} {signed : Bool} : ResPos w (w.openGrant b signed) :=
  resPos_need (resPos_need (SamePos.refl.upd.res resPos_ok))

theorem resPos_cmdExpertGrant {p : Packet} {w : W} : ResPos w (cmdExpertGrant p w) := by
  refine resPos_need (.ite (resPos_drbg (samePos_newNonce.res (resPos_need (resPos_need ?_))))
      (resPos_need resPos_openGrant))
  split
  · exact resPos_fail
  · exact resPos_openGrant

theorem samePos_endGrant {id : Word32} : SamePos w (w.endGrant id) := .upd .refl

theorem resPos_cmdGrantRelease {p : Packet} {w : W} : ResPos w (cmdGrantRelease p w) :=
  resPos_need (samePos_endGrant.res resPos_ok)

theorem resPos_cmdExpertLogRead {p : Packet} {w : W} : ResPos w (cmdExpertLogRead p w) :=
  resPos_need (resPos_need (SamePos.refl.upd.res ((SamePos.ite samePos_inactive .refl).res resPos_ok)))

theorem samePos_lcApply {b : List Byte} {target : Nat} {own : Word32} : SamePos w (w.lcApply b target own) :=
  SamePos.ite samePos_fresh.beside .refl |>.each (fun _ _ => samePos_endSession) |>.trans samePos_closing
    |>.trans (.ite (.upd .refl) .refl) |>.beside

theorem resPos_cmdLcToken {p : Packet} {w : W} : ResPos w (cmdLcToken p w) := by
  refine resPos_drbg (samePos_newNonce.res (resPos_need ?_))
  split
  · exact resPos_fail
  · exact samePos_lcApply.upd.res resPos_ok

theorem resPos_cmdTraceStatus {p : Packet} {w : W} : ResPos w (cmdTraceStatus p w) := resPos_ok

/-! The bodies of the command packets (R68 to R75). -/

theorem resPos_bodyOf {opc : Nat} {p : Packet} {w : W} : ResPos w (bodyOf opc p w) := by
  unfold bodyOf
  split
  · exact resPos_cmdDeviceReset
  · exact resPos_cmdRunStart
  · exact resPos_cmdRunStop
  · exact resPos_cmdDozeEnter
  · exact resPos_cmdMaintainEnter
  · exact resPos_cmdMaintainExit
  · exact resPos_cmdNop
  · exact resPos_cmdTimeStatus
  · exact resPos_cmdTimeStep
  · exact resPos_cmdConfigBegin
  · exact resPos_cmdConfigWrite
  · exact resPos_cmdConfigCommit
  · exact resPos_cmdConfigAbort
  · exact resPos_cmdLaneStatus
  · exact resPos_cmdLaneFence
  · exact resPos_cmdLaneRetest
  · exact resPos_cmdCoreRestart
  · exact resPos_cmdHearthReset
  · exact resPos_cmdLoopLoad
  · exact resPos_cmdLoopParam
  · exact resPos_cmdLoopMode
  · exact resPos_cmdLoopResume
  · exact resPos_cmdLoopStatus
  · exact resPos_cmdLoopImageBind
  · exact resPos_cmdLoopExtWrite
  · exact resPos_cmdBellowsStatus
  · exact resPos_cmdBellowsCountClear
  · exact resPos_cmdLoopInject
  · exact resPos_cmdSchedLoad
  · exact resPos_cmdSchedSwap
  · exact resPos_cmdSchedStatus
  · exact resPos_cmdSchedCheck
  · exact resPos_cmdMemStatus
  · exact resPos_cmdMemLogRead
  · exact resPos_cmdMemScrub
  · exact resPos_cmdMemRetire
  · exact resPos_cmdMemRetireList
  · exact resPos_cmdMemRepairAdd
  · exact resPos_cmdMemRepairList
  · exact resPos_cmdMemInject
  · exact resPos_cmdMemConfig
  · exact resPos_cmdMemFill
  · exact resPos_cmdHobStatus
  · exact resPos_cmdHobCountClear
  · exact resPos_cmdFwStatus
  · exact resPos_cmdFwViolClear
  · exact resPos_cmdQueueSet
  · exact resPos_cmdQueueStatus
  · exact resPos_cmdQueueFlush
  · exact resPos_cmdPoolStatus
  · exact resPos_cmdQueueBind
  · exact resPos_cmdFlueStatus
  · exact resPos_cmdFlueHistoryRead
  · exact resPos_cmdLockoutReset
  · exact resPos_cmdErrpinRelease
  · exact resPos_cmdFlueRelease
  · exact resPos_cmdFlueTest
  · exact resPos_cmdFlueEventsRead
  · exact resPos_cmdFlueActive
  · exact resPos_wdtStatus
  · exact resPos_cmdPwrStatus
  · exact resPos_cmdPwrLevel
  · exact resPos_cmdPwrVote
  · exact resPos_cmdPadRelease
  · exact resPos_cmdPwrDomainStatus
  · exact resPos_cmdPwrCountClear
  · exact resPos_cmdImageStatus
  · exact resPos_cmdStageBegin
  · exact resPos_cmdStageChunk
  · exact resPos_cmdImageVerify
  · exact resPos_cmdImageDiscard
  · exact resPos_cmdImagePersist
  · exact resPos_cmdCutover
  · exact resPos_cmdCutoverStatus
  · exact resPos_cmdAttest
  · exact resPos_cmdExpertGrant
  · exact resPos_cmdGrantRelease
  · exact resPos_cmdExpertLogRead
  · exact resPos_cmdLcNonceGet
  · exact resPos_cmdLcToken
  · exact resPos_cmdSessionCfg
  · exact resPos_cmdSessionOpen
  · exact resPos_cmdSessionClose
  · exact resPos_cmdSessionStatus
  · exact resPos_cmdThmStatus
  · exact resPos_cmdThmGate
  · exact resPos_cmdThmForward
  · exact resPos_cmdThmSlotErase
  · exact resPos_cmdThmSlotWrite
  · exact resPos_cmdChimneyStatus
  · exact resPos_cmdChimneySet
  · exact resPos_cmdChimneyRetrain
  · exact resPos_cmdDampStatus
  · exact resPos_cmdFioStatus
  · exact resPos_cmdBasteStatus
  · exact resPos_cmdBasteResults
  · exact resPos_cmdBasteNow
  · exact resPos_cmdScanOpen
  · exact resPos_cmdTraceStatus
  · exact resPos_fail

/-! The host ports (R62 to R65, R499). -/

theorem samePos_wakeDoze : SamePos w w.wakeDoze := .ite samePos_setMode .refl

theorem samePos_onHost {f : W → W} (hf : ∀ (v : W), SamePos v (f v)) : SamePos w (w.onHost f) :=
  .ite (samePos_wakeDoze.trans (hf _)) .refl

theorem samePos_onStoker {f : Stoker → Stoker} : SamePos w (w.onStoker f) := .upd .refl

theorem samePos_ringFault {reply : Bool} {v : Byte} : SamePos w (w.ringFault reply v) :=
  samePos_onStoker.trans samePos_raise

theorem samePos_cmdTailWrite {v : Word32} : SamePos w (w.cmdTailWrite v) :=
  .ite .refl (.ite samePos_onStoker samePos_ringFault)

theorem samePos_replyTailWrite {v : Word32} : SamePos w (w.replyTailWrite v) :=
  .ite samePos_onStoker samePos_ringFault

theorem samePos_ringResetWrite {v : Word32} : SamePos w (w.ringResetWrite v) :=
  .ite (samePos_onStoker.trans samePos_ringDue) .refl

theorem samePos_apertureWrite {v : Word32} : SamePos w (w.apertureWrite v) := samePos_onStoker

theorem samePos_hostPageWrite {o : Nat} {bs : List Byte} : SamePos w (w.hostPageWrite o bs) := by
  refine .ite .refl ?_
  split
  · exact samePos_cmdTailWrite
  · exact samePos_replyTailWrite
  · exact samePos_ringResetWrite
  · exact samePos_apertureWrite
  · exact .refl

theorem samePos_bar0Write {o : Nat} {bs : List Byte} : SamePos w (w.bar0Write o bs) :=
  .ite samePos_raiseAddr (.ite samePos_hostPageWrite samePos_onStoker)

theorem samePos_mspiBad : SamePos w w.mspiBad := SamePos.refl.upd.trans samePos_raise

theorem samePos_mspi {good : Bool} {f : W → List Byte × W} (hf : ∀ (v : W), SamePos v (f v).2) :
    SamePos w (w.mspi good f) :=
  .ite .refl (.ite (samePos_wakeDoze.trans samePos_answer) (.ite ((SamePos.refl.upd.trans
    (hf _)).trans samePos_answer) (samePos_mspiBad.trans samePos_answer)))

/-! The field ports (R386 to R388, R500 to R512). -/

theorem samePos_onPorts {f : Ports → Ports} : SamePos w (w.onPorts f) := .upd .refl

theorem samePos_dropCount {n : Nat} : SamePos w (w.dropCount n) := samePos_setReg

theorem samePos_dropFrame {n : Nat} : SamePos w (w.dropFrame n) :=
  .ite samePos_dropCount (samePos_dropCount.trans samePos_raise)

theorem samePos_receive {n : Nat} {ws : List Word32} : SamePos w (w.receive n ws) :=
  .ite samePos_dropFrame (samePos_sendPacket.trans (.ite .refl samePos_dropFrame))

theorem samePos_transmit {n : Nat} : SamePos w (w.transmit n).2 :=
  .iteSnd .refl (samePos_fwCheck.trans (.iteSnd .refl (samePos_deqPacket.trans (.pair samePos_settle))))

/-! The requests of the Thimble's gate (R416 to R424). -/

theorem samePos_gateRow {code : BitVec 4} {checks : GateReq → W → List (Bool × Byte)} {act : GateReq → W → W}
    (hact : ∀ (x : GateReq) (v : W), SamePos v (act x v)) :
    SamePos w (w.gateRow code checks act) := by
  unfold W.gateRow
  split
  · exact .refl
  · refine .ite .refl ?_
    split
    · exact samePos_gateAnswer
    · exact hact _ _

theorem samePos_gateAccept {ty : Byte} {ps : List Word32} {point : Byte} : SamePos w (w.gateAccept ty ps point) :=
  samePos_onThm.trans samePos_gateAnswer

theorem samePos_fwDecides {a : FwAnswer} {act : GateReq → W → W} {g : GateReq} {w : W}
    (hact : ∀ (x : GateReq) (v : W), SamePos v (act x v)) :
    SamePos w (fwDecides a act g w) :=
  .ite (hact _ _) samePos_gateAnswer

/-! The rows of the hobs (R189 to R200). -/

theorem samePos_hobPerform {u : Nat} {q : HobReq} : SamePos w (w.hobPerform u q).2 := by
  refine .iteSnd (.pair samePos_testerGo) ?_
  split
  · exact .iteSnd samePos_hobRead samePos_hobReadSel
  · exact .pair samePos_hobWrite
  · exact samePos_hobAlias
  · exact samePos_hobAlias
  · exact samePos_hobAtomic

theorem samePos_dmaRead {m : Rid} {acc : List Byte} {ps : List (Nat × Nat)} : SamePos w (w.dmaRead m acc ps).2 := by
  induction ps generalizing w acc with
  | nil => exact .refl
  | cons p ps ih =>
    unfold W.dmaRead
    refine .iteSnd ?_ ?_
    · split
      · next e => exact ((samePos_passWalls.snd e).trans samePos_fresh).trans ih
      · next e => exact samePos_passWalls.snd e
    · split
      · next e => exact (samePos_access.snd e).trans ih
      · next e => exact samePos_access.snd e

theorem samePos_dmaWrite {m : Rid} {a : Nat} {bs : List Byte} {ps : List (Nat × Nat)} :
    SamePos w (w.dmaWrite m a bs ps).2 := by
  induction ps generalizing w with
  | nil => exact .refl
  | cons p ps ih =>
    unfold W.dmaWrite
    refine .iteSnd ?_ ?_
    · split
      · next e => exact (samePos_passWalls.snd e).trans ih
      · next e => exact samePos_passWalls.snd e
    · split
      · next e => exact samePos_access.snd e
      · next e => exact (samePos_access.snd e).trans ih

theorem samePos_dmaIn {h c : Nat} : SamePos w (w.dmaIn h c).2 := by
  unfold W.dmaIn
  dsimp only
  cases portStay (w.chanExt h c) <;>
  · dsimp only
    split
    · exact samePos_dmaRead.trans samePos_dmaWrite
    · exact samePos_dmaRead

theorem samePos_dmaEnq {m : Rid} {a k : Nat} {xs : List (List Byte)} : SamePos w (w.dmaEnq m a k xs).2.2 := by
  induction xs generalizing w k with
  | nil => exact .refl
  | cons x xs ih =>
    unfold W.dmaEnq
    split
    · next e => exact samePos_access.snd e
    · next e => exact samePos_access.snd e
    · next e => exact (samePos_access.snd e).trans ih

theorem samePos_dmaOut {h c : Nat} : SamePos w (w.dmaOut h c).2.2 := by
  unfold W.dmaOut
  dsimp only
  split
  · exact .refl
  · split
    · next e =>
      refine (samePos_dmaRead.snd e).trans ?_
      split
      · exact samePos_dmaEnq
      · exact samePos_dmaWrite
    · next e => exact samePos_dmaRead.snd e

theorem samePos_chanHeld {h c k : Nat} : SamePos w (w.chanHeld h c k) := .upd .refl

theorem samePos_chanHalt {h c : Nat} : SamePos w (w.chanHalt h c) := SamePos.refl.upd.trans samePos_imageLate

theorem samePos_inputDone {h c : Nat} : SamePos w (w.inputDone h c) := by
  have h1 : SamePos w (if (w.inUse h 0x314).testBit c then
      w.dmaWrite (w.dmaRid h c) (hobBase h + w.inImage h + 4 * (w.chanFirst h c + w.chanCount h c))
        (le 4 ((w.dev.blw h).chans.getD c {}).frame.toNat)
        [(hobBase h + w.inImage h + 4 * (w.chanFirst h c + w.chanCount h c), 4)]
    else (true, w)).2 := .iteSnd samePos_dmaWrite .refl
  unfold W.inputDone
  dsimp only
  exact h1.trans (.ite samePos_chanHalt (SamePos.refl.upd.trans (.ite samePos_startSlots .refl)))

/-! Start-up: KINDLE (R41, R50 to R54). -/

theorem samePos_stepDone {n : Nat} : SamePos w (w.stepDone n) := .upd .refl

theorem samePos_stepSelfCheck : SamePos w w.stepSelfCheck :=
  .ite samePos_kindleHalt ((samePos_onThm.trans samePos_notices).trans samePos_stepDone)

theorem samePos_stepFuses {ok : Bool} : SamePos w (w.stepFuses ok) :=
  .ite samePos_kindleHalt ((SamePos.refl.beside.upd fun _ => by dsimp only; split <;> rfl).trans
    (.ite samePos_kindleHalt samePos_stepDone))

theorem samePos_fuseSpares {u : Nat} : SamePos w (w.fuseSpares u) := by
  unfold W.fuseSpares
  exact .upd .refl

theorem samePos_stepStoker {failed : BitVec 4} {hobOk : Bool} {rows cols : Nat} :
    SamePos w (w.stepStoker failed hobOk rows cols) :=
  .ite samePos_kindleHalt (.ite samePos_kindleHalt (samePos_clearHob.trans samePos_fuseSpares |>.upd |>.upd
    |>.each (fun _ _ => samePos_raise) |>.trans samePos_exhaustCheck |>.trans samePos_startCore
    |>.trans samePos_stepDone))

theorem samePos_stepSpares : SamePos w w.stepSpares :=
  (SamePos.refl.each fun _ _ => samePos_fuseSpares).trans samePos_stepDone

theorem samePos_trainChannel {c : Nat} {t : Training} {first : Option Training} :
    SamePos w (w.trainChannel c t first) :=
  samePos_fresh.trans (.ite (.upd .refl) (SamePos.refl.upd.trans samePos_raise))

theorem samePos_repairFail : SamePos w w.repairFail := samePos_fresh.trans samePos_raise

theorem samePos_stepDram {ts : List Training} {failedRows : List Nat} : SamePos w (w.stepDram ts failedRows) :=
  SamePos.refl.each (fun _ _ => samePos_trainChannel) |>.upd |>.each (fun _ _ => samePos_repairFail)
    |>.trans samePos_stepDone

theorem samePos_startStokerCode {head : List Byte} : SamePos w (w.startStokerCode head) := by
  unfold W.startStokerCode
  split
  · exact .refl
  · split
    · next e => exact (samePos_copyTo.snd e).upd
    · next e => exact (samePos_copyTo.snd e).trans samePos_raise

theorem samePos_slotBoots {b : Bool} : SamePos w (w.slotBoots b) :=
  (samePos_areaWrite.upd.trans samePos_startStokerCode).trans samePos_stepDone

theorem samePos_stepImage {readable : Bool} : SamePos w (w.stepImage readable) :=
  samePos_fresh.trans (.ite samePos_slotBoots (samePos_raise.trans (.ite (SamePos.refl.upd.trans samePos_stepDone)
    (.upd .refl))))

theorem samePos_stepLockout : SamePos w w.stepLockout := SamePos.refl.upd.trans samePos_stepDone

theorem samePos_stepPattern : SamePos w w.stepPattern :=
  samePos_stepDone.upd.trans (.ite samePos_setMode ((SamePos.refl.each fun _ _ => samePos_loadHearth).trans
    samePos_setMode))

theorem samePos_kindle {a : KindleResult} : SamePos w (w.kindle a) := by
  unfold W.kindle
  split
  · exact samePos_stepSelfCheck
  · exact samePos_stepFuses
  · exact samePos_stepStoker
  · exact samePos_stepSpares
  · exact samePos_stepDram
  · exact samePos_stepImage
  · exact samePos_stepLockout
  · exact samePos_stepPattern

end Sys2Proof.Proofs
end

section
/-! The strapped position is kept (R476): the cores and an idle step. -/

namespace Sys2Proof.Proofs

open Machine Laws

set_option Elab.async false

variable {w : W}

/-! How a core runs code (R145 to R149). -/

theorem samePos_issue {k : Nat} {uses : List (Bool × Reg)} {f : W → W} (hf : ∀ (v : W), SamePos v (f v)) :
    SamePos w (w.issue k uses f) :=
  .ite (hf _) .refl

theorem samePos_issueSerial {k : Nat} {f : W → W} (hf : ∀ (v : W), SamePos v (f v)) : SamePos w (w.issueSerial k f) :=
  .ite (hf _) .refl

theorem samePos_runArch {k beats : Nat} {f : Arch → Arch} : SamePos w (w.runArch k beats f) := .upd .refl

theorem samePos_entryFault {k : Nat} : SamePos w (w.entryFault k) :=
  SamePos.refl.upd.trans (.ite samePos_level (samePos_level.trans samePos_stokerDown))

theorem samePos_enter {k slot : Nat} {epc cause eaddr : Word64} {ipl : Option Nat} :
    SamePos w (w.enter k slot epc cause eaddr ipl) := by
  refine SamePos.refl.upd.trans (.ite samePos_entryFault ?_)
  split
  · next e2 => exact (samePos_access.snd e2).upd
  · next e2 => exact (samePos_access.snd e2).trans samePos_entryFault

theorem samePos_cutTrap {k code : Nat} : SamePos w (w.cutTrap k code) := .ite samePos_cutFail .refl

theorem samePos_enterTrap {k code : Nat} {epc eaddr : Word64} {detail : Nat} :
    SamePos w (w.enterTrap k code epc eaddr detail) :=
  (samePos_cutTrap.trans (.ite (.upd .refl) .refl)).trans samePos_enter

theorem samePos_raiseTrap {k code : Nat} {eaddr : Word64} {detail : Nat} :
    SamePos w (w.raiseTrap k code eaddr detail) :=
  .ite samePos_enterTrap .refl

/-! The integer instructions (R138, R142). -/

theorem samePos_opG {k : Nat} {rd : Reg} {rs : List Reg} {beats : Nat} {v : Arch → Word64} :
    SamePos w (w.opG k rd rs beats v) :=
  samePos_issue fun _ => samePos_runArch

theorem samePos_op3 {k : Nat} {rd ra rb : Reg} {f : Word64 → Word64 → Word64} {beats : Nat} :
    SamePos w (w.op3 k rd ra rb f beats) :=
  samePos_opG

theorem samePos_op2 {k : Nat} {rd ra : Reg} {f : Word64 → Word64} : SamePos w (w.op2 k rd ra f) := samePos_opG

theorem samePos_branch {k : Nat} {ra rb : Reg} {off : BitVec 16} {p : Word64 → Word64 → Bool} :
    SamePos w (w.branch k ra rb off p) :=
  samePos_issue fun _ => samePos_runArch

/-! Loads and stores of a core (R136, R137). -/

theorem samePos_admitParts {m : Rid} {r : Nat → Req} {ps : List (Nat × Nat)} : SamePos w (w.admitParts m r ps).2 := by
  induction ps generalizing w with
  | nil => exact .refl
  | cons p ps ih =>
    unfold W.admitParts
    split
    · next e => exact samePos_passWalls.snd e
    · next e => exact (samePos_passWalls.snd e).trans ih

theorem samePos_readParts {m : Rid} {r : Req} {ps : List (Nat × Nat)} : SamePos w (w.readParts m r ps).2 := by
  induction ps generalizing w with
  | nil => exact .refl
  | cons p ps ih =>
    unfold W.readParts
    split
    · next e =>
      refine (samePos_perform.snd e).trans ?_
      split <;> next e => exact ih.snd e
    · next e => exact samePos_perform.snd e
    · next e => exact samePos_perform.snd e

theorem samePos_loadAccess {k : Nat} {priv : Bool} {o : LoadOp} {linkOk : Bool} :
    SamePos w (w.loadAccess k priv o linkOk).2 := by
  unfold W.loadAccess
  dsimp only
  split
  · next e => exact .pair (samePos_admitParts.snd e)
  · next e =>
      refine .iteSnd (.iteSnd ((samePos_admitParts.snd e).trans samePos_fresh) (.pair (samePos_admitParts.snd e)))
          (.iteSnd (.pair ((samePos_admitParts.snd e).trans samePos_linkCheck)) ?_)
      split <;> next e1 => exact .pair (((samePos_admitParts.snd e).trans samePos_readParts).snd e1)

theorem samePos_startLoad {k beats : Nat} {o : LoadOp} {wait : Bool} : SamePos w (w.startLoad k beats o wait) := by
  refine .ite ?_ (.upd .refl)
  split
  · next e => exact (SamePos.ite (samePos_loadAccess.snd e) ((samePos_loadAccess.snd e).upd)).trans samePos_runArch
  · next e => exact (samePos_loadAccess.snd e).trans samePos_raiseTrap

theorem samePos_load {k : Nat} {isF : Bool} {rd ra : Reg} {imm : BitVec 16} {size : Nat} {signed wait : Bool} :
    SamePos w (w.load k isF rd ra imm size signed wait) := by
  refine samePos_issue fun _ => .ite ((samePos_when fun _ => samePos_pageMisuse).trans samePos_raiseTrap) ?_
  split
  · exact samePos_raiseTrap
  · exact samePos_startLoad

theorem samePos_retireCore {k : Nat} : SamePos w (w.retireCore k) := by
  refine .ite .refl ?_
  split
  · exact .upd .refl
  · exact SamePos.refl.upd.trans samePos_enterTrap

theorem samePos_response {k i : Nat} {r : Except (Nat × Nat) Word64} : SamePos w (w.response k i r) :=
  .ite (.upd .refl) (SamePos.refl.upd.trans (.ite .refl samePos_retireCore))

theorem samePos_storeOp {k : Nat} {isF : Bool} {rs ra : Reg} {imm : BitVec 16} {size : Nat} :
    SamePos w (w.storeOp k isF rs ra imm size) :=
  samePos_issue fun _ => .ite ((samePos_when fun _ => samePos_pageMisuse).trans samePos_raiseTrap) (.ite .refl
    (.upd .refl))

theorem samePos_writeStores {m : Rid} {ss : List Store} : SamePos w (w.writeStores m ss).2 := by
  induction ss generalizing w with
  | nil => exact .refl
  | cons s ss ih =>
    unfold W.writeStores
    split
    · next e => exact (samePos_perform.snd e).trans ih
    · exact samePos_perform

/-! The system instructions (R147, R150 to R156). -/

theorem samePos_ctlSet {k n : Nat} {v : Word64} : SamePos w (w.ctlSet k n v) :=
  .ite samePos_wdtKey (.ite samePos_wdtCheckin (.ite (.upd .refl) (.ite (.upd .refl) (.ite samePos_raise (.ite
    (.upd .refl) (.upd .refl))))))

theorem samePos_ctlAccess {k n : Nat} {write : Bool} {act : W → W} (hact : ∀ (v : W), SamePos v (act v)) :
    SamePos w (w.ctlAccess k n write act) :=
  samePos_issueSerial fun _ => .ite samePos_raiseTrap (.ite samePos_raiseTrap (hact _))

theorem samePos_ctlWrite {k : Nat} {rs : Reg} {n : Nat} : SamePos w (w.ctlWrite k rs n) :=
  samePos_ctlAccess fun _ => samePos_runArch.trans samePos_ctlSet

theorem samePos_privileged {k : Nat} {act : W → W} (hact : ∀ (v : W), SamePos v (act v)) :
    SamePos w (w.privileged k act) :=
  samePos_issueSerial fun _ => .ite (hact _) samePos_raiseTrap

theorem samePos_dropFetch {k : Nat} : SamePos w (w.dropFetch k) := .upd .refl

theorem samePos_applySync {k : Nat} : SamePos w (w.applySync k) := by
  unfold W.applySync
  dsimp only
  split
  · exact SamePos.refl.upd.trans samePos_wdtApply
  · exact .upd .refl

theorem samePos_takeDebug {k : Nat} : SamePos w (w.takeDebug k) :=
  .ite (SamePos.refl.upd.trans samePos_wdtFreeze) .refl

theorem samePos_debugDenied : SamePos w w.debugDenied := samePos_fresh.trans samePos_raiseAddr

theorem samePos_resumed {k : Nat} : SamePos w (w.resumed k) := .ite .refl samePos_retireCore

/-! A routed token (R98). -/

theorem samePos_linkError {k u : Nat} {write : Bool} : SamePos w (w.linkError k u write) := by
  refine .ite ((samePos_when fun _ => .upd .refl).trans samePos_storeNotice) ?_
  split
  · exact samePos_response
  · exact .refl

/-! The floating-point instructions (R139, R143). -/

theorem samePos_opFF {k : Nat} {rd : Reg} {rs : List Reg} {beats : Nat} {f : Arch → Nat × Nat} :
    SamePos w (w.opFF k rd rs beats f) :=
  samePos_issue fun _ => samePos_runArch

theorem samePos_opFG {k : Nat} {rd : Reg} {rs : List Reg} {beats : Nat} {f : Arch → Word64 × Nat} :
    SamePos w (w.opFG k rd rs beats f) :=
  samePos_issue fun _ => samePos_runArch

theorem samePos_opGF {k : Nat} {rd ra : Reg} {beats : Nat} {f : Arch → Nat × Nat} :
    SamePos w (w.opGF k rd ra beats f) :=
  samePos_issue fun _ => samePos_runArch

theorem samePos_arith {k : Nat} {rd ra rb : Reg} {dbl : Bool} {beats : Nat} {f : Fmt → Nat → Nat → Nat → Nat × Nat} :
    SamePos w (w.arith k rd ra rb dbl beats f) :=
  samePos_opFF

theorem samePos_fused {k : Nat} {rd ra rb rc : Reg} {dbl np na : Bool} :
    SamePos w (w.fused k rd ra rb rc dbl np na) :=
  samePos_opFF

/-! An idle step (R65, R76, R248). -/

theorem samePos_tickTb : SamePos w w.tickTb := .upd .refl

theorem samePos_writeBacks : SamePos w w.writeBacks := .each .refl fun _ _ => .ite samePos_drainAll .refl

theorem samePos_idle (armed : w.dev.sys.resetArmed = false) : SamePos w w.idle := by
  have h : w.tickTb.dev.sys.resetArmed = w.dev.sys.resetArmed := rfl
  have e : w.idle = w.tickTb.ringDue.writeBacks.dramBacks := if_neg (by rw [h, armed]; decide)
  rw [e]
  exact samePos_tickTb.trans (samePos_ringDue.trans (samePos_writeBacks.trans samePos_dramBacks))

end Sys2Proof.Proofs
end

section
/-! The strapped position is kept (R476): the commands. `OutPos s o` says that a next state in the outcome `o` has the
position of `s`; then one lemma for each arm of more than a line, and the dispatch. -/

namespace Sys2Proof.Proofs

open Machine Laws

set_option Elab.async false

/-- Where an outcome has a next state, it has the strapped position of `s`. -/
@[irreducible] def OutPos (s : State) (o : Host.Outcome State Fault Refusal) : Prop :=
  ∀ t, o = .next t → t.dev.chim.pos = s.dev.chim.pos

theorem OutPos.next {s t : State} {o : Host.Outcome State Fault Refusal} (h : OutPos s o) (e : o = .next t) :
    t.dev.chim.pos = s.dev.chim.pos := by rw [OutPos] at h; exact h t e

theorem OutPos.run {s : State} {f : W → W} (h : ∀ w, SamePos w (f w)) : OutPos s (Machine.run s f) := by
  rw [OutPos]
  intro t e
  cases e
  exact samePos_iff.mp (h _)

theorem OutPos.runFuse {s : State} {f : W → W} (h : ∀ w, SamePos w (f w)) : OutPos s (Machine.runFuse s f) := by
  rw [OutPos]
  intro t e
  cases e
  exact samePos_iff.mp (h _)

theorem OutPos.command {s : State} {opc : Half} {p : Packet} {body : Body}
    (h : ∀ (x : Packet) (v : W), ResPos v (body x v)) :
    OutPos s (Machine.command opc p body s) := .run fun _ => samePos_take h

theorem OutPos.commandFuse {s : State} {opc : Half} {p : Packet} : OutPos s (Machine.commandFuse opc p s) :=
  .runFuse fun _ => samePos_take fun _ _ => resPos_bodyOf

variable {s : State}

/-! The damper channels (R277 to R280, R305). -/

theorem outPos_energise {m : Rid} {h : HearthId} {v : Word32} {fb : BitVec 4} :
    OutPos s (execEnergise m h v fb s) :=
  .run fun _ => (SamePos.refl.each fun _ _ => .upd .refl).trans (samePos_writeRow fun _ => samePos_chCmd)

theorem outPos_armExpiry {h : HearthId} : OutPos s (execArmExpiry h s) := by
  refine .run fun _ => ?_
  dsimp only
  split
  · exact .refl
  · exact SamePos.refl.upd.trans samePos_unarm

theorem outPos_rbSettleExpiry {n : DamperId} {fb : Bool} : OutPos s (execRbSettleExpiry n fb s) :=
  .run fun _ => .ite (SamePos.refl.upd.trans (.ite samePos_damperMismatch .refl)).upd .refl

/-! The events of the Flue. -/

theorem outPos_levelSourceInactive {src : SourceId} : OutPos s (execLevelSourceInactive src s) := by
  refine .run fun _ => .ite (.ite ?_ ((SamePos.ite (.upd .refl) (.ite (.upd .refl) (.ite (.upd .refl) .refl))).trans
      (.ite samePos_inactive .refl))) .refl
  split
  · exact .refl
  · exact SamePos.refl.upd.trans samePos_inactive

theorem outPos_intakeTake : OutPos s (execIntakeTake s) := by
  refine .run fun _ => ?_
  dsimp only
  split
  · exact (SamePos.ite .refl samePos_history).trans (.upd .refl)
  · split
    · exact (SamePos.ite .refl samePos_history).trans (.upd .refl)
    · exact .refl

theorem outPos_eventRingEnqueue : OutPos s (execEventRingEnqueue s) := by
  refine .run fun w => .ite .refl ?_
  split
  · exact .refl
  split
  next ready w1 e =>
  have gap : SamePos w w1 := by
    refine .of_snd e (.iteSnd (.pair .refl) ?_)
    split
    next eg =>
    split
    next eo =>
    have rung := (samePos_ringGap.snd eg).trans (samePos_ringOne.snd eo)
    exact .pair (.ite rung.upd rung)
  split
  next ok w2 e =>
  have one : SamePos w1 w2 := .of_snd e (.iteSnd samePos_ringOne (.pair .refl))
  refine (gap.trans one).trans (.trans ?_ samePos_settle)
  exact .ite (.upd .refl) .refl

theorem outPos_spillMove {n : Nat} : OutPos s (execSpillMove n s) :=
  .run fun _ => .ite ((SamePos.refl.each fun _ _ => samePos_moveOne).trans samePos_settle) .refl

theorem outPos_cfgSweep {bad : Option (Nat × Bool)} : OutPos s (execCfgSweep bad s) := by
  refine .run fun _ => ?_
  split
  · exact .ite samePos_inactive .refl
  · split
    · exact .refl
    · exact SamePos.refl.upd.trans ((SamePos.ite samePos_setReg .refl).trans ((SamePos.ite samePos_raiseTwo
          (.ite .refl samePos_raise)).trans (.ite samePos_hwForce .refl)))

theorem outPos_quietPeriodExpiry : OutPos s (execQuietPeriodExpiry s) :=
  .run fun _ => .ite (SamePos.refl.upd.trans (.ite samePos_setMode samePos_setMode)) .refl

theorem outPos_recoveryEntryExpiry {hearth : Option HearthId} :
    OutPos s (execRecoveryEntryExpiry hearth s) := by
  refine .run fun _ => ?_
  split
  · split
    · exact .refl
    · exact .upd .refl
  · split
    · exact .refl
    · exact .upd .refl

theorem outPos_localQuietExpiry {h : HearthId} : OutPos s (execLocalQuietExpiry h s) := by
  refine .run fun w => .ite .refl ?_
  extract_lets -underBinder free hold sels times
  clear_value times
  split
  · exact .refl
  · exact SamePos.refl.upd.trans (.trans (.ite samePos_releaseHold .refl) (.each .refl fun _ _ => samePos_releaseSel))

theorem outPos_errpinHoldExpiry : OutPos s (execErrpinHoldExpiry s) :=
  .run fun _ => .ite (SamePos.refl.upd.trans (.ite samePos_errRelease samePos_errAuto)) .refl

theorem outPos_refclkLoss {which : RefClk} {kHz : Word32} : OutPos s (execRefclkLoss which kHz s) := by
  refine .run fun _ => ?_
  split
  · exact (SamePos.refl.upd.trans samePos_level).trans (.ite samePos_kindleHalt .refl)
  · exact samePos_level
  · exact samePos_level
  · exact .ite (SamePos.refl.upd.trans samePos_level) .refl

/-! The vote of a seam and the lane controller (R88 to R97, R115). -/

theorem outPos_commitToken {c : CoreId} {slot : Slot} {tok : LaneCommit} :
    OutPos s (execCommitToken c slot tok s) := by
  refine .run fun _ => .ite ?_ .refl
  split
  · exact SamePos.refl.upd.trans samePos_verdict
  · exact samePos_voteWait

theorem outPos_requestToken {c : CoreId} {slot : Slot} {tok : LaneRequest} :
    OutPos s (execRequestToken c slot tok s) := by
  refine .run fun _ => .ite ?_ .refl
  split
  · exact SamePos.refl.upd.trans samePos_verdict
  · exact samePos_voteWait

theorem outPos_stragglerWindowExpiry {c : CoreId} : OutPos s (execStragglerWindowExpiry c s) := by
  refine .run fun _ => .ite .refl ?_
  split
  · exact samePos_verdict
  · exact .refl

theorem outPos_stallMonitorExpiry {at_ : Stage} : OutPos s (execStallMonitorExpiry at_ s) := by
  refine .run fun _ => ?_
  split
  · split
    · exact .refl
    · refine .ite .refl ?_
      split
      · exact samePos_fence
      · exact samePos_haltCore
      · exact .refl
  · exact .ite .refl samePos_haltCore
  · exact samePos_bellowsCheck
  · exact .ite samePos_routerFault .refl

theorem outPos_faultDetection {src : SourceId} {d0 d1 : Word32} :
    OutPos s (execFaultDetection src d0 d1 s) := by
  refine .run fun _ => ?_
  dsimp only
  split
  · exact .ite samePos_bellowsCheck (.ite (samePos_level.trans (.ite .refl samePos_stokerDown)) (.ite samePos_raise
        (.ite samePos_level samePos_raise)))
  · exact .refl

theorem outPos_fenceWindowExpiry {u : UnitId} {lane : LaneNo} :
    OutPos s (execFenceWindowExpiry u lane s) := by
  refine .run fun _ => ?_
  split
  · exact .refl
  · exact SamePos.refl.upd.trans samePos_onLane

/-! Basting (R325 to R335). -/

theorem outPos_basteDue {u : UnitId} : OutPos s (execBasteDue u s) := by
  refine .run fun w => ?_
  extract_lets -underBinder w1 w2 w3
  have rest : SamePos w w1 := samePos_restTests
  have due : SamePos w1 w3 := (SamePos.refl.upd.trans samePos_turnDue).trans samePos_blwResume
  refine rest.trans (.ite (due.trans ?_) .refl)
  split
  · exact .upd .refl
  · exact samePos_takeTurn

theorem outPos_deferredSliceStart {u : UnitId} : OutPos s (execDeferredSliceStart u s) := by
  refine .run fun w => ?_
  extract_lets -underBinder w1 w2
  have rest : SamePos w w1 := samePos_restTests
  have resumed : SamePos w1 w2 := samePos_blwResume
  refine rest.trans (.ite (resumed.trans ?_) .refl)
  split
  · exact .refl
  · exact samePos_takeTurn

theorem outPos_bellowsSliceComplete {h : HearthId} {pass : Bool} :
    OutPos s (execBellowsSliceComplete h pass s) :=
  .run fun _ => .ite ((SamePos.refl.upd.trans samePos_basteRec).trans (.ite .refl ((SamePos.refl.upd.trans
    samePos_stopOne).trans samePos_raise))) .refl

/-! Power (R458 to R475). -/

theorem outPos_domainEntry {n : DomainId} {e : EntryEnd} : OutPos s (execDomainEntry n e s) := by
  refine .run fun _ => .ite .refl (.ite samePos_entryRefused ?_)
  split
  · exact samePos_entryRefused
  · exact .ite samePos_entryRefused samePos_domainDown
  · exact .ite samePos_entryRefused (SamePos.refl.upd.trans samePos_raise)

theorem outPos_avsVdone {rail : Fin 3} : OutPos s (execAvsVdone rail s) := by
  refine .run fun w => SamePos.trans ?_ samePos_readVca
  split
  · exact .refl
  · refine .ite (samePos_avsClear.trans samePos_levelFailed) (.ite (samePos_avsClear.trans samePos_endLevel) ?_)
    exact .upd .refl

theorem outPos_avsAckTimeout {rail : Fin 3} : OutPos s (execAvsAckTimeout rail s) := by
  refine .run fun _ => ?_
  split
  · exact .refl
  · exact .ite samePos_levelFailed (SamePos.refl.upd.trans samePos_level)

theorem outPos_tjReading {sensor : Fin 17} {deg : BitVec 8} : OutPos s (execTjReading sensor deg s) :=
  .run fun _ => .ite .refl (SamePos.refl.upd.trans (.ite samePos_level (.ite samePos_inactive .refl)))

/-! The bellows (R213, R221, R234). -/

theorem outPos_bellowsSlot {h : HearthId} {bad : Nat} : OutPos s (execBellowsSlot h bad s) := by
  refine .run fun _ => ?_
  dsimp only
  split
  · exact .refl
  · exact .ite ((SamePos.refl.upd.trans samePos_slot).trans (.ite samePos_startOutputs .refl)) .refl

/-! The time base (R248 to R252). -/

theorem outPos_frameBoundary : OutPos s (execFrameBoundary s) := by
  refine .run fun w => ?_
  extract_lets -underBinder c cur f w1 w2 w3
  have boundary : SamePos w w1 := .upd .refl
  have told : SamePos w1 w2 := .foldl .refl fun _ _ => samePos_interrupt
  have started : SamePos w2 w3 := .each .refl fun _ _ => samePos_frameStart
  refine .ite .refl (boundary.trans told |>.trans started |>.trans ?_)
  split
  · exact .ite (SamePos.refl.upd.trans samePos_stepTb) .refl
  · exact .refl

theorem outPos_tcmpFire {n : CompareId} : OutPos s (execTcmpFire n s) :=
  .run fun _ => .ite ((SamePos.refl.upd.trans samePos_interrupt).trans (.ite samePos_setReg
    ((samePos_setReg.trans samePos_setReg).trans samePos_setReg))) .refl

/-! DRAM requests, scrub and fills (R351 to R366). -/

theorem outPos_dramRead {m : Rid} {addr : Addr} {len : Nat} : OutPos s (execDramRead m addr len s) :=
  .run fun _ => samePos_powered fun _ => .ite samePos_answer ((samePos_dramGate fun _ => samePos_dramCross fun _ =>
    samePos_dramRead).trans samePos_respond)

theorem outPos_dramWrite {m : Rid} {addr : Addr} {bytes : List Byte} :
    OutPos s (execDramWrite m addr bytes s) :=
  .run fun _ => samePos_powered fun _ => .ite samePos_answer ((samePos_dramGate fun _ => samePos_dramCross fun _ =>
    samePos_dramWrite).trans samePos_respond)

theorem outPos_scrubComplete {dur : Word64} : OutPos s (execScrubComplete dur s) := by
  refine .run fun _ => ?_
  split
  · exact .ite .refl (samePos_endJob.trans samePos_scrubLines |>.trans samePos_scrubbedRange
        |>.trans samePos_finishAll)
  · exact .refl

theorem outPos_fillComplete {dur : Word64} : OutPos s (execFillComplete dur s) := by
  refine .run fun _ => ?_
  split
  · split
    · exact .refl
    · exact samePos_endJob.trans ((SamePos.refl.each fun _ _ => samePos_writeLine).trans
          (samePos_scrubbedRange.trans samePos_finishAll))
  · exact .refl

theorem outPos_scrubOverdue : OutPos s (execScrubOverdue s) := by
  refine .run fun _ => ?_
  split
  · exact SamePos.refl.upd.trans samePos_level
  · exact .refl

/-! The watchdogs (R307 to R324). -/

theorem outPos_hardTimerExpiry {c : CoreId} : OutPos s (execHardTimerExpiry c s) := by
  refine .run fun _ => ?_
  dsimp only
  split
  · exact .refl
  · exact (SamePos.refl.upd.trans samePos_cutFail).trans (samePos_raise.trans (.ite samePos_stokerReset
        ((samePos_coreReset.trans samePos_unswitch).trans (.ite samePos_startCore .refl))))

theorem outPos_suspensionLimit : OutPos s (execSuspensionLimit s) := by
  refine .run fun _ => ?_
  split
  · exact SamePos.refl.upd.trans samePos_suspEnd
  · exact .refl

/-! The chimney: links and frames (R478 to R484). -/

theorem outPos_linkUp {up : Bool} {peer : BitVec 3} {x8 : Bool} : OutPos s (execLinkUp up peer x8 s) :=
  .run fun _ => .ite .refl (.ite ((samePos_onPort.trans samePos_degradedCheck).trans samePos_retrainDone)
    samePos_linkRefused)

theorem outPos_linkDown {up : Bool} : OutPos s (execLinkDown up s) := by
  refine .run fun _ => ?_
  split
  · exact samePos_linkLost
  · exact samePos_linkLost
  · exact .refl

theorem outPos_chimneyFrame {up : Bool} {tag : Nat} {ok : Bool} :
    OutPos s (execChimneyFrame up tag ok s) :=
  .run fun _ => .ite .refl (samePos_through fun _ => .ite (samePos_onPort.trans samePos_answer)
    ((SamePos.refl.onChim.trans samePos_raise).trans (.ite samePos_linkLost samePos_onPort)))

theorem outPos_timeFrame {f : TimeFrame} : OutPos s (execTimeFrame f s) := by
  refine .run fun w => ?_
  extract_lets -underBinder f' off w1 w2 w3 w4 w5
  have learned : SamePos w w1 := samePos_learnMembers
  have reached : SamePos w1 w2 := .ite .refl (.trans (SamePos.refl.onChim) samePos_chimEvt)
  have synced : SamePos w2 w3 := samePos_sync.trans samePos_baseBack
  have safed : SamePos w3 w4 := .ite samePos_raise .refl
  have stepped : SamePos w4 w5 := by
    unfold w5
    split
    · exact .onChim .refl
    · exact .refl
  exact .ite .refl (learned.trans reached |>.trans synced |>.trans safed |>.trans stepped
      |>.trans (.ite samePos_send .refl))

theorem outPos_statusFrame {f : StatusFrame} : OutPos s (execStatusFrame f s) :=
  .run fun _ => .ite samePos_relayStatus (.ite .refl ((SamePos.refl.upd.trans (.ite .refl (samePos_chimEvt.trans
    (.ite samePos_inactive .refl)))).trans (.ite .refl samePos_rewritePattern)))

theorem outPos_baseReachTimeout : OutPos s (execBaseReachTimeout s) :=
  .run fun _ => .ite .refl ((SamePos.refl.onChim.trans samePos_chimEvt).trans (.ite (samePos_holdover.trans
    samePos_level) .refl))

theorem outPos_reachTimeout {pos : BitVec 3} : OutPos s (execReachTimeout pos s) :=
  .run fun _ => .ite .refl (SamePos.refl.upd.trans samePos_chimEvt |>.trans samePos_level
    |>.trans samePos_rewritePattern |>.trans samePos_dropForwards |>.trans samePos_dropRemotes)

/-! The image commands and the cutover (R442 to R456). -/

theorem outPos_imageVerifyComplete : OutPos s (execImageVerifyComplete s) :=
  .run fun _ => .ite .refl ((samePos_areaRead.trans samePos_onImg).trans samePos_finishAll)

theorem outPos_flashOperationComplete {dev : Fin 2} {thimble ok : Bool} :
    OutPos s (execFlashOperationComplete dev thimble ok s) := by
  refine .run fun w => ?_
  extract_lets -underBinder ok' w1
  have crossed : SamePos w w1 := .ite (.upd .refl) samePos_raise
  refine crossed.trans (.ite .refl ?_)
  split
  · exact .refl
  extract_lets -underBinder w2 w3 w4
  have erased : SamePos w1 w2 := samePos_onImg
  have ended : SamePos w2 w3 := .ite samePos_jobDone samePos_flashFail
  have begun : SamePos w3 w4 := by
    unfold w4
    split
    · exact samePos_beginJob
    · exact .refl
  exact erased.trans ended |>.trans begun |>.trans samePos_settleErase

theorem outPos_cutoverArmed : OutPos s (execCutoverArmed s) := by
  refine .run fun _ => ?_
  split
  · exact .refl
  · exact .ite .refl (samePos_copyNew.trans (.ite samePos_onImg (samePos_raise.trans samePos_endCutover)))

theorem outPos_cutoverBoundary : OutPos s (execCutoverBoundary s) := by
  refine .run fun _ => ?_
  split
  · exact .refl
  · exact .ite (SamePos.refl.upd.trans samePos_stampMode |>.trans samePos_onImg
        |>.each fun _ _ => samePos_wakeLanes) .refl

theorem outPos_cutoverSwitch : OutPos s (execCutoverSwitch s) := by
  refine .run fun _ => ?_
  split
  · exact .refl
  · refine .ite (SamePos.refl.each (fun _ _ => ?_) |>.trans samePos_onImg |>.trans samePos_drainDue) .refl
    split
    · exact .refl
    · exact (samePos_carry.each fun _ _ => .upd .refl).trans (.upd .refl)

theorem outPos_switchDeadlineExpiry : OutPos s (execSwitchDeadlineExpiry s) := by
  refine .run fun _ => ?_
  split
  · exact .refl
  · exact .ite .refl ((SamePos.refl.upd.trans samePos_stampMode).trans samePos_endCutover)

theorem outPos_cutoverCheckDeadline : OutPos s (execCutoverCheckDeadline s) := by
  refine .run fun w => ?_
  split
  · exact .refl
  refine .ite .refl ?_
  extract_lets -underBinder hs at_ tb next w1 due
  have later : SamePos w w1 := by
    unfold w1
    clear_value next
    split
    · exact .refl
    · exact .upd .refl
  refine later.trans ?_
  split
  · exact .ite samePos_cutDone .refl
  · exact samePos_cutFail

theorem outPos_cutoverFallback : OutPos s (execCutoverFallback s) := by
  refine .run fun _ => ?_
  split
  · exact .refl
  · exact .ite (SamePos.refl.upd.trans samePos_stampMode |>.trans samePos_fallback |>.trans samePos_raise) .refl

theorem outPos_attestComplete : OutPos s (execAttestComplete s) := by
  refine .run fun _ => ?_
  split
  · exact .refl
  · exact .ite (samePos_internal.trans samePos_finish) (samePos_stageHead.trans samePos_draw
        |>.trans samePos_cryptoUse |>.trans samePos_finish)

theorem outPos_sessionOpenComplete : OutPos s (execSessionOpenComplete s) := by
  refine .run fun _ => ?_
  split
  · exact .refl
  · refine .ite samePos_finish (.ite samePos_finish (.ite samePos_finish ?_))
    split
    · exact samePos_finish
    · exact .ite samePos_finish (.ite samePos_finish (.ite (samePos_internal.trans samePos_finish)
          samePos_openSession))

theorem outPos_sessionExpiry {id : Word32} : OutPos s (execSessionExpiry id s) := by
  refine .run fun _ => ?_
  split
  · exact SamePos.refl.upd.trans samePos_endSession
  · exact .refl

/-! The lane commands (R113 to R118). -/

theorem outPos_startupTestComplete {h : HearthId} {r : StartupResult} :
    OutPos s (execStartupTestComplete h r s) :=
  .run fun _ => .ite (.ite .refl samePos_startupTest.upd) (.ite .refl (samePos_startupTest.trans samePos_loadHearth
    |>.each (fun _ _ => .ite samePos_startCore .refl) |>.trans samePos_finishAll |>.trans samePos_settleRun))

theorem outPos_scanOpenComplete : OutPos s (execScanOpenComplete s) := by
  refine .run fun _ => ?_
  split
  · exact .refl
  · exact samePos_zeroise.upd.trans (samePos_raise.trans samePos_finish)

/-! The Thimble's kernel (R409 to R415). -/

theorem outPos_thmReset : OutPos s (execThmReset s) := by
  refine .runFuse fun w => ?_
  extract_lets -underBinder w1 lc w2 w3
  have key : SamePos w w1 := by
    unfold w1
    split
    · exact .refl
    · split
      next e => exact (samePos_fresh.snd e).beside
  have lost : SamePos w1 w2 := samePos_onThm
  have stored : SamePos w2 w3 := by
    unfold w3
    split
    · exact samePos_onThm
    · exact .refl
  exact .ite .refl ((key.trans lost).trans (.ite (samePos_onThm.trans samePos_notices)
    (stored.trans (((samePos_pickSlot.trans samePos_genesis).trans samePos_thmPage).trans samePos_notices))))

theorem outPos_thmBootComplete {r : ThmBoot} : OutPos s (execThmBootComplete r s) :=
  .run fun _ => .ite ((samePos_onThm.trans samePos_thmPage).trans samePos_notices) (.ite
    (samePos_onThm.trans samePos_notices) .refl)

theorem outPos_thmRstNLow : OutPos s (execThmRstNLow s) := by
  refine .runFuse fun w => ?_
  extract_lets -underBinder w1
  have cut : SamePos w w1 := by
    unfold w1
    split
    · exact samePos_commitCut
    · exact .refl
  exact .ite (cut.trans ((samePos_endGate.trans samePos_onThm).trans samePos_notices)) .refl

theorem outPos_lifecycleSensed : OutPos s (execLifecycleSensed s) :=
  .run fun _ => .ite ((samePos_onThm.trans samePos_thmPage).trans samePos_notices) .refl

theorem outPos_recordSubmit {ty point : Byte} {flags : BitVec 6} {ps : Payload} :
    OutPos s (execRecordSubmit ty point flags ps s) :=
  .run fun _ => .ite ((samePos_onThm.trans samePos_thmPage).trans samePos_notices) .refl

theorem outPos_signingTimer : OutPos s (execSigningTimer s) := by
  refine .run fun _ => ?_
  dsimp only
  split
  · exact .ite ((SamePos.refl.upd.trans samePos_onThm).trans samePos_thmPage) .refl
  · exact .refl

theorem outPos_signingComplete : OutPos s (execSigningComplete s) := by
  refine .run fun _ => ?_
  dsimp only
  split
  · exact .refl
  · exact .ite .refl (.ite samePos_onThm (samePos_fresh.trans samePos_onThm |>.trans samePos_thmPage
        |>.trans samePos_notices))

theorem outPos_gateAnswer : OutPos s (execGateAnswer s) := by
  refine .run fun _ => ?_
  split
  · exact samePos_publish.trans samePos_thmPage
  · exact .refl

theorem outPos_gateTimeout : OutPos s (execGateTimeout s) := by
  refine .run fun _ => ?_
  split
  · exact .ite ((samePos_publish.trans samePos_noticeEvent).trans samePos_thmPage) .refl
  · exact .refl

theorem outPos_thmRecordForward : OutPos s (execThmRecordForward s) := by
  refine .run fun _ => ?_
  dsimp only
  split
  · exact .refl
  · refine .ite .refl ?_
    split
    · exact .ite (samePos_onThm.trans samePos_noticeEvent) .refl
    · exact .ite (SamePos.ite (samePos_onThm.trans samePos_noticeEvent) .refl |>.trans samePos_sendPacket
          |>.trans samePos_onThm) ((SamePos.ite (samePos_onThm.trans samePos_noticeEvent) .refl).trans
          samePos_sendPacket)

/-! A request on the device's bus (R23 to R26). -/

theorem outPos_registerWrite {m : Rid} {addr : Addr} {size : Nat} {v : Word32} :
    OutPos s (execRegisterWrite m addr size v s) :=
  .run fun _ => samePos_powered fun _ => .ite .refl (samePos_access.trans samePos_respond)

theorem outPos_debugAccess {addr : Addr} {wr : Option Word32} : OutPos s (execDebugAccess addr wr s) :=
  .run fun _ => .ite .refl ((samePos_wakeDom.trans (.iteSnd samePos_access (.pair samePos_raiseAddr))).trans
    samePos_respond)

theorem outPos_windowRequest {q : WinReq} : OutPos s (execWindowRequest q s) := by
  refine .run fun _ => samePos_powered fun w => ?_
  extract_lets -underBinder a r
  split
  · exact .refl
  refine .ite .refl ?_
  split
  next x w1 e =>
  have served : SamePos w w1 := by
    refine .of_snd e (.iteSnd samePos_access (.iteSnd (SamePos.trans ?_ samePos_remoteAnswer) .refl))
    split
    · exact samePos_writePieces
    · exact samePos_readPieces
  exact served.trans samePos_respond

theorem outPos_windowResponse {n : Nat} {ok : Bool} {v : Word64} :
    OutPos s (execWindowResponse n ok v s) := by
  refine .run fun _ => ?_
  split
  · exact .refl
  · exact .ite .refl (SamePos.refl.onChim.trans (.ite samePos_remoteError (.ite samePos_answer samePos_answer)))

/-! The mode, grant and session commands (R41, R81, R453). -/

theorem outPos_grantExpiry {id : Word32} : OutPos s (execGrantExpiry id s) := by
  refine .run fun _ => ?_
  split
  · exact SamePos.refl.upd.trans samePos_endGrant
  · exact .refl

/-! The bodies of the command packets (R68 to R75). -/

theorem outPos_forwardedReply {pos : BitVec 3} {seq status : BitVec 16} {final : Bool} {mode : BitVec 4}
    {result : List Word32} {origin : Nat} :
    OutPos s (execForwardedReply pos seq status final mode result s origin) := by
  refine .run fun _ => ?_
  split
  · exact .refl
  · exact (SamePos.ite (.onChim .refl) .refl).trans (.ite .refl (.ite samePos_deliver
        (samePos_deliver.trans samePos_store)))

theorem outPos_pendingCommandStart {n : Nat} : OutPos s (execPendingCommandStart n s) := by
  refine .runFuse fun _ => ?_
  split
  · exact .refl
  · refine .ite (.ite samePos_forwardPend .refl) ?_
    split
    · exact .ite (samePos_startPend fun _ _ => resPos_bodyOf) .refl
    · exact .refl

/-! The host ports (R62 to R65, R499). -/

theorem outPos_hostRead {bar2 : Bool} {off : Word32} {size : Nat} :
    OutPos s (execHostRead bar2 off size s) :=
  .run fun _ => samePos_onHost fun _ => samePos_through fun _ => samePos_through fun _ => .ite
    (samePos_readPieces.trans samePos_respond) (.ite samePos_answer .refl)

theorem outPos_hostWrite {bar2 : Bool} {off : Word32} {bytes : List Byte} :
    OutPos s (execHostWrite bar2 off bytes s) :=
  .run fun _ => samePos_onHost fun _ => samePos_through fun _ => .ite (samePos_writePieces.trans samePos_answer)
    (.ite (samePos_bar0Write.trans samePos_answer) .refl)

theorem outPos_configurationRequest {off : BitVec 12} {wr : Option Word32} :
    OutPos s (execConfigurationRequest off wr s) := by
  refine .run fun _ => .ite .refl ?_
  split
  · exact samePos_answer
  · exact (SamePos.ite (.upd .refl) (.ite (.upd .refl) .refl)).trans samePos_answer

theorem outPos_mspiReadReply {complete : Bool} : OutPos s (execMspiReadReply complete s) := by
  refine .run fun _ => samePos_mspi fun _ => ?_
  split
  · exact .refl
  · exact .pair (.upd .refl)

/-! The field ports (R386 to R388, R500 to R512). -/

theorem outPos_ethFrameReceive {mac : Fin 2} {f : EthFrame} : OutPos s (execEthFrameReceive mac f s) := by
  refine .run fun _ => .ite .refl (samePos_through fun _ => ?_)
  split
  · exact .ite samePos_sync .refl
  · exact .ite (.ite .refl samePos_onPorts) (samePos_fresh.trans samePos_receive)
  · exact .refl
  · exact samePos_receive

theorem outPos_ethFrameTransmit {mac : Fin 2} : OutPos s (execEthFrameTransmit mac s) := by
  refine .run fun _ => .ite .refl (samePos_through fun _ => ?_)
  split
  · next e => exact samePos_transmit.snd e
  · next e => exact .ite ((samePos_transmit.snd e).trans samePos_dropCount) ((samePos_transmit.snd e).trans
      samePos_onPorts)

theorem outPos_canFrameTransmit {c : Fin 8} : OutPos s (execCanFrameTransmit c s) := by
  refine .run fun _ => .ite (samePos_through fun _ => ?_) .refl
  split
  · next e => exact (samePos_transmit.snd e).trans samePos_onPorts
  · next e => exact samePos_transmit.snd e

theorem outPos_gpioEdge {pin : Fin 128} {level : Bool} : OutPos s (execGpioEdge pin level s) :=
  .run fun _ => .ite .refl (samePos_through fun _ => samePos_onPorts.each fun _ _ => samePos_interrupt)

theorem outPos_bfifoPointerFault {n : Fin 30} : OutPos s (execBfifoPointerFault n s) :=
  .run fun _ => .ite .refl (SamePos.refl.upd.trans samePos_onPorts
    |>.trans (.ite (samePos_onPorts.trans (.ite samePos_level .refl)) (.ite (.ite samePos_linkLost .refl) .refl))
    |>.trans samePos_raise)

/-! The requests of the Thimble's gate (R416 to R424). -/

theorem outPos_thmStart {fw : FwAnswer} : OutPos s (execThmStart fw s) :=
  .run fun _ => samePos_gateRow fun _ _ => samePos_fwDecides fun _ _ => samePos_onThm.trans samePos_gateAccept

theorem outPos_thmStop {fw : FwAnswer} : OutPos s (execThmStop fw s) :=
  .run fun _ => samePos_gateRow fun _ _ => samePos_fwDecides fun _ _ => samePos_onThm.trans samePos_gateAccept

theorem outPos_presetTare {fw : FwAnswer} : OutPos s (execPresetTare fw s) :=
  .run fun _ => samePos_gateRow fun _ _ => samePos_fwDecides fun _ _ => samePos_gateAccept

theorem outPos_clearTare {fw : FwAnswer} : OutPos s (execClearTare fw s) :=
  .run fun _ => samePos_gateRow fun _ _ => samePos_fwDecides fun _ _ => samePos_gateAccept

theorem outPos_batchOpen {fw : FwAnswer} : OutPos s (execBatchOpen fw s) :=
  .run fun _ => samePos_gateRow fun _ _ => samePos_fwDecides fun _ _ => samePos_onThm.trans samePos_gateAccept

theorem outPos_batchClose {fw : FwAnswer} : OutPos s (execBatchClose fw s) :=
  .run fun _ => samePos_gateRow fun _ _ => samePos_fwDecides fun _ _ => (samePos_gateAccept.trans samePos_onThm).trans
    samePos_thmPage

theorem outPos_paramWrite {fw : FwAnswer} : OutPos s (execParamWrite fw s) :=
  .run fun _ => samePos_gateRow fun _ _ => samePos_fwDecides fun _ _ => samePos_onThm.trans samePos_gateAnswer

theorem outPos_paramCommit {fw : FwAnswer} : OutPos s (execParamCommit fw s) :=
  .runFuse fun _ => samePos_gateRow fun _ _ => samePos_fwDecides fun _ _ => samePos_storeParams.trans samePos_onThm
    |>.trans samePos_onThm |>.trans samePos_gateAnswer

theorem outPos_imageActivate : OutPos s (execImageActivate s) :=
  .runFuse fun _ => samePos_gateRow fun _ _ => SamePos.ite (samePos_fresh.beside.trans samePos_auditStep) .refl
    |>.trans samePos_storeParams |>.trans samePos_gateAccept |>.trans samePos_thmRestart

/-! The rows of the hobs (R189 to R200). -/

theorem outPos_hobAccess {u : UnitId} {waiting : List HobReq} : OutPos s (execHobAccess u waiting s) := by
  refine .run fun _ => samePos_powered fun w => ?_
  extract_lets -underBinder h qs
  split
  · exact .refl
  extract_lets -underBinder others news w1 w2
  have turn : SamePos w w2 := SamePos.refl.upd.trans samePos_conflict
  split
  next e =>
  exact (turn.trans (samePos_hobPerform.snd e)).trans (samePos_granted.trans (.ite .refl samePos_respond))

theorem outPos_imageChannelComplete {h : HearthId} {ch : Fin 16} {halted : Bool} :
    OutPos s (execImageChannelComplete h ch halted s) := by
  refine .run fun w => ?_
  extract_lets -underBinder c isIn
  refine .ite .refl ?_
  split
  next r k w1 e =>
  have moved : SamePos w w1 := by
    split at e
    · cases e; exact .refl
    split at e
    · cases e; exact samePos_dmaIn
    · have h := samePos_dmaOut (w := w) (h := h) (c := c)
      rw [e] at h
      exact h
  extract_lets -underBinder w2
  refine moved.trans (SamePos.trans (b := w2) (.upd .refl) ?_)
  split
  · exact samePos_chanHeld
  · exact samePos_chanHalt.trans samePos_interruptHearth
  · exact SamePos.trans (.ite samePos_inputDone (.upd .refl)) samePos_interruptHearth

/-! Start-up: KINDLE (R41, R50 to R54). -/

theorem outPos_stokerRestartComplete : OutPos s (execStokerRestartComplete s) :=
  .run fun _ => .ite (SamePos.ite .refl samePos_startStokerCode |>.upd
    |>.each fun _ _ => .ite samePos_inactive .refl) .refl

/-! How a core runs code (R145 to R149). -/

theorem outPos_interruptEntry {c : CoreId} {late : List Nat} :
    OutPos s (execInterruptEntry c late s) := by
  refine .run fun _ => samePos_issueSerial fun _ => .ite .refl ?_
  split
  · exact .refl
  · exact SamePos.refl.upd.trans (SamePos.refl.upd.trans samePos_enter)

/-! Loads and stores of a core (R136, R137). -/

theorem outPos_atomic {c : CoreId} {rd ra rb : Reg} {fn : BitVec 11} {wait : Bool} :
    OutPos s (execAtomic c rd ra rb fn s wait) :=
  .run fun _ => samePos_issueSerial fun _ => .ite samePos_raiseTrap (.ite .refl (.ite
    (samePos_pageMisuse.trans samePos_raiseTrap) (.ite samePos_raiseTrap samePos_startLoad)))

theorem outPos_loadResponse {c : CoreId} {linkOk : Bool} {stall idx : Nat} :
    OutPos s (execLoadResponse c linkOk stall s idx) := by
  refine .run fun _ => ?_
  dsimp only
  split
  · exact .refl
  · exact .ite .refl ((SamePos.refl.upd.trans (.iteSnd .refl samePos_loadAccess)).trans samePos_response)

theorem outPos_storeAccept {c : CoreId} {linkOk : Bool} {stall : Nat} :
    OutPos s (execStoreAccept c linkOk s stall) := by
  refine .run fun w => ?_
  split
  · exact .refl
  extract_lets -underBinder es n m pop a
  have popped (v : W) : SamePos v (pop v) := .upd .refl
  have told (v : W) (x : Nat) : SamePos v ((pop v).storeNotice c x) := (popped v).trans samePos_storeNotice
  refine .ite .refl (.ite ((told w 1).trans samePos_raise) ?_)
  split
  · next e => exact (samePos_admitParts.snd e).trans (told _ _)
  · next e =>
    refine (samePos_admitParts.snd e).trans (.ite (.ite (popped _) (told _ _)) ?_)
    refine .ite (popped _ |>.trans samePos_linkCheck |>.trans samePos_storeNotice) ?_
    split
    · next e => exact samePos_writeStores.snd e
    · next e => exact (samePos_writeStores.snd e).trans (told _ _)
    · next e => exact (samePos_writeStores.snd e).trans (popped _)

/-! The system instructions (R147, R150 to R156). -/

theorem outPos_syncF {c : CoreId} : OutPos s (execSyncF c s) :=
  .run fun _ => samePos_issueSerial fun _ => .ite (samePos_runArch.trans samePos_dropFetch) .refl

theorem outPos_syncC {c : CoreId} : OutPos s (execSyncC c s) :=
  .run fun _ => samePos_privileged fun _ => (samePos_runArch.trans samePos_applySync).trans samePos_dropFetch

theorem outPos_wait {c : CoreId} : OutPos s (execWait c s) :=
  .run fun _ => samePos_privileged fun _ => samePos_runArch.trans (.ite (SamePos.refl.upd.upd.trans samePos_wakeLanes)
    (.ite .refl (.upd .refl)))

theorem outPos_coreWake {c : CoreId} : OutPos s (execCoreWake c s) :=
  .run fun _ => .ite (SamePos.refl.upd.trans samePos_wakeLanes |>.trans samePos_wakeHob
    |>.trans samePos_takeDebug) .refl

theorem outPos_bkpt {c : CoreId} : OutPos s (execBkpt c s) :=
  .run fun _ => samePos_issueSerial fun _ => samePos_runArch.trans (.ite (SamePos.refl.upd.trans samePos_takeDebug)
    samePos_enterTrap)

theorem outPos_debugHaltRequest {c : CoreId} : OutPos s (execDebugHaltRequest c s) :=
  .run fun _ => .ite samePos_debugDenied (.ite (SamePos.refl.upd.trans samePos_takeDebug) .refl)

theorem outPos_rethreadComplete {c : CoreId} {r : RethreadEnd} {seamOk : Bool} :
    OutPos s (execRethreadComplete c r seamOk s) :=
  .run fun _ => (samePos_rethreadEnd.trans samePos_resumed).trans samePos_takeDebug

theorem outPos_rethreadTimerExpiry {c : CoreId} : OutPos s (execRethreadTimerExpiry c s) :=
  .run fun _ => (samePos_rethreadTimeout.trans samePos_resumed).trans samePos_takeDebug

/-! A routed token (R98). -/

theorem outPos_routedToken {u : UnitId} {m : Rid} {write ok : Bool} :
    OutPos s (execRoutedToken u m write ok s) :=
  .run fun _ => .ite .refl ((samePos_routerFault.trans (.ite samePos_linkError (.ite samePos_linkError
    (.ite samePos_chanHalt .refl)))).trans samePos_answer)

/-! The dispatch. -/

/-- No command but those that reset the device, and the rising edge of RESET_N, changes the strapped position. -/
theorem outPos_exec {i : Instr} (on : i ≠ .vcaTurnOn) (brown : i ≠ .vcaBrownOut) (low : i ≠ .resetNLow)
    (high : ∀ pos, i ≠ .resetNHigh pos) : OutPos s (exec i s) := by
  unfold exec
  cases i with
  | vcaTurnOn => exact absurd rfl on
  | vcaBrownOut => exact absurd rfl brown
  | resetNLow => exact absurd rfl low
  | resetNHigh pos => exact absurd rfl (high pos)
  | kindleStepComplete => exact .runFuse fun _ => .ite samePos_kindle .refl
  | cmdTailWrite => exact .run fun _ => samePos_onHost fun _ => samePos_cmdTailWrite
  | replyTailWrite => exact .run fun _ => samePos_onHost fun _ => samePos_replyTailWrite
  | ringReset => exact .run fun _ => samePos_onHost fun _ => samePos_ringResetWrite
  | apertureWrite => exact .run fun _ => samePos_onHost fun _ => samePos_apertureWrite
  | unknownOpcode => exact .run fun _ => .ite (samePos_take fun _ _ => resPos_bodyOf) .refl
  | commandForward => exact .run fun _ => .ite (samePos_take fun _ _ => resPos_bodyOf) .refl
  | forwardedReply => exact outPos_forwardedReply
  | pendingCommandStart => exact outPos_pendingCommandStart
  | deviceReset => exact .command fun _ _ => resPos_cmdDeviceReset
  | runStart => exact .command fun _ _ => resPos_cmdRunStart
  | runStop => exact .command fun _ _ => resPos_cmdRunStop
  | dozeEnter => exact .command fun _ _ => resPos_cmdDozeEnter
  | dozeEntry => exact .run fun _ => .ite (SamePos.refl.upd.trans samePos_setMode) .refl
  | maintainEnter => exact .command fun _ _ => resPos_cmdMaintainEnter
  | maintainExit => exact .command fun _ _ => resPos_cmdMaintainExit
  | nop => exact .command fun _ _ => resPos_cmdNop
  | timeStatus => exact .command fun _ _ => resPos_cmdTimeStatus
  | timeStep => exact .command fun _ _ => resPos_cmdTimeStep
  | configBegin => exact .command fun _ _ => resPos_cmdConfigBegin
  | configWrite => exact .command fun _ _ => resPos_cmdConfigWrite
  | configCommit => exact .command fun _ _ => resPos_cmdConfigCommit
  | configAbort => exact .command fun _ _ => resPos_cmdConfigAbort
  | laneStatus => exact .command fun _ _ => resPos_cmdLaneStatus
  | laneFence => exact .command fun _ _ => resPos_cmdLaneFence
  | laneRetest => exact .command fun _ _ => resPos_cmdLaneRetest
  | coreRestart => exact .command fun _ _ => resPos_cmdCoreRestart
  | hearthReset => exact .command fun _ _ => resPos_cmdHearthReset
  | loopLoad => exact .command fun _ _ => resPos_cmdLoopLoad
  | loopParam => exact .command fun _ _ => resPos_cmdLoopParam
  | loopMode => exact .command fun _ _ => resPos_cmdLoopMode
  | loopResume => exact .command fun _ _ => resPos_cmdLoopResume
  | loopStatus => exact .command fun _ _ => resPos_cmdLoopStatus
  | loopImageBind => exact .command fun _ _ => resPos_cmdLoopImageBind
  | loopExtWrite => exact .command fun _ _ => resPos_cmdLoopExtWrite
  | bellowsStatus => exact .command fun _ _ => resPos_cmdBellowsStatus
  | bellowsCountClear => exact .command fun _ _ => resPos_cmdBellowsCountClear
  | loopInject => exact .command fun _ _ => resPos_cmdLoopInject
  | schedLoad => exact .command fun _ _ => resPos_cmdSchedLoad
  | schedSwap => exact .command fun _ _ => resPos_cmdSchedSwap
  | schedStatus => exact .command fun _ _ => resPos_cmdSchedStatus
  | schedCheck => exact .command fun _ _ => resPos_cmdSchedCheck
  | memStatus => exact .command fun _ _ => resPos_cmdMemStatus
  | memLogRead => exact .command fun _ _ => resPos_cmdMemLogRead
  | memScrub => exact .command fun _ _ => resPos_cmdMemScrub
  | memRetire => exact .command fun _ _ => resPos_cmdMemRetire
  | memRetireList => exact .command fun _ _ => resPos_cmdMemRetireList
  | memRepairAdd => exact .command fun _ _ => resPos_cmdMemRepairAdd
  | memRepairList => exact .command fun _ _ => resPos_cmdMemRepairList
  | memInject => exact .command fun _ _ => resPos_cmdMemInject
  | memConfig => exact .command fun _ _ => resPos_cmdMemConfig
  | memFill => exact .command fun _ _ => resPos_cmdMemFill
  | hobStatus => exact .command fun _ _ => resPos_cmdHobStatus
  | hobCountClear => exact .command fun _ _ => resPos_cmdHobCountClear
  | fwStatus => exact .command fun _ _ => resPos_cmdFwStatus
  | fwViolClear => exact .command fun _ _ => resPos_cmdFwViolClear
  | queueSet => exact .command fun _ _ => resPos_cmdQueueSet
  | queueStatus => exact .command fun _ _ => resPos_cmdQueueStatus
  | queueFlush => exact .command fun _ _ => resPos_cmdQueueFlush
  | poolStatus => exact .command fun _ _ => resPos_cmdPoolStatus
  | queueBind => exact .command fun _ _ => resPos_cmdQueueBind
  | flueStatus => exact .command fun _ _ => resPos_cmdFlueStatus
  | flueHistoryRead => exact .command fun _ _ => resPos_cmdFlueHistoryRead
  | lockoutReset => exact .command fun _ _ => resPos_cmdLockoutReset
  | errpinRelease => exact .command fun _ _ => resPos_cmdErrpinRelease
  | flueRelease => exact .command fun _ _ => resPos_cmdFlueRelease
  | flueTest => exact .command fun _ _ => resPos_cmdFlueTest
  | flueEventsRead => exact .command fun _ _ => resPos_cmdFlueEventsRead
  | flueActive => exact .command fun _ _ => resPos_cmdFlueActive
  | wdtStatus => exact .command fun _ _ => resPos_wdtStatus
  | pwrStatus => exact .command fun _ _ => resPos_cmdPwrStatus
  | pwrLevel => exact .command fun _ _ => resPos_cmdPwrLevel
  | pwrVote => exact .command fun _ _ => resPos_cmdPwrVote
  | padRelease => exact .command fun _ _ => resPos_cmdPadRelease
  | pwrDomainStatus => exact .command fun _ _ => resPos_cmdPwrDomainStatus
  | pwrCountClear => exact .command fun _ _ => resPos_cmdPwrCountClear
  | imageStatus => exact .command fun _ _ => resPos_cmdImageStatus
  | imageStageBegin => exact .command fun _ _ => resPos_cmdStageBegin
  | imageStageChunk => exact .command fun _ _ => resPos_cmdStageChunk
  | imageVerify => exact .command fun _ _ => resPos_cmdImageVerify
  | imageDiscard => exact .command fun _ _ => resPos_cmdImageDiscard
  | imagePersist => exact .command fun _ _ => resPos_cmdImagePersist
  | cutover => exact .command fun _ _ => resPos_cmdCutover
  | cutoverStatus => exact .command fun _ _ => resPos_cmdCutoverStatus
  | attest => exact .command fun _ _ => resPos_cmdAttest
  | expertGrant => exact .command fun _ _ => resPos_cmdExpertGrant
  | grantRelease => exact .command fun _ _ => resPos_cmdGrantRelease
  | expertLogRead => exact .command fun _ _ => resPos_cmdExpertLogRead
  | lcNonceGet => exact .command fun _ _ => resPos_cmdLcNonceGet
  | lcToken => exact .commandFuse
  | sessionCfg => exact .command fun _ _ => resPos_cmdSessionCfg
  | sessionOpen => exact .command fun _ _ => resPos_cmdSessionOpen
  | sessionClose => exact .command fun _ _ => resPos_cmdSessionClose
  | sessionStatus => exact .command fun _ _ => resPos_cmdSessionStatus
  | thmStatus => exact .command fun _ _ => resPos_cmdThmStatus
  | thmGate => exact .command fun _ _ => resPos_cmdThmGate
  | thmForward => exact .command fun _ _ => resPos_cmdThmForward
  | thmSlotErase => exact .command fun _ _ => resPos_cmdThmSlotErase
  | thmSlotWrite => exact .command fun _ _ => resPos_cmdThmSlotWrite
  | chimneyStatus => exact .command fun _ _ => resPos_cmdChimneyStatus
  | chimneySet => exact .command fun _ _ => resPos_cmdChimneySet
  | chimneyRetrain => exact .command fun _ _ => resPos_cmdChimneyRetrain
  | dampStatus => exact .command fun _ _ => resPos_cmdDampStatus
  | fioStatus => exact .command fun _ _ => resPos_cmdFioStatus
  | basteStatus => exact .command fun _ _ => resPos_cmdBasteStatus
  | basteResults => exact .command fun _ _ => resPos_cmdBasteResults
  | basteNow => exact .command fun _ _ => resPos_cmdBasteNow
  | scanOpen => exact .command fun _ _ => resPos_cmdScanOpen
  | traceStatus => exact .command fun _ _ => resPos_cmdTraceStatus
  | mspiWriteCmd => exact .run fun _ => samePos_mspi fun _ => .pair (.ite (.upd .refl) .refl)
  | mspiReadReply => exact outPos_mspiReadReply
  | mspiReadPoll => exact .run fun _ => samePos_mspi fun _ => .refl
  | mspiReadPattern => exact .run fun _ => samePos_mspi fun _ => .refl
  | mspiStatus => exact .run fun _ => samePos_mspi fun _ => .pair (.upd .refl)
  | commit => exact .run fun _ => samePos_blockWrite fun _ => samePos_commitWrite
  | commitPoint => exact .run fun _ => .ite (samePos_commitPoint.trans samePos_txnSettle) .refl
  | stageDiscard => exact .run fun _ => samePos_blockWrite fun _ => .ite samePos_stageDiscard .refl
  | registerWrite => exact outPos_registerWrite
  | pollRefresh => exact .run fun _ => .ite .refl (.upd .refl)
  | laneCmdFence => exact .run fun _ => samePos_writeRow fun _ => samePos_laneCmd
  | laneCmdRetest => exact .run fun _ => samePos_writeRow fun _ => samePos_laneCmd
  | arm => exact .run fun _ => samePos_writeRow fun _ => samePos_chCmd
  | energise => exact outPos_energise
  | deEnergise => exact .run fun _ => samePos_writeRow fun _ => samePos_chCmd
  | armExpiry => exact outPos_armExpiry
  | damperPeriodBoundary => exact .run fun _ => SamePos.refl.upd.each fun _ _ => .ite (.upd .refl) .refl
  | damperMismatch => exact .run fun _ => .ite samePos_damperMismatch .refl
  | rbSettleExpiry => exact outPos_rbSettleExpiry
  | faultDetection => exact outPos_faultDetection
  | levelSourceInactive => exact outPos_levelSourceInactive
  | reactionComplete => exact .run fun _ => (SamePos.refl.each fun _ _ => .upd .refl).upd
  | intakeTake => exact outPos_intakeTake
  | eventRingEnqueue => exact outPos_eventRingEnqueue
  | spillMove => exact outPos_spillMove
  | cfgSweep => exact outPos_cfgSweep
  | safeExit => exact .run fun _ => .ite (.ite samePos_setMode samePos_setMode) .refl
  | lockoutRecordWritten => exact .run fun _ => .ite (.upd .refl) .refl
  | quietPeriodExpiry => exact outPos_quietPeriodExpiry
  | recoveryEntryExpiry => exact outPos_recoveryEntryExpiry
  | localQuietExpiry => exact outPos_localQuietExpiry
  | errpinHoldExpiry => exact outPos_errpinHoldExpiry
  | opResetDebounced => exact .run fun _ => .upd .refl
  | opResetStuck => exact .run fun _ => .ite (SamePos.refl.upd.trans samePos_level) .refl
  | refclkLoss => exact outPos_refclkLoss
  | wdtKeyWrite => exact .run fun _ => samePos_ctlWrite
  | wdtCheckin => exact .run fun _ => samePos_ctlWrite
  | windowClose => exact .run fun _ => .ite (SamePos.refl.upd.trans samePos_expire) .refl
  | hardTimerExpiry => exact outPos_hardTimerExpiry
  | reqLimitExpiry => exact .run fun _ => .ite (SamePos.refl.upd.trans samePos_expire) .refl
  | suspensionLimit => exact outPos_suspensionLimit
  | commitToken => exact outPos_commitToken
  | requestToken => exact outPos_requestToken
  | stragglerWindowExpiry => exact outPos_stragglerWindowExpiry
  | stallMonitorExpiry => exact outPos_stallMonitorExpiry
  | seamCheck => exact .run fun _ => samePos_haltCore
  | routedToken => exact outPos_routedToken
  | rethreadComplete => exact outPos_rethreadComplete
  | rethreadTimerExpiry => exact outPos_rethreadTimerExpiry
  | fenceWindowExpiry => exact outPos_fenceWindowExpiry
  | stokerRestartComplete => exact outPos_stokerRestartComplete
  | interruptEntry => exact outPos_interruptEntry
  | trapEntry => exact .run fun _ => .ite samePos_enterTrap .refl
  | add => exact .run fun _ => samePos_op3
  | sub => exact .run fun _ => samePos_op3
  | and_ => exact .run fun _ => samePos_op3
  | or_ => exact .run fun _ => samePos_op3
  | xor => exact .run fun _ => samePos_op3
  | shl => exact .run fun _ => samePos_op3
  | shr => exact .run fun _ => samePos_op3
  | sar => exact .run fun _ => samePos_op3
  | clt => exact .run fun _ => samePos_op3
  | cltu => exact .run fun _ => samePos_op3
  | add32 => exact .run fun _ => samePos_op3
  | sub32 => exact .run fun _ => samePos_op3
  | clz => exact .run fun _ => samePos_op2
  | popc => exact .run fun _ => samePos_op2
  | min_ => exact .run fun _ => samePos_op3
  | max_ => exact .run fun _ => samePos_op3
  | minu => exact .run fun _ => samePos_op3
  | maxu => exact .run fun _ => samePos_op3
  | andn => exact .run fun _ => samePos_op3
  | rotr => exact .run fun _ => samePos_op3
  | mul => exact .run fun _ => samePos_op3
  | mulhi => exact .run fun _ => samePos_op3
  | mulhiu => exact .run fun _ => samePos_op3
  | mac => exact .run fun _ => samePos_opG
  | divs => exact .run fun _ => samePos_op3
  | divu => exact .run fun _ => samePos_op3
  | rems => exact .run fun _ => samePos_op3
  | remu => exact .run fun _ => samePos_op3
  | addi => exact .run fun _ => samePos_op2
  | clti => exact .run fun _ => samePos_op2
  | cltiu => exact .run fun _ => samePos_op2
  | andi => exact .run fun _ => samePos_op2
  | ori => exact .run fun _ => samePos_op2
  | xori => exact .run fun _ => samePos_op2
  | shli => exact .run fun _ => samePos_op2
  | shri => exact .run fun _ => samePos_op2
  | sari => exact .run fun _ => samePos_op2
  | rotri => exact .run fun _ => samePos_op2
  | movhi => exact .run fun _ => samePos_opG
  | insh => exact .run fun _ => samePos_op2
  | inst => exact .run fun _ => samePos_op2
  | lb => exact .run fun _ => samePos_load
  | lbu => exact .run fun _ => samePos_load
  | lh => exact .run fun _ => samePos_load
  | lhu => exact .run fun _ => samePos_load
  | lw => exact .run fun _ => samePos_load
  | lwu => exact .run fun _ => samePos_load
  | ld => exact .run fun _ => samePos_load
  | flw => exact .run fun _ => samePos_load
  | fld => exact .run fun _ => samePos_load
  | sb => exact .run fun _ => samePos_storeOp
  | sh => exact .run fun _ => samePos_storeOp
  | sw => exact .run fun _ => samePos_storeOp
  | sd => exact .run fun _ => samePos_storeOp
  | fsw => exact .run fun _ => samePos_storeOp
  | fsd => exact .run fun _ => samePos_storeOp
  | atomic => exact outPos_atomic
  | beq => exact .run fun _ => samePos_branch
  | bne => exact .run fun _ => samePos_branch
  | blt => exact .run fun _ => samePos_branch
  | bge => exact .run fun _ => samePos_branch
  | bltu => exact .run fun _ => samePos_branch
  | bgeu => exact .run fun _ => samePos_branch
  | j => exact .run fun _ => samePos_issue fun _ => samePos_runArch
  | jal => exact .run fun _ => samePos_issue fun _ => samePos_runArch
  | jalr => exact .run fun _ => samePos_issue fun _ => samePos_runArch
  | fadd => exact .run fun _ => samePos_arith
  | fsub => exact .run fun _ => samePos_arith
  | fmul => exact .run fun _ => samePos_arith
  | fdiv => exact .run fun _ => samePos_arith
  | fsqrt => exact .run fun _ => samePos_opFF
  | fmin => exact .run fun _ => samePos_arith
  | fmax => exact .run fun _ => samePos_arith
  | fabs => exact .run fun _ => samePos_opFF
  | fneg => exact .run fun _ => samePos_opFF
  | fcopysign => exact .run fun _ => samePos_arith
  | fcmp => exact .run fun _ => samePos_opFG
  | fkind => exact .run fun _ => samePos_opFG
  | ftoi32 => exact .run fun _ => samePos_opFG
  | ftoi64 => exact .run fun _ => samePos_opFG
  | itof32 => exact .run fun _ => samePos_opGF
  | itof64 => exact .run fun _ => samePos_opGF
  | fnarrow => exact .run fun _ => samePos_opFF
  | fwiden => exact .run fun _ => samePos_opFF
  | fmovg => exact .run fun _ => samePos_opFG
  | gmovf => exact .run fun _ => samePos_opGF
  | fma => exact .run fun _ => samePos_fused
  | fmaNp => exact .run fun _ => samePos_fused
  | fmaNa => exact .run fun _ => samePos_fused
  | fmaNpa => exact .run fun _ => samePos_fused
  | syncF => exact outPos_syncF
  | syncC => exact outPos_syncC
  | syncM => exact .run fun _ => samePos_issueSerial fun _ => .ite samePos_runArch .refl
  | wait => exact outPos_wait
  | coreWake => exact outPos_coreWake
  | trap => exact .run fun _ => samePos_issueSerial fun _ => samePos_runArch.trans samePos_enterTrap
  | bkpt => exact outPos_bkpt
  | rete => exact .run fun _ => samePos_privileged fun _ => samePos_runArch
  | ctlrd => exact .run fun _ => samePos_ctlAccess fun _ => .ite .refl samePos_runArch
  | ctlwr => exact .run fun _ => samePos_ctlWrite
  | intRaise => exact .run fun _ => samePos_ctlWrite
  | intPendClear => exact .run fun _ => samePos_ctlWrite
  | storeAccept => exact outPos_storeAccept
  | loadResponse => exact outPos_loadResponse
  | hobAccess => exact outPos_hobAccess
  | marchRowStart => exact .run fun _ => .ite samePos_marchStart .refl
  | marchRowComplete => exact .run fun _ => samePos_marchEnd
  | hobWake => exact .run fun _ => .ite .refl samePos_wakeHob
  | hobInject => exact .run fun _ => samePos_writeRow fun _ => samePos_hobInject
  | hobCntClear => exact .run fun _ => samePos_writeRow fun _ => .ite samePos_hobCntClear .refl
  | frameBoundary => exact outPos_frameBoundary
  | inDeadlineExpiry => exact .run fun _ => .ite (SamePos.refl.upd.trans samePos_startSlots) .refl
  | imageChannelComplete => exact outPos_imageChannelComplete
  | bellowsSlot => exact outPos_bellowsSlot
  | ctxResume => exact .run fun _ => samePos_writeRow fun _ => samePos_ctxResume
  | blwInject => exact .run fun _ => samePos_writeRow fun _ => samePos_blwInject
  | blwCntClear => exact .run fun _ => samePos_writeRow fun _ => .ite samePos_blwClear .refl
  | stepGo => exact .run fun _ => samePos_writeRow fun _ => samePos_stepGo
  | tcmpFire => exact outPos_tcmpFire
  | syncTimeout => exact .run fun _ => .ite samePos_holdover .refl
  | dramRead => exact outPos_dramRead
  | dramWrite => exact outPos_dramWrite
  | scrubComplete => exact outPos_scrubComplete
  | fillComplete => exact outPos_fillComplete
  | scrubOverdue => exact outPos_scrubOverdue
  | retireAdd => exact .run fun _ => samePos_writeRow fun _ => samePos_retireAdd
  | memcCntClear => exact .run fun _ => samePos_writeRow fun _ => samePos_memcClear
  | deq => exact .run fun _ => samePos_strike.trans (samePos_guarded fun _ => samePos_portDeq)
  | peek => exact .run fun _ => samePos_strike.trans (samePos_guarded fun _ => samePos_portDeq)
  | qstat => exact .run fun _ => samePos_guarded fun _ => samePos_portStat
  | tryOpen => exact .run fun _ => samePos_guarded fun _ => samePos_portTry
  | enq => exact .run fun _ => samePos_guarded fun _ => samePos_enqueue
  | pktOpen => exact .run fun _ => samePos_guarded fun _ => samePos_enqueue
  | pktWord => exact .run fun _ => samePos_guarded fun _ => samePos_enqueue
  | pktClose => exact .run fun _ => samePos_guarded fun _ => samePos_portClose
  | waiterGrant => exact .run fun _ => samePos_grantWaiters.trans samePos_settle
  | poolWindowAccess => exact .run fun _ => samePos_guarded fun _ => samePos_poolAccess
  | bobCntClear => exact .run fun _ => samePos_writeRow fun _ => samePos_bobClear
  | bfifoPointerFault => exact outPos_bfifoPointerFault
  | basteDue => exact outPos_basteDue
  | deferredSliceStart => exact outPos_deferredSliceStart
  | sliceComplete => exact .run fun _ => .ite samePos_testEnd .refl
  | bellowsSliceComplete => exact outPos_bellowsSliceComplete
  | startupTestComplete => exact outPos_startupTestComplete
  | basteOverdue => exact .run fun _ => .ite (SamePos.refl.upd.upd.trans samePos_level) .refl
  | basteGo => exact .run fun _ => samePos_writeRow fun _ => samePos_basteGo
  | thmReset => exact outPos_thmReset
  | thmBootComplete => exact outPos_thmBootComplete
  | thmLaneHalt => exact .run fun _ => .ite (samePos_noticeEvent.trans samePos_thmRestart) .refl
  | thmHeartbeatTimeout => exact .run fun _ => .ite .refl (samePos_onThm.trans samePos_notices)
  | lifecycleSensed => exact outPos_lifecycleSensed
  | sealOpened => exact .run fun _ => .ite ((samePos_onThm.trans samePos_thmPage).trans samePos_notices) .refl
  | sealClosed => exact .run fun _ => .ite ((samePos_onThm.trans samePos_thmPage).trans samePos_notices) .refl
  | thmSample => exact .run fun _ => .ite (SamePos.refl.upd.trans (.ite samePos_noticeEvent .refl)) .refl
  | pulseEdge => exact .run fun _ => .ite samePos_onThm .refl
  | recordSubmit => exact outPos_recordSubmit
  | signingTimer => exact outPos_signingTimer
  | signingComplete => exact outPos_signingComplete
  | gateNop => exact .run fun _ => samePos_gateRow fun _ _ => samePos_gateAnswer
  | thmStart => exact outPos_thmStart
  | thmStop => exact outPos_thmStop
  | tare => exact .run fun _ => samePos_gateRow fun _ _ => samePos_fwDecides fun _ _ => samePos_gateAccept
  | zero => exact .run fun _ => samePos_gateRow fun _ _ => samePos_fwDecides fun _ _ => samePos_gateAccept
  | presetTare => exact outPos_presetTare
  | clearTare => exact outPos_clearTare
  | batchOpen => exact outPos_batchOpen
  | batchClose => exact outPos_batchClose
  | signNow => exact .run fun _ => samePos_gateRow fun _ _ => samePos_onThm.trans samePos_gateAnswer
  | recordAck => exact .run fun _ => samePos_gateRow fun _ _ => samePos_onThm.trans samePos_gateAnswer
  | replay => exact .run fun _ => samePos_gateRow fun _ _ => samePos_onThm.trans samePos_gateAnswer
  | timeMark => exact .run fun _ => samePos_gateRow fun _ _ => samePos_gateAccept
  | paramWrite => exact outPos_paramWrite
  | paramCommit => exact outPos_paramCommit
  | imageActivate => exact outPos_imageActivate
  | gateAnswer => exact outPos_gateAnswer
  | gateTimeout => exact outPos_gateTimeout
  | thmRecordForward => exact outPos_thmRecordForward
  | cutoverArmed => exact outPos_cutoverArmed
  | cutoverBoundary => exact outPos_cutoverBoundary
  | cutoverSwitch => exact outPos_cutoverSwitch
  | switchDeadlineExpiry => exact outPos_switchDeadlineExpiry
  | cutPass => exact .run fun _ => samePos_writeRow fun _ => samePos_cutPass
  | cutoverCheckDeadline => exact outPos_cutoverCheckDeadline
  | cutoverFallback => exact outPos_cutoverFallback
  | imageVerifyComplete => exact outPos_imageVerifyComplete
  | flashOperationComplete => exact outPos_flashOperationComplete
  | grantExpiry => exact outPos_grantExpiry
  | sessionExpiry => exact outPos_sessionExpiry
  | entropyFail => exact .run fun _ => samePos_onImg.trans (.ite samePos_level samePos_inactive)
  | domainEntry => exact outPos_domainEntry
  | domainWake => exact .run fun _ => .ite .refl (.ite (.upd .refl) samePos_domainUp)
  | voteCmd => exact .run fun _ => samePos_writeRow fun _ => samePos_vote
  | padRel => exact .run fun _ => samePos_writeRow fun _ => samePos_releasePads
  | acctClear => exact .run fun _ => samePos_writeRow fun _ => samePos_when fun _ => samePos_acctClear
  | avsVdone => exact outPos_avsVdone
  | avsAckTimeout => exact outPos_avsAckTimeout
  | supplyExcursion => exact .run fun _ => .ite .refl samePos_level
  | tjReading => exact outPos_tjReading
  | dozeWake => exact .run fun _ => .ite samePos_setMode (.upd .refl)
  | linkUp => exact outPos_linkUp
  | linkDown => exact outPos_linkDown
  | retrainTimer => exact .run fun _ => .ite samePos_onPort .refl
  | chimneyFrame => exact outPos_chimneyFrame
  | timeFrameSend => exact .run fun _ => .ite .refl samePos_send.onChim
  | timeFrame => exact outPos_timeFrame
  | statusFrameSend => exact .run fun _ => .ite samePos_send .refl
  | statusFrame => exact outPos_statusFrame
  | linkDelayMeasure => exact .run fun _ => .ite samePos_onPort .refl
  | baseReachTimeout => exact outPos_baseReachTimeout
  | reachTimeout => exact outPos_reachTimeout
  | retrainUp => exact .run fun _ => samePos_writeRow fun _ => samePos_writeRetrain
  | retrainDown => exact .run fun _ => samePos_writeRow fun _ => samePos_writeRetrain
  | windowRequest => exact outPos_windowRequest
  | windowResponse => exact outPos_windowResponse
  | hostRead => exact outPos_hostRead
  | hostWrite => exact outPos_hostWrite
  | pcieLinkDown => exact .run fun _ => .ite (SamePos.refl.upd.trans samePos_level) .refl
  | pcieLinkUp => exact .run fun _ => .ite .refl (SamePos.refl.upd.trans (.ite samePos_inactive .refl))
  | ethFrameReceive => exact outPos_ethFrameReceive
  | ethFrameTransmit => exact outPos_ethFrameTransmit
  | ethLinkDown => exact .run fun _ => .ite (samePos_onPorts.trans samePos_level) .refl
  | canFrameReceive => exact .run fun _ => .ite (samePos_through fun _ => samePos_receive) .refl
  | canFrameTransmit => exact outPos_canFrameTransmit
  | canBusOff => exact .run fun _ => .ite samePos_level .refl
  | busOffRecovery => exact .run fun _ => .ite samePos_inactive .refl
  | i2cBusStuck => exact .run fun _ => .ite .refl samePos_level
  | gpioEdge => exact outPos_gpioEdge
  | opResetNHigh => exact .run fun _ => .upd .refl
  | thmRstNLow => exact outPos_thmRstNLow
  | thmKernelWatchdog => exact .run fun _ => .ite samePos_thmRestart .refl
  | ethLinkUp => exact .run fun _ => .ite (samePos_onPorts.trans (.ite samePos_inactive .refl)) .refl
  | configurationRequest => exact outPos_configurationRequest
  | debugHaltRequest => exact outPos_debugHaltRequest
  | debugResume => exact .run fun _ => .ite (SamePos.refl.upd.trans samePos_wdtFreeze) .refl
  | debugAccess => exact outPos_debugAccess
  | attestComplete => exact outPos_attestComplete
  | sessionOpenComplete => exact outPos_sessionOpenComplete
  | scanOpenComplete => exact outPos_scanOpenComplete
  | scanInstruction => exact .run fun _ => .refl
  | dmaChannelComplete => exact .run fun _ => .ite .refl samePos_interruptHearth

end Sys2Proof.Proofs
end

section
/-! O46 (R476): the rising edge of RESET_N, every other command, and an idle step. -/

namespace Sys2Proof.Proofs

open Machine Laws

set_option Elab.async false

/-- Position 0, and no other, is the base. -/
theorem isCourse_false_iff {d : Dev} : d.isCourse = false ↔ d.chim.pos = 0 := bne_eq_false_iff_eq

theorem isCourse_congr {d e : Dev} (h : e.chim.pos = d.chim.pos) : e.isCourse = d.isCourse := by
  rw [Dev.isCourse, Dev.isCourse, h]

/-- In HOLD the rising edge of RESET_N takes the position of the straps, whether or not the rails let KINDLE begin. -/
theorem resetNHigh_takes {s : State} {pos : BitVec 3} (hold : s.dev.sys.mode = .hold) :
    Answers (.resetNHigh pos) s fun t => t.dev.chim.pos = pos := by
  refine ⟨_, congrArg (fun w => Host.Outcome.next (stateOf s w)) (if_pos hold), ?_⟩
  extract_lets w
  change (ite _ _ _ : W).dev.chim.pos = pos
  split <;> rfl

/-- Outside HOLD the rising edge of RESET_N changes nothing. -/
theorem resetNHigh_ignored {s : State} {pos : BitVec 3} (mode : s.dev.sys.mode ≠ .hold) :
    Answers (.resetNHigh pos) s (Only s · id) :=
  ⟨_, congrArg (fun w => Host.Outcome.next (stateOf s w)) (if_neg mode), rfl⟩

/-- An idle step before which no device reset was armed. -/
theorem outPos_idle {s : State} (armed : s.dev.sys.resetArmed = false) : OutPos s (idle s) := by
  rw [OutPos]
  intro t e
  cases e
  exact samePos_iff.mp (samePos_idle armed)

/-- Settles O46: the edge of RESET_N takes the position in HOLD and changes nothing elsewhere; `outPos_exec` keeps it
over every other command but the resets, `outPos_idle` over an idle step. -/
theorem positionIsKeptUntilReset : Obligations.PositionIsKeptUntilReset := by
  unfold Obligations.PositionIsKeptUntilReset
  refine ⟨fun s pos hold => ?_, fun s pos mode => resetNHigh_ignored mode, fun s t i e on brown low high => ?_,
    fun s t empty armed e => ?_⟩
  · obtain ⟨t, e, taken⟩ := resetNHigh_takes (pos := pos) hold
    exact ⟨t, e, taken, by rw [isCourse_false_iff, taken]⟩
  · have kept := (outPos_exec on brown low high).next e
    exact ⟨kept, isCourse_congr kept⟩
  · have idles : step s = idle s := by rw [step, empty]
    exact (outPos_idle armed).next (idles ▸ e)

end Sys2Proof.Proofs
end

section
/-! O1: the queue's front. -/

namespace Sys2Proof.Proofs

open Machine Laws

set_option Elab.async false

/-- Settles O1: `step` matches on the queue, whose front is the command. -/
theorem stepRunsTheFrontCommand : Obligations.StepRunsTheFrontCommand := by
  unfold Obligations.StepRunsTheFrontCommand
  intro c s
  rfl

end Sys2Proof.Proofs
end

section
/-! The integer instructions (R135, R138, R142): an operation RD = v of g registers answers `WritesG` by `opG_writes`; what is
left is that the model's value is the one that the statement spells. -/

namespace Sys2Proof.Proofs

open Machine Laws

/-- An instruction of the form RD = v answers a write of any value equal to `v`. -/
theorem answers_opG {i : Instr} {s : State} {c : CoreId} {us : List (Bool × Reg)} {rd : Reg} {x : Word64} (rs : List Reg) (beats : Nat)
    (v : Arch → Word64) (issues : Issues s c us) (uses : ∀ r ∈ (false, rd) :: rs.map (fun r => (false, r)), r ∈ us)
    (means : exec i s = run s fun w => w.opG c rd rs beats v) (value : v (archOf s c) = x) :
    Answers i s (WritesG s · c rd x) := by
  subst value
  rw [Answers, means]
  exact opG_writes s c us rd rs beats v issues uses

theorem flag_eq (b : Bool) : flag b = if b = true then 1 else 0 := by cases b <;> rfl

theorem flag_slt (a b : Word64) : flag (a.slt b) = if a.toInt < b.toInt then 1 else 0 := by
  simp only [flag_eq, BitVec.slt_iff_toInt_lt]

theorem flag_ult (a b : Word64) : flag (a.ult b) = if a.toNat < b.toNat then 1 else 0 := by
  simp only [flag_eq, BitVec.ult_iff_toNat_lt]

theorem low32_add (a b : Word64) : low32 (a + b) = BitVec.ofNat 64 ((a.toNat + b.toNat) % 2 ^ 32) := by
  apply BitVec.eq_of_toNat_eq
  simp only [low32, BitVec.toNat_setWidth, BitVec.toNat_add, BitVec.toNat_ofNat]
  omega

theorem sx_toInt (imm : BitVec 16) : (sx imm).toInt = imm.toInt := by
  rw [sx, BitVec.toInt_signExtend_of_le (by omega)]

/-- Sixteen zero-extended bits, moved up by 16. -/
theorem zx_shl (imm : BitVec 16) : zx imm <<< 16 = BitVec.ofNat 64 (imm.toNat * 2 ^ 16) := by
  apply BitVec.eq_of_toNat_eq
  rw [zx, BitVec.toNat_shiftLeft, Nat.shiftLeft_eq, BitVec.toNat_setWidth, BitVec.toNat_ofNat,
    Nat.mod_eq_of_lt (a := imm.toNat) (by omega)]

theorem setBits_eq (a : Word64) : setBits a = BitVec.ofNat 64 ((List.range 64).countP fun i => a.getLsbD i) := by
  rw [setBits, List.countP_eq_length_filter]
  rfl

/-- A field of a word that is replaced reads back, bit by bit, and the other bits stay. -/
theorem getLsbD_setFld {n lo len : Nat} (a : BitVec n) (x : Nat) (fits : lo + len ≤ n) (i : Nat) (hi : i < n) :
    (setFld a lo len x).getLsbD i = if lo ≤ i ∧ i < lo + len then x.testBit (i - lo) else a.getLsbD i := by
  have hpow : 2 ^ lo * 2 ^ len ≤ 2 ^ n := by rw [← pow_add]; exact Nat.pow_le_pow_right (by omega) fits
  have split : a.toNat - fld a lo len * 2 ^ lo + x % 2 ^ len * 2 ^ lo =
      2 ^ (lo + len) * (a.toNat / 2 ^ (lo + len)) + (2 ^ lo * (x % 2 ^ len) + a.toNat % 2 ^ lo) := by
    have h1 : a.toNat = 2 ^ lo * (a.toNat / 2 ^ lo) + a.toNat % 2 ^ lo := (Nat.div_add_mod _ _).symm
    have h2 : a.toNat / 2 ^ lo = 2 ^ len * (a.toNat / 2 ^ (lo + len)) + fld a lo len := by
      rw [pow_add, ← Nat.div_div_eq_div_mul, fld, Nat.shiftRight_eq_div_pow, Nat.div_add_mod]
    rw [h2, Nat.mul_add, ← Nat.mul_assoc, ← pow_add] at h1
    rw [Nat.mul_comm (2 ^ lo) (fld a lo len)] at h1
    rw [Nat.mul_comm (2 ^ lo) (x % 2 ^ len)]
    omega
  have low : 2 ^ lo * (x % 2 ^ len) + a.toNat % 2 ^ lo < 2 ^ (lo + len) := by
    have h1 : a.toNat % 2 ^ lo < 2 ^ lo := Nat.mod_lt _ (by positivity)
    have h2 : x % 2 ^ len + 1 ≤ 2 ^ len := Nat.mod_lt _ (by positivity)
    calc 2 ^ lo * (x % 2 ^ len) + a.toNat % 2 ^ lo < 2 ^ lo * (x % 2 ^ len + 1) := by rw [Nat.mul_add]; omega
      _ ≤ 2 ^ (lo + len) := by rw [pow_add]; exact Nat.mul_le_mul_left _ h2
  rw [setFld, split, BitVec.getLsbD_ofNat, decide_eq_true hi, Bool.true_and, Nat.testBit_two_pow_mul_add _ low,
    Nat.testBit_two_pow_mul_add _ (Nat.mod_lt _ (by positivity)), Nat.testBit_mod_two_pow, Nat.testBit_mod_two_pow]
  by_cases h1 : i < lo
  · rw [if_pos (by omega), if_pos h1, if_neg (by omega), decide_eq_true h1, Bool.true_and]; rfl
  · by_cases h2 : i < lo + len
    · rw [if_pos h2, if_neg h1, if_pos ⟨by omega, h2⟩, decide_eq_true (by omega), Bool.true_and]
    · rw [if_neg h2, if_neg (by omega), Nat.testBit_div_two_pow]
      rw [show i - (lo + len) + (lo + len) = i by omega]; rfl

theorem registerArithmeticResults : Says.RegisterArithmeticResults := by
  unfold Says.RegisterArithmeticResults
  intro s c rd ra rb issues a b n
  have op : ∀ (i : Instr) (x : Word64) (beats : Nat) (f : Word64 → Word64 → Word64),
      (exec i s = run s fun w => w.op3 c rd ra rb f beats) → f a b = x → Answers i s (WritesG s · c rd x) :=
    fun i x beats f means value => answers_opG [ra, rb] beats _ issues (by simp) means value
  refine ⟨op _ _ 1 (· + ·) rfl rfl, op _ _ 1 (· - ·) rfl rfl, op _ _ 1 (· &&& ·) rfl rfl, op _ _ 1 (· ||| ·) rfl rfl,
    op _ _ 1 (· ^^^ ·) rfl rfl, op _ _ 1 (fun a b => a &&& ~~~b) rfl rfl, op _ _ 1 (fun a b => a <<< cnt b) rfl rfl,
    op _ _ 1 (fun a b => a >>> cnt b) rfl rfl, op _ _ 1 (fun a b => a.sshiftRight (cnt b)) rfl rfl,
    op _ _ 1 (fun a b => a.rotateRight (cnt b)) rfl rfl, op _ _ 1 (fun a b => flag (a.slt b)) rfl (flag_slt a b),
    op _ _ 1 (fun a b => flag (a.ult b)) rfl (flag_ult a b), op _ _ 1 (fun a b => low32 (a + b)) rfl (low32_add a b),
    op _ _ 1 (fun a b => low32 (a - b)) rfl rfl, op _ _ 1 (fun a b => if a.slt b then a else b) rfl ?_,
    op _ _ 1 (fun a b => if a.slt b then b else a) rfl ?_, op _ _ 1 (fun a b => if a.ult b then a else b) rfl ?_,
    op _ _ 1 (fun a b => if a.ult b then b else a) rfl ?_⟩
  · simp only [BitVec.slt_iff_toInt_lt]
  · simp only [BitVec.slt_iff_toInt_lt]
  · simp only [BitVec.ult_iff_toNat_lt]
  · simp only [BitVec.ult_iff_toNat_lt]

theorem multiplyDivideResults : Says.MultiplyDivideResults := by
  unfold Says.MultiplyDivideResults
  intro s c rd ra rb issues a b
  have op : ∀ (i : Instr) (beats : Nat) (f : Word64 → Word64 → Word64),
      (exec i s = run s fun w => w.op3 c rd ra rb f beats) → Answers i s (WritesG s · c rd (f a b)) :=
    fun i beats f means => answers_opG [ra, rb] beats _ issues (by simp) means rfl
  exact ⟨op _ 3 (· * ·) rfl, op _ 3 mulHigh rfl, op _ 3 mulHighU rfl, answers_opG [ra, rb] 3 _ issues (by simp) rfl rfl,
    op _ 34 divSigned rfl, op _ 34 divUnsigned rfl, op _ 34 remSigned rfl, op _ 34 remUnsigned rfl⟩

theorem immediateAndCountResults : Says.ImmediateAndCountResults := by
  unfold Says.ImmediateAndCountResults
  refine ⟨fun s c rd imm issues => answers_opG [] 1 _ issues (by simp) rfl (zx_shl imm), ?_⟩
  intro s c rd ra imm n issues a x z
  have op : ∀ (i : Instr) (x : Word64) (f : Word64 → Word64), (exec i s = run s fun w => w.op2 c rd ra f) → f a = x →
      Answers i s (WritesG s · c rd x) :=
    fun i x f means value => answers_opG [ra] 1 _ issues (by simp) means value
  have insert : ∀ (i : Instr) (lo : Nat), (exec i s = run s fun w => w.op2 c rd ra fun a => setFld a lo 16 imm.toNat) →
      lo + 16 ≤ 64 → Answers i s (fun t => ∃ v, WritesG s t c rd v ∧
        ∀ i, i < 64 → v.getLsbD i = if lo ≤ i ∧ i < lo + 16 then imm.getLsbD (i - lo) else a.getLsbD i) := by
    intro i lo means fits
    obtain ⟨t, answer, writes⟩ := op i _ _ means rfl
    exact ⟨t, answer, _, writes, fun j hj => getLsbD_setFld a imm.toNat fits j hj⟩
  refine ⟨op _ _ (· + sx imm) rfl rfl, op _ _ (fun a => flag (a.slt (sx imm))) rfl ?_,
    op _ _ (fun a => flag (a.ult (sx imm))) rfl (flag_ult a _), op _ _ (· &&& zx imm) rfl rfl, op _ _ (· ||| zx imm) rfl rfl,
    op _ _ (· ^^^ zx imm) rfl rfl, op _ _ (· <<< n.toNat) rfl rfl, op _ _ (· >>> n.toNat) rfl rfl,
    op _ _ (fun a => a.sshiftRight n.toNat) rfl rfl, op _ _ (fun a => a.rotateRight n.toNat) rfl rfl,
    op _ _ leadingZeros rfl rfl, op _ _ setBits rfl (setBits_eq a), insert _ 32 rfl (by omega), ?_⟩
  · rw [flag_slt, sx_toInt]
  · obtain ⟨t, answer, v, writes, bits⟩ := insert (.inst c rd ra imm) 48 rfl (by omega)
    refine ⟨t, answer, v, writes, fun i hi => ?_⟩
    rw [bits i hi]
    simp only [show (48 ≤ i ∧ i < 48 + 16) ↔ 48 ≤ i by omega]

/-- Settles O48: every integer instruction is an operation RD = v (`opG_writes`), with the value that its row of R135 gives. -/
theorem integerResults : Obligations.IntegerResults := by
  unfold Obligations.IntegerResults
  exact ⟨registerArithmeticResults, multiplyDivideResults, immediateAndCountResults⟩

end Sys2Proof.Proofs
end

section
/-! Branches and jumps (R138). -/

namespace Sys2Proof.Proofs

open Machine Laws

/-- A word offset, sign-extended and shifted, is the byte offset of the statement. -/
theorem shl_signExtend {n : Nat} (off : BitVec n) (h : n ≤ 62) : off.signExtend 64 <<< 2 = BitVec.ofInt 64 (4 * off.toInt) := by
  apply BitVec.eq_of_toInt_eq
  rw [BitVec.shiftLeft_eq_mul_twoPow, BitVec.toInt_mul, BitVec.toInt_signExtend_of_le (by omega), BitVec.toInt_ofInt, mul_comm]
  rfl

theorem answers_branch {i : Instr} {s : State} {c : CoreId} {ra rb : Reg} {off : BitVec 16} {pc : Word64}
    (p : Word64 → Word64 → Bool) (issues : Issues s c [(false, ra), (false, rb)])
    (means : exec i s = run s fun w => w.branch c ra rb off p)
    (target : (if p ((archOf s c).rdG ra) ((archOf s c).rdG rb) then (archOf s c).pc + sx off <<< 2 else (archOf s c).pc + 4) = pc) :
    Answers i s (JumpsTo s · c pc) := by
  subst target
  rw [Answers, means]
  exact branch_jumps s c ra rb off p issues

/-- Settles O6: the conditional branches by `branch_jumps`, the jumps as instructions that change registers alone. -/
theorem branchAndJumpTargets : Obligations.BranchAndJumpTargets := by
  unfold Obligations.BranchAndJumpTargets
  refine ⟨?_, ?_, ?_, ?_⟩
  · intro s c ra rb off issues a b pc tgt
    have far : pc + sx off <<< 2 = tgt := congrArg (pc + ·) (shl_signExtend off (by omega))
    have branch : ∀ (i : Instr) (q : Word64 → Word64 → Bool) (goal : Word64),
        (exec i s = run s fun w => w.branch c ra rb off q) → (if q a b then tgt else pc + 4) = goal →
        Answers i s (JumpsTo s · c goal) :=
      fun i q goal means target => answers_branch q issues means (by rw [← target, ← far])
    refine ⟨branch _ (fun a b => decide (a = b)) _ rfl ?_, branch _ (fun a b => decide (a ≠ b)) _ rfl ?_,
      branch _ (fun a b => a.slt b) _ rfl ?_, branch _ (fun a b => !a.slt b) _ rfl ?_,
      branch _ (fun a b => a.ult b) _ rfl ?_, branch _ (fun a b => !a.ult b) _ rfl ?_⟩ <;>
    simp only [← BitVec.slt_iff_toInt_lt, ← BitVec.ult_iff_toNat_lt, decide_eq_true_iff, ite_not, Bool.not_eq_true',
      ← Bool.not_eq_true, ne_eq]
  · intro s c off issues
    refine ⟨_, issue_runArch s c _ _ 3 (fun x => x.jump off) issues fun _ h => h, afterExec_regsOnly s c 3 _, ?_⟩
    rw [afterExec_arch, Arch.jump, shl_signExtend off (by omega)]
  · intro s c off issues
    refine ⟨_, issue_runArch s c _ _ 3 (fun x => (x.wrG 31 (x.pc + 4)).jump off) issues fun _ h => h,
      afterExec_regsOnly s c 3 _, ?_⟩
    rw [afterExec_arch]
    obtain ⟨hf, hcr, hcrw, hpc⟩ := wrG_keeps (archOf s c) 31 ((archOf s c).pc + 4)
    refine ⟨fun r => ?_, hf, hcr, hcrw, ?_⟩
    · have link : ((archOf s c).wrG 31 ((archOf s c).pc + 4)).rdG r = _ := rdG_wrG _ _ _ _
      refine link.trans (if_congr ⟨fun h => h.1, fun h => ⟨h, ?_⟩⟩ rfl rfl)
      rw [h]; decide
    · show ((archOf s c).wrG 31 _).pc + _ = _
      rw [hpc, shl_signExtend off (by omega)]
  · intro s c rd ra imm issues
    refine ⟨_, issue_runArch s c _ _ 3 (fun x => { x.wrG rd (x.pc + 4) with pc := (x.rdG ra + sx imm) &&& ~~~3 }) issues
      fun _ h => h, afterExec_regsOnly s c 3 _, ?_⟩
    rw [afterExec_arch]
    obtain ⟨hf, hcr, hcrw, -⟩ := wrG_keeps (archOf s c) rd ((archOf s c).pc + 4)
    exact ⟨fun r => rdG_wrG (archOf s c) rd r _, hf, hcr, hcrw, rfl⟩

end Sys2Proof.Proofs
end

section
/-! The floating-point instructions (R139, R143, R144): operations RD = f of registers, each by its law. -/

namespace Sys2Proof.Proofs

open Machine Laws


theorem floatingArithmeticResults : Says.FloatingArithmeticResults := by
  unfold Says.FloatingArithmeticResults
  intro s c rd ra rb rc dbl F op rm P
  exact ⟨fun h => opFF_writes s c _ rd [ra, rb] 4 _ h (by simp), fun h => opFF_writes s c _ rd [ra, rb] 4 _ h (by simp),
    fun h => opFF_writes s c _ rd [ra, rb] 4 _ h (by simp),
    fun h => opFF_writes s c _ rd [ra, rb] (if dbl then 28 else 16) _ h (by simp),
    fun h => opFF_writes s c _ rd [ra] (if dbl then 32 else 18) _ h (by simp),
    fun h => opFF_writes s c _ rd [ra, rb] 2 _ h (by simp), fun h => opFF_writes s c _ rd [ra, rb] 2 _ h (by simp),
    fun h => opFF_writes s c _ rd [ra] 1 _ h (by simp), fun h => opFF_writes s c _ rd [ra] 1 _ h (by simp),
    fun h => opFF_writes s c _ rd [ra, rb] 1 _ h (by simp), fun h => opFF_writes s c _ rd [ra, rb, rc] 5 _ h (by simp),
    fun h => opFF_writes s c _ rd [ra, rb, rc] 5 _ h (by simp), fun h => opFF_writes s c _ rd [ra, rb, rc] 5 _ h (by simp),
    fun h => opFF_writes s c _ rd [ra, rb, rc] 5 _ h (by simp)⟩

theorem floatingConversionResults : Says.FloatingConversionResults := by
  unfold Says.FloatingConversionResults
  intro s c rd ra rb pr dbl F x op rm
  refine ⟨fun h => ?_, fun h => opFG_writes s c _ rd [ra] 1 _ h (by simp), fun h => opFG_writes s c _ rd [ra] 3 _ h (by simp),
    fun h => opFG_writes s c _ rd [ra] 3 _ h (by simp), fun h => opGF_writes s c _ rd ra 3 _ h (by simp),
    fun h => opGF_writes s c _ rd ra 3 _ h (by simp), fun h => opFF_writes s c _ rd [ra] 3 _ h (by simp),
    fun h => opFF_writes s c _ rd [ra] 3 _ h (by simp), fun h => opFG_writes s c _ rd [ra] 1 _ h (by simp),
    fun h => opGF_writes s c _ rd ra 1 _ h (by simp)⟩
  rw [← flag_eq]
  exact opFG_writes s c _ rd [ra, rb] 2 (fun x =>
    let r := (fmtOf dbl).predicate pr.toNat (x.opF dbl ra) (x.opF dbl rb)
    (flag r.1, r.2)) h (by simp)

/-- Settles O49: every instruction writes the result of its operation and its flags, by the law of the register files that it
reads and writes (`opFF_writes`, `opFG_writes`, `opGF_writes`). -/
theorem floatingPointResults : Obligations.FloatingPointResults := by
  unfold Obligations.FloatingPointResults
  exact ⟨floatingArithmeticResults, floatingConversionResults⟩

end Sys2Proof.Proofs
end

section
/-! The memory of the hobs in canonical form: every effect keeps it, and a step changes the memory by effects alone. -/

namespace Sys2Proof.Proofs

open Machine Laws

set_option Elab.async false

/-- The canonical form as a property of the whole list: rising addresses, no byte 0. -/
theorem wf_iff (m : Memory) : Memory.wf m = true ↔ m.Pairwise (fun c d => c.1 < d.1) ∧ ∀ c ∈ m, c.2 ≠ 0 := by
  induction m with
  | nil => simp [Memory.wf]
  | cons c r ih =>
    cases r with
    | nil => simp [Memory.wf]
    | cons d r =>
      have rise : c.1 < d.1 → (∀ e ∈ r, d.1 < e.1) → ∀ e ∈ r, c.1 < e.1 := fun h k e he => h.trans (k e he)
      simp only [Memory.wf, Bool.and_eq_true, bne_iff_ne, decide_eq_true_eq, ih, List.pairwise_cons, List.forall_mem_cons]
      constructor
      · rintro ⟨⟨hc, lt⟩, ⟨hd, hr⟩, hb, hbs⟩
        exact ⟨⟨⟨lt, rise lt hd⟩, hd, hr⟩, hc, hb, hbs⟩
      · rintro ⟨⟨⟨lt, -⟩, hd, hr⟩, hc, hb, hbs⟩
        exact ⟨⟨hc, lt⟩, ⟨hd, hr⟩, hb, hbs⟩

theorem wf_filter {m : Memory} (p : Nat × Byte → Bool) (h : Memory.wf m = true) : Memory.wf (m.filter p) = true := by
  rw [wf_iff] at h ⊢
  exact ⟨h.1.filter p, fun c hc => h.2 c (List.mem_of_mem_filter hc)⟩

/-- A row that is put in its place is the new one or an old one. -/
theorem mem_insertRow {α : Type} {k : Nat} {v : α} {l : List (Nat × α)} {c : Nat × α} (h : c ∈ insertRow k v l) :
    c = (k, v) ∨ c ∈ l := by
  induction l with
  | nil => simpa [insertRow] using h
  | cons d r ih =>
    simp only [insertRow] at h
    split at h
    · simpa using h
    · split at h
      · rcases List.mem_cons.mp h with e | e
        · exact .inl e
        · exact .inr (List.mem_cons_of_mem d e)
      · rcases List.mem_cons.mp h with e | e
        · exact .inr (e ▸ List.mem_cons_self)
        · exact (ih e).imp_right (List.mem_cons_of_mem d)

theorem pairwise_insertRow {α : Type} {k : Nat} {v : α} {l : List (Nat × α)} (h : l.Pairwise fun c d => c.1 < d.1) :
    (insertRow k v l).Pairwise fun c d => c.1 < d.1 := by
  induction l with
  | nil => simp [insertRow]
  | cons d r ih =>
    obtain ⟨hd, hr⟩ := List.pairwise_cons.mp h
    simp only [insertRow]
    split
    case isTrue lt =>
      exact List.pairwise_cons.mpr ⟨List.forall_mem_cons.mpr ⟨lt, fun e he => lt.trans (hd e he)⟩, h⟩
    case isFalse nlt =>
      split
      case isTrue eq => exact List.pairwise_cons.mpr ⟨fun e he => eq ▸ hd e he, hr⟩
      case isFalse ne =>
        refine List.pairwise_cons.mpr ⟨fun e he => ?_, ih hr⟩
        rcases mem_insertRow he with rfl | he
        · show d.1 < k; omega
        · exact hd e he

theorem wf_set {m : Memory} (a : Nat) (b : Byte) (h : Memory.wf m = true) : Memory.wf (Memory.set m a b) = true := by
  rw [Memory.set]
  split
  case isTrue => exact wf_filter _ h
  case isFalse nz =>
    rw [wf_iff] at h ⊢
    refine ⟨pairwise_insertRow h.1, fun c hc => ?_⟩
    rcases mem_insertRow hc with rfl | hc
    · exact nz
    · exact h.2 c hc

theorem wf_setAll {m : Memory} (a : Nat) (bs : List Byte) (h : Memory.wf m = true) :
    Memory.wf (Memory.setAll m a bs) = true := by
  induction bs generalizing m a with
  | nil => exact h
  | cons b bs ih => exact ih (a + 1) (wf_set a b h)

theorem wf_apply {m : Memory} (o : MemOp) (h : Memory.wf m = true) : Memory.wf (o.apply m) = true := by
  cases o with
  | put a bs => exact wf_setAll a bs h
  | clear lo n => exact wf_filter _ h

theorem wf_applyAll {m : Memory} (ops : List MemOp) (h : Memory.wf m = true) : Memory.wf (m.applyAll ops) = true := by
  induction ops with
  | nil => exact h
  | cons o ops ih => exact wf_apply o ih

/-- Where an outcome has a next state, its memory is that of `s` with effects. -/
@[irreducible] def OutMem (s : State) (o : Host.Outcome State Fault Refusal) : Prop :=
  ∀ t, o = .next t → ∃ ops, t.mem = s.mem.applyAll ops

theorem OutMem.next {s t : State} {o : Host.Outcome State Fault Refusal} (h : OutMem s o) (e : o = .next t) :
    ∃ ops, t.mem = s.mem.applyAll ops := by rw [OutMem] at h; exact h t e

theorem OutMem.run {s : State} {f : W → W} : OutMem s (Machine.run s f) := by
  rw [OutMem]
  intro t e
  cases e
  exact ⟨_, rfl⟩

theorem OutMem.runFuse {s : State} {f : W → W} : OutMem s (Machine.runFuse s f) := by
  rw [OutMem]
  intro t e
  cases e
  exact ⟨_, rfl⟩

theorem OutMem.command {s : State} {opc : Half} {p : Packet} {body : Body} :
    OutMem s (Machine.command opc p body s) := .run

theorem OutMem.commandFuse {s : State} {opc : Half} {p : Packet} :
    OutMem s (Machine.commandFuse opc p s) := .runFuse

/-- Every command is an operation on the world, whose effects the next state holds. -/
theorem outMem_exec (i : Instr) (s : State) : OutMem s (exec i s) := by
  unfold exec
  cases i with
  | lcToken => exact .commandFuse
  | pendingCommandStart | kindleStepComplete | thmReset | thmRstNLow | paramCommit | imageActivate => exact .runFuse
  | deviceReset | runStart | runStop | dozeEnter | maintainEnter | maintainExit | nop | timeStatus | timeStep
  | configBegin | configWrite | configCommit | configAbort | laneStatus | laneFence | laneRetest | coreRestart
  | hearthReset | loopLoad | loopParam | loopMode | loopResume | loopStatus | loopImageBind | loopExtWrite
  | bellowsStatus | bellowsCountClear | loopInject | schedLoad | schedSwap | schedStatus | schedCheck | memStatus
  | memLogRead | memScrub | memRetire | memRetireList | memRepairAdd | memRepairList | memInject | memConfig | memFill
  | hobStatus | hobCountClear | fwStatus | fwViolClear | queueSet | queueStatus | queueFlush | poolStatus | queueBind
  | flueStatus | flueHistoryRead | lockoutReset | errpinRelease | flueRelease | flueTest | flueEventsRead | flueActive
  | wdtStatus | pwrStatus | pwrLevel | pwrVote | padRelease | pwrDomainStatus | pwrCountClear | imageStatus
  | imageStageBegin | imageStageChunk | imageVerify | imageDiscard | imagePersist | cutover | cutoverStatus | attest
  | expertGrant | grantRelease | expertLogRead | lcNonceGet | sessionCfg | sessionOpen | sessionClose | sessionStatus
  | thmStatus | thmGate | thmForward | thmSlotErase | thmSlotWrite | chimneyStatus | chimneySet | chimneyRetrain
  | dampStatus | fioStatus | basteStatus | basteResults | basteNow | scanOpen | traceStatus =>
    exact .command
  | _ => exact .run

/-- A step changes the memory by effects alone. -/
theorem step_mem {s t : State} (h : step s = .next t) : ∃ ops, t.mem = s.mem.applyAll ops := by
  rw [step] at h
  split at h
  · cases h
    exact ⟨_, rfl⟩
  · next c rest _ => exact (outMem_exec c { s with pending := rest }).next h

/-- Settles O3: a step changes the memory by effects alone (`step_mem`), and each effect keeps the canonical form. -/
theorem everyStepKeepsMemoryCanonical : Obligations.EveryStepKeepsMemoryCanonical := by
  unfold Obligations.EveryStepKeepsMemoryCanonical
  intro s t wf h
  obtain ⟨ops, e⟩ := step_mem h
  rw [e]
  exact wf_applyAll ops wf

end Sys2Proof.Proofs
end

section
/-! What the operations below the reactions of the Flue keep: the channels, the mode, the Flue beside its trace stream, and how the
bellows stand. -/

namespace Sys2Proof.Proofs

open Machine Laws

set_option Elab.async false

/-- How a bellows stands. -/
def blwStand (b : Bellows) : Bool × Bool × BlwPhase := (b.all, b.checked, b.phase)

/-- What the operations below the reactions of the Flue keep of a device. -/
def below (d : Dev) : Tbl Damper × Sys × Flue × (Nat → Bool × Bool × BlwPhase) :=
  (d.dampers, d.sys, { d.flue with traceGap := {}, traceLost := 0, traceNext := 0 }, fun k => blwStand (d.blw k))

/-- What the operations below the reactions keep of `w'`, and the fuses, are those of `w`. -/
def Below (w w' : W) : Prop := below w'.dev = below w.dev ∧ w'.fuse = w.fuse

theorem below_iff {w w' : W} : Below w w' ↔ below w'.dev = below w.dev ∧ w'.fuse = w.fuse := by rw [Below]

theorem Below.refl (w : W) : Below w w := below_iff.mpr ⟨rfl, rfl⟩

theorem Below.trans {a b c : W} (h : Below a b) (k : Below b c) : Below a c := by
  rw [below_iff] at h k ⊢
  exact ⟨k.1.trans h.1, k.2.trans h.2⟩

theorem Below.upd (w : W) (f : Dev → Dev) (h : below (f w.dev) = below w.dev) : Below w (w.upd f) := below_iff.mpr ⟨h, rfl⟩

theorem Below.beside {w : W} {m : Memory} {o : List MemOp} {e : List (Nat × Word32 × Word32)} :
    Below w { w with base := m, ops := o, due := e } := below_iff.mpr ⟨rfl, rfl⟩

theorem Below.ite {a b c : W} (p : Prop) [Decidable p] (h : Below a b) (k : Below a c) :
    Below a (if p then b else c) := by split <;> assumption

theorem Below.each {α : Type} (xs : List α) (f : α → W → W) (h : ∀ x w, Below w (f x w)) (w : W) :
    Below w (w.each xs f) := by
  induction xs generalizing w with
  | nil => exact Below.refl w
  | cons x xs ih => exact (h x w).trans (ih (f x w))

theorem below_foldl {α : Type} (f : Dev → α → Dev) (h : ∀ d x, below (f d x) = below d) (l : List α) (d : Dev) :
    below (l.foldl f d) = below d := by
  induction l generalizing d with
  | nil => rfl
  | cons a l ih => exact (ih _).trans (h _ _)

theorem below_interrupt (w : W) (c k : Nat) : Below w (w.interrupt c k) :=
  Below.ite _ (Below.upd _ _ rfl) (Below.refl w)

theorem below_crossing (w : W) (q : Nat) : Below w (w.crossing q) :=
  (Below.upd w _ rfl).trans (Below.each _ _ (fun _ _ => Below.each _ _
    (fun _ w => Below.ite _ (below_interrupt w _ _) (Below.refl w)) _) _)

theorem below_setOwner (w : W) (c : Nat) (o : Option Owner) : Below w (w.onBob fun b => b.setOwner c o) := Below.upd w _ rfl

theorem below_takeCell (w : W) (q : Nat) : Below w (w.takeCell q).2 :=
  ((below_setOwner w _ _).trans (Below.upd _ _ rfl)).trans (Below.ite _ (below_crossing _ _) (Below.refl _))

theorem below_takeCells (n : Nat) (w : W) (q : Nat) : Below w (w.takeCells q n).2 := by
  induction n generalizing w with
  | zero => exact Below.refl w
  | succ n ih => exact (below_takeCell w q).trans (ih _)

theorem below_freeCell (w : W) (q c : Nat) : Below w (w.freeCell q c) :=
  (below_setOwner w c none).trans (Below.upd _ _ rfl)

theorem below_setCell (w : W) (c i : Nat) (v : Word32) : Below w (w.setCell c i v) := Below.upd w _ rfl

/-- The cell before cell `c` of a chain that ends as given names it as the next one. -/
def linkedAfter (v : W) (c : Nat) : Option (Nat × Nat) → W
  | some (_, t) => v.setCell t 0 (w32 (c + 65536))
  | none => v

theorem link_eq (w : W) (q c n : Nat) (a b : Bool) : w.link q c n a b =
    (((linkedAfter ((w.setCell c 0 0).setCell c 1 (cellHeader n a b (w.dev.queue q).seq)) c (w.dev.queue q).ends).onBob fun b =>
      b.setOwner c (some ⟨q, true⟩)).upd fun d => d.onQueue q fun k =>
        { k with ends := some ((match k.ends with | some e => e.1 | none => c), c), words := k.words + n, seq := k.seq + w32 n }) := by
  unfold W.link linkedAfter
  rfl

theorem below_linkedAfter (v : W) (c : Nat) (ends : Option (Nat × Nat)) : Below v (linkedAfter v c ends) := by
  cases ends with
  | none => exact Below.refl v
  | some e => exact below_setCell _ _ _ _

theorem below_link (w : W) (q c n : Nat) (a b : Bool) : Below w (w.link q c n a b) := by
  rw [link_eq]
  exact ((((below_setCell _ _ _ _).trans (below_setCell _ _ _ _)).trans (below_linkedAfter _ _ _)).trans (below_setOwner _ _ _)).trans
    (Below.upd _ _ rfl)

theorem below_openPkt (w : W) (m : Rid) (q n : Nat) (t : Bool) : Below w (w.openPkt m q n t) :=
  (below_takeCells n w q).trans (Below.upd _ _ rfl)

theorem below_storeWord (w : W) (p : OpenPkt) (v : Word32) : Below w (w.storeWord p v) :=
  (below_setCell _ _ _ _).trans (Below.upd _ _ rfl)

theorem below_storeWords (vs : List Word32) (w : W) (m : Rid) (q : Nat) : Below w (w.storeWords m q vs) := by
  induction vs generalizing w with
  | nil => exact Below.refl w
  | cons v vs ih =>
    simp only [W.storeWords]
    split
    · split
      · exact (below_storeWord _ _ _).trans (ih _)
      · exact Below.refl w
    · exact Below.refl w

theorem below_linkAll (cs : List Nat) (w : W) (q l : Nat) (f : Bool) : Below w (w.linkAll q l f cs) := by
  induction cs generalizing w l f with
  | nil => exact Below.refl w
  | cons c cs ih =>
    simp only [W.linkAll]
    split
    · exact (below_freeCell _ _ _).trans (ih _ _ _)
    · exact (below_link _ _ _ _ _ _).trans (ih _ _ _)

theorem below_closePkt (w : W) (p : OpenPkt) : Below w (w.closePkt p) :=
  ((below_setCell _ _ _ _).trans (below_linkAll _ _ _ _ _)).trans (Below.upd _ _ rfl)

theorem below_queueNote (w : W) (n : Nat) (m : Rid) (q o : Nat) : Below w (w.queueNote n m q o) := .beside

theorem below_setReg (w : W) (t i o : Nat) (v : Word32) : Below w (w.setReg t i o v) := .upd _ _ rfl

theorem below_countBob (w : W) (o : Nat) : Below w (w.countReg 8 0 o) := below_setReg _ _ _ _ _

theorem below_poolNote (w : W) (m : Rid) (q o : Nat) : Below w (w.poolNote m q o) :=
  Below.ite _ (below_queueNote _ _ _ _ _) (Below.refl w)

theorem below_misuse (w : W) (m : Rid) (q o : Nat) : Below w (w.misuse m q o).2 :=
  (below_countBob w 0x54).trans (below_queueNote _ _ _ _ _)

theorem below_abortPkt (w : W) (p : OpenPkt) : Below w (w.abortPkt p) :=
  (Below.each _ _ (fun _ _ => below_freeCell _ _ _) w).trans (Below.upd _ _ rfl)

theorem below_abortOpen (w : W) (p : OpenPkt) (o : Nat) : Below w (w.abortOpen p o) :=
  ((below_abortPkt w p).trans (below_countBob _ 0x58)).trans (below_queueNote _ _ _ _ _)

theorem below_mendByte (w : W) (m : Rid) (q o a : Nat) : Below w (w.mendByte m q o a) := by
  unfold W.mendByte
  split
  · refine Below.trans (b := if a < ownerByte 0 then w.poolPut a [_] else _) (Below.ite _ (Below.upd _ _ rfl) (Below.upd _ _ rfl))
      (below_queueNote _ _ _ _ _)
  · exact Below.refl w

theorem below_breakQueue (w : W) (m : Rid) (q o : Nat) : Below w (w.breakQueue m q o) :=
  (Below.upd w _ rfl).trans (below_queueNote _ _ _ _ _)

theorem below_readCell (w : W) (m : Rid) (q o c : Nat) : Below w (w.readCell m q o c) := by
  unfold W.readCell
  dsimp only
  have h : Below w (w.mendCell m q o c) := Below.each _ _ (fun _ _ => below_mendByte _ _ _ _ _) w
  refine h.trans ?_
  split
  · exact (Below.upd _ _ rfl).trans (below_breakQueue _ _ _ _)
  · split
    · exact below_breakQueue _ _ _ _
    · exact Below.refl _

theorem below_tailRead (w : W) (m : Rid) (q : Nat) : Below w (w.tailRead m q) := by
  unfold W.tailRead
  split
  · split
    · exact below_readCell _ _ _ _ _
    · exact Below.refl w
  · exact Below.refl w

theorem below_enqWord (w : W) (q : Nat) (v : Word32) : Below w (w.enqWord q v) := by
  have h : Below w (((w.takeCell q).2.setCell (w.takeCell q).1 2 v).link q (w.takeCell q).1 1 false false) :=
    ((below_takeCell w q).trans (below_setCell _ _ _ _)).trans (below_link _ _ _ _ _ _)
  unfold W.enqWord
  dsimp only
  split
  · split
    · exact ((below_setCell _ _ _ _).trans (below_setCell _ _ _ _)).trans (Below.upd _ _ rfl)
    · exact h
  · exact h

theorem below_enqPacket (w : W) (q : Nat) (v : Word32) : Below w (w.enqPacket q v) :=
  (((below_takeCell w q).trans (below_setCell _ _ _ _)).trans (below_setCell _ _ _ _)).trans (below_link _ _ _ _ _ _)

/-- What a write of a port page that passes at once leaves. -/
def BelowOpt (w : W) (r : Option (Acc × W)) : Prop := ∀ x, r = some x → Below w x.2

theorem BelowOpt.some' {w : W} {x : Acc × W} (h : Below w x.2) : BelowOpt w (some x) := fun _ e => by cases e; exact h

theorem BelowOpt.pair' {w v : W} {a : Acc} (h : Below w v) : BelowOpt w (some (a, v)) := fun _ e => by cases e; exact h

theorem BelowOpt.none' {w : W} : BelowOpt w none := fun _ e => by cases e

theorem BelowOpt.trans {w v : W} {r : Option (Acc × W)} (h : Below w v) (k : BelowOpt v r) : BelowOpt w r :=
  fun x e => h.trans (k x e)

theorem below_tryEnq (w : W) (m : Rid) (q : Nat) (v : Word32) : BelowOpt w (w.tryEnq m q v) := by
  refine BelowOpt.trans (below_tailRead w m q) ?_
  unfold W.tryEnq
  dsimp only
  generalize w.tailRead m q = w1
  split
  · exact .some' (below_misuse _ _ _ _)
  · split
    · exact .some' (below_misuse _ _ _ _)
    · split
      · exact .pair' ((below_enqWord _ q v).trans (below_poolNote _ m q 0x20))
      · exact .none'
    · split
      · exact .pair' ((below_enqPacket _ q v).trans (below_poolNote _ m q 0x20))
      · exact .none'

theorem below_tryPktOpen (w : W) (m : Rid) (q : Nat) : BelowOpt w (w.tryPktOpen m q) := by
  unfold W.tryPktOpen
  dsimp only
  split
  · exact .some' (below_misuse _ _ _ _)
  · split
    · exact .pair' ((below_openPkt _ _ _ _ _).trans (below_poolNote _ _ _ _))
    · exact .none'

theorem below_truncate (w : W) (m : Rid) (q : Nat) : Below w (w.truncate m q).2 := by
  unfold W.truncate
  dsimp only
  split
  · exact (Below.upd w _ rfl).trans (below_misuse _ _ _ _)
  · exact below_misuse _ _ _ _

theorem below_tryPktWord (w : W) (m : Rid) (q : Nat) (ws : List Word32) : BelowOpt w (w.tryPktWord m q ws) := by
  unfold W.tryPktWord
  split
  · exact .some' (below_misuse _ _ _ _)
  · split
    · exact .some' (below_misuse _ _ _ _)
    · extract_lets room vs need full
      have hf : ∀ v : W, Below w v → Below w (full v).2 := fun v h => by
        show Below w (if vs.length < ws.length then v.truncate m q else (Acc.done, v)).2
        split
        · exact h.trans (below_truncate _ _ _)
        · exact h
      split
      · exact .some' (hf _ (below_storeWords _ _ _ _))
      · split
        · exact .some' (hf _ ((((below_takeCells need w q).trans (Below.upd _ _ rfl)).trans
            (below_storeWords _ _ _ _)).trans (below_poolNote _ _ _ _)))
        · exact .none'

theorem below_close (w : W) (m : Rid) (q : Nat) (a : Bool) : Below w (w.close m q a).2 := by
  unfold W.close
  split
  · exact below_misuse _ _ _ _
  · split
    · exact below_abortOpen _ _ _
    · split
      · exact below_misuse _ _ _ _
      · exact below_closePkt _ _

theorem below_tryWaiter (w : W) (x : Waiter) : BelowOpt w (w.tryWaiter x) := by
  unfold W.tryWaiter
  split
  · exact below_tryEnq _ _ _ _
  · split
    · exact below_tryPktOpen _ _ _
    · split
      · exact below_tryPktWord _ _ _ _
      · exact .some' (below_close _ _ _ _)

theorem below_storeNotice (w : W) (k c : Nat) : Below w (w.storeNotice k c) :=
  (Below.upd w _ rfl).trans (below_interrupt _ _ _)

theorem below_storeTaken (w : W) (x : Waiter) (r : Acc) : Below w (w.storeTaken x r) := by
  unfold W.storeTaken
  split
  · exact Below.refl w
  · next k _ =>
    dsimp only
    have pop : ∀ v : W, Below w v → Below w (match (v.dev.core k).sb with
        | s :: r => if s.addr.toNat = 0x11800000 + x.q * 0x40 + x.off then v.upd fun d => d.onCore k fun c => { c with sb := r } else v
        | [] => v) := fun v h => by
      split
      · exact h.trans (Below.ite _ (Below.upd _ _ rfl) (Below.refl _))
      · exact h
    cases r with
    | err e => exact pop _ (below_storeNotice _ _ _)
    | _ => exact pop _ (Below.refl w)

theorem below_grantLoop (xs : List Waiter) (w : W) (kept : List Waiter) : Below w (w.grantLoop kept xs).2 := by
  induction xs generalizing w kept with
  | nil => exact Below.refl w
  | cons x xs ih =>
    simp only [W.grantLoop]
    split
    · exact ih _ _
    · split
      · next r w1 h => exact ((below_tryWaiter w x _ h).trans (below_storeTaken _ _ _)).trans (ih _ _)
      · exact ih _ _

/-- What offering freed cells to the waiters can change. -/
theorem below_grantWaiters (w : W) : Below w w.grantWaiters :=
  (below_grantLoop _ w []).trans (Below.upd _ _ rfl)

theorem below_tryRefused (w : W) (m : Rid) (q : Nat) : Below w (w.tryRefused m q) :=
  (below_countBob w 0x50).trans (below_queueNote _ _ _ _ _)

/-- What a whole packet through the TRY port can change, taken or refused. -/
theorem below_tryPacket (w : W) (m : Rid) (q : Nat) (ws : List Word32) : Below w (w.tryPacket m q ws).2 := by
  refine (below_grantWaiters w).trans ?_
  unfold W.tryPacket
  dsimp only
  generalize w.grantWaiters = w1
  split
  · exact below_misuse _ _ _ _
  · split
    · exact below_tryRefused _ _ _
    · have h := ((below_openPkt w1 m q (w1.dev.queue q).cfg.tryCells true).trans (below_poolNote _ m q 0x18)).trans
        (below_storeWords ws _ m q)
      dsimp only
      split
      · exact h.trans (below_closePkt _ _)
      · exact h

theorem Below.drop {w w' : W} (h : Below w w') (p : Nat × Word32 × Word32 → Bool) :
    Below w { w' with due := w.due ++ (w'.due.drop w.due.length).filter p } := h.trans .beside

theorem below_traceOne (w : W) (r : Rec) : Below w (w.traceOne r).2 := by
  unfold W.traceOne
  dsimp only
  split
  · exact (below_tryPacket _ _ _ _).trans (Below.upd _ _ rfl)
  · exact below_tryPacket _ _ _ _

theorem below_trace (w : W) (r : Rec) : Below w (w.trace r) := by
  unfold W.trace
  dsimp only
  split
  · exact Below.refl w
  · have h1 : Below w (if w.dev.flue.traceGap.n = 0 then (true, w) else w.traceOne (gapRec w.dev.flue.traceGap r.mode)).2 := by
      split
      · exact Below.refl w
      · exact below_traceOne _ _
    generalize (if w.dev.flue.traceGap.n = 0 then (true, w) else w.traceOne (gapRec w.dev.flue.traceGap r.mode)) = x at h1 ⊢
    obtain ⟨ready, v⟩ := x
    dsimp only at h1 ⊢
    have h2 : Below w (if (ready && w.dev.flue.traceGap.n != 0) = true then
        v.upd fun d => { d with flue := { d.flue with traceGap := {} } } else v) :=
      h1.trans (Below.ite _ (Below.upd _ _ rfl) (Below.refl v))
    generalize (if (ready && w.dev.flue.traceGap.n != 0) = true then
        v.upd fun d => { d with flue := { d.flue with traceGap := {} } } else v) = y at h2 ⊢
    have h3 : Below w (if ready = true then y.traceOne r else (false, y)).2 := by
      split
      · exact h2.trans (below_traceOne _ _)
      · exact h2
    generalize (if ready = true then y.traceOne r else (false, y)) = z at h3 ⊢
    obtain ⟨ok, u⟩ := z
    dsimp only at h3 ⊢
    refine Below.trans (b := w) (Below.refl w) ?_
    split
    · refine Below.drop ?_ _
      exact h3.trans (Below.ite _ (Below.refl u) (Below.upd _ _ rfl))
    · exact h3.trans (Below.ite _ (Below.refl u) (Below.upd _ _ rfl))

theorem below_deliver (w : W) (k : Nat) (r : Reply) : Below w (w.deliver k r) := by
  refine Below.upd _ _ ?_
  dsimp only
  split
  · rfl
  · split <;> rfl

theorem below_reply (w : W) (p : Packet) (o : Half) (st : Nat) (f : Bool) (r : List Byte) (s : Bool) :
    Below w (w.reply p o st f r s) :=
  (below_deliver _ _ _).trans (Below.ite _ (Below.refl _) (Below.upd _ _ rfl))

theorem below_finish (w : W) (p : Pend) (st : Nat) (r : List Byte) : Below w (w.finish p st r) :=
  (Below.upd w _ rfl).trans (Below.ite _ (below_reply _ _ _ _ _ _ _) (Below.refl _))

theorem below_finishAll (w : W) (o k st : Nat) (r : List Byte) : Below w (w.finishAll o k st r) :=
  Below.each _ _ (fun _ w => below_finish w _ _ _) w

theorem below_put (w : W) (a : Nat) (bs : List Byte) : Below w (w.put a bs) := by
  refine Below.trans (b := w.poke a bs) .beside (Below.upd _ _ ?_)
  split <;> rfl

theorem below_setHobReg (w : W) (u o : Nat) (v : Word32) : Below w (w.setHobReg u o v) :=
  .ite _ (below_setReg _ _ _ _ _) (below_setReg _ _ _ _ _)

theorem below_hobCount (w : W) (u : Nat) (b : Bool) (e : Word32) : Below w (w.hobCount u b e) :=
  (((below_setHobReg _ _ _ _).trans (below_setHobReg _ _ _ _)).trans (below_setHobReg _ _ _ _)).trans
    (below_setHobReg _ _ _ _)

theorem below_hobLog (w : W) (u a : Nat) (m : Bool) (c : ByteCode) : Below w (w.hobLog u a m c).2 := by
  cases c with
  | good b => exact Below.refl w
  | fixed b s => exact (below_hobCount _ _ _ _).trans (Below.upd _ _ rfl)
  | bad b s => exact below_hobCount _ _ _ _

theorem below_wakeHob (w : W) (u : Nat) : Below w (w.wakeHob u) := Below.ite _ (Below.refl w) (Below.upd _ _ rfl)

theorem below_granted (w : W) (u k : Nat) : Below w (w.granted u k) := Below.upd _ _ rfl

theorem below_hobInjected (w : W) (u k : Nat) (l : List Nat) : Below w (w.hobInjected u k l) := by
  unfold W.hobInjected
  split
  · exact Below.ite _ (Below.upd _ _ rfl) (Below.refl w)
  · exact Below.refl w

theorem below_copyHob (w : W) (u s d n : Nat) : Below w (w.copyHob u s d n) := by
  unfold W.copyHob
  dsimp only
  refine ((below_wakeHob w u).trans ?_).trans
    ((((below_put _ _ _).trans (below_granted _ _ _)).trans (Below.upd _ _ rfl)).trans (below_hobInjected _ _ _ _))
  exact Below.ite _ (Below.each _ _ (fun i w => (below_hobLog w u (s + i) false _).trans .beside) _) (Below.refl _)

theorem below_startCore (w : W) (k : Nat) (h : k < 64) : Below w (w.startCore k) := by
  unfold W.startCore
  split
  · exact Below.refl w
  · rw [if_neg (by omega)]
    exact Below.upd _ _ rfl

theorem below_startCores (w : W) : Below w w.startCores := by
  refine Below.each _ _ (fun k w => ?_) w
  split
  · next h =>
    simp only [Bool.and_eq_true] at h
    exact below_startCore _ _ (canStart_lt _ _ h.1)
  · exact Below.refl w

theorem below_cutFail (w : W) (h : Nat) (c : Byte) : Below w (w.cutFail h c) := by
  refine Below.upd _ _ ?_
  split
  · split
    · exact below_foldl (fun d h => d.onCutStat h fun s => { s with phase := 3 }) (fun _ _ => rfl) _ _
    · rfl
  · rfl

theorem below_endCutover (w : W) (o : Nat) : Below w (w.endCutover o) := by
  unfold W.endCutover
  split
  · exact Below.refl w
  · exact ((Below.upd w _ rfl).trans (Below.each _ _ (fun _ _ => Below.upd _ _ rfl) _)).trans (below_finishAll _ _ _ _ _)

theorem below_carry (w : W) (h : Nat) (s : Machine.Section) (b : Bool) : Below w (w.carry h s b) := by
  have key : ∀ (l : List (Nat × Nat)) (p : Nat × W), Below w p.2 →
      Below w (l.foldl (fun (p : Nat × W) r =>
        let x := hobBase h + r.1
        let y := hobBase h + s.snap + p.1
        (p.1 + r.2, if b then p.2.copyHob h y x r.2 else p.2.copyHob h x y r.2)) p).2 := by
    intro l
    induction l with
    | nil => exact fun p hp => hp
    | cons r l ih =>
      intro p hp
      refine ih _ (hp.trans ?_)
      dsimp only
      split <;> exact below_copyHob _ _ _ _ _
  exact key _ (0, w) (Below.refl w)

theorem below_fallbackHearth (w : W) (c : Cutover) (h : Nat) : Below w (w.fallbackHearth c h) := by
  unfold W.fallbackHearth
  dsimp only
  split
  · exact (below_carry _ _ _ _).trans (Below.each _ _ (fun _ w => Below.ite _ (Below.upd _ _ rfl) (Below.refl w)) _)
  · exact Below.refl w

theorem below_fallback (w : W) (o : Nat) : Below w (w.fallback o) := by
  unfold W.fallback
  split
  · exact Below.refl w
  · refine ((Below.each _ _ (fun _ w => below_fallbackHearth w _ _) w).trans (below_endCutover _ _)).trans
      (Below.each _ _ (fun k w => ?_) _)
    split
    · next h => exact below_startCore _ _ (canStart_lt _ _ h)
    · exact Below.refl w

theorem below_cutoverSafe (w : W) : Below w w.cutoverSafe.2 := by
  unfold W.cutoverSafe
  split
  · exact Below.refl w
  · split
    · split
      · exact below_fallback _ _
      · exact below_endCutover _ _
    · exact below_endCutover _ _

theorem below_domainUp (w : W) (n : Nat) : Below w (w.domainUp n) := by
  refine Below.upd _ _ ?_
  dsimp only
  split <;> rfl

theorem below_dozeUp (w : W) : Below w w.dozeUp := by
  unfold W.dozeUp
  dsimp only
  refine Below.trans (Below.upd _ _ ?_) (Below.each _ _ (fun n w => Below.ite _ (Below.refl w) (below_domainUp w n)) _)
  generalize List.range 17 = l
  generalize List.range 64 = k
  exact (below_foldl (fun d k => d.onCore k fun x => { x with wait := .awake }) (fun _ _ => rfl) k _).trans
    (below_foldl (fun d h => d.onHob h fun x => { x with power := if h = 16 then .awake else .ret55 }) (fun _ _ => rfl) l w.dev)

/-- A change of a bellows that leaves it standing as it did. -/
theorem below_onBlw {d : Dev} {h : Nat} {f : Bellows → Bellows} (same : ∀ b, blwStand (f b) = blwStand b) : below (d.onBlw h f) = below d := by
  have stand : (fun k => blwStand ((d.onBlw h f).blw k)) = fun k => blwStand (d.blw k) := funext fun k => by
    by_cases own : k = h
    · subst own
      exact (congrArg blwStand (blw_onBlw_self _ _ _)).trans (same _)
    · exact congrArg blwStand (blw_onBlw_ne _ _ _ _ own)
  exact congrArg (fun x => (d.dampers, d.sys, { d.flue with traceGap := {}, traceLost := 0, traceNext := 0 }, x)) stand

theorem below_restartOut (w : W) (h : Nat) : Below w (w.restartOut h) :=
  Below.ite _ (Below.refl w) (Below.upd _ _ (below_onBlw fun _ => rfl))

end Sys2Proof.Proofs
end

section
/-! The damper channels and the fuses (R47, R57, R277): `SameCh w w'` says that the world `w'` has the channels, the mode and the
fuses of `w`. The operations below the reactions of the Flue keep all three. -/

namespace Sys2Proof.Proofs

open Machine Laws

set_option Elab.async false

/-- The channels and the mode of a device. -/
def chs (d : Dev) : Tbl Damper × Mode := (d.dampers, d.sys.mode)

/-- The channels, the mode and the fuses of `w'` are those of `w`. -/
def SameCh (w w' : W) : Prop := chs w'.dev = chs w.dev ∧ w'.fuse = w.fuse

theorem sameCh_iff {w w' : W} : SameCh w w' ↔ chs w'.dev = chs w.dev ∧ w'.fuse = w.fuse := by rw [SameCh]

theorem SameCh.refl (w : W) : SameCh w w := sameCh_iff.mpr ⟨rfl, rfl⟩

theorem SameCh.trans {a b c : W} (h : SameCh a b) (k : SameCh b c) : SameCh a c := by
  rw [sameCh_iff] at h k ⊢
  exact ⟨k.1.trans h.1, k.2.trans h.2⟩

theorem SameCh.upd (w : W) (f : Dev → Dev) (h : chs (f w.dev) = chs w.dev) : SameCh w (w.upd f) := sameCh_iff.mpr ⟨h, rfl⟩

theorem SameCh.beside {w : W} {m : Memory} {o : List MemOp} {e : List (Nat × Word32 × Word32)} :
    SameCh w { w with base := m, ops := o, due := e } := sameCh_iff.mpr ⟨rfl, rfl⟩

theorem SameCh.ite {a b c : W} (p : Prop) [Decidable p] (h : SameCh a b) (k : SameCh a c) :
    SameCh a (if p then b else c) := by split <;> assumption

theorem SameCh.each {α : Type} (xs : List α) (f : α → W → W) (h : ∀ x w, SameCh w (f x w)) (w : W) :
    SameCh w (w.each xs f) := by
  induction xs generalizing w with
  | nil => exact SameCh.refl w
  | cons x xs ih => exact (h x w).trans (ih (f x w))

theorem chs_foldl {α : Type} (f : Dev → α → Dev) (h : ∀ d x, chs (f d x) = chs d) (l : List α) (d : Dev) :
    chs (l.foldl f d) = chs d := by
  induction l generalizing d with
  | nil => rfl
  | cons a l ih => exact (ih _).trans (h _ _)

/-- The channels and the mode are among what the operations below the reactions keep. -/
theorem Below.sameCh {w w' : W} (h : Below w w') : SameCh w w' := by
  rw [below_iff] at h
  obtain ⟨kept, fuse⟩ := h
  exact sameCh_iff.mpr ⟨congrArg (fun x => (x.1, x.2.1.mode)) kept, fuse⟩

theorem sameCh_interrupt (w : W) (c k : Nat) : SameCh w (w.interrupt c k) :=
  (below_interrupt w c k).sameCh

theorem sameCh_freeCell (w : W) (q c : Nat) : SameCh w (w.freeCell q c) :=
  (below_freeCell w q c).sameCh

theorem sameCh_openPkt (w : W) (m : Rid) (q n : Nat) (t : Bool) : SameCh w (w.openPkt m q n t) :=
  (below_openPkt w m q n t).sameCh

theorem sameCh_poolNote (w : W) (m : Rid) (q o : Nat) : SameCh w (w.poolNote m q o) :=
  (below_poolNote w m q o).sameCh

theorem sameCh_misuse (w : W) (m : Rid) (q o : Nat) : SameCh w (w.misuse m q o).2 :=
  (below_misuse w m q o).sameCh

theorem sameCh_abortOpen (w : W) (p : OpenPkt) (o : Nat) : SameCh w (w.abortOpen p o) :=
  (below_abortOpen w p o).sameCh

theorem sameCh_mendByte (w : W) (m : Rid) (q o a : Nat) : SameCh w (w.mendByte m q o a) :=
  (below_mendByte w m q o a).sameCh

theorem sameCh_breakQueue (w : W) (m : Rid) (q o : Nat) : SameCh w (w.breakQueue m q o) :=
  (below_breakQueue w m q o).sameCh

theorem sameCh_readCell (w : W) (m : Rid) (q o c : Nat) : SameCh w (w.readCell m q o c) :=
  (below_readCell w m q o c).sameCh

/-- What a write of a port page that passes at once leaves. -/
def SameOpt (w : W) (r : Option (Acc × W)) : Prop := ∀ x, r = some x → SameCh w x.2

theorem SameOpt.some' {w : W} {x : Acc × W} (h : SameCh w x.2) : SameOpt w (some x) := fun _ e => by cases e; exact h

theorem SameOpt.pair' {w v : W} {a : Acc} (h : SameCh w v) : SameOpt w (some (a, v)) := fun _ e => by cases e; exact h

theorem SameOpt.none' {w : W} : SameOpt w none := fun _ e => by cases e

theorem SameOpt.trans {w v : W} {r : Option (Acc × W)} (h : SameCh w v) (k : SameOpt v r) : SameOpt w r :=
  fun x e => h.trans (k x e)

theorem sameCh_tryWaiter (w : W) (x : Waiter) : SameOpt w (w.tryWaiter x) := fun y e => (below_tryWaiter w x y e).sameCh

theorem sameCh_storeNotice (w : W) (k c : Nat) : SameCh w (w.storeNotice k c) :=
  (below_storeNotice w k c).sameCh

theorem sameCh_grantWaiters (w : W) : SameCh w w.grantWaiters :=
  (below_grantWaiters w).sameCh

theorem sameCh_tryRefused (w : W) (m : Rid) (q : Nat) : SameCh w (w.tryRefused m q) :=
  (below_tryRefused w m q).sameCh

theorem sameCh_tryPacket (w : W) (m : Rid) (q : Nat) (ws : List Word32) : SameCh w (w.tryPacket m q ws).2 :=
  (below_tryPacket w m q ws).sameCh

theorem sameCh_trace (w : W) (r : Rec) : SameCh w (w.trace r) :=
  (below_trace w r).sameCh

theorem sameCh_deliver (w : W) (k : Nat) (r : Reply) : SameCh w (w.deliver k r) :=
  (below_deliver w k r).sameCh

theorem sameCh_reply (w : W) (p : Packet) (o : Half) (st : Nat) (f : Bool) (r : List Byte) (s : Bool) : SameCh w (w.reply p o st f r s) :=
  (below_reply w p o st f r s).sameCh

theorem sameCh_finish (w : W) (p : Pend) (st : Nat) (r : List Byte) : SameCh w (w.finish p st r) :=
  (below_finish w p st r).sameCh

theorem sameCh_finishAll (w : W) (o k st : Nat) (r : List Byte) : SameCh w (w.finishAll o k st r) :=
  (below_finishAll w o k st r).sameCh

theorem sameCh_put (w : W) (a : Nat) (bs : List Byte) : SameCh w (w.put a bs) :=
  (below_put w a bs).sameCh

theorem sameCh_hobCount (w : W) (u : Nat) (b : Bool) (e : Word32) : SameCh w (w.hobCount u b e) :=
  (below_hobCount w u b e).sameCh

theorem sameCh_wakeHob (w : W) (u : Nat) : SameCh w (w.wakeHob u) :=
  (below_wakeHob w u).sameCh

theorem sameCh_granted (w : W) (u k : Nat) : SameCh w (w.granted u k) :=
  (below_granted w u k).sameCh

theorem sameCh_hobInjected (w : W) (u k : Nat) (l : List Nat) : SameCh w (w.hobInjected u k l) :=
  (below_hobInjected w u k l).sameCh

theorem sameCh_startCores (w : W) : SameCh w w.startCores :=
  (below_startCores w).sameCh

theorem sameCh_cutFail (w : W) (h : Nat) (c : Byte) : SameCh w (w.cutFail h c) :=
  (below_cutFail w h c).sameCh

theorem sameCh_endCutover (w : W) (o : Nat) : SameCh w (w.endCutover o) :=
  (below_endCutover w o).sameCh

theorem sameCh_carry (w : W) (h : Nat) (s : Machine.Section) (b : Bool) : SameCh w (w.carry h s b) :=
  (below_carry w h s b).sameCh

theorem sameCh_fallback (w : W) (o : Nat) : SameCh w (w.fallback o) :=
  (below_fallback w o).sameCh

theorem sameCh_cutoverSafe (w : W) : SameCh w w.cutoverSafe.2 :=
  (below_cutoverSafe w).sameCh

theorem sameCh_domainUp (w : W) (n : Nat) : SameCh w (w.domainUp n) :=
  (below_domainUp w n).sameCh

theorem sameCh_dozeUp (w : W) : SameCh w w.dozeUp :=
  (below_dozeUp w).sameCh

theorem sameCh_restartOut (w : W) (h : Nat) : SameCh w (w.restartOut h) :=
  (below_restartOut w h).sameCh

theorem sameCh_history (w : W) (r : Rec) : SameCh w (w.history r) := SameCh.upd _ _ rfl

theorem sameCh_errAssert (w : W) : SameCh w w.errAssert := (SameCh.upd w _ rfl).trans (sameCh_finishAll _ _ _ _ _)

theorem sameCh_errRelease (w : W) : SameCh w w.errRelease := (SameCh.upd w _ rfl).trans (sameCh_finishAll _ _ _ _ _)

theorem sameCh_errAuto (w : W) : SameCh w w.errAuto := SameCh.ite _ (sameCh_errRelease w) (SameCh.refl w)

end Sys2Proof.Proofs
end

section
/-! O4, O5: the damper channels (R47, R277) and the fuses (R57). `Keeps w w'` says that the world `w'` has the fuses of `w`, and
keeps the rule that no channel is LIVE or STARTING outside the running modes. Every operation of the model but those that blow
fuses keeps both, one lemma for each; the rules here follow the forms that the operations are written in. -/

namespace Sys2Proof.Proofs

open Machine Laws

-- One theorem is checked at a time: hundreds at once would need more threads than the memory limit allows.
set_option Elab.async false

/-- The channel is energised, or about to be. -/
def Damper.hot (c : Damper) : Prop := c.st = .live ∨ c.st = .starting

/-- No channel is LIVE or STARTING. -/
def Calm (d : Dev) : Prop := ∀ n, n < 64 → ¬ Damper.hot (d.damper n)

/-- The rule of R47 and R277: outside the running modes no channel is LIVE or STARTING. -/
def DampOk (d : Dev) : Prop := d.sys.mode.running = false → Calm d

/-- The world `w'` has the fuses of `w` and keeps the rule of the channels. -/
@[irreducible] def Keeps (w w' : W) : Prop := w'.fuse = w.fuse ∧ (DampOk w.dev → DampOk w'.dev)

theorem keeps_iff {w w' : W} : Keeps w w' ↔ w'.fuse = w.fuse ∧ (DampOk w.dev → DampOk w'.dev) := by rw [Keeps]

/-- A command that ends in `r`, at once or when the work that it leaves goes on, keeps what `Keeps` says. -/
def ResKeeps (w : W) : Res → Prop
  | .fin v _ _ => Keeps w v
  | .pend v _ go => Keeps w v ∧ ∀ u, Keeps u (go u)

/-- An action that may not apply keeps what `Keeps` says where it does. -/
def OptKeeps (w : W) (r : Option W) : Prop := ∀ v ∈ r, Keeps w v

/-- The rule depends on the channels and the mode alone. -/
theorem calm_congr {d e : Dev} (h : e.dampers = d.dampers) : Calm e ↔ Calm d := by
  rw [Calm, Calm]
  simp only [Dev.damper, h]

theorem chs_iff {d e : Dev} : chs e = chs d ↔ e.dampers = d.dampers ∧ e.sys.mode = d.sys.mode := by
  rw [chs, chs, Prod.mk.injEq]

theorem dampOk_congr {d e : Dev} (h : chs e = chs d) : DampOk e ↔ DampOk d := by
  obtain ⟨dampers, mode⟩ := chs_iff.mp h
  rw [DampOk, DampOk, mode, calm_congr dampers]

theorem Keeps.refl {w : W} : Keeps w w := keeps_iff.mpr ⟨rfl, id⟩

theorem Keeps.trans {a b c : W} (h : Keeps a b) (k : Keeps b c) : Keeps a c := by
  rw [keeps_iff] at h k ⊢
  exact ⟨k.1.trans h.1, k.2 ∘ h.2⟩

theorem Keeps.same {a b : W} (h : SameCh a b) : Keeps a b := by
  rw [sameCh_iff] at h
  exact keeps_iff.mpr ⟨h.2, (dampOk_congr h.1).mpr⟩

theorem Keeps.upd {a w : W} {f : Dev → Dev} (h : Keeps a w)
    (k : ∀ d, chs (f d) = chs d := by exact fun _ => rfl) : Keeps a (w.upd f) :=
  h.trans (.same (.upd w f (k w.dev)))

theorem Keeps.onChim {a w : W} {f : Chim → Chim} (h : Keeps a w) : Keeps a (w.onChim f) := h.upd

/-- Beside the device and the fuses nothing of the world matters. -/
theorem Keeps.beside {a w : W} {m : Memory} {o : List MemOp} {e : List (Nat × Word32 × Word32)}
    (h : Keeps a w) : Keeps a { fuse := w.fuse, base := m, ops := o, dev := w.dev, due := e } := by
  rw [keeps_iff] at h ⊢; exact h

theorem Keeps.ite {a b c : W} {p : Prop} [Decidable p] (h : Keeps a b) (k : Keeps a c) :
    Keeps a (if p then b else c) := by split <;> assumption

theorem Keeps.iteSnd {α : Type} {a : W} {x y : α × W} {p : Prop} [Decidable p] (h : Keeps a x.2)
    (k : Keeps a y.2) :
    Keeps a (if p then x else y).2 := by split <;> assumption

theorem Keeps.pair {α : Type} {w v : W} {a : α} (h : Keeps w v) : Keeps w (a, v).2 := h

/-- The world of a pair that is known. -/
theorem Keeps.snd {α : Type} {w v : W} {p : α × W} {a : α} (h : Keeps w p.2) (e : p = (a, v)) : Keeps w v := by
  rw [e] at h; exact h

theorem Keeps.of_snd {α : Type} {w v : W} {p : α × W} {a : α} (e : p = (a, v)) (h : Keeps w p.2) : Keeps w v :=
  h.snd e

theorem Keeps.each {α : Type} {a w : W} {xs : List α} {f : α → W → W} (h : Keeps a w)
    (k : ∀ x v, Keeps v (f x v)) : Keeps a (w.each xs f) := by
  induction xs generalizing w with
  | nil => exact h
  | cons x xs ih => exact ih (h.trans (k x w))

theorem Keeps.foldl {α : Type} {a w : W} {xs : List α} {f : W → α → W} (h : Keeps a w)
    (k : ∀ v x, Keeps v (f v x)) : Keeps a (xs.foldl f w) := by
  induction xs generalizing w with
  | nil => exact h
  | cons x xs ih => exact ih (h.trans (k w x))

theorem Keeps.foldlSnd {α β : Type} {a : W} {x : α × W} {xs : List β} {f : α × W → β → α × W} (h : Keeps a x.2)
    (k : ∀ x p, Keeps x.2 (f x p).2) : Keeps a (xs.foldl f x).2 := by
  induction xs generalizing x with
  | nil => exact h
  | cons p xs ih => exact ih (h.trans (k x p))

theorem Keeps.res {a b : W} {r : Res} (h : Keeps a b) (k : ResKeeps b r) : ResKeeps a r := by
  cases r with
  | fin v s l => exact h.trans k
  | pend v n go => exact ⟨h.trans k.1, k.2⟩

theorem Keeps.opt {a b : W} {r : Option W} (h : Keeps a b) (k : OptKeeps b r) : OptKeeps a r :=
  fun v e => h.trans (k v e)

theorem ResKeeps.fin {w v : W} {n : Nat} {l : List Byte} (h : Keeps w v) : ResKeeps w (.fin v n l) := h

theorem ResKeeps.pend {w v : W} {n : Nat} {go : W → W} (h : Keeps w v) (k : ∀ u, Keeps u (go u)) :
    ResKeeps w (.pend v n go) := ⟨h, k⟩

theorem ResKeeps.ite {a : W} {r s : Res} {p : Prop} [Decidable p] (h : ResKeeps a r) (k : ResKeeps a s) :
    ResKeeps a (if p then r else s) := by split <;> assumption

theorem OptKeeps.some {w v : W} (h : Keeps w v) : OptKeeps w (some v) := by
  intro u e; cases e; exact h

theorem OptKeeps.none {w : W} : OptKeeps w none := fun _ e => by cases e

theorem OptKeeps.ite {a : W} {r s : Option W} {p : Prop} [Decidable p] (h : OptKeeps a r) (k : OptKeeps a s) :
    OptKeeps a (if p then r else s) := by split <;> assumption

/-- `Keeps` of the world of a pair as a predicate of the whole pair, for a pair whose world is costly to compute. -/
@[irreducible] def SndKeeps {α : Type} (w : W) (p : α × W) : Prop := Keeps w p.2

theorem SndKeeps.of {α : Type} {w : W} {p : α × W} (h : Keeps w p.2) : SndKeeps w p := by rw [SndKeeps]; exact h

theorem SndKeeps.out {α : Type} {w : W} {p : α × W} (h : SndKeeps w p) : Keeps w p.2 := by rw [SndKeeps] at h; exact h

theorem SndKeeps.congrFun {α β : Type} {w : W} {b : β} {f g : β → α × W} (h : f = g) (k : SndKeeps w (g b)) :
    SndKeeps w (f b) :=
  h ▸ k

theorem SndKeeps.matchBool {α : Type} {w : W} {p : Bool × W} {f g : W → α × W} (hp : Keeps w p.2)
    (hf : ∀ v, SndKeeps v (f v)) (hg : ∀ v, SndKeeps v (g v)) :
    SndKeeps w (match p with | (false, v) => f v | (true, v) => g v) := by
  split
  · exact .of (hp.trans (hf _).out)
  · exact .of (hp.trans (hg _).out)

/-! Changes of one channel, and of the mode. -/

theorem damper_onDamper (d : Dev) (k n : Nat) (f : Damper → Damper) :
    (d.onDamper k f).damper n = if n = k then f (d.damper k) else d.damper n := by
  rw [Dev.damper, Dev.onDamper, getD_set]
  rfl

theorem calm_onDamper {d : Dev} {k : Nat} {f : Damper → Damper} (h : ∀ c, Damper.hot (f c) → Damper.hot c) (calm : Calm d) :
    Calm (d.onDamper k f) := by
  intro n hn
  rw [damper_onDamper]
  split
  · next e => exact fun hot => calm k (e ▸ hn) (h _ hot)
  · exact calm n hn

/-- A change of one channel that makes none LIVE or STARTING keeps the rule. -/
theorem Keeps.onDamper {a w : W} {k : Nat} {f : Dev → Damper → Damper} (h : Keeps a w)
    (cool : ∀ d c, Damper.hot (f d c) → Damper.hot c) : Keeps a (w.upd fun d => d.onDamper k (f d)) :=
  h.trans (keeps_iff.mpr ⟨rfl, fun ok mode => calm_onDamper (cool w.dev) (ok mode)⟩)

/-- Neither FORCED, SAFE, ARMED nor FAULT is LIVE or STARTING. -/
theorem not_hot {c : Damper} (live : c.st ≠ .live) (starting : c.st ≠ .starting) : ¬ Damper.hot c :=
  fun h => h.elim live starting

/-- In a running mode the rule asks nothing. -/
theorem dampOk_running {d : Dev} (h : d.sys.mode.running = true) : DampOk d := fun k => by rw [h] at k; cases k

theorem Keeps.running {w w' : W} (fuse : w'.fuse = w.fuse) (mode : w'.dev.sys.mode.running = true) : Keeps w w' :=
  keeps_iff.mpr ⟨fuse, fun _ => dampOk_running mode⟩

end Sys2Proof.Proofs
end

section
/-! The channels keep their rule and the fuses their state (R47, R57): what the operations below the blocks leave of the strapped position. -/

namespace Sys2Proof.Proofs

open Machine Laws

set_option Elab.async false

variable {w : W}

/-! Shared operations. -/

theorem keeps_wipe {lo n : Nat} : Keeps w (w.wipe lo n) := .beside .refl

theorem keeps_answer {a : Answer} : Keeps w (w.answer a) := .upd .refl

theorem keeps_when {c : Bool} {f : W → W} (hf : ∀ (v : W), Keeps v (f v)) : Keeps w (w.when c f) :=
  .ite (hf _) .refl

theorem keeps_fresh : Keeps w w.fresh.2 := .pair (.upd .refl)

theorem keeps_powered {f : W → W} (hf : ∀ (v : W), Keeps v (f v)) : Keeps w (w.powered f) := .ite .refl (hf _)

/-! The boundary FIFOs (R386). -/

theorem keeps_through {n : Nat} {act : W → W} (hact : ∀ (v : W), Keeps v (act v)) : Keeps w (w.through n act) :=
  .ite (Keeps.refl.upd.trans (hact _)) .refl

/-! The register file (R29). -/

theorem keeps_setReg {typ inst off : Nat} {v : Word32} : Keeps w (w.setReg typ inst off v) := .upd .refl

theorem keeps_setStaged {typ inst off : Nat} {v : Word32} : Keeps w (w.setStaged typ inst off v) :=
  .ite .refl (.upd .refl)

theorem keeps_countReg {typ inst off k : Nat} : Keeps w (w.countReg typ inst off k) := keeps_setReg

theorem keeps_setHobReg {u off : Nat} {v : Word32} : Keeps w (w.setHobReg u off v) :=
  .ite keeps_setReg keeps_setReg

theorem keeps_abortCommit {typ inst : Nat} : Keeps w (w.abortCommit typ inst) := by
  unfold W.abortCommit
  exact .upd .refl

theorem keeps_resetHearthRegs {h : Nat} : Keeps w (w.resetHearthRegs h) :=
  (Keeps.refl.upd.trans keeps_abortCommit).trans keeps_abortCommit

theorem keeps_resetCompares {c : Nat} : Keeps w (w.resetCompares c) :=
  .ite keeps_abortCommit (Keeps.refl.upd.trans keeps_abortCommit |>.trans keeps_abortCommit
    |>.trans keeps_abortCommit)

/-! The Bobbin's pool (R368 to R384). -/

theorem keeps_interrupt {c src : Nat} : Keeps w (w.interrupt c src) := .same (sameCh_interrupt _ _ _)

theorem keeps_interruptHearth {h src : Nat} : Keeps w (w.interruptHearth h src) :=
  .each .refl fun _ _ => keeps_interrupt

theorem keeps_queueNote {s : Nat} {m : Rid} {q off : Nat} : Keeps w (w.queueNote s m q off) := .beside .refl

theorem keeps_onBob {f : Bobbin → Bobbin} : Keeps w (w.onBob f) := .upd .refl

theorem keeps_poolPut {o : Nat} {bs : List Byte} : Keeps w (w.poolPut o bs) := keeps_onBob

theorem keeps_poolFlip {a : Nat} {x : BitVec 13} : Keeps w (w.poolFlip a x) := keeps_onBob

theorem keeps_mendByte {m : Rid} {q off a : Nat} : Keeps w (w.mendByte m q off a) :=
  .same (sameCh_mendByte _ _ _ _ _)

theorem keeps_breakQueue {m : Rid} {q off : Nat} : Keeps w (w.breakQueue m q off) :=
  .same (sameCh_breakQueue _ _ _ _)

theorem keeps_readCell {m : Rid} {q off c : Nat} : Keeps w (w.readCell m q off c) :=
  .same (sameCh_readCell _ _ _ _ _)

theorem keeps_freeCell {q c : Nat} : Keeps w (w.freeCell q c) := .same (sameCh_freeCell _ _ _)

theorem keeps_openPkt {m : Rid} {q n : Nat} {tried : Bool} : Keeps w (w.openPkt m q n tried) :=
  .same (sameCh_openPkt _ _ _ _ _)

theorem keeps_deqWord {q : Nat} : Keeps w (w.deqWord q) := by
  unfold W.deqWord
  split
  · exact .refl
  · exact .ite (.upd .refl) keeps_freeCell.upd

theorem keeps_cellRead {m : Rid} {q off : Nat} : Keeps w (w.cellRead m q off).2 := by
  unfold W.cellRead
  split
  · exact keeps_readCell.trans (.iteSnd .refl (.iteSnd (.pair keeps_breakQueue) (.iteSnd
        (.pair keeps_queueNote) .refl)))
  · exact .refl

theorem keeps_deqMany {m : Rid} {q n : Nat} : Keeps w (w.deqMany m q n).2 := by
  induction n generalizing w with
  | zero => exact .refl
  | succ n ih =>
    unfold W.deqMany
    dsimp only
    split
    · exact keeps_cellRead
    · exact (keeps_cellRead.trans keeps_deqWord).trans ih

theorem keeps_deqPacket {m : Rid} {q : Nat} : Keeps w (w.deqPacket m q).2 := by
  unfold W.deqPacket
  dsimp only
  split
  · exact .pair keeps_cellRead
  · exact .pair ((keeps_cellRead.trans keeps_deqWord).trans keeps_deqMany)

theorem keeps_flushQueue {q : Nat} : Keeps w (w.flushQueue q).2 :=
  (keeps_onBob.each fun _ _ => keeps_freeCell).trans (.pair (.upd .refl))

/-! The Acaeder image (R438, R439). -/

theorem keeps_put {a : Nat} {bs : List Byte} : Keeps w (w.put a bs) := .same (sameCh_put _ _ _)

theorem keeps_clearHob {lo n : Nat} : Keeps w (w.clearHob lo n) := keeps_wipe.upd

/-! The cells of the hobs (R195, R196). -/

theorem keeps_granted {u k : Nat} : Keeps w (w.granted u k) := .same (sameCh_granted _ _ _)

theorem keeps_hobCount {u : Nat} {bad : Bool} {e : Word32} : Keeps w (w.hobCount u bad e) :=
  .same (sameCh_hobCount _ _ _ _)

theorem keeps_hobLog {u a : Nat} {march : Bool} {c : ByteCode} : Keeps w (w.hobLog u a march c).2 := by
  unfold W.hobLog
  split
  · exact .refl
  · exact .pair keeps_hobCount.upd
  · exact .pair keeps_hobCount

theorem keeps_freshCode {a : Nat} : Keeps w (w.freshCode a) := by
  unfold W.freshCode
  split
  · exact keeps_put
  · exact .refl

theorem keeps_wakeHob {u : Nat} : Keeps w (w.wakeHob u) := .same (sameCh_wakeHob _ _)

theorem keeps_hobInjected {u k : Nat} {as : List Nat} : Keeps w (w.hobInjected u k as) :=
  .same (sameCh_hobInjected _ _ _ _)

theorem keeps_hobWriteParts {u k : Nat} {ps : List (Nat × List Byte)} : Keeps w (w.hobWriteParts u k ps) :=
  keeps_wakeHob.trans keeps_granted |>.each (fun _ _ => keeps_put) |>.trans keeps_hobInjected

theorem keeps_hobWrite {u k a : Nat} {bs : List Byte} : Keeps w (w.hobWrite u k a bs) := keeps_hobWriteParts

theorem keeps_hobWrites {u k a : Nat} {bs : List Byte} : Keeps w (w.hobWrites u k a bs) :=
  keeps_hobWrite.trans keeps_put

/-! The cores (R129, R152, R161). -/

theorem keeps_startCore {k : Nat} : Keeps w (w.startCore k) := by
  unfold W.startCore
  split
  · exact .refl
  · exact Keeps.refl.upd.trans (.ite (.upd .refl) .refl)

theorem keeps_clearCore {k : Nat} : Keeps w (w.clearCore k) := by
  unfold W.clearCore
  exact keeps_resetCompares.upd

theorem keeps_carry {h : Nat} {s : Section} {back : Bool} : Keeps w (w.carry h s back) :=
  .same (sameCh_carry _ _ _ _)

/-! Replies (R67, R69, R71). -/

theorem keeps_deliver {k : Nat} {r : Reply} : Keeps w (w.deliver k r) := .same (sameCh_deliver _ _ _)

theorem keeps_store {k : Nat} {r : Reply} : Keeps w (w.store k r) := .upd .refl

theorem keeps_reply {p : Packet} {opc : Half} {status : Nat} {final : Bool} {result : List Byte} {stale : Bool} :
    Keeps w (w.reply p opc status final result stale) :=
  .same (sameCh_reply _ _ _ _ _ _ _)

theorem keeps_dropPend {p : Pend} : Keeps w (w.dropPend p) := .upd .refl

theorem keeps_finish {p : Pend} {status : Nat} {result : List Byte} : Keeps w (w.finish p status result) :=
  .same (sameCh_finish _ _ _ _)

theorem keeps_finishAll {opc key status : Nat} {result : List Byte} :
    Keeps w (w.finishAll opc key status result) :=
  .same (sameCh_finishAll _ _ _ _ _)

theorem keeps_setRunning {p : Pend} {key : Nat} : Keeps w (w.setRunning p key) := .upd .refl

/-! Power domains (R459, R462, R470). -/

theorem keeps_domainUp {n : Nat} : Keeps w (w.domainUp n) := .same (sameCh_domainUp _ _)

theorem keeps_wakeDom {n : Nat} : Keeps w (w.wakeDom n) := .ite .refl keeps_domainUp

theorem keeps_wakeAt {a : Nat} : Keeps w (w.wakeAt a) := by
  unfold W.wakeAt
  split
  · exact keeps_wakeDom
  · exact .refl

theorem keeps_wakeLanes {k : Nat} : Keeps w (w.wakeLanes k) := .each .refl fun _ _ => keeps_wakeDom

theorem keeps_latchPads : Keeps w w.latchPads := .ite .refl (.upd .refl)

theorem keeps_dozeUp : Keeps w w.dozeUp := .same (sameCh_dozeUp _)

/-! The Bobbin's engine (R372, R384). -/

theorem keeps_storeNotice {k cause : Nat} : Keeps w (w.storeNotice k cause) := .same (sameCh_storeNotice _ _ _)

theorem keeps_writeFailed {m : Rid} {e : Nat} : Keeps w (w.writeFailed m e) := by
  unfold W.writeFailed
  split
  · exact keeps_storeNotice
  · exact .refl

theorem keeps_misuse {m : Rid} {q off : Nat} : Keeps w (w.misuse m q off).2 := .same (sameCh_misuse _ _ _ _)

theorem keeps_poolNote {m : Rid} {q off : Nat} : Keeps w (w.poolNote m q off) := .same (sameCh_poolNote _ _ _ _)

theorem keeps_abortOpen {p : OpenPkt} {off : Nat} : Keeps w (w.abortOpen p off) :=
  .same (sameCh_abortOpen _ _ _)

theorem keeps_grantWaiters : Keeps w w.grantWaiters := .same (sameCh_grantWaiters _)

theorem keeps_tryRefused {m : Rid} {q : Nat} : Keeps w (w.tryRefused m q) := .same (sameCh_tryRefused _ _ _)

theorem keeps_tryPacket {m : Rid} {q : Nat} {ws : List Word32} : Keeps w (w.tryPacket m q ws).2 :=
  .same (sameCh_tryPacket _ _ _ _)

end Sys2Proof.Proofs
end


section
/-! The channels keep their rule and the fuses their state (R47, R57): the Flue, the modes, the memories and the gate. -/

namespace Sys2Proof.Proofs

open Machine Laws

set_option Elab.async false

variable {w : W}

/-! The Flue (R271 to R276, R289 to R293). -/

/-- A forced channel is neither LIVE nor STARTING, and no other channel becomes so. -/
theorem hot_forceCh {n k : Nat} (h : Damper.hot ((w.forceCh n).dev.damper k)) : k ≠ n ∧ Damper.hot (w.dev.damper k) := by
  by_cases still : (w.dev.damper n).st = .fault ∨ (w.dev.damper n).st = .forced
  · rw [W.forceCh, if_pos still] at h
    refine ⟨?_, h⟩
    rintro rfl
    rcases h with h | h <;> rcases still with e | e <;> rw [e] at h <;> cases h
  · rw [W.forceCh, if_neg still] at h
    change Damper.hot (Dev.damper (Dev.onDamper _ n _) k) at h
    rw [damper_onDamper] at h
    split at h
    · rcases h with e | e <;> cases e
    · next ne => exact ⟨ne, h⟩

theorem mode_forceCh {n : Nat} : (w.forceCh n).dev.sys.mode = w.dev.sys.mode := by
  rw [W.forceCh]
  split <;> rfl

theorem keeps_forceCh {n : Nat} : Keeps w (w.forceCh n) :=
  keeps_iff.mpr ⟨(steady_forceCh w n).2.1, fun ok mode k hk hot => ok (mode_forceCh ▸ mode) k hk (hot_forceCh hot).2⟩

/-- All channels forced: none is LIVE or STARTING. -/
theorem calm_forceAll (ks : List Nat) (k : Nat) (hot : Damper.hot ((w.each ks fun n w => w.forceCh n).dev.damper k)) :
    k ∉ ks ∧ Damper.hot (w.dev.damper k) := by
  induction ks generalizing w with
  | nil => exact ⟨List.not_mem_nil, hot⟩
  | cons n ks ih =>
    obtain ⟨out, before⟩ := ih (w := w.forceCh n) hot
    obtain ⟨ne, first⟩ := hot_forceCh before
    exact ⟨fun mem => (List.mem_cons.mp mem).elim ne out, first⟩

theorem keeps_safeCh {n : Nat} : Keeps w (w.safeCh n) := by
  refine Keeps.refl.onDamper fun _ c => ?_
  split
  · rintro (e | e) <;> cases e
  · exact id

theorem keeps_releaseChs : Keeps w w.releaseChs :=
  .each .refl fun _ _ => .ite (.onDamper .refl fun _ _ h => absurd h (not_hot nofun nofun)) .refl

theorem keeps_history {r : Rec} : Keeps w (w.history r) := .same (sameCh_history _ _)

theorem keeps_errAssert : Keeps w w.errAssert := .same (sameCh_errAssert _)

theorem keeps_errRelease : Keeps w w.errRelease := .same (sameCh_errRelease _)

theorem keeps_errAuto : Keeps w w.errAuto := .same (sameCh_errAuto _)

/-- A transition to a running mode asks nothing of the channels. -/
theorem keeps_stampMode {m : Mode} (running : m.running = true) : Keeps w (w.stampMode m) := .running rfl running

/-- A transition between modes in which no channel is live leaves them as they are. -/
theorem keeps_stampMode_calm {m : Mode} (from_ : w.dev.sys.mode.running = false) : Keeps w (w.stampMode m) :=
  keeps_iff.mpr ⟨rfl, fun ok _ => ok from_⟩

theorem runMode_running (w : W) : w.runMode.running = true := by
  rw [W.runMode]
  split <;> rfl

theorem keeps_startCores : Keeps w w.startCores := .same (sameCh_startCores _)

theorem keeps_cutFail {h : Nat} {cause : Byte} : Keeps w (w.cutFail h cause) := .same (sameCh_cutFail _ _ _)

theorem keeps_endCutover {outcome : Nat} : Keeps w (w.endCutover outcome) := .same (sameCh_endCutover _ _)

theorem keeps_fallback {outcome : Nat} : Keeps w (w.fallback outcome) := .same (sameCh_fallback _ _)

theorem keeps_restartOut {h : Nat} : Keeps w (w.restartOut h) := .same (sameCh_restartOut _ _)

theorem keeps_hearthSafe {s h : Nat} : Keeps w (w.hearthSafe s h) :=
  (Keeps.refl.upd.trans keeps_restartOut).trans (.each .refl fun _ _ => keeps_forceCh)

theorem keeps_selectGroup {s h g : Nat} : Keeps w (w.selectGroup s h g) :=
  (Keeps.refl.upd.trans keeps_restartOut).trans (.each .refl fun _ _ => .ite keeps_forceCh .refl)

/-- SAFE entered from a mode in which no channel is live. -/
theorem keeps_enterSafe (from_ : w.dev.sys.mode.running = false) : Keeps w w.enterSafe.2 := by
  unfold W.enterSafe
  split
  · exact .refl
  · dsimp only
    have cut := sameCh_cutoverSafe w
    have still : w.cutoverSafe.2.dev.sys.mode.running = false := by
      rw [(chs_iff.mp (sameCh_iff.mp cut).1).2]; exact from_
    refine ((Keeps.same cut).trans ?_).trans keeps_startCores
    refine Keeps.trans ?_ (.ite keeps_dozeUp .refl)
    exact (Keeps.refl.upd (w := w.cutoverSafe.2)).trans (keeps_stampMode_calm (by exact still))

/-- The reaction device SAFE forces all channels, whatever they were (R273). -/
theorem keeps_deviceSafe {s : Nat} : Keeps w (w.deviceSafe s).2 := by
  refine keeps_iff.mpr ⟨(steady_deviceSafe w s).2.1, fun _ _ k hk hot => ?_⟩
  exact (calm_forceAll _ k hot).1 (List.mem_range.mpr hk)

theorem keeps_noteEvent {s : Nat} {level : Bool} {r : Rec} : Keeps w (w.noteEvent s level r) :=
  Keeps.refl.upd.trans (.ite (.upd .refl) .refl)

theorem keeps_startDriving : Keeps w w.startDriving := .upd .refl

theorem keeps_react {s : Nat} {r : Rec} {grp : List Nat} : Keeps w (w.react s r grp).2 := by
  unfold W.react
  extract_lets h w1 w2 w3 w4 w5 w6 w7
  have reactions : Keeps w w7 :=
    Keeps.ite keeps_history .refl |>.trans (.same (sameCh_trace w1 r)) |>.trans (.ite keeps_cutFail .refl)
      |>.trans (.ite keeps_startDriving .refl) |>.trans (.ite keeps_hearthSafe .refl)
      |>.trans (.ite (.each .refl fun _ _ => keeps_selectGroup) .refl) |>.trans (.ite keeps_errAssert .refl)
  refine reactions.trans ?_
  split
  · exact keeps_deviceSafe
  · split
    · next quiet => exact keeps_enterSafe (by rw [quiet.2]; rfl)
    · exact .refl

theorem keeps_event {s : Nat} {d0 d1 : Word32} {test : Bool} {grp : List Nat} : Keeps w (w.event s d0 d1 test grp).2 := by
  unfold W.event
  split
  · exact .refl
  · exact keeps_noteEvent.trans keeps_react

theorem keeps_poolCheck : Keeps w w.poolCheck :=
  .ite keeps_event (.ite (Keeps.refl.upd.trans keeps_errAuto) .refl)

theorem keeps_fellBack {x : Bool × W} : Keeps x.2 (W.fellBack x) := .ite keeps_event .refl

theorem keeps_drainOnce : Keeps w w.drainOnce :=
  Keeps.refl.beside.trans (.each .refl fun _ _ => .ite .refl (keeps_event.trans keeps_fellBack))

theorem keeps_drainDue : Keeps w w.drainDue := keeps_drainOnce.trans keeps_drainOnce

theorem keeps_settle : Keeps w w.settle := keeps_drainDue.trans keeps_poolCheck

theorem keeps_followUp {x : Bool × W} : Keeps x.2 (W.followUp x) := keeps_fellBack.trans keeps_settle

theorem keeps_raise {s : Nat} {d0 d1 : Word32} {test : Bool} {grp : List Nat} :
    Keeps w (w.raise s d0 d1 test grp) := keeps_event.trans keeps_followUp

theorem keeps_raiseTwo {a b : Nat} {da db : Word32} : Keeps w (w.raiseTwo a b da db) := by
  have one (x : Bool × W) (s : Nat) (r : Rec) : Keeps x.2 (if x.2.stands s then x
      else let y := (x.2.noteEvent s ((x.2.source s).any (·.level)) r).react s r []; (x.1 || y.1, y.2)).2 :=
    .iteSnd .refl (.pair (keeps_noteEvent.trans keeps_react))
  exact one (false, w) a _ |>.trans (one _ b _) |>.trans keeps_followUp

theorem keeps_hwForce {s : Nat} : Keeps w (w.hwForce s) :=
  Keeps.refl.upd.trans keeps_startDriving |>.trans keeps_errAssert |>.trans keeps_deviceSafe
    |>.trans keeps_followUp

theorem keeps_internal : Keeps w w.internal := keeps_raise

theorem keeps_level {s : Nat} {d0 d1 : Word32} : Keeps w (w.level s d0 d1) := .ite .refl keeps_raise

theorem keeps_inactive {s : Nat} : Keeps w (w.inactive s) := Keeps.refl.upd.trans keeps_errAuto

theorem keeps_raiseAddr {s : Nat} {a : Addr} {m : Rid} : Keeps w (w.raiseAddr s a m) := keeps_raise

theorem keeps_localRecovery {h : Nat} : Keeps w (w.localRecovery h) := .upd .refl

theorem keeps_releaseHold {h : Nat} : Keeps w (w.releaseHold h) :=
  (Keeps.refl.upd.trans keeps_localRecovery).trans keeps_releaseChs

theorem keeps_releaseSel {k : Nat} : Keeps w (w.releaseSel k) := Keeps.refl.upd.trans keeps_releaseChs

/-! Mode transitions (R40 to R47). -/

theorem keeps_dropRequesters {sel : Rid → Bool} : Keeps w (w.dropRequesters sel) :=
  Keeps.refl.each (fun _ _ => keeps_abortOpen) |>.trans keeps_onBob |>.trans keeps_settle

theorem keeps_wdtHeld : Keeps w w.wdtHeld := by
  unfold W.wdtHeld
  split
  · exact keeps_level
  · exact .ite keeps_inactive .refl

theorem keeps_entryHeld {h : Nat} : Keeps w (w.entryHeld h) := .ite keeps_inactive .refl

theorem keeps_coreReset {k : Nat} : Keeps w (w.coreReset k) :=
  keeps_dropRequesters.trans keeps_clearCore |>.trans keeps_wdtHeld |>.trans (.ite keeps_entryHeld .refl)

theorem keeps_flushParams {h : Nat} : Keeps w (w.flushParams h) :=
  Keeps.refl.each (fun _ _ => .each .refl fun _ _ => keeps_hobWriteParts) |>.upd |>.trans keeps_finishAll
    |>.trans keeps_finishAll

theorem keeps_takeBank {h : Nat} : Keeps w (w.takeBank h) := Keeps.refl.upd.trans keeps_finishAll

theorem keeps_stopOne {h : Nat} : Keeps w (w.stopOne h) :=
  (Keeps.refl.upd.trans keeps_flushParams).trans keeps_takeBank

theorem keeps_stopBellows : Keeps w w.stopBellows := .each .refl fun _ _ => keeps_stopOne

theorem keeps_settleRun : Keeps w w.settleRun := .ite (keeps_stampMode (runMode_running w)) .refl

theorem keeps_cancelErr : Keeps w w.cancelErr := Keeps.refl.upd.trans keeps_finishAll

theorem keeps_endEpisode : Keeps w w.endEpisode := Keeps.refl.upd.trans keeps_releaseChs

theorem keeps_firstPrepare : Keeps w w.firstPrepare :=
  .ite .refl (Keeps.refl.upd.trans (.ite .refl (.ite keeps_errRelease (.upd .refl))))

theorem chs_dozeDown (d : Dev) : chs d.dozeDown = chs d := by
  unfold Dev.dozeDown
  generalize List.range 208 = l1
  generalize List.range 16 = l2
  generalize List.range 6 = l3
  generalize ([230, 231, 232, 233, 234, 236, 239, 240] : List Nat) = l4
  generalize List.range 17 = l5
  generalize List.range 64 = l6
  have onDom : ∀ (g : Nat → Nat) (f : Domain → Domain) (l : List Nat) (d : Dev),
      chs (l.foldl (fun d n => d.onDom (g n) f) d) = chs d := fun g f => chs_foldl (fun d n => d.onDom (g n) f) fun _ _ => rfl
  have cores := chs_foldl (fun d k => d.onCore k fun x => { x with wait := .wait }) (fun _ _ => rfl) l6
  have hobs := chs_foldl (fun d h => d.onHob h fun x => { x with power := .ret45 }) (fun _ _ => rfl) l5
  refine (cores _).trans ((hobs _).trans ?_)
  refine (onDom id _ l4 _).trans ((onDom (224 + ·) _ l3 _).trans ?_)
  exact (onDom (208 + ·) _ l2 _).trans (onDom id _ l1 _)

/-- A channel that has returned to SAFE is neither LIVE nor STARTING, and no other channel becomes so. -/
theorem hot_safeCh {n k : Nat} (h : Damper.hot ((w.safeCh n).dev.damper k)) : k ≠ n ∧ Damper.hot (w.dev.damper k) := by
  change Damper.hot (Dev.damper (Dev.onDamper _ n _) k) at h
  rw [damper_onDamper] at h
  split at h
  · next e =>
    split at h
    · rcases h with e | e <;> cases e
    · next cold => exact absurd (h.elim (fun e => .inr (.inr e)) (fun e => .inr (.inl e))) cold
  · next ne => exact ⟨ne, h⟩

theorem hot_safeAll (ks : List Nat) (k : Nat) (hot : Damper.hot ((w.each ks fun n w => w.safeCh n).dev.damper k)) :
    k ∉ ks ∧ Damper.hot (w.dev.damper k) := by
  induction ks generalizing w with
  | nil => exact ⟨List.not_mem_nil, hot⟩
  | cons n ks ih =>
    obtain ⟨out, before⟩ := ih (w := w.safeCh n) hot
    obtain ⟨ne, first⟩ := hot_safeCh before
    exact ⟨fun mem => (List.mem_cons.mp mem).elim ne out, first⟩

theorem fuse_safeAll (ks : List Nat) : (w.each ks fun n w => w.safeCh n).fuse = w.fuse := by
  induction ks generalizing w with
  | nil => rfl
  | cons n ks ih => exact ih

/-- A transition first returns every channel to SAFE where it leaves the running modes (R47). -/
theorem keeps_leaveRunning {new : Mode} :
    Keeps w (if w.dev.sys.mode.running && !new.running then
      ((w.stampMode new).each (List.range 64) fun n w => w.safeCh n).endCutover 4 else w.stampMode new) := by
  split
  · refine Keeps.trans (b := (w.stampMode new).each (List.range 64) fun n w => w.safeCh n) ?_ keeps_endCutover
    exact keeps_iff.mpr ⟨fuse_safeAll _, fun _ _ k hk hot => (hot_safeAll _ k hot).1 (List.mem_range.mpr hk)⟩
  · next h =>
    simp only [Bool.and_eq_true, Bool.not_eq_true', not_and, Bool.not_eq_false] at h
    cases mode : w.dev.sys.mode.running with
    | true => exact keeps_stampMode (h mode)
    | false => exact keeps_stampMode_calm mode

theorem keeps_setMode {new : Mode} : Keeps w (w.setMode new) :=
  .ite .refl (keeps_leaveRunning.trans (.ite .refl (.each .refl fun _ _ => keeps_coreReset))
    |>.trans (.ite .refl keeps_stopBellows) |>.trans (.ite keeps_endEpisode .refl)
    |>.trans (.ite (.upd .refl) .refl) |>.trans (.ite (.upd .refl) .refl)
    |>.trans (.ite (Keeps.refl.upd.trans keeps_cancelErr) .refl) |>.trans (.ite keeps_dozeUp .refl)
    |>.trans (.ite (keeps_latchPads.upd chs_dozeDown) .refl) |>.trans (.ite keeps_firstPrepare .refl)
    |>.trans (.ite keeps_startCores .refl) |>.upd |>.trans keeps_errAuto)

/-! The firewalls (R177 to R181). -/

theorem keeps_fwRefuse {u : Nat} {a : Addr} {m : Rid} {d : Dir} : Keeps w (w.fwRefuse u a m d) :=
  keeps_countReg.trans (.ite (Keeps.ite .refl (keeps_setReg.trans keeps_setReg |>.trans keeps_setReg
    |>.trans keeps_setReg |>.trans keeps_setReg) |>.trans keeps_raiseAddr
    |>.trans (.ite keeps_raiseAddr .refl)) keeps_raiseAddr)

theorem keeps_fwCheck {u : Nat} {a : Addr} {m : Rid} {d : Dir} : Keeps w (w.fwCheck u a m d).2 :=
  .iteSnd .refl (.pair keeps_fwRefuse)

/-! The DRAM controllers (R344 to R350). -/

theorem keeps_storeBlock {ch line : Nat} {data : List Byte} {flips : List Byte → List Byte} :
    Keeps w (w.storeBlock ch line data flips) :=
  .upd .refl

theorem keeps_writeLine {ch line : Nat} {data : List Byte} : Keeps w (w.writeLine ch line data) :=
  .ite ((keeps_storeBlock.trans keeps_setReg).trans keeps_finishAll) keeps_storeBlock

theorem keeps_logFix {ch line m : Nat} {o : BitVec 4} {fix : Nat × BitVec 5} :
    Keeps w (w.logFix ch line m o fix) :=
  .ite (.upd .refl) (.ite (.upd .refl) keeps_countReg.upd)

theorem keeps_checkLine {line : Nat} : Keeps w (w.checkLine line).2 :=
  .iteSnd (.pair (keeps_countReg.trans keeps_raise)) (.iteSnd .refl ((keeps_countReg.each fun _ _ =>
    keeps_logFix).trans (.pair keeps_raise)))

theorem keeps_readLine {line : Nat} : Keeps w (w.readLine line).2 :=
  keeps_checkLine.trans (.pair (.ite .refl (.upd .refl)))

theorem keeps_retiredAccess {a : Nat} : Keeps w (w.retiredAccess a) := keeps_raise

theorem keeps_readLines {ls : List Nat} : Keeps w (w.readLines ls).2 := by
  induction ls generalizing w with
  | nil => exact .refl
  | cons l ls ih =>
    rw [W.readLines]
    split
    · exact .pair keeps_retiredAccess
    split
    · exact .pair .refl
    split
    next r w1 e =>
    have h : Keeps w w1 := keeps_readLine.snd e
    split
    · exact .pair h
    split
    · next e => exact .pair (h.trans (ih.snd e))
    · next e => exact .pair (h.trans (ih.snd e))

theorem keeps_eccNote {m : Rid} {fixed : Bool} : Keeps w (w.eccNote m fixed) := by
  unfold W.eccNote
  split
  · exact .ite keeps_interrupt .refl
  · exact .refl

theorem keeps_dramRead {m : Rid} {a n : Nat} : Keeps w (w.dramRead m a n).2 := by
  unfold W.dramRead
  split
  · next e => exact .pair ((keeps_readLines.snd e).trans keeps_eccNote)
  · next e => exact .pair (keeps_readLines.snd e)

theorem keeps_mergeLine {m : Rid} {line o : Nat} {bs : List Byte} : Keeps w (w.mergeLine m line o bs).2 :=
  .iteSnd (.pair keeps_retiredAccess) (.iteSnd .refl (.iteSnd (.pair keeps_writeLine) (keeps_checkLine.trans
    (.iteSnd .refl (.pair (keeps_writeLine.trans keeps_eccNote))))))

theorem keeps_atomicLine {m : Rid} {a n : Nat} {f : List Byte → List Byte} : Keeps w (w.atomicLine m a n f).2 :=
  .iteSnd (.pair keeps_retiredAccess) (.iteSnd .refl (keeps_checkLine.trans (.iteSnd .refl (.pair
    (keeps_writeLine.trans keeps_eccNote)))))

theorem keeps_dramBacks : Keeps w w.dramBacks := .each .refl fun _ _ => keeps_storeBlock

theorem keeps_writeParts {m : Rid} {ps : List (Nat × Nat × List Byte)} : Keeps w (w.writeParts m ps).2 := by
  induction ps generalizing w with
  | nil => exact .refl
  | cons p ps ih =>
    unfold W.writeParts
    split
    · next e => exact (keeps_mergeLine.snd e).trans ih
    · exact keeps_mergeLine

theorem keeps_dramWrite {m : Rid} {a : Nat} {bs : List Byte} : Keeps w (w.dramWrite m a bs).2 :=
  keeps_writeParts

theorem keeps_retire {p : Nat} {record : Bool} : Keeps w (w.retire p record).2 :=
  .iteSnd (.pair (.upd .refl)) (.iteSnd (.pair (.upd .refl)) .refl)

/-! The hobs (R193 to R197). -/

theorem keeps_hobError {u a : Nat} {march : Bool} {c : ByteCode} : Keeps w (w.hobError u a march c) := by
  unfold W.hobError
  split
  · next e => exact (keeps_hobLog.snd e).trans keeps_raise
  · next e => exact keeps_hobLog.snd e

theorem keeps_hobScan {u word : Nat} {march : Bool} : Keeps w (w.hobScan u word march) :=
  .ite .refl (.each .refl fun _ _ => .ite keeps_hobError .refl)

theorem keeps_hobRead {m : Rid} {u a n : Nat} : Keeps w (w.hobRead m u a n).2 :=
  (keeps_wakeHob.trans keeps_granted).trans (.iteSnd .refl (Keeps.refl.each (fun _ _ => keeps_hobScan)
    |>.trans keeps_eccNote |>.trans (.iteSnd .refl .refl)))

theorem keeps_hobModify {m : Rid} {u k r a n : Nat} {f : List Byte → List Byte} :
    Keeps w (w.hobModify m u k r a n f).2 := by
  unfold W.hobModify
  split
  · next e => exact .pair ((keeps_hobRead.snd e).trans keeps_hobWrite)
  · exact keeps_hobRead

theorem keeps_hobAlias {m : Rid} {u k a : Nat} {set : Bool} {bs : List Byte} :
    Keeps w (w.hobAlias m u k a set bs).2 := by
  unfold W.hobAlias
  split
  · next e => exact .pair (keeps_hobModify.snd e)
  · exact keeps_hobModify

theorem keeps_hobAtomic {m : Rid} {u k r a size op : Nat} {opd : Word64} :
    Keeps w (w.hobAtomic m u k r a size op opd).2 :=
  keeps_hobModify

theorem keeps_drainWb {u : Nat} : Keeps w (w.drainWb u) := by
  unfold W.drainWb
  split
  · exact .refl
  · exact (Keeps.refl.upd.trans keeps_freshCode).trans keeps_granted

theorem keeps_drainAll {u : Nat} : Keeps w (w.drainAll u) := .each .refl fun _ _ => keeps_drainWb

theorem keeps_testerGo {u : Nat} : Keeps w (w.testerGo u) := .ite (.upd .refl) keeps_drainWb

theorem keeps_marchStart {u : Nat} : Keeps w (w.marchStart u) :=
  .ite .refl ((keeps_drainAll.upd.trans keeps_granted).trans (.ite .refl (.each .refl fun _ _ =>
    keeps_hobScan.each fun _ _ => .ite keeps_freshCode .refl)))

theorem keeps_marchEnd {u : Nat} {fail : Bool} : Keeps w (w.marchEnd u fail) :=
  .ite (Keeps.ite keeps_setHobReg .refl |>.upd |>.trans keeps_granted |>.trans (.ite keeps_raise .refl)) .refl

theorem keeps_hobInject {u : Nat} {v : Word32} : Keeps w (w.hobInject u v) :=
  .ite .refl (.ite (.upd .refl) (.upd .refl))

theorem keeps_hobCntClear {u : Nat} : Keeps w (w.hobCntClear u) := .each .refl fun _ _ => keeps_setHobReg

theorem keeps_conflict {u : Nat} {ms : List Nat} : Keeps w (w.conflict u ms) :=
  .each .refl fun _ _ => keeps_setHobReg

/-! Who may write a control register (R177). -/

theorem keeps_xlog {grant : Word32} {m : Rid} {result : BitVec 2} {a : Nat} {v : Word32} :
    Keeps w (w.xlog grant m result a v) :=
  .upd .refl

theorem keeps_expertBlocked : Keeps w w.expertBlocked := keeps_raise

theorem keeps_mayWrite {m : Rid} {typ inst o : Nat} {v : Word32} : Keeps w (w.mayWrite m typ inst o v).2 := by
  refine .iteSnd .refl (.iteSnd (keeps_expertBlocked.trans (.pair (.ite .refl keeps_xlog))) (.iteSnd .refl ?_))
  split
  · exact .pair keeps_expertBlocked
  · exact .iteSnd (.pair keeps_level) (.pair keeps_xlog)

theorem keeps_fwWrite {m : Rid} {a : Nat} : Keeps w (w.fwWrite m a).2 :=
  .iteSnd (.pair keeps_fwRefuse) keeps_fwCheck

theorem keeps_writeRow {m : Rid} {typ inst o : Nat} {v : Word32} {act : W → W}
    (hact : ∀ (v : W), Keeps v (act v)) :
    Keeps w (w.writeRow m typ inst o v act) := by
  unfold W.writeRow
  refine keeps_powered fun v => .ite keeps_answer ?_
  split
  next e =>
  refine (keeps_fwWrite.snd e).trans ?_
  split
  · split
    next e =>
    refine (keeps_mayWrite.snd e).trans (.ite ((hact _).trans keeps_answer) ?_)
    split <;> exact keeps_answer
  · split <;> exact keeps_answer

/-! The damper channels (R277 to R280, R305). -/

theorem keeps_unarm {h : Nat} : Keeps w (w.unarm h) :=
  .each .refl fun _ _ => (Keeps.ite keeps_safeCh .refl).onDamper fun _ _ => id

theorem keeps_damperRefuse {n : Nat} {code : BitVec 3} : Keeps w (w.damperRefuse n code) := .onDamper .refl fun _ _ => id

/-- A channel that may start stands in a running mode (R279). -/
theorem running_of_energiseCheck {m : Rid} {mask : BitVec 4} {n : Nat} (h : w.energiseCheck m mask n = none) :
    w.dev.sys.mode.running = true := by
  unfold W.energiseCheck at h
  dsimp only at h
  by_contra off
  rw [Bool.not_eq_true] at off
  split at h
  · cases h
  · simp at h

theorem keeps_startAll {ks : List Nat} (running : w.dev.sys.mode.running = true) :
    Keeps w (w.each ks fun n w => w.upd fun d => d.onDamper n fun c => { c with st := .starting, armOk := false }) := by
  induction ks generalizing w with
  | nil => exact .refl
  | cons n ks ih =>
    refine Keeps.trans (b := w.upd fun d => d.onDamper n fun c => { c with st := .starting, armOk := false }) ?_ (ih running)
    exact .running rfl running

theorem keeps_energise {m : Rid} {h : Nat} {mask : BitVec 4} : Keeps w (w.energise m h mask) := by
  unfold W.energise
  extract_lets ks fails
  split
  · next pass =>
    cases e : ks with
    | nil => exact .refl
    | cons n r =>
      have first : w.energiseCheck m mask n = none := by
        have := List.all_eq_true.mp pass (n, w.energiseCheck m mask n) (List.mem_map.mpr ⟨n, by rw [e]; simp, rfl⟩)
        simpa using this
      exact keeps_startAll (running_of_energiseCheck first)
  · exact (Keeps.refl.each fun _ _ => keeps_damperRefuse).trans keeps_unarm

theorem keeps_deEnergise {h : Nat} {mask : BitVec 4} : Keeps w (w.deEnergise h mask) := by
  refine (Keeps.refl.each fun _ v => .ite (.ite (.onDamper .refl fun _ _ h => ?_) .refl) keeps_safeCh).trans keeps_unarm
  rcases h with h | h <;> dsimp only at h <;> split at h <;> cases h

theorem keeps_armChs {m : Rid} {h : Nat} {mask : BitVec 4} : Keeps w (w.armChs m h mask) := by
  refine keeps_unarm.each fun _ v => .onDamper .refl fun d c => ?_
  split
  · exact fun h => h.elim nofun nofun
  · exact id

theorem keeps_chCmd {m : Rid} {h : Nat} {v : Word32} : Keeps w (w.chCmd m h v) := by
  unfold W.chCmd
  split
  · exact .ite keeps_armChs ((Keeps.refl.each fun _ _ => keeps_damperRefuse).trans keeps_unarm)
  · exact .ite keeps_energise ((Keeps.refl.each fun _ _ => keeps_damperRefuse).trans keeps_unarm)
  · exact keeps_deEnergise
  · exact keeps_unarm

theorem keeps_damperMismatch {n : Nat} {cause : BitVec 2} : Keeps w (w.damperMismatch n cause) :=
  (Keeps.refl.onDamper fun _ _ h => h.elim (fun e => by cases e) fun e => by cases e).trans (.ite keeps_raiseTwo keeps_level)

/-! The events of the Flue. -/

theorem keeps_bellowsCheck {h : Nat} {d0 d1 : Word32} : Keeps w (w.bellowsCheck h d0 d1) :=
  (Keeps.refl.upd.trans keeps_stopOne).trans keeps_level

theorem keeps_ringOne {r : Rec} : Keeps w (w.ringOne r).2 := by
  unfold W.ringOne
  dsimp only
  exact keeps_tryPacket.trans (.ite (.upd .refl) .refl)

theorem keeps_ringGap : Keeps w w.ringGap.2 := .iteSnd keeps_fresh .refl

theorem keeps_fillRing : Keeps w w.fillRing := .ite .refl (.upd (.each .refl fun _ _ => keeps_writeLine))

theorem keeps_spillOne {r : Rec} : Keeps w (w.spillOne r) := by
  unfold W.spillOne
  refine .ite .refl ?_
  extract_lets -underBinder i a
  split
  next e =>
  refine (keeps_fwCheck.snd e).trans (.ite .refl ?_)
  split
  next e =>
  extract_lets -underBinder left
  exact (keeps_fillRing.trans (keeps_dramWrite.snd e)).upd

theorem keeps_moveOne : Keeps w w.moveOne := by
  refine keeps_fwCheck.trans (.ite .refl ?_)
  split
  · next e => exact keeps_deqPacket.snd e
  · next e => exact ((keeps_deqPacket.snd e).trans keeps_spillOne).trans (.ite (.upd .refl) .refl)

theorem keeps_kindleHalt {err step : BitVec 4} : Keeps w (w.kindleHalt err step) := .upd .refl

end Sys2Proof.Proofs
end


section
/-! The channels keep their rule and the fuses their state (R47, R57): lanes, basting, power and the bellows. -/

namespace Sys2Proof.Proofs

open Machine Laws

set_option Elab.async false

variable {w : W}

/-! Lanes, seams and rethreads (R87 to R108). -/

theorem keeps_onLane {u l : Nat} {f : Lane → Lane} : Keeps w (w.onLane u l f) := .upd .refl

theorem keeps_laneTo {u l : Nat} {st : LaneSt} : Keeps w (w.laneTo u l st) := keeps_onLane

theorem keeps_laneTest {u l : Nat} {t : TestFor} : Keeps w (w.laneTest u l t) := keeps_onLane

theorem keeps_basteRec {u target outcome : Nat} {info : Word32} : Keeps w (w.basteRec u target outcome info) :=
  Keeps.refl.upd.trans (.ite (Keeps.refl.upd.trans (.ite keeps_inactive .refl)) .refl)

theorem keeps_basteNowDone {u : Nat} {info : Word32} : Keeps w (w.basteNowDone u info) := keeps_finishAll

theorem keeps_testRecord {u l outcome : Nat} : Keeps w (w.testRecord u l outcome) :=
  keeps_basteRec.trans (.ite (Keeps.refl.upd.trans keeps_basteNowDone) .refl)

theorem keeps_fenceDone {u : Nat} {k : Option Nat} : Keeps w (w.fenceDone u k) := by
  unfold W.fenceDone
  exact (Keeps.refl.each fun _ _ => keeps_finish).upd

theorem keeps_retestDone {u l : Nat} : Keeps w (w.retestDone u l) := .ite .refl keeps_finishAll.upd

theorem keeps_exhaustCheck {u : Nat} : Keeps w (w.exhaustCheck u) := by
  unfold W.exhaustCheck
  split
  · exact .ite (Keeps.refl.upd.trans keeps_raise) .refl
  · exact .refl

theorem keeps_stall {k l i : Nat} {leaves : Option (Nat × LaneSt)} : Keeps w (w.stall k l i leaves) :=
  Keeps.refl.upd.trans keeps_wakeLanes

theorem keeps_rejoin {u k l i : Nat} : Keeps w (w.rejoin u k l i) :=
  keeps_onLane.trans (.ite (.upd .refl) keeps_stall)

theorem keeps_nextRejoin {u : Nat} : Keeps w (w.nextRejoin u) := by
  unfold W.nextRejoin
  split
  · exact .refl
  · exact .ite .refl (Keeps.refl.upd.trans keeps_stall)

theorem keeps_serveDmr {u : Nat} : Keeps w (w.serveDmr u) := by
  refine .ite .refl ?_
  split
  · exact keeps_rejoin
  · exact .refl

theorem keeps_startRetests {u : Nat} : Keeps w (w.startRetests u) :=
  .ite .refl (.each .refl fun _ _ => .ite (Keeps.refl.upd.trans keeps_onLane) .refl)

theorem keeps_repairTest {u l : Nat} : Keeps w (w.repairTest u l) := .ite keeps_laneTest .refl

theorem keeps_restTests {u : Nat} : Keeps w (w.restTests u) :=
  (Keeps.refl.each fun _ _ => .ite .refl ((Keeps.refl.each fun _ _ => keeps_repairTest).trans
    keeps_fenceDone)).trans keeps_repairTest

theorem keeps_settleLanes {u : Nat} : Keeps w (w.settleLanes u) :=
  keeps_nextRejoin.trans keeps_serveDmr |>.trans keeps_restTests |>.trans keeps_exhaustCheck
    |>.trans keeps_startRetests |>.trans keeps_settleRun

theorem keeps_abortSlice {u l : Nat} : Keeps w (w.abortSlice u l) := .ite keeps_onLane.upd .refl

theorem keeps_repair {u k i : Nat} : Keeps w (w.repair u k i) := by
  unfold W.repair
  dsimp only
  split
  · exact keeps_rejoin
  · exact keeps_abortSlice
  · split
    · refine .ite .refl ?_
      split
      · exact keeps_abortSlice
      · exact .refl
    · exact .refl
  · exact .refl

theorem keeps_countFence {u l k slot : Nat} {cause : BitVec 3} {src : Nat} :
    Keeps w (w.countFence u l k slot cause src) :=
  (Keeps.refl.upd.trans keeps_raise).trans (.ite (keeps_laneTo.trans keeps_raise) .refl)

theorem keeps_dropRejoin {u l : Nat} : Keeps w (w.dropRejoin u l) :=
  (Keeps.ite keeps_laneTo (keeps_testRecord.trans keeps_laneTo)).trans keeps_retestDone

theorem keeps_sliceLost {u outcome : Nat} : Keeps w (w.sliceLost u outcome) := by
  unfold W.sliceLost
  split
  · exact .refl
  · exact keeps_basteRec.upd.trans keeps_basteNowDone

theorem keeps_endRethread {u k : Nat} : Keeps w (w.endRethread u k) :=
  (Keeps.refl.upd.trans (.ite keeps_sliceLost .refl)).each fun _ _ => keeps_dropRejoin

theorem keeps_stokerDown : Keeps w w.stokerDown :=
  (keeps_coreReset.upd.upd.upd.trans keeps_sliceLost).each fun _ _ => .ite .refl keeps_laneTest

theorem keeps_haltCore {k : Nat} {cause : BitVec 3} {src : Option Nat} : Keeps w (w.haltCore k cause src) := by
  cases src with
  | none =>
    exact .ite .refl (((keeps_cutFail.upd.trans keeps_endRethread).trans keeps_fenceDone).trans
      (Keeps.ite keeps_stokerDown .refl) |>.trans keeps_settleLanes)
  | some i =>
    exact .ite .refl ((((keeps_cutFail.upd.trans keeps_endRethread).trans keeps_fenceDone).trans
        keeps_level).trans
      (Keeps.ite keeps_stokerDown .refl) |>.trans keeps_settleLanes)

theorem keeps_fence {u l : Nat} {cause : BitVec 3} : Keeps w (w.fence u l cause) := by
  unfold W.fence
  split
  · exact (keeps_countFence.trans keeps_settleLanes).trans keeps_fenceDone
  · exact keeps_countFence.trans (Keeps.refl.upd.trans ((keeps_repair.trans keeps_settleLanes).trans
        (.ite keeps_haltCore .refl)))

theorem keeps_rethreadOk {u k : Nat} {r : Rethread} : Keeps w (w.rethreadOk u k r) := by
  unfold W.rethreadOk
  extract_lets -underBinder w1 w2 w3 w4 waits w5
  have h1 : Keeps w w1 := by
    unfold w1
    split
    · exact .upd .refl
    · exact .trans (.upd .refl fun _ => by dsimp only; split <;> rfl) keeps_onLane
    · exact .refl
  have h2 : Keeps w1 w2 := .upd .refl
  have h3 : Keeps w2 w3 := keeps_laneTo
  have h4 : Keeps w3 w4 := .ite .refl keeps_testRecord
  have h5 : Keeps w4 w5 := by
    unfold w5
    split
    · exact .ite keeps_abortSlice .refl
    · exact .refl
  exact h1.trans h2 |>.trans h3 |>.trans h4 |>.trans h5 |>.trans (keeps_retestDone.trans keeps_settleLanes)

theorem keeps_rethreadFail {k : Nat} {disagree : Bool} : Keeps w (w.rethreadFail k disagree) := by
  unfold W.rethreadFail
  split
  · exact .refl
  · exact Keeps.refl.upd.trans ((Keeps.ite keeps_sliceLost (.ite .refl keeps_testRecord)).trans
        (keeps_countFence.trans ((Keeps.ite keeps_haltCore .refl).trans (keeps_retestDone.trans
        keeps_settleLanes))))

theorem keeps_seamTestFail {k : Nat} {r : Rethread} : Keeps w (w.seamTestFail k r) :=
  Keeps.refl.upd.trans (.ite keeps_sliceLost (.ite (keeps_basteRec.upd.trans keeps_basteNowDone)
    keeps_basteRec)) |>.trans keeps_laneTo |>.trans keeps_retestDone |>.trans keeps_haltCore
    |>.trans keeps_raise

theorem keeps_placeLanes {k : Nat} {seamOk : Bool} : Keeps w (w.placeLanes k seamOk) := by
  unfold W.placeLanes
  extract_lets -underBinder u held homes w1 w2 w3 n w4 v w5 w6 w7
  have h1 : Keeps w w1 := .each .refl fun _ _ => keeps_laneTo.upd
  have h2 : Keeps w1 w2 := .ite keeps_laneTo .refl
  have h3 : Keeps w2 w3 := by
    unfold w3
    split
    · split
      · exact keeps_laneTo.upd
      · exact .refl
    · exact .refl
  have h4 : Keeps w3 w4 := .ite .refl keeps_raise
  have hv : Keeps w4 v := .upd .refl
  have h5 : Keeps w4 w5 :=
    .ite (.upd .refl) (.trans hv (.ite keeps_startCore (.ite keeps_startCore .refl)))
  have h6 : Keeps w5 w6 := keeps_finishAll
  have h7 : Keeps w6 w7 := .each .refl fun _ _ => keeps_retestDone
  exact h1.trans h2 |>.trans h3 |>.trans h4 |>.trans h5 |>.trans h6 |>.trans h7 |>.trans keeps_settleLanes

theorem keeps_restartStep {u l : Nat} {seamOk : Bool} : Keeps w (w.restartStep u l seamOk) :=
  .each .refl fun _ _ => .ite keeps_placeLanes .refl

theorem keeps_testEnd {u l : Nat} {pass seamOk : Bool} : Keeps w (w.testEnd u l pass seamOk) :=
  (Keeps.ite (.upd .refl) .refl).trans (.ite ((keeps_basteRec.trans (.ite keeps_laneTo
    ((keeps_laneTo.trans keeps_raise).trans keeps_retestDone))).trans keeps_restartStep) (.ite
    (keeps_testRecord.trans keeps_onLane |>.trans keeps_raise |>.trans keeps_retestDone
    |>.trans keeps_settleLanes) (keeps_onLane.trans (.ite (keeps_testRecord.trans keeps_laneTo) (.ite
    (keeps_testRecord.trans keeps_laneTo) keeps_rejoin)) |>.trans keeps_retestDone
    |>.trans keeps_settleLanes)))

/-! The vote of a seam and the lane controller (R88 to R97, R115). -/

theorem keeps_verdict {k : Nat} {v : Verdict} {cause : BitVec 3} : Keeps w (w.verdict k v cause) := by
  unfold W.verdict
  split
  · split
    · exact keeps_fence
    · exact .refl
  · exact keeps_haltCore
  · exact .refl

theorem keeps_voteWait {k : Nat} : Keeps w (w.voteWait k) := .ite .refl keeps_fresh.upd

theorem keeps_routerFault {u i : Nat} : Keeps w (w.routerFault u i) :=
  (keeps_level.trans (.ite (.upd .refl) .refl)).trans (.ite keeps_stokerDown .refl)

theorem keeps_linkCheck {a : Nat} : Keeps w (w.linkCheck a) := by
  unfold W.linkCheck
  split
  · exact keeps_routerFault
  · exact .refl

theorem keeps_rethreadEnd {c : Nat} {r : RethreadEnd} {seamOk : Bool} : Keeps w (w.rethreadEnd c r seamOk) := by
  unfold W.rethreadEnd
  split
  · exact .refl
  · split
    · exact .ite keeps_rethreadOk keeps_seamTestFail
    · exact keeps_rethreadFail
    · exact keeps_rethreadFail

theorem keeps_rethreadTimeout {c : Nat} : Keeps w (w.rethreadTimeout c) := by
  unfold W.rethreadTimeout
  split
  · exact .refl
  · exact Keeps.refl.upd.trans keeps_rethreadFail

theorem keeps_retest {u l : Nat} : Keeps w (w.retest u l) := Keeps.refl.upd.trans keeps_startRetests

theorem keeps_laneCmd {h : Nat} {v : Word32} : Keeps w (w.laneCmd h v) :=
  .ite .refl (.ite (.upd .refl) (.ite (.ite (.upd .refl) (Keeps.refl.upd.trans keeps_fence)) (.ite (.ite
    (Keeps.refl.upd.trans keeps_retest) (.upd .refl)) (.upd .refl))))

/-! Basting (R325 to R335). -/

theorem keeps_takeTurn {u : Nat} {t : Turn} : Keeps w (w.takeTurn u t) := by
  unfold W.takeTurn
  split
  · exact .upd .refl
  · exact Keeps.refl.upd.trans keeps_basteRec |>.upd |>.trans (keeps_raise.trans keeps_basteNowDone)
  · exact (Keeps.refl.upd.upd.trans keeps_onLane).trans keeps_stall
  · exact (Keeps.refl.upd.upd fun _ => by dsimp only; split <;> rfl).trans (keeps_laneTest.upd.trans
        keeps_settleRun)

theorem keeps_bellowsTurn {u : Nat} : Keeps w (w.bellowsTurn u) := .ite (.upd .refl) .refl

theorem keeps_turnDue {u : Nat} : Keeps w (w.turnDue u) := .ite .refl keeps_bellowsTurn

theorem keeps_blwResume {u : Nat} : Keeps w (w.blwResume u) := .ite keeps_bellowsTurn.upd .refl

theorem keeps_basteGo {v : Word32} : Keeps w (w.basteGo v) := by
  refine .ite .refl (.ite ?_ (.upd .refl))
  dsimp only
  split
  · exact (keeps_turnDue.trans keeps_blwResume).upd
  · exact (keeps_turnDue.trans keeps_blwResume).trans keeps_takeTurn

theorem keeps_startupTest {h : Nat} {r : StartupResult} : Keeps w (w.startupTest h r) :=
  keeps_clearHob.upd.each (fun _ _ => keeps_basteRec) |>.trans keeps_setReg |>.each (fun _ _ => keeps_raise)
    |>.each (fun _ _ => keeps_raise) |>.trans (.ite .refl keeps_raise)
    |>.trans (.ite .refl (Keeps.refl.upd.trans keeps_raise)) |>.trans keeps_exhaustCheck

/-! Power (R458 to R475). -/

theorem keeps_domRefuse {n : Nat} {id : Rid} {cause : BitVec 3} : Keeps w (w.domRefuse n id cause) :=
  Keeps.refl.upd.trans keeps_raise

theorem keeps_entryRefused {n : Nat} {id : Rid} {cause : BitVec 3} : Keeps w (w.entryRefused n id cause) :=
  .ite .refl (Keeps.refl.upd.trans keeps_domRefuse)

theorem keeps_domainDown {n : Nat} : Keeps w (w.domainDown n) :=
  (Keeps.ite keeps_latchPads .refl).upd fun _ => by dsimp only; split <;> rfl

theorem keeps_vote {m : Rid} {n : Nat} {set : Bool} : Keeps w (w.vote m n set) :=
  .ite .refl (.ite (Keeps.refl.upd.trans keeps_domRefuse) (.upd .refl))

theorem keeps_releasePads {n : Nat} : Keeps w (w.releasePads n) := .each .refl fun _ _ => .upd .refl

theorem keeps_acctClear : Keeps w w.acctClear := .each .refl fun _ _ => .upd .refl

theorem keeps_startLevel {r target : Nat} : Keeps w (w.startLevel r target) := by
  unfold W.startLevel
  split
  · exact .upd .refl
  · exact .ite .refl (.upd .refl)

theorem keeps_targetLevel {r l : Nat} : Keeps w (w.targetLevel r l) := keeps_setReg.trans keeps_startLevel

theorem keeps_endLevel {r l status : Nat} : Keeps w (w.endLevel r l status) :=
  Keeps.refl.upd.trans keeps_finishAll

theorem keeps_levelFailed {r l : Nat} : Keeps w (w.levelFailed r l) :=
  (Keeps.ite .refl keeps_internal).trans keeps_endLevel

theorem keeps_levelCtl : Keeps w w.levelCtl := .each .refl fun _ _ => keeps_startLevel

theorem keeps_avsClear {r : Nat} : Keeps w (w.avsClear r) := Keeps.refl.upd.trans (.ite keeps_inactive .refl)

theorem keeps_readVca : Keeps w w.readVca := by
  unfold W.readVca
  exact keeps_fresh.upd

/-! The bellows (R213, R221, R234). -/

theorem keeps_hobReadParts {m : Rid} {u : Nat} {acc : List Byte} {ps : List (Nat × Nat)} :
    Keeps w (w.hobReadParts m u acc ps).2 := by
  induction ps generalizing w acc with
  | nil => exact .refl
  | cons p ps ih =>
    unfold W.hobReadParts
    split
    · next e => exact (keeps_hobRead.snd e).trans ih
    · exact keeps_hobRead

theorem keeps_hobReadSel {m : Rid} {u a n : Nat} : Keeps w (w.hobReadSel m u a n).2 := keeps_hobReadParts

theorem keeps_blwRead {h off n : Nat} : Keeps w (w.blwRead h off n).2 := by
  refine .iteSnd .refl (keeps_fwCheck.trans (.iteSnd ?_ .refl))
  split <;> next e => exact .pair (keeps_hobRead.snd e)

theorem keeps_blwWrite {h : Nat} {ps : List (Nat × List Byte)} : Keeps w (w.blwWrite h ps).2 := by
  unfold W.blwWrite
  split
  · exact .refl
  · exact .iteSnd .refl (keeps_fwCheck.trans (.iteSnd (.pair keeps_hobWriteParts) .refl))

theorem keeps_blwImage {h k off : Nat} {c : Ctx} : Keeps w (w.blwImage h k off c).2 :=
  .iteSnd .refl (keeps_fwCheck.trans (.iteSnd .refl (keeps_wakeHob.trans keeps_granted
    |>.trans keeps_hobScan |>.trans (.iteSnd .refl .refl))))

theorem keeps_blwImages {h : Nat} {c : Ctx} {xs : List (Nat × Nat)} : Keeps w (w.blwImages h c xs).2 := by
  induction xs generalizing w with
  | nil => exact .refl
  | cons x xs ih =>
    unfold W.blwImages
    split
    · next e => exact keeps_blwImage.snd e
    · next e =>
      refine (keeps_blwImage.snd e).trans ?_
      split <;> next e => exact ih.snd e

theorem keeps_blwReads {h : Nat} {os : List Nat} : Keeps w (w.blwReads h os).2 := by
  induction os generalizing w with
  | nil => exact .refl
  | cons o os ih =>
    unfold W.blwReads
    split
    · next e => exact keeps_blwRead.snd e
    · next e =>
      refine (keeps_blwRead.snd e).trans ?_
      split <;> next e => exact ih.snd e

theorem keeps_blwWrites {h : Nat} {xs : List (List (Nat × List Byte))} : Keeps w (w.blwWrites h xs).2 := by
  induction xs generalizing w with
  | nil => exact .refl
  | cons x xs ih =>
    unfold W.blwWrites
    split
    · next e => exact (keeps_blwWrite.snd e).trans ih
    · exact keeps_blwWrite

theorem keeps_faultWrites {h ctx stat : Nat} {c : Ctx} {safe tail : Bool} :
    Keeps w (w.faultWrites h ctx stat c safe tail) :=
  Keeps.trans (.ite (Keeps.foldl .refl fun _ _ => keeps_blwWrite) .refl) keeps_blwWrite

theorem keeps_selectAll {h : Nat} : Keeps w (w.selectAll h) := .each .refl fun _ _ => keeps_selectGroup

theorem keeps_lastFault {h : Nat} {info : Word32} : Keeps w (w.lastFault h info) :=
  (keeps_setReg.trans keeps_setReg).trans keeps_setReg

theorem keeps_loopFault {h ctx cause : Nat} {c : Ctx} {hdr safe tail retried : Bool} :
    Keeps w (w.loopFault h ctx cause c hdr safe tail retried) :=
  Keeps.ite keeps_faultWrites .refl |>.trans keeps_countReg |>.trans keeps_lastFault |>.upd
    |>.trans (.ite .refl keeps_selectAll) |>.trans keeps_raise |>.trans keeps_interruptHearth

theorem keeps_evaluate {h : Nat} {c : Ctx} {preset safe : Bool} {bad : Nat} :
    Keeps w (w.evaluate h c preset safe bad).2 := by
  unfold W.evaluate
  extract_lets -underBinder inImg outImg offs
  split
  · next e => exact keeps_blwImages.snd e
  · next e =>
    refine (keeps_blwImages.snd e).trans ?_
    split
    extract_lets -underBinder f stale badIn ext k0 first
    refine .iteSnd .refl (.iteSnd .refl ?_)
    split
    · next e => exact keeps_blwReads.snd e
    · next e =>
      refine (keeps_blwReads.snd e).trans ?_
      extract_lets -underBinder k1 more
      split
      · next e => exact keeps_blwReads.snd e
      · next e =>
        refine (keeps_blwReads.snd e).trans (.iteSnd .refl (.iteSnd .refl ?_))
        exact .iteSnd (Keeps.refl.upd.trans keeps_countReg) (Keeps.refl.upd.trans keeps_countReg)

theorem keeps_finishRun {h ctx : Nat} {c : Ctx} {r : KRes} {retried : Bool} :
    Keeps w (w.finishRun h ctx c r retried) := by
  unfold W.finishRun
  extract_lets -underBinder off outs old cf w1 stat sorted exts
  have h1 : Keeps w w1 := .ite keeps_raise .refl
  refine h1.trans (.ite keeps_loopFault (.ite keeps_loopFault ?_))
  split
  · next e => exact (keeps_blwWrites.snd e).trans keeps_loopFault
  · next e => exact (keeps_blwWrites.snd e).upd.trans (.ite keeps_raise .refl)

theorem keeps_runDone {h ctx : Nat} : Keeps w (w.runDone h ctx) := keeps_finishAll.trans keeps_finishAll

theorem keeps_slotFaulted {h ctx : Nat} {h0 h1 t : Option (List Byte)} :
    Keeps w (w.slotFaulted h ctx h0 h1 t) := by
  unfold W.slotFaulted
  split
  · exact keeps_lastFault.trans keeps_selectAll
  · exact keeps_faultWrites

theorem keeps_earlyFault {h ctx cause : Nat} {pws : List Byte} {safe : Bool} :
    Keeps w (w.earlyFault h ctx cause pws safe) :=
  keeps_blwRead.trans keeps_loopFault

theorem keeps_slotRun {h ctx bad : Nat} {resumed : Bool} {hdr : List Byte} {tail : Option (List Byte)} :
    Keeps w (w.slotRun h ctx bad resumed hdr tail) := by
  unfold W.slotRun
  extract_lets -underBinder off
  split
  · next e => exact (keeps_blwRead.snd e).trans keeps_earlyFault
  next e =>
  refine (keeps_blwRead.snd e).trans (.ite keeps_earlyFault ?_)
  split
  · next e => exact (keeps_blwReads.snd e).trans keeps_earlyFault
  next ps u e =>
  refine (keeps_blwReads.snd e).trans ?_
  extract_lets -underBinder body body'
  have tailKept : Keeps u (match tail with
      | some t => (some t, u)
      | none => u.blwRead h (off + 0xC0) 32).2 := by
    split
    · exact .refl
    · exact keeps_blwRead
  split
  next t v e =>
  refine (tailKept.snd e).trans ?_
  split
  · exact keeps_loopFault
  refine .ite keeps_slotFaulted ?_
  split
  · next e => exact (keeps_blwReads.snd e).trans keeps_loopFault
  next e =>
  refine (keeps_blwReads.snd e).trans (.ite keeps_loopFault ?_)
  split
  · next e => exact (keeps_evaluate.snd e).trans keeps_loopFault
  · next e => exact (keeps_evaluate.snd e).trans keeps_finishRun

theorem keeps_paramWindow {h : Nat} : Keeps w (w.paramWindow h) := by
  unfold W.paramWindow
  extract_lets -underBinder ps w1
  have h1 : Keeps w w1 := .upd .refl
  split
  next e =>
  refine (h1.trans (Keeps.of_snd e (.foldlSnd .refl fun x p => ?_))).trans (keeps_finishAll.trans
      keeps_finishAll)
  split
  · next e => exact keeps_blwWrites.snd e
  · next e =>
    refine (keeps_blwWrites.snd e).trans ?_
    extract_lets -underBinder off
    split
    next e0 =>
    split
    next e1 =>
    split
    next e2 =>
    exact .pair <| (keeps_blwRead.snd e0 |>.trans (keeps_blwRead.snd e1)
        |>.trans (keeps_blwRead.snd e2)).trans keeps_loopFault

theorem keeps_slot {h ctx bad : Nat} : Keeps w (w.slot h ctx bad) := by
  unfold W.slot
  extract_lets -underBinder off b extra resumed held w1 w2
  have e1 : Keeps w w2 := Keeps.refl.upd.trans keeps_setReg
  split
  next h0 w3 e2 =>
  refine e1.trans ((keeps_blwRead.snd e2).trans ?_)
  split
  next h1 w4 e3 =>
  extract_lets -underBinder w5
  have e4 : Keeps w3 w4 := Keeps.of_snd e3 (.iteSnd keeps_blwRead .refl)
  have e5 : Keeps w4 w5 := by
    refine .ite ?_ ?_
    · split
      next t v e =>
      refine (Keeps.of_snd e (.iteSnd keeps_blwRead .refl)).trans ?_
      split
      · exact .ite keeps_slotFaulted keeps_slotRun
      · exact keeps_slotFaulted
    · split
      · exact keeps_loopFault
      · exact keeps_earlyFault
      · exact keeps_slotRun
  exact (e4.trans e5).trans keeps_runDone

theorem keeps_imageLate {h c : Nat} : Keeps w (w.imageLate h c) := Keeps.refl.upd.trans keeps_raise

theorem keeps_startOutputs {h : Nat} : Keeps w (w.startOutputs h) := by
  unfold W.startOutputs
  exact .upd .refl

theorem keeps_startSlots {h : Nat} : Keeps w (w.startSlots h) :=
  Keeps.refl.each (fun _ _ => Keeps.refl.upd.trans keeps_imageLate) |>.each (fun _ _ => keeps_imageLate)
    |>.upd |>.trans (.ite keeps_startOutputs .refl)

theorem keeps_slackEnd {h : Nat} : Keeps w (w.slackEnd h) := .ite .refl keeps_setReg

theorem keeps_overrun {h : Nat} : Keeps w (w.overrun h) :=
  .ite (Keeps.refl.upd.trans keeps_setReg |>.trans keeps_cutFail |>.trans keeps_raise) .refl

theorem keeps_segment {h : Nat} {idle : Bool} : Keeps w (w.segment h idle) := by
  unfold W.segment
  split
  · exact .refl
  · exact .ite (.upd .refl) (.upd .refl)

theorem keeps_frameStart {h f : Nat} : Keeps w (w.frameStart h f) :=
  .ite (keeps_overrun.trans keeps_slackEnd |>.trans keeps_takeBank |>.upd |>.trans keeps_segment
    |>.trans (.ite .refl keeps_paramWindow) |>.upd |>.trans (.ite keeps_startSlots .refl)) keeps_segment

theorem keeps_blwClear {h : Nat} {late : Bool} : Keeps w (w.blwClear h late) :=
  keeps_setReg.trans keeps_setReg |>.trans keeps_setReg |>.trans (.ite (.upd .refl) .refl)

theorem keeps_blwInject {h : Nat} {v : Word32} : Keeps w (w.blwInject h v) := .ite .refl (.upd .refl)

theorem keeps_ctxResume {h : Nat} {v : Word32} : Keeps w (w.ctxResume h v) := .ite (.upd .refl) .refl

/-! Contexts and schedules (R216, R224). -/

theorem keeps_markStandby {r level : Nat} : Keeps w (w.markStandby r level) :=
  .each .refl fun _ _ => .ite .refl (.upd .refl)

/-! The time base (R248 to R252). -/

theorem keeps_stepTb {off : Word64} : Keeps w (w.stepTb off) := Keeps.refl.upd.trans keeps_raise

theorem keeps_step {off : Word64} : Keeps w (w.step off) := by
  unfold W.step
  exact keeps_stepTb.trans (.ite .refl (.upd .refl))

theorem keeps_stepGo {v : Word32} : Keeps w (w.stepGo v) := .ite keeps_step .refl

theorem keeps_sync {off : Int} {limit : Nat} : Keeps w (w.sync off limit) :=
  Keeps.ite (Keeps.refl.upd.trans keeps_inactive) .refl |>.upd
    |>.trans (.ite (Keeps.refl.upd.trans keeps_step) (keeps_fresh.trans keeps_setReg))

theorem keeps_holdover : Keeps w w.holdover := .ite .refl (Keeps.refl.upd.trans keeps_level)

theorem optKeeps_writeTime {o : Nat} {v : Word32} : OptKeeps w (w.writeTime o v) :=
  .ite (.some keeps_setReg) (.ite (.some keeps_stepGo) (.ite (.ite (.some (.ite .refl keeps_setReg)) (.ite
    (.some keeps_setReg) (.some keeps_setReg))) .none))

end Sys2Proof.Proofs
end


section
/-! The channels keep their rule and the fuses their state (R47, R57): commits and the command service. -/

namespace Sys2Proof.Proofs

open Machine Laws

set_option Elab.async false

variable {w : W}

/-! Staged registers and their commits (R35 to R38). -/

theorem keeps_applied {snap : Tbl Word32} : Keeps w (w.applied snap) := .upd .refl

theorem keeps_committed {w old : W} {typ inst : Nat} : Keeps w (w.committed old typ inst) := by
  unfold W.committed
  split
  · exact Keeps.refl.upd.trans ((Keeps.ite keeps_inactive .refl).trans (Keeps.refl.upd.trans keeps_errAuto))
  · exact keeps_levelCtl
  · exact .ite .refl (keeps_when fun _ => keeps_inactive).upd
  · refine Keeps.trans (Keeps.each (Keeps.each .refl fun _ _ => ?_) fun _ _ => .ite keeps_forceCh .refl) keeps_releaseChs
    exact .ite .refl (.onDamper .refl fun _ _ => id)
  · exact .upd .refl
  · exact Keeps.refl.upd.trans keeps_poolCheck
  · exact .ite keeps_takeBank .refl
  · exact .refl

theorem keeps_commitPoint {typ inst : Nat} : Keeps w (w.commitPoint typ inst) := by
  refine .ite .refl ?_
  split
  · exact keeps_applied.upd.trans keeps_committed
  · exact .upd .refl

theorem keeps_commitGo {typ inst : Nat} : Keeps w (w.commitGo typ inst) := .ite .refl (.upd .refl)

theorem keeps_stageDiscard {typ inst : Nat} : Keeps w (w.stageDiscard typ inst) := .ite .refl (.upd .refl)

theorem keeps_commitWrite {m : Rid} {typ inst : Nat} {v : Word32} : Keeps w (w.commitWrite m typ inst v) :=
  .ite .refl (keeps_commitGo.trans (.ite (.upd .refl) .refl))

theorem keeps_blockWrite {m : Rid} {b : BlockId} {o : Nat} {v : Word32} {act : W → W}
    (hact : ∀ (v : W), Keeps v (act v)) :
    Keeps w (w.blockWrite m b o v act) :=
  .ite (keeps_writeRow fun _ => hact _) .refl

/-! The command service (R63 to R75). -/

theorem resKeeps_fail {status : Nat} : ResKeeps w (w.fail status) := .fin .refl

theorem resKeeps_ok {result : List Byte} : ResKeeps w (w.ok result) := .fin .refl

theorem resKeeps_need {b : Bool} {status : Nat} {k : Res} (hk : ResKeeps w k) : ResKeeps w (w.need b status k) :=
  .ite hk resKeeps_fail

theorem keeps_abortTxn : Keeps w w.abortTxn := by
  unfold W.abortTxn
  split
  · exact .refl
  · refine (Keeps.refl.each fun _ _ => ?_).trans (.upd .refl)
    split
    · exact keeps_stageDiscard
    · exact .refl

theorem keeps_abortTxnOf {src : Nat} : Keeps w (w.abortTxnOf src) := by
  unfold W.abortTxnOf
  split
  · exact .ite keeps_abortTxn .refl
  · exact .refl

theorem keeps_endSession {id : Word32} : Keeps w (w.endSession id) := by
  unfold W.endSession
  exact keeps_abortTxnOf.upd

theorem keeps_endSessions : Keeps w w.endSessions := .each .refl fun _ _ => keeps_endSession

theorem keeps_draw : Keeps w w.draw.2 := keeps_fresh.trans (.pair (.upd .refl))

theorem keeps_cryptoUse {key operand : List Byte} : Keeps w (w.cryptoUse key operand) := .upd .refl

theorem keeps_newNonce : Keeps w w.newNonce := by
  unfold W.newNonce
  exact keeps_draw.upd

theorem keeps_spent {opc : Nat} {p : Packet} : Keeps w (w.spent opc p) := .ite keeps_newNonce .refl

/-- What a command's own meaning may do: a relation that `Keeps` before and after it leaves as it is, the operations before it even
keeping the channels, the mode and the fuses. -/
structure Around (R : W → W → Prop) : Prop where
  of_keeps : ∀ {a b : W}, Keeps a b → R a b
  left : ∀ {a b c : W}, SameCh a b → R b c → R a c
  right : ∀ {a b c : W}, R a b → Keeps b c → R a c

theorem Around.ite {R : W → W → Prop} (_ : Around R) {a b c : W} {p : Prop} [Decidable p] (h : R a b) (k : R a c) :
    R a (if p then b else c) := by split <;> assumption

theorem around_keeps : Around Keeps := ⟨id, fun h => (Keeps.same h).trans, Keeps.trans⟩

/-- A command that ends in `r` has done what `R` allows, and the work that it leaves goes on as `Keeps` says. -/
def ResAround (R : W → W → Prop) (w : W) : Res → Prop
  | .fin v _ _ => R w v
  | .pend v _ go => R w v ∧ ∀ u, Keeps u (go u)

theorem ResKeeps.around {R : W → W → Prop} (hR : Around R) {w : W} {r : Res} (h : ResKeeps w r) : ResAround R w r := by
  cases r with
  | fin v n l => exact hR.of_keeps h
  | pend v n go => exact ⟨hR.of_keeps h.1, h.2⟩

theorem resKeeps_of_around {w : W} {r : Res} (h : ResAround Keeps w r) : ResKeeps w r := by
  cases r with
  | fin v n l => exact h
  | pend v n go => exact h

/-- The meaning `body` of a command that is listed as `i` and that the mode allows (R68 step 9) does what `R` allows. -/
def BodyAround (R : W → W → Prop) (i : CmdInfo) (body : Body) : Prop :=
  ∀ (x : Packet) (v : W), v.modeOk i = true → ResAround R v (body x v)

theorem resAround_execute {R : W → W → Prop} (hR : Around R) {i : CmdInfo} {p : Packet} {body : Body}
    (hbody : BodyAround R i body) : ResAround R w (w.execute i p body) := by
  unfold W.execute
  split
  · next ok => exact hbody p w ok
  · exact (keeps_spent.res resKeeps_fail).around hR

theorem keeps_addPend {p : Packet} {opc : Half} {running : Bool} {key : Nat} :
    Keeps w (w.addPend p opc running key) :=
  .upd .refl

theorem around_startNow {R : W → W → Prop} (hR : Around R) {i : CmdInfo} {opc : Half} {p : Packet} {body : Body}
    (hbody : BodyAround R i body) : R w (w.startNow i opc p body) := by
  have h : ResAround R w (w.execute i p body) := resAround_execute hR hbody
  unfold W.startNow
  split
  · next e => rw [e] at h; exact hR.right h keeps_reply
  · next e =>
    rw [e] at h
    split
    · exact hR.of_keeps keeps_reply
    · exact hR.right h.1 (keeps_reply.trans keeps_addPend |>.trans (h.2 _))

theorem keeps_sessionLimit {p : Packet} : Keeps w (w.sessionLimit p) := by
  unfold W.sessionLimit
  split
  · exact .ite keeps_endSession .refl
  · exact .refl

theorem around_startPend {R : W → W → Prop} (hR : Around R) {i : CmdInfo} {q : Pend} {body : Body}
    (hbody : BodyAround R i body) : R w (w.startPend i q body) := by
  have h : ResAround R w (w.execute i q.pkt body) := resAround_execute hR hbody
  unfold W.startPend
  split
  · next e => rw [e] at h; exact hR.right h (keeps_finish.trans keeps_sessionLimit)
  · next e => rw [e] at h; exact hR.right h.1 (keeps_setRunning.trans (h.2 _))

/-- The meaning `body` of opcode `opc` does what `R` allows wherever the opcode is listed. -/
def OpcAround (R : W → W → Prop) (opc : Nat) (body : Body) : Prop :=
  ∀ (v : W) (i : CmdInfo), v.cmdInfo opc = some i → BodyAround R i body

theorem OpcAround.of_keeps {R : W → W → Prop} (hR : Around R) {opc : Nat} {body : Body}
    (h : ∀ (x : Packet) (v : W), ResKeeps v (body x v)) : OpcAround R opc body :=
  fun _ _ _ x v _ => (h x v).around hR

theorem around_serve {R : W → W → Prop} (hR : Around R) {objs : Nat → Packet → List Obj} {opc : Half} {p : Packet} {body : Body}
    (hbody : OpcAround R opc.toNat body) : R w (w.serve objs opc p body) := by
  unfold W.serve
  split
  · exact hR.of_keeps keeps_reply
  · next i e =>
    dsimp only
    split
    · exact hR.of_keeps (keeps_spent.trans keeps_reply)
    · split
      · exact hR.of_keeps (.ite (keeps_spent.trans keeps_reply) (keeps_reply.trans keeps_addPend))
      · exact around_startNow hR (hbody w i e)

theorem keeps_sendOn {opc : Half} {p : Packet} {told stale : Bool} : Keeps w (w.sendOn opc p told stale) :=
  .upd .refl

theorem keeps_forward {opc : Half} {p : Packet} : Keeps w (w.forward opc p) :=
  .ite (.ite keeps_reply (keeps_reply.trans keeps_addPend)) (.ite keeps_sendOn keeps_reply)

theorem keeps_forwardPend {q : Pend} : Keeps w (w.forwardPend q) :=
  .ite (keeps_dropPend.trans keeps_sendOn) keeps_finish

theorem around_route {R : W → W → Prop} (hR : Around R) {objs : Nat → Packet → List Obj} {opc : Half} {p : Packet} {body : Body}
    (hbody : OpcAround R opc.toNat body) : R w (w.route objs opc p body) := by
  unfold W.route
  split
  · exact around_serve hR hbody
  · exact hR.of_keeps (.ite keeps_forward keeps_reply)

theorem keeps_turnAway {opc : Half} {p : Packet} {status : Nat} {result : List Byte} {tag : Bool} :
    Keeps w (w.turnAway opc p status result tag) :=
  keeps_deliver

theorem sameCh_accept {p : Packet} : SameCh w (w.accept p) := .upd _ _ (by dsimp only; split <;> rfl)

theorem around_sequence {R : W → W → Prop} (hR : Around R) {objs : Nat → Packet → List Obj} {opc : Half} {p : Packet} {body : Body}
    (hbody : OpcAround R opc.toNat body) : R w (w.sequence objs opc p body) := by
  unfold W.sequence
  dsimp only
  split
  · exact hR.left sameCh_accept (around_route hR hbody)
  · split
    · exact hR.right (hR.left sameCh_accept (around_route hR hbody)) keeps_sessionLimit
    · exact hR.of_keeps (.ite keeps_deliver keeps_turnAway)

theorem sameCh_abortTxnOf {src : Nat} : SameCh w (w.abortTxnOf src) := by
  have discard : ∀ v : W, SameCh v v.abortTxn := fun v => by
    unfold W.abortTxn
    split
    · exact .refl v
    · refine (SameCh.each _ _ (fun _ u => ?_) v).trans (.upd _ _ rfl)
      split
      · exact .ite _ (.refl u) (.upd _ _ rfl)
      · exact .refl u
  unfold W.abortTxnOf
  split
  · exact .ite _ (discard w) (.refl w)
  · exact .refl w

theorem sameCh_ringReset : SameCh w w.ringReset := by
  unfold W.ringReset
  exact sameCh_abortTxnOf.trans (.upd _ _ rfl)

theorem sameCh_ringDue : SameCh w w.ringDue := .ite _ sameCh_ringReset (.refl w)

theorem sameCh_consume {p : Packet} {opc : Half} : SameCh w (w.consume p opc) :=
  .upd _ _ (by dsimp only; split <;> rfl)

/-- A packet that arrives does what `R` allows, where the meaning of its opcode does (R68). -/
theorem around_take {R : W → W → Prop} (hR : Around R) {objs : Nat → Packet → List Obj} {opc : Half} {p : Packet} {body : Body}
    (hbody : OpcAround R opc.toNat body) : R w (w.take objs opc p body) := by
  unfold W.take
  refine hR.left sameCh_ringDue (hR.ite (hR.of_keeps .refl) (hR.left sameCh_consume (hR.ite (around_route hR hbody) ?_)))
  have away : ∀ {v : W} {status : Nat}, R v (v.turnAway opc p status [] false) := hR.of_keeps keeps_turnAway
  refine hR.ite away (hR.ite away (hR.ite away (hR.ite (around_route hR hbody) (hR.ite ?_ (around_sequence hR hbody)))))
  exact hR.of_keeps (keeps_raise.trans keeps_turnAway)

theorem keeps_take {objs : Nat → Packet → List Obj} {opc : Half} {p : Packet} {body : Body}
    (hbody : ∀ (x : Packet) (v : W), ResKeeps v (body x v)) : Keeps w (w.take objs opc p body) :=
  around_take around_keeps (.of_keeps around_keeps hbody)

theorem keeps_ringDue : Keeps w w.ringDue := .same sameCh_ringDue

/-! Basic-level changes (R84). -/

theorem resKeeps_readHob {h off n : Nat} {k : List Byte → W → Res} (hk : ∀ (x : List Byte) (v : W), ResKeeps v (k x v)) :
    ResKeeps w (w.readHob h off n k) := by
  unfold W.readHob
  split
  · next e => exact (keeps_hobReadSel.snd e).res (hk _ _)
  · next e => exact ((keeps_hobReadSel.snd e).trans keeps_internal).res resKeeps_fail

theorem resKeeps_readExt {h : Nat} {c : Ctx} {k : W → Res} (hk : ∀ (v : W), ResKeeps v (k v)) :
    ResKeeps w (w.readExt h c k) :=
  .ite (resKeeps_readHob fun _ _ => hk _) (hk _)

theorem resKeeps_readCtxs {cs : List (Nat × Nat)} {k : W → Res} (hk : ∀ v, ResKeeps v (k v)) :
    ResKeeps w (w.readCtxs cs k) := by
  induction cs generalizing w with
  | nil => exact hk w
  | cons c cs ih => exact resKeeps_readHob fun _ _ => resKeeps_readExt fun _ => ih

/-! The port pages of the queues (R374 to R385). -/

theorem keeps_settled {r : Machine.Acc × W} : Keeps r.2 (W.settled r).2 := .pair keeps_settle

theorem keeps_portDeq {m : Rid} {q : Nat} {peek : Bool} : Keeps w (w.portDeq m q peek).2 :=
  keeps_grantWaiters.trans keeps_cellRead |>.trans (.pair (.ite .refl keeps_deqWord)) |>.trans keeps_settled

theorem keeps_portStat {q : Nat} : Keeps w (w.portStat q).2 := by
  unfold W.portStat
  exact keeps_grantWaiters.trans (keeps_settled (r := (_, w.grantWaiters)))

theorem keeps_await {x : Waiter} : Keeps w (w.await x).2 := .pair keeps_onBob

theorem keeps_enqueue {m : Rid} {q off : Nat} {ws : List Word32} : Keeps w (w.enqueue m q off ws).2 := by
  refine keeps_grantWaiters.trans (Keeps.trans ?_ keeps_settled)
  refine .iteSnd keeps_await ?_
  split
  · next e => exact .same (sameCh_tryWaiter _ _ _ e)
  · exact keeps_await

theorem keeps_portClose {m : Rid} {q : Nat} {v : Word32} : Keeps w (w.portClose m q v).2 := keeps_enqueue

theorem keeps_portTry {m : Rid} {q : Nat} : Keeps w (w.portTry m q).2 := by
  refine (keeps_grantWaiters.trans (.iteSnd keeps_misuse ?_)).trans keeps_settled
  split
  · exact .pair keeps_tryRefused
  · exact .pair (keeps_openPkt.trans keeps_poolNote)

theorem keeps_portMisuse {m : Rid} {q o : Nat} : Keeps w (w.portMisuse m q o).2 :=
  keeps_misuse.trans keeps_settled

theorem keeps_portRead {m : Rid} {q o n : Nat} : Keeps w (w.portRead m q o n).2 :=
  .iteSnd keeps_portMisuse (.iteSnd keeps_portDeq (.iteSnd keeps_portDeq (.iteSnd keeps_portStat
    (.iteSnd keeps_portTry keeps_portMisuse))))

theorem keeps_portWrite {m : Rid} {q o : Nat} {bs : List Byte} : Keeps w (w.portWrite m q o bs).2 :=
  .iteSnd keeps_enqueue (.iteSnd keeps_portMisuse (.iteSnd keeps_enqueue (.iteSnd keeps_enqueue
    (.iteSnd keeps_portClose keeps_portMisuse))))

theorem keeps_pageWrite {m : Rid} {q o : Nat} {act : W → W} (hact : ∀ (v : W), Keeps v (act v)) :
    Keeps w (w.pageWrite m q o act) :=
  keeps_fwCheck.trans (.ite (hact _) .refl)

theorem keeps_appendTry {m : Rid} {q : Nat} {vs : List Word32} : Keeps w (w.appendTry m q vs) := by
  induction vs generalizing w with
  | nil => exact .refl
  | cons v vs ih => exact (keeps_pageWrite fun _ => keeps_enqueue).trans ih

theorem keeps_sendPacket {m : Rid} {q : Nat} {ws : List Word32} : Keeps w (w.sendPacket m q ws).2 := by
  refine keeps_fwCheck.trans (.iteSnd .refl ?_)
  split
  · next e => exact .iteSnd (.pair (((keeps_portTry.snd e).trans keeps_appendTry).trans (keeps_pageWrite
      (fun _ => keeps_portClose)))) (.pair (keeps_portTry.snd e))
  · next e => exact .pair (keeps_portTry.snd e)

theorem keeps_respond {m : Rid} {n : Nat} {read : Bool} {r : Machine.Acc} : Keeps w (w.respond m n read r) := by
  unfold W.respond
  split
  · exact keeps_answer
  · exact keeps_answer
  · exact .refl
  · split
    · exact keeps_answer
    · exact (keeps_when fun _ => keeps_writeFailed).trans keeps_answer
    · exact keeps_answer

theorem keeps_guarded {m : Rid} {u a n : Nat} {d : Dir} {act : W → Machine.Acc × W}
    (hact : ∀ (v : W), Keeps v (act v).2) :
    Keeps w (w.guarded m u a n d act) :=
  keeps_powered fun _ => (keeps_fwCheck.trans (.iteSnd (hact _) .refl)).trans keeps_respond

theorem keeps_strike {q : Nat} {ecc : PoolEcc} : Keeps w (w.strike q ecc) := by
  unfold W.strike
  dsimp only
  split
  · exact .refl
  · split
    · exact .refl
    · exact keeps_poolFlip
    · exact keeps_poolFlip
    · exact keeps_poolFlip
    · exact keeps_poolFlip

theorem keeps_poolBytes {m : Rid} {o n : Nat} : Keeps w (w.poolBytes m o n).2 := by
  refine (Keeps.refl.each fun _ _ => keeps_mendByte).each fun _ _ => .ite keeps_queueNote ?_
  split
  · exact keeps_breakQueue
  · exact .refl

theorem keeps_poolAccess {m : Rid} {o n : Nat} {wr : Option (List Byte)} : Keeps w (w.poolAccess m o n wr).2 := by
  unfold W.poolAccess
  split
  · exact .pair keeps_raiseAddr
  · split
    · exact (Keeps.pair keeps_poolBytes).trans keeps_settled
    · exact .iteSnd (.pair keeps_level) (.pair (keeps_poolPut.trans keeps_xlog))

theorem keeps_bobClear {v : Word32} : Keeps w (w.bobClear v) :=
  keeps_when fun _ => (keeps_setReg.trans keeps_setReg).trans keeps_setReg

/-! DRAM requests, scrub and fills (R351 to R366). -/

theorem keeps_passes {u : Nat} {m : Rid} {d : Dir} {as : List Nat} : Keeps w (w.passes u m d as).2 := by
  induction as generalizing w with
  | nil => exact .refl
  | cons a as ih =>
    unfold W.passes
    split
    · next e => exact (keeps_fwCheck.snd e).trans ih
    · exact keeps_fwCheck

theorem keeps_unmapped {a : Nat} {m : Rid} : Keeps w (w.unmapped a m).2 := .pair keeps_raiseAddr

theorem keeps_dramGate {m : Rid} {a n : Nat} {d : Dir} {act : W → Machine.Acc × W}
    (hact : ∀ (v : W), Keeps v (act v).2) :
    Keeps w (w.dramGate m a n d act).2 := by
  refine .iteSnd keeps_unmapped ?_
  split
  · next e => exact (keeps_passes.snd e).trans (hact _)
  · next e => exact .pair (keeps_passes.snd e)

theorem keeps_dramCross {a : Nat} {act : W → Machine.Acc × W} (hact : ∀ (v : W), Keeps v (act v).2) :
    Keeps w (w.dramCross a act).2 :=
  .iteSnd .refl (Keeps.refl.upd.trans (hact _))

theorem keeps_scrubCheck : Keeps w w.scrubCheck := by
  unfold W.scrubCheck
  split <;> exact .ite keeps_inactive .refl

theorem keeps_scrubbedRange {start len : Nat} : Keeps w (w.scrubbedRange start len) :=
  .ite .refl (Keeps.refl.upd.trans keeps_scrubCheck)

theorem keeps_scrubLine {l : Nat} : Keeps w (w.scrubLine l).2 :=
  .iteSnd keeps_fresh (keeps_checkLine.trans (.pair (.ite .refl keeps_storeBlock)))

theorem keeps_scrubLines {s : ScrubSum} {ls : List Nat} : Keeps w (w.scrubLines s ls).2 := by
  induction ls generalizing w s with
  | nil => exact .refl
  | cons l ls ih => exact .iteSnd ih (keeps_scrubLine.trans ih)

theorem keeps_endJob {j : ScrubJob} {dur : Nat} : Keeps w (w.endJob j dur) := .upd .refl

theorem keeps_retireAdd {v : Word32} : Keeps w (w.retireAdd v) := .ite keeps_retire .refl

theorem keeps_memcClear {ch : Nat} {v : Word32} : Keeps w (w.memcClear ch v) :=
  keeps_when fun _ => .upd (keeps_setReg.trans keeps_setReg |>.trans keeps_setReg |>.trans keeps_setReg)

/-! The watchdogs (R307 to R324). -/

theorem keeps_wdtHold {k : Nat} : Keeps w (w.wdtHold k) := .upd .refl

theorem keeps_wdtFreeze {k : Nat} {on : Bool} : Keeps w (w.wdtFreeze k on) :=
  (Keeps.refl.upd.trans keeps_wdtHold).trans keeps_wdtHeld

theorem keeps_suspend {k : Nat} : Keeps w (w.suspend k) := Keeps.refl.upd.trans keeps_wdtHold

theorem keeps_eraseBegin : Keeps w w.eraseBegin :=
  .ite .refl (Keeps.refl.upd.trans keeps_setReg |>.each (fun _ _ => keeps_suspend) |>.trans keeps_wdtHeld)

theorem keeps_suspEnd {upTo : Nat} : Keeps w (w.suspEnd upTo) :=
  (Keeps.refl.each fun _ _ => .ite (Keeps.refl.upd.trans keeps_wdtHold) .refl).trans keeps_wdtHeld

theorem keeps_eraseEnd : Keeps w w.eraseEnd := .ite .refl (Keeps.refl.upd.trans keeps_suspEnd)

theorem keeps_wdtStart {k : Nat} {v : Word64} : Keeps w (w.wdtStart k v) :=
  Keeps.refl.upd.trans (.ite ((keeps_setReg.trans keeps_suspend).trans keeps_wdtHeld) .refl)

theorem keeps_wdtApply {k : Nat} {v : Word64} : Keeps w (w.wdtApply k v) :=
  .ite .refl (.ite (.upd .refl) (.ite keeps_wdtStart (Keeps.refl.upd.trans keeps_raise)))

theorem keeps_expire {k cause token : Nat} : Keeps w (w.expire k cause token) := by
  unfold W.expire
  exact (Keeps.refl.upd.trans keeps_raise).trans keeps_wdtHeld

theorem keeps_wdtKey {k : Nat} {v : Word64} : Keeps w (w.wdtKey k v) :=
  .ite .refl (.ite (.ite keeps_expire (.upd .refl)) (.ite (.ite keeps_expire (.ite keeps_expire (.ite
    (.upd .refl) (.upd .refl)))) keeps_expire))

theorem keeps_wdtCheckin {k : Nat} {v : Word64} : Keeps w (w.wdtCheckin k v) := by
  refine .ite .refl (.ite (.upd .refl) (.ite ?_ (.upd .refl)))
  split
  · exact Keeps.refl.upd.trans keeps_raise
  · exact Keeps.refl.upd.trans keeps_raise
  · exact Keeps.refl.upd.trans keeps_expire
  · exact .upd .refl

theorem keeps_stokerReset : Keeps w w.stokerReset := .ite keeps_coreReset keeps_stokerDown

theorem keeps_unswitch {k : Nat} : Keeps w (w.unswitch k) := .upd .refl

theorem resKeeps_wdtStatus {p : Packet} {w : W} : ResKeeps w (wdtStatus p w) := resKeeps_need resKeeps_ok

/-! The image store and the flash (R441, R443). -/

theorem keeps_areaRead {k o n : Nat} : Keeps w (w.areaRead k o n).2 := by
  rw [W.areaRead]
  dsimp only
  refine .iteSnd .refl ?_
  split <;> next e => exact keeps_readLines.snd e

theorem keeps_areaWrite {k o : Nat} {bs : List Byte} : Keeps w (w.areaWrite k o bs) :=
  .ite .refl keeps_dramWrite

theorem keeps_areaZero {k n : Nat} : Keeps w (w.areaZero k n) :=
  .each .refl fun _ _ => .ite .refl keeps_writeLine

theorem keeps_stageHead : Keeps w w.stageHead.2 := by
  refine .iteSnd .refl (.iteSnd .refl ?_)
  dsimp only
  split <;> next e => exact keeps_areaRead.snd e

theorem keeps_copyHolds {u a n : Nat} {digest : List Byte} : Keeps w (w.copyHolds u a n digest).2 := by
  refine .iteSnd .refl ?_
  split <;> next e => exact .pair (keeps_hobRead.snd e)

theorem keeps_copyTo {k u o : Nat} {s : Section} : Keeps w (w.copyTo k u o s).2 := by
  unfold W.copyTo
  split
  · next e => exact ((keeps_areaRead.snd e).trans keeps_hobWrites).trans keeps_copyHolds
  · next e => exact .pair (keeps_areaRead.snd e)

theorem keeps_copySection {k h : Nat} {s : Section} : Keeps w (w.copySection k h s).2 := keeps_copyTo

theorem keeps_copySections {k h : Nat} {ss : List Machine.Section} : Keeps w (w.copySections k h ss).2 := by
  induction ss generalizing w with
  | nil => exact .refl
  | cons s ss ih => exact keeps_copySection.trans ih

theorem keeps_loadHearth {h : Nat} : Keeps w (w.loadHearth h) :=
  keeps_copySections.trans (.ite (.upd .refl) (Keeps.refl.upd.trans keeps_raise))

theorem keeps_beginJob {j : FlashJob} : Keeps w (w.beginJob j) := by
  unfold W.beginJob
  dsimp only
  split
  · exact (Keeps.ite keeps_eraseBegin .refl).upd
  · exact .ite keeps_eraseBegin .refl

theorem keeps_settleErase : Keeps w w.settleErase := .ite .refl keeps_eraseEnd

theorem keeps_addJob {j : FlashJob} : Keeps w (w.addJob j) := Keeps.refl.upd.trans (.ite keeps_beginJob .refl)

theorem keeps_newJobKey : Keeps w w.newJobKey.2 := .pair (.upd .refl)

theorem keeps_flashFail {j : FlashJob} : Keeps w (w.flashFail j) :=
  (keeps_raise.trans keeps_internal).trans keeps_finishAll

theorem keeps_persistBytes {fromStage : Bool} : Keeps w (w.persistBytes fromStage).2 :=
  .iteSnd keeps_areaRead keeps_areaRead

theorem keeps_persistEnd {j : FlashJob} {fromStage b : Bool} : Keeps w (w.persistEnd j fromStage b) := by
  unfold W.persistEnd
  dsimp only
  split
  · exact (keeps_persistBytes.trans keeps_raise).trans keeps_flashFail
  · exact .ite ((keeps_persistBytes.trans keeps_raise).trans keeps_flashFail) (keeps_persistBytes.upd.trans
        (.ite keeps_flashFail (.ite keeps_addJob keeps_finishAll)))

theorem keeps_jobDone {j : FlashJob} : Keeps w (w.jobDone j) := by
  unfold W.jobDone
  split
  · exact keeps_persistEnd
  · exact .ite (Keeps.refl.upd.trans keeps_addJob) keeps_finishAll
  · exact Keeps.refl.upd.trans keeps_finishAll
  · exact Keeps.refl.upd.trans keeps_finishAll

/-! The memory, hob and protection commands (R185, R206, R363). -/

theorem resKeeps_memPre {p : Packet} {k : Nat → Res} (hk : ∀ (x : Nat), ResKeeps w (k x)) : ResKeeps w (w.memPre p k) :=
  resKeeps_need (hk _)

theorem resKeeps_cmdMemStatus {p : Packet} {w : W} : ResKeeps w (cmdMemStatus p w) := resKeeps_memPre fun _ => resKeeps_ok

theorem resKeeps_cmdMemLogRead {p : Packet} {w : W} : ResKeeps w (cmdMemLogRead p w) := resKeeps_memPre fun _ => resKeeps_ok

theorem resKeeps_scrubEngine {p : Packet} {fill : Option Word32} : ResKeeps w (w.scrubEngine p fill) :=
  resKeeps_need (resKeeps_need (.pend .refl fun _ => .upd .refl))

theorem resKeeps_cmdMemScrub {p : Packet} {w : W} : ResKeeps w (cmdMemScrub p w) := resKeeps_scrubEngine

theorem resKeeps_cmdMemFill {p : Packet} {w : W} : ResKeeps w (cmdMemFill p w) := resKeeps_scrubEngine

theorem resKeeps_cmdMemRetire {p : Packet} {w : W} : ResKeeps w (cmdMemRetire p w) := by
  refine resKeeps_need (resKeeps_need ?_)
  split
  · next e => exact (keeps_retire.snd e).res resKeeps_fail
  · next e => exact ((keeps_retire.snd e).upd).res (keeps_scrubCheck.res resKeeps_ok)

theorem resKeeps_cmdMemRetireList {p : Packet} {w : W} : ResKeeps w (cmdMemRetireList p w) :=
  resKeeps_need (resKeeps_need resKeeps_ok)

theorem resKeeps_memLine {p : Packet} {k : Nat → Res} (hk : ∀ (x : Nat), ResKeeps w (k x)) : ResKeeps w (w.memLine p k) :=
  resKeeps_need (hk _)

theorem resKeeps_cmdMemRepairAdd {p : Packet} {w : W} : ResKeeps w (cmdMemRepairAdd p w) :=
  resKeeps_memLine fun _ => resKeeps_need (keeps_newJobKey.res (.pend .refl fun _ => keeps_addJob))

theorem resKeeps_cmdMemRepairList {p : Packet} {w : W} : ResKeeps w (cmdMemRepairList p w) := resKeeps_ok

theorem resKeeps_cmdMemInject {p : Packet} {w : W} : ResKeeps w (cmdMemInject p w) :=
  resKeeps_memLine fun _ => resKeeps_need (resKeeps_need (.pend .refl fun _ => keeps_setReg.trans keeps_setReg
    |>.trans keeps_setReg |>.trans keeps_setReg))

theorem resKeeps_cmdMemConfig {p : Packet} {w : W} : ResKeeps w (cmdMemConfig p w) :=
  resKeeps_need ((Keeps.refl.upd.trans keeps_scrubCheck).res resKeeps_ok)

theorem resKeeps_cmdHobStatus {p : Packet} {w : W} : ResKeeps w (cmdHobStatus p w) := resKeeps_need resKeeps_ok

theorem resKeeps_cmdHobCountClear {p : Packet} {w : W} : ResKeeps w (cmdHobCountClear p w) :=
  resKeeps_need (keeps_hobCntClear.res resKeeps_ok)

theorem resKeeps_cmdFwStatus {p : Packet} {w : W} : ResKeeps w (cmdFwStatus p w) := resKeeps_need resKeeps_ok

theorem resKeeps_cmdFwViolClear {p : Packet} {w : W} : ResKeeps w (cmdFwViolClear p w) :=
  resKeeps_need ((Keeps.refl.each fun _ _ => keeps_setReg).res resKeeps_ok)

end Sys2Proof.Proofs
end


section
/-! The channels keep their rule and the fuses their state (R47, R57): the chimney and the bodies of the commands. -/

namespace Sys2Proof.Proofs

open Machine Laws

set_option Elab.async false

variable {w : W}

/-! The chimney: links and frames (R478 to R484). -/

theorem keeps_onPort {up : Bool} {f : Port → Port} : Keeps w (w.onPort up f) :=
  .onChim .refl

theorem keeps_chimEvt : Keeps w w.chimEvt := .each .refl fun _ _ => keeps_interrupt

theorem keeps_rewritePattern : Keeps w w.rewritePattern := .upd .refl

theorem keeps_degradedCheck {up : Bool} : Keeps w (w.degradedCheck up) :=
  .ite keeps_level (.ite keeps_inactive .refl)

theorem keeps_retrainDone : Keeps w w.retrainDone := .each .refl fun _ _ => .ite .refl keeps_finish

theorem keeps_remoteError : Keeps w w.remoteError := keeps_answer

theorem keeps_dropRemotes {p : BitVec 3 → Bool} : Keeps w (w.dropRemotes p) :=
  Keeps.refl.upd.trans (.ite (Keeps.refl.onChim.trans keeps_remoteError) .refl)

theorem keeps_linkLost {up : Bool} {st : PortSt} : Keeps w (w.linkLost up st) :=
  keeps_onPort.trans (.ite .refl (.onChim .refl)) |>.trans keeps_dropRemotes |>.trans keeps_retrainDone

theorem keeps_linkRefused {up : Bool} {peer : BitVec 3} : Keeps w (w.linkRefused up peer) :=
  (keeps_onPort.trans keeps_raise).trans keeps_retrainDone

theorem keeps_send {ws : List Word32} : Keeps w (w.send ws) := .upd .refl

theorem keeps_learnMembers {n : BitVec 4} : Keeps w (w.learnMembers n) :=
  .ite .refl ((Keeps.refl.onChim.trans keeps_rewritePattern).trans (.ite keeps_onPort
    (.ite keeps_onPort .refl)))

theorem keeps_baseBack {off : Int} : Keeps w (w.baseBack off) := .ite keeps_inactive .refl

theorem keeps_relayStatus {f : StatusFrame} : Keeps w (w.relayStatus f) := .ite keeps_send.onChim .refl

theorem keeps_dropForwards {n : Nat} : Keeps w (w.dropForwards n) :=
  Keeps.refl.onChim.each fun _ _ => .ite keeps_reply .refl

theorem keeps_retrain {up : Bool} : Keeps w (w.retrain up) := .ite .refl (keeps_linkLost.trans keeps_raise)

theorem keeps_writeRetrain {v : Word32} : Keeps w (w.writeRetrain v) :=
  (keeps_when fun _ => keeps_retrain).trans (keeps_when fun _ => keeps_retrain)

theorem resKeeps_cmdChimneyStatus {p : Packet} {w : W} : ResKeeps w (cmdChimneyStatus p w) := resKeeps_ok

theorem resKeeps_cmdChimneySet {p : Packet} {w : W} : ResKeeps w (cmdChimneySet p w) :=
  resKeeps_need (resKeeps_need (keeps_newJobKey.res (.pend .refl fun _ => keeps_addJob)))

theorem resKeeps_cmdChimneyRetrain {p : Packet} {w : W} : ResKeeps w (cmdChimneyRetrain p w) :=
  resKeeps_need (resKeeps_need (resKeeps_need (.pend .refl fun _ => keeps_writeRetrain.trans keeps_retrainDone)))

/-! Configuration transactions (R78, R79). -/

theorem keeps_setTxn {t : Option Txn} : Keeps w (w.setTxn t) := .upd .refl

theorem resKeeps_cmdConfigBegin {p : Packet} {w : W} : ResKeeps w (cmdConfigBegin p w) := by
  refine resKeeps_need (resKeeps_need ?_)
  split
  · exact .fin .refl
  · exact keeps_setTxn.res resKeeps_ok

theorem resKeeps_ownTxn {p : Packet} {k : Txn → Res} (hk : ∀ (x : Txn), ResKeeps w (k x)) : ResKeeps w (w.ownTxn p k) := by
  unfold W.ownTxn
  split
  · exact resKeeps_fail
  · exact .ite (hk _) resKeeps_fail

theorem resKeeps_cmdConfigWrite {p : Packet} {w : W} : ResKeeps w (cmdConfigWrite p w) := by
  refine resKeeps_ownTxn fun _ => resKeeps_need ((Keeps.refl.each fun _ _ => ?_).res resKeeps_ok)
  split
  · exact keeps_setStaged
  · exact .refl

theorem keeps_restoreBlock {t : Txn} {b : Nat} : Keeps w (w.restoreBlock t b) :=
  Keeps.refl.each (fun _ _ => keeps_setStaged) |>.trans keeps_commitGo |>.trans keeps_commitPoint

theorem keeps_txnStep : Keeps w w.txnStep.2 := by
  unfold W.txnStep
  split
  · exact .refl
  · exact .iteSnd .refl (.iteSnd (Keeps.refl.each (fun _ _ => keeps_restoreBlock) |>.trans keeps_setTxn
        |>.trans (.iteSnd .refl (.pair (keeps_setTxn.trans keeps_internal)))) (.iteSnd
        (.pair keeps_setTxn) .refl))

theorem keeps_markLevels {t : Txn} : Keeps w (w.markLevels t) :=
  .ite .refl (.each .refl fun _ _ => .ite keeps_markStandby .refl)

theorem resKeeps_cmdConfigCommit {p : Packet} {w : W} : ResKeeps w (cmdConfigCommit p w) := by
  refine resKeeps_ownTxn fun t => resKeeps_readCtxs fun v => ?_
  split
  · exact .fin .refl
  · dsimp only
    split
    · next e => exact .fin ((((keeps_markLevels.trans keeps_setTxn).each fun _ _ => keeps_commitGo).each
        fun _ _ => keeps_commitPoint).trans keeps_txnStep |>.snd e)
    · next e => exact .pend ((((keeps_markLevels.trans keeps_setTxn).each fun _ _ => keeps_commitGo).each
        fun _ _ => keeps_commitPoint).trans keeps_txnStep |>.snd e) fun _ => .refl

theorem resKeeps_cmdConfigAbort {p : Packet} {w : W} : ResKeeps w (cmdConfigAbort p w) :=
  resKeeps_ownTxn fun _ => keeps_abortTxn.res resKeeps_ok

theorem keeps_txnSettle : Keeps w w.txnSettle := by
  unfold W.txnSettle
  split
  · next e => exact (keeps_txnStep.snd e).trans keeps_finishAll
  · next e => exact keeps_txnStep.snd e

/-! The image commands and the cutover (R442 to R456). -/

theorem keeps_onImg {f : Images → Images} : Keeps w (w.onImg f) := .upd .refl

theorem resKeeps_cmdImageStatus {p : Packet} {w : W} : ResKeeps w (cmdImageStatus p w) := keeps_stageHead.res resKeeps_ok

theorem resKeeps_cmdStageBegin {p : Packet} {w : W} : ResKeeps w (cmdStageBegin p w) :=
  resKeeps_need (resKeeps_need (resKeeps_need (keeps_onImg.res (keeps_areaZero.res resKeeps_ok))))

theorem resKeeps_cmdStageChunk {p : Packet} {w : W} : ResKeeps w (cmdStageChunk p w) :=
  resKeeps_need (resKeeps_need (resKeeps_need (keeps_areaWrite.res (keeps_onImg.res resKeeps_ok))))

theorem resKeeps_cmdImageVerify {p : Packet} {w : W} : ResKeeps w (cmdImageVerify p w) :=
  resKeeps_need (resKeeps_need (resKeeps_need (.pend keeps_onImg fun _ => .refl)))

theorem resKeeps_cmdImageDiscard {p : Packet} {w : W} : ResKeeps w (cmdImageDiscard p w) :=
  resKeeps_need (resKeeps_need (resKeeps_need (keeps_onImg.res resKeeps_ok)))

theorem resKeeps_cmdImagePersist {p : Packet} {w : W} : ResKeeps w (cmdImagePersist p w) :=
  resKeeps_need (resKeeps_need (keeps_newJobKey.res (.pend keeps_addJob fun _ => .refl)))

theorem resKeeps_cmdCutover {p : Packet} {w : W} : ResKeeps w (cmdCutover p w) :=
  resKeeps_need (resKeeps_need (resKeeps_need (resKeeps_need (resKeeps_need (keeps_onImg.res (.pend
    (.each .refl fun _ _ => .upd .refl) fun _ => .refl))))))

theorem resKeeps_cmdCutoverStatus {p : Packet} {w : W} : ResKeeps w (cmdCutoverStatus p w) := resKeeps_ok

theorem keeps_copyNew {hs : List Nat} : Keeps w (w.copyNew hs).2 := by
  induction hs generalizing w with
  | nil => exact .refl
  | cons h hs ih => exact keeps_copySections.trans ih

theorem keeps_cutPass {m : Rid} {h : Nat} {v : Word32} : Keeps w (w.cutPass m h v) := by
  unfold W.cutPass
  dsimp only
  split
  · exact .refl
  · split
    · exact .refl
    · exact .ite (.ite (.upd .refl) (Keeps.refl.upd.trans keeps_cutFail)) .refl

theorem keeps_cutDone {c : Cutover} : Keeps w (w.cutDone c) :=
  keeps_onImg.each (fun _ _ => .upd .refl) |>.trans (keeps_stampMode (runMode_running _)) |>.trans keeps_endCutover

theorem resKeeps_drbg {k : Res} (hk : ResKeeps w k) : ResKeeps w (w.drbg k) := .ite (.fin keeps_internal) hk

theorem resKeeps_cmdAttest {p : Packet} {w : W} : ResKeeps w (cmdAttest p w) :=
  resKeeps_need (resKeeps_drbg (.pend .refl fun _ => .refl))

theorem resKeeps_cmdSessionCfg {p : Packet} {w : W} : ResKeeps w (cmdSessionCfg p w) :=
  resKeeps_need (keeps_onImg.res ((keeps_when fun _ => keeps_endSessions).res resKeeps_ok))

theorem resKeeps_cmdSessionOpen {p : Packet} {w : W} : ResKeeps w (cmdSessionOpen p w) :=
  resKeeps_need (resKeeps_need (resKeeps_drbg (.pend .refl fun _ => .refl)))

theorem keeps_openSession {q : Pend} {key : List Byte} : Keeps w (w.openSession q key) :=
  keeps_cryptoUse.trans keeps_draw |>.upd |>.upd |>.trans keeps_dropPend |>.trans keeps_deliver

theorem keeps_closing {id : Word32} : Keeps w (w.closing id) := keeps_onImg

theorem resKeeps_cmdSessionClose {p : Packet} {w : W} : ResKeeps w (cmdSessionClose p w) :=
  resKeeps_need (.ite (keeps_closing.res resKeeps_ok) (keeps_endSession.res resKeeps_ok))

theorem resKeeps_cmdSessionStatus {p : Packet} {w : W} : ResKeeps w (cmdSessionStatus p w) := resKeeps_ok

/-! The lane commands (R113 to R118). -/

theorem resKeeps_cmdLaneStatus {p : Packet} {w : W} : ResKeeps w (cmdLaneStatus p w) := resKeeps_need resKeeps_ok

theorem resKeeps_cmdLaneFence {p : Packet} {w : W} : ResKeeps w (cmdLaneFence p w) := by
  refine resKeeps_need ?_
  split
  · exact resKeeps_fail
  · exact resKeeps_fail
  · exact resKeeps_need (.pend .refl fun _ => keeps_fence)

theorem resKeeps_cmdLaneRetest {p : Packet} {w : W} : ResKeeps w (cmdLaneRetest p w) :=
  resKeeps_need (.pend .refl fun _ => keeps_retest)

theorem keeps_endReports {h : Nat} : Keeps w (w.endReports h) :=
  .each .refl fun _ _ => .ite keeps_inactive .refl

theorem keeps_startRestart {k : Nat} : Keeps w (w.startRestart k) := by
  unfold W.startRestart
  extract_lets -underBinder u ls w1 w2 w3 w4
  have h1 : Keeps w w1 := keeps_coreReset.upd
  have h2 : Keeps w1 w2 := by
    unfold w2
    split
    · exact keeps_abortSlice.trans keeps_testRecord
    · exact .refl
  have h3 : Keeps w2 w3 := .each .refl fun _ _ => keeps_laneTest
  have h4 : Keeps w3 w4 := .ite keeps_endReports .refl
  exact h1.trans h2 |>.trans h3 |>.trans h4 |>.trans (.ite keeps_placeLanes .refl)

theorem resKeeps_cmdCoreRestart {p : Packet} {w : W} : ResKeeps w (cmdCoreRestart p w) :=
  resKeeps_need (.pend .refl fun _ => keeps_startRestart)

/-- What HEARTH_RESET makes of a lane of the hearth. -/
def laneFenced (h : Nat) (d : Dev) (l : Nat) : Dev :=
  d.onLane (laneKey h l) fun x => { x with st := .fenced, test := .repair, wasFailed := false }

/-- The hearth is no longer loaded, nor are its reactions routed. -/
def hearthUnloaded (d : Dev) (h : Nat) : Dev :=
  { d with images := { d.images with loaded := setBit d.images.loaded h false },
           flue := { d.flue with routed := setBit d.flue.routed h false } }

/-- What HEARTH_RESET makes of the units of the hearth, beside its lanes. -/
def hearthFresh (d : Dev) (h : Nat) : Dev :=
  hearthUnloaded (((((d.onLaneUnit h fun x =>
    { x with cmdState := 0, cmdLane := 0, exhausted := false, cmdFence := none, retestDue := [], waiting := [] }).onBlw h
    fun _ => {}).onHob h fun x => { pendRows := x.pendRows, rowsFree := x.rowsFree, colsFree := x.colsFree }).onBu h
    fun x => { x with cur := none, late := false, segs := none, segsDone := x.segs.getD x.segsDone }).onCutStat h fun _ => {}) h

theorem chs_hearthUnloaded {h : Nat} (d : Dev) : chs (hearthUnloaded d h) = chs d := rfl

theorem chs_onLaneUnit {k : Nat} {f : LaneUnit → LaneUnit} (d : Dev) : chs (d.onLaneUnit k f) = chs d := rfl

theorem chs_onBlw {k : Nat} {f : Bellows → Bellows} (d : Dev) : chs (d.onBlw k f) = chs d := rfl

theorem chs_onHob {k : Nat} {f : Hob → Hob} (d : Dev) : chs (d.onHob k f) = chs d := rfl

theorem chs_onBu {k : Nat} {f : BasteUnit → BasteUnit} (d : Dev) : chs (d.onBu k f) = chs d := rfl

theorem chs_onCutStat {k : Nat} {f : CutStat → CutStat} (d : Dev) : chs (d.onCutStat k f) = chs d := rfl

theorem chs_hearthFresh {h : Nat} (d : Dev) : chs (hearthFresh d h) = chs d := by
  rw [hearthFresh, chs_hearthUnloaded, chs_onCutStat, chs_onBu, chs_onHob, chs_onBlw, chs_onLaneUnit]

theorem keeps_resetHearth {h : Nat} : Keeps w (w.resetHearth h) := by
  unfold W.resetHearth
  extract_lets -underBinder w1 w2 w3
  have stopped : Keeps w w1 := keeps_stopOne.trans keeps_dropRequesters
  have cores : Keeps w1 (w1.each (coresOf h) fun k w => (w.clearCore k).upd fun d => d.onSeam k fun _ => {}) :=
    Keeps.refl.each fun _ _ => keeps_clearCore.upd
  have regs : Keeps w1 w2 := cores.trans keeps_resetHearthRegs
  have lanes : Keeps w2 w3 := by
    refine Keeps.refl.upd fun d => ?_
    have all := chs_foldl (laneFenced h) (fun _ _ => rfl) (List.range 13) d
    change chs (hearthFresh ((List.range 13).foldl (laneFenced h) d) h) = chs d
    exact (chs_hearthFresh _).trans all
  refine stopped.trans (regs.trans (lanes.trans ?_))
  exact (Keeps.refl.each fun _ _ => .ite keeps_inactive .refl).trans (keeps_wdtHeld.trans keeps_settleRun)

theorem resKeeps_cmdHearthReset {p : Packet} {w : W} : ResKeeps w (cmdHearthReset p w) :=
  resKeeps_need (resKeeps_need (.pend .refl fun _ => keeps_resetHearth))

theorem resKeeps_cmdBasteStatus {p : Packet} {w : W} : ResKeeps w (cmdBasteStatus p w) := resKeeps_ok

theorem resKeeps_cmdBasteResults {p : Packet} {w : W} : ResKeeps w (cmdBasteResults p w) :=
  resKeeps_need (resKeeps_need resKeeps_ok)

theorem resKeeps_cmdBasteNow {p : Packet} {w : W} : ResKeeps w (cmdBasteNow p w) := by
  refine resKeeps_need ?_
  split
  · exact resKeeps_fail
  · exact .pend .refl fun _ => keeps_bellowsTurn.trans keeps_takeTurn

theorem resKeeps_cmdScanOpen {p : Packet} {w : W} : ResKeeps w (cmdScanOpen p w) :=
  resKeeps_need (resKeeps_need (.pend .refl fun _ => (Keeps.refl.upd.each fun _ _ => keeps_coreReset).trans
    keeps_stopBellows))

theorem keeps_zeroise : Keeps w w.zeroise := by
  unfold W.zeroise
  exact (keeps_endSessions.trans keeps_clearHob).upd

/-! The Thimble's kernel (R409 to R415). -/

theorem keeps_onThm {f : Thimble → Thimble} : Keeps w (w.onThm f) :=
  Keeps.refl.upd.trans (.ite (.each .refl fun _ _ => keeps_interrupt) .refl)

theorem keeps_thmPage : Keeps w w.thmPage := by
  unfold W.thmPage
  exact keeps_onThm

theorem keeps_notice {k d1 : Nat} : Keeps w (w.notice k d1) := .ite keeps_level (.ite keeps_inactive .refl)

theorem keeps_notices : Keeps w w.notices :=
  .ite .refl (keeps_notice.trans keeps_notice |>.trans keeps_notice |>.trans keeps_notice
    |>.trans keeps_notice |>.trans keeps_notice)

theorem keeps_noticeEvent {k d1 : Nat} : Keeps w (w.noticeEvent k d1) := .ite .refl keeps_raise

theorem keeps_publish {result : Byte} {rnum : Word32} : Keeps w (w.publish result rnum) := by
  unfold W.publish
  split
  · exact .refl
  · exact keeps_onThm.trans (.ite keeps_finishAll .refl)

theorem keeps_endRequest : Keeps w w.endRequest := by
  unfold W.endRequest
  split
  · exact keeps_publish
  · exact keeps_publish
  · exact .refl

theorem keeps_endGate : Keeps w w.endGate := keeps_endRequest.trans keeps_endRequest

theorem keeps_pickSlot : Keeps w w.pickSlot := keeps_onThm.trans (.ite keeps_noticeEvent .refl)

theorem keeps_genesis {cause : Nat} : Keeps w (w.genesis cause) := by
  unfold W.genesis
  exact keeps_fresh.trans keeps_onThm

theorem keeps_thmRestart {cause : Nat} {key : Bool} : Keeps w (w.thmRestart cause key) :=
  (keeps_endGate.trans keeps_onThm).trans (.ite ((keeps_onThm.trans keeps_thmPage).trans keeps_notices)
    (keeps_onThm.trans keeps_pickSlot |>.trans keeps_genesis |>.trans keeps_onThm |>.trans keeps_thmPage
    |>.trans keeps_notices))

/-- The fuses `g` are those of `f` but for counters and keys: UID, the ordering code and the life cycle stand, and no
one-way fuse is taken back (R54, R57). -/
def SameLife (f g : Fuse) : Prop :=
  g.uid = f.uid ∧ g.variantM = f.variantM ∧ (f.unreadable = true → g.unreadable = true) ∧
    (f.secretOff = true → g.secretOff = true) ∧ g.lifecycle = f.lifecycle

theorem SameLife.refl (f : Fuse) : SameLife f f := ⟨rfl, rfl, id, id, rfl⟩

theorem SameLife.trans {f g h : Fuse} (a : SameLife f g) (b : SameLife g h) : SameLife f h := by
  obtain ⟨uid, var, unr, sec, life⟩ := a
  obtain ⟨uid', var', unr', sec', life'⟩ := b
  exact ⟨uid'.trans uid, var'.trans var, unr' ∘ unr, sec' ∘ sec, life'.trans life⟩

/-- `Keeps`, for an operation that may blow fuses, but none of the life cycle. -/
@[irreducible] def Blows (w w' : W) : Prop := SameLife w.fuse w'.fuse ∧ (DampOk w.dev → DampOk w'.dev)

theorem blows_iff {w w' : W} : Blows w w' ↔ SameLife w.fuse w'.fuse ∧ (DampOk w.dev → DampOk w'.dev) := by rw [Blows]

theorem Keeps.blows {a b : W} (h : Keeps a b) : Blows a b := by
  rw [keeps_iff] at h
  exact blows_iff.mpr ⟨by rw [h.1]; exact .refl _, h.2⟩

theorem Blows.refl {w : W} : Blows w w := Keeps.refl.blows

theorem Blows.trans {a b c : W} (h : Blows a b) (k : Blows b c) : Blows a c := by
  rw [blows_iff] at h k ⊢
  exact ⟨h.1.trans k.1, k.2 ∘ h.2⟩

theorem Blows.keeps {a b c : W} (h : Blows a b) (k : Keeps b c) : Blows a c := h.trans k.blows

theorem Blows.ite {a b c : W} {p : Prop} [Decidable p] (h : Blows a b) (k : Blows a c) :
    Blows a (if p then b else c) := by split <;> assumption

/-- Fuses beside those of the life cycle are blown. -/
theorem blows_fuse {u : Fuse} (h : SameLife w.fuse u) : Blows w { w with fuse := u } := blows_iff.mpr ⟨h, id⟩

theorem blows_auditStep : Blows w w.auditStep := blows_fuse ⟨rfl, rfl, id, id, rfl⟩

theorem keeps_putStore {i : Nat} {c : ThmStore} : Keeps w (w.putStore i c) := .upd .refl

theorem blows_storeParams {version : Half} {params : Tbl Word32} : Blows w (w.storeParams version params) := by
  unfold W.storeParams
  exact keeps_putStore.blows.trans blows_auditStep |>.keeps keeps_putStore |>.keeps keeps_onThm

theorem blows_commitCut {old : ThmStore} : Blows w (w.commitCut old) := by
  unfold W.commitCut
  split
  next n v e =>
  have h : Blows w v := (keeps_fresh.snd e).blows
  have back : Blows v { v with fuse := { v.fuse with audit := old.audit } } := blows_fuse ⟨rfl, rfl, id, id, rfl⟩
  dsimp only
  refine h.trans (.ite .refl (.ite ?_ keeps_putStore.blows))
  generalize ({ v with fuse := { v.fuse with audit := old.audit } } : W) = u at back ⊢
  exact back.keeps (keeps_putStore.trans keeps_putStore)

theorem keeps_gateGo {v : Word32} : Keeps w (w.gateGo v) := .ite keeps_onThm .refl

theorem keeps_gateAnswer {result : Byte} {rnum : Word32} : Keeps w (w.gateAnswer result rnum) :=
  (keeps_onThm.trans keeps_thmPage).trans keeps_notices

/-! The power, Thimble and field commands (R429, R473). -/

theorem resKeeps_cmdPwrStatus {p : Packet} {w : W} : ResKeeps w (cmdPwrStatus p w) := resKeeps_ok

theorem resKeeps_cmdPwrLevel {p : Packet} {w : W} : ResKeeps w (cmdPwrLevel p w) :=
  resKeeps_need (resKeeps_need (resKeeps_readCtxs fun _ => resKeeps_need (.ite resKeeps_ok ((Keeps.ite keeps_markStandby
    .refl).res (.pend .refl fun _ => keeps_targetLevel)))))

theorem resKeeps_domPre {p : Packet} {bits : Nat} {k : Nat → Res} (hk : ∀ (x : Nat), ResKeeps w (k x)) :
    ResKeeps w (w.domPre p bits k) :=
  resKeeps_need (hk _)

theorem resKeeps_cmdPwrVote {p : Packet} {w : W} : ResKeeps w (cmdPwrVote p w) :=
  resKeeps_domPre fun _ => .ite resKeeps_ok (.ite (keeps_vote.res resKeeps_fail) (keeps_vote.res resKeeps_ok))

theorem resKeeps_cmdPadRelease {p : Packet} {w : W} : ResKeeps w (cmdPadRelease p w) :=
  resKeeps_need (resKeeps_need (resKeeps_need (keeps_releasePads.res resKeeps_ok)))

theorem resKeeps_cmdPwrDomainStatus {p : Packet} {w : W} : ResKeeps w (cmdPwrDomainStatus p w) :=
  resKeeps_domPre fun _ => resKeeps_ok

theorem resKeeps_cmdPwrCountClear {p : Packet} {w : W} : ResKeeps w (cmdPwrCountClear p w) :=
  keeps_acctClear.res resKeeps_ok

theorem resKeeps_cmdThmStatus {p : Packet} {w : W} : ResKeeps w (cmdThmStatus p w) := resKeeps_ok

theorem resKeeps_cmdThmGate {p : Packet} {w : W} : ResKeeps w (cmdThmGate p w) :=
  resKeeps_need (resKeeps_need (Keeps.refl.upd.res (.pend .refl fun _ => (keeps_setReg.trans keeps_setReg).trans
    keeps_gateGo)))

theorem resKeeps_cmdThmForward {p : Packet} {w : W} : ResKeeps w (cmdThmForward p w) :=
  resKeeps_need (.ite (Keeps.refl.upd.res resKeeps_ok) (resKeeps_need (Keeps.refl.upd.upd.res resKeeps_ok)))

theorem resKeeps_cmdThmSlotErase {p : Packet} {w : W} : ResKeeps w (cmdThmSlotErase p w) :=
  resKeeps_need (resKeeps_need (keeps_newJobKey.res (.pend .refl fun _ => keeps_addJob)))

theorem resKeeps_cmdThmSlotWrite {p : Packet} {w : W} : ResKeeps w (cmdThmSlotWrite p w) :=
  resKeeps_need (resKeeps_need (resKeeps_need (keeps_newJobKey.res (.pend .refl fun _ => keeps_addJob))))

theorem resKeeps_cmdFioStatus {p : Packet} {w : W} : ResKeeps w (cmdFioStatus p w) := resKeeps_ok

/-! The loop commands (R236 to R243). -/

theorem resKeeps_loopPre {p : Packet} {bits : Nat} {writes : Bool} {k : Res} (hk : ResKeeps w k) :
    ResKeeps w (w.loopPre p bits writes k) :=
  resKeeps_need (resKeeps_need (resKeeps_need (resKeeps_need hk)))

theorem keeps_setOutGroup {h k g : Nat} : Keeps w (w.setOutGroup h k g) := keeps_setReg

theorem keeps_stokerHob {h off : Nat} {bs : List Byte} : Keeps w (w.stokerHob h off bs) := keeps_hobWrites

theorem resKeeps_cmdLoopLoad {p : Packet} {w : W} : ResKeeps w (cmdLoopLoad p w) :=
  resKeeps_loopPre (resKeeps_need (resKeeps_need (resKeeps_readExt fun _ => resKeeps_need (resKeeps_readCtxs fun _ => resKeeps_need
    (keeps_stokerHob.res ((Keeps.refl.each fun _ _ => keeps_stokerHob).res ((Keeps.refl.each fun _ _ =>
    keeps_setOutGroup).res (Keeps.refl.upd.res resKeeps_ok))))))))

theorem keeps_addParams {h ctx : Nat} {cells : List Host.Cell} : Keeps w (w.addParams h ctx cells) :=
  Keeps.refl.upd.trans (.ite keeps_flushParams .refl)

theorem resKeeps_cmdLoopParam {p : Packet} {w : W} : ResKeeps w (cmdLoopParam p w) :=
  resKeeps_loopPre (resKeeps_readHob fun _ _ => resKeeps_need (resKeeps_need (resKeeps_readExt fun _ => resKeeps_need
    (resKeeps_need (.pend .refl fun _ => keeps_addParams)))))

theorem resKeeps_cmdLoopMode {p : Packet} {w : W} : ResKeeps w (cmdLoopMode p w) :=
  resKeeps_loopPre (resKeeps_readHob fun _ _ => resKeeps_need (.pend .refl fun _ => keeps_addParams))

theorem resKeeps_cmdLoopResume {p : Packet} {w : W} : ResKeeps w (cmdLoopResume p w) :=
  resKeeps_loopPre (resKeeps_need (.pend .refl fun _ => keeps_ctxResume))

theorem resKeeps_cmdLoopStatus {p : Packet} {w : W} : ResKeeps w (cmdLoopStatus p w) :=
  resKeeps_loopPre (resKeeps_readHob fun _ _ => resKeeps_readHob fun _ _ => resKeeps_ok)

theorem resKeeps_cmdLoopImageBind {p : Packet} {w : W} : ResKeeps w (cmdLoopImageBind p w) :=
  resKeeps_loopPre (resKeeps_need (resKeeps_need (resKeeps_need (resKeeps_need (resKeeps_need (resKeeps_readCtxs fun _ =>
    resKeeps_need (resKeeps_need (resKeeps_need ((Keeps.refl.each fun _ _ => keeps_setStaged).res
    ((keeps_commitGo.trans keeps_commitPoint).res resKeeps_ok))))))))))

theorem resKeeps_cmdLoopExtWrite {p : Packet} {w : W} : ResKeeps w (cmdLoopExtWrite p w) :=
  resKeeps_loopPre (resKeeps_need (resKeeps_readCtxs fun _ => resKeeps_need (keeps_stokerHob.res resKeeps_ok)))

theorem resKeeps_cmdBellowsStatus {p : Packet} {w : W} : ResKeeps w (cmdBellowsStatus p w) := resKeeps_loopPre resKeeps_ok

theorem resKeeps_cmdBellowsCountClear {p : Packet} {w : W} : ResKeeps w (cmdBellowsCountClear p w) :=
  resKeeps_loopPre (keeps_blwClear.res resKeeps_ok)

theorem resKeeps_cmdLoopInject {p : Packet} {w : W} : ResKeeps w (cmdLoopInject p w) :=
  resKeeps_need (resKeeps_loopPre (resKeeps_need (.pend .refl fun _ => keeps_blwInject)))

/-! The schedule and time commands (R262 to R265). -/

theorem resKeeps_schedPre {p : Packet} {k : Nat → Res} (hk : ∀ (x : Nat), ResKeeps w (k x)) : ResKeeps w (w.schedPre p k) :=
  resKeeps_need (resKeeps_need (hk _))

theorem keeps_putPlan {h : Nat} {b : Bool} {q : Plan} : Keeps w (w.putPlan h b q) := by
  unfold W.putPlan
  exact keeps_setReg.trans keeps_setReg |>.trans keeps_setReg |>.each (fun _ _ => keeps_setReg) |>.upd

theorem resKeeps_cmdSchedLoad {p : Packet} {w : W} : ResKeeps w (cmdSchedLoad p w) :=
  resKeeps_schedPre fun _ => resKeeps_need (resKeeps_readCtxs fun _ => resKeeps_need (resKeeps_need (.ite
    (keeps_putPlan.res resKeeps_ok) (.fin .refl))))

theorem resKeeps_cmdSchedSwap {p : Packet} {w : W} : ResKeeps w (cmdSchedSwap p w) :=
  resKeeps_schedPre fun _ => resKeeps_need (resKeeps_readCtxs fun _ => resKeeps_need (.ite ((keeps_setReg.upd.trans
    keeps_takeBank).res resKeeps_ok) (.pend .refl fun _ => keeps_setReg.upd)))

theorem resKeeps_cmdSchedStatus {p : Packet} {w : W} : ResKeeps w (cmdSchedStatus p w) :=
  resKeeps_schedPre fun _ => resKeeps_readCtxs fun _ => resKeeps_ok

theorem resKeeps_cmdSchedCheck {p : Packet} {w : W} : ResKeeps w (cmdSchedCheck p w) :=
  resKeeps_schedPre fun _ => resKeeps_need (resKeeps_readCtxs fun _ => resKeeps_ok)

theorem resKeeps_cmdTimeStatus {p : Packet} {w : W} : ResKeeps w (cmdTimeStatus p w) := resKeeps_ok

theorem resKeeps_cmdTimeStep {p : Packet} {w : W} : ResKeeps w (cmdTimeStep p w) :=
  resKeeps_need (resKeeps_need (resKeeps_need (.ite resKeeps_ok (keeps_step.res resKeeps_ok))))

end Sys2Proof.Proofs
end


section
/-! The channels keep their rule and the fuses their state (R47, R57): the bus, the ports and the rows of the blocks. -/

namespace Sys2Proof.Proofs

open Machine Laws

set_option Elab.async false

variable {w : W}

/-! A write of a control register (R30, R31, R36). -/

theorem optKeeps_hobAction {u o : Nat} {v : Word32} : OptKeeps w (w.hobAction u o v) :=
  .ite (.some (.ite (.upd .refl) .refl)) (.ite (.some (.ite keeps_hobCntClear .refl)) (.ite
    (.some keeps_hobInject) .none))

theorem optKeeps_hearthAction {m : Rid} {h o : Nat} {v : Word32} : OptKeeps w (w.hearthAction m h o v) :=
  .ite (.some keeps_laneCmd) (.ite (.some (.upd .refl)) (.ite (.some keeps_blwInject) (.ite
    (.some keeps_ctxResume) (.ite (.some (.ite keeps_blwClear .refl)) (.ite (.some keeps_cutPass)
    optKeeps_hobAction)))))

theorem optKeeps_action {m : Rid} {typ inst o : Nat} {v : Word32} : OptKeeps w (w.action m typ inst o v) := by
  unfold W.action
  split
  · exact optKeeps_hobAction
  · exact .ite (.some keeps_vote) (.ite (.some keeps_releasePads) (.ite (.some (.ite keeps_acctClear .refl))
        .none))
  · exact optKeeps_writeTime
  · exact .ite (.some keeps_chCmd) .none
  · exact .ite (.some keeps_bobClear) .none
  · exact .ite (.some keeps_memcClear) (.ite (.some keeps_retireAdd) .none)
  · exact .ite (.some (.ite keeps_setReg .refl)) .none
  · exact .ite (.some keeps_writeRetrain) .none
  · exact .ite (.some keeps_basteGo) .none
  · exact optKeeps_hearthAction
  · exact .ite (.some keeps_gateGo) .none
  · exact .none

theorem keeps_regWrite {m : Rid} {typ inst o : Nat} {v : Word32} : Keeps w (w.regWrite m typ inst o v) := by
  refine .ite .refl (.ite keeps_commitWrite (.ite (.ite keeps_stageDiscard .refl) ?_))
  split
  · next e => exact optKeeps_action _ e
  · split
    · split
      · exact keeps_setStaged
      · exact .ite .refl keeps_setReg
      · exact .refl
    · exact .refl

theorem keeps_regFetch {m : Rid} {typ inst o : Nat} : Keeps w (w.regFetch m typ inst o).2 := by
  unfold W.regFetch
  dsimp only
  split
  · exact .pair (.upd .refl)
  · exact .iteSnd (.pair (.upd .refl)) .refl

/-! A request on the device's bus (R23 to R26). -/

theorem keeps_pageMisuse {m : Rid} {a : Nat} : Keeps w (w.pageMisuse m a) := .ite keeps_portMisuse .refl

theorem keeps_admitLocal {m : Rid} {a n : Nat} {r : Req} : Keeps w (w.admitLocal m a n r).2 :=
  .iteSnd .refl (.iteSnd (.pair keeps_raiseAddr) ((Keeps.iteSnd keeps_fwWrite keeps_passes).trans
    (.iteSnd .refl (.iteSnd (.pair keeps_pageMisuse) .refl))))

theorem keeps_serveReg {m : Rid} {a n typ inst base : Nat} {r : Req} :
    Keeps w (w.serveReg m a n typ inst base r).2 := by
  refine .iteSnd (.pair keeps_raise) ?_
  split
  · exact keeps_mayWrite.trans (.iteSnd (.pair keeps_regWrite) .refl)
  · exact keeps_regFetch.trans .refl

theorem keeps_serveHob {m : Rid} {u a n : Nat} {r : Req} : Keeps w (w.serveHob m u a n r).2 := by
  unfold W.serveHob
  split
  · exact .pair keeps_hobWrites
  · exact keeps_hobAtomic
  · exact .iteSnd keeps_hobRead keeps_hobReadSel

theorem keeps_serveAlias {m : Rid} {a : Nat} {r : Req} : Keeps w (w.serveAlias m a r).2 := by
  unfold W.serveAlias
  dsimp only
  split
  · exact keeps_hobAlias
  · exact .refl

theorem keeps_serveDram {m : Rid} {a n : Nat} {r : Req} : Keeps w (w.serveDram m a n r).2 := by
  refine keeps_dramCross fun _ => ?_
  split
  · exact keeps_dramWrite
  · exact keeps_atomicLine
  · exact keeps_dramRead

theorem keeps_serveLocal {m : Rid} {a n : Nat} {r : Req} : Keeps w (w.serveLocal m a n r).2 := by
  refine keeps_wakeAt.trans (.iteSnd .refl (.iteSnd .refl (.iteSnd .refl ?_)))
  split
  · exact keeps_serveHob
  · refine .iteSnd keeps_serveAlias (.iteSnd keeps_poolAccess (.iteSnd ?_ (.iteSnd .refl ?_)))
    · dsimp only
      split
      · exact keeps_portWrite
      · exact keeps_portRead
    · split
      · exact keeps_serveReg
      · exact keeps_serveDram

theorem keeps_passWalls {m : Rid} {a n : Nat} {r : Req} : Keeps w (w.passWalls m a n r).2 := by
  unfold W.passWalls
  split
  · next e => exact keeps_admitLocal.snd e
  · next e =>
    refine (keeps_admitLocal.snd e).trans ?_
    split
    · exact .refl
    · exact .iteSnd keeps_admitLocal (.iteSnd .refl .refl)

theorem keeps_perform {m : Rid} {a n : Nat} {r : Req} : Keeps w (w.perform m a n r).2 := by
  unfold W.perform
  split
  · exact keeps_serveLocal
  · exact .iteSnd keeps_serveLocal (.pair Keeps.refl.upd.onChim)

theorem keeps_access {m : Rid} {a n : Nat} {r : Req} : Keeps w (w.access m a n r).2 := by
  unfold W.access
  split
  · next e => exact .pair (keeps_passWalls.snd e)
  · next e => exact (keeps_passWalls.snd e).trans keeps_perform

theorem keeps_readPieces {m : Rid} {acc : List Byte} {ps : List (Nat × Nat)} :
    Keeps w (w.readPieces m acc ps).2 := by
  induction ps generalizing w acc with
  | nil => exact .refl
  | cons p ps ih =>
    unfold W.readPieces
    split
    · next e => exact (keeps_access.snd e).trans ih
    · exact keeps_access

theorem keeps_writePieces {m : Rid} {a : Nat} {bs : List Byte} {last : Machine.Acc} {ps : List (Nat × Nat)} :
    Keeps w (w.writePieces m a bs last ps).2 := by
  induction ps generalizing w last with
  | nil => exact .refl
  | cons p ps ih =>
    unfold W.writePieces
    split <;> next e => exact (keeps_access.snd e).trans ih

theorem keeps_remoteAnswer {r : Machine.Acc × W} : Keeps r.2 (remoteError r).2 := by
  unfold Machine.remoteError
  split <;> exact .refl

/-! The queue commands (R390 to R392). -/

theorem keeps_setQCfg {e : Word32 × QCfg} : Keeps w (w.setQCfg e) := .upd .refl

theorem resKeeps_cmdQueueSet {p : Packet} {w : W} : ResKeeps w (cmdQueueSet p w) :=
  resKeeps_need (resKeeps_need (resKeeps_need (resKeeps_need (Keeps.refl.each (fun _ _ => keeps_setQCfg)
    |>.trans keeps_poolCheck |>.res resKeeps_ok))))

theorem resKeeps_queuePre {p : Packet} {k : Nat → Res} (hk : ∀ (x : Nat), ResKeeps w (k x)) : ResKeeps w (w.queuePre p k) :=
  resKeeps_need (hk _)

theorem resKeeps_cmdQueueStatus {p : Packet} {w : W} : ResKeeps w (cmdQueueStatus p w) :=
  resKeeps_queuePre fun _ => resKeeps_ok

theorem keeps_brokenCheck : Keeps w w.brokenCheck := .ite .refl keeps_inactive

theorem resKeeps_cmdQueueFlush {p : Packet} {w : W} : ResKeeps w (cmdQueueFlush p w) :=
  resKeeps_queuePre fun _ => resKeeps_need (keeps_flushQueue.res (resKeeps_need ((keeps_brokenCheck.trans
    keeps_poolCheck).res resKeeps_ok)))

theorem resKeeps_cmdPoolStatus {p : Packet} {w : W} : ResKeeps w (cmdPoolStatus p w) := resKeeps_ok

theorem resKeeps_cmdQueueBind {p : Packet} {w : W} : ResKeeps w (cmdQueueBind p w) :=
  resKeeps_need (keeps_setReg.res resKeeps_ok)

/-! The commands of the Flue (R287, R296 to R298). -/

theorem resKeeps_cmdFlueStatus {p : Packet} {w : W} : ResKeeps w (cmdFlueStatus p w) := resKeeps_ok

theorem resKeeps_cmdFlueHistoryRead {p : Packet} {w : W} : ResKeeps w (cmdFlueHistoryRead p w) :=
  resKeeps_need (resKeeps_need resKeeps_ok)

theorem keeps_clearWindows : Keeps w w.clearWindows := .upd .refl

theorem resKeeps_cmdLockoutReset {p : Packet} {w : W} : ResKeeps w (cmdLockoutReset p w) :=
  resKeeps_need (Keeps.refl.upd.res (keeps_clearWindows.res ((Keeps.refl.each fun _ _ => keeps_releaseHold).res
    (keeps_setMode.res resKeeps_ok))))

theorem resKeeps_cmdErrpinRelease {p : Packet} {w : W} : ResKeeps w (cmdErrpinRelease p w) :=
  resKeeps_need (.ite resKeeps_ok (resKeeps_need (.ite (keeps_errRelease.res resKeeps_ok) (.pend .refl fun _ => .upd
    .refl))))

theorem resKeeps_cmdFlueRelease {p : Packet} {w : W} : ResKeeps w (cmdFlueRelease p w) :=
  resKeeps_need (resKeeps_need ((Keeps.ite keeps_releaseHold .refl).res ((Keeps.refl.each fun _ _ =>
    keeps_releaseSel).res resKeeps_ok)))

theorem resKeeps_cmdFlueTest {p : Packet} {w : W} : ResKeeps w (cmdFlueTest p w) :=
  resKeeps_need (keeps_raise.res resKeeps_ok)

/-- The step of `spillRead`'s recursion, where `b` reads the records after the first. It is stated of the functional of
the recursion, since the kernel would check the unfolded equation of `spillRead` by evaluating `fwCheck`. -/
theorem sndKeeps_spillReadStep {acc : List Byte} {r : Word32} {rs : List Word32}
    {b : List.below (motive := fun _ => W → List Byte → Option (List Byte) × W) (r :: rs)}
    (ih : ∀ v bs, SndKeeps v (b.1 v bs)) :
    SndKeeps w (W.spillRead._f (r :: rs) b w acc) := by
  delta W.spillRead._f
  refine .congrFun (b := b) (g := ?g) ?eq ?snd
  case eq => conv_lhs => whnf
  case snd =>
    refine .matchBool keeps_fwCheck (fun _ => .of .refl) fun v => ?_
    split
    · next e => exact .of ((keeps_dramRead.snd e).trans (ih _ _).out)
    · next e => exact .of (keeps_dramRead.snd e)

theorem sndKeeps_spillRead {acc : List Byte} {rs : List Word32} : SndKeeps w (w.spillRead acc rs) := by
  delta W.spillRead
  induction rs generalizing w acc with
  | nil => exact .of .refl
  | cons r rs ih => exact sndKeeps_spillReadStep fun _ _ => ih

theorem keeps_spillRead {acc : List Byte} {rs : List Word32} : Keeps w (w.spillRead acc rs).2 :=
  sndKeeps_spillRead.out

theorem resKeeps_cmdFlueEventsRead {p : Packet} {w : W} : ResKeeps w (cmdFlueEventsRead p w) := by
  refine resKeeps_need (resKeeps_need ?_)
  dsimp only
  split
  · next e => exact (keeps_spillRead.snd e).res resKeeps_ok
  · next e => exact ((keeps_spillRead.snd e).trans keeps_internal).res resKeeps_fail

theorem resKeeps_cmdFlueActive {p : Packet} {w : W} : ResKeeps w (cmdFlueActive p w) := resKeeps_ok

theorem resKeeps_cmdDampStatus {p : Packet} {w : W} : ResKeeps w (cmdDampStatus p w) := resKeeps_ok

/-! The mode, grant and session commands (R41, R81, R453). -/

theorem resKeeps_cmdDeviceReset {p : Packet} {w : W} : ResKeeps w (cmdDeviceReset p w) := Keeps.refl.upd.res resKeeps_ok

theorem resKeeps_cmdRunStart {p : Packet} {w : W} : ResKeeps w (cmdRunStart p w) :=
  resKeeps_need (resKeeps_need (resKeeps_need (resKeeps_readCtxs fun _ => resKeeps_need (resKeeps_need (resKeeps_need (resKeeps_need
    (Keeps.refl.upd.res (keeps_setMode.res resKeeps_ok))))))))

theorem resKeeps_cmdRunStop {p : Packet} {w : W} : ResKeeps w (cmdRunStop p w) := keeps_setMode.res resKeeps_ok

theorem resKeeps_cmdDozeEnter {p : Packet} {w : W} : ResKeeps w (cmdDozeEnter p w) :=
  resKeeps_need (Keeps.refl.upd.res resKeeps_ok)

theorem resKeeps_cmdMaintainEnter {p : Packet} {w : W} : ResKeeps w (cmdMaintainEnter p w) :=
  resKeeps_need (keeps_setMode.res resKeeps_ok)

theorem resKeeps_cmdMaintainExit {p : Packet} {w : W} : ResKeeps w (cmdMaintainExit p w) := keeps_setMode.res resKeeps_ok

theorem resKeeps_cmdNop {p : Packet} {w : W} : ResKeeps w (cmdNop p w) := resKeeps_ok

theorem resKeeps_cmdLcNonceGet {p : Packet} {w : W} : ResKeeps w (cmdLcNonceGet p w) := resKeeps_ok

theorem resKeeps_openGrant {b : List Byte} {signed : Bool} : ResKeeps w (w.openGrant b signed) :=
  resKeeps_need (resKeeps_need (Keeps.refl.upd.res resKeeps_ok))

theorem resKeeps_cmdExpertGrant {p : Packet} {w : W} : ResKeeps w (cmdExpertGrant p w) := by
  refine resKeeps_need (.ite (resKeeps_drbg (keeps_newNonce.res (resKeeps_need (resKeeps_need ?_))))
      (resKeeps_need resKeeps_openGrant))
  split
  · exact resKeeps_fail
  · exact resKeeps_openGrant

theorem keeps_endGrant {id : Word32} : Keeps w (w.endGrant id) := .upd .refl

theorem resKeeps_cmdGrantRelease {p : Packet} {w : W} : ResKeeps w (cmdGrantRelease p w) :=
  resKeeps_need (keeps_endGrant.res resKeeps_ok)

theorem resKeeps_cmdExpertLogRead {p : Packet} {w : W} : ResKeeps w (cmdExpertLogRead p w) :=
  resKeeps_need (resKeeps_need (Keeps.refl.upd.res ((Keeps.ite keeps_inactive .refl).res resKeeps_ok)))

/-! The life-cycle token (R55 to R58). -/

/-- The transitions of the life cycle (R57). -/
def lifeTable : List (Nat × Nat) := [(0, 1), (1, 2), (1, 3), (2, 3), (0, 4), (1, 4), (2, 4), (3, 4)]

/-- The life cycle stands, or it moves along the table, in PREPARE. -/
def LifeMoves (f : Fuse) (m : Mode) (g : Fuse) : Prop :=
  g.lifecycle = f.lifecycle ∨ m = .prepare ∧ (f.lifecycle, g.lifecycle) ∈ lifeTable

/-- What a step may do at the fuses beside moving the life cycle: blow others, and none of those of UID and the ordering code. -/
def OneWay (f g : Fuse) : Prop :=
  g.uid = f.uid ∧ g.variantM = f.variantM ∧ (f.unreadable = true → g.unreadable = true) ∧
    (f.secretOff = true → g.secretOff = true)

theorem around_blows : Around Blows := ⟨Keeps.blows, fun h => (Keeps.same h).blows.trans, fun h => h.keeps⟩

/-- `Blows`, for an operation that may also move the life cycle. -/
@[irreducible] def Moves (w w' : W) : Prop :=
  OneWay w.fuse w'.fuse ∧ LifeMoves w.fuse w.dev.sys.mode w'.fuse ∧ (DampOk w.dev → DampOk w'.dev)

theorem moves_iff {w w' : W} :
    Moves w w' ↔ OneWay w.fuse w'.fuse ∧ LifeMoves w.fuse w.dev.sys.mode w'.fuse ∧ (DampOk w.dev → DampOk w'.dev) := by
  rw [Moves]

theorem Blows.moves {a b : W} (h : Blows a b) : Moves a b := by
  obtain ⟨⟨uid, var, unr, sec, life⟩, damp⟩ := blows_iff.mp h
  exact moves_iff.mpr ⟨⟨uid, var, unr, sec⟩, .inl life, damp⟩

theorem around_moves : Around Moves where
  of_keeps h := h.blows.moves
  left {a b c} h k := by
    obtain ⟨chs, fuse⟩ := sameCh_iff.mp h
    rw [moves_iff] at k ⊢
    rw [fuse, (chs_iff.mp chs).2] at k
    exact ⟨k.1, k.2.1, k.2.2 ∘ (dampOk_congr chs).mpr⟩
  right {a b c} h k := by
    obtain ⟨fuse, damp⟩ := keeps_iff.mp k
    rw [moves_iff] at h ⊢
    rw [fuse]
    exact ⟨h.1, h.2.1, damp ∘ h.2.2⟩

theorem SameLife.moves_trans {f g h : Fuse} {m : Mode} (a : SameLife f g) (b : OneWay g h) (k : LifeMoves g m h) :
    OneWay f h ∧ LifeMoves f m h := by
  obtain ⟨uid, var, unr, sec, life⟩ := a
  obtain ⟨uid', var', unr', sec'⟩ := b
  rw [LifeMoves, life] at k
  exact ⟨⟨uid'.trans uid, var'.trans var, unr' ∘ unr, sec' ∘ sec⟩, k⟩

/-- What a token that takes the life cycle to `target` blows (R54). -/
def lcBlow (target : Nat) (f : Fuse) : Fuse :=
  match target with
  | 1 => { f with provisioned := 7 }
  | 2 => { f with field := 7 }
  | 3 => { f with returned := 7, unreadable := true }
  | _ => { f with scrapped := 7, unreadable := true, secretOff := true }

theorem oneWay_lcBlow {f : Fuse} {t : Nat} : OneWay f (lcBlow t f) := by
  unfold lcBlow
  split
  · exact ⟨rfl, rfl, id, id⟩
  · exact ⟨rfl, rfl, id, id⟩
  · exact ⟨rfl, rfl, fun _ => rfl, id⟩
  · exact ⟨rfl, rfl, fun _ => rfl, fun _ => rfl⟩

/-- A token with a key for its two states moves the life cycle along the table. -/
theorem lcBlow_lifecycle {f : Fuse} {t : Nat} (h : lcKeys f.lifecycle t ≠ []) :
    (f.lifecycle, (lcBlow t f).lifecycle) ∈ lifeTable := by
  have seven : 2 ≤ (bitsOf 3 (7 : BitVec 3).toNat).length := by decide
  have at1 : f.lifecycle = 0 → (lcBlow 1 f).lifecycle = 1 := fun e => by
    simp only [Fuse.lifecycle, lcBlow, decide_eq_true_eq] at e ⊢
    grind
  have at2 : f.lifecycle = 1 → (lcBlow 2 f).lifecycle = 2 := fun e => by
    simp only [Fuse.lifecycle, lcBlow, decide_eq_true_eq] at e ⊢
    grind
  have at3 : f.lifecycle = 1 ∨ f.lifecycle = 2 → (lcBlow 3 f).lifecycle = 3 := fun e => by
    simp only [Fuse.lifecycle, lcBlow, decide_eq_true_eq] at e ⊢
    grind
  have at4 : (lcBlow 4 f).lifecycle = 4 := if_pos (decide_eq_true seven)
  unfold lcKeys at h
  unfold lifeTable
  grind

theorem sameCh_draw : SameCh w w.draw.2 := .upd _ _ rfl

theorem sameCh_newNonce : SameCh w w.newNonce := sameCh_draw.trans (.upd _ _ rfl)

theorem moves_lcApply {b : List Byte} {target : Nat} {own : Word32} (prep : w.dev.sys.mode = .prepare)
    (key : lcKeys w.fuse.lifecycle target ≠ []) : Moves w (w.lcApply b target own) := by
  unfold W.lcApply
  extract_lets -underBinder blow w1 w2 w3 w4
  have h1 : Blows w w1 := by
    refine .ite (keeps_fresh.blows.trans ?_) .refl
    exact blows_fuse ⟨rfl, rfl, id, id, rfl⟩
  have h4 : Blows w w4 := h1.keeps <| (Keeps.refl.each fun _ _ => keeps_endSession).trans keeps_closing
    |>.trans (.ite (.upd .refl) .refl)
  clear_value w4
  obtain ⟨life, damp⟩ := blows_iff.mp h4
  have move : LifeMoves w4.fuse w.dev.sys.mode (lcBlow target w4.fuse) :=
    .inr ⟨prep, lcBlow_lifecycle (by rw [life.2.2.2.2]; exact key)⟩
  obtain ⟨way, move⟩ := life.moves_trans oneWay_lcBlow move
  exact moves_iff.mpr ⟨way, move, damp⟩

/-- A token whose fields are good names the state of the device and has a key. -/
theorem lcKeys_of_tokenFields {b : List Byte} {n : Word32} (h : w.tokenFields b n = true) :
    lcKeys w.fuse.lifecycle (fld (wordAt b 4) 8 8) ≠ [] := by
  simp only [W.tokenFields, Bool.and_eq_true, beq_iff_eq, W.lifecycle] at h
  obtain ⟨⟨⟨⟨⟨⟨-, life⟩, key⟩, -⟩, -⟩, -⟩, -⟩ := h
  intro e
  rw [life, e] at key
  cases key

theorem mask_of_cmdInfo {i : CmdInfo} (h : w.cmdInfo 0x0A31 = some i) : i.mask = 0x0008 := by
  have row : commandTable.find? (·.opc == 0x0A31) = some ⟨0x0A31, "LC_TOKEN", 0x0008, 896, 896, false⟩ := by decide
  unfold W.cmdInfo at h
  split at h
  · cases h
  · rw [row] at h
    cases h
    rfl

/-- LC_TOKEN is executed in PREPARE alone. -/
theorem prepare_of_modeOk {i : CmdInfo} (listed : w.cmdInfo 0x0A31 = some i) {v : W} (ok : v.modeOk i = true) :
    v.dev.sys.mode = .prepare := by
  simp only [W.modeOk, mask_of_cmdInfo listed, Bool.and_eq_true] at ok
  have bit := ok.1
  unfold Sys.modeNow at bit
  split at bit
  · exact absurd bit (by decide)
  · generalize v.dev.sys.mode = m at bit ⊢
    cases m <;> first | rfl | exact absurd bit (by decide)

theorem opcAround_lcToken : OpcAround Moves 0x0A31 cmdLcToken := by
  intro u i listed p v ok
  have prep : v.newNonce.dev.sys.mode = .prepare := ((chs_iff.mp (sameCh_iff.mp sameCh_newNonce).1).2).trans (prepare_of_modeOk listed ok)
  have same : SameCh v v.newNonce := sameCh_newNonce
  unfold cmdLcToken W.drbg
  split
  · exact around_moves.of_keeps keeps_internal
  · dsimp only
    generalize v.newNonce = x at prep same ⊢
    unfold W.need
    split
    · split
      · exact around_moves.of_keeps (.same same)
      · next fields _ _ =>
        refine around_moves.left same ?_
        exact around_moves.right (moves_lcApply prep (lcKeys_of_tokenFields fields)) (.upd .refl)
    · exact around_moves.of_keeps (.same same)

theorem resKeeps_cmdTraceStatus {p : Packet} {w : W} : ResKeeps w (cmdTraceStatus p w) := resKeeps_ok

/-! The bodies of the command packets (R68 to R75). -/

/-- Every command but LC_TOKEN keeps the fuses. -/
theorem resKeeps_bodyOf {opc : Nat} {p : Packet} {w : W} (other : opc ≠ 0x0A31) : ResKeeps w (bodyOf opc p w) := by
  unfold bodyOf
  split
  · exact resKeeps_cmdDeviceReset
  · exact resKeeps_cmdRunStart
  · exact resKeeps_cmdRunStop
  · exact resKeeps_cmdDozeEnter
  · exact resKeeps_cmdMaintainEnter
  · exact resKeeps_cmdMaintainExit
  · exact resKeeps_cmdNop
  · exact resKeeps_cmdTimeStatus
  · exact resKeeps_cmdTimeStep
  · exact resKeeps_cmdConfigBegin
  · exact resKeeps_cmdConfigWrite
  · exact resKeeps_cmdConfigCommit
  · exact resKeeps_cmdConfigAbort
  · exact resKeeps_cmdLaneStatus
  · exact resKeeps_cmdLaneFence
  · exact resKeeps_cmdLaneRetest
  · exact resKeeps_cmdCoreRestart
  · exact resKeeps_cmdHearthReset
  · exact resKeeps_cmdLoopLoad
  · exact resKeeps_cmdLoopParam
  · exact resKeeps_cmdLoopMode
  · exact resKeeps_cmdLoopResume
  · exact resKeeps_cmdLoopStatus
  · exact resKeeps_cmdLoopImageBind
  · exact resKeeps_cmdLoopExtWrite
  · exact resKeeps_cmdBellowsStatus
  · exact resKeeps_cmdBellowsCountClear
  · exact resKeeps_cmdLoopInject
  · exact resKeeps_cmdSchedLoad
  · exact resKeeps_cmdSchedSwap
  · exact resKeeps_cmdSchedStatus
  · exact resKeeps_cmdSchedCheck
  · exact resKeeps_cmdMemStatus
  · exact resKeeps_cmdMemLogRead
  · exact resKeeps_cmdMemScrub
  · exact resKeeps_cmdMemRetire
  · exact resKeeps_cmdMemRetireList
  · exact resKeeps_cmdMemRepairAdd
  · exact resKeeps_cmdMemRepairList
  · exact resKeeps_cmdMemInject
  · exact resKeeps_cmdMemConfig
  · exact resKeeps_cmdMemFill
  · exact resKeeps_cmdHobStatus
  · exact resKeeps_cmdHobCountClear
  · exact resKeeps_cmdFwStatus
  · exact resKeeps_cmdFwViolClear
  · exact resKeeps_cmdQueueSet
  · exact resKeeps_cmdQueueStatus
  · exact resKeeps_cmdQueueFlush
  · exact resKeeps_cmdPoolStatus
  · exact resKeeps_cmdQueueBind
  · exact resKeeps_cmdFlueStatus
  · exact resKeeps_cmdFlueHistoryRead
  · exact resKeeps_cmdLockoutReset
  · exact resKeeps_cmdErrpinRelease
  · exact resKeeps_cmdFlueRelease
  · exact resKeeps_cmdFlueTest
  · exact resKeeps_cmdFlueEventsRead
  · exact resKeeps_cmdFlueActive
  · exact resKeeps_wdtStatus
  · exact resKeeps_cmdPwrStatus
  · exact resKeeps_cmdPwrLevel
  · exact resKeeps_cmdPwrVote
  · exact resKeeps_cmdPadRelease
  · exact resKeeps_cmdPwrDomainStatus
  · exact resKeeps_cmdPwrCountClear
  · exact resKeeps_cmdImageStatus
  · exact resKeeps_cmdStageBegin
  · exact resKeeps_cmdStageChunk
  · exact resKeeps_cmdImageVerify
  · exact resKeeps_cmdImageDiscard
  · exact resKeeps_cmdImagePersist
  · exact resKeeps_cmdCutover
  · exact resKeeps_cmdCutoverStatus
  · exact resKeeps_cmdAttest
  · exact resKeeps_cmdExpertGrant
  · exact resKeeps_cmdGrantRelease
  · exact resKeeps_cmdExpertLogRead
  · exact resKeeps_cmdLcNonceGet
  · exact absurd rfl other
  · exact resKeeps_cmdSessionCfg
  · exact resKeeps_cmdSessionOpen
  · exact resKeeps_cmdSessionClose
  · exact resKeeps_cmdSessionStatus
  · exact resKeeps_cmdThmStatus
  · exact resKeeps_cmdThmGate
  · exact resKeeps_cmdThmForward
  · exact resKeeps_cmdThmSlotErase
  · exact resKeeps_cmdThmSlotWrite
  · exact resKeeps_cmdChimneyStatus
  · exact resKeeps_cmdChimneySet
  · exact resKeeps_cmdChimneyRetrain
  · exact resKeeps_cmdDampStatus
  · exact resKeeps_cmdFioStatus
  · exact resKeeps_cmdBasteStatus
  · exact resKeeps_cmdBasteResults
  · exact resKeeps_cmdBasteNow
  · exact resKeeps_cmdScanOpen
  · exact resKeeps_cmdTraceStatus
  · exact resKeeps_fail

/-! The host ports (R62 to R65, R499). -/

theorem keeps_wakeDoze : Keeps w w.wakeDoze := .ite keeps_setMode .refl

theorem keeps_onHost {f : W → W} (hf : ∀ (v : W), Keeps v (f v)) : Keeps w (w.onHost f) :=
  .ite (keeps_wakeDoze.trans (hf _)) .refl

theorem keeps_onStoker {f : Stoker → Stoker} : Keeps w (w.onStoker f) := .upd .refl

theorem keeps_ringFault {reply : Bool} {v : Byte} : Keeps w (w.ringFault reply v) :=
  keeps_onStoker.trans keeps_raise

theorem keeps_cmdTailWrite {v : Word32} : Keeps w (w.cmdTailWrite v) :=
  .ite .refl (.ite keeps_onStoker keeps_ringFault)

theorem keeps_replyTailWrite {v : Word32} : Keeps w (w.replyTailWrite v) :=
  .ite keeps_onStoker keeps_ringFault

theorem keeps_ringResetWrite {v : Word32} : Keeps w (w.ringResetWrite v) :=
  .ite (keeps_onStoker.trans keeps_ringDue) .refl

theorem keeps_apertureWrite {v : Word32} : Keeps w (w.apertureWrite v) := keeps_onStoker

theorem keeps_hostPageWrite {o : Nat} {bs : List Byte} : Keeps w (w.hostPageWrite o bs) := by
  refine .ite .refl ?_
  split
  · exact keeps_cmdTailWrite
  · exact keeps_replyTailWrite
  · exact keeps_ringResetWrite
  · exact keeps_apertureWrite
  · exact .refl

theorem keeps_bar0Write {o : Nat} {bs : List Byte} : Keeps w (w.bar0Write o bs) :=
  .ite keeps_raiseAddr (.ite keeps_hostPageWrite keeps_onStoker)

theorem keeps_mspiBad : Keeps w w.mspiBad := Keeps.refl.upd.trans keeps_raise

theorem keeps_mspi {good : Bool} {f : W → List Byte × W} (hf : ∀ (v : W), Keeps v (f v).2) :
    Keeps w (w.mspi good f) :=
  .ite .refl (.ite (keeps_wakeDoze.trans keeps_answer) (.ite ((Keeps.refl.upd.trans
    (hf _)).trans keeps_answer) (keeps_mspiBad.trans keeps_answer)))

/-! The field ports (R386 to R388, R500 to R512). -/

theorem keeps_onPorts {f : Ports → Ports} : Keeps w (w.onPorts f) := .upd .refl

theorem keeps_dropCount {n : Nat} : Keeps w (w.dropCount n) := keeps_setReg

theorem keeps_dropFrame {n : Nat} : Keeps w (w.dropFrame n) :=
  .ite keeps_dropCount (keeps_dropCount.trans keeps_raise)

theorem keeps_receive {n : Nat} {ws : List Word32} : Keeps w (w.receive n ws) :=
  .ite keeps_dropFrame (keeps_sendPacket.trans (.ite .refl keeps_dropFrame))

theorem keeps_transmit {n : Nat} : Keeps w (w.transmit n).2 :=
  .iteSnd .refl (keeps_fwCheck.trans (.iteSnd .refl (keeps_deqPacket.trans (.pair keeps_settle))))

/-! The requests of the Thimble's gate (R416 to R424). -/

theorem around_gateRow {R : W → W → Prop} (hR : Around R) {code : BitVec 4} {checks : GateReq → W → List (Bool × Byte)}
    {act : GateReq → W → W} (hact : ∀ (x : GateReq) (v : W), R v (act x v)) : R w (w.gateRow code checks act) := by
  unfold W.gateRow
  split
  · exact hR.of_keeps .refl
  · refine hR.ite (hR.of_keeps .refl) ?_
    split
    · exact hR.of_keeps keeps_gateAnswer
    · exact hact _ _

theorem keeps_gateRow {code : BitVec 4} {checks : GateReq → W → List (Bool × Byte)} {act : GateReq → W → W}
    (hact : ∀ (x : GateReq) (v : W), Keeps v (act x v)) : Keeps w (w.gateRow code checks act) :=
  around_gateRow around_keeps hact

theorem keeps_gateAccept {ty : Byte} {ps : List Word32} {point : Byte} : Keeps w (w.gateAccept ty ps point) :=
  keeps_onThm.trans keeps_gateAnswer

theorem around_fwDecides {R : W → W → Prop} (hR : Around R) {a : FwAnswer} {act : GateReq → W → W} {g : GateReq} {w : W}
    (hact : ∀ (x : GateReq) (v : W), R v (act x v)) : R w (fwDecides a act g w) :=
  hR.ite (hact _ _) (hR.of_keeps keeps_gateAnswer)

theorem keeps_fwDecides {a : FwAnswer} {act : GateReq → W → W} {g : GateReq} {w : W}
    (hact : ∀ (x : GateReq) (v : W), Keeps v (act x v)) : Keeps w (fwDecides a act g w) :=
  around_fwDecides around_keeps hact

/-! The rows of the hobs (R189 to R200). -/

theorem keeps_hobPerform {u : Nat} {q : HobReq} : Keeps w (w.hobPerform u q).2 := by
  refine .iteSnd (.pair keeps_testerGo) ?_
  split
  · exact .iteSnd keeps_hobRead keeps_hobReadSel
  · exact .pair keeps_hobWrite
  · exact keeps_hobAlias
  · exact keeps_hobAlias
  · exact keeps_hobAtomic

theorem keeps_dmaRead {m : Rid} {acc : List Byte} {ps : List (Nat × Nat)} : Keeps w (w.dmaRead m acc ps).2 := by
  induction ps generalizing w acc with
  | nil => exact .refl
  | cons p ps ih =>
    unfold W.dmaRead
    refine .iteSnd ?_ ?_
    · split
      · next e => exact ((keeps_passWalls.snd e).trans keeps_fresh).trans ih
      · next e => exact keeps_passWalls.snd e
    · split
      · next e => exact (keeps_access.snd e).trans ih
      · next e => exact keeps_access.snd e

theorem keeps_dmaWrite {m : Rid} {a : Nat} {bs : List Byte} {ps : List (Nat × Nat)} :
    Keeps w (w.dmaWrite m a bs ps).2 := by
  induction ps generalizing w with
  | nil => exact .refl
  | cons p ps ih =>
    unfold W.dmaWrite
    refine .iteSnd ?_ ?_
    · split
      · next e => exact (keeps_passWalls.snd e).trans ih
      · next e => exact keeps_passWalls.snd e
    · split
      · next e => exact keeps_access.snd e
      · next e => exact (keeps_access.snd e).trans ih

theorem keeps_dmaIn {h c : Nat} : Keeps w (w.dmaIn h c).2 := by
  unfold W.dmaIn
  dsimp only
  cases portStay (w.chanExt h c) <;>
  · dsimp only
    split
    · exact keeps_dmaRead.trans keeps_dmaWrite
    · exact keeps_dmaRead

theorem keeps_dmaEnq {m : Rid} {a k : Nat} {xs : List (List Byte)} : Keeps w (w.dmaEnq m a k xs).2.2 := by
  induction xs generalizing w k with
  | nil => exact .refl
  | cons x xs ih =>
    unfold W.dmaEnq
    split
    · next e => exact keeps_access.snd e
    · next e => exact keeps_access.snd e
    · next e => exact (keeps_access.snd e).trans ih

theorem keeps_dmaOut {h c : Nat} : Keeps w (w.dmaOut h c).2.2 := by
  unfold W.dmaOut
  dsimp only
  split
  · exact .refl
  · split
    · next e =>
      refine (keeps_dmaRead.snd e).trans ?_
      split
      · exact keeps_dmaEnq
      · exact keeps_dmaWrite
    · next e => exact keeps_dmaRead.snd e

theorem keeps_chanHeld {h c k : Nat} : Keeps w (w.chanHeld h c k) := .upd .refl

theorem keeps_chanHalt {h c : Nat} : Keeps w (w.chanHalt h c) := Keeps.refl.upd.trans keeps_imageLate

theorem keeps_inputDone {h c : Nat} : Keeps w (w.inputDone h c) := by
  have h1 : Keeps w (if (w.inUse h 0x314).testBit c then
      w.dmaWrite (w.dmaRid h c) (hobBase h + w.inImage h + 4 * (w.chanFirst h c + w.chanCount h c))
        (le 4 ((w.dev.blw h).chans.getD c {}).frame.toNat)
        [(hobBase h + w.inImage h + 4 * (w.chanFirst h c + w.chanCount h c), 4)]
    else (true, w)).2 := .iteSnd keeps_dmaWrite .refl
  unfold W.inputDone
  dsimp only
  exact h1.trans (.ite keeps_chanHalt (Keeps.refl.upd.trans (.ite keeps_startSlots .refl)))

/-! Start-up: KINDLE (R41, R50 to R54). -/

theorem keeps_stepDone {n : Nat} : Keeps w (w.stepDone n) := .upd .refl

theorem keeps_stepSelfCheck : Keeps w w.stepSelfCheck :=
  .ite keeps_kindleHalt ((keeps_onThm.trans keeps_notices).trans keeps_stepDone)

/-- Blowing the third fuse of a group that has two does not change what the group says (R54). -/
theorem lifecycle_thirdBlown {f : Fuse} :
    ({ f with provisioned := thirdBlown f.provisioned, field := thirdBlown f.field, returned := thirdBlown f.returned,
              scrapped := thirdBlown f.scrapped } : Fuse).lifecycle = f.lifecycle := by
  have third : ∀ g : BitVec 3, 2 ≤ (bitsOf 3 (thirdBlown g).toNat).length ↔ 2 ≤ (bitsOf 3 g.toNat).length := by decide
  simp only [Fuse.lifecycle, decide_eq_true_eq, third]

theorem blows_stepFuses {ok : Bool} : Blows w (w.stepFuses ok) := by
  unfold W.stepFuses
  extract_lets -underBinder u w1 m n w2
  have h1 : Blows w w1 := blows_fuse ⟨rfl, rfl, id, id, lifecycle_thirdBlown⟩
  have h2 : Keeps w1 w2 := .upd .refl
  exact .ite keeps_kindleHalt.blows (h1.keeps (h2.trans (.ite keeps_kindleHalt keeps_stepDone)))

theorem keeps_fuseSpares {u : Nat} : Keeps w (w.fuseSpares u) := by
  unfold W.fuseSpares
  exact .upd .refl

theorem keeps_stepStoker {failed : BitVec 4} {hobOk : Bool} {rows cols : Nat} :
    Keeps w (w.stepStoker failed hobOk rows cols) :=
  .ite keeps_kindleHalt (.ite keeps_kindleHalt (keeps_clearHob.trans keeps_fuseSpares |>.upd |>.upd
    |>.each (fun _ _ => keeps_raise) |>.trans keeps_exhaustCheck |>.trans keeps_startCore
    |>.trans keeps_stepDone))

theorem keeps_stepSpares : Keeps w w.stepSpares :=
  (Keeps.refl.each fun _ _ => keeps_fuseSpares).trans keeps_stepDone

theorem keeps_trainChannel {c : Nat} {t : Training} {first : Option Training} :
    Keeps w (w.trainChannel c t first) :=
  keeps_fresh.trans (.ite (.upd .refl) (Keeps.refl.upd.trans keeps_raise))

theorem keeps_repairFail : Keeps w w.repairFail := keeps_fresh.trans keeps_raise

theorem keeps_stepDram {ts : List Training} {failedRows : List Nat} : Keeps w (w.stepDram ts failedRows) :=
  Keeps.refl.each (fun _ _ => keeps_trainChannel) |>.upd |>.each (fun _ _ => keeps_repairFail)
    |>.trans keeps_stepDone

theorem keeps_startStokerCode {head : List Byte} : Keeps w (w.startStokerCode head) := by
  unfold W.startStokerCode
  split
  · exact .refl
  · split
    · next e => exact (keeps_copyTo.snd e).upd
    · next e => exact (keeps_copyTo.snd e).trans keeps_raise

theorem keeps_slotBoots {b : Bool} : Keeps w (w.slotBoots b) :=
  (keeps_areaWrite.upd.trans keeps_startStokerCode).trans keeps_stepDone

theorem keeps_stepImage {readable : Bool} : Keeps w (w.stepImage readable) :=
  keeps_fresh.trans (.ite keeps_slotBoots (keeps_raise.trans (.ite (Keeps.refl.upd.trans keeps_stepDone)
    (.upd .refl))))

theorem keeps_stepLockout : Keeps w w.stepLockout := Keeps.refl.upd.trans keeps_stepDone

theorem keeps_stepPattern : Keeps w w.stepPattern :=
  keeps_stepDone.upd.trans (.ite keeps_setMode ((Keeps.refl.each fun _ _ => keeps_loadHearth).trans
    keeps_setMode))

theorem blows_kindle {a : KindleResult} : Blows w (w.kindle a) := by
  unfold W.kindle
  split
  · exact keeps_stepSelfCheck.blows
  · exact blows_stepFuses
  · exact keeps_stepStoker.blows
  · exact keeps_stepSpares.blows
  · exact keeps_stepDram.blows
  · exact keeps_stepImage.blows
  · exact keeps_stepLockout.blows
  · exact keeps_stepPattern.blows

end Sys2Proof.Proofs
end

section
/-! The channels keep their rule and the fuses their state (R47, R57): the cores and an idle step. -/

namespace Sys2Proof.Proofs

open Machine Laws

set_option Elab.async false

variable {w : W}

/-! How a core runs code (R145 to R149). -/

theorem keeps_issue {k : Nat} {uses : List (Bool × Reg)} {f : W → W} (hf : ∀ (v : W), Keeps v (f v)) :
    Keeps w (w.issue k uses f) :=
  .ite (hf _) .refl

theorem keeps_issueSerial {k : Nat} {f : W → W} (hf : ∀ (v : W), Keeps v (f v)) : Keeps w (w.issueSerial k f) :=
  .ite (hf _) .refl

theorem keeps_runArch {k beats : Nat} {f : Arch → Arch} : Keeps w (w.runArch k beats f) := .upd .refl

theorem keeps_entryFault {k : Nat} : Keeps w (w.entryFault k) :=
  Keeps.refl.upd.trans (.ite keeps_level (keeps_level.trans keeps_stokerDown))

theorem keeps_enter {k slot : Nat} {epc cause eaddr : Word64} {ipl : Option Nat} :
    Keeps w (w.enter k slot epc cause eaddr ipl) := by
  refine Keeps.refl.upd.trans (.ite keeps_entryFault ?_)
  split
  · next e2 => exact (keeps_access.snd e2).upd
  · next e2 => exact (keeps_access.snd e2).trans keeps_entryFault

theorem keeps_cutTrap {k code : Nat} : Keeps w (w.cutTrap k code) := .ite keeps_cutFail .refl

theorem keeps_enterTrap {k code : Nat} {epc eaddr : Word64} {detail : Nat} :
    Keeps w (w.enterTrap k code epc eaddr detail) :=
  (keeps_cutTrap.trans (.ite (.upd .refl) .refl)).trans keeps_enter

theorem keeps_raiseTrap {k code : Nat} {eaddr : Word64} {detail : Nat} :
    Keeps w (w.raiseTrap k code eaddr detail) :=
  .ite keeps_enterTrap .refl

/-! The integer instructions (R138, R142). -/

theorem keeps_opG {k : Nat} {rd : Reg} {rs : List Reg} {beats : Nat} {v : Arch → Word64} :
    Keeps w (w.opG k rd rs beats v) :=
  keeps_issue fun _ => keeps_runArch

theorem keeps_op3 {k : Nat} {rd ra rb : Reg} {f : Word64 → Word64 → Word64} {beats : Nat} :
    Keeps w (w.op3 k rd ra rb f beats) :=
  keeps_opG

theorem keeps_op2 {k : Nat} {rd ra : Reg} {f : Word64 → Word64} : Keeps w (w.op2 k rd ra f) := keeps_opG

theorem keeps_branch {k : Nat} {ra rb : Reg} {off : BitVec 16} {p : Word64 → Word64 → Bool} :
    Keeps w (w.branch k ra rb off p) :=
  keeps_issue fun _ => keeps_runArch

/-! Loads and stores of a core (R136, R137). -/

theorem keeps_admitParts {m : Rid} {r : Nat → Req} {ps : List (Nat × Nat)} : Keeps w (w.admitParts m r ps).2 := by
  induction ps generalizing w with
  | nil => exact .refl
  | cons p ps ih =>
    unfold W.admitParts
    split
    · next e => exact keeps_passWalls.snd e
    · next e => exact (keeps_passWalls.snd e).trans ih

theorem keeps_readParts {m : Rid} {r : Req} {ps : List (Nat × Nat)} : Keeps w (w.readParts m r ps).2 := by
  induction ps generalizing w with
  | nil => exact .refl
  | cons p ps ih =>
    unfold W.readParts
    split
    · next e =>
      refine (keeps_perform.snd e).trans ?_
      split <;> next e => exact ih.snd e
    · next e => exact keeps_perform.snd e
    · next e => exact keeps_perform.snd e

theorem keeps_loadAccess {k : Nat} {priv : Bool} {o : LoadOp} {linkOk : Bool} :
    Keeps w (w.loadAccess k priv o linkOk).2 := by
  unfold W.loadAccess
  dsimp only
  split
  · next e => exact .pair (keeps_admitParts.snd e)
  · next e =>
      refine .iteSnd (.iteSnd ((keeps_admitParts.snd e).trans keeps_fresh) (.pair (keeps_admitParts.snd e)))
          (.iteSnd (.pair ((keeps_admitParts.snd e).trans keeps_linkCheck)) ?_)
      split <;> next e1 => exact .pair (((keeps_admitParts.snd e).trans keeps_readParts).snd e1)

theorem keeps_startLoad {k beats : Nat} {o : LoadOp} {wait : Bool} : Keeps w (w.startLoad k beats o wait) := by
  refine .ite ?_ (.upd .refl)
  split
  · next e => exact (Keeps.ite (keeps_loadAccess.snd e) ((keeps_loadAccess.snd e).upd)).trans keeps_runArch
  · next e => exact (keeps_loadAccess.snd e).trans keeps_raiseTrap

theorem keeps_load {k : Nat} {isF : Bool} {rd ra : Reg} {imm : BitVec 16} {size : Nat} {signed wait : Bool} :
    Keeps w (w.load k isF rd ra imm size signed wait) := by
  refine keeps_issue fun _ => .ite ((keeps_when fun _ => keeps_pageMisuse).trans keeps_raiseTrap) ?_
  split
  · exact keeps_raiseTrap
  · exact keeps_startLoad

theorem keeps_retireCore {k : Nat} : Keeps w (w.retireCore k) := by
  refine .ite .refl ?_
  split
  · exact .upd .refl
  · exact Keeps.refl.upd.trans keeps_enterTrap

theorem keeps_response {k i : Nat} {r : Except (Nat × Nat) Word64} : Keeps w (w.response k i r) :=
  .ite (.upd .refl) (Keeps.refl.upd.trans (.ite .refl keeps_retireCore))

theorem keeps_storeOp {k : Nat} {isF : Bool} {rs ra : Reg} {imm : BitVec 16} {size : Nat} :
    Keeps w (w.storeOp k isF rs ra imm size) :=
  keeps_issue fun _ => .ite ((keeps_when fun _ => keeps_pageMisuse).trans keeps_raiseTrap) (.ite .refl
    (.upd .refl))

theorem keeps_writeStores {m : Rid} {ss : List Store} : Keeps w (w.writeStores m ss).2 := by
  induction ss generalizing w with
  | nil => exact .refl
  | cons s ss ih =>
    unfold W.writeStores
    split
    · next e => exact (keeps_perform.snd e).trans ih
    · exact keeps_perform

/-! The system instructions (R147, R150 to R156). -/

theorem keeps_ctlSet {k n : Nat} {v : Word64} : Keeps w (w.ctlSet k n v) :=
  .ite keeps_wdtKey (.ite keeps_wdtCheckin (.ite (.upd .refl) (.ite (.upd .refl) (.ite keeps_raise (.ite
    (.upd .refl) (.upd .refl))))))

theorem keeps_ctlAccess {k n : Nat} {write : Bool} {act : W → W} (hact : ∀ (v : W), Keeps v (act v)) :
    Keeps w (w.ctlAccess k n write act) :=
  keeps_issueSerial fun _ => .ite keeps_raiseTrap (.ite keeps_raiseTrap (hact _))

theorem keeps_ctlWrite {k : Nat} {rs : Reg} {n : Nat} : Keeps w (w.ctlWrite k rs n) :=
  keeps_ctlAccess fun _ => keeps_runArch.trans keeps_ctlSet

theorem keeps_privileged {k : Nat} {act : W → W} (hact : ∀ (v : W), Keeps v (act v)) :
    Keeps w (w.privileged k act) :=
  keeps_issueSerial fun _ => .ite (hact _) keeps_raiseTrap

theorem keeps_dropFetch {k : Nat} : Keeps w (w.dropFetch k) := .upd .refl

theorem keeps_applySync {k : Nat} : Keeps w (w.applySync k) := by
  unfold W.applySync
  dsimp only
  split
  · exact Keeps.refl.upd.trans keeps_wdtApply
  · exact .upd .refl

theorem keeps_takeDebug {k : Nat} : Keeps w (w.takeDebug k) :=
  .ite (Keeps.refl.upd.trans keeps_wdtFreeze) .refl

theorem keeps_debugDenied : Keeps w w.debugDenied := keeps_fresh.trans keeps_raiseAddr

theorem keeps_resumed {k : Nat} : Keeps w (w.resumed k) := .ite .refl keeps_retireCore

/-! A routed token (R98). -/

theorem keeps_linkError {k u : Nat} {write : Bool} : Keeps w (w.linkError k u write) := by
  refine .ite ((keeps_when fun _ => .upd .refl).trans keeps_storeNotice) ?_
  split
  · exact keeps_response
  · exact .refl

/-! The floating-point instructions (R139, R143). -/

theorem keeps_opFF {k : Nat} {rd : Reg} {rs : List Reg} {beats : Nat} {f : Arch → Nat × Nat} :
    Keeps w (w.opFF k rd rs beats f) :=
  keeps_issue fun _ => keeps_runArch

theorem keeps_opFG {k : Nat} {rd : Reg} {rs : List Reg} {beats : Nat} {f : Arch → Word64 × Nat} :
    Keeps w (w.opFG k rd rs beats f) :=
  keeps_issue fun _ => keeps_runArch

theorem keeps_opGF {k : Nat} {rd ra : Reg} {beats : Nat} {f : Arch → Nat × Nat} :
    Keeps w (w.opGF k rd ra beats f) :=
  keeps_issue fun _ => keeps_runArch

theorem keeps_arith {k : Nat} {rd ra rb : Reg} {dbl : Bool} {beats : Nat} {f : Fmt → Nat → Nat → Nat → Nat × Nat} :
    Keeps w (w.arith k rd ra rb dbl beats f) :=
  keeps_opFF

theorem keeps_fused {k : Nat} {rd ra rb rc : Reg} {dbl np na : Bool} :
    Keeps w (w.fused k rd ra rb rc dbl np na) :=
  keeps_opFF

/-! An idle step (R65, R76, R248). -/

theorem keeps_tickTb : Keeps w w.tickTb := .upd .refl

theorem keeps_writeBacks : Keeps w w.writeBacks := .each .refl fun _ _ => .ite keeps_drainAll .refl

theorem keeps_idle (armed : w.dev.sys.resetArmed = false) : Keeps w w.idle := by
  have h : w.tickTb.dev.sys.resetArmed = w.dev.sys.resetArmed := rfl
  have e : w.idle = w.tickTb.ringDue.writeBacks.dramBacks := if_neg (by rw [h, armed]; decide)
  rw [e]
  exact keeps_tickTb.trans (keeps_ringDue.trans (keeps_writeBacks.trans keeps_dramBacks))

end Sys2Proof.Proofs
end


section
/-! The channels keep their rule and the fuses their state (R47, R57): the commands. `OutKeeps s o` says that a next state in the outcome `o` keeps the
life cycle of `s` and the rule of its channels; then one lemma for each arm of more than a line, and the dispatch. -/

namespace Sys2Proof.Proofs

open Machine Laws

set_option Elab.async false

/-- A next state of the outcome keeps the life cycle of `s`, and the rule of the channels. -/
@[irreducible] def OutKeeps (s : State) (o : Host.Outcome State Fault Refusal) : Prop :=
  ∀ t, o = .next t → SameLife s.fuse t.fuse ∧ (DampOk s.dev → DampOk t.dev)

theorem OutKeeps.next {s t : State} {o : Host.Outcome State Fault Refusal} (h : OutKeeps s o) (e : o = .next t) :
    SameLife s.fuse t.fuse ∧ (DampOk s.dev → DampOk t.dev) := by rw [OutKeeps] at h; exact h t e

theorem OutKeeps.runDamp {s : State} {f : W → W} (h : ∀ w, DampOk w.dev → DampOk (f w).dev) :
    OutKeeps s (Machine.run s f) := by
  rw [OutKeeps]
  intro t e
  cases e
  exact ⟨.refl _, h s.world⟩

theorem OutKeeps.run {s : State} {f : W → W} (h : ∀ w, Keeps w (f w)) : OutKeeps s (Machine.run s f) :=
  .runDamp fun w => (keeps_iff.mp (h w)).2

theorem OutKeeps.runFuse {s : State} {f : W → W} (h : ∀ w, Blows w (f w)) : OutKeeps s (Machine.runFuse s f) := by
  rw [OutKeeps]
  intro t e
  cases e
  exact blows_iff.mp (h _)

theorem OutKeeps.command {s : State} {opc : Half} {p : Packet} {body : Body}
    (h : ∀ (x : Packet) (v : W), ResKeeps v (body x v)) :
    OutKeeps s (Machine.command opc p body s) := .run fun _ => keeps_take h

/-- What the meaning of an opcode does beside the fuses of the life cycle. -/
theorem opcAround_bodyOf {opc : Nat} : OpcAround Moves opc (bodyOf opc) := by
  by_cases tok : opc = 0x0A31
  · subst tok
    exact opcAround_lcToken
  · exact .of_keeps around_moves fun _ _ => resKeeps_bodyOf tok

variable {s : State} {w : W}

theorem keeps_seeFb {n : Nat} {fb : Bool} : Keeps w (w.upd fun d => d.seeFb n fb) :=
  .onDamper (f := fun d c => { c with fb := fb, agreeAt := if c.fb && !fb then d.clock.ivl else c.agreeAt }) .refl fun _ _ => id

/-! The damper channels (R277 to R280, R305). -/

theorem outKeeps_energise {m : Rid} {h : HearthId} {v : Word32} {fb : BitVec 4} :
    OutKeeps s (execEnergise m h v fb s) :=
  .run fun _ => (Keeps.refl.each fun _ _ => keeps_seeFb).trans (keeps_writeRow fun _ => keeps_chCmd)

theorem outKeeps_armExpiry {h : HearthId} : OutKeeps s (execArmExpiry h s) := by
  refine .run fun _ => ?_
  dsimp only
  split
  · exact .refl
  · exact Keeps.refl.upd.trans keeps_unarm

theorem outKeeps_rbSettleExpiry {n : DamperId} {fb : Bool} : OutKeeps s (execRbSettleExpiry n fb s) :=
  .run fun _ => .ite (Keeps.trans (Keeps.trans keeps_seeFb (.onDamper (f := fun _ c => { c with settling := false }) .refl fun _ _ => id))
    (.ite keeps_damperMismatch .refl)).upd .refl

/-! The events of the Flue. -/

theorem outKeeps_levelSourceInactive {src : SourceId} : OutKeeps s (execLevelSourceInactive src s) := by
  have agreed : ∀ (n : Nat) (v : W), Keeps v (v.upd fun d => d.onDamper n fun c =>
      { c with fb := if c.mismatch = some 1 then false else c.fb, mismatch := none, agreeAt := d.clock.ivl }) :=
    fun _ _ => .onDamper (f := fun d c => { c with fb := if c.mismatch = some 1 then false else c.fb, mismatch := none, agreeAt := d.clock.ivl })
      .refl fun _ _ => id
  refine .run fun w => ?_
  dsimp only
  refine .ite (.ite ?_ ?_) .refl
  · split
    · exact .refl
    · exact Keeps.refl.upd.trans keeps_inactive
  · exact (Keeps.ite (agreed _ _) (.ite (.upd .refl) (.ite (.upd .refl) .refl))).trans (.ite keeps_inactive .refl)

theorem outKeeps_intakeTake : OutKeeps s (execIntakeTake s) := by
  refine .run fun _ => ?_
  dsimp only
  split
  · exact (Keeps.ite .refl keeps_history).trans (.upd .refl)
  · split
    · exact (Keeps.ite .refl keeps_history).trans (.upd .refl)
    · exact .refl

theorem outKeeps_eventRingEnqueue : OutKeeps s (execEventRingEnqueue s) := by
  refine .run fun w => .ite .refl ?_
  split
  · exact .refl
  split
  next ready w1 e =>
  have gap : Keeps w w1 := by
    refine .of_snd e (.iteSnd (.pair .refl) ?_)
    split
    next eg =>
    split
    next eo =>
    have rung := (keeps_ringGap.snd eg).trans (keeps_ringOne.snd eo)
    exact .pair (.ite rung.upd rung)
  split
  next ok w2 e =>
  have one : Keeps w1 w2 := .of_snd e (.iteSnd keeps_ringOne (.pair .refl))
  refine (gap.trans one).trans (.trans ?_ keeps_settle)
  exact .ite (.upd .refl) .refl

theorem outKeeps_spillMove {n : Nat} : OutKeeps s (execSpillMove n s) :=
  .run fun _ => .ite ((Keeps.refl.each fun _ _ => keeps_moveOne).trans keeps_settle) .refl

theorem outKeeps_cfgSweep {bad : Option (Nat × Bool)} : OutKeeps s (execCfgSweep bad s) := by
  refine .run fun _ => ?_
  split
  · exact .ite keeps_inactive .refl
  · split
    · exact .refl
    · exact Keeps.refl.upd.trans ((Keeps.ite keeps_setReg .refl).trans ((Keeps.ite keeps_raiseTwo
          (.ite .refl keeps_raise)).trans (.ite keeps_hwForce .refl)))

theorem outKeeps_quietPeriodExpiry : OutKeeps s (execQuietPeriodExpiry s) :=
  .run fun _ => .ite (Keeps.refl.upd.trans (.ite keeps_setMode keeps_setMode)) .refl

theorem outKeeps_recoveryEntryExpiry {hearth : Option HearthId} :
    OutKeeps s (execRecoveryEntryExpiry hearth s) := by
  refine .run fun _ => ?_
  split
  · split
    · exact .refl
    · exact .upd .refl
  · split
    · exact .refl
    · exact .upd .refl

theorem outKeeps_localQuietExpiry {h : HearthId} : OutKeeps s (execLocalQuietExpiry h s) := by
  refine .run fun w => .ite .refl ?_
  extract_lets -underBinder free hold sels times
  clear_value times
  split
  · exact .refl
  · exact Keeps.refl.upd.trans (.trans (.ite keeps_releaseHold .refl) (.each .refl fun _ _ => keeps_releaseSel))

theorem outKeeps_errpinHoldExpiry : OutKeeps s (execErrpinHoldExpiry s) :=
  .run fun _ => .ite (Keeps.refl.upd.trans (.ite keeps_errRelease keeps_errAuto)) .refl

theorem outKeeps_refclkLoss {which : RefClk} {kHz : Word32} : OutKeeps s (execRefclkLoss which kHz s) := by
  refine .run fun _ => ?_
  split
  · exact (Keeps.refl.upd.trans keeps_level).trans (.ite keeps_kindleHalt .refl)
  · exact keeps_level
  · exact keeps_level
  · exact .ite (Keeps.refl.upd.trans keeps_level) .refl

/-! The vote of a seam and the lane controller (R88 to R97, R115). -/

theorem outKeeps_commitToken {c : CoreId} {slot : Slot} {tok : LaneCommit} :
    OutKeeps s (execCommitToken c slot tok s) := by
  refine .run fun _ => .ite ?_ .refl
  split
  · exact Keeps.refl.upd.trans keeps_verdict
  · exact keeps_voteWait

theorem outKeeps_requestToken {c : CoreId} {slot : Slot} {tok : LaneRequest} :
    OutKeeps s (execRequestToken c slot tok s) := by
  refine .run fun _ => .ite ?_ .refl
  split
  · exact Keeps.refl.upd.trans keeps_verdict
  · exact keeps_voteWait

theorem outKeeps_stragglerWindowExpiry {c : CoreId} : OutKeeps s (execStragglerWindowExpiry c s) := by
  refine .run fun _ => .ite .refl ?_
  split
  · exact keeps_verdict
  · exact .refl

theorem outKeeps_stallMonitorExpiry {at_ : Stage} : OutKeeps s (execStallMonitorExpiry at_ s) := by
  refine .run fun _ => ?_
  split
  · split
    · exact .refl
    · refine .ite .refl ?_
      split
      · exact keeps_fence
      · exact keeps_haltCore
      · exact .refl
  · exact .ite .refl keeps_haltCore
  · exact keeps_bellowsCheck
  · exact .ite keeps_routerFault .refl

theorem outKeeps_faultDetection {src : SourceId} {d0 d1 : Word32} :
    OutKeeps s (execFaultDetection src d0 d1 s) := by
  refine .run fun _ => ?_
  dsimp only
  split
  · exact .ite keeps_bellowsCheck (.ite (keeps_level.trans (.ite .refl keeps_stokerDown)) (.ite keeps_raise
        (.ite keeps_level keeps_raise)))
  · exact .refl

theorem outKeeps_fenceWindowExpiry {u : UnitId} {lane : LaneNo} :
    OutKeeps s (execFenceWindowExpiry u lane s) := by
  refine .run fun _ => ?_
  split
  · exact .refl
  · exact Keeps.refl.upd.trans keeps_onLane

/-! Basting (R325 to R335). -/

theorem outKeeps_basteDue {u : UnitId} : OutKeeps s (execBasteDue u s) := by
  refine .run fun w => ?_
  extract_lets -underBinder w1 w2 w3
  have rest : Keeps w w1 := keeps_restTests
  have due : Keeps w1 w3 := (Keeps.refl.upd.trans keeps_turnDue).trans keeps_blwResume
  refine rest.trans (.ite (due.trans ?_) .refl)
  split
  · exact .upd .refl
  · exact keeps_takeTurn

theorem outKeeps_deferredSliceStart {u : UnitId} : OutKeeps s (execDeferredSliceStart u s) := by
  refine .run fun w => ?_
  extract_lets -underBinder w1 w2
  have rest : Keeps w w1 := keeps_restTests
  have resumed : Keeps w1 w2 := keeps_blwResume
  refine rest.trans (.ite (resumed.trans ?_) .refl)
  split
  · exact .refl
  · exact keeps_takeTurn

theorem outKeeps_bellowsSliceComplete {h : HearthId} {pass : Bool} :
    OutKeeps s (execBellowsSliceComplete h pass s) :=
  .run fun _ => .ite ((Keeps.refl.upd.trans keeps_basteRec).trans (.ite .refl ((Keeps.refl.upd.trans
    keeps_stopOne).trans keeps_raise))) .refl

/-! Power (R458 to R475). -/

theorem outKeeps_domainEntry {n : DomainId} {e : EntryEnd} : OutKeeps s (execDomainEntry n e s) := by
  refine .run fun _ => .ite .refl (.ite keeps_entryRefused ?_)
  split
  · exact keeps_entryRefused
  · exact .ite keeps_entryRefused keeps_domainDown
  · exact .ite keeps_entryRefused (Keeps.refl.upd.trans keeps_raise)

theorem outKeeps_avsVdone {rail : Fin 3} : OutKeeps s (execAvsVdone rail s) := by
  refine .run fun w => Keeps.trans ?_ keeps_readVca
  split
  · exact .refl
  · refine .ite (keeps_avsClear.trans keeps_levelFailed) (.ite (keeps_avsClear.trans keeps_endLevel) ?_)
    exact .upd .refl

theorem outKeeps_avsAckTimeout {rail : Fin 3} : OutKeeps s (execAvsAckTimeout rail s) := by
  refine .run fun _ => ?_
  split
  · exact .refl
  · exact .ite keeps_levelFailed (Keeps.refl.upd.trans keeps_level)

theorem outKeeps_tjReading {sensor : Fin 17} {deg : BitVec 8} : OutKeeps s (execTjReading sensor deg s) :=
  .run fun _ => .ite .refl (Keeps.refl.upd.trans (.ite keeps_level (.ite keeps_inactive .refl)))

/-! The bellows (R213, R221, R234). -/

theorem outKeeps_bellowsSlot {h : HearthId} {bad : Nat} : OutKeeps s (execBellowsSlot h bad s) := by
  refine .run fun _ => ?_
  dsimp only
  split
  · exact .refl
  · exact .ite ((Keeps.refl.upd.trans keeps_slot).trans (.ite keeps_startOutputs .refl)) .refl

/-! The time base (R248 to R252). -/

theorem outKeeps_frameBoundary : OutKeeps s (execFrameBoundary s) := by
  refine .run fun w => ?_
  extract_lets -underBinder c cur f w1 w2 w3
  have boundary : Keeps w w1 := .upd .refl
  have told : Keeps w1 w2 := .foldl .refl fun _ _ => keeps_interrupt
  have started : Keeps w2 w3 := .each .refl fun _ _ => keeps_frameStart
  refine .ite .refl (boundary.trans told |>.trans started |>.trans ?_)
  split
  · exact .ite (Keeps.refl.upd.trans keeps_stepTb) .refl
  · exact .refl

theorem outKeeps_tcmpFire {n : CompareId} : OutKeeps s (execTcmpFire n s) :=
  .run fun _ => .ite ((Keeps.refl.upd.trans keeps_interrupt).trans (.ite keeps_setReg
    ((keeps_setReg.trans keeps_setReg).trans keeps_setReg))) .refl

/-! DRAM requests, scrub and fills (R351 to R366). -/

theorem outKeeps_dramRead {m : Rid} {addr : Addr} {len : Nat} : OutKeeps s (execDramRead m addr len s) :=
  .run fun _ => keeps_powered fun _ => .ite keeps_answer ((keeps_dramGate fun _ => keeps_dramCross fun _ =>
    keeps_dramRead).trans keeps_respond)

theorem outKeeps_dramWrite {m : Rid} {addr : Addr} {bytes : List Byte} :
    OutKeeps s (execDramWrite m addr bytes s) :=
  .run fun _ => keeps_powered fun _ => .ite keeps_answer ((keeps_dramGate fun _ => keeps_dramCross fun _ =>
    keeps_dramWrite).trans keeps_respond)

theorem outKeeps_scrubComplete {dur : Word64} : OutKeeps s (execScrubComplete dur s) := by
  refine .run fun _ => ?_
  split
  · exact .ite .refl (keeps_endJob.trans keeps_scrubLines |>.trans keeps_scrubbedRange
        |>.trans keeps_finishAll)
  · exact .refl

theorem outKeeps_fillComplete {dur : Word64} : OutKeeps s (execFillComplete dur s) := by
  refine .run fun _ => ?_
  split
  · split
    · exact .refl
    · exact keeps_endJob.trans ((Keeps.refl.each fun _ _ => keeps_writeLine).trans
          (keeps_scrubbedRange.trans keeps_finishAll))
  · exact .refl

theorem outKeeps_scrubOverdue : OutKeeps s (execScrubOverdue s) := by
  refine .run fun _ => ?_
  split
  · exact Keeps.refl.upd.trans keeps_level
  · exact .refl

/-! The watchdogs (R307 to R324). -/

theorem outKeeps_hardTimerExpiry {c : CoreId} : OutKeeps s (execHardTimerExpiry c s) := by
  refine .run fun _ => ?_
  dsimp only
  split
  · exact .refl
  · exact (Keeps.refl.upd.trans keeps_cutFail).trans (keeps_raise.trans (.ite keeps_stokerReset
        ((keeps_coreReset.trans keeps_unswitch).trans (.ite keeps_startCore .refl))))

theorem outKeeps_suspensionLimit : OutKeeps s (execSuspensionLimit s) := by
  refine .run fun _ => ?_
  split
  · exact Keeps.refl.upd.trans keeps_suspEnd
  · exact .refl

/-! The chimney: links and frames (R478 to R484). -/

theorem outKeeps_linkUp {up : Bool} {peer : BitVec 3} {x8 : Bool} : OutKeeps s (execLinkUp up peer x8 s) :=
  .run fun _ => .ite .refl (.ite ((keeps_onPort.trans keeps_degradedCheck).trans keeps_retrainDone)
    keeps_linkRefused)

theorem outKeeps_linkDown {up : Bool} : OutKeeps s (execLinkDown up s) := by
  refine .run fun _ => ?_
  split
  · exact keeps_linkLost
  · exact keeps_linkLost
  · exact .refl

theorem outKeeps_chimneyFrame {up : Bool} {tag : Nat} {ok : Bool} :
    OutKeeps s (execChimneyFrame up tag ok s) :=
  .run fun _ => .ite .refl (keeps_through fun _ => .ite (keeps_onPort.trans keeps_answer)
    ((Keeps.refl.onChim.trans keeps_raise).trans (.ite keeps_linkLost keeps_onPort)))

theorem outKeeps_timeFrame {f : TimeFrame} : OutKeeps s (execTimeFrame f s) := by
  refine .run fun w => ?_
  extract_lets -underBinder f' off w1 w2 w3 w4 w5
  have learned : Keeps w w1 := keeps_learnMembers
  have reached : Keeps w1 w2 := .ite .refl (.trans (Keeps.refl.onChim) keeps_chimEvt)
  have synced : Keeps w2 w3 := keeps_sync.trans keeps_baseBack
  have safed : Keeps w3 w4 := .ite keeps_raise .refl
  have stepped : Keeps w4 w5 := by
    unfold w5
    split
    · exact .onChim .refl
    · exact .refl
  exact .ite .refl (learned.trans reached |>.trans synced |>.trans safed |>.trans stepped
      |>.trans (.ite keeps_send .refl))

theorem outKeeps_statusFrame {f : StatusFrame} : OutKeeps s (execStatusFrame f s) :=
  .run fun _ => .ite keeps_relayStatus (.ite .refl ((Keeps.refl.upd.trans (.ite .refl (keeps_chimEvt.trans
    (.ite keeps_inactive .refl)))).trans (.ite .refl keeps_rewritePattern)))

theorem outKeeps_baseReachTimeout : OutKeeps s (execBaseReachTimeout s) :=
  .run fun _ => .ite .refl ((Keeps.refl.onChim.trans keeps_chimEvt).trans (.ite (keeps_holdover.trans
    keeps_level) .refl))

theorem outKeeps_reachTimeout {pos : BitVec 3} : OutKeeps s (execReachTimeout pos s) :=
  .run fun _ => .ite .refl (Keeps.refl.upd.trans keeps_chimEvt |>.trans keeps_level
    |>.trans keeps_rewritePattern |>.trans keeps_dropForwards |>.trans keeps_dropRemotes)

/-! The image commands and the cutover (R442 to R456). -/

theorem outKeeps_imageVerifyComplete : OutKeeps s (execImageVerifyComplete s) :=
  .run fun _ => .ite .refl ((keeps_areaRead.trans keeps_onImg).trans keeps_finishAll)

theorem outKeeps_flashOperationComplete {dev : Fin 2} {thimble ok : Bool} :
    OutKeeps s (execFlashOperationComplete dev thimble ok s) := by
  refine .run fun w => ?_
  extract_lets -underBinder ok' w1
  have crossed : Keeps w w1 := .ite (.upd .refl) keeps_raise
  refine crossed.trans (.ite .refl ?_)
  split
  · exact .refl
  extract_lets -underBinder w2 w3 w4
  have erased : Keeps w1 w2 := keeps_onImg
  have ended : Keeps w2 w3 := .ite keeps_jobDone keeps_flashFail
  have begun : Keeps w3 w4 := by
    unfold w4
    split
    · exact keeps_beginJob
    · exact .refl
  exact erased.trans ended |>.trans begun |>.trans keeps_settleErase

theorem outKeeps_cutoverArmed : OutKeeps s (execCutoverArmed s) := by
  refine .run fun _ => ?_
  split
  · exact .refl
  · exact .ite .refl (keeps_copyNew.trans (.ite keeps_onImg (keeps_raise.trans keeps_endCutover)))

theorem outKeeps_cutoverBoundary : OutKeeps s (execCutoverBoundary s) := by
  refine .run fun _ => ?_
  split
  · exact .refl
  · exact .ite (Keeps.refl.upd.trans (keeps_stampMode rfl) |>.trans keeps_onImg
        |>.each fun _ _ => keeps_wakeLanes) .refl

theorem outKeeps_cutoverSwitch : OutKeeps s (execCutoverSwitch s) := by
  refine .run fun _ => ?_
  split
  · exact .refl
  · refine .ite (Keeps.refl.each (fun _ _ => ?_) |>.trans keeps_onImg |>.trans keeps_drainDue) .refl
    split
    · exact .refl
    · exact (keeps_carry.each fun _ _ => .upd .refl).trans (.upd .refl)

theorem outKeeps_switchDeadlineExpiry : OutKeeps s (execSwitchDeadlineExpiry s) := by
  refine .run fun _ => ?_
  split
  · exact .refl
  · exact .ite .refl ((Keeps.refl.upd.trans (keeps_stampMode (runMode_running _))).trans keeps_endCutover)

theorem outKeeps_cutoverCheckDeadline : OutKeeps s (execCutoverCheckDeadline s) := by
  refine .run fun w => ?_
  split
  · exact .refl
  refine .ite .refl ?_
  extract_lets -underBinder hs at_ tb next w1 due
  have later : Keeps w w1 := by
    unfold w1
    clear_value next
    split
    · exact .refl
    · exact .upd .refl
  refine later.trans ?_
  split
  · exact .ite keeps_cutDone .refl
  · exact keeps_cutFail

theorem outKeeps_cutoverFallback : OutKeeps s (execCutoverFallback s) := by
  refine .run fun _ => ?_
  split
  · exact .refl
  · exact .ite (Keeps.refl.upd.trans (keeps_stampMode (runMode_running _)) |>.trans keeps_fallback |>.trans keeps_raise) .refl

theorem outKeeps_attestComplete : OutKeeps s (execAttestComplete s) := by
  refine .run fun _ => ?_
  split
  · exact .refl
  · exact .ite (keeps_internal.trans keeps_finish) (keeps_stageHead.trans keeps_draw
        |>.trans keeps_cryptoUse |>.trans keeps_finish)

theorem outKeeps_sessionOpenComplete : OutKeeps s (execSessionOpenComplete s) := by
  refine .run fun _ => ?_
  split
  · exact .refl
  · refine .ite keeps_finish (.ite keeps_finish (.ite keeps_finish ?_))
    split
    · exact keeps_finish
    · exact .ite keeps_finish (.ite keeps_finish (.ite (keeps_internal.trans keeps_finish)
          keeps_openSession))

theorem outKeeps_sessionExpiry {id : Word32} : OutKeeps s (execSessionExpiry id s) := by
  refine .run fun _ => ?_
  split
  · exact Keeps.refl.upd.trans keeps_endSession
  · exact .refl

/-! The lane commands (R113 to R118). -/

theorem outKeeps_startupTestComplete {h : HearthId} {r : StartupResult} :
    OutKeeps s (execStartupTestComplete h r s) :=
  .run fun _ => .ite (.ite .refl keeps_startupTest.upd) (.ite .refl (keeps_startupTest.trans keeps_loadHearth
    |>.each (fun _ _ => .ite keeps_startCore .refl) |>.trans keeps_finishAll |>.trans keeps_settleRun))

theorem outKeeps_scanOpenComplete : OutKeeps s (execScanOpenComplete s) := by
  refine .run fun _ => ?_
  split
  · exact .refl
  · exact keeps_zeroise.upd.trans (keeps_raise.trans keeps_finish)

/-! The Thimble's kernel (R409 to R415). -/

theorem outKeeps_thmReset : OutKeeps s (execThmReset s) := by
  refine .runFuse fun w => ?_
  extract_lets -underBinder w1 lc w2 w3
  have key : Blows w w1 := by
    unfold w1
    split
    · exact .refl
    · split
      next e => exact (keeps_fresh.snd e).blows.trans (blows_fuse ⟨rfl, rfl, id, id, rfl⟩)
  have lost : Keeps w1 w2 := keeps_onThm
  have stored : Keeps w2 w3 := by
    unfold w3
    split
    · exact keeps_onThm
    · exact .refl
  exact .ite .refl ((key.keeps lost).keeps (.ite (keeps_onThm.trans keeps_notices)
    (stored.trans (((keeps_pickSlot.trans keeps_genesis).trans keeps_thmPage).trans keeps_notices))))

theorem outKeeps_thmBootComplete {r : ThmBoot} : OutKeeps s (execThmBootComplete r s) :=
  .run fun _ => .ite ((keeps_onThm.trans keeps_thmPage).trans keeps_notices) (.ite
    (keeps_onThm.trans keeps_notices) .refl)

theorem outKeeps_thmRstNLow : OutKeeps s (execThmRstNLow s) := by
  refine .runFuse fun w => ?_
  extract_lets -underBinder w1
  have cut : Blows w w1 := by
    unfold w1
    split
    · exact blows_commitCut
    · exact .refl
  exact .ite (cut.keeps ((keeps_endGate.trans keeps_onThm).trans keeps_notices)) .refl

theorem outKeeps_lifecycleSensed : OutKeeps s (execLifecycleSensed s) :=
  .run fun _ => .ite ((keeps_onThm.trans keeps_thmPage).trans keeps_notices) .refl

theorem outKeeps_recordSubmit {ty point : Byte} {flags : BitVec 6} {ps : Payload} :
    OutKeeps s (execRecordSubmit ty point flags ps s) :=
  .run fun _ => .ite ((keeps_onThm.trans keeps_thmPage).trans keeps_notices) .refl

theorem outKeeps_signingTimer : OutKeeps s (execSigningTimer s) := by
  refine .run fun _ => ?_
  dsimp only
  split
  · exact .ite ((Keeps.refl.upd.trans keeps_onThm).trans keeps_thmPage) .refl
  · exact .refl

theorem outKeeps_signingComplete : OutKeeps s (execSigningComplete s) := by
  refine .run fun _ => ?_
  dsimp only
  split
  · exact .refl
  · exact .ite .refl (.ite keeps_onThm (keeps_fresh.trans keeps_onThm |>.trans keeps_thmPage
        |>.trans keeps_notices))

theorem outKeeps_gateAnswer : OutKeeps s (execGateAnswer s) := by
  refine .run fun _ => ?_
  split
  · exact keeps_publish.trans keeps_thmPage
  · exact .refl

theorem outKeeps_gateTimeout : OutKeeps s (execGateTimeout s) := by
  refine .run fun _ => ?_
  split
  · exact .ite ((keeps_publish.trans keeps_noticeEvent).trans keeps_thmPage) .refl
  · exact .refl

theorem outKeeps_thmRecordForward : OutKeeps s (execThmRecordForward s) := by
  refine .run fun _ => ?_
  dsimp only
  split
  · exact .refl
  · refine .ite .refl ?_
    split
    · exact .ite (keeps_onThm.trans keeps_noticeEvent) .refl
    · exact .ite (Keeps.ite (keeps_onThm.trans keeps_noticeEvent) .refl |>.trans keeps_sendPacket
          |>.trans keeps_onThm) ((Keeps.ite (keeps_onThm.trans keeps_noticeEvent) .refl).trans
          keeps_sendPacket)

/-! A request on the device's bus (R23 to R26). -/

theorem outKeeps_registerWrite {m : Rid} {addr : Addr} {size : Nat} {v : Word32} :
    OutKeeps s (execRegisterWrite m addr size v s) :=
  .run fun _ => keeps_powered fun _ => .ite .refl (keeps_access.trans keeps_respond)

theorem outKeeps_debugAccess {addr : Addr} {wr : Option Word32} : OutKeeps s (execDebugAccess addr wr s) :=
  .run fun _ => .ite .refl ((keeps_wakeDom.trans (.iteSnd keeps_access (.pair keeps_raiseAddr))).trans
    keeps_respond)

theorem outKeeps_windowRequest {q : WinReq} : OutKeeps s (execWindowRequest q s) := by
  refine .run fun _ => keeps_powered fun w => ?_
  extract_lets -underBinder a r
  split
  · exact .refl
  refine .ite .refl ?_
  split
  next x w1 e =>
  have served : Keeps w w1 := by
    refine .of_snd e (.iteSnd keeps_access (.iteSnd (Keeps.trans ?_ keeps_remoteAnswer) .refl))
    split
    · exact keeps_writePieces
    · exact keeps_readPieces
  exact served.trans keeps_respond

theorem outKeeps_windowResponse {n : Nat} {ok : Bool} {v : Word64} :
    OutKeeps s (execWindowResponse n ok v s) := by
  refine .run fun _ => ?_
  split
  · exact .refl
  · exact .ite .refl (Keeps.refl.onChim.trans (.ite keeps_remoteError (.ite keeps_answer keeps_answer)))

/-! The mode, grant and session commands (R41, R81, R453). -/

theorem outKeeps_grantExpiry {id : Word32} : OutKeeps s (execGrantExpiry id s) := by
  refine .run fun _ => ?_
  split
  · exact Keeps.refl.upd.trans keeps_endGrant
  · exact .refl

/-! The bodies of the command packets (R68 to R75). -/

theorem outKeeps_forwardedReply {pos : BitVec 3} {seq status : BitVec 16} {final : Bool} {mode : BitVec 4}
    {result : List Word32} {origin : Nat} :
    OutKeeps s (execForwardedReply pos seq status final mode result s origin) := by
  refine .run fun _ => ?_
  split
  · exact .refl
  · exact (Keeps.ite (.onChim .refl) .refl).trans (.ite .refl (.ite keeps_deliver
        (keeps_deliver.trans keeps_store)))

/-! The host ports (R62 to R65, R499). -/

theorem outKeeps_hostRead {bar2 : Bool} {off : Word32} {size : Nat} :
    OutKeeps s (execHostRead bar2 off size s) :=
  .run fun _ => keeps_onHost fun _ => keeps_through fun _ => keeps_through fun _ => .ite
    (keeps_readPieces.trans keeps_respond) (.ite keeps_answer .refl)

theorem outKeeps_hostWrite {bar2 : Bool} {off : Word32} {bytes : List Byte} :
    OutKeeps s (execHostWrite bar2 off bytes s) :=
  .run fun _ => keeps_onHost fun _ => keeps_through fun _ => .ite (keeps_writePieces.trans keeps_answer)
    (.ite (keeps_bar0Write.trans keeps_answer) .refl)

theorem outKeeps_configurationRequest {off : BitVec 12} {wr : Option Word32} :
    OutKeeps s (execConfigurationRequest off wr s) := by
  refine .run fun _ => .ite .refl ?_
  split
  · exact keeps_answer
  · exact (Keeps.ite (.upd .refl) (.ite (.upd .refl) .refl)).trans keeps_answer

theorem outKeeps_mspiReadReply {complete : Bool} : OutKeeps s (execMspiReadReply complete s) := by
  refine .run fun _ => keeps_mspi fun _ => ?_
  split
  · exact .refl
  · exact .pair (.upd .refl)

/-! The field ports (R386 to R388, R500 to R512). -/

theorem outKeeps_ethFrameReceive {mac : Fin 2} {f : EthFrame} : OutKeeps s (execEthFrameReceive mac f s) := by
  refine .run fun _ => .ite .refl (keeps_through fun _ => ?_)
  split
  · exact .ite keeps_sync .refl
  · exact .ite (.ite .refl keeps_onPorts) (keeps_fresh.trans keeps_receive)
  · exact .refl
  · exact keeps_receive

theorem outKeeps_ethFrameTransmit {mac : Fin 2} : OutKeeps s (execEthFrameTransmit mac s) := by
  refine .run fun _ => .ite .refl (keeps_through fun _ => ?_)
  split
  · next e => exact keeps_transmit.snd e
  · next e => exact .ite ((keeps_transmit.snd e).trans keeps_dropCount) ((keeps_transmit.snd e).trans
      keeps_onPorts)

theorem outKeeps_canFrameTransmit {c : Fin 8} : OutKeeps s (execCanFrameTransmit c s) := by
  refine .run fun _ => .ite (keeps_through fun _ => ?_) .refl
  split
  · next e => exact (keeps_transmit.snd e).trans keeps_onPorts
  · next e => exact keeps_transmit.snd e

theorem outKeeps_gpioEdge {pin : Fin 128} {level : Bool} : OutKeeps s (execGpioEdge pin level s) :=
  .run fun _ => .ite .refl (keeps_through fun _ => keeps_onPorts.each fun _ _ => keeps_interrupt)

theorem outKeeps_bfifoPointerFault {n : Fin 30} : OutKeeps s (execBfifoPointerFault n s) :=
  .run fun _ => .ite .refl (Keeps.refl.upd.trans keeps_onPorts
    |>.trans (.ite (keeps_onPorts.trans (.ite keeps_level .refl)) (.ite (.ite keeps_linkLost .refl) .refl))
    |>.trans keeps_raise)

/-! The requests of the Thimble's gate (R416 to R424). -/

theorem outKeeps_thmStart {fw : FwAnswer} : OutKeeps s (execThmStart fw s) :=
  .run fun _ => keeps_gateRow fun _ _ => keeps_fwDecides fun _ _ => keeps_onThm.trans keeps_gateAccept

theorem outKeeps_thmStop {fw : FwAnswer} : OutKeeps s (execThmStop fw s) :=
  .run fun _ => keeps_gateRow fun _ _ => keeps_fwDecides fun _ _ => keeps_onThm.trans keeps_gateAccept

theorem outKeeps_presetTare {fw : FwAnswer} : OutKeeps s (execPresetTare fw s) :=
  .run fun _ => keeps_gateRow fun _ _ => keeps_fwDecides fun _ _ => keeps_gateAccept

theorem outKeeps_clearTare {fw : FwAnswer} : OutKeeps s (execClearTare fw s) :=
  .run fun _ => keeps_gateRow fun _ _ => keeps_fwDecides fun _ _ => keeps_gateAccept

theorem outKeeps_batchOpen {fw : FwAnswer} : OutKeeps s (execBatchOpen fw s) :=
  .run fun _ => keeps_gateRow fun _ _ => keeps_fwDecides fun _ _ => keeps_onThm.trans keeps_gateAccept

theorem outKeeps_batchClose {fw : FwAnswer} : OutKeeps s (execBatchClose fw s) :=
  .run fun _ => keeps_gateRow fun _ _ => keeps_fwDecides fun _ _ => (keeps_gateAccept.trans keeps_onThm).trans
    keeps_thmPage

theorem outKeeps_paramWrite {fw : FwAnswer} : OutKeeps s (execParamWrite fw s) :=
  .run fun _ => keeps_gateRow fun _ _ => keeps_fwDecides fun _ _ => keeps_onThm.trans keeps_gateAnswer

theorem outKeeps_paramCommit {fw : FwAnswer} : OutKeeps s (execParamCommit fw s) :=
  .runFuse fun _ => around_gateRow around_blows fun _ _ => around_fwDecides around_blows fun _ _ => blows_storeParams.keeps <| keeps_onThm
    |>.trans keeps_onThm |>.trans keeps_gateAnswer

theorem outKeeps_imageActivate : OutKeeps s (execImageActivate s) := by
  refine .runFuse fun _ => around_gateRow around_blows fun _ x => ?_
  refine Blows.keeps (Blows.trans (.ite ?_ .refl) blows_storeParams) (keeps_gateAccept.trans keeps_thmRestart)
  split
  next n v e =>
  have key : Blows v { v with fuse := { v.fuse with recordKey := some n } } := blows_fuse ⟨rfl, rfl, id, id, rfl⟩
  exact (keeps_fresh.snd e).blows.trans (key.trans blows_auditStep)

/-! The rows of the hobs (R189 to R200). -/

theorem outKeeps_hobAccess {u : UnitId} {waiting : List HobReq} : OutKeeps s (execHobAccess u waiting s) := by
  refine .run fun _ => keeps_powered fun w => ?_
  extract_lets -underBinder h qs
  split
  · exact .refl
  extract_lets -underBinder others news w1 w2
  have turn : Keeps w w2 := Keeps.refl.upd.trans keeps_conflict
  split
  next e =>
  exact (turn.trans (keeps_hobPerform.snd e)).trans (keeps_granted.trans (.ite .refl keeps_respond))

theorem outKeeps_imageChannelComplete {h : HearthId} {ch : Fin 16} {halted : Bool} :
    OutKeeps s (execImageChannelComplete h ch halted s) := by
  refine .run fun w => ?_
  extract_lets -underBinder c isIn
  refine .ite .refl ?_
  split
  next r k w1 e =>
  have moved : Keeps w w1 := by
    split at e
    · cases e; exact .refl
    split at e
    · cases e; exact keeps_dmaIn
    · have h := keeps_dmaOut (w := w) (h := h) (c := c)
      rw [e] at h
      exact h
  extract_lets -underBinder w2
  refine moved.trans (Keeps.trans (b := w2) (.upd .refl) ?_)
  split
  · exact keeps_chanHeld
  · exact keeps_chanHalt.trans keeps_interruptHearth
  · exact Keeps.trans (.ite keeps_inputDone (.upd .refl)) keeps_interruptHearth

/-! Start-up: KINDLE (R41, R50 to R54). -/

theorem outKeeps_stokerRestartComplete : OutKeeps s (execStokerRestartComplete s) :=
  .run fun _ => .ite (Keeps.ite .refl keeps_startStokerCode |>.upd
    |>.each fun _ _ => .ite keeps_inactive .refl) .refl

/-! How a core runs code (R145 to R149). -/

theorem outKeeps_interruptEntry {c : CoreId} {late : List Nat} :
    OutKeeps s (execInterruptEntry c late s) := by
  refine .run fun _ => keeps_issueSerial fun _ => .ite .refl ?_
  split
  · exact .refl
  · exact Keeps.refl.upd.trans (Keeps.refl.upd.trans keeps_enter)

/-! Loads and stores of a core (R136, R137). -/

theorem outKeeps_atomic {c : CoreId} {rd ra rb : Reg} {fn : BitVec 11} {wait : Bool} :
    OutKeeps s (execAtomic c rd ra rb fn s wait) :=
  .run fun _ => keeps_issueSerial fun _ => .ite keeps_raiseTrap (.ite .refl (.ite
    (keeps_pageMisuse.trans keeps_raiseTrap) (.ite keeps_raiseTrap keeps_startLoad)))

theorem outKeeps_loadResponse {c : CoreId} {linkOk : Bool} {stall idx : Nat} :
    OutKeeps s (execLoadResponse c linkOk stall s idx) := by
  refine .run fun _ => ?_
  dsimp only
  split
  · exact .refl
  · exact .ite .refl ((Keeps.refl.upd.trans (.iteSnd .refl keeps_loadAccess)).trans keeps_response)

theorem outKeeps_storeAccept {c : CoreId} {linkOk : Bool} {stall : Nat} :
    OutKeeps s (execStoreAccept c linkOk s stall) := by
  refine .run fun w => ?_
  split
  · exact .refl
  extract_lets -underBinder es n m pop a
  have popped (v : W) : Keeps v (pop v) := .upd .refl
  have told (v : W) (x : Nat) : Keeps v ((pop v).storeNotice c x) := (popped v).trans keeps_storeNotice
  refine .ite .refl (.ite ((told w 1).trans keeps_raise) ?_)
  split
  · next e => exact (keeps_admitParts.snd e).trans (told _ _)
  · next e =>
    refine (keeps_admitParts.snd e).trans (.ite (.ite (popped _) (told _ _)) ?_)
    refine .ite (popped _ |>.trans keeps_linkCheck |>.trans keeps_storeNotice) ?_
    split
    · next e => exact keeps_writeStores.snd e
    · next e => exact (keeps_writeStores.snd e).trans (told _ _)
    · next e => exact (keeps_writeStores.snd e).trans (popped _)

/-! The system instructions (R147, R150 to R156). -/

theorem outKeeps_syncF {c : CoreId} : OutKeeps s (execSyncF c s) :=
  .run fun _ => keeps_issueSerial fun _ => .ite (keeps_runArch.trans keeps_dropFetch) .refl

theorem outKeeps_syncC {c : CoreId} : OutKeeps s (execSyncC c s) :=
  .run fun _ => keeps_privileged fun _ => (keeps_runArch.trans keeps_applySync).trans keeps_dropFetch

theorem outKeeps_wait {c : CoreId} : OutKeeps s (execWait c s) :=
  .run fun _ => keeps_privileged fun _ => keeps_runArch.trans (.ite (Keeps.refl.upd.upd.trans keeps_wakeLanes)
    (.ite .refl (.upd .refl)))

theorem outKeeps_coreWake {c : CoreId} : OutKeeps s (execCoreWake c s) :=
  .run fun _ => .ite (Keeps.refl.upd.trans keeps_wakeLanes |>.trans keeps_wakeHob
    |>.trans keeps_takeDebug) .refl

theorem outKeeps_bkpt {c : CoreId} : OutKeeps s (execBkpt c s) :=
  .run fun _ => keeps_issueSerial fun _ => keeps_runArch.trans (.ite (Keeps.refl.upd.trans keeps_takeDebug)
    keeps_enterTrap)

theorem outKeeps_debugHaltRequest {c : CoreId} : OutKeeps s (execDebugHaltRequest c s) :=
  .run fun _ => .ite keeps_debugDenied (.ite (Keeps.refl.upd.trans keeps_takeDebug) .refl)

theorem outKeeps_rethreadComplete {c : CoreId} {r : RethreadEnd} {seamOk : Bool} :
    OutKeeps s (execRethreadComplete c r seamOk s) :=
  .run fun _ => (keeps_rethreadEnd.trans keeps_resumed).trans keeps_takeDebug

theorem outKeeps_rethreadTimerExpiry {c : CoreId} : OutKeeps s (execRethreadTimerExpiry c s) :=
  .run fun _ => (keeps_rethreadTimeout.trans keeps_resumed).trans keeps_takeDebug

/-! A routed token (R98). -/

theorem outKeeps_routedToken {u : UnitId} {m : Rid} {write ok : Bool} :
    OutKeeps s (execRoutedToken u m write ok s) :=
  .run fun _ => .ite .refl ((keeps_routerFault.trans (.ite keeps_linkError (.ite keeps_linkError
    (.ite keeps_chanHalt .refl)))).trans keeps_answer)

/-! The dispatch. -/

/-- A packet for no opcode of the table, or for another position, blows no fuse. -/
theorem outKeeps_packet {c : W → Prop} [∀ w, Decidable (c w)] {objs : W → Nat → Packet → List Obj}
    {opc : Half} {x : Packet} :
    OutKeeps s (Machine.run s fun w => if c w then w.take (objs w) opc x (bodyOf opc.toNat) else w) := by
  refine .runDamp fun w ok => ?_
  split
  · exact (moves_iff.mp (around_take around_moves opcAround_bodyOf)).2.2 ok
  · exact ok

/-- After a reset no channel is live. -/
theorem dampOk_fresh {d : Dev} (h : d.dampers = ⟨[]⟩) : DampOk d := by
  refine fun _ n _ => ?_
  rw [Dev.damper, h]
  exact not_hot nofun nofun

theorem dampOk_deviceReset (w : W) : DampOk w.deviceReset.dev := dampOk_fresh rfl

theorem outKeeps_resetNLow : OutKeeps s (execResetNLow s) :=
  .runDamp fun w ok => by split; exacts [ok, dampOk_deviceReset w]

theorem outKeeps_vcaTurnOn : OutKeeps s (execVcaTurnOn s) :=
  .runDamp fun w ok => by
    split
    · exact dampOk_fresh rfl
    · exact ok

theorem outKeeps_vcaBrownOut : OutKeeps s (execVcaBrownOut s) :=
  .runDamp fun w ok => by split; exacts [ok, dampOk_fresh rfl]

theorem outKeeps_resetNHigh {pos : BitVec 3} : OutKeeps s (execResetNHigh pos s) := by
  refine .run fun w => ?_
  split
  · next hold =>
    dsimp only
    have strapped : Keeps w (w.upd fun d => { d with chim := { d.chim with pos := pos } }) := .upd .refl
    have calm : (w.upd fun d => { d with chim := { d.chim with pos := pos } }).dev.sys.mode.running = false := by
      change w.dev.sys.mode.running = false
      rw [hold]
      rfl
    refine strapped.trans (.ite ?_ .refl)
    exact (keeps_stampMode_calm calm).upd
  · exact .refl

theorem outKeeps_idle : OutKeeps s (idle s) := by
  refine .runDamp fun w ok => ?_
  have ticked : Keeps w w.tickTb := keeps_tickTb
  unfold W.idle
  dsimp only
  split
  · exact dampOk_deviceReset _
  · exact (keeps_iff.mp (ticked.trans (keeps_ringDue.trans (keeps_writeBacks.trans keeps_dramBacks)))).2 ok

/-- A STARTING channel goes LIVE, and no other. -/
theorem keeps_goLive {n : Nat} : Keeps w (if (w.dev.damper n).st = .starting then
    w.upd fun d => d.onDamper n fun c => { c with st := .live, settling := true } else w) := by
  split
  · next starting =>
    refine keeps_iff.mpr ⟨rfl, fun ok mode k hk => ?_⟩
    by_cases e : k = n
    · exact absurd (Or.inr (e ▸ starting)) (ok mode k hk)
    · change ¬ Damper.hot (Dev.damper (Dev.onDamper _ _ _) k)
      rw [damper_onDamper, if_neg e]
      exact ok mode k hk
  · exact .refl

/-- No command but those of a life-cycle token moves the life cycle, and none breaks the rule of the channels. -/
theorem outKeeps_exec {i : Instr} (token : ∀ p, i ≠ .lcToken p) (start : ∀ n, i ≠ .pendingCommandStart n) :
    OutKeeps s (exec i s) := by
  unfold exec
  cases i with
  | vcaTurnOn => exact outKeeps_vcaTurnOn
  | vcaBrownOut => exact outKeeps_vcaBrownOut
  | resetNLow => exact outKeeps_resetNLow
  | resetNHigh pos => exact outKeeps_resetNHigh
  | kindleStepComplete => exact .runFuse fun _ => .ite blows_kindle .refl
  | cmdTailWrite => exact .run fun _ => keeps_onHost fun _ => keeps_cmdTailWrite
  | replyTailWrite => exact .run fun _ => keeps_onHost fun _ => keeps_replyTailWrite
  | ringReset => exact .run fun _ => keeps_onHost fun _ => keeps_ringResetWrite
  | apertureWrite => exact .run fun _ => keeps_onHost fun _ => keeps_apertureWrite
  | unknownOpcode => exact outKeeps_packet
  | commandForward => exact outKeeps_packet
  | forwardedReply => exact outKeeps_forwardedReply
  | pendingCommandStart n => exact absurd rfl (start n)
  | deviceReset => exact .command fun _ _ => resKeeps_cmdDeviceReset
  | runStart => exact .command fun _ _ => resKeeps_cmdRunStart
  | runStop => exact .command fun _ _ => resKeeps_cmdRunStop
  | dozeEnter => exact .command fun _ _ => resKeeps_cmdDozeEnter
  | dozeEntry => exact .run fun _ => .ite (Keeps.refl.upd.trans keeps_setMode) .refl
  | maintainEnter => exact .command fun _ _ => resKeeps_cmdMaintainEnter
  | maintainExit => exact .command fun _ _ => resKeeps_cmdMaintainExit
  | nop => exact .command fun _ _ => resKeeps_cmdNop
  | timeStatus => exact .command fun _ _ => resKeeps_cmdTimeStatus
  | timeStep => exact .command fun _ _ => resKeeps_cmdTimeStep
  | configBegin => exact .command fun _ _ => resKeeps_cmdConfigBegin
  | configWrite => exact .command fun _ _ => resKeeps_cmdConfigWrite
  | configCommit => exact .command fun _ _ => resKeeps_cmdConfigCommit
  | configAbort => exact .command fun _ _ => resKeeps_cmdConfigAbort
  | laneStatus => exact .command fun _ _ => resKeeps_cmdLaneStatus
  | laneFence => exact .command fun _ _ => resKeeps_cmdLaneFence
  | laneRetest => exact .command fun _ _ => resKeeps_cmdLaneRetest
  | coreRestart => exact .command fun _ _ => resKeeps_cmdCoreRestart
  | hearthReset => exact .command fun _ _ => resKeeps_cmdHearthReset
  | loopLoad => exact .command fun _ _ => resKeeps_cmdLoopLoad
  | loopParam => exact .command fun _ _ => resKeeps_cmdLoopParam
  | loopMode => exact .command fun _ _ => resKeeps_cmdLoopMode
  | loopResume => exact .command fun _ _ => resKeeps_cmdLoopResume
  | loopStatus => exact .command fun _ _ => resKeeps_cmdLoopStatus
  | loopImageBind => exact .command fun _ _ => resKeeps_cmdLoopImageBind
  | loopExtWrite => exact .command fun _ _ => resKeeps_cmdLoopExtWrite
  | bellowsStatus => exact .command fun _ _ => resKeeps_cmdBellowsStatus
  | bellowsCountClear => exact .command fun _ _ => resKeeps_cmdBellowsCountClear
  | loopInject => exact .command fun _ _ => resKeeps_cmdLoopInject
  | schedLoad => exact .command fun _ _ => resKeeps_cmdSchedLoad
  | schedSwap => exact .command fun _ _ => resKeeps_cmdSchedSwap
  | schedStatus => exact .command fun _ _ => resKeeps_cmdSchedStatus
  | schedCheck => exact .command fun _ _ => resKeeps_cmdSchedCheck
  | memStatus => exact .command fun _ _ => resKeeps_cmdMemStatus
  | memLogRead => exact .command fun _ _ => resKeeps_cmdMemLogRead
  | memScrub => exact .command fun _ _ => resKeeps_cmdMemScrub
  | memRetire => exact .command fun _ _ => resKeeps_cmdMemRetire
  | memRetireList => exact .command fun _ _ => resKeeps_cmdMemRetireList
  | memRepairAdd => exact .command fun _ _ => resKeeps_cmdMemRepairAdd
  | memRepairList => exact .command fun _ _ => resKeeps_cmdMemRepairList
  | memInject => exact .command fun _ _ => resKeeps_cmdMemInject
  | memConfig => exact .command fun _ _ => resKeeps_cmdMemConfig
  | memFill => exact .command fun _ _ => resKeeps_cmdMemFill
  | hobStatus => exact .command fun _ _ => resKeeps_cmdHobStatus
  | hobCountClear => exact .command fun _ _ => resKeeps_cmdHobCountClear
  | fwStatus => exact .command fun _ _ => resKeeps_cmdFwStatus
  | fwViolClear => exact .command fun _ _ => resKeeps_cmdFwViolClear
  | queueSet => exact .command fun _ _ => resKeeps_cmdQueueSet
  | queueStatus => exact .command fun _ _ => resKeeps_cmdQueueStatus
  | queueFlush => exact .command fun _ _ => resKeeps_cmdQueueFlush
  | poolStatus => exact .command fun _ _ => resKeeps_cmdPoolStatus
  | queueBind => exact .command fun _ _ => resKeeps_cmdQueueBind
  | flueStatus => exact .command fun _ _ => resKeeps_cmdFlueStatus
  | flueHistoryRead => exact .command fun _ _ => resKeeps_cmdFlueHistoryRead
  | lockoutReset => exact .command fun _ _ => resKeeps_cmdLockoutReset
  | errpinRelease => exact .command fun _ _ => resKeeps_cmdErrpinRelease
  | flueRelease => exact .command fun _ _ => resKeeps_cmdFlueRelease
  | flueTest => exact .command fun _ _ => resKeeps_cmdFlueTest
  | flueEventsRead => exact .command fun _ _ => resKeeps_cmdFlueEventsRead
  | flueActive => exact .command fun _ _ => resKeeps_cmdFlueActive
  | wdtStatus => exact .command fun _ _ => resKeeps_wdtStatus
  | pwrStatus => exact .command fun _ _ => resKeeps_cmdPwrStatus
  | pwrLevel => exact .command fun _ _ => resKeeps_cmdPwrLevel
  | pwrVote => exact .command fun _ _ => resKeeps_cmdPwrVote
  | padRelease => exact .command fun _ _ => resKeeps_cmdPadRelease
  | pwrDomainStatus => exact .command fun _ _ => resKeeps_cmdPwrDomainStatus
  | pwrCountClear => exact .command fun _ _ => resKeeps_cmdPwrCountClear
  | imageStatus => exact .command fun _ _ => resKeeps_cmdImageStatus
  | imageStageBegin => exact .command fun _ _ => resKeeps_cmdStageBegin
  | imageStageChunk => exact .command fun _ _ => resKeeps_cmdStageChunk
  | imageVerify => exact .command fun _ _ => resKeeps_cmdImageVerify
  | imageDiscard => exact .command fun _ _ => resKeeps_cmdImageDiscard
  | imagePersist => exact .command fun _ _ => resKeeps_cmdImagePersist
  | cutover => exact .command fun _ _ => resKeeps_cmdCutover
  | cutoverStatus => exact .command fun _ _ => resKeeps_cmdCutoverStatus
  | attest => exact .command fun _ _ => resKeeps_cmdAttest
  | expertGrant => exact .command fun _ _ => resKeeps_cmdExpertGrant
  | grantRelease => exact .command fun _ _ => resKeeps_cmdGrantRelease
  | expertLogRead => exact .command fun _ _ => resKeeps_cmdExpertLogRead
  | lcNonceGet => exact .command fun _ _ => resKeeps_cmdLcNonceGet
  | lcToken p => exact absurd rfl (token p)
  | sessionCfg => exact .command fun _ _ => resKeeps_cmdSessionCfg
  | sessionOpen => exact .command fun _ _ => resKeeps_cmdSessionOpen
  | sessionClose => exact .command fun _ _ => resKeeps_cmdSessionClose
  | sessionStatus => exact .command fun _ _ => resKeeps_cmdSessionStatus
  | thmStatus => exact .command fun _ _ => resKeeps_cmdThmStatus
  | thmGate => exact .command fun _ _ => resKeeps_cmdThmGate
  | thmForward => exact .command fun _ _ => resKeeps_cmdThmForward
  | thmSlotErase => exact .command fun _ _ => resKeeps_cmdThmSlotErase
  | thmSlotWrite => exact .command fun _ _ => resKeeps_cmdThmSlotWrite
  | chimneyStatus => exact .command fun _ _ => resKeeps_cmdChimneyStatus
  | chimneySet => exact .command fun _ _ => resKeeps_cmdChimneySet
  | chimneyRetrain => exact .command fun _ _ => resKeeps_cmdChimneyRetrain
  | dampStatus => exact .command fun _ _ => resKeeps_cmdDampStatus
  | fioStatus => exact .command fun _ _ => resKeeps_cmdFioStatus
  | basteStatus => exact .command fun _ _ => resKeeps_cmdBasteStatus
  | basteResults => exact .command fun _ _ => resKeeps_cmdBasteResults
  | basteNow => exact .command fun _ _ => resKeeps_cmdBasteNow
  | scanOpen => exact .command fun _ _ => resKeeps_cmdScanOpen
  | traceStatus => exact .command fun _ _ => resKeeps_cmdTraceStatus
  | mspiWriteCmd => exact .run fun _ => keeps_mspi fun _ => .pair (.ite (.upd .refl) .refl)
  | mspiReadReply => exact outKeeps_mspiReadReply
  | mspiReadPoll => exact .run fun _ => keeps_mspi fun _ => .refl
  | mspiReadPattern => exact .run fun _ => keeps_mspi fun _ => .refl
  | mspiStatus => exact .run fun _ => keeps_mspi fun _ => .pair (.upd .refl)
  | commit => exact .run fun _ => keeps_blockWrite fun _ => keeps_commitWrite
  | commitPoint => exact .run fun _ => .ite (keeps_commitPoint.trans keeps_txnSettle) .refl
  | stageDiscard => exact .run fun _ => keeps_blockWrite fun _ => .ite keeps_stageDiscard .refl
  | registerWrite => exact outKeeps_registerWrite
  | pollRefresh => exact .run fun _ => .ite .refl (.upd .refl)
  | laneCmdFence => exact .run fun _ => keeps_writeRow fun _ => keeps_laneCmd
  | laneCmdRetest => exact .run fun _ => keeps_writeRow fun _ => keeps_laneCmd
  | arm => exact .run fun _ => keeps_writeRow fun _ => keeps_chCmd
  | energise => exact outKeeps_energise
  | deEnergise => exact .run fun _ => keeps_writeRow fun _ => keeps_chCmd
  | armExpiry => exact outKeeps_armExpiry
  | damperPeriodBoundary => exact .run fun _ => Keeps.refl.upd.each fun _ _ => keeps_goLive
  | damperMismatch => exact .run fun _ => .ite keeps_damperMismatch .refl
  | rbSettleExpiry => exact outKeeps_rbSettleExpiry
  | faultDetection => exact outKeeps_faultDetection
  | levelSourceInactive => exact outKeeps_levelSourceInactive
  | reactionComplete => exact .run fun _ => (Keeps.refl.each fun _ _ => .onDamper .refl fun _ c hot => by
      split at hot <;> exact hot).upd
  | intakeTake => exact outKeeps_intakeTake
  | eventRingEnqueue => exact outKeeps_eventRingEnqueue
  | spillMove => exact outKeeps_spillMove
  | cfgSweep => exact outKeeps_cfgSweep
  | safeExit => exact .run fun _ => .ite (.ite keeps_setMode keeps_setMode) .refl
  | lockoutRecordWritten => exact .run fun _ => .ite (.upd .refl) .refl
  | quietPeriodExpiry => exact outKeeps_quietPeriodExpiry
  | recoveryEntryExpiry => exact outKeeps_recoveryEntryExpiry
  | localQuietExpiry => exact outKeeps_localQuietExpiry
  | errpinHoldExpiry => exact outKeeps_errpinHoldExpiry
  | opResetDebounced => exact .run fun _ => .upd .refl
  | opResetStuck => exact .run fun _ => .ite (Keeps.refl.upd.trans keeps_level) .refl
  | refclkLoss => exact outKeeps_refclkLoss
  | wdtKeyWrite => exact .run fun _ => keeps_ctlWrite
  | wdtCheckin => exact .run fun _ => keeps_ctlWrite
  | windowClose => exact .run fun _ => .ite (Keeps.refl.upd.trans keeps_expire) .refl
  | hardTimerExpiry => exact outKeeps_hardTimerExpiry
  | reqLimitExpiry => exact .run fun _ => .ite (Keeps.refl.upd.trans keeps_expire) .refl
  | suspensionLimit => exact outKeeps_suspensionLimit
  | commitToken => exact outKeeps_commitToken
  | requestToken => exact outKeeps_requestToken
  | stragglerWindowExpiry => exact outKeeps_stragglerWindowExpiry
  | stallMonitorExpiry => exact outKeeps_stallMonitorExpiry
  | seamCheck => exact .run fun _ => keeps_haltCore
  | routedToken => exact outKeeps_routedToken
  | rethreadComplete => exact outKeeps_rethreadComplete
  | rethreadTimerExpiry => exact outKeeps_rethreadTimerExpiry
  | fenceWindowExpiry => exact outKeeps_fenceWindowExpiry
  | stokerRestartComplete => exact outKeeps_stokerRestartComplete
  | interruptEntry => exact outKeeps_interruptEntry
  | trapEntry => exact .run fun _ => .ite keeps_enterTrap .refl
  | add => exact .run fun _ => keeps_op3
  | sub => exact .run fun _ => keeps_op3
  | and_ => exact .run fun _ => keeps_op3
  | or_ => exact .run fun _ => keeps_op3
  | xor => exact .run fun _ => keeps_op3
  | shl => exact .run fun _ => keeps_op3
  | shr => exact .run fun _ => keeps_op3
  | sar => exact .run fun _ => keeps_op3
  | clt => exact .run fun _ => keeps_op3
  | cltu => exact .run fun _ => keeps_op3
  | add32 => exact .run fun _ => keeps_op3
  | sub32 => exact .run fun _ => keeps_op3
  | clz => exact .run fun _ => keeps_op2
  | popc => exact .run fun _ => keeps_op2
  | min_ => exact .run fun _ => keeps_op3
  | max_ => exact .run fun _ => keeps_op3
  | minu => exact .run fun _ => keeps_op3
  | maxu => exact .run fun _ => keeps_op3
  | andn => exact .run fun _ => keeps_op3
  | rotr => exact .run fun _ => keeps_op3
  | mul => exact .run fun _ => keeps_op3
  | mulhi => exact .run fun _ => keeps_op3
  | mulhiu => exact .run fun _ => keeps_op3
  | mac => exact .run fun _ => keeps_opG
  | divs => exact .run fun _ => keeps_op3
  | divu => exact .run fun _ => keeps_op3
  | rems => exact .run fun _ => keeps_op3
  | remu => exact .run fun _ => keeps_op3
  | addi => exact .run fun _ => keeps_op2
  | clti => exact .run fun _ => keeps_op2
  | cltiu => exact .run fun _ => keeps_op2
  | andi => exact .run fun _ => keeps_op2
  | ori => exact .run fun _ => keeps_op2
  | xori => exact .run fun _ => keeps_op2
  | shli => exact .run fun _ => keeps_op2
  | shri => exact .run fun _ => keeps_op2
  | sari => exact .run fun _ => keeps_op2
  | rotri => exact .run fun _ => keeps_op2
  | movhi => exact .run fun _ => keeps_opG
  | insh => exact .run fun _ => keeps_op2
  | inst => exact .run fun _ => keeps_op2
  | lb => exact .run fun _ => keeps_load
  | lbu => exact .run fun _ => keeps_load
  | lh => exact .run fun _ => keeps_load
  | lhu => exact .run fun _ => keeps_load
  | lw => exact .run fun _ => keeps_load
  | lwu => exact .run fun _ => keeps_load
  | ld => exact .run fun _ => keeps_load
  | flw => exact .run fun _ => keeps_load
  | fld => exact .run fun _ => keeps_load
  | sb => exact .run fun _ => keeps_storeOp
  | sh => exact .run fun _ => keeps_storeOp
  | sw => exact .run fun _ => keeps_storeOp
  | sd => exact .run fun _ => keeps_storeOp
  | fsw => exact .run fun _ => keeps_storeOp
  | fsd => exact .run fun _ => keeps_storeOp
  | atomic => exact outKeeps_atomic
  | beq => exact .run fun _ => keeps_branch
  | bne => exact .run fun _ => keeps_branch
  | blt => exact .run fun _ => keeps_branch
  | bge => exact .run fun _ => keeps_branch
  | bltu => exact .run fun _ => keeps_branch
  | bgeu => exact .run fun _ => keeps_branch
  | j => exact .run fun _ => keeps_issue fun _ => keeps_runArch
  | jal => exact .run fun _ => keeps_issue fun _ => keeps_runArch
  | jalr => exact .run fun _ => keeps_issue fun _ => keeps_runArch
  | fadd => exact .run fun _ => keeps_arith
  | fsub => exact .run fun _ => keeps_arith
  | fmul => exact .run fun _ => keeps_arith
  | fdiv => exact .run fun _ => keeps_arith
  | fsqrt => exact .run fun _ => keeps_opFF
  | fmin => exact .run fun _ => keeps_arith
  | fmax => exact .run fun _ => keeps_arith
  | fabs => exact .run fun _ => keeps_opFF
  | fneg => exact .run fun _ => keeps_opFF
  | fcopysign => exact .run fun _ => keeps_arith
  | fcmp => exact .run fun _ => keeps_opFG
  | fkind => exact .run fun _ => keeps_opFG
  | ftoi32 => exact .run fun _ => keeps_opFG
  | ftoi64 => exact .run fun _ => keeps_opFG
  | itof32 => exact .run fun _ => keeps_opGF
  | itof64 => exact .run fun _ => keeps_opGF
  | fnarrow => exact .run fun _ => keeps_opFF
  | fwiden => exact .run fun _ => keeps_opFF
  | fmovg => exact .run fun _ => keeps_opFG
  | gmovf => exact .run fun _ => keeps_opGF
  | fma => exact .run fun _ => keeps_fused
  | fmaNp => exact .run fun _ => keeps_fused
  | fmaNa => exact .run fun _ => keeps_fused
  | fmaNpa => exact .run fun _ => keeps_fused
  | syncF => exact outKeeps_syncF
  | syncC => exact outKeeps_syncC
  | syncM => exact .run fun _ => keeps_issueSerial fun _ => .ite keeps_runArch .refl
  | wait => exact outKeeps_wait
  | coreWake => exact outKeeps_coreWake
  | trap => exact .run fun _ => keeps_issueSerial fun _ => keeps_runArch.trans keeps_enterTrap
  | bkpt => exact outKeeps_bkpt
  | rete => exact .run fun _ => keeps_privileged fun _ => keeps_runArch
  | ctlrd => exact .run fun _ => keeps_ctlAccess fun _ => .ite .refl keeps_runArch
  | ctlwr => exact .run fun _ => keeps_ctlWrite
  | intRaise => exact .run fun _ => keeps_ctlWrite
  | intPendClear => exact .run fun _ => keeps_ctlWrite
  | storeAccept => exact outKeeps_storeAccept
  | loadResponse => exact outKeeps_loadResponse
  | hobAccess => exact outKeeps_hobAccess
  | marchRowStart => exact .run fun _ => .ite keeps_marchStart .refl
  | marchRowComplete => exact .run fun _ => keeps_marchEnd
  | hobWake => exact .run fun _ => .ite .refl keeps_wakeHob
  | hobInject => exact .run fun _ => keeps_writeRow fun _ => keeps_hobInject
  | hobCntClear => exact .run fun _ => keeps_writeRow fun _ => .ite keeps_hobCntClear .refl
  | frameBoundary => exact outKeeps_frameBoundary
  | inDeadlineExpiry => exact .run fun _ => .ite (Keeps.refl.upd.trans keeps_startSlots) .refl
  | imageChannelComplete => exact outKeeps_imageChannelComplete
  | bellowsSlot => exact outKeeps_bellowsSlot
  | ctxResume => exact .run fun _ => keeps_writeRow fun _ => keeps_ctxResume
  | blwInject => exact .run fun _ => keeps_writeRow fun _ => keeps_blwInject
  | blwCntClear => exact .run fun _ => keeps_writeRow fun _ => .ite keeps_blwClear .refl
  | stepGo => exact .run fun _ => keeps_writeRow fun _ => keeps_stepGo
  | tcmpFire => exact outKeeps_tcmpFire
  | syncTimeout => exact .run fun _ => .ite keeps_holdover .refl
  | dramRead => exact outKeeps_dramRead
  | dramWrite => exact outKeeps_dramWrite
  | scrubComplete => exact outKeeps_scrubComplete
  | fillComplete => exact outKeeps_fillComplete
  | scrubOverdue => exact outKeeps_scrubOverdue
  | retireAdd => exact .run fun _ => keeps_writeRow fun _ => keeps_retireAdd
  | memcCntClear => exact .run fun _ => keeps_writeRow fun _ => keeps_memcClear
  | deq => exact .run fun _ => keeps_strike.trans (keeps_guarded fun _ => keeps_portDeq)
  | peek => exact .run fun _ => keeps_strike.trans (keeps_guarded fun _ => keeps_portDeq)
  | qstat => exact .run fun _ => keeps_guarded fun _ => keeps_portStat
  | tryOpen => exact .run fun _ => keeps_guarded fun _ => keeps_portTry
  | enq => exact .run fun _ => keeps_guarded fun _ => keeps_enqueue
  | pktOpen => exact .run fun _ => keeps_guarded fun _ => keeps_enqueue
  | pktWord => exact .run fun _ => keeps_guarded fun _ => keeps_enqueue
  | pktClose => exact .run fun _ => keeps_guarded fun _ => keeps_portClose
  | waiterGrant => exact .run fun _ => keeps_grantWaiters.trans keeps_settle
  | poolWindowAccess => exact .run fun _ => keeps_guarded fun _ => keeps_poolAccess
  | bobCntClear => exact .run fun _ => keeps_writeRow fun _ => keeps_bobClear
  | bfifoPointerFault => exact outKeeps_bfifoPointerFault
  | basteDue => exact outKeeps_basteDue
  | deferredSliceStart => exact outKeeps_deferredSliceStart
  | sliceComplete => exact .run fun _ => .ite keeps_testEnd .refl
  | bellowsSliceComplete => exact outKeeps_bellowsSliceComplete
  | startupTestComplete => exact outKeeps_startupTestComplete
  | basteOverdue => exact .run fun _ => .ite (Keeps.refl.upd.upd.trans keeps_level) .refl
  | basteGo => exact .run fun _ => keeps_writeRow fun _ => keeps_basteGo
  | thmReset => exact outKeeps_thmReset
  | thmBootComplete => exact outKeeps_thmBootComplete
  | thmLaneHalt => exact .run fun _ => .ite (keeps_noticeEvent.trans keeps_thmRestart) .refl
  | thmHeartbeatTimeout => exact .run fun _ => .ite .refl (keeps_onThm.trans keeps_notices)
  | lifecycleSensed => exact outKeeps_lifecycleSensed
  | sealOpened => exact .run fun _ => .ite ((keeps_onThm.trans keeps_thmPage).trans keeps_notices) .refl
  | sealClosed => exact .run fun _ => .ite ((keeps_onThm.trans keeps_thmPage).trans keeps_notices) .refl
  | thmSample => exact .run fun _ => .ite (Keeps.refl.upd.trans (.ite keeps_noticeEvent .refl)) .refl
  | pulseEdge => exact .run fun _ => .ite keeps_onThm .refl
  | recordSubmit => exact outKeeps_recordSubmit
  | signingTimer => exact outKeeps_signingTimer
  | signingComplete => exact outKeeps_signingComplete
  | gateNop => exact .run fun _ => keeps_gateRow fun _ _ => keeps_gateAnswer
  | thmStart => exact outKeeps_thmStart
  | thmStop => exact outKeeps_thmStop
  | tare => exact .run fun _ => keeps_gateRow fun _ _ => keeps_fwDecides fun _ _ => keeps_gateAccept
  | zero => exact .run fun _ => keeps_gateRow fun _ _ => keeps_fwDecides fun _ _ => keeps_gateAccept
  | presetTare => exact outKeeps_presetTare
  | clearTare => exact outKeeps_clearTare
  | batchOpen => exact outKeeps_batchOpen
  | batchClose => exact outKeeps_batchClose
  | signNow => exact .run fun _ => keeps_gateRow fun _ _ => keeps_onThm.trans keeps_gateAnswer
  | recordAck => exact .run fun _ => keeps_gateRow fun _ _ => keeps_onThm.trans keeps_gateAnswer
  | replay => exact .run fun _ => keeps_gateRow fun _ _ => keeps_onThm.trans keeps_gateAnswer
  | timeMark => exact .run fun _ => keeps_gateRow fun _ _ => keeps_gateAccept
  | paramWrite => exact outKeeps_paramWrite
  | paramCommit => exact outKeeps_paramCommit
  | imageActivate => exact outKeeps_imageActivate
  | gateAnswer => exact outKeeps_gateAnswer
  | gateTimeout => exact outKeeps_gateTimeout
  | thmRecordForward => exact outKeeps_thmRecordForward
  | cutoverArmed => exact outKeeps_cutoverArmed
  | cutoverBoundary => exact outKeeps_cutoverBoundary
  | cutoverSwitch => exact outKeeps_cutoverSwitch
  | switchDeadlineExpiry => exact outKeeps_switchDeadlineExpiry
  | cutPass => exact .run fun _ => keeps_writeRow fun _ => keeps_cutPass
  | cutoverCheckDeadline => exact outKeeps_cutoverCheckDeadline
  | cutoverFallback => exact outKeeps_cutoverFallback
  | imageVerifyComplete => exact outKeeps_imageVerifyComplete
  | flashOperationComplete => exact outKeeps_flashOperationComplete
  | grantExpiry => exact outKeeps_grantExpiry
  | sessionExpiry => exact outKeeps_sessionExpiry
  | entropyFail => exact .run fun _ => keeps_onImg.trans (.ite keeps_level keeps_inactive)
  | domainEntry => exact outKeeps_domainEntry
  | domainWake => exact .run fun _ => .ite .refl (.ite (.upd .refl) keeps_domainUp)
  | voteCmd => exact .run fun _ => keeps_writeRow fun _ => keeps_vote
  | padRel => exact .run fun _ => keeps_writeRow fun _ => keeps_releasePads
  | acctClear => exact .run fun _ => keeps_writeRow fun _ => keeps_when fun _ => keeps_acctClear
  | avsVdone => exact outKeeps_avsVdone
  | avsAckTimeout => exact outKeeps_avsAckTimeout
  | supplyExcursion => exact .run fun _ => .ite .refl keeps_level
  | tjReading => exact outKeeps_tjReading
  | dozeWake => exact .run fun _ => .ite keeps_setMode (.upd .refl)
  | linkUp => exact outKeeps_linkUp
  | linkDown => exact outKeeps_linkDown
  | retrainTimer => exact .run fun _ => .ite keeps_onPort .refl
  | chimneyFrame => exact outKeeps_chimneyFrame
  | timeFrameSend => exact .run fun _ => .ite .refl keeps_send.onChim
  | timeFrame => exact outKeeps_timeFrame
  | statusFrameSend => exact .run fun _ => .ite keeps_send .refl
  | statusFrame => exact outKeeps_statusFrame
  | linkDelayMeasure => exact .run fun _ => .ite keeps_onPort .refl
  | baseReachTimeout => exact outKeeps_baseReachTimeout
  | reachTimeout => exact outKeeps_reachTimeout
  | retrainUp => exact .run fun _ => keeps_writeRow fun _ => keeps_writeRetrain
  | retrainDown => exact .run fun _ => keeps_writeRow fun _ => keeps_writeRetrain
  | windowRequest => exact outKeeps_windowRequest
  | windowResponse => exact outKeeps_windowResponse
  | hostRead => exact outKeeps_hostRead
  | hostWrite => exact outKeeps_hostWrite
  | pcieLinkDown => exact .run fun _ => .ite (Keeps.refl.upd.trans keeps_level) .refl
  | pcieLinkUp => exact .run fun _ => .ite .refl (Keeps.refl.upd.trans (.ite keeps_inactive .refl))
  | ethFrameReceive => exact outKeeps_ethFrameReceive
  | ethFrameTransmit => exact outKeeps_ethFrameTransmit
  | ethLinkDown => exact .run fun _ => .ite (keeps_onPorts.trans keeps_level) .refl
  | canFrameReceive => exact .run fun _ => .ite (keeps_through fun _ => keeps_receive) .refl
  | canFrameTransmit => exact outKeeps_canFrameTransmit
  | canBusOff => exact .run fun _ => .ite keeps_level .refl
  | busOffRecovery => exact .run fun _ => .ite keeps_inactive .refl
  | i2cBusStuck => exact .run fun _ => .ite .refl keeps_level
  | gpioEdge => exact outKeeps_gpioEdge
  | opResetNHigh => exact .run fun _ => .upd .refl
  | thmRstNLow => exact outKeeps_thmRstNLow
  | thmKernelWatchdog => exact .run fun _ => .ite keeps_thmRestart .refl
  | ethLinkUp => exact .run fun _ => .ite (keeps_onPorts.trans (.ite keeps_inactive .refl)) .refl
  | configurationRequest => exact outKeeps_configurationRequest
  | debugHaltRequest => exact outKeeps_debugHaltRequest
  | debugResume => exact .run fun _ => .ite (Keeps.refl.upd.trans keeps_wdtFreeze) .refl
  | debugAccess => exact outKeeps_debugAccess
  | attestComplete => exact outKeeps_attestComplete
  | sessionOpenComplete => exact outKeeps_sessionOpenComplete
  | scanOpenComplete => exact outKeeps_scanOpenComplete
  | scanInstruction => exact .run fun _ => .refl
  | dmaChannelComplete => exact .run fun _ => .ite .refl keeps_interruptHearth

end Sys2Proof.Proofs
end

section
/-! O4, O5: what a step keeps of the damper channels and of the life cycle. -/

namespace Sys2Proof.Proofs

open Machine Laws

set_option Elab.async false

/-- A command of a life-cycle token blows its fuses along the table (R57), and keeps the rule of the channels. -/
theorem moves_next {s t : State} {f : W → W} (h : Moves s.world (f s.world)) (e : runFuse s f = .next t) :
    OneWay s.fuse t.fuse ∧ LifeMoves s.fuse s.dev.sys.mode t.fuse ∧ (DampOk s.dev → DampOk t.dev) := by
  cases e
  exact moves_iff.mp h

theorem moves_pendingCommandStart {n : Nat} {s t : State} (e : execPendingCommandStart n s = .next t) :
    OneWay s.fuse t.fuse ∧ LifeMoves s.fuse s.dev.sys.mode t.fuse ∧ (DampOk s.dev → DampOk t.dev) := by
  refine moves_next ?_ e
  have stays : Moves s.world s.world := Blows.refl.moves
  split
  · exact stays
  · next q before _ =>
    refine around_moves.ite (around_moves.ite (around_moves.of_keeps keeps_forwardPend) stays) ?_
    split
    · next i listed => exact around_moves.ite (around_startPend around_moves (opcAround_bodyOf _ _ listed)) stays
    · exact stays

theorem moves_lcToken {p : Packet} {s t : State} (e : execLcToken p s = .next t) :
    OneWay s.fuse t.fuse ∧ LifeMoves s.fuse s.dev.sys.mode t.fuse ∧ (DampOk s.dev → DampOk t.dev) :=
  moves_next (f := fun w => w.take w.objs 0x0A31 p (bodyOf 0x0A31)) (around_take around_moves opcAround_bodyOf) e

theorem SameLife.oneWay {f g : Fuse} (h : SameLife f g) : OneWay f g := ⟨h.1, h.2.1, h.2.2.1, h.2.2.2.1⟩

theorem SameLife.lifecycle {f g : Fuse} (h : SameLife f g) : g.lifecycle = f.lifecycle := h.2.2.2.2

/-- A command that may carry a life-cycle token. -/
def Tokens : Instr → Prop
  | .lcToken _ => True
  | .pendingCommandStart _ => True
  | _ => False

theorem exec_of_tokens {i : Instr} {s t : State} (tok : Tokens i) (e : exec i s = .next t) :
    OneWay s.fuse t.fuse ∧ LifeMoves s.fuse s.dev.sys.mode t.fuse ∧ (DampOk s.dev → DampOk t.dev) := by
  unfold Tokens at tok
  split at tok
  · exact moves_lcToken e
  · exact moves_pendingCommandStart e
  · exact tok.elim

theorem exec_of_not_tokens {i : Instr} {s t : State} (tok : ¬ Tokens i) (e : exec i s = .next t) :
    SameLife s.fuse t.fuse ∧ (DampOk s.dev → DampOk t.dev) := by
  refine (outKeeps_exec (fun p h => ?_) fun n h => ?_).next e
  · exact tok (h ▸ trivial)
  · exact tok (h ▸ trivial)

/-- A step keeps the life cycle, or its command may carry a token; either way it keeps the rule of the channels. -/
theorem step_keeps {s t : State} (e : step s = .next t) :
    (SameLife s.fuse t.fuse ∨ OneWay s.fuse t.fuse ∧ LifeMoves s.fuse s.dev.sys.mode t.fuse ∧
      ∃ i r, s.pending = i :: r ∧ Tokens i) ∧ (DampOk s.dev → DampOk t.dev) := by
  unfold step at e
  split at e
  · obtain ⟨life, damp⟩ := outKeeps_idle.next e
    exact ⟨.inl life, damp⟩
  · next i r front =>
    by_cases tok : Tokens i
    · obtain ⟨way, move, damp⟩ := exec_of_tokens tok e
      exact ⟨.inr ⟨way, move, i, r, front, tok⟩, damp⟩
    · obtain ⟨life, damp⟩ := exec_of_not_tokens tok e
      exact ⟨.inl life, damp⟩

theorem dampOk_iff {d : Dev} : DampOk d ↔ (d.sys.mode.running = false → ∀ n, n < 64 → (d.damper n).st ≠ .live ∧ (d.damper n).st ≠ .starting) := by
  simp only [DampOk, Calm, Damper.hot, not_or]

/-- Settles O4: every operation of the model keeps the rule of the channels (`outKeeps_exec`, `exec_of_tokens`, `outKeeps_idle`);
the transitions that leave the running modes return every channel to SAFE first (`keeps_leaveRunning`). -/
theorem dampersLiveOnlyInRunningModes : Obligations.DampersLiveOnlyInRunningModes := by
  unfold Obligations.DampersLiveOnlyInRunningModes
  exact fun s t ok e => dampOk_iff.mp ((step_keeps e).2 (dampOk_iff.mpr ok))

theorem tokens_iff {i : Instr} : Tokens i ↔ (∃ p, i = .lcToken p) ∨ ∃ n, i = .pendingCommandStart n := by
  constructor
  · intro h
    unfold Tokens at h
    split at h
    · exact .inl ⟨_, rfl⟩
    · exact .inr ⟨_, rfl⟩
    · exact h.elim
  · rintro (⟨p, rfl⟩ | ⟨n, rfl⟩) <;> trivial

/-- Settles O5: only LC_TOKEN and the start of a waiting command reach `lcApply`, which a token reaches in PREPARE alone
(`prepare_of_modeOk`) and for a pair of states that has a key (`lcBlow_lifecycle`). -/
theorem lifeCycleMovesByTokenOnly : Obligations.LifeCycleMovesByTokenOnly := by
  unfold Obligations.LifeCycleMovesByTokenOnly
  intro s t e
  obtain ⟨life | ⟨way, move, i, r, front, tok⟩, -⟩ := step_keeps e
  · obtain ⟨uid, var, unr, sec⟩ := life.oneWay
    exact ⟨uid, var, unr, sec, .inl life.lifecycle⟩
  · obtain ⟨uid, var, unr, sec⟩ := way
    refine ⟨uid, var, unr, sec, move.imp id fun ⟨prepare, table⟩ => ⟨prepare, table, ?_⟩⟩
    rcases tokens_iff.mp tok with ⟨p, rfl⟩ | ⟨n, rfl⟩
    · exact .inl ⟨p, r, front⟩
    · exact .inr ⟨n, r, front⟩

end Sys2Proof.Proofs
end

section
/-! O60: the reset state, and the period that an idle step counts. -/

namespace Sys2Proof.Proofs

open Machine Laws

set_option Elab.async false

/-- The time base and the interval counter of `w'` are those of `w`. -/
def SameClock (w w' : W) : Prop := w'.dev.clock = w.dev.clock

theorem SameClock.trans {a b c : W} (h : SameClock a b) (k : SameClock b c) : SameClock a c := Eq.trans k h

theorem SameClock.ite {a b c : W} {p : Prop} [Decidable p] (h : SameClock a b) (k : SameClock a c) :
    SameClock a (if p then b else c) := by split <;> assumption

theorem SameClock.each {α : Type} {xs : List α} {f : α → W → W} (h : ∀ x w, SameClock w (f x w)) (w : W) :
    SameClock w (w.each xs f) := by
  induction xs generalizing w with
  | nil => exact rfl
  | cons x xs ih => exact (h x w).trans (ih (f x w))

variable {w : W}

theorem sameClock_ringDue : SameClock w w.ringDue := by
  have discard : ∀ v : W, SameClock v v.abortTxn := fun v => by
    unfold W.abortTxn
    split
    · exact rfl
    · refine SameClock.trans (SameClock.each (fun b u => ?_) v) rfl
      split
      · exact .ite rfl rfl
      · exact rfl
  refine .ite (SameClock.trans (b := w.abortTxnOf 0) ?_ rfl) rfl
  unfold W.abortTxnOf
  split
  · exact .ite (discard w) rfl
  · exact rfl

theorem sameClock_put {a : Nat} {bs : List Byte} : SameClock w (w.put a bs) := by
  unfold SameClock W.put
  dsimp only [W.upd]
  split <;> rfl

theorem sameClock_freshCode {a : Nat} : SameClock w (w.freshCode a) := by
  unfold W.freshCode
  split
  · exact sameClock_put
  · exact rfl

theorem sameClock_drainWb {u : Nat} : SameClock w (w.drainWb u) := by
  unfold W.drainWb
  split
  · exact rfl
  · next o r _ =>
    have code : ∀ v : W, SameClock w v → SameClock w (v.freshCode (hobBase u + o)) := fun v h => h.trans (sameClock_freshCode)
    exact (code (w.upd fun d => d.onHob u fun h => { h with wbq := r }) rfl).trans rfl

theorem sameClock_writeBacks : SameClock w w.writeBacks :=
  .each (fun _ _ => .ite (.each (fun _ _ => sameClock_drainWb) _) rfl) w

theorem sameClock_storeBlock {ch line : Nat} {data : List Byte} {flips : List Byte → List Byte} :
    SameClock w (w.storeBlock ch line data flips) := rfl

theorem sameClock_dramBacks : SameClock w w.dramBacks :=
  .each (fun _ _ => sameClock_storeBlock) w

/-- Without a device reset an idle step leaves the counters as the passing of a period does. -/
theorem clock_idle (armed : w.dev.sys.resetArmed = false) : w.idle.dev.clock = w.tickTb.dev.clock := by
  have e : w.idle = w.tickTb.ringDue.writeBacks.dramBacks := if_neg (by rw [show w.tickTb.dev.sys = w.dev.sys from rfl, armed]; decide)
  rw [e]
  exact sameClock_ringDue.trans (sameClock_writeBacks.trans sameClock_dramBacks)

theorem tickTb_tb : w.tickTb.dev.clock.tb = w.dev.clock.tb + BitVec.ofInt 64 (w.dev.clock.period (w.dev.regs.val.getD 0x20040038 0).toInt) :=
  rfl

theorem tickTb_ivl : w.tickTb.dev.clock.ivl = w.dev.clock.ivl + BitVec.ofInt 64 (w.dev.clock.period (w.dev.regs.val.getD 0x20040038 0).toInt) :=
  rfl

theorem period_plain {c : Clock} (running : c.running = true) (acc : c.acc = 0) : c.period 0 = 40 := by
  simp [Clock.period, running, acc]

theorem period_stopped {c : Clock} (running : c.running = false) (rate : Int) : c.period rate = 0 := by
  simp [Clock.period, running]

theorem idleStepCountsOnePeriod : Says.IdleStepCountsOnePeriod := by
  intro s empty
  have idles : step s = idle s := by rw [step, empty]
  refine ⟨_, idles.trans rfl, empty, rfl, fun armed running rate acc => ?_, fun armed running => ?_⟩
  · have idles := clock_idle (w := s.world) armed
    have period : s.world.dev.clock.period (s.world.dev.regs.val.getD 0x20040038 0).toInt = 40 := by
      rw [show s.world.dev.regs = s.dev.regs from rfl, rate]
      exact period_plain running acc
    rw [idles, tickTb_tb, tickTb_ivl, period]
    exact ⟨rfl, rfl⟩
  · have idles := clock_idle (w := s.world) armed
    rw [idles, tickTb_tb, tickTb_ivl, period_stopped (c := s.world.dev.clock) running]
    exact ⟨BitVec.add_zero _, BitVec.add_zero _⟩

theorem resetLeavesHold : Says.ResetLeavesHold :=
  ⟨rfl, rfl, fun _ => rfl, rfl, rfl, rfl, rfl, fun _ => rfl, fun _ => rfl, fun _ => rfl⟩

/-- Settles O60: the reset state computes; of what an idle step does, the passing of a period alone moves the counters. -/
theorem resetStateAndIdleStep : Obligations.ResetStateAndIdleStep := ⟨resetLeavesHold, idleStepCountsOnePeriod⟩

end Sys2Proof.Proofs
end

section
/-! Loads and stores of a core (R136, R145, R149): what an access to a hob that serves it as it stands returns and leaves. -/

namespace Sys2Proof.Proofs

open Machine Laws

set_option Elab.async false

variable {w : W} {m : Rid} {u a n : Nat} {d : Dir}

/-! A read of one port word of a hob. -/

theorem wordPieces_one (pos : 0 < n) (fits : a % 32 + n ≤ 32) : wordPieces a n = [(a, n)] := by
  have count : (a + n - 1) / 32 - a / 32 + 1 = 1 := by omega
  have lo : max a (32 * (a / 32 + 0)) = a := by omega
  have hi : min (a + n) (32 * (a / 32 + 0) + 32) - a = n := by omega
  rw [wordPieces, if_neg (by omega), count]
  simp only [List.range_one, List.map_cons, List.map_nil, lo, hi]

theorem partsOf_aligned (h : a % n = 0) : partsOf a n = [(a, n)] := if_pos h

/-- The address of a hob is its base and an offset. -/
theorem hobBase_le (h : hobOf a = some u) : hobBase u ≤ a := by
  unfold hobOf at h
  split at h
  · cases h; unfold hobBase; split <;> omega
  · split at h
    · cases h; unfold hobBase; split <;> omega
    · cases h

theorem hob_of_reaches (h : Reaches w m u a n d) : hobOf a = some u := h.2.2.1

/-- The hob gives the bytes of the port word, and moves its pointer. -/
theorem hobRead_of_reaches (h : Reaches w m u a n d) :
    w.hobRead m u a n = (.data (w.bytes a n), w.granted u (hobMaster w.dev.chim.pos u m)) := by
  obtain ⟨-, -, -, -, flips, awake, -⟩ := h
  exact hobRead_plain w m u a n flips awake

/-- The output selector replaces nothing of it. -/
theorem seen_of_reaches (h : Reaches w m u a n d) : (if u < 16 then hobBase u + w.seen u (a - hobBase u) else a) = a := by
  have base := hobBase_le (hob_of_reaches h)
  obtain ⟨-, -, -, -, -, -, -, -, seen⟩ := h
  split
  · next small => rw [seen small]; omega
  · rfl

theorem hobReadSel_of_reaches (h : Reaches w m u a n d) :
    w.hobReadSel m u a n = (.data (w.bytes a n), w.granted u (hobMaster w.dev.chim.pos u m)) := by
  rw [W.hobReadSel, wordPieces_one h.1 h.2.1, W.hobReadParts, (seen_of_reaches h), (hobRead_of_reaches h)]
  rfl

/-- A read or a fetch that reaches a hob gives the bytes that stand there. -/
theorem perform_read_of_reaches {r : Req} (h : Reaches w m u a n d) (reads : r = .read ∨ r = .fetch) :
    w.perform m a n r = (.data (w.bytes a n), w.granted u (hobMaster w.dev.chim.pos u m)) := by
  have on := h.2.2.2.2.2.2.2.1
  rw [perform_hob w m u a n r (hob_of_reaches h) on]
  rcases reads with rfl | rfl <;> simp only [W.serveHob] <;> split
  · exact (hobRead_of_reaches h)
  · exact (hobReadSel_of_reaches h)
  · exact (hobRead_of_reaches h)
  · exact (hobReadSel_of_reaches h)

theorem admitParts_of_reaches {r : Req} (h : Reaches w m u a n r.dir) : w.admitParts m (fun _ => r) [(a, n)] = (none, w) := by
  rw [W.admitParts, admit_reaches w m u a n r h]
  rfl

theorem not_remote_of_reaches (h : Reaches w m u a n d) : w.remoteAddr a = false := by
  rw [W.remoteAddr, windowOf_hob a u (hob_of_reaches h)]

/-- An aligned load of a hob gives the value of the bytes that stand there (R145); the link's answer matters beyond the
own hob alone. -/
theorem loadAccess_reaches {k : Nat} {priv link : Bool} {o : LoadOp} (plain : o.atomic = none) (aligned : o.addr.toNat % o.size = 0)
    (own : link = false → hobOf o.addr.toNat = some (unitOf k))
    (h : Reaches w (coreRid w.dev.chim.pos k priv) u o.addr.toNat o.size .read) :
    w.loadAccess k priv o link =
      (.ok (o.value (w.bytes o.addr.toNat o.size)), w.granted u (hobMaster w.dev.chim.pos u (coreRid w.dev.chim.pos k priv))) := by
  have req : o.req = .read := by rw [LoadOp.req, plain]
  have reads : w.readParts (coreRid w.dev.chim.pos k priv) .read [(o.addr.toNat, o.size)] =
      (.ok (w.bytes o.addr.toNat o.size), w.granted u (hobMaster w.dev.chim.pos u (coreRid w.dev.chim.pos k priv))) := by
    simp only [W.readParts, (perform_read_of_reaches h (.inl rfl)), List.append_nil]
  have here : ¬ (link = false ∧ hobOf o.addr.toNat ≠ some (unitOf k)) := fun e => e.2 (own e.1)
  simp only [W.loadAccess, req, partsOf_aligned aligned, admitParts_of_reaches (r := .read) h, (not_remote_of_reaches h), Bool.false_eq_true, if_false,
    if_neg here, reads]

/-! The value of a load. -/

theorem ofLe_lt (bs : List Byte) : ofLe bs < 256 ^ bs.length := by
  induction bs with
  | nil => exact Nat.one_pos
  | cons b bs ih =>
    have := b.isLt
    simp only [ofLe, List.length_cons, pow_succ]
    omega

theorem length_bytes : (w.bytes a n).length = n := by simp [W.bytes]

theorem hobWord_lt (s : State) : hobWord s a n < 2 ^ (8 * n) := by
  have := ofLe_lt ((List.range n).map fun i => s.mem.get (a + i))
  rw [List.length_map, List.length_range, show (256 : Nat) = 2 ^ 8 from rfl, ← pow_mul] at this
  exact this

/-- The value of bytes that are not sign-extended. -/
theorem value_unsigned {o : LoadOp} (bs : List Byte) (h : o.signed = false) : o.value bs = BitVec.ofNat 64 (ofLe bs) := by
  rw [LoadOp.value, h]
  rfl

/-- The value of bytes that are sign-extended. -/
theorem value_signed {o : LoadOp} {bs : List Byte} (h : o.signed = true) (len : bs.length = o.size)
    (size : o.size = 1 ∨ o.size = 2 ∨ o.size = 4 ∨ o.size = 8) :
    o.value bs = (BitVec.ofNat (8 * o.size) (ofLe bs)).signExtend 64 := by
  have lt := ofLe_lt bs
  rw [len, show (256 : Nat) = 2 ^ 8 from rfl, ← pow_mul] at lt
  apply BitVec.eq_of_toNat_eq
  rw [LoadOp.value, h, Bool.true_and, BitVec.toNat_signExtend, BitVec.toNat_setWidth, BitVec.toNat_ofNat, BitVec.msb_eq_decide,
    BitVec.toNat_ofNat, Nat.mod_eq_of_lt lt]
  generalize ofLe bs = v at lt ⊢
  rcases size with e | e | e | e <;> simp only [e] at lt ⊢ <;> simp only [decide_eq_true_eq] <;> split <;>
    simp only [w64, BitVec.toNat_ofNat] <;> omega

end Sys2Proof.Proofs
end

section
/-! O50: loads of the own hob, and stores into the store buffer (R136, R145, R149). -/

namespace Sys2Proof.Proofs

open Machine Laws

set_option Elab.async false

/-- The state after an access of core `c` to hob `u`: the arbiter's pointer moves, and the core changes by `f`. -/
def afterAccess (s : State) (c : CoreId) (u p : Nat) (f : Core → Core) : State :=
  { s with dev := (({ s.dev with out := .none } : Dev).onHob u fun h => { h with ptr := p }).beatCore c f }

/-- The state after an instruction that changes core `c` alone, by `f`. -/
def afterCore (s : State) (c : CoreId) (f : Core → Core) : State :=
  { s with dev := ({ s.dev with out := .none } : Dev).beatCore c f }

variable {s : State} {c : CoreId} {u p : Nat} {f : Core → Core}

theorem afterAccess_core : (afterAccess s c u p f).dev.core c = f (s.dev.core c) := by
  rw [afterAccess, core_beatCore_self]
  rfl

theorem afterAccess_arch : archOf (afterAccess s c u p f) c = (f (s.dev.core c)).arch := by rw [archOf, afterAccess_core]

theorem afterCore_core : (afterCore s c f).dev.core c = f (s.dev.core c) := by
  rw [afterCore, core_beatCore_self]
  rfl

theorem coreOnly_afterCore : CoreOnly s (afterCore s c f) c := by
  refine ⟨rfl, rfl, rfl, fun k ne => ?_, ?_⟩
  · rw [afterCore, core_beatCore_ne _ _ _ _ ne]
    rfl
  · simp only [beatDev, afterCore_core]
    rfl

theorem ptrsOnly_onHob (d : Dev) (v : Nat) :
    (d.onHob u fun h => { h with ptr := p }).hob v = { d.hob v with ptr := ((d.onHob u fun h => { h with ptr := p }).hob v).ptr } := by
  rw [Dev.hob, Dev.onHob, getD_set]
  split
  · next e => subst e; rfl
  · rfl

theorem coreReads_afterAccess : CoreReads s (afterAccess s c u p f) c := by
  refine ⟨⟨rfl, rfl, fun k ne => ?_, ?_, fun v => ?_⟩, rfl⟩
  · rw [afterAccess, core_beatCore_ne _ _ _ _ ne]
    rfl
  · simp only [beatDev, afterAccess_core]
    rfl
  · exact ptrsOnly_onHob _ _

/-- An instruction that changes registers alone keeps the rest of its core. -/
theorem coreKeeps_exec {beats : Nat} {g : Arch → Arch} : CoreKeeps s (afterAccess s c u p fun q => q.exec c beats g) c := by
  simp only [CoreKeeps, afterAccess_core, Core.exec]
  split <;> rfl

theorem put_next_g {x : Arch} {o : LoadOp} {v : Word64} (g : o.isF = false) :
    (∀ r, ((x.put o v).next).rdG r = if r = o.rd ∧ r ≠ 0 then v else x.rdG r) ∧
    ((x.put o v).next).f = x.f ∧ ((x.put o v).next).cr = x.cr ∧ ((x.put o v).next).crw = x.crw ∧ ((x.put o v).next).pc = x.pc + 4 := by
  have e : x.put o v = x.wrG o.rd v := by rw [Arch.put, g]; rfl
  obtain ⟨f, cr, crw, pc⟩ := wrG_keeps x o.rd v
  rw [e]
  exact ⟨fun r => rdG_wrG x o.rd r v, f, cr, crw, by rw [Arch.next, pc]⟩

theorem put_next_f {x : Arch} {o : LoadOp} {v : Word64} (isF : o.isF = true) :
    (∀ r, ((x.put o v).next).rdF r = if r = o.rd then v else x.rdF r) ∧
    ((x.put o v).next).g = x.g ∧ ((x.put o v).next).cr = x.cr ∧ ((x.put o v).next).crw = x.crw ∧ ((x.put o v).next).pc = x.pc + 4 := by
  have e : x.put o v = x.wrF o.rd v := by rw [Arch.put, isF]; rfl
  rw [e]
  exact ⟨fun r => rdF_wrF x o.rd r v, rfl, rfl, rfl, rfl⟩

/-! The start of a load. -/

/-- An aligned load whose address the MPU lets pass starts (R136, R172). -/
theorem load_starts {isF : Bool} {rd ra : Reg} {imm : BitVec 16} {size : Nat} {signed wait : Bool}
    (h : LoadIssues s c ra ⟨(archOf s c).rdG ra + sx imm, size, signed, isF, rd, none⟩) :
    s.world.load c isF rd ra imm size signed wait = s.world.startLoad c 3 ⟨(archOf s c).rdG ra + sx imm, size, signed, isF, rd, none⟩ wait := by
  obtain ⟨⟨issue, free⟩, aligned, mpu⟩ := h
  have parts := partsOf_aligned aligned
  have ok : alignOk ((archOf s c).rdG ra + sx imm).toNat size = true := by
    simp only [alignOk, Bool.or_eq_true, beq_iff_eq]
    exact .inl aligned
  have core : s.world.dev.core c = s.dev.core c := rfl
  simp only [archOf] at mpu ok parts
  simp only [W.load, W.issue, core, issue, free, Bool.and_self, if_true, ok, parts, Arch.mpuRefuses, List.find?_cons, archOf, mpu,
    List.find?_nil, Option.map_none, Bool.not_true, Bool.false_eq_true, if_false]

/-- A load that its own hob grants completes at once (R145). -/
theorem startLoad_now {o : LoadOp} (plain : o.atomic = none) (aligned : o.addr.toNat % o.size = 0)
    (granted : s.world.grantedNow c o false = true) (reach : Reaches s.world (ridOf s c) (unitOf c) o.addr.toNat o.size .read) :
    ∃ p, run s (fun w => w.startLoad c 3 o false) = .next (afterAccess s c (unitOf c) p fun q =>
      q.exec c 3 fun x => (x.put o (o.value (s.world.bytes o.addr.toNat o.size))).next) := by
  refine ⟨(hobMaster s.dev.chim.pos (unitOf c) (ridOf s c) + 1) % hobMasters (unitOf c), ?_⟩
  have access := loadAccess_reaches (k := c) (priv := (archOf s c).priv c) (link := true) plain aligned nofun reach
  have core : (s.world.dev.core c).arch = archOf s c := rfl
  simp only [run, W.startLoad, granted, if_true, core, access, aligned]
  rfl

/-- The entry of a load or an atomic among the pending ones. -/
def pendsLoad (k beats : Nat) (o : LoadOp) (q : Core) : Core :=
  let q := q.count k beats q.arch.pc
  { q with pend := q.pend ++ [{ op := o, pc := q.arch.pc, ck := q.arch, held := q.held, ahead := q.nheld }],
           held := [], nheld := 0, arch := q.arch.next }

/-- A load that is not granted at once joins the pending ones (R145). -/
theorem startLoad_pends {o : LoadOp} {beats : Nat} {wait : Bool} (refused : s.world.grantedNow c o wait = false) :
    ∃ t, run s (fun w => w.startLoad c beats o wait) = .next t ∧ LoadPends s t c o := by
  refine ⟨afterCore s c (pendsLoad c beats o), ?_, coreOnly_afterCore, ?_⟩
  · simp only [run, W.startLoad, refused, Bool.false_eq_true, if_false]
    rfl
  · rw [afterCore_core]
    rfl

/-- A load of the own hob that issues and is granted reads its bytes. -/
theorem load_now {isF : Bool} {rd ra : Reg} {imm : BitVec 16} {size : Nat} {signed : Bool}
    (h : LoadsNow s c ra ⟨(archOf s c).rdG ra + sx imm, size, signed, isF, rd, none⟩) :
    let o : LoadOp := ⟨(archOf s c).rdG ra + sx imm, size, signed, isF, rd, none⟩
    ∃ p, run s (fun w => w.load c isF rd ra imm size signed false) = .next (afterAccess s c (unitOf c) p fun q =>
      q.exec c 3 fun x => (x.put o (o.value (s.world.bytes o.addr.toNat o.size))).next) := by
  obtain ⟨issues, granted, reach⟩ := h
  have starts := load_starts (wait := false) issues
  obtain ⟨p, now⟩ := startLoad_now rfl issues.2.1 granted reach
  refine ⟨p, ?_⟩
  rw [← now]
  simp only [run, starts]

theorem loadsG {rd ra : Reg} {imm : BitVec 16} {size : Nat} {signed : Bool} {v : Word64}
    (h : LoadsNow s c ra ⟨(archOf s c).rdG ra + sx imm, size, signed, false, rd, none⟩)
    (value : (⟨(archOf s c).rdG ra + sx imm, size, signed, false, rd, none⟩ : LoadOp).value
      (s.world.bytes ((archOf s c).rdG ra + sx imm).toNat size) = v) :
    ∃ t, run s (fun w => w.load c false rd ra imm size signed false) = .next t ∧ LoadsG s t c rd v := by
  obtain ⟨p, now⟩ := load_now h
  refine ⟨_, now, coreReads_afterAccess, coreKeeps_exec, ?_⟩
  rw [afterAccess_arch, exec_arch]
  dsimp only
  rw [value]
  exact put_next_g rfl

theorem loadsF {rd ra : Reg} {imm : BitVec 16} {size : Nat}
    (h : LoadsNow s c ra ⟨(archOf s c).rdG ra + sx imm, size, false, true, rd, none⟩) :
    ∃ t, run s (fun w => w.load c true rd ra imm size false false) = .next t ∧
      LoadsF s t c rd (hobWord s ((archOf s c).rdG ra + sx imm).toNat size) := by
  obtain ⟨p, now⟩ := load_now h
  refine ⟨_, now, coreReads_afterAccess, coreKeeps_exec, ?_⟩
  rw [afterAccess_arch, exec_arch]
  exact put_next_f rfl

/-- A load that issues and is not granted at once is pending. -/
theorem load_pends {isF : Bool} {rd ra : Reg} {imm : BitVec 16} {size : Nat} {signed wait : Bool}
    (issues : LoadIssues s c ra ⟨(archOf s c).rdG ra + sx imm, size, signed, isF, rd, none⟩)
    (refused : s.world.grantedNow c ⟨(archOf s c).rdG ra + sx imm, size, signed, isF, rd, none⟩ wait = false) :
    ∃ t, run s (fun w => w.load c isF rd ra imm size signed wait) = .next t ∧
      LoadPends s t c ⟨(archOf s c).rdG ra + sx imm, size, signed, isF, rd, none⟩ := by
  obtain ⟨t, e, pends⟩ := startLoad_pends (beats := 3) refused
  refine ⟨t, ?_, pends⟩
  rw [← e]
  simp only [run, load_starts issues]

theorem ownHobLoadResults : Says.OwnHobLoadResults := by
  intro s c rd ra imm
  dsimp only
  have plain : ∀ size, (⟨(archOf s c).rdG ra + sx imm, size, false, false, rd, none⟩ : LoadOp).value
      (s.world.bytes ((archOf s c).rdG ra + sx imm).toNat size) = BitVec.ofNat 64 (hobWord s ((archOf s c).rdG ra + sx imm).toNat size) :=
    fun _ => value_unsigned _ rfl
  have signed : ∀ size, size = 1 ∨ size = 2 ∨ size = 4 ∨ size = 8 →
      (⟨(archOf s c).rdG ra + sx imm, size, true, false, rd, none⟩ : LoadOp).value (s.world.bytes ((archOf s c).rdG ra + sx imm).toNat size) =
        (BitVec.ofNat (8 * size) (hobWord s ((archOf s c).rdG ra + sx imm).toNat size)).signExtend 64 :=
    fun _ sizes => value_signed rfl length_bytes sizes
  refine ⟨fun h => loadsG h (signed 1 (by decide)), fun h => loadsG h (plain 1), fun h => loadsG h (signed 2 (by decide)),
    fun h => loadsG h (plain 2), fun h => loadsG h (signed 4 (by decide)), fun h => loadsG h (plain 4), fun h => loadsG h (plain 8),
    fun h => loadsF h, fun h => loadsF h, fun w i o mem issues refused => ?_⟩
  simp only [List.mem_cons, List.not_mem_nil, or_false, Prod.mk.injEq] at mem
  rcases mem with ⟨rfl, rfl⟩ | ⟨rfl, rfl⟩ | ⟨rfl, rfl⟩ | ⟨rfl, rfl⟩ | ⟨rfl, rfl⟩ | ⟨rfl, rfl⟩ | ⟨rfl, rfl⟩ | ⟨rfl, rfl⟩ | ⟨rfl, rfl⟩ <;>
    exact load_pends issues refused

end Sys2Proof.Proofs
end

section
/-! O50: the stores (R136, R149, R157, R174). -/

namespace Sys2Proof.Proofs

open Machine Laws

set_option Elab.async false

variable {s : State} {c : CoreId}

/-- The buffer entries of a store of `n` bytes of `v` at `a` (R157, R174). -/
def storesOf (x : Arch) (k n : Nat) (a v : Word64) : List Store :=
  (partsOf a.toNat n).map fun p =>
    { addr := w64 p.1, data := v >>> (8 * (p.1 - a.toNat)), size := p.2, priv := x.priv k,
      denied := (x.mpuRefuses k .write (partsOf a.toNat n)).isSome, split := (partsOf a.toNat n).length == 2 && p.1 == a.toNat }

/-- The core after a store retires, or is held behind a pending load, with the entries `es`. -/
def buffers (k extra : Nat) (es : List Store) (q : Core) : Core :=
  let q := (q.exec k 1 Arch.next).waits extra
  if q.pend.isEmpty then { q with sb := q.sb ++ es } else { q with held := q.held ++ es }

theorem storeOp_buffers {isF : Bool} {rs ra : Reg} {imm : BitVec 16} {n : Nat} (issues : Issues s c [(isF, rs), (false, ra)])
    (ok : alignOk ((archOf s c).rdG ra + sx imm).toNat n = true)
    (room : (s.dev.core c).pend = [] → (s.dev.core c).sb.length + (partsOf ((archOf s c).rdG ra + sx imm).toNat n).length ≤ 8) :
    run s (fun w => w.storeOp c isF rs ra imm n) = .next (afterCore s c (buffers c ((partsOf ((archOf s c).rdG ra + sx imm).toNat n).length - 1)
      (storesOf (archOf s c) c n ((archOf s c).rdG ra + sx imm) (if isF then (archOf s c).rdF rs else (archOf s c).rdG rs)))) := by
  obtain ⟨issue, free⟩ := issues
  have core : s.world.dev.core c = s.dev.core c := rfl
  have fits : ((s.dev.core c).pend.isEmpty &&
      decide (8 < (s.dev.core c).sb.length + (partsOf ((archOf s c).rdG ra + sx imm).toNat n).length)) = false := by
    simp only [Bool.and_eq_false_iff, List.isEmpty_eq_false_iff, decide_eq_false_iff_not, not_lt]
    by_cases h : (s.dev.core c).pend = []
    · exact .inr (room h)
    · exact .inl h
  simp only [archOf] at fits ok
  simp only [run, W.storeOp, W.issue, core, issue, free, Bool.and_self, if_true, archOf, ok, Bool.not_true, Bool.false_eq_true, if_false]
  split
  · next full => exact absurd full (Bool.eq_false_iff.mp fits)
  · rfl

theorem entersBuffer {extra : Nat} {es : List Store} : EntersBuffer s (afterCore s c (buffers c extra es)) c es := by
  refine ⟨coreOnly_afterCore, ?_, ?_⟩
  · simp only [archOf, afterCore_core, buffers, Core.exec, Core.waits]
    by_cases h : (s.dev.core c).pend.isEmpty = true
    · simp [h, Core.count]
    · simp [h, Core.count]
  · simp only [afterCore_core, buffers, Core.exec, Core.waits]
    by_cases h : (s.dev.core c).pend = []
    · simp [h, Core.count]
    · have ne : (s.dev.core c).pend.isEmpty = false := by simpa using h
      simp [h, ne, Core.count]

theorem sx_eq (imm : BitVec 16) : imm.signExtend 64 = sx imm := rfl

theorem partsOf_split {a n : Nat} (h : a % n ≠ 0) : partsOf a n = [(a, n - a % n), (a + (n - a % n), a % n)] := if_neg h

theorem length_partsOf (a n : Nat) : (partsOf a n).length = if a % n = 0 then 1 else 2 := by
  unfold partsOf
  split <;> rfl

theorem storesOf_aligned {x : Arch} {k n : Nat} {a v : Word64} (h : a.toNat % n = 0) :
    storesOf x k n a v = [⟨a, v, n, x.priv k, !x.mpu k (x.priv k) .write a.toNat, false⟩] := by
  have denied : ([(a.toNat, n)].find? fun p => !x.mpu k (x.priv k) .write p.1).isSome = !x.mpu k (x.priv k) .write a.toNat := by
    simp only [List.find?_cons, List.find?_nil]
    cases x.mpu k (x.priv k) .write a.toNat <;> rfl
  simp only [storesOf, partsOf_aligned h, Arch.mpuRefuses, Option.isSome_map, denied, List.map_cons, List.map_nil, Nat.sub_self,
    Nat.mul_zero, BitVec.ushiftRight_zero, w64, BitVec.ofNat_toNat, BitVec.setWidth_eq, List.length_singleton]
  rfl

theorem storesOf_split {x : Arch} {k n : Nat} {a v : Word64} (pos : 0 < n) (h : a.toNat % n ≠ 0) :
    storesOf x k n a v =
      [⟨a, v, n - a.toNat % n, x.priv k, !x.mpu k (x.priv k) .write a.toNat || !x.mpu k (x.priv k) .write (a.toNat + (n - a.toNat % n)), true⟩,
       ⟨BitVec.ofNat 64 (a.toNat + (n - a.toNat % n)), v >>> (8 * (n - a.toNat % n)), a.toNat % n, x.priv k,
        !x.mpu k (x.priv k) .write a.toNat || !x.mpu k (x.priv k) .write (a.toNat + (n - a.toNat % n)), false⟩] := by
  have lt := Nat.mod_lt a.toNat pos
  have denied : ([(a.toNat, n - a.toNat % n), (a.toNat + (n - a.toNat % n), a.toNat % n)].find? fun p =>
      !x.mpu k (x.priv k) .write p.1).isSome =
        (!x.mpu k (x.priv k) .write a.toNat || !x.mpu k (x.priv k) .write (a.toNat + (n - a.toNat % n))) := by
    simp only [List.find?_cons, List.find?_nil]
    cases x.mpu k (x.priv k) .write a.toNat <;> cases x.mpu k (x.priv k) .write (a.toNat + (n - a.toNat % n)) <;> rfl
  have ne : (a.toNat + (n - a.toNat % n) == a.toNat) = false := beq_false_of_ne (by omega)
  simp only [storesOf, partsOf_split h, Arch.mpuRefuses, Option.isSome_map, denied, List.map_cons, List.map_nil, Nat.sub_self,
    Nat.mul_zero, BitVec.ushiftRight_zero, w64, BitVec.ofNat_toNat, BitVec.setWidth_eq, ne, beq_self_eq_true, Bool.and_false,
    Nat.add_sub_cancel_left]
  rfl

/-- What a store that issues and finds its room answers. -/
theorem stores {isF : Bool} {rs ra : Reg} {imm : BitVec 16} {n : Nat} {es : List Store} (issues : Issues s c [(isF, rs), (false, ra)])
    (ok : alignOk ((archOf s c).rdG ra + sx imm).toNat n = true)
    (room : (s.dev.core c).pend = [] → (s.dev.core c).sb.length + (if ((archOf s c).rdG ra + sx imm).toNat % n = 0 then 1 else 2) ≤ 8)
    (entries : storesOf (archOf s c) c n ((archOf s c).rdG ra + sx imm) (if isF then (archOf s c).rdF rs else (archOf s c).rdG rs) = es) :
    ∃ t, run s (fun w => w.storeOp c isF rs ra imm n) = .next t ∧ EntersBuffer s t c es := by
  rw [← length_partsOf] at room
  refine ⟨_, storeOp_buffers issues ok room, ?_⟩
  rw [entries]
  exact entersBuffer

theorem storesEnterTheBuffer : Says.StoresEnterTheBuffer := by
  intro s c rs ra imm
  dsimp only
  simp only [sx_eq]
  have entries : ∀ n v, 0 < n → storesOf (archOf s c) c n ((archOf s c).rdG ra + sx imm) v =
      if ((archOf s c).rdG ra + sx imm).toNat % n = 0 then _ else _ := fun n v pos => by
    split
    · next h => exact storesOf_aligned h
    · next h => exact storesOf_split pos h
  refine ⟨fun ⟨⟨i, r⟩, ok⟩ => stores i ok r (entries 1 _ (by decide)), fun ⟨⟨i, r⟩, ok⟩ => stores i ok r (entries 2 _ (by decide)),
    fun ⟨⟨i, r⟩, ok⟩ => stores i ok r (entries 4 _ (by decide)), fun ⟨⟨i, r⟩, ok⟩ => stores i ok r (entries 8 _ (by decide)),
    fun ⟨⟨i, r⟩, ok⟩ => stores i ok r (entries 4 _ (by decide)), fun ⟨⟨i, r⟩, ok⟩ => stores i ok r (entries 8 _ (by decide))⟩

/-- Settles O50: an aligned load that its own hob grants reads the bytes that stand there (`load_now`), any other pends; a store
leaves its entries, whole or in halves, in the buffer (`storesOf_aligned`, `storesOf_split`). -/
theorem loadsAndStores : Obligations.LoadsAndStores := ⟨ownHobLoadResults, storesEnterTheBuffer⟩

end Sys2Proof.Proofs
end

section
/-! O51: the synchronising instructions, WAIT, and the control registers (R147, R150 to R156, R161, R462, R463). -/

namespace Sys2Proof.Proofs

open Machine Laws

set_option Elab.async false

variable {s t : State} {c : CoreId} {f : Core → Core}

/-! The issue of a serialising instruction. -/

theorem issueSerial_drained {act : W → W} (h : Drained s c) : s.world.issueSerial c act = act s.world := by
  have pend : (s.world.dev.core c).pend.isEmpty = true := by
    change (s.dev.core c).pend.isEmpty = true
    rw [h.2]
    rfl
  rw [W.issueSerial, h.1, pend]
  rfl

theorem privileged_drained {act : W → W} (h : Drained s c) (priv : (archOf s c).priv c = true) :
    s.world.privileged c act = act s.world := by
  rw [W.privileged, issueSerial_drained h]
  exact if_pos priv

theorem ctlAccess_drained {n : Nat} {write : Bool} {act : W → W} (h : Drained s c) (assigned : ctlAssigned n = true)
    (writes : (write && ctlReadOnly n) = false) (may : ctlUser n = true ∨ (archOf s c).priv c = true) :
    s.world.ctlAccess c n write act = act s.world := by
  have priv : (s.world.dev.core c).arch.priv c = (archOf s c).priv c := rfl
  rw [W.ctlAccess, issueSerial_drained h]
  simp only [assigned, writes, priv, Bool.not_true, Bool.or_self, Bool.false_eq_true, if_false]
  rcases may with may | may <;> simp [may]

/-! Changes of one core. -/

/-- A further change of core `c` that counts no beats. -/
theorem coreOnly_onCore {g : Core → Core} (h : CoreOnly s t c) (beats : ∀ q, (g q).beats = q.beats) :
    CoreOnly s { t with dev := t.dev.onCore c g } c := by
  obtain ⟨pending, fuse, mem, others, dev⟩ := h
  refine ⟨pending, fuse, mem, fun k ne => ?_, ?_⟩
  · rw [← others k ne]
    exact core_onCore_ne _ _ _ _ ne
  · have count : ((t.dev.onCore c g).core c).beats = (t.dev.core c).beats := by rw [core_onCore_self, beats]
    have beat : beatDev s { t with dev := t.dev.onCore c g } c = beatDev s t c := by simp only [beatDev, count]
    rw [beat]
    exact congrArg (fun d : Dev => { d with cores := (t.dev.onCore c g).cores }) dev

theorem archOf_onCore {g : Core → Core} : archOf { t with dev := t.dev.onCore c g } c = (g (t.dev.core c)).arch := by
  rw [archOf, core_onCore_self]

/-- An instruction that changes registers alone retires where nothing is pending. -/
theorem exec_retired {q : Core} {beats : Nat} {g : Arch → Arch} (h : q.pend = []) : (q.exec c beats g).retired = q.retired + 1 := by
  simp [Core.exec, Core.count, h]

/-- The world after an instruction that changes registers alone. -/
theorem runArch_world {beats : Nat} {g : Arch → Arch} :
    (s.world.runArch c beats g).dev = (afterCore s c fun q => q.exec c beats g).dev := rfl

theorem exec_awaited {q : Core} {beats : Nat} : (q.exec c beats Arch.next).awaited c = q.awaited c := by
  cases h : q.pend.isEmpty <;> simp only [Core.exec, Core.count, h, Bool.false_eq_true, if_false, if_true] <;> rfl

/-- SYNC.M and SYNC.F where every store has been accepted. -/
theorem syncs_pass (h : Drained s c) (empty : (s.dev.core c).sb = []) :
    Answers (.syncM c) s (fun t => JumpsTo s t c ((archOf s c).pc + 4) ∧ (t.dev.core c).retired = (s.dev.core c).retired + 1) ∧
    Answers (.syncF c) s (fun t => JumpsTo s t c ((archOf s c).pc + 4) ∧ (t.dev.core c).fbuf = none) := by
  have sb : (s.world.dev.core c).sb.isEmpty = true := by
    change (s.dev.core c).sb.isEmpty = true
    rw [empty]
    rfl
  constructor
  · refine ⟨afterExec s c 2 Arch.next, ?_, ⟨afterExec_regsOnly s c 2 _, afterExec_arch s c 2 _⟩, ?_⟩
    · change run s (fun w => w.issueSerial c fun w => if (w.dev.core c).sb.isEmpty then w.runArch c 2 Arch.next else w) = _
      simp only [run, issueSerial_drained h, sb, if_true]
      rfl
    · rw [afterExec_core, exec_retired h.2]
  · have only := coreOnly_onCore (g := fun q => { q with fbuf := none }) (afterExec_regsOnly s c 9 Arch.next).1 fun _ => rfl
    refine ⟨{ afterExec s c 9 Arch.next with dev := (afterExec s c 9 Arch.next).dev.onCore c fun q => { q with fbuf := none } }, ?_,
      ⟨⟨only, ?_⟩, ?_⟩, ?_⟩
    · change run s (fun w => w.issueSerial c fun w => if (w.dev.core c).sb.isEmpty then (w.runArch c 9 Arch.next).dropFetch c else w) = _
      simp only [run, issueSerial_drained h, sb, if_true]
      rfl
    · simp only [CoreKeeps, core_onCore_self, afterExec_core, Core.exec]
      split <;> rfl
    · rw [archOf_onCore]
      exact afterExec_arch s c 9 _
    · rw [core_onCore_self]

/-- SYNC.M and SYNC.F wait for the store buffer. -/
theorem syncs_wait (h : Drained s c) (full : (s.dev.core c).sb ≠ []) :
    Answers (.syncM c) s (fun t => t = { s with dev := { s.dev with out := .none } }) ∧
    Answers (.syncF c) s (fun t => t = { s with dev := { s.dev with out := .none } }) := by
  have sb : (s.world.dev.core c).sb.isEmpty = false := by
    change (s.dev.core c).sb.isEmpty = false
    simpa using full
  constructor
  · refine ⟨_, ?_, rfl⟩
    change run s (fun w => w.issueSerial c fun w => if (w.dev.core c).sb.isEmpty then w.runArch c 2 Arch.next else w) = _
    simp only [run, issueSerial_drained h, sb, Bool.false_eq_true, if_false]
    rfl
  · refine ⟨_, ?_, rfl⟩
    change run s (fun w => w.issueSerial c fun w => if (w.dev.core c).sb.isEmpty then (w.runArch c 9 Arch.next).dropFetch c else w) = _
    simp only [run, issueSerial_drained h, sb, Bool.false_eq_true, if_false]
    rfl

/-! SYNC.C (R154). -/

/-- Registers that take effect in turn, none of them twice. -/
theorem ctl_foldl (rows : List (Nat × Word64)) (x : Arch) (k n : Nat) (nodup : (rows.map (·.1)).Nodup) :
    (rows.foldl (fun x r => x.setCtl r.1 r.2) x).ctl k n = (⟨rows⟩ : Tbl Word64).getD n (x.ctl k n) := by
  induction rows generalizing x with
  | nil => rfl
  | cons r rows ih =>
    simp only [List.map_cons, List.nodup_cons] at nodup
    rw [List.foldl_cons, ih _ nodup.2, ctl_setCtl]
    by_cases e : r.1 = n
    · subst e
      have out : rows.find? (fun q => q.1 == r.1) = none := List.find?_eq_none.mpr fun q mem e =>
        nodup.1 (List.mem_map.mpr ⟨q, mem, by simpa using e⟩)
      simp [Tbl.getD, Tbl.get?, out]
    · simp [Tbl.getD, Tbl.get?, e, Ne.symm e]

theorem foldl_setCtl (rows : List (Nat × Word64)) (x : Arch) :
    (rows.foldl (fun x r => x.setCtl r.1 r.2) x).g = x.g ∧ (rows.foldl (fun x r => x.setCtl r.1 r.2) x).f = x.f ∧
    (rows.foldl (fun x r => x.setCtl r.1 r.2) x).pc = x.pc := by
  induction rows generalizing x with
  | nil => exact ⟨rfl, rfl, rfl⟩
  | cons r rows ih => exact ih _

/-- The registers as SYNC.C brings what is written into force. -/
def synced (x : Arch) : Arch := { x.crw.rows.foldl (fun x r => x.setCtl r.1 r.2) x with crw := ⟨[]⟩ }

theorem ctl_synced {x : Arch} {k n : Nat} (nodup : (x.crw.rows.map (·.1)).Nodup) : (synced x).ctl k n = x.crw.getD n (x.ctl k n) :=
  ctl_foldl x.crw.rows x k n nodup

theorem onCore_congr {d : Dev} {k : Nat} {f g : Core → Core} (h : f (d.core k) = g (d.core k)) : d.onCore k f = d.onCore k g := by
  rw [Dev.onCore, Dev.onCore, h]

/-- The core as SYNC.C brings what is written into force. -/
def syncedCore (q : Core) : Core := { q with arch := synced q.arch }

/-- Where no watchdog word is written, SYNC.C changes registers alone. -/
theorem applySync_plain {w : W} {k : Nat} (none10 : ∀ r ∈ (w.dev.core k).arch.crw.rows, r.1 ≠ 10) :
    w.applySync k = w.upd fun d => d.onCore k syncedCore := by
  have all : ((w.dev.core k).arch.crw.rows.filter fun r => r.1 != 10 || !(w.dev.wdt k).locked) = (w.dev.core k).arch.crw.rows :=
    List.filter_eq_self.mpr fun r mem => by simp [none10 r mem]
  have none : (w.dev.core k).arch.crw.rows.find? (fun r => r.1 == 10) = none :=
    List.find?_eq_none.mpr fun r mem => by simpa using none10 r mem
  simp only [W.applySync, all, none]
  exact congrArg (fun d => ({ w with dev := d } : W)) (onCore_congr rfl)

/-- The state after SYNC.C where no watchdog word is written. -/
def afterSync (s : State) (c : CoreId) : State :=
  { s with dev := ((afterExec s c 5 Arch.next).dev.onCore c syncedCore).onCore c fun q => { q with fbuf := none } }

theorem syncC_runs (h : Drained s c) (priv : (archOf s c).priv c = true) (none10 : ∀ r ∈ (archOf s c).crw.rows, r.1 ≠ 10) :
    exec (.syncC c) s = .next (afterSync s c) := by
  have arch : ((s.world.runArch c 5 Arch.next).dev.core c).arch = (archOf s c).next := afterExec_arch s c 5 _
  have plain := applySync_plain (w := s.world.runArch c 5 Arch.next) (k := c) (by rw [arch]; exact none10)
  change run s (fun w => w.privileged c fun w => ((w.runArch c 5 Arch.next).applySync c).dropFetch c) = _
  simp only [run, privileged_drained h priv, plain]
  rfl

theorem syncC_syncs (h : Drained s c) (priv : (archOf s c).priv c = true) (nodup : ((archOf s c).crw.rows.map (·.1)).Nodup)
    (none10 : ∀ r ∈ (archOf s c).crw.rows, r.1 ≠ 10) :
    Answers (.syncC c) s fun t => RegsOnly s t c ∧
      (∀ n, (archOf t c).ctl c n = (archOf s c).crw.getD n ((archOf s c).ctl c n)) ∧ (archOf t c).crw.rows = [] ∧
      (archOf t c).g = (archOf s c).g ∧ (archOf t c).f = (archOf s c).f ∧ (archOf t c).pc = (archOf s c).pc + 4 ∧
      (t.dev.core c).fbuf = none := by
  have core : (afterSync s c).dev.core c = { syncedCore ((s.dev.core c).exec c 5 Arch.next) with fbuf := none } := by
    simp only [afterSync, core_onCore_self, afterExec_core]
  refine ⟨_, syncC_runs h priv none10, ⟨?_, ?_⟩, ?_⟩
  · exact coreOnly_onCore (g := fun q => { q with fbuf := none })
      (coreOnly_onCore (g := syncedCore) (afterExec_regsOnly s c 5 Arch.next).1 fun _ => rfl) fun _ => rfl
  · simp only [CoreKeeps, core, syncedCore, Core.exec]
    split <;> rfl
  · obtain ⟨g, f, pc⟩ := foldl_setCtl (archOf s c).crw.rows (archOf s c).next
    have arch : archOf (afterSync s c) c = synced (archOf s c).next := by rw [archOf, core, syncedCore, exec_arch]; rfl
    rw [arch, core]
    exact ⟨fun n => ctl_foldl _ _ _ _ nodup, rfl, g, f, pc, rfl⟩

end Sys2Proof.Proofs
end

section
/-! O51: WAIT and its end, and the control registers. -/

namespace Sys2Proof.Proofs

open Machine Laws

set_option Elab.async false

variable {s t : State} {c : CoreId} {f : Core → Core}

/-! WAIT (R462, R463). -/

theorem wait_waits (h : Drained s c) (priv : (archOf s c).priv c = true) (cut : s.dev.images.cut = none) :
    Answers (.wait c) s fun t => CoreOnly s t c ∧ archOf t c = { archOf s c with pc := (archOf s c).pc + 4 } ∧
      (t.dev.core c).wait = if (s.dev.core c).awaited c then (s.dev.core c).wait else .wait := by
  have stays : (s.world.runArch c 2 Arch.next).switchPoint c = false := by
    have e : (s.world.runArch c 2 Arch.next).dev.images.cut = none := cut
    rw [W.switchPoint, W.cutWaits, e]
  have core : (s.world.runArch c 2 Arch.next).dev.core c = (s.dev.core c).exec c 2 Arch.next := afterExec_core s c 2 _
  have kept : ((s.dev.core c).exec c 2 Arch.next).wait = (s.dev.core c).wait := by
    simp [Core.exec, Core.count, h.2]
  by_cases awaited : (s.dev.core c).awaited c = true
  · refine ⟨afterExec s c 2 Arch.next, ?_, (afterExec_regsOnly s c 2 _).1, afterExec_arch s c 2 _, ?_⟩
    · change run s (fun w => w.privileged c _) = _
      simp only [run, privileged_drained h priv, stays, core, exec_awaited, awaited, Bool.false_eq_true, if_false, if_true]
      rfl
    · rw [afterExec_core, kept, if_pos awaited]
  · refine ⟨{ afterExec s c 2 Arch.next with dev := (afterExec s c 2 Arch.next).dev.onCore c fun q => { q with wait := .wait } }, ?_,
      coreOnly_onCore (afterExec_regsOnly s c 2 _).1 fun _ => rfl, ?_, ?_⟩
    · change run s (fun w => w.privileged c _) = _
      simp only [run, privileged_drained h priv, stays, core, exec_awaited, awaited, Bool.false_eq_true, if_false]
      rfl
    · rw [archOf_onCore]
      exact afterExec_arch s c 2 _
    · rw [core_onCore_self, if_neg awaited]

/-! CORE_WAKE (R463): domains and hobs wake, and nothing else. -/

/-- Nothing changes but domains and hobs, and none of them sleeps that did not. -/
def Wakes (w w' : W) : Prop :=
  w'.dev = { w.dev with hobs := w'.dev.hobs, power := { w.dev.power with doms := w'.dev.power.doms } } ∧
  w'.fuse = w.fuse ∧ w'.ops = w.ops ∧
  (∀ n, (w.dev.dom n).st = .on → (w'.dev.dom n).st = .on) ∧ ∀ u, (w.dev.hob u).power = .awake → (w'.dev.hob u).power = .awake

theorem Wakes.refl {w : W} : Wakes w w := ⟨rfl, rfl, rfl, fun _ => id, fun _ => id⟩

theorem Wakes.trans {a b c : W} (h : Wakes a b) (k : Wakes b c) : Wakes a c := by
  obtain ⟨dev, fuse, ops, doms, hobs⟩ := h
  obtain ⟨dev', fuse', ops', doms', hobs'⟩ := k
  refine ⟨?_, fuse'.trans fuse, ops'.trans ops, fun n => doms' n ∘ doms n, fun u => hobs' u ∘ hobs u⟩
  rw [dev'] 
  rw [dev]

theorem dom_onHob (d : Dev) (u n : Nat) (f : Hob → Hob) : (d.onHob u f).dom n = d.dom n := rfl

theorem hob_onHob (d : Dev) (u v : Nat) (f : Hob → Hob) : (d.onHob u f).hob v = if v = u then f (d.hob u) else d.hob v := by
  rw [Dev.hob, Dev.onHob, getD_set]
  rfl

theorem dom_onDom (d : Dev) (u v : Nat) (f : Domain → Domain) : (d.onDom u f).dom v = if v = u then f (d.dom u) else d.dom v := by
  rw [Dev.dom, Dev.onDom, getD_set]
  rfl

theorem wakes_domainUp {w : W} {n : Nat} : Wakes w (w.domainUp n) ∧ ((w.domainUp n).dev.dom n).st = .on := by
  unfold W.domainUp
  by_cases range : 208 ≤ n ∧ n < 224
  · simp only [if_pos range]
    refine ⟨⟨rfl, rfl, rfl, fun m on => ?_, fun u awake => ?_⟩, ?_⟩
    · simp only [upd_dev, dom_onHob, dom_onDom]
      split <;> first | rfl | exact on
    · simp only [upd_dev, hob_onHob]
      split <;> first | rfl | exact awake
    · simp only [upd_dev, dom_onHob, dom_onDom, if_true]
  · simp only [if_neg range]
    refine ⟨⟨rfl, rfl, rfl, fun m on => ?_, fun u awake => awake⟩, ?_⟩
    · simp only [upd_dev, dom_onDom]
      split <;> first | rfl | exact on
    · simp only [upd_dev, dom_onDom, if_true]

theorem wakes_wakeDom {w : W} {n : Nat} : Wakes w (w.wakeDom n) ∧ ((w.wakeDom n).dev.dom n).st = .on := by
  unfold W.wakeDom
  split
  · next on => exact ⟨.refl, on⟩
  · exact wakes_domainUp

theorem wakes_each (ls : List Nat) (g : Nat → Nat) (w : W) :
    Wakes w (w.each ls fun l w => w.wakeDom (g l)) ∧ ∀ l ∈ ls, ((w.each ls fun l w => w.wakeDom (g l)).dev.dom (g l)).st = .on := by
  induction ls generalizing w with
  | nil => exact ⟨.refl, fun _ h => by cases h⟩
  | cons l ls ih =>
    obtain ⟨wakes, on⟩ := wakes_wakeDom (w := w) (n := g l)
    obtain ⟨more, ons⟩ := ih (w.wakeDom (g l))
    refine ⟨wakes.trans more, fun k mem => ?_⟩
    rcases List.mem_cons.mp mem with rfl | mem
    · exact more.2.2.2.1 _ on
    · exact ons k mem

theorem wakes_wakeHob {w : W} {u : Nat} : Wakes w (w.wakeHob u) ∧ ((w.wakeHob u).dev.hob u).power = .awake := by
  unfold W.wakeHob
  split
  · next awake => exact ⟨.refl, awake⟩
  · have hob (v : Nat) : ((w.dev.onHob u fun h => { h with power := .awake }).onDom (hobDom u) fun x => { x with st := .on }).hob v =
        if v = u then { w.dev.hob u with power := .awake } else w.dev.hob v :=
      hob_onHob w.dev u v fun h => { h with power := .awake }
    refine ⟨⟨rfl, rfl, rfl, fun m on => ?_, fun v awake => ?_⟩, ?_⟩
    · simp only [upd_dev, dom_onDom]
      split <;> first | rfl | exact on
    · simp only [upd_dev, hob]
      split <;> first | rfl | exact awake
    · simp only [upd_dev, hob, if_true]

theorem coreWake_wakes (runs : (s.dev.core c).run = true) (waits : (s.dev.core c).wait = .wait) (awaited : (s.dev.core c).awaited c = true)
    (noDebug : (s.dev.core c).dbgReq = false) (off : s.world.atSwitch c = false) :
    Answers (.coreWake c) s fun t =>
      t.dev.core c = { s.dev.core c with wait := .awake } ∧ (∀ k, k ≠ c.val → t.dev.core k = s.dev.core k) ∧
      (t.dev.hob (unitOf c)).power = .awake ∧
      (∀ l ∈ [(s.dev.seam c).a, (s.dev.seam c).b, (s.dev.seam c).c].filterMap id,
        (t.dev.dom (if c.val < 64 then 13 * (c.val / 4) + l else 224 + l)).st = .on) ∧
      t.pending = s.pending ∧ t.fuse = s.fuse ∧ t.mem = s.mem ∧
      t.dev = { s.dev with out := .none, cores := t.dev.cores, hobs := t.dev.hobs,
                           power := { s.dev.power with doms := t.dev.power.doms } } := by
  let w1 := s.world.upd fun d => d.onCore c fun q => { q with wait := .awake }
  let w2 := w1.wakeLanes c
  let w3 := w2.wakeHob (unitOf c)
  obtain ⟨lanes, on⟩ := wakes_each ([(s.dev.seam c).a, (s.dev.seam c).b, (s.dev.seam c).c].filterMap id)
    (fun l => if c.val < 64 then 13 * (c.val / 4) + l else 224 + l) w1
  obtain ⟨hob, awake⟩ := wakes_wakeHob (w := w2) (u := unitOf c)
  have all : Wakes w1 w3 := lanes.trans hob
  obtain ⟨dev, fuse, ops, doms, -⟩ := all
  have core : ∀ k, w3.dev.core k = w1.dev.core k := fun k => by rw [dev]; rfl
  have self : w3.dev.core c = { s.dev.core c with wait := .awake } := by rw [core]; exact core_onCore_self _ _ _
  have stays : w3.takeDebug c = w3 := by simp [W.takeDebug, self, noDebug]
  refine ⟨{ s with dev := w3.dev, mem := s.mem.applyAll w3.ops }, ?_, self, fun k ne => ?_, awake, fun l mem => ?_, rfl, rfl, ?_, ?_⟩
  · have guard : (s.world.dev.core c).run && (s.world.dev.core c).wait == .wait && (s.world.dev.core c).awaited c &&
        !s.world.atSwitch c := by
      change ((s.dev.core c).run && (s.dev.core c).wait == .wait && (s.dev.core c).awaited c && !s.world.atSwitch c) = true
      simp [runs, waits, awaited, off]
    change run s _ = _
    simp only [run, guard, if_true]
    change Host.Outcome.next { s with dev := (w3.takeDebug c).dev, mem := s.mem.applyAll (w3.takeDebug c).ops } = _
    rw [stays]
  · rw [core]
    exact core_onCore_ne _ _ _ _ ne
  · exact hob.2.2.2.1 _ (on l mem)
  · rw [ops]
    rfl
  · have cores : w1.dev.cores = w3.dev.cores := by rw [dev]
    exact dev.trans (congrArg (fun cs : Tbl Core => { s.dev with out := .none, cores := cs, hobs := w3.dev.hobs, power :=
      { s.dev.power with doms := w3.dev.power.doms } }) cores)

theorem synchronisingInstructions : Says.SynchronisingInstructions := fun _ _ =>
  ⟨syncs_pass, syncs_wait, syncC_syncs, wait_waits, coreWake_wakes⟩

end Sys2Proof.Proofs
end

section
/-! O51: the control registers (R151 to R154, R161). -/

namespace Sys2Proof.Proofs

open Machine Laws

set_option Elab.async false

variable {s t : State} {c : CoreId} {r : Reg}

/-! CTLRD (R152). -/

/-- The value that the statement spells is the value that CTLRD reads. -/
theorem ctlValue_eq (k : Nat) : s.world.ctlValue c k =
    if k = 0 then w64 ((if c.val < 64 then c.val else 0x3F) + 64 * s.dev.chim.pos.toNat + (if c.val < 64 then 0 else 512))
    else if k = 0x41 then (s.dev.core c).ipend
    else if k = 10 ∧ (s.dev.wdt c).locked = true then (s.dev.wdt c).ctl
    else if k = 0x42 ∨ k = 11 ∨ k = 12 then 0
    else if k = 0x200 then s.world.beatsNow c
    else if k = 0x201 then (s.dev.core c).retired
    else if k = 0x202 then (s.dev.core c).stalls
    else if k = 0x203 then s.dev.clock.tb
    else (archOf s c).crw.getD k ((archOf s c).ctl c k) := by
  have id : s.world.coreIdReg c = w64 ((if c.val < 64 then c.val else 0x3F) + 64 * s.dev.chim.pos.toNat + (if c.val < 64 then 0 else 512)) := by
    have at9 : at_ (if c.val < 64 then 0 else if c.val = 64 then 1 else 2) 9 = if c.val < 64 then 0 else 512 := by
      have := c.isLt
      split
      · rfl
      · rw [if_pos (by omega)]
        rfl
    have at6 : at_ s.dev.chim.pos.toNat 6 = 64 * s.dev.chim.pos.toNat := Nat.mul_comm _ _
    rw [W.coreIdReg, at9]
    change w64 (_ + at_ s.dev.chim.pos.toNat 6 + _) = _
    rw [at6]
  rw [W.ctlValue, id]
  rfl

/-- What CTLRD does once no trap stands against it. -/
def ctlrdAct (c : CoreId) (r : Reg) (n : Nat) (w : W) : W :=
  if ctlVoted n && (w.dev.seam c).tokenOpen (ctlToken r n ((w.dev.core c).arch.priv c)) then w
  else
    let v := w.ctlValue c n
    w.runArch c 2 fun x => (x.wrG r v).next

/-- CTLRD of a voted register waits while the vote on its read is open, and reads it otherwise. -/
theorem ctlrd_reads {n : BitVec 12} (h : Drained s c) (assigned : ctlAssigned n.toNat = true)
    (may : ctlUser n.toNat = true ∨ (archOf s c).priv c = true) :
    ((ctlVoted n.toNat && (s.dev.seam c).tokenOpen (ctlToken r n.toNat ((archOf s c).priv c))) = true → Answers (.ctlrd c r n) s (Only s · id)) ∧
    ((ctlVoted n.toNat && (s.dev.seam c).tokenOpen (ctlToken r n.toNat ((archOf s c).priv c))) = false →
      Answers (.ctlrd c r n) s (WritesG s · c r (s.world.ctlValue c n.toNat))) := by
  have runs : exec (.ctlrd c r n) s = run s (fun w => ctlrdAct c r n.toNat w) := by
    change run s (fun w => w.ctlAccess c n.toNat false (ctlrdAct c r n.toNat)) = _
    simp only [run, ctlAccess_drained (n := n.toNat) (write := false) (act := ctlrdAct c r n.toNat) h assigned rfl may]
  constructor
  · intro voted
    have waits : ctlrdAct c r n.toNat s.world = s.world := if_pos voted
    exact ⟨_, by rw [runs, run, waits]; rfl, rfl⟩
  · intro voted
    have reads : ctlrdAct c r n.toNat s.world = s.world.runArch c 2 fun x => (x.wrG r (s.world.ctlValue c n.toNat)).next :=
      if_neg (by rw [show (ctlVoted n.toNat && (s.world.dev.seam c).tokenOpen (ctlToken r n.toNat ((s.world.dev.core c).arch.priv c))) = false from voted]; simp)
    refine ⟨afterExec s c 2 fun x => (x.wrG r (s.world.ctlValue c n.toNat)).next, by rw [runs, run, reads]; rfl, afterExec_regsOnly s c 2 _, ?_⟩
    rw [afterExec_arch]
    obtain ⟨f, cr, crw, pc⟩ := wrG_keeps (archOf s c) r (s.world.ctlValue c n.toNat)
    exact ⟨fun q => rdG_wrG _ _ _ _, f, cr, crw, by rw [Arch.next, pc]⟩

/-! CTLWR (R151, R153, R154, R161). -/

/-- The state after a CTLWR that has retired, whose register then changes the core by `g`. -/
def afterCtl (s : State) (c : CoreId) (g : Core → Core) : State :=
  { s with dev := (afterExec s c 2 Arch.next).dev.onCore c g }

theorem afterCtl_core {g : Core → Core} : (afterCtl s c g).dev.core c = g ((s.dev.core c).exec c 2 Arch.next) := by
  rw [afterCtl, core_onCore_self, afterExec_core]

theorem coreOnly_afterCtl {g : Core → Core} (beats : ∀ q, (g q).beats = q.beats) : CoreOnly s (afterCtl s c g) c :=
  coreOnly_onCore (afterExec_regsOnly s c 2 Arch.next).1 beats

theorem arch_exec_next : ((s.dev.core c).exec c 2 Arch.next).arch = (archOf s c).next := exec_arch _ _ _ _

/-- A CTLWR that may write runs to its register's own effect. -/
theorem ctlWrite_runs {n : Nat} {g : Core → Core} (h : Drained s c) (assigned : ctlAssigned n = true) (writes : ctlReadOnly n = false)
    (may : ctlUser n = true ∨ (archOf s c).priv c = true)
    (set : (s.world.runArch c 2 Arch.next).ctlSet c n ((archOf s c).rdG r) = (s.world.runArch c 2 Arch.next).upd fun d => d.onCore c g) :
    run s (fun w => w.ctlWrite c r n) = .next (afterCtl s c g) := by
  have access (act : W → W) := ctlAccess_drained (n := n) (write := true) (act := act) h assigned (by rw [writes]; rfl) may
  have value : (s.world.dev.core c).arch.rdG r = (archOf s c).rdG r := rfl
  simp only [run, W.ctlWrite, access, value, set]
  rfl

/-- A write of a register that takes effect at once. -/
theorem ctlWrite_now {n : Nat} {m : Nat} (h : Drained s c) (assigned : ctlAssigned n = true) (writes : ctlReadOnly n = false)
    (may : ctlUser n = true ∨ (archOf s c).priv c = true) (plain : n ∉ [10, 11, 12, 0x41, 0x42]) (now : ctlSynced n = false)
    (stored : ctlStored n ((archOf s c).rdG r) = (archOf s c).rdG r &&& w64 m) :
    ∃ t, run s (fun w => w.ctlWrite c r n) = .next t ∧ RegsOnly s t c ∧
      (∀ k, (archOf t c).ctl c k = if k = n then (archOf s c).rdG r &&& w64 m else (archOf s c).ctl c k) ∧
      (archOf t c).g = (archOf s c).g ∧ (archOf t c).f = (archOf s c).f ∧ (archOf t c).crw = (archOf s c).crw ∧
      (archOf t c).pc = (archOf s c).pc + 4 := by
  simp only [List.mem_cons, List.not_mem_nil, or_false, not_or] at plain
  obtain ⟨n10, n11, n12, n41, n42⟩ := plain
  let g : Core → Core := fun q => { q with arch := q.arch.setCtl n ((archOf s c).rdG r &&& w64 m) }
  have set : (s.world.runArch c 2 Arch.next).ctlSet c n ((archOf s c).rdG r) = (s.world.runArch c 2 Arch.next).upd fun d => d.onCore c g := by
    simp only [W.ctlSet, n10, n11, n12, n41, n42, now, stored, false_and, Bool.false_eq_true, if_false]
    rfl
  refine ⟨_, ctlWrite_runs h assigned writes may set, ⟨coreOnly_afterCtl fun _ => rfl, ?_⟩, ?_⟩
  · simp only [CoreKeeps, afterCtl_core, g, Core.exec]
    split <;> rfl
  · have arch : archOf (afterCtl s c g) c = (archOf s c).next.setCtl n ((archOf s c).rdG r &&& w64 m) := by
      rw [archOf, afterCtl_core, ← arch_exec_next]
    rw [arch]
    exact ⟨fun k => ctl_setCtl _ _ _ _ _, rfl, rfl, rfl, rfl⟩

/-- A write of a register that waits for SYNC.C (R154). -/
theorem ctlWrite_held {n : Nat} {m : Nat} (h : Drained s c) (assigned : ctlAssigned n = true) (writes : ctlReadOnly n = false)
    (may : ctlUser n = true ∨ (archOf s c).priv c = true) (plain : n ∉ [10, 11, 12, 0x41, 0x42]) (held : ctlSynced n = true)
    (stored : ctlStored n ((archOf s c).rdG r) = (archOf s c).rdG r &&& w64 m) :
    ∃ t, run s (fun w => w.ctlWrite c r n) = .next t ∧ RegsOnly s t c ∧
      (∀ k, (archOf t c).crw.get? k = if k = n then some ((archOf s c).rdG r &&& w64 m) else (archOf s c).crw.get? k) ∧
      (archOf t c).cr = (archOf s c).cr ∧ (archOf t c).g = (archOf s c).g ∧ (archOf t c).f = (archOf s c).f ∧
      (archOf t c).pc = (archOf s c).pc + 4 := by
  simp only [List.mem_cons, List.not_mem_nil, or_false, not_or] at plain
  obtain ⟨n10, n11, n12, n41, n42⟩ := plain
  let g : Core → Core := fun q => { q with arch := { q.arch with crw := q.arch.crw.set n ((archOf s c).rdG r &&& w64 m) } }
  have set : (s.world.runArch c 2 Arch.next).ctlSet c n ((archOf s c).rdG r) = (s.world.runArch c 2 Arch.next).upd fun d => d.onCore c g := by
    simp only [W.ctlSet, n10, n11, n12, n41, n42, held, stored, false_and, if_false, if_true]
    rfl
  refine ⟨_, ctlWrite_runs h assigned writes may set, ⟨coreOnly_afterCtl fun _ => rfl, ?_⟩, ?_⟩
  · simp only [CoreKeeps, afterCtl_core, g, Core.exec]
    split <;> rfl
  · have arch : archOf (afterCtl s c g) c = { (archOf s c).next with crw := (archOf s c).crw.set n ((archOf s c).rdG r &&& w64 m) } := by
      rw [archOf, afterCtl_core]
      simp only [g, arch_exec_next]
      rfl
    rw [arch]
    refine ⟨fun k => ?_, rfl, rfl, rfl, rfl⟩
    by_cases e : k = n
    · rw [e, if_pos rfl]
      exact get_set_self _ _ _
    · rw [if_neg e]
      exact get_set_ne _ _ _ _ e

/-- A write stores the bits of its mask; FPSR alone stores another value where its rounding mode is reserved. -/
theorem ctlStored_eq {n m : Nat} {v : Word64} (ne : n ≠ 0x10) (mask : ctlMask n = m) (small : m < 2 ^ 64) : ctlStored n v = v &&& w64 m := by
  have land : w64 (Nat.land v.toNat m) = v &&& w64 m := by
    apply BitVec.eq_of_toNat_eq
    change (BitVec.ofNat 64 (v.toNat &&& m)).toNat = _
    rw [BitVec.toNat_and, w64, BitVec.toNat_ofNat, BitVec.toNat_ofNat, Nat.mod_eq_of_lt small,
      Nat.mod_eq_of_lt (Nat.lt_of_le_of_lt Nat.and_le_left v.isLt)]
  simp only [ctlStored, mask, land, ne, false_and, if_false]

/-- A write of an interrupt register (R161). -/
theorem ctlWrite_pend {n : Nat} {p : Word64 → Word64} (h : Drained s c) (assigned : ctlAssigned n = true) (writes : ctlReadOnly n = false)
    (may : ctlUser n = true ∨ (archOf s c).priv c = true)
    (set : ∀ w : W, w.ctlSet c n ((archOf s c).rdG r) = w.upd fun d => d.onCore c fun q => { q with ipend := p q.ipend }) :
    ∃ t, run s (fun w => w.ctlWrite c r n) = .next t ∧ CoreOnly s t c ∧ archOf t c = { archOf s c with pc := (archOf s c).pc + 4 } ∧
      (t.dev.core c).ipend = p (s.dev.core c).ipend := by
  refine ⟨_, ctlWrite_runs h assigned writes may (set _), coreOnly_afterCtl fun _ => rfl, ?_, ?_⟩
  · rw [archOf, afterCtl_core]
    exact arch_exec_next
  · rw [afterCtl_core]
    dsimp only
    cases e : (s.dev.core c).pend.isEmpty <;> simp [Core.exec, Core.count, e]

/-- What a listed register that a privileged CTLWR stores into is: assigned, writable, and of the mask that stands by it. -/
def StoredBy (synced : Bool) (p : Nat × Nat) : Prop :=
  ctlAssigned p.1 = true ∧ ctlReadOnly p.1 = false ∧ p.1 ∉ [10, 11, 12, 0x41, 0x42] ∧ ctlSynced p.1 = synced ∧ p.1 ≠ 0x10 ∧
    ctlMask p.1 = p.2 ∧ p.2 < 2 ^ 64 ∧ p.1 < 2 ^ 12

theorem storedBy_now : ∀ p ∈ [(1, 0xFFF), (2, 0xFFFFFFFFFFFFFFFF), (3, 0xFFBF), (4, 0xFFFFFFFFFFFFFFFF), (5, 0xFFFFFFFFFFFFFFFF),
    (6, 0xFFFFFFFFFFFFFFFF), (0x40, 0x1FFBFFF7FFFFFFFF), (0x43, 0xF), (0x44, 0xFFFFFFFFFFFFFFFF), (0x45, 0xFFFFFFFFFFFFFFFF),
    (0x46, 0xFFFFFFFFFFFF0FFF), (0x47, 0x000FFFFFFFFFF0FF), (0x48, 0x7FFFF)], StoredBy false p := by
  unfold StoredBy
  decide

theorem storedBy_held : ∀ p ∈ [(8, 0xFFFFFFFFFFFFFF00), (9, 3), (0x120, 1)], StoredBy true p := by
  unfold StoredBy
  decide

theorem controlRegisterAccess : Says.ControlRegisterAccess := by
  intro s c r
  refine ⟨fun n h assigned may => ?_, fun n m h priv mem => ?_, fun n m h priv mem => ?_, fun h priv => ⟨?_, ?_⟩⟩
  · have reads := ctlrd_reads (r := r) h assigned may
    rw [ctlValue_eq] at reads
    exact reads
  · obtain ⟨assigned, writes, plain, now, ne, mask, small, fits⟩ := storedBy_now _ mem
    have toNat : (BitVec.ofNat 12 n).toNat = n := by rw [BitVec.toNat_ofNat, Nat.mod_eq_of_lt fits]
    obtain ⟨t, runs, holds⟩ := ctlWrite_now (r := r) h assigned writes (.inr priv) plain now (ctlStored_eq ne mask small)
    exact ⟨t, (congrArg (fun k => run s fun w => w.ctlWrite c r k) toNat).trans runs, holds⟩
  · obtain ⟨assigned, writes, plain, held, ne, mask, small, fits⟩ := storedBy_held _ mem
    have toNat : (BitVec.ofNat 12 n).toNat = n := by rw [BitVec.toNat_ofNat, Nat.mod_eq_of_lt fits]
    obtain ⟨t, runs, holds⟩ := ctlWrite_held (r := r) h assigned writes (.inr priv) plain held (ctlStored_eq ne mask small)
    exact ⟨t, (congrArg (fun k => run s fun w => w.ctlWrite c r k) toNat).trans runs, holds⟩
  · exact ctlWrite_pend (r := r) (n := 0x42) (p := fun p => p ||| ((archOf s c).rdG r &&& intSources)) h (by decide) (by decide) (.inr priv) fun w => rfl
  · exact ctlWrite_pend (r := r) (n := 0x41) (p := fun p => p &&& ~~~(archOf s c).rdG r) h (by decide) (by decide) (.inr priv) fun w => rfl

/-- Settles O51: the drained core issues each of them serially, and no trap stands against it. -/
theorem systemInstructions : Obligations.SystemInstructions := ⟨synchronisingInstructions, controlRegisterAccess⟩

end Sys2Proof.Proofs
end

section
/-! O52: entries into a handler (R162 to R169), RETE, and the traps of user mode (R140, R151, R163). -/

namespace Sys2Proof.Proofs

open Machine Laws

set_option Elab.async false

variable {s t : State} {c : CoreId} {w : W}

/-! The beat counters of the hearths (R134). -/

theorem beat_zero (d : Dev) (u : Nat) : d.beat u 0 = d := by
  have beats : (d.clock.beats.mapIdx fun h b => if h = u then b + 0 else b) = d.clock.beats := by
    apply Vector.ext
    intro i hi
    simp
  simp only [Dev.beat, beats]

theorem beat_beat (d : Dev) (u : Nat) (a b : Word64) : (d.beat u a).beat u b = d.beat u (a + b) := by
  have beats : ((d.clock.beats.mapIdx fun h x => if h = u then x + a else x).mapIdx fun h x => if h = u then x + b else x) =
      d.clock.beats.mapIdx fun h x => if h = u then x + (a + b) else x := by
    apply Vector.ext
    intro i hi
    simp only [Vector.getElem_mapIdx]
    split
    · exact BitVec.add_assoc _ _ _
    · rfl
  simp only [Dev.beat, beats]

/-! What an instruction of core `c` and its accesses to hobs leave, step by step. -/

/-- World `w` differs from state `s` in core `c`, the beats that it counts, and the pointers of the hobs' arbiters alone. -/
def Within (s : State) (c : CoreId) (w : W) : Prop :=
  w = { s.world with dev := w.dev } ∧ CoreReads s (stateOf s w) c

theorem within_refl : Within s c s.world := by
  have none : ((stateOf s s.world).dev.core c).beats - (s.dev.core c).beats = 0 := BitVec.sub_self _
  have dev : s.world.dev = { beatDev s (stateOf s s.world) c with out := .none, cores := s.world.dev.cores, hobs := s.world.dev.hobs } := by
    rw [beatDev, none, beat_zero]
    rfl
  exact ⟨rfl, ⟨rfl, rfl, fun _ _ => rfl, dev, fun _ => rfl⟩, rfl⟩

/-- The device beside core `c` and the hobs, with the beats that the core counts. -/
theorem within_beatCore {f : Core → Core} (h : Within s c w) : Within s c (w.upd fun d => d.beatCore c f) := by
  obtain ⟨plain, ⟨pending, fuse, others, dev, ptrs⟩, mem⟩ := h
  refine ⟨?_, ⟨pending, fuse, fun k ne => ?_, ?_, ptrs⟩, mem⟩
  · conv_lhs => rw [plain]
    rfl
  · exact (core_beatCore_ne _ _ _ _ ne).trans (others k ne)
  · have sum : (f (w.dev.core c)).beats - (s.dev.core c).beats =
        ((w.dev.core c).beats - (s.dev.core c).beats) + ((f (w.dev.core c)).beats - (w.dev.core c).beats) := by
      bv_omega
    have beats : (((stateOf s (w.upd fun d => d.beatCore c f)).dev.core c).beats) = (f (w.dev.core c)).beats :=
      congrArg Core.beats (core_beatCore_self _ _ _)
    rw [beatDev, beats, sum, ← beat_beat]
    exact congrArg (fun d : Dev => { d.beat (unitOf c) ((f (w.dev.core c)).beats - (w.dev.core c).beats) with
      cores := (w.dev.onCore c f).cores, hobs := w.dev.hobs }) dev

theorem within_onCore {f : Core → Core} (h : Within s c w) (beats : ∀ q, (f q).beats = q.beats) : Within s c (w.upd fun d => d.onCore c f) := by
  have same : w.dev.onCore c f = w.dev.beatCore c f := by
    rw [Dev.beatCore, beats, BitVec.sub_self]
    exact (beat_zero _ _).symm
  have step := within_beatCore (f := f) h
  rw [W.upd, ← same] at step
  exact step

theorem within_granted {u k : Nat} (h : Within s c w) : Within s c (w.granted u k) := by
  obtain ⟨plain, ⟨pending, fuse, others, dev, ptrs⟩, mem⟩ := h
  refine ⟨?_, ⟨pending, fuse, others, ?_, fun v => ?_⟩, mem⟩
  · conv_lhs => rw [plain]
    rfl
  · exact congrArg (fun d : Dev => { d with hobs := (w.granted u k).dev.hobs }) dev
  · have moved := ptrsOnly_onHob (u := u) (p := (k + 1) % hobMasters u) w.dev v
    have before : w.dev.hob v = { s.dev.hob v with ptr := (w.dev.hob v).ptr } := ptrs v
    rw [before] at moved
    exact moved

/-- The world with other beat counters, cores and hobs. -/
def besideCore (w : W) (beats : Vector Word64 17) (cores : Tbl Core) (hobs : Tbl Hob) : W :=
  { w with dev := { w.dev with clock := { w.dev.clock with beats := beats }, cores := cores, hobs := hobs } }

section
variable {b : Vector Word64 17} {cs : Tbl Core} {hs : Tbl Hob}

@[simp] theorem besideCore_fuse : (besideCore w b cs hs).fuse = w.fuse := rfl
@[simp] theorem besideCore_chim : (besideCore w b cs hs).dev.chim = w.dev.chim := rfl
@[simp] theorem besideCore_regs : (besideCore w b cs hs).dev.regs = w.dev.regs := rfl
@[simp] theorem besideCore_bellows : (besideCore w b cs hs).dev.bellows = w.dev.bellows := rfl
@[simp] theorem besideCore_blw (h : Nat) : (besideCore w b cs hs).dev.blw h = w.dev.blw h := rfl

theorem regReset_besideCore (typ off : Nat) : (besideCore w b cs hs).regReset typ off = w.regReset typ off := by
  rw [W.regReset, W.regReset, regRow_congr besideCore_fuse besideCore_chim]

theorem reg_besideCore (typ inst off : Nat) : (besideCore w b cs hs).reg typ inst off = w.reg typ inst off := by
  rw [W.reg, W.reg, regReset_besideCore, besideCore_regs]

/-- The firewalls and the output selectors stand beside the cores and the hobs. -/
theorem fwAdmits_besideCore (u g : Nat) (m : Rid) (d : Dir) : (besideCore w b cs hs).fwAdmits u g m d = w.fwAdmits u g m d := by
  have rule (i : Nat) : (besideCore w b cs hs).fwRule u i = w.fwRule u i := by
    simp only [W.fwRule, reg_besideCore, besideCore_chim]
  rw [W.fwAdmits, W.fwAdmits]
  simp only [rule]

theorem seen_besideCore (h o : Nat) : (besideCore w b cs hs).seen h o = w.seen h o := by
  have inUse (x : Nat) : (besideCore w b cs hs).inUse h x = w.inUse h x := by
    simp only [W.inUse, W.hreg, reg_besideCore, regReset_besideCore, besideCore_blw]
  have image : (besideCore w b cs hs).outImage h = w.outImage h := by rw [W.outImage, W.outImage, inUse]
  have group (g : Nat) : (besideCore w b cs hs).outGroup h g = w.outGroup h g := by rw [W.outGroup, W.outGroup, inUse]
  have selected (g : Nat) : (besideCore w b cs hs).selected h g = w.selected h g := by rw [W.selected, W.selected, besideCore_blw]
  rw [W.seen, W.seen]
  simp only [image, group, selected]

end

theorem within_beside (h : Within s c w) : ∃ b cs hs, w = besideCore s.world b cs hs := by
  obtain ⟨plain, ⟨-, -, -, dev, -⟩, -⟩ := h
  exact ⟨_, _, _, plain.trans (congrArg (fun d => { s.world with dev := d }) dev)⟩

/-- A request that reaches its hob does so still. -/
theorem reaches_within {m : Rid} {u a n : Nat} {d : Dir} (h : Within s c w) (reach : Reaches s.world m u a n d) : Reaches w m u a n d := by
  have ptrs : w.dev.hob u = { s.dev.hob u with ptr := (w.dev.hob u).ptr } := h.2.1.2.2.2.2 u
  have power : (w.dev.hob u).power = (s.dev.hob u).power := by rw [ptrs]
  have inject : (w.dev.hob u).inject = (s.dev.hob u).inject := by rw [ptrs]
  obtain ⟨b, cs, hs, beside⟩ := within_beside h
  obtain ⟨pos, fits, hob, admits, flips, awake, armed, on, seen⟩ := reach
  refine ⟨pos, fits, hob, ?_, ?_, power.trans awake, inject.trans armed, ?_, ?_⟩
  · rw [beside, fwAdmits_besideCore]
    exact admits
  · rw [beside]
    exact flips
  · rw [beside]
    exact on
  · intro small
    rw [beside, seen_besideCore]
    exact seen small

/-! The entry into a handler (R164 to R166). -/

/-- The registers of a core that enters at `slot`. -/
def entryArch (x : Arch) (c : Nat) (slot : Nat) (epc cause eaddr : Word64) (ipl : Option Nat) : Arch :=
  { ((((x.setCtl 2 epc).setCtl 3 cause).setCtl 4 eaddr).setCtl 1 (statusIn (x.ctl c 1) ipl)) with pc := x.ctl c 8 + w64 slot }

/-- A core that enters at `slot`, before the slot is fetched. -/
def entryCore (q : Core) (c : Nat) (slot : Nat) (epc cause eaddr : Word64) (ipl : Option Nat) : Core :=
  let at_ := q.arch.ctl c 8 + w64 slot
  let line := at_.toNat / 32
  let wait := if hobOf at_.toNat = some (unitOf c) then 0 else Config.fetchStall line q.beats.toNat
  { q with fbuf := some line, beats := q.beats + w64 (14 + wait), stalls := q.stalls + w64 wait,
           arch := entryArch q.arch c slot epc cause eaddr ipl }

/-- The regions of the MPU stand beyond the registers that an entry writes (R171). -/
theorem mpu_congr {x y : Arch} (h : ∀ n, 4 < n → y.ctl c n = x.ctl c n) (priv : Bool) (n : Need) (a : Nat) :
    y.mpu c priv n a = x.mpu c priv n a := by
  have region (r : Nat) : y.inRegion c r a = x.inRegion c r a := by
    rw [Arch.inRegion, Arch.inRegion, h _ (by omega), h _ (by omega)]
  have perm (r : Nat) : y.ctl c (0x101 + 2 * r) = x.ctl c (0x101 + 2 * r) := h _ (by omega)
  rw [Arch.mpu, Arch.mpu, h 0x120 (by omega)]
  simp only [region, perm]

theorem entryArch_ctl {x : Arch} {slot : Nat} {epc cause eaddr : Word64} {ipl : Option Nat} (n : Nat) :
    (entryArch x c slot epc cause eaddr ipl).ctl c n =
      if n = 1 then statusIn (x.ctl c 1) ipl else if n = 4 then eaddr else if n = 3 then cause else if n = 2 then epc else x.ctl c n := by
  have field : (entryArch x c slot epc cause eaddr ipl).ctl c n =
    ((((x.setCtl 2 epc).setCtl 3 cause).setCtl 4 eaddr).setCtl 1 (statusIn (x.ctl c 1) ipl)).ctl c n := rfl
  rw [field]
  simp only [ctl_setCtl]

/-- An entry whose vector slot can be fetched enters: the fetch meets its hob, and the token goes to the seam. -/
theorem enter_reached {slot : Nat} {epc cause eaddr : Word64} {ipl : Option Nat} (h : Within s c w)
    (same : (w.dev.core c).arch.cr = (archOf s c).cr) (reached : VectorReached s c slot) :
    Within s c (w.enter c slot epc cause eaddr ipl) ∧
    (w.enter c slot epc cause eaddr ipl).dev.core c =
      { entryCore (w.dev.core c) c slot epc cause eaddr ipl with
        entry := some (entryToken (if bitAt cause 7 then 1 else fld cause 0 6) ((archOf s c).ctl c 8 + w64 slot) epc) } := by
  obtain ⟨target, exec, u, reach⟩ := reached
  have ctl (n : Nat) : (w.dev.core c).arch.ctl c n = (archOf s c).ctl c n := by rw [Arch.ctl, Arch.ctl, same]
  let w1 := w.upd fun d => d.beatCore c fun q => entryCore q c slot epc cause eaddr ipl
  have within : Within s c w1 := within_beatCore h
  have core : w1.dev.core c = entryCore (w.dev.core c) c slot epc cause eaddr ipl := core_beatCore_self _ _ _
  have pc : (w1.dev.core c).arch.pc = (archOf s c).ctl c 8 + w64 slot := by rw [core, ← ctl 8]; rfl
  have pos : w1.dev.chim.pos = s.dev.chim.pos := by
    obtain ⟨b, cs, hs, beside⟩ := within_beside within
    rw [beside]
    rfl
  have mpu : (w1.dev.core c).arch.mpu c true .exec (((archOf s c).ctl c 8 + w64 slot).toNat / 32 * 32) = true := by
    refine (mpu_congr (fun n big => ?_) _ _ _).trans exec
    rw [core, ← ctl n]
    exact (entryArch_ctl n).trans (by rw [if_neg (by omega), if_neg (by omega), if_neg (by omega), if_neg (by omega)])
  have reach1 := reaches_within within reach
  have fetch : w1.access (coreRid w1.dev.chim.pos c true) (((archOf s c).ctl c 8 + w64 slot).toNat / 32 * 32) 32 .fetch =
      (.data (w1.bytes (((archOf s c).ctl c 8 + w64 slot).toNat / 32 * 32) 32), w1.granted u (hobMaster w1.dev.chim.pos u (coreRid s.dev.chim.pos c true))) := by
    rw [W.access, pos, admit_reaches _ _ _ _ _ .fetch reach1]
    rw [← pos]
    rw [← pos] at reach1
    exact perform_read_of_reaches reach1 (.inr rfl)
  have enters : w.enter c slot epc cause eaddr ipl = (w1.granted u (hobMaster w1.dev.chim.pos u (coreRid s.dev.chim.pos c true))).upd
      fun d => d.onCore c fun q => { q with entry := some (entryToken (if bitAt cause 7 then 1 else fld cause 0 6) ((archOf s c).ctl c 8 + w64 slot) epc) } := by
    change (if !fetchTarget c ((w1.dev.core c).arch.pc.toNat / 32 * 32) ||
      !(w1.dev.core c).arch.mpu c true .exec ((w1.dev.core c).arch.pc.toNat / 32 * 32) then w1.entryFault c
      else match w1.access (coreRid w1.dev.chim.pos c true) ((w1.dev.core c).arch.pc.toNat / 32 * 32) 32 .fetch with
        | (.data _, w) => w.upd fun d => d.onCore c fun q =>
          { q with entry := some (entryToken (if bitAt cause 7 then 1 else fld cause 0 6) (w1.dev.core c).arch.pc epc) }
        | (_, w) => w.entryFault c) = _
    rw [pc, target, mpu, fetch]
    rfl
  rw [enters]
  exact ⟨within_onCore (within_granted within) fun _ => rfl, (core_onCore_self _ _ _).trans (by rw [← core]; rfl)⟩

end Sys2Proof.Proofs
end

section
/-! O52: the traps and the interrupt entry, and RETE (R140, R151 to R167). -/

namespace Sys2Proof.Proofs

open Machine Laws

set_option Elab.async false

variable {s t : State} {c : CoreId} {w : W}

/-! STATUS (R153). -/

theorem fld_lt {n : Nat} (v : BitVec n) (lo len : Nat) : fld v lo len < 2 ^ len := Nat.mod_lt _ (Nat.two_pow_pos _)

theorem fld_eq {n : Nat} (v : BitVec n) (lo len : Nat) : fld v lo len = v.toNat / 2 ^ lo % 2 ^ len := by
  rw [fld, Nat.shiftRight_eq_div_pow]

/-- The fields of a status word that is packed from them. -/
theorem status_fields {a b d e i p : Nat} (ha : a < 2) (hb : b < 2) (hd : d < 2) (he : e < 2) (hi : i < 16) (hp : p < 16) :
    let v := w64 (a + 2 * b + 4 * d + 8 * e + 16 * i + 256 * p)
    fld v 0 1 = a ∧ fld v 1 1 = b ∧ fld v 2 1 = d ∧ fld v 3 1 = e ∧ fld v 4 4 = i ∧ fld v 8 4 = p ∧ v.toNat < 2 ^ 12 := by
  have value : (w64 (a + 2 * b + 4 * d + 8 * e + 16 * i + 256 * p)).toNat = a + 2 * b + 4 * d + 8 * e + 16 * i + 256 * p := by
    rw [w64, BitVec.toNat_ofNat]
    omega
  simp only [fld_eq, value]
  omega

theorem statusIn_eq (old : Word64) (ipl : Option Nat) :
    statusIn old ipl = w64 (1 + 2 * 0 + 4 * fld old 0 1 + 8 * fld old 1 1 + 16 * ipl.getD (fld old 4 4) + 256 * fld old 4 4) := by
  rw [statusIn, at_, at_]
  congr 1
  omega

theorem statusOut_eq (old : Word64) :
    statusOut old = w64 (fld old 2 1 + 2 * fld old 3 1 + 4 * fld old 2 1 + 8 * fld old 3 1 + 16 * fld old 8 4 + 256 * fld old 8 4) := by
  rw [statusOut, at_, at_, at_, at_]
  congr 1
  omega

/-! Entries. -/

/-- A core that stands as an entry leaves it has entered. -/
theorem entered_of {q : Core} {slot : Nat} {epc cause eaddr : Word64} {ipl : Option Nat} (within : Within s c w)
    (core : w.dev.core c = { entryCore q c slot epc cause eaddr ipl with
      entry := some (entryToken (if bitAt cause 7 then 1 else fld cause 0 6) ((archOf s c).ctl c 8 + w64 slot) epc) })
    (cr : q.arch.cr = (archOf s c).cr) (crw : q.arch.crw = (archOf s c).crw) (g : q.arch.g = (archOf s c).g) (f : q.arch.f = (archOf s c).f)
    (small : ipl.getD (fld ((archOf s c).ctl c 1) 4 4) < 16) :
    Entered s (stateOf s w) c slot epc cause eaddr (ipl.getD (fld ((archOf s c).ctl c 1) 4 4)) := by
  have same (n : Nat) : q.arch.ctl c n = (archOf s c).ctl c n := by rw [Arch.ctl, Arch.ctl, cr]
  have arch : archOf (stateOf s w) c = entryArch q.arch c slot epc cause eaddr ipl := congrArg Core.arch core
  have ctl (n : Nat) := entryArch_ctl (c := c) (x := q.arch) (slot := slot) (epc := epc) (cause := cause) (eaddr := eaddr) (ipl := ipl) n
  have pc : (entryArch q.arch c slot epc cause eaddr ipl).pc = (archOf s c).ctl c 8 + w64 slot := by rw [← same 8]; rfl
  have entry : (w.dev.core c).entry = some (entryToken (if bitAt cause 7 then 1 else fld cause 0 6) ((archOf s c).ctl c 8 + w64 slot) epc) :=
    congrArg Core.entry core
  have status : (entryArch q.arch c slot epc cause eaddr ipl).ctl c 1 =
      w64 (1 + 2 * 0 + 4 * fld ((archOf s c).ctl c 1) 0 1 + 8 * fld ((archOf s c).ctl c 1) 1 1 +
        16 * ipl.getD (fld ((archOf s c).ctl c 1) 4 4) + 256 * fld ((archOf s c).ctl c 1) 4 4) := by
    rw [ctl, if_pos rfl, same, statusIn_eq]
  obtain ⟨priv, ie, ppriv, pie, pri, ppri, fits⟩ := status_fields (a := 1) (b := 0) (by decide) (by decide)
    (fld_lt ((archOf s c).ctl c 1) 0 1) (fld_lt ((archOf s c).ctl c 1) 1 1) small (fld_lt ((archOf s c).ctl c 1) 4 4)
  rw [← status] at priv ie ppriv pie pri ppri fits
  simp only [Entered, arch, pc]
  refine ⟨within.2, trivial, ctl 2, ctl 3, ctl 4, priv, ie, ppriv, pie, pri, ppri, fits, fun n other => ?_, g, f, crw, entry⟩
  rw [ctl, if_neg (by omega), if_neg (by omega), if_neg (by omega), if_neg (by omega)]
  exact same n

/-- No cutover checks the core, so that a trap fails none (R447); a system call and a breakpoint never do. -/
theorem cutTrap_plain {k code : Nat} (h : w.dev.images.cut = none ∨ code = 10 ∨ code = 11) : w.cutTrap k code = w := by
  rw [W.cutTrap]
  rcases h with h | rfl | rfl
  · simp [h]
  · simp
  · simp

/-- A trap enters where its slot can be fetched; the WDT trap no longer waits (R162 to R168). -/
theorem enterTrap_enters {code detail : Nat} {epc eaddr : Word64} (within : Within s c w)
    (cr : (w.dev.core c).arch.cr = (archOf s c).cr) (crw : (w.dev.core c).arch.crw = (archOf s c).crw)
    (g : (w.dev.core c).arch.g = (archOf s c).g) (f : (w.dev.core c).arch.f = (archOf s c).f)
    (cut : w.dev.images.cut = none ∨ code = 10 ∨ code = 11) (reached : VectorReached s c (4 * code)) :
    Entered s (stateOf s (w.enterTrap c code epc eaddr detail)) c (4 * code) epc (trapCause code detail) (trapAddr code eaddr)
      (fld ((archOf s c).ctl c 1) 4 4) ∧
    ((w.enterTrap c code epc eaddr detail).dev.core c).retired = (w.dev.core c).retired ∧
    ((w.enterTrap c code epc eaddr detail).dev.core c).wdtTrap = (if code = 12 then false else (w.dev.core c).wdtTrap) := by
  have small := fld_lt ((archOf s c).ctl c 1) 4 4
  by_cases wdt : code = 12
  · have clears : Within s c (w.upd fun d => d.onCore c fun q => { q with wdtTrap := false }) := within_onCore within fun _ => rfl
    have core : (w.upd fun d => d.onCore c fun q => { q with wdtTrap := false }).dev.core c = { w.dev.core c with wdtTrap := false } :=
      core_onCore_self _ _ _
    obtain ⟨enters, after⟩ := enter_reached (epc := epc) (cause := trapCause code detail) (eaddr := trapAddr code eaddr) (ipl := none) clears
      (by rw [core]; exact cr) reached
    rw [core] at after
    rw [W.enterTrap, cutTrap_plain cut]
    simp only [if_pos wdt]
    exact ⟨entered_of enters after cr crw g f small, (congrArg Core.retired after).trans rfl, (congrArg Core.wdtTrap after).trans rfl⟩
  · obtain ⟨enters, after⟩ := enter_reached (epc := epc) (cause := trapCause code detail) (eaddr := trapAddr code eaddr) (ipl := none) within cr reached
    rw [W.enterTrap, cutTrap_plain cut]
    simp only [if_neg wdt]
    exact ⟨entered_of enters after cr crw g f small, (congrArg Core.retired after).trans rfl, (congrArg Core.wdtTrap after).trans rfl⟩

/-- The core that takes entries and waits for no WDT trap issues. -/
theorem drained_of (enter : s.world.canEnter c = true) (pend : (s.dev.core c).pend = []) (wdt : (s.dev.core c).wdtTrap = false) : Drained s c := by
  have wdt' : (s.world.dev.core c).wdtTrap = false := wdt
  exact ⟨by rw [W.canIssue, enter, wdt']; rfl, pend⟩

/-- A trap that an instruction raises enters with EPC at it (R162). -/
theorem raiseTrap_enters {code detail : Nat} {eaddr : Word64} (pend : (s.dev.core c).pend = []) (cut : s.dev.images.cut = none)
    (reached : VectorReached s c (4 * code)) :
    Entered s (stateOf s (s.world.raiseTrap c code eaddr detail)) c (4 * code) (archOf s c).pc (trapCause code detail) (trapAddr code eaddr)
      (fld ((archOf s c).ctl c 1) 4 4) ∧
    ((s.world.raiseTrap c code eaddr detail).dev.core c).retired = (s.dev.core c).retired := by
  have none : (s.world.dev.core c).pend.isEmpty = true := by
    change (s.dev.core c).pend.isEmpty = true
    rw [pend]
    rfl
  have raises : s.world.raiseTrap c code eaddr detail = s.world.enterTrap c code (archOf s c).pc eaddr detail := if_pos none
  rw [raises]
  obtain ⟨enters, retired, -⟩ := enterTrap_enters (detail := detail) (epc := (archOf s c).pc) (eaddr := eaddr) (within_refl (c := c)) rfl rfl rfl rfl
    (.inl cut) reached
  exact ⟨enters, retired⟩

/-- TRAP and BKPT retire, and enter with EPC behind them. -/
theorem trap_behind {code : Nat} (pend : (s.dev.core c).pend = []) (calls : code = 10 ∨ code = 11) (reached : VectorReached s c (4 * code)) :
    let w := s.world.runArch c 1 Arch.next
    let t := stateOf s (w.enterTrap c code (w.dev.core c).arch.pc 0 0)
    Entered s t c (4 * code) ((archOf s c).pc + 4) (trapCause code 0) (trapAddr code 0) (fld ((archOf s c).ctl c 1) 4 4) ∧
    (t.dev.core c).retired = (s.dev.core c).retired + 1 := by
  intro w t
  have core : w.dev.core c = (s.dev.core c).exec c 1 Arch.next := core_beatCore_self _ _ _
  have arch : (w.dev.core c).arch = (archOf s c).next := by rw [core]; exact exec_arch _ _ _ _
  obtain ⟨enters, retired, -⟩ := enterTrap_enters (detail := 0) (epc := (w.dev.core c).arch.pc) (eaddr := 0)
    (w := w) (s := s) (within_beatCore (f := fun q => q.exec c 1 Arch.next) (within_refl (c := c))) ((congrArg Arch.cr arch).trans rfl) ((congrArg Arch.crw arch).trans rfl)
    ((congrArg Arch.g arch).trans rfl) ((congrArg Arch.f arch).trans rfl) (.inr calls) reached
  have pc : (w.dev.core c).arch.pc = (archOf s c).pc + 4 := congrArg Arch.pc arch
  rw [pc] at enters retired
  have same : t = stateOf s (w.enterTrap c code ((archOf s c).pc + 4) 0 0) := by rw [← pc]
  rw [same]
  exact ⟨enters, retired.trans ((congrArg Core.retired core).trans (exec_retired pend))⟩

theorem trap_entries (enter : s.world.canEnter c = true) (pend : (s.dev.core c).pend = []) (wdt : (s.dev.core c).wdtTrap = false) :
    (VectorReached s c 40 → Answers (.trap c) s fun t =>
      Entered s t c 40 ((archOf s c).pc + 4) 10 0 (fld ((archOf s c).ctl c 1) 4 4) ∧ (t.dev.core c).retired = (s.dev.core c).retired + 1) ∧
    (VectorReached s c 44 → s.world.underDebug c = false → Answers (.bkpt c) s fun t =>
      Entered s t c 44 ((archOf s c).pc + 4) 11 0 (fld ((archOf s c).ctl c 1) 4 4) ∧ (t.dev.core c).retired = (s.dev.core c).retired + 1) := by
  have drained := drained_of enter pend wdt
  constructor
  · intro reached
    refine ⟨_, ?_, trap_behind pend (.inl rfl) reached⟩
    change run s (fun w => w.issueSerial c _) = _
    rw [run, issueSerial_drained drained]
    rfl
  · intro reached free
    refine ⟨_, ?_, trap_behind pend (.inr rfl) reached⟩
    have free' : (s.world.runArch c 1 Arch.next).underDebug c = false := free
    change run s (fun w => w.issueSerial c fun w => if (w.runArch c 1 Arch.next).underDebug c then
      ((w.runArch c 1 Arch.next).upd fun d => d.onCore c fun q => { q with dbgReq := true }).takeDebug c
      else (w.runArch c 1 Arch.next).enterTrap c 11 ((w.runArch c 1 Arch.next).dev.core c).arch.pc 0 0) = _
    rw [run, issueSerial_drained drained, free']
    rfl

/-- A word that is no instruction (R130). -/
theorem illegal_word {v : Word32} (enter : s.world.canEnter c = true) (pend : (s.dev.core c).pend = []) (wdt : (s.dev.core c).wdtTrap = false)
    (reached : VectorReached s c 8) (cut : s.dev.images.cut = none) (none : vexDecode v = none) :
    ∃ t, execVexWord c v s = .next t ∧ Entered s t c 8 (archOf s c).pc 2 0 (fld ((archOf s c).ctl c 1) 4 4) ∧
      (t.dev.core c).retired = (s.dev.core c).retired := by
  refine ⟨_, ?_, raiseTrap_enters (code := 2) (detail := 0) (eaddr := 0) pend cut reached⟩
  have issue : s.world.canIssue c = true := (drained_of enter pend wdt).1
  have free : (s.world.dev.core c).free [] = true := by
    change (s.dev.core c).free [] = true
    rw [Core.free, pend]
    rfl
  have illegal : execVexWord c v s = vexIllegal c s := by rw [execVexWord, none]
  rw [illegal, vexIllegal, run, W.issue, issue, free]
  rfl

/-- ECAUSE and EADDR of a trap that TRAP_ENTRY names (R162, R164). -/
theorem trapCause_eq (n d : Nat) : trapCause n d = w64 (n + (if n = 6 ∨ n = 9 then 256 * d else 0)) := by
  have shifted : (if n = 6 ∨ n = 9 then d else 0) * 2 ^ 8 = if n = 6 ∨ n = 9 then 256 * d else 0 := by
    split <;> omega
  rw [trapCause, at_, shifted]

theorem trapAddr_eq (n : Nat) (pc eaddr : Word64) : trapAddr n (if 5 ≤ n ∧ n ≤ 7 then pc else eaddr) =
    if 5 ≤ n ∧ n ≤ 7 then pc else if n = 4 ∨ n = 8 ∨ n = 9 then eaddr else 0 := by
  by_cases inner : 5 ≤ n ∧ n ≤ 7
  · rw [trapAddr, if_pos (by omega), if_pos inner, if_pos inner]
  · rw [trapAddr, if_neg inner, if_neg inner]
    exact if_congr (by omega) rfl rfl

/-- TRAP_ENTRY takes the trap that its row names. -/
theorem trapEntry_enters {code : BitVec 6} {eaddr : Word64} {detail : BitVec 8} (enter : s.world.canEnter c = true)
    (pend : (s.dev.core c).pend = []) (reached : VectorReached s c (4 * code.toNat)) (cut : s.dev.images.cut = none)
    (low : 2 ≤ code.toNat) (high : code.toNat ≤ 12) (ok : detailOk code.toNat detail.toNat = true)
    (wdt : code.toNat = 12 ↔ (s.dev.core c).wdtTrap = true) :
    Answers (.trapEntry c code eaddr detail) s fun t =>
      Entered s t c (4 * code.toNat) (if code.toNat = 10 ∨ code.toNat = 11 then (archOf s c).pc + 4 else (archOf s c).pc)
        (w64 (code.toNat + (if code.toNat = 6 ∨ code.toNat = 9 then 256 * detail.toNat else 0)))
        (if 5 ≤ code.toNat ∧ code.toNat ≤ 7 then (archOf s c).pc else if code.toNat = 4 ∨ code.toNat = 8 ∨ code.toNat = 9 then eaddr else 0)
        (fld ((archOf s c).ctl c 1) 4 4) ∧
      (t.dev.core c).wdtTrap = false := by
  generalize hn : code.toNat = n at *
  have takes : (s.world.canEnter c && (s.world.dev.core c).pend.isEmpty && decide (2 ≤ n ∧ n ≤ 12) && (n == 12) == (s.world.dev.core c).wdtTrap &&
      detailOk n detail.toNat) = true := by
    have none : (s.world.dev.core c).pend.isEmpty = true := by
      change (s.dev.core c).pend.isEmpty = true
      rw [pend]
      rfl
    have waits : ((n == 12) == (s.world.dev.core c).wdtTrap) = true := by
      rw [beq_iff_eq, Bool.eq_iff_iff, beq_iff_eq]
      exact wdt
    rw [enter, none, waits, ok, decide_eq_true ⟨low, high⟩]
    rfl
  obtain ⟨enters, -, after⟩ := enterTrap_enters (detail := detail.toNat)
    (epc := if n = 10 ∨ n = 11 then (archOf s c).pc + 4 else (archOf s c).pc)
    (eaddr := if 5 ≤ n ∧ n ≤ 7 then (archOf s c).pc else eaddr) (within_refl (c := c)) rfl rfl rfl rfl (.inl cut) reached
  rw [trapCause_eq, trapAddr_eq] at enters
  refine ⟨_, ?_, enters, after.trans ?_⟩
  · change run s (fun w => if w.canEnter c && (w.dev.core c).pend.isEmpty && decide (2 ≤ code.toNat ∧ code.toNat ≤ 12) &&
      (code.toNat == 12) == (w.dev.core c).wdtTrap && detailOk code.toNat detail.toNat then w.enterTrap c code.toNat
        (if code.toNat = 10 ∨ code.toNat = 11 then (w.dev.core c).arch.pc + 4 else (w.dev.core c).arch.pc)
        (if 5 ≤ code.toNat ∧ code.toNat ≤ 7 then (w.dev.core c).arch.pc else eaddr) detail.toNat else w) = _
    rw [hn, run, if_pos takes]
    rfl
  · split
    · rfl
    · next other => exact Bool.eq_false_iff.mpr fun e => other (wdt.mpr e)

end Sys2Proof.Proofs
end

section
/-! O52: the interrupt entry (R160, R166, R167), RETE (R140, R153), and privileged instructions in user mode (R151). -/

namespace Sys2Proof.Proofs

open Machine Laws

set_option Elab.async false

variable {s t : State} {c : CoreId} {w : W}

/-- The world once the late sources are pending, and once the source `n` is taken. -/
def pended (w : W) (c : CoreId) (late : List Nat) : W :=
  w.upd fun d => d.onCore c fun q => { q with ipend := late.foldl (fun v i => v ||| w64 (2 ^ i)) q.ipend &&& intSources }

def taken (w : W) (c : CoreId) (n : Nat) : W := w.upd fun d => d.onCore c fun q => { q with ipend := setBit q.ipend n false }

/-- What INTERRUPT_ENTRY does once it is issued. -/
def interruptAct (c : CoreId) (late : List Nat) (w : W) : W :=
  if !bitAt ((w.dev.core c).arch.ctl c 1) 1 then w
  else match (w.dev.core c).chosen c with
    | none => w
    | some first =>
      let n := ((pended w c late).dev.core c).takeover c first late
      (taken (pended w c late) c n).enter c (0x100 + 4 * n) (w.dev.core c).arch.pc (w64 (n + 128)) 0 (some ((w.dev.core c).arch.prio c n))

/-- INTERRUPT_ENTRY enters with the source that the takeover window leaves (R167). -/
theorem interrupt_enters {first : Nat} {late : List Nat} (enter : s.world.canEnter c = true) (pend : (s.dev.core c).pend = [])
    (chosen : (s.dev.core c).chosen c = some first) (wdt : (s.dev.core c).wdtTrap = false) (ie : bitAt ((archOf s c).ctl c 1) 1 = true) :
    let q := s.dev.core c
    let p := late.foldl (fun v i => v ||| w64 (2 ^ i)) q.ipend &&& 0x1FFBFFF7FFFFFFFF
    let n := ({ q with ipend := p } : Core).takeover c first late
    VectorReached s c (256 + 4 * n) →
    Answers (.interruptEntry c late) s fun t =>
      Entered s t c (256 + 4 * n) (archOf s c).pc (w64 (n + 128)) 0 ((archOf s c).prio c n) ∧ (t.dev.core c).ipend = setBit p n false := by
  intro q p n reached
  have core1 : (pended s.world c late).dev.core c = { q with ipend := p } := core_onCore_self _ _ _
  have core2 : (taken (pended s.world c late) c n).dev.core c = { q with ipend := setBit p n false } :=
    (core_onCore_self _ _ _).trans (by rw [core1])
  have within : Within s c (taken (pended s.world c late) c n) := within_onCore (within_onCore within_refl fun _ => rfl) fun _ => rfl
  obtain ⟨enters, after⟩ := enter_reached (epc := (archOf s c).pc) (cause := w64 (n + 128)) (eaddr := 0)
    (ipl := some ((archOf s c).prio c n)) within (by rw [core2]; rfl) reached
  rw [core2] at after
  have ie' : bitAt ((s.world.dev.core c).arch.ctl c 1) 1 = true := ie
  have chosen' : (s.world.dev.core c).chosen c = some first := chosen
  have acts : interruptAct c late s.world =
      (taken (pended s.world c late) c n).enter c (256 + 4 * n) (archOf s c).pc (w64 (n + 128)) 0 (some ((archOf s c).prio c n)) := by
    rw [interruptAct, ie', chosen', core1]
    rfl
  refine ⟨_, ?_, entered_of enters after rfl rfl rfl rfl (fld_lt _ _ _), (congrArg Core.ipend after).trans rfl⟩
  change run s (fun w => w.issueSerial c (interruptAct c late)) = _
  rw [run, issueSerial_drained (drained_of enter pend wdt), acts]
  rfl

theorem entriesOfTrapsAndInterrupts : Says.EntriesOfTrapsAndInterrupts := by
  intro s c enter pend
  refine ⟨fun wdt reached => (trap_entries enter pend wdt).1 reached, fun wdt reached free => (trap_entries enter pend wdt).2 reached free,
    fun v wdt reached cut none => illegal_word enter pend wdt reached cut none, ?_, ?_⟩
  · intro code eaddr detail reached cut low high ok wdt
    exact trapEntry_enters enter pend reached cut low high ok wdt
  · intro first late chosen wdt ie
    exact interrupt_enters enter pend chosen wdt ie

/-! RETE, and what user mode may not do. -/

/-- RETE restores what the entry saved (R153). -/
theorem rete_returns (h : Drained s c) (priv : (archOf s c).priv c = true) : Answers (.rete c) s fun t =>
    let x := archOf s c
    let y := archOf t c
    let old := x.ctl c 1
    let new := y.ctl c 1
    RegsOnly s t c ∧ y.pc = x.ctl c 2 &&& ~~~3 ∧ fld new 0 1 = fld old 2 1 ∧ fld new 1 1 = fld old 3 1 ∧
    fld new 2 1 = fld old 2 1 ∧ fld new 3 1 = fld old 3 1 ∧ fld new 4 4 = fld old 8 4 ∧ fld new 8 4 = fld old 8 4 ∧
    (∀ n, n ≠ 1 → y.ctl c n = x.ctl c n) ∧ y.g = x.g ∧ y.f = x.f ∧ y.crw = x.crw := by
  refine ⟨afterExec s c 5 fun x => { x.setCtl 1 (statusOut (x.ctl c 1)) with pc := x.ctl c 2 &&& ~~~3 }, ?_,
    afterExec_regsOnly s c 5 _, ?_⟩
  · change run s (fun w => w.privileged c _) = _
    rw [run, privileged_drained h priv]
    rfl
  · rw [afterExec_arch]
    have ctl (n : Nat) : ({ (archOf s c).setCtl 1 (statusOut ((archOf s c).ctl c 1)) with pc := (archOf s c).ctl c 2 &&& ~~~3 } : Arch).ctl c n =
        if n = 1 then statusOut ((archOf s c).ctl c 1) else (archOf s c).ctl c n := ctl_setCtl _ _ _ _ _
    obtain ⟨p, ie, pp, pie, pri, ppri, -⟩ := status_fields (fld_lt ((archOf s c).ctl c 1) 2 1) (fld_lt ((archOf s c).ctl c 1) 3 1)
      (fld_lt ((archOf s c).ctl c 1) 2 1) (fld_lt ((archOf s c).ctl c 1) 3 1) (fld_lt ((archOf s c).ctl c 1) 8 4)
      (fld_lt ((archOf s c).ctl c 1) 8 4)
    rw [← statusOut_eq] at p ie pp pie pri ppri
    dsimp only
    rw [ctl 1, if_pos rfl]
    exact ⟨rfl, p, ie, pp, pie, pri, ppri, fun n ne => by rw [ctl, if_neg ne], rfl, rfl, rfl⟩

/-- A privileged instruction of user mode traps (R128, R151). -/
theorem privileged_traps {act : W → W} (h : Drained s c) (user : (archOf s c).priv c = false) (cut : s.dev.images.cut = none)
    (reached : VectorReached s c 12) :
    ∃ t, run s (fun w => w.privileged c act) = .next t ∧ Entered s t c 12 (archOf s c).pc 3 0 (fld ((archOf s c).ctl c 1) 4 4) := by
  have user' : (s.world.dev.core c).arch.priv c = false := user
  refine ⟨_, ?_, (raiseTrap_enters (code := 3) (detail := 0) (eaddr := 0) h.2 cut reached).1⟩
  rw [run, W.privileged, issueSerial_drained h, user']
  rfl

/-- An access of user mode to a control register that it may not reach traps (R151). -/
theorem ctlAccess_traps {act : W → W} {n : Nat} {write : Bool} (h : Drained s c) (assigned : ctlAssigned n = true)
    (writes : (write && ctlReadOnly n) = false) (mayNot : ctlUser n = false) (user : (archOf s c).priv c = false)
    (cut : s.dev.images.cut = none) (reached : VectorReached s c 12) :
    ∃ t, run s (fun w => w.ctlAccess c n write act) = .next t ∧ Entered s t c 12 (archOf s c).pc 3 0 (fld ((archOf s c).ctl c 1) 4 4) := by
  have user' : (s.world.dev.core c).arch.priv c = false := user
  refine ⟨_, ?_, (raiseTrap_enters (code := 3) (detail := 0) (eaddr := 0) h.2 cut reached).1⟩
  rw [run, W.ctlAccess, issueSerial_drained h]
  dsimp only
  rw [user', assigned, writes, mayNot]
  rfl

theorem returnAndPrivilege : Says.ReturnAndPrivilege := by
  intro s c r h
  refine ⟨rete_returns h, fun user cut reached => ⟨privileged_traps h user cut reached, privileged_traps h user cut reached,
    privileged_traps h user cut reached, ?_, ?_, ?_⟩⟩
  · exact ctlAccess_traps (n := 1) (write := false) h rfl rfl rfl user cut reached
  · exact ctlAccess_traps (n := 1) (write := true) h rfl rfl rfl user cut reached
  · exact ctlAccess_traps (n := 0x42) (write := true) h rfl rfl rfl user cut reached

/-- Settles O52: an entry writes its registers and fetches its slot; RETE unpacks what the entry saved. -/
theorem trapsAndReturns : Obligations.TrapsAndReturns := ⟨entriesOfTrapsAndInterrupts, returnAndPrivilege⟩

end Sys2Proof.Proofs
end

section
/-! What an event leaves, as the statements put it (R271 to R273, R290), and O29: the operator input and the reference clocks. -/

namespace Sys2Proof.Proofs

open Machine Laws

set_option Elab.async false

variable {s : State} {w w' : W}

/-! The mode after an event: it stays, or a trip takes it to SAFE (R41, R273). -/

/-- The mode stays, or the device is in SAFE from a mode that a trip leaves. -/
@[irreducible] def MayTrip (w w' : W) : Prop :=
  w'.dev.sys.mode = w.dev.sys.mode ∨ w.dev.sys.mode.trippable = true ∧ w'.dev.sys.mode = .safe

theorem mayTrip_iff : MayTrip w w' ↔
    w'.dev.sys.mode = w.dev.sys.mode ∨ w.dev.sys.mode.trippable = true ∧ w'.dev.sys.mode = .safe := by rw [MayTrip]

theorem MayTrip.same (h : w'.dev.sys.mode = w.dev.sys.mode) : MayTrip w w' := mayTrip_iff.mpr (.inl h)

theorem MayTrip.refl : MayTrip w w := .same rfl

theorem MayTrip.trans {a b c : W} (h : MayTrip a b) (k : MayTrip b c) : MayTrip a c := by
  rw [mayTrip_iff] at h k ⊢
  rcases h with h | ⟨from_, safe⟩
  · rcases k with k | ⟨from_, safe⟩
    · exact .inl (k.trans h)
    · exact .inr ⟨h ▸ from_, safe⟩
  · rcases k with k | ⟨-, safe'⟩
    · exact .inr ⟨from_, k.trans safe⟩
    · exact .inr ⟨from_, safe'⟩

theorem MayTrip.upd {a w : W} {f : Dev → Dev} (h : MayTrip a w) (same : (f w.dev).sys.mode = w.dev.sys.mode := by rfl) : MayTrip a (w.upd f) :=
  h.trans (.same same)

theorem MayTrip.ite {a b c : W} {p : Prop} [Decidable p] (h : MayTrip a b) (k : MayTrip a c) : MayTrip a (if p then b else c) := by
  split <;> assumption

theorem MayTrip.each {α : Type} {xs : List α} {f : α → W → W} (h : ∀ x w, MayTrip w (f x w)) : MayTrip w (w.each xs f) := by
  induction xs generalizing w with
  | nil => exact .refl
  | cons x xs ih => exact (h x w).trans ih

theorem MayTrip.sameCh (h : SameCh w w') : MayTrip w w' := .same (chs_iff.mp (sameCh_iff.mp h).1).2

theorem mayTrip_forceCh {n : Nat} : MayTrip w (w.forceCh n) := .same mode_forceCh

theorem mayTrip_restartOut {h : Nat} : MayTrip w (w.restartOut h) := .sameCh (sameCh_restartOut _ _)

theorem mayTrip_hearthSafe {n h : Nat} : MayTrip w (w.hearthSafe n h) :=
  (MayTrip.refl.upd.trans mayTrip_restartOut).trans (.each fun _ _ => mayTrip_forceCh)

theorem mayTrip_selectGroup {n h g : Nat} : MayTrip w (w.selectGroup n h g) :=
  (MayTrip.refl.upd.trans mayTrip_restartOut).trans (.each fun _ _ => .ite mayTrip_forceCh .refl)

theorem mayTrip_enterSafe (from_ : w.dev.sys.mode.trippable = true) : MayTrip w w.enterSafe.2 := by
  unfold W.enterSafe
  split
  · exact .refl
  · refine mayTrip_iff.mpr (.inr ⟨from_, ?_⟩)
    dsimp only
    rw [(chs_iff.mp (sameCh_iff.mp (sameCh_startCores _)).1).2]
    split
    · rw [(chs_iff.mp (sameCh_iff.mp (sameCh_dozeUp _)).1).2]
      rfl
    · rfl

theorem mode_foldl_onBlw {hs : List Nat} {f : Bellows → Bellows} {d : Dev} :
    (hs.foldl (fun d h => d.onBlw h f) d).sys.mode = d.sys.mode := by
  induction hs generalizing d with
  | nil => rfl
  | cons h hs ih => exact ih

theorem mayTrip_deviceSafe {n : Nat} : MayTrip w (w.deviceSafe n).2 := by
  unfold W.deviceSafe
  dsimp only
  refine .trans ?_ (.each fun _ _ => mayTrip_forceCh)
  refine .trans ?_ (.each fun _ _ => mayTrip_restartOut)
  refine .upd ?_ mode_foldl_onBlw
  split
  · next from_ => exact mayTrip_enterSafe from_
  · exact .refl

theorem mayTrip_react {n : Nat} {r : Rec} {grp : List Nat} : MayTrip w (w.react n r grp).2 := by
  unfold W.react
  extract_lets h w1 w2 w3 w4 w5 w6 w7
  have reactions : MayTrip w w7 :=
    MayTrip.ite (.sameCh (sameCh_history _ _)) .refl |>.trans (.sameCh (sameCh_trace w1 r))
      |>.trans (.ite (.sameCh (sameCh_cutFail _ _ _)) .refl) |>.trans (.ite (.upd .refl) .refl)
      |>.trans (.ite mayTrip_hearthSafe .refl) |>.trans (.ite (.each fun _ _ => mayTrip_selectGroup) .refl)
      |>.trans (.ite (.sameCh (sameCh_errAssert _)) .refl)
  refine reactions.trans ?_
  split
  · exact mayTrip_deviceSafe
  · split
    · next quiet => exact mayTrip_enterSafe (by rw [quiet.2]; rfl)
    · exact .refl

theorem mayTrip_event {n : Nat} {d0 d1 : Word32} {test : Bool} {grp : List Nat} : MayTrip w (w.event n d0 d1 test grp).2 := by
  unfold W.event
  split
  · exact .refl
  · exact .trans (MayTrip.refl.upd.trans (.ite (.upd .refl) .refl)) mayTrip_react

theorem mayTrip_fellBack {x : Bool × W} : MayTrip x.2 (W.fellBack x) := .ite mayTrip_event .refl

theorem mayTrip_poolCheck : MayTrip w w.poolCheck :=
  .ite mayTrip_event (.ite (MayTrip.refl.upd.trans (.sameCh (sameCh_errAuto _))) .refl)

theorem mayTrip_drainOnce : MayTrip w w.drainOnce :=
  .trans (b := { w with due := [] }) (.same rfl) (.each fun _ _ => .ite .refl (mayTrip_event.trans mayTrip_fellBack))

theorem mayTrip_settle : MayTrip w w.settle := (mayTrip_drainOnce.trans mayTrip_drainOnce).trans mayTrip_poolCheck

theorem mayTrip_raise {n : Nat} {d0 d1 : Word32} {test : Bool} {grp : List Nat} : MayTrip w (w.raise n d0 d1 test grp) := by
  have told : MayTrip (w.event n d0 d1 test grp).2 (W.fellBack (w.event n d0 d1 test grp)) := mayTrip_fellBack
  have settled : MayTrip (W.fellBack (w.event n d0 d1 test grp)) (W.fellBack (w.event n d0 d1 test grp)).settle := mayTrip_settle
  exact (mayTrip_event.trans told).trans settled

theorem mayTrip_level {n : Nat} {d0 d1 : Word32} : MayTrip w (w.level n d0 d1) := .ite .refl mayTrip_raise

/-! What stays beside an event, and what it does to its source. -/

theorem kept_level {n : Nat} {d0 d1 : Word32} : Kept w (w.level n d0 d1) := .ite _ (.refl _) (kept_raise _ _ _ _ _ _)

/-- What an event leaves alone is what the statements call untouched. -/
theorem untouched_kept (h : Kept w w') : untouched w'.dev = untouched w.dev :=
  congrArg (fun d : Dev => { d with out := .none }) h.1

/-- The device beside the Flue's reactions after the effect of `f` and events. -/
theorem beside_of_kept {f : Dev → Dev} (h : Kept w w') (same : untouched w.dev = untouched (f s.dev)) : Beside s (stateOf s w') f :=
  ⟨(untouched_kept h).trans same, rfl, rfl⟩

/-- A source whose events are told at once, by themselves. -/
def Plain (n : Nat) : Prop := n ≠ 0x2C3 ∧ n ≠ 0x342 ∧ ¬ Noted n

/-- The record of an event depends on the registers, the mode and the time. -/
theorem eventRec_congr {n : Nat} {d0 d1 : Word32} (fuse : w'.fuse = w.fuse) (chim : w'.dev.chim = w.dev.chim) (regs : w'.dev.regs.val = w.dev.regs.val)
    (mode : w'.dev.sys.mode = w.dev.sys.mode) :
    w'.eventRec n d0 d1 false = { w.eventRec n d0 d1 false with time := w'.dev.clock.tb } := by
  have cfg : w'.srcCfg n = w.srcCfg n := reg_congr fuse chim _ _ _ fun _ => by rw [regs]
  have sev : w'.sev n = w.sev n := by rw [W.sev, W.sev, cfg]
  have mask : w'.mask n = w.mask n := by rw [W.mask, W.mask, cfg]
  rw [W.eventRec, W.eventRec, sev, mask, mode]

/-- World `w` has the sources, the registers, the mode and the fuses of state `s`, and nothing waits to be told. -/
structure Quiescent (s : State) (w : W) : Prop where
  fuse : w.fuse = s.fuse
  chim : w.dev.chim = s.dev.chim
  regs : w.dev.regs.val = s.dev.regs.val
  mode : w.dev.sys.mode = s.dev.sys.mode
  srcs : w.dev.flue.srcs = s.dev.flue.srcs
  due : w.due = []

theorem quiescent_world : Quiescent s s.world := ⟨rfl, rfl, rfl, rfl, rfl, rfl⟩

/-- An event of a source of the device is detected (R273). -/
theorem detected_raise {n : Nat} {d0 d1 : Word32} (h : Quiescent s w) (plain : Plain n) (there : (s.world.source n).isSome = true) :
    Detected s (stateOf s (w.raise n d0 d1)) n d0 d1 w.dev.clock.tb := by
  obtain ⟨row, row_eq⟩ := Option.isSome_iff_exists.mp there
  obtain ⟨pool, fell, noted⟩ := plain
  have row' : w.source n = some row := (source_congr (w := s.world) h.fuse h.chim n).trans row_eq
  have src : w.dev.src n = s.dev.src n := by rw [Dev.src, Dev.src, h.srcs]
  refine ⟨row, row_eq, ?_⟩
  rw [stateOf_dev, src_raise w n d0 d1 false [] row row' pool fell noted h.due, src,
    eventRec_congr (w := s.world) h.fuse h.chim h.regs h.mode]
  rfl

/-- A level source that is not active is detected (R271). -/
theorem levelDetected_level {n : Nat} {d0 d1 : Word32} (h : Quiescent s w) (plain : Plain n) (there : (s.world.source n).isSome = true) :
    LevelDetected s (stateOf s (w.level n d0 d1)) n d0 d1 w.dev.clock.tb := by
  have src : w.dev.src n = s.dev.src n := by rw [Dev.src, Dev.src, h.srcs]
  have active : w.active n = s.world.active n := congrArg Src.active src
  rw [LevelDetected, W.level, active]
  split
  · exact src
  · exact detected_raise h plain there

end Sys2Proof.Proofs
end

section
/-! O29: the operator input and the loss of a reference clock (R51, R287, R288, R430). -/

namespace Sys2Proof.Proofs

open Machine Laws

set_option Elab.async false

variable {s : State} {w w' : W}

/-- A level source that an effect on the device leads to: it is active, or detected now, and nothing else but the effect is seen
beside the Flue's reactions. -/
theorem level_after {n : Nat} {d0 d1 : Word32} {f g : Dev → Dev} (h : Quiescent s (s.world.upd f)) (plain : Plain n)
    (there : (s.world.source n).isSome = true) (tb : (f s.world.dev).clock.tb = s.dev.clock.tb)
    (same : untouched (f s.world.dev) = untouched (g s.dev)) :
    LevelDetected s (stateOf s ((s.world.upd f).level n d0 d1)) n d0 d1 s.dev.clock.tb ∧
    Beside s (stateOf s ((s.world.upd f).level n d0 d1)) g := by
  have found := levelDetected_level (d0 := d0) (d1 := d1) h plain there
  rw [show (s.world.upd f).dev.clock.tb = s.dev.clock.tb from tb] at found
  exact ⟨found, beside_of_kept kept_level same⟩

/-- KINDLE goes on through an event, and no event leads to it. -/
theorem kindle_iff (h : MayTrip w w') : w'.dev.sys.mode = .kindle ↔ w.dev.sys.mode = .kindle := by
  rcases mayTrip_iff.mp h with h | ⟨from_, safe⟩
  · rw [h]
  · constructor
    · intro kindle
      rw [safe] at kindle
      cases kindle
    · intro kindle
      rw [kindle] at from_
      cases from_

/-- The loss of REFCLK_TB (R288): the backup runs, and step 1 of KINDLE halts (R51). -/
theorem refclk_tb (kHz : Word32) : Answers (.refclkLoss .tb kHz) s fun t => LevelDetected s t 2 kHz 0 s.dev.clock.tb ∧
    Beside s t fun d => { d with
      clock := { d.clock with backup := true },
      sys := if s.dev.sys.mode = .kindle ∧ 1 ∉ s.dev.sys.stepsDone ∧ s.dev.sys.kindleErr = 0 then { d.sys with kindleErr := 1, errStep := 1 } else d.sys } := by
  let v := s.world.upd fun d => { d with clock := { d.clock with backup := true } }
  obtain ⟨found, beside, fuse, pending⟩ := level_after (s := s) (n := 2) (d0 := kHz) (d1 := 0)
    (f := fun d => { d with clock := { d.clock with backup := true } }) (g := fun d => { d with clock := { d.clock with backup := true } })
    ⟨rfl, rfl, rfl, rfl, rfl, rfl⟩ (by unfold Plain Noted; decide) rfl rfl rfl
  have kept := kept_level (w := v) (n := 2) (d0 := kHz) (d1 := 0)
  have steps : (v.level 2 kHz 0).dev.sys.stepsDone = s.dev.sys.stepsDone := congrArg (fun d => d.sys.stepsDone) kept.1
  have err : (v.level 2 kHz 0).dev.sys.kindleErr = s.dev.sys.kindleErr := congrArg (fun d => d.sys.kindleErr) kept.1
  have halts : ((v.level 2 kHz 0).dev.sys.mode = .kindle ∧ (!(v.level 2 kHz 0).dev.sys.stepsDone.contains 1) = true ∧
      (v.level 2 kHz 0).dev.sys.kindleErr = 0) ↔ s.dev.sys.mode = .kindle ∧ 1 ∉ s.dev.sys.stepsDone ∧ s.dev.sys.kindleErr = 0 := by
    rw [kindle_iff mayTrip_level, steps, err]
    simp [v]
  by_cases halt : s.dev.sys.mode = .kindle ∧ 1 ∉ s.dev.sys.stepsDone ∧ s.dev.sys.kindleErr = 0
  · refine ⟨stateOf s ((v.level 2 kHz 0).kindleHalt 1 1), congrArg (fun w => Host.Outcome.next (stateOf s w)) (if_pos (halts.mpr halt)), found, ?_, fuse, pending⟩
    simp only [if_pos halt]
    exact congrArg (fun d : Dev => { d with sys := { d.sys with kindleErr := 1, errStep := 1 } }) beside
  · refine ⟨stateOf s (v.level 2 kHz 0), congrArg (fun w => Host.Outcome.next (stateOf s w)) (if_neg (mt halts.mp halt)), found, ?_, fuse, pending⟩
    simp only [if_neg halt]
    exact beside

/-- The loss of a clock that is a level source alone. -/
theorem level_alone {n : Nat} {d0 d1 : Word32} (plain : Plain n) (there : (s.world.source n).isSome = true) :
    LevelDetected s (stateOf s (s.world.level n d0 d1)) n d0 d1 s.dev.clock.tb ∧ Beside s (stateOf s (s.world.level n d0 d1)) id :=
  level_after (f := id) (g := id) quiescent_world plain there rfl rfl

/-- Settles O29: the input's bits are set as the rows have it; each lost reference is an event, and nothing else but its effect
shows beside it. -/
theorem operatorInputAndReferences : Obligations.OperatorInputAndReferences := by
  intro s kHz y
  refine ⟨⟨_, rfl, rfl⟩, fun high => ?_, fun low => ?_, ⟨_, rfl, rfl⟩, refclk_tb kHz, ?_, ?_, fun base => ?_, fun isM => ?_⟩
  · refine ⟨_, congrArg (fun w => Host.Outcome.next (stateOf s w)) (if_neg ?_), rfl⟩
    exact fun e => Bool.false_ne_true (high.symm.trans e)
  · obtain ⟨found, beside⟩ := level_after (s := s) (n := 6) (d0 := 0) (d1 := 0)
      (f := fun d => { d with sys := { d.sys with opStuck := true } }) (g := fun d => { d with sys := { d.sys with opStuck := true } })
      ⟨rfl, rfl, rfl, rfl, rfl, rfl⟩ (by unfold Plain Noted; decide) rfl rfl rfl
    exact ⟨_, congrArg (fun w => Host.Outcome.next (stateOf s w)) (if_pos low), found, beside⟩
  · exact ⟨_, rfl, level_alone (by unfold Plain Noted; decide) rfl⟩
  · exact ⟨_, rfl, level_alone (by unfold Plain Noted; decide) rfl⟩
  · refine ⟨_, congrArg (fun w => Host.Outcome.next (stateOf s w)) (if_neg ?_), rfl⟩
    exact fun e => Bool.false_ne_true (base.symm.trans e)
  · have there : (s.world.source 0x301).isSome = true := by
      have row : s.world.source 0x301 = if s.fuse.variantM then some ⟨0x301, 1, "THM_REFCLK_LOSS", 0, 1, true, true, 0⟩ else none := rfl
      rw [row, if_pos isM]
      rfl
    obtain ⟨found, beside⟩ := level_after (s := s) (n := 0x301)
      (d0 := (s.world.upd fun d => { d with thm := { d.thm with refLost := true, refKHz := kHz } }).thmState) (d1 := kHz)
      (f := fun d => { d with thm := { d.thm with refLost := true, refKHz := kHz } })
      (g := fun d => { d with thm := { d.thm with refLost := true, refKHz := kHz } })
      ⟨rfl, rfl, rfl, rfl, rfl, rfl⟩ (by unfold Plain Noted; decide) there rfl rfl
    exact ⟨_, congrArg (fun w => Host.Outcome.next (stateOf s w)) (if_pos isM), _, found, beside⟩

end Sys2Proof.Proofs
end

section
/-! O8: what the queries of the device answer. -/

namespace Sys2Proof.Proofs

open Machine Laws

set_option Elab.async false

variable {s : State} {opc : Nat} {p : Packet} {w : W}

/-! Little-endian words. -/

theorem le_mod (n v : Nat) : le n (v % 256 ^ n) = le n v := by
  induction n generalizing v with
  | zero => rfl
  | succ n ih =>
    have low : BitVec.ofNat 8 (v % 256 ^ (n + 1)) = BitVec.ofNat 8 v := by
      apply BitVec.eq_of_toNat_eq
      rw [BitVec.toNat_ofNat, BitVec.toNat_ofNat]
      exact Nat.mod_mod_of_dvd _ (Dvd.intro_left (256 ^ n) rfl)
    have high : v % 256 ^ (n + 1) / 256 = v / 256 % 256 ^ n := by
      rw [pow_succ, Nat.mul_comm, Nat.mod_mul_right_div_self]
    rw [le, le, low, high, ih]

theorem le_w32 (v : Nat) : le 4 (w32 v).toNat = le 4 v := by
  rw [w32, BitVec.toNat_ofNat]
  exact le_mod 4 v

theorem le_append (m n v : Nat) : le m v ++ le n (v / 256 ^ m) = le (m + n) v := by
  induction m generalizing v with
  | zero => simp [le]
  | succ m ih =>
    rw [Nat.add_right_comm, le, le, List.cons_append, ← ih, pow_succ, Nat.mul_comm, Nat.div_div_eq_div_mul]

theorem le_halves (v : Word64) : le 4 (lo32 v).toNat ++ le 4 (hi32 v).toNat = le 8 v.toNat := by
  have low : le 4 (v.toNat % 2 ^ 32) = le 4 v.toNat := le_mod 4 v.toNat
  rw [lo32, hi32, le_w32, le_w32, low]
  exact le_append 4 4 v.toNat

/-! What the packet's taking leaves of the device. -/

theorem begins_clock (h : Begins s opc p w) : w.dev.clock = s.dev.clock := by rw [(begins_dev s opc p w h).1]
theorem begins_sys (h : Begins s opc p w) : w.dev.sys = s.dev.sys := by rw [(begins_dev s opc p w h).1]
theorem begins_thm (h : Begins s opc p w) : w.dev.thm = s.dev.thm := by rw [(begins_dev s opc p w h).1]
theorem begins_wdt (h : Begins s opc p w) (k : Nat) : w.dev.wdt k = s.dev.wdt k := by rw [(begins_dev s opc p w h).1]; rfl
theorem begins_images (h : Begins s opc p w) : w.dev.images = { s.dev.images with sessions := w.dev.images.sessions } := by
  conv_lhs => rw [(begins_dev s opc p w h).1]

/-- A command whose meaning ends with DONE. -/
theorem command_done {body : Body} {v : W} {res : List Byte} (ho : opc < 65536) (hn : opc ≠ 0x0A41)
    (hb : Begins s opc p w → body p w = .fin v sDone res) (h : Begins s opc p w) :
    ∃ t, command (BitVec.ofNat 16 opc) p body s = .next t ∧ Done s t opc p v res :=
  command_ends s opc p w v body sDone res ho hn h (hb h)

/-- TIME_STATUS: a time base without a source has offset 0 and no age. -/
theorem timeStatus_done (h : Begins s 0x0110 p w) : cmdTimeStatus p w = .fin w sDone
    (le 8 s.dev.clock.tb.toNat ++ le 8 s.dev.clock.frameNo.toNat ++ le 4 w.tbStat.toNat ++
      le 4 (w.reg 5 0 0x38).toNat ++ le 4 (if w.tbSource = 0 then (0 : Word32) else BitVec.ofInt 32 s.dev.clock.offset).toNat ++
      le 4 (if w.tbSource = 0 then 0xFFFFFFFF else match s.dev.clock.lastSync with
        | some x => min ((s.dev.now - x.toNat) / 1000) 0xFFFFFFFF
        | none => 0xFFFFFFFF)) := by
  have clock := begins_clock h
  have now : w.dev.now = s.dev.now := by rw [Dev.now, Dev.now, clock]
  simp only [cmdTimeStatus, W.ok, clock, now, wordsLe, List.flatMap_cons, List.flatMap_nil, List.append_nil, beq_iff_eq]
  rw [← le_halves, ← le_halves]
  by_cases free : w.tbSource = 0
  · simp only [free, if_true, List.append_assoc]
    rfl
  · simp only [free, if_false, le_w32, List.append_assoc] <;> rfl

/-- CUTOVER_STATUS: the cutover that stands, or the one that was named last. -/
theorem cutoverStatus_done (h : Begins s 0x0A09 p w) :
    let x := match s.dev.images.cut with
      | some c => (c.hearths, lo32 c.fc)
      | none => s.dev.images.lastNamed
    cmdCutoverStatus p w = .fin w sDone (le 4 x.1.toNat ++ le 4 x.2.toNat ++
      le 4 (match (hearthsOf x.1).head? with | some h => ((s.dev.cutStat h).word).toNat | none => 0) ++ le 4 s.dev.images.lastCut.1.toNat) := by
  intro x
  have images := begins_images h
  have stat (k : Nat) : w.dev.cutStat k = s.dev.cutStat k := by rw [Dev.cutStat, images, Dev.cutStat]
  have cut : w.dev.images.cut = s.dev.images.cut := by rw [images]
  have named : w.dev.images.lastNamed = s.dev.images.lastNamed := by rw [images]
  have last : w.dev.images.lastCut = s.dev.images.lastCut := by rw [images]
  have words : cmdCutoverStatus p w = w.ok (le 4 x.1.toNat ++ le 4 x.2.toNat ++
      le 4 (match (hearthsOf x.1).head? with | some h => (w.dev.cutStat h).word | none => 0).toNat ++ le 4 s.dev.images.lastCut.1.toNat) := by
    simp only [cmdCutoverStatus, cut, named, last]
    rfl
  rw [words]
  cases (hearthsOf x.1).head? with
  | none => rfl
  | some k => dsimp only; rw [stat]; rfl

/-- LC_NONCE_GET and SESSION_STATUS: the device's own nonce, and the sessions as the packet found them. -/
theorem lcNonceGet_done (h : Begins s 0x0A30 p w) : cmdLcNonceGet p w = .fin w sDone (le 4 s.dev.sys.nonce.toNat) := by
  rw [cmdLcNonceGet, begins_sys h, W.ok]

theorem sessionStatus_done (h : Begins s 0x0A43 p w) : cmdSessionStatus p w = .fin w sDone (w.dev.images.sessions.flatMap fun x =>
    le 4 x.id.toNat ++ le 4 ((x.till.toNat - s.dev.clock.tb.toNat + 999999999) / 1000000000) ++ le 4 x.accepted ++ le 4 x.mac.toNat) := by
  rw [cmdSessionStatus, begins_clock h, W.ok]

theorem at_eq (v k : Nat) : at_ v k = 2 ^ k * v := by
  rw [at_, Nat.mul_comm]

/-- IMAGE_STATUS: the read of the staged head changes neither life-cycle state nor images' state. -/
theorem imageStatus_done : cmdImageStatus p w = .fin w.stageHead.2 sDone
    (le 4 (w.stageHead.2.dev.sys.slotB.toNat + 2 * w.stageHead.2.dev.sys.fallback.toNat +
        4 * w.stageHead.2.dev.images.stokerPending.toNat + 8 * w.stageHead.2.dev.images.st.code +
        256 * w.stageHead.2.dev.images.reason.toNat) ++
      le 4 (headVersion w.stageHead.2.dev.images.running.head).toNat ++ le 4 (headVersion w.stageHead.1).toNat ++
      le 4 w.stageHead.2.dev.images.stageLen ++
      headDigest w.stageHead.2.dev.images.running.head ++ headDigest w.stageHead.1) := by
  have code : at_ w.stageHead.2.dev.images.reason.toNat 8 = 256 * w.stageHead.2.dev.images.reason.toNat := at_eq _ 8
  simp only [cmdImageStatus, W.ok, code]

theorem traceStatus_done {q : List Byte} (data : (w.portStat (fld (w.reg 2 0 0x34) 12 12)).1 = .data q) :
    cmdTraceStatus p w = .fin w sDone
      (le 4 (w.reg 2 0 0x34).toNat ++ le 4 (w.regRead 2 0 0x4C).toNat ++ q ++ le 4 (w.regRead 2 0 0x48).toNat ++
       le 4 (w.regRead 2 0 0x20).toNat) := by
  simp only [cmdTraceStatus, W.ok, data]

theorem chimneyStatus_done : cmdChimneyStatus p w = .fin w sDone
    (w.regWords 12 0 [0x20, 0x24, 0x28, 0x2C, 0x30, 0x34, 0x38, 0x3C] ++
      ([0, 2, 4, 6] : List Nat).flatMap fun k => le 4 (w.posMode k + 65536 * w.posMode (k + 1))) := by
  have modes (k : Nat) : at_ (w.posMode k) 16 = 65536 * w.posMode k := at_eq _ 16
  simp only [cmdChimneyStatus, W.ok, modes, show List.range 8 = [0, 1, 2, 3, 4, 5, 6, 7] from rfl,
    show List.range 4 = [0, 1, 2, 3] from rfl, List.map_cons, List.map_nil, List.flatMap_cons, List.flatMap_nil]

theorem length_le (n v : Nat) : (le n v).length = n := by
  induction n generalizing v with
  | zero => rfl
  | succ n ih => rw [le, List.length_cons, ih]

theorem length_flatMap_of {α β : Type} (f : α → List β) (n : Nat) (each : ∀ a, (f a).length = n) (l : List α) :
    (l.flatMap f).length = l.length * n := by
  induction l with
  | nil => simp
  | cons a l ih => rw [List.flatMap_cons, List.length_append, ih, each, List.length_cons]; ring

theorem length_regWords (r k : Nat) (l : List Nat) : (w.regWords r k l).length = l.length * 4 :=
  (length_flatMap_of _ 4 (fun _ => length_le 4 _) _).trans (by rw [List.length_map])

/-- FIO_STATUS: 64 bytes, the first nine words of them the registers of the field ports. -/
theorem fioStatus_done : ∃ res, res.length = 64 ∧
    res.take 36 = w.regWords 7 0 [0x20, 0x300, 0x304, 0x308, 0x30C, 0x310, 0x314, 0x318, 0x31C] ∧
    cmdFioStatus p w = .fin w sDone res := by
  refine ⟨_, ?_, ?_, rfl⟩
  · simp only [List.length_append, length_regWords, length_flatMap_of _ 2 (fun _ => length_le 2 _), length_le, List.length_map,
      List.length_range, List.length_cons, List.length_nil]
  · rw [List.append_assoc, List.append_assoc, List.take_append_of_le_length (by rw [length_regWords]; rfl)]
    exact List.take_of_length_le (by rw [length_regWords]; rfl)

theorem dampStatus_done : cmdDampStatus p w = .fin w sDone
    (w.regWords 6 0 [0x20, 0x24, 0x28, 0x2C, 0x30, 0x34, 0x38, 0x3C, 0x40] ++
      w.regWords 6 0 ((List.range 16).map fun h => 0x104 + 256 * h)) := by
  rw [cmdDampStatus, W.ok, W.regWords, W.regWords, W.regWords, List.map_append, wordsLe, List.flatMap_append]
  rfl

/-- THM_STATUS: the status page of a Thimble that is up, and 0 of one that is down. -/
theorem thmStatus_up (h : Begins s 0x0B01 p w) (powered : s.dev.thm.powered = true) (up : s.dev.thm.up = true) :
    cmdThmStatus p w = .fin w sDone ((List.range 16).flatMap fun i => le 4 (w.mailbox (4 * i)).toNat) := by
  rw [cmdThmStatus, begins_thm h, powered, up]
  rfl

theorem thmStatus_down (h : Begins s 0x0B01 p w) (down : s.dev.thm.powered = false ∨ s.dev.thm.up = false) :
    cmdThmStatus p w = .fin w sDone (List.replicate 64 0) := by
  simp only [cmdThmStatus, W.ok, begins_thm h, (Bool.and_eq_false_iff).2 down, Bool.false_eq_true, if_false]
  rfl

theorem wdtStatus_done (h : Begins s 0x0801 p w) (small : (pw p 0).toNat ≤ 64) :
    wdtStatus p w = .fin w sDone (le 4 (s.dev.wdt (pw p 0).toNat).stat.toNat ++ le 4 (s.dev.wdt (pw p 0).toNat).roll.toNat ++
      le 4 ((s.dev.wdt (pw p 0).toNat).pos s.dev.now) ++ le 4 (s.dev.wdt (pw p 0).toNat).info.toNat ++
      le 8 (s.dev.wdt (pw p 0).toNat).ctl.toNat) := by
  have now : w.dev.now = s.dev.now := by rw [Dev.now, Dev.now, begins_clock h]
  rw [wdtStatus, decide_eq_true small, now, begins_wdt h]
  rfl

theorem pwrStatus_done : cmdPwrStatus p w = .fin w sDone
    (le 4 (w.reg 4 0 0x20).toNat ++ w.regWords 4 0 [0x24] ++ le 4 (w.reg 4 0 0x28).toNat ++ w.regWords 4 0 [0x2C, 0x30, 0x34]) := by
  simp only [cmdPwrStatus, W.ok, wordsLe, W.regWords, List.map_cons, List.map_nil, List.flatMap_cons, List.flatMap_nil, List.append_nil,
    List.append_assoc]

theorem fld_whole {v : Word32} (small : v.toNat < 256) : fld v 0 8 = v.toNat := by
  rw [fld_eq]
  omega

theorem domPre_small {bits : Nat} {k : Nat → Res} (small : (pw p 0).toNat < 244) (fits : 8 ≤ bits) :
    w.domPre p bits k = k (pw p 0).toNat := by
  have whole := fld_whole (v := pw p 0) (by omega)
  have pow := Nat.pow_le_pow_right (n := 2) (by decide) fits
  rw [W.domPre, whole, decide_eq_true ⟨by omega, small⟩]
  rfl

theorem pwrDomainStatus_done (small : (pw p 0).toNat < 244) : cmdPwrDomainStatus p w = .fin w sDone
    (w.regWords 4 0 [0x1000 + 4 * (pw p 0).toNat, 0x1400 + 4 * (pw p 0).toNat, 0x1800 + 4 * (pw p 0).toNat]) := by
  rw [cmdPwrDomainStatus, domPre_small small (Nat.le_refl 8), W.ok]

/-- Settles O8: each query's meaning is its reply, and its packet's taking leaves what the reply lists. -/
theorem deviceQueriesAnswer : Obligations.DeviceQueriesAnswer := by
  intro s p w d n ok
  have done {opc : Nat} {body : Body} {v : W} {res : List Byte} (ho : opc < 65536) (hn : opc ≠ 0x0A41)
    (hb : Begins s opc p w → body p w = .fin v sDone res) := command_done (s := s) (w := w) (p := p) ho hn hb
  obtain ⟨fio, length, front, answers⟩ := fioStatus_done (p := p) (w := w)
  exact ⟨done (by decide) (by decide) fun _ => rfl, done (by decide) (by decide) timeStatus_done,
    done (by decide) (by decide) lcNonceGet_done, done (by decide) (by decide) sessionStatus_done,
    done (by decide) (by decide) fun _ => imageStatus_done,
    done (by decide) (by decide) cutoverStatus_done,
    fun q data => done (by decide) (by decide) fun _ => traceStatus_done data,
    done (by decide) (by decide) fun _ => chimneyStatus_done,
    ⟨fio, length, front, done (by decide) (by decide) fun _ => answers⟩,
    done (by decide) (by decide) fun _ => dampStatus_done,
    fun powered up => done (by decide) (by decide) fun h => thmStatus_up h powered up,
    fun down => done (by decide) (by decide) fun h => thmStatus_down h down,
    fun small => done (by decide) (by decide) fun h => wdtStatus_done h small,
    done (by decide) (by decide) fun _ => pwrStatus_done,
    fun small => done (by decide) (by decide) fun _ => pwrDomainStatus_done small⟩

end Sys2Proof.Proofs
end

section
/-! O9: what the queries of lanes, loops, memory, queues, Flue and basting answer. -/

namespace Sys2Proof.Proofs

open Machine Laws

set_option Elab.async false

variable {s : State} {opc : Nat} {p : Packet} {w v : W} {h n : Nat} {res : List Byte}

/-! What the Stoker reads of a hob either goes on with what it read, or ends the command. -/

theorem readHob_cases (w : W) (h off n : Nat) :
    (∃ bs v, ∀ k, w.readHob h off n k = k bs v) ∨ ∃ v, ∀ k, w.readHob h off n k = .fin v sInternalFault [] := by
  rcases read : w.hobReadSel w.stokerRid h (hobBase h + off) n with ⟨acc, v⟩
  cases acc with
  | data bs => exact .inl ⟨bs, v, fun k => by rw [W.readHob, read]⟩
  | done => exact .inr ⟨v.internal, fun k => by rw [W.readHob, read]; rfl⟩
  | wait => exact .inr ⟨v.internal, fun k => by rw [W.readHob, read]; rfl⟩
  | err e => exact .inr ⟨v.internal, fun k => by rw [W.readHob, read]; rfl⟩

theorem readExt_cases (w : W) (h : Nat) (c : Ctx) :
    (∃ v, ∀ k, w.readExt h c k = k v) ∨ ∃ v, ∀ k, w.readExt h c k = .fin v sInternalFault [] := by
  by_cases table : c.kernel = 5 ∧ c.extOff + 32 * c.extLen ≤ 0x400000
  · rcases readHob_cases w h c.extOff (32 * c.extLen) with ⟨bs, v, read⟩ | ⟨v, read⟩
    · exact .inl ⟨v, fun k => by rw [W.readExt, if_pos table, read]⟩
    · exact .inr ⟨v, fun k => by rw [W.readExt, if_pos table, read]⟩
  · exact .inl ⟨w, fun k => by rw [W.readExt, if_neg table]⟩

theorem readCtxs_cases (w : W) (cs : List (Nat × Nat)) :
    (∃ v, ∀ k, w.readCtxs cs k = k v) ∨ ∃ v, ∀ k, w.readCtxs cs k = .fin v sInternalFault [] := by
  induction cs generalizing w with
  | nil => exact .inl ⟨w, fun k => rfl⟩
  | cons c cs ih =>
    rcases readHob_cases w c.1 c.2 256 with ⟨bs, v, read⟩ | ⟨v, read⟩
    · rcases readExt_cases v c.1 (Ctx.ofBytes bs) with ⟨u, ext⟩ | ⟨u, ext⟩
      · rcases ih u with ⟨t, rest⟩ | ⟨t, rest⟩
        · exact .inl ⟨t, fun k => by rw [W.readCtxs, read, ext, rest]⟩
        · exact .inr ⟨t, fun k => by rw [W.readCtxs, read, ext, rest]⟩
      · exact .inr ⟨u, fun k => by rw [W.readCtxs, read, ext]⟩
    · exact .inr ⟨v, fun k => by rw [W.readCtxs, read]⟩

theorem readsCtxs_goes {cs : List (Nat × Nat)} (reads : ReadsCtxs w cs v) (k : W → Res) : w.readCtxs cs k = k v := by
  rcases readCtxs_cases w cs with ⟨u, all⟩ | ⟨u, all⟩
  · rw [ReadsCtxs, all] at reads
    cases reads
    exact all k
  · rw [ReadsCtxs, all] at reads
    cases reads

theorem readsExt_goes {c : Ctx} (reads : ReadsExt w h c v) (k : W → Res) : w.readExt h c k = k v := by
  rcases readExt_cases w h c with ⟨u, all⟩ | ⟨u, all⟩
  · rw [ReadsExt, all] at reads
    cases reads
    exact all k
  · rw [ReadsExt, all] at reads
    cases reads

theorem ctxBase_aligned (w : W) (h : Nat) : w.ctxBase h % 65536 = 0 := by
  rw [W.ctxBase]
  omega

/-- The Stoker reads 32 aligned bytes of an awake hob without flipped bits, which the output selector does not replace. -/
theorem readHob_plain {off : Nat} {k : List Byte → W → Res} (small : h < 16) (aligned : off % 32 = 0) (flips : w.dev.flips.rows = [])
    (awake : (w.dev.hob h).power = .awake) (seen : w.seen h off = off) :
    w.readHob h off 32 k = k (w.bytes (hobBase h + off) 32) (w.granted h (hobMaster w.dev.chim.pos h w.stokerRid)) := by
  have base : hobBase h % 32 = 0 := by rw [hobBase, if_pos small]; omega
  have within : hobBase h + off - hobBase h = off := by omega
  rw [W.readHob, W.hobReadSel, wordPieces_one (by decide) (by omega), W.hobReadParts, if_pos small, within, seen,
    hobRead_plain _ _ _ _ _ flips awake]
  rfl

theorem granted_eq_beside (u k : Nat) : w.granted u k = besideCore w w.dev.clock.beats w.dev.cores (w.granted u k).dev.hobs := rfl

theorem seen_granted (u k h o : Nat) : (w.granted u k).seen h o = w.seen h o := by
  rw [granted_eq_beside, seen_besideCore]

theorem power_granted (u k : Nat) : ((w.granted u k).dev.hob u).power = (w.dev.hob u).power := by
  rw [W.granted, upd_dev, hob_onHob_self]

theorem granted_chim (u k : Nat) : (w.granted u k).dev.chim = w.dev.chim := rfl

theorem stokerRid_granted (u k : Nat) : (w.granted u k).stokerRid = w.stokerRid := rfl

theorem bytes_granted (u k a n : Nat) : (w.granted u k).bytes a n = w.bytes a n := rfl

/-! What the packet's taking leaves of the device. -/

theorem begins_avail (b : Begins s opc p w) : w.dev.sys.avail = s.dev.sys.avail := by rw [begins_sys b]
theorem begins_flue (b : Begins s opc p w) : w.dev.flue = s.dev.flue := by rw [(begins_dev s opc p w b).1]
theorem begins_dram (b : Begins s opc p w) : w.dev.dram = s.dev.dram := by rw [(begins_dev s opc p w b).1]
theorem begins_bobbin (b : Begins s opc p w) : w.dev.bobbin = s.dev.bobbin := by rw [(begins_dev s opc p w b).1]
theorem begins_baste (b : Begins s opc p w) : w.dev.baste = s.dev.baste := by rw [(begins_dev s opc p w b).1]
theorem begins_flips (b : Begins s opc p w) : w.dev.flips = s.dev.flips := by rw [(begins_dev s opc p w b).1]
theorem begins_chim (b : Begins s opc p w) : w.dev.chim = s.dev.chim := by rw [(begins_dev s opc p w b).1]
theorem begins_flash (b : Begins s opc p w) : w.dev.images.flash = s.dev.images.flash := by rw [(begins_dev s opc p w b).1]
theorem begins_hob (b : Begins s opc p w) (u : Nat) : w.dev.hob u = s.dev.hob u := by rw [(begins_dev s opc p w b).1]; rfl
theorem begins_seam (b : Begins s opc p w) (u : Nat) : w.dev.seam u = s.dev.seam u := by rw [(begins_dev s opc p w b).1]; rfl
theorem begins_chan (b : Begins s opc p w) (u : Nat) : w.dev.chan u = s.dev.chan u := by rw [(begins_dev s opc p w b).1]; rfl
theorem begins_queue (b : Begins s opc p w) (q : Nat) : w.dev.queue q = s.dev.queue q := by rw [Dev.queue, begins_bobbin b, Dev.queue]
theorem begins_scrubAge (b : Begins s opc p w) : w.dev.scrubAge = s.dev.scrubAge := by rw [(begins_dev s opc p w b).1]; rfl
theorem begins_scrubLimit (b : Begins s opc p w) : w.dev.scrubLimit = s.dev.scrubLimit := by rw [(begins_dev s opc p w b).1]; rfl
theorem begins_hasStore (b : Begins s opc p w) : w.dev.hasStore = s.dev.hasStore := by rw [(begins_dev s opc p w b).1]; rfl

theorem need_pos {b : Bool} {st : Nat} {k : Res} (holds : b = true) : w.need b st k = k := if_pos holds

/-! LANE_STATUS. -/

theorem laneStatus_hearth (b : Begins s 0x0301 p w) (small : (pw p 0).toNat < 16) : cmdLaneStatus p w = .fin w sDone
    (wordsLe ([w.lanePack (pw p 0).toNat 0 10, w.lanePack (pw p 0).toNat 10 3] ++
      ([0, 1, 2, 3] : List Nat).map (fun k => (s.dev.seam (4 * (pw p 0).toNat + k)).stat) ++
      (List.range 13).map fun l => (w.laneAt (pw p 0).toNat l).cnt)) := by
  have lanes : lanesOf (pw p 0).toNat = 13 := by rw [lanesOf, if_pos small]
  have all : (List.range 13).map (fun l => if l < 13 then (w.laneAt (pw p 0).toNat l).cnt else 0) =
      (List.range 13).map fun l => (w.laneAt (pw p 0).toNat l).cnt :=
    List.map_congr_left fun l hl => if_pos (List.mem_range.1 hl)
  rw [cmdLaneStatus, need_pos (decide_eq_true (by omega)), W.ok]
  simp only [small, if_true, lanes, all, begins_seam b]
  rfl

theorem laneStatus_stoker (b : Begins s 0x0301 p w) (stoker : (pw p 0).toNat = 16) : cmdLaneStatus p w = .fin w sDone
    (wordsLe ([w.lanePack 16 0 4, 0, (s.dev.seam 64).stat, 0, 0, 0] ++
      (List.range 13).map fun l => if l < 4 then (w.laneAt 16 l).cnt else 0)) := by
  rw [cmdLaneStatus, stoker, need_pos (by decide), W.ok, begins_seam b]
  rfl

/-! The loops and the schedules. -/

theorem loopH_eq (p : Packet) : loopH p = (pw p 0).toNat % 16 := by 
  rw [loopH, fld_eq]
  omega

theorem loopC_eq (small : (pw p 0).toNat < 2 ^ 12) : loopC p = (pw p 0).toNat / 16 := by
  rw [loopC, fld_eq]
  omega

theorem loopPre_read {bits : Nat} {k : Res} (small : (pw p 0).toNat < 2 ^ bits) (there : bitAt w.dev.sys.avail (loopH p) = true) :
    w.loopPre p bits false k = k := by
  rw [W.loopPre, need_pos (decide_eq_true small), need_pos there]
  rfl

/-- LOOP_STATUS: two reads of one port word. -/
theorem loopStatus_done (b : Begins s 0x0405 p w) (small : (pw p 0).toNat < 2 ^ 12)
    (there : bitAt s.dev.sys.avail ((pw p 0).toNat % 16) = true) {o k : Nat}
    (ho : o = w.ctxBase ((pw p 0).toNat % 16) + 256 * ((pw p 0).toNat / 16))
    (hk : k = hobMaster s.dev.chim.pos ((pw p 0).toNat % 16) w.stokerRid)
    (flips : s.dev.flips.rows = []) (awake : (s.dev.hob ((pw p 0).toNat % 16)).power = .awake)
    (first : w.seen ((pw p 0).toNat % 16) o = o) (second : w.seen ((pw p 0).toNat % 16) (o + 192) = o + 192) :
    cmdLoopStatus p w = .fin ((w.granted ((pw p 0).toNat % 16) k).granted ((pw p 0).toNat % 16) k) sDone
      (w.bytes (hobBase ((pw p 0).toNat % 16) + o) 32 ++ w.bytes (hobBase ((pw p 0).toNat % 16) + o + 192) 32) := by
  have hearth : (pw p 0).toNat % 16 < 16 := Nat.mod_lt _ (by decide)
  have aligned := ctxBase_aligned w ((pw p 0).toNat % 16)
  rw [← begins_flips b] at flips
  rw [← begins_hob b] at awake
  rw [← begins_chim b] at hk
  rw [cmdLoopStatus, loopPre_read small (by rw [begins_avail b, loopH_eq]; exact there), loopH_eq, loopC_eq small]
  dsimp only
  rw [← ho, readHob_plain hearth (by omega) flips awake first, ← hk,
    readHob_plain (w := w.granted ((pw p 0).toNat % 16) k) (off := o + 0xC0) hearth (by omega) flips
      ((power_granted _ _).trans awake)
      ((seen_granted _ _ _ _).trans second), granted_chim, stokerRid_granted, ← hk, bytes_granted,
    ← Nat.add_assoc, W.ok]

theorem bellowsStatus_done (b : Begins s 0x0408 p w) (small : (pw p 0).toNat < 16) (there : bitAt s.dev.sys.avail (pw p 0).toNat = true) :
    cmdBellowsStatus p w = .fin w sDone (w.regWords 16 (pw p 0).toNat
      [0x318, 0x31C, 0x320, 0x324, 0x328, 0x32C, 0x330, 0x334, 0x338, 0x33C]) := by
  have hearth : loopH p = (pw p 0).toNat := by rw [loopH_eq, Nat.mod_eq_of_lt small]
  rw [cmdBellowsStatus, loopPre_read small (by rw [begins_avail b, hearth]; exact there), hearth]
  rfl

theorem schedPre_there (b : Begins s opc p w) {k : Nat → Res} (small : (pw p 0).toNat < 16)
    (there : bitAt s.dev.sys.avail (pw p 0).toNat = true) : w.schedPre p k = k (pw p 0).toNat := by
  rw [W.schedPre, need_pos (decide_eq_true small), need_pos (by rw [begins_avail b]; exact there)]

theorem schedStatus_done (b : Begins s 0x0412 p w) (small : (pw p 0).toNat < 16) (there : bitAt s.dev.sys.avail (pw p 0).toNat = true)
    (reads : ReadsCtxs w (w.planCtxs (pw p 0).toNat (w.activeBank (pw p 0).toNat)) v) :
    cmdSchedStatus p w = .fin v sDone (wordsLe [v.hreg (pw p 0).toNat 0x600, (v.dev.blw (pw p 0).toNat).schedStat,
        v.hreg (pw p 0).toNat 0x608] ++
      v.planResult (pw p 0).toNat (v.plan (pw p 0).toNat (v.activeBank (pw p 0).toNat)) (v.checkLevel (pw p 0).toNat)) := by
  rw [cmdSchedStatus, schedPre_there b small there, readsCtxs_goes reads, W.ok]

theorem schedCheck_done (b : Begins s 0x0413 p w) (small : (pw p 0).toNat < 16) (there : bitAt s.dev.sys.avail (pw p 0).toNat = true)
    (level : (pw p 1).toNat ≤ 6)
    (reads : ReadsCtxs w (w.planCtxs (pw p 0).toNat false ++ w.planCtxs (pw p 0).toNat true) v) :
    cmdSchedCheck p w = .fin v sDone
      (v.planResult (pw p 0).toNat (v.plan (pw p 0).toNat (v.activeBank (pw p 0).toNat)) (pw p 1).toNat ++
        if (w.plan (pw p 0).toNat (!w.activeBank (pw p 0).toNat)).entries.isEmpty then List.replicate 16 0
        else v.planResult (pw p 0).toNat (w.plan (pw p 0).toNat (!w.activeBank (pw p 0).toNat)) (pw p 1).toNat) := by
  rw [cmdSchedCheck, schedPre_there b small there]
  dsimp only
  rw [need_pos (decide_eq_true level), readsCtxs_goes reads, W.ok]

/-! The memory, the hobs, the firewalls and the queues. -/

theorem memPre_enabled (b : Begins s opc p w) {k : Nat → Res} (small : (pw p 0).toNat < 4) (on : (s.dev.chan (pw p 0).toNat).enabled = true) :
    w.memPre p k = k (pw p 0).toNat := by
  rw [W.memPre, need_pos (by rw [begins_chan b, on, decide_eq_true small]; rfl)]

theorem memStatus_done (b : Begins s 0x0501 p w) (small : (pw p 0).toNat < 4) (on : (s.dev.chan (pw p 0).toNat).enabled = true) :
    cmdMemStatus p w = .fin w sDone (w.regWords 10 (pw p 0).toNat [0x20, 0x24, 0x28, 0x2C, 0x30, 0x48] ++
      wordsLe [w32 s.dev.dram.retired.length, w32 s.dev.images.flash.rcd.rows.length, w32 (min s.dev.scrubAge 0xFFFFFFFF),
        w32 s.dev.scrubLimit]) := by
  rw [cmdMemStatus, memPre_enabled b small on, begins_dram b, begins_flash b, begins_scrubAge b, begins_scrubLimit b, W.ok]

theorem memLogRead_done (b : Begins s 0x0502 p w) (small : (pw p 0).toNat < 4) (on : (s.dev.chan (pw p 0).toNat).enabled = true) :
    cmdMemLogRead p w = .fin w sDone (w.regWords 10 (pw p 0).toNat ((List.range 64).map fun i => 0x100 + 4 * i)) := by
  rw [cmdMemLogRead, memPre_enabled b small on, W.ok]

theorem some_of_one_le {n : Nat} (least : 1 ≤ n) : (n != 0) = true := by
  rw [bne_iff_ne]
  omega

theorem memRetireList_done (b : Begins s 0x0505 p w) (least : 1 ≤ (pw p 1).toNat) (most : (pw p 1).toNat ≤ 1016) :
    cmdMemRetireList p w = .fin w sDone
      ((slice s.dev.dram.retired (pw p 0).toNat (pw p 1).toNat).flatMap fun x => le 4 (x.1 + 2 ^ 31)) := by
  rw [cmdMemRetireList, need_pos (decide_eq_true most), need_pos (some_of_one_le least), begins_dram b, W.ok]

theorem memRepairList_done (b : Begins s 0x0507 p w) : cmdMemRepairList p w = .fin w sDone
    (s.dev.images.flash.rcd.rows.flatMap fun r => le 4 (fld r.loc 0 24 + 2 ^ 24 * r.ch) ++ le 4 r.st.toNat) := by
  rw [cmdMemRepairList, begins_flash b, W.ok]
  simp only [at_eq]

/-- HOB_STATUS: eleven words, the first two of them the control and the status of the unit. -/
theorem hobStatus_done (small : (pw p 0).toNat ≤ 16) : ∃ res, res.length = 44 ∧ cmdHobStatus p w = .fin w sDone res ∧
    res.take 8 = (if (pw p 0).toNat < 16 then le 4 (w.reg 16 (pw p 0).toNat 0x200).toNat ++ w.regWords 16 (pw p 0).toNat [0x204]
      else le 4 (w.reg 1 0 0x200).toNat ++ w.regWords 1 0 [0x204]) := by
  refine ⟨_, ?_, by rw [cmdHobStatus, need_pos (decide_eq_true small), W.ok], ?_⟩
  · simp only [List.length_append, length_le, length_regWords, List.length_cons, List.length_nil]
  · simp only [W.hobReg, W.regWords, List.map_cons, wordsLe, List.flatMap_cons]
    split <;> rfl

theorem fwStatus_done (small : (pw p 0).toNat < 16) :
    cmdFwStatus p w = .fin w sDone (w.regWords 11 0 (fwCapOffs (pw p 0).toNat)) := by
  rw [cmdFwStatus, need_pos (decide_eq_true small), W.ok]

theorem queueStatus_done (b : Begins s 0x0602 p w) (small : (pw p 0).toNat < 4096) : cmdQueueStatus p w = .fin w sDone
    (wordsLe [(s.dev.queue (pw p 0).toNat).cfg.wordA, w32 (s.dev.queue (pw p 0).toNat).cfg.cap, w32 (s.dev.queue (pw p 0).toNat).cfg.level,
      (s.dev.queue (pw p 0).toNat).occWord, w32 (min (s.dev.queue (pw p 0).toNat).words 0xFFFFFFFF), (s.dev.queue (pw p 0).toNat).seq,
      w32 (s.dev.bobbin.opens.filter fun o => o.q == (pw p 0).toNat).length]) := by
  rw [cmdQueueStatus, W.queuePre, need_pos (decide_eq_true small), begins_queue b, begins_bobbin b, W.ok]

/-! The Flue and basting. -/

theorem length_records (l : List Rec) : (l.flatMap fun r => wordsLe r.words).length = l.length * 32 :=
  length_flatMap_of _ 32 (fun _ => (length_flatMap_of _ 4 (fun _ => length_le 4 _) _).trans rfl) _

/-- FLUE_HISTORY_READ: 32 bytes a record, zeros where the history holds no record. -/
theorem flueHistoryRead_done (b : Begins s 0x0702 p w) (least : 1 ≤ (pw p 0).toNat) (most : (pw p 0).toNat ≤ 32) :
    let bs := (s.dev.flue.hist.take (pw p 0).toNat).flatMap fun r => wordsLe r.words
    cmdFlueHistoryRead p w = .fin w sDone (bs ++ List.replicate (32 * (pw p 0).toNat - bs.length) 0) := by
  rw [cmdFlueHistoryRead, need_pos (decide_eq_true most), need_pos (some_of_one_le least), begins_flue b, W.ok]

theorem flueEventsRead_done (b : Begins s 0x0707 p w) (least : 1 ≤ (pw p 1).toNat) (most : (pw p 1).toNat ≤ 127) (store : s.dev.hasStore = true)
    {bs : List Byte}
    (reads : w.spillRead [] (((s.dev.flue.spill.reverse.take (seqSpan ((s.dev.flue.spill.reverse.head?.map fun r => r + 1).getD 0) (pw p 0)
      s.dev.flue.spill.reverse.length)).reverse).take (pw p 1).toNat) = (some bs, v)) :
    cmdFlueEventsRead p w = .fin v sDone bs := by
  rw [cmdFlueEventsRead, need_pos (decide_eq_true most), begins_hasStore b, store, some_of_one_le least, Bool.and_true, need_pos rfl,
    begins_flue b]
  revert reads
  cases s.dev.flue.spill.reverse <;> intro reads <;>
    simp only [List.head?_nil, List.head?_cons, Option.map_none, Option.map_some, Option.getD_none, Option.getD_some] at reads ⊢ <;>
    (rw [reads]; rfl)

theorem basteStatus_done (b : Begins s 0x0E01 p w) : cmdBasteStatus p w = .fin w sDone
    (wordsLe ([w.reg 14 0 0x20, w.reg 14 0 0x24, s.dev.baste.scanStat, s.dev.baste.rseq, w.overdueWord] ++ (List.range 17).map w.hstat)) := by
  rw [cmdBasteStatus, begins_baste b, W.ok]

theorem basteResults_done (b : Begins s 0x0E02 p w) (least : 1 ≤ (pw p 1).toNat) (most : (pw p 1).toNat ≤ 64) :
    cmdBasteResults p w = .fin w sDone ((((s.dev.baste.results.take (seqSpan s.dev.baste.rseq (pw p 0) s.dev.baste.results.length)).reverse).take
      (pw p 1).toNat).flatMap fun r => wordsLe r.words) := by
  rw [cmdBasteResults, need_pos (decide_eq_true most), need_pos (some_of_one_le least), begins_baste b, W.ok]

/-- Settles O9: each query's meaning is its reply, and its packet's taking leaves what the reply lists. -/
theorem blockQueriesAnswer : Obligations.BlockQueriesAnswer := by
  intro s p w d n m there ok
  have done {opc : Nat} {body : Body} {v : W} {res : List Byte} (ho : opc < 65536) (hn : opc ≠ 0x0A41)
    (hb : Begins s opc p w → body p w = .fin v sDone res) := command_done (s := s) (w := w) (p := p) ho hn hb
  refine ⟨fun small => done (by decide) (by decide) fun b => laneStatus_hearth b small,
    fun stoker => done (by decide) (by decide) fun b => laneStatus_stoker b stoker,
    fun small on => fun flips awake first second => done (by decide) (by decide) fun b =>
      loopStatus_done b small on rfl rfl flips awake first second,
    fun small on => done (by decide) (by decide) fun b => bellowsStatus_done b small on,
    fun small on v reads => done (by decide) (by decide) fun b => schedStatus_done b small on reads,
    fun small on level v reads => done (by decide) (by decide) fun b => schedCheck_done b small on level reads,
    fun small on => ⟨done (by decide) (by decide) fun b => memStatus_done b small on,
      done (by decide) (by decide) fun b => memLogRead_done b small on⟩,
    fun least most => done (by decide) (by decide) fun b => memRetireList_done b least most,
    done (by decide) (by decide) memRepairList_done, fun small => ?_,
    fun small => done (by decide) (by decide) fun _ => fwStatus_done small,
    fun small => done (by decide) (by decide) fun b => queueStatus_done b small,
    done (by decide) (by decide) fun _ => rfl, done (by decide) (by decide) fun _ => rfl, fun least most => ?_,
    fun least most store bs v reads => done (by decide) (by decide) fun b => flueEventsRead_done b least most store reads,
    done (by decide) (by decide) fun _ => rfl, done (by decide) (by decide) basteStatus_done,
    fun least most => done (by decide) (by decide) fun b => basteResults_done b least most⟩
  · obtain ⟨res, length, answers, front⟩ := hobStatus_done (p := p) (w := w) small
    exact ⟨res, length, done (by decide) (by decide) fun _ => answers, front⟩
  · refine ⟨_, ?_, done (by decide) (by decide) fun b => flueHistoryRead_done b least most, fun (held : n ≤ s.dev.flue.hist.length) => ?_⟩
    · rw [List.length_append, length_records, List.length_replicate, List.length_take]
      omega
    · have all : 32 * n - ((s.dev.flue.hist.take n).flatMap fun r => wordsLe r.words).length = 0 := by
        rw [length_records, List.length_take]
        omega
      rw [all, List.replicate_zero, List.append_nil]

end Sys2Proof.Proofs
end

section
/-! O56: the commands that change the mode, and the configuration transaction. -/

namespace Sys2Proof.Proofs

open Machine Laws

set_option Elab.async false

variable {s : State} {opc : Nat} {p : Packet} {w v x : W} {t : Txn}

/-- A command whose meaning pends. -/
theorem command_pending {body : Body} {v : W} {key : Nat} {go : W → W} (ho : opc < 65536) (hn : opc ≠ 0x0A41)
    (room : s.dev.stoker.pends.length < 32) (hb : Begins s opc p w → body p w = .pend v key go) (h : Begins s opc p w) :
    ∃ t, command (BitVec.ofNat 16 opc) p body s = .next t ∧ Pends s t opc p v key go :=
  command_pends s opc p w v body key go ho hn h room (hb h)

/-- A command whose meaning ends with a status. -/
theorem command_ended {body : Body} {v : W} {st : Nat} {res : List Byte} (ho : opc < 65536) (hn : opc ≠ 0x0A41)
    (hb : Begins s opc p w → body p w = .fin v st res) (h : Begins s opc p w) :
    ∃ t, command (BitVec.ofNat 16 opc) p body s = .next t ∧ Ends s t opc p v st res :=
  command_ends s opc p w v body st res ho hn h (hb h)

theorem begins_stoker (b : Begins s opc p w) : w.dev.stoker = { s.dev.stoker with
    turn := srcKey p, cmdHead := w.dev.stoker.cmdHead, sources := w.dev.stoker.sources } := by
  conv_lhs => rw [(begins_dev s opc p w b).1]
theorem begins_power (b : Begins s opc p w) : w.dev.power = s.dev.power := by rw [(begins_dev s opc p w b).1]
theorem begins_commit (b : Begins s opc p w) (a : Nat) : w.dev.commit a = s.dev.commit a := by rw [(begins_dev s opc p w b).1]; rfl
theorem begins_isCourse (b : Begins s opc p w) : w.dev.isCourse = s.dev.isCourse := by rw [Dev.isCourse, begins_chim b, Dev.isCourse]
theorem begins_loaded (b : Begins s opc p w) : w.dev.images.loaded = s.dev.images.loaded := by rw [begins_images b]
theorem begins_txn (b : Begins s opc p w) : w.dev.stoker.txn = s.dev.stoker.txn := by rw [begins_stoker b]

/-- RUN_START, once the contexts that its rules judge have been read. -/
theorem runStart_done (b : Begins s 0x0102 p w) (plain : s.dev.sys.recovery = false)
    (locked : s.dev.isCourse = true → s.dev.clock.everLocked = true)
    (loaded : ∀ h ∈ w.scheduled, bitAt s.dev.images.loaded h = true)
    (reads : ReadsCtxs w (w.scheduled.flatMap fun h => w.planCtxs h (w.activeBank h)) x)
    (accepted : ∀ h ∈ w.scheduled, x.schedAccepted h = true) (present : ∀ h, h < 16 → x.schedMissing h = false)
    (committed : (x.dev.commit (blockBase 2 0)).everDone = true) (trips : x.trips = []) (free : x.dev.sys.lockoutRec = false) :
    let v := x.upd fun d => d.advanceTb (25000 * (d.clock.tb.toNat / 25000 + 1))
    cmdRunStart p w = .fin (v.setMode v.runMode) sDone [] := by
  have course : (!w.dev.isCourse || w.dev.clock.everLocked) = true := by
    rw [begins_isCourse b, begins_clock b]
    cases c : s.dev.isCourse with
    | false => rfl
    | true => exact locked c
  have missing : (List.range 16).any x.schedMissing = false := by
    rw [List.any_eq_false]
    intro h hh
    rw [present h (List.mem_range.1 hh)]
    decide
  have images : (w.scheduled.all fun h => bitAt w.dev.images.loaded h) = true := by
    rw [begins_loaded b, List.all_eq_true]
    exact loaded
  have ready : (w.scheduled.all x.schedAccepted && !(List.range 16).any x.schedMissing) = true := by
    rw [missing, Bool.not_false, Bool.and_true, List.all_eq_true]
    exact accepted
  rw [cmdRunStart]
  dsimp only
  rw [need_pos (by rw [begins_sys b, plain]; rfl), need_pos course, need_pos images, readsCtxs_goes reads, need_pos ready,
    need_pos committed, need_pos (by rw [trips]; rfl), need_pos (by rw [free]; rfl), W.ok]

theorem dozeEnter_done (b : Begins s 0x0104 p w) (pends : s.dev.stoker.pends = []) (txn : s.dev.stoker.txn = none)
    (grants : s.dev.stoker.grants = []) (changes : s.dev.power.changes.rows = []) :
    cmdDozeEnter p w = .fin (w.upd fun d => { d with sys := { d.sys with dozeArmed := true } }) sDone [] := by
  have idle : (w.dev.stoker.pends.all (fun q => q.src == srcKey p && q.seq == p.seq) && w.dev.stoker.txn.isNone &&
      w.dev.stoker.grants.isEmpty && w.dev.power.changes.rows.isEmpty) = true := by
    have pends' : w.dev.stoker.pends = [] := by rw [begins_stoker b]; exact pends
    have grants' : w.dev.stoker.grants = [] := by rw [begins_stoker b]; exact grants
    rw [pends', begins_txn b, txn, grants', begins_power b, changes]
    rfl
  rw [cmdDozeEnter, need_pos idle, W.ok]

theorem lockoutReset_done (b : Begins s 0x0703 p w) (asked : s.dev.sys.opReset = true) (sound : s.dev.sys.opStuck = false) :
    let v := (w.upd fun d => { d with
        sys := { d.sys with lockoutRec := false },
        images := { d.images with flash := { d.images.flash with lockout := false } },
        flue := { d.flue with window := [], localWin := ⟨[]⟩ } })
    cmdLockoutReset p w = .fin ((v.each v.latchedIdle fun h v => v.releaseHold h).setMode .prepare) sDone [] := by
  have low : w.dev.sys.opLow = true := by rw [Sys.opLow, begins_sys b, asked, sound]; rfl
  rw [cmdLockoutReset, need_pos low, W.ok]
  rfl

theorem timeStep_done (b : Begins s 0x0111 p w) {off : Word64} (ho : off = w64 ((pw p 0).toNat + 2 ^ 32 * (pw p 1).toNat))
    (mode : w.stepMode = true) (base : s.dev.isCourse = false) (courses : w.courseHolds = false)
    (low : 0 ≤ (s.dev.clock.tb.toNat : Int) + off.toInt) (high : (s.dev.clock.tb.toNat : Int) + off.toInt < 2 ^ 64) :
    cmdTimeStep p w = .fin (if off = 0 then w else w.step off) sDone [] := by
  rw [cmdTimeStep, ← ho, need_pos mode, need_pos (by rw [begins_isCourse b, base, courses]; rfl),
    need_pos (decide_eq_true (by rw [begins_clock b]; exact ⟨low, high⟩))]
  split <;> rfl

theorem modeCommands : Says.ModeCommands := by
  intro s p w d ok
  have done {opc : Nat} {body : Body} {v : W} {res : List Byte} (ho : opc < 65536) (hn : opc ≠ 0x0A41)
    (hb : Begins s opc p w → body p w = .fin v sDone res) := command_done (s := s) (w := w) (p := p) ho hn hb
  exact ⟨done (by decide) (by decide) fun _ => rfl,
    fun plain locked loaded x reads accepted present committed trips free => done (by decide) (by decide) fun b =>
      runStart_done b plain locked loaded reads accepted present committed trips free,
    done (by decide) (by decide) fun _ => rfl,
    fun pends txn grants changes => done (by decide) (by decide) fun b => dozeEnter_done b pends txn grants changes,
    fun granted => done (by decide) (by decide) fun _ => need_pos granted,
    done (by decide) (by decide) fun _ => rfl,
    fun asked sound => done (by decide) (by decide) fun b => lockoutReset_done b asked sound,
    fun off ho mode base courses low high => done (by decide) (by decide) fun b => timeStep_done b ho mode base courses low high⟩

/-! The configuration transaction. -/

theorem eraseDups_of_nodup {l : List Nat} (distinct : l.Nodup) : l.eraseDups = l := by
  induction l with
  | nil => rfl
  | cons a l ih =>
    rw [List.nodup_cons] at distinct
    have others : l.filter (fun b => !b == a) = l := by
      rw [List.filter_eq_self]
      intro b hb
      have : b ≠ a := fun e => distinct.1 (e ▸ hb)
      simp [this]
    rw [List.eraseDups_cons, others, ih distinct.2]

/-- The registers, the fuses and the position are the same. -/
def SameRegs (w v : W) : Prop := v.dev.regs = w.dev.regs ∧ v.fuse = w.fuse ∧ v.dev.chim = w.dev.chim

theorem sameRegs_refl (w : W) : SameRegs w w := ⟨rfl, rfl, rfl⟩

theorem SameRegs.trans {u : W} (h : SameRegs w v) (g : SameRegs v u) : SameRegs w u := by
  obtain ⟨regs, fuse, chim⟩ := h
  obtain ⟨regs', fuse', chim'⟩ := g
  exact ⟨regs'.trans regs, fuse'.trans fuse, chim'.trans chim⟩

theorem sameRegs_each {α : Type} {f : α → W → W} (h : ∀ a v, SameRegs v (f a v)) (l : List α) (w : W) : SameRegs w (w.each l f) := by
  induction l generalizing w with
  | nil => exact sameRegs_refl w
  | cons a l ih => exact (h a w).trans (ih (f a w))

theorem sameRegs_markStandby (r l : Nat) (w : W) : SameRegs w (w.markStandby r l) := by
  refine sameRegs_each (fun h v => ?_) _ w
  dsimp only
  split
  · exact sameRegs_refl v
  · exact ⟨rfl, rfl, rfl⟩

theorem sameRegs_markLevels : SameRegs w (w.markLevels t) := by
  rw [W.markLevels]
  dsimp only
  split
  · exact sameRegs_refl w
  · refine sameRegs_each (fun r v => ?_) _ w
    split
    · exact sameRegs_markStandby _ _ v
    · exact sameRegs_refl v

theorem claimedReg_congr (fuse : v.fuse = w.fuse) (chim : v.dev.chim = w.dev.chim) (a : Nat) : v.claimedReg t a = w.claimedReg t a := by
  simp only [W.claimedReg, regRow_congr fuse chim]

/-- The mark of the standby banks leaves the values that the transaction records. -/
theorem activeOf_markLevels : (w.markLevels t).activeOf t = w.activeOf t := by
  obtain ⟨regs, fuse, chim⟩ := sameRegs_markLevels (w := w) (t := t)
  simp only [W.activeOf, regs, claimedReg_congr fuse chim]

theorem ownTxn_own {k : Txn → Res} (b : Begins s opc p w) (stands : s.dev.stoker.txn = some t) (own : t.src = srcKey p) :
    w.ownTxn p k = k t := by
  rw [W.ownTxn, begins_txn b, stands]
  exact if_pos own

theorem configBegin_done (b : Begins s 0x0201 p w) (free : s.dev.stoker.txn = none)
    (blocks : ∀ e ∈ pwords p 0, w.hasBlock (entryBlock e).1 (entryBlock e).2 = true)
    (distinct : ((pwords p 0).map fun e => blockBase (entryBlock e).1 (entryBlock e).2).Nodup)
    (settled : ∀ a ∈ (pwords p 0).map (fun e => blockBase (entryBlock e).1 (entryBlock e).2),
      (s.dev.commit a).dirty = false ∧ (s.dev.commit a).state ≠ .busy) :
    cmdConfigBegin p w = .fin (w.upd fun d => { d with stoker := { d.stoker with
      txn := some { src := srcKey p, blocks := (pwords p 0).map fun e => blockBase (entryBlock e).1 (entryBlock e).2 } } }) sDone [] := by
  have all : ((pwords p 0).all (fun v => w.hasBlock (entryBlock v).1 (entryBlock v).2)) = true := List.all_eq_true.2 blocks
  have none : ((pwords p 0).find? fun v =>
      let c := w.dev.commit (blockBase (entryBlock v).1 (entryBlock v).2)
      c.dirty || c.state == CommitState.busy) = none := by
    rw [List.find?_eq_none]
    intro e he
    obtain ⟨clean, idle⟩ := settled _ (List.mem_map_of_mem he)
    dsimp only
    rw [begins_commit b, clean, Bool.false_or, beq_iff_eq]
    exact idle
  rw [cmdConfigBegin]
  dsimp only
  rw [need_pos (by rw [begins_txn b, free]; rfl), eraseDups_of_nodup distinct, all, need_pos (by rw [beq_self_eq_true]; rfl), none]
  rfl

theorem configWrite_done (b : Begins s 0x0202 p w) (stands : s.dev.stoker.txn = some t) (own : t.src = srcKey p)
    (good : ∀ e ∈ writeEntries (pwords p 0), fld e.2.1 16 16 = 0 ∧ (w.claimedReg t (entryAddr e)).isSome = true ∧ loopOnly e = false) :
    cmdConfigWrite p w = .fin (w.each (writeEntries (pwords p 0)) fun e v => match v.claimedReg t (entryAddr e) with
      | some (typ, inst, o, _) => v.setStaged typ inst o e.2.2
      | none => v) sDone [] := by
  have all : ((writeEntries (pwords p 0)).all fun e => fld e.2.1 16 16 == 0 && (w.claimedReg t (entryAddr e)).isSome && !loopOnly e) = true := by
    rw [List.all_eq_true]
    intro e he
    obtain ⟨zero, claimed, loop⟩ := good e he
    rw [zero, claimed, loop]
    rfl
  rw [cmdConfigWrite, ownTxn_own b stands own]
  dsimp only
  rw [need_pos all, W.ok] <;> rfl

theorem configCommit_reads (b : Begins s 0x0203 p w) (stands : s.dev.stoker.txn = some t) (own : t.src = srcKey p)
    (reads : ReadsCtxs w (w.txnCtxs t) x) : cmdConfigCommit p w =
      match x.txnBad t with
      | a :: as => .fin x sConflict (le 4 (as.foldl min a))
      | [] =>
        let x0 := x.markLevels t
        let w1 := x0.setTxn (some { t with committing := true, saved := x0.activeOf t })
        let w2 := w1.each t.commits fun b w => w.commitGo (blockOf b).1 (blockOf b).2
        match (w2.each t.commits fun b w => w.commitPoint (blockOf b).1 (blockOf b).2).txnStep with
        | (some st, w) => .fin w st []
        | (none, w) => .pend w 0 := by
  rw [cmdConfigCommit, ownTxn_own b stands own, readsCtxs_goes reads]
  dsimp only
  rw [activeOf_markLevels] <;> rfl

theorem transactionCommands : Says.TransactionCommands := by
  intro s p w ends
  have done {opc : Nat} {body : Body} {v : W} {st : Nat} {res : List Byte} (ho : opc < 65536) (hn : opc ≠ 0x0A41)
    (hb : Begins s opc p w → body p w = .fin v st res) := command_ended (s := s) (w := w) (p := p) ho hn hb
  refine ⟨fun free blocks distinct settled => done (by decide) (by decide) fun b => configBegin_done b free blocks distinct settled,
    fun t stands own => ⟨fun good => done (by decide) (by decide) fun b => configWrite_done b stands own good,
      fun x a as reads bad => done (by decide) (by decide) fun b => ?_, fun x reads good => ⟨fun st v step => ?_,
        fun v step room => ?_⟩, done (by decide) (by decide) fun b => ownTxn_own b stands own⟩⟩
  · rw [configCommit_reads b stands own reads, bad]
    rfl
  · refine done (by decide) (by decide) fun b => ?_
    rw [configCommit_reads b stands own reads, good]
    dsimp only
    rw [step]
  · refine command_pending (by decide) (by decide) room fun b => ?_
    rw [configCommit_reads b stands own reads, good]
    dsimp only
    rw [step]

/-- Settles O56: the commands that change the mode, and the configuration transaction. -/
theorem modeAndTransactionCommands : Obligations.ModeAndTransactionCommands := ⟨modeCommands, transactionCommands⟩

end Sys2Proof.Proofs
end

section
/-! O57: the commands of lanes, cores, hearths, basting, loops and schedules. -/

namespace Sys2Proof.Proofs

open Machine Laws

set_option Elab.async false

variable {s : State} {opc : Nat} {p : Packet} {w v x y : W} {h n i : Nat}

theorem begins_blw (b : Begins s opc p w) (h : Nat) : w.dev.blw h = s.dev.blw h := by rw [(begins_dev s opc p w b).1]; rfl

/-- The fields of a word that fits. -/
theorem fld_low (v : Word32) : fld v 0 4 = v.toNat % 16 := by rw [fld_eq]; omega

theorem fld_second {v : Word32} (small : v.toNat < 256) : fld v 4 4 = v.toNat / 16 := by rw [fld_eq]; omega

theorem laneFence_pends (small : (pw p 0).toNat < 256) (free : w.fenceCheck ((pw p 0).toNat % 16) ((pw p 0).toNat / 16) = none)
    (spare : w.lastTmr ((pw p 0).toNat % 16) ((pw p 0).toNat / 16) = false) :
    cmdLaneFence p w = .pend w (laneKey ((pw p 0).toNat % 16) ((pw p 0).toNat / 16) +
        256 * (match w.seat ((pw p 0).toNat % 16) ((pw p 0).toNat / 16) with | some (k, _) => k + 1 | none => 0))
      fun v => v.fence ((pw p 0).toNat % 16) ((pw p 0).toNat / 16) 6 := by
  rw [cmdLaneFence, fld_low, fld_second small]
  dsimp only
  rw [need_pos (decide_eq_true small), free]
  dsimp only
  rw [need_pos (by rw [spare]; rfl)] <;> rfl

theorem laneRetest_pends (small : (pw p 0).toNat < 256) (lane : (pw p 0).toNat / 16 < 13)
    (fenced : (w.laneAt ((pw p 0).toNat % 16) ((pw p 0).toNat / 16)).st = .fenced ∨
      (w.laneAt ((pw p 0).toNat % 16) ((pw p 0).toNat / 16)).st = .failed) :
    cmdLaneRetest p w = .pend w (laneKey ((pw p 0).toNat % 16) ((pw p 0).toNat / 16))
      fun v => v.retest ((pw p 0).toNat % 16) ((pw p 0).toNat / 16) := by
  have state : ((w.laneAt ((pw p 0).toNat % 16) ((pw p 0).toNat / 16)).st == .fenced ||
      (w.laneAt ((pw p 0).toNat % 16) ((pw p 0).toNat / 16)).st == .failed) = true := by
    rcases fenced with st | st <;> rw [st] <;> rfl
  rw [cmdLaneRetest, fld_low, fld_second small, need_pos (by rw [decide_eq_true small, decide_eq_true lane, state]; rfl)]

theorem laneCommands : Says.LaneCommands := by
  intro s p w room d n h l pend
  have pends {opc : Nat} {body : Body} {v : W} {key : Nat} {go : W → W} (ho : opc < 65536) (hn : opc ≠ 0x0A41)
    (hb : Begins s opc p w → body p w = .pend v key go) := command_pending (s := s) (w := w) (p := p) ho hn room hb
  refine ⟨fun small free spare => pends (by decide) (by decide) fun _ => laneFence_pends small free spare,
    fun small lane fenced => pends (by decide) (by decide) fun _ => laneRetest_pends small lane fenced,
    fun small halted => pends (by decide) (by decide) fun b => ?_,
    fun small may => pends (by decide) (by decide) fun _ => ?_,
    fun small on due => pends (by decide) (by decide) fun _ => ?_,
    fun granted cycle => pends (by decide) (by decide) fun _ => ?_⟩
  · exact need_pos (by rw [begins_seam b, halted, decide_eq_true small]; rfl)
  · exact (need_pos (decide_eq_true small)).trans (need_pos may)
  · rw [cmdBasteNow, need_pos (by rw [on, decide_eq_true (Nat.lt_succ_iff.1 small)]; rfl)]
    cases turn : w.turn (pw p 0).toNat with
    | defer => exact absurd turn due
    | _ => rfl
  · refine (need_pos granted).trans (need_pos ?_)
    rw [Bool.or_eq_true, beq_iff_eq, beq_iff_eq]
    exact cycle

end Sys2Proof.Proofs
end

section
/-! O57: the loop and schedule commands. -/

namespace Sys2Proof.Proofs

open Machine Laws

set_option Elab.async false

variable {s : State} {opc : Nat} {p : Packet} {w v x y : W} {h n i : Nat}

/-- The checks of a loop command that writes registers of its hearth. -/
theorem loopPre_write {bits : Nat} {k : Res} (b : Begins s opc p w) (small : (pw p 0).toNat < 2 ^ bits)
    (there : bitAt s.dev.sys.avail ((pw p 0).toNat % 16) = true)
    (free : w.claimed 16 ((pw p 0).toNat % 16) = false ∧ (s.dev.commit (blockBase 16 ((pw p 0).toNat % 16))).dirty = false) :
    w.loopPre p bits true k = k := by
  rw [W.loopPre, loopH_eq, need_pos (decide_eq_true small), need_pos (by rw [begins_avail b, there]), need_pos (by rw [free.1]; rfl),
    need_pos (by rw [begins_commit b, free.2]; rfl)]

theorem loopPre_free {bits : Nat} {k : Res} (b : Begins s opc p w) (small : (pw p 0).toNat < 2 ^ bits)
    (there : bitAt s.dev.sys.avail ((pw p 0).toNat % 16) = true) : w.loopPre p bits false k = k :=
  loopPre_read small (by rw [loopH_eq, begins_avail b, there])

theorem loopC_mod (p : Packet) : loopC p = (pw p 0).toNat / 16 % 256 := by rw [loopC, fld_eq]; omega

theorem or_not_of {a b : Bool} (h : a = true ∨ b = false) : (a || !b) = true := by
  rcases h with rfl | rfl
  · rfl
  · exact Bool.or_true a

/-- LOOP_LOAD: the context, its safe output values and its output groups. -/
theorem loopLoad_done (b : Begins s 0x0401 p w) (small : (pw p 0).toNat < 2 ^ 12)
    (there : bitAt s.dev.sys.avail ((pw p 0).toNat % 16) = true)
    (free : w.claimed 16 ((pw p 0).toNat % 16) = false ∧ (s.dev.commit (blockBase 16 ((pw p 0).toNat % 16))).dirty = false)
    (hh : h = (pw p 0).toNat % 16) (hi : i = (pw p 0).toNat / 16 % 256) (lax : w.lax = true ∨ w.placed h i = false)
    {c : Ctx} (hc : c = Ctx.ofBytes ((pktBody p).drop 4)) (form : c.formOk = true) (ext : ReadsExt w h c x) (rules : x.ctxRules h c = true)
    (reads : ReadsCtxs x (x.ctxOffs h ((x.dev.blw h).loaded.filter (· != i))) y)
    (apart : ∀ j ∈ (y.dev.blw h).loaded, j ≠ i → c.clash (y.ctxAt h j) = false) :
    let w1 := y.hobWrites h 6 (hobBase h + (y.ctxBase h + 256 * i)) (((pktBody p).drop 4).take 192 ++ List.replicate 8 0 ++ ((pktBody p).drop 4).drop 200)
    let w2 := w1.each (w1.safeImage h c) fun x v => v.hobWrites h 6 (hobBase h + x.1) (le 4 x.2)
    let w3 := w2.each ((c.outWords.map (· / 8)).eraseDups) fun k v => v.setOutGroup h k c.group
    cmdLoopLoad p w = .fin (w3.upd fun d => d.onBlw h fun x => { x with
        loaded := i :: x.loaded.filter (· != i), faulted := x.faulted.filter (· != i), resume := x.resume.filter (· != i) }) sDone [] := by
  have none : (((y.dev.blw h).loaded.filter (· != i)).all fun j => !(c.clash (y.ctxAt h j))) = true := by
    rw [List.all_eq_true]
    intro j hj
    rw [List.mem_filter, bne_iff_ne] at hj
    rw [apart j hj.1 hj.2]
    rfl
  rw [cmdLoopLoad, loopPre_write b small there free, loopH_eq, loopC_mod, ← hh, ← hi]
  dsimp only
  rw [← hc, need_pos (or_not_of lax), need_pos form, readsExt_goes ext, need_pos rules, readsCtxs_goes reads, need_pos none]
  rfl

theorem fld_param {v : Word32} (small : v.toNat < 2 ^ 20) : fld v 12 8 = v.toNat / 2 ^ 12 := by rw [fld_eq]; omega

theorem fld_mode {v : Word32} (small : v.toNat < 2 ^ 14) : fld v 12 2 = v.toNat / 2 ^ 12 := by rw [fld_eq]; omega

theorem readHob_data {off n : Nat} {bs : List Byte} {k : List Byte → W → Res}
    (reads : w.hobReadSel w.stokerRid h (hobBase h + off) n = (.data bs, v)) : w.readHob h off n k = k bs v := by
  rw [W.readHob, reads]

/-- LOOP_PARAM: the new bytes enter the parameter buffer with the safe output values that they change. -/
theorem loopParam_pends (b : Begins s 0x0402 p w) (small : (pw p 0).toNat < 2 ^ 20)
    (there : bitAt s.dev.sys.avail ((pw p 0).toNat % 16) = true) (hh : h = (pw p 0).toNat % 16) (hi : i = (pw p 0).toNat / 16 % 256)
    {off : Nat} (ho : off = (pw p 0).toNat / 2 ^ 12) {vs old bytes : List Byte} (hv : vs = (pktBody p).drop 4)
    (old_is : w.hobReadSel w.stokerRid h (hobBase h + (w.ctxBase h + 256 * i)) 256 = (.data old, v))
    (bytes_are : bytes = old.take off ++ vs ++ old.drop (off + vs.length)) {safe : List (Nat × Nat)}
    (safe_is : safe = (v.safeImage h (Ctx.ofBytes bytes)).filter fun x => !(v.safeImage h (Ctx.ofBytes old)).contains x)
    (low : 0x18 ≤ off) (aligned : off % 4 = 0) (high : off + vs.length ≤ 0xC0)
    (dims : (Ctx.ofBytes bytes).dims = (Ctx.ofBytes old).dims) (ext : (Ctx.ofBytes bytes).extLen = (Ctx.ofBytes old).extLen)
    (reads : ReadsExt v h (Ctx.ofBytes bytes) y) (rules : y.ctxRules h (Ctx.ofBytes bytes) = true)
    (few : ((List.range 8).filter fun k => slice old (32 * k) 32 != slice bytes (32 * k) 32).length +
      ((safe.map fun x => x.1 / 32).eraseDups).length ≤ 8) :
    cmdLoopParam p w = .pend y h fun v =>
      v.addParams h i (cellsOf (w.ctxBase h + 256 * i + off) vs ++ safe.flatMap fun x => cellsOf x.1 (le 4 x.2)) := by
  have same : ((Ctx.ofBytes bytes).dims == (Ctx.ofBytes old).dims && (Ctx.ofBytes bytes).extLen == (Ctx.ofBytes old).extLen) = true := by
    rw [dims, ext, beq_self_eq_true, beq_self_eq_true]
    rfl
  rw [cmdLoopParam, loopPre_free b small there, loopH_eq, loopC_mod, ← hh, ← hi, fld_param small, ← ho, ← hv]
  dsimp only
  rw [readHob_data old_is, ← bytes_are, ← safe_is, need_pos (decide_eq_true ⟨low, aligned, high⟩), need_pos same, readsExt_goes reads,
    need_pos rules, need_pos (decide_eq_true few)]

/-- A pending reply leaves the registers. -/
theorem sameRegs_replied (p : Packet) (opc : Half) (status key : Nat) (v : W) :
    SameRegs v ((v.reply p opc status false []).addPend p opc true key) := by
  have delivered (k : Nat) (r : Reply) : SameRegs v (v.deliver k r) := by
    refine ⟨?_, rfl, ?_⟩ <;> rw [W.deliver, upd_dev] <;> dsimp only <;> split
    · rfl
    · split <;> rfl
    · rfl
    · split <;> rfl
  exact ((delivered _ _).trans ⟨rfl, rfl, rfl⟩).trans ⟨rfl, rfl, rfl⟩

theorem regReset_same (same : SameRegs w v) (typ off : Nat) : v.regReset typ off = w.regReset typ off := by
  obtain ⟨-, fuse, chim⟩ := same
  rw [W.regReset, W.regReset, regRow_congr fuse chim]

theorem reg_same (same : SameRegs w v) (typ inst off : Nat) : v.reg typ inst off = w.reg typ inst off := by
  rw [W.reg, W.reg, regReset_same same, same.1]

theorem ctxBase_same (same : SameRegs w v) (h : Nat) : v.ctxBase h = w.ctxBase h := by
  rw [W.ctxBase, W.ctxBase, W.hreg, W.hreg, reg_same same]

/-- LOOP_MODE: the word of the mode enters the parameter buffer. -/
theorem loopMode_pends (b : Begins s 0x0403 p w) (small : (pw p 0).toNat < 2 ^ 14)
    (there : bitAt s.dev.sys.avail ((pw p 0).toNat % 16) = true) (hh : h = (pw p 0).toNat % 16) (hi : i = (pw p 0).toNat / 16 % 256)
    (mode : (pw p 0).toNat / 2 ^ 12 ≠ 3) {hd : List Byte}
    (head : w.hobReadSel w.stokerRid h (hobBase h + (w.ctxBase h + 256 * i)) 32 = (.data hd, v))
    (kernel : (Ctx.ofBytes hd).kernel = 1) (valid : (pw p 0).toNat / 2 ^ 12 = 2 → dValid ((Ctx.ofBytes hd).inp 3) = true) :
    cmdLoopMode p w = .pend v h fun x => x.addParams h i
      (cellsOf (x.ctxBase h + 256 * i) (le 4 (setFld (w32 ((Ctx.ofBytes hd).h 0)) 16 2 ((pw p 0).toNat / 2 ^ 12)).toNat)) := by
  have good : ((pw p 0).toNat / 2 ^ 12 != 3 && (Ctx.ofBytes hd).kernel == 1 &&
      ((pw p 0).toNat / 2 ^ 12 != 2 || dValid ((Ctx.ofBytes hd).inp 3))) = true := by
    rw [kernel, bne_iff_ne.2 mode]
    by_cases two : (pw p 0).toNat / 2 ^ 12 = 2
    · rw [valid two, Bool.or_true]
      rfl
    · rw [bne_iff_ne.2 two]
      rfl
  rw [cmdLoopMode, loopPre_free b small there, loopH_eq, loopC_mod, ← hh, ← hi, fld_mode small]
  dsimp only
  rw [readHob_data head, need_pos good]

/-- What pends starts from a reply that leaves the registers: its work may name them as they were. -/
theorem pends_congr {t : State} {key : Nat} {go go' : W → W}
    (same : ∀ v : W, SameRegs w v → go v = go' v) (h : Pends s t opc p w key go) : Pends s t opc p w key go' := by
  rw [Pends] at h ⊢
  rw [h, same _ (sameRegs_replied _ _ _ _ _)]

theorem loopResume_pends (b : Begins s 0x0404 p w) (small : (pw p 0).toNat < 2 ^ 12)
    (there : bitAt s.dev.sys.avail ((pw p 0).toNat % 16) = true) (hh : h = (pw p 0).toNat % 16) (hi : i = (pw p 0).toNat / 16 % 256)
    (faulted : i ∈ (s.dev.blw h).faulted) :
    cmdLoopResume p w = .pend w (256 * h + i) fun v => v.ctxResume h (w32 (i + 256)) := by
  rw [cmdLoopResume, loopPre_free b small there, loopH_eq, loopC_mod, ← hh, ← hi]
  dsimp only
  rw [need_pos (by rw [begins_blw b, List.contains_iff_mem]; exact faulted)]

/-- The register writes of LOOP_IMAGE_BIND. -/
def bindRegs (w : W) (h c role : Nat) (stamp : Bool) (p : Packet) : List (Nat × Word32) :=
  [(0x30C, setBit (w.hreg h 0x30C) c (role == 1)), (0x310, setBit (w.hreg h 0x310) c (role == 2)),
    (0x314, setBit (w.hreg h 0x314) c (role != 0 && stamp)), (0x400 + 16 * c, pw p 1), (0x404 + 16 * c, pw p 2),
    (0x408 + 16 * c, pw p 3)]

theorem bindFields {v : Word32} : fld v 4 4 = v.toNat / 16 % 16 ∧ fld v 8 2 = v.toNat / 256 % 4 := by
  rw [fld_eq, fld_eq]
  omega

theorem or_of {a b : Bool} (h : a = false → b = true) : (a || b) = true := by
  cases a with
  | false => exact h rfl
  | true => rfl

theorem loopImageBind_done {c role first count a last : Nat} {stamp : Bool} (b : Begins s 0x0406 p w)
    (small : (pw p 0).toNat < 2 ^ 11) (there : bitAt s.dev.sys.avail ((pw p 0).toNat % 16) = true)
    (free : w.claimed 16 ((pw p 0).toNat % 16) = false ∧ (s.dev.commit (blockBase 16 ((pw p 0).toNat % 16))).dirty = false)
    (hh : h = (pw p 0).toNat % 16) (hc : c = (pw p 0).toNat / 16 % 16) (hrole : role = (pw p 0).toNat / 256 % 4)
    (hstamp : stamp = bitAt (pw p 0) 10) (hfirst : first = fld (pw p 3) 0 12) (hcount : count = fld (pw p 3) 12 13)
    (ha : a = (pw p 1).toNat + 2 ^ 32 * (pw p 2).toNat) (hlast : last = a + (if fixedAddr a then 4 else 4 * count) - 1)
    (hx : x = w.applied ⟨(bindRegs w h c role stamp p).foldl (fun l r => insertRow (blockBase 16 h + r.1) r.2 l) []⟩)
    (known : role ≠ 3) (high : (pw p 2).toNat < 2 ^ 16) (window : (pw p 3).toNat < 2 ^ 25) (aligned : a % 4 = 0)
    (none : role = 0 → a = 0 ∧ pw p 3 = 0)
    (some : role ≠ 0 → count ≠ 0 ∧ first + count + stamp.toNat ≤ 4096 ∧ x.chanAdmitted h c = true)
    (reads : ReadsCtxs w (if role = 2 then w.ctxOffs h (s.dev.blw h).loaded else []) y)
    (apart : role = 1 → ∀ k, k < 16 → k ≠ c →
        overlaps (x.inWindow h c).1 (x.inWindow h c).2 (x.inWindow h k).1 (x.inWindow h k).2 = false)
    (written : role = 2 → ∀ j, j < count → first + j ∈ y.writtenWords h) (mapped : role ≠ 0 → y.mapped a = true ∧ y.mapped last = true)
    (lax : y.lax = true ∨ (bitAt (y.hreg h 0x30C) c = false ∧ bitAt (y.hreg h 0x310) c = false)) :
    cmdLoopImageBind p w =
      .fin (((y.each (bindRegs w h c role stamp p) fun r v => v.setStaged 16 h r.1 r.2).commitGo 16 h).commitPoint 16 h) sDone [] := by
  have c1 : (role != 3 && decide ((pw p 2).toNat < 2 ^ 16 ∧ (pw p 3).toNat < 2 ^ 25 ∧ a % 4 = 0)) = true := by
    rw [bne_iff_ne.2 known, decide_eq_true ⟨high, window, aligned⟩]
    rfl
  have c2 : (role != 0 || (a == 0 && (pw p 3) == 0)) = true := or_of fun zero => by
    rw [(none (bne_eq_false_iff_eq.1 zero)).1, (none (bne_eq_false_iff_eq.1 zero)).2]
    rfl
  have bound (z : (role == 0) = false) : role ≠ 0 := by rwa [beq_eq_false_iff_ne] at z
  have c3 : (role == 0 || count != 0) = true := or_of fun z => bne_iff_ne.2 (some (bound z)).1
  have c4 : (role == 0 || decide (first + count + stamp.toNat ≤ 4096)) = true := or_of fun z => decide_eq_true (some (bound z)).2.1
  have c5 : (role != 1 || (List.range 16).all fun d =>
      d == c || !overlaps (x.inWindow h c).1 (x.inWindow h c).2 (x.inWindow h d).1 (x.inWindow h d).2) = true := or_of fun one => by
    rw [List.all_eq_true]
    intro d hd
    refine or_of fun other => ?_
    rw [apart (bne_eq_false_iff_eq.1 one) d (List.mem_range.1 hd) (beq_eq_false_iff_ne.1 other)]
    rfl
  have c6 : (role != 2 || (List.range count).all fun j => (y.writtenWords h).contains (first + j)) = true := or_of fun two => by
    rw [List.all_eq_true]
    intro j hj
    rw [List.contains_iff_mem]
    exact written (bne_eq_false_iff_eq.1 two) j (List.mem_range.1 hj)
  have c7 : (role == 0 || (y.mapped a && y.mapped last && x.chanAdmitted h c)) = true := or_of fun z => by
    rw [(mapped (bound z)).1, (mapped (bound z)).2, (some (bound z)).2.2]
    rfl
  have c8 : (y.lax || !(bitAt (y.hreg h 0x30C) c || bitAt (y.hreg h 0x310) c)) = true := by
    rcases lax with lax | ⟨inp, out⟩
    · rw [lax]; rfl
    · rw [inp, out]; exact Bool.or_true _
  rw [← begins_blw b] at reads
  subst hh hc hrole hstamp hfirst hcount ha hlast hx
  rw [cmdLoopImageBind, loopPre_write b small there free, loopH_eq, bindFields.1, bindFields.2]
  refine (need_pos c1).trans <| (need_pos c2).trans <| (need_pos c3).trans <| (need_pos c4).trans <| (need_pos c5).trans <|
    (readsCtxs_goes reads _).trans <| (need_pos c6).trans <| (need_pos c7).trans <| (need_pos c8).trans rfl

theorem loopExtWrite_done (b : Begins s 0x0407 p w) (small : (pw p 0).toNat < 16) (there : bitAt s.dev.sys.avail ((pw p 0).toNat % 16) = true)
    (hh : h = (pw p 0).toNat % 16) {off : Nat} {bs : List Byte} (ho : off = (pw p 1).toNat) (hb : bs = (pktBody p).drop 8)
    (aligned : off % 4 = 0) (within : off + bs.length ≤ 0x400000) (areas : w.inAreas h off bs.length = false)
    (reads : ReadsCtxs w (if w.lax then [] else w.planCtxs h (bitAt (w.hreg h 0x600) 0)) y)
    (apart : y.lax = true ∨ ∀ k, k < 256 → (y.placed h k && overlaps off bs.length (y.ctxAt h k).extOff (32 * (y.ctxAt h k).extLen)) = false) :
    cmdLoopExtWrite p w = .fin (y.hobWrites h 6 (hobBase h + off) bs) sDone [] := by
  have c1 : (decide (off % 4 = 0 ∧ off + bs.length ≤ 0x400000) && !w.inAreas h off bs.length) = true := by
    rw [decide_eq_true ⟨aligned, within⟩, areas]
    rfl
  have c2 : (y.lax || (List.range 256).all fun i =>
      !(y.placed h i && overlaps off bs.length (y.ctxAt h i).extOff (32 * (y.ctxAt h i).extLen))) = true := by
    rcases apart with lax | apart
    · rw [lax]; rfl
    · refine or_of fun _ => ?_
      rw [List.all_eq_true]
      intro k hk
      rw [apart k (List.mem_range.1 hk)]
      rfl
  subst hh ho hb
  rw [cmdLoopExtWrite, loopPre_free b small there, loopH_eq]
  refine (need_pos c1).trans <| (readsCtxs_goes reads _).trans <| (need_pos c2).trans rfl

theorem loopInject_pends (b : Begins s 0x040A p w) (small : (pw p 0).toNat < 2 ^ 14)
    (there : bitAt s.dev.sys.avail ((pw p 0).toNat % 16) = true)
    (free : w.claimed 16 ((pw p 0).toNat % 16) = false ∧ (s.dev.commit (blockBase 16 ((pw p 0).toNat % 16))).dirty = false)
    (granted : (w.grantOn 0 16 (some ((pw p 0).toNat % 16))).isSome = true)
    (kind : (pw p 0).toNat / 2 ^ 12 = 1 ∨ (pw p 0).toNat / 2 ^ 12 = 2) :
    cmdLoopInject p w = .pend w (256 * ((pw p 0).toNat % 16) + (pw p 0).toNat / 16 % 256) fun v =>
      v.blwInject ((pw p 0).toNat % 16) (w32 ((pw p 0).toNat / 16 % 256 + 256 * ((pw p 0).toNat / 2 ^ 12))) := by
  have known : ((pw p 0).toNat / 2 ^ 12 == 1 || (pw p 0).toNat / 2 ^ 12 == 2) = true := by
    rcases kind with one | two
    · rw [one]; rfl
    · rw [two]; rfl
  have code : at_ ((pw p 0).toNat / 2 ^ 12) 8 = 256 * ((pw p 0).toNat / 2 ^ 12) := at_eq _ 8
  rw [cmdLoopInject, loopPre_write b small there free, loopH_eq, loopC_mod, fld_mode small, need_pos granted, need_pos known, code]

/-- The schedule that SCHED_LOAD carries. -/
def planOf (p : Packet) : Plan :=
  { entries := pwords p 3, slack := fld (pw p 1) 0 16, idleK := fld (pw p 2) 0 4, idleP := fld (pw p 2) 4 15, reserve := fld (pw p 1) 16 16 }

/-- SCHED_LOAD: a plan that fits takes the inactive bank, another is an overrun with the same result. -/
theorem schedLoad_ends (b : Begins s 0x0410 p w) (small : (pw p 0).toNat < 16) (there : bitAt s.dev.sys.avail (pw p 0).toNat = true)
    (clear : fld (pw p 2) 19 13 = 0) (reserve : (planOf p).reserve ≤ 2400) (idle : (planOf p).idleP < 2 ^ (planOf p).idleK)
    (forms : ∀ e ∈ (planOf p).entries, entryForm e = true) (distinct : ((planOf p).entries.map entryCtx).Nodup)
    (apart : ∀ e ∈ (planOf p).entries, (planOf p).conflicts e = false)
    (reads : ReadsCtxs w (w.ctxOffs (pw p 0).toNat ((planOf p).entries.map entryCtx)) y)
    (agree : ∀ e ∈ (planOf p).entries, y.entryOk (pw p 0).toNat e = true) :
    cmdSchedLoad p w =
      if (y.planAt (pw p 0).toNat (planOf p) (y.checkLevel (pw p 0).toNat)).fits && y.slackOk (pw p 0).toNat (planOf p) then
        (y.putPlan (pw p 0).toNat (!y.activeBank (pw p 0).toNat) (planOf p)).ok
          (y.planResult (pw p 0).toNat (planOf p) (y.checkLevel (pw p 0).toNat))
      else .fin y sScheduleOverrun (y.planResult (pw p 0).toNat (planOf p) (y.checkLevel (pw p 0).toNat)) := by
  have c1 : (fld (pw p 2) 19 13 == 0 && decide ((planOf p).reserve ≤ 2400 ∧ (planOf p).idleP < 2 ^ (planOf p).idleK) &&
      (planOf p).entries.all entryForm &&
      ((planOf p).entries.map entryCtx).eraseDups.length == ((planOf p).entries.map entryCtx).length) = true := by
    rw [clear, decide_eq_true ⟨reserve, idle⟩, List.all_eq_true.2 forms, eraseDups_of_nodup distinct, beq_self_eq_true, beq_self_eq_true]
    rfl
  have c3 : (!(planOf p).entries.any (planOf p).conflicts) = true := by
    rw [Bool.not_eq_true', List.any_eq_false]
    intro e he
    rw [apart e he]
    decide
  rw [cmdSchedLoad, schedPre_there b small there]
  exact (need_pos c1).trans <| (readsCtxs_goes reads _).trans <| (need_pos (List.all_eq_true.2 agree)).trans (need_pos c3)

/-- The bank that SCHED_SWAP makes active, with the mark of its check. -/
def swapTo (n : Nat) (bank : Bool) (v : W) : W :=
  (v.setReg 16 n 0x600 (w32 bank.toNat)).upd fun d =>
    d.onBlw n fun x => { x with banks := x.banks.set bank.toNat { (x.banks.getD bank.toNat {}) with unchecked := false } }

theorem schedSwap_ends {bank : Bool} (b : Begins s 0x0411 p w) (small : (pw p 0).toNat < 16)
    (there : bitAt s.dev.sys.avail (pw p 0).toNat = true) (hbank : bank = !w.activeBank (pw p 0).toNat)
    (stands : ((s.dev.blw (pw p 0).toNat).banks.getD bank.toNat {}).loaded = true ∨ (w.plan (pw p 0).toNat bank).entries ≠ [])
    (reads : ReadsCtxs w (w.planCtxs (pw p 0).toNat bank) y)
    (passes : y.planPasses (pw p 0).toNat (w.plan (pw p 0).toNat bank) (y.checkLevel (pw p 0).toNat) = true) :
    cmdSchedSwap p w =
      if y.lax = true ∧ (y.dev.blw (pw p 0).toNat).phase = .stopped then ((swapTo (pw p 0).toNat bank y).takeBank (pw p 0).toNat).ok
      else .pend y (pw p 0).toNat (swapTo (pw p 0).toNat bank) := by
  have c1 : (((w.dev.blw (pw p 0).toNat).banks.getD bank.toNat {}).loaded || !(w.plan (pw p 0).toNat bank).entries.isEmpty) = true := by
    rw [begins_blw b]
    rcases stands with loaded | filled
    · rw [loaded]; rfl
    · rw [List.isEmpty_eq_false_iff.2 filled]; exact Bool.or_true _
  subst hbank
  rw [cmdSchedSwap, schedPre_there b small there]
  exact (need_pos c1).trans <| (readsCtxs_goes reads _).trans (need_pos passes)

theorem loopAndScheduleCommands : Says.LoopAndScheduleCommands := by
  intro s p w room d v0 n h i b free there ok pend
  have done {opc : Nat} {body : Body} {v : W} {res : List Byte} (ho : opc < 65536) (hn : opc ≠ 0x0A41)
    (hb : Begins s opc p w → body p w = .fin v sDone res) := command_done (s := s) (w := w) (p := p) ho hn hb
  have pends {opc : Nat} {body : Body} {v : W} {key : Nat} {go : W → W} (ho : opc < 65536) (hn : opc ≠ 0x0A41)
    (hb : Begins s opc p w → body p w = .pend v key go) := command_pending (s := s) (w := w) (p := p) ho hn room hb
  have hearth (small : n < 16) (on : there) : bitAt s.dev.sys.avail n = true :=
    (congrArg (fun k => bitAt s.dev.sys.avail k) (Nat.mod_eq_of_lt small)).symm.trans on
  refine ⟨fun small on unclaimed lax form x ext rules y reads apart => done (by decide) (by decide) fun b =>
      loopLoad_done b small on unclaimed rfl rfl lax rfl form ext rules reads apart,
    fun small on old v old_is low aligned high dims ext y reads rules few => pends (by decide) (by decide) fun b =>
      loopParam_pends b small on rfl rfl rfl rfl old_is rfl rfl low aligned high dims ext reads rules few,
    fun small on mode hd v head kernel valid => ?_,
    fun small on faulted => pends (by decide) (by decide) fun b => loopResume_pends b small on rfl rfl faulted,
    fun small on unclaimed known high window aligned none some y reads apart written mapped lax => done (by decide) (by decide) fun b =>
      loopImageBind_done b small on unclaimed rfl rfl rfl rfl rfl rfl rfl rfl rfl known high window aligned none some reads apart
        written mapped lax,
    fun small on aligned within areas y reads apart => done (by decide) (by decide) fun b =>
      loopExtWrite_done b small on rfl rfl rfl aligned within areas reads apart,
    fun small on unclaimed => done (by decide) (by decide) fun b => ?_,
    fun small on unclaimed granted kind => pends (by decide) (by decide) fun b => loopInject_pends b small on unclaimed granted kind,
    fun small on clear reserve idle forms distinct apart y reads agree => ?_,
    fun small on stands y reads passes => ?_⟩
  · intro begun
    obtain ⟨t, runs, ends⟩ := pends (by decide) (by decide) (fun b => loopMode_pends b small on rfl rfl mode head kernel valid) begun
    exact ⟨t, runs, pends_congr (fun u same => by rw [ctxBase_same same]) ends⟩
  · rw [cmdBellowsCountClear, loopPre_write b small on unclaimed, loopH_eq]
    rfl
  · have ends (b : Begins s 0x0410 p w) := schedLoad_ends b small (hearth small on) clear reserve idle forms distinct apart reads agree
    dsimp only
    split
    · next fits => exact done (by decide) (by decide) fun b => (ends b).trans (if_pos fits)
    · next exceeds => exact command_ended (by decide) (by decide) fun b => (ends b).trans (if_neg exceeds)
  · have ends (b : Begins s 0x0411 p w) := schedSwap_ends b small (hearth small on) rfl stands reads passes
    dsimp only
    split
    · next now => exact done (by decide) (by decide) fun b => (ends b).trans (if_pos now)
    · next later => exact pends (by decide) (by decide) fun b => (ends b).trans (if_neg later)

/-- Settles O57: the commands of lanes, cores, hearths and basting, and of loops and schedules. -/
theorem laneAndLoopCommands : Obligations.LaneAndLoopCommands := ⟨laneCommands, loopAndScheduleCommands⟩

end Sys2Proof.Proofs
end

section
/-! O10: the commands of memory, hobs, firewalls and queues. -/

namespace Sys2Proof.Proofs

open Machine Laws

set_option Elab.async false

variable {s : State} {opc : Nat} {p : Packet} {w v x y : W} {n : Nat}

theorem begins_dramBytes (b : Begins s opc p w) : w.dev.dramBytes = s.dev.dramBytes := by rw [(begins_dev s opc p w b).1]; rfl
theorem begins_dramMap (b : Begins s opc p w) (a : Nat) : w.dev.dramMap a = s.dev.dramMap a := by rw [(begins_dev s opc p w b).1]; rfl
theorem begins_jobs (b : Begins s opc p w) : w.dev.images.jobs = s.dev.images.jobs := by rw [begins_images b]
theorem begins_jobNext (b : Begins s opc p w) : w.dev.images.jobNext = s.dev.images.jobNext := by rw [begins_images b]

theorem scrubEngine_pends {fill : Option Word32} (range : w.dramRange (p48 p 0) (p48 p 2) = true) (some : p48 p 2 ≠ 0) :
    w.scrubEngine p fill = .pend w 0 fun v => v.upd fun d => { d with dram := { d.dram with
      job := .some { start := p48 p 0, len := p48 p 2, fill := fill, since := d.clock.tb } } } := by
  rw [W.scrubEngine, need_pos range, need_pos (bne_iff_ne.2 some)]

theorem scrubEngine_empty {fill : Option Word32} (range : w.dramRange (p48 p 0) (p48 p 2) = true) (none : p48 p 2 = 0) :
    w.scrubEngine p fill = .fin w 2 [] := by
  rw [W.scrubEngine, need_pos range, none]
  rfl

/-- MEM_RETIRE, where the retire map takes the page: the repair record holds it too. -/
theorem memRetire_done (b : Begins s 0x0504 p w) (small : (pw p 0).toNat < 2 ^ 23) (usable : (pw p 0).toNat * 4096 < s.dev.dramBytes)
    (room : (pw p 0).toNat ∈ s.dev.images.flash.rcd.pages ∨ s.dev.images.flash.rcd.pages.length < 1024)
    (taken : (w.retire (pw p 0).toNat true).1 = true) :
    cmdMemRetire p w = .fin ((w.retire (pw p 0).toNat true).2.upd fun d => { d with images := { d.images with flash := { d.images.flash with
      rcd := { s.dev.images.flash.rcd with pages := if s.dev.images.flash.rcd.pages.contains (pw p 0).toNat then s.dev.images.flash.rcd.pages
        else s.dev.images.flash.rcd.pages ++ [(pw p 0).toNat] } } } }).scrubCheck sDone [] := by
  have c1 : (s.dev.images.flash.rcd.pages.contains (pw p 0).toNat || decide (s.dev.images.flash.rcd.pages.length < 1024)) = true := by
    rw [Bool.or_eq_true, List.contains_iff_mem, decide_eq_true_iff]
    exact room
  rw [cmdMemRetire, begins_dramBytes b, begins_flash b, need_pos (decide_eq_true ⟨small, usable⟩), need_pos c1]
  rcases retired : w.retire (pw p 0).toNat true with ⟨took, u⟩
  rw [retired] at taken
  cases took with
  | true => rfl
  | false => cases taken

theorem memLine_pos {k : Nat → Res} (range : w.dramRange (p48 p 0) 64 = true) : w.memLine p k = k (p48 p 0) := by
  rw [W.memLine, need_pos range]

theorem memRepairAdd_pends (b : Begins s 0x0506 p w) (range : w.dramRange (p48 p 0) 64 = true)
    (room : s.dev.images.flash.rcd.rows.length + (s.dev.images.jobs.filter FlashJob.addsRow).length < 64) :
    cmdMemRepairAdd p w = .pend (w.upd fun d => { d with images := { d.images with jobNext := d.images.jobNext + 1 } }) s.dev.images.jobNext
      fun v => v.addJob { dev := 0, op := .record (some (w.rowOf (p48 p 0))) none, key := s.dev.images.jobNext } := by
  rw [← begins_flash b, ← begins_jobs b] at room
  rw [cmdMemRepairAdd, memLine_pos range, ← begins_jobNext b]
  exact need_pos (decide_eq_true room)

theorem memInject_pends (b : Begins s 0x0508 p w) (range : w.dramRange (p48 p 0) 64 = true) {m : Nat}
    (hm : m = (s.dev.dramMap (p48 p 0 - dramBase)).1) (granted : (w.grantOn 0 10 (some m)).isSome = true) (low : bitAt (pw p 2) 7 = false)
    (high : bitAt (pw p 2) 23 = false) :
    cmdMemInject p w = .pend w m fun v => (((v.setReg 10 m 0x50 (w32 (p48 p 0 % 2 ^ 32))).setReg 10 m 0x54 (w32 (p48 p 0 / 2 ^ 32))).setReg
       10 m 0x58 (pw p 2)).setReg 10 m 0x4C (if fld (pw p 2) 24 8 = 0 then 1 else 3) := by
  have ctl : w32 (1 + 2 * (decide (fld (pw p 2) 24 8 ≠ 0)).toNat) = if fld (pw p 2) 24 8 = 0 then 1 else 3 := by
    by_cases none : fld (pw p 2) 24 8 = 0
    · rw [none]; rfl
    · rw [if_neg none, decide_eq_true none]; rfl
  rw [cmdMemInject, memLine_pos range, begins_dramMap b]
  dsimp only
  rw [← hm, need_pos granted, need_pos (by rw [low, high]; rfl), ctl]

theorem memConfig_done (small : (pw p 0).toNat < 4) (least : 1 ≤ (pw p 1).toNat) (most : (pw p 1).toNat ≤ 24) :
    cmdMemConfig p w = .fin (w.upd fun d => { d with images := { d.images with flash := { d.images.flash with
        rcd := { d.images.flash.rcd with rate := BitVec.ofNat 2 (pw p 0).toNat, scrubLimit := BitVec.ofNat 16 (pw p 1).toNat,
                                         memSet := true } } } }).scrubCheck sDone [] := by
  rw [cmdMemConfig, need_pos (decide_eq_true ⟨small, least, most⟩), W.ok]

theorem queueSet_done (b : Begins s 0x0601 p w) {es : List (Word32 × QCfg)} (he : es = queueEntries (pwords p 0)) (hx : x = w.each es fun e v => v.setQCfg e)
    (forms : ∀ e ∈ es, queueEntryOk e = true) (distinct : (es.map entryQ).Nodup)
    (idle : ∀ e ∈ es, e.2.mode = (s.dev.queue (entryQ e)).cfg.mode ∨ w.queueBusy (entryQ e) = false) (room : x.dev.bobbin.rsv ≤ 65536)
    (caps : ∀ e ∈ es, (s.dev.queue (entryQ e)).occ ≤ e.2.cap ∧ e.2.tryCells ≤ e.2.cap ∧ w.safetyBad w (entryQ e) e.2 = false) :
    cmdQueueSet p w = .fin x.poolCheck sDone [] := by
  have c1 : (es.all queueEntryOk && decide ((es.map entryQ).eraseDups.length = (es.map entryQ).length)) = true := by
    rw [List.all_eq_true.2 forms, decide_eq_true (by rw [eraseDups_of_nodup distinct])]
    rfl
  have c2 : (es.all fun e => !(e.2.mode != (w.dev.queue (entryQ e)).cfg.mode && w.queueBusy (entryQ e))) = true := by
    rw [List.all_eq_true]
    intro e he
    rw [begins_queue b]
    rcases idle e he with same | free
    · rw [same, bne_self_eq_false, Bool.false_and]
      rfl
    · rw [free, Bool.and_false]
      rfl
  have c3 : (es.all fun e => decide ((w.dev.queue (entryQ e)).occ ≤ e.2.cap ∧ e.2.tryCells ≤ e.2.cap) && !w.safetyBad w (entryQ e) e.2) = true := by
    rw [List.all_eq_true]
    intro e he
    obtain ⟨occ, try', safe⟩ := caps e he
    rw [begins_queue b, decide_eq_true ⟨occ, try'⟩, safe]
    rfl
  subst hx he
  exact (need_pos c1).trans <| (need_pos c2).trans <| (need_pos (decide_eq_true room)).trans (need_pos c3)

theorem queueFlush_done (b : Begins s 0x0603 p w) (small : (pw p 0).toNat < 4096) (other : (pw p 0).toNat ≠ w.evq)
    (some : (w.flushQueue (pw p 0).toNat).1 ≠ 0 ∨ (s.dev.queue (pw p 0).toNat).broken = true) :
    cmdQueueFlush p w = .fin (w.flushQueue (pw p 0).toNat).2.brokenCheck.poolCheck sDone (le 4 (w.flushQueue (pw p 0).toNat).1) := by
  have c1 : ((w.flushQueue (pw p 0).toNat).1 != 0 || (w.dev.queue (pw p 0).toNat).broken) = true := by
    rw [begins_queue b, Bool.or_eq_true, bne_iff_ne]
    exact some
  rw [cmdQueueFlush, W.queuePre, need_pos (decide_eq_true small), need_pos (bne_iff_ne.2 other)]
  exact need_pos c1

theorem queueBind_done (clear : fld (pw p 0) 22 9 = 0) : cmdQueueBind p w =
    .fin (w.setReg 8 0 (0x100 + 64 * fld (pw p 0) 0 6 + 4 * fld (pw p 0) 6 4)
      (w32 (fld (pw p 0) 10 12 + 2 ^ 31 * (bitAt (pw p 0) 31).toNat))) sDone [] := by
  rw [← at_eq]
  exact need_pos (by rw [clear]; rfl)

/-- Settles O10: each command's meaning is the operation that it names, once its checks pass. -/
theorem memoryAndQueueCommands : Obligations.MemoryAndQueueCommands := by
  intro s p w pending d v0 n a len rcd ok pend job take key
  have done {opc : Nat} {body : Body} {v : W} {res : List Byte} (ho : opc < 65536) (hn : opc ≠ 0x0A41)
    (hb : Begins s opc p w → body p w = .fin v sDone res) := command_done (s := s) (w := w) (p := p) ho hn hb
  have pends {opc : Nat} {body : Body} {v : W} {key : Nat} {go : W → W} (ho : opc < 65536) (hn : opc ≠ 0x0A41)
    (hb : Begins s opc p w → body p w = .pend v key go) := command_pending (s := s) (w := w) (p := p) ho hn pending hb
  refine ⟨fun range some => ⟨pends (by decide) (by decide) fun _ => scrubEngine_pends range some,
      pends (by decide) (by decide) fun _ => scrubEngine_pends range some⟩,
    fun range none => command_ended (by decide) (by decide) fun _ => scrubEngine_empty range none,
    fun small usable held taken => done (by decide) (by decide) fun b => ?_,
    fun small usable fresh room taken => done (by decide) (by decide) fun b => ?_,
    fun range room => pends (by decide) (by decide) fun b => memRepairAdd_pends b range room,
    fun range granted low high => pends (by decide) (by decide) fun b => memInject_pends b range rfl granted low high,
    fun small least most => done (by decide) (by decide) fun _ => memConfig_done small least most,
    fun small => done (by decide) (by decide) fun _ => need_pos (decide_eq_true small),
    fun small may => done (by decide) (by decide) fun _ => need_pos (by rw [may, decide_eq_true small]; rfl),
    fun forms distinct idle room caps => done (by decide) (by decide) fun b => queueSet_done b rfl rfl forms distinct idle room caps,
    fun small other some => done (by decide) (by decide) fun b => queueFlush_done b small other some,
    fun clear => done (by decide) (by decide) fun _ => queueBind_done clear⟩
  · rw [memRetire_done b small usable (.inl held) taken, if_pos (List.contains_iff_mem.2 held)]
  · rw [memRetire_done b small usable (.inr room) taken, if_neg (by rw [List.contains_iff_mem]; exact fresh)]

end Sys2Proof.Proofs
end

section
/-! O11: the commands of the Flue and of the power controller. -/

namespace Sys2Proof.Proofs

open Machine Laws

set_option Elab.async false

variable {s : State} {opc : Nat} {p : Packet} {w v x y : W} {n : Nat}

theorem begins_mode (b : Begins s opc p w) : w.dev.sys.mode = s.dev.sys.mode := by rw [begins_sys b]
theorem begins_dom (b : Begins s opc p w) (k : Nat) : w.dev.dom k = s.dev.dom k := by rw [Dev.dom, begins_power b, Dev.dom]
theorem begins_now (b : Begins s opc p w) : w.dev.now = s.dev.now := by rw [Dev.now, Dev.now, begins_clock b]

/-! ERRPIN_RELEASE. -/

theorem errpin_mode (b : Begins s opc p w) (mode : s.dev.sys.mode ≠ .lockout) : (w.dev.sys.mode != .lockout) = true := by
  rw [begins_mode b]
  exact bne_iff_ne.2 mode

theorem errpinRelease_idle (b : Begins s 0x0704 p w) (mode : s.dev.sys.mode ≠ .lockout) (pin : s.dev.flue.errPin = false) :
    cmdErrpinRelease p w = .fin w sDone [1, 0, 0, 0] := by
  rw [← begins_flue b] at pin
  rw [cmdErrpinRelease, need_pos (errpin_mode b mode), if_pos pin]
  rfl

theorem errpinRelease_active (b : Begins s 0x0704 p w) (mode : s.dev.sys.mode ≠ .lockout) (pin : s.dev.flue.errPin = true)
    (quiet : w.errSource = false) : cmdErrpinRelease p w =
      if w.errEnd ≤ s.dev.now then .fin w.errRelease sDone [1, 0, 0, 0]
      else .pend w 0 fun x => x.upd fun d => { d with flue := { d.flue with errRel := true } } := by
  rw [← begins_flue b] at pin
  rw [cmdErrpinRelease, need_pos (errpin_mode b mode), if_neg (by rw [pin]; decide), need_pos (by rw [quiet]; rfl), begins_now b]
  rfl

/-! FLUE_RELEASE. -/

/-- The hold that FLUE_RELEASE names. -/
def heldBy (f : Flue) (v : Word32) : Option Hold := if bitAt v 4 then f.holds.get? (v.toNat % 16) else none

/-- The groups that FLUE_RELEASE names and that are selected. -/
def namedSels (f : Flue) (v : Word32) : List Nat :=
  ((bitsOf 16 (fld v 16 16)).map (16 * (v.toNat % 16) + ·)).filter fun k => (f.sels.get? k).isSome

/-- The sources of the hold and of the groups. -/
def namedSrcs (f : Flue) (v : Word32) : List Nat :=
  (match heldBy f v with | some x => x.srcs | none => []) ++ (namedSels f v).flatMap fun k => (f.sels.getD k {}).srcs

theorem flueRelease_done (b : Begins s 0x0705 p w) (clear : fld (pw p 0) 5 11 = 0)
    (named : (heldBy s.dev.flue (pw p 0)).isSome = true ∨ namedSels s.dev.flue (pw p 0) ≠ [])
    (idle : w.anyActive (namedSrcs s.dev.flue (pw p 0)) = false)
    (low : ∀ x, heldBy s.dev.flue (pw p 0) = some x → x.latched = false ∨ s.dev.sys.opLow = true) :
    cmdFlueRelease p w = .fin ((if (heldBy s.dev.flue (pw p 0)).isSome then w.releaseHold ((pw p 0).toNat % 16) else w).each
      (namedSels s.dev.flue (pw p 0)) fun k x => x.releaseSel k) sDone [] := by
  rw [← begins_sys b] at low
  rw [← begins_flue b] at named idle low ⊢
  have c1 : (fld (pw p 0) 5 11 == 0 && ((heldBy w.dev.flue (pw p 0)).isSome || !(namedSels w.dev.flue (pw p 0)).isEmpty)) = true := by
    rw [clear, beq_self_eq_true, Bool.true_and]
    rcases named with held | sels
    · rw [held]; rfl
    · rw [List.isEmpty_eq_false_iff.2 sels]; exact Bool.or_true _
  have c2 : (!w.anyActive (namedSrcs w.dev.flue (pw p 0)) &&
      (!(match heldBy w.dev.flue (pw p 0) with | some x => x.latched | none => false) || w.dev.sys.opLow)) = true := by
    rw [idle]
    cases held : heldBy w.dev.flue (pw p 0) with
    | none => rfl
    | some x =>
      rcases low x held with unlatched | asked
      · simp only [unlatched]; rfl
      · simp only [asked]; exact Bool.or_true _
  rw [cmdFlueRelease, fld_low]
  exact (need_pos c1).trans (need_pos c2)

theorem flueTest_done (small : (pw p 0).toNat < 1024) (source : (w.source (pw p 0).toNat).isSome = true) :
    cmdFlueTest p w = .fin (w.raise (pw p 0).toNat 0 0 true) sDone [] := by
  rw [cmdFlueTest, source, decide_eq_true small]
  rfl

/-! PWR_LEVEL. -/

theorem levelFields {v : Word32} (small : v.toNat < 128) : fld v 0 2 = v.toNat % 4 ∧ fld v 4 3 = v.toNat / 16 := by
  rw [fld_eq, fld_eq]
  omega

theorem pwrLevel_checked {r l : Nat} (b : Begins s 0x0902 p w) (hr : r = (pw p 0).toNat % 4) (hl : l = (pw p 0).toNat / 16)
    (small : (pw p 0).toNat < 128) (rail : r ≠ 3) (level : l ≠ 7) (uncore : r = 2 → 3 ≤ l ∧ l ≤ 5) (bit2 : bitAt (pw p 0) 2 = false)
    (bit3 : bitAt (pw p 0) 3 = false) (allowed : w.levelOk r (s.dev.power.bound r) l = true)
    (reads : ReadsCtxs w (if r ≠ 2 ∧ l < s.dev.power.bound r then w.railCtxs r else []) y)
    (fits : r = 2 ∨ s.dev.power.bound r ≤ l ∨ y.mayLower r l = true) :
    cmdPwrLevel p w = if s.dev.power.level r = l ∧ s.dev.power.transit r = false then .fin y sDone (le 4 l)
      else .pend (if r ≠ 2 ∧ l < s.dev.power.bound r then y.markStandby r l else y) r fun x => x.targetLevel r l := by
  have c1 : (decide ((pw p 0).toNat < 128 ∧ r ≠ 3 ∧ l ≠ 7 ∧ (r ≠ 2 ∨ (3 ≤ l ∧ l ≤ 5))) && !bitAt (pw p 0) 2 && !bitAt (pw p 0) 3) = true := by
    have bounds : r ≠ 2 ∨ (3 ≤ l ∧ l ≤ 5) := by
      by_cases two : r = 2
      · exact .inr (uncore two)
      · exact .inl two
    rw [decide_eq_true ⟨small, rail, level, bounds⟩, bit2, bit3]
    rfl
  have c2 : (r == 2 || decide (s.dev.power.bound r ≤ l) || y.mayLower r l) = true := by
    rw [Bool.or_eq_true, Bool.or_eq_true, beq_iff_eq, decide_eq_true_iff, or_assoc]
    exact fits
  rw [← begins_power b] at allowed reads c2 ⊢
  subst hr hl
  rw [cmdPwrLevel, (levelFields small).1, (levelFields small).2]
  exact (need_pos c1).trans <| (need_pos allowed).trans <| (readsCtxs_goes reads _).trans (need_pos c2)

/-! PWR_VOTE and PAD_RELEASE. -/

theorem domPre_pos {bits : Nat} {k : Nat → Res} (small : (pw p 0).toNat < 2 ^ bits) (domain : (pw p 0).toNat % 256 < 244) :
    w.domPre p bits k = k ((pw p 0).toNat % 256) := by
  have low : fld (pw p 0) 0 8 = (pw p 0).toNat % 256 := by rw [fld_eq]; omega
  rw [W.domPre, low, need_pos (decide_eq_true ⟨small, domain⟩)]

theorem hasDomain_common (w : W) (small : n < 241) : w.hasDomain n = true := by
  rw [W.hasDomain, decide_eq_true_iff]
  split <;> omega

theorem dom_onDom_self (d : Dev) (k : Nat) (f : Domain → Domain) : (d.onDom k f).dom k = f (d.dom k) := by
  rw [Dev.dom, Dev.onDom, getD_set_self]

theorem pwrVote_common (b : Begins s 0x0903 p w) (small : (pw p 0).toNat < 512) (domain : (pw p 0).toNat % 256 < 241) :
    cmdPwrVote p w = .fin (w.upd fun d => d.onDom ((pw p 0).toNat % 256) fun y =>
      { y with votes := setBit y.votes 1 (bitAt (pw p 0) 8), waits := y.waits && !bitAt (pw p 0) 8 }) sDone
        (le 4 (s.dev.dom ((pw p 0).toNat % 256)).st.code) := by
  have voted : w.vote w.stokerRid ((pw p 0).toNat % 256) (bitAt (pw p 0) 8) = w.upd fun d => d.onDom ((pw p 0).toNat % 256) fun y =>
      { y with votes := setBit y.votes 1 (bitAt (pw p 0) 8), waits := y.waits && !bitAt (pw p 0) 8 } := by
    rw [W.vote, if_neg (by rw [hasDomain_common w domain]; decide), if_neg (by omega)]
    simp only [if_true]
  rw [cmdPwrVote, domPre_pos (bits := 9) small (by omega)]
  dsimp only
  rw [if_neg (by rw [hasDomain_common w domain]; decide), if_neg (by omega), voted, upd_dev, dom_onDom_self, begins_dom b, W.ok]

theorem pwrVote_absent (small : (pw p 0).toNat < 512) (domain : (pw p 0).toNat % 256 < 244)
    (absent : w.hasDomain ((pw p 0).toNat % 256) = false) : cmdPwrVote p w = .fin w sDone (le 4 0) := by
  rw [cmdPwrVote, domPre_pos (bits := 9) small domain]
  dsimp only
  rw [if_pos absent, W.ok]

theorem pwrVote_locked (small : (pw p 0).toNat < 512) (domain : (pw p 0).toNat % 256 < 244) (high : 241 ≤ (pw p 0).toNat % 256)
    (there : w.hasDomain ((pw p 0).toNat % 256) = true) :
    cmdPwrVote p w = .fin ((w.upd fun d => d.onDom ((pw p 0).toNat % 256) fun y => { y with refused := satInc y.refused }).domRefuse
      ((pw p 0).toNat % 256) w.stokerRid 4) 0x202 [] := by
  rw [cmdPwrVote, domPre_pos (bits := 9) small domain]
  dsimp only
  rw [if_neg (by rw [there]; decide), if_pos high, W.vote, if_neg (by rw [there]; decide), if_pos high]
  rfl

theorem padRelease_done (b : Begins s 0x0904 p w) (known : (pw p 0).toNat < 244 ∨ (pw p 0).toNat = 0xFF)
    (on : (pw p 0).toNat = 0xFF ∨ (s.dev.dom (pw p 0).toNat).padHold = false ∨ (s.dev.dom (pw p 0).toNat).st = .on)
    (some : w.heldPads (pw p 0).toNat ≠ []) :
    cmdPadRelease p w = .fin (w.each (w.heldPads (pw p 0).toNat) fun k x =>
      x.upd fun d => d.onDom k fun y => { y with padHold := false }) sDone [] := by
  have c2 : ((pw p 0).toNat == 0xFF || !(w.dev.dom (pw p 0).toNat).padHold || (w.dev.dom (pw p 0).toNat).st == .on) = true := by
    rw [begins_dom b, Bool.or_eq_true, Bool.or_eq_true, beq_iff_eq, Bool.not_eq_true', beq_iff_eq, or_assoc]
    exact on
  rw [cmdPadRelease]
  exact (need_pos (decide_eq_true known)).trans <| (need_pos c2).trans <| need_pos (by rw [List.isEmpty_eq_false_iff.2 some]; rfl)

/-- Settles O11: each command's meaning is the operation that it names, once its checks pass. -/
theorem flueAndPowerCommands : Obligations.FlueAndPowerCommands := by
  intro s p w pending d v n ok pend
  have done {opc : Nat} {body : Body} {v : W} {res : List Byte} (ho : opc < 65536) (hn : opc ≠ 0x0A41)
    (hb : Begins s opc p w → body p w = .fin v sDone res) := command_done (s := s) (w := w) (p := p) ho hn hb
  have pends {opc : Nat} {body : Body} {v : W} {key : Nat} {go : W → W} (ho : opc < 65536) (hn : opc ≠ 0x0A41)
    (hb : Begins s opc p w → body p w = .pend v key go) := command_pending (s := s) (w := w) (p := p) ho hn pending hb
  exact ⟨fun mode pin => done (by decide) (by decide) fun b => errpinRelease_idle b mode pin,
    fun mode pin quiet past => done (by decide) (by decide) fun b => (errpinRelease_active b mode pin quiet).trans (if_pos past),
    fun mode pin quiet future => pends (by decide) (by decide) fun b =>
      (errpinRelease_active b mode pin quiet).trans (if_neg (Nat.not_le.2 future)),
    fun clear named idle low => done (by decide) (by decide) fun b => flueRelease_done b clear named idle low,
    fun small source => done (by decide) (by decide) fun _ => flueTest_done small source,
    fun small rail level uncore bit2 bit3 allowed y reads fits =>
      ⟨fun same still => done (by decide) (by decide) fun b =>
        (pwrLevel_checked b rfl rfl small rail level uncore bit2 bit3 allowed reads fits).trans (if_pos ⟨same, still⟩),
      fun moves => pends (by decide) (by decide) fun b =>
        (pwrLevel_checked b rfl rfl small rail level uncore bit2 bit3 allowed reads fits).trans (if_neg fun ⟨same, still⟩ =>
          moves.elim (fun other => other same) fun moving => Bool.false_ne_true (still.symm.trans moving))⟩,
    fun small domain => ⟨fun common => done (by decide) (by decide) fun b => pwrVote_common b small common,
      fun absent => done (by decide) (by decide) fun _ => pwrVote_absent small domain absent,
      fun high there => command_ended (by decide) (by decide) fun _ => pwrVote_locked small domain high there⟩,
    fun known on some => done (by decide) (by decide) fun b => padRelease_done b known on some,
    done (by decide) (by decide) fun _ => rfl⟩

end Sys2Proof.Proofs
end

section
/-! O12: the image, cutover, Thimble and chimney commands. -/

namespace Sys2Proof.Proofs

open Machine Laws

set_option Elab.async false

variable {s : State} {opc : Nat} {p : Packet} {w v x y : W} {n : Nat}

theorem begins_st (b : Begins s opc p w) : w.dev.images.st = s.dev.images.st := by rw [begins_images b]
theorem begins_stageLen (b : Begins s opc p w) : w.dev.images.stageLen = s.dev.images.stageLen := by rw [begins_images b]
theorem begins_areas (b : Begins s opc p w) : w.dev.images.areas = s.dev.images.areas := by rw [begins_images b]
theorem begins_cut (b : Begins s opc p w) : w.dev.images.cut = s.dev.images.cut := by rw [begins_images b]
theorem begins_running (b : Begins s opc p w) : w.dev.images.running = s.dev.images.running := by rw [begins_images b]
theorem begins_stage (b : Begins s opc p w) : w.dev.images.stage = s.dev.images.stage := by rw [begins_images b]

/-- A number below a power of 2 has no bit from there on. -/
theorem land_high {n k m : Nat} (small : n < 2 ^ k) : Nat.land n (2 ^ k * m) = 0 := by
  apply Nat.eq_of_testBit_eq
  intro i
  change (n &&& 2 ^ k * m).testBit i = _
  rw [Nat.testBit_and, Nat.testBit_two_pow_mul, Nat.zero_testBit]
  by_cases low : k ≤ i
  · rw [Nat.testBit_eq_false_of_lt (Nat.lt_of_lt_of_le small (Nat.pow_le_pow_right (by decide) low)), Bool.false_and]
  · rw [decide_eq_false low, Bool.false_and, Bool.and_false]

/-- The mask of a packet's one word admits a number that fits below it. -/
theorem maskedOk_low {k m : Nat} (mask : 2 ^ 32 - 1 - m = 2 ^ k * (2 ^ 32 / 2 ^ k - 1)) (small : (pw p 0).toNat < 2 ^ k) : maskedOk p [m] = true := by
  change (Nat.land (pw p 0).toNat (2 ^ 32 - 1 - m) == 0 && true) = true
  rw [mask, land_high small]
  rfl

theorem bitAt_eq (v : Word32) (i : Nat) : bitAt v i = v.toNat.testBit i := rfl

theorem bit_zero_of_small {v : Word32} (small : v.toNat < 2) : bitAt v 0 = (v.toNat == 1) := by
  rw [bitAt_eq]
  generalize v.toNat = n at small
  match n, small with
  | 0, _ => rfl
  | 1, _ => rfl

/-! The image commands. -/

theorem stageBegin_done (b : Begins s 0x0A02 p w) (size : (pw p 0).toNat ≤ 0x1000000) (idle : s.dev.images.st ≠ .armed)
    (store : s.dev.hasStore = true) : cmdStageBegin p w =
      .fin ((w.onImg fun i => { i with st := .staging, stageLen := (pw p 0).toNat, stage := {} }).areaZero
        s.dev.images.areas.2.2 (pw p 0).toNat) sDone [] := by
  rw [← begins_st b] at idle
  rw [← begins_areas b]
  exact (need_pos (by rw [begins_hasStore b, store])).trans <| (need_pos (decide_eq_true size)).trans (need_pos (bne_iff_ne.2 idle))

theorem stageChunk_done (b : Begins s 0x0A03 p w) {bs : List Byte} (hb : bs = (pktBody p).drop 4) (aligned : (pw p 0).toNat % 4 = 0) (least : 4 ≤ bs.length)
    (most : bs.length ≤ 4072) (within : (pw p 0).toNat + bs.length ≤ s.dev.images.stageLen) (idle : s.dev.images.st ≠ .armed)
    (store : s.dev.hasStore = true) : cmdStageChunk p w =
      .fin ((w.areaWrite s.dev.images.areas.2.2 (pw p 0).toNat bs).onImg fun i => { i with st := .staging, stage := {} }) sDone [] := by
  rw [← begins_st b] at idle
  rw [← begins_stageLen b] at within
  rw [← begins_areas b]
  subst hb
  exact (need_pos (by rw [begins_hasStore b, store])).trans <| (need_pos (decide_eq_true ⟨aligned, least, most, within⟩)).trans
    (need_pos (bne_iff_ne.2 idle))

theorem imageVerify_pends (b : Begins s 0x0A04 p w) (staging : s.dev.images.st = .staging) (store : s.dev.hasStore = true) :
    cmdImageVerify p w = .pend (w.onImg fun i => { i with st := .verifying }) 0 id := by
  rw [← begins_st b] at staging
  exact (need_pos (by rw [begins_hasStore b, store])).trans <| (need_pos (by rw [staging]; rfl)).trans (need_pos (by rw [staging]; rfl))

theorem imageDiscard_done (b : Begins s 0x0A05 p w) (idle : s.dev.images.st ≠ .armed) (some : s.dev.images.st ≠ .empty)
    (store : s.dev.hasStore = true) :
    cmdImageDiscard p w = .fin (w.onImg fun i => { i with st := .empty, stageLen := 0, stage := {} }) sDone [] := by
  rw [← begins_st b] at idle some
  exact (need_pos (by rw [begins_hasStore b, store])).trans <| (need_pos (bne_iff_ne.2 idle)).trans (need_pos (bne_iff_ne.2 some))

/-- The world in which the next flash operation has taken its key. -/
def takeKey (w : W) : W := w.upd fun d => { d with images := { d.images with jobNext := d.images.jobNext + 1 } }

theorem imagePersist_pends (b : Begins s 0x0A06 p w) (small : (pw p 0).toNat < 2) (staged : (pw p 0).toNat = 1 → s.dev.images.st = .verified)
    (running : (pw p 0).toNat = 0 → s.dev.images.running.head ≠ []) :
    cmdImagePersist p w = .pend ((takeKey w).addJob { dev := 1, op := .persist ((pw p 0).toNat == 1) true, key := s.dev.images.jobNext })
      s.dev.images.jobNext id := by
  rw [← begins_st b] at staged
  rw [← begins_running b] at running
  have source : (if (pw p 0).toNat == 1 then w.dev.images.st == .verified else !w.dev.images.running.head.isEmpty) = true := by
    by_cases one : (pw p 0).toNat = 1
    · rw [if_pos (beq_iff_eq.2 one), staged one]
      rfl
    · rw [if_neg (by rwa [beq_iff_eq]), List.isEmpty_eq_false_iff.2 (running (by omega))]
      rfl
  rw [← begins_jobNext b, cmdImagePersist, bit_zero_of_small small]
  exact (need_pos (maskedOk_low (k := 1) (by decide) small)).trans (need_pos source)

theorem cutover_pends (b : Begins s 0x0A08 p w) {m : BitVec 16} {fc : Nat} (hm : m = BitVec.ofNat 16 (pw p 0).toNat)
    (hf : fc = (pw p 1).toNat + 2 ^ 32 * (pw p 2).toNat) (small : (pw p 0).toNat < 65536) (free : s.dev.images.cut = none)
    (verified : s.dev.images.st = .verified) (least : s.dev.clock.frameNo.toNat + 4000 ≤ fc) (most : fc ≤ s.dev.clock.frameNo.toNat + 2 ^ 24)
    (hearths : ∀ h ∈ hearthsOf m, bitAt s.dev.sys.avail h = true ∧ bitAt s.dev.images.loaded h = true ∧
       (codeOf s.dev.images.running.head h).isSome = true ∧ (codeOf s.dev.images.stage.head h).isSome = true)
    (apart : w.cutConflict m = false) :
    cmdCutover p w = .pend ((w.onImg fun i => { i with st := .armed, cut := some { hearths := m, fc := w64 fc } }).each (hearthsOf m)
       fun h x => x.upd fun d => d.onCutStat h fun y => { y with phase := 1, passed := 0, failed := 0 }) 0 id := by
  rw [← begins_avail b, ← begins_loaded b, ← begins_running b, ← begins_stage b] at hearths
  rw [← begins_st b] at verified
  rw [← begins_cut b] at free
  rw [← begins_clock b] at least most
  have c2 : (w.dev.images.cut.isNone && (hearthsOf m).all fun h => bitAt w.dev.sys.avail h && bitAt w.dev.images.loaded h) = true := by
    rw [free, Bool.and_eq_true, List.all_eq_true]
    refine ⟨rfl, fun h hh => ?_⟩
    obtain ⟨avail, loaded, -, -⟩ := hearths h hh
    rw [avail, loaded]
    rfl
  have c4 : (decide (w.dev.clock.frameNo.toNat + 4000 ≤ fc ∧ fc ≤ w.dev.clock.frameNo.toNat + 2 ^ 24) &&
      (hearthsOf m).all fun h => (codeOf w.dev.images.running.head h).isSome && (codeOf w.dev.images.stage.head h).isSome) = true := by
    rw [decide_eq_true ⟨least, most⟩, Bool.true_and, List.all_eq_true]
    intro h hh
    obtain ⟨-, -, running, stage⟩ := hearths h hh
    rw [running, stage]
    rfl
  subst hm hf
  exact (need_pos (maskedOk_low (k := 16) (by decide) small)).trans <| (need_pos c2).trans <| (need_pos (by rw [verified]; rfl)).trans <|
    (need_pos c4).trans (need_pos (by rw [apart]; rfl))

/-! The Thimble commands. -/

theorem thmGate_pends (b : Begins s 0x0B02 p w) (clear : fld (pw p 0) 4 12 = 0) (up : s.dev.thm.up = true) :
    cmdThmGate p w = .pend (w.upd fun d => { d with thm := { d.thm with nextTag := s.dev.thm.nextTag + 1 } }) 0
       fun x => ((x.setReg 17 0 0x20 (w32 (fld (pw p 0) 0 4 + 256 * s.dev.thm.nextTag.toNat + 65536 * fld (pw p 0) 16 16))).setReg
         17 0 0x24 (pw p 1)).gateGo 1 := by
  have tag : at_ s.dev.thm.nextTag.toNat 8 = 256 * s.dev.thm.nextTag.toNat := at_eq _ 8
  have arg : at_ (fld (pw p 0) 16 16) 16 = 65536 * fld (pw p 0) 16 16 := at_eq _ 16
  rw [← tag, ← arg, ← begins_thm b]
  rw [← begins_thm b] at up
  exact (need_pos (by rw [clear]; rfl)).trans (need_pos up)

theorem forwardFields {v : Word32} {q : Nat} (hq : q = v.toNat % 4096) : fld v 0 12 = q := by rw [fld_eq]; omega

theorem thmForward_off (off : (pw p 0).toNat = (pw p 0).toNat % 4096) :
    cmdThmForward p w = .fin (w.upd fun d => { d with thm := { d.thm with fwd := none } }) sDone [] := by
  have small : (pw p 0).toNat < 4096 := by omega
  have clear : fld (pw p 0) 12 19 = 0 := by rw [fld_eq]; omega
  have bit : bitAt (pw p 0) 31 = false := Nat.testBit_eq_false_of_lt (Nat.lt_of_lt_of_le small (by decide))
  exact (need_pos (by rw [clear]; rfl)).trans (if_pos bit)

theorem thmForward_on (b : Begins s 0x0B03 p w) {q : Nat} (hq : q = (pw p 0).toNat % 4096) (named : (pw p 0).toNat = q + 2 ^ 31)
    (mode : (s.dev.queue q).cfg.mode = .packet) (floor : 512 ≤ (s.dev.queue q).cfg.floor) (tries : 9 ≤ (s.dev.queue q).cfg.tryCells)
    (other : q ≠ fld (w.reg 2 0 0x34) 0 12) :
    cmdThmForward p w = .fin ((w.upd fun d => d.onQueue q fun x => { x with cfg := { x.cfg with safety := true } }).upd
         fun d => { d with thm := { d.thm with fwd := some q } }) sDone [] := by
  have clear : fld (pw p 0) 12 19 = 0 := by rw [fld_eq]; omega
  have bit : bitAt (pw p 0) 31 = true := by
    rw [bitAt_eq, named, Nat.add_comm, Nat.testBit_two_pow_add_eq, Nat.testBit_eq_false_of_lt (by omega)]
    rfl
  rw [← begins_queue b] at mode floor tries
  rw [cmdThmForward, forwardFields hq]
  refine (need_pos (by rw [clear]; rfl)).trans <| (if_neg (by rw [bit]; decide)).trans (need_pos ?_)
  rw [mode, decide_eq_true ⟨floor, tries⟩, bne_iff_ne.2 other]
  rfl

theorem thmSlotErase_pends (b : Begins s 0x0B04 p w) (small : (pw p 0).toNat < 2) (idle : w.slotRuns ((pw p 0).toNat == 1) = false) :
    cmdThmSlotErase p w = .pend (takeKey w) s.dev.images.jobNext fun x =>
      x.addJob { dev := (pw p 0).toNat, op := .thmErase ((pw p 0).toNat == 1), key := s.dev.images.jobNext } := by
  have dev : ((pw p 0).toNat == 1).toNat = (pw p 0).toNat := by
    generalize (pw p 0).toNat = n at small
    match n, small with
    | 0, _ => rfl
    | 1, _ => rfl
  rw [cmdThmSlotErase, bit_zero_of_small small, dev, ← begins_jobNext b]
  exact (need_pos (decide_eq_true small)).trans (need_pos (by rw [idle]; rfl))

theorem thmSlotWrite_pends (b : Begins s 0x0B05 p w) (small : (pw p 0).toNat < 2) {o : Nat} {bs : List Byte} (ho : o = (pw p 1).toNat)
    (hb : bs = (pktBody p).drop 8) (aligned : o % 4 = 0) (low : o < 524288) (high : o + bs.length ≤ 524288)
    (idle : w.slotRuns ((pw p 0).toNat == 1) = false)
    (erased : ∀ j, j < bs.length → s.dev.images.flash.thm.getD ((pw p 0).toNat * 0x80000 + o + j) 0xFF = 0xFF) :
    cmdThmSlotWrite p w = .pend (takeKey w) s.dev.images.jobNext fun x =>
      x.addJob { dev := (pw p 0).toNat, op := .thmWrite ((pw p 0).toNat == 1) o bs, key := s.dev.images.jobNext } := by
  have dev : ((pw p 0).toNat == 1).toNat = (pw p 0).toNat := by
    generalize (pw p 0).toNat = n at small
    match n, small with
    | 0, _ => rfl
    | 1, _ => rfl
  have c3 : ((List.range bs.length).all fun i => w.dev.images.flash.thm.getD ((pw p 0).toNat * 0x80000 + o + i) 0xFF == 0xFF) = true := by
    rw [List.all_eq_true, begins_flash b]
    intro j hj
    rw [erased j (List.mem_range.1 hj)]
    rfl
  subst ho hb
  rw [cmdThmSlotWrite, bit_zero_of_small small, dev, ← begins_jobNext b]
  exact (need_pos (decide_eq_true ⟨small, aligned, low, high⟩)).trans <| (need_pos (by rw [idle]; rfl)).trans (need_pos c3)

/-! The chimney commands. -/

theorem chimneySet_pends (b : Begins s 0x0C02 p w) (base : s.dev.isCourse = false) (least : 1 ≤ (pw p 0).toNat) (most : (pw p 0).toNat ≤ 8) :
    cmdChimneySet p w = .pend (takeKey w) s.dev.images.jobNext fun x =>
      x.addJob { dev := 0, op := .record none (some (BitVec.ofNat 4 (pw p 0).toNat)), key := s.dev.images.jobNext } := by
  rw [← begins_jobNext b]
  exact (need_pos (decide_eq_true ⟨least, most⟩)).trans (need_pos (by rw [begins_isCourse b, base]; rfl))

theorem not_or_of {a b : Bool} (h : a = true → b = true) : (!a || b) = true := by
  cases a with
  | false => rfl
  | true => exact h rfl

theorem chimneyRetrain_pends (b : Begins s 0x0C03 p w) (small : (pw p 0).toNat < 4)
    (up : bitAt (pw p 0) 0 = true → s.dev.chim.up.st ≠ .disabled ∧ s.dev.sys.mode.running = false)
    (down : bitAt (pw p 0) 1 = true → s.dev.chim.down.st ≠ .disabled) (members : w.memberRuns (pw p 0) = false) :
    cmdChimneyRetrain p w = .pend w 0 fun x => (x.writeRetrain (pw p 0)).retrainDone := by
  rw [← begins_chim b, ← begins_mode b] at up
  rw [← begins_chim b] at down
  have c1 : (decide ((pw p 0).toNat < 4) && (!bitAt (pw p 0) 0 || w.dev.chim.up.st != .disabled) &&
      (!bitAt (pw p 0) 1 || w.dev.chim.down.st != .disabled)) = true := by
    rw [decide_eq_true small, not_or_of fun one => bne_iff_ne.2 (up one).1, not_or_of fun one => bne_iff_ne.2 (down one)]
    rfl
  have c2 : (!(w.dev.sys.mode.running && bitAt (pw p 0) 0)) = true := by
    cases one : bitAt (pw p 0) 0 with
    | false => rw [Bool.and_false]; rfl
    | true => rw [(up one).2]; rfl
  exact (need_pos c1).trans <| (need_pos c2).trans (need_pos (by rw [members]; rfl))

/-- Settles O12: each command's meaning is the operation that it names, once its checks pass. -/
theorem imageAndLinkCommands : Obligations.ImageAndLinkCommands := by
  intro s p w pending d i v n ok pend take img
  have done {opc : Nat} {body : Body} {v : W} {res : List Byte} (ho : opc < 65536) (hn : opc ≠ 0x0A41)
    (hb : Begins s opc p w → body p w = .fin v sDone res) := command_done (s := s) (w := w) (p := p) ho hn hb
  have pends {opc : Nat} {body : Body} {v : W} {key : Nat} {go : W → W} (ho : opc < 65536) (hn : opc ≠ 0x0A41)
    (hb : Begins s opc p w → body p w = .pend v key go) := command_pending (s := s) (w := w) (p := p) ho hn pending hb
  exact ⟨fun size idle store => done (by decide) (by decide) fun b => stageBegin_done b size idle store,
    fun aligned least most within idle store => done (by decide) (by decide) fun b => stageChunk_done b rfl aligned least most within idle store,
    fun staging store => pends (by decide) (by decide) fun b => imageVerify_pends b staging store,
    fun idle some store => done (by decide) (by decide) fun b => imageDiscard_done b idle some store,
    fun small staged running => pends (by decide) (by decide) fun b => imagePersist_pends b small staged running,
    fun small free verified least most hearths apart => pends (by decide) (by decide) fun b =>
      cutover_pends b rfl rfl small free verified least most hearths apart,
    fun clear up => pends (by decide) (by decide) fun b => thmGate_pends b clear up,
    ⟨fun off => done (by decide) (by decide) fun _ => thmForward_off off,
      fun named mode floor tries other => done (by decide) (by decide) fun b => thmForward_on b rfl named mode floor tries other⟩,
    fun small idle => pends (by decide) (by decide) fun b => thmSlotErase_pends b small idle,
    fun small aligned low high idle erased => pends (by decide) (by decide) fun b =>
      thmSlotWrite_pends b small rfl rfl aligned low high idle erased,
    fun base least most => pends (by decide) (by decide) fun b => chimneySet_pends b base least most,
    fun small up down members => pends (by decide) (by decide) fun b => chimneyRetrain_pends b small up down members⟩

end Sys2Proof.Proofs
end

section
/-! O13: the commands of keys, grants, tokens and sessions. -/

namespace Sys2Proof.Proofs

open Machine Laws

set_option Elab.async false

variable {s : State} {opc : Nat} {p : Packet} {w v x y : W} {n : Nat}

theorem begins_entropy (b : Begins s opc p w) : w.dev.images.entropyFail = s.dev.images.entropyFail := by rw [begins_images b]
theorem begins_fuse (b : Begins s opc p w) : w.fuse = s.fuse := (begins_dev s opc p w b).2.1
theorem begins_grants (b : Begins s opc p w) : w.dev.stoker.grants = s.dev.stoker.grants := by rw [begins_stoker b]
theorem begins_nextGrant (b : Begins s opc p w) : w.dev.stoker.nextGrant = s.dev.stoker.nextGrant := by rw [begins_stoker b]
theorem begins_xlog (b : Begins s opc p w) : w.dev.stoker.xlog = s.dev.stoker.xlog := by rw [begins_stoker b]

theorem find?_map_eq_isSome {α : Type} (q : α → Bool) (f : α → α) (same : ∀ a, q (f a) = q a) (l : List α) :
    ((l.map f).find? q).isSome = (l.find? q).isSome := by
  rw [List.find?_map, Option.isSome_map]
  congr 2
  exact funext same

/-- The packet's taking counts a command of its session, and opens and ends none. -/
theorem begins_session (b : Begins s opc p w) (k : Nat) : (w.dev.images.session k).isSome = (s.dev.images.session k).isSome := by
  obtain ⟨⟨-, -, src⟩, -⟩ := b
  have taken : (((s.world.consume p (BitVec.ofNat 16 opc)).accept p).dev.images.session k).isSome = (s.dev.images.session k).isSome := by
    rw [Images.session, Images.session, W.accept, upd_dev]
    split
    · refine (find?_map_eq_isSome _ _ (fun a => ?_) _).trans (by rw [images_onCmdSrc, consume_images]; rfl)
      split <;> rfl
    · rw [images_onCmdSrc, consume_images]
      rfl
  split at src
  · rw [src, consume_images]; rfl
  · obtain ⟨-, -, -, -, src⟩ := src
    split at src
    · rw [src.1, consume_images]; rfl
    · rw [src.2.2]; exact taken

theorem drbg_healthy {k : Res} (b : Begins s opc p w) (draws : s.dev.images.entropyFail = false) : w.drbg k = k := by
  rw [W.drbg, begins_entropy b, draws]
  rfl

theorem hasIdentity_of (b : Begins s opc p w) (cycle : w.lifecycle = 1 ∨ w.lifecycle = 2) (path : s.dev.baste.pathOff = false) : w.hasIdentity = true := by
  rw [W.hasIdentity, begins_baste b, path]
  rcases cycle with one | two
  · rw [one]; rfl
  · rw [two]; rfl

theorem attest_pends (b : Begins s 0x0A10 p w) (cycle : w.lifecycle = 1 ∨ w.lifecycle = 2) (path : s.dev.baste.pathOff = false)
    (draws : s.dev.images.entropyFail = false) : cmdAttest p w = .pend w 0 id :=
  (need_pos (hasIdentity_of b cycle path)).trans (drbg_healthy b draws)

/-! Grants. -/

/-- The grant that a form of bytes asks for. -/
def grantOf (w : W) (b : List Byte) (signed : Bool) : Grant :=
  { id := w.dev.stoker.nextGrant, typ := fld (wordAt b 0) 0 16,
    inst := if fld (wordAt b 0) 16 16 = 0xFFFF then none else some (fld (wordAt b 0) 16 16),
    till := w.dev.clock.tb + w64 ((wordAt b 4).toNat * 1000000000), rights := BitVec.ofNat 2 (wordAt b 8).toNat, signed := signed }

theorem grantOf_begins (b : Begins s opc p w) (bytes : List Byte) (signed : Bool) : grantOf w bytes signed = grantOf s.world bytes signed := by
  rw [grantOf, begins_nextGrant b, begins_clock b]
  rfl

theorem openGrant_opens {b : List Byte} {signed : Bool} (debug : fld (wordAt b 0) 0 16 = 2 → bitAt (wordAt b 8) 0 = false)
    (thimble : fld (wordAt b 0) 0 16 ≠ 17) (room : w.dev.stoker.grants.length < 8) : w.openGrant b signed =
      .fin (w.upd fun d => { d with stoker := { d.stoker with
        grants := d.stoker.grants ++ [grantOf w b signed],
        nextGrant := if (grantOf w b signed).id + 1 = 0 then 1 else (grantOf w b signed).id + 1 } }) sDone
        (le 4 (grantOf w b signed).id.toNat) := by
  have c1 : (!(fld (wordAt b 0) 0 16 == 2 && bitAt (wordAt b 8) 0) && fld (wordAt b 0) 0 16 != 17) = true := by
    rw [bne_iff_ne.2 thimble, Bool.and_true]
    by_cases two : fld (wordAt b 0) 0 16 = 2
    · rw [debug two, Bool.and_false]
      rfl
    · rw [beq_eq_false_iff_ne.2 two]
      rfl
  exact (need_pos c1).trans (need_pos (decide_eq_true room))

theorem expertGrant_unsigned (b : Begins s 0x0A20 p w) (short : (pktBody p).length ≠ 832) (cycle : w.lifecycle ≠ 2)
    (fields : w.grantFields (pktBody p) false = true) (debug : fld (pw p 0) 0 16 = 2 → bitAt (wordAt (pktBody p) 8) 0 = false)
    (thimble : fld (pw p 0) 0 16 ≠ 17) (room : s.dev.stoker.grants.length < 8) : cmdExpertGrant p w =
      .fin (w.upd fun d => { d with stoker := { d.stoker with
        grants := d.stoker.grants ++ [grantOf w (pktBody p) false],
        nextGrant := if (grantOf w (pktBody p) false).id + 1 = 0 then 1 else (grantOf w (pktBody p) false).id + 1 } }) sDone
        (le 4 (grantOf w (pktBody p) false).id.toNat) := by
  rw [← begins_grants b] at room
  rw [cmdExpertGrant, beq_eq_false_iff_ne.2 short]
  exact (need_pos (bne_iff_ne.2 cycle)).trans <| (need_pos fields).trans (openGrant_opens debug thimble room)

theorem expertGrant_signed (b : Begins s 0x0A20 p w) (long : (pktBody p).length = 832) (draws : s.dev.images.entropyFail = false)
    (fields : w.newNonce.grantFields (pktBody p) true = true) (uid : slice (pktBody p) 0x10 8 = le 8 w.fuse.uid.toNat)
    (nonce : wordAt (pktBody p) 0x18 = s.dev.sys.nonce)
    (key : keyStatus (w.fuse.keyHash 1) (slice (pktBody p) 0x20 388) (slice (pktBody p) 0x20 384) (slice (pktBody p) 0x1A0 4)
      (slice (pktBody p) 0x1C0 384) ((pktBody p).take 0x1C0) = none)
    (debug : fld (pw p 0) 0 16 = 2 → bitAt (wordAt (pktBody p) 8) 0 = false)
    (thimble : fld (pw p 0) 0 16 ≠ 17) (room : s.dev.stoker.grants.length < 8) : cmdExpertGrant p w =
      .fin (w.newNonce.upd fun d => { d with stoker := { d.stoker with
        grants := d.stoker.grants ++ [grantOf w (pktBody p) true],
        nextGrant := if (grantOf w (pktBody p) true).id + 1 = 0 then 1 else (grantOf w (pktBody p) true).id + 1 } }) sDone
        (le 4 (grantOf w (pktBody p) true).id.toNat) := by
  rw [← begins_grants b] at room
  rw [← begins_sys b] at nonce
  have c2 : (slice (pktBody p) 0x10 8 == le 8 w.newNonce.fuse.uid.toNat && wordAt (pktBody p) 0x18 == w.dev.sys.nonce) = true := by
    rw [beq_iff_eq.2 nonce, Bool.and_true, beq_iff_eq]
    exact uid
  have open' := openGrant_opens (w := w.newNonce) (signed := true) debug thimble room
  rw [cmdExpertGrant, beq_iff_eq.2 long]
  refine (need_pos (Bool.true_or _)).trans <| (if_pos rfl).trans <| (drbg_healthy b draws).trans <| (need_pos fields).trans <|
    (need_pos c2).trans ?_
  rw [show w.newNonce.fuse.keyHash 1 = w.fuse.keyHash 1 from rfl, key]
  exact open'

theorem grantRelease_done (b : Begins s 0x0A21 p w) (stands : ∃ g ∈ s.dev.stoker.grants, g.id = pw p 0) :
    cmdGrantRelease p w = .fin (w.upd fun d => { d with stoker := { d.stoker with
      grants := d.stoker.grants.filter (fun g => g.id != pw p 0) } }) sDone [] := by
  rw [← begins_grants b] at stands
  obtain ⟨g, held, id⟩ := stands
  exact need_pos (List.any_eq_true.2 ⟨g, held, beq_iff_eq.2 id⟩)

theorem expertLogRead_done (b : Begins s 0x0A23 p w) {log : List XRec} {old : Nat} (hl : log = s.dev.stoker.xlog)
    (ho : old = (log.takeWhile fun r => decide ((r.rseq - pw p 0).toInt < 0)).length) (least : 1 ≤ (pw p 1).toNat)
    (most : (pw p 1).toNat ≤ 127) (idle : w.active 0x054 = false) : cmdExpertLogRead p w =
      .fin (w.upd fun d => { d with stoker := { d.stoker with
        xlog := log.take old ++ (slice log old (pw p 1).toNat).map (fun r => { r with read := true }) ++ log.drop (old + (pw p 1).toNat) } })
        sDone ((slice log old (pw p 1).toNat).flatMap XRec.bytes) := by
  rw [← begins_xlog b] at hl
  subst ho hl
  refine (need_pos (decide_eq_true most)).trans <| (need_pos (some_of_one_le least)).trans ?_
  exact congrArg (fun u : W => Res.fin u sDone _) (if_neg fun full => Bool.false_ne_true (idle.symm.trans (Bool.and_eq_true_iff.1 full).1))

/-! Life-cycle tokens. -/

/-- An LC_TOKEN whose meaning ends: the fuses are those that its effect leaves. -/
theorem lcToken_ends {st : Nat} {res : List Byte} {fuses : Fuse} (b : Begins s 0x0A31 p w) (ends : cmdLcToken p w = .fin v st res)
    (left : v.fuse = fuses) : ∃ t, exec (.lcToken p) s = .next t ∧ t.fuse = fuses ∧ Ends { s with fuse := fuses } t 0x0A31 p v st res := by
  obtain ⟨i, runs, taken⟩ := take_begins s 0x0A31 p w cmdLcToken (by decide) (by decide) b
  have world : s.world.take s.world.objs (BitVec.ofNat 16 0x0A31) p cmdLcToken =
      (v.reply p (BitVec.ofNat 16 0x0A31) st true res).sessionLimit p := by
    rw [taken, W.startNow, runs, ends]
  have fuse : ((v.reply p (BitVec.ofNat 16 0x0A31) st true res).sessionLimit p).fuse = fuses :=
    (keeps_iff.1 keeps_sessionLimit).1.trans ((keeps_iff.1 keeps_reply).1.trans left)
  refine ⟨{ s with fuse := fuses, dev := _, mem := _ }, ?_, rfl, rfl⟩
  rw [← fuse, ← world]
  rfl

theorem lcToken_refused (b : Begins s 0x0A31 p w) (draws : s.dev.images.entropyFail = false)
    (fields : w.newNonce.tokenFields (pktBody p) s.dev.sys.nonce = false) : cmdLcToken p w = .fin w.newNonce 0x102 [] := by
  rw [← begins_sys b] at fields
  exact (drbg_healthy b draws).trans (if_neg (by rw [fields]; decide))

theorem lcToken_applies (b : Begins s 0x0A31 p w) (draws : s.dev.images.entropyFail = false)
    (fields : w.newNonce.tokenFields (pktBody p) s.dev.sys.nonce = true)
    (key : keyStatus (w.newNonce.fuse.keyHash (wordAt (pktBody p) 20).toNat) (slice (pktBody p) 0x60 388) (slice (pktBody p) 0x60 384)
      (slice (pktBody p) 0x1E0 4) (slice (pktBody p) 0x200 384) ((pktBody p).take 0x200) = none) :
    cmdLcToken p w = .fin ((w.newNonce.lcApply (pktBody p) (fld (wordAt (pktBody p) 4) 8 8) p.session).upd fun d =>
      { d with sys := { d.sys with resetArmed := true } }) sDone [] := by
  rw [← begins_sys b] at fields
  refine (drbg_healthy b draws).trans <| (need_pos fields).trans ?_
  rw [key]
  rfl

/-! Sessions. -/

/-- A word without bits 3 to 15. -/
theorem sessionMask {v : Word32} (clear : fld v 3 13 = 0) : Nat.land v.toNat (2 ^ 32 - 1 - 0xFFFF0007) = 0 := by
  have field : v.toNat / 8 % 2 ^ 13 = 0 := by rw [fld_eq] at clear; exact clear
  have mask : 2 ^ 32 - 1 - 0xFFFF0007 = 2 ^ 3 * (2 ^ 13 - 1) := by decide
  apply Nat.eq_of_testBit_eq
  intro i
  change (v.toNat &&& (2 ^ 32 - 1 - 0xFFFF0007)).testBit i = _
  rw [mask, Nat.testBit_and, Nat.testBit_two_pow_mul, Nat.testBit_two_pow_sub_one, Nat.zero_testBit]
  by_cases within : 3 ≤ i ∧ i - 3 < 13
  · have bit : (v.toNat / 8 % 2 ^ 13).testBit (i - 3) = v.toNat.testBit i := by
      rw [Nat.testBit_mod_two_pow, decide_eq_true within.2, Bool.true_and, show (8 : Nat) = 2 ^ 3 from rfl, Nat.testBit_div_two_pow]
      congr 1
      omega
    rw [← bit, field, Nat.zero_testBit, Bool.false_and]
  · by_cases low : 3 ≤ i
    · rw [decide_eq_false (show ¬ i - 3 < 13 by omega), Bool.and_false, Bool.and_false]
    · rw [decide_eq_false low, Bool.false_and, Bool.and_false]

theorem sessionCfg_done (clear : fld (pw p 0) 3 13 = 0) (rate : 1024 ≤ fld (pw p 0) 16 16) :
    let x := w.upd fun d => { d with images := { d.images with flash := { d.images.flash with
       rcd := { d.images.flash.rcd with session := pw p 0 } } } }
    cmdSessionCfg p w = .fin (if bitAt (pw p 0) 0 then x else x.endSessions) sDone [] := by
  intro x
  have masked : maskedOk p [0xFFFF0007] = true := by
    change (Nat.land (pw p 0).toNat (2 ^ 32 - 1 - 0xFFFF0007) == 0 && true) = true
    rw [sessionMask clear]
    rfl
  rw [cmdSessionCfg]
  refine (need_pos (by rw [masked, decide_eq_true rate]; rfl)).trans ?_
  cases bitAt (pw p 0) 0 <;> rfl

theorem sessionClose_other (b : Begins s 0x0A42 p w) (stands : (s.dev.images.session (pw p 0).toNat).isSome = true)
    (other : srcKey p ≠ 16 + (pw p 0).toNat) : cmdSessionClose p w = .fin (w.endSession (pw p 0)) sDone [] :=
  (need_pos (by rw [begins_session b, stands])).trans (if_neg other)

theorem sessionClose_own (b : Begins s 0x0A42 p w) (stands : (s.dev.images.session (pw p 0).toNat).isSome = true)
    (own : srcKey p = 16 + (pw p 0).toNat) : cmdSessionClose p w = .fin (w.upd fun d => { d with images := { d.images with
        sessions := d.images.sessions.map (fun x => if x.id = pw p 0 then { x with accepted := 60000 } else x) } }) sDone [] :=
  (need_pos (by rw [begins_session b, stands])).trans (if_pos own)

/-! SESSION_OPEN, whose packet is of no session. -/

theorem noSession_sessionLimit (open' : opensSession 0x0A41 p = true) (none : w.dev.images.session 0 = none) : w.sessionLimit p = w := by
  have zero : p.session.toNat = 0 := by
    rw [opensSession, Bool.and_eq_true, Bool.and_eq_true, beq_iff_eq, beq_iff_eq] at open'
    obtain ⟨⟨-, zero⟩, -⟩ := open'
    rw [zero]
    rfl
  rw [W.sessionLimit, zero, none]

theorem images_reply (p : Packet) (o : Half) (st : Nat) (f : Bool) (r : List Byte) (v : W) : (v.reply p o st f r).dev.images = v.dev.images := by
  rw [W.reply, if_neg Bool.false_ne_true, W.store, upd_dev, images_onCmdSrc, W.deliver, upd_dev]
  dsimp only
  split
  · rfl
  · split <;> rfl

/-- SESSION_OPEN is taken as a packet without a session, and its meaning pends. -/
theorem sessionOpen_taken {key : Nat} {go : W → W} (b : Begins s 0x0A41 p w) (eth : isEth p = true) (open' : opensSession 0x0A41 p = true)
    (room : s.dev.stoker.pends.length < 32) (pends : cmdSessionOpen p w = .pend w key go) :
    s.world.take s.world.objs 0x0A41 p cmdSessionOpen = go ((w.reply p 0x0A41 sPending false []).addPend p 0x0A41 true key) ∧
      w.dev.images.session 0 = none := by
  have pending := begins_pends s 0x0A41 p w b
  have dev := (begins_dev s 0x0A41 p w b).1
  obtain ⟨⟨due, offers, src⟩, target, ⟨i, info, least, most, rule, mode⟩, free⟩ := b
  have remote : p.src ≠ .base := fun base => by rw [isEth, base] at eth; cases eth
  have opens : (isEth p && opensSession 0x0A41 p) = true := by rw [eth, open']; rfl
  rw [if_neg remote] at src
  obtain ⟨crc, short, whole, header, src⟩ := src
  obtain ⟨taken, none⟩ := (if_pos opens).mp src
  have chim : w.dev.chim = s.dev.chim := by rw [dev]
  have here : p.target = 0xFF ∨ p.target.toNat = w.dev.chim.pos.toNat := by rw [chim]; exact target
  have unblocked : w.waitsFor s.world.objs s.dev.stoker.pends w.dev.chim.fwdNext 0x0A41 p = false := by
    rw [W.waitsFor, W.fenced, chim]
    exact free
  have images : w.dev.images = s.dev.images := by rw [taken, consume_images]; rfl
  have run : w.startNow i 0x0A41 p cmdSessionOpen = go ((w.reply p 0x0A41 sPending false []).addPend p 0x0A41 true key) := by
    rw [W.startNow, W.execute, mode, if_pos rfl, pends]
    exact if_neg (by rw [pending, pendMax]; omega)
  have served : w.route s.world.objs 0x0A41 p cmdSessionOpen = w.startNow i 0x0A41 p cmdSessionOpen := by
    have info' : w.cmdInfo (0x0A41 : Half).toNat = some i := info
    have unblocked' : w.waitsFor s.world.objs s.dev.stoker.pends w.dev.chim.fwdNext (0x0A41 : Half).toNat p = false := unblocked
    rw [W.route, if_pos here, W.serve, info']
    dsimp only
    rw [if_neg (by rw [decide_eq_true ⟨least, most⟩, rule]; decide), pending,
      if_neg (by rw [unblocked']; decide)]
  have still : s.world.ringDue = s.world := if_neg (fun asked => Bool.false_ne_true (due.symm.trans (Bool.and_eq_true_iff.1 asked).1))
  refine ⟨?_, by rw [images]; exact none⟩
  have offered : ¬ s.world.offers 0x0A41 p = false := by rw [show s.world.offers 0x0A41 p = true from offers]; decide
  have headed : ¬ headerOk 0x0A41 p = false := by rw [show headerOk 0x0A41 p = true from header]; decide
  rw [← run, ← served, taken, W.take, still]
  refine (if_neg offered).trans <| (if_neg remote).trans <| (if_neg (not_not.2 ?_)).trans <| (if_neg (by omega)).trans <| (if_neg headed).trans <|
    if_pos opens
  rw [if_neg (by omega : ¬ 4080 < p.plen.toNat)]
  exact crc

theorem begins_accepts_open (open' : opensSession 0x0A41 p = true) (eth : isEth p = true) (room : s.dev.stoker.pends.length < 32)
    (b : Begins s 0x0A41 p w) (pends : cmdSessionOpen p w = .pend w 0 id) :
    ∃ t, exec (.sessionOpen p) s = .next t ∧ Pends s t 0x0A41 p w 0 id := by
  obtain ⟨taken, none⟩ := sessionOpen_taken b eth open' room pends
  have still : ((w.reply p 0x0A41 sPending false []).addPend p 0x0A41 true 0).sessionLimit p =
      (w.reply p 0x0A41 sPending false []).addPend p 0x0A41 true 0 :=
    noSession_sessionLimit open' (by rw [W.addPend, upd_dev]; dsimp only; rw [images_reply]; exact none)
  refine ⟨stateOf s ((w.reply p 0x0A41 sPending false []).addPend p 0x0A41 true 0), ?_, ?_⟩
  · exact congrArg (fun u : W => Host.Outcome.next (stateOf s u)) taken
  · exact (congrArg (stateOf s) still).symm

theorem sessionOpen_pends (b : Begins s 0x0A41 p w) (cycle : w.lifecycle = 1 ∨ w.lifecycle = 2) (path : s.dev.baste.pathOff = false)
    (eth : isEth p = true) (open' : opensSession 0x0A41 p = true) (fields : w.openFields (pktBody p) = true)
    (draws : s.dev.images.entropyFail = false) : cmdSessionOpen p w = .pend w 0 id :=
  (need_pos (hasIdentity_of b cycle path)).trans <| (need_pos (by rw [eth, open', fields]; rfl)).trans (drbg_healthy b draws)

/-- Settles O13: each command's meaning is the operation that it names, once its checks pass. -/
theorem keyAndSessionCommands : Obligations.KeyAndSessionCommands := by
  intro s p w pending d i v b ok pend draws
  have done {opc : Nat} {body : Body} {v : W} {res : List Byte} (ho : opc < 65536) (hn : opc ≠ 0x0A41)
    (hb : Begins s opc p w → body p w = .fin v sDone res) := command_done (s := s) (w := w) (p := p) ho hn hb
  refine ⟨fun cycle path healthy => command_pending (by decide) (by decide) pending fun b => attest_pends b cycle path healthy,
    fun short cycle fields debug thimble room => ?_,
    fun long healthy fields uid nonce key debug thimble room => ?_,
    fun stands => done (by decide) (by decide) fun b => grantRelease_done b stands,
    fun least most idle => done (by decide) (by decide) fun b => expertLogRead_done b rfl rfl least most idle,
    fun healthy fields begun => ?_, fun healthy fields key begun => ?_,
    fun clear rate => done (by decide) (by decide) fun _ => sessionCfg_done clear rate,
    fun cycle path eth open' fields healthy begun =>
      begins_accepts_open open' eth pending begun (sessionOpen_pends begun cycle path eth open' fields healthy),
    fun stands other => done (by decide) (by decide) fun b => sessionClose_other b stands other,
    fun stands own => done (by decide) (by decide) fun b => sessionClose_own b stands own⟩
  · exact done (by decide) (by decide) fun b => by rw [expertGrant_unsigned b short cycle fields debug thimble room, grantOf_begins b]; rfl
  · exact done (by decide) (by decide) fun b => by
      rw [expertGrant_signed b long healthy fields uid nonce key debug thimble room, grantOf_begins b]
      rfl
  · obtain ⟨t, runs, -, ends⟩ := lcToken_ends begun (lcToken_refused begun healthy fields) (Eq.trans (b := w.fuse) rfl (begins_fuse begun))
    exact ⟨t, runs, ends⟩
  · exact lcToken_ends begun (lcToken_applies begun healthy fields key) rfl

end Sys2Proof.Proofs
end

section
/-! O7: a store, an atomic and a load of a hob (R137, R145, R149). -/

namespace Sys2Proof.Proofs

open Machine Laws

set_option Elab.async false

/-! The bytes of the memory. -/

theorem find_filter_ne {m : Memory} {a b : Nat} :
    (m.filter fun c => c.1 != a).find? (fun c => c.1 == b) = if b = a then none else m.find? (fun c => c.1 == b) := by
  rw [List.find?_filter]
  by_cases same : b = a
  · subst same
    rw [if_pos rfl, List.find?_eq_none]
    intro c _
    simp
  · rw [if_neg same]
    congr 1
    funext c
    by_cases found : c.1 = b
    · simp [found, same]
    · simp [found]

theorem get_memSet {m : Memory} {a b : Nat} {v : Byte} : Memory.get (Memory.set m a v) b = if b = a then v else Memory.get m b := by
  rw [Memory.set, Memory.get, Memory.get]
  by_cases zero : v = 0
  · rw [if_pos zero, find_filter_ne]
    by_cases same : b = a
    · rw [if_pos same, if_pos same, zero]
      rfl
    · rw [if_neg same, if_neg same]
  · rw [if_neg zero]
    by_cases same : b = a
    · rw [if_pos same, same, find_insertRow_self]
      rfl
    · rw [if_neg same, find_insertRow_ne _ _ _ _ same]

theorem get_setAll {m : Memory} {a b : Nat} {bs : List Byte} :
    Memory.get (Memory.setAll m a bs) b = if a ≤ b ∧ b < a + bs.length then bs.getD (b - a) 0 else Memory.get m b := by
  induction bs generalizing m a with
  | nil =>
    rw [Memory.setAll, if_neg (by rw [List.length_nil]; omega)]
  | cons v bs ih =>
    rw [Memory.setAll, ih, get_memSet, List.length_cons]
    by_cases first : b = a
    · subst first
      rw [if_neg (by omega), if_pos rfl, if_pos (by omega), Nat.sub_self, List.getD_cons_zero]
    · rw [if_neg first]
      by_cases within : a + 1 ≤ b ∧ b < a + 1 + bs.length
      · rw [if_pos within, if_pos (by omega), show b - a = (b - (a + 1)) + 1 by omega, List.getD_cons_succ]
      · rw [if_neg within, if_neg (by omega)]

theorem getD_le {n v i : Nat} (within : i < n) : (le n v).getD i 0 = BitVec.ofNat 8 (v / 256 ^ i) := by
  induction n generalizing v i with
  | zero => omega
  | succ n ih =>
    rw [le]
    cases i with
    | zero => rw [List.getD_cons_zero, pow_zero, Nat.div_one]
    | succ i => rw [List.getD_cons_succ, ih (by omega), pow_succ, Nat.mul_comm, Nat.div_div_eq_div_mul]

/-- The memory after the bytes of a number. -/
theorem storesAt_put {s t : State} {a n v : Nat} (mem : t.mem = Memory.setAll s.mem a (le n v)) : StoresAt s t a n v := by
  intro b
  rw [mem, get_setAll, length_le]
  split
  · next within => exact getD_le (by omega)
  · rfl

/-! Writes and atomics that reach a hob. -/

variable {s t : State} {c : CoreId} {w : W} {m : Rid} {u a n : Nat} {d : Dir}

/-- What an operation leaves that writes `bs` at `a`, of a world that writes none. -/
def written (w : W) (a : Nat) (bs : List Byte) : W := { w with ops := .put a bs :: w.ops }

theorem hobWrites_of_reaches {k : Nat} {bs : List Byte} (h : Reaches w m u a n d) (len : bs.length = n) :
    w.hobWrites u k a bs = written (written (w.granted u k) a bs) (a + n) [] := by
  obtain ⟨-, fits, -, -, flips, awake, plain, -⟩ := h
  have whole : min bs.length (32 - a % 32) = bs.length := by omega
  have flips' : ((w.granted u k).poke a bs).dev.flips.rows = [] := flips
  rw [W.hobWrites, whole, List.take_length, List.drop_length, hobWrite_plain w u k a bs flips awake plain, put_plain _ _ _ flips', len]
  rfl

theorem perform_write_of_reaches {bs : List Byte} (h : Reaches w m u a n .write) (len : bs.length = n) :
    w.perform m a n (.write bs) = (.done, written (written (w.granted u (hobMaster w.dev.chim.pos u m)) a bs) (a + n) []) := by
  have on := h.2.2.2.2.2.2.2.1
  rw [perform_hob w m u a n _ (hob_of_reaches h) on, W.serveHob, hobWrites_of_reaches h len]

theorem perform_atomic_of_reaches {fn : BitVec 11} {opd : Word64} (h : Reaches w m u a n .atomic) :
    w.perform m a n (.atomic fn opd) = (.data (w.bytes a n),
      written ((w.granted u (hobMaster w.dev.chim.pos u m)).granted u (hobMaster w.dev.chim.pos u m)) a
        (le n ((atomicResult (atomicOp fn) n (ofLe (w.bytes a n)) (opd.toNat % 2 ^ (8 * n))).getD (ofLe (w.bytes a n))))) := by
  have on := h.2.2.2.2.2.2.2.1
  rw [perform_hob w m u a n _ (hob_of_reaches h) on, W.serveHob, W.hobAtomic, seen_of_reaches h, W.hobModify, hobRead_of_reaches h]
  obtain ⟨-, -, -, -, flips, awake, plain, -⟩ := h
  dsimp only
  rw [hobWrite_plain (w.granted u _) _ _ _ _ flips ((power_granted _ _).trans awake)
    (by rw [W.granted, upd_dev, hob_onHob_self]; exact plain)]
  rfl

/-- The device of an access that writes. -/
theorem coreDev_of_within {v : W} (h : Within s c w) (dev : v.dev = w.dev) : CoreDev s (stateOf s v) c := by
  have same : (stateOf s v).dev = (stateOf s w).dev := dev
  obtain ⟨-, ⟨-, fuse, others, rest, ptrs⟩, -⟩ := h
  refine ⟨rfl, fuse, ?_, ?_, ?_⟩
  · rw [same]; exact others
  · rw [beatDev, same]; exact rest
  · intro u; rw [same]; exact ptrs u

theorem within_mem (h : Within s c w) : w.mem = s.mem := by
  obtain ⟨plain, -⟩ := h
  rw [plain]
  rfl

theorem within_ops (h : Within s c w) : w.ops = [] := by
  obtain ⟨plain, -⟩ := h
  rw [plain]
  rfl

theorem bytes_within (h : Within s c w) : w.bytes a n = s.world.bytes a n := by
  rw [W.bytes, W.bytes, within_mem h]
  rfl

theorem seam_within (h : Within s c w) (k : Nat) : w.dev.seam k = s.dev.seam k := by
  have seams : w.dev.seams = s.dev.seams := (congrArg Dev.seams h.2.1.2.2.2.1).trans rfl
  rw [Dev.seam, seams, Dev.seam]

/-! STORE_ACCEPT. -/

/-- A request to a hob stands behind no write that waits at a queue page. -/
theorem not_storeWaits {e : Store} (own : hobOf e.addr.toNat = some u) : w.storeWaits m e = false := by
  have range := hobOf_range _ _ own
  rw [W.storeWaits, List.any_eq_false]
  intro x _
  rw [Bool.and_eq_true, beq_iff_eq, beq_iff_eq]
  omega

/-- The oldest entry has left the store buffer, after `stall` beats. -/
def popped (stall : Nat) (q : Core) : Core := { q.waits stall with sb := q.sb.drop 1 }

theorem storeAccept_stores {link : Bool} {stall : Nat} {e : Store} {r : List Store} (oldest : (s.dev.core c).sb = e :: r)
    (whole : e.split = false) (may : e.denied = false) (voted : (s.dev.seam c).storeOpen [e] = false)
    (reach : Reaches s.world (coreRid s.dev.chim.pos c e.priv) (unitOf c) e.addr.toNat e.size .write) :
    ∃ k, exec (.storeAccept c link stall) s = .next (stateOf s (written (written
      ((s.world.granted (unitOf c) k).upd fun d => d.beatCore c (popped stall)) e.addr.toNat (le e.size e.data.toNat))
        (e.addr.toNat + e.size) [])) := by
  refine ⟨hobMaster s.dev.chim.pos (unitOf c) (coreRid s.dev.chim.pos c e.priv), ?_⟩
  have group : storeGroup (e :: r) = [e] := by rw [storeGroup, whole]; rfl
  have own := hob_of_reaches reach
  have free : (s.world.storeWaits (coreRid s.dev.chim.pos c e.priv) e || (s.dev.seam c).storeOpen [e]) = false := by
    rw [not_storeWaits own, voted]
    rfl
  have admits := admitParts_of_reaches (r := .write []) reach
  have here : ¬ (link = false ∧ hobOf e.addr.toNat ≠ some (unitOf c)) := fun away => away.2 own
  have writes : s.world.writeStores (coreRid s.dev.chim.pos c e.priv) [e] = (.done, written (written
      (s.world.granted (unitOf c) (hobMaster s.dev.chim.pos (unitOf c) (coreRid s.dev.chim.pos c e.priv))) e.addr.toNat (le e.size e.data.toNat))
        (e.addr.toNat + e.size) []) := by
    rw [W.writeStores, perform_write_of_reaches reach (length_le _ _)]
    rfl
  have core : (s.world.dev.core c).sb = e :: r := oldest
  have free' : (s.world.storeWaits (coreRid s.world.dev.chim.pos c e.priv) e || (s.world.dev.seam c).storeOpen [e]) = false := free
  have admits' : s.world.admitParts (coreRid s.world.dev.chim.pos c e.priv) (fun _ => .write []) [(e.addr.toNat, e.size)] = (none, s.world) := admits
  have writes' : s.world.writeStores (coreRid s.world.dev.chim.pos c e.priv) [e] = _ := writes
  change execStoreAccept c link s stall = _
  simp only [execStoreAccept, run, core, group, List.map_cons, List.map_nil, free', may, admits', not_remote_of_reaches reach, if_neg here,
    writes', Bool.false_eq_true, if_false]
  rfl

theorem storeAccept_reaches {link : Bool} {stall : Nat} {e : Store} {r : List Store} (oldest : (s.dev.core c).sb = e :: r)
    (whole : e.split = false) (may : e.denied = false) (voted : (s.dev.seam c).storeOpen [e] = false)
    (reach : Reaches s.world (coreRid s.dev.chim.pos c e.priv) (unitOf c) e.addr.toNat e.size .write) :
    Answers (.storeAccept c link stall) s fun t =>
      StoresAt s t e.addr.toNat e.size e.data.toNat ∧ CoreDev s t c ∧
      t.dev.core c = { s.dev.core c with sb := r, beats := (s.dev.core c).beats + w64 stall,
                                         stalls := (s.dev.core c).stalls + w64 stall } := by
  obtain ⟨k, runs⟩ := storeAccept_stores (link := link) (stall := stall) oldest whole may voted reach
  have within : Within s c ((s.world.granted (unitOf c) k).upd fun d => d.beatCore c (popped stall)) :=
    within_beatCore (within_granted within_refl)
  refine ⟨_, runs, storesAt_put rfl, coreDev_of_within within rfl, ?_⟩
  change (Dev.beatCore _ c (popped stall)).core c = _
  rw [core_beatCore_self, popped, Core.waits]
  change ({ s.dev.core c with sb := (s.dev.core c).sb.drop 1, beats := _, stalls := _ } : Core) = _
  rw [oldest]
  rfl

/-! ATOMIC. -/

/-- The request of an atomic. -/
def atomicOf (x : Arch) (rd ra rb : Reg) (fn : BitVec 11) (n : Nat) : LoadOp := ⟨x.rdG ra, n, decide (n = 4), false, rd, some (fn, x.rdG rb)⟩

/-- What an atomic does that issues. -/
def atomicAct (c : Nat) (rd ra rb : Reg) (fn : BitVec 11) (wait : Bool) (w : W) : W :=
  let q := w.dev.core c
  let x := q.arch
  let a := x.rdG ra
  let size := if bitAt fn 0 then 8 else 4
  if 8 < atomicOp fn then w.raiseTrap c 2 0
  else if !q.sb.isEmpty then w
  else if a.toNat % size ≠ 0 then (w.pageMisuse (coreRid w.dev.chim.pos c (x.priv c)) a.toNat).raiseTrap c 4 a
  else if x.mpu c (x.priv c) .both a.toNat = false then w.raiseTrap c 8 a
  else w.startLoad c 5 ⟨a, size, decide (size = 4), false, rd, some (fn, x.rdG rb)⟩ wait

theorem atomicAct_starts {rd ra rb : Reg} {fn : BitVec 11} {wait : Bool} {n : Nat} (hn : n = if fn.getLsbD 0 then 8 else 4)
    (empty : (s.dev.core c).sb = []) (known : fn.toNat / 2 ≤ 8) (aligned : ((archOf s c).rdG ra).toNat % n = 0)
    (may : (archOf s c).mpu c ((archOf s c).priv c) .both ((archOf s c).rdG ra).toNat = true) :
    atomicAct c rd ra rb fn wait s.world = s.world.startLoad c 5 (atomicOf (archOf s c) rd ra rb fn n) wait := by
  have known' : ¬ 8 < atomicOp fn := Nat.not_lt.2 known
  have empty' : ¬ (!(s.world.dev.core c).sb.isEmpty) = true := by
    rw [show (s.world.dev.core c).sb = [] from empty]
    decide
  have may' : ¬ (archOf s c).mpu c ((archOf s c).priv c) .both ((archOf s c).rdG ra).toNat = false := by rw [may]; decide
  subst hn
  exact (if_neg known').trans <| (if_neg empty').trans <| (if_neg (not_not.2 aligned)).trans (if_neg may')

theorem atomic_starts {rd ra rb : Reg} {fn : BitVec 11} {wait : Bool} {n : Nat} (hn : n = if fn.getLsbD 0 then 8 else 4) (drained : Drained s c)
    (empty : (s.dev.core c).sb = []) (known : fn.toNat / 2 ≤ 8) (aligned : ((archOf s c).rdG ra).toNat % n = 0)
    (may : (archOf s c).mpu c ((archOf s c).priv c) .both ((archOf s c).rdG ra).toNat = true) :
    exec (.atomic c rd ra rb fn wait) s = run s fun w => w.startLoad c 5 (atomicOf (archOf s c) rd ra rb fn n) wait := by
  change run s (fun w => w.issueSerial c (atomicAct c rd ra rb fn wait)) = _
  rw [run, issueSerial_drained drained, atomicAct_starts hn empty known aligned may]
  rfl

/-- An atomic that its own hob grants at once. -/
theorem loadAccess_atomic {k : Nat} {priv : Bool} {o : LoadOp} {fn : BitVec 11} {opd : Word64} (atomic : o.atomic = some (fn, opd))
    (aligned : o.addr.toNat % o.size = 0) (h : Reaches w (coreRid w.dev.chim.pos k priv) u o.addr.toNat o.size .atomic) :
    ∃ i, w.loadAccess k priv o true = (.ok (o.value (w.bytes o.addr.toNat o.size)), written ((w.granted u i).granted u i) o.addr.toNat
      (le o.size ((atomicResult (atomicOp fn) o.size (ofLe (w.bytes o.addr.toNat o.size)) (opd.toNat % 2 ^ (8 * o.size))).getD
        (ofLe (w.bytes o.addr.toNat o.size))))) := by
  refine ⟨hobMaster w.dev.chim.pos u (coreRid w.dev.chim.pos k priv), ?_⟩
  have req : o.req = .atomic fn opd := by rw [LoadOp.req, atomic]
  have reads := perform_atomic_of_reaches (fn := fn) (opd := opd) h
  have here : ¬ (true = false ∧ hobOf o.addr.toNat ≠ some (unitOf k)) := fun e => Bool.noConfusion e.1
  simp only [W.loadAccess, req, partsOf_aligned aligned, admitParts_of_reaches (r := .atomic fn opd) h, not_remote_of_reaches h, Bool.false_eq_true,
    if_false, if_neg here, W.readParts, reads, List.append_nil]

theorem startLoad_atomic {o : LoadOp} {fn : BitVec 11} {opd : Word64} {wait : Bool} (atomic : o.atomic = some (fn, opd))
    (aligned : o.addr.toNat % o.size = 0) (granted : s.world.grantedNow c o wait = true)
    (reach : Reaches s.world (ridOf s c) (unitOf c) o.addr.toNat o.size .atomic) :
    ∃ t, run s (fun w => w.startLoad c 5 o wait) = .next t ∧
      t.mem = Memory.setAll s.mem o.addr.toNat (le o.size
        ((atomicResult (atomicOp fn) o.size (ofLe (s.world.bytes o.addr.toNat o.size)) (opd.toNat % 2 ^ (8 * o.size))).getD
          (ofLe (s.world.bytes o.addr.toNat o.size)))) ∧
      CoreDev s t c ∧ t.dev.core c = (s.dev.core c).exec c 5 fun x => (x.put o (o.value (s.world.bytes o.addr.toNat o.size))).next := by
  obtain ⟨i, access⟩ := loadAccess_atomic (k := c) (priv := (archOf s c).priv c) atomic aligned reach
  have core : (s.world.dev.core c).arch = archOf s c := rfl
  have within : Within s c (((s.world.granted (unitOf c) i).granted (unitOf c) i).upd fun d => d.beatCore c fun q => q.exec c 5 fun x =>
        (x.put o (o.value (s.world.bytes o.addr.toNat o.size))).next) :=
    within_beatCore (within_granted (within_granted within_refl))
  refine ⟨stateOf s (written (((s.world.granted (unitOf c) i).granted (unitOf c) i).upd fun d => d.beatCore c fun q => q.exec c 5 fun x =>
        (x.put o (o.value (s.world.bytes o.addr.toNat o.size))).next) o.addr.toNat _), ?_, rfl, coreDev_of_within within rfl,
    core_beatCore_self _ _ _⟩
  simp only [run, W.startLoad, granted, if_true, core, access, aligned]
  rfl

/-- What an atomic returns is sign-extended from 4 bytes, and the whole of 8. -/
theorem atomic_value {x : Arch} {rd ra rb : Reg} {fn : BitVec 11} {n : Nat} (hn : n = if fn.getLsbD 0 then 8 else 4) :
    (atomicOf x rd ra rb fn n).value (s.world.bytes a n) = (BitVec.ofNat (8 * n) (hobWord s a n)).signExtend 64 := by
  by_cases long : fn.getLsbD 0 = true
  · rw [if_pos long] at hn
    subst hn
    rw [value_unsigned _ (by rw [atomicOf]; rfl)]
    exact (BitVec.signExtend_eq _).symm
  · rw [if_neg long] at hn
    subst hn
    exact value_signed (by rw [atomicOf]; rfl) length_bytes (.inr (.inr (.inl rfl)))

theorem atomic_now {rd ra rb : Reg} {fn : BitVec 11} {wait : Bool} {n : Nat} (hn : n = if fn.getLsbD 0 then 8 else 4) (drained : Drained s c)
    (empty : (s.dev.core c).sb = []) (known : fn.toNat / 2 ≤ 8) (aligned : ((archOf s c).rdG ra).toNat % n = 0)
    (may : (archOf s c).mpu c ((archOf s c).priv c) .both ((archOf s c).rdG ra).toNat = true)
    (granted : s.world.grantedNow c (atomicOf (archOf s c) rd ra rb fn n) wait = true)
    (reach : Reaches s.world (ridOf s c) (unitOf c) ((archOf s c).rdG ra).toNat n .atomic) :
    Answers (.atomic c rd ra rb fn wait) s fun t =>
      StoresAt s t ((archOf s c).rdG ra).toNat n ((atomicResult (fn.toNat / 2) n (hobWord s ((archOf s c).rdG ra).toNat n)
        (((archOf s c).rdG rb).toNat % 2 ^ (8 * n))).getD (hobWord s ((archOf s c).rdG ra).toNat n)) ∧
      CoreDev s t c ∧ CoreKeeps s t c ∧
      (∀ r, (archOf t c).rdG r = if r = rd ∧ r ≠ 0 then (BitVec.ofNat (8 * n) (hobWord s ((archOf s c).rdG ra).toNat n)).signExtend 64
        else (archOf s c).rdG r) ∧
      (archOf t c).f = (archOf s c).f ∧ (archOf t c).cr = (archOf s c).cr ∧ (archOf t c).crw = (archOf s c).crw ∧
      (archOf t c).pc = (archOf s c).pc + 4 := by
  obtain ⟨t, now, mem, dev, core⟩ := startLoad_atomic rfl aligned granted reach
  refine ⟨t, (atomic_starts hn drained empty known aligned may).trans now, storesAt_put mem, dev, ?_, ?_⟩
  · rw [CoreKeeps, core, Core.exec]
    dsimp only
    split <;> rfl
  · rw [archOf, core, exec_arch, ← atomic_value hn]
    exact put_next_g rfl

/-! LOAD_RESPONSE. -/

/-- What has been answered retires, with the instructions held behind it. -/
def retiredCore (ahead : Nat) (q : Core) : Core :=
  { q with pend := [], sb := q.sb ++ q.held, held := [], retired := q.retired + w64 ahead + 1 + w64 q.nheld, nheld := 0 }

theorem retireCore_answered {k : Nat} {p : PendLoad} (pend : (w.dev.core k).pend = [p]) (ans : p.ans = some none) (held : p.held = []) :
    w.retireCore k = w.upd fun d => d.onCore k (retiredCore p.ahead) := by
  have ready : (w.dev.core k).retireReady [p] = (retiredCore p.ahead (w.dev.core k), none) := by
    rw [Core.retireReady, ans]
    dsimp only
    rw [Core.retireReady, held, List.append_nil]
    rfl
  rw [W.retireCore, pend, if_neg (show ¬[p].isEmpty = true from Bool.false_ne_true), ready]
  exact congrArg (fun d : Dev => { w with dev := d }) (onCore_congr rfl)

/-- The only pending entry is answered with a value. -/
def answeredCore (p : PendLoad) (v : Word64) (q : Core) : Core :=
  { q with arch := q.arch.put p.op v, pend := [{ p with ans := some none }] }

theorem response_value {k : Nat} {p : PendLoad} {v : Word64} (pend : (w.dev.core k).pend = [p]) (held : p.held = [])
    (runs : (w.dev.seam k).mode ≠ .halted) (steady : (w.dev.seam k).rethread = none) :
    w.response k 0 (.ok v) = (w.upd fun d => d.onCore k (answeredCore p v)).upd fun d => d.onCore k (retiredCore p.ahead) := by
  have answered : (w.upd fun d => d.onCore k fun c => match c.pend[0]? with | some p => c.answer 0 p.op (.ok v) | none => c) =
      w.upd fun d => d.onCore k (answeredCore p v) := by
    refine congrArg (fun d : Dev => { w with dev := d }) (onCore_congr ?_)
    rw [pend]
    dsimp only [List.getElem?_cons_zero]
    rw [Core.answer, pend]
    rfl
  rw [W.response, if_neg runs]
  dsimp only
  rw [if_neg (by rw [steady]; decide)]
  refine (congrArg (fun u : W => u.retireCore k) answered).trans ?_
  exact retireCore_answered (p := { p with ans := some none }) (congrArg Core.pend (core_onCore_self _ _ _)) rfl held

theorem loadResponse_answers {link : Bool} {stall : Nat} {p : PendLoad} (pend : (s.dev.core c).pend = [p]) (plain : p.op.atomic = none)
    (unanswered : p.ans = none) (kept : p.lost = false) (held : p.held = []) (aligned : p.op.addr.toNat % p.op.size = 0)
    (first : (s.dev.core c).storeAhead p.op.addr.toNat p.op.size = false)
    (voted : (s.dev.seam c).requestOpen p.op (p.ck.priv c) = false) (runs : (s.dev.seam c).mode ≠ .halted)
    (steady : (s.dev.seam c).rethread = none)
    (reach : Reaches s.world (coreRid s.dev.chim.pos c (p.ck.priv c)) (unitOf c) p.op.addr.toNat p.op.size .read) :
    ∃ t, exec (.loadResponse c link stall) s = .next t ∧ CoreReads s t c ∧
      t.dev.core c = retiredCore p.ahead (answeredCore p (p.op.value (s.world.bytes p.op.addr.toNat p.op.size)) ((s.dev.core c).waits stall)) := by
  have waited : Within s c (s.world.upd fun d => d.beatCore c fun q => q.waits stall) := within_beatCore within_refl
  have core1 : (s.world.upd fun d => d.beatCore c fun q => q.waits stall).dev.core c = (s.dev.core c).waits stall := core_beatCore_self _ _ _
  generalize granted : (s.world.upd fun d => d.beatCore c fun q => q.waits stall) = w1 at waited core1
  have pos : w1.dev.chim.pos = s.dev.chim.pos := by rw [← granted]; rfl
  have own := hob_of_reaches reach
  have access : w1.loadAccess c (p.ck.priv c) p.op link = _ :=
    loadAccess_reaches plain aligned (fun _ => own) (by rw [pos]; exact reaches_within waited reach)
  have local' : s.world.remoteAddr p.op.addr.toNat = false := not_remote_of_reaches reach
  have free : (p.ans.isSome || (s.dev.core c).aheadOf ((s.dev.core c).pend.take 0) p.op.addr.toNat p.op.size ||
      p.held.any (fun e => sameBlock p.op.addr.toNat p.op.size e.addr.toNat e.size) ||
      (s.world.remoteAddr p.op.addr.toNat &&
        ((s.dev.core c).pend.take 0).any fun x => x.ans.isNone && windowOf x.op.addr.toNat == windowOf p.op.addr.toNat) ||
      (s.dev.seam c).requestOpen p.op (p.ck.priv c)) = false := by
    rw [unanswered, held, local', voted, Core.aheadOf, first]
    rfl
  have at0 : (s.dev.core c).pend[0]? = some p := by rw [pend]; rfl
  have reached := within_granted (u := unitOf c) (k := hobMaster w1.dev.chim.pos (unitOf c) (coreRid w1.dev.chim.pos c (p.ck.priv c))) waited
  have core2 : (w1.granted (unitOf c) (hobMaster w1.dev.chim.pos (unitOf c) (coreRid w1.dev.chim.pos c (p.ck.priv c)))).dev.core c =
    (s.dev.core c).waits stall := core1
  generalize w1.granted (unitOf c) (hobMaster w1.dev.chim.pos (unitOf c) (coreRid w1.dev.chim.pos c (p.ck.priv c))) = w2 at access reached core2
  have seam2 := seam_within reached c
  have answered := response_value (w := w2) (v := p.op.value (w1.bytes p.op.addr.toNat p.op.size)) ((congrArg Core.pend core2).trans pend) held
    (by rw [seam2]; exact runs) (by rw [seam2]; exact steady)
  have whole : s.world.upd (fun d => d.beatCore c fun q => q.waits stall) = w1 := granted
  refine ⟨stateOf s (w2.response c 0 (.ok (p.op.value (w1.bytes p.op.addr.toNat p.op.size)))), ?_, ?_, ?_⟩
  · refine congrArg (fun v : W => Host.Outcome.next (stateOf s v)) ?_
    dsimp only
    rw [show s.world.dev.core c = s.dev.core c from rfl, at0]
    dsimp only
    rw [show s.world.dev.seam c = s.dev.seam c from rfl, free, kept]
    rw [if_neg Bool.false_ne_true, if_neg Bool.false_ne_true, whole, access]
  · rw [answered]
    exact (within_onCore (f := retiredCore p.ahead) (within_onCore (f := answeredCore p _) reached fun _ => rfl) fun _ => rfl).2
  · rw [answered, stateOf_dev, ← bytes_within waited]
    refine (core_onCore_self _ _ _).trans (congrArg _ ((core_onCore_self _ _ _).trans (congrArg _ core2)))

/-- What a response writes. -/
theorem put_reads (x : Arch) (o : LoadOp) (v : Word64) :
    (∀ r, (x.put o v).rdG r = if o.isF = false ∧ r = o.rd ∧ r ≠ 0 then v else x.rdG r) ∧
    (∀ r, (x.put o v).rdF r = if o.isF = true ∧ r = o.rd then v else x.rdF r) ∧
    (x.put o v).cr = x.cr ∧ (x.put o v).crw = x.crw ∧ (x.put o v).pc = x.pc := by
  cases kind : o.isF with
  | false =>
    have e : x.put o v = x.wrG o.rd v := by rw [Arch.put, kind]; rfl
    obtain ⟨f, cr, crw, pc⟩ := wrG_keeps x o.rd v
    rw [e]
    refine ⟨fun r => by rw [rdG_wrG]; simp, fun r => ?_, cr, crw, pc⟩
    rw [Arch.rdF, f, if_neg (by simp)]
    rfl
  | true =>
    have e : x.put o v = x.wrF o.rd v := by rw [Arch.put, kind]; rfl
    rw [e]
    exact ⟨fun r => by rw [if_neg (by simp)]; rfl, fun r => by rw [rdF_wrF]; simp, rfl, rfl, rfl⟩

/-- The value of a load of a hob, by its sign. -/
theorem value_hobWord {o : LoadOp} (size : o.size = 1 ∨ o.size = 2 ∨ o.size = 4 ∨ o.size = 8) :
    o.value (s.world.bytes o.addr.toNat o.size) =
      if o.signed then (BitVec.ofNat (8 * o.size) (hobWord s o.addr.toNat o.size)).signExtend 64
      else BitVec.ofNat 64 (hobWord s o.addr.toNat o.size) := by
  cases signed : o.signed with
  | true => exact value_signed signed length_bytes size
  | false => exact value_unsigned _ signed

/-- Settles O7: the oldest store, an atomic and a pending load go through `perform` of a hob that they reach. -/
theorem accessesReachTheHob : Obligations.AccessesReachTheHob := by
  refine ⟨fun s c link stall e r sb whole may voted reach => storeAccept_reaches sb whole may voted reach,
    fun s c rd ra rb fn wait => ?_, fun s c link stall p => ?_⟩
  · intro x a n old o drained empty known aligned may
    refine ⟨fun granted reach => atomic_now rfl drained empty known aligned may granted reach, fun later => ?_⟩
    obtain ⟨t, ran, pends⟩ := startLoad_pends (beats := 5) later
    exact ⟨t, (atomic_starts rfl drained empty known aligned may).trans ran, pends⟩
  · intro a q v x pend plain unanswered kept held size aligned first voted runs steady reach
    obtain ⟨t, ran, reads, core⟩ := loadResponse_answers (link := link) (stall := stall) pend plain unanswered kept held aligned first voted runs steady reach
    rw [value_hobWord size] at core
    obtain ⟨g, f, cr, crw, pc⟩ := put_reads (archOf s c) p.op x
    have arch : archOf t c = (archOf s c).put p.op x := by rw [archOf, core]; rfl
    rw [← arch] at g f cr crw pc
    exact ⟨t, ran, reads, by rw [core]; rfl, by rw [core]; rfl, g, f, cr, crw, pc, by rw [core]; rfl⟩

end Sys2Proof.Proofs
end

section
/-! O21: the vote of a seam (R88 to R94, R97). -/

namespace Sys2Proof.Proofs

open Machine Laws

set_option Elab.async false

variable {s t : State} {c : CoreId} {w : W} {τ : Type} [DecidableEq τ]

/-- A token passes the positions that have one of its slot. -/
theorem addToken_passes {n i : Nat} {tok : τ} {opens room : Bool} {pre rest : List (Pos τ)}
    (have' : ∀ p ∈ pre, ∃ y ∈ p.toks, y.1 = i) :
    addToken n i tok opens room (pre ++ rest) = (addToken n i tok opens room rest).map fun r => (pre ++ r.1, r.2) := by
  induction pre with
  | nil =>
    rw [List.nil_append]
    cases addToken n i tok opens room rest <;> rfl
  | cons p pre ih =>
    obtain ⟨y, mem, slot⟩ := have' p List.mem_cons_self
    have there : p.toks.any (fun x => x.1 == i) = true := List.any_eq_true.mpr ⟨y, mem, beq_iff_eq.mpr slot⟩
    rw [List.cons_append, addToken, if_pos there, ih fun q mem => have' q (List.mem_cons_of_mem _ mem), Option.map_map]
    rfl

/-- A token joins the oldest position that has none of its slot. -/
theorem addToken_joins {n i : Nat} {tok : τ} {opens room : Bool} {pre qs : List (Pos τ)} {p q : Pos τ} {v : Verdict}
    (have' : ∀ p ∈ pre, ∃ y ∈ p.toks, y.1 = i) (lacks : ∀ y ∈ p.toks, y.1 ≠ i)
    (free : ¬ (room = false ∧ n = 3 ∧ p.accepted.isNone ∧ p.toks.map (·.2) = [tok]))
    (vote : Pos.vote n { p with toks := p.toks ++ [(i, tok)] } = (q, v)) :
    addToken n i tok opens room (pre ++ p :: qs) = some (if v = .done then pre ++ qs else pre ++ q :: qs, v) := by
  have none : ¬ p.toks.any (fun x => x.1 == i) = true := fun any => by
    obtain ⟨y, mem, slot⟩ := List.any_eq_true.mp any
    exact lacks y mem (beq_iff_eq.mp slot)
  rw [addToken_passes have', addToken, if_neg none, if_neg free, vote]
  cases v <;> rfl

/-- COMMIT_TOKEN and REQUEST_TOKEN in one. -/
def tokenRow (c : CoreId) (i : Nat) (tok : τ) (ps : List (Pos τ)) (put : List (Pos τ) → Dev → Dev) (cause : BitVec 3) (w : W) : W :=
  if w.votesIn c i then
    match addToken (w.dev.seam c).filled.length i tok ((w.dev.seam c).room && (w.dev.seam c).rethread.isNone) (w.dev.seam c).room ps with
    | some (ps, v) => (w.upd (put ps)).verdict c v cause
    | none => w.voteWait c
  else w

section
variable {i : Nat} {tok : τ} {ps : List (Pos τ)} {put : List (Pos τ) → Dev → Dev} {cause : BitVec 3}

theorem votesIn_iff : s.world.votesIn c i = true ↔
    (s.dev.seam c).shown ≠ .halted ∧ ∃ l, (s.dev.seam c).at i = some l ∧ (s.world.laneAt (unitOf c) l).st = .active := by
  rw [W.votesIn, Bool.and_eq_true, bne_iff_ne]
  refine and_congr_right fun _ => ?_
  rw [show s.world.dev.seam c = s.dev.seam c from rfl]
  cases (s.dev.seam c).at i with
  | none => exact ⟨fun h => absurd h Bool.false_ne_true, fun ⟨l, h, _⟩ => nomatch h⟩
  | some l => exact ⟨fun h => ⟨l, rfl, beq_iff_eq.mp h⟩, fun ⟨k, h, st⟩ => by cases h; exact beq_iff_eq.mpr st⟩

theorem tokenRow_idle (h : s.world.votesIn c i = false) : run s (tokenRow c i tok ps put cause) = .next (stateOf s s.world) := by
  refine congrArg (fun v : W => Host.Outcome.next (stateOf s v)) ?_
  rw [tokenRow, h]
  rfl

theorem tokenRow_joins (h : s.world.votesIn c i = true) {qs : List (Pos τ)} {v : Verdict}
    (add : addToken (s.dev.seam c).filled.length i tok ((s.dev.seam c).room && (s.dev.seam c).rethread.isNone) (s.dev.seam c).room ps =
      some (qs, v)) :
    run s (tokenRow c i tok ps put cause) = .next (stateOf s ((s.world.upd (put qs)).verdict c v cause)) := by
  refine congrArg (fun v : W => Host.Outcome.next (stateOf s v)) ?_
  rw [tokenRow, if_pos h, show s.world.dev.seam c = s.dev.seam c from rfl, add]

theorem tokenRow_waits (h : s.world.votesIn c i = true)
    (add : addToken (s.dev.seam c).filled.length i tok ((s.dev.seam c).room && (s.dev.seam c).rethread.isNone) (s.dev.seam c).room ps =
      none) :
    run s (tokenRow c i tok ps put cause) = .next (stateOf s (s.world.voteWait c)) := by
  refine congrArg (fun v : W => Host.Outcome.next (stateOf s v)) ?_
  rw [tokenRow, if_pos h, show s.world.dev.seam c = s.dev.seam c from rfl, add]

end

section
variable {p : Pos τ} {n i j k : Nat} {a b tok : τ}

theorem vote_opens (toks : p.toks = []) (acc : p.accepted = none) :
    Pos.vote n { p with toks := p.toks ++ [(i, tok)] } = ({ p with toks := p.toks ++ [(i, tok)] }, .keep) := by
  rw [toks, acc]
  rfl

theorem vote_agrees (toks : p.toks = [(j, tok)]) (acc : p.accepted = none) :
    Pos.vote n { p with toks := p.toks ++ [(i, tok)] } =
      ({ toks := p.toks ++ [(i, tok)], accepted := some tok }, if n = 2 then .done else .keep) := by
  rw [toks, acc]
  exact if_pos rfl

theorem vote_differs (toks : p.toks = [(j, a)]) (acc : p.accepted = none) (ne : a ≠ tok) :
    Pos.vote n { p with toks := p.toks ++ [(i, tok)] } =
      ({ p with toks := p.toks ++ [(i, tok)] }, if n = 2 then .halt 1 else .keep) := by
  rw [toks, acc]
  exact if_neg ne

theorem vote_third (toks : p.toks = [(j, a), (k, b)]) (acc : p.accepted = none) (_differ : a ≠ b) :
    Pos.vote n { p with toks := p.toks ++ [(i, tok)] } =
      if tok = a then ({ toks := p.toks ++ [(i, tok)], accepted := some tok }, .fence k)
      else if tok = b then ({ toks := p.toks ++ [(i, tok)], accepted := some tok }, .fence j)
      else ({ p with toks := p.toks ++ [(i, tok)] }, .halt 2) := by
  rw [toks, acc]
  rfl

theorem vote_last (toks : p.toks = [(j, a), (k, a)]) (acc : p.accepted = some a) (three : n = 3) :
    Pos.vote n { p with toks := p.toks ++ [(i, tok)] } =
      if tok = a then ({ p with toks := p.toks ++ [(i, tok)] }, .done) else ({ p with toks := p.toks ++ [(i, tok)] }, .fence i) := by
  subst three
  rw [toks, acc]
  by_cases same : tok = a <;> simp [Pos.vote, same]

end

theorem commitToken_row {slot : Slot} {tok : LaneCommit} : exec (.commitToken c slot tok) s =
    run s (tokenRow c (slotNo slot) (commitToken tok) (s.dev.seam c).commits (fun qs d => d.onSeam c fun x => { x with commits := qs }) 1) := by
  refine congrArg (fun v : W => Host.Outcome.next (stateOf s v)) ?_
  rw [tokenRow]
  dsimp only
  rw [show s.dev.seam c = s.world.dev.seam c from rfl]
  generalize addToken (τ := CommitTok) _ _ _ _ _ _ = o
  cases o <;> rfl

theorem requestToken_row {slot : Slot} {req : LaneRequest} : exec (.requestToken c slot req) s =
    run s (tokenRow c (slotNo slot) (requestToken req) (s.dev.seam c).requests (fun qs d => d.onSeam c fun x => { x with requests := qs }) 3) := by
  refine congrArg (fun v : W => Host.Outcome.next (stateOf s v)) ?_
  rw [tokenRow]
  dsimp only
  rw [show s.dev.seam c = s.world.dev.seam c from rfl]
  generalize addToken (τ := RequestTok) _ _ _ _ _ _ = o
  cases o <;> rfl

/-- Settles O21: every case of the rules is one verdict of `Pos.vote` at the oldest position that lacks the slot. -/
theorem seamVote : Obligations.SeamVote := by
  intro s c slot tok req x i n votes lane waits rules
  have hold : ∀ {τ : Type} [DecidableEq τ] (t : τ) (ps : List (Pos τ)) (row : Instr) (put : List (Pos τ) → Dev → Dev) (cause : BitVec 3),
      exec row s = run s (tokenRow c i t ps put cause) → rules t ps row put cause := by
    intro τ _ t ps row put cause ran
    have joins : ∀ {qs : List (Pos τ)} {v : Verdict}, votes → addToken n i t (x.room && x.rethread.isNone) x.room ps = some (qs, v) →
        Answers row s (Leaves s · fun w => (w.upd (put qs)).verdict c v cause) := fun voting add =>
      ⟨_, ran.trans (tokenRow_joins (votesIn_iff.mpr voting) add), rfl⟩
    have waiting : votes → addToken n i t (x.room && x.rethread.isNone) x.room ps = none → waits row := fun voting add =>
      ⟨_, ran.trans (tokenRow_waits (votesIn_iff.mpr voting) add), rfl⟩
    refine ⟨fun idle => ⟨_, ran.trans (tokenRow_idle (Bool.eq_false_iff.mpr fun h => idle (votesIn_iff.mp h))), rfl⟩,
      fun voting all => ?_, fun pre p qs voting split have' lacks => ?_⟩
    · have passed := addToken_passes (n := n) (tok := t) (opens := x.room && x.rethread.isNone) (room := x.room) (rest := []) all
      rw [List.append_nil] at passed
      split
      · next opens =>
        refine joins (qs := ps ++ [{ toks := [(i, t)] }]) (v := .keep) voting (passed.trans ?_)
        rw [addToken, opens.1, opens.2]
        rfl
      · next shut =>
        refine waiting voting (passed.trans ?_)
        have closed : (x.room && x.rethread.isNone) = false := by
          rw [Bool.and_eq_false_iff, ← Bool.not_eq_true, ← Bool.not_eq_true, Option.isNone_iff_eq_none]
          exact not_and_or.mp shut
        rw [addToken, closed]
        rfl
    · subst split
      have add := fun {q : Pos τ} {v : Verdict} => addToken_joins (n := n) (tok := t) (opens := x.room && x.rethread.isNone) (room := x.room)
        (qs := qs) (q := q) (v := v) have' lacks
      intro p'
      refine ⟨fun toks acc => ?_, fun j a toks acc => ⟨fun same => ?_, fun ne three => ?_, fun ne two => ?_⟩,
        fun j k a b toks acc differ => ⟨fun same => ?_, fun same => ?_, fun na nb => ?_⟩,
        fun j k a toks acc three => ⟨fun same => ?_, fun ne => ?_⟩⟩
      · exact joins voting (add (fun full => by simp [toks] at full) (vote_opens toks acc))
      · subst same
        have agreed := vote_agrees (n := n) (i := i) toks acc
        split
        · next two =>
          rw [if_pos two] at agreed
          exact joins voting (add (fun full => by omega) agreed)
        · next ne =>
          rw [if_neg ne] at agreed
          split
          · next full =>
            refine waiting voting ((addToken_passes have').trans ?_)
            have none : ¬ p.toks.any (fun y => y.1 == i) = true := fun any => by
              obtain ⟨y, mem, at'⟩ := List.any_eq_true.mp any
              exact lacks y mem (beq_iff_eq.mp at')
            rw [addToken, if_neg none, if_pos ⟨full.2, full.1, by rw [acc]; rfl, by rw [toks]; rfl⟩]
            rfl
          · next room => exact joins voting (add (fun full => room ⟨full.2.1, full.1⟩) agreed)
      · exact joins voting (add (fun full => by simp [toks, ne] at full) ((vote_differs toks acc ne).trans (by rw [if_neg three])))
      · exact joins voting (add (fun full => by simp [toks, ne] at full) ((vote_differs toks acc ne).trans (by rw [if_pos two])))
      · exact joins voting (add (fun full => by simp [toks] at full) ((vote_third toks acc differ).trans (by rw [if_pos same])))
      · exact joins voting (add (fun full => by simp [toks] at full)
          ((vote_third toks acc differ).trans (by rw [if_neg fun e => differ (e.symm.trans same), if_pos same])))
      · exact joins voting (add (fun full => by simp [toks] at full) ((vote_third toks acc differ).trans (by rw [if_neg na, if_neg nb])))
      · exact joins voting (add (fun full => by simp [toks] at full) ((vote_last toks acc three).trans (by rw [if_pos same])))
      · exact joins voting (add (fun full => by simp [toks] at full) ((vote_last toks acc three).trans (by rw [if_neg ne])))
  exact ⟨hold (commitToken tok) x.commits (.commitToken c slot tok) (fun qs d => d.onSeam c fun x => { x with commits := qs }) 1 commitToken_row,
    hold (requestToken req) x.requests (.requestToken c slot req) (fun qs d => d.onSeam c fun x => { x with requests := qs }) 3 requestToken_row⟩

end Sys2Proof.Proofs
end

section
/-! O58: the instants and the mismatches of the damper channels (R275 to R280), and CH_CMD (R278, R279, R305). -/

namespace Sys2Proof.Proofs

open Machine Laws

set_option Elab.async false

variable {s t : State} {w w' : W}

/-! A channel in FAULT stays as it is through the reactions to an event. -/

/-- Channel `n`, if it is in FAULT, does not change. -/
@[irreducible] def FaultStays (n : Nat) (w w' : W) : Prop := (w.dev.damper n).st = .fault → w'.dev.damper n = w.dev.damper n

section
variable {n : Nat}

theorem faultStays_iff : FaultStays n w w' ↔ ((w.dev.damper n).st = .fault → w'.dev.damper n = w.dev.damper n) := by rw [FaultStays]

theorem FaultStays.same (h : w'.dev.dampers = w.dev.dampers) : FaultStays n w w' :=
  faultStays_iff.mpr fun _ => by rw [Dev.damper, h, Dev.damper]

theorem FaultStays.refl : FaultStays n w w := .same rfl

theorem FaultStays.trans {a b c : W} (h : FaultStays n a b) (k : FaultStays n b c) : FaultStays n a c := by
  rw [faultStays_iff] at h k ⊢
  intro fault
  have same := h fault
  exact (k (by rw [same]; exact fault)).trans same

theorem FaultStays.upd {a w : W} {f : Dev → Dev} (h : FaultStays n a w) (same : (f w.dev).dampers = w.dev.dampers := by rfl) :
    FaultStays n a (w.upd f) := h.trans (.same same)

theorem FaultStays.ite {a b c : W} {p : Prop} [Decidable p] (h : FaultStays n a b) (k : FaultStays n a c) :
    FaultStays n a (if p then b else c) := by
  split <;> assumption

theorem FaultStays.each {α : Type} {xs : List α} {f : α → W → W} (h : ∀ x w, FaultStays n w (f x w)) : FaultStays n w (w.each xs f) := by
  induction xs generalizing w with
  | nil => exact .refl
  | cons x xs ih => exact (h x w).trans ih

theorem FaultStays.sameCh (h : SameCh w w') : FaultStays n w w' := .same (chs_iff.mp (sameCh_iff.mp h).1).1

theorem faultStays_forceCh {k : Nat} : FaultStays n w (w.forceCh k) := by
  rw [faultStays_iff]
  intro fault
  rw [W.forceCh]
  dsimp only
  split
  · rfl
  · next out =>
    refine (damper_onDamper _ _ _ _).trans (if_neg ?_)
    rintro rfl
    exact out (.inl fault)

theorem faultStays_restartOut {h : Nat} : FaultStays n w (w.restartOut h) := .sameCh (sameCh_restartOut _ _)

theorem faultStays_hearthSafe {k h : Nat} : FaultStays n w (w.hearthSafe k h) :=
  (FaultStays.refl.upd.trans faultStays_restartOut).trans (.each fun _ _ => faultStays_forceCh)

theorem faultStays_selectGroup {k h g : Nat} : FaultStays n w (w.selectGroup k h g) :=
  (FaultStays.refl.upd.trans faultStays_restartOut).trans (.each fun _ _ => .ite faultStays_forceCh .refl)

theorem faultStays_enterSafe : FaultStays n w w.enterSafe.2 := by
  unfold W.enterSafe
  split
  · exact .refl
  · dsimp only
    refine .trans ?_ (.sameCh (sameCh_startCores _))
    have stamped : FaultStays n w ((w.cutoverSafe.2.upd fun d => { d with
        sys := { d.sys with dozeArmed := false },
        flue := { d.flue with
          retMode := if w.dev.sys.mode.running then 4 else if w.dev.sys.mode = .quiet then d.flue.retMode else 3,
          tripSet := [] },
        chim := { d.chim with safeMark := d.chim.safeMark || d.chim.pos == 0 },
        stoker := { d.stoker with serving := !d.stoker.restarting } }).stampMode .safe) :=
      FaultStays.upd (.upd (.sameCh (sameCh_cutoverSafe w)))
    exact stamped.trans (.ite (.sameCh (sameCh_dozeUp _)) .refl)

theorem dampers_foldl_onBlw {hs : List Nat} {f : Bellows → Bellows} {d : Dev} :
    (hs.foldl (fun d h => d.onBlw h f) d).dampers = d.dampers := by
  induction hs generalizing d with
  | nil => rfl
  | cons h hs ih => exact ih

theorem faultStays_deviceSafe {k : Nat} : FaultStays n w (w.deviceSafe k).2 := by
  unfold W.deviceSafe
  dsimp only
  refine .trans ?_ (.each fun _ _ => faultStays_forceCh)
  refine .trans ?_ (.each fun _ _ => faultStays_restartOut)
  refine .upd ?_ dampers_foldl_onBlw
  split
  · exact faultStays_enterSafe
  · exact .refl

theorem faultStays_react {k : Nat} {r : Rec} {grp : List Nat} : FaultStays n w (w.react k r grp).2 := by
  unfold W.react
  extract_lets h w1 w2 w3 w4 w5 w6 w7
  have reactions : FaultStays n w w7 :=
    FaultStays.ite (.sameCh (sameCh_history _ _)) .refl |>.trans (.sameCh (sameCh_trace w1 r))
      |>.trans (.ite (.sameCh (sameCh_cutFail _ _ _)) .refl) |>.trans (.ite (.upd .refl) .refl)
      |>.trans (.ite faultStays_hearthSafe .refl) |>.trans (.ite (.each fun _ _ => faultStays_selectGroup) .refl)
      |>.trans (.ite (.sameCh (sameCh_errAssert _)) .refl)
  refine reactions.trans ?_
  split
  · exact faultStays_deviceSafe
  · split
    · exact faultStays_enterSafe
    · exact .refl

theorem faultStays_noteEvent {k : Nat} {level : Bool} {r : Rec} : FaultStays n w (w.noteEvent k level r) :=
  FaultStays.refl.upd.trans (.ite (.upd .refl) .refl)

theorem faultStays_event {k : Nat} {d0 d1 : Word32} {test : Bool} {grp : List Nat} : FaultStays n w (w.event k d0 d1 test grp).2 := by
  unfold W.event
  split
  · exact .refl
  · exact faultStays_noteEvent.trans faultStays_react

theorem faultStays_fellBack {x : Bool × W} : FaultStays n x.2 (W.fellBack x) := .ite faultStays_event .refl

theorem faultStays_poolCheck : FaultStays n w w.poolCheck :=
  .ite faultStays_event (.ite (FaultStays.refl.upd.trans (.sameCh (sameCh_errAuto _))) .refl)

theorem faultStays_drainOnce : FaultStays n w w.drainOnce :=
  .trans (b := { w with due := [] }) (.same rfl) (.each fun _ _ => .ite .refl (faultStays_event.trans faultStays_fellBack))

theorem faultStays_followUp {x : Bool × W} : FaultStays n x.2 (W.followUp x) :=
  faultStays_fellBack.trans ((faultStays_drainOnce.trans faultStays_drainOnce).trans faultStays_poolCheck)

theorem faultStays_level {k : Nat} {d0 d1 : Word32} : FaultStays n w (w.level k d0 d1) :=
  .ite .refl (faultStays_event.trans faultStays_followUp)

end

/-! Two sources at one instant (R274). -/

/-- What follows detections leaves every plain source as it is. -/
theorem src_followUp {x : Bool × W} {n : Nat} (plain : Plain n) (due : ∀ e ∈ x.2.due, Noted e.1) :
    (W.followUp x).dev.src n = x.2.dev.src n := by
  obtain ⟨pool, fell, noted⟩ := plain
  have e2 := spares_fellBack x n fell
  have e3 := spares_drainOnce _ n fell noted fun e mem => (e2.2 e mem).elim (due e) id
  have e4 := spares_drainOnce _ n fell noted e3.2
  rw [W.followUp, W.settle, W.drainDue, src_poolCheck _ _ pool, e4.1, e3.1, e2.1]

/-- One of two sources that are detected at one instant. -/
def detectOne (x : Bool × W) (n : Nat) (r : Rec) : Bool × W :=
  if x.2.stands n then x
  else (x.1 || ((x.2.noteEvent n ((x.2.source n).any (·.level)) r).react n r []).1,
    ((x.2.noteEvent n ((x.2.source n).any (·.level)) r).react n r []).2)

theorem raiseTwo_eq {a b : Nat} {da db : Word32} :
    w.raiseTwo a b da db = W.followUp (detectOne (detectOne (false, w) a (w.eventRec a da 0 false)) b (w.eventRec b db 0 false)) := rfl

theorem steady_noteReact {n : Nat} {level : Bool} {r : Rec} (k : Nat) :
    ((w.noteEvent n level r).react n r []).2.dev.src k = if k = n then (w.dev.src n).after level r else w.dev.src k := by
  rw [steady_src (steady_react _ _ _ _), src_noteEvent]

theorem src_detectOne {x : Bool × W} {n : Nat} {r : Rec} (k : Nat) :
    (detectOne x n r).2.dev.src k =
      if k = n ∧ x.2.stands n = false then (x.2.dev.src n).after ((x.2.source n).any (·.level)) r else x.2.dev.src k := by
  rw [detectOne]
  by_cases stands : x.2.stands n = true
  · rw [if_pos stands, if_neg fun h => Bool.false_ne_true (h.2.symm.trans stands)]
  · rw [if_neg stands]
    refine (steady_noteReact k).trans ?_
    by_cases same : k = n
    · rw [if_pos same, if_pos ⟨same, Bool.eq_false_iff.mpr stands⟩]
    · rw [if_neg same, if_neg fun h => same h.1]

theorem due_noteEvent {n : Nat} {level : Bool} {r : Rec} : (w.noteEvent n level r).due = w.due := by
  rw [W.noteEvent]
  dsimp only
  split <;> rfl

theorem due_detectOne {x : Bool × W} {n : Nat} {r : Rec} (due : ∀ e ∈ x.2.due, Noted e.1) : ∀ e ∈ (detectOne x n r).2.due, Noted e.1 := by
  rw [detectOne]
  split
  · exact due
  · intro e mem
    refine ((steady_react _ _ _ _).2.2 e mem).elim (fun old => due e ?_) id
    rwa [due_noteEvent] at old

theorem kept_detectOne {x : Bool × W} {n : Nat} {r : Rec} : Kept x.2 (detectOne x n r).2 := by
  rw [detectOne]
  split
  · exact .refl _
  · exact (kept_noteEvent _ _ _ _).trans (steady_react _ _ _ _).kept

theorem kept_raiseTwo {a b : Nat} {da db : Word32} : Kept w (w.raiseTwo a b da db) := by
  rw [raiseTwo_eq]
  exact (kept_detectOne.trans kept_detectOne).trans (kept_followUp _)

theorem faultStays_detectOne {n k : Nat} {x : Bool × W} {r : Rec} : FaultStays n x.2 (detectOne x k r).2 := by
  rw [detectOne]
  split
  · exact .refl
  · exact faultStays_noteEvent.trans faultStays_react

theorem faultStays_raiseTwo {n a b : Nat} {da db : Word32} : FaultStays n w (w.raiseTwo a b da db) := by
  rw [raiseTwo_eq]
  exact (faultStays_detectOne (x := (false, w)).trans faultStays_detectOne).trans faultStays_followUp

/-- What no event changes keeps the sources of the device. -/
theorem source_kept (h : Kept w w') (n : Nat) : w'.source n = w.source n := by
  obtain ⟨dev, fuse⟩ := h
  have pos : w'.dev.chim.pos = w.dev.chim.pos := congrArg (fun d => d.chim.pos) dev
  have members : w'.dev.chim.members = w.dev.chim.members := congrArg (fun d => d.chim.members) dev
  rw [W.source, W.source, W.srcView, W.srcView, fuse, pos, members]

/-- Two sources detected at one instant: an event source, and a level source. -/
theorem detected_raiseTwo {a b : Nat} {da db : Word32} {rowA rowB : SrcRow} (h : Quiescent s w) (ne : a ≠ b) (plainA : Plain a) (plainB : Plain b)
    (foundA : s.world.source a = some rowA) (foundB : s.world.source b = some rowB) (event : rowA.level = false) (level : rowB.level = true) :
    Detected s (stateOf s (w.raiseTwo a b da db)) a da 0 w.dev.clock.tb ∧
    LevelDetected s (stateOf s (w.raiseTwo a b da db)) b db 0 w.dev.clock.tb := by
  have src : ∀ n, w.dev.src n = s.dev.src n := fun n => by rw [Dev.src, Dev.src, h.srcs]
  have sourceA : w.source a = some rowA := (source_congr (w := s.world) h.fuse h.chim a).trans foundA
  have due : ∀ e ∈ w.due, Noted e.1 := fun e mem => by rw [h.due] at mem; cases mem
  have due1 := due_detectOne (x := (false, w)) (n := a) (r := w.eventRec a da 0 false) due
  have due2 := due_detectOne (n := b) (r := w.eventRec b db 0 false) due1
  have standsA : w.stands a = false := by rw [W.stands, sourceA, Option.any_some, event, Bool.false_and]
  have kept1 := kept_detectOne (x := (false, w)) (n := a) (r := w.eventRec a da 0 false)
  have first := fun k => src_detectOne (x := (false, w)) (n := a) (r := w.eventRec a da 0 false) k
  rw [raiseTwo_eq]
  have second := fun k => src_detectOne (x := detectOne (false, w) a (w.eventRec a da 0 false)) (n := b) (r := w.eventRec b db 0 false) k
  generalize detectOne (false, w) a (w.eventRec a da 0 false) = x1 at due1 due2 kept1 first second
  have sourceB : x1.2.source b = some rowB := (source_kept kept1 b).trans ((source_congr (w := s.world) h.fuse h.chim b).trans foundB)
  have active : x1.2.active b = s.world.active b := by
    rw [W.active, first b, if_neg fun e => ne e.1.symm]
    exact congrArg Src.active (src b)
  have standsB : x1.2.stands b = s.world.active b := by rw [W.stands, sourceB, Option.any_some, level, Bool.true_and, active]
  have told : ∀ (k : Nat) (d0 : Word32), w.eventRec k d0 0 false = eventOf s k d0 0 w.dev.clock.tb := fun k d0 =>
    eventRec_congr (w := s.world) h.fuse h.chim h.regs h.mode
  generalize followed : detectOne x1 b (w.eventRec b db 0 false) = x2 at due2 second
  refine ⟨⟨rowA, foundA, ?_⟩, ?_⟩
  · rw [stateOf_dev]
    refine (src_followUp plainA due2).trans ((second a).trans ((if_neg fun e => ne e.1).trans ((first a).trans ?_)))
    rw [if_pos ⟨rfl, standsA⟩, ← told, ← src]
    show ((w.dev.src a).after ((w.source a).any (·.level)) _) = _
    rw [sourceA, Option.any_some]
  · have srcB := (src_followUp plainB due2).trans (second b)
    rw [standsB] at srcB
    have before : x1.2.dev.src b = s.dev.src b := (first b).trans ((if_neg fun e => ne e.1.symm).trans (src b))
    rw [LevelDetected, Detected, stateOf_dev]
    split
    · next on => exact srcB.trans ((if_neg fun e => Bool.false_ne_true (e.2.symm.trans on)).trans before)
    · next off =>
      refine ⟨rowB, foundB, srcB.trans ?_⟩
      rw [if_pos ⟨rfl, Bool.eq_false_iff.mpr off⟩, before, sourceB, Option.any_some, told]

end Sys2Proof.Proofs
end

section
/-! O58, the rules of its rows: a register write that reaches its register, and steps over damper channels. -/

namespace Sys2Proof.Proofs

open Machine Laws

set_option Elab.async false

variable {s t : State} {w v : W} {m : Rid}

/-! A write that reaches its register (R30, R80, R83, R177 to R180). -/

theorem fwWrite_passes {a : Nat}
    (admits : w.fwAdmits (fwUnitOf a) ((a % 2 ^ 48 - fwBase (fwUnitOf a)) / 256) m .write = true)
    (own : m = w.stokerRid ∨ ¬ (0x200A1000 ≤ a ∧ a < 0x200A5000 ∧ ((a - 0x200A1000) / 0x400 = 5 ∨ (a - 0x200A1000) / 0x400 = 6) ∧
      0x100 ≤ (a - 0x200A1000) % 0x400 ∧ (a - 0x200A1000) % 0x400 < 0x300)) :
    w.fwWrite m a = (true, w) := by
  have same : a - 0x200A0000 - 0x1000 = a - 0x200A1000 := by omega
  rw [W.fwWrite, same, if_neg, W.fwCheck, BitVec.toNat_ofNat, if_pos admits]
  rintro ⟨lo, hi, unit, low, high, ne⟩
  exact own.elim ne fun h => h ⟨lo, hi, unit, low, high⟩

/-- A write that reaches its register does what the register's action does (R30). -/
theorem writeRow_reaches {typ inst o : Nat} {x : Word32} {act : W → W} (h : WriteReaches s m typ inst o x w) :
    s.world.writeRow m typ inst o x act = (act w).answer .done := by
  obtain ⟨on, -, fused, admits, may⟩ := h
  have passes : s.world.fwWrite m (blockBase typ inst + o) = (true, s.world) :=
    fwWrite_passes admits (may.imp And.left fun h => h.2.1)
  have writes : s.world.mayWrite m typ inst o x = (true, w) := by
    rw [W.mayWrite]
    dsimp only
    rcases may with ⟨stoker, rfl⟩ | ⟨other, -, free, reach⟩
    · rw [if_pos stoker]
    · rw [if_neg other, if_neg]
      · rcases reach with ⟨app, rfl⟩ | ⟨noApp, room, g, grant, rfl⟩
        · rw [if_pos app]
        · rw [if_neg (by rw [noApp]; exact Bool.false_ne_true), grant]
          dsimp only
          rw [if_neg (by rw [room]; exact Bool.false_ne_true)]
      · intro claimed
        rw [Bool.and_eq_true, Bool.or_eq_true, Bool.or_eq_true, beq_iff_eq, beq_iff_eq, or_assoc] at claimed
        exact free claimed
  rw [W.writeRow, W.powered, if_neg (show s.world.dev.sys.mode ≠ .off from on)]
  dsimp only
  rw [fused, if_neg Bool.false_ne_true, passes]
  dsimp only
  rw [if_pos rfl, writes]
  dsimp only
  rw [if_pos rfl]

theorem writeRow_written {typ inst o : Nat} {x : Word32} {act : W → W} (h : WriteReaches s m typ inst o x w) :
    run s (fun w => w.writeRow m typ inst o x act) = .next (stateOf s ((act w).answer .done)) :=
  congrArg (fun v : W => Host.Outcome.next (stateOf s v)) (writeRow_reaches h)

/-! Operations on damper channels alone. -/

/-- World `v` is `w` but for the damper channels, which are those of `f`. -/
def OnDampers (w v : W) (f : Nat → Damper) : Prop := v = { w with dev := { w.dev with dampers := v.dev.dampers } } ∧ ∀ k, v.dev.damper k = f k

theorem onDampers_refl : OnDampers w w w.dev.damper := ⟨rfl, fun _ => rfl⟩

theorem onDampers_onDamper {f : Nat → Damper} (h : OnDampers w v f) (n : Nat) (g : Damper → Damper) :
    OnDampers w (v.upd fun d => d.onDamper n g) fun k => if k = n then g (f n) else f k := by
  obtain ⟨same, at'⟩ := h
  refine ⟨?_, fun k => ?_⟩
  · conv_lhs => rw [same]
    rfl
  · refine (damper_onDamper _ _ _ _).trans ?_
    rw [at', at']

theorem onDampers_stays {f : Nat → Damper} (h : OnDampers w v f) {n : Nat} {g : Damper → Damper} (stays : g (f n) = f n) :
    OnDampers w v fun k => if k = n then g (f n) else f k := by
  refine ⟨h.1, fun k => (h.2 k).trans ?_⟩
  dsimp only
  split
  · next e => rw [e, stays]
  · rfl

/-- One step for each channel of a list. -/
theorem onDampers_each {ks : List Nat} {step : Nat → W → W} {g : Nat → Damper → Damper}
    (one : ∀ n v f, OnDampers w v f → OnDampers w (step n v) fun k => if k = n then g n (f n) else f k) {f : Nat → Damper}
    (h : OnDampers w v f) (once : ks.Nodup) : OnDampers w (v.each ks step) fun k => if k ∈ ks then g k (f k) else f k := by
  induction ks generalizing v f with
  | nil => exact ⟨h.1, fun k => (h.2 k).trans (if_neg List.not_mem_nil).symm⟩
  | cons n ks ih =>
    obtain ⟨out, once⟩ := List.nodup_cons.mp once
    obtain ⟨same, at'⟩ := ih (one n v f h) once
    refine ⟨same, fun k => (at' k).trans ?_⟩
    dsimp only
    by_cases first : k = n
    · subst first
      rw [if_neg out, if_pos rfl, if_pos List.mem_cons_self]
    · rw [if_neg first]
      exact if_congr ((List.mem_cons.trans (or_iff_right first)).symm) rfl rfl

/-- What the operations on the channels read. -/
theorem onDampers_reads {f : Nat → Damper} (h : OnDampers w v f) : v.dev.clock = w.dev.clock ∧ v.dev.flue = w.dev.flue ∧ v.dev.sys = w.dev.sys ∧
    ∀ typ inst o, v.reg typ inst o = w.reg typ inst o := by
  have same := h.1
  have fuse : v.fuse = w.fuse := by rw [same]
  have chim : v.dev.chim = w.dev.chim := by rw [same]
  have regs : v.dev.regs = w.dev.regs := by rw [same]
  refine ⟨by rw [same], by rw [same], by rw [same], fun typ inst o => reg_congr fuse chim typ inst o fun _ => by rw [regs]⟩

/-! The channels of a page. -/

theorem mem_pageChs {h mask n : Nat} : n ∈ pageChs h mask ↔ n / 4 = h ∧ mask.testBit (n % 4) = true := by
  rw [pageChs, List.mem_map]
  constructor
  · rintro ⟨i, mem, rfl⟩
    rw [bitsOf, List.mem_filter, List.mem_range] at mem
    rw [show (4 * h + i) / 4 = h by omega, show (4 * h + i) % 4 = i by omega]
    exact ⟨rfl, mem.2⟩
  · rintro ⟨page, bit⟩
    refine ⟨n % 4, ?_, by omega⟩
    rw [bitsOf, List.mem_filter, List.mem_range]
    exact ⟨Nat.mod_lt _ (by decide), bit⟩

theorem nodup_pageChs {h mask : Nat} : (pageChs h mask).Nodup :=
  ((List.nodup_range.filter _).map fun a b e => by omega)

theorem mem_page {h n : Nat} : n ∈ pageChs h 15 ↔ n / 4 = h := by
  rw [mem_pageChs]
  have bit : (15 : Nat).testBit (n % 4) = true := by
    have low : n % 4 < 4 := Nat.mod_lt _ (by decide)
    interval_cases n % 4 <;> rfl
  exact and_iff_left bit

/-- A channel that no ARM holds any more. -/
def disarmed (c : Damper) : Damper := { c with st := if c.st = .armed then DampSt.safe else c.st, armOk := false }

theorem onDampers_twice {f : Nat → Damper} (h : OnDampers w v f) {n : Nat} {g g' : Damper → Damper} {c : Damper} (last : g' (g (f n)) = c) :
    OnDampers w ((v.upd fun d => d.onDamper n g).upd fun d => d.onDamper n g') fun k => if k = n then c else f k := by
  obtain ⟨same, at'⟩ := onDampers_onDamper (onDampers_onDamper h n g) n g'
  refine ⟨same, fun k => (at' k).trans ?_⟩
  dsimp only
  split
  · rw [if_pos rfl, last]
  · rfl

theorem onDampers_once {f : Nat → Damper} (h : OnDampers w v f) {n : Nat} {g : Damper → Damper} {c : Damper} (last : g (f n) = c) :
    OnDampers w (v.upd fun d => d.onDamper n g) fun k => if k = n then c else f k := last ▸ onDampers_onDamper h n g

theorem onDampers_unarm {h : Nat} {f : Nat → Damper} (on : OnDampers w v f) :
    OnDampers w (v.unarm h) fun k => if k / 4 = h then disarmed (f k) else f k := by
  have each := onDampers_each (ks := pageChs h 15) (step := fun n w =>
    (if (w.dev.damper n).st = .armed then w.safeCh n else w).upd fun d => d.onDamper n fun c => { c with armOk := false })
    (g := fun _ => disarmed) (fun n v f on => ?_) on nodup_pageChs
  · refine ⟨each.1, fun k => (each.2 k).trans ?_⟩
    exact if_congr mem_page rfl rfl
  · split
    · next armed =>
      rw [on.2 n] at armed
      refine onDampers_twice on ?_
      rw [if_pos (.inl armed), disarmed, if_pos armed, armed]
      simp
    · next calm =>
      rw [on.2 n] at calm
      refine onDampers_once on ?_
      rw [disarmed, if_neg calm]

/-! CH_CMD (R278, R279, R305). -/

theorem reached_world {typ inst o : Nat} {x : Word32} (h : WriteReaches s m typ inst o x w) :
    w.fuse = s.fuse ∧ w.ops = [] ∧ w.dev.clock = s.dev.clock ∧ w.dev.sys = s.dev.sys := by
  obtain ⟨-, -, -, -, ⟨-, rfl⟩ | ⟨-, -, -, ⟨-, rfl⟩ | ⟨-, -, g, -, rfl⟩⟩⟩ := h <;> exact ⟨rfl, rfl, rfl, rfl⟩

/-- A write that reaches its register and changes channels of one page alone. -/
theorem written_onDampers {typ inst o h : Nat} {x : Word32} {f : Nat → Damper} (reach : WriteReaches s m typ inst o x w)
    (on : OnDampers w v f) (page : ∀ n, n / 4 ≠ h → f n = w.dev.damper n) :
    ((stateOf s (v.answer .done)).dev = { w.dev with out := .done, dampers := (stateOf s (v.answer .done)).dev.dampers } ∧
      (stateOf s (v.answer .done)).fuse = s.fuse ∧ (stateOf s (v.answer .done)).pending = s.pending ∧
      (stateOf s (v.answer .done)).mem = s.mem ∧
      ∀ n, n / 4 ≠ h → (stateOf s (v.answer .done)).dev.damper n = w.dev.damper n) ∧
    ∀ n, (stateOf s (v.answer .done)).dev.damper n = f n := by
  obtain ⟨same, at'⟩ := on
  have ops : v.ops = [] := by rw [same]; exact (reached_world reach).2.1
  refine ⟨⟨?_, rfl, rfl, ?_, fun n other => (at' n).trans (page n other)⟩, at'⟩
  · exact congrArg (fun v : W => { v.dev with out := .done }) same
  · rw [stateOf_mem]
    exact congrArg s.mem.applyAll ops

theorem fld_lowest (x : Word32) : (BitVec.ofNat 4 (fld x 0 4)).toNat = fld x 0 4 := by
  rw [BitVec.toNat_ofNat]
  exact Nat.mod_eq_of_lt (Nat.mod_lt _ (by decide))

theorem code_setFld (x : Word32) {k : Nat} (small : k < 16) : fld (setFld x 4 4 k) 4 4 = k := by
  have lt := x.isLt
  rw [fld, setFld, fld, BitVec.toNat_ofNat, Nat.shiftRight_eq_div_pow, Nat.shiftRight_eq_div_pow]
  omega

theorem mem_mask {h n : Nat} {x : Word32} : n ∈ pageChs h (BitVec.ofNat 4 (fld x 0 4)).toNat ↔ n / 4 = h ∧ (fld x 0 4).testBit (n % 4) = true := by
  rw [fld_lowest, mem_pageChs]

/-- A CH_CMD with a wrong key (R305). -/
theorem onDampers_wrong {h : Nat} {ks : List Nat} (once : ks.Nodup) (page : ∀ n ∈ ks, n / 4 = h) :
    OnDampers w ((w.each ks fun n w => w.damperRefuse n 1).unarm h) fun k =>
      if k / 4 = h then if k ∈ ks then { disarmed (w.dev.damper k) with refusal := 1 } else disarmed (w.dev.damper k) else w.dev.damper k := by
  have refused := onDampers_unarm (h := h) (onDampers_each (step := fun n w => w.damperRefuse n 1) (g := fun _ c => { c with refusal := 1 })
    (fun n v f on => onDampers_onDamper on n fun c => { c with refusal := 1 }) (onDampers_refl (w := w)) once)
  refine ⟨refused.1, fun k => (refused.2 k).trans ?_⟩
  dsimp only
  split
  · split <;> rfl
  · next other => exact if_neg fun mem => other (page k mem)

/-- A channel that an ARM of `m` holds, if it was SAFE. -/
def armedBy (m : Rid) (mask : BitVec 4) (at' : Word64) (c : Damper) : Damper :=
  if c.st = .safe then { c with st := .armed, armBy := m, armMask := mask, armAt := at', armOk := true } else c

theorem onDampers_arm {h : Nat} {mask : BitVec 4} :
    OnDampers w (w.armChs m h mask) fun k =>
      if k ∈ pageChs h mask.toNat then armedBy m mask w.dev.clock.ivl (if k / 4 = h then disarmed (w.dev.damper k) else w.dev.damper k)
      else if k / 4 = h then disarmed (w.dev.damper k) else w.dev.damper k := by
  refine onDampers_each (g := fun _ => armedBy m mask w.dev.clock.ivl) (fun n v f on => ?_)
    (onDampers_unarm (h := h) (onDampers_refl (w := w))) nodup_pageChs
  exact onDampers_once on (g := armedBy m mask v.dev.clock.ivl) (by rw [(onDampers_reads on).1])

theorem energise_checks {n : Nat} {mask : BitVec 4} :
    w.energiseCheck m mask n =
      let c := w.dev.damper n
      let cfg := w.reg 6 0 (0x2000 + 4 * n)
      let code :=
        if c.armOk = false ∨ c.armBy ≠ m ∨ c.armMask.toNat ≠ mask.toNat ∨ c.armAt.toNat + 10000 < w.dev.clock.ivl.toNat then 6
        else if w.dev.sys.mode.running = false then 2
        else if bitAt cfg 0 = false then 3
        else if c.st = .forced ∨ w.forcedBy n = true then 4
        else if bitAt cfg 1 = true ∧ c.fb = true then 5
        else if c.st ≠ .armed then 6 else 0
      if code = 0 then none else some (BitVec.ofNat 3 code) := by
  have held : w.damperHeld n = true ↔ (w.dev.damper n).st = .forced ∨ w.forcedBy n = true := by
    rw [W.damperHeld, Bool.or_eq_true, beq_iff_eq]
  rw [W.energiseCheck]
  simp only [held, ne_eq, ← BitVec.toNat_inj, Dev.now]
  split_ifs <;> simp_all

/-- What ENERGISE reads: the code of each channel of its mask. -/
theorem onDampers_energise {h : Nat} {mask : BitVec 4} {code : Nat → Nat}
    (checks : ∀ n, w.energiseCheck m mask n = if code n = 0 then none else some (BitVec.ofNat 3 (code n))) :
    OnDampers w (w.energise m h mask) fun k =>
      if ∀ n ∈ pageChs h mask.toNat, code n = 0 then
        if k ∈ pageChs h mask.toNat then { w.dev.damper k with st := .starting, armOk := false } else w.dev.damper k
      else if k / 4 = h then
        if k ∈ pageChs h mask.toNat then { disarmed (w.dev.damper k) with refusal := BitVec.ofNat 3 (if code k = 0 then 7 else code k) }
        else disarmed (w.dev.damper k)
      else w.dev.damper k := by
  have all : ((pageChs h mask.toNat).map fun n => (n, w.energiseCheck m mask n)).all (fun p => p.2.isNone) = true ↔
      ∀ n ∈ pageChs h mask.toNat, code n = 0 := by
    rw [List.all_map, List.all_eq_true]
    refine forall_congr' fun n => imp_congr_right fun _ => ?_
    rw [Function.comp_apply, checks]
    split <;> simp [*]
  rw [W.energise]
  dsimp only
  by_cases free : ∀ n ∈ pageChs h mask.toNat, code n = 0
  · rw [if_pos (all.mpr free)]
    have started := onDampers_each (ks := pageChs h mask.toNat)
      (step := fun n w => w.upd fun d => d.onDamper n fun c => { c with st := .starting, armOk := false })
      (g := fun _ c => { c with st := .starting, armOk := false }) (fun n v f on => onDampers_onDamper on n _) (onDampers_refl (w := w)) nodup_pageChs
    exact ⟨started.1, fun k => (started.2 k).trans (if_pos free).symm⟩
  · rw [if_neg (mt all.mp free)]
    have refused := onDampers_unarm (h := h) (onDampers_each (ks := pageChs h mask.toNat)
      (step := fun n v => v.damperRefuse n ((w.energiseCheck m mask n).getD 7))
      (g := fun n c => { c with refusal := (w.energiseCheck m mask n).getD 7 }) (fun n v f on => onDampers_onDamper on n _)
      (onDampers_refl (w := w)) nodup_pageChs)
    have each : (w.each ((pageChs h mask.toNat).map fun n => (n, w.energiseCheck m mask n)) fun p w => w.damperRefuse p.1 (p.2.getD 7)) =
        w.each (pageChs h mask.toNat) fun n v => v.damperRefuse n ((w.energiseCheck m mask n).getD 7) := List.foldl_map
    rw [each]
    refine ⟨refused.1, fun k => (refused.2 k).trans ?_⟩
    dsimp only
    rw [if_neg free, checks]
    split
    · split
      · split <;> rfl
      · rfl
    · next other => exact if_neg fun mem => other (mem_pageChs.mp mem).1

/-- DE-ENERGISE of a channel of the mask, before the ARM of the page ends. -/
def deEnergised (agrees forced : Prop) [Decidable agrees] [Decidable forced] (c : Damper) : Damper :=
  if c.st = .fault then if agrees then { c with st := if forced then .forced else .safe } else c
  else if c.st = .armed ∨ c.st = .starting ∨ c.st = .live then { c with st := .safe, settling := c.settling || c.st == DampSt.live }
  else c

theorem onDampers_deEnergise {h : Nat} {mask : BitVec 4} :
    OnDampers w (w.deEnergise h mask) fun k =>
      if k / 4 = h then disarmed (if k ∈ pageChs h mask.toNat then
        deEnergised ((w.dev.damper k).mismatch.isNone ∧ (w.rbEn k = false ∨ (w.dev.damper k).fb = false) ∧
          (w.dev.damper k).agreeAt.toNat + w.settleNs k ≤ w.dev.now) (w.forcedBy k = true) (w.dev.damper k) else w.dev.damper k)
      else w.dev.damper k := by
  rw [W.deEnergise]
  have each := onDampers_each (ks := pageChs h mask.toNat) (step := fun n w =>
    if (w.dev.damper n).st = .fault then
      if (w.dev.damper n).mismatch.isNone ∧ (w.rbEn n = false ∨ (w.dev.damper n).fb = false) ∧
          (w.dev.damper n).agreeAt.toNat + w.settleNs n ≤ w.dev.now then
        w.upd fun d => d.onDamper n fun c => { c with st := if w.forcedBy n then .forced else .safe }
      else w
    else w.safeCh n)
    (g := fun n c => deEnergised (c.mismatch.isNone ∧ (w.rbEn n = false ∨ c.fb = false) ∧
      c.agreeAt.toNat + w.settleNs n ≤ w.dev.now) (w.forcedBy n = true) c) (fun n v f on => ?_) (onDampers_refl (w := w)) nodup_pageChs
  · have unarmed := onDampers_unarm (h := h) each
    refine ⟨unarmed.1, fun k => (unarmed.2 k).trans ?_⟩
    dsimp only
    split
    · rfl
    · next other => exact if_neg fun mem => other (mem_pageChs.mp mem).1
  · obtain ⟨clock, flue, sys, reg⟩ := onDampers_reads on
    have rbEn : v.rbEn n = w.rbEn n := by rw [W.rbEn, W.rbEn, reg]
    have settle : v.settleNs n = w.settleNs n := by rw [W.settleNs, W.settleNs, reg]
    have forced : v.forcedBy n = w.forcedBy n := by rw [W.forcedBy, W.forcedBy, flue, reg]
    have now : v.dev.now = w.dev.now := by rw [Dev.now, Dev.now, clock]
    rw [on.2 n, rbEn, settle, forced, now]
    split
    · next fault =>
      split
      · next agrees => exact onDampers_once on (by rw [deEnergised, if_pos fault, if_pos agrees])
      · next agrees => exact onDampers_stays on (by rw [deEnergised, if_pos fault, if_neg agrees])
    · next calm => exact onDampers_once on (by rw [deEnergised, if_neg calm])

end Sys2Proof.Proofs
end

section
/-! O58: the damper channels. -/

namespace Sys2Proof.Proofs

open Machine Laws

set_option Elab.async false

variable {s t : State} {w v : W} {m : Rid}

theorem chCmd_arm {h : Nat} {v : Word32} : w.chCmd m h (setFld v 4 4 1) =
    if fld (setFld v 4 4 1) 16 16 = 0xD4A7 then w.armChs m h (BitVec.ofNat 4 (fld (setFld v 4 4 1) 0 4))
    else (w.each (pageChs h (BitVec.ofNat 4 (fld (setFld v 4 4 1) 0 4)).toNat) fun n w => w.damperRefuse n 1).unarm h := by
  rw [W.chCmd, code_setFld v (by decide)]
  rfl

theorem chCmd_energise {h : Nat} {v : Word32} : w.chCmd m h (setFld v 4 4 2) =
    if fld (setFld v 4 4 2) 16 16 = 0x2B58 then w.energise m h (BitVec.ofNat 4 (fld (setFld v 4 4 2) 0 4))
    else (w.each (pageChs h (BitVec.ofNat 4 (fld (setFld v 4 4 2) 0 4)).toNat) fun n w => w.damperRefuse n 1).unarm h := by
  rw [W.chCmd, code_setFld v (by decide)]
  rfl

theorem chCmd_deEnergise {h : Nat} {v : Word32} : w.chCmd m h (setFld v 4 4 3) =
    w.deEnergise h (BitVec.ofNat 4 (fld (setFld v 4 4 3) 0 4)) := by
  rw [W.chCmd, code_setFld v (by decide)]
  rfl

/-- A CH_CMD that reaches its page, by what it does to the channels. -/
theorem chCmd_answers {h : Nat} {x : Word32} {u : W} {f : Nat → Damper} (reach : WriteReaches s m 6 0 (chCmdOff h) x w)
    (does : w.chCmd m h x = u) (on : OnDampers w u f) (page : ∀ n, n / 4 ≠ h → f n = w.dev.damper n) :
    ∃ t, run s (fun w => w.writeRow m 6 0 (chCmdOff h) x fun w => w.chCmd m h x) = .next t ∧
      (t.dev = { w.dev with out := .done, dampers := t.dev.dampers } ∧ t.fuse = s.fuse ∧ t.pending = s.pending ∧ t.mem = s.mem ∧
        ∀ n, n / 4 ≠ h → t.dev.damper n = w.dev.damper n) ∧
      ∀ n, t.dev.damper n = f n :=
  ⟨_, (writeRow_written reach).trans (congrArg (fun v : W => Host.Outcome.next (stateOf s (v.answer .done))) does),
    written_onDampers reach on page⟩

theorem onDampers_refused {h : Nat} {x : Word32} :
    OnDampers w ((w.each (pageChs h (BitVec.ofNat 4 (fld x 0 4)).toNat) fun n w => w.damperRefuse n 1).unarm h) fun k =>
      if k / 4 = h then
        if k / 4 = h ∧ (fld x 0 4).testBit (k % 4) = true then { disarmed (w.dev.damper k) with refusal := 1 } else disarmed (w.dev.damper k)
      else w.dev.damper k := by
  obtain ⟨same, at'⟩ := onDampers_wrong (w := w) (h := h) (nodup_pageChs (h := h) (mask := (BitVec.ofNat 4 (fld x 0 4)).toNat))
    fun n mem => (mem_pageChs.mp mem).1
  refine ⟨same, fun k => (at' k).trans ?_⟩
  simp only [mem_mask]

theorem clock_seeFb {ks : List Nat} {h : Nat} {fb : BitVec 4} {d : Dev} :
    (ks.foldl (fun d i => d.seeFb (4 * h + i) (bitAt fb i)) d).clock = d.clock ∧
    (ks.foldl (fun d i => d.seeFb (4 * h + i) (bitAt fb i)) d).sys = d.sys := by
  induction ks generalizing d with
  | nil => exact ⟨rfl, rfl⟩
  | cons i ks ih => exact ih

theorem world_seeFb {ks : List Nat} {h : Nat} {fb : BitVec 4} :
    (s.world.each ks fun i w => w.upd fun d => d.seeFb (4 * h + i) (bitAt fb i)) =
      State.world { s with dev := ks.foldl (fun d i => d.seeFb (4 * h + i) (bitAt fb i)) s.dev } := by
  induction ks generalizing s with
  | nil => rfl
  | cons i ks ih => exact ih (s := { s with dev := s.dev.seeFb (4 * h + i) (bitAt fb i) })

/-- What the channels' feedback shows is taken before the write. -/
theorem energise_row {h : HearthId} {v : Word32} {fb : BitVec 4} :
    exec (.energise m h v fb) s =
      run { s with dev := (List.range 4).foldl (fun d i => d.seeFb (4 * h + i) (bitAt fb i)) s.dev } fun w =>
        w.writeRow m 6 0 (chCmdOff h) (setFld v 4 4 2) fun w => w.chCmd m h (setFld v 4 4 2) :=
  congrArg (fun u : W => Host.Outcome.next (stateOf s (u.writeRow m 6 0 (chCmdOff h) (setFld v 4 4 2) fun w => w.chCmd m h (setFld v 4 4 2))))
    world_seeFb

/-- A channel of an ARM's mask, by its state after the last ARM ended. -/
theorem arm_channel {p : Prop} [Decidable p] {mask : BitVec 4} {at' : Word64} {c : Damper} :
    (if p then armedBy m mask at' c else c) =
      if p ∧ c.st = .safe then { c with st := .armed, armBy := m, armMask := mask, armAt := at', armOk := true } else c := by
  by_cases inside : p
  · rw [if_pos inside, armedBy]
    exact if_congr (and_iff_right inside).symm rfl rfl
  · rw [if_neg inside, if_neg fun e => inside e.1]

/-- A channel of a DE-ENERGISE, after the ARM of its page has ended. -/
theorem deEnergise_channel {p agrees forced : Prop} [Decidable p] [Decidable agrees] [Decidable forced] {c : Damper} :
    disarmed (if p then deEnergised agrees forced c else c) =
      if ¬ p then disarmed c
      else if c.st = .fault then { c with st := if ¬ agrees then .fault else if forced then .forced else .safe, armOk := false }
      else if c.st = .armed ∨ c.st = .starting ∨ c.st = .live then
        { c with st := .safe, settling := c.settling || decide (c.st = .live), armOk := false }
      else { c with armOk := false } := by
  by_cases inside : p
  · rw [if_pos inside, if_neg (not_not.mpr inside), deEnergised]
    by_cases fault : c.st = .fault
    · rw [if_pos fault, if_pos fault]
      by_cases ok : agrees
      · rw [if_pos ok, if_neg (not_not.mpr ok), disarmed]
        split <;> rfl
      · rw [if_neg ok, if_pos ok, disarmed, fault]
        rfl
    · rw [if_neg fault, if_neg fault]
      by_cases on : c.st = .armed ∨ c.st = .starting ∨ c.st = .live
      · rw [if_pos on, if_pos on]
        rfl
      · rw [if_neg on, if_neg on, disarmed, if_neg fun e => on (.inl e)]
  · rw [if_neg inside, if_pos inside]

theorem damperCommands : Sys2Proof.Says.DamperCommands := by
  intro s m h v fb w off inMask only disarmed'
  have page : ∀ {f g : Nat → Damper} n, n / 4 ≠ h.val → (if n / 4 = h.val then f n else g n) = g n := fun _ other => if_neg other
  refine ⟨?_, ?_, ?_⟩
  · intro x reach
    refine ⟨fun key => ?_, fun key => ?_⟩
    · obtain ⟨t, ran, same, at'⟩ := chCmd_answers reach (chCmd_arm.trans (if_pos key)) onDampers_arm fun n other => by
        rw [if_neg fun mem => other (mem_pageChs.mp mem).1, if_neg other]
      refine ⟨t, ran, same, fun n here => (at' n).trans ?_⟩
      simp only [mem_mask, if_pos here, (reached_world reach).2.2.1]
      exact arm_channel
    · obtain ⟨t, ran, same, at'⟩ := chCmd_answers reach (chCmd_arm.trans (if_neg key)) onDampers_refused page
      exact ⟨t, ran, same, fun n here => (at' n).trans (if_pos here)⟩
  · intro x s1 cfg code reach
    obtain ⟨-, -, clock, sys⟩ := reached_world reach
    rw [show s1.dev.clock = s.dev.clock from clock_seeFb.1] at clock
    rw [show s1.dev.sys = s.dev.sys from clock_seeFb.2] at sys
    have checks : ∀ n, w.energiseCheck m (BitVec.ofNat 4 (fld x 0 4)) n = if code n = 0 then none else some (BitVec.ofNat 3 (code n)) :=
      fun n => energise_checks.trans (by rw [fld_lowest, clock, sys])
    have free_iff : (∀ n ∈ pageChs h (BitVec.ofNat 4 (fld x 0 4)).toNat, code n = 0) ↔ ∀ n, inMask x n → code n = 0 :=
      forall_congr' fun n => imp_congr_left mem_mask
    have energised := onDampers_energise (w := w) (h := h.val) checks
    have outside : ∀ n, n / 4 ≠ h.val → n ∉ pageChs h (BitVec.ofNat 4 (fld x 0 4)).toNat := fun n other mem => other (mem_pageChs.mp mem).1
    refine ⟨fun key free => ?_, fun key fails => ?_, fun key => ?_⟩
    · obtain ⟨t, ran, same, at'⟩ := chCmd_answers reach (chCmd_energise.trans (if_pos key)) energised fun n other => by
        rw [if_pos (free_iff.mpr free), if_neg (outside n other)]
      exact ⟨t, energise_row.trans ran, same, fun n _ => (at' n).trans ((if_pos (free_iff.mpr free)).trans (if_congr mem_mask rfl rfl))⟩
    · have stuck : ¬ ∀ n ∈ pageChs h (BitVec.ofNat 4 (fld x 0 4)).toNat, code n = 0 := fun all =>
        fails.elim fun n bad => bad.2 (free_iff.mp all n bad.1)
      obtain ⟨t, ran, same, at'⟩ := chCmd_answers reach (chCmd_energise.trans (if_pos key)) energised fun n other => by
        rw [if_neg stuck, if_neg other]
      exact ⟨t, energise_row.trans ran, same, fun n here =>
        (at' n).trans ((if_neg stuck).trans ((if_pos here).trans (if_congr mem_mask rfl rfl)))⟩
    · obtain ⟨t, ran, same, at'⟩ := chCmd_answers reach (chCmd_energise.trans (if_neg key)) onDampers_refused page
      exact ⟨t, energise_row.trans ran, same, fun n here => (at' n).trans (if_pos here)⟩
  · intro x reach
    obtain ⟨t, ran, same, at'⟩ := chCmd_answers reach chCmd_deEnergise onDampers_deEnergise page
    refine ⟨t, ran, same, fun n here => (at' n).trans ((if_pos here).trans ?_)⟩
    have inside : n ∈ pageChs h (BitVec.ofNat 4 (fld x 0 4)).toNat ↔ inMask x n := mem_mask
    have agrees : ((w.dev.damper n).mismatch.isNone = true ∧ (w.rbEn n = false ∨ (w.dev.damper n).fb = false) ∧
        (w.dev.damper n).agreeAt.toNat + w.settleNs n ≤ w.dev.now) ↔
        (w.dev.damper n).mismatch = none ∧ (bitAt (w.reg 6 0 (0x2000 + 4 * n)) 1 = false ∨ (w.dev.damper n).fb = false) ∧
        (w.dev.damper n).agreeAt.toNat + 100000 * fld (w.reg 6 0 (0x2000 + 4 * n)) 4 9 ≤ s.dev.clock.ivl.toNat := by
      rw [Option.isNone_iff_eq_none, ← (reached_world reach).2.2.1]
      exact Iff.rfl
    rw [deEnergise_channel]
    refine if_congr (not_congr inside) rfl (if_congr Iff.rfl ?_ rfl)
    exact congrArg (fun st => { w.dev.damper n with st := st, armOk := false }) (if_congr (not_congr agrees) rfl rfl)

end Sys2Proof.Proofs
end

section
/-! O58: the instants and the mismatches of the damper channels (R275 to R280). -/

namespace Sys2Proof.Proofs

open Machine Laws

set_option Elab.async false

variable {s t : State} {w v : W} {m : Rid}

theorem stateOf_plain {f : Nat → Damper} (on : OnDampers w v f) (ops : w.ops = []) :
    (stateOf s v).mem = s.mem ∧ (stateOf s v).fuse = s.fuse ∧ (stateOf s v).pending = s.pending := by
  have same : v.ops = w.ops := by rw [on.1]
  exact ⟨by rw [stateOf_mem, same, ops]; rfl, rfl, rfl⟩

/-! ARM_EXPIRY and DAMPER_PERIOD_BOUNDARY. -/

theorem foldl_max {l : List Nat} {t m : Nat} (mem : m = t ∨ m ∈ l) (top : t ≤ m) (all : ∀ x ∈ l, x ≤ m) : l.foldl max t = m := by
  induction l generalizing t with
  | nil => exact (mem.resolve_right List.not_mem_nil).symm
  | cons x l ih =>
    have le := all x List.mem_cons_self
    refine ih ?_ (max_le top le) fun y mem => all y (List.mem_cons_of_mem _ mem)
    rcases mem with first | mem
    · exact .inl (by rw [first] at le ⊢; exact (max_eq_left le).symm)
    · rcases List.mem_cons.mp mem with rfl | mem
      · exact .inl (max_eq_right top).symm
      · exact .inr mem

theorem armExpiry_none {h : HearthId} (none : ∀ k, ¬ (k / 4 = h.val ∧ (s.dev.damper k).st = .armed)) :
    Answers (.armExpiry h) s (Only s · id) := by
  have empty : (pageChs h 15).filter (fun n => (s.world.dev.damper n).st == DampSt.armed) = [] :=
    List.filter_eq_nil_iff.mpr fun k mem armed => none k ⟨mem_page.mp mem, beq_iff_eq.mp armed⟩
  refine ⟨stateOf s s.world, congrArg (fun v : W => Host.Outcome.next (stateOf s v)) ?_, rfl⟩
  dsimp only
  rw [empty]
  rfl

theorem armExpiry_ends {h : HearthId} {k : Nat} (armed : k / 4 = h.val ∧ (s.dev.damper k).st = .armed)
    (last : ∀ j, j / 4 = h.val ∧ (s.dev.damper j).st = .armed → (s.dev.damper j).armAt.toNat ≤ (s.dev.damper k).armAt.toNat) :
    exec (.armExpiry h) s =
      .next (stateOf s ((s.world.upd fun d => d.advanceIvl ((s.dev.damper k).armAt.toNat + 10000)).unarm h)) := by
  have mem : ∀ j, j ∈ (pageChs h 15).filter (fun n => (s.world.dev.damper n).st == DampSt.armed) ↔ j / 4 = h.val ∧ (s.dev.damper j).st = .armed :=
    fun j => List.mem_filter.trans (and_congr mem_page beq_iff_eq)
  refine congrArg (fun v : W => Host.Outcome.next (stateOf s v)) ?_
  dsimp only
  generalize (pageChs h 15).filter (fun n => (s.world.dev.damper n).st == DampSt.armed) = l at mem
  cases l with
  | nil => exact absurd ((mem k).mpr armed) List.not_mem_nil
  | cons j l =>
    have top : (l.map fun n => (s.world.dev.damper n).armAt.toNat).foldl max (s.world.dev.damper j).armAt.toNat =
        (s.dev.damper k).armAt.toNat := by
      refine foldl_max ?_ (last j ((mem j).mp List.mem_cons_self)) fun x found => ?_
      · rcases List.mem_cons.mp ((mem k).mpr armed) with rfl | later
        · exact .inl rfl
        · exact .inr (List.mem_map.mpr ⟨k, later, rfl⟩)
      · obtain ⟨i, later, rfl⟩ := List.mem_map.mp found
        exact last i ((mem i).mp (List.mem_cons_of_mem _ later))
    rw [List.map_cons]
    dsimp only
    rw [top]

/-- A STARTING channel goes LIVE. -/
def begun (c : Damper) : Damper := if c.st = .starting then { c with st := .live, settling := true } else c

theorem onDampers_begin : OnDampers w (w.each (List.range 64) fun n w =>
      if (w.dev.damper n).st = .starting then w.upd fun d => d.onDamper n fun c => { c with st := .live, settling := true } else w)
    fun k => if k ∈ List.range 64 then begun (w.dev.damper k) else w.dev.damper k := by
  refine onDampers_each (g := fun _ => begun) (fun n v f on => ?_) (onDampers_refl (w := w)) List.nodup_range
  split
  · next starting =>
    rw [on.2 n] at starting
    exact onDampers_once on (by rw [begun, if_pos starting])
  · next calm =>
    rw [on.2 n] at calm
    exact onDampers_stays on (by rw [begun, if_neg calm])

/-! DAMPER_MISMATCH (R276, R280). -/

/-- A channel with a mismatch. -/
def mismatchOf (cause : BitVec 2) (c : Damper) : Damper :=
  { c with st := .fault, mismatch := some cause, cause := cause, settling := decide (c.st = .live) || (c.settling && decide (cause = 0)),
           fb := if cause = 1 then true else if cause = 0 then c.fb else false }

theorem sourceRow_readback (x : SrcView) {n : Nat} (small : n < 64) : ∃ row, sourceRow x (0x10 + n) = some row ∧ row.level = true := by
  refine ⟨⟨0x10, 64, "DAMP_READBACK", 2, mHrt, false, true, 4⟩, ?_, rfl⟩
  interval_cases n <;> rfl

/-- What a mismatch of channel `n` does, in a world that differs from the state beside the sources alone. -/
theorem mismatch_tells {n : Nat} {cause : BitVec 2} (h : Quiescent s w) (small : n < 64) (flue : w.dev.flue = s.dev.flue) :
    (w.damperMismatch n cause).dev.damper n = mismatchOf cause (w.dev.damper n) ∧
    LevelDetected s (stateOf s (w.damperMismatch n cause)) (0x10 + n) (w32 (n + 64 * cause.toNat)) 0 w.dev.clock.tb ∧
    ((s.dev.flue.driving = true ∨ s.dev.flue.unconf ≠ []) → n ∈ s.dev.flue.forcing →
      Detected s (stateOf s (w.damperMismatch n cause)) 0x001 0 0 w.dev.clock.tb) ∧
    untouched (w.damperMismatch n cause).dev = untouched w.dev := by
  obtain ⟨row, found, level⟩ := sourceRow_readback s.world.srcView small
  have channel : (w.dev.onDamper n fun x => { x with
      st := .fault, mismatch := some cause, cause := cause,
      settling := (w.dev.damper n).st == DampSt.live || ((w.dev.damper n).settling && cause == 0),
      fb := if cause = 1 then true else if cause = 0 then x.fb else false }).damper n = mismatchOf cause (w.dev.damper n) := by
    rw [damper_onDamper, if_pos rfl]
    rfl
  have quiet : Quiescent s (w.upd fun d => d.onDamper n fun x => { x with
      st := .fault, mismatch := some cause, cause := cause,
      settling := (w.dev.damper n).st == DampSt.live || ((w.dev.damper n).settling && cause == 0),
      fb := if cause = 1 then true else if cause = 0 then x.fb else false }) := ⟨h.fuse, h.chim, h.regs, h.mode, h.srcs, h.due⟩
  have plain : Plain (0x10 + n) := by unfold Plain Noted; omega
  have info : w32 (n + at_ cause.toNat 6) = w32 (n + 64 * cause.toNat) := by rw [at_eq]; rfl
  have hw : (w.dev.flue.reacting && w.dev.flue.forcing.contains n) = true ↔
      (s.dev.flue.driving = true ∨ s.dev.flue.unconf ≠ []) ∧ n ∈ s.dev.flue.forcing := by
    rw [flue, Flue.reacting, Bool.and_eq_true, Bool.or_eq_true, List.contains_iff_mem]
    simp
  rw [W.damperMismatch, info]
  generalize told : (w.upd fun d => d.onDamper n fun x => { x with
      st := .fault, mismatch := some cause, cause := cause,
      settling := (w.dev.damper n).st == DampSt.live || ((w.dev.damper n).settling && cause == 0),
      fb := if cause = 1 then true else if cause = 0 then x.fb else false }) = w1 at quiet
  have there : w1.dev.damper n = mismatchOf cause (w.dev.damper n) := by rw [← told]; exact channel
  have tb : w1.dev.clock.tb = w.dev.clock.tb := by rw [← told]; rfl
  have beside : untouched w1.dev = untouched w.dev := by rw [← told]; rfl
  have fault : (w1.dev.damper n).st = .fault := by rw [there]; rfl
  rw [← tb]
  by_cases both : (w.dev.flue.reacting && w.dev.flue.forcing.contains n) = true
  · rw [if_pos both]
    obtain ⟨one, two⟩ := detected_raiseTwo (a := 0x001) (b := 0x10 + n) (da := 0) (db := w32 (n + 64 * cause.toNat)) quiet (by omega)
      (by unfold Plain Noted; decide) plain (rowA := ⟨0x001, 1, "FLUE_REACT_FAULT", 3, mDev, true, false, 0⟩) rfl found rfl level
    exact ⟨(faultStays_iff.mp faultStays_raiseTwo fault).trans there, two, fun _ _ => one, (untouched_kept kept_raiseTwo).trans beside⟩
  · rw [if_neg both]
    exact ⟨(faultStays_iff.mp faultStays_level fault).trans there, levelDetected_level quiet plain (Option.isSome_iff_exists.mpr ⟨row, found⟩),
      fun react forced => absurd (hw.mpr ⟨react, forced⟩) both, (untouched_kept kept_level).trans beside⟩

/-- The cause can arise in the channel's state (R280). -/
theorem mismatchFits_iff {n : Nat} {cause : BitVec 2} :
    let c := w.dev.damper n
    let rb := bitAt (w.reg 6 0 (0x2000 + 4 * n)) 1 = true
    w.mismatchFits n cause = true ↔ cause = 0 ∨ cause = 1 ∧ rb ∧ c.st ≠ .live ∧ c.settling = false ∨
      cause = 2 ∧ rb ∧ c.st = .live ∧ c.settling = false ∨ cause = 3 ∧ rb ∧ c.st = .live ∧ c.settling = true := by
  have four : ∀ c : BitVec 2, c = 0 ∨ c = 1 ∨ c = 2 ∨ c = 3 := by decide
  intro c rb
  rw [W.mismatchFits]
  rcases four cause with rfl | rfl | rfl | rfl
  · exact ⟨fun _ => .inl rfl, fun _ => rfl⟩
  all_goals simp [c, rb, W.rbEn, and_assoc]

/-- The settle time of a channel ends, and its feedback is seen. -/
def settled (d : Dev) (fb : Bool) (c : Damper) : Damper :=
  { c with settling := false, fb := fb, agreeAt := if c.fb && !fb then d.clock.ivl else c.agreeAt }

theorem insertRow_insertRow {α : Type} (k : Nat) (a b : α) (l : List (Nat × α)) : insertRow k b (insertRow k a l) = insertRow k b l := by
  induction l with
  | nil => simp [insertRow]
  | cons x l ih =>
    obtain ⟨i, y⟩ := x
    by_cases before : k < i
    · rw [insertRow, if_pos before, insertRow, if_neg (lt_irrefl k), if_pos rfl, insertRow, if_pos before]
    · by_cases same : k = i
      · rw [insertRow, if_neg before, if_pos same, insertRow, if_neg (lt_irrefl k), if_pos rfl, insertRow, if_neg before, if_pos same]
      · rw [insertRow, if_neg before, if_neg same, insertRow, if_neg before, if_neg same, ih, insertRow, if_neg before, if_neg same]

theorem onDamper_onDamper (d : Dev) (n : Nat) (f g : Damper → Damper) : (d.onDamper n f).onDamper n g = d.onDamper n fun c => g (f c) := by
  rw [Dev.onDamper, damper_onDamper, if_pos rfl]
  simp only [Dev.onDamper, Tbl.set, insertRow_insertRow]

theorem seen_settled {n : Nat} {fb : Bool} :
    (s.world.upd fun d => (d.seeFb n fb).onDamper n fun c => { c with settling := false }) =
      s.world.upd fun d => d.onDamper n (settled s.dev fb) :=
  congrArg (fun d : Dev => { s.world with dev := d }) (onDamper_onDamper _ _ _ _)

/-- The judged feedback of a channel is bad. -/
theorem bad_iff {rb fb : Bool} {c : Damper} :
    (rb && (if c.st = .live then !fb else fb) && !(c.st == DampSt.fault && c.mismatch.isSome)) = true ↔
      ¬ (¬ rb = true ∨ c.st = .fault ∧ c.mismatch.isSome = true ∨ if c.st = .live then fb = true else fb = false) := by
  cases rb <;> cases fb <;> cases c.st <;> cases c.mismatch.isSome <;> decide

theorem rbEn_onDamper {n k : Nat} {g : Damper → Damper} : (s.world.upd fun d => d.onDamper n g).rbEn k = s.world.rbEn k := by
  obtain ⟨-, -, -, reg⟩ := onDampers_reads (onDampers_onDamper (onDampers_refl (w := s.world)) n g)
  rw [W.rbEn, W.rbEn, reg]

/-- RB_SETTLE_EXPIRY of a channel that settles or has yet to confirm. -/
theorem settle_row {n : DamperId} {fb : Bool} (ends : (s.dev.damper n).settling = true ∨ n.val ∈ s.dev.flue.unconf) :
    exec (.rbSettleExpiry n fb) s =
      let w := s.world.upd fun d => d.onDamper n (settled s.dev fb)
      let c := s.dev.damper n
      let bad := s.world.rbEn n && (if c.st = .live then !fb else fb) && !(c.st == DampSt.fault && c.mismatch.isSome)
      .next (stateOf s ((if bad then w.damperMismatch n (if c.st = .live then 3 else 1) else w).upd fun d =>
        { d with flue := { d.flue with unconf := d.flue.unconf.filter (· != n.val) } })) := by
  refine congrArg (fun v : W => Host.Outcome.next (stateOf s v)) ?_
  dsimp only
  rw [if_pos (show (s.world.dev.damper n).settling = true ∨ s.world.dev.flue.unconf.contains n.val = true from
    ends.imp id List.contains_iff_mem.mpr), seen_settled, rbEn_onDamper]
  rfl

theorem damperInstants : Sys2Proof.Says.DamperInstants := by
  intro s h n cause fb d c armed rb moved mismatched fits
  have tells : ∀ {w : W} {cause : BitVec 2} {c : Damper}, Quiescent s w → w.dev.flue = s.dev.flue → w.dev.clock.tb = s.dev.clock.tb →
      untouched w.dev = untouched s.dev → w.dev.damper n = c → mismatched (stateOf s (w.damperMismatch n cause)) c cause := by
    intro w cause c quiet flue tb beside channel
    obtain ⟨damper, level, react, same⟩ := mismatch_tells (cause := cause) quiet n.isLt flue
    rw [tb] at level react
    rw [channel] at damper
    exact ⟨damper, level, react, same.trans beside, rfl, rfl⟩
  refine ⟨armExpiry_none, fun k on last => ?_, ?_, fun out => ?_, fun holds => ?_, fun calm out => ?_, fun ends => ⟨fun good => ?_, fun bad => ?_⟩⟩
  · obtain unarmed := onDampers_unarm (h := h.val) (onDampers_refl (w := s.world.upd fun d => d.advanceIvl ((s.dev.damper k).armAt.toNat + 10000)))
    obtain ⟨mem, fuse, pending⟩ := stateOf_plain unarmed rfl
    exact ⟨_, armExpiry_ends on last, (onDampers_reads unarmed).1.trans rfl, mem, fuse, pending, fun j _ => unarmed.2 j⟩
  · have row : exec .damperPeriodBoundary s = .next (stateOf s ((s.world.upd fun d => d.advanceIvl ((d.now / 100000 + 1) * 100000)).each
        (List.range 64) fun n w =>
          if (w.dev.damper n).st = .starting then w.upd fun d => d.onDamper n fun c => { c with st := .live, settling := true } else w)) := rfl
    have begins := onDampers_begin (w := s.world.upd fun d => d.advanceIvl ((d.now / 100000 + 1) * 100000))
    generalize W.each _ (List.range 64) _ = u at row begins
    obtain ⟨mem, fuse, pending⟩ := stateOf_plain begins rfl
    exact ⟨_, row, (onDampers_reads begins).1.trans rfl, mem, fuse, pending, fun j small =>
      (begins.2 j).trans (if_pos (List.mem_range.mpr small))⟩
  · exact ⟨stateOf s s.world, congrArg (fun v : W => Host.Outcome.next (stateOf s v)) (if_neg (mt mismatchFits_iff.mp out)), rfl⟩
  · exact ⟨_, congrArg (fun v : W => Host.Outcome.next (stateOf s v)) (if_pos (mismatchFits_iff.mpr holds)),
      tells quiescent_world rfl rfl rfl rfl⟩
  · refine ⟨stateOf s s.world, congrArg (fun v : W => Host.Outcome.next (stateOf s v)) (if_neg ?_), rfl⟩
    rintro (settling | unconf)
    · exact Bool.false_ne_true (calm.symm.trans settling)
    · exact out (List.contains_iff_mem.mp unconf)
  · refine ⟨_, (settle_row ends).trans (congrArg (fun v : W => Host.Outcome.next (stateOf s (v.upd fun d =>
      { d with flue := { d.flue with unconf := d.flue.unconf.filter (· != n.val) } }))) (if_neg fun bad => bad_iff.mp bad ?_)), rfl⟩
    exact good
  · refine ⟨_, (settle_row ends).trans (congrArg (fun v : W => Host.Outcome.next (stateOf s (v.upd fun d =>
      { d with flue := { d.flue with unconf := d.flue.unconf.filter (· != n.val) } }))) (if_pos (bad_iff.mpr ?_))), ?_, ?_⟩
    · exact bad
    · exact tells (w := s.world.upd fun d => d.onDamper n (settled s.dev fb)) ⟨rfl, rfl, rfl, rfl, rfl, rfl⟩ rfl rfl rfl
        ((damper_onDamper _ _ _ _).trans (if_pos rfl))
    · intro mem
      exact (bne_iff_ne.mp (List.mem_filter.mp mem).2) rfl

/-- Settles O58: CH_CMD by its code and key, and the instants of the channels. -/
theorem damperChannels : Obligations.DamperChannels := ⟨damperCommands, damperInstants⟩

end Sys2Proof.Proofs
end

section
/-! O20: the action registers (R122, R209, R210, R245, R267, R344, R355, R365, R393, R447, R457, R459, R461, R464, R474). -/

namespace Sys2Proof.Proofs

open Machine Laws

set_option Elab.async false

variable {s t : State} {w v : W} {m : Rid}

/-- A row that writes one register does what its action does. -/
theorem written_of {i : Instr} {typ inst o : Nat} {x : Word32} {act f : W → W}
    (row : exec i s = run s fun w => w.writeRow m typ inst o x act) (same : act w = f w) (reach : WriteReaches s m typ inst o x w) :
    Answers i s (Written s · w f) :=
  ⟨stateOf s ((act w).answer .done), row.trans (writeRow_written reach), congrArg (fun v : W => stateOf s (v.answer .done)) same⟩

/-! The lane command (R122). -/

theorem laneWord (lane : BitVec 4) {k n : Nat} (small : k < 16) (base : n = 16 * k) :
    fld (w32 (lane.toNat + n)) 0 4 = lane.toNat ∧ fld (w32 (lane.toNat + n)) 4 4 = k := by
  have lt := lane.isLt
  rw [fld_eq, fld_eq, w32, BitVec.toNat_ofNat]
  omega

theorem laneCmd_fence {h : Nat} {lane : BitVec 4} : w.laneCmd h (w32 (lane.toNat + 0x10)) =
    if (w.dev.laneUnit h).cmdState = 1 then w
    else if 13 ≤ lane.toNat ∨ (w.fenceCheck h lane.toNat).isSome then
      w.upd fun d => d.onLaneUnit h fun x => { x with cmdState := 3, cmdLane := lane, cmdFence := none }
    else (w.upd fun d => d.onLaneUnit h fun x =>
      { x with cmdState := 1, cmdLane := lane, cmdFence := (w.seat h lane.toNat).map (·.1) }).fence h lane.toNat 6 := by
  obtain ⟨low, code⟩ := laneWord lane (k := 1) (n := 0x10) (by decide) rfl
  rw [W.laneCmd]
  dsimp only
  rw [low, code, BitVec.ofNat_toNat, BitVec.setWidth_eq, if_pos rfl, ite_or]

theorem laneCmd_retest {h : Nat} {lane : BitVec 4} : w.laneCmd h (w32 (lane.toNat + 0x20)) =
    if (w.dev.laneUnit h).cmdState = 1 then w
    else if 13 ≤ lane.toNat ∨ ((w.laneAt h lane.toNat).st ≠ .fenced ∧ (w.laneAt h lane.toNat).st ≠ .failed) then
      w.upd fun d => d.onLaneUnit h fun x => { x with cmdState := 3, cmdLane := lane, cmdFence := none }
    else (w.upd fun d => d.onLaneUnit h fun x =>
      { x with cmdState := 1, cmdLane := lane, cmdFence := none }).retest h lane.toNat := by
  obtain ⟨low, code⟩ := laneWord lane (k := 2) (n := 0x20) (by decide) rfl
  rw [W.laneCmd]
  dsimp only
  rw [low, code, BitVec.ofNat_toNat, BitVec.setWidth_eq]
  refine if_congr Iff.rfl rfl ?_
  by_cases far : 13 ≤ lane.toNat
  · rw [if_pos far, if_pos (.inl far)]
  · rw [if_neg far, if_neg (show ¬ (2 : Nat) = 1 by decide), if_pos rfl]
    by_cases may : (w.laneAt h lane.toNat).st = .fenced ∨ (w.laneAt h lane.toNat).st = .failed
    · rw [if_pos may, if_neg]
      rintro (out | ⟨notFenced, notFailed⟩)
      · exact far out
      · exact may.elim notFenced notFailed
    · rw [if_neg may, if_pos (.inr (not_or.mp may))]

/-! The other actions. -/

theorem hobInject_eq {u : Nat} {x : Word32} : w.hobInject u x =
    w.upd fun d => if fld x 0 2 = 3 then d
      else d.onHob u fun h => { h with
        inject := if fld x 2 3 = 7 ∨ u = 16 ∧ fld x 2 3 = 2 ∨ fld x 0 2 = 0 then none else some (BitVec.ofNat 2 (fld x 0 2), fld x 2 3) } := by
  rw [W.hobInject]
  by_cases three : fld x 0 2 = 3
  · simp only [if_pos three]
    rfl
  · simp only [if_neg three]
    by_cases off : fld x 2 3 = 7 ∨ u = 16 ∧ fld x 2 3 = 2
    · rw [if_pos off]
      simp only [if_pos (or_assoc.mp (.inl off) : fld x 2 3 = 7 ∨ u = 16 ∧ fld x 2 3 = 2 ∨ fld x 0 2 = 0)]
    · rw [if_neg off]
      by_cases zero : fld x 0 2 = 0
      · simp only [zero, if_true, or_true]
      · simp only [if_neg zero, if_neg fun h => (or_assoc.mpr h).elim off zero]

/-- A choice between two changes of the device. -/
theorem ite_upd {c : Prop} [Decidable c] {d e : Dev} :
    (if c then { w with dev := d } else { w with dev := e } : W) = { w with dev := if c then d else e } := by
  split <;> rfl

theorem ite_upd_stays {c : Prop} [Decidable c] {d : Dev} :
    (if c then { w with dev := d } else w : W) = { w with dev := if c then d else w.dev } := by
  split <;> rfl

theorem ite_stays_upd {c : Prop} [Decidable c] {d : Dev} :
    (if c then w else { w with dev := d } : W) = { w with dev := if c then w.dev else d } := by
  split <;> rfl

theorem retireAdd_eq {x : Word32} : w.retireAdd x =
    w.upd fun d => if bitAt x 31 = false ∨ d.dram.retired.any (fun r => r.1 == fld x 0 23) = true ∨ 1024 ≤ d.dram.retired.length then d
      else { d with dram := { d.dram with retired := d.dram.retired ++ [(fld x 0 23, false)] } } := by
  rw [W.retireAdd]
  cases on : bitAt x 31 with
  | false => rfl
  | true =>
    rw [if_pos rfl, W.retire]
    dsimp only
    by_cases known : w.dev.dram.retired.any (fun r => r.1 == fld x 0 23) = true
    · rw [if_pos known]
      have same : w.dev.dram.retired.map (fun r => if r.1 = fld x 0 23 then (fld x 0 23, r.2 || false) else r) = w.dev.dram.retired := by
        refine (List.map_congr_left fun r _ => ?_).trans (List.map_id _)
        split
        · next e => rw [Bool.or_false, ← e]; rfl
        · rfl
      rw [same]
      exact congrArg (fun d : Dev => { w with dev := d }) (if_pos (Or.inr (Or.inl known))).symm
    · rw [if_neg known]
      by_cases room : w.dev.dram.retired.length < 1024
      · rw [if_pos room]
        refine congrArg (fun d : Dev => { w with dev := d }) (if_neg ?_).symm
        rintro (off | known' | full)
        · cases off
        · exact known known'
        · omega
      · rw [if_neg room]
        exact congrArg (fun d : Dev => { w with dev := d }) (if_pos (Or.inr (Or.inr (Nat.le_of_not_lt room)))).symm

theorem basteGo_eq {x : Word32} : w.basteGo x =
    if 17 ≤ fld x 0 5 ∨ w.basteOn (fld x 0 5) = false then w
    else if w.dev.sys.mode.bastes = false then w.upd fun d => d.onBu (fld x 0 5) fun b =>
      { b with deferred := true, blwDue := b.blwDue || (!b.deferred && b.next == 0) }
    else if ((w.turnDue (fld x 0 5)).blwResume (fld x 0 5)).turn (fld x 0 5) = .defer then
      ((w.turnDue (fld x 0 5)).blwResume (fld x 0 5)).upd fun d => d.onBu (fld x 0 5) fun b => { b with deferred := true }
    else ((w.turnDue (fld x 0 5)).blwResume (fld x 0 5)).takeTurn (fld x 0 5) (((w.turnDue (fld x 0 5)).blwResume (fld x 0 5)).turn (fld x 0 5)) := by
  rw [W.basteGo]
  dsimp only
  refine if_congr Iff.rfl rfl ?_
  cases w.dev.sys.mode.bastes with
  | false => rfl
  | true =>
    rw [if_pos rfl, if_neg Bool.noConfusion]
    cases ((w.turnDue (fld x 0 5)).blwResume (fld x 0 5)).turn (fld x 0 5) <;> rfl

/-! The counters of a hob (R209). -/

theorem hobReg_setHobReg {u o p : Nat} : (w.setHobReg u o 0).hobReg u p = if p = o then 0 else w.hobReg u p := by
  rw [W.hobReg, W.setHobReg, W.hobReg]
  by_cases low : u < 16
  · rw [if_pos low, if_pos low, if_pos low]
    split
    · next e => rw [e]; exact getD_set_self _ _ _ _
    · next ne => exact reg_setReg_ne _ _ _ _ _ _ _ _ (by omega)
  · rw [if_neg low, if_neg low, if_neg low]
    split
    · next e => rw [e]; exact getD_set_self _ _ _ _
    · next ne => exact reg_setReg_ne _ _ _ _ _ _ _ _ (by omega)

/-- What clearing registers of a hob leaves. -/
theorem each_setHobReg {u : Nat} {os : List Nat} :
    (w.each os fun o w => w.setHobReg u o 0).ops = w.ops ∧
    (w.each os fun o w => w.setHobReg u o 0).dev = { w.dev with regs := (w.each os fun o w => w.setHobReg u o 0).dev.regs } ∧
    ∀ p, (w.each os fun o w => w.setHobReg u o 0).hobReg u p = if p ∈ os then 0 else w.hobReg u p := by
  induction os generalizing w with
  | nil => exact ⟨rfl, rfl, fun p => (if_neg List.not_mem_nil).symm⟩
  | cons o os ih =>
    obtain ⟨ops, dev, regs⟩ := ih (w := w.setHobReg u o 0)
    have first : (w.setHobReg u o 0).ops = w.ops ∧ (w.setHobReg u o 0).dev = { w.dev with regs := (w.setHobReg u o 0).dev.regs } := by
      rw [W.setHobReg]
      split <;> exact ⟨rfl, rfl⟩
    refine ⟨ops.trans first.1, dev.trans (congrArg (fun d : Dev => { d with regs := ((w.setHobReg u o 0).each os fun o w => w.setHobReg u o 0).dev.regs }) first.2), fun p => (regs p).trans ?_⟩
    rw [hobReg_setHobReg]
    by_cases here : p ∈ os
    · rw [if_pos here, if_pos (List.mem_cons_of_mem _ here)]
    · rw [if_neg here]
      exact if_congr (List.mem_cons.trans (or_iff_left here)).symm rfl rfl

theorem hobCounters {o : Nat} : o ∈ [0x20C, 0x210] ++ (List.range 8).map (fun i => 0x240 + 4 * i) ↔
    o = 0x20C ∨ o = 0x210 ∨ 0x240 ≤ o ∧ o < 0x260 ∧ o % 4 = 0 := by
  rw [List.mem_append, List.mem_map]
  simp only [List.mem_cons, List.not_mem_nil, or_false, List.mem_range]
  constructor
  · rintro ((rfl | rfl) | ⟨i, small, rfl⟩)
    · exact .inl rfl
    · exact .inr (.inl rfl)
    · exact .inr (.inr ⟨by omega, by omega, by omega⟩)
  · rintro (rfl | rfl | ⟨lo, hi, al⟩)
    · exact .inl (.inl rfl)
    · exact .inl (.inr rfl)
    · exact .inr ⟨(o - 0x240) / 4, by omega, by omega⟩

/-! CUT_PASS (R447, R457). -/

theorem cutPass_eq {h : Nat} {x : Word32} :
    let j := (List.range 4).find? fun j => w.isCore (4 * h + j) m
    let good := (∃ c go, w.dev.images.cut = some c ∧ c.switched = some go ∧ bitAt c.hearths h = true) ∧ fld x 16 16 = 0xC07E ∧
      w.dev.clock.tb.toNat < 25000 * ((w.dev.images.cut.map fun c => c.fc.toNat).getD 0 +
        ((codeOf w.dev.images.stage.head h).map (·.check)).getD 0)
    (¬ good ∨ j = none → w.cutPass m h x = w) ∧
    ∀ i, good → j = some i → w.cutPass m h x =
      if bitAt x 0 then w.upd fun d => d.onCutStat h fun t => { t with passed := setBit t.passed i true }
      else (w.upd fun d => d.onCutStat h fun t => { t with failed := setBit t.failed i true }).cutFail h 2 := by
  intro j good
  constructor
  · intro bad
    rw [W.cutPass, W.cutSwitched]
    cases cut : w.dev.images.cut with
    | none => rfl
    | some c =>
      dsimp only
      cases switched : c.switched with
      | none => rfl
      | some go =>
        dsimp only [Option.map_some]
        rw [show ((List.range 4).find? fun j => w.isCore (4 * h + j) m) = j from rfl]
        cases found : j with
        | none => rfl
        | some i =>
          refine if_neg fun ok => ?_
          refine (bad.resolve_right (by rw [found]; exact Option.some_ne_none i)) ⟨⟨c, go, cut, switched, ok.2.1⟩, ok.1, ?_⟩
          rw [cut]
          exact ok.2.2
  · rintro i ⟨⟨c, go, cut, switched, named⟩, key, early⟩ found
    rw [cut] at early
    rw [W.cutPass, W.cutSwitched, cut]
    dsimp only
    rw [switched]
    dsimp only [Option.map_some]
    rw [show ((List.range 4).find? fun j => w.isCore (4 * h + j) m) = j from rfl, found]
    exact if_pos ⟨key, named, early⟩

/-- Settles O20: each row writes one register, and the register's action is the effect that the statement names. -/
theorem registerActions : Obligations.RegisterActions := by
  intro s m v w h u ch lane at' dev l lanes busy st mode k hobOff e
  have block : ∀ o, (hobBlock u).1 = (hobOff o).1 ∧ (hobBlock u).2 = (hobOff o).2.1 := fun o => by
    rw [hobBlock]
    split
    · next low => simp only [hobOff, if_pos low, and_self]
    · next high => simp only [hobOff, if_neg high, and_self]
  refine ⟨written_of rfl laneCmd_fence, written_of rfl laneCmd_retest, fun reach => ?_, fun reach => ?_, written_of rfl ite_upd_stays,
    written_of rfl ite_stays_upd, written_of rfl rfl, written_of rfl rfl, written_of rfl retireAdd_eq, written_of rfl rfl, written_of rfl rfl,
    written_of rfl basteGo_eq, written_of rfl rfl, written_of rfl rfl, written_of rfl rfl, fun reach => ?_⟩
  · rw [← (block 0x22C).1, ← (block 0x22C).2] at reach
    exact written_of rfl hobInject_eq reach
  · rw [← (block 0x228).1, ← (block 0x228).2] at reach
    refine ⟨_, writeRow_written reach, if bitAt v 0 then w.hobCntClear u else w, rfl, ?_⟩
    obtain ⟨ops, regs, reads⟩ := each_setHobReg (w := w) (u := u) (os := [0x20C, 0x210] ++ (List.range 8).map (fun i => 0x240 + 4 * i))
    cases clear : bitAt v 0 with
    | false => exact ⟨rfl, rfl, fun o => (if_neg fun h => Bool.false_ne_true h.1).symm⟩
    | true =>
      refine ⟨ops, regs, fun o => (reads o).trans (if_congr ?_ rfl rfl)⟩
      exact hobCounters.trans (and_iff_right rfl).symm
  · obtain ⟨stays, takes⟩ := cutPass_eq (w := w) (m := m) (h := h) (x := v)
    exact ⟨fun bad => written_of (f := id) rfl (stays bad) reach, fun i good found on => written_of rfl ((takes i good found).trans (if_pos on)) reach,
      fun i good found off => written_of rfl ((takes i good found).trans (if_neg (by rw [off]; exact Bool.false_ne_true))) reach⟩

end Sys2Proof.Proofs
end

section
/-! O19: a register write wakes the domain of its block (R459), which the statement's plain writes leave out. -/

namespace Sys2Proof.Proofs

open Machine Laws

set_option Elab.async false

/-- The machine in RUN with the domain of the field ports OFF. -/
def portsOff : State :=
  { State.reset with dev := { State.reset.dev.onDom 239 fun x => { x with st := .off } with sys := { State.reset.dev.sys with mode := .run } } }

/-- A row leaves domain `n` ON. -/
def leavesOn (i : Instr) (s : State) (n : Nat) : Bool :=
  match exec i s with
  | .next t => (t.dev.dom n).st == .on
  | _ => false

theorem leavesOn_of {i : Instr} {s t : State} {n : Nat} (ran : exec i s = .next t) : leavesOn i s n = ((t.dev.dom n).st == .on) := by
  rw [leavesOn, ran]

/-- The Stoker writes an offset of FIO that no register occupies, with the domain of the field ports OFF. -/
theorem portsOff_wakes :
    leavesOn (.registerWrite portsOff.world.stokerRid (BitVec.ofNat 48 (blockBase 7 0 + 0x7FFC)) 4 0) portsOff 239 = true := by decide +kernel

theorem portsOff_reaches : WriteReaches portsOff portsOff.world.stokerRid 7 0 0x7FFC 0 portsOff.world :=
  ⟨by decide +kernel, by decide +kernel, by decide +kernel, by decide +kernel, .inl ⟨rfl, rfl⟩⟩

theorem portsOff_plain : portsOff.world.action portsOff.world.stokerRid 7 0 0x7FFC 0 = none ∧ portsOff.world.regRow 7 0x7FFC = none :=
  ⟨by decide +kernel, by decide +kernel⟩

/-- Refutes O19: a register write of FIO with its domain OFF wakes the domain first (R459), so that it leaves more than the write
has made. -/
theorem not_registerBlocks : ¬ Obligations.RegisterBlocks := by
  intro holds
  obtain ⟨-, -, -, -, -, writes, -⟩ := holds portsOff portsOff.world.stokerRid ⟨7, 0⟩ 0 portsOff.world
  obtain ⟨-, ignored, -⟩ := writes 0x7FFC portsOff_reaches (by decide) (by decide) (by decide) (by decide)
  obtain ⟨t, ran, written⟩ := ignored portsOff_plain.1 portsOff_plain.2
  have off : (t.dev.dom 239).st = .off := by
    rw [show t = _ from written]
    rfl
  have wakes : ((t.dev.dom 239).st == DomSt.on) = true := (leavesOn_of ran).symm.trans portsOff_wakes
  rw [off] at wakes
  exact absurd wakes (by decide)

end Sys2Proof.Proofs
end

section
/-! O23: the record of a failed seam test names its target in four bits, and a rethread of an arbitrary state may hold any
number as its lane. -/

namespace Sys2Proof.Proofs

open Machine Laws

set_option Elab.async false

/-- Core 0 in TMR, with a rethread in progress whose lane is no lane of its unit. -/
def strangeRethread : State :=
  { State.reset with dev := State.reset.dev.onSeam 0 fun x => { x with mode := .tmr, rethread := some { lane := 16, slot := 0 } } }

/-- The source entry that a row leaves. -/
def srcLeft (i : Instr) (s : State) (n : Nat) : Src :=
  match exec i s with
  | .next t => t.dev.src n
  | _ => {}

theorem srcLeft_of {i : Instr} {s t : State} {n : Nat} (ran : exec i s = .next t) : srcLeft i s n = t.dev.src n := by
  rw [srcLeft, ran]

theorem strangeRethread_src : strangeRethread.dev.src 0xE0 = {} := by decide +kernel

theorem strangeRethread_record :
    (srcLeft (.rethreadComplete 0 .ok false) strangeRethread 0xE0).count = 1 ∧
    fld (srcLeft (.rethreadComplete 0 .ok false) strangeRethread 0xE0).first.d0 9 3 = 5 := by decide +kernel

/-- A counted first event of an empty entry is the one that the entry keeps. -/
theorem first_of_counted {level : Bool} {r : Rec} (counted : (Src.after {} level r).count ≠ 0) : (Src.after {} level r).first = r := by
  by_cases logged : bitAt r.react 0 = true <;> cases level <;> cases test : r.test <;> simp_all [Src.after]

/-- Refutes O23: the target of lane 16 carries into OUTCOME, so that the record of a failed seam test reads 5, not SEAM_FAIL. -/
theorem not_rethreadsAndFenceCounts : ¬ Obligations.RethreadsAndFenceCounts := by
  intro holds
  obtain ⟨-, -, seamFails, -⟩ := holds strangeRethread 0 .ok false 0 0
  obtain ⟨t, ran, -, -, info, m, row, outcome, -, entry⟩ := seamFails { lane := 16, slot := 0 } rfl (by decide)
  have left : srcLeft (.rethreadComplete 0 .ok false) strangeRethread 0xE0 =
      Src.after {} row.level { eventOf strangeRethread 0xE0 info 0 strangeRethread.dev.clock.tb with mode := m } := by
    rw [srcLeft_of ran, ← strangeRethread_src]
    exact entry
  obtain ⟨count, target⟩ := strangeRethread_record
  have kept := first_of_counted (level := row.level) (r := { eventOf strangeRethread 0xE0 info 0 strangeRethread.dev.clock.tb with mode := m })
    (by rw [← left, count]; decide)
  rw [left, kept] at target
  exact absurd (outcome.symm.trans target) (by decide)

end Sys2Proof.Proofs
end

section
/-! O14: power on, brown-out, RESET_N and DOZE (R33, R41, R47, R50, R76, R470, R471, R533). -/

namespace Sys2Proof.Proofs

open Machine Laws

set_option Elab.async false

variable {s : State} {w : W}

/-- Rows that end in equal worlds end alike. -/
theorem next_of {v v' : W} (same : v = v') :
    (Host.Outcome.next (stateOf s v) : Host.Outcome State Fault Refusal) = .next (stateOf s v') :=
  congrArg (fun w => Host.Outcome.next (stateOf s w)) same

/-- A gap only grows. -/
theorem le_grow {x : Gap} {rs : List Rec} : x.n ≤ (x.grow rs).n := by
  unfold Gap.grow
  split
  · exact Nat.le_add_right _ _
  · exact le_rfl

theorem railsOk_iff : w.railsOk = true ↔ ∀ r < 11, (w.dev.src (0x60 + r)).active = false := by
  simp [W.railsOk, W.active]

/-- What a device reset leaves, with the gap of the event ring grown (R33, R292). -/
theorem deviceReset_eq : ∃ (gap : Gap) (nonce : Word32), (w.dropRequesters fun _ => true).dev.flue.evqGap.n ≤ gap.n ∧
    w.deviceReset = (w.dropRequesters fun _ => true).upd fun d => { d.afterReset gap nonce with free := d.free + 1 } := by
  unfold W.deviceReset
  generalize w.dropRequesters (fun _ => true) = v
  exact ⟨_, _, le_grow, rfl⟩

/-- Settles O14: each is its operations in its own modes, and nothing elsewhere; what a device reset adds to the gap is not negative. -/
theorem powerAndResets : Obligations.PowerAndResets := by
  intro s pos d m still
  refine ⟨?_, ?_, ?_, fun hold bad => ?_, fun away => ⟨_, next_of (if_neg away), rfl⟩, fun hold good => ?_, ?_, ?_⟩
  · split
    · next off => exact ⟨_, next_of (if_pos off), rfl⟩
    · next on => exact ⟨_, next_of (if_neg on), rfl⟩
  · split
    · next off => exact ⟨_, next_of (if_pos off), rfl⟩
    · next on => exact ⟨_, next_of (if_neg on), rfl⟩
  · split
    · next off => exact ⟨_, next_of (if_pos off), rfl⟩
    · next on =>
      obtain ⟨gap, nonce, grows, reset⟩ := deviceReset_eq (w := s.world)
      refine ⟨_, next_of ((if_neg on).trans reset), gap, grows, ?_⟩
      unfold Leaves
      dsimp only
      generalize s.world.dropRequesters (fun _ => true) = v
      rfl
  · exact ⟨_, next_of ((if_pos hold).trans (if_neg fun ok => bad (railsOk_iff.mp ok))), rfl⟩
  · refine ⟨_, next_of ((if_pos hold).trans (if_pos (railsOk_iff.mpr good))), ?_⟩
    simp only [Only, stateOf, W.stampMode, W.upd, State.world]
    rw [show s.dev.sys.mode = .hold from hold]
    rfl
  · split
    · next armed => exact ⟨_, next_of (if_pos armed), rfl⟩
    · next idle => exact ⟨_, next_of (if_neg idle), rfl⟩
  · split
    · next doze => exact ⟨_, next_of (if_pos doze), rfl⟩
    · next awake => exact ⟨_, next_of (if_neg awake), rfl⟩

end Sys2Proof.Proofs
end

section
/-! O15: a mode transition (R40, R47), from one lemma for each operation of `setMode`. -/

namespace Sys2Proof.Proofs

open Machine Laws

set_option Elab.async false

variable {w v : W} {b : Bool}

/-- What the end of a command, a write of a hob and a release of the error pin leave alone. -/
def fixed (d : Dev) :=
  (d.sys, d.clock, d.cores, d.bellows, d.dampers, d.bobbin, d.wdts, d.flue.srcs, d.stoker.serving)

/-- The world `v` is `w` in what `fixed` names, and no more events wait. -/
def Fixed (w v : W) : Prop := fixed v.dev = fixed w.dev ∧ v.due = w.due

theorem Fixed.refl : Fixed w w := ⟨rfl, rfl⟩

theorem Fixed.trans {a b c : W} (h : Fixed a b) (k : Fixed b c) : Fixed a c := ⟨k.1.trans h.1, k.2.trans h.2⟩

theorem Fixed.ite {a b c : W} {p : Prop} [Decidable p] (h : Fixed a b) (k : Fixed a c) : Fixed a (if p then b else c) := by
  split <;> assumption

theorem Fixed.upd {a : W} {f : Dev → Dev} (h : Fixed a w) (k : ∀ d, fixed (f d) = fixed d := by exact fun _ => rfl) :
    Fixed a (w.upd f) := h.trans ⟨k w.dev, rfl⟩

theorem Fixed.each {α : Type} {a : W} {xs : List α} {f : α → W → W} (h : Fixed a w) (k : ∀ x v, Fixed v (f x v)) :
    Fixed a (w.each xs f) := by
  induction xs generalizing w with
  | nil => exact h
  | cons x xs ih => exact ih (h.trans (k x w))

theorem fixed_deliver {k : Nat} {r : Reply} : Fixed w (w.deliver k r) := by
  refine Fixed.refl.upd fun d => ?_
  dsimp only
  split
  · rfl
  · split <;> rfl

theorem fixed_reply {p : Packet} {opc : Half} {status : Nat} {final stale : Bool} {result : List Byte} :
    Fixed w (w.reply p opc status final result stale) :=
  fixed_deliver.trans (.ite .refl (.upd .refl))

theorem fixed_finishAll {opc key status : Nat} {result : List Byte} : Fixed w (w.finishAll opc key status result) :=
  .each .refl fun _ _ => Fixed.refl.upd.trans (.ite fixed_reply .refl)

theorem fixed_errRelease : Fixed w w.errRelease := Fixed.refl.upd.trans fixed_finishAll

theorem fixed_errAuto : Fixed w w.errAuto := .ite fixed_errRelease .refl

theorem fixed_cancelErr : Fixed w w.cancelErr := Fixed.refl.upd.trans fixed_finishAll

theorem fixed_endCutover {outcome : Nat} : Fixed w (w.endCutover outcome) := by
  unfold W.endCutover
  split
  · exact .refl
  · exact Fixed.refl.upd.each (fun _ _ => Fixed.refl.upd) |>.trans fixed_finishAll

theorem fixed_put {a : Nat} {bs : List Byte} : Fixed w (w.put a bs) := by
  refine ⟨?_, rfl⟩
  show fixed (ite _ _ _) = _
  split <;> rfl

theorem fixed_hobInjected {u k : Nat} {as : List Nat} : Fixed w (w.hobInjected u k as) := by
  unfold W.hobInjected
  split
  · exact .ite (.upd .refl) .refl
  · exact .refl

theorem fixed_hobWriteParts {u k : Nat} {ps : List (Nat × List Byte)} : Fixed w (w.hobWriteParts u k ps) :=
  Fixed.ite (p := (w.dev.hob u).power = .awake) .refl (.upd .refl) |>.upd |>.each (fun _ _ => fixed_put) |>.trans fixed_hobInjected

/-- What a transition stamps, and the counters (R40). -/
def stamped (d : Dev) := (d.sys.mode, d.sys.prev, d.sys.seq, d.sys.stamp, d.clock)

/-- A channel may come to energise its output (R278). -/
def Awake (c : Damper) : Prop := c.st = .live ∨ c.st = .armed ∨ c.st = .starting

/-- The bellows is stopped as R234 has it. -/
def Still (x : Bellows) : Prop := x.phase = .stopped ∧ x.all = true

/-- Nothing begins to act between `w` and `v`: the mode stands, no channel is armed, no bellows starts, and, where `b` says so, no
core either. -/
structure Calmer (b : Bool) (w v : W) : Prop where
  mode : stamped v.dev = stamped w.dev
  ch : ∀ n, Awake (v.dev.damper n) → Awake (w.dev.damper n)
  blw : ∀ h, Still (w.dev.blw h) → Still (v.dev.blw h)
  run : b = true → ∀ k, (v.dev.core k).run = true → (w.dev.core k).run = true

theorem Calmer.refl : Calmer b w w := ⟨rfl, fun _ => id, fun _ => id, fun _ _ => id⟩

theorem Calmer.trans {a c : W} (h : Calmer b a w) (k : Calmer b w c) : Calmer b a c :=
  ⟨k.mode.trans h.mode, fun n => h.ch n ∘ k.ch n, fun n => k.blw n ∘ h.blw n, fun on n => h.run on n ∘ k.run on n⟩

theorem Calmer.ite {a c : W} {p : Prop} [Decidable p] (h : Calmer b w a) (k : Calmer b w c) : Calmer b w (if p then a else c) := by
  split <;> assumption

theorem Calmer.each {α : Type} {a : W} {xs : List α} {f : α → W → W} (h : Calmer b a w) (k : ∀ x v, Calmer b v (f x v)) :
    Calmer b a (w.each xs f) := by
  induction xs generalizing w with
  | nil => exact h
  | cons x xs ih => exact ih (h.trans (k x w))

theorem Fixed.calmer (h : Fixed w v) : Calmer b w v := by
  obtain ⟨same, -⟩ := h
  simp only [fixed, Prod.mk.injEq] at same
  obtain ⟨sys, clock, cores, bellows, dampers, -⟩ := same
  refine ⟨?_, fun n => ?_, fun n => ?_, fun _ n => ?_⟩
  · rw [stamped, stamped, sys, clock]
  · rw [Dev.damper, Dev.damper, dampers]; exact id
  · rw [Dev.blw, Dev.blw, bellows]; exact id
  · rw [Dev.core, Dev.core, cores]; exact id

/-- A change of one damper channel that does not arm it. -/
theorem calmer_onDamper {n : Nat} {f : Damper → Damper} (calm : ∀ c, Awake (f c) → Awake c) :
    Calmer b w (w.upd fun d => d.onDamper n f) := by
  refine ⟨rfl, fun k => ?_, fun _ => id, fun _ _ => id⟩
  show Awake ((w.dev.onDamper n f).damper k) → _
  rw [damper_onDamper]
  split
  · next e => exact e ▸ calm _
  · exact id

theorem not_awake_of_safe {c : Damper} (safe : c.st = .safe) : ¬ Awake c := by
  rintro (e | e | e) <;> rw [safe] at e <;> cases e

theorem calmer_safeCh {n : Nat} : Calmer b w (w.safeCh n) := by
  refine calmer_onDamper fun c => ?_
  split
  · exact fun h => absurd h (not_awake_of_safe rfl)
  · exact id

/-- A channel that has returned to SAFE stays so while the others follow. -/
theorem not_awake_safeAll (ns : List Nat) (n : Nat) (up : Awake ((w.each ns fun n w => w.safeCh n).dev.damper n)) : n ∉ ns := by
  induction ns generalizing w with
  | nil => exact List.not_mem_nil
  | cons x xs ih =>
    refine fun mem => (List.mem_cons.mp mem).elim (fun first => ?_) (ih up)
    have before := (Calmer.each (b := true) (w := w.safeCh x) .refl fun _ _ => calmer_safeCh).ch n up
    change Awake ((w.dev.onDamper x _).damper n) at before
    rw [first, damper_onDamper_self] at before
    revert before
    split
    · exact not_awake_of_safe rfl
    · next quiet => exact fun up => quiet (by rcases up with e | e | e <;> simp [e])

theorem calmer_releaseChs : Calmer b w w.releaseChs :=
  .each .refl fun _ _ => .ite (calmer_onDamper fun _ h => absurd h (not_awake_of_safe rfl)) .refl

theorem Calmer.upd {a : W} {f : Dev → Dev} (h : Calmer b a w)
    (k : ∀ d, fixed (f d) = fixed d := by exact fun _ => rfl) : Calmer b a (w.upd f) := h.trans (Fixed.refl.upd k).calmer

theorem calmer_endEpisode : Calmer b w w.endEpisode := Calmer.refl.upd.trans calmer_releaseChs

theorem calmer_firstPrepare : Calmer b w w.firstPrepare :=
  .ite .refl (Calmer.trans (w := w.upd fun d => { d with sys := { d.sys with prepared := true } })
    ⟨rfl, fun _ => id, fun _ => id, fun _ _ => id⟩ (.ite .refl (.ite fixed_errRelease.calmer (.upd .refl))))

/-- A step of the device in what no clause of a transition reads, and in the waits of the cores. -/
structure Drowsy (d e : Dev) : Prop where
  mode : stamped e = stamped d
  dampers : e.dampers = d.dampers
  bellows : e.bellows = d.bellows
  run : ∀ k, (e.core k).run = (d.core k).run

theorem Drowsy.trans {d e f : Dev} (h : Drowsy d e) (k : Drowsy e f) : Drowsy d f :=
  ⟨k.mode.trans h.mode, k.dampers.trans h.dampers, k.bellows.trans h.bellows, fun n => (k.run n).trans (h.run n)⟩

theorem Drowsy.power {d e : Dev} {p : Power} (h : Drowsy d e) : Drowsy d { e with power := p } :=
  ⟨h.mode, h.dampers, h.bellows, h.run⟩

theorem Drowsy.foldl {α : Type} {f : Dev → α → Dev} (k : ∀ d x, Drowsy d (f d x)) (xs : List α) (d : Dev) : Drowsy d (xs.foldl f d) := by
  induction xs generalizing d with
  | nil => exact ⟨rfl, rfl, rfl, fun _ => rfl⟩
  | cons x xs ih => exact (k d x).trans (ih _)

theorem drowsy_onDom {n : Nat} {f : Domain → Domain} (d : Dev) : Drowsy d (d.onDom n f) := ⟨rfl, rfl, rfl, fun _ => rfl⟩

theorem drowsy_onHob {n : Nat} {f : Hob → Hob} (d : Dev) : Drowsy d (d.onHob n f) := ⟨rfl, rfl, rfl, fun _ => rfl⟩

theorem core_onCore (d : Dev) (k n : Nat) (f : Core → Core) : (d.onCore k f).core n = if n = k then f (d.core k) else d.core n := by
  split
  · next e => rw [e, core_onCore_self]
  · next ne => exact core_onCore_ne _ _ _ _ ne

theorem drowsy_onCore {k : Nat} {f : Core → Core} (same : ∀ c, (f c).run = c.run) (d : Dev) : Drowsy d (d.onCore k f) := by
  refine ⟨rfl, rfl, rfl, fun n => ?_⟩
  rw [core_onCore]
  split
  · next e => rw [same, e]
  · rfl

theorem drowsy_dozeDown (d : Dev) : Drowsy d d.dozeDown := by
  unfold Dev.dozeDown
  generalize List.range 208 = l1
  generalize List.range 16 = l2
  generalize List.range 6 = l3
  generalize ([230, 231, 232, 233, 234, 236, 239, 240] : List Nat) = l4
  generalize List.range 17 = l5
  generalize List.range 64 = l6
  have onDom (g : Nat → Nat) (f : Domain → Domain) (l : List Nat) (d : Dev) : Drowsy d (l.foldl (fun d n => d.onDom (g n) f) d) :=
    .foldl (fun d _ => drowsy_onDom d) l d
  have hobs (d : Dev) : Drowsy d (l5.foldl (fun d h => d.onHob h fun x => { x with power := .ret45 }) d) :=
    .foldl (fun d _ => drowsy_onHob d) l5 d
  have cores (d : Dev) : Drowsy d (l6.foldl (fun d k => d.onCore k fun x => { x with wait := .wait }) d) :=
    .foldl (fun d _ => drowsy_onCore (f := fun x => { x with wait := .wait }) (fun _ => rfl) d) l6 d
  refine .power (.trans (.trans ?_ (hobs _)) (cores _))
  exact (onDom id _ l1 _).trans (onDom (208 + ·) _ l2 _) |>.trans (onDom (224 + ·) _ l3 _) |>.trans (onDom id _ l4 _)

theorem Drowsy.calmer {f : Dev → Dev} (h : Drowsy w.dev (f w.dev)) : Calmer b w (w.upd f) := by
  refine ⟨h.mode, fun n => ?_, fun n => ?_, fun _ n => ?_⟩
  · show Awake ((f w.dev).damper n) → _
    rw [Dev.damper, h.dampers]; exact id
  · show _ → Still ((f w.dev).blw n)
    rw [Dev.blw, Dev.blw, h.bellows]; exact id
  · show ((f w.dev).core n).run = true → _
    rw [h.run]; exact id

theorem calmer_domainUp {n : Nat} : Calmer b w (w.domainUp n) := by
  refine Drowsy.calmer ?_
  dsimp only
  split
  · exact (drowsy_onDom _).trans (drowsy_onHob _)
  · exact drowsy_onDom _

theorem calmer_dozeUp : Calmer b w w.dozeUp := by
  unfold W.dozeUp
  refine .each (Drowsy.calmer ?_) fun _ _ => .ite .refl calmer_domainUp
  generalize List.range 17 = hs
  generalize List.range 64 = ks
  have hobs := Drowsy.foldl (f := fun d h => d.onHob h fun x => { x with power := if h = 16 then .awake else .ret55 })
    (fun d _ => drowsy_onHob d) hs w.dev
  exact .power (hobs.trans (.foldl (f := fun d k => d.onCore k fun x => { x with wait := .awake })
    (fun d _ => drowsy_onCore (f := fun x => { x with wait := .awake }) (fun _ => rfl) d) ks _))

theorem calmer_doze : Calmer b w (w.latchPads.upd Dev.dozeDown) :=
  Calmer.trans (w := w.latchPads) (.ite .refl (.upd .refl)) (Drowsy.calmer (drowsy_dozeDown _))

/-- A core that starts is no channel and no bellows. -/
theorem calmer_startCore {k : Nat} : Calmer false w (w.startCore k) := by
  unfold W.startCore
  split
  · exact .refl
  · dsimp only
    refine .ite ?_ ?_ <;> exact ⟨rfl, fun _ => id, fun _ => id, fun on => nomatch on⟩

theorem calmer_startCores : Calmer false w w.startCores := .each .refl fun _ _ => .ite calmer_startCore .refl

/-! The bellows stop (R47, R234). -/

theorem blw_onBlw (d : Dev) (k n : Nat) (f : Bellows → Bellows) : (d.onBlw k f).blw n = if n = k then f (d.blw k) else d.blw n := by
  split
  · next e => rw [e, blw_onBlw_self]
  · next ne => exact blw_onBlw_ne _ _ _ _ ne

theorem calmer_onBlw {h : Nat} {f : Bellows → Bellows} (calm : ∀ x, Still x → Still (f x)) : Calmer b w (w.upd fun d => d.onBlw h f) := by
  refine ⟨rfl, fun _ => id, fun n still => ?_, fun _ _ => id⟩
  show Still ((w.dev.onBlw h f).blw n)
  rw [blw_onBlw]
  split
  · next e => exact calm _ (e ▸ still)
  · exact still

theorem calmer_flushParams {h : Nat} : Calmer b w (w.flushParams h) := by
  unfold W.flushParams
  exact Calmer.refl.each (fun _ _ => .each .refl fun _ _ => fixed_hobWriteParts.calmer) 
    |>.trans (calmer_onBlw (f := fun x => { x with params := [] }) fun _ => id) |>.trans (fixed_finishAll.trans fixed_finishAll).calmer

theorem calmer_takeBank {h : Nat} : Calmer b w (w.takeBank h) :=
  (calmer_onBlw (f := fun x => { x with bankB := bitAt (w.hreg h 0x600) 0 }) fun _ => id).trans fixed_finishAll.calmer

theorem calmer_stopOne {h : Nat} : Calmer b w (w.stopOne h) :=
  (calmer_onBlw fun _ _ => ⟨rfl, rfl⟩).trans calmer_flushParams |>.trans calmer_takeBank

theorem still_stopOne {h : Nat} : Still ((w.stopOne h).dev.blw h) := by
  unfold W.stopOne
  refine (Calmer.trans (b := true) calmer_flushParams calmer_takeBank).blw h ?_
  rw [show ∀ f, (w.upd fun d => d.onBlw h f).dev.blw h = f (w.dev.blw h) from fun f => blw_onBlw_self _ _ _]
  exact ⟨rfl, rfl⟩

theorem still_each {f : Nat → W → W} {hs : List Nat} {h : Nat} (calm : ∀ k v, Calmer true v (f k v)) (still : ∀ v, Still ((f h v).dev.blw h))
    (mem : h ∈ hs) : Still ((w.each hs f).dev.blw h) := by
  induction hs generalizing w with
  | nil => cases mem
  | cons x xs ih =>
    have after : Calmer true (f x w) ((f x w).each xs f) := .each .refl calm
    rcases List.mem_cons.mp mem with rfl | later
    · exact after.blw h (still w)
    · exact ih later

theorem still_each_stopOne {hs : List Nat} {h : Nat} (mem : h ∈ hs) : Still ((w.each hs fun h w => w.stopOne h).dev.blw h) :=
  still_each (fun _ _ => calmer_stopOne) (fun _ => still_stopOne) mem

/-! The cores that no longer may execute are reset (R33, R47). -/

/-- No packet is open, no event waits, and the two level sources that follow the state tell it. -/
structure Told (w : W) : Prop where
  opens : w.dev.bobbin.opens = []
  due : w.due = []
  pool : PoolTold w
  held : HeldTold w

/-- Where the pool is told and nothing waits, nothing follows an operation. -/
theorem settle_told (due : w.due = []) (pool : PoolTold w) : w.settle = w := by
  have same : ({ w with due := [] } : W) = w := by rw [← due]
  have once : w.drainOnce = w := by
    unfold W.drainOnce
    rw [due]
    exact same
  have drained : w.drainDue = w := by rw [W.drainDue, once, once]
  rw [W.settle, drained, W.poolCheck]
  unfold PoolTold at pool
  rw [pool]
  cases w.active 0x2C3 <;> rfl

theorem dropRequesters_told {sel : Rid → Bool} (told : Told w) :
    w.dropRequesters sel = w.onBob fun x => { x with waiters := x.waiters.filter (fun y => !sel y.rid) } := by
  unfold W.dropRequesters
  rw [told.opens]
  exact settle_told told.due told.pool

/-- Told is what depends on the pool, the watchdogs and the sources alone. -/
theorem Told.congr (told : Told w) (bobbin : v.dev.bobbin = w.dev.bobbin) (due : v.due = w.due) (wdts : v.dev.wdts = w.dev.wdts)
    (srcs : v.dev.flue.srcs = w.dev.flue.srcs) : Told v := by
  obtain ⟨opens, none, pool, held⟩ := told
  have active (n : Nat) : v.active n = w.active n := by rw [W.active, W.active, Dev.src, Dev.src, srcs]
  refine ⟨bobbin ▸ opens, due.trans none, ?_, ?_⟩
  · unfold PoolTold at pool ⊢
    rw [bobbin, active, pool]
  · unfold HeldTold at held ⊢
    rw [active]
    simpa only [Dev.wdt, wdts] using held

theorem Fixed.told (h : Fixed w v) (told : Told w) : Told v := by
  obtain ⟨same, due⟩ := h
  simp only [fixed, Prod.mk.injEq] at same
  obtain ⟨-, -, -, -, -, bobbin, wdts, srcs, -⟩ := same
  exact told.congr bobbin due wdts srcs

theorem src_onSrc (d : Dev) (k n : Nat) (f : Src → Src) : (d.onSrc k f).src n = if n = k then f (d.src k) else d.src n := by
  split
  · next e => rw [e, src_onSrc_self]
  · next ne => exact src_onSrc_ne _ _ _ _ ne

theorem active_inactive {n k : Nat} : (w.inactive n).active k = if k = n then false else w.active k := by
  obtain ⟨same, -⟩ := fixed_errAuto (w := w.upd fun d => d.onSrc n fun x => { x with active := false })
  have srcs : (w.inactive n).dev.flue.srcs = (w.dev.onSrc n fun x => { x with active := false }).flue.srcs := by
    simp only [fixed, Prod.mk.injEq] at same
    exact same.2.2.2.2.2.2.2.1
  rw [W.active, Dev.src, srcs]
  show ((w.dev.onSrc n fun x => { x with active := false }).src k).active = _
  rw [src_onSrc]
  split <;> rfl

theorem calmer_inactive {n : Nat} : Calmer b w (w.inactive n) :=
  Calmer.trans (w := w.upd fun d => d.onSrc n fun x => { x with active := false })
    ⟨rfl, fun _ => id, fun _ => id, fun _ _ => id⟩ fixed_errAuto.calmer

/-- A source that ends leaves the rest told where it is neither of the two, or where it follows the state. -/
theorem told_inactive {n : Nat} (told : Told w) (pool : n ≠ 0x2C3)
    (held : n = 0x0C5 → ∀ k, k < 65 → (w.dev.wdt k).frozen = false ∧ (w.dev.wdt k).susp = false) : Told (w.inactive n) := by
  obtain ⟨same, due⟩ := fixed_errAuto (w := w.upd fun d => d.onSrc n fun x => { x with active := false })
  simp only [fixed, Prod.mk.injEq] at same
  obtain ⟨-, -, -, -, -, bobbin, wdts, -⟩ := same
  refine ⟨?_, due.trans told.due, ?_, ?_⟩
  · rw [W.inactive, bobbin]; exact told.opens
  · unfold PoolTold
    rw [active_inactive, if_neg (Ne.symm pool), W.inactive, bobbin]
    exact told.pool
  · unfold HeldTold
    rw [active_inactive]
    simp only [W.inactive, Dev.wdt, wdts]
    by_cases e : n = 0x0C5
    · exact .inl (held e)
    · rw [if_neg (Ne.symm e)]
      exact told.held

theorem wdtHeld_told (told : Told w) : Calmer b w w.wdtHeld ∧ Told w.wdtHeld := by
  unfold W.wdtHeld
  split
  · next k found =>
    have active : w.active 0x0C5 = true := by
      refine told.held.resolve_left fun none => ?_
      obtain ⟨frozen, susp⟩ := none k (List.mem_range.mp (List.mem_of_find?_eq_some found))
      have := List.find?_some found
      simp [frozen, susp] at this
    rw [W.level, if_pos active]
    exact ⟨.refl, told⟩
  · next none =>
    split
    · refine ⟨calmer_inactive, told_inactive told (by decide) fun _ k below => ?_⟩
      simpa using List.find?_eq_none.mp none k (List.mem_range.mpr below)
    · exact ⟨.refl, told⟩

theorem entryHeld_told {h : Nat} (low : h < 16) (told : Told w) : Calmer b w (w.entryHeld h) ∧ Told (w.entryHeld h) := by
  unfold W.entryHeld
  dsimp only
  split
  · exact ⟨calmer_inactive, told_inactive told (by omega) (by omega)⟩
  · exact ⟨.refl, told⟩

theorem wdt_onWdt (d : Dev) (k n : Nat) (f : Wdt → Wdt) : (d.onWdt k f).wdt n = if n = k then f (d.wdt k) else d.wdt n := by
  split
  · next e => rw [e, wdt_onWdt_self]
  · next ne => exact wdt_onWdt_ne _ _ _ _ ne

theorem fixed_resetCompares {k : Nat} : Fixed w (w.resetCompares k) := .ite (.upd .refl) (Fixed.refl.upd.upd.upd.upd)

/-- The core, its watchdog and its seam are cleared: the core no longer runs. -/
theorem clearCore_told {k : Nat} (told : Told w) :
    Calmer b w (w.clearCore k) ∧ Told (w.clearCore k) ∧ ((w.clearCore k).dev.core k).run = false := by
  have first := fixed_resetCompares (w := w) (k := k)
  unfold W.clearCore
  generalize w.resetCompares k = v at first ⊢
  have told := first.told told
  refine ⟨first.calmer.trans ⟨rfl, fun _ => id, fun _ => id, fun _ n on => ?_⟩, ⟨told.opens, told.due, told.pool, ?_⟩, ?_⟩
  · change ((v.dev.onCore k fun _ => {}).core n).run = true at on
    rw [core_onCore] at on
    split at on
    · cases on
    · exact on
  · refine told.held.imp_left fun free n below => ?_
    have clear := wdt_onWdt (v.dev.onCore k fun _ => {}) k n fun t => { cause := t.cause, count := t.count }
    have free : ((if n = k then { cause := (v.dev.wdt k).cause, count := (v.dev.wdt k).count } else v.dev.wdt n : Wdt).frozen = false) ∧
        (if n = k then { cause := (v.dev.wdt k).cause, count := (v.dev.wdt k).count } else v.dev.wdt n : Wdt).susp = false := by
      split
      · exact ⟨rfl, rfl⟩
      · exact free n below
    exact ⟨(congrArg Wdt.frozen clear).trans free.1, (congrArg Wdt.susp clear).trans free.2⟩
  · show ((v.dev.onCore k fun _ => {}).core k).run = false
    rw [core_onCore_self]

/-- A core reset of an application core where all is told (R33). -/
theorem coreReset_told {k : Nat} (low : k < 64) (told : Told w) :
    Calmer b w (w.coreReset k) ∧ Told (w.coreReset k) ∧ ((w.coreReset k).dev.core k).run = false := by
  unfold W.coreReset
  rw [if_pos low, dropRequesters_told told]
  have dropped (f : Bobbin → Bobbin) (same : f w.dev.bobbin = { w.dev.bobbin with waiters := (f w.dev.bobbin).waiters }) :
      Calmer b w (w.onBob f) ∧ Told (w.onBob f) := by
    refine ⟨⟨rfl, fun _ => id, fun _ => id, fun _ _ => id⟩, ?_, told.due, ?_, told.held⟩
    · show (f w.dev.bobbin).opens = []
      rw [same]; exact told.opens
    · show ((f w.dev.bobbin).sharedFree == 0) = _
      rw [same]; exact told.pool
  obtain ⟨calm, told⟩ := dropped (fun x => { x with waiters := x.waiters.filter (fun y => !w.isCore k y.rid) }) rfl
  obtain ⟨cleared, told, stopped⟩ := clearCore_told (b := b) (k := k) told
  obtain ⟨held, told⟩ := wdtHeld_told (b := true) told
  obtain ⟨entry, told⟩ := entryHeld_told (b := true) (h := k / 4) (by omega) told
  have weaken {v w : W} (h : Calmer true v w) : Calmer b v w := ⟨h.mode, h.ch, h.blw, fun _ => h.run rfl⟩
  refine ⟨calm.trans cleared |>.trans (weaken held) |>.trans (weaken entry), told, ?_⟩
  refine Bool.eq_false_iff.mpr fun on => ?_
  rw [held.run rfl k (entry.run rfl k on)] at stopped
  cases stopped

theorem each_coreReset {ks : List Nat} (low : ∀ k ∈ ks, k < 64) (told : Told w) :
    Calmer true w (w.each ks fun k w => w.coreReset k) ∧ Told (w.each ks fun k w => w.coreReset k) ∧
    ∀ k ∈ ks, ((w.each ks fun k w => w.coreReset k).dev.core k).run = false := by
  induction ks generalizing w with
  | nil => exact ⟨.refl, told, nofun⟩
  | cons x xs ih =>
    obtain ⟨low, lows⟩ := List.forall_mem_cons.mp low
    obtain ⟨calm, told, stopped⟩ := coreReset_told (b := true) low told
    obtain ⟨calms, told, stops⟩ := ih lows told
    refine ⟨calm.trans calms, told, fun k mem => ?_⟩
    rcases List.mem_cons.mp mem with rfl | later
    · refine Bool.eq_false_iff.mpr fun on => ?_
      rw [calms.run rfl k on] at stopped
      cases stopped
    · exact stops k later

/-! The transition as a whole. -/

/-- What a transition does before the cores: it is stamped, and the channels leave where the mode leaves the running ones. -/
def leaving (w : W) (new : Mode) : W :=
  if w.dev.sys.mode.running && !new.running then
    ((w.stampMode new).each (List.range 64) fun n w => w.safeCh n).endCutover 4 else w.stampMode new

/-- Then the cores are reset that may no longer execute. -/
def holding (w : W) (new : Mode) : W :=
  if new.coresRun then leaving w new
  else (leaving w new).each ((List.range 64).filter fun k => ((leaving w new).dev.core k).run) fun k w => w.coreReset k

/-- Then the bellows stop. -/
def stilling (w : W) (new : Mode) : W := if new.bellowsRun then holding w new else (holding w new).stopBellows

theorem told_each_safeCh {ns : List Nat} (told : Told w) : Told (w.each ns fun n w => w.safeCh n) := by
  induction ns generalizing w with
  | nil => exact told
  | cons n ns ih => exact ih (told.congr rfl rfl rfl rfl)

theorem leaving_calm {new : Mode} (told : Told w) :
    Calmer true (w.stampMode new) (leaving w new) ∧ Told (leaving w new) ∧
    (w.dev.sys.mode.running = true → new.running = false → ∀ n, n < 64 → ¬ Awake ((leaving w new).dev.damper n)) := by
  have stamped : Told (w.stampMode new) := told.congr rfl rfl rfl rfl
  unfold leaving
  split
  · refine ⟨Calmer.refl.each (fun _ _ => calmer_safeCh) |>.trans fixed_endCutover.calmer,
      fixed_endCutover.told (told_each_safeCh stamped), fun _ _ n low up => ?_⟩
    have safe := (Fixed.calmer (b := true) fixed_endCutover).ch n up
    exact not_awake_safeAll _ n safe (List.mem_range.mpr low)
  · next stays =>
    refine ⟨.refl, stamped, fun up down => absurd ?_ stays⟩
    rw [up, down]
    rfl

theorem holding_calm {new : Mode} (told : Told w) :
    Calmer true (leaving w new) (holding w new) ∧
    (new.coresRun = false → ∀ k, k < 64 → ((holding w new).dev.core k).run = false) := by
  obtain ⟨-, told, -⟩ := leaving_calm (new := new) told
  unfold holding
  split
  · next runs => exact ⟨.refl, fun stops => absurd runs (by rw [stops]; exact Bool.false_ne_true)⟩
  · refine (each_coreReset (fun k mem => List.mem_range.mp (List.mem_filter.mp mem).1) told).imp_right fun ⟨_, stops⟩ _ k low => ?_
    by_cases on : ((leaving w new).dev.core k).run = true
    · exact stops k (List.mem_filter.mpr ⟨List.mem_range.mpr low, on⟩)
    · refine Bool.eq_false_iff.mpr fun after => on ?_
      exact (each_coreReset (fun k mem => List.mem_range.mp (List.mem_filter.mp mem).1) told).1.run rfl k after

theorem stilling_calm {new : Mode} :
    Calmer b (holding w new) (stilling w new) ∧ (new.bellowsRun = false → ∀ h, h < 16 → Still ((stilling w new).dev.blw h)) := by
  unfold stilling
  split
  · next runs => exact ⟨.refl, fun stops => absurd runs (by rw [stops]; exact Bool.false_ne_true)⟩
  · exact ⟨.each .refl fun _ _ => calmer_stopOne, fun _ h low => still_each_stopOne (List.mem_range.mpr low)⟩

theorem calmer_stoker {f : Dev → Stoker} : Calmer b w (w.upd fun d => { d with stoker := f d }) :=
  ⟨rfl, fun _ => id, fun _ => id, fun _ _ => id⟩

/-- What follows in a transition begins nothing; cores start only where the mode runs them. -/
theorem setMode_calm {new : Mode} (armed : w.dev.sys.resetArmed = false) :
    Calmer (!new.coresRun) (stilling w new) (w.setMode new) := by
  have starts {v : W} : Calmer (!new.coresRun) v (if new.coresRun then v.startCores else v) := by
    split
    · next runs => rw [runs]; exact calmer_startCores
    · exact .refl
  unfold W.setMode
  rw [if_neg (by rw [armed]; exact Bool.false_ne_true)]
  exact Calmer.refl (w := stilling w new)
    |>.trans (.ite calmer_endEpisode .refl) |>.trans (.ite (.upd .refl) .refl) |>.trans (.ite (.upd .refl) .refl)
    |>.trans (.ite (Calmer.refl.upd.trans fixed_cancelErr.calmer) .refl) |>.trans (.ite calmer_dozeUp .refl)
    |>.trans (.ite calmer_doze .refl) |>.trans (.ite calmer_firstPrepare .refl)
    |>.trans starts |>.trans calmer_stoker |>.trans (Fixed.calmer fixed_errAuto)

theorem serving_errAuto : w.errAuto.dev.stoker.serving = w.dev.stoker.serving := by
  obtain ⟨same, -⟩ := fixed_errAuto (w := w)
  simp only [fixed, Prod.mk.injEq] at same
  obtain ⟨-, -, -, -, -, -, -, -, serving⟩ := same
  exact serving

/-- The Stoker serves commands only in the modes that let it (R47). -/
theorem setMode_serving {new : Mode} (armed : w.dev.sys.resetArmed = false) (mute : new.serves = false) :
    (w.setMode new).dev.stoker.serving = false := by
  unfold W.setMode
  rw [if_neg (by rw [armed]; exact Bool.false_ne_true)]
  have last (v : W) :
      (v.upd fun d => { d with stoker := { d.stoker with serving := new.serves && !d.stoker.restarting } }).errAuto.dev.stoker.serving = false := by
    rw [serving_errAuto]
    exact congrArg (· && !v.dev.stoker.restarting) mute
  exact last _

/-- Settles O15: the stamp stands through all that the new mode drives, since no packet is open and the level sources tell the state,
so that no operation of a transition detects an event. -/
theorem modeTransition : Obligations.ModeTransition := by
  intro w m opens due pool held armed d e
  obtain ⟨left, -, safe⟩ := leaving_calm (new := m) ⟨opens, due, pool, held⟩
  obtain ⟨held, stops⟩ := holding_calm (new := m) ⟨opens, due, pool, held⟩
  obtain ⟨stilled, still⟩ := stilling_calm (w := w) (new := m) (b := true)
  have after := setMode_calm (new := m) armed
  have stamp := after.mode.trans (stilled.mode.trans (held.mode.trans left.mode))
  simp only [stamped, Prod.mk.injEq] at stamp
  obtain ⟨mode, prev, seq, at_, clock⟩ := stamp
  refine ⟨mode, prev, seq, at_, fun stopped k low => ?_, fun stopped h low => after.blw h (still stopped h low),
    setMode_serving armed, fun up down n low => ?_, clock⟩
  · refine Bool.eq_false_iff.mpr fun on => ?_
    have := stilled.run rfl k (after.run (by rw [stopped]; rfl) k on)
    rw [stops stopped k low] at this
    cases this
  · have quiet := fun awake => safe up down n low (held.ch n (stilled.ch n (after.ch n awake)))
    exact ⟨fun e => quiet (.inl e), fun e => quiet (.inr (.inl e)), fun e => quiet (.inr (.inr e))⟩

end Sys2Proof.Proofs
end

section
/-! O18: the maintenance SPI (R471, R503). -/

namespace Sys2Proof.Proofs

open Machine Laws

set_option Elab.async false

variable {s : State} {w : W} {good : Bool} {f : W → List Byte × W}

/-- The port takes a transaction: the device is in no reset and not in DOZE, and both FIFOs of the port take an entry. -/
structure SpiOn (w : W) : Prop where
  on : w.dev.sys.mode ≠ .off
  held : w.dev.sys.mode ≠ .hold
  awake : w.dev.sys.mode ≠ .doze
  enters : w.dev.fifoOpen 28 = true
  leaves : w.dev.fifoOpen 29 = true

theorem mspi_deaf (deaf : w.dev.sys.mode = .off ∨ w.dev.sys.mode = .hold ∨ ¬ (w.dev.fifoOpen 28 = true ∧ w.dev.fifoOpen 29 = true)) :
    w.mspi good f = w := by
  unfold W.mspi
  refine if_pos ?_
  rcases deaf with off | hold | full
  · exact .inl off
  · exact .inr (.inl hold)
  · refine .inr (.inr ?_)
    rw [not_and_or] at full
    simpa using full

theorem mspi_doze (doze : w.dev.sys.mode = .doze) (enters : w.dev.fifoOpen 28 = true) (leaves : w.dev.fifoOpen 29 = true) :
    w.mspi good f = (w.setMode .prepare).answer (.bytes [w.mspiStatus]) := by
  unfold W.mspi W.wakeDoze
  simp [doze, enters, leaves]

theorem mspi_on (h : SpiOn w) : w.mspi good f =
    if good then
      let x := f (w.upd fun d => (d.crossed 28).crossed 29)
      x.2.answer (.bytes (w.mspiStatus :: x.1))
    else w.mspiBad.answer (.bytes [w.mspiStatus]) := by
  unfold W.mspi
  simp [h.on, h.held, h.awake, h.enters, h.leaves]

/-- A frame that is not whole or out of range (R503). -/
theorem mspi_bad (h : SpiOn s.world) : Detected s (stateOf s (s.world.mspi false f)) 0x3C4 0 0 s.dev.clock.tb ∧
    (stateOf s (s.world.mspi false f)).dev.out = .bytes [s.world.mspiStatus] ∧
    Beside s (stateOf s (s.world.mspi false f)) fun d => { d with ports := { d.ports with frameErr := true } } := by
  rw [mspi_on h, if_neg Bool.false_ne_true, W.mspiBad]
  have detected := detected_raise (s := s) (n := 0x3C4) (d0 := 0) (d1 := 0)
    (w := s.world.upd fun d => { d with ports := { d.ports with frameErr := true } }) ⟨rfl, rfl, rfl, rfl, rfl, rfl⟩
    (by unfold Plain Noted; decide) rfl
  have kept := untouched_kept (kept_raise (s.world.upd fun d => { d with ports := { d.ports with frameErr := true } }) 0x3C4 0 0 false [])
  generalize W.raise _ _ _ _ = v at detected kept ⊢
  exact ⟨detected, rfl, kept, rfl, rfl⟩

/-- What a row of the maintenance SPI does before its frame is taken. -/
theorem mspi_row {i : Instr} (row : exec i s = .next (stateOf s (s.world.mspi good f))) :
    (s.dev.sys.mode = .off ∨ s.dev.sys.mode = .hold ∨ ¬ (s.dev.fifoOpen 28 = true ∧ s.dev.fifoOpen 29 = true) →
      Answers i s (Only s · id)) ∧
    (s.dev.sys.mode = .doze → s.dev.fifoOpen 28 = true ∧ s.dev.fifoOpen 29 = true →
      Answers i s (Leaves s · fun w => (w.setMode .prepare).answer (.bytes [s.world.mspiStatus]))) ∧
    (SpiOn s.world → good = false → Answers i s fun t => Detected s t 0x3C4 0 0 s.dev.clock.tb ∧
      t.dev.out = .bytes [s.world.mspiStatus] ∧ Beside s t fun d => { d with ports := { d.ports with frameErr := true } }) :=
  ⟨fun deaf => ⟨_, row.trans (next_of (mspi_deaf deaf)), rfl⟩,
   fun doze passes => ⟨_, row.trans (next_of (mspi_doze doze passes.1 passes.2)), rfl⟩,
   fun on bad => ⟨_, row, bad ▸ mspi_bad on⟩⟩

/-- A frame that is taken. -/
theorem mspi_taken {i : Instr} {P : State → Prop} (row : exec i s = .next (stateOf s (s.world.mspi good f))) (h : SpiOn s.world)
    (whole : good = true) (taken : let x := f (s.world.upd fun d => (d.crossed 28).crossed 29)
      P (stateOf s (x.2.answer (.bytes (s.world.mspiStatus :: x.1))))) : Answers i s P :=
  ⟨_, row.trans (next_of ((mspi_on h).trans (if_pos whole))), taken⟩

/-- A command waits in the port where none does. -/
theorem mspiIn_put {bs : List Byte} :
    (if w.dev.ports.mspiIn.isNone then w.upd fun d => { d with ports := { d.ports with mspiIn := some bs } } else w) =
    w.upd fun d => { d with ports := { d.ports with mspiIn := if d.ports.mspiIn = none then some bs else d.ports.mspiIn } } := by
  unfold W.upd
  by_cases free : w.dev.ports.mspiIn = none <;> simp [free]

section
variable {len off : BitVec 16} {whole : Bool} {bs : List Byte}

/-- What each row does before its frame is taken. -/
theorem mspi_rows (r : Instr × Bool) (mem : r ∈ ([
      (.mspiWriteCmd len whole bs, whole && decide (16 ≤ len.toNat ∧ len.toNat ≤ 4096) && bs.length == len.toNat),
      (.mspiReadReply whole, whole), (.mspiReadPoll off len whole, whole && decide (off.toNat + len.toNat ≤ 4096)),
      (.mspiReadPattern off len whole, whole && decide (off.toNat + len.toNat ≤ 65536)), (.mspiStatus, true)] : List (Instr × Bool))) :
    ∃ f, exec r.1 s = .next (stateOf s (s.world.mspi r.2 f)) := by
  simp only [List.mem_cons, List.not_mem_nil, or_false] at mem
  rcases mem with rfl | rfl | rfl | rfl | rfl
  · have same : (whole && decide (16 ≤ len.toNat ∧ len.toNat ≤ 4096) && bs.length == len.toNat) =
        (whole && decide (16 ≤ len.toNat) && decide (len.toNat ≤ 4096) && bs.length == len.toNat) := by
      rw [Bool.decide_and, ← Bool.and_assoc whole]
    rw [same]
    exact ⟨_, rfl⟩
  · exact ⟨_, rfl⟩
  · exact ⟨_, rfl⟩
  · exact ⟨_, rfl⟩
  · exact ⟨_, rfl⟩

theorem mspi_write (h : SpiOn s.world) (ok : whole = true) (low : 16 ≤ len.toNat) (high : len.toNat ≤ 4096)
    (exact_ : bs.length = len.toNat) :
    Answers (.mspiWriteCmd len whole bs) s (Only s · fun d => { (d.crossed 28).crossed 29 with
      out := .bytes [s.world.mspiStatus]
      ports := { d.ports with mspiIn := if d.ports.mspiIn = none then some bs else d.ports.mspiIn } }) := by
  refine mspi_taken rfl h (by simp [ok, low, high, exact_]) ?_
  rw [mspiIn_put]
  rfl

theorem mspi_reply (h : SpiOn s.world) (ok : whole = true) :
    Answers (.mspiReadReply whole) s fun t => match s.dev.ports.mspiOut with
      | [] => Only s t fun d => { (d.crossed 28).crossed 29 with out := .bytes [s.world.mspiStatus, 0, 0] }
      | r :: rs => Only s t fun d => { (d.crossed 28).crossed 29 with
                                              out := .bytes (s.world.mspiStatus :: le 2 r.bytes.length ++ r.bytes),
                                              ports := { d.ports with mspiOut := rs } } := by
  refine mspi_taken rfl h ok ?_
  rw [show s.dev.ports.mspiOut = (s.world.upd fun d => (d.crossed 28).crossed 29).dev.ports.mspiOut from rfl]
  generalize (s.world.upd fun d => (d.crossed 28).crossed 29).dev.ports.mspiOut = out
  cases out <;> rfl

theorem mspi_poll (h : SpiOn s.world) (ok : whole = true) (fits : off.toNat + len.toNat ≤ 4096) :
    Answers (.mspiReadPoll off len whole) s (Only s · fun d => { (d.crossed 28).crossed 29 with
      out := .bytes (s.world.mspiStatus :: (List.range len.toNat).map fun i =>
        let o := off.toNat + i
        byteOf (s.world.mspiWord (o / 4 * 4)) (o % 4)) }) :=
  mspi_taken rfl h (by simp [ok, fits]) rfl

theorem mspi_pattern (h : SpiOn s.world) (ok : whole = true) (fits : off.toNat + len.toNat ≤ 65536) :
    Answers (.mspiReadPattern off len whole) s (Only s · fun d => { (d.crossed 28).crossed 29 with
      out := .bytes (s.world.mspiStatus :: s.world.patRead off.toNat len.toNat) }) :=
  mspi_taken rfl h (by simp [ok, fits]) rfl

end

/-- Settles O18: what the frame of each transaction is decides; the rest is the port's own. -/
theorem maintenanceSpi : Obligations.MaintenanceSpi := by
  intro s len off whole bs p m st passes on c rows
  have spi (h : on) : SpiOn s.world := ⟨h.1, h.2.1, h.2.2.1, h.2.2.2.1, h.2.2.2.2⟩
  refine ⟨fun r mem => ?_, fun h ok low high exact_ => ?_, fun h ok => ?_, fun h ok fits => ?_, fun h ok fits => ?_, fun h => ?_⟩
  · obtain ⟨f, row⟩ := mspi_rows r mem
    exact (mspi_row row).imp_right (·.imp_right fun bad h => bad (spi h))
  · exact mspi_write (spi h) ok low high exact_
  · exact mspi_reply (spi h) ok
  · exact mspi_poll (spi h) ok fits
  · exact mspi_pattern (spi h) ok fits
  · exact mspi_taken rfl (spi h) rfl rfl

end Sys2Proof.Proofs
end

section
/-! O54: the host register page and the poll page (R28, R53, R64, R65, R85, R86, R471, R499). -/

namespace Sys2Proof.Proofs

open Machine Laws

set_option Elab.async false

variable {s : State} {w : W}

/-! The host register page. -/

theorem onHost_up {f : W → W} (up : w.hostUp = true) : w.onHost f = f w.wakeDoze := if_pos up

theorem onHost_down {f : W → W} (down : ¬ w.hostUp = true) : w.onHost f = w := if_neg down

theorem ringFault_eq {reply : Bool} {x : Byte} : w.ringFault reply x =
    (w.upd fun d => { d with stoker := { d.stoker with ringFaults := satInc d.stoker.ringFaults } }).raise 0x056
      (w32 (reply.toNat + 256 * x.toNat)) 0 := by
  rw [W.ringFault, at_, Nat.mul_comm x.toNat]
  rfl

/-- A tail that breaks the ring rule is a fault of its ring, any other is taken (R64). -/
theorem cmdTailWrite_eq {v : Word32} (free : w.dev.stoker.resetDue = false) :
    w.cmdTailWrite v =
      let k := w.dev.stoker
      let x : Byte := BitVec.ofNat 8 v.toNat
      if (k.cmdTail - k.cmdHead).toNat ≤ (x - k.cmdHead).toNat then w.onStoker fun k => { k with cmdTail := x } else w.ringFault false x :=
  if_neg (by rw [free]; exact Bool.false_ne_true)

/-- A RING_RESET that a serving Stoker finds is done at once (R65). -/
theorem ringResetWrite_serving (serving : w.dev.stoker.serving = true) :
    w.ringResetWrite 0xA5A5 = (w.onStoker fun k => { k with resetDue := true }).ringReset :=
  (if_pos rfl).trans (if_pos (by simp [W.onStoker, W.upd, serving]))

theorem ringResetWrite_mute (mute : w.dev.stoker.serving = false) :
    w.ringResetWrite 0xA5A5 = w.onStoker fun k => { k with resetDue := true } :=
  (if_pos rfl).trans (if_neg (by simp [W.onStoker, W.upd, mute]))

theorem hostRegisterPage : Says.HostRegisterPage := by
  intro s v w woken
  have wake : s.world.wakeDoze = w := woken.symm
  have ran {f : W → W} (up : s.world.hostUp = true) : s.world.onHost f = f w := (onHost_up up).trans (wake ▸ rfl)
  have down {f : W → W} (h : ¬ s.world.hostUp = true) : s.world.onHost f = s.world := onHost_down h
  intro k x up sets faults
  refine ⟨fun h => ⟨⟨_, next_of (down h), rfl⟩, ⟨_, next_of (down h), rfl⟩, ⟨_, next_of (down h), rfl⟩, ⟨_, next_of (down h), rfl⟩⟩,
    fun h due => ⟨_, next_of ((ran h).trans (if_pos due)), rfl⟩,
    fun h free rule => ⟨_, next_of ((ran h).trans ((cmdTailWrite_eq free).trans (if_pos rule))), rfl⟩,
    fun h free broken => ⟨_, next_of ((ran h).trans ((cmdTailWrite_eq free).trans ((if_neg (Nat.not_le.mpr broken)).trans ringFault_eq))), rfl⟩,
    fun h rule => ⟨_, next_of ((ran h).trans (if_pos rule)), rfl⟩,
    fun h broken => ⟨_, next_of ((ran h).trans ((if_neg (Nat.not_le.mpr broken)).trans ringFault_eq)), rfl⟩,
    fun h other => ⟨_, next_of ((ran h).trans (if_neg other)), rfl⟩, fun h key mute => ?_, fun h key serving => ?_,
    fun h => ⟨_, next_of (ran h), rfl⟩⟩
  · subst key
    exact ⟨_, next_of ((ran h).trans (ringResetWrite_mute mute)), rfl⟩
  · subst key
    exact ⟨_, next_of ((ran h).trans (ringResetWrite_serving serving)), rfl⟩

/-! The poll page. -/

/-- A table after a list of writes at different keys reads what was written. -/
theorem getD_foldl_set {α : Type} {ws : List (Nat × α)} {t : Tbl α} {k : Nat} {v e : α} (once : (ws.map (·.1)).Nodup) (mem : (k, v) ∈ ws) :
    (ws.foldl (fun t p => t.set p.1 p.2) t).getD k e = v := by
  have stays (ws : List (Nat × α)) (t : Tbl α) (out : k ∉ ws.map (·.1)) : (ws.foldl (fun t p => t.set p.1 p.2) t).getD k e = t.getD k e := by
    induction ws generalizing t with
    | nil => rfl
    | cons p ws ih =>
      obtain ⟨ne, out⟩ := not_or.mp (mt List.mem_cons.mpr out)
      exact (ih _ out).trans (getD_set_ne _ _ _ _ _ ne)
  induction ws generalizing t with
  | nil => cases mem
  | cons p ws ih =>
    obtain ⟨out, once⟩ := List.nodup_cons.mp once
    rcases List.mem_cons.mp mem with rfl | later
    · exact (stays ws _ out).trans (getD_set_self _ _ _ _)
    · exact ih once later

theorem maskOf_succ {n : Nat} {p : Nat → Bool} : maskOf (n + 1) p = maskOf n p + (p n).toNat * 2 ^ n := by
  simp [maskOf, List.range_succ]

theorem maskOf_lt {n : Nat} {p : Nat → Bool} : maskOf n p < 2 ^ n := by
  induction n with
  | zero => exact Nat.one_pos
  | succ n ih =>
    rw [maskOf_succ, Nat.pow_succ]
    cases p n <;> simp <;> omega

/-- A mask holds the bits that it was made of. -/
theorem testBit_maskOf {n j : Nat} {p : Nat → Bool} (low : j < n) : (maskOf n p).testBit j = p j := by
  induction n with
  | zero => cases low
  | succ n ih =>
    rw [maskOf_succ, Nat.add_comm, Nat.mul_comm, Nat.testBit_two_pow_mul_add _ maskOf_lt]
    split
    · next below => exact ih below
    · next last =>
      obtain rfl : j = n := by omega
      rw [Nat.sub_self]
      cases p j <;> rfl

theorem bitAt_maskOf {p : Nat → Bool} {j : Nat} (low : j < 32) : bitAt (w32 (maskOf 32 p)) j = p j := by
  rw [bitAt, w32, BitVec.getLsbD_ofNat, testBit_maskOf low]
  simp [low]

theorem lo32_hi32 {x : Word64} : (lo32 x).toNat + 2 ^ 32 * (hi32 x).toNat = x.toNat := by
  have := x.isLt
  simp only [lo32, hi32, w32, BitVec.toNat_ofNat]
  omega

theorem pageWords_keys : (w.pageWords.map (·.1)).Nodup := by
  have keys : w.pageWords.map (·.1) = [0x10, 0x14, 0x28, 0x30, 0x34, 0x38, 0x3C, 0x60, 0x64, 0x68, 0x70] ++
      (List.range 4).map (fun i => 0x40 + 4 * i) ++ (List.range 2).map (fun i => 0x50 + 4 * i) ++
      (List.range 128).map (fun i => 0x100 + 4 * i) := by
    simp only [W.pageWords, List.map_append, List.map_map, List.map_cons, List.map_nil]
    rfl
  rw [keys]
  decide +kernel

theorem dark_iff : w.pageDark = true ↔ w.dev.sys.mode = .off ∨ w.dev.sys.mode = .hold ∨ w.dev.sys.mode = .kindle := by
  simp [W.pageDark, or_assoc]

theorem stokerUp_iff : w.stokerUp = true ↔ (w.dev.seam 64).mode ≠ .halted ∧ w.dev.stoker.restarting = false := by
  simp [W.stokerUp]

theorem pollPageRefresh : Says.PollPageRefresh := by
  intro s d dark up
  refine ⟨fun idle => ⟨_, next_of (if_pos ?_), rfl⟩, fun lit runs => ?_⟩
  · rcases idle with idle | idle
    · rw [dark_iff.mpr idle, Bool.true_or]
    · rw [Bool.eq_false_iff.mpr (mt stokerUp_iff.mp idle), Bool.not_false, Bool.or_true]
  · have off : ¬ (s.world.pageDark || !s.world.stokerUp) = true := by
      rw [Bool.eq_false_iff.mpr (mt dark_iff.mp lit), stokerUp_iff.mpr runs]
      decide
    refine ⟨_, next_of (if_neg off), rfl, ?_⟩
    have reads {k : Nat} {v : Word32} (mem : (k, v) ∈ s.world.pageWords) :
        (s.world.pageWords.foldl (fun t p => t.set p.1 p.2) s.world.dev.stoker.page).getD k 0 = v := getD_foldl_set pageWords_keys mem
    have low := reads (k := 0x10) (v := lo32 d.clock.tb) (by simp [W.pageWords, d])
    have high := reads (k := 0x14) (v := hi32 d.clock.tb) (by simp [W.pageWords, d])
    have events := reads (k := 0x34) (v := d.flue.events) (by simp [W.pageWords, d])
    have grants := reads (k := 0x60) (v := w32 d.stoker.grants.length) (by simp [W.pageWords, d])
    have next := reads (k := 0x64) (v := d.stoker.xnext) (by simp [W.pageWords, d])
    have expect := reads (k := 0x28) (v := s.world.expectWord) (by simp [W.pageWords])
    have levels (i : Nat) (low : i < 128) := reads (k := 0x100 + 4 * i) (v := s.world.qlevelWord i)
      (List.mem_append_right _ (List.mem_map.mpr ⟨i, List.mem_range.mpr low, rfl⟩))
    simp only [stateOf_dev, W.upd]
    generalize List.foldl _ _ s.world.pageWords = page at *
    refine ⟨?_, events, grants, next, expect, fun i below j bit => ?_⟩
    · rw [low, high]
      exact lo32_hi32
    · rw [levels i below]
      exact bitAt_maskOf bit

/-- Settles O54: the ring rule decides a tail, and a refresh writes each word of the page once. -/
theorem hostPages : Obligations.HostPages := ⟨hostRegisterPage, pollPageRefresh⟩

end Sys2Proof.Proofs
end

section
/-! O17: requests of the PCIe host, configuration requests and the link (R23, R24, R27, R53, R178, R499, R500). -/

namespace Sys2Proof.Proofs

open Machine Laws

set_option Elab.async false

variable {s : State} {w : W} {m : Rid} {u a n : Nat} {d : Dir}

/-! A request of the host is one piece where it reaches one port word of a hob. -/

theorem granulesOf_one (pos : 0 < n) (fits : a % 32 + n ≤ 32) : granulesOf a n = [a / 256 * 256] := by
  have count : (a + n - 1) / 256 - a / 256 + 1 = 1 := by omega
  rw [granulesOf, count]
  rfl

theorem piecesOf_one (pos : 0 < n) (fits : a % 32 + n ≤ 32) : piecesOf a n = [(a, n)] := by
  have low : max a (a / 256 * 256) = a := by omega
  have high : min (a + n) (a / 256 * 256 + 256) - a = n := by omega
  rw [piecesOf, if_neg (by omega), granulesOf_one pos fits]
  simp only [List.map_cons, List.map_nil, low, high]

theorem tlpPieces_of_reaches (h : Reaches w m u a n d) : w.tlpPieces a n = [(a, n)] := by
  have hob := hob_of_reaches h
  have plain : w.inBlock a = false := by
    rw [W.inBlock, windowOf_hob a u hob, if_neg (by simp), blockAt_hob a u hob]
    rfl
  unfold W.tlpPieces
  rw [piecesOf_one h.1 h.2.1]
  simp [plain]

theorem access_read_of_reaches (h : Reaches w m u a n .read) :
    w.access m a n .read = (.data (w.bytes a n), w.granted u (hobMaster w.dev.chim.pos u m)) := by
  rw [W.access, admit_reaches w m u a n .read h]
  exact perform_read_of_reaches h (.inl rfl)

theorem access_write_of_reaches {bs : List Byte} (h : Reaches w m u a n .write) (len : bs.length = n) :
    w.access m a n (.write bs) = (.done, written (written (w.granted u (hobMaster w.dev.chim.pos u m)) a bs) (a + n) []) := by
  rw [W.access, admit_reaches w m u a n (.write bs) h]
  exact perform_write_of_reaches h len

theorem readPieces_of_reaches (h : Reaches w m u a n .read) :
    w.readPieces m [] (w.tlpPieces a n) = (.data (w.bytes a n), w.granted u (hobMaster w.dev.chim.pos u m)) := by
  rw [tlpPieces_of_reaches h, W.readPieces, access_read_of_reaches h]
  rfl

theorem writePieces_of_reaches {bs : List Byte} (h : Reaches w m u a bs.length .write) :
    w.writePieces m a bs .done (w.tlpPieces a bs.length) =
      (.done, written (written (w.granted u (hobMaster w.dev.chim.pos u m)) a bs) (a + bs.length) []) := by
  have whole : slice bs (a - a) bs.length = bs := by simp [slice]
  rw [tlpPieces_of_reaches h, W.writePieces, whole, access_write_of_reaches h rfl]
  rfl

theorem le_ofLe (bs : List Byte) : le bs.length (ofLe bs) = bs := by
  induction bs with
  | nil => rfl
  | cons b bs ih =>
    have low : BitVec.ofNat 8 (b.toNat + 256 * ofLe bs) = b := by
      apply BitVec.eq_of_toNat_eq
      rw [BitVec.toNat_ofNat, Nat.add_mul_mod_self_left, Nat.mod_eq_of_lt b.isLt]
    have high : (b.toNat + 256 * ofLe bs) / 256 = ofLe bs := by have := b.isLt; omega
    rw [List.length_cons, ofLe, le, low, high, ih]

/-! The boundary FIFOs of the link. -/

theorem fifoOpen_crossed {x : Dev} {k n : Nat} (ne : n ≠ k) : (x.crossed k).fifoOpen n = x.fifoOpen n := by
  have same : (x.crossed k).fifo n = x.fifo n := getD_set_ne _ _ _ _ _ ne
  rw [Dev.fifoOpen, Dev.fifoOpen, same]
  rfl

theorem through_open {n : Nat} {f : W → W} (takes : w.dev.fifoOpen n = true) : w.through n f = f (w.upd fun d => d.crossed n) := if_pos takes

theorem through_full {n : Nat} {f : W → W} (full : w.dev.fifoOpen n = false) : w.through n f = w :=
  if_neg (by rw [full]; exact Bool.false_ne_true)

/-- `w` with another Bobbin. -/
def besideBobbin (w : W) (b : Bobbin) : W := w.upd fun d => { d with bobbin := b }

theorem crossed_besideBobbin {k : Nat} : ∃ b, (w.upd fun d => d.crossed k) = besideBobbin w b := ⟨_, rfl⟩

section
variable {b : Bobbin}

@[simp] theorem besideBobbin_fuse : (besideBobbin w b).fuse = w.fuse := rfl
@[simp] theorem besideBobbin_chim : (besideBobbin w b).dev.chim = w.dev.chim := rfl
@[simp] theorem besideBobbin_regs : (besideBobbin w b).dev.regs = w.dev.regs := rfl
@[simp] theorem besideBobbin_blw (h : Nat) : (besideBobbin w b).dev.blw h = w.dev.blw h := rfl

theorem regReset_besideBobbin (typ off : Nat) : (besideBobbin w b).regReset typ off = w.regReset typ off := by
  rw [W.regReset, W.regReset, regRow_congr besideBobbin_fuse besideBobbin_chim]

theorem reg_besideBobbin (typ inst off : Nat) : (besideBobbin w b).reg typ inst off = w.reg typ inst off := by
  rw [W.reg, W.reg, regReset_besideBobbin, besideBobbin_regs]

theorem fwAdmits_besideBobbin (u g : Nat) (m : Rid) (d : Dir) : (besideBobbin w b).fwAdmits u g m d = w.fwAdmits u g m d := by
  have rule (i : Nat) : (besideBobbin w b).fwRule u i = w.fwRule u i := by
    simp only [W.fwRule, reg_besideBobbin, besideBobbin_chim]
  rw [W.fwAdmits, W.fwAdmits]
  simp only [rule]

theorem seen_besideBobbin (h o : Nat) : (besideBobbin w b).seen h o = w.seen h o := by
  have inUse (x : Nat) : (besideBobbin w b).inUse h x = w.inUse h x := by
    simp only [W.inUse, W.hreg, reg_besideBobbin, regReset_besideBobbin, besideBobbin_blw]
  have image : (besideBobbin w b).outImage h = w.outImage h := by rw [W.outImage, W.outImage, inUse]
  have group (g : Nat) : (besideBobbin w b).outGroup h g = w.outGroup h g := by rw [W.outGroup, W.outGroup, inUse]
  have selected (g : Nat) : (besideBobbin w b).selected h g = w.selected h g := by
    rw [W.selected, W.selected, besideBobbin_blw]
  rw [W.seen, W.seen]
  simp only [image, group, selected]

/-- The walls and the hobs stand beside the Bobbin. -/
theorem reaches_besideBobbin (h : Reaches w m u a n d) : Reaches (besideBobbin w b) m u a n d := by
  obtain ⟨pos, fits, hob, admits, flips, awake, armed, on, seen⟩ := h
  exact ⟨pos, fits, hob, (fwAdmits_besideBobbin ..).trans admits, flips, awake, armed, on,
    fun small => (seen_besideBobbin ..).trans (seen small)⟩

end

theorem reaches_crossed {k : Nat} (h : Reaches w m u a n d) : Reaches (w.upd fun d => d.crossed k) m u a n d := by
  obtain ⟨b, eq⟩ := crossed_besideBobbin (w := w) (k := k)
  rw [eq]
  exact reaches_besideBobbin h

theorem onHost_awake {f : W → W} (up : w.hostUp = true) (awake : w.dev.sys.mode ≠ .doze) : w.onHost f = f w := by
  rw [onHost_up up, W.wakeDoze, if_neg awake]

/-- A request of an awake function passes FIFO 0. -/
theorem onHost_through {f : W → W} (up : w.hostUp = true) (awake : w.dev.sys.mode ≠ .doze) (takes : w.dev.fifoOpen 0 = true) :
    w.onHost (fun w => w.through 0 f) = f (w.upd fun d => d.crossed 0) := by
  rw [onHost_awake up awake, through_open takes]

/-- A read passes FIFO 1 as well. -/
theorem onHost_both {f : W → W} (up : w.hostUp = true) (awake : w.dev.sys.mode ≠ .doze) (takes : w.dev.fifoOpen 0 = true)
    (answers : w.dev.fifoOpen 1 = true) :
    w.onHost (fun w => w.through 0 fun w => w.through 1 f) = f (w.upd fun d => (d.crossed 0).crossed 1) := by
  have opens : (w.upd fun d => d.crossed 0).dev.fifoOpen 1 = true := (fifoOpen_crossed (by decide)).trans answers
  rw [onHost_through up awake takes, through_open opens, upd_upd]

theorem onHost_full {f : W → W} (up : w.hostUp = true) (awake : w.dev.sys.mode ≠ .doze) (full : w.dev.fifoOpen 0 = false) :
    w.onHost (fun w => w.through 0 f) = w := by
  rw [onHost_awake up awake, through_full full]

/-! The command ring (R27, R63). -/

/-- A write that lies in the ring replaces its bytes. -/
theorem getD_ringWrite {t : Tbl Byte} {off n : Nat} {f : Nat → Byte} (low : 0x100000 ≤ off) (high : off + n ≤ 0x200000) (k : Nat) :
    ((List.range n).foldl (fun t i => if 0x100000 ≤ off + i ∧ off + i < 0x200000 then t.set (off + i - 0x100000) (f i) else t) t).getD k 0 =
      if off ≤ k + 0x100000 ∧ k + 0x100000 < off + n then f (k + 0x100000 - off) else t.getD k 0 := by
  induction n with
  | zero => rw [if_neg (by omega)]; rfl
  | succ n ih =>
    rw [List.range_succ, List.foldl_append, List.foldl_cons, List.foldl_nil, if_pos (by omega), getD_set, ih (by omega)]
    by_cases last : k = off + n - 0x100000
    · rw [if_pos last, if_pos (by omega), show k + 0x100000 - off = n by omega]
    · rw [if_neg last]
      exact if_congr (by omega) rfl rfl

/-! The configuration space and the link. -/

theorem ops_finish {p : Pend} {status : Nat} {result : List Byte} : (w.finish p status result).ops = w.ops := by
  simp only [W.finish, W.reply]
  split
  · split <;> rfl
  · rfl

theorem ops_finishAll {opc key status : Nat} {result : List Byte} : (w.finishAll opc key status result).ops = w.ops := by
  unfold W.finishAll
  generalize w.pendsOf opc key = ps
  induction ps generalizing w with
  | nil => rfl
  | cons p ps ih => exact (ih (w := w.finish p status result)).trans ops_finish

theorem ops_errAuto : w.errAuto.ops = w.ops := by
  simp only [W.errAuto]
  split
  · exact ops_finishAll
  · rfl

theorem ops_inactive {k : Nat} : (w.inactive k).ops = w.ops := ops_errAuto

theorem kept_inactive {k : Nat} : Kept w (w.inactive k) := by
  have ended : Kept w (w.upd fun d => d.onSrc k fun x => { x with active := false }) := ⟨rfl, rfl⟩
  exact ended.trans (steady_errAuto _).kept

/-- The fields of configuration space that R499 fixes. -/
theorem cfgWord_fields (w : W) (o : Nat) :
    let x := w64 (w.cfgWord o).toNat
    (o = 0 → fld x 16 16 = 0x6430) ∧ (o = 8 → fld x 8 24 = 0x0B4000) ∧ (o = 0x10 → x.toNat % 0x1000000 = 4) ∧ (o = 0x18 → x = 4) ∧
      (o = 0x34 → x = 0x40) ∧ (o = 0x40 → fld x 0 16 = 0x5001) ∧ (o = 0x50 → fld x 0 16 = 0x0010) ∧
      (o = 0x100 → fld x 0 16 = 1 ∧ fld x 20 12 = 0) := by
  have value (v : Word32) : (w64 v.toNat).toNat = v.toNat := by
    have := v.isLt
    simp only [w64, BitVec.toNat_ofNat]
    omega
  have vendor := Config.vendorId.isLt
  have revision := Config.revisionId.isLt
  have bar := (w.dev.ports.cfg.getD 0x10 0).isLt
  refine ⟨?_, ?_, ?_, ?_, ?_, ?_, ?_, ?_⟩ <;> rintro rfl
  · show (w64 (w32 (Config.vendorId.toNat + at_ 0x6430 16)).toNat).toNat >>> 16 % 2 ^ 16 = _
    rw [value, Nat.shiftRight_eq_div_pow, w32, BitVec.toNat_ofNat, at_]
    omega
  · show (w64 (w32 (at_ 0x0B4000 8 + Config.revisionId.toNat)).toNat).toNat >>> 8 % 2 ^ 24 = _
    rw [value, Nat.shiftRight_eq_div_pow, w32, BitVec.toNat_ofNat, at_]
    omega
  · show (w64 (w32 ((w.dev.ports.cfg.getD 0x10 0).toNat / 0x1000000 * 0x1000000 + 4)).toNat).toNat % 0x1000000 = 4
    rw [value, w32, BitVec.toNat_ofNat]
    omega
  · rfl
  · rfl
  · show (w64 (w32 (0x5001 + at_ _ 16)).toNat).toNat >>> 0 % 2 ^ 16 = _
    rw [value, Nat.shiftRight_zero, w32, BitVec.toNat_ofNat, at_]
    omega
  · show (w64 (w32 (0x0010 + at_ _ 16)).toNat).toNat >>> 0 % 2 ^ 16 = _
    rw [value, Nat.shiftRight_zero, w32, BitVec.toNat_ofNat, at_]
    omega
  · show (w64 (w32 (0x0001 + at_ (_ % 16) 16)).toNat).toNat >>> 0 % 2 ^ 16 = _ ∧
      (w64 (w32 (0x0001 + at_ (_ % 16) 16)).toNat).toNat >>> 20 % 2 ^ 12 = _
    rw [value, Nat.shiftRight_zero, Nat.shiftRight_eq_div_pow, w32, BitVec.toNat_ofNat, at_]
    omega

/-- PCIE_LINK_DOWN and PCIE_LINK_UP (R500). -/
theorem pcieLink :
    (s.dev.ports.pcieUp = true → Answers .pcieLinkDown s fun t => LevelDetected s t 0x3C0 0 0 s.dev.clock.tb ∧
      Beside s t fun d => { d with ports := { d.ports with pcieUp := false, d3hot := false } }) ∧
    (s.dev.ports.pcieDead = false → s.dev.sys.mode ≠ .off → s.dev.sys.mode ≠ .hold → Answers .pcieLinkUp s fun t =>
      (t.dev.src 0x3C0).active = false ∧ t.mem = s.mem ∧
      Beside s t fun d => { d with ports := { d.ports with pcieUp := true, d3hot := false } }) := by
  refine ⟨fun up => ⟨_, next_of (if_pos up), level_after ⟨rfl, rfl, rfl, rfl, rfl, rfl⟩ (by unfold Plain Noted; decide) rfl rfl rfl⟩,
    fun alive on held => ?_⟩
  have runs : ¬ (s.world.dev.ports.pcieDead = true ∨ s.world.dev.sys.mode = .off ∨ s.world.dev.sys.mode = .hold) := by
    rw [not_or, not_or]
    exact ⟨by rw [show s.world.dev.ports.pcieDead = false from alive]; decide, on, held⟩
  refine ⟨_, next_of (if_neg runs), ?_⟩
  dsimp only
  generalize reached : (s.world.upd fun d => { d with ports := { d.ports with pcieUp := true, d3hot := false } }) = v
  have same : untouched v.dev = untouched { s.dev with ports := { s.dev.ports with pcieUp := true, d3hot := false } } := by
    rw [← reached]
    rfl
  have plain : (stateOf s v).mem = s.mem ∧ (stateOf s v).fuse = s.fuse ∧ (stateOf s v).pending = s.pending := by
    rw [← reached]
    exact ⟨rfl, rfl, rfl⟩
  obtain ⟨mem, fuse, pending⟩ := plain
  split
  · have ended := active_inactive (w := v) (n := 0x3C0) (k := 0x3C0)
    rw [if_pos rfl] at ended
    have stored : (stateOf s (v.inactive 0x3C0)).mem = (stateOf s v).mem := congrArg s.mem.applyAll ops_inactive
    exact ⟨ended, stored.trans mem, beside_of_kept kept_inactive same⟩
  · next inactive => exact ⟨Bool.eq_false_iff.mpr inactive, mem, same, fuse, pending⟩

/-- A read through BAR2. -/
def bar2Reads (off : Word32) (n : Nat) (w : W) : W :=
  let a := w.bar2Addr off
  let (r, w) := w.readPieces w.hostRid [] (w.tlpPieces a n)
  w.respond w.hostRid n true r

/-- A write through BAR2. -/
def bar2Writes (off : Word32) (bs : List Byte) (w : W) : W :=
  ((w.writePieces w.hostRid (w.bar2Addr off) bs .done (w.tlpPieces (w.bar2Addr off) bs.length)).2).answer .done

/-- A read of BAR0. -/
def bar0Reads (off : Word32) (n : Nat) (w : W) : W :=
  if off.toNat < 0x1000000 then w.answer (.bytes (w.bar0Read off.toNat n)) else w

/-- A write of BAR0. -/
def bar0Writes (off : Word32) (bs : List Byte) (w : W) : W :=
  if off.toNat < 0x1000000 then (w.bar0Write off.toNat bs).answer .done else w

section
variable {off : Word32} {bs : List Byte}

theorem hostRead_bar2 : exec (.hostRead true off n) s =
    .next (stateOf s (s.world.onHost fun w => w.through 0 fun w => w.through 1 (bar2Reads off n))) := rfl

theorem hostRead_bar0 : exec (.hostRead false off n) s =
    .next (stateOf s (s.world.onHost fun w => w.through 0 fun w => w.through 1 (bar0Reads off n))) := rfl

theorem hostWrite_bar2 : exec (.hostWrite true off bs) s =
    .next (stateOf s (s.world.onHost fun w => w.through 0 (bar2Writes off bs))) := rfl

theorem hostWrite_bar0 : exec (.hostWrite false off bs) s =
    .next (stateOf s (s.world.onHost fun w => w.through 0 (bar0Writes off bs))) := rfl

theorem bar2Reads_reached (h : Reaches w w.hostRid u (w.bar2Addr off) n .read) :
    bar2Reads off n w = (w.granted u (hobMaster w.dev.chim.pos u w.hostRid)).answer
      (if n ≤ 8 then .word (w64 (ofLe (w.bytes (w.bar2Addr off) n))) else .bytes (w.bytes (w.bar2Addr off) n)) := by
  have len : (w.bytes (w.bar2Addr off) n).length = n := by simp [W.bytes]
  rw [bar2Reads, readPieces_of_reaches h]
  dsimp only [W.respond]
  rw [len]

theorem bar2Writes_reached (h : Reaches w w.hostRid u (w.bar2Addr off) bs.length .write) :
    bar2Writes off bs w = (written (written (w.granted u (hobMaster w.dev.chim.pos u w.hostRid)) (w.bar2Addr off) bs)
      (w.bar2Addr off + bs.length) []).answer .done := by
  rw [bar2Writes, writePieces_of_reaches h]

/-- A write of the command ring. -/
theorem bar0Writes_ring (low : 0x100000 ≤ off.toNat) (high : off.toNat + bs.length ≤ 0x200000) :
    bar0Writes off bs w = (w.onStoker fun x => { x with
      cmdRing := (List.range bs.length).foldl (fun t i =>
        if 0x100000 ≤ off.toNat + i ∧ off.toNat + i < 0x200000 then t.set (off.toNat + i - 0x100000) (bs.getD i 0) else t)
        x.cmdRing }).answer .done := by
  rw [bar0Writes, if_pos (by omega), W.bar0Write, if_neg (by omega), if_neg (by omega)]

/-- A write of the Pattern through BAR0 is dropped. -/
theorem bar0Writes_pattern (low : off.toNat < 0x10000) :
    bar0Writes off bs w = (w.raiseAddr 0x050 (BitVec.ofNat 48 off.toNat) w.hostRid).answer .done := by
  rw [bar0Writes, if_pos (by omega), W.bar0Write, if_pos low]

end

theorem not_deaf (h : w.dev.ports.pcieUp = true ∧ w.dev.ports.pcieDead = false ∧ w.dev.sys.mode ≠ .off ∧ w.dev.sys.mode ≠ .hold) :
    ¬ (w.dev.ports.pcieUp = false ∨ w.dev.ports.pcieDead = true ∨ w.dev.sys.mode = .off ∨ w.dev.sys.mode = .hold) := by
  obtain ⟨up, alive, on, held⟩ := h
  rw [up, alive]
  simp [on, held]

/-- Settles O17: a request that reaches one port word of a hob is one piece; the rows of the configuration space and of the link
are read off. -/
theorem hostRequests : Obligations.HostRequests := by
  intro s off n bs u co v d a host up both w1 w2 k o cfgUp
  refine ⟨fun down => ?_, fun on awake full b => ?_, fun h reach => ?_, fun h reach => ?_, fun h low => ?_, fun h low high => ?_,
    fun h low => ?_, fun deaf => ?_, fun h => ?_, fun h control => ?_, fun h other known => ?_, fun h other known => ?_,
    fun down => ?_, pcieLink.1, fun deaf => ?_, pcieLink.2⟩
  · have off : ¬ s.world.hostUp = true := Bool.eq_false_iff.mp down
    exact ⟨⟨_, next_of (onHost_down off), rfl⟩, ⟨_, next_of (onHost_down off), rfl⟩⟩
  · exact ⟨⟨_, next_of (onHost_full on awake full), rfl⟩, ⟨_, next_of (onHost_full on awake full), rfl⟩⟩
  · obtain ⟨⟨on, awake, takes⟩, answers⟩ := h
    have reach2 : Reaches w2 host u a n .read := by
      have twice := reaches_crossed (k := 1) (reaches_crossed (k := 0) reach)
      rwa [upd_upd] at twice
    exact ⟨_, hostRead_bar2.trans (next_of (onHost_both on awake takes answers)), congrArg (stateOf s) (bar2Reads_reached reach2)⟩
  · obtain ⟨on, awake, takes⟩ := h
    have reach1 : Reaches w1 host u a bs.length .write := reaches_crossed reach
    refine ⟨_, hostWrite_bar2.trans (next_of ((onHost_through on awake takes).trans (bar2Writes_reached reach1))), storesAt_put ?_,
      rfl, rfl, rfl⟩
    rw [le_ofLe]
    rfl
  · obtain ⟨⟨on, awake, takes⟩, answers⟩ := h
    exact ⟨_, hostRead_bar0.trans (next_of ((onHost_both on awake takes answers).trans (if_pos low))), rfl⟩
  · obtain ⟨on, awake, takes⟩ := h
    exact ⟨_, hostWrite_bar0.trans (next_of ((onHost_through on awake takes).trans (bar0Writes_ring low high))),
      getD_ringWrite low high, rfl⟩
  · obtain ⟨on, awake, takes⟩ := h
    exact ⟨_, hostWrite_bar0.trans (next_of ((onHost_through on awake takes).trans (bar0Writes_pattern low))), rfl⟩
  · have off : s.world.dev.ports.pcieUp = false ∨ s.world.dev.ports.pcieDead = true ∨ s.world.dev.sys.mode = .off ∨
        s.world.dev.sys.mode = .hold := by
      by_contra all
      simp only [not_or, Bool.not_eq_false, Bool.not_eq_true] at all
      exact deaf all
    exact ⟨⟨_, next_of (if_pos off), rfl⟩, ⟨_, next_of (if_pos off), rfl⟩⟩
  all_goals clear w1 w2
  · have open_ := not_deaf (w := s.world) h
    refine ⟨_, next_of (if_neg open_), w64 (s.world.cfgWord o).toNat, rfl, cfgWord_fields s.world o⟩
  · have open_ := not_deaf (w := s.world) h
    exact ⟨_, next_of ((if_neg open_).trans (congrArg (fun w : W => w.answer .done) (if_pos control))), rfl⟩
  · have open_ := not_deaf (w := s.world) h
    have listed := List.contains_iff_mem.mpr known
    exact ⟨_, next_of ((if_neg open_).trans (congrArg (fun w : W => w.answer .done) ((if_neg other).trans (if_pos listed)))), rfl⟩
  · have open_ := not_deaf (w := s.world) h
    have unlisted := mt List.contains_iff_mem.mp known
    exact ⟨_, next_of ((if_neg open_).trans (congrArg (fun w : W => w.answer .done) ((if_neg other).trans (if_neg unlisted)))), rfl⟩
  · exact ⟨_, next_of (if_neg (Bool.eq_false_iff.mp down)), rfl⟩
  · exact ⟨_, next_of (if_pos deaf), rfl⟩

end Sys2Proof.Proofs
end

section
/-! O36: the packets of a queue (R373, R378, R380). -/

namespace Sys2Proof.Proofs

open Machine Laws

set_option Elab.async false

variable {s : State} {w : W} {m : Rid} {q : QueueId} {k o n : Nat} {ws : List Word32} {p : OpenPkt}

/-! A write of a packet's page (R373). -/

/-- Unit 3 admits the write at offset `o` of the page. -/
def PageOpen (s : State) (m : Rid) (q : QueueId) (o : Nat) : Prop :=
  s.dev.sys.mode ≠ .off ∧ s.world.fwAdmits 3 ((pageAddr q o - fwBase 3) / 256) m .write = true

/-- No earlier write of `m` waits. -/
def FirstOf (w : W) (m : Rid) : Prop := ∀ y ∈ w.grantWaiters.dev.bobbin.waiters, y.rid ≠ m

theorem guarded_page {f : W → Acc × W} (h : PageOpen s m q o) (low : o < 0x40) :
    s.world.guarded m 3 (pageAddr q o) 4 .write f = (f s.world).2.respond m 4 false (f s.world).1 := by
  obtain ⟨on, admits⟩ := h
  have addr : (BitVec.ofNat 48 (pageAddr q o)).toNat = pageAddr q o := by
    have := q.isLt
    simp only [pageAddr, BitVec.toNat_ofNat]
    omega
  have pass : s.world.fwCheck 3 (BitVec.ofNat 48 (pageAddr q o)) m .write = (true, s.world) :=
    fwCheck_pass _ _ _ _ _ (by rw [addr]; exact admits)
  have running : s.world.dev.sys.mode ≠ .off := on
  simp only [W.guarded, W.powered, running, if_false, pass, if_true]
  rfl

/-- A write that no earlier one of its requester precedes is tried. -/
theorem enqueue_tries {r : Option (Acc × W)} (first : FirstOf w m) (tried : w.grantWaiters.tryWaiter ⟨m, k, o, ws, true⟩ = r) :
    w.enqueue m k o ws = W.settled (r.getD (w.grantWaiters.await ⟨m, k, o, ws, true⟩)) := by
  have none_ : w.grantWaiters.dev.bobbin.waiters.any (fun y => y.rid == m) = false := by
    unfold FirstOf at first
    simpa only [List.any_eq_false, beq_iff_eq] using first
  simp only [W.enqueue, none_, tried, Bool.false_eq_true, if_false]
  cases r <;> rfl

/-- A write that is taken answers done. -/
theorem page_done {i : Instr} {x : W}
    (row : exec i s = .next (stateOf s (s.world.guarded m 3 (pageAddr q o) 4 .write fun w => w.enqueue m q o ws)))
    (h : PageOpen s m q o) (low : o < 0x40) (first : FirstOf s.world m)
    (taken : s.world.grantWaiters.tryWaiter ⟨m, q, o, ws, true⟩ = some (.done, x)) :
    exec i s = .next (stateOf s (x.settle.answer .done)) := by
  rw [row, guarded_page h low, enqueue_tries first taken]
  rfl

/-- A write that meets a limit waits. -/
theorem page_waits {i : Instr}
    (row : exec i s = .next (stateOf s (s.world.guarded m 3 (pageAddr q o) 4 .write fun w => w.enqueue m q o ws)))
    (h : PageOpen s m q o) (low : o < 0x40) (first : FirstOf s.world m)
    (held : s.world.grantWaiters.tryWaiter ⟨m, q, o, ws, true⟩ = none) :
    Answers i s fun t => Leaves s t fun _ => (s.world.grantWaiters.upd fun d => { d with
      bobbin := { d.bobbin with waiters := d.bobbin.waiters ++ [⟨m, q, o, ws, true⟩] } }).settle := by
  refine ⟨_, row, ?_⟩
  rw [guarded_page h low, enqueue_tries first held, Option.getD_none, W.await, W.settled]
  have answered (v : W) : v.respond m 4 false .wait = v := rfl
  have left : s.world.grantWaiters.onBob (fun b => { b with waiters := b.waiters ++ [⟨m, q, o, ws, true⟩] }) =
      s.world.grantWaiters.upd fun d => { d with bobbin := { d.bobbin with waiters := d.bobbin.waiters ++ [⟨m, q, o, ws, true⟩] } } := rfl
  rw [answered, left]
  generalize s.world.grantWaiters.upd _ = v
  rfl

/-! Misuse and aborts are events of their own (R375, R378, R389). -/

/-- An event of the Bobbin alone leaves the registers of the Bobbin and is recorded. -/
theorem settle_note {row : SrcRow} (off : TraceOff w) (none_ : w.due = []) (there : w.source n = some row) (event : row.level = false)
    (pool : n ≠ 0x2C3) (fall : n ≠ 0x342) (hob : ¬ HobNoted n) :
    Untraced (noDue (w.queueNote n m k o)) (w.queueNote n m k o).settle ∧
      (w.queueNote n m k o).settle.dev.src n = (w.dev.src n).after false (w.eventRec n (queueDetail k o) (ridDetail m) false) := by
  have waits : (w.queueNote n m k o).due = [(n, queueDetail k o, ridDetail m)] := by
    show w.due ++ _ = _
    rw [none_]
    rfl
  have stands : (noDue (w.queueNote n m k o)).stands n = false := by
    rw [W.stands, show (noDue (w.queueNote n m k o)).source n = some row from there, Option.any_some, event, Bool.false_and]
  obtain ⟨src, rest⟩ := settle_one (w.queueNote n m k o) n _ _ row off waits there stands pool fall hob
  refine ⟨rest, ?_⟩
  rw [src, event]
  exact congrArg (Src.after (w.dev.src n) false) (eventRec_congr (w := w) (w' := noDue (w.queueNote n m k o)) rfl rfl rfl rfl)

/-- Misuse is counted and recorded, where nothing waits before it and the trace stream is off. -/
theorem misused_note (off : bitAt (s.world.reg 2 0 0x34) 24 = false) (a : Answer) :
    let t := stateOf s (((s.world.misuse m q o).2.settle.writeFailed m eReserved).answer a)
    t.world.reg 8 0 0x54 = satInc (s.world.reg 8 0 0x54) ∧ Detected s t 0x2C0 (queueDetail q o) (ridDetail m) s.dev.clock.tb := by
  intro t
  obtain ⟨count, src⟩ := settle_misuse s.world m q o off rfl
  obtain ⟨row, there, event⟩ := source_misuse s.world
  have notice := bypassed_writeFailed 0x2C0 (s.world.misuse m q o).2.settle m eReserved
  have left : Untraced ((s.world.misuse m q o).2.settle.writeFailed m eReserved) t.world :=
    ⟨fun _ _ _ => rfl, fun _ h => by cases h⟩
  refine ⟨?_, row, there, ?_⟩
  · rw [left.misuseCount, notice.misuseCount, count]
  · rw [event]
    exact notice.src.trans src

theorem no_waiter (alone : s.dev.bobbin.waiters = []) : FirstOf s.world m := by
  rw [FirstOf, grantWaiters_of_none s.world alone]
  exact fun y mem => absurd (alone ▸ mem : y ∈ []) List.not_mem_nil

theorem page_misused {i : Instr}
    (row : exec i s = .next (stateOf s (s.world.guarded m 3 (pageAddr q o) 4 .write fun w => w.enqueue m q o ws)))
    (h : PageOpen s m q o) (low : o < 0x40) (alone : s.dev.bobbin.waiters = []) (off : bitAt (s.world.reg 2 0 0x34) 24 = false)
    (bad : s.world.tryWaiter ⟨m, q, o, ws, true⟩ = some (s.world.misuse m q o)) :
    Answers i s fun t => t.world.reg 8 0 0x54 = satInc (s.world.reg 8 0 0x54) ∧
      Detected s t 0x2C0 (queueDetail q o) (ridDetail m) s.dev.clock.tb ∧ t.dev.out = reservedAnswer m := by
  have same : s.world.grantWaiters = s.world := grantWaiters_of_none s.world alone
  have first : FirstOf s.world m := no_waiter alone
  have ends : (s.world.enqueue m q o ws).2.respond m 4 false (s.world.enqueue m q o ws).1 =
      ((s.world.misuse m q o).2.settle.writeFailed m eReserved).answer (reservedAnswer m) := by
    rw [same.symm] at bad
    have settled : W.settled (s.world.misuse m q o) = (.err eReserved, (s.world.misuse m q o).2.settle) := rfl
    rw [enqueue_tries first bad, Option.getD_some, same, settled, respond_reserved]
  obtain ⟨count, detected⟩ := misused_note (q := q) (o := o) (m := m) off (reservedAnswer m)
  have page := (guarded_page (f := fun w => w.enqueue m q o ws) h low).trans ends
  rw [page] at row
  refine ⟨_, row, count, detected, ?_⟩
  rfl

theorem tryWaiter_open : w.tryWaiter ⟨m, k, 0x24, ws, true⟩ = w.tryPktOpen m k := by simp [W.tryWaiter]

theorem tryWaiter_word : w.tryWaiter ⟨m, k, 0x28, ws, true⟩ = w.tryPktWord m k ws := by simp [W.tryWaiter]

theorem tryWaiter_close {v : Word32} : w.tryWaiter ⟨m, k, 0x2C, [v], true⟩ = some (w.close m k (bitAt v 0)) := by
  simp [W.tryWaiter]

/-! PKT_OPEN (R378). -/

theorem tryPktOpen_bad (h : ¬ ((w.dev.queue k).broken = false ∧ (w.dev.queue k).cfg.mode = .packet ∧ w.dev.bobbin.openOf m k = none)) :
    w.tryPktOpen m k = some (w.misuse m k 0x24) := by
  refine if_pos ?_
  by_contra all
  simp only [not_or, Bool.not_eq_true, not_not, Option.isSome_eq_false_iff, Option.isNone_iff_eq_none, ne_eq] at all
  exact h all

theorem tryPktOpen_good (h : (w.dev.queue k).broken = false ∧ (w.dev.queue k).cfg.mode = .packet ∧ w.dev.bobbin.openOf m k = none) :
    w.tryPktOpen m k = if w.dev.bobbin.opens.length < 512 ∧ w.limit k 1 = none then
      some (.done, (w.openPkt m k 1 false).poolNote m k 0x24) else none := by
  obtain ⟨whole, mode, free⟩ := h
  refine (if_neg ?_).trans (if_congr (by rw [Option.isNone_iff_eq_none]) rfl rfl)
  simp [whole, mode, free]

/-- The cells of a queue are taken beside the open packets. -/
theorem opens_takeCell : (w.takeCell k).2.dev.bobbin.opens = w.dev.bobbin.opens := by
  rw [bobbin_takeCell]
  rfl

theorem opened_one (free : w.dev.bobbin.openOf m k = none) :
    (w.openPkt m k 1 false).dev.bobbin.openOf m k =
      some { rid := m, q := k, cells := [w.dev.bobbin.freeCell], tried := false } ∧
    ((w.openPkt m k 1 false).dev.queue k).occ = (w.dev.queue k).occ + 1 := by
  constructor
  · show ((w.takeCell k).2.dev.bobbin.opens ++ [_]).find? _ = _
    rw [opens_takeCell, List.find?_append, show w.dev.bobbin.opens.find? _ = none from free]
    simp
  · show ((w.takeCell k).2.dev.queue k).occ = _
    rw [queue_takeCell]

/-! PKT_WORD (R378, R380). -/

theorem openOf_of_setOpen {p' : OpenPkt} (found : w.dev.bobbin.openOf m k = some p) (rid : p'.rid = p.rid) (own : p'.q = p.q) :
    (w.setOpen p').dev.bobbin.openOf m k = some p' := by
  unfold Bobbin.openOf at found
  obtain ⟨prid, pq⟩ : p.rid = m ∧ p.q = k := by simpa using List.find?_some found
  rw [← rid] at prid
  rw [← own] at pq
  show (w.dev.bobbin.opens.map fun x => if x.rid = p'.rid ∧ x.q = p'.q then p' else x).find? _ = _
  generalize w.dev.bobbin.opens = l at found
  induction l with
  | nil => cases found
  | cons x xs ih =>
    rw [List.map_cons]
    by_cases own : x.rid = m ∧ x.q = k
    · rw [prid, pq, if_pos own, List.find?_cons_of_pos (by simp [prid, pq])]
    · have skip : ¬ (x.rid == m && x.q == k) = true := by simpa using own
      rw [List.find?_cons_of_neg (p := fun p : OpenPkt => p.rid == m && p.q == k) skip] at found
      rw [if_neg (by rw [prid, pq]; exact own), List.find?_cons_of_neg (p := fun p : OpenPkt => p.rid == m && p.q == k) skip, ih found]

theorem openOf_storeWord {v : Word32} (found : w.dev.bobbin.openOf m k = some p) :
    (w.storeWord p v).dev.bobbin.openOf m k = some { p with len := p.len + 1 } :=
  openOf_of_setOpen (w := w.setCell (p.cells.getD ((p.len + 1) / 14) 0) (2 + (p.len + 1) % 14) v) found rfl rfl

theorem storeWords_cons {v : Word32} (found : w.dev.bobbin.openOf m k = some p) (short : p.len < 1023)
    (fits : p.len + 1 < 14 * p.cells.length) : w.storeWords m k (v :: ws) = (w.storeWord p v).storeWords m k ws := by
  rw [W.storeWords, found]
  exact if_pos ⟨short, fits⟩

/-- The place of payload word `i` of a packet. -/
def placeOf (p : OpenPkt) (i : Nat) : Nat × Nat := (p.cells.getD ((i + 1) / 14) 0, 2 + (i + 1) % 14)

theorem word_storeWord {v : Word32} {c i : Nat} (low : i < 16) : (w.storeWord p v).dev.bobbin.word c i =
    if (c, i) = placeOf p p.len then v else w.dev.bobbin.word c i := by
  have place : (w.storeWord p v).dev.bobbin.word c i =
      (w.setCell (p.cells.getD ((p.len + 1) / 14) 0) (2 + (p.len + 1) % 14) v).dev.bobbin.word c i := rfl
  rw [place]
  split
  · next here =>
    obtain ⟨rfl, rfl⟩ := Prod.mk.inj here
    exact word_setCell_self ..
  · next there =>
    refine word_setCell_ne _ _ _ _ _ _ fun same => there ?_
    have cell : c = p.cells.getD ((p.len + 1) / 14) 0 := by omega
    exact Prod.ext cell (by dsimp only [placeOf]; omega)

theorem storeWords_one {a : Word32} (found : w.dev.bobbin.openOf m k = some p) (short : p.len < 1023)
    (fits : p.len + 1 < 14 * p.cells.length) : w.storeWords m k [a] = w.storeWord p a :=
  storeWords_cons found short fits

theorem storeWords_two {a b : Word32} (found : w.dev.bobbin.openOf m k = some p) (short : p.len + 1 < 1023)
    (fits : p.len + 2 < 14 * p.cells.length) :
    w.storeWords m k [a, b] = (w.storeWord p a).storeWord { p with len := p.len + 1 } b := by
  rw [storeWords_cons found (by omega) (by omega)]
  exact storeWords_one (openOf_storeWord found) short fits

/-- One word or two that fit into the packet stand at their places (R378). -/
theorem storeWords_stores (one : 0 < ws.length) (two : ws.length ≤ 2) (found : w.dev.bobbin.openOf m k = some p)
    (short : p.len + ws.length ≤ 1023) (fits : p.len + 1 + ws.length ≤ 14 * p.cells.length) :
    (w.storeWords m k ws).dev.bobbin.openOf m k = some { p with len := p.len + ws.length } ∧
    ∀ i, i < ws.length →
      (w.storeWords m k ws).dev.bobbin.word (p.cells.getD ((p.len + 1 + i) / 14) 0) (2 + (p.len + 1 + i) % 14) = ws.getD i 0 := by
  match ws, one, two with
  | [a], _, _ =>
    rw [List.length_singleton] at short fits
    rw [storeWords_one found (by omega) (by omega)]
    refine ⟨openOf_storeWord found, fun i below => ?_⟩
    obtain rfl : i = 0 := by simpa using below
    rw [word_storeWord (by omega)]
    exact if_pos rfl
  | [a, b], _, _ =>
    simp only [List.length_cons, List.length_nil] at short fits
    rw [storeWords_two found (by omega) (by omega)]
    refine ⟨openOf_storeWord (openOf_storeWord found), fun i below => ?_⟩
    rw [word_storeWord (by omega)]
    match i, below with
    | 0, _ =>
      rw [word_storeWord (by omega), if_neg, if_pos]
      · rfl
      · rfl
      · refine fun same => ?_
        have apart : 2 + (p.len + 1 + 0) % 14 = 2 + (p.len + 1 + 1) % 14 := congrArg Prod.snd same
        omega
    | 1, _ => exact if_pos rfl

theorem take_all {n : Nat} (enough : ws.length ≤ n) : ws.take n = ws := List.take_of_length_le enough

/-- A PKT_WORD whose words fit into the packet. -/
theorem tryPktWord_fits (found : w.dev.bobbin.openOf m k = some p) (whole : (w.dev.queue k).broken = false)
    (short : p.len + ws.length ≤ 1023) (fits : p.len + 1 + ws.length ≤ 14 * p.cells.length) :
    w.tryPktWord m k ws = some (.done, w.storeWords m k ws) := by
  have kept : ws.take (if p.tried then min (1023 - p.len) (14 * p.cells.length - 1 - p.len) else 1023 - p.len) = ws := by
    refine take_all ?_
    split <;> omega
  have need : (p.len + 1 + ws.length + 13) / 14 - p.cells.length = 0 := by omega
  simp only [W.tryPktWord, found, whole, Bool.false_eq_true, if_false, kept, need, if_true, Nat.lt_irrefl]

/-- A PKT_WORD that needs further cells. -/
theorem tryPktWord_grows (found : w.dev.bobbin.openOf m k = some p) (whole : (w.dev.queue k).broken = false)
    (untried : p.tried = false) (short : p.len + ws.length ≤ 1023) (pos : 0 < n)
    (need : p.cells.length + n = (p.len + 1 + ws.length + 13) / 14) :
    w.tryPktWord m k ws = if w.limit k n = none then
      some (.done, (((w.takeCells k n).2.setOpen { p with cells := p.cells ++ (w.takeCells k n).1 }).storeWords m k ws).poolNote m k 0x28)
      else none := by
  have kept : ws.take (1023 - p.len) = ws := take_all (by omega)
  have more : (p.len + 1 + ws.length + 13) / 14 - p.cells.length = n := by omega
  simp only [W.tryPktWord, found, whole, untried, Bool.false_eq_true, if_false, kept, more, if_neg (Nat.pos_iff_ne_zero.mp pos),
    Nat.lt_irrefl, Option.isNone_iff_eq_none]

theorem tryPktWord_bad (h : w.dev.bobbin.openOf m k = none ∨ (w.dev.queue k).broken = true) :
    w.tryPktWord m k ws = some (w.misuse m k 0x28) := by
  unfold W.tryPktWord
  split
  · rfl
  · next found => exact if_pos (h.resolve_left (by rw [found]; exact nofun))

/-! PKT_CLOSE (R378, R380). -/

theorem close_closes (found : w.dev.bobbin.openOf m k = some p) (whole : (w.dev.queue k).broken = false) :
    w.close m k false = (.done, w.closePkt p) := by
  simp only [W.close, found, whole, Bool.false_eq_true, if_false]

theorem close_aborts (found : w.dev.bobbin.openOf m k = some p) : w.close m k true = (.done, w.abortOpen p 0x2C) := by
  simp only [W.close, found, if_true]

theorem close_bad {abort : Bool} (none_ : w.dev.bobbin.openOf m k = none) : w.close m k abort = w.misuse m k 0x2C := by
  simp only [W.close, none_]

/-- Chaining the cells of a packet whose words they hold counts the words (R378). -/
theorem queue_linkAll {left : Nat} {first : Bool} {cs : List Nat} (fits : left ≤ 14 * cs.length) :
    ((w.linkAll k left first cs).dev.queue k).words = (w.dev.queue k).words + left ∧
    ((w.linkAll k left first cs).dev.queue k).seq = (w.dev.queue k).seq + w32 left := by
  induction cs generalizing w left first with
  | nil =>
    obtain rfl : left = 0 := by simpa using fits
    exact ⟨rfl, (BitVec.add_zero _).symm⟩
  | cons c cs ih =>
    rw [W.linkAll]
    rw [List.length_cons] at fits
    by_cases last : left = 0
    · subst last
      rw [if_pos rfl]
      obtain ⟨words, seq⟩ := ih (w := w.freeCell k c) (left := 0) (first := false) (Nat.zero_le _)
      have free : (w.freeCell k c).dev.queue k = { w.dev.queue k with occ := (w.dev.queue k).occ - 1 } := queue_upd_onQueue _ _ _
      rw [words, seq, free]
      exact ⟨rfl, rfl⟩
    · rw [if_neg last]
      obtain ⟨words, seq⟩ := ih (w := w.link k c (min left 14) first (decide (left ≤ 14))) (left := left - 14) (first := false) (by omega)
      rw [words, seq, queue_link]
      refine ⟨by show (w.dev.queue k).words + min left 14 + (left - 14) = _; omega, ?_⟩
      show (w.dev.queue k).seq + w32 (min left 14) + w32 (left - 14) = _
      rw [BitVec.add_assoc, w32, w32, ← BitVec.ofNat_add, show min left 14 + (left - 14) = left by omega]
      rfl

/-- Chaining changes the first two words of a cell alone. -/
theorem word_linkAll {left c i : Nat} {first : Bool} {cs : List Nat} (payload : 2 ≤ i) (low : i < 16) :
    (w.linkAll k left first cs).dev.bobbin.word c i = w.dev.bobbin.word c i := by
  have apart (c' n : Nat) (f l : Bool) (v : W) : (v.link k c' n f l).dev.bobbin.word c i = v.dev.bobbin.word c i := by
    rw [link_eq, word_upd_onQueue]
    have ends (u : W) (e : Option (Nat × Nat)) : (linkedAfter u c' e).dev.bobbin.word c i = u.dev.bobbin.word c i := by
      cases e with
      | none => rfl
      | some e => exact word_setCell_ne _ _ 0 c i _ (by omega)
    exact (ends _ _).trans ((word_setCell_ne _ _ 1 c i _ (by omega)).trans (word_setCell_ne _ _ 0 c i _ (by omega)))
  induction cs generalizing w left first with
  | nil => rfl
  | cons c' cs ih =>
    rw [W.linkAll]
    split
    · exact ih
    · exact ih.trans (apart ..)

theorem closePkt_leaves (found : w.dev.bobbin.openOf m k = some p) (fits : p.len + 1 ≤ 14 * p.cells.length) :
    (w.closePkt p).dev.bobbin.openOf m k = none ∧
    ((w.closePkt p).dev.queue k).words = (w.dev.queue k).words + (p.len + 1) ∧
    ((w.closePkt p).dev.queue k).seq = (w.dev.queue k).seq + w32 (p.len + 1) ∧
    (w.closePkt p).dev.bobbin.word (p.cells.getD 0 0) 2 = w32 (p.len + p.trunc.toNat * 2 ^ 31) := by
  obtain ⟨rid, own⟩ : p.rid = m ∧ p.q = k := by
    unfold Bobbin.openOf at found
    simpa using List.find?_some found
  subst rid own
  obtain ⟨words, seq⟩ := queue_linkAll (w := w.setCell (p.cells.getD 0 0) 2 (w32 (p.len + 2 ^ 31 * p.trunc.toNat))) (k := p.q)
    (left := p.len + 1) (first := true) (cs := p.cells) fits
  refine ⟨?_, words, seq, ?_⟩
  · refine List.find?_eq_none.mpr fun x mem => ?_
    have other := (List.mem_filter.mp mem).2
    rw [Bool.not_eq_true'] at other
    exact Bool.eq_false_iff.mp other
  · have kept := word_linkAll (w := w.setCell (p.cells.getD 0 0) 2 (w32 (p.len + 2 ^ 31 * p.trunc.toNat))) (k := p.q)
      (left := p.len + 1) (first := true) (cs := p.cells) (c := p.cells.getD 0 0) (i := 2) (Nat.le_refl _) (by decide)
    rw [word_setCell_self, Nat.mul_comm] at kept
    unfold W.closePkt
    rw [Nat.mul_comm]
    exact kept

/-! A packet that is aborted (R378, R389). -/

theorem source_aborted : ∃ row, w.source 0x2C2 = some row ∧ row.level = false := ⟨_, rfl, rfl⟩

/-- A packet is discarded in the Bobbin alone. -/
theorem abortPkt_besideBobbin : ∃ b, w.abortPkt p = besideBobbin w b := by
  have freed (cs : List Nat) (v : W) : ∃ b, (v.each cs fun c w => w.freeCell p.q c) = besideBobbin v b := by
    induction cs generalizing v with
    | nil => exact ⟨_, rfl⟩
    | cons c cs ih => exact ih (v.freeCell p.q c)
  obtain ⟨b, eq⟩ := freed p.cells w
  unfold W.abortPkt
  rw [eq]
  exact ⟨_, rfl⟩

/-- The count of the aborts stands where the trace stream writes nothing. -/
theorem abortCount_untraced (h : Untraced w v) : v.reg 8 0 0x58 = w.reg 8 0 0x58 := by
  have reset (u : W) : u.regReset 8 0x58 = 0 := rfl
  rw [W.reg, W.reg, reset, reset, blockBase_eight]
  exact h.getD _ (by decide) (by decide) _

/-- An abort is counted and recorded, where nothing waits before it and the trace stream is off. -/
theorem settle_abort (off : TraceOff w) (none_ : w.due = []) (found : w.dev.bobbin.openOf m k = some p) :
    (w.abortOpen p o).settle.reg 8 0 0x58 = satInc (w.reg 8 0 0x58) ∧
    (w.abortOpen p o).settle.dev.src 0x2C2 = (w.dev.src 0x2C2).after false (w.eventRec 0x2C2 (queueDetail k o) (ridDetail m) false) := by
  obtain ⟨rid, own⟩ : p.rid = m ∧ p.q = k := by
    unfold Bobbin.openOf at found
    simpa using List.find?_some found
  obtain ⟨row, there, event⟩ := source_aborted (w := w)
  obtain ⟨b, eq⟩ := abortPkt_besideBobbin (w := w) (p := p)
  have aborted : w.abortOpen p o = ((besideBobbin w b).countReg 8 0 0x58).queueNote 0x2C2 m k o := by
    rw [W.abortOpen, eq, rid, own]
  rw [aborted]
  generalize counted : (besideBobbin w b).countReg 8 0 0x58 = v
  have reg (o : Nat) (low : o < 0x10000) : v.reg 2 0 o = w.reg 2 0 o := by
    rw [← counted, W.countReg, reg_setReg_ne _ _ _ _ _ _ _ _ (by rw [blockBase_two, blockBase_eight]; omega), reg_besideBobbin]
  have cfg : v.srcCfg 0x2C2 = w.srcCfg 0x2C2 := reg _ (by decide)
  have same : v.due = [] ∧ v.source 0x2C2 = some row ∧ v.dev.src 0x2C2 = w.dev.src 0x2C2 ∧
      v.eventRec 0x2C2 (queueDetail k o) (ridDetail m) false = w.eventRec 0x2C2 (queueDetail k o) (ridDetail m) false := by
    rw [W.eventRec, W.eventRec, W.sev, W.mask, W.sev, W.mask, cfg, ← counted]
    exact ⟨none_, there, rfl, rfl⟩
  obtain ⟨idle, there', src, note⟩ := same
  have quiet : TraceOff v := by
    rw [TraceOff, reg _ (by decide)]
    exact off
  obtain ⟨rest, told⟩ := settle_note (m := m) (k := k) (o := o) quiet idle there' event (by decide) (by decide) (by simp [HobNoted])
  constructor
  · have kept : (v.queueNote 0x2C2 m k o).settle.reg 8 0 0x58 = (noDue (v.queueNote 0x2C2 m k o)).reg 8 0 0x58 :=
      abortCount_untraced rest
    rw [kept, reg_noDue, reg_queueNote, ← counted, reg_countReg_self, satAdd_one, reg_besideBobbin]
  · rw [told, src, note]

theorem src_answered {x : W} {a : Answer} : (stateOf s (x.answer a)).dev.src n = x.dev.src n := rfl

theorem aborted_note (off : bitAt (s.world.reg 2 0 0x34) 24 = false) (found : s.dev.bobbin.openOf m k = some p) :
    let t := stateOf s ((s.world.abortOpen p o).settle.answer .done)
    t.world.reg 8 0 0x58 = satInc (s.world.reg 8 0 0x58) ∧ Detected s t 0x2C2 (queueDetail k o) (ridDetail m) s.dev.clock.tb := by
  obtain ⟨count, src⟩ := settle_abort (w := s.world) (o := o) off rfl found
  obtain ⟨row, there, event⟩ := source_aborted (w := s.world)
  generalize (s.world.abortOpen p o).settle = x at count src
  intro t
  have left : Untraced x t.world := ⟨fun _ _ _ => rfl, fun _ h => by cases h⟩
  have same : t.world.reg 8 0 0x58 = x.reg 8 0 0x58 := abortCount_untraced left
  refine ⟨same.trans count, row, there, ?_⟩
  rw [event]
  exact src_answered.trans src

/-- Settles O36: a write that is taken leaves what its operation makes of the packet; one that meets a limit waits; one that has no
packet to act on is misuse. -/
theorem queuePackets : Obligations.QueuePackets := by
  intro s m q v vv two d g k writes first ws waits misused mayOpen alone place
  have size : 0 < ws.length ∧ ws.length ≤ 2 := by
    dsimp only [ws]
    split <;> exact ⟨Nat.succ_pos _, by simp⟩
  refine ⟨fun h one may fits => ?_, fun h one may full => ?_, fun h only bad => ?_, fun p h one found whole short fits => ?_,
    fun p h one found whole untried short n pos need => ⟨fun full => ?_, fun room => ?_⟩, fun h only bad => ?_,
    fun p h one found keeps whole fits => ?_, fun p h only found aborts => ?_, fun h only bad => ?_⟩
  · have taken := (tryWaiter_open (ws := [])).trans ((tryPktOpen_good may).trans (if_pos fits))
    obtain ⟨opened, occ⟩ := opened_one may.2.2
    exact ⟨_, page_done rfl h (by decide) one taken, opened, occ, rfl⟩
  · exact page_waits rfl h (by decide) one (tryWaiter_open.trans ((tryPktOpen_good may).trans (if_neg full)))
  · have same : g = s.world := grantWaiters_of_none s.world only.1
    exact page_misused rfl h (by decide) only.1 only.2 (tryWaiter_open.trans (tryPktOpen_bad (same ▸ bad)))
  · have taken := (tryWaiter_word (ws := ws)).trans (tryPktWord_fits found whole short fits)
    obtain ⟨opened, words⟩ := storeWords_stores size.1 size.2 found short fits
    exact ⟨_, page_done rfl h (by decide) one taken, opened, words, rfl⟩
  · exact page_waits rfl h (by decide) one (tryWaiter_word.trans ((tryPktWord_grows found whole untried short pos need).trans (if_neg full)))
  · have taken := tryWaiter_word.trans ((tryPktWord_grows found whole untried short pos need).trans (if_pos room))
    exact ⟨_, page_done rfl h (by decide) one taken, rfl⟩
  · exact page_misused rfl h (by decide) only.1 only.2 (tryWaiter_word.trans (tryPktWord_bad bad))
  · have taken : g.tryWaiter ⟨m, q, 0x2C, [v], true⟩ = some (.done, g.closePkt p) := by
      rw [tryWaiter_close, keeps, close_closes found whole]
    obtain ⟨gone, words, seq, len⟩ := closePkt_leaves found fits
    exact ⟨_, page_done rfl h (by decide) one taken, gone, words, seq, len, rfl⟩
  · have same : g = s.world := grantWaiters_of_none s.world only.1
    have first : FirstOf s.world m := no_waiter only.1
    have taken : g.tryWaiter ⟨m, q, 0x2C, [v], true⟩ = some (.done, s.world.abortOpen p 0x2C) := by
      rw [tryWaiter_close, aborts, same, close_aborts found]
    obtain ⟨count, told⟩ := aborted_note only.2 found
    exact ⟨_, page_done rfl h (by decide) first taken, count, rfl, told⟩
  · exact page_misused rfl h (by decide) only.1 only.2 (tryWaiter_close.trans (congrArg some (close_bad bad)))

end Sys2Proof.Proofs
end

section
/-! The ends of the tests of lanes (R100, R328, R329, R337): what each operation of the lane controller leaves alone. -/

namespace Sys2Proof.Proofs

open Machine Laws

set_option Elab.async false

variable {s : State} {w v : W} {u l k n : Nat}

/-! The result records. -/

/-- No record of a test is written between `w` and `v`. -/
def SameLog (w v : W) : Prop := v.dev.baste.results = w.dev.baste.results ∧ v.dev.baste.rseq = w.dev.baste.rseq

theorem SameLog.refl : SameLog w w := ⟨rfl, rfl⟩

theorem SameLog.trans {a b c : W} (h : SameLog a b) (k : SameLog b c) : SameLog a c := ⟨k.1.trans h.1, k.2.trans h.2⟩

theorem SameLog.ite {a b c : W} {p : Prop} [Decidable p] (h : SameLog a b) (k : SameLog a c) : SameLog a (if p then b else c) := by
  split <;> assumption

theorem SameLog.upd {a : W} {f : Dev → Dev} (h : SameLog a w)
    (k : ∀ d, (f d).baste.results = d.baste.results ∧ (f d).baste.rseq = d.baste.rseq := by exact fun _ => ⟨rfl, rfl⟩) :
    SameLog a (w.upd f) := h.trans (k w.dev)

theorem SameLog.each {α : Type} {a : W} {xs : List α} {f : α → W → W} (h : SameLog a w) (k : ∀ x v, SameLog v (f x v)) :
    SameLog a (w.each xs f) := by
  induction xs generalizing w with
  | nil => exact h
  | cons x xs ih => exact ih (h.trans (k x w))

theorem SameLog.kept {a b : W} (h : SameLog a w) (k : Kept w b) : SameLog a b := by
  obtain ⟨dev, -⟩ := k
  have baste : b.dev.baste = w.dev.baste := congrArg (fun d => d.baste) dev
  exact h.trans ⟨by rw [baste], by rw [baste]⟩

theorem SameLog.steady {a b : W} (h : SameLog a w) (k : Steady w b) : SameLog a b := h.kept k.kept

/-! The wake of lanes and the start of rethreads. -/

theorem steady_wakeDom : Steady w (w.wakeDom n) := by
  unfold W.wakeDom W.domainUp
  refine Steady.ite _ (Steady.refl _) (Steady.upd _ _ ?_)
  dsimp only
  split <;> rfl

theorem steady_wakeLanes : Steady w (w.wakeLanes k) := by
  unfold W.wakeLanes
  exact Steady.each _ _ (fun _ _ => steady_wakeDom) _

theorem steady_stall {i : Nat} {leaves : Option (Nat × LaneSt)} : Steady w (w.stall k l i leaves) :=
  (Steady.upd w _ rfl).trans steady_wakeLanes

/-! The states of lanes. -/

/-- How the lane controller may take a lane on after a change of lanes: into a test that waits for it, or the patch lane into a
core (R100, R103, R116). -/
def LaneMoves (patch due : Prop) (a b : LaneSt) : Prop :=
  b = a ∨ (b = .basting ∧ (a = .fenced ∨ a = .failed ∧ due)) ∨ (b = .rejoining ∧ a = .spare ∧ patch)

/-- What the lane controller leaves of lane `l` of unit `u` after a change of lanes, and of the records and the source `n`. -/
structure Settles (u l n : Nat) (w v : W) : Prop where
  fences : (v.laneAt u l).fences = (w.laneAt u l).fences
  moves : LaneMoves (l = patchOf u) (l ∈ (w.dev.laneUnit u).retestDue) (w.laneAt u l).st (v.laneAt u l).st
  due : l ∈ (v.dev.laneUnit u).retestDue → l ∈ (w.dev.laneUnit u).retestDue
  log : SameLog w v
  src : (∀ e ∈ w.due, Noted e.1) → v.dev.src n = w.dev.src n ∧ ∀ e ∈ v.due, Noted e.1

theorem Settles.refl : Settles u l n w w := ⟨rfl, .inl rfl, id, .refl, fun h => ⟨rfl, h⟩⟩

theorem Settles.trans {a b c : W} (h : Settles u l n a b) (k : Settles u l n b c) : Settles u l n a c := by
  refine ⟨k.fences.trans h.fences, ?_, h.due ∘ k.due, h.log.trans k.log, fun noted => ?_⟩
  · have first := h.moves
    have second := k.moves
    have due := h.due
    unfold LaneMoves at *
    grind
  · obtain ⟨src, noted'⟩ := h.src noted
    obtain ⟨src', noted''⟩ := k.src noted'
    exact ⟨src'.trans src, noted''⟩

theorem Settles.ite {a b c : W} {p : Prop} [Decidable p] (h : Settles u l n a b) (k : Settles u l n a c) :
    Settles u l n a (if p then b else c) := by split <;> assumption

theorem Settles.each {α : Type} {a : W} {xs : List α} {f : α → W → W} (h : Settles u l n a w) (k : ∀ x v, Settles u l n v (f x v)) :
    Settles u l n a (w.each xs f) := by
  induction xs generalizing w with
  | nil => exact h
  | cons x xs ih => exact ih (h.trans (k x w))

theorem settles_kept (h : Kept w v) (src : (∀ e ∈ w.due, Noted e.1) → v.dev.src n = w.dev.src n ∧ ∀ e ∈ v.due, Noted e.1) :
    Settles u l n w v := by
  have ⟨dev, _⟩ := h
  have lanes : v.dev.lanes = w.dev.lanes := congrArg (fun d => d.lanes) dev
  have units : v.dev.laneUnits = w.dev.laneUnits := congrArg (fun d => d.laneUnits) dev
  have lane : v.laneAt u l = w.laneAt u l := by rw [W.laneAt, W.laneAt, Dev.lane, Dev.lane, lanes]
  refine ⟨by rw [lane], .inl (by rw [lane]), ?_, SameLog.refl.kept h, src⟩
  rw [Dev.laneUnit, Dev.laneUnit, units]
  exact id

theorem settles_steady (h : Steady w v) : Settles u l n w v :=
  settles_kept h.kept fun noted => ⟨steady_src h n, fun e mem => (h.2.2 e mem).elim (noted e) id⟩

/-- A change of another lane. -/
theorem settles_onLane_ne {j : Nat} {f : Lane → Lane} (ne : laneKey u l ≠ laneKey u j) : Settles u l n w (w.onLane u j f) := by
  have lane : (w.onLane u j f).laneAt u l = w.laneAt u l := lane_onLane_ne _ _ _ _ ne
  exact ⟨by rw [lane], .inl (by rw [lane]), id, .refl, fun h => ⟨rfl, h⟩⟩

/-- A change of a lane that takes it on. -/
theorem settles_onLane {f : Lane → Lane} (fences : ∀ x, (f x).fences = x.fences)
    (moves : LaneMoves (l = patchOf u) (l ∈ (w.dev.laneUnit u).retestDue) (w.laneAt u l).st (f (w.laneAt u l)).st) :
    Settles u l n w (w.onLane u l f) := by
  have lane : (w.onLane u l f).laneAt u l = f (w.laneAt u l) := lane_onLane_self _ _ _
  exact ⟨by rw [lane, fences], by rw [lane]; exact moves, id, .refl, fun h => ⟨rfl, h⟩⟩

theorem laneKey_inj {a b : Nat} (h : laneKey u a = laneKey u b) : a = b := by
  unfold laneKey at h
  split at h <;> omega

/-- A change of lane `j` that takes each lane on as the state of `j` lets it. -/
theorem settles_laneAt {j : Nat} {f : Lane → Lane} (fences : ∀ x, (f x).fences = x.fences)
    (moves : j = l → LaneMoves (l = patchOf u) (l ∈ (w.dev.laneUnit u).retestDue) (w.laneAt u l).st (f (w.laneAt u l)).st) :
    Settles u l n w (w.onLane u j f) := by
  by_cases own : j = l
  · subst own
    exact settles_onLane fences (moves rfl)
  · exact settles_onLane_ne fun same => own (laneKey_inj same).symm

/-- A change of a lane unit that adds no retest. -/
theorem settles_onLaneUnit {j : Nat} {f : LaneUnit → LaneUnit} (fewer : ∀ x, l ∈ (f x).retestDue → l ∈ x.retestDue) :
    Settles u l n w (w.upd fun d => d.onLaneUnit j f) := by
  refine ⟨rfl, .inl rfl, ?_, .refl, fun h => ⟨rfl, h⟩⟩
  by_cases own : u = j
  · subst own
    show l ∈ ((w.dev.onLaneUnit u f).laneUnit u).retestDue → _
    rw [laneUnit_onLaneUnit_self]
    exact fewer _
  · show l ∈ ((w.dev.onLaneUnit j f).laneUnit u).retestDue → _
    rw [laneUnit_onLaneUnit_ne _ _ _ _ own]
    exact id

theorem settles_nextRejoin : Settles u l n w (w.nextRejoin u) := by
  unfold W.nextRejoin
  split
  · exact .refl
  · refine .ite .refl (Settles.trans ?_ (settles_steady steady_stall))
    exact settles_onLaneUnit fun _ => id

theorem settles_serveDmr : Settles u l n w (w.serveDmr u) := by
  unfold W.serveDmr
  split
  · exact .refl
  · next spare =>
    rw [not_not] at spare
    split
    · unfold W.rejoin
      refine Settles.trans ?_ (.ite (settles_onLaneUnit fun _ => id) (settles_steady steady_stall))
      refine settles_laneAt (fun _ => rfl) fun own => .inr (.inr ⟨rfl, ?_, own.symm⟩)
      rw [← own]
      exact spare
    · exact .refl

theorem settles_repairTest {j : Nat} : Settles u l n w (w.repairTest u j) := by
  unfold W.repairTest
  split
  · next h => exact settles_laneAt (fun _ => rfl) fun own => .inr (.inl ⟨rfl, .inl (own ▸ h.1)⟩)
  · exact .refl

theorem settles_fenceDone {o : Option Nat} : Settles u l n w (w.fenceDone u o) := by
  dsimp only [W.fenceDone]
  refine Settles.trans ?_ (settles_onLaneUnit fun x => ?_)
  · exact Settles.refl.each fun _ _ => settles_steady (steady_finish _ _ _ _)
  · split <;> exact id

theorem settles_restTests : Settles u l n w (w.restTests u) := by
  unfold W.restTests
  exact (Settles.refl.each fun _ _ => .ite .refl ((Settles.refl.each fun _ _ => settles_repairTest).trans settles_fenceDone)).trans
    settles_repairTest

/-- A retest that waits begins for a lane that is FENCED or FAILED. -/
theorem settles_retest {j : Nat} (h : Settles u l n w v) (due : j ∈ (w.dev.laneUnit u).retestDue)
    (ready : (v.laneAt u j).st = .fenced ∨ (v.laneAt u j).st = .failed) {b : Bool} :
    Settles u l n w ((v.upd fun d => d.onLaneUnit u fun x => { x with retestDue := x.retestDue.filter (· != j) }).onLane u j fun x =>
      { x with st := .basting, test := .retest, wasFailed := b }) := by
  have fewer : Settles u l n v (v.upd fun d => d.onLaneUnit u fun x => { x with retestDue := x.retestDue.filter (· != j) }) :=
    settles_onLaneUnit fun x => fun mem => (List.mem_filter.mp mem).1
  by_cases own : j = l
  · subst own
    obtain ⟨fences, moves, less, log, src⟩ := h.trans fewer
    have moves' := h.moves
    generalize reached : (v.upd fun d => d.onLaneUnit u fun x => { x with retestDue := x.retestDue.filter (· != j) }) = v' at *
    have lane : (v'.onLane u j fun x => { x with st := .basting, test := .retest, wasFailed := b }).laneAt u j =
        { v'.laneAt u j with st := .basting, test := .retest, wasFailed := b } := lane_onLane_self _ _ _
    refine ⟨by rw [lane]; exact fences, ?_, less, log, src⟩
    rw [lane]
    refine .inr (.inl ⟨rfl, ?_⟩)
    unfold LaneMoves at moves'
    grind
  · exact (h.trans fewer).trans (settles_onLane_ne fun same => own (laneKey_inj same).symm)

theorem settles_startRetests : Settles u l n w (w.startRetests u) := by
  unfold W.startRetests
  split
  · exact .refl
  · have all (xs : List Nat) (v : W) (h : Settles u l n w v) (some_ : ∀ j ∈ xs, j ∈ (w.dev.laneUnit u).retestDue) :
        Settles u l n w (v.each xs fun j w =>
          let st := (w.laneAt u j).st
          let held := st == .fenced && j != patchOf u && (w.dev.seam (homeCore u j)).mode == .halted
          if (st = .fenced ∨ st = .failed) ∧ held = false then
            (w.upd fun d => d.onLaneUnit u fun x => { x with retestDue := x.retestDue.filter (· != j) }).onLane u j fun x =>
              { x with st := .basting, test := .retest, wasFailed := st == .failed }
          else w) := by
      induction xs generalizing v with
      | nil => exact h
      | cons j js ih =>
        refine ih _ ?_ fun i mem => some_ i (List.mem_cons_of_mem _ mem)
        dsimp only
        split
        · next ready => exact settles_retest h (some_ j List.mem_cons_self) ready.1
        · exact h
    exact all _ w .refl fun _ => id

/-- A detection leaves events that wait of the hobs and the Bobbin alone. -/
theorem noted_raise {m : Nat} {d0 d1 : Word32} (plain : Plain n) (noted : ∀ e ∈ w.due, Noted e.1) :
    ∀ e ∈ (w.raise m d0 d1).due, Noted e.1 := by
  obtain ⟨-, fell, apart⟩ := plain
  have first := fun e mem => (due_event w m d0 d1 false [] e mem).elim (noted e) id
  have back := fun e mem => ((spares_fellBack (w.event m d0 d1 false []) n fell).2 e mem).elim (first e) id
  have drained := (spares_drainOnce _ n fell apart back).2
  have again := (spares_drainOnce _ n fell apart drained).2
  intro e mem
  change e ∈ W.due (W.poolCheck _) at mem
  unfold W.poolCheck at mem
  dsimp only at mem
  split at mem
  · exact (due_event _ _ _ _ _ _ e mem).elim (again e) id
  · split at mem
    · exact ((steady_errAuto _).2.2 e mem).elim (again e) id
    · exact again e mem

/-- An event of another source. -/
theorem settles_raise {m : Nat} {d0 d1 : Word32} (plain : Plain n) (ne : n ≠ m) : Settles u l n w (w.raise m d0 d1) := by
  have src (noted : ∀ e ∈ w.due, Noted e.1) : (w.raise m d0 d1).dev.src n = w.dev.src n := by
    rw [W.raise, src_followUp plain fun e mem => (due_event w m d0 d1 false [] e mem).elim (noted e) id, src_event_ne _ _ _ _ _ _ _ ne]
  have waits := noted_raise (w := w) (m := m) (d0 := d0) (d1 := d1) plain
  exact settles_kept (kept_raise w m d0 d1 false []) fun noted => ⟨src noted, waits noted⟩

theorem settles_exhaustCheck (plain : Plain n) (ne : n ≠ laneSrc u 2) : Settles u l n w (w.exhaustCheck u) := by
  unfold W.exhaustCheck
  split
  · refine .ite (Settles.trans ?_ (settles_raise plain ne)) .refl
    exact settles_onLaneUnit fun _ => id
  · exact .refl

theorem settles_settleRun : Settles u l n w w.settleRun := .ite (settles_steady (Steady.upd _ _ rfl)) .refl

/-- What follows every change of lanes. -/
theorem settles_settleLanes (plain : Plain n) (ne : n ≠ laneSrc u 2) : Settles u l n w (w.settleLanes u) :=
  settles_nextRejoin.trans <| settles_serveDmr.trans <| settles_restTests.trans <| (settles_exhaustCheck plain ne).trans <|
    settles_startRetests.trans settles_settleRun

end Sys2Proof.Proofs
end

section
/-! SLICE_COMPLETE (R100, R328, R329, R337): how the test of a lane ends. -/

namespace Sys2Proof.Proofs

open Machine Laws

set_option Elab.async false

variable {s : State} {w v : W} {u l k n : Nat}

/-! The end of commands changes replies alone. -/

/-- `w` with other replies. -/
def besideReplies (w : W) (x : Stoker) (y : Ports) : W := w.upd fun d => { d with stoker := x, ports := y }

/-- Between `w` and `v` commands have ended. -/
def Replied (w v : W) : Prop := ∃ x y, v = besideReplies w x y

theorem Replied.refl : Replied w w := ⟨_, _, rfl⟩

theorem Replied.trans {a b c : W} (h : Replied a b) (k : Replied b c) : Replied a c := by
  obtain ⟨x, y, rfl⟩ := h
  obtain ⟨x', y', rfl⟩ := k
  exact ⟨x', y', rfl⟩

theorem replied_deliver {r : Reply} : Replied w (w.deliver k r) := by
  refine ⟨(w.deliver k r).dev.stoker, (w.deliver k r).dev.ports, ?_⟩
  simp only [W.deliver, besideReplies, W.upd]
  split
  · rfl
  · split <;> rfl

theorem replied_reply {p : Packet} {opc : Half} {status : Nat} {final stale : Bool} {bs : List Byte} :
    Replied w (w.reply p opc status final bs stale) := by
  dsimp only [W.reply]
  split
  · exact replied_deliver
  · exact replied_deliver.trans ⟨_, _, rfl⟩

theorem replied_finish {p : Pend} {status : Nat} {bs : List Byte} : Replied w (w.finish p status bs) := by
  have dropped : Replied w (w.dropPend p) := ⟨_, _, rfl⟩
  dsimp only [W.finish]
  split
  · exact dropped.trans replied_reply
  · exact dropped

theorem replied_finishAll {opc key status : Nat} {bs : List Byte} : Replied w (w.finishAll opc key status bs) := by
  unfold W.finishAll
  generalize w.pendsOf opc key = ps
  induction ps generalizing w with
  | nil => exact .refl
  | cons p ps ih => exact (replied_finish (w := w) (p := p)).trans (ih (w := w.finish p status bs))

/-! The record of a test. -/

/-- The records with one more. -/
def Logged (w v : W) (info : Word32) : Prop :=
  v.dev.baste.results = ({ time := w.dev.clock.tb, info := info, rseq := w.dev.baste.rseq } :: w.dev.baste.results).take 64 ∧
  v.dev.baste.rseq = w.dev.baste.rseq + 1

theorem Logged.trans {a b c : W} {info : Word32} (h : Logged a b info) (k : SameLog b c) : Logged a c info :=
  ⟨k.1.trans h.1, k.2.trans h.2⟩

theorem SameLog.logged {a b c : W} {info : Word32} (h : SameLog a b) (clock : b.dev.clock = a.dev.clock) (k : Logged b c info) :
    Logged a c info := by
  obtain ⟨results, rseq⟩ := h
  obtain ⟨results', rseq'⟩ := k
  rw [clock, results, rseq] at results'
  rw [rseq] at rseq'
  exact ⟨results', rseq'⟩

theorem Logged.upd {a w : W} {info : Word32} {f : Dev → Dev} (h : Logged a w info)
    (k : ∀ d, (f d).baste.results = d.baste.results ∧ (f d).baste.rseq = d.baste.rseq := by exact fun _ => ⟨rfl, rfl⟩) :
    Logged a (w.upd f) info := h.trans (k w.dev)

theorem SameLog.finishAll {a : W} (h : SameLog a w) {opc key status : Nat} {bs : List Byte} :
    SameLog a (w.finishAll opc key status bs) := h.steady (steady_finishAll _ _ _ _ _)

theorem Logged.finishAll {a w : W} {info : Word32} (h : Logged a w info) {opc key status : Nat} {bs : List Byte} :
    Logged a (w.finishAll opc key status bs) info := h.trans (.finishAll .refl)

/-- `w` with one more record. -/
def recording (w : W) (info : Word32) : W := w.upd fun d => { d with baste := { d.baste with
  results := ({ time := d.clock.tb, info := info, rseq := d.baste.rseq } :: d.baste.results).take 64, rseq := d.baste.rseq + 1 } }

theorem basteRec_failed {o : Nat} {info : Word32} (bad : o ≠ 0) : w.basteRec u l o info = recording w info := if_neg bad

theorem logged_basteRec {o : Nat} {info : Word32} : Logged w (w.basteRec u l o info) info := by
  have one : Logged w (w.upd fun d => { d with baste := { d.baste with
      results := ({ time := d.clock.tb, info := info, rseq := d.baste.rseq } :: d.baste.results).take 64
      rseq := d.baste.rseq + 1 } }) info := ⟨rfl, rfl⟩
  dsimp only [W.basteRec]
  split
  · refine Logged.trans one (SameLog.trans (SameLog.refl.upd) (.ite (SameLog.refl.kept kept_inactive) .refl))
  · exact one

theorem lane_basteRec {o : Nat} {info : Word32} : (w.basteRec u l o info).dev.lanes = w.dev.lanes := by
  dsimp only [W.basteRec]
  split
  · split
    · exact congrArg (fun d => d.lanes) kept_inactive.1
    · rfl
  · rfl

theorem logged_testRecord {o : Nat} : Logged w (w.testRecord u l o)
    (basteInfo u l (if (w.laneAt u l).test = .reinit then 2 else o) (w.laneAt u l).test.kind 0 (homeCore u l)
      (if l = patchOf u then 0 else homeSlot u l)) := by
  dsimp only [W.testRecord]
  split
  · exact .finishAll (.upd logged_basteRec)
  · exact logged_basteRec

theorem lanes_steady (h : Steady w v) : v.dev.lanes = w.dev.lanes := congrArg (fun d => d.lanes) h.1

theorem laneAt_testRecord {o : Nat} : (w.testRecord u l o).laneAt u l = w.laneAt u l := by
  have lanes : (w.testRecord u l o).dev.lanes = w.dev.lanes := by
    dsimp only [W.testRecord]
    split
    · refine (lanes_steady (steady_finishAll _ _ _ _ _)).trans ?_
      exact lane_basteRec
    · exact lane_basteRec
  rw [W.laneAt, W.laneAt, Dev.lane, Dev.lane, lanes]

/-! The operations that follow the test of a lane. -/

theorem settles_retestDone {j : Nat} : Settles u l n w (w.retestDone u j) := by
  dsimp only [W.retestDone]
  split
  · exact .refl
  · refine Settles.trans ?_ (settles_onLaneUnit fun x => ?_)
    · exact settles_steady (steady_finishAll _ _ _ _ _)
    · split
      · exact fun mem => (List.mem_filter.mp mem).1
      · exact fun mem => (List.mem_filter.mp mem).1

/-- A lane that has left its test waits for none. -/
theorem retestDone_notDue (left : (w.laneAt u l).st ≠ .basting) (away : (w.laneAt u l).st ≠ .rejoining) :
    l ∉ ((w.retestDone u l).dev.laneUnit u).retestDue := by
  have h : ¬ ((w.laneAt u l).st = .basting ∨ (w.laneAt u l).st = .rejoining) := not_or.mpr ⟨left, away⟩
  simp only [W.retestDone, if_neg h]
  show l ∉ (Dev.laneUnit (Dev.onLaneUnit _ u _) u).retestDue
  rw [laneUnit_onLaneUnit_self]
  split <;> simp

theorem sameLog_startCore : SameLog w (w.startCore k) := by
  unfold W.startCore
  split
  · exact .refl
  · dsimp only
    exact .ite (.upd (.upd .refl)) (.upd .refl)

theorem sameLog_retestDone {j : Nat} : SameLog w (w.retestDone u j) := by
  dsimp only [W.retestDone]
  exact .ite .refl (.upd (SameLog.refl.steady (steady_finishAll _ _ _ _ _)))

theorem plain_zero : Plain 0 := by unfold Plain Noted; decide

theorem sameLog_settleLanes : SameLog w (w.settleLanes u) :=
  (settles_settleLanes (l := 0) (n := 0) plain_zero (by unfold laneSrc; split <;> omega)).log

theorem sameLog_placeLanes {ok : Bool} : SameLog w (w.placeLanes k ok) := by
  unfold W.placeLanes
  extract_lets u held homes placed left filled count told started voted ended tested
  have h1 : SameLog w placed := .each .refl fun _ _ => .upd (.upd .refl)
  have h2 : SameLog w left := .ite (.upd h1) h1
  have h3 : SameLog w filled := by
    refine .ite ?_ h2
    split
    · exact .upd (.upd h2)
    · exact h2
  have h4 : SameLog w told := .ite h3 (h3.kept (kept_raise _ _ _ _ _ _))
  have h5 : SameLog w started := .upd h4
  have h6 : SameLog w voted := .ite (.upd h4) (.ite (h5.trans sameLog_startCore) (.ite (h5.trans sameLog_startCore) h5))
  exact (SameLog.each (.finishAll h6) fun _ _ => sameLog_retestDone).trans sameLog_settleLanes

theorem sameLog_restartStep {ok : Bool} : SameLog w (w.restartStep u l ok) := by
  unfold W.restartStep
  exact SameLog.refl.each fun _ _ => .ite sameLog_placeLanes .refl

/-! SLICE_COMPLETE, clause by clause. -/

section
variable {u : UnitId} {l : LaneNo} {pass ok : Bool}

theorem slice_ends (basting : (s.dev.lane (laneKey u l)).st = .basting) :
    exec (.sliceComplete u l pass ok) s = .next (stateOf s (s.world.testEnd u l pass ok)) := next_of (if_pos basting)

end

theorem lateIf_none {t : TestFor} (test : t = .restart) {f : W} : (if t = .slice ∨ t = .reinit then f else w) = w := by
  rw [test]
  exact if_neg (by decide)

/-- The test of a lane that a restart waits for. -/
theorem logged_testEnd_restart {pass ok : Bool} (test : (w.laneAt u l).test = .restart) :
    Logged w (w.testEnd u l pass ok)
      (basteInfo u l (if pass then 0 else 1) 2 0 (homeCore u l) (if l = patchOf u then 0 else homeSlot u l)) := by
  unfold W.testEnd
  extract_lets x k p w1 recorded ended left retested grown told
  rw [if_pos test]
  have same : w1 = w := lateIf_none test
  have h : Logged w recorded (basteInfo u l (if pass then 0 else 1) 2 0 (homeCore u l) (if l = patchOf u then 0 else homeSlot u l)) := by
    dsimp only [recorded]
    rw [same]
    exact logged_basteRec
  have h1 : SameLog recorded ended := by
    refine .ite (.upd .refl) ?_
    exact SameLog.trans (SameLog.kept (.upd .refl) (kept_raise _ _ _ _ _ _)) sameLog_retestDone
  exact h.trans (h1.trans sameLog_restartStep)

/-- The source that FAILED of a lane is told by (R109). -/
theorem laneSrc_plain {u : UnitId} : Plain (laneSrc u 1) ∧ laneSrc u 1 ≠ laneSrc u 2 := by
  unfold Plain Noted laneSrc
  split <;> omega

theorem quiescent_replied (h : Quiescent s w) (k : Replied w v) : Quiescent s v := by
  obtain ⟨x, y, rfl⟩ := k
  exact ⟨h.fuse, h.chim, h.regs, h.mode, h.srcs, h.due⟩

theorem Quiescent.upd {f : Dev → Dev} (h : Quiescent s w)
    (same : ∀ d, (f d).chim = d.chim ∧ (f d).regs.val = d.regs.val ∧ (f d).sys.mode = d.sys.mode ∧ (f d).flue.srcs = d.flue.srcs := by
      exact fun _ => ⟨rfl, rfl, rfl, rfl⟩) : Quiescent s (w.upd f) := by
  obtain ⟨chim, regs, mode, srcs⟩ := same w.dev
  exact ⟨h.fuse, chim.trans h.chim, regs.trans h.regs, mode.trans h.mode, srcs.trans h.srcs, h.due⟩

/-- A test that fails is recorded, its turn ends, and its command is answered. -/
theorem testRecord_failed (test : (w.laneAt u l).test ≠ .reinit) :
    ∃ info b, Replied ((recording w info).upd fun d => { d with baste := { d.baste with units := b } }) (w.testRecord u l 1) := by
  unfold W.testRecord
  extract_lets t o info w1
  have outcome : o = 1 := if_neg test
  have same : w1 = recording w info := by
    dsimp only [w1]
    rw [outcome]
    exact basteRec_failed (by decide)
  rw [same]
  split
  · exact ⟨info, _, replied_finishAll⟩
  · exact ⟨info, _, .refl⟩

theorem quiescent_testRecord (h : Quiescent s w) (test : (w.laneAt u l).test ≠ .reinit) :
    Quiescent s (w.testRecord u l 1) ∧ (w.testRecord u l 1).dev.clock = w.dev.clock := by
  obtain ⟨info, b, x, y, eq⟩ := testRecord_failed test
  rw [eq]
  exact ⟨.upd (.upd (.upd h)), rfl⟩

theorem laneSrc_there {u : UnitId} : (w.source (laneSrc u 1)).isSome = true := by
  fin_cases u <;> rfl

theorem lanes_kept (h : Kept w v) : v.dev.lanes = w.dev.lanes := congrArg (fun d => d.lanes) h.1

theorem laneAt_of_lanes (h : v.dev.lanes = w.dev.lanes) : v.laneAt u l = w.laneAt u l := by
  rw [W.laneAt, W.laneAt, Dev.lane, Dev.lane, h]

/-- What follows a lane that has become FAILED. -/
theorem failed_follows {u : UnitId} {d0 : Word32} (calm : Quiescent s v) (failed : (v.laneAt u l).st = .failed) :
    let z := ((v.raise (laneSrc u 1) d0 0).retestDone u l).settleLanes u
    (z.laneAt u l).st = .failed ∧ SameLog v z ∧ Detected s (stateOf s z) (laneSrc u 1) d0 0 v.dev.clock.tb := by
  have plain := laneSrc_plain (u := u)
  obtain ⟨row, there, src⟩ := detected_raise (d0 := d0) (d1 := 0) calm plain.1 laneSrc_there
  rw [stateOf_dev] at src
  have kept := kept_raise v (laneSrc u 1) d0 0 false []
  have state : ((v.raise (laneSrc u 1) d0 0).laneAt u l).st = .failed := by rw [laneAt_of_lanes (lanes_kept kept)]; exact failed
  have noted : ∀ e ∈ (v.raise (laneSrc u 1) d0 0).due, Noted e.1 :=
    noted_raise plain.1 fun e mem => absurd (calm.due ▸ mem) List.not_mem_nil
  have log : SameLog v (v.raise (laneSrc u 1) d0 0) := SameLog.refl.kept kept
  generalize v.raise (laneSrc u 1) d0 0 = y at *
  have first : Settles u l (laneSrc u 1) y (y.retestDone u l) := settles_retestDone
  have rest : Settles u l (laneSrc u 1) (y.retestDone u l) ((y.retestDone u l).settleLanes u) :=
    settles_settleLanes plain.1 plain.2
  have idle : l ∉ ((y.retestDone u l).dev.laneUnit u).retestDue := retestDone_notDue (by rw [state]; decide) (by rw [state]; decide)
  have still : ((y.retestDone u l).laneAt u l).st = .failed := by
    have moves := first.moves
    have unit : (y.retestDone u l).dev.lanes = y.dev.lanes := by
      dsimp only [W.retestDone]
      split
      · rfl
      · exact (lanes_steady (steady_finishAll _ _ _ _ _) :)
    rw [laneAt_of_lanes unit]
    exact state
  refine ⟨?_, log.trans (first.log.trans rest.log), row, there, ?_⟩
  · have moves := rest.moves
    rw [still] at moves
    unfold LaneMoves at moves
    grind
  · exact (((first.trans rest).src noted).1).trans src

/-- The test of a lane that fails (R100, R328). -/
theorem testEnd_fails {u : UnitId} {l : LaneNo} {ok : Bool} (test : (s.world.laneAt u l).test ≠ .restart)
    (full : (s.world.laneAt u l).test ≠ .reinit) :
    let z := s.world.testEnd u l false ok
    (z.laneAt u l).st = .failed ∧
    Logged s.world z (basteInfo u l 1 (s.world.laneAt u l).test.kind 0 (homeCore u l) (if l.val = patchOf u then 0 else homeSlot u l)) ∧
    Detected s (stateOf s z) (laneSrc u 1) (fenceWord l (homeCore u l) 3 0) 0 s.dev.clock.tb := by
  unfold W.testEnd
  extract_lets x k p w1 recorded ended left retested grown told z
  have failing : false = false ∧ x.test ≠ .reinit := ⟨rfl, full⟩
  have start : Quiescent s w1 ∧ SameLog s.world w1 ∧ w1.dev.lanes = s.world.dev.lanes ∧ w1.dev.clock = s.world.dev.clock := by
    dsimp only [w1]
    split
    · exact ⟨.upd quiescent_world, .upd .refl, rfl, rfl⟩
    · exact ⟨quiescent_world, .refl, rfl, rfl⟩
  obtain ⟨calm, log, lanes, clock⟩ := start
  have lane : w1.laneAt u l = s.world.laneAt u l := laneAt_of_lanes lanes
  have record : Logged w1 left (basteInfo u l 1 (s.world.laneAt u l).test.kind 0 (homeCore u l)
      (if l.val = patchOf u then 0 else homeSlot u l)) := by
    have one := logged_testRecord (w := w1) (u := u) (l := l) (o := 1)
    rw [lane, if_neg full] at one
    exact one
  obtain ⟨calmed, tb⟩ := quiescent_testRecord (u := u) (l := l) calm (by rw [lane]; exact full)
  have follows := failed_follows (v := left.onLane u l fun x => { x with st := .failed, wasFailed := false })
    (u := u) (l := l) (d0 := fenceWord l k 3 0) (.upd calmed) (congrArg Lane.st (lane_onLane_self left.dev (laneKey u l) _))
  have same : z = (retested.retestDone u l).settleLanes u := (if_neg test).trans (if_pos failing)
  rw [same]
  obtain ⟨failed, rest, detected⟩ := follows
  refine ⟨failed, (log.logged clock record).trans (.trans (.upd .refl) rest), ?_⟩
  have now : left.dev.clock.tb = s.dev.clock.tb := by rw [tb, clock]; rfl
  exact now ▸ detected

/-- What follows a lane that has left its test well. -/
theorem passed_follows {z : W} (eq : z = (v.retestDone u l).settleLanes u) :
    (z.laneAt u l).fences = (v.laneAt u l).fences ∧ SameLog v z ∧
    ((v.laneAt u l).st = .rejoining → (z.laneAt u l).st = .rejoining) ∧
    ((v.laneAt u l).st ≠ .active → (z.laneAt u l).st ≠ .active) ∧
    ((v.laneAt u l).st = .spare → (z.laneAt u l).st = .spare ∨ (z.laneAt u l).st = .rejoining) := by
  have follows : Settles u l 0 v z := by
    rw [eq]
    exact settles_retestDone.trans (settles_settleLanes plain_zero (by unfold laneSrc; split <;> omega))
  obtain ⟨fences, moves, -, log, -⟩ := follows
  unfold LaneMoves at moves
  refine ⟨fences, log, fun st => ?_, fun st => ?_, fun st => ?_⟩ <;> grind

/-- A lane that rejoins. -/
theorem rejoin_lane {i : Nat} : (((w.rejoin u k l i).laneAt u l).st = .rejoining ∧
    ((w.rejoin u k l i).laneAt u l).fences = (w.laneAt u l).fences) ∧ SameLog w (w.rejoin u k l i) := by
  unfold W.rejoin
  extract_lets w1
  have lane : w1.laneAt u l = { w.laneAt u l with
      st := .rejoining, test := if l = patchOf u then .reinit else (w.laneAt u l).test } := lane_onLane_self _ _ _
  have log : SameLog w w1 := .upd .refl
  split
  · exact ⟨⟨(congrArg Lane.st lane :), (congrArg Lane.fences lane :)⟩, log.trans (.upd .refl)⟩
  · refine ⟨?_, log.steady steady_stall⟩
    rw [laneAt_of_lanes (lanes_steady steady_stall), lane]
    exact ⟨rfl, rfl⟩

/-- A test that passes, or a re-initialisation (R100, R328, R329). -/
theorem testEnd_passes {pass ok : Bool} (test : (w.laneAt u l).test ≠ .restart) (good : (w.laneAt u l).test = .reinit ∨ pass = true) :
    let z := w.testEnd u l pass ok
    let x := w.laneAt u l
    let info (slot : Nat) := basteInfo u l (if x.test = .reinit then 2 else 0) x.test.kind 0 (homeCore u l) slot
    (z.laneAt u l).fences = (if x.wasFailed then [] else x.fences) ∧
    (if l = patchOf u then ((z.laneAt u l).st = .spare ∨ (z.laneAt u l).st = .rejoining) ∧ Logged w z (info 0)
     else if (w.dev.seam (homeCore u l)).mode = .halted then Logged w z (info (homeSlot u l)) ∧ (z.laneAt u l).st ≠ .active
     else (z.laneAt u l).st = .rejoining ∧ SameLog w z) := by
  unfold W.testEnd
  extract_lets x k p w1 recorded ended left retested grown told z info
  have passing : ¬ (pass = false ∧ x.test ≠ .reinit) := by
    rintro ⟨fail, other⟩
    rcases good with full | pass
    · exact other full
    · exact Bool.false_ne_true (fail.symm.trans pass)
  have same : z = (told.retestDone u l).settleLanes u := (if_neg test).trans (if_neg passing)
  have start : SameLog w w1 ∧ w1.dev.lanes = w.dev.lanes ∧ w1.dev.clock = w.dev.clock ∧ w1.dev.seams = w.dev.seams := by
    dsimp only [w1]
    split
    · exact ⟨.upd .refl, rfl, rfl, rfl⟩
    · exact ⟨.refl, rfl, rfl, rfl⟩
  obtain ⟨log, lanes, clock, seams⟩ := start
  have lane : grown.laneAt u l = { x with fences := if x.wasFailed then [] else x.fences, wasFailed := false } := by
    have same : w1.laneAt u l = x := laneAt_of_lanes lanes
    rw [← same]
    exact lane_onLane_self w1.dev (laneKey u l) _
  have seam : (grown.dev.seam k).mode = (w.dev.seam k).mode := congrArg (fun t : Tbl Seam => (t.getD k {}).mode) seams
  have grew : SameLog w grown := log.trans (.upd .refl)
  have clock' : grown.dev.clock = w.dev.clock := clock
  have record : Logged w (grown.testRecord u l 0) (info (if l = p then 0 else homeSlot u l)) := by
    have one := logged_testRecord (w := grown) (u := u) (l := l) (o := 0)
    rw [lane] at one
    exact grew.logged clock' one
  have fenced (st : LaneSt) : ((grown.testRecord u l 0).laneTo u l st).laneAt u l =
      { x with st := st, fences := if x.wasFailed then [] else x.fences, wasFailed := false } := by
    have one : ((grown.testRecord u l 0).laneTo u l st).laneAt u l = { (grown.testRecord u l 0).laneAt u l with st := st } :=
      lane_onLane_self _ _ _
    rw [one, laneAt_testRecord, lane]
  obtain ⟨fences, after, rejoins, never, spares⟩ := passed_follows same
  rw [fences]
  by_cases patch : l = p
  · have toldEq : told = (grown.testRecord u l 0).laneTo u l .spare := if_pos patch
    rw [if_pos patch] at record ⊢
    have lane' : told.laneAt u l = { x with st := .spare, fences := if x.wasFailed then [] else x.fences, wasFailed := false } :=
      toldEq ▸ fenced .spare
    have log' : SameLog (grown.testRecord u l 0) told := toldEq ▸ .upd .refl
    exact ⟨congrArg Lane.fences lane', spares (congrArg Lane.st lane'), (record.trans log').trans after⟩
  · by_cases halted : (w.dev.seam k).mode = .halted
    · have toldEq : told = (grown.testRecord u l 0).laneTo u l .fenced := (if_neg patch).trans (if_pos (seam.trans halted))
      rw [if_neg patch] at record ⊢
      rw [if_pos halted]
      have lane' : told.laneAt u l = { x with st := .fenced, fences := if x.wasFailed then [] else x.fences, wasFailed := false } :=
        toldEq ▸ fenced .fenced
      have log' : SameLog (grown.testRecord u l 0) told := toldEq ▸ .upd .refl
      have idle : (told.laneAt u l).st ≠ .active := fun st => LaneSt.noConfusion ((congrArg Lane.st lane').symm.trans st)
      exact ⟨congrArg Lane.fences lane', (record.trans log').trans after, never idle⟩
    · have toldEq : told = grown.rejoin u k l (homeSlot u l) := (if_neg patch).trans (if_neg (seam ▸ halted))
      obtain ⟨⟨st, fencesEq⟩, rejoinLog⟩ := rejoin_lane (w := grown) (u := u) (k := k) (l := l) (i := homeSlot u l)
      rw [if_neg patch, if_neg halted]
      rw [← toldEq] at st fencesEq rejoinLog
      exact ⟨fencesEq.trans (congrArg Lane.fences lane), rejoins st, (grew.trans rejoinLog).trans after⟩

end Sys2Proof.Proofs
end

section
/-! The ends of slices of a bellows and of start-up tests, and BASTE_OVERDUE (R332 to R337). -/

namespace Sys2Proof.Proofs

open Machine Laws

set_option Elab.async false

variable {s : State} {w v : W} {u l k n h : Nat}

/-! The register of a source stands through an event. -/

theorem get?_keep {α : Type} {t : Tbl α} {p : Nat → Bool} {a : Nat} (ok : p a = true) : (t.keep p).get? a = t.get? a := by
  unfold Tbl.keep Tbl.get?
  rw [List.find?_filter]
  refine congrArg (Option.map _) (List.find?_congr fun r _ => ?_)
  by_cases own : r.1 = a
  · simp [own, ok]
  · simp [own]

/-- The configuration word of a source is no register that an event may change. -/
theorem srcCfg_kept (h : Kept w v) (low : n < 0x1000) : v.srcCfg n = w.srcCfg n := by
  have kept := h
  obtain ⟨dev, fuse⟩ := h
  have plain : errReg (blockBase 2 0 + (0x1000 + 4 * n)) = false := by
    rw [errReg, Bool.or_eq_false_iff, List.any_eq_false, List.any_eq_false]
    refine ⟨fun u mem => ?_, fun o mem => ?_⟩
    · rw [Bool.not_eq_true, List.any_eq_false]
      intro o mem'
      rw [List.mem_range] at mem
      simp only [List.mem_cons, List.not_mem_nil, or_false] at mem'
      rw [beq_iff_eq, blockBase_two]
      have low : (if u < 16 then blockBase 16 u else blockBase 1 0) = 0x20000000 ∨
          0x20100000 ≤ (if u < 16 then blockBase 16 u else blockBase 1 0) := by
        split
        · exact .inr (by simp [blockBase])
        · exact .inl rfl
      omega
    · simp only [List.mem_cons, List.not_mem_nil, or_false] at mem
      rw [beq_iff_eq, blockBase_two, blockBase_eight]
      omega
  have ok : (fun a => !errReg a) (blockBase 2 0 + (0x1000 + 4 * n)) = true := by
    show (!errReg _) = true
    rw [plain]
    rfl
  have value : v.dev.regs.val.get? (blockBase 2 0 + (0x1000 + 4 * n)) = w.dev.regs.val.get? (blockBase 2 0 + (0x1000 + 4 * n)) := by
    have same : v.dev.regs.val.keep (fun a => !errReg a) = w.dev.regs.val.keep fun a => !errReg a := congrArg (fun d => d.regs.val) dev
    exact (get?_keep (p := fun a => !errReg a) ok).symm.trans ((congrArg (fun t : Tbl Word32 => t.get? _) same).trans
      (get?_keep (p := fun a => !errReg a) ok))
  have row : v.regRow 2 (0x1000 + 4 * n) = w.regRow 2 (0x1000 + 4 * n) := by
    unfold W.regRow
    dsimp only
    rw [source_kept kept, show v.dev.chim.pos = w.dev.chim.pos from congrArg (fun d => d.chim.pos) dev]
  rw [W.srcCfg, W.srcCfg, W.reg, W.reg, W.regReset, W.regReset, row, Tbl.getD, Tbl.getD, value]

/-- An event that is detected where the device stands as it did, but for what no event reads. -/
theorem detected_of {n : Nat} {d0 d1 : Word32} (source : v.source n = s.world.source n) (cfg : v.srcCfg n = s.world.srcCfg n)
    (mode : v.dev.sys.mode = s.dev.sys.mode) (src : v.dev.src n = s.dev.src n) (due : v.due = []) (plain : Plain n)
    (there : (s.world.source n).isSome = true) : Detected s (stateOf s (v.raise n d0 d1)) n d0 d1 v.dev.clock.tb := by
  obtain ⟨row, found⟩ := Option.isSome_iff_exists.mp there
  obtain ⟨pool, fell, noted⟩ := plain
  refine ⟨row, found, ?_⟩
  rw [stateOf_dev, src_raise v n d0 d1 false [] row (source.trans found) pool fell noted due, src]
  have sev : v.sev n = s.world.sev n := by rw [W.sev, W.sev, cfg]
  have mask : v.mask n = s.world.mask n := by rw [W.mask, W.mask, cfg]
  rw [W.eventRec, sev, mask, mode]
  rfl

/-! A change of lanes or seams one by one. -/

theorem lane_fold {n : Nat} {K : Nat → Nat} {f : Nat → Lane → Lane} {d : Dev} (inj : ∀ i j, K i = K j → i = j) (j : Nat) :
    ((List.range n).foldl (fun d l => d.onLane (K l) (f l)) d).lane (K j) = if j < n then f j (d.lane (K j)) else d.lane (K j) := by
  induction n with
  | zero => rfl
  | succ n ih =>
    rw [List.range_succ, List.foldl_append, List.foldl_cons, List.foldl_nil]
    by_cases own : j = n
    · subst own
      rw [lane_onLane_self, ih, if_neg (by omega), if_pos (by omega)]
    · rw [lane_onLane_ne _ _ _ _ fun same => own (inj _ _ same), ih]
      exact if_congr (by omega) rfl rfl

/-! What stops a bellows (R234, R332). -/

theorem steady_hobWriteParts {u k : Nat} {ps : List (Nat × List Byte)} : Steady w (w.hobWriteParts u k ps) := by
  have awake : Steady w ((w.wakeHob u).granted u k) :=
    (Steady.ite (p := (w.dev.hob u).power = .awake) (Steady.refl w) (Steady.upd _ _ rfl)).trans (Steady.upd _ _ rfl)
  exact (awake.trans (Steady.each _ _ (fun _ _ => steady_put _ _ _) _)).trans (steady_hobInjected _ _ _ _)

theorem steady_flushParams : Steady w (w.flushParams h) := by
  unfold W.flushParams
  extract_lets ps wrote emptied
  have h1 : Steady w wrote := Steady.each _ _ (fun _ _ => Steady.each _ _ (fun _ _ => steady_hobWriteParts) _) _
  have h2 : Steady wrote emptied := Steady.upd _ _ rfl
  exact ((h1.trans h2).trans (steady_finishAll _ _ _ _ _)).trans (steady_finishAll _ _ _ _ _)

theorem steady_takeBank : Steady w (w.takeBank h) := by
  unfold W.takeBank
  exact Steady.trans (Steady.upd _ _ rfl) (steady_finishAll _ _ _ _ _)

theorem steady_stopOne : Steady w (w.stopOne h) := by
  unfold W.stopOne
  extract_lets stopped
  have h1 : Steady w stopped := Steady.upd _ _ rfl
  exact (h1.trans steady_flushParams).trans steady_takeBank

theorem blw_fixed (h : Fixed w v) {k : Nat} : v.dev.blw k = w.dev.blw k := by
  obtain ⟨same, -⟩ := h
  simp only [fixed, Prod.mk.injEq] at same
  rw [Dev.blw, Dev.blw, same.2.2.2.1]

theorem blw_flushParams : (w.flushParams h).dev.blw h = { w.dev.blw h with params := [] } := by
  unfold W.flushParams
  extract_lets ps wrote emptied
  have h1 : wrote.dev.blw h = w.dev.blw h := blw_fixed (Fixed.refl.each fun _ _ => .each .refl fun _ _ => fixed_hobWriteParts)
  have h2 : emptied.dev.blw h = { wrote.dev.blw h with params := [] } := blw_onBlw_self _ _ _
  rw [blw_fixed (fixed_finishAll.trans fixed_finishAll), h2, h1]

theorem blw_takeBank : (w.takeBank h).dev.blw h = { w.dev.blw h with bankB := bitAt (w.hreg h 0x600) 0 } := by
  unfold W.takeBank
  rw [blw_fixed fixed_finishAll]
  exact blw_onBlw_self _ _ _

/-- What a stop leaves of the bellows. -/
theorem blw_stopOne : ((w.stopOne h).dev.blw h).phase = .stopped ∧ ((w.stopOne h).dev.blw h).all = true ∧
    ((w.stopOne h).dev.blw h).basteFail = (w.dev.blw h).basteFail := by
  unfold W.stopOne
  extract_lets stopped
  have h1 : stopped.dev.blw h = { w.dev.blw h with
      phase := .stopped, expert := false, todo := [], waitIn := false, all := true, basting := false, use := ⟨[]⟩,
      chans := ⟨(w.dev.blw h).chans.rows.map fun r => (r.1, { r.2 with running := false })⟩ } := blw_onBlw_self _ _ _
  rw [blw_takeBank, blw_flushParams, h1]
  exact ⟨rfl, rfl, rfl⟩

/-! BELLOWS_SLICE_COMPLETE (R332, R337). -/

theorem hearthSrc_plain {h : HearthId} : Plain (0xD0 + h.val) ∧ (w.source (0xD0 + h.val)).isSome = true := by
  constructor
  · have := h.isLt
    unfold Plain Noted
    omega
  · fin_cases h <;> rfl

/-- The bellows when its slice has ended. -/
def sliceOver (w : W) (h : Nat) (pass : Bool) : W :=
  w.upd fun d => (d.onBu h fun b => { b with segs := none, segsDone := b.segs.getD 0 - (if pass then 0 else (d.blw h).basting.toNat) }).onBlw h fun b =>
    { b with basting := false }

theorem sliceOver_bu {pass : Bool} : (sliceOver w h pass).dev.bu h = { w.dev.bu h with
    segs := none, segsDone := (w.dev.bu h).segs.getD 0 - (if pass then 0 else (w.dev.blw h).basting.toNat) } := by
  exact bu_onBu_self w.dev h fun b => { b with
    segs := none, segsDone := b.segs.getD 0 - (if pass then 0 else (w.dev.blw h).basting.toNat) }

theorem sliceOver_blw {pass : Bool} : (sliceOver w h pass).dev.blw h = { w.dev.blw h with basting := false } := blw_onBlw_self _ _ _

theorem basteRec_keeps {o : Nat} {info : Word32} : (w.basteRec u l o info).dev.bellows = w.dev.bellows ∧
    ∀ k, ((w.basteRec u l o info).dev.bu k).segs = (w.dev.bu k).segs ∧ ((w.basteRec u l o info).dev.bu k).segsDone = (w.dev.bu k).segsDone := by
  have passed (k : Nat) : ((w.dev.onBu u fun b => { b with overdue := b.overdue.filter (· != l), passed := b.passed.set l w.dev.baste.time }).bu k).segs =
      (w.dev.bu k).segs ∧ ((w.dev.onBu u fun b => { b with overdue := b.overdue.filter (· != l), passed := b.passed.set l w.dev.baste.time }).bu k).segsDone =
      (w.dev.bu k).segsDone := by
    by_cases own : k = u
    · subst own
      rw [bu_onBu_self]
      exact ⟨rfl, rfl⟩
    · rw [bu_onBu_ne _ _ _ _ own]
      exact ⟨rfl, rfl⟩
  unfold W.basteRec
  extract_lets recorded cleared
  split
  · have h1 : cleared.dev.bellows = w.dev.bellows := rfl
    have h2 (k : Nat) : (cleared.dev.bu k).segs = (w.dev.bu k).segs ∧ (cleared.dev.bu k).segsDone = (w.dev.bu k).segsDone := passed k
    split
    · have baste : (cleared.inactive 0x0F0).dev.baste = cleared.dev.baste := congrArg (fun d => d.baste) kept_inactive.1
      have bellows : (cleared.inactive 0x0F0).dev.bellows = cleared.dev.bellows := by
        obtain ⟨same, -⟩ := fixed_errAuto (w := cleared.upd fun d => d.onSrc 0x0F0 fun x => { x with active := false })
        simp only [fixed, Prod.mk.injEq] at same
        exact same.2.2.2.1
      refine ⟨bellows.trans h1, fun k => ?_⟩
      rw [Dev.bu, baste]
      exact h2 k
    · exact ⟨h1, h2⟩
  · exact ⟨rfl, fun _ => ⟨rfl, rfl⟩⟩

theorem bellowsSlice_passes {h : HearthId} (segs : (s.dev.bu h).segs = some 120) :
    Answers (.bellowsSliceComplete h true) s fun t => (t.dev.bu h).segs = none ∧ (t.dev.bu h).segsDone = 120 ∧ (t.dev.blw h).basting = false ∧
      t.dev.baste.results = ({ time := s.dev.clock.tb, info := basteInfo h 13 0 0 0 64 0, rseq := s.dev.baste.rseq } ::
        s.dev.baste.results).take 64 ∧ t.dev.baste.rseq = s.dev.baste.rseq + 1 := by
  have ends : ((true = true ∧ (s.dev.bu h).segs = some 120) ∨ (true = false ∧ (s.dev.bu h).segs.isSome = true)) := .inl ⟨rfl, segs⟩
  have row : exec (.bellowsSliceComplete h true) s =
      .next (stateOf s ((sliceOver s.world h true).basteRec h 13 0 (basteInfo h 13 0 0 0 64 0))) := next_of ((if_pos ends).trans (if_pos rfl))
  obtain ⟨bellows, bus⟩ := basteRec_keeps (w := sliceOver s.world h true) (u := h) (l := 13) (o := 0) (info := basteInfo h 13 0 0 0 64 0)
  obtain ⟨none_, done⟩ := bus h
  obtain ⟨results, rseq⟩ := logged_basteRec (w := sliceOver s.world h true) (u := h) (l := 13) (o := 0) (info := basteInfo h 13 0 0 0 64 0)
  refine ⟨_, row, ?_, ?_, ?_, results, rseq⟩
  · rw [stateOf_dev, none_, sliceOver_bu]
  · rw [stateOf_dev, done, sliceOver_bu]
    show (s.dev.bu h).segs.getD 0 - 0 = 120
    rw [segs]
    rfl
  · rw [stateOf_dev, Dev.blw, bellows]
    exact congrArg Bellows.basting sliceOver_blw

/-- `w` with other tests and bellows. -/
def besideTests (w : W) (x : Baste) (y : Tbl Bellows) : W := w.upd fun d => { d with baste := x, bellows := y }

theorem besideTests_stands {x : Baste} {y : Tbl Bellows} :
    let v := besideTests w x y
    (∀ n, v.source n = w.source n) ∧ (∀ n, v.srcCfg n = w.srcCfg n) ∧ v.dev.sys = w.dev.sys ∧ v.dev.clock = w.dev.clock ∧
      (∀ n, v.dev.src n = w.dev.src n) ∧ v.due = w.due :=
  ⟨fun _ => rfl, fun _ => reg_congr (w := w) (w' := besideTests w x y) rfl rfl _ _ _ fun _ => rfl, rfl, rfl, fun _ => rfl, rfl⟩

/-- No transition is made between `w` and `v`, no time passes, and no event begins to wait. -/
def SameTime (w v : W) : Prop := v.dev.sys = w.dev.sys ∧ v.dev.clock = w.dev.clock ∧ v.due = w.due

theorem SameTime.trans {a b c : W} (h : SameTime a b) (k : SameTime b c) : SameTime a c := by
  obtain ⟨sys, clock, due⟩ := h
  obtain ⟨sys', clock', due'⟩ := k
  exact ⟨sys'.trans sys, clock'.trans clock, due'.trans due⟩

theorem Fixed.time (h : Fixed w v) : SameTime w v := by
  obtain ⟨same, due⟩ := h
  simp only [fixed, Prod.mk.injEq] at same
  exact ⟨same.1, same.2.1, due⟩

theorem sameTime_flushParams : SameTime w (w.flushParams h) := by
  unfold W.flushParams
  extract_lets ps wrote emptied
  have h1 : SameTime w wrote := Fixed.time (Fixed.refl.each fun _ _ => .each .refl fun _ _ => fixed_hobWriteParts)
  have h2 : SameTime wrote emptied := ⟨rfl, rfl, rfl⟩
  exact (h1.trans h2).trans (fixed_finishAll.trans fixed_finishAll).time

theorem sameTime_takeBank : SameTime w (w.takeBank h) := by
  unfold W.takeBank
  exact SameTime.trans ⟨rfl, rfl, rfl⟩ fixed_finishAll.time

theorem sameTime_stopOne : SameTime w (w.stopOne h) := by
  unfold W.stopOne
  extract_lets stopped
  have h1 : SameTime w stopped := ⟨rfl, rfl, rfl⟩
  exact (h1.trans sameTime_flushParams).trans sameTime_takeBank

/-- A slice of a bellows that fails stops it and is recorded (R332, R337). -/
theorem bellowsSlice_fails {h : HearthId} (segs : (s.dev.bu h).segs.isSome = true) :
    Answers (.bellowsSliceComplete h false) s fun t =>
      (t.dev.baste.results = ({ time := s.dev.clock.tb, info := basteInfo h 13 1 0 0 64 0, rseq := s.dev.baste.rseq } ::
        s.dev.baste.results).take 64 ∧ t.dev.baste.rseq = s.dev.baste.rseq + 1) ∧
      Detected s t (0xD0 + h.val) (basteInfo h 13 1 0 0 64 0) 0 s.dev.clock.tb ∧
      ∃ v : W, t = stateOf s (v.raise (0xD0 + h.val) (basteInfo h 13 1 0 0 64 0) 0) ∧ (v.dev.blw h).phase = .stopped ∧
        (v.dev.blw h).basteFail = true ∧ (v.dev.blw h).all = true := by
  have ends : ((false = true ∧ (s.dev.bu h).segs = some 120) ∨ (false = false ∧ (s.dev.bu h).segs.isSome = true)) := .inr ⟨rfl, segs⟩
  have row : exec (.bellowsSliceComplete h false) s = .next (stateOf s (((((sliceOver s.world h false).basteRec h 13 1
      (basteInfo h 13 1 0 0 64 0)).upd fun d => d.onBlw h fun b => { b with basteFail := true }).stopOne h).raise
      (0xD0 + h.val) (basteInfo h 13 1 0 0 64 0) 0)) := next_of ((if_pos ends).trans (if_neg (by decide)))
  rw [basteRec_failed (by decide)] at row
  obtain ⟨plain, there⟩ := hearthSrc_plain (w := s.world) (h := h)
  have log : Logged s.world (recording (sliceOver s.world h false) (basteInfo h 13 1 0 0 64 0)) (basteInfo h 13 1 0 0 64 0) := ⟨rfl, rfl⟩
  obtain ⟨x, y, eq⟩ : ∃ x y, recording (sliceOver s.world h false) (basteInfo h 13 1 0 0 64 0) = besideTests s.world x y := ⟨_, _, rfl⟩
  rw [eq] at row log
  obtain ⟨v, reached, fail, log'⟩ : ∃ v, v = ((besideTests s.world x y).upd fun d => d.onBlw h fun b => { b with basteFail := true }) ∧
      (v.dev.blw h).basteFail = true ∧ SameLog (besideTests s.world x y) v :=
    ⟨_, rfl, congrArg Bellows.basteFail (blw_onBlw_self _ _ _), .upd .refl⟩
  obtain ⟨x', y', beside⟩ : ∃ x y, v = besideTests s.world x y := ⟨_, _, reached⟩
  obtain ⟨source, cfg, sys, clock, src, due⟩ := besideTests_stands (w := s.world) (x := x') (y := y')
  rw [← beside] at source cfg sys clock src due
  rw [← reached] at row
  obtain ⟨phase, all, failed⟩ := blw_stopOne (w := v) (h := h)
  have still : Steady v (v.stopOne h) := steady_stopOne
  obtain ⟨sys', clock', due'⟩ := sameTime_stopOne (w := v) (h := h)
  have low : 0xD0 + h.val < 0x1000 := by have := h.isLt; omega
  have detected := detected_of (s := s) (v := v.stopOne h) (n := 0xD0 + h.val) (d0 := basteInfo h 13 1 0 0 64 0) (d1 := 0)
    ((source_kept still.kept _).trans (source _)) ((srcCfg_kept still.kept low).trans (cfg _))
    (congrArg Sys.mode (sys'.trans sys)) ((steady_src still _).trans (src _)) (due'.trans due) plain there
  rw [show (v.stopOne h).dev.clock.tb = s.dev.clock.tb from congrArg Clock.tb (clock'.trans clock)] at detected
  have logged : Logged s.world ((v.stopOne h).raise (0xD0 + h.val) (basteInfo h 13 1 0 0 64 0) 0) (basteInfo h 13 1 0 0 64 0) :=
    log.trans ((log'.steady still).kept (kept_raise _ _ _ _ _ _))
  exact ⟨_, row, logged, detected, v.stopOne h, rfl, phase, failed.trans fail, all⟩

end Sys2Proof.Proofs
end

section
/-! BASTE_OVERDUE and the start-up test of a hearth (R334 to R336). -/

namespace Sys2Proof.Proofs

open Machine Laws

set_option Elab.async false

variable {s : State} {w v : W} {u l k n h : Nat}

/-! BASTE_OVERDUE. -/

/-- The unit has the target. -/
def Fits (u : UnitId) (target : Fin 14) : Prop := target.val < lanesOf u ∨ target.val = 13 ∧ u.val < 16

theorem overdue_guard {u : UnitId} {target : Fin 14} :
    ((decide (target.val < lanesOf u) || (decide (target.val = 13) && decide (u.val < 16))) && s.dev.sys.mode.bastes &&
      !(s.dev.bu u).overdue.contains target.val) = true ↔
    Fits u target ∧ s.dev.sys.mode.bastes = true ∧ (s.dev.bu u).overdue.contains target.val = false := by
  simp [Fits, and_assoc]

/-- The device when the limit of a target has passed. -/
def overdueDev (s : State) (u target : Nat) (d : Dev) : Dev :=
  (d.advance (s.world.overdueIn u target)).onBu u fun b => { b with overdue := b.overdue ++ [target] }

theorem basteOverdue_told {u : UnitId} {target : Fin 14}
    (h : Fits u target ∧ s.dev.sys.mode.bastes = true ∧ (s.dev.bu u).overdue.contains target.val = false) :
    Answers (.basteOverdue u target) s fun t => LevelDetected s t 0x0F0 (basteInfo u target 0 0 0 64 0) 0 t.dev.clock.tb ∧
      Beside s t (overdueDev s u target) := by
  have row : exec (.basteOverdue u target) s =
      .next (stateOf s ((s.world.upd (overdueDev s u target)).level 0x0F0 (basteInfo u target 0 0 0 64 0) 0)) :=
    next_of (if_pos (overdue_guard.mpr h))
  have calm : Quiescent s (s.world.upd (overdueDev s u target)) := .upd quiescent_world
  have told := levelDetected_level (n := 0x0F0) (d0 := basteInfo u target 0 0 0 64 0) (d1 := 0) calm (by unfold Plain Noted; decide) rfl
  have kept : Kept (s.world.upd (overdueDev s u target)) ((s.world.upd (overdueDev s u target)).level 0x0F0 (basteInfo u target 0 0 0 64 0) 0) :=
    kept_level
  have clock : ((s.world.upd (overdueDev s u target)).level 0x0F0 (basteInfo u target 0 0 0 64 0) 0).dev.clock =
      (s.world.upd (overdueDev s u target)).dev.clock := congrArg (fun d => d.clock) kept.1
  rw [← clock] at told
  exact ⟨_, row, told, beside_of_kept kept rfl⟩

theorem basteOverdue_still {u : UnitId} {target : Fin 14}
    (h : ¬ (Fits u target ∧ s.dev.sys.mode.bastes = true ∧ (s.dev.bu u).overdue.contains target.val = false)) :
    Answers (.basteOverdue u target) s (Only s · id) :=
  ⟨_, next_of (if_neg (mt overdue_guard.mp h)), rfl⟩

theorem units_advance {d : Dev} {dt : Nat} : (d.advance dt).baste.units = d.baste.units ∧ ((d.advance dt).bu u).overdue = (d.bu u).overdue := by
  have same : (d.advance dt).baste.units = d.baste.units := by
    show (if d.sys.mode.bastes then { d.baste with time := d.baste.time + w64 dt } else d.baste).units = _
    split <;> rfl
  exact ⟨same, by rw [Dev.bu, Dev.bu, same]⟩

theorem overdue_active {t : State} {d0 d1 : Word32} {tb : Word64} (h : LevelDetected s t 0x0F0 d0 d1 tb) : t.world.active 0x0F0 = true := by
  unfold LevelDetected at h
  split at h
  · next on =>
    have src : t.world.dev.src 0x0F0 = s.world.dev.src 0x0F0 := h
    rw [W.active, src]
    exact on
  · obtain ⟨row, found, src⟩ := h
    have level : row.level = true := by
      obtain rfl := Option.some.inj found
      rfl
    rw [W.active, show t.world.dev.src 0x0F0 = t.dev.src 0x0F0 from rfl, src, level]
    unfold Src.after
    dsimp only
    split <;> rfl

/-! The start-up test (R334, R335): the lanes. -/

theorem laneKey_unit {a b : Nat} : laneKey h a = laneKey h b → a = b := by
  unfold laneKey
  split <;> omega

/-- The lanes, the hearths tested and the hearths available are the same. -/
def SameTests (w v : W) : Prop :=
  v.dev.lanes = w.dev.lanes ∧ v.dev.sys.tested = w.dev.sys.tested ∧ v.dev.sys.avail = w.dev.sys.avail ∧
    v.dev.sys.stepsDone = w.dev.sys.stepsDone

theorem SameTests.refl : SameTests w w := ⟨rfl, rfl, rfl, rfl⟩

theorem SameTests.trans {a b c : W} (h : SameTests a b) (k : SameTests b c) : SameTests a c := by
  obtain ⟨lanes, tested, avail, steps⟩ := h
  obtain ⟨lanes', tested', avail', steps'⟩ := k
  exact ⟨lanes'.trans lanes, tested'.trans tested, avail'.trans avail, steps'.trans steps⟩

theorem SameTests.ite {a b c : W} {p : Prop} [Decidable p] (h : SameTests a b) (k : SameTests a c) : SameTests a (if p then b else c) := by
  split <;> assumption

theorem SameTests.upd {a : W} {f : Dev → Dev} (h : SameTests a w)
    (k : ∀ d, (f d).lanes = d.lanes ∧ (f d).sys.tested = d.sys.tested ∧ (f d).sys.avail = d.sys.avail ∧
      (f d).sys.stepsDone = d.sys.stepsDone := by exact fun _ => ⟨rfl, rfl, rfl, rfl⟩) :
    SameTests a (w.upd f) := h.trans (k w.dev)

theorem SameTests.each {α : Type} {a : W} {xs : List α} {f : α → W → W} (h : SameTests a w) (k : ∀ x v, SameTests v (f x v)) :
    SameTests a (w.each xs f) := by
  induction xs generalizing w with
  | nil => exact h
  | cons x xs ih => exact ih (h.trans (k x w))

theorem SameTests.kept {a b : W} (h : SameTests a w) (k : Kept w b) : SameTests a b := by
  obtain ⟨dev, -⟩ := k
  exact h.trans ⟨(congrArg (fun d => d.lanes) dev :), (congrArg (fun d => d.sys.tested) dev :), (congrArg (fun d => d.sys.avail) dev :),
    (congrArg (fun d => d.sys.stepsDone) dev :)⟩

theorem SameTests.raise {a : W} {d0 d1 : Word32} (h : SameTests a w) : SameTests a (w.raise n d0 d1) :=
  h.kept (kept_raise _ _ _ _ _ _)

theorem SameTests.basteRec {a : W} {o : Nat} {info : Word32} (h : SameTests a w) : SameTests a (w.basteRec u l o info) := by
  unfold W.basteRec
  extract_lets recorded cleared
  exact .ite (.ite (.kept (.upd (.upd h)) kept_inactive) (.upd (.upd h))) (.upd h)

theorem SameTests.exhaustCheck {a : W} (h : SameTests a w) : SameTests a (w.exhaustCheck u) := by
  unfold W.exhaustCheck
  split
  · exact .ite (.raise (.upd h)) h
  · exact h

/-! The start-up test (R334, R335): the lanes. -/

theorem keeps_onSeams {n : Nat} {K : Nat → Nat} {f : Nat → Seam → Seam} {d : Dev} :
    let e := (List.range n).foldl (fun d j => d.onSeam (K j) (f j)) d
    e.lanes = d.lanes ∧ e.sys = d.sys := by
  induction n with
  | zero => exact ⟨rfl, rfl⟩
  | succ n ih =>
    rw [List.range_succ, List.foldl_append, List.foldl_cons, List.foldl_nil]
    exact ih

theorem sys_onLanes {n : Nat} {K : Nat → Nat} {f : Nat → Lane → Lane} {d : Dev} :
    ((List.range n).foldl (fun d j => d.onLane (K j) (f j)) d).sys = d.sys := by
  induction n with
  | zero => rfl
  | succ n ih =>
    rw [List.range_succ, List.foldl_append, List.foldl_cons, List.foldl_nil]
    exact ih

/-- The lanes of a hearth that the start-up test has judged, with the patch lane in a core or not. -/
def judged (h : Nat) (ok : Nat → Bool) (patched : Bool) (d : Dev) : Dev :=
  ((List.range 12).foldl (fun d l => d.onLane (laneKey h l) fun x =>
    { x with st := if ok l then .active else .failed, wasFailed := false }) d).onLane (laneKey h 12) fun x =>
    { x with st := if ok 12 then (if patched then .active else .spare) else .failed, wasFailed := false }

theorem judged_home {ok : Nat → Bool} {patched : Bool} {d : Dev} {j : Nat} (low : j < 12) :
    ((judged h ok patched d).lane (laneKey h j)).st = if ok j then .active else .failed := by
  unfold judged
  rw [lane_onLane_ne _ _ _ _ fun same => absurd (laneKey_unit same) (by omega), lane_fold fun _ _ => laneKey_unit, if_pos low]

theorem judged_patch {ok : Nat → Bool} {patched : Bool} {d : Dev} :
    ((judged h ok patched d).lane (laneKey h 12)).st = if ok 12 then (if patched then .active else .spare) else .failed := by
  unfold judged
  rw [lane_onLane_self]

theorem head?_isSome {α : Type} {xs : List α} : xs.head?.isSome = !xs.isEmpty := by cases xs <;> rfl

/-- The slots of the cores of a hearth that the start-up test has judged, core by core. -/
def placed (r : StartupResult) (avail : Bool) (ok : Nat → Bool) (patch : Option Nat) (j : Nat) (s : Seam) : Seam :=
  let at_ := fun (i : Nat) =>
    let l := 3 * j + i
    if ok l then some l else if patch = some l then some 12 else none
  let s := { s with a := at_ 0, b := at_ 1, c := at_ 2, rethread := none, commits := [], requests := [], reported := none,
                    cause := if bitAt r.seams j then 4 else 0, reset := true }
  if avail = false ∨ bitAt r.seams j ∨ s.filled.length < 2 then { s with mode := .halted } else s.voting

/-- The hob of a hearth that the start-up test has judged, and whether the hearth is available. -/
def repaired (h : Nat) (r : StartupResult) (need : Nat) (hobOk avail : Bool) (d : Dev) : Dev :=
  let d := d.onHob h fun x => { x with
    pendRows := x.pendRows.drop x.rowsFree.toNat, failValid := x.failValid && !hobOk,
    rowsFree := x.rowsFree - BitVec.ofNat 6 (min need x.rowsFree.toNat),
    colsFree := x.colsFree - BitVec.ofNat 4 (min r.cols x.colsFree.toNat) }
  { d with sys := { d.sys with avail := setBit d.sys.avail h avail } }

/-- The device that the start-up test of a hearth has judged. -/
def startupDev (h : Nat) (r : StartupResult) (need : Nat) (hobOk avail : Bool) (ok : Nat → Bool) (patch : Option Nat) (d : Dev) : Dev :=
  (List.range 4).foldl (fun d j => d.onSeam (4 * h + j) (placed r avail ok patch j))
    ((judged h ok patch.isSome (repaired h r need hobOk avail d)).onLaneUnit h fun x => { x with waiting := [], retestDue := [] })

theorem lanes_onLaneUnit (d : Dev) {g : LaneUnit → LaneUnit} : (d.onLaneUnit h g).lanes = d.lanes := rfl

theorem sys_onLaneUnit (d : Dev) {g : LaneUnit → LaneUnit} : (d.onLaneUnit h g).sys = d.sys := rfl

theorem sys_onLane (d : Dev) {g : Lane → Lane} : (d.onLane k g).sys = d.sys := rfl

theorem startupDev_keeps {r : StartupResult} {need : Nat} {hobOk avail : Bool} {ok : Nat → Bool} {patch : Option Nat} {d : Dev} :
    (startupDev h r need hobOk avail ok patch d).lanes = (judged h ok patch.isSome (repaired h r need hobOk avail d)).lanes ∧
    (startupDev h r need hobOk avail ok patch d).sys = (repaired h r need hobOk avail d).sys := by
  unfold startupDev
  refine ⟨keeps_onSeams.1.trans (lanes_onLaneUnit _), keeps_onSeams.2.trans ((sys_onLaneUnit _).trans ?_)⟩
  unfold judged
  exact (sys_onLane _).trans sys_onLanes

/-- The lanes and the availability that the start-up test leaves, with the hearths tested. -/
theorem startupTest_leaves {r : StartupResult} :
    let v := w.startupTest h r
    let hobOk := r.hobOk && decide ((w.dev.hob h).pendRows.length + r.rows ≤ (w.dev.hob h).rowsFree.toNat) &&
      decide (r.cols ≤ (w.dev.hob h).colsFree.toNat)
    (∀ j, j < 12 → (v.dev.lane (laneKey h j)).st = if bitAt r.lanes j then .failed else .active) ∧
    ((v.dev.lane (laneKey h 12)).st = if bitAt r.lanes 12 then .failed
      else if ((List.range 12).filter fun l => bitAt r.lanes l).isEmpty then .spare else .active) ∧
    v.dev.sys.avail = setBit w.dev.sys.avail h (hobOk && r.bellowsOk) ∧
    v.dev.sys.tested = w.dev.sys.tested ∧ v.dev.sys.stepsDone = w.dev.sys.stepsDone := by
  unfold W.startupTest
  extract_lets ok hob need hobOk avail failed patch tested recorded counted lanesTold seamsTold hobTold blwTold
  have same : tested = (w.clearHob (hobBase h) (hobSize h)).upd (startupDev h r need hobOk avail ok patch) := rfl
  clear_value tested
  have h1 : SameTests tested recorded := .each .refl fun _ _ => .basteRec .refl
  have h2 : SameTests recorded counted := .upd .refl
  have h3 : SameTests counted lanesTold := .each .refl fun _ _ => .raise .refl
  have h4 : SameTests lanesTold seamsTold := .each .refl fun _ _ => .raise .refl
  have h5 : SameTests seamsTold hobTold := .ite .refl (.raise .refl)
  have h6 : SameTests hobTold blwTold := .ite .refl (.raise (.upd .refl))
  clear_value blwTold
  obtain ⟨lanes, marked, able, steps⟩ : SameTests tested (blwTold.exhaustCheck h) :=
    .exhaustCheck (h1.trans (h2.trans (h3.trans (h4.trans (h5.trans h6)))))
  have spare : patch.isSome = (ok 12 && !((List.range 12).filter fun l => bitAt r.lanes l).isEmpty) := by
    simp only [patch, failed, ok, Bool.not_not]
    split
    · next good => rw [head?_isSome, good, Bool.true_and]
    · next bad => rw [Bool.eq_false_iff.mpr bad]; rfl
  rw [same, upd_dev] at lanes marked able steps
  rw [startupDev_keeps.1] at lanes
  rw [startupDev_keeps.2] at marked able steps
  have lane (j : Nat) : (blwTold.exhaustCheck h).dev.lane (laneKey h j) =
      (judged h ok patch.isSome (repaired h r need hobOk avail (w.clearHob (hobBase h) (hobSize h)).dev)).lane (laneKey h j) := by
    rw [Dev.lane, Dev.lane, lanes]
  refine ⟨fun j low => ?_, ?_, ?_, ?_, ?_⟩
  · rw [lane, judged_home low]
    cases b : bitAt r.lanes j <;> simp [ok, b]
  · rw [lane, judged_patch, spare]
    generalize ((List.range 12).filter fun l => bitAt r.lanes l).isEmpty = none_
    cases b : bitAt r.lanes 12 <;> cases none_ <;> simp [ok, b]
  · exact able
  · exact marked
  · exact steps

theorem bitAt_setBit {n i : Nat} {v : BitVec n} {b : Bool} (low : i < n) : bitAt (setBit v i b) i = b := by
  unfold bitAt setBit
  rw [getLsbD_setFld v b.toNat (by omega) i low, if_pos ⟨le_refl _, Nat.lt_succ_self _⟩]
  cases b <;> simp

/-- The start-up test of a hearth in KINDLE (R334). -/
theorem startupTest_kindle {h : HearthId} {r : StartupResult} (kindle : s.dev.sys.mode = .kindle) (untested : bitAt s.dev.sys.tested h = false)
    (good : s.dev.sys.kindleErr = 0) (three : 3 ∈ s.dev.sys.stepsDone) (four : 4 ∈ s.dev.sys.stepsDone) :
    exec (.startupTestComplete h r) s = .next (stateOf s ((s.world.startupTest h r).upd fun d =>
      let t := setBit d.sys.tested h true
      { d with sys := { d.sys with tested := t, stepsDone := if t = 0xFFFF then 6 :: d.sys.stepsDone else d.sys.stepsDone } })) := by
  refine next_of ((if_pos kindle).trans (if_neg ?_))
  show ¬ (bitAt s.dev.sys.tested h || s.dev.sys.kindleErr != 0 || !([3, 4] : List Nat).all s.dev.sys.stepsDone.contains) = true
  simp [untested, good, three, four]

theorem storeWord_bobbin {p : OpenPkt} {v : Word32} : ∃ b, w.storeWord p v = w.onBob (fun _ => b) ∧ b.queues = w.dev.bobbin.queues :=
  ⟨_, rfl, rfl⟩

/-- The words of a packet change the pool and its open packet alone. -/
theorem storeWords_bobbin {m : Rid} {ws : List Word32} :
    ∃ b, w.storeWords m k ws = w.onBob (fun _ => b) ∧ b.all = w.dev.bobbin.all := by
  induction ws generalizing w with
  | nil => exact ⟨w.dev.bobbin, rfl, rfl⟩
  | cons v vs ih =>
    have stay : ∃ b, w = w.onBob (fun _ => b) ∧ b.all = w.dev.bobbin.all := ⟨w.dev.bobbin, rfl, rfl⟩
    rw [W.storeWords]
    split
    · next p found =>
      split
      · obtain ⟨b, stored, queues⟩ := storeWord_bobbin (w := w) (p := p) (v := v)
        obtain ⟨b', rest, queues'⟩ := ih (w := w.storeWord p v)
        refine ⟨b', rest.trans (by rw [stored]; rfl), queues'.trans ?_⟩
        rw [stored]
        show b.all = _
        unfold Bobbin.all
        rw [queues]
      · exact stay
    · exact stay

/-- Settles O47: each row is the operation that its own part of the development describes. -/
theorem packetAndTestRowsComplete : Obligations.PacketAndTestRowsComplete := by
  intro s m q v vv two u l pass ok h r target p d w k mine admitted ws x
  have one (o : Nat) (may : admitted o) : PageOpen s m q o ∧ FirstOf s.world m ∧ k.broken = false ∧ s.world.grantWaiters = s.world := by
    obtain ⟨on, alone, whole, admits⟩ := may
    exact ⟨⟨on, admits⟩, no_waiter alone, whole, grantWaiters_of_none s.world alone⟩
  have size : 0 < ws.length ∧ ws.length ≤ 2 := by
    dsimp only [ws]
    split <;> exact ⟨Nat.succ_pos _, by simp⟩
  refine ⟨fun may packet free few limit => ?_, fun may pool found short fits => ?_, fun may found closes fits => ?_,
    fun there home stands basting test => ?_, fun segs => ?_, fun kindle untested good three four => ?_, fun fits bastes fresh => ?_⟩
  · obtain ⟨page, first, whole, same⟩ := one _ may
    have taken : s.world.grantWaiters.tryWaiter ⟨m, q, 0x24, [], true⟩ = some (.done, (w.openPkt m q 1 false).poolNote m q 0x24) := by
      rw [same]
      exact tryWaiter_open.trans ((tryPktOpen_good ⟨whole, packet, free⟩).trans (if_pos ⟨few, limit⟩))
    exact ⟨_, page_done rfl page (by decide) first taken, rfl, (opened_one free).1⟩
  · obtain ⟨page, first, whole, same⟩ := one _ may
    have taken : s.world.grantWaiters.tryWaiter ⟨m, q, 0x28, ws, true⟩ = some (.done, w.storeWords m q ws) := by
      rw [same]
      exact tryWaiter_word.trans (tryPktWord_fits found whole short fits)
    obtain ⟨opened, words⟩ := storeWords_stores (w := s.world) (m := m) (k := q) size.1 size.2 found short fits
    obtain ⟨b, stored, queues⟩ := storeWords_bobbin (w := s.world) (m := m) (k := q) (ws := ws)
    have still : (w.storeWords m q ws).settle = w.storeWords m q ws := by
      rw [stored]
      refine settle_told rfl ?_
      unfold PoolTold Bobbin.sharedFree
      rw [show (w.onBob fun _ => b).dev.bobbin.all = s.world.dev.bobbin.all from queues]
      exact pool
    refine ⟨_, page_done rfl page (by decide) first taken, ?_⟩
    rw [still]
    refine ⟨opened, words, rfl, ?_, ?_, ?_⟩ <;> rw [stored] <;> rfl
  · obtain ⟨page, first, whole, same⟩ := one _ may
    have taken : s.world.grantWaiters.tryWaiter ⟨m, q, 0x2C, [v], true⟩ = some (.done, w.closePkt p) := by
      rw [same, tryWaiter_close, closes, close_closes found whole]
    obtain ⟨gone, words, -⟩ := closePkt_leaves (w := s.world) (m := m) (k := q) found fits
    exact ⟨_, page_done rfl page (by decide) first taken, rfl, gone, words⟩
  · have slice : (s.world.laneAt u l).test = .slice := test
    have other : (s.world.laneAt u l).test ≠ .restart := by simp [slice]
    refine ⟨_, slice_ends basting, ?_⟩
    cases pass with
    | true =>
      obtain ⟨-, ends⟩ := testEnd_passes (ok := ok) other (.inr rfl)
      dsimp only at ends
      rw [if_neg home, if_neg (show ¬ (s.world.dev.seam (homeCore u l)).mode = .halted from stands)] at ends
      exact ends.1
    | false => exact (testEnd_fails other (by simp [slice])).1
  · obtain ⟨t, row, none_, -, basting, -, rseq⟩ := bellowsSlice_passes segs
    exact ⟨t, row, none_, basting, rseq⟩
  · obtain ⟨lanes, -, -, tested, -⟩ := startupTest_leaves (w := s.world) (h := h) (r := r)
    exact ⟨_, startupTest_kindle kindle untested good three four, bitAt_setBit h.isLt, lanes⟩
  · obtain ⟨t, row, told, beside⟩ := basteOverdue_told ⟨fits, bastes, fresh⟩
    have baste : t.dev.baste = (overdueDev s u target s.dev).baste := (congrArg (fun d => d.baste) beside.1 :)
    refine ⟨t, row, ?_, overdue_active told⟩
    have bu : t.dev.bu u = (overdueDev s u target s.dev).bu u := by rw [Dev.bu, Dev.bu, baste]
    rw [bu, overdueDev, bu_onBu_self]
    exact congrArg (· ++ [target.val]) (units_advance (d := s.dev)).2

end Sys2Proof.Proofs
end

section
/-! What an event leaves of the seams, the bellows, the cores and the hobs: the slots and modes of the seams and the frames of
the bellows always; and where no cutover stands, which an event might end, the memory, and out of DOZE the hobs and what a core
that runs is. -/

namespace Sys2Proof.Proofs

open Machine Laws

set_option Elab.async false

variable {w v : W} {t : Prop}

/-- What an event keeps of a seam. -/
def seamPart (s : Seam) : Seam := { s with reset := false }

/-- What an event keeps of a bellows. -/
def blwPart (b : Bellows) : Bellows := { b with all := false, group := 0, chans := ⟨[]⟩ }

/-- What an event keeps of a hob. -/
def hobPart (x : Hob) : Bool × Nat := (x.march, x.row)

/-- Every seam, every bellows and every hob keeps what an event keeps of it. -/
structure Placed (a w : W) : Prop where
  slots : ∀ k, seamPart (w.dev.seam k) = seamPart (a.dev.seam k)
  blws : ∀ h, blwPart (w.dev.blw h) = blwPart (a.dev.blw h)
  rows : ∀ u, hobPart (w.dev.hob u) = hobPart (a.dev.hob u)

theorem Placed.refl : Placed w w := ⟨fun _ => rfl, fun _ => rfl, fun _ => rfl⟩

theorem Placed.trans {a b c : W} (h : Placed a b) (k : Placed b c) : Placed a c :=
  ⟨fun n => (k.slots n).trans (h.slots n), fun n => (k.blws n).trans (h.blws n), fun n => (k.rows n).trans (h.rows n)⟩

theorem Placed.same (seams : v.dev.seams = w.dev.seams) (bellows : v.dev.bellows = w.dev.bellows) (hobs : v.dev.hobs = w.dev.hobs) :
    Placed w v :=
  ⟨fun k => by rw [Dev.seam, Dev.seam, seams], fun h => by rw [Dev.blw, Dev.blw, bellows], fun u => by rw [Dev.hob, Dev.hob, hobs]⟩

theorem Placed.upd {a : W} {f : Dev → Dev} (h : Placed a w) (seams : ∀ d, (f d).seams = d.seams := by exact fun _ => rfl)
    (bellows : ∀ d, (f d).bellows = d.bellows := by exact fun _ => rfl) (hobs : ∀ d, (f d).hobs = d.hobs := by exact fun _ => rfl) :
    Placed a (w.upd f) := h.trans (.same (seams _) (bellows _) (hobs _))

theorem rows_onHob {d : Dev} {u n : Nat} {f : Hob → Hob} (same : ∀ x, hobPart (f x) = hobPart x) :
    hobPart ((d.onHob u f).hob n) = hobPart (d.hob n) := by
  rw [hob_onHob]
  split
  · next own =>
    subst own
    exact same _
  · rfl

theorem Placed.onHob {a : W} {u : Nat} {f : Hob → Hob} (h : Placed a w) (same : ∀ x, hobPart (f x) = hobPart x := by exact fun _ => rfl) :
    Placed a (w.upd fun d => d.onHob u f) := h.trans ⟨fun _ => rfl, fun _ => rfl, fun _ => rows_onHob same⟩

theorem Placed.ite {a b c : W} {p : Prop} [Decidable p] (h : Placed a b) (k : Placed a c) : Placed a (if p then b else c) := by
  split <;> assumption

theorem Placed.each {α : Type} {a : W} {xs : List α} {f : α → W → W} (h : Placed a w) (k : ∀ x v, Placed v (f x v)) :
    Placed a (w.each xs f) := by
  induction xs generalizing w with
  | nil => exact h
  | cons x xs ih => exact ih (h.trans (k x w))

/-- What an event keeps of a core that runs, where it may write the trace (`t`) and where it may not. -/
structure CoreKept (t : Prop) (x y : Core) : Prop where
  runs : y.run = true
  wait : y.wait = x.wait
  pending : ∀ i, bitAt x.ipend i = true → bitAt y.ipend i = true
  same : ¬ t → y = x

theorem CoreKept.refl {x : Core} (run : x.run = true) : CoreKept t x x := ⟨run, rfl, fun _ => id, fun _ => rfl⟩

theorem CoreKept.trans {x y z : Core} (h : CoreKept t x y) (k : CoreKept t y z) : CoreKept t x z :=
  ⟨k.runs, k.wait.trans h.wait, fun i on => k.pending i (h.pending i on), fun off => (k.same off).trans (h.same off)⟩

/-- A core runs, with every source that was pending. -/
def Pends (x y : Core) : Prop := y.run = true ∧ ∀ i, bitAt x.ipend i = true → bitAt y.ipend i = true

theorem Pends.refl {x : Core} (run : x.run = true) : Pends x x := ⟨run, fun _ => id⟩

theorem Pends.trans {x y z : Core} (h : Pends x y) (k : Pends y z) : Pends x z := ⟨k.1, fun i on => k.2 i (h.2 i on)⟩

/-- What an event keeps where no cutover stands. -/
structure Undisturbed (t : Prop) (a w : W) : Prop where
  cut : w.dev.images.cut = none
  ops : w.ops = a.ops
  flips : w.dev.flips = a.dev.flips
  awake : a.dev.sys.mode ≠ .doze → w.dev.sys.mode ≠ .doze
  hobs : a.dev.sys.mode ≠ .doze → w.dev.hobs = a.dev.hobs
  cores : ∀ k, (a.dev.core k).run = true → (a.dev.sys.mode ≠ .doze ∨ (a.dev.core k).wait = .awake) → CoreKept t (a.dev.core k) (w.dev.core k)
  pends : ∀ k, (a.dev.core k).run = true → Pends (a.dev.core k) (w.dev.core k)

/-- What an event leaves of the seams, the bellows, the cores, the hobs and the memory. -/
structure Contained (t : Prop) (a w : W) : Prop where
  placed : Placed a w
  calm : a.dev.images.cut = none → Undisturbed t a w

theorem Contained.trans {a b c : W} (h : Contained t a b) (k : Contained t b c) : Contained t a c := by
  refine ⟨h.placed.trans k.placed, fun none_ => ?_⟩
  have x := h.calm none_
  have y := k.calm x.cut
  refine ⟨y.cut, y.ops.trans x.ops, y.flips.trans x.flips, fun off => y.awake (x.awake off),
    fun off => (y.hobs (x.awake off)).trans (x.hobs off),
    fun k run off => ?_, fun k run => (x.pends k run).trans (y.pends k (x.pends k run).1)⟩
  have first := x.cores k run off
  exact first.trans (y.cores k first.runs (off.imp x.awake first.wait.trans))

/-- The parts of a device that an event keeps in parts. -/
def held (d : Dev) : Tbl Seam × Tbl Bellows × Tbl Core × Tbl Hob × Tbl (BitVec 13) × Option Cutover × Mode :=
  (d.seams, d.bellows, d.cores, d.hobs, d.flips, d.images.cut, d.sys.mode)

theorem Contained.same (h : held v.dev = held w.dev) (ops : v.ops = w.ops) : Contained t w v := by
  simp only [held, Prod.mk.injEq] at h
  obtain ⟨seams, bellows, cores, hobs, flips, cut, mode⟩ := h
  refine ⟨.same seams bellows hobs, fun none_ => ⟨cut.trans none_, ops, flips, fun off => by rwa [mode], fun _ => hobs, fun k run _ => ?_, fun k run => ?_⟩⟩
  all_goals rw [show v.dev.core k = w.dev.core k from by rw [Dev.core, Dev.core, cores]]
  · exact .refl run
  · exact .refl run

theorem Contained.refl (w : W) : Contained t w w := .same rfl rfl

theorem Contained.upd (w : W) (f : Dev → Dev) (h : held (f w.dev) = held w.dev) : Contained t w (w.upd f) := .same h rfl

theorem Contained.beside {m : Memory} {e : List (Nat × Word32 × Word32)} :
    Contained t w { w with base := m, due := e } := .same rfl rfl

theorem Contained.ite {a b c : W} (p : Prop) [Decidable p] (h : Contained t a b) (k : Contained t a c) :
    Contained t a (if p then b else c) := by split <;> assumption

theorem Contained.each {α : Type} (xs : List α) (f : α → W → W) (h : ∀ x w, Contained t w (f x w)) (w : W) :
    Contained t w (w.each xs f) := by
  induction xs generalizing w with
  | nil => exact .refl w
  | cons x xs ih => exact (h x w).trans (ih (f x w))

/-- Where a cutover stands, only the seams and the bellows keep their parts. -/
theorem Contained.standing {a : W} (h : Placed a w) (cut : a.dev.images.cut ≠ none) : Contained t a w := ⟨h, fun none_ => absurd none_ cut⟩

theorem Contained.weaken (h : Contained True w v) (on : t) : Contained t w v := by
  refine ⟨h.placed, fun none_ => ?_⟩
  obtain ⟨cut, ops, flips, awake, hobs, cores, pends⟩ := h.calm none_
  exact ⟨cut, ops, flips, awake, hobs,
    fun k run off => ⟨(cores k run off).runs, (cores k run off).wait, (cores k run off).pending, fun not => absurd on not⟩, pends⟩

/-- A change of one core that keeps it running and keeps its pending sources. -/
theorem contained_onCore {c : Nat} {f : Core → Core} (run : ∀ x, (f x).run = x.run) (wait : ∀ x, (f x).wait = x.wait)
    (pending : ∀ x i, bitAt x.ipend i = true → bitAt (f x).ipend i = true) : Contained True w (w.upd fun d => d.onCore c f) := by
  refine ⟨.same rfl rfl rfl, fun none_ => ⟨none_, rfl, rfl, id, fun _ => rfl, fun k on _ => ?_, fun k on => ?_⟩⟩
  all_goals
    rw [upd_dev, core_onCore]
    split
  · next own =>
    subst own
    exact ⟨(run _).trans on, wait _, pending _, fun not => absurd trivial not⟩
  · exact .refl on
  · next own =>
    subst own
    exact ⟨(run _).trans on, pending _⟩
  · exact .refl on

/-- A change of one core beside its pending sources. -/
theorem contained_onCore_beside {c : Nat} {f : Core → Core} (run : ∀ x, (f x).run = x.run) (wait : ∀ x, (f x).wait = x.wait) (pending : ∀ x, (f x).ipend = x.ipend) :
    Contained True w (w.upd fun d => d.onCore c f) :=
  contained_onCore run wait fun x i on => by rwa [pending]

theorem bitAt_setBit_of {n : Nat} {x : BitVec n} {i j : Nat} (on : bitAt x i = true) : bitAt (setBit x j true) i = true := by
  have low : i < n := by
    by_contra high
    rw [bitAt, BitVec.getLsbD_of_ge _ _ (by omega)] at on
    exact Bool.false_ne_true on
  by_cases there : j < n
  · unfold bitAt setBit at *
    rw [getLsbD_setFld x true.toNat (by omega) i low]
    split
    · next own =>
      rw [show i - j = 0 by omega]
      rfl
    · exact on
  · obtain ⟨k, past⟩ : ∃ k, (2 : Nat) ^ j = 2 ^ n * k := pow_dvd_pow 2 (by omega : n ≤ j)
    have none_ : fld x j 1 = 0 := by
      rw [fld, Nat.shiftRight_eq_div_pow, Nat.div_eq_of_lt (x.isLt.trans_le (Nat.pow_le_pow_right (by omega) (by omega))), Nat.zero_mod]
    have same : setBit x j true = x := by
      refine BitVec.eq_of_toNat_eq ?_
      rw [setBit, setFld, none_, BitVec.toNat_ofNat, Nat.zero_mul, Nat.sub_zero, show true.toNat % 2 ^ 1 = 1 from rfl, Nat.one_mul, past,
        Nat.add_mul_mod_self_left, Nat.mod_eq_of_lt x.isLt]
    rw [same]
    exact on

/-! The queue operations (R368 to R384). -/

theorem contained_interrupt (w : W) (c k : Nat) : Contained True w (w.interrupt c k) :=
  .ite _ (contained_onCore (fun _ => rfl) (fun _ => rfl) fun _ _ => bitAt_setBit_of) (.refl w)

theorem contained_crossing (w : W) (q : Nat) : Contained True w (w.crossing q) :=
  (Contained.upd w _ rfl).trans (Contained.each _ _ (fun _ _ => Contained.each _ _
    (fun _ w => Contained.ite _ (contained_interrupt w _ _) (Contained.refl w)) _) _)

theorem contained_setOwner (w : W) (c : Nat) (o : Option Owner) : Contained True w (w.onBob fun b => b.setOwner c o) := Contained.upd w _ rfl

theorem contained_takeCell (w : W) (q : Nat) : Contained True w (w.takeCell q).2 :=
  ((contained_setOwner w _ _).trans (Contained.upd _ _ rfl)).trans (Contained.ite _ (contained_crossing _ _) (Contained.refl _))

theorem contained_takeCells (n : Nat) (w : W) (q : Nat) : Contained True w (w.takeCells q n).2 := by
  induction n generalizing w with
  | zero => exact Contained.refl w
  | succ n ih => exact (contained_takeCell w q).trans (ih _)

theorem contained_freeCell (w : W) (q c : Nat) : Contained True w (w.freeCell q c) :=
  (contained_setOwner w c none).trans (Contained.upd _ _ rfl)

theorem contained_setCell (w : W) (c i : Nat) (v : Word32) : Contained True w (w.setCell c i v) := Contained.same rfl rfl

theorem contained_linkedAfter (v : W) (c : Nat) (ends : Option (Nat × Nat)) : Contained True v (linkedAfter v c ends) := by
  cases ends with
  | none => exact Contained.refl v
  | some e => exact contained_setCell _ _ _ _

theorem contained_link (w : W) (q c n : Nat) (a b : Bool) : Contained True w (w.link q c n a b) := by
  rw [link_eq]
  exact ((((contained_setCell _ _ _ _).trans (contained_setCell _ _ _ _)).trans (contained_linkedAfter _ _ _)).trans (contained_setOwner _ _ _)).trans
    (Contained.upd _ _ rfl)

theorem contained_openPkt (w : W) (m : Rid) (q n : Nat) (t : Bool) : Contained True w (w.openPkt m q n t) :=
  (contained_takeCells n w q).trans (Contained.same rfl rfl)

theorem contained_storeWord (w : W) (p : OpenPkt) (v : Word32) : Contained True w (w.storeWord p v) := .same rfl rfl

theorem contained_storeWords (vs : List Word32) (w : W) (m : Rid) (q : Nat) : Contained True w (w.storeWords m q vs) := by
  induction vs generalizing w with
  | nil => exact Contained.refl w
  | cons v vs ih =>
    simp only [W.storeWords]
    split
    · split
      · exact (contained_storeWord _ _ _).trans (ih _)
      · exact Contained.refl w
    · exact Contained.refl w

theorem contained_linkAll (cs : List Nat) (w : W) (q l : Nat) (f : Bool) : Contained True w (w.linkAll q l f cs) := by
  induction cs generalizing w l f with
  | nil => exact Contained.refl w
  | cons c cs ih =>
    simp only [W.linkAll]
    split
    · exact (contained_freeCell _ _ _).trans (ih _ _ _)
    · exact (contained_link _ _ _ _ _ _).trans (ih _ _ _)

theorem contained_closePkt (w : W) (p : OpenPkt) : Contained True w (w.closePkt p) :=
  ((contained_setCell _ _ _ _).trans (contained_linkAll _ _ _ _ _)).trans (Contained.same rfl rfl)

theorem contained_queueNote (w : W) (n : Nat) (m : Rid) (q o : Nat) : Contained True w (w.queueNote n m q o) := .beside

theorem contained_setReg (w : W) (t i o : Nat) (v : Word32) : Contained True w (w.setReg t i o v) := .upd _ _ rfl

theorem contained_countBob (w : W) (o : Nat) : Contained True w (w.countReg 8 0 o) := contained_setReg _ _ _ _ _

theorem contained_poolNote (w : W) (m : Rid) (q o : Nat) : Contained True w (w.poolNote m q o) :=
  Contained.ite _ (contained_queueNote _ _ _ _ _) (Contained.refl w)

theorem contained_misuse (w : W) (m : Rid) (q o : Nat) : Contained True w (w.misuse m q o).2 :=
  (contained_countBob w 0x54).trans (contained_queueNote _ _ _ _ _)

theorem contained_abortPkt (w : W) (p : OpenPkt) : Contained True w (w.abortPkt p) :=
  (Contained.each _ _ (fun _ _ => contained_freeCell _ _ _) w).trans (Contained.same rfl rfl)

theorem contained_abortOpen (w : W) (p : OpenPkt) (o : Nat) : Contained True w (w.abortOpen p o) :=
  ((contained_abortPkt w p).trans (contained_countBob _ 0x58)).trans (contained_queueNote _ _ _ _ _)

theorem contained_mendByte (w : W) (m : Rid) (q o a : Nat) : Contained True w (w.mendByte m q o a) := by
  unfold W.mendByte
  split
  · refine Contained.trans (b := if a < ownerByte 0 then w.poolPut a [_] else _) (Contained.ite _ (Contained.same rfl rfl) (Contained.upd _ _ rfl))
      (contained_queueNote _ _ _ _ _)
  · exact Contained.refl w

theorem contained_breakQueue (w : W) (m : Rid) (q o : Nat) : Contained True w (w.breakQueue m q o) :=
  (Contained.upd w _ rfl).trans (contained_queueNote _ _ _ _ _)

theorem contained_readCell (w : W) (m : Rid) (q o c : Nat) : Contained True w (w.readCell m q o c) := by
  unfold W.readCell
  dsimp only
  have h : Contained True w (w.mendCell m q o c) := Contained.each _ _ (fun _ _ => contained_mendByte _ _ _ _ _) w
  refine h.trans ?_
  split
  · exact (Contained.upd _ _ rfl).trans (contained_breakQueue _ _ _ _)
  · split
    · exact contained_breakQueue _ _ _ _
    · exact Contained.refl _

theorem contained_tailRead (w : W) (m : Rid) (q : Nat) : Contained True w (w.tailRead m q) := by
  unfold W.tailRead
  split
  · split
    · exact contained_readCell _ _ _ _ _
    · exact Contained.refl w
  · exact Contained.refl w

theorem contained_enqWord (w : W) (q : Nat) (v : Word32) : Contained True w (w.enqWord q v) := by
  have h : Contained True w (((w.takeCell q).2.setCell (w.takeCell q).1 2 v).link q (w.takeCell q).1 1 false false) :=
    ((contained_takeCell w q).trans (contained_setCell _ _ _ _)).trans (contained_link _ _ _ _ _ _)
  unfold W.enqWord
  dsimp only
  split
  · split
    · exact ((contained_setCell _ _ _ _).trans (contained_setCell _ _ _ _)).trans (Contained.upd _ _ rfl)
    · exact h
  · exact h

theorem contained_enqPacket (w : W) (q : Nat) (v : Word32) : Contained True w (w.enqPacket q v) :=
  (((contained_takeCell w q).trans (contained_setCell _ _ _ _)).trans (contained_setCell _ _ _ _)).trans (contained_link _ _ _ _ _ _)

/-- What a write of a port page that passes at once leaves. -/
def ContainedOpt (w : W) (r : Option (Acc × W)) : Prop := ∀ x, r = some x → Contained True w x.2

theorem ContainedOpt.some' {w : W} {x : Acc × W} (h : Contained True w x.2) : ContainedOpt w (some x) := fun _ e => by cases e; exact h

theorem ContainedOpt.pair' {w v : W} {a : Acc} (h : Contained True w v) : ContainedOpt w (some (a, v)) := fun _ e => by cases e; exact h

theorem ContainedOpt.none' {w : W} : ContainedOpt w none := fun _ e => by cases e

theorem ContainedOpt.trans {w v : W} {r : Option (Acc × W)} (h : Contained True w v) (k : ContainedOpt v r) : ContainedOpt w r :=
  fun x e => h.trans (k x e)

theorem contained_tryEnq (w : W) (m : Rid) (q : Nat) (v : Word32) : ContainedOpt w (w.tryEnq m q v) := by
  refine ContainedOpt.trans (contained_tailRead w m q) ?_
  unfold W.tryEnq
  dsimp only
  generalize w.tailRead m q = w1
  split
  · exact .some' (contained_misuse _ _ _ _)
  · split
    · exact .some' (contained_misuse _ _ _ _)
    · split
      · exact .pair' ((contained_enqWord _ q v).trans (contained_poolNote _ m q 0x20))
      · exact .none'
    · split
      · exact .pair' ((contained_enqPacket _ q v).trans (contained_poolNote _ m q 0x20))
      · exact .none'

theorem contained_tryPktOpen (w : W) (m : Rid) (q : Nat) : ContainedOpt w (w.tryPktOpen m q) := by
  unfold W.tryPktOpen
  dsimp only
  split
  · exact .some' (contained_misuse _ _ _ _)
  · split
    · exact .pair' ((contained_openPkt _ _ _ _ _).trans (contained_poolNote _ _ _ _))
    · exact .none'

theorem contained_truncate (w : W) (m : Rid) (q : Nat) : Contained True w (w.truncate m q).2 := by
  unfold W.truncate
  dsimp only
  split
  · exact (Contained.upd w _ rfl).trans (contained_misuse _ _ _ _)
  · exact contained_misuse _ _ _ _

theorem contained_tryPktWord (w : W) (m : Rid) (q : Nat) (ws : List Word32) : ContainedOpt w (w.tryPktWord m q ws) := by
  unfold W.tryPktWord
  split
  · exact .some' (contained_misuse _ _ _ _)
  · split
    · exact .some' (contained_misuse _ _ _ _)
    · extract_lets room vs need full
      have hf : ∀ v : W, Contained True w v → Contained True w (full v).2 := fun v h => by
        show Contained True w (if vs.length < ws.length then v.truncate m q else (Acc.done, v)).2
        split
        · exact h.trans (contained_truncate _ _ _)
        · exact h
      split
      · exact .some' (hf _ (contained_storeWords _ _ _ _))
      · split
        · exact .some' (hf _ ((((contained_takeCells need w q).trans (Contained.upd _ _ rfl)).trans
            (contained_storeWords _ _ _ _)).trans (contained_poolNote _ _ _ _)))
        · exact .none'

theorem contained_close (w : W) (m : Rid) (q : Nat) (a : Bool) : Contained True w (w.close m q a).2 := by
  unfold W.close
  split
  · exact contained_misuse _ _ _ _
  · split
    · exact contained_abortOpen _ _ _
    · split
      · exact contained_misuse _ _ _ _
      · exact contained_closePkt _ _

theorem contained_tryWaiter (w : W) (x : Waiter) : ContainedOpt w (w.tryWaiter x) := by
  unfold W.tryWaiter
  split
  · exact contained_tryEnq _ _ _ _
  · split
    · exact contained_tryPktOpen _ _ _
    · split
      · exact contained_tryPktWord _ _ _ _
      · exact .some' (contained_close _ _ _ _)

theorem contained_onArch {k : Nat} {f : Arch → Arch} : Contained True w (w.upd fun d => d.onCore k fun c => c.onArch f) :=
  contained_onCore_beside (fun _ => rfl) (fun _ => rfl) fun _ => rfl

theorem contained_storeNotice (w : W) (k c : Nat) : Contained True w (w.storeNotice k c) :=
  contained_onArch.trans (contained_interrupt _ _ _)

theorem contained_storeTaken (w : W) (x : Waiter) (r : Acc) : Contained True w (w.storeTaken x r) := by
  unfold W.storeTaken
  split
  · exact Contained.refl w
  · next k _ =>
    dsimp only
    have pop : ∀ v : W, Contained True w v → Contained True w (match (v.dev.core k).sb with
        | s :: r => if s.addr.toNat = 0x11800000 + x.q * 0x40 + x.off then v.upd fun d => d.onCore k fun c => { c with sb := r } else v
        | [] => v) := fun v h => by
      split
      · exact h.trans (Contained.ite _ (contained_onCore_beside (fun _ => rfl) (fun _ => rfl) fun _ => rfl) (Contained.refl _))
      · exact h
    cases r with
    | err e => exact pop _ (contained_storeNotice _ _ _)
    | _ => exact pop _ (Contained.refl w)

theorem contained_grantLoop (xs : List Waiter) (w : W) (kept : List Waiter) : Contained True w (w.grantLoop kept xs).2 := by
  induction xs generalizing w kept with
  | nil => exact Contained.refl w
  | cons x xs ih =>
    simp only [W.grantLoop]
    split
    · exact ih _ _
    · split
      · next r w1 h => exact ((contained_tryWaiter w x _ h).trans (contained_storeTaken _ _ _)).trans (ih _ _)
      · exact ih _ _

/-- What offering freed cells to the waiters can change. -/
theorem contained_grantWaiters (w : W) : Contained True w w.grantWaiters :=
  (contained_grantLoop _ w []).trans (Contained.same rfl rfl)

theorem contained_tryRefused (w : W) (m : Rid) (q : Nat) : Contained True w (w.tryRefused m q) :=
  (contained_countBob w 0x50).trans (contained_queueNote _ _ _ _ _)

/-- What a whole packet through the TRY port can change, taken or refused. -/
theorem contained_tryPacket (w : W) (m : Rid) (q : Nat) (ws : List Word32) : Contained True w (w.tryPacket m q ws).2 := by
  refine (contained_grantWaiters w).trans ?_
  unfold W.tryPacket
  dsimp only
  generalize w.grantWaiters = w1
  split
  · exact contained_misuse _ _ _ _
  · split
    · exact contained_tryRefused _ _ _
    · have h := ((contained_openPkt w1 m q (w1.dev.queue q).cfg.tryCells true).trans (contained_poolNote _ m q 0x18)).trans
        (contained_storeWords ws _ m q)
      dsimp only
      split
      · exact h.trans (contained_closePkt _ _)
      · exact h

theorem Contained.drop {w w' : W} (h : Contained True w w') (p : Nat × Word32 × Word32 → Bool) :
    Contained True w { w' with due := w.due ++ (w'.due.drop w.due.length).filter p } := h.trans .beside

theorem contained_traceOne (w : W) (r : Rec) : Contained True w (w.traceOne r).2 := by
  unfold W.traceOne
  dsimp only
  split
  · exact (contained_tryPacket _ _ _ _).trans (Contained.upd _ _ rfl)
  · exact contained_tryPacket _ _ _ _

theorem contained_trace (w : W) (r : Rec) : Contained True w (w.trace r) := by
  unfold W.trace
  dsimp only
  split
  · exact Contained.refl w
  · have h1 : Contained True w (if w.dev.flue.traceGap.n = 0 then (true, w) else w.traceOne (gapRec w.dev.flue.traceGap r.mode)).2 := by
      split
      · exact Contained.refl w
      · exact contained_traceOne _ _
    generalize (if w.dev.flue.traceGap.n = 0 then (true, w) else w.traceOne (gapRec w.dev.flue.traceGap r.mode)) = x at h1 ⊢
    obtain ⟨ready, v⟩ := x
    dsimp only at h1 ⊢
    have h2 : Contained True w (if (ready && w.dev.flue.traceGap.n != 0) = true then
        v.upd fun d => { d with flue := { d.flue with traceGap := {} } } else v) :=
      h1.trans (Contained.ite _ (Contained.upd _ _ rfl) (Contained.refl v))
    generalize (if (ready && w.dev.flue.traceGap.n != 0) = true then
        v.upd fun d => { d with flue := { d.flue with traceGap := {} } } else v) = y at h2 ⊢
    have h3 : Contained True w (if ready = true then y.traceOne r else (false, y)).2 := by
      split
      · exact h2.trans (contained_traceOne _ _)
      · exact h2
    generalize (if ready = true then y.traceOne r else (false, y)) = z at h3 ⊢
    obtain ⟨ok, u⟩ := z
    dsimp only at h3 ⊢
    refine Contained.trans (b := w) (Contained.refl w) ?_
    split
    · refine Contained.drop ?_ _
      exact h3.trans (Contained.ite _ (Contained.refl u) (Contained.upd _ _ rfl))
    · exact h3.trans (Contained.ite _ (Contained.refl u) (Contained.upd _ _ rfl))

/-! The reactions below the mode (R234, R273, R281). -/

theorem contained_finishAll (w : W) (o k st : Nat) (r : List Byte) : Contained t w (w.finishAll o k st r) := by
  refine .each _ _ (fun p w => ?_) w
  refine (Contained.upd w _ rfl).trans (.ite _ ?_ (.refl _))
  unfold W.reply
  dsimp only
  refine Contained.trans (Contained.upd _ _ ?_) (.ite _ (.refl _) (.upd _ _ rfl))
  split
  · rfl
  · split <;> rfl

theorem contained_errAssert (w : W) : Contained t w w.errAssert := (Contained.upd w _ rfl).trans (contained_finishAll _ _ _ _ _)

theorem contained_errRelease (w : W) : Contained t w w.errRelease := (Contained.upd w _ rfl).trans (contained_finishAll _ _ _ _ _)

theorem contained_errAuto (w : W) : Contained t w w.errAuto := .ite _ (contained_errRelease w) (.refl w)

/-- A change of one bellows that keeps what an event keeps of it. -/
theorem contained_onBlw {h : Nat} {f : Bellows → Bellows} (same : ∀ b, blwPart (f b) = blwPart b) :
    Contained t w (w.upd fun d => d.onBlw h f) := by
  refine ⟨⟨fun _ => rfl, fun k => ?_, fun _ => rfl⟩, fun none_ => ⟨none_, rfl, rfl, id, fun _ => rfl, fun _ run _ => .refl run, fun _ => .refl⟩⟩
  rw [upd_dev, blw_onBlw]
  split
  · next own =>
    subst own
    exact same _
  · rfl

theorem contained_forceCh (w : W) (n : Nat) : Contained t w (w.forceCh n) := .ite _ (.refl w) (.same rfl rfl)

theorem contained_restartOut (w : W) (h : Nat) : Contained t w (w.restartOut h) :=
  .ite _ (.refl w) (contained_onBlw fun _ => rfl)

theorem contained_onFlueBlw {h : Nat} {g : Dev → Flue} {f : Bellows → Bellows} (same : ∀ b, blwPart (f b) = blwPart b) :
    Contained t w (w.upd fun d => ({ d with flue := g d } : Dev).onBlw h f) :=
  (Contained.upd w (fun d => { d with flue := g d }) rfl).trans (contained_onBlw same)

theorem contained_hearthSafe (w : W) (k h : Nat) : Contained t w (w.hearthSafe k h) := by
  unfold W.hearthSafe
  extract_lets full held_
  have first : Contained t w held_ := contained_onFlueBlw fun _ => rfl
  exact (first.trans (contained_restartOut _ _)).trans (.each _ _ (fun _ w => contained_forceCh w _) _)

theorem contained_selectGroup (w : W) (k h g : Nat) : Contained t w (w.selectGroup k h g) := by
  unfold W.selectGroup
  extract_lets selected
  have first : Contained t w selected := contained_onFlueBlw fun _ => rfl
  exact (first.trans (contained_restartOut _ _)).trans (.each _ _ (fun _ w => .ite _ (contained_forceCh w _) (.refl w)) _)

theorem contained_cutFail (w : W) (h : Nat) (c : Byte) : Contained t w (w.cutFail h c) := by
  have phases (l : List Nat) (d : Dev) : (l.foldl (fun d h => d.onCutStat h fun s => { s with phase := 3 }) d).seams = d.seams ∧
      (l.foldl (fun d h => d.onCutStat h fun s => { s with phase := 3 }) d).bellows = d.bellows ∧
      (l.foldl (fun d h => d.onCutStat h fun s => { s with phase := 3 }) d).hobs = d.hobs := by
    induction l generalizing d with
    | nil => exact ⟨rfl, rfl, rfl⟩
    | cons h l ih => exact ih _
  cases cut : w.dev.images.cut with
  | none =>
    have same : w.cutFail h c = w := by
      dsimp only [W.cutFail, W.upd]
      rw [cut]
    rw [same]
    exact .refl w
  | some x =>
    refine .standing ?_ (by rw [cut]; exact Option.some_ne_none x)
    dsimp only [W.cutFail, W.upd]
    rw [cut]
    dsimp only
    split
    · exact .same (phases _ _).1 (phases _ _).2.1 (phases _ _).2.2
    · exact .refl

/-! A cutover that ends or falls back (R448, R449). -/

theorem placed_finishAll {o k st : Nat} {r : List Byte} : Placed w (w.finishAll o k st r) := (contained_finishAll (t := True) w o k st r).placed

theorem placed_endCutover {o : Nat} : Placed w (w.endCutover o) := by
  unfold W.endCutover
  split
  · exact .refl
  · exact ((Placed.refl.upd).each fun _ _ => .upd .refl).trans placed_finishAll

theorem placed_startCore {k : Nat} : Placed w (w.startCore k) := by
  unfold W.startCore
  split
  · exact .refl
  · next pc _ =>
    extract_lets vb cr started
    have first : Placed w started := by
      refine ⟨fun n => ?_, fun _ => rfl, fun _ => rfl⟩
      by_cases own : n = k
      · subst own
        show seamPart (Dev.seam (Dev.onSeam _ n _) n) = _
        rw [seam_onSeam_self]
        rfl
      · show seamPart (Dev.seam (Dev.onSeam _ k _) n) = _
        rw [seam_onSeam_ne _ _ _ _ own]
        rfl
    exact .ite (first.upd) first

theorem placed_put {a : Nat} {bs : List Byte} : Placed w (w.put a bs) := by
  have aside (d : Dev) :
      let e := if d.flips.rows.isEmpty then d else { d with flips := d.flips.keep fun k => k < a || a + bs.length ≤ k }
      e.seams = d.seams ∧ e.bellows = d.bellows ∧ e.hobs = d.hobs := by
    dsimp only
    split <;> exact ⟨rfl, rfl, rfl⟩
  obtain ⟨seams, bellows, hobs⟩ := aside w.dev
  exact .same seams bellows hobs

theorem placed_setHobReg {u o : Nat} {x : Word32} : Placed w (w.setHobReg u o x) := .ite (.upd .refl) (.upd .refl)

theorem placed_hobLog {u a : Nat} {m : Bool} {c : ByteCode} : Placed w (w.hobLog u a m c).2 := by
  have counted {b : Bool} {e : Word32} : Placed w (w.hobCount u b e) :=
    ((placed_setHobReg.trans placed_setHobReg).trans placed_setHobReg).trans placed_setHobReg
  cases c with
  | good b => exact .refl
  | fixed b k =>
    refine counted.trans ⟨fun _ => rfl, fun _ => rfl, fun n => rows_onHob fun x => ?_⟩
    split <;> rfl
  | bad b k => exact counted

theorem placed_hobInjected {u k : Nat} {l : List Nat} : Placed w (w.hobInjected u k l) := by
  unfold W.hobInjected
  split
  · exact .ite ⟨fun _ => rfl, fun _ => rfl, fun n => rows_onHob fun _ => rfl⟩ .refl
  · exact .refl

theorem placed_beside {m : Memory} {o : List MemOp} {e : List (Nat × Word32 × Word32)} : Placed w { w with base := m, ops := o, due := e } :=
  .same rfl rfl rfl

theorem placed_copyHob {u x d n : Nat} : Placed w (w.copyHob u x d n) := by
  unfold W.copyHob
  dsimp only
  have awake : Placed w (w.wakeHob u) := .ite .refl ⟨fun _ => rfl, fun _ => rfl, fun n =>
    rows_onHob (f := fun h => { h with power := .awake }) fun _ => rfl⟩
  refine (awake.trans ?_).trans (((placed_put.trans (.onHob .refl)).trans (.upd .refl)).trans placed_hobInjected)
  exact .ite (.each .refl fun _ _ => placed_hobLog.trans placed_beside) .refl

theorem placed_carry {h : Nat} {x : Machine.Section} {b : Bool} : Placed w (w.carry h x b) := by
  have key : ∀ (l : List (Nat × Nat)) (p : Nat × W), Placed w p.2 →
      Placed w (l.foldl (fun (p : Nat × W) r =>
        let a := hobBase h + r.1
        let y := hobBase h + x.snap + p.1
        (p.1 + r.2, if b then p.2.copyHob h y a r.2 else p.2.copyHob h a y r.2)) p).2 := by
    intro l
    induction l with
    | nil => exact fun p hp => hp
    | cons r l ih => exact fun p hp => ih _ (hp.trans (.ite placed_copyHob placed_copyHob))
  exact key _ (0, w) .refl

theorem placed_fallback {o : Nat} : Placed w (w.fallback o) := by
  have hearth (c : Cutover) (h : Nat) (v : W) : Placed v (v.fallbackHearth c h) := by
    unfold W.fallbackHearth
    dsimp only
    split
    · exact placed_carry.each fun _ _ => .ite (.upd .refl) .refl
    · exact .refl
  unfold W.fallback
  split
  · exact .refl
  · exact ((Placed.refl.each fun h v => hearth _ h v).trans placed_endCutover).each fun _ _ => .ite placed_startCore .refl

theorem contained_cutoverSafe (w : W) : Contained t w w.cutoverSafe.2 := by
  unfold W.cutoverSafe
  split
  · exact .refl w
  · next c cut =>
    refine .standing ?_ (by rw [cut]; exact Option.some_ne_none c)
    split
    · split
      · exact placed_fallback
      · exact placed_endCutover
    · exact placed_endCutover

/-! The entry to SAFE (R41, R44). -/

theorem core_besideSeam {d : Dev} {k n : Nat} {f : Seam → Seam} : (d.onSeam k f).core n = d.core n := rfl

theorem contained_startCore {k : Nat} (held : (w.dev.core k).run = false) : Contained t w (w.startCore k) := by
  refine ⟨placed_startCore, fun none_ => ?_⟩
  unfold W.startCore
  split
  · exact ((Contained.refl w).calm none_)
  · next pc _ =>
    extract_lets vb cr started
    have first : Undisturbed t w started := by
      have same {n : Nat} (run : (w.dev.core n).run = true) : started.dev.core n = w.dev.core n := by
        have other : n ≠ k := by
          rintro rfl
          rw [held] at run
          exact Bool.false_ne_true run
        dsimp only [started]
        rw [upd_dev, core_besideSeam, core_onCore_ne _ _ _ _ other]
      refine ⟨none_, rfl, rfl, id, fun _ => rfl, fun n run _ => ?_, fun n run => ?_⟩
      · rw [same run]
        exact .refl run
      · rw [same run]
        exact .refl run
    obtain ⟨cut, ops, flips, awake, hobs, cores, pends⟩ := first
    split
    · exact ⟨cut, ops, flips, awake, hobs, cores, pends⟩
    · exact ⟨cut, ops, flips, awake, hobs, cores, pends⟩

theorem contained_startCores (w : W) : Contained t w w.startCores := by
  refine .each _ _ (fun k w => ?_) w
  split
  · next h =>
    simp only [Bool.and_eq_true, Bool.not_eq_true'] at h
    exact contained_startCore h.2
  · exact .refl w

theorem contained_stampMode {m : Mode} (awake : m ≠ .doze) : Contained t w (w.stampMode m) :=
  ⟨.same rfl rfl rfl, fun none_ => ⟨none_, rfl, rfl, fun _ => awake, fun _ => rfl, fun _ run _ => .refl run, fun _ => .refl⟩⟩

/-- What the end of DOZE leaves alone, core `k` whole if it does not wait. -/
structure Pinned (k : Nat) (d e : Dev) : Prop where
  same : (e.seams, e.bellows, e.flips, e.images) = (d.seams, d.bellows, d.flips, d.images)
  core : (d.core k).wait = .awake → e.core k = d.core k
  pends : (e.core k).run = (d.core k).run ∧ (e.core k).ipend = (d.core k).ipend
  rows : ∀ u, hobPart (e.hob u) = hobPart (d.hob u)

theorem Pinned.refl {k : Nat} {d : Dev} : Pinned k d d := ⟨rfl, fun _ => rfl, ⟨rfl, rfl⟩, fun _ => rfl⟩

theorem Pinned.trans {k : Nat} {a b c : Dev} (h : Pinned k a b) (m : Pinned k b c) : Pinned k a c :=
  ⟨m.same.trans h.same, fun awake => (m.core (by rw [h.core awake]; exact awake)).trans (h.core awake),
    ⟨m.pends.1.trans h.pends.1, m.pends.2.trans h.pends.2⟩, fun u => (m.rows u).trans (h.rows u)⟩

theorem Pinned.foldl {k : Nat} {α : Type} (f : Dev → α → Dev) (h : ∀ d x, Pinned k d (f d x)) (l : List α) (d : Dev) : Pinned k d (l.foldl f d) := by
  induction l generalizing d with
  | nil => exact .refl
  | cons a l ih => exact (h _ _).trans (ih _)

theorem pinned_domainUp {k n : Nat} : Pinned k w.dev (w.domainUp n).dev := by
  unfold W.domainUp
  rw [upd_dev]
  dsimp only
  split
  · exact ⟨rfl, fun _ => rfl, ⟨rfl, rfl⟩, fun _ => rows_onHob fun _ => rfl⟩
  · exact ⟨rfl, fun _ => rfl, ⟨rfl, rfl⟩, fun _ => rfl⟩

theorem pinned_wakes {k n : Nat} {d : Dev} : Pinned k d (d.onCore n fun x => { x with wait := .awake }) := by
  refine ⟨rfl, fun awake => ?_, ?_, fun _ => rfl⟩
  · rw [core_onCore]
    split
    · next own =>
      subst own
      rw [← awake]
    · rfl
  · rw [core_onCore]
    split
    · next own =>
      subst own
      exact ⟨rfl, rfl⟩
    · exact ⟨rfl, rfl⟩

theorem pinned_dozeUp {k : Nat} : Pinned k w.dev w.dozeUp.dev ∧ w.dozeUp.ops = w.ops := by
  have domains (l : List Nat) (v : W) : Pinned k v.dev (v.each l fun n w => if w.votes n = 0 then w else w.domainUp n).dev ∧
      (v.each l fun n w => if w.votes n = 0 then w else w.domainUp n).ops = v.ops := by
    induction l generalizing v with
    | nil => exact ⟨.refl, rfl⟩
    | cons n l ih =>
      have one : Pinned k v.dev (if v.votes n = 0 then v else v.domainUp n).dev ∧ (if v.votes n = 0 then v else v.domainUp n).ops = v.ops := by
        split
        · exact ⟨.refl, rfl⟩
        · exact ⟨pinned_domainUp, rfl⟩
      exact ⟨one.1.trans (ih _).1, (ih _).2.trans one.2⟩
  unfold W.dozeUp
  extract_lets ctl raised
  generalize List.range 241 = ns
  have ops : raised.ops = w.ops := upd_ops ..
  refine ⟨Pinned.trans ?_ (domains ns raised).1, (domains ns raised).2.trans ops⟩
  dsimp only [raised]
  rw [upd_dev]
  generalize List.range 17 = l
  generalize List.range 64 = j
  exact (Pinned.foldl (fun d h => d.onHob h fun x => { x with power := if h = 16 then .awake else .ret55 }) 
    (fun _ _ => ⟨rfl, fun _ => rfl, ⟨rfl, rfl⟩, fun _ => rows_onHob fun _ => rfl⟩) l w.dev).trans
    ((Pinned.foldl (fun d k => d.onCore k fun x => { x with wait := .awake }) (fun _ _ => pinned_wakes) j _).trans
      ⟨rfl, fun _ => rfl, ⟨rfl, rfl⟩, fun _ => rfl⟩)

/-- The end of DOZE, seen from before it. -/
theorem Contained.dozeUp {a : W} (h : Contained t a w) (doze : a.dev.sys.mode = .doze) : Contained t a w.dozeUp := by
  obtain ⟨⟨same, -, -, rows⟩, sameOps⟩ := pinned_dozeUp (w := w) (k := 0)
  simp only [Prod.mk.injEq] at same
  obtain ⟨seams, bellows, flips, images⟩ := same
  refine ⟨h.placed.trans ⟨fun k => by rw [Dev.seam, Dev.seam, seams], fun h => by rw [Dev.blw, Dev.blw, bellows], rows⟩, fun none_ => ?_⟩
  obtain ⟨cut, ops, flips', -, -, cores, pends⟩ := h.calm none_
  refine ⟨by rw [images, cut], sameOps.trans ops, flips.trans flips', fun awake => absurd doze awake, fun awake => absurd doze awake,
    fun k run off => ?_, fun k run => ?_⟩
  · have first := cores k run off
    have awake : (w.dev.core k).wait = .awake := first.wait.trans (off.resolve_left (not_not.mpr doze))
    rw [(pinned_dozeUp (w := w) (k := k)).1.core awake]
    exact first
  · obtain ⟨runs, pending⟩ := (pinned_dozeUp (w := w) (k := k)).1.pends
    refine (pends k run).trans ⟨runs.trans (pends k run).1, fun i on => ?_⟩
    rw [pending]
    exact on

theorem contained_enterSafe (w : W) : Contained t w w.enterSafe.2 := by
  unfold W.enterSafe
  split
  · exact .refl w
  · extract_lets old
    dsimp only
    refine .trans ?_ (contained_startCores _)
    have stamped : Contained t w ((w.cutoverSafe.2.upd fun d => { d with
        sys := { d.sys with dozeArmed := false },
        flue := { d.flue with
          retMode := if w.dev.sys.mode.running then 4 else if w.dev.sys.mode = .quiet then d.flue.retMode else 3,
          tripSet := [] },
        chim := { d.chim with safeMark := d.chim.safeMark || d.chim.pos == 0 },
        stoker := { d.stoker with serving := !d.stoker.restarting } }).stampMode .safe) :=
      ((contained_cutoverSafe w).trans (.upd _ _ rfl)).trans (contained_stampMode (by decide))
    split
    · next doze => exact stamped.dozeUp doze
    · exact stamped

theorem contained_selectAll {hs : List Nat} {f : Bellows → Bellows} (same : ∀ b, blwPart (f b) = blwPart b) :
    Contained t w (w.upd fun d => hs.foldl (fun d h => d.onBlw h f) d) := by
  induction hs generalizing w with
  | nil => exact .upd _ _ rfl
  | cons h hs ih => exact (contained_onBlw same).trans (ih (w := w.upd fun d => d.onBlw h f))

theorem contained_deviceSafe (w : W) (k : Nat) : Contained t w (w.deviceSafe k).2 := by
  unfold W.deviceSafe
  dsimp only
  refine .trans ?_ (.each _ _ (fun _ w => contained_forceCh w _) _)
  refine .trans ?_ (.each _ _ (fun _ w => contained_restartOut w _) _)
  have entered : Contained t w (if w.dev.sys.mode.trippable then w.enterSafe else (false, w)).2 := by
    split
    · exact contained_enterSafe w
    · exact .refl w
  refine entered.trans ?_
  generalize (if w.dev.sys.mode.trippable then w.enterSafe else (false, w)).2 = v
  exact (Contained.upd v (fun d => { d with flue := { d.flue with devHold := true, tripSet := k :: d.flue.tripSet.filter (· != k) } }) rfl).trans
    (contained_selectAll fun _ => rfl)

/-! An event (R273), where it may write the trace and where it may not. -/

/-- The event may write the trace, or the trace is off. -/
abbrev Traces (t : Prop) (w : W) : Prop := t ∨ TraceOff w

theorem Traces.of_untraced (h : Traces t w) (k : TraceOff w → Untraced w v) : Traces t v := h.imp id fun off => (k off).traceOff off

theorem contained_react {k : Nat} {r : Rec} {grp : List Nat} (ok : Traces t w) : Contained t w (w.react k r grp).2 := by
  unfold W.react
  extract_lets h w1 w2 w3 w4 w5 w6 w7
  have h1 : Contained t w w1 := .ite _ (.upd _ _ rfl) (.refl _)
  have ok1 : Traces t w1 := ok.of_untraced fun _ => .ite _ (.upd _ _ rfl) (.refl _)
  have h2 : Contained t w1 w2 := by
    rcases ok1 with on | off
    · exact (contained_trace w1 r).weaken on
    · dsimp only [w2]
      rw [trace_of_off w1 r off]
      exact .refl _
  have h3 : Contained t w2 w3 := .ite _ (contained_cutFail _ _ _) (.refl _)
  have h4 : Contained t w3 w4 := .ite _ (.upd _ _ rfl) (.refl _)
  have h5 : Contained t w4 w5 := .ite _ (contained_hearthSafe _ _ _) (.refl _)
  have h6 : Contained t w5 w6 := .ite _ (.each _ _ (fun _ w => contained_selectGroup w _ _ _) _) (.refl _)
  have h7 : Contained t w6 w7 := .ite _ (contained_errAssert _) (.refl _)
  have reactions : Contained t w w7 := h1.trans (h2.trans (h3.trans (h4.trans (h5.trans (h6.trans h7)))))
  refine reactions.trans ?_
  split
  · exact contained_deviceSafe _ _
  · split
    · exact contained_enterSafe _
    · exact .refl _

theorem contained_noteEvent {k : Nat} {level : Bool} {r : Rec} : Contained t w (w.noteEvent k level r) :=
  (Contained.upd w _ rfl).trans (.ite _ (.upd _ _ rfl) (.refl _))

theorem contained_event {k : Nat} {d0 d1 : Word32} {test : Bool} {grp : List Nat} (ok : Traces t w) :
    Contained t w (w.event k d0 d1 test grp).2 := by
  unfold W.event
  split
  · exact .refl w
  · exact contained_noteEvent.trans (contained_react (ok.of_untraced fun _ => untraced_noteEvent w _ _ _))

theorem contained_fellBack {x : Bool × W} (ok : Traces t x.2) : Contained t x.2 (W.fellBack x) := .ite _ (contained_event ok) (.refl _)

theorem contained_poolCheck (ok : Traces t w) : Contained t w w.poolCheck :=
  .ite _ (contained_event ok) (.ite _ ((Contained.upd w _ rfl).trans (contained_errAuto _)) (.refl w))

/-- One event after another. -/
theorem contained_drained {es : List (Nat × Word32 × Word32)} (ok : Traces t w) :
    let v := w.each es fun e w => if w.stands e.1 then w else W.fellBack (w.event e.1 e.2.1 e.2.2 false [])
    Contained t w v ∧ Traces t v := by
  induction es generalizing w with
  | nil => exact ⟨.refl w, ok⟩
  | cons e es ih =>
    have one : Contained t w (if w.stands e.1 then w else W.fellBack (w.event e.1 e.2.1 e.2.2 false [])) ∧
        Traces t (if w.stands e.1 then w else W.fellBack (w.event e.1 e.2.1 e.2.2 false [])) := by
      split
      · exact ⟨.refl w, ok⟩
      · have told := contained_event (k := e.1) (d0 := e.2.1) (d1 := e.2.2) (test := false) (grp := []) ok
        have ok1 : Traces t (w.event e.1 e.2.1 e.2.2 false []).2 := ok.of_untraced fun off => untraced_event w _ _ _ _ _ off
        exact ⟨told.trans (contained_fellBack ok1), ok1.of_untraced fun off => untraced_fellBack _ off⟩
    obtain ⟨first, ok1⟩ := one
    obtain ⟨rest, ok2⟩ := ih ok1
    exact ⟨first.trans rest, ok2⟩

theorem contained_drainOnce (ok : Traces t w) : Contained t w w.drainOnce ∧ Traces t w.drainOnce := by
  obtain ⟨rest, ok'⟩ := contained_drained (es := w.due) (w := { w with due := [] }) ok
  exact ⟨Contained.beside.trans rest, ok'⟩

theorem contained_settle (ok : Traces t w) : Contained t w w.settle := by
  obtain ⟨first, ok1⟩ := contained_drainOnce ok
  obtain ⟨second, ok2⟩ := contained_drainOnce ok1
  exact (first.trans second).trans (contained_poolCheck ok2)

theorem contained_followUp {x : Bool × W} (ok : Traces t x.2) : Contained t x.2 (W.followUp x) :=
  (contained_fellBack ok).trans (contained_settle (ok.of_untraced fun off => untraced_fellBack x off))

/-- What an event and all that follows it leave. -/
theorem contained_raise {k : Nat} {d0 d1 : Word32} {test : Bool} {grp : List Nat} (ok : Traces t w) :
    Contained t w (w.raise k d0 d1 test grp) :=
  (contained_event ok).trans (contained_followUp (ok.of_untraced fun off => untraced_event w _ _ _ _ _ off))

theorem contained_level {k : Nat} {d0 d1 : Word32} (ok : Traces t w) : Contained t w (w.level k d0 d1) :=
  .ite _ (.refl w) (contained_raise ok)

theorem contained_inactive {k : Nat} : Contained t w (w.inactive k) := (Contained.upd w _ rfl).trans (contained_errAuto _)

end Sys2Proof.Proofs
end

section
/-! The seams, the lanes and the hearths available that a start-up test leaves (R334 to R337), and what the load of a hearth, a
start of its cores and the mode that follows leave of them. -/

namespace Sys2Proof.Proofs

open Machine Laws

set_option Elab.async false

variable {s : State} {w v : W} {u l k n h : Nat}

/-- The lanes, the slots and modes of the seams, and the hearths available are the same. -/
@[irreducible] def Seats (a w : W) : Prop :=
  (∀ k, seamPart (w.dev.seam k) = seamPart (a.dev.seam k)) ∧ w.dev.lanes = a.dev.lanes ∧ w.dev.sys.avail = a.dev.sys.avail

theorem seats_iff {a w : W} : Seats a w ↔
    (∀ k, seamPart (w.dev.seam k) = seamPart (a.dev.seam k)) ∧ w.dev.lanes = a.dev.lanes ∧ w.dev.sys.avail = a.dev.sys.avail := by rw [Seats]

theorem Seats.refl : Seats w w := seats_iff.mpr ⟨fun _ => rfl, rfl, rfl⟩

theorem Seats.trans {a b c : W} (h : Seats a b) (k : Seats b c) : Seats a c := by
  obtain ⟨slots, lanes, avail⟩ := seats_iff.mp h
  obtain ⟨slots', lanes', avail'⟩ := seats_iff.mp k
  exact seats_iff.mpr ⟨fun n => (slots' n).trans (slots n), lanes'.trans lanes, avail'.trans avail⟩

theorem Seats.same {a b : W} (h : Seats a w)
    (k : b.dev.seams = w.dev.seams ∧ b.dev.lanes = w.dev.lanes ∧ b.dev.sys.avail = w.dev.sys.avail) : Seats a b := by
  obtain ⟨seams, lanes, avail⟩ := k
  exact h.trans <| seats_iff.mpr ⟨fun n => by rw [Dev.seam, Dev.seam, seams], lanes, avail⟩

theorem Seats.upd {a : W} {f : Dev → Dev} (h : Seats a w)
    (k : ∀ d, (f d).seams = d.seams ∧ (f d).lanes = d.lanes ∧ (f d).sys.avail = d.sys.avail := by exact fun _ => ⟨rfl, rfl, rfl⟩) :
    Seats a (w.upd f) := h.same (k w.dev)

theorem Seats.ite {a b c : W} {p : Prop} [Decidable p] (h : Seats a b) (k : Seats a c) : Seats a (if p then b else c) := by
  split <;> assumption

theorem Seats.iteSnd {α : Type} {a : W} {x y : α × W} {p : Prop} [Decidable p] (h : Seats a x.2) (k : Seats a y.2) :
    Seats a (if p then x else y).2 := by
  split <;> assumption

theorem Seats.pair {α : Type} {a : W} {x : α} (h : Seats a w) : Seats a (x, w).2 := h

theorem Seats.snd {α : Type} {a b : W} {x : α} {p : α × W} (h : Seats a p.2) (e : p = (x, b)) : Seats a b := by
  rw [e] at h
  exact h

theorem Seats.each {α : Type} {a : W} {xs : List α} {f : α → W → W} (h : Seats a w) (k : ∀ x v, Seats v (f x v)) :
    Seats a (w.each xs f) := by
  induction xs generalizing w with
  | nil => exact h
  | cons x xs ih => exact ih (h.trans (k x w))

theorem Seats.contained {a b : W} (h : Seats a w) (kept : Kept w b) (placed : Placed w b) : Seats a b :=
  h.trans <| seats_iff.mpr ⟨placed.slots, (congrArg (fun d => d.lanes) kept.1 :), (congrArg (fun d => d.sys.avail) kept.1 :)⟩

theorem Seats.raise {a : W} {d0 d1 : Word32} (h : Seats a w) : Seats a (w.raise n d0 d1) :=
  h.contained (kept_raise _ _ _ _ _ _) (contained_raise (t := True) (.inl trivial)).placed

theorem Seats.finishAll {a : W} {o key st : Nat} {r : List Byte} (h : Seats a w) : Seats a (w.finishAll o key st r) :=
  h.contained (steady_finishAll _ _ _ _ _).kept placed_finishAll

theorem Seats.startCore {a : W} (h : Seats a w) (low : k < 64) : Seats a (w.startCore k) :=
  h.contained (steady_startCore _ _ low).kept placed_startCore

theorem Seats.interrupt {a : W} {c : Nat} (h : Seats a w) : Seats a (w.interrupt c n) :=
  h.contained (steady_interrupt _ _ _).kept (contained_interrupt _ _ _).placed

theorem Seats.basteRec {a : W} {o : Nat} {info : Word32} (h : Seats a w) : Seats a (w.basteRec u l o info) := by
  unfold W.basteRec
  extract_lets recorded cleared
  exact .ite (.ite (.contained (.upd (.upd h)) kept_inactive (contained_inactive (t := True)).placed) (.upd (.upd h))) (.upd h)

theorem Seats.exhaustCheck {a : W} (h : Seats a w) : Seats a (w.exhaustCheck u) := by
  unfold W.exhaustCheck
  split
  · exact .ite (.raise (.upd h)) h
  · exact h

/-! A copy of a section (R441, R444). -/

theorem Seats.countReg {a : W} {t i o k : Nat} (h : Seats a w) : Seats a (w.countReg t i o k) := h.same ⟨rfl, rfl, rfl⟩

theorem seats_logFix {ch line m : Nat} {o : BitVec 4} {fix : Nat × BitVec 5} : Seats w (w.logFix ch line m o fix) :=
  .ite (.upd .refl) (.ite (.upd .refl) (.upd (.countReg .refl)))

theorem seats_checkLine {line : Nat} : Seats w (w.checkLine line).2 :=
  .iteSnd (.pair (.raise (.countReg .refl))) (.iteSnd .refl (.pair (.raise (.each (.countReg .refl) fun _ _ => seats_logFix))))

theorem seats_readLine {line : Nat} : Seats w (w.readLine line).2 := seats_checkLine.trans (.ite .refl (.upd .refl))

theorem seats_readLines {ls : List Nat} : Seats w (w.readLines ls).2 := by
  induction ls generalizing w with
  | nil => exact .refl
  | cons l ls ih =>
    rw [W.readLines]
    refine .iteSnd (.raise .refl) (.iteSnd .refl ?_)
    split
    next r w1 e =>
    have first : Seats w w1 := seats_readLine.snd e
    refine .iteSnd first ?_
    split <;> next e => exact first.trans (ih.snd e)

theorem seats_areaRead {k o n : Nat} : Seats w (w.areaRead k o n).2 := by
  rw [W.areaRead]
  dsimp only
  refine .iteSnd .refl ?_
  split <;> next e => exact seats_readLines.snd e

theorem seats_setHobReg {o : Nat} {x : Word32} : Seats w (w.setHobReg u o x) := .ite (.upd .refl) (.upd .refl)

theorem seats_hobLog {a : Nat} {m : Bool} {c : ByteCode} : Seats w (w.hobLog u a m c).2 := by
  have counted {b : Bool} {e : Word32} : Seats w (w.hobCount u b e) :=
    ((seats_setHobReg.trans seats_setHobReg).trans seats_setHobReg).trans seats_setHobReg
  cases c with
  | good b => exact .refl
  | fixed b k => exact counted.trans (.same .refl ⟨rfl, rfl, rfl⟩)
  | bad b k => exact counted

theorem seats_hobScan {word : Nat} {m : Bool} : Seats w (w.hobScan u word m) := by
  refine .ite .refl (.each .refl fun _ _ => .ite ?_ .refl)
  unfold W.hobError
  split
  · next e => exact .raise (seats_hobLog.snd e)
  · next e => exact seats_hobLog.snd e

theorem Seats.eccNote {a : W} {m : Rid} {b : Bool} (h : Seats a w) : Seats a (w.eccNote m b) := by
  unfold W.eccNote
  split
  · exact .ite h.interrupt h
  · exact h

theorem seats_hobRead {m : Rid} {a : Nat} : Seats w (w.hobRead m u a n).2 := by
  have awake : Seats w ((w.wakeHob u).granted u (hobMaster w.dev.chim.pos u m)) := .upd (.ite .refl (.upd .refl))
  exact awake.trans (.iteSnd .refl (.iteSnd (.eccNote (.each .refl fun _ _ => seats_hobScan)) (.eccNote (.each .refl fun _ _ => seats_hobScan))))

theorem seats_put {a : Nat} {bs : List Byte} : Seats w (w.put a bs) := by
  have aside (d : Dev) : (if d.flips.rows.isEmpty then d else { d with flips := d.flips.keep fun k => k < a || a + bs.length ≤ k }).lanes = d.lanes ∧
      (if d.flips.rows.isEmpty then d else { d with flips := d.flips.keep fun k => k < a || a + bs.length ≤ k }).sys = d.sys := by
    split <;> exact ⟨rfl, rfl⟩
  exact seats_iff.mpr ⟨placed_put.slots, (aside w.dev).1, congrArg Sys.avail (aside w.dev).2⟩

theorem seats_hobWrites {m a : Nat} {bs : List Byte} : Seats w (w.hobWrites u m a bs) := by
  have awake : Seats w ((w.wakeHob u).granted u m) := .upd (.ite .refl (.upd .refl))
  have injected {v : W} {xs : List Nat} : Seats v (v.hobInjected u m xs) := by
    unfold W.hobInjected
    split
    · exact .ite (.upd .refl) .refl
    · exact .refl
  exact ((awake.each fun _ _ => seats_put).trans injected).trans seats_put

theorem seats_copyHolds {a : Nat} {digest : List Byte} : Seats w (w.copyHolds u a n digest).2 := by
  refine .iteSnd .refl ?_
  split <;> next e => exact seats_hobRead.snd e

theorem seats_copyTo {o : Nat} {x : Machine.Section} : Seats w (w.copyTo k u o x).2 := by
  unfold W.copyTo
  split
  · next e => exact ((seats_areaRead.snd e).trans seats_hobWrites).trans seats_copyHolds
  · next e => exact seats_areaRead.snd e

theorem seats_copySections {xs : List Machine.Section} : Seats w (w.copySections k h xs).2 := by
  induction xs generalizing w with
  | nil => exact .refl
  | cons x xs ih => exact seats_copyTo.trans ih

theorem seats_loadHearth : Seats w (w.loadHearth h) := seats_copySections.trans (.ite (.upd .refl) (.raise (.upd .refl)))

theorem seats_settleRun : Seats w w.settleRun := .ite (.upd .refl) .refl

end Sys2Proof.Proofs
end

section
/-! The ends of tests (R100, R326 to R337). -/

namespace Sys2Proof.Proofs

open Machine Laws

set_option Elab.async false

variable {s : State} {w v : W} {u l k n h : Nat}

theorem seam_fold {n : Nat} {K : Nat → Nat} {f : Nat → Seam → Seam} {d : Dev} (inj : ∀ i j, K i = K j → i = j) (j : Nat) :
    ((List.range n).foldl (fun d l => d.onSeam (K l) (f l)) d).seam (K j) = if j < n then f j (d.seam (K j)) else d.seam (K j) := by
  induction n with
  | zero => rfl
  | succ n ih =>
    rw [List.range_succ, List.foldl_append, List.foldl_cons, List.foldl_nil]
    by_cases own : j = n
    · subst own
      rw [seam_onSeam_self, ih, if_neg (by omega), if_pos (by omega)]
    · rw [seam_onSeam_ne _ _ _ _ fun same => own (inj _ _ same), ih]
      exact if_congr (by omega) rfl rfl

/-- The hob of a hearth passes its start-up test: its repairs fit. -/
def hobPasses (w : W) (h : Nat) (r : StartupResult) : Bool :=
  r.hobOk && decide ((w.dev.hob h).pendRows.length + r.rows ≤ (w.dev.hob h).rowsFree.toNat) && decide (r.cols ≤ (w.dev.hob h).colsFree.toNat)

/-- The lane that the patch lane of a hearth stands in for. -/
def patched (r : StartupResult) : Option Nat :=
  if (!bitAt r.lanes 12) = true then ((List.range 12).filter fun l => !!bitAt r.lanes l).head? else none

/-- The world in which the start-up test of a hearth has judged it. -/
def judgedWorld (w : W) (h : Nat) (r : StartupResult) : W :=
  (w.clearHob (hobBase h) (hobSize h)).upd (startupDev h r ((w.dev.hob h).pendRows.length + r.rows) (hobPasses w h r)
    (hobPasses w h r && r.bellowsOk) (fun l => !bitAt r.lanes l) (patched r))

/-- The rest of the start-up test keeps the lanes, the seams and the hearths available as judged. -/
theorem startupTest_seats {r : StartupResult} : Seats (judgedWorld w h r) (w.startupTest h r) := by
  unfold W.startupTest
  extract_lets ok hob need hobOk avail failed patch tested recorded counted lanesTold seamsTold hobTold blwTold
  have same : tested = judgedWorld w h r := rfl
  clear_value tested
  have h1 : Seats tested recorded := .each .refl fun _ _ => .basteRec .refl
  have h2 : Seats recorded counted := .upd .refl
  have h3 : Seats counted lanesTold := .each .refl fun _ _ => .raise .refl
  have h4 : Seats lanesTold seamsTold := .each .refl fun _ _ => .raise .refl
  have h5 : Seats seamsTold hobTold := .ite .refl (.raise .refl)
  have h6 : Seats hobTold blwTold := .ite .refl (.raise (.upd .refl))
  clear_value blwTold
  rw [← same]
  exact .exhaustCheck (h1.trans (h2.trans (h3.trans (h4.trans (h5.trans h6)))))

/-- The slot map of the cores of a hearth that the start-up test leaves. -/
theorem startupTest_slots {r : StartupResult} {j : Nat} (low : j < 4) :
    ∃ x : Seam, seamPart ((w.startupTest h r).dev.seam (4 * h + j)) =
      seamPart (placed r (hobPasses w h r && r.bellowsOk) (fun l => !bitAt r.lanes l) (patched r) j x) := by
  obtain ⟨slots, -, -⟩ := seats_iff.mp (startupTest_seats (w := w) (h := h) (r := r))
  have seam := slots (4 * h + j)
  unfold judgedWorld at seam
  rw [upd_dev] at seam
  unfold startupDev at seam
  rw [seam_fold (K := fun j => 4 * h + j) (by intro i j same; omega), if_pos low] at seam
  exact ⟨_, seam⟩

theorem at_seamPart {x y : Seam} (h : seamPart x = seamPart y) (i : Nat) : x.at i = y.at i := by
  have a : x.a = y.a := (congrArg Seam.a h :)
  have b : x.b = y.b := (congrArg Seam.b h :)
  have c : x.c = y.c := (congrArg Seam.c h :)
  rw [Seam.at, Seam.at, a, b, c]

theorem filled_seamPart {x y : Seam} (h : seamPart x = seamPart y) : x.filled = y.filled := by
  unfold Seam.filled
  exact List.filter_congr fun i _ => by rw [at_seamPart h]

theorem mode_seamPart {x y : Seam} (h : seamPart x = seamPart y) : x.mode = y.mode := (congrArg Seam.mode h :)

theorem placed_at {r : StartupResult} {avail : Bool} {ok : Nat → Bool} {patch : Option Nat} {j i : Nat} {x : Seam} (low : i < 3) :
    (placed r avail ok patch j x).at i =
      if ok (3 * j + i) then some (3 * j + i) else if patch = some (3 * j + i) then some 12 else none := by
  unfold placed
  extract_lets at_ y
  have same : y.at i = at_ i := by
    unfold Seam.at
    obtain rfl | rfl | rfl : i = 0 ∨ i = 1 ∨ i = 2 := by omega
    all_goals rfl
  split
  · exact same
  · exact same

theorem placed_mode {r : StartupResult} {avail : Bool} {ok : Nat → Bool} {patch : Option Nat} {j : Nat} {x : Seam} :
    let y := placed r avail ok patch j x
    (y.mode = .halted ↔ avail = false ∨ bitAt r.seams j = true ∨ y.filled.length < 2) ∧ (y.mode = .tmr → y.filled.length = 3) := by
  unfold placed
  extract_lets at_ y z
  have same : z.filled = y.filled := by
    dsimp only [z]
    split <;> rfl
  rw [same]
  dsimp only [z]
  split
  · next bad => exact ⟨⟨fun _ => bad, fun _ => rfl⟩, fun tmr => SeamMode.noConfusion tmr⟩
  · next good =>
    unfold Seam.voting
    dsimp only
    split
    · next three => exact ⟨⟨fun halted => SeamMode.noConfusion halted, fun bad => absurd bad good⟩, fun _ => three⟩
    · exact ⟨⟨fun halted => SeamMode.noConfusion halted, fun bad => absurd bad good⟩, fun tmr => SeamMode.noConfusion tmr⟩

/-- The first failed lane of a hearth. -/
theorem head?_failed {bad : Nat → Bool} {l : Nat} (low : l < 12) (fails : bad l = true) (first : ∀ j, j < l → bad j = false) :
    ((List.range 12).filter bad).head? = some l := by
  have split : List.range 12 = List.range l ++ l :: (List.range (12 - (l + 1))).map (· + (l + 1)) := by
    interval_cases l <;> rfl
  rw [split, List.filter_append, List.filter_eq_nil_iff.mpr fun j mem => ?_, List.nil_append, List.filter_cons_of_pos fails, List.head?_cons]
  rw [first j (List.mem_range.mp mem)]
  exact Bool.false_ne_true

/-- What the start-up test of a hearth leaves, and what keeps its seats leaves too. -/
theorem startup_leaves {h : HearthId} {r : StartupResult} (seats : Seats (w.startupTest h r) v) :
    let good := fun (l : Nat) => bitAt r.lanes l = false
    (∀ l, l < 12 → (v.dev.lane (laneKey h l)).st = if bitAt r.lanes l then .failed else .active) ∧
    (∀ l, l < 12 → good 12 → ¬ good l → (∀ j, j < l → good j) →
      (v.dev.lane (laneKey h 12)).st = .active ∧ (v.dev.seam (4 * h.val + l / 3)).at (l % 3) = some 12) ∧
    (good 12 → (∀ j, j < 12 → good j) → (v.dev.lane (laneKey h 12)).st = .spare) ∧
    (¬ good 12 → (v.dev.lane (laneKey h 12)).st = .failed) ∧
    bitAt v.dev.sys.avail h = (hobPasses w h r && r.bellowsOk) ∧
    (∀ j, j < 4 →
      let y := v.dev.seam (4 * h.val + j)
      (y.mode = .halted ↔ hobPasses w h r = false ∨ r.bellowsOk = false ∨ bitAt r.seams j = true ∨ y.filled.length < 2) ∧
      (y.mode = .tmr → y.filled.length = 3)) := by
  intro good
  obtain ⟨slots, lanes, avail⟩ := seats_iff.mp seats
  obtain ⟨home, spare, able, -, -⟩ := startupTest_leaves (w := w) (h := h) (r := r)
  have lane (j : Nat) : v.dev.lane (laneKey h j) = (w.startupTest h r).dev.lane (laneKey h j) := by rw [Dev.lane, Dev.lane, lanes]
  refine ⟨fun l low => (lane l).symm ▸ home l low, fun l low fit fails first => ?_, fun fit all => ?_, fun bad => ?_, ?_, fun j low => ?_⟩
  · have bad : (!!bitAt r.lanes l) = true := by simpa [good] using fails
    have found : ((List.range 12).filter fun l => !!bitAt r.lanes l).head? = some l :=
      head?_failed low bad fun j below => by rw [first j below]; rfl
    constructor
    · have some_ : ((List.range 12).filter fun l => bitAt r.lanes l).isEmpty = false := by
        cases none_ : (List.range 12).filter fun l => bitAt r.lanes l with
        | nil => simp [none_] at found
        | cons _ _ => rfl
      rw [lane, spare, fit, some_]
      rfl
    · obtain ⟨x, seam⟩ := startupTest_slots (w := w) (h := h) (r := r) (j := l / 3) (by omega)
      have stands : patched r = some l := (if_pos (by rw [show bitAt r.lanes 12 = false from fit]; rfl)).trans found
      have off : ¬ (!bitAt r.lanes l) = true := by simpa using bad
      rw [at_seamPart ((slots _).trans seam), placed_at (by omega), Nat.div_add_mod, stands, if_neg off, if_pos rfl]
  · have none_ : ((List.range 12).filter fun l => bitAt r.lanes l).isEmpty = true := by
      rw [List.isEmpty_iff, List.filter_eq_nil_iff]
      intro j mem
      rw [all j (List.mem_range.mp mem)]
      exact Bool.false_ne_true
    rw [lane, spare, fit, none_]
    rfl
  · rw [lane, spare, if_pos (by simpa [good] using bad)]
  · rw [avail, able, bitAt_setBit h.isLt]
    rfl
  · obtain ⟨x, seam⟩ := startupTest_slots (w := w) (h := h) (r := r) low
    have same := (slots _).trans seam
    obtain ⟨halts, three⟩ := placed_mode (r := r) (avail := hobPasses w h r && r.bellowsOk) (ok := fun l => !bitAt r.lanes l) (patch := patched r)
      (j := j) (x := x)
    intro y
    dsimp only [y]
    rw [mode_seamPart same, filled_seamPart same, halts, Bool.and_eq_false_iff, or_assoc]
    exact ⟨Iff.rfl, three⟩

theorem bellowsSlice_still {h : HearthId} {pass : Bool}
    (away : ¬ (pass = true ∧ (s.dev.bu h).segs = some 120 ∨ pass = false ∧ (s.dev.bu h).segs.isSome = true)) :
    Answers (.bellowsSliceComplete h pass) s (Only s · id) := by
  have row : exec (.bellowsSliceComplete h pass) s = .next (stateOf s s.world) := next_of (if_neg away)
  exact ⟨_, row, rfl⟩

theorem startupTest_still {h : HearthId} {r : StartupResult}
    (kindle : ¬ (s.dev.sys.mode = .kindle ∧ bitAt s.dev.sys.tested h = false ∧ s.dev.sys.kindleErr = 0 ∧
      3 ∈ s.dev.sys.stepsDone ∧ 4 ∈ s.dev.sys.stepsDone))
    (reset : ¬ (s.dev.sys.mode ≠ .kindle ∧ s.world.pendsOf 0x0307 h ≠ [])) : Answers (.startupTestComplete h r) s (Only s · id) := by
  have row : exec (.startupTestComplete h r) s = .next (stateOf s s.world) := by
    by_cases mode : s.dev.sys.mode = .kindle
    · refine next_of ((if_pos mode).trans (if_pos ?_))
      show (bitAt s.dev.sys.tested h || s.dev.sys.kindleErr != 0 || !([3, 4] : List Nat).all s.dev.sys.stepsDone.contains) = true
      by_contra good
      simp only [Bool.or_eq_true, bne_iff_ne, ne_eq, not_or, Bool.not_eq_true, Decidable.not_not, Bool.not_eq_false', List.all_cons,
        List.all_nil, Bool.and_true, Bool.and_eq_true, List.contains_iff_mem] at good
      obtain ⟨⟨untested, none_⟩, three, four⟩ := good
      exact kindle ⟨mode, untested, none_, three, four⟩
    · refine next_of ((if_neg mode).trans (if_pos ?_))
      show (s.world.pendsOf 0x0307 h).isEmpty = true
      rw [List.isEmpty_iff]
      by_contra some_
      exact reset ⟨mode, some_⟩
  exact ⟨_, row, rfl⟩

theorem startupTest_reset {h : HearthId} {r : StartupResult} (other : s.dev.sys.mode ≠ .kindle) (pends : s.world.pendsOf 0x0307 h ≠ []) :
    ∃ v, exec (.startupTestComplete h r) s = .next (stateOf s v) ∧ Seats (s.world.startupTest h r) v := by
  refine ⟨_, next_of ((if_neg other).trans (if_neg (by simpa using pends))), ?_⟩
  dsimp only
  refine Seats.trans (.finishAll (.each seats_loadHearth fun k w => ?_)) seats_settleRun
  split
  · next starts =>
    rw [Bool.and_eq_true] at starts
    exact .startCore .refl (canStart_lt _ _ starts.2)
  · exact .refl

/-- Settles O24: the test of a lane and of a bellows, the limit of a target and the start-up test of a hearth, each by its own lemmas. -/
theorem testEnds : Obligations.TestEnds := by
  intro s u l pass ok h r target d x p k slot row q record segs
  refine ⟨fun away => ⟨_, next_of (if_neg away), rfl⟩, fun there basting test => ⟨_, slice_ends basting, logged_testEnd_restart test⟩,
    fun there basting test full fails => ?_, fun there basting test good => ?_, bellowsSlice_still,
    fun passes segs => ?_, fun fails segs => ?_, ?_, startupTest_still, fun kindle => ?_, fun reset => ?_⟩
  · subst fails
    obtain ⟨failed, log, told⟩ := testEnd_fails (s := s) (u := u) (l := l) (ok := ok) test full
    have ends := slice_ends (pass := false) (ok := ok) basting
    generalize s.world.testEnd u l false ok = z at failed log told ends
    exact ⟨_, ends, failed, log, told⟩
  · obtain ⟨fences, leaves⟩ := testEnd_passes (w := s.world) (u := u) (l := l) (pass := pass) (ok := ok) test good
    have ends := slice_ends (pass := pass) (ok := ok) basting
    generalize s.world.testEnd u l pass ok = z at fences leaves ends
    refine ⟨_, ends, fences, ?_⟩
    by_cases patch : l.val = patchOf u
    · rw [if_pos patch] at leaves ⊢
      exact leaves
    · have own : slot = homeSlot u l := if_neg patch
      rw [if_neg patch] at leaves ⊢
      rw [own]
      by_cases halted : (s.world.dev.seam (homeCore u l)).mode = .halted
      · rw [if_pos halted] at leaves
        exact (if_pos halted).mpr leaves
      · rw [if_neg halted] at leaves
        exact (if_neg halted).mpr ⟨leaves.1, leaves.2.1⟩
  · subst passes
    exact bellowsSlice_passes segs
  · subst fails
    exact bellowsSlice_fails segs
  · intro fits
    split
    · next told => exact basteOverdue_told told
    · next still => exact basteOverdue_still still
  · obtain ⟨kindle, untested, good, three, four⟩ := kindle
    refine ⟨_, startupTest_kindle kindle untested good three four, ?_, bitAt_setBit h.isLt, fun all => ?_⟩
    · have leaves := startup_leaves (w := s.world) (h := h) (r := r) (v := (s.world.startupTest h r).upd fun d =>
        let t := setBit d.sys.tested h true
        { d with sys := { d.sys with tested := t, stepsDone := if t = 0xFFFF then 6 :: d.sys.stepsDone else d.sys.stepsDone } }) (.upd .refl)
      unfold hobPasses at leaves
      exact leaves
    · have done : (if setBit (s.world.startupTest h r).dev.sys.tested h true = 0xFFFF then 6 :: (s.world.startupTest h r).dev.sys.stepsDone
          else (s.world.startupTest h r).dev.sys.stepsDone) = 6 :: (s.world.startupTest h r).dev.sys.stepsDone := if_pos all
      show 6 ∈ (if setBit (s.world.startupTest h r).dev.sys.tested h true = 0xFFFF then _ else _)
      rw [done]
      exact List.mem_cons_self
  · obtain ⟨v, row, seats⟩ := startupTest_reset reset.1 reset.2
    have leaves := startup_leaves (v := v) seats
    unfold hobPasses at leaves
    exact ⟨_, row, leaves⟩

end Sys2Proof.Proofs
end

section
/-! The debug access port (R59, R181, R317). -/

namespace Sys2Proof.Proofs

open Machine Laws

set_option Elab.async false

variable {s : State} {w v : W} {u a k n : Nat} {m : Rid}

/-- The identity of the debug access port is of class 7. -/
theorem ridClass_debug : ridClass w.debugRid = 7 := by
  have pos := w.dev.chim.pos.isLt
  simp only [ridClass, W.debugRid, W.rid, fld, BitVec.toNat_ofNat, Nat.shiftRight_eq_div_pow, Bool.toNat_false]
  omega

/-- What a refused access of the debug port answers (R181). -/
theorem respond_debug {e : Nat} (debug : ridClass m = 7) : w.respond m 4 true (.err e) = w.answer (.word 0x0BAD0BAD) ∧
    w.respond m 4 false (.err e) = w.answer .done := by
  constructor <;> simp only [W.respond, refused, debug, if_true, Bool.false_eq_true, if_false]
  rfl

/-- DEBUG_DENIED, its memory where no cutover stands, and what it leaves beside. -/
theorem denied_after {d0 d1 : Word32} {f : Dev → Dev} (calm : Quiescent s w) (ops : w.ops = []) (cut : w.dev.images.cut = s.dev.images.cut)
    (clock : w.dev.clock = s.dev.clock) (same : untouched w.dev = untouched (f s.dev)) :
    Detected s (stateOf s (w.raise 0x1B3 d0 d1)) 0x1B3 d0 d1 s.dev.clock.tb ∧
    (s.dev.images.cut = none → (w.raise 0x1B3 d0 d1).ops = []) ∧ Beside s (stateOf s (w.raise 0x1B3 d0 d1)) f := by
  have told := detected_raise (n := 0x1B3) (d0 := d0) (d1 := d1) calm (by unfold Plain Noted; decide) rfl
  rw [clock] at told
  refine ⟨told, fun none_ => ?_, beside_of_kept (kept_raise _ _ _ _ _ _) same⟩
  exact (((contained_raise (t := True) (.inl trivial)).calm (cut.trans none_)).ops).trans ops

theorem debugLife_iff : s.world.debugLife = true ↔
    s.fuse.lifecycle ≠ 4 ∧ (s.fuse.lifecycle = 2 → ∃ g ∈ s.dev.stoker.grants, g.typ = 15 ∧ g.signed = true ∧ bitAt g.rights 1 = true) := by
  unfold W.debugLife W.lifecycle
  simp only [Bool.and_eq_true, Bool.or_eq_true, bne_iff_ne, ne_eq, List.any_eq_true, beq_iff_eq, and_assoc]
  refine and_congr_right fun _ => ?_
  by_cases field : s.fuse.lifecycle = 2
  · simp [State.world, field]
  · simp [State.world, field]

theorem underDebug_iff {c : CoreId} : s.world.underDebug c = true ↔ s.world.debugLife = true ∧
    ∃ g ∈ s.dev.stoker.grants, bitAt g.rights 1 = true ∧
      (g.typ = 15 ∨ g.typ = 16 ∧ c.val < 64 ∧ (g.inst = none ∨ g.inst = some (c.val / 4))) := by
  unfold W.underDebug W.debugGrant
  simp [State.world, and_assoc]

/-! An access of the port. -/

theorem debug_still {addr : Addr} {wr : Option Word32} (off : s.dev.sys.mode = .off ∨ s.dev.sys.mode = .hold) :
    Answers (.debugAccess addr wr) s (Only s · id) := ⟨_, next_of (if_pos off), rfl⟩

/-- The world with these power domains. -/
def besidePower (w : W) (p : Tbl Domain) : W := w.upd fun d => { d with power := { d.power with doms := p } }

/-- The port's domain holds no hob. -/
theorem wakeDom_port : ∃ p, w.wakeDom 240 = besidePower w p := by
  unfold W.wakeDom
  split
  · exact ⟨w.dev.power.doms, rfl⟩
  · exact ⟨_, rfl⟩

theorem debug_row {addr : Addr} {wr : Option Word32} (off : ¬ (s.dev.sys.mode = .off ∨ s.dev.sys.mode = .hold)) :
    exec (.debugAccess addr wr) s = .next (stateOf s (
      let w := s.world.wakeDom 240
      let (r, w) := if w.debugLife then w.access s.world.debugRid addr.toNat 4 (match wr with
          | some v => .write (le 4 v.toNat)
          | none => .read)
        else (.err eFirewall, w.raiseAddr 0x1B3 addr s.world.debugRid)
      w.respond s.world.debugRid 4 wr.isNone r)) := next_of (if_neg off)

/-- An access that the life cycle refuses. -/
theorem debug_denied {addr : Addr} {wr : Option Word32} (off : ¬ (s.dev.sys.mode = .off ∨ s.dev.sys.mode = .hold))
    (life : s.world.debugLife = false) : Answers (.debugAccess addr wr) s fun t =>
      Detected s t 0x1B3 (w32 (addr.toNat % 2 ^ 32)) (w32 (addr.toNat / 2 ^ 32 + 65536 * s.world.debugRid.toNat)) s.dev.clock.tb ∧
      t.dev.out = (if wr.isNone then .word 0x0BAD0BAD else .done) ∧ (s.dev.images.cut = none → t.mem = s.mem) ∧ Beside s t id := by
  obtain ⟨p, woken⟩ := wakeDom_port (w := s.world)
  have refuses : (besidePower s.world p).debugLife = false := life
  have row := debug_row (addr := addr) (wr := wr) off
  rw [woken] at row
  dsimp only at row
  rw [refuses, if_neg Bool.false_ne_true] at row
  dsimp only at row
  have told := denied_after (s := s) (w := besidePower s.world p) (d0 := (addrDetail addr s.world.debugRid).1)
    (d1 := (addrDetail addr s.world.debugRid).2) (f := id) ⟨rfl, rfl, rfl, rfl, rfl, rfl⟩ rfl rfl rfl rfl
  obtain ⟨src, mem, beside⟩ := told
  have debug : ridClass s.world.debugRid = 7 := ridClass_debug
  unfold W.raiseAddr at row
  generalize (besidePower s.world p).raise 0x1B3 (addrDetail addr s.world.debugRid).1 (addrDetail addr s.world.debugRid).2 = z at row src mem beside
  have details : addrDetail addr s.world.debugRid =
      (w32 (addr.toNat % 2 ^ 32), w32 (addr.toNat / 2 ^ 32 + 65536 * s.world.debugRid.toNat)) := by
    rw [addrDetail, at_, Nat.mul_comm]
    rfl
  rw [details] at src
  cases wr with
  | none =>
    have answered := (respond_debug (w := z) (e := eFirewall) debug).1
    rw [show (none : Option Word32).isNone = true from rfl, answered] at row
    exact ⟨_, row, src, rfl, fun none_ => congrArg s.mem.applyAll (mem none_), beside⟩
  | some v =>
    have answered := (respond_debug (w := z) (e := eFirewall) debug).2
    rw [show (some v).isNone = false from rfl, answered] at row
    exact ⟨_, row, src, rfl, fun none_ => congrArg s.mem.applyAll (mem none_), beside⟩

/-- An access to a hob leaves the power domains that it found, and moves a pointer. -/
def portDev (s : State) (p : Tbl Domain) (u k : Nat) (a : Answer) : Dev :=
  { (({ s.dev with power := { s.dev.power with doms := p } } : Dev).onHob u fun h => { h with ptr := (k + 1) % hobMasters u }) with out := a }

theorem portDev_ptrs {p : Tbl Domain} {x : Nat} {a : Answer} :
    (portDev s p u k a).hob x = { s.dev.hob x with ptr := ((portDev s p u k a).hob x).ptr } := ptrsOnly_onHob _ _

theorem portDev_beside {p : Tbl Domain} {a : Answer} :
    portDev s p u k a = { (besidePower s.world p).dev with out := a, hobs := (portDev s p u k a).hobs } := rfl

/-- A word of a hob that the port reaches. -/
theorem debug_reads {addr : Addr} (off : ¬ (s.dev.sys.mode = .off ∨ s.dev.sys.mode = .hold)) (life : s.world.debugLife = true)
    (reached : Reaches (s.world.wakeDom 240) s.world.debugRid u addr.toNat 4 .read) :
    Answers (.debugAccess addr none) s fun t => t.pending = s.pending ∧ t.fuse = s.fuse ∧ t.mem = s.mem ∧ PtrsOnly s t ∧
      t.dev = { (s.world.wakeDom 240).dev with out := .word (w64 (hobWord s addr.toNat 4)), hobs := t.dev.hobs } := by
  have row := debug_row (addr := addr) (wr := none) off
  obtain ⟨p, woken⟩ := wakeDom_port (w := s.world)
  rw [woken] at row reached ⊢
  have admits : (besidePower s.world p).debugLife = true := life
  dsimp only at row
  rw [admits, if_pos rfl, access_read_of_reaches reached] at row
  have value : (besidePower s.world p).bytes addr.toNat 4 = s.world.bytes addr.toNat 4 := rfl
  have answered (z : W) : z.respond s.world.debugRid 4 true (.data (s.world.bytes addr.toNat 4)) = z.answer (.word (w64 (hobWord s addr.toNat 4))) := by
    have short : (s.world.bytes addr.toNat 4).length ≤ 8 := by rw [length_bytes]; decide
    unfold W.respond
    dsimp only
    rw [if_pos short]
    rfl
  dsimp only at row
  rw [value, show (none : Option Word32).isNone = true from rfl, answered] at row
  generalize hobMaster (besidePower s.world p).dev.chim.pos u s.world.debugRid = k at row
  have dev : ((besidePower s.world p).granted u k |>.answer (.word (w64 (hobWord s addr.toNat 4)))).dev =
      portDev s p u k (.word (w64 (hobWord s addr.toNat 4))) := rfl
  generalize reached' : (((besidePower s.world p).granted u k).answer (.word (w64 (hobWord s addr.toNat 4)))) = z at row dev
  have ops : z.ops = [] := by
    rw [← reached']
    rfl
  refine ⟨_, row, rfl, rfl, congrArg s.mem.applyAll ops, fun x => ?_, ?_⟩
  · rw [stateOf_dev, dev]
    exact portDev_ptrs
  · rw [stateOf_dev, dev]
    exact portDev_beside

theorem debug_writes {addr : Addr} {v : Word32} (off : ¬ (s.dev.sys.mode = .off ∨ s.dev.sys.mode = .hold)) (life : s.world.debugLife = true)
    (reached : Reaches (s.world.wakeDom 240) s.world.debugRid u addr.toNat 4 .write) :
    Answers (.debugAccess addr (some v)) s fun t => t.pending = s.pending ∧ t.fuse = s.fuse ∧ StoresAt s t addr.toNat 4 v.toNat ∧ PtrsOnly s t ∧
      t.dev = { (s.world.wakeDom 240).dev with out := .done, hobs := t.dev.hobs } := by
  have row := debug_row (addr := addr) (wr := some v) off
  obtain ⟨p, woken⟩ := wakeDom_port (w := s.world)
  rw [woken] at row reached ⊢
  have admits : (besidePower s.world p).debugLife = true := life
  dsimp only at row
  rw [admits, if_pos rfl, access_write_of_reaches reached (length_le ..)] at row
  dsimp only at row
  have answered (z : W) : z.respond s.world.debugRid 4 (some v).isNone .done = z.answer .done := rfl
  rw [answered] at row
  generalize hobMaster (besidePower s.world p).dev.chim.pos u s.world.debugRid = k at row
  have dev : ((written (written ((besidePower s.world p).granted u k) addr.toNat (le 4 v.toNat)) (addr.toNat + 4) []).answer .done).dev =
      portDev s p u k .done := rfl
  generalize reached' : (written (written ((besidePower s.world p).granted u k) addr.toNat (le 4 v.toNat)) (addr.toNat + 4) []).answer .done = z
    at row dev
  have ops : z.ops = [.put (addr.toNat + 4) [], .put addr.toNat (le 4 v.toNat)] := by
    rw [← reached']
    rfl
  have stored : (stateOf s z).mem = Memory.setAll s.mem addr.toNat (le 4 v.toNat) := congrArg s.mem.applyAll ops
  refine ⟨_, row, rfl, rfl, storesAt_put stored, fun x => ?_, ?_⟩
  · rw [stateOf_dev, dev]
    exact portDev_ptrs
  · rw [stateOf_dev, dev]
    exact portDev_beside

theorem upd_eq {f g : Dev → Dev} (same : f w.dev = g w.dev) : w.upd f = w.upd g := by rw [W.upd, W.upd, same]

/-! A halt request, and the end of a halt (R317). -/

theorem halt_denied {c : CoreId} (refused : s.world.underDebug c = false) : Answers (.debugHaltRequest c) s fun t =>
    (∃ d0 d1, Detected s t 0x1B3 d0 d1 s.dev.clock.tb) ∧ (s.dev.images.cut = none → t.mem = s.mem) ∧
      Beside s t fun d => { d with free := d.free + 1 } := by
  have row : exec (.debugHaltRequest c) s = .next (stateOf s s.world.debugDenied) := next_of (if_pos refused)
  unfold W.debugDenied W.raiseAddr at row
  dsimp only [W.fresh] at row
  obtain ⟨told, mem, beside⟩ := denied_after (s := s) (w := s.world.upd fun d => { d with free := d.free + 1 })
    (d0 := (addrDetail (BitVec.ofNat 48 (Config.freeWord s.world.dev.free).toNat) (s.world.upd fun d => { d with free := d.free + 1 }).debugRid).1)
    (d1 := (addrDetail (BitVec.ofNat 48 (Config.freeWord s.world.dev.free).toNat) (s.world.upd fun d => { d with free := d.free + 1 }).debugRid).2)
    (f := fun d => { d with free := d.free + 1 }) ⟨rfl, rfl, rfl, rfl, rfl, rfl⟩ rfl rfl rfl rfl
  generalize (s.world.upd fun d => { d with free := d.free + 1 }).raise 0x1B3 _ _ = z at row told mem beside
  exact ⟨_, row, ⟨_, _, told⟩, fun none_ => congrArg s.mem.applyAll (mem none_), beside⟩

section
variable {c : CoreId}

theorem halt_row (under : s.world.underDebug c = true) (run : (s.dev.core c).run = true) : exec (.debugHaltRequest c) s =
    .next (stateOf s ((s.world.upd fun d => d.onCore c fun q => { q with dbgReq := !q.dbg }).takeDebug c)) :=
  next_of ((if_neg (by rw [under]; exact Bool.noConfusion)).trans (if_pos run))

theorem halt_still (under : s.world.underDebug c = true) (held : (s.dev.core c).run = false) :
    Answers (.debugHaltRequest c) s (Only s · id) :=
  ⟨_, next_of ((if_neg (by rw [under]; exact Bool.noConfusion)).trans (if_neg (Bool.eq_false_iff.mp held))), rfl⟩

/-- The core with its request made, where none is taken. -/
theorem halt_waits {b : Bool} (under : s.world.underDebug c = true) (run : (s.dev.core c).run = true) (dbg : (s.dev.core c).dbg = !b)
    (waits : b = false ∨ (s.dev.seam c).rethread.isSome = true) :
    Answers (.debugHaltRequest c) s (Only s · fun d => d.onCore c fun q => { q with dbgReq := b }) := by
  have asked : (s.world.upd fun d => d.onCore c fun q => { q with dbgReq := !q.dbg }) =
      s.world.upd fun d => d.onCore c fun q => { q with dbgReq := b } := by
    refine upd_eq (onCore_congr ?_)
    rw [show (s.world.dev.core c).dbg = !b from dbg, Bool.not_not]
  have unasked : ¬ (((s.world.upd fun d => d.onCore c fun q => { q with dbgReq := b }).dev.core c).dbgReq &&
      ((s.world.upd fun d => d.onCore c fun q => { q with dbgReq := b }).dev.core c).run && (s.dev.seam c).rethread.isNone) = true := by
    rw [upd_dev, core_onCore_self]
    show ¬ (b && (s.dev.core c).run && (s.dev.seam c).rethread.isNone) = true
    rcases waits with rfl | some_
    · simp
    · rw [Option.isNone_eq_false_iff.mpr some_]
      simp
  have row : exec (.debugHaltRequest c) s = .next (stateOf s (s.world.upd fun d => d.onCore c fun q => { q with dbgReq := b })) := by
    refine (halt_row under run).trans (next_of ?_)
    rw [asked]
    refine if_neg ?_
    exact unasked
  exact ⟨_, row, rfl⟩

end

/-! The watchdog of a core that a debugger halts or lets go on (R317). -/

/-- The watchdog stands, or goes on where it stood. -/
def heldWdt (ivl : Word64) (mode : SeamMode) (t : Wdt) : Wdt :=
  if t.st = .off then { t with frozen := false, susp := false }
  else if t.frozen ∨ t.susp ∨ mode = .halted then (if t.paused.isSome then t else { t with paused := some ivl })
  else match t.paused with
    | some p => { t with start := t.start + (ivl - p), paused := none }
    | none => t

/-- The watchdog under FRZ_DBG. -/
def frozenWdt (on : Bool) (t : Wdt) : Wdt := { t with frozen := on && t.st != WdtSt.off && bitAt t.ctl 51 }

/-- The world with these watchdogs. -/
def besideWdts (w : W) (t : Tbl Wdt) : W := w.upd fun d => { d with wdts := t }

/-- FRZ_DBG changes one watchdog, and WDT_HELD follows. -/
theorem wdtFreeze_eq {on : Bool} : ∃ t, w.wdtFreeze k on = (besideWdts w t).wdtHeld ∧
    (besideWdts w t).dev.wdt k = heldWdt w.dev.clock.ivl (w.dev.seam k).mode (frozenWdt on (w.dev.wdt k)) ∧
    ∀ j, j ≠ k → (besideWdts w t).dev.wdt j = w.dev.wdt j := by
  let frozen := w.dev.wdts.set k (frozenWdt on (w.dev.wdt k))
  refine ⟨frozen.set k (heldWdt w.dev.clock.ivl (w.dev.seam k).mode (frozen.getD k {})), rfl, ?_, fun j ne => ?_⟩
  · show (frozen.set k (heldWdt w.dev.clock.ivl (w.dev.seam k).mode (frozen.getD k {}))).getD k {} = _
    rw [getD_set, if_pos rfl, getD_set, if_pos rfl]
  · show (frozen.set k (heldWdt w.dev.clock.ivl (w.dev.seam k).mode (frozen.getD k {}))).getD j {} = _
    rw [getD_set, if_neg ne, getD_set, if_neg ne]
    rfl

theorem wdtHeld_kept : Kept w w.wdtHeld := by
  unfold W.wdtHeld
  split
  · exact kept_level
  · split
    · exact kept_inactive
    · exact .refl w

theorem contained_wdtHeld {t : Prop} (ok : Traces t w) : Contained t w w.wdtHeld := by
  unfold W.wdtHeld
  split
  · exact contained_level ok
  · exact .ite _ contained_inactive (.refl w)

theorem wdts_wdtHeld : w.wdtHeld.dev.wdts = w.dev.wdts := congrArg (fun d => d.wdts) wdtHeld_kept.1

theorem frozen_heldWdt {ivl : Word64} {mode : SeamMode} {t : Wdt} (stands : t.st ≠ .off) : (heldWdt ivl mode t).frozen = t.frozen ∧
    (heldWdt ivl mode t).susp = t.susp := by
  unfold heldWdt
  rw [if_neg stands]
  split
  · split <;> exact ⟨rfl, rfl⟩
  · split <;> exact ⟨rfl, rfl⟩

/-- Where WDT_HELD is told, its following reaches nothing but the error pin. -/
theorem cores_wdtHeld (held : HeldTold w) : w.wdtHeld.dev.cores = w.dev.cores := by
  unfold W.wdtHeld
  split
  · next k found =>
    have holds := List.find?_some found
    have low : k < 65 := List.mem_range.mp (List.mem_of_find?_eq_some found)
    rcases held with none_ | on
    · rw [(none_ k low).1, (none_ k low).2] at holds
      exact absurd holds Bool.false_ne_true
    · rw [W.level, if_pos on]
  · split
    · obtain ⟨same, -⟩ := fixed_errAuto (w := w.upd fun d => d.onSrc 0x0C5 fun x => { x with active := false })
      simp only [fixed, Prod.mk.injEq] at same
      obtain ⟨-, -, cores, -⟩ := same
      exact cores
    · rfl

theorem heldWdt_stands {ivl : Word64} {mode : SeamMode} {t : Wdt} (stands : t.st ≠ .off) (frozen : t.frozen = true) :
    (heldWdt ivl mode t).paused = some (t.paused.getD ivl) := by
  unfold heldWdt
  rw [if_neg stands, if_pos (.inl frozen)]
  cases paused : t.paused <;> simp [paused]

theorem heldWdt_goes {ivl : Word64} {mode : SeamMode} {t : Wdt} (stands : t.st ≠ .off) (free : t.frozen = false) (alone : t.susp = false)
    (runs : mode ≠ .halted) : (heldWdt ivl mode t).paused = none ∧ ∀ p, t.paused = some p → (heldWdt ivl mode t).start = t.start + (ivl - p) := by
  unfold heldWdt
  rw [if_neg stands, if_neg (by simp [free, alone, runs])]
  cases paused : t.paused with
  | none => exact ⟨paused, fun p some_ => by cases some_⟩
  | some p =>
    refine ⟨rfl, fun q some_ => ?_⟩
    obtain rfl := Option.some.inj some_
    rfl

theorem heldWdt_free {ivl : Word64} {mode : SeamMode} {t : Wdt} (free : t.frozen = false) :
    (heldWdt ivl mode t).frozen = false ∧ (t.susp = false → (heldWdt ivl mode t).susp = false) := by
  by_cases off : t.st = .off
  · unfold heldWdt
    rw [if_pos off]
    exact ⟨rfl, fun _ => rfl⟩
  · obtain ⟨frozen, susp⟩ := frozen_heldWdt (ivl := ivl) (mode := mode) off
    exact ⟨frozen.trans free, susp.trans⟩

theorem wdtHeld_levels {x : Nat} (low : x < 65) (held : (w.dev.wdt x).frozen = true) :
    ∃ d0 d1, w.wdtHeld = w.level 0x0C5 d0 d1 := by
  unfold W.wdtHeld
  split
  · exact ⟨_, _, rfl⟩
  · next none_ =>
    rw [List.find?_eq_none] at none_
    exact absurd (by rw [held]; rfl) (none_ x (List.mem_range.mpr low))

theorem levelDetected_active {t : State} {n : Nat} {d0 d1 : Word32} {tb : Word64} {row : SrcRow} (level : s.world.source n = some row)
    (active : row.level = true) (h : LevelDetected s t n d0 d1 tb) : (t.dev.src n).active = true := by
  unfold LevelDetected at h
  split at h
  · next on =>
    have src : t.dev.src n = s.dev.src n := h
    rw [src]
    exact on
  · obtain ⟨row', found, src⟩ := h
    obtain rfl := Option.some.inj (level.symm.trans found)
    rw [src, active]
    unfold Src.after
    dsimp only
    split <;> rfl

theorem core_besideWdts {t : Tbl Wdt} : (besideWdts w t).dev.core k = w.dev.core k := rfl

/-- A core that a debugger halts. -/
def haltedCore (q : Core) : Core := { q with dbgReq := false, dbg := true, wait := .awake }

/-- A core that a debugger lets go on. -/
def goingCore (q : Core) : Core := { q with dbg := false }

section
variable {c : CoreId}

/-- A halt request that is taken. -/
theorem halt_taken (under : s.world.underDebug c = true) (run : (s.dev.core c).run = true) (dbg : (s.dev.core c).dbg = false)
    (free : (s.dev.seam c).rethread = none) (cut : s.dev.images.cut = none) (off : bitAt (s.world.reg 2 0 0x34) 24 = false) :
    Answers (.debugHaltRequest c) s fun t =>
      t.dev.core c = { s.dev.core c with dbgReq := false, dbg := true, wait := .awake } ∧
      ((s.dev.wdt c).st ≠ .off → (t.dev.wdt c).frozen = bitAt (s.dev.wdt c).ctl 51) ∧
      ((s.dev.wdt c).st ≠ .off → bitAt (s.dev.wdt c).ctl 51 = true →
        (t.dev.wdt c).paused = some ((s.dev.wdt c).paused.getD s.dev.clock.ivl) ∧ (t.dev.src 0x0C5).active = true) := by
  have row := halt_row under run
  have asked : (s.world.upd fun d => d.onCore c fun q => { q with dbgReq := !q.dbg }).dev.core c = { s.dev.core c with dbgReq := true } := by
    rw [upd_dev, core_onCore_self]
    show ({ s.dev.core c with dbgReq := !(s.dev.core c).dbg } : Core) = _
    rw [dbg]
    rfl
  generalize reached : (s.world.upd fun d => d.onCore c fun q => { q with dbgReq := !q.dbg }) = v at row asked
  have takes : ((v.dev.core c).dbgReq && (v.dev.core c).run && (v.dev.seam c).rethread.isNone) = true := by
    rw [asked, ← reached]
    show (true && (s.dev.core c).run && (s.dev.seam c).rethread.isNone) = true
    rw [run, free]
    rfl
  have taken : v.takeDebug c = (v.upd fun d => d.onCore c haltedCore).wdtFreeze c true :=
    if_pos takes
  obtain ⟨t, same, own, -⟩ := wdtFreeze_eq (w := v.upd fun d => d.onCore c haltedCore)
    (k := c) (on := true)
  rw [taken, same] at row
  have core : (besideWdts (v.upd fun d => d.onCore c haltedCore) t).dev.core c =
      { s.dev.core c with dbgReq := false, dbg := true, wait := .awake } := by
    rw [core_besideWdts, upd_dev, core_onCore_self, asked]
    rfl
  have wdt : (besideWdts (v.upd fun d => d.onCore c haltedCore) t).dev.wdt c =
      heldWdt s.dev.clock.ivl (s.dev.seam c).mode (frozenWdt true (s.dev.wdt c)) := by
    rw [own, ← reached]
    rfl
  have calm : Quiescent s (besideWdts (v.upd fun d => d.onCore c haltedCore) t) := by
    rw [← reached]
    exact ⟨rfl, rfl, rfl, rfl, rfl, rfl⟩
  have cut' : (besideWdts (v.upd fun d => d.onCore c haltedCore) t).dev.images.cut = none := by
    rw [← reached]
    exact cut
  have off' : TraceOff (besideWdts (v.upd fun d => d.onCore c haltedCore) t) := by
    rw [← reached]
    exact off
  generalize besideWdts (v.upd fun d => d.onCore c haltedCore) t = z at row core wdt calm cut' off'
  have after : z.wdtHeld.dev.wdt c = heldWdt s.dev.clock.ivl (s.dev.seam c).mode (frozenWdt true (s.dev.wdt c)) := by
    rw [Dev.wdt, wdts_wdtHeld]
    exact wdt
  refine ⟨_, row, ?_, fun stands => ?_, fun stands freezes => ?_⟩
  · have kept := ((contained_wdtHeld (t := False) (.inr off')).calm cut').cores c (by rw [core]; exact run) (.inr (by rw [core]))
    exact (kept.same not_false).trans core
  · rw [stateOf_dev, after, (frozen_heldWdt (t := frozenWdt true (s.dev.wdt c)) stands).1, frozenWdt]
    simp [stands]
  · have frozen : (frozenWdt true (s.dev.wdt c)).frozen = true := by simp [frozenWdt, stands, freezes]
    constructor
    · rw [stateOf_dev, after, heldWdt_stands (t := frozenWdt true (s.dev.wdt c)) stands frozen]
      rfl
    · obtain ⟨d0, d1, level⟩ := wdtHeld_levels (w := z) (x := c) c.isLt (by rw [wdt, (frozen_heldWdt (t := frozenWdt true (s.dev.wdt c)) stands).1, frozen])
      rw [level]
      exact levelDetected_active (s := s) (n := 0x0C5) rfl rfl (levelDetected_level calm (by unfold Plain Noted; decide) rfl)

/-- The end of a halt. -/
theorem debug_resumes (dbg : (s.dev.core c).dbg = true) (held : HeldTold s.world) : Answers (.debugResume c) s fun t =>
    t.dev.core c = { s.dev.core c with dbg := false } ∧ (t.dev.wdt c).frozen = false ∧
    ((s.dev.wdt c).st ≠ .off → (s.dev.wdt c).susp = false → (s.dev.seam c).mode ≠ .halted → (t.dev.wdt c).paused = none ∧
      ∀ p, (s.dev.wdt c).paused = some p → (t.dev.wdt c).start = (s.dev.wdt c).start + (s.dev.clock.ivl - p)) := by
  have row : exec (.debugResume c) s = .next (stateOf s ((s.world.upd fun d => d.onCore c goingCore).wdtFreeze c false)) :=
    next_of (if_pos dbg)
  obtain ⟨t, same, own, others⟩ := wdtFreeze_eq (w := s.world.upd fun d => d.onCore c goingCore) (k := c) (on := false)
  rw [same] at row
  have core : (besideWdts (s.world.upd fun d => d.onCore c goingCore) t).dev.core c = { s.dev.core c with dbg := false } := by
    rw [core_besideWdts, upd_dev, core_onCore_self]
    rfl
  have wdt : (besideWdts (s.world.upd fun d => d.onCore c goingCore) t).dev.wdt c =
      heldWdt s.dev.clock.ivl (s.dev.seam c).mode (frozenWdt false (s.dev.wdt c)) := own
  have others' (j : Nat) (ne : j ≠ c) : (besideWdts (s.world.upd fun d => d.onCore c goingCore) t).dev.wdt j = s.dev.wdt j :=
    others j ne
  have active : (besideWdts (s.world.upd fun d => d.onCore c goingCore) t).active 0x0C5 = s.world.active 0x0C5 := rfl
  generalize besideWdts (s.world.upd fun d => d.onCore c goingCore) t = z at row core wdt others' active
  have free : (frozenWdt false (s.dev.wdt c)).frozen = false := rfl
  obtain ⟨frozen, susp⟩ := heldWdt_free (ivl := s.dev.clock.ivl) (mode := (s.dev.seam c).mode) free
  have tells : HeldTold z := by
    refine held.imp (fun none_ k low => ?_) fun on => active.trans on
    by_cases own : k = c
    · rw [own, wdt]
      exact ⟨frozen, susp (none_ c c.isLt).2⟩
    · rw [others' k own]
      exact none_ k low
  have cores := cores_wdtHeld tells
  clear tells active others'
  have after : z.wdtHeld.dev.wdt c = heldWdt s.dev.clock.ivl (s.dev.seam c).mode (frozenWdt false (s.dev.wdt c)) := by
    rw [Dev.wdt, wdts_wdtHeld]
    exact wdt
  refine ⟨_, row, ?_, ?_, fun stands alone runs => ?_⟩
  · rw [stateOf_dev, Dev.core, cores]
    exact core
  · rw [stateOf_dev, after, frozen]
  · rw [stateOf_dev, after]
    exact heldWdt_goes (t := frozenWdt false (s.dev.wdt c)) stands free alone runs

end

/-- Settles O30: an access of the port, a halt request and the end of a halt, each by its own lemmas. -/
theorem debugPort : Obligations.DebugPort := by
  intro s addr v c u w a off signed life covers q x denied d1
  have lives : s.world.debugLife = true ↔ life := debugLife_iff
  have under : s.world.underDebug c = true ↔ life ∧ covers := underDebug_iff.trans (and_congr_left fun _ => lives)
  refine ⟨fun off => ⟨debug_still off, debug_still off⟩, fun on dead => ?_, ?_⟩
  · have life : s.world.debugLife = false := Bool.eq_false_iff.mpr (mt lives.mp dead)
    obtain ⟨t, row, told, out, mem, beside⟩ := debug_denied (addr := addr) (wr := none) on life
    obtain ⟨t', row', told', out', mem', beside'⟩ := debug_denied (addr := addr) (wr := some v) on life
    exact ⟨⟨t, row, told, out, mem, beside⟩, ⟨t', row', told', out', mem', beside'⟩⟩
  · intro v0
    refine ⟨fun on life reached => debug_reads on (lives.mpr life) reached, fun on life reached => debug_writes on (lives.mpr life) reached,
      fun dead => halt_denied (Bool.eq_false_iff.mpr (mt under.mp dead)), fun life covers held => halt_still (under.mpr ⟨life, covers⟩) held,
      fun life covers run dbg => halt_waits (under.mpr ⟨life, covers⟩) run dbg (.inl rfl),
      fun life covers run dbg waits => halt_waits (under.mpr ⟨life, covers⟩) run dbg (.inr waits),
      fun life covers run dbg free cut off => halt_taken (under.mpr ⟨life, covers⟩) run dbg free cut off,
      fun none_ => ⟨_, next_of (if_neg (Bool.eq_false_iff.mp none_)), rfl⟩, fun dbg held => debug_resumes dbg held⟩

end Sys2Proof.Proofs
end

section
/-! The start of a base frame at the bellows (R230, R252, R256, R257): what it leaves of the clock, of the cores that run and of the
bellows whose frames have started. -/

namespace Sys2Proof.Proofs

open Machine Laws

set_option Elab.async false

variable {w v : W} {j h u n k : Nat}

/-- The address of the frame that OVERRUN names (R257). -/
def overrunKey (h : Nat) : Nat := blockBase 16 h + 0x608

/-- What the start of a frame at the bellows of hearth `j` leaves, where hearth `h` is concerned. -/
structure Chimes (j h : Nat) (a w : W) : Prop where
  clock : w.dev.clock = a.dev.clock
  due : w.dev.chim.stepDue = a.dev.chim.stepDue
  avail : w.dev.sys.avail = a.dev.sys.avail
  mode : MayTrip a w
  reg : w.dev.regs.val.get? (overrunKey h) = a.dev.regs.val.get? (overrunKey h)
  calm : a.dev.images.cut = none → w.dev.images.cut = none ∧
    ∀ k, (a.dev.core k).run = true → Pends (a.dev.core k) (w.dev.core k)
  frame : (w.dev.blw h).frame = (a.dev.blw h).frame
  count : (w.dev.blw h).ovrCnt = (a.dev.blw h).ovrCnt
  goes : (a.dev.blw h).phase ≠ .stopped → (w.dev.blw h).phase ≠ .stopped
  other : j ≠ h → blwPart (w.dev.blw h) = blwPart (a.dev.blw h)

theorem Chimes.refl : Chimes j h w w :=
  ⟨rfl, rfl, rfl, .refl, rfl, fun none_ => ⟨none_, fun _ run => .refl run⟩, rfl, rfl, id, fun _ => rfl⟩

theorem Chimes.trans {a b c : W} (x : Chimes j h a b) (y : Chimes j h b c) : Chimes j h a c := by
  refine ⟨y.clock.trans x.clock, y.due.trans x.due, y.avail.trans x.avail, x.mode.trans y.mode, y.reg.trans x.reg, fun none_ => ?_,
    y.frame.trans x.frame, y.count.trans x.count, fun goes => y.goes (x.goes goes), fun ne => (y.other ne).trans (x.other ne)⟩
  obtain ⟨cut, pends⟩ := x.calm none_
  obtain ⟨cut', pends'⟩ := y.calm cut
  exact ⟨cut', fun k run => (pends k run).trans (pends' k (pends k run).1)⟩

/-- The parts of a device beside the registers that a frame's start concerns. -/
def chimed (d : Dev) : Clock × Option (Word64 × Word64) × BitVec 16 × Mode × Option Cutover × Tbl Core × Tbl Bellows :=
  (d.clock, d.chim.stepDue, d.sys.avail, d.sys.mode, d.images.cut, d.cores, d.bellows)

theorem Chimes.still {a b : W} (x : Chimes j h a w) (same : chimed b.dev = chimed w.dev)
    (reg : b.dev.regs.val.get? (overrunKey h) = w.dev.regs.val.get? (overrunKey h)) : Chimes j h a b := by
  simp only [chimed, Prod.mk.injEq] at same
  obtain ⟨clock, due, avail, mode, cut, cores, bellows⟩ := same
  have blw : b.dev.blw h = w.dev.blw h := by rw [Dev.blw, Dev.blw, bellows]
  refine x.trans ⟨clock, due, avail, .same mode, reg, fun none_ => ⟨cut.trans none_, fun k run => ?_⟩, ?_, ?_, ?_, fun _ => ?_⟩
  · rw [show b.dev.core k = w.dev.core k from by rw [Dev.core, Dev.core, cores]]
    exact .refl run
  all_goals rw [blw]
  exact id

theorem Chimes.upd {a : W} {f : Dev → Dev} (x : Chimes j h a w)
    (same : ∀ d, chimed (f d) = chimed d ∧ (f d).regs = d.regs := by exact fun _ => ⟨rfl, rfl⟩) : Chimes j h a (w.upd f) :=
  x.still (same w.dev).1 (by rw [upd_dev, (same w.dev).2])

theorem Chimes.ite {a b c : W} {p : Prop} [Decidable p] (x : Chimes j h a b) (y : Chimes j h a c) : Chimes j h a (if p then b else c) := by
  split <;> assumption

theorem Chimes.iteSnd {α : Type} {a : W} {x y : α × W} {p : Prop} [Decidable p] (hx : Chimes j h a x.2) (hy : Chimes j h a y.2) :
    Chimes j h a (if p then x else y).2 := by
  split <;> assumption

theorem Chimes.pair {α : Type} {a : W} {x : α} (y : Chimes j h a w) : Chimes j h a (x, w).2 := y

theorem Chimes.snd {α : Type} {a b : W} {x : α} {p : α × W} (y : Chimes j h a p.2) (e : p = (x, b)) : Chimes j h a b := by
  rw [e] at y
  exact y

theorem Chimes.each {α : Type} {a : W} {xs : List α} {f : α → W → W} (x : Chimes j h a w) (y : ∀ x v, Chimes j h v (f x v)) :
    Chimes j h a (w.each xs f) := by
  induction xs generalizing w with
  | nil => exact x
  | cons z xs ih => exact ih (x.trans (y z w))

theorem Chimes.foldl {α : Type} {a : W} {xs : List α} {f : W → α → W} (x : Chimes j h a w) (y : ∀ v x, Chimes j h v (f v x)) :
    Chimes j h a (xs.foldl f w) := by
  induction xs generalizing w with
  | nil => exact x
  | cons z xs ih => exact ih (x.trans (y w z))

theorem Chimes.foldlSnd {α β : Type} {a : W} {xs : List α} {f : β × W → α → β × W} {p : β × W} (x : Chimes j h a p.2)
    (y : ∀ p x, Chimes j h p.2 (f p x).2) : Chimes j h a (xs.foldl f p).2 := by
  induction xs generalizing p with
  | nil => exact x
  | cons z xs ih => exact ih (x.trans (y p z))

/-- Another register is written. -/
theorem Chimes.setReg {a : W} {t i o : Nat} {x : Word32} (y : Chimes j h a w) (ne : overrunKey h ≠ blockBase t i + o) :
    Chimes j h a (w.setReg t i o x) := y.still rfl (Laws.get_set_ne _ _ _ _ ne)

theorem Chimes.countReg {a : W} {t i o k : Nat} (y : Chimes j h a w) (ne : overrunKey h ≠ blockBase t i + o) :
    Chimes j h a (w.countReg t i o k) := y.setReg ne

theorem overrunKey_ge : 0x20100608 ≤ overrunKey h := by simp [overrunKey, blockBase]

/-- A register of a bellows beside the frame that OVERRUN names. -/
theorem overrunKey_ne_row {i o : Nat} (low : o < 0x10000) (ne : o ≠ 0x608) : overrunKey h ≠ blockBase 16 i + o := by
  simp only [overrunKey, blockBase]
  norm_num
  omega

theorem overrunKey_plain : errReg (overrunKey h) = false := by
  rw [errReg, Bool.or_eq_false_iff, List.any_eq_false, List.any_eq_false]
  have high := overrunKey_ge (h := h)
  refine ⟨fun u _ => ?_, fun o mem => ?_⟩
  · rw [Bool.not_eq_true, List.any_eq_false]
    intro o mem
    simp only [List.mem_cons, List.not_mem_nil, or_false] at mem
    rw [beq_iff_eq]
    split
    · exact overrunKey_ne_row (by omega) (by omega)
    · rw [show blockBase 1 0 = 0x20000000 from rfl]
      omega
  · simp only [List.mem_cons, List.not_mem_nil, or_false] at mem
    rw [beq_iff_eq, blockBase_eight]
    omega

/-- What an event leaves. -/
theorem Chimes.event {a b : W} {t : Prop} (x : Chimes j h a w) (kept : Kept w b) (contained : Contained t w b) (mode : MayTrip w b) :
    Chimes j h a b := by
  obtain ⟨dev, -⟩ := kept
  obtain ⟨⟨-, blws⟩, calm⟩ := contained
  have reg : b.dev.regs.val.get? (overrunKey h) = w.dev.regs.val.get? (overrunKey h) := by
    have same : b.dev.regs.val.keep (fun a => !errReg a) = w.dev.regs.val.keep fun a => !errReg a := congrArg (fun d => d.regs.val) dev
    have ok : (fun a => !errReg a) (overrunKey h) = true := by
      show (!errReg _) = true
      rw [overrunKey_plain]
      rfl
    exact (get?_keep (p := fun a => !errReg a) ok).symm.trans ((congrArg (fun t : Tbl Word32 => t.get? _) same).trans
      (get?_keep (p := fun a => !errReg a) ok))
  have blw := blws h
  refine x.trans ⟨(congrArg (fun d => d.clock) dev :), (congrArg (fun d => d.chim.stepDue) dev :), (congrArg (fun d => d.sys.avail) dev :),
    mode, reg, fun none_ => ⟨(calm none_).cut, (calm none_).pends⟩, (congrArg (fun b => b.frame) blw :), (congrArg (fun b => b.ovrCnt) blw :),
    fun goes => ?_, fun _ => blw⟩
  rwa [show (b.dev.blw h).phase = (w.dev.blw h).phase from congrArg (fun b => b.phase) blw]

theorem Chimes.raise {a : W} {d0 d1 : Word32} {test : Bool} {grp : List Nat} (x : Chimes j h a w) : Chimes j h a (w.raise n d0 d1 test grp) :=
  x.event (kept_raise _ _ _ _ _ _) (contained_raise (t := True) (.inl trivial)) mayTrip_raise

theorem Chimes.finishAll {a : W} {o key st : Nat} {r : List Byte} (x : Chimes j h a w) : Chimes j h a (w.finishAll o key st r) :=
  x.event (steady_finishAll _ _ _ _ _).kept (contained_finishAll (t := True) _ _ _ _ _) (.sameCh (sameCh_finishAll _ _ _ _ _))

theorem Chimes.interrupt {a : W} {c : Nat} (x : Chimes j h a w) : Chimes j h a (w.interrupt c n) :=
  x.event (steady_interrupt _ _ _).kept (contained_interrupt _ _ _) (.sameCh (sameCh_interrupt _ _ _))

theorem Chimes.cutFail {a : W} {c : Byte} (x : Chimes j h a w) : Chimes j h a (w.cutFail n c) :=
  x.event (steady_cutFail _ _ _).kept (contained_cutFail (t := True) _ _ _) (.sameCh (sameCh_cutFail _ _ _))

theorem Chimes.selectGroup {a : W} {g : Nat} (x : Chimes j h a w) : Chimes j h a (w.selectGroup n k g) :=
  x.event (steady_selectGroup _ _ _ _).kept (contained_selectGroup (t := True) _ _ _ _) mayTrip_selectGroup

/-- A change of the bellows whose frame starts. -/
theorem Chimes.blw {a : W} {f : Bellows → Bellows} (x : Chimes j h a w)
    (same : ∀ b, (f b).frame = b.frame ∧ (f b).ovrCnt = b.ovrCnt ∧ (b.phase ≠ .stopped → (f b).phase ≠ .stopped) := by
      exact fun _ => ⟨rfl, rfl, id⟩) : Chimes j h a (w.upd fun d => d.onBlw j f) := by
  have own : (w.upd fun d => d.onBlw j f).dev.blw h = if h = j then f (w.dev.blw j) else w.dev.blw h := blw_onBlw _ _ _ _
  refine x.trans ⟨rfl, rfl, rfl, .same rfl, rfl, fun none_ => ⟨none_, fun _ run => .refl run⟩, ?_, ?_, ?_, fun ne => ?_⟩
  all_goals rw [own]; clear own
  · split
    · next e => rw [e, (same _).1]
    · rfl
  · split
    · next e => rw [e, (same _).2.1]
    · rfl
  · split
    · next e => rw [e]; exact (same _).2.2
    · exact id
  · rw [if_neg (Ne.symm ne)]

/-- A change of another hearth's bellows. -/
theorem Chimes.blwOther {a : W} {f : Dev → Bellows → Bellows} (x : Chimes j h a w) (ne : j ≠ h) :
    Chimes j h a (w.upd fun d => d.onBlw j (f d)) := by
  have own : (w.upd fun d => d.onBlw j (f d)).dev.blw h = w.dev.blw h := blw_onBlw_ne _ _ _ _ (Ne.symm ne)
  refine x.trans ⟨rfl, rfl, rfl, .same rfl, rfl, fun none_ => ⟨none_, fun _ run => .refl run⟩, ?_, ?_, ?_, fun ne => ?_⟩
  all_goals rw [own]
  exact id

/-! The accesses of the bellows to its hob (R213, R222). -/

theorem chimes_setHobReg {o : Nat} {x : Word32} (low : o < 0x300) : Chimes j h w (w.setHobReg u o x) := by
  have high := overrunKey_ge (h := h)
  refine .ite (Chimes.refl.setReg (overrunKey_ne_row (by omega) (by omega))) (Chimes.refl.setReg ?_)
  rw [show blockBase 1 0 = 0x20000000 from rfl]
  omega

theorem chimes_hobLog {a : Nat} {m : Bool} {c : ByteCode} : Chimes j h w (w.hobLog u a m c).2 := by
  have counted {b : Bool} {e : Word32} : Chimes j h w (w.hobCount u b e) := by
    have low : (if b then 0x210 else 0x20C) < 0x300 := by split <;> omega
    exact (((chimes_setHobReg low).trans (chimes_setHobReg (by omega))).trans (chimes_setHobReg (by omega))).trans (chimes_setHobReg (by omega))
  cases c with
  | good b => exact .refl
  | fixed b k => exact counted.trans (Chimes.refl.still rfl rfl)
  | bad b k => exact counted

theorem chimes_hobScan {word : Nat} {m : Bool} : Chimes j h w (w.hobScan u word m) := by
  refine .ite .refl (.each .refl fun _ _ => .ite ?_ .refl)
  unfold W.hobError
  split
  · next e => exact .raise (chimes_hobLog.snd e)
  · next e => exact chimes_hobLog.snd e

theorem Chimes.eccNote {a : W} {m : Rid} {b : Bool} (x : Chimes j h a w) : Chimes j h a (w.eccNote m b) := by
  unfold W.eccNote
  split
  · exact .ite x.interrupt x
  · exact x

theorem chimes_awake {m : Nat} : Chimes j h w ((w.wakeHob u).granted u m) := .upd (.ite .refl (.upd .refl))

theorem chimes_hobRead {m : Rid} {a : Nat} : Chimes j h w (w.hobRead m u a n).2 :=
  chimes_awake.trans (.iteSnd .refl
    (.iteSnd (.eccNote (.each .refl fun _ _ => chimes_hobScan)) (.eccNote (.each .refl fun _ _ => chimes_hobScan))))

theorem chimes_put {a : Nat} {bs : List Byte} : Chimes j h w (w.put a bs) := by
  have aside (d : Dev) :
      chimed (if d.flips.rows.isEmpty then d else { d with flips := d.flips.keep fun k => k < a || a + bs.length ≤ k }) = chimed d ∧
      (if d.flips.rows.isEmpty then d else { d with flips := d.flips.keep fun k => k < a || a + bs.length ≤ k }).regs = d.regs := by
    split <;> exact ⟨rfl, rfl⟩
  exact Chimes.refl.still (aside w.dev).1 (congrArg (fun r : Regs => r.val.get? (overrunKey h)) (aside w.dev).2 :)

theorem chimes_hobWriteParts {m : Nat} {ps : List (Nat × List Byte)} : Chimes j h w (w.hobWriteParts u m ps) := by
  have injected {v : W} {xs : List Nat} : Chimes j h v (v.hobInjected u m xs) := by
    unfold W.hobInjected
    split
    · exact .ite (.upd .refl) .refl
    · exact .refl
  exact (chimes_awake.each fun _ _ => chimes_put).trans injected

/-- The firewall of the hobs refuses an access. -/
theorem chimes_fwRefuse {a : Addr} {m : Rid} {d : Dir} : Chimes j h w (w.fwRefuse 0 a m d) := by
  have high := overrunKey_ge (h := h)
  have counted : Chimes j h w (w.countReg 11 0 (fwOff 0 + 0x0C)) := Chimes.refl.countReg (by simp only [blockBase, fwOff]; norm_num; omega)
  unfold W.fwRefuse
  rw [if_neg (by decide)]
  exact counted.raise

theorem chimes_fwCheck {a : Addr} {m : Rid} {d : Dir} : Chimes j h w (w.fwCheck 0 a m d).2 := .iteSnd .refl (.pair chimes_fwRefuse)

theorem chimes_blwRead {off : Nat} : Chimes j h w (w.blwRead u off n).2 := by
  refine .iteSnd .refl (chimes_fwCheck.trans (.iteSnd ?_ .refl))
  split <;> next e => exact .pair (chimes_hobRead.snd e)

theorem chimes_blwWrite {ps : List (Nat × List Byte)} : Chimes j h w (w.blwWrite u ps).2 := by
  unfold W.blwWrite
  split
  · exact .refl
  · exact .iteSnd .refl (chimes_fwCheck.trans (.iteSnd (.pair chimes_hobWriteParts) .refl))

theorem chimes_blwWrites {xs : List (List (Nat × List Byte))} : Chimes j h w (w.blwWrites u xs).2 := by
  induction xs generalizing w with
  | nil => exact .refl
  | cons x xs ih =>
    unfold W.blwWrites
    split
    · next e => exact (chimes_blwWrite.snd e).trans ih
    · exact chimes_blwWrite

theorem chimes_faultWrites {ctx stat : Nat} {c : Ctx} {safe tail : Bool} : Chimes j h w (w.faultWrites u ctx stat c safe tail) :=
  Chimes.trans (.ite (Chimes.foldl .refl fun _ _ => chimes_blwWrite) .refl) chimes_blwWrite

theorem chimes_lastFault {info : Word32} : Chimes j h w (w.lastFault u info) :=
  ((Chimes.refl.setReg (overrunKey_ne_row (by omega) (by omega))).setReg (overrunKey_ne_row (by omega) (by omega))).setReg
    (overrunKey_ne_row (by omega) (by omega))

theorem chimes_loopFault {ctx cause : Nat} {c : Ctx} {hdr safe tail retried : Bool} :
    Chimes j h w (w.loopFault j ctx cause c hdr safe tail retried) :=
  Chimes.ite chimes_faultWrites .refl |>.countReg (overrunKey_ne_row (by omega) (by omega)) |>.trans chimes_lastFault |>.blw
    |>.trans (.ite .refl (.each .refl fun _ _ => .selectGroup .refl)) |>.raise |>.each fun _ _ => .interrupt .refl

/-! The parts of the start (R221, R230, R231, R238, R239, R332). -/

theorem chimes_paramWindow : Chimes j h w (w.paramWindow j) := by
  unfold W.paramWindow
  extract_lets -underBinder ps w1
  have first : Chimes j h w w1 := .blw .refl
  split
  next e =>
  refine (first.trans (Chimes.snd (.foldlSnd .refl fun x p => ?_) e)).finishAll.finishAll
  split
  · next e => exact chimes_blwWrites.snd e
  · next e =>
    refine (chimes_blwWrites.snd e).trans ?_
    extract_lets -underBinder off
    split
    next e0 =>
    split
    next e1 =>
    split
    next e2 =>
    exact .pair <| (chimes_blwRead.snd e0 |>.trans (chimes_blwRead.snd e1) |>.trans (chimes_blwRead.snd e2)).trans chimes_loopFault

theorem startChans_part {l : List Nat} {b : Bellows} : (l.foldl Bellows.startChan b).frame = b.frame ∧
    (l.foldl Bellows.startChan b).ovrCnt = b.ovrCnt ∧ (l.foldl Bellows.startChan b).phase = b.phase := by
  induction l generalizing b with
  | nil => exact ⟨rfl, rfl, rfl⟩
  | cons c l ih => exact ih (b := b.startChan c)

theorem Chimes.startChans {a : W} {l : List Nat} (x : Chimes j h a w) :
    Chimes j h a (w.upd fun d => d.onBlw j fun b => l.foldl Bellows.startChan b) := by
  refine x.blw fun b => ?_
  obtain ⟨frame, count, phase⟩ := startChans_part (l := l) (b := b)
  exact ⟨frame, count, fun goes => by rwa [phase]⟩

theorem chimes_startOutputs : Chimes j h w (w.startOutputs j) := by
  unfold W.startOutputs
  refine Chimes.refl.blw fun b => ?_
  obtain ⟨frame, count, phase⟩ := startChans_part (l := bitsOf 16 (w.inUse j 0x310)) (b := { b with phase := .output })
  exact ⟨frame, count, fun _ => by rw [phase]; exact BlwPhase.noConfusion⟩

theorem chimes_imageLate {c : Nat} : Chimes j h w (w.imageLate j c) := (Chimes.refl.blw).raise

theorem chimes_startSlots : Chimes j h w (w.startSlots j) := by
  unfold W.startSlots
  extract_lets stopped late slots
  have hs : Chimes j h w stopped := .each .refl fun c v => (Chimes.refl.blw (f := fun b => b.stopChan c)).trans chimes_imageLate
  have hl : Chimes j h w late := .each hs fun _ _ => chimes_imageLate
  have hp : Chimes j h w slots := .blw hl fun _ => ⟨rfl, rfl, fun _ => BlwPhase.noConfusion⟩
  exact hp.trans (.ite chimes_startOutputs .refl)

theorem chimes_slackEnd : Chimes j h w (w.slackEnd j) := .ite .refl (Chimes.refl.setReg (overrunKey_ne_row (by omega) (by omega)))

theorem chimes_takeBank : Chimes j h w (w.takeBank j) := (Chimes.refl.blw).finishAll

theorem chimes_segment {idle : Bool} : Chimes j h w (w.segment j idle) := by
  unfold W.segment
  split
  · exact .refl
  · next n _ =>
    exact .ite ((Chimes.refl (w := w)).upd (f := fun d => d.onBu j fun b => { b with segs := some (n + 1) })
      |>.blw (f := fun b => { b with basting := true })) (.blw .refl)

end Sys2Proof.Proofs
end

section
/-! O31: frames and time (R159, R230, R250, R252, R266, R267). -/

namespace Sys2Proof.Proofs

open Machine Laws

set_option Elab.async false

variable {s : State} {w v : W} {j h n k f : Nat}

/-! The start of a frame at one bellows. -/

/-- Another hearth's frame leaves this one's bellows as it does any other's. -/
theorem Chimes.aside {a : W} (x : Chimes j h a w) (ne : j ≠ h) : Chimes (h + 1) h a w :=
  ⟨x.clock, x.due, x.avail, x.mode, x.reg, x.calm, x.frame, x.count, x.goes, fun _ => x.other ne⟩

theorem chimes_overrun_other (ne : j ≠ h) : Chimes j h w (w.overrun j) := by
  refine .ite ?_ .refl
  have counted : Chimes j h w (w.upd fun d => d.onBlw j fun b => { b with ovrCnt := satInc b.ovrCnt }) :=
    Chimes.blwOther (f := fun _ b => { b with ovrCnt := satInc b.ovrCnt }) .refl ne
  exact (counted.setReg (by simp only [overrunKey, blockBase]; norm_num; omega)).cutFail.raise

theorem frameStart_other (ne : j ≠ h) : Chimes j h w (w.frameStart j f) := by
  unfold W.frameStart
  split
  · extract_lets slack taken base use bank idle es todo f32 started seg pars ins chans
    have ho : Chimes j h w taken := ((chimes_overrun_other ne).trans chimes_slackEnd).trans chimes_takeBank
    have hs : Chimes j h taken started := Chimes.blwOther .refl ne
    have hp : Chimes j h started pars := chimes_segment.trans (.ite .refl chimes_paramWindow)
    have hc : Chimes j h pars chans := .startChans .refl
    exact ((ho.trans hs).trans (hp.trans hc)).trans (.ite chimes_startSlots .refl)
  · exact chimes_segment

/-- Whether the bellows runs does not depend on the frames of the others. -/
theorem bellowsOn_aside (x : Chimes (h + 1) h w v) (on : w.bellowsOn h = true) : v.bellowsOn h = true := by
  have part := x.other (Nat.succ_ne_self h)
  have expert : (v.dev.blw h).expert = (w.dev.blw h).expert := congrArg (fun b => b.expert) part
  have checked : (v.dev.blw h).checked = (w.dev.blw h).checked := congrArg (fun b => b.checked) part
  have fails : (v.dev.blw h).basteFail = (w.dev.blw h).basteFail := congrArg (fun b => b.basteFail) part
  unfold W.bellowsOn at *
  simp only [x.avail, expert, checked, fails]
  rcases mayTrip_iff.mp x.mode with same | ⟨-, safe⟩
  · rwa [same]
  · rw [safe]
    simp only [Bool.and_eq_true, Bool.not_eq_true'] at on
    obtain ⟨⟨⟨-, avail⟩, checked⟩, fails⟩ := on
    rw [avail, checked, fails]
    rfl

/-- A frame that begins before the last one is done (R257). -/
def Overran (b : Bellows) : Prop := (b.phase = .window ∨ b.phase = .slots) ∧ b.todo ≠ []

/-- A frame that begins before the last one is done is counted, and OVERRUN names that one. -/
theorem overrun_counts (late : Overran (w.dev.blw h)) : ((w.overrun h).dev.blw h).ovrCnt = satInc (w.dev.blw h).ovrCnt ∧
    (w.overrun h).dev.regs.val.get? (overrunKey h) = some (w.dev.blw h).frame := by
  obtain ⟨phase, todo⟩ := late
  have waits : (w.dev.blw h).phase ≠ .stopped ∧ (w.dev.blw h).phase ≠ .output ∧ (w.dev.blw h).todo ≠ [] := by
    rcases phase with phase | phase <;> exact ⟨by rw [phase]; decide, by rw [phase]; decide, todo⟩
  unfold W.overrun
  extract_lets b counted
  rw [if_pos waits]
  let told := (w.upd fun d => d.onBlw h fun b => { b with ovrCnt := satInc b.ovrCnt }).setReg 16 h 0x608 b.frame
  have after : Chimes h h told (counted.raise (0x250 + h) b.frame 0) := (Chimes.refl.cutFail).raise
  have count : (told.dev.blw h).ovrCnt = satInc (w.dev.blw h).ovrCnt :=
    congrArg (fun b => b.ovrCnt) (blw_onBlw_self w.dev h fun b => { b with ovrCnt := satInc b.ovrCnt })
  exact ⟨after.count.trans count, after.reg.trans (get_set_self _ _ _)⟩

/-- The start of a frame at a bellows that runs. -/
theorem frameStart_own (on : w.bellowsOn h = true) : ((w.frameStart h f).dev.blw h).frame = w32 (f % 2 ^ 32) ∧
    ((w.frameStart h f).dev.blw h).phase ≠ .stopped ∧
    (Overran (w.dev.blw h) → ((w.frameStart h f).dev.blw h).ovrCnt = satInc (w.dev.blw h).ovrCnt ∧
      (w.frameStart h f).dev.regs.val.get? (overrunKey h) = some (w.dev.blw h).frame) := by
  unfold W.frameStart
  rw [if_pos on]
  extract_lets slack taken base use bank idle es todo f32 started seg pars ins chans
  have rest : Chimes h h started (if (chans.runningChans h (chans.inUse h 0x30C)).isEmpty then chans.startSlots h else chans) := by
    have hp : Chimes h h started pars := chimes_segment.trans (.ite .refl chimes_paramWindow)
    have hc : Chimes h h pars chans := .startChans .refl
    exact (hp.trans hc).trans (.ite chimes_startSlots .refl)
  have own : (started.dev.blw h).frame = f32 ∧ (started.dev.blw h).phase = .window ∧
      (started.dev.blw h).ovrCnt = (taken.dev.blw h).ovrCnt := by
    rw [upd_dev, blw_onBlw_self]
    exact ⟨rfl, rfl, rfl⟩
  obtain ⟨frame, phase, count'⟩ := own
  have first : Chimes h h (w.overrun h) taken := chimes_slackEnd.trans chimes_takeBank
  refine ⟨rest.frame.trans frame, rest.goes (by rw [phase]; exact BlwPhase.noConfusion), fun late => ?_⟩
  obtain ⟨count, reg⟩ := overrun_counts late
  exact ⟨(rest.count.trans count').trans (first.count.trans count), (rest.reg.trans rfl).trans (first.reg.trans reg)⟩

/-! The frames of all bellows. -/

theorem frames_other {l : List Nat} (away : h ∉ l) : Chimes (h + 1) h w (w.each l fun j w => w.frameStart j f) := by
  induction l generalizing w with
  | nil => exact .refl
  | cons j l ih =>
    rw [List.mem_cons, not_or] at away
    obtain ⟨ne, away⟩ := away
    exact ((frameStart_other (Ne.symm ne)).aside (Ne.symm ne)).trans (ih away)

/-- What the frame of hearth `h` starts with, and what it leaves. -/
def FrameStarted (h f : Nat) (a w : W) : Prop :=
  (w.dev.blw h).frame = w32 (f % 2 ^ 32) ∧ (w.dev.blw h).phase ≠ .stopped ∧
    (Overran (a.dev.blw h) → (w.dev.blw h).ovrCnt = satInc (a.dev.blw h).ovrCnt ∧
      w.dev.regs.val.get? (overrunKey h) = some (a.dev.blw h).frame)

theorem FrameStarted.after {a : W} (x : FrameStarted h f a w) (y : Chimes j h w v) : FrameStarted h f a v := by
  obtain ⟨frame, goes, late⟩ := x
  exact ⟨y.frame.trans frame, y.goes goes, fun over_ => ⟨y.count.trans (late over_).1, y.reg.trans (late over_).2⟩⟩

theorem FrameStarted.before {a : W} (x : Chimes (h + 1) h a w) (y : FrameStarted h f w v) : FrameStarted h f a v := by
  obtain ⟨frame, goes, late⟩ := y
  have part := x.other (Nat.succ_ne_self h)
  have phase : (w.dev.blw h).phase = (a.dev.blw h).phase := congrArg (fun b => b.phase) part
  have todo : (w.dev.blw h).todo = (a.dev.blw h).todo := congrArg (fun b => b.todo) part
  refine ⟨frame, goes, fun over_ => ?_⟩
  obtain ⟨count, reg⟩ := late (by rw [Overran, phase, todo]; exact over_)
  exact ⟨count.trans (congrArg satInc x.count), reg.trans (congrArg some x.frame)⟩

/-- Each bellows that runs starts its frame, whatever frames start beside it. -/
theorem frames_start {l : List Nat} (once : l.Nodup) (mem : h ∈ l) (on : w.bellowsOn h = true) :
    FrameStarted h f w (w.each l fun j w => w.frameStart j f) := by
  induction l generalizing w with
  | nil => cases mem
  | cons j l ih =>
    rw [List.nodup_cons] at once
    obtain ⟨fresh, once⟩ := once
    show FrameStarted h f w ((w.frameStart j f).each l fun j w => w.frameStart j f)
    by_cases own : j = h
    · subst own
      exact FrameStarted.after (frameStart_own on) (frames_other fresh)
    · have beside : Chimes (h + 1) h w (w.frameStart j f) := (frameStart_other own).aside own
      exact FrameStarted.before beside (ih once ((List.mem_cons.mp mem).resolve_left (Ne.symm own)) (bellowsOn_aside beside on))

/-! Source 32 in the cores. -/

theorem pends_interrupt (run : (w.dev.core k).run = true) (goes : (w.dev.seam k).mode ≠ .halted) (low : n < 64) :
    bitAt ((w.interrupt k n).dev.core k).ipend n = true := by
  rw [W.interrupt, if_pos (by rw [run]; simpa using goes), upd_dev, core_onCore_self]
  exact bitAt_setBit low

theorem chimes_interrupts {l : List Nat} : Chimes j h w (l.foldl (fun w k => w.interrupt k n) w) := .foldl .refl fun _ _ => .interrupt .refl

theorem pends_interrupts {l : List Nat} (mem : k ∈ l) (cut : w.dev.images.cut = none) (run : (w.dev.core k).run = true)
    (goes : (w.dev.seam k).mode ≠ .halted) (low : n < 64) :
    bitAt ((l.foldl (fun w k => w.interrupt k n) w).dev.core k).ipend n = true := by
  induction l generalizing w with
  | nil => cases mem
  | cons j l ih =>
    have one : Chimes 0 1 w (w.interrupt j n) := .interrupt .refl
    obtain ⟨cut', pends⟩ := one.calm cut
    rw [List.foldl_cons]
    by_cases own : k = j
    · subst own
      have others : Chimes 0 1 (w.interrupt k n) (l.foldl (fun w k => w.interrupt k n) (w.interrupt k n)) :=
        .foldl .refl fun _ _ => .interrupt .refl
      exact ((others.calm cut').2 k (pends k run).1).2 n (pends_interrupt run goes low)
    · have seam : (w.interrupt j n).dev.seam k = w.dev.seam k := by
        unfold W.interrupt
        split <;> rfl
      exact ih ((List.mem_cons.mp mem).resolve_left own) cut' (pends k run).1 (by rwa [seam])

/-! The boundary. -/

/-- The device with its counters at the start of frame `f`. -/
def atFrame (f : Nat) (d : Dev) : Dev := { d.advanceTb (25000 * f) with clock := { (d.advanceTb (25000 * f)).clock with frame := w64 f } }

/-- The cores and the bellows take the start of frame `f`. -/
def framed (w : W) (f : Nat) : W :=
  ((List.range 65).foldl (fun w k => w.interrupt k 32) (w.upd (atFrame f))).each (List.range 16) fun h w => w.frameStart h f

/-- The next boundary that has not been taken. -/
def nextFrame (c : Clock) : Nat := if c.tb.toNat % 25000 = 0 ∧ c.frame.toNat ≠ c.tb.toNat / 25000 then c.tb.toNat / 25000 else c.tb.toNat / 25000 + 1

/-- A step of the time base that is due at the start of frame `f`. -/
def stepAt (w : W) (f : Nat) : W :=
  match w.dev.chim.stepDue with
  | some (off, due) =>
    if due.toNat ≤ f then (w.upd fun d => { d with chim := { d.chim with stepDue := none } }).stepTb off else w
  | none => w

theorem boundary_row (runs : s.dev.clock.running = true) :
    exec .frameBoundary s = .next (stateOf s (stepAt (framed s.world (nextFrame s.dev.clock)) (nextFrame s.dev.clock))) := by
  show execFrameBoundary s = _
  unfold execFrameBoundary run
  dsimp only
  rw [if_neg (show ¬ s.world.dev.clock.running = false by rw [show s.world.dev.clock.running = true from runs]; exact Bool.noConfusion)]
  unfold nextFrame framed atFrame stepAt
  generalize List.range 65 = cores
  generalize List.range 16 = hearths
  rfl

/-- What the frames leave of a hearth's, beside its own. -/
theorem framed_chimes (away : ¬ h < 16) : Chimes (h + 1) h (w.upd (atFrame f)) (framed w f) :=
  chimes_interrupts.trans (frames_other (by simpa using away))

theorem framed_started (low : h < 16) (on : w.bellowsOn h = true) : FrameStarted h f w (framed w f) := by
  have first : Chimes (h + 1) h (w.upd (atFrame f)) ((List.range 65).foldl (fun w k => w.interrupt k 32) (w.upd (atFrame f))) :=
    chimes_interrupts
  have starts := frames_start (f := f) List.nodup_range (List.mem_range.mpr low) (bellowsOn_aside first (w := w.upd (atFrame f)) on)
  exact FrameStarted.before (a := w.upd (atFrame f)) first starts

theorem framed_pends (low : k < 65) (cut : w.dev.images.cut = none) (run : (w.dev.core k).run = true)
    (goes : (w.dev.seam k).mode ≠ .halted) : (framed w f).dev.images.cut = none ∧ ((framed w f).dev.core k).run = true ∧
    bitAt ((framed w f).dev.core k).ipend 32 = true := by
  have told := pends_interrupts (w := w.upd (atFrame f)) (n := 32) (List.mem_range.mpr low) cut run goes (by omega)
  have first : Chimes 17 16 (w.upd (atFrame f)) ((List.range 65).foldl (fun w k => w.interrupt k 32) (w.upd (atFrame f))) :=
    chimes_interrupts
  obtain ⟨cut', pends⟩ := first.calm cut
  unfold framed
  generalize (List.range 65).foldl (fun w k => w.interrupt k 32) (w.upd (atFrame f)) = z at told cut' pends ⊢
  have others : Chimes 17 16 z (z.each (List.range 16) fun h w => w.frameStart h f) := frames_other (by simp)
  obtain ⟨cut'', pends'⟩ := others.calm cut'
  exact ⟨cut'', (pends' k (pends k run).1).1, (pends' k (pends k run).1).2 32 told⟩

/-- A step that is due leaves the rest. -/
theorem stepAt_chimes (calm : ∀ off due, w.dev.chim.stepDue = some (off, due) → ¬ due.toNat ≤ f) : stepAt w f = w := by
  unfold stepAt
  split
  · next off due found => exact if_neg (calm off due found)
  · rfl

/-- The time base with the step made. -/
def stepped (off : Word64) (d : Dev) : Dev :=
  { d with chim := { d.chim with stepDue := none }, clock := { d.clock with tb := d.clock.tb + off, stepCnt := satInc d.clock.stepCnt } }

theorem stepAt_due {off due : Word64} (found : w.dev.chim.stepDue = some (off, due)) (now : due.toNat ≤ f) :
    Chimes (h + 1) h (w.upd (stepped off)) (stepAt w f) := by
  have same : stepAt w f = (w.upd (stepped off)).raise 0x261 0 0 := by
    unfold stepAt
    rw [found]
    exact if_pos now
  rw [same]
  exact .raise .refl

end Sys2Proof.Proofs
end

section
/-! O31: the compares of the time base (R266, R267), the loss of sync (R250), and the statement. -/

namespace Sys2Proof.Proofs

open Machine Laws

set_option Elab.async false

variable {s : State} {w v : W} {n k p x : Nat}

/-- The time base moves forward to an instant, never back. -/
theorem tb_advanceTb {d : Dev} (low : x < 2 ^ 64) : (d.advanceTb x).clock.tb.toNat = max d.clock.tb.toNat x := by
  show (d.clock.tb + w64 (x - d.clock.tb.toNat)).toNat = _
  have bound := d.clock.tb.isLt
  rw [BitVec.toNat_add, w64, BitVec.toNat_ofNat]
  omega

theorem reg_setReg_self (t i o : Nat) (v : Word32) : (w.setReg t i o v).reg t i o = v := getD_set_self _ _ _ _

/-- The address of the register at place `k` of compare `n` differs from another's. -/
theorem cmpOff_ne {a b : Nat} (ne : a ≠ b) : blockBase 5 0 + cmpOff n a ≠ blockBase 5 0 + cmpOff n b := by
  unfold cmpOff
  omega

theorem cmpValue_congr (fuse : v.fuse = w.fuse) (chim : v.dev.chim = w.dev.chim) (regs : v.dev.regs = w.dev.regs) :
    v.cmpValue n = w.cmpValue n := by
  have low := reg_congr fuse chim 5 0 (cmpOff n 0) fun x => congrArg (fun r : Regs => r.val.getD _ x) regs
  have high := reg_congr fuse chim 5 0 (cmpOff n 1) fun x => congrArg (fun r : Regs => r.val.getD _ x) regs
  rw [W.cmpValue, W.cmpValue, low, high]

theorem reg_state {t i o : Nat} (fuse : w.fuse = s.fuse) : (stateOf s w).world.reg t i o = w.reg t i o :=
  reg_congr (w := w) (w' := (stateOf s w).world) fuse.symm rfl _ _ _ fun _ => rfl

theorem cmpValue_state (fuse : w.fuse = s.fuse) : (stateOf s w).world.cmpValue n = w.cmpValue n :=
  cmpValue_congr (w := w) (v := (stateOf s w).world) fuse.symm rfl rfl

theorem cmpValue_lt : w.cmpValue n < 2 ^ 64 := by
  unfold W.cmpValue
  have low := (w.reg 5 0 (cmpOff n 0)).isLt
  have high := (w.reg 5 0 (cmpOff n 1)).isLt
  omega

/-- The compare moves on by whole periods, to the first instant behind the time base. -/
def periods (tb v p : Nat) : Nat := (tb - v) / p + 1

theorem periods_spec {tb v p : Nat} (reached : v ≤ tb) (pos : 0 < p) :
    0 < periods tb v p ∧ tb < v + periods tb v p * p ∧ v + (periods tb v p - 1) * p ≤ tb := by
  have least := Nat.div_mul_le_self (tb - v) p
  have most := Nat.lt_div_mul_add (a := tb - v) pos
  unfold periods
  rw [Nat.add_sub_cancel, Nat.add_one_mul]
  generalize (tb - v) / p * p = q at least most ⊢
  exact ⟨Nat.succ_pos _, by omega, by omega⟩

theorem fld_setFld_half {c : Word32} (low : x < 65536) : fld (setFld c 16 16 x) 16 16 = x := by
  have bound := c.isLt
  simp only [fld, setFld, BitVec.toNat_ofNat, Nat.shiftRight_eq_div_pow]
  omega

theorem bitAt_setFld_half {c : Word32} : bitAt (setFld c 16 16 x) 0 = bitAt c 0 := by
  unfold bitAt
  rw [getLsbD_setFld c x (by omega) 0 (by omega), if_neg (by omega)]

/-- The compare that moves on to `y`, its count of missed instants to `z`. -/
def movedOn (w : W) (n y : Nat) (z : Word32) : W :=
  ((w.setReg 5 0 (cmpOff n 0) (w32 (y % 2 ^ 32))).setReg 5 0 (cmpOff n 1) (w32 (y / 2 ^ 32))).setReg 5 0 (cmpOff n 3) z

theorem movedOn_value {y : Nat} {z : Word32} (low : y < 2 ^ 64) : (movedOn w n y z).cmpValue n = y := by
  unfold W.cmpValue movedOn
  rw [reg_setReg_ne _ _ _ _ _ _ _ _ (cmpOff_ne (by omega)), reg_setReg_ne _ _ _ _ _ _ _ _ (cmpOff_ne (by omega)),
    reg_setReg_self, reg_setReg_ne _ _ _ _ _ _ _ _ (cmpOff_ne (by omega)), reg_setReg_self, w32, w32, BitVec.toNat_ofNat, BitVec.toNat_ofNat]
  omega

theorem movedOn_armed {y : Nat} {c : Word32} (low : x < 65536) :
    bitAt ((movedOn w n y (setFld c 16 16 x)).reg 5 0 (cmpOff n 3)) 0 = bitAt c 0 ∧
    fld ((movedOn w n y (setFld c 16 16 x)).reg 5 0 (cmpOff n 3)) 16 16 = x := by
  rw [movedOn, reg_setReg_self, bitAt_setFld_half, fld_setFld_half low]
  exact ⟨rfl, rfl⟩

theorem movedOn_beside {y : Nat} {z : Word32} : ((movedOn w n y z).dev.clock = w.dev.clock ∧ (movedOn w n y z).dev.cores = w.dev.cores) ∧
    (movedOn w n y z).ops = w.ops ∧ (movedOn w n y z).fuse = w.fuse := ⟨⟨rfl, rfl⟩, rfl, rfl⟩

/-- The world that compare `n` has reached. -/
def reachedCmp (w : W) (n : CompareId) : W := (w.upd fun d => d.advanceTb (w.cmpValue n)).interrupt (n / 8) (40 + n % 8)

theorem interrupt_parts {c : Nat} : (w.interrupt c k).dev.clock = w.dev.clock ∧ (w.interrupt c k).dev.regs = w.dev.regs ∧
    (w.interrupt c k).dev.chim = w.dev.chim ∧ (w.interrupt c k).fuse = w.fuse ∧ (w.interrupt c k).ops = w.ops := by
  unfold W.interrupt
  split <;> exact ⟨rfl, rfl, rfl, rfl, rfl⟩

theorem tcmp_row (on : bitAt (s.world.reg 5 0 (cmpOff n 3)) 0 = true) {n' : CompareId} (e : n'.val = n) :
    exec (.tcmpFire n') s = .next (stateOf s (if (s.world.reg 5 0 (cmpOff n 2)).toNat = 0 then
        (reachedCmp s.world n').setReg 5 0 (cmpOff n 3) (setBit (s.world.reg 5 0 (cmpOff n 3)) 0 false)
      else movedOn (reachedCmp s.world n') n
        ((s.world.cmpValue n + periods ((reachedCmp s.world n').dev.clock.tb.toNat) (s.world.cmpValue n) (s.world.reg 5 0 (cmpOff n 2)).toNat *
          (s.world.reg 5 0 (cmpOff n 2)).toNat) % 2 ^ 64)
        (setFld (s.world.reg 5 0 (cmpOff n 3)) 16 16 (min (fld (s.world.reg 5 0 (cmpOff n 3)) 16 16 +
          (periods ((reachedCmp s.world n').dev.clock.tb.toNat) (s.world.cmpValue n) (s.world.reg 5 0 (cmpOff n 2)).toNat - 1)) 65535)))) := by
  subst e
  have period : (reachedCmp s.world n').reg 5 0 (cmpOff n' 2) = s.world.reg 5 0 (cmpOff n' 2) := by
    obtain ⟨-, regs, chim, fuse, -⟩ := interrupt_parts (w := s.world.upd fun d => d.advanceTb (s.world.cmpValue n')) (c := n' / 8) (k := 40 + n' % 8)
    exact reg_congr (w := s.world) fuse chim _ _ _ fun x => by
      show (((s.world.upd fun d => d.advanceTb (s.world.cmpValue n')).interrupt (n' / 8) (40 + n' % 8)).dev.regs.val).getD _ _ = _
      rw [regs]
      rfl
  show execTcmpFire n' s = _
  unfold execTcmpFire run
  dsimp only
  rw [if_pos on]
  unfold reachedCmp at period ⊢
  generalize (s.world.upd fun d => d.advanceTb (s.world.cmpValue n')).interrupt (n' / 8) (40 + n' % 8) = z at period ⊢
  rw [period]
  rfl

theorem cmpOff_control : 0x200C + 16 * n = cmpOff n 3 := by unfold cmpOff; omega

theorem cmpOff_period : 0x2008 + 16 * n = cmpOff n 2 := by unfold cmpOff; omega

/-- What an interrupt leaves of the core that it is for. -/
theorem core_interrupt {c : Nat} : ((w.dev.core c).run = true ∧ (w.dev.seam c).mode ≠ .halted →
      (w.interrupt c k).dev.core c = { w.dev.core c with ipend := setBit (w.dev.core c).ipend k true }) ∧
    (¬ ((w.dev.core c).run = true ∧ (w.dev.seam c).mode ≠ .halted) → (w.interrupt c k).dev.core c = w.dev.core c) := by
  unfold W.interrupt
  constructor
  · intro told
    rw [if_pos (by simpa using told), upd_dev, core_onCore_self]
  · intro dead
    rw [if_neg (by simpa using dead)]

theorem reachedCmp_parts {n : CompareId} : (reachedCmp w n).dev.clock = (w.dev.advanceTb (w.cmpValue n)).clock ∧ (reachedCmp w n).ops = w.ops ∧
    ((w.dev.core (n / 8)).run = true ∧ (w.dev.seam (n / 8)).mode ≠ .halted → (reachedCmp w n).dev.core (n / 8) =
      { w.dev.core (n / 8) with ipend := setBit (w.dev.core (n / 8)).ipend (40 + n % 8) true }) ∧
    (¬ ((w.dev.core (n / 8)).run = true ∧ (w.dev.seam (n / 8)).mode ≠ .halted) →
      (reachedCmp w n).dev.core (n / 8) = w.dev.core (n / 8)) ∧ (reachedCmp w n).cmpValue n = w.cmpValue n ∧ (reachedCmp w n).fuse = w.fuse := by
  unfold reachedCmp
  have ops : (w.upd fun d => d.advanceTb (w.cmpValue n)).ops = w.ops := rfl
  have clock : (w.upd fun d => d.advanceTb (w.cmpValue n)).dev.clock = (w.dev.advanceTb (w.cmpValue n)).clock := rfl
  have core : (w.upd fun d => d.advanceTb (w.cmpValue n)).dev.core (n / 8) = w.dev.core (n / 8) := rfl
  have seam : (w.upd fun d => d.advanceTb (w.cmpValue n)).dev.seam (n / 8) = w.dev.seam (n / 8) := rfl
  have value : (w.upd fun d => d.advanceTb (w.cmpValue n)).cmpValue n = w.cmpValue n := cmpValue_congr rfl rfl rfl
  have fuse' : (w.upd fun d => d.advanceTb (w.cmpValue n)).fuse = w.fuse := rfl
  generalize (w.upd fun d => d.advanceTb (w.cmpValue n)) = v at ops clock core seam value fuse' ⊢
  obtain ⟨clock', regs, chim, fuse, ops'⟩ := interrupt_parts (w := v) (c := n / 8) (k := 40 + n % 8)
  obtain ⟨told, still⟩ := core_interrupt (w := v) (c := n / 8) (k := 40 + n % 8)
  rw [core, seam] at told still
  exact ⟨clock'.trans clock, ops'.trans ops, told, still, (cmpValue_congr fuse chim regs).trans value, fuse.trans fuse'⟩

/-- A compare that is armed and reached (R267). -/
theorem tcmp_fires {n : CompareId} (on : bitAt (s.world.reg 5 0 (cmpOff n 3)) 0 = true) :
    let d := s.dev
    let v := s.world.cmpValue n
    let ctl := s.world.reg 5 0 (cmpOff n 3)
    let p := (s.world.reg 5 0 (cmpOff n 2)).toNat
    let told := (d.core (n / 8)).run = true ∧ (d.seam (n / 8)).mode ≠ .halted
    Answers (.tcmpFire n) s fun t =>
    let tb := t.dev.clock.tb.toNat
    t.dev.clock = (d.advanceTb v).clock ∧
    (told → t.dev.core (n / 8) = { d.core (n / 8) with ipend := setBit (d.core (n / 8)).ipend (40 + n % 8) true }) ∧
    (¬ told → t.dev.core (n / 8) = d.core (n / 8)) ∧
    (p = 0 → bitAt (t.world.reg 5 0 (cmpOff n 3)) 0 = false ∧ t.world.cmpValue n = v) ∧
    (p ≠ 0 → ∃ m, 0 < m ∧ tb < v + m * p ∧ v + (m - 1) * p ≤ tb ∧ t.world.cmpValue n = (v + m * p) % 2 ^ 64 ∧
      bitAt (t.world.reg 5 0 (cmpOff n 3)) 0 = true ∧ fld (t.world.reg 5 0 (cmpOff n 3)) 16 16 = min (fld ctl 16 16 + (m - 1)) 65535) ∧
    t.mem = s.mem ∧ t.fuse = s.fuse ∧ t.pending = s.pending := by
  intro d v ctl p told
  have row := tcmp_row on rfl
  obtain ⟨clock, ops, core, still, value, fuse⟩ := reachedCmp_parts (w := s.world) (n := n)
  have tb : (reachedCmp s.world n).dev.clock.tb.toNat = max s.dev.clock.tb.toNat v :=
    (congrArg (fun c : Clock => c.tb.toNat) clock).trans (tb_advanceTb cmpValue_lt)
  generalize reachedCmp s.world n = z at row clock ops core still value tb fuse
  by_cases once : p = 0
  · rw [if_pos once] at row
    have off : bitAt ((z.setReg 5 0 (cmpOff n 3) (setBit ctl 0 false)).reg 5 0 (cmpOff n 3)) 0 = false := by
      rw [reg_setReg_self, bitAt_setBit (by omega)]
    have value' : (z.setReg 5 0 (cmpOff n 3) (setBit ctl 0 false)).cmpValue n = v := by
      rw [W.cmpValue, reg_setReg_ne _ _ _ _ _ _ _ _ (cmpOff_ne (by omega)), reg_setReg_ne _ _ _ _ _ _ _ _ (cmpOff_ne (by omega))]
      exact value
    have clock' : (z.setReg 5 0 (cmpOff n 3) (setBit ctl 0 false)).dev.clock = (d.advanceTb v).clock := clock
    have ops' : (z.setReg 5 0 (cmpOff n 3) (setBit ctl 0 false)).ops = [] := ops
    have fuse' : (z.setReg 5 0 (cmpOff n 3) (setBit ctl 0 false)).fuse = s.fuse := fuse
    have core' : (z.setReg 5 0 (cmpOff n 3) (setBit ctl 0 false)).dev.core (n / 8) = z.dev.core (n / 8) := rfl
    rw [← core'] at core still
    change exec _ s = .next (stateOf s (z.setReg 5 0 (cmpOff n 3) (setBit ctl 0 false))) at row
    generalize z.setReg 5 0 (cmpOff n 3) (setBit ctl 0 false) = y at row off value' clock' ops' fuse' core still
    exact ⟨_, row, clock', core, still, fun _ => ⟨by rw [reg_state fuse', off], by rw [cmpValue_state fuse', value']⟩,
      fun some_ => absurd once some_, congrArg s.mem.applyAll ops', rfl, rfl⟩
  · rw [if_neg once] at row
    obtain ⟨pos, most, least⟩ := periods_spec (tb := z.dev.clock.tb.toNat) (v := v) (p := p) (by omega) (Nat.pos_of_ne_zero once)
    change exec _ s = .next (stateOf s (movedOn z n ((v + periods z.dev.clock.tb.toNat v p * p) % 2 ^ 64)
      (setFld ctl 16 16 (min (fld ctl 16 16 + (periods z.dev.clock.tb.toNat v p - 1)) 65535)))) at row
    generalize periods z.dev.clock.tb.toNat v p = m at row pos most least
    have value' := movedOn_value (w := z) (n := n) (y := (v + m * p) % 2 ^ 64)
      (z := setFld ctl 16 16 (min (fld ctl 16 16 + (m - 1)) 65535)) (Nat.mod_lt _ (Nat.two_pow_pos 64))
    have armed := movedOn_armed (w := z) (n := n) (y := (v + m * p) % 2 ^ 64) (c := ctl) (x := min (fld ctl 16 16 + (m - 1)) 65535) (by omega)
    obtain ⟨dev, ops', fuse'⟩ := movedOn_beside (w := z) (n := n) (y := (v + m * p) % 2 ^ 64)
      (z := setFld ctl 16 16 (min (fld ctl 16 16 + (m - 1)) 65535))
    obtain ⟨clock', cores⟩ := dev
    generalize movedOn z n ((v + m * p) % 2 ^ 64) (setFld ctl 16 16 (min (fld ctl 16 16 + (m - 1)) 65535)) = y
      at row value' armed ops' fuse' clock' cores
    have core' : y.dev.core (n / 8) = z.dev.core (n / 8) := by rw [Dev.core, Dev.core, cores]
    rw [← core'] at core still
    rw [← clock'] at most least
    obtain ⟨bit, missed⟩ := armed
    exact ⟨_, row, clock'.trans clock, core, still, fun none_ => absurd none_ once,
      fun _ => ⟨m, pos, most, least, (cmpValue_state (fuse'.trans fuse)).trans value', by rw [reg_state (fuse'.trans fuse), bit, on],
        by rw [reg_state (fuse'.trans fuse), missed]⟩, congrArg s.mem.applyAll (ops'.trans ops), rfl, rfl⟩

/-- The loss of sync (R250). -/
theorem holdover_begins (ethernet : 1 ≤ s.world.tbSource ∧ s.world.tbSource ≤ 4) (free : s.dev.clock.holdover = false) :
    Answers .syncTimeout s fun t => LevelDetected s t 0x260 0 0 s.dev.clock.tb ∧
      Beside s t fun d => { d with clock := { d.clock with holdover := true, locked := false, good := 0 } } := by
  obtain ⟨found, beside⟩ := level_after (s := s) (n := 0x260) (d0 := 0) (d1 := 0)
    (f := fun d => { d with clock := { d.clock with holdover := true, locked := false, good := 0 } })
    (g := fun d => { d with clock := { d.clock with holdover := true, locked := false, good := 0 } })
    ⟨rfl, rfl, rfl, rfl, rfl, rfl⟩ (by unfold Plain Noted; decide) rfl rfl rfl
  refine ⟨_, next_of ((if_pos ethernet).trans (if_neg ?_)), found, beside⟩
  rw [show s.world.dev.clock.holdover = false from free]
  exact Bool.false_ne_true

/-- The frame that each bellows has started stands in what follows. -/
theorem started_answers {h f : Nat} {a w : W} (x : FrameStarted h f a w) : (w.dev.blw h).frame = w32 (f % 2 ^ 32) ∧ (w.dev.blw h).phase ≠ .stopped ∧
    ((a.dev.blw h).phase = .window ∨ (a.dev.blw h).phase = .slots → (a.dev.blw h).todo ≠ [] →
      (w.dev.blw h).ovrCnt = satInc (a.dev.blw h).ovrCnt ∧ w.hreg h 0x608 = (a.dev.blw h).frame) := by
  obtain ⟨frame, goes, late⟩ := x
  refine ⟨frame, goes, fun phase todo => ?_⟩
  obtain ⟨count, reg⟩ := late ⟨phase, todo⟩
  exact ⟨count, by rw [W.hreg, W.reg, Tbl.getD, show w.dev.regs.val.get? (blockBase 16 h + 0x608) = _ from reg, Option.getD_some]⟩

/-- What a boundary leaves that starts frame `f` (R230, R252). -/
def Boundary (s : State) (f : Nat) (t : State) : Prop :=
  let d := s.dev
  let at_ := (d.advanceTb (25000 * f)).clock
  t.dev.clock.frame = w64 f ∧ t.dev.clock.ivl = at_.ivl ∧
    (∀ k, k < 65 → (d.core k).run = true → (d.seam k).mode ≠ .halted → bitAt (t.dev.core k).ipend 32 = true) ∧
    (∀ h, h < 16 → s.world.bellowsOn h = true →
      (t.dev.blw h).frame = w32 (f % 2 ^ 32) ∧ (t.dev.blw h).phase ≠ .stopped ∧
      ((d.blw h).phase = .window ∨ (d.blw h).phase = .slots → (d.blw h).todo ≠ [] →
        (t.dev.blw h).ovrCnt = satInc (d.blw h).ovrCnt ∧ t.world.hreg h 0x608 = (d.blw h).frame)) ∧
    (match d.chim.stepDue with
     | some (off, due) =>
       if due.toNat ≤ f then t.dev.chim.stepDue = none ∧ t.dev.clock.tb = at_.tb + off ∧
         t.dev.clock.stepCnt = satInc d.clock.stepCnt
       else t.dev.clock.tb = at_.tb ∧ t.dev.chim.stepDue = some (off, due)
     | none => t.dev.clock.tb = at_.tb ∧ t.dev.clock.stepCnt = d.clock.stepCnt)

/-- The frames of the bellows and the sources of the cores stand through a step of the time base. -/
theorem boundary_stepped {f : Nat} {z : W} (clock : z.dev.clock = (atFrame f s.dev).clock) (due : z.dev.chim.stepDue = s.dev.chim.stepDue)
    (cores : ∀ k, k < 65 → (s.dev.core k).run = true → (s.dev.seam k).mode ≠ .halted → z.dev.images.cut = none ∧
      (z.dev.core k).run = true ∧ bitAt (z.dev.core k).ipend 32 = true)
    (bells : ∀ h, h < 16 → s.world.bellowsOn h = true → FrameStarted h f s.world z) : Boundary s f (stateOf s (stepAt z f)) := by
  have waits (calm : ∀ off due, z.dev.chim.stepDue = some (off, due) → ¬ due.toNat ≤ f) : stepAt z f = z := stepAt_chimes calm
  have still (same : stepAt z f = z) : (z.dev.clock.frame = w64 f ∧ z.dev.clock.ivl = (s.dev.advanceTb (25000 * f)).clock.ivl) ∧
      z.dev.clock.tb = (s.dev.advanceTb (25000 * f)).clock.tb ∧ z.dev.clock.stepCnt = s.dev.clock.stepCnt := by
    rw [clock]
    exact ⟨⟨rfl, rfl⟩, rfl, rfl⟩
  unfold Boundary
  dsimp only
  cases found : s.dev.chim.stepDue with
  | none =>
    have same := waits fun off due' some_ => by rw [due, found] at some_; cases some_
    obtain ⟨⟨frame, ivl⟩, tb, count⟩ := still same
    rw [same]
    exact ⟨frame, ivl, fun k low run goes => (cores k low run goes).2.2, fun h low on => started_answers (bells h low on), tb, count⟩
  | some step =>
    obtain ⟨off, at_⟩ := step
    by_cases now : at_.toNat ≤ f
    · have rest (h : Nat) : Chimes (h + 1) h (z.upd (stepped off)) (stepAt z f) := stepAt_due (due.trans found) now
      have env := (rest 16).clock
      have done := (rest 16).due
      have frames (h : Nat) (low : h < 16) (on : s.world.bellowsOn h = true) : FrameStarted h f s.world (stepAt z f) :=
        FrameStarted.after (w := z.upd (stepped off)) (bells h low on) (rest h)
      have told (k : Nat) (low : k < 65) (run : (s.dev.core k).run = true) (goes : (s.dev.seam k).mode ≠ .halted) :
          bitAt ((stepAt z f).dev.core k).ipend 32 = true := by
        obtain ⟨cut, runs, on⟩ := cores k low run goes
        exact (((rest 16).calm cut).2 k runs).2 32 on
      clear rest
      generalize stepAt z f = y at env done frames told ⊢
      have tells : y.dev.clock = (stepped off (atFrame f s.dev)).clock := env.trans (congrArg (fun c : Clock =>
        { c with tb := c.tb + off, stepCnt := satInc c.stepCnt }) clock)
      refine ⟨congrArg Clock.frame tells, (congrArg Clock.ivl tells :), told, fun h low on => started_answers (frames h low on), ?_⟩
      simp only [if_pos now]
      exact ⟨done, congrArg Clock.tb tells, congrArg Clock.stepCnt tells⟩
    · have same := waits fun off' due' some_ => by
        rw [due, found] at some_
        cases some_
        exact now
      obtain ⟨⟨frame, ivl⟩, tb, count⟩ := still same
      rw [same]
      refine ⟨frame, ivl, fun k low run goes => (cores k low run goes).2.2, fun h low on => started_answers (bells h low on), ?_⟩
      simp only [if_neg now]
      exact ⟨tb, due.trans found⟩

/-- A boundary that is taken (R230, R252). -/
theorem boundary_taken (runs : s.dev.clock.running = true) (cut : s.dev.images.cut = none) :
    Answers .frameBoundary s (Boundary s (nextFrame s.dev.clock)) := by
  refine ⟨_, boundary_row runs, ?_⟩
  have env := framed_chimes (w := s.world) (f := nextFrame s.dev.clock) (h := 16) (by omega)
  exact boundary_stepped env.clock env.due (fun k low => framed_pends (w := s.world) low cut) fun h low => framed_started (w := s.world) low

/-- Settles O31: each start of a frame keeps what the others have started. -/
theorem framesAndCompares : Obligations.FramesAndCompares := by
  intro s n d w cur f at_ v ctl p told
  refine ⟨fun still => ⟨_, next_of (if_pos still), rfl⟩, fun runs cut => boundary_taken runs cut, fun off => ?_, fun on => ?_, ?_⟩
  · refine ⟨_, next_of (if_neg ?_), rfl⟩
    rw [show bitAt (s.world.reg 5 0 (cmpOff n 3)) 0 = false from cmpOff_control ▸ off]
    exact Bool.false_ne_true
  · have fires := tcmp_fires (s := s) (n := n) (cmpOff_control ▸ on)
    rw [← cmpOff_control, ← cmpOff_period] at fires
    exact fires
  · refine ⟨fun none_ => ?_, fun low high free => holdover_begins ⟨low, high⟩ free⟩
    show Answers .syncTimeout s (Only s · id)
    by_cases ethernet : 1 ≤ s.world.tbSource ∧ s.world.tbSource ≤ 4
    · have held : s.world.dev.clock.holdover = true :=
        (none_.resolve_left (Nat.ne_of_gt ethernet.1)).resolve_left (Nat.not_le.mpr (Nat.lt_succ_of_le ethernet.2))
      exact ⟨_, next_of ((if_pos ethernet).trans (if_pos held)), rfl⟩
    · exact ⟨_, next_of (if_neg ethernet), rfl⟩

end Sys2Proof.Proofs
end

section
/-! O35: the chain of an arbitrary state may name any number as its cell, and the payload of one that is no cell of the pool stands
where an owner entry does. -/

namespace Sys2Proof.Proofs

open Machine Laws

set_option Elab.async false

/-- Queue 0 with one visible word in a cell beyond the pool: byte 0 of that word is the byte of the cell's owner entry. -/
def strayCell : State :=
  { State.reset with dev := { State.reset.dev with bobbin := { State.reset.dev.bobbin with
    queues := State.reset.dev.bobbin.queues.set 0 { cfg := { mode := .word }, ends := some (66576, 66576), rd := 2, words := 1, rdSeq := 2 }
    pool := State.reset.dev.bobbin.pool.set (16 * 66576 + 1) 3 } } }

/-- The bytes of the payload and of the owner entry are one. -/
theorem strayCell_meets : 64 * 66576 + 4 * (2 + 2 % 14) = ownerByte 66576 := by decide

/-- The answer that a row leaves. -/
def outLeft (i : Instr) (s : State) : Answer :=
  match exec i s with
  | .next t => t.dev.out
  | _ => .none

theorem outLeft_of {i : Instr} {s t : State} (ran : exec i s = .next t) : outLeft i s = t.dev.out := by rw [outLeft, ran]

theorem strayCell_admits : strayCell.world.fwAdmits 3 ((pageAddr 0 8 - fwBase 3) / 256) strayCell.world.stokerRid .read = true := by
  decide +kernel

theorem strayCell_head : strayCell.world.head (0 : QueueId).val = some (0, true, true, 2) := by decide +kernel

theorem strayCell_chain : strayCell.world.chainOk (0 : QueueId).val = true := by decide +kernel

/-- The double error meets the owner entry, and the queue is BROKEN. -/
theorem strayCell_out : outLeft (.peek strayCell.world.stokerRid 0 .payload) strayCell = .word 0x200000000 := by decide +kernel

/-- Refutes O35: a double error in the payload of such a cell breaks the queue instead of poisoning the word. -/
theorem not_queuePages : ¬ Obligations.QueuePages := by
  intro holds
  obtain ⟨-, -, -, -, struck, -⟩ := holds strayCell strayCell.world.stokerRid 0 0 0 0
  obtain ⟨-, t, ran, out, -⟩ := struck
    ⟨⟨by decide +kernel, strayCell_admits⟩, rfl, rfl, by rw [strayCell_head]; exact Option.some_ne_none _, by decide +kernel⟩ strayCell_chain
  have left := (outLeft_of ran).symm.trans strayCell_out
  rw [out] at left
  have word := Answer.word.inj left
  dsimp only at word
  rw [strayCell_head] at word
  exact absurd word (by decide)

end Sys2Proof.Proofs
end

section
/-! O55: what the arbiter of a hob grants (R189 to R192). -/

namespace Sys2Proof.Proofs

open Machine Laws

set_option Elab.async false

variable {s : State} {w v x : W} {u k o n : Nat} {q : HobReq} {qs l : List HobReq}

/-! The access that is granted. -/

/-- With one access of each master, the first of each master is every access. -/
theorem firstOfEach_once (once : (qs.map (·.master)).Nodup) : firstOfEach qs = qs := by
  induction qs with
  | nil => rfl
  | cons a qs ih =>
    rw [List.map_cons, List.nodup_cons] at once
    obtain ⟨fresh, once⟩ := once
    rw [firstOfEach, ih once]
    congr 1
    rw [List.filter_eq_self]
    intro y mem
    rw [bne_iff_ne]
    intro same
    exact fresh (same ▸ List.mem_map_of_mem mem)

/-- Accesses of one master are one access. -/
theorem master_once {a b : HobReq} (once : (qs.map (·.master)).Nodup) (ha : a ∈ qs) (hb : b ∈ qs) (same : a.master = b.master) : a = b :=
  List.inj_on_of_nodup_map once ha hb same

/-- The channels of the hearth DMA take turns, and one access of them is one. -/
theorem dmaTurn_perm {ptr : Nat} (once : (qs.map (·.master)).Nodup) : (dmaTurn ptr qs).Perm qs := by
  unfold dmaTurn
  extract_lets ds turn
  have whole : turn.toList = qs.filter fun q => q.master == 5 := by
    have few : ds.length ≤ 1 := by
      have nodup : (ds.map (·.master)).Nodup := once.sublist (List.filter_sublist.map _)
      have five : ds.map (·.master) = List.replicate ds.length 5 := by
        rw [List.eq_replicate_iff]
        refine ⟨List.length_map _, fun m mem => ?_⟩
        obtain ⟨y, mem', rfl⟩ := List.mem_map.mp mem
        simpa using (List.mem_filter.mp mem').2
      rw [five] at nodup
      exact List.nodup_replicate.mp nodup
    show turn.toList = ds
    match found : ds, few with
    | [], _ =>
      have none_ : turn = none := List.findSome?_eq_none_iff.mpr fun i _ => by rw [found]; rfl
      rw [none_]
      rfl
    | [y], _ =>
      cases last : turn with
      | none =>
        have none_ := List.findSome?_eq_none_iff.mp last ((y.chan.toNat + 16 - ptr % 16) % 16) (List.mem_range.mpr (Nat.mod_lt _ (by omega)))
        rw [found, List.find?_eq_none] at none_
        have chan := y.chan.isLt
        exact absurd (beq_iff_eq.mpr (by omega)) (none_ y List.mem_cons_self)
      | some z =>
        obtain ⟨i, -, some_⟩ := List.exists_of_findSome?_eq_some last
        have mem := List.mem_of_find?_eq_some some_
        rw [found, List.mem_singleton] at mem
        rw [mem]
        rfl
  rw [whole]
  refine List.Perm.trans List.perm_append_comm ?_
  have parts := List.filter_append_perm (fun q : HobReq => q.master == 5) qs
  exact parts

/-- The access that the arbiter looks at in place `i` from its pointer on. -/
def turnOf (n ptr : Nat) (qs : List HobReq) (i : Nat) : Option HobReq := qs.find? fun q => q.master == (ptr + i) % n

theorem turnOf_iff {ptr i : Nat} (once : (qs.map (·.master)).Nodup) : turnOf n ptr qs i = some q ↔ q ∈ qs ∧ q.master = (ptr + i) % n := by
  unfold turnOf
  constructor
  · intro found
    exact ⟨List.mem_of_find?_eq_some found, by simpa using List.find?_some found⟩
  · rintro ⟨mem, same⟩
    cases found : qs.find? fun q => q.master == (ptr + i) % n with
    | none =>
      rw [List.find?_eq_none] at found
      exact absurd (beq_iff_eq.mpr same) (found q mem)
    | some y =>
      have master : y.master = (ptr + i) % n := by simpa using List.find?_some found
      rw [master_once once (List.mem_of_find?_eq_some found) mem (master.trans same.symm)]

/-- The place of a master in the rotation. -/
def rankOf (n ptr k : Nat) : Nat := (k + n - ptr % n) % n

theorem rankOf_spec {ptr i : Nat} (low : k < n) (place : i < n) : k = (ptr + i) % n ↔ rankOf n ptr k = i := by
  have below : ptr % n < n := Nat.mod_lt _ (by omega)
  have wrap (a : Nat) (twice : a < 2 * n) : a % n = if a < n then a else a - n := by
    split
    · next small => exact Nat.mod_eq_of_lt small
    · next big => rw [Nat.mod_eq_sub_mod (by omega), Nat.mod_eq_of_lt (by omega)]
  rw [← Nat.mod_add_mod, rankOf]
  generalize ptr % n = r at below ⊢
  rw [wrap (r + i) (by omega), wrap (k + n - r) (by omega)]
  split <;> split <;> omega

/-- The first access in rotation that is not passed over is granted. -/
theorem hobGrant_eq {ptr : Nat} {passed : List (Nat × Nat)} (once : (qs.map (·.master)).Nodup) (valid : ∀ y ∈ qs, y.master < n) (mem : q ∈ qs)
    (free : passedOver passed qs q = false) (first : ∀ y ∈ qs, rankOf n ptr y.master < rankOf n ptr q.master → passedOver passed qs y = true) :
    hobGrant n ptr passed qs = some q := by
  have pos : 0 < n := Nat.lt_of_le_of_lt (Nat.zero_le _) (valid q mem)
  have place (y : HobReq) : rankOf n ptr y.master < n := Nat.mod_lt _ pos
  have own (y : HobReq) (mem : y ∈ qs) : turnOf n ptr qs (rankOf n ptr y.master) = some y :=
    (turnOf_iff once).mpr ⟨mem, (rankOf_spec (valid y mem) (place y)).mpr rfl⟩
  unfold hobGrant rotated
  rw [List.find?_filterMap]
  have found : (List.range n).find? (fun i => (turnOf n ptr qs i).any fun y => !passedOver passed qs y) = some (rankOf n ptr q.master) := by
    rw [List.find?_range_eq_some]
    refine ⟨?_, List.mem_range.mpr (place q), fun j before => ?_⟩
    · rw [own q mem, Option.any_some, free]
      rfl
    · cases turn : turnOf n ptr qs j with
      | none => rfl
      | some y =>
        obtain ⟨mem', same⟩ := (turnOf_iff once).mp turn
        have rank := (rankOf_spec (valid y mem') (Nat.lt_trans before (place q))).mp same
        rw [Option.any_some, first y mem' (rank ▸ before)]
        rfl
  exact (congrArg (fun r : Option Nat => r.bind (turnOf n ptr qs)) found).trans (own q mem)

end Sys2Proof.Proofs
end

section
/-! O55: what a granted access of a hob leaves (R188 to R198). -/

namespace Sys2Proof.Proofs

open Machine Laws

set_option Elab.async false

variable {s : State} {w v x : W} {u k o n : Nat} {q : HobReq} {qs l : List HobReq}

/-! The conflict counters (R192). -/

/-- The world with other registers. -/
def besideRegs (w : W) (r : Regs) : W := w.upd fun d => { d with regs := r }

theorem setHobReg_regs {a : Word32} : ∃ r, w.setHobReg u o a = besideRegs w r := by
  unfold W.setHobReg
  split <;> exact ⟨_, rfl⟩

theorem conflict_regs {ms : List Nat} : ∃ r, w.conflict u ms = besideRegs w r := by
  induction ms generalizing w with
  | nil => exact ⟨w.dev.regs, rfl⟩
  | cons m ms ih =>
    obtain ⟨r, first⟩ := setHobReg_regs (w := w) (u := u) (o := 0x240 + 4 * m) (a := satInc (w.hobReg u (0x240 + 4 * m)))
    obtain ⟨r', rest⟩ := ih (w := besideRegs w r)
    refine ⟨r', ?_⟩
    show (w.setHobReg u (0x240 + 4 * m) (satInc (w.hobReg u (0x240 + 4 * m)))).conflict u ms = _
    rw [first, rest]
    rfl

theorem hobReg_setHobReg_self {a : Word32} : (w.setHobReg u o a).hobReg u o = a := by
  unfold W.setHobReg W.hobReg
  split <;> exact getD_set_self _ _ _ _

theorem hobReg_setHobReg_ne {a : Word32} {o' : Nat} (ne : o' ≠ o) : (w.setHobReg u o a).hobReg u o' = w.hobReg u o' := by
  unfold W.setHobReg W.hobReg
  split <;> exact reg_setReg_ne _ _ _ _ _ _ _ _ (by omega)

/-- Each master of the list counts once. -/
theorem conflict_counts {ms : List Nat} (once : ms.Nodup) (k : Nat) : (w.conflict u ms).hobReg u (0x240 + 4 * k) =
    if k ∈ ms then satInc (w.hobReg u (0x240 + 4 * k)) else w.hobReg u (0x240 + 4 * k) := by
  induction ms generalizing w with
  | nil => rfl
  | cons m ms ih =>
    rw [List.nodup_cons] at once
    obtain ⟨fresh, once⟩ := once
    refine (ih (w := w.setHobReg u (0x240 + 4 * m) (satInc (w.hobReg u (0x240 + 4 * m)))) once).trans ?_
    by_cases own : k = m
    · subst own
      rw [if_neg fresh, if_pos List.mem_cons_self, hobReg_setHobReg_self]
    · rw [hobReg_setHobReg_ne (by omega)]
      simp only [List.mem_cons, own, false_or]

/-- The counters are no registers of the images. -/
theorem hreg_setHobReg {a : Word32} {h : Nat} (low : o < 0x300) (high : 0x300 ≤ n) (small : n < 0x10000) :
    (w.setHobReg u o a).hreg h n = w.hreg h n := by
  unfold W.setHobReg W.hreg
  split
  · exact reg_setReg_ne _ _ _ _ _ _ _ _ (by simp only [blockBase]; norm_num; omega)
  · exact reg_setReg_ne _ _ _ _ _ _ _ _ (by simp only [blockBase]; norm_num; omega)

theorem hreg_conflict {ms : List Nat} {h : Nat} (few : ∀ m ∈ ms, m < 8) (high : 0x300 ≤ n) (small : n < 0x10000) :
    (w.conflict u ms).hreg h n = w.hreg h n := by
  induction ms generalizing w with
  | nil => rfl
  | cons m ms ih =>
    exact (ih fun y mem => few y (List.mem_cons_of_mem _ mem)).trans
      (hreg_setHobReg (by have := few m List.mem_cons_self; omega) high small)

/-- What the output selector serves depends on the registers of the images and on the bellows. -/
theorem seen_congr {h : Nat} (regs : ∀ n, 0x300 ≤ n → n < 0x10000 → v.hreg h n = w.hreg h n) (bellows : v.dev.bellows = w.dev.bellows)
    (reset : v.regReset = w.regReset) (off : Nat) : v.seen h off = w.seen h off := by
  have blw : v.dev.blw h = w.dev.blw h := by rw [Dev.blw, Dev.blw, bellows]
  have use (n : Nat) (high : 0x300 ≤ n) (low : n < 0x10000) : v.inUse h n = w.inUse h n := by
    unfold W.inUse
    rw [blw, regs n high low, reset]
  have image : v.outImage h = w.outImage h := by rw [W.outImage, W.outImage, use _ (by omega) (by omega)]
  unfold W.seen
  dsimp only
  rw [image]
  generalize w.outImage h = b
  by_cases within : b ≤ off ∧ off < b + 0x4000
  · have group : v.outGroup h ((off - b) / 32) = w.outGroup h ((off - b) / 32) := by
      rw [W.outGroup, W.outGroup, use _ (by omega) (by omega)]
    rw [group, W.selected, W.selected, blw]
  · rw [if_neg fun all_ => within ⟨all_.1, all_.2.1⟩, if_neg fun all_ => within ⟨all_.1, all_.2.1⟩]

/-! The granted access, in a hob that is awake and holds no flipped bit and no armed injection. -/

/-- No error code and no injection meets an access of the hob. -/
structure Sound (w : W) (u : Nat) : Prop where
  flips : w.dev.flips.rows = []
  awake : (w.dev.hob u).power = .awake
  free : (w.dev.hob u).inject = none

/-- What a granted access leaves of the device, beside the memory. -/
structure Served (u : Nat) (v x : W) (g : Hob) (ops : List MemOp) : Prop where
  hob : x.dev.hob u = g
  regs : x.dev.regs = v.dev.regs
  chim : x.dev.chim = v.dev.chim
  fuse : x.fuse = v.fuse
  ops : x.ops = ops
  out : x.dev.out = v.dev.out

theorem hob_granted : (w.granted u k).dev.hob u = { w.dev.hob u with ptr := (k + 1) % hobMasters u } := hob_onHob_self _ _ _

theorem Sound.granted (h : Sound w u) : Sound (w.granted u k) u :=
  ⟨h.flips, by rw [hob_granted]; exact h.awake, by rw [hob_granted]; exact h.free⟩

theorem Served.granted {g : Hob} {ops : List MemOp} (h : Served u v x g ops) : Served u v (x.granted u k) { g with ptr := (k + 1) % hobMasters u } ops :=
  ⟨hob_granted.trans (by rw [h.hob]), h.regs, h.chim, h.fuse, h.ops, h.out⟩

theorem served_granted : Served u v (v.granted u k) { v.dev.hob u with ptr := (k + 1) % hobMasters u } v.ops := ⟨hob_granted, rfl, rfl, rfl, rfl, rfl⟩

theorem Served.poke {g : Hob} {ops : List MemOp} {a : Nat} {bs : List Byte} (h : Served u v x g ops) :
    Served u v (x.poke a bs) g (.put a bs :: ops) :=
  ⟨h.hob, h.regs, h.chim, h.fuse, by rw [W.poke, h.ops], h.out⟩

theorem hobBase_port : hobBase u % 32 = 0 := by
  unfold hobBase
  split <;> omega

/-- A code word that no bit is flipped of. -/
theorem decode13_plain : ∀ b : Byte, decode13 (encode13 b ^^^ 0) = .good b := by decide +kernel

theorem freshCode_plain {a : Nat} (flips : w.dev.flips.rows = []) : w.freshCode a = w := by
  unfold W.freshCode W.cell13
  rw [show w.dev.flips.getD a 0 = 0 by rw [Tbl.getD, Tbl.get?, flips]; rfl, decode13_plain]

/-- A read through the output selector of bytes of one port word. -/
theorem readSel_sound {m : Rid} {off : Nat} (h : Sound w u) (pos : 0 < n) (fits : off % 32 + n ≤ 32) :
    w.hobReadSel m u (hobBase u + off) n =
      (.data (w.bytes (if u < 16 then hobBase u + w.seen u off else hobBase u + off) n), w.granted u (hobMaster w.dev.chim.pos u m)) := by
  have base := hobBase_port (u := u)
  rw [W.hobReadSel, wordPieces_one pos (by omega), W.hobReadParts]
  dsimp only
  rw [Nat.add_sub_cancel_left, hobRead_plain _ _ _ _ _ h.flips h.awake]
  rfl

/-- An access that changes bytes in one grant. -/
theorem modify_sound {m : Rid} {r a : Nat} {f : List Byte → List Byte} (h : Sound w u) :
    w.hobModify m u k r a n f = (.data (w.bytes r n), ((w.granted u (hobMaster w.dev.chim.pos u m)).granted u k).poke a (f (w.bytes r n))) := by
  have next := h.granted (k := hobMaster w.dev.chim.pos u m)
  rw [W.hobModify, hobRead_plain _ _ _ _ _ h.flips h.awake]
  dsimp only
  rw [hobWrite_plain _ _ _ _ _ next.flips next.awake next.free]

/-- The tester's access: the oldest correction, or one that is owed (R189, R196). -/
theorem testerGo_sound (h : Sound w u) : Served u w ((w.testerGo u).granted u (hobTester u))
    { w.dev.hob u with
      wbq := (w.dev.hob u).wbq.drop 1, owed := if (w.dev.hob u).wbq = [] then (w.dev.hob u).owed - 1 else (w.dev.hob u).owed
      ptr := (hobTester u + 1) % hobMasters u } w.ops := by
  unfold W.testerGo
  cases wbq : (w.dev.hob u).wbq with
  | nil =>
    have first : Served u w (w.upd fun d => d.onHob u fun h => { h with owed := h.owed - 1 }) { w.dev.hob u with owed := (w.dev.hob u).owed - 1 } w.ops :=
      ⟨hob_onHob_self _ _ _, rfl, rfl, rfl, rfl, rfl⟩
    have all_ := first.granted (k := hobTester u)
    simp only [List.isEmpty_nil, if_true, List.drop_nil]
    rw [← wbq]
    exact all_
  | cons a r =>
    have fresh : (w.upd fun d => d.onHob u fun h => { h with wbq := r }).freshCode (hobBase u + a) = w.upd fun d => d.onHob u fun h => { h with wbq := r } :=
      freshCode_plain h.flips
    have first : Served u w (w.upd fun d => d.onHob u fun h => { h with wbq := r }) { w.dev.hob u with wbq := r } w.ops :=
      ⟨hob_onHob_self _ _ _, rfl, rfl, rfl, rfl, rfl⟩
    have all_ := (first.granted (k := hobTester u)).granted (k := hobTester u)
    simp only [List.isEmpty_cons, Bool.false_eq_true, if_false, W.drainWb, wbq, fresh, List.drop_one, List.tail_cons, reduceCtorEq]
    exact all_

end Sys2Proof.Proofs
end

section
/-! O55: the arbiter of a hob, as the statement has it (R189 to R192). -/

namespace Sys2Proof.Proofs

open Machine Laws

set_option Elab.async false

variable {s : State} {w v x : W} {u : UnitId} {k o n : Nat} {q : HobReq} {qs l : List HobReq}

/-- The reads that a grant to a write passes over. -/
def newsOf (q : HobReq) (l : List HobReq) : List (Nat × Nat) :=
  if HobReq.isWrite q then ((l.filter fun x => x.master != q.master).filter fun x => !HobReq.isWrite x && HobReq.word x == HobReq.word q).map fun x =>
    (x.master, q.master) else []

/-- The hob that has granted the access. -/
def passing (q : HobReq) (l : List HobReq) (b : Hob) : Hob :=
  { b with passed := newsOf q l ++ b.passed.filter (fun p => p.1 != q.master && !(newsOf q l).contains p),
           dmaPtr := if q.master = 5 then q.chan + 1 else b.dmaPtr }

/-- The world in which the granted access is performed. -/
def grantingW (w : W) (u : Nat) (q : HobReq) (l : List HobReq) : W :=
  (w.upd fun d => d.onHob u (passing q l)).conflict u ((l.filter fun x => x.master != q.master).map HobReq.master)

theorem mem_newsOf {r m : Nat} : (r, m) ∈ newsOf q l ↔ m = q.master ∧ HobReq.isWrite q = true ∧
    ∃ y ∈ l, y.master = r ∧ r ≠ q.master ∧ HobReq.isWrite y = false ∧ HobReq.word y = HobReq.word q := by
  unfold newsOf
  split
  · next writes =>
    simp only [List.mem_map, List.mem_filter, bne_iff_ne, Bool.and_eq_true, Bool.not_eq_true', beq_iff_eq, Prod.mk.injEq]
    constructor
    · rintro ⟨y, ⟨⟨mem, ne⟩, reads, word⟩, rfl, rfl⟩
      exact ⟨rfl, writes, y, mem, rfl, ne, reads, word⟩
    · rintro ⟨rfl, -, y, mem, rfl, ne, reads, word⟩
      exact ⟨y, ⟨⟨mem, ne⟩, reads, word⟩, rfl, rfl⟩
  · next reads =>
    constructor
    · intro mem
      cases mem
    · rintro ⟨-, writes, -⟩
      exact absurd writes reads

/-- What the grant remembers (R191). -/
theorem mem_passing {b : Hob} {r m : Nat} (same : ∀ y, y ∈ l ↔ y ∈ qs) : (r, m) ∈ (passing q l b).passed ↔
    (m = q.master ∧ HobReq.isWrite q = true ∧
      ∃ y ∈ qs, y.master = r ∧ r ≠ q.master ∧ HobReq.isWrite y = false ∧ HobReq.word y = HobReq.word q) ∨
    ((r, m) ∈ b.passed ∧ r ≠ q.master) := by
  have news : (r, m) ∈ newsOf q l ↔ m = q.master ∧ HobReq.isWrite q = true ∧
      ∃ y ∈ qs, y.master = r ∧ r ≠ q.master ∧ HobReq.isWrite y = false ∧ HobReq.word y = HobReq.word q := by
    rw [mem_newsOf]
    simp only [same]
  rw [← news]
  show (r, m) ∈ newsOf q l ++ b.passed.filter (fun p => p.1 != q.master && !(newsOf q l).contains p) ↔ _
  simp only [List.mem_append, List.mem_filter, bne_iff_ne, Bool.and_eq_true, Bool.not_eq_true']
  by_cases new : (r, m) ∈ newsOf q l
  · simp only [new, true_or]
  · simp only [new, false_or]
    constructor
    · rintro ⟨mem, ne, -⟩
      exact ⟨mem, ne⟩
    · rintro ⟨mem, ne⟩
      exact ⟨mem, ne, by simpa using new⟩

/-- What the statement asks of the accesses and of the hob. -/
structure Granted (s : State) (u : UnitId) (qs : List HobReq) (q : HobReq) : Prop where
  valid : ∀ x ∈ qs, HobReq.valid u x = true
  once : (qs.map (·.master)).Nodup
  sound : Sound s.world u
  on : s.dev.sys.mode ≠ .off
  work : (∃ x ∈ qs, x.master = hobTester u) → s.world.testerWaits u = true
  mem : q ∈ qs
  free : passedOver (s.dev.hob u).passed qs q = false
  first : ∀ y ∈ qs, rankOf (hobMasters u) (s.dev.hob u).ptr y.master < rankOf (hobMasters u) (s.dev.hob u).ptr q.master →
    passedOver (s.dev.hob u).passed qs y = true
  fits : q.off.toNat % 32 + q.size ≤ 32

/-- The accesses as the arbiter orders them. -/
abbrev ordered (s : State) (u : UnitId) (qs : List HobReq) : List HobReq := dmaTurn (s.dev.hob u).dmaPtr.toNat qs

theorem master_lt (h : Granted s u qs q) {y : HobReq} (mem : y ∈ qs) : y.master < hobMasters u := by
  have ok := h.valid y mem
  unfold HobReq.valid at ok
  simp only [Bool.and_eq_true, decide_eq_true_eq] at ok
  exact ok.1.1.1.1

theorem hobMasters_le : hobMasters n ≤ 8 := by
  unfold hobMasters
  split <;> omega

theorem passedOver_congr {passed : List (Nat × Nat)} {y : HobReq} (same : ∀ z, z ∈ l ↔ z ∈ qs) : passedOver passed l y = passedOver passed qs y := by
  unfold passedOver
  congr 1
  rw [Bool.eq_iff_iff, List.any_eq_true, List.any_eq_true]
  simp only [same]

/-- The row grants `q`. -/
theorem hobAccess_row (h : Granted s u qs q) : exec (.hobAccess u qs) s = .next (stateOf s
    (let v := grantingW s.world u q (ordered s u qs)
     let y := (v.hobPerform u q).2.granted u q.master
     if q.master = hobTester u then y
     else y.respond (y.portRid u q.master q.chan.toNat) q.size (!HobReq.isWrite q) (v.hobPerform u q).1)) := by
  have perm := dmaTurn_perm (ptr := (s.dev.hob u).dmaPtr.toNat) h.once
  have same : ∀ y, y ∈ ordered s u qs ↔ y ∈ qs := fun y => perm.mem_iff
  have once : ((ordered s u qs).map (·.master)).Nodup := (perm.map _).nodup_iff.mpr h.once
  have all_ : (qs.filter fun q => HobReq.valid u.val q && (q.master != hobTester u || s.world.testerWaits u)) = qs := by
    rw [List.filter_eq_self]
    intro y mem
    rw [h.valid y mem, Bool.true_and, Bool.or_eq_true, bne_iff_ne]
    by_cases tester : y.master = hobTester u
    · exact .inr (h.work ⟨y, mem, tester⟩)
    · exact .inl tester
  have grant : hobGrant (hobMasters u) (s.dev.hob u).ptr (s.dev.hob u).passed (ordered s u qs) = some q :=
    hobGrant_eq once (fun y mem => master_lt h ((same y).mp mem)) ((same q).mpr h.mem) ((passedOver_congr same).trans h.free)
      fun y mem before => (passedOver_congr same).trans (h.first y ((same y).mp mem) before)
  show execHobAccess u qs s = _
  unfold execHobAccess run W.powered
  dsimp only
  rw [if_neg (show ¬ s.world.dev.sys.mode = .off from h.on), all_]
  have whole : firstOfEach (dmaTurn (s.world.dev.hob u).dmaPtr.toNat qs) = dmaTurn (s.world.dev.hob u).dmaPtr.toNat qs := firstOfEach_once once
  have grant' : hobGrant (hobMasters u) (s.world.dev.hob u).ptr (s.world.dev.hob u).passed (dmaTurn (s.world.dev.hob u).dmaPtr.toNat qs) = some q := grant
  rw [whole, grant']
  rfl

/-! The world in which the access is performed. -/

theorem grantingW_regs : ∃ r, grantingW w u q l = besideRegs (w.upd fun d => d.onHob u (passing q l)) r := conflict_regs

theorem hob_grantingW : (grantingW w u q l).dev.hob u = passing q l (w.dev.hob u) := by
  obtain ⟨r, same⟩ := grantingW_regs (w := w) (u := u) (q := q) (l := l)
  rw [same]
  exact hob_onHob_self w.dev u (passing q l)

theorem hobReg_congr {r r' : W} (fuse : r'.fuse = r.fuse) (chim : r'.dev.chim = r.dev.chim) (regs : r'.dev.regs = r.dev.regs) :
    r'.hobReg n o = r.hobReg n o := by
  unfold W.hobReg
  split <;> exact reg_congr fuse chim _ _ _ fun x => congrArg (fun r : Regs => r.val.getD _ x) regs

/-- The counters of the masters that wait beside it. -/
theorem counts_grantingW (once : (qs.map (·.master)).Nodup) (perm : l.Perm qs) (k : Nat) :
    (grantingW w u q l).hobReg u (0x240 + 4 * k) =
      if ∃ x ∈ qs, x.master = k ∧ k ≠ q.master then satInc (w.hobReg u (0x240 + 4 * k)) else w.hobReg u (0x240 + 4 * k) := by
  have nodup : ((l.filter fun x => x.master != q.master).map HobReq.master).Nodup :=
    ((perm.map _).nodup_iff.mpr once).sublist (List.filter_sublist.map _)
  have mem : k ∈ (l.filter fun x => x.master != q.master).map HobReq.master ↔ ∃ x ∈ qs, x.master = k ∧ k ≠ q.master := by
    simp only [List.mem_map, List.mem_filter, bne_iff_ne, perm.mem_iff]
    constructor
    · rintro ⟨y, ⟨mem, ne⟩, rfl⟩
      exact ⟨y, mem, rfl, ne⟩
    · rintro ⟨y, mem, rfl, ne⟩
      exact ⟨y, ⟨mem, ne⟩, rfl⟩
  have still : (w.upd fun d => d.onHob u (passing q l)).hobReg u (0x240 + 4 * k) = w.hobReg u (0x240 + 4 * k) :=
    hobReg_congr (r := w) (r' := w.upd fun d => d.onHob u (passing q l)) rfl rfl rfl
  refine (conflict_counts nodup k).trans ?_
  rw [still]
  simp only [mem]

theorem seen_grantingW (few : ∀ y ∈ l, y.master < 8) (off : Nat) : (grantingW w u q l).seen u off = w.seen u off := by
  have regs (n : Nat) (high : 0x300 ≤ n) (small : n < 0x10000) : (grantingW w u q l).hreg u n = w.hreg u n := by
    have still : (w.upd fun d => d.onHob u (passing q l)).hreg u n = w.hreg u n :=
      reg_congr (w := w) (w' := w.upd fun d => d.onHob u (passing q l)) rfl rfl _ _ _ fun _ => rfl
    refine (hreg_conflict (fun m mem => ?_) high small).trans still
    obtain ⟨y, mem', rfl⟩ := List.mem_map.mp mem
    exact few y (List.mem_filter.mp mem').1
  obtain ⟨r, same⟩ := grantingW_regs (w := w) (u := u) (q := q) (l := l)
  have bellows : (grantingW w u q l).dev.bellows = w.dev.bellows := by rw [same]; rfl
  have fuse : (grantingW w u q l).fuse = w.fuse := by rw [same]; rfl
  have chim : (grantingW w u q l).dev.chim = w.dev.chim := by rw [same]; rfl
  have reset : (grantingW w u q l).regReset = w.regReset := by
    funext typ o
    rw [W.regReset, W.regReset, regRow_congr fuse chim]
  exact seen_congr regs bellows reset off

theorem sound_grantingW (h : Sound w u) : Sound (grantingW w u q l) u := by
  obtain ⟨r, same⟩ := grantingW_regs (w := w) (u := u) (q := q) (l := l)
  refine ⟨by rw [same]; exact h.flips, ?_, ?_⟩ <;> rw [hob_grantingW]
  · exact h.awake
  · exact h.free

theorem beside_grantingW : (grantingW w u q l).ops = w.ops ∧ (grantingW w u q l).base = w.base ∧ (grantingW w u q l).fuse = w.fuse ∧
    (grantingW w u q l).dev.out = w.dev.out := by
  obtain ⟨r, same⟩ := grantingW_regs (w := w) (u := u) (q := q) (l := l)
  rw [same]
  exact ⟨rfl, rfl, rfl, rfl⟩

/-! What a granted access leaves, in the statement's words. -/

/-- The hob behind the grant: its pointer, what it remembers and the tester's work. -/
def GrantLeft (s : State) (u : UnitId) (qs : List HobReq) (q : HobReq) (t : State) : Prop :=
  let n := hobMasters u
  let b := s.dev.hob u
  let c := t.dev.hob u
  let tester := fun (x : HobReq) => x.master = n - 1
  c = { b with ptr := (q.master + 1) % n, passed := c.passed, dmaPtr := if q.master = 5 then q.chan + 1 else b.dmaPtr,
               wbq := if tester q then b.wbq.drop 1 else b.wbq,
               owed := if tester q ∧ b.wbq = [] then b.owed - 1 else b.owed } ∧
  (∀ r x, (r, x) ∈ c.passed ↔ (x = q.master ∧ HobReq.isWrite q = true ∧
      (∃ y ∈ qs, y.master = r ∧ r ≠ q.master ∧ HobReq.isWrite y = false ∧ HobReq.word y = HobReq.word q)) ∨
    ((r, x) ∈ b.passed ∧ r ≠ q.master)) ∧
  (∀ k, k < 8 → t.world.hobReg u (0x240 + 4 * k) =
    if ∃ x ∈ qs, x.master = k ∧ k ≠ q.master then satInc (s.world.hobReg u (0x240 + 4 * k))
    else s.world.hobReg u (0x240 + 4 * k)) ∧
  t.pending = s.pending ∧ t.fuse = s.fuse

/-- A world that has performed the access leaves the hob as the statement has it. -/
theorem grantLeft_of (h : Granted s u qs q)
    (hob : x.dev.hob u = { passing q (ordered s u qs) (s.dev.hob u) with
      ptr := (q.master + 1) % hobMasters u
      wbq := if q.master = hobMasters u - 1 then (s.dev.hob u).wbq.drop 1 else (s.dev.hob u).wbq
      owed := if q.master = hobMasters u - 1 ∧ (s.dev.hob u).wbq = [] then (s.dev.hob u).owed - 1 else (s.dev.hob u).owed })
    (regs : x.dev.regs = (grantingW s.world u q (ordered s u qs)).dev.regs)
    (chim : x.dev.chim = (grantingW s.world u q (ordered s u qs)).dev.chim) : GrantLeft s u qs q (stateOf s x) := by
  have perm := dmaTurn_perm (ptr := (s.dev.hob u).dmaPtr.toNat) h.once
  obtain ⟨-, -, fuse, -⟩ := beside_grantingW (w := s.world) (u := u) (q := q) (l := ordered s u qs)
  refine ⟨?_, fun r m => ?_, fun k _ => ?_, rfl, rfl⟩
  · rw [stateOf_dev, hob]
    rfl
  · rw [stateOf_dev, hob]
    exact mem_passing fun y => perm.mem_iff
  · refine (hobReg_congr (r := grantingW s.world u q (ordered s u qs)) (r' := (stateOf s x).world) fuse.symm chim regs).trans ?_
    exact counts_grantingW h.once perm k

end Sys2Proof.Proofs
end

section
/-! O55: the memory and the answer of a granted access (R188 to R197), and the arbiter as the statement has it. -/

namespace Sys2Proof.Proofs

open Machine Laws

set_option Elab.async false

variable {s : State} {w v x : W} {u : UnitId} {k o n : Nat} {q : HobReq} {qs l : List HobReq}

/-- The row's world after a granted access of a master beside the tester. -/
theorem hobAccess_serves {r : Acc} (h : Granted s u qs q) (other : q.master ≠ hobTester u)
    (performs : (grantingW s.world u q (ordered s u qs)).hobPerform u q = (r, x)) : exec (.hobAccess u qs) s = .next (stateOf s
      ((x.granted u q.master).respond ((x.granted u q.master).portRid u q.master q.chan.toNat) q.size (!HobReq.isWrite q) r)) := by
  refine (hobAccess_row h).trans ?_
  dsimp only
  rw [if_neg other, performs]

/-- What the hob keeps beside the tester's work. -/
theorem hob_other {g : Hob} {ops : List MemOp} (other : q.master ≠ hobTester u)
    (served : Served u (grantingW s.world u q l) x g ops) (same : { g with ptr := 0 } = { passing q l (s.dev.hob u) with ptr := 0 }) :
    (x.granted u q.master).dev.hob u = { passing q l (s.dev.hob u) with
      ptr := (q.master + 1) % hobMasters u
      wbq := if q.master = hobMasters u - 1 then (s.dev.hob u).wbq.drop 1 else (s.dev.hob u).wbq
      owed := if q.master = hobMasters u - 1 ∧ (s.dev.hob u).wbq = [] then (s.dev.hob u).owed - 1 else (s.dev.hob u).owed } := by
  have other' : ¬ q.master = hobMasters u - 1 := other
  rw [served.granted.hob, if_neg other', if_neg fun both => other' both.1]
  exact congrArg (fun g : Hob => { g with ptr := (q.master + 1) % hobMasters u }) same

/-- An access of a master beside the tester ends with an answer. -/
theorem served_answers {g : Hob} {ops : List MemOp} {r : Acc} {a : Answer} (h : Granted s u qs q) (other : q.master ≠ hobTester u)
    (performs : (grantingW s.world u q (ordered s u qs)).hobPerform u q = (r, x))
    (served : Served u (grantingW s.world u q (ordered s u qs)) x g ops)
    (same : { g with ptr := 0 } = { passing q (ordered s u qs) (s.dev.hob u) with ptr := 0 })
    (ends : ∀ y : W, ∀ m n b, y.respond m n b r = y.answer a) :
    Answers (.hobAccess u qs) s fun t => GrantLeft s u qs q t ∧ t.mem = s.mem.applyAll ops ∧ t.dev.out = a := by
  have row := (hobAccess_serves h other performs).trans (by rw [ends])
  exact ⟨_, row, grantLeft_of h (x := (x.granted u q.master).answer a) (hob_other other served same) served.regs served.chim,
    congrArg s.mem.applyAll served.ops, rfl⟩

theorem bytes_grantingW {a : Nat} : (grantingW s.world u q l).bytes a n = (List.range n).map fun i => s.mem.get (a + i) := by
  obtain ⟨ops, base, -, -⟩ := beside_grantingW (w := s.world) (u := u) (q := q) (l := l)
  have mem : (grantingW s.world u q l).mem = s.mem := by
    rw [W.mem, ops, base]
    rfl
  rw [W.bytes, mem]

theorem ofLe_bytes {a : Nat} : ofLe ((grantingW s.world u q l).bytes a n) = hobWord s a n := congrArg ofLe bytes_grantingW

theorem length_bytes_grantingW {a : Nat} : ((grantingW s.world u q l).bytes a n).length = n := by
  rw [bytes_grantingW, List.length_map, List.length_range]

/-- The granted world's hob, with its pointer moved. -/
theorem same_hob {v : W} (hob : v.dev.hob u = passing q l (s.dev.hob u)) (p : Nat) :
    { { v.dev.hob u with ptr := p } with ptr := 0 } = { passing q l (s.dev.hob u) with ptr := 0 } := by rw [hob]

theorem seen_ordered (h : Granted s u qs q) (off : Nat) :
    (grantingW s.world u q (ordered s u qs)).seen u off = s.world.seen u off := by
  have perm := dmaTurn_perm (ptr := (s.dev.hob u).dmaPtr.toNat) h.once
  exact seen_grantingW (fun y mem => Nat.lt_of_lt_of_le (master_lt h (perm.mem_iff.mp mem)) hobMasters_le) _

/-- Where a read of the access is served from. -/
def seenAt (s : State) (u : UnitId) (q : HobReq) : Nat :=
  if q.master = 4 ∨ u.val = 16 then hobBase u + q.off.toNat else hobBase u + s.world.seen u q.off.toNat

theorem perform_read (h : Granted s u qs q) (other : q.master ≠ hobTester u) (op : q.op = .read) (pos : 0 < q.size) :
    ∃ j, (grantingW s.world u q (ordered s u qs)).hobPerform u q =
      (.data ((grantingW s.world u q (ordered s u qs)).bytes (seenAt s u q) q.size), (grantingW s.world u q (ordered s u qs)).granted u j) := by
  have sound := sound_grantingW (q := q) (l := ordered s u qs) h.sound
  have selected := seen_ordered h
  generalize grantingW s.world u q (ordered s u qs) = v at sound selected ⊢
  refine ⟨hobMaster v.dev.chim.pos u (v.portRid u q.master q.chan.toNat), ?_⟩
  unfold W.hobPerform seenAt
  rw [if_neg other]
  dsimp only
  rw [op]
  dsimp only
  by_cases bellows : q.master = 4
  · rw [if_pos bellows, if_pos (.inl bellows), hobRead_plain _ _ _ _ _ sound.flips sound.awake]
  · rw [if_neg bellows, readSel_sound sound pos h.fits]
    by_cases low : u.val < 16
    · rw [if_pos low, if_neg (by rintro (four | top) <;> omega), selected]
    · rw [if_neg low, if_pos (.inr (by have := u.isLt; omega))]

/-- A read (R190, R234). -/
theorem read_answers (h : Granted s u qs q) (other : q.master ≠ hobTester u) (op : q.op = .read) (pos : 0 < q.size) :
    Answers (.hobAccess u qs) s fun t => GrantLeft s u qs q t ∧ t.mem = s.mem ∧ t.dev.out =
      if q.size ≤ 8 then .word (w64 (hobWord s (seenAt s u q) q.size))
      else .bytes ((List.range q.size).map fun i => s.mem.get (seenAt s u q + i)) := by
  obtain ⟨j, performs⟩ := perform_read h other op pos
  obtain ⟨ops, -⟩ := beside_grantingW (w := s.world) (u := u) (q := q) (l := ordered s u qs)
  have served := served_granted (u := u) (k := j) (v := grantingW s.world u q (ordered s u qs))
  rw [ops] at served
  refine served_answers h other performs served (same_hob hob_grantingW _) fun y m n b => ?_
  show y.answer (if ((grantingW s.world u q (ordered s u qs)).bytes (seenAt s u q) q.size).length ≤ 8 then _ else _) = _
  rw [length_bytes_grantingW, ofLe_bytes, bytes_grantingW]

/-- The memory after one write. -/
theorem get_put {m : Memory} {a b : Nat} {bs : List Byte} : (m.applyAll [.put a bs]).get b =
    if a ≤ b ∧ b < a + bs.length then bs.getD (b - a) 0 else m.get b := get_setAll

/-- A write (R188, R195). -/
theorem write_answers {bs : List Byte} (h : Granted s u qs q) (other : q.master ≠ hobTester u) (op : q.op = .write bs) :
    Answers (.hobAccess u qs) s fun t => GrantLeft s u qs q t ∧ t.mem = s.mem.applyAll [.put (hobBase u + q.off.toNat) bs] ∧ t.dev.out = .done := by
  have sound := sound_grantingW (q := q) (l := ordered s u qs) h.sound
  obtain ⟨ops, -⟩ := beside_grantingW (w := s.world) (u := u) (q := q) (l := ordered s u qs)
  have performs : (grantingW s.world u q (ordered s u qs)).hobPerform u q =
      (.done, ((grantingW s.world u q (ordered s u qs)).granted u q.master).poke (hobBase u + q.off.toNat) bs) := by
    unfold W.hobPerform
    rw [if_neg other]
    dsimp only
    rw [op]
    exact congrArg (Prod.mk _) (hobWrite_plain _ _ _ _ _ sound.flips sound.awake sound.free)
  have served := (served_granted (u := u) (k := q.master) (v := grantingW s.world u q (ordered s u qs))).poke
    (a := hobBase u + q.off.toNat) (bs := bs)
  rw [ops] at served
  exact served_answers h other performs served (same_hob hob_grantingW _) fun _ _ _ _ => rfl

/-- An access that reads and writes in one grant (R137, R193). -/
theorem modify_answers {r n : Nat} {f : List Byte → List Byte} {a : Answer} {g : Acc → Acc} (h : Granted s u qs q) (other : q.master ≠ hobTester u)
    (op : ∀ v : W, v.seen u q.off.toNat = s.world.seen u q.off.toNat → ∃ m,
      v.hobPerform u q = (g (v.hobModify m u q.master r (hobBase u + q.off.toNat) n f).1, (v.hobModify m u q.master r (hobBase u + q.off.toNat) n f).2))
    (ends : ∀ y : W, ∀ m i b, y.respond m i b (g (.data ((List.range n).map fun i => s.mem.get (r + i)))) = y.answer a) :
    Answers (.hobAccess u qs) s fun t => GrantLeft s u qs q t ∧
      t.mem = s.mem.applyAll [.put (hobBase u + q.off.toNat) (f ((List.range n).map fun i => s.mem.get (r + i)))] ∧ t.dev.out = a := by
  have sound := sound_grantingW (q := q) (l := ordered s u qs) h.sound
  obtain ⟨ops, -⟩ := beside_grantingW (w := s.world) (u := u) (q := q) (l := ordered s u qs)
  obtain ⟨m, performs⟩ := op _ (seen_ordered h _)
  rw [modify_sound sound, bytes_grantingW] at performs
  have served := ((served_granted (u := u) (v := grantingW s.world u q (ordered s u qs))
    (k := hobMaster (grantingW s.world u q (ordered s u qs)).dev.chim.pos u m)).granted (k := q.master)).poke
    (a := hobBase u + q.off.toNat) (bs := f ((List.range n).map fun i => s.mem.get (r + i)))
  rw [ops] at served
  exact served_answers h other performs served (same_hob hob_grantingW _) ends

/-- The tester's turn (R189, R196, R198). -/
theorem tester_answers (h : Granted s u qs q) (own : q.master = hobTester u) :
    Answers (.hobAccess u qs) s fun t => GrantLeft s u qs q t ∧ t.mem = s.mem ∧ t.dev.out = .none := by
  have sound := sound_grantingW (q := q) (l := ordered s u qs) h.sound
  have hob := hob_grantingW (w := s.world) (u := u) (q := q) (l := ordered s u qs)
  obtain ⟨ops, -, -, out⟩ := beside_grantingW (w := s.world) (u := u) (q := q) (l := ordered s u qs)
  have served := testerGo_sound sound
  have performs : ((grantingW s.world u q (ordered s u qs)).hobPerform u q).2 = (grantingW s.world u q (ordered s u qs)).testerGo u := by
    unfold W.hobPerform
    rw [if_pos own]
  have row := hobAccess_row h
  dsimp only at row
  rw [if_pos own, performs, own] at row
  refine ⟨_, row, grantLeft_of h ?_ served.regs served.chim, congrArg s.mem.applyAll (served.ops.trans ops), served.out.trans out⟩
  have own' : q.master = hobMasters u - 1 := own
  rw [served.hob, hob, if_pos own']
  simp only [own', hobTester, true_and]
  rfl

theorem valid_parts (h : Granted s u qs q) : (match q.op with
    | .write bs => bs.length
    | .setBits bs => bs.length
    | .clearBits bs => bs.length
    | _ => q.size) > 0 := by
  have ok := h.valid q h.mem
  unfold HobReq.valid at ok
  simp only [Bool.and_eq_true, decide_eq_true_eq] at ok
  exact ok.1.1.1.2

/-- The bytes of a write that sets or clears bits (R193). -/
theorem getD_zipWith {bs : List Byte} {a b : Nat} {g : Byte → Byte → Byte} (within : a ≤ b ∧ b < a + bs.length) :
    (List.zipWith g ((List.range bs.length).map fun i => s.mem.get (a + i)) bs).getD (b - a) 0 = g (s.mem.get b) (bs.getD (b - a) 0) := by
  have low : b - a < bs.length := by omega
  have short : b - a < (List.zipWith g ((List.range bs.length).map fun i => s.mem.get (a + i)) bs).length := by simpa using low
  have there : a + (b - a) = b := by omega
  rw [List.getD_eq_getElem _ _ short, List.getElem_zipWith, List.getElem_map, List.getElem_range, there, List.getD_eq_getElem _ _ low]

/-- The answer of a write that sets or clears bits. -/
def aliasAcc (r : Acc) : Acc :=
  match r with
  | .data _ => .done
  | r => r

theorem hobAlias_eq {m : Rid} {a h k : Nat} {set : Bool} {bs : List Byte} : w.hobAlias m h k a set bs =
    (aliasAcc (w.hobModify m h k a a bs.length fun old => List.zipWith (fun x y => if set then x ||| y else x &&& ~~~y) old bs).1,
      (w.hobModify m h k a a bs.length fun old => List.zipWith (fun x y => if set then x ||| y else x &&& ~~~y) old bs).2) := by
  unfold W.hobAlias
  generalize (w.hobModify m h k a a bs.length fun old => List.zipWith (fun x y => if set then x ||| y else x &&& ~~~y) old bs) = p
  obtain ⟨r, x⟩ := p
  cases r <;> rfl

/-- A write that sets or clears bits (R193). -/
theorem alias_answers {set : Bool} {bs : List Byte} (h : Granted s u qs q) (other : q.master ≠ hobTester u)
    (op : q.op = if set then .setBits bs else .clearBits bs) :
    Answers (.hobAccess u qs) s fun t => GrantLeft s u qs q t ∧ t.dev.out = .done ∧ ∀ x, t.mem.get x =
      if hobBase u + q.off.toNat ≤ x ∧ x < hobBase u + q.off.toNat + bs.length then
        (if set then s.mem.get x ||| bs.getD (x - (hobBase u + q.off.toNat)) 0 else s.mem.get x &&& ~~~(bs.getD (x - (hobBase u + q.off.toNat)) 0))
      else s.mem.get x := by
  obtain ⟨t, row, left, mem, out⟩ := modify_answers (r := hobBase u + q.off.toNat) (n := bs.length) (a := .done)
    (f := fun old => List.zipWith (fun x y => if set then x ||| y else x &&& ~~~y) old bs)
    (g := aliasAcc) h other (fun v _ => by
      refine ⟨v.portRid u q.master q.chan.toNat, ?_⟩
      unfold W.hobPerform
      rw [if_neg other]
      dsimp only
      rw [op]
      cases set <;> exact hobAlias_eq) fun _ _ _ _ => rfl
  refine ⟨t, row, left, out, fun b => ?_⟩
  rw [mem, get_put]
  have length : (List.zipWith (fun x y : Byte => if set then x ||| y else x &&& ~~~y)
      ((List.range bs.length).map fun i => s.mem.get (hobBase u + q.off.toNat + i)) bs).length = bs.length := by simp
  rw [length]
  split
  · next within => exact getD_zipWith within
  · rfl

/-- The bytes of a number that they are. -/
theorem getD_ofLe {bs : List Byte} {i : Nat} (within : i < bs.length) : bs.getD i 0 = BitVec.ofNat 8 (ofLe bs / 256 ^ i) := by
  rw [← getD_le within, le_ofLe]

/-- An atomic (R137, R234). -/
theorem atomic_answers {fn : BitVec 11} {opd : Word64} (h : Granted s u qs q) (other : q.master ≠ hobTester u) (op : q.op = .atomic fn opd) :
    let sel := hobBase u + s.world.seen u q.off.toNat
    let old := hobWord s sel q.size
    Answers (.hobAccess u qs) s fun t => GrantLeft s u qs q t ∧ (q.size ≤ 8 → t.dev.out = .word (w64 old)) ∧
      StoresAt s t (hobBase u + q.off.toNat) q.size ((atomicResult (fn.toNat / 2) q.size old (opd.toNat % 2 ^ (8 * q.size))).getD old) := by
  intro sel old
  have old_eq : ofLe ((List.range q.size).map fun i => s.mem.get (sel + i)) = old := rfl
  obtain ⟨t, row, left, mem, out⟩ := modify_answers (r := sel) (n := q.size) (g := id)
    (a := if q.size ≤ 8 then .word (w64 old) else .bytes ((List.range q.size).map fun i => s.mem.get (sel + i)))
    (f := fun old => le q.size ((atomicResult (atomicOp fn) q.size (ofLe old) (opd.toNat % 2 ^ (8 * q.size))).getD (ofLe old))) h other
    (fun v selected => by
      refine ⟨v.portRid u q.master q.chan.toNat, ?_⟩
      unfold W.hobPerform
      rw [if_neg other]
      dsimp only
      rw [op]
      dsimp only
      rw [selected]
      rfl) fun y m i b => by
      have length : ((List.range q.size).map fun i => s.mem.get (sel + i)).length = q.size := by simp
      show y.answer (if ((List.range q.size).map fun i => s.mem.get (sel + i)).length ≤ 8 then _ else _) = _
      rw [length, old_eq]
  exact ⟨t, row, left, fun small => out.trans (if_pos small), storesAt_put (mem.trans (by rw [old_eq]; rfl))⟩

/-- No access waits. -/
theorem hobAccess_none (on : s.dev.sys.mode ≠ .off) : exec (.hobAccess u []) s = .next (stateOf s s.world) := by
  have turns (ptr : Nat) : dmaTurn ptr [] = [] := by
    have none_ : (List.range 16).findSome? (fun i => List.find? (fun q : HobReq => q.chan.toNat == (ptr + i) % 16) []) = none :=
      List.findSome?_eq_none_iff.mpr fun _ _ => rfl
    exact congrArg (fun o : Option HobReq => [] ++ o.toList) none_
  have grants (m p : Nat) (passed : List (Nat × Nat)) : hobGrant m p passed [] = none := by
    unfold hobGrant rotated
    rw [List.find?_filterMap]
    refine Option.bind_eq_none_iff.mpr fun i _ => rfl
  show execHobAccess u [] s = _
  unfold execHobAccess run W.powered
  dsimp only
  rw [if_neg (show ¬ s.world.dev.sys.mode = .off from on), List.filter_nil, turns, firstOfEach, grants]
  rfl

/-- The arbiter of a hob (R189 to R192), as the statement has it. -/
theorem hobArbiterGrants : Says.HobArbiterGrants := by
  intro s u qs q n b late rank a sel seen tester old
  refine ⟨fun idle => ?_, fun valid once flips awake free on work mem unpassed first fits => ?_⟩
  · rcases idle with rfl | off
    · by_cases off : s.dev.sys.mode = .off
      · exact ⟨_, next_of (if_pos off), rfl⟩
      · exact ⟨_, hobAccess_none off, rfl⟩
    · exact ⟨_, next_of (if_pos off), rfl⟩
  · have passes (y : HobReq) : passedOver b.passed qs y = true ↔ late y := by
      unfold passedOver
      simp only [Bool.and_eq_true, Bool.not_eq_true', List.any_eq_true, bne_iff_ne, beq_iff_eq, List.contains_eq_mem, decide_eq_false_iff_not]
      exact and_congr_right fun _ => exists_congr fun z => and_congr_right fun _ => by rw [and_assoc, and_assoc]
    have h : Granted s u qs q := {
      valid := valid
      once := once
      sound := ⟨flips, awake, free⟩
      on := on
      work := fun some_ => by
        have waits := work some_
        unfold W.testerWaits
        rw [Bool.or_eq_true, decide_eq_true_eq]
        refine waits.imp (fun some_ => ?_) id
        cases queue : (s.dev.hob u).wbq with
        | nil => exact absurd queue some_
        | cons a r => rw [show (s.world.dev.hob u).wbq = a :: r from queue]; rfl
      mem := mem
      free := by rw [← Bool.not_eq_true, passes]; exact unpassed
      first := fun y mem before => (passes y).mpr (first y mem before)
      fits := fits }
    by_cases own : q.master = hobTester u
    · obtain ⟨t, row, left, same, out⟩ := tester_answers h own
      obtain ⟨c, passed, counts, pending, fuse⟩ := left
      exact ⟨t, row, c, passed, counts, pending, fuse, fun _ => ⟨same, out⟩, fun other => absurd own other⟩
    · have pos := valid_parts h
      cases op : q.op with
      | read =>
        rw [op] at pos
        obtain ⟨t, row, left, rest⟩ := read_answers h own op pos
        obtain ⟨c, passed, counts, pending, fuse⟩ := left
        exact ⟨t, row, c, passed, counts, pending, fuse, fun tests => absurd tests own, fun _ => rest⟩
      | write bs =>
        obtain ⟨t, row, left, same, out⟩ := write_answers h own op
        obtain ⟨c, passed, counts, pending, fuse⟩ := left
        refine ⟨t, row, c, passed, counts, pending, fuse, fun tests => absurd tests own, fun _ => ⟨out, fun x => ?_⟩⟩
        rw [same, get_put]
        split
        · next within => exact getD_ofLe (by omega)
        · rfl
      | setBits bs =>
        obtain ⟨t, row, left, rest⟩ := alias_answers (set := true) h own op
        obtain ⟨c, passed, counts, pending, fuse⟩ := left
        exact ⟨t, row, c, passed, counts, pending, fuse, fun tests => absurd tests own, fun _ => rest⟩
      | clearBits bs =>
        obtain ⟨t, row, left, rest⟩ := alias_answers (set := false) h own op
        obtain ⟨c, passed, counts, pending, fuse⟩ := left
        exact ⟨t, row, c, passed, counts, pending, fuse, fun tests => absurd tests own, fun _ => rest⟩
      | atomic fn opd =>
        obtain ⟨t, row, left, out, stores⟩ := atomic_answers h own op
        obtain ⟨c, passed, counts, pending, fuse⟩ := left
        exact ⟨t, row, c, passed, counts, pending, fuse, fun tests => absurd tests own, fun _ small => ⟨out small, stores⟩⟩

end Sys2Proof.Proofs
end

section
/-! O55: the background march and the wake of a hob (R198 to R200, R202). -/

namespace Sys2Proof.Proofs

open Machine Laws

set_option Elab.async false

variable {s : State} {w v x : W} {u : UnitId} {k o n : Nat}

/-! What an access of the tester keeps of the rows. -/

theorem placed_raise {d0 d1 : Word32} : Placed w (w.raise n d0 d1) := (contained_raise (t := True) (.inl trivial)).placed

theorem placed_hobScan {word : Nat} {m : Bool} : Placed w (w.hobScan k word m) := by
  refine .ite .refl (.each .refl fun _ v => .ite ?_ .refl)
  unfold W.hobError
  split
  · next e => exact (congrArg (Placed v) (congrArg Prod.snd e)).mp placed_hobLog |>.trans placed_raise
  · next e => exact (congrArg (Placed v) (congrArg Prod.snd e)).mp placed_hobLog

theorem placed_freshCode {a : Nat} : Placed w (w.freshCode a) := by
  unfold W.freshCode
  split
  · exact placed_put
  · exact .refl

theorem placed_drainWb : Placed w (w.drainWb k) := by
  unfold W.drainWb
  split
  · exact .refl
  · exact ((Placed.refl.onHob).trans placed_freshCode).onHob

theorem placed_drainAll : Placed w (w.drainAll k) := .each .refl fun _ _ => placed_drainWb

/-- The mode, the enable and the hob let a row test start. -/
def MarchStarts (s : State) (u : Nat) : Prop :=
  s.dev.sys.mode ∉ ([.off, .hold, .kindle, .doze] : List Mode) ∧ bitAt (s.world.hobReg u 0x200) 16 = true ∧
    (s.dev.hob u).march = false ∧ (s.dev.hob u).power = .awake

theorem marches_iff {m : Mode} : m.marches = true ↔ m ∉ ([.off, .hold, .kindle, .doze] : List Mode) := by
  cases m <;> decide

/-- The row test begins. -/
def marchBegun (w : W) (u : Nat) : W :=
  ((w.drainAll u).upd fun d => d.onHob u fun h => { h with march := true, owed := 88 }).granted u (hobTester u)

/-- What the row test reads. -/
def marchScanned (w : W) (u row : Nat) : W :=
  if w.dev.flips.rows.isEmpty then w
  else w.each (List.range 8) fun i w =>
    let word := hobBase u / 32 + 8 * row + i
    (w.hobScan u word true).each (List.range 32) fun j w =>
      if (w.dev.flips.get? (32 * word + j)).isSome then w.freshCode (32 * word + j) else w

theorem marchStart_row (starts : MarchStarts s u) :
    exec (.marchRowStart u) s = .next (stateOf s (marchScanned (marchBegun s.world u) u (s.dev.hob u).row)) := by
  obtain ⟨mode, on, idle, awake⟩ := starts
  refine next_of ((if_pos (marches_iff.mpr mode)).trans (if_neg ?_))
  rintro (off | march | asleep)
  · rw [on] at off; cases off
  · rw [show (s.world.dev.hob u).march = false from idle] at march; cases march
  · exact asleep awake

theorem marchStart_still (stays : ¬ MarchStarts s u) : Answers (.marchRowStart u) s (Only s · id) := by
  by_cases mode : s.dev.sys.mode.marches = true
  · refine ⟨_, next_of ((if_pos mode).trans (if_pos ?_)), rfl⟩
    by_contra goes
    rw [not_or, not_or] at goes
    obtain ⟨on, idle, awake⟩ := goes
    exact stays ⟨marches_iff.mp mode, Bool.not_eq_false _ ▸ on, Bool.not_eq_true _ ▸ idle, Classical.not_not.mp awake⟩
  · exact ⟨_, next_of (if_neg mode), rfl⟩

theorem placed_marchScanned : Placed w (marchScanned w k n) :=
  .ite .refl (.each .refl fun _ _ => placed_hobScan.each fun _ _ => .ite placed_freshCode .refl)

theorem marchStart_starts (starts : MarchStarts s u) : Answers (.marchRowStart u) s fun t =>
    (t.dev.hob u).march = true ∧ (t.dev.hob u).row = (s.dev.hob u).row := by
  refine ⟨_, marchStart_row starts, ?_⟩
  have drained := (placed_drainAll (w := s.world) (k := u)).rows u
  have scanned := (placed_marchScanned (w := marchBegun s.world u) (k := u) (n := (s.dev.hob u).row)).rows u
  have begun : hobPart ((marchBegun s.world u).dev.hob u) = (true, ((s.world.drainAll u).dev.hob u).row) := by
    unfold marchBegun
    rw [hob_granted, upd_dev, hob_onHob_self]
    rfl
  have all_ : hobPart ((marchScanned (marchBegun s.world u) u (s.dev.hob u).row).dev.hob u) = (true, (s.dev.hob u).row) :=
    (scanned.trans begun).trans (congrArg (Prod.mk true) (congrArg Prod.snd drained))
  exact ⟨congrArg Prod.fst all_, congrArg Prod.snd all_⟩

/-! One hob changed twice is changed once. -/

theorem onHob_onHob {d : Dev} {f g : Hob → Hob} : (d.onHob k f).onHob k g = d.onHob k fun x => g (f x) := by
  have hob : (d.onHob k f).hob k = f (d.hob k) := hob_onHob_self _ _ _
  have rows : (d.hobs.set k (f (d.hob k))).set k (g (f (d.hob k))) = d.hobs.set k (g (f (d.hob k))) := congrArg Tbl.mk (insertRow_insertRow _ _ _ _)
  show { d.onHob k f with hobs := (d.hobs.set k (f (d.hob k))).set k (g ((d.onHob k f).hob k)) } = _
  rw [hob, rows]
  rfl

theorem drainAll_empty (none_ : (w.dev.hob k).wbq = []) : w.drainAll k = w := by
  have one : w.drainWb k = w := by
    unfold W.drainWb
    rw [none_]
  have all_ (l : List Nat) : w.each l (fun _ w => w.drainWb k) = w := by
    induction l with
    | nil => rfl
    | cons a l ih => exact (congrArg (fun w : W => w.each l fun _ w => w.drainWb k) one).trans ih
  exact all_ _

/-- Where nothing waits and no bit is flipped, the start only takes the pointer. -/
theorem marchStart_alone (starts : MarchStarts s u) (flips : s.dev.flips.rows = []) (none_ : (s.dev.hob u).wbq = []) :
    Answers (.marchRowStart u) s (Only s · fun d => d.onHob u fun y => { y with march := true, owed := 88, ptr := 0 }) := by
  have begun : marchBegun s.world u = s.world.upd fun d => d.onHob u fun y => { y with march := true, owed := 88, ptr := 0 } := by
    unfold marchBegun
    rw [drainAll_empty none_, W.granted, upd_upd]
    refine upd_eq ?_
    have pointer : (hobTester u + 1) % hobMasters u = 0 := by
      unfold hobTester hobMasters
      split <;> rfl
    rw [onHob_onHob, pointer]
  have scanned : marchScanned (marchBegun s.world u) u (s.dev.hob u).row = marchBegun s.world u := by
    rw [begun]
    refine if_pos ?_
    show s.dev.flips.rows.isEmpty = true
    rw [flips]
    rfl
  refine ⟨_, marchStart_row starts, ?_⟩
  rw [scanned, begun]
  rfl

/-! The end of a row test (R198, R199). -/

/-- The hob behind the row test. -/
def marched (last fail : Bool) (x : Hob) : Hob :=
  let y := { x with march := false, owed := 0, row := if last then 0 else x.row + 1, ptr := 0 }
  if fail then { y with
    failRow := BitVec.ofNat 14 x.row, failCnt := satInc x.failCnt, failValid := true,
    pendRows := if x.row ∈ x.pendRows then x.pendRows else x.pendRows ++ [x.row] } else y

/-- The passes counted. -/
def passCounted (w : W) (u : Nat) (last : Bool) : W := if last then w.setHobReg u 0x208 (w.hobReg u 0x208 + 1) else w

/-- The row is the last of its hob. -/
def lastRow (s : State) (u : UnitId) : Bool := decide ((s.dev.hob u).row + 1 = hobRowsOf u)

/-- The world behind the row test, before its failure is told. -/
def marchDone (s : State) (u : UnitId) (fail : Bool) : W :=
  (passCounted s.world u (lastRow s u)).upd fun d => d.onHob u (marched (lastRow s u) fail)

theorem hobs_passCounted {last : Bool} : (passCounted w k last).dev.hobs = w.dev.hobs := by
  unfold passCounted W.setHobReg
  split
  · split <;> rfl
  · rfl

theorem marchEnd_row {fail : Bool} (runs : (s.dev.hob u).march = true) : exec (.marchRowComplete u fail) s =
    .next (stateOf s (if fail then (marchDone s u fail).raise (hobSource 2 u) 0 0 else marchDone s u fail)) := by
  have pointer : (hobTester u + 1) % hobMasters u = 0 := by
    unfold hobTester hobMasters
    split <;> rfl
  have same : ((passCounted s.world u (lastRow s u)).upd fun d => d.onHob u fun x =>
      let x := { x with march := false, owed := 0, row := if lastRow s u then 0 else (s.dev.hob u).row + 1 }
      if fail then { x with failRow := BitVec.ofNat 14 (s.dev.hob u).row, failCnt := satInc x.failCnt, failValid := true,
                            pendRows := if x.pendRows.contains (s.dev.hob u).row then x.pendRows else x.pendRows ++ [(s.dev.hob u).row] }
      else x).granted u (hobTester u) = marchDone s u fail := by
    rw [W.granted, upd_upd]
    refine upd_eq ?_
    rw [onHob_onHob, pointer]
    have hob : (passCounted s.world u (lastRow s u)).dev.hob u = s.dev.hob u := by
      rw [Dev.hob, hobs_passCounted]
      rfl
    unfold Dev.onHob
    rw [hob]
    unfold marched
    cases fail <;> simp
  show execMarchRowComplete u fail s = _
  unfold execMarchRowComplete run W.marchEnd
  dsimp only
  rw [if_pos (show (s.world.dev.hob u).march = true from runs)]
  exact congrArg (fun v : W => Host.Outcome.next (stateOf s (if fail then v.raise (hobSource 2 u) 0 0 else v))) same

/-- A register that no event changes. -/
theorem reg_kept {typ i : Nat} (h : Kept w v) (plain : errReg (blockBase typ i + o) = false) : v.reg typ i o = w.reg typ i o := by
  have kept := h
  obtain ⟨dev, -⟩ := h
  have ok : (fun a => !errReg a) (blockBase typ i + o) = true := by
    show (!errReg _) = true
    rw [plain]
    rfl
  have value : v.dev.regs.val.get? (blockBase typ i + o) = w.dev.regs.val.get? (blockBase typ i + o) := by
    have same : v.dev.regs.val.keep (fun a => !errReg a) = w.dev.regs.val.keep fun a => !errReg a := congrArg (fun d => d.regs.val) dev
    exact (get?_keep (p := fun a => !errReg a) ok).symm.trans ((congrArg (fun t : Tbl Word32 => t.get? _) same).trans
      (get?_keep (p := fun a => !errReg a) ok))
  have row : v.regRow typ o = w.regRow typ o := by
    unfold W.regRow
    dsimp only
    rw [source_kept kept, show v.dev.chim.pos = w.dev.chim.pos from congrArg (fun d => d.chim.pos) dev]
  rw [W.reg, W.reg, W.regReset, W.regReset, row, Tbl.getD, Tbl.getD, value]

/-- The passes of a hob are counted away from each register of its errors. -/
theorem passes_ne {i j x : Nat} (mem : x ∈ [0x20C, 0x210, 0x214, 0x218, 0x21C]) :
    blockBase 16 i + 0x208 ≠ (if j < 16 then blockBase 16 j else blockBase 1 0) + x ∧
      blockBase 1 0 + 0x208 ≠ (if j < 16 then blockBase 16 j else blockBase 1 0) + x := by
  simp only [List.mem_cons, List.not_mem_nil, or_false] at mem
  have hearth (k : Nat) : blockBase 16 k = 0x20100000 + k * 0x10000 := rfl
  rw [show blockBase 1 0 = 0x20000000 from rfl, hearth]
  split
  · rw [hearth]
    omega
  · omega

/-- The passes of the march are counted beside the errors. -/
theorem passes_plain {i : Nat} : errReg (blockBase 16 i + 0x208) = false ∧ errReg (blockBase 1 0 + 0x208) = false := by
  constructor <;> rw [errReg, Bool.or_eq_false_iff, List.any_eq_false, List.any_eq_false] <;> refine ⟨fun j _ => ?_, fun x mem => ?_⟩
  · rw [Bool.not_eq_true, List.any_eq_false]
    exact fun x mem => by rw [beq_iff_eq]; exact (passes_ne mem).1
  · simp only [List.mem_cons, List.not_mem_nil, or_false] at mem
    rw [beq_iff_eq, blockBase_eight, show blockBase 16 i = 0x20100000 + i * 0x10000 from rfl]
    omega
  · rw [Bool.not_eq_true, List.any_eq_false]
    exact fun x mem => by rw [beq_iff_eq]; exact (passes_ne (i := 0) mem).2
  · simp only [List.mem_cons, List.not_mem_nil, or_false] at mem
    rw [beq_iff_eq, blockBase_eight, show blockBase 1 0 = 0x20000000 from rfl]
    omega

theorem passes_kept (h : Kept w v) : v.hobReg k 0x208 = w.hobReg k 0x208 := by
  obtain ⟨hearth, stoker⟩ := passes_plain (i := k)
  unfold W.hobReg
  split
  · exact reg_kept h hearth
  · exact reg_kept h stoker

/-- The row test's end beside its failure. -/
structure Marched (s : State) (u : UnitId) (fail : Bool) (v : W) : Prop where
  regs : v.dev.regs = (passCounted s.world u (lastRow s u)).dev.regs
  hob : v.dev.hob u = marched (lastRow s u) fail (s.dev.hob u)
  rest : { v.dev with regs := {}, hobs := ⟨[]⟩ } = { s.world.dev with regs := {}, hobs := ⟨[]⟩ }
  fuse : v.fuse = s.fuse
  ops : v.ops = []
  due : v.due = []

theorem marchDone_marched {fail : Bool} : Marched s u fail (marchDone s u fail) := by
  have hob : (passCounted s.world u (lastRow s u)).dev.hob u = s.dev.hob u := by
    rw [Dev.hob, hobs_passCounted]
    rfl
  refine ⟨rfl, (hob_onHob_self _ _ _).trans (by rw [hob]), ?_, ?_, ?_, ?_⟩ <;> unfold marchDone passCounted W.setHobReg <;> split
  all_goals try split
  all_goals rfl

theorem hobReg_passCounted {last : Bool} :
    (passCounted w k last).hobReg k 0x208 = if last = true then w.hobReg k 0x208 + 1 else w.hobReg k 0x208 := by
  unfold passCounted
  cases last
  · rfl
  · exact hobReg_setHobReg_self

theorem hobReg_marchDone {fail : Bool} :
    (marchDone s u fail).hobReg u 0x208 = if lastRow s u = true then s.world.hobReg u 0x208 + 1 else s.world.hobReg u 0x208 :=
  (hobReg_congr (r := passCounted s.world u (lastRow s u)) (r' := marchDone s u fail) rfl rfl rfl).trans hobReg_passCounted

/-- The configuration of a source stands beside the passes. -/
theorem srcCfg_marchDone {fail : Bool} (low : n < 0x1000) : (marchDone s u fail).srcCfg n = s.world.srcCfg n := by
  have same : (passCounted s.world u (lastRow s u)).srcCfg n = s.world.srcCfg n := by
    have two : blockBase 2 0 = 0x20010000 := rfl
    have one : blockBase 1 0 = 0x20000000 := rfl
    have hearth (i : Nat) : blockBase 16 i = 0x20100000 + i * 0x10000 := rfl
    unfold passCounted W.setHobReg
    split
    · split
      · exact reg_setReg_ne _ _ _ _ _ _ _ _ (by rw [two, hearth]; omega)
      · exact reg_setReg_ne _ _ _ _ _ _ _ _ (by rw [two, one]; omega)
    · rfl
  exact Eq.trans (reg_congr (w := passCounted s.world u (lastRow s u)) (w' := marchDone s u fail) rfl rfl _ _ _ fun _ => rfl) same

/-- The source of a failed row is told by itself. -/
theorem marchFail_source {u : UnitId} : hobSource 2 u = (if u.val < 16 then 0x1E0 + u.val else 0x1F2) ∧ hobSource 2 u < 0x1000 ∧ Plain (hobSource 2 u) := by
  have low : u.val < 16 ∨ u.val = 16 := by have := u.isLt; omega
  unfold hobSource Plain Noted
  split <;> refine ⟨?_, ?_, ?_, ?_, ?_⟩ <;> omega

theorem there_marchFail {u : UnitId} : (w.source (hobSource 2 u)).isSome = true := by
  rw [marchFail_source.1]
  generalize u.val = n
  split
  · interval_cases n <;> rfl
  · rfl

theorem lastRow_iff : lastRow s u = true ↔ (s.dev.hob u).row + 1 = if u.val < 16 then 16384 else 4096 := decide_eq_true_iff

theorem lastRow_eq {α : Type} (x y : α) :
    (if lastRow s u = true then x else y) = if (s.dev.hob u).row + 1 = if u.val < 16 then 16384 else 4096 then x else y := by
  simp only [lastRow_iff]

theorem untouched_marchDone {fail : Bool} : untouched (marchDone s u fail).dev =
    untouched (if lastRow s u = true then (s.world.setHobReg u 0x208 (s.world.hobReg u 0x208 + 1)).dev else s.dev) := by
  unfold marchDone passCounted
  split <;> rfl

/-- What the end of a row test leaves, told or not. -/
theorem marchEnd_leaves {fail : Bool} (kept : Kept (marchDone s u fail) v) (contained : Contained True (marchDone s u fail) v) :
    v.hobReg u 0x208 = (if (s.dev.hob u).row + 1 = if u.val < 16 then 16384 else 4096 then s.world.hobReg u 0x208 + 1 else s.world.hobReg u 0x208) ∧
      (s.dev.images.cut = none → v.ops = []) ∧
      (s.dev.sys.mode ≠ .doze → s.dev.images.cut = none → v.dev.hob u = marched (lastRow s u) fail (s.dev.hob u)) ∧
      Beside s (stateOf s v) fun d => if (s.dev.hob u).row + 1 = if u.val < 16 then 16384 else 4096 then
        (s.world.setHobReg u 0x208 (s.world.hobReg u 0x208 + 1)).dev else d := by
  obtain ⟨-, hob, rest, -, ops, -⟩ := marchDone_marched (s := s) (u := u) (fail := fail)
  have cut : (marchDone s u fail).dev.images.cut = s.dev.images.cut := congrArg (fun d => d.images.cut) rest
  have mode : (marchDone s u fail).dev.sys.mode = s.dev.sys.mode := congrArg (fun d => d.sys.mode) rest
  refine ⟨?_, fun none_ => ((contained.calm (cut.trans none_)).ops).trans ops, fun awake none_ => ?_, ?_⟩
  · rw [passes_kept kept, hobReg_marchDone, lastRow_eq]
  · have hobs := (contained.calm (cut.trans none_)).hobs (mode ▸ awake)
    exact Eq.trans (congrArg (fun t : Tbl Hob => t.getD u _) hobs) hob
  · refine beside_of_kept kept (untouched_marchDone.trans ?_)
    rw [lastRow_eq]

/-- A failed row is detected. -/
theorem marchEnd_detected : Detected s (stateOf s ((marchDone s u true).raise (hobSource 2 u) 0 0))
    (if u.val < 16 then 0x1E0 + u.val else 0x1F2) 0 0 s.dev.clock.tb := by
  obtain ⟨-, -, rest, fuse, -, due⟩ := marchDone_marched (s := s) (u := u) (fail := true)
  obtain ⟨number, low, plain⟩ := marchFail_source (u := u)
  have source : (marchDone s u true).source (hobSource 2 u) = s.world.source (hobSource 2 u) :=
    source_congr (w := s.world) fuse (congrArg (fun d => d.chim) rest) _
  have src : (marchDone s u true).dev.src (hobSource 2 u) = s.dev.src (hobSource 2 u) := congrArg (fun f : Flue => f.srcs.getD (hobSource 2 u) {}) (congrArg (fun d => d.flue) rest)
  have detected := detected_of (s := s) (d0 := 0) (d1 := 0) source (srcCfg_marchDone low) (congrArg (fun d => d.sys.mode) rest) src due plain
    there_marchFail
  rwa [show (marchDone s u true).dev.clock.tb = s.dev.clock.tb from congrArg (fun d => d.clock.tb) rest, number] at detected

/-- What the end of a row test answers. -/
theorem marchEnd_answers {fail : Bool} (runs : (s.dev.hob u).march = true) : ∃ v : W, exec (.marchRowComplete u fail) s = .next (stateOf s v) ∧
    Kept (marchDone s u fail) v ∧ Contained True (marchDone s u fail) v ∧
    (fail = true → Detected s (stateOf s v) (if u.val < 16 then 0x1E0 + u.val else 0x1F2) 0 0 s.dev.clock.tb) := by
  cases fail with
  | false =>
    refine ⟨marchDone s u false, (marchEnd_row runs).trans ?_, Kept.refl _, Contained.refl _, nofun⟩
    rw [if_neg Bool.false_ne_true]
  | true =>
    refine ⟨(marchDone s u true).raise (hobSource 2 u) 0 0, (marchEnd_row runs).trans ?_, kept_raise _ _ _ _ _ _,
      contained_raise (.inl trivial), fun _ => marchEnd_detected⟩
    rw [if_pos rfl]

theorem hobMarchAndWake : Says.HobMarchAndWake := by
  intro s u h fail w x last starts
  refine ⟨marchStart_still, marchStart_starts, marchStart_alone, fun idle => ?_, fun runs => ?_, fun awake => ?_, fun mode asleep => ?_⟩
  · exact ⟨_, next_of (if_neg (Bool.eq_false_iff.mp idle)), rfl⟩
  · obtain ⟨v, row, kept, contained, detected⟩ := marchEnd_answers (fail := fail) runs
    obtain ⟨passes, ops, hob, beside⟩ := marchEnd_leaves kept contained
    refine ⟨_, row, passes, fun none_ => congrArg (fun l => s.mem.applyAll l) (ops none_), fun awake none_ => ?_, detected, beside⟩
    refine (hob awake none_).trans ?_
    rw [marched, lastRow_eq]
  · have stays : (if s.world.dev.sys.mode = .doze then s.world else s.world.wakeHob h) = s.world := by
      refine ite_eq_left_iff.mpr fun mode => ?_
      exact if_pos (awake.resolve_left mode)
    exact ⟨_, next_of stays, rfl⟩
  · have wakes : (if s.world.dev.sys.mode = .doze then s.world else s.world.wakeHob h) =
        s.world.upd fun d => (d.onHob h fun y => { y with power := .awake }).onDom (208 + h.val) fun y => { y with st := .on } := by
      rw [if_neg (show ¬ s.world.dev.sys.mode = .doze from mode), W.wakeHob, if_neg (show ¬ (s.world.dev.hob h).power = .awake from asleep),
        hobDom, if_pos h.isLt]
    exact ⟨_, next_of wakes, rfl⟩

/-- Settles O55: the choice of the arbiter and its grants, the row test by its start and its end, and the wake. -/
theorem hobPorts : Obligations.HobPorts := ⟨hobArbiterGrants, hobMarchAndWake⟩

end Sys2Proof.Proofs
end

section
/-! What stands after the event of a source: forced channels, selected values, holds, active sources, the error pin, and the trips of
a device that has gone SAFE (R271 to R276). -/

namespace Sys2Proof.Proofs

open Machine Laws

set_option Elab.async false

variable {s : State} {a b c w v : W} {h k n : Nat}

/-- A channel that the Flue forces, or that is at fault. -/
abbrev Gripped (x : Damper) : Prop := x.st = .forced ∨ x.st = .fault

/-- Source `n` holds what stands at place `k` of the table. -/
def HeldAt (t : Tbl Hold) (k n : Nat) : Prop := ∃ x, t.get? k = some x ∧ n ∈ x.srcs

/-- What stands in Flue `f` stands in Flue `g`. -/
structure FlueStands (f g : Flue) : Prop where
  words : (g.mismatch, g.word, g.noMajority) = (f.mismatch, f.word, f.noMajority)
  hw : f.hwSafe = true → g.hwSafe = true
  hold : f.devHold = true → g.devHold = true
  active : ∀ n, n ≠ 0x2C3 → (f.srcs.getD n {}).active = true → (g.srcs.getD n {}).active = true
  holds : ∀ k n, HeldAt f.holds k n → HeldAt g.holds k n
  sels : ∀ k n, HeldAt f.sels k n → HeldAt g.sels k n

theorem FlueStands.refl {f : Flue} : FlueStands f f := ⟨rfl, id, id, fun _ _ => id, fun _ _ => id, fun _ _ => id⟩

theorem FlueStands.trans {f g x : Flue} (p : FlueStands f g) (q : FlueStands g x) : FlueStands f x :=
  ⟨q.words.trans p.words, q.hw ∘ p.hw, q.hold ∘ p.hold, fun n ne => q.active n ne ∘ p.active n ne, fun k n => q.holds k n ∘ p.holds k n,
    fun k n => q.sels k n ∘ p.sels k n⟩

/-- The error pin is asserted now, and its hold time is not zero. -/
def Asserted (w : W) : Prop := w.dev.flue.errPin = true ∧ w.dev.flue.errAt = w.dev.clock.ivl ∧ fld (w.reg 2 0 0x30) 0 14 ≠ 0

/-- The device enters SAFE no more: it is there, or in a mode that does not trip, or a reset is armed. -/
def Tripped (w : W) : Prop := w.dev.sys.resetArmed = true ∨ w.dev.sys.mode.trippable = false

/-- What stands in world `a` stands in world `w`. -/
structure Stands (a w : W) : Prop where
  kept : Kept a w
  grip : ∀ n, Gripped (a.dev.damper n) → Gripped (w.dev.damper n)
  blw : ∀ k, (w.dev.blw k).phase = (a.dev.blw k).phase ∧ (w.dev.blw k).checked = (a.dev.blw k).checked ∧
    ((a.dev.blw k).all = true → (w.dev.blw k).all = true)
  flue : FlueStands a.dev.flue w.dev.flue
  err : Asserted a → Asserted w
  trips : Tripped a → w.dev.sys.mode = a.dev.sys.mode ∧ ∀ n, n ∈ a.dev.flue.tripSet → n ∈ w.dev.flue.tripSet

theorem Stands.refl : Stands w w := ⟨.refl w, fun _ => id, fun _ => ⟨rfl, rfl, id⟩, .refl, id, fun _ => ⟨rfl, fun _ => id⟩⟩

theorem resetArmed_kept (x : Kept a w) : w.dev.sys.resetArmed = a.dev.sys.resetArmed := congrArg (fun d => d.sys.resetArmed) x.1

theorem Tripped.stays (t : Tripped a) (x : Stands a w) : Tripped w := by
  obtain ⟨mode, -⟩ := x.trips t
  rw [Tripped, resetArmed_kept x.kept, mode]
  exact t

theorem Stands.trans (x : Stands a b) (y : Stands b c) : Stands a c := by
  refine ⟨x.kept.trans y.kept, fun n => y.grip n ∘ x.grip n, fun k => ?_, x.flue.trans y.flue, y.err ∘ x.err, fun t => ?_⟩
  · obtain ⟨phase, checked, all⟩ := x.blw k
    obtain ⟨phase', checked', all'⟩ := y.blw k
    exact ⟨phase'.trans phase, checked'.trans checked, all' ∘ all⟩
  · obtain ⟨mode, trips⟩ := x.trips t
    obtain ⟨mode', trips'⟩ := y.trips (t.stays x)
    exact ⟨mode'.trans mode, fun n => trips' n ∘ trips n⟩

theorem Stands.ite {p : Prop} [Decidable p] (x : Stands a b) (y : Stands a c) : Stands a (if p then b else c) := by
  split
  · exact x
  · exact y

theorem Stands.each {α : Type} {xs : List α} {f : α → W → W} (x : ∀ i v, Stands v (f i v)) : Stands w (w.each xs f) := by
  induction xs generalizing w with
  | nil => exact .refl
  | cons i xs ih => exact (x i w).trans ih

/-- The hold time of the error pin and the time stand beside the events. -/
theorem asserted_kept (x : Kept a w) (held : Asserted a) (flue : (w.dev.flue.errPin, w.dev.flue.errAt) = (a.dev.flue.errPin, a.dev.flue.errAt)) :
    Asserted w := by
  obtain ⟨pin, when_, time⟩ := held
  obtain ⟨pin', when'⟩ := Prod.mk.inj flue
  refine ⟨pin'.trans pin, ?_, ?_⟩
  · rw [when', when_, show w.dev.clock = a.dev.clock from congrArg (fun d => d.clock) x.1]
  · rw [reg_kept x (by decide)]
    exact time

/-- What stands in the Flue, beside what its records and its drive phases change. -/
def standing (f : Flue) : Flue :=
  { f with traceGap := {}, traceLost := 0, traceNext := 0, driving := false, unconf := [], forcing := []
           hist := [], histNext := 0, events := 0, lastEvent := none }

theorem FlueStands.same {f g : Flue} (same : standing g = standing f) : FlueStands f g := by
  refine ⟨?_, ?_, ?_, fun n _ => ?_, fun k n => ?_, fun k n => ?_⟩
  · exact congrArg (fun f => (f.mismatch, f.word, f.noMajority)) same
  · exact fun on => (congrArg (fun f => f.hwSafe) same).trans on
  · exact fun on => (congrArg (fun f => f.devHold) same).trans on
  · exact fun on => (congrArg (fun f => (f.srcs.getD n {}).active) same).trans on
  · rw [show g.holds = f.holds from congrArg (fun f => f.holds) same]
    exact id
  · rw [show g.sels = f.sels from congrArg (fun f => f.sels) same]
    exact id

/-- What changes no more than the records and the drive phases of the Flue, and grips channels. -/
theorem Stands.same (kept : Kept a w) (grip : ∀ n, Gripped (a.dev.damper n) → Gripped (w.dev.damper n))
    (blw : ∀ k, blwStand (w.dev.blw k) = blwStand (a.dev.blw k)) (sys : w.dev.sys = a.dev.sys)
    (flue : standing w.dev.flue = standing a.dev.flue) : Stands a w := by
  refine ⟨kept, grip, fun k => ?_, .same flue, fun held => ?_, fun _ => ⟨congrArg Sys.mode sys, ?_⟩⟩
  · exact ⟨congrArg (fun x => x.2.2) (blw k), congrArg (fun x => x.2.1) (blw k), fun all => (congrArg (fun x => x.1) (blw k)).trans all⟩
  · exact asserted_kept kept held (congrArg (fun f => (f.errPin, f.errAt)) flue)
  · rw [show w.dev.flue.tripSet = a.dev.flue.tripSet from congrArg (fun f => f.tripSet) flue]
    exact fun _ => id

/-- What the operations below the reactions keep stands. -/
theorem Stands.below (x : Below a w) (kept : Kept a w) : Stands a w := by
  obtain ⟨same, -⟩ := below_iff.mp x
  have dampers : w.dev.dampers = a.dev.dampers := congrArg (fun x => x.1) same
  refine .same kept (fun n => ?_) (fun k => congrFun (congrArg (fun x => x.2.2.2) same) k) (congrArg (fun x => x.2.1) same)
    (congrArg (fun x => standing x.2.2.1) same)
  rw [show w.dev.damper n = a.dev.damper n from congrArg (fun t : Tbl Damper => t.getD n {}) dampers]
  exact id

/-- A change of the Flue under which what stands in it stands. -/
theorem Stands.onFlue {f : Flue → Flue} (stands : FlueStands w.dev.flue (f w.dev.flue))
    (err : (f w.dev.flue).errPin = w.dev.flue.errPin ∧ (f w.dev.flue).errAt = w.dev.flue.errAt ∨
      (f w.dev.flue).errPin = true ∧ (f w.dev.flue).errAt = w.dev.clock.ivl)
    (trips : ∀ n, n ∈ w.dev.flue.tripSet → n ∈ (f w.dev.flue).tripSet) : Stands w (w.upd fun d => { d with flue := f d.flue }) := by
  refine ⟨.upd _ _ rfl, fun _ => id, fun _ => ⟨rfl, rfl, id⟩, stands, fun ⟨pin, when_, time⟩ => ?_, fun _ => ⟨rfl, trips⟩⟩
  rcases err with ⟨pin', when'⟩ | ⟨pin', when'⟩
  · exact ⟨pin'.trans pin, when'.trans when_, time⟩
  · exact ⟨pin', when', time⟩

/-! The reactions one by one. -/

theorem stands_history {r : Rec} : Stands w (w.history r) := .same (.upd _ _ rfl) (fun _ => id) (fun _ => rfl) rfl rfl

theorem stands_startDriving : Stands w w.startDriving := .same (.upd _ _ rfl) (fun _ => id) (fun _ => rfl) rfl rfl

theorem stands_trace {r : Rec} : Stands w (w.trace r) := .below (below_trace ..) (steady_trace ..).kept

theorem stands_cutFail {x : Byte} : Stands w (w.cutFail h x) := .below (below_cutFail ..) (steady_cutFail ..).kept

theorem stands_finishAll {o key st : Nat} {r : List Byte} : Stands w (w.finishAll o key st r) := .below (below_finishAll ..) (steady_finishAll ..).kept

/-- The pin is asserted. -/
def pinAsserted (w : W) : W :=
  w.upd fun d => { d with flue := { d.flue with errPin := true, errAt := d.clock.ivl, errRel := false, errCnt := satInc d.flue.errCnt } }

theorem stands_errAssert : Stands w w.errAssert :=
  (show Stands w (pinAsserted w) from ⟨.upd _ _ rfl, fun _ => id, fun _ => ⟨rfl, rfl, id⟩, ⟨rfl, id, id, fun _ _ => id, fun _ _ => id, fun _ _ => id⟩,
    fun ⟨_, _, time⟩ => ⟨rfl, rfl, time⟩, fun _ => ⟨rfl, fun _ => id⟩⟩).trans stands_finishAll

/-- Asserting the pin asserts it now. -/
theorem asserted_errAssert (time : fld (w.reg 2 0 0x30) 0 14 ≠ 0) : Asserted w.errAssert :=
  (stands_finishAll (w := pinAsserted w)).err ⟨rfl, rfl, time⟩

theorem stands_restartOut : Stands w (w.restartOut h) := .below (below_restartOut ..) (steady_restartOut ..).kept

theorem damper_forceCh : (w.forceCh n).dev.damper k = if k = n ∧ ¬ Gripped (w.dev.damper n) then
    { w.dev.damper n with st := .forced, settling := (w.dev.damper n).settling || (w.dev.damper n).st == DampSt.live } else w.dev.damper k := by
  unfold W.forceCh Gripped
  dsimp only
  by_cases grip : (w.dev.damper n).st = .fault ∨ (w.dev.damper n).st = .forced
  · rw [if_pos grip, if_neg (fun x => x.2 grip.symm)]
  · rw [if_neg grip]
    by_cases own : k = n
    · subst own
      rw [if_pos ⟨rfl, fun x => grip x.symm⟩]
      exact damper_onDamper_self _ _ _
    · rw [if_neg fun x => own x.1]
      exact damper_onDamper_ne _ _ _ _ own

/-- A channel that is forced is. -/
theorem gripped_forceCh : Gripped ((w.forceCh n).dev.damper n) := by
  rw [damper_forceCh]
  split
  · exact .inl rfl
  · next grip => exact Classical.not_not.mp fun off => grip ⟨rfl, off⟩

theorem stands_forceCh : Stands w (w.forceCh n) := by
  obtain ⟨bellows, sys, flue⟩ : (w.forceCh n).dev.bellows = w.dev.bellows ∧ (w.forceCh n).dev.sys = w.dev.sys ∧
      standing (w.forceCh n).dev.flue = standing w.dev.flue := by
    unfold W.forceCh
    dsimp only
    split <;> exact ⟨rfl, rfl, rfl⟩
  refine .same (steady_forceCh w n).kept (fun k grip => ?_) (fun k => ?_) sys flue
  · rw [damper_forceCh]
    split
    · exact .inl rfl
    · exact grip
  · rw [Dev.blw, bellows]
    rfl

/-- Forcing channels one by one grips each of them. -/
theorem gripped_each {l : List Nat} {f : Nat → Nat} {g : Nat → W → W} (stands : ∀ i v, Stands v (g i v))
    (grips : ∀ i v, i ∈ l → Gripped ((g i v).dev.damper (f i))) {i : Nat} (mem : i ∈ l) : Gripped ((w.each l g).dev.damper (f i)) := by
  induction l generalizing w with
  | nil => cases mem
  | cons x l ih =>
    rcases List.mem_cons.mp mem with own | later
    · subst own
      exact (Stands.each (w := g i w) (xs := l) stands).grip _ (grips i w (.head _))
    · exact ih (w := g x w) (fun i v mem => grips i v (.tail _ mem)) later

/-- A hold that takes a source more. -/
theorem HeldAt.set {t : Tbl Hold} {x : Hold} (keeps : ∀ y, t.get? k = some y → ∀ n ∈ y.srcs, n ∈ x.srcs) (j : Nat) (held : HeldAt t j n) :
    HeldAt (t.set k x) j n := by
  obtain ⟨y, found, mem⟩ := held
  by_cases own : j = k
  · subst own
    exact ⟨x, get_set_self _ _ _, keeps y found n mem⟩
  · exact ⟨y, (get_set_ne _ _ _ _ own).trans found, mem⟩

theorem heldAt_self {t : Tbl Hold} {x : Hold} (mem : n ∈ x.srcs) : HeldAt (t.set k x) k n := ⟨x, get_set_self _ _ _, mem⟩

end Sys2Proof.Proofs
end

section
/-! What stands after the reaction to a fault, and what each reaction brings about (R273, R275, R276). -/

namespace Sys2Proof.Proofs

open Machine Laws

set_option Elab.async false

variable {s : State} {a b c w v : W} {h k n g : Nat} {r : Rec} {grp : List Nat}

/-- All of bellows `h` selects its safe values. -/
theorem blw_allSafe {d : Dev} {f : Bellows → Bellows} (keeps : ∀ b, (f b).phase = b.phase ∧ (f b).checked = b.checked ∧ (b.all = true → (f b).all = true)) :
    ((d.onBlw h f).blw k).phase = (d.blw k).phase ∧ ((d.onBlw h f).blw k).checked = (d.blw k).checked ∧
      ((d.blw k).all = true → ((d.onBlw h f).blw k).all = true) := by
  by_cases own : k = h
  · subst own
    rw [blw_onBlw_self]
    exact keeps _
  · rw [blw_onBlw_ne _ _ _ _ own]
    exact ⟨rfl, rfl, id⟩

/-- The hold of hearth `h` with source `n`. -/
def hearthHeld (w : W) (n h : Nat) : W :=
  w.upd fun d => ({ d with flue := { d.flue with holds := d.flue.holds.set h (match d.flue.holds.get? h with
    | some x => { x with srcs := n :: x.srcs.filter (· != n), last := d.clock.ivl }
    | none => { srcs := [n], latched := decide (w.recovLimit ≤ (w.dev.flue.localWin.getD h []).length), last := d.clock.ivl }) } }).onBlw h
      fun b => { b with all := true }

theorem mem_again {l : List Nat} {x : Nat} (mem : x ∈ l) : x ∈ n :: l.filter (· != n) := by
  by_cases own : x = n
  · exact own ▸ .head _
  · exact .tail _ (List.mem_filter.mpr ⟨mem, bne_iff_ne.mpr own⟩)

theorem stands_hearthHeld : Stands w (hearthHeld w n h) := by
  refine ⟨.upd _ _ rfl, fun _ => id, fun k => blw_allSafe fun b => ⟨rfl, rfl, fun _ => rfl⟩,
    ⟨rfl, id, id, fun _ _ => id, fun k m => HeldAt.set (fun y found m mem => ?_) k, fun _ _ => id⟩, fun ⟨pin, when_, time⟩ => ⟨pin, when_, time⟩,
    fun _ => ⟨rfl, fun _ => id⟩⟩
  rw [found]
  exact mem_again mem

theorem hearthSafe_eq : w.hearthSafe n h = ((hearthHeld w n h).restartOut h).each (List.range 4) fun i w => w.forceCh (4 * h + i) := rfl

theorem stands_hearthSafe : Stands w (w.hearthSafe n h) := by
  rw [hearthSafe_eq]
  exact (stands_hearthHeld.trans stands_restartOut).trans (.each fun _ _ => stands_forceCh)

/-- Hearth safe forces the four channels, selects the safe values and holds the hearth. -/
theorem hearthSafe_safe : (∀ i, i < 4 → Gripped ((w.hearthSafe n h).dev.damper (4 * h + i))) ∧ ((w.hearthSafe n h).dev.blw h).all = true ∧
    HeldAt (w.hearthSafe n h).dev.flue.holds h n := by
  rw [hearthSafe_eq]
  have after : Stands (hearthHeld w n h) (((hearthHeld w n h).restartOut h).each (List.range 4) fun i w => w.forceCh (4 * h + i)) :=
    stands_restartOut.trans (.each fun _ _ => stands_forceCh)
  refine ⟨fun i low => ?_, (after.blw h).2.2 ?_, after.flue.holds h n (heldAt_self ?_)⟩
  · exact gripped_each (f := fun i => 4 * h + i) (fun _ _ => stands_forceCh) (fun _ _ _ => gripped_forceCh) (List.mem_range.mpr low)
  · exact congrArg Bellows.all (blw_onBlw_self _ _ _)
  · split
    · exact .head _
    · exact .head _

/-- The selection of group `g` of hearth `h` by source `n`. -/
def groupHeld (w : W) (n h g : Nat) : W :=
  w.upd fun d =>
    let hold : Hold := { srcs := n :: (d.flue.sels.getD (16 * h + g) {}).srcs.filter (· != n), latched := false, last := d.clock.ivl }
    ({ d with flue := { d.flue with sels := d.flue.sels.set (16 * h + g) hold } }).onBlw h fun b => { b with group := setBit b.group g true }

theorem stands_groupHeld : Stands w (groupHeld w n h g) := by
  refine ⟨.upd _ _ rfl, fun _ => id, fun k => blw_allSafe fun b => ⟨rfl, rfl, id⟩,
    ⟨rfl, id, id, fun _ _ => id, fun _ _ => id, fun k m => HeldAt.set (fun y found m mem => ?_) k⟩, fun ⟨pin, when_, time⟩ => ⟨pin, when_, time⟩,
    fun _ => ⟨rfl, fun _ => id⟩⟩
  have own : w.dev.flue.sels.getD (16 * h + g) {} = y := by rw [Tbl.getD, found, Option.getD_some]
  rw [own]
  exact mem_again mem

/-- Channel `i` of hearth `h` follows group `g`. -/
def Follows (w : W) (h g i : Nat) : Prop :=
  bitAt (w.reg 6 0 (0x2000 + 4 * (4 * h + i))) 20 = true ∧ fld (w.reg 6 0 (0x2000 + 4 * (4 * h + i))) 16 4 = g

/-- The configuration words of the channels stand beside the events. -/
theorem damperWord_plain : ∀ i < 64, errReg (blockBase 6 0 + (0x2000 + 4 * i)) = false := by decide +kernel

theorem follows_kept {i : Nat} (low : 4 * h + i < 64) (x : Kept a w) : Follows w h g i ↔ Follows a h g i := by
  rw [Follows, Follows, reg_kept x (damperWord_plain _ low)]

theorem selectGroup_eq : w.selectGroup n h g = ((groupHeld w n h g).restartOut h).each (List.range 4) fun i w =>
    if bitAt (w.reg 6 0 (0x2000 + 4 * (4 * h + i))) 20 = true ∧ fld (w.reg 6 0 (0x2000 + 4 * (4 * h + i))) 16 4 = g then w.forceCh (4 * h + i) else w := rfl

theorem stands_selectGroup : Stands w (w.selectGroup n h g) := by
  rw [selectGroup_eq]
  exact (stands_groupHeld.trans stands_restartOut).trans (.each fun _ _ => .ite stands_forceCh .refl)

/-- What holds through the worlds of a list holds at its element. -/
theorem each_at {l : List Nat} {f : Nat → W → W} {p : W → Prop} {q : Nat → W → Prop} (stands : ∀ i v, Stands v (f i v))
    (later : ∀ i v u, Stands v u → q i v → q i u) (keeps : ∀ v u, Stands v u → p v → p u) (here : ∀ i v, i ∈ l → p v → q i (f i v))
    (start : p w) {i : Nat} (mem : i ∈ l) : q i (w.each l f) := by
  induction l generalizing w with
  | nil => cases mem
  | cons x l ih =>
    rcases List.mem_cons.mp mem with own | rest
    · subst own
      exact later i (f i w) _ (Stands.each stands) (here i w (.head _) start)
    · exact ih (w := f x w) (fun i v mem => here i v (.tail _ mem)) (keeps _ _ (stands x w) start) rest

/-- Loop safe selects the group and forces the channels that follow it. -/
theorem selectGroup_safe (low : h < 16) : HeldAt (w.selectGroup n h g).dev.flue.sels (16 * h + g) n ∧
    ∀ i, i < 4 → Follows w h g i → Gripped ((w.selectGroup n h g).dev.damper (4 * h + i)) := by
  rw [selectGroup_eq]
  constructor
  · refine (Stands.flue (a := groupHeld w n h g) ?_).sels _ n (heldAt_self (t := w.dev.flue.sels) (.head _))
    exact stands_restartOut.trans (.each fun _ _ => .ite stands_forceCh .refl)
  · intro i less follows
    refine each_at (p := fun v => Kept w v) (q := fun i v => i < 4 → Follows w h g i → Gripped (v.dev.damper (4 * h + i)))
      (fun _ _ => .ite stands_forceCh .refl) (fun i v u x held less follows => x.grip _ (held less follows)) (fun _ _ x y => y.trans x.kept)
      (fun i v _ kept less follows => ?_) (stands_groupHeld.trans stands_restartOut).kept (List.mem_range.mpr less) less follows
    have still := (follows_kept (by omega) kept).mpr follows
    rw [Follows] at still
    rw [if_pos still]
    exact gripped_forceCh

/-! SAFE of the device. -/

theorem stands_cutoverSafe : Stands w w.cutoverSafe.2 := .below (below_cutoverSafe w) (steady_cutoverSafe w).kept

theorem stands_startCores : Stands w w.startCores := .below (below_startCores w) (steady_startCores w).kept

theorem stands_dozeUp : Stands w w.dozeUp := .below (below_dozeUp w) (steady_dozeUp w).kept

/-- A mode is left for SAFE (R47): the tripping set of the episode is empty. -/
def safeEntered (w : W) (old : Mode) : W :=
  (w.upd fun d => { d with
    sys := { d.sys with dozeArmed := false },
    flue := { d.flue with retMode := if old.running then 4 else if old = .quiet then d.flue.retMode else 3, tripSet := [] },
    chim := { d.chim with safeMark := d.chim.safeMark || d.chim.pos == 0 },
    stoker := { d.stoker with serving := !d.stoker.restarting } }).stampMode .safe

theorem stands_safeEntered {old : Mode} (goes : ¬ Tripped w) : Stands w (safeEntered w old) :=
  ⟨⟨rfl, rfl⟩, fun _ => id, fun _ => ⟨rfl, rfl, id⟩, ⟨rfl, id, id, fun _ _ => id, fun _ _ => id, fun _ _ => id⟩,
    fun ⟨pin, when_, time⟩ => ⟨pin, when_, time⟩, fun t => absurd t goes⟩

theorem enterSafe_armed (armed : w.dev.sys.resetArmed = true) : w.enterSafe = (false, w) := if_pos armed

theorem enterSafe_goes (clear : w.dev.sys.resetArmed = false) : w.enterSafe.2 =
    (if w.dev.sys.mode = .doze then (safeEntered w.cutoverSafe.2 w.dev.sys.mode).dozeUp else safeEntered w.cutoverSafe.2 w.dev.sys.mode).startCores := by
  unfold W.enterSafe
  rw [if_neg (Bool.eq_false_iff.mp clear)]
  rfl

theorem sys_below (x : Below a w) : w.dev.sys = a.dev.sys := congrArg (fun x => x.2.1) (below_iff.mp x).1

theorem stands_enterSafe (from_ : w.dev.sys.mode.trippable = true) : Stands w w.enterSafe.2 := by
  cases armed : w.dev.sys.resetArmed with
  | true =>
    rw [enterSafe_armed armed]
    exact .refl
  | false =>
    have goes : ¬ Tripped w.cutoverSafe.2 := by
      rw [Tripped, sys_below (below_cutoverSafe w), armed, from_]
      exact fun x => x.elim Bool.false_ne_true fun x => Bool.false_ne_true x.symm
    rw [enterSafe_goes armed]
    exact (stands_cutoverSafe.trans ((stands_safeEntered goes).trans (.ite stands_dozeUp .refl))).trans stands_startCores

/-- Behind the entry the device goes to SAFE no more. -/
theorem enterSafe_mode : w.enterSafe.2.dev.sys.mode = (if w.dev.sys.resetArmed = true then w.dev.sys.mode else .safe) := by
  cases armed : w.dev.sys.resetArmed with
  | true =>
    rw [enterSafe_armed armed]
    rfl
  | false =>
    rw [enterSafe_goes armed, sys_below (below_startCores _)]
    split
    · rw [sys_below (below_dozeUp _)]
      rfl
    · rfl

end Sys2Proof.Proofs
end

section
/-! What stands after an event, and what its reactions leave (R271 to R276, R291). -/

namespace Sys2Proof.Proofs

open Machine Laws

set_option Elab.async false

variable {s : State} {a b c w v : W} {h k n g : Nat} {r : Rec} {grp : List Nat}

/-- The safe values of the bellows of a list are selected. -/
@[irreducible] def allSafe (l : List Nat) (d : Dev) : Dev := l.foldl (fun d h => d.onBlw h fun b => { b with all := true }) d

theorem allSafe_foldl {l : List Nat} {d : Dev} : allSafe l d = l.foldl (fun d h => d.onBlw h fun b => { b with all := true }) d := by rw [allSafe]

theorem allSafe_nil {d : Dev} : allSafe [] d = d := allSafe_foldl

theorem allSafe_cons {l : List Nat} {d : Dev} : allSafe (h :: l) d = allSafe l (d.onBlw h fun b => { b with all := true }) := by
  rw [allSafe_foldl, allSafe_foldl, List.foldl_cons]

theorem allSafe_rest {l : List Nat} {d : Dev} : { allSafe l d with bellows := ⟨[]⟩ } = { d with bellows := ⟨[]⟩ } := by
  induction l generalizing d with
  | nil => rw [allSafe_nil]
  | cons h l ih => exact allSafe_cons ▸ ih.trans rfl

theorem allSafe_blw {l : List Nat} {d : Dev} : ((allSafe l d).blw k).phase = (d.blw k).phase ∧ ((allSafe l d).blw k).checked = (d.blw k).checked ∧
    ((d.blw k).all = true ∨ k ∈ l → ((allSafe l d).blw k).all = true) := by
  induction l generalizing d with
  | nil => exact allSafe_nil ▸ ⟨rfl, rfl, fun x => x.elim id nofun⟩
  | cons h l ih =>
    obtain ⟨phase, checked, all⟩ := ih (d := d.onBlw h fun b => { b with all := true })
    obtain ⟨phase', checked', all'⟩ := blw_allSafe (h := h) (k := k) (d := d) (f := fun b => { b with all := true }) fun _ => ⟨rfl, rfl, fun _ => rfl⟩
    rw [allSafe_cons]
    refine ⟨phase.trans phase', checked.trans checked', fun x => ?_⟩
    rcases x with held | mem
    · exact all (.inl (all' held))
    · rcases List.mem_cons.mp mem with rfl | later
      · exact all (.inl (congrArg Bellows.all (blw_onBlw_self _ _ _)))
      · exact all (.inr later)

/-- The hold of the device with source `n`, before its outputs and channels follow. -/
def safeHeld (w : W) (n : Nat) : W :=
  w.upd fun d => allSafe (List.range 16) { d with flue := { d.flue with devHold := true, tripSet := n :: d.flue.tripSet.filter (· != n) } }

theorem safeHeld_rest : { (safeHeld w n).dev with bellows := ⟨[]⟩ } =
    { w.dev with bellows := ⟨[]⟩, flue := { w.dev.flue with devHold := true, tripSet := n :: w.dev.flue.tripSet.filter (· != n) } } := allSafe_rest

theorem kept_blanked {d e : Dev} {f : Flue} (same : { e with bellows := ⟨[]⟩ } = { d with bellows := ⟨[]⟩, flue := f }) : Laws.kept e = Laws.kept d :=
  (congrArg Laws.kept same :)

theorem stands_safeHeld : Stands w (safeHeld w n) := by
  have rest := safeHeld_rest (w := w) (n := n)
  have flue : (safeHeld w n).dev.flue = { w.dev.flue with devHold := true, tripSet := n :: w.dev.flue.tripSet.filter (· != n) } := congrArg (fun d => d.flue) rest
  have kept : Kept w (safeHeld w n) := Kept.upd _ _ (kept_blanked (e := (safeHeld w n).dev) rest)
  refine ⟨kept, fun k => ?_, fun k => ?_, ?_, fun held => asserted_kept kept held ?_, fun _ => ⟨congrArg (fun d => d.sys.mode) rest, fun m mem => ?_⟩⟩
  · rw [show (safeHeld w n).dev.damper k = w.dev.damper k from (congrArg (fun d : Dev => d.damper k) rest :)]
    exact id
  · obtain ⟨phase, checked, all⟩ := allSafe_blw (k := k) (l := List.range 16)
      (d := { w.dev with flue := { w.dev.flue with devHold := true, tripSet := n :: w.dev.flue.tripSet.filter (· != n) } })
    exact ⟨phase, checked, fun held => all (.inl held)⟩
  · rw [flue]
    exact ⟨rfl, id, fun _ => rfl, fun _ _ => id, fun _ _ => id, fun _ _ => id⟩
  · rw [flue]
  · rw [flue]
    exact mem_again mem

theorem deviceSafe_eq : (w.deviceSafe n).2 = (((safeHeld (if w.dev.sys.mode.trippable = true then w.enterSafe.2 else w) n).each (List.range 16)
    fun h w => w.restartOut h).each (List.range 64) fun n w => w.forceCh n) := by
  unfold W.deviceSafe safeHeld
  simp only [allSafe_foldl]
  generalize List.range 64 = l
  generalize List.range 16 = m
  cases w.dev.sys.mode.trippable <;> rfl

theorem stands_tripped : Stands w (if w.dev.sys.mode.trippable = true then w.enterSafe.2 else w) := by
  split
  · next from_ => exact stands_enterSafe from_
  · exact .refl

theorem stands_deviceSafe : Stands w (w.deviceSafe n).2 := by
  rw [deviceSafe_eq]
  exact ((stands_tripped.trans stands_safeHeld).trans (.each fun _ _ => stands_restartOut)).trans (.each fun _ _ => stands_forceCh)

/-- The mode that the device is in behind a trip. -/
def trippedMode (w : W) : Mode := if w.dev.sys.mode.trippable = true ∧ w.dev.sys.resetArmed = false then .safe else w.dev.sys.mode

/-- SAFE of the device forces all channels, selects all safe values, and holds the device with its source. -/
theorem deviceSafe_safe : (∀ k, k < 64 → Gripped ((w.deviceSafe n).2.dev.damper k)) ∧ (∀ k, k < 16 → ((w.deviceSafe n).2.dev.blw k).all = true) ∧
    (w.deviceSafe n).2.dev.flue.devHold = true ∧ n ∈ (w.deviceSafe n).2.dev.flue.tripSet ∧ Tripped (w.deviceSafe n).2 ∧
    (w.deviceSafe n).2.dev.sys.mode = trippedMode w := by
  rw [deviceSafe_eq]
  generalize trips : (if w.dev.sys.mode.trippable = true then w.enterSafe.2 else w) = v
  have moded : v.dev.sys.mode = trippedMode w := by
    rw [← trips, trippedMode]
    cases mode : w.dev.sys.mode.trippable with
    | false => simp
    | true =>
      rw [if_pos rfl, enterSafe_mode]
      cases w.dev.sys.resetArmed <;> simp
  have tripped : Tripped v := by
    have armed : v.dev.sys.resetArmed = w.dev.sys.resetArmed := resetArmed_kept (trips ▸ stands_tripped (w := w)).kept
    rw [Tripped, armed, moded, trippedMode]
    cases w.dev.sys.resetArmed with
    | true => exact .inl rfl
    | false =>
      cases mode : w.dev.sys.mode.trippable with
      | true => exact .inr (by simp [Mode.trippable, Mode.running])
      | false => exact .inr (by simpa using mode)
  have rest := safeHeld_rest (w := v) (n := n)
  have flue : (safeHeld v n).dev.flue = { v.dev.flue with devHold := true, tripSet := n :: v.dev.flue.tripSet.filter (· != n) } := congrArg (fun d => d.flue) rest
  have held : Tripped (safeHeld v n) := tripped.stays stands_safeHeld
  have outs : Stands (safeHeld v n) ((safeHeld v n).each (List.range 16) fun h w => w.restartOut h) := .each fun _ _ => stands_restartOut
  have after := outs.trans (.each (xs := List.range 64) (f := fun n w => w.forceCh n) fun _ _ => stands_forceCh)
  obtain ⟨mode, trip⟩ := after.trips held
  refine ⟨fun k low => ?_, fun k low => (after.blw k).2.2 ?_, after.flue.hold ?_, trip n ?_, held.stays after, mode.trans ?_⟩
  · exact gripped_each (f := id) (fun _ _ => stands_forceCh) (fun _ _ _ => gripped_forceCh) (List.mem_range.mpr low)
  · exact allSafe_blw.2.2 (.inr (List.mem_range.mpr low))
  · rw [flue]
  · rw [flue]
    exact .head _
  · exact (congrArg (fun d => d.sys.mode) rest).trans moded

/-! The reaction to a record. -/

theorem stands_react : Stands w (w.react n r grp).2 := by
  unfold W.react
  extract_lets h w1 w2 w3 w4 w5 w6 w7
  have reactions : Stands w w7 :=
    Stands.ite stands_history .refl |>.trans stands_trace |>.trans (.ite stands_cutFail .refl) |>.trans (.ite stands_startDriving .refl)
      |>.trans (.ite stands_hearthSafe .refl) |>.trans (.ite (.each fun _ _ => stands_selectGroup) .refl) |>.trans (.ite stands_errAssert .refl)
  refine reactions.trans ?_
  split
  · exact stands_deviceSafe
  · split
    · next quiet => exact stands_enterSafe (by rw [quiet.2]; rfl)
    · exact .refl

theorem stands_noteEvent {l : Bool} : Stands w (w.noteEvent n l r) := by
  have src : Stands w (w.upd fun d => d.onSrc n fun x => x.after l r) := by
    refine ⟨.upd _ _ rfl, fun _ => id, fun _ => ⟨rfl, rfl, id⟩, ⟨rfl, id, id, fun m _ active => ?_, fun _ _ => id, fun _ _ => id⟩,
      fun ⟨pin, when_, time⟩ => ⟨pin, when_, time⟩, fun _ => ⟨rfl, fun _ => id⟩⟩
    by_cases own : m = n
    · subst own
      have kept : ((w.dev.src m).after l r).active = true := by
        unfold Src.after
        dsimp only
        split <;> split <;> first | rfl | exact active
      exact (congrArg Src.active (getD_set_self _ _ _ _)).trans kept
    · exact (congrArg Src.active (getD_set_ne _ _ _ _ _ own)).trans active
  unfold W.noteEvent
  refine src.trans (.ite ⟨.upd _ _ rfl, fun _ => id, fun _ => ⟨rfl, rfl, id⟩, ⟨rfl, fun _ => rfl, id, fun _ _ => id, fun _ _ => id, fun _ _ => id⟩,
    fun ⟨pin, when_, time⟩ => ⟨pin, when_, time⟩, fun _ => ⟨rfl, fun _ => id⟩⟩ .refl)

theorem stands_event {d0 d1 : Word32} {test : Bool} : Stands w (w.event n d0 d1 test grp).2 := by
  unfold W.event
  split
  · exact .refl
  · exact stands_noteEvent.trans stands_react

theorem stands_fellBack {x : Bool × W} : Stands x.2 (W.fellBack x) := .ite stands_event .refl

/-- Where the pin is asserted now, it is not released (R287). -/
theorem errAuto_asserted (held : Asserted w) : w.errAuto = w := by
  obtain ⟨-, when_, time⟩ := held
  refine if_neg ?_
  have late : ¬ w.errEnd ≤ w.dev.now := by
    unfold W.errEnd Dev.now
    rw [when_]
    omega
  rw [decide_eq_false late, Bool.and_false]
  exact Bool.false_ne_true

theorem stands_errAuto : Stands w w.errAuto := by
  by_cases held : Asserted w
  · rw [errAuto_asserted held]
    exact .refl
  · have released : Stands w (w.upd fun d => { d with flue := { d.flue with errPin := false, errRel := false } }) :=
      ⟨.upd _ _ rfl, fun _ => id, fun _ => ⟨rfl, rfl, id⟩, ⟨rfl, id, id, fun _ _ => id, fun _ _ => id, fun _ _ => id⟩, fun x => absurd x held,
        fun _ => ⟨rfl, fun _ => id⟩⟩
    exact .ite (released.trans stands_finishAll) .refl

theorem stands_inactivePool : Stands w (w.upd fun d => d.onSrc 0x2C3 fun x => { x with active := false }) :=
  ⟨.upd _ _ rfl, fun _ => id, fun _ => ⟨rfl, rfl, id⟩, ⟨rfl, id, id, fun n ne on => (congrArg Src.active (getD_set_ne _ _ _ _ _ ne)).trans on,
    fun _ _ => id, fun _ _ => id⟩, fun ⟨pin, when_, time⟩ => ⟨pin, when_, time⟩, fun _ => ⟨rfl, fun _ => id⟩⟩

theorem stands_poolCheck : Stands w w.poolCheck := .ite stands_event (.ite (stands_inactivePool.trans stands_errAuto) .refl)

theorem stands_noDue : Stands w { w with due := [] } := .below (below_iff.mpr ⟨rfl, rfl⟩) ⟨rfl, rfl⟩

theorem stands_drainOnce : Stands w w.drainOnce :=
  .trans (b := { w with due := [] }) stands_noDue (.each fun _ _ => .ite .refl (stands_event.trans stands_fellBack))

theorem stands_settle : Stands w w.settle := (stands_drainOnce.trans stands_drainOnce).trans stands_poolCheck

theorem stands_followUp {x : Bool × W} : Stands x.2 (W.followUp x) := stands_fellBack.trans stands_settle

theorem stands_raise {d0 d1 : Word32} {test : Bool} : Stands w (w.raise n d0 d1 test grp) := stands_event.trans (stands_followUp (x := w.event n d0 d1 test grp))

end Sys2Proof.Proofs
end

section
/-! What the reactions of a detected source leave (R273, R275, R276). -/

namespace Sys2Proof.Proofs

open Machine Laws

set_option Elab.async false

variable {s : State} {a b c w v : W} {h k n g : Nat} {r : Rec} {grp : List Nat} {d0 d1 : Word32} {test : Bool}

/-- Hearth `h` is safe by source `n`. -/
def HearthDone (v : W) (n h : Nat) : Prop :=
  (∀ i, i < 4 → Gripped (v.dev.damper (4 * h + i))) ∧ (v.dev.blw h).all = true ∧ HeldAt v.dev.flue.holds h n

theorem HearthDone.stays (x : HearthDone w n h) (y : Stands w v) : HearthDone v n h := by
  obtain ⟨grip, all, held⟩ := x
  exact ⟨fun i low => y.grip _ (grip i low), (y.blw h).2.2 all, y.flue.holds h n held⟩

/-- Group `g` of hearth `h` is safe by source `n`. -/
def GroupDone (v : W) (n h g : Nat) : Prop :=
  HeldAt v.dev.flue.sels (16 * h + g) n ∧ ∀ i, i < 4 → Follows v h g i → Gripped (v.dev.damper (4 * h + i))

theorem GroupDone.stays (low : h < 16) (x : GroupDone w n h g) (y : Stands w v) : GroupDone v n h g := by
  obtain ⟨held, grip⟩ := x
  exact ⟨y.flue.sels _ n held, fun i less follows => y.grip _ (grip i less ((follows_kept (by omega) y.kept).mp follows))⟩

/-- The device is safe by source `n`, in mode `m`. -/
def DeviceDone (v : W) (n : Nat) (m : Mode) : Prop :=
  (∀ k, k < 64 → Gripped (v.dev.damper k)) ∧ (∀ k, k < 16 → (v.dev.blw k).all = true) ∧ v.dev.flue.devHold = true ∧
    n ∈ v.dev.flue.tripSet ∧ Tripped v ∧ v.dev.sys.mode = m

theorem DeviceDone.stays {m : Mode} (x : DeviceDone w n m) (y : Stands w v) : DeviceDone v n m := by
  obtain ⟨grip, all, hold, trip, tripped, mode⟩ := x
  obtain ⟨same, trips⟩ := y.trips tripped
  exact ⟨fun k low => y.grip k (grip k low), fun k low => (y.blw k).2.2 (all k low), y.flue.hold hold, trips n trip, tripped.stays y, same.trans mode⟩

theorem groupDone_each {l : List Nat} (low : h < 16) (mem : g ∈ l) : GroupDone (w.each l fun g w => w.selectGroup n h g) n h g := by
  refine each_at (p := fun _ => True) (q := fun g v => GroupDone v n h g) (fun _ _ => stands_selectGroup) (fun g v u x done => done.stays low x)
    (fun _ _ _ => id) (fun g v _ _ => ?_) trivial mem
  obtain ⟨held, grip⟩ := selectGroup_safe (w := v) (n := n) (g := g) low
  exact ⟨held, fun i less follows => grip i less ((follows_kept (by omega) (stands_selectGroup (w := v) (n := n) (h := h) (g := g)).kept).mp follows)⟩

/-- What the reactions of a record of source `n` leave. -/
structure ReactDone (w : W) (n h : Nat) (r : Rec) (grp : List Nat) (v : W) : Prop where
  hearth : bitAt r.react 1 = true → HearthDone v n h
  group : bitAt r.react 2 = true → ∀ g, g < 16 → (fld (w.srcCfg n) 16 16).testBit g = true ∨ g ∈ grp → GroupDone v n h g
  device : bitAt r.react 3 = true → DeviceDone v n (trippedMode w)
  pin : bitAt r.react 4 = true → fld (w.reg 2 0 0x30) 0 14 ≠ 0 → Asserted v

theorem ReactDone.stays (low : h < 16) (x : ReactDone w n h r grp v) (y : Stands v b) : ReactDone w n h r grp b :=
  ⟨fun on => (x.hearth on).stays y, fun on g less sel => (x.group on g less sel).stays low y, fun on => (x.device on).stays y,
    fun on time => y.err (x.pin on time)⟩

theorem mem_bitsOf {x m : Nat} : g ∈ bitsOf m x ↔ g < m ∧ x.testBit g = true := by
  unfold bitsOf
  rw [List.mem_filter, List.mem_range]

theorem srcCfg_plain (low : n < 1024) : errReg (blockBase 2 0 + (0x1000 + 4 * n)) = false := by
  rw [errReg, Bool.or_eq_false_iff, List.any_eq_false, List.any_eq_false]
  refine ⟨fun u mem => ?_, fun o mem => ?_⟩
  · rw [Bool.not_eq_true, List.any_eq_false]
    intro o mem'
    rw [List.mem_range] at mem
    simp only [List.mem_cons, List.not_mem_nil, or_false] at mem'
    rw [beq_iff_eq, blockBase_two]
    have low : (if u < 16 then blockBase 16 u else blockBase 1 0) = 0x20000000 ∨
        0x20100000 ≤ (if u < 16 then blockBase 16 u else blockBase 1 0) := by
      split
      · exact .inr (by simp [blockBase])
      · exact .inl rfl
    omega
  · simp only [List.mem_cons, List.not_mem_nil, or_false] at mem
    rw [beq_iff_eq, blockBase_two, blockBase_eight]
    omega

/-! The mode is changed by SAFE of the device alone. -/

theorem mode_each {α : Type} {l : List α} {f : α → W → W} (same : ∀ i v, (f i v).dev.sys.mode = v.dev.sys.mode) :
    (w.each l f).dev.sys.mode = w.dev.sys.mode := by
  induction l generalizing w with
  | nil => rfl
  | cons i l ih => exact (ih (w := f i w)).trans (same i w)

theorem mode_ite {p : Prop} [Decidable p] (same : v.dev.sys.mode = w.dev.sys.mode) : (if p then v else w).dev.sys.mode = w.dev.sys.mode := by
  split
  · exact same
  · rfl

theorem mode_sameCh (x : SameCh w v) : v.dev.sys.mode = w.dev.sys.mode := (chs_iff.mp (sameCh_iff.mp x).1).2

theorem mode_hearthSafe : (w.hearthSafe n h).dev.sys.mode = w.dev.sys.mode := by
  rw [hearthSafe_eq]
  exact (mode_each fun _ _ => mode_forceCh).trans (mode_sameCh (sameCh_restartOut _ _))

theorem mode_selectGroup : (w.selectGroup n h g).dev.sys.mode = w.dev.sys.mode := by
  rw [selectGroup_eq]
  exact (mode_each fun _ _ => mode_ite mode_forceCh).trans (mode_sameCh (sameCh_restartOut _ _))

theorem react_done (source : n < 1024) (low : w.srcHearth n < 16) : ReactDone w n (w.srcHearth n) r grp (w.react n r grp).2 := by
  unfold W.react
  extract_lets h w1 w2 w3 w4 w5 w6 w7
  have s4 : Stands w w4 :=
    Stands.ite stands_history .refl |>.trans stands_trace |>.trans (.ite stands_cutFail .refl) |>.trans (.ite stands_startDriving .refl)
  have s5 : Stands w4 w5 := .ite stands_hearthSafe .refl
  have s6 : Stands w5 w6 := .ite (.each fun _ _ => stands_selectGroup) .refl
  have s7 : Stands w6 w7 := .ite stands_errAssert .refl
  have s8 : Stands w7 (if bitAt r.react 3 = true then w7.deviceSafe n else
      if 2 ≤ r.sev.toNat ∧ w7.dev.sys.mode = .quiet then w7.enterSafe else (false, w7)).2 := by
    split
    · exact stands_deviceSafe
    · split
      · next quiet => exact stands_enterSafe (by rw [quiet.2]; rfl)
      · exact .refl
  have early : Stands w w6 := (s4.trans s5).trans s6
  refine ⟨fun on => ?_, fun on g less sel => ?_, fun on => ?_, fun on time => ?_⟩
  · refine HearthDone.stays (w := w5) ?_ ((s6.trans s7).trans s8)
    rw [show w5 = w4.hearthSafe n h from if_pos on]
    exact hearthSafe_safe
  · refine GroupDone.stays low (w := w6) ?_ (s7.trans s8)
    rw [show w6 = w5.each _ _ from if_pos on]
    refine groupDone_each low (List.mem_append.mpr ?_)
    by_cases own : g ∈ grp
    · exact .inl own
    · refine .inr (List.mem_filter.mpr ⟨mem_bitsOf.mpr ⟨less, ?_⟩, by simpa using own⟩)
      have cfg : w5.srcCfg n = w.srcCfg n := reg_kept (s4.trans s5).kept (srcCfg_plain source)
      rw [cfg]
      exact sel.resolve_right own
  · rw [if_pos on]
    obtain ⟨grip, all, hold, trip, tripped, mode⟩ := deviceSafe_safe (w := w7) (n := n)
    refine ⟨grip, all, hold, trip, tripped, mode.trans ?_⟩
    have same : w7.dev.sys.mode = w.dev.sys.mode := by
      have m1 : w1.dev.sys.mode = w.dev.sys.mode := mode_ite (mode_sameCh (sameCh_history _ _))
      have m2 : w2.dev.sys.mode = w1.dev.sys.mode := mode_sameCh (sameCh_trace _ _)
      have m3 : w3.dev.sys.mode = w2.dev.sys.mode := mode_ite (mode_sameCh (sameCh_cutFail _ _ _))
      have m4 : w4.dev.sys.mode = w3.dev.sys.mode := mode_ite rfl
      have m5 : w5.dev.sys.mode = w4.dev.sys.mode := mode_ite mode_hearthSafe
      have m6 : w6.dev.sys.mode = w5.dev.sys.mode := mode_ite (mode_each fun _ _ => mode_selectGroup)
      have m7 : w7.dev.sys.mode = w6.dev.sys.mode := mode_ite (mode_sameCh (sameCh_errAssert _))
      rw [m7, m6, m5, m4, m3, m2, m1]
    rw [trippedMode, trippedMode, same, resetArmed_kept (early.trans s7).kept]
  · refine Stands.err s8 ?_
    rw [show w7 = w6.errAssert from if_pos on]
    refine asserted_errAssert ?_
    rw [show w6.reg 2 0 0x30 = w.reg 2 0 0x30 from reg_kept early.kept (by decide)]
    exact time

/-! A detected source. -/

/-- What the record of source `n` holds is what its configuration and the mode give. -/
theorem noteEvent_same {l : Bool} : (w.noteEvent n l r).srcHearth k = w.srcHearth k ∧ (w.noteEvent n l r).srcCfg k = w.srcCfg k ∧
    trippedMode (w.noteEvent n l r) = trippedMode w ∧ (w.noteEvent n l r).reg 2 0 0x30 = w.reg 2 0 0x30 := by
  have same : (w.noteEvent n l r).dev.regs = w.dev.regs ∧ (w.noteEvent n l r).dev.chim = w.dev.chim ∧ (w.noteEvent n l r).fuse = w.fuse ∧
      (w.noteEvent n l r).dev.sys = w.dev.sys := by
    unfold W.noteEvent
    dsimp only
    split <;> exact ⟨rfl, rfl, rfl, rfl⟩
  obtain ⟨regs, chim, fuse, sys⟩ := same
  have reg (o : Nat) : (w.noteEvent n l r).reg 2 0 o = w.reg 2 0 o := reg_congr fuse chim _ _ _ fun _ => by rw [regs]
  have source : (w.noteEvent n l r).source k = w.source k := source_congr fuse chim k
  have cfg : (w.noteEvent n l r).srcCfg k = w.srcCfg k := reg _
  refine ⟨?_, cfg, ?_, reg _⟩
  · rw [W.srcHearth, W.srcHearth, source, cfg]
  · rw [trippedMode, trippedMode, sys]

/-- The source of an event is active behind it, where it is a level source. -/
theorem active_noteEvent (test : r.test = false) : ((w.noteEvent n true r).dev.src n).active = true := by
  have on : ((w.dev.src n).after true r).active = true := by
    unfold Src.after
    rw [test]
    dsimp only
    split <;> rfl
  unfold W.noteEvent
  dsimp only
  split <;> exact (congrArg Src.active (getD_set_self _ _ _ _)).trans on

/-- What the event of a source leaves behind its reactions. -/
theorem event_done {row : SrcRow} (source : n < 1024) (low : w.srcHearth n < 16) (there : w.source n = some row) :
    ReactDone w n (w.srcHearth n) (w.eventRec n d0 d1 test) grp (w.event n d0 d1 test grp).2 := by
  obtain ⟨hearth, cfg, mode, time⟩ := noteEvent_same (w := w) (n := n) (k := n) (r := w.eventRec n d0 d1 test) (l := row.level)
  have done := react_done (r := w.eventRec n d0 d1 test) (grp := grp) source (hearth.symm ▸ low : (w.noteEvent n row.level (w.eventRec n d0 d1 test)).srcHearth n < 16)
  have eq : w.event n d0 d1 test grp = (w.noteEvent n row.level (w.eventRec n d0 d1 test)).react n (w.eventRec n d0 d1 test) grp := by
    unfold W.event
    rw [there]
  rw [eq]
  rw [hearth] at done
  obtain ⟨a1, a2, a3, a4⟩ := done
  exact ⟨a1, by rwa [cfg] at a2, by rwa [mode] at a3, by rwa [time] at a4⟩

theorem raise_done {row : SrcRow} (source : n < 1024) (low : w.srcHearth n < 16) (there : w.source n = some row) :
    ReactDone w n (w.srcHearth n) (w.eventRec n d0 d1 test) grp (w.raise n d0 d1 test grp) :=
  (event_done source low there).stays low stands_followUp

end Sys2Proof.Proofs
end

section
/-! O28: level sources that end, the end of a reaction, and the configuration sweep (R271, R275, R276). -/

namespace Sys2Proof.Proofs

open Machine Laws

set_option Elab.async false

variable {s : State} {w v x : W} {k n i : Nat}

/-! A level source that ends. -/

theorem sys_finishAll {o key st : Nat} {r : List Byte} : (w.finishAll o key st r).dev.sys = w.dev.sys := sys_below (below_finishAll _ _ _ _ _)

theorem sys_errAuto : w.errAuto.dev.sys = w.dev.sys := by
  unfold W.errAuto
  extract_lets m ok
  split
  · exact sys_finishAll.trans rfl
  · rfl

theorem damper_sameCh (same : SameCh w v) : v.dev.damper n = w.dev.damper n := by
  obtain ⟨dampers, -⟩ := chs_iff.mp (sameCh_iff.mp same).1
  rw [Dev.damper, Dev.damper, dampers]

/-- What the end of source `k` leaves of the sources and of the memory. -/
theorem inactive_ended (flue : w.dev.flue.srcs = s.dev.flue.srcs) (ops : w.ops = []) :
    ((stateOf s (w.inactive k)).dev.src k).active = false ∧ (stateOf s (w.inactive k)).mem = s.mem ∧
      ∀ j, j ≠ k → (stateOf s (w.inactive k)).dev.src j = s.dev.src j := by
  have ended (j : Nat) : (w.inactive k).dev.src j = if j = k then { w.dev.src k with active := false } else w.dev.src j :=
    (steady_src (steady_errAuto _) j).trans (src_onSrc _ _ _ _)
  refine ⟨?_, congrArg (fun l => s.mem.applyAll l) (ops_inactive.trans ops), fun j ne => ?_⟩
  · rw [stateOf_dev, ended, if_pos rfl]
  · rw [stateOf_dev, ended, if_neg ne, Dev.src, flue]
    rfl

theorem levelInactive_row {src : SourceId} : exec (.levelSourceInactive src) s = .next (stateOf s (
    if (externalSource src.val && (s.world.active src.val || (decide (src.val = 0x301) && s.dev.thm.refLost))) = true then
      if src.val = 6 then
        match s.dev.sys.opHighAt with
        | none => s.world
        | some t => (s.world.upd fun d => { (d.advanceIvl (t.toNat + 1000000000)) with sys := { d.sys with opStuck := false, opHighAt := none } }).inactive src.val
      else
        let w := if 0x10 ≤ src.val ∧ src.val < 0x50 then
            s.world.upd fun d => d.onDamper (src.val - 0x10) fun c =>
              { c with fb := if c.mismatch = some 1 then false else c.fb, mismatch := none, agreeAt := d.clock.ivl }
          else if src.val = 2 then s.world.upd fun d => { d with clock := { d.clock with backup := false } }
          else if src.val = 0x301 then s.world.upd fun d => { d with thm := { d.thm with refLost := false } }
          else s.world
        if w.active src.val then w.inactive src.val else w
    else s.world)) := rfl

/-- What ends with an external source beside itself. -/
def besideEnd (w : W) (k : Nat) : W :=
  if 0x10 ≤ k ∧ k < 0x50 then
    w.upd fun d => d.onDamper (k - 0x10) fun c =>
      { c with fb := if c.mismatch = some 1 then false else c.fb, mismatch := none, agreeAt := d.clock.ivl }
  else if k = 2 then w.upd fun d => { d with clock := { d.clock with backup := false } }
  else if k = 0x301 then w.upd fun d => { d with thm := { d.thm with refLost := false } }
  else w

theorem besideEnd_facts : (besideEnd w k).dev.flue = w.dev.flue ∧ (besideEnd w k).ops = w.ops ∧
    (untouched (besideEnd w k).dev = untouched { w.dev with
      clock := if k = 2 then { w.dev.clock with backup := false } else w.dev.clock
      thm := if k = 0x301 then { w.dev.thm with refLost := false } else w.dev.thm }) ∧
    ∀ n, n < 64 → (besideEnd w k).dev.damper n = if k = 0x10 + n then { w.dev.damper n with
      fb := if (w.dev.damper n).mismatch = some 1 then false else (w.dev.damper n).fb, mismatch := none, agreeAt := w.dev.clock.ivl }
      else w.dev.damper n := by
  unfold besideEnd
  split
  · next channel =>
    rw [if_neg (by omega), if_neg (by omega)]
    refine ⟨rfl, rfl, rfl, fun n _ => ?_⟩
    split
    · next own =>
      rw [show k - 0x10 = n by omega]
      exact damper_onDamper_self _ _ _
    · exact damper_onDamper_ne _ _ _ _ (by omega)
  · next away =>
    have none_ (n : Nat) (low : n < 64) : ¬ k = 0x10 + n := by omega
    split
    · next two =>
      rw [if_neg (by omega)]
      exact ⟨rfl, rfl, rfl, fun n low => (if_neg (none_ n low)).symm ▸ rfl⟩
    · next other =>
      split
      · exact ⟨rfl, rfl, rfl, fun n low => (if_neg (none_ n low)).symm ▸ rfl⟩
      · exact ⟨rfl, rfl, rfl, fun n low => (if_neg (none_ n low)).symm ▸ rfl⟩

/-- The condition under which a level source ends. -/
theorem levelEnds_iff {src : SourceId} :
    (externalSource src.val && (s.world.active src.val || (decide (src.val = 0x301) && s.dev.thm.refLost))) = true ↔
      externalSource src.val = true ∧ (s.world.active src.val = true ∨ src.val = 0x301 ∧ s.dev.thm.refLost = true) := by
  rw [Bool.and_eq_true, Bool.or_eq_true, Bool.and_eq_true, decide_eq_true_iff]

theorem levelInactive_still {src : SourceId}
    (stays : ¬ (externalSource src.val = true ∧ (s.world.active src.val = true ∨ src.val = 0x301 ∧ s.dev.thm.refLost = true))) :
    Answers (.levelSourceInactive src) s (Only s · id) :=
  ⟨_, levelInactive_row.trans (next_of (if_neg (levelEnds_iff.not.mpr stays))), rfl⟩

theorem levelInactive_reference {src : SourceId} (own : src.val = 0x301) (ext : externalSource src.val = true) (idle : s.world.active src.val = false)
    (lost : s.dev.thm.refLost = true) :
    Answers (.levelSourceInactive src) s (Only s · fun d => { d with thm := { d.thm with refLost := false } }) := by
  have beside : besideEnd s.world src.val = s.world.upd fun d => { d with thm := { d.thm with refLost := false } } := by
    rw [own]
    rfl
  have still : ¬ (besideEnd s.world src.val).active src.val = true := by
    rw [beside]
    exact Bool.eq_false_iff.mp idle
  refine ⟨_, levelInactive_row.trans (next_of ((if_pos (levelEnds_iff.mpr ⟨ext, .inr ⟨own, lost⟩⟩)).trans ((if_neg (by omega)).trans
    (if_neg (c := (besideEnd s.world src.val).active src.val = true) still)))), ?_⟩
  exact congrArg (stateOf s) beside

theorem levelInactive_operator {src : SourceId} (own : src.val = 6) (on : s.world.active 6 = true) (stuck : s.dev.sys.opHighAt = none) :
    Answers (.levelSourceInactive src) s (Only s · id) := by
  have ext : externalSource src.val = true := by rw [own]; rfl
  refine ⟨_, levelInactive_row.trans (next_of ((if_pos (levelEnds_iff.mpr ⟨ext, .inl (own ▸ on)⟩)).trans (if_pos own))), ?_⟩
  rw [stuck]
  rfl

/-- The operator input has been high for a second. -/
def operatorFree (s : State) (t : Word64) : W :=
  s.world.upd fun d => { (d.advanceIvl (t.toNat + 1000000000)) with sys := { d.sys with opStuck := false, opHighAt := none } }

theorem levelInactive_released {src : SourceId} {t : Word64} (own : src.val = 6) (on : s.world.active 6 = true) (high : s.dev.sys.opHighAt = some t) :
    Answers (.levelSourceInactive src) s fun u =>
      ((u.dev.src 6).active = false ∧ u.mem = s.mem ∧ ∀ j, j ≠ 6 → u.dev.src j = s.dev.src j) ∧ ReachesIvl s u (t.toNat + 1000000000) ∧
        u.dev.sys = { s.dev.sys with opStuck := false, opHighAt := none } := by
  have ext : externalSource src.val = true := by rw [own]; rfl
  have ends := (levelInactive_row (s := s) (src := src)).trans (next_of ((if_pos (levelEnds_iff.mpr ⟨ext, .inl (own ▸ on)⟩)).trans (if_pos own)))
  rw [high, own] at ends
  refine ⟨stateOf s ((operatorFree s t).inactive 6), own ▸ ends, inactive_ended rfl rfl, ?_, ?_⟩
  · exact congrArg (fun d => d.clock) (kept_inactive (w := operatorFree s t) (k := 6)).1
  · exact sys_errAuto (w := (operatorFree s t).upd fun d => d.onSrc 6 fun x => { x with active := false })

theorem levelInactive_ends {src : SourceId} (ext : externalSource src.val = true) (on : s.world.active src.val = true) (other : src.val ≠ 6) :
    Answers (.levelSourceInactive src) s fun t =>
      ((t.dev.src src).active = false ∧ t.mem = s.mem ∧ ∀ j, j ≠ src.val → t.dev.src j = s.dev.src j) ∧
      (∀ n, n < 64 → t.dev.damper n = if src.val = 0x10 + n then { s.dev.damper n with
        fb := if (s.dev.damper n).mismatch = some 1 then false else (s.dev.damper n).fb, mismatch := none, agreeAt := s.dev.clock.ivl }
        else s.dev.damper n) ∧
      Beside s t fun d => { d with clock := if src.val = 2 then { d.clock with backup := false } else d.clock,
                                   thm := if src.val = 0x301 then { d.thm with refLost := false } else d.thm } := by
  obtain ⟨flue, ops, beside, dampers⟩ := besideEnd_facts (w := s.world) (k := src.val)
  have still : (besideEnd s.world src.val).active src.val = true := by
    rw [W.active, Dev.src, flue]
    exact on
  refine ⟨stateOf s ((besideEnd s.world src.val).inactive src.val), levelInactive_row.trans (next_of ((if_pos (levelEnds_iff.mpr ⟨ext, .inl on⟩)).trans ((if_neg other).trans
    (if_pos (c := (besideEnd s.world src.val).active src.val = true) still)))), ?_⟩
  refine ⟨inactive_ended (congrArg (fun f => f.srcs) flue) ops, fun n low => ?_, beside_of_kept kept_inactive beside⟩
  exact (damper_sameCh (sameCh_errAuto _)).trans (dampers n low)

/-! The end of a reaction (R275). -/

/-- A channel that a reaction waited for counts as confirmed. -/
def confirmed (c : Damper) : Damper := if c.st = .fault then c else { c with fb := false, settling := false }

theorem confirmed_confirmed {c : Damper} : confirmed (confirmed c) = confirmed c := by
  unfold confirmed
  by_cases fault : c.st = .fault
  · rw [if_pos fault, if_pos fault]
  · rw [if_neg fault, if_neg fault]

theorem confirmed_iff {l : List Nat} {c : Damper} :
    (if n ∈ l then confirmed c else c) = if n ∈ l ∧ c.st ≠ .fault then { c with fb := false, settling := false } else c := by
  unfold confirmed
  by_cases mem : n ∈ l
  · by_cases fault : c.st = .fault
    · simp only [mem, fault, ne_eq, not_true_eq_false, and_false, if_true, if_false]
    · simp only [mem, fault, ne_eq, not_false_eq_true, and_self, if_true, if_false]
  · simp only [mem, false_and, if_false]

theorem confirmAll {l : List Nat} : (∃ t, (w.each l fun n w => w.upd fun d => d.onDamper n confirmed) = w.upd fun d => { d with dampers := t }) ∧
    (w.each l fun n w => w.upd fun d => d.onDamper n confirmed).dev.damper n = if n ∈ l then confirmed (w.dev.damper n) else w.dev.damper n := by
  induction l generalizing w with
  | nil => exact ⟨⟨_, rfl⟩, rfl⟩
  | cons k l ih =>
    obtain ⟨⟨t, eq⟩, at_⟩ := ih (w := w.upd fun d => d.onDamper k confirmed)
    refine ⟨⟨t, eq.trans rfl⟩, at_.trans ?_⟩
    have first : (w.upd fun d => d.onDamper k confirmed).dev.damper n = if n = k then confirmed (w.dev.damper n) else w.dev.damper n := by
      split
      · next own => exact own ▸ damper_onDamper_self _ _ _
      · next ne => exact damper_onDamper_ne _ _ _ _ ne
    rw [first]
    by_cases own : n = k
    · rw [if_pos own, confirmed_confirmed, ite_self, if_pos (own ▸ List.mem_cons_self)]
    · rw [if_neg own]
      simp only [List.mem_cons, own, false_or]

theorem reaction_ends : Answers .reactionComplete s fun t =>
    t.dev = { s.dev with out := .none, dampers := t.dev.dampers, flue := { s.dev.flue with driving := false, unconf := [], forcing := [] } } ∧
    t.mem = s.mem ∧ t.fuse = s.fuse ∧ t.pending = s.pending ∧
    ∀ n, t.dev.damper n = if n ∈ s.dev.flue.unconf ∧ (s.dev.damper n).st ≠ .fault then { s.dev.damper n with fb := false, settling := false }
      else s.dev.damper n := by
  refine ⟨_, rfl, ?_⟩
  have all_ (n : Nat) := confirmAll (w := s.world) (l := s.dev.flue.unconf) (n := n)
  obtain ⟨⟨t, eq⟩, -⟩ := all_ 0
  have at_ (n : Nat) := (all_ n).2
  have same : (s.world.each s.world.dev.flue.unconf fun n w => w.upd fun d => d.onDamper n fun c =>
      if c.st = .fault then c else { c with fb := false, settling := false }) = s.world.upd fun d => { d with dampers := t } := eq
  rw [eq] at at_
  dsimp only
  rw [same]
  refine ⟨rfl, rfl, rfl, rfl, fun n => (at_ n).trans ?_⟩
  exact confirmed_iff

end Sys2Proof.Proofs
end

section
/-! O28: the configuration sweep that finds a difference (R276). -/

namespace Sys2Proof.Proofs

open Machine Laws

set_option Elab.async false

variable {s : State} {w v x : W} {k n i typ o : Nat} {d0 d1 : Word32}

theorem stands_detectOne {x : Bool × W} {r : Rec} : Stands x.2 (detectOne x n r).2 := by
  rw [detectOne]
  split
  · exact .refl
  · exact stands_noteEvent.trans stands_react

theorem stands_raiseTwo {a b : Nat} : Stands w (w.raiseTwo a b d0 d1) := by
  rw [raiseTwo_eq]
  exact (stands_detectOne (x := (false, w)).trans stands_detectOne).trans stands_followUp

/-- HW_SAFE is on (R276). -/
def hardwareSafe (w : W) : W := w.upd fun d => { d with flue := { d.flue with hwSafe := true } }

theorem stands_hardwareSafe : Stands w (hardwareSafe w) :=
  ⟨.upd _ _ rfl, fun _ => id, fun _ => ⟨rfl, rfl, id⟩, ⟨rfl, fun _ => rfl, id, fun _ _ => id, fun _ _ => id, fun _ _ => id⟩,
    fun ⟨pin, when_, time⟩ => ⟨pin, when_, time⟩, fun _ => ⟨rfl, fun _ => id⟩⟩

/-- The hardware SAFE of R276: all channels are forced, and the pin is asserted. -/
def SafeNow (w : W) (time : Prop) : Prop :=
  w.dev.flue.hwSafe = true ∧ (w.dev.src 0).active = true ∧ (time → Asserted w) ∧ ∀ n, n < 64 → Gripped (w.dev.damper n)

theorem hwForce_safe (on : (w.dev.src 0).active = true) :
    Stands w (w.hwForce 0) ∧ SafeNow (w.hwForce 0) (fld (w.reg 2 0 0x30) 0 14 ≠ 0) := by
  have first : Stands w (hardwareSafe w).startDriving := stands_hardwareSafe.trans stands_startDriving
  have last : Stands (hardwareSafe w).startDriving.errAssert (w.hwForce 0) := stands_deviceSafe.trans (stands_followUp (x := W.deviceSafe _ 0))
  have all_ : Stands w (w.hwForce 0) := (first.trans stands_errAssert).trans last
  obtain ⟨grip, -⟩ := deviceSafe_safe (w := (hardwareSafe w).startDriving.errAssert) (n := 0)
  have tail : Stands ((hardwareSafe w).startDriving.errAssert.deviceSafe 0).2 (w.hwForce 0) := stands_followUp (x := W.deviceSafe _ 0)
  refine ⟨all_, (stands_errAssert.trans last).flue.hw rfl, all_.flue.active 0 (by decide) on, fun goes => ?_, fun n low => tail.grip n (grip n low)⟩
  refine last.err (asserted_errAssert ?_)
  rw [reg_kept first.kept (by decide)]
  exact goes

/-! A source of the hardware SAFE that is detected. -/

/-- The reactions of source 0 hold SAFE of the device and the pin. -/
theorem eventRec_hardware : bitAt (w.eventRec 0 d0 d1 false).react 3 = true ∧ bitAt (w.eventRec 0 d0 d1 false).react 4 = true := by
  have low : w.mask 0 < 32 := by
    unfold W.mask fld
    omega
  show bitAt (BitVec.ofNat 5 (Nat.lor (w.mask 0) 24)) 3 = true ∧ bitAt (BitVec.ofNat 5 (Nat.lor (w.mask 0) 24)) 4 = true
  generalize w.mask 0 = m at low
  interval_cases m <;> decide

theorem srcHearth_zero : w.srcHearth 0 < 16 := by
  have own : w.srcHearth 0 = fld (w.srcCfg 0) 8 4 := rfl
  rw [own]
  unfold fld
  omega

/-- The reactions of source 0, where it is detected. -/
theorem hardware_done : SafeNow ((w.noteEvent 0 true (w.eventRec 0 d0 d1 false)).react 0 (w.eventRec 0 d0 d1 false) []).2
    (fld (w.reg 2 0 0x30) 0 14 ≠ 0) := by
  generalize note : w.noteEvent 0 true (w.eventRec 0 d0 d1 false) = v
  have done := react_done (w := v) (n := 0) (r := w.eventRec 0 d0 d1 false) (grp := []) (by decide) srcHearth_zero
  obtain ⟨bit3, bit4⟩ := eventRec_hardware (w := w) (d0 := d0) (d1 := d1)
  obtain ⟨-, -, -, time⟩ := noteEvent_same (w := w) (n := 0) (k := 0) (r := w.eventRec 0 d0 d1 false) (l := true)
  have active := active_noteEvent (w := w) (n := 0) (r := w.eventRec 0 d0 d1 false) rfl
  rw [note] at time active
  have hw : v.dev.flue.hwSafe = true := note ▸ rfl
  have after : Stands v (v.react 0 (w.eventRec 0 d0 d1 false) []).2 := stands_react
  exact ⟨after.flue.hw hw, after.flue.active 0 (by decide) active, fun goes => done.pin bit4 (time ▸ goes), (done.device bit3).1⟩

theorem SafeNow.stays {p : Prop} (x : SafeNow w p) (y : Stands w v) : SafeNow v p :=
  ⟨y.flue.hw x.1, y.flue.active 0 (by decide) x.2.1, fun t => y.err (x.2.2.1 t), fun n low => y.grip n (x.2.2.2 n low)⟩

/-- What the difference of a word tells: source 0, and source 1 where a reaction is in progress. -/
def sweepTold (hw again : Bool) (v : W) : W :=
  let w := if hw then v.raiseTwo 0 1 0 0 else if again then v else v.raise 0 0 0
  if again then w.hwForce 0 else w

theorem sweepTold_cases : sweepTold true true v = (v.raiseTwo 0 1 0 0).hwForce 0 ∧ sweepTold false true v = v.hwForce 0 ∧
    sweepTold true false v = v.raiseTwo 0 1 0 0 ∧ sweepTold false false v = v.raise 0 0 0 := by
  simp only [sweepTold, if_true, Bool.false_eq_true, if_false, and_self]

theorem sweepTold_safe {hw again : Bool} (on : (v.dev.src 0).active = again) :
    Stands v (sweepTold hw again v) ∧ SafeNow (sweepTold hw again v) (fld (v.reg 2 0 0x30) 0 14 ≠ 0) := by
  have level : (v.source 0).any (·.level) = true := rfl
  obtain ⟨twice, force, two, one⟩ := sweepTold_cases (v := v)
  cases again with
  | true =>
    have forced (u : W) (early : Stands v u) : Stands v (u.hwForce 0) ∧ SafeNow (u.hwForce 0) (fld (v.reg 2 0 0x30) 0 14 ≠ 0) := by
      obtain ⟨stands, safe⟩ := hwForce_safe (early.flue.active 0 (by decide) on)
      rw [show u.reg 2 0 0x30 = v.reg 2 0 0x30 from reg_kept early.kept (by decide)] at safe
      exact ⟨early.trans stands, safe⟩
    cases hw with
    | true => exact twice ▸ forced _ stands_raiseTwo
    | false => exact force ▸ forced _ .refl
  | false =>
    have idle : v.stands 0 = false := by
      rw [W.stands, W.active, on, Bool.and_false]
    cases hw with
    | true =>
      rw [two]
      refine ⟨stands_raiseTwo, ?_⟩
      rw [raiseTwo_eq]
      refine SafeNow.stays (w := (detectOne (false, v) 0 (v.eventRec 0 0 0 false)).2) ?_ (stands_detectOne.trans stands_followUp)
      rw [detectOne, if_neg (by rw [idle]; exact Bool.false_ne_true), level]
      exact hardware_done
    | false =>
      rw [one]
      refine ⟨stands_raise, ?_⟩
      have event : (v.event 0 0 0 false []).2 = ((v.noteEvent 0 true (v.eventRec 0 0 0 false)).react 0 (v.eventRec 0 0 0 false) []).2 := rfl
      refine SafeNow.stays (w := (v.event 0 0 0 false []).2) ?_ (stands_followUp (x := v.event 0 0 0 false []))
      rw [event]
      exact hardware_done

/-! The sweep (R276). -/

theorem cfgWord_word (found : cfgWord i = some (typ, o)) : (typ = 2 ∨ typ = 6) ∧ o < 0x10000 := by
  unfold cfgWord at found
  split at found
  · obtain ⟨rfl, rfl⟩ := Prod.mk.inj (Option.some.inj found)
    exact ⟨.inl rfl, by omega⟩
  · split at found
    · obtain ⟨rfl, rfl⟩ := Prod.mk.inj (Option.some.inj found)
      exact ⟨.inl rfl, by omega⟩
    · split at found
      · obtain ⟨rfl, rfl⟩ := Prod.mk.inj (Option.some.inj found)
        exact ⟨.inr rfl, by omega⟩
      · cases found

/-- The word that differs is noted (R276). -/
def sweepNoted (w : W) (i : Nat) (all : Bool) : W :=
  w.upd fun d => { d with flue := { d.flue with mismatch := true, word := BitVec.ofNat 11 i, noMajority := d.flue.noMajority || all } }

/-- A word without a majority takes its reset value. -/
def sweepMended (w : W) (typ o : Nat) (all : Bool) : W := if all then w.setReg typ 0 o (w.regReset typ o) else w

theorem sweep_row {all : Bool} (found : cfgWord i = some (typ, o)) : exec (.cfgSweep (some (i, all))) s =
    .next (stateOf s (sweepTold s.dev.flue.reacting (s.world.active 0) (sweepMended (sweepNoted s.world i all) typ o all))) := by
  show execCfgSweep (some (i, all)) s = _
  unfold execCfgSweep run
  dsimp only
  rw [found]
  rfl

/-- The hold time of the error pin stays one where its word takes its reset value. -/
theorem pinTime_sweepMended {all : Bool} (word : (typ = 2 ∨ typ = 6) ∧ o < 0x10000) (time : fld (s.world.reg 2 0 0x30) 0 14 ≠ 0) :
    fld ((sweepMended (sweepNoted s.world i all) typ o all).reg 2 0 0x30) 0 14 ≠ 0 := by
  have noted : (sweepNoted s.world i all).reg 2 0 0x30 = s.world.reg 2 0 0x30 := reg_congr rfl rfl _ _ _ fun _ => rfl
  unfold sweepMended
  split
  · by_cases own : typ = 2 ∧ o = 0x30
    · obtain ⟨rfl, rfl⟩ := own
      rw [reg_setReg_self, show (sweepNoted s.world i all).regReset 2 0x30 = 0x10032 from rfl]
      decide
    · rw [reg_setReg_ne, noted]
      · exact time
      · obtain ⟨typ_, low⟩ := word
        rcases typ_ with rfl | rfl
        · rw [blockBase_two]
          omega
        · rw [blockBase_two, show blockBase 6 0 = 0x20050000 from rfl]
          omega
  · rw [noted]
    exact time

theorem sweep_finds {all : Bool} (found : cfgWord i = some (typ, o)) : Answers (.cfgSweep (some (i, all))) s fun t =>
    t.dev.flue.mismatch = true ∧ t.dev.flue.word = BitVec.ofNat 11 i ∧ t.dev.flue.noMajority = (s.dev.flue.noMajority || all) ∧
    (t.dev.src 0).active = true ∧ t.dev.flue.hwSafe = true ∧ (fld (s.world.reg 2 0 0x30) 0 14 ≠ 0 → t.dev.flue.errPin = true) ∧
    (∀ n, n < 64 → (t.dev.damper n).st = .forced ∨ (t.dev.damper n).st = .fault) ∧
    Beside s t fun d => if all then (s.world.setReg typ 0 o (s.world.regReset typ o)).dev else d := by
  refine ⟨_, sweep_row found, ?_⟩
  have word := cfgWord_word found
  have time := pinTime_sweepMended (s := s) (i := i) (all := all) word
  have flue : (sweepMended (sweepNoted s.world i all) typ o all).dev.flue = (sweepNoted s.world i all).dev.flue := by
    unfold sweepMended
    split <;> rfl
  have reset : (sweepNoted s.world i all).regReset typ o = s.world.regReset typ o := by
    rw [W.regReset, W.regReset, regRow_congr (w := s.world) (w' := sweepNoted s.world i all) rfl rfl]
  have beside : untouched (sweepMended (sweepNoted s.world i all) typ o all).dev =
      untouched (if all then (s.world.setReg typ 0 o (s.world.regReset typ o)).dev else s.dev) := by
    unfold sweepMended
    rw [reset]
    cases all <;> rfl
  have on : ((sweepMended (sweepNoted s.world i all) typ o all).dev.src 0).active = s.world.active 0 :=
    (congrArg (fun f : Flue => (f.srcs.getD 0 {}).active) flue).trans rfl
  obtain ⟨stands, hw, active, pin, grip⟩ := sweepTold_safe (hw := s.dev.flue.reacting) on
  have words := stands.flue.words.trans (congrArg (fun f : Flue => (f.mismatch, f.word, f.noMajority)) flue)
  obtain ⟨mismatch, word_, majority⟩ : _ ∧ _ ∧ _ := ⟨congrArg (·.1) words, congrArg (·.2.1) words, congrArg (·.2.2) words⟩
  exact ⟨mismatch, word_, majority, active, hw, fun goes => (pin (time goes)).1, grip, beside_of_kept stands.kept beside⟩

theorem sweep_ends : (s.world.active 0 = false ∨ s.dev.flue.noMajority = true → Answers (.cfgSweep none) s (Only s · id)) ∧
    (s.world.active 0 = true → s.dev.flue.noMajority = false → Answers (.cfgSweep none) s fun t =>
      ((t.dev.src 0).active = false ∧ t.mem = s.mem ∧ ∀ j, j ≠ 0 → t.dev.src j = s.dev.src j) ∧ Beside s t id) := by
  refine ⟨fun stays => ⟨_, next_of (if_neg ?_), rfl⟩, fun on major => ⟨_, next_of (if_pos ?_), inactive_ended rfl rfl, beside_of_kept kept_inactive rfl⟩⟩
  · rw [Bool.and_eq_true, Bool.not_eq_true']
    rcases stays with off | none_
    · exact fun x => Bool.false_ne_true (off.symm.trans x.1)
    · exact fun x => Bool.false_ne_true (x.2.symm.trans none_)
  · rw [Bool.and_eq_true, Bool.not_eq_true']
    exact ⟨on, major⟩

end Sys2Proof.Proofs
end

section
/-! O28: the ways out of SAFE and QUIET, the windows, the local holds and the error pin (R282 to R287). -/

namespace Sys2Proof.Proofs

open Machine Laws

set_option Elab.async false

variable {s : State} {w v x : W} {k n i : Nat}

/-! The ways out of SAFE and QUIET, and the windows. -/

/-- What the Flue waits for before the device leaves SAFE (R282). -/
def SafeOver (s : State) : Prop :=
  (∀ x ∈ s.dev.flue.tripSet, s.world.active x = false) ∧ s.dev.flue.driving = false ∧ s.dev.flue.unconf = [] ∧ s.dev.stoker.restarting = false ∧
    ∀ n, n < 64 → (s.dev.damper n).st = .fault → (s.dev.damper n).cause ≠ 0 ∧ (s.dev.damper n).cause ≠ 1

theorem safeDone_iff : s.world.safeDone = true ↔ SafeOver s := by
  unfold W.safeDone SafeOver W.anyActive Flue.reacting
  simp only [Bool.and_eq_true, Bool.not_eq_true', List.any_eq_false, Bool.not_eq_true, List.all_eq_true, List.mem_range, Bool.or_eq_false_iff,
    Bool.and_eq_false_iff, Bool.or_eq_false_iff, beq_eq_false_iff_ne, List.isEmpty_iff, Bool.not_eq_false', and_assoc, ne_eq, Decidable.imp_iff_not_or]
  rfl

theorem safeExit_row : exec .safeExit s = .next (stateOf s (if s.dev.sys.mode = .safe ∧ s.world.safeDone then
    if fld (s.world.reg 2 0 0x28) 0 4 ≤ s.dev.flue.window.length then s.world.setMode .lockout else s.world.setMode .quiet else s.world)) := rfl

theorem safeExit_ends : (¬ (s.dev.sys.mode = .safe ∧ SafeOver s) → Answers .safeExit s (Only s · id)) ∧
    (s.dev.sys.mode = .safe → SafeOver s → Answers .safeExit s (Leaves s · fun w =>
      w.setMode (if fld (w.reg 2 0 0x28) 0 4 ≤ s.dev.flue.window.length then .lockout else .quiet))) := by
  refine ⟨fun stays => ⟨_, safeExit_row.trans (next_of (if_neg ?_)), rfl⟩, fun safe done => ⟨_, safeExit_row.trans (next_of (if_pos ?_)), ?_⟩⟩
  · rw [safeDone_iff]
    exact stays
  · rw [safeDone_iff]
    exact ⟨safe, done⟩
  · exact congrArg (stateOf s) (apply_ite s.world.setMode _ _ _).symm

/-! The holds of a hearth that end (R286). -/

theorem get?_erase {α : Type} {t : Tbl α} : (t.erase k).get? n = if n = k then none else t.get? n := by
  split
  · next own => 
    subst own
    unfold Tbl.erase Tbl.keep Tbl.get?
    rw [List.find?_eq_none.mpr]
    · rfl
    · intro r mem
      have other := (List.mem_filter.mp mem).2
      simpa using other
  · next ne => exact get?_keep (bne_iff_ne.mpr ne)

/-- Changes of the channels one by one are one change of the channels. -/
theorem each_dampers {l : List Nat} {f : Nat → W → W} (one : ∀ n w, ∃ t, f n w = w.upd fun d => { d with dampers := t }) :
    ∃ t, w.each l f = w.upd fun d => { d with dampers := t } := by
  induction l generalizing w with
  | nil => exact ⟨_, rfl⟩
  | cons n l ih =>
    obtain ⟨t, first⟩ := one n w
    obtain ⟨t', rest⟩ := ih (w := f n w)
    refine ⟨t', rest.trans ?_⟩
    rw [first]
    rfl

/-- What the release of channels leaves. -/
theorem releaseChs_rest : ∃ t, w.releaseChs = w.upd fun d => { d with dampers := t } := by
  refine each_dampers fun n w => ?_
  by_cases goes : (w.dev.damper n).st = .forced ∧ w.forcedBy n = false
  · exact ⟨_, if_pos goes⟩
  · exact ⟨_, if_neg goes⟩

/-- What the release of a hearth's hold leaves of the Flue and the time. -/
theorem releaseHold_flue : (w.releaseHold k).dev.flue.holds = w.dev.flue.holds.erase k ∧
    (w.releaseHold k).dev.flue.localWin = w.dev.flue.localWin.set k (((w.dev.flue.localWin.getD k []) ++ [w.dev.clock.ivl]).reverse.take 15).reverse ∧
    (w.releaseHold k).dev.flue.sels = w.dev.flue.sels ∧ (w.releaseHold k).dev.clock = w.dev.clock := by
  unfold W.releaseHold W.localRecovery
  obtain ⟨t, eq⟩ := releaseChs_rest (w := (w.upd fun d => { d with flue := { d.flue with holds := d.flue.holds.erase k } }).upd fun d => { d with flue := { d.flue with
    localWin := d.flue.localWin.set k (((d.flue.localWin.getD k []) ++ [d.clock.ivl]).reverse.take 15).reverse } })
  rw [eq]
  exact ⟨rfl, rfl, rfl, rfl⟩

theorem releaseSel_flue : (w.releaseSel k).dev.flue.sels = w.dev.flue.sels.erase k ∧ (w.releaseSel k).dev.flue.holds = w.dev.flue.holds ∧
    (w.releaseSel k).dev.flue.localWin = w.dev.flue.localWin ∧ (w.releaseSel k).dev.clock = w.dev.clock := by
  unfold W.releaseSel
  obtain ⟨t, eq⟩ := releaseChs_rest (w := w.upd fun d => { d with flue := { d.flue with sels := d.flue.sels.erase k } })
  rw [eq]
  exact ⟨rfl, rfl, rfl, rfl⟩

theorem each_cons {α : Type} {a : α} {l : List α} {f : α → W → W} : w.each (a :: l) f = (f a w).each l f := rfl

theorem releaseSels_flue {l : List (Nat × Hold)} : (w.each l fun r w => w.releaseSel r.1).dev.flue.holds = w.dev.flue.holds ∧
    (w.each l fun r w => w.releaseSel r.1).dev.flue.localWin = w.dev.flue.localWin ∧
    (w.each l fun r w => w.releaseSel r.1).dev.clock = w.dev.clock ∧
    ∀ j, (w.each l fun r w => w.releaseSel r.1).dev.flue.sels.get? j = if ∃ r ∈ l, r.1 = j then none else w.dev.flue.sels.get? j := by
  induction l generalizing w with
  | nil =>
    refine ⟨rfl, rfl, rfl, fun j => ?_⟩
    rw [if_neg fun x => by obtain ⟨r, mem, -⟩ := x; cases mem]
    rfl
  | cons r l ih =>
    obtain ⟨erased, holds', windows', clock⟩ := releaseSel_flue (w := w) (k := r.1)
    obtain ⟨holds, windows, time, sels⟩ := ih (w := w.releaseSel r.1)
    rw [each_cons]
    refine ⟨holds.trans holds', windows.trans windows', time.trans clock, fun j => (sels j).trans ?_⟩
    rw [erased]
    by_cases later : ∃ q ∈ l, q.1 = j
    · obtain ⟨q, mem, own⟩ := later
      rw [if_pos ⟨q, mem, own⟩, if_pos ⟨q, .tail _ mem, own⟩]
    · rw [if_neg later, get?_erase]
      by_cases own : j = r.1
      · rw [if_pos own, if_pos ⟨r, .head _, own.symm⟩]
      · rw [if_neg own, if_neg]
        rintro ⟨q, mem, at_⟩
        rcases List.mem_cons.mp mem with rfl | mem
        · exact own at_.symm
        · exact later ⟨q, mem, at_⟩

/-- The least of a list that is one of its members. -/
theorem foldl_min_eq {l : List Nat} {a m : Nat} (mem : m ∈ a :: l) (least : ∀ y ∈ a :: l, m ≤ y) : l.foldl min a = m := by
  induction l generalizing a with
  | nil => exact (List.mem_singleton.mp mem).symm
  | cons b l ih =>
    refine ih ?_ fun y mem' => ?_
    · rcases List.mem_cons.mp mem with rfl | mem
      · rw [Nat.min_eq_left (least b (.tail _ (.head _)))]
        exact .head _
      · rcases List.mem_cons.mp mem with rfl | mem
        · rw [Nat.min_eq_right (least a (.head _))]
          exact .head _
        · exact .tail _ mem
    · rcases List.mem_cons.mp mem' with rfl | later
      · exact Nat.le_min.mpr ⟨least a (.head _), least b (.tail _ (.head _))⟩
      · exact least y (.tail _ (.tail _ later))

/-! The quiet time of a hearth (R286). -/

/-- A hold may end: it is not latched, and none of its sources is active. -/
def HoldFree (s : State) (x : Hold) : Prop := x.latched = false ∧ ∀ j ∈ x.srcs, s.world.active j = false

theorem holdFree_iff {x : Hold} : (!x.latched && !s.world.anyActive x.srcs) = true ↔ HoldFree s x := by
  unfold HoldFree W.anyActive
  simp only [Bool.and_eq_true, Bool.not_eq_true', List.any_eq_false, Bool.not_eq_true]

/-- When the quiet time of a hold is over. -/
def quietEnd (ms : Nat) (x : Hold) : Nat := x.last.toNat + 1000000 * ms

/-- The hold of the hearth that may end. -/
def freeHold (s : State) (h : Nat) : Option Hold := (s.dev.flue.holds.get? h).filter fun x => !x.latched && !s.world.anyActive x.srcs

/-- The selections of the hearth that may end. -/
def freeSels (s : State) (h : Nat) : List (Nat × Hold) :=
  s.dev.flue.sels.rows.filter fun r => r.1 / 16 == h && (!r.2.latched && !s.world.anyActive r.2.srcs)

theorem mem_freeHold {h : Nat} {x : Hold} : freeHold s h = some x ↔ s.dev.flue.holds.get? h = some x ∧ HoldFree s x := by
  unfold freeHold
  rw [Option.filter_eq_some_iff, holdFree_iff]

theorem mem_freeSels {h : Nat} {r : Nat × Hold} : r ∈ freeSels s h ↔ r ∈ s.dev.flue.sels.rows ∧ r.1 / 16 = h ∧ HoldFree s r.2 := by
  unfold freeSels
  rw [List.mem_filter, Bool.and_eq_true, holdFree_iff, beq_iff_eq]

/-- The holds of hearth `h` that may end. -/
def HoldMine (s : State) (h : Nat) (x : Hold) : Prop :=
  HoldFree s x ∧ (s.dev.flue.holds.get? h = some x ∨ ∃ r ∈ s.dev.flue.sels.rows, r.1 / 16 = h ∧ r.2 = x)

/-- When the holds of hearth `h` may end. -/
def quietEnds (s : State) (h ms : Nat) : List Nat := ((freeHold s h).toList ++ (freeSels s h).map (·.2)).map (quietEnd ms)

theorem mem_mine {h : Nat} {x : Hold} : x ∈ (freeHold s h).toList ++ (freeSels s h).map (·.2) ↔ HoldMine s h x := by
  rw [List.mem_append, Option.mem_toList, mem_freeHold, List.mem_map, HoldMine]
  constructor
  · rintro (⟨found, free⟩ | ⟨r, mem, rfl⟩)
    · exact ⟨free, .inl found⟩
    · obtain ⟨row, own, free⟩ := mem_freeSels.mp mem
      exact ⟨free, .inr ⟨r, row, own, rfl⟩⟩
  · rintro ⟨free, found | ⟨r, row, own, rfl⟩⟩
    · exact .inl ⟨found, free⟩
    · exact .inr ⟨r, mem_freeSels.mpr ⟨row, own, free⟩, rfl⟩

/-- The quiet time of the hearth is over at `n`. -/
def quietReached (s : State) (n : Nat) : W := s.world.upd fun d => d.advanceIvl n

/-- What the end of the quiet time releases. -/
def quietReleased (s : State) (h ms : Nat) (w : W) : W :=
  let due := fun (x : Hold) => decide (x.last.toNat + 1000000 * ms ≤ w.dev.now)
  let v := if (freeHold s h).any due then w.releaseHold h else w
  v.each ((freeSels s h).filter fun r => due r.2) fun r w => w.releaseSel r.1

theorem localQuiet_row {h : HearthId} : exec (.localQuietExpiry h) s = .next (stateOf s (
    if fld (s.world.reg 2 0 0x2C) 0 20 = 0 then s.world
    else match quietEnds s h (fld (s.world.reg 2 0 0x2C) 0 20) with
      | [] => s.world
      | t :: ts => quietReleased s h (fld (s.world.reg 2 0 0x2C) 0 20) (quietReached s (ts.foldl min t)))) := rfl

theorem quietEnds_nil {h ms : Nat} (none_ : ∀ x, ¬ HoldMine s h x) : quietEnds s h ms = [] := by
  unfold quietEnds
  rw [List.map_eq_nil_iff, List.eq_nil_iff_forall_not_mem]
  exact fun x mem => none_ x (mem_mine.mp mem)

/-- The least quiet time of the hearth's holds is the one that ends. -/
theorem quietEnds_least {h ms : Nat} {x : Hold} (mine : HoldMine s h x) (least : ∀ y, HoldMine s h y → quietEnd ms x ≤ quietEnd ms y) :
    ∃ t ts, quietEnds s h ms = t :: ts ∧ ts.foldl min t = quietEnd ms x := by
  have mem : quietEnd ms x ∈ quietEnds s h ms := List.mem_map.mpr ⟨x, mem_mine.mpr mine, rfl⟩
  have all_ : ∀ m ∈ quietEnds s h ms, quietEnd ms x ≤ m := by
    intro m mem
    obtain ⟨y, own, rfl⟩ := List.mem_map.mp mem
    exact least y (mem_mine.mp own)
  cases ends : quietEnds s h ms with
  | nil => rw [ends] at mem; cases mem
  | cons t ts =>
    rw [ends] at mem all_
    exact ⟨t, ts, rfl, foldl_min_eq mem all_⟩

/-- A key that stands in one row alone gives that row. -/
theorem get?_of_row {α : Type} {t : Tbl α} {r : Nat × α} (once : (t.rows.map (·.1)).Nodup) (mem : r ∈ t.rows) : t.get? r.1 = some r.2 := by
  obtain ⟨rows⟩ := t
  change r ∈ rows at mem
  change (rows.map (·.1)).Nodup at once
  show (rows.find? fun q => q.1 == r.1).map (·.2) = some r.2
  induction rows with
  | nil => cases mem
  | cons q rows ih =>
    rw [List.map_cons, List.nodup_cons] at once
    obtain ⟨apart, rest⟩ := once
    rcases List.mem_cons.mp mem with rfl | later
    · rw [List.find?_cons, beq_self_eq_true]
      rfl
    · have ne : q.1 ≠ r.1 := fun e => apart (List.mem_map.mpr ⟨r, later, e.symm⟩)
      rw [List.find?_cons_of_neg (by simpa using ne)]
      exact ih later rest

theorem row_of_get? {α : Type} {t : Tbl α} {j : Nat} {y : α} (found : t.get? j = some y) : ∃ r ∈ t.rows, r.1 = j ∧ r.2 = y := by
  unfold Tbl.get? at found
  obtain ⟨r, at_, own⟩ := Option.map_eq_some_iff.mp found
  exact ⟨r, List.mem_of_find?_eq_some at_, by simpa using List.find?_some at_, own⟩

/-- What the end of a quiet time leaves of the holds and the selections. -/
theorem quietReleased_leaves {h ms : Nat} {w : W} (flue : w.dev.flue = s.dev.flue) (once : (s.dev.flue.sels.rows.map (·.1)).Nodup) :
    let v := quietReleased s h ms w
    let due := fun (y : Hold) => HoldFree s y ∧ quietEnd ms y ≤ w.dev.clock.ivl.toNat
    v.dev.clock = w.dev.clock ∧
    (∀ y, s.dev.flue.holds.get? h = some y → due y → v.dev.flue.holds.get? h = none ∧
      v.dev.flue.localWin = s.dev.flue.localWin.set h (((s.dev.flue.localWin.getD h []) ++ [w.dev.clock.ivl]).reverse.take 15).reverse) ∧
    (∀ y, s.dev.flue.holds.get? h = some y → ¬ due y → v.dev.flue.holds = s.dev.flue.holds ∧ v.dev.flue.localWin = s.dev.flue.localWin) ∧
    (∀ j y, s.dev.flue.sels.get? j = some y → j / 16 = h → due y → v.dev.flue.sels.get? j = none) ∧
    (∀ j y, s.dev.flue.sels.get? j = some y → j / 16 ≠ h ∨ ¬ due y → v.dev.flue.sels.get? j = some y) := by
  intro v due
  have held : (freeHold s h).any (fun x => decide (x.last.toNat + 1000000 * ms ≤ w.dev.now)) = true ↔ ∃ y, s.dev.flue.holds.get? h = some y ∧ due y := by
    constructor
    · intro on
      obtain ⟨y, free, late⟩ := (Option.any_eq_true _ _).mp on
      obtain ⟨found, free⟩ := mem_freeHold.mp free
      exact ⟨y, found, free, of_decide_eq_true late⟩
    · rintro ⟨y, found, free, late⟩
      exact (Option.any_eq_true _ _).mpr ⟨y, mem_freeHold.mpr ⟨found, free⟩, decide_eq_true late⟩
  have picked (j : Nat) : (∃ r ∈ (freeSels s h).filter (fun r => decide (r.2.last.toNat + 1000000 * ms ≤ w.dev.now)), r.1 = j) ↔
      ∃ y, s.dev.flue.sels.get? j = some y ∧ j / 16 = h ∧ due y := by
    constructor
    · rintro ⟨r, mem, rfl⟩
      obtain ⟨mem, late⟩ := List.mem_filter.mp mem
      obtain ⟨row, own, free⟩ := mem_freeSels.mp mem
      exact ⟨r.2, get?_of_row once row, own, free, of_decide_eq_true late⟩
    · rintro ⟨y, found, own, free, late⟩
      obtain ⟨r, row, rfl, rfl⟩ := row_of_get? found
      exact ⟨r, List.mem_filter.mpr ⟨mem_freeSels.mpr ⟨row, own, free⟩, decide_eq_true late⟩, rfl⟩
  have released : v = (if (freeHold s h).any (fun x => decide (x.last.toNat + 1000000 * ms ≤ w.dev.now)) = true then w.releaseHold h else w).each
      ((freeSels s h).filter fun r => decide (r.2.last.toNat + 1000000 * ms ≤ w.dev.now)) fun r w => w.releaseSel r.1 := rfl
  clear_value v
  obtain ⟨holds, windows, clock, sels⟩ := releaseSels_flue
    (w := if (freeHold s h).any (fun x => decide (x.last.toNat + 1000000 * ms ≤ w.dev.now)) = true then w.releaseHold h else w)
    (l := (freeSels s h).filter fun r => decide (r.2.last.toNat + 1000000 * ms ≤ w.dev.now))
  rw [← released] at holds windows clock sels
  obtain ⟨gone, window, same, time⟩ := releaseHold_flue (w := w) (k := h)
  have kept : (if (freeHold s h).any (fun x => decide (x.last.toNat + 1000000 * ms ≤ w.dev.now)) = true then w.releaseHold h else w).dev.flue.sels =
      s.dev.flue.sels := by
    rw [← flue]
    split
    · exact same
    · rfl
  rw [kept] at sels
  refine ⟨clock.trans ?_, fun y found late => ?_, fun y found early => ?_, fun j y found own late => ?_, fun j y found away => ?_⟩
  · split
    · exact time
    · rfl
  · have on := held.mpr ⟨y, found, late⟩
    rw [if_pos on] at holds windows
    refine ⟨(congrArg (fun t : Tbl Hold => t.get? h) (holds.trans gone)).trans ?_,
      (windows.trans window).trans (by rw [flue])⟩
    rw [get?_erase, if_pos rfl]
  · have off : ¬ _ := fun on => by
      obtain ⟨y', found', late⟩ := held.mp on
      exact early ((Option.some.inj (found'.symm.trans found)) ▸ late)
    rw [if_neg off, flue] at holds windows
    exact ⟨holds, windows⟩
  · exact (sels j).trans (if_pos ((picked j).mpr ⟨y, found, own, late⟩))
  · refine (sels j).trans ((if_neg ?_).trans found)
    intro goes
    obtain ⟨y', found', own, late⟩ := (picked j).mp goes
    obtain rfl := Option.some.inj (found'.symm.trans found)
    exact away.elim (fun ne => ne own) fun early => early late

end Sys2Proof.Proofs
end

section
/-! O28: the error pin, and the ends of the Flue together (R282 to R287). -/

namespace Sys2Proof.Proofs

open Machine Laws

set_option Elab.async false

variable {s : State} {w v x : W} {k n i : Nat}

/-- The hold time of the pin is over. -/
def pinHeld (s : State) : W := quietReached s s.world.errEnd

theorem reached_beside : untouched (quietReached s n).dev = untouched (s.dev.advanceIvl n) ∧
    (quietReached s n).dev.clock = (s.dev.advanceIvl n).clock ∧ (quietReached s n).dev.flue = s.world.dev.flue ∧ (quietReached s n).ops = [] ∧
    (quietReached s n).dev.sys = s.dev.sys := ⟨rfl, rfl, rfl, rfl, rfl⟩

theorem errpin_row (on : s.dev.flue.errPin = true) : exec .errpinHoldExpiry s =
    .next (stateOf s (if (s.dev.flue.errRel && !(pinHeld s).errSource) = true then (pinHeld s).errRelease else (pinHeld s).errAuto)) := by
  show execErrpinHoldExpiry s = _
  unfold execErrpinHoldExpiry run
  dsimp only
  rw [if_pos (show s.world.dev.flue.errPin = true from on)]
  rfl

theorem pin_finishAll {o key st : Nat} {r : List Byte} : (w.finishAll o key st r).dev.flue.errPin = w.dev.flue.errPin :=
  congrArg (fun x => x.2.2.1.errPin) (below_iff.mp (below_finishAll w o key st r)).1

theorem pin_errRelease : w.errRelease.dev.flue.errPin = false := pin_finishAll

theorem ops_errRelease : w.errRelease.ops = w.ops := ops_finishAll

/-- The modes in which the pin is released by itself. -/
theorem releases_iff {m : Mode} : (!(m == .off || m == .hold || m == .kindle || m == .safe || m == .quiet || m == .lockout)) =
    !decide (m ∈ ([.off, .hold, .kindle, .safe, .quiet, .lockout] : List Mode)) := by
  cases m <;> rfl

theorem errAuto_pin (late : w.errEnd ≤ w.dev.now) (on : w.dev.flue.errPin = true) :
    w.errAuto.dev.flue.errPin = (w.errSource || !(bitAt (w.reg 2 0 0x30) 16) ||
      decide (w.dev.sys.mode ∈ ([.off, .hold, .kindle, .safe, .quiet, .lockout] : List Mode))) := by
  unfold W.errAuto
  dsimp only
  rw [releases_iff, on, decide_eq_true late]
  cases w.errSource <;> cases bitAt (w.reg 2 0 0x30) 16 <;> cases decide (w.dev.sys.mode ∈ ([.off, .hold, .kindle, .safe, .quiet, .lockout] : List Mode))
  case false.true.false => exact pin_errRelease
  all_goals exact on

theorem srcCfg_congr (fuse : w.fuse = v.fuse) (chim : w.dev.chim = v.dev.chim) (regs : w.dev.regs = v.dev.regs) : w.srcCfg n = v.srcCfg n :=
  reg_congr fuse chim _ _ _ fun _ => by rw [regs]

theorem errpin_ends (on : s.dev.flue.errPin = true) : Answers .errpinHoldExpiry s fun t =>
    ReachesIvl s t s.world.errEnd ∧ t.mem = s.mem ∧ Beside s t (fun d => d.advanceIvl s.world.errEnd) ∧
    (s.world.errEnd ≤ t.dev.clock.ivl.toNat →
      t.dev.flue.errPin = (s.world.errSource || !s.dev.flue.errRel && (!bitAt (s.world.reg 2 0 0x30) 16 ||
        s.dev.sys.mode ∈ ([.off, .hold, .kindle, .safe, .quiet, .lockout] : List Mode)))) := by
  refine ⟨_, errpin_row on, ?_⟩
  obtain ⟨beside, clock, flue, none_, sys⟩ := reached_beside (s := s) (n := s.world.errEnd)
  have reg : (pinHeld s).reg 2 0 0x30 = s.world.reg 2 0 0x30 := reg_congr rfl rfl _ _ _ fun _ => rfl
  have end_ : (pinHeld s).errEnd = s.world.errEnd := by
    rw [W.errEnd, W.errEnd, reg, show (pinHeld s).dev.flue = s.world.dev.flue from flue]
  have source : (pinHeld s).errSource = s.world.errSource := by
    have mask (n : Nat) : (pinHeld s).mask n = s.world.mask n := by
      rw [W.mask, W.mask, srcCfg_congr (v := s.world) (w := pinHeld s) rfl rfl rfl]
    unfold W.errSource
    simp only [mask]
    rw [show (pinHeld s).dev.flue = s.world.dev.flue from flue]
  rw [source]
  split
  · next rel =>
    rw [Bool.and_eq_true, Bool.not_eq_true'] at rel
    have time : (pinHeld s).errRelease.dev.clock = (pinHeld s).dev.clock := congrArg (fun d => d.clock) (steady_errRelease (pinHeld s)).kept.1
    refine ⟨time.trans clock, congrArg (fun l => s.mem.applyAll l) (ops_errRelease.trans none_),
      beside_of_kept (steady_errRelease (pinHeld s)).kept beside, fun _ => pin_errRelease.trans ?_⟩
    rw [rel.1, rel.2]
    rfl
  · next stays =>
    have time : ((pinHeld s).errAuto).dev.clock = (pinHeld s).dev.clock := congrArg (fun d => d.clock) (steady_errAuto (pinHeld s)).kept.1
    refine ⟨time.trans clock, congrArg (fun l => s.mem.applyAll l) (ops_errAuto.trans none_), beside_of_kept (steady_errAuto (pinHeld s)).kept beside,
      fun late => ?_⟩
    rw [stateOf_dev, time] at late
    refine (errAuto_pin (w := pinHeld s) (end_.symm ▸ late) ((congrArg (fun f => f.errPin) flue).trans on)).trans ?_
    rw [source, reg, show (pinHeld s).dev.sys = s.dev.sys from sys]
    rw [Bool.and_eq_true, Bool.not_eq_true', not_and, Bool.not_eq_false] at stays
    cases rel : s.dev.flue.errRel
    · simp [Bool.or_assoc]
    · rw [stays rel]
      rfl

/-- The quiet time of the hearth's holds ends (R286). -/
theorem localQuiet_ends {h : HearthId} {x : Hold} (on : fld (s.world.reg 2 0 0x2C) 0 20 ≠ 0) (mine : HoldMine s h x)
    (least : ∀ y, HoldMine s h y → quietEnd (fld (s.world.reg 2 0 0x2C) 0 20) x ≤ quietEnd (fld (s.world.reg 2 0 0x2C) 0 20) y)
    (once : (s.dev.flue.sels.rows.map (·.1)).Nodup) : Answers (.localQuietExpiry h) s fun t =>
      let due := fun (y : Hold) => HoldFree s y ∧ quietEnd (fld (s.world.reg 2 0 0x2C) 0 20) y ≤ t.dev.clock.ivl.toNat
      ReachesIvl s t (quietEnd (fld (s.world.reg 2 0 0x2C) 0 20) x) ∧
      (∀ y, s.dev.flue.holds.get? h = some y → due y → t.dev.flue.holds.get? h = none ∧
        t.dev.flue.localWin = s.dev.flue.localWin.set h (((s.dev.flue.localWin.getD h []) ++ [t.dev.clock.ivl]).reverse.take 15).reverse) ∧
      (∀ y, s.dev.flue.holds.get? h = some y → ¬ due y → t.dev.flue.holds = s.dev.flue.holds ∧ t.dev.flue.localWin = s.dev.flue.localWin) ∧
      (∀ j y, s.dev.flue.sels.get? j = some y → j / 16 = h.val → due y → t.dev.flue.sels.get? j = none) ∧
      (∀ j y, s.dev.flue.sels.get? j = some y → j / 16 ≠ h.val ∨ ¬ due y → t.dev.flue.sels.get? j = some y) := by
  have row := localQuiet_row (s := s) (h := h)
  generalize fld (s.world.reg 2 0 0x2C) 0 20 = ms at on least row
  obtain ⟨t, ts, ends, min_⟩ := quietEnds_least mine least
  rw [if_neg on, ends] at row
  obtain ⟨-, reached, flue, -, -⟩ := reached_beside (s := s) (n := quietEnd ms x)
  obtain ⟨clock, leaves⟩ := quietReleased_leaves (s := s) (h := h) (ms := ms) (w := quietReached s (quietEnd ms x)) flue once
  have row' : exec (.localQuietExpiry h) s = .next (stateOf s (quietReleased s h ms (quietReached s (quietEnd ms x)))) := min_ ▸ row
  generalize quietReleased s h ms (quietReached s (quietEnd ms x)) = v at row' clock leaves
  rw [← clock] at leaves
  exact ⟨_, row', clock.trans reached, leaves⟩

/-- Settles O28: each end of a condition or of a time at the Flue by its own lemma. -/
theorem flueEnds : Obligations.FlueEnds := by
  intro s src h d f w k still ended
  refine ⟨levelInactive_still, fun own ext idle lost => levelInactive_reference own ext idle lost, fun own on high => levelInactive_operator own on high,
    fun x own on high => levelInactive_released own on high, fun ext on other => levelInactive_ends ext on other, reaction_ends, sweep_ends.1, sweep_ends.2,
    fun i all none_ => ?_, fun i all typ o found => sweep_finds found, ⟨safeExit_ends.1, safeExit_ends.2⟩, ?_, ?_, ?_, ?_, ⟨fun stays => ?_, fun x on mine least once => ?_⟩,
    fun off => ⟨_, next_of (if_neg ?_), rfl⟩, errpin_ends⟩
  · refine ⟨stateOf s s.world, ?_, rfl⟩
    show execCfgSweep (some (i, all)) s = _
    unfold execCfgSweep run
    dsimp only
    rw [none_]
    rfl
  · split
    · next locked => exact ⟨_, next_of (if_pos locked), rfl⟩
    · next away => exact ⟨_, next_of (if_neg away), rfl⟩
  · split
    · next quiet =>
      refine ⟨_, next_of (if_pos quiet), ?_⟩
      exact congrArg (stateOf s) (apply_ite _ _ _ _).symm
    · next away => exact ⟨_, next_of (if_neg away), rfl⟩
  · cases window : f.window with
    | nil =>
      have stays : (match s.world.dev.flue.window with
          | [] => s.world
          | t :: r => s.world.upd fun d => { (d.advanceIvl (t.toNat + dayNs)) with flue := { d.flue with window := r } }) = s.world := by
        rw [show s.world.dev.flue.window = [] from window]
      exact ⟨_, next_of stays, rfl⟩
    | cons x r =>
      have ends : (match s.world.dev.flue.window with
          | [] => s.world
          | t :: r => s.world.upd fun d => { (d.advanceIvl (t.toNat + dayNs)) with flue := { d.flue with window := r } }) =
          s.world.upd fun d => { (d.advanceIvl (x.toNat + dayNs)) with flue := { d.flue with window := r } } := by
        rw [show s.world.dev.flue.window = x :: r from window]
      exact ⟨_, next_of ends, rfl⟩
  · cases window : f.localWin.getD h [] with
    | nil =>
      have stays : (match s.world.dev.flue.localWin.getD h [] with
          | [] => s.world
          | t :: r => s.world.upd fun d => { (d.advanceIvl (t.toNat + dayNs)) with flue := { d.flue with localWin := d.flue.localWin.set h r } }) = s.world := by
        rw [show s.world.dev.flue.localWin.getD h [] = [] from window]
      exact ⟨_, next_of stays, rfl⟩
    | cons x r =>
      have ends : (match s.world.dev.flue.localWin.getD h [] with
          | [] => s.world
          | t :: r => s.world.upd fun d => { (d.advanceIvl (t.toNat + dayNs)) with flue := { d.flue with localWin := d.flue.localWin.set h r } }) =
          s.world.upd fun d => { (d.advanceIvl (x.toNat + dayNs)) with flue := { d.flue with localWin := d.flue.localWin.set h r } } := by
        rw [show s.world.dev.flue.localWin.getD h [] = x :: r from window]
      exact ⟨_, next_of ends, rfl⟩
  · have row := localQuiet_row (s := s) (h := h)
    rcases stays with zero | none_
    · rw [if_pos zero] at row
      exact ⟨_, row, rfl⟩
    · rw [quietEnds_nil none_] at row
      exact ⟨_, row.trans (next_of (ite_self _)), rfl⟩
  · exact localQuiet_ends on mine least once
  · exact Bool.eq_false_iff.mp off

end Sys2Proof.Proofs
end

section
/-! O53: in the clause of the suspension limit the bound of the core's number guards the left side of the equivalence alone. -/

namespace Sys2Proof.Proofs

open Machine Laws

set_option Elab.async false

/-- The watchdog of core 0 is suspended. -/
def suspendedOne : State :=
  { State.reset with dev := State.reset.dev.onWdt 0 fun x => { x with susp := true } }

theorem suspendedOne_first : suspendedOne.world.suspFirst = some 0 := by decide +kernel

theorem suspendedOne_beyond : (suspendedOne.dev.wdt 65).susp = false := by decide +kernel

/-- Refutes O53: read as it is written, the clause of the suspension limit asks every watchdog beyond the 65 to be suspended, and
none is. -/
theorem not_watchdogs : ¬ Obligations.Watchdogs := by
  intro holds
  obtain ⟨-, instants⟩ := holds
  obtain ⟨-, -, -, limit, -⟩ := instants suspendedOne 0
  obtain ⟨t, -, -, -, all⟩ := limit 0 suspendedOne_first
  have beyond := ((all 65).mp fun low => absurd low (by decide)).1
  exact Bool.false_ne_true (suspendedOne_beyond.symm.trans beyond)

end Sys2Proof.Proofs
end

section
/-! O27: the intake, the event ring and the spill ring (R290 to R292). -/

namespace Sys2Proof.Proofs

open Machine Laws

set_option Elab.async false

variable {s : State} {w v : W} {k n ptr : Nat}

/-- `k` is the next of the numbers with `p` after `ptr`, wrapping. -/
def TurnOf (ptr k : Nat) (p : Nat → Prop) : Prop :=
  p k ∧ (ptr < k → ∀ j, p j → ptr < j → k ≤ j) ∧ (k ≤ ptr → ∀ j, p j → j ≤ ptr ∧ k ≤ j)

theorem roundRobin_turn {xs : List Nat} {p : Nat → Prop} (rises : xs.Pairwise (· < ·)) (cand : ∀ j, j ∈ xs ↔ p j)
    (turn : TurnOf ptr k p) : roundRobin ptr xs = some k := by
  obtain ⟨own, after, wraps⟩ := turn
  obtain ⟨before, behind, rfl⟩ := List.append_of_mem ((cand k).mpr own)
  obtain ⟨-, -, below⟩ := List.pairwise_append.mp rises
  have less (j : Nat) (mem : j ∈ before) : j < k := below j mem k List.mem_cons_self
  have is (j : Nat) (mem : j ∈ before) : p j := (cand j).mp (List.mem_append_left _ mem)
  unfold roundRobin
  by_cases later : ptr < k
  · rw [List.find?_eq_some_iff_append.mpr ⟨by simpa using later, before, behind, rfl, fun j mem => ?_⟩]
    have earlier : ¬ ptr < j := fun past => absurd (after later j (is j mem) past) (Nat.not_le.mpr (less j mem))
    simpa using earlier
  · have all := wraps (Nat.not_lt.mp later)
    rw [List.find?_eq_none.mpr fun j mem => by simpa using (all j ((cand j).mp mem)).1]
    cases before with
    | nil => rfl
    | cons j before => exact absurd (all j (is j List.mem_cons_self)).2 (Nat.not_le.mpr (less j List.mem_cons_self))

/-- The sources of `w` that hold events, in the order of their rows. -/
def waitingSrcs (w : W) : List Nat := (w.dev.flue.srcs.rows.filter (fun r => r.2.count != 0)).map (·.1)

theorem mem_waitingSrcs (once : (w.dev.flue.srcs.rows.map (·.1)).Nodup) : k ∈ waitingSrcs w ↔ (w.dev.src k).count ≠ 0 := by
  unfold waitingSrcs Dev.src Tbl.getD
  rw [List.mem_map]
  constructor
  · rintro ⟨r, mem, rfl⟩
    obtain ⟨row, holds⟩ := List.mem_filter.mp mem
    rw [get?_of_row once row]
    exact bne_iff_ne.mp holds
  · intro holds
    cases found : w.dev.flue.srcs.get? k with
    | none =>
      rw [found] at holds
      exact absurd rfl holds
    | some y =>
      rw [found] at holds
      obtain ⟨r, mem, rfl, rfl⟩ := row_of_get? found
      exact ⟨r, List.mem_filter.mpr ⟨mem, bne_iff_ne.mpr holds⟩, rfl⟩

theorem rises_waitingSrcs (rises : (w.dev.flue.srcs.rows.map (·.1)).Pairwise (· < ·)) : (waitingSrcs w).Pairwise (· < ·) :=
  rises.sublist (List.filter_sublist.map _)

/-- Source `k` is taken into the FIFO. -/
def intakeOf (w : W) (k : Nat) : W :=
  let r := (w.dev.src k).record
  let w := if 2 ≤ w.sev k then w else w.history r
  w.upd fun d =>
    let f := d.flue
    ({ d with flue := { f with fifo := f.fifo ++ [r], countRecs := if r.typ = 1 then satInc f.countRecs else f.countRecs,
                               ptrTrip := if 2 ≤ w.sev k then k else f.ptrTrip,
                               ptrNote := if 2 ≤ w.sev k then f.ptrNote else k } }).onSrc k fun x => { x with count := 0 }

/-- The TRIP source that the intake takes next. -/
def tripNext (w : W) : Option Nat :=
  if w.dev.flue.fifo.length < 64 then roundRobin w.dev.flue.ptrTrip ((waitingSrcs w).filter fun k => 2 ≤ w.sev k) else none

/-- The other source that the intake takes next. -/
def noteNext (w : W) : Option Nat :=
  if w.dev.flue.fifo.length < 48 then roundRobin w.dev.flue.ptrNote ((waitingSrcs w).filter fun k => w.sev k < 2) else none

/-- What the intake makes of `w` where it takes the source `a`, or else `b`. -/
def intakeFrom (w : W) (a b : Option Nat) : W :=
  match a with
  | some k => intakeOf w k
  | none => match b with
    | some k => intakeOf w k
    | none => w

theorem intake_row : exec .intakeTake s = .next (stateOf s (intakeFrom s.world (tripNext s.world) (noteNext s.world))) := rfl

theorem mem_candidates {p : Nat → Bool} (once : (w.dev.flue.srcs.rows.map (·.1)).Nodup) :
    k ∈ (waitingSrcs w).filter p ↔ (w.dev.src k).count ≠ 0 ∧ p k = true := by
  rw [List.mem_filter, mem_waitingSrcs once]

/-- The intake has taken source `k`. -/
def TakenOf (s t : State) (k : Nat) : Prop :=
  let f := s.dev.flue
  let r := (s.dev.src k).record
  t.dev.flue.fifo = f.fifo ++ [r] ∧ t.dev.src k = { s.dev.src k with count := 0 } ∧
  (∀ j, j ≠ k → t.dev.src j = s.dev.src j) ∧ Beside s t id ∧ t.mem = s.mem ∧
  (if 2 ≤ s.world.sev k then t.dev.flue.ptrTrip = k ∧ t.dev.flue.ptrNote = f.ptrNote ∧ t.dev.flue.hist = f.hist
   else t.dev.flue.ptrNote = k ∧ t.dev.flue.ptrTrip = f.ptrTrip ∧
     t.dev.flue.hist = ({ r with rseq := f.histNext } :: f.hist).take 32)

theorem sev_history {r : Rec} : (w.history r).sev n = w.sev n :=
  congrArg (fld · 0 2) (srcCfg_congr (w := w.history r) (v := w) rfl rfl rfl)

theorem takenOf_intakeOf : TakenOf s (stateOf s (intakeOf s.world k)) k := by
  unfold TakenOf intakeOf
  dsimp only
  by_cases trip : 2 ≤ s.world.sev k
  · simp only [if_pos trip]
    exact ⟨rfl, src_onSrc_self _ _ _, fun j other => src_onSrc_ne _ _ _ _ other, ⟨rfl, rfl, rfl⟩, rfl, rfl, rfl, rfl⟩
  · simp only [if_neg trip, sev_history]
    exact ⟨rfl, src_onSrc_self _ _ _, fun j other => src_onSrc_ne _ _ _ _ other, ⟨rfl, rfl, rfl⟩, rfl, rfl, rfl, rfl⟩

/-- Source `k` waits with a TRIP. -/
def TripWaits (s : State) (k : Nat) : Prop := (s.dev.src k).count ≠ 0 ∧ 2 ≤ s.world.sev k

/-- Source `k` waits with no TRIP. -/
def NoteWaits (s : State) (k : Nat) : Prop := (s.dev.src k).count ≠ 0 ∧ s.world.sev k < 2

theorem mem_trips (once : (s.dev.flue.srcs.rows.map (·.1)).Nodup) (j : Nat) :
    j ∈ (waitingSrcs s.world).filter (fun k => 2 ≤ s.world.sev k) ↔ TripWaits s j := by
  rw [mem_candidates once, decide_eq_true_iff]
  rfl

theorem mem_notes (once : (s.dev.flue.srcs.rows.map (·.1)).Nodup) (j : Nat) :
    j ∈ (waitingSrcs s.world).filter (fun k => s.world.sev k < 2) ↔ NoteWaits s j := by
  rw [mem_candidates once, decide_eq_true_iff]
  rfl

theorem tripNext_none (once : (s.dev.flue.srcs.rows.map (·.1)).Nodup) (none_ : ∀ j, ¬ TripWaits s j) : tripNext s.world = none := by
  unfold tripNext
  rw [List.eq_nil_iff_forall_not_mem.mpr fun j mem => none_ j ((mem_trips once j).mp mem)]
  exact ite_self _

theorem noteNext_none (once : (s.dev.flue.srcs.rows.map (·.1)).Nodup) (none_ : ∀ j, ¬ NoteWaits s j) : noteNext s.world = none := by
  unfold noteNext
  rw [List.eq_nil_iff_forall_not_mem.mpr fun j mem => none_ j ((mem_notes once j).mp mem)]
  exact ite_self _

theorem intake_ends (rises : (s.dev.flue.srcs.rows.map (·.1)).Pairwise (· < ·)) :
    (∀ k, s.dev.flue.fifo.length < 64 → TurnOf s.dev.flue.ptrTrip k (TripWaits s) → Answers .intakeTake s (TakenOf s · k)) ∧
    (∀ k, s.dev.flue.fifo.length < 48 → (∀ j, ¬ TripWaits s j) → TurnOf s.dev.flue.ptrNote k (NoteWaits s) →
      Answers .intakeTake s (TakenOf s · k)) ∧
    (64 ≤ s.dev.flue.fifo.length ∨ (∀ j, ¬ TripWaits s j) ∧ (48 ≤ s.dev.flue.fifo.length ∨ ∀ j, ¬ NoteWaits s j) →
      Answers .intakeTake s (Only s · id)) := by
  have once := rises.imp (S := (· ≠ ·)) Nat.ne_of_lt
  have sorted := rises_waitingSrcs (w := s.world) rises
  refine ⟨fun k room turn => ?_, fun k room none_ turn => ?_, fun stays => ?_⟩
  · have next : tripNext s.world = some k :=
      (if_pos room).trans (roundRobin_turn (sorted.sublist List.filter_sublist) (mem_trips once) turn)
    refine ⟨_, intake_row, ?_⟩
    rw [next]
    exact takenOf_intakeOf
  · have next : noteNext s.world = some k :=
      (if_pos room).trans (roundRobin_turn (sorted.sublist List.filter_sublist) (mem_notes once) turn)
    refine ⟨_, intake_row, ?_⟩
    rw [tripNext_none once none_, next]
    exact takenOf_intakeOf
  · refine ⟨_, intake_row, ?_⟩
    have trips : tripNext s.world = none := by
      rcases stays with full | ⟨none_, -⟩
      · exact if_neg (Nat.not_lt.mpr full)
      · exact tripNext_none once none_
    have notes : noteNext s.world = none := by
      rcases stays with full | ⟨-, full | none_⟩
      · exact if_neg (Nat.not_lt.mpr (le_trans (by decide) full))
      · exact if_neg (Nat.not_lt.mpr full)
      · exact noteNext_none once none_
    rw [trips, notes]
    rfl

/-- The oldest record has entered the ring. -/
def ringTook (v : W) (rest : List Rec) : W := v.upd fun d => { d with flue := { d.flue with fifo := rest } }

/-- The gap record has entered the ring. -/
def gapCleared (g : W) : W := g.upd fun d => { d with flue := { d.flue with evqGap := {}, evqDue := false } }

/-- The gap record of `w` is tried at the ring. -/
def gapTried (w : W) : Bool × W := w.ringGap.2.ringOne (gapRec w.ringGap.1 w.dev.sys.mode.code)

/-- The ring after the gap that is due, if any, and whether it takes a record. -/
def gapServed (w : W) : Bool × W :=
  if w.dev.flue.evqDue = false then (true, w)
  else ((gapTried w).1, if (gapTried w).1 = true then gapCleared (gapTried w).2 else (gapTried w).2)

theorem gapServed_idle (idle : ¬ w.dev.flue.evqDue = true) : gapServed w = (true, w) := if_pos (Bool.eq_false_iff.mpr idle)

theorem gapServed_late {x : Bool × W} (late : w.dev.flue.evqDue = true) (tried : gapTried w = x) :
    gapServed w = (x.1, if x.1 = true then gapCleared x.2 else x.2) := by
  subst tried
  exact if_neg (ne_false_of_eq_true late)

/-- The record `r` is tried at the ring, where `x` says whether the ring takes one. -/
def recordTried (x : Bool × W) (r : Rec) : Bool × W := if x.1 = true then x.2.ringOne r else (false, x.2)

theorem recordTried_ready {r : Rec} : recordTried (true, w) r = w.ringOne r := if_pos rfl

theorem recordTried_held {r : Rec} : recordTried (false, w) r = (false, w) := if_neg Bool.false_ne_true

theorem ring_row {r : Rec} {rest : List Rec} (off : s.dev.sys.mode ≠ .off) (hold : s.dev.sys.mode ≠ .hold) (front : s.dev.flue.fifo = r :: rest) :
    exec .eventRingEnqueue s = .next (stateOf s
      (if (recordTried (gapServed s.world) r).1 = true then ringTook (recordTried (gapServed s.world) r).2 rest
       else (recordTried (gapServed s.world) r).2).settle) := by
  show execEventRingEnqueue s = _
  unfold execEventRingEnqueue run
  dsimp only
  rw [if_neg (show ¬ (s.world.dev.sys.mode = .off ∨ s.world.dev.sys.mode = .hold) from fun h => h.elim off hold),
    show s.world.dev.flue.fifo = r :: rest from front]
  rfl

theorem ring_still (rests : s.dev.sys.mode = .off ∨ s.dev.sys.mode = .hold ∨ s.dev.flue.fifo = []) :
    Answers .eventRingEnqueue s (Only s · id) := by
  refine ⟨stateOf s s.world, ?_, rfl⟩
  show execEventRingEnqueue s = _
  unfold execEventRingEnqueue run
  dsimp only
  rw [← or_assoc] at rests
  rcases rests with dark | empty
  · rw [if_pos (show s.world.dev.sys.mode = .off ∨ s.world.dev.sys.mode = .hold from dark)]
    rfl
  · rw [show s.world.dev.flue.fifo = [] from empty]
    split <;> rfl

theorem ring_leaves {r : Rec} {rest : List Rec} {x : Bool × W} (off : s.dev.sys.mode ≠ .off) (hold : s.dev.sys.mode ≠ .hold)
    (front : s.dev.flue.fifo = r :: rest) (tried : recordTried (gapServed s.world) r = x) :
    Answers .eventRingEnqueue s (Leaves s · fun _ => (if x.1 = true then ringTook x.2 rest else x.2).settle) := by
  subst tried
  exact ⟨_, ring_row off hold front, rfl⟩

theorem spill_row : exec (.spillMove n) s = .next (stateOf s (if s.dev.stoker.serving = true then
    ((List.range (min n 1024)).foldl (fun w _ => w.moveOne) s.world).settle else s.world)) := rfl

theorem spill_still (idle : s.dev.stoker.serving = false) : Answers (.spillMove n) s (Only s · id) := by
  refine ⟨_, spill_row, ?_⟩
  rw [if_neg (Bool.eq_false_iff.mp idle)]
  rfl

theorem spill_leaves (serves : s.dev.stoker.serving = true) :
    Answers (.spillMove n) s (Leaves s · fun w => ((List.range (min n 1024)).foldl (fun w _ => w.moveOne) w).settle) := by
  refine ⟨_, spill_row, ?_⟩
  rw [if_pos serves]
  rfl

/-- Settles O27: the intake takes the source whose turn it is, the ring takes the gap and then the oldest record, and each move to
the spill ring is one `moveOne`. -/
theorem flueRecordPaths : Obligations.FlueRecordPaths := by
  intro s n f w trip note turn taken due gap gapOne tookOne cleared
  refine ⟨intake_ends, ring_still, fun r rest off hold front => ⟨fun v idle tried => ?_, fun v idle tried => ?_, fun g late tried => ?_,
    fun g v late gone tried => ?_, fun g v late gone tried => ?_⟩, spill_still, ?_⟩
  · exact ring_leaves off hold front (x := (false, v)) (((congrArg (recordTried · r) (gapServed_idle idle)).trans recordTried_ready).trans tried)
  · exact ring_leaves off hold front (x := (true, v)) (((congrArg (recordTried · r) (gapServed_idle idle)).trans recordTried_ready).trans tried)
  · exact ring_leaves off hold front (x := (false, g)) ((congrArg (recordTried · r) (gapServed_late late tried)).trans recordTried_held)
  · exact ring_leaves off hold front (x := (true, v)) (((congrArg (recordTried · r) (gapServed_late late gone)).trans recordTried_ready).trans tried)
  · exact ring_leaves off hold front (x := (false, v)) (((congrArg (recordTried · r) (gapServed_late late gone)).trans recordTried_ready).trans tried)
  · intro move serves
    have same : move = W.moveOne := by
      funext x
      show move x = _
      unfold W.moveOne
      cases admits : x.fwAdmits 3 (((BitVec.ofNat 48 (pageAddr x.evq 0)).toNat - fwBase 3) / 256) x.stokerRid .read with
      | false =>
        dsimp only [move]
        rw [W.fwCheck, if_neg (Bool.eq_false_iff.mp admits)]
        rfl
      | true =>
        dsimp only [move]
        rw [fwCheck_pass x 3 (BitVec.ofNat 48 (pageAddr x.evq 0)) x.stokerRid .read admits]
        cases found : x.deqPacket x.stokerRid x.evq with
        | mk ws v => cases ws <;> rfl
    rw [same]
    exact spill_leaves serves

end Sys2Proof.Proofs
end

section
/-! O38: while the record engine waits for its millisecond, a replay under way may rewrite the table entry that the signing has just
made (R409, R423). -/

namespace Sys2Proof.Proofs

open Machine Laws

set_option Elab.async false

/-- A SIGNATURE record of an earlier signing. -/
def oldSignature : ThmRec := { rnum := 0, info := 7, time := 0, batch := 0, ps := [], tag := 0, prev := [] }

/-- A signing has come to its end, the log holds eight records of this millisecond, and a replay is to copy a SIGNATURE record. -/
def replayedSigning : State :=
  { State.reset with dev := { State.reset.dev with thm := { State.reset.dev.thm with
    powered := true, st := .idle, signing := some { rnum := 0, time := 0, h := [] }, log := List.replicate 8 oldSignature
    replay := some (0, 0), replayAt := 0, sigs := [(0, ⟨[], []⟩)] } } }

/-- The entry of the signature table that a row leaves at place `k`. -/
def entryLeft (i : Instr) (s : State) (k : Nat) : Option SigEntry :=
  match exec i s with
  | .next t => t.dev.thm.table.get? k
  | _ => none

theorem entryLeft_of {i : Instr} {s t : State} {k : Nat} (ran : exec i s = .next t) : entryLeft i s k = t.dev.thm.table.get? k := by
  rw [entryLeft, ran]

/-- The replay has put the old entry back. -/
theorem replayedSigning_entry : entryLeft .signingComplete replayedSigning 0 = some ⟨[], []⟩ := by decide +kernel

/-- Refutes O38: the entry of the completed signing does not stand in the table. -/
theorem not_thimbleRecords : ¬ Obligations.ThimbleRecords := by
  intro holds
  obtain ⟨-, -, -, -, -, completes, -⟩ := holds replayedSigning 0 [] 0 0 0 0 0 ⟨0, 0, 0, 0, 0, 0⟩
  obtain ⟨-, kept⟩ := completes _ rfl rfl (by decide)
  obtain ⟨t, ran, -, entry, -⟩ := kept (by decide +kernel)
  have left := (entryLeft_of ran).symm.trans replayedSigning_entry
  rw [show replayedSigning.dev.thm.sigCount % 64 = 0 from rfl] at entry
  have same := congrArg (fun x => x.block.length) (Option.some.inj (entry.symm.trans left))
  simp only [List.length_append, List.length_nil, Nat.add_eq_zero_iff] at same
  exact absurd same.1.1.1.1 (by decide +kernel)

end Sys2Proof.Proofs
end

section
/-! O40: the seam of an arbitrary state may name any number as its lane, and the wake of such a lane is the wake of another domain,
with its hob. -/

namespace Sys2Proof.Proofs

open Machine Laws

set_option Elab.async false

/-- A cutover of hearth 0 at its boundary: core 0 waits, with lane 208 in its seam, and its hob is in retention. -/
def strangeLane : State :=
  { State.reset with dev := (((({ State.reset.dev with
    sys := { State.reset.dev.sys with mode := .run }
    images := { State.reset.dev.images with cut := some { hearths := 1, fc := 0, ready := true } } } : Dev).onSeam 0 fun x =>
      { x with mode := .tmr, a := some 208 }).onCore 0 fun x => { x with run := true, wait := .wait }).onHob 0 fun x =>
        { x with power := .ret55 }).onDom 208 fun x => { x with st := .off } }

/-- The power of a hob that a row leaves. -/
def hobLeft (i : Instr) (s : State) (u : Nat) : Option HobPower :=
  match exec i s with
  | .next t => some (t.dev.hob u).power
  | _ => none

theorem hobLeft_of {i : Instr} {s t : State} {u : Nat} (ran : exec i s = .next t) : hobLeft i s u = some (t.dev.hob u).power := by
  rw [hobLeft, ran]

theorem strangeLane_woken : hobLeft .cutoverBoundary strangeLane 0 = some .awake := by decide +kernel

theorem strangeLane_sleeps : (strangeLane.dev.hob 0).power = .ret55 := by decide +kernel

/-- Refutes O40: at the boundary the lanes of the waiting core wake, and with lane 208 the hob of the hearth. -/
theorem not_cutoverRuns : ¬ Obligations.CutoverRuns := by
  intro holds
  obtain ⟨-, runs⟩ := holds strangeLane
  obtain ⟨-, -, -, ⟨-, boundary⟩, -⟩ := runs { hearths := 1, fc := 0, ready := true } rfl
  obtain ⟨t, ran, only, -⟩ := boundary ⟨rfl, .inl rfl, rfl⟩
  have slept : (t.dev.hob 0).power = .ret55 := (congrArg (fun x : State => (x.dev.hob 0).power) only).trans strangeLane_sleeps
  have woken := (hobLeft_of ran).symm.trans strangeLane_woken
  rw [slept] at woken
  exact absurd woken (by decide)

end Sys2Proof.Proofs
end

section
/-! O25: the rotation of the basting (R325, R326, R328, R332), and the scan port (R338). -/

namespace Sys2Proof.Proofs

open Machine Laws

set_option Elab.async false

variable {s : State} {w v : W} {l k n : Nat} {u : UnitId}

/-! What the repair tests of a unit leave alone. -/

/-- Between `w` and `v` tests of lanes have begun and commands have ended. -/
def Rested (w v : W) : Prop := ∃ lanes units x y, v = w.upd fun d => { d with lanes := lanes, laneUnits := units, stoker := x, ports := y }

theorem Rested.refl : Rested w w := ⟨_, _, _, _, rfl⟩

theorem Rested.trans {a b c : W} (h : Rested a b) (k : Rested b c) : Rested a c := by
  obtain ⟨lanes, units, x, y, rfl⟩ := h
  obtain ⟨lanes', units', x', y', rfl⟩ := k
  exact ⟨lanes', units', x', y', rfl⟩

theorem Rested.ite {a b c : W} {p : Prop} [Decidable p] (h : Rested a b) (k : Rested a c) : Rested a (if p then b else c) := by
  split <;> assumption

theorem Rested.each {α : Type} {xs : List α} {f : α → W → W} (k : ∀ x v, Rested v (f x v)) : Rested w (w.each xs f) := by
  induction xs generalizing w with
  | nil => exact .refl
  | cons x xs ih => exact (k x w).trans ih

theorem Rested.replied {v : W} (h : Replied w v) : Rested w v := by
  obtain ⟨x, y, rfl⟩ := h
  exact ⟨_, _, x, y, rfl⟩

theorem rested_repairTest {u j : Nat} : Rested w (w.repairTest u j) := .ite ⟨_, _, _, _, rfl⟩ .refl

theorem rested_fenceDone {u : Nat} {o : Option Nat} : Rested w (w.fenceDone u o) := by
  dsimp only [W.fenceDone]
  exact (Rested.each fun _ _ => .replied replied_finish).trans ⟨_, _, _, _, rfl⟩

theorem rested_restTests {u : Nat} : Rested w (w.restTests u) := by
  unfold W.restTests
  exact (Rested.each fun _ _ => .ite .refl ((Rested.each fun _ _ => rested_repairTest).trans rested_fenceDone)).trans rested_repairTest

/-! A turn. -/

/-- World `w` stands at a turn: the sources and the records of the tests are those of `s`. -/
structure AtTurn (s : State) (w : W) : Prop where
  calm : Quiescent s w
  results : w.dev.baste.results = s.dev.baste.results
  rseq : w.dev.baste.rseq = s.dev.baste.rseq

theorem AtTurn.upd {f : Dev → Dev} (h : AtTurn s w)
    (same : ∀ d, (f d).chim = d.chim ∧ (f d).regs.val = d.regs.val ∧ (f d).sys.mode = d.sys.mode ∧ (f d).flue.srcs = d.flue.srcs := by
      exact fun _ => ⟨rfl, rfl, rfl, rfl⟩)
    (log : ∀ d, (f d).baste.results = d.baste.results ∧ (f d).baste.rseq = d.baste.rseq := by exact fun _ => ⟨rfl, rfl⟩) :
    AtTurn s (w.upd f) :=
  ⟨h.calm.upd same, (log _).1.trans h.results, (log _).2.trans h.rseq⟩

theorem AtTurn.ite {p : Prop} [Decidable p] (h : AtTurn s w) (k : AtTurn s v) : AtTurn s (if p then w else v) := by
  split <;> assumption

theorem atTurn_rested (h : Rested s.world w) : AtTurn s w := by
  obtain ⟨lanes, units, x, y, rfl⟩ := h
  exact ⟨.upd quiescent_world, rfl, rfl⟩

theorem advanceIvl_log (d : Dev) : (d.advanceIvl n).baste.results = d.baste.results ∧ (d.advanceIvl n).baste.rseq = d.baste.rseq := by
  unfold Dev.advanceIvl Dev.advance
  dsimp only
  split <;> exact ⟨rfl, rfl⟩

/-- The turn of unit `u` in `w`. -/
def turnTaken (w : W) (u : Nat) : W := w.takeTurn u (w.turn u)

/-- What a turn of unit `u` that is skipped leaves before its event. -/
def skipping (w : W) (u : Nat) (info : Word32) : W :=
  (recording (w.upd fun d => d.onBu u fun b => { b with deferred := false }) info).upd fun d => d.onBu u fun b =>
    { b with next := (b.next + 1) % lanesOf u }

/-- What the record of a skipped turn says (R337). -/
def skipInfo (w : W) (u why : Nat) : Word32 :=
  basteInfo u (w.dev.bu u).next 3 0 why (homeCore u (w.dev.bu u).next)
    (if (w.dev.bu u).next = patchOf u then 0 else homeSlot u (w.dev.bu u).next)

/-- The turn of unit `u` has been skipped with the record `info`. -/
def skipped (w : W) (u : Nat) (info : Word32) : W := ((skipping w u info).raise 0x0F2 info 0).basteNowDone u info

theorem takeTurn_skip {u why : Nat} : w.takeTurn u (.skip why) = skipped w u (skipInfo w u why) := by
  unfold W.takeTurn skipped skipping skipInfo
  dsimp only
  rw [basteRec_failed (o := 3) (by decide)]

theorem skipping_bu {u : Nat} {info : Word32} : (skipping w u info).dev.bu u =
    { w.dev.bu u with deferred := false, next := ((w.dev.bu u).next + 1) % lanesOf u } := by
  have first : (recording (w.upd fun d => d.onBu u fun b => { b with deferred := false }) info).dev.bu u = { w.dev.bu u with deferred := false } :=
    bu_onBu_self w.dev u fun b => { b with deferred := false }
  refine (bu_onBu_self _ u fun b => { b with next := (b.next + 1) % lanesOf u }).trans ?_
  rw [first]

theorem replied_basteNowDone {u : Nat} {info : Word32} : Replied w (w.basteNowDone u info) := replied_finishAll

theorem dev_replied (h : Replied w v) : v.dev.baste = w.dev.baste ∧ v.dev.flue = w.dev.flue := by
  obtain ⟨x, y, rfl⟩ := h
  exact ⟨rfl, rfl⟩

theorem baste_kept (h : Kept w v) : v.dev.baste = w.dev.baste := congrArg (fun d => d.baste) h.1

theorem skipped_dev {u : Nat} {info : Word32} : (skipped w u info).dev.baste = (skipping w u info).dev.baste ∧
    (skipped w u info).dev.flue = ((skipping w u info).raise 0x0F2 info 0).dev.flue := by
  unfold skipped
  obtain ⟨baste, flue⟩ := dev_replied (replied_basteNowDone (w := (skipping w u info).raise 0x0F2 info 0) (u := u) (info := info))
  exact ⟨baste.trans (baste_kept (kept_raise _ _ _ _ _ _)), flue⟩

theorem skip_plain : Plain 0x0F2 ∧ (w.source 0x0F2).isSome = true := ⟨by unfold Plain Noted; decide, rfl⟩

theorem detected_flue {d0 d1 : Word32} {tb : Word64} (flue : v.dev.flue = w.dev.flue) (found : Detected s (stateOf s w) n d0 d1 tb) :
    Detected s (stateOf s v) n d0 d1 tb := by
  obtain ⟨row, there, entry⟩ := found
  exact ⟨row, there, (congrArg (fun f : Flue => f.srcs.getD n {}) flue).trans entry⟩

theorem skipping_leaves {u : Nat} {info : Word32} (at_ : AtTurn s w) (baste : v.dev.baste = (skipping w u info).dev.baste)
    (found : Detected s (stateOf s v) n info 0 w.dev.clock.tb) :
    let t := stateOf s v
    (t.dev.bu u).next = ((w.dev.bu u).next + 1) % lanesOf u ∧ (t.dev.bu u).deferred = false ∧
    t.dev.baste.results = ({ time := w.dev.clock.tb, info := info, rseq := s.dev.baste.rseq } :: s.dev.baste.results).take 64 ∧
    Detected s t n info 0 w.dev.clock.tb := by
  intro t
  have bu : t.dev.bu u = { w.dev.bu u with deferred := false, next := ((w.dev.bu u).next + 1) % lanesOf u } :=
    (congrArg (fun b : Baste => b.units.getD u {}) baste).trans skipping_bu
  rw [bu]
  refine ⟨rfl, rfl, ?_, found⟩
  refine (congrArg (fun b : Baste => b.results) baste).trans ?_
  rw [← at_.results, ← at_.rseq]
  rfl

theorem skipped_leaves {u : Nat} {info : Word32} (at_ : AtTurn s w) :
    let t := stateOf s (skipped w u info)
    (t.dev.bu u).next = ((w.dev.bu u).next + 1) % lanesOf u ∧ (t.dev.bu u).deferred = false ∧
    t.dev.baste.results = ({ time := w.dev.clock.tb, info := info, rseq := s.dev.baste.rseq } :: s.dev.baste.results).take 64 ∧
    Detected s t 0x0F2 info 0 w.dev.clock.tb := by
  obtain ⟨baste, flue⟩ := skipped_dev (w := w) (u := u) (info := info)
  have calm : Quiescent s (skipping w u info) := ((at_.calm.upd).upd).upd
  exact skipping_leaves at_ baste (detected_flue flue (detected_raise calm (skip_plain (w := w)).1 skip_plain.2))

theorem onBu_onBu (d : Dev) (n : Nat) (f g : BasteUnit → BasteUnit) : (d.onBu n f).onBu n g = d.onBu n fun c => g (f c) := by
  rw [Dev.onBu, bu_onBu_self]
  simp only [Dev.onBu, Tbl.set, insertRow_insertRow]

theorem takeTurn_swap {u : Nat} : w.takeTurn u .swap = ((w.upd fun d =>
    ((d.onBu u fun b => { b with deferred := false, cur := some (w.dev.bu u).next, late := false }).onLane (laneKey u (patchOf u)) fun x =>
      { x with st := .rejoining, test := .reinit }).onSeam (homeCore u (w.dev.bu u).next) fun y => { y with
        rethread := some { lane := patchOf u, slot := homeSlot u (w.dev.bu u).next, leaves := some ((w.dev.bu u).next, .basting),
                           since := d.clock.ivl } }).wakeLanes (homeCore u (w.dev.bu u).next)) := by
  unfold W.takeTurn W.stall W.onLane
  dsimp only
  rw [upd_upd, upd_upd, upd_upd]
  simp only [onBu_onBu]
  rfl

theorem at_put (x : Seam) {i : Nat} (low : i < 3) : (x.put i none).at i = none := by
  unfold Seam.put Seam.at
  rcases (by omega : i = 0 ∨ i = 1 ∨ i = 2) with rfl | rfl | rfl <;> rfl

theorem seat_slot {u i : Nat} (seat : w.seat u l = some (k, i)) : i < 3 := by
  obtain ⟨c, -, found⟩ := List.exists_of_findSome?_eq_some seat
  obtain ⟨j, slot, eq⟩ := Option.map_eq_some_iff.mp found
  obtain ⟨-, rfl⟩ := Prod.mk.inj eq
  exact List.mem_range.mp (List.mem_of_find?_eq_some slot)

theorem beside_settleRun : (w.settleRun).dev.lanes = w.dev.lanes ∧ (w.settleRun).dev.seams = w.dev.seams ∧ (w.settleRun).dev.baste = w.dev.baste := by
  unfold W.settleRun
  dsimp only
  split <;> exact ⟨rfl, rfl, rfl⟩

/-- What a turn without a stand-in makes of the unit and of the seam of its lane (R326, R328). -/
def goneAlone (d : Dev) (u l : Nat) (seat : Option (Nat × Nat)) : Dev :=
  let d := d.onBu u fun b => { b with cur := some l, late := false }
  match seat with
  | some (k, i) => d.onSeam k fun s => { (s.put i none).voting with commits := [], requests := [] }
  | none => d

/-- The slice of a lane without a stand-in has begun. -/
def aloneBegun (w : W) (u : Nat) : W :=
  let l := (w.dev.bu u).next
  let w := w.upd fun d => d.onBu u fun b => { b with deferred := false }
  ((w.upd fun d => goneAlone d u l (w.seat u l)).laneTest u l .slice).upd fun d => d.onBu u fun b => { b with began := d.clock.ivl }

theorem takeTurn_alone {u : Nat} : w.takeTurn u .alone = (aloneBegun w u).settleRun := rfl

theorem bu_goneAlone {d : Dev} {u : Nat} {seat : Option (Nat × Nat)} :
    (goneAlone d u l seat).bu u = { d.bu u with cur := some l, late := false } := by
  unfold goneAlone
  dsimp only
  split
  · exact bu_onBu_self d u fun b => { b with cur := some l, late := false }
  · exact bu_onBu_self d u fun b => { b with cur := some l, late := false }

/-- Unit `u` with its lane gone alone. -/
def goneBase (w : W) (u : Nat) : Dev :=
  goneAlone (w.dev.onBu u fun b => { b with deferred := false }) u (w.dev.bu u).next (w.seat u (w.dev.bu u).next)

theorem aloneBegun_eq {u : Nat} : (aloneBegun w u).dev = ((goneBase w u).onLane (laneKey u (w.dev.bu u).next) fun x =>
    { x with st := .basting, test := .slice }).onBu u fun b => { b with began := (goneBase w u).clock.ivl } := rfl

theorem aloneBegun_lane {u : Nat} : (aloneBegun w u).dev.lane (laneKey u (w.dev.bu u).next) =
    { (goneBase w u).lane (laneKey u (w.dev.bu u).next) with st := .basting, test := .slice } := by
  rw [aloneBegun_eq]
  exact lane_onLane_self (goneBase w u) (laneKey u (w.dev.bu u).next) fun x => { x with st := .basting, test := .slice }

theorem aloneBegun_bu {u : Nat} : (aloneBegun w u).dev.bu u =
    { w.dev.bu u with deferred := false, cur := some (w.dev.bu u).next, late := false, began := (goneBase w u).clock.ivl } := by
  rw [aloneBegun_eq, bu_onBu_self]
  have base : (goneBase w u).bu u = { w.dev.bu u with deferred := false, cur := some (w.dev.bu u).next, late := false } := by
    rw [goneBase, bu_goneAlone, bu_onBu_self]
  exact congrArg (fun b : BasteUnit => { b with began := (goneBase w u).clock.ivl }) base

theorem aloneBegun_seam {u i : Nat} (seat : w.seat u (w.dev.bu u).next = some (k, i)) :
    (aloneBegun w u).dev.seam k = { ((w.dev.seam k).put i none).voting with commits := [], requests := [] } := by
  rw [aloneBegun_eq]
  show (goneBase w u).seam k = _
  rw [goneBase, seat]
  exact seam_onSeam_self _ _ _

theorem takeTurn_begun {u : Nat} :
    let t := stateOf s (w.takeTurn u .alone)
    let l := (w.dev.bu u).next
    (t.dev.lane (laneKey u l)).st = .basting ∧ (t.dev.lane (laneKey u l)).test = .slice ∧ (t.dev.bu u).cur = some l ∧
    (t.dev.bu u).deferred = false ∧
    ∀ k i, w.seat u l = some (k, i) → (t.dev.seam k).at i = none ∧ (t.dev.seam k).commits = [] := by
  intro t l
  obtain ⟨lanes, seams, baste⟩ := beside_settleRun (w := aloneBegun w u)
  have lane : t.dev.lane (laneKey u l) = (aloneBegun w u).dev.lane (laneKey u l) := congrArg (fun x : Tbl Lane => x.getD (laneKey u l) {}) lanes
  have bu : t.dev.bu u = (aloneBegun w u).dev.bu u := congrArg (fun x : Baste => x.units.getD u {}) baste
  refine ⟨?_, ?_, ?_, ?_, fun k i seat => ?_⟩
  · rw [lane]
    exact congrArg Lane.st aloneBegun_lane
  · rw [lane]
    exact congrArg Lane.test aloneBegun_lane
  · rw [bu, aloneBegun_bu]
  · rw [bu, aloneBegun_bu]
  · have seam : t.dev.seam k = (aloneBegun w u).dev.seam k := congrArg (fun x : Tbl Seam => x.getD k {}) seams
    rw [seam, aloneBegun_seam seat]
    exact ⟨at_put _ (seat_slot seat), rfl⟩

/-! The rows. -/

/-- What a due turn of unit `u` leaves. -/
def turnMade (w : W) (u : Nat) : W :=
  match w.turn u with
  | .defer => w.upd fun d => d.onBu u fun b => { b with deferred := true }
  | t => w.takeTurn u t

/-- What a row that makes the turn of `u` in `w` leaves. -/
structure Turned (i : Instr) (s : State) (u : UnitId) (w : W) : Prop where
  at_ : AtTurn s w
  row : w.turn u ≠ .defer → exec i s = .next (stateOf s (w.takeTurn u (w.turn u)))

theorem Turned.skips {i : Instr} (h : Turned i s u w) (why : Nat) (turn : w.turn u = .skip why) : Answers i s fun t =>
    let info := skipInfo w u why
    (t.dev.bu u).next = ((w.dev.bu u).next + 1) % lanesOf u ∧ (t.dev.bu u).deferred = false ∧
    t.dev.baste.results = ({ time := w.dev.clock.tb, info := info, rseq := s.dev.baste.rseq } :: s.dev.baste.results).take 64 ∧
    Detected s t 0x0F2 info 0 w.dev.clock.tb := by
  have ran := h.row (by rw [turn]; exact Turn.noConfusion)
  rw [turn, takeTurn_skip] at ran
  exact ⟨_, ran, skipped_leaves h.at_⟩

theorem Turned.swaps {i : Instr} (h : Turned i s u w) (turn : w.turn u = .swap) : exec i s = .next (stateOf s ((w.upd fun d =>
    ((d.onBu u fun b => { b with deferred := false, cur := some (w.dev.bu u).next, late := false }).onLane (laneKey u (patchOf u)) fun x =>
      { x with st := .rejoining, test := .reinit }).onSeam (homeCore u (w.dev.bu u).next) fun y => { y with
        rethread := some { lane := patchOf u, slot := homeSlot u (w.dev.bu u).next, leaves := some ((w.dev.bu u).next, .basting),
                           since := d.clock.ivl } }).wakeLanes (homeCore u (w.dev.bu u).next))) := by
  have ran := h.row (by rw [turn]; exact Turn.noConfusion)
  rwa [turn, takeTurn_swap] at ran

theorem Turned.begins {i : Instr} (h : Turned i s u w) (turn : w.turn u = .alone) : Answers i s fun t =>
    let l := (w.dev.bu u).next
    (t.dev.lane (laneKey u l)).st = .basting ∧ (t.dev.lane (laneKey u l)).test = .slice ∧ (t.dev.bu u).cur = some l ∧
    (t.dev.bu u).deferred = false ∧
    ∀ k i, w.seat u l = some (k, i) → (t.dev.seam k).at i = none ∧ (t.dev.seam k).commits = [] := by
  have ran := h.row (by rw [turn]; exact Turn.noConfusion)
  rw [turn] at ran
  exact ⟨_, ran, takeTurn_begun⟩

/-- The device when the turn of `u` is due. -/
def dueAt (s : State) (u : Nat) : W := (s.world.restTests u).upd fun d => d.advanceIvl ((s.world.restTests u).nextDue u)

theorem basteOn_rested (h : Rested w v) : v.basteOn n = w.basteOn n := by
  obtain ⟨lanes, units, x, y, rfl⟩ := h
  exact congrArg (bitAt · n) (reg_congr rfl rfl _ _ _ fun _ => rfl)

theorem mode_rested (h : Rested w v) : v.dev.sys.mode = w.dev.sys.mode := by
  obtain ⟨lanes, units, x, y, rfl⟩ := h
  rfl

theorem baste_row : exec (.basteDue u) s = .next (stateOf s
    (if ((s.world.restTests u).basteOn u && (s.world.restTests u).dev.sys.mode.bastes) = true then
      turnMade (((dueAt s u).turnDue u).blwResume u) u
     else s.world.restTests u)) := by
  show execBasteDue u s = _
  unfold execBasteDue run
  dsimp only
  refine next_of (if_congr Iff.rfl ?_ rfl)
  show _ = turnMade (((dueAt s u).turnDue u).blwResume u) u
  unfold dueAt
  generalize ((((s.world.restTests u).upd fun d => d.advanceIvl ((s.world.restTests u).nextDue u)).turnDue u).blwResume u) = x
  rfl

theorem deferred_row : exec (.deferredSliceStart u) s = .next (stateOf s
    (if (((s.world.restTests u).dev.bu u).deferred && (s.world.restTests u).dev.sys.mode.bastes) = true then
      (match ((s.world.restTests u).blwResume u).turn u with
       | .defer => (s.world.restTests u).blwResume u
       | t => ((s.world.restTests u).blwResume u).takeTurn u t)
     else s.world.restTests u)) := rfl

theorem turnMade_of {n : Nat} (turn : w.turn n ≠ .defer) : turnMade w n = w.takeTurn n (w.turn n) := by
  unfold turnMade
  split
  · next deferred => exact absurd deferred turn
  · rfl

theorem atTurn_blwResume {n : Nat} (h : AtTurn s w) : AtTurn s (w.blwResume n) := .ite (.upd (.ite h.upd h)) h

theorem atTurn_due : AtTurn s (dueAt s u) := (atTurn_rested rested_restTests).upd (fun _ => ⟨rfl, rfl, rfl, rfl⟩) fun d => advanceIvl_log d

theorem turned_due (on : bitAt (s.world.reg 14 0 0x24) u = true) (runs : s.dev.sys.mode.bastes = true) :
    Turned (.basteDue u) s u (((dueAt s u).turnDue u).blwResume u) ∧
    exec (.basteDue u) s = .next (stateOf s (turnMade (((dueAt s u).turnDue u).blwResume u) u)) := by
  have rested := rested_restTests (w := s.world) (u := u)
  have goes : ((s.world.restTests u).basteOn u && (s.world.restTests u).dev.sys.mode.bastes) = true := by
    rw [basteOn_rested rested, mode_rested rested]
    exact Bool.and_eq_true_iff.mpr ⟨on, runs⟩
  have ran := baste_row (s := s) (u := u)
  rw [if_pos goes] at ran
  refine ⟨⟨atTurn_blwResume (.ite atTurn_due (.ite atTurn_due.upd atTurn_due)), fun turn => ?_⟩, ran⟩
  rw [ran, turnMade_of turn]

theorem turned_deferred (late : ((s.world.restTests u).dev.bu u).deferred = true) (runs : s.dev.sys.mode.bastes = true) :
    Turned (.deferredSliceStart u) s u ((s.world.restTests u).blwResume u) ∧
    (((s.world.restTests u).blwResume u).turn u = .defer →
      exec (.deferredSliceStart u) s = .next (stateOf s ((s.world.restTests u).blwResume u))) := by
  have rested := rested_restTests (w := s.world) (u := u)
  have goes : (((s.world.restTests u).dev.bu u).deferred && (s.world.restTests u).dev.sys.mode.bastes) = true := by
    rw [mode_rested rested]
    exact Bool.and_eq_true_iff.mpr ⟨late, runs⟩
  have ran := deferred_row (s := s) (u := u)
  rw [if_pos goes] at ran
  refine ⟨⟨atTurn_blwResume (atTurn_rested rested), fun turn => ran.trans (next_of ?_)⟩, fun turn => ran.trans (next_of ?_)⟩
  · split
    · next deferred => exact absurd deferred turn
    · rfl
  · rw [turn]

/-! The scan port. -/

/-- What the scan port and the events read: everything that the end of sessions and a clearing leave as it is. -/
def scanCore (w : W) : Fuse × Chim × Tbl Word32 × Sys × Flue × Word64 × Baste × List (Nat × Word32 × Word32) :=
  (w.fuse, w.dev.chim, w.dev.regs.val, w.dev.sys, w.dev.flue, w.dev.clock.tb, w.dev.baste, w.due)

theorem each_same {α β : Type} {g : W → β} {xs : List α} {f : α → W → W} (same : ∀ x v, g (f x v) = g v) : g (w.each xs f) = g w := by
  induction xs generalizing w with
  | nil => rfl
  | cons x xs ih => exact ih.trans (same x w)

/-- The scan core with the images. -/
def txnCore (w : W) : (Fuse × Chim × Tbl Word32 × Sys × Flue × Word64 × Baste × List (Nat × Word32 × Word32)) × Images :=
  (scanCore w, w.dev.images)

theorem txnCore_stageDiscard {typ inst : Nat} : txnCore (w.stageDiscard typ inst) = txnCore w := by
  unfold W.stageDiscard
  split <;> rfl

theorem txnCore_abortTxn : txnCore w.abortTxn = txnCore w := by
  unfold W.abortTxn
  split
  · rfl
  · refine each_same (g := txnCore) fun b v => ?_
    split
    · exact txnCore_stageDiscard
    · rfl

theorem txnCore_abortTxnOf : txnCore (w.abortTxnOf k) = txnCore w := by
  unfold W.abortTxnOf
  split
  · split
    · exact txnCore_abortTxn
    · rfl
  · rfl

theorem scanCore_endSession {id : Word32} : scanCore (w.endSession id) = scanCore w :=
  congrArg Prod.fst (txnCore_abortTxnOf (w := w) (k := 16 + id.toNat))

theorem sessions_endSession {id : Word32} : (w.endSession id).dev.images.sessions = w.dev.images.sessions.filter fun x => x.id != id :=
  congrArg (fun i : Images => i.sessions.filter fun x => x.id != id) (congrArg Prod.snd (txnCore_abortTxnOf (w := w) (k := 16 + id.toNat)))

theorem mem_sessions_each {x : Session} {xs : List Session} (mem : x ∈ (w.each xs fun y w => w.endSession y.id).dev.images.sessions) :
    x ∈ w.dev.images.sessions ∧ x ∉ xs := by
  induction xs generalizing w with
  | nil => exact ⟨mem, List.not_mem_nil⟩
  | cons y ys ih =>
    obtain ⟨left, other⟩ := ih mem
    rw [sessions_endSession] at left
    obtain ⟨first, ne⟩ := List.mem_filter.mp left
    refine ⟨first, fun own => ?_⟩
    rcases List.mem_cons.mp own with rfl | later
    · exact absurd rfl (bne_iff_ne.mp ne)
    · exact other later

theorem sessions_endSessions : w.endSessions.dev.images.sessions = [] :=
  List.eq_nil_iff_forall_not_mem.mpr fun _ mem => (mem_sessions_each mem).2 (mem_sessions_each mem).1

/-- The scan port open, with the secrets zeroised. -/
def scanned (w : W) : W := w.zeroise.upd fun d => { d with baste := { d.baste with scanOpen := true, pathOff := true, zeroised := true } }

theorem scanCore_zeroise : scanCore w.zeroise = scanCore w :=
  (show scanCore w.zeroise = scanCore w.endSessions from rfl).trans (each_same (g := scanCore) fun _ _ => scanCore_endSession)

theorem scanned_leaves : Quiescent s (scanned s.world) ∧ (scanned s.world).dev.clock.tb = s.dev.clock.tb ∧
    (scanned s.world).dev.baste = { s.dev.baste with scanOpen := true, pathOff := true, zeroised := true } ∧
    (scanned s.world).dev.images.sessions = [] := by
  have core := scanCore_zeroise (w := s.world)
  simp only [scanCore, Prod.mk.injEq] at core
  obtain ⟨fuse, chim, regs, sys, flue, tb, baste, due⟩ := core
  refine ⟨⟨fuse, chim, regs, congrArg Sys.mode sys, congrArg Flue.srcs flue, due⟩, tb, ?_, sessions_endSessions⟩
  exact congrArg (fun b : Baste => { b with scanOpen := true, pathOff := true, zeroised := true }) baste

/-- What an event and a reply leave of the secrets. -/
theorem secrets_kept (h : Kept w v) : v.dev.images.sessions = w.dev.images.sessions ∧ v.dev.images.cryptoKey = w.dev.images.cryptoKey ∧
    v.dev.images.cryptoOperand = w.dev.images.cryptoOperand ∧ v.dev.images.drbgState = w.dev.images.drbgState :=
  ⟨(congrArg (fun d => d.images.sessions) h.1 :), (congrArg (fun d => d.images.cryptoKey) h.1 :),
    (congrArg (fun d => d.images.cryptoOperand) h.1 :), (congrArg (fun d => d.images.drbgState) h.1 :)⟩

theorem images_replied (h : Replied w v) : v.dev.images = w.dev.images := by
  obtain ⟨x, y, rfl⟩ := h
  rfl

theorem scan_row (q : Pend) (qs : List Pend) (found : s.world.pendsOf 0x0E10 0 = q :: qs) :
    exec .scanOpenComplete s = .next (stateOf s (((scanned s.world).raise 0x0F3 0 0).finish q sDone [])) := by
  show execScanOpenComplete s = _
  unfold execScanOpenComplete run
  dsimp only
  rw [found]
  rfl

theorem pends_deliver {r : Reply} : (w.deliver k r).dev.stoker.pends = w.dev.stoker.pends := by
  simp only [W.deliver, W.upd]
  split
  · rfl
  · split <;> rfl

theorem pends_reply {p : Packet} {opc : Half} {status : Nat} {final stale : Bool} {bs : List Byte} :
    (w.reply p opc status final bs stale).dev.stoker.pends = w.dev.stoker.pends := by
  dsimp only [W.reply]
  split <;> exact pends_deliver

theorem pends_finish {q : Pend} {status : Nat} {bs : List Byte} : q ∉ (w.finish q status bs).dev.stoker.pends := by
  have gone : q ∉ (w.dropPend q).dev.stoker.pends := fun mem => absurd rfl (bne_iff_ne.mp (List.mem_filter.mp mem).2)
  dsimp only [W.finish]
  split
  · rwa [pends_reply]
  · exact gone

theorem scan_plain : Plain 0x0F3 ∧ (w.source 0x0F3).isSome = true := ⟨by unfold Plain Noted; decide, rfl⟩

/-- What the event and the reply at the end of SCAN_OPEN leave of a calm world. -/
theorem raised_finish {q : Pend} {d0 d1 : Word32} (calm : Quiescent s w) (plain : Plain n) (there : (s.world.source n).isSome = true) :
    let t := stateOf s ((w.raise n d0 d1).finish q sDone [])
    t.dev.baste = w.dev.baste ∧ t.dev.images.sessions = w.dev.images.sessions ∧ t.dev.images.cryptoKey = w.dev.images.cryptoKey ∧
    t.dev.images.cryptoOperand = w.dev.images.cryptoOperand ∧ t.dev.images.drbgState = w.dev.images.drbgState ∧
    q ∉ t.dev.stoker.pends ∧ Detected s t n d0 d1 w.dev.clock.tb := by
  intro t
  have replied : Replied (w.raise n d0 d1) ((w.raise n d0 d1).finish q sDone []) := replied_finish
  have kept : Kept w (w.raise n d0 d1) := kept_raise _ _ _ _ _ _
  obtain ⟨baste, flue⟩ := dev_replied replied
  obtain ⟨sessions, key, operand, drbg⟩ := secrets_kept kept
  have images := images_replied replied
  exact ⟨baste.trans (baste_kept kept), (congrArg Images.sessions images).trans sessions, (congrArg Images.cryptoKey images).trans key,
    (congrArg Images.cryptoOperand images).trans operand, (congrArg Images.drbgState images).trans drbg, pends_finish,
    detected_flue flue (detected_raise calm plain there)⟩

theorem scan_completes {q : Pend} {qs : List Pend} (found : s.world.pendsOf 0x0E10 0 = q :: qs) : Answers .scanOpenComplete s fun t =>
    t.dev.baste = { s.dev.baste with scanOpen := true, pathOff := true, zeroised := true } ∧ t.dev.images.sessions = [] ∧
    t.dev.images.cryptoKey = [] ∧ t.dev.images.cryptoOperand = [] ∧ t.dev.images.drbgState = [] ∧
    q ∉ t.dev.stoker.pends ∧ Detected s t 0x0F3 0 0 s.dev.clock.tb := by
  obtain ⟨calm, tb, baste, sessions⟩ := scanned_leaves (s := s)
  obtain ⟨bas, ses, key, operand, drbg, gone, found'⟩ :=
    raised_finish (q := q) (d0 := 0) (d1 := 0) calm (scan_plain (w := s.world)).1 scan_plain.2
  rw [tb] at found'
  exact ⟨_, scan_row q qs found, bas.trans baste, ses.trans sessions, key, operand, drbg, gone, found'⟩

theorem scan_still (none : s.world.pendsOf 0x0E10 0 = []) : Answers .scanOpenComplete s (Only s · id) := by
  refine ⟨_, ?_, rfl⟩
  show execScanOpenComplete s = _
  unfold execScanOpenComplete run
  dsimp only
  rw [none]
  rfl

/-! The statement. -/

theorem bellowsTurn_eq {n : Nat} : w.bellowsTurn n =
    if n < 16 ∧ (w.dev.bu n).next = 0 ∧ (w.dev.bu n).segs = none then w.upd fun d => d.onBu n fun b => { b with segs := some 0 } else w := by
  simp only [W.bellowsTurn, Option.isNone_iff_eq_none]

theorem turnMade_defer {n : Nat} (turn : w.turn n = .defer) :
    turnMade w n = w.upd fun d => d.onBu n fun b => { b with deferred := true } := by
  unfold turnMade
  rw [turn]

theorem baste_rests (idle : ¬ (bitAt (s.world.reg 14 0 0x24) u = true ∧ s.dev.sys.mode.bastes = true)) :
    Answers (.basteDue u) s (Leaves s · fun w => w.restTests u) := by
  refine ⟨_, (baste_row).trans (next_of (if_neg fun goes => idle ?_)), rfl⟩
  obtain ⟨on, runs⟩ := Bool.and_eq_true_iff.mp goes
  have rested := rested_restTests (w := s.world) (u := u)
  rw [basteOn_rested rested] at on
  rw [mode_rested rested] at runs
  exact ⟨on, runs⟩

theorem deferred_rests (idle : ¬ (((s.world.restTests u).dev.bu u).deferred = true ∧ s.dev.sys.mode.bastes = true)) :
    Answers (.deferredSliceStart u) s (Leaves s · fun w => w.restTests u) := by
  refine ⟨_, (deferred_row).trans (next_of (if_neg fun goes => idle ?_)), rfl⟩
  obtain ⟨late, runs⟩ := Bool.and_eq_true_iff.mp goes
  rw [mode_rested rested_restTests] at runs
  exact ⟨late, runs⟩

/-- Settles O25: a turn is taken after the repair tests that had to wait, and each kind of it leaves what its rule says. -/
theorem bastingRotation : Obligations.BastingRotation := by
  unfold Obligations.BastingRotation
  intro s u b
  have swapBellows : (fun w : W => if u.val < 16 ∧ (w.dev.bu u).next = 0 ∧ (w.dev.bu u).segs = none then
      w.upd fun d => d.onBu u fun b => { b with segs := some 0 } else w) = fun w => w.bellowsTurn u := funext fun _ => bellowsTurn_eq.symm
  intro d on runs p turns rested due bellows resume first again
  have bellowsEq : bellows = fun w => w.bellowsTurn u := swapBellows
  have resumeEq : resume = fun w => w.blwResume u := by
    show (fun w : W => if (w.dev.bu u).blwDue then (bellows w).upd _ else w) = _
    rw [bellowsEq]
    rfl
  have firstEq : first = ((dueAt s u).turnDue u).blwResume u := by
    show resume (if (due.dev.bu u).deferred then due else bellows due) = _
    rw [resumeEq, bellowsEq]
    rfl
  have againEq : again = (s.world.restTests u).blwResume u := by
    show resume rested = _
    rw [resumeEq]
  refine ⟨baste_rests, fun on runs => ?_, deferred_rests, fun late runs turn => ?_, fun late runs turn => ?_, scan_still,
    fun q qs found => scan_completes found, ⟨_, rfl, rfl⟩⟩
  · rw [firstEq]
    obtain ⟨turned, ran⟩ := turned_due on runs
    exact ⟨fun turn => ⟨_, ran, congrArg (stateOf s) (turnMade_defer turn)⟩, turned.skips, fun turn => ⟨_, turned.swaps turn, rfl⟩, turned.begins⟩
  · rw [againEq] at turn ⊢
    exact ⟨_, (turned_deferred late runs).2 turn, rfl⟩
  · rw [againEq] at turn ⊢
    have turned := (turned_deferred late runs).1
    exact ⟨fun defer => absurd defer turn, turned.skips, fun turn => ⟨_, turned.swaps turn, rfl⟩, turned.begins⟩

end Sys2Proof.Proofs
end

section
/-! O41: the ends of verifications, flash operations, grants, sessions and attestations (R82, R442, R450 to R455, R505). -/

namespace Sys2Proof.Proofs

open Machine Laws

set_option Elab.async false

variable {s : State} {w v : W} {k n : Nat}

/-! Pending commands that end. -/

theorem pends_of_finish {q : Pend} {status : Nat} {bs : List Byte} :
    (w.finish q status bs).dev.stoker.pends = w.dev.stoker.pends.filter fun p => p != q := by
  dsimp only [W.finish]
  split
  · rw [pends_reply]
    rfl
  · rfl

theorem mem_finishes {p : Pend} {qs : List Pend} {status : Nat} {bs : List Byte}
    (mem : p ∈ (w.each qs fun q w => w.finish q status bs).dev.stoker.pends) : p ∈ w.dev.stoker.pends ∧ p ∉ qs := by
  induction qs generalizing w with
  | nil => exact ⟨mem, List.not_mem_nil⟩
  | cons q qs ih =>
    obtain ⟨left, other⟩ := ih mem
    rw [pends_of_finish] at left
    obtain ⟨first, ne⟩ := List.mem_filter.mp left
    refine ⟨first, fun own => ?_⟩
    rcases List.mem_cons.mp own with rfl | later
    · exact absurd rfl (bne_iff_ne.mp ne)
    · exact other later

/-- No command of an opcode and key runs on once all of them have ended. -/
theorem finishAll_none {p : Pend} {opc : Half} {key status : Nat} {bs : List Byte}
    (mem : p ∈ (w.finishAll opc.toNat key status bs).dev.stoker.pends) : ¬ (p.running = true ∧ p.opc = opc ∧ p.key = key) := by
  rintro ⟨running, rfl, rfl⟩
  obtain ⟨there, gone⟩ := mem_finishes mem
  exact gone (List.mem_filter.mpr ⟨there, by simp only [running, beq_self_eq_true, Bool.and_self]⟩)

/-! The end of a verification. -/

/-- A staged image has been judged: its bytes `r` and the reason. -/
def imageJudged (w : W) (f : ImgBytes) (reason : Nat) : W :=
  (w.onImg fun i => { i with st := if reason = 0 then .verified else .failed, reason := BitVec.ofNat 4 reason,
                             stage := if reason = 0 then { len := f.len, head := f.head } else {} }).finishAll 0x0A04 0
    (if reason = 0 then sDone else verifyStatus reason) (le 4 reason ++ le 4 f.version)

theorem imageJudged_leaves {f : ImgBytes} {reason : Nat} :
    (imageJudged w f reason).dev.images.st = (if reason = 0 then .verified else .failed) ∧
    (imageJudged w f reason).dev.images.reason = BitVec.ofNat 4 reason ∧
    (imageJudged w f reason).dev.images.stage = (if reason = 0 then { len := f.len, head := f.head } else {}) ∧
    ∀ p ∈ (imageJudged w f reason).dev.stoker.pends, ¬ (p.running = true ∧ p.opc = 0x0A04 ∧ p.key = 0) := by
  have images := images_replied (replied_finishAll (w := w.onImg fun i =>
    { i with st := if reason = 0 then .verified else .failed, reason := BitVec.ofNat 4 reason,
             stage := if reason = 0 then { len := f.len, head := f.head } else {} }) (opc := 0x0A04) (key := 0)
    (status := if reason = 0 then sDone else verifyStatus reason) (bs := le 4 reason ++ le 4 f.version))
  exact ⟨congrArg Images.st images, congrArg Images.reason images, congrArg Images.stage images, fun p mem => finishAll_none (opc := 0x0A04) mem⟩

/-- What the image of the staging area is found to be. -/
def stageReason (w : W) (r : Option (List Byte)) : Nat :=
  if r.isSome then verify w.fuse (imgOf (r.getD [])) 1 w.dev.images.stageLen w.lifecycle else 4

/-- The bytes of the staging area, and the device that has read them. -/
def staged (w : W) : Option (List Byte) × W := w.areaRead w.dev.images.areas.2.2 0 w.dev.images.stageLen

theorem verify_row (busy : s.dev.images.st = .verifying) : exec .imageVerifyComplete s = .next (stateOf s
    (imageJudged (staged s.world).2 (imgOf ((staged s.world).1.getD [])) (stageReason s.world (staged s.world).1))) := by
  have fuse : (staged s.world).2.fuse = s.world.fuse := (keeps_iff.mp keeps_areaRead).1
  have life : (staged s.world).2.lifecycle = s.world.lifecycle := congrArg Fuse.lifecycle fuse
  show execImageVerifyComplete s = _
  unfold execImageVerifyComplete run
  dsimp only
  rw [if_neg (not_not_intro (show s.world.dev.images.st = .verifying from busy))]
  refine next_of ?_
  unfold imageJudged stageReason
  rw [← fuse, ← life]
  unfold staged
  generalize s.world.areaRead s.world.dev.images.areas.2.2 0 s.world.dev.images.stageLen = r
  rfl

/-! Flash operations. -/

/-- `v` has the flash of `w` and its operations. -/
def SameFlash (w v : W) : Prop := (v.dev.images.flash, v.dev.images.jobs) = (w.dev.images.flash, w.dev.images.jobs)

theorem SameFlash.refl : SameFlash w w := rfl

theorem SameFlash.trans {a b c : W} (h : SameFlash a b) (k : SameFlash b c) : SameFlash a c := Eq.trans k h

theorem SameFlash.ite {a b c : W} {p : Prop} [Decidable p] (h : SameFlash a b) (k : SameFlash a c) : SameFlash a (if p then b else c) := by
  split <;> assumption

theorem SameFlash.of_kept (h : Kept w v) : SameFlash w v := (congrArg (fun d : Dev => (d.images.flash, d.images.jobs)) h.1 :)

theorem sameFlash_level {d0 d1 : Word32} : SameFlash w (w.level n d0 d1) := .of_kept kept_level

theorem sameFlash_wdtHeld : SameFlash w w.wdtHeld := by
  unfold W.wdtHeld
  split
  · exact sameFlash_level
  · exact .ite (.of_kept kept_inactive) .refl

theorem sameFlash_wdtHold : SameFlash w (w.wdtHold k) := rfl

theorem sameFlash_settleErase : SameFlash w w.settleErase := by
  refine .ite .refl (.ite .refl ?_)
  refine SameFlash.trans (b := W.each _ _ _) ?_ sameFlash_wdtHeld
  exact each_same (g := fun w => (w.dev.images.flash, w.dev.images.jobs)) fun k v => SameFlash.ite (SameFlash.trans rfl sameFlash_wdtHold) .refl

/-- The crossing of a flash operation. -/
def flashCrossed (d : Dev) : Dev := (d.crossed 26).crossed 27

/-- Operation `j` has ended well. -/
def jobEnded (w : W) (j : FlashJob) : W :=
  ((w.upd flashCrossed).onImg fun i => { i with jobs := i.jobs.erase j }).jobDone j

/-- The next operation of a device begins. -/
def nextJob (w : W) (dev : Nat) : W :=
  (match w.dev.images.jobs.find? (fun (x : FlashJob) => x.dev == dev) with
   | some n => w.beginJob n
   | none => w).settleErase

section
variable {dev : Fin 2} {j : FlashJob}

theorem flash_fails {ok : Bool} (fails : (ok && s.dev.fifoOpen 26 && s.dev.fifoOpen 27) = false) :
    exec (.flashOperationComplete dev true ok) s = .next (stateOf s (s.world.raise 0x3C5 (w32 dev.val) 0)) := by
  show execFlashOperationComplete dev true ok s = _
  unfold execFlashOperationComplete run
  dsimp only
  rw [show (ok && s.world.dev.fifoOpen 26 && s.world.dev.fifoOpen 27) = false from fails]
  rfl

theorem flash_crosses (passes : s.dev.fifoOpen 26 = true ∧ s.dev.fifoOpen 27 = true) :
    exec (.flashOperationComplete dev true true) s = .next (stateOf s (s.world.upd flashCrossed)) := by
  show execFlashOperationComplete dev true true s = _
  unfold execFlashOperationComplete run
  dsimp only
  rw [show (true && s.world.dev.fifoOpen 26 && s.world.dev.fifoOpen 27) = true by
    rw [show s.world.dev.fifoOpen 26 = true from passes.1, show s.world.dev.fifoOpen 27 = true from passes.2]; rfl]
  rfl

theorem flash_idle (passes : s.dev.fifoOpen 26 = true ∧ s.dev.fifoOpen 27 = true)
    (job : s.dev.images.jobs.find? (fun x => x.dev == dev.val) = none) :
    exec (.flashOperationComplete dev false true) s = .next (stateOf s (s.world.upd flashCrossed)) := by
  show execFlashOperationComplete dev false true s = _
  unfold execFlashOperationComplete run
  dsimp only
  rw [show (true && s.world.dev.fifoOpen 26 && s.world.dev.fifoOpen 27) = true by
    rw [show s.world.dev.fifoOpen 26 = true from passes.1, show s.world.dev.fifoOpen 27 = true from passes.2]; rfl]
  simp only [if_true, Bool.false_eq_true, if_false]
  rw [show (W.upd s.world fun d => (d.crossed 26).crossed 27).dev.images.jobs.find? (fun x => x.dev == dev.val) = none from job]
  rfl

theorem flash_ends (passes : s.dev.fifoOpen 26 = true ∧ s.dev.fifoOpen 27 = true)
    (job : s.dev.images.jobs.find? (fun x => x.dev == dev.val) = some j) :
    exec (.flashOperationComplete dev false true) s = .next (stateOf s (nextJob (jobEnded s.world j) dev)) := by
  show execFlashOperationComplete dev false true s = _
  unfold execFlashOperationComplete run
  dsimp only
  rw [show (true && s.world.dev.fifoOpen 26 && s.world.dev.fifoOpen 27) = true by
    rw [show s.world.dev.fifoOpen 26 = true from passes.1, show s.world.dev.fifoOpen 27 = true from passes.2]; rfl]
  simp only [if_true, Bool.false_eq_true, if_false]
  rw [show (W.upd s.world fun d => (d.crossed 26).crossed 27).dev.images.jobs.find? (fun x => x.dev == dev.val) = some j from job]
  unfold nextJob
  exact next_of rfl

/-- An operation that leaves none behind it on its device. -/
theorem sameFlash_nextJob {n : Nat} (last : w.dev.images.jobs.find? (fun x => x.dev == n) = none) : SameFlash w (nextJob w n) := by
  unfold nextJob
  rw [last]
  exact sameFlash_settleErase

theorem flash_done {f : Flash} (passes : s.dev.fifoOpen 26 = true ∧ s.dev.fifoOpen 27 = true)
    (job : s.dev.images.jobs.find? (fun x => x.dev == dev.val) = some j)
    {rest : List FlashJob} (left : rest.find? (fun x => x.dev == dev.val) = none)
    (flash : (jobEnded s.world j).dev.images.flash = f) (jobs : (jobEnded s.world j).dev.images.jobs = rest) :
    Answers (.flashOperationComplete dev false true) s fun t => t.dev.images.flash = f ∧ t.dev.images.jobs = rest := by
  have same := sameFlash_nextJob (w := jobEnded s.world j) (n := dev.val) (by rw [jobs]; exact left)
  exact ⟨_, flash_ends passes job, (congrArg Prod.fst same).trans flash, (congrArg Prod.snd same).trans jobs⟩

end

section
variable {dev : Fin 2} {slot : Bool} {o key : Nat} {bs : List Byte} {row : Option RepairRow} {members : Option (BitVec 4)}

theorem write_ended : (jobEnded w ⟨dev, .thmWrite slot o bs, key⟩).dev.images.flash = w.dev.images.flash.putThm slot o bs ∧
    (jobEnded w ⟨dev, .thmWrite slot o bs, key⟩).dev.images.jobs = w.dev.images.jobs.erase ⟨dev, .thmWrite slot o bs, key⟩ :=
  have images := images_replied (v := jobEnded w ⟨dev, .thmWrite slot o bs, key⟩) replied_finishAll
  ⟨(congrArg Images.flash images :), (congrArg Images.jobs images :)⟩

theorem erase_ended : (jobEnded w ⟨dev, .thmErase slot, key⟩).dev.images.flash =
      { w.dev.images.flash with thm := w.dev.images.flash.thm.keep fun k => k / 0x80000 != slot.toNat } ∧
    (jobEnded w ⟨dev, .thmErase slot, key⟩).dev.images.jobs = w.dev.images.jobs.erase ⟨dev, .thmErase slot, key⟩ :=
  have images := images_replied (v := jobEnded w ⟨dev, .thmErase slot, key⟩) replied_finishAll
  ⟨(congrArg Images.flash images :), (congrArg Images.jobs images :)⟩

theorem copied_ended : (jobEnded w ⟨1, .record row members, key⟩).dev.images.flash = w.dev.images.flash ∧
    (jobEnded w ⟨1, .record row members, key⟩).dev.images.jobs = w.dev.images.jobs.erase ⟨1, .record row members, key⟩ :=
  have images := images_replied (v := jobEnded w ⟨1, .record row members, key⟩) replied_finishAll
  ⟨(congrArg Images.flash images :), (congrArg Images.jobs images :)⟩

theorem recorded_ended : (jobEnded w ⟨0, .record row members, key⟩).dev.images.flash =
      { w.dev.images.flash with rcd := w.dev.images.flash.rcd.change row members } ∧
    (jobEnded w ⟨0, .record row members, key⟩).dev.images.jobs =
      w.dev.images.jobs.erase ⟨0, .record row members, key⟩ ++ [⟨1, .record row members, key⟩] := by
  show (W.addJob _ _).dev.images.flash = _ ∧ (W.addJob _ _).dev.images.jobs = _
  unfold W.addJob
  dsimp only
  split <;> exact ⟨rfl, rfl⟩

end

/-! Sessions. -/

/-- The clock and the sessions. -/
def sessionsCore (w : W) : Clock × List Session := (w.dev.clock, w.dev.images.sessions)

theorem sessionsCore_stageDiscard {typ inst : Nat} : sessionsCore (w.stageDiscard typ inst) = sessionsCore w := by
  unfold W.stageDiscard
  split <;> rfl

theorem sessionsCore_abortTxnOf : sessionsCore (w.abortTxnOf k) = sessionsCore w := by
  unfold W.abortTxnOf
  split
  · split
    · unfold W.abortTxn
      split
      · rfl
      · refine each_same (g := sessionsCore) fun b v => ?_
        split
        · exact sessionsCore_stageDiscard
        · rfl
    · rfl
  · rfl

theorem endSession_leaves {id : Word32} : (w.endSession id).dev.clock = w.dev.clock ∧
    (w.endSession id).dev.images.sessions = w.dev.images.sessions.filter (fun x => x.id != id) ∧
    (w.endSession id).dev.stoker.sources.get? (16 + id.toNat) = none := by
  have core := sessionsCore_abortTxnOf (w := w) (k := 16 + id.toNat)
  refine ⟨congrArg Prod.fst core, sessions_endSession, ?_⟩
  show (((w.abortTxnOf (16 + id.toNat)).dev.stoker.sources.erase (16 + id.toNat)).get? _) = none
  rw [get?_erase, if_pos rfl]

theorem sessions_advance (d : Dev) : (d.advanceTb n).images.sessions = d.images.sessions := by
  unfold Dev.advanceTb Dev.advance
  rfl

theorem freeId_lt {x : Nat} (low : x < 2 ^ 32) : w.freeId x n < 2 ^ 32 := by
  induction n generalizing x with
  | zero => exact low
  | succ n ih =>
    unfold W.freeId
    split
    · exact ih (Nat.mod_lt _ (by decide))
    · exact low

/-- What a new session is. -/
def newSession (w : W) (q : Pend) (key : List Byte) (id : Nat) : Session :=
  { id := w32 id, key := key, till := w.dev.clock.tb + w64 ((wordAt (pktBody q.pkt) 4).toNat * 1000000000), accepted := 0,
    mac := BitVec.ofNat 8 (match q.pkt.src with | .eth m _ => m.val | _ => 0) }

theorem sessions_deliver {r : Reply} : (w.deliver k r).dev.images = w.dev.images ∧ (w.deliver k r).dev.stoker.sources = w.dev.stoker.sources := by
  simp only [W.deliver, W.upd]
  split
  · exact ⟨rfl, rfl⟩
  · split <;> exact ⟨rfl, rfl⟩

/-- Between the new session and its reply. -/
def sessionMade (w : W) (q : Pend) (key : List Byte) (id : Nat) : W :=
  (w.upd fun d => { d with images := { d.images with
    sessions := d.images.sessions ++ [newSession w q key id],
    opens := d.images.opens.filter (fun o => decide (w.dev.clock.tb.toNat ≤ o.2.toNat + 20000000000)) ++ [(sha256 (pktBody q.pkt), w.dev.clock.tb)] } }).upd
      fun d => d.onCmdSrc (16 + id) fun _ => { expect := some 0 }

theorem sessionMade_answered {q : Pend} {key : List Byte} {id : Nat} {r : Reply} :
    let v := ((sessionMade w q key id).dropPend q).deliver k r
    v.dev.images.sessions = w.dev.images.sessions ++ [newSession w q key id] ∧ (v.dev.cmdSrc (16 + id)).expect = some 0 ∧
    q ∉ v.dev.stoker.pends := by
  intro v
  obtain ⟨images, sources⟩ := sessions_deliver (w := (sessionMade w q key id).dropPend q) (k := k) (r := r)
  refine ⟨congrArg Images.sessions images, ?_, ?_⟩
  · have source : v.dev.cmdSrc (16 + id) = (sessionMade w q key id).dev.cmdSrc (16 + id) := congrArg (fun t : Tbl CmdSource => t.getD (16 + id) {}) sources
    rw [source]
    exact congrArg CmdSource.expect (cmdSrc_onCmdSrc_self _ (16 + id) _)
  · rw [pends_deliver]
    exact fun mem => absurd rfl (bne_iff_ne.mp (List.mem_filter.mp mem).2)

theorem openSession_eq {q : Pend} {key : List Byte} : ∃ id r, id < 2 ^ 32 ∧ w.openSession q key =
    ((sessionMade ((w.cryptoUse key (pktBody q.pkt)).draw.2) q key id).dropPend q).deliver (srcKey q.pkt) r :=
  ⟨_, _, freeId_lt (Nat.mod_lt _ (by decide)), rfl⟩

theorem openSession_leaves {q : Pend} {key : List Byte} : ∃ x : Session,
    (w.openSession q key).dev.images.sessions = w.dev.images.sessions ++ [x] ∧ x.key = key ∧
    x.till = w.dev.clock.tb + w64 ((wordAt (pktBody q.pkt) 4).toNat * 1000000000) ∧ x.accepted = 0 ∧
    ((w.openSession q key).dev.cmdSrc (16 + x.id.toNat)).expect = some 0 ∧ q ∉ (w.openSession q key).dev.stoker.pends := by
  obtain ⟨id, r, low, eq⟩ := openSession_eq (w := w) (q := q) (key := key)
  rw [eq]
  obtain ⟨sessions, expect, gone⟩ := sessionMade_answered (w := (w.cryptoUse key (pktBody q.pkt)).draw.2) (k := srcKey q.pkt) (q := q)
    (key := key) (id := id) (r := r)
  refine ⟨newSession (w.cryptoUse key (pktBody q.pkt)).draw.2 q key id, sessions, rfl, rfl, rfl, ?_, gone⟩
  have whole : (w32 id).toNat = id := (BitVec.toNat_ofNat ..).trans (Nat.mod_eq_of_lt low)
  rw [show (newSession (w.cryptoUse key (pktBody q.pkt)).draw.2 q key id).id = w32 id from rfl, whole]
  exact expect

/-! The rows of sessions and attestations. -/

/-- What SESSION_OPEN_COMPLETE makes of the oldest SESSION_OPEN (R452). -/
def sessionJudged (w : W) (q : Pend) : W :=
  let b := pktBody q.pkt
  let own := w.fuse.identity.getD 0
  if w.openFields b = false then w.finish q sBadParam []
  else if sha256 (slice b 0x1A0 0x184) ≠ w.fuse.custHash then w.finish q sAuthFail []
  else if rsaOk (slice b 0x1A0 0x180) (slice b 0x320 4) (slice b 0x340 0x180) (b.take 0x340) = false then w.finish q sSignatureBad []
  else match rsaUnwrap (recModulus own) (recPrivate own) (slice b 0x20 0x180) with
    | none => w.finish q sAuthFail []
    | some k =>
      if k.length ≠ 32 then w.finish q sAuthFail []
      else if 4 ≤ w.dev.images.sessions.length then w.finish q sNoResource []
      else if w.dev.images.entropyFail then w.internal.finish q sInternalFault []
      else w.openSession q k

theorem session_row {q : Pend} {qs : List Pend} (found : s.world.pendsOf 0x0A41 0 = q :: qs) :
    exec .sessionOpenComplete s = .next (stateOf s (sessionJudged s.world q)) := by
  show execSessionOpenComplete s = _
  unfold execSessionOpenComplete run
  dsimp only
  rw [found]
  refine next_of ?_
  unfold sessionJudged
  dsimp only
  all_goals
    generalize rsaUnwrap _ _ _ = key
    cases key with
    | none => rfl
    | some k => rfl

section
variable {q : Pend} {key : List Byte}

/-- The key that a SESSION_OPEN carries, as the device unwraps it. -/
def sessionKey (w : W) (q : Pend) : Option (List Byte) :=
  rsaUnwrap (recModulus (w.fuse.identity.getD 0)) (recPrivate (w.fuse.identity.getD 0)) (slice (pktBody q.pkt) 0x20 0x180)

/-- The signing key of a SESSION_OPEN is the customer's. -/
def sessionKeyed (w : W) (q : Pend) : Prop := sha256 (slice (pktBody q.pkt) 0x1A0 0x184) = w.fuse.custHash

/-- The signature of a SESSION_OPEN holds. -/
def sessionSigned (q : Pend) : Bool :=
  rsaOk (slice (pktBody q.pkt) 0x1A0 0x180) (slice (pktBody q.pkt) 0x320 4) (slice (pktBody q.pkt) 0x340 0x180) ((pktBody q.pkt).take 0x340)

theorem judged_fields (bad : ¬ w.openFields (pktBody q.pkt) = true) : sessionJudged w q = w.finish q sBadParam [] :=
  if_pos (Bool.eq_false_iff.mpr bad)

theorem judged_key (fields : w.openFields (pktBody q.pkt) = true) (bad : ¬ sessionKeyed w q) : sessionJudged w q = w.finish q sAuthFail [] :=
  (if_neg (by simp only [fields, Bool.true_eq_false, not_false_eq_true])).trans (if_pos bad)

theorem judged_signature (fields : w.openFields (pktBody q.pkt) = true) (keyed : sessionKeyed w q) (bad : ¬ sessionSigned q = true) :
    sessionJudged w q = w.finish q sSignatureBad [] :=
  (if_neg (by simp only [fields, Bool.true_eq_false, not_false_eq_true])).trans
    ((if_neg (not_not_intro keyed)).trans (if_pos (Bool.eq_false_iff.mpr bad)))

/-- What follows the checks of a SESSION_OPEN's sender. -/
theorem judged_sender (fields : w.openFields (pktBody q.pkt) = true) (keyed : sessionKeyed w q) (signed : sessionSigned q = true) :
    sessionJudged w q = match sessionKey w q with
      | none => w.finish q sAuthFail []
      | some k =>
        if k.length ≠ 32 then w.finish q sAuthFail []
        else if 4 ≤ w.dev.images.sessions.length then w.finish q sNoResource []
        else if w.dev.images.entropyFail then w.internal.finish q sInternalFault []
        else w.openSession q k := by
  refine (if_neg (by simp only [fields, Bool.true_eq_false, not_false_eq_true])).trans
    ((if_neg (not_not_intro keyed)).trans ((if_neg (fun bad => ?_)).trans ?_))
  · rw [show rsaOk _ _ _ _ = sessionSigned q from rfl, signed] at bad
    exact Bool.noConfusion bad
  · unfold sessionKey
    generalize rsaUnwrap _ _ _ = key
    cases key <;> rfl

theorem judged_unwrap (fields : w.openFields (pktBody q.pkt) = true) (keyed : sessionKeyed w q) (signed : sessionSigned q = true)
    (bad : ∀ k, sessionKey w q = some k → k.length ≠ 32) : sessionJudged w q = w.finish q sAuthFail [] := by
  rw [judged_sender fields keyed signed]
  split
  · rfl
  · next k found => exact if_pos (bad k found)

theorem judged_room (fields : w.openFields (pktBody q.pkt) = true) (keyed : sessionKeyed w q) (signed : sessionSigned q = true)
    (found : sessionKey w q = some key) (long : key.length = 32) (full : 4 ≤ w.dev.images.sessions.length) :
    sessionJudged w q = w.finish q sNoResource [] := by
  rw [judged_sender fields keyed signed, found]
  exact (if_neg (not_not_intro long)).trans (if_pos full)

theorem judged_entropy (fields : w.openFields (pktBody q.pkt) = true) (keyed : sessionKeyed w q) (signed : sessionSigned q = true)
    (found : sessionKey w q = some key) (long : key.length = 32) (room : w.dev.images.sessions.length < 4) (fail : w.dev.images.entropyFail = true) :
    sessionJudged w q = w.internal.finish q sInternalFault [] := by
  rw [judged_sender fields keyed signed, found]
  exact (if_neg (not_not_intro long)).trans ((if_neg (Nat.not_le.mpr room)).trans (if_pos fail))

theorem judged_opens (fields : w.openFields (pktBody q.pkt) = true) (keyed : sessionKeyed w q) (signed : sessionSigned q = true)
    (found : sessionKey w q = some key) (long : key.length = 32) (room : w.dev.images.sessions.length < 4) (healthy : w.dev.images.entropyFail = false) :
    sessionJudged w q = w.openSession q key := by
  rw [judged_sender fields keyed signed, found]
  refine (if_neg (not_not_intro long)).trans ((if_neg (Nat.not_le.mpr room)).trans (if_neg ?_))
  rw [healthy]
  exact Bool.false_ne_true

theorem session_answers {qs : List Pend} {f : W → W} (found : s.world.pendsOf 0x0A41 0 = q :: qs) (same : sessionJudged s.world q = f s.world) :
    Answers .sessionOpenComplete s (Leaves s · f) :=
  ⟨_, session_row found, congrArg (stateOf s) same⟩

end

/-! Attestation. -/

/-- What ATTEST_COMPLETE makes of the oldest ATTEST (R450). -/
def attested (w : W) (q : Pend) : W :=
  let v := w.stageHead.2
  let rep := v.draw.2.report (pktBody q.pkt) w.stageHead.1
  (v.draw.2.cryptoUse (be 384 (recPrivate (w.fuse.identity.getD 0))) rep).finish q sDone (rep ++ ownSign (w.fuse.identity.getD 0) v.dev.free rep)

theorem stageHead_fuse : w.stageHead.2.fuse = w.fuse := (keeps_iff.mp keeps_stageHead).1

theorem attest_row {q : Pend} {qs : List Pend} (found : s.world.pendsOf 0x0A10 0 = q :: qs) (healthy : s.dev.images.entropyFail = false) :
    exec .attestComplete s = .next (stateOf s (attested s.world q)) := by
  have fuse : s.world.stageHead.2.fuse = s.world.fuse := stageHead_fuse
  show execAttestComplete s = _
  unfold execAttestComplete run
  dsimp only
  rw [found]
  dsimp only
  rw [if_neg (show ¬ s.world.dev.images.entropyFail = true from ne_true_of_eq_false healthy)]
  refine next_of ?_
  unfold attested
  rw [← fuse]
  generalize s.world.stageHead = r
  rfl

theorem attest_fails {q : Pend} {qs : List Pend} (found : s.world.pendsOf 0x0A10 0 = q :: qs) (fail : s.dev.images.entropyFail = true) :
    exec .attestComplete s = .next (stateOf s (s.world.internal.finish q sInternalFault [])) := by
  show execAttestComplete s = _
  unfold execAttestComplete run
  dsimp only
  rw [found]
  exact next_of (if_pos fail)

theorem attest_still (none : s.world.pendsOf 0x0A10 0 = []) : Answers .attestComplete s (Only s · id) := by
  refine ⟨_, ?_, rfl⟩
  show execAttestComplete s = _
  unfold execAttestComplete run
  dsimp only
  rw [none]
  rfl

theorem open_still (none : s.world.pendsOf 0x0A41 0 = []) : Answers .sessionOpenComplete s (Only s · id) := by
  refine ⟨_, ?_, rfl⟩
  show execSessionOpenComplete s = _
  unfold execSessionOpenComplete run
  dsimp only
  rw [none]
  rfl

/-! Times that end. -/

theorem grant_row {sid : Word32} : exec (.grantExpiry sid) s = .next (stateOf s
    (match s.dev.stoker.grants.find? (fun g => g.id == sid) with
     | some g => (s.world.upd fun d => d.advanceTb g.till.toNat).endGrant sid
     | none => s.world)) := rfl

theorem expiry_row {sid : Word32} : exec (.sessionExpiry sid) s = .next (stateOf s
    (match s.dev.images.session sid.toNat with
     | some x => (s.world.upd fun d => d.advanceTb x.till.toNat).endSession sid
     | none => s.world)) := rfl

theorem entropy_row {b : Bool} : exec (.entropyFail b) s = .next (stateOf s
    (if b then (s.world.onImg fun i => { i with entropyFail := b }).level 0x344 0 0
     else (s.world.onImg fun i => { i with entropyFail := b }).inactive 0x344)) := rfl

theorem entropy_plain : Plain 0x344 ∧ (s.world.source 0x344).isSome = true := ⟨by unfold Plain Noted; decide, rfl⟩

theorem flash_plain : Plain 0x3C5 ∧ (s.world.source 0x3C5).isSome = true := ⟨by unfold Plain Noted; decide, rfl⟩

theorem entropy_fails : Answers (.entropyFail true) s fun t => LevelDetected s t 0x344 0 0 s.dev.clock.tb ∧
    Beside s t fun d => { d with images := { d.images with entropyFail := true } } :=
  ⟨_, entropy_row, level_after (f := fun d => { d with images := { d.images with entropyFail := true } })
    (g := fun d => { d with images := { d.images with entropyFail := true } }) quiescent_world.upd (entropy_plain (s := s)).1 entropy_plain.2 rfl rfl⟩

/-- A source that ends in a calm world. -/
theorem ends_beside {f : Dev → Dev} (flue : w.dev.flue.srcs = s.dev.flue.srcs) (same : untouched w.dev = untouched (f s.dev)) :
    (stateOf s (w.inactive n)).dev.src n = { s.dev.src n with active := false } ∧
    (∀ k, k ≠ n → (stateOf s (w.inactive n)).dev.src k = s.dev.src k) ∧ Beside s (stateOf s (w.inactive n)) f := by
  have src (k : Nat) : w.dev.src k = s.dev.src k := congrArg (fun t : Tbl Src => t.getD k {}) flue
  have ended (k : Nat) : (w.inactive n).dev.src k = if k = n then { w.dev.src n with active := false } else w.dev.src k :=
    (steady_src (steady_errAuto _) k).trans (src_onSrc _ _ _ _)
  refine ⟨?_, fun k ne => ?_, beside_of_kept kept_inactive same⟩
  · rw [stateOf_dev, ended, if_pos rfl, src]
  · rw [stateOf_dev, ended, if_neg ne, src]

theorem entropy_passes : Answers (.entropyFail false) s fun t => t.dev.src 0x344 = { s.dev.src 0x344 with active := false } ∧
    (∀ k, k ≠ 0x344 → t.dev.src k = s.dev.src k) ∧ Beside s t fun d => { d with images := { d.images with entropyFail := false } } :=
  ⟨_, entropy_row, ends_beside (w := s.world.onImg fun i => { i with entropyFail := false }) rfl rfl⟩

theorem flash_failed {dev : Fin 2} {ok : Bool} (fails : (ok && s.dev.fifoOpen 26 && s.dev.fifoOpen 27) = false) :
    Answers (.flashOperationComplete dev true ok) s fun t => Detected s t 0x3C5 (w32 dev.val) 0 s.dev.clock.tb ∧ Beside s t id :=
  ⟨_, flash_fails fails, detected_raise quiescent_world (flash_plain (s := s)).1 flash_plain.2,
    beside_of_kept (kept_raise _ _ _ _ _ _) rfl⟩

/-! The statement. -/

/-- Settles O41: each end is the row's own meaning, with what it leaves read off the images, the pending commands and the sources. -/
theorem imageAndSessionEnds : Obligations.ImageAndSessionEnds := by
  unfold Obligations.ImageAndSessionEnds
  intro s dev sid d w i still
  refine ⟨fun idle => ⟨_, ?_, rfl⟩, fun busy => ⟨_, verify_row busy, imageJudged_leaves⟩, ?_, ?_, fun none => ?_, fun x found => ?_,
    entropy_fails, entropy_passes, attest_still, fun q r found fail => ⟨_, attest_fails found fail, rfl⟩,
    fun q r found healthy => ⟨_, attest_row found healthy, pends_finish, rfl⟩, open_still, fun q r found => ?_⟩
  · show execImageVerifyComplete s = _
    unfold execImageVerifyComplete run
    exact next_of (if_pos idle)
  · intro job passes crossed done alone
    refine ⟨fun open_ => ⟨_, flash_crosses open_, rfl⟩, fun shut => flash_failed ?_, flash_failed rfl, fun none open_ => ⟨_, flash_idle open_ none, rfl⟩,
      fun slot o bs key only open_ => flash_done open_ only.1 only.2 write_ended.1 write_ended.2,
      fun slot key only open_ => flash_done open_ only.1 only.2 erase_ended.1 erase_ended.2, ?_, ?_, fun j found open_ => ⟨_, flash_ends open_ found, rfl⟩⟩
    · refine Bool.eq_false_iff.mpr fun both => shut ?_
      simpa only [Bool.true_and, Bool.and_eq_true] using both
    · rintro row members key rfl only open_
      exact flash_done open_ only.1 only.2 copied_ended.1 copied_ended.2
    · rintro row members key rfl only open_
      have left : (i.jobs.erase ⟨0, .record row members, key⟩ ++ [(⟨1, .record row members, key⟩ : FlashJob)]).find?
          (fun (x : FlashJob) => x.dev == (0 : Fin 2).val) = none := by
        rw [List.find?_append, only.2]
        rfl
      exact flash_done open_ only.1 left recorded_ended.1 recorded_ended.2
  · intro mine
    refine ⟨fun no => ⟨_, grant_row, ?_⟩, fun g found => ⟨_, grant_row, ?_⟩⟩
    · rw [show s.dev.stoker.grants.find? (fun g => g.id == sid) = none from no]
      rfl
    · rw [show s.dev.stoker.grants.find? (fun g => g.id == sid) = some g from found]
      rfl
  · refine ⟨_, expiry_row, ?_⟩
    rw [show s.dev.images.session sid.toNat = _ from none]
    rfl
  · refine ⟨_, expiry_row, ?_⟩
    rw [show s.dev.images.session sid.toNat = _ from found]
    obtain ⟨clock, sessions, gone⟩ := endSession_leaves (w := s.world.upd fun d => d.advanceTb x.till.toNat) (id := sid)
    exact ⟨sessions.trans (congrArg (List.filter fun x : Session => x.id != sid) (sessions_advance _)), clock, gone, rfl⟩
  · intro b ends fields keyed signed own key
    exact ⟨fun bad => session_answers found (judged_fields bad), fun good bad => session_answers found (judged_key good bad),
      fun good key bad => session_answers found (judged_signature good key bad),
      fun good key sign bad => session_answers found (judged_unwrap good key sign bad),
      fun k good key sign unwrap long full => session_answers found (judged_room good key sign unwrap long full),
      fun k good key sign unwrap long room fail => session_answers found (judged_entropy good key sign unwrap long room fail),
      fun k good key sign unwrap long room healthy => by
        have same := judged_opens good key sign unwrap long room healthy
        obtain ⟨x, sessions, own, till, accepted, expect, gone⟩ := openSession_leaves (w := s.world) (q := q) (key := k)
        refine ⟨_, session_row found, ?_⟩
        rw [same]
        exact ⟨x, sessions, own, till, accepted, expect, gone, rfl⟩⟩

end Sys2Proof.Proofs
end

section
/-! O44: the field ports (R386, R387, R500 to R502, R507, R508, R510). -/

namespace Sys2Proof.Proofs

open Machine Laws

set_option Elab.async false

variable {s : State} {w v : W} {k n : Nat} {mac : Fin 2} {c : Fin 8}

/-! A controller that runs. -/

theorem portOn_iff : w.portOn n = true ↔ (w.dev.dom (if n < 8 then 239 else 236)).st = .on ∧
    (w.dev.dom (if n < 8 then 239 else 236)).padHold = false ∧ bitAt (w.reg 7 0 (0x400 + 8 * n)) 28 = true ∧ n ∉ w.dev.ports.stopped ∧
    w.dev.sys.mode ≠ .off ∧ w.dev.sys.mode ≠ .hold ∧ w.dev.sys.mode ≠ .doze := by
  unfold W.portOn W.portCfg
  simp only [Bool.and_eq_true, beq_iff_eq, bne_iff_ne, Bool.not_eq_true', ne_eq, List.contains_eq_mem, decide_eq_false_iff_not, and_assoc]

/-- MAC `mac` takes frames: it runs and its link is up. -/
def ethOn (w : W) (mac : Nat) : Bool := w.portOn (8 + mac) && bitAt w.dev.ports.ethUp mac

theorem ethOn_iff {mac : Nat} : ethOn w mac = true ↔ w.portOn (8 + mac) = true ∧ bitAt w.dev.ports.ethUp mac = true := Bool.and_eq_true_iff

theorem eth_still {α : Type} {x y : α} (off : ¬ ethOn w n = true) : (if w.portOn (8 + n) = false ∨ bitAt w.dev.ports.ethUp n = false then x else y) = x := by
  refine if_pos ?_
  rw [ethOn_iff, not_and_or, Bool.not_eq_true, Bool.not_eq_true] at off
  exact off

theorem eth_goes {α : Type} {x y : α} (on : ethOn w n = true) : (if w.portOn (8 + n) = false ∨ bitAt w.dev.ports.ethUp n = false then x else y) = y := by
  obtain ⟨port, up⟩ := ethOn_iff.mp on
  refine if_neg ?_
  rw [port, up]
  simp

/-- What MAC `mac` makes of a frame that has crossed (R502). -/
def ethSorted (w : W) (mac : Fin 2) (f : EthFrame) : W :=
  match f with
  | .ptp gptp domain dep path => if w.ptpTaken mac gptp domain then w.sync (w.ptpOffset dep path) 1000 else w
  | .udp port pay src =>
    if w.dev.sessionsOn mac && port == (w.dev.images.flash.rcd.session >>> 16).setWidth 16 then
      if pay.length < 16 then w else w.onPorts fun p => { p with ethIn := p.ethIn ++ [(mac.val, src, pay)] }
    else
      let (k, w) := w.fresh
      w.receive (8 + mac.val) (w.ethPacket (Config.freeBytes k 42 ++ pay))
  | .query => w
  | .other bs => w.receive (8 + mac.val) (w.ethPacket bs)

theorem receive_row {f : EthFrame} : exec (.ethFrameReceive mac f) s = .next (stateOf s
    (if s.world.portOn (8 + mac.val) = false ∨ bitAt s.world.dev.ports.ethUp mac = false then s.world
     else s.world.through (2 + 2 * mac) fun w => ethSorted w mac f)) := rfl

/-- What MAC `mac` makes of the next packet of its transmit queue (R502). -/
def ethSent (w : W) (mac : Fin 2) : W :=
  match w.transmit (8 + mac.val) with
  | (none, w) => w
  | (some ws, w) =>
    let len := fld (ws.headD 0) 0 12
    if len < 60 ∨ 1522 < len then w.dropCount (8 + mac.val) else w.onPorts fun p => { p with sent := ws }

theorem transmit_row : exec (.ethFrameTransmit mac) s = .next (stateOf s
    (if s.world.portOn (8 + mac.val) = false ∨ bitAt s.world.dev.ports.ethUp mac = false then s.world
     else s.world.through (3 + 2 * mac) fun w => ethSent w mac)) := rfl

theorem receive_takes {f : EthFrame} (on : ethOn s.world mac = true) (takes : s.dev.fifoOpen (2 + 2 * mac) = true) :
    exec (.ethFrameReceive mac f) s = .next (stateOf s (ethSorted (s.world.upd fun d => d.crossed (2 + 2 * mac)) mac f)) :=
  receive_row.trans (next_of ((eth_goes on).trans (through_open takes)))

theorem transmit_takes (on : ethOn s.world mac = true) (takes : s.dev.fifoOpen (3 + 2 * mac) = true) :
    exec (.ethFrameTransmit mac) s = .next (stateOf s (ethSent (s.world.upd fun d => d.crossed (3 + 2 * mac)) mac)) :=
  transmit_row.trans (next_of ((eth_goes on).trans (through_open takes)))

theorem receive_still {f : EthFrame} (off : ¬ (ethOn s.world mac = true ∧ s.dev.fifoOpen (2 + 2 * mac) = true)) :
    Answers (.ethFrameReceive mac f) s (Only s · id) := by
  refine ⟨stateOf s s.world, receive_row.trans (next_of ?_), rfl⟩
  by_cases on : ethOn s.world mac = true
  · exact (eth_goes on).trans (if_neg fun takes => off ⟨on, takes⟩)
  · exact eth_still on

theorem transmit_still (off : ¬ (ethOn s.world mac = true ∧ s.dev.fifoOpen (3 + 2 * mac) = true)) :
    Answers (.ethFrameTransmit mac) s (Only s · id) := by
  refine ⟨stateOf s s.world, transmit_row.trans (next_of ?_), rfl⟩
  by_cases on : ethOn s.world mac = true
  · exact (eth_goes on).trans (if_neg fun takes => off ⟨on, takes⟩)
  · exact eth_still on

/-! A sync. -/

theorem crossed_reg {t i o : Nat} : (w.upd fun d => d.crossed k).reg t i o = w.reg t i o :=
  reg_congr (w := w) (w' := w.upd fun d => d.crossed k) rfl rfl _ _ _ fun _ => rfl

theorem ptpTaken_iff {gptp : Bool} {domain : Byte} : w.ptpTaken k gptp domain = true ↔
    if gptp then w.tbSource = 3 + k ∧ domain = 0 else w.tbSource = 1 + k ∧ domain.toNat < 128 := by
  unfold W.ptpTaken
  cases gptp <;> simp

theorem ptpTaken_crossed {gptp : Bool} {domain : Byte} : (w.upd fun d => d.crossed n).ptpTaken k gptp domain = w.ptpTaken k gptp domain := by
  have source : (w.upd fun d => d.crossed n).tbSource = w.tbSource := by
    unfold W.tbSource
    rw [crossed_reg]
    rfl
  rw [W.ptpTaken, W.ptpTaken, source]

/-- A sync ends a holdover first. -/
def syncHeld (w : W) : W :=
  if w.dev.clock.holdover then (w.upd fun d => { d with clock := { d.clock with holdover := false } }).inactive 0x260 else w

theorem sync_ever {off : Int} {limit : Nat} (ever : w.dev.clock.everLocked = true) : w.sync off limit =
    let good := if off.natAbs ≤ limit then min (w.dev.clock.good + 1) 16 else 0
    let lock := w.dev.clock.locked || decide (16 ≤ good)
    let v := (syncHeld w).upd fun d => { d with clock := { d.clock with
      offset := off, lastSync := some d.clock.ivl, good := good, locked := lock, everLocked := d.clock.everLocked || lock } }
    v.fresh.2.setReg 5 0 0x38 (clampRate (Config.freeWord v.fresh.1).toInt) := by
  unfold W.sync
  dsimp only
  rw [if_neg]
  · rfl
  · rw [ever]
    exact Bool.false_ne_true

/-- What a sync leaves of the servo of a time base that has once been locked. -/
theorem sync_locked {off : Int} (ever : w.dev.clock.everLocked = true) : (w.sync off 1000).dev.clock.holdover = false ∧
    (w.sync off 1000).dev.clock.good = if off.natAbs ≤ 1000 then min (w.dev.clock.good + 1) 16 else 0 := by
  have held : (syncHeld w).dev.clock = { w.dev.clock with holdover := false } := by
    unfold syncHeld
    split
    · exact congrArg (fun d : Dev => d.clock) (kept_inactive (w := w.upd fun d => { d with clock := { d.clock with holdover := false } })).1
    · next free => rw [← Bool.eq_false_iff.mpr free]
  rw [sync_ever ever]
  generalize syncHeld w = v at held
  refine ⟨?_, ?_⟩
  · show v.dev.clock.holdover = false
    rw [held]
  · rfl

/-! A frame that is dropped. -/

/-- The registers of errors lie in the hob, hearth and Bobbin blocks. -/
theorem errReg_between {a : Nat} (low : 0x20000220 ≤ a) (high : a < 0x20070000) : errReg a = false := by
  rw [errReg, Bool.or_eq_false_iff, List.any_eq_false, List.any_eq_false]
  refine ⟨fun u mem => ?_, fun o mem => ?_⟩
  · rw [Bool.not_eq_true, List.any_eq_false]
    intro o mem'
    simp only [List.mem_cons, List.not_mem_nil, or_false] at mem'
    rw [beq_iff_eq]
    have block : (if u < 16 then blockBase 16 u else blockBase 1 0) = 0x20000000 ∨
        0x20100000 ≤ (if u < 16 then blockBase 16 u else blockBase 1 0) := by
      split
      · exact .inr (by simp [blockBase])
      · exact .inl rfl
    omega
  · simp only [List.mem_cons, List.not_mem_nil, or_false] at mem
    rw [beq_iff_eq, blockBase_eight]
    omega

theorem blockBase_seven : blockBase 7 0 = 0x20060000 := rfl

theorem drops_dropCount : ((w.dropCount n).reg 7 0 (0x404 + 8 * n)).toNat = min 65535 ((w.reg 7 0 (0x404 + 8 * n)).toNat + 1) := by
  rw [W.dropCount, reg_setReg_self, w32, BitVec.toNat_ofNat]
  omega

theorem untouched_dropCount : untouched (w.dropCount n).dev = { untouched w.dev with regs := (untouched (w.dropCount n).dev).regs } := rfl

/-- What changes the registers alone is told by them. -/
theorem regs_beside {x y d : Dev} (after : untouched x = untouched y) (alone : untouched y = { untouched d with regs := (untouched y).regs }) :
    untouched x = untouched { d with regs := x.regs } := by
  have regs : (untouched x).regs = (untouched y).regs := congrArg Dev.regs after
  rw [← regs] at alone
  exact after.trans alone

theorem rxDrop_plain : Plain 0x3C3 ∧ (s.world.source 0x3C3).isSome = true := ⟨by unfold Plain Noted; decide, rfl⟩

theorem errReg_drops (low : n < 16) : errReg (blockBase 7 0 + (0x404 + 8 * n)) = false :=
  errReg_between (by rw [blockBase_seven]; omega) (by rw [blockBase_seven]; omega)

/-- What an event leaves of a count of dropped frames. -/
theorem dropped_kept (calm : Quiescent s w) (low : n < 16) (same : untouched w.dev = untouched s.dev) (kept : Kept (w.dropCount n) v) :
    ((stateOf s v).world.reg 7 0 (0x404 + 8 * n)).toNat = min 65535 ((w.reg 7 0 (0x404 + 8 * n)).toNat + 1) ∧
    Beside s (stateOf s v) fun d => { d with regs := v.dev.regs } := by
  refine ⟨?_, regs_beside (untouched_kept kept) ?_, rfl, rfl⟩
  · rw [reg_state (kept.2.trans calm.fuse), reg_kept kept (errReg_drops low), drops_dropCount]
  · rw [← same]
    exact untouched_dropCount

theorem srcCfg_dropCount (small : k < 1024) : (w.dropCount n).srcCfg k = w.srcCfg k :=
  reg_setReg_ne _ _ _ _ _ _ _ _ (by rw [blockBase_two, blockBase_seven]; omega)

theorem dropped_detected {d0 : Word32} (calm : Quiescent s w) (plain : Plain k) (small : k < 1024) (there : (s.world.source k).isSome = true) :
    Detected s (stateOf s ((w.dropCount n).raise k d0 0)) k d0 0 w.dev.clock.tb :=
  detected_of (v := w.dropCount n) (source_congr (w := s.world) calm.fuse calm.chim k)
    ((srcCfg_dropCount small).trans (reg_congr (w := s.world) calm.fuse calm.chim _ _ _ fun _ => by rw [calm.regs]; rfl)) calm.mode
    (congrArg (fun x : Tbl Src => x.getD k {}) calm.srcs) calm.due plain there

theorem receive_drops {ws : List Word32} (none_ : fld (w.reg 7 0 (0x400 + 8 * n)) 0 12 = 0xFFF) : w.receive n ws = w.dropFrame n := if_pos none_

theorem transmit_none (none_ : fld (w.reg 7 0 (0x400 + 8 * n)) 12 12 = 0xFFF) : w.transmit n = (none, w) := if_pos none_

/-! Links and buses. -/

theorem ethLink_source : Plain (0x3C1 + mac.val) ∧ (s.world.source (0x3C1 + mac.val)).isSome = true := by
  refine ⟨?_, ?_⟩
  · unfold Plain Noted
    omega
  · fin_cases mac <;> rfl

theorem busOff_source : Plain (0x3C8 + c.val) ∧ (s.world.source (0x3C8 + c.val)).isSome = true := by
  refine ⟨?_, ?_⟩
  · unfold Plain Noted
    omega
  · fin_cases c <;> rfl

theorem i2c_source {i : Fin 4} : Plain (0x3D0 + i.val) ∧ (s.world.source (0x3D0 + i.val)).isSome = true := by
  refine ⟨?_, ?_⟩
  · unfold Plain Noted
    omega
  · fin_cases i <;> rfl

theorem linkDown_row : exec (.ethLinkDown mac) s = .next (stateOf s
    (if bitAt s.dev.ports.ethUp mac then (s.world.onPorts fun p => { p with ethUp := setBit p.ethUp mac false }).level (0x3C1 + mac.val) (w32 mac.val) 0
     else s.world)) := rfl

theorem link_goes_down (up : bitAt s.dev.ports.ethUp mac = true) : Answers (.ethLinkDown mac) s fun t =>
    LevelDetected s t (0x3C1 + mac.val) (w32 mac.val) 0 s.dev.clock.tb ∧
    Beside s t fun d => { d with ports := { d.ports with ethUp := setBit d.ports.ethUp mac false } } :=
  ⟨_, linkDown_row.trans (next_of (if_pos up)), level_after (f := fun d => { d with ports := { d.ports with ethUp := setBit d.ports.ethUp mac false } })
    (g := fun d => { d with ports := { d.ports with ethUp := setBit d.ports.ethUp mac false } }) quiescent_world.upd
    (ethLink_source (s := s)).1 ethLink_source.2 rfl rfl⟩

/-- The link of MAC `mac` is up. -/
def linkUp (w : W) (mac : Fin 2) : W := w.onPorts fun p => { p with ethUp := setBit p.ethUp mac true }

theorem linkUp_row : exec (.ethLinkUp mac) s = .next (stateOf s
    (if s.world.portOn (8 + mac.val) then
      (if (linkUp s.world mac).active (0x3C1 + mac.val) then (linkUp s.world mac).inactive (0x3C1 + mac.val) else linkUp s.world mac)
     else s.world)) := rfl

theorem link_comes_up (on : s.world.portOn (8 + mac.val) = true) : Answers (.ethLinkUp mac) s fun t =>
    (t.dev.src (0x3C1 + mac.val)).active = false ∧ t.mem = s.mem ∧
    Beside s t fun d => { d with ports := { d.ports with ethUp := setBit d.ports.ethUp mac true } } := by
  refine ⟨_, linkUp_row.trans (next_of (if_pos on)), ?_⟩
  generalize 0x3C1 + mac.val = n
  split
  · obtain ⟨off, mem, -⟩ := inactive_ended (s := s) (w := linkUp s.world mac) (k := n) rfl rfl
    exact ⟨off, mem, beside_of_kept kept_inactive rfl⟩
  · next off => exact ⟨Bool.eq_false_iff.mpr off, rfl, rfl, rfl, rfl⟩

theorem busOff_row : exec (.canBusOff c) s = .next (stateOf s
    (if s.world.portOn c then s.world.level (0x3C8 + c.val) (w32 c.val) 0 else s.world)) := rfl

theorem recovery_row : exec (.busOffRecovery c) s = .next (stateOf s
    (if s.world.active (0x3C8 + c.val) then s.world.inactive (0x3C8 + c.val) else s.world)) := rfl

theorem bus_recovers (off : s.world.active (0x3C8 + c.val) = true) : Answers (.busOffRecovery c) s fun t =>
    (t.dev.src (0x3C8 + c.val)).active = false ∧ (∀ j, j ≠ 0x3C8 + c.val → t.dev.src j = s.dev.src j) ∧ t.mem = s.mem ∧ Beside s t id := by
  refine ⟨_, recovery_row.trans (next_of (if_pos off)), ?_⟩
  generalize 0x3C8 + c.val = n
  obtain ⟨ended, mem, others⟩ := inactive_ended (s := s) (w := s.world) (k := n) rfl rfl
  exact ⟨ended, others, mem, beside_of_kept kept_inactive rfl⟩

theorem stuck_row {i : Fin 4} : exec (.i2cBusStuck i) s = .next (stateOf s
    (if s.dev.sys.mode = .off ∨ s.dev.sys.mode = .hold ∨ 22 ∈ s.dev.bobbin.stopped ∨ 23 ∈ s.dev.bobbin.stopped then s.world
     else s.world.level (0x3D0 + i.val) (w32 i.val) 0)) := rfl

/-! CAN frames. -/

/-- CAN controller `c` takes frames. -/
def canOn (w : W) (c : Nat) : Bool := w.portOn c && !w.active (0x3C8 + c)

theorem canOn_iff {c : Nat} : canOn w c = true ↔ w.portOn c = true ∧ w.active (0x3C8 + c) = false := by
  simp only [canOn, Bool.and_eq_true, Bool.not_eq_true']

/-- What CAN controller `c` makes of the next packet of its transmit queue (R507). -/
def canSent (w : W) (c : Nat) : W :=
  match w.transmit c with
  | (some ws, w) => w.onPorts fun p => { p with sent := ws }
  | (none, w) => w

theorem canReceive_row {f : CanFrame} : exec (.canFrameReceive c f) s = .next (stateOf s
    (if canOn s.world c then s.world.through 18 fun w => w.receive c (w.canPacket f) else s.world)) := rfl

theorem canTransmit_row : exec (.canFrameTransmit c) s = .next (stateOf s
    (if canOn s.world c then s.world.through 19 fun w => canSent w c else s.world)) := rfl

theorem canReceive_takes {f : CanFrame} (on : canOn s.world c = true) (takes : s.dev.fifoOpen 18 = true) : exec (.canFrameReceive c f) s =
    .next (stateOf s ((s.world.upd fun d => d.crossed 18).receive c ((s.world.upd fun d => d.crossed 18).canPacket f))) :=
  canReceive_row.trans (next_of ((if_pos on).trans (through_open takes)))

theorem canTransmit_takes (on : canOn s.world c = true) (takes : s.dev.fifoOpen 19 = true) : exec (.canFrameTransmit c) s =
    .next (stateOf s (canSent (s.world.upd fun d => d.crossed 19) c)) :=
  canTransmit_row.trans (next_of ((if_pos on).trans (through_open takes)))

theorem canReceive_still {f : CanFrame} (off : ¬ (canOn s.world c = true ∧ s.dev.fifoOpen 18 = true)) :
    Answers (.canFrameReceive c f) s (Only s · id) := by
  refine ⟨stateOf s s.world, canReceive_row.trans (next_of ?_), rfl⟩
  by_cases on : canOn s.world c = true
  · exact (if_pos on).trans (if_neg fun takes => off ⟨on, takes⟩)
  · exact if_neg on

theorem canTransmit_still (off : ¬ (canOn s.world c = true ∧ s.dev.fifoOpen 19 = true)) : Answers (.canFrameTransmit c) s (Only s · id) := by
  refine ⟨stateOf s s.world, canTransmit_row.trans (next_of ?_), rfl⟩
  by_cases on : canOn s.world c = true
  · exact (if_pos on).trans (if_neg fun takes => off ⟨on, takes⟩)
  · exact if_neg on

/-! GPIO edges. -/

/-- The lines `rs` raise their interrupts. -/
def edged (w : W) (rs : List (Nat × Nat)) : W := w.each rs fun r w => w.interrupt r.2 (51 + r.1)

theorem edged_beside {rs : List (Nat × Nat)} : ∃ cores, edged w rs = w.upd fun d => { d with cores := cores } := by
  induction rs generalizing w with
  | nil => exact ⟨_, rfl⟩
  | cons r rs ih =>
    have one : ∃ cores, w.interrupt r.2 (51 + r.1) = w.upd fun d => { d with cores := cores } := by
      unfold W.interrupt
      split <;> exact ⟨_, rfl⟩
    obtain ⟨cores, first⟩ := one
    obtain ⟨cores', rest⟩ := ih (w := w.interrupt r.2 (51 + r.1))
    refine ⟨cores', rest.trans ?_⟩
    rw [first]
    rfl

theorem bitAt_setBit_iff {m : Nat} {x : BitVec m} {i j : Nat} (low : i < m) : bitAt (setBit x i true) j = true ↔ bitAt x j = true ∨ j = i := by
  by_cases own : j = i
  · subst own
    simp only [bitAt_setBit low, or_true]
  · have same : bitAt (setBit x i true) j = bitAt x j := by
      unfold bitAt setBit
      by_cases inside : j < m
      · rw [getLsbD_setFld x true.toNat (by omega) j inside, if_neg (by omega)]
      · rw [BitVec.getLsbD_of_ge _ _ (by omega), BitVec.getLsbD_of_ge _ _ (by omega)]
    rw [same]
    simp only [own, or_false]

/-- What an interrupt of another's line leaves of core `k`, and what of its own. -/
theorem interrupt_core {j b : Nat} (told : (w.dev.core k).run = true ∧ (w.dev.seam k).mode ≠ .halted) (low : n < 64) :
    (((w.interrupt j n).dev.core k).run = true ∧ ((w.interrupt j n).dev.seam k).mode ≠ .halted) ∧
    (bitAt ((w.interrupt j n).dev.core k).ipend b = true ↔ bitAt (w.dev.core k).ipend b = true ∨ j = k ∧ b = n) := by
  have seam : (w.interrupt j n).dev.seam k = w.dev.seam k := by
    unfold W.interrupt
    split <;> rfl
  rw [seam]
  by_cases own : k = j
  · subst own
    rw [core_interrupt.1 told]
    exact ⟨told, by simp only [bitAt_setBit_iff low, true_and]⟩
  · have core : (w.interrupt j n).dev.core k = w.dev.core k := by
      unfold W.interrupt
      split
      · exact core_onCore_ne _ _ _ _ own
      · rfl
    rw [core]
    exact ⟨told, by simp only [Ne.symm own, false_and, or_false]⟩

theorem edged_core {rs : List (Nat × Nat)} {b : Nat} (told : (w.dev.core k).run = true ∧ (w.dev.seam k).mode ≠ .halted) (low : ∀ r ∈ rs, r.1 < 8) :
    bitAt ((edged w rs).dev.core k).ipend b = true ↔ bitAt (w.dev.core k).ipend b = true ∨ ∃ r ∈ rs, r.2 = k ∧ b = 51 + r.1 := by
  induction rs generalizing w with
  | nil => simp [edged, W.each]
  | cons r rs ih =>
    obtain ⟨goes, own⟩ := interrupt_core (j := r.2) (n := 51 + r.1) (b := b) told (by have := low r List.mem_cons_self; omega)
    refine (ih goes fun r mem => low r (List.mem_cons_of_mem _ mem)).trans ?_
    rw [own, List.exists_mem_cons_iff, or_assoc]

theorem mem_edgeRoutes {pin : Nat} {level : Bool} {r : Nat × Nat} : r ∈ w.edgeRoutes pin level ↔ r.1 < 8 ∧ fld (w.reg 7 0 (0x40 + 4 * r.1)) 0 7 = pin ∧
    bitAt (w.reg 7 0 (0x40 + 4 * r.1)) (if level then 7 else 8) = true ∧ fld (w.reg 7 0 (0x40 + 4 * r.1)) 9 6 = r.2 := by
  unfold W.edgeRoutes
  rw [List.mem_filterMap]
  constructor
  · rintro ⟨i, mem, found⟩
    obtain ⟨route, own⟩ := Option.ite_none_right_eq_some.mp found
    obtain rfl := Option.some.inj own
    exact ⟨List.mem_range.mp mem, route.1, route.2, rfl⟩
  · rintro ⟨low, pin, edge, core⟩
    refine ⟨r.1, List.mem_range.mpr low, ?_⟩
    dsimp only
    rw [if_pos ⟨pin, edge⟩, core]

/-- The edge of a pin, taken. -/
def edgeTaken (w : W) (pin : Fin 128) (level : Bool) : W := (w.upd fun d => d.crossed 24).onPorts fun p => { p with gpio := setBit p.gpio pin level }

/-- The lines that the edge raises. -/
def edgeLines (w : W) (pin : Nat) (level : Bool) : List (Nat × Nat) := if (w.dev.dom 239).st = .on then w.edgeRoutes pin level else []

theorem gpio_row {pin : Fin 128} {level : Bool} : exec (.gpioEdge pin level) s = .next (stateOf s
    (if s.dev.sys.mode = .off ∨ 25 ∈ s.dev.bobbin.stopped ∨ bitAt s.dev.ports.gpio pin = level then s.world
     else s.world.through 24 fun w => edged (w.onPorts fun p => { p with gpio := setBit p.gpio pin level }) (edgeLines w pin level))) := rfl

theorem mem_edgeLines {pin : Nat} {level : Bool} {r : Nat × Nat} : r ∈ edgeLines (w.upd fun d => d.crossed 24) pin level ↔
    (w.dev.dom 239).st = .on ∧ r.1 < 8 ∧ fld (w.reg 7 0 (0x40 + 4 * r.1)) 0 7 = pin ∧
    bitAt (w.reg 7 0 (0x40 + 4 * r.1)) (if level then 7 else 8) = true ∧ fld (w.reg 7 0 (0x40 + 4 * r.1)) 9 6 = r.2 := by
  unfold edgeLines
  split
  · next on =>
    rw [mem_edgeRoutes, crossed_reg]
    exact (and_iff_right on).symm
  · next off => exact ⟨fun mem => absurd mem List.not_mem_nil, fun both => absurd both.1 off⟩

theorem gpio_still {pin : Fin 128} {level : Bool} (quiet : s.dev.sys.mode = .off ∨ s.dev.fifoOpen 24 = false ∨ 25 ∈ s.dev.bobbin.stopped ∨
    bitAt s.dev.ports.gpio pin = level) : Answers (.gpioEdge pin level) s (Only s · id) := by
  refine ⟨stateOf s s.world, gpio_row.trans (next_of ?_), rfl⟩
  split
  · rfl
  · next goes =>
    refine if_neg fun open_ => goes ?_
    rw [show s.dev.fifoOpen 24 = true from open_] at quiet
    exact (quiet.imp_right fun rest => rest.resolve_left Bool.noConfusion)

theorem gpio_edge {pin : Fin 128} {level : Bool} (goes : ¬ (s.dev.sys.mode = .off ∨ s.dev.fifoOpen 24 = false ∨ 25 ∈ s.dev.bobbin.stopped ∨
    bitAt s.dev.ports.gpio pin = level)) : Answers (.gpioEdge pin level) s fun t =>
    t.dev = { s.dev.crossed 24 with out := .none, cores := t.dev.cores, ports := { s.dev.ports with gpio := setBit s.dev.ports.gpio pin level } } ∧
    t.mem = s.mem ∧ t.fuse = s.fuse ∧ t.pending = s.pending ∧
    ∀ k, (s.dev.core k).run = true → (s.dev.seam k).mode ≠ .halted → ∀ b, bitAt (t.dev.core k).ipend b = true ↔
      bitAt (s.dev.core k).ipend b = true ∨ ∃ i, ((s.dev.dom 239).st = .on ∧ i < 8 ∧ fld (s.world.reg 7 0 (0x40 + 4 * i)) 0 7 = pin.val ∧
        bitAt (s.world.reg 7 0 (0x40 + 4 * i)) (if level then 7 else 8) = true ∧ fld (s.world.reg 7 0 (0x40 + 4 * i)) 9 6 = k) ∧ b = 51 + i := by
  simp only [not_or, Bool.not_eq_false] at goes
  obtain ⟨on, open_, runs, moves⟩ := goes
  refine ⟨_, gpio_row.trans (next_of ((if_neg (by simp only [on, runs, moves, or_self, not_false_eq_true])).trans (through_open open_))), ?_, ?_, rfl, rfl,
    fun k run live b => ?_⟩
  · obtain ⟨cores, eq⟩ := edged_beside (w := edgeTaken s.world pin level) (rs := edgeLines (s.world.upd fun d => d.crossed 24) pin level)
    exact (congrArg (fun v : W => (stateOf s v).dev) eq).trans (congrArg (fun v : W => ({ s.dev.crossed 24 with
      out := .none, cores := v.dev.cores, ports := { s.dev.ports with gpio := setBit s.dev.ports.gpio pin level } } : Dev)) eq.symm)
  · obtain ⟨cores, eq⟩ := edged_beside (w := edgeTaken s.world pin level) (rs := edgeLines (s.world.upd fun d => d.crossed 24) pin level)
    exact congrArg (fun v : W => s.mem.applyAll v.ops) eq
  · refine (edged_core (w := edgeTaken s.world pin level) ⟨run, live⟩ fun r mem => (mem_edgeLines.mp mem).2.1).trans (or_congr Iff.rfl ?_)
    constructor
    · rintro ⟨⟨i, j⟩, mem, rfl, rfl⟩
      exact ⟨i, mem_edgeLines.mp mem, rfl⟩
    · rintro ⟨i, route, rfl⟩
      exact ⟨(i, k), mem_edgeLines.mpr route, rfl, rfl⟩

/-! The statement. -/

theorem canPacket_eq {f : CanFrame} : (w.upd fun d => d.crossed 18).canPacket f =
    [w32 (f.id.toNat + f.ide.toNat * 2 ^ 29 + f.fdf.toNat * 2 ^ 30 + f.brs.toNat * 2 ^ 31), w32 (min f.data.length 64),
      lo32 w.dev.clock.tb] ++ packWords (f.data.take 64) := rfl

theorem ethSorted_session {port : Half} {bs : List Byte} {src : BitVec 48}
    (session : w.dev.sessionsOn mac = true ∧ port = (w.dev.images.flash.rcd.session >>> 16).setWidth 16) :
    ethSorted w mac (.udp port bs src) = if bs.length < 16 then w else w.onPorts fun p => { p with ethIn := p.ethIn ++ [(mac.val, src, bs)] } :=
  if_pos (by rw [session.1, session.2, beq_self_eq_true]; rfl)

theorem ethSorted_datagram {port : Half} {bs : List Byte} {src : BitVec 48}
    (other : ¬ (w.dev.sessionsOn mac = true ∧ port = (w.dev.images.flash.rcd.session >>> 16).setWidth 16)) :
    ethSorted w mac (.udp port bs src) = w.fresh.2.receive (8 + mac.val) (w.fresh.2.ethPacket (Config.freeBytes w.fresh.1 42 ++ bs)) :=
  if_neg fun both => other (by rwa [Bool.and_eq_true, beq_iff_eq] at both)

/-- Settles O44: a frame is sorted where its port takes it; a drop is counted; links, buses and pins are followed. -/
theorem fieldPortFrames : Obligations.FieldPortFrames := by
  unfold Obligations.FieldPortFrames
  intro s mac c i pin level f cf gptp domain dep path port src bs d w m still on eth can rx tx got sent canRx canTx taken off ptp rxq txq drops
  have port_ (n : Nat) : on n ↔ s.world.portOn n = true := (portOn_iff (w := s.world) (n := n)).symm
  have eth_ : eth ↔ ethOn s.world mac = true := (and_congr_left' (port_ _)).trans ethOn_iff.symm
  have rx_ : rx ↔ ethOn s.world mac = true ∧ s.dev.fifoOpen (2 + 2 * mac) = true := and_congr_left' eth_
  have tx_ : tx ↔ ethOn s.world mac = true ∧ s.dev.fifoOpen (3 + 2 * mac) = true := and_congr_left' eth_
  have can_ : can ↔ canOn s.world c = true := (and_congr_left' (port_ _)).trans canOn_iff.symm
  have canRx_ : canRx ↔ canOn s.world c = true ∧ s.dev.fifoOpen 18 = true := and_congr_left' can_
  have canTx_ : canTx ↔ canOn s.world c = true ∧ s.dev.fifoOpen 19 = true := and_congr_left' can_
  have takes (f : EthFrame) (h : rx) : exec (.ethFrameReceive mac f) s = .next (stateOf s (ethSorted got mac f)) :=
    receive_takes (rx_.mp h).1 (rx_.mp h).2
  have sends (h : tx) : exec (.ethFrameTransmit mac) s = .next (stateOf s (ethSent sent mac)) := transmit_takes (tx_.mp h).1 (tx_.mp h).2
  have dropsGot (n : Nat) : fld (got.reg 7 0 (0x400 + 8 * n)) 0 12 = rxq n := congrArg (fld · 0 12) crossed_reg
  refine ⟨fun no => receive_still (mt rx_.mpr no), fun no => transmit_still (mt tx_.mpr no), fun h => ⟨_, takes .query h, rfl⟩,
    fun h no => ⟨_, takes _ h, congrArg (stateOf s) (if_neg fun yes => no ?_)⟩, fun h yes => ?_, ?_, fun h => ⟨_, takes (.other bs) h, rfl⟩,
    fun h full => ?_, fun h full => ⟨_, sends h, ?_⟩, fun v h none => ⟨_, sends h, ?_⟩, fun ws v h some => ⟨_, sends h, ?_⟩,
    fun down => ⟨stateOf s s.world, linkDown_row.trans (next_of (if_neg (by rw [down]; exact Bool.false_ne_true))), rfl⟩, link_goes_down,
    fun off => ⟨stateOf s s.world, linkUp_row.trans (next_of (if_neg (mt (port_ _).mpr off))), rfl⟩, fun on => link_comes_up ((port_ _).mp on),
    fun no => canReceive_still (mt canRx_.mpr no), fun no => canTransmit_still (mt canTx_.mpr no),
    fun h => ⟨_, canReceive_takes (canRx_.mp h).1 (canRx_.mp h).2, rfl⟩, fun h full => ?_, fun h full => ?_, fun v h none => ?_, fun ws v h some => ?_,
    fun off => ⟨stateOf s s.world, busOff_row.trans (next_of (if_neg (mt (port_ _).mpr off))), rfl⟩,
    fun on => ⟨_, busOff_row.trans (next_of (if_pos ((port_ _).mp on))), level_alone (busOff_source (s := s)).1 busOff_source.2⟩,
    fun off => ⟨stateOf s s.world, recovery_row.trans (next_of (if_neg (by rw [off]; exact Bool.false_ne_true))), rfl⟩, bus_recovers, ?_, ?_, gpio_still, gpio_edge⟩
  · rw [show got.ptpTaken mac gptp domain = s.world.ptpTaken mac gptp domain from ptpTaken_crossed] at yes
    exact ptpTaken_iff.mp yes
  · have row : exec ptp s = .next (stateOf s (got.sync off 1000)) :=
      (takes _ h).trans (next_of (if_pos (ptpTaken_crossed.trans (ptpTaken_iff.mpr yes))))
    exact ⟨_, row, rfl, fun ever => sync_locked (w := got) ever⟩
  · intro session
    refine ⟨fun h own long => ⟨_, takes _ h, ?_⟩, fun h own short => ⟨_, takes _ h, ?_⟩, fun h other => ⟨_, takes _ h, ?_⟩⟩
    · rw [ethSorted_session (w := got) own, if_neg (Nat.not_lt.mpr long)]
      rfl
    · rw [ethSorted_session (w := got) own, if_pos short]
      rfl
    · rw [ethSorted_datagram (w := got) other]
      rfl
  · have row : exec (.ethFrameReceive mac (.other bs)) s = .next (stateOf s ((got.dropCount (8 + mac.val)).raise 0x3C3 (w32 mac.val) 0)) := by
      refine (takes _ h).trans (next_of ((receive_drops ((dropsGot _).trans full)).trans ((if_neg (by omega)).trans ?_)))
      rw [Nat.add_sub_cancel_left]
    have calm : Quiescent s got := quiescent_world.upd
    have kept : Kept (got.dropCount (8 + mac.val)) ((got.dropCount (8 + mac.val)).raise 0x3C3 (w32 mac.val) 0) := kept_raise _ _ _ _ _ _
    obtain ⟨count, beside⟩ := dropped_kept calm (by omega) rfl kept
    refine ⟨_, row, ?_, dropped_detected calm (rxDrop_plain (s := s)).1 (by decide) rxDrop_plain.2, beside⟩
    rw [show got.reg 7 0 (0x404 + 8 * (8 + mac.val)) = s.world.reg 7 0 (0x404 + 8 * (8 + mac.val)) from crossed_reg] at count
    exact count
  · have none_ : sent.transmit (8 + mac.val) = (none, sent) := transmit_none ((congrArg (fld · 12 12) crossed_reg).trans full)
    unfold ethSent
    rw [none_]
    rfl
  · unfold ethSent
    rw [none]
    rfl
  · unfold ethSent
    rw [some]
    refine congrArg (stateOf s) (?_ : (if fld (ws.headD 0) 0 12 < 60 ∨ 1522 < fld (ws.headD 0) 0 12 then _ else _) =
      if 60 ≤ fld (ws.headD 0) 0 12 ∧ fld (ws.headD 0) 0 12 ≤ 1522 then _ else _)
    generalize fld (ws.headD 0) 0 12 = len
    by_cases fits : 60 ≤ len ∧ len ≤ 1522
    · rw [if_pos fits, if_neg (by omega)]
    · rw [if_neg fits, if_pos (by omega)]
  · have full' : fld ((s.world.upd fun d => d.crossed 18).reg 7 0 (0x400 + 8 * c.val)) 0 12 = 0xFFF := (congrArg (fld · 0 12) crossed_reg).trans full
    refine ⟨_, (canReceive_takes (canRx_.mp h).1 (canRx_.mp h).2).trans (next_of ((receive_drops full').trans (if_pos (by omega)))), ?_, rfl, rfl⟩
    show ((stateOf s ((s.world.upd fun d => d.crossed 18).dropCount c.val)).world.reg 7 0 _).toNat = _
    rw [reg_state rfl, drops_dropCount, crossed_reg]
  · have full' : fld ((s.world.upd fun d => d.crossed 19).reg 7 0 (0x400 + 8 * c.val)) 12 12 = 0xFFF := (congrArg (fld · 12 12) crossed_reg).trans full
    refine ⟨_, canTransmit_takes (canTx_.mp h).1 (canTx_.mp h).2, ?_⟩
    unfold canSent
    rw [transmit_none full']
    rfl
  · refine ⟨_, canTransmit_takes (canTx_.mp h).1 (canTx_.mp h).2, ?_⟩
    unfold canSent
    rw [none]
    rfl
  · refine ⟨_, canTransmit_takes (canTx_.mp h).1 (canTx_.mp h).2, ?_⟩
    unfold canSent
    rw [some]
    rfl
  · intro no
    refine ⟨stateOf s s.world, stuck_row.trans (next_of (if_pos ?_)), rfl⟩
    by_contra runs
    simp only [not_or] at runs
    exact no runs
  · rintro ⟨off, hold, first, second⟩
    exact ⟨_, stuck_row.trans (next_of (if_neg (by simp only [not_or]; exact ⟨off, hold, first, second⟩))),
      level_alone (i2c_source (s := s)).1 i2c_source.2⟩

end Sys2Proof.Proofs
end

section
/-! What an event leaves where no cutover stands and no trace stream is on: nothing waits behind it, and a TRIP stands in the history. -/

namespace Sys2Proof.Proofs

open Machine Laws

set_option Elab.async false

variable {s : State} {a b w v : W} {h k n g : Nat} {r : Rec} {grp : List Nat} {d0 d1 : Word32} {test : Bool}

/-- The events that wait, the history and the cutover. -/
def loneView (w : W) : List (Nat × Word32 × Word32) × List Rec × Option Cutover := (w.due, w.dev.flue.hist, w.dev.images.cut)

theorem loneView_ite {p : Prop} [Decidable p] (same : loneView v = loneView w) : loneView (if p then v else w) = loneView w := by
  split
  · exact same
  · rfl

theorem loneView_restartOut : loneView (w.restartOut h) = loneView w := by
  unfold W.restartOut
  dsimp only
  split <;> rfl

theorem loneView_forceCh : loneView (w.forceCh n) = loneView w := by
  unfold W.forceCh
  dsimp only
  split <;> rfl

theorem loneView_forceEach {l : List Nat} {f : Nat → Nat} : loneView (w.each l fun i w => w.forceCh (f i)) = loneView w :=
  each_same (g := loneView) fun _ _ => loneView_forceCh

theorem loneView_hearthSafe : loneView (w.hearthSafe n h) = loneView w := by
  rw [hearthSafe_eq]
  exact loneView_forceEach.trans loneView_restartOut

theorem loneView_selectGroup : loneView (w.selectGroup n h g) = loneView w := by
  rw [selectGroup_eq]
  exact (each_same (g := loneView) fun _ _ => loneView_ite loneView_forceCh).trans loneView_restartOut

theorem loneView_errAssert : loneView w.errAssert = loneView w := by
  obtain ⟨x, y, same⟩ := replied_finishAll (w := w.upd fun d =>
    { d with flue := { d.flue with errPin := true, errAt := d.clock.ivl, errRel := false, errCnt := satInc d.flue.errCnt } })
    (opc := 0x0704) (key := 0) (status := sDone) (bs := le 4 0)
  exact (congrArg loneView same).trans rfl

/-- The history and the cutover. -/
def loneDev (d : Dev) : List Rec × Option Cutover := (d.flue.hist, d.images.cut)

theorem foldl_same {α β : Type} {g : Dev → β} {xs : List α} {f : Dev → α → Dev} {d : Dev} (same : ∀ d x, g (f d x) = g d) :
    g (xs.foldl f d) = g d := by
  induction xs generalizing d with
  | nil => rfl
  | cons x xs ih => exact (ih (d := f d x)).trans (same d x)

theorem loneView_dozeUp : loneView w.dozeUp = loneView w := by
  unfold W.dozeUp
  dsimp only
  generalize List.range 17 = hobs
  generalize List.range 64 = cores
  generalize List.range 241 = doms
  refine (each_same (g := loneView) fun n v => ?_).trans (?_ : loneView (w.upd _) = _)
  · split
    · rfl
    · unfold W.domainUp loneView
      dsimp only [W.upd]
      split <;> rfl
  · have hob (d : Dev) := foldl_same (g := loneDev) (f := fun (d : Dev) h => d.onHob h fun x => { x with power := if h = 16 then .awake else .ret55 })
      (fun _ _ => rfl) (xs := hobs) (d := d)
    have core (d : Dev) := foldl_same (g := loneDev) (f := fun (d : Dev) k => d.onCore k fun x => { x with wait := .awake })
      (fun _ _ => rfl) (xs := cores) (d := d)
    exact congrArg (fun x : List Rec × Option Cutover => (w.due, x.1, x.2)) ((core _).trans (hob w.dev))

theorem loneView_startCore : loneView (w.startCore k) = loneView w := by
  unfold W.startCore
  split
  · rfl
  · dsimp only
    split <;> rfl

theorem loneView_startCores : loneView w.startCores = loneView w :=
  each_same (g := loneView) fun _ _ => loneView_ite loneView_startCore

theorem enterSafe_lone (cut : w.dev.images.cut = none) : w.enterSafe.1 = false ∧ loneView w.enterSafe.2 = loneView w := by
  have still : w.cutoverSafe = (false, w) := by
    unfold W.cutoverSafe
    rw [cut]
  unfold W.enterSafe
  split
  · exact ⟨rfl, rfl⟩
  · rw [still]
    refine ⟨rfl, loneView_startCores.trans ?_⟩
    dsimp only
    split
    · exact loneView_dozeUp
    · rfl

theorem deviceSafe_lone (cut : w.dev.images.cut = none) : (w.deviceSafe n).1 = false ∧ loneView (w.deviceSafe n).2 = loneView w := by
  have entered : loneView (if w.dev.sys.mode.trippable = true then w.enterSafe.2 else w) = loneView w := loneView_ite (enterSafe_lone cut).2
  have held (v : W) : loneView (safeHeld v n) = loneView v := by
    have rest := safeHeld_rest (w := v) (n := n)
    exact congrArg (fun x : List Rec × Option Cutover => (v.due, x.1, x.2)) (congrArg (fun d : Dev => (d.flue.hist, d.images.cut)) rest :)
  refine ⟨?_, ?_⟩
  · unfold W.deviceSafe
    dsimp only
    split
    · exact (enterSafe_lone cut).1
    · rfl
  · rw [deviceSafe_eq]
    exact loneView_forceEach.trans ((each_same (g := loneView) fun _ _ => loneView_restartOut).trans ((held _).trans entered))

/-! The reactions. -/

/-- No cutover stands, no trace stream is on, and nothing waits. -/
structure Lone (w : W) : Prop where
  cut : w.dev.images.cut = none
  trace : bitAt (w.reg 2 0 0x34) 24 = false
  due : w.due = []

theorem trace_off (off : bitAt (w.reg 2 0 0x34) 24 = false) : w.trace r = w := by
  unfold W.trace
  exact if_pos (.inl off)

theorem cutFail_none {x : Byte} (cut : w.dev.images.cut = none) : w.cutFail h x = w := by
  unfold W.cutFail W.upd
  dsimp only
  rw [cut]

/-- The history behind a record that enters it. -/
def entered (hist : List Rec) (next : Word32) (r : Rec) : List Rec := ({ r with rseq := next } :: hist).take 32

theorem react_lone (lone : Lone w) : (w.react n r grp).1 = false ∧ (w.react n r grp).2.due = [] ∧
    (w.react n r grp).2.dev.images.cut = none ∧ (w.react n r grp).2.dev.flue.hist =
      if bitAt r.react 0 && decide (2 ≤ r.sev.toNat) then entered w.dev.flue.hist w.dev.flue.histNext r else w.dev.flue.hist := by
  unfold W.react
  extract_lets h w1 w2 w3 w4 w5 w6 w7
  have first : w1.due = [] ∧ w1.dev.images.cut = none ∧ w1.dev.flue.hist =
      (if bitAt r.react 0 && decide (2 ≤ r.sev.toNat) then entered w.dev.flue.hist w.dev.flue.histNext r else w.dev.flue.hist) ∧
      bitAt (w1.reg 2 0 0x34) 24 = false := by
    simp only [w1]
    split
    · exact ⟨lone.due, lone.cut, rfl, (congrArg (bitAt · 24) (reg_congr (w := w) (w' := w.history r) rfl rfl _ _ _ fun _ => rfl)).trans lone.trace⟩
    · exact ⟨lone.due, lone.cut, rfl, lone.trace⟩
  obtain ⟨due, cut, hist, off⟩ := first
  have second : w2 = w1 := trace_off off
  have third : w3 = w1 := by
    simp only [w3, second]
    split
    · exact cutFail_none cut
    · rfl
  have s4 : loneView w4 = loneView w1 := (loneView_ite (v := w3.startDriving) (w := w3) rfl).trans (congrArg loneView third)
  have s5 : loneView w5 = loneView w4 := loneView_ite loneView_hearthSafe
  have s6 : loneView w6 = loneView w5 := loneView_ite (each_same (g := loneView) fun _ _ => loneView_selectGroup)
  have s7 : loneView w7 = loneView w6 := loneView_ite loneView_errAssert
  have s : loneView w7 = loneView w1 := ((s7.trans s6).trans s5).trans s4
  have cut7 : w7.dev.images.cut = none := (congrArg (fun x => x.2.2) s).trans cut
  have last : (if bitAt r.react 3 = true then w7.deviceSafe n else if 2 ≤ r.sev.toNat ∧ w7.dev.sys.mode = .quiet then w7.enterSafe else (false, w7)).1 = false ∧
      loneView (if bitAt r.react 3 = true then w7.deviceSafe n else
        if 2 ≤ r.sev.toNat ∧ w7.dev.sys.mode = .quiet then w7.enterSafe else (false, w7)).2 = loneView w7 := by
    split
    · exact deviceSafe_lone cut7
    · split
      · exact enterSafe_lone cut7
      · exact ⟨rfl, rfl⟩
  obtain ⟨fell, view⟩ := last
  have whole := view.trans s
  exact ⟨fell, (congrArg (fun x => x.1) whole).trans due, (congrArg (fun x => x.2.2) whole).trans cut, (congrArg (fun x => x.2.1) whole).trans hist⟩

theorem lone_noteEvent {l : Bool} (lone : Lone w) : Lone (w.noteEvent n l r) ∧ (w.noteEvent n l r).dev.flue.hist = w.dev.flue.hist ∧
    (w.noteEvent n l r).dev.flue.histNext = w.dev.flue.histNext := by
  have reg : (w.noteEvent n l r).reg 2 0 0x34 = w.reg 2 0 0x34 := by
    unfold W.noteEvent
    dsimp only
    split <;> exact reg_congr (w := w) rfl rfl _ _ _ fun _ => rfl
  have same : (w.noteEvent n l r).due = w.due ∧ (w.noteEvent n l r).dev.images.cut = w.dev.images.cut ∧
      (w.noteEvent n l r).dev.flue.hist = w.dev.flue.hist ∧ (w.noteEvent n l r).dev.flue.histNext = w.dev.flue.histNext := by
    unfold W.noteEvent
    dsimp only
    split <;> exact ⟨rfl, rfl, rfl, rfl⟩
  obtain ⟨due, cut, hist, next⟩ := same
  exact ⟨⟨cut.trans lone.cut, by rw [reg]; exact lone.trace, due.trans lone.due⟩, hist, next⟩

theorem event_lone {row : SrcRow} (lone : Lone w) (there : w.source n = some row) :
    (w.event n d0 d1 test grp).1 = false ∧ (w.event n d0 d1 test grp).2.due = [] ∧ (w.event n d0 d1 test grp).2.dev.images.cut = none ∧
    (w.event n d0 d1 test grp).2.dev.flue.hist =
      if bitAt (w.eventRec n d0 d1 test).react 0 && decide (2 ≤ (w.eventRec n d0 d1 test).sev.toNat) then
        entered w.dev.flue.hist w.dev.flue.histNext (w.eventRec n d0 d1 test) else w.dev.flue.hist := by
  obtain ⟨noted, hist, next⟩ := lone_noteEvent (n := n) (r := w.eventRec n d0 d1 test) (l := row.level) lone
  have eq : w.event n d0 d1 test grp = (w.noteEvent n row.level (w.eventRec n d0 d1 test)).react n (w.eventRec n d0 d1 test) grp := by
    unfold W.event
    rw [there]
  rw [eq, ← hist, ← next]
  exact react_lone noted

/-- Where nothing waits, an event is followed by the look at the pool alone. -/
theorem raise_lone {row : SrcRow} (lone : Lone w) (there : w.source n = some row) :
    w.raise n d0 d1 test grp = (w.event n d0 d1 test grp).2.poolCheck := by
  obtain ⟨fell, due, -, -⟩ := event_lone (d0 := d0) (d1 := d1) (test := test) (grp := grp) lone there
  have idle (v : W) (none_ : v.due = []) : v.drainOnce = v := by
    unfold W.drainOnce
    rw [none_]
    show ({ v with due := [] } : W) = v
    rw [← none_]
  unfold W.raise W.followUp W.fellBack W.settle W.drainDue
  rw [fell]
  rw [if_neg Bool.false_ne_true, idle _ due, idle _ due]

theorem loneView_errAuto : loneView w.errAuto = loneView w := by
  refine loneView_ite ?_
  obtain ⟨x, y, same⟩ := replied_finishAll (w := w.upd fun d => { d with flue := { d.flue with errPin := false, errRel := false } })
    (opc := 0x0704) (key := 0) (status := sDone) (bs := le 4 1)
  exact (congrArg loneView same).trans rfl

/-- A record at the head of the history stays in it behind the look at the pool. -/
theorem hist_poolCheck {q : Rec} {rest : List Rec} (lone : Lone w) (head : w.dev.flue.hist = q :: rest) : q ∈ w.poolCheck.dev.flue.hist := by
  have first : q ∈ w.dev.flue.hist := head ▸ List.mem_cons_self
  unfold W.poolCheck
  dsimp only
  split
  · rcases there : w.source 0x2C3 with _ | row
    · rw [event_none _ _ _ _ _ _ there]
      exact first
    · rw [(event_lone lone there).2.2.2]
      split
      · rw [entered, head]
        exact List.mem_cons_of_mem _ List.mem_cons_self
      · exact first
  · split
    · have same : (w.upd fun d => d.onSrc 0x2C3 fun x => { x with active := false }).errAuto.dev.flue.hist = w.dev.flue.hist :=
        congrArg (fun x => x.2.1) loneView_errAuto
      rw [same]
      exact first
    · exact first

theorem event_stays_lone {row : SrcRow} (lone : Lone w) (there : w.source n = some row) : Lone (w.event n d0 d1 test grp).2 := by
  obtain ⟨-, due, cut, -⟩ := event_lone (d0 := d0) (d1 := d1) (test := test) (grp := grp) lone there
  refine ⟨cut, ?_, due⟩
  rw [reg_kept (kept_event w n d0 d1 test grp) (by decide)]
  exact lone.trace

/-- A TRIP of an event enters the history (R291). -/
theorem trip_recorded {row : SrcRow} (lone : Lone w) (there : w.source n = some row) (noted : bitAt (w.eventRec n d0 d1 test).react 0 = true)
    (trip : 2 ≤ (w.eventRec n d0 d1 test).sev.toNat) :
    ∃ q ∈ (w.raise n d0 d1 test grp).dev.flue.hist, { q with rseq := 0 } = w.eventRec n d0 d1 test := by
  obtain ⟨-, -, -, hist⟩ := event_lone (d0 := d0) (d1 := d1) (test := test) (grp := grp) lone there
  rw [if_pos (by rw [noted, decide_eq_true trip]; rfl), entered, List.take_succ_cons] at hist
  refine ⟨{ w.eventRec n d0 d1 test with rseq := w.dev.flue.histNext }, ?_, rfl⟩
  rw [raise_lone lone there]
  exact hist_poolCheck (event_stays_lone lone there) hist

/-- The entry of a source behind its event. -/
theorem src_raise_lone {row : SrcRow} (lone : Lone w) (there : w.source n = some row) (pool : n ≠ 0x2C3) :
    (w.raise n d0 d1 test grp).dev.src n = (w.dev.src n).after row.level (w.eventRec n d0 d1 test) := by
  rw [raise_lone lone there, src_poolCheck _ _ pool, src_event _ _ _ _ _ _ _ row there, if_pos rfl]

end Sys2Proof.Proofs
end

section
/-! O26: what a detected fault does (R235, R271, R273, R291). -/

namespace Sys2Proof.Proofs

open Machine Laws

set_option Elab.async false

variable {s : State} {a b w v : W} {h k n g : Nat} {r : Rec} {grp : List Nat} {d0 d1 : Word32} {row : SrcRow}

/-! The sources. -/

/-- A row of the plain list names a hearth of the device, or none. -/
theorem rows_hearth : ∀ r ∈ srcRows0 ++ srcRows1 ++ srcRows2, r.per = 0 ∨ r.per ≠ 8 ∧ 0 < r.per ∧ r.n ≤ 16 * r.per := by decide

theorem rows_loop : ∀ r ∈ srcRows0 ++ srcRows1 ++ srcRows2, r.lo < 0x220 → 0x210 < r.lo + r.n → r.level = false := by decide

/-- Where the row of a source comes from, as far as its hearth goes. -/
theorem row_shape {v : SrcView} (there : sourceRow v n = some row) : row.per = 0 ∨ row.per = 8 ∧ 0x100 ≤ n ∧ n < 0x180 ∨
    row ∈ srcRows0 ++ srcRows1 ++ srcRows2 ∧ row.lo ≤ n ∧ n < row.lo + row.n := by
  unfold sourceRow at there
  split at there
  · next lanes =>
    obtain ⟨r, -, rfl⟩ := Option.map_eq_some_iff.mp there
    by_cases high : n ≥ 0x180
    · exact .inl (if_pos high)
    · exact .inr (.inl ⟨if_neg high, lanes.1, Nat.lt_of_not_le high⟩)
  · split at there
    · split at there
      · obtain ⟨r, -, rfl⟩ := Option.map_eq_some_iff.mp there
        exact .inl rfl
      · cases there
    · split at there
      · split at there
        · cases there
        · obtain rfl := Option.some.inj there
          exact .inl rfl
      · split at there
        · split at there
          · obtain rfl := Option.some.inj there
            exact .inl rfl
          · cases there
        · split at there
          · split at there
            · cases there
            · obtain rfl := Option.some.inj there
              exact .inl rfl
          · have inside : row.lo ≤ n ∧ n < row.lo + row.n := by simpa using List.find?_some there
            exact .inr (.inr ⟨List.mem_of_find?_eq_some there, inside⟩)

theorem row_hearth {v : SrcView} {x : Nat} (there : sourceRow v n = some row) (own : row.hearth n = some x) : x < 16 := by
  unfold SrcRow.hearth at own
  rcases row_shape there with per | ⟨per, low, high⟩ | ⟨mem, low, high⟩
  · rw [if_pos per] at own
    cases own
  · rw [per, if_neg (by decide), if_pos rfl] at own
    obtain rfl := Option.some.inj own
    omega
  · rcases rows_hearth row mem with per | ⟨other, pos, few⟩
    · rw [if_pos per] at own
      cases own
    · rw [if_neg (by omega), if_neg other] at own
      obtain rfl := Option.some.inj own
      exact (Nat.div_lt_iff_lt_mul pos).mpr (by omega)

theorem srcHearth_low : w.srcHearth n < 16 := by
  unfold W.srcHearth
  split
  · next h found =>
    obtain ⟨row, there, own⟩ := Option.bind_eq_some_iff.mp found
    exact row_hearth there own
  · unfold fld
    omega

/-- A loop fault is no level source. -/
theorem loop_level (there : w.source n = some row) (low : 0x210 ≤ n) (high : n < 0x220) : row.level = false := by
  have there' : sourceRow w.srcView n = some row := there
  unfold sourceRow at there'
  rw [if_neg (by omega), if_neg (by omega), if_neg (by omega), if_neg (by omega), if_neg (by omega)] at there'
  have inside : row.lo ≤ n ∧ n < row.lo + row.n := by simpa using List.find?_some there'
  exact rows_loop row (List.mem_of_find?_eq_some there') (by omega) (by omega)

theorem stoker_there (stoker : n = 0x1B0 ∨ 0x184 ≤ n ∧ n ≤ 0x187) : (w.source n).isSome = true := by
  have : n = 0x1B0 ∨ n = 0x184 ∨ n = 0x185 ∨ n = 0x186 ∨ n = 0x187 := by omega
  rcases this with rfl | rfl | rfl | rfl | rfl <;> rfl

/-! The row. -/

/-- The groups that a loop fault names besides those of its configuration. -/
def loopGroups (n : Nat) (d0 : Word32) : List Nat :=
  if 0x210 ≤ n ∧ n < 0x220 then (if bitAt d0 16 then List.range 16 else [fld d0 12 4]) else []

theorem fault_none {src : SourceId} (none_ : s.world.source src = none) : Answers (.faultDetection src d0 d1) s (Only s · id) := by
  refine ⟨stateOf s s.world, ?_, rfl⟩
  show execFaultDetection src d0 d1 s = _
  unfold execFaultDetection run
  dsimp only
  rw [none_]
  rfl

theorem fault_row {src : SourceId} (there : s.world.source src = some row) (bellows : ¬ (0x240 ≤ src.val ∧ src.val < 0x250))
    (stoker : ¬ (src.val = 0x1B0 ∨ 0x184 ≤ src.val ∧ src.val ≤ 0x187)) : exec (.faultDetection src d0 d1) s = .next (stateOf s
      (if row.level = true ∧ s.world.active src = true then s.world else s.world.raise src d0 d1 false (loopGroups src d0))) := by
  show execFaultDetection src d0 d1 s = _
  unfold execFaultDetection run loopGroups
  dsimp only
  rw [there]
  dsimp only
  rw [if_neg bellows, if_neg stoker]
  refine next_of ?_
  by_cases loop : 0x210 ≤ src.val ∧ src.val < 0x220
  · rw [if_pos loop, if_pos loop, loop_level there loop.1 loop.2]
    exact (if_neg fun both : false = true ∧ _ => Bool.false_ne_true both.1).symm
  · rw [if_neg loop, if_neg loop]
    unfold W.level
    by_cases level : row.level = true
    · rw [if_pos level]
      exact if_congr (by simp only [level, true_and]) rfl rfl
    · rw [if_neg level, if_neg fun both => level both.1]

theorem fault_stoker {src : SourceId} (stoker : src.val = 0x1B0 ∨ 0x184 ≤ src.val ∧ src.val ≤ 0x187) : exec (.faultDetection src d0 d1) s =
    .next (stateOf s (if (s.world.level src d0 d1).dev.stoker.restarting then s.world.level src d0 d1 else (s.world.level src d0 d1).stokerDown)) := by
  obtain ⟨row, there⟩ := Option.isSome_iff_exists.mp (stoker_there (w := s.world) stoker)
  show execFaultDetection src d0 d1 s = _
  unfold execFaultDetection run
  dsimp only
  rw [there]
  dsimp only
  rw [if_neg (by omega), if_pos stoker]
  rfl

theorem fault_bellows {src : SourceId} {k : Nat} (low : k < 16) (own : src.val = 0x240 + k) (there : s.world.source src ≠ none) :
    exec (.faultDetection src d0 d1) s = .next (stateOf s (s.world.bellowsCheck k d0 d1)) := by
  obtain ⟨row, there⟩ := Option.ne_none_iff_exists'.mp there
  show execFaultDetection src d0 d1 s = _
  unfold execFaultDetection run
  dsimp only
  rw [there]
  dsimp only
  rw [if_pos (by omega), own, Nat.add_sub_cancel_left]
  rfl

/-! A detection. -/

theorem lone_world (cut : s.dev.images.cut = none) (trace : bitAt (s.world.reg 2 0 0x34) 24 = false) : Lone s.world := ⟨cut, trace, rfl⟩

/-- What the reactions of an event of source `n` leave (R273, R291). -/
def Reacted (s t : State) (n : Nat) (d0 : Word32) (r : Rec) : Prop :=
  let w := s.world
  let forced := fun (t : State) (k : Nat) => (t.dev.damper k).st = .forced ∨ (t.dev.damper k).st = .fault
  let h := w.srcHearth n
  Beside s t id ∧
  (bitAt r.react 0 = true → 2 ≤ r.sev.toNat → s.dev.images.cut = none ∧ bitAt (w.reg 2 0 0x34) 24 = false →
    ∃ q ∈ t.dev.flue.hist, { q with rseq := 0 } = r) ∧
  (bitAt r.react 1 = true → (∀ i, i < 4 → forced t (4 * h + i)) ∧ (t.dev.blw h).all = true ∧
    ∃ x, t.dev.flue.holds.get? h = some x ∧ n ∈ x.srcs) ∧
  (bitAt r.react 2 = true → ∀ g, g < 16 → (fld (w.srcCfg n) 16 16).testBit g = true ∨
      0x210 ≤ n ∧ n < 0x220 ∧ (bitAt d0 16 = true ∨ fld d0 12 4 = g) →
    (∃ x, t.dev.flue.sels.get? (16 * h + g) = some x ∧ n ∈ x.srcs) ∧
    ∀ i, i < 4 → bitAt (w.reg 6 0 (0x2000 + 4 * (4 * h + i))) 20 = true → fld (w.reg 6 0 (0x2000 + 4 * (4 * h + i))) 16 4 = g →
      forced t (4 * h + i)) ∧
  (bitAt r.react 3 = true → (∀ k, k < 64 → forced t k) ∧ (∀ k, k < 16 → (t.dev.blw k).all = true) ∧
    t.dev.flue.devHold = true ∧ n ∈ t.dev.flue.tripSet ∧
    t.dev.sys.mode = if s.dev.sys.mode.trippable ∧ s.dev.sys.resetArmed = false then .safe else s.dev.sys.mode) ∧
  (bitAt r.react 4 = true → fld (w.reg 2 0 0x30) 0 14 ≠ 0 → t.dev.flue.errPin = true)

theorem mem_loopGroups (low : g < 16) (sel : 0x210 ≤ n ∧ n < 0x220 ∧ (bitAt d0 16 = true ∨ fld d0 12 4 = g)) : g ∈ loopGroups n d0 := by
  obtain ⟨first, last, named⟩ := sel
  unfold loopGroups
  rw [if_pos ⟨first, last⟩]
  split
  · exact List.mem_range.mpr low
  · next one => exact List.mem_singleton.mpr (named.resolve_left one).symm

theorem raise_reacted (small : n < 1024) (there : s.world.source n = some row) :
    Reacted s (stateOf s (s.world.raise n d0 d1 false (loopGroups n d0))) n d0 (s.world.eventRec n d0 d1 false) := by
  have kept : Kept s.world (s.world.raise n d0 d1 false (loopGroups n d0)) := kept_raise _ _ _ _ _ _
  have trips := fun lone : s.dev.images.cut = none ∧ bitAt (s.world.reg 2 0 0x34) 24 = false =>
    trip_recorded (n := n) (d0 := d0) (d1 := d1) (test := false) (grp := loopGroups n d0) (lone_world lone.1 lone.2) there
  have done := raise_done (d0 := d0) (d1 := d1) (test := false) (grp := loopGroups n d0) small srcHearth_low there
  generalize s.world.raise n d0 d1 false (loopGroups n d0) = v at kept trips done ⊢
  generalize s.world.eventRec n d0 d1 false = r at trips done ⊢
  obtain ⟨hearth, group, device, pin⟩ := done
  refine ⟨beside_of_kept kept rfl, fun log trip lone => trips lone log trip, fun on => hearth on,
    fun on g low sel => ?_, fun on => ?_, fun on time => (pin on time).1⟩
  · obtain ⟨held, grip⟩ := group on g low (sel.imp_right fun loop => mem_loopGroups low loop)
    refine ⟨held, fun i less enabled own => grip i less ?_⟩
    exact (follows_kept (by have := srcHearth_low (w := s.world) (n := n); omega) kept).mpr ⟨enabled, own⟩
  · obtain ⟨grip, all, hold, trip, -, mode⟩ := device on
    exact ⟨grip, all, hold, trip, mode⟩

/-- The entry of a source that is detected. -/
theorem raise_detected (there : s.world.source n = some row) (pool : n ≠ 0x2C3)
    (lone : 0x1C0 ≤ n ∧ n < 0x1F2 ∨ 0x2C0 ≤ n ∧ n < 0x2C7 ∨ n = 0x342 → s.dev.images.cut = none ∧ bitAt (s.world.reg 2 0 0x34) 24 = false) :
    Detected s (stateOf s (s.world.raise n d0 d1 false grp)) n d0 d1 s.dev.clock.tb := by
  refine ⟨row, there, ?_⟩
  by_cases apart : 0x1C0 ≤ n ∧ n < 0x1F2 ∨ 0x2C0 ≤ n ∧ n < 0x2C7 ∨ n = 0x342
  · obtain ⟨cut, trace⟩ := lone apart
    exact src_raise_lone (lone_world cut trace) there pool
  · refine src_raise _ _ _ _ _ _ row there pool (by omega) (fun noted => apart ?_) rfl
    unfold Noted at noted
    omega

/-! A failed check of a bellows. -/

theorem checked_stopOne : ((w.stopOne h).dev.blw h).checked = (w.dev.blw h).checked := by
  unfold W.stopOne
  extract_lets stopped
  have h1 : stopped.dev.blw h = { w.dev.blw h with
      phase := .stopped, expert := false, todo := [], waitIn := false, all := true, basting := false, use := ⟨[]⟩,
      chans := ⟨(w.dev.blw h).chans.rows.map fun r => (r.1, { r.2 with running := false })⟩ } := blw_onBlw_self _ _ _
  rw [blw_takeBank, blw_flushParams, h1]

/-- Bellows `h` with its check failed, stopped. -/
def checkFailed (w : W) (h : Nat) : W := (w.upd fun d => d.onBlw h fun b => { b with checked := true }).stopOne h

theorem bellowsCheck_eq : w.bellowsCheck k d0 d1 = (checkFailed w k).level (0x240 + k) d0 d1 := rfl

/-- A level source that is told where the device stands as it did, but for what no event reads. -/
theorem level_of (source : v.source n = s.world.source n) (cfg : v.srcCfg n = s.world.srcCfg n) (mode : v.dev.sys.mode = s.dev.sys.mode)
    (src : v.dev.src n = s.dev.src n) (due : v.due = []) (plain : Plain n) (there : (s.world.source n).isSome = true) :
    LevelDetected s (stateOf s (v.level n d0 d1)) n d0 d1 v.dev.clock.tb := by
  have active : v.active n = s.world.active n := congrArg Src.active src
  rw [LevelDetected, W.level, active]
  split
  · exact src
  · exact detected_of source cfg mode src due plain there

/-- Bellows `h` with its check failed, before it stops. -/
def checkNoted (w : W) (h : Nat) : W := w.upd fun d => d.onBlw h fun b => { b with checked := true }

theorem checkNoted_stands : Steady w (checkNoted w k) ∧ SameTime w (checkNoted w k) ∧ ((checkNoted w k).dev.blw k).checked = true :=
  ⟨.upd _ _ rfl, ⟨rfl, rfl, rfl⟩, congrArg Bellows.checked (blw_onBlw_self _ _ _)⟩

theorem checkFailed_stands : Kept w (checkFailed w k) ∧ SameTime w (checkFailed w k) ∧ (∀ n, (checkFailed w k).dev.src n = w.dev.src n) ∧
    ((checkFailed w k).dev.blw k).phase = .stopped ∧ ((checkFailed w k).dev.blw k).checked = true := by
  obtain ⟨noted, time, checked⟩ := checkNoted_stands (w := w) (k := k)
  rw [show checkFailed w k = (checkNoted w k).stopOne k from rfl]
  generalize checkNoted w k = v at noted time checked ⊢
  have still : Steady w (v.stopOne k) := noted.trans steady_stopOne
  exact ⟨still.kept, time.trans sameTime_stopOne, steady_src still, blw_stopOne.1, checked_stopOne.trans checked⟩

theorem bellowsCheck_leaves (own : n = 0x240 + k) (low : k < 16) (there : s.world.source n ≠ none) :
    ((stateOf s (s.world.bellowsCheck k d0 d1)).dev.blw k).phase = .stopped ∧ ((stateOf s (s.world.bellowsCheck k d0 d1)).dev.blw k).checked = true ∧
    LevelDetected s (stateOf s (s.world.bellowsCheck k d0 d1)) n d0 d1 s.dev.clock.tb := by
  have plain : Plain n := by
    unfold Plain Noted
    omega
  obtain ⟨kept, ⟨sys, clock, due⟩, src, phase, checked⟩ := checkFailed_stands (w := s.world) (k := k)
  rw [bellowsCheck_eq, ← own]
  generalize checkFailed s.world k = v at kept sys clock due src phase checked ⊢
  have found := level_of (s := s) (v := v) (n := n) (d0 := d0) (d1 := d1) (source_kept kept _) (srcCfg_kept kept (by omega)) (congrArg Sys.mode sys)
    (src n) due plain (Option.isSome_iff_ne_none.mpr there)
  rw [congrArg Clock.tb clock] at found
  have stands : Stands v (v.level n d0 d1) := .ite .refl stands_raise
  obtain ⟨phase', checked', -⟩ := stands.blw k
  exact ⟨phase'.trans phase, checked'.trans checked, found⟩

/-! A fault of the Stoker's own. -/

/-- Source `n` stands from `w` to `v`, and only events of the hobs and the Bobbin wait. -/
def SrcKept (n : Nat) (w v : W) : Prop := (∀ e ∈ w.due, Noted e.1) → v.dev.src n = w.dev.src n ∧ ∀ e ∈ v.due, Noted e.1

theorem SrcKept.refl : SrcKept n w w := fun noted => ⟨rfl, noted⟩

theorem SrcKept.trans (h : SrcKept n a b) (k : SrcKept n b v) : SrcKept n a v := fun noted => by
  obtain ⟨src, noted'⟩ := h noted
  obtain ⟨src', noted''⟩ := k noted'
  exact ⟨src'.trans src, noted''⟩

theorem SrcKept.ite {p : Prop} [Decidable p] (h : SrcKept n a b) (k : SrcKept n a v) : SrcKept n a (if p then b else v) := by
  split <;> assumption

theorem SrcKept.each {α : Type} {xs : List α} {f : α → W → W} (k : ∀ x v, SrcKept n v (f x v)) : SrcKept n w (w.each xs f) := by
  induction xs generalizing w with
  | nil => exact .refl
  | cons x xs ih => exact (k x w).trans ih

theorem SrcKept.steady (h : Steady w v) : SrcKept n w v := fun noted =>
  ⟨steady_src h n, fun e mem => (h.2.2 e mem).elim (noted e) id⟩

theorem SrcKept.upd {f : Dev → Dev} (same : ∀ d, (f d).flue = d.flue := by exact fun _ => rfl) : SrcKept n w (w.upd f) := fun noted =>
  ⟨congrArg (fun x : Flue => x.srcs.getD n {}) (same w.dev), noted⟩

theorem srcKept_raise {m : Nat} (plain : Plain n) (ne : n ≠ m) : SrcKept n w (w.raise m d0 d1) :=
  fun noted => (settles_raise (u := 0) (l := 0) (w := w) (d0 := d0) (d1 := d1) plain ne).src noted

theorem srcKept_inactive {m : Nat} (ne : n ≠ m) : SrcKept n w (w.inactive m) := by
  refine SrcKept.trans (b := w.upd fun d => d.onSrc m fun x => { x with active := false }) (fun noted => ⟨?_, noted⟩) (.steady (steady_errAuto _))
  exact src_onSrc_ne _ _ _ _ ne

theorem srcKept_settle (plain : Plain n) : SrcKept n w w.settle := by
  intro noted
  have same : (W.followUp (false, w)).dev.src n = w.dev.src n := src_followUp (x := (false, w)) plain noted
  obtain ⟨-, fell, apart⟩ := plain
  have drained := (spares_drainOnce w n fell apart noted).2
  have again := (spares_drainOnce _ n fell apart drained).2
  refine ⟨same, fun e mem => ?_⟩
  change e ∈ W.due (W.poolCheck _) at mem
  unfold W.poolCheck at mem
  dsimp only at mem
  split at mem
  · exact (due_event _ _ _ _ _ _ e mem).elim (again e) id
  · split at mem
    · exact ((steady_errAuto _).2.2 e mem).elim (again e) id
    · exact again e mem

theorem srcKept_wdtHeld (plain : Plain n) (ne : n ≠ 0x0C5) : SrcKept n w w.wdtHeld := by
  unfold W.wdtHeld
  split
  · exact .ite .refl (srcKept_raise plain ne)
  · exact .ite (srcKept_inactive ne) .refl

theorem srcKept_dropRequesters {sel : Rid → Bool} (plain : Plain n) : SrcKept n w (w.dropRequesters sel) := by
  unfold W.dropRequesters
  exact (SrcKept.each fun _ _ => .steady (steady_abortOpen _ _ _)).trans (SrcKept.trans .upd (srcKept_settle plain))

theorem srcKept_abortCommit {t i : Nat} : SrcKept n w (w.abortCommit t i) := .upd

theorem srcKept_resetCompares {c : Nat} : SrcKept n w (w.resetCompares c) := by
  unfold W.resetCompares
  dsimp only
  exact .ite srcKept_abortCommit (((SrcKept.trans .upd srcKept_abortCommit).trans srcKept_abortCommit).trans srcKept_abortCommit)

theorem srcKept_clearCore {c : Nat} : SrcKept n w (w.clearCore c) := by
  unfold W.clearCore
  exact srcKept_resetCompares.trans .upd

theorem srcKept_coreReset {c : Nat} (high : ¬ c < 64) (plain : Plain n) (ne : n ≠ 0x0C5) : SrcKept n w (w.coreReset c) := by
  unfold W.coreReset
  dsimp only
  rw [if_neg high]
  exact ((srcKept_dropRequesters plain).trans srcKept_clearCore).trans (srcKept_wdtHeld plain ne)

theorem srcKept_replied (h : Replied w v) : SrcKept n w v := by
  obtain ⟨x, y, rfl⟩ := h
  exact .upd

theorem srcKept_sliceLost {u : Nat} : SrcKept n w (w.sliceLost u 2) := by
  unfold W.sliceLost
  split
  · exact .refl
  · dsimp only
    rw [basteRec_failed (o := 2) (by decide)]
    exact (SrcKept.trans .upd .upd).trans (srcKept_replied replied_basteNowDone)

/-- The Stoker down, before its lanes are tested. -/
def stokerHalted (w : W) : W :=
  (((w.coreReset 64).upd fun d => { d with stoker := { d.stoker with serving := false, restarting := true, pends := [] } }).upd fun d =>
    d.onSeam 64 fun s => { s with mode := .halted, a := none, b := none, c := none, rethread := none }).upd fun d =>
      d.onLaneUnit 16 fun x => { x with waiting := [], retestDue := [] }

theorem stokerDown_eq : w.stokerDown = ((stokerHalted w).sliceLost 16 2).each (List.range 4) fun l w =>
    if (w.laneAt 16 l).st = .failed then w else w.laneTest 16 l .restart := rfl

theorem srcKept_stokerDown (plain : Plain n) (ne : n ≠ 0x0C5) : SrcKept n w w.stokerDown := by
  rw [stokerDown_eq]
  have halted : SrcKept n w (stokerHalted w) := (((srcKept_coreReset (by decide) plain ne).trans .upd).trans .upd).trans .upd
  exact (halted.trans srcKept_sliceLost).trans (.each fun _ _ => .ite .refl .upd)

theorem restarting_replied (h : Steady w v) : v.dev.stoker.restarting = w.dev.stoker.restarting := congrArg (fun d => d.stoker.restarting) h.kept.1

theorem restarting_sliceLost {u : Nat} : (w.sliceLost u 2).dev.stoker.restarting = w.dev.stoker.restarting := by
  unfold W.sliceLost
  split
  · rfl
  · dsimp only
    rw [basteRec_failed (o := 2) (by decide)]
    exact (restarting_replied (steady_finishAll _ _ _ _ _)).trans rfl

theorem restarting_stokerDown : w.stokerDown.dev.stoker.restarting = true := by
  rw [stokerDown_eq]
  refine (each_same (g := fun w => w.dev.stoker.restarting) fun l v => ?_).trans (restarting_sliceLost.trans rfl)
  split <;> rfl

theorem levelDetected_congr {t t' : State} {tb : Word64} (same : t'.dev.src n = t.dev.src n) (found : LevelDetected s t n d0 d1 tb) :
    LevelDetected s t' n d0 d1 tb := by
  unfold LevelDetected Detected at found ⊢
  rw [same]
  exact found

theorem falls_of (plain : Plain n) (ne : n ≠ 0x0C5) (noted : ∀ e ∈ v.due, Noted e.1)
    (found : LevelDetected s (stateOf s v) n d0 d1 s.dev.clock.tb) :
    LevelDetected s (stateOf s (if v.dev.stoker.restarting then v else v.stokerDown)) n d0 d1 s.dev.clock.tb ∧
    (stateOf s (if v.dev.stoker.restarting then v else v.stokerDown)).dev.stoker.restarting = true := by
  split
  · next on => exact ⟨found, on⟩
  · have down : SrcKept n v v.stokerDown := srcKept_stokerDown plain ne
    have restarting : v.stokerDown.dev.stoker.restarting = true := restarting_stokerDown
    generalize v.stokerDown = x at down restarting ⊢
    exact ⟨levelDetected_congr (t := stateOf s v) (t' := stateOf s x) (down noted).1 found, restarting⟩

theorem noted_level (plain : Plain n) : ∀ e ∈ (s.world.level n d0 d1).due, Noted e.1 := by
  unfold W.level
  split
  · exact fun _ mem => absurd mem List.not_mem_nil
  · exact noted_raise plain fun _ mem => absurd mem List.not_mem_nil

theorem stoker_falls (stoker : n = 0x1B0 ∨ 0x184 ≤ n ∧ n ≤ 0x187) :
    let t := stateOf s (if (s.world.level n d0 d1).dev.stoker.restarting then s.world.level n d0 d1 else (s.world.level n d0 d1).stokerDown)
    LevelDetected s t n d0 d1 s.dev.clock.tb ∧ t.dev.stoker.restarting = true := by
  have plain : Plain n := by
    unfold Plain Noted
    omega
  exact falls_of plain (by omega) (noted_level plain) (levelDetected_level (s := s) (w := s.world) (d0 := d0) (d1 := d1) quiescent_world plain (stoker_there stoker))

/-! The statement. -/

/-- Settles O26: an event's reactions have each its effect; a failed check stops its bellows first, and a fault of the Stoker's
own restarts it. -/
theorem faultReactions : Obligations.FaultReactions := by
  unfold Obligations.FaultReactions
  intro s src d0 d1 w row? alone forced h safe
  refine ⟨fun none => fault_none none, fun stoker => ⟨_, fault_stoker stoker, stoker_falls stoker⟩, fun row there bellows stoker => ?_,
    fun k low own there => ⟨_, fault_bellows low own there, bellowsCheck_leaves own low there⟩⟩
  have ran := fault_row (d0 := d0) (d1 := d1) there bellows stoker
  split
  · next on => exact ⟨_, ran.trans (next_of (if_pos on)), rfl⟩
  · next off =>
    exact ⟨_, ran.trans (next_of (if_neg off)), raise_reacted src.isLt there, fun pool lone => raise_detected there pool lone⟩

end Sys2Proof.Proofs
end

section
/-! How the Thimble changes: an update that takes no time, the records, the status page, the notices (R409, R426, R430). -/

namespace Sys2Proof.Proofs

open Machine Laws

set_option Elab.async false

variable {s : State} {w v a b : W} {x y : Thimble} {n : Nat}

/-! Time. -/

theorem beats_still {beats : Vector Word64 17} {t : Nat} : (beats.mapIdx fun h b => b + w64 (beatsTo h (t + 0) - beatsTo h t)) = beats := by
  refine Vector.ext fun i low => ?_
  rw [Vector.getElem_mapIdx, Nat.add_zero, Nat.sub_self]
  exact BitVec.add_zero _

/-- No time passes. -/
theorem advance_zero (d : Dev) (t : Thimble) : { d.advance 0 with thm := t } = { d with thm := t } := by
  have none_ {m : Nat} (b : BitVec m) : b + BitVec.ofNat m 0 = b := BitVec.add_zero _
  have beats := beats_still (beats := d.clock.beats) (t := d.clock.ivl.toNat)
  have tb : d.clock.tb + w64 0 = d.clock.tb := none_ _
  have ivl : d.clock.ivl + w64 0 = d.clock.ivl := none_ _
  have time : d.baste.time + w64 0 = d.baste.time := none_ _
  unfold Dev.advance
  dsimp only
  rw [beats, tb, ivl, time]
  cases d.sys.mode.bastes <;> rfl

/-- The cores hear of a new record (R159). -/
def recordTold (w v : W) : W :=
  if v.isM && v.dev.thm.powered && v.dev.thm.last != w.dev.thm.last then v.each (List.range 65) fun k w => w.interrupt k 59 else v

/-- The Thimble of `w` is `y`. -/
def withThm (w : W) (y : Thimble) : W := w.upd fun d => { d with thm := y }

theorem withThm_same : withThm w w.dev.thm = w := rfl

theorem withThm_withThm : withThm (withThm w x) y = withThm w y := rfl

/-- A change of the Thimble that does not lead its clock on. -/
theorem onThm_back {f : Thimble → Thimble} (time : (f w.dev.thm).time.toNat ≤ w.dev.thm.time.toNat) :
    w.onThm f = recordTold w (withThm w (f w.dev.thm)) := by
  have still : (f w.dev.thm).time.toNat - w.dev.thm.time.toNat = 0 := Nat.sub_eq_zero_of_le time
  have dev : (w.upd fun d => { d.advance ((f d.thm).time.toNat - d.thm.time.toNat) with
      thm := if (f d.thm).time.toNat - d.thm.time.toNat = 0 then f d.thm
        else { f d.thm with time := d.thm.time }.tick ((f d.thm).time.toNat - d.thm.time.toNat) }) = withThm w (f w.dev.thm) := by
    unfold withThm W.upd
    dsimp only
    rw [still, if_pos rfl, advance_zero]
  unfold W.onThm recordTold
  dsimp only
  rw [dev]
  rfl

/-- A change of the Thimble that takes no time. -/
theorem onThm_instant {f : Thimble → Thimble} (time : (f w.dev.thm).time = w.dev.thm.time) :
    w.onThm f = recordTold w (withThm w (f w.dev.thm)) := onThm_back (by rw [time])

/-- A change of the Thimble that takes no time and makes no record. -/
theorem onThm_still {f : Thimble → Thimble} (time : (f w.dev.thm).time = w.dev.thm.time) (last : (f w.dev.thm).last = w.dev.thm.last) :
    w.onThm f = withThm w (f w.dev.thm) := by
  have same : (withThm w (f w.dev.thm)).dev.thm.last = w.dev.thm.last := last
  rw [onThm_instant time, recordTold, same, bne_self_eq_false, Bool.and_false]
  rfl

/-- A change of the Thimble, seen from another world with its time and its last record. -/
theorem onThm_withThm {f : Thimble → Thimble} (time : y.time = w.dev.thm.time) (last : y.last = w.dev.thm.last) :
    (withThm w y).onThm f = w.onThm fun _ => f y := by
  unfold W.onThm
  dsimp only
  rw [show (withThm w y).dev.thm.last = w.dev.thm.last from last]
  have dev : (withThm w y).upd (fun d => { d.advance ((f d.thm).time.toNat - d.thm.time.toNat) with
      thm := if (f d.thm).time.toNat - d.thm.time.toNat = 0 then f d.thm
        else { f d.thm with time := d.thm.time }.tick ((f d.thm).time.toNat - d.thm.time.toNat) }) =
      w.upd fun d => { d.advance ((f y).time.toNat - d.thm.time.toNat) with
        thm := if (f y).time.toNat - d.thm.time.toNat = 0 then f y else { f y with time := d.thm.time }.tick ((f y).time.toNat - d.thm.time.toNat) } := by
    unfold withThm W.upd
    dsimp only
    rw [time]
    rfl
  rw [dev]
  rfl

theorem thmWords_congr {seq : Word32} (thm : v.dev.thm = w.dev.thm) (fuse : v.fuse = w.fuse) : v.thmWords seq = w.thmWords seq := by
  have on (k : Nat) : v.noticeOn k = w.noticeOn k := by
    unfold W.noticeOn W.auditLeft
    rw [thm, fuse]
  have word : v.noticeWord = w.noticeWord := congrArg (fun f => w32 (maskOf 12 f)) (funext on)
  unfold W.thmWords W.thmState
  rw [thm, fuse, word]

theorem thmPage_eq : w.thmPage = withThm w (paged w w.dev.thm) := by
  have words (seq : Word32) : (w.upd fun d => { d with thm := w.dev.thm }).thmWords seq = w.thmWords seq := thmWords_congr rfl rfl
  unfold W.thmPage paged
  dsimp only
  rw [words]
  generalize w.thmWords (w.dev.thm.pageSeq + 2) = page
  exact onThm_still (f := fun t => { t with pageSeq := t.pageSeq + 2, page := page }) rfl rfl

theorem paged_congr (fuse : v.fuse = w.fuse) : paged v y = paged w y := by
  unfold paged
  rw [thmWords_congr (w := withThm w y) (v := v.upd fun d => { d with thm := y }) rfl fuse]
  rfl

/-! What the reactions to notices leave. -/

/-- `v` and `w` differ in nothing but what the reactions to faults reach, and the fuses are the same. -/
def Alike (w v : W) : Prop := untouched v.dev = untouched w.dev ∧ v.fuse = w.fuse

theorem Alike.refl : Alike w w := ⟨rfl, rfl⟩

theorem Alike.trans (h : Alike a b) (k : Alike b v) : Alike a v := ⟨k.1.trans h.1, k.2.trans h.2⟩

theorem Alike.of_kept (h : Kept w v) : Alike w v := ⟨untouched_kept h, h.2⟩

theorem Alike.thm (h : Alike w v) : v.dev.thm = w.dev.thm := (congrArg Dev.thm h.1 :)

theorem Alike.each {α : Type} {xs : List α} {f : α → W → W} (k : ∀ i v, Alike v (f i v)) : Alike w (w.each xs f) := by
  induction xs generalizing w with
  | nil => exact .refl
  | cons i xs ih => exact (k i w).trans ih

theorem Alike.ite {p : Prop} [Decidable p] (h : Alike w a) (k : Alike w b) : Alike w (if p then a else b) := by
  split <;> assumption

theorem alike_interrupt {k i : Nat} : Alike w (w.interrupt k i) := .ite ⟨rfl, rfl⟩ .refl

theorem alike_recordTold : Alike v (recordTold w v) := .ite (.each fun _ _ => alike_interrupt) .refl

theorem Alike.withThm (h : Alike w v) : Alike (withThm w y) (withThm v y) :=
  ⟨(congrArg (fun d : Dev => { d with thm := y }) h.1 :), h.2⟩

/-- A change that takes no time, of worlds that are alike. -/
theorem alike_onThm {f : Thimble → Thimble} (h : Alike w v) (time : (f w.dev.thm).time = w.dev.thm.time) :
    Alike (Proofs.withThm w (f w.dev.thm)) (v.onThm f) := by
  rw [onThm_instant (w := v) (by rw [h.thm]; exact time), h.thm]
  exact (Alike.withThm h).trans alike_recordTold

theorem alike_thmPage (h : Alike w v) : Alike w.thmPage v.thmPage := by
  rw [thmPage_eq, thmPage_eq, h.thm, paged_congr h.2]
  exact h.withThm

theorem alike_notice {k d : Nat} : Alike w (w.notice k d) :=
  .ite (.of_kept kept_level) (.ite (.of_kept kept_inactive) .refl)

theorem alike_notices : Alike w w.notices := by
  unfold W.notices
  exact .ite .refl (((((alike_notice.trans alike_notice).trans alike_notice).trans alike_notice).trans alike_notice).trans alike_notice)

theorem alike_noticeEvent {k d : Nat} : Alike w (w.noticeEvent k d) := .ite .refl (.of_kept (kept_raise _ _ _ _ _ _))

end Sys2Proof.Proofs
end

section
/-! The records of the Thimble and the rows of its gate (R409, R410, R421, R422). -/

namespace Sys2Proof.Proofs

open Machine Laws

set_option Elab.async false

variable {s : State} {w v a b : W} {x y : Thimble} {n : Nat} {g : GateReq} {fw : FwAnswer}

/-! What records and time leave of the Thimble. -/

/-- The Thimble without its clock, its status page, its ring and the copies of a replay: what time leaves alone. -/
def untimed (t : Thimble) : Thimble :=
  { t with time := 0, live := 0, pageSeq := 0, page := [], replay := none, replayAt := 0, ring := ⟨[]⟩, ringCount := 0, table := ⟨[]⟩ }

/-- The Thimble without its records and its signing: what a record leaves alone as well. -/
def unrecorded (t : Thimble) : Thimble :=
  { untimed t with last := 0, head := [], log := [], unsigned := false, signing := none, signAt := none, signAgain := false }

theorem unrecorded_untimed (t : Thimble) : unrecorded (untimed t) = unrecorded t := rfl

theorem untimed_time (t : Thimble) {c : Word64} : untimed { t with time := c } = untimed t := rfl

theorem untimed_replayOne (t : Thimble) (r : ThmRec) : untimed (t.replayOne r) = untimed t := by
  unfold Thimble.replayOne
  dsimp only
  split
  · split <;> rfl
  · rfl

theorem untimed_copies (t : Thimble) : untimed (t.copies n) = untimed t := by
  induction n generalizing t with
  | zero => rfl
  | succ n ih =>
    unfold Thimble.copies
    split
    · rfl
    · dsimp only
      rw [ih]
      split
      · exact untimed_replayOne _ _
      · rfl

theorem untimed_replayed {c : Prop} [Decidable c] (t : Thimble) : untimed (if c then t.copies n else t) = untimed t := by
  split
  · exact untimed_copies t
  · rfl

theorem untimed_tick (t : Thimble) : untimed (t.tick n) = untimed t := by
  unfold Thimble.tick
  dsimp only
  split
  · split
    · rw [untimed_replayed]
      split <;> rfl
    · rfl
  · rfl

theorem untimed_onThm {f : Thimble → Thimble} : untimed (w.onThm f).dev.thm = untimed (f w.dev.thm) := by
  have told {v : W} : untimed (v.each (List.range 65) fun k w => w.interrupt k 59).dev.thm = untimed v.dev.thm :=
    each_same (g := fun w => untimed w.dev.thm) fun k v => congrArg untimed alike_interrupt.thm
  unfold W.onThm
  dsimp only
  have dev : untimed (w.upd fun d => { d.advance ((f d.thm).time.toNat - d.thm.time.toNat) with
      thm := if (f d.thm).time.toNat - d.thm.time.toNat = 0 then f d.thm
        else { f d.thm with time := d.thm.time }.tick ((f d.thm).time.toNat - d.thm.time.toNat) }).dev.thm = untimed (f w.dev.thm) := by
    show untimed (if _ then _ else _) = _
    split
    · rfl
    · exact untimed_tick _
  split
  · exact told.trans dev
  · exact dev

theorem startSigning_frame (t : Thimble) : unrecorded t.startSigning = unrecorded t ∧ t.startSigning.time = t.time ∧
    t.startSigning.last = t.last ∧ t.startSigning.log = t.log ∧ t.startSigning.head = t.head := by
  unfold Thimble.startSigning
  split <;> exact ⟨rfl, rfl, rfl, rfl, rfl⟩

theorem pace_frame (t : Thimble) : untimed t.pace = untimed t := by
  unfold Thimble.pace
  split
  · split
    · exact untimed_time t
    · rfl
  · rfl

theorem pace_congr (log : y.log = x.log) (time : y.time = x.time) : y.pace.time = x.pace.time := by
  unfold Thimble.pace
  rw [log, time]
  split
  · split
    · rfl
    · exact time
  · exact time

/-- The record that the engine makes of Thimble `t`, once its time has come (R410). -/
def nextRecord (t : Thimble) (ty point : Byte) (fw : Bool) (flags : BitVec 6) (ps : List Word32) : ThmRec :=
  { rnum := t.last + 1, time := t.time, batch := t.batch, ps := ps,
    info := w32 (ty.toNat + at_ point.toNat 8 + at_ t.sealOpen.toNat 16 + at_ fw.toNat 17 + at_ flags.toNat 18),
    tag := wordAt t.chain 0, prev := if ty = 1 then List.replicate 16 0 else t.head.take 16 }

/-- The log with one more record. -/
def logWith (log : List ThmRec) (r : ThmRec) : List ThmRec := (if log.length < 16384 then log else log.drop 1) ++ [r]

theorem record_full {ty point : Byte} {fw : Bool} {flags : BitVec 6} {ps : List Word32} (full : x.logFull = true) :
    x.record ty point fw flags ps = x := if_pos full

/-- The Thimble `t` with the record `r` of type `ty` in its chain, its log and its ring. -/
def recordPut (t : Thimble) (ty : Byte) (r : ThmRec) : Thimble :=
  ({ t with last := r.rnum, head := sha256 ((if ty = 1 then List.replicate 32 0 else t.head) ++ r.bytes), log := logWith t.log r }).ringPut r

/-- The signing that a record begins where one is due (R414). -/
def signedAfter (t : Thimble) : Thimble := if t.signing.isNone ∧ t.signDue then t.startSigning else t

theorem record_eq {ty point : Byte} {fw : Bool} {flags : BitVec 6} {ps : List Word32} (room : x.logFull = false) :
    x.record ty point fw flags ps =
      let p := recordPut x.pace ty (nextRecord x.pace ty point fw flags ps)
      if ty = 7 then p else signedAfter { p with unsigned := true } :=
  if_neg (ne_true_of_eq_false room)

/-- What a record leaves of the Thimble. -/
theorem record_frame {ty point : Byte} {fw : Bool} {flags : BitVec 6} {ps : List Word32} (room : x.logFull = false) :
    let r := nextRecord x.pace ty point fw flags ps
    let t := x.record ty point fw flags ps
    unrecorded t = unrecorded x ∧ t.time = x.pace.time ∧ t.last = x.last + 1 ∧ t.log = logWith x.log r ∧
    t.head = sha256 ((if ty = 1 then List.replicate 32 0 else x.head) ++ r.bytes) := by
  intro r t
  have pace := pace_frame x
  have last : x.pace.last = x.last := (congrArg Thimble.last pace :)
  have log : x.pace.log = x.log := (congrArg Thimble.log pace :)
  have head : x.pace.head = x.head := (congrArg Thimble.head pace :)
  have frame : unrecorded x.pace = unrecorded x := (congrArg unrecorded pace :)
  have put : unrecorded (recordPut x.pace ty r) = unrecorded x ∧ (recordPut x.pace ty r).time = x.pace.time ∧
      (recordPut x.pace ty r).last = x.last + 1 ∧ (recordPut x.pace ty r).log = logWith x.log r ∧
      (recordPut x.pace ty r).head = sha256 ((if ty = 1 then List.replicate 32 0 else x.head) ++ r.bytes) := by
    refine ⟨frame, rfl, congrArg (· + 1) last, ?_, ?_⟩
    · show logWith x.pace.log r = _
      rw [log]
    · show sha256 ((if ty = 1 then List.replicate 32 0 else x.pace.head) ++ r.bytes) = _
      rw [head]
  have eq : t = if ty = 7 then recordPut x.pace ty r else signedAfter { recordPut x.pace ty r with unsigned := true } := record_eq room
  rw [eq]
  split
  · exact put
  · unfold signedAfter
    split
    · obtain ⟨f, time', last', log', head'⟩ := startSigning_frame ({ recordPut x.pace ty r with unsigned := true } : Thimble)
      obtain ⟨f0, time0, last0, log0, head0⟩ := put
      exact ⟨f.trans f0, time'.trans time0, last'.trans last0, log'.trans log0, head'.trans head0⟩
    · exact put

end Sys2Proof.Proofs
end

section
/-! The rows of the Thimble's gate: a request that is not there, one that a check refuses, one that acts (R421, R422). -/

namespace Sys2Proof.Proofs

open Machine Laws

set_option Elab.async false

variable {s : State} {w v a b : W} {x y : Thimble} {n : Nat} {g : GateReq} {fw : FwAnswer} {i : Instr} {code : BitVec 4}
  {checks : GateReq → W → List (Bool × Byte)} {act : GateReq → W → W} {r : Byte} {num : Word32}

/-- The Thimble `y`, whose gate holds the request `g` with an answer. -/
def withAnswer (g : GateReq) (y : Thimble) (r : Byte) (num : Word32) : Thimble := { y with gate := some { g with answer := some (r, num) } }

/-- The command has answered the request `g` of the Thimble `y` and done nothing else. -/
def Answered (s : State) (g : GateReq) (y : Thimble) (r : Byte) (num : Word32) (t : State) : Prop :=
  Beside s t fun d => { d with thm := paged s.world (withAnswer g y r num) }

theorem answered_of (h : Alike (withThm s.world (paged s.world (withAnswer g y r num))) v) : Answered s g y r num (stateOf s v) := by
  unfold Alike withThm at h
  exact ⟨h.1, rfl, rfl⟩

/-- The answer of the request that waits. -/
theorem alike_gateAnswer (gate : v.dev.thm.gate = some g) :
    Alike (withThm v (paged v (withAnswer g v.dev.thm r num))) (v.gateAnswer r num) := by
  have waits : ({ v.dev.thm with gate := v.dev.thm.gate.map fun g => { g with answer := some (r, num) } } : Thimble) =
      withAnswer g v.dev.thm r num := by
    rw [gate]
    rfl
  have page : (v.onThm fun t => { t with gate := t.gate.map fun g => { g with answer := some (r, num) } }).thmPage =
      withThm v (paged v (withAnswer g v.dev.thm r num)) := by
    rw [onThm_still (f := fun t => { t with gate := t.gate.map fun g => { g with answer := some (r, num) } }) rfl rfl, waits, thmPage_eq]
    exact congrArg (withThm v) (paged_congr rfl)
  unfold W.gateAnswer
  rw [page]
  exact alike_notices

/-- The answer, after a change of the Thimble. -/
theorem alike_gateAnswer_withThm (gate : y.gate = some g) :
    Alike (withThm w (paged w (withAnswer g y r num))) ((withThm w y).gateAnswer r num) := by
  have paged_ : paged (withThm w y) (withAnswer g y r num) = paged w (withAnswer g y r num) := paged_congr rfl
  have answer : Alike (withThm (withThm w y) (paged (withThm w y) (withAnswer g y r num))) ((withThm w y).gateAnswer r num) :=
    alike_gateAnswer gate
  rw [paged_] at answer
  exact answer

/-! The rows. -/

/-- A request with the code waits in the gate (R421). -/
def Awaits (s : State) (g : GateReq) (code : BitVec 4) : Prop :=
  s.dev.thm.gate = some g ∧ g.code = code ∧ g.answer = none ∧ s.dev.thm.serves = true

/-- The command runs a row of the gate. -/
def Serves (s : State) (code : BitVec 4) (i : Instr) (checks : GateReq → W → List (Bool × Byte)) (act : GateReq → W → W) : Prop :=
  ∀ v, s.world.gateRow code checks act = v → v.fuse = s.fuse → exec i s = .next (stateOf s v)

theorem serves_run (h : exec i s = run s fun w => w.gateRow code checks act) : Serves s code i checks act := by
  rintro v rfl -
  exact h

theorem serves_runFuse (h : exec i s = runFuse s fun w => w.gateRow code checks act) : Serves s code i checks act := by
  rintro v same fuse
  rw [h, runFuse, same, fuse]
  rfl

theorem serves_same (h : Serves s code i checks act) (same : s.world.gateRow code checks act = s.world) : Answers i s (Only s · id) :=
  ⟨stateOf s s.world, h _ same rfl, rfl⟩

/-- No request of this code waits in the gate. -/
theorem gate_still (h : Serves s code i checks act)
    (no : s.dev.thm.gate = none ∨ (∃ g, s.dev.thm.gate = some g ∧ (g.code ≠ code ∨ g.answer ≠ none)) ∨ s.dev.thm.serves = false) :
    Answers i s (Only s · id) := by
  refine serves_same h ?_
  unfold W.gateRow
  have world : s.world.dev.thm = s.dev.thm := rfl
  rw [world]
  split
  · rfl
  · next g gate =>
    refine if_pos ?_
    rcases no with none_ | ⟨g', gate', other⟩ | down
    · exact absurd (gate.symm.trans none_) (by simp)
    · obtain rfl := Option.some.inj (gate.symm.trans gate')
      exact other.imp_right fun k => .inl (Option.isSome_iff_ne_none.mpr k)
    · exact .inr (.inr down)

/-- The row of a request that waits. -/
theorem gateRow_waiting (waits : Awaits s g code) :
    s.world.gateRow code checks act =
      match firstFail ((!(kernelCode code || s.dev.thm.fwRuns), gState) :: checks g s.world) with
      | some r => s.world.gateAnswer r 0
      | none => act g s.world := by
  obtain ⟨gate, same, none_, serves⟩ := waits
  have runs : ¬ (g.code ≠ code ∨ g.answer.isSome ∨ s.dev.thm.serves = false) := by
    rw [same, none_, serves]
    simp
  have world : s.world.dev.thm = s.dev.thm := rfl
  unfold W.gateRow
  rw [world, gate]
  exact if_neg runs

/-- A check of the row fails. -/
theorem gate_refused (h : Serves s code i checks act) (waits : Awaits s g code)
    (fails : firstFail ((!(kernelCode code || s.dev.thm.fwRuns), gState) :: checks g s.world) = some r) :
    Answers i s (Answered s g s.dev.thm r 0) := by
  have row := gateRow_waiting (checks := checks) (act := act) waits
  rw [fails] at row
  have answer := alike_gateAnswer (v := s.world) (r := r) (num := 0) waits.1
  exact ⟨_, h _ row answer.2, answered_of answer⟩

/-- Every check of the row passes. -/
theorem gate_acts (h : Serves s code i checks act) (waits : Awaits s g code)
    (pass : firstFail ((!(kernelCode code || s.dev.thm.fwRuns), gState) :: checks g s.world) = none)
    (fuse : (act g s.world).fuse = s.fuse) : exec i s = .next (stateOf s (act g s.world)) := by
  have row := gateRow_waiting (checks := checks) (act := act) waits
  rw [pass] at row
  exact h _ row fuse

/-- Every check passes, and what the row does is known. -/
theorem gate_done (h : Serves s code i checks act) (waits : Awaits s g code)
    (pass : firstFail ((!(kernelCode code || s.dev.thm.fwRuns), gState) :: checks g s.world) = none)
    (does : Alike (withThm s.world (paged s.world (withAnswer g y r num))) (act g s.world)) : Answers i s (Answered s g y r num) :=
  ⟨_, gate_acts h waits pass does.2, answered_of does⟩

/-! The firmware decides. -/

theorem fwDecides_grants (grants : fw.result = 0) : fwDecides fw act g w = act g w := by
  unfold fwDecides fwResult
  rw [grants]
  rfl

theorem fwDecides_refuses (refuses : ¬ fw.result = 0) : fwDecides fw act g w = w.gateAnswer (fwResult fw) 0 := by
  refine if_neg fun k => refuses ?_
  unfold fwResult at k
  split at k
  · exact k
  · exact absurd k (by decide)

/-- The firmware refuses a request that passes the checks. -/
theorem gate_denied (h : Serves s code i checks (fwDecides fw act)) (waits : Awaits s g code)
    (pass : firstFail ((!(kernelCode code || s.dev.thm.fwRuns), gState) :: checks g s.world) = none) (refuses : ¬ fw.result = 0) :
    Answers i s (Answered s g s.dev.thm (fwResult fw) 0) := by
  refine gate_done h waits pass ?_
  rw [fwDecides_refuses refuses]
  exact alike_gateAnswer waits.1

/-! The requests. -/

/-- The sixteen requests and their codes. -/
noncomputable def requestRows (fw : FwAnswer) : List (BitVec 4 × Instr) :=
  [(0, .gateNop), (1, .thmStart fw), (2, .thmStop fw), (3, .tare fw), (4, .zero fw),
   (5, .presetTare fw), (6, .clearTare fw), (7, .batchOpen fw), (8, .batchClose fw), (9, .signNow), (10, .recordAck),
   (11, .replay), (12, .timeMark), (13, .paramWrite fw), (14, .paramCommit fw), (15, .imageActivate)]

theorem requests_serve : ∀ q ∈ requestRows fw, ∃ checks act, Serves s q.1 q.2 checks act := by
  simp only [requestRows, List.forall_mem_cons]
  exact ⟨⟨_, _, serves_run rfl⟩, ⟨_, _, serves_run rfl⟩, ⟨_, _, serves_run rfl⟩, ⟨_, _, serves_run rfl⟩, ⟨_, _, serves_run rfl⟩,
    ⟨_, _, serves_run rfl⟩, ⟨_, _, serves_run rfl⟩, ⟨_, _, serves_run rfl⟩, ⟨_, _, serves_run rfl⟩, ⟨_, _, serves_run rfl⟩,
    ⟨_, _, serves_run rfl⟩, ⟨_, _, serves_run rfl⟩, ⟨_, _, serves_run rfl⟩, ⟨_, _, serves_run rfl⟩, ⟨_, _, serves_runFuse rfl⟩,
    ⟨_, _, serves_runFuse rfl⟩, fun _ h => absurd h List.not_mem_nil⟩

/-- The requests whose first check is that SUB is 0. -/
noncomputable def plainRequests (fw : FwAnswer) : List (BitVec 4 × Instr) :=
  [(0, .gateNop), (1, .thmStart fw), (2, .thmStop fw), (7, .batchOpen fw), (8, .batchClose fw), (9, .signNow),
   (10, .recordAck), (11, .replay), (12, .timeMark), (14, .paramCommit fw)]

theorem plain_serve : ∀ q ∈ plainRequests fw, ∃ (checks : GateReq → W → List (Bool × Byte)) (act : GateReq → W → W),
    Serves s q.1 q.2 (fun g w => sub0 g :: checks g w) act := by
  simp only [plainRequests, List.forall_mem_cons]
  exact ⟨⟨_, _, serves_run rfl⟩, ⟨_, _, serves_run rfl⟩, ⟨_, _, serves_run rfl⟩,
    ⟨fun g w => (g.arg == 0, gBad) :: (w.dev.thm.batch != 0, gState) :: w.startChecks, _, serves_run rfl⟩, ⟨_, _, serves_run rfl⟩,
    ⟨_, _, serves_run rfl⟩, ⟨_, _, serves_run rfl⟩, ⟨_, _, serves_run rfl⟩, ⟨_, _, serves_run rfl⟩, ⟨_, _, serves_runFuse rfl⟩,
    fun _ h => absurd h List.not_mem_nil⟩

/-- The requests about the tare of a point. -/
noncomputable def pointRequests (fw : FwAnswer) : List (BitVec 4 × Instr) := [(3, .tare fw), (4, .zero fw), (5, .presetTare fw), (6, .clearTare fw)]

/-- What a request about a point checks, beside that SUB names one. -/
def pointChecks (code : BitVec 4) (g : GateReq) (w : W) : List (Bool × Byte) := if code = 5 then [w.room] else [arg0 g, w.room]

theorem points_serve : ∀ q ∈ pointRequests fw, Serves s q.1 q.2 (fun g w => subPoint g :: pointChecks q.1 g w)
    (fwDecides fw fun g w => w.gateAccept 4 (eventWords g fw) (gatePoint g)) := by
  simp only [pointRequests, List.forall_mem_cons]
  exact ⟨serves_run rfl, serves_run rfl, serves_run rfl, serves_run rfl, fun _ h => absurd h List.not_mem_nil⟩

/-- The code of a request that the firmware serves. -/
theorem kernelCode_fw (h : 1 ≤ code.toNat ∧ code.toNat ≤ 8 ∨ code = 13 ∨ code = 14) : kernelCode code = false := by
  rcases h with ⟨low, high⟩ | rfl | rfl
  · have zero : code ≠ 0 := by
      rintro rfl
      exact absurd low (by decide)
    have last : code ≠ 15 := by
      rintro rfl
      exact absurd high (by decide)
    simp only [kernelCode, beq_eq_false_iff_ne.mpr zero, beq_eq_false_iff_ne.mpr last, decide_eq_false (show ¬ 9 ≤ code.toNat by omega),
      Bool.false_and, Bool.or_false]
  · rfl
  · rfl

/-- No firmware runs that could decide. -/
theorem no_firmware (h : Serves s code i checks act) (waits : Awaits s g code) (down : s.dev.thm.fwRuns = false)
    (needs : 1 ≤ code.toNat ∧ code.toNat ≤ 8 ∨ code = 13 ∨ code = 14) : Answers i s (Answered s g s.dev.thm 2 0) := by
  refine gate_refused h waits ?_
  rw [kernelCode_fw needs, down]
  rfl

/-- SUB is not 0. -/
theorem bad_sub (h : Serves s code i (fun g w => sub0 g :: checks g w) act) (waits : Awaits s g code) (runs : s.dev.thm.fwRuns = true)
    (sub : g.sub ≠ 0) : Answers i s (Answered s g s.dev.thm 1 0) := by
  refine gate_refused h waits ?_
  have bad : sub0 g = (true, gBad) := by rw [sub0, bne_iff_ne.mpr sub]
  rw [runs, Bool.or_true, bad]
  rfl

end Sys2Proof.Proofs
end

section
/-! The requests of the gate that make a record, and those that only change the Thimble (R409, R422, R423). -/

namespace Sys2Proof.Proofs

open Machine Laws

set_option Elab.async false

variable {s : State} {w v a b : W} {x y : Thimble} {n : Nat} {g : GateReq} {fw : FwAnswer} {i : Instr} {code : BitVec 4}
  {checks : GateReq → W → List (Bool × Byte)} {act : GateReq → W → W} {r ty point : Byte} {num : Word32} {ps : List Word32}

/-! A record made for a request. -/

theorem Alike.symm (h : Alike a b) : Alike b a := ⟨h.1.symm, h.2.symm⟩

theorem settle_frame (t : Thimble) : t.settle = { t with st := t.settle.st } := by
  unfold Thimble.settle
  split <;> rfl

theorem unrecorded_record {fwMade : Bool} {flags : BitVec 6} : unrecorded (x.record ty point fwMade flags ps) = unrecorded x := by
  cases full : x.logFull with
  | true => rw [record_full full]
  | false => exact (record_frame full).1

/-- A record whose time has come takes none. -/
theorem record_time {fwMade : Bool} {flags : BitVec 6} (come : x.pace = x) (log : y.log = x.log) (time : y.time = x.time) :
    (y.record ty point fwMade flags ps).time = x.time := by
  cases full : y.logFull with
  | true => rw [record_full full, time]
  | false =>
    obtain ⟨-, paced, -, -, -⟩ := record_frame (ty := ty) (point := point) (fw := fwMade) (flags := flags) (ps := ps) full
    rw [paced, pace_congr log time, come]

theorem unrecorded_onThm {f : Thimble → Thimble} : unrecorded (w.onThm f).dev.thm = unrecorded (f w.dev.thm) :=
  (congrArg unrecorded untimed_onThm :)

/-- The device after a record of the kernel for the request `g` of the Thimble `y`, and its answer. -/
def madeFor (w : W) (g : GateReq) (y : Thimble) (ty : Byte) (ps : List Word32) (point : Byte) : W :=
  ((w.onThm fun _ => y.kernelRecord ty ps point).onThm fun y => withAnswer g y 0 y.last).thmPage

theorem answer_eq : (v.onThm fun y => withAnswer g y 0 y.last).thmPage = withThm v (paged v (withAnswer g v.dev.thm 0 v.dev.thm.last)) := by
  rw [onThm_still (f := fun y => withAnswer g y 0 y.last) rfl rfl, thmPage_eq]
  exact congrArg (withThm v) (paged_congr rfl)

/-- A request that makes a record is answered. -/
theorem alike_gateAccept (gate : y.gate = some g) (time : y.time = w.dev.thm.time) (last : y.last = w.dev.thm.last) :
    Alike (madeFor w g y ty ps point) ((withThm w y).gateAccept ty ps point) := by
  have record : (withThm w y).onThm (fun t => t.kernelRecord ty ps point) = w.onThm fun _ => y.kernelRecord ty ps point :=
    onThm_withThm time last
  have frame : unrecorded (w.onThm fun _ => y.kernelRecord ty ps point).dev.thm = unrecorded y :=
    unrecorded_onThm.trans (unrecorded_record (ps := ps))
  have held : (w.onThm fun _ => y.kernelRecord ty ps point).dev.thm.gate = some g := (congrArg Thimble.gate frame :).trans gate
  unfold W.gateAccept madeFor
  rw [answer_eq]
  rw [record]
  exact alike_gateAnswer held

/-- The answer of a request whose record takes no time. -/
theorem madeFor_instant (come : w.dev.thm.pace = w.dev.thm) (log : y.log = w.dev.thm.log)
    (time : y.time = w.dev.thm.time) :
    Alike (withThm w (paged w (withAnswer g (y.kernelRecord ty ps point) 0 (y.kernelRecord ty ps point).last)))
      (madeFor w g y ty ps point) := by
  have same : w.onThm (fun _ => y.kernelRecord ty ps point) = recordTold w (withThm w (y.kernelRecord ty ps point)) :=
    onThm_instant (f := fun _ => y.kernelRecord ty ps point) (record_time come log time)
  have told : Alike (withThm w (y.kernelRecord ty ps point)) (recordTold w (withThm w (y.kernelRecord ty ps point))) := alike_recordTold
  have thm : (recordTold w (withThm w (y.kernelRecord ty ps point))).dev.thm = y.kernelRecord ty ps point := told.thm
  unfold madeFor
  rw [answer_eq, same, thm, paged_congr (w := w) told.2]
  exact told.withThm

/-- The command has made a record for the request. -/
def Recorded (s : State) (g : GateReq) (y : Thimble) (ty : Byte) (ps : List Word32) (point : Byte) (t : State) : Prop :=
  Beside s t (fun _ => (madeFor s.world g y ty ps point).dev) ∧
  (s.dev.thm.pace = s.dev.thm → Answered s g (y.kernelRecord ty ps point) 0 (y.kernelRecord ty ps point).last t)

theorem fuse_onThm {f : Thimble → Thimble} : (w.onThm f).fuse = w.fuse := by
  unfold W.onThm
  dsimp only
  split
  · exact each_same (g := W.fuse) fun _ _ => alike_interrupt.2
  · rfl

theorem fuse_withThm : (withThm v y).fuse = v.fuse := rfl

theorem fuse_madeFor : (madeFor w g y ty ps point).fuse = w.fuse := by
  unfold madeFor
  rw [answer_eq, fuse_withThm, fuse_onThm]

theorem beside_like {f : Dev → Dev} (h : untouched v.dev = untouched (f s.dev)) : Beside s (stateOf s v) f := ⟨h, rfl, rfl⟩

theorem recorded_of (log : y.log = s.dev.thm.log) (time : y.time = s.dev.thm.time)
    (h : Alike (madeFor s.world g y ty ps point) v) : Recorded s g y ty ps point (stateOf s v) :=
  ⟨beside_like h.1, fun come => answered_of ((madeFor_instant (w := s.world) come log time).trans h)⟩

/-- The firmware grants a request that makes a record. -/
theorem gate_records (h : Serves s code i checks (fwDecides fw act)) (waits : Awaits s g code)
    (pass : firstFail ((!(kernelCode code || s.dev.thm.fwRuns), gState) :: checks g s.world) = none) (grants : fw.result = 0)
    (gate : y.gate = some g) (log : y.log = s.dev.thm.log) (time : y.time = s.dev.thm.time) (last : y.last = s.dev.thm.last)
    (does : act g s.world = (withThm s.world y).gateAccept ty ps point) :
    Answers i s (Recorded s g y ty ps point) := by
  have made : Alike (madeFor s.world g y ty ps point) (fwDecides fw act g s.world) := by
    rw [fwDecides_grants grants, does]
    exact alike_gateAccept (w := s.world) gate time last
  exact ⟨_, gate_acts h waits pass (made.2.trans fuse_madeFor), recorded_of log time made⟩

theorem act_settled {f : Thimble → Thimble} (time : (f w.dev.thm).time = w.dev.thm.time) (last : (f w.dev.thm).last = w.dev.thm.last) :
    (w.onThm fun t => (f t).settle) = withThm w (f w.dev.thm).settle :=
  onThm_still (f := fun t => (f t).settle) ((congrArg Thimble.time (settle_frame _)).trans time)
    ((congrArg Thimble.last (settle_frame _)).trans last)

/-- The checks of START and BATCH_OPEN pass. -/
theorem startChecks_pass (open_ : s.dev.thm.sealOpen = false) (inhibit : s.dev.thm.inhibit = false) (full : s.dev.thm.logFull = false)
    (key : s.fuse.recordKey ≠ none) (life : s.dev.thm.lifecycle ≠ 3) (ref : s.dev.thm.refLost = false) :
    firstFail s.world.startChecks = none := by
  have world : s.world.dev.thm = s.dev.thm := rfl
  have fuse : s.world.fuse = s.fuse := rfl
  unfold W.startChecks
  rw [world, fuse]
  simp only [firstFail, open_, inhibit, full, ref, beq_eq_false_iff_ne.mpr life, Option.isNone_eq_false_iff.mpr (Option.isSome_iff_ne_none.mpr key), Bool.or_self, Bool.false_eq_true, if_false]

end Sys2Proof.Proofs
end

section
/-! The requests of the gate, one by one (R422, R423). -/

namespace Sys2Proof.Proofs

open Machine Laws

set_option Elab.async false

variable {s : State} {w v a b : W} {x y : Thimble} {n : Nat} {g : GateReq} {fw : FwAnswer} {i : Instr} {code : BitVec 4}
  {checks : GateReq → W → List (Bool × Byte)} {act : GateReq → W → W} {r ty point : Byte} {num : Word32} {ps : List Word32}

/-! The checks. -/

theorem sub0_passes (h : g.sub = 0) : sub0 g = (false, gBad) := by
  rw [sub0, h]
  rfl

theorem arg0_passes (h : g.arg = 0) : arg0 g = (false, gBad) := by
  rw [arg0, h]
  rfl

theorem room_passes (h : s.dev.thm.logFull = false) : s.world.room = (false, gLogFull) := congrArg (·, gLogFull) h

theorem point_passes (h : g.sub.toNat < 32) : subPoint g = (false, gBad) := by
  rw [subPoint, decide_eq_false (Nat.not_le.mpr h)]

theorem firstFail_pass {cs : List (Bool × Byte)} {c : Bool × Byte} (h : c = (false, r)) : firstFail (c :: cs) = firstFail cs := by
  rw [h]
  rfl

/-- The kernel serves the request, or the firmware runs. -/
theorem served (h : kernelCode code = true ∨ s.dev.thm.fwRuns = true) {cs : List (Bool × Byte)} :
    firstFail ((!(kernelCode code || s.dev.thm.fwRuns), gState) :: cs) = firstFail cs := by
  refine firstFail_pass (r := gState) ?_
  rcases h with h | h <;> rw [h]
  · rfl
  · rw [Bool.or_true]
    rfl

/-- What a running firmware grants: a START, or a BATCH_OPEN. -/
structure MayStart (s : State) : Prop where
  closed : s.dev.thm.sealOpen = false
  inhibit : s.dev.thm.inhibit = false
  room : s.dev.thm.logFull = false
  key : s.fuse.recordKey ≠ none
  life : s.dev.thm.lifecycle ≠ 3
  ref : s.dev.thm.refLost = false

theorem MayStart.passes (h : MayStart s) : firstFail s.world.startChecks = none :=
  startChecks_pass h.closed h.inhibit h.room h.key h.life h.ref

/-! GATE_NOP. -/

theorem gateNop_done (waits : Awaits s g 0) (sub : g.sub = 0) (arg : g.arg = 0) : Answers .gateNop s (Answered s g s.dev.thm 0 0) := by
  refine gate_done (serves_run rfl) waits ?_ (alike_gateAnswer waits.1)
  rw [served (.inl rfl), firstFail_pass (sub0_passes sub), firstFail_pass (arg0_passes arg)]
  rfl

/-! START and STOP. -/

/-- The firmware's state follows a change: what that leaves. -/
theorem settle_still (t : Thimble) : t.settle.gate = t.gate ∧ t.settle.log = t.log ∧ t.settle.time = t.time ∧ t.settle.last = t.last := by
  rw [settle_frame]
  exact ⟨rfl, rfl, rfl, rfl⟩

theorem thmStart_serves : Serves s 1 (.thmStart fw) (fun g w => sub0 g :: w.startChecks) (fwDecides fw fun g w =>
    (w.onThm fun t => ({ t with points := t.points ||| g.arg }).settle).gateAccept 4 (eventWords g fw)) := serves_run rfl

theorem thmStart_pass (runs : s.dev.thm.fwRuns = true) (sub : g.sub = 0) :
    firstFail ((!(kernelCode 1 || s.dev.thm.fwRuns), gState) :: sub0 g :: s.world.startChecks) = firstFail s.world.startChecks := by
  rw [served (.inr runs), firstFail_pass (sub0_passes sub)]

theorem thmStart_done (waits : Awaits s g 1) (runs : s.dev.thm.fwRuns = true) (sub : g.sub = 0) (may : MayStart s) (grants : fw.result = 0) :
    Answers (.thmStart fw) s
      (Recorded s g ({ s.dev.thm with points := s.dev.thm.points ||| g.arg }).settle 4 (eventWords g fw) 0xFF) := by
  obtain ⟨gate, log, time, last⟩ := settle_still { s.dev.thm with points := s.dev.thm.points ||| g.arg }
  refine gate_records thmStart_serves waits ?_ grants (gate.trans waits.1) log time last ?_
  · exact (thmStart_pass runs sub).trans may.passes
  · exact congrArg (fun w => W.gateAccept w 4 (eventWords g fw))
      (act_settled (w := s.world) (f := fun t => { t with points := t.points ||| g.arg }) rfl rfl)

theorem thmStart_denied (waits : Awaits s g 1) (runs : s.dev.thm.fwRuns = true) (sub : g.sub = 0) (may : MayStart s) (refuses : ¬ fw.result = 0) :
    Answers (.thmStart fw) s (Answered s g s.dev.thm (fwResult fw) 0) :=
  gate_denied thmStart_serves waits ((thmStart_pass runs sub).trans may.passes) refuses

theorem thmStart_fails (waits : Awaits s g 1) (runs : s.dev.thm.fwRuns = true) (sub : g.sub = 0)
    (fails : firstFail s.world.startChecks = some r) : Answers (.thmStart fw) s (Answered s g s.dev.thm r 0) :=
  gate_refused thmStart_serves waits ((thmStart_pass runs sub).trans fails)

theorem starts_open (open_ : s.dev.thm.sealOpen = true) : firstFail s.world.startChecks = some 4 := by
  have first : s.world.dev.thm.sealOpen = true := open_
  unfold W.startChecks
  dsimp only
  rw [first]
  rfl

theorem starts_inhibited (closed : s.dev.thm.sealOpen = false) (inhibit : s.dev.thm.inhibit = true) :
    firstFail s.world.startChecks = some 7 := by
  have first : s.world.dev.thm.sealOpen = false := closed
  have second : s.world.dev.thm.inhibit = true := inhibit
  unfold W.startChecks
  dsimp only
  rw [first, second]
  rfl

theorem starts_keyless (closed : s.dev.thm.sealOpen = false) (inhibit : s.dev.thm.inhibit = false) (room : s.dev.thm.logFull = false)
    (key : s.fuse.recordKey = none) : firstFail s.world.startChecks = some 8 := by
  have first : s.world.dev.thm.sealOpen = false := closed
  have second : s.world.dev.thm.inhibit = false := inhibit
  have third : s.world.dev.thm.logFull = false := room
  have fourth : s.world.fuse.recordKey = none := key
  unfold W.startChecks
  dsimp only
  rw [first, second, third, fourth]
  rfl

theorem thmStop_done (waits : Awaits s g 2) (runs : s.dev.thm.fwRuns = true) (sub : g.sub = 0) (room : s.dev.thm.logFull = false)
    (grants : fw.result = 0) :
    Answers (.thmStop fw) s
      (Recorded s g ({ s.dev.thm with points := s.dev.thm.points &&& ~~~g.arg }).settle 4 (eventWords g fw) 0xFF) := by
  obtain ⟨gate, log, time, last⟩ := settle_still { s.dev.thm with points := s.dev.thm.points &&& ~~~g.arg }
  refine gate_records (checks := fun g w => [sub0 g, w.room]) (serves_run rfl) waits ?_ grants (gate.trans waits.1)
    log time last ?_
  · rw [served (.inr runs), firstFail_pass (sub0_passes sub), firstFail_pass (room_passes room)]
    rfl
  · exact congrArg (fun w => W.gateAccept w 4 (eventWords g fw))
      (act_settled (w := s.world) (f := fun t => { t with points := t.points &&& ~~~g.arg }) rfl rfl)

/-! The requests about the tare of a point. -/

/-- The checks of a request about a point, after the one of its point. -/
theorem pointChecks_are (point : g.sub.toNat < 32) (runs : s.dev.thm.fwRuns = true) (arg : g.arg = 0 ∨ code = 5) :
    firstFail ((!(kernelCode code || s.dev.thm.fwRuns), gState) :: subPoint g :: pointChecks code g s.world) = firstFail [s.world.room] := by
  rw [served (.inr runs), firstFail_pass (point_passes point)]
  unfold pointChecks
  split
  · rfl
  · next other => rw [firstFail_pass (arg0_passes (arg.resolve_right other))]

theorem point_request (q : BitVec 4 × Instr) (mem : q ∈ pointRequests fw) (waits : Awaits s g q.1) (runs : s.dev.thm.fwRuns = true) :
    (32 ≤ g.sub.toNat → Answers q.2 s (Answered s g s.dev.thm 1 0)) ∧
    (g.sub.toNat < 32 → g.arg = 0 ∨ q.1 = 5 → s.dev.thm.logFull = true → Answers q.2 s (Answered s g s.dev.thm 7 0)) ∧
    (g.sub.toNat < 32 → g.arg = 0 ∨ q.1 = 5 → s.dev.thm.logFull = false → ¬ fw.result = 0 →
      Answers q.2 s (Answered s g s.dev.thm (fwResult fw) 0)) ∧
    (g.sub.toNat < 32 → g.arg = 0 ∨ q.1 = 5 → s.dev.thm.logFull = false → fw.result = 0 →
      Answers q.2 s (Recorded s g s.dev.thm 4 (eventWords g fw) (gatePoint g))) := by
  have row := points_serve (s := s) q mem
  have pass (point : g.sub.toNat < 32) (arg : g.arg = 0 ∨ q.1 = 5) (room : s.dev.thm.logFull = false) :
      firstFail ((!(kernelCode q.1 || s.dev.thm.fwRuns), gState) :: subPoint g :: pointChecks q.1 g s.world) = none := by
    rw [pointChecks_are point runs arg, firstFail_pass (room_passes room)]
    rfl
  refine ⟨fun point => ?_, fun point arg full => ?_, fun point arg room refuses => ?_, fun point arg room grants => ?_⟩
  · refine gate_refused row waits ?_
    have bad : subPoint g = (true, gBad) := by rw [subPoint, decide_eq_true point]
    rw [served (.inr runs), bad]
    rfl
  · refine gate_refused row waits ?_
    have bad : s.world.room = (true, gLogFull) := congrArg (·, gLogFull) full
    rw [pointChecks_are point runs arg, bad]
    rfl
  · exact gate_denied row waits (pass point arg room) refuses
  · exact gate_records row waits (pass point arg room) grants waits.1 rfl rfl rfl rfl

/-! Lots. -/

theorem batchOpen_serves : Serves s 7 (.batchOpen fw)
    (fun g w => sub0 g :: (g.arg == 0, gBad) :: (w.dev.thm.batch != 0, gState) :: w.startChecks) (fwDecides fw fun g w =>
      (w.onThm fun t => ({ t with batch := g.arg }).settle).gateAccept 5 (g.arg :: (payloadWords fw.payload).drop 1)) := serves_run rfl

theorem batchOpen_pass (runs : s.dev.thm.fwRuns = true) (sub : g.sub = 0) (arg : g.arg ≠ 0) {cs : List (Bool × Byte)} :
    firstFail ((!(kernelCode 7 || s.dev.thm.fwRuns), gState) :: sub0 g :: (g.arg == 0, gBad) :: cs) = firstFail cs := by
  rw [served (.inr runs), firstFail_pass (sub0_passes sub), firstFail_pass (r := gBad) (congrArg (·, gBad) (beq_eq_false_iff_ne.mpr arg))]

theorem batchOpen_done (waits : Awaits s g 7) (runs : s.dev.thm.fwRuns = true) (sub : g.sub = 0) (arg : g.arg ≠ 0) (none_ : s.dev.thm.batch = 0)
    (may : MayStart s) (grants : fw.result = 0) :
    Answers (.batchOpen fw) s
      (Recorded s g ({ s.dev.thm with batch := g.arg }).settle 5 (g.arg :: (payloadWords fw.payload).drop 1) 0xFF) := by
  obtain ⟨gate, log, time, last⟩ := settle_still { s.dev.thm with batch := g.arg }
  refine gate_records batchOpen_serves waits ?_ grants (gate.trans waits.1) log time last ?_
  · have batch : (s.world.dev.thm.batch != 0, gState) = (false, gState) := congrArg (fun b => (b != 0, gState)) none_
    rw [batchOpen_pass runs sub arg, firstFail_pass batch]
    exact may.passes
  · exact congrArg (fun w => W.gateAccept w 5 (g.arg :: (payloadWords fw.payload).drop 1))
      (act_settled (w := s.world) (f := fun t => { t with batch := g.arg }) rfl rfl)

theorem batchOpen_twice (waits : Awaits s g 7) (runs : s.dev.thm.fwRuns = true) (sub : g.sub = 0) (arg : g.arg ≠ 0) (some_ : s.dev.thm.batch ≠ 0) :
    Answers (.batchOpen fw) s (Answered s g s.dev.thm 2 0) := by
  refine gate_refused batchOpen_serves waits ?_
  have batch : (s.world.dev.thm.batch != 0, gState) = (true, gState) := congrArg (·, gState) (bne_iff_ne.mpr some_)
  rw [batchOpen_pass runs sub arg, batch]
  rfl

/-- What the end of a lot makes of the Thimble (R414). -/
def lotClosed (y : Thimble) : Thimble := ({ y with batch := 0 } : Thimble).settle.closeTrigger

theorem startSigning_still : y.startSigning.time = y.time ∧ y.startSigning.last = y.last ∧ y.startSigning.gate = y.gate := by
  obtain ⟨frame, time, last, -, -⟩ := startSigning_frame y
  exact ⟨time, last, (congrArg Thimble.gate frame :)⟩

theorem trigger_still : y.trigger.time = y.time ∧ y.trigger.last = y.last ∧ y.trigger.gate = y.gate := by
  unfold Thimble.trigger
  split
  · exact ⟨rfl, rfl, rfl⟩
  · exact startSigning_still

theorem lotClosed_time : (lotClosed y).time = y.time := by
  have settled : ({ y with batch := 0 } : Thimble).settle.time = y.time := (congrArg Thimble.time (settle_frame _) :)
  unfold lotClosed Thimble.closeTrigger
  split
  · exact settled
  · exact trigger_still.1.trans settled

theorem batchClose_serves : Serves s 8 (.batchClose fw)
    (fun g w => [sub0 g, (w.dev.thm.batch == 0 || w.dev.thm.batch != g.arg, gState), w.room]) (fwDecides fw fun g w =>
      ((w.gateAccept 6 (g.arg :: (payloadWords fw.payload).drop 1)).onThm lotClosed).thmPage) := serves_run rfl

theorem batchClose_done (waits : Awaits s g 8) (runs : s.dev.thm.fwRuns = true) (sub : g.sub = 0) (some_ : s.dev.thm.batch ≠ 0)
    (same : s.dev.thm.batch = g.arg) (room : s.dev.thm.logFull = false) (grants : fw.result = 0) :
    Answers (.batchClose fw) s fun t => Beside s t fun _ =>
      ((madeFor s.world g s.dev.thm 6 (g.arg :: (payloadWords fw.payload).drop 1) 0xFF).onThm lotClosed).thmPage.dev := by
  have made : Alike (madeFor s.world g s.dev.thm 6 (g.arg :: (payloadWords fw.payload).drop 1) 0xFF)
      (s.world.gateAccept 6 (g.arg :: (payloadWords fw.payload).drop 1)) := alike_gateAccept (w := s.world) waits.1 rfl rfl
  have first := fuse_madeFor (w := s.world) (g := g) (y := s.dev.thm) (ty := 6) (ps := g.arg :: (payloadWords fw.payload).drop 1) (point := 0xFF)
  have granted := fwDecides_grants (g := g) (w := s.world) (act := fun g w =>
      ((w.gateAccept 6 (g.arg :: (payloadWords fw.payload).drop 1)).onThm lotClosed).thmPage) grants
  have passes : firstFail ((!(kernelCode 8 || s.dev.thm.fwRuns), gState) ::
      [sub0 g, (s.world.dev.thm.batch == 0 || s.world.dev.thm.batch != g.arg, gState), s.world.room]) = none := by
    have batch : (s.world.dev.thm.batch == 0 || s.world.dev.thm.batch != g.arg, gState) = (false, gState) := by
      have first : (s.dev.thm.batch == 0) = false := beq_eq_false_iff_ne.mpr some_
      show (s.dev.thm.batch == 0 || s.dev.thm.batch != g.arg, gState) = _
      rw [first, same, bne_self_eq_false]
      rfl
    rw [served (.inr runs), firstFail_pass (sub0_passes sub), firstFail_pass batch, firstFail_pass (room_passes room)]
    rfl
  have close (a b : W) (h : Alike a b) : Alike (a.onThm lotClosed).thmPage (b.onThm lotClosed).thmPage :=
    alike_thmPage ((alike_onThm (f := lotClosed) .refl lotClosed_time).symm.trans (alike_onThm h lotClosed_time))
  have closed := close _ _ made
  refine ⟨_, gate_acts batchClose_serves waits passes ?_, ?_⟩
  · rw [granted]
    refine closed.2.trans ?_
    rw [thmPage_eq, fuse_withThm, fuse_onThm]
    exact first
  · rw [granted]
    exact beside_like closed.1

theorem batchClose_other (waits : Awaits s g 8) (runs : s.dev.thm.fwRuns = true) (sub : g.sub = 0) (other : s.dev.thm.batch ≠ g.arg) :
    Answers (.batchClose fw) s (Answered s g s.dev.thm 2 0) := by
  refine gate_refused batchClose_serves waits ?_
  have batch : (s.world.dev.thm.batch == 0 || s.world.dev.thm.batch != g.arg, gState) = (true, gState) := by
    have differs : (s.dev.thm.batch != g.arg) = true := bne_iff_ne.mpr other
    show (s.dev.thm.batch == 0 || s.dev.thm.batch != g.arg, gState) = _
    rw [differs, Bool.or_true]
  rw [served (.inr runs), firstFail_pass (sub0_passes sub), batch]
  rfl

/-! The requests of the kernel. -/

/-- A request that changes the Thimble alone. -/
theorem gate_changes {f : Thimble → Thimble} (h : Serves s code i checks act) (waits : Awaits s g code)
    (pass : firstFail ((!(kernelCode code || s.dev.thm.fwRuns), gState) :: checks g s.world) = none)
    (does : act g s.world = (s.world.onThm f).gateAnswer 0 0) (time : (f s.dev.thm).time = s.dev.thm.time)
    (last : (f s.dev.thm).last = s.dev.thm.last) (gate : (f s.dev.thm).gate = s.dev.thm.gate) :
    Answers i s (Answered s g (f s.dev.thm) 0 0) := by
  have change : s.world.onThm f = withThm s.world (f s.dev.thm) := onThm_still (w := s.world) time last
  refine gate_done h waits pass ?_
  rw [does, change]
  exact alike_gateAnswer_withThm (gate.trans waits.1)

theorem signNow_done (waits : Awaits s g 9) (sub : g.sub = 0) (arg : g.arg = 0) (room : s.dev.thm.logFull = false) :
    Answers .signNow s (Answered s g s.dev.thm.trigger 0 0) := by
  obtain ⟨time, last, gate⟩ := trigger_still (y := s.dev.thm)
  refine gate_changes (f := Thimble.trigger) (checks := fun g w => [sub0 g, arg0 g, w.room]) (serves_run rfl) waits ?_ rfl time last gate
  rw [served (.inl rfl), firstFail_pass (sub0_passes sub), firstFail_pass (arg0_passes arg), firstFail_pass (room_passes room)]
  rfl

theorem recordAck_serves : Serves s 10 .recordAck
    (fun g w => [sub0 g, (decide (g.arg.toNat < w.dev.thm.acked.toNat) || decide (w.dev.thm.last.toNat < g.arg.toNat), gBad)])
    (fun g w => (w.onThm fun t => { t with acked := g.arg }).gateAnswer gAccepted 0) := serves_run rfl

theorem recordAck_done (waits : Awaits s g 10) (sub : g.sub = 0) (low : s.dev.thm.acked.toNat ≤ g.arg.toNat)
    (high : g.arg.toNat ≤ s.dev.thm.last.toNat) : Answers .recordAck s (Answered s g { s.dev.thm with acked := g.arg } 0 0) := by
  refine gate_changes (f := fun t => { t with acked := g.arg }) recordAck_serves waits ?_ rfl rfl rfl rfl
  have range : (decide (g.arg.toNat < s.dev.thm.acked.toNat) || decide (s.dev.thm.last.toNat < g.arg.toNat), gBad) = (false, gBad) := by
    rw [decide_eq_false (Nat.not_lt.mpr low), decide_eq_false (Nat.not_lt.mpr high)]
    rfl
  rw [served (.inl rfl), firstFail_pass (sub0_passes sub)]
  exact firstFail_pass range

theorem recordAck_bad (waits : Awaits s g 10) (sub : g.sub = 0)
    (out : g.arg.toNat < s.dev.thm.acked.toNat ∨ s.dev.thm.last.toNat < g.arg.toNat) :
    Answers .recordAck s (Answered s g s.dev.thm 1 0) := by
  refine gate_refused recordAck_serves waits ?_
  have range : (decide (g.arg.toNat < s.dev.thm.acked.toNat) || decide (s.dev.thm.last.toNat < g.arg.toNat), gBad) = (true, gBad) := by
    rw [← Bool.decide_or, decide_eq_true out]
  rw [served (.inl rfl), firstFail_pass (sub0_passes sub)]
  exact congrArg (fun c => firstFail [c]) range

theorem replay_done (waits : Awaits s g 11) (sub : g.sub = 0) (there : ∃ r ∈ s.dev.thm.log, r.rnum = g.arg) :
    Answers .replay s (Answered s g { s.dev.thm with replay := some (g.arg, s.dev.thm.last), replayAt := s.dev.thm.time + 1000 } 0 0) := by
  refine gate_changes (f := fun t => { t with replay := some (g.arg, t.last), replayAt := t.time + 1000 })
    (checks := fun g w => [sub0 g, (!(w.dev.thm.log.any fun r => r.rnum == g.arg), gBad)]) (serves_run rfl) waits ?_ rfl rfl rfl rfl
  have held : (s.world.dev.thm.log.any fun r => r.rnum == g.arg) = true := by
    obtain ⟨r, mem, same⟩ := there
    exact List.any_eq_true.mpr ⟨r, mem, beq_iff_eq.mpr same⟩
  rw [served (.inl rfl), firstFail_pass (sub0_passes sub), held]
  rfl

theorem timeMark_done (waits : Awaits s g 12) (sub : g.sub = 0) (arg : g.arg = 0) (room : s.dev.thm.logFull = false) :
    Answers .timeMark s (Recorded s g s.dev.thm 10 [lo32 s.dev.clock.tb, hi32 s.dev.clock.tb] 0xFF) := by
  have made : Alike (madeFor s.world g s.dev.thm 10 [lo32 s.dev.clock.tb, hi32 s.dev.clock.tb] 0xFF)
      (s.world.gateAccept 10 [lo32 s.dev.clock.tb, hi32 s.dev.clock.tb]) := alike_gateAccept (w := s.world) waits.1 rfl rfl
  refine ⟨_, gate_acts (checks := fun g w => [sub0 g, arg0 g, w.room])
    (act := fun _ w => w.gateAccept 10 [lo32 w.dev.clock.tb, hi32 w.dev.clock.tb]) (serves_run rfl) waits ?_ (made.2.trans fuse_madeFor),
    recorded_of rfl rfl made⟩
  rw [served (.inl rfl), firstFail_pass (sub0_passes sub), firstFail_pass (arg0_passes arg), firstFail_pass (room_passes room)]
  rfl

/-! PARAM_WRITE. -/

/-- The staged parameters after a write (R419). -/
def stagedWith (staged : List (Nat × Word32)) (k : Nat) (v : Word32) : List (Nat × Word32) :=
  if staged.any (fun x => x.1 == k) then staged.map (fun x => if x.1 = k then (x.1, v) else x) else staged ++ [(k, v)]

theorem paramWrite_serves : Serves s 13 (.paramWrite fw)
    (fun g w => [(!w.dev.thm.sealOpen, gSealClosed), (!(paramIndex g.sub.toNat), gBad),
      (decide (256 ≤ w.dev.thm.staged.length) && !(w.dev.thm.staged.any fun x => x.1 == g.sub.toNat), gState)])
    (fwDecides fw fun g w => (w.onThm fun t => { t with staged := stagedWith t.staged g.sub.toNat g.arg }).gateAnswer gAccepted 0) :=
  serves_run rfl

theorem paramWrite_closed (waits : Awaits s g 13) (runs : s.dev.thm.fwRuns = true) (closed : s.dev.thm.sealOpen = false) :
    Answers (.paramWrite fw) s (Answered s g s.dev.thm 3 0) := by
  refine gate_refused paramWrite_serves waits ?_
  have sealed : s.world.dev.thm.sealOpen = false := closed
  rw [served (.inr runs), sealed]
  rfl

theorem paramWrite_done (waits : Awaits s g 13) (runs : s.dev.thm.fwRuns = true) (open_ : s.dev.thm.sealOpen = true)
    (index : paramIndex g.sub.toNat = true) (fits : s.dev.thm.staged.any (fun v => v.1 == g.sub.toNat) = true ∨ s.dev.thm.staged.length < 256)
    (grants : fw.result = 0) :
    Answers (.paramWrite fw) s (Answered s g { s.dev.thm with staged := stagedWith s.dev.thm.staged g.sub.toNat g.arg } 0 0) := by
  refine gate_changes (f := fun t => { t with staged := stagedWith t.staged g.sub.toNat g.arg }) paramWrite_serves waits ?_
    (fwDecides_grants grants) rfl rfl rfl
  have sealed : s.world.dev.thm.sealOpen = true := open_
  have place : (decide (256 ≤ s.dev.thm.staged.length) && !(s.dev.thm.staged.any fun x => x.1 == g.sub.toNat), gState) = (false, gState) := by
    rcases fits with held | less
    · rw [held, Bool.not_true, Bool.and_false]
    · rw [decide_eq_false (Nat.not_le.mpr less), Bool.false_and]
  rw [served (.inr runs), sealed, index]
  exact firstFail_pass place

end Sys2Proof.Proofs
end

section
/-! PARAM_COMMIT and IMAGE_ACTIVATE (R417 to R420), and the answer of a request (R421). -/

namespace Sys2Proof.Proofs

open Machine Laws

set_option Elab.async false

variable {s : State} {w v a b : W} {x y : Thimble} {n : Nat} {g h : GateReq} {fw : FwAnswer} {i : Instr} {code : BitVec 4}
  {r ty point : Byte} {num : Word32} {ps : List Word32} {version : Half} {params : Tbl Word32}

/-! What the changes of the Thimble leave of the images. -/

theorem images_interrupt {k j : Nat} : (w.interrupt k j).dev.images = w.dev.images := by
  unfold W.interrupt
  split <;> rfl

theorem images_onThm {f : Thimble → Thimble} : (w.onThm f).dev.images = w.dev.images := by
  unfold W.onThm
  dsimp only
  split
  · exact each_same (g := fun w => w.dev.images) fun _ _ => images_interrupt
  · rfl

theorem alike_flash (h : Alike a b) : b.dev.images.flash = a.dev.images.flash := (congrArg (fun d : Dev => d.images.flash) h.1 :)

/-! A change of the store (R418). -/

/-- The copy of the store that a change writes. -/
def newStore (f : Fuse) (version : Half) (params : Tbl Word32) : ThmStore :=
  let c : ThmStore := { version := version, audit := f.audit + 1, params := params }
  { c with mac := c.tag (f.storeKey.getD 0) }

theorem olderStore_lt : w.olderStore < 2 := by
  unfold W.olderStore
  dsimp only
  split <;> omega

/-- The device with both copies written and the counter advanced. -/
def stored (w : W) (version : Half) (params : Tbl Word32) : W :=
  ((w.putStore w.olderStore (w.storeCopy version (min (w.fuse.audit + 1) 4095) params)).auditStep).putStore (1 - w.olderStore)
    (w.storeCopy version (min (w.fuse.audit + 1) 4095) params)

/-- The Thimble after a change of its store. -/
def storedThm (version : Half) (params : Tbl Word32) (t : Thimble) : Thimble := { t with version := version, params := params, storeOk := true }

theorem stored_thm : (stored w version params).dev.thm = w.dev.thm := rfl

theorem stored_fuse (few : w.fuse.audit < 4095) : (stored w version params).fuse = { w.fuse with audit := w.fuse.audit + 1 } := by
  have fuse : (stored w version params).fuse = { w.fuse with audit := min (w.fuse.audit + 1) 4095 } := rfl
  rw [fuse, Nat.min_eq_left few]

theorem stored_store {k : Nat} (few : w.fuse.audit < 4095) (low : k < 2) :
    (stored w version params).dev.images.flash.store.get? k = some (newStore w.fuse version params) := by
  have older := olderStore_lt (w := w)
  have copy (n : Nat) : w.storeCopy version (n + 1) params =
      { version := version, audit := n + 1, params := params,
        mac := ({ version := version, audit := n + 1, params := params } : ThmStore).tag (w.fuse.storeKey.getD 0) } := rfl
  have images (c : ThmStore) : (((w.putStore w.olderStore c).auditStep).putStore (1 - w.olderStore) c).dev.images.flash.store =
      (w.dev.images.flash.store.set w.olderStore c).set (1 - w.olderStore) c := rfl
  unfold stored
  rw [images, Nat.min_eq_left few, copy]
  by_cases same : k = 1 - w.olderStore
  · rw [same, get_set_self]
    rfl
  · have other : k = w.olderStore := by omega
    rw [get_set_ne _ _ _ _ same, other, get_set_self]
    rfl

/-- A change of the store takes no time. -/
theorem storeParams_eq : w.storeParams version params = withThm (stored w version params) (storedThm version params w.dev.thm) :=
  onThm_still (w := stored w version params) (f := storedThm version params) rfl rfl

/-! PARAM_COMMIT. -/

/-- The store that a commit replaces. -/
def oldStore (w : W) : ThmStore := { version := w.dev.thm.version, audit := w.fuse.audit, params := w.dev.thm.params }

/-- The Thimble after the parameters have changed, before the records. -/
def committed (old : ThmStore) (u : Thimble) : Thimble := { u with staged := [], sealCommit := true, before := some old }

/-- The records of a commit (R419). -/
def commitRecords (t : Thimble) (audit : Nat) (u : Thimble) : Thimble :=
  ((t.staged.filter fun x => t.params.getD x.1 0 != x.2).foldl
    (fun u x => u.kernelRecord 9 [w32 x.1, t.params.getD x.1 0, x.2, w32 audit, 0, 0]) u).sealRecord audit

/-- The parameters with the staged ones. -/
def newParams (t : Thimble) : Tbl Word32 := t.staged.foldl (fun p x => p.set x.1 x.2) t.params

/-- The device after a commit, before its answer. -/
def afterCommit (w : W) : W :=
  let v := w.storeParams w.dev.thm.version (newParams w.dev.thm)
  (v.onThm (committed (oldStore w))).onThm (commitRecords w.dev.thm v.fuse.audit)

theorem unrecorded_commitRecords {audit : Nat} {u : Thimble} : unrecorded (commitRecords x audit u) = unrecorded u := by
  unfold commitRecords
  refine Eq.trans (unrecorded_record (x := _) (ps := _)) ?_
  generalize x.staged.filter _ = changed
  induction changed generalizing u with
  | nil => rfl
  | cons c cs ih => exact ih.trans (unrecorded_record (ps := [w32 c.1, x.params.getD c.1 0, c.2, w32 audit, 0, 0]))

theorem afterCommit_fuse (few : w.fuse.audit < 4095) : (afterCommit w).fuse = { w.fuse with audit := w.fuse.audit + 1 } := by
  unfold afterCommit
  dsimp only
  rw [fuse_onThm, fuse_onThm, storeParams_eq, fuse_withThm, stored_fuse few]

theorem afterCommit_thm :
    unrecorded (afterCommit w).dev.thm =
      unrecorded (committed (oldStore w) (storedThm w.dev.thm.version (newParams w.dev.thm) w.dev.thm)) := by
  unfold afterCommit
  dsimp only
  generalize (w.storeParams w.dev.thm.version (newParams w.dev.thm)).fuse.audit = audit
  rw [unrecorded_onThm, unrecorded_commitRecords, unrecorded_onThm, storeParams_eq]
  rfl

theorem afterCommit_store (few : w.fuse.audit < 4095) {k : Nat} (low : k < 2) :
    (afterCommit w).dev.images.flash.store.get? k = some (newStore w.fuse w.dev.thm.version (newParams w.dev.thm)) := by
  unfold afterCommit
  dsimp only
  rw [images_onThm, images_onThm, storeParams_eq]
  exact stored_store few low

/-- The checks of PARAM_COMMIT. -/
def commitChecks (g : GateReq) (w : W) : List (Bool × Byte) :=
  [sub0 g, arg0 g, (!w.dev.thm.sealOpen, gSealClosed), (w.dev.thm.points != 0 || w.dev.thm.batch != 0, gState), (w.auditLeft == 0, gAudit),
   w.room, (!(paramsInRange (newParams w.dev.thm)), gRange)]

theorem paramCommit_row : exec (.paramCommit fw) s = runFuse s fun w => w.gateRow 14 commitChecks (fwDecides fw fun _ w =>
    (afterCommit w).gateAnswer gAccepted (afterCommit w).dev.thm.last) := rfl

/-- The effect of a commit that is answered. -/
structure Committed (s : State) (g : GateReq) (t : State) : Prop where
  fuse : t.fuse = { s.fuse with audit := s.fuse.audit + 1 }
  params : t.dev.thm.params = newParams s.dev.thm
  version : t.dev.thm.version = s.dev.thm.version
  staged : t.dev.thm.staged = []
  commit : t.dev.thm.sealCommit = true
  store : t.dev.thm.storeOk = true
  before : t.dev.thm.before = some { version := s.dev.thm.version, audit := s.fuse.audit, params := s.dev.thm.params }
  copies : ∀ k, k < 2 → t.dev.images.flash.store.get? k = some (newStore s.fuse s.dev.thm.version (newParams s.dev.thm))
  answer : t.dev.thm.gate = some { g with answer := some (0, t.dev.thm.last) }

theorem commit_passes (runs : s.dev.thm.fwRuns = true) (sub : g.sub = 0) (arg : g.arg = 0) (open_ : s.dev.thm.sealOpen = true)
    (points : s.dev.thm.points = 0) (batch : s.dev.thm.batch = 0) (few : s.fuse.audit < 4095) (room : s.dev.thm.logFull = false)
    (range : paramsInRange (newParams s.dev.thm) = true) :
    firstFail ((!(kernelCode 14 || s.dev.thm.fwRuns), gState) :: commitChecks g s.world) = none := by
  have sealed : (!s.world.dev.thm.sealOpen, gSealClosed) = (false, gSealClosed) := congrArg (fun b => (!b, gSealClosed)) open_
  have still : (s.world.dev.thm.points != 0 || s.world.dev.thm.batch != 0, gState) = (false, gState) := by
    show (s.dev.thm.points != 0 || s.dev.thm.batch != 0, gState) = _
    rw [points, batch]
    rfl
  have left : (s.world.auditLeft == 0, gAudit) = (false, gAudit) := by
    have some_ : 4095 - s.fuse.audit ≠ 0 := by omega
    exact congrArg (·, gAudit) (beq_eq_false_iff_ne.mpr some_)
  have fits : (!(paramsInRange (newParams s.world.dev.thm)), gRange) = (false, gRange) := congrArg (fun b => (!b, gRange)) range
  rw [served (.inr runs), commitChecks, firstFail_pass (sub0_passes sub), firstFail_pass (arg0_passes arg), firstFail_pass sealed,
    firstFail_pass still, firstFail_pass left, firstFail_pass (room_passes room), firstFail_pass fits]
  rfl

/-- The Thimble of a world that has answered. -/
theorem answered_thm (gate : v.dev.thm.gate = some g) :
    (v.gateAnswer r num).dev.thm = paged v (withAnswer g v.dev.thm r num) := (alike_gateAnswer gate).thm

theorem commit_answered (gate : s.dev.thm.gate = some g) (few : s.fuse.audit < 4095) :
    let v := (afterCommit s.world).gateAnswer gAccepted (afterCommit s.world).dev.thm.last
    Committed s g { stateOf s v with fuse := v.fuse } := by
  have fuse := afterCommit_fuse (w := s.world) few
  have thm := afterCommit_thm (w := s.world)
  have store := fun k low => afterCommit_store (w := s.world) (k := k) few low
  generalize afterCommit s.world = v at fuse thm store
  have held : v.dev.thm.gate = some g := (congrArg Thimble.gate thm :).trans gate
  have answer := alike_gateAnswer (r := gAccepted) (num := v.dev.thm.last) held
  have after := answered_thm (r := gAccepted) (num := v.dev.thm.last) held
  have flash := alike_flash answer
  have fuse' := answer.2
  generalize v.gateAnswer gAccepted v.dev.thm.last = u at answer after flash fuse'
  intro v'
  exact {
    fuse := fuse'.trans fuse
    params := (congrArg Thimble.params after :).trans (congrArg Thimble.params thm :)
    version := (congrArg Thimble.version after :).trans (congrArg Thimble.version thm :)
    staged := (congrArg Thimble.staged after :).trans (congrArg Thimble.staged thm :)
    commit := (congrArg Thimble.sealCommit after :).trans (congrArg Thimble.sealCommit thm :)
    store := (congrArg Thimble.storeOk after :).trans (congrArg Thimble.storeOk thm :)
    before := (congrArg Thimble.before after :).trans (congrArg Thimble.before thm :)
    copies := fun k low => (congrArg (fun f : Flash => f.store.get? k) flash :).trans (store k low)
    answer := by
      have last : u.dev.thm.last = v.dev.thm.last := (congrArg Thimble.last after :)
      show u.dev.thm.gate = some { g with answer := some (0, u.dev.thm.last) }
      rw [last, after]
      rfl }

theorem paramCommit_done (waits : Awaits s g 14) (runs : s.dev.thm.fwRuns = true) (sub : g.sub = 0) (arg : g.arg = 0)
    (open_ : s.dev.thm.sealOpen = true) (points : s.dev.thm.points = 0) (batch : s.dev.thm.batch = 0) (few : s.fuse.audit < 4095)
    (room : s.dev.thm.logFull = false) (range : paramsInRange (newParams s.dev.thm) = true) (grants : fw.result = 0) :
    Answers (.paramCommit fw) s (Committed s g) := by
  have row := gateRow_waiting (checks := commitChecks) (act := fwDecides fw fun _ w =>
    (afterCommit w).gateAnswer gAccepted (afterCommit w).dev.thm.last) waits
  rw [commit_passes runs sub arg open_ points batch few room range] at row
  have row' := row.trans (fwDecides_grants grants)
  refine ⟨_, ?_, commit_answered waits.1 few⟩
  rw [paramCommit_row, runFuse, row']
  rfl

end Sys2Proof.Proofs
end

section
/-! The answer of a request becomes visible, and the Thimble restarts (R403, R411, R421). -/

namespace Sys2Proof.Proofs

open Machine Laws

set_option Elab.async false

variable {s : State} {w v a b : W} {x y : Thimble} {n cause : Nat} {key : Bool} {g h : GateReq} {r : Byte} {num : Word32}

/-! An answer is published. -/

/-- The Thimble once the answer of `g` is visible (R421). -/
def published (g : GateReq) (r : Byte) (num : Word32) (t : Thimble) : Thimble :=
  { t with gate := t.gateNext, gateNext := none, before := none, resp := w32 (r.toNat + at_ g.code.toNat 8 + at_ g.tag.toNat 16), respRnum := num,
           gateStat := if g.watched then w32 (2 + at_ g.tag.toNat 8 + at_ r.toNat 16 + at_ g.code.toNat 24) else t.gateStat,
           gateRnum := if g.watched then num else t.gateRnum }

theorem alike_publish (gate : w.dev.thm.gate = some g) : Alike (withThm w (published g r num w.dev.thm)) (w.publish r num) := by
  have change : w.onThm (published g r num) = withThm w (published g r num w.dev.thm) := onThm_still rfl rfl
  have eq : w.publish r num = if g.watched then
      (w.onThm (published g r num)).finishAll 0x0B02 0 sDone (le 4 (r.toNat + at_ g.code.toNat 8) ++ le 4 num.toNat)
      else w.onThm (published g r num) := by
    unfold W.publish
    rw [gate]
    rfl
  rw [eq, change]
  exact .ite (.of_kept (steady_finishAll ..).kept) .refl

/-- What a request that ends early is answered: its answer, or TIMEOUT (R421). -/
def endWord (g : GateReq) : Byte × Word32 := g.answer.getD (0x0A, 0)

theorem endRequest_none (gate : w.dev.thm.gate = none) : w.endRequest = w := by
  unfold W.endRequest
  rw [gate]

theorem endRequest_some (gate : w.dev.thm.gate = some g) : w.endRequest = w.publish (endWord g).1 (endWord g).2 := by
  unfold W.endRequest endWord
  rw [gate]
  obtain ⟨code, tag, sub, arg, answer, watched⟩ := g
  cases answer <;> rfl

/-- The Thimble without its gate: what the end of a request leaves alone. -/
def gateless (t : Thimble) : Thimble :=
  { t with gate := none, gateNext := none, before := none, resp := 0, respRnum := 0, gateStat := 0, gateRnum := 0 }

theorem endRequest_frame : gateless w.endRequest.dev.thm = gateless w.dev.thm ∧ w.endRequest.fuse = w.fuse ∧
    w.endRequest.dev.thm.gateNext = (if w.dev.thm.gate = none then w.dev.thm.gateNext else none) ∧
    w.endRequest.dev.thm.gate = (if w.dev.thm.gate = none then none else w.dev.thm.gateNext) := by
  cases gate : w.dev.thm.gate with
  | none => rw [endRequest_none gate, if_pos rfl, if_pos rfl]; exact ⟨rfl, rfl, rfl, gate⟩
  | some g =>
    rw [endRequest_some gate, if_neg (Option.some_ne_none g), if_neg (Option.some_ne_none g)]
    generalize (endWord g).1 = r
    generalize (endWord g).2 = num
    have pub := alike_publish (r := r) (num := num) gate
    exact ⟨(congrArg gateless pub.thm :).trans rfl, pub.2, (congrArg Thimble.gateNext pub.thm :), (congrArg Thimble.gate pub.thm :)⟩

/-- A restart ends both requests. -/
theorem endGate_frame : gateless w.endGate.dev.thm = gateless w.dev.thm ∧ w.endGate.fuse = w.fuse ∧ w.endGate.dev.thm.gate = none := by
  obtain ⟨frame, fuse, next, gate⟩ := endRequest_frame (w := w)
  obtain ⟨frame', fuse', -, gate'⟩ := endRequest_frame (w := w.endRequest)
  refine ⟨frame'.trans frame, fuse'.trans fuse, gate'.trans ?_⟩
  rw [next, gate]
  split
  · rfl
  · split <;> rfl

/-- The request in the gate is the only one. -/
theorem endGate_one (gate : w.dev.thm.gate = some g) (next : w.dev.thm.gateNext = none) :
    w.endGate = w.publish (endWord g).1 (endWord g).2 := by
  have first := endRequest_some gate
  have pub := alike_publish (r := (endWord g).1) (num := (endWord g).2) gate
  have empty : w.endRequest.dev.thm.gate = none := by
    rw [first]
    exact (congrArg Thimble.gate pub.thm :).trans next
  unfold W.endGate
  rw [endRequest_none empty, first]

theorem endGate_none (gate : w.dev.thm.gate = none) : w.endGate = w := by
  unfold W.endGate
  rw [endRequest_none gate, endRequest_none gate]

/-! A restart. -/

/-- What a restart leaves of the Thimble once the gate is empty, beside its records: the gate's answer, the version, the points, the restarts,
the state, the seal and the boot. -/
def lasting (t : Thimble) : Option GateReq × Word32 × Word32 × Half × Word32 × List Word64 × ThmSt × Bool :=
  (t.gate, t.resp, t.respRnum, t.version, t.points, t.restarts, t.st, t.powered)

theorem lasting_onThm {f : Thimble → Thimble} : lasting (w.onThm f).dev.thm = lasting (f w.dev.thm) := (congrArg lasting untimed_onThm :)

theorem lasting_record {ty point : Byte} {fwMade : Bool} {flags : BitVec 6} {ps : List Word32} :
    lasting (x.record ty point fwMade flags ps) = lasting x := (congrArg lasting unrecorded_record :)

theorem thmPage_thm : w.thmPage.dev.thm = paged w w.dev.thm := congrArg (fun w : W => w.dev.thm) thmPage_eq

theorem lasting_thmPage : lasting w.thmPage.dev.thm = lasting w.dev.thm := (congrArg lasting thmPage_thm :)

/-- The restarts that count, and this one (R403). -/
def restartsWith (t : Thimble) : List Word64 := t.restarts.filter (fun x => decide (t.time.toNat < x.toNat + 60000000000)) ++ [t.time]

/-- The Thimble as a restart begins. -/
def restarting (t : Thimble) : Thimble :=
  { t with restarts := restartsWith t, signing := none, signAgain := false, points := 0, replay := none }

theorem unrecorded_startSigning : unrecorded x.startSigning = unrecorded x := (startSigning_frame x).1

theorem unrecorded_closeTrigger : unrecorded x.closeTrigger = unrecorded x := by
  unfold Thimble.closeTrigger Thimble.trigger
  split
  · rfl
  · split
    · rfl
    · exact unrecorded_startSigning

/-- The open lot ends with a restart (R411). -/
def lotEnded (t : Thimble) : Thimble :=
  if t.batch ≠ 0 then ({ t.kernelRecord 6 [t.batch, 0, 0, 0, 0, 0] 0xFF 1 with batch := 0 }).closeTrigger else t

/-- The records of a restart after its GENESIS. -/
def restartRecords (key : Bool) (recordKey : Option Nat) (t : Thimble) : Thimble :=
  match key, recordKey with
  | true, some n => (lotEnded t).kernelRecord 13 (byteWords (keyDigest (recModulus n) (recExponent n)) 6)
  | _, _ => lotEnded t

theorem unrecorded_lotEnded : unrecorded (lotEnded x) = unrecorded { x with batch := 0 } := by
  unfold lotEnded
  split
  · have record : unrecorded (x.kernelRecord 6 [x.batch, 0, 0, 0, 0, 0] 0xFF 1) = unrecorded x := unrecorded_record
    exact unrecorded_closeTrigger.trans (congrArg (fun t : Thimble => { t with batch := 0 }) record :)
  · next zero =>
    have none_ : x.batch = 0 := not_not.mp zero
    exact congrArg unrecorded (show x = { x with batch := 0 } by rw [← none_])

theorem unrecorded_restartRecords {k : Option Nat} : unrecorded (restartRecords key k x) = unrecorded { x with batch := 0 } := by
  unfold restartRecords
  split
  · exact unrecorded_record.trans unrecorded_lotEnded
  · exact unrecorded_lotEnded

/-- The slot is picked before the chain opens. -/
def picked (w : W) : W := ((w.endGate.onThm restarting).onThm fun t => { t with st := .boot }).pickSlot

theorem thmRestart_eq : w.thmRestart cause key =
    if 3 ≤ (restartsWith w.endGate.dev.thm).length then
      ((w.endGate.onThm restarting).onThm fun t => { t with st := .halted }).thmPage.notices
    else (((picked w).genesis cause).onThm (restartRecords key ((picked w).genesis cause).fuse.recordKey)).thmPage.notices := by
  have begun : (w.endGate.onThm fun t => { t with
      restarts := w.endGate.dev.thm.restarts.filter (fun x => decide (w.endGate.dev.thm.time.toNat < x.toNat + 60000000000)) ++
        [w.endGate.dev.thm.time], signing := none, signAgain := false, points := 0, replay := none }) = w.endGate.onThm restarting := by
    have left := onThm_still (w := w.endGate) (f := fun t => { t with
      restarts := w.endGate.dev.thm.restarts.filter (fun x => decide (w.endGate.dev.thm.time.toNat < x.toNat + 60000000000)) ++
        [w.endGate.dev.thm.time], signing := none, signAgain := false, points := 0, replay := none }) rfl rfl
    have right := onThm_still (w := w.endGate) (f := restarting) rfl rfl
    exact left.trans right.symm
  unfold W.thmRestart
  dsimp only
  rw [begun]
  rfl

end Sys2Proof.Proofs
end

section
/-! A restart with its GENESIS, and IMAGE_ACTIVATE (R403, R411, R420); the answer and the end of a request (R421). -/

namespace Sys2Proof.Proofs

open Machine Laws

set_option Elab.async false

variable {s : State} {w v a b : W} {x y : Thimble} {n cause : Nat} {key : Bool} {g h : GateReq} {r : Byte} {num : Word32} {i : Instr}

/-! The boot that a restart runs. -/

/-- The Thimble with a slot that may run: A where `a`, else B where `b` (R400 step 4). -/
def slotPicked (a b : Bool) (digest : List Byte) (t : Thimble) : Thimble :=
  { t with imageOk := a || b, slotB := !a && b, fallback := !a && b, imgDigest := digest }

theorem alike_pickSlot : ∃ a b digest, Alike (withThm w (slotPicked a b digest w.dev.thm)) w.pickSlot := by
  unfold W.pickSlot
  dsimp only
  generalize w.thmSlotOk false _ = a
  generalize w.thmSlotOk true _ = b
  generalize (if (a || b) = true then (w.dev.images.flash.thmSlot (!a && b)).digest else []) = digest
  have change : w.onThm (slotPicked a b digest) = withThm w (slotPicked a b digest w.dev.thm) := onThm_still rfl rfl
  refine ⟨a, b, digest, ?_⟩
  rw [← change]
  exact .ite alike_noticeEvent .refl

/-- The Thimble whose chain begins, with its first record (R411). -/
def chainOpened (k : Nat) (audit cause : Nat) (t : Thimble) : Thimble :=
  ({ t with chain := Config.freeBytes k 16 }).kernelRecord 1
    (byteWords (Config.freeBytes k 16) 4 ++ [w32 audit, w32 (cause + at_ t.version.toNat 16)])

theorem genesis_eq : w.genesis cause = (w.upd fun d => { d with free := d.free + 1 }).onThm (chainOpened w.dev.free w.fuse.audit cause) := rfl

theorem lasting_genesis : lasting (w.genesis cause).dev.thm = lasting w.dev.thm := by
  rw [genesis_eq, lasting_onThm]
  exact lasting_record

theorem fuse_genesis : (w.genesis cause).fuse = w.fuse := by
  rw [genesis_eq]
  exact fuse_onThm

theorem fuse_thmPage : w.thmPage.fuse = w.fuse := by rw [thmPage_eq, fuse_withThm]

theorem lasting_notices : lasting w.notices.dev.thm = lasting w.dev.thm := congrArg lasting alike_notices.thm

/-- What a restart leaves: an empty gate, the points off, the restarts counted, the state. -/
theorem restart_lasting :
    lasting (w.thmRestart cause key).dev.thm =
      lasting { restarting w.endGate.dev.thm with st := if 3 ≤ (restartsWith w.endGate.dev.thm).length then .halted else .boot } ∧
    (w.thmRestart cause key).fuse = w.fuse := by
  have ended := endGate_frame (w := w)
  obtain ⟨-, fuse, -⟩ := ended
  rw [thmRestart_eq]
  split
  · constructor
    · rw [lasting_notices, lasting_thmPage, lasting_onThm]
      have begun : (w.endGate.onThm restarting) = withThm w.endGate (restarting w.endGate.dev.thm) := onThm_still rfl rfl
      rw [begun]
      rfl
    · rw [alike_notices.2, fuse_thmPage, fuse_onThm, fuse_onThm, fuse]
  · obtain ⟨a, b, digest, slot⟩ := alike_pickSlot (w := (w.endGate.onThm restarting).onThm fun t => { t with st := .boot })
    have begun : (w.endGate.onThm restarting) = withThm w.endGate (restarting w.endGate.dev.thm) := onThm_still rfl rfl
    have booted : ((w.endGate.onThm restarting).onThm fun t => { t with st := .boot }) =
        withThm w.endGate { restarting w.endGate.dev.thm with st := .boot } := by
      rw [begun]
      exact onThm_still (w := withThm w.endGate (restarting w.endGate.dev.thm)) (f := fun t => { t with st := .boot }) rfl rfl
    have pick : lasting (picked w).dev.thm = lasting { restarting w.endGate.dev.thm with st := .boot } := by
      unfold picked
      rw [slot.thm, booted]
      rfl
    have pickFuse : (picked w).fuse = w.fuse := by
      unfold picked
      rw [slot.2, fuse_withThm, fuse_onThm, fuse_onThm, fuse]
    have records {t : Thimble} {k : Option Nat} : lasting (restartRecords key k t) = lasting t :=
      (congrArg lasting unrecorded_restartRecords : _).trans rfl
    constructor
    · rw [lasting_notices, lasting_thmPage, lasting_onThm, records, lasting_genesis, pick]
    · rw [alike_notices.2, fuse_thmPage, fuse_onThm, fuse_genesis, pickFuse]

end Sys2Proof.Proofs
end

section
/-! IMAGE_ACTIVATE (R420), the answer of a request and its end (R421); what O39 says of the requests. -/

namespace Sys2Proof.Proofs

open Machine Laws

set_option Elab.async false

variable {s : State} {w v a b : W} {x y : Thimble} {n cause : Nat} {key : Bool} {g h : GateReq} {r : Byte} {num : Word32} {i : Instr}
  {fw : FwAnswer} {version : Half} {params : Tbl Word32} {ps : List Word32}

/-! IMAGE_ACTIVATE. -/

/-- The record key is made where there is none (R420). -/
def keyed (w : W) : W :=
  if w.fuse.recordKey.isNone then
    ({ (w.upd fun d => { d with free := d.free + 1 }) with fuse := { w.fuse with recordKey := some w.dev.free } } : W).auditStep
  else w

theorem keyed_thm : (keyed w).dev.thm = w.dev.thm := by
  unfold keyed
  split <;> rfl

theorem keyed_key : (keyed w).fuse.recordKey ≠ none ∧ (w.fuse.recordKey ≠ none → (keyed w).fuse.recordKey = w.fuse.recordKey) := by
  unfold keyed
  split
  · next none_ => exact ⟨Option.some_ne_none _, fun some_ => absurd (Option.isNone_iff_eq_none.mp none_) some_⟩
  · next some_ =>
    have there : w.fuse.recordKey ≠ none := fun none_ => some_ (Option.isNone_iff_eq_none.mpr none_)
    exact ⟨there, fun _ => rfl⟩

theorem keyed_audit (few : w.fuse.audit < 4095) :
    (keyed w).fuse.audit + 1 = w.fuse.audit + (if w.fuse.recordKey = none then 2 else 1) := by
  unfold keyed
  split
  · next none_ =>
    have audit : (({ (w.upd fun d => { d with free := d.free + 1 }) with fuse := { w.fuse with recordKey := some w.dev.free } } : W).auditStep).fuse.audit =
        min (w.fuse.audit + 1) 4095 := rfl
    rw [if_pos (Option.isNone_iff_eq_none.mp none_), audit, Nat.min_eq_left few]
  · next some_ => rw [if_neg fun none_ => some_ (Option.isNone_iff_eq_none.mpr none_)]

/-- What IMAGE_ACTIVATE does once it is accepted (R420). -/
def activated (g : GateReq) (w : W) : W :=
  ((((keyed w).storeParams (BitVec.ofNat 16 (w.dev.images.flash.thmSlot (g.sub == 1)).version)
      (if (keyed w).dev.thm.storeOk then (keyed w).dev.thm.params else ⟨[]⟩)).gateAccept 12
    ([w32 g.sub.toNat, w32 (w.dev.images.flash.thmSlot (g.sub == 1)).version] ++ byteWords (w.dev.images.flash.thmSlot (g.sub == 1)).digest 4))).thmRestart 2
    w.fuse.recordKey.isNone

/-- The checks of IMAGE_ACTIVATE. -/
def activateChecks (g : GateReq) (w : W) : List (Bool × Byte) :=
  [(decide (2 ≤ g.sub.toNat), gBad), arg0 g, (!w.dev.thm.sealOpen, gSealClosed), (w.dev.thm.lifecycle == 3, gLifecycle),
   (decide (w.auditLeft < 1 + w.fuse.recordKey.isNone.toNat), gAudit), w.room,
   (!(w.thmSlotOk (g.sub == 1) fun v => decide (w.dev.thm.version.toNat ≤ v)) ||
      decide (0x10000 ≤ (w.dev.images.flash.thmSlot (g.sub == 1)).version), gImageBad)]

theorem imageActivate_row : exec .imageActivate s = runFuse s fun w => w.gateRow 15 activateChecks activated := rfl

theorem activate_passes (sub : g.sub.toNat < 2) (arg : g.arg = 0) (open_ : s.dev.thm.sealOpen = true) (life : s.dev.thm.lifecycle ≠ 3)
    (few : s.fuse.audit + 2 ≤ 4095) (room : s.dev.thm.logFull = false)
    (good : s.world.thmSlotOk (g.sub == 1) (fun v => decide (s.dev.thm.version.toNat ≤ v)) = true)
    (fits : (s.dev.images.flash.thmSlot (g.sub == 1)).version < 0x10000) :
    firstFail ((!(kernelCode 15 || s.dev.thm.fwRuns), gState) :: activateChecks g s.world) = none := by
  have point : (decide (2 ≤ g.sub.toNat), gBad) = (false, gBad) := by rw [decide_eq_false (Nat.not_le.mpr sub)]
  have sealed : (!s.world.dev.thm.sealOpen, gSealClosed) = (false, gSealClosed) := congrArg (fun b => (!b, gSealClosed)) open_
  have alive : (s.world.dev.thm.lifecycle == 3, gLifecycle) = (false, gLifecycle) := congrArg (·, gLifecycle) (beq_eq_false_iff_ne.mpr life)
  have left : (decide (s.world.auditLeft < 1 + s.world.fuse.recordKey.isNone.toNat), gAudit) = (false, gAudit) := by
    have most := Bool.toNat_le s.fuse.recordKey.isNone
    have enough : ¬ (4095 - s.fuse.audit < 1 + s.fuse.recordKey.isNone.toNat) := by omega
    exact congrArg (·, gAudit) (decide_eq_false enough)
  have image : (!(s.world.thmSlotOk (g.sub == 1) fun v => decide (s.world.dev.thm.version.toNat ≤ v)) ||
      decide (0x10000 ≤ (s.world.dev.images.flash.thmSlot (g.sub == 1)).version), gImageBad) = (false, gImageBad) := by
    have good' : (s.world.thmSlotOk (g.sub == 1) fun v => decide (s.world.dev.thm.version.toNat ≤ v)) = true := good
    have fits' : decide (0x10000 ≤ (s.world.dev.images.flash.thmSlot (g.sub == 1)).version) = false := decide_eq_false (Nat.not_le.mpr fits)
    rw [good', fits']
    rfl
  rw [served (.inl rfl), activateChecks, firstFail_pass point, firstFail_pass (arg0_passes arg), firstFail_pass sealed, firstFail_pass alive,
    firstFail_pass left, firstFail_pass (room_passes room), firstFail_pass image]
  rfl

/-- What a request that is answered with the number of its record leaves of the Thimble. -/
theorem accepted_thm (gate : y.gate = some g) (time : y.time = w.dev.thm.time) (last : y.last = w.dev.thm.last) (room : y.logFull = false) :
    let t := ((withThm w y).gateAccept 12 ps).dev.thm
    t.gate = some { g with answer := some (0, y.last + 1) } ∧ t.gateNext = y.gateNext ∧ t.version = y.version := by
  have made := (alike_gateAccept (w := w) (g := g) (ty := 12) (ps := ps) (point := 0xFF) gate time last).thm
  have untimed_ : untimed (w.onThm fun _ => y.kernelRecord 12 ps 0xFF).dev.thm = untimed (y.kernelRecord 12 ps 0xFF) := untimed_onThm
  obtain ⟨frame, -, num, -, -⟩ := record_frame (ty := 12) (point := 0xFF) (fw := false) (flags := 0) (ps := ps) room
  have num' : (w.onThm fun _ => y.kernelRecord 12 ps 0xFF).dev.thm.last = y.last + 1 := (congrArg Thimble.last untimed_ :).trans num
  have frame' : unrecorded (w.onThm fun _ => y.kernelRecord 12 ps 0xFF).dev.thm = unrecorded y := (congrArg unrecorded untimed_ :).trans frame
  unfold madeFor at made
  rw [answer_eq] at made
  generalize (w.onThm fun _ => y.kernelRecord 12 ps 0xFF) = u at made num' frame'
  intro t
  refine ⟨?_, (congrArg Thimble.gateNext made :).trans (congrArg Thimble.gateNext frame' :),
    (congrArg Thimble.version made :).trans (congrArg Thimble.version frame' :)⟩
  rw [← num']
  exact (congrArg Thimble.gate made :)

/-- The Thimble restarts after an answered request. -/
theorem restarted_thm (gate : w.dev.thm.gate = some { g with answer := some (0, num) }) :
    let t := (w.thmRestart cause key).dev.thm
    t.gate = none ∧ t.points = 0 ∧ t.version = w.dev.thm.version ∧
    (w.dev.thm.gateNext = none → t.resp = w32 (0 + at_ g.code.toNat 8 + at_ g.tag.toNat 16) ∧ t.respRnum = num) := by
  obtain ⟨left, -⟩ := restart_lasting (w := w) (cause := cause) (key := key)
  obtain ⟨frame, -, empty⟩ := endGate_frame (w := w)
  intro t
  refine ⟨(congrArg (·.1) left :).trans empty, (congrArg (·.2.2.2.2.1) left :), (congrArg (·.2.2.2.1) left :).trans (congrArg Thimble.version frame :),
    fun next => ?_⟩
  have one := endGate_one gate next
  have pub := (alike_publish (r := 0) (num := num) gate).thm
  have ended : w.endGate.dev.thm = published { g with answer := some (0, num) } 0 num w.dev.thm := (congrArg (fun w : W => w.dev.thm) one).trans pub
  have resp : w.endGate.dev.thm.resp = w32 (0 + at_ g.code.toNat 8 + at_ g.tag.toNat 16) := congrArg Thimble.resp ended
  have rnum : w.endGate.dev.thm.respRnum = num := congrArg Thimble.respRnum ended
  exact ⟨(congrArg (·.2.1) left :).trans resp, (congrArg (·.2.2.1) left :).trans rnum⟩

/-- The effect of an activation. -/
structure Activated (s : State) (g : GateReq) (t : State) : Prop where
  audit : t.fuse.audit = s.fuse.audit + (if s.fuse.recordKey = none then 2 else 1)
  key : t.fuse.recordKey ≠ none
  same : s.fuse.recordKey ≠ none → t.fuse.recordKey = s.fuse.recordKey
  version : t.dev.thm.version.toNat = (s.dev.images.flash.thmSlot (g.sub == 1)).version
  points : t.dev.thm.points = 0
  gate : t.dev.thm.gate = none
  answer : s.dev.thm.gateNext = none → t.dev.thm.resp = w32 (15 * 2 ^ 8 + g.tag.toNat * 2 ^ 16) ∧ t.dev.thm.respRnum = s.dev.thm.last + 1

theorem logFull_congr (last : y.last = x.last) (acked : y.acked = x.acked) : y.logFull = x.logFull := by
  unfold Thimble.logFull Thimble.unacked
  rw [last, acked]

theorem activate_done (waits : Awaits s g 15) (few : s.fuse.audit + 2 ≤ 4095) (room : s.dev.thm.logFull = false)
    (fits : (s.dev.images.flash.thmSlot (g.sub == 1)).version < 0x10000) :
    Activated s g { stateOf s (activated g s.world) with fuse := (activated g s.world).fuse } := by
  obtain ⟨gate, code, -, -⟩ := waits
  have thm := keyed_thm (w := s.world)
  have keys := keyed_key (w := s.world)
  have audit := keyed_audit (w := s.world) (show s.fuse.audit < 4095 by omega)
  have low : (keyed s.world).fuse.audit < 4095 := by
    have all_ : (keyed s.world).fuse.audit + 1 = s.fuse.audit + (if s.fuse.recordKey = none then 2 else 1) := audit
    split at all_ <;> omega
  have flash : s.world.dev.images.flash = s.dev.images.flash := rfl
  unfold activated
  rw [flash]
  generalize [w32 g.sub.toNat, w32 (s.dev.images.flash.thmSlot (g.sub == 1)).version] ++
    byteWords (s.dev.images.flash.thmSlot (g.sub == 1)).digest 4 = ps
  generalize (if (keyed s.world).dev.thm.storeOk then (keyed s.world).dev.thm.params else ⟨[]⟩) = params
  generalize s.world.fuse.recordKey.isNone = made
  rw [storeParams_eq]
  have number : (BitVec.ofNat 16 (s.dev.images.flash.thmSlot (g.sub == 1)).version).toNat = (s.dev.images.flash.thmSlot (g.sub == 1)).version := by
    rw [BitVec.toNat_ofNat]
    exact Nat.mod_eq_of_lt fits
  generalize BitVec.ofNat 16 (s.dev.images.flash.thmSlot (g.sub == 1)).version = version at number
  have fuse := stored_fuse (w := keyed s.world) (version := version) (params := params) low
  have still : (stored (keyed s.world) version params).dev.thm = s.dev.thm := stored_thm.trans thm
  rw [thm]
  generalize stored (keyed s.world) version params = u at fuse still
  have held : (storedThm version params s.dev.thm).gate = some g := gate
  obtain ⟨answer, next, kept⟩ := accepted_thm (w := u) (ps := ps) held (congrArg Thimble.time still).symm (congrArg Thimble.last still).symm
    ((logFull_congr rfl rfl).trans room)
  have fuse' : ((withThm u (storedThm version params s.dev.thm)).gateAccept 12 ps).fuse = u.fuse :=
    (alike_gateAccept (w := u) (ty := 12) (ps := ps) (point := 0xFF) held (congrArg Thimble.time still).symm
      (congrArg Thimble.last still).symm).2.trans fuse_madeFor
  have world : s.world.dev.thm = s.dev.thm := rfl
  rw [world]
  generalize (withThm u (storedThm version params s.dev.thm)).gateAccept 12 ps = v at answer next kept fuse'
  obtain ⟨empty, points, version', resp⟩ := restarted_thm (cause := 2) (key := made) answer
  have fuse'' := (restart_lasting (w := v) (cause := 2) (key := made)).2
  generalize v.thmRestart 2 made = z at empty points version' resp fuse''
  have fuses : z.fuse = { (keyed s.world).fuse with audit := (keyed s.world).fuse.audit + 1 } := fuse''.trans (fuse'.trans fuse)
  exact {
    audit := (congrArg Fuse.audit fuses).trans audit
    key := by
      show z.fuse.recordKey ≠ none
      rw [fuses]
      exact keys.1
    same := fun some_ => (congrArg Fuse.recordKey fuses).trans (keys.2 some_)
    version := (congrArg BitVec.toNat (version'.trans kept)).trans number
    points := points
    gate := empty
    answer := fun none_ => by
      obtain ⟨word, rnum⟩ := resp (next.trans none_)
      refine ⟨word.trans ?_, rnum⟩
      rw [code]
      exact congrArg (fun n => w32 (n + at_ g.tag.toNat 16)) (Nat.zero_add _) }

theorem imageActivate_done (waits : Awaits s g 15) (sub : g.sub.toNat < 2) (arg : g.arg = 0) (open_ : s.dev.thm.sealOpen = true)
    (life : s.dev.thm.lifecycle ≠ 3) (few : s.fuse.audit + 2 ≤ 4095) (room : s.dev.thm.logFull = false)
    (good : s.world.thmSlotOk (g.sub == 1) (fun v => decide (s.dev.thm.version.toNat ≤ v)) = true)
    (fits : (s.dev.images.flash.thmSlot (g.sub == 1)).version < 0x10000) : Answers .imageActivate s (Activated s g) := by
  have row := gateRow_waiting (checks := activateChecks) (act := activated) waits
  rw [activate_passes sub arg open_ life few room good fits] at row
  refine ⟨_, ?_, activate_done waits few room fits⟩
  rw [imageActivate_row, runFuse, row]
  rfl

end Sys2Proof.Proofs
end

section
/-! The answer of a request and its time limit (R421), and the requests of the gate together (O39). -/

namespace Sys2Proof.Proofs

open Machine Laws

set_option Elab.async false

variable {s : State} {w v a b : W} {x y : Thimble} {g h : GateReq} {r : Byte} {num : Word32} {i : Instr} {fw : FwAnswer}

/-! The answer is published. -/

theorem gateAnswer_row (gate : s.dev.thm.gate = some g) (answer : g.answer = some (r, num)) :
    exec .gateAnswer s = .next (stateOf s (s.world.publish r num).thmPage) := by
  have world : s.world.dev.thm = s.dev.thm := rfl
  have row : exec .gateAnswer s = .next (stateOf s (match s.world.dev.thm.gate with
    | some { answer := some (r, n), .. } => (s.world.publish r n).thmPage
    | _ => s.world)) := rfl
  rw [row, world, gate]
  obtain ⟨code, tag, sub, arg, answer', watched⟩ := g
  obtain rfl : answer' = some (r, num) := answer
  rfl

theorem gateAnswer_still (none_ : ∀ h, s.dev.thm.gate = some h → h.answer = none) : Answers .gateAnswer s (Only s · id) := by
  have world : s.world.dev.thm = s.dev.thm := rfl
  have row : exec .gateAnswer s = .next (stateOf s (match s.world.dev.thm.gate with
    | some { answer := some (r, n), .. } => (s.world.publish r n).thmPage
    | _ => s.world)) := rfl
  refine ⟨stateOf s s.world, row.trans (next_of ?_), rfl⟩
  rw [world]
  cases gate : s.dev.thm.gate with
  | none => rfl
  | some h =>
    obtain ⟨code, tag, sub, arg, answer, watched⟩ := h
    obtain rfl : answer = none := none_ _ gate
    rfl

theorem publish_page_thm (gate : w.dev.thm.gate = some g) :
    ∃ seq page, (w.publish r num).thmPage.dev.thm = { published g r num w.dev.thm with pageSeq := seq, page := page } := by
  have pub := (alike_publish (r := r) (num := num) gate).thm
  rw [thmPage_thm]
  unfold paged
  rw [pub]
  exact ⟨_, _, rfl⟩

/-- What the answer of `g` leaves in the mailbox and in THMG. -/
theorem published_words (same : ∃ seq page, x = { published g r num y with pageSeq := seq, page := page }) :
    x.gate = y.gateNext ∧ x.resp = w32 (r.toNat + g.code.toNat * 2 ^ 8 + g.tag.toNat * 2 ^ 16) ∧ x.respRnum = num ∧
    (g.watched = true → x.gateRnum = num ∧
      x.gateStat = w32 (2 + g.tag.toNat * 2 ^ 8 + r.toNat * 2 ^ 16 + g.code.toNat * 2 ^ 24)) := by
  obtain ⟨seq, page, rfl⟩ := same
  exact ⟨rfl, rfl, rfl, fun watched => ⟨if_pos watched, if_pos watched⟩⟩

/-! The time limit. -/

theorem gateTimeout_row (gate : s.dev.thm.gate = some g) (answer : g.answer = none) :
    exec .gateTimeout s = .next (stateOf s (((s.world.publish 0x0A 0).noticeEvent 8 g.word.toNat).thmPage)) := by
  have world : s.world.dev.thm = s.dev.thm := rfl
  have row : exec .gateTimeout s = .next (stateOf s (match s.world.dev.thm.gate with
    | some g => if g.answer.isNone then ((s.world.publish 0x0A 0).noticeEvent 8 g.word.toNat).thmPage else s.world
    | none => s.world)) := rfl
  rw [row, world, gate]
  exact next_of (if_pos (Option.isNone_iff_eq_none.mpr answer))

theorem gateTimeout_still (no : s.dev.thm.gate = none ∨ s.dev.thm.gate = some g ∧ g.answer ≠ none) : Answers .gateTimeout s (Only s · id) := by
  have world : s.world.dev.thm = s.dev.thm := rfl
  have row : exec .gateTimeout s = .next (stateOf s (match s.world.dev.thm.gate with
    | some g => if g.answer.isNone then ((s.world.publish 0x0A 0).noticeEvent 8 g.word.toNat).thmPage else s.world
    | none => s.world)) := rfl
  refine ⟨stateOf s s.world, row.trans (next_of ?_), rfl⟩
  rw [world]
  rcases no with gate | ⟨gate, some_⟩ <;> rw [gate]
  exact if_neg fun none_ => some_ (Option.isNone_iff_eq_none.mp none_)

theorem timeout_thm (gate : w.dev.thm.gate = some g) {k d : Nat} :
    ∃ seq page, ((w.publish r num).noticeEvent k d).thmPage.dev.thm = { published g r num w.dev.thm with pageSeq := seq, page := page } := by
  have pub := (alike_publish (r := r) (num := num) gate).thm
  have event : ((w.publish r num).noticeEvent k d).dev.thm = published g r num w.dev.thm := alike_noticeEvent.thm.trans pub
  rw [thmPage_thm]
  unfold paged
  rw [event]
  exact ⟨_, _, rfl⟩

/-! The requests. -/

theorem requests_still {q : BitVec 4 × Instr} (mem : q ∈ requestRows fw)
    (no : s.dev.thm.gate = none ∨ (∃ g, s.dev.thm.gate = some g ∧ (g.code ≠ q.1 ∨ g.answer ≠ none)) ∨ s.dev.thm.serves = false) :
    Answers q.2 s (Only s · id) := by
  obtain ⟨_, _, row⟩ := requests_serve (s := s) q mem
  exact gate_still row no

theorem requests_down {q : BitVec 4 × Instr} (mem : q ∈ requestRows fw) (waits : Awaits s g q.1) (down : s.dev.thm.fwRuns = false)
    (needs : 1 ≤ q.1.toNat ∧ q.1.toNat ≤ 8 ∨ q.1 = 13 ∨ q.1 = 14) : Answers q.2 s (Answered s g s.dev.thm 2 0) := by
  obtain ⟨_, _, row⟩ := requests_serve (s := s) q mem
  exact no_firmware row waits down needs

theorem requests_bad {q : BitVec 4 × Instr} (mem : q ∈ plainRequests fw) (waits : Awaits s g q.1) (runs : s.dev.thm.fwRuns = true)
    (sub : g.sub ≠ 0) : Answers q.2 s (Answered s g s.dev.thm 1 0) := by
  obtain ⟨_, _, row⟩ := plain_serve (s := s) q mem
  exact bad_sub row waits runs sub

/-- A restart, or a batch, that R416 and R415 allow. -/
theorem mayStart_of (may : s.dev.thm.sealOpen = false ∧ s.dev.thm.inhibit = false ∧ s.dev.thm.logFull = false ∧ s.fuse.recordKey ≠ none ∧
    s.dev.thm.lifecycle ≠ 3 ∧ s.dev.thm.refLost = false) : MayStart s :=
  let ⟨closed, inhibit, room, key, life, ref⟩ := may
  ⟨closed, inhibit, room, key, life, ref⟩

/-- Settles O39: each request runs its row of the gate, and each row refuses by its first check that fails or does its work. -/
theorem gateRequests : Obligations.GateRequests := by
  intro s g fw d x f waits runs w waiting answered made recorded event code grants may pt requests
  refine ⟨fun q mem no => requests_still (fw := fw) mem no, fun q mem wait down needs => requests_down (fw := fw) mem wait down needs,
    fun wait sub arg => gateNop_done wait sub arg, fun q mem wait run sub => requests_bad (fw := fw) mem wait run sub,
    fun ⟨wait, run, sub⟩ m grant => thmStart_done wait run sub (mayStart_of m) grant,
    fun ⟨wait, run, sub⟩ m refuse => thmStart_denied wait run sub (mayStart_of m) refuse,
    fun ⟨wait, run, sub⟩ open_ => thmStart_fails wait run sub (starts_open open_),
    fun ⟨wait, run, sub⟩ closed inhibit => thmStart_fails wait run sub (starts_inhibited closed inhibit),
    fun ⟨wait, run, sub⟩ closed inhibit room key => thmStart_fails wait run sub (starts_keyless closed inhibit room key),
    fun ⟨wait, run, sub⟩ room grant => thmStop_done wait run sub room grant,
    fun q mem wait run => point_request (fw := fw) q mem wait run,
    fun ⟨wait, run, sub⟩ arg none_ m grant => batchOpen_done wait run sub arg none_ (mayStart_of m) grant,
    fun ⟨wait, run, sub⟩ arg some_ => batchOpen_twice wait run sub arg some_,
    fun ⟨wait, run, sub⟩ some_ same room grant => batchClose_done wait run sub some_ same room grant,
    fun ⟨wait, run, sub⟩ other => batchClose_other wait run sub other,
    fun wait sub arg room => signNow_done wait sub arg room,
    fun wait sub low high => recordAck_done wait sub low high, fun wait sub out => recordAck_bad wait sub out,
    fun wait sub there => replay_done wait sub there, fun wait sub arg room => timeMark_done wait sub arg room,
    fun wait run => ⟨fun closed => paramWrite_closed wait run closed,
      fun open_ index fits grant => paramWrite_done wait run open_ index fits grant⟩, ?_, ?_, gateAnswer_still, ?_, gateTimeout_still, ?_⟩
  · rintro ⟨wait, run, sub⟩ arg open_ points batch few room new range grant
    obtain ⟨t, row, done⟩ := paramCommit_done wait run sub arg open_ points batch few room range grant
    exact ⟨t, row, done.fuse, done.params, done.version, done.staged, done.commit, done.store, done.before, done.copies, done.answer⟩
  · intro wait sub arg open_ life few room slot good fits
    obtain ⟨t, row, done⟩ := imageActivate_done wait sub arg open_ life few room good fits
    exact ⟨t, row, done.audit, done.key, done.same, done.version, done.points, done.gate, done.answer⟩
  · intro r n gate answer
    exact ⟨_, gateAnswer_row gate answer, published_words (publish_page_thm (w := s.world) gate)⟩
  · intro gate answer
    obtain ⟨next, resp, -, stat⟩ := published_words (timeout_thm (w := s.world) (r := 0x0A) (num := 0) (k := 8) (d := g.word.toNat) gate)
    exact ⟨_, gateTimeout_row gate answer, next, resp, fun watched => (stat watched).2⟩

end Sys2Proof.Proofs
end

section
/-! The kernel's restarts and the chain that each opens (R403, R411, R412). -/

namespace Sys2Proof.Proofs

open Machine Laws

set_option Elab.async false

variable {s : State} {w v a b : W} {x y : Thimble} {n m k cause : Nat} {key : Bool} {g : GateReq} {r : Byte} {num : Word32} {i : Instr}
  {z : ThmRec}

/-! A replay that has ended stays ended. -/

theorem replay_tick (none_ : x.replay = none) : (x.tick n).replay = none := by
  have idle {t : Thimble} {at_ : Word64} {c : Nat} (h : t.replay = none) :
      (if t.replay.isSome ∧ at_.toNat ≤ t.time.toNat then t.copies c else t).replay = none := by
    rw [if_neg fun k => absurd k.1 (by rw [h]; exact Bool.false_ne_true)]
    exact h
  unfold Thimble.tick
  dsimp only
  split
  · split
    · refine idle ?_
      split <;> exact none_
    · exact none_
  · exact none_

theorem replay_onThm {f : Thimble → Thimble} (none_ : (f w.dev.thm).replay = none) : (w.onThm f).dev.thm.replay = none := by
  have told {v : W} : (v.each (List.range 65) fun k w => w.interrupt k 59).dev.thm = v.dev.thm :=
    each_same (g := fun w => w.dev.thm) fun k v => alike_interrupt.thm
  have ticked {c : Prop} [Decidable c] : (if c then f w.dev.thm
      else { f w.dev.thm with time := w.dev.thm.time }.tick ((f w.dev.thm).time.toNat - w.dev.thm.time.toNat)).replay = none := by
    split
    · exact none_
    · exact replay_tick none_
  unfold W.onThm
  dsimp only
  split
  · rw [told]
    exact ticked
  · exact ticked

theorem replay_startSigning : x.startSigning.replay = x.replay := by
  unfold Thimble.startSigning
  split <;> rfl

theorem replay_pace : x.pace.replay = x.replay := by
  unfold Thimble.pace
  split
  · split <;> rfl
  · rfl

theorem replay_record {ty point : Byte} {fwMade : Bool} {flags : BitVec 6} {ps : List Word32} :
    (x.record ty point fwMade flags ps).replay = x.replay := by
  have signed (t : Thimble) : (signedAfter t).replay = t.replay := by
    unfold signedAfter
    split
    · exact replay_startSigning
    · rfl
  cases full : x.logFull with
  | true => rw [record_full full]
  | false =>
    rw [record_eq full]
    dsimp only
    split
    · exact replay_pace
    · exact (signed _).trans replay_pace

theorem replay_closeTrigger : x.closeTrigger.replay = x.replay := by
  unfold Thimble.closeTrigger Thimble.trigger
  split
  · rfl
  · split
    · rfl
    · exact replay_startSigning

theorem replay_lotEnded : (lotEnded x).replay = x.replay := by
  unfold lotEnded
  split
  · exact replay_closeTrigger.trans (replay_record (x := x) (ps := [x.batch, 0, 0, 0, 0, 0]))
  · rfl

/-! The chain that a GENESIS record opens. -/

/-- Record `z` is the GENESIS of a chain with number `num` (R411, R412). -/
structure Genesis (y : Thimble) (num : Word32) (audit cause : Nat) (z : ThmRec) : Prop where
  mem : z ∈ y.log
  number : z.rnum = num
  typ : z.typ = 1
  prev : z.prev = List.replicate 16 0
  words : z.ps = byteWords y.chain 4 ++ [w32 audit, w32 (cause + y.version.toNat * 2 ^ 16)]
  chain : ∃ k, y.chain = Config.freeBytes k 16

theorem nextRecord_typ {t : Thimble} {ps : List Word32} : (nextRecord t 1 0xFF false 0 ps).typ = 1 := by
  unfold nextRecord ThmRec.typ
  dsimp only
  cases t.sealOpen <;> rfl

/-- The GENESIS record of chain `k`. -/
def genesisRecord (k : Nat) (audit cause : Nat) (x : Thimble) : ThmRec :=
  nextRecord ({ x with chain := Config.freeBytes k 16 } : Thimble).pace 1 0xFF false 0
    (byteWords (Config.freeBytes k 16) 4 ++ [w32 audit, w32 (cause + at_ x.version.toNat 16)])

/-- What GENESIS makes of a Thimble with room in its log. -/
theorem chainOpened_frame {audit : Nat} (room : x.logFull = false) :
    let y := chainOpened k audit cause x
    let z := genesisRecord k audit cause x
    unrecorded y = unrecorded { x with chain := Config.freeBytes k 16 } ∧ y.time = x.pace.time ∧ y.last = x.last + 1 ∧
    y.log = logWith x.log z ∧ y.head = sha256 (List.replicate 32 0 ++ z.bytes) := by
  obtain ⟨frame, time, last, log, head⟩ := record_frame (x := { x with chain := Config.freeBytes k 16 }) (ty := 1) (point := 0xFF) (fw := false)
    (flags := 0) (ps := byteWords (Config.freeBytes k 16) 4 ++ [w32 audit, w32 (cause + at_ x.version.toNat 16)]) ((logFull_congr rfl rfl).trans room)
  exact ⟨frame, time.trans (pace_congr rfl rfl), last, log, head⟩

theorem mem_logWith {log : List ThmRec} : z ∈ logWith log z := List.mem_append.mpr (.inr (List.mem_singleton.mpr rfl))

/-- A record stands in the log behind the next one. -/
theorem mem_logWith_logWith {log : List ThmRec} {z' : ThmRec} : z ∈ logWith (logWith log z) z' := by
  have last : z ∈ [z] := List.mem_singleton.mpr rfl
  unfold logWith
  generalize (if log.length < 16384 then log else log.drop 1) = front
  refine List.mem_append.mpr (.inl ?_)
  split
  · exact List.mem_append.mpr (.inr last)
  · next full =>
    rw [List.length_append, List.length_singleton] at full
    rw [List.drop_append_of_le_length (by omega)]
    exact List.mem_append.mpr (.inr last)

theorem log_closeTrigger : x.closeTrigger.log = x.log := by
  unfold Thimble.closeTrigger Thimble.trigger
  split
  · rfl
  · split
    · rfl
    · exact (startSigning_frame x).2.2.2.1

theorem mem_lotEnded {log : List ThmRec} (last : x.log = logWith log z) : z ∈ (lotEnded x).log := by
  unfold lotEnded
  split
  · rw [log_closeTrigger]
    show z ∈ (x.kernelRecord 6 [x.batch, 0, 0, 0, 0, 0] 0xFF 1).log
    cases full : x.logFull with
    | true =>
      rw [Thimble.kernelRecord, record_full full, last]
      exact mem_logWith
    | false =>
      obtain ⟨-, -, -, log', -⟩ := record_frame (x := x) (ty := 6) (point := 0xFF) (fw := false) (flags := 1) (ps := [x.batch, 0, 0, 0, 0, 0]) full
      rw [Thimble.kernelRecord, log', last]
      exact mem_logWith_logWith
  · rw [last]
    exact mem_logWith

/-! A restart, exactly. -/

theorem begun_eq : w.onThm restarting = withThm w (restarting w.dev.thm) := onThm_still rfl rfl

theorem begun_state {st : ThmSt} : ((w.onThm restarting).onThm fun t => { t with st := st }) = withThm w { restarting w.dev.thm with st := st } := by
  rw [begun_eq]
  exact onThm_still (w := withThm w (restarting w.dev.thm)) (f := fun t => { t with st := st }) rfl rfl

/-- The third restart in 60 s halts the Thimble (R402). -/
theorem restart_halts (third : 3 ≤ (restartsWith w.endGate.dev.thm).length) :
    (w.thmRestart cause key).dev.thm = paged w.endGate { restarting w.endGate.dev.thm with st := .halted } := by
  rw [thmRestart_eq, if_pos third, alike_notices.thm, thmPage_thm, begun_state]
  exact paged_congr rfl

/-- Another restart boots: what the pick of a slot leaves of the Thimble, and what then happens. -/
theorem restart_boots (few : ¬ 3 ≤ (restartsWith w.endGate.dev.thm).length) :
    ∃ (v : W) (slotA slotB : Bool) (digest : List Byte), v.dev.thm = slotPicked slotA slotB digest { restarting w.endGate.dev.thm with st := .boot } ∧ v.fuse = w.fuse ∧
      w.thmRestart cause key = ((v.genesis cause).onThm (restartRecords key (v.genesis cause).fuse.recordKey)).thmPage.notices := by
  obtain ⟨slotA, slotB, digest, slot⟩ := alike_pickSlot (w := (w.endGate.onThm restarting).onThm fun t => { t with st := .boot })
  refine ⟨picked w, slotA, slotB, digest, ?_, ?_, ?_⟩
  · unfold picked
    rw [slot.thm, begun_state]
    rfl
  · unfold picked
    rw [slot.2, begun_state]
    exact endGate_frame.2.1
  · rw [thmRestart_eq, if_neg few]

end Sys2Proof.Proofs
end

section
/-! The restarts of the Thimble, and the commands of its kernel (R397 to R404, R416, R434). -/

namespace Sys2Proof.Proofs

open Machine Laws

set_option Elab.async false

variable {s : State} {w v a b : W} {x y : Thimble} {n m k cause : Nat} {key : Bool} {g : GateReq} {num : Word32} {i : Instr}
  {z : ThmRec}

/-! A restart. -/

/-- The restarts of the last 60 s (R402). -/
def recent (x : Thimble) : List Word64 := x.restarts.filter (fun v => decide (x.time.toNat < v.toNat + 60000000000))

/-- What a restart for `cause` makes of the Thimble `x`. -/
structure Restarted (x : Thimble) (audit cause : Nat) (y : Thimble) : Prop where
  restarts : y.restarts = recent x ++ [x.time]
  points : y.points = 0
  gate : y.gate = none
  replay : y.replay = none
  third : 2 ≤ (recent x).length → y.st = .halted ∧ y.signing = none ∧ y.log = x.log
  boots : (recent x).length < 2 → y.st = .boot ∧ y.batch = 0 ∧ (x.logFull = false → ∃ z, Genesis y (x.last + 1) audit cause z)

/-- The GENESIS record of chain `k` in the log of a Thimble with that chain. -/
theorem genesis_of {audit : Nat} (chain : y.chain = Config.freeBytes k 16) (version : y.version = x.version)
    (log : genesisRecord k audit cause x ∈ y.log) : Genesis y (x.last + 1) audit cause (genesisRecord k audit cause x) := by
  refine ⟨log, ?_, nextRecord_typ, rfl, ?_, k, chain⟩
  · exact congrArg (· + 1) (congrArg Thimble.last (pace_frame ({ x with chain := Config.freeBytes k 16 } : Thimble)) :)
  · rw [chain, version]
    rfl

theorem replay_chainOpened {audit : Nat} : (chainOpened k audit cause x).replay = x.replay := replay_record

/-- The restart's records, from the Thimble as the pick of a slot leaves it. -/
theorem booted_thm {o : Option Nat} (none_ : w.dev.thm.replay = none) :
    let y := (((w.genesis cause).onThm (restartRecords false o)).thmPage.notices).dev.thm
    y.replay = none ∧ y.batch = 0 ∧ y.st = w.dev.thm.st ∧
    (w.dev.thm.logFull = false → ∃ z, Genesis y (w.dev.thm.last + 1) w.fuse.audit cause z) := by
  have opened : untimed (w.genesis cause).dev.thm = untimed (chainOpened w.dev.free w.fuse.audit cause w.dev.thm) := by
    rw [genesis_eq]
    exact untimed_onThm (f := chainOpened w.dev.free w.fuse.audit cause)
  have idle : (w.genesis cause).dev.thm.replay = none := by
    rw [genesis_eq]
    exact replay_onThm (f := chainOpened w.dev.free w.fuse.audit cause) (replay_chainOpened.trans none_)
  have openedFrame : unrecorded (w.genesis cause).dev.thm = unrecorded { w.dev.thm with chain := Config.freeBytes w.dev.free 16 } :=
    (congrArg unrecorded opened :).trans unrecorded_record
  generalize w.genesis cause = v at opened idle openedFrame
  have ended : untimed (v.onThm (restartRecords false o)).dev.thm = untimed (lotEnded v.dev.thm) := untimed_onThm
  have idle' : (v.onThm (restartRecords false o)).dev.thm.replay = none := replay_onThm (replay_lotEnded.trans idle)
  have frame : unrecorded (lotEnded v.dev.thm) = unrecorded { w.dev.thm with chain := Config.freeBytes w.dev.free 16, batch := 0 } :=
    unrecorded_lotEnded.trans (congrArg (fun t : Thimble => { t with batch := 0 }) openedFrame :)
  generalize v.onThm (restartRecords false o) = u at ended idle'
  have page : u.thmPage.notices.dev.thm = paged u u.dev.thm := alike_notices.thm.trans thmPage_thm
  have frame' : unrecorded u.thmPage.notices.dev.thm = unrecorded { w.dev.thm with chain := Config.freeBytes w.dev.free 16, batch := 0 } := by
    rw [page]
    exact (congrArg unrecorded ended :).trans frame
  have log : u.thmPage.notices.dev.thm.log = (lotEnded v.dev.thm).log := by
    rw [page]
    exact (congrArg Thimble.log ended :)
  have replay : u.thmPage.notices.dev.thm.replay = none := by
    rw [page]
    exact idle'
  generalize u.thmPage.notices.dev.thm = y at frame' log replay
  refine ⟨replay, (congrArg Thimble.batch frame' :), (congrArg Thimble.st frame' :), fun room => ?_⟩
  obtain ⟨-, -, -, log', -⟩ := chainOpened_frame (k := w.dev.free) (audit := w.fuse.audit) (cause := cause) room
  refine ⟨_, genesis_of (congrArg Thimble.chain frame' :) (congrArg Thimble.version frame' :) ?_⟩
  rw [log]
  exact mem_lotEnded ((congrArg Thimble.log opened :).trans log')

theorem restartsWith_eq : restartsWith w.endGate.dev.thm = recent w.dev.thm ++ [w.dev.thm.time] := by
  have same : restartsWith (gateless w.endGate.dev.thm) = restartsWith (gateless w.dev.thm) := congrArg restartsWith endGate_frame.1
  exact same

theorem restarted_by : Restarted w.dev.thm w.fuse.audit cause (w.thmRestart cause false).dev.thm := by
  obtain ⟨left, -⟩ := restart_lasting (w := w) (cause := cause) (key := false)
  obtain ⟨frame, fuse, empty⟩ := endGate_frame (w := w)
  have number : (restartsWith w.endGate.dev.thm).length = (recent w.dev.thm).length + 1 := by
    rw [restartsWith_eq, List.length_append]
    rfl
  have restarts : (w.thmRestart cause false).dev.thm.restarts = restartsWith w.endGate.dev.thm := (congrArg (·.2.2.2.2.2.1) left :)
  have points : (w.thmRestart cause false).dev.thm.points = 0 := (congrArg (·.2.2.2.2.1) left :)
  have gate : (w.thmRestart cause false).dev.thm.gate = none := (congrArg (·.1) left :).trans empty
  by_cases third : 3 ≤ (restartsWith w.endGate.dev.thm).length
  · have exact_ := restart_halts (cause := cause) (key := false) third
    generalize (w.thmRestart cause false).dev.thm = y at restarts points gate exact_
    refine ⟨restarts.trans restartsWith_eq, points, gate, (congrArg Thimble.replay exact_ :), fun _ => ?_, fun few => by omega⟩
    exact ⟨(congrArg Thimble.st exact_ :), (congrArg Thimble.signing exact_ :), (congrArg Thimble.log exact_ :).trans (congrArg Thimble.log frame :)⟩
  · obtain ⟨v, slotA, slotB, digest, thm, fuse', eq⟩ := restart_boots (cause := cause) (key := false) third
    have idle : v.dev.thm.replay = none := (congrArg Thimble.replay thm :)
    obtain ⟨replay, batch, st, genesis⟩ := booted_thm (cause := cause) (o := (v.genesis cause).fuse.recordKey) idle
    rw [← eq] at replay batch st genesis
    generalize (w.thmRestart cause false).dev.thm = y at restarts points gate replay batch st genesis
    refine ⟨restarts.trans restartsWith_eq, points, gate, replay, fun many => by omega, fun _ => ?_⟩
    refine ⟨st.trans (congrArg Thimble.st thm :), batch, fun room => ?_⟩
    have last : v.dev.thm.last = w.dev.thm.last := (congrArg Thimble.last thm :).trans (congrArg Thimble.last frame :)
    have acked : v.dev.thm.acked = w.dev.thm.acked := (congrArg Thimble.acked thm :).trans (congrArg Thimble.acked frame :)
    rw [← last, ← fuse']
    exact genesis ((logFull_congr last acked).trans room)

/-! A restart tells nothing of source 0x306. -/

theorem srcKept_interrupt {j : Nat} : SrcKept n w (w.interrupt j m) := .ite .upd .refl

theorem srcKept_onThm {f : Thimble → Thimble} : SrcKept n w (w.onThm f) := by
  unfold W.onThm
  dsimp only
  exact .ite (SrcKept.trans .upd (.each fun _ _ => srcKept_interrupt)) .upd

theorem srcKept_thmPage : SrcKept n w w.thmPage := by
  rw [thmPage_eq]
  exact .upd

theorem srcKept_level (plain : Plain n) (ne : n ≠ m) {d0 d1 : Word32} : SrcKept n w (w.level m d0 d1) := .ite .refl (srcKept_raise plain ne)

theorem srcKept_notice (plain : Plain n) (ne : n ≠ 0x300 + k) {d : Nat} : SrcKept n w (w.notice k d) :=
  .ite (srcKept_level plain ne) (.ite (srcKept_inactive ne) .refl)

/-- None of the level notices is an event of the kernel. -/
theorem srcKept_notices (plain : Plain n) (event : n = 0x306) : SrcKept n w w.notices := by
  unfold W.notices
  refine .ite .refl ?_
  have ne (k : Nat) (h : k ≠ 6) : n ≠ 0x300 + k := by omega
  exact (((((srcKept_notice plain (ne 0 (by decide))).trans (srcKept_notice plain (ne 1 (by decide)))).trans
    (srcKept_notice plain (ne 3 (by decide)))).trans (srcKept_notice plain (ne 4 (by decide)))).trans
    (srcKept_notice plain (ne 5 (by decide)))).trans (srcKept_notice plain (ne 11 (by decide)))

theorem srcKept_noticeEvent (plain : Plain n) (ne : n ≠ 0x300 + k) {d : Nat} : SrcKept n w (w.noticeEvent k d) :=
  .ite .refl (srcKept_raise plain ne)

theorem srcKept_publish {r : Byte} : SrcKept n w (w.publish r num) := by
  unfold W.publish
  split
  · exact .refl
  · exact .ite (srcKept_onThm.trans (.steady (steady_finishAll ..))) srcKept_onThm

theorem srcKept_endRequest : SrcKept n w w.endRequest := by
  cases gate : w.dev.thm.gate with
  | none => rw [endRequest_none gate]; exact .refl
  | some g => rw [endRequest_some gate]; exact srcKept_publish

theorem srcKept_pickSlot (plain : Plain n) (ne : n ≠ 0x309) : SrcKept n w w.pickSlot := by
  unfold W.pickSlot
  exact .ite (srcKept_onThm.trans (srcKept_noticeEvent (k := 9) plain ne)) srcKept_onThm

theorem srcKept_genesis : SrcKept n w (w.genesis cause) := by
  rw [genesis_eq]
  exact SrcKept.trans .upd srcKept_onThm

theorem srcKept_thmRestart (plain : Plain n) (event : n = 0x306) : SrcKept n w (w.thmRestart cause key) := by
  have begun {st : ThmSt} : SrcKept n w ((w.endGate.onThm restarting).onThm fun t => { t with st := st }) :=
    ((srcKept_endRequest.trans srcKept_endRequest).trans srcKept_onThm).trans srcKept_onThm
  rw [thmRestart_eq]
  split
  · exact (begun.trans srcKept_thmPage).trans (srcKept_notices plain event)
  · have pick : SrcKept n w (picked w) := begun.trans (srcKept_pickSlot plain (by omega))
    exact (((pick.trans srcKept_genesis).trans srcKept_onThm).trans srcKept_thmPage).trans (srcKept_notices plain event)

end Sys2Proof.Proofs
end

section
/-! The commands of the Thimble's kernel: reset, boot, stop (R397, R400, R415, R418). -/

namespace Sys2Proof.Proofs

open Machine Laws

set_option Elab.async false

variable {s : State} {w v a b : W} {x y : Thimble} {n m k cause : Nat} {key : Bool} {g : GateReq} {num : Word32} {i : Instr} {z : ThmRec} {r : ThmBoot}

/-! Reset. -/

/-- The store key is made at the first reset (R418). -/
def storeKeyed (w : W) : W :=
  match w.fuse.storeKey with
  | some _ => w
  | none => { (w.upd fun d => { d with free := d.free + 1 }) with fuse := { w.fuse with storeKey := some w.dev.free } }

theorem storeKeyed_fuse : (storeKeyed w).fuse = { w.fuse with storeKey := some (w.fuse.storeKey.getD w.dev.free) } := by
  unfold storeKeyed
  split
  · next k some_ =>
    rw [some_, Option.getD_some, ← some_]
  · next none_ =>
    rw [none_]
    rfl

theorem storeKeyed_dev : (storeKeyed w).dev.thm = w.dev.thm ∧ (storeKeyed w).dev.images = w.dev.images := by
  unfold storeKeyed
  split <;> exact ⟨rfl, rfl⟩

/-- The Thimble once its reset is released. -/
def released (lc : BitVec 3) (t : Thimble) : Thimble := { t.lost with powered := true, lifecycle := lc }

/-- The valid store is taken up (R400). -/
def storeTaken (w : W) : W :=
  match w.validStore with
  | some c => w.onThm fun t => { t with version := c.version, params := c.params, storeOk := true }
  | none => w

/-- THM_RESET. -/
def resetBy (w : W) : W :=
  if w.isM = false ∨ w.dev.thm.powered then w
  else
    let v := (storeKeyed w).onThm (released (BitVec.ofNat 3 (storeKeyed w).lifecycle))
    if BitVec.ofNat 3 (storeKeyed w).lifecycle = 4 then (v.onThm fun t => { t with st := .halted }).notices
    else (((storeTaken v).pickSlot).genesis 0).thmPage.notices

theorem thmReset_row (same : resetBy s.world = v) : exec .thmReset s = .next { stateOf s v with fuse := v.fuse } := by
  have row : exec .thmReset s = .next { stateOf s (resetBy s.world) with fuse := (resetBy s.world).fuse } := rfl
  rw [row, same]

theorem storeKeyed_life : (storeKeyed w).lifecycle = w.lifecycle := by
  unfold W.lifecycle
  rw [storeKeyed_fuse]
  rfl

theorem resetBy_eq (m : w.isM = true) (off : w.dev.thm.powered = false) :
    resetBy w = if BitVec.ofNat 3 w.lifecycle = 4 then
        (((storeKeyed w).onThm (released (BitVec.ofNat 3 w.lifecycle))).onThm fun t => { t with st := .halted }).notices
      else (((storeTaken ((storeKeyed w).onThm (released (BitVec.ofNat 3 w.lifecycle)))).pickSlot).genesis 0).thmPage.notices := by
  have go : ¬ (w.isM = false ∨ w.dev.thm.powered = true) := by
    rw [m, off]
    decide
  unfold resetBy
  rw [if_neg go, storeKeyed_life]

theorem lifecycle_lt : w.lifecycle < 8 := by
  unfold W.lifecycle Fuse.lifecycle
  dsimp only
  split
  · decide
  · split
    · decide
    · split
      · decide
      · split <;> decide

theorem scrapped_iff : BitVec.ofNat 3 w.lifecycle = 4 ↔ w.lifecycle = 4 := by
  have few := lifecycle_lt (w := w)
  constructor
  · intro same
    have number := congrArg BitVec.toNat same
    rwa [BitVec.toNat_ofNat, Nat.mod_eq_of_lt few] at number
  · intro same
    rw [same]
    rfl

theorem validStore_congr (fuse : v.fuse = w.fuse) (flash : v.dev.images.flash = w.dev.images.flash) : v.validStore = w.validStore := by
  unfold W.validStore
  rw [fuse, flash]

/-- What a reset settles for good: the power, the life cycle, the link, the gate, the queue of the records and the state. -/
def bootPart (t : Thimble) : Bool × BitVec 3 × Bool × Option GateReq × Word32 × Option Nat × ThmSt :=
  (t.powered, t.lifecycle, t.up, t.gate, t.gateStat, t.fwd, t.st)

/-- Release of the reset (R400 step 1). -/
theorem alike_released {lc : BitVec 3} : Alike (withThm w (released lc w.dev.thm)) (w.onThm (released lc)) := by
  rw [onThm_back (f := released lc) (Nat.zero_le _)]
  exact alike_recordTold

/-- The store as the Thimble takes it up. -/
theorem storeTaken_eq : ∃ y, storeTaken w = withThm w y ∧ y = { w.dev.thm with version := y.version, params := y.params, storeOk := y.storeOk } ∧
    ∀ c, w.validStore = some c → y.version = c.version ∧ y.params = c.params ∧ y.storeOk = true := by
  unfold storeTaken
  split
  · next c found =>
    refine ⟨_, onThm_still (f := fun t => { t with version := c.version, params := c.params, storeOk := true }) rfl rfl, rfl, fun c' found' => ?_⟩
    obtain rfl := Option.some.inj (found.symm.trans found')
    exact ⟨rfl, rfl, rfl⟩
  · next none_ => exact ⟨w.dev.thm, rfl, rfl, fun c found => absurd (none_.symm.trans found) (by simp)⟩

/-- The boot of a reset: the chain that it opens. -/
theorem booted_reset {lc : BitVec 3} (thm : w.dev.thm = released lc x) :
    let v := (((storeTaken w).pickSlot).genesis 0).thmPage.notices
    let y := v.dev.thm
    v.fuse = w.fuse ∧ bootPart y = bootPart (released lc x) ∧ y.last = 1 ∧
    (∃ z, Genesis y 1 w.fuse.audit 0 z ∧ y.log = [z] ∧ y.head = sha256 (List.replicate 32 0 ++ z.bytes)) ∧
    ∀ c, w.validStore = some c → y.version = c.version ∧ y.params = c.params ∧ y.storeOk = true := by
  obtain ⟨t, taken, same, held⟩ := storeTaken_eq (w := w)
  rw [taken]
  obtain ⟨slotA, slotB, digest, slot⟩ := alike_pickSlot (w := withThm w t)
  generalize (withThm w t).pickSlot = u at slot
  have slotThm : u.dev.thm = slotPicked slotA slotB digest t := slot.thm
  have slotFuse : u.fuse = w.fuse := slot.2
  have part : bootPart u.dev.thm = bootPart (released lc x) :=
    (congrArg bootPart slotThm).trans ((congrArg bootPart same).trans (congrArg bootPart thm :))
  have empty : u.dev.thm.log = [] := (congrArg Thimble.log slotThm).trans ((congrArg Thimble.log same).trans (congrArg Thimble.log thm))
  have zero : u.dev.thm.last = 0 := (congrArg Thimble.last slotThm).trans ((congrArg Thimble.last same).trans (congrArg Thimble.last thm))
  have unread : u.dev.thm.acked = 0 := (congrArg Thimble.acked slotThm).trans ((congrArg Thimble.acked same).trans (congrArg Thimble.acked thm))
  have room : u.dev.thm.logFull = false := (logFull_congr (x := {}) zero unread).trans rfl
  have stored_ : ∀ c, w.validStore = some c → u.dev.thm.version = c.version ∧ u.dev.thm.params = c.params ∧ u.dev.thm.storeOk = true :=
    fun c found => by
      rw [slotThm]
      exact held c found
  have opened : untimed (u.genesis 0).dev.thm = untimed (chainOpened u.dev.free u.fuse.audit 0 u.dev.thm) := by
    rw [genesis_eq]
    exact untimed_onThm (f := chainOpened u.dev.free u.fuse.audit 0)
  have fuse : (u.genesis 0).thmPage.notices.fuse = w.fuse := by rw [alike_notices.2, fuse_thmPage, fuse_genesis, slotFuse]
  have paged_ : untimed (u.genesis 0).thmPage.notices.dev.thm = untimed (chainOpened u.dev.free u.fuse.audit 0 u.dev.thm) := by
    rw [show (u.genesis 0).thmPage.notices.dev.thm = paged (u.genesis 0) (u.genesis 0).dev.thm from alike_notices.thm.trans thmPage_thm]
    exact opened
  obtain ⟨frame, -, last, log, head⟩ := chainOpened_frame (k := u.dev.free) (audit := u.fuse.audit) (cause := 0) room
  rw [empty] at log
  rw [slotFuse] at paged_ frame last log head
  generalize (u.genesis 0).thmPage.notices = v at fuse paged_
  have frame' : unrecorded v.dev.thm = unrecorded { u.dev.thm with chain := Config.freeBytes u.dev.free 16 } :=
    (congrArg unrecorded paged_ :).trans frame
  have log' : v.dev.thm.log = logWith [] (genesisRecord u.dev.free w.fuse.audit 0 u.dev.thm) := (congrArg Thimble.log paged_ :).trans log
  have one : u.dev.thm.last + 1 = 1 := congrArg (· + 1) zero
  have held_ : genesisRecord u.dev.free w.fuse.audit 0 u.dev.thm ∈ v.dev.thm.log := by
    rw [log']
    exact mem_logWith
  have genesis := genesis_of (x := u.dev.thm) (y := v.dev.thm) (congrArg Thimble.chain frame' :) (congrArg Thimble.version frame' :) held_
  rw [one] at genesis
  intro v' y
  refine ⟨fuse, (congrArg bootPart frame' :).trans part, ((congrArg Thimble.last paged_ :).trans last).trans one, ?_, fun c found => ?_⟩
  · exact ⟨_, genesis, log', (congrArg Thimble.head paged_ :).trans head⟩
  · obtain ⟨version, params, ok⟩ := stored_ c found
    exact ⟨(congrArg Thimble.version frame' :).trans version, (congrArg Thimble.params frame' :).trans params,
      (congrArg Thimble.storeOk frame' :).trans ok⟩

/-- Release of the reset of a device of variant M (R400). -/
theorem thmReset_scrapped (m : s.fuse.variantM = true) (off : s.dev.thm.powered = false) (scrapped : s.world.lifecycle = 4) :
    Answers .thmReset s fun t => t.fuse = { s.fuse with storeKey := some (s.fuse.storeKey.getD s.dev.free) } ∧ t.pending = s.pending ∧
      t.dev.thm = { released (BitVec.ofNat 3 s.world.lifecycle) s.dev.thm with st := .halted } := by
  have fuse := storeKeyed_fuse (w := s.world)
  have thm := (storeKeyed_dev (w := s.world)).1
  refine ⟨_, thmReset_row ((resetBy_eq (w := s.world) m off).trans (if_pos (scrapped_iff.mpr scrapped))), ?_⟩
  have free := alike_released (w := storeKeyed s.world) (lc := BitVec.ofNat 3 s.world.lifecycle)
  rw [thm] at free
  generalize (storeKeyed s.world).onThm (released (BitVec.ofNat 3 s.world.lifecycle)) = v at free
  have halt : (v.onThm fun t => { t with st := .halted }) = withThm v { v.dev.thm with st := .halted } := onThm_still rfl rfl
  have alike := alike_notices (w := withThm v { v.dev.thm with st := .halted })
  rw [halt]
  generalize (withThm v { v.dev.thm with st := .halted }).notices = u at alike
  refine ⟨alike.2.trans (free.2.trans fuse), rfl, alike.thm.trans ?_⟩
  exact congrArg (fun t : Thimble => { t with st := .halted }) free.thm

theorem thmReset_boots (m : s.fuse.variantM = true) (off : s.dev.thm.powered = false) (alive : s.world.lifecycle ≠ 4) :
    Answers .thmReset s fun t => t.fuse = { s.fuse with storeKey := some (s.fuse.storeKey.getD s.dev.free) } ∧ t.pending = s.pending ∧
      bootPart t.dev.thm = bootPart (released (BitVec.ofNat 3 s.world.lifecycle) s.dev.thm) ∧ t.dev.thm.last = 1 ∧
      (∃ z, Genesis t.dev.thm 1 s.fuse.audit 0 z ∧ t.dev.thm.log = [z] ∧ t.dev.thm.head = sha256 (List.replicate 32 0 ++ z.bytes)) ∧
      ∀ c, ({ s.world with fuse := t.fuse } : W).validStore = some c →
        t.dev.thm.version = c.version ∧ t.dev.thm.params = c.params ∧ t.dev.thm.storeOk = true := by
  have fuse := storeKeyed_fuse (w := s.world)
  obtain ⟨thm, images⟩ := storeKeyed_dev (w := s.world)
  refine ⟨_, thmReset_row ((resetBy_eq (w := s.world) m off).trans (if_neg fun four => alive (scrapped_iff.mp four))), ?_⟩
  have free := alike_released (w := storeKeyed s.world) (lc := BitVec.ofNat 3 s.world.lifecycle)
  rw [thm] at free
  have flash := (alike_flash free).trans (congrArg Images.flash images)
  generalize (storeKeyed s.world).onThm (released (BitVec.ofNat 3 s.world.lifecycle)) = v at free flash
  obtain ⟨fuse', part, last, genesis, store⟩ := booted_reset (w := v) (x := s.world.dev.thm) free.thm
  have fuses : v.fuse = { s.fuse with storeKey := some (s.fuse.storeKey.getD s.dev.free) } := free.2.trans fuse
  generalize (((storeTaken v).pickSlot).genesis 0).thmPage.notices = u at fuse' part last genesis store
  have audit : v.fuse.audit = s.fuse.audit := (congrArg Fuse.audit fuses :)
  rw [audit] at genesis
  refine ⟨fuse'.trans fuses, rfl, part, last, genesis, fun c found => store c ?_⟩
  refine (validStore_congr (w := { s.world with fuse := u.fuse }) ?_ ?_).trans found
  · exact fuse'.symm
  · exact flash

end Sys2Proof.Proofs
end

section
/-! The rest of the kernel's commands, and the Thimble kernel as a whole (O37). -/

namespace Sys2Proof.Proofs

open Machine Laws

set_option Elab.async false

variable {s : State} {w v a b : W} {x y : Thimble} {n m k cause : Nat} {key : Bool} {g : GateReq} {num : Word32} {i : Instr} {z : ThmRec} {r : ThmBoot}

/-- The command leaves the Thimble `y`, and nothing else but what the notices reach. -/
def LeavesThm (s : State) (y : Thimble) (t : State) : Prop := Beside s t fun d => { d with thm := y }

theorem leavesThm_of (h : Alike (withThm s.world y) v) : LeavesThm s y (stateOf s v) := by
  unfold Alike withThm at h
  exact ⟨h.1, rfl, rfl⟩

/-- A change that takes no time, with the status page rewritten and the notices. -/
theorem alike_paged {f : Thimble → Thimble} (time : (f w.dev.thm).time = w.dev.thm.time) :
    Alike (withThm w (paged w (f w.dev.thm))) (w.onThm f).thmPage.notices := by
  have page := alike_thmPage (alike_onThm (w := w) (v := w) (f := f) .refl time)
  rw [thmPage_eq (w := withThm w (f w.dev.thm)), show paged (withThm w (f w.dev.thm)) (withThm w (f w.dev.thm)).dev.thm =
    paged w (f w.dev.thm) from paged_congr rfl] at page
  exact page.trans alike_notices

/-! Step 6 of the boot. -/

/-- The state that a boot ends in (R400). -/
def bootState (x : Thimble) : ThmSt :=
  if x.lifecycle = 0 then .noImage else if x.storeOk = false then .noStore else if x.imageOk = false then .noImage
  else if x.batch ≠ 0 then .batch else if x.points ≠ 0 then .measuring else .idle

/-- The Thimble `t` after step 6, as `x` has booted. -/
def bootEnded (x t : Thimble) : Thimble :=
  ({ t with
      st := if x.lifecycle = 0 then .noImage else if x.storeOk = false then .noStore else if x.imageOk = false then .noImage else .idle
      up := true }).settle

theorem bootEnded_eq : bootEnded x x = { x with st := bootState x, up := true } := by
  unfold bootEnded bootState
  by_cases blank : x.lifecycle = 0
  · rw [if_pos blank, if_pos blank]
    rfl
  · rw [if_neg blank, if_neg blank]
    by_cases store : x.storeOk = false
    · rw [if_pos store, if_pos store]
      rfl
    · rw [if_neg store, if_neg store]
      by_cases image : x.imageOk = false
      · rw [if_pos image, if_pos image]
        rfl
      · rw [if_neg image, if_neg image]
        rfl

/-- THM_BOOT_COMPLETE. -/
def bootBy (r : ThmBoot) (w : W) : W :=
  if w.dev.thm.powered = true ∧ w.dev.thm.st = .boot ∧ r.ok = true then
    (w.onThm (bootEnded w.dev.thm)).thmPage.notices
  else if w.dev.thm.powered = true ∧ w.dev.thm.st = .boot then
    (w.onThm fun t => { t.lost with powered := true, lifecycle := t.lifecycle, time := t.time }).notices
  else w

theorem thmBootComplete_row (same : bootBy r s.world = v) : exec (.thmBootComplete r) s = .next (stateOf s v) := by
  have row : exec (.thmBootComplete r) s = .next (stateOf s (bootBy r s.world)) := rfl
  rw [row, same]

theorem bootComplete_still (no : ¬ (s.dev.thm.powered = true ∧ s.dev.thm.st = .boot)) : Answers (.thmBootComplete r) s (Only s · id) :=
  ⟨_, thmBootComplete_row ((if_neg fun h => no ⟨h.1, h.2.1⟩).trans (if_neg no)), rfl⟩

theorem bootComplete_fails (on : s.dev.thm.powered = true) (boot : s.dev.thm.st = .boot) (bad : r.ok = false) :
    Answers (.thmBootComplete r) s
      (LeavesThm s { s.dev.thm.lost with powered := true, lifecycle := s.dev.thm.lifecycle, time := s.dev.thm.time }) := by
  have not_ : ¬ (s.world.dev.thm.powered = true ∧ s.world.dev.thm.st = .boot ∧ r.ok = true) := fun h => absurd (bad.symm.trans h.2.2) (by decide)
  refine ⟨_, thmBootComplete_row ((if_neg not_).trans (if_pos ⟨on, boot⟩)), leavesThm_of ?_⟩
  exact (alike_onThm (w := s.world) (f := fun t => { t.lost with powered := true, lifecycle := t.lifecycle, time := t.time }) .refl rfl).trans
    alike_notices

theorem bootComplete_done (on : s.dev.thm.powered = true) (boot : s.dev.thm.st = .boot) (good : r.ok = true) :
    Answers (.thmBootComplete r) s (LeavesThm s (paged s.world { s.dev.thm with st := bootState s.dev.thm, up := true })) := by
  refine ⟨_, thmBootComplete_row (if_pos ⟨on, boot, good⟩), leavesThm_of ?_⟩
  have ended : bootEnded s.world.dev.thm s.world.dev.thm = { s.dev.thm with st := bootState s.dev.thm, up := true } := bootEnded_eq
  rw [← ended]
  exact alike_paged (f := bootEnded s.world.dev.thm) (congrArg Thimble.time ended :)

/-! THM_RST_N falls. -/

/-- What a cut of a commit leaves (R418). -/
theorem commitCut_frame {old : ThmStore} : (w.commitCut old).dev.thm = w.dev.thm ∧
    ((w.commitCut old).fuse = w.fuse ∨ (w.commitCut old).fuse = { w.fuse with audit := old.audit }) := by
  unfold W.commitCut
  dsimp only [W.fresh]
  split
  · exact ⟨rfl, .inl rfl⟩
  · split
    · exact ⟨rfl, .inr rfl⟩
    · exact ⟨rfl, .inl rfl⟩

/-- A commit whose answer is not published is cut. -/
def cutShort (w : W) : W :=
  match w.dev.thm.before with
  | some old => w.commitCut old
  | none => w

theorem cutShort_frame : (cutShort w).dev.thm = w.dev.thm ∧
    ((cutShort w).fuse = w.fuse ∨ ∃ old, w.dev.thm.before = some old ∧ (cutShort w).fuse = { w.fuse with audit := old.audit }) := by
  unfold cutShort
  split
  · next old there => exact ⟨commitCut_frame.1, commitCut_frame.2.imp_right fun fuse => ⟨old, there, fuse⟩⟩
  · exact ⟨rfl, .inl rfl⟩

/-- THM_RST_N_LOW. -/
def stopBy (w : W) : W := if w.dev.thm.powered then ((cutShort w).endGate.onThm Thimble.lost).notices else w

theorem thmRstNLow_row (same : stopBy s.world = v) : exec .thmRstNLow s = .next { stateOf s v with fuse := v.fuse } := by
  have row : exec .thmRstNLow s = .next { stateOf s (stopBy s.world) with fuse := (stopBy s.world).fuse } := rfl
  rw [row, same]

theorem rstNLow_still (off : s.dev.thm.powered = false) : Answers .thmRstNLow s (Only s · id) :=
  ⟨_, thmRstNLow_row (if_neg (ne_true_of_eq_false off)), rfl⟩

theorem alike_lost : Alike (withThm w w.dev.thm.lost) (w.onThm Thimble.lost).notices := by
  rw [onThm_back (f := Thimble.lost) (Nat.zero_le _)]
  exact alike_recordTold.trans alike_notices

theorem rstNLow_done (on : s.dev.thm.powered = true) : Answers .thmRstNLow s fun t =>
    t.dev.thm.powered = false ∧ t.dev.thm.st = .boot ∧
    t.dev.thm.log = [] ∧ t.dev.thm.gate = none ∧ t.dev.thm.nextTag = s.dev.thm.nextTag ∧ t.dev.thm.fwd = s.dev.thm.fwd ∧
    (∀ g, s.dev.thm.gate = some g → s.dev.thm.gateNext = none → g.watched = true → g.answer = none →
      t.dev.thm.gateStat = w32 (2 + g.tag.toNat * 2 ^ 8 + 10 * 2 ^ 16 + g.code.toNat * 2 ^ 24)) ∧
    (t.fuse = s.fuse ∨ ∃ old, s.dev.thm.before = some old ∧ t.fuse = { s.fuse with audit := old.audit }) ∧
    (s.dev.thm.gate = none → s.dev.thm.before = none → LeavesThm s s.dev.thm.lost t) := by
  refine ⟨_, thmRstNLow_row (if_pos on), ?_⟩
  obtain ⟨thm, fuse⟩ := cutShort_frame (w := s.world)
  have whole : s.dev.thm.before = none → cutShort s.world = s.world := fun none_ => by
    have before : s.world.dev.thm.before = none := none_
    unfold cutShort
    rw [before]
  generalize cutShort s.world = c at thm fuse whole
  obtain ⟨frame, fuse', -⟩ := endGate_frame (w := c)
  have stat (g : GateReq) (gate : s.dev.thm.gate = some g) (next : s.dev.thm.gateNext = none) (watched : g.watched = true) (answer : g.answer = none) :
      c.endGate.dev.thm.gateStat = w32 (2 + g.tag.toNat * 2 ^ 8 + 10 * 2 ^ 16 + g.code.toNat * 2 ^ 24) := by
    have gate' : c.dev.thm.gate = some g := (congrArg Thimble.gate thm).trans gate
    have word : endWord g = (0x0A, 0) := by
      unfold endWord
      rw [answer]
      rfl
    rw [endGate_one gate' ((congrArg Thimble.gateNext thm).trans next), word]
    exact (congrArg Thimble.gateStat (alike_publish gate').thm).trans (if_pos watched)
  have only_ : s.dev.thm.gate = none → c.endGate = c := fun none_ => endGate_none ((congrArg Thimble.gate thm).trans none_)
  generalize c.endGate = e at frame fuse' stat only_
  have alike := alike_lost (w := e)
  generalize (e.onThm Thimble.lost).notices = u at alike
  have after : u.dev.thm = e.dev.thm.lost := alike.thm
  refine ⟨?_, ?_, ?_, ?_, ?_, ?_, fun g gate next watched answer => ?_, ?_, fun gate before => ?_⟩
  · exact congrArg Thimble.powered after
  · exact congrArg Thimble.st after
  · exact congrArg Thimble.log after
  · exact congrArg Thimble.gate after
  · exact (congrArg Thimble.nextTag after).trans ((congrArg Thimble.nextTag frame :).trans (congrArg Thimble.nextTag thm :))
  · exact (congrArg Thimble.fwd after).trans ((congrArg Thimble.fwd frame :).trans (congrArg Thimble.fwd thm :))
  · exact (congrArg Thimble.gateStat after).trans (stat g gate next watched answer)
  · have fuses : u.fuse = c.fuse := alike.2.trans fuse'
    show u.fuse = s.fuse ∨ ∃ old, s.dev.thm.before = some old ∧ u.fuse = { s.fuse with audit := old.audit }
    rw [fuses]
    exact fuse
  · have same : e = s.world := (only_ gate).trans (whole before)
    rw [same] at alike
    exact ⟨(leavesThm_of (y := s.dev.thm.lost) alike).1, alike.2, rfl⟩

end Sys2Proof.Proofs
end

section
/-! The halts of the Thimble, the seal and the life cycle, and the kernel as a whole (R402 to R404, R411, R416, R434; O37). -/

namespace Sys2Proof.Proofs

open Machine Laws

set_option Elab.async false

variable {s : State} {w v a b : W} {x y : Thimble} {n m k cause : Nat} {i : Instr} {z : ThmRec} {r : ThmBoot}

/-! A halt of the lanes or of the kernel's watchdog. -/

/-- THM_LANE_HALT. -/
def haltBy (w : W) : W :=
  if w.dev.thm.powered = true ∧ w.dev.thm.st ≠ .halted then (w.noticeEvent 6 w.dev.thm.recentRestarts).thmRestart 1 false else w

/-- THM_KERNEL_WATCHDOG. -/
def barkBy (w : W) : W := if w.dev.thm.powered = true ∧ w.dev.thm.st ≠ .halted then w.thmRestart 3 false else w

theorem thmLaneHalt_row (same : haltBy s.world = v) : exec .thmLaneHalt s = .next (stateOf s v) := by
  have row : exec .thmLaneHalt s = .next (stateOf s (haltBy s.world)) := rfl
  rw [row, same]

theorem thmKernelWatchdog_row (same : barkBy s.world = v) : exec .thmKernelWatchdog s = .next (stateOf s v) := by
  have row : exec .thmKernelWatchdog s = .next (stateOf s (barkBy s.world)) := rfl
  rw [row, same]

theorem halt_restarts (on : s.dev.thm.powered = true ∧ s.dev.thm.st ≠ .halted) :
    Answers .thmLaneHalt s fun t => Restarted s.dev.thm s.fuse.audit 1 t.dev.thm := by
  have event := alike_noticeEvent (w := s.world) (k := 6) (d := s.world.dev.thm.recentRestarts)
  refine ⟨_, thmLaneHalt_row (if_pos on), ?_⟩
  generalize s.world.noticeEvent 6 s.world.dev.thm.recentRestarts = v at event
  have done := restarted_by (w := v) (cause := 1)
  rw [event.thm, event.2] at done
  exact done

theorem bark_restarts (on : s.dev.thm.powered = true ∧ s.dev.thm.st ≠ .halted) :
    Answers .thmKernelWatchdog s fun t => Restarted s.dev.thm s.fuse.audit 3 t.dev.thm :=
  ⟨_, thmKernelWatchdog_row (if_pos on), restarted_by (w := s.world)⟩

theorem detected_congr {t t' : State} {d0 d1 : Word32} {tb : Word64} (same : t'.dev.src n = t.dev.src n) (found : Detected s t n d0 d1 tb) :
    Detected s t' n d0 d1 tb := by
  unfold Detected at found ⊢
  rw [same]
  exact found

theorem plain_laneHalt : Plain 0x306 := by
  unfold Plain Noted
  decide

/-- The sources of the Thimble are there in variant M. -/
theorem source_thm (variantM : w.isM = true) : (w.source 0x306).isSome = true := by
  have view : w.srcView.isM = true := variantM
  unfold W.source sourceRow
  rw [if_neg (by decide), if_pos (by decide), view]
  rfl

theorem halt_detected (on : s.dev.thm.powered = true ∧ s.dev.thm.st ≠ .halted) (variantM : s.fuse.variantM = true) (mode : s.dev.sys.mode ≠ .off) :
    Answers .thmLaneHalt s fun t => Detected s t 0x306 s.world.thmState (w32 (recent s.dev.thm).length) s.dev.clock.tb := by
  have event : s.world.noticeEvent 6 s.world.dev.thm.recentRestarts = s.world.raise 0x306 s.world.thmState (w32 (recent s.dev.thm).length) :=
    if_neg mode
  have found := detected_raise (d0 := s.world.thmState) (d1 := w32 (recent s.dev.thm).length) (quiescent_world (s := s)) plain_laneHalt
    (source_thm variantM)
  have quiet : ∀ e ∈ (s.world.raise 0x306 s.world.thmState (w32 (recent s.dev.thm).length)).due, Noted e.1 :=
    noted_raise plain_laneHalt fun _ mem => absurd mem List.not_mem_nil
  refine ⟨_, thmLaneHalt_row (if_pos on), ?_⟩
  rw [event]
  generalize s.world.raise 0x306 s.world.thmState (w32 (recent s.dev.thm).length) = v at found quiet
  have kept := (srcKept_thmRestart (w := v) (cause := 1) (key := false) plain_laneHalt rfl quiet).1
  generalize v.thmRestart 1 false = u at kept
  exact detected_congr (t := stateOf s v) (t' := stateOf s u) kept found

/-! The heartbeat, the life cycle and the seal. -/

/-- THM_HEARTBEAT_TIMEOUT. -/
def missBy (w : W) : W := if w.dev.thm.serves then w else (w.onThm fun t => { t with up := false }).notices

theorem thmHeartbeatTimeout_row (same : missBy s.world = v) : exec .thmHeartbeatTimeout s = .next (stateOf s v) := by
  have row : exec .thmHeartbeatTimeout s = .next (stateOf s (missBy s.world)) := rfl
  rw [row, same]

theorem heartbeat_down (down : s.dev.thm.serves = false) : Answers .thmHeartbeatTimeout s (LeavesThm s { s.dev.thm with up := false }) :=
  ⟨_, thmHeartbeatTimeout_row (if_neg (ne_true_of_eq_false down)),
    leavesThm_of ((alike_onThm (w := s.world) (f := fun t => { t with up := false }) .refl rfl).trans alike_notices)⟩

/-- The Thimble whose life cycle is sensed (R404). -/
def sensed (lc : BitVec 3) (t : Thimble) : Thimble :=
  { t with lifecycle := lc, st := if lc = 4 then .halted else t.st, signing := if lc = 4 then none else t.signing }

/-- LIFECYCLE_SENSED. -/
def senseBy (w : W) : W := if w.dev.thm.powered then (w.onThm (sensed (BitVec.ofNat 3 w.lifecycle))).thmPage.notices else w

theorem lifecycleSensed_row (same : senseBy s.world = v) : exec .lifecycleSensed s = .next (stateOf s v) := by
  have row : exec .lifecycleSensed s = .next (stateOf s (senseBy s.world)) := rfl
  rw [row, same]

theorem lifecycle_done (on : s.dev.thm.powered = true) :
    Answers .lifecycleSensed s (LeavesThm s (paged s.world (sensed (BitVec.ofNat 3 s.world.lifecycle) s.dev.thm))) :=
  ⟨_, lifecycleSensed_row (if_pos on), leavesThm_of (alike_paged (w := s.world) (f := sensed (BitVec.ofNat 3 s.world.lifecycle)) rfl)⟩

/-- The command leaves the Thimble `y` with a record whose time may have to come, and exactly `y` where it has come. -/
def LeavesPaged (s : State) (y : Thimble) (t : State) : Prop :=
  Beside s t (fun _ => (s.world.onThm fun _ => y).thmPage.dev) ∧ (s.dev.thm.pace = s.dev.thm → LeavesThm s (paged s.world y) t)

theorem onThm_at {f : Thimble → Thimble} : w.onThm f = w.onThm fun _ => f w.dev.thm := onThm_withThm (w := w) (y := w.dev.thm) rfl rfl

/-- A SEAL record. -/
theorem leavesPaged_seal {f : Thimble → Thimble} {audit : Nat} (log : (f s.dev.thm).log = s.dev.thm.log) (time : (f s.dev.thm).time = s.dev.thm.time) :
    LeavesPaged s ((f s.dev.thm).sealRecord audit) (stateOf s ((s.world.onThm fun t => (f t).sealRecord audit).thmPage.notices)) := by
  constructor
  · rw [onThm_at (w := s.world) (f := fun t => (f t).sealRecord audit)]
    exact beside_like alike_notices.1
  · intro come
    exact leavesThm_of (alike_paged (w := s.world) (f := fun t => (f t).sealRecord audit) (record_time come log time))

/-- SEAL_OPENED. -/
def openBy (w : W) : W :=
  if w.dev.thm.powered = true ∧ w.dev.thm.st ≠ .halted ∧ w.dev.thm.sealOpen = false then
    (w.onThm fun t => ({ t with sealOpen := true, sealCommit := false }).sealRecord w.fuse.audit).thmPage.notices
  else w

/-- SEAL_CLOSED. -/
def closeBy (w : W) : W :=
  if w.dev.thm.powered = true ∧ w.dev.thm.st ≠ .halted ∧ w.dev.thm.sealOpen = true then
    (w.onThm fun t => ({ t with sealOpen := false, staged := [] }).sealRecord w.fuse.audit).thmPage.notices
  else w

theorem sealOpened_row (same : openBy s.world = v) : exec .sealOpened s = .next (stateOf s v) := by
  have row : exec .sealOpened s = .next (stateOf s (openBy s.world)) := rfl
  rw [row, same]

theorem sealClosed_row (same : closeBy s.world = v) : exec .sealClosed s = .next (stateOf s v) := by
  have row : exec .sealClosed s = .next (stateOf s (closeBy s.world)) := rfl
  rw [row, same]

theorem sealOpened_done (on : s.dev.thm.powered = true ∧ s.dev.thm.st ≠ .halted) (closed : s.dev.thm.sealOpen = false) :
    Answers .sealOpened s (LeavesPaged s (({ s.dev.thm with sealOpen := true, sealCommit := false }).sealRecord s.fuse.audit)) :=
  ⟨_, sealOpened_row (if_pos ⟨on.1, on.2, closed⟩),
    leavesPaged_seal (s := s) (f := fun t => { t with sealOpen := true, sealCommit := false }) rfl rfl⟩

theorem sealClosed_done (on : s.dev.thm.powered = true ∧ s.dev.thm.st ≠ .halted) (open_ : s.dev.thm.sealOpen = true) :
    Answers .sealClosed s (LeavesPaged s (({ s.dev.thm with sealOpen := false, staged := [] }).sealRecord s.fuse.audit)) :=
  ⟨_, sealClosed_row (if_pos ⟨on.1, on.2, open_⟩),
    leavesPaged_seal (s := s) (f := fun t => { t with sealOpen := false, staged := [] }) rfl rfl⟩

/-- What a restart leaves, as O37 says it. -/
theorem Restarted.parts {audit : Nat} (h : Restarted x audit cause y) :
    y.restarts = recent x ++ [x.time] ∧ y.points = 0 ∧ y.gate = none ∧ y.replay = none ∧
    (2 ≤ (recent x).length → y.st = .halted ∧ y.signing = none ∧ y.log = x.log) ∧
    ((recent x).length < 2 → y.st = .boot ∧ y.batch = 0 ∧ (x.logFull = false → ∃ z, z ∈ y.log ∧ z.rnum = x.last + 1 ∧ z.typ = 1 ∧
      z.prev = List.replicate 16 0 ∧ z.ps = byteWords y.chain 4 ++ [w32 audit, w32 (cause + y.version.toNat * 2 ^ 16)] ∧
      ∃ k, y.chain = Config.freeBytes k 16)) := by
  refine ⟨h.restarts, h.points, h.gate, h.replay, h.third, fun few => ?_⟩
  obtain ⟨st, batch, genesis⟩ := h.boots few
  refine ⟨st, batch, fun room => ?_⟩
  obtain ⟨z, gen⟩ := genesis room
  exact ⟨z, gen.mem, gen.number, gen.typ, gen.prev, gen.words, gen.chain⟩

/-- Settles O37: each command of the kernel is a change of the Thimble, its status page and the notices. -/
theorem thimbleKernel : Obligations.ThimbleKernel := by
  intro s r d x w still thm on recent' dev genesis restarted
  refine ⟨fun no => ?_, fun variantM off => ?_, bootComplete_still, bootComplete_fails, bootComplete_done, rstNLow_still, rstNLow_done,
    fun off => ⟨⟨_, thmLaneHalt_row (if_neg off), rfl⟩, ⟨_, thmKernelWatchdog_row (if_neg off), rfl⟩⟩, fun on => ?_,
    fun on variantM mode => halt_detected on variantM mode, fun up => ⟨_, thmHeartbeatTimeout_row (if_pos up), rfl⟩, heartbeat_down,
    fun off => ⟨_, lifecycleSensed_row (if_neg (ne_true_of_eq_false off)), rfl⟩, lifecycle_done, ?_⟩
  · have same : resetBy s.world = s.world := if_pos no
    exact ⟨_, thmReset_row same, rfl⟩
  · by_cases scrapped : w.lifecycle = 4
    · obtain ⟨t, row, fuse, pending, after⟩ := thmReset_scrapped variantM off scrapped
      refine ⟨t, row, fuse, pending, ?_⟩
      show t.dev.thm.powered = true ∧ _
      rw [after]
      exact ⟨rfl, rfl, rfl, rfl, rfl, rfl, fun _ => ⟨rfl, rfl⟩, fun alive => absurd scrapped alive⟩
    · obtain ⟨t, row, fuse, pending, part, last, ⟨z, gen, log, head⟩, store⟩ := thmReset_boots variantM off scrapped
      refine ⟨t, row, fuse, pending, (congrArg (·.1) part :), (congrArg (·.2.1) part :), (congrArg (·.2.2.1) part :),
        (congrArg (·.2.2.2.1) part :), (congrArg (·.2.2.2.2.1) part :), (congrArg (·.2.2.2.2.2.1) part :),
        fun dead => absurd dead scrapped, fun _ => ⟨(congrArg (·.2.2.2.2.2.2) part :), last, z, ?_, log, head, store⟩⟩
      exact ⟨gen.mem, gen.number, gen.typ, gen.prev, gen.words, gen.chain⟩
  · obtain ⟨t, row, done⟩ := halt_restarts on
    obtain ⟨t', row', done'⟩ := bark_restarts on
    exact ⟨⟨t, row, done.parts⟩, ⟨t', row', done'.parts⟩⟩
  · exact ⟨fun no => ⟨_, sealOpened_row (if_neg fun h => no ⟨⟨h.1, h.2.1⟩, h.2.2⟩), rfl⟩, sealOpened_done,
      fun no => ⟨_, sealClosed_row (if_neg fun h => no ⟨⟨h.1, h.2.1⟩, h.2.2⟩), rfl⟩, sealClosed_done⟩

end Sys2Proof.Proofs
end

section
/-! What an event and its reactions do to a world, one move at a time: a relation between worlds by whose cases a property of all that an
event reaches is proved once (R271, R273). -/

namespace Sys2Proof.Proofs

open Machine Laws

set_option Elab.async false

/-- The parts of a device that a move of its own reaches: the mode, the seams, the cores, the hobs, the bellows and the power controller; and
the stopped boundary FIFOs, which no move reaches. -/
def moved (d : Dev) : Mode × Tbl Seam × Tbl Core × Tbl Hob × Tbl Bellows × Power × List Nat :=
  (d.sys.mode, d.seams, d.cores, d.hobs, d.bellows, d.power, d.bobbin.stopped)

/-- The channels of a bellows go on as they are, or an output channel starts again (R234). -/
def ChansGo (b b' : Bellows) : Prop := ∀ c, b'.chans.getD c {} = b.chans.getD c {} ∨
  (b.use.getD 0x310 0).toNat.testBit c = true ∧ (b'.chans.getD c {}).running = true

/-- The world `w` goes on to `v` by moves that an event and its reactions make. -/
inductive Goes : W → W → Prop
  | refl (w : W) : Goes w w
  | trans {a b c : W} : Goes a b → Goes b c → Goes a c
  | beside {w v : W} (same : moved v.dev = moved w.dev) : Goes w v
  | core (w : W) (k : Nat) (f : Core → Core) : Goes w (w.upd fun d => d.onCore k f)
  | seam (w : W) (k : Nat) (f : Seam → Seam) (same : ∀ x, seamPart (f x) = seamPart x) : Goes w (w.upd fun d => d.onSeam k f)
  | hob (w : W) (u : Nat) (f : Hob → Hob) (same : ∀ x, (f x).power = x.power) : Goes w (w.upd fun d => d.onHob u f)
  | wake (w : W) (u : Nat) : Goes w (w.wakeHob u)
  | blw (w : W) (h : Nat) (f : Bellows → Bellows) (same : ∀ x, blwPart (f x) = blwPart x) (chans : ChansGo (w.dev.blw h) (f (w.dev.blw h))) :
      Goes w (w.upd fun d => d.onBlw h f)
  | safe (w : W) : Goes w (w.stampMode .safe)
  | dozeUp {w v : W} (doze : w.dev.sys.mode = .doze) : Goes w v → Goes w v.dozeUp

theorem Goes.upd (w : W) (f : Dev → Dev) (h : moved (f w.dev) = moved w.dev) : Goes w (w.upd f) := .beside h

theorem Goes.ite {a b c : W} (p : Prop) [Decidable p] (h : Goes a b) (k : Goes a c) : Goes a (if p then b else c) := by
  split <;> assumption

theorem Goes.each {α : Type} (xs : List α) (f : α → W → W) (h : ∀ x w, Goes w (f x w)) (w : W) : Goes w (w.each xs f) := by
  induction xs generalizing w with
  | nil => exact .refl w
  | cons x xs ih => exact (h x w).trans (ih (f x w))

theorem moved_foldl {α : Type} (f : Dev → α → Dev) (h : ∀ d x, moved (f d x) = moved d) (l : List α) (d : Dev) :
    moved (l.foldl f d) = moved d := by
  induction l generalizing d with
  | nil => rfl
  | cons a l ih => exact (ih _).trans (h _ _)

theorem goes_interrupt (w : W) (c k : Nat) : Goes w (w.interrupt c k) :=
  Goes.ite _ (.core w _ _) (Goes.refl w)

theorem goes_crossing (w : W) (q : Nat) : Goes w (w.crossing q) :=
  (Goes.upd w _ rfl).trans (Goes.each _ _ (fun _ _ => Goes.each _ _
    (fun _ w => Goes.ite _ (goes_interrupt w _ _) (Goes.refl w)) _) _)

theorem goes_setOwner (w : W) (c : Nat) (o : Option Owner) : Goes w (w.onBob fun b => b.setOwner c o) := Goes.upd w _ rfl

theorem goes_takeCell (w : W) (q : Nat) : Goes w (w.takeCell q).2 :=
  ((goes_setOwner w _ _).trans (Goes.upd _ _ rfl)).trans (Goes.ite _ (goes_crossing _ _) (Goes.refl _))

theorem goes_takeCells (n : Nat) (w : W) (q : Nat) : Goes w (w.takeCells q n).2 := by
  induction n generalizing w with
  | zero => exact Goes.refl w
  | succ n ih => exact (goes_takeCell w q).trans (ih _)

theorem goes_freeCell (w : W) (q c : Nat) : Goes w (w.freeCell q c) :=
  (goes_setOwner w c none).trans (Goes.upd _ _ rfl)

theorem goes_setCell (w : W) (c i : Nat) (v : Word32) : Goes w (w.setCell c i v) := .beside rfl

theorem goes_linkedAfter (v : W) (c : Nat) (ends : Option (Nat × Nat)) : Goes v (linkedAfter v c ends) := by
  cases ends with
  | none => exact Goes.refl v
  | some e => exact goes_setCell _ _ _ _

theorem goes_link (w : W) (q c n : Nat) (a b : Bool) : Goes w (w.link q c n a b) := by
  rw [link_eq]
  exact ((((goes_setCell _ _ _ _).trans (goes_setCell _ _ _ _)).trans (goes_linkedAfter _ _ _)).trans (goes_setOwner _ _ _)).trans
    (Goes.upd _ _ rfl)

theorem goes_openPkt (w : W) (m : Rid) (q n : Nat) (t : Bool) : Goes w (w.openPkt m q n t) :=
  (goes_takeCells n w q).trans (.beside rfl)

theorem goes_storeWord (w : W) (p : OpenPkt) (v : Word32) : Goes w (w.storeWord p v) :=
  .beside rfl

theorem goes_storeWords (vs : List Word32) (w : W) (m : Rid) (q : Nat) : Goes w (w.storeWords m q vs) := by
  induction vs generalizing w with
  | nil => exact Goes.refl w
  | cons v vs ih =>
    simp only [W.storeWords]
    split
    · split
      · exact (goes_storeWord _ _ _).trans (ih _)
      · exact Goes.refl w
    · exact Goes.refl w

theorem goes_linkAll (cs : List Nat) (w : W) (q l : Nat) (f : Bool) : Goes w (w.linkAll q l f cs) := by
  induction cs generalizing w l f with
  | nil => exact Goes.refl w
  | cons c cs ih =>
    simp only [W.linkAll]
    split
    · exact (goes_freeCell _ _ _).trans (ih _ _ _)
    · exact (goes_link _ _ _ _ _ _).trans (ih _ _ _)

theorem goes_closePkt (w : W) (p : OpenPkt) : Goes w (w.closePkt p) :=
  ((goes_setCell _ _ _ _).trans (goes_linkAll _ _ _ _ _)).trans (.beside rfl)

theorem goes_queueNote (w : W) (n : Nat) (m : Rid) (q o : Nat) : Goes w (w.queueNote n m q o) := .beside rfl

theorem goes_setReg (w : W) (t i o : Nat) (v : Word32) : Goes w (w.setReg t i o v) := .upd _ _ rfl

theorem goes_countBob (w : W) (o : Nat) : Goes w (w.countReg 8 0 o) := goes_setReg _ _ _ _ _

theorem goes_poolNote (w : W) (m : Rid) (q o : Nat) : Goes w (w.poolNote m q o) :=
  Goes.ite _ (goes_queueNote _ _ _ _ _) (Goes.refl w)

theorem goes_misuse (w : W) (m : Rid) (q o : Nat) : Goes w (w.misuse m q o).2 :=
  (goes_countBob w 0x54).trans (goes_queueNote _ _ _ _ _)

theorem goes_abortPkt (w : W) (p : OpenPkt) : Goes w (w.abortPkt p) :=
  (Goes.each _ _ (fun _ _ => goes_freeCell _ _ _) w).trans (.beside rfl)

theorem goes_abortOpen (w : W) (p : OpenPkt) (o : Nat) : Goes w (w.abortOpen p o) :=
  ((goes_abortPkt w p).trans (goes_countBob _ 0x58)).trans (goes_queueNote _ _ _ _ _)

theorem goes_mendByte (w : W) (m : Rid) (q o a : Nat) : Goes w (w.mendByte m q o a) := by
  unfold W.mendByte
  split
  · refine Goes.trans (Goes.ite (a < ownerByte 0) ?_ ?_) (goes_queueNote _ _ _ _ _)
    · exact .beside rfl
    · exact .beside rfl
  · exact Goes.refl w

theorem goes_breakQueue (w : W) (m : Rid) (q o : Nat) : Goes w (w.breakQueue m q o) :=
  (Goes.upd w _ rfl).trans (goes_queueNote _ _ _ _ _)

theorem goes_readCell (w : W) (m : Rid) (q o c : Nat) : Goes w (w.readCell m q o c) := by
  unfold W.readCell
  dsimp only
  have h : Goes w (w.mendCell m q o c) := Goes.each _ _ (fun _ _ => goes_mendByte _ _ _ _ _) w
  refine h.trans ?_
  split
  · exact (Goes.upd _ _ rfl).trans (goes_breakQueue _ _ _ _)
  · split
    · exact goes_breakQueue _ _ _ _
    · exact Goes.refl _

theorem goes_tailRead (w : W) (m : Rid) (q : Nat) : Goes w (w.tailRead m q) := by
  unfold W.tailRead
  split
  · split
    · exact goes_readCell _ _ _ _ _
    · exact Goes.refl w
  · exact Goes.refl w

theorem goes_enqWord (w : W) (q : Nat) (v : Word32) : Goes w (w.enqWord q v) := by
  have h : Goes w (((w.takeCell q).2.setCell (w.takeCell q).1 2 v).link q (w.takeCell q).1 1 false false) :=
    ((goes_takeCell w q).trans (goes_setCell _ _ _ _)).trans (goes_link _ _ _ _ _ _)
  unfold W.enqWord
  dsimp only
  split
  · split
    · exact ((goes_setCell _ _ _ _).trans (goes_setCell _ _ _ _)).trans (Goes.upd _ _ rfl)
    · exact h
  · exact h

theorem goes_enqPacket (w : W) (q : Nat) (v : Word32) : Goes w (w.enqPacket q v) :=
  (((goes_takeCell w q).trans (goes_setCell _ _ _ _)).trans (goes_setCell _ _ _ _)).trans (goes_link _ _ _ _ _ _)

/-- Where a write of a port page that passes at once goes. -/
def GoesOpt (w : W) (r : Option (Acc × W)) : Prop := ∀ x, r = some x → Goes w x.2

theorem GoesOpt.some' {w : W} {x : Acc × W} (h : Goes w x.2) : GoesOpt w (some x) := fun _ e => by cases e; exact h

theorem GoesOpt.pair' {w v : W} {a : Acc} (h : Goes w v) : GoesOpt w (some (a, v)) := fun _ e => by cases e; exact h

theorem GoesOpt.none' {w : W} : GoesOpt w none := fun _ e => by cases e

theorem GoesOpt.trans {w v : W} {r : Option (Acc × W)} (h : Goes w v) (k : GoesOpt v r) : GoesOpt w r :=
  fun x e => h.trans (k x e)

theorem goes_tryEnq (w : W) (m : Rid) (q : Nat) (v : Word32) : GoesOpt w (w.tryEnq m q v) := by
  refine GoesOpt.trans (goes_tailRead w m q) ?_
  unfold W.tryEnq
  dsimp only
  generalize w.tailRead m q = w1
  split
  · exact .some' (goes_misuse _ _ _ _)
  · split
    · exact .some' (goes_misuse _ _ _ _)
    · split
      · exact .pair' ((goes_enqWord _ q v).trans (goes_poolNote _ m q 0x20))
      · exact .none'
    · split
      · exact .pair' ((goes_enqPacket _ q v).trans (goes_poolNote _ m q 0x20))
      · exact .none'

theorem goes_tryPktOpen (w : W) (m : Rid) (q : Nat) : GoesOpt w (w.tryPktOpen m q) := by
  unfold W.tryPktOpen
  dsimp only
  split
  · exact .some' (goes_misuse _ _ _ _)
  · split
    · exact .pair' ((goes_openPkt _ _ _ _ _).trans (goes_poolNote _ _ _ _))
    · exact .none'

theorem goes_truncate (w : W) (m : Rid) (q : Nat) : Goes w (w.truncate m q).2 := by
  unfold W.truncate
  dsimp only
  split
  · exact (Goes.upd w _ rfl).trans (goes_misuse _ _ _ _)
  · exact goes_misuse _ _ _ _

theorem goes_tryPktWord (w : W) (m : Rid) (q : Nat) (ws : List Word32) : GoesOpt w (w.tryPktWord m q ws) := by
  unfold W.tryPktWord
  split
  · exact .some' (goes_misuse _ _ _ _)
  · split
    · exact .some' (goes_misuse _ _ _ _)
    · extract_lets room vs need full
      have hf : ∀ v : W, Goes w v → Goes w (full v).2 := fun v h => by
        show Goes w (if vs.length < ws.length then v.truncate m q else (Acc.done, v)).2
        split
        · exact h.trans (goes_truncate _ _ _)
        · exact h
      split
      · exact .some' (hf _ (goes_storeWords _ _ _ _))
      · split
        · exact .some' (hf _ ((((goes_takeCells need w q).trans (Goes.upd _ _ rfl)).trans
            (goes_storeWords _ _ _ _)).trans (goes_poolNote _ _ _ _)))
        · exact .none'

theorem goes_close (w : W) (m : Rid) (q : Nat) (a : Bool) : Goes w (w.close m q a).2 := by
  unfold W.close
  split
  · exact goes_misuse _ _ _ _
  · split
    · exact goes_abortOpen _ _ _
    · split
      · exact goes_misuse _ _ _ _
      · exact goes_closePkt _ _

theorem goes_tryWaiter (w : W) (x : Waiter) : GoesOpt w (w.tryWaiter x) := by
  unfold W.tryWaiter
  split
  · exact goes_tryEnq _ _ _ _
  · split
    · exact goes_tryPktOpen _ _ _
    · split
      · exact goes_tryPktWord _ _ _ _
      · exact .some' (goes_close _ _ _ _)

theorem goes_storeNotice (w : W) (k c : Nat) : Goes w (w.storeNotice k c) :=
  (Goes.core w k _).trans (goes_interrupt _ _ _)

theorem goes_storeTaken (w : W) (x : Waiter) (r : Acc) : Goes w (w.storeTaken x r) := by
  unfold W.storeTaken
  split
  · exact Goes.refl w
  · next k _ =>
    dsimp only
    have pop : ∀ v : W, Goes w v → Goes w (match (v.dev.core k).sb with
        | s :: r => if s.addr.toNat = 0x11800000 + x.q * 0x40 + x.off then v.upd fun d => d.onCore k fun c => { c with sb := r } else v
        | [] => v) := fun v h => by
      split
      · exact h.trans (Goes.ite _ (.core _ _ _) (Goes.refl _))
      · exact h
    cases r with
    | err e => exact pop _ (goes_storeNotice _ _ _)
    | _ => exact pop _ (Goes.refl w)

theorem goes_grantLoop (xs : List Waiter) (w : W) (kept : List Waiter) : Goes w (w.grantLoop kept xs).2 := by
  induction xs generalizing w kept with
  | nil => exact Goes.refl w
  | cons x xs ih =>
    simp only [W.grantLoop]
    split
    · exact ih _ _
    · split
      · next r w1 h => exact ((goes_tryWaiter w x _ h).trans (goes_storeTaken _ _ _)).trans (ih _ _)
      · exact ih _ _

/-- What offering freed cells to the waiters can change. -/
theorem goes_grantWaiters (w : W) : Goes w w.grantWaiters :=
  (goes_grantLoop _ w []).trans (.beside rfl)

theorem goes_tryRefused (w : W) (m : Rid) (q : Nat) : Goes w (w.tryRefused m q) :=
  (goes_countBob w 0x50).trans (goes_queueNote _ _ _ _ _)

/-- What a whole packet through the TRY port can change, taken or refused. -/
theorem goes_tryPacket (w : W) (m : Rid) (q : Nat) (ws : List Word32) : Goes w (w.tryPacket m q ws).2 := by
  refine (goes_grantWaiters w).trans ?_
  unfold W.tryPacket
  dsimp only
  generalize w.grantWaiters = w1
  split
  · exact goes_misuse _ _ _ _
  · split
    · exact goes_tryRefused _ _ _
    · have h := ((goes_openPkt w1 m q (w1.dev.queue q).cfg.tryCells true).trans (goes_poolNote _ m q 0x18)).trans
        (goes_storeWords ws _ m q)
      dsimp only
      split
      · exact h.trans (goes_closePkt _ _)
      · exact h

theorem Goes.drop {w w' : W} (h : Goes w w') (p : Nat × Word32 × Word32 → Bool) :
    Goes w { w' with due := w.due ++ (w'.due.drop w.due.length).filter p } := h.trans (.beside rfl)

theorem goes_traceOne (w : W) (r : Rec) : Goes w (w.traceOne r).2 := by
  unfold W.traceOne
  dsimp only
  split
  · exact (goes_tryPacket _ _ _ _).trans (Goes.upd _ _ rfl)
  · exact goes_tryPacket _ _ _ _

theorem goes_trace (w : W) (r : Rec) : Goes w (w.trace r) := by
  unfold W.trace
  dsimp only
  split
  · exact Goes.refl w
  · have h1 : Goes w (if w.dev.flue.traceGap.n = 0 then (true, w) else w.traceOne (gapRec w.dev.flue.traceGap r.mode)).2 := by
      split
      · exact Goes.refl w
      · exact goes_traceOne _ _
    generalize (if w.dev.flue.traceGap.n = 0 then (true, w) else w.traceOne (gapRec w.dev.flue.traceGap r.mode)) = x at h1 ⊢
    obtain ⟨ready, v⟩ := x
    dsimp only at h1 ⊢
    have h2 : Goes w (if (ready && w.dev.flue.traceGap.n != 0) = true then
        v.upd fun d => { d with flue := { d.flue with traceGap := {} } } else v) :=
      h1.trans (Goes.ite _ (Goes.upd _ _ rfl) (Goes.refl v))
    generalize (if (ready && w.dev.flue.traceGap.n != 0) = true then
        v.upd fun d => { d with flue := { d.flue with traceGap := {} } } else v) = y at h2 ⊢
    have h3 : Goes w (if ready = true then y.traceOne r else (false, y)).2 := by
      split
      · exact h2.trans (goes_traceOne _ _)
      · exact h2
    generalize (if ready = true then y.traceOne r else (false, y)) = z at h3 ⊢
    obtain ⟨ok, u⟩ := z
    dsimp only at h3 ⊢
    refine Goes.trans (b := w) (Goes.refl w) ?_
    split
    · refine Goes.drop ?_ _
      exact h3.trans (Goes.ite _ (Goes.refl u) (Goes.upd _ _ rfl))
    · exact h3.trans (Goes.ite _ (Goes.refl u) (Goes.upd _ _ rfl))

theorem goes_deliver (w : W) (k : Nat) (r : Reply) : Goes w (w.deliver k r) := by
  refine Goes.upd _ _ ?_
  dsimp only
  split
  · rfl
  · split <;> rfl

theorem goes_reply (w : W) (p : Packet) (o : Half) (st : Nat) (f : Bool) (r : List Byte) (s : Bool) :
    Goes w (w.reply p o st f r s) :=
  (goes_deliver _ _ _).trans (Goes.ite _ (Goes.refl _) (Goes.upd _ _ rfl))

theorem goes_finish (w : W) (p : Pend) (st : Nat) (r : List Byte) : Goes w (w.finish p st r) :=
  (Goes.upd w _ rfl).trans (Goes.ite _ (goes_reply _ _ _ _ _ _ _) (Goes.refl _))

theorem goes_finishAll (w : W) (o k st : Nat) (r : List Byte) : Goes w (w.finishAll o k st r) :=
  Goes.each _ _ (fun _ w => goes_finish w _ _ _) w

theorem goes_put (w : W) (a : Nat) (bs : List Byte) : Goes w (w.put a bs) := by
  refine Goes.trans (b := w.poke a bs) (.beside rfl) (Goes.upd _ _ ?_)
  split <;> rfl

theorem goes_setHobReg (w : W) (u o : Nat) (v : Word32) : Goes w (w.setHobReg u o v) :=
  .ite _ (goes_setReg _ _ _ _ _) (goes_setReg _ _ _ _ _)

theorem goes_hobCount (w : W) (u : Nat) (b : Bool) (e : Word32) : Goes w (w.hobCount u b e) :=
  (((goes_setHobReg _ _ _ _).trans (goes_setHobReg _ _ _ _)).trans (goes_setHobReg _ _ _ _)).trans
    (goes_setHobReg _ _ _ _)

theorem goes_hobLog (w : W) (u a : Nat) (m : Bool) (c : ByteCode) : Goes w (w.hobLog u a m c).2 := by
  cases c with
  | good b => exact Goes.refl w
  | fixed b s => exact (goes_hobCount _ _ _ _).trans (.hob _ _ _ fun _ => by split <;> rfl)
  | bad b s => exact goes_hobCount _ _ _ _

theorem goes_wakeHob (w : W) (u : Nat) : Goes w (w.wakeHob u) := .wake w u

theorem goes_granted (w : W) (u k : Nat) : Goes w (w.granted u k) := .hob w u _ fun _ => rfl

theorem goes_hobInjected (w : W) (u k : Nat) (l : List Nat) : Goes w (w.hobInjected u k l) := by
  unfold W.hobInjected
  split
  · next mode m _ =>
    refine Goes.ite _ (Goes.trans (b := w.upd fun d => d.onHob u fun h => { h with inject := none }) (.hob _ _ _ fun _ => rfl) (.beside rfl)) (Goes.refl w)
  · exact Goes.refl w

theorem goes_copyHob (w : W) (u s d n : Nat) : Goes w (w.copyHob u s d n) := by
  unfold W.copyHob
  dsimp only
  refine ((goes_wakeHob w u).trans ?_).trans
    ((((goes_put _ _ _).trans (goes_granted _ _ _)).trans (Goes.upd _ _ rfl)).trans (goes_hobInjected _ _ _ _))
  refine Goes.ite _ (Goes.each _ _ (fun i v => ?_) _) (Goes.refl _)
  exact (goes_hobLog v u (s + i) false _).trans (.beside rfl)

theorem goes_startCore (w : W) (k : Nat) (h : k < 64) : Goes w (w.startCore k) := by
  unfold W.startCore
  split
  · exact Goes.refl w
  · rw [if_neg (by omega)]
    exact Goes.trans (Goes.core w k fun _ => _) (Goes.seam _ k (fun s => { s with reset := false }) fun _ => rfl)

theorem goes_startCores (w : W) : Goes w w.startCores := by
  refine Goes.each _ _ (fun k w => ?_) w
  split
  · next h =>
    simp only [Bool.and_eq_true] at h
    exact goes_startCore _ _ (canStart_lt _ _ h.1)
  · exact Goes.refl w

theorem goes_cutFail (w : W) (h : Nat) (c : Byte) : Goes w (w.cutFail h c) := by
  refine Goes.upd _ _ ?_
  split
  · split
    · exact moved_foldl (fun d h => d.onCutStat h fun s => { s with phase := 3 }) (fun _ _ => rfl) _ _
    · rfl
  · rfl

theorem goes_endCutover (w : W) (o : Nat) : Goes w (w.endCutover o) := by
  unfold W.endCutover
  split
  · exact Goes.refl w
  · exact ((Goes.upd w _ rfl).trans (Goes.each _ _ (fun _ _ => Goes.upd _ _ rfl) _)).trans (goes_finishAll _ _ _ _ _)

theorem goes_carry (w : W) (h : Nat) (s : Machine.Section) (b : Bool) : Goes w (w.carry h s b) := by
  have key : ∀ (l : List (Nat × Nat)) (p : Nat × W), Goes w p.2 →
      Goes w (l.foldl (fun (p : Nat × W) r =>
        let x := hobBase h + r.1
        let y := hobBase h + s.snap + p.1
        (p.1 + r.2, if b then p.2.copyHob h y x r.2 else p.2.copyHob h x y r.2)) p).2 := by
    intro l
    induction l with
    | nil => exact fun p hp => hp
    | cons r l ih =>
      intro p hp
      refine ih _ (hp.trans ?_)
      dsimp only
      split <;> exact goes_copyHob _ _ _ _ _
  exact key _ (0, w) (Goes.refl w)

theorem goes_fallbackHearth (w : W) (c : Cutover) (h : Nat) : Goes w (w.fallbackHearth c h) := by
  unfold W.fallbackHearth
  dsimp only
  split
  · exact (goes_carry _ _ _ _).trans (Goes.each _ _ (fun _ w => Goes.ite _ (.core w _ _) (Goes.refl w)) _)
  · exact Goes.refl w

theorem goes_fallback (w : W) (o : Nat) : Goes w (w.fallback o) := by
  unfold W.fallback
  split
  · exact Goes.refl w
  · refine ((Goes.each _ _ (fun _ w => goes_fallbackHearth w _ _) w).trans (goes_endCutover _ _)).trans
      (Goes.each _ _ (fun k w => ?_) _)
    split
    · next h => exact goes_startCore _ _ (canStart_lt _ _ h)
    · exact Goes.refl w

theorem goes_cutoverSafe (w : W) : Goes w w.cutoverSafe.2 := by
  unfold W.cutoverSafe
  split
  · exact Goes.refl w
  · split
    · split
      · exact goes_fallback _ _
      · exact goes_endCutover _ _
    · exact goes_endCutover _ _

end Sys2Proof.Proofs
end

section
/-! Every event goes by the moves of its reactions; a domain that is ON stays as it is while the device does not come out of DOZE. -/

namespace Sys2Proof.Proofs

open Machine Laws

set_option Elab.async false

variable {w v a b : W} {n m k : Nat} {d0 d1 : Word32}

theorem goes_errAssert (w : W) : Goes w w.errAssert := (Goes.upd w _ rfl).trans (goes_finishAll _ _ _ _ _)

theorem goes_errRelease (w : W) : Goes w w.errRelease := (Goes.upd w _ rfl).trans (goes_finishAll _ _ _ _ _)

theorem goes_errAuto (w : W) : Goes w w.errAuto := .ite _ (goes_errRelease w) (.refl w)

theorem goes_forceCh (w : W) (n : Nat) : Goes w (w.forceCh n) := .ite _ (.refl w) (.beside rfl)

theorem chansGo_started {x : DmaChan} (runs : x.running = true) {l : List Nat} {t : Tbl DmaChan} {c : Nat} :
    (l.foldl (fun t c => t.set c x) t).getD c {} = t.getD c {} ∨
      c ∈ l ∧ ((l.foldl (fun t c => t.set c x) t).getD c {}).running = true := by
  induction l generalizing t with
  | nil => exact .inl rfl
  | cons k l ih =>
    rcases ih (t := t.set k x) with same | ⟨mem, on⟩
    · by_cases own : c = k
      · subst own
        refine .inr ⟨List.mem_cons_self, ?_⟩
        rw [List.foldl_cons, same, getD_set_self]
        exact runs
      · exact .inl (same.trans (getD_set_ne _ _ _ _ _ own))
    · exact .inr ⟨List.mem_cons_of_mem _ mem, on⟩

theorem goes_restartOut (w : W) (h : Nat) : Goes w (w.restartOut h) := by
  refine .ite _ (.refl w) (.blw w h _ (fun _ => rfl) fun c => ?_)
  refine (chansGo_started (x := { running := true, frame := (w.dev.blw h).frame }) rfl).imp_right fun ⟨mem, on⟩ => ⟨?_, on⟩
  exact (mem_bitsOf.mp mem).2

theorem goes_onFlueBlw {h : Nat} {g : Dev → Flue} {f : Bellows → Bellows} (same : ∀ b, blwPart (f b) = blwPart b)
    (chans : ∀ b, (f b).chans = b.chans := by exact fun _ => rfl) : Goes w (w.upd fun d => ({ d with flue := g d } : Dev).onBlw h f) :=
  Goes.trans (b := w.upd fun d => { d with flue := g d }) (.beside rfl) (.blw _ h f same fun _ => .inl (by rw [chans]))

theorem goes_hearthSafe (w : W) (k h : Nat) : Goes w (w.hearthSafe k h) := by
  unfold W.hearthSafe
  extract_lets full held_
  have first : Goes w held_ := goes_onFlueBlw fun _ => rfl
  exact (first.trans (goes_restartOut _ _)).trans (.each _ _ (fun _ w => goes_forceCh w _) _)

theorem goes_selectGroup (w : W) (k h g : Nat) : Goes w (w.selectGroup k h g) := by
  unfold W.selectGroup
  extract_lets selected
  have first : Goes w selected := goes_onFlueBlw fun _ => rfl
  exact (first.trans (goes_restartOut _ _)).trans (.each _ _ (fun _ w => .ite _ (goes_forceCh w _) (.refl w)) _)

theorem goes_enterSafe (w : W) : Goes w w.enterSafe.2 := by
  unfold W.enterSafe
  split
  · exact .refl w
  · extract_lets old
    dsimp only
    refine .trans ?_ (goes_startCores _)
    have stamped : Goes w ((w.cutoverSafe.2.upd fun d => { d with
        sys := { d.sys with dozeArmed := false },
        flue := { d.flue with
          retMode := if w.dev.sys.mode.running then 4 else if w.dev.sys.mode = .quiet then d.flue.retMode else 3,
          tripSet := [] },
        chim := { d.chim with safeMark := d.chim.safeMark || d.chim.pos == 0 },
        stoker := { d.stoker with serving := !d.stoker.restarting } }).stampMode .safe) :=
      ((goes_cutoverSafe w).trans (.upd _ _ rfl)).trans (.safe _)
    split
    · next doze => exact .dozeUp doze stamped
    · exact stamped

theorem goes_selectAll {hs : List Nat} {f : Bellows → Bellows} (same : ∀ b, blwPart (f b) = blwPart b) (chans : ∀ b, (f b).chans = b.chans) :
    Goes w (w.upd fun d => hs.foldl (fun d h => d.onBlw h f) d) := by
  induction hs generalizing w with
  | nil => exact .upd _ _ rfl
  | cons h hs ih => exact (Goes.blw w h f same fun _ => .inl (by rw [chans])).trans (ih (w := w.upd fun d => d.onBlw h f))

theorem goes_deviceSafe (w : W) (k : Nat) : Goes w (w.deviceSafe k).2 := by
  unfold W.deviceSafe
  dsimp only
  refine .trans ?_ (.each _ _ (fun _ w => goes_forceCh w _) _)
  refine .trans ?_ (.each _ _ (fun _ w => goes_restartOut w _) _)
  have entered : Goes w (if w.dev.sys.mode.trippable then w.enterSafe else (false, w)).2 := by
    split
    · exact goes_enterSafe w
    · exact .refl w
  refine entered.trans ?_
  generalize (if w.dev.sys.mode.trippable then w.enterSafe else (false, w)).2 = v
  exact (Goes.upd v (fun d => { d with flue := { d.flue with devHold := true, tripSet := k :: d.flue.tripSet.filter (· != k) } }) rfl).trans
    (goes_selectAll (fun _ => rfl) fun _ => rfl)

theorem goes_react {r : Rec} {grp : List Nat} : Goes w (w.react k r grp).2 := by
  unfold W.react
  extract_lets h w1 w2 w3 w4 w5 w6 w7
  have h1 : Goes w w1 := .ite _ (.upd _ _ rfl) (.refl _)
  have h2 : Goes w1 w2 := goes_trace w1 r
  have h3 : Goes w2 w3 := .ite _ (goes_cutFail _ _ _) (.refl _)
  have h4 : Goes w3 w4 := .ite _ (.upd _ _ rfl) (.refl _)
  have h5 : Goes w4 w5 := .ite _ (goes_hearthSafe _ _ _) (.refl _)
  have h6 : Goes w5 w6 := .ite _ (.each _ _ (fun _ w => goes_selectGroup w _ _ _) _) (.refl _)
  have h7 : Goes w6 w7 := .ite _ (goes_errAssert _) (.refl _)
  have reactions : Goes w w7 := h1.trans (h2.trans (h3.trans (h4.trans (h5.trans (h6.trans h7)))))
  refine reactions.trans ?_
  split
  · exact goes_deviceSafe _ _
  · split
    · exact goes_enterSafe _
    · exact .refl _

theorem goes_event {test : Bool} {grp : List Nat} : Goes w (w.event k d0 d1 test grp).2 := by
  have noted {level : Bool} {r : Rec} : Goes w (w.noteEvent k level r) := (Goes.upd w _ rfl).trans (.ite _ (.upd _ _ rfl) (.refl _))
  unfold W.event
  split
  · exact .refl w
  · exact noted.trans goes_react

theorem goes_fellBack {x : Bool × W} : Goes x.2 (W.fellBack x) := .ite _ goes_event (.refl _)

theorem goes_drainOnce : Goes w w.drainOnce := by
  refine Goes.trans (b := { w with due := [] }) (.beside rfl) (.each _ _ (fun e v => ?_) _)
  split
  · exact .refl v
  · exact goes_event.trans goes_fellBack

theorem goes_poolCheck : Goes w w.poolCheck :=
  .ite _ goes_event (.ite _ ((Goes.upd w _ rfl).trans (goes_errAuto _)) (.refl w))

theorem goes_settle : Goes w w.settle := (goes_drainOnce.trans goes_drainOnce).trans goes_poolCheck

/-- An event and all that follows it. -/
theorem goes_raise {test : Bool} {grp : List Nat} : Goes w (w.raise k d0 d1 test grp) :=
  goes_event.trans (goes_fellBack.trans goes_settle)

theorem goes_level : Goes w (w.level k d0 d1) := .ite _ (.refl w) goes_raise

theorem goes_inactive : Goes w (w.inactive k) := (Goes.upd w _ rfl).trans (goes_errAuto _)

/-! The domains. -/

/-- A domain that is ON stays as it is, while the device does not come out of DOZE. -/
def DomsOn (w v : W) : Prop :=
  w.dev.sys.mode ≠ .doze → v.dev.sys.mode ≠ .doze ∧ ∀ k, (w.dev.dom k).st = .on → v.dev.dom k = w.dev.dom k

theorem DomsOn.same (mode : v.dev.sys.mode = w.dev.sys.mode) (power : v.dev.power = w.dev.power) : DomsOn w v := fun awake =>
  ⟨by rw [mode]; exact awake, fun k _ => by rw [Dev.dom, Dev.dom, power]⟩

theorem domsOn_of_goes (h : Goes w v) : DomsOn w v := by
  induction h with
  | refl w => exact .same rfl rfl
  | trans _ _ first second =>
    intro awake
    obtain ⟨awake', same⟩ := first awake
    obtain ⟨awake'', same'⟩ := second awake'
    exact ⟨awake'', fun k on => (same' k (by rw [same k on]; exact on)).trans (same k on)⟩
  | beside same =>
    exact .same (congrArg Prod.fst same :) (congrArg (fun x => x.2.2.2.2.2.1) same :)
  | core w k f => exact .same rfl rfl
  | seam w k f _ => exact .same rfl rfl
  | hob w u f _ => exact .same rfl rfl
  | wake w u =>
    unfold W.wakeHob
    split
    · exact .same rfl rfl
    · refine fun awake => ⟨awake, fun k on => ?_⟩
      rw [upd_dev, dom_onDom]
      split
      · next own =>
        subst own
        show { w.dev.dom (hobDom u) with st := DomSt.on } = _
        rw [← on]
      · rfl
  | blw w h f _ _ => exact .same rfl rfl
  | safe w => exact fun _ => ⟨show Mode.safe ≠ .doze by decide, fun _ _ => rfl⟩
  | dozeUp doze _ _ => exact fun awake => absurd doze awake

/-- A domain that is ON stays as it is where an event is told (R273). -/
theorem dom_raise (awake : w.dev.sys.mode ≠ .doze) (on : (w.dev.dom k).st = .on) : (w.raise n d0 d1).dev.dom k = w.dev.dom k :=
  (domsOn_of_goes goes_raise awake).2 k on

end Sys2Proof.Proofs
end

section
/-! The power controller: entries and wakes of domains, level changes, supplies and temperature (R458 to R472; O43). -/

namespace Sys2Proof.Proofs

open Machine Laws

set_option Elab.async false

variable {s : State} {w v a b : W} {n : DomainId} {e : EntryEnd} {id : Rid} {cause : BitVec 3} {rail : Fin 3} {k j : Nat}

/-! Entries of a domain. -/

/-- DOMAIN_ENTRY where the entry is due. -/
def entryBy (n : Nat) (e : EntryEnd) (w : W) : W :=
  if w.dependsOn n then w.entryRefused n w.pwrRid 1
  else match e with
    | .busy b => w.entryRefused n b 2
    | .clear => if dozeOnly n then w.entryRefused n w.pwrRid 3 else w.domainDown n
    | .aborted c =>
      if dozeOnly n then w.entryRefused n w.pwrRid 3
      else (w.upd fun d => d.onDom n fun x => { x with aborted := satInc x.aborted, waits := false }).raise 0x06D (pwrDetail n 0)
        (ridDetail c)

/-- The entry of domain `k` may come (R460). -/
def EntryDue (s : State) (k : Nat) : Prop :=
  k < 241 ∧ s.dev.sys.mode ≠ .off ∧ s.dev.sys.mode ≠ .doze ∧ (s.dev.dom k).st = .on ∧ s.world.votes k = 0

theorem domainEntry_row : exec (.domainEntry n e) s = .next (stateOf s (
    if 241 ≤ n.val ∨ s.dev.sys.mode = .off ∨ s.dev.sys.mode = .doze ∨ (s.dev.dom n).st ≠ .on ∨ s.world.votes n ≠ 0 then s.world
    else entryBy n e s.world)) := rfl

theorem entryDue_iff : (241 ≤ k ∨ s.dev.sys.mode = .off ∨ s.dev.sys.mode = .doze ∨ (s.dev.dom k).st ≠ .on ∨ s.world.votes k ≠ 0) ↔
    ¬ EntryDue s k := by
  unfold EntryDue
  by_cases low : k < 241
  · have high : ¬ 241 ≤ k := by omega
    tauto
  · have high : 241 ≤ k := by omega
    tauto

theorem entry_still (no : ¬ EntryDue s n) : Answers (.domainEntry n e) s (Only s · fun d => d) :=
  ⟨_, domainEntry_row.trans (next_of (if_pos (entryDue_iff.mpr no))), rfl⟩

theorem entry_due (due : EntryDue s n) (same : entryBy n e s.world = v) : exec (.domainEntry n e) s = .next (stateOf s v) :=
  domainEntry_row.trans (next_of ((if_neg fun h => entryDue_iff.mp h due).trans same))

/-- A domain that leans on domain `k` is ON (R460). -/
theorem dependsOn_iff : s.world.dependsOn k = true ↔
    (208 ≤ k ∧ k < 224 ∧ ∃ l, l < 13 ∧ (s.dev.dom (13 * (k - 208) + l)).st = .on) ∨ k = 228 ∧ ∃ l, l < 4 ∧ (s.dev.dom (224 + l)).st = .on := by
  have any (m : Nat) (f : Nat → Nat) : (List.range m).any (fun l => (s.world.dev.dom (f l)).st == DomSt.on) = true ↔
      ∃ l, l < m ∧ (s.dev.dom (f l)).st = .on := by
    simp only [List.any_eq_true, List.mem_range, beq_iff_eq]
    rfl
  unfold W.dependsOn
  split
  · next hearth =>
    rw [any]
    constructor
    · exact fun on => .inl ⟨hearth.1, hearth.2, on⟩
    · rintro (⟨-, -, on⟩ | ⟨rfl, -⟩)
      · exact on
      · omega
  · next other =>
    split
    · next own =>
      rw [any]
      constructor
      · exact fun on => .inr ⟨own, on⟩
      · rintro (⟨low, high, -⟩ | ⟨-, on⟩)
        · exact absurd ⟨low, high⟩ other
        · exact on
    · next apart =>
      constructor
      · exact fun no => absurd no Bool.false_ne_true
      · rintro (⟨low, high, -⟩ | ⟨own, -⟩)
        · exact absurd ⟨low, high⟩ other
        · exact absurd own apart

theorem plain_refused : Plain 0x06C := by
  unfold Plain Noted
  decide

theorem plain_aborted : Plain 0x06D := by
  unfold Plain Noted
  decide

/-- A change of domain `k`, with an event: the domain, the event and what else may change. -/
theorem dom_event {src : Nat} {d0 d1 : Word32} {f : Domain → Domain} (awake : s.dev.sys.mode ≠ .doze) (on : (f (s.dev.dom k)).st = .on)
    (plain : Plain src) (there : (s.world.source src).isSome = true) :
    let t := stateOf s ((s.world.upd fun d => d.onDom k f).raise src d0 d1)
    t.dev.dom k = f (s.dev.dom k) ∧ Detected s t src d0 d1 s.dev.clock.tb ∧ Beside s t fun d => d := by
  have calm : Quiescent s (s.world.upd fun d => d.onDom k f) := quiescent_world.upd
  have own : (s.world.upd fun d => d.onDom k f).dev.dom k = f (s.dev.dom k) := dom_onDom_self _ _ _
  have found := detected_raise (d0 := d0) (d1 := d1) calm plain there
  have kept := kept_raise (s.world.upd fun d => d.onDom k f) src d0 d1 false []
  have beside : Beside s (stateOf s ((s.world.upd fun d => d.onDom k f).raise src d0 d1)) fun d => d := beside_of_kept kept rfl
  have dom := dom_raise (w := s.world.upd fun d => d.onDom k f) (n := src) (d0 := d0) (d1 := d1) (k := k) awake (own ▸ on)
  exact ⟨dom.trans own, found, beside⟩

theorem onDom_onDom (d : Dev) (k : Nat) (f g : Domain → Domain) : (d.onDom k f).onDom k g = d.onDom k fun x => g (f x) := by
  rw [Dev.onDom, dom_onDom, if_pos rfl]
  simp only [Dev.onDom, Tbl.set, insertRow_insertRow]

/-- An entry that is refused (R461). -/
def EntryRefused (s : State) (n : DomainId) (e : EntryEnd) (id : Rid) (cause : BitVec 3) : Prop :=
  ((s.dev.dom n.val).waits = true → Answers (.domainEntry n e) s (Only s · fun d => d)) ∧
  ((s.dev.dom n.val).waits = false → Answers (.domainEntry n e) s fun t =>
    t.dev.dom n.val = { s.dev.dom n.val with waits := true, refused := satInc (s.dev.dom n.val).refused, lastId := id, lastCause := cause } ∧
    Detected s t 0x06C (w32 (n.val + cause.toNat * 2 ^ 8)) (w32 (id.toNat * 2 ^ 16)) s.dev.clock.tb ∧ Beside s t fun d => d)

theorem entryRefused_of (due : EntryDue s n) (by_ : entryBy n e s.world = s.world.entryRefused n id cause) : EntryRefused s n e id cause := by
  have parts := due
  obtain ⟨-, -, awake, on, -⟩ := parts
  constructor
  · intro waits
    exact ⟨_, entry_due due (by_.trans (if_pos waits)), rfl⟩
  · intro first
    have both : s.world.entryRefused n id cause = (s.world.upd fun d => d.onDom n fun x =>
        { x with waits := true, refused := satInc x.refused, lastId := id, lastCause := cause }).raise 0x06C (pwrDetail n cause.toNat)
        (ridDetail id) := by
      have twice : ((s.world.upd fun d => d.onDom n fun x => { x with waits := true, refused := satInc x.refused }).upd fun d =>
          d.onDom n fun x => { x with lastId := id, lastCause := cause }) = s.world.upd fun d => d.onDom n fun x =>
          { x with waits := true, refused := satInc x.refused, lastId := id, lastCause := cause } := by
        rw [upd_upd]
        exact congrArg s.world.upd (funext fun d => onDom_onDom d n _ _)
      refine (if_neg (ne_true_of_eq_false first)).trans ?_
      rw [W.domRefuse, twice]
    exact ⟨_, entry_due due (by_.trans both), dom_event awake on plain_refused rfl⟩

theorem entry_leans (due : EntryDue s n) (leans : s.world.dependsOn n = true) : EntryRefused s n e s.world.pwrRid 1 :=
  entryRefused_of due (if_pos leans)

theorem entry_busy (due : EntryDue s n) (free : s.world.dependsOn n = false) : EntryRefused s n (.busy id) id 2 :=
  entryRefused_of due (if_neg (ne_true_of_eq_false free))

theorem dozeOnly_iff : dozeOnly k = true ↔ 224 ≤ k ∧ k ≤ 229 := by
  unfold dozeOnly
  simp only [Bool.and_eq_true, decide_eq_true_eq]

theorem entry_own (due : EntryDue s n) (free : s.world.dependsOn n = false) (own : dozeOnly n = true) (ends : e = .clear ∨ e = .aborted id) :
    EntryRefused s n e s.world.pwrRid 3 := by
  refine entryRefused_of due ((if_neg (ne_true_of_eq_false free)).trans ?_)
  rcases ends with rfl | rfl <;> exact if_pos own

theorem entry_aborts (due : EntryDue s n) (free : s.world.dependsOn n = false) (other : dozeOnly n = false) :
    Answers (.domainEntry n (.aborted id)) s fun t =>
      t.dev.dom n.val = { s.dev.dom n.val with aborted := satInc (s.dev.dom n.val).aborted, waits := false } ∧
      Detected s t 0x06D (w32 n.val) (w32 (id.toNat * 2 ^ 16)) s.dev.clock.tb ∧ Beside s t fun d => d := by
  have parts := due
  obtain ⟨-, -, awake, on, -⟩ := parts
  have detail : pwrDetail n 0 = w32 n.val := by
    unfold pwrDetail at_
    rw [Nat.zero_mul, Nat.add_zero]
  have by_ : entryBy n (.aborted id) s.world =
      (s.world.upd fun d => d.onDom n fun x => { x with aborted := satInc x.aborted, waits := false }).raise 0x06D (w32 n.val) (ridDetail id) := by
    rw [← detail]
    exact (if_neg (ne_true_of_eq_false free)).trans (if_neg (ne_true_of_eq_false other))
  exact ⟨_, entry_due due by_, dom_event awake on plain_aborted rfl⟩

/-- The domain enters its off-state (R460). -/
theorem domainDown_eq : ∃ x : W, s.world.domainDown k = x.upd (fun d =>
      let d := d.onDom k fun y => { y with st := x.offState k, padHold := y.padHold || decide (231 ≤ k), waits := false }
      if 208 ≤ k ∧ k < 224 then d.onHob (k - 208) fun h => { h with power := .ret55 } else d) ∧
    x.dev.power = s.dev.power ∧ x.dev.hobs = s.dev.hobs ∧ x.dev.lanes = s.dev.lanes ∧ x.dev.sys = s.dev.sys ∧ x.dev.flue = s.dev.flue ∧ x.ops = [] := by
  refine ⟨if k = 239 then s.world.latchPads else s.world, ?_, ?_⟩
  · unfold W.domainDown W.offState
    split
    · unfold W.latchPads
      split <;> rfl
    · rfl
  · split
    · unfold W.latchPads
      split <;> exact ⟨rfl, rfl, rfl, rfl, rfl, rfl⟩
    · exact ⟨rfl, rfl, rfl, rfl, rfl, rfl⟩

/-- The hob of a hearth follows its common domain (R460). -/
theorem hob_follows {d : Dev} {p : HobPower} {h : Nat} :
    (if 208 ≤ k ∧ k < 224 then d.onHob (k - 208) fun x => { x with power := p } else d).hob h =
      if k = 208 + h ∧ h < 16 then { d.hob h with power := p } else d.hob h := by
  split
  · next hearth =>
    rw [hob_onHob]
    by_cases own : h = k - 208
    · rw [if_pos own, if_pos (by omega), own]
    · rw [if_neg own, if_neg (by omega)]
  · next other => rw [if_neg (by omega)]

end Sys2Proof.Proofs
end

section
/-! The end of an entry, the wake of a domain, and the level changes (R460, R466, R467). -/

namespace Sys2Proof.Proofs

open Machine Laws

set_option Elab.async false

variable {s : State} {w v a b : W} {n : DomainId} {e : EntryEnd} {id : Rid} {cause : BitVec 3} {rail : Fin 3} {k j : Nat}

/-- A change of domain `k` and of the power of its hob, and nothing else of what the statement names. -/
structure DomainSet (s t : State) (k : Nat) (y : Domain) (p : HobPower) : Prop where
  others : ∀ j, j ≠ k → t.dev.dom j = s.dev.dom j
  mem : t.mem = s.mem
  sys : t.dev.sys = s.dev.sys
  flue : t.dev.flue = s.dev.flue
  hob : ∀ h, h < 16 → t.dev.hob h = if k = 208 + h then { s.dev.hob h with power := p } else s.dev.hob h
  own : t.dev.dom k = y

/-- The change of a domain with its hob. -/
def domSet (k : Nat) (f : Domain → Domain) (p : HobPower) (d : Dev) : Dev :=
  if 208 ≤ k ∧ k < 224 then (d.onDom k f).onHob (k - 208) fun h => { h with power := p } else d.onDom k f

theorem domSet_parts {d : Dev} {f : Domain → Domain} {p : HobPower} :
    (domSet k f p d).power = (d.onDom k f).power ∧ (domSet k f p d).sys = d.sys ∧ (domSet k f p d).flue = d.flue := by
  unfold domSet
  split <;> exact ⟨rfl, rfl, rfl⟩

theorem domainSet_of {x : W} {f : Domain → Domain} {p : HobPower} (power : x.dev.power = s.dev.power) (hobs : x.dev.hobs = s.dev.hobs)
    (sys : x.dev.sys = s.dev.sys) (flue : x.dev.flue = s.dev.flue) (ops : x.ops = []) :
    DomainSet s (stateOf s (x.upd (domSet k f p))) k (f (s.dev.dom k)) p := by
  obtain ⟨power', sys', flue'⟩ := domSet_parts (k := k) (d := x.dev) (f := f) (p := p)
  have dom (j : Nat) : (domSet k f p x.dev).dom j = if j = k then f (s.dev.dom k) else s.dev.dom j := by
    have same (i : Nat) : x.dev.dom i = s.dev.dom i := by rw [Dev.dom, Dev.dom, power]
    rw [show (domSet k f p x.dev).dom j = (x.dev.onDom k f).dom j from congrArg (fun q : Power => q.doms.getD j {}) power', dom_onDom, same, same]
  have hob (h : Nat) : (domSet k f p x.dev).hob h = if k = 208 + h ∧ h < 16 then { s.dev.hob h with power := p } else s.dev.hob h := by
    have same : (x.dev.onDom k f).hob h = s.dev.hob h := by
      show x.dev.hob h = _
      rw [Dev.hob, Dev.hob, hobs]
    unfold domSet
    rw [hob_follows, same]
  refine ⟨fun j ne => (dom j).trans (if_neg ne), ?_, sys'.trans sys, flue'.trans flue, fun h low => ?_, (dom k).trans (if_pos rfl)⟩
  · show s.mem.applyAll x.ops = s.mem
    rw [ops]
    rfl
  · refine (hob h).trans ?_
    by_cases own : k = 208 + h
    · rw [if_pos ⟨own, low⟩, if_pos own]
    · rw [if_neg fun both => own both.1, if_neg own]

/-! The end of an entry. -/

theorem entry_clears (due : EntryDue s n) (free : s.world.dependsOn n = false) (other : dozeOnly n = false) :
    Answers (.domainEntry n .clear) s fun t => DomainSet s t n.val { s.dev.dom n.val with
      st := if n.val < 208 then (if (s.dev.lane n.val).st = .active then .retain else .off) else if n.val < 230 then .retain else .off
      padHold := (s.dev.dom n.val).padHold || decide (231 ≤ n.val), waits := false } .ret55 := by
  have by_ : entryBy n .clear s.world = s.world.domainDown n := (if_neg (ne_true_of_eq_false free)).trans (if_neg (ne_true_of_eq_false other))
  obtain ⟨x, down, power, hobs, lanes, sys, flue, ops⟩ := domainDown_eq (s := s) (k := n.val)
  have off : x.offState n = if n.val < 208 then (if (s.dev.lane n.val).st = .active then .retain else .off)
      else if n.val < 230 then .retain else .off := by
    unfold W.offState
    rw [Dev.lane, lanes]
    rfl
  rw [off] at down
  refine ⟨_, entry_due due (by_.trans down), ?_⟩
  exact domainSet_of (f := fun y => { y with
      st := if n.val < 208 then (if (s.dev.lane n.val).st = .active then .retain else .off) else if n.val < 230 then .retain else .off
      padHold := y.padHold || decide (231 ≤ n.val), waits := false }) (p := .ret55) power hobs sys flue ops

/-! The wake of a domain. -/

theorem domainWake_row : exec (.domainWake n) s = .next (stateOf s (
    if 241 ≤ n.val ∨ s.dev.sys.mode = .off ∨ s.dev.sys.mode = .doze ∨ (n.val < 208 ∧ (s.dev.lane n.val).st = .failed) then s.world
    else if (s.dev.dom n.val).st = .on then s.world.upd fun d => d.onDom n fun x => { x with waits := false }
    else s.world.domainUp n)) := rfl

theorem wake_still (no : 241 ≤ n.val ∨ s.dev.sys.mode = .off ∨ s.dev.sys.mode = .doze ∨ n.val < 208 ∧ (s.dev.lane n.val).st = .failed) :
    Answers (.domainWake n) s (Only s · fun d => d) := ⟨_, domainWake_row.trans (next_of (if_pos no)), rfl⟩

/-- The wake of a domain that may wake. -/
theorem wake_done (low : n.val < 241) (on : s.dev.sys.mode ≠ .off) (awake : s.dev.sys.mode ≠ .doze)
    (good : ¬ (n.val < 208 ∧ (s.dev.lane n.val).st = .failed)) : Answers (.domainWake n) s fun t =>
      ((∀ j, j ≠ n.val → t.dev.dom j = s.dev.dom j) ∧ t.mem = s.mem ∧ t.dev.sys = s.dev.sys ∧ t.dev.flue = s.dev.flue) ∧
      ((s.dev.dom n.val).st = .on → t.dev.dom n.val = { s.dev.dom n.val with waits := false } ∧ ∀ h, t.dev.hob h = s.dev.hob h) ∧
      ((s.dev.dom n.val).st ≠ .on → (∀ h, h < 16 → t.dev.hob h = if n.val = 208 + h then { s.dev.hob h with power := .awake } else s.dev.hob h) ∧
        t.dev.dom n.val = { s.dev.dom n.val with st := .on, waits := false, padHold := (s.dev.dom n.val).padHold && decide (239 ≤ n.val) }) := by
  have go : ¬ (241 ≤ n.val ∨ s.dev.sys.mode = .off ∨ s.dev.sys.mode = .doze ∨ (n.val < 208 ∧ (s.dev.lane n.val).st = .failed)) := by
    rintro (high | off | doze | bad)
    · omega
    · exact on off
    · exact awake doze
    · exact good bad
  by_cases up : (s.dev.dom n.val).st = .on
  · refine ⟨_, domainWake_row.trans (next_of ((if_neg go).trans (if_pos up))), ⟨fun j ne => ?_, rfl, rfl, rfl⟩, fun _ => ⟨?_, fun _ => rfl⟩,
      fun down => absurd up down⟩
    · exact (dom_onDom _ _ _ _).trans (if_neg ne)
    · exact dom_onDom_self _ _ _
  · have set := domainSet_of (s := s) (x := s.world) (k := n.val) (p := .awake)
      (f := fun x => { x with st := .on, waits := false, padHold := x.padHold && decide (239 ≤ n.val) }) rfl rfl rfl rfl rfl
    have domains : s.world.domainUp n = s.world.upd
        (domSet n (fun x => { x with st := .on, waits := false, padHold := x.padHold && decide (239 ≤ n.val) }) .awake) := rfl
    refine ⟨_, domainWake_row.trans (next_of (((if_neg go).trans (if_neg up)).trans domains)), ⟨set.others, set.mem, set.sys, set.flue⟩,
      fun on => absurd on up, fun _ => ⟨set.hob, set.own⟩⟩

end Sys2Proof.Proofs
end

section
/-! The level changes, the supplies and the temperature, and the power controller as a whole (R465 to R469, R472; O43). -/

namespace Sys2Proof.Proofs

open Machine Laws

set_option Elab.async false

variable {s : State} {w v a b : W} {n : DomainId} {rail : Fin 3} {k j : Nat} {c : LevelChange}

/-! The end of commands leaves others pending. -/

theorem pendsOf_finish {q : Pend} {opc key status : Nat} {bs : List Byte} (other : q.opc.toNat ≠ opc) :
    (w.finish q status bs).pendsOf opc key = w.pendsOf opc key := by
  unfold W.pendsOf
  rw [pends_of_finish, List.filter_filter]
  refine List.filter_congr fun p _ => ?_
  by_cases own : p.opc.toNat = opc
  · have ne : (p != q) = true := bne_iff_ne.mpr fun same => other (same ▸ own)
    rw [ne, Bool.and_true]
  · have no : (p.opc.toNat == opc) = false := beq_eq_false_iff_ne.mpr own
    rw [no, Bool.and_false, Bool.false_and, Bool.false_and]

theorem pendsOf_finishAll {o opc key key' status : Nat} {bs : List Byte} (other : o ≠ opc) :
    (w.finishAll o key status bs).pendsOf opc key' = w.pendsOf opc key' := by
  have each_ (l : List Pend) (all_ : ∀ q ∈ l, q.opc.toNat ≠ opc) (v : W) :
      (v.each l fun p w => w.finish p status bs).pendsOf opc key' = v.pendsOf opc key' := by
    induction l generalizing v with
    | nil => rfl
    | cons q l ih =>
      exact (ih (fun p mem => all_ p (List.mem_cons_of_mem _ mem)) _).trans (pendsOf_finish (all_ q List.mem_cons_self))
  refine each_ _ (fun q mem => ?_) w
  have opc' := (List.mem_filter.mp mem).2
  simp only [Bool.and_eq_true, beq_iff_eq] at opc'
  rw [opc'.1.2]
  exact other

/-! A source that ends, and a level change that ends, as changes of a few parts of the device. -/

/-- The Flue and the answers after a source has ended. -/
def besideFlue (w : W) (f : Flue) (x : Stoker) (y : Ports) : W := besideReplies (w.upd fun d => { d with flue := f }) x y

theorem errAuto_shape : ∃ (f : Flue) (x : Stoker) (y : Ports), w.errAuto = besideFlue w f x y ∧ f.srcs = w.dev.flue.srcs := by
  unfold W.errAuto
  dsimp only
  split
  · obtain ⟨x, y, shape⟩ := replied_finishAll (w := w.upd fun d => { d with flue := { d.flue with errPin := false, errRel := false } })
      (opc := 0x0704) (key := 0) (status := sDone) (bs := le 4 1)
    exact ⟨_, x, y, shape, rfl⟩
  · exact ⟨w.dev.flue, w.dev.stoker, w.dev.ports, rfl, rfl⟩

theorem pendsOf_errAuto {opc key : Nat} (other : 0x0704 ≠ opc) : w.errAuto.pendsOf opc key = w.pendsOf opc key := by
  unfold W.errAuto
  dsimp only
  split
  · exact pendsOf_finishAll other
  · rfl

theorem inactive_shape : ∃ (f : Flue) (x : Stoker) (y : Ports), w.inactive k = besideFlue w f x y ∧
    ∀ j, j ≠ k → f.srcs.getD j {} = w.dev.src j := by
  obtain ⟨f, x, y, shape, srcs⟩ := errAuto_shape (w := w.upd fun d => d.onSrc k fun x => { x with active := false })
  refine ⟨f, x, y, shape, fun j ne => ?_⟩
  rw [srcs]
  exact src_onSrc_ne _ _ _ _ ne

/-- AVS_FAIL ends for a rail: the shape of the world, and the commands that pend. -/
theorem avsClear_shape : ∃ (f : Flue) (x : Stoker) (y : Ports),
    w.avsClear k = besideFlue (w.upd fun d => { d with power := { d.power with avsFault := setBit d.power.avsFault k false } }) f x y ∧
    (∀ j, j ≠ 0x06B → f.srcs.getD j {} = w.dev.src j) ∧ ∀ key, (w.avsClear k).pendsOf 0x0902 key = w.pendsOf 0x0902 key := by
  unfold W.avsClear
  dsimp only
  split
  · obtain ⟨f, x, y, shape, srcs⟩ := inactive_shape
      (w := w.upd fun d => { d with power := { d.power with avsFault := setBit d.power.avsFault k false } }) (k := 0x06B)
    exact ⟨f, x, y, shape, srcs, fun key => pendsOf_errAuto (by decide)⟩
  · exact ⟨w.dev.flue, w.dev.stoker, w.dev.ports, rfl, fun _ _ => rfl, fun _ => rfl⟩

/-- The power controller after a change of rail `r` has ended at level `l`. -/
def changeEnded (p : Power) (r l : Nat) : Power := ({ p with changes := p.changes.erase r }).setLevel r l

theorem endLevel_shape {r l status : Nat} : ∃ (x : Stoker) (y : Ports),
    w.endLevel r l status = besideReplies (w.upd fun d => { d with power := changeEnded d.power r l }) x y := replied_finishAll

theorem setLevel_parts {p : Power} {r l : Nat} : (p.setLevel r l).level r = l ∧ (p.setLevel r l).changes = p.changes ∧
    (p.setLevel r l).avsFault = p.avsFault ∧ (p.setLevel r l).vca = p.vca := by
  unfold Power.level Power.setLevel
  refine ⟨?_, rfl, rfl, rfl⟩
  dsimp only
  by_cases first : r = 0
  · rw [if_pos first, if_pos first]
  · by_cases second : r = 1
    · rw [if_neg first, if_neg first, if_pos second, if_pos second]
    · rw [if_neg first, if_neg first, if_neg second, if_neg second]

/-- The change of a rail is gone, at level `l`. -/
def LevelGone (t : State) (rail : Fin 3) (l : Nat) : Prop := t.dev.power.changes.get? rail = none ∧ t.dev.power.level rail = l

theorem levelGone_of {t : State} {p : Power} {l : Nat} {vca : Word32} (power : t.dev.power = { changeEnded p rail l with vca := vca }) :
    LevelGone t rail l ∧ t.dev.power.avsFault = p.avsFault ∧ t.dev.power.vca = vca := by
  obtain ⟨level, changes, fault, -⟩ := setLevel_parts (p := { p with changes := p.changes.erase rail }) (r := rail.val) (l := l)
  have gone : (changeEnded p rail l).changes.get? rail = none := by rw [changeEnded, changes, get?_erase, if_pos rfl]
  exact ⟨⟨(congrArg (fun q => q.changes.get? rail) power).trans gone, (congrArg (fun q => q.level rail) power).trans level⟩,
    (congrArg Power.avsFault power).trans fault, congrArg Power.vca power⟩

/-- The telemetry word that a reading at free value `k` leaves (R466). -/
def vcaWord (k : Nat) : Word32 := w32 ((Config.freeWord k).toNat % 2 ^ 32)

theorem readVca_eq : W.readVca w = w.upd fun d => { d with free := d.free + 1, power := { d.power with vca := vcaWord w.dev.free } } := rfl

end Sys2Proof.Proofs
end

section
/-! The level changes, the supplies, the temperature, and the power controller as a whole (R458 to R469, R472; O43). -/

namespace Sys2Proof.Proofs

open Machine Laws

set_option Elab.async false

variable {s : State} {w v a b : W} {n : DomainId} {rail : Fin 3} {k j : Nat} {c : LevelChange}

/-- What AVS_VDONE does with the change of a rail. -/
def vdoneBy (rail : Fin 3) (w : W) (c : LevelChange) : W :=
  if c.back then (w.avsClear rail).levelFailed rail c.start
  else if c.wrote = c.target then (w.avsClear rail).endLevel rail c.target sDone
  else w.upd fun d =>
    let p := { d.power with changes := d.power.changes.set rail { c with start := c.wrote, wrote := stepTo c.wrote c.target } }
    { d with power := if c.target < c.wrote then p.setLevel rail c.wrote else p }

/-- What AVS_ACK_TIMEOUT does with the change of a rail. -/
def ackBy (rail : Fin 3) (w : W) (c : LevelChange) : W :=
  if c.back then w.levelFailed rail c.start
  else (w.upd fun d => { d with power := { d.power with
    changes := d.power.changes.set rail { c with back := true }, avsFault := setBit d.power.avsFault rail true } }).level 0x06B
      (w32 (rail.val + at_ (avsValue c.wrote) 4)) 0

theorem vdone_row : exec (.avsVdone rail) s =
    .next (stateOf s (W.readVca ((s.dev.power.changes.get? rail).elim s.world (vdoneBy rail s.world)))) := by
  have row : exec (.avsVdone rail) s = .next (stateOf s (W.readVca (match s.dev.power.changes.get? rail with
    | none => s.world
    | some c => vdoneBy rail s.world c))) := rfl
  rw [row]
  cases s.dev.power.changes.get? rail <;> rfl

theorem ack_row : exec (.avsAckTimeout rail) s = .next (stateOf s ((s.dev.power.changes.get? rail).elim s.world (ackBy rail s.world))) := by
  have row : exec (.avsAckTimeout rail) s = .next (stateOf s (match s.dev.power.changes.get? rail with
    | none => s.world
    | some c => ackBy rail s.world c)) := rfl
  rw [row]
  cases s.dev.power.changes.get? rail <;> rfl

theorem vdone_runs (found : s.dev.power.changes.get? rail = some c) (same : vdoneBy rail s.world c = v) :
    exec (.avsVdone rail) s = .next (stateOf s (W.readVca v)) := by
  rw [vdone_row, found, Option.elim_some, same]

theorem ack_runs (found : s.dev.power.changes.get? rail = some c) (same : ackBy rail s.world c = v) :
    exec (.avsAckTimeout rail) s = .next (stateOf s v) := by
  rw [ack_row, found, Option.elim_some, same]

theorem avs_idle (idle : s.dev.power.changes.get? rail = none) : Answers (.avsAckTimeout rail) s (Only s · fun d => d) ∧
    Answers (.avsVdone rail) s (Only s · fun d => { d with free := d.free + 1, power := { d.power with vca := vcaWord d.free } }) := by
  constructor
  · have same : (s.dev.power.changes.get? rail).elim s.world (ackBy rail s.world) = s.world := by rw [idle, Option.elim_none]
    exact ⟨_, ack_row.trans (next_of same), rfl⟩
  · have same : (s.dev.power.changes.get? rail).elim s.world (vdoneBy rail s.world) = s.world := by rw [idle, Option.elim_none]
    exact ⟨_, vdone_row.trans (next_of (congrArg W.readVca same)), rfl⟩

theorem stepTo_of (ne : j ≠ k) : stepTo j k = if j < k then j + 1 else j - 1 := by
  unfold stepTo
  split
  · rfl
  · exact if_pos (by omega)

/-- The next step of a level change (R467). -/
theorem avs_steps (found : s.dev.power.changes.get? rail = some c) (forth : c.back = false) (on : c.wrote ≠ c.target) :
    Answers (.avsVdone rail) s fun t =>
      t.dev.power.changes.get? rail = some { c with start := c.wrote, wrote := if c.wrote < c.target then c.wrote + 1 else c.wrote - 1 } ∧
      t.dev.power.level rail = (if c.target < c.wrote then c.wrote else s.dev.power.level rail) ∧
      t.dev = { s.dev with out := .none, free := s.dev.free + 1, power := { s.dev.power with
        changes := t.dev.power.changes, levels := t.dev.power.levels, vca := vcaWord s.dev.free } } := by
  refine ⟨_, vdone_runs found ((if_neg (ne_true_of_eq_false forth)).trans (if_neg on)), ?_⟩
  rw [← stepTo_of on, readVca_eq]
  by_cases lower : c.target < c.wrote
  · dsimp only [W.upd, stateOf]
    rw [if_pos lower, if_pos lower]
    exact ⟨get_set_self _ _ _, (setLevel_parts (p := s.dev.power)).1, rfl⟩
  · dsimp only [W.upd, stateOf]
    rw [if_neg lower, if_neg lower]
    exact ⟨get_set_self _ _ _, rfl, rfl⟩

/-- A change that ends well, or back at its start, after AVS_FAIL has been cleared. -/
theorem bitAt_fault {p : Power} : bitAt (setBit p.avsFault rail.val false) rail.val = false := bitAt_setBit (by have := rail.isLt; omega)

theorem avs_ends (found : s.dev.power.changes.get? rail = some c) (forth : c.back = false) (done : c.wrote = c.target) :
    Answers (.avsVdone rail) s fun t => LevelGone t rail c.target ∧ bitAt t.dev.power.avsFault rail = false ∧ t.dev.power.vca = vcaWord s.dev.free ∧
      Leaves s t fun w => W.readVca ((w.avsClear rail).endLevel rail c.target sDone) := by
  refine ⟨_, vdone_runs found ((if_neg (ne_true_of_eq_false forth)).trans (if_pos done)), ?_⟩
  obtain ⟨f, x, y, cleared, -⟩ := avsClear_shape (w := s.world) (k := rail.val)
  obtain ⟨x', y', ended⟩ := endLevel_shape (w := s.world.avsClear rail) (r := rail.val) (l := c.target) (status := sDone)
  have power : (stateOf s (W.readVca ((s.world.avsClear rail).endLevel rail c.target sDone))).dev.power =
      { changeEnded { s.dev.power with avsFault := setBit s.dev.power.avsFault rail false } rail c.target with vca := vcaWord s.dev.free } := by
    rw [ended, cleared]
    rfl
  obtain ⟨gone, fault, vca⟩ := levelGone_of power
  exact ⟨gone, (congrArg (bitAt · rail.val) fault).trans bitAt_fault, vca, rfl⟩

theorem plain_internal : Plain 0x055 := by
  unfold Plain Noted
  decide

theorem kept_internal : Kept w w.internal := kept_raise w 0x055 0 0 false []

/-- An event leaves the power controller but for its domains and levels. -/
theorem power_kept (kept : Kept w v) : ∃ doms levels, v.dev.power = { w.dev.power with doms := doms, levels := levels } :=
  ⟨v.dev.power.doms, v.dev.power.levels, congrArg (fun d : Dev => { d.power with doms := v.dev.power.doms, levels := v.dev.power.levels })
    (untouched_kept kept)⟩

theorem free_kept (kept : Kept w v) : v.dev.free = w.dev.free := (congrArg Dev.free (untouched_kept kept) :)

theorem ended_parts {l status : Nat} : (v.endLevel k l status).dev.power = changeEnded v.dev.power k l ∧
    (v.endLevel k l status).dev.free = v.dev.free ∧ ∀ i, (v.endLevel k l status).dev.src i = v.dev.src i := by
  obtain ⟨x, y, ended⟩ := endLevel_shape (w := v) (r := k) (l := l) (status := status)
  rw [ended]
  exact ⟨rfl, rfl, fun _ => rfl⟩

/-- A change that fails ends at `l`; the command that waits for it makes it an internal fault. -/
theorem levelFailed_parts {l : Nat} : ∃ doms levels,
    (w.levelFailed rail l).dev.power = changeEnded { w.dev.power with doms := doms, levels := levels } rail l ∧
    (w.levelFailed rail l).dev.free = w.dev.free ∧
    (w.pendsOf 0x0902 rail ≠ [] → ∀ i, (w.levelFailed rail l).dev.src i = w.internal.dev.src i) := by
  unfold W.levelFailed
  by_cases idle : w.pendsOf 0x0902 rail = []
  · obtain ⟨power, free, -⟩ := ended_parts (v := w) (k := rail.val) (l := l) (status := sInternalFault)
    rw [if_pos (List.isEmpty_iff.mpr idle)]
    exact ⟨w.dev.power.doms, w.dev.power.levels, power, free, fun no => absurd idle no⟩
  · rw [if_neg fun h => idle (List.isEmpty_iff.mp h)]
    have kept := kept_internal (w := w)
    generalize w.internal = v at kept ⊢
    obtain ⟨power, free, srcs⟩ := ended_parts (v := v) (k := rail.val) (l := l) (status := sInternalFault)
    obtain ⟨doms, levels, before⟩ := power_kept kept
    exact ⟨doms, levels, power.trans (congrArg (changeEnded · rail.val l) before), free.trans (free_kept kept), fun _ => srcs⟩

theorem avs_fails (found : s.dev.power.changes.get? rail = some c) (back : c.back = true) :
    Answers (.avsAckTimeout rail) s fun t => LevelGone t rail c.start ∧ t.dev.power.avsFault = s.dev.power.avsFault ∧
      (s.world.pendsOf 0x0902 rail ≠ [] → Detected s t 0x055 0 0 s.dev.clock.tb) := by
  refine ⟨_, ack_runs found (if_pos back), ?_⟩
  obtain ⟨doms, levels, power, -, srcs⟩ := levelFailed_parts (w := s.world) (rail := rail) (l := c.start)
  obtain ⟨gone, fault, -⟩ := levelGone_of (t := stateOf s (s.world.levelFailed rail c.start)) (vca := (s.world.levelFailed rail c.start).dev.power.vca)
    (power.trans (by rw [power]))
  refine ⟨gone, fault, fun waits => ?_⟩
  have there : (s.world.source 0x055).isSome = true := rfl
  exact detected_congr (t := stateOf s s.world.internal) (srcs waits 0x055) (detected_raise quiescent_world plain_internal there)

/-- Where AVS_FAIL has been cleared for a rail, an internal fault is detected as from the state itself. -/
theorem cleared_detects : Detected s (stateOf s (s.world.avsClear k).internal) 0x055 0 0 s.dev.clock.tb := by
  obtain ⟨f, x, y, cleared, others, -⟩ := avsClear_shape (w := s.world) (k := k)
  have there : (s.world.source 0x055).isSome = true := rfl
  rw [cleared]
  exact detected_of (source_congr rfl rfl _) (srcCfg_congr rfl rfl rfl) rfl (others 0x055 (by decide)) rfl plain_internal there

theorem cleared_power : (s.world.avsClear k).dev.power = { s.dev.power with avsFault := setBit s.dev.power.avsFault k false } ∧
    (s.world.avsClear k).dev.free = s.dev.free := by
  obtain ⟨f, x, y, cleared, -⟩ := avsClear_shape (w := s.world) (k := k)
  rw [cleared]
  exact ⟨rfl, rfl⟩

/-- The reading of VCA after a level change has ended. -/
theorem readVca_parts {p : Power} {l : Nat} (power : v.dev.power = changeEnded p rail l) (free : v.dev.free = s.dev.free) :
    LevelGone (stateOf s v.readVca) rail l ∧ (stateOf s v.readVca).dev.power.avsFault = p.avsFault ∧
      (stateOf s v.readVca).dev.power.vca = vcaWord s.dev.free := by
  refine levelGone_of ?_
  rw [readVca_eq, free, stateOf_dev]
  exact congrArg (fun p : Power => { p with vca := vcaWord s.dev.free }) power

theorem avs_back (found : s.dev.power.changes.get? rail = some c) (back : c.back = true) :
    Answers (.avsVdone rail) s fun t => LevelGone t rail c.start ∧ bitAt t.dev.power.avsFault rail = false ∧ t.dev.power.vca = vcaWord s.dev.free ∧
      (s.world.pendsOf 0x0902 rail ≠ [] → Detected s t 0x055 0 0 s.dev.clock.tb) := by
  refine ⟨_, vdone_runs found (if_pos back), ?_⟩
  obtain ⟨f, x, y, -, -, same⟩ := avsClear_shape (w := s.world) (k := rail.val)
  obtain ⟨doms, levels, power, free, srcs⟩ := levelFailed_parts (w := s.world.avsClear rail) (rail := rail) (l := c.start)
  obtain ⟨fault', free'⟩ := cleared_power (s := s) (k := rail.val)
  have calm := cleared_detects (s := s) (k := rail.val)
  rw [← same rail.val]
  generalize s.world.avsClear rail.val = x at power free srcs fault' free' calm ⊢
  obtain ⟨gone, fault, vca⟩ := readVca_parts power (free.trans free')
  generalize x.levelFailed rail.val c.start = y at srcs gone fault vca ⊢
  exact ⟨gone, (congrArg (bitAt · rail.val) (fault.trans (congrArg Power.avsFault fault' :))).trans bitAt_fault, vca,
    fun waits => detected_congr (t := stateOf s x.internal) (srcs waits 0x055) calm⟩

theorem plain_power (low : 0x60 ≤ k) (high : k ≤ 0x6E) : Plain k := by
  unfold Plain Noted
  omega

/-- The first timeout of a step: AVS_FAIL is active, and the start is written once more (R467). -/
theorem avs_turns (found : s.dev.power.changes.get? rail = some c) (forth : c.back = false) : Answers (.avsAckTimeout rail) s fun t =>
    LevelDetected s t 0x06B (w32 (rail.val + (550 + 50 * c.wrote) * 2 ^ 4)) 0 s.dev.clock.tb ∧
    Beside s t fun d => { d with power := { d.power with
      changes := d.power.changes.set rail { c with back := true }, avsFault := setBit d.power.avsFault rail true } } := by
  refine ⟨_, ack_runs found (if_neg (ne_true_of_eq_false forth)), ?_⟩
  exact level_after quiescent_world.upd (plain_power (by decide) (by decide)) rfl rfl rfl

theorem supply_judged {r : Fin 11} {mv : Word32} (on : s.dev.sys.mode ≠ .off) : Answers (.supplyExcursion r mv) s fun t =>
    LevelDetected s t (0x60 + r.val) mv 0 s.dev.clock.tb ∧ Beside s t fun d => d := by
  have row : exec (.supplyExcursion r mv) s = .next (stateOf s (if s.dev.sys.mode = .off then s.world else s.world.level (0x60 + r.val) mv 0)) := rfl
  have there : (s.world.source (0x60 + r.val)).isSome = true := by
    obtain ⟨i, low⟩ := r
    interval_cases i <;> rfl
  have low := r.isLt
  exact ⟨_, row.trans (next_of (if_neg on)), level_alone (plain_power (by omega) (by omega)) there⟩

variable {sensor : Fin 17} {deg : BitVec 8}

/-- The power controller with a new reading of a sensor. -/
def tjRead (sensor : Fin 17) (deg : BitVec 8) (p : Power) : Power := { p with tj := p.tj.set sensor deg }

/-- What a reading does at a device with power. -/
def tjBy (w : W) : W :=
  if 110 < w.dev.power.hottest.2.toInt then w.level 0x06E w.dev.power.tjWord 0
  else if w.active 0x06E then w.inactive 0x06E else w

theorem tj_row : exec (.tjReading sensor deg) s = .next (stateOf s (if s.dev.sys.mode = .off then s.world
    else tjBy (s.world.upd fun d => { d with power := tjRead sensor deg d.power }))) := rfl

theorem tj_over (on : s.dev.sys.mode ≠ .off) (hot : 110 < (tjRead sensor deg s.dev.power).hottest.2.toInt) :
    Answers (.tjReading sensor deg) s fun t =>
      LevelDetected s t 0x06E (tjRead sensor deg s.dev.power).tjWord 0 s.dev.clock.tb ∧
      Beside s t fun d => { d with power := tjRead sensor deg s.dev.power } := by
  refine ⟨_, tj_row.trans (next_of ((if_neg on).trans (if_pos hot))), ?_⟩
  exact level_after quiescent_world.upd (plain_power (by decide) (by decide)) rfl rfl rfl

theorem tj_under (on : s.dev.sys.mode ≠ .off) (cool : (tjRead sensor deg s.dev.power).hottest.2.toInt ≤ 110) :
    Answers (.tjReading sensor deg) s fun t =>
      (t.dev.src 0x06E).active = false ∧ (∀ j, j ≠ 0x06E → t.dev.src j = s.dev.src j) ∧
      t.dev.power = tjRead sensor deg s.dev.power ∧ t.mem = s.mem := by
  have low : ¬ 110 < (s.world.upd fun d => { d with power := tjRead sensor deg d.power }).dev.power.hottest.2.toInt := not_lt.mpr cool
  by_cases active : s.world.active 0x06E = true
  · refine ⟨_, tj_row.trans (next_of ((if_neg on).trans ((if_neg low).trans (if_pos active)))), ?_⟩
    obtain ⟨ended, mem, others⟩ := inactive_ended (s := s) (k := 0x06E)
      (w := s.world.upd fun d => { d with power := tjRead sensor deg d.power }) rfl rfl
    obtain ⟨f, x, y, shape, -⟩ := inactive_shape (w := s.world.upd fun d => { d with power := tjRead sensor deg d.power }) (k := 0x06E)
    refine ⟨ended, others, ?_, mem⟩
    rw [shape]
    rfl
  · exact ⟨_, tj_row.trans (next_of ((if_neg on).trans ((if_neg low).trans (if_neg active)))), eq_false_of_ne_true active, fun _ _ => rfl, rfl, rfl⟩

end Sys2Proof.Proofs
end

section
/-! The power controller as a whole (R458 to R469, R472; O43). -/

namespace Sys2Proof.Proofs

open Machine Laws

set_option Elab.async false

variable {s : State}

/-- Settles O43: an entry ends by what stands against it, a wake and a level change by the domain's and the rail's state, and
supplies and temperature are level sources. -/
theorem powerSequences : Obligations.PowerSequences := by
  intro s n e id rail r11 mv sensor deg d w k x m still hob others may own leans refused
  have due (h : may) : EntryDue s n := h
  have depends : s.world.dependsOn n = true ↔ leans := dependsOn_iff
  have free (no : ¬ leans) : s.world.dependsOn n = false := eq_false_of_ne_true fun h => no (depends.mp h)
  have other (no : ¬ own) : dozeOnly n = false := eq_false_of_ne_true fun h => no (dozeOnly_iff.mp h)
  refine ⟨fun no => entry_still no, fun h lean => entry_leans (due h) (depends.mpr lean), ?_, fun h no is ends =>
    entry_own (due h) (free no) (dozeOnly_iff.mpr is) ends, ?_, ?_, wake_still, wake_done, avs_idle, fun c found => ⟨avs_steps found,
    avs_ends found, avs_back found, avs_fails found, avs_turns found⟩, ?_, supply_judged, ?_, tj_over, tj_under⟩
  · rintro h no rfl
    exact entry_busy (due h) (free no)
  · rintro h no not rfl
    obtain ⟨t, runs, set⟩ := entry_clears (due h) (free no) (other not)
    exact ⟨t, runs, ⟨set.others, set.mem, set.sys, set.flue⟩, set.hob, set.own⟩
  · rintro h no not rfl
    exact entry_aborts (due h) (free no) (other not)
  · intro off
    have row : exec (.supplyExcursion r11 mv) s = .next (stateOf s (if s.dev.sys.mode = .off then s.world else s.world.level (0x60 + r11.val) mv 0)) := rfl
    exact ⟨_, row.trans (next_of (if_pos off)), rfl⟩
  · exact fun off => ⟨_, tj_row.trans (next_of (if_pos off)), rfl⟩

end Sys2Proof.Proofs
end

section
/-! A slot of a bellows: what its run leaves of the entry that it took and of the count of slots (R213, R221, R222). -/

namespace Sys2Proof.Proofs

open Machine Laws

set_option Elab.async false

variable {w v : W} {h u n k : Nat}

/-- The address of the count of slots (R245). -/
def slotKey (h : Nat) : Nat := blockBase 16 h + 0x324

/-- What a run leaves of the bellows: the entries to come, the phase and the context. -/
def turnPart (b : Bellows) : List Word32 × BlwPhase × Nat := (b.todo, b.phase, b.ctx)

/-- What the run of a slot at the bellows of hearth `h` leaves. -/
structure Turns (h : Nat) (a w : W) : Prop where
  turn : turnPart (w.dev.blw h) = turnPart (a.dev.blw h)
  value : w.dev.regs.val.get? (slotKey h) = a.dev.regs.val.get? (slotKey h)
  row : ∀ o, w.regRow 16 o = a.regRow 16 o
  fuse : w.fuse = a.fuse

theorem Turns.refl : Turns h w w := ⟨rfl, rfl, fun _ => rfl, rfl⟩

theorem Turns.trans {a b c : W} (x : Turns h a b) (y : Turns h b c) : Turns h a c :=
  ⟨y.turn.trans x.turn, y.value.trans x.value, fun o => (y.row o).trans (x.row o), y.fuse.trans x.fuse⟩

theorem Turns.ite {a b c : W} {p : Prop} [Decidable p] (x : Turns h a b) (y : Turns h a c) : Turns h a (if p then b else c) := by
  split <;> assumption

theorem Turns.iteSnd {α : Type} {a : W} {x y : α × W} {p : Prop} [Decidable p] (hx : Turns h a x.2) (hy : Turns h a y.2) :
    Turns h a (if p then x else y).2 := by
  split <;> assumption

theorem Turns.pair {α : Type} {a : W} {x : α} (y : Turns h a w) : Turns h a (x, w).2 := y

theorem Turns.snd {α : Type} {a b : W} {x : α} {p : α × W} (y : Turns h a p.2) (e : p = (x, b)) : Turns h a b := by
  rw [e] at y
  exact y

theorem Turns.each {α : Type} {a : W} {xs : List α} {f : α → W → W} (x : Turns h a w) (y : ∀ x v, Turns h v (f x v)) :
    Turns h a (w.each xs f) := by
  induction xs generalizing w with
  | nil => exact x
  | cons z xs ih => exact ih (x.trans (y z w))

theorem Turns.foldl {α : Type} {a : W} {xs : List α} {f : W → α → W} (x : Turns h a w) (y : ∀ v x, Turns h v (f v x)) :
    Turns h a (xs.foldl f w) := by
  induction xs generalizing w with
  | nil => exact x
  | cons z xs ih => exact ih (x.trans (y w z))

/-- A change beside the bellows and the registers. -/
theorem Turns.upd {a : W} {f : Dev → Dev} (x : Turns h a w)
    (same : ∀ d, (f d).bellows = d.bellows ∧ (f d).regs = d.regs ∧ (f d).chim = d.chim := by exact fun _ => ⟨rfl, rfl, rfl⟩) :
    Turns h a (w.upd f) := by
  obtain ⟨bellows, regs, chim⟩ := same w.dev
  refine x.trans ⟨?_, ?_, regRow_congr (w := w) (w' := w.upd f) rfl chim _, rfl⟩
  · rw [upd_dev, Dev.blw, Dev.blw, bellows]
  · rw [upd_dev, regs]

/-- A change of the bellows that leaves the turn. -/
theorem Turns.blw {a : W} {f : Bellows → Bellows} (x : Turns h a w) (same : ∀ b, turnPart (f b) = turnPart b := by exact fun _ => rfl) :
    Turns h a (w.upd fun d => d.onBlw h f) := by
  refine x.trans ⟨?_, rfl, fun o => regRow_congr (w := w) (w' := w.upd fun d => d.onBlw h f) rfl rfl 16 o, rfl⟩
  rw [upd_dev, blw_onBlw_self]
  exact same _

/-- Another register is written. -/
theorem Turns.setReg {a : W} {t i o : Nat} {x : Word32} (y : Turns h a w) (ne : slotKey h ≠ blockBase t i + o) :
    Turns h a (w.setReg t i o x) := y.trans ⟨rfl, Laws.get_set_ne _ _ _ _ ne, fun n => regRow_congr (w := w) (w' := w.setReg t i o x) rfl rfl 16 n, rfl⟩

theorem Turns.countReg {a : W} {t i o k : Nat} (y : Turns h a w) (ne : slotKey h ≠ blockBase t i + o) : Turns h a (w.countReg t i o k) :=
  y.setReg ne

theorem slotKey_ge : 0x20100324 ≤ slotKey h := by simp [slotKey, blockBase]

/-- A register of a bellows beside the count of slots. -/
theorem slotKey_ne_row {i o : Nat} (low : o < 0x10000) (ne : o ≠ 0x324) : slotKey h ≠ blockBase 16 i + o := by
  simp only [slotKey, blockBase]
  norm_num
  omega

theorem slotKey_plain : errReg (slotKey h) = false := by
  rw [errReg, Bool.or_eq_false_iff, List.any_eq_false, List.any_eq_false]
  have high := slotKey_ge (h := h)
  refine ⟨fun u _ => ?_, fun o mem => ?_⟩
  · rw [Bool.not_eq_true, List.any_eq_false]
    intro o mem
    simp only [List.mem_cons, List.not_mem_nil, or_false] at mem
    rw [beq_iff_eq]
    split
    · exact slotKey_ne_row (by omega) (by omega)
    · rw [show blockBase 1 0 = 0x20000000 from rfl]
      omega
  · simp only [List.mem_cons, List.not_mem_nil, or_false] at mem
    rw [beq_iff_eq, blockBase_eight]
    omega

theorem regRow_kept {t o : Nat} (kept : Kept w v) : v.regRow t o = w.regRow t o := by
  obtain ⟨dev, -⟩ := id kept
  unfold W.regRow
  dsimp only
  rw [source_kept kept, show v.dev.chim.pos = w.dev.chim.pos from congrArg (fun d => d.chim.pos) dev]

/-- What an event leaves. -/
theorem Turns.event {a b : W} (x : Turns h a w) (kept : Kept w b) (placed : Placed w b) : Turns h a b := by
  refine x.trans ⟨(congrArg turnPart (placed.blws h) :), ?_, fun _ => regRow_kept kept, kept.2⟩
  obtain ⟨dev, -⟩ := kept
  have same : b.dev.regs.val.keep (fun a => !errReg a) = w.dev.regs.val.keep fun a => !errReg a := congrArg (fun d => d.regs.val) dev
  have ok : (fun a => !errReg a) (slotKey h) = true := by
    show (!errReg _) = true
    rw [slotKey_plain]
    rfl
  exact (get?_keep (p := fun a => !errReg a) ok).symm.trans ((congrArg (fun t : Tbl Word32 => t.get? _) same).trans
    (get?_keep (p := fun a => !errReg a) ok))

theorem Turns.raise {a : W} {d0 d1 : Word32} {test : Bool} {grp : List Nat} (x : Turns h a w) : Turns h a (w.raise n d0 d1 test grp) :=
  x.event (kept_raise _ _ _ _ _ _) (contained_raise (t := True) (.inl trivial)).placed

theorem Turns.finishAll {a : W} {o key st : Nat} {r : List Byte} (x : Turns h a w) : Turns h a (w.finishAll o key st r) :=
  x.event (steady_finishAll _ _ _ _ _).kept placed_finishAll

theorem Turns.interrupt {a : W} {c : Nat} (x : Turns h a w) : Turns h a (w.interrupt c n) :=
  x.event (steady_interrupt _ _ _).kept (contained_interrupt _ _ _).placed

theorem Turns.selectGroup {a : W} {g : Nat} (x : Turns h a w) : Turns h a (w.selectGroup n k g) :=
  x.event (steady_selectGroup _ _ _ _).kept (contained_selectGroup (t := True) _ _ _ _).placed

/-! The accesses of the bellows to its hob (R213, R222). -/

theorem turns_setHobReg {o : Nat} {x : Word32} (low : o < 0x300) : Turns h w (w.setHobReg u o x) := by
  have high := slotKey_ge (h := h)
  refine .ite (Turns.refl.setReg (slotKey_ne_row (by omega) (by omega))) (Turns.refl.setReg ?_)
  rw [show blockBase 1 0 = 0x20000000 from rfl]
  omega

theorem turns_hobLog {a : Nat} {m : Bool} {c : ByteCode} : Turns h w (w.hobLog u a m c).2 := by
  have counted {b : Bool} {e : Word32} : Turns h w (w.hobCount u b e) := by
    have low : (if b then 0x210 else 0x20C) < 0x300 := by split <;> omega
    exact (((turns_setHobReg low).trans (turns_setHobReg (by omega))).trans (turns_setHobReg (by omega))).trans (turns_setHobReg (by omega))
  cases c with
  | good b => exact .refl
  | fixed b k => exact counted.upd (f := fun d => d.onHob u fun y =>
      if m ∨ y.wbq.length ≥ 4 ∨ y.wbq.contains (a - hobBase u) then y else { y with wbq := y.wbq ++ [a - hobBase u] })
  | bad b k => exact counted

theorem turns_hobScan {word : Nat} {m : Bool} : Turns h w (w.hobScan u word m) := by
  refine .ite .refl (.each .refl fun _ _ => .ite ?_ .refl)
  unfold W.hobError
  split
  · next e => exact .raise (turns_hobLog.snd e)
  · next e => exact turns_hobLog.snd e

theorem turns_awake {m : Nat} : Turns h w ((w.wakeHob u).granted u m) := .upd (.ite .refl (.upd .refl))

theorem turns_hobRead {m : Rid} {a : Nat} : Turns h w (w.hobRead m u a n).2 := by
  have noted {v : W} {b : Bool} : Turns h v (v.eccNote m b) := by
    unfold W.eccNote
    split
    · exact .ite (.interrupt .refl) .refl
    · exact .refl
  have scanned {f : Nat → Nat} {l : List Nat} {b : Bool} {v : W} : Turns h v ((v.each l fun i w => w.hobScan u (f i) false).eccNote m b) :=
    (Turns.each .refl fun _ _ => turns_hobScan).trans noted
  exact turns_awake.trans (.iteSnd .refl (.iteSnd scanned scanned))

theorem turns_put {a : Nat} {bs : List Byte} : Turns h w (w.put a bs) := .event .refl (steady_put _ _ _).kept placed_put

theorem turns_hobWriteParts {m : Nat} {ps : List (Nat × List Byte)} : Turns h w (w.hobWriteParts u m ps) := by
  have injected {v : W} {xs : List Nat} : Turns h v (v.hobInjected u m xs) := .event .refl (steady_hobInjected _ _ _ _).kept placed_hobInjected
  exact (turns_awake.each fun _ _ => turns_put).trans injected

theorem turns_fwCheck {a : Addr} {m : Rid} {d : Dir} : Turns h w (w.fwCheck 0 a m d).2 := by
  have high := slotKey_ge (h := h)
  have counted : Turns h w (w.countReg 11 0 (fwOff 0 + 0x0C)) := Turns.refl.countReg (by simp only [blockBase, fwOff]; norm_num; omega)
  have refused : Turns h w (w.fwRefuse 0 a m d) := by
    unfold W.fwRefuse
    rw [if_neg (by decide)]
    exact counted.raise
  exact .iteSnd .refl (.pair refused)

theorem turns_blwRead {off : Nat} : Turns h w (w.blwRead u off n).2 := by
  refine .iteSnd .refl (turns_fwCheck.trans (.iteSnd ?_ .refl))
  split <;> next e => exact .pair (turns_hobRead.snd e)

theorem turns_blwWrite {ps : List (Nat × List Byte)} : Turns h w (w.blwWrite u ps).2 := by
  unfold W.blwWrite
  split
  · exact .refl
  · exact .iteSnd .refl (turns_fwCheck.trans (.iteSnd (.pair turns_hobWriteParts) .refl))

theorem turns_blwImage {off : Nat} {c : Ctx} : Turns h w (w.blwImage u k off c).2 :=
  .iteSnd .refl (turns_fwCheck.trans (.iteSnd .refl (turns_awake.trans (.iteSnd turns_hobScan turns_hobScan))))

theorem turns_blwImages {c : Ctx} {xs : List (Nat × Nat)} : Turns h w (w.blwImages u c xs).2 := by
  induction xs generalizing w with
  | nil => exact .refl
  | cons x xs ih =>
    unfold W.blwImages
    split
    · next e => exact turns_blwImage.snd e
    · next e =>
      refine (turns_blwImage.snd e).trans ?_
      split <;> next e => exact ih.snd e

theorem turns_blwReads {os : List Nat} : Turns h w (w.blwReads u os).2 := by
  induction os generalizing w with
  | nil => exact .refl
  | cons o os ih =>
    unfold W.blwReads
    split
    · next e => exact turns_blwRead.snd e
    · next e =>
      refine (turns_blwRead.snd e).trans ?_
      split <;> next e => exact ih.snd e

theorem turns_blwWrites {xs : List (List (Nat × List Byte))} : Turns h w (w.blwWrites u xs).2 := by
  induction xs generalizing w with
  | nil => exact .refl
  | cons x xs ih =>
    unfold W.blwWrites
    split
    · next e => exact (turns_blwWrite.snd e).trans ih
    · exact turns_blwWrite

/-! The run of a slot (R213, R217 to R222). -/

theorem turns_faultWrites {ctx stat : Nat} {c : Ctx} {safe tail : Bool} : Turns h w (w.faultWrites u ctx stat c safe tail) :=
  Turns.trans (.ite (Turns.foldl .refl fun _ _ => turns_blwWrite) .refl) turns_blwWrite

theorem turns_lastFault {info : Word32} : Turns h w (w.lastFault u info) :=
  ((Turns.refl.setReg (slotKey_ne_row (by omega) (by omega))).setReg (slotKey_ne_row (by omega) (by omega))).setReg
    (slotKey_ne_row (by omega) (by omega))

theorem turns_selectAll : Turns h w (w.selectAll u) := .each .refl fun _ _ => .selectGroup .refl

theorem turns_loopFault {ctx cause : Nat} {c : Ctx} {hdr safe tail retried : Bool} :
    Turns h w (w.loopFault h ctx cause c hdr safe tail retried) :=
  Turns.ite turns_faultWrites .refl |>.countReg (slotKey_ne_row (by omega) (by omega)) |>.trans turns_lastFault |>.blw
    |>.trans (.ite .refl turns_selectAll) |>.raise |>.each fun _ _ => .interrupt .refl

theorem turns_evaluate {c : Ctx} {preset safe : Bool} {bad : Nat} : Turns h w (w.evaluate h c preset safe bad).2 := by
  unfold W.evaluate
  extract_lets -underBinder inImg outImg offs
  split
  · next e => exact turns_blwImages.snd e
  next e =>
  refine (turns_blwImages.snd e).trans ?_
  split
  extract_lets -underBinder f stale badIn ext k0 first
  refine .iteSnd .refl (.iteSnd .refl ?_)
  split
  · next e => exact turns_blwReads.snd e
  next e =>
  refine (turns_blwReads.snd e).trans ?_
  extract_lets -underBinder k1 more
  split
  · next e => exact turns_blwReads.snd e
  next e =>
  have spent {v : W} {m : Nat} : Turns h v ((v.upd fun d => d.onBlw h fun b => { b with slack := b.slack - m }).countReg 16 h 0x328) :=
    (Turns.refl.blw).countReg (slotKey_ne_row (by omega) (by omega))
  exact (turns_blwReads.snd e).trans (.iteSnd .refl (.iteSnd .refl (.iteSnd spent spent)))

theorem turns_finishRun {ctx : Nat} {c : Ctx} {r : KRes} {retried : Bool} : Turns h w (w.finishRun h ctx c r retried) := by
  unfold W.finishRun
  extract_lets -underBinder off outs old cf w1 stat sorted exts
  have told : Turns h w w1 := .ite (.raise .refl) .refl
  refine told.trans (.ite turns_loopFault (.ite turns_loopFault ?_))
  split
  · next e => exact (turns_blwWrites.snd e).trans turns_loopFault
  · next e =>
    have written := (turns_blwWrites (h := h).snd e).blw (f := fun b => { b with faulted := b.faulted.filter (· != ctx) })
    exact .ite written.raise written

theorem turns_slotFaulted {ctx : Nat} {h0 h1 t : Option (List Byte)} : Turns h w (w.slotFaulted u ctx h0 h1 t) := by
  unfold W.slotFaulted
  split
  · exact turns_lastFault.trans turns_selectAll
  · exact turns_faultWrites

theorem turns_earlyFault {ctx cause : Nat} {pws : List Byte} {safe : Bool} : Turns h w (w.earlyFault h ctx cause pws safe) :=
  turns_blwRead.trans turns_loopFault

theorem turns_slotRun {ctx bad : Nat} {resumed : Bool} {hdr : List Byte} {tail : Option (List Byte)} :
    Turns h w (w.slotRun h ctx bad resumed hdr tail) := by
  unfold W.slotRun
  extract_lets -underBinder off
  split
  · next e => exact (turns_blwRead.snd e).trans turns_earlyFault
  next e =>
  refine (turns_blwRead.snd e).trans (.ite turns_earlyFault ?_)
  split
  · next e => exact (turns_blwReads.snd e).trans turns_earlyFault
  next ps u e =>
  refine (turns_blwReads.snd e).trans ?_
  extract_lets -underBinder body body'
  have tailRead : Turns h u (match tail with
      | some t => (some t, u)
      | none => u.blwRead h (off + 0xC0) 32).2 := by
    split
    · exact .refl
    · exact turns_blwRead
  split
  next t v e =>
  refine (tailRead.snd e).trans ?_
  split
  · exact turns_loopFault
  refine .ite turns_slotFaulted ?_
  split
  · next e => exact (turns_blwReads.snd e).trans turns_loopFault
  next e =>
  refine (turns_blwReads.snd e).trans (.ite turns_loopFault ?_)
  split
  · next e => exact (turns_evaluate.snd e).trans turns_loopFault
  · next e => exact (turns_evaluate.snd e).trans turns_finishRun

end Sys2Proof.Proofs
end

section
/-! The frames of a bellows: its slots, its deadline and its channels (R159, R213, R229 to R231; O32). -/

namespace Sys2Proof.Proofs

open Machine Laws

set_option Elab.async false

variable {s : State} {a b w v : W} {h k c n : Nat}

/-! The slot. -/

/-- A run begins: its context is named, and the slot counts. -/
def slotBegun (w : W) (h ctx : Nat) : W :=
  let extra := match (w.dev.blw h).inject with
    | some (c, n) => if c = ctx then n else 0
    | none => 0
  (w.upd fun d => d.onBlw h fun b =>
    { b with ctx := ctx, inject := if extra = 0 then b.inject else none, resume := b.resume.filter (· != ctx) }).setReg 16 h 0x324
      (w.hreg h 0x324 + 1)

theorem Turns.of_snd {α : Type} {x : α} {p : α × W} (e : p = (x, b)) (y : Turns h a p.2) : Turns h a b := y.snd e

theorem turns_slot {ctx bad : Nat} : Turns h (slotBegun w h ctx) (w.slot h ctx bad) := by
  unfold W.slot
  extract_lets -underBinder off b extra resumed held w1 w2
  have e1 : Turns h (slotBegun w h ctx) w2 := .refl
  split
  next h0 w3 e2 =>
  refine e1.trans ((turns_blwRead.snd e2).trans ?_)
  split
  next h1 w4 e3 =>
  extract_lets -underBinder w5
  have e4 : Turns h w3 w4 := Turns.of_snd e3 (.iteSnd turns_blwRead .refl)
  have e5 : Turns h w4 w5 := by
    refine .ite ?_ ?_
    · split
      next t v e =>
      refine (Turns.of_snd e (.iteSnd turns_blwRead .refl)).trans ?_
      split
      · exact .ite turns_slotFaulted turns_slotRun
      · exact turns_slotFaulted
    · split
      · exact turns_loopFault
      · exact turns_earlyFault
      · exact turns_slotRun
  exact (e4.trans e5).finishAll.finishAll

theorem Turns.hreg (x : Turns h a w) : w.hreg h 0x324 = a.hreg h 0x324 := by
  obtain ⟨-, value, row, -⟩ := x
  unfold slotKey at value
  rw [W.hreg, W.hreg, W.reg, W.reg, W.regReset, W.regReset, row, Tbl.getD, Tbl.getD, value]

theorem turn_begun {ctx : Nat} : turnPart ((slotBegun w h ctx).dev.blw h) = ((w.dev.blw h).todo, (w.dev.blw h).phase, ctx) := by
  unfold slotBegun
  dsimp only
  show turnPart ((W.upd w _).dev.blw h) = _
  rw [upd_dev, blw_onBlw_self]
  rfl

theorem hreg_begun {ctx : Nat} : (slotBegun w h ctx).hreg h 0x324 = w.hreg h 0x324 + 1 := reg_setReg_self _ _ _ _

/-- Channels that start leave the rest of the bellows. -/
theorem startChans_rest {l : List Nat} {b : Bellows} : ∃ t, l.foldl Bellows.startChan b = { b with chans := t } := by
  induction l generalizing b with
  | nil => exact ⟨_, rfl⟩
  | cons k l ih =>
    obtain ⟨t, shape⟩ := ih (b := b.startChan k)
    exact ⟨t, shape⟩

theorem startOutputs_blw : ∃ t, (w.startOutputs h).dev.blw h = { w.dev.blw h with phase := .output, chans := t } := by
  obtain ⟨t, shape⟩ := startChans_rest (l := bitsOf 16 (w.inUse h 0x310)) (b := { w.dev.blw h with phase := .output })
  exact ⟨t, (blw_onBlw_self _ _ _).trans shape⟩

theorem startOutputs_hreg {o : Nat} : (w.startOutputs h).hreg h o = w.hreg h o :=
  reg_congr (w := w) (w' := w.startOutputs h) rfl rfl 16 h o fun _ => rfl

/-- The entry of the frame that runs is taken. -/
def entryTaken (w : W) (h : Nat) (r : List Word32) : W := w.upd fun d => d.onBlw h fun b => { b with todo := r }

theorem slot_row {hid : HearthId} {bad : Nat} {e : Word32} {r : List Word32} (todo : (s.dev.blw hid).todo = e :: r)
    (phase : (s.dev.blw hid).phase = .slots) : exec (.bellowsSlot hid bad) s = .next (stateOf s (
      if r.isEmpty ∧ (((entryTaken s.world hid r).slot hid (fld e 0 8) bad).dev.blw hid).phase = .slots then
        ((entryTaken s.world hid r).slot hid (fld e 0 8) bad).startOutputs hid
      else (entryTaken s.world hid r).slot hid (fld e 0 8) bad)) := by
  have row : exec (.bellowsSlot hid bad) s = .next (stateOf s (match (s.dev.blw hid).todo with
    | [] => s.world
    | e :: r => if (s.dev.blw hid).phase = .slots then (if r.isEmpty ∧ (((entryTaken s.world hid r).slot hid (fld e 0 8) bad).dev.blw hid).phase = .slots then
        ((entryTaken s.world hid r).slot hid (fld e 0 8) bad).startOutputs hid
      else (entryTaken s.world hid r).slot hid (fld e 0 8) bad) else s.world)) := rfl
  rw [row, todo]
  exact next_of (if_pos phase)

theorem slot_still {hid : HearthId} {bad : Nat} (no : (s.dev.blw hid).todo = [] ∨ (s.dev.blw hid).phase ≠ .slots) :
    Answers (.bellowsSlot hid bad) s (Only s · id) := by
  have row : exec (.bellowsSlot hid bad) s = .next (stateOf s (match (s.dev.blw hid).todo with
    | [] => s.world
    | e :: r => if (s.dev.blw hid).phase = .slots then (if r.isEmpty ∧ (((entryTaken s.world hid r).slot hid (fld e 0 8) bad).dev.blw hid).phase = .slots then
        ((entryTaken s.world hid r).slot hid (fld e 0 8) bad).startOutputs hid
      else (entryTaken s.world hid r).slot hid (fld e 0 8) bad) else s.world)) := rfl
  refine ⟨_, row.trans (next_of (v' := s.world) ?_), rfl⟩
  split
  · rfl
  · next found => exact if_neg (no.resolve_left fun none_ => by rw [none_] at found; cases found)

/-- The next entry of the frame runs (R213). -/
theorem slot_runs {hid : HearthId} {bad : Nat} {e : Word32} {r : List Word32} (todo : (s.dev.blw hid).todo = e :: r)
    (phase : (s.dev.blw hid).phase = .slots) : Answers (.bellowsSlot hid bad) s fun t =>
      (t.dev.blw hid).todo = r ∧ (t.dev.blw hid).ctx = fld e 0 8 ∧ (t.dev.blw hid).phase = (if r = [] then .output else .slots) ∧
      t.world.hreg hid 0x324 = s.world.hreg hid 0x324 + 1 ∧
      Leaves s t fun w => let v := (entryTaken w hid r).slot hid (fld e 0 8) bad
        if r = [] then v.startOutputs hid else v := by
  have ran := turns_slot (w := entryTaken s.world hid r) (h := hid) (ctx := fld e 0 8) (bad := bad)
  have fuse : ((entryTaken s.world hid r).slot hid (fld e 0 8) bad).fuse = s.fuse := ran.fuse
  have row := slot_row (bad := bad) todo phase
  have turn : turnPart (((entryTaken s.world hid r).slot hid (fld e 0 8) bad).dev.blw hid) = (r, .slots, fld e 0 8) := by
    rw [ran.turn, turn_begun, entryTaken, upd_dev, blw_onBlw_self]
    exact congrArg (fun p => (r, p, fld e 0 8)) phase
  have count : ((entryTaken s.world hid r).slot hid (fld e 0 8) bad).hreg hid 0x324 = s.world.hreg hid 0x324 + 1 :=
    ran.hreg.trans (hreg_begun.trans (congrArg (· + 1) (reg_congr (w := s.world) (w' := entryTaken s.world hid r) rfl rfl 16 hid 0x324 fun _ => rfl)))
  simp only [turnPart, Prod.mk.injEq] at turn
  unfold Leaves
  dsimp only
  generalize (entryTaken s.world hid r).slot hid (fld e 0 8) bad = v at turn count fuse row ⊢
  obtain ⟨rest, stays, ctx⟩ := turn
  refine ⟨_, row, ?_⟩
  by_cases last : r = []
  · have ends : r.isEmpty = true ∧ (v.dev.blw hid).phase = .slots := ⟨List.isEmpty_iff.mpr last, stays⟩
    rw [if_pos ends, if_pos last, if_pos last]
    obtain ⟨t, after⟩ := startOutputs_blw (w := v) (h := hid)
    have parts : ((v.startOutputs hid).dev.blw hid).todo = r ∧ ((v.startOutputs hid).dev.blw hid).ctx = fld e 0 8 ∧
        ((v.startOutputs hid).dev.blw hid).phase = .output := by
      rw [after]
      exact ⟨rest, ctx, rfl⟩
    exact ⟨parts.1, parts.2.1, parts.2.2, (reg_state fuse).trans (startOutputs_hreg.trans count), rfl⟩
  · have goes_ : ¬ (r.isEmpty = true ∧ (v.dev.blw hid).phase = .slots) := fun ends => last (List.isEmpty_iff.mp ends.1)
    rw [if_neg goes_, if_neg last, if_neg last]
    exact ⟨rest, ctx, stays, (reg_state fuse).trans count, rfl⟩

end Sys2Proof.Proofs
end

section
/-! The deadline and the channels of a bellows (R159, R229 to R231; O32). -/

namespace Sys2Proof.Proofs

open Machine Laws

set_option Elab.async false

variable {s : State} {a b w v : W} {h k c n : Nat}

/-! The channels through an event. -/

theorem ChansGo.refl {b : Bellows} : ChansGo b b := fun _ => .inl rfl

theorem ChansGo.trans {x y z : Bellows} (f : ChansGo x y) (g : ChansGo y z) (use : y.use = x.use) : ChansGo x z := by
  intro c
  rcases g c with same | ⟨on, runs⟩
  · rcases f c with same' | ⟨on, runs⟩
    · exact .inl (same.trans same')
    · exact .inr ⟨on, by rw [same]; exact runs⟩
  · exact .inr ⟨by rw [← use]; exact on, runs⟩

/-- What moves of an event leave of a bellows. -/
theorem blw_of_goes (go : Goes w v) (h : Nat) : blwPart (v.dev.blw h) = blwPart (w.dev.blw h) ∧ ChansGo (w.dev.blw h) (v.dev.blw h) := by
  have still {w v : W} (same : v.dev.bellows = w.dev.bellows) :
      blwPart (v.dev.blw h) = blwPart (w.dev.blw h) ∧ ChansGo (w.dev.blw h) (v.dev.blw h) := by
    have blw : v.dev.blw h = w.dev.blw h := by rw [Dev.blw, Dev.blw, same]
    rw [blw]
    exact ⟨rfl, .refl⟩
  induction go with
  | refl w => exact still rfl
  | trans _ _ first second =>
    exact ⟨second.1.trans first.1, first.2.trans second.2 (congrArg (fun b => b.use) first.1 :)⟩
  | beside same => exact still (congrArg (fun x => x.2.2.2.2.1) same :)
  | core w k f => exact still rfl
  | seam w k f _ => exact still rfl
  | hob w u f _ => exact still rfl
  | wake w u =>
    refine still ?_
    unfold W.wakeHob
    split <;> rfl
  | blw w i f same chans =>
    rw [upd_dev, blw_onBlw]
    split
    · next own =>
      subst own
      exact ⟨same _, chans⟩
    · exact ⟨rfl, .refl⟩
  | safe w => exact still rfl
  | @dozeUp _ v _ _ ih =>
    have same := (pinned_dozeUp (w := v) (k := 0)).1.same
    simp only [Prod.mk.injEq] at same
    obtain ⟨part, chans⟩ := still same.2.1
    exact ⟨part.trans ih.1, ih.2.trans chans (congrArg (fun b => b.use) ih.1 :)⟩

/-! Channels that are late. -/

/-- What a late channel leaves of a bellows, where it tells which are late. -/
structure LateGo (h : Nat) (a w : W) : Prop where
  todo : (w.dev.blw h).todo = (a.dev.blw h).todo
  phase : (w.dev.blw h).phase = (a.dev.blw h).phase
  use : (w.dev.blw h).use = (a.dev.blw h).use
  row : ∀ o, w.regRow 16 o = a.regRow 16 o
  late : ∀ k, bitAt (a.dev.blw h).late k = true → bitAt (w.dev.blw h).late k = true
  runs : ∀ k, ((a.dev.blw h).chans.getD k {}).running = true →
    bitAt (w.dev.blw h).late k = true ∨ ((w.dev.blw h).chans.getD k {}).running = true

theorem LateGo.refl : LateGo h w w := ⟨rfl, rfl, rfl, fun _ => rfl, fun _ => id, fun _ => .inr⟩

theorem LateGo.trans {a b c : W} (x : LateGo h a b) (y : LateGo h b c) : LateGo h a c := by
  refine ⟨y.todo.trans x.todo, y.phase.trans x.phase, y.use.trans x.use, fun o => (y.row o).trans (x.row o), fun k on => y.late k (x.late k on),
    fun k on => ?_⟩
  rcases x.runs k on with late | runs
  · exact .inl (y.late k late)
  · exact y.runs k runs

theorem LateGo.each {xs : List Nat} {f : Nat → W → W} (y : ∀ x ∈ xs, ∀ v, LateGo h v (f x v)) (w : W) : LateGo h w (w.each xs f) := by
  induction xs generalizing w with
  | nil => exact .refl
  | cons z xs ih => exact (y z List.mem_cons_self w).trans (ih (fun x mem => y x (List.mem_cons_of_mem _ mem)) (f z w))

theorem lateGo_of (go : Goes w v) (kept : Kept w v) : LateGo h w v := by
  obtain ⟨part, chans⟩ := blw_of_goes go h
  have late : (v.dev.blw h).late = (w.dev.blw h).late := (congrArg (fun b => b.late) part :)
  refine ⟨(congrArg (fun b => b.todo) part :), (congrArg (fun b => b.phase) part :), (congrArg (fun b => b.use) part :),
    fun _ => regRow_kept kept, fun k on => by rw [late]; exact on, fun k on => .inr ?_⟩
  rcases chans k with same | ⟨-, runs⟩
  · rw [same]
    exact on
  · exact runs

theorem lateGo_raise {d0 d1 : Word32} : LateGo h w (w.raise n d0 d1) := lateGo_of goes_raise (kept_raise _ _ _ _ _ _)

/-- The late bit of a channel is set, and no other channel changes. -/
theorem lateGo_marked {t : Tbl DmaChan} (low : c < 16) (row : ∀ o, v.regRow 16 o = w.regRow 16 o)
    (own : v.dev.blw h = { w.dev.blw h with chans := t, late := setBit (w.dev.blw h).late c true })
    (others : ∀ k, k ≠ c → t.getD k {} = (w.dev.blw h).chans.getD k {}) :
    LateGo h w v ∧ bitAt (v.dev.blw h).late c = true := by
  have bit (k : Nat) : bitAt (v.dev.blw h).late k = true ↔ bitAt (w.dev.blw h).late k = true ∨ k = c := by
    rw [own]
    exact bitAt_setBit_iff low
  refine ⟨⟨by rw [own], by rw [own], by rw [own], row, fun k on => (bit k).mpr (.inl on), fun k on => ?_⟩, (bit c).mpr (.inr rfl)⟩
  by_cases same : k = c
  · exact .inl ((bit k).mpr (.inr same))
  · right
    rw [own, others k same]
    exact on

/-- A late channel is told. -/
theorem lateGo_imageLate (low : c < 16) : LateGo h w (w.imageLate h c) ∧ bitAt ((w.imageLate h c).dev.blw h).late c = true := by
  obtain ⟨marked, bit⟩ := lateGo_marked (w := w) (v := w.upd fun d => d.onBlw h fun b => { b with late := setBit b.late c true })
    (t := (w.dev.blw h).chans) low (fun o => regRow_congr (w := w) (w' := w.upd fun d => d.onBlw h fun b => { b with late := setBit b.late c true })
      rfl rfl 16 o) (blw_onBlw_self _ _ _) (fun _ _ => rfl)
  exact ⟨marked.trans lateGo_raise, lateGo_raise.late c bit⟩

/-- A late channel is stopped and told. -/
theorem lateGo_stopped (low : c < 16) : LateGo h w ((w.upd fun d => d.onBlw h fun b => b.stopChan c).imageLate h c) := by
  have own : ((w.upd fun d => d.onBlw h fun b => b.stopChan c).upd fun d => d.onBlw h fun b => { b with late := setBit b.late c true }).dev.blw h =
      { w.dev.blw h with chans := (w.dev.blw h).chans.set c { (w.dev.blw h).chans.getD c {} with running := false },
                         late := setBit (w.dev.blw h).late c true } := by
    rw [upd_dev, blw_onBlw_self, upd_dev, blw_onBlw_self]
    rfl
  have row (o : Nat) := regRow_congr (w := w) (w' := (w.upd fun d => d.onBlw h fun b => b.stopChan c).upd fun d =>
    d.onBlw h fun b => { b with late := setBit b.late c true }) rfl rfl 16 o
  exact (lateGo_marked low row own fun k ne => getD_set_ne _ _ _ _ _ ne).1.trans lateGo_raise

theorem late_each {l : List Nat} (low : ∀ c ∈ l, c < 16) (c : Nat) (mem : c ∈ l) (w : W) :
    bitAt ((w.each l fun c w => w.imageLate h c).dev.blw h).late c = true := by
  induction l generalizing w with
  | nil => cases mem
  | cons z l ih =>
    have rest := LateGo.each (h := h) (fun x m v => (lateGo_imageLate (w := v) (low x (List.mem_cons_of_mem _ m))).1) (w.imageLate h z)
    rcases List.mem_cons.mp mem with rfl | later
    · exact rest.late c (lateGo_imageLate (low c List.mem_cons_self)).2
    · exact ih (fun x m => low x (List.mem_cons_of_mem _ m)) later _

theorem mem_runningChans {m : Nat} : c ∈ w.runningChans h m ↔ (c < 16 ∧ m.testBit c = true) ∧ ((w.dev.blw h).chans.getD c {}).running = true := by
  unfold W.runningChans
  rw [List.mem_filter, mem_bitsOf]

/-- The late channels of a deadline (R230, R231). -/
def lateTold (w : W) (h : Nat) : W :=
  let w := w.each (w.runningChans h (w.inUse h 0x310)) fun c w => (w.upd fun d => d.onBlw h fun b => b.stopChan c).imageLate h c
  w.each (w.runningChans h (w.inUse h 0x30C)) fun c w => w.imageLate h c

theorem LateGo.inUse {o : Nat} (x : LateGo h a w) (runs : (a.dev.blw h).phase ≠ .stopped) : w.inUse h o = a.inUse h o := by
  obtain ⟨-, phase, use, row, -⟩ := x
  have runs' : (w.dev.blw h).phase ≠ .stopped := by rw [phase]; exact runs
  unfold W.inUse
  dsimp only
  rw [if_neg runs, if_neg runs', use, W.regReset, W.regReset, row]

theorem lateTold_go : LateGo h w (lateTold w h) := by
  unfold lateTold
  exact (LateGo.each (fun c m _ => lateGo_stopped (mem_runningChans.mp m).1.1) _).trans
    (LateGo.each (fun c m _ => (lateGo_imageLate (mem_runningChans.mp m).1.1).1) _)

theorem lateTold_late (runs : (w.dev.blw h).phase ≠ .stopped) (low : k < 16) (isIn : (w.inUse h 0x30C).testBit k = true)
    (on : ((w.dev.blw h).chans.getD k {}).running = true) : bitAt ((lateTold w h).dev.blw h).late k = true := by
  unfold lateTold
  dsimp only
  have first := LateGo.each (h := h) (xs := w.runningChans h (w.inUse h 0x310))
    (fun c m v => lateGo_stopped (w := v) (mem_runningChans.mp m).1.1) w
  generalize w.each (w.runningChans h (w.inUse h 0x310)) (fun c w => (w.upd fun d => d.onBlw h fun b => b.stopChan c).imageLate h c) = v at first ⊢
  have small : ∀ c ∈ v.runningChans h (v.inUse h 0x30C), c < 16 := fun c m => (mem_runningChans.mp m).1.1
  rcases first.runs k on with late | still
  · exact (LateGo.each (fun c m _ => (lateGo_imageLate (small c m)).1) v).late k late
  · exact late_each small k (mem_runningChans.mpr ⟨⟨low, by rw [first.inUse runs]; exact isIn⟩, still⟩) v

/-- The slot phase begins at the deadline of the window (R230). -/
def slotsBegun (w : W) (h : Nat) : W :=
  let w := (lateTold w h).upd fun d => d.onBlw h fun b => { b with phase := .slots, waitIn := false }
  if (w.dev.blw h).todo.isEmpty then w.startOutputs h else w

theorem slotsBegun_blw : ((slotsBegun w h).dev.blw h).waitIn = false ∧ ((slotsBegun w h).dev.blw h).late = ((lateTold w h).dev.blw h).late ∧
    ((slotsBegun w h).dev.blw h).phase = if (w.dev.blw h).todo = [] then .output else .slots := by
  have todo := (lateTold_go (w := w) (h := h)).todo
  unfold slotsBegun
  dsimp only
  generalize lateTold w h = v at todo ⊢
  have own : (v.upd fun d => d.onBlw h fun b => { b with phase := .slots, waitIn := false }).dev.blw h =
      { v.dev.blw h with phase := .slots, waitIn := false } := blw_onBlw_self _ _ _
  generalize (v.upd fun d => d.onBlw h fun b => { b with phase := .slots, waitIn := false }) = u at own ⊢
  have same : (u.dev.blw h).todo = (w.dev.blw h).todo := by rw [own]; exact todo
  rw [same]
  by_cases last : (w.dev.blw h).todo = []
  · obtain ⟨t, after⟩ := startOutputs_blw (w := u) (h := h)
    rw [if_pos (List.isEmpty_iff.mpr last), if_pos last, after, own]
    exact ⟨rfl, rfl, rfl⟩
  · rw [if_neg fun ends => last (List.isEmpty_iff.mp ends), if_neg last, own]
    exact ⟨rfl, rfl, rfl⟩

/-- The device at the deadline of the window. -/
def atDeadline (s : State) (h : HearthId) : W :=
  s.world.upd fun d => d.advanceTb (25000 * d.clock.frame.toNat + 10 * (s.world.inUse h 0x308 % 4096))

theorem deadline_row {h : HearthId} : exec (.inDeadlineExpiry h) s = .next (stateOf s (
    if (s.dev.blw h).phase = .window ∧ (s.dev.blw h).waitIn = true then slotsBegun (atDeadline s h) h else s.world)) := rfl

theorem deadline_still {h : HearthId} (no : ¬ ((s.dev.blw h).phase = .window ∧ (s.dev.blw h).waitIn = true)) :
    Answers (.inDeadlineExpiry h) s (Only s · id) := ⟨_, deadline_row.trans (next_of (if_neg no)), rfl⟩

theorem deadline_runs {h : HearthId} (phase : (s.dev.blw h).phase = .window) (waits : (s.dev.blw h).waitIn = true) :
    Answers (.inDeadlineExpiry h) s fun t =>
      t.dev.clock = (s.dev.advanceTb (25000 * s.dev.clock.frame.toNat + 10 * (s.world.inUse h 0x308 % 4096))).clock ∧
      (t.dev.blw h).waitIn = false ∧ (t.dev.blw h).phase = (if (s.dev.blw h).todo = [] then .output else .slots) ∧
      ∀ k, k < 16 → (s.world.inUse h 0x30C).testBit k = true → ((s.dev.blw h).chans.getD k {}).running = true →
        bitAt (t.dev.blw h).late k = true := by
  refine ⟨_, deadline_row.trans (next_of (if_pos ⟨phase, waits⟩)), ?_⟩
  have blw : (atDeadline s h).dev.blw h = s.dev.blw h := rfl
  have use : (atDeadline s h).inUse h 0x30C = s.world.inUse h 0x30C := by
    have go : LateGo h s.world (atDeadline s h) := ⟨rfl, rfl, rfl, fun o => regRow_congr (w := s.world) (w' := atDeadline s h) rfl rfl 16 o,
      fun _ => id, fun _ => .inr⟩
    exact go.inUse (by show (s.dev.blw h).phase ≠ _; rw [phase]; decide)
  have clock : (slotsBegun (atDeadline s h) h).dev.clock = (atDeadline s h).dev.clock := (chimes_startSlots (w := atDeadline s h) (h := 0)).clock
  obtain ⟨free, late, begun⟩ := slotsBegun_blw (w := atDeadline s h) (h := h)
  refine ⟨clock, free, begun, fun k low isIn on => ?_⟩
  have told := lateTold_late (w := atDeadline s h) (h := h) (by rw [blw, phase]; decide) low (by rw [use]; exact isIn) on
  rw [← late] at told
  exact told

end Sys2Proof.Proofs
end

section
/-! The channels of a bellows, and the frames of a bellows as a whole (R159, R213, R229 to R231; O32). -/

namespace Sys2Proof.Proofs

open Machine Laws

set_option Elab.async false

variable {s : State} {a b w v : W} {h k c n : Nat}

/-! A source raised in the cores of a hearth. -/

/-- Core `k` after a source is raised in it. -/
def raised (w : W) (src k : Nat) : Core :=
  if (w.dev.core k).run = true ∧ (w.dev.seam k).mode ≠ .halted then { w.dev.core k with ipend := setBit (w.dev.core k).ipend src true }
  else w.dev.core k

/-- Only the cores have changed. -/
def OnlyCores (w v : W) : Prop := v = w.upd fun d => { d with cores := v.dev.cores }

theorem OnlyCores.trans (x : OnlyCores a b) (y : OnlyCores b w) : OnlyCores a w := by
  unfold OnlyCores at x y ⊢
  rw [y, x]
  rfl

theorem OnlyCores.parts (x : OnlyCores w v) : v.dev.bellows = w.dev.bellows ∧ v.dev.flue = w.dev.flue := by
  unfold OnlyCores at x
  rw [x]
  exact ⟨rfl, rfl⟩

theorem raised_congr {src : Nat} (core : v.dev.core k = w.dev.core k) (seam : v.dev.seam k = w.dev.seam k) : raised v src k = raised w src k := by
  unfold raised
  rw [core, seam]

theorem interrupt_raised {c src : Nat} : OnlyCores w (w.interrupt c src) ∧
    ∀ k, (w.interrupt c src).dev.core k = if k = c then raised w src k else w.dev.core k := by
  have own := core_interrupt (w := w) (c := c) (k := src)
  unfold OnlyCores
  constructor
  · unfold W.interrupt
    split <;> rfl
  · intro k
    by_cases here : k = c
    · subst here
      rw [if_pos rfl, raised]
      split
      · next told => exact own.1 told
      · next told => exact own.2 told
    · rw [if_neg here, W.interrupt]
      split
      · exact core_onCore_ne _ _ _ _ here
      · rfl

theorem each_raised {src : Nat} {f : Nat → Nat} (inj : ∀ i j, f i = f j → i = j) {l : List Nat} (once : l.Nodup) (w : W) :
    OnlyCores w (w.each l fun i w => w.interrupt (f i) src) ∧
      (∀ k, (∃ i ∈ l, k = f i) → (w.each l fun i w => w.interrupt (f i) src).dev.core k = raised w src k) ∧
      ∀ k, ¬ (∃ i ∈ l, k = f i) → (w.each l fun i w => w.interrupt (f i) src).dev.core k = w.dev.core k := by
  induction l generalizing w with
  | nil => exact ⟨rfl, (fun k ⟨i, mem, _⟩ => by cases mem), fun _ _ => rfl⟩
  | cons z l ih =>
    obtain ⟨fresh, once⟩ := List.nodup_cons.mp once
    obtain ⟨first, cores⟩ := interrupt_raised (w := w) (c := f z) (src := src)
    obtain ⟨rest, told, others⟩ := ih once (w.interrupt (f z) src)
    have seam (k : Nat) : (w.interrupt (f z) src).dev.seam k = w.dev.seam k := by rw [first]; rfl
    refine ⟨first.trans rest, ?_, fun k no => ?_⟩
    · rintro k ⟨i, mem, rfl⟩
      rcases List.mem_cons.mp mem with rfl | later
      · exact (others _ fun ⟨j, m, e⟩ => fresh (inj i j e ▸ m)).trans ((cores _).trans (if_pos rfl))
      · have ne : f i ≠ f z := fun e => fresh (inj i z e ▸ later)
        exact (told _ ⟨i, later, rfl⟩).trans (raised_congr ((cores _).trans (if_neg ne)) (seam _))
    · have ne : k ≠ f z := fun e => no ⟨z, List.mem_cons_self, e⟩
      exact (others k fun ⟨i, mem, e⟩ => no ⟨i, List.mem_cons_of_mem _ mem, e⟩).trans ((cores k).trans (if_neg ne))

theorem interruptHearth_raised {src : Nat} : OnlyCores w (w.interruptHearth h src) ∧
    ∀ k, (w.interruptHearth h src).dev.core k = if k / 4 = h then raised w src k else w.dev.core k := by
  obtain ⟨only, told, others⟩ := each_raised (src := src) (f := fun k => 4 * h + k) (fun i j e => by simpa using e) (l := List.range 4)
    List.nodup_range w
  refine ⟨only, fun k => ?_⟩
  by_cases own : k / 4 = h
  · rw [if_pos own]
    exact told k ⟨k % 4, List.mem_range.mpr (by omega), by omega⟩
  · rw [if_neg own]
    refine others k ?_
    rintro ⟨i, mem, rfl⟩
    have := List.mem_range.mp mem
    omega

/-! The end of a channel. -/

theorem dma_still {hid : HearthId} {ch : Fin 16} {halted : Bool}
    (bound : (s.world.inUse hid 0x30C).testBit ch.val = true ∨ (s.world.inUse hid 0x310).testBit ch.val = true) :
    Answers (.dmaChannelComplete hid ch halted) s (Only s · id) := ⟨_, next_of (if_pos bound), rfl⟩

theorem dma_done {hid : HearthId} {ch : Fin 16} {halted : Bool}
    (free : ¬ ((s.world.inUse hid 0x30C).testBit ch.val = true ∨ (s.world.inUse hid 0x310).testBit ch.val = true)) :
    Answers (.dmaChannelComplete hid ch halted) s fun t =>
      (∀ k, t.dev.core k = if k / 4 = hid.val ∧ (s.dev.core k).run = true ∧ (s.dev.seam k).mode ≠ .halted then
        { s.dev.core k with ipend := setBit (s.dev.core k).ipend ch.val true } else s.dev.core k) ∧
      t.dev = { s.dev with out := .none, cores := t.dev.cores } ∧ t.mem = s.mem ∧ t.fuse = s.fuse ∧ t.pending = s.pending := by
  obtain ⟨only, cores⟩ := interruptHearth_raised (w := s.world) (h := hid) (src := ch)
  refine ⟨_, next_of (v' := s.world.interruptHearth hid ch) (if_neg free), fun k => (cores k).trans ?_, ?_, ?_, rfl, rfl⟩
  · unfold raised
    by_cases own : k / 4 = hid.val
    · rw [if_pos own]
      simp only [own, true_and]
      rfl
    · rw [if_neg own, if_neg fun h => own h.1]
      rfl
  · exact congrArg W.dev only
  · rw [only]
    rfl

/-- A channel has halted, and is late (R231). -/
def haltedAt (w : W) (h c : Nat) : W :=
  ((w.upd fun d => d.onHob h fun x => { x with dmaPtr := BitVec.ofNat 4 (c + 1) }).upd fun d =>
    d.onBlw h fun b => { b with chans := b.chans.set c { (b.chans.getD c {}) with running := false, halted := true } }).upd fun d =>
    d.onBlw h fun b => { b with late := setBit b.late c true }

/-- A channel that halts: it is late, and starts again at the next boundary (R231). -/
def halts (w : W) (h c : Nat) : W := (haltedAt w h c).raise (0x220 + h) 0 0

theorem haltedAt_blw : (haltedAt w h c).dev.blw h = { w.dev.blw h with
    chans := (w.dev.blw h).chans.set c { (w.dev.blw h).chans.getD c {} with running := false, halted := true }
    late := setBit (w.dev.blw h).late c true } := by
  unfold haltedAt
  rw [upd_dev, blw_onBlw_self, upd_dev, blw_onBlw_self]
  rfl

theorem image_row {hid : HearthId} {ch : Fin 16} (runs : ((s.dev.blw hid).chans.getD ch.val {}).running = true) :
    exec (.imageChannelComplete hid ch true) s = .next (stateOf s ((halts s.world hid ch).interruptHearth hid ch)) := by
  have no : ¬ ((s.dev.blw hid).chans.getD ch.val {}).running = false := by rw [runs]; decide
  exact next_of (if_neg no)

theorem image_still {hid : HearthId} {ch : Fin 16} {halted : Bool} (rests : ¬ ((s.dev.blw hid).chans.getD ch.val {}).running = true) :
    Answers (.imageChannelComplete hid ch halted) s (Only s · id) := ⟨_, next_of (if_pos (eq_false_of_ne_true rests)), rfl⟩

theorem source_late {hid : HearthId} : (w.source (0x220 + hid.val)).isSome = true := by
  obtain ⟨i, low⟩ := hid
  interval_cases i <;> rfl

theorem plain_late {hid : HearthId} : Plain (0x220 + hid.val) := by
  have := hid.isLt
  unfold Plain Noted
  omega

/-- The channel of a halt: late, and not running, unless its group starts it again at once (R231, R234). -/
theorem halts_chan (low : c < 16) : bitAt ((halts w h c).dev.blw h).late c = true ∧
    (((w.dev.blw h).use.getD 0x310 0).toNat.testBit c = false →
      (((halts w h c).dev.blw h).chans.getD c {}).running = false ∧ (((halts w h c).dev.blw h).chans.getD c {}).halted = true) := by
  obtain ⟨part, chans⟩ := blw_of_goes (goes_raise (w := haltedAt w h c) (k := 0x220 + h) (d0 := 0) (d1 := 0) (test := false) (grp := [])) h
  have blw := haltedAt_blw (w := w) (h := h) (c := c)
  unfold halts
  generalize haltedAt w h c = u at part chans blw ⊢
  generalize u.raise (0x220 + h) 0 0 = v at part chans ⊢
  constructor
  · rw [show (v.dev.blw h).late = (u.dev.blw h).late from congrArg (fun b => b.late) part, blw]
    exact bitAt_setBit low
  · intro off
    have use : (u.dev.blw h).use = (w.dev.blw h).use := by rw [blw]
    rcases chans c with same | ⟨on, -⟩
    · rw [same, blw]
      dsimp only
      rw [getD_set_self]
      exact ⟨rfl, rfl⟩
    · rw [use, off] at on
      cases on

/-- The cores that an event leaves running. -/
theorem cores_run (contained : Contained True w v) (cut : w.dev.images.cut = none) (run : (w.dev.core k).run = true)
    (mode : (w.dev.seam k).mode ≠ .halted) : (v.dev.core k).run = true ∧ (v.dev.seam k).mode ≠ .halted := by
  obtain ⟨runs, -⟩ := (contained.calm cut).pends k run
  have same : (v.dev.seam k).mode = (w.dev.seam k).mode := (congrArg (fun x => x.mode) (contained.placed.slots k) :)
  exact ⟨runs, by rw [same]; exact mode⟩

theorem halts_contained : Contained True (haltedAt w h c) (halts w h c) := contained_raise (.inl trivial)

theorem image_halts {hid : HearthId} {ch : Fin 16} (runs : ((s.dev.blw hid).chans.getD ch.val {}).running = true) (cut : s.dev.images.cut = none) :
    Answers (.imageChannelComplete hid ch true) s fun t =>
      (((s.dev.blw hid).use.getD 0x310 0).toNat.testBit ch.val = false →
        ((t.dev.blw hid).chans.getD ch.val {}).running = false ∧ ((t.dev.blw hid).chans.getD ch.val {}).halted = true) ∧
      bitAt (t.dev.blw hid).late ch.val = true ∧ Detected s t (0x220 + hid.val) 0 0 s.dev.clock.tb ∧
      ∀ k, k / 4 = hid.val → (s.dev.core k).run = true → (s.dev.seam k).mode ≠ .halted → bitAt (t.dev.core k).ipend ch.val = true := by
  refine ⟨_, image_row runs, ?_⟩
  have low := ch.isLt
  obtain ⟨only, cores⟩ := interruptHearth_raised (w := halts s.world hid ch) (h := hid) (src := ch)
  obtain ⟨late, chan⟩ := halts_chan (w := s.world) (h := hid) low
  have calm : Quiescent s (haltedAt s.world hid ch) := ((quiescent_world.upd).upd).upd
  have found : Detected s (stateOf s (halts s.world hid ch)) (0x220 + hid.val) 0 0 s.dev.clock.tb := detected_raise calm plain_late source_late
  have stay := fun k => cores_run (halts_contained (w := s.world) (h := hid) (c := ch)) (k := k) cut
  have blw : ((halts s.world hid ch).interruptHearth hid ch).dev.blw hid = (halts s.world hid ch).dev.blw hid := by
    rw [Dev.blw, Dev.blw, only.parts.1]
  have src (n : Nat) : ((halts s.world hid ch).interruptHearth hid ch).dev.src n = (halts s.world hid ch).dev.src n := by
    rw [Dev.src, Dev.src, only.parts.2]
  generalize (halts s.world hid ch).interruptHearth hid ch = v at cores blw src ⊢
  generalize halts s.world hid ch = u at late chan found stay blw src cores
  have left : (stateOf s v).dev.blw hid = u.dev.blw hid := blw
  beta_reduce
  rw [left]
  refine ⟨chan, late, detected_congr (t := stateOf s u) (src _) found, fun k own run mode => ?_⟩
  have bit : (stateOf s v).dev.core k = raised u ch k := (cores k).trans (if_pos own)
  rw [bit, raised, if_pos (stay k run mode)]
  exact bitAt_setBit (by omega)

/-! A channel that has moved its words. -/

/-- What a channel that completes has come to, and the world where it has. -/
def imageMoved (w : W) (h c : Nat) : Acc × Nat × W :=
  if (w.inUse h 0x30C).testBit c then (if (w.dmaIn h c).1 then .done else .err eFirewall, 0, (w.dmaIn h c).2) else w.dmaOut h c

/-- What the end of a channel makes of its result. -/
def imageEnds (isIn : Bool) (h c : Nat) (r : Acc) (k : Nat) (w : W) : W :=
  match r with
  | .wait => w.chanHeld h c k
  | .err _ => (w.chanHalt h c).interruptHearth h c
  | _ => (if isIn then w.inputDone h c else w.upd fun d => d.onBlw h fun b => b.stopChan c).interruptHearth h c

theorem dmaEnq_never {m : Rid} {x : Nat} {bs : List Byte} {l : List (List Byte)} : (w.dmaEnq m x k l).1 ≠ .data bs := by
  induction l generalizing w k with
  | nil => exact nofun
  | cons z l ih =>
    unfold W.dmaEnq
    split
    · exact nofun
    · exact nofun
    · exact ih

theorem imageMoved_never {bs : List Byte} : (imageMoved w h c).1 ≠ .data bs := by
  unfold imageMoved
  split
  · dsimp only
    split <;> exact nofun
  · unfold W.dmaOut
    dsimp only
    split
    · exact nofun
    · split
      · split
        · exact dmaEnq_never
        · dsimp only
          split <;> exact nofun
      · exact nofun

theorem imageEnds_eq {isIn : Bool} {r : Acc} (no : ∀ bs, r ≠ .data bs) : imageEnds isIn h c r k w =
    if r = .wait then w.chanHeld h c k
    else (if r ≠ .done then w.chanHalt h c else if isIn then w.inputDone h c else w.upd fun d => d.onBlw h fun b => b.stopChan c).interruptHearth
      h c := by
  cases r with
  | wait => rfl
  | err e => rfl
  | done => rfl
  | data bs => exact absurd rfl (no bs)

theorem image_moves {hid : HearthId} {ch : Fin 16} (runs : ((s.dev.blw hid).chans.getD ch.val {}).running = true) :
    exec (.imageChannelComplete hid ch false) s = .next (stateOf s (imageEnds ((s.world.inUse hid 0x30C).testBit ch) hid ch (imageMoved s.world hid ch).1
      (imageMoved s.world hid ch).2.1
      ((imageMoved s.world hid ch).2.2.upd fun d => d.onHob hid fun y => { y with dmaPtr := BitVec.ofNat 4 (ch.val + 1) }))) := by
  have no : ¬ ((s.dev.blw hid).chans.getD ch.val {}).running = false := by rw [runs]; decide
  exact next_of (if_neg no)

end Sys2Proof.Proofs
end

section
/-! The frames of a bellows as a whole (R159, R213, R229 to R231; O32). -/

namespace Sys2Proof.Proofs

open Machine Laws

set_option Elab.async false

/-- Settles O32: the slot's run leaves the entries to come and the count of slots, the deadline tells the late channels, and a channel's
end follows what its words came to. -/
theorem bellowsFrames : Obligations.BellowsFrames := by
  intro s h bad ch halted d w b c isIn bound runs
  refine ⟨slot_still, fun e r todo phase => slot_runs todo phase, deadline_still, deadline_runs, image_still, fun on cut => image_halts on cut,
    fun on => ?_, dma_still, dma_done⟩
  refine ⟨_, image_moves on, ?_⟩
  rw [imageEnds_eq fun bs => imageMoved_never]
  rfl

end Sys2Proof.Proofs
end

section
/-! The windows and the monitors of the seams and the routers (R92, R93, R97, R98, R235; O22). -/

namespace Sys2Proof.Proofs

open Machine Laws

set_option Elab.async false

variable {s : State} {w v a b : W} {c : CoreId} {n k i : Nat} {d0 d1 : Word32}

/-! The straggler windows. -/

/-- No window runs at a position (R92, R93). -/
def Resting {τ : Type} (mode : SeamMode) (p : Pos τ) : Prop :=
  if mode = .tmr then p.accepted = none ∧ p.toks.length ≠ 2 else p.toks.length ≠ 1

theorem expire_resting {τ : Type} {mode : SeamMode} {p : Pos τ} {slots : List Nat} (rests : Resting mode p) :
    p.expire (mode == .tmr) slots = none := by
  unfold Resting at rests
  unfold Pos.expire
  dsimp only
  by_cases tmr : mode = .tmr
  · rw [if_pos tmr] at rests
    have test : (mode == SeamMode.tmr) = true := beq_iff_eq.mpr tmr
    rw [if_pos test, rests.1, if_neg (by simp), if_neg rests.2]
  · rw [if_neg tmr] at rests
    have test : ¬ (mode == SeamMode.tmr) = true := fun h => tmr (beq_iff_eq.mp h)
    rw [if_neg test, if_neg rests]

theorem findSome_resting {τ : Type} {mode : SeamMode} {slots : List Nat} {l : List (Pos τ)} (rests : ∀ p ∈ l, Resting mode p) :
    l.findSome? (Pos.expire (mode == .tmr) slots) = none :=
  List.findSome?_eq_none_iff.mpr fun p mem => expire_resting (rests p mem)

theorem findSome_first {τ : Type} {mode : SeamMode} {slots : List Nat} {pre qs : List (Pos τ)} {p : Pos τ} {x : Verdict}
    (rests : ∀ p ∈ pre, Resting mode p) (found : p.expire (mode == .tmr) slots = some x) :
    (pre ++ p :: qs).findSome? (Pos.expire (mode == .tmr) slots) = some x := by
  rw [List.findSome?_append, findSome_resting rests, Option.none_or, List.findSome?_cons, found]

/-- The window that has expired, if one has. -/
def expired (x : Seam) : Option Verdict :=
  (x.commits.findSome? (Pos.expire (x.mode == .tmr) x.filled)).or (x.requests.findSome? (Pos.expire (x.mode == .tmr) x.filled))

theorem straggler_row : exec (.stragglerWindowExpiry c) s = .next (stateOf s (if (s.dev.seam c).mode = .halted then s.world
    else (expired (s.dev.seam c)).elim s.world fun v => s.world.verdict c v 2)) := by
  have row : exec (.stragglerWindowExpiry c) s = .next (stateOf s (if (s.dev.seam c).mode = .halted then s.world
    else match expired (s.dev.seam c) with
      | some v => s.world.verdict c v 2
      | none => s.world)) := rfl
  rw [row]
  cases expired (s.dev.seam c) <;> rfl

theorem straggler_halted (halted : (s.dev.seam c).mode = .halted) : Answers (.stragglerWindowExpiry c) s (Only s · id) :=
  ⟨_, straggler_row.trans (next_of (if_pos halted)), rfl⟩

theorem straggler_rests (commits : ∀ p ∈ (s.dev.seam c).commits, Resting (s.dev.seam c).mode p)
    (requests : ∀ p ∈ (s.dev.seam c).requests, Resting (s.dev.seam c).mode p) : Answers (.stragglerWindowExpiry c) s (Only s · id) := by
  have no : expired (s.dev.seam c) = none := by rw [expired, findSome_resting commits, findSome_resting requests, Option.none_or]
  refine ⟨_, straggler_row.trans (next_of (v' := s.world) ?_), rfl⟩
  rw [no, Option.elim_none, ite_self]

theorem straggler_expires {x : Verdict} (on : (s.dev.seam c).mode ≠ .halted) (found : expired (s.dev.seam c) = some x) :
    exec (.stragglerWindowExpiry c) s = .next (stateOf s (s.world.verdict c x 2)) :=
  straggler_row.trans (next_of ((if_neg on).trans (by rw [found, Option.elim_some])))

/-- The first slot that has not sent its token. -/
theorem missing_first {τ : Type} {x : Seam} {p : Pos τ} (low : i < 3) (seat : x.at i = some k) (none_ : ∀ y ∈ p.toks, y.1 ≠ i)
    (before : ∀ j, j < i → (x.at j).isSome = true → ∃ y ∈ p.toks, y.1 = j) :
    (x.filled.filter fun i => !p.toks.any fun y => y.1 == i).head? = some i := by
  have misses (j : Nat) : (!p.toks.any fun y => y.1 == j) = true ↔ ∀ y ∈ p.toks, y.1 ≠ j := by
    rw [Bool.not_eq_true', List.any_eq_false]
    simp only [beq_iff_eq]
  unfold Seam.filled
  rw [List.filter_filter, List.head?_filter, List.find?_range_eq_some]
  refine ⟨?_, List.mem_range.mpr low, fun j less => ?_⟩
  · simp only [Bool.and_eq_true]
    exact ⟨(misses i).mpr none_, by rw [seat]; rfl⟩
  · rw [Bool.not_eq_true', Bool.eq_false_iff]
    intro both
    simp only [Bool.and_eq_true] at both
    obtain ⟨y, mem, own⟩ := before j less both.2
    exact (misses j).mp both.1 y mem own

/-- What the expiry of a window at position `p` does (R92, R93). -/
def Late {τ : Type} (s : State) (c : CoreId) (p : Pos τ) : Prop :=
  (∀ i k, (s.dev.seam c).mode = .tmr → p.accepted.isSome = true → i < 3 → (s.dev.seam c).at i = some k → (∀ y ∈ p.toks, y.1 ≠ i) →
    (∀ j, j < i → ((s.dev.seam c).at j).isSome = true → ∃ y ∈ p.toks, y.1 = j) →
    Answers (.stragglerWindowExpiry c) s (Leaves s · fun w => w.fence (unitOf c) k 2)) ∧
  ((s.dev.seam c).mode = .tmr → p.accepted = none → p.toks.length = 2 →
    Answers (.stragglerWindowExpiry c) s (Leaves s · fun w => w.haltCore c 2 (some 4))) ∧
  ((s.dev.seam c).mode = .dmr → p.toks.length = 1 →
    Answers (.stragglerWindowExpiry c) s (Leaves s · fun w => w.haltCore c 3 (some 4)))

theorem late_of {τ : Type} {p : Pos τ} (first : ∀ x, p.expire ((s.dev.seam c).mode == .tmr) (s.dev.seam c).filled = some x →
    expired (s.dev.seam c) = some x) : Late s c p := by
  have tmr_ (tmr : (s.dev.seam c).mode = .tmr) : ((s.dev.seam c).mode == SeamMode.tmr) = true := beq_iff_eq.mpr tmr
  refine ⟨fun i k tmr accepted low seat none_ before => ?_, fun tmr open_ two => ?_, fun dmr one => ?_⟩
  · have found : p.expire ((s.dev.seam c).mode == .tmr) (s.dev.seam c).filled = some (.fence i) := by
      unfold Pos.expire
      dsimp only
      rw [if_pos (tmr_ tmr), if_pos accepted, missing_first low seat none_ before]
      rfl
    have verdict : s.world.verdict c (.fence i) 2 = s.world.fence (unitOf c) k 2 := by
      unfold W.verdict
      dsimp only
      rw [show (s.world.dev.seam c).at i = some k from seat]
    exact ⟨_, (straggler_expires (by rw [tmr]; decide) (first _ found)).trans (next_of verdict), rfl⟩
  · have found : p.expire ((s.dev.seam c).mode == .tmr) (s.dev.seam c).filled = some (.halt 2) := by
      unfold Pos.expire
      dsimp only
      rw [if_pos (tmr_ tmr), open_, if_neg (by simp), if_pos two]
    exact ⟨_, straggler_expires (by rw [tmr]; decide) (first _ found), rfl⟩
  · have found : p.expire ((s.dev.seam c).mode == .tmr) (s.dev.seam c).filled = some (.halt 3) := by
      unfold Pos.expire
      dsimp only
      rw [if_neg (by rw [dmr]; decide), if_pos one]
    exact ⟨_, straggler_expires (by rw [dmr]; decide) (first _ found), rfl⟩

theorem late_commit {pre qs : List (Pos CommitTok)} {p : Pos CommitTok} (there : (s.dev.seam c).commits = pre ++ p :: qs)
    (rests : ∀ q ∈ pre, Resting (s.dev.seam c).mode q) : Late s c p :=
  late_of fun x found => by rw [expired, there, findSome_first rests found, Option.some_or]

theorem late_request {pre qs : List (Pos RequestTok)} {p : Pos RequestTok} (commits : ∀ q ∈ (s.dev.seam c).commits, Resting (s.dev.seam c).mode q)
    (there : (s.dev.seam c).requests = pre ++ p :: qs) (rests : ∀ q ∈ pre, Resting (s.dev.seam c).mode q) : Late s c p :=
  late_of fun x found => by rw [expired, findSome_resting commits, Option.none_or, there, findSome_first rests found]

/-! The stall monitors (R97, R235). -/

/-- The monitor of a lane expires. -/
theorem stall_lane {u : UnitId} {l : LaneNo} : match s.world.seat u l with
    | none => Answers (.stallMonitorExpiry (.lane u l)) s (Only s · id)
    | some (k, _) =>
      if (s.dev.seam k).rethread.isSome = true ∨ (s.world.laneAt u l).st ≠ .active ∨ (s.dev.seam k).shown = .halted then
        Answers (.stallMonitorExpiry (.lane u l)) s (Only s · id)
      else Answers (.stallMonitorExpiry (.lane u l)) s (Leaves s · fun w =>
        if (s.dev.seam k).shown = .tmr then w.fence u l 4 else w.haltCore k 6 (some 4)) := by
  have row : exec (.stallMonitorExpiry (.lane u l)) s = .next (stateOf s (match s.world.seat u l with
    | none => s.world
    | some (k, _) => if (s.dev.seam k).rethread.isSome ∨ (s.world.laneAt u l).st ≠ .active then s.world
      else match (s.dev.seam k).shown with
        | .tmr => s.world.fence u l 4
        | .dmr => s.world.haltCore k 6 (some 4)
        | .halted => s.world)) := rfl
  split
  · next none_ => exact ⟨_, row.trans (next_of (v' := s.world) (by rw [none_])), rfl⟩
  · next k j there =>
    rw [there] at row
    dsimp only at row
    by_cases rests : (s.dev.seam k).rethread.isSome = true ∨ (s.world.laneAt u l).st ≠ .active
    · rw [if_pos (rests.imp_right .inl)]
      exact ⟨_, row.trans (next_of (if_pos rests)), rfl⟩
    · rw [if_neg rests] at row
      have iff_ : ((s.dev.seam k).rethread.isSome = true ∨ (s.world.laneAt u l).st ≠ .active ∨ (s.dev.seam k).shown = .halted) ↔
          (s.dev.seam k).shown = .halted := by tauto
      simp only [iff_]
      cases shown : (s.dev.seam k).shown with
      | halted =>
        rw [if_pos rfl]
        exact ⟨_, row.trans (next_of (v' := s.world) (by rw [shown])), rfl⟩
      | tmr =>
        rw [if_neg (by decide)]
        exact ⟨_, row.trans (next_of (v' := s.world.fence u l 4) (by rw [shown])), rfl⟩
      | dmr =>
        rw [if_neg (by decide)]
        exact ⟨_, row.trans (next_of (v' := s.world.haltCore k 6 (some 4)) (by rw [shown])), rfl⟩

theorem stall_seam : Answers (.stallMonitorExpiry (.seam c)) s (Leaves s · fun w =>
    if (s.dev.seam c).rethread.isSome ∨ (s.dev.seam c).reset = true then w else w.haltCore c 5 (some 6)) := by
  have row : exec (.stallMonitorExpiry (.seam c)) s = .next (stateOf s (
    if (s.dev.seam c).rethread.isSome || (s.dev.seam c).reset then s.world else s.world.haltCore c 5 (some 6))) := rfl
  refine ⟨_, row.trans (next_of ?_), rfl⟩
  simp only [Bool.or_eq_true]

/-- A router stage reports. -/
theorem other_row {m : Word32} : exec (.stallMonitorExpiry (.other m)) s =
    .next (stateOf s (if m.toNat < 17 then s.world.routerFault m.toNat 6 else s.world)) := rfl

theorem plain_router {u : Nat} (low : u < 17) (small : i < 8) : Plain (laneSrc u i) := by
  unfold Plain Noted laneSrc
  split <;> omega

theorem source_router {u : Nat} (low : u < 17) (stage : i = 5 ∨ i = 6 ∨ i = 7) : (w.source (laneSrc u i)).isSome = true := by
  rcases stage with rfl | rfl | rfl <;> interval_cases u <;> rfl

/-- A router stage of hearth `u` reports: the level, and beside it nothing. -/
theorem router_hearth {u : Nat} (low : u < 16) (stage : i = 6 ∨ i = 7) :
    LevelDetected s (stateOf s (s.world.routerFault u i)) (laneSrc u i) 0 0 s.dev.clock.tb ∧ Kept s.world (s.world.routerFault u i) := by
  have found := level_alone (s := s) (d0 := 0) (d1 := 0) (plain_router (i := i) (by omega : u < 17) (by omega)) (source_router (by omega) (by omega))
  have kept : Kept s.world (s.world.level (laneSrc u i) 0 0) := kept_level
  have notStoker : ¬ (u = 16 ∧ ∀ x : W, x.dev.stoker.restarting = false) := by omega
  unfold W.routerFault
  dsimp only
  generalize s.world.level (laneSrc u i) 0 0 = v at found kept ⊢
  rw [if_neg fun h => by omega]
  split
  · exact ⟨levelDetected_congr (t := stateOf s v) rfl found.1, kept.trans ⟨rfl, rfl⟩⟩
  · exact ⟨found.1, kept⟩

/-- A router stage of the Stoker reports: the Stoker restarts. -/
theorem router_stoker (stage : i = 6 ∨ i = 7) :
    LevelDetected s (stateOf s (s.world.routerFault 16 i)) (laneSrc 16 i) 0 0 s.dev.clock.tb ∧
    (s.world.routerFault 16 i).dev.stoker.restarting = true := by
  have plain : Plain (laneSrc 16 i) := plain_router (by omega) (by omega)
  have found := level_alone (s := s) (d0 := 0) (d1 := 0) plain (source_router (u := 16) (by omega) (by omega))
  have noted := noted_level (s := s) (d0 := 0) (d1 := 0) plain
  have apart : laneSrc 16 i ≠ 0x0C5 := by
    rw [laneSrc, if_neg (by decide)]
    omega
  unfold W.routerFault
  dsimp only
  generalize s.world.level (laneSrc 16 i) 0 0 = v at found noted ⊢
  have hearth : ¬ (i = 6 ∧ 16 < 16) := fun h => absurd h.2 (by decide)
  rw [if_neg hearth]
  have falls := falls_of (s := s) plain apart noted found.1
  by_cases on : v.dev.stoker.restarting = true
  · rw [if_neg fun h => by rw [on] at h; cases h.2]
    rw [if_pos on] at falls
    exact falls
  · rw [if_pos ⟨rfl, eq_false_of_ne_true on⟩]
    rw [if_neg on] at falls
    generalize v.stokerDown = x at falls ⊢
    exact falls

end Sys2Proof.Proofs
end

section
/-! The halt of a core by its seam check (R101; O22). -/

namespace Sys2Proof.Proofs

open Machine Laws

set_option Elab.async false

variable {s : State} {w v a b : W} {n k i u l c : Nat} {d0 d1 : Word32} {cause : BitVec 3}

/-! What the ends of tests and rethreads leave beside the lanes and the answers. -/

/-- The parts of a device that the ends of tests leave. -/
def asidePart (d : Dev) : Tbl Seam × Chim × Regs × Sys × Clock := (d.seams, d.chim, d.regs, d.sys, d.clock)

/-- From `w` to `v` lanes change, tests are recorded and commands end. -/
structure Aside (n : Nat) (w v : W) : Prop where
  parts : asidePart v.dev = asidePart w.dev
  fuse : v.fuse = w.fuse
  due : v.due = w.due
  waiting : ∀ u, (v.dev.laneUnit u).waiting = (w.dev.laneUnit u).waiting
  src : v.dev.src n = w.dev.src n

theorem Aside.refl : Aside n w w := ⟨rfl, rfl, rfl, fun _ => rfl, rfl⟩

theorem Aside.trans (x : Aside n a b) (y : Aside n b v) : Aside n a v :=
  ⟨y.parts.trans x.parts, y.fuse.trans x.fuse, y.due.trans x.due, fun u => (y.waiting u).trans (x.waiting u), y.src.trans x.src⟩

theorem Aside.ite {p : Prop} [Decidable p] (x : Aside n a b) (y : Aside n a v) : Aside n a (if p then b else v) := by
  split <;> assumption

theorem Aside.each {α : Type} {xs : List α} {f : α → W → W} (y : ∀ x v, Aside n v (f x v)) (w : W) : Aside n w (w.each xs f) := by
  induction xs generalizing w with
  | nil => exact .refl
  | cons z xs ih => exact (y z w).trans (ih (f z w))

theorem Aside.upd {f : Dev → Dev} (x : Aside n a w)
    (same : ∀ d, asidePart (f d) = asidePart d ∧ (f d).laneUnits = d.laneUnits ∧ (f d).flue = d.flue := by exact fun _ => ⟨rfl, rfl, rfl⟩) :
    Aside n a (w.upd f) := by
  obtain ⟨parts, units, flue⟩ := same w.dev
  refine x.trans ⟨parts, rfl, rfl, fun u => ?_, ?_⟩
  · rw [upd_dev, Dev.laneUnit, Dev.laneUnit, units]
  · rw [upd_dev, Dev.src, Dev.src, flue]

theorem Aside.onLaneUnit {f : LaneUnit → LaneUnit} (x : Aside n a w) (same : ∀ y, (f y).waiting = y.waiting) :
    Aside n a (w.upd fun d => d.onLaneUnit k f) := by
  refine x.trans ⟨rfl, rfl, rfl, fun u => ?_, rfl⟩
  rw [upd_dev]
  by_cases own : u = k
  · subst own
    rw [laneUnit_onLaneUnit_self, same]
  · rw [laneUnit_onLaneUnit_ne _ _ _ _ own]

theorem aside_replied (h : Replied w v) : Aside n w v := by
  obtain ⟨x, y, rfl⟩ := h
  exact .upd .refl

theorem aside_inactive (ne : n ≠ k) : Aside n w (w.inactive k) := by
  obtain ⟨f, x, y, shape, srcs⟩ := inactive_shape (w := w) (k := k)
  rw [shape]
  exact ⟨rfl, rfl, rfl, fun _ => rfl, srcs n ne⟩

theorem aside_basteRec {o : Nat} {info : Word32} (ne : n ≠ 0x0F0) : Aside n w (w.basteRec u l o info) := by
  unfold W.basteRec
  exact (Aside.upd .refl).trans (.ite (Aside.trans (.upd .refl) (.ite (aside_inactive ne) .refl)) .refl)

theorem aside_basteNowDone {info : Word32} : Aside n w (w.basteNowDone u info) := aside_replied replied_finishAll

theorem aside_testRecord {o : Nat} (ne : n ≠ 0x0F0) : Aside n w (w.testRecord u l o) := by
  unfold W.testRecord
  extract_lets t o' info recorded
  have done : Aside n w recorded := aside_basteRec ne
  generalize recorded = v at done ⊢
  exact .ite (done.upd.trans aside_basteNowDone) done

theorem aside_sliceLost {o : Nat} (ne : n ≠ 0x0F0) : Aside n w (w.sliceLost u o) := by
  unfold W.sliceLost
  split
  · exact .refl
  · next l _ =>
    extract_lets info
    have done : Aside n w (w.basteRec u l o info) := aside_basteRec ne
    generalize w.basteRec u l o info = v at done ⊢
    exact done.upd.trans aside_basteNowDone

theorem aside_retestDone : Aside n w (w.retestDone u l) := by
  unfold W.retestDone
  refine .ite .refl ((aside_replied replied_finishAll).onLaneUnit fun y => ?_)
  dsimp only
  split <;> rfl

theorem aside_dropRejoin (ne : n ≠ 0x0F0) : Aside n w (w.dropRejoin u l) := by
  unfold W.dropRejoin
  have done : Aside n w (w.testRecord u l 0) := aside_testRecord ne
  generalize w.testRecord u l 0 = v at done ⊢
  have placed : Aside n w (if l = patchOf u then w.laneTo u l .spare else v.laneTo u l .fenced) := by
    have to_ {v : W} {st : LaneSt} (h : Aside n w v) : Aside n w (v.laneTo u l st) :=
      h.upd (f := fun d => d.onLane (laneKey u l) fun x => { x with st := st })
    exact .ite (to_ .refl) (to_ done)
  exact placed.trans aside_retestDone

theorem aside_fenceDone {o : Option Nat} : Aside n w (w.fenceDone u o) := by
  unfold W.fenceDone
  refine Aside.onLaneUnit (.each (fun _ _ => aside_replied replied_finish) w) fun y => ?_
  split <;> rfl

/-! A seam that is halted, and that no rethread waits for. -/

/-- Core `c` of unit `u` is HALTED with a cause, and no rethread is about to start in it. -/
structure Held (c u : Nat) (cause : BitVec 3) (w : W) : Prop where
  mode : (w.dev.seam c).mode = .halted
  cause : (w.dev.seam c).cause = cause
  commits : (w.dev.seam c).commits = []
  requests : (w.dev.seam c).requests = []
  rethread : (w.dev.seam c).rethread = none
  apart : ∀ x ∈ (w.dev.laneUnit u).waiting, x.1 ≠ c

theorem Held.congr (x : Held c u cause w) (seam : seamPart (v.dev.seam c) = seamPart (w.dev.seam c))
    (waiting : (v.dev.laneUnit u).waiting = (w.dev.laneUnit u).waiting) : Held c u cause v := by
  obtain ⟨mode, cause, commits, requests, rethread, apart⟩ := x
  exact ⟨(congrArg (fun y => y.mode) seam :).trans mode, (congrArg (fun y => y.cause) seam :).trans cause,
    (congrArg (fun y => y.commits) seam :).trans commits, (congrArg (fun y => y.requests) seam :).trans requests,
    (congrArg (fun y => y.rethread) seam :).trans rethread, by rw [waiting]; exact apart⟩

theorem Held.aside (x : Held c u cause w) (h : Aside n w v) : Held c u cause v := by
  have seams : v.dev.seams = w.dev.seams := congrArg Prod.fst h.parts
  exact x.congr (by rw [Dev.seam, Dev.seam, seams]) (h.waiting u)

theorem Held.kept (x : Held c u cause w) (placed : Placed w v) (kept : Kept w v) : Held c u cause v := by
  have units : v.dev.laneUnits = w.dev.laneUnits := (congrArg (fun d : Dev => d.laneUnits) kept.1 :)
  exact x.congr (placed.slots c) (by rw [Dev.laneUnit, Dev.laneUnit, units])

theorem Held.raise {m : Nat} (x : Held c u cause w) : Held c u cause (w.raise m d0 d1) :=
  x.kept (contained_raise (t := True) (.inl trivial)).placed (kept_raise _ _ _ _ _ _)

theorem Held.ite {p : Prop} [Decidable p] (x : Held c u cause a) (y : Held c u cause b) : Held c u cause (if p then a else b) := by
  split <;> assumption

theorem Held.each {α : Type} {xs : List α} {f : α → W → W} (y : ∀ x v, Held c u cause v → Held c u cause (f x v)) (h : Held c u cause w) :
    Held c u cause (w.each xs f) := by
  induction xs generalizing w with
  | nil => exact h
  | cons z xs ih => exact ih (y z w h)

theorem Held.upd {f : Dev → Dev} (x : Held c u cause w)
    (same : ∀ d, (f d).seams = d.seams ∧ (f d).laneUnits = d.laneUnits := by exact fun _ => ⟨rfl, rfl⟩) : Held c u cause (w.upd f) := by
  obtain ⟨seams, units⟩ := same w.dev
  exact x.congr (by rw [upd_dev, Dev.seam, Dev.seam, seams]) (by rw [upd_dev, Dev.laneUnit, Dev.laneUnit, units])

theorem Held.wakeDom {m : Nat} (x : Held c u cause w) : Held c u cause (w.wakeDom m) := by
  refine .ite x (Held.upd x fun d => ?_)
  dsimp only
  split <;> exact ⟨rfl, rfl⟩

theorem Held.wakeLanes {j : Nat} (x : Held c u cause w) : Held c u cause (w.wakeLanes j) := x.each fun _ _ h => h.wakeDom

/-- A rethread stall of another core. -/
theorem Held.stall {j l i : Nat} {o : Option (Nat × LaneSt)} (x : Held c u cause w) (ne : j ≠ c) : Held c u cause (w.stall j l i o) := by
  refine Held.wakeLanes (x.congr ?_ rfl)
  rw [upd_dev, seam_onSeam_ne _ _ _ _ (Ne.symm ne)]

/-- The unit's waiting rethreads change, and none is for the core. -/
theorem Held.onLaneUnit {f : LaneUnit → LaneUnit} (x : Held c u cause w) (apart : ∀ y ∈ (f (w.dev.laneUnit u)).waiting, y.1 ≠ c) :
    Held c u cause (w.upd fun d => d.onLaneUnit u f) := by
  obtain ⟨mode, cause, commits, requests, rethread, -⟩ := x
  exact ⟨mode, cause, commits, requests, rethread, by rw [upd_dev, laneUnit_onLaneUnit_self]; exact apart⟩

theorem Held.rejoin {j l i : Nat} (x : Held c u cause w) (ne : j ≠ c) : Held c u cause (w.rejoin u j l i) := by
  unfold W.rejoin
  have moved : Held c u cause (w.onLane u l fun x => { x with st := .rejoining, test := if l = patchOf u then .reinit else x.test }) := x.upd
  refine .ite (moved.onLaneUnit fun y mem => ?_) (moved.stall ne)
  rcases List.mem_append.mp mem with old | new
  · exact moved.apart y old
  · rw [List.mem_singleton.mp new]
    exact ne

theorem Held.nextRejoin (x : Held c u cause w) : Held c u cause (w.nextRejoin u) := by
  unfold W.nextRejoin
  split
  · exact x
  · next j l i r waits =>
    have apart := x.apart
    rw [waits] at apart
    refine .ite x (Held.stall (x.onLaneUnit fun y mem => apart y (List.mem_cons_of_mem _ mem)) (apart (j, l, i) List.mem_cons_self))

/-- The core that the patch lane serves runs in DMR (R103). -/
theorem nextDmr_dmr {j i : Nat} (found : w.nextDmr u = some (j, i)) : (w.dev.seam j).mode = .dmr := by
  unfold W.nextDmr at found
  obtain ⟨k, -, at_⟩ := List.exists_of_findSome?_eq_some found
  dsimp only at at_
  split at at_
  · next runs =>
    obtain ⟨y, -, same⟩ := Option.map_eq_some_iff.mp at_
    cases same
    exact runs.1
  · cases at_

theorem Held.serveDmr (x : Held c u cause w) : Held c u cause (w.serveDmr u) := by
  unfold W.serveDmr
  refine .ite x ?_
  split
  · next j i found =>
    refine x.rejoin fun own => ?_
    have dmr := nextDmr_dmr found
    rw [own, x.mode] at dmr
    cases dmr
  · exact x

theorem Held.restTests (x : Held c u cause w) : Held c u cause (w.restTests u) := by
  have tested {l : Nat} {v : W} (h : Held c u cause v) : Held c u cause (v.repairTest u l) := .ite (Held.upd (f := fun d => d.onLane (laneKey u l) _) h) h
  unfold W.restTests
  exact tested (x.each fun k v h => .ite h ((h.each fun _ _ => tested).aside (aside_fenceDone (n := 0))))

theorem Held.exhaustCheck (x : Held c u cause w) : Held c u cause (w.exhaustCheck u) := by
  unfold W.exhaustCheck
  split
  · exact .ite (Held.raise (x.onLaneUnit x.apart)) x
  · exact x

theorem Held.startRetests (x : Held c u cause w) : Held c u cause (w.startRetests u) := by
  unfold W.startRetests
  exact .ite x (x.each fun l v h => .ite (Held.upd (h.onLaneUnit h.apart)) h)

theorem Held.settleLanes (x : Held c u cause w) : Held c u cause (w.settleLanes u) := by
  have run {v : W} (h : Held c u cause v) : Held c u cause v.settleRun := .ite h.upd h
  exact run x.nextRejoin.serveDmr.restTests.exhaustCheck.startRetests

end Sys2Proof.Proofs
end

section
/-! The seam check, the routed tokens, and the monitors of the seams as a whole (R97, R98, R101; O22). -/

namespace Sys2Proof.Proofs

open Machine Laws

set_option Elab.async false

variable {s : State} {w v a b : W} {n k i u l c : Nat} {d0 d1 : Word32} {cause : BitVec 3}

/-! What the beginning of a halt leaves for its source. -/

/-- The parts of a device that a source is told by. -/
def toldBy (d : Dev) : Chim × Regs × Sys × Clock := (d.chim, d.regs, d.sys, d.clock)

/-- From `w` to `v` nothing changes that source `n` is told by. -/
structure Even (n : Nat) (w v : W) : Prop where
  parts : toldBy v.dev = toldBy w.dev
  fuse : v.fuse = w.fuse
  due : v.due = w.due
  src : v.dev.src n = w.dev.src n

theorem Even.refl : Even n w w := ⟨rfl, rfl, rfl, rfl⟩

theorem Even.trans (x : Even n a b) (y : Even n b v) : Even n a v :=
  ⟨y.parts.trans x.parts, y.fuse.trans x.fuse, y.due.trans x.due, y.src.trans x.src⟩

theorem Even.upd {f : Dev → Dev} (x : Even n a w) (same : toldBy (f w.dev) = toldBy w.dev ∧ (f w.dev).flue = w.dev.flue) : Even n a (w.upd f) := by
  obtain ⟨parts, flue⟩ := same
  refine x.trans ⟨parts, rfl, rfl, ?_⟩
  rw [upd_dev, Dev.src, Dev.src, flue]

theorem Aside.even (x : Aside n w v) : Even n w v := ⟨(congrArg Prod.snd x.parts :), x.fuse, x.due, x.src⟩

theorem even_cutFail {h : Nat} {r : Byte} : Even n w (w.cutFail h r) := by
  have phases (l : List Nat) (d : Dev) : toldBy (l.foldl (fun d h => d.onCutStat h fun s => { s with phase := 3 }) d) = toldBy d ∧
      (l.foldl (fun d h => d.onCutStat h fun s => { s with phase := 3 }) d).flue = d.flue := by
    induction l generalizing d with
    | nil => exact ⟨rfl, rfl⟩
    | cons h l ih => exact ih _
  refine .upd .refl ?_
  split
  · split
    · exact phases _ _
    · exact ⟨rfl, rfl⟩
  · exact ⟨rfl, rfl⟩

/-- A source that is told from where nothing has changed for it (R271). -/
theorem Even.level (x : Even n s.world v) (plain : Plain n) (there : (s.world.source n).isSome = true) :
    LevelDetected s (stateOf s (v.level n d0 d1)) n d0 d1 s.dev.clock.tb ∧ ∀ e ∈ (v.level n d0 d1).due, Noted e.1 := by
  obtain ⟨parts, fuse, due, src⟩ := x
  simp only [toldBy, Prod.mk.injEq] at parts
  obtain ⟨chim, regs, sys, clock⟩ := parts
  have none_ : v.due = [] := due
  have found := level_of (s := s) (d0 := d0) (d1 := d1) (source_congr (w := s.world) fuse chim n) (srcCfg_congr fuse chim regs) (congrArg Sys.mode sys)
    src none_ plain there
  rw [congrArg Clock.tb clock] at found
  refine ⟨found, ?_⟩
  have noted : ∀ e ∈ v.due, Noted e.1 := fun e mem => by rw [none_] at mem; cases mem
  unfold W.level
  split
  · exact noted
  · exact noted_raise plain noted

/-! The halt. -/

/-- The seam of a core halts: nothing of it leaves any more (R93, R101). -/
def seamHalted (cause : BitVec 3) (src : Option Nat) (x : Seam) : Seam :=
  { x with mode := .halted, cause := cause, commits := [], requests := [], reported := src }

/-- The halt of a core has begun. -/
def haltBegun (w : W) (k : Nat) (cause : BitVec 3) (src : Option Nat) : W :=
  (w.cutFail (unitOf k) 4).upd fun d =>
    let s := d.seam k
    let d := d.onSeam k (seamHalted cause (src.map (laneSrc (unitOf k) ·)))
    let d := d.onCore k fun c => { c with
      ipend := 0, wdtTrap := false, held := [], nheld := 0, sb := s.accepted c.sb,
      pend := (c.pend.takeWhile fun p => !s.requestOpen p.op (p.ck.priv k)).map fun p => { p with held := [], ahead := 0 } }
    d.onWdt k fun t => if t.st = .running ∧ t.paused.isNone then { t with paused := some d.clock.ivl, hardAt := none } else t

/-- The rethreads of a core that halts have ended. -/
def haltEnded (w : W) (k : Nat) (cause : BitVec 3) (src : Option Nat) : W :=
  ((haltBegun w k cause src).endRethread (unitOf k) k).fenceDone (unitOf k) (some k)

theorem haltCore_runs (on : (w.dev.seam k).mode ≠ .halted) (small : i ≠ 6) : w.haltCore k cause (some i) =
    (if k = 64 then ((haltEnded w k cause (some i)).level (laneSrc (unitOf k) i) (haltWord k cause.toNat) 0).stokerDown
      else (haltEnded w k cause (some i)).level (laneSrc (unitOf k) i) (haltWord k cause.toNat) 0).settleLanes (unitOf k) := by
  unfold W.haltCore
  dsimp only
  rw [if_neg on, if_neg small]
  rfl

theorem haltBegun_seam {src : Option Nat} : (haltBegun w k cause src).dev.seam k =
    seamHalted cause (src.map (laneSrc (unitOf k) ·)) ((w.cutFail (unitOf k) 4).dev.seam k) := by
  unfold haltBegun
  exact seam_onSeam_self _ _ _

theorem even_haltBegun {src : Option Nat} : Even n w (haltBegun w k cause src) := by
  unfold haltBegun
  exact even_cutFail.upd ⟨rfl, rfl⟩

/-- The rethreads of a core end: none stands, and none waits. -/
def rethreadsGone (w : W) (u k : Nat) : W := w.upd fun d =>
  (d.onSeam k fun s => { s with rethread := none }).onLaneUnit u fun x => { x with waiting := x.waiting.filter (fun x => x.1 != k) }

theorem aside_endRethread (ne : n ≠ 0x0F0) : Aside n (rethreadsGone w u k) (w.endRethread u k) := by
  unfold W.endRethread
  exact (Aside.ite (aside_sliceLost ne) .refl).trans (.each (fun _ _ => aside_dropRejoin ne) _)

theorem even_rethreadsGone : Even n w (rethreadsGone w u k) := .upd .refl ⟨rfl, rfl⟩

/-- The core stands HALTED after its rethreads. -/
theorem held_rethreadsGone {src : Option Nat} {x : Seam} (seam : w.dev.seam k = seamHalted cause src x) :
    Held k u cause (rethreadsGone w u k) := by
  have own : (rethreadsGone w u k).dev.seam k = { w.dev.seam k with rethread := none } :=
    seam_onSeam_self w.dev k fun s => { s with rethread := none }
  have waits : ((rethreadsGone w u k).dev.laneUnit u).waiting = (w.dev.laneUnit u).waiting.filter fun x => x.1 != k := by
    unfold rethreadsGone
    rw [upd_dev, laneUnit_onLaneUnit_self]
    rfl
  rw [seam] at own
  refine ⟨by rw [own]; rfl, by rw [own]; rfl, by rw [own]; rfl, by rw [own]; rfl, by rw [own], fun y mem => ?_⟩
  rw [waits] at mem
  simpa using (List.mem_filter.mp mem).2

theorem haltEnded_held {src : Option Nat} : Held k (unitOf k) cause (haltEnded w k cause src) :=
  ((held_rethreadsGone haltBegun_seam).aside (aside_endRethread (n := 0) (by decide))).aside (aside_fenceDone (n := 0))

theorem haltEnded_even {src : Option Nat} (ne : n ≠ 0x0F0) : Even n w (haltEnded w k cause src) :=
  ((even_haltBegun.trans even_rethreadsGone).trans (aside_endRethread ne).even).trans aside_fenceDone.even

/-! The Stoker, whose halt restarts it (R124). -/

/-- A seam that has been reset. -/
def Emptied (w : W) : Prop := (w.dev.seam 64).cause = 0 ∧ (w.dev.seam 64).commits = [] ∧ (w.dev.seam 64).requests = []

theorem Emptied.placed (x : Emptied w) (h : Placed w v) : Emptied v := by
  obtain ⟨cause, commits, requests⟩ := x
  have seam := h.slots 64
  exact ⟨(congrArg (fun y => y.cause) seam :).trans cause, (congrArg (fun y => y.commits) seam :).trans commits,
    (congrArg (fun y => y.requests) seam :).trans requests⟩

theorem emptied_coreReset : Emptied (w.coreReset 64) := by
  have cleared : Emptied ((w.dropRequesters (w.isCore 64)).clearCore 64) := by
    unfold W.clearCore Emptied
    dsimp only
    rw [upd_dev, seam_onSeam_self]
    exact ⟨rfl, rfl, rfl⟩
  unfold W.coreReset
  dsimp only
  rw [if_neg (by decide)]
  refine cleared.placed ?_
  unfold W.wdtHeld
  split
  · exact .ite .refl (contained_raise (t := True) (.inl trivial)).placed
  · exact .ite (contained_inactive (t := True)).placed .refl

theorem held_stokerDown : Held 64 16 0 w.stokerDown := by
  have halted : Held 64 16 0 (stokerHalted w) := by
    obtain ⟨cause, commits, requests⟩ := emptied_coreReset (w := w)
    unfold stokerHalted
    generalize w.coreReset 64 = x at cause commits requests
    have own : (((x.upd fun d => { d with stoker := { d.stoker with serving := false, restarting := true, pends := [] } }).upd fun d =>
        d.onSeam 64 fun s => { s with mode := .halted, a := none, b := none, c := none, rethread := none }).upd fun d =>
        d.onLaneUnit 16 fun x => { x with waiting := [], retestDue := [] }).dev.seam 64 =
        { x.dev.seam 64 with mode := .halted, a := none, b := none, c := none, rethread := none } :=
      seam_onSeam_self { x.dev with stoker := { x.dev.stoker with serving := false, restarting := true, pends := [] } } 64 fun s =>
        { s with mode := .halted, a := none, b := none, c := none, rethread := none }
    refine ⟨by rw [own], by rw [own]; exact cause, by rw [own]; exact commits, by rw [own]; exact requests, by rw [own], fun y mem => ?_⟩
    rw [upd_dev, laneUnit_onLaneUnit_self] at mem
    cases mem
  rw [stokerDown_eq]
  refine Held.each (fun l v h => .ite h ?_) (halted.aside (aside_sliceLost (n := 0) (by decide)))
  exact Held.upd (f := fun d => d.onLane (laneKey 16 l) _) h

/-! The seam check (R101). -/

theorem seamCheck_row {c : CoreId} : exec (.seamCheck c) s = .next (stateOf s (s.world.haltCore c 4 (some 5))) := rfl

theorem check_still {c : CoreId} (halted : (s.dev.seam c).mode = .halted) : Answers (.seamCheck c) s (Only s · id) :=
  ⟨_, seamCheck_row.trans (next_of (if_pos halted)), rfl⟩

theorem srcKept_settleLanes (plain : Plain n) (ne : n ≠ laneSrc u 2) : SrcKept n w (w.settleLanes u) :=
  (settles_settleLanes (l := 0) plain ne).src

theorem unitOf_lt {c : CoreId} : unitOf c < 17 := by
  have := c.isLt
  unfold unitOf
  split <;> omega

theorem check_halts {c : CoreId} (on : (s.dev.seam c).mode ≠ .halted) : Answers (.seamCheck c) s fun t =>
    let y := t.dev.seam c
    y.mode = .halted ∧ y.cause = (if c.val < 64 then 4 else 0) ∧ y.commits = [] ∧ y.requests = [] ∧ y.rethread = none ∧
    LevelDetected s t (laneSrc (unitOf c) 5) (haltWord c 4) 0 s.dev.clock.tb := by
  have high := c.isLt
  have low := unitOf_lt (c := c)
  have plain : Plain (laneSrc (unitOf c) 5) := plain_router low (by omega)
  have apart : laneSrc (unitOf c) 5 ≠ 0x0F0 ∧ laneSrc (unitOf c) 5 ≠ 0x0C5 ∧ laneSrc (unitOf c) 5 ≠ laneSrc (unitOf c) 2 := by
    unfold laneSrc
    split <;> omega
  refine ⟨_, seamCheck_row.trans (next_of (haltCore_runs on (by decide))), ?_⟩
  have even : Even (laneSrc (unitOf c) 5) s.world (haltEnded s.world c 4 (some 5)) := haltEnded_even apart.1
  have held : Held c (unitOf c) 4 (haltEnded s.world c 4 (some 5)) := haltEnded_held
  generalize haltEnded s.world c 4 (some 5) = v at even held
  obtain ⟨found, noted⟩ := even.level (d0 := haltWord c 4) (d1 := 0) plain (source_router low (.inl rfl))
  have told : Held c (unitOf c) 4 (v.level (laneSrc (unitOf c) 5) (haltWord c 4) 0) := .ite held held.raise
  change Held c (unitOf c) 4 (v.level (laneSrc (unitOf c) 5) (haltWord c (4 : BitVec 3).toNat) 0) at told
  change LevelDetected s (stateOf s (v.level (laneSrc (unitOf c) 5) (haltWord c (4 : BitVec 3).toNat) 0)) _ _ _ _ at found
  change ∀ e ∈ (v.level (laneSrc (unitOf c) 5) (haltWord c (4 : BitVec 3).toNat) 0).due, Noted e.1 at noted
  generalize v.level (laneSrc (unitOf c) 5) (haltWord c (4 : BitVec 3).toNat) 0 = x at told found noted ⊢
  have ended : ∃ z, (if c.val = 64 then x.stokerDown else x) = z ∧ SrcKept (laneSrc (unitOf c) 5) x z ∧
      Held c (unitOf c) (if c.val < 64 then 4 else 0) z := by
    by_cases stoker : c.val = 64
    · refine ⟨_, if_pos stoker, srcKept_stokerDown plain apart.2.1, ?_⟩
      have u : unitOf 64 = 16 := rfl
      rw [stoker, u, if_neg (by decide)]
      exact held_stokerDown
    · refine ⟨_, if_neg stoker, .refl, ?_⟩
      rw [if_pos (by omega)]
      exact told
  obtain ⟨z, same, kept, held⟩ := ended
  rw [same]
  have settled := kept.trans (srcKept_settleLanes (w := z) plain apart.2.2)
  have last := held.settleLanes
  generalize z.settleLanes (unitOf c) = y at settled last ⊢
  obtain ⟨mode, cause, commits, requests, rethread, -⟩ := last
  exact ⟨mode, cause, commits, requests, rethread, levelDetected_congr (t := stateOf s x) (t' := stateOf s y) (settled noted).1 found⟩

end Sys2Proof.Proofs
end

section
/-! What the entry of a trap and the fetch of its vector leave of the sources of the lanes and the routers (R98, R109, R164 to R169;
O22). -/

namespace Sys2Proof.Proofs

open Machine Laws

set_option Elab.async false

variable {w v a b : W} {n k u m l : Nat} {d0 d1 : Word32}

/-- A source of the lane controllers and the routers (R109). -/
def LaneSource (n : Nat) : Prop := 0x100 ≤ n ∧ n < 0x188

theorem LaneSource.plain (lane : LaneSource n) : Plain n := by
  unfold LaneSource at lane
  unfold Plain Noted
  omega

/-- Source `n`, one of the lanes and routers, stands from `w` to `v`, and a restart of the Stoker goes on. -/
structure Upheld (n : Nat) (w v : W) : Prop where
  src : LaneSource n → SrcKept n w v
  goes : w.dev.stoker.restarting = true → v.dev.stoker.restarting = true

theorem Upheld.refl : Upheld n w w := ⟨fun _ => .refl, id⟩

theorem Upheld.trans (x : Upheld n a b) (y : Upheld n b v) : Upheld n a v := ⟨fun lane => (x.src lane).trans (y.src lane), y.goes ∘ x.goes⟩

theorem Upheld.ite {p : Prop} [Decidable p] (x : Upheld n a b) (y : Upheld n a v) : Upheld n a (if p then b else v) := by
  split <;> assumption

theorem Upheld.iteSnd {α : Type} {x y : α × W} {p : Prop} [Decidable p] (hx : Upheld n a x.2) (hy : Upheld n a y.2) :
    Upheld n a (if p then x else y).2 := by
  split <;> assumption

theorem Upheld.pair {α : Type} {x : α} (y : Upheld n a w) : Upheld n a (x, w).2 := y

theorem Upheld.snd {α : Type} {x : α} {p : α × W} (y : Upheld n a p.2) (e : p = (x, b)) : Upheld n a b := by
  rw [e] at y
  exact y

theorem Upheld.each {α : Type} {xs : List α} {f : α → W → W} (y : ∀ x v, Upheld n v (f x v)) (w : W) : Upheld n w (w.each xs f) := by
  induction xs generalizing w with
  | nil => exact .refl
  | cons z xs ih => exact (y z w).trans (ih (f z w))

theorem Upheld.upd {f : Dev → Dev} (x : Upheld n a w)
    (same : ∀ d, (f d).flue = d.flue ∧ (f d).stoker = d.stoker := by exact fun _ => ⟨rfl, rfl⟩) : Upheld n a (w.upd f) :=
  x.trans ⟨fun _ => .upd fun d => (same d).1, fun on => by rw [upd_dev, (same _).2]; exact on⟩

theorem upheld_steady (h : Steady w v) : Upheld n w v := ⟨fun _ => .steady h, fun on => by rw [restarting_replied h]; exact on⟩

theorem upheld_setReg {t i o : Nat} {x : Word32} : Upheld n w (w.setReg t i o x) := .upd .refl

theorem upheld_countReg {t i o j : Nat} : Upheld n w (w.countReg t i o j) := upheld_setReg

/-- Another source is detected. -/
theorem upheld_raise (out : m < 0x100 ∨ 0x188 ≤ m) : Upheld n w (w.raise m d0 d1) := by
  refine ⟨fun lane => srcKept_raise lane.plain ?_, fun on => ?_⟩
  · unfold LaneSource at lane
    omega
  · have kept : Kept w (w.raise m d0 d1) := kept_raise _ _ _ _ _ _
    generalize w.raise m d0 d1 = v at kept ⊢
    rw [show v.dev.stoker.restarting = w.dev.stoker.restarting from (congrArg (fun d : Dev => d.stoker.restarting) kept.1 :)]
    exact on

theorem upheld_level (out : m < 0x100 ∨ 0x188 ≤ m) : Upheld n w (w.level m d0 d1) := .ite .refl (upheld_raise out)

theorem upheld_stokerDown : Upheld n w w.stokerDown := by
  refine ⟨fun lane => srcKept_stokerDown lane.plain ?_, fun _ => restarting_stokerDown⟩
  unfold LaneSource at lane
  omega

/-! The walls of a request (R178 to R181). -/

theorem upheld_fwRefuse {x : Addr} {r : Rid} {d : Dir} : Upheld n w (w.fwRefuse u x r d) := by
  unfold W.fwRefuse
  extract_lets counted debug logged told
  have first : Upheld n w counted := upheld_countReg
  refine .ite ?_ (first.trans ?_)
  · have log : Upheld n counted logged :=
      .ite .refl ((((upheld_setReg.trans upheld_setReg).trans upheld_setReg).trans upheld_setReg).trans upheld_setReg)
    have tell : Upheld n logged told := upheld_raise (by omega)
    exact ((first.trans log).trans tell).trans (.ite (upheld_raise (by omega)) .refl)
  · exact upheld_raise (by split <;> omega)

theorem upheld_fwCheck {x : Addr} {r : Rid} {d : Dir} : Upheld n w (w.fwCheck u x r d).2 := .iteSnd .refl (.pair upheld_fwRefuse)

theorem upheld_passes {r : Rid} {d : Dir} {as : List Nat} : Upheld n w (w.passes u r d as).2 := by
  induction as generalizing w with
  | nil => exact .refl
  | cons a as ih =>
    unfold W.passes
    split
    · next e => exact (upheld_fwCheck.snd e).trans ih
    · exact upheld_fwCheck

theorem upheld_admitFetch {r : Rid} {x s : Nat} : Upheld n w (w.admitLocal r x s .fetch).2 := by
  unfold W.admitLocal
  refine .iteSnd .refl (.iteSnd (.pair (upheld_raise (by omega))) ?_)
  have read : ¬ (Req.fetch.dir == Dir.write && (blockAt x).isSome) = true := nofun
  have plain : ¬ (Req.fetch.dir == Dir.atomic && !atomicTarget x) = true := nofun
  rw [if_neg read]
  split
  next ok v e =>
  have passed : Upheld n w v := upheld_passes.snd e
  refine .iteSnd passed ?_
  rw [if_neg plain]
  exact passed

/-! The targets of a fetch (R149, R173, R193 to R197, R352). -/

theorem upheld_wakeAt {x : Nat} : Upheld n w (w.wakeAt x) := by
  unfold W.wakeAt
  split
  · refine .ite .refl (.upd .refl fun d => ?_)
    dsimp only
    split <;> exact ⟨rfl, rfl⟩
  · exact .refl

theorem upheld_eccNote {r : Rid} {fixed : Bool} : Upheld n w (w.eccNote r fixed) := by
  unfold W.eccNote
  split
  · exact .ite (upheld_steady (steady_interrupt _ _ _)) .refl
  · exact .refl

theorem upheld_hobLog {x : Nat} {march : Bool} {c : ByteCode} : Upheld n w (w.hobLog u x march c).2 := by
  cases c with
  | good b => exact .refl
  | fixed b k => exact (upheld_steady (steady_hobCount _ _ _ _)).upd (f := fun d => d.onHob u fun y =>
      if march ∨ y.wbq.length ≥ 4 ∨ y.wbq.contains (x - hobBase u) then y else { y with wbq := y.wbq ++ [x - hobBase u] })
  | bad b k => exact upheld_steady (steady_hobCount _ _ _ _)

theorem hobLog_source {x : Nat} {march : Bool} {c : ByteCode} {e : Nat × Word32} {v : W} (found : w.hobLog u x march c = (some e, v)) :
    e.1 < 0x100 ∨ 0x188 ≤ e.1 := by
  have of_ {i : Nat} : hobSource i u < 0x100 ∨ 0x188 ≤ hobSource i u := by
    unfold hobSource
    split <;> omega
  cases c with
  | good b => cases found
  | fixed b k =>
    obtain ⟨same, -⟩ := Prod.mk.injEq _ _ _ _ ▸ found
    rw [← Option.some.inj same]
    exact of_
  | bad b k =>
    obtain ⟨same, -⟩ := Prod.mk.injEq _ _ _ _ ▸ found
    rw [← Option.some.inj same]
    exact of_

theorem upheld_hobScan {word : Nat} {march : Bool} : Upheld n w (w.hobScan u word march) := by
  refine .ite .refl (.each (fun i v => .ite ?_ .refl) w)
  unfold W.hobError
  split
  · next e => exact (upheld_hobLog.snd e).trans (upheld_raise (hobLog_source e))
  · next e => exact upheld_hobLog.snd e

theorem upheld_hobRead {r : Rid} {x s : Nat} : Upheld n w (w.hobRead r u x s).2 := by
  have awake {j : Nat} : Upheld n w ((w.wakeHob u).granted u j) := upheld_steady ((steady_wakeHob _ _).trans (steady_granted _ _ _))
  have scanned {v : W} {f : Nat → Nat} {l : List Nat} {fixed : Bool} : Upheld n v ((v.each l fun i w => w.hobScan u (f i) false).eccNote r fixed) :=
    (Upheld.each (fun _ _ => upheld_hobScan) v).trans upheld_eccNote
  exact awake.trans (.iteSnd .refl (.iteSnd scanned scanned))

theorem upheld_hobReadParts {r : Rid} {acc : List Byte} {ps : List (Nat × Nat)} : Upheld n w (w.hobReadParts r u acc ps).2 := by
  induction ps generalizing w acc with
  | nil => exact .refl
  | cons p ps ih =>
    unfold W.hobReadParts
    split
    · next e => exact (upheld_hobRead.snd e).trans ih
    · exact upheld_hobRead

theorem upheld_logFix {ch line i : Nat} {o : BitVec 4} {fix : Nat × BitVec 5} : Upheld n w (w.logFix ch line i o fix) := by
  unfold W.logFix
  extract_lets c next e low old
  exact .ite (.upd .refl) (.ite (.upd .refl) (.upd upheld_countReg))

theorem upheld_checkLine {line : Nat} : Upheld n w (w.checkLine line).2 := by
  unfold W.checkLine
  extract_lets x
  split
  next ch i _ =>
  extract_lets c r counted logged
  have log : Upheld n w logged := upheld_countReg.trans (.each (fun _ _ => upheld_logFix) _)
  exact .iteSnd (.pair (upheld_countReg.trans (upheld_raise (by omega)))) (.iteSnd .refl (.pair (log.trans (upheld_raise (by omega)))))

theorem upheld_readLines {ls : List Nat} : Upheld n w (w.readLines ls).2 := by
  have line {v : W} {l : Nat} : Upheld n v (v.readLine l).2 := upheld_checkLine.trans (.pair (.ite .refl (.upd .refl)))
  induction ls generalizing w with
  | nil => exact .refl
  | cons l ls ih =>
    rw [W.readLines]
    split
    · exact .pair (upheld_raise (by omega))
    split
    · exact .pair .refl
    split
    next r w1 e =>
    have read : Upheld n w w1 := line.snd e
    split
    · exact .pair read
    split
    · next e => exact .pair (read.trans (ih.snd e))
    · next e => exact .pair (read.trans (ih.snd e))

theorem upheld_dramRead {r : Rid} {x s : Nat} : Upheld n w (w.dramRead r x s).2 := by
  unfold W.dramRead
  split
  · next e => exact .pair ((upheld_readLines.snd e).trans upheld_eccNote)
  · next e => exact .pair (upheld_readLines.snd e)

/-- Where code may be fetched from there is no register, no window and no page of a queue. -/
theorem fetchTarget_plain {k x : Nat} (target : fetchTarget k x = true) : windowOf x = none ∧
    ((hobOf x).isSome = true ∨ (0x100000000 ≤ x ∧ blockAt x = none) ∨ (0x10000 ≤ x ∧ x < 0x40000)) := by
  unfold fetchTarget at target
  simp only [Bool.or_eq_true, Bool.and_eq_true, decide_eq_true_eq] at target
  have hob : (hobOf x).isSome = true → x < 0x20000000 := by
    unfold hobOf
    split
    · omega
    · split
      · omega
      · exact nofun
  rcases target with (isHob | ⟨low, high⟩) | ⟨⟨-, low⟩, high⟩
  · have := hob isHob
    exact ⟨if_neg (by omega), .inl isHob⟩
  · exact ⟨if_neg (by omega), .inr (.inl ⟨low, if_pos (by omega)⟩)⟩
  · exact ⟨if_neg (by omega), .inr (.inr ⟨low, high⟩)⟩

theorem upheld_serveFetch {r : Rid} {k x s : Nat} (target : fetchTarget k x = true) : Upheld n w (w.serveLocal r x s .fetch).2 := by
  obtain ⟨-, places⟩ := fetchTarget_plain target
  unfold W.serveLocal
  extract_lets awake
  have first : Upheld n w awake := upheld_wakeAt
  refine first.trans (.iteSnd (by split <;> exact .refl) (.iteSnd .refl ?_))
  by_cases rom : x < 0x40000
  · rw [if_pos rom]
    exact .refl
  · rw [if_neg rom]
    cases isHob : hobOf x with
    | some u => exact .iteSnd upheld_hobRead upheld_hobReadParts
    | none =>
      obtain ⟨low, plain⟩ : 0x100000000 ≤ x ∧ blockAt x = none := by
        rcases places with hob | dram | ⟨-, high⟩
        · rw [isHob] at hob
          cases hob
        · exact dram
        · omega
      dsimp only
      rw [if_neg (by omega), if_neg (by omega), if_neg (by omega), if_neg (by omega), plain]
      exact .iteSnd .refl ((Upheld.upd .refl).trans upheld_dramRead)

theorem upheld_fetch {r : Rid} {k x s : Nat} (target : fetchTarget k x = true) : Upheld n w (w.access r x s .fetch).2 := by
  obtain ⟨window, -⟩ := fetchTarget_plain target
  unfold W.access W.passWalls W.perform
  rw [window]
  dsimp only
  split
  · next e =>
    split at e
    · next e' => cases e; exact .pair (upheld_admitFetch.snd e')
    · cases e
  · next e =>
    split at e
    · cases e
    · next e' => cases e; exact (upheld_admitFetch.snd e').trans (upheld_serveFetch target)

/-! The entry of a trap. -/

theorem upheld_entryFault : Upheld n w (w.entryFault k) := by
  unfold W.entryFault
  extract_lets stopped
  have first : Upheld n w stopped := .upd .refl
  exact first.trans (.ite (upheld_level (by omega)) ((upheld_level (by omega)).trans upheld_stokerDown))

theorem upheld_enter {slot : Nat} {epc cause eaddr : Word64} {ipl : Option Nat} : Upheld n w (w.enter k slot epc cause eaddr ipl) := by
  unfold W.enter
  extract_lets entered x line
  have first : Upheld n w entered := .upd .refl
  refine first.trans ?_
  split
  · exact upheld_entryFault
  · next there =>
    have target : fetchTarget k line = true := by
      simp only [Bool.or_eq_true, Bool.not_eq_true', not_or, Bool.not_eq_false] at there
      exact there.1
    split
    · next e => exact ((upheld_fetch target).snd e).upd
    · next e => exact ((upheld_fetch target).snd e).trans upheld_entryFault

theorem upheld_enterTrap {code : Nat} {epc eaddr : Word64} {detail : Nat} : Upheld n w (w.enterTrap k code epc eaddr detail) := by
  have cut : Upheld n w (w.cutTrap k code) := .ite (upheld_steady (steady_cutFail _ _ _)) .refl
  exact (cut.trans (.ite (.upd .refl) .refl)).trans upheld_enter

theorem upheld_retireCore : Upheld n w (w.retireCore k) := by
  refine .ite .refl ?_
  split
  · exact .upd .refl
  · exact (Upheld.upd .refl).trans upheld_enterTrap

/-! A request that fails its check (R98). -/

theorem upheld_linkError {write : Bool} : Upheld n w (w.linkError k u write) := by
  unfold W.linkError
  refine .ite ?_ ?_
  · extract_lets es here
    have dropped : Upheld n w (w.when here fun w => w.upd fun d => d.onCore k fun q => { q with sb := q.sb.drop es.length }) :=
      .ite (.upd .refl) .refl
    exact dropped.trans (upheld_steady (steady_storeNotice _ _ _))
  · split
    · exact .ite (.upd .refl) ((Upheld.upd .refl).trans (.ite .refl upheld_retireCore))
    · exact .refl

theorem upheld_chanHalt {c : Nat} : Upheld n w (w.chanHalt u c) := ((Upheld.upd .refl).upd).trans (upheld_raise (by omega))

end Sys2Proof.Proofs
end

section
/-! The routed tokens, and the monitors of the seams and the routers as a whole (R92, R93, R97, R98, R101, R235; O22). -/

namespace Sys2Proof.Proofs

open Machine Laws

set_option Elab.async false

variable {s : State} {w v : W} {n : Nat}

/-- The requester of a token that fails its check gets its error (R98). -/
def tokenRefused (w : W) (u : Nat) (m : Rid) (write : Bool) : W :=
  let own := ridPos m == w.dev.chim.pos.toNat
  let i := ridIndex m
  if own && ridClass m == 0 && decide (i < 64) then w.linkError i u write
  else if own && ridClass m == 1 then w.linkError 64 u write
  else if own && ridClass m == 2 && ((w.dev.blw (i / 16)).chans.getD (i % 16) {}).running then w.chanHalt (i / 16) (i % 16)
  else w

theorem upheld_tokenRefused {u : Nat} {m : Rid} {write : Bool} : Upheld n w (tokenRefused w u m write) :=
  .ite upheld_linkError (.ite upheld_linkError (.ite upheld_chanHalt .refl))

theorem routed_row {u : UnitId} {m : Rid} {write : Bool} : exec (.routedToken u m write false) s =
    .next (stateOf s ((tokenRefused (s.world.routerFault u 7) u m write).answer (.error 3))) := rfl

/-- A token from another member gets no error here. -/
theorem tokenRefused_away {u : Nat} {m : Rid} {write : Bool} (away : ridPos m ≠ w.dev.chim.pos.toNat) : tokenRefused w u m write = w := by
  unfold tokenRefused
  have no : (ridPos m == w.dev.chim.pos.toNat) = false := beq_eq_false_iff_ne.mpr away
  dsimp only
  rw [no]
  rfl

theorem noted_routerFault {u : UnitId} : ∀ e ∈ (s.world.routerFault u 7).due, Noted e.1 := by
  have low := u.isLt
  have plain := plain_router (u := u.val) (i := 7) (by omega) (by omega)
  have told := noted_level (s := s) (d0 := 0) (d1 := 0) plain
  have lane : laneSrc u.val 7 ≠ 0x0C5 := by
    unfold laneSrc
    split <;> omega
  unfold W.routerFault
  dsimp only
  generalize s.world.level (laneSrc u.val 7) 0 0 = v at told ⊢
  have six : ¬ (7 = 6 ∧ u.val < 16) := fun h => absurd h.1 (by decide)
  rw [if_neg six]
  split
  · have down : SrcKept (laneSrc u.val 7) v v.stokerDown := srcKept_stokerDown plain lane
    generalize v.stokerDown = x at down ⊢
    exact (down told).2
  · exact told

theorem laneSource_router {u : UnitId} : LaneSource (laneSrc u.val 7) := by
  have low := u.isLt
  unfold LaneSource laneSrc
  split <;> omega

theorem routed_fails {u : UnitId} {m : Rid} {write : Bool} : Answers (.routedToken u m write false) s fun t =>
    LevelDetected s t (laneSrc u 7) 0 0 s.dev.clock.tb ∧ t.dev.out = .error 3 ∧
    (u.val = 16 → t.dev.stoker.restarting = true) ∧ (u.val < 16 → ridPos m ≠ s.dev.chim.pos.toNat → Beside s t id) := by
  have low := u.isLt
  refine ⟨_, routed_row, ?_⟩
  have noted := noted_routerFault (s := s) (u := u)
  have parts : LevelDetected s (stateOf s (s.world.routerFault u 7)) (laneSrc u 7) 0 0 s.dev.clock.tb ∧
      (u.val = 16 → (s.world.routerFault u 7).dev.stoker.restarting = true) ∧ (u.val < 16 → Kept s.world (s.world.routerFault u 7)) := by
    by_cases hearth : u.val < 16
    · obtain ⟨found, kept⟩ := router_hearth (s := s) (i := 7) hearth (.inr rfl)
      exact ⟨found, fun stoker => by omega, fun _ => kept⟩
    · have stoker : u.val = 16 := by omega
      obtain ⟨found, restarts⟩ := router_stoker (s := s) (i := 7) (.inr rfl)
      rw [stoker]
      exact ⟨found, fun _ => restarts, fun h => by omega⟩
  obtain ⟨found, restarts, kept⟩ := parts
  generalize s.world.routerFault u 7 = v at noted found restarts kept ⊢
  have upheld : Upheld (laneSrc u 7) v (tokenRefused v u m write) := upheld_tokenRefused
  have away : ridPos m ≠ v.dev.chim.pos.toNat → tokenRefused v u m write = v := tokenRefused_away
  generalize tokenRefused v u m write = x at upheld away ⊢
  refine ⟨levelDetected_congr (t := stateOf s v) ((upheld.src laneSource_router) noted).1 found, rfl,
    fun stoker => upheld.goes (restarts stoker), fun hearth far => ?_⟩
  have keep := kept hearth
  have pos : v.dev.chim.pos = s.dev.chim.pos := (congrArg (fun d : Dev => d.chim.pos) (untouched_kept keep) :)
  rw [away (by rw [pos]; exact far)]
  exact ⟨untouched_kept keep, rfl, rfl⟩

/-- Settles O22: the first window that runs decides, a stage that stalls is fenced or halts its core, the halt of a seam stands to the
end of its command, and a token that fails its check is told by its router. -/
theorem seamMonitors : Obligations.SeamMonitors := by
  intro s c u l h m wr n x uc idle late
  refine ⟨straggler_halted, straggler_rests, fun pre p qs there rests => late_commit there rests,
    fun pre p qs commits there rests => late_request commits there rests, stall_lane, stall_seam, ⟨_, rfl, rfl⟩, fun high => ?_, fun low => ?_,
    fun stoker => ?_, check_still, check_halts, ⟨_, rfl, rfl⟩, routed_fails⟩
  · exact ⟨_, other_row.trans (next_of (if_neg (by omega))), rfl⟩
  · obtain ⟨found, kept⟩ := router_hearth (s := s) (i := 6) low (.inl rfl)
    have src : laneSrc n.toNat 6 = 0x106 + 8 * n.toNat := by
      rw [laneSrc, if_pos low]
      omega
    rw [src] at found
    exact ⟨_, other_row.trans (next_of (if_pos (by omega))), found, beside_of_kept kept rfl⟩
  · obtain ⟨found, restarts⟩ := router_stoker (s := s) (i := 6) (.inl rfl)
    refine ⟨_, other_row.trans (next_of (if_pos (by omega))), ?_⟩
    rw [stoker]
    exact ⟨found, restarts⟩

end Sys2Proof.Proofs
end

section
/-! Protected blocks of the DRAM: what the check of a block just made finds (R348 to R352; O33). -/

namespace Sys2Proof.Proofs

open Machine Laws

set_option Elab.async false

variable {data : List Byte} {line : Nat} {n : BitVec 48} {epoch : Half}

set_option maxRecDepth 20000 in
/-- Each code word decodes to its byte (R195, R196). -/
theorem decode_encode (b : Byte) : decode13 (encode13 b) = .good b := by
  have each : ∀ k : Fin 256, decode13 (encode13 (BitVec.ofFin k)) = .good (BitVec.ofFin k) := by decide
  exact each b.toFin

set_option maxRecDepth 20000 in
/-- A code word is its byte and its five check bits. -/
theorem encode_parts (b : Byte) : BitVec.ofNat 13 (b.toNat + 256 * fld (encode13 b) 8 5) = encode13 b := by
  have each : ∀ k : Fin 256, BitVec.ofNat 13 (k.val + 256 * fld (encode13 (BitVec.ofFin k)) 8 5) = encode13 (BitVec.ofFin k) := by decide
  exact each b.toFin

theorem ofLe_le (k v : Nat) : ofLe (le k v) = v % 256 ^ k := by
  induction k generalizing v with
  | zero => exact (Nat.mod_one v).symm
  | succ k ih =>
    rw [le, ofLe, ih, BitVec.toNat_ofNat, pow_succ' 256, Nat.mod_mul]

theorem ofLe_le_toNat {k w : Nat} (v : BitVec w) (fits : 2 ^ w ≤ 256 ^ k) : ofLe (le k v.toNat) = v.toNat := by
  rw [ofLe_le, Nat.mod_eq_of_lt (Nat.lt_of_lt_of_le v.isLt fits)]

/-- The number that five bits for each byte spell. -/
def checkBits (data : List Byte) : Nat := data.foldr (fun b a => fld (encode13 b) 8 5 + 32 * a) 0

theorem checkBits_lt (data : List Byte) : checkBits data < 32 ^ data.length := by
  induction data with
  | nil => exact Nat.one_pos
  | cons b r ih =>
    have digit : fld (encode13 b) 8 5 < 32 := Nat.mod_lt _ (by decide)
    rw [checkBits, List.foldr_cons, ← checkBits, List.length_cons, pow_succ']
    omega

theorem checkBits_digit (data : List Byte) {i : Nat} (within : i < data.length) :
    checkBits data / 32 ^ i % 32 = fld (encode13 data[i]) 8 5 := by
  induction data generalizing i with
  | nil => exact absurd within (Nat.not_lt_zero _)
  | cons b r ih =>
    have digit : fld (encode13 b) 8 5 < 32 := Nat.mod_lt _ (by decide)
    rw [checkBits, List.foldr_cons, ← checkBits]
    cases i with
    | zero =>
      rw [pow_zero, Nat.div_one, Nat.add_mul_mod_self_left, Nat.mod_eq_of_lt digit]
      rfl
    | succ i =>
      rw [pow_succ', ← Nat.div_div_eq_div_mul, Nat.add_mul_div_left _ _ (by decide), Nat.div_eq_of_lt digit, Nat.zero_add]
      exact ih (Nat.lt_of_succ_lt_succ within)

theorem length_checkField : (checkField data).length = 40 := length_le _ _

theorem ofLe_checkField (long : data.length = 64) : ofLe (checkField data) = checkBits data := by
  have bound := checkBits_lt data
  rw [long] at bound
  exact (ofLe_le 40 _).trans (Nat.mod_eq_of_lt (bound.trans_eq (by decide)))

theorem length_blockHead (long : data.length = 64) : (blockHead data line n epoch).length = 120 := by
  simp only [blockHead, List.length_append, length_le, length_checkField, long]

theorem slice_mid {α : Type} {a b c : List α} {o k : Nat} (at_ : a.length = o) (long : b.length = k) : slice (a ++ b ++ c) o k = b := by
  rw [slice, List.append_assoc, ← at_, List.drop_left, ← long, List.take_left]

/-- A block, cut at the parts that its check reads. -/
theorem mkBlock_parts : mkBlock data line n epoch =
    data ++ checkField data ++ (le 8 line ++ le 6 n.toNat ++ le 2 epoch.toNat ++ le 8 (crc64 (blockHead data line n epoch)).toNat) := by
  simp only [mkBlock, blockHead, List.append_assoc]

theorem blockCell_mkBlock (long : data.length = 64) {i : Nat} (within : i < data.length) :
    blockCell (mkBlock data line n epoch) i = encode13 data[i] := by
  rw [blockCell, mkBlock_parts, slice_mid long length_checkField, ofLe_checkField long, checkBits_digit data within,
    List.append_assoc, List.getD_append _ _ _ _ within, List.getD_eq_getElem _ _ within, encode_parts]

theorem cells_mkBlock (long : data.length = 64) :
    (List.range 64).map (fun i => decode13 (blockCell (mkBlock data line n epoch) i)) = data.map .good := by
  refine List.ext_getElem (by simp [long]) fun i h _ => ?_
  have within : i < data.length := by simpa [long] using h
  rw [List.getElem_map, List.getElem_map, List.getElem_range, blockCell_mkBlock long within, decode_encode]

theorem values_good {f : ByteCode → Byte} (keeps : ∀ b, f (.good b) = b) : (data.map ByteCode.good).map f = data := by
  rw [List.map_map, show f ∘ ByteCode.good = id from funext keeps, List.map_id]

theorem any_good {f : ByteCode → Bool} (sound : ∀ b, f (.good b) = false) : (data.map ByteCode.good).any f = false := by
  rw [List.any_map]
  exact List.any_eq_false.mpr fun b _ => by rw [Function.comp_apply, sound]; exact Bool.false_ne_true

theorem getD_good (i : Nat) : ∃ b, (data.map ByteCode.good).getD i (.good 0) = .good b := ⟨data.getD i 0, by
  simp only [List.getD_eq_getElem?_getD, List.getElem?_map]
  cases data[i]? <;> rfl⟩

theorem filterMap_none {α β : Type} {f : α → Option β} {xs : List α} (empty : ∀ x, f x = none) : xs.filterMap f = [] :=
  List.filterMap_eq_nil_iff.mpr fun x _ => empty x

theorem drop_mkBlock (long : data.length = 64) :
    data ++ checkField data ++ (mkBlock data line n epoch).drop 104 = mkBlock data line n epoch := by
  have front : (data ++ checkField data).length = 104 := by rw [List.length_append, long, length_checkField]
  rw [mkBlock_parts, ← front, List.drop_left]

theorem take_mkBlock (long : data.length = 64) : (mkBlock data line n epoch).take 120 = blockHead data line n epoch := by
  rw [mkBlock, ← length_blockHead (line := line) (n := n) (epoch := epoch) long, List.take_left]

theorem slice_crc (long : data.length = 64) :
    ofLe (slice (mkBlock data line n epoch) 120 8) = (crc64 (blockHead data line n epoch)).toNat := by
  have last := slice_mid (a := blockHead data line n epoch) (c := []) (length_blockHead long)
    (length_le 8 (crc64 (blockHead data line n epoch)).toNat)
  rw [List.append_nil] at last
  rw [mkBlock]
  exact (congrArg ofLe last).trans (ofLe_le_toNat _ (by decide))

theorem slice_line (long : data.length = 64) (fits : line < 2 ^ 64) : ofLe (slice (mkBlock data line n epoch) 104 8) = line := by
  have front : (data ++ checkField data).length = 104 := by rw [List.length_append, long, length_checkField]
  rw [mkBlock_parts, List.append_assoc (le 8 line), List.append_assoc (le 8 line), ← List.append_assoc, slice_mid front (length_le 8 line),
    ofLe_le, Nat.mod_eq_of_lt (fits.trans_eq (by decide))]

theorem slice_count (long : data.length = 64) : ofLe (slice (mkBlock data line n epoch) 112 6) = n.toNat := by
  have front : (data ++ checkField data ++ le 8 line).length = 112 := by
    simp only [List.length_append, long, length_checkField, length_le]
  have parts : mkBlock data line n epoch = data ++ checkField data ++ le 8 line ++ le 6 n.toNat ++
      (le 2 epoch.toNat ++ le 8 (crc64 (blockHead data line n epoch)).toNat) := by
    simp only [mkBlock_parts, List.append_assoc]
  rw [parts, slice_mid front (length_le 6 n.toNat), ofLe_le_toNat _ (by decide)]

theorem slice_epoch (long : data.length = 64) : ofLe (slice (mkBlock data line n epoch) 118 2) = epoch.toNat := by
  have front : (data ++ checkField data ++ (le 8 line ++ le 6 n.toNat)).length = 118 := by
    simp only [List.length_append, long, length_checkField, length_le]
  rw [mkBlock_parts, List.append_assoc (le 8 line ++ le 6 n.toNat), ← List.append_assoc, ← List.append_assoc,
    slice_mid front (length_le 2 epoch.toNat), ofLe_le_toNat _ (by decide)]

/-- A block just made passes the bit checks and the CRC: what is left are its line, its epoch and its count. -/
theorem checkBlock_mkBlock (long : data.length = 64) (fits : line < 2 ^ 64) {l : Nat} {e : Half} {c : Option (BitVec 48)} :
    checkBlock (some (mkBlock data line n epoch)) l e c =
      if line ≠ l then ⟨3, [], []⟩ else if epoch.toNat ≠ e.toNat then ⟨4, [], []⟩
      else match c with
        | some c => if n.toNat ≠ c.toNat then ⟨5, [], []⟩ else ⟨0, data, []⟩
        | none => ⟨0, data, []⟩ := by
  have fixes : ∀ f : Nat → Option (Nat × BitVec 5), (∀ k, f k = none) → (List.range 64).filterMap f = [] := fun _ => filterMap_none
  rw [checkBlock]
  dsimp only
  rw [cells_mkBlock long, any_good fun _ => rfl, if_neg Bool.false_ne_true, values_good fun _ => rfl, fixes _ fun k => ?plain,
    drop_mkBlock long, take_mkBlock long, slice_crc long, if_pos rfl, slice_line long fits, slice_count long, slice_epoch long]
  · rfl
  case plain =>
    obtain ⟨b, good⟩ := getD_good (data := data) k
    rw [good]

/-- What is read back of a block: its data, unless the epoch or the recorded count differs (R352). -/
theorem block_reads_back (long : data.length = 64) (fits : line < 2 ^ 42) :
    checkBlock (some (mkBlock data line n epoch)) line epoch (some n) = ⟨0, data, []⟩ ∧
    checkBlock (some (mkBlock data line n epoch)) line epoch none = ⟨0, data, []⟩ ∧
    (∀ e, e ≠ epoch → (checkBlock (some (mkBlock data line n epoch)) line e none).outcome = 4) ∧
    (∀ c, c ≠ n → (checkBlock (some (mkBlock data line n epoch)) line epoch (some c)).outcome = 5) := by
  have fits64 : line < 2 ^ 64 := fits.trans (by decide)
  refine ⟨?_, ?_, fun e other => ?_, fun c other => ?_⟩
  all_goals rw [checkBlock_mkBlock long fits64, if_neg (not_not.mpr rfl)]
  · rw [if_neg (not_not.mpr rfl)]
    exact if_neg (not_not.mpr rfl)
  · rw [if_neg (not_not.mpr rfl)]
  · rw [if_pos fun same => other (BitVec.eq_of_toNat_eq same.symm)]
  · rw [if_neg (not_not.mpr rfl)]
    dsimp only
    rw [if_pos fun same => other (BitVec.eq_of_toNat_eq same.symm)]

end Sys2Proof.Proofs
end

section
/-! Requests to the DRAM: the gate, the boundary FIFOs, and reads and writes within a line (R351 to R354, R386; O33). -/

namespace Sys2Proof.Proofs

open Machine Laws

set_option Elab.async false

variable {s : State} {w v : W} {m : Rid} {a len : Nat} {addr : Addr} {bytes : List Byte} {act : W → Acc × W}

/-! The gate and the crossing. -/

theorem dramRead_off (off : s.dev.sys.mode = .off) : Answers (.dramRead m addr len) s (Only s · id) := ⟨_, next_of (if_pos off), rfl⟩

theorem dramWrite_off (off : s.dev.sys.mode = .off) : Answers (.dramWrite m addr bytes) s (Only s · id) := ⟨_, next_of (if_pos off), rfl⟩

theorem dramRead_empty (on : s.dev.sys.mode ≠ .off) : Answers (.dramRead m addr 0) s (Only s · fun d => { d with out := .bytes [] }) :=
  ⟨_, next_of (if_neg on), rfl⟩

theorem dramWrite_empty (on : s.dev.sys.mode ≠ .off) : Answers (.dramWrite m addr []) s (Only s · fun d => { d with out := .done }) :=
  ⟨_, next_of (if_neg on), rfl⟩

theorem dramRead_row (on : s.dev.sys.mode ≠ .off) (some_ : 0 < len) : exec (.dramRead m addr len) s = .next (stateOf s
    (let x := s.world.dramGate m addr.toNat len .read fun w => w.dramCross addr.toNat fun w => w.dramRead m addr.toNat len
     x.2.respond m len true x.1)) :=
  (next_of (if_neg on)).trans (next_of (if_neg some_.ne'))

theorem dramWrite_row (on : s.dev.sys.mode ≠ .off) (some_ : 0 < bytes.length) : exec (.dramWrite m addr bytes) s = .next (stateOf s
    (let x := s.world.dramGate m addr.toNat bytes.length .write fun w => w.dramCross addr.toNat fun w => w.dramWrite m addr.toNat bytes
     x.2.respond m bytes.length false x.1)) :=
  (next_of (if_neg on)).trans (next_of (if_neg fun empty => by
    rw [List.isEmpty_iff.mp empty] at some_
    exact absurd some_ (Nat.lt_irrefl 0)))

/-- An access within one granule checks that granule alone. -/
theorem granulesOf_same (some_ : 0 < len) (within : a % 256 + len ≤ 256) : granulesOf a len = [a / 256 * 256] := by
  have same : (a + len - 1) / 256 - a / 256 + 1 = 1 := by omega
  rw [granulesOf, same]
  rfl

/-- An admitted access within one granule goes on. -/
theorem dramGate_pass {dir : Dir} (low : a < 2 ^ 48) (some_ : 0 < len) (within : a % 256 + len ≤ 256) (first : w.dev.inDram a = true)
    (last : w.dev.inDram (a + len - 1) = true) (admits : w.fwAdmits 8 ((a / 256 * 256 - fwBase 8) / 256) m dir = true) :
    w.dramGate m a len dir act = act w := by
  have fits : a / 256 * 256 < 2 ^ 48 := Nat.lt_of_le_of_lt (Nat.div_mul_le_self _ _) low
  have granule : (BitVec.ofNat 48 (a / 256 * 256)).toNat = a / 256 * 256 := by rw [BitVec.toNat_ofNat, Nat.mod_eq_of_lt fits]
  have pass : w.fwCheck 8 (BitVec.ofNat 48 (a / 256 * 256)) m dir = (true, w) := fwCheck_pass _ _ _ _ _ (by rw [granule]; exact admits)
  have mapped : ¬ (w.dev.inDram a = false ∨ w.dev.inDram (a + len - 1) = false) := by rw [first, last]; decide
  rw [W.dramGate, if_neg mapped, granulesOf_same some_ within]
  simp only [W.passes, pass]

/-- The first of the two boundary FIFOs that serve an address. -/
def crossing (d : Dev) (a : Nat) : Nat := 10 + 2 * (d.dramMap (a - dramBase)).1

/-- One of them is full. -/
def Clogged (d : Dev) (a : Nat) : Prop := (d.fifo (crossing d a)).full 64 = true ∨ (d.fifo (crossing d a + 1)).full 64 = true

/-- A request and its response have crossed. -/
def bothCrossed (n : Nat) (d : Dev) : Dev := (d.crossed n).crossed (n + 1)

theorem dramCross_full (full : Clogged w.dev a) : w.dramCross a act = (.wait, w) := by
  have both : ((w.dev.fifo (crossing w.dev a)).full 64 || (w.dev.fifo (crossing w.dev a + 1)).full 64) = true := by
    rw [Bool.or_eq_true]
    exact full
  exact if_pos both

theorem dramCross_open (room : ¬ Clogged w.dev a) : w.dramCross a act = act (w.upd (bothCrossed (crossing w.dev a))) := by
  have open_ : ¬ (((w.dev.fifo (crossing w.dev a)).full 64 || (w.dev.fifo (crossing w.dev a + 1)).full 64) = true) := by
    rw [Bool.or_eq_true]
    exact room
  exact if_neg open_

theorem dramRead_waits (first : s.dev.inDram addr.toNat = true) (last : s.dev.inDram (addr.toNat + len - 1) = true) (some_ : 0 < len)
    (within : addr.toNat % 256 + len ≤ 256) (admits : s.world.fwAdmits 8 ((addr.toNat / 256 * 256 - fwBase 8) / 256) m .read = true)
    (full : Clogged s.dev addr.toNat) : Answers (.dramRead m addr len) s (Only s · id) := by
  by_cases off : s.dev.sys.mode = .off
  · exact dramRead_off off
  · refine ⟨_, dramRead_row off some_, ?_⟩
    dsimp only
    rw [dramGate_pass (w := s.world) addr.isLt some_ within first last admits, dramCross_full (w := s.world) full]
    rfl

/-! A line. -/

/-- What the check of a line finds. -/
def foundAt (d : Dev) (l : Nat) : BlockRead :=
  checkBlock (d.dram.blocks.get? l) l (d.chan (d.lineChan l)).epoch ((d.chan (d.lineChan l)).recorded l)

theorem linesOf_one (some_ : 0 < len) (within : a % 64 + len ≤ 64) : linesOf a len = [a / 64] := by
  have same : (a + len - 1) / 64 - a / 64 + 1 = 1 := by omega
  rw [linesOf, same]
  exact congrArg (fun n => [n]) (Nat.zero_add _)

theorem checkLine_clean {l : Nat} (clean : (foundAt w.dev l).outcome = 0) : w.checkLine l = (foundAt w.dev l, w) := by
  have good : (foundAt w.dev l).bad = false := by rw [BlockRead.bad, clean]; rfl
  exact (if_neg (Bool.eq_false_iff.mp good)).trans (if_pos clean)

theorem checkLine_bad {l : Nat} (bad : (foundAt w.dev l).bad = true) : w.checkLine l = (foundAt w.dev l,
    (w.countReg 10 (w.dev.lineChan l) 0x2C).raise (0x274 + w.dev.lineChan l) (w32 (l * 64 % 2 ^ 32)) (dramDetail (l * 64) (foundAt w.dev l).outcome)) :=
  if_pos bad

theorem readLine_clean {l : Nat} (clean : (foundAt w.dev l).outcome = 0) : w.readLine l = (foundAt w.dev l, w) := by
  unfold W.readLine
  rw [checkLine_clean clean]
  dsimp only
  rw [clean]
  exact congrArg (Prod.mk _) (if_pos (by simp))

theorem readLine_bad {l : Nat} (bad : (foundAt w.dev l).bad = true) : w.readLine l = w.checkLine l := by
  have found : (w.checkLine l).1.bad = true := by rw [checkLine_bad bad, bad]
  unfold W.readLine
  generalize w.checkLine l = p at found ⊢
  obtain ⟨r, v⟩ := p
  dsimp only at found ⊢
  rw [found]
  rfl

theorem eccNote_clean : w.eccNote m false = w := by
  unfold W.eccNote
  split <;> rfl

theorem dramRead_clean (some_ : 0 < len) (within : a % 64 + len ≤ 64) (kept : w.dev.retiredAt (a / 64 * 64) = false)
    (runs : w.dev.chanStopped (w.dev.lineChan (a / 64)) = false) (clean : (foundAt w.dev (a / 64)).outcome = 0) :
    w.dramRead m a len = (.data (slice (foundAt w.dev (a / 64)).data (a % 64) len), w) := by
  have good : (foundAt w.dev (a / 64)).bad = false := by rw [BlockRead.bad, clean]; rfl
  have one : w.readLines [a / 64] = (.ok ((foundAt w.dev (a / 64)).data ++ [], false || (foundAt w.dev (a / 64)).outcome != 0), w) := by
    simp only [W.readLines, kept, runs, readLine_clean clean, good, if_neg Bool.false_ne_true]
  rw [W.dramRead, linesOf_one some_ within, one]
  dsimp only
  rw [clean, List.append_nil]
  exact congrArg (Prod.mk _) eccNote_clean

theorem dramRead_bad (some_ : 0 < len) (within : a % 64 + len ≤ 64) (kept : w.dev.retiredAt (a / 64 * 64) = false)
    (runs : w.dev.chanStopped (w.dev.lineChan (a / 64)) = false) (bad : (foundAt w.dev (a / 64)).bad = true) :
    w.dramRead m a len = (.err eUncorr, (w.checkLine (a / 64)).2) := by
  have one : w.readLines [a / 64] = (.error eUncorr, (w.checkLine (a / 64)).2) := by
    simp only [W.readLines, kept, runs, if_neg Bool.false_ne_true, readLine_bad bad, checkLine_bad bad, if_pos bad]
  rw [W.dramRead, linesOf_one some_ within, one]

theorem lineParts_one {n : Nat} (some_ : 0 < bytes.length) (within : a % 64 + bytes.length ≤ 64) :
    lineParts (n + 2) a bytes = [(a / 64, a % 64, bytes)] := by
  have full : bytes.isEmpty = false := List.isEmpty_eq_false_iff.mpr (List.ne_nil_of_length_pos some_)
  have whole : bytes.take (64 - a % 64) = bytes := List.take_of_length_le (by omega)
  have none_ : bytes.drop (64 - a % 64) = [] := List.drop_eq_nil_of_le (by omega)
  rw [lineParts, full, if_neg Bool.false_ne_true]
  dsimp only
  rw [whole, none_]
  rfl

/-- A write within a line is one merge. -/
theorem dramWrite_one (some_ : 0 < bytes.length) (within : a % 64 + bytes.length ≤ 64) {x : W}
    (merged : w.mergeLine m (a / 64) (a % 64) bytes = (.done, x)) : w.dramWrite m a bytes = (.done, x) := by
  rw [W.dramWrite, lineParts_one some_ within]
  simp only [W.writeParts, merged]

theorem mergeLine_whole {l o : Nat} (kept : w.dev.retiredAt (l * 64) = false) (runs : w.dev.chanStopped (w.dev.lineChan l) = false)
    (whole : bytes.length = 64) : w.mergeLine m l o bytes = (.done, w.writeLine (w.dev.lineChan l) l bytes) := by
  refine (if_neg (Bool.eq_false_iff.mp kept)).trans ((if_neg (Bool.eq_false_iff.mp runs)).trans (if_pos whole))

theorem mergeLine_part {l o : Nat} (kept : w.dev.retiredAt (l * 64) = false) (runs : w.dev.chanStopped (w.dev.lineChan l) = false)
    (part : bytes.length < 64) (clean : (foundAt w.dev l).outcome = 0) : w.mergeLine m l o bytes = (.done, w.writeLine (w.dev.lineChan l) l
      ((foundAt w.dev l).data.take o ++ bytes ++ (foundAt w.dev l).data.drop (o + bytes.length))) := by
  have good : (foundAt w.dev l).bad = false := by rw [BlockRead.bad, clean]; rfl
  refine (if_neg (Bool.eq_false_iff.mp kept)).trans ((if_neg (Bool.eq_false_iff.mp runs)).trans ((if_neg part.ne).trans ?_))
  rw [checkLine_clean clean]
  refine (if_neg (Bool.eq_false_iff.mp good)).trans ?_
  rw [clean]
  exact congrArg (Prod.mk _) eccNote_clean

theorem writeLine_plain {ch l : Nat} {data : List Byte} (disarmed : w.flipArmed ch l = false) :
    w.writeLine ch l data = w.storeBlock ch l data (fun x => x) := if_neg (Bool.eq_false_iff.mp disarmed)

end Sys2Proof.Proofs
end

section
/-! Rows that read and write DRAM lines, and the events of a bad line (R351 to R354; O33). -/

namespace Sys2Proof.Proofs

open Machine Laws

set_option Elab.async false

variable {s : State} {w v : W} {m : Rid} {len k : Nat} {addr : Addr} {bytes : List Byte}

/-- An access of `n` bytes within a line is admitted and served. -/
structure Ready (s : State) (m : Rid) (addr : Addr) (n : Nat) (dir : Dir) : Prop where
  on : s.dev.sys.mode ≠ .off
  some_ : 0 < n
  within : addr.toNat % 64 + n ≤ 64
  first : s.dev.inDram addr.toNat = true
  last : s.dev.inDram (addr.toNat + n - 1) = true
  admits : s.world.fwAdmits 8 ((addr.toNat / 256 * 256 - fwBase 8) / 256) m dir = true
  room : ¬ Clogged s.dev addr.toNat
  kept : s.dev.retiredAt (addr.toNat / 64 * 64) = false
  runs : s.dev.chanStopped (s.dev.lineChan (addr.toNat / 64)) = false

/-- An access that is ready crosses and acts. -/
theorem Ready.gate {n : Nat} {dir : Dir} {act : W → Acc × W} (h : Ready s m addr n dir) :
    (s.world.dramGate m addr.toNat n dir fun w => w.dramCross addr.toNat act) =
      act (s.world.upd (bothCrossed (crossing s.dev addr.toNat))) := by
  have within := h.within
  exact (dramGate_pass (w := s.world) addr.isLt h.some_ (by omega) h.first h.last h.admits).trans (dramCross_open (w := s.world) h.room)

/-- What the last checks of a block, of its line, its epoch and its count, answer. -/
def lastChecks (l : Nat) (e : Half) (c : Option (BitVec 48)) (data : List Byte) (b : List Byte) (o : Nat) (fs : List (Nat × BitVec 5)) : BlockRead :=
  if ofLe (slice b 104 8) ≠ l then (⟨3, [], []⟩ : BlockRead)
  else if ofLe (slice b 118 2) ≠ e.toNat then ⟨4, [], []⟩
  else match c with
    | some c => if ofLe (slice b 112 6) ≠ c.toNat then ⟨5, [], []⟩ else ⟨o, data, fs⟩
    | none => ⟨o, data, fs⟩

theorem lastChecks_long {l o : Nat} {e : Half} {c : Option (BitVec 48)} {data b : List Byte} {fs : List (Nat × BitVec 5)}
    (long : data.length = 64) : (lastChecks l e c data b o fs).outcome = 0 → (lastChecks l e c data b o fs).data.length = 64 := by
  unfold lastChecks
  split
  · exact fun no => absurd no (by decide)
  · split
    · exact fun no => absurd no (by decide)
    · cases c with
      | none => exact fun _ => long
      | some c =>
        dsimp only
        split
        · exact fun no => absurd no (by decide)
        · exact fun _ => long

/-- What the check of a block answers of one that is clean is a whole line. -/
theorem checkBlock_long {blk : Option (List Byte)} {l : Nat} {e : Half} {c : Option (BitVec 48)} :
    (checkBlock blk l e c).outcome = 0 → (checkBlock blk l e c).data.length = 64 := by
  cases blk with
  | none => exact fun no => absurd (show 2 = 0 from no) (by decide)
  | some b =>
    unfold checkBlock
    dsimp only
    split
    · exact fun no => absurd no (by decide)
    · split
      · exact lastChecks_long (by rw [List.length_map, List.length_map, List.length_range])
      · split
        · exact lastChecks_long (by rw [List.length_map, List.length_map, List.length_range])
        · exact fun no => absurd no (by decide)

/-- The answer to a read. -/
def readAnswer (len : Nat) (bs : List Byte) : Answer := if len ≤ 8 then .word (w64 (ofLe bs)) else .bytes bs

theorem read_clean (h : Ready s m addr len .read) (clean : (foundAt s.dev (addr.toNat / 64)).outcome = 0) :
    Answers (.dramRead m addr len) s (Only s · fun d => { bothCrossed (crossing s.dev addr.toNat) d with
      out := readAnswer len (slice (foundAt s.dev (addr.toNat / 64)).data (addr.toNat % 64) len) }) := by
  have within := h.within
  have long : (foundAt s.dev (addr.toNat / 64)).data.length = 64 := checkBlock_long clean
  have size : (slice (foundAt s.dev (addr.toNat / 64)).data (addr.toNat % 64) len).length = len := by
    rw [slice, List.length_take, List.length_drop, long]
    omega
  have read : (s.world.upd (bothCrossed (crossing s.dev addr.toNat))).dramRead m addr.toNat len =
      (.data (slice (foundAt s.dev (addr.toNat / 64)).data (addr.toNat % 64) len), s.world.upd (bothCrossed (crossing s.dev addr.toNat))) :=
    dramRead_clean (w := s.world.upd (bothCrossed (crossing s.dev addr.toNat))) (m := m) h.some_ h.within h.kept h.runs clean
  refine ⟨_, dramRead_row h.on h.some_, ?_⟩
  dsimp only
  rw [h.gate, read, readAnswer]
  rw [W.respond, size]
  rfl

/-! A bad line. -/

theorem source_chan (low : k < 4) : (w.source (0x274 + k)).isSome = true := by
  interval_cases k <;> rfl

theorem lineChan_lt {d : Dev} {l : Nat} : d.lineChan l < 4 := by
  unfold Dev.lineChan Dev.dramMap
  dsimp only
  have low : ∀ c ∈ d.dramChans, c < 4 := fun c mem => List.mem_range.mp (List.mem_of_mem_filter mem)
  rw [List.getD_eq_getElem?_getD]
  generalize hx : d.dramChans[(l * 64 - dramBase) / 256 % d.dramChans.length]? = x
  cases x with
  | none => exact Nat.zero_lt_succ _
  | some c => exact low c (List.mem_of_getElem? hx)

theorem plain_chan (low : k < 4) : Plain (0x274 + k) := by
  unfold Plain Noted
  omega

/-- A read that fails only answers. -/
theorem respond_failed {n e : Nat} : ∃ a, w.respond m n true (.err e) = w.answer a := by
  unfold W.respond refused
  dsimp only
  split
  all_goals exact ⟨_, rfl⟩

theorem regs_bothCrossed {c typ i o : Nat} : (w.upd (bothCrossed c)).reg typ i o = w.reg typ i o :=
  reg_congr (w := w) (w' := w.upd (bothCrossed c)) rfl rfl _ _ _ fun _ => rfl

/-- The counters of the channels are no records of the hobs' errors, and no configuration of a source. -/
theorem chanReg_plain (low : k < 4) : errReg (blockBase 10 k + 0x2C) = false := by
  interval_cases k <;> decide

theorem chanReg_apart {n : Nat} (low : k < 4) (small : n < 0x1000) : blockBase 2 0 + (0x1000 + 4 * n) ≠ blockBase 10 k + 0x2C := by
  have source : blockBase 2 0 = 0x20010000 := rfl
  have chan : blockBase 10 k = 0x20090000 + k * 0x4000 := rfl
  omega

/-- A bad line of channel `k` is counted, and its event told. -/
theorem badLine {n i : Nat} {d0 d1 : Word32} {a : Answer} (low : k < 4) (plain : Plain i) (there : (s.world.source i).isSome = true)
    (small : i < 0x1000) (told : v = ((s.world.upd (bothCrossed n)).countReg 10 k 0x2C).raise i d0 d1) :
    (stateOf s (v.answer a)).world.reg 10 k 0x2C = satInc (s.world.reg 10 k 0x2C) ∧ (stateOf s (v.answer a)).dev.dram = s.dev.dram ∧
      Detected s (stateOf s (v.answer a)) i d0 d1 s.dev.clock.tb := by
  have count : ((s.world.upd (bothCrossed n)).countReg 10 k 0x2C).reg 10 k 0x2C = satInc (s.world.reg 10 k 0x2C) := by
    rw [reg_countReg_self, regs_bothCrossed, satAdd_one]
  have cfg : ((s.world.upd (bothCrossed n)).countReg 10 k 0x2C).srcCfg i = s.world.srcCfg i :=
    (reg_setReg_ne _ _ _ _ _ _ _ _ (chanReg_apart low small)).trans regs_bothCrossed
  have source : ((s.world.upd (bothCrossed n)).countReg 10 k 0x2C).source i = s.world.source i := source_congr rfl rfl _
  have found := detected_of (d0 := d0) (d1 := d1) source cfg rfl rfl rfl plain there
  have kept : Kept ((s.world.upd (bothCrossed n)).countReg 10 k 0x2C) v := by
    rw [told]
    exact kept_raise _ _ _ _ _ _
  rw [← told] at found
  have reg := reg_kept kept (chanReg_plain low)
  have dram := (congrArg (fun d : Dev => d.dram) (untouched_kept kept) :)
  exact ⟨reg.trans count, dram, found⟩

/-- A bad line is counted and told, and a read of it fails. -/
theorem read_bad (h : Ready s m addr len .read) (bad : (foundAt s.dev (addr.toNat / 64)).bad = true) :
    Answers (.dramRead m addr len) s fun t =>
      t.world.reg 10 (s.dev.lineChan (addr.toNat / 64)) 0x2C = satInc (s.world.reg 10 (s.dev.lineChan (addr.toNat / 64)) 0x2C) ∧
      t.dev.dram = s.dev.dram ∧
      Detected s t (0x274 + s.dev.lineChan (addr.toNat / 64)) (w32 (addr.toNat / 64 * 64 % 2 ^ 32))
        (dramDetail (addr.toNat / 64 * 64) (foundAt s.dev (addr.toNat / 64)).outcome) s.dev.clock.tb := by
  have low : s.dev.lineChan (addr.toNat / 64) < 4 := lineChan_lt
  have read := dramRead_bad (w := s.world.upd (bothCrossed (crossing s.dev addr.toNat))) (m := m) h.some_ h.within h.kept h.runs bad
  rw [checkLine_bad (w := s.world.upd (bothCrossed (crossing s.dev addr.toNat))) bad] at read
  refine ⟨_, dramRead_row h.on h.some_, ?_⟩
  dsimp only
  rw [h.gate, read]
  dsimp only
  generalize hv : W.raise _ _ _ _ = v
  obtain ⟨a, answer⟩ := respond_failed (w := v) (m := m) (n := len) (e := eUncorr)
  rw [answer]
  exact badLine low (plain_chan low) (source_chan low) (by omega) hv.symm

/-! Writes. -/

/-- The device after `data` has been stored at line `l` of channel `ch`. -/
def lineStored (n ch l : Nat) (data : List Byte) (c : MemChan) (d : Dev) : Dev :=
  let d := bothCrossed n d
  ({ d with
    dram := { d.dram with blocks := d.dram.blocks.set l (mkBlock data l (c.wgen + 1) c.epoch), wbacks := d.dram.wbacks.filter fun x => x.1 != l }
    out := .done }).onChan ch fun c => { c with wgen := c.wgen + 1, recent := ((l, c.wgen + 1) :: c.recent.filter (fun p => p.1 != l)).take 1024 }

theorem flipArmed_bothCrossed {n ch l : Nat} : (w.upd (bothCrossed n)).flipArmed ch l = w.flipArmed ch l := by
  unfold W.flipArmed
  rw [regs_bothCrossed, regs_bothCrossed, regs_bothCrossed]

/-- A merge that writes a line without a flip stores its block. -/
theorem write_stored {data : List Byte} (h : Ready s m addr bytes.length .write)
    (disarmed : s.world.flipArmed (s.dev.lineChan (addr.toNat / 64)) (addr.toNat / 64) = false)
    (merged : (s.world.upd (bothCrossed (crossing s.dev addr.toNat))).mergeLine m (addr.toNat / 64) (addr.toNat % 64) bytes =
      (.done, (s.world.upd (bothCrossed (crossing s.dev addr.toNat))).writeLine (s.dev.lineChan (addr.toNat / 64)) (addr.toNat / 64) data)) :
    Answers (.dramWrite m addr bytes) s (Only s · (lineStored (crossing s.dev addr.toNat) (s.dev.lineChan (addr.toNat / 64)) (addr.toNat / 64)
      data (s.dev.chan (s.dev.lineChan (addr.toNat / 64))))) := by
  refine ⟨_, dramWrite_row h.on h.some_, ?_⟩
  dsimp only
  rw [h.gate, dramWrite_one h.some_ h.within merged, writeLine_plain (flipArmed_bothCrossed.trans disarmed)]
  rfl

theorem write_whole (h : Ready s m addr bytes.length .write) (whole : bytes.length = 64)
    (disarmed : s.world.flipArmed (s.dev.lineChan (addr.toNat / 64)) (addr.toNat / 64) = false) :
    Answers (.dramWrite m addr bytes) s (Only s · (lineStored (crossing s.dev addr.toNat) (s.dev.lineChan (addr.toNat / 64)) (addr.toNat / 64)
      bytes (s.dev.chan (s.dev.lineChan (addr.toNat / 64))))) :=
  write_stored h disarmed (mergeLine_whole (w := s.world.upd (bothCrossed (crossing s.dev addr.toNat))) h.kept h.runs whole)

theorem write_part (h : Ready s m addr bytes.length .write) (part : bytes.length < 64)
    (disarmed : s.world.flipArmed (s.dev.lineChan (addr.toNat / 64)) (addr.toNat / 64) = false)
    (clean : (foundAt s.dev (addr.toNat / 64)).outcome = 0) :
    Answers (.dramWrite m addr bytes) s (Only s · (lineStored (crossing s.dev addr.toNat) (s.dev.lineChan (addr.toNat / 64)) (addr.toNat / 64)
      ((foundAt s.dev (addr.toNat / 64)).data.take (addr.toNat % 64) ++ bytes ++
        (foundAt s.dev (addr.toNat / 64)).data.drop (addr.toNat % 64 + bytes.length)) (s.dev.chan (s.dev.lineChan (addr.toNat / 64))))) :=
  write_stored h disarmed (mergeLine_part (w := s.world.upd (bothCrossed (crossing s.dev addr.toNat))) h.kept h.runs part clean)

end Sys2Proof.Proofs
end

section
/-! The scrub engine: scrubs of clean lines, fills, and the overdue region (R357 to R359, R364; O33). -/

namespace Sys2Proof.Proofs

open Machine Laws

set_option Elab.async false

variable {s : State} {w v : W} {dur : Word64} {j : ScrubJob} {k l : Nat}

theorem get_foldl_set {α : Type} {rs : List Nat} {t : Tbl α} {x : α} :
    (rs.foldl (fun t r => t.set r x) t).get? k = if k ∈ rs then some x else t.get? k := by
  induction rs generalizing t with
  | nil => exact (if_neg List.not_mem_nil).symm
  | cons r rs ih =>
    rw [List.foldl_cons, ih]
    by_cases rest : k ∈ rs
    · rw [if_pos rest, if_pos (List.mem_cons_of_mem _ rest)]
    · rw [if_neg rest]
      by_cases here : k = r
      · rw [here, get_set_self, if_pos List.mem_cons_self]
      · rw [get_set_ne _ _ _ _ here, if_neg fun mem => (List.mem_cons.mp mem).elim here rest]

/-! The range of a job is told as scrubbed. -/

/-- A job has ended. -/
def scrubJobEnded (j : ScrubJob) (dur : Nat) (d : Dev) : Dev :=
  { d.advanceTb (j.since.toNat + dur) with dram := { d.dram with job := none } }

theorem endJob_eq {n : Nat} : w.endJob j n = w.upd (scrubJobEnded j n) := rfl

theorem kept_scrubCheck : Kept w w.scrubCheck := by
  unfold W.scrubCheck
  split
  · exact .ite _ kept_inactive (.refl _)
  · exact .ite _ kept_inactive (.refl _)

/-- The ages of the whole regions of a range begin again. -/
def regionsScrubbed (start len : Nat) (d : Dev) : Dev :=
  { d with dram := { d.dram with scrubbed := ((List.range d.regions).filter fun r =>
    decide (start - dramBase ≤ r * 0x4000000 ∧ (r + 1) * 0x4000000 ≤ start - dramBase + len)).foldl (fun t r => t.set r d.clock.ivl) d.dram.scrubbed } }

theorem scrubbedRange_runs {start len : Nat} (runs : ∀ k, w.dev.chanStopped k = false) :
    w.scrubbedRange start len = (w.upd (regionsScrubbed start len)).scrubCheck := by
  have none_ : w.dev.dramChans.any w.dev.chanStopped = false := List.any_eq_false.mpr fun k _ => Bool.eq_false_iff.mp (runs k)
  exact if_neg (Bool.eq_false_iff.mp none_)

/-- What the end of a job does of the DRAM beside the ages: nothing. -/
theorem scrubbedRange_dram {start len : Nat} : (w.scrubbedRange start len).dev.dram.blocks = w.dev.dram.blocks ∧
    (w.scrubbedRange start len).dev.dram.job = w.dev.dram.job := by
  unfold W.scrubbedRange
  dsimp only
  split
  · exact ⟨rfl, rfl⟩
  · have kept := kept_scrubCheck (w := w.upd (regionsScrubbed start len))
    have dram := (congrArg (fun d : Dev => d.dram) (untouched_kept kept) :)
    exact ⟨(congrArg (fun x : Dram => x.blocks) dram :), (congrArg (fun x : Dram => x.job) dram :)⟩

theorem replied_parts (h : Replied w v) : v.dev.dram = w.dev.dram ∧ v.dev.clock = w.dev.clock := by
  obtain ⟨x, y, rfl⟩ := h
  exact ⟨rfl, rfl⟩

/-! A scrub of clean lines. -/

theorem scrubLine_clean (runs : w.dev.chanStopped (w.dev.lineChan l) = false) (clean : (foundAt w.dev l).outcome = 0) :
    w.scrubLine l = (foundAt w.dev l, w) := by
  unfold W.scrubLine
  dsimp only
  rw [runs, if_neg Bool.false_ne_true, checkLine_clean clean]
  dsimp only
  rw [clean]
  exact congrArg (Prod.mk _) (if_pos (by simp))

theorem scrubLines_clean {ls : List Nat} {x : ScrubSum} (runs : ∀ k, w.dev.chanStopped k = false)
    (clean : ∀ l ∈ ls, w.dev.retiredAt (l * 64) = false ∧ (foundAt w.dev l).outcome = 0) :
    w.scrubLines x ls = ({ x with lines := x.lines + ls.length }, w) := by
  induction ls generalizing x with
  | nil => rfl
  | cons l ls ih =>
    obtain ⟨kept, found⟩ := clean l List.mem_cons_self
    have good : (foundAt w.dev l).bad = false := by rw [BlockRead.bad, found]; rfl
    unfold W.scrubLines
    rw [kept, if_neg Bool.false_ne_true, scrubLine_clean (runs _) found]
    dsimp only
    rw [good, if_neg Bool.false_ne_true, if_pos found, ih fun l mem => clean l (List.mem_cons_of_mem _ mem), List.length_cons]
    dsimp only
    rw [Nat.add_right_comm, Nat.add_assoc]

theorem length_linesOf : j.linesOf.length = j.len / 64 := by
  rw [ScrubJob.linesOf, List.length_map, List.length_range]

theorem scrub_still (none_ : ∀ j, s.dev.dram.job = some j → j.fill.isSome = true) : Answers (.scrubComplete dur) s (Only s · id) := by
  refine ⟨stateOf s s.world, next_of ?_, rfl⟩
  have same : s.world.dev.dram.job = s.dev.dram.job := rfl
  beta_reduce
  rw [same]
  cases job : s.dev.dram.job with
  | none => rfl
  | some j => exact if_pos (none_ j job)

/-- The summary of a scrub that found its lines clean. -/
def cleanSummary (j : ScrubJob) (dur : Nat) : List Byte :=
  le 8 j.start ++ le 8 (j.len / 64) ++ le 4 0 ++ le 4 0 ++ le 4 0 ++ le 4 0 ++ le 8 0 ++ le 8 dur

/-- How a scrub of clean lines leaves the device. -/
def scrubEnd (j : ScrubJob) (dur : Nat) (w : W) : W :=
  ((w.endJob j dur).scrubbedRange j.start j.len).finishAll 0x0503 0 sDone (cleanSummary j dur)

theorem scrub_clean (job : s.dev.dram.job = some j) (scrub : j.fill = none)
    (clean : ∀ l ∈ j.linesOf, s.dev.retiredAt (l * 64) = false ∧ (foundAt s.dev l).outcome = 0) (runs : ∀ k, s.dev.chanStopped k = false) :
    exec (.scrubComplete dur) s = .next (stateOf s (scrubEnd j dur.toNat s.world)) := by
  refine next_of ?_
  have same : s.world.dev.dram.job = s.dev.dram.job := rfl
  beta_reduce
  rw [same, job]
  dsimp only
  rw [scrub, if_neg (by decide), scrubLines_clean (w := s.world.endJob j dur.toNat) runs clean]
  dsimp only
  rw [ScrubSum.bytes, length_linesOf, Nat.zero_add]
  rfl

theorem scrub_ends (job : s.dev.dram.job = some j) (scrub : j.fill = none)
    (clean : ∀ l ∈ j.linesOf, s.dev.retiredAt (l * 64) = false ∧ (foundAt s.dev l).outcome = 0) (runs : ∀ k, s.dev.chanStopped k = false) :
    Answers (.scrubComplete dur) s fun t =>
      t.dev.dram = { s.dev.dram with job := none, scrubbed := t.dev.dram.scrubbed } ∧
      t.dev.clock = (s.dev.advanceTb (j.since.toNat + dur.toNat)).clock ∧
      (∀ r, t.dev.dram.scrubbed.get? r =
        if r < s.dev.regions ∧ j.start - dramBase ≤ r * 0x4000000 ∧ (r + 1) * 0x4000000 ≤ j.start - dramBase + j.len
        then some t.dev.clock.ivl else s.dev.dram.scrubbed.get? r) ∧
      Leaves s t (scrubEnd j dur.toNat) := by
  refine ⟨_, scrub_clean job scrub clean runs, ?_⟩
  have range : (s.world.endJob j dur.toNat).scrubbedRange j.start j.len =
      ((s.world.endJob j dur.toNat).upd (regionsScrubbed j.start j.len)).scrubCheck := scrubbedRange_runs runs
  have kept := kept_scrubCheck (w := (s.world.endJob j dur.toNat).upd (regionsScrubbed j.start j.len))
  rw [← range] at kept
  have dram := (congrArg (fun d : Dev => d.dram) (untouched_kept kept) :)
  have clock := (congrArg (fun d : Dev => d.clock) kept.1 :)
  obtain ⟨told, time⟩ := replied_parts (replied_finishAll (w := (s.world.endJob j dur.toNat).scrubbedRange j.start j.len) (opc := 0x0503)
    (key := 0) (status := sDone) (bs := cleanSummary j dur.toNat))
  replace dram := told.trans dram
  replace clock := time.trans clock
  change (scrubEnd j dur.toNat s.world).dev.dram = _ at dram
  change (scrubEnd j dur.toNat s.world).dev.clock = _ at clock
  refine ⟨?_, clock, fun r => ?_, rfl⟩
  · rw [stateOf_dev, dram]
    rfl
  · have scrubbed := (congrArg (fun x : Dram => x.scrubbed.get? r) dram :)
    refine (scrubbed.trans get_foldl_set).trans ?_
    rw [stateOf_dev, clock]
    refine if_congr ?_ rfl rfl
    rw [List.mem_filter, List.mem_range, decide_eq_true_iff]
    rfl

/-! A fill. -/

theorem fill_still (none_ : ∀ j, s.dev.dram.job = some j → j.fill = none) : Answers (.fillComplete dur) s (Only s · id) := by
  refine ⟨stateOf s s.world, next_of ?_, rfl⟩
  have same : s.world.dev.dram.job = s.dev.dram.job := rfl
  beta_reduce
  rw [same]
  cases job : s.dev.dram.job with
  | none => rfl
  | some j =>
    dsimp only
    rw [none_ j job]

/-- Between `a` and `w` the lines `done` have been filled. -/
structure Filling (a : Dev) (x : Word32) (done : List Nat) (w : W) : Prop where
  job : w.dev.dram.job = none
  chans : ∀ k, (w.dev.chan k).enabled = (a.chan k).enabled ∧ (w.dev.chan k).epoch = (a.chan k).epoch
  flips : ∀ c, c < 4 → bitAt (w.reg 10 c 0x4C) 0 = false
  blocks : ∀ l, if l ∈ done then ∃ n, w.dev.dram.blocks.get? l = some (mkBlock (fillLine x) l n (a.chan (a.lineChan l)).epoch)
    else w.dev.dram.blocks.get? l = a.dram.blocks.get? l

theorem Filling.line {a : Dev} {x : Word32} {done : List Nat} (h : Filling a x done w) (l : Nat) : w.dev.lineChan l = a.lineChan l := by
  have same : w.dev.dramChans = a.dramChans := List.filter_congr fun k _ => (h.chans k).1
  unfold Dev.lineChan Dev.dramMap
  rw [same]

theorem chan_onChan {d : Dev} {i : Nat} {f : MemChan → MemChan} : (d.onChan i f).chan k = if k = i then f (d.chan i) else d.chan k := by
  unfold Dev.chan Dev.onChan
  split
  · next same => rw [same]; exact getD_set_self _ _ _ _
  · next other => exact getD_set_ne _ _ _ _ _ other

theorem Filling.next {a : Dev} {x : Word32} {done : List Nat} (h : Filling a x done w) (l : Nat) :
    Filling a x (l :: done) (w.writeLine (w.dev.lineChan l) l (fillLine x)) := by
  have low : w.dev.lineChan l < 4 := lineChan_lt
  have disarmed : w.flipArmed (w.dev.lineChan l) l = false := by
    unfold W.flipArmed
    rw [h.flips _ low]
    rfl
  rw [writeLine_plain disarmed]
  have chans : ∀ k, ((w.storeBlock (w.dev.lineChan l) l (fillLine x) fun x => x).dev.chan k).enabled = (w.dev.chan k).enabled ∧
      ((w.storeBlock (w.dev.lineChan l) l (fillLine x) fun x => x).dev.chan k).epoch = (w.dev.chan k).epoch := by
    intro k
    unfold W.storeBlock
    dsimp only [W.upd]
    rw [chan_onChan]
    split
    · next same =>
      rw [same]
      exact ⟨rfl, rfl⟩
    · exact ⟨rfl, rfl⟩
  refine ⟨h.job, fun k => ⟨(chans k).1.trans (h.chans k).1, (chans k).2.trans (h.chans k).2⟩, fun c small => ?_, fun i => ?_⟩
  · rw [← h.flips c small]
    exact congrArg (fun x => bitAt x 0) (reg_congr (w := w) (w' := w.storeBlock (w.dev.lineChan l) l (fillLine x) fun x => x) rfl rfl _ _ _ fun _ => rfl)
  · have block : (w.storeBlock (w.dev.lineChan l) l (fillLine x) fun x => x).dev.dram.blocks.get? i =
        (w.dev.dram.blocks.set l (mkBlock (fillLine x) l ((w.dev.chan (w.dev.lineChan l)).wgen + 1) (w.dev.chan (w.dev.lineChan l)).epoch)).get? i := rfl
    rw [block]
    by_cases here : i = l
    · rw [here, if_pos List.mem_cons_self, get_set_self, h.line, (h.chans _).2]
      exact ⟨_, rfl⟩
    · rw [get_set_ne _ _ _ _ here]
      have rest : i ∈ l :: done ↔ i ∈ done := ⟨fun mem => (List.mem_cons.mp mem).resolve_left here, List.mem_cons_of_mem _⟩
      exact (if_congr rest rfl rfl).mpr (h.blocks i)

theorem Filling.each {a : Dev} {x : Word32} {done ls : List Nat} (h : Filling a x done w) :
    Filling a x (ls.reverse ++ done) (w.each ls fun l w => w.writeLine (w.dev.lineChan l) l (fillLine x)) := by
  induction ls generalizing w done with
  | nil => exact h
  | cons l ls ih =>
    rw [List.reverse_cons, List.append_assoc]
    exact ih (h.next l)

/-- The lines that a fill writes. -/
def fillLines (d : Dev) (j : ScrubJob) : List Nat := j.linesOf.filter fun l => !d.retiredAt (l * 64) && !d.chanStopped (d.lineChan l)

theorem mem_fillLines {d : Dev} : l ∈ fillLines d j ↔ l ∈ j.linesOf ∧ d.retiredAt (l * 64) = false ∧ d.chanStopped (d.lineChan l) = false := by
  rw [fillLines, List.mem_filter, Bool.and_eq_true, Bool.not_eq_true', Bool.not_eq_true']

/-- The device after a fill has written its lines. -/
def filled (j : ScrubJob) (x : Word32) (dur : Nat) (w : W) : W :=
  (w.endJob j dur).each (fillLines w.dev j) fun l w => w.writeLine (w.dev.lineChan l) l (fillLine x)

theorem fill_row {x : Word32} (job : s.dev.dram.job = some j) (fill : j.fill = some x) : exec (.fillComplete dur) s = .next (stateOf s
    (((filled j x dur.toNat s.world).scrubbedRange j.start j.len).finishAll 0x050A 0 sDone (le 8 (fillLines s.dev j).length))) := by
  refine next_of ?_
  have same : s.world.dev.dram.job = s.dev.dram.job := rfl
  beta_reduce
  rw [same, job]
  dsimp only
  rw [fill]
  rfl

theorem fill_ends {x : Word32} (job : s.dev.dram.job = some j) (fill : j.fill = some x)
    (disarmed : ∀ c, c < 4 → bitAt (s.world.reg 10 c 0x4C) 0 = false) : Answers (.fillComplete dur) s fun t => t.dev.dram.job = none ∧ ∀ l,
      if l ∈ j.linesOf ∧ s.dev.retiredAt (l * 64) = false ∧ s.dev.chanStopped (s.dev.lineChan l) = false then
        ∃ n, t.dev.dram.blocks.get? l = some (mkBlock (fillLine x) l n (s.dev.chan (s.dev.lineChan l)).epoch)
      else t.dev.dram.blocks.get? l = s.dev.dram.blocks.get? l := by
  refine ⟨_, fill_row job fill, ?_⟩
  have begun : Filling s.dev x [] (s.world.endJob j dur.toNat) := ⟨rfl, fun _ => ⟨rfl, rfl⟩, fun c small => ?_, fun l => ?_⟩
  · have done : Filling s.dev x _ (filled j x dur.toNat s.world) := begun.each
    obtain ⟨blocks, ended⟩ := scrubbedRange_dram (w := filled j x dur.toNat s.world) (start := j.start) (len := j.len)
    obtain ⟨dram, -⟩ := replied_parts (replied_finishAll (w := (filled j x dur.toNat s.world).scrubbedRange j.start j.len) (opc := 0x050A) (key := 0)
      (status := sDone) (bs := le 8 (fillLines s.dev j).length))
    beta_reduce
    rw [stateOf_dev, dram, blocks, ended]
    refine ⟨done.job, fun l => (if_congr (mem_fillLines.symm.trans ?_) rfl rfl).mpr (done.blocks l)⟩
    rw [List.append_nil, List.mem_reverse]
    rfl
  · rw [← disarmed c small]
    exact congrArg (fun x => bitAt x 0) (reg_congr (w := s.world) (w' := s.world.endJob j dur.toNat) rfl rfl _ _ _ fun _ => rfl)
  · exact (if_neg List.not_mem_nil).mpr rfl

/-! The oldest region. -/

theorem overdue_none (none_ : s.dev.oldestScrub = none) : Answers .scrubOverdue s (Only s · id) := by
  refine ⟨stateOf s s.world, next_of ?_, rfl⟩
  have same : s.world.dev.oldestScrub = s.dev.oldestScrub := rfl
  beta_reduce
  rw [same, none_]

theorem overdue_row {x : Nat} (oldest : s.dev.oldestScrub = some x) : exec .scrubOverdue s = .next (stateOf s
    ((s.world.upd fun d => d.advanceIvl (x + d.scrubLimit * 3600000000000 + 1)).level 0x280 0 0)) := by
  refine next_of ?_
  have same : s.world.dev.oldestScrub = s.dev.oldestScrub := rfl
  beta_reduce
  rw [same, oldest]

theorem overdue_told {x : Nat} (oldest : s.dev.oldestScrub = some x) : Answers .scrubOverdue s fun t =>
    ReachesIvl s t (x + s.dev.scrubLimit * 3600000000000 + 1) ∧ LevelDetected s t 0x280 0 0 t.dev.clock.tb := by
  have calm : Quiescent s (s.world.upd fun d => d.advanceIvl (x + d.scrubLimit * 3600000000000 + 1)) := .upd quiescent_world
  have told := levelDetected_level (n := 0x280) (d0 := 0) (d1 := 0) calm (by unfold Plain Noted; decide) rfl
  have kept : Kept (s.world.upd fun d => d.advanceIvl (x + d.scrubLimit * 3600000000000 + 1))
    ((s.world.upd fun d => d.advanceIvl (x + d.scrubLimit * 3600000000000 + 1)).level 0x280 0 0) := kept_level
  have clock : ((s.world.upd fun d => d.advanceIvl (x + d.scrubLimit * 3600000000000 + 1)).level 0x280 0 0).dev.clock =
      (s.world.upd fun d => d.advanceIvl (x + d.scrubLimit * 3600000000000 + 1)).dev.clock := (congrArg (fun d => d.clock) kept.1 :)
  refine ⟨_, overdue_row oldest, clock, ?_⟩
  rw [stateOf_dev, clock]
  exact told

/-- Settles O33: a block reads back as it was made, a request that is ready crosses and reads or writes one line, and the scrub engine
goes over the lines of its job. -/
theorem dramLines : Obligations.DramLines := by
  refine ⟨fun data line n epoch long fits => block_reads_back long fits, fun s m addr len bytes dur => ?_⟩
  refine ⟨fun off => ⟨dramRead_off off, dramWrite_off off⟩, fun on => ⟨dramRead_empty on, dramWrite_empty on⟩,
    fun first last some_ within admits full => dramRead_waits first last some_ within admits full,
    fun ready clean => ?_, fun ready bad => ?_, fun ready whole disarmed => ?_, fun ready part disarmed clean => ?_, scrub_still,
    fun j job scrub clean runs => scrub_ends job scrub clean runs, fill_still, fun j x job fill disarmed => fill_ends job fill disarmed,
    overdue_none, fun x oldest => overdue_told oldest⟩
  all_goals obtain ⟨on, some_, within, first, last, admits, room, kept, runs⟩ := ready
  · exact read_clean ⟨on, some_, within, first, last, admits, room, kept, runs⟩ clean
  · exact read_bad ⟨on, some_, within, first, last, admits, room, kept, runs⟩ bad
  · exact write_whole ⟨on, some_, within, first, last, admits, room, kept, runs⟩ whole disarmed
  · exact write_part ⟨on, some_, within, first, last, admits, room, kept, runs⟩ part disarmed clean

end Sys2Proof.Proofs
end

section
/-! What neither an event nor a transition of the mode reaches: the Pattern's generation, the steps done and the running image (R50; O16). -/

namespace Sys2Proof.Proofs

open Machine Laws

set_option Elab.async false

variable {w v : W} {k l h u a : Nat}

/-- The Pattern's generation, the age of the DRAM, what KINDLE has found, and the running image. -/
def firm (d : Dev) := (d.patGen, d.dram.born, d.sys.slotB, d.sys.stepsDone, d.sys.recovery, d.images.running)

/-- The world `v` is `w` in what `firm` names. -/
def Firm (w v : W) : Prop := firm v.dev = firm w.dev

theorem Firm.refl : Firm w w := rfl

theorem Firm.trans {a b c : W} (h : Firm a b) (k : Firm b c) : Firm a c := Eq.trans k h

theorem Firm.kept (h : Kept w v) : Firm w v := (congrArg firm (untouched_kept h) :)

theorem Firm.steady (h : Steady w v) : Firm w v := .kept h.kept

theorem Firm.upd {a : W} {f : Dev → Dev} (h : Firm a w) (same : ∀ d, firm (f d) = firm d := by exact fun _ => rfl) : Firm a (w.upd f) :=
  (same w.dev).trans h

theorem Firm.ite {a b c : W} {p : Prop} [Decidable p] (h : Firm a b) (k : Firm a c) : Firm a (if p then b else c) := by
  split <;> assumption

theorem Firm.iteSnd {α : Type} {a : W} {p : Prop} [Decidable p] {b c : α × W} (h : Firm a b.2) (k : Firm a c.2) : Firm a (if p then b else c).2 := by
  split <;> assumption

theorem Firm.pair {α : Type} {a b : W} {x : α} (h : Firm a b) : Firm a ((x, b) : α × W).2 := h

theorem Firm.snd {α : Type} {a b : W} {x : α} {p : α × W} (h : Firm a p.2) (e : p = (x, b)) : Firm a b := by
  rw [e] at h
  exact h

theorem Firm.each {α : Type} {a : W} {xs : List α} {f : α → W → W} (h : Firm a w) (k : ∀ x v, Firm v (f x v)) : Firm a (w.each xs f) := by
  induction xs generalizing w with
  | nil => exact h
  | cons x xs ih => exact ih (h.trans (k x w))

theorem Firm.foldl {α : Type} {f : Dev → α → Dev} (same : ∀ d x, firm (f d x) = firm d) (xs : List α) (d : Dev) : firm (xs.foldl f d) = firm d := by
  induction xs generalizing d with
  | nil => rfl
  | cons x xs ih => exact (ih _).trans (same d x)

/-! The DRAM and the hobs. -/

theorem firm_raise {n : Nat} {d0 d1 : Word32} : Firm w (w.raise n d0 d1) := .kept (kept_raise _ _ _ _ _ _)

theorem firm_countReg {typ i o n : Nat} : Firm w (w.countReg typ i o n) := .upd .refl

theorem firm_logFix {ch line m : Nat} {o : BitVec 4} {fix : Nat × BitVec 5} : Firm w (w.logFix ch line m o fix) :=
  .ite (.upd .refl) (.ite (.upd .refl) (Firm.upd .refl))

theorem firm_checkLine {line : Nat} : Firm w (w.checkLine line).2 :=
  .iteSnd (.pair (firm_countReg.trans firm_raise)) (.iteSnd .refl ((firm_countReg.each fun _ _ => firm_logFix).trans (.pair firm_raise)))

theorem firm_readLine {line : Nat} : Firm w (w.readLine line).2 := firm_checkLine.trans (.pair (.ite .refl (.upd .refl)))

theorem firm_readLines {ls : List Nat} : Firm w (w.readLines ls).2 := by
  induction ls generalizing w with
  | nil => exact .refl
  | cons l ls ih =>
    rw [W.readLines]
    split
    · exact firm_raise
    split
    · exact .refl
    split
    next r w1 e =>
    have h : Firm w w1 := firm_readLine.snd e
    split
    · exact h
    split
    · next e => exact h.trans (ih.snd e)
    · next e => exact h.trans (ih.snd e)

theorem firm_areaRead {o n : Nat} : Firm w (w.areaRead k o n).2 := by
  rw [W.areaRead]
  dsimp only
  refine .iteSnd .refl ?_
  split <;> next e => exact firm_readLines.snd e

theorem firm_hobWrites {bs : List Byte} : Firm w (w.hobWrites u k a bs) :=
  Firm.trans (.steady steady_hobWriteParts) (.steady (steady_put _ _ _))

theorem firm_hobError {march : Bool} {c : ByteCode} : Firm w (w.hobError u a march c) := by
  have logged := Firm.steady (steady_hobLog w u a march c).1
  unfold W.hobError
  split
  · next e => exact (logged.snd e).trans firm_raise
  · next e => exact logged.snd e

theorem firm_hobScan {word : Nat} {march : Bool} : Firm w (w.hobScan u word march) :=
  .ite .refl (.each .refl fun _ _ => .ite firm_hobError .refl)

theorem firm_eccNote {m : Rid} {fixed : Bool} : Firm w (w.eccNote m fixed) := by
  unfold W.eccNote
  split
  · exact .ite (.steady (steady_interrupt _ _ _)) .refl
  · exact .refl

theorem firm_hobRead {m : Rid} {n : Nat} : Firm w (w.hobRead m u a n).2 := by
  have awake : Firm w ((w.wakeHob u).granted u (hobMaster w.dev.chim.pos u m)) :=
    Firm.trans (.steady (steady_wakeHob _ _)) (.steady (steady_granted _ _ _))
  unfold W.hobRead
  dsimp only
  refine .iteSnd awake ?_
  have scanned := (awake.each (xs := List.range ((a + n - 1) / 32 - a / 32 + 1)) fun i v => firm_hobScan (w := v) (u := u) (word := a / 32 + i)
    (march := false))
  exact .iteSnd (scanned.trans firm_eccNote) (scanned.trans firm_eccNote)

theorem firm_copyHolds {n : Nat} {digest : List Byte} : Firm w (w.copyHolds u a n digest).2 := by
  refine .iteSnd .refl ?_
  split <;> next e => exact firm_hobRead.snd e

theorem firm_copyTo {o : Nat} {s : Machine.Section} : Firm w (w.copyTo k u o s).2 := by
  unfold W.copyTo
  split
  · next e => exact ((firm_areaRead.snd e).trans firm_hobWrites).trans firm_copyHolds
  · next e => exact firm_areaRead.snd e

theorem firm_startStokerCode {head : List Byte} : Firm w (w.startStokerCode head) := by
  unfold W.startStokerCode
  split
  · exact .refl
  · split
    · next e => exact (firm_copyTo.snd e).upd
    · next e => exact (firm_copyTo.snd e).trans firm_raise

/-! A transition of the mode. -/

theorem firm_dropRequesters {sel : Rid → Bool} : Firm w (w.dropRequesters sel) :=
  Firm.refl.each (fun _ _ => .steady (steady_abortOpen _ _ _)) |>.upd |>.trans (.kept (kept_settle _))

theorem firm_wdtHeld : Firm w w.wdtHeld := by
  unfold W.wdtHeld
  split
  · exact .kept kept_level
  · exact .ite (.kept kept_inactive) .refl

theorem firm_resetCompares : Firm w (w.resetCompares k) := .ite (.upd .refl) (Firm.refl.upd.upd.upd.upd)

theorem firm_coreReset : Firm w (w.coreReset k) :=
  firm_dropRequesters.trans (firm_resetCompares.upd (f := _)) |>.trans firm_wdtHeld |>.trans (.ite (.ite (.kept kept_inactive) .refl) .refl)

theorem firm_releaseChs : Firm w w.releaseChs := .each .refl fun _ _ => .ite (.upd .refl) .refl

theorem firm_dozeDown (d : Dev) : firm d.dozeDown = firm d := by
  unfold Dev.dozeDown
  generalize List.range 208 = l1
  generalize List.range 16 = l2
  generalize List.range 6 = l3
  generalize ([230, 231, 232, 233, 234, 236, 239, 240] : List Nat) = l4
  generalize List.range 17 = l5
  generalize List.range 64 = l6
  have onDom (g : Nat → Nat) (f : Domain → Domain) (l : List Nat) (d : Dev) : firm (l.foldl (fun d n => d.onDom (g n) f) d) = firm d :=
    Firm.foldl (f := fun d n => d.onDom (g n) f) (fun _ _ => rfl) l d
  have hobs (d : Dev) : firm (l5.foldl (fun d h => d.onHob h fun x => { x with power := .ret45 }) d) = firm d := 
    Firm.foldl (f := fun d h => d.onHob h fun x => { x with power := .ret45 }) (fun _ _ => rfl) l5 d
  have cores (d : Dev) : firm (l6.foldl (fun d k => d.onCore k fun x => { x with wait := .wait }) d) = firm d := 
    Firm.foldl (f := fun d k => d.onCore k fun x => { x with wait := .wait }) (fun _ _ => rfl) l6 d
  refine (cores _).trans ((hobs _).trans ?_)
  refine (onDom id _ l4 _).trans ((onDom (224 + ·) _ l3 _).trans ?_)
  exact (onDom (208 + ·) _ l2 _).trans (onDom id _ l1 _)

theorem firm_cancelErr : Firm w w.cancelErr := Firm.refl.upd.trans (.steady (steady_finishAll _ _ _ _ _))

theorem firm_firstPrepare : Firm w w.firstPrepare :=
  .ite .refl (Firm.refl.upd.trans (.ite .refl (.ite (.steady (steady_errRelease _)) (.upd .refl))))

theorem firm_leaveRunning {new : Mode} {p : Prop} [Decidable p] :
    Firm w (if p then ((w.stampMode new).each (List.range 64) fun n w => w.safeCh n).endCutover 4 else w.stampMode new) :=
  .ite ((Firm.steady (steady_stampMode w new)).each (fun _ _ => .upd .refl) |>.trans (.steady (steady_endCutover _ _)))
    (.steady (steady_stampMode w new))

theorem firm_setMode {new : Mode} : Firm w (w.setMode new) :=
  .ite .refl (firm_leaveRunning.trans (.ite .refl (.each .refl fun _ _ => firm_coreReset))
    |>.trans (.ite .refl (.each .refl fun _ _ => .steady steady_stopOne)) |>.trans (.ite (Firm.refl.upd.trans firm_releaseChs) .refl)
    |>.trans (.ite (.upd .refl) .refl) |>.trans (.ite (.upd .refl) .refl)
    |>.trans (.ite (Firm.refl.upd.trans firm_cancelErr) .refl) |>.trans (.ite (.steady (steady_dozeUp _)) .refl)
    |>.trans (.ite (Firm.upd (.ite .refl (.upd .refl)) firm_dozeDown) .refl) |>.trans (.ite firm_firstPrepare .refl)
    |>.trans (.ite (.steady (steady_startCores _)) .refl) |>.upd |>.trans (.steady (steady_errAuto _)))

end Sys2Proof.Proofs
end

section
/-! The steps 1 to 4 of KINDLE (R50, R51, R54, R199, R203; O16). -/

namespace Sys2Proof.Proofs

open Machine Laws

set_option Elab.async false

variable {s : State} {w v : W} {r : KindleResult} {k l h u n : Nat}

/-- How a world that may have blown fuses leaves the state. -/
def fuseState (s : State) (v : W) : State := { s with fuse := v.fuse, dev := v.dev, mem := s.mem.applyAll v.ops }

theorem fuseState_same (same : v.fuse = s.fuse) : fuseState s v = stateOf s v := by
  unfold fuseState stateOf
  rw [same]

theorem step_due (due : s.world.inStep (kindleStep r) = true) : exec (.kindleStepComplete r) s = .next (fuseState s (s.world.kindle r)) :=
  congrArg (fun v => Host.Outcome.next (fuseState s v)) (if_pos due)

theorem step_idle (idle : ¬ s.world.inStep (kindleStep r) = true) : Answers (.kindleStepComplete r) s (Only s · id) :=
  ⟨_, congrArg (fun v => Host.Outcome.next (fuseState s v)) (if_neg idle), rfl⟩

/-- A step is in progress in KINDLE alone. -/
theorem kindle_of_inStep (due : w.inStep n = true) : w.dev.sys.mode = .kindle := by
  unfold W.inStep at due
  simp only [Bool.and_eq_true, beq_iff_eq] at due
  exact due.1.1.1

/-- Step `n` is complete, and KINDLE goes on. -/
def StepEnds (s : State) (n : Nat) (t : State) : Prop := t.dev.sys.stepsDone = n :: s.dev.sys.stepsDone ∧ t.dev.sys.mode = .kindle

theorem step_halts {err step : BitVec 4} (due : s.world.inStep (kindleStep r) = true) (halts : s.world.kindle r = s.world.kindleHalt err step) :
    Answers (.kindleStepComplete r) s (Only s · fun d => { d with sys := { d.sys with kindleErr := err, errStep := step } }) :=
  ⟨_, step_due due, by rw [halts]; rfl⟩

/-! The self check. -/

theorem selfCheck_halts (due : s.world.inStep (kindleStep .selfCheck) = true) (lost : s.dev.clock.backup = true) :
    Answers (.kindleStepComplete .selfCheck) s (Only s · fun d => { d with sys := { d.sys with kindleErr := 1, errStep := 1 } }) :=
  step_halts due (if_pos lost)

/-- The Thimble once its heartbeat has been looked for. -/
def beatSeen (w : W) : Thimble := { w.dev.thm with up := w.isM && w.dev.thm.serves }

theorem selfCheck_runs (sound : w.dev.clock.backup = false) : w.stepSelfCheck = ((withThm w (beatSeen w)).notices).stepDone 1 := by
  unfold W.stepSelfCheck
  rw [if_neg (Bool.eq_false_iff.mp sound), onThm_still (f := fun t => { t with up := w.isM && t.serves }) rfl rfl]
  rfl

theorem selfCheck_without (due : s.world.inStep (kindleStep .selfCheck) = true) (sound : s.dev.clock.backup = false)
    (plain : s.fuse.variantM = false) : Answers (.kindleStepComplete .selfCheck) s (Only s · fun d => { d with
      sys := { d.sys with stepsDone := 1 :: d.sys.stepsDone }, thm := { d.thm with up := false } }) := by
  have without : s.world.isM = false := plain
  have quiet : (withThm s.world (beatSeen s.world)).notices = withThm s.world (beatSeen s.world) := if_pos (.inl without)
  refine ⟨_, step_due due, ?_⟩
  change Only s (fuseState s s.world.stepSelfCheck) _
  rw [selfCheck_runs sound, quiet, beatSeen, without]
  rfl

theorem selfCheck_with (due : s.world.inStep (kindleStep .selfCheck) = true) (sound : s.dev.clock.backup = false)
    (thimble : s.fuse.variantM = true) : Answers (.kindleStepComplete .selfCheck) s fun t => t.dev.thm.up = s.dev.thm.serves := by
  have with_ : s.world.isM = true := thimble
  refine ⟨_, step_due due, ?_⟩
  have thm : (s.world.stepSelfCheck).dev.thm = beatSeen s.world := by
    rw [selfCheck_runs sound]
    exact alike_notices.thm
  change s.world.stepSelfCheck.dev.thm.up = _
  rw [thm, beatSeen, with_]
  exact Bool.true_and _

/-! The fuses. -/

/-- The fuses have been read, and the base knows MEMBERS. -/
def fusesTaken (w : W) : W :=
  let m := w.dev.images.flash.rcd.members
  let n := if m = 0 then 1 else m
  { w with fuse := { w.fuse with provisioned := thirdBlown w.fuse.provisioned, field := thirdBlown w.fuse.field,
                                 returned := thirdBlown w.fuse.returned, scrapped := thirdBlown w.fuse.scrapped } }.upd
    fun d => { d with sys := { d.sys with fusesRead := true }, chim :=
      if d.chim.pos = 0 then { d.chim with members := n, down := { d.chim.down with st := if 1 < n.toNat then .training else .disabled } }
      else { d.chim with up := { d.chim.up with st := .training } } }

theorem stepFuses_true : w.stepFuses true =
    if (fusesTaken w).lifecycle = 4 then (fusesTaken w).kindleHalt 4 2 else (fusesTaken w).stepDone 2 := rfl

theorem fuses_read (due : s.world.inStep (kindleStep (.fuses true)) = true) : Answers (.kindleStepComplete (.fuses true)) s fun t =>
    t.fuse = { s.fuse with provisioned := thirdBlown s.fuse.provisioned, field := thirdBlown s.fuse.field,
                           returned := thirdBlown s.fuse.returned, scrapped := thirdBlown s.fuse.scrapped } ∧
    t.dev.sys.fusesRead = true ∧ t.mem = s.mem ∧
    (if t.world.lifecycle = 4 then t.dev.sys.kindleErr = 4 ∧ t.dev.sys.errStep = 2 ∧ t.dev.sys.stepsDone = s.dev.sys.stepsDone
     else StepEnds s 2 t) := by
  have mode : s.dev.sys.mode = .kindle := kindle_of_inStep due
  refine ⟨_, step_due due, ?_⟩
  have row : s.world.kindle (.fuses true) = s.world.stepFuses true := rfl
  rw [row, stepFuses_true]
  by_cases scrapped : (fusesTaken s.world).lifecycle = 4
  · rw [if_pos scrapped]
    exact ⟨rfl, rfl, rfl, (if_pos scrapped).mpr ⟨rfl, rfl, rfl⟩⟩
  · rw [if_neg scrapped]
    exact ⟨rfl, rfl, rfl, (if_neg scrapped).mpr ⟨rfl, mode⟩⟩

/-! The spares of the hobs. -/

theorem hob_fuseSpares {w : W} {u h : Nat} : (w.fuseSpares u).dev.hob h = if h = u then
    { w.dev.hob h with rowsFree := BitVec.ofNat 6 (spareRows u - (w.fuse.spares.getD u (0, 0)).1)
                       colsFree := BitVec.ofNat 4 (spareCols u - (w.fuse.spares.getD u (0, 0)).2) } else w.dev.hob h := by
  unfold W.fuseSpares
  dsimp only [W.upd]
  rw [hob_onHob]
  split
  · next same => rw [same]
  · rfl

theorem hob_each_fuseSpares {hs : List Nat} (mem : h ∈ hs) :
    ((w.each hs fun h w => w.fuseSpares h).dev.hob h).rowsFree = BitVec.ofNat 6 (spareRows h - (w.fuse.spares.getD h (0, 0)).1) ∧
    ((w.each hs fun h w => w.fuseSpares h).dev.hob h).colsFree = BitVec.ofNat 4 (spareCols h - (w.fuse.spares.getD h (0, 0)).2) := by
  induction hs using List.reverseRecOn generalizing w with
  | nil => cases mem
  | append_singleton hs x ih =>
    have fuse (ks : List Nat) : (w.each ks fun h w => w.fuseSpares h).fuse = w.fuse :=
      (keeps_iff.mp (Keeps.each .refl fun _ _ => keeps_fuseSpares)).1
    rw [W.each, List.foldl_append, List.foldl_cons, List.foldl_nil, ← W.each, hob_fuseSpares]
    by_cases here : h = x
    · rw [if_pos here, fuse, ← here]
      exact ⟨rfl, rfl⟩
    · rw [if_neg here]
      exact ih ((List.mem_append.mp mem).resolve_right fun only => here (List.mem_singleton.mp only))

theorem spares_mapped (due : s.world.inStep (kindleStep .spares) = true) : Answers (.kindleStepComplete .spares) s fun t => StepEnds s 4 t ∧
    ∀ h, h < 16 → (t.dev.hob h).rowsFree = BitVec.ofNat 6 (32 - (s.fuse.spares.getD h (0, 0)).1) ∧
      (t.dev.hob h).colsFree = BitVec.ofNat 4 (8 - (s.fuse.spares.getD h (0, 0)).2) := by
  have mode : s.dev.sys.mode = .kindle := kindle_of_inStep due
  have sys : (s.world.each (List.range 16) fun h w => w.fuseSpares h).dev.sys = s.dev.sys :=
    each_same (g := fun w => w.dev.sys) fun _ _ => rfl
  refine ⟨_, step_due due, ⟨congrArg (fun y : Sys => 4 :: y.stepsDone) sys, (congrArg (fun y : Sys => y.mode) sys).trans mode⟩, fun h low => ?_⟩
  have found := hob_each_fuseSpares (w := s.world) (List.mem_range.mpr low)
  rw [spareRows, spareCols, if_pos low, if_pos low] at found
  exact found

end Sys2Proof.Proofs
end

section
/-! Step 3 of KINDLE: the Stoker's lanes, its hob and its start (R51, R124; O16). -/

namespace Sys2Proof.Proofs

open Machine Laws

set_option Elab.async false

variable {s : State} {w v : W} {k l n rows cols : Nat} {failed : BitVec 4} {ok : Bool}

/-- The lanes that failed. -/
def failedLanes (failed : BitVec 4) : List Nat := bitsOf 4 failed.toNat

/-- The hob's spares last for what its test found. -/
def SparesLast (w : W) (rows cols : Nat) : Prop :=
  (w.fuse.spares.getD 16 (0, 0)).1 + rows ≤ 8 ∧ (w.fuse.spares.getD 16 (0, 0)).2 + cols ≤ 2

/-- The state of lane `l` after its test. -/
def testedSt (failed : BitVec 4) (l : Nat) : LaneSt :=
  if bitAt failed l then .failed else if l = 3 ∧ (failedLanes failed).isEmpty then .spare else .active

/-- The lane that takes seat `i`. -/
def seated (failed : BitVec 4) (i : Nat) : Option Nat := if bitAt failed i then some 3 else some i

/-- The hob is cleared, with its spares switched in. -/
def hobTaken (rows cols : Nat) (w : W) : W :=
  ((w.clearHob (hobBase 16) (hobSize 16)).fuseSpares 16).upd fun d => d.onHob 16 fun x =>
    { x with rowsFree := x.rowsFree - BitVec.ofNat 6 rows, colsFree := x.colsFree - BitVec.ofNat 4 cols }

/-- The lanes stand as tested, and the seam has its slot map. -/
def lanesTaken (failed : BitVec 4) (d : Dev) : Dev :=
  ((List.range 4).foldl (fun d l => d.onLane (208 + l) fun x => { x with st := testedSt failed l }) d).onSeam 64 fun _ =>
    { mode := .tmr, a := seated failed 0, b := seated failed 1, c := seated failed 2 }

/-- The lanes that failed are told. -/
def lanesTold (failed : BitVec 4) (w : W) : W :=
  w.each (failedLanes failed) fun l w => w.raise (laneSrc 16 1) (fenceWord l 64 (if l = 3 then 3 else l) 0) 0

theorem stepStoker_good (few : (failedLanes failed).length < 2) (good : ok = true) (last : SparesLast w rows cols) :
    w.stepStoker failed ok rows cols =
      (((lanesTold failed ((hobTaken rows cols w).upd (lanesTaken failed))).exhaustCheck 16).startCore 64).stepDone 3 := by
  have bad : ¬ 2 ≤ (failedLanes failed).length := Nat.not_le.mpr few
  have refuse : ¬ (ok = false ∨ spareRows 16 < (w.fuse.spares.getD 16 (0, 0)).1 + rows ∨ spareCols 16 < (w.fuse.spares.getD 16 (0, 0)).2 + cols) := by
    have rows8 : spareRows 16 = 8 := rfl
    have cols2 : spareCols 16 = 2 := rfl
    obtain ⟨left, right⟩ := last
    rw [good, rows8, cols2]
    rintro (no | no | no)
    · cases no
    · omega
    · omega
  exact (if_neg bad).trans (if_neg refuse)

theorem stoker_bad {r : KindleResult} (is : r = .stoker failed ok rows cols) (due : s.world.inStep (kindleStep r) = true)
    (many : 2 ≤ (failedLanes failed).length) :
    Answers (.kindleStepComplete r) s (Only s · fun d => { d with sys := { d.sys with kindleErr := 3, errStep := 3 } }) :=
  step_halts due (by rw [is]; exact if_pos many)

theorem stoker_hob {r : KindleResult} (is : r = .stoker failed ok rows cols) (due : s.world.inStep (kindleStep r) = true)
    (few : (failedLanes failed).length < 2) (fails : ok = false ∨ ¬ SparesLast s.world rows cols) :
    Answers (.kindleStepComplete r) s (Only s · fun d => { d with sys := { d.sys with kindleErr := 5, errStep := 3 } }) := by
  refine step_halts due ?_
  rw [is]
  have refuse : ok = false ∨ spareRows 16 < (s.world.fuse.spares.getD 16 (0, 0)).1 + rows ∨
      spareCols 16 < (s.world.fuse.spares.getD 16 (0, 0)).2 + cols := by
    have rows8 : spareRows 16 = 8 := rfl
    have cols2 : spareCols 16 = 2 := rfl
    rw [rows8, cols2]
    refine fails.imp id fun out => ?_
    unfold SparesLast at out
    omega
  exact (if_neg (Nat.not_le.mpr few)).trans (if_pos refuse)

/-! What the events and the start leave of the lanes and the seam. -/

/-- The lanes, and the seams' states, are the same. -/
structure Manned (w v : W) : Prop where
  lanes : v.dev.lanes = w.dev.lanes
  modes : ∀ k, (v.dev.seam k).mode = (w.dev.seam k).mode

theorem Manned.refl : Manned w w := ⟨rfl, fun _ => rfl⟩

theorem Manned.trans {a b c : W} (h : Manned a b) (k : Manned b c) : Manned a c :=
  ⟨k.lanes.trans h.lanes, fun n => (k.modes n).trans (h.modes n)⟩

theorem manned_raise {d0 d1 : Word32} : Manned w (w.raise n d0 d1) := by
  have kept := kept_raise w n d0 d1 false []
  have placed := placed_raise (w := w) (n := n) (d0 := d0) (d1 := d1)
  generalize w.raise n d0 d1 = v at kept placed
  exact ⟨(congrArg (fun d : Dev => d.lanes) (untouched_kept kept) :), fun k => (congrArg (fun x : Seam => x.mode) (placed.slots k) :)⟩

theorem manned_lanesTold : Manned w (lanesTold failed w) := by
  unfold lanesTold
  generalize failedLanes failed = ls
  induction ls generalizing w with
  | nil => exact .refl
  | cons l ls ih => exact manned_raise.trans ih

theorem manned_exhaustCheck {u : Nat} : Manned w (w.exhaustCheck u) := by
  unfold W.exhaustCheck
  split
  · split
    · next k i _ _ =>
      have told : Manned (w.upd fun d => d.onLaneUnit u fun x => { x with exhausted := true }) _ :=
        manned_raise (n := laneSrc u 2) (d0 := fenceWord (patchOf u) k i 0) (d1 := 0)
      have begun : Manned w (w.upd fun d => d.onLaneUnit u fun x => { x with exhausted := true }) := ⟨rfl, fun _ => rfl⟩
      exact begun.trans told
    · exact .refl
  · exact .refl

/-- The Stoker's core at its reset entry. -/
def stokerCore (w : W) : Core :=
  { run := true, since := w.dev.clock.ivl, base := w.dev.beatCtr (unitOf 64),
    arch := { pc := w64 0x10000, cr := ((⟨[]⟩ : Tbl Word64).set 8 (w.startVbase 64)).set 10 stokerWdt } }

theorem startCore_64 : w.startCore 64 = (w.upd fun d => (d.onCore 64 fun _ => stokerCore w).onSeam 64 fun s => { s with reset := false }).upd
    fun d => d.onWdt 64 fun t => { ctl := stokerWdt, st := .running, start := d.clock.ivl, cause := t.cause, count := t.count } := rfl

/-- The Stoker starts from its boot ROM. -/
theorem startCore_stoker : Manned w (w.startCore 64) ∧ ((w.startCore 64).dev.core 64).run = true ∧
    ((w.startCore 64).dev.core 64).arch.pc = 0x10000 ∧ (w.startCore 64).ops = w.ops := by
  rw [startCore_64]
  have core := core_onCore_self w.dev 64 fun _ => stokerCore w
  refine ⟨⟨rfl, fun k => ?_⟩, (congrArg Core.run core :), (congrArg (fun q : Core => q.arch.pc) core :), rfl⟩
  by_cases here : k = 64
  · rw [here]
    exact (congrArg Seam.mode (seam_onSeam_self (w.dev.onCore 64 fun _ => stokerCore w) 64 fun s => { s with reset := false }) :)
  · exact (congrArg Seam.mode (seam_onSeam_ne (w.dev.onCore 64 fun _ => stokerCore w) 64 k (fun s => { s with reset := false }) here) :)

theorem st_foldl {g : Nat → LaneSt} {ls : List Nat} {d : Dev} :
    ((ls.foldl (fun d l => d.onLane (208 + l) fun x => { x with st := g l }) d).lane (208 + k)).st =
      if k ∈ ls then g k else (d.lane (208 + k)).st := by
  induction ls generalizing d with
  | nil => exact (if_neg List.not_mem_nil).symm
  | cons l ls ih =>
    rw [List.foldl_cons, ih]
    by_cases rest : k ∈ ls
    · rw [if_pos rest, if_pos (List.mem_cons_of_mem _ rest)]
    · rw [if_neg rest]
      by_cases here : k = l
      · rw [here, lane_onLane_self, if_pos List.mem_cons_self]
      · rw [lane_onLane_ne _ _ _ _ (by omega), if_neg fun mem => (List.mem_cons.mp mem).elim here rest]

/-- A byte of a range that is cleared reads 0. -/
theorem get_clear {m : Memory} {lo a : Nat} (from_ : lo ≤ a) (to_ : a < lo + n) : (MemOp.apply (.clear lo n) m).get a = 0 := by
  have gone : (m.filter fun c => c.1 < lo || lo + n ≤ c.1).find? (fun c => c.1 == a) = none := by
    refine List.find?_eq_none.mpr fun c mem same => ?_
    have out := (List.mem_filter.mp mem).2
    rw [beq_iff_eq.mp same] at out
    simp only [Bool.or_eq_true, decide_eq_true_eq] at out
    omega
  unfold MemOp.apply Memory.get
  rw [gone]
  rfl

/-- With every lane good the patch lane has no seat, and nothing is told. -/
theorem quiet_start (none_ : failedLanes failed = []) :
    (lanesTold failed (w.upd (lanesTaken failed))).exhaustCheck 16 = w.upd (lanesTaken failed) := by
  have told : lanesTold failed (w.upd (lanesTaken failed)) = w.upd (lanesTaken failed) := by
    unfold lanesTold
    rw [none_]
    rfl
  have good (i : Nat) (low : i < 4) : seated failed i = some i := by
    refine if_neg fun bad => ?_
    have mem : i ∈ failedLanes failed := mem_bitsOf.mpr ⟨low, bad⟩
    rw [none_] at mem
    cases mem
  have seat : (w.upd (lanesTaken failed)).seat 16 (patchOf 16) = none := by
    have seam : (w.upd (lanesTaken failed)).dev.seam 64 = { mode := .tmr, a := some 0, b := some 1, c := some 2 } := by
      rw [← good 0 (by decide), ← good 1 (by decide), ← good 2 (by decide)]
      exact seam_onSeam_self _ 64 _
    unfold W.seat coresOf
    rw [if_neg (by decide), List.findSome?_cons, seam]
    rfl
  rw [told, W.exhaustCheck, seat]

theorem stoker_starts {r : KindleResult} (is : r = .stoker failed ok rows cols) (due : s.world.inStep (kindleStep r) = true)
    (few : (failedLanes failed).length < 2) (good : ok = true) (last : SparesLast s.world rows cols) :
    Answers (.kindleStepComplete r) s fun t =>
      (t.dev.seam 64).mode = .tmr ∧ (t.dev.core 64).run = true ∧ (t.dev.core 64).arch.pc = 0x10000 ∧
      (∀ l, l < 4 → (t.dev.lane (208 + l)).st = if bitAt failed l then .failed else if l = 3 ∧ (failedLanes failed).length = 0 then .spare else .active) ∧
      ((failedLanes failed).length = 0 → ∀ a, 0x10000000 ≤ a → a < 0x10100000 → t.mem.get a = 0) := by
  have row : s.world.kindle r = (((lanesTold failed ((hobTaken rows cols s.world).upd (lanesTaken failed))).exhaustCheck 16).startCore 64).stepDone 3 := by
    rw [is]
    exact stepStoker_good few good last
  refine ⟨_, step_due due, ?_⟩
  rw [row]
  have manned := (manned_lanesTold (failed := failed) (w := (hobTaken rows cols s.world).upd (lanesTaken failed))).trans (manned_exhaustCheck (u := 16))
  have quiet := fun none_ => quiet_start (w := hobTaken rows cols s.world) (failed := failed) none_
  generalize (lanesTold failed ((hobTaken rows cols s.world).upd (lanesTaken failed))).exhaustCheck 16 = v at manned quiet
  obtain ⟨started, runs, pc, ops⟩ := startCore_stoker (w := v)
  have lanes := started.lanes.trans manned.lanes
  refine ⟨?_, runs, pc, fun l low => ?_, fun none_ a from_ to_ => ?_⟩
  · refine (started.modes 64).trans ((manned.modes 64).trans ?_)
    exact congrArg Seam.mode (seam_onSeam_self _ 64 _)
  · have st : ((lanesTaken failed (hobTaken rows cols s.world).dev).lane (208 + l)).st = testedSt failed l :=
      st_foldl.trans (if_pos (List.mem_range.mpr low))
    have same : ((v.startCore 64).dev.lane (208 + l)).st = ((lanesTaken failed (hobTaken rows cols s.world).dev).lane (208 + l)).st := by
      rw [Dev.lane, Dev.lane, lanes]
      rfl
    refine (same.trans st).trans ?_
    exact if_congr Iff.rfl rfl (if_congr (and_congr Iff.rfl List.isEmpty_iff_length_eq_zero) rfl rfl)
  · have left := quiet (List.length_eq_zero_iff.mp none_)
    rw [left] at ops ⊢
    exact get_clear (lo := 0x10000000) (n := 0x100000) from_ to_

end Sys2Proof.Proofs
end

section
/-! The steps 5 to 9 of KINDLE (R50, R353, R437, R444), and KINDLE as a whole (O16). -/

namespace Sys2Proof.Proofs

open Machine Laws

set_option Elab.async false

variable {s : State} {w v : W} {k c i : Nat} {ok : Bool}

/-! The DRAM. -/

/-- What training leaves of a channel. -/
def trainPart (x : MemChan) : Bool × BitVec 3 := (x.enabled, x.trainStep)

/-- The channels stand as trained. -/
def Trained (w v : W) : Prop := ∀ k, trainPart (v.dev.chan k) = trainPart (w.dev.chan k)

theorem Trained.refl : Trained w w := fun _ => rfl

theorem Trained.trans {a b c : W} (h : Trained a b) (k : Trained b c) : Trained a c := fun n => (k n).trans (h n)

theorem Trained.kept (h : Kept w v) : Trained w v := fun k => (congrArg (fun d : Dev => trainPart (d.chan k)) (untouched_kept h) :)

theorem trained_raise {n : Nat} {d0 d1 : Word32} : Trained w (w.raise n d0 d1) := .kept (kept_raise _ _ _ _ _ _)

theorem trained_each {α : Type} {xs : List α} {f : α → W → W} (same : ∀ x v, Trained v (f x v)) : Trained w (w.each xs f) := by
  induction xs generalizing w with
  | nil => exact .refl
  | cons x xs ih => exact (same x w).trans ih

theorem trained_repairFail : Trained w w.repairFail := Trained.trans (b := w.fresh.2) .refl trained_raise

/-- A training fits the population of the first channel that trained. -/
def fitsFirst (t : Training) (first : Option Training) : Bool :=
  match first with
  | some f => t.ranks == f.ranks && t.density == f.density
  | none => true

/-- What training leaves of a channel whose training is `t`. -/
def trainedPart (t : Training) (first : Option Training) : Bool × BitVec 3 :=
  (t.ok && fitsFirst t first, if t.ok && fitsFirst t first then 0 else if t.ok then 5 else t.step)

/-- Channel `c` after its training. -/
def channelTrained (c draw : Nat) (t : Training) (first : Option Training) (d : Dev) : Dev :=
  let fits := t.ok && fitsFirst t first
  d.onChan c fun x =>
    { enabled := fits, rate := if fits then d.images.flash.rcd.rate else 0, ranks := fits && t.ranks, density := fits && t.density,
      trainStep := (trainedPart t first).2, epoch := x.epoch + BitVec.ofNat 16 draw }

theorem trainChannel_eq {t : Training} {first : Option Training} : w.trainChannel c t first =
    let v := w.fresh.2.upd (channelTrained c (1 + (Config.freeWord w.fresh.1).toNat % 65535) t first)
    if (t.ok && fitsFirst t first) = true then v else v.raise (0x278 + c) (w32 (trainedPart t first).2.toNat) 0 := rfl

theorem trainChannel_part {t : Training} {first : Option Training} :
    trainPart ((w.trainChannel c t first).dev.chan k) = if k = c then trainedPart t first else trainPart (w.dev.chan k) := by
  have set_ (draw : Nat) : trainPart ((w.fresh.2.upd (channelTrained c draw t first)).dev.chan k) =
      if k = c then trainedPart t first else trainPart (w.dev.chan k) := by
    have chan := chan_onChan (d := w.fresh.2.dev) (i := c) (k := k) (f := fun x =>
      { enabled := t.ok && fitsFirst t first, rate := if t.ok && fitsFirst t first then w.dev.images.flash.rcd.rate else 0,
        ranks := (t.ok && fitsFirst t first) && t.ranks, density := (t.ok && fitsFirst t first) && t.density,
        trainStep := (trainedPart t first).2, epoch := x.epoch + BitVec.ofNat 16 draw })
    refine (congrArg trainPart chan).trans ?_
    split <;> rfl
  rw [trainChannel_eq]
  dsimp only
  generalize 1 + (Config.freeWord w.fresh.1).toNat % 65535 = draw
  split
  · exact set_ draw
  · exact (trained_raise k).trans (set_ draw)

theorem fitsFirst_iff {t : Training} {first : Option Training} :
    fitsFirst t first = true ↔ ∀ y, first = some y → y.ranks = t.ranks ∧ y.density = t.density := by
  cases first with
  | none => exact ⟨fun _ _ no => (by cases no), fun _ => rfl⟩
  | some f =>
    unfold fitsFirst
    simp only [Bool.and_eq_true, beq_iff_eq, Option.some.injEq, forall_eq']
    exact and_congr eq_comm eq_comm

theorem stepDram_trained {ts : List Training} {rows : List Nat} :
    Trained (w.each (List.zip (List.range 4) ts) fun p w => w.trainChannel p.1 p.2 (ts.find? (·.ok))) (w.stepDram ts rows) := by
  unfold W.stepDram
  dsimp only
  generalize w.each (List.zip (List.range 4) ts) (fun p w => w.trainChannel p.1 p.2 (ts.find? (·.ok))) = v
  generalize hx : v.upd _ = x
  have stays : Trained v x := by
    rw [← hx]
    exact fun _ => rfl
  exact stays.trans (trained_each fun _ _ => trained_repairFail)

/-- Four channels that are trained one after the other. -/
theorem trained_four {c0 c1 c2 c3 x : Training} {first : Option Training} (found : [c0, c1, c2, c3][i]? = some x) :
    trainPart ((w.each (List.zip (List.range 4) [c0, c1, c2, c3]) fun p w => w.trainChannel p.1 p.2 first).dev.chan i) = trainedPart x first := by
  have four : w.each (List.zip (List.range 4) [c0, c1, c2, c3]) (fun p w => w.trainChannel p.1 p.2 first) =
      (((w.trainChannel 0 c0 first).trainChannel 1 c1 first).trainChannel 2 c2 first).trainChannel 3 c3 first := rfl
  rw [four, trainChannel_part, trainChannel_part, trainChannel_part, trainChannel_part]
  match i, found with
  | 0, found => exact congrArg (trainedPart · first) (Option.some.inj found)
  | 1, found => exact congrArg (trainedPart · first) (Option.some.inj found)
  | 2, found => exact congrArg (trainedPart · first) (Option.some.inj found)
  | 3, found => exact congrArg (trainedPart · first) (Option.some.inj found)

theorem dram_trained {r : KindleResult} {c0 c1 c2 c3 : Training} {rows : List Nat} (is : r = .dram c0 c1 c2 c3 rows)
    (due : s.world.inStep (kindleStep r) = true) : Answers (.kindleStepComplete r) s fun t => ∀ i x, [c0, c1, c2, c3][i]? = some x →
      ((t.dev.chan i).enabled = true ↔ x.ok = true ∧ ∀ y, [c0, c1, c2, c3].find? (·.ok) = some y → y.ranks = x.ranks ∧ y.density = x.density) ∧
      ((t.dev.chan i).enabled = false → x.ok = false → (t.dev.chan i).trainStep = x.step) ∧
      ((t.dev.chan i).enabled = true → (t.dev.chan i).trainStep = 0) := by
  refine ⟨_, step_due due, fun i x found => ?_⟩
  have row : s.world.kindle r = s.world.stepDram [c0, c1, c2, c3] rows := by rw [is]; rfl
  have part := (stepDram_trained (w := s.world) (ts := [c0, c1, c2, c3]) (rows := rows) i).trans (trained_four found)
  rw [← row] at part
  generalize s.world.kindle r = v at part ⊢
  change ((v.dev.chan i).enabled = true ↔ _) ∧ ((v.dev.chan i).enabled = false → _ → (v.dev.chan i).trainStep = _) ∧
    ((v.dev.chan i).enabled = true → (v.dev.chan i).trainStep = 0)
  obtain ⟨enabled, step⟩ := Prod.mk.inj part
  rw [enabled, step]
  refine ⟨by rw [Bool.and_eq_true, fitsFirst_iff], fun off bad => ?_, fun on => ?_⟩
  · rw [off, bad]
    rfl
  · exact if_pos on

/-! The image. -/

/-- What step 7 finds of a slot: 0 for one that boots. -/
def bootReason (w : W) (readable : Bool) : Nat :=
  if w.dev.hasStore = false then 1 + (Config.freeWord w.dev.free).toNat % 8
  else if readable = false then 8
  else verify w.fuse (w.dev.images.flash.mainSlot w.dev.sys.fallback) 1 0x1000000 w.lifecycle

/-- Step 7 after a slot has failed. -/
def slotFails (reason : Nat) (w : W) : W :=
  let v := w.fresh.2.raise 0x340 (w32 (w.dev.sys.fallback.toNat + at_ reason 4)) 0
  if w.dev.sys.fallback then (v.upd fun d => { d with sys := { d.sys with recovery := true } }).stepDone 7
  else v.upd fun d => { d with sys := { d.sys with fallback := true } }

theorem stepImage_eq : w.stepImage ok =
    if w.dev.hasStore = true ∧ bootReason w ok = 0 then w.fresh.2.slotBoots w.dev.sys.fallback else slotFails (bootReason w ok) w := rfl

/-- The slot's image is the running one. -/
def slotTaken (w : W) (b : Bool) : W :=
  let f := w.dev.images.flash.mainSlot b
  (w.areaWrite w.dev.images.areas.1 0 (f.take 0 f.len)).upd fun d => { d with
    sys := { d.sys with slotB := b }, images := { d.images with running := { len := f.len, head := f.head } } }

theorem slotBoots_eq {b : Bool} : w.slotBoots b = ((slotTaken w b).startStokerCode (w.dev.images.flash.mainSlot b).head).stepDone 7 := rfl

theorem slotBoots_firm {b : Bool} : (w.slotBoots b).dev.sys.slotB = b ∧ 7 ∈ (w.slotBoots b).dev.sys.stepsDone ∧
    (w.slotBoots b).dev.images.running = { len := (w.dev.images.flash.mainSlot b).len, head := (w.dev.images.flash.mainSlot b).head } := by
  have started : Firm (slotTaken w b) ((slotTaken w b).startStokerCode (w.dev.images.flash.mainSlot b).head) := firm_startStokerCode
  rw [slotBoots_eq]
  generalize (slotTaken w b).startStokerCode (w.dev.images.flash.mainSlot b).head = v at started
  unfold Firm firm at started
  simp only [Prod.mk.injEq] at started
  obtain ⟨-, -, slot, -, -, running⟩ := started
  exact ⟨slot, List.mem_cons_self, running⟩

theorem image_boots (due : s.world.inStep (kindleStep (.image ok)) = true) (store : s.dev.hasStore = true) (readable : ok = true)
    (good : verify s.fuse (s.dev.images.flash.mainSlot s.dev.sys.fallback) 1 0x1000000 s.world.lifecycle = 0) :
    Answers (.kindleStepComplete (.image ok)) s fun t => t.dev.sys.slotB = s.dev.sys.fallback ∧ 7 ∈ t.dev.sys.stepsDone ∧
      t.dev.images.running = { len := (s.dev.images.flash.mainSlot s.dev.sys.fallback).len
                               head := (s.dev.images.flash.mainSlot s.dev.sys.fallback).head } := by
  have reason : bootReason s.world ok = 0 := by
    refine (if_neg (Bool.eq_false_iff.not.mpr (not_not.mpr store))).trans ((if_neg ?_).trans good)
    rw [readable]
    decide
  have row : s.world.kindle (.image ok) = s.world.fresh.2.slotBoots s.dev.sys.fallback := stepImage_eq.trans (if_pos ⟨store, reason⟩)
  refine ⟨_, step_due due, ?_⟩
  rw [row]
  exact slotBoots_firm

theorem plain_image : Plain 0x340 := by unfold Plain Noted; decide

theorem slotFails_told {reason : Nat} : Detected s (fuseState s (slotFails reason s.world)) 0x340 (w32 (s.dev.sys.fallback.toNat + 16 * reason)) 0
      s.dev.clock.tb ∧
    if s.dev.sys.fallback = true then (slotFails reason s.world).dev.sys.recovery = true ∧ 7 ∈ (slotFails reason s.world).dev.sys.stepsDone
    else (slotFails reason s.world).dev.sys.fallback = true ∧ (slotFails reason s.world).dev.sys.stepsDone = s.dev.sys.stepsDone := by
  have calm : Quiescent s s.world.fresh.2 := .upd (f := fun d => { d with free := d.free + 1 }) quiescent_world
  have code : at_ reason 4 = 16 * reason := Nat.mul_comm _ _
  have found := detected_raise (d0 := w32 (s.dev.sys.fallback.toNat + at_ reason 4)) (d1 := 0) calm plain_image rfl
  have steps : Firm s.world (s.world.fresh.2.raise 0x340 (w32 (s.dev.sys.fallback.toNat + at_ reason 4)) 0) :=
    Firm.trans (b := s.world.fresh.2) (.upd .refl) firm_raise
  have fails : slotFails reason s.world =
      (let v := s.world.fresh.2.raise 0x340 (w32 (s.dev.sys.fallback.toNat + at_ reason 4)) 0
       if s.dev.sys.fallback = true then (v.upd fun d => { d with sys := { d.sys with recovery := true } }).stepDone 7
       else v.upd fun d => { d with sys := { d.sys with fallback := true } }) := rfl
  rw [fails]
  dsimp only
  generalize s.world.fresh.2.raise 0x340 (w32 (s.dev.sys.fallback.toNat + at_ reason 4)) 0 = v at found steps
  rw [code] at found
  unfold Firm firm at steps
  simp only [Prod.mk.injEq] at steps
  obtain ⟨-, -, -, done, -, -⟩ := steps
  by_cases second : s.dev.sys.fallback = true
  · rw [if_pos second, if_pos second]
    exact ⟨detected_congr (t := stateOf s v) rfl found, rfl, List.mem_cons_self⟩
  · rw [if_neg second, if_neg second]
    exact ⟨detected_congr (t := stateOf s v) rfl found, rfl, done⟩

theorem image_fails (due : s.world.inStep (kindleStep (.image ok)) = true)
    (bad : s.dev.hasStore = false ∨ ok = false ∨
      verify s.fuse (s.dev.images.flash.mainSlot s.dev.sys.fallback) 1 0x1000000 s.world.lifecycle ≠ 0) :
    Answers (.kindleStepComplete (.image ok)) s fun t => ∃ r : Nat,
      (s.dev.hasStore = true → r = if ok then verify s.fuse (s.dev.images.flash.mainSlot s.dev.sys.fallback) 1 0x1000000 s.world.lifecycle else 8) ∧
      Detected s t 0x340 (w32 (s.dev.sys.fallback.toNat + 16 * r)) 0 s.dev.clock.tb ∧
      if s.dev.sys.fallback then t.dev.sys.recovery = true ∧ 7 ∈ t.dev.sys.stepsDone
      else t.dev.sys.fallback = true ∧ t.dev.sys.stepsDone = s.dev.sys.stepsDone := by
  have stored (store : s.dev.hasStore = true) : bootReason s.world ok =
      if ok then verify s.fuse (s.dev.images.flash.mainSlot s.dev.sys.fallback) 1 0x1000000 s.world.lifecycle else 8 := by
    refine (if_neg (Bool.eq_false_iff.not.mpr (not_not.mpr store))).trans ?_
    cases ok <;> rfl
  have fails : ¬ (s.world.dev.hasStore = true ∧ bootReason s.world ok = 0) := by
    rintro ⟨store, good⟩
    rw [stored store] at good
    rcases bad with no | no | no
    · exact absurd (store.symm.trans no) (by decide)
    · rw [no] at good
      exact absurd (show 8 = 0 from good) (by decide)
    · cases ok with
      | false => exact absurd (show 8 = 0 from good) (by decide)
      | true => exact no good
  have row : s.world.kindle (.image ok) = slotFails (bootReason s.world ok) s.world := stepImage_eq.trans (if_neg fails)
  refine ⟨_, step_due due, bootReason s.world ok, stored, ?_⟩
  rw [row]
  exact slotFails_told

/-! The lockout record and the Pattern. -/

theorem lockout_read (due : s.world.inStep (kindleStep .lockout) = true) : Answers (.kindleStepComplete .lockout) s (Only s · fun d => { d with
    sys := { d.sys with lockoutRec := d.images.flash.lockout, stepsDone := 8 :: d.sys.stepsDone } }) := ⟨_, step_due due, rfl⟩

/-- The Pattern stands. -/
def patternStands (d : Dev) : Dev :=
  { d with sys := { d.sys with stepsDone := 9 :: d.sys.stepsDone }, patGen := d.patGen + 1, dram := { d.dram with born := d.clock.ivl } }

/-- Step 9 in the two operations that the step makes. -/
def patternStep (w : W) : W :=
  (w.stepDone 9).upd fun d => { d with patGen := d.patGen + 1, dram := { d.dram with born := d.clock.ivl } }

theorem patternStep_eq : patternStep w = w.upd patternStands := rfl

/-- The hearths are loaded, and the device enters PREPARE. -/
def prepared (w : W) : W :=
  ((w.upd patternStands).each ((List.range 16).filter fun h => bitAt w.dev.sys.avail h) fun h v => v.loadHearth h).setMode .prepare

theorem stepPattern_eq : w.stepPattern = if w.dev.sys.lockoutRec = true then (w.upd patternStands).setMode .lockout else prepared w := by
  have avail : (w.upd patternStands).dev.sys.avail = w.dev.sys.avail := rfl
  have record : (w.upd patternStands).dev.sys.lockoutRec = w.dev.sys.lockoutRec := rfl
  have step : w.stepPattern = if (patternStep w).dev.sys.lockoutRec = true then (patternStep w).setMode .lockout
      else ((patternStep w).each ((List.range 16).filter fun h => bitAt (patternStep w).dev.sys.avail h) fun h w => w.loadHearth h).setMode .prepare :=
    rfl
  rw [step, patternStep_eq, avail, record]
  rfl

theorem pattern_locked (due : s.world.inStep (kindleStep .pattern) = true) (locked : s.dev.sys.lockoutRec = true) (opens : s.dev.bobbin.opens = [])
    (pool : PoolTold s.world) (held : HeldTold s.world) (armed : s.dev.sys.resetArmed = false) :
    Answers (.kindleStepComplete .pattern) s fun t =>
      t.dev.sys.mode = .lockout ∧ t.dev.patGen = s.dev.patGen + 1 ∧ t.dev.dram.born = s.dev.clock.ivl := by
  have row : s.world.kindle .pattern = (s.world.upd patternStands).setMode .lockout := stepPattern_eq.trans (if_pos locked)
  have mode := (modeTransition (s.world.upd patternStands) .lockout opens rfl pool held armed).1
  have same : Firm (s.world.upd patternStands) ((s.world.upd patternStands).setMode .lockout) := firm_setMode
  refine ⟨_, step_due due, ?_⟩
  rw [row]
  generalize (s.world.upd patternStands).setMode .lockout = v at mode same
  unfold Firm firm at same
  simp only [Prod.mk.injEq] at same
  obtain ⟨generation, born, -⟩ := same
  exact ⟨mode, generation, born⟩

theorem fuse_prepared : (prepared w).fuse = w.fuse := by
  have begun : Keeps w (w.upd patternStands) := .upd .refl
  exact (keeps_iff.mp ((begun.trans (.each .refl fun _ _ => keeps_loadHearth)).trans keeps_setMode)).1

theorem pattern_stands (due : s.world.inStep (kindleStep .pattern) = true) (free : s.dev.sys.lockoutRec = false) :
    Answers (.kindleStepComplete .pattern) s (Leaves s · fun _ => prepared s.world) := by
  have row : s.world.kindle .pattern = prepared s.world := stepPattern_eq.trans (if_neg (Bool.eq_false_iff.mp free))
  refine ⟨_, step_due due, ?_⟩
  rw [row]
  exact fuseState_same fuse_prepared

/-- Settles O16: a step that is not due changes nothing, an error halts KINDLE with its code, and a good result completes its step. -/
theorem kindleSteps : Obligations.KindleSteps := by
  intro s
  refine ⟨fun r idle => step_idle idle, selfCheck_halts, selfCheck_without, selfCheck_with,
    fun due => step_halts (r := .fuses false) due rfl, fuses_read, fun failed ok rows cols due => ⟨?_, ?_, ?_⟩, spares_mapped,
    fun c0 c1 c2 c3 rows due => dram_trained rfl due, fun ok due => ⟨?_, ?_⟩, lockout_read, pattern_locked, pattern_stands⟩
  · exact fun many => stoker_bad rfl due many
  · exact fun few fails => stoker_hob rfl due few fails
  · exact fun few good last => stoker_starts rfl due few good last
  · exact fun store readable good => image_boots due store readable good
  · exact fun bad => image_fails due bad

end Sys2Proof.Proofs
end

section
/-! The windows of the chimney (R26, R177, R487, R488; O59). -/

namespace Sys2Proof.Proofs

open Machine Laws

set_option Elab.async false

variable {s : State} {w v : W} {q : WinReq} {a n p u : Nat} {ok : Bool} {x : Word64}

/-- The address lies in a window. -/
def Inside (a : Nat) : Prop := 0x10000000000 ≤ a ∧ a < 0x18000000000

theorem windowOf_inside (inside : Inside a) : windowOf a = some ((a - 0x10000000000) / 0x1000000000) := if_pos inside

theorem windowOf_outside (outside : ¬ Inside a) : windowOf a = none := if_neg outside

/-- What a window request asks of its target. -/
def windowReq (q : WinReq) : Req :=
  match q.data with
  | some v => .write (le q.size v.toNat)
  | none => .read

/-- How a request at window `p` is served. -/
def windowServed (q : WinReq) (p : Nat) (w : W) : Acc × W :=
  if ridPos q.m = w.dev.chim.pos.toNat then w.access q.m q.addr.toNat q.size (windowReq q)
  else if p = w.dev.chim.pos.toNat then
    remoteError (match q.data with
      | some v => w.writePieces q.m (windowOffset q.addr.toNat) (le q.size v.toNat) .done (w.tlpPieces (windowOffset q.addr.toNat) q.size)
      | none => w.readPieces q.m [] (w.tlpPieces (windowOffset q.addr.toNat) q.size))
  else (.wait, w)

/-- The row of a window request, by the window. -/
def windowBy (q : WinReq) (w : W) : Option Nat → W
  | none => w
  | some p => if q.size = 0 then w else (windowServed q p w).2.respond q.m q.size (windowReq q).reads (windowServed q p w).1

theorem windowRequest_row (on : s.dev.sys.mode ≠ .off) :
    exec (.windowRequest q) s = .next (stateOf s (windowBy q s.world (windowOf q.addr.toNat))) := by
  refine (next_of (if_neg on)).trans (next_of ?_)
  dsimp only
  cases windowOf q.addr.toNat <;> rfl

theorem window_still (still : s.dev.sys.mode = .off ∨ ¬ Inside q.addr.toNat ∨ q.size = 0) : Answers (.windowRequest q) s (Only s · id) := by
  by_cases off : s.dev.sys.mode = .off
  · exact ⟨_, next_of (if_pos off), rfl⟩
  · refine ⟨stateOf s s.world, (windowRequest_row off).trans (next_of ?_), rfl⟩
    by_cases inside : Inside q.addr.toNat
    · have empty : q.size = 0 := (still.resolve_left off).resolve_left (not_not.mpr inside)
      rw [windowOf_inside inside]
      exact if_pos empty
    · rw [windowOf_outside inside]
      rfl

/-- A request of another member for a third is not this device's. -/
theorem window_foreign (inside : Inside q.addr.toNat) (foreign : ¬ ridPos q.m = s.dev.chim.pos.toNat)
    (third : (q.addr.toNat - 0x10000000000) / 0x1000000000 ≠ s.dev.chim.pos.toNat) : Answers (.windowRequest q) s (Only s · id) := by
  by_cases off : s.dev.sys.mode = .off
  · exact ⟨_, next_of (if_pos off), rfl⟩
  by_cases empty : q.size = 0
  · exact window_still (.inr (.inr empty))
  · have waits : windowServed q ((q.addr.toNat - 0x10000000000) / 0x1000000000) s.world = (.wait, s.world) :=
      (if_neg foreign).trans (if_neg third)
    refine ⟨stateOf s s.world, (windowRequest_row off).trans (next_of ?_), rfl⟩
    rw [windowOf_inside inside, windowBy, if_neg empty, waits]
    rfl

/-! A request of this device's own. -/

theorem windowOf_mapped (inside : Inside a) (there : (a - 0x10000000000) / 0x1000000000 < max 1 w.dev.chim.members.toNat) : w.mapped a = true := by
  have window : (decide (0x10000000000 ≤ a) && decide (a < 0x18000000000) &&
      decide ((a - 0x10000000000) / 0x1000000000 < max 1 w.dev.chim.members.toNat)) = true := by
    rw [decide_eq_true inside.1, decide_eq_true inside.2, decide_eq_true there]
    rfl
  unfold W.mapped
  rw [window, Bool.or_true]

theorem fwUnitOf_inside (inside : Inside a) : fwUnitOf a = 12 := by
  have low := inside.1
  unfold fwUnitOf
  rw [if_neg (by omega), if_neg (by omega), if_neg (by omega), if_neg (by omega), if_neg (by omega), if_neg (by omega), if_neg (by omega),
    if_neg (by omega)]

/-- A request within a granule of a window is judged by the chimney's firewall unit. -/
theorem admitLocal_window {m : Rid} {r : Req} (inside : Inside a) (some_ : 0 < n) (within : a % 256 + n ≤ 256)
    (there : (a - 0x10000000000) / 0x1000000000 < max 1 w.dev.chim.members.toNat) (plain : r.dir ≠ .atomic)
    (admits : w.fwAdmits 12 ((a / 256 * 256 - fwBase 12) / 256) m r.dir = true) : w.admitLocal m a n r = (none, w) := by
  have low := inside.1
  have high := inside.2
  have lastInside : Inside (a + n - 1) := ⟨by omega, by omega⟩
  have lastThere : (a + n - 1 - 0x10000000000) / 0x1000000000 < max 1 w.dev.chim.members.toNat := by
    have same : (a + n - 1 - 0x10000000000) / 0x1000000000 = (a - 0x10000000000) / 0x1000000000 := by omega
    rw [same]
    exact there
  have fused : w.fusedOff a = false := by
    unfold W.fusedOff
    rw [decide_eq_false (by omega : ¬ a < 0x12040000), decide_eq_false (by omega : ¬ a < 0x20210000), Bool.and_false, Bool.and_false,
      Bool.or_false, Bool.and_false]
  have notRom : decide (a < 0x40000) = false := decide_eq_false (by omega)
  have block : (blockAt a).isSome = false := by
    rw [blockAt, if_pos (by omega)]
    rfl
  have granule : (BitVec.ofNat 48 (a / 256 * 256)).toNat = a / 256 * 256 := by
    rw [BitVec.toNat_ofNat, Nat.mod_eq_of_lt (by omega)]
  have pass : w.fwCheck 12 (BitVec.ofNat 48 (a / 256 * 256)) m r.dir = (true, w) := fwCheck_pass _ _ _ _ _ (by rw [granule]; exact admits)
  have passes : w.passes 12 m r.dir [a / 256 * 256] = (true, w) := by simp only [W.passes, pass]
  have direct : (r.dir == Dir.atomic) = false := beq_eq_false_iff_ne.mpr plain
  unfold W.admitLocal
  rw [fused, if_neg Bool.false_ne_true, windowOf_mapped inside there, windowOf_mapped lastInside lastThere, notRom, block, Bool.and_false,
    if_neg (by decide), fwUnitOf_inside inside, granulesOf_same some_ within]
  rw [if_neg Bool.false_ne_true, passes]
  dsimp only
  rw [direct, Bool.false_and, if_neg Bool.false_ne_true]
  rfl

/-- A request to another member that is admitted and reachable goes out and waits (R487). -/
theorem access_window {m : Rid} {r : Req} (inside : Inside a) (some_ : 0 < n) (within : a % 256 + n ≤ 256)
    (other : (a - 0x10000000000) / 0x1000000000 ≠ w.dev.chim.pos.toNat)
    (there : (a - 0x10000000000) / 0x1000000000 < max 1 w.dev.chim.members.toNat)
    (reaches : w.reaches ((a - 0x10000000000) / 0x1000000000) = true) (plain : r.dir ≠ .atomic)
    (admits : w.fwAdmits 12 ((a / 256 * 256 - fwBase 12) / 256) m r.dir = true) :
    w.access m a n r = (.wait, (w.upd fun d => d.crossed (if (a - 0x10000000000) / 0x1000000000 < d.chim.pos.toNat then 7 else 9)).onChim fun c => { c with
      remotes := c.remotes ++ [⟨m, BitVec.ofNat 3 ((a - 0x10000000000) / 0x1000000000), BitVec.ofNat 48 (windowOffset a), r.dir == .write⟩] }) := by
  have walls : w.passWalls m a n r = (none, w) := by
    rw [W.passWalls, admitLocal_window inside some_ within there plain admits]
    dsimp only
    rw [windowOf_inside inside]
    dsimp only
    rw [if_neg other, reaches, if_pos rfl]
  rw [W.access, walls]
  dsimp only
  rw [W.perform, windowOf_inside inside]
  exact if_neg other

theorem dir_windowReq : (windowReq q).dir = if q.data.isSome then .write else .read := by
  unfold windowReq
  cases q.data <;> rfl

theorem window_sent (on : s.dev.sys.mode ≠ .off) (inside : Inside q.addr.toNat) (some_ : 0 < q.size) (mine : ridPos q.m = s.dev.chim.pos.toNat)
    (other : (q.addr.toNat - 0x10000000000) / 0x1000000000 ≠ s.dev.chim.pos.toNat)
    (there : (q.addr.toNat - 0x10000000000) / 0x1000000000 < max 1 s.dev.chim.members.toNat)
    (reaches : s.world.reaches ((q.addr.toNat - 0x10000000000) / 0x1000000000) = true) (within : q.addr.toNat % 256 + q.size ≤ 256)
    (admits : s.world.fwAdmits 12 ((q.addr.toNat / 256 * 256 - fwBase 12) / 256) q.m (if q.data.isSome then .write else .read) = true) :
    Answers (.windowRequest q) s (Only s · fun d =>
      { d.crossed (if (q.addr.toNat - 0x10000000000) / 0x1000000000 < d.chim.pos.toNat then 7 else 9) with chim := { d.chim with
        remotes := d.chim.remotes ++ [⟨q.m, BitVec.ofNat 3 ((q.addr.toNat - 0x10000000000) / 0x1000000000),
          BitVec.ofNat 48 (windowOffset q.addr.toNat), q.data.isSome⟩] } }) := by
  have plain : (windowReq q).dir ≠ .atomic := by
    rw [dir_windowReq]
    split <;> decide
  have wr : ((windowReq q).dir == Dir.write) = q.data.isSome := by
    rw [dir_windowReq]
    cases q.data <;> rfl
  have served := access_window (w := s.world) (r := windowReq q) inside some_ within other there reaches plain (by rw [dir_windowReq]; exact admits)
  rw [wr] at served
  have own : windowServed q ((q.addr.toNat - 0x10000000000) / 0x1000000000) s.world = s.world.access q.m q.addr.toNat q.size (windowReq q) :=
    if_pos mine
  rw [← own] at served
  refine ⟨_, windowRequest_row on, ?_⟩
  rw [windowOf_inside inside, windowBy, if_neg (Nat.pos_iff_ne_zero.mp some_), served]
  rfl

/-! A request of another member to this device. -/

theorem windowServed_read (foreign : ¬ ridPos q.m = w.dev.chim.pos.toNat) (here : p = w.dev.chim.pos.toNat) (read : q.data = none)
    (reach : Reaches w q.m u (windowOffset q.addr.toNat) q.size .read) :
    windowServed q p w = (.data (w.bytes (windowOffset q.addr.toNat) q.size), w.granted u (hobMaster w.dev.chim.pos u q.m)) := by
  unfold windowServed
  rw [if_neg foreign, if_pos here, read]
  dsimp only
  rw [readPieces_of_reaches reach]
  rfl

theorem windowServed_write (foreign : ¬ ridPos q.m = w.dev.chim.pos.toNat) (here : p = w.dev.chim.pos.toNat) (write : q.data = some x)
    (reach : Reaches w q.m u (windowOffset q.addr.toNat) q.size .write) :
    windowServed q p w = (.done, written (written (w.granted u (hobMaster w.dev.chim.pos u q.m)) (windowOffset q.addr.toNat) (le q.size x.toNat))
      (windowOffset q.addr.toNat + q.size) []) := by
  have size := length_le q.size x.toNat
  have pieces := writePieces_of_reaches (bs := le q.size x.toNat) (m := q.m) (by rw [size]; exact reach)
  rw [size] at pieces
  unfold windowServed
  rw [if_neg foreign, if_pos here, write]
  dsimp only
  rw [pieces]
  rfl

theorem window_reads (on : s.dev.sys.mode ≠ .off) (inside : Inside q.addr.toNat) (foreign : ¬ ridPos q.m = s.dev.chim.pos.toNat)
    (here : (q.addr.toNat - 0x10000000000) / 0x1000000000 = s.dev.chim.pos.toNat) (read : q.data = none) (small : q.size ≤ 8)
    (reach : Reaches s.world q.m u (windowOffset q.addr.toNat) q.size .read) :
    Answers (.windowRequest q) s (Leaves s · fun w => (w.granted u (hobMaster s.dev.chim.pos u q.m)).answer
      (.word (w64 (hobWord s (windowOffset q.addr.toNat) q.size)))) := by
  have some_ : q.size ≠ 0 := Nat.pos_iff_ne_zero.mp reach.1
  have size : (s.world.bytes (windowOffset q.addr.toNat) q.size).length ≤ 8 := by
    rw [W.bytes, List.length_map, List.length_range]
    exact small
  refine ⟨_, windowRequest_row on, ?_⟩
  rw [windowOf_inside inside, windowBy, if_neg some_, windowServed_read (w := s.world) foreign here read reach]
  exact congrArg (fun a => stateOf s ((s.world.granted u (hobMaster s.dev.chim.pos u q.m)).answer a)) (if_pos size)

theorem window_writes (on : s.dev.sys.mode ≠ .off) (inside : Inside q.addr.toNat) (foreign : ¬ ridPos q.m = s.dev.chim.pos.toNat)
    (here : (q.addr.toNat - 0x10000000000) / 0x1000000000 = s.dev.chim.pos.toNat) (write : q.data = some x)
    (reach : Reaches s.world q.m u (windowOffset q.addr.toNat) q.size .write) :
    Answers (.windowRequest q) s fun t => StoresAt s t (windowOffset q.addr.toNat) q.size x.toNat ∧
      t.dev = ((s.world.granted u (hobMaster s.dev.chim.pos u q.m)).answer .done).dev ∧ t.fuse = s.fuse ∧ t.pending = s.pending := by
  have some_ : q.size ≠ 0 := Nat.pos_iff_ne_zero.mp reach.1
  refine ⟨_, windowRequest_row on, ?_⟩
  rw [windowOf_inside inside, windowBy, if_neg some_, windowServed_write (w := s.world) foreign here write reach]
  exact ⟨storesAt_put rfl, rfl, rfl, rfl⟩

/-! A response. -/

/-- The row of a response, by the request it answers. -/
def responseBy (n : Nat) (ok : Bool) (v : Word64) (w : W) : Option Remote → W
  | none => w
  | some r => if ((w.dev.chim.remotes.take n).any fun x => x.rid == r.rid && x.pos == r.pos) = true then w else
      let w := w.onChim fun c => { c with remotes := c.remotes.eraseIdx n }
      if (!ok) = true then w.remoteError else if r.write = true then w.answer .done else w.answer (.word v)

theorem windowResponse_row {v : Word64} : exec (.windowResponse n ok v) s = .next (stateOf s (responseBy n ok v s.world s.dev.chim.remotes[n]?)) := by
  refine next_of ?_
  have same : s.world.dev.chim.remotes[n]? = s.dev.chim.remotes[n]? := rfl
  beta_reduce
  rw [same]
  cases s.dev.chim.remotes[n]? <;> rfl

theorem response_stray {v : Word64} (stray : s.dev.chim.remotes[n]? = none) : Answers (.windowResponse n ok v) s (Only s · id) := by
  refine ⟨_, windowResponse_row, ?_⟩
  rw [stray]
  rfl

theorem response_early {v : Word64} {r : Remote} (found : s.dev.chim.remotes[n]? = some r)
    (early : ((s.dev.chim.remotes.take n).any fun x => x.rid == r.rid && x.pos == r.pos) = true) : Answers (.windowResponse n ok v) s (Only s · id) := by
  refine ⟨_, windowResponse_row, ?_⟩
  rw [found]
  exact congrArg (stateOf s) (if_pos early)

theorem response_told {v : Word64} {r : Remote} (found : s.dev.chim.remotes[n]? = some r)
    (next : ((s.dev.chim.remotes.take n).any fun x => x.rid == r.rid && x.pos == r.pos) = false) :
    Answers (.windowResponse n ok v) s (Only s · fun d => { d with
      chim := { d.chim with remotes := d.chim.remotes.eraseIdx n }
      out := if ok = false then .error 8 else if r.write then .done else .word v }) := by
  refine ⟨_, windowResponse_row, ?_⟩
  rw [found]
  refine (congrArg (stateOf s) (if_neg (Bool.eq_false_iff.mp next))).trans ?_
  cases ok with
  | false => rfl
  | true => cases r.write <;> rfl

theorem chimneyWindows : Sys2Proof.Says.ChimneyWindows := by
  intro s q u n ok v
  refine ⟨window_still, window_foreign, fun on inside some_ mine other there reaches within admits =>
    window_sent on inside some_ mine other there reaches within admits,
    fun on inside foreign here read small reach => window_reads on inside foreign here read small reach,
    fun x on inside foreign here write reach => window_writes on inside foreign here write reach,
    response_stray, fun r found early => response_early found early, fun r found next => response_told found next⟩

end Sys2Proof.Proofs
end

section
/-! Packets that are not executed where they arrive (R67, R68, R70, R486; O59). -/

namespace Sys2Proof.Proofs

open Machine Laws

set_option Elab.async false

variable {s : State} {opc : Half} {p : Packet} {w v : W} {body : Body}

/-! A packet that passes steps 1 to 5 goes to its position. -/

theorem ofNat_toNat (opc : Half) : BitVec.ofNat 16 opc.toNat = opc := BitVec.ofNat_toNat 16 opc |>.trans (BitVec.setWidth_eq opc)

theorem consume_parts : (w.consume p opc).dev.chim = w.dev.chim ∧ (w.consume p opc).dev.stoker.pends = w.dev.stoker.pends ∧
    (w.consume p opc).fuse = w.fuse ∧ (w.consume p opc).dev.images = w.dev.images := by
  unfold W.consume
  cases p.src <;> exact ⟨rfl, rfl, rfl, rfl⟩

theorem accept_parts : (w.accept p).dev.chim = w.dev.chim ∧ (w.accept p).dev.stoker.pends = w.dev.stoker.pends ∧ (w.accept p).fuse = w.fuse := by
  unfold W.accept
  dsimp only [W.upd]
  split <;> exact ⟨rfl, rfl, rfl⟩

/-- What taking a packet keeps. -/
structure Taken (s : State) (w : W) : Prop where
  chim : w.dev.chim = s.dev.chim
  pends : w.dev.stoker.pends = s.dev.stoker.pends
  fuse : w.fuse = s.fuse

theorem taken_of_passes (h : Passes s opc.toNat p w) : Taken s w := by
  obtain ⟨-, -, by_⟩ := h
  rw [ofNat_toNat] at by_
  have consumed : Taken s (s.world.consume p opc) := by
    obtain ⟨chim, pends, fuse, -⟩ := consume_parts (w := s.world) (p := p) (opc := opc)
    exact ⟨chim, pends, fuse⟩
  have accepted : Taken s ((s.world.consume p opc).accept p) := by
    obtain ⟨chim, pends, fuse⟩ := accept_parts (w := s.world.consume p opc) (p := p)
    exact ⟨chim.trans consumed.chim, pends.trans consumed.pends, fuse.trans consumed.fuse⟩
  split at by_
  · rw [by_]
    exact consumed
  · obtain ⟨-, -, -, -, by_⟩ := by_
    split at by_
    · rw [by_.1]
      exact consumed
    · rw [by_.2.2]
      exact accepted

theorem fenced_taken (h : Taken s w) {before : List Pend} {fwd : Nat} : w.fenced before fwd p = s.world.fenced before fwd p := by
  unfold W.fenced
  rw [h.chim]
  rfl

/-- A packet that passes steps 1 to 5 goes to its position; a route that keeps the sessions ends as every command does. -/
theorem take_passes (h : Passes s opc.toNat p w) (keeps : (w.route s.world.objs opc p body).dev.images = w.dev.images) :
    s.world.take s.world.objs opc p body = (w.route s.world.objs opc p body).sessionLimit p := by
  obtain ⟨due, offers, by_⟩ := h
  rw [ofNat_toNat] at offers by_
  have ring : s.world.ringDue = s.world := by simp [W.ringDue, due]
  by_cases base : p.src = .base
  · rw [if_pos base] at by_
    have local_ : isEth p = false := by simp [isEth, base]
    rw [sessionLimit_local _ _ local_]
    simp only [W.take, ring, offers, base, if_true, ← by_]
    simp
  · rw [if_neg base] at by_
    obtain ⟨crc, short, whole, header, by_⟩ := by_
    have params : (if 4080 < p.plen.toNat then p.params else p.params.take p.plen.toNat) = p.params.take p.plen.toNat := if_neg (by omega)
    have length : ¬ (4080 < p.plen.toNat ∨ p.params.length < p.plen.toNat) := by omega
    by_cases opens : (isEth p && opensSession opc p) = true
    · rw [if_pos opens] at by_
      obtain ⟨is, none_⟩ := by_
      have zero : p.session.toNat = 0 := by
        have parts := ((Bool.and_eq_true _ _).mp opens).2
        simp only [opensSession, Bool.and_eq_true, beq_iff_eq] at parts
        rw [parts.1.2]
        rfl
      have images : (w.route s.world.objs opc p body).dev.images.session p.session.toNat = none := by
        rw [keeps, is, consume_images, zero]
        exact none_
      have limit : (w.route s.world.objs opc p body).sessionLimit p = w.route s.world.objs opc p body := by
        rw [W.sessionLimit, images]
      rw [limit]
      simp only [W.take, ring, offers, base, params, crc, header, opens, length, ← is, ne_eq, not_true_eq_false, if_false, if_true,
        Bool.true_eq_false]
    · rw [if_neg opens] at by_
      obtain ⟨mac, expected, is⟩ := by_
      rw [Bool.not_eq_true] at opens
      have expect : (s.world.consume p opc).dev.cmdSrc (srcKey p) = s.dev.cmdSrc (srcKey p) := by
        simp only [W.consume, upd_dev, Dev.cmdSrc]
        split <;> rfl
      have known : (isEth p && !(s.world.consume p opc).macOk opc p) = false := by
        cases eth : isEth p with
        | false => rfl
        | true =>
          have same : (s.world.consume p opc).macOk opc p = s.world.macOk opc p := by simp only [W.macOk, consume_images]
          rw [same, (mac eth).1]
          rfl
      have sequence : (s.world.consume p opc).sequence s.world.objs opc p body = (w.route s.world.objs opc p body).sessionLimit p := by
        simp only [W.sequence, expect]
        cases found : (s.dev.cmdSrc (srcKey p)).expect with
        | none =>
          have local_ : isEth p = false := by
            cases eth : isEth p with
            | false => rfl
            | true => rw [(mac eth).2] at found; cases found
          dsimp only
          rw [sessionLimit_local _ _ local_, ← is]
        | some e =>
          have same := expected e found
          subst same
          simp only [if_true, ← is]
      simp only [W.take, ring, offers, base, params, crc, header, opens, known, sequence, length, ne_eq, not_true_eq_false, if_false,
        Bool.false_eq_true, Bool.true_eq_false]

/-- An opcode that is not listed is answered so. -/
theorem route_unknown (here : p.target = 0xFF ∨ p.target.toNat = w.dev.chim.pos.toNat) (unknown : w.cmdInfo opc.toNat = none) {objs : Nat → Packet → List Obj} :
    w.route objs opc p body = w.reply p opc sUnknownOpcode true [] := by
  rw [W.route, if_pos here, W.serve, unknown]

theorem cmdInfo_taken (h : Taken s w) {n : Nat} : w.cmdInfo n = s.world.cmdInfo n := by
  unfold W.cmdInfo W.isM
  rw [h.fuse]
  rfl

theorem otherPos_taken (h : Taken s w) {t : Byte} : w.otherPos t = s.world.otherPos t := by
  unfold W.otherPos Dev.isCourse
  rw [h.chim]
  rfl

theorem unknown_row (unknown : s.world.cmdInfo opc.toNat = none) :
    exec (.unknownOpcode opc p) s = .next (stateOf s (s.world.take s.world.objs opc p (bodyOf opc.toNat))) :=
  next_of (if_pos (by rw [unknown]; rfl))

theorem ends_of {status : Nat} {res : List Byte} : Ends s (stateOf s ((w.reply p opc status true res).sessionLimit p)) opc.toNat p w status res := by
  unfold Ends
  rw [ofNat_toNat]

theorem unknown_here (h : Passes s opc.toNat p w) (here : p.target = 0xFF ∨ p.target.toNat = s.dev.chim.pos.toNat)
    (unknown : s.world.cmdInfo opc.toNat = none) : Answers (.unknownOpcode opc p) s (Ends s · opc.toNat p w 0x100 []) := by
  have taken := taken_of_passes h
  have route : w.route s.world.objs opc p (bodyOf opc.toNat) = w.reply p opc sUnknownOpcode true [] :=
    route_unknown (by rw [taken.chim]; exact here) ((cmdInfo_taken taken).trans unknown)
  refine ⟨_, unknown_row unknown, ?_⟩
  rw [take_passes h (by rw [route]; exact images_reply _ _ _ _ _ _), route]
  exact ends_of

theorem unknown_nowhere (h : Passes s opc.toNat p w) (all_ : p.target ≠ 0xFF) (own : p.target.toNat ≠ s.dev.chim.pos.toNat)
    (other : s.world.otherPos p.target = false) (unknown : s.world.cmdInfo opc.toNat = none) :
    Answers (.unknownOpcode opc p) s (Ends s · opc.toNat p w 0x102 []) := by
  have taken := taken_of_passes h
  have route : w.route s.world.objs opc p (bodyOf opc.toNat) = w.reply p opc sBadParam true [] := by
    rw [W.route, taken.chim, if_neg fun here => here.elim all_ own, otherPos_taken taken, other, if_neg Bool.false_ne_true]
  refine ⟨_, unknown_row unknown, ?_⟩
  rw [take_passes h (by rw [route]; exact images_reply _ _ _ _ _ _), route]
  exact ends_of

/-! A packet for another position. -/

theorem forward_row (other : s.world.otherPos p.target = true) :
    exec (.commandForward opc p) s = .next (stateOf s (s.world.take s.world.objs opc p (bodyOf opc.toNat))) := next_of (if_pos other)

theorem route_other (base : w.dev.chim.pos = 0) (not_ : 0 < p.target.toNat) (member : p.target.toNat < w.dev.chim.members.toNat)
    {objs : Nat → Packet → List Obj} : w.otherPos p.target = true ∧ w.route objs opc p body = w.forward opc p := by
  have small := w.dev.chim.members.isLt
  have other : w.otherPos p.target = true := by
    unfold W.otherPos Dev.isCourse
    rw [base, decide_eq_true not_, decide_eq_true member]
    rfl
  have elsewhere : ¬ (p.target = 0xFF ∨ p.target.toNat = w.dev.chim.pos.toNat) := by
    rw [base]
    rintro (all_ | own)
    · have top : p.target.toNat = 255 := by rw [all_]; rfl
      omega
    · exact absurd own (Nat.pos_iff_ne_zero.mp not_)
  exact ⟨other, by rw [W.route, if_neg elsewhere, if_pos other]⟩

/-- The forwards at a course. -/
def forwardsAt (c : Chim) (pos : Nat) : Nat := (c.forwards.filter fun f => f.pos.toNat == pos).length

theorem courseTakes_iff {pos : Nat} : w.courseTakes pos = true ↔ (w.dev.course pos).reach = true ∧ forwardsAt w.dev.chim pos < 16 := by
  rw [W.courseTakes, Bool.and_eq_true, decide_eq_true_eq]
  rfl

theorem course_taken (h : Taken s w) {pos : Nat} : w.dev.course pos = s.dev.course pos := by
  rw [Dev.course, h.chim]
  rfl

/-- How a packet for another position goes on. -/
theorem command_forwarded (h : Passes s opc.toNat p w) (base : s.dev.chim.pos = 0) (not_ : 0 < p.target.toNat)
    (member : p.target.toNat < s.dev.chim.members.toNat) (keeps : (w.forward opc p).dev.images = w.dev.images) :
    exec (.commandForward opc p) s = .next (stateOf s ((w.forward opc p).sessionLimit p)) := by
  have taken := taken_of_passes h
  obtain ⟨-, route⟩ := route_other (w := w) (opc := opc) (body := bodyOf opc.toNat) (objs := s.world.objs) (by rw [taken.chim]; exact base) not_
    (by rw [taken.chim]; exact member)
  obtain ⟨other, -⟩ := route_other (w := s.world) (opc := opc) (body := bodyOf opc.toNat) (objs := s.world.objs) base not_ member
  have take := take_passes (body := bodyOf opc.toNat) h (by rw [route]; exact keeps)
  rw [route] at take
  exact (forward_row other).trans (next_of take)

theorem forward_refused (refused : w.forward opc p = w.reply p opc sNoResource true []) (h : Passes s opc.toNat p w) (base : s.dev.chim.pos = 0)
    (not_ : 0 < p.target.toNat) (member : p.target.toNat < s.dev.chim.members.toNat) :
    Answers (.commandForward opc p) s (Ends s · opc.toNat p w 0x204 []) := by
  have row := command_forwarded h base not_ member (by rw [refused]; exact images_reply _ _ _ _ _ _)
  rw [refused] at row
  exact ⟨_, row, ends_of⟩

theorem forward_fenced (h : Passes s opc.toNat p w) (base : s.dev.chim.pos = 0) (not_ : 0 < p.target.toNat)
    (member : p.target.toNat < s.dev.chim.members.toNat) (fenced : s.world.fenced s.dev.stoker.pends s.dev.chim.fwdNext p = true) :
    if s.dev.stoker.pends.length < 32 then Answers (.commandForward opc p) s fun t =>
      t = stateOf s (((w.reply p opc sPending false []).addPend p opc false 0).sessionLimit p)
    else Answers (.commandForward opc p) s (Ends s · opc.toNat p w 0x204 []) := by
  have taken := taken_of_passes h
  have waits : w.fenced w.dev.stoker.pends w.dev.chim.fwdNext p = true := by
    rw [taken.pends, taken.chim, fenced_taken taken]
    exact fenced
  split
  · next room =>
    have forward : w.forward opc p = (w.reply p opc sPending false []).addPend p opc false 0 := by
      rw [W.forward, if_pos waits, taken.pends]
      exact if_neg (Nat.not_le.mpr room)
    have row := command_forwarded h base not_ member (by rw [forward]; exact images_reply p opc sPending false [] w)
    rw [forward] at row
    exact ⟨_, row, rfl⟩
  · next full =>
    refine forward_refused ?_ h base not_ member
    rw [W.forward, if_pos waits, taken.pends]
    exact if_pos (Nat.not_lt.mp full)

theorem forward_free (h : Passes s opc.toNat p w) (base : s.dev.chim.pos = 0) (not_ : 0 < p.target.toNat)
    (member : p.target.toNat < s.dev.chim.members.toNat) (free : s.world.fenced s.dev.stoker.pends s.dev.chim.fwdNext p = false) :
    if (s.dev.course p.target.toNat).reach = true ∧ forwardsAt s.dev.chim p.target.toNat < 16 then Answers (.commandForward opc p) s fun t =>
      t = stateOf s ((w.upd fun d => { d with chim := { d.chim with
        forwards := d.chim.forwards ++ [{ pos := BitVec.ofNat 3 p.target.toNat, opc := opc, pkt := p, id := d.chim.fwdNext }]
        fwdNext := d.chim.fwdNext + 1 } }).sessionLimit p)
    else Answers (.commandForward opc p) s (Ends s · opc.toNat p w 0x204 []) := by
  have taken := taken_of_passes h
  have goes : ¬ w.fenced w.dev.stoker.pends w.dev.chim.fwdNext p = true := by
    rw [taken.pends, taken.chim, fenced_taken taken]
    exact Bool.eq_false_iff.mp free
  have takes : w.courseTakes p.target.toNat = true ↔ (s.dev.course p.target.toNat).reach = true ∧ forwardsAt s.dev.chim p.target.toNat < 16 := by
    rw [courseTakes_iff, course_taken taken, taken.chim]
  split
  · next room =>
    have forward : w.forward opc p = w.sendOn opc p false false := by
      rw [W.forward, if_neg goes]
      exact if_pos (takes.mpr room)
    have row := command_forwarded h base not_ member (by rw [forward]; rfl)
    rw [forward] at row
    exact ⟨_, row, rfl⟩
  · next full =>
    refine forward_refused ?_ h base not_ member
    rw [W.forward, if_neg goes]
    exact if_neg fun room => full (takes.mp room)

end Sys2Proof.Proofs
end

section
/-! The reply of a course and the start of a command that waited (R70, R73, R486; O59). -/

namespace Sys2Proof.Proofs

open Machine Laws

set_option Elab.async false

variable {s : State} {w : W} {pos : BitVec 3} {seq status : Half} {final : Bool} {mode : BitVec 4} {result : List Word32} {origin n : Nat}
  {f : Forward} {q : Pend} {before : List Pend} {i : CmdInfo}

/-! A course's reply goes to the origin of the command. -/

/-- The forwarded command that a course's reply answers. -/
def answered (s : State) (pos : BitVec 3) (seq : Half) (origin : Nat) : Option Forward :=
  s.dev.chim.forwards.find? fun f => f.pos == pos && srcKey f.pkt == origin && f.pkt.seq == seq

/-- What the reply to the forwarded command `f` leaves. -/
def replyTo (w : W) (f : Forward) (mode : BitVec 4) (pos : BitVec 3) (status : Half) (final : Bool) (result : List Word32) : W :=
  let k := srcKey f.pkt
  let r := w.replyFrom mode pos f.pkt f.opc status.toNat final (wordsLe result) true
  let v := if final then w.upd fun d => { d with chim := { d.chim with forwards := d.chim.forwards.erase f } } else w
  if v.listens k = false ∨ (final = false ∧ f.told = true) then v
  else if f.stale then v.deliver k r else (v.deliver k r).store k r

theorem stray_reply (lost : answered s pos seq origin = none) :
    Answers (.forwardedReply pos seq status final mode result origin) s (Only s · id) := by
  refine ⟨stateOf s s.world, next_of ?_, rfl⟩
  have same : (s.world.dev.chim.forwards.find? fun f => f.pos == pos && srcKey f.pkt == origin && f.pkt.seq == seq) =
    answered s pos seq origin := rfl
  beta_reduce
  rw [same, lost]

theorem reply_row (found : answered s pos seq origin = some f) :
    exec (.forwardedReply pos seq status final mode result origin) s =
      .next (stateOf s (replyTo s.world f mode pos status final result)) := by
  refine next_of ?_
  have same : (s.world.dev.chim.forwards.find? fun f => f.pos == pos && srcKey f.pkt == origin && f.pkt.seq == seq) =
    answered s pos seq origin := rfl
  beta_reduce
  rw [same, found]
  rfl

theorem told_reply (found : answered s pos seq origin = some f) (last : final = false) (told : f.told = true) :
    Answers (.forwardedReply pos seq status final mode result origin) s (Only s · id) := by
  refine ⟨_, reply_row found, ?_⟩
  subst last
  unfold replyTo
  dsimp only
  rw [if_pos (Or.inr ⟨rfl, told⟩), if_neg Bool.false_ne_true]
  rfl

/-- Key 0 is that of the host ring alone (R63). -/
theorem hostRing_of_key {p : Packet} (key : srcKey p = 0) : p.src = .pcie := by
  unfold srcKey at key
  cases src : p.src with
  | pcie => rfl
  | mspi => rw [src] at key; cases key
  | base => rw [src] at key; cases key
  | eth port a =>
    rw [src] at key
    dsimp only at key
    split at key <;> omega

/-- A reply to a command of the host carries no tag and no destination. -/
theorem replyFrom_host {p : Packet} {opc : Half} {bs : List Byte} (key : srcKey p = 0) :
    w.replyFrom mode pos p opc status.toNat final bs true =
      { opc := opc, seq := p.seq, status := status, mode := mode, pos := pos, final := final, result := bs } := by
  have sender : packetSender p = none := by rw [packetSender, hostRing_of_key key]
  unfold W.replyFrom
  dsimp only
  rw [key, sender, ofNat_toNat]
  rfl

theorem delivered_host {v : W} {r : Reply} : (v.deliver 0 r).dev.stoker.replies.get? v.dev.stoker.replyHead.toNat = some r ∧
    (v.deliver 0 r).dev.stoker.replyHead = v.dev.stoker.replyHead + 1 ∧ (v.deliver 0 r).dev.chim = v.dev.chim :=
  ⟨get_set_self _ _ _, rfl, rfl⟩

theorem stored_host {v : W} {r : Reply} (expects : (v.dev.cmdSrc 0).expect = some (r.seq + 1)) :
    ((v.store 0 r).dev.cmdSrc 0).stored = some r := by
  unfold W.store
  rw [upd_dev, cmdSrc_onCmdSrc_self, if_pos expects]

/-- The forwarded command leaves the list with the last reply. -/
def dropForward (w : W) (f : Forward) (final : Bool) : W :=
  if final then w.upd fun d => { d with chim := { d.chim with forwards := d.chim.forwards.erase f } } else w

theorem dropForward_parts : (dropForward w f final).dev.stoker = w.dev.stoker ∧
    (dropForward w f final).dev.chim.forwards = (if final then w.dev.chim.forwards.erase f else w.dev.chim.forwards) := by
  cases final <;> exact ⟨rfl, rfl⟩

theorem replyTo_host (key : srcKey f.pkt = 0) (due : final = true ∨ f.told = false) :
    replyTo w f mode pos status final result =
      let r : Reply := { opc := f.opc, seq := f.pkt.seq, status := status, mode := mode, pos := pos, final := final,
                         result := wordsLe result }
      let v := (dropForward w f final).deliver 0 r
      if f.stale then v else v.store 0 r := by
  have open_ : ¬ ((dropForward w f final).listens 0 = false ∨ (final = false ∧ f.told = true)) := by
    rintro (deaf | ⟨more, told⟩)
    · cases deaf
    · rcases due with last | untold
      · exact Bool.noConfusion (last.symm.trans more)
      · exact Bool.noConfusion (told.symm.trans untold)
  unfold replyTo
  dsimp only
  rw [replyFrom_host key, key]
  exact if_neg open_

theorem host_reply (found : answered s pos seq origin = some f) (key : srcKey f.pkt = 0) (due : final = true ∨ f.told = false) :
    Answers (.forwardedReply pos seq status final mode result origin) s fun t =>
      let r : Reply := { opc := f.opc, seq := f.pkt.seq, status := status, mode := mode, pos := pos, final := final,
                         result := wordsLe result }
      t.dev.stoker.replies.get? s.dev.stoker.replyHead.toNat = some r ∧ t.dev.stoker.replyHead = s.dev.stoker.replyHead + 1 ∧
      t.dev.chim.forwards = (if final then s.dev.chim.forwards.erase f else s.dev.chim.forwards) ∧
      (f.stale = false → (s.dev.cmdSrc 0).expect = some (f.pkt.seq + 1) → (t.dev.cmdSrc 0).stored = some r) := by
  have row := reply_row (status := status) (mode := mode) (result := result) (final := final) found
  rw [replyTo_host key due] at row
  refine ⟨_, row, ?_⟩
  obtain ⟨ring, rest⟩ := dropForward_parts (w := s.world) (f := f) (final := final)
  generalize dropForward s.world f final = v at ring rest ⊢
  intro r
  obtain ⟨told, head, chim⟩ := delivered_host (v := v) (r := r)
  rw [ring] at told head
  have after : ∀ x : W, x.dev.stoker.replies = (v.deliver 0 r).dev.stoker.replies ∧ x.dev.stoker.replyHead = (v.deliver 0 r).dev.stoker.replyHead ∧
      x.dev.chim = (v.deliver 0 r).dev.chim → x.dev.stoker.replies.get? s.dev.stoker.replyHead.toNat = some r ∧
      x.dev.stoker.replyHead = s.dev.stoker.replyHead + 1 ∧
      x.dev.chim.forwards = (if final then s.dev.chim.forwards.erase f else s.dev.chim.forwards) := by
    rintro x ⟨replies, heads, chims⟩
    rw [replies, heads, chims]
    exact ⟨told, head, (congrArg Chim.forwards chim).trans rest⟩
  cases stale : f.stale with
  | true => exact (after _ ⟨rfl, rfl, rfl⟩).imp id fun h => h.imp id fun h => ⟨h, fun no => nomatch no⟩
  | false =>
    have expects : (s.dev.cmdSrc 0).expect = some (f.pkt.seq + 1) → (((v.deliver 0 r).store 0 r).dev.cmdSrc 0).stored = some r := fun expect =>
      stored_host ((congrArg (fun k : Stoker => (k.sources.getD 0 {}).expect) ring).trans expect)
    exact (after ((v.deliver 0 r).store 0 r) ⟨rfl, rfl, rfl⟩).imp id fun h => h.imp id fun h => ⟨h, fun _ => expects⟩

theorem reply_leaves (found : answered s pos seq origin = some f) :
    Answers (.forwardedReply pos seq status final mode result origin) s (Leaves s · fun w => replyTo w f mode pos status final result) :=
  ⟨_, reply_row found, rfl⟩

/-! A command that waited starts. -/

theorem start_row {v : W} (same : (match nthWaiting n [] s.world.dev.stoker.pends with
    | none => s.world
    | some (q, before) =>
      if s.world.otherPos q.pkt.target then
        if s.world.dev.stoker.serving && !s.world.dev.sys.resetArmed && !s.world.fenced before q.fwd q.pkt then s.world.forwardPend q else s.world
      else match s.world.cmdInfo q.opc.toNat with
      | some i =>
        if s.world.dev.stoker.serving && !s.world.dev.sys.resetArmed && !s.world.waitsFor s.world.objs before q.fwd q.opc.toNat q.pkt then
          s.world.startPend i q (bodyOf q.opc.toNat)
        else s.world
      | none => s.world) = v) : exec (.pendingCommandStart n) s = .next (fuseState s v) := by
  subst same
  rfl

theorem none_starts (idle : nthWaiting n [] s.dev.stoker.pends = none) : Answers (.pendingCommandStart n) s (Only s · id) := by
  refine ⟨fuseState s s.world, start_row ?_, rfl⟩
  have same : nthWaiting n [] s.world.dev.stoker.pends = nthWaiting n [] s.dev.stoker.pends := rfl
  rw [same, idle]

theorem elsewhere_row (found : nthWaiting n [] s.dev.stoker.pends = some (q, before)) (other : s.world.otherPos q.pkt.target = true) :
    exec (.pendingCommandStart n) s = .next (fuseState s
      (if s.dev.stoker.serving && !s.dev.sys.resetArmed && !s.world.fenced before q.fwd q.pkt then s.world.forwardPend q else s.world)) := by
  refine start_row ?_
  have same : nthWaiting n [] s.world.dev.stoker.pends = nthWaiting n [] s.dev.stoker.pends := rfl
  rw [same, found]
  dsimp only
  rw [if_pos other]
  rfl

theorem own_row (found : nthWaiting n [] s.dev.stoker.pends = some (q, before)) (known : s.world.cmdInfo q.opc.toNat = some i)
    (own : s.world.otherPos q.pkt.target = false) :
    exec (.pendingCommandStart n) s = .next (fuseState s
      (if s.dev.stoker.serving && !s.dev.sys.resetArmed && !s.world.waitsFor s.world.objs before q.fwd q.opc.toNat q.pkt then
        s.world.startPend i q (bodyOf q.opc.toNat) else s.world)) := by
  refine start_row ?_
  have same : nthWaiting n [] s.world.dev.stoker.pends = nthWaiting n [] s.dev.stoker.pends := rfl
  rw [same, found]
  dsimp only
  rw [own, if_neg Bool.false_ne_true, known]
  rfl

theorem goes_iff {a b c : Bool} : (a && !b && !c) = true ↔ a = true ∧ b = false ∧ c = false := by
  cases a <;> cases b <;> cases c <;> decide

theorem fuse_finish {st : Nat} {bs : List Byte} : (w.finish q st bs).fuse = w.fuse := (keeps_iff.mp keeps_finish).1

theorem fuse_sessionLimit {p : Packet} : (w.sessionLimit p).fuse = w.fuse := (keeps_iff.mp keeps_sessionLimit).1

theorem fuse_spent {opc : Nat} {p : Packet} : (w.spent opc p).fuse = w.fuse := (keeps_iff.mp keeps_spent).1

theorem other_waits (found : nthWaiting n [] s.dev.stoker.pends = some (q, before)) (other : s.world.otherPos q.pkt.target = true)
    (stays : ¬ (s.dev.stoker.serving = true ∧ s.dev.sys.resetArmed = false ∧ s.world.fenced before q.fwd q.pkt = false)) :
    Answers (.pendingCommandStart n) s (Only s · id) := by
  have row := elsewhere_row found other
  rw [if_neg fun go => stays (goes_iff.mp go)] at row
  exact ⟨_, row, rfl⟩

theorem other_starts (found : nthWaiting n [] s.dev.stoker.pends = some (q, before)) (other : s.world.otherPos q.pkt.target = true)
    (go : s.dev.stoker.serving = true ∧ s.dev.sys.resetArmed = false ∧ s.world.fenced before q.fwd q.pkt = false) :
    Answers (.pendingCommandStart n) s (Leaves s · fun w =>
      if w.courseTakes q.pkt.target.toNat then (w.dropPend q).sendOn q.opc q.pkt true q.stale else w.finish q 0x204 []) := by
  have row := elsewhere_row found other
  rw [if_pos (goes_iff.mpr go)] at row
  have fuses : (s.world.forwardPend q).fuse = s.fuse := by
    unfold W.forwardPend
    split
    · rfl
    · exact fuse_finish
  rw [fuseState_same fuses] at row
  exact ⟨_, row, rfl⟩

theorem own_waits (found : nthWaiting n [] s.dev.stoker.pends = some (q, before)) (known : s.world.cmdInfo q.opc.toNat = some i)
    (own : s.world.otherPos q.pkt.target = false)
    (stays : ¬ (s.dev.stoker.serving = true ∧ s.dev.sys.resetArmed = false ∧
      s.world.waitsFor s.world.objs before q.fwd q.opc.toNat q.pkt = false)) : Answers (.pendingCommandStart n) s (Only s · id) := by
  have row := own_row found known own
  rw [if_neg fun go => stays (goes_iff.mp go)] at row
  exact ⟨_, row, rfl⟩

theorem own_starts (found : nthWaiting n [] s.dev.stoker.pends = some (q, before)) (known : s.world.cmdInfo q.opc.toNat = some i)
    (own : s.world.otherPos q.pkt.target = false)
    (go : s.dev.stoker.serving = true ∧ s.dev.sys.resetArmed = false ∧ s.world.waitsFor s.world.objs before q.fwd q.opc.toNat q.pkt = false) :
    exec (.pendingCommandStart n) s = .next (fuseState s (s.world.startPend i q (bodyOf q.opc.toNat))) := by
  have row := own_row found known own
  rwa [if_pos (goes_iff.mpr go)] at row

theorem own_refused (found : nthWaiting n [] s.dev.stoker.pends = some (q, before)) (known : s.world.cmdInfo q.opc.toNat = some i)
    (own : s.world.otherPos q.pkt.target = false)
    (go : s.dev.stoker.serving = true ∧ s.dev.sys.resetArmed = false ∧ s.world.waitsFor s.world.objs before q.fwd q.opc.toNat q.pkt = false)
    (mode : s.world.modeOk i = false) :
    Answers (.pendingCommandStart n) s (Leaves s · fun w => ((w.spent i.opc q.pkt).finish q 0x200 []).sessionLimit q.pkt) := by
  have starts : s.world.startPend i q (bodyOf q.opc.toNat) = ((s.world.spent i.opc q.pkt).finish q 0x200 []).sessionLimit q.pkt := by
    rw [W.startPend, W.execute, mode, if_neg Bool.false_ne_true]
    rfl
  have row := own_starts found known own go
  rw [starts, fuseState_same (fuse_sessionLimit.trans (fuse_finish.trans fuse_spent))] at row
  exact ⟨_, row, rfl⟩

theorem own_runs (found : nthWaiting n [] s.dev.stoker.pends = some (q, before)) (known : s.world.cmdInfo q.opc.toNat = some i)
    (own : s.world.otherPos q.pkt.target = false)
    (go : s.dev.stoker.serving = true ∧ s.dev.sys.resetArmed = false ∧ s.world.waitsFor s.world.objs before q.fwd q.opc.toNat q.pkt = false)
    (mode : s.world.modeOk i = true) :
    Answers (.pendingCommandStart n) s fun t =>
      match bodyOf q.opc.toNat q.pkt s.world with
      | .fin w st r => t = { stateOf s ((w.finish q st r).sessionLimit q.pkt) with fuse := w.fuse }
      | .pend w key go => t = { stateOf s (go (w.setRunning q key)) with fuse := (go (w.setRunning q key)).fuse } := by
  have row := own_starts found known own go
  rw [W.startPend, W.execute, if_pos mode] at row
  refine ⟨_, row, ?_⟩
  cases bodyOf q.opc.toNat q.pkt s.world with
  | fin w st r =>
    have fuses : ((w.finish q st r).sessionLimit q.pkt).fuse = w.fuse := fuse_sessionLimit.trans fuse_finish
    dsimp only
    unfold fuseState
    rw [fuses]
    rfl
  | pend w key go => rfl

theorem packetsElsewhere : Sys2Proof.Says.PacketsElsewhere :=
  ⟨fun _ _ _ _ h =>
    ⟨unknown_here h, unknown_nowhere h, fun base not_ member => by
      dsimp only
      split
      · next fenced => exact forward_fenced h base not_ member fenced
      · next free => exact forward_free h base not_ member (Bool.eq_false_iff.mpr free)⟩,
   fun _ _ _ _ _ _ _ _ => ⟨stray_reply, fun _ found last told => told_reply found last told, fun _ found key due => host_reply found key due,
    fun _ found _ => reply_leaves found⟩,
   fun _ _ => ⟨none_starts, fun _ _ found other => ⟨other_waits found other, other_starts found other⟩,
    fun _ _ _ found known own => ⟨own_waits found known own, own_refused found known own, own_runs found known own⟩⟩⟩

/-- Settles O59: the windows of the chimney by `chimneyWindows`; a packet for another position, a course's reply and a
command that waited each run to the row's own operations, and the fuses follow those of the command's body. -/
theorem windowsAndForeignPackets : Obligations.WindowsAndForeignPackets := ⟨chimneyWindows, packetsElsewhere⟩

end Sys2Proof.Proofs
end

section
/-! O42: the first time frame may step the time base, and where the step's own event brings the device to SAFE, the record of
CHIM_PEER_SAFE that follows it names SAFE, not the mode in which the frame was taken (R251, R273, R492). -/

namespace Sys2Proof.Proofs

open Machine Laws

set_option Elab.async false

/-- A course in PREPARE that has not locked yet, with its up port linked; the configuration of TB_STEPPED names the device SAFE
reaction. -/
def steppedCourse : State :=
  { State.reset with dev := { State.reset.dev with
    sys := { State.reset.dev.sys with mode := .prepare }
    regs := { State.reset.dev.regs with val := State.reset.dev.regs.val.set (blockBase 2 0 + (0x1000 + 4 * 0x261)) 0x20 }
    chim := { State.reset.dev.chim with pos := 1, up := { st := .linked }, baseReach := true } } }

/-- A time frame 5 µs ahead with the mark of a base that has entered SAFE. -/
def aheadFrame : TimeFrame := { time := 5000, members := 0, safe := true, step := none }

/-- The mode that the first record of a source names behind a row. -/
def modeTold (i : Instr) (s : State) (n : Nat) : Option (BitVec 4) :=
  match exec i s with
  | .next t => some (t.dev.src n).first.mode
  | _ => none

theorem modeTold_of {i : Instr} {s t : State} {n : Nat} (ran : exec i s = .next t) : modeTold i s n = some (t.dev.src n).first.mode := by
  rw [modeTold, ran]

/-- The record names SAFE. -/
theorem steppedCourse_told : modeTold (.timeFrame aheadFrame) steppedCourse 0x38B = some Mode.safe.code := by decide +kernel

/-- Where the record is the first of its source and is logged, the entry keeps the mode that it names. -/
theorem first_after {x : Src} {level : Bool} {r : Rec} (fresh : x.count = 0) (logged : bitAt r.react 0 = true) : (x.after level r).first = r := by
  unfold Src.after
  cases level && !r.test <;> simp [logged, fresh]

/-- Refutes O42: the statement has the record of CHIM_PEER_SAFE name the mode in which the time frame was taken; here the step of
the time base, which comes first, has brought the device to SAFE. -/
theorem not_chimneyLinks : ¬ Obligations.ChimneyLinks := by
  intro holds
  obtain ⟨-, -, -, -, -, -, -, -, -, -, -, -, -, -, -, -, taken, -⟩ :=
    holds steppedCourse true true true 0 0 0 0 aheadFrame ⟨0, 0, 0, 0, 0⟩ 0 0 steppedCourse.world
  obtain ⟨t, ran, -, -, -, -, -, -, -, told⟩ := taken rfl rfl
  obtain ⟨row, -, entry⟩ := told rfl
  have first : (t.dev.src 0x38B).first.mode = Mode.prepare.code := by
    have logged : bitAt (steppedCourse.world.eventRec 0x38B (chimDetail 0 true) 0 false).react 0 = true := by decide +kernel
    rw [entry]
    exact congrArg Rec.mode (first_after (r := eventOf steppedCourse 0x38B (chimDetail 0 true) 0 t.dev.clock.tb) rfl logged)
  have left := (modeTold_of ran).symm.trans steppedCourse_told
  rw [first] at left
  exact absurd left (by decide)

end Sys2Proof.Proofs
end
